-- ==== Sys2Proof/Word.lean ====
section
/-! DEFINITION. The word types: a register is 16 bits wide (spec 00, "Reading register descriptions"); memory-port
bytes are 8 bits wide (R238). -/

namespace Sys2Proof

/-- A register word. -/
abbrev Word := BitVec 16

/-- A byte of device memory. -/
abbrev Byte := BitVec 8

end Sys2Proof
end

