-- ==== Sys2Proof/Syntax.lean ====
section
/-! DEFINITION. The commands: one constructor per row of spec/opcode_table.json, in the table's order, with the values
the outside world supplies (a frame's words, a measured voltage, the outcome of a signature check). -/

namespace Sys2Proof

/-- The four functions: F0 the owner, F1 to F3 the tenants (R223). -/
inductive Fn where
  | f0 | f1 | f2 | f3
  deriving DecidableEq, Repr

/-- The number of a function. -/
def Fn.toNat : Fn → Nat
  | .f0 => 0
  | .f1 => 1
  | .f2 => 2
  | .f3 => 3

/-- The function of a number 0 to 3. -/
def Fn.ofIndex : Nat → Fn
  | 0 => .f0
  | 1 => .f1
  | 2 => .f2
  | _ => .f3

/-- Where an SPI frame stands after the bits given (spec 08). -/
inductive SpiEnd where
  /-- `CS_N` has risen. -/
  | rise
  /-- `CS_N` is still low: the idle timeout, a fall of `VDDIO` or a reset ends the frame (R29, R185, R187). -/
  | held
  deriving DecidableEq, Repr

/-- Where a two-wire target frame stands after the bytes given (Table 9.7). -/
inductive TwEnd where
  /-- STOP after whole bytes. -/
  | stop
  /-- Repeated START after whole bytes: the next two-wire command goes on with the frame. -/
  | again
  /-- START or STOP inside a byte. -/
  | inside
  /-- Still on the bus, `SCL` stretched: the stretch timeout, `TWRST_N`, or a fall of `VDDIO` ends the frame. -/
  | held
  deriving DecidableEq, Repr

/-- How an attention attempt stands on the bus (R205, R209). -/
inductive AttnEnd where
  /-- Still on the bus. -/
  | onBus
  /-- Every byte acknowledged. -/
  | sent
  /-- The address byte is not acknowledged. -/
  | nackAddr
  /-- A data byte is not acknowledged. -/
  | nackData
  /-- `SCL` held low for longer than `STRETCH_MS`. -/
  | stretch
  deriving DecidableEq, Repr

/-- A serial port: AP0, AP1, and the biphase output and input that follow the same rules (R407, R428, R436). -/
inductive AudioPort where
  | ap0 | ap1 | bph
  deriving DecidableEq, Repr

/-- The preamble of a biphase subframe: B starts a block, M a frame, W the second subframe (R423). -/
inductive Preamble where
  | b | m | w
  deriving DecidableEq, Repr

/-- A command of the block: one constructor per row of the table, in its order. -/
inductive Instr where
  /-- `POWER_ON_RESET` (R65): VBAT falls below 1.95 V and the device enters power-on reset; Burrow survives only above
      1.80 V. -/
  | powerOnReset (vbatMin : Nat)
  /-- `POWER_ON_RESET_RELEASE` (R25): VBAT rises through 2.05 V, the internal reset releases, the ROLE pull-down
      connects and X32 starts. -/
  | powerOnResetRelease
  /-- `STRAP_SAMPLE` (R30): 0.5 ms after reset release or a RESET_N rising edge, ROLE and TEST are latched and the
      ROLE pull-down is disconnected. -/
  | strapSample (role test : Bool)
  /-- `PIN_RESET` (R33): A RESET_N low pulse of 10 µs or more resets the processors, host ports, audio ports, front
      end and GPIO but not the AON domain. -/
  | pinReset (lowUs : Nat)
  /-- `VDDIO_LOSS` (R29): VDDIO falls below 1.5 V outside SHUTDOWN; VDDIO outputs go high impedance and host and audio
      transfers are abandoned. -/
  | vddioLoss
  /-- `VDDIO_RETURN` (R29): VDDIO returns above 1.6 V; HOSTPORT_ERROR and TW_ERROR are set and waiting attention
      attempts may start. -/
  | vddioReturn
  /-- `VBAT_SAMPLE` (R43): The 250 µs charger sample adjusts the set-point through the floor loop and integrates the
      ledger. -/
  | vbatSample (vbat vres chgUa sinkUa aonNa : Nat)
  /-- `IDLE_HOLD_START` (R44): In IDLE-HOLD, VRES falls 50 mV below VRES_IDLE and the charger starts. -/
  | idleHoldStart
  /-- `CHARGE_TARGET_REACHED` (R44): VRES reaches the charge target of the current state, or VBAT − 30 mV, and
      charging stops. -/
  | chargeTargetReached
  /-- `START_CONDITION` (R46): VRES reaches 2.30 V after power-on reset or a SHUTDOWN exit, and Hedgehog is released. -/
  | startCondition
  /-- `PRE_CHARGE_START` (R45): Dormouse puts the charger in PRE-CHARGE t_pre ahead of a slot. -/
  | preChargeStart
  /-- `PRE_CHARGE_RECOMPUTE` (R45): The 10 s timer expires and Dormouse recomputes t_pre until the slot starts. -/
  | preChargeRecompute
  /-- `DEPASS_GO` (R47): The PWR_CMD.DEPASS_GO command requests one depassivation pulse, which is deferred or refused
      under Table 3.3. -/
  | depassGo (f : Fn)
  /-- `DEPASS_AUTO_START` (R48): Dormouse starts an automatic depassivation pulse when PASS_IDX reaches DEPASS_THR and
      nothing blocks it. -/
  | depassAutoStart
  /-- `DEPASS_DEFERRED_START` (R48): A pending depassivation pulse starts once the blocking slot, boot, maintenance
      activity or probe has ended. -/
  | depassDeferredStart
  /-- `DEPASS_PULSE_END` (R47): A depassivation pulse ends at DEPASS_T, and DEPASS_VMIN and DEPASS_VEND are recorded. -/
  | depassPulseEnd (vmin vend : Nat)
  /-- `DEPASS_EARLY_END` (R47): VBAT falls below the pulse limit, so the pulse ends early and BAT_SAG is set. -/
  | depassEarlyEnd (vmin vend ms : Nat)
  /-- `PASS_IDX_MEASURE` (R48): 50 ms into the first charging phase after an hour of rest, the VBAT drop is stored as
      PASS_IDX. -/
  | passIdxMeasure (rest now : Nat)
  /-- `LEDGER_COPY` (R51): The 6 h timer expires, or a staging begins, and LEDGER is copied to the CONFIG area. -/
  | ledgerCopy
  /-- `LEDGER_LOAD` (R52): The PWR_CMD.LEDGER_LOAD command sets LEDGER from the load registers and clears LEDGER_GAP. -/
  | ledgerLoad (f : Fn)
  /-- `EST_RESET` (R56): The PWR_CMD.EST_RESET command resets the capacitance and leakage estimates and clears both
      INIT values. -/
  | estReset (f : Fn)
  /-- `CAPACITANCE_SAMPLE` (R54): A qualifying part of a charging phase ends and a capacitance sample updates
      RES_C_EST. -/
  | capacitanceSample
  /-- `LEAKAGE_PROBE_START` (R55): Once a day Dormouse holds the charger OFF in a slot-free rest to probe leakage. -/
  | leakageProbeStart
  /-- `LEAKAGE_PROBE_END` (R55): The probe ends at LEAK_WIN or is cut short, and the sample is kept or discarded and
      updates RES_LEAK_EST. -/
  | leakageProbeEnd (vres secs : Nat)
  /-- `BURST_OK_LOW` (R58): BURST_OK falls when VRES drops below BURST_V − 50 mV or BURST_GUARD before an activity. -/
  | burstOkLow
  /-- `BURST_OK_HIGH` (R58): BURST_OK rises once all three of its conditions hold again. -/
  | burstOkHigh
  /-- `RESERVOIR_BROWNOUT` (R62): VRES falls below V_stop during an activity or service wake, which is ended, the buck
      is turned off and RESERVOIR_LOW is set. -/
  | reservoirBrownout
  /-- `BAT_SAG` (R64): The floor loop holds the set-point at zero for 10 ms and BAT_SAG is set once. -/
  | batSag
  /-- `RESERVOIR_FAULT` (R65): Charging at the limit raises VRES by less than 100 mV in the stated time, so
      RESERVOIR_LOW is set and a fault is recorded. -/
  | reservoirFault (rise ms : Nat)
  /-- `X32_QUALIFIED` (R68): X32 passes two measurement windows, AON switches to X32 and Dormouse is released. -/
  | x32Qualified
  /-- `X32_FAIL` (R68): X32 is not qualified 3 s after it starts, so X32_FAIL is set and the HFRC fallback starts. -/
  | x32Fail
  /-- `X32_MISSING_EDGE` (R83): A qualified X32 stops for more than 200 µs and the device switches to the HFRC
      fallback. -/
  | x32MissingEdge
  /-- `XO_QUALIFIED` (R69): XO passes qualification and the core PLL is enabled. -/
  | xoQualified (us : Nat)
  /-- `XO_FAIL` (R84): XO is not qualified within 5 ms, so XO_FAIL is set and the slot fails or the boot continues on
      HFRC. -/
  | xoFail
  /-- `XO_RETRY` (R84): The 60 s timer expires, or a new demand arrives, and the device tries XO again while CORE
      runs. -/
  | xoRetry
  /-- `PLL_LOCK` (R69): The PLL locks and CORE switches to it at a bus-idle point. -/
  | pllLock (hfrcErr : Int)
  /-- `PLL_FAIL` (R85): The PLL fails two lock attempts, so PLL_FAIL is set and CORE stays on HFRC. -/
  | pllFail
  /-- `REGISTER_WRITE` (R515): A write word to a register without a row of its own is judged in order and takes effect
      under its access code. -/
  | registerWrite (f : Fn) (off : Nat) (v : Word)
  /-- `FN_ERR_WRITE` (R229): A write of 0x0000 clears FN_ERR, and any other value is refused with BAD_ARG. -/
  | fnErrWrite (f : Fn) (v : Word)
  /-- `MODE_CMD_SHUTDOWN` (R106): The SHUTDOWN command copies the ledger, flushes the Hoard, stops activities and
      enters SHUTDOWN unless refused. -/
  | modeCmdShutdown (f : Fn)
  /-- `MODE_CMD_REST_NOW` (R91): The REST_NOW command waives the REST_DELAY condition once. -/
  | modeCmdRestNow (f : Fn)
  /-- `REST_ENTRY` (R91): Once the rest conditions hold after REST_DELAY, the device enters WARM or DEEP retention. -/
  | restEntry
  /-- `REST_ENTRY_REVERSED` (R107): A wake event that arrives during rest entry reverses the entry at the step
      reached. -/
  | restEntryReversed (cause : Nat)
  /-- `SLOT_WAKE` (R96): Dormouse wakes CORE ahead of a slot start by the lead of R95. -/
  | slotWake
  /-- `SPI_WAKE` (R181): A CS_N fall in rest wakes the device, and that frame runs with READY = 0. -/
  | spiWake
  /-- `HOST_RESUME` (R97): A host low on WAKE_N of 50 µs or more resumes the device, or starts a cold boot from
      SHUTDOWN. -/
  | hostResume (lowUs : Nat)
  /-- `HOUSEKEEP_WAKE` (R96): A ledger copy, checkpoint, health sample or XO retry wakes CORE. -/
  | housekeepWake
  /-- `WAKE_READY` (R95): After a WARM or DEEP wake, registers are restored and STATUS16 READY becomes 1. -/
  | wakeReady (supplyOk readOk : Bool)
  /-- `DELAYED_WAKE_START` (R109): A wake delayed by low VRES starts once VRES reaches VRES_STOP + 100 mV. -/
  | delayedWakeStart
  /-- `REMOTE_WAKE_ATTEMPT` (R98): For an enabled reason the device samples WAKE_N and drives it low for 1 ms. -/
  | remoteWakeAttempt (reason : Nat) (lineHigh : Bool)
  /-- `REMOTE_WAKE_SAMPLE` (R98): 20 µs after release the device samples WAKE_N and ends the attempt, or finds a
      collision. -/
  | remoteWakeSample (lineHigh : Bool)
  /-- `REMOTE_WAKE_RETRY` (R101): RETRY_S passes without a host register access and the remote-wake attempt is
      repeated. -/
  | remoteWakeRetry (lineHigh : Bool)
  /-- `WAKE_N_STUCK` (R110): WAKE_N stays low for more than 1 s, so STUCK is set and HOSTPORT_ERROR is raised. -/
  | wakeNStuck
  /-- `WAKE_N_RELEASED` (R110): WAKE_N has been high for 1 ms and a held remote-wake reason is attempted. -/
  | wakeNReleased
  /-- `COLD_BOOT_START` (R115): Hedgehog starts at its ROM vector, reads OTP, checks Burrow, records the reset cause
      and discovers the flash. -/
  | coldBootStart (burrowOk secretOk prefOk cfgOk calOk : Bool)
  /-- `IMAGE_BLOCK_ARRIVES` (R118): A streamed block arrives, is hashed, and is compared once the signature has
      passed. -/
  | imageBlockArrives (idx : Nat)
  /-- `SIGNATURE_CHECK_DONE` (R117): ECDSA verification of the manifest and hash table completes, and the held blocks
      are compared. -/
  | signatureCheckDone
  /-- `MARTEN_RELEASE` (R119): Hedgehog releases Marten once the early region, or all blocks, are verified or loaded. -/
  | martenRelease
  /-- `HEDGEHOG_FAULT` (R139): A fetch from an unverified page faults and Marten restarts with early release disabled. -/
  | hedgehogFault
  /-- `QSPI_TIMEOUT` (R140): A QSPI read exceeds 5 ms while an image is read, so the image is not loadable. -/
  | qspiTimeout
  /-- `PIKA_GO` (R161): Marten compares the dsp_epochs and writes PIKA_GO, or sets COMPAT. -/
  | pikaGo
  /-- `PIKA_RELEASE` (R120): Pika is released once its image is verified or loaded and PIKA_GO is written. -/
  | pikaRelease
  /-- `PIKA_DEFERRED_LOAD` (R122): The first demand loads and verifies a deferred Pika image. -/
  | pikaDeferredLoad (readOk : Bool)
  /-- `BUNDLE_APPLY` (R148): At a trusted cold boot Marten applies the configuration bundle entries in order before
      READY. -/
  | bundleApply (readOk : Bool)
  /-- `IDENTITY_KEY_GENERATE` (R134): At the first trusted boot with a blank identity slot, Flint generates and
      programs the identity key. -/
  | identityKeyGenerate (ok : Bool) (pub : List Word)
  /-- `BOOT_READY` (R115): Boot ends with STATUS16 READY = 1, and BOOT_EVENT is set where R144 applies. -/
  | bootReady
  /-- `HOST_LOAD_WAIT` (R127): With nothing loadable, the device enters HOST-LOAD wait and serves the reduced register
      set. -/
  | hostLoadWait
  /-- `HOST_LOAD_RETRY` (R128): The 60 s timer expires in HOST-LOAD wait and the flash channel is tried again. -/
  | hostLoadRetry
  /-- `MARTEN_HEARTBEAT_TIMEOUT` (R466): HLT_HB_MS passes without a stroke, so Hedgehog reloads Marten and activities
      end. -/
  | martenHeartbeatTimeout (reloadOk : Bool)
  /-- `SYS_WDOG` (R468): The AON system watchdog expires after 1 s without a stroke and causes a system reset. -/
  | sysWdog
  /-- `IMG_REVOKE` (R149): The IMG_REVOKE command blows a signer revoke fuse when all conditions hold. -/
  | imgRevoke (f : Fn) (v : Word)
  /-- `FUSE_PROGRAM_DONE` (R149): Fuse programming completes and REV_RES records the result. -/
  | fuseProgramDone (ok : Bool)
  /-- `IMG_PREF_WRITE` (R151): A write to IMG_PREF rewrites the BOOT_PREF record in CONFIG within 25 ms. -/
  | imgPrefWrite (f : Fn) (v : Word)
  /-- `IMG_STAGE_COMMIT` (R153): The staging op checks the source and then starts writing the target slot. -/
  | imgStageCommit (f : Fn)
  /-- `STAGING_SECTOR_WRITTEN` (R154): A staging sector is erased and programmed, and the staging moves on to the next
      one. -/
  | stagingSectorWritten (ok : Bool)
  /-- `STAGING_READBACK_DONE` (R154): The header is written and the slot is read back and verified, which sets
      BOOT_EVENT. -/
  | stagingReadbackDone (ok : Bool)
  /-- `STAGING_PAUSE` (R155): Staging pauses while a slot runs or VRES is low. -/
  | stagingPause
  /-- `STAGING_RESUME` (R155): Staging resumes once the slot has ended and VRES is back at VRES_TGT. -/
  | stagingResume
  /-- `STAGING_JOURNAL_RESUME` (R156): After a reset, Marten resumes the staging from the journal or ends it with
      SOURCE_GONE. -/
  | stagingJournalResume
  /-- `AUTO_STAGE` (R157): A completed addressed IMAGE object starts an automatic staging. -/
  | autoStage (stream obj : Nat)
  /-- `HOST_LOAD_BEGIN` (R158): The op opens the image window in boot or stage form with the declared length. -/
  | hostLoadBegin (f : Fn)
  /-- `IMAGE_WINDOW_WRITE` (R158): A MEM_DATA write to the image window is accepted in sequence, or the window is
      discarded with ORDER. -/
  | imageWindowWrite (f : Fn) (w : Word)
  /-- `IMAGE_WINDOW_VERIFY_DONE` (R129): A complete boot-form window is verified and runs trusted, or is discarded. -/
  | imageWindowVerifyDone
  /-- `IMAGE_WINDOW_IDLE` (R158): A stage-form window left unwritten for 60 s is discarded with SOURCE_GONE. -/
  | imageWindowIdle
  /-- `SPI_WRITE_FRAME` (R173): A write frame without CRC commits each word at its 16th edge. -/
  | spiWriteFrame (cmd addr : Byte) (words : List Word) (bits : Nat) (fin : SpiEnd)
  /-- `SPI_WRITE_CRC_FRAME` (R174): A write frame with CRC commits all its words at CS_N rise when length and CRC
      check. -/
  | spiWriteCrcFrame (cmd addr : Byte) (words : List Word) (crc : Byte) (bits : Nat) (fin : SpiEnd)
  /-- `SPI_READ_FRAME` (R176): A read frame returns STATUS16 and words, and removes fully clocked queue words. -/
  | spiReadFrame (cmd addr : Byte) (late fell : Option Nat) (bits : Nat) (fin : SpiEnd)
  /-- `SPI_READ_CRC_FRAME` (R178): A read frame with CRC checks CRC_H and returns words with CRC bytes. -/
  | spiReadCrcFrame (cmd addr crc : Byte) (late fell : Option Nat) (bits : Nat) (fin : SpiEnd)
  /-- `SPI_NULL_FRAME` (R181): CS_N falls and rises with no SCLK edge, which wakes the device and has no other effect. -/
  | spiNullFrame
  /-- `SPI_IDLE_TIMEOUT` (R185): CS_N stays low with no edge for IDLE_MS and the frame is abandoned. -/
  | spiIdleTimeout
  /-- `HP_CNT_CLR` (R184): The HP_CMD.CNT_CLR command clears the host port counters. -/
  | hpCntClr (f : Fn)
  /-- `TW_WRITE_FRAME` (R193): A two-wire write without PEC commits each word as its low byte is acknowledged. -/
  | twWriteFrame (a : Nat) (reg : Byte) (data : List Byte) (fin : TwEnd)
  /-- `TW_WRITE_PEC_FRAME` (R194): A two-wire write with PEC commits its buffered words at P or Sr when length and PEC
      check. -/
  | twWritePecFrame (a : Nat) (reg : Byte) (data : List Byte) (fin : TwEnd)
  /-- `TW_POINTER_SET` (R192): A frame that ends after REG sets the function's register pointer. -/
  | twPointerSet (a : Nat) (reg : Byte) (fin : TwEnd)
  /-- `TW_READ_FRAME` (R196): A two-wire read, or current read, returns words from the pointer with PEC and removes
      clocked queue words. -/
  | twReadFrame (a : Nat) (reg : Option Byte) (bytes : Nat) (fin : TwEnd)
  /-- `TW_STRETCH_TIMEOUT` (R199): A stretch exceeds STRETCH_MS, so the lines are released, the bit engine is reset
      and the outcome is STRETCH. -/
  | twStretchTimeout
  /-- `TW_WAKE_MATCH` (R200): The matcher in rest matches an own address, acknowledges it, holds SCL and wakes CORE. -/
  | twWakeMatch (a : Nat)
  /-- `TW_WAKE_RELEASE` (R200): The matcher releases SCL at READY or once the bit engine runs on HFRC. -/
  | twWakeRelease
  /-- `WAKE_STRETCH` (R202): A wake match not released within 2 ms releases the lines with NACK. -/
  | wakeStretch
  /-- `TW_ADDRESS_CONFIG_WRITE` (R191): An address configuration write is checked and takes effect at the START after
      the next STOP. -/
  | twAddressConfigWrite (f : Fn) (off : Nat) (v : Word)
  /-- `ATTENTION_MESSAGE_FORM` (R204): A routed, enabled bit sets with no message outstanding, and a message is formed
      with a new sequence. -/
  | attentionMessageForm (f : Fn)
  /-- `ATTENTION_ATTEMPT` (R205): The device sends the attention message as a controller once the bus is free. -/
  | attentionAttempt (f : Fn) (e : AttnEnd)
  /-- `ATTENTION_REPEAT` (R205): PERIOD expires without an acknowledgement and the message is repeated. -/
  | attentionRepeat (f : Fn)
  /-- `ATTN_FALLBACK` (R206): The last attempt ends without acknowledgement and the fallback pin is asserted. -/
  | attnFallback (f : Fn)
  /-- `ATTN_ACK_WRITE` (R214): A write of the outstanding sequence to ATTN_ACK ends the message, silently or late. -/
  | attnAckWrite (f : Fn) (v : Word)
  /-- `ARB_LOST` (R211): The device loses bit-wise arbitration, stops driving and backs off. -/
  | arbLost (f : Fn)
  /-- `TW_ARB_SR` (R212): Another controller's START or Sr, or SDA held low at STOP, ends the attempt with ARB_SR. -/
  | twArbSr (f : Fn)
  /-- `ARB_BACKOFF_EXPIRY` (R213): The backoff after an arbitration loss expires and the attempt starts again. -/
  | arbBackoffExpiry (f : Fn)
  /-- `TWRST_PULSE` (R215): A TWRST_N low of 100 µs resets the bit engine and matcher and abandons frames. -/
  | twrstPulse (lowUs : Nat)
  /-- `STUCK_BUS` (R216): SDA or SCL is low for longer than TW_STUCK and the device drives TWRST_N, at most three
      times. -/
  | stuckBus (sda again : Bool)
  /-- `TW_BUS_RESET` (R216): The TW_CMD.BUS_RESET command drives one 200 µs TWRST_N pulse. -/
  | twBusReset (f : Fn)
  /-- `TW_CNT_CLR` (R221): The TW_CMD.CNT_CLR command clears the two-wire counters. -/
  | twCntClr (f : Fn)
  /-- `FN_RESET` (R230): A function writes FN_RESET with the key and GO, and its reset starts. -/
  | fnReset (f : Fn) (v : Word)
  /-- `FRESET` (R230): The PART_CMD.FRESET command from F0 resets a tenant. -/
  | freset (f : Fn) (v : Word)
  /-- `FN_RESET_DONE` (R231): The function reset ends, clears per Table 10.4, releases held records and sets
      FN_RESET_DONE. -/
  | fnResetDone (f : Fn)
  /-- `PART_LOCK` (R245): The PART_CMD LOCK command locks every RWL field until a cold boot. -/
  | partLock (f : Fn) (v : Word)
  /-- `PART_DQ_WRITE` (R244): A PART_DQ write resizes the queues and empties each resized one. -/
  | partDqWrite (f : Fn) (v : Word)
  /-- `CMD_GO` (R232): GO latches the mailbox op and arguments, or ends at once for a bad op or a refused function. -/
  | cmdGo (f : Fn) (v : Word)
  /-- `CMD_DONE` (R232): A mailbox op ends, writes its results and sets CMD_DONE. -/
  | cmdDone (f : Fn)
  /-- `OP_TIMEOUT` (R233): An op still running at its timeout ends with ERR = TIMEOUT. -/
  | opTimeout (f : Fn)
  /-- `NOP` (R233): The NOP op ends with NONE. -/
  | nop (f : Fn)
  /-- `DQ_DATA_READ` (R236): A read of DQ_DATA removes and returns the next queue word. -/
  | dqDataRead (f : Fn)
  /-- `DQ_FLUSH` (R237): The DQ_CTRL.FLUSH command empties the queue without counting records as lost. -/
  | dqFlush (f : Fn)
  /-- `MEM_ADDR_WRITE` (R238): A write of MEM_ADDR_L sets the memory-port byte address and discards any prefetch. -/
  | memAddrWrite (f : Fn) (v : Word)
  /-- `MEM_DATA_ACCESS` (R239): A MEM_DATA read or write reaches a mapped region as permitted and advances the
      address. -/
  | memDataAccess (f : Fn) (w : Option Word) (qspiTo : Bool)
  /-- `PLAN_BEGIN` (R252): The BEGIN command empties the draft and opens it. -/
  | planBegin (f : Fn)
  /-- `WREC15_WRITE` (R252): A write to WREC15 stores the record window into the draft position. -/
  | wrec15Write (f : Fn) (v : Word)
  /-- `PLAN_WIDX_WRITE` (R252): A write of PLAN_WIDX loads that draft position into the record window. -/
  | planWidxWrite (f : Fn) (v : Word)
  /-- `PLAN_SUBMIT` (R253): The SUBMIT command queues admission of the draft, or withdraws the plan if the draft is
      empty. -/
  | planSubmit (f : Fn)
  /-- `PLAN_WITHDRAW` (R254): The WITHDRAW command withdraws the committed plan at once. -/
  | planWithdraw (f : Fn)
  /-- `ADMISSION_DONE` (R256): Admission runs its stages, commits or refuses the plan, and sets PLAN_DONE. -/
  | admissionDone
  /-- `PLAN_SNAPSHOT_WRITE` (R255): Committed plans are written to the CONFIG snapshot within 60 s of a change. -/
  | planSnapshotWrite
  /-- `READMISSION` (R266): A trigger re-admits the committed plans and withdraws failing ones with WITHDRAWN records. -/
  | readmission
  /-- `DAY_START` (R261): KTIME reaches the day offset and the day counters restart. -/
  | dayStart
  /-- `SLOT_START` (R264): A planned occurrence falls due and its reception or capture starts, or it is missed. -/
  | slotStart (f : Fn) (idx : Nat)
  /-- `SLOT_END` (R112): An occurrence reaches its planned end and the mode returns to rest or another activity. -/
  | slotEnd (f : Fn) (idx : Nat)
  /-- `LISTEN_START` (R265): The op starts continuous reception or is refused. -/
  | listenStart (f : Fn)
  /-- `LISTEN_STOP` (R265): The op ends the function's listening. -/
  | listenStop (f : Fn)
  /-- `LISTEN_MAX_DURATION` (R265): The listening reaches its maximum duration and ends with LISTEN_ENDED. -/
  | listenMaxDuration (f : Fn)
  /-- `LISTEN_RESUMED` (R264): The occurrence and its retune gaps end and the LISTEN resumes. -/
  | listenResumed (f : Fn)
  /-- `TUNE_JOB_START` (R274): A tune job powers a path and loads the divider, N, FRAC, band and gains. -/
  | tuneJobStart (temp : Int)
  /-- `TUNE_LOCK` (R274): The synthesizer locks and the job moves to AGC. -/
  | tuneLock (vtune : Nat)
  /-- `TUNE_LOCK_TIMEOUT` (R275): Lock fails after 2 ms, so the band is recalibrated and a second wait runs, else the
      job fails. -/
  | tuneLockTimeout (band : Nat)
  /-- `AGC_SETTLED` (R274): AGC settles, the job enters RUN and RSSI is valid. -/
  | agcSettled (rssi : Int) (lna ifGain lfGain : Nat)
  /-- `LOSS_OF_LOCK` (R276): Loss of lock in RUN returns the job to LOCK. -/
  | lossOfLock
  /-- `LISTEN_JOB_RETRY` (R275): A failed LISTEN tune job is retried every 1 s. -/
  | listenJobRetry
  /-- `FES_AF_GO` (R280): The FES_AF_CTL.GO command requests an AF check on the held KFC. -/
  | fesAfGo (f : Fn)
  /-- `AF_CHECK` (R279): An AF check retunes, measures RSSI on the alternative and returns home. -/
  | afCheck (rssi : Option Int) (us : Nat)
  /-- `SYN_APPLY` (R282): The SYN_APPLY command loads the six raw synthesizer registers together. -/
  | synApply (f : Fn)
  /-- `RAW_FES_WRITE` (R283): A raw front-end write acts at once and spoils a running reception. -/
  | rawFesWrite (f : Fn) (off : Nat) (v : Word)
  /-- `RAW_HOLD` (R284): A write of HOLD = 1 powers the named path under raw control and stops tune jobs. -/
  | rawHold (f : Fn) (v : Word)
  /-- `RAW_HOLD_CLEAR` (R284): Clearing HOLD returns control to the sequencer and resumes listening. -/
  | rawHoldClear (f : Fn)
  /-- `CAL_RUN` (R290): The op runs the selected calibrations in MAINTAIN. -/
  | calRun (f : Fn)
  /-- `CAL_DONE` (R286): A calibration run ends, the masks are recorded and CAL_DONE is set. -/
  | calDone (good margin ms : Nat) (temp : Int) (bands : List Nat)
  /-- `AUTO_PEND` (R289): The record reaches 30 days or the temperature drifts 15 °C, and AUTO_PEND is set. -/
  | autoPend
  /-- `AUTO_CAL_START` (R289): A pending automatic calibration starts when nothing blocks it. -/
  | autoCalStart
  /-- `FLOOD_UNKNOWN_TIMEOUT` (R294): The state becomes UNKNOWN after 7 days without an evaluation. -/
  | floodUnknownTimeout
  /-- `RELEARN` (R292): The FLOOD_CMD.RELEARN command clears the baselines and sets the state UNKNOWN. -/
  | relearn (f : Fn)
  /-- `RF_SURVEY` (R295): A survey occurrence ends and the RF_SURVEY record is delivered. -/
  | rfSurvey (f : Fn) (idx : Nat)
  /-- `RDS_SYNC_ACQUIRED` (R300): Two valid offsets 26 bits apart give block synchronisation. -/
  | rdsSyncAcquired (pilot : Bool)
  /-- `RDS_SYNC_LOST` (R300): SYNC_LOSS of the last 16 blocks are uncorrectable and synchronisation is lost. -/
  | rdsSyncLost
  /-- `RDS_BLOCK` (R301): An RDS block is received, corrected and counted. -/
  | rdsBlock (pos bits : Nat) (data : Word)
  /-- `RDS_GROUP` (R304): A complete group is delivered as an RDS_GROUP record and interpreted. -/
  | rdsGroup (at_ : Nat)
  /-- `AF_LIST_COMPLETE` (R307): The AF list completes or times out after 10 s, and a LIST record is delivered on a
      change. -/
  | afListComplete
  /-- `AF_SEARCH` (R309): Weak RSSI or lost sync or PI lasts DWELL and the AF search runs. -/
  | afSearch (cause : Nat) (rssis : List (Option Int))
  /-- `AF_SWITCH` (R310): The PI is confirmed on the candidate within PI_DWELL and the switch stands. -/
  | afSwitch (us : Nat)
  /-- `AF_RETURN` (R309): PI_DWELL passes without confirmation, so the device returns home and bans the candidate. -/
  | afReturn
  /-- `AF_PERIODIC_CHECK` (R309): Every 10 s with a good signal, the next candidate is checked. -/
  | afPeriodicCheck (rssi : Option Int)
  /-- `AF_RECALL` (R311): No PI appears on the planned KFC within PI_DWELL, so the last switched frequency is tried. -/
  | afRecall
  /-- `DAB_SYNC` (R320): Two null symbols and the phase reference give frame synchronisation. -/
  | dabSync
  /-- `DAB_SYNC_LOST` (R320): Null detection or FIB CRCs fail repeatedly, synchronisation is lost and acquisition
      restarts. -/
  | dabSyncLost
  /-- `DAB_FIB` (R321): A FIB is received, checked, its FIGs interpreted and DAB_FIG records delivered. -/
  | dabFib (at_ : Nat) (crcOk : Bool) (bytes : List Byte)
  /-- `DAB_RECONFIGURATION` (R322): The announced configuration is applied at its CIF count. -/
  | dabReconfiguration
  /-- `DAB_PACKET` (R325): A packet on a served address is checked and passed to the EDF layer. -/
  | dabPacket (crcOk : Bool) (bytes : List Byte)
  /-- `DAB_AF_SEARCH` (R330): Weak RSSI or FIB errors last DWELL and the DAB following search runs. -/
  | dabAfSearch (cause : Nat) (rssis : List (Option Int))
  /-- `DAB_AF_SWITCH` (R331): Sync, EId and SId are confirmed within CONF_DWELL and the switch stands. -/
  | dabAfSwitch (ms : Nat)
  /-- `DAB_AF_RETURN` (R330): Confirmation fails, so the device returns home and bans the candidate. -/
  | dabAfReturn
  /-- `DAB_FREQ_MEASURE` (R335): Each second of sync, Pika passes a carrier-based XO error measurement. -/
  | dabFreqMeasure (err : Int) (sd : Nat)
  /-- `DAB_PIKA_TIMEOUT` (R337): A DAB Pika job exceeds its timeout and the frame's CIFs are lost. -/
  | dabPikaTimeout
  /-- `LF_MARKER` (R344): A second marker is classified and second synchronisation is tracked. -/
  | lfMarker (edge durUs : Nat)
  /-- `LF_SECSYNC_LOST` (R344): Five seconds without a marker lose second synchronisation. -/
  | lfSecsyncLost
  /-- `LF_FRAME` (R349): A minute mark ends a frame, it is judged, and the LF_FRAME record is delivered. -/
  | lfFrame
  /-- `LF_CARRIER_MEASURE` (R348): After each 4 s of carrier, an XO error measurement is passed on. -/
  | lfCarrierMeasure (err : Int) (sd : Nat)
  /-- `LF_CARRIER_CHANGE` (R348): The carrier stays above or below CAR_DB for 1 s, which sets or clears CARRIER. -/
  | lfCarrierChange (db : Int)
  /-- `LFT_TPL_SEL_WRITE` (R343): A write of LFT_TPL_SEL loads the slot into the edit window. -/
  | lftTplSelWrite (f : Fn) (v : Word)
  /-- `LFT_TPL_COMMIT` (R343): The COMMIT command copies the template into the slot, or refuses it. -/
  | lftTplCommit (f : Fn)
  /-- `LFT_TPL_CLEAR` (R343): The CLEAR command empties the selected template slot. -/
  | lftTplClear (f : Fn)
  /-- `TIME_CANDIDATE_APPLY` (R356): A time candidate is ranked, then applied by slew or step or rejected, with a
      TIME_EVENT. -/
  | timeCandidateApply
  /-- `SLEW_END` (R357): The slew has absorbed Δ and τ returns to the trim. -/
  | slewEnd
  /-- `TIME_DEFERRED_APPLY` (R358): At capture end the kept deferred candidate is retested and applied. -/
  | timeDeferredApply
  /-- `TIME_SET` (R359): The op gives a host time candidate or changes LEAP. -/
  | timeSet (f : Fn)
  /-- `AON_TEMP_SAMPLE` (R519): The 64 s AON temperature sample sets the RTC trim and the holdover rate. -/
  | aonTempSample (temp : Int)
  /-- `X32_PAIR_WINDOW` (R361): A 1 s window counting X32 against XO ends and may feed the X32 model. -/
  | x32PairWindow (relErr : Int) (moved : Nat)
  /-- `LEAP_APPLIED` (R365): At the leap instant LEAP changes by one. -/
  | leapApplied
  /-- `LEAP_CLR` (R364): The TIME_CMD.LEAP_CLR command cancels a pending announcement. -/
  | leapClr (f : Fn)
  /-- `MODEL_RESET` (R361): The TIME_CMD.MODEL_RESET command returns both models to the prior. -/
  | modelReset (f : Fn)
  /-- `TIME_PULSE` (R368): A GPIO pulse is emitted at each KTIME second plus the phase. -/
  | timePulse
  /-- `TIME_LOSS` (R370): The TQ code rises to the threshold or to 31 and TIME_LOSS is raised. -/
  | timeLoss
  /-- `TIME_LOSS_THR_WRITE` (R370): A threshold write at or below the present code raises LOSS with cause 0x01. -/
  | timeLossThrWrite (f : Fn) (v : Word)
  /-- `RDS_SEGMENT_TIMEOUT` (R377): A partial RDS segment is abandoned 30 s after its first group. -/
  | rdsSegmentTimeout
  /-- `BLOCK_COMPLETE` (R382): k distinct indices complete a block, by concatenation or Pika interpolation. -/
  | blockComplete (stream obj blk : Nat) (pikaOk : Bool)
  /-- `DECODE_RETRY` (R382): A failed decode is retried at the end of the next reception. -/
  | decodeRetry (stream obj blk : Nat) (pikaOk : Bool)
  /-- `OBJECT_ACCEPTANCE` (R387): The completed object passes the acceptance checks in order. -/
  | objectAcceptance (stream obj : Nat)
  /-- `VAN_WINDOW_START` (R390): Dormouse drives WAKE_N at a van window start. -/
  | vanWindowStart
  /-- `EDF_SEGMENT_STAT` (R397): At the end of a reception, per-stream segment statistics are delivered. -/
  | edfSegmentStat
  /-- `HOARD_FLUSH` (R398): Waiting segments are appended to Hoard flash. -/
  | hoardFlush
  /-- `HOARD_COMPACT` (R399): With no contiguous run free, segment records are compacted in MAINTAIN. -/
  | hoardCompact
  /-- `OBJECT_EXPIRY` (R401): An object expires, is released or goes stale, and leaves the Hoard for the done list. -/
  | objectExpiry (stream obj : Nat)
  /-- `WEAR_LEVEL_MOVE` (R402): The erase-count spread exceeds 2000 and records are moved. -/
  | wearLevelMove
  /-- `HOARD_QUERY_STATUS` (R403): The HOARD_QUERY STATUS sub-op returns an object's state. -/
  | hoardQueryStatus (f : Fn)
  /-- `HOARD_QUERY_RELEASE` (R403): The HOARD_QUERY RELEASE sub-op releases the caller's claim on an object. -/
  | hoardQueryRelease (f : Fn)
  /-- `HOARD_QUERY_LIST` (R403): The HOARD_QUERY LIST sub-op returns the next object of a stream. -/
  | hoardQueryList (f : Fn)
  /-- `HOARD_QUERY_USAGE` (R403): The HOARD_QUERY USAGE sub-op returns the caller's Hoard usage and quota. -/
  | hoardQueryUsage (f : Fn)
  /-- `VERIFY_OBJECT` (R404): The op runs the acceptance checks and, with CONSUME, applies the outcome. -/
  | verifyObject (f : Fn)
  /-- `EDF_ERASE` (R405): The EDF_CMD.ERASE command from F0 deletes all incomplete, held and rejected objects. -/
  | edfErase (f : Fn)
  /-- `VAN_CLR` (R390): The EDF_CMD.VAN_CLR command removes every van window. -/
  | vanClr (f : Fn)
  /-- `EDF_FLUSH` (R398): The EDF_CMD.FLUSH command writes waiting segments to flash. -/
  | edfFlush (f : Fn)
  /-- `AP_ARM_WRITE` (R412): Setting ARM checks the port settings and arms it, or refuses. -/
  | apArmWrite (f : Fn) (port : AudioPort) (v : Word)
  /-- `AP_PORT_START` (R408): An armed port starts at capture start with frame 0 at the start instant. -/
  | apPortStart (port : AudioPort)
  /-- `AP_TX_FRAME_EDGE` (R416): At each frame edge the transmitter state machine plays, fades, stays silent or ramps. -/
  | apTxFrameEdge (port : AudioPort)
  /-- `AP_RX_FRAME_EDGE` (R417): At each frame edge the receiver stores, fades, holds or ramps. -/
  | apRxFrameEdge (port : AudioPort) (slots : List Int)
  /-- `AP_HARD_LOSS` (R418): A FIFO empties or fills, and samples are lost without a fade. -/
  | apHardLoss (port : AudioPort) (receive : Bool) (samples : Nat)
  /-- `AP0_WPTR_WRITE` (R414): A write advancing AP0_WPTR adds frames to the ring, or is refused. -/
  | ap0WptrWrite (f : Fn) (v : Word)
  /-- `RING_RST` (R414): The RING_RST command zeroes the ring pointers. -/
  | ringRst (f : Fn) (port : AudioPort)
  /-- `AP_PORT_STOP` (R415): A port stops at the end of the frame in progress. -/
  | apPortStop (port : AudioPort)
  /-- `BPH_LOCK` (R424): Two B preambles 192 frames apart declare receiver lock. -/
  | bphLock (apart : Nat) (violation : Bool)
  /-- `BPH_LOCK_LOST` (R424): Missing preambles or violations lose lock and give a discontinuity. -/
  | bphLockLost (missing violated : Nat)
  /-- `BPH_SUBFRAME` (R425): A received subframe is parity-checked and packed. -/
  | bphSubframe (pre : Preamble) (word : BitVec 24) (valid user status parityOk : Bool)
  /-- `BPH_BLOCK_END` (R426): At each block end the channel status is copied and a user message is checked. -/
  | bphBlockEnd
  /-- `BPH_RATE_MEASURE` (R427): A 1 s window measures the frame rate and may raise RATE_CHANGE. -/
  | bphRateMeasure (mHz : Nat)
  /-- `BPH_OUT_FRAME` (R428): BPH_OUT sends a frame under the transmitter state machine. -/
  | bphOutFrame
  /-- `CAPTURE_START` (R433): At the start instant less CAPT_LEAD, the device enters CAPTURE and enables the source. -/
  | captureStart
  /-- `CAPTURE_BLOCK_WRITE` (R435): A full block is written into the capture buffer with a BLOCK record. -/
  | captureBlockWrite
  /-- `CAPT_REL_WRITE` (R436): A write of CAPT_REL releases capture buffer space. -/
  | captRelWrite (f : Fn) (v : Word)
  /-- `CAPTURE_END` (R433): The capture duration ends, the last block is written and END is delivered. -/
  | captureEnd
  /-- `STATS` (R438): Pika leak statistics are delivered as a STATS record per channel. -/
  | stats (pikaOk : Bool)
  /-- `SNIPPET` (R439): The filtered correlation snippet is delivered in SNIPPET records. -/
  | snippet
  /-- `SPILL` (R440): Unreleased blocks are spilled to the function's capture store in flash. -/
  | spill
  /-- `SPILL_DEL` (R440): The CAPT_CMD.SPILL_DEL command deletes the writing function's capture store. -/
  | spillDel (f : Fn)
  /-- `CAPTURE_NOW` (R443): The op starts a capture at GO plus CAPT_LEAD, or is refused. -/
  | captureNow (f : Fn)
  /-- `TWIN_EN_WRITE` (R513): Enabling twinning after READY starts the undecided watch. -/
  | twinEnWrite (f : Fn) (v : Word)
  /-- `UNDECIDED_TIMEOUT` (R447): With no pulse for 2 × PERIOD + 0.25 s, the undecided unit claims with STARTUP. -/
  | undecidedTimeout
  /-- `HEARTBEAT_EMIT` (R449): The active unit pulses TWIN_HB at each PERIOD-aligned second. -/
  | heartbeatEmit
  /-- `TWIN_HB_PULSE` (R449): A low pulse on TWIN_HB is classified and latched. -/
  | twinHbPulse (lowUs : Nat)
  /-- `HB_STUCK` (R449): TWIN_HB low for over 1 ms sets HB_STUCK once. -/
  | hbStuck
  /-- `TAKEOVER_DUE` (R450): 3 × PERIOD + 0.25 s of silence wakes the standby with cause TWIN. -/
  | takeoverDue
  /-- `CLAIM` (R456): The unit drives a claim pulse, takes ACTIVE, restores state and re-admits plans. -/
  | claim (lineLow : Bool)
  /-- `CLAIMING_END` (R456): CLAIMING clears 2 × PERIOD after the claim. -/
  | claimingEnd
  /-- `CHECKPOINT_BUILD` (R452): The active unit builds a checkpoint and sends the WAKE frame. -/
  | checkpointBuild (wakeAck : Bool)
  /-- `CKPT_NOW` (R452): The TWIN_CMD.CKPT_NOW command starts a checkpoint now. -/
  | ckptNow (f : Fn)
  /-- `CHUNK_SEND` (R452): 30 ms after WAKE, or after a NACK retry delay, CHUNK frames are sent. -/
  | chunkSend (ack : Bool)
  /-- `TWIN_FRAME_RECEIVED` (R454): The receiver takes a twin frame and assembles chunks in Burrow. -/
  | twinFrameReceived (bytes : List Byte) (pec : Byte)
  /-- `PARTIAL_SET_TIMEOUT` (R454): A partial chunk set is discarded 5 s after its first chunk. -/
  | partialSetTimeout
  /-- `CHECKPOINT_CONFIG_COPY` (R454): Every 6 h the receiver copies the committed checkpoint to CONFIG. -/
  | checkpointConfigCopy
  /-- `TWIN_SWAP` (R460): The op sends a checkpoint and HANDOVER for a planned swap. -/
  | twinSwap (f : Fn)
  /-- `SWAP_FAILED` (R460): No claim follows HANDOVER within 1 s, so the unit stays active. -/
  | swapFailed
  /-- `STANDBY_SELFTEST` (R461): On the due day and hour the standby runs its self-test and sends STEST. -/
  | standbySelftest (mask : Nat)
  /-- `HEALTH_SAMPLE` (R471): At each day start the monitors are sampled and the life estimate updated. -/
  | healthSample
  /-- `SAMPLE_NOW` (R471): The HLT_CMD.SAMPLE_NOW command takes a health sample. -/
  | sampleNow (f : Fn)
  /-- `REPLACE_CLR` (R478): The HLT_CMD.REPLACE_CLR command clears REPLACE if the next evaluation allows. -/
  | replaceClr (f : Fn)
  /-- `SVC_START` (R482): The HLT_CMD.SVC_START command sets HLT_SVC and zeroes the service counters. -/
  | svcStart (f : Fn)
  /-- `HEALTH_REPORT` (R480): The op writes a signed or unsigned health report to the Burrow user area. -/
  | healthReport (f : Fn) (sig : List Byte)
  /-- `SELFTEST` (R481): The op runs the selected self-test checks on the active unit. -/
  | selftest (f : Fn) (mask ms : Nat)
  /-- `SIGN_RECORD` (R132): The op signs a record with the identity or function key, or is refused when locked. -/
  | signRecord (f : Fn)
  /-- `BUS_DEAD_RELEASE` (R216): After BUS_DEAD, the stuck line has been high for 1 ms and the stuck-bus detector may
      drive TWRST_N pulses again. -/
  | busDeadRelease
  /-- `BASELINE_ENTRY_DROP` (R292): A flood baseline entry without a measurement for 60 days is dropped, which may
      clear BASE_OK. -/
  | baselineEntryDrop (kfc : Nat)
  /-- `AF_BAN_END` (R309): The AF_BAN time of a banned FM candidate runs out, so it clears BANNED and becomes a
      candidate again. -/
  | afBanEnd (code : Nat)
  /-- `DAB_AF_BAN_END` (R330): The DAB_AF_BAN time of a banned DAB candidate runs out, so it clears BANNED and becomes
      a candidate again. -/
  | dabAfBanEnd (freq : Nat)
  /-- `DAB_AF_PERIODIC_CHECK` (R330): While the home DAB signal is good, one AF check every 10 s on the next candidate
      keeps the candidates' RSSI current. -/
  | dabAfPeriodicCheck (rssi : Option Int)
  /-- `DAB_AF_RECALL` (R331): An occurrence without synchronisation on its planned KFC within CONF_DWELL tries the
      frequency of the watch's last switch. -/
  | dabAfRecall
  /-- `DONE_LIST_EXPIRY` (R401): A (stream id, object id) pair that has been on the done list for 90 days is dropped,
      so its segments can be collected again. -/
  | doneListExpiry (stream obj : Nat)
  deriving DecidableEq, Repr

end Sys2Proof
end

