-- ==== Sys2Proof/Config.lean ====
section
/-! DEFINITION. What the spec leaves open: values that nothing in the model fixes. Every constant here is opaque, so no
proof can see a value of it, and a statement about the model holds whatever they are. -/

namespace Sys2Proof.Config

/-- A fresh open word: applied to the counter `State.freeCtr`, which the step advances. Used where the spec names a
result and gives it no value (log entry 10). -/
opaque freeWord : Nat → BitVec 16

/-- Which way a quotient is rounded where the spec states no rounding (log entry 11). -/
opaque roundsUp : ℚ → Bool

/-- The retention tag that Flint forms for a tag key, the hash of the running hash table and a rest counter: an AES-CMAC under
a key that nothing reads (R123, log entry 175). -/
opaque retentionTag : Nat → List (BitVec 8) → Nat → Nat

/-- The 16 bytes of the CMAC key of function F1 to F3, which Flint derives from the device secret and a label the spec does not
give (R132, log entry 174). -/
opaque functionKey : Nat → List (BitVec 8)

/-- The VCO band of a divider code that the factory trims in OTP give (R287, log entry 167). -/
opaque factoryBand : Nat → BitVec 6

/-- The byte a readable place of internal layout holds at an address: the Hoard SRAM cache, the CONFIG area (R514) and
the Hoard-area bytes outside stored objects (log entry 12). -/
opaque internalByte : Nat → BitVec 8

/-- The X32 model's error in 0.001 ppm, after a first real pair: pairs fed (temperature in 0.125 °C, error in 0.001 ppm,
KTIME second), the present second and a temperature. The spec gives the fit's kind and not its arithmetic (log entry 22). -/
opaque x32Fit : List (Int × Int × Nat) → Nat → Int → Int

/-- The RMS residual of the X32 model in 0.001 ppm (log entry 22). -/
opaque x32Resid : List (Int × Int × Nat) → Nat → Nat

/-- The coefficient a0 of the X32 model in 0.001 ppm (log entry 22). -/
opaque x32A0 : List (Int × Int × Nat) → Nat → Int

/-- The XO model's error in 0.001 ppm (log entry 22). -/
opaque xoFit : List (Int × Int × Nat) → Nat → Int → Int

/-- The slope of three or more a0 records (KTIME day, 0.001 ppm), in 0.001 ppm per 30 days (log entry 22). -/
opaque a0Slope : List (Nat × Int) → Int

/-- An image of a kind fits its processor's SRAM at a load address with a number of bytes: the spec gives no processor
address map (log entry 25). -/
opaque loadFits : Nat → Nat → Nat → Bool

/-- The whole number beside `q` that the device forms: the floor or the ceiling, `roundsUp` says which; an integer
stays itself. -/
def round (q : ℚ) : Int := if q.den = 1 then q.num else if roundsUp q then ⌈q⌉ else ⌊q⌋

end Sys2Proof.Config
end

