-- ==== Sys2Proof/Machine/Regs.lean ====
section
/-! DEFINITION. The register map: every host-visible register of the spec as a row (key, reset, access masks), and
every field as a named constant. A page register's key is page × 0x100 + offset; a common-part register's key below
is its offset, and `Fld.on` moves it into the window of one function (R224). The access masks follow the Access
columns of the field tables (R7); the resets follow their Reset columns (R5); a "var" reset is a log entry's value. -/

namespace Sys2Proof.Machine

/-- A bit field of a register: bits hi down to lo of the register whose key is given. -/
structure Fld where
  key : Nat
  hi : Nat
  lo : Nat
  deriving DecidableEq, Repr

/-- How many values the field holds. -/
def Fld.size (x : Fld) : Nat := 2 ^ (x.hi + 1 - x.lo)

/-- The mask of the field inside its register. -/
def Fld.mask (x : Fld) : Nat := (x.size - 1) <<< x.lo

/-- Key of common-part offset `off` in the window of function `f` (0 to 3), R224. -/
def commonKey (f off : Nat) : Nat := 0x10000 * (f + 1) + off

/-- A common-part field in the window of function number `f`. -/
def Fld.on (x : Fld) (f : Nat) : Fld := { x with key := commonKey f x.key }

/-- One register: its key, its reset word and which bits are RW, W1C, WO and RWL (Table 0.3). -/
structure RegDef where
  key : Nat
  reset : Nat
  rw : Nat
  w1c : Nat
  wo : Nat
  rwl : Nat
  deriving DecidableEq, Repr

namespace R

def PWR_STAT.w : Fld := ⟨0x380, 15, 0⟩
def PWR_STAT.CHG_STATE : Fld := ⟨0x380, 9, 8⟩
def PWR_STAT.LEDGER_GAP : Fld := ⟨0x380, 7, 7⟩
def PWR_STAT.LEAK_PROBE : Fld := ⟨0x380, 6, 6⟩
def PWR_STAT.BURST_OK : Fld := ⟨0x380, 5, 5⟩
def PWR_STAT.DEPASS_PEND : Fld := ⟨0x380, 4, 4⟩
def PWR_STAT.DEPASS_BUSY : Fld := ⟨0x380, 3, 3⟩
def PWR_STAT.THROTTLED : Fld := ⟨0x380, 2, 2⟩
def PWR_STAT.CHG_ON : Fld := ⟨0x380, 1, 1⟩
def PWR_STAT.VRES_OK : Fld := ⟨0x380, 0, 0⟩
def CHG_CFG.w : Fld := ⟨0x381, 15, 0⟩
def CHG_CFG.CHG_LIMIT : Fld := ⟨0x381, 5, 0⟩
def VBAT_FLOOR.w : Fld := ⟨0x382, 15, 0⟩
def VBAT_FLOOR.HYST : Fld := ⟨0x382, 11, 8⟩
def VBAT_FLOOR.FLOOR : Fld := ⟨0x382, 7, 0⟩
def VRES_TGT.w : Fld := ⟨0x383, 15, 0⟩
def VRES_TGT.TGT : Fld := ⟨0x383, 7, 0⟩
def VRES_IDLE.w : Fld := ⟨0x384, 15, 0⟩
def VRES_IDLE.IDLE : Fld := ⟨0x384, 7, 0⟩
def VRES_STOP.w : Fld := ⟨0x385, 15, 0⟩
def VRES_STOP.STOP : Fld := ⟨0x385, 7, 0⟩
def BUCK_V.w : Fld := ⟨0x386, 15, 0⟩
def BUCK_V.VOUT : Fld := ⟨0x386, 4, 0⟩
def VBAT_MEAS.w : Fld := ⟨0x387, 15, 0⟩
def VRES_MEAS.w : Fld := ⟨0x388, 15, 0⟩
def CHG_I_MEAS.w : Fld := ⟨0x389, 15, 0⟩
def LEDGER_L.w : Fld := ⟨0x38A, 15, 0⟩
def LEDGER_H.w : Fld := ⟨0x38B, 15, 0⟩
def LEDGER_LD_L.w : Fld := ⟨0x38C, 15, 0⟩
def LEDGER_LD_H.w : Fld := ⟨0x38D, 15, 0⟩
def RES_CNOM.w : Fld := ⟨0x38E, 15, 0⟩
def RES_C_EST.w : Fld := ⟨0x38F, 15, 0⟩
def RES_C_INIT.w : Fld := ⟨0x390, 15, 0⟩
def RES_LEAK_EST.w : Fld := ⟨0x391, 15, 0⟩
def RES_LEAK_INIT.w : Fld := ⟨0x392, 15, 0⟩
def THROT_AVG.w : Fld := ⟨0x393, 15, 0⟩
def THROT_AVG.FRAC : Fld := ⟨0x393, 7, 0⟩
def PASS_IDX.w : Fld := ⟨0x394, 15, 0⟩
def DEPASS_CFG.w : Fld := ⟨0x395, 15, 0⟩
def DEPASS_CFG.DEPASS_AUTO : Fld := ⟨0x395, 10, 10⟩
def DEPASS_CFG.DEPASS_T : Fld := ⟨0x395, 9, 4⟩
def DEPASS_CFG.DEPASS_I : Fld := ⟨0x395, 3, 0⟩
def DEPASS_THR.w : Fld := ⟨0x396, 15, 0⟩
def DEPASS_THR.THR : Fld := ⟨0x396, 7, 0⟩
def DEPASS_VMIN.w : Fld := ⟨0x397, 15, 0⟩
def DEPASS_VEND.w : Fld := ⟨0x398, 15, 0⟩
def LEAK_WIN.w : Fld := ⟨0x399, 15, 0⟩
def BURST_CFG.w : Fld := ⟨0x39A, 15, 0⟩
def BURST_CFG.BURST_GUARD : Fld := ⟨0x39A, 15, 8⟩
def BURST_CFG.BURST_V : Fld := ⟨0x39A, 7, 0⟩
def RES_ESR.w : Fld := ⟨0x39B, 15, 0⟩
def PWR_CMD.w : Fld := ⟨0x39C, 15, 0⟩
def PWR_CMD.EST_RESET : Fld := ⟨0x39C, 2, 2⟩
def PWR_CMD.LEDGER_LOAD : Fld := ⟨0x39C, 1, 1⟩
def PWR_CMD.DEPASS_GO : Fld := ⟨0x39C, 0, 0⟩
def INT_CNT_SEL.w : Fld := ⟨0x15, 15, 0⟩
def INT_CNT_SEL.SRC : Fld := ⟨0x15, 4, 0⟩
def INT_CNT.w : Fld := ⟨0x16, 15, 0⟩
def CLK_STAT.w : Fld := ⟨0x180, 15, 0⟩
def CLK_STAT.AON_SRC : Fld := ⟨0x180, 8, 8⟩
def CLK_STAT.X32_OK : Fld := ⟨0x180, 7, 7⟩
def CLK_STAT.XO_OK : Fld := ⟨0x180, 6, 6⟩
def CLK_STAT.PLL_LOCK : Fld := ⟨0x180, 5, 5⟩
def CLK_STAT.CORE_SRC : Fld := ⟨0x180, 4, 4⟩
def CLK_STAT.PIKA_ON : Fld := ⟨0x180, 3, 3⟩
def CLK_STAT.SYN_ON : Fld := ⟨0x180, 2, 2⟩
def CLK_STAT.HFRC_ON : Fld := ⟨0x180, 1, 1⟩
def CLK_STAT.HFRC_TRIMMED : Fld := ⟨0x180, 0, 0⟩
def CLK_EVT.w : Fld := ⟨0x181, 15, 0⟩
def CLK_EVT.PLL_FAIL : Fld := ⟨0x181, 2, 2⟩
def CLK_EVT.XO_FAIL : Fld := ⟨0x181, 1, 1⟩
def CLK_EVT.X32_FAIL : Fld := ⟨0x181, 0, 0⟩
def XO_TRIM.w : Fld := ⟨0x182, 15, 0⟩
def XO_TRIM.CL : Fld := ⟨0x182, 4, 0⟩
def X32_TRIM.w : Fld := ⟨0x183, 15, 0⟩
def X32_TRIM.CL : Fld := ⟨0x183, 4, 0⟩
def HFRC_ERR.w : Fld := ⟨0x184, 15, 0⟩
def XO_START.w : Fld := ⟨0x185, 15, 0⟩
def CLK_FAILCNT.w : Fld := ⟨0x186, 15, 0⟩
def CLK_FAILCNT.XO : Fld := ⟨0x186, 15, 8⟩
def CLK_FAILCNT.PLL : Fld := ⟨0x186, 7, 0⟩
def MODE.w : Fld := ⟨0x280, 15, 0⟩
def MODE.AWAKE : Fld := ⟨0x280, 12, 12⟩
def MODE.MAINTAIN_ACT : Fld := ⟨0x280, 11, 11⟩
def MODE.CAPTURE_ACT : Fld := ⟨0x280, 10, 10⟩
def MODE.LISTEN_ACT : Fld := ⟨0x280, 9, 9⟩
def MODE.SLOT_ACT : Fld := ⟨0x280, 8, 8⟩
def MODE.STANDBY : Fld := ⟨0x280, 7, 7⟩
def MODE.MATCH_ON : Fld := ⟨0x280, 6, 6⟩
def MODE.RET : Fld := ⟨0x280, 5, 4⟩
def MODE.IDLE : Fld := ⟨0x280, 3, 3⟩
def MODE.CUR : Fld := ⟨0x280, 2, 0⟩
def MODE_CFG.w : Fld := ⟨0x281, 15, 0⟩
def MODE_CFG.REST_DELAY : Fld := ⟨0x281, 15, 8⟩
def MODE_CFG.MATCH_EN : Fld := ⟨0x281, 2, 2⟩
def MODE_CFG.IDLE_DEEP : Fld := ⟨0x281, 1, 1⟩
def MODE_CFG.RET_DEEP : Fld := ⟨0x281, 0, 0⟩
def MODE_CTRL.w : Fld := ⟨0x282, 15, 0⟩
def MODE_CTRL.STAY_AWAKE : Fld := ⟨0x282, 0, 0⟩
def MODE_CMD.w : Fld := ⟨0x283, 15, 0⟩
def MODE_CMD.KEY : Fld := ⟨0x283, 15, 8⟩
def MODE_CMD.REQ : Fld := ⟨0x283, 1, 0⟩
def WAKE_CAUSE.w : Fld := ⟨0x284, 15, 0⟩
def WAKE_CAUSE.PREV : Fld := ⟨0x284, 7, 4⟩
def WAKE_CAUSE.CAUSE : Fld := ⟨0x284, 3, 0⟩
def WAKE_CFG.w : Fld := ⟨0x285, 15, 0⟩
def WAKE_CFG.RETRIES : Fld := ⟨0x285, 9, 8⟩
def WAKE_CFG.RETRY_S : Fld := ⟨0x285, 7, 4⟩
def WAKE_CFG.INT_EN : Fld := ⟨0x285, 3, 3⟩
def WAKE_CFG.TWIN_EN : Fld := ⟨0x285, 2, 2⟩
def WAKE_CFG.REPLACE_EN : Fld := ⟨0x285, 1, 1⟩
def WAKE_CFG.VAN_EN : Fld := ⟨0x285, 0, 0⟩
def WAKE_HREASON.w : Fld := ⟨0x286, 15, 0⟩
def WAKE_HREASON.PEND : Fld := ⟨0x286, 15, 15⟩
def WAKE_HREASON.COLLIDED : Fld := ⟨0x286, 14, 14⟩
def WAKE_HREASON.TRIES : Fld := ⟨0x286, 11, 8⟩
def WAKE_HREASON.REASON : Fld := ⟨0x286, 3, 0⟩
def WAKE_MON.w : Fld := ⟨0x287, 15, 0⟩
def WAKE_MON.COLL_CNT : Fld := ⟨0x287, 15, 8⟩
def WAKE_MON.STUCK : Fld := ⟨0x287, 1, 1⟩
def WAKE_MON.LEVEL : Fld := ⟨0x287, 0, 0⟩
def GPIO0_CFG.w : Fld := ⟨0x288, 15, 0⟩
def GPIO0_CFG.PULL : Fld := ⟨0x288, 5, 5⟩
def GPIO0_CFG.INV : Fld := ⟨0x288, 4, 4⟩
def GPIO0_CFG.OUT : Fld := ⟨0x288, 3, 3⟩
def GPIO0_CFG.FUNC : Fld := ⟨0x288, 2, 0⟩
def GPIO1_CFG.w : Fld := ⟨0x289, 15, 0⟩
def GPIO1_CFG.PULL : Fld := ⟨0x289, 5, 5⟩
def GPIO1_CFG.INV : Fld := ⟨0x289, 4, 4⟩
def GPIO1_CFG.OUT : Fld := ⟨0x289, 3, 3⟩
def GPIO1_CFG.FUNC : Fld := ⟨0x289, 2, 0⟩
def GPIO_IN.w : Fld := ⟨0x28A, 15, 0⟩
def GPIO_IN.GPIO1 : Fld := ⟨0x28A, 1, 1⟩
def GPIO_IN.GPIO0 : Fld := ⟨0x28A, 0, 0⟩
def BOOT_STAT.w : Fld := ⟨0x480, 15, 0⟩
def BOOT_STAT.ALL_VERIFIED : Fld := ⟨0x480, 15, 15⟩
def BOOT_STAT.EARLY_REDO : Fld := ⟨0x480, 14, 14⟩
def BOOT_STAT.WARM_RESUME : Fld := ⟨0x480, 13, 13⟩
def BOOT_STAT.CAL_WHY : Fld := ⟨0x480, 10, 8⟩
def BOOT_STAT.PIKA : Fld := ⟨0x480, 7, 6⟩
def BOOT_STAT.SRC : Fld := ⟨0x480, 5, 4⟩
def BOOT_STAT.TRUSTED : Fld := ⟨0x480, 3, 3⟩
def BOOT_STAT.STAGE : Fld := ⟨0x480, 2, 0⟩
def BOOT_FAULT.w : Fld := ⟨0x481, 15, 0⟩
def BOOT_FAULT.SLOT_B : Fld := ⟨0x481, 15, 8⟩
def BOOT_FAULT.SLOT_A : Fld := ⟨0x481, 7, 0⟩
def BOOT_TIME_M.w : Fld := ⟨0x482, 15, 0⟩
def BOOT_TIME_R.w : Fld := ⟨0x483, 15, 0⟩
def BOOT_CFG.w : Fld := ⟨0x484, 15, 0⟩
def BOOT_CFG.CAL_FORCE : Fld := ⟨0x484, 2, 2⟩
def BOOT_CFG.PIKA_DEFER : Fld := ⟨0x484, 1, 1⟩
def BOOT_CFG.EARLY_EN : Fld := ⟨0x484, 0, 0⟩
def BOOT_FBLK.w : Fld := ⟨0x485, 15, 0⟩
def BOOT_CNT.w : Fld := ⟨0x486, 15, 0⟩
def BOOT_CNT.UNTRUSTED : Fld := ⟨0x486, 15, 8⟩
def BOOT_CNT.ALL : Fld := ⟨0x486, 7, 0⟩
def FLINT_STAT.w : Fld := ⟨0x580, 15, 0⟩
def FLINT_STAT.GROUP : Fld := ⟨0x580, 7, 4⟩
def FLINT_STAT.IDENT_OK : Fld := ⟨0x580, 3, 3⟩
def FLINT_STAT.LOCK_CAUSE : Fld := ⟨0x580, 2, 1⟩
def FLINT_STAT.LOCKED : Fld := ⟨0x580, 0, 0⟩
def FLINT_REFCNT.w : Fld := ⟨0x581, 15, 0⟩
def FLINT_OTP.w : Fld := ⟨0x582, 15, 0⟩
def FLINT_OTP.HASH_SET : Fld := ⟨0x582, 7, 4⟩
def FLINT_OTP.REVOKED : Fld := ⟨0x582, 3, 0⟩
def FLINT_IDPUB.w (i : Nat) : Fld := ⟨0x5A0 + i, 15, 0⟩
def IMG_RUN_VER.w : Fld := ⟨0x680, 15, 0⟩
def IMG_RUN_VER.MAJOR : Fld := ⟨0x680, 15, 8⟩
def IMG_RUN_VER.MINOR : Fld := ⟨0x680, 7, 0⟩
def IMG_A_VER.w : Fld := ⟨0x688, 15, 0⟩
def IMG_A_VER.MAJOR : Fld := ⟨0x688, 15, 8⟩
def IMG_A_VER.MINOR : Fld := ⟨0x688, 7, 0⟩
def IMG_B_VER.w : Fld := ⟨0x690, 15, 0⟩
def IMG_B_VER.MAJOR : Fld := ⟨0x690, 15, 8⟩
def IMG_B_VER.MINOR : Fld := ⟨0x690, 7, 0⟩
def IMG_RUN_PATCH.w : Fld := ⟨0x681, 15, 0⟩
def IMG_A_PATCH.w : Fld := ⟨0x689, 15, 0⟩
def IMG_B_PATCH.w : Fld := ⟨0x691, 15, 0⟩
def IMG_RUN_BUILD_L.w : Fld := ⟨0x682, 15, 0⟩
def IMG_RUN_BUILD_H.w : Fld := ⟨0x683, 15, 0⟩
def IMG_A_BUILD_L.w : Fld := ⟨0x68A, 15, 0⟩
def IMG_A_BUILD_H.w : Fld := ⟨0x68B, 15, 0⟩
def IMG_B_BUILD_L.w : Fld := ⟨0x692, 15, 0⟩
def IMG_B_BUILD_H.w : Fld := ⟨0x693, 15, 0⟩
def IMG_A_INFO.w : Fld := ⟨0x68C, 15, 0⟩
def IMG_A_INFO.STATE : Fld := ⟨0x68C, 15, 14⟩
def IMG_A_INFO.SIGNER : Fld := ⟨0x68C, 13, 12⟩
def IMG_A_INFO.FAULT : Fld := ⟨0x68C, 7, 0⟩
def IMG_B_INFO.w : Fld := ⟨0x694, 15, 0⟩
def IMG_B_INFO.STATE : Fld := ⟨0x694, 15, 14⟩
def IMG_B_INFO.SIGNER : Fld := ⟨0x694, 13, 12⟩
def IMG_B_INFO.FAULT : Fld := ⟨0x694, 7, 0⟩
def IMG_EPOCH.w : Fld := ⟨0x684, 15, 0⟩
def IMG_EPOCH.MARTEN : Fld := ⟨0x684, 15, 8⟩
def IMG_EPOCH.PIKA : Fld := ⟨0x684, 7, 0⟩
def IMG_PREF.w : Fld := ⟨0x698, 15, 0⟩
def IMG_PREF.ONCE : Fld := ⟨0x698, 8, 8⟩
def IMG_PREF.SLOT : Fld := ⟨0x698, 0, 0⟩
def IMG_REVOKE.w : Fld := ⟨0x699, 15, 0⟩
def IMG_REVOKE.KEY : Fld := ⟨0x699, 15, 8⟩
def IMG_REVOKE.INDEX : Fld := ⟨0x699, 1, 0⟩
def IMG_STAT.w : Fld := ⟨0x69A, 15, 0⟩
def IMG_STAT.REV_RES : Fld := ⟨0x69A, 7, 4⟩
def IMG_STAT.REV_BUSY : Fld := ⟨0x69A, 0, 0⟩
def IMG_STAGE.w : Fld := ⟨0x69B, 15, 0⟩
def IMG_STAGE.STATE : Fld := ⟨0x69B, 15, 13⟩
def IMG_STAGE.SRC : Fld := ⟨0x69B, 12, 12⟩
def IMG_STAGE.TARGET : Fld := ⟨0x69B, 11, 11⟩
def IMG_STAGE.RESULT : Fld := ⟨0x69B, 7, 0⟩
def IMG_STAGE_PROG.w : Fld := ⟨0x69C, 15, 0⟩
def IMG_STAGE_PROG.FAULT : Fld := ⟨0x69C, 15, 8⟩
def IMG_STAGE_PROG.SECTORS : Fld := ⟨0x69C, 7, 0⟩
def IMG_HL_STAT.w : Fld := ⟨0x69D, 15, 0⟩
def IMG_HL_STAT.STATE : Fld := ⟨0x69D, 15, 13⟩
def IMG_HL_STAT.FORM : Fld := ⟨0x69D, 12, 12⟩
def IMG_HL_STAT.ACCEPT : Fld := ⟨0x69D, 11, 11⟩
def IMG_HL_STAT.RESULT : Fld := ⟨0x69D, 7, 0⟩
def IMG_HL_NEXT_L.w : Fld := ⟨0x69E, 15, 0⟩
def IMG_HL_NEXT_H.w : Fld := ⟨0x69F, 15, 0⟩
def IMG_BCAST.w : Fld := ⟨0x6A0, 15, 0⟩
def IMG_CFG.w : Fld := ⟨0x6A1, 15, 0⟩
def IMG_CFG.SKIPPED : Fld := ⟨0x6A1, 1, 1⟩
def IMG_CFG.AUTO_STAGE : Fld := ⟨0x6A1, 0, 0⟩
def HP_CFG.w : Fld := ⟨0x780, 15, 0⟩
def HP_CFG.IDLE_MS : Fld := ⟨0x780, 15, 8⟩
def HP_CFG.CRC_REQ : Fld := ⟨0x780, 0, 0⟩
def HP_EVT.w : Fld := ⟨0x781, 15, 0⟩
def HP_EVT.VDDIO : Fld := ⟨0x781, 4, 4⟩
def HP_EVT.TIMEOUT : Fld := ⟨0x781, 3, 3⟩
def HP_EVT.FRAMING : Fld := ⟨0x781, 2, 2⟩
def HP_EVT.CRC : Fld := ⟨0x781, 1, 1⟩
def HP_EVT.SHORT_FRAME : Fld := ⟨0x781, 0, 0⟩
def HP_LAST.w : Fld := ⟨0x782, 15, 0⟩
def HP_LAST.OUTCOME : Fld := ⟨0x782, 15, 12⟩
def HP_LAST.FN : Fld := ⟨0x782, 11, 10⟩
def HP_LAST.BYTES : Fld := ⟨0x782, 9, 0⟩
def HP_CNT_SHORT.w : Fld := ⟨0x783, 15, 0⟩
def HP_CNT_CRC.w : Fld := ⟨0x784, 15, 0⟩
def HP_CNT_FRAMING.w : Fld := ⟨0x785, 15, 0⟩
def HP_CNT_TIMEOUT.w : Fld := ⟨0x786, 15, 0⟩
def HP_CNT_NRDY.w : Fld := ⟨0x787, 15, 0⟩
def HP_FRAMES_L.w : Fld := ⟨0x788, 15, 0⟩
def HP_FRAMES_H.w : Fld := ⟨0x789, 15, 0⟩
def HP_CMD.w : Fld := ⟨0x78A, 15, 0⟩
def HP_CMD.CNT_CLR : Fld := ⟨0x78A, 0, 0⟩
def ATTN_ACK.w : Fld := ⟨0x7, 15, 0⟩
def ATTN_ACK.OUT : Fld := ⟨0x7, 15, 15⟩
def ATTN_ACK.FALLBACK : Fld := ⟨0x7, 14, 14⟩
def ATTN_ACK.TRIES : Fld := ⟨0x7, 7, 4⟩
def ATTN_ACK.SEQ : Fld := ⟨0x7, 3, 0⟩
def TW_CFG.w : Fld := ⟨0x880, 15, 0⟩
def TW_CFG.STUCK_RST_EN : Fld := ⟨0x880, 15, 15⟩
def TW_CFG.PEC : Fld := ⟨0x880, 14, 14⟩
def TW_CFG.ADDR_MODE : Fld := ⟨0x880, 13, 13⟩
def TW_CFG.FILT : Fld := ⟨0x880, 12, 8⟩
def TW_CFG.STRETCH_MS : Fld := ⟨0x880, 7, 0⟩
def TW_FADDR01.w : Fld := ⟨0x881, 15, 0⟩
def TW_FADDR01.EN1 : Fld := ⟨0x881, 15, 15⟩
def TW_FADDR01.ADDR1 : Fld := ⟨0x881, 14, 8⟩
def TW_FADDR01.EN0 : Fld := ⟨0x881, 7, 7⟩
def TW_FADDR01.ADDR0 : Fld := ⟨0x881, 6, 0⟩
def TW_FADDR23.w : Fld := ⟨0x882, 15, 0⟩
def TW_FADDR23.EN3 : Fld := ⟨0x882, 15, 15⟩
def TW_FADDR23.ADDR3 : Fld := ⟨0x882, 14, 8⟩
def TW_FADDR23.EN2 : Fld := ⟨0x882, 7, 7⟩
def TW_FADDR23.ADDR2 : Fld := ⟨0x882, 6, 0⟩
def TW_ADDR.w : Fld := ⟨0x883, 15, 0⟩
def TW_ADDR.ADDR : Fld := ⟨0x883, 6, 0⟩
def TW_MASK.w : Fld := ⟨0x884, 15, 0⟩
def TW_MASK.MASK : Fld := ⟨0x884, 6, 0⟩
def TW_HOSTADDR.w : Fld := ⟨0x885, 15, 0⟩
def TW_HOSTADDR.ADDR : Fld := ⟨0x885, 6, 0⟩
def TW_CTL_CFG.w : Fld := ⟨0x886, 15, 0⟩
def TW_CTL_CFG.PERIOD : Fld := ⟨0x886, 15, 8⟩
def TW_CTL_CFG.TRIES : Fld := ⟨0x886, 7, 4⟩
def TW_CTL_CFG.FALLBACK : Fld := ⟨0x886, 3, 3⟩
def TW_CTL_CFG.SPEED : Fld := ⟨0x886, 1, 0⟩
def TW_STUCK.w : Fld := ⟨0x887, 15, 0⟩
def TW_STUCK.MS : Fld := ⟨0x887, 7, 0⟩
def TW_EVT.w : Fld := ⟨0x888, 15, 0⟩
def TW_EVT.VDDIO : Fld := ⟨0x888, 10, 10⟩
def TW_EVT.ATTN_FALLBACK : Fld := ⟨0x888, 9, 9⟩
def TW_EVT.WAKE_STRETCH : Fld := ⟨0x888, 8, 8⟩
def TW_EVT.BUS_DEAD : Fld := ⟨0x888, 7, 7⟩
def TW_EVT.STUCK_DRIVEN : Fld := ⟨0x888, 6, 6⟩
def TW_EVT.TWRST_SEEN : Fld := ⟨0x888, 5, 5⟩
def TW_EVT.CANCELLED_LATE : Fld := ⟨0x888, 4, 4⟩
def TW_EVT.ARB_SR : Fld := ⟨0x888, 3, 3⟩
def TW_EVT.FRAMING : Fld := ⟨0x888, 2, 2⟩
def TW_EVT.PEC : Fld := ⟨0x888, 1, 1⟩
def TW_EVT.STRETCH : Fld := ⟨0x888, 0, 0⟩
def TW_LAST.w : Fld := ⟨0x889, 15, 0⟩
def TW_LAST.OUTCOME : Fld := ⟨0x889, 15, 12⟩
def TW_LAST.FN : Fld := ⟨0x889, 11, 10⟩
def TW_LAST.BYTES : Fld := ⟨0x889, 9, 0⟩
def TW_ATTN_STAT.w : Fld := ⟨0x88A, 15, 0⟩
def TW_ATTN_STAT.FN : Fld := ⟨0x88A, 13, 12⟩
def TW_ATTN_STAT.SEQ : Fld := ⟨0x88A, 11, 8⟩
def TW_ATTN_STAT.TRY : Fld := ⟨0x88A, 7, 4⟩
def TW_ATTN_STAT.OUTCOME : Fld := ⟨0x88A, 3, 0⟩
def TW_CNT_ERR.w : Fld := ⟨0x88B, 15, 0⟩
def TW_CNT_ARB.w : Fld := ⟨0x88C, 15, 0⟩
def TW_CNT_ATTN.w : Fld := ⟨0x88D, 15, 0⟩
def TW_CMD.w : Fld := ⟨0x88E, 15, 0⟩
def TW_CMD.BUS_RESET : Fld := ⟨0x88E, 1, 1⟩
def TW_CMD.CNT_CLR : Fld := ⟨0x88E, 0, 0⟩
def FN_ID.w : Fld := ⟨0x0, 15, 0⟩
def FN_ID.UNIT : Fld := ⟨0x0, 7, 7⟩
def FN_ID.STANDBY : Fld := ⟨0x0, 6, 6⟩
def FN_ID.FN : Fld := ⟨0x0, 1, 0⟩
def DEV_ID.w : Fld := ⟨0x1, 15, 0⟩
def DEV_STEP.w : Fld := ⟨0x2, 15, 0⟩
def DEV_STEP.HIF_EPOCH : Fld := ⟨0x2, 15, 8⟩
def DEV_STEP.STEP : Fld := ⟨0x2, 7, 0⟩
def FN_SEQ.w : Fld := ⟨0x6, 15, 0⟩
def FN_STATE.w : Fld := ⟨0x3, 15, 0⟩
def FN_STATE.UNTRUSTED : Fld := ⟨0x3, 15, 15⟩
def FN_STATE.COMPAT : Fld := ⟨0x3, 14, 14⟩
def FN_STATE.FLOCK : Fld := ⟨0x3, 13, 13⟩
def FN_STATE.REPLACE : Fld := ⟨0x3, 12, 12⟩
def FN_STATE.PLOCK : Fld := ⟨0x3, 11, 11⟩
def FN_STATE.FB_PEND : Fld := ⟨0x3, 10, 10⟩
def FN_STATE.RESET_BUSY : Fld := ⟨0x3, 9, 9⟩
def FN_RESET.w : Fld := ⟨0x4, 15, 0⟩
def FN_RESET.KEY : Fld := ⟨0x4, 15, 8⟩
def FN_RESET.GO : Fld := ⟨0x4, 0, 0⟩
def FN_ERR.w : Fld := ⟨0x5, 15, 0⟩
def FN_ERR.CODE : Fld := ⟨0x5, 7, 0⟩
def INT_STAT0.w : Fld := ⟨0x10, 15, 0⟩
def INT_STAT0.SECURITY : Fld := ⟨0x10, 15, 15⟩
def INT_STAT0.RATE_CHANGE : Fld := ⟨0x10, 14, 14⟩
def INT_STAT0.AUDIO_EVENT : Fld := ⟨0x10, 13, 13⟩
def INT_STAT0.TWIN_EVENT : Fld := ⟨0x10, 12, 12⟩
def INT_STAT0.REPLACE : Fld := ⟨0x10, 11, 11⟩
def INT_STAT0.HEALTH : Fld := ⟨0x10, 10, 10⟩
def INT_STAT0.FN_RESET_DONE : Fld := ⟨0x10, 9, 9⟩
def INT_STAT0.CMD_DONE : Fld := ⟨0x10, 8, 8⟩
def INT_STAT0.EDF_COMMAND : Fld := ⟨0x10, 7, 7⟩
def INT_STAT0.EDF_OBJECT : Fld := ⟨0x10, 6, 6⟩
def INT_STAT0.TIME_LOSS : Fld := ⟨0x10, 5, 5⟩
def INT_STAT0.TIME_UPDATE : Fld := ⟨0x10, 4, 4⟩
def INT_STAT0.DQ_OVERRUN : Fld := ⟨0x10, 3, 3⟩
def INT_STAT0.DQ_DATA : Fld := ⟨0x10, 2, 2⟩
def INT_STAT0.WATCH_EVENT : Fld := ⟨0x10, 1, 1⟩
def INT_STAT0.PLAN_DONE : Fld := ⟨0x10, 0, 0⟩
def INT_STAT1.w : Fld := ⟨0x11, 15, 0⟩
def INT_STAT1.ARB_SR : Fld := ⟨0x11, 10, 10⟩
def INT_STAT1.WAKE_COLLIDED : Fld := ⟨0x11, 9, 9⟩
def INT_STAT1.AF_SWITCH : Fld := ⟨0x11, 8, 8⟩
def INT_STAT1.FLOOD_STATE : Fld := ⟨0x11, 7, 7⟩
def INT_STAT1.CAL_DONE : Fld := ⟨0x11, 6, 6⟩
def INT_STAT1.WDOG : Fld := ⟨0x11, 5, 5⟩
def INT_STAT1.BOOT_EVENT : Fld := ⟨0x11, 4, 4⟩
def INT_STAT1.HOSTPORT_ERROR : Fld := ⟨0x11, 3, 3⟩
def INT_STAT1.TW_ERROR : Fld := ⟨0x11, 2, 2⟩
def INT_STAT1.BAT_SAG : Fld := ⟨0x11, 1, 1⟩
def INT_STAT1.RESERVOIR_LOW : Fld := ⟨0x11, 0, 0⟩
def INT_EN0.w : Fld := ⟨0x12, 15, 0⟩
def INT_EN1.w : Fld := ⟨0x13, 15, 0⟩
def INT_ROUTE.w : Fld := ⟨0x14, 15, 0⟩
def INT_ROUTE.S1H : Fld := ⟨0x14, 7, 6⟩
def INT_ROUTE.S1L : Fld := ⟨0x14, 5, 4⟩
def INT_ROUTE.S0H : Fld := ⟨0x14, 3, 2⟩
def INT_ROUTE.S0L : Fld := ⟨0x14, 1, 0⟩
def CMD_OP.w : Fld := ⟨0x20, 15, 0⟩
def CMD_ARG.w (i : Nat) : Fld := ⟨0x21 + i, 15, 0⟩
def CMD_GO.w : Fld := ⟨0x27, 15, 0⟩
def CMD_GO.GO : Fld := ⟨0x27, 0, 0⟩
def CMD_STAT.w : Fld := ⟨0x28, 15, 0⟩
def CMD_STAT.BUSY : Fld := ⟨0x28, 15, 15⟩
def CMD_STAT.DONE : Fld := ⟨0x28, 14, 14⟩
def CMD_STAT.ABORTED : Fld := ⟨0x28, 13, 13⟩
def CMD_STAT.ERR : Fld := ⟨0x28, 7, 0⟩
def CMD_RES.w (i : Nat) : Fld := ⟨0x29 + i, 15, 0⟩
def DQ_CTRL.w : Fld := ⟨0x50, 15, 0⟩
def DQ_CTRL.FLUSH : Fld := ⟨0x50, 0, 0⟩
def DQ_LEVEL.w : Fld := ⟨0x51, 15, 0⟩
def DQ_SIZE.w : Fld := ⟨0x54, 15, 0⟩
def DQ_LOST.w : Fld := ⟨0x55, 15, 0⟩
def DQ_THR.w : Fld := ⟨0x52, 15, 0⟩
def DQ_DATA.w : Fld := ⟨0x53, 15, 0⟩
def DQ_NEXT.w : Fld := ⟨0x56, 15, 0⟩
def MEM_ADDR_H.w : Fld := ⟨0x60, 15, 0⟩
def MEM_ADDR_L.w : Fld := ⟨0x61, 15, 0⟩
def MEM_CTRL.w : Fld := ⟨0x62, 15, 0⟩
def MEM_CTRL.WR : Fld := ⟨0x62, 1, 1⟩
def MEM_CTRL.INC : Fld := ⟨0x62, 0, 0⟩
def MEM_DATA.w : Fld := ⟨0x63, 15, 0⟩
def MEM_STAT.w : Fld := ⟨0x64, 15, 0⟩
def MEM_STAT.QSPI_TO : Fld := ⟨0x64, 3, 3⟩
def MEM_STAT.UNMAPPED : Fld := ⟨0x64, 2, 2⟩
def MEM_STAT.VIOL : Fld := ⟨0x64, 1, 1⟩
def MEM_STAT.BUSY : Fld := ⟨0x64, 0, 0⟩
def MEM_POS_L.w : Fld := ⟨0x65, 15, 0⟩
def MEM_POS_H.w : Fld := ⟨0x66, 15, 0⟩
def PART_STAT.w : Fld := ⟨0x980, 15, 0⟩
def PART_STAT.FRESET_BUSY : Fld := ⟨0x980, 3, 1⟩
def PART_STAT.LOCKED : Fld := ⟨0x980, 0, 0⟩
def PART_CMD.w : Fld := ⟨0x981, 15, 0⟩
def PART_CMD.KEY : Fld := ⟨0x981, 15, 8⟩
def PART_CMD.FRESET : Fld := ⟨0x981, 3, 1⟩
def PART_CMD.LOCK : Fld := ⟨0x981, 0, 0⟩
def PART_GRANT.w (i : Nat) : Fld := ⟨0x982 + i, 15, 0⟩
def PART_DQ.w : Fld := ⟨0x98B, 15, 0⟩
def PART_QE_F.w (i : Nat) : Fld := ⟨0x98C + i, 15, 0⟩
def PART_QT_F.w (i : Nat) : Fld := ⟨0x990 + i, 15, 0⟩
def PART_QH_F.w (i : Nat) : Fld := ⟨0x994 + i, 15, 0⟩
def PART_PRIO.w : Fld := ⟨0x998, 15, 0⟩
def PART_PRIO.CEIL : Fld := ⟨0x998, 7, 0⟩
def PLAN_CTRL.w : Fld := ⟨0x30, 15, 0⟩
def PLAN_CTRL.WITHDRAW : Fld := ⟨0x30, 2, 2⟩
def PLAN_CTRL.SUBMIT : Fld := ⟨0x30, 1, 1⟩
def PLAN_CTRL.BEGIN : Fld := ⟨0x30, 0, 0⟩
def PLAN_STAT.w : Fld := ⟨0x31, 15, 0⟩
def PLAN_STAT.BUSY : Fld := ⟨0x31, 15, 15⟩
def PLAN_STAT.COMMITTED : Fld := ⟨0x31, 14, 14⟩
def PLAN_STAT.DRAFT_OPEN : Fld := ⟨0x31, 13, 13⟩
def PLAN_STAT.LISTEN_ACT : Fld := ⟨0x31, 12, 12⟩
def PLAN_STAT.LISTEN_PAUSED : Fld := ⟨0x31, 11, 11⟩
def PLAN_STAT.FULL : Fld := ⟨0x31, 10, 10⟩
def PLAN_RESULT.w : Fld := ⟨0x32, 15, 0⟩
def PLAN_RESULT.DETAIL : Fld := ⟨0x32, 15, 8⟩
def PLAN_RESULT.REASON : Fld := ⟨0x32, 7, 0⟩
def PLAN_FAILW.w : Fld := ⟨0x33, 15, 0⟩
def PLAN_FAILW.VALID : Fld := ⟨0x33, 15, 15⟩
def PLAN_FAILW.FN : Fld := ⟨0x33, 9, 8⟩
def PLAN_FAILW.INDEX : Fld := ⟨0x33, 3, 0⟩
def PLAN_WIDX.w : Fld := ⟨0x34, 15, 0⟩
def PLAN_WIDX.INDEX : Fld := ⟨0x34, 3, 0⟩
def PLAN_COUNT.w : Fld := ⟨0x35, 15, 0⟩
def PLAN_COUNT.COMMITTED : Fld := ⟨0x35, 12, 8⟩
def PLAN_COUNT.DRAFT : Fld := ⟨0x35, 4, 0⟩
def PLAN_SEQ.w : Fld := ⟨0x36, 15, 0⟩
def PLAN_USE_E.w : Fld := ⟨0x37, 15, 0⟩
def PLAN_USE_T.w : Fld := ⟨0x38, 15, 0⟩
def DAY_USE_E.w : Fld := ⟨0x39, 15, 0⟩
def DAY_USE_T.w : Fld := ⟨0x3A, 15, 0⟩
def WREC.w (i : Nat) : Fld := ⟨0x40 + i, 15, 0⟩
def SCHED_STAT.w : Fld := ⟨0xA80, 15, 0⟩
def SCHED_STAT.BUSY : Fld := ⟨0xA80, 15, 15⟩
def SCHED_STAT.WATCHES : Fld := ⟨0xA80, 13, 8⟩
def SCHED_STAT.QUEUED : Fld := ⟨0xA80, 2, 0⟩
def FES_STAT.w : Fld := ⟨0xB80, 15, 0⟩
def FES_STAT.HOLD : Fld := ⟨0xB80, 15, 15⟩
def FES_STAT.RAW_TOUCHED : Fld := ⟨0xB80, 14, 14⟩
def FES_STAT.PATH : Fld := ⟨0xB80, 13, 12⟩
def FES_STAT.LOCKED : Fld := ⟨0xB80, 11, 11⟩
def FES_STAT.JOB : Fld := ⟨0xB80, 10, 8⟩
def FES_STAT.AF_BUSY : Fld := ⟨0xB80, 7, 7⟩
def FES_KFC_L.w : Fld := ⟨0xB81, 15, 0⟩
def FES_KFC_H.w : Fld := ⟨0xB82, 15, 0⟩
def FES_RSSI.w : Fld := ⟨0xB83, 15, 0⟩
def FES_AF_RSSI.w : Fld := ⟨0xB89, 15, 0⟩
def FES_AGC.w : Fld := ⟨0xB84, 15, 0⟩
def FES_AGC.LNA : Fld := ⟨0xB84, 11, 8⟩
def FES_AGC.IF : Fld := ⟨0xB84, 7, 4⟩
def FES_AGC.LFPGA : Fld := ⟨0xB84, 2, 0⟩
def FES_AF_KFC_L.w : Fld := ⟨0xB85, 15, 0⟩
def FES_AF_KFC_H.w : Fld := ⟨0xB86, 15, 0⟩
def FES_AF_CTL.w : Fld := ⟨0xB87, 15, 0⟩
def FES_AF_CTL.GO : Fld := ⟨0xB87, 0, 0⟩
def FES_AF_STAT.w : Fld := ⟨0xB88, 15, 0⟩
def FES_AF_STAT.BUSY : Fld := ⟨0xB88, 15, 15⟩
def FES_AF_STAT.VALID : Fld := ⟨0xB88, 14, 14⟩
def FES_AF_STAT.LOCKFAIL : Fld := ⟨0xB88, 13, 13⟩
def FES_AF_STAT.DUR : Fld := ⟨0xB88, 11, 0⟩
def FES_RAW_CTL.w : Fld := ⟨0xB8A, 15, 0⟩
def FES_RAW_CTL.PATH : Fld := ⟨0xB8A, 2, 1⟩
def FES_RAW_CTL.HOLD : Fld := ⟨0xB8A, 0, 0⟩
def FES_RAW_LNA.w : Fld := ⟨0xB8B, 15, 0⟩
def FES_RAW_LNA.ZIF : Fld := ⟨0xB8B, 9, 9⟩
def FES_RAW_LNA.EN : Fld := ⟨0xB8B, 8, 8⟩
def FES_RAW_LNA.GAIN : Fld := ⟨0xB8B, 3, 0⟩
def FES_RAW_MIX.w : Fld := ⟨0xB8C, 15, 0⟩
def FES_RAW_MIX.ZIF : Fld := ⟨0xB8C, 9, 9⟩
def FES_RAW_MIX.EN : Fld := ⟨0xB8C, 8, 8⟩
def FES_RAW_MIX.GAIN : Fld := ⟨0xB8C, 3, 0⟩
def FES_RAW_LFPGA.w : Fld := ⟨0xB8D, 15, 0⟩
def FES_RAW_LFPGA.ZIF : Fld := ⟨0xB8D, 9, 9⟩
def FES_RAW_LFPGA.EN : Fld := ⟨0xB8D, 8, 8⟩
def FES_RAW_LFPGA.GAIN : Fld := ⟨0xB8D, 3, 0⟩
def FES_CNT_LOCKFAIL.w : Fld := ⟨0xB8E, 15, 0⟩
def FES_CNT_RAW.w : Fld := ⟨0xB8F, 15, 0⟩
def FLOOD_STAT.w : Fld := ⟨0xB90, 15, 0⟩
def FLOOD_STAT.LOSS : Fld := ⟨0xB90, 15, 8⟩
def FLOOD_STAT.BASE_OK : Fld := ⟨0xB90, 7, 7⟩
def FLOOD_STAT.STATE : Fld := ⟨0xB90, 1, 0⟩
def FLOOD_LFDEV.w : Fld := ⟨0xB91, 15, 0⟩
def FLOOD_CFG.w : Fld := ⟨0xB92, 15, 0⟩
def FLOOD_CFG.HYST : Fld := ⟨0xB92, 15, 12⟩
def FLOOD_CFG.NCONF : Fld := ⟨0xB92, 11, 8⟩
def FLOOD_CFG.LEARN_N : Fld := ⟨0xB92, 7, 0⟩
def FLOOD_THR.w : Fld := ⟨0xB93, 15, 0⟩
def FLOOD_THR.SUB_DB : Fld := ⟨0xB93, 15, 8⟩
def FLOOD_THR.DAMP_DB : Fld := ⟨0xB93, 7, 0⟩
def FLOOD_LFTOL.w : Fld := ⟨0xB94, 15, 0⟩
def FLOOD_LFTOL.TOL : Fld := ⟨0xB94, 7, 0⟩
def FLOOD_CMD.w : Fld := ⟨0xB95, 15, 0⟩
def FLOOD_CMD.RELEARN : Fld := ⟨0xB95, 0, 0⟩
def SYN_STAT.w : Fld := ⟨0xC80, 15, 0⟩
def SYN_STAT.LOCK : Fld := ⟨0xC80, 15, 15⟩
def SYN_STAT.DIV : Fld := ⟨0xC80, 10, 8⟩
def SYN_STAT.BAND : Fld := ⟨0xC80, 5, 0⟩
def SYN_DIV.w : Fld := ⟨0xC81, 15, 0⟩
def SYN_N.w : Fld := ⟨0xC82, 15, 0⟩
def SYN_BAND.w : Fld := ⟨0xC86, 15, 0⟩
def SYN_CP.w : Fld := ⟨0xC87, 15, 0⟩
def SYN_FRAC_L.w : Fld := ⟨0xC83, 15, 0⟩
def SYN_FRAC_H.w : Fld := ⟨0xC84, 15, 0⟩
def SYN_APPLY.w : Fld := ⟨0xC85, 15, 0⟩
def SYN_APPLY.APPLY : Fld := ⟨0xC85, 0, 0⟩
def SYN_VTUNE.w : Fld := ⟨0xC88, 15, 0⟩
def SYN_LO_L.w : Fld := ⟨0xC89, 15, 0⟩
def SYN_LO_H.w : Fld := ⟨0xC8A, 15, 0⟩
def CAL_STAT.w : Fld := ⟨0xD80, 15, 0⟩
def CAL_STAT.RUNNING : Fld := ⟨0xD80, 15, 15⟩
def CAL_STAT.REC_VALID : Fld := ⟨0xD80, 14, 14⟩
def CAL_STAT.AUTO_PEND : Fld := ⟨0xD80, 13, 13⟩
def CAL_STAT.FAIL : Fld := ⟨0xD80, 6, 0⟩
def CAL_CFG.w : Fld := ⟨0xD81, 15, 0⟩
def CAL_CFG.AUTO_EN : Fld := ⟨0xD81, 0, 0⟩
def CAL_TEMP.w : Fld := ⟨0xD82, 15, 0⟩
def CAL_REC_TEMP.w : Fld := ⟨0xD83, 15, 0⟩
def CAL_REC_AGE.w : Fld := ⟨0xD84, 15, 0⟩
def CAL_LAST_MS.w : Fld := ⟨0xD85, 15, 0⟩
def CAL_VCO_MARGIN.w : Fld := ⟨0xD86, 15, 0⟩
def CAL_DONE_MASK.w : Fld := ⟨0xD87, 15, 0⟩
def CAL_CNT.w : Fld := ⟨0xD88, 15, 0⟩
def FMR_STAT.w : Fld := ⟨0xE80, 15, 0⟩
def FMR_STAT.SYNC : Fld := ⟨0xE80, 15, 15⟩
def FMR_STAT.PILOT : Fld := ⟨0xE80, 14, 14⟩
def FMR_STAT.PI_VALID : Fld := ⟨0xE80, 13, 13⟩
def FMR_STAT.ODA_FOUND : Fld := ⟨0xE80, 12, 12⟩
def FMR_STAT.CT_VALID : Fld := ⟨0xE80, 11, 11⟩
def FMR_STAT.AF_SEARCH : Fld := ⟨0xE80, 10, 10⟩
def FMR_STAT.AF_CONFIRM : Fld := ⟨0xE80, 9, 9⟩
def FMR_STAT.FOLLOWING : Fld := ⟨0xE80, 8, 8⟩
def FMR_PI.w : Fld := ⟨0xE81, 15, 0⟩
def FMR_CFG.w : Fld := ⟨0xE82, 15, 0⟩
def FMR_CFG.SYNC_LOSS : Fld := ⟨0xE82, 7, 4⟩
def FMR_CFG.ECC_MAX : Fld := ⟨0xE82, 2, 0⟩
def FMR_BLK_L.w : Fld := ⟨0xE83, 15, 0⟩
def FMR_BLK_H.w : Fld := ⟨0xE84, 15, 0⟩
def FMR_BLK_BAD_L.w : Fld := ⟨0xE85, 15, 0⟩
def FMR_BLK_BAD_H.w : Fld := ⟨0xE86, 15, 0⟩
def FMR_SYNC_CNT.w : Fld := ⟨0xE87, 15, 0⟩
def AF_CFG.w : Fld := ⟨0xE88, 15, 0⟩
def AF_CFG.SW_DBM : Fld := ⟨0xE88, 15, 8⟩
def AF_CFG.HYST : Fld := ⟨0xE88, 7, 4⟩
def AF_CFG.PI_CONF_N : Fld := ⟨0xE88, 3, 0⟩
def AF_TIME.w : Fld := ⟨0xE89, 15, 0⟩
def AF_TIME.DWELL : Fld := ⟨0xE89, 15, 8⟩
def AF_TIME.PI_DWELL : Fld := ⟨0xE89, 7, 0⟩
def AF_BAN.w : Fld := ⟨0xE8A, 15, 0⟩
def AF_CTL.w : Fld := ⟨0xE8B, 15, 0⟩
def AF_CTL.RECALL : Fld := ⟨0xE8B, 2, 2⟩
def AF_CTL.EON_EN : Fld := ⟨0xE8B, 1, 1⟩
def AF_CTL.REG_EN : Fld := ⟨0xE8B, 0, 0⟩
def FMR_ODA_AID.w : Fld := ⟨0xE8C, 15, 0⟩
def FMR_ODA_TYPE.w : Fld := ⟨0xE8D, 15, 0⟩
def FMR_CT_CNT.w : Fld := ⟨0xE8E, 15, 0⟩
def FMR_CT_REJ.w : Fld := ⟨0xE8F, 15, 0⟩
def FMR_AF_N.w : Fld := ⟨0xE90, 15, 0⟩
def FMR_AF_N.METHOD : Fld := ⟨0xE90, 6, 5⟩
def FMR_AF_N.COUNT : Fld := ⟨0xE90, 4, 0⟩
def FMR_AF_CNT_SW.w : Fld := ⟨0xE91, 15, 0⟩
def FMR_AF_CNT_RET.w : Fld := ⟨0xE92, 15, 0⟩
def FMR_AF.w (i : Nat) : Fld := ⟨0xEA0 + i, 15, 0⟩
def FMR_AF.HOME (i : Nat) : Fld := ⟨0xEA0 + i, 11, 11⟩
def FMR_AF.EON (i : Nat) : Fld := ⟨0xEA0 + i, 10, 10⟩
def FMR_AF.BANNED (i : Nat) : Fld := ⟨0xEA0 + i, 9, 9⟩
def FMR_AF.REGIONAL (i : Nat) : Fld := ⟨0xEA0 + i, 8, 8⟩
def FMR_AF.CODE (i : Nat) : Fld := ⟨0xEA0 + i, 7, 0⟩
def DAB_STAT.w : Fld := ⟨0xF80, 15, 0⟩
def DAB_STAT.SYNC : Fld := ⟨0xF80, 15, 15⟩
def DAB_STAT.FIC_OK : Fld := ⟨0xF80, 14, 14⟩
def DAB_STAT.EID_VALID : Fld := ⟨0xF80, 13, 13⟩
def DAB_STAT.SUBCH_ON : Fld := ⟨0xF80, 12, 12⟩
def DAB_STAT.FOLLOWING : Fld := ⟨0xF80, 11, 11⟩
def DAB_STAT.AF_SEARCH : Fld := ⟨0xF80, 10, 10⟩
def DAB_STAT.AF_CONFIRM : Fld := ⟨0xF80, 9, 9⟩
def DAB_STAT.TIME_VALID : Fld := ⟨0xF80, 8, 8⟩
def DAB_CAP.w : Fld := ⟨0xF81, 15, 0⟩
def DAB_CAP.PRESENT : Fld := ⟨0xF81, 15, 15⟩
def DAB_CAP.PIKA_OK : Fld := ⟨0xF81, 14, 14⟩
def DAB_CAP.MAX_CU : Fld := ⟨0xF81, 7, 0⟩
def DAB_EID.w : Fld := ⟨0xF82, 15, 0⟩
def DAB_SID_L.w : Fld := ⟨0xF83, 15, 0⟩
def DAB_SID_H.w : Fld := ⟨0xF84, 15, 0⟩
def DAB_SUBCH.w : Fld := ⟨0xF85, 15, 0⟩
def DAB_SUBCH.ID : Fld := ⟨0xF85, 15, 10⟩
def DAB_SUBCH.SIZE : Fld := ⟨0xF85, 9, 0⟩
def DAB_SUBCH_PROT.w : Fld := ⟨0xF86, 15, 0⟩
def DAB_SUBCH_PROT.FORM : Fld := ⟨0xF86, 15, 15⟩
def DAB_SUBCH_PROT.OPTION : Fld := ⟨0xF86, 14, 12⟩
def DAB_SUBCH_PROT.LEVEL : Fld := ⟨0xF86, 11, 10⟩
def DAB_SUBCH_PROT.FEC : Fld := ⟨0xF86, 9, 9⟩
def DAB_SUBCH_PROT.UEP : Fld := ⟨0xF86, 5, 0⟩
def DAB_SUBCH_START.w : Fld := ⟨0xF87, 15, 0⟩
def DAB_CIF.w : Fld := ⟨0xF88, 15, 0⟩
def DAB_FERR.w : Fld := ⟨0xF89, 15, 0⟩
def DAB_FERR_SD.w : Fld := ⟨0xF8A, 15, 0⟩
def DAB_CNT_FIB.w : Fld := ⟨0xF8B, 15, 0⟩
def DAB_CNT_FIB_BAD.w : Fld := ⟨0xF8C, 15, 0⟩
def DAB_CNT_PKT.w : Fld := ⟨0xF8D, 15, 0⟩
def DAB_CNT_PKT_BAD.w : Fld := ⟨0xF8E, 15, 0⟩
def DAB_CNT_DSP.w : Fld := ⟨0xF8F, 15, 0⟩
def DAB_CNT_SYNC.w : Fld := ⟨0xF90, 15, 0⟩
def DAB_AF_CFG.w : Fld := ⟨0xF91, 15, 0⟩
def DAB_AF_CFG.SW_DBM : Fld := ⟨0xF91, 15, 8⟩
def DAB_AF_CFG.HYST : Fld := ⟨0xF91, 7, 4⟩
def DAB_AF_CFG.FIB_BAD : Fld := ⟨0xF91, 3, 0⟩
def DAB_AF_TIME.w : Fld := ⟨0xF92, 15, 0⟩
def DAB_AF_TIME.DWELL : Fld := ⟨0xF92, 15, 8⟩
def DAB_AF_TIME.CONF_DWELL : Fld := ⟨0xF92, 7, 0⟩
def DAB_AF_BAN.w : Fld := ⟨0xF93, 15, 0⟩
def DAB_AF_CTL.w : Fld := ⟨0xF94, 15, 0⟩
def DAB_AF_CTL.LINK_EN : Fld := ⟨0xF94, 2, 2⟩
def DAB_AF_CTL.OE_EN : Fld := ⟨0xF94, 1, 1⟩
def DAB_AF_CTL.RECALL : Fld := ⟨0xF94, 0, 0⟩
def DAB_AF_N.w : Fld := ⟨0xF95, 15, 0⟩
def DAB_AF_CNT_SW.w : Fld := ⟨0xF96, 15, 0⟩
def DAB_AF_CNT_RET.w : Fld := ⟨0xF97, 15, 0⟩
def DAB_TIME_CNT.w : Fld := ⟨0xF98, 15, 0⟩
def DAB_TIME_REJ.w : Fld := ⟨0xF99, 15, 0⟩
def DAB_AF.w (i : Nat) : Fld := ⟨0xFA0 + i, 15, 0⟩
def DAB_AF_F.w (i : Nat) : Fld := ⟨0xFB0 + i, 15, 0⟩
def DAB_AF_F.HOME (i : Nat) : Fld := ⟨0xFB0 + i, 3, 3⟩
def DAB_AF_F.BANNED (i : Nat) : Fld := ⟨0xFB0 + i, 2, 2⟩
def DAB_AF_F.OE (i : Nat) : Fld := ⟨0xFB0 + i, 1, 1⟩
def DAB_AF_F.LINKED (i : Nat) : Fld := ⟨0xFB0 + i, 0, 0⟩
def LFT_STAT.w : Fld := ⟨0x1080, 15, 0⟩
def LFT_STAT.CARRIER : Fld := ⟨0x1080, 15, 15⟩
def LFT_STAT.SECSYNC : Fld := ⟨0x1080, 14, 14⟩
def LFT_STAT.FRAMESYNC : Fld := ⟨0x1080, 13, 13⟩
def LFT_STAT.TIME_VALID : Fld := ⟨0x1080, 12, 12⟩
def LFT_STAT.TPL : Fld := ⟨0x1080, 11, 10⟩
def LFT_STAT.TPL_NONE : Fld := ⟨0x1080, 9, 9⟩
def LFT_CFG.w : Fld := ⟨0x1081, 15, 0⟩
def LFT_CFG.CAR_DB : Fld := ⟨0x1081, 15, 8⟩
def LFT_CFG.BADMAX : Fld := ⟨0x1081, 3, 0⟩
def LFT_TPL_SEL.w : Fld := ⟨0x1082, 15, 0⟩
def LFT_TPL_SEL.SLOT : Fld := ⟨0x1082, 1, 0⟩
def LFT_TPL_CTL.w : Fld := ⟨0x1083, 15, 0⟩
def LFT_TPL_CTL.CLEAR : Fld := ⟨0x1083, 1, 1⟩
def LFT_TPL_CTL.COMMIT : Fld := ⟨0x1083, 0, 0⟩
def LFT_TPL_STAT.w : Fld := ⟨0x1084, 15, 0⟩
def LFT_TPL_STAT.REJ : Fld := ⟨0x1084, 7, 7⟩
def LFT_TPL_STAT.EN : Fld := ⟨0x1084, 3, 0⟩
def LFT_FERR.w : Fld := ⟨0x1085, 15, 0⟩
def LFT_FERR_SD.w : Fld := ⟨0x1086, 15, 0⟩
def LFT_EDGE_RMS.w : Fld := ⟨0x1087, 15, 0⟩
def LFT_CNT_FRAME.w : Fld := ⟨0x1088, 15, 0⟩
def LFT_CNT_FRAME_BAD.w : Fld := ⟨0x1089, 15, 0⟩
def LFT_CNT_TIME.w : Fld := ⟨0x108A, 15, 0⟩
def LFT_CNT_TIME_REJ.w : Fld := ⟨0x108B, 15, 0⟩
def LFT_CNT_CARLOSS.w : Fld := ⟨0x108C, 15, 0⟩
def LFT_TPL.w (i : Nat) : Fld := ⟨0x1090 + i, 15, 0⟩
def KTIME.w (i : Nat) : Fld := ⟨0x8 + i, 15, 0⟩
def KTIME_TQ.w : Fld := ⟨0xC, 15, 0⟩
def KTIME_TQ.SLEWING : Fld := ⟨0xC, 9, 9⟩
def KTIME_TQ.INLEAP : Fld := ⟨0xC, 8, 8⟩
def KTIME_TQ.TQ : Fld := ⟨0xC, 7, 0⟩
def KTIME_LEAP.w : Fld := ⟨0xD, 15, 0⟩
def TIME_STAT.w : Fld := ⟨0x1180, 15, 0⟩
def TIME_STAT.SLEWING : Fld := ⟨0x1180, 15, 15⟩
def TIME_STAT.DEFERRED : Fld := ⟨0x1180, 14, 14⟩
def TIME_STAT.LEAP_PEND : Fld := ⟨0x1180, 13, 13⟩
def TIME_STAT.X32_MODEL_OK : Fld := ⟨0x1180, 12, 12⟩
def TIME_STAT.XO_MODEL_OK : Fld := ⟨0x1180, 11, 11⟩
def TIME_STAT.FALLBACK : Fld := ⟨0x1180, 10, 10⟩
def TIME_STAT.TQ : Fld := ⟨0x1180, 7, 0⟩
def HLT_STAT.w : Fld := ⟨0x1880, 15, 0⟩
def HLT_STAT.REPLACE : Fld := ⟨0x1880, 15, 15⟩
def HLT_STAT.SAMPLING : Fld := ⟨0x1880, 14, 14⟩
def HLT_STAT.SVC_SET : Fld := ⟨0x1880, 13, 13⟩
def HLT_STAT.REASON : Fld := ⟨0x1880, 7, 0⟩
def HLT_LIFE.w : Fld := ⟨0x1881, 15, 0⟩
def HLT_LIFE.MONITOR : Fld := ⟨0x1881, 15, 8⟩
def HLT_LIFE.MONTHS : Fld := ⟨0x1881, 7, 0⟩
def BUDGET_UAH_DAY.w : Fld := ⟨0xA81, 15, 0⟩
def SCHED_DAY_OFS.w : Fld := ⟨0xA82, 15, 0⟩
def SCHED_DSP_MAX.w : Fld := ⟨0xA83, 15, 0⟩
def SCHED_RETUNE.w : Fld := ⟨0xA84, 15, 0⟩
def SCHED_I_LF.w : Fld := ⟨0xA85, 15, 0⟩
def SCHED_I_FM.w : Fld := ⟨0xA86, 15, 0⟩
def SCHED_I_DAB.w : Fld := ⟨0xA87, 15, 0⟩
def SCHED_I_CAPT.w : Fld := ⟨0xA88, 15, 0⟩
def SCHED_I_REST.w : Fld := ⟨0xA89, 15, 0⟩
def SCHED_MARGIN.w : Fld := ⟨0xA8A, 15, 0⟩
def SCHED_QWAKE.w : Fld := ⟨0xA8B, 15, 0⟩
def SCHED_QWAKE.WARM : Fld := ⟨0xA8B, 15, 8⟩
def SCHED_QWAKE.DEEP : Fld := ⟨0xA8B, 7, 0⟩
def SCHED_ACQ.w : Fld := ⟨0xA8C, 15, 0⟩
def SCHED_ACQ.FM : Fld := ⟨0xA8C, 15, 8⟩
def SCHED_ACQ.DAB : Fld := ⟨0xA8C, 7, 0⟩
def SCHED_DEV_USE.w : Fld := ⟨0xA8D, 15, 0⟩
def SCHED_DEV_PLAN.w : Fld := ⟨0xA8E, 15, 0⟩
def SCHED_ADMIT_US.w : Fld := ⟨0xA8F, 15, 0⟩
def SCHED_CNT_REFUSED.w : Fld := ⟨0xA90, 15, 0⟩
def SCHED_CNT_MISSED.w : Fld := ⟨0xA91, 15, 0⟩
def TIME_SRC_EN.w : Fld := ⟨0x1181, 15, 0⟩
def TIME_SRC_EN.EN : Fld := ⟨0x1181, 5, 1⟩
def TIME_SLEW_LIM.w : Fld := ⟨0x1182, 15, 0⟩
def TIME_LOSS_THR.w : Fld := ⟨0x1183, 15, 0⟩
def TIME_LOSS_THR.CODE : Fld := ⟨0x1183, 4, 0⟩
def TIME_PPS.w : Fld := ⟨0x1184, 15, 0⟩
def TIME_PPS.QUAL : Fld := ⟨0x1184, 8, 8⟩
def TIME_PPS.WIDTH : Fld := ⟨0x1184, 7, 0⟩
def TIME_PPS_PH.w : Fld := ⟨0x1185, 15, 0⟩
def TIME_LEAP_PEND.w : Fld := ⟨0x1186, 15, 0⟩
def TIME_LEAP_PEND.KIND : Fld := ⟨0x1186, 1, 0⟩
def TIME_LEAP_AT_L.w : Fld := ⟨0x1187, 15, 0⟩
def TIME_LEAP_AT_H.w : Fld := ⟨0x1188, 15, 0⟩
def TIME_TRIM_L.w : Fld := ⟨0x1189, 15, 0⟩
def TIME_TRIM_H.w : Fld := ⟨0x118A, 15, 0⟩
def TIME_XO_ERR.w : Fld := ⟨0x118B, 15, 0⟩
def TIME_X32_RESID.w : Fld := ⟨0x118C, 15, 0⟩
def TIME_AGING.w : Fld := ⟨0x118D, 15, 0⟩
def TIME_TEMP.w : Fld := ⟨0x118E, 15, 0⟩
def TIME_MODEL_N.w : Fld := ⟨0x118F, 15, 0⟩
def TIME_SPAN.w : Fld := ⟨0x1190, 15, 0⟩
def TIME_SPAN.HI : Fld := ⟨0x1190, 15, 8⟩
def TIME_SPAN.LO : Fld := ⟨0x1190, 7, 0⟩
def TIME_LAST_L.w : Fld := ⟨0x1191, 15, 0⟩
def TIME_LAST_H.w : Fld := ⟨0x1192, 15, 0⟩
def TIME_CNT_APPLY.w : Fld := ⟨0x1193, 15, 0⟩
def TIME_CNT_REJ.w : Fld := ⟨0x1194, 15, 0⟩
def TIME_CNT_STEP.w : Fld := ⟨0x1195, 15, 0⟩
def TIME_CMD.w : Fld := ⟨0x1196, 15, 0⟩
def TIME_CMD.LEAP_CLR : Fld := ⟨0x1196, 1, 1⟩
def TIME_CMD.MODEL_RESET : Fld := ⟨0x1196, 0, 0⟩
def TIME_PROP_ID.w (i : Nat) : Fld := ⟨0x11A0 + i, 15, 0⟩
def TIME_PROP_OFS.w (i : Nat) : Fld := ⟨0x11A8 + i, 15, 0⟩
def EDF_STAT.w : Fld := ⟨0x1280, 15, 0⟩
def EDF_STAT.NODEC : Fld := ⟨0x1280, 15, 15⟩
def EDF_STAT.FLUSH_PEND : Fld := ⟨0x1280, 14, 14⟩
def EDF_STAT.COMPACT : Fld := ⟨0x1280, 13, 13⟩
def EDF_CFG.w : Fld := ⟨0x1281, 15, 0⟩
def EDF_CFG.DUP_REP : Fld := ⟨0x1281, 15, 15⟩
def EDF_CFG.BCAST_EN : Fld := ⟨0x1281, 14, 14⟩
def EDF_CFG.STALE_DAYS : Fld := ⟨0x1281, 7, 0⟩
def EDF_SERIAL_L.w : Fld := ⟨0x1282, 15, 0⟩
def EDF_SERIAL_H.w : Fld := ⟨0x1283, 15, 0⟩
def EDF_AREA_KIB.w : Fld := ⟨0x1284, 15, 0⟩
def EDF_USED_KIB.w : Fld := ⟨0x1285, 15, 0⟩
def EDF_USE_F.w (i : Nat) : Fld := ⟨0x1286 + i, 15, 0⟩
def EDF_OBJ_COLL.w : Fld := ⟨0x128A, 15, 0⟩
def EDF_OBJ_HELD.w : Fld := ⟨0x128B, 15, 0⟩
def EDF_LAST_RES.w : Fld := ⟨0x128C, 15, 0⟩
def EDF_LAST_RES.RES : Fld := ⟨0x128C, 7, 0⟩
def EDF_LAST_STREAM.w : Fld := ⟨0x128D, 15, 0⟩
def EDF_LAST_OBJ.w : Fld := ⟨0x128E, 15, 0⟩
def EDF_CNT_SEG.w : Fld := ⟨0x128F, 15, 0⟩
def EDF_CNT_BAD.w : Fld := ⟨0x1290, 15, 0⟩
def EDF_CNT_NEW.w : Fld := ⟨0x1291, 15, 0⟩
def EDF_CNT_DUP.w : Fld := ⟨0x1292, 15, 0⟩
def EDF_CNT_QUOTA.w : Fld := ⟨0x1293, 15, 0⟩
def EDF_CNT_DROP.w : Fld := ⟨0x1294, 15, 0⟩
def EDF_CNT_DECODE.w : Fld := ⟨0x1295, 15, 0⟩
def EDF_CNT_REJ.w : Fld := ⟨0x1296, 15, 0⟩
def EDF_WEAR_MAX.w : Fld := ⟨0x1297, 15, 0⟩
def EDF_WEAR_MIN.w : Fld := ⟨0x1298, 15, 0⟩
def EDF_CMD.w : Fld := ⟨0x1299, 15, 0⟩
def EDF_CMD.KEY : Fld := ⟨0x1299, 15, 8⟩
def EDF_CMD.ERASE : Fld := ⟨0x1299, 2, 2⟩
def EDF_CMD.VAN_CLR : Fld := ⟨0x1299, 1, 1⟩
def EDF_CMD.FLUSH : Fld := ⟨0x1299, 0, 0⟩
def EDF_GROUP_ID.w (i : Nat) : Fld := ⟨0x12A0 + i, 15, 0⟩
def EDF_CSER.w (i : Nat) : Fld := ⟨0x12A8 + i, 15, 0⟩
def EDF_VAN_N.w : Fld := ⟨0x12B0, 15, 0⟩
def EDF_VAN_N.N : Fld := ⟨0x12B0, 4, 0⟩
def EDF_VAN_NEXT_L.w : Fld := ⟨0x12B1, 15, 0⟩
def EDF_VAN_NEXT_H.w : Fld := ⟨0x12B2, 15, 0⟩
def EDF_VAN_DUR.w : Fld := ⟨0x12B3, 15, 0⟩
def AP.CTL.w (p : Nat) : Fld := ⟨0x1380 + 0x100 * p, 15, 0⟩
def AP.CTL.RX (p : Nat) : Fld := ⟨0x1380 + 0x100 * p, 2, 2⟩
def AP.CTL.TX (p : Nat) : Fld := ⟨0x1380 + 0x100 * p, 1, 1⟩
def AP.CTL.ARM (p : Nat) : Fld := ⟨0x1380 + 0x100 * p, 0, 0⟩
def AP.FMT.w (p : Nat) : Fld := ⟨0x1381 + 0x100 * p, 15, 0⟩
def AP.FMT.FSW (p : Nat) : Fld := ⟨0x1381 + 0x100 * p, 12, 12⟩
def AP.FMT.PACK (p : Nat) : Fld := ⟨0x1381 + 0x100 * p, 11, 10⟩
def AP.FMT.WORDW (p : Nat) : Fld := ⟨0x1381 + 0x100 * p, 9, 8⟩
def AP.FMT.SLOTW (p : Nat) : Fld := ⟨0x1381 + 0x100 * p, 7, 6⟩
def AP.FMT.SLOTS (p : Nat) : Fld := ⟨0x1381 + 0x100 * p, 5, 3⟩
def AP.FMT.FORMAT (p : Nat) : Fld := ⟨0x1381 + 0x100 * p, 2, 0⟩
def AP.SLOTEN.w (p : Nat) : Fld := ⟨0x1382 + 0x100 * p, 15, 0⟩
def AP.SLOTEN.RXS (p : Nat) : Fld := ⟨0x1382 + 0x100 * p, 15, 8⟩
def AP.SLOTEN.TXS (p : Nat) : Fld := ⟨0x1382 + 0x100 * p, 7, 0⟩
def AP.DIV_I.w (p : Nat) : Fld := ⟨0x1383 + 0x100 * p, 15, 0⟩
def AP.DIV_I.SRC (p : Nat) : Fld := ⟨0x1383 + 0x100 * p, 15, 15⟩
def AP.DIV_I.I (p : Nat) : Fld := ⟨0x1383 + 0x100 * p, 11, 0⟩
def AP.DIV_F.w (p : Nat) : Fld := ⟨0x1384 + 0x100 * p, 15, 0⟩
def AP.FADE.w (p : Nat) : Fld := ⟨0x1385 + 0x100 * p, 15, 0⟩
def AP.FADE.RAMP_MS (p : Nat) : Fld := ⟨0x1385 + 0x100 * p, 15, 8⟩
def AP.FADE.FADE_MS (p : Nat) : Fld := ⟨0x1385 + 0x100 * p, 7, 0⟩
def AP.LOWAT.w (p : Nat) : Fld := ⟨0x1386 + 0x100 * p, 15, 0⟩
def AP.STAT.w (p : Nat) : Fld := ⟨0x1387 + 0x100 * p, 15, 0⟩
def AP.STAT.RUN (p : Nat) : Fld := ⟨0x1387 + 0x100 * p, 15, 15⟩
def AP.STAT.TXST (p : Nat) : Fld := ⟨0x1387 + 0x100 * p, 13, 12⟩
def AP.STAT.RXST (p : Nat) : Fld := ⟨0x1387 + 0x100 * p, 9, 8⟩
def AP.EVT.w (p : Nat) : Fld := ⟨0x1388 + 0x100 * p, 15, 0⟩
def AP.EVT.HARD_RX (p : Nat) : Fld := ⟨0x1388 + 0x100 * p, 3, 3⟩
def AP.EVT.HARD_TX (p : Nat) : Fld := ⟨0x1388 + 0x100 * p, 2, 2⟩
def AP.EVT.OVERRUN (p : Nat) : Fld := ⟨0x1388 + 0x100 * p, 1, 1⟩
def AP.EVT.UNDERRUN (p : Nat) : Fld := ⟨0x1388 + 0x100 * p, 0, 0⟩
def AP.FCNT_L.w (p : Nat) : Fld := ⟨0x1389 + 0x100 * p, 15, 0⟩
def AP.FCNT_H.w (p : Nat) : Fld := ⟨0x138A + 0x100 * p, 15, 0⟩
def AP.T0_L.w (p : Nat) : Fld := ⟨0x138B + 0x100 * p, 15, 0⟩
def AP.T0_H.w (p : Nat) : Fld := ⟨0x138C + 0x100 * p, 15, 0⟩
def AP.LEVEL.w (p : Nat) : Fld := ⟨0x138D + 0x100 * p, 15, 0⟩
def AP.RXFREE.w (p : Nat) : Fld := ⟨0x138E + 0x100 * p, 15, 0⟩
def AP.CNT_FADE.w (p : Nat) : Fld := ⟨0x138F + 0x100 * p, 15, 0⟩
def AP.CNT_LOST.w (p : Nat) : Fld := ⟨0x1390 + 0x100 * p, 15, 0⟩
def AP.CNT_HARD.w (p : Nat) : Fld := ⟨0x1391 + 0x100 * p, 15, 0⟩
def AP.RPTR.w (p : Nat) : Fld := ⟨0x1392 + 0x100 * p, 15, 0⟩
def AP.WPTR.w (p : Nat) : Fld := ⟨0x1393 + 0x100 * p, 15, 0⟩
def AP.CMD.w (p : Nat) : Fld := ⟨0x1394 + 0x100 * p, 15, 0⟩
def AP.CMD.RING_RST (p : Nat) : Fld := ⟨0x1394 + 0x100 * p, 0, 0⟩
def BPH_CTL.w : Fld := ⟨0x1580, 15, 0⟩
def BPH_CTL.UMSG_RX : Fld := ⟨0x1580, 3, 3⟩
def BPH_CTL.UMSG_TX : Fld := ⟨0x1580, 2, 2⟩
def BPH_CTL.OUT_ARM : Fld := ⟨0x1580, 1, 1⟩
def BPH_CTL.IN_ARM : Fld := ⟨0x1580, 0, 0⟩
def BPH_STAT.w : Fld := ⟨0x1581, 15, 0⟩
def BPH_STAT.LOCK : Fld := ⟨0x1581, 15, 15⟩
def BPH_STAT.OUT_RUN : Fld := ⟨0x1581, 14, 14⟩
def BPH_STAT.PRO : Fld := ⟨0x1581, 13, 13⟩
def BPH_STAT.NONAUDIO : Fld := ⟨0x1581, 12, 12⟩
def BPH_STAT.CS_MISMATCH : Fld := ⟨0x1581, 11, 11⟩
def BPH_STAT.UMSG_OK : Fld := ⟨0x1581, 10, 10⟩
def BPH_STAT.CLASS : Fld := ⟨0x1581, 7, 5⟩
def BPH_STAT.RXST : Fld := ⟨0x1581, 3, 2⟩
def BPH_STAT.TXST : Fld := ⟨0x1581, 1, 0⟩
def BPH_RATE_L.w : Fld := ⟨0x1582, 15, 0⟩
def BPH_RATE_H.w : Fld := ⟨0x1583, 15, 0⟩
def BPH_RATE_PPM.w : Fld := ⟨0x1584, 15, 0⟩
def BPH_PPM_THR.w : Fld := ⟨0x1585, 15, 0⟩
def BPH_CS.w (i : Nat) : Fld := ⟨0x1586 + i, 15, 0⟩
def BPH_OCS.w (i : Nat) : Fld := ⟨0x1589 + i, 15, 0⟩
def BPH_CFG.w : Fld := ⟨0x158C, 15, 0⟩
def BPH_CFG.OPACK : Fld := ⟨0x158C, 9, 8⟩
def BPH_CFG.IPACK : Fld := ⟨0x158C, 1, 0⟩
def BPH_DIV_I.w : Fld := ⟨0x158D, 15, 0⟩
def BPH_DIV_I.SRC : Fld := ⟨0x158D, 15, 15⟩
def BPH_DIV_I.I : Fld := ⟨0x158D, 11, 0⟩
def BPH_DIV_F.w : Fld := ⟨0x158E, 15, 0⟩
def BPH_FADE.w : Fld := ⟨0x158F, 15, 0⟩
def BPH_FADE.RAMP_MS : Fld := ⟨0x158F, 15, 8⟩
def BPH_FADE.FADE_MS : Fld := ⟨0x158F, 7, 0⟩
def BPH_LOWAT.w : Fld := ⟨0x1590, 15, 0⟩
def BPH_WPTR.w : Fld := ⟨0x1591, 15, 0⟩
def BPH_RPTR.w : Fld := ⟨0x1592, 15, 0⟩
def BPH_LEVEL.w : Fld := ⟨0x1593, 15, 0⟩
def BPH_CMD.w : Fld := ⟨0x1594, 15, 0⟩
def BPH_CMD.RING_RST : Fld := ⟨0x1594, 0, 0⟩
def BPH_EVT.w : Fld := ⟨0x1595, 15, 0⟩
def BPH_EVT.RATE : Fld := ⟨0x1595, 5, 5⟩
def BPH_EVT.LOCK_LOST : Fld := ⟨0x1595, 4, 4⟩
def BPH_EVT.HARD_RX : Fld := ⟨0x1595, 3, 3⟩
def BPH_EVT.HARD_TX : Fld := ⟨0x1595, 2, 2⟩
def BPH_EVT.OVERRUN : Fld := ⟨0x1595, 1, 1⟩
def BPH_EVT.UNDERRUN : Fld := ⟨0x1595, 0, 0⟩
def BPH_CNT_PARITY.w : Fld := ⟨0x1596, 15, 0⟩
def BPH_CNT_INVALID.w : Fld := ⟨0x1597, 15, 0⟩
def BPH_CNT_LOCK.w : Fld := ⟨0x1598, 15, 0⟩
def BPH_UMSG.w (i : Nat) : Fld := ⟨0x15A0 + i, 15, 0⟩
def BPH_UMSG_LT_L.w : Fld := ⟨0x15AC, 15, 0⟩
def BPH_UMSG_LT_H.w : Fld := ⟨0x15AD, 15, 0⟩
def CAPT_STAT.w : Fld := ⟨0x1680, 15, 0⟩
def CAPT_STAT.RUN : Fld := ⟨0x1680, 15, 15⟩
def CAPT_STAT.SPILLING : Fld := ⟨0x1680, 14, 14⟩
def CAPT_STAT.ANALYSIS : Fld := ⟨0x1680, 13, 13⟩
def CAPT_STAT.SHARED : Fld := ⟨0x1680, 12, 12⟩
def CAPT_STAT.SOURCE : Fld := ⟨0x1680, 11, 10⟩
def CAPT_STAT.RXST : Fld := ⟨0x1680, 9, 8⟩
def CAPT_CFG.w : Fld := ⟨0x1681, 15, 0⟩
def CAPT_CFG.OVERWRITE : Fld := ⟨0x1681, 15, 15⟩
def CAPT_CFG.BLKREC : Fld := ⟨0x1681, 14, 14⟩
def CAPT_BLK_FR.w : Fld := ⟨0x1682, 15, 0⟩
def CAPT_LEAD.w : Fld := ⟨0x1683, 15, 0⟩
def CAPT_SNIP_BAND.w : Fld := ⟨0x1684, 15, 0⟩
def CAPT_SNIP_BAND.HI : Fld := ⟨0x1684, 10, 8⟩
def CAPT_SNIP_BAND.LO : Fld := ⟨0x1684, 2, 0⟩
def CAPT_SPILL_KIB.w : Fld := ⟨0x1685, 15, 0⟩
def CAPT_WPTR.w : Fld := ⟨0x1686, 15, 0⟩
def CAPT_RPTR.w : Fld := ⟨0x1687, 15, 0⟩
def CAPT_REL.w : Fld := ⟨0x1688, 15, 0⟩
def CAPT_FREE.w : Fld := ⟨0x1689, 15, 0⟩
def CAPT_ID.w : Fld := ⟨0x168A, 15, 0⟩
def CAPT_T0_L.w : Fld := ⟨0x168B, 15, 0⟩
def CAPT_T0_H.w : Fld := ⟨0x168C, 15, 0⟩
def CAPT_FIDX_L.w : Fld := ⟨0x168D, 15, 0⟩
def CAPT_FIDX_H.w : Fld := ⟨0x168E, 15, 0⟩
def CAPT_CNT_DISC.w : Fld := ⟨0x168F, 15, 0⟩
def CAPT_CNT_LOST.w : Fld := ⟨0x1690, 15, 0⟩
def CAPT_CNT_DSP.w : Fld := ⟨0x1691, 15, 0⟩
def CAPT_CMD.w : Fld := ⟨0x1692, 15, 0⟩
def CAPT_CMD.SPILL_DEL : Fld := ⟨0x1692, 0, 0⟩
def TWIN_STAT.w : Fld := ⟨0x1780, 15, 0⟩
def TWIN_STAT.EN : Fld := ⟨0x1780, 15, 15⟩
def TWIN_STAT.ACTIVE : Fld := ⟨0x1780, 14, 14⟩
def TWIN_STAT.STANDBY : Fld := ⟨0x1780, 13, 13⟩
def TWIN_STAT.CLAIMING : Fld := ⟨0x1780, 12, 12⟩
def TWIN_STAT.PARTNER_SEEN : Fld := ⟨0x1780, 11, 11⟩
def TWIN_STAT.CKPT_VALID : Fld := ⟨0x1780, 9, 9⟩
def TWIN_STAT.MISSED : Fld := ⟨0x1780, 7, 0⟩
def TWIN_CFG.w : Fld := ⟨0x1781, 15, 0⟩
def TWIN_CFG.EN : Fld := ⟨0x1781, 15, 15⟩
def TWIN_CFG.STEST_EN : Fld := ⟨0x1781, 14, 14⟩
def TWIN_CFG.CKPT_EN : Fld := ⟨0x1781, 13, 13⟩
def TWIN_CFG.TIME_EN : Fld := ⟨0x1781, 12, 12⟩
def TWIN_CFG.PERIOD : Fld := ⟨0x1781, 5, 0⟩
def TWIN_CKPT_MIN.w : Fld := ⟨0x1782, 15, 0⟩
def TWIN_XBASE.w : Fld := ⟨0x1783, 15, 0⟩
def TWIN_XBASE.BASE : Fld := ⟨0x1783, 6, 0⟩
def TWIN_STEST.w : Fld := ⟨0x1784, 15, 0⟩
def TWIN_STEST.DAYS : Fld := ⟨0x1784, 15, 8⟩
def TWIN_STEST.HOUR : Fld := ⟨0x1784, 7, 0⟩
def TWIN_TX_SEQ.w : Fld := ⟨0x1785, 15, 0⟩
def TWIN_RX_SEQ.w : Fld := ⟨0x1786, 15, 0⟩
def TWIN_RX_T_L.w : Fld := ⟨0x1787, 15, 0⟩
def TWIN_RX_T_H.w : Fld := ⟨0x1788, 15, 0⟩
def TWIN_PLEDGER_L.w : Fld := ⟨0x1789, 15, 0⟩
def TWIN_PLEDGER_H.w : Fld := ⟨0x178A, 15, 0⟩
def TWIN_STEST_RES.w : Fld := ⟨0x178B, 15, 0⟩
def TWIN_STEST_RES.PARTNER : Fld := ⟨0x178B, 15, 8⟩
def TWIN_STEST_RES.OWN : Fld := ⟨0x178B, 7, 0⟩
def TWIN_EVT.w : Fld := ⟨0x178C, 15, 0⟩
def TWIN_EVT.SWAP_FAILED : Fld := ⟨0x178C, 5, 5⟩
def TWIN_EVT.CONFLICT : Fld := ⟨0x178C, 4, 4⟩
def TWIN_EVT.PARTNER_SILENT : Fld := ⟨0x178C, 3, 3⟩
def TWIN_EVT.HB_STUCK : Fld := ⟨0x178C, 2, 2⟩
def TWIN_EVT.CKPT_FAIL : Fld := ⟨0x178C, 1, 1⟩
def TWIN_EVT.CKPT_BAD : Fld := ⟨0x178C, 0, 0⟩
def TWIN_CNT_TX.w : Fld := ⟨0x178D, 15, 0⟩
def TWIN_CNT_RX.w : Fld := ⟨0x178E, 15, 0⟩
def TWIN_CNT_DUP.w : Fld := ⟨0x178F, 15, 0⟩
def TWIN_CNT_BAD.w : Fld := ⟨0x1790, 15, 0⟩
def TWIN_CNT_TAKEOVER.w : Fld := ⟨0x1791, 15, 0⟩
def TWIN_CMD.w : Fld := ⟨0x1792, 15, 0⟩
def TWIN_CMD.KEY : Fld := ⟨0x1792, 15, 8⟩
def TWIN_CMD.CKPT_NOW : Fld := ⟨0x1792, 0, 0⟩
def HLT_CFG.w : Fld := ⟨0x1882, 15, 0⟩
def HLT_CFG.REPL_MO : Fld := ⟨0x1882, 15, 8⟩
def HLT_CFG.FIT_MO : Fld := ⟨0x1882, 7, 0⟩
def HLT_DESIGN_MO.w : Fld := ⟨0x1883, 15, 0⟩
def HLT_CELL_MAH.w : Fld := ⟨0x1884, 15, 0⟩
def HLT_CELL_PCT.w : Fld := ⟨0x1885, 15, 0⟩
def HLT_CELL_PCT.PCT : Fld := ⟨0x1885, 7, 0⟩
def HLT_SVC_L.w : Fld := ⟨0x1886, 15, 0⟩
def HLT_SVC_H.w : Fld := ⟨0x1887, 15, 0⟩
def HLT_RCAUSE.w : Fld := ⟨0x1888, 15, 0⟩
def HLT_RCAUSE.PREV : Fld := ⟨0x1888, 15, 8⟩
def HLT_RCAUSE.LAST : Fld := ⟨0x1888, 7, 0⟩
def HLT_RTIME_L.w : Fld := ⟨0x1889, 15, 0⟩
def HLT_RTIME_H.w : Fld := ⟨0x188A, 15, 0⟩
def HLT_CNT_HB.w : Fld := ⟨0x188B, 15, 0⟩
def HLT_CNT_SYS.w : Fld := ⟨0x188C, 15, 0⟩
def HLT_CNT_ECC.w : Fld := ⟨0x188D, 15, 0⟩
def HLT_HB_MS.w : Fld := ⟨0x188E, 15, 0⟩
def HLT_PIKA_MS.w : Fld := ⟨0x188F, 15, 0⟩
def HLT_FAULT_LIM.w : Fld := ⟨0x1890, 15, 0⟩
def HLT_FLASH_KCYC.w : Fld := ⟨0x1891, 15, 0⟩
def HLT_CMD.w : Fld := ⟨0x1892, 15, 0⟩
def HLT_CMD.KEY : Fld := ⟨0x1892, 15, 8⟩
def HLT_CMD.SVC_START : Fld := ⟨0x1892, 2, 2⟩
def HLT_CMD.REPLACE_CLR : Fld := ⟨0x1892, 1, 1⟩
def HLT_CMD.SAMPLE_NOW : Fld := ⟨0x1892, 0, 0⟩
def HLT_MON.w (i : Nat) : Fld := ⟨0x18A0 + i, 15, 0⟩
def HLT_MON.MONTHS (i : Nat) : Fld := ⟨0x18A0 + i, 15, 8⟩
def HLT_MON.BAND (i : Nat) : Fld := ⟨0x18A0 + i, 7, 7⟩
def HLT_MON.FITTED (i : Nat) : Fld := ⟨0x18A0 + i, 6, 6⟩
def PAGE.w : Fld := ⟨0x7F, 15, 0⟩
def PAGE.SEL : Fld := ⟨0x7F, 7, 0⟩

end R

namespace RegTable

def page00_0 : List RegDef :=
  [ ⟨0x0, 0x0, 0x0, 0x0, 0x0, 0x0⟩,
    ⟨0x1, 0x4816, 0x0, 0x0, 0x0, 0x0⟩,
    ⟨0x2, 0x10C, 0x0, 0x0, 0x0, 0x0⟩,
    ⟨0x3, 0x0, 0x0, 0x0, 0x0, 0x0⟩,
    ⟨0x4, 0x0, 0x0, 0x0, 0xFF01, 0x0⟩,
    ⟨0x5, 0x0, 0xFF, 0x0, 0x0, 0x0⟩,
    ⟨0x6, 0x0, 0x0, 0x0, 0x0, 0x0⟩,
    ⟨0x7, 0x0, 0xF, 0x0, 0x0, 0x0⟩,
    ⟨0x8, 0x0, 0x0, 0x0, 0x0, 0x0⟩,
    ⟨0x9, 0x0, 0x0, 0x0, 0x0, 0x0⟩,
    ⟨0xA, 0x0, 0x0, 0x0, 0x0, 0x0⟩,
    ⟨0xB, 0x0, 0x0, 0x0, 0x0, 0x0⟩,
    ⟨0xC, 0x1F, 0x0, 0x0, 0x0, 0x0⟩,
    ⟨0xD, 0x0, 0x0, 0x0, 0x0, 0x0⟩,
    ⟨0x10, 0x0, 0x0, 0xFFFF, 0x0, 0x0⟩,
    ⟨0x11, 0x0, 0x0, 0x7FF, 0x0, 0x0⟩,
    ⟨0x12, 0x0, 0xFFFF, 0x0, 0x0, 0x0⟩,
    ⟨0x13, 0x0, 0x7FF, 0x0, 0x0, 0x0⟩,
    ⟨0x14, 0x0, 0xFF, 0x0, 0x0, 0x0⟩,
    ⟨0x15, 0x0, 0x1F, 0x0, 0x0, 0x0⟩,
    ⟨0x16, 0x0, 0x0, 0x0, 0x0, 0x0⟩,
    ⟨0x20, 0x0, 0xFF, 0x0, 0x0, 0x0⟩,
    ⟨0x21, 0x0, 0xFFFF, 0x0, 0x0, 0x0⟩,
    ⟨0x22, 0x0, 0xFFFF, 0x0, 0x0, 0x0⟩,
    ⟨0x23, 0x0, 0xFFFF, 0x0, 0x0, 0x0⟩,
    ⟨0x24, 0x0, 0xFFFF, 0x0, 0x0, 0x0⟩,
    ⟨0x25, 0x0, 0xFFFF, 0x0, 0x0, 0x0⟩,
    ⟨0x26, 0x0, 0xFFFF, 0x0, 0x0, 0x0⟩,
    ⟨0x27, 0x0, 0x0, 0x0, 0x1, 0x0⟩,
    ⟨0x28, 0x0, 0x0, 0x0, 0x0, 0x0⟩,
    ⟨0x29, 0x0, 0x0, 0x0, 0x0, 0x0⟩,
    ⟨0x2A, 0x0, 0x0, 0x0, 0x0, 0x0⟩,
    ⟨0x2B, 0x0, 0x0, 0x0, 0x0, 0x0⟩,
    ⟨0x2C, 0x0, 0x0, 0x0, 0x0, 0x0⟩,
    ⟨0x30, 0x0, 0x0, 0x0, 0x7, 0x0⟩,
    ⟨0x31, 0x0, 0x0, 0x0, 0x0, 0x0⟩,
    ⟨0x32, 0x0, 0x0, 0x0, 0x0, 0x0⟩,
    ⟨0x33, 0x0, 0x0, 0x0, 0x0, 0x0⟩,
    ⟨0x34, 0x0, 0xF, 0x0, 0x0, 0x0⟩,
    ⟨0x35, 0x0, 0x0, 0x0, 0x0, 0x0⟩ ]

def page00_1 : List RegDef :=
  [ ⟨0x36, 0x0, 0x0, 0x0, 0x0, 0x0⟩,
    ⟨0x37, 0x0, 0x0, 0x0, 0x0, 0x0⟩,
    ⟨0x38, 0x0, 0x0, 0x0, 0x0, 0x0⟩,
    ⟨0x39, 0x0, 0x0, 0x0, 0x0, 0x0⟩,
    ⟨0x3A, 0x0, 0x0, 0x0, 0x0, 0x0⟩,
    ⟨0x40, 0x0, 0xFFFF, 0x0, 0x0, 0x0⟩,
    ⟨0x41, 0x0, 0xFFFF, 0x0, 0x0, 0x0⟩,
    ⟨0x42, 0x0, 0xFFFF, 0x0, 0x0, 0x0⟩,
    ⟨0x43, 0x0, 0xFFFF, 0x0, 0x0, 0x0⟩,
    ⟨0x44, 0x0, 0xFFFF, 0x0, 0x0, 0x0⟩,
    ⟨0x45, 0x0, 0xFFFF, 0x0, 0x0, 0x0⟩,
    ⟨0x46, 0x0, 0xFFFF, 0x0, 0x0, 0x0⟩,
    ⟨0x47, 0x0, 0xFFFF, 0x0, 0x0, 0x0⟩,
    ⟨0x48, 0x0, 0xFFFF, 0x0, 0x0, 0x0⟩,
    ⟨0x49, 0x0, 0xFFFF, 0x0, 0x0, 0x0⟩,
    ⟨0x4A, 0x0, 0xFFFF, 0x0, 0x0, 0x0⟩,
    ⟨0x4B, 0x0, 0xFFFF, 0x0, 0x0, 0x0⟩,
    ⟨0x4C, 0x0, 0xFFFF, 0x0, 0x0, 0x0⟩,
    ⟨0x4D, 0x0, 0xFFFF, 0x0, 0x0, 0x0⟩,
    ⟨0x4E, 0x0, 0xFFFF, 0x0, 0x0, 0x0⟩,
    ⟨0x4F, 0x0, 0xFFFF, 0x0, 0x0, 0x0⟩,
    ⟨0x50, 0x0, 0x0, 0x0, 0x1, 0x0⟩,
    ⟨0x51, 0x0, 0x0, 0x0, 0x0, 0x0⟩,
    ⟨0x52, 0x1, 0xFFFF, 0x0, 0x0, 0x0⟩,
    ⟨0x53, 0x0, 0x0, 0x0, 0x0, 0x0⟩,
    ⟨0x54, 0x800, 0x0, 0x0, 0x0, 0x0⟩,
    ⟨0x55, 0x0, 0x0, 0x0, 0x0, 0x0⟩,
    ⟨0x56, 0x0, 0x0, 0x0, 0x0, 0x0⟩,
    ⟨0x60, 0x0, 0x1FF, 0x0, 0x0, 0x0⟩,
    ⟨0x61, 0x0, 0xFFFE, 0x0, 0x0, 0x0⟩,
    ⟨0x62, 0x0, 0x3, 0x0, 0x0, 0x0⟩,
    ⟨0x63, 0x0, 0xFFFF, 0x0, 0x0, 0x0⟩,
    ⟨0x64, 0x0, 0x0, 0xE, 0x0, 0x0⟩,
    ⟨0x65, 0x0, 0x0, 0x0, 0x0, 0x0⟩,
    ⟨0x66, 0x0, 0x0, 0x0, 0x0, 0x0⟩,
    ⟨0x7F, 0x0, 0xFF, 0x0, 0x0, 0x0⟩ ]

def page01_0 : List RegDef :=
  [ ⟨0x180, 0x102, 0x0, 0x0, 0x0, 0x0⟩,
    ⟨0x181, 0x0, 0x0, 0x7, 0x0, 0x0⟩,
    ⟨0x182, 0x10, 0x0, 0x0, 0x0, 0x1F⟩,
    ⟨0x183, 0x14, 0x0, 0x0, 0x0, 0x1F⟩,
    ⟨0x184, 0x0, 0x0, 0x0, 0x0, 0x0⟩,
    ⟨0x185, 0x0, 0x0, 0x0, 0x0, 0x0⟩,
    ⟨0x186, 0x0, 0x0, 0x0, 0x0, 0x0⟩ ]

def page02_0 : List RegDef :=
  [ ⟨0x280, 0x3, 0x0, 0x0, 0x0, 0x0⟩,
    ⟨0x281, 0x504, 0xFF07, 0x0, 0x0, 0x0⟩,
    ⟨0x282, 0x0, 0x1, 0x0, 0x0, 0x0⟩,
    ⟨0x283, 0x0, 0x0, 0x0, 0xFF03, 0x0⟩,
    ⟨0x284, 0x0, 0x0, 0x0, 0x0, 0x0⟩,
    ⟨0x285, 0x311, 0x3FF, 0x0, 0x0, 0x0⟩,
    ⟨0x286, 0x0, 0x0, 0x8000, 0x0, 0x0⟩,
    ⟨0x287, 0x1, 0x0, 0x0, 0x0, 0x0⟩,
    ⟨0x288, 0x20, 0x3F, 0x0, 0x0, 0x0⟩,
    ⟨0x289, 0x20, 0x3F, 0x0, 0x0, 0x0⟩,
    ⟨0x28A, 0x0, 0x0, 0x0, 0x0, 0x0⟩ ]

def page03_0 : List RegDef :=
  [ ⟨0x380, 0x380, 0x0, 0x0, 0x0, 0x0⟩,
    ⟨0x381, 0x1F, 0x0, 0x0, 0x0, 0x3F⟩,
    ⟨0x382, 0x53C, 0x0, 0x0, 0x0, 0xFFF⟩,
    ⟨0x383, 0x82, 0xFF, 0x0, 0x0, 0x0⟩,
    ⟨0x384, 0x50, 0xFF, 0x0, 0x0, 0x0⟩,
    ⟨0x385, 0xA, 0x0, 0x0, 0x0, 0xFF⟩,
    ⟨0x386, 0xC, 0x1F, 0x0, 0x0, 0x0⟩,
    ⟨0x387, 0x0, 0x0, 0x0, 0x0, 0x0⟩,
    ⟨0x388, 0x0, 0x0, 0x0, 0x0, 0x0⟩,
    ⟨0x389, 0x0, 0x0, 0x0, 0x0, 0x0⟩,
    ⟨0x38A, 0x0, 0x0, 0x0, 0x0, 0x0⟩,
    ⟨0x38B, 0x0, 0x0, 0x0, 0x0, 0x0⟩,
    ⟨0x38C, 0x0, 0xFFFF, 0x0, 0x0, 0x0⟩,
    ⟨0x38D, 0x0, 0xFFFF, 0x0, 0x0, 0x0⟩,
    ⟨0x38E, 0x0, 0x0, 0x0, 0x0, 0xFFFF⟩,
    ⟨0x38F, 0x1D6, 0x0, 0x0, 0x0, 0x0⟩,
    ⟨0x390, 0x0, 0x0, 0x0, 0x0, 0x0⟩,
    ⟨0x391, 0x3E8, 0x0, 0x0, 0x0, 0x0⟩,
    ⟨0x392, 0x0, 0x0, 0x0, 0x0, 0x0⟩,
    ⟨0x393, 0xFF, 0x0, 0x0, 0x0, 0x0⟩,
    ⟨0x394, 0x0, 0x0, 0x0, 0x0, 0x0⟩,
    ⟨0x395, 0x4A2, 0x0, 0x0, 0x0, 0x7FF⟩,
    ⟨0x396, 0x96, 0x0, 0x0, 0x0, 0xFF⟩,
    ⟨0x397, 0x0, 0x0, 0x0, 0x0, 0x0⟩,
    ⟨0x398, 0x0, 0x0, 0x0, 0x0, 0x0⟩,
    ⟨0x399, 0xE10, 0xFFFF, 0x0, 0x0, 0x0⟩,
    ⟨0x39A, 0x1464, 0xFFFF, 0x0, 0x0, 0x0⟩,
    ⟨0x39B, 0x1F4, 0x0, 0x0, 0x0, 0xFFFF⟩,
    ⟨0x39C, 0x0, 0x0, 0x0, 0x7, 0x0⟩ ]

def page04_0 : List RegDef :=
  [ ⟨0x480, 0x0, 0x0, 0x0, 0x0, 0x0⟩,
    ⟨0x481, 0x0, 0x0, 0x0, 0x0, 0x0⟩,
    ⟨0x482, 0xFFFF, 0x0, 0x0, 0x0, 0x0⟩,
    ⟨0x483, 0xFFFF, 0x0, 0x0, 0x0, 0x0⟩,
    ⟨0x484, 0x1, 0x0, 0x0, 0x0, 0x7⟩,
    ⟨0x485, 0xFFFF, 0x0, 0x0, 0x0, 0x0⟩,
    ⟨0x486, 0x0, 0x0, 0x0, 0x0, 0x0⟩ ]

def page05_0 : List RegDef :=
  [ ⟨0x580, 0x0, 0x0, 0x0, 0x0, 0x0⟩,
    ⟨0x581, 0x0, 0x0, 0x0, 0x0, 0x0⟩,
    ⟨0x582, 0xF0, 0x0, 0x0, 0x0, 0x0⟩,
    ⟨0x5A0, 0x0, 0x0, 0x0, 0x0, 0x0⟩,
    ⟨0x5A1, 0x0, 0x0, 0x0, 0x0, 0x0⟩,
    ⟨0x5A2, 0x0, 0x0, 0x0, 0x0, 0x0⟩,
    ⟨0x5A3, 0x0, 0x0, 0x0, 0x0, 0x0⟩,
    ⟨0x5A4, 0x0, 0x0, 0x0, 0x0, 0x0⟩,
    ⟨0x5A5, 0x0, 0x0, 0x0, 0x0, 0x0⟩,
    ⟨0x5A6, 0x0, 0x0, 0x0, 0x0, 0x0⟩,
    ⟨0x5A7, 0x0, 0x0, 0x0, 0x0, 0x0⟩,
    ⟨0x5A8, 0x0, 0x0, 0x0, 0x0, 0x0⟩,
    ⟨0x5A9, 0x0, 0x0, 0x0, 0x0, 0x0⟩,
    ⟨0x5AA, 0x0, 0x0, 0x0, 0x0, 0x0⟩,
    ⟨0x5AB, 0x0, 0x0, 0x0, 0x0, 0x0⟩,
    ⟨0x5AC, 0x0, 0x0, 0x0, 0x0, 0x0⟩,
    ⟨0x5AD, 0x0, 0x0, 0x0, 0x0, 0x0⟩,
    ⟨0x5AE, 0x0, 0x0, 0x0, 0x0, 0x0⟩,
    ⟨0x5AF, 0x0, 0x0, 0x0, 0x0, 0x0⟩,
    ⟨0x5B0, 0x0, 0x0, 0x0, 0x0, 0x0⟩,
    ⟨0x5B1, 0x0, 0x0, 0x0, 0x0, 0x0⟩,
    ⟨0x5B2, 0x0, 0x0, 0x0, 0x0, 0x0⟩,
    ⟨0x5B3, 0x0, 0x0, 0x0, 0x0, 0x0⟩,
    ⟨0x5B4, 0x0, 0x0, 0x0, 0x0, 0x0⟩,
    ⟨0x5B5, 0x0, 0x0, 0x0, 0x0, 0x0⟩,
    ⟨0x5B6, 0x0, 0x0, 0x0, 0x0, 0x0⟩,
    ⟨0x5B7, 0x0, 0x0, 0x0, 0x0, 0x0⟩,
    ⟨0x5B8, 0x0, 0x0, 0x0, 0x0, 0x0⟩,
    ⟨0x5B9, 0x0, 0x0, 0x0, 0x0, 0x0⟩,
    ⟨0x5BA, 0x0, 0x0, 0x0, 0x0, 0x0⟩,
    ⟨0x5BB, 0x0, 0x0, 0x0, 0x0, 0x0⟩,
    ⟨0x5BC, 0x0, 0x0, 0x0, 0x0, 0x0⟩,
    ⟨0x5BD, 0x0, 0x0, 0x0, 0x0, 0x0⟩,
    ⟨0x5BE, 0x0, 0x0, 0x0, 0x0, 0x0⟩,
    ⟨0x5BF, 0x0, 0x0, 0x0, 0x0, 0x0⟩ ]

def page06_0 : List RegDef :=
  [ ⟨0x680, 0x0, 0x0, 0x0, 0x0, 0x0⟩,
    ⟨0x681, 0x0, 0x0, 0x0, 0x0, 0x0⟩,
    ⟨0x682, 0x0, 0x0, 0x0, 0x0, 0x0⟩,
    ⟨0x683, 0x0, 0x0, 0x0, 0x0, 0x0⟩,
    ⟨0x684, 0x0, 0x0, 0x0, 0x0, 0x0⟩,
    ⟨0x688, 0x0, 0x0, 0x0, 0x0, 0x0⟩,
    ⟨0x689, 0x0, 0x0, 0x0, 0x0, 0x0⟩,
    ⟨0x68A, 0x0, 0x0, 0x0, 0x0, 0x0⟩,
    ⟨0x68B, 0x0, 0x0, 0x0, 0x0, 0x0⟩,
    ⟨0x68C, 0x0, 0x0, 0x0, 0x0, 0x0⟩,
    ⟨0x690, 0x0, 0x0, 0x0, 0x0, 0x0⟩,
    ⟨0x691, 0x0, 0x0, 0x0, 0x0, 0x0⟩,
    ⟨0x692, 0x0, 0x0, 0x0, 0x0, 0x0⟩,
    ⟨0x693, 0x0, 0x0, 0x0, 0x0, 0x0⟩,
    ⟨0x694, 0x0, 0x0, 0x0, 0x0, 0x0⟩,
    ⟨0x698, 0x0, 0x101, 0x0, 0x0, 0x0⟩,
    ⟨0x699, 0x0, 0x0, 0x0, 0xFF03, 0x0⟩,
    ⟨0x69A, 0x0, 0x0, 0x0, 0x0, 0x0⟩,
    ⟨0x69B, 0x0, 0x0, 0x0, 0x0, 0x0⟩,
    ⟨0x69C, 0x0, 0x0, 0x0, 0x0, 0x0⟩,
    ⟨0x69D, 0x0, 0x0, 0x0, 0x0, 0x0⟩,
    ⟨0x69E, 0x0, 0x0, 0x0, 0x0, 0x0⟩,
    ⟨0x69F, 0x0, 0x0, 0x0, 0x0, 0x0⟩,
    ⟨0x6A0, 0x0, 0xFFFF, 0x0, 0x0, 0x0⟩,
    ⟨0x6A1, 0x0, 0x0, 0x0, 0x0, 0x1⟩ ]

def page07_0 : List RegDef :=
  [ ⟨0x780, 0xA00, 0xFF00, 0x0, 0x0, 0x1⟩,
    ⟨0x781, 0x0, 0x0, 0x1F, 0x0, 0x0⟩,
    ⟨0x782, 0x0, 0x0, 0x0, 0x0, 0x0⟩,
    ⟨0x783, 0x0, 0x0, 0x0, 0x0, 0x0⟩,
    ⟨0x784, 0x0, 0x0, 0x0, 0x0, 0x0⟩,
    ⟨0x785, 0x0, 0x0, 0x0, 0x0, 0x0⟩,
    ⟨0x786, 0x0, 0x0, 0x0, 0x0, 0x0⟩,
    ⟨0x787, 0x0, 0x0, 0x0, 0x0, 0x0⟩,
    ⟨0x788, 0x0, 0x0, 0x0, 0x0, 0x0⟩,
    ⟨0x789, 0x0, 0x0, 0x0, 0x0, 0x0⟩,
    ⟨0x78A, 0x0, 0x0, 0x0, 0x1, 0x0⟩ ]

def page08_0 : List RegDef :=
  [ ⟨0x880, 0x219, 0x1FFF, 0x0, 0x0, 0xE000⟩,
    ⟨0x881, 0xD9D8, 0x0, 0x0, 0x0, 0xFFFF⟩,
    ⟨0x882, 0xDBDA, 0x0, 0x0, 0x0, 0xFFFF⟩,
    ⟨0x883, 0x58, 0x0, 0x0, 0x0, 0x7F⟩,
    ⟨0x884, 0x3, 0x0, 0x0, 0x0, 0x7F⟩,
    ⟨0x885, 0x10, 0x0, 0x0, 0x0, 0x7F⟩,
    ⟨0x886, 0x1481, 0xFFFB, 0x0, 0x0, 0x0⟩,
    ⟨0x887, 0x23, 0xFF, 0x0, 0x0, 0x0⟩,
    ⟨0x888, 0x0, 0x0, 0x7FF, 0x0, 0x0⟩,
    ⟨0x889, 0x0, 0x0, 0x0, 0x0, 0x0⟩,
    ⟨0x88A, 0x0, 0x0, 0x0, 0x0, 0x0⟩,
    ⟨0x88B, 0x0, 0x0, 0x0, 0x0, 0x0⟩,
    ⟨0x88C, 0x0, 0x0, 0x0, 0x0, 0x0⟩,
    ⟨0x88D, 0x0, 0x0, 0x0, 0x0, 0x0⟩,
    ⟨0x88E, 0x0, 0x0, 0x0, 0x3, 0x0⟩ ]

def page09_0 : List RegDef :=
  [ ⟨0x980, 0x0, 0x0, 0x0, 0x0, 0x0⟩,
    ⟨0x981, 0x0, 0x0, 0x0, 0xFF0F, 0x0⟩,
    ⟨0x982, 0x0, 0x0, 0x0, 0x0, 0xFFFF⟩,
    ⟨0x983, 0x0, 0x0, 0x0, 0x0, 0xFFFF⟩,
    ⟨0x984, 0x0, 0x0, 0x0, 0x0, 0xFFFF⟩,
    ⟨0x985, 0x0, 0x0, 0x0, 0x0, 0xFFFF⟩,
    ⟨0x986, 0x0, 0x0, 0x0, 0x0, 0xFFFF⟩,
    ⟨0x987, 0x0, 0x0, 0x0, 0x0, 0xFFFF⟩,
    ⟨0x988, 0x0, 0x0, 0x0, 0x0, 0xFFFF⟩,
    ⟨0x989, 0x0, 0x0, 0x0, 0x0, 0xFFFF⟩,
    ⟨0x98A, 0x0, 0x0, 0x0, 0x0, 0xFFFF⟩,
    ⟨0x98B, 0x4444, 0x0, 0x0, 0x0, 0xFFFF⟩,
    ⟨0x98C, 0xFFFF, 0x0, 0x0, 0x0, 0xFFFF⟩,
    ⟨0x98D, 0x0, 0x0, 0x0, 0x0, 0xFFFF⟩,
    ⟨0x98E, 0x0, 0x0, 0x0, 0x0, 0xFFFF⟩,
    ⟨0x98F, 0x0, 0x0, 0x0, 0x0, 0xFFFF⟩,
    ⟨0x990, 0xFFFF, 0x0, 0x0, 0x0, 0xFFFF⟩,
    ⟨0x991, 0x0, 0x0, 0x0, 0x0, 0xFFFF⟩,
    ⟨0x992, 0x0, 0x0, 0x0, 0x0, 0xFFFF⟩,
    ⟨0x993, 0x0, 0x0, 0x0, 0x0, 0xFFFF⟩,
    ⟨0x994, 0x200, 0x0, 0x0, 0x0, 0xFFFF⟩,
    ⟨0x995, 0x100, 0x0, 0x0, 0x0, 0xFFFF⟩,
    ⟨0x996, 0x100, 0x0, 0x0, 0x0, 0xFFFF⟩,
    ⟨0x997, 0x100, 0x0, 0x0, 0x0, 0xFFFF⟩,
    ⟨0x998, 0x3, 0x0, 0x0, 0x0, 0xFF⟩ ]

def page0A_0 : List RegDef :=
  [ ⟨0xA80, 0x0, 0x0, 0x0, 0x0, 0x0⟩,
    ⟨0xA81, 0xFFFF, 0x0, 0x0, 0x0, 0xFFFF⟩,
    ⟨0xA82, 0x0, 0x0, 0x0, 0x0, 0xFFFF⟩,
    ⟨0xA83, 0x5A, 0x0, 0x0, 0x0, 0xFFFF⟩,
    ⟨0xA84, 0xBB8, 0x0, 0x0, 0x0, 0xFFFF⟩,
    ⟨0xA85, 0x44C, 0x0, 0x0, 0x0, 0xFFFF⟩,
    ⟨0xA86, 0x251C, 0x0, 0x0, 0x0, 0xFFFF⟩,
    ⟨0xA87, 0x6978, 0x0, 0x0, 0x0, 0xFFFF⟩,
    ⟨0xA88, 0xED8, 0x0, 0x0, 0x0, 0xFFFF⟩,
    ⟨0xA89, 0x9C4, 0x0, 0x0, 0x0, 0xFFFF⟩,
    ⟨0xA8A, 0x6E, 0x0, 0x0, 0x0, 0xFFFF⟩,
    ⟨0xA8B, 0x132, 0x0, 0x0, 0x0, 0xFFFF⟩,
    ⟨0xA8C, 0x528, 0x0, 0x0, 0x0, 0xFFFF⟩,
    ⟨0xA8D, 0x0, 0x0, 0x0, 0x0, 0x0⟩,
    ⟨0xA8E, 0x0, 0x0, 0x0, 0x0, 0x0⟩,
    ⟨0xA8F, 0x0, 0x0, 0x0, 0x0, 0x0⟩,
    ⟨0xA90, 0x0, 0x0, 0x0, 0x0, 0x0⟩,
    ⟨0xA91, 0x0, 0x0, 0x0, 0x0, 0x0⟩ ]

def page0B_0 : List RegDef :=
  [ ⟨0xB80, 0x0, 0x0, 0x0, 0x0, 0x0⟩,
    ⟨0xB81, 0x0, 0x0, 0x0, 0x0, 0x0⟩,
    ⟨0xB82, 0x0, 0x0, 0x0, 0x0, 0x0⟩,
    ⟨0xB83, 0x8000, 0x0, 0x0, 0x0, 0x0⟩,
    ⟨0xB84, 0x0, 0x0, 0x0, 0x0, 0x0⟩,
    ⟨0xB85, 0x0, 0xFFFF, 0x0, 0x0, 0x0⟩,
    ⟨0xB86, 0x0, 0xFFFF, 0x0, 0x0, 0x0⟩,
    ⟨0xB87, 0x0, 0x0, 0x0, 0x1, 0x0⟩,
    ⟨0xB88, 0x0, 0x0, 0x0, 0x0, 0x0⟩,
    ⟨0xB89, 0x8000, 0x0, 0x0, 0x0, 0x0⟩,
    ⟨0xB8A, 0x0, 0x7, 0x0, 0x0, 0x0⟩,
    ⟨0xB8B, 0x0, 0x10F, 0x0, 0x0, 0x0⟩,
    ⟨0xB8C, 0x0, 0x30F, 0x0, 0x0, 0x0⟩,
    ⟨0xB8D, 0x0, 0x107, 0x0, 0x0, 0x0⟩,
    ⟨0xB8E, 0x0, 0x0, 0x0, 0x0, 0x0⟩,
    ⟨0xB8F, 0x0, 0x0, 0x0, 0x0, 0x0⟩,
    ⟨0xB90, 0x0, 0x0, 0x0, 0x0, 0x0⟩,
    ⟨0xB91, 0x8000, 0x0, 0x0, 0x0, 0x0⟩,
    ⟨0xB92, 0x3210, 0x0, 0x0, 0x0, 0xFFFF⟩,
    ⟨0xB93, 0x1406, 0x0, 0x0, 0x0, 0xFFFF⟩,
    ⟨0xB94, 0xC, 0x0, 0x0, 0x0, 0xFF⟩,
    ⟨0xB95, 0x0, 0x0, 0x0, 0x1, 0x0⟩ ]

def page0C_0 : List RegDef :=
  [ ⟨0xC80, 0x0, 0x0, 0x0, 0x0, 0x0⟩,
    ⟨0xC81, 0x0, 0x7, 0x0, 0x0, 0x0⟩,
    ⟨0xC82, 0x0, 0xFF, 0x0, 0x0, 0x0⟩,
    ⟨0xC83, 0x0, 0xFFFF, 0x0, 0x0, 0x0⟩,
    ⟨0xC84, 0x0, 0x3F, 0x0, 0x0, 0x0⟩,
    ⟨0xC85, 0x0, 0x0, 0x0, 0x1, 0x0⟩,
    ⟨0xC86, 0x0, 0x3F, 0x0, 0x0, 0x0⟩,
    ⟨0xC87, 0x0, 0xF, 0x0, 0x0, 0x0⟩,
    ⟨0xC88, 0x0, 0x0, 0x0, 0x0, 0x0⟩,
    ⟨0xC89, 0x0, 0x0, 0x0, 0x0, 0x0⟩,
    ⟨0xC8A, 0x0, 0x0, 0x0, 0x0, 0x0⟩ ]

def page0D_0 : List RegDef :=
  [ ⟨0xD80, 0x0, 0x0, 0x0, 0x0, 0x0⟩,
    ⟨0xD81, 0x1, 0x0, 0x0, 0x0, 0x1⟩,
    ⟨0xD82, 0x0, 0x0, 0x0, 0x0, 0x0⟩,
    ⟨0xD83, 0x0, 0x0, 0x0, 0x0, 0x0⟩,
    ⟨0xD84, 0x0, 0x0, 0x0, 0x0, 0x0⟩,
    ⟨0xD85, 0x0, 0x0, 0x0, 0x0, 0x0⟩,
    ⟨0xD86, 0x0, 0x0, 0x0, 0x0, 0x0⟩,
    ⟨0xD87, 0x0, 0x0, 0x0, 0x0, 0x0⟩,
    ⟨0xD88, 0x0, 0x0, 0x0, 0x0, 0x0⟩ ]

def page0E_0 : List RegDef :=
  [ ⟨0xE80, 0x0, 0x0, 0x0, 0x0, 0x0⟩,
    ⟨0xE81, 0x0, 0x0, 0x0, 0x0, 0x0⟩,
    ⟨0xE82, 0xC2, 0x0, 0x0, 0x0, 0xF7⟩,
    ⟨0xE83, 0x0, 0x0, 0x0, 0x0, 0x0⟩,
    ⟨0xE84, 0x0, 0x0, 0x0, 0x0, 0x0⟩,
    ⟨0xE85, 0x0, 0x0, 0x0, 0x0, 0x0⟩,
    ⟨0xE86, 0x0, 0x0, 0x0, 0x0, 0x0⟩,
    ⟨0xE87, 0x0, 0x0, 0x0, 0x0, 0x0⟩,
    ⟨0xE88, 0x5562, 0x0, 0x0, 0x0, 0xFFFF⟩,
    ⟨0xE89, 0x1432, 0x0, 0x0, 0x0, 0xFFFF⟩,
    ⟨0xE8A, 0x3C, 0x0, 0x0, 0x0, 0xFFFF⟩,
    ⟨0xE8B, 0x6, 0x0, 0x0, 0x0, 0x7⟩,
    ⟨0xE8C, 0x0, 0x0, 0x0, 0x0, 0x0⟩,
    ⟨0xE8D, 0x0, 0x0, 0x0, 0x0, 0x0⟩,
    ⟨0xE8E, 0x0, 0x0, 0x0, 0x0, 0x0⟩,
    ⟨0xE8F, 0x0, 0x0, 0x0, 0x0, 0x0⟩,
    ⟨0xE90, 0x0, 0x0, 0x0, 0x0, 0x0⟩,
    ⟨0xE91, 0x0, 0x0, 0x0, 0x0, 0x0⟩,
    ⟨0xE92, 0x0, 0x0, 0x0, 0x0, 0x0⟩,
    ⟨0xEA0, 0x0, 0x0, 0x0, 0x0, 0x0⟩,
    ⟨0xEA1, 0x0, 0x0, 0x0, 0x0, 0x0⟩,
    ⟨0xEA2, 0x0, 0x0, 0x0, 0x0, 0x0⟩,
    ⟨0xEA3, 0x0, 0x0, 0x0, 0x0, 0x0⟩,
    ⟨0xEA4, 0x0, 0x0, 0x0, 0x0, 0x0⟩,
    ⟨0xEA5, 0x0, 0x0, 0x0, 0x0, 0x0⟩,
    ⟨0xEA6, 0x0, 0x0, 0x0, 0x0, 0x0⟩,
    ⟨0xEA7, 0x0, 0x0, 0x0, 0x0, 0x0⟩,
    ⟨0xEA8, 0x0, 0x0, 0x0, 0x0, 0x0⟩,
    ⟨0xEA9, 0x0, 0x0, 0x0, 0x0, 0x0⟩,
    ⟨0xEAA, 0x0, 0x0, 0x0, 0x0, 0x0⟩,
    ⟨0xEAB, 0x0, 0x0, 0x0, 0x0, 0x0⟩,
    ⟨0xEAC, 0x0, 0x0, 0x0, 0x0, 0x0⟩,
    ⟨0xEAD, 0x0, 0x0, 0x0, 0x0, 0x0⟩,
    ⟨0xEAE, 0x0, 0x0, 0x0, 0x0, 0x0⟩,
    ⟨0xEAF, 0x0, 0x0, 0x0, 0x0, 0x0⟩,
    ⟨0xEB0, 0x0, 0x0, 0x0, 0x0, 0x0⟩,
    ⟨0xEB1, 0x0, 0x0, 0x0, 0x0, 0x0⟩,
    ⟨0xEB2, 0x0, 0x0, 0x0, 0x0, 0x0⟩,
    ⟨0xEB3, 0x0, 0x0, 0x0, 0x0, 0x0⟩,
    ⟨0xEB4, 0x0, 0x0, 0x0, 0x0, 0x0⟩ ]

def page0E_1 : List RegDef :=
  [ ⟨0xEB5, 0x0, 0x0, 0x0, 0x0, 0x0⟩,
    ⟨0xEB6, 0x0, 0x0, 0x0, 0x0, 0x0⟩,
    ⟨0xEB7, 0x0, 0x0, 0x0, 0x0, 0x0⟩,
    ⟨0xEB8, 0x0, 0x0, 0x0, 0x0, 0x0⟩ ]

def page0F_0 : List RegDef :=
  [ ⟨0xF80, 0x0, 0x0, 0x0, 0x0, 0x0⟩,
    ⟨0xF81, 0x80C0, 0x0, 0x0, 0x0, 0x0⟩,
    ⟨0xF82, 0x0, 0x0, 0x0, 0x0, 0x0⟩,
    ⟨0xF83, 0x0, 0x0, 0x0, 0x0, 0x0⟩,
    ⟨0xF84, 0x0, 0x0, 0x0, 0x0, 0x0⟩,
    ⟨0xF85, 0x0, 0x0, 0x0, 0x0, 0x0⟩,
    ⟨0xF86, 0x0, 0x0, 0x0, 0x0, 0x0⟩,
    ⟨0xF87, 0x0, 0x0, 0x0, 0x0, 0x0⟩,
    ⟨0xF88, 0x0, 0x0, 0x0, 0x0, 0x0⟩,
    ⟨0xF89, 0x8000, 0x0, 0x0, 0x0, 0x0⟩,
    ⟨0xF8A, 0x0, 0x0, 0x0, 0x0, 0x0⟩,
    ⟨0xF8B, 0x0, 0x0, 0x0, 0x0, 0x0⟩,
    ⟨0xF8C, 0x0, 0x0, 0x0, 0x0, 0x0⟩,
    ⟨0xF8D, 0x0, 0x0, 0x0, 0x0, 0x0⟩,
    ⟨0xF8E, 0x0, 0x0, 0x0, 0x0, 0x0⟩,
    ⟨0xF8F, 0x0, 0x0, 0x0, 0x0, 0x0⟩,
    ⟨0xF90, 0x0, 0x0, 0x0, 0x0, 0x0⟩,
    ⟨0xF91, 0x5A63, 0x0, 0x0, 0x0, 0xFFFF⟩,
    ⟨0xF92, 0x140F, 0x0, 0x0, 0x0, 0xFFFF⟩,
    ⟨0xF93, 0x3C, 0x0, 0x0, 0x0, 0xFFFF⟩,
    ⟨0xF94, 0x3, 0x0, 0x0, 0x0, 0x7⟩,
    ⟨0xF95, 0x0, 0x0, 0x0, 0x0, 0x0⟩,
    ⟨0xF96, 0x0, 0x0, 0x0, 0x0, 0x0⟩,
    ⟨0xF97, 0x0, 0x0, 0x0, 0x0, 0x0⟩,
    ⟨0xF98, 0x0, 0x0, 0x0, 0x0, 0x0⟩,
    ⟨0xF99, 0x0, 0x0, 0x0, 0x0, 0x0⟩,
    ⟨0xFA0, 0x0, 0x0, 0x0, 0x0, 0x0⟩,
    ⟨0xFA1, 0x0, 0x0, 0x0, 0x0, 0x0⟩,
    ⟨0xFA2, 0x0, 0x0, 0x0, 0x0, 0x0⟩,
    ⟨0xFA3, 0x0, 0x0, 0x0, 0x0, 0x0⟩,
    ⟨0xFA4, 0x0, 0x0, 0x0, 0x0, 0x0⟩,
    ⟨0xFA5, 0x0, 0x0, 0x0, 0x0, 0x0⟩,
    ⟨0xFA6, 0x0, 0x0, 0x0, 0x0, 0x0⟩,
    ⟨0xFA7, 0x0, 0x0, 0x0, 0x0, 0x0⟩,
    ⟨0xFA8, 0x0, 0x0, 0x0, 0x0, 0x0⟩,
    ⟨0xFA9, 0x0, 0x0, 0x0, 0x0, 0x0⟩,
    ⟨0xFAA, 0x0, 0x0, 0x0, 0x0, 0x0⟩,
    ⟨0xFAB, 0x0, 0x0, 0x0, 0x0, 0x0⟩,
    ⟨0xFAC, 0x0, 0x0, 0x0, 0x0, 0x0⟩,
    ⟨0xFAD, 0x0, 0x0, 0x0, 0x0, 0x0⟩ ]

def page0F_1 : List RegDef :=
  [ ⟨0xFAE, 0x0, 0x0, 0x0, 0x0, 0x0⟩,
    ⟨0xFAF, 0x0, 0x0, 0x0, 0x0, 0x0⟩,
    ⟨0xFB0, 0x0, 0x0, 0x0, 0x0, 0x0⟩,
    ⟨0xFB1, 0x0, 0x0, 0x0, 0x0, 0x0⟩,
    ⟨0xFB2, 0x0, 0x0, 0x0, 0x0, 0x0⟩,
    ⟨0xFB3, 0x0, 0x0, 0x0, 0x0, 0x0⟩,
    ⟨0xFB4, 0x0, 0x0, 0x0, 0x0, 0x0⟩,
    ⟨0xFB5, 0x0, 0x0, 0x0, 0x0, 0x0⟩,
    ⟨0xFB6, 0x0, 0x0, 0x0, 0x0, 0x0⟩,
    ⟨0xFB7, 0x0, 0x0, 0x0, 0x0, 0x0⟩,
    ⟨0xFB8, 0x0, 0x0, 0x0, 0x0, 0x0⟩,
    ⟨0xFB9, 0x0, 0x0, 0x0, 0x0, 0x0⟩,
    ⟨0xFBA, 0x0, 0x0, 0x0, 0x0, 0x0⟩,
    ⟨0xFBB, 0x0, 0x0, 0x0, 0x0, 0x0⟩,
    ⟨0xFBC, 0x0, 0x0, 0x0, 0x0, 0x0⟩,
    ⟨0xFBD, 0x0, 0x0, 0x0, 0x0, 0x0⟩,
    ⟨0xFBE, 0x0, 0x0, 0x0, 0x0, 0x0⟩,
    ⟨0xFBF, 0x0, 0x0, 0x0, 0x0, 0x0⟩ ]

def page10_0 : List RegDef :=
  [ ⟨0x1080, 0x0, 0x0, 0x0, 0x0, 0x0⟩,
    ⟨0x1081, 0x1402, 0x0, 0x0, 0x0, 0xFF0F⟩,
    ⟨0x1082, 0x0, 0x3, 0x0, 0x0, 0x0⟩,
    ⟨0x1083, 0x0, 0x0, 0x0, 0x3, 0x0⟩,
    ⟨0x1084, 0x0, 0x0, 0x0, 0x0, 0x0⟩,
    ⟨0x1085, 0x8000, 0x0, 0x0, 0x0, 0x0⟩,
    ⟨0x1086, 0x0, 0x0, 0x0, 0x0, 0x0⟩,
    ⟨0x1087, 0x0, 0x0, 0x0, 0x0, 0x0⟩,
    ⟨0x1088, 0x0, 0x0, 0x0, 0x0, 0x0⟩,
    ⟨0x1089, 0x0, 0x0, 0x0, 0x0, 0x0⟩,
    ⟨0x108A, 0x0, 0x0, 0x0, 0x0, 0x0⟩,
    ⟨0x108B, 0x0, 0x0, 0x0, 0x0, 0x0⟩,
    ⟨0x108C, 0x0, 0x0, 0x0, 0x0, 0x0⟩,
    ⟨0x1090, 0x0, 0xFFFF, 0x0, 0x0, 0x0⟩,
    ⟨0x1091, 0x0, 0xFFFF, 0x0, 0x0, 0x0⟩,
    ⟨0x1092, 0x0, 0xFFFF, 0x0, 0x0, 0x0⟩,
    ⟨0x1093, 0x0, 0xFFFF, 0x0, 0x0, 0x0⟩,
    ⟨0x1094, 0x0, 0xFFFF, 0x0, 0x0, 0x0⟩,
    ⟨0x1095, 0x0, 0xFFFF, 0x0, 0x0, 0x0⟩,
    ⟨0x1096, 0x0, 0xFFFF, 0x0, 0x0, 0x0⟩,
    ⟨0x1097, 0x0, 0xFFFF, 0x0, 0x0, 0x0⟩,
    ⟨0x1098, 0x0, 0xFFFF, 0x0, 0x0, 0x0⟩,
    ⟨0x1099, 0x0, 0xFFFF, 0x0, 0x0, 0x0⟩,
    ⟨0x109A, 0x0, 0xFFFF, 0x0, 0x0, 0x0⟩,
    ⟨0x109B, 0x0, 0xFFFF, 0x0, 0x0, 0x0⟩,
    ⟨0x109C, 0x0, 0xFFFF, 0x0, 0x0, 0x0⟩,
    ⟨0x109D, 0x0, 0xFFFF, 0x0, 0x0, 0x0⟩,
    ⟨0x109E, 0x0, 0xFFFF, 0x0, 0x0, 0x0⟩,
    ⟨0x109F, 0x0, 0xFFFF, 0x0, 0x0, 0x0⟩ ]

def page11_0 : List RegDef :=
  [ ⟨0x1180, 0x1F, 0x0, 0x0, 0x0, 0x0⟩,
    ⟨0x1181, 0x3E, 0x0, 0x0, 0x0, 0x3E⟩,
    ⟨0x1182, 0x3E8, 0x0, 0x0, 0x0, 0xFFFF⟩,
    ⟨0x1183, 0x14, 0x0, 0x0, 0x0, 0x1F⟩,
    ⟨0x1184, 0x164, 0x1FF, 0x0, 0x0, 0x0⟩,
    ⟨0x1185, 0x0, 0xFFFF, 0x0, 0x0, 0x0⟩,
    ⟨0x1186, 0x0, 0x0, 0x0, 0x0, 0x0⟩,
    ⟨0x1187, 0x0, 0x0, 0x0, 0x0, 0x0⟩,
    ⟨0x1188, 0x0, 0x0, 0x0, 0x0, 0x0⟩,
    ⟨0x1189, 0x0, 0x0, 0x0, 0x0, 0x0⟩,
    ⟨0x118A, 0x0, 0x0, 0x0, 0x0, 0x0⟩,
    ⟨0x118B, 0x8000, 0x0, 0x0, 0x0, 0x0⟩,
    ⟨0x118C, 0x0, 0x0, 0x0, 0x0, 0x0⟩,
    ⟨0x118D, 0x8000, 0x0, 0x0, 0x0, 0x0⟩,
    ⟨0x118E, 0xC8, 0x0, 0x0, 0x0, 0x0⟩,
    ⟨0x118F, 0x0, 0x0, 0x0, 0x0, 0x0⟩,
    ⟨0x1190, 0x0, 0x0, 0x0, 0x0, 0x0⟩,
    ⟨0x1191, 0x0, 0x0, 0x0, 0x0, 0x0⟩,
    ⟨0x1192, 0x0, 0x0, 0x0, 0x0, 0x0⟩,
    ⟨0x1193, 0x0, 0x0, 0x0, 0x0, 0x0⟩,
    ⟨0x1194, 0x0, 0x0, 0x0, 0x0, 0x0⟩,
    ⟨0x1195, 0x0, 0x0, 0x0, 0x0, 0x0⟩,
    ⟨0x1196, 0x0, 0x0, 0x0, 0x3, 0x0⟩,
    ⟨0x11A0, 0x0, 0x0, 0x0, 0x0, 0xFFFF⟩,
    ⟨0x11A1, 0x0, 0x0, 0x0, 0x0, 0xFFFF⟩,
    ⟨0x11A2, 0x0, 0x0, 0x0, 0x0, 0xFFFF⟩,
    ⟨0x11A3, 0x0, 0x0, 0x0, 0x0, 0xFFFF⟩,
    ⟨0x11A4, 0x0, 0x0, 0x0, 0x0, 0xFFFF⟩,
    ⟨0x11A5, 0x0, 0x0, 0x0, 0x0, 0xFFFF⟩,
    ⟨0x11A6, 0x0, 0x0, 0x0, 0x0, 0xFFFF⟩,
    ⟨0x11A7, 0x0, 0x0, 0x0, 0x0, 0xFFFF⟩,
    ⟨0x11A8, 0x0, 0x0, 0x0, 0x0, 0xFFFF⟩,
    ⟨0x11A9, 0x0, 0x0, 0x0, 0x0, 0xFFFF⟩,
    ⟨0x11AA, 0x0, 0x0, 0x0, 0x0, 0xFFFF⟩,
    ⟨0x11AB, 0x0, 0x0, 0x0, 0x0, 0xFFFF⟩,
    ⟨0x11AC, 0x0, 0x0, 0x0, 0x0, 0xFFFF⟩,
    ⟨0x11AD, 0x0, 0x0, 0x0, 0x0, 0xFFFF⟩,
    ⟨0x11AE, 0x0, 0x0, 0x0, 0x0, 0xFFFF⟩,
    ⟨0x11AF, 0x0, 0x0, 0x0, 0x0, 0xFFFF⟩ ]

def page12_0 : List RegDef :=
  [ ⟨0x1280, 0x0, 0x0, 0x0, 0x0, 0x0⟩,
    ⟨0x1281, 0x402A, 0x0, 0x0, 0x0, 0xC0FF⟩,
    ⟨0x1282, 0x0, 0x0, 0x0, 0x0, 0x0⟩,
    ⟨0x1283, 0x0, 0x0, 0x0, 0x0, 0x0⟩,
    ⟨0x1284, 0x7C0, 0x0, 0x0, 0x0, 0x0⟩,
    ⟨0x1285, 0x0, 0x0, 0x0, 0x0, 0x0⟩,
    ⟨0x1286, 0x0, 0x0, 0x0, 0x0, 0x0⟩,
    ⟨0x1287, 0x0, 0x0, 0x0, 0x0, 0x0⟩,
    ⟨0x1288, 0x0, 0x0, 0x0, 0x0, 0x0⟩,
    ⟨0x1289, 0x0, 0x0, 0x0, 0x0, 0x0⟩,
    ⟨0x128A, 0x0, 0x0, 0x0, 0x0, 0x0⟩,
    ⟨0x128B, 0x0, 0x0, 0x0, 0x0, 0x0⟩,
    ⟨0x128C, 0x0, 0x0, 0x0, 0x0, 0x0⟩,
    ⟨0x128D, 0x0, 0x0, 0x0, 0x0, 0x0⟩,
    ⟨0x128E, 0x0, 0x0, 0x0, 0x0, 0x0⟩,
    ⟨0x128F, 0x0, 0x0, 0x0, 0x0, 0x0⟩,
    ⟨0x1290, 0x0, 0x0, 0x0, 0x0, 0x0⟩,
    ⟨0x1291, 0x0, 0x0, 0x0, 0x0, 0x0⟩,
    ⟨0x1292, 0x0, 0x0, 0x0, 0x0, 0x0⟩,
    ⟨0x1293, 0x0, 0x0, 0x0, 0x0, 0x0⟩,
    ⟨0x1294, 0x0, 0x0, 0x0, 0x0, 0x0⟩,
    ⟨0x1295, 0x0, 0x0, 0x0, 0x0, 0x0⟩,
    ⟨0x1296, 0x0, 0x0, 0x0, 0x0, 0x0⟩,
    ⟨0x1297, 0x0, 0x0, 0x0, 0x0, 0x0⟩,
    ⟨0x1298, 0x0, 0x0, 0x0, 0x0, 0x0⟩,
    ⟨0x1299, 0x0, 0x0, 0x0, 0xFF07, 0x0⟩,
    ⟨0x12A0, 0x0, 0x0, 0x0, 0x0, 0x0⟩,
    ⟨0x12A1, 0x0, 0x0, 0x0, 0x0, 0x0⟩,
    ⟨0x12A2, 0x0, 0x0, 0x0, 0x0, 0x0⟩,
    ⟨0x12A3, 0x0, 0x0, 0x0, 0x0, 0x0⟩,
    ⟨0x12A4, 0x0, 0x0, 0x0, 0x0, 0x0⟩,
    ⟨0x12A5, 0x0, 0x0, 0x0, 0x0, 0x0⟩,
    ⟨0x12A6, 0x0, 0x0, 0x0, 0x0, 0x0⟩,
    ⟨0x12A7, 0x0, 0x0, 0x0, 0x0, 0x0⟩,
    ⟨0x12A8, 0x0, 0x0, 0x0, 0x0, 0x0⟩,
    ⟨0x12A9, 0x0, 0x0, 0x0, 0x0, 0x0⟩,
    ⟨0x12AA, 0x0, 0x0, 0x0, 0x0, 0x0⟩,
    ⟨0x12AB, 0x0, 0x0, 0x0, 0x0, 0x0⟩,
    ⟨0x12AC, 0x0, 0x0, 0x0, 0x0, 0x0⟩,
    ⟨0x12AD, 0x0, 0x0, 0x0, 0x0, 0x0⟩ ]

def page12_1 : List RegDef :=
  [ ⟨0x12AE, 0x0, 0x0, 0x0, 0x0, 0x0⟩,
    ⟨0x12AF, 0x0, 0x0, 0x0, 0x0, 0x0⟩,
    ⟨0x12B0, 0x0, 0x0, 0x0, 0x0, 0x0⟩,
    ⟨0x12B1, 0x0, 0x0, 0x0, 0x0, 0x0⟩,
    ⟨0x12B2, 0x0, 0x0, 0x0, 0x0, 0x0⟩,
    ⟨0x12B3, 0x0, 0x0, 0x0, 0x0, 0x0⟩ ]

def page13_0 : List RegDef :=
  [ ⟨0x1380, 0x0, 0x7, 0x0, 0x0, 0x0⟩,
    ⟨0x1381, 0x688, 0x1FFF, 0x0, 0x0, 0x0⟩,
    ⟨0x1382, 0x303, 0xFFFF, 0x0, 0x0, 0x0⟩,
    ⟨0x1383, 0x8, 0x8FFF, 0x0, 0x0, 0x0⟩,
    ⟨0x1384, 0x0, 0xFFFF, 0x0, 0x0, 0x0⟩,
    ⟨0x1385, 0x408, 0xFFFF, 0x0, 0x0, 0x0⟩,
    ⟨0x1386, 0x400, 0xFFFF, 0x0, 0x0, 0x0⟩,
    ⟨0x1387, 0x0, 0x0, 0x0, 0x0, 0x0⟩,
    ⟨0x1388, 0x0, 0x0, 0xF, 0x0, 0x0⟩,
    ⟨0x1389, 0x0, 0x0, 0x0, 0x0, 0x0⟩,
    ⟨0x138A, 0x0, 0x0, 0x0, 0x0, 0x0⟩,
    ⟨0x138B, 0x0, 0x0, 0x0, 0x0, 0x0⟩,
    ⟨0x138C, 0x0, 0x0, 0x0, 0x0, 0x0⟩,
    ⟨0x138D, 0x0, 0x0, 0x0, 0x0, 0x0⟩,
    ⟨0x138E, 0x0, 0x0, 0x0, 0x0, 0x0⟩,
    ⟨0x138F, 0x0, 0x0, 0x0, 0x0, 0x0⟩,
    ⟨0x1390, 0x0, 0x0, 0x0, 0x0, 0x0⟩,
    ⟨0x1391, 0x0, 0x0, 0x0, 0x0, 0x0⟩,
    ⟨0x1392, 0x0, 0x0, 0x0, 0x0, 0x0⟩,
    ⟨0x1393, 0x0, 0xFFFF, 0x0, 0x0, 0x0⟩,
    ⟨0x1394, 0x0, 0x0, 0x0, 0x1, 0x0⟩ ]

def page14_0 : List RegDef :=
  [ ⟨0x1480, 0x0, 0x7, 0x0, 0x0, 0x0⟩,
    ⟨0x1481, 0x688, 0x1FFF, 0x0, 0x0, 0x0⟩,
    ⟨0x1482, 0x303, 0xFFFF, 0x0, 0x0, 0x0⟩,
    ⟨0x1483, 0x8, 0x8FFF, 0x0, 0x0, 0x0⟩,
    ⟨0x1484, 0x0, 0xFFFF, 0x0, 0x0, 0x0⟩,
    ⟨0x1485, 0x408, 0xFFFF, 0x0, 0x0, 0x0⟩,
    ⟨0x1486, 0x400, 0xFFFF, 0x0, 0x0, 0x0⟩,
    ⟨0x1487, 0x0, 0x0, 0x0, 0x0, 0x0⟩,
    ⟨0x1488, 0x0, 0x0, 0xF, 0x0, 0x0⟩,
    ⟨0x1489, 0x0, 0x0, 0x0, 0x0, 0x0⟩,
    ⟨0x148A, 0x0, 0x0, 0x0, 0x0, 0x0⟩,
    ⟨0x148B, 0x0, 0x0, 0x0, 0x0, 0x0⟩,
    ⟨0x148C, 0x0, 0x0, 0x0, 0x0, 0x0⟩,
    ⟨0x148D, 0x0, 0x0, 0x0, 0x0, 0x0⟩,
    ⟨0x148E, 0x0, 0x0, 0x0, 0x0, 0x0⟩,
    ⟨0x148F, 0x0, 0x0, 0x0, 0x0, 0x0⟩,
    ⟨0x1490, 0x0, 0x0, 0x0, 0x0, 0x0⟩,
    ⟨0x1491, 0x0, 0x0, 0x0, 0x0, 0x0⟩,
    ⟨0x1492, 0x0, 0x0, 0x0, 0x0, 0x0⟩ ]

def page15_0 : List RegDef :=
  [ ⟨0x1580, 0x0, 0xF, 0x0, 0x0, 0x0⟩,
    ⟨0x1581, 0x0, 0x0, 0x0, 0x0, 0x0⟩,
    ⟨0x1582, 0x0, 0x0, 0x0, 0x0, 0x0⟩,
    ⟨0x1583, 0x0, 0x0, 0x0, 0x0, 0x0⟩,
    ⟨0x1584, 0x8000, 0x0, 0x0, 0x0, 0x0⟩,
    ⟨0x1585, 0x32, 0xFFFF, 0x0, 0x0, 0x0⟩,
    ⟨0x1586, 0x0, 0x0, 0x0, 0x0, 0x0⟩,
    ⟨0x1587, 0x0, 0x0, 0x0, 0x0, 0x0⟩,
    ⟨0x1588, 0x0, 0x0, 0x0, 0x0, 0x0⟩,
    ⟨0x1589, 0x0, 0xFFFF, 0x0, 0x0, 0x0⟩,
    ⟨0x158A, 0x0, 0xFFFF, 0x0, 0x0, 0x0⟩,
    ⟨0x158B, 0x0, 0xFFFF, 0x0, 0x0, 0x0⟩,
    ⟨0x158C, 0x101, 0x303, 0x0, 0x0, 0x0⟩,
    ⟨0x158D, 0x4, 0x8FFF, 0x0, 0x0, 0x0⟩,
    ⟨0x158E, 0x0, 0xFFFF, 0x0, 0x0, 0x0⟩,
    ⟨0x158F, 0x408, 0xFFFF, 0x0, 0x0, 0x0⟩,
    ⟨0x1590, 0x400, 0xFFFF, 0x0, 0x0, 0x0⟩,
    ⟨0x1591, 0x0, 0xFFFF, 0x0, 0x0, 0x0⟩,
    ⟨0x1592, 0x0, 0x0, 0x0, 0x0, 0x0⟩,
    ⟨0x1593, 0x0, 0x0, 0x0, 0x0, 0x0⟩,
    ⟨0x1594, 0x0, 0x0, 0x0, 0x1, 0x0⟩,
    ⟨0x1595, 0x0, 0x0, 0x3F, 0x0, 0x0⟩,
    ⟨0x1596, 0x0, 0x0, 0x0, 0x0, 0x0⟩,
    ⟨0x1597, 0x0, 0x0, 0x0, 0x0, 0x0⟩,
    ⟨0x1598, 0x0, 0x0, 0x0, 0x0, 0x0⟩,
    ⟨0x15A0, 0x0, 0x0, 0x0, 0x0, 0x0⟩,
    ⟨0x15A1, 0x0, 0x0, 0x0, 0x0, 0x0⟩,
    ⟨0x15A2, 0x0, 0x0, 0x0, 0x0, 0x0⟩,
    ⟨0x15A3, 0x0, 0x0, 0x0, 0x0, 0x0⟩,
    ⟨0x15A4, 0x0, 0x0, 0x0, 0x0, 0x0⟩,
    ⟨0x15A5, 0x0, 0x0, 0x0, 0x0, 0x0⟩,
    ⟨0x15A6, 0x0, 0x0, 0x0, 0x0, 0x0⟩,
    ⟨0x15A7, 0x0, 0x0, 0x0, 0x0, 0x0⟩,
    ⟨0x15A8, 0x0, 0x0, 0x0, 0x0, 0x0⟩,
    ⟨0x15A9, 0x0, 0x0, 0x0, 0x0, 0x0⟩,
    ⟨0x15AA, 0x0, 0x0, 0x0, 0x0, 0x0⟩,
    ⟨0x15AB, 0x0, 0x0, 0x0, 0x0, 0x0⟩,
    ⟨0x15AC, 0x0, 0x0, 0x0, 0x0, 0x0⟩,
    ⟨0x15AD, 0x0, 0x0, 0x0, 0x0, 0x0⟩ ]

def page16_0 : List RegDef :=
  [ ⟨0x1680, 0x0, 0x0, 0x0, 0x0, 0x0⟩,
    ⟨0x1681, 0x8000, 0xC000, 0x0, 0x0, 0x0⟩,
    ⟨0x1682, 0x400, 0xFFFF, 0x0, 0x0, 0x0⟩,
    ⟨0x1683, 0x32, 0xFFFF, 0x0, 0x0, 0x0⟩,
    ⟨0x1684, 0x602, 0x707, 0x0, 0x0, 0x0⟩,
    ⟨0x1685, 0x80, 0xFFFF, 0x0, 0x0, 0x0⟩,
    ⟨0x1686, 0x0, 0x0, 0x0, 0x0, 0x0⟩,
    ⟨0x1687, 0x0, 0x0, 0x0, 0x0, 0x0⟩,
    ⟨0x1688, 0x0, 0x0, 0x0, 0xFFFF, 0x0⟩,
    ⟨0x1689, 0x0, 0x0, 0x0, 0x0, 0x0⟩,
    ⟨0x168A, 0x0, 0x0, 0x0, 0x0, 0x0⟩,
    ⟨0x168B, 0x0, 0x0, 0x0, 0x0, 0x0⟩,
    ⟨0x168C, 0x0, 0x0, 0x0, 0x0, 0x0⟩,
    ⟨0x168D, 0x0, 0x0, 0x0, 0x0, 0x0⟩,
    ⟨0x168E, 0x0, 0x0, 0x0, 0x0, 0x0⟩,
    ⟨0x168F, 0x0, 0x0, 0x0, 0x0, 0x0⟩,
    ⟨0x1690, 0x0, 0x0, 0x0, 0x0, 0x0⟩,
    ⟨0x1691, 0x0, 0x0, 0x0, 0x0, 0x0⟩,
    ⟨0x1692, 0x0, 0x0, 0x0, 0x1, 0x0⟩ ]

def page17_0 : List RegDef :=
  [ ⟨0x1780, 0x0, 0x0, 0x0, 0x0, 0x0⟩,
    ⟨0x1781, 0x7008, 0x0, 0x0, 0x0, 0xF03F⟩,
    ⟨0x1782, 0xF, 0x0, 0x0, 0x0, 0xFFFF⟩,
    ⟨0x1783, 0x54, 0x0, 0x0, 0x0, 0x7F⟩,
    ⟨0x1784, 0x70A, 0x0, 0x0, 0x0, 0xFFFF⟩,
    ⟨0x1785, 0x0, 0x0, 0x0, 0x0, 0x0⟩,
    ⟨0x1786, 0x0, 0x0, 0x0, 0x0, 0x0⟩,
    ⟨0x1787, 0x0, 0x0, 0x0, 0x0, 0x0⟩,
    ⟨0x1788, 0x0, 0x0, 0x0, 0x0, 0x0⟩,
    ⟨0x1789, 0x0, 0x0, 0x0, 0x0, 0x0⟩,
    ⟨0x178A, 0x0, 0x0, 0x0, 0x0, 0x0⟩,
    ⟨0x178B, 0x0, 0x0, 0x0, 0x0, 0x0⟩,
    ⟨0x178C, 0x0, 0x0, 0x3F, 0x0, 0x0⟩,
    ⟨0x178D, 0x0, 0x0, 0x0, 0x0, 0x0⟩,
    ⟨0x178E, 0x0, 0x0, 0x0, 0x0, 0x0⟩,
    ⟨0x178F, 0x0, 0x0, 0x0, 0x0, 0x0⟩,
    ⟨0x1790, 0x0, 0x0, 0x0, 0x0, 0x0⟩,
    ⟨0x1791, 0x0, 0x0, 0x0, 0x0, 0x0⟩,
    ⟨0x1792, 0x0, 0x0, 0x0, 0xFF01, 0x0⟩ ]

def page18_0 : List RegDef :=
  [ ⟨0x1880, 0x0, 0x0, 0x0, 0x0, 0x0⟩,
    ⟨0x1881, 0xFF, 0x0, 0x0, 0x0, 0x0⟩,
    ⟨0x1882, 0xC0C, 0x0, 0x0, 0x0, 0xFFFF⟩,
    ⟨0x1883, 0xC0, 0x0, 0x0, 0x0, 0xFFFF⟩,
    ⟨0x1884, 0x0, 0x0, 0x0, 0x0, 0xFFFF⟩,
    ⟨0x1885, 0x50, 0x0, 0x0, 0x0, 0xFF⟩,
    ⟨0x1886, 0x0, 0x0, 0x0, 0x0, 0x0⟩,
    ⟨0x1887, 0x0, 0x0, 0x0, 0x0, 0x0⟩,
    ⟨0x1888, 0x0, 0x0, 0x0, 0x0, 0x0⟩,
    ⟨0x1889, 0x0, 0x0, 0x0, 0x0, 0x0⟩,
    ⟨0x188A, 0x0, 0x0, 0x0, 0x0, 0x0⟩,
    ⟨0x188B, 0x0, 0x0, 0x0, 0x0, 0x0⟩,
    ⟨0x188C, 0x0, 0x0, 0x0, 0x0, 0x0⟩,
    ⟨0x188D, 0x0, 0x0, 0x0, 0x0, 0x0⟩,
    ⟨0x188E, 0xFA, 0x0, 0x0, 0x0, 0xFFFF⟩,
    ⟨0x188F, 0x32, 0x0, 0x0, 0x0, 0xFFFF⟩,
    ⟨0x1890, 0x10, 0x0, 0x0, 0x0, 0xFFFF⟩,
    ⟨0x1891, 0x64, 0x0, 0x0, 0x0, 0xFFFF⟩,
    ⟨0x1892, 0x0, 0x0, 0x0, 0xFF07, 0x0⟩,
    ⟨0x18A1, 0xFF00, 0x0, 0x0, 0x0, 0x0⟩,
    ⟨0x18A2, 0xFF00, 0x0, 0x0, 0x0, 0x0⟩,
    ⟨0x18A3, 0xFF00, 0x0, 0x0, 0x0, 0x0⟩,
    ⟨0x18A4, 0xFF00, 0x0, 0x0, 0x0, 0x0⟩,
    ⟨0x18A5, 0xFF00, 0x0, 0x0, 0x0, 0x0⟩,
    ⟨0x18A6, 0xFF00, 0x0, 0x0, 0x0, 0x0⟩,
    ⟨0x18A7, 0xFF00, 0x0, 0x0, 0x0, 0x0⟩,
    ⟨0x18A8, 0xFF00, 0x0, 0x0, 0x0, 0x0⟩,
    ⟨0x18A9, 0xFF00, 0x0, 0x0, 0x0, 0x0⟩,
    ⟨0x18AA, 0xFF00, 0x0, 0x0, 0x0, 0x0⟩,
    ⟨0x18AB, 0xFF00, 0x0, 0x0, 0x0, 0x0⟩,
    ⟨0x18AC, 0xFF00, 0x0, 0x0, 0x0, 0x0⟩,
    ⟨0x18AD, 0xFF00, 0x0, 0x0, 0x0, 0x0⟩ ]

/-- The common part (R224). -/
def common : List RegDef := page00_0 ++ page00_1

/-- The registers of one page; empty for page 0x00 and pages above 0x18 (R12). -/
def page : Nat → List RegDef
  | 0x01 => page01_0
  | 0x02 => page02_0
  | 0x03 => page03_0
  | 0x04 => page04_0
  | 0x05 => page05_0
  | 0x06 => page06_0
  | 0x07 => page07_0
  | 0x08 => page08_0
  | 0x09 => page09_0
  | 0x0A => page0A_0
  | 0x0B => page0B_0
  | 0x0C => page0C_0
  | 0x0D => page0D_0
  | 0x0E => page0E_0 ++ page0E_1
  | 0x0F => page0F_0 ++ page0F_1
  | 0x10 => page10_0
  | 0x11 => page11_0
  | 0x12 => page12_0 ++ page12_1
  | 0x13 => page13_0
  | 0x14 => page14_0
  | 0x15 => page15_0
  | 0x16 => page16_0
  | 0x17 => page17_0
  | 0x18 => page18_0
  | _ => []

/-- Page registers whose reset word is not zero; what fields with reset `var` hold, log entry 17 says. -/
def pageResets : List (Nat × Nat) :=
  [(0x180, 0x102), (0x182, 0x10), (0x183, 0x14), (0x280, 0x3), (0x281, 0x504), (0x285, 0x311), (0x287, 0x1), (0x288, 0x20), (0x289, 0x20), (0x380, 0x380), (0x381, 0x1F), (0x382, 0x53C), (0x383, 0x82), (0x384, 0x50), (0x385, 0xA), (0x386, 0xC), (0x38F, 0x1D6), (0x391, 0x3E8), (0x393, 0xFF), (0x395, 0x4A2), (0x396, 0x96), (0x399, 0xE10), (0x39A, 0x1464), (0x39B, 0x1F4), (0x482, 0xFFFF), (0x483, 0xFFFF), (0x484, 0x1), (0x485, 0xFFFF), (0x582, 0xF0), (0x780, 0xA00), (0x880, 0x219), (0x881, 0xD9D8), (0x882, 0xDBDA), (0x883, 0x58), (0x884, 0x3), (0x885, 0x10), (0x886, 0x1481), (0x887, 0x23), (0x98B, 0x4444), (0x98C, 0xFFFF), (0x990, 0xFFFF), (0x994, 0x200), (0x995, 0x100), (0x996, 0x100), (0x997, 0x100), (0x998, 0x3), (0xA81, 0xFFFF), (0xA83, 0x5A), (0xA84, 0xBB8), (0xA85, 0x44C)] ++
  [(0xA86, 0x251C), (0xA87, 0x6978), (0xA88, 0xED8), (0xA89, 0x9C4), (0xA8A, 0x6E), (0xA8B, 0x132), (0xA8C, 0x528), (0xB83, 0x8000), (0xB89, 0x8000), (0xB91, 0x8000), (0xB92, 0x3210), (0xB93, 0x1406), (0xB94, 0xC), (0xD81, 0x1), (0xE82, 0xC2), (0xE88, 0x5562), (0xE89, 0x1432), (0xE8A, 0x3C), (0xE8B, 0x6), (0xF81, 0x80C0), (0xF89, 0x8000), (0xF91, 0x5A63), (0xF92, 0x140F), (0xF93, 0x3C), (0xF94, 0x3), (0x1081, 0x1402), (0x1085, 0x8000), (0x1180, 0x1F), (0x1181, 0x3E), (0x1182, 0x3E8), (0x1183, 0x14), (0x1184, 0x164), (0x118B, 0x8000), (0x118D, 0x8000), (0x118E, 0xC8), (0x1281, 0x402A), (0x1284, 0x7C0), (0x1381, 0x688), (0x1382, 0x303), (0x1383, 0x8), (0x1385, 0x408), (0x1386, 0x400), (0x1481, 0x688), (0x1482, 0x303), (0x1483, 0x8), (0x1485, 0x408), (0x1486, 0x400), (0x1584, 0x8000), (0x1585, 0x32), (0x158C, 0x101)] ++
  [(0x158D, 0x4), (0x158F, 0x408), (0x1590, 0x400), (0x1681, 0x8000), (0x1682, 0x400), (0x1683, 0x32), (0x1684, 0x602), (0x1685, 0x80), (0x1781, 0x7008), (0x1782, 0xF), (0x1783, 0x54), (0x1784, 0x70A), (0x1881, 0xFF), (0x1882, 0xC0C), (0x1883, 0xC0), (0x1885, 0x50), (0x188E, 0xFA), (0x188F, 0x32), (0x1890, 0x10), (0x1891, 0x64), (0x18A1, 0xFF00), (0x18A2, 0xFF00), (0x18A3, 0xFF00), (0x18A4, 0xFF00), (0x18A5, 0xFF00), (0x18A6, 0xFF00), (0x18A7, 0xFF00), (0x18A8, 0xFF00), (0x18A9, 0xFF00), (0x18AA, 0xFF00), (0x18AB, 0xFF00), (0x18AC, 0xFF00), (0x18AD, 0xFF00)]

/-- Common-part registers whose reset word is not zero; `HIF_EPOCH` has reset `var` and holds 1 (log entry 17). -/
def commonResets : List (Nat × Nat) :=
  [(0x1, 0x4816), (0x2, 0x10C), (0xC, 0x1F), (0x52, 0x1), (0x54, 0x800)]

end RegTable

/-- The row of a register in the table of its page, or of the common part. -/
def regDef? (k : Nat) : Option RegDef :=
  if k < 0x10000 then (RegTable.page (k / 0x100)).find? (fun r => r.key == k)
  else RegTable.common.find? (fun r => r.key == k % 0x10000)

/-- The word a register holds after power-on reset (R5); a key with no register holds 0 (R12). -/
def resetWord (k : Nat) : Word :=
  let l := if k < 0x10000 then RegTable.pageResets else RegTable.commonResets
  match l.find? (fun r => r.1 == (if k < 0x10000 then k else k % 0x10000)) with
  | some r => BitVec.ofNat 16 r.2
  | none => 0

end Sys2Proof.Machine
end

