-- ==== Sys2Proof/Machine/Sparse.lean ====
section
/-! DEFINITION. A map from numbers to values held as a list of pairs in one canonical form: keys strictly rising, and no
entry equal to what an unlisted key reads as. Memory, the register file, the event counters and the snapshot latches
are all held in it. -/

namespace Sys2Proof.Machine.Sparse

/-- The value at `k`: the listed one, or `d k` where `k` is not listed. -/
def get {α : Type} (d : Nat → α) : List (Nat × α) → Nat → α
  | [], k => d k
  | (j, v) :: l, k => if k = j then v else get d l k

/-- Puts `v` at `k` into a rising list, keeping it rising; a value equal to the unlisted one removes the entry. -/
def put {α : Type} [DecidableEq α] (d : Nat → α) : List (Nat × α) → Nat → α → List (Nat × α)
  | [], k, v => if v = d k then [] else [(k, v)]
  | (j, w) :: l, k, v =>
    if k < j then (if v = d k then (j, w) :: l else (k, v) :: (j, w) :: l)
    else if k = j then (if v = d k then l else (k, v) :: l)
    else (j, w) :: put d l k v

/-- Every key of the list is above `n`. -/
def above {α : Type} (n : Nat) : List (Nat × α) → Bool
  | [] => true
  | (j, _) :: l => n < j && above n l

/-- The canonical form: keys strictly rising, no entry equal to the unlisted value. -/
def wf {α : Type} [DecidableEq α] (d : Nat → α) : List (Nat × α) → Bool
  | [] => true
  | (j, v) :: l => above j l && decide (v ≠ d j) && wf d l

/-- Drops every entry whose key meets `p`, so that those keys read as unlisted. -/
def drop {α : Type} (p : Nat → Bool) (l : List (Nat × α)) : List (Nat × α) := l.filter (fun e => !p e.1)

end Sys2Proof.Machine.Sparse
end

