-- ==== Sys2Proof/Machine/Types.lean ====
section
/-! DEFINITION. The engines' own state: what the spec gives the block beside its registers. One structure per chapter,
plain data. -/

namespace Sys2Proof.Machine

/-- One value for each function F0 to F3 (R223). -/
structure PerFn (α : Type) where
  f0 : α
  f1 : α
  f2 : α
  f3 : α
  deriving DecidableEq, Repr

/-- The value of function `f`. -/
def PerFn.get {α : Type} (p : PerFn α) : Fn → α
  | .f0 => p.f0
  | .f1 => p.f1
  | .f2 => p.f2
  | .f3 => p.f3

/-- Replaces the value of function `f`. -/
def PerFn.set {α : Type} (p : PerFn α) (f : Fn) (a : α) : PerFn α :=
  match f with
  | .f0 => { p with f0 := a }
  | .f1 => { p with f1 := a }
  | .f2 => { p with f2 := a }
  | .f3 => { p with f3 := a }

/-- The pins and straps (spec 02). -/
structure Pins where
  /-- Internal power-on reset asserted (R25, R65). -/
  porAsserted : Bool
  /-- Latched `ROLE`: false unit A, true unit B (R31). -/
  role : Bool
  /-- Latched `TEST`: the device is held in its reset state while it is high (R32). -/
  test : Bool
  /-- `ROLE` pull-down connected, between reset release and the strap sample (R30). -/
  pulldown : Bool
  /-- A strap sample is due (R30). -/
  strapDue : Bool
  /-- `VDDIO` is present (R29). -/
  vddio : Bool
  /-- `WAKE_N` driven low by the device's own remote wake (R98). -/
  wakeDrive : Bool
  /-- `TWIN_HB` driven low by the device, as a count of pulses emitted (R449). -/
  hbPulses : Nat
  /-- `TWRST_N` pulses driven by the device (R216). -/
  twrstPulses : Nat
  /-- TIME_PULSE outputs emitted (R368). -/
  timePulses : Nat
  deriving DecidableEq, Repr

/-- A part of a charging phase with the buck off: its set-point, its samples of 250 µs, and `VRES` in mV at its first and
last sample (R54). -/
structure ChgPart where
  setPoint : Nat
  samples : Nat
  v0 : Nat
  v1 : Nat
  deriving DecidableEq, Repr

/-- The charger, ledger and estimators (spec 03). -/
structure Pwr where
  /-- Charge set-point in steps of 0.25 mA (R43). -/
  setPoint : Nat
  /-- Samples of 250 µs since the set-point last rose (R43: at most one rise every 4 ms). -/
  sinceRise : Nat
  /-- Samples in a row with the set-point held at zero (R64). -/
  zeroHold : Nat
  /-- BAT_SAG was set for the present hold (R64). -/
  sagSet : Bool
  /-- Charge counted but not yet a whole ledger unit, in nA × 250 µs (R50). -/
  ledgerAcc : Nat
  /-- Newest ledger copy in the CONFIG area (R51). -/
  ledgerFlash : Option Nat
  /-- `RES_C_INIT` and `RES_LEAK_INIT` copies in the CONFIG area; none until a first sample is accepted (R56). -/
  initFlash : Option Nat × Option Nat
  /-- An automatic depassivation pulse is due on the last index (R48). -/
  autoDue : Bool
  /-- The pulse that DEPASS_PEND shows is the automatic one (R48). -/
  pendAuto : Bool
  /-- `VRES` in mV and the AON cycle at which the leakage probe began (R55). -/
  probeV : Nat
  probeAt : Nat
  /-- Throttle statistics of the last 7 days: AON day, summed set-point over `CHG_LIMIT`, and samples (`THROT_AVG`). -/
  throt : List (Nat × ℚ × Nat)
  /-- A capacitance sample, and a leakage sample, has been accepted since power-on reset (R56). -/
  cSeen : Bool
  leakSeen : Bool
  /-- The part of a charging phase under way with the buck off, and the last one that has ended (R54). -/
  part : Option ChgPart
  partDone : Option ChgPart
  /-- Start of the slot that PRE-CHARGE serves (R44, R45). -/
  preFor : Option Nat
  deriving DecidableEq, Repr

/-- Modes, wakes and the remote-wake engine (spec 05). -/
structure ModeEng where
  /-- STATUS16 READY. -/
  ready : Bool
  /-- CORE is stopped in a rest (R91). -/
  resting : Bool
  /-- The entry to that rest is still in progress (R107). -/
  entering : Bool
  /-- Cause of the wake under way, READY not yet reached (Table 5.5, Table 5.6). -/
  waking : Option Nat
  /-- A wake that found `VRES` too low waits, with its cause (R109, R62). -/
  delayed : Option Nat
  /-- `VRES` in mV at which the delayed wake starts. -/
  delayedAt : Nat
  /-- REST_NOW has waived the REST_DELAY condition once (R91). -/
  restNow : Bool
  /-- A host register access has come since the last remote-wake attempt (R101). -/
  hostAccess : Bool
  /-- The first register access after a collision is still to come (R99). -/
  collidedWait : Bool
  /-- Remote-wake repeats left (R101). -/
  retries : Nat
  /-- A reason that waits for its attempt: for `WAKE_N` to be high (R110), or for a host access (R98). -/
  heldReason : Option Nat
  /-- The present low of `WAKE_N` has already given its one resume (R110). -/
  lowTaken : Bool
  /-- An XO start is in progress (R69, R84). -/
  xoTry : Bool
  /-- The device drives `WAKE_N` low, or has just released it: the second sample of R98 is due, with the reason. -/
  driving : Option Nat
  /-- WAKE_MIRROR: a remote-wake drive has started and PEND has not been cleared since (Table 5.8). -/
  mirror : Bool
  /-- The load codes that the XO and X32 oscillators present: the trim at the last XO start, and the X32 trim (R82). -/
  xoLoad : Nat
  x32Load : Nat
  deriving DecidableEq, Repr

/-- What one image attempt of a boot needs to know (spec 06). -/
structure Boot where
  /-- Hedgehog is released and running (R46, R32). -/
  hedgehog : Bool
  /-- The start condition of R46 is still to be met. -/
  startWait : Bool
  /-- Cause code of the boot under way (Table 21.2). -/
  cause : Nat
  /-- Attempts of R124 still to make: slot (0 A, 1 B) and whether it may run trusted. -/
  order : List (Nat × Bool)
  /-- The attempt under way. -/
  attempt : Option (Nat × Bool)
  /-- Blocks that have arrived, with the outcome of their hash comparison (R118). -/
  blocks : List (Nat × Bool)
  /-- Outcome of the signature check, once it is known (R117). -/
  sig : Option Bool
  /-- Early release is disabled for the rest of this boot (R139). -/
  earlyOff : Bool
  /-- Marten has been released. -/
  marten : Bool
  /-- The bundle of the running slot has been dealt with in this boot (R148). -/
  bundleDone : Bool
  /-- Pika image verified, or loaded in an UNTRUSTED boot; `PIKA_GO` written (R120, R161). -/
  pikaVerified : Bool
  pikaGo : Bool
  /-- The saved `BOOT_CFG`, and whether a write waits to be saved (R137). -/
  cfgSaved : Option Nat
  cfgDirty : Bool
  /-- The slot the last cold boot ran (R131). -/
  lastSlot : Nat
  /-- BOOT_EVENT is due at the end of this boot for a cause other than a slot fault (R148, R160). -/
  eventDue : Bool
  /-- The slot preferred in this boot (R124, R144). -/
  pref : Nat
  /-- Every block of the Marten image of the attempt is verified, or loaded in an UNTRUSTED one. -/
  loaded : Bool
  /-- The identity key has been generated, or its programming has failed, in this boot (R134). -/
  identDone : Bool
  /-- The entry to BOOT is a reload of Marten after a heartbeat timeout (R143). -/
  reload : Bool
  /-- `BOOT_CFG` as this boot applies it (R137). -/
  cfg : Nat
  /-- The boot is a wake from DEEP whose slot no longer verifies (R131). -/
  deep : Bool
  /-- Version and build, manifest bytes 8 to 15, of the image that saved registers and plans at the last DEEP entry; empty
  where nothing is saved (R108, R131). -/
  savedBy : List (BitVec 8)
  /-- Manifest and hash table of the running Marten image, in Hedgehog's private SRAM. -/
  table : List (BitVec 8)
  deriving DecidableEq, Repr

/-- Flint's stores in OTP and Burrow (spec 06). -/
structure Flint where
  /-- The OTP device secret passes its integrity check (R133). -/
  secretOk : Bool
  /-- The identity slot is blank (R134). -/
  identBlank : Bool
  /-- The identity key as 32 words of public key, once programmed (R134). -/
  identPub : List Word
  /-- Ids of the installed group keys 0 to 3 (R391). -/
  groups : List (Option Nat)
  /-- The group keys themselves, 16 bytes each, which nothing reads (R132, R391). -/
  keys : List (List (BitVec 8))
  /-- OTP issuer key hashes 0 to 3, as `FLINT_OTP.HASH_SET` shows them programmed (R117, R132). -/
  hashes : List (List (BitVec 8))
  /-- Retention tag key, drawn at every cold boot, the rest counter, and the tag formed at the last WARM entry (R123, R132). -/
  tagKey : Nat
  restCtr : Nat
  tag : Option Nat
  /-- Functions whose Flint op has been started, in the order of their GO (R233). -/
  queue : List Fn
  deriving DecidableEq, Repr

/-- Staging, the image window and the `BOOT_PREF` record (spec 07). -/
structure Img where
  /-- `BOOT_PREF`: the slot named, ONCE, and the slot to return to (R151). -/
  prefSlot : Nat
  prefOnce : Bool
  prefReturn : Nat
  /-- Fuse programming in progress, with its index (R149). -/
  fuse : Option Nat
  /-- Staging journal: target slot (R156). -/
  target : Nat
  /-- Source object: stream and object id (R156). -/
  srcObj : Nat × Nat
  /-- Total sectors and the next one (R154). -/
  total : Nat
  next : Nat
  /-- A staging is in progress. -/
  staging : Bool
  /-- It is an automatic staging (R157). -/
  auto : Bool
  /-- AUTO_STAGE objects held until the present staging ends (R163). -/
  held : List (Nat × Nat)
  /-- Staging journal left by a reset, not yet resumed (R156). -/
  journal : Bool
  /-- Declared length of the image window in bytes and its target (R158). -/
  winLen : Nat
  winTarget : Nat
  /-- Bytes the window has taken. -/
  winPos : Nat
  /-- The staging's source is the image window. -/
  srcWin : Bool
  deriving DecidableEq, Repr

/-- An attention message of one function and the sets gathered behind it (R204). -/
structure Attn where
  /-- Event code register: false `INT_STAT0`, true `INT_STAT1` (Table 9.4). -/
  second : Bool
  payload : Word
  /-- Routed, enabled sets that wait for a message of their own. -/
  due0 : Nat
  due1 : Nat
  /-- Arbitration losses in a row (R208). -/
  losses : Nat
  /-- An attempt is due and waits for the bus or for XO (R205), or for its backoff (R213). -/
  due : Bool
  backoff : Bool
  /-- The message was outstanding at a reset: its next attempt waits for the end of the boot (R518). -/
  carried : Bool
  deriving DecidableEq, Repr

/-- A mailbox op that is executing (R232). -/
structure Op where
  code : Nat
  args : List Word
  /-- KTIME at which `CMD_GO` committed (R359, R443). -/
  at_ : Nat
  /-- Error code and the four results, once the op has reached its end. -/
  outcome : Option (Nat × List Word)
  deriving DecidableEq, Repr

/-- A record on its way to a queue: type, short stamp, payload, and the `INT_STAT0` bits that set with it (R234). -/
structure Rec where
  type : Nat
  stamp : Nat
  payload : List Word
  bits : List Nat
  deriving DecidableEq, Repr

/-- What each function has of its own beside its registers (R223). -/
structure FnEng where
  /-- Words in the data queue, oldest first (R236). -/
  queue : List Word
  /-- FILL count and the stamp of the first record dropped (R235). -/
  fill : Nat
  fillStamp : Nat
  /-- Records that arose while the function's reset runs (R520). -/
  held : List Rec
  /-- The mailbox op executing. -/
  op : Option Op
  /-- Current memory-port byte address (R238). -/
  memAddr : Nat
  /-- Two-wire register pointer (R192). -/
  twPtr : Nat
  attn : Attn
  /-- Charge (nAh) and tuner time (ms) used today (R261). -/
  dayE : Nat
  dayT : Nat
  /-- Words still unread of the record that stands partly read at the front of the queue, and its stamp (R235, R236, R244). -/
  left : Nat
  leftStamp : Nat
  deriving DecidableEq, Repr

/-- A two-wire target frame: the function its first address names, its bytes so far, the outcome its segments give so far,
the functions whose `FN_SEQ` it has stepped, the bytes that head a read's PEC, and whether `SCL` is stretched
(R172, R192, R195, R199, R221). -/
structure TwFrame where
  fn : Fn
  bytes : Nat
  code : Nat
  seqs : List Fn
  head : List (BitVec 8)
  /-- Data bytes that the frame's reads have returned so far (R195). -/
  back : List (BitVec 8)
  held : Bool
  deriving DecidableEq, Repr

/-- The two-wire port's engine (spec 09). -/
structure Tw where
  /-- Address configuration in force: mode, FADDR01, FADDR23, ADDR, MASK, HOSTADDR (R191). -/
  force : List Nat
  /-- An accepted address change waits for the START after the next STOP. -/
  forceDue : Bool
  /-- A frame acknowledged by the matcher is in progress (R200, R201). -/
  wakeFrame : Option Fn
  /-- `SCL` is held by the matcher. -/
  sclHeld : Bool
  /-- The matcher has acknowledged an address since the rest began: none more until READY (R201). -/
  matched : Bool
  /-- The attention attempt on the bus: its function, and whether a cancel waits for the byte's end (R214). -/
  onBus : Option Fn
  cancel : Bool
  /-- `TWRST_N` pulses driven in a row for one fault, and the dead bus (R216). -/
  pulses : Nat
  dead : Bool
  /-- A target frame in progress: stretched on the bus, or between two segments. -/
  frame : Option TwFrame
  /-- Bits of `TW_EVT` set while CORE is stopped: the crossing holds them until it runs (R79). -/
  evtHeld : Nat
  deriving DecidableEq, Repr

/-- An SPI frame in progress with `CS_N` low: the function it names, once three bits have come, its whole bytes, whether it
began with READY = 1, and the words, by window offset, that commit when it ends (R174). -/
structure SpiFrame where
  fn : Option Fn
  bytes : Nat
  ready : Bool
  buffer : List (Nat × Word)
  deriving DecidableEq, Repr

/-- The host serial port's engine (spec 08). -/
structure Spi where
  frame : Option SpiFrame
  /-- STATUS16 LAST_ERR (R171). -/
  err : Bool
  deriving DecidableEq, Repr

/-- A watch of a committed plan (R250). -/
structure Watch where
  /-- The record's sixteen words, byte 2n in [7:0] of word n (R252). -/
  words : List Word
  /-- Nominal start of the first occurrence, KTIME in units of 2⁻²⁴ s. -/
  start : Nat
  /-- Nominal start of the last occurrence that was run, missed or skipped. -/
  last : Option Nat
  deriving DecidableEq, Repr

/-- One placed occurrence: owner, plan index, nominal and placed start, and end, in units of 2⁻²⁴ s (R257). -/
structure Occ where
  fn : Fn
  idx : Nat
  nominal : Nat
  start : Nat
  stop : Nat
  deriving DecidableEq, Repr

/-- A LISTEN of one function (R265). -/
structure Listen where
  kfc : Nat
  seconds : Nat
  cls : Nat
  sub : Nat
  addr : Nat
  paused : Bool
  deriving DecidableEq, Repr

/-- An occurrence in progress. -/
structure Run where
  fn : Fn
  idx : Nat
  nominal : Nat
  /-- Its planned end. -/
  stop : Nat
  /-- A raw write has spoilt it (R283). -/
  raw : Bool
  deriving DecidableEq, Repr

/-- A function's draft and plan (R252). -/
structure PlanEng where
  draft : List (List Word)
  plan : List Watch
  listen : Option Listen
  deriving DecidableEq, Repr

/-- The scheduler (spec 11). -/
structure Sched where
  /-- Functions whose SUBMIT waits or runs, oldest first (R253). -/
  queue : List Fn
  /-- The timeline as placed, and the length of its cycle in seconds (R257, R258). -/
  timeline : List Occ
  cycle : Nat
  running : List Run
  /-- `RES_C_EST` and `RES_LEAK_EST` at the last admission (R266). -/
  lastC : Nat
  lastLeak : Nat
  /-- A re-admission is due (R266). -/
  readmit : Bool
  /-- A change waits to be written to the plan snapshot; the snapshot itself (R255). -/
  dirty : Bool
  snapshot : List (List (List Word))
  /-- CORE-stored registers as the snapshot holds them (R108). -/
  snapRegs : List (Nat × Word)
  /-- Device charge today, nAh (R261). -/
  devE : Nat
  /-- Sub-channel sizes found: KFC, sub-channel id, CU (R324). -/
  sizes : List (Nat × Nat × Nat)
  /-- KTIME of the last account of use (R261), and of the start of the admission that runs (R257, R269). -/
  useAt : Nat
  admitAt : Nat
  deriving DecidableEq, Repr

/-- The reception on the tuner (spec 12). -/
structure Rx where
  /-- Planned KFC, and the one the tuner is on. -/
  home : Nat
  kfc : Nat
  /-- DAB sub-channel and served packet addresses. -/
  sub : Nat
  addrs : List Nat
  /-- The second wait for lock is running (R275). -/
  second : Bool
  /-- Following has stopped for the rest of the reception (Table 13.6). -/
  stopped : Bool
  deriving DecidableEq, Repr

/-- One entry of the flood baselines (R292): values in 1/256 dB. -/
structure Base where
  kfc : Nat
  samples : List Int
  base : Option Int
  /-- KTIME second of the last measurement. -/
  seen : Nat
  deriving DecidableEq, Repr

/-- The front end's engine (spec 12). -/
structure Fe where
  rx : Option Rx
  /-- Synthesizer values the hardware holds: divider code, N, FRAC, band, charge pump. -/
  syn : List Nat
  /-- A host AF check waiting or running, and a bearer check running (R280). -/
  afHost : Option Nat
  /-- Calibration under way: mask, and whether a mailbox op runs it (R286). -/
  cal : Option (Nat × Bool)
  /-- Calibrations with a good run (R287). -/
  calGood : Nat
  /-- Cal record: die temperature, KTIME second of its end, and whether its age is known (R287, R121). -/
  calRec : Option (Int × Nat)
  /-- HOLD was set while a calibration runs and starts after it (Table 12.8). -/
  holdWait : Bool
  bases : List Base
  /-- Latest LF RSSI in 0.25 dB, its KFC and KTIME second (R293). -/
  lf : Option (Int × Nat × Nat)
  /-- Flood candidate and how often in a row it has come (R294). -/
  cand : Nat
  candN : Nat
  /-- The loss L of the last evaluation, in 1/256 dB, and its KTIME second. -/
  loss : Int
  evalAt : Nat
  /-- Survey values collected in the present occurrence, and the stamp of the first measurement (R295). -/
  survey : List Word
  surveyAt : Nat
  /-- VCO band of each divider code of Table 12.2 as the last good band calibration left it; empty before the first (R273,
  R287). -/
  bands : List Nat
  /-- AON cycle of the tune job's last change of state, or of the start of raw hold. -/
  jobAt : Nat
  /-- Die temperature taken at the start of the last tune job (R289). -/
  jobTemp : Option Int
  /-- The settings of following and decoding as the last VHF tune job took them, by register (R316, R338). -/
  cfg : List (Nat × Word)
  deriving DecidableEq, Repr

/-- A frequency tried and not yet confirmed (R309, R330): its KFC, the KFC left, the cause of the switch, and the RSSI and
EId there. -/
structure Follow where
  kfc : Nat
  home : Nat
  cause : Nat
  rssi : Nat
  eid : Nat
  deriving DecidableEq, Repr

/-- An FM alternative frequency (R307). -/
structure AfEnt where
  code : Nat
  eon : Bool
  regional : Bool
  banned : Bool
  /-- KTIME second at which its ban ends. -/
  banEnd : Nat
  rssi : Option Int
  deriving DecidableEq, Repr

/-- An AF list under construction: announced count, codes beside the count, the pairs after it, KTIME second of the count
code, and whether the next code belongs to a code 250 (R307). -/
structure AfBuild where
  count : Nat
  head : List Nat
  pairs : List (Nat × Nat)
  since : Nat
  skip : Bool
  deriving DecidableEq, Repr

/-- FM reception (spec 13). -/
structure Fm where
  /-- The last 16 blocks, newest first: true uncorrectable (R300). -/
  window : List Bool
  /-- Blocks of the group in progress, in their order, with their status; whether the third carried offset C′ (R301,
  R304). -/
  blocks : List (Nat × Word)
  cprime : Bool
  /-- PI seen last, how often in a row, and the first one confirmed (R303, R306). -/
  pi : Nat
  piN : Nat
  first : Nat
  list : List AfEnt
  building : Option AfBuild
  /-- Candidate awaiting confirmation (R309). -/
  confirm : Option Follow
  /-- Next candidate of the periodic check. -/
  turn : Nat
  recallTried : Bool
  /-- Frequency of the last switch of each watch: owner, watch id, KFC (R311). -/
  recalled : List (Fn × Nat × Nat)
  /-- Previous clock-time candidate of the reception: named time and its stamp (R315). -/
  ct : Option (Int × Nat)
  /-- A gap fell within the group in progress (R305). -/
  gap : Bool
  deriving DecidableEq, Repr

/-- A DAB candidate frequency (R329). -/
structure DabCand where
  freq : Nat
  oe : Bool
  linked : Bool
  banned : Bool
  /-- KTIME second at which its ban ends. -/
  banEnd : Nat
  eid : Nat
  rssi : Option Int
  deriving DecidableEq, Repr

/-- A sub-channel of FIG 0/1: id, start, size, whether the long form, option, level, UEP index. -/
structure SubCh where
  id : Nat
  start : Nat
  size : Nat
  long : Bool
  option : Nat
  level : Nat
  uep : Nat
  deriving DecidableEq, Repr

/-- A multiplex configuration: FIG 0/1 and FIG 0/3 entries (SCId, sub-channel, packet address). -/
structure Mux where
  subs : List SubCh
  comps : List (Nat × Nat × Nat)
  deriving DecidableEq, Repr

/-- DAB reception (spec 14). -/
structure Dab where
  /-- FIBs of the last 20 frames, newest first: true good (R330). -/
  fibs : List Bool
  mux : Mux
  /-- Next configuration and the CIF count it applies at (R322). -/
  next : Option (Nat × Mux)
  /-- Services of FIG 0/2: SId and SCIds in order (R327). -/
  services : List (Nat × List Nat)
  /-- Sub-channels that FIG 0/2 shows in stream mode. -/
  streams : List Nat
  /-- FEC schemes of FIG 0/14. -/
  fec : List (Nat × Nat)
  /-- SIds hard-linked to the followed one (FIG 0/6), ensembles by SId (FIG 0/24), and frequencies by EId (FIG 0/21). -/
  links : List Nat
  others : List (Nat × List Nat)
  freqs : List (Nat × Nat)
  resolved : Bool
  /-- SCIdS of the followed component, used on another ensemble (R327). -/
  scids : Nat
  cands : List DabCand
  confirm : Option Follow
  turn : Nat
  recallTried : Bool
  recalled : List (Fn × Nat × Nat)
  /-- FIGs delivered in this reception for ONCHANGE, newest first: type, extension, body (R323). -/
  hist : List (Nat × Nat × List (BitVec 8))
  time : Option (Int × Nat)
  /-- Sub-channel loss already reported. -/
  lost : Bool
  /-- A hard-linked SId that a switch made the followed one (R331). -/
  linkSid : Option Nat
  /-- AON cycle of the synchronisation, or of the last frequency measurement (R335). -/
  syncAt : Nat
  deriving DecidableEq, Repr

end Sys2Proof.Machine
end

