-- ==== Sys2Proof/Machine/Types2.lean ====
section
/-! DEFINITION. The engines' own state, continued: LF time signals, the timebase, datacast and the Hoard, audio ports,
capture, twin operation and health (spec 15 to 21). -/

namespace Sys2Proof.Machine

/-- One second of an LF frame: its class (0 to 3, 4 unclassified, 5 no marker) and the on-time edge (R344). -/
structure LfSec where
  cls : Nat
  edge : Nat
  deriving DecidableEq, Repr

/-- LF reception (spec 15). -/
structure Lf where
  /-- The four template slots, sixteen words each (R343). -/
  slots : List (List Word)
  /-- Slot and template copy the reception decodes with (R341). -/
  copy : Option (Nat × List Word)
  /-- Markers in a row with edges 1 s ± 2 ms apart, and the last edge (R344). -/
  row : Nat
  lastEdge : Option Nat
  /-- Seconds of the frame in progress, oldest first. -/
  secs : List LfSec
  /-- The frame in progress was disturbed (Table 15.2). -/
  spoiled : Bool
  /-- Candidate of the previous good frame: named UTC second and the instant (R346). -/
  prev : Option (Int × Nat)
  /-- AON cycle at which the carrier set, or of the last measurement (R348). -/
  carAt : Nat
  deriving DecidableEq, Repr

/-- A time candidate on its way to the timebase (R356). -/
structure Cand where
  /-- 1 host, 2 RDS, 3 LF, 4 DAB, 5 twin. -/
  src : Nat
  code : Nat
  /-- KTIME it names, and KTIME held, at its instant. -/
  named : Int
  held : Nat
  /-- The function whose TIME_SET gave it, and FORCE (R359). -/
  fn : Option Fn
  force : Bool
  /-- AON cycle of its arrival. -/
  aon : Nat
  deriving DecidableEq, Repr

/-- The timebase (spec 16). -/
structure TimeEng where
  /-- Remainder of the fractional accumulator of R352. -/
  acc : Nat
  /-- Source of the last candidate applied; 0 before the first. -/
  src : Nat
  /-- Error bound less the slew remaining, in units of 1/32 768 000 000 µs; `none` before any candidate (R355). -/
  bound : Option Nat
  /-- Growth rate in 0.001 ppm (Table 16.1). -/
  rate : Nat
  /-- Correction still to absorb, in thousandths of 2⁻²⁴ s (R357). -/
  slew : Int
  /-- Lowest code shown since `TIME_LOSS` last judged a rise (R370). -/
  prevCode : Nat
  /-- KTIME second at which TQ last left code 31 (R401). -/
  left31 : Nat
  /-- UTC offset (R353). -/
  leap : Int
  cands : List Cand
  deferred : Option Cand
  /-- LOSS already raised in this excursion: cause 0x01, cause 0x02 (R370). -/
  loss1 : Bool
  loss2 : Bool
  /-- XO error measurements of the current reception: 0.001 ppm, SD, KTIME second (R360). -/
  xoMeas : List (Int × Nat × Nat)
  /-- Data fed to the XO model and the X32 model: temperature in 0.125 °C, error, KTIME second (R360, R361). -/
  xoFed : List (Int × Int × Nat)
  x32Fed : List (Int × Int × Nat)
  /-- X32 error of the last accepted pair (R362). -/
  lastPair : Option Int
  /-- Records of a0: KTIME day and value (R363). -/
  a0s : List (Nat × Int)
  /-- AON temperature in 0.125 °C. -/
  temp : Int
  /-- XO did not qualify at its last start (R84, R373). -/
  xoBad : Bool
  /-- The first pulse instant after a step is to be skipped (R368). -/
  pulseSkip : Bool
  /-- AON cycle at which the last TIME_PULSE ends (R368). -/
  pulseEnd : Nat
  deriving DecidableEq, Repr

/-- One stored segment: its index, its 68 payload bytes and its flash sector; none while it waits in the SRAM cache
(R398). -/
structure Seg where
  i : Nat
  data : List (BitVec 8)
  sector : Option Nat
  deriving DecidableEq, Repr

/-- One block of an object under collection (R380). -/
structure Blk where
  no : Nat
  k : Nat
  n : Nat
  segs : List Seg
  complete : Bool
  /-- Number of the reception end from which a failed decode is tried again; 0 none (R382). -/
  retryAt : Nat
  deriving DecidableEq, Repr

/-- An object of the Hoard. State codes are those of Table 17.8. -/
structure Obj where
  stream : Nat
  id : Nat
  type : Nat
  last : Nat
  blks : List Blk
  state : Nat
  /-- KTIME second of the last growth, or of acceptance once held (R400, R401). -/
  grown : Nat
  /-- Functions to which it was delivered and that have not released it (R401). -/
  claims : List Fn
  delivered : Bool
  /-- Listening functions that collected it, and the function last charged for it (R394, R400). -/
  heard : List Fn
  payer : Fn
  /-- Object store: flash offset and sectors (R399). -/
  store : Option (Nat × Nat)
  /-- Expiry once accepted. -/
  expiry : Nat
  /-- Deletion waits for a staging to end (R401). -/
  dying : Bool
  deriving DecidableEq, Repr

/-- A van window (R390). -/
structure Van where
  start : Nat
  period : Nat
  count : Nat
  minutes : Nat
  deriving DecidableEq, Repr

/-- Counts of one stream in the present reception, for EDF_SEGMENT_STAT (R397). -/
structure SegStat where
  stream : Nat
  good : Nat
  bad : Nat
  new : Nat
  dup : Nat
  refused : Nat
  blocks : Nat
  accepted : Nat
  rejected : Nat
  deriving DecidableEq, Repr

/-- A reception that has ended with its EDF_STREAM watches and counts, for EDF_SEGMENT_STAT. -/
structure RxEnd where
  stamp : Nat
  carried : List (Fn × Nat)
  stats : List SegStat
  deriving DecidableEq, Repr

/-- Datacast and the Hoard (spec 17). -/
structure Edf where
  objs : List Obj
  /-- Done list: stream, object, KTIME second of entry; oldest first (R401). -/
  done : List (Nat × Nat × Nat)
  /-- Segment under assembly on RDS: next position, bytes so far with erasures, KTIME second of its start (R377). -/
  asm : Option (Nat × List (Option (BitVec 8)) × Nat)
  /-- COMMAND history per signer: H and the window record, bit n for serial H − n (R389). -/
  hist : List (Option (Nat × Nat))
  vans : List Van
  /-- Issuer serial of the schedule in force (R390). -/
  vanSerial : Option Nat
  stats : List SegStat
  /-- EDF_STREAM watches of the present reception, and receptions whose records are still due. -/
  carried : List (Fn × Nat)
  ended : List RxEnd
  /-- Receptions ended. -/
  rxEnds : Nat
  /-- Device serial in OTP (R388). -/
  serialNo : Nat
  /-- Size of the flash fitted, in bytes (R17). -/
  flashSize : Nat
  /-- Erase counts by 4 KiB sector of the Hoard area (R402), and the sector being filled with its records. -/
  wear : List (Nat × Nat)
  fill : Option (Nat × Nat)
  deriving DecidableEq, Repr

/-- A transmitter or receiver of an audio port beside its registers (R416, R417). -/
structure PortDir where
  /-- Frame number inside the fade or ramp under way. -/
  j : Nat
  /-- Frames silent, or not stored, since the fade ended. -/
  idle : Nat
  deriving DecidableEq, Repr

/-- One serial port: AP0, AP1 or `BPH_OUT` (R407, R428). -/
structure Port where
  tx : PortDir
  rx : PortDir
  /-- Running; for the AP ports `APx_STAT.RUN` shows it. -/
  run : Bool
  /-- Armed while a capture ran (Table 18.3, STARTED cause 0x02). -/
  late : Bool
  /-- Stopped by `VDDIO` or for want of a clock: no restart until the next capture (Table 18.4). -/
  barred : Bool
  /-- The slot words of the last frame driven. -/
  out : List Int
  deriving DecidableEq, Repr

/-- The three serial ports. -/
structure Ports where
  p0 : Port
  p1 : Port
  bph : Port
  deriving DecidableEq, Repr

/-- The biphase receiver and transmitter (spec 19). -/
structure Bph where
  /-- Word of subframe A of the frame in progress, and its flags (parity failed, invalid). -/
  half : Option (Int × Bool × Bool)
  /-- Instant of the preamble of that frame. -/
  halfAt : Nat
  /-- Channel-status and user bits of subframe A of the block in progress, oldest first. -/
  cs : List Bool
  user : List Bool
  /-- Instant of the preamble of frame 0 of the block in progress. -/
  blockAt : Nat
  /-- `BPH_RATE_PPM` and class at the last RATE_CHANGE; none before the first measurement after lock. -/
  rateRef : Option (Int × Nat)
  /-- Instant at which lock was lost inside a capture, or its start instant before the first lock. -/
  lostAt : Option Nat
  /-- Blocks sent since the transmitter started, and frames of the present block. -/
  blocks : Nat
  frame : Nat
  /-- Stamp message of the present block, and the user and channel-status bits of the last frame sent (R428, R429). -/
  msg : List (BitVec 8)
  bits : Bool × Bool
  deriving DecidableEq, Repr

/-- Running sums of one stored channel for the leak statistics (R438). -/
structure Chan where
  n : Nat
  s1 : Int
  s2 : Int
  s3 : Int
  s4 : Int
  peak : Nat
  deriving DecidableEq, Repr

/-- The snippet of a capture (R439). -/
structure Snip where
  /-- Samples gathered. -/
  got : Nat
  /-- Frame index, stamp and TQ of the first sample of each record of at most 512 samples. -/
  marks : List (Nat × Nat × Nat)
  /-- The window met a discontinuity or the capture end. -/
  trunc : Bool
  closed : Bool
  deriving DecidableEq, Repr

/-- A block of the capture buffer: start and length of the bytes in use, skipped bytes before it counted in, and where
its header stands. -/
structure BlkUse where
  start : Nat
  len : Nat
  pos : Nat
  deriving DecidableEq, Repr

/-- A block under assembly (Table 19.4). -/
structure BlkNew where
  time : Nat
  tq : Nat
  flags : Nat
  frames : Nat
  index : Nat
  data : List (BitVec 8)
  deriving DecidableEq, Repr

/-- A capture waiting or running (R431, R433). -/
structure Job where
  /-- Functions that own it, and whether CAPTURE_NOW asked for it. -/
  owners : List Fn
  now : Bool
  /-- Bytes 26, 27, 30 and 31 of Table 19.3. -/
  b26 : Nat
  b27 : Nat
  b30 : Nat
  b31 : Nat
  /-- Sensor current in 10 µA. -/
  sensor : Nat
  /-- Start instant and duration, in 2⁻²⁴ s. -/
  start : Nat
  dur : Nat
  /-- Capture id, once it has begun (Table 19.5). -/
  id : Nat
  deriving DecidableEq, Repr

/-- A capture that has ended: its channel sums, its snippet, and the KTIME, TQ and frame index of its end (Table 19.6). -/
structure Past where
  job : Job
  acc : List Chan
  snip : Option Snip
  at_ : Nat
  tq : Nat
  index : Nat
  deriving DecidableEq, Repr

/-- The capture engine (spec 19). -/
structure Capt where
  /-- Captures that wait for their start. -/
  due : List Job
  job : Option Job
  /-- The last capture, ended, whose statistics, snippet or spill is still to come. -/
  past : Option Past
  /-- STATS and SPILL still due for `past`. -/
  statsDue : Bool
  spillDue : Bool
  /-- Input frames since the first stored one; none before it. -/
  input : Option Nat
  new : Option BlkNew
  /-- Blocks in the buffer, oldest first. -/
  used : List BlkUse
  /-- Blocks written by this capture. -/
  count : Nat
  /-- The next block follows a discontinuity (DISC). -/
  disc : Bool
  /-- A discontinuity under way: stamp and TQ of the first frame not stored. -/
  gap : Option (Nat × Nat)
  acc : List Chan
  snip : Option Snip
  /-- Receiver state of `BPH_IN` (R436). -/
  rx : PortDir
  /-- Capture store of each function: flash offset and KiB (R440). -/
  stores : List (Fn × Nat × Nat)
  deriving DecidableEq, Repr

/-- A checkpoint transfer in progress (R452). -/
structure Xfer where
  data : List (BitVec 8)
  seq : Nat
  /-- 0: WAKE still to be sent; n + 1: chunk n. 13: HANDOVER. -/
  stage : Nat
  tries : Nat
  swap : Bool
  deriving DecidableEq, Repr

/-- Twin operation (spec 20). -/
structure Twin where
  /-- KTIME of the latest pulse edges seen, newest first (R450). -/
  edges : List Nat
  /-- AON cycle of the last pulse, or of the start of the watch of R447. -/
  pulseAt : Nat
  /-- The undecided watch of R447 runs. -/
  watching : Bool
  /-- `TWIN_HB` is stuck low (Table 20.1). -/
  stuck : Bool
  /-- AON cycle of the own claim, of the start of ACTIVE, and of the partner's last claim pulse. -/
  claimAt : Option Nat
  activeAt : Option Nat
  partnerClaim : Option Nat
  /-- Cause of a claim that waits for READY (Table 20.6). -/
  claimDue : Option Nat
  /-- The next checkpoint restarts the sequence (R452). -/
  restart : Bool
  xfer : Option Xfer
  /-- Checkpoints in a row whose WAKE was NACKed. -/
  nacks : Nat
  /-- Partial set: sequence, chunks held, AON cycle of the first. -/
  part : Option (Nat × List (Nat × List (BitVec 8)) × Nat)
  /-- Committed checkpoint in Burrow, and the copy in CONFIG. -/
  held : Option (List (BitVec 8))
  copy : Option (List (BitVec 8))
  /-- Any sequence is newer (after power-on reset). -/
  anyNewer : Bool
  /-- HANDOVER sent: AON cycle; a claim with cause SWAP is awaited (R460). -/
  swapAt : Option Nat
  /-- Second and TQ of the last own heartbeat pulse. -/
  pulseSec : Nat
  pulseTq : Nat
  /-- Day of the last self-test (R461). -/
  stestDay : Option Nat
  /-- Pulse second of the last checkpoint built, and a checkpoint asked for while a transfer runs. -/
  sentSec : Nat
  ckptDue : Bool
  /-- Bytes 0 to m of the last twin frame sent; a WAKE frame has none (Table 20.2). -/
  frameOut : List (BitVec 8)
  /-- The standby self-test runs (R461). -/
  testing : Bool
  deriving DecidableEq, Repr

/-- What one health monitor keeps (R472, R473). -/
structure Mon where
  /-- Samples of the present span. -/
  span : List ℚ
  /-- Monthly points with their span number, oldest first. -/
  points : List (Nat × ℚ)
  /-- Last metric as its record gives it, and months (0 to 0xFF). -/
  metric : Int
  months : Nat
  /-- The immediate band at the last sample. -/
  band : Bool
  deriving DecidableEq, Repr

/-- Health (spec 21). Day-stamped lists hold KTIME day and count. -/
structure Hlt where
  mons : List Mon
  /-- Lowest `VBAT_MEAS` of the day while the charger conducted above 1 mA. -/
  lowVbat : Option Nat
  /-- BAT_SAG sets, reservoir faults, `XO_FAIL` sets, corrected and uncorrectable Burrow errors, flash errors, and
  faults of monitor 0x0A, by day. -/
  sags : List (Nat × Nat)
  resFaults : List (Nat × Nat)
  xoFails : List (Nat × Nat)
  ecc : List (Nat × Nat)
  eccBad : List (Nat × Nat)
  flashErr : List (Nat × Nat)
  faults : List (Nat × Nat)
  /-- PARTNER is in its immediate band until Burrow is lost. -/
  partner : Bool
  /-- KTIME second since which PARTNER_SILENT, and HB_STUCK, have stood. -/
  silentAt : Option Nat
  stuckAt : Option Nat
  /-- Self-test results: own and partner, previous mask, and SELFTEST's band. -/
  ownPrev : Option Nat
  partnerPrev : Option Nat
  selfBand : Bool
  /-- Last day sampled, and a sample due at the end of an activity (R471). -/
  day : Option Nat
  due : Bool
  /-- Q_used of the last 30 samples by day (R474). -/
  used : List (Nat × Nat)
  /-- Number of the present 30-day span, counted from the day of `HLT_SVC`. -/
  spanNo : Nat
  /-- Marten's heartbeat check is armed (R466). -/
  hbArmed : Bool
  /-- AON cycles of the heartbeat expiries of the last 60 min (R467). -/
  storms : List Nat
  /-- Shutdown mark in CONFIG (R469). -/
  shutMark : Bool
  /-- Reset causes still to be reported by RESET records at READY, oldest first (R470). -/
  resetDue : List Nat
  /-- `HLT_RTIME` waits for good time. -/
  rtimeDue : Bool
  /-- CONFIG copies: `HLT_RCAUSE` and the three counters (R469, R521). -/
  flash : Nat × Nat × Nat × Nat
  /-- REPLACE is raised again at READY (R476). -/
  raiseDue : Bool
  /-- Check 7 of the SELFTEST op that runs passed at its start (R481). -/
  volts : Bool
  deriving DecidableEq, Repr

end Sys2Proof.Machine
end

