-- ==== Sys2Proof/Machine/State.lean ====
section
/-! DEFINITION. The machine's state, plain data: every register, buffer, engine and store the spec gives the block, and
the queue of commands that wait. -/

namespace Sys2Proof.Machine

/-- Reasons a step stops with a fault. -/
inductive Fault where
  /-- Raised by no command: every command of this block ends in a next state or is refused by name (safe). -/
  | never
  deriving DecidableEq, Repr

/-- Reasons a step refuses. -/
inductive Refusal where
  /-- Raised by an arm of `exec` whose command has no meaning yet (safe: nothing can be proved of it). -/
  | notModelled (mnemonic : String)
  deriving DecidableEq, Repr

/-- The whole block. -/
structure State where
  /-- The ordering code: true KB4816-FL, false KB4816-DA (R3). -/
  variantFL : Bool
  /-- Every host-visible register, keyed as in `Regs`; an unlisted one holds its reset word. -/
  regs : List (Nat × Word)
  /-- Event counters, key function × 32 + source (R80). -/
  cnts : List (Nat × Word)
  /-- Snapshot latches, key as `latchKey` gives (R76). -/
  latches : List (Nat × Word)
  /-- Device memory by memory-port address: buffers, rings, Burrow user areas, image window, flash (Table 10.6). -/
  mem : List Host.Cell
  /-- KTIME, in units of 2⁻²⁴ s (R352). -/
  ktime : Nat
  /-- AON cycles since power-on reset. -/
  aon : Nat
  pins : Pins
  pwr : Pwr
  mode : ModeEng
  boot : Boot
  flint : Flint
  img : Img
  spi : Spi
  tw : Tw
  fns : PerFn FnEng
  plans : PerFn PlanEng
  sched : Sched
  fe : Fe
  fm : Fm
  dab : Dab
  lf : Lf
  time : TimeEng
  edf : Edf
  ap : Ports
  bph : Bph
  capt : Capt
  twin : Twin
  hlt : Hlt
  /-- STATUS16 and the words the last host frame returned (R171, R176), or the bytes of the last attention attempt (R203). -/
  hostOut : List Word
  /-- The model's own counter of open values used so far (log entry 10). -/
  freeCtr : Nat
  /-- The commands that wait, first in, first out. -/
  pending : List Instr
  deriving DecidableEq, Repr

/-- The same value for every function. -/
def PerFn.all {α : Type} (a : α) : PerFn α := ⟨a, a, a, a⟩

/-- Pins at power-on reset: the internal reset is asserted, the latched straps read 0, `VDDIO` is taken as present
(log entry 14). -/
def Pins.start : Pins := ⟨true, false, false, false, false, true, false, 0, 0, 0⟩

/-- The power engine at power-on reset (R61). -/
def Pwr.start : Pwr :=
  { setPoint := 0, sinceRise := 0, zeroHold := 0, sagSet := false, ledgerAcc := 0, ledgerFlash := none,
    initFlash := (none, none), autoDue := false, pendAuto := false, probeV := 0, probeAt := 0, throt := [], cSeen := false,
    leakSeen := false, part := none, partDone := none, preFor := none }

/-- The mode engine at power-on reset. -/
def ModeEng.start : ModeEng :=
  { ready := false, resting := false, entering := false, waking := none, delayed := none, delayedAt := 0, restNow := false,
    hostAccess := false, collidedWait := false, retries := 0, heldReason := none, lowTaken := false, xoTry := false,
    driving := none, mirror := false, xoLoad := 0x10, x32Load := 0x14 }

/-- No boot under way. -/
def Boot.start : Boot :=
  { hedgehog := false, startWait := false, cause := 0, order := [], attempt := none, blocks := [], sig := none,
    earlyOff := false, marten := false, bundleDone := false, pikaVerified := false, pikaGo := false, cfgSaved := none,
    cfgDirty := false, lastSlot := 0, eventDue := false, pref := 0, loaded := false, identDone := false, reload := false, cfg := 1,
    deep := false, savedBy := [], table := [] }

/-- Flint as manufactured: the identity slot blank, four issuer key hashes of zeros, no group key (log entry 14). -/
def Flint.start : Flint :=
  { secretOk := true, identBlank := true, identPub := [], groups := [none, none, none, none], keys := [[], [], [], []],
    hashes := List.replicate 4 (List.replicate 32 0),
    tagKey := 0, restCtr := 0, tag := none, queue := [] }

/-- No staging, no window. -/
def Img.start : Img :=
  { prefSlot := 0, prefOnce := false, prefReturn := 0, fuse := none, target := 0, srcObj := (0, 0), total := 0, next := 0,
    staging := false, auto := false, held := [], journal := false, winLen := 0, winTarget := 0, winPos := 0, srcWin := false }

/-- No message outstanding. -/
def Attn.start : Attn := ⟨false, 0, 0, 0, 0, false, false, false⟩

/-- Empty queue, no op, pointers at zero. -/
def FnEng.start : FnEng := ⟨[], 0, 0, [], none, 0, 0, Attn.start, 0, 0, 0, 0⟩

/-- The two-wire port after reset: the address configuration in force is the reset one (R191). -/
def Tw.start : Tw := ⟨[], false, none, false, false, none, false, 0, false, none, 0⟩

/-- No draft, plan or listening. -/
def PlanEng.start : PlanEng := ⟨[], [], none⟩

/-- An empty timeline. -/
def Sched.start : Sched :=
  { queue := [], timeline := [], cycle := 0, running := [], lastC := 0, lastLeak := 0, readmit := false, dirty := false,
    snapshot := [], snapRegs := [], devE := 0, sizes := [], useAt := 0, admitAt := 0 }

/-- The front end off. -/
def Fe.start : Fe :=
  { rx := none, syn := [], afHost := none, cal := none, calGood := 0, calRec := none, holdWait := false,
    bases := [], lf := none, cand := 0, candN := 0, loss := 0, evalAt := 0, survey := [],
    surveyAt := 0, bands := [], jobAt := 0, jobTemp := none, cfg := [] }

/-- No FM reception. -/
def Fm.start : Fm := ⟨[], [], false, 0, 0, 0, [], none, none, 0, false, [], none, false⟩

/-- No DAB reception. -/
def Dab.start : Dab :=
  { fibs := [], mux := ⟨[], []⟩, next := none, services := [], streams := [], fec := [], links := [], others := [],
    freqs := [], resolved := false, scids := 0, cands := [], confirm := none, turn := 0, recallTried := false,
    recalled := [], hist := [], time := none, lost := false, linkSid := none, syncAt := 0 }

/-- No LF reception, empty templates. -/
def Lf.start : Lf :=
  { slots := [], copy := none, row := 0, lastEdge := none, secs := [], spoiled := false, prev := none, carAt := 0 }

/-- The timebase at power-on reset: no bound (TQ code 31), no slew, prior models (R352, R360, R361). -/
def TimeEng.start : TimeEng :=
  { acc := 0, src := 0, bound := none, rate := 0, slew := 0, prevCode := 31, left31 := 0, leap := 0, cands := [], deferred := none,
    loss1 := false, loss2 := false, xoMeas := [], xoFed := [], x32Fed := [], lastPair := none, a0s := [], temp := 200, xoBad := false,
    pulseSkip := false, pulseEnd := 0 }

/-- An empty Hoard on a flash of 4 MiB (log entry 15). -/
def Edf.start : Edf :=
  { objs := [], done := [], asm := none, hist := [none, none, none, none], vans := [], vanSerial := none, stats := [],
    carried := [], ended := [], rxEnds := 0, serialNo := 0, flashSize := 0x400000, wear := [], fill := none }

/-- A stopped port. -/
def Port.start : Port := ⟨⟨0, 0⟩, ⟨0, 0⟩, false, false, false, []⟩

/-- Every port stopped. -/
def Ports.start : Ports := ⟨Port.start, Port.start, Port.start⟩

/-- The biphase receiver unlocked. -/
def Bph.start : Bph := ⟨none, 0, [], [], 0, none, none, 0, 0, [], (false, false)⟩

/-- No capture. -/
def Capt.start : Capt :=
  { due := [], job := none, past := none, statsDue := false, spillDue := false, input := none, new := none, used := [],
    count := 0, disc := false, gap := none, acc := [], snip := none, rx := ⟨0, 0⟩, stores := [] }

/-- No twin activity; the first checkpoint sent restarts the sequence, and any received sequence is newer (R452, R454). -/
def Twin.start : Twin :=
  { edges := [], pulseAt := 0, watching := false, stuck := false, claimAt := none, activeAt := none, partnerClaim := none,
    claimDue := none, restart := true, xfer := none, nacks := 0, part := none, held := none, copy := none,
    anyNewer := true, swapAt := none, pulseSec := 0, pulseTq := 0, stestDay := none,
    sentSec := 0, ckptDue := false, frameOut := [], testing := false }

/-- A monitor without data: unknown (R472). -/
def Mon.start : Mon := ⟨[], [], 0, 0xFF, false⟩

/-- The monitors as manufactured. -/
def Hlt.start : Hlt :=
  { mons := [Mon.start, Mon.start, Mon.start, Mon.start, Mon.start, Mon.start, Mon.start, Mon.start, Mon.start, Mon.start,
      Mon.start, Mon.start, Mon.start],
    lowVbat := none, sags := [], resFaults := [], xoFails := [], ecc := [], eccBad := [], flashErr := [], faults := [],
    partner := false, silentAt := none, stuckAt := none, ownPrev := none, partnerPrev := none, selfBand := false,
    day := none, due := false, used := [], spanNo := 0, hbArmed := false, storms := [], shutMark := false,
    resetDue := [], rtimeDue := false, flash := (0, 0, 0, 0), raiseDue := false, volts := false }

/-- The block in power-on reset: every register at its reset word, every engine idle, memory unwritten, no command
waiting. -/
def State.reset : State :=
  { variantFL := false, regs := [], cnts := [], latches := [], mem := [], ktime := 0, aon := 0, pins := Pins.start,
    pwr := Pwr.start, mode := ModeEng.start, boot := Boot.start, flint := Flint.start, img := Img.start, spi := ⟨none, false⟩, tw := Tw.start,
    fns := PerFn.all FnEng.start, plans := PerFn.all PlanEng.start, sched := Sched.start, fe := Fe.start, fm := Fm.start,
    dab := Dab.start, lf := Lf.start, time := TimeEng.start, edf := Edf.start, ap := Ports.start, bph := Bph.start,
    capt := Capt.start, twin := Twin.start, hlt := Hlt.start, hostOut := [], freeCtr := 0, pending := [] }

end Sys2Proof.Machine
end

