-- ==== Sys2Proof/Machine/Ops.lean ====
section
/-! DEFINITION. The named operations over registers, memory, interrupts, queues, mailboxes and modes that every meaning
uses. -/

namespace Sys2Proof.Machine

open R

/-! ### Registers -/

/-- The word of the register with key `k`. -/
def State.reg (s : State) (k : Nat) : Word := Sparse.get resetWord s.regs k

/-- Replaces the word of the register with key `k`. -/
def State.setReg (s : State) (k : Nat) (w : Word) : State := { s with regs := Sparse.put resetWord s.regs k w }

/-- The value of a field. -/
def State.get (s : State) (x : Fld) : Nat := ((s.reg x.key).toNat / 2 ^ x.lo) % x.size

/-- A one-bit field read as a Boolean. -/
def State.bit (s : State) (x : Fld) : Bool := s.get x == 1

/-- Writes `v`, reduced to the field's width, into a field and leaves the register's other bits. -/
def State.put (s : State) (x : Fld) (v : Nat) : State :=
  let old := (s.reg x.key).toNat
  s.setReg x.key (BitVec.ofNat 16 (old - ((old / 2 ^ x.lo) % x.size) * 2 ^ x.lo + (v % x.size) * 2 ^ x.lo))

/-- Writes a Boolean into a one-bit field. -/
def State.putBit (s : State) (x : Fld) (b : Bool) : State := s.put x (if b then 1 else 0)

/-- Writes `v`, held at the field's largest value when it is larger. -/
def State.putSat (s : State) (x : Fld) (v : Nat) : State := s.put x (min v (x.size - 1))

/-- Adds one to a counter that saturates. -/
def State.inc (s : State) (x : Fld) : State := s.putSat x (s.get x + 1)

/-- Adds `n` to a counter that saturates. -/
def State.addSat (s : State) (x : Fld) (n : Nat) : State := s.putSat x (s.get x + n)

/-- Adds one to a counter that wraps. -/
def State.incWrap (s : State) (x : Fld) : State := s.put x (s.get x + 1)

/-- A 32-bit value held low word first in two neighbouring registers. -/
def State.get32 (s : State) (low : Fld) : Nat :=
  s.get low + 0x10000 * s.get { low with key := low.key + 1 }

/-- Writes a 32-bit value, low word first. -/
def State.put32 (s : State) (low : Fld) (v : Nat) : State :=
  (s.put low (v % 0x10000)).put { low with key := low.key + 1 } (v / 0x10000 % 0x10000)

/-- Adds `n` to a 32-bit counter that wraps. -/
def State.add32 (s : State) (low : Fld) (n : Nat) : State := s.put32 low ((s.get32 low + n) % 0x100000000)

/-- A signed reading of a 16-bit word. -/
def signed16 (n : Nat) : Int := if n % 0x10000 < 0x8000 then (n % 0x10000 : Nat) else ((n % 0x10000 : Nat) : Int) - 0x10000

/-- The 16-bit two's complement code of an integer. -/
def code16 (i : Int) : Nat := (i % 0x10000).toNat

/-- Every register whose key meets `p` takes its reset value. -/
def State.resetRegs (s : State) (p : Nat → Bool) : State := { s with regs := Sparse.drop p s.regs }

/-- The page of a page register's key; 0 for the common part. -/
def keyPage (k : Nat) : Nat := if k < 0x10000 then k / 0x100 else 0

/-- The AON-stored registers of Table 4.2. -/
def isAon (k : Nat) : Bool :=
  if k < 0x10000 then keyPage k == 1 || keyPage k == 2 || keyPage k == 3 || keyPage k == 0x11 || keyPage k == 0x17
  else k % 0x10000 ≤ 0x16 || k % 0x10000 == 0x7F

/-- A fresh open word and the state with the counter advanced. -/
def State.fresh (s : State) : Word × State := (Config.freeWord s.freeCtr, { s with freeCtr := s.freeCtr + 1 })

/-- A natural number formed by `Config.round`; negative values give 0. -/
def roundNat (q : ℚ) : Nat := (Config.round q).toNat

/-! ### Memory -/

/-- What an address that nothing has written reads as: erased flash reads 0xFF, SRAM 0x00 (log entry 13). -/
def memDefault (a : Nat) : Byte := if 0x800000 ≤ a then 0xFF else 0

/-- The byte at a memory-port address. -/
def State.byte (s : State) (a : Nat) : Byte := Sparse.get memDefault s.mem a

/-- Writes one byte. -/
def State.setByte (s : State) (a : Nat) (b : Byte) : State := { s with mem := Sparse.put memDefault s.mem a b }

/-- Writes bytes at rising addresses. -/
def State.setBytes (s : State) (a : Nat) : List Byte → State
  | [] => s
  | b :: l => (s.setByte a b).setBytes (a + 1) l

/-- `n` bytes from an address upward. -/
def State.bytes (s : State) (a : Nat) : Nat → List Byte
  | 0 => []
  | n + 1 => s.byte a :: s.bytes (a + 1) n

/-- A little-endian number of `n` bytes (Table 0.4). -/
def State.le (s : State) (a : Nat) : Nat → Nat
  | 0 => 0
  | n + 1 => (s.byte a).toNat + 0x100 * s.le (a + 1) n

/-- Every byte whose address meets `p` reads as unwritten again. -/
def State.dropMem (s : State) (p : Nat → Bool) : State := { s with mem := Sparse.drop p s.mem }

/-- Memory-port address of a flash byte offset (R238). -/
def flashAddr (off : Nat) : Nat := 0x800000 + off

/-- The most significant byte first list of a word list. -/
def bytesOfWords (l : List Word) : List Byte := l.flatMap (fun w => [w.extractLsb' 8 8, w.extractLsb' 0 8])

/-- Words from bytes, most significant byte first; a last odd byte is padded with 0x00. -/
def wordsOfBytes : List Byte → List Word
  | [] => []
  | [a] => [(a ++ (0 : Byte) : Word)]
  | a :: b :: l => (a ++ b : Word) :: wordsOfBytes l

/-! ### Functions and their engines -/

/-- The engine state of function `f`. -/
def State.eng (s : State) (f : Fn) : FnEng := s.fns.get f

/-- Replaces the engine state of function `f`. -/
def State.setEng (s : State) (f : Fn) (e : FnEng) : State := { s with fns := s.fns.set f e }

/-- A common-part field of function `f`. -/
def State.fget (s : State) (f : Fn) (x : Fld) : Nat := s.get (x.on f.toNat)

/-- Writes a common-part field of function `f`. -/
def State.fput (s : State) (f : Fn) (x : Fld) (v : Nat) : State := s.put (x.on f.toNat) v

/-- The four functions in order. -/
def allFns : List Fn := [.f0, .f1, .f2, .f3]

/-- The tenants. -/
def tenants : List Fn := [.f1, .f2, .f3]

/-- The grant of function `f` for a page: 0 none, 1 read, 2 read-write; F0 reaches every page (R225). -/
def State.grant (s : State) (f : Fn) (page : Nat) : Nat :=
  match f with
  | .f0 => 2
  | _ =>
    if 1 ≤ page ∧ page ≤ 0x18 then
      (s.get (PART_GRANT.w (3 * (f.toNat - 1) + (page - 1) / 8)) / 4 ^ ((page - 1) % 8)) % 4
    else 0

/-- `FN_ERR` of a function takes a code (R229). -/
def State.setErr (s : State) (f : Fn) (code : Nat) : State := s.fput f FN_ERR.CODE code

/-- The codes of Table 10.3. -/
def eGRANT : Nat := 1
def eBADARG : Nat := 2
def eBUSY : Nat := 3
def eTIMEOUT : Nat := 4
def eLOCKED : Nat := 5
def eMODE : Nat := 6
def eDUP : Nat := 7
def eNODSP : Nat := 8
def eRES : Nat := 9
def eCRC : Nat := 10
def eFRAMING : Nat := 11
def eQUOTA : Nat := 12
def eNRDY : Nat := 13

/-! ### Interrupts (R80, R204, R226, R227) -/

/-- The event counter of a source in a function. -/
def State.cnt (s : State) (f : Fn) (src : Nat) : Nat := (Sparse.get (fun _ => (0 : Word)) s.cnts (f.toNat * 32 + src)).toNat

/-- Counts one set of a source, wrapping (R80). -/
def State.count (s : State) (f : Fn) (src : Nat) : State :=
  { s with cnts := Sparse.put (fun _ => (0 : Word)) s.cnts (f.toNat * 32 + src) (BitVec.ofNat 16 (s.cnt f src + 1)) }

/-- The `INT_ROUTE` value of a bit of `INT_STAT0` (source below 16) or `INT_STAT1`. -/
def State.routeOf (s : State) (f : Fn) (src : Nat) : Nat :=
  if src < 8 then s.fget f INT_ROUTE.S0L else if src < 16 then s.fget f INT_ROUTE.S0H
  else if src < 24 then s.fget f INT_ROUTE.S1L else s.fget f INT_ROUTE.S1H

/-- A reason for a remote wake arises: 1 VAN, 2 REPLACE, 3 TWIN, 4 INT. An enabled one waits for its attempt; while
PEND is 1, or the line is held low, `WAKE_HREASON` takes it; SHUTDOWN loses it (R98, R110, R111). -/
def State.wantHost (s : State) (reason : Nat) : State :=
  let on := (s.get WAKE_CFG.w / 2 ^ (reason - 1)) % 2 == 1
  if on ∧ s.get MODE.CUR ≠ 0 then
    let s := if s.bit WAKE_HREASON.PEND ∨ s.mode.lowTaken then s.put WAKE_HREASON.REASON reason else s
    { s with mode := { s.mode with heldReason := some reason } }
  else s

/-- Marks a routed, enabled set for an attention message (R204), or for a remote wake where F0 routes it to a pin (R98). -/
def State.noteAttn (s : State) (f : Fn) (src : Nat) : State :=
  let en := if src < 16 then s.fget f INT_EN0.w else s.fget f INT_EN1.w
  let s := if f = .f0 ∧ (s.routeOf f src = 1 ∨ s.routeOf f src = 2) ∧ (en / 2 ^ (src % 16)) % 2 = 1 then s.wantHost 4 else s
  if s.routeOf f src = 3 ∧ (en / 2 ^ (src % 16)) % 2 = 1 then
    let e := s.eng f
    if src < 16 then s.setEng f { e with attn := { e.attn with due0 := e.attn.due0 ||| 2 ^ src } }
    else s.setEng f { e with attn := { e.attn with due1 := e.attn.due1 ||| 2 ^ (src - 16) } }
  else s

/-- Sets bit `b` of `INT_STAT0` in function `f` and counts the set. -/
def State.raise0 (s : State) (f : Fn) (b : Nat) : State :=
  ((s.fput f ⟨0x10, b, b⟩ 1).count f b).noteAttn f b

/-- Sets bit `b` of F0's `INT_STAT1` and counts the set. -/
def State.raise1 (s : State) (b : Nat) : State :=
  ((s.fput .f0 ⟨0x11, b, b⟩ 1).count .f0 (16 + b)).noteAttn .f0 (16 + b)

/-- Sets a bit of `INT_STAT0` in each function of a list. -/
def State.raiseIn (s : State) (b : Nat) : List Fn → State
  | [] => s
  | f :: l => (s.raise0 f b).raiseIn b l

/-- Sets a bit of `INT_STAT0` in F0 and in each tenant with a grant on a page (R227). -/
def State.raiseGranted (s : State) (b page : Nat) : State :=
  s.raiseIn b (.f0 :: tenants.filter (fun f => 1 ≤ s.grant f page))

/-- The bits of `INT_STAT0` and `INT_STAT1` by name. -/
def iPLAN_DONE : Nat := 0
def iWATCH_EVENT : Nat := 1
def iDQ_DATA : Nat := 2
def iDQ_OVERRUN : Nat := 3
def iTIME_UPDATE : Nat := 4
def iTIME_LOSS : Nat := 5
def iEDF_OBJECT : Nat := 6
def iEDF_COMMAND : Nat := 7
def iCMD_DONE : Nat := 8
def iFN_RESET_DONE : Nat := 9
def iHEALTH : Nat := 10
def iREPLACE : Nat := 11
def iTWIN_EVENT : Nat := 12
def iAUDIO_EVENT : Nat := 13
def iRATE_CHANGE : Nat := 14
def iSECURITY : Nat := 15
def jRESERVOIR_LOW : Nat := 0
def jBAT_SAG : Nat := 1
def jTW_ERROR : Nat := 2
def jHOSTPORT_ERROR : Nat := 3
def jBOOT_EVENT : Nat := 4
def jWDOG : Nat := 5
def jCAL_DONE : Nat := 6
def jFLOOD_STATE : Nat := 7
def jAF_SWITCH : Nat := 8
def jWAKE_COLLIDED : Nat := 9
def jARB_SR : Nat := 10

/-- SECURITY in every function. -/
def State.security (s : State) : State := s.raiseIn iSECURITY allFns

/-- A pin is driven low by a routed, enabled status bit or by a fallback message (R228): `v` is 1 for `INT0_N`, 2 for
`INT1_N`. Both are released in SHUTDOWN, without `VDDIO` and in factory test (Table 2.2, R29, R32). -/
def State.pinLow (s : State) (v : Nat) : Bool :=
  s.pins.vddio && !s.pins.test && s.get MODE.CUR != 0 && allFns.any (fun f =>
    let live0 := s.fget f INT_STAT0.w &&& s.fget f INT_EN0.w
    let live1 := s.fget f INT_STAT1.w &&& s.fget f INT_EN1.w
    (s.fget f INT_ROUTE.S0L == v && live0 % 0x100 != 0) || (s.fget f INT_ROUTE.S0H == v && live0 / 0x100 != 0) ||
    (s.fget f INT_ROUTE.S1L == v && live1 % 0x100 != 0) || (s.fget f INT_ROUTE.S1H == v && live1 / 0x100 != 0) ||
    (s.fget f ATTN_ACK.FALLBACK == 1 && s.get TW_CTL_CFG.FALLBACK + 1 == v))

/-! ### Time stamps -/

/-- KTIME seconds. -/
def State.sec (s : State) : Nat := s.ktime / 2 ^ 24

/-- The short stamp of the present instant (R234). -/
def State.stamp (s : State) : Nat := s.ktime % 2 ^ 32

/-- The two words of a 32-bit value, low word first. -/
def lowHigh (n : Nat) : List Word := [BitVec.ofNat 16 n, BitVec.ofNat 16 (n / 0x10000)]

/-! ### What the health monitors count (R472) -/

/-- The KTIME day number, days beginning as R261 says (R461). -/
def State.dayNo (s : State) : Nat := (s.sec - 60 * s.get SCHED_DAY_OFS.w) / 86400

/-- Adds one to the count of a day; days more than a month back are dropped. -/
def bump (day : Nat) (l : List (Nat × Nat)) : List (Nat × Nat) :=
  let old := l.filter (fun e => decide (day < e.1 + 32 ∧ e.1 ≠ day))
  old ++ [(day, ((l.find? (fun e => e.1 == day)).map Prod.snd).getD 0 + 1)]

/-- A fault of monitor 0x0A. -/
def State.noteFault (s : State) : State := { s with hlt := { s.hlt with faults := bump s.dayNo s.hlt.faults } }

/-- A flash result of monitor 0x09. -/
def State.noteFlash (s : State) : State := { s with hlt := { s.hlt with flashErr := bump s.dayNo s.hlt.flashErr } }

/-! ### Data queue (R234 to R237, R520) -/

/-- The queue size of a function in words, from `PART_DQ` (R242). -/
def State.dqSize (s : State) (f : Fn) : Nat := (s.get PART_DQ.w / 16 ^ f.toNat) % 16 * 512

/-- The words of a record. -/
def Rec.words (r : Rec) : List Word :=
  [BitVec.ofNat 16 (r.type * 1024 + r.payload.length), BitVec.ofNat 16 (r.stamp / 0x10000), BitVec.ofNat 16 r.stamp] ++
    r.payload

/-- Appends the words of one record and sets DQ_DATA at the threshold (R237). -/
def State.append (s : State) (f : Fn) (ws : List Word) : State :=
  let e := s.eng f
  let q := e.queue ++ ws
  let s := s.setEng f { e with queue := q }
  if s.fget f DQ_THR.w ≤ q.length then s.raise0 f iDQ_DATA else s

/-- Writes a record to a function's queue whole, with a FILL record before it where some were dropped, or drops it
(R235). -/
def State.writeRec (s : State) (f : Fn) (r : Rec) : State :=
  let e := s.eng f
  let fillW : List Word :=
    if e.fill = 0 then [] else Rec.words ⟨0x3F, e.fillStamp, [BitVec.ofNat 16 (min e.fill 0xFFFF)], []⟩
  if e.queue.length + fillW.length + (Rec.words r).length ≤ s.dqSize f then
    let s := if e.fill = 0 then s else (s.setEng f { e with fill := 0, fillStamp := 0 }).append f fillW
    r.bits.foldl (fun s b => s.raise0 f b) (s.append f (Rec.words r))
  else
    let s := s.setEng f { e with fill := e.fill + 1, fillStamp := if e.fill = 0 then r.stamp else e.fillStamp }
    r.bits.foldl (fun s b => s.raise0 f b) ((s.putSat (DQ_LOST.w.on f.toNat) (s.fget f DQ_LOST.w + 1)).raise0 f iDQ_OVERRUN)

/-- A record arises for a function: held while the function's reset runs (R520) and until Marten runs (R20), else
written. -/
def State.deliver (s : State) (f : Fn) (type : Nat) (payload : List Word) (bits : List Nat) (stamp : Nat) : State :=
  let r : Rec := ⟨type, stamp, payload, bits⟩
  if s.fget f FN_STATE.RESET_BUSY = 1 ∨ ¬ s.boot.marten then
    let e := s.eng f
    s.setEng f { e with held := e.held ++ [r] }
  else s.writeRec f r

/-- Bit `b` of `INT_STAT0` in every function beside a record that goes to some of them: these set it with their record (R520). -/
def State.raiseOthers (s : State) (b : Nat) (fns : List Fn) : State := s.raiseIn b (allFns.filter (fun f => !fns.contains f))

/-- The same record for each function of a list (R235). -/
def State.deliverAll (s : State) (type : Nat) (payload : List Word) (bits : List Nat) (stamp : Nat) : List Fn → State
  | [] => s
  | f :: l => (s.deliver f type payload bits stamp).deliverAll type payload bits stamp l

/-- Empties a queue without counting (R237). -/
def State.flushQueue (s : State) (f : Fn) : State := s.setEng f { s.eng f with queue := [], left := 0 }

/-! ### Mailbox (R232, R233) -/

/-- Ends the op of a function with a code and four results. -/
def State.finishOp (s : State) (f : Fn) (err : Nat) (res : List Word) : State :=
  let r (i : Nat) (s : State) : State := s.fput f (CMD_RES.w i) (res.getD i 0).toNat
  let s := s.setEng f { s.eng f with op := none }
  let s := r 3 (r 2 (r 1 (r 0 s)))
  let s := s.fput f CMD_STAT.ERR err
  let s := if err = 0 then s else s.setErr f err
  ((s.fput f CMD_STAT.BUSY 0).fput f CMD_STAT.DONE 1).raise0 f iCMD_DONE

/-- The op of function `f` has reached its end: CMD_DONE will publish this outcome. -/
def State.outcome (s : State) (f : Fn) (err : Nat) (res : List Word) : State :=
  match (s.eng f).op with
  | some o => s.setEng f { s.eng f with op := some { o with outcome := some (err, res) } }
  | none => s

/-- Runs `act` on the arguments of the executing op of function `f` when it is op `code` and has no outcome yet. -/
def State.withOp (s : State) (f : Fn) (code : Nat) (act : List Word → State) : State :=
  match (s.eng f).op with
  | some o => if o.code = code ∧ o.outcome = none then act o.args else s
  | none => s

/-- A function whose GO came earlier still uses Flint: SIGN_RECORD, VERIFY_OBJECT or HEALTH_REPORT (R233). -/
def State.flintWaits (s : State) (f : Fn) : Bool :=
  (s.flint.queue.takeWhile (fun g => g != f)).any (fun g => match (s.eng g).op with
    | some o => [4, 5, 0xE].contains o.code && o.outcome.isNone
    | none => false)

/-- As `withOp`, for an op that Flint serves in its turn. -/
def State.withFlint (s : State) (f : Fn) (code : Nat) (act : List Word → State) : State :=
  if s.flintWaits f then s else s.withOp f code act

/-- Argument `i` of an op as a number. -/
def arg (l : List Word) (i : Nat) : Nat := (l.getD i 0).toNat

/-! ### Watch records (Table 11.1) -/

/-- Byte `i` of a 32-byte watch record. -/
def recByte (w : List Word) (i : Nat) : Nat := ((w.getD (i / 2) 0).toNat / 0x100 ^ (i % 2)) % 0x100

/-- Word `i` of a watch record. -/
def recWord (w : List Word) (i : Nat) : Nat := (w.getD i 0).toNat

/-- Kind, class, flags, id, KFC, period, duration and slack of a watch record. -/
def recKind (w : List Word) : Nat := recByte w 0
def recClass (w : List Word) : Nat := recByte w 1 % 4
def recFlag (w : List Word) (b : Nat) : Bool := (recByte w 1 / 2 ^ b) % 2 == 1
def recId (w : List Word) : Nat := recWord w 1
def recKfc (w : List Word) : Nat := recWord w 2 + 0x10000 * recWord w 3
def recStart (w : List Word) : Nat :=
  (recWord w 4 + 0x10000 * recWord w 5) * 2 ^ 24 + (recWord w 6 + 0x10000 * recWord w 7) % 2 ^ 24
def recPeriod (w : List Word) : Nat := recWord w 8 + 0x10000 * recWord w 9
def recDur (w : List Word) : Nat := recWord w 10
def recSlack (w : List Word) : Nat := recWord w 11
def recCap (w : List Word) : Nat := recWord w 12

/-- Bearer of a KFC: 1 LF, 2 FM, 3 DAB; and its frequency. -/
def bearer (kfc : Nat) : Nat := kfc / 2 ^ 28 % 16
def kfcFreq (kfc : Nat) : Nat := kfc % 2 ^ 28

/-- The plan engine of a function. -/
def State.plan (s : State) (f : Fn) : PlanEng := s.plans.get f

/-- Replaces the plan engine of a function. -/
def State.setPlan (s : State) (f : Fn) (p : PlanEng) : State := { s with plans := s.plans.set f p }

/-- The watch of an occurrence in progress. -/
def State.watchOf (s : State) (f : Fn) (idx : Nat) : Option Watch := (s.plan f).plan[idx]?

/-- The running occurrences with their watches. -/
def State.runs (s : State) : List (Run × Watch) :=
  s.sched.running.filterMap (fun r => (s.watchOf r.fn r.idx).map (fun w => (r, w)))

/-- Watch kinds (Table 11.2). -/
def kTIME : Nat := 1
def kRDS : Nat := 2
def kEDF : Nat := 3
def kFIC : Nat := 4
def kAF : Nat := 5
def kCAPT : Nat := 6
def kSURVEY : Nat := 7

/-- Functions with a running watch that meets `p`, each once, in order. -/
def State.fnsWith (s : State) (p : List Word → Bool) : List Fn :=
  allFns.filter (fun f => s.runs.any (fun rw => rw.1.fn == f && p rw.2.words))

/-- Functions with a LISTEN in force and not paused. -/
def State.listeners (s : State) : List Fn :=
  allFns.filter (fun f => match (s.plan f).listen with | some l => !l.paused | none => false)

/-- The watch has an occurrence still to come at KTIME `t` (R89). -/
def Watch.future (w : Watch) (t : Nat) : Bool :=
  if recPeriod w.words = 0 then w.last.isNone && t ≤ w.start + recSlack w.words * 2 ^ 24 else true

/-! ### Modes (R87 to R89, R112) -/

/-- The unit runs its plans: it holds neither the standby nor the undecided role (R19, R89). -/
def State.runsPlans (s : State) : Bool := !(s.get TWIN_CFG.EN == 1 && s.get TWIN_STAT.ACTIVE == 0) || s.get TWIN_STAT.EN == 0

/-- Some committed plan has a watch with a future slot. -/
def State.futureSlot (s : State) : Bool := allFns.any (fun f => (s.plan f).plan.any (fun w => w.future s.ktime))

/-- `CAPT_LEAD` in KTIME units. -/
def State.captLead (s : State) : Nat := s.get CAPT_LEAD.w * 2 ^ 24 / 1000

/-- The next start of a placed occurrence from the present instant: a repeating one comes again in every cycle (R258). -/
def State.nextOf (s : State) (o : Occ) : Nat :=
  let c := s.sched.cycle * 2 ^ 24
  match s.watchOf o.fn o.idx with
  | some w =>
    if recPeriod w.words = 0 ∨ c = 0 ∨ s.ktime ≤ o.start then o.start
    else o.start + (s.ktime - o.start + c - 1) / c * c
  | none => o.start

/-- The placed occurrences still to start that this unit runs, with their starts. -/
def State.coming (s : State) : List (Occ × Nat) :=
  if s.runsPlans then (s.sched.timeline.map (fun o => (o, s.nextOf o))).filter (fun e => decide (s.ktime ≤ e.2)) else []

/-- The least number of a list. -/
def least (l : List Nat) : Option Nat :=
  l.foldl (fun m t => match m with | some x => some (min x t) | none => some t) none

/-- The start of the first placed occurrence still to start. -/
def State.nextStart (s : State) : Option Nat := least (s.coming.map Prod.snd)

/-- When the next planned activity begins: a reception at its start, a capture `CAPT_LEAD` before its start (R433). -/
def State.nextActivity (s : State) : Option Nat :=
  let capt (o : Occ) : Bool := (s.watchOf o.fn o.idx).any (fun w => recKind w.words == kCAPT)
  least (s.coming.map (fun e => if capt e.1 then e.2 - s.captLead else e.2) ++ s.capt.due.map (fun j => j.start - s.captLead))

/-- An activity is due to start within `ms` milliseconds. -/
def State.dueWithin (s : State) (ms : Nat) : Bool :=
  match s.nextActivity with
  | some t => t * 1000 ≤ s.ktime * 1000 + ms * 2 ^ 24
  | none => false

/-- An activity is running: slot, LISTEN, capture or maintenance. -/
def State.active (s : State) : Bool :=
  s.bit MODE.SLOT_ACT || s.bit MODE.LISTEN_ACT || s.bit MODE.CAPTURE_ACT || s.bit MODE.MAINTAIN_ACT

/-- The rest mode R89 selects. It is looked at when an activity ends and at rest entry, not at a write of `MATCH_EN` (log entry
186). -/
def State.restMode (s : State) : Nat :=
  if s.runsPlans && s.futureSlot then 4
  else if s.bit MODE_CFG.MATCH_EN || !s.runsPlans then 2 else 1

/-- `MODE.CUR` and `MODE.IDLE` follow the running activities; HOARD-IDLE needs the next slot to be more than 3 ms away (R88,
R89, Table 5.9). SHUTDOWN and BOOT stay as they are. -/
def State.updMode (s : State) : State :=
  if s.get MODE.CUR = 0 ∨ s.get MODE.CUR = 3 then s
  else if s.bit MODE.MAINTAIN_ACT then (s.put MODE.CUR 7).put MODE.IDLE 0
  else if s.bit MODE.CAPTURE_ACT then (s.put MODE.CUR 6).put MODE.IDLE 0
  else if s.bit MODE.LISTEN_ACT then (s.put MODE.CUR 5).put MODE.IDLE 0
  else if s.bit MODE.SLOT_ACT then (s.put MODE.CUR 4).put MODE.IDLE 0
  else (s.put MODE.CUR s.restMode).putBit MODE.IDLE (s.restMode == 4 && !s.dueWithin 3)

/-- Sets an activity bit and brings `MODE.CUR` up to date. -/
def State.setAct (s : State) (x : Fld) (b : Bool) : State := (s.putBit x b).updMode

/-- Marten is running and the device is in no rest, boot, HOST-LOAD wait, SHUTDOWN or reset. -/
def State.awake (s : State) : Bool := s.mode.ready && s.boot.marten && !s.mode.resting

/-- Marten's flash program and erase commands are served: not in a trusted boot before every block is verified (R119). -/
def State.flashFree (s : State) : Bool :=
  s.boot.marten && (s.boot.loaded || match s.boot.attempt with | some (_, trusted) => !trusted | none => true)

/-- CORE is clocked, and with it the buck is on: Hedgehog runs and the device is in no rest, or a wake is under way (R67,
R91, Table 3.1). -/
def State.coreRuns (s : State) : Bool :=
  s.boot.hedgehog && s.get MODE.CUR != 0 && (!s.mode.resting || s.mode.waking.isSome)

/-- Dormouse has been released: X32 is qualified, or the fallback runs (R68, R120). -/
def State.dormouse (s : State) : Bool :=
  !s.pins.porAsserted && s.get MODE.CUR != 0 && (s.bit CLK_STAT.X32_OK || s.bit TIME_STAT.FALLBACK)

/-- The cause of a wake is latched (R96). -/
def State.latchCause (s : State) (cause : Nat) : State :=
  (s.put WAKE_CAUSE.PREV (s.get WAKE_CAUSE.CAUSE)).put WAKE_CAUSE.CAUSE cause

/-- XO starts, with the load that `XO_TRIM` asks for (R69, R82). -/
def State.xoStart (s : State) : State := { s with mode := { s.mode with xoTry := true, xoLoad := s.get XO_TRIM.CL } }

/-- Pika can serve: epochs match and it is not unavailable (R256 stage 5, R337). -/
def State.pikaUsable (s : State) : Bool := s.get BOOT_STAT.PIKA != 3 && s.fget .f0 FN_STATE.COMPAT == 0

/-- Pika is released. -/
def State.pikaOn (s : State) : Bool := s.get BOOT_STAT.PIKA == 2 && s.fget .f0 FN_STATE.COMPAT == 0

/-- A Pika job can run: Pika is released, and the core PLL gives its clock (Table 4.1, R85). -/
def State.pikaServes (s : State) : Bool := s.pikaOn && s.bit CLK_STAT.PLL_LOCK

/-- Sets a common-part field in every function (R248). -/
def State.putAll (s : State) (x : Fld) (v : Nat) : State :=
  (((s.fput .f0 x v).fput .f1 x v).fput .f2 x v).fput .f3 x v

end Sys2Proof.Machine
end

