-- ==== Sys2Proof/Machine/Discipline.lean ====
section
/-! DEFINITION. The timebase's arithmetic: the error bound and its code, the frequency models, the RTC trim and the
records of the timebase (spec 16). Errors are in 0.001 ppm, temperatures in 0.125 °C. -/

namespace Sys2Proof.Machine

open R

/-! ### Time quality (R355) -/

/-- One microsecond in the bound's unit of 1/32 768 000 000 µs. -/
def usUnit : Nat := 32768000000

/-- The bound with the slew remaining (R357): a thousandth of 2⁻²⁴ s is 1 953 125 units. -/
def TimeEng.whole (t : TimeEng) : Option Nat := t.bound.map (fun b => b + 1953125 * t.slew.natAbs)

/-- The smallest code 0 to 30 whose power of two reaches a bound; 31 beyond. -/
def codeOf : Option Nat → Nat
  | none => 31
  | some b => ((List.range 31).find? (fun c => b ≤ 2 ^ c * usUnit)).getD 31

/-- The TQ byte of a source and a code; above code 30 the whole byte reads 0x1F. -/
def tqByte (src code : Nat) : Nat := if 31 ≤ code then 0x1F else 32 * src + code

/-- The TQ byte of the timebase as it stands. -/
def State.tqNow (s : State) : Nat := tqByte s.time.src (codeOf s.time.whole)

/-- `HLT_RTIME` is recorded once KTIME holds a code below 31 (R469). -/
def State.noteRtime (s : State) : State :=
  if s.hlt.rtimeDue ∧ codeOf s.time.whole < 31 then
    ({ s with hlt := { s.hlt with rtimeDue := false } } : State).put32 HLT_RTIME_L.w (s.sec % 0x100000000)
  else s

/-- The TQ and SLEWING fields follow the timebase; a bound that falls rearms LOSS (R370). -/
def State.showTq (s : State) : State :=
  let c := codeOf s.time.whole
  let left : Bool := s.get TIME_STAT.TQ == 0x1F && decide (c < 31)
  let s : State := { s with
    time := { s.time with prevCode := min c s.time.prevCode, left31 := if left then s.sec else s.time.left31 } }
  let sl := decide (s.time.slew ≠ 0)
  let s := (s.put KTIME_TQ.TQ s.tqNow).put TIME_STAT.TQ s.tqNow
  ((s.putBit KTIME_TQ.SLEWING sl).putBit TIME_STAT.SLEWING sl).noteRtime

/-- A candidate has brought the code down: each LOSS may rise again (R370). -/
def State.rearmLoss (s : State) : State :=
  let c := codeOf s.time.whole
  { s with time := { s.time with
    loss1 := s.time.loss1 && decide (s.get TIME_LOSS_THR.w ≤ c), loss2 := s.time.loss2 && decide (31 ≤ c) } }

/-! ### Models (R360, R361) -/

/-- The AON domain runs on a qualified X32, not on the fallback of R83. -/
def State.onX32 (s : State) : Bool := s.bit CLK_STAT.X32_OK && !s.bit TIME_STAT.FALLBACK

/-- e_32 of the X32 model at a temperature; with no pair fed the virtual pairs lie on the prior, and so does the fit. -/
def State.x32At (s : State) (temp : Int) : ℚ :=
  if s.time.x32Fed = [] then -34 * ((temp - 200 : Int) : ℚ) ^ 2 / 64
  else (Config.x32Fit s.time.x32Fed s.sec temp : ℚ)

/-- The mean of the broadcast measurements of the reception weighted by 1/SD², while the newest is less than 60 s old;
measurements with SD 0 outweigh every other. -/
def State.xoBroadcast (s : State) : Option ℚ :=
  match s.time.xoMeas with
  | [] => none
  | (_, _, t) :: _ =>
    if s.sec < t + 60 then
      let sure := s.time.xoMeas.any (fun m => m.2.1 == 0)
      let w (m : Int × Nat × Nat) : ℚ := if sure then (if m.2.1 = 0 then 1 else 0) else 1 / (m.2.1 : ℚ) ^ 2
      some ((s.time.xoMeas.map (fun m => (m.1 : ℚ) * w m)).sum / (s.time.xoMeas.map w).sum)
    else none

/-- e_XO (R360); unknown when XO does not qualify (R373). -/
def State.xoErr (s : State) : Option ℚ :=
  if s.time.xoBad then none
  else match s.xoBroadcast with
    | some e => some e
    | none => if s.bit TIME_STAT.XO_MODEL_OK then some (Config.xoFit s.time.xoFed s.sec s.time.temp : ℚ) else none

/-- `TIME_XO_ERR` as it reads: 0x8000 unknown. -/
def State.xoErrWord (s : State) : Nat :=
  match s.xoErr with
  | some e => code16 (max (-0x7FFF) (min 0x7FFF (Config.round e)))
  | none => 0x8000

/-! ### Trim (R362) -/

/-- `TIME_TRIM` takes −e_32 in 0.01 ppm, held at ±1000 ppm. -/
def State.putTrim (s : State) (e : ℚ) : State :=
  let v : Int := max (-100000) (min 100000 (Config.round (-e / 10)))
  s.put32 TIME_TRIM_L.w (v % 0x100000).toNat

/-- The trim in 0.01 ppm. -/
def State.trim (s : State) : Int :=
  let v := s.get32 TIME_TRIM_L.w
  if v < 0x80000 then v else (v : Int) - 0x100000

/-- The trim follows the model, or the last accepted pair before `X32_MODEL_OK`. -/
def State.setTrim (s : State) : State :=
  if s.bit TIME_STAT.X32_MODEL_OK then s.putTrim (s.x32At s.time.temp)
  else match s.time.lastPair with
    | some e => s.putTrim e
    | none => s

/-- A signed byte of whole degrees. -/
def signed8 (n : Nat) : Int := if n % 0x100 < 0x80 then (n % 0x100 : Nat) else ((n % 0x100 : Nat) : Int) - 0x100

/-- The growth rate of Table 16.1. -/
def State.holdRate (s : State) : Nat :=
  if s.bit TIME_STAT.FALLBACK then 5000000
  else if ¬ s.bit TIME_STAT.X32_MODEL_OK then 150000
  else
    let hi := 8 * signed8 (s.get TIME_SPAN.w / 0x100)
    let lo := 8 * signed8 (s.get TIME_SPAN.w)
    let x : Int := max 0 (max (s.time.temp - hi) (lo - s.time.temp))
    3 * s.get TIME_X32_RESID.w + 20 + roundNat (34 * (x : ℚ) ^ 2 / 64)

/-! ### Records (R369) -/

/-- Functions in which TIME_UPDATE and TIME_LOSS set (Table 10.2). -/
def State.timeFns (s : State) : List Fn :=
  allFns.filter (fun f => f == .f0 || 1 ≤ s.grant f 0x11 || (s.plan f).plan.any (fun w => recKind w.words == 1))

/-- A difference of KTIME in µs, held at 32 bits. -/
def deltaUs (d : Int) : Int := max (-0x80000000) (min 0x7FFFFFFF (Config.round ((d : ℚ) * 1000000 / 2 ^ 24)))

/-- The two words of Δ. -/
def deltaWords (d : Int) : List Word := lowHigh ((deltaUs d % 0x100000000).toNat)

/-- A TIME_EVENT record; `bits` are the `INT_STAT0` bits that set with it. -/
def State.timeEvent (s : State) (event cause tq0 tq1 : Nat) (delta : Int) (bits : List Nat) (stamp : Nat) : State :=
  s.deliverAll 0x14 ([BitVec.ofNat 16 (event * 0x100 + cause), BitVec.ofNat 16 (tq0 * 0x100 + tq1)] ++ deltaWords delta ++
    [BitVec.ofNat 16 (code16 s.time.leap)]) bits stamp s.timeFns

/-- LOSS with a cause (R370). -/
def State.lossEvent (s : State) (cause tq0 : Nat) : State := s.timeEvent 4 cause tq0 s.tqNow 0 [iTIME_LOSS] s.stamp

end Sys2Proof.Machine
end

