-- ==== Sys2Proof/Machine/Usage.lean ====
section
/-! DEFINITION. Who uses the tuner and the capture engine, and what the day counters of R261 take for it. -/

namespace Sys2Proof.Machine

open R

/-- Running occurrences that use the tuner. -/
def State.tunerRuns (s : State) : List (Run × Watch) := s.runs.filter (fun rw => recKind rw.2.words != kCAPT)

/-- The LISTENs in force and not paused. -/
def State.liveListens (s : State) : List (Fn × Listen) :=
  allFns.filterMap (fun f => match (s.plan f).listen with
    | some l => if l.paused then none else some (f, l)
    | none => none)

/-- `DAY_USE_E` and `DAY_USE_T` show the day's charge in µAh and tuner time in seconds (R261). -/
def State.showDay (s : State) (f : Fn) : State :=
  let e := s.eng f
  let s := s.fput f DAY_USE_E.w (min 0xFFFF (roundNat ((e.dayE : ℚ) / 1000)))
  s.fput f DAY_USE_T.w (min 0xFFFF (roundNat ((e.dayT : ℚ) / 1000)))

/-- Charge in nAh and tuner time in ms are counted to a function's day (R261). -/
def State.charge (s : State) (f : Fn) (nAh ms : Nat) : State :=
  let e := s.eng f
  (s.setEng f { e with dayE := e.dayE + nAh, dayT := e.dayT + ms }).showDay f

/-- An amount of charge that the spec counts to a function and does not state (log entry 10). -/
def State.chargeOpen (s : State) (f : Fn) : State :=
  let (w, s) := s.fresh
  s.charge f w.toNat 0

/-- Charge in nAh, measured for an activity that several watches share, and tuner time in ms go to their functions in equal
parts (R260, R261). -/
def State.split (s : State) (nAh ms : Nat) (users : List Fn) : State :=
  users.foldl (fun s f => s.charge f (nAh / users.length) (ms / users.length)) s

/-- The time since the last account is counted: tuner time in equal parts to the watches and LISTENs on the reception, and the
charge that the ledger measures for it, whose amount the spec does not state, likewise; a capture's charge goes to its owners
(R261, log entry 171). It is called before anything changes who uses the tuner or the capture engine. -/
def State.account (s : State) : State :=
  let dt := s.ktime - s.sched.useAt
  let rx := s.tunerRuns.map (fun rw => rw.1.fn) ++ s.liveListens.map Prod.fst
  let cap := match s.capt.job with | some j => j.owners | none => []
  let s : State := { s with sched := { s.sched with useAt := s.ktime } }
  if dt = 0 then s
  else
    let s := if rx = [] then s else
      let (w, s) := s.fresh
      s.split w.toNat (dt * 1000 / 2 ^ 24) rx
    if cap = [] then s else
      let (w, s) := s.fresh
      s.split w.toNat 0 cap

end Sys2Proof.Machine
end

