-- ==== Sys2Proof/Machine/Samples.lean ====
section
/-! DEFINITION. The forms of an audio sample: slot and word widths, the packings of Table 18.2, the dividers of R411 and
R428, and the frame counts that fades and ramps take. -/

namespace Sys2Proof.Machine

open R

/-- Number of an AP port; `BPH_OUT` has no page of that kind. -/
def portNo : AudioPort → Nat
  | .ap1 => 1
  | _ => 0

/-- The page of a port. -/
def portPage : AudioPort → Nat
  | .ap0 => 0x13
  | .ap1 => 0x14
  | .bph => 0x15

/-- The engine of a port. -/
def State.port (s : State) : AudioPort → Port
  | .ap0 => s.ap.p0
  | .ap1 => s.ap.p1
  | .bph => s.ap.bph

/-- Replaces the engine of a port. -/
def State.setPort (s : State) (p : AudioPort) (e : Port) : State :=
  match p with
  | .ap0 => { s with ap := { s.ap with p0 := e } }
  | .ap1 => { s with ap := { s.ap with p1 := e } }
  | .bph => { s with ap := { s.ap with bph := e } }

/-- Slots of a frame (`SLOTS` holds slots − 1). -/
def State.slots (s : State) : AudioPort → Nat
  | .bph => 2
  | p => s.get (AP.FMT.SLOTS (portNo p)) + 1

/-- Bits of a slot. -/
def State.slotW (s : State) (p : AudioPort) : Nat :=
  match s.get (AP.FMT.SLOTW (portNo p)) with
  | 0 => 16
  | 1 => 24
  | _ => 32

/-- Bits of a word: 24 on the biphase link (R423). -/
def State.wordW (s : State) : AudioPort → Nat
  | .bph => 24
  | p => match s.get (AP.FMT.WORDW (portNo p)) with
    | 0 => 16
    | 1 => 20
    | 2 => 24
    | _ => 32

/-- The slots set in a mask, in ascending order. -/
def slotList (mask : Nat) : List Nat := (List.range 8).filter (fun i => (mask / 2 ^ i) % 2 == 1)

/-- Enabled slots of a direction. -/
def State.slotsOn (s : State) (p : AudioPort) (receive : Bool) : List Nat :=
  match p with
  | .bph => [0, 1]
  | p => slotList (s.get (if receive then AP.SLOTEN.RXS (portNo p) else AP.SLOTEN.TXS (portNo p)))

/-- The packing of a direction (Table 18.2). -/
def State.packOf (s : State) (p : AudioPort) (receive : Bool) : Nat :=
  match p with
  | .bph => s.get (if receive then BPH_CFG.IPACK else BPH_CFG.OPACK)
  | p => s.get (AP.FMT.PACK (portNo p))

/-- Packed size in bytes. -/
def packSize : Nat → Nat
  | 0 => 2
  | 1 => 3
  | _ => 4

/-- Packed width in bits. -/
def packBits : Nat → Nat
  | 0 => 16
  | 3 => 32
  | _ => 24

/-- A frame's size in bytes, `B` of R413. -/
def State.frameBytes (s : State) (p : AudioPort) (receive : Bool) : Nat :=
  (s.slotsOn p receive).length * packSize (s.packOf p receive)

/-- The packed value of a word: left-justified when narrower, its lowest bits lost when wider (R413). -/
def toPacked (pack width : Nat) (v : Int) : Int :=
  if width ≤ packBits pack then v * 2 ^ (packBits pack - width) else v / 2 ^ (width - packBits pack)

/-- The word of a packed value, filled with 0 below the packed bits (R413). -/
def ofPacked (pack width : Nat) (v : Int) : Int :=
  if packBits pack ≤ width then v * 2 ^ (width - packBits pack) else v / 2 ^ (packBits pack - width)

/-- The bytes of a packed value in ascending address order, sign-extended to the packed size (Table 18.2). -/
def packBytes (pack : Nat) (v : Int) : List Byte :=
  (List.range (packSize pack)).map (fun i => BitVec.ofInt 8 (v / 2 ^ (8 * i)))

/-- A signed number from bytes, lowest first. -/
def ofBytes (bits : Nat) (l : List Byte) : Int :=
  let n : Nat := (l.foldr (fun (b : Byte) (a : Nat) => b.toNat + 0x100 * a) 0) % 2 ^ bits
  if n < 2 ^ (bits - 1) then (n : Int) else (n : Int) - 2 ^ bits

/-- The signed words of a packed frame. -/
def State.unpackFrame (s : State) (p : AudioPort) (receive : Bool) (l : List Byte) : List Int :=
  let k := packSize (s.packOf p receive)
  (List.range (s.slotsOn p receive).length).map (fun i =>
    ofPacked (s.packOf p receive) (s.wordW p) (ofBytes (packBits (s.packOf p receive)) ((l.drop (k * i)).take k)))

/-- A sample under gain `num / den`, rounded toward zero (R416). -/
def gained (num den : Nat) (v : Int) : Int := (v * num).tdiv den

/-- The divider's source frequency in Hz, `I` and `F` (R411, R428). -/
def State.divSrc (s : State) : AudioPort → Nat
  | .bph => if s.bit BPH_DIV_I.SRC then 98304000 else 24576000
  | p => if s.bit (AP.DIV_I.SRC (portNo p)) then 98304000 else 24576000

/-- The divider as a rational. -/
def State.divider (s : State) : AudioPort → ℚ
  | .bph => (s.get BPH_DIV_I.I : ℚ) + (s.get BPH_DIV_F.w : ℚ) / 65536
  | p => (s.get (AP.DIV_I.I (portNo p)) : ℚ) + (s.get (AP.DIV_F.w (portNo p)) : ℚ) / 65536

/-- The BCLK frequency of a port; for `BPH_OUT`, 128 × the frame rate. -/
def State.bclk (s : State) (p : AudioPort) : ℚ := (s.divSrc p : ℚ) / s.divider p

/-- The nominal frame rate of a port in Hz (R411, R428). -/
def State.frameRate (s : State) : AudioPort → ℚ
  | .bph => s.bclk .bph / 128
  | p => s.bclk p / ((s.slots p * s.slotW p : Nat) : ℚ)

/-- Frames in a whole number of ms at a rate, rounded up (R412). -/
def framesIn (ms : Nat) (rate : ℚ) : Nat := (⌈(ms : ℚ) * rate / 1000⌉).toNat

/-- `FADE_MS`, `RAMP_MS` and `LOWAT` of a port. -/
def fadeMs : AudioPort → Fld
  | .bph => BPH_FADE.FADE_MS
  | p => AP.FADE.FADE_MS (portNo p)
def rampMs : AudioPort → Fld
  | .bph => BPH_FADE.RAMP_MS
  | p => AP.FADE.RAMP_MS (portNo p)
def lowat : AudioPort → Fld
  | .bph => BPH_LOWAT.w
  | p => AP.LOWAT.w (portNo p)

/-- `R_f` and `R_r` of a transmitter. -/
def State.fadeLen (s : State) (p : AudioPort) : Nat := framesIn (s.get (fadeMs p)) (s.frameRate p)
def State.rampLen (s : State) (p : AudioPort) : Nat := framesIn (s.get (rampMs p)) (s.frameRate p)

/-- Ring pointers of a transmitter, its level register and its state field. AP1 reads the AP0 ring. -/
def wptrFld : AudioPort → Fld
  | .bph => BPH_WPTR.w
  | _ => AP.WPTR.w 0
def rptrFld : AudioPort → Fld
  | .bph => BPH_RPTR.w
  | p => AP.RPTR.w (portNo p)
def levelFld : AudioPort → Fld
  | .bph => BPH_LEVEL.w
  | p => AP.LEVEL.w (portNo p)
def txstFld : AudioPort → Fld
  | .bph => BPH_STAT.TXST
  | p => AP.STAT.TXST (portNo p)

/-- Where a transmitter's ring lies in memory-port addresses. -/
def ringBase : AudioPort → Nat
  | .bph => 0x204000
  | _ => 0x200000

/-- Ring bytes that a transmitter has not taken yet. -/
def State.ringBytes (s : State) (p : AudioPort) : Nat :=
  (s.get (wptrFld p) % 16384 + 16384 - s.get (rptrFld p) % 16384) % 16384

/-- A transmitter's level in frames (R414). -/
def State.ringLevel (s : State) (p : AudioPort) : Nat := s.ringBytes p / s.frameBytes p false

/-- Brings `APx_LEVEL` and `BPH_LEVEL` up to date. -/
def State.showLevels (s : State) : State :=
  let f (p : AudioPort) (s : State) : State := s.putSat (levelFld p) (s.ringLevel p)
  f .bph (f .ap1 (f .ap0 s))

/-- The next `n` bytes of a ring from a byte offset, wrapping. -/
def State.ringRead (s : State) (p : AudioPort) (off n : Nat) : List Byte :=
  (List.range n).map (fun i => s.byte (ringBase p + (off + i) % 16384))

/-- The clock source a port needs is there: XO qualified, or the PLL locked (Table 18.4). -/
def State.portClock (s : State) : AudioPort → Bool
  | .bph => if s.bit BPH_DIV_I.SRC then s.bit CLK_STAT.PLL_LOCK else s.bit CLK_STAT.XO_OK
  | p => if s.bit (AP.DIV_I.SRC (portNo p)) then s.bit CLK_STAT.PLL_LOCK else s.bit CLK_STAT.XO_OK

/-- F0 and the tenants with a grant on a page (R227). -/
def State.granted (s : State) (page : Nat) : List Fn := .f0 :: tenants.filter (fun f => 1 ≤ s.grant f page)

/-- The 8-bit CRC of R179 over bytes: polynomial 0x07, initial value 0, most significant bit first. -/
def crc8 (l : List Byte) : Byte :=
  l.foldl (fun c b => (List.range 8).foldl (fun c _ => if c.msb then (c <<< 1) ^^^ 0x07 else c <<< 1) (c ^^^ b)) 0

/-- The CRC-16 of R375. -/
def crc16 (l : List Byte) : Word :=
  l.foldl (fun c b => (List.range 8).foldl (fun c _ => if c.msb then (c <<< 1) ^^^ 0x1021 else c <<< 1)
    (c ^^^ ((b ++ (0 : Byte)) : Word))) 0xFFFF

/-! ### Audio events (R420) -/

/-- The event bits of a port: underrun, overrun, hard loss of the transmitter and of the receiver. -/
def evtFld (p : AudioPort) (b : Nat) : Fld :=
  match p with
  | .bph => ⟨0x1595, b, b⟩
  | p => ⟨0x1388 + 0x100 * portNo p, b, b⟩

/-- An audio event: for an AP port an AUDIO_EVENT record with the interrupt; on the biphase link the interrupt alone
(R420, R428). -/
def State.audioEvent (s : State) (p : AudioPort) (receive : Bool) (event cause frame count : Nat) : State :=
  match p with
  | .bph => s.raiseIn iAUDIO_EVENT (s.granted 0x15)
  | p =>
    s.deliverAll 0x24
      ([BitVec.ofNat 16 (event * 0x100 + cause),
        BitVec.ofNat 16 ((if p = .ap1 then 0x8000 else 0) + (if receive then 0x4000 else 0))] ++
        lowHigh frame ++ [BitVec.ofNat 16 (min count 0xFFFF)])
      [iAUDIO_EVENT] s.stamp (s.granted (portPage p))

/-- The frame count of a port: `APx_FCNT`; none is kept for the biphase link. -/
def State.fcnt (s : State) : AudioPort → Nat
  | .bph => 0
  | p => s.get32 (AP.FCNT_L.w (portNo p))

/-- One more frame edge. -/
def State.fcntUp (s : State) : AudioPort → State
  | .bph => s
  | p => s.add32 (AP.FCNT_L.w (portNo p)) 1

/-- Counters of an AP port; the biphase link has none of them. -/
def State.portCount (s : State) (x : Nat → Fld) (p : AudioPort) (n : Nat) : State :=
  match p with
  | .bph => s
  | p => s.addSat (x (portNo p)) n

end Sys2Proof.Machine
end

