-- ==== Sys2Proof/Machine/Capture.lean ====
section
/-! DEFINITION. The capture engine (spec 19): blocks, discontinuities, records, statistics, snippets and the spill. -/

namespace Sys2Proof.Machine

open R

/-- The TQ code byte KTIME holds. -/
def State.tq (s : State) : Nat := s.get KTIME_TQ.TQ

/-- Source, decimation and channel count of a capture (Table 19.3). -/
def Job.source (j : Job) : AudioPort := match j.b26 % 4 with | 1 => .ap0 | 2 => .ap1 | _ => .bph
def Job.decim (j : Job) : Nat := 2 ^ (j.b26 / 4 % 4)
def Job.analysis (j : Job) : Bool := j.b27 % 2 == 1
def Job.snippet (j : Job) : Bool := j.b27 / 2 % 2 == 1
def Job.spill (j : Job) : Bool := j.b27 / 4 % 2 == 1
def Job.snipLen (j : Job) : Nat := 64 * (j.b30 % 16 + 1)

/-- The first instant at or after the snippet's start (R439). -/
def Job.snipAt (j : Job) : Nat := j.start + (j.b31 * 2 ^ 24 + 9) / 10

/-- Which of the two biphase channels a capture stores. -/
def Job.bphChans (j : Job) : List Nat := [0, 1].filter (fun i => j.b26 / 2 ^ (4 + i) % 2 == 1)

/-- Stored channels and bytes of a stored frame. -/
def State.chanCount (s : State) (j : Job) : Nat :=
  match j.source with
  | .bph => j.bphChans.length
  | p => (s.slotsOn p true).length
def State.captBytes (s : State) (j : Job) : Nat := s.chanCount j * packSize (s.packOf j.source true)

/-- Bytes of the capture buffer not in use. -/
def State.captRoom (s : State) : Nat := 0x20000 - (s.capt.used.map BlkUse.len).sum

/-- Frames that still fit, the block under assembly and its header set aside (R436). -/
def State.captFrames (s : State) (j : Job) : Nat :=
  (s.captRoom - 16 - (match s.capt.new with | some b => b.data.length | none => 0)) / s.captBytes j

/-- Brings `CAPT_FREE` and the `APx_RXFREE` of the source up to date. -/
def State.showFree (s : State) : State :=
  match s.capt.job with
  | some j =>
    let n := s.captFrames j
    let s := s.putSat CAPT_FREE.w n
    match j.source with
    | .bph => s
    | p => s.putSat (AP.RXFREE.w (portNo p)) n
  | none => s

/-- A CAPTURE_BLOCK record for the owners of a capture (R437). -/
def State.captRec (s : State) (j : Job) (kind flags index w7 w89 tq stamp : Nat) (extra : List Word) (bits : List Nat) :
    State :=
  s.deliverAll 0x20
    ([BitVec.ofNat 16 (kind * 0x100 + flags), BitVec.ofNat 16 j.id] ++ lowHigh index ++
      [BitVec.ofNat 16 (min w7 0xFFFF)] ++ lowHigh w89 ++ [BitVec.ofNat 16 tq] ++ extra) bits (stamp % 2 ^ 32) j.owners

/-- The bytes of a number, lowest first. -/
def leBytes (n k : Nat) : List Byte := (List.range k).map (fun i => BitVec.ofNat 8 (n / 0x100 ^ i))

/-- A block in its memory layout, padded to a multiple of 4 bytes (Table 19.4, R435). -/
def BlkNew.bytes (b : BlkNew) : List Byte :=
  let raw := leBytes b.time 8 ++ [BitVec.ofNat 8 b.tq, BitVec.ofNat 8 b.flags] ++ leBytes b.frames 2 ++ leBytes b.index 4 ++ b.data
  raw ++ List.replicate ((4 - raw.length % 4) % 4) 0

/-- Drops oldest whole blocks until `need` bytes are free (R436, OVERWRITE = 1). -/
def dropOldest (need : Nat) : List BlkUse → List BlkUse
  | [] => []
  | b :: l => if need ≤ 0x20000 - ((b :: l).map BlkUse.len).sum then b :: l else dropOldest need l

/-- `CAPT_RPTR` stands at the oldest block in use, or at `CAPT_WPTR`. -/
def State.showRptr (s : State) : State :=
  match s.capt.used with
  | b :: _ => s.put CAPT_RPTR.w (b.start / 4)
  | [] => s.put CAPT_RPTR.w (s.get CAPT_WPTR.w)

/-- Writes the block under assembly into the buffer with its BLOCK record, when there is room for it (R435 to R437). -/
def State.writeBlock (s : State) : State :=
  match s.capt.job, s.capt.new with
  | some j, some b =>
    let bs := b.bytes
    let at0 := 4 * s.get CAPT_WPTR.w
    let skip := if 0x20000 < at0 + bs.length then 0x20000 - at0 else 0
    let at1 := if skip = 0 then at0 else 0
    let used := if s.bit CAPT_CFG.OVERWRITE then dropOldest (skip + bs.length) s.capt.used else s.capt.used
    if skip + bs.length ≤ 0x20000 - (used.map BlkUse.len).sum then
      let s := s.setBytes (0x100000 + at1) bs
      let s : State := { s with capt := { s.capt with
          new := none, count := s.capt.count + 1, used := used ++ [(⟨at0, skip + bs.length, at1⟩ : BlkUse)] } }
      let s := (s.put CAPT_WPTR.w ((at1 + bs.length) / 4 % 32768)).showRptr
      let s := if s.bit CAPT_CFG.BLKREC then
          s.captRec j 1 b.flags b.index b.frames (0x100000 + at1) b.tq b.time [] []
        else s
      s.showFree
    else s
  | _, _ => s

/-- The snippet window ends here with TRUNC, when it is open (R439). -/
def State.cutSnippet (s : State) : State :=
  match s.capt.snip with
  | some n => if n.closed ∨ n.got = 0 then s
              else { s with capt := { s.capt with snip := some { n with trunc := true, closed := true } } }
  | none => s

/-- A discontinuity of `n` frames whose first frame not stored has the stamp and TQ given (R436). -/
def State.discont (s : State) (stamp tq n : Nat) : State :=
  match s.capt.job with
  | some j =>
    let s := s.writeBlock.cutSnippet
    let s : State := { s with capt := { s.capt with disc := true, gap := none } }
    let s := (s.inc CAPT_CNT_DISC.w).addSat CAPT_CNT_LOST.w n
    s.captRec j 2 0 (s.get32 CAPT_FIDX_L.w) n 0 tq stamp [] []
  | none => s

/-- A fresh open sample of 32 bits. -/
def State.freshInt (s : State) : Int × State :=
  let (a, s) := s.fresh
  let (b, s) := s.fresh
  ((a ++ b).toInt, s)

/-- `n` fresh open samples. -/
def State.freshInts (s : State) : Nat → List Int × State
  | 0 => ([], s)
  | n + 1 =>
    let (v, s) := s.freshInt
    let (l, s) := s.freshInts n
    (v :: l, s)

/-- Adds one stored sample to a channel's sums. -/
def Chan.add (c : Chan) (v : Int) : Chan :=
  ⟨c.n + 1, c.s1 + v, c.s2 + v ^ 2, c.s3 + v ^ 3, c.s4 + v ^ 4, max c.peak v.natAbs⟩

/-- Adds a stored frame to the sums, channel by channel. -/
def addFrame : List Chan → List Int → List Chan
  | [], l => l.map (fun v => Chan.add ⟨0, 0, 0, 0, 0, 0⟩ v)
  | c :: cs, v :: vs => c.add v :: addFrame cs vs
  | cs, [] => cs

/-- One more snippet sample, when the window is open (R439). -/
def State.snipFrame (s : State) (j : Job) (time tq index : Nat) : State :=
  match s.capt.snip with
  | some n =>
    if n.closed ∨ time < j.snipAt then s
    else
      let marks := if n.got % 512 = 0 then n.marks ++ [(index, time, tq)] else n.marks
      { s with capt := { s.capt with
          snip := some { n with got := n.got + 1, marks := marks, closed := decide (n.got + 1 = j.snipLen) } } }
  | none => s

/-- Stores one frame: its stored channels as packed values, its instant, TQ and block flags (R434, R435, R438). -/
def State.storeFrame (s : State) (j : Job) (index : Nat) (vals : List Int) (time tq flags : Nat) : State :=
  let s := match s.capt.new with
    | some b => if s.get CAPT_BLK_FR.w ≤ b.frames then s.writeBlock else s
    | none => s
  let b : BlkNew := match s.capt.new with
    | some b => b
    | none => ⟨time, tq, if s.capt.disc then 1 else 0, 0, index, []⟩
  let b := { b with frames := b.frames + 1, flags := b.flags ||| flags,
                    data := b.data ++ vals.flatMap (packBytes (s.packOf j.source true)) }
  let acc := if j.analysis ∧ flags / 8 % 2 = 0 then addFrame s.capt.acc vals else s.capt.acc
  let s : State := { s with capt := { s.capt with new := some b, disc := false, acc := acc } }
  ((s.put32 CAPT_FIDX_L.w (index + 1)).snipFrame j time tq index).showFree

/-- An input frame of the source reaches the engine: stored when its instant lies in the capture and its number is a
multiple of D; decimated values are open (R432 to R434, log entry 20). One that is decimated away still flags its block. -/
def State.inputFrame (s : State) (j : Job) (words : List Int) (time tq flags : Nat) : State :=
  if time < j.start ∨ j.start + j.dur ≤ time then s
  else
    let s := if s.capt.input = none then s.put32 CAPT_T0_L.w (time % 2 ^ 32) else s
    let n := s.capt.input.getD 0
    let s : State := { s with capt := { s.capt with input := some (n + 1) } }
    if n % j.decim = 0 then
      let vals := words.map (toPacked (s.packOf j.source true) (s.wordW j.source))
      if j.decim = 1 then s.storeFrame j n vals time tq flags
      else
        let (vals, s) := s.freshInts vals.length
        s.storeFrame j (n / j.decim) vals time tq flags
    else
      { s with capt := { s.capt with new := s.capt.new.map (fun b => { b with flags := b.flags ||| flags }) } }

/-- Input frames that pass without being stored still number the frames after them (R434). -/
def State.skipFrames (s : State) (n : Nat) : State :=
  match s.capt.input with
  | some i => { s with capt := { s.capt with input := some (i + n) } }
  | none => s

/-! ### The receiver's state machine (R417) -/

/-- The receiver state field of a source. -/
def rxstFld : AudioPort → Fld
  | .bph => BPH_STAT.RXST
  | p => AP.STAT.RXST (portNo p)

/-- The frame rate a receiver counts its fades in: the port's, or the measured rate of `BPH_IN`. -/
def State.rxRate (s : State) : AudioPort → ℚ
  | .bph => (s.get32 BPH_RATE_L.w : ℚ) / 1000
  | p => s.frameRate p

/-- The receiver enters a state with its frame number and idle count; `CAPT_STAT` follows for `BPH_IN`. -/
def State.setRx (s : State) (p : AudioPort) (st j idle : Nat) : State :=
  let s := s.put (rxstFld p) st
  let s := if p = .bph then s.put CAPT_STAT.RXST st else s
  s.setPort p { s.port p with rx := ⟨j, idle⟩ }

/-- One frame edge of the source's receiver; with OVERWRITE = 1 the engine itself makes room (R436). -/
def State.rxEdge (s : State) (p : AudioPort) (j : Job) (words : List Int) (time tq flags : Nat) : State :=
  let rf := framesIn (s.get (fadeMs p)) (s.rxRate p)
  let rr := framesIn (s.get (rampMs p)) (s.rxRate p)
  let free := if s.bit CAPT_CFG.OVERWRITE then 0x20000 else s.captFrames j
  let d := (s.port p).rx
  let st0 := s.get (rxstFld p)
  let (st, k) := if st0 = 1 ∧ rf ≤ d.j then (2, 0) else if st0 = 3 ∧ rr ≤ d.j then (0, 0) else (st0, d.j)
  let put (s : State) (num den : Nat) : State := s.inputFrame j (words.map (gained num den)) time tq (flags ||| 8)
  match st with
  | 0 =>
    if free ≤ rf then
      let s := ((s.setRx p 1 1 0).putBit (evtFld p 1) true).portCount AP.CNT_FADE.w p 1
      put (s.audioEvent p true 3 2 (s.fcnt p) 0) (rf - 1) rf
    else (s.setRx p 0 0 0).inputFrame j words time tq flags
  | 1 => put (s.setRx p 1 (k + 1) 0) (rf - 1 - k) rf
  | 2 =>
    if s.get (lowat p) ≤ free then
      let s := match s.capt.gap with
        | some (gs, gt) => s.discont gs gt d.idle
        | none => s
      let s := s.audioEvent p true 4 2 (s.fcnt p) d.idle
      put (s.setRx p 3 1 0) 1 rr
    else
      let s := if d.idle = 0 then s.writeBlock.cutSnippet else s
      let s := if d.idle = 0 then { s with capt := { s.capt with gap := some (time, tq) } } else s
      ((s.setRx p 2 0 (d.idle + 1)).portCount AP.CNT_LOST.w p 1).skipFrames 1
  | _ => put (s.setRx p 3 (k + 1) 0) (k + 1) rr

/-- A frame of the recorded source arrives (R417, R436). -/
def State.sourceFrame (s : State) (p : AudioPort) (words : List Int) (time flags : Nat) : State :=
  match s.capt.job with
  | some j =>
    if j.source = p then s.rxEdge p j words time s.tq flags else s
  | none => s

/-! ### Start and end -/

/-- Frames not received while the biphase receiver was unlocked: elapsed time × the last measured rate, rounded down
(R424). -/
def State.lostFrames (s : State) : Nat :=
  match s.bph.lostAt with
  | some t =>
    let now := match s.capt.job with | some j => min s.ktime (j.start + j.dur) | none => s.ktime
    (⌊((now - t : Nat) : ℚ) / 2 ^ 24 * s.rxRate .bph⌋).toNat
  | none => 0

/-- Closes an open discontinuity with the frames counted so far. -/
def State.closeGap (s : State) (j : Job) : State :=
  match s.capt.gap with
  | some (gs, gt) =>
    let n := (s.port j.source).rx.idle + if j.source = .bph then s.lostFrames else 0
    let s := (s.discont gs gt n).skipFrames (if j.source = .bph then s.lostFrames else 0)
    { s with bph := { s.bph with lostAt := none } }
  | none => s

/-- The biphase receiver stands unlocked in a capture of its own: from now, or from the start instant, frames are missing
(R424, R433). -/
def State.bphUnlock (s : State) : State :=
  let s : State := { s with bph := { s.bph with half := none, cs := [], user := [] } }
  match s.capt.job with
  | some j =>
    if j.source = .bph then
      let s := s.writeBlock.cutSnippet
      let t := max s.ktime j.start
      { s with
        capt := { s.capt with gap := some (s.capt.gap.getD (t, s.tq)) },
        bph := { s.bph with lostAt := some t } }
    else s
  | none => s

/-- A waiting capture begins: CAPTURE, the source enabled (R433). -/
def State.captBegin (s : State) (j : Job) (rest : List Job) : State :=
  let s := s.account.incWrap CAPT_ID.w
  let j : Job := { j with id := s.get CAPT_ID.w }
  let s : State := { s with capt := { s.capt with
      due := rest, job := some j, input := none, new := none, count := 0, disc := false, gap := none, acc := [],
      snip := if j.snippet then some ⟨0, [], false, false⟩ else none } }
  let s := ((s.put CAPT_STAT.RUN 1).putBit CAPT_STAT.ANALYSIS j.analysis).put CAPT_STAT.SOURCE (j.b26 % 4)
  let s := s.putBit CAPT_STAT.SHARED (1 < j.owners.length)
  let s := if s.bit BPH_STAT.LOCK then s else s.bphUnlock
  let clear (p : AudioPort) (s : State) : State := s.setPort p { s.port p with late := false, barred := false }
  let s := clear .bph (clear .ap1 (clear .ap0 s))
  ((s.put32 CAPT_FIDX_L.w 0).setAct MODE.CAPTURE_ACT true).showFree

/-- The running capture ends: its open discontinuity and last block are closed and END is delivered; statistics, the
snippet and the spill fall due, and the trim is set (R433, R437, R438, R440, R362). -/
def State.captEnd (s : State) (flags : Nat) : State :=
  match s.capt.job with
  | some j =>
    let s := (s.account.closeGap j).writeBlock
    let s := match s.capt.snip with
      | some n => { s with capt := { s.capt with snip := some { n with trunc := n.trunc || !n.closed, closed := true } } }
      | none => s
    let s := s.captRec j 6 (flags + if s.capt.input = none then 0x40 else 0) (s.get32 CAPT_FIDX_L.w) s.capt.count 0 s.tq
      s.stamp [] []
    let past : Past := ⟨j, s.capt.acc, s.capt.snip, s.ktime, s.tq, s.get32 CAPT_FIDX_L.w⟩
    let s : State := { s with
      capt := { s.capt with job := none, past := some past, snip := none, statsDue := j.analysis, spillDue := j.spill } }
    let s := ((s.put CAPT_STAT.RUN 0).put CAPT_STAT.SHARED 0).putBit CAPT_STAT.SPILLING j.spill
    let s := (s.put BPH_STAT.LOCK 0).setRx .bph 0 0 0
    let s := if j.spill then s.setAct MODE.MAINTAIN_ACT true else s
    s.setTrim.setAct MODE.CAPTURE_ACT (s.capt.due ≠ [])
  | none => s

/-! ### Statistics (R438) -/

/-- The greatest whole `n` at most `start + fuel` with `10^n ≤ q^100`: 100 × log₁₀ q, rounded down. -/
def logFloor (q : ℚ) (start : Int) : Nat → Int
  | 0 => start
  | k + 1 => if (10 : ℚ) ^ (start + (k + 1 : Nat)) ≤ q ^ 100 then start + (k + 1 : Nat) else logFloor q start k

/-- A power ratio in 0.1 dB; the direction of its rounding is open (log entry 11), and silence has no level. -/
def tenthDb (q : ℚ) : Option Int :=
  if q ≤ 0 then none
  else
    let n := logFloor q (-2000) 4000
    some (if (10 : ℚ) ^ n = q ^ 100 then n else if Config.roundsUp q then n + 1 else n)

/-- The RMS level, crest factor and kurtosis words of a channel with the given packed width; a value the spec does not
state is fresh. -/
def State.chanWords (s : State) (bits : Nat) (c : Chan) : List Word × State :=
  let full : ℚ := 2 ^ (bits - 1)
  let ms : ℚ := (c.s2 : ℚ) / c.n / full ^ 2
  let m : ℚ := (c.s1 : ℚ) / c.n
  let m2 : ℚ := (c.s2 : ℚ) / c.n - m ^ 2
  let m4 : ℚ := (c.s4 : ℚ) / c.n - 4 * m * c.s3 / c.n + 6 * m ^ 2 * c.s2 / c.n - 3 * m ^ 4
  let word (v : Option Int) (s : State) : Word × State :=
    match v with | some i => (BitVec.ofInt 16 i, s) | none => s.fresh
  let (rms, s) := word (if c.n = 0 then none else tenthDb (2 * ms)) s
  let (crest, s) := word (if c.n = 0 then none else tenthDb ((c.peak : ℚ) ^ 2 / full ^ 2 / ms)) s
  let (freq, s) := s.fresh
  let (kurt, s) := word (if m2 = 0 then none else some (Config.round (100 * m4 / m2 ^ 2))) s
  ([rms, crest, freq, kurt], s)

/-- The eight band words: open, but 0x8000 where the band's upper edge lies above half the stored rate. -/
def State.bandWords (s : State) (rate : ℚ) : Nat → List Word × State
  | 0 => ([], s)
  | k + 1 =>
    let (l, s) := s.bandWords rate k
    if rate / 2 < 15.625 * 2 ^ (k + 1) then (l ++ [0x8000], s)
    else
      let (v, s) := s.fresh
      (l ++ [v], s)

/-- The STATS records of a capture, channel by channel, stamped at its end. -/
def State.statsFrom (s : State) (p : Past) (ok : Bool) (i : Nat) : List Chan → State
  | [] => s
  | c :: l =>
    let rate := s.rxRate p.job.source / p.job.decim
    let s := if ok then
        let (b, s) := s.bandWords rate 8
        let (w, s) := s.chanWords (packBits (s.packOf p.job.source true)) c
        s.captRec p.job 3 0 p.index i 0 p.tq p.at_ (b ++ w) []
      else s.captRec p.job 3 0x40 p.index i 0 p.tq p.at_ (List.replicate 12 0x8000) []
    s.statsFrom p ok (i + 1) l

/-- `STATS`: one record per stored channel; a Pika job past its timeout, or one that Pika cannot take, gives NODSP (R438,
Table 1.5, R85). -/
def execStats (pikaOk : Bool) (s : State) : Host.Outcome State Fault Refusal :=
  .next (match s.capt.past with
    | some p =>
      if s.capt.statsDue then
        let pikaOk := pikaOk && s.pikaServes
        let chans := p.acc ++ List.replicate (s.chanCount p.job - p.acc.length) (⟨0, 0, 0, 0, 0, 0⟩ : Chan)
        let s := s.statsFrom p pikaOk 0 chans
        let s := if pikaOk then s else (s.inc CAPT_CNT_DSP.w).noteFault
        { s with capt := { s.capt with statsDue := false } }
      else s
    | none => s)

/-- `n` fresh open words. -/
def State.freshWords (s : State) : Nat → List Word × State
  | 0 => ([], s)
  | n + 1 =>
    let (v, s) := s.fresh
    let (l, s) := s.freshWords n
    (v :: l, s)

/-- The SNIPPET records: at most 512 samples each, MORE on all but the last, TRUNC on a last one that was cut. -/
def State.snipRecs (s : State) (j : Job) (trunc : Bool) (left : Nat) : List (Nat × Nat × Nat) → State
  | [] => s
  | (index, time, tq) :: l =>
    let n := min left 512
    let (ws, s) := s.freshWords n
    let s := s.captRec j 4 (if l = [] then (if trunc then 0x20 else 0) else 0x40) index n 0 tq time ws []
    s.snipRecs j trunc (left - n) l

/-- `SNIPPET`: the filtered snippet, whose sample values are open (R439, log entry 20). Without Pika there is none (Table 1.5,
log entry 181). -/
def execSnippet (s : State) : Host.Outcome State Fault Refusal :=
  .next (match s.capt.past with
    | some p => match p.snip with
      | some n =>
        let marks := if n.marks = [] then [(p.index, p.at_, p.tq)] else n.marks
        let s := if s.pikaServes then s.snipRecs p.job n.trunc n.got marks else s
        { s with capt := { s.capt with past := some { p with snip := none } } }
      | none => s
    | none => s)

/-- `CAPTURE_BLOCK_WRITE`: a block that holds `CAPT_BLK_FR` frames goes into the buffer (R435). -/
def execCaptureBlockWrite (s : State) : Host.Outcome State Fault Refusal :=
  .next (match s.capt.new with
    | some b => if s.get CAPT_BLK_FR.w ≤ b.frames then s.writeBlock else s
    | none => s)

/-- Releases `n` bytes from the oldest blocks; a block released in part keeps its rest (R436). -/
def release (n : Nat) : List BlkUse → List BlkUse
  | [] => []
  | b :: l => if n = 0 then b :: l else if b.len ≤ n then release (n - b.len) l
              else ⟨(b.start + n) % 0x20000, b.len - n, b.pos⟩ :: l

/-- A write of `CAPT_REL` (R436). -/
def State.captRel (s : State) (v : Word) : State :=
  ({ s with capt := { s.capt with used := release (4 * v.toNat) s.capt.used } } : State).showRptr.showFree

/-- The start instant less `CAPT_LEAD` has come for the first waiting capture. -/
def State.captDue (s : State) : Bool :=
  match s.capt.due with
  | j :: _ => s.capt.job.isNone && j.start ≤ s.ktime + s.captLead
  | [] => false

/-- `CAPTURE_START` (R433), once XO is qualified (R69, R84). -/
def execCaptureStart (s : State) : Host.Outcome State Fault Refusal :=
  .next (match s.capt.due with
    | j :: rest => if s.captDue ∧ s.bit CLK_STAT.XO_OK then s.captBegin j rest else s
    | [] => s)

/-- `CAPTURE_END`: every frame before the start instant plus the duration has been stored (R433). -/
def execCaptureEnd (s : State) : Host.Outcome State Fault Refusal :=
  .next (match s.capt.job with
    | some j => if j.start + j.dur ≤ s.ktime then s.captEnd 0 else s
    | none => s)

end Sys2Proof.Machine
end

