-- ==== Sys2Proof/Machine/Audio.lean ====
section
/-! DEFINITION. The serial audio ports (spec 18) and the biphase link (spec 19). -/

namespace Sys2Proof.Machine

open R

/-! ### Arming (R412) -/

/-- A transmit or receive direction as a set of control bits would enable it. -/
def State.txOn (s : State) : AudioPort → Bool
  | .bph => true
  | p => s.bit (AP.CTL.TX (portNo p))
def State.rxOn (s : State) : AudioPort → Bool
  | .bph => false
  | p => s.bit (AP.CTL.RX (portNo p))

/-- The port is armed. -/
def State.armed (s : State) : AudioPort → Bool
  | .bph => s.bit BPH_CTL.OUT_ARM
  | p => s.bit (AP.CTL.ARM (portNo p))

/-- SLOTS fits the format (Table 18.1). -/
def slotsFit (format slots : Nat) : Bool :=
  match format with
  | 0 => slots == 2
  | 1 => slots == 2
  | 2 => slots ≤ 2
  | _ => slots ≤ 8

/-- A direction's slot mask names at least one slot and none at or above SLOTS. -/
def maskFits (mask slots : Nat) : Bool := mask != 0 && mask < 2 ^ slots

/-- Settings of an AP port that R412 answers with BAD_ARG. -/
def State.armBad (s : State) (p : AudioPort) : Bool :=
  !slotsFit (s.get (AP.FMT.FORMAT (portNo p))) (s.slots p) || s.slotW p < s.wordW p ||
  (!s.txOn p && !s.rxOn p) || (p == .ap1 && s.txOn p && s.rxOn p) ||
  (s.txOn p && !maskFits (s.get (AP.SLOTEN.TXS (portNo p))) (s.slots p)) ||
  (s.rxOn p && !maskFits (s.get (AP.SLOTEN.RXS (portNo p))) (s.slots p)) ||
  decide (s.bclk p < 128000) || decide (12288000 < s.bclk p)

/-- Settings that R412 answers with RESOURCE. -/
def State.armShort (s : State) (p : AudioPort) : Bool :=
  s.get (lowat p) ≤ s.fadeLen p + s.rampLen p ||
  (s.txOn p && 16384 / s.frameBytes p false < s.get (lowat p)) ||
  (p != .bph && s.bit (AP.CTL.TX 0) && s.bit (AP.CTL.TX 1) && (p == .ap0 || s.armed .ap0) && (p == .ap1 || s.armed .ap1) &&
    s.frameBytes .ap0 false != s.frameBytes .ap1 false)

/-- The error a set of ARM meets; none when it succeeds. For `BPH_OUT` the frame range replaces the BCLK range (R428). -/
def State.armError (s : State) (p : AudioPort) : Nat :=
  let bad := match p with
    | .bph => decide (s.frameRate .bph < 28000) || decide (100000 < s.frameRate .bph)
    | p => s.armBad p
  if bad then eBADARG else if s.armShort p then eRES else 0

/-- The control bit that arms a port. -/
def armFld : AudioPort → Fld
  | .bph => BPH_CTL.OUT_ARM
  | p => AP.CTL.ARM (portNo p)

/-- A port armed from 0 is checked; a port armed while a capture runs starts on its own (Table 18.4). -/
def State.tryArm (s : State) (f : Fn) (p : AudioPort) : State :=
  let e := s.armError p
  if e = 0 then
    let s := s.put (armFld p) 1
    s.setPort p { s.port p with late := s.capt.job.any (fun j => decide (j.start ≤ s.ktime)) }
  else s.setErr f e

/-- A write of `APx_CTL` or `BPH_CTL` by a function (R412). -/
def State.ctlWrite (s : State) (f : Fn) (p : AudioPort) (v : Word) : State :=
  let was := s.armed p
  match p with
  | .bph =>
    let s := (((s.put BPH_CTL.UMSG_RX (v.toNat / 8)).put BPH_CTL.UMSG_TX (v.toNat / 4)).put BPH_CTL.IN_ARM v.toNat)
    let s := if v.toNat % 2 = 0 ∧ s.bit BPH_STAT.LOCK then (s.put BPH_STAT.LOCK 0).bphUnlock else s
    if v.toNat / 2 % 2 = 0 then s.put BPH_CTL.OUT_ARM 0 else if was then s else s.tryArm f .bph
  | p =>
    let old := s.get (AP.CTL.RX (portNo p)) * 2 + s.get (AP.CTL.TX (portNo p))
    let s := if (s.port p).run then (if old = v.toNat / 2 % 4 then s else s.setErr f eBUSY)
      else (s.put (AP.CTL.RX (portNo p)) (v.toNat / 4)).put (AP.CTL.TX (portNo p)) (v.toNat / 2)
    if v.toNat % 2 = 0 then s.put (AP.CTL.ARM (portNo p)) 0 else if was then s else s.tryArm f p

/-! ### Start and stop (R408, R409, R415) -/

/-- Shows whether a port runs. -/
def State.showRun (s : State) (p : AudioPort) (b : Bool) : State :=
  match p with
  | .bph => s.putBit BPH_STAT.OUT_RUN b
  | p => s.putBit (AP.STAT.RUN (portNo p)) b

/-- A running port stops, with the cause of Table 18.3. -/
def State.stopPort (s : State) (p : AudioPort) (cause : Nat) : State :=
  if (s.port p).run then
    let s := if p = .bph then s else s.audioEvent p (!s.txOn p) 2 cause (s.fcnt p) 0
    let s := s.setPort p { s.port p with run := false, out := [] }
    s.showRun p false
  else s

/-- An armed port may start: a capture runs, its start instant has come or the port was armed inside it. -/
def State.mayStart (s : State) (p : AudioPort) : Bool :=
  match s.capt.job with
  | some j => s.armed p && !(s.port p).run && !(s.port p).barred && ((s.port p).late || decide (j.start ≤ s.ktime))
  | none => false

/-- `AP_PORT_START`: frame 0 at full gain, or STOPPED with cause clock (R408, R409, R415, Table 18.4). -/
def execApPortStart (port : AudioPort) (s : State) : Host.Outcome State Fault Refusal :=
  .next (if s.mayStart port then
    if s.portClock port then
      let late := (s.port port).late
      let s := s.setPort port { s.port port with tx := ⟨0, 0⟩, rx := ⟨0, 0⟩, run := true, late := false }
      let s := (s.showRun port true).put (txstFld port) 0
      match port with
      | .bph => { s with bph := { s.bph with blocks := 0, frame := 0, msg := [] } }
      | p =>
        let s := ((s.put (AP.STAT.RXST (portNo p)) 0).put32 (AP.FCNT_L.w (portNo p)) 0).put32 (AP.T0_L.w (portNo p)) s.stamp
        s.audioEvent p (!s.txOn p) 1 (if late then 2 else 1) 0 0
    else
      let s := s.setPort port { s.port port with barred := true }
      if port = .bph then s else s.audioEvent port (!s.txOn port) 2 4 0 0
  else s)

/-- `AP_PORT_STOP`: at the end of the frame in progress, because the capture has ended or ARM was cleared (R415). -/
def execApPortStop (port : AudioPort) (s : State) : Host.Outcome State Fault Refusal :=
  .next (if s.capt.job.isNone then s.stopPort port 1 else if s.armed port then s else s.stopPort port 2)

/-! ### The transmitter (R416) -/

/-- Sends one frame from the ring under a gain; with less than one frame in the ring every slot is 0. -/
def State.sendFrame (s : State) (p : AudioPort) (num den : Nat) : State :=
  let b := s.frameBytes p false
  if 1 ≤ s.ringLevel p then
    let words := (s.unpackFrame p false (s.ringRead p (s.get (rptrFld p)) b)).map (gained num den)
    let s := s.put (rptrFld p) ((s.get (rptrFld p) + b) % 16384)
    s.setPort p { s.port p with out := words }
  else s.setPort p { s.port p with out := List.replicate (s.slotsOn p false).length 0 }

/-- The transmitter enters a state with its frame number and idle count. -/
def State.setTx (s : State) (p : AudioPort) (st j idle : Nat) : State :=
  let s := s.put (txstFld p) st
  s.setPort p { s.port p with tx := ⟨j, idle⟩ }

/-- One frame edge of a transmitter. -/
def State.txEdge (s : State) (p : AudioPort) : State :=
  let rf := s.fadeLen p
  let rr := s.rampLen p
  let level := s.ringLevel p
  let d := (s.port p).tx
  let st0 := s.get (txstFld p)
  let (st, k) := if st0 = 1 ∧ rf ≤ d.j then (if s.get (lowat p) ≤ level then (3, 0) else (2, 0))
    else if st0 = 3 ∧ rr ≤ d.j then (0, 0) else (st0, d.j)
  match st with
  | 0 =>
    if level ≤ rf then
      let s := ((s.setTx p 1 1 0).putBit (evtFld p 0) true).portCount AP.CNT_FADE.w p 1
      (s.audioEvent p false 3 1 (s.fcnt p) 0).sendFrame p (rf - 1) rf
    else (s.setTx p 0 0 0).sendFrame p 1 1
  | 1 => (s.setTx p 1 (k + 1) 0).sendFrame p (rf - 1 - k) rf
  | 2 =>
    if s.get (lowat p) ≤ level then
      ((s.setTx p 3 1 0).audioEvent p false 4 1 (s.fcnt p) d.idle).sendFrame p 1 rr
    else
      let s := (s.setTx p 2 0 (d.idle + 1)).portCount AP.CNT_LOST.w p 1
      s.setPort p { s.port p with out := List.replicate (s.slotsOn p false).length 0 }
  | _ => (s.setTx p 3 (k + 1) 0).sendFrame p (k + 1) rr

/-- `AP_TX_FRAME_EDGE` (R416, R419). -/
def execApTxFrameEdge (port : AudioPort) (s : State) : Host.Outcome State Fault Refusal :=
  .next (match port with
    | .bph => s
    | p => if (s.port p).run ∧ s.txOn p then ((s.txEdge p).fcntUp p).showLevels else s)

/-- `AP_RX_FRAME_EDGE`: the slot words of a frame reach the capture engine when it records this port; otherwise they are
discarded (R408, R417). -/
def execApRxFrameEdge (port : AudioPort) (slots : List Int) (s : State) : Host.Outcome State Fault Refusal :=
  .next (match port with
    | .bph => s
    | p =>
      if (s.port p).run ∧ s.rxOn p then
        let s := s.sourceFrame p ((s.slotsOn p true).map (fun i => slots.getD i 0)) s.ktime 0
        if s.txOn p then s else s.fcntUp p
      else s)

/-- `AP_HARD_LOSS`: samples lost without a fade; the direction enters RAMP (R418). -/
def execApHardLoss (port : AudioPort) (receive : Bool) (samples : Nat) (s : State) : Host.Outcome State Fault Refusal :=
  .next (if (s.port port).run ∧ (if receive then s.rxOn port else s.txOn port) ∨
      (port = AudioPort.bph ∧ receive ∧ s.bit BPH_STAT.LOCK) then
    let s := (s.putBit (evtFld port (if receive then 3 else 2)) true).portCount AP.CNT_HARD.w port samples
    let s := s.audioEvent port receive 5 (if receive then 2 else 1) (s.fcnt port) samples
    if receive then
      let n := (samples + (s.slotsOn port true).length - 1) / (s.slotsOn port true).length
      let mine := match s.capt.job with | some j => decide (j.source = port) | none => false
      let s := if mine then (s.discont s.ktime s.tq n).skipFrames n else s
      s.setRx port 3 0 0
    else s.setTx port 3 0 0
  else s)

/-! ### The output ring (R414) -/

/-- A write of `AP0_WPTR` or `BPH_WPTR`: refused when it would overrun a running or armed transmitter. -/
def State.wptrWrite (s : State) (f : Fn) (p : AudioPort) (v : Word) : State :=
  if 16384 ≤ v.toNat then s.setErr f eBADARG
  else
    let a := (v.toNat + 16384 - s.get (wptrFld p) % 16384) % 16384
    let full (q : AudioPort) : Bool :=
      s.txOn q && ((s.port q).run || s.armed q) && 16384 - s.frameBytes q false < s.ringBytes q + a
    let tooFar := match p with | .bph => full .bph | _ => full .ap0 || full .ap1
    if tooFar then s.setErr f eRES else (s.put (wptrFld p) v.toNat).showLevels

/-- RING_RST of the ring a port reads (R414). -/
def State.ringRst (s : State) (f : Fn) (p : AudioPort) : State :=
  match p with
  | .bph =>
    if s.ap.bph.run then s.setErr f eBUSY else ((s.put BPH_WPTR.w 0).put BPH_RPTR.w 0).showLevels
  | _ =>
    if (s.ap.p0.run && s.txOn .ap0) || (s.ap.p1.run && s.txOn .ap1) then s.setErr f eBUSY
    else (((s.put (AP.WPTR.w 0) 0).put (AP.RPTR.w 0) 0).put (AP.RPTR.w 1) 0).showLevels

/-! ### The biphase receiver (R424 to R427, R430) -/

/-- The receiver runs: a CAPTURE activity with `IN_ARM` (R423). -/
def State.bphRuns (s : State) : Bool := s.capt.job.isSome && s.bit BPH_CTL.IN_ARM

/-- `BPH_LOCK`: two B preambles 192 frames apart with no violation between them (R424). -/
def execBphLock (apart : Nat) (violation : Bool) (s : State) : Host.Outcome State Fault Refusal :=
  .next (if s.bphRuns ∧ ¬ s.bit BPH_STAT.LOCK ∧ apart = 192 ∧ ¬ violation then
    let s : State := { s with bph := { s.bph with half := none, cs := [], user := [], rateRef := none } }
    let s : State := match s.capt.job with
      | some j =>
        if j.source = AudioPort.bph then
          if j.start < s.ktime then s.closeGap j
          else { s with capt := { s.capt with gap := none }, bph := { s.bph with lostAt := none } }
        else s
      | none => s
    s.put BPH_STAT.LOCK 1
  else s)

/-- `BPH_LOCK_LOST`: three expected preambles missing in a row, or violations in 8 successive frames (R424). -/
def execBphLockLost (missing violated : Nat) (s : State) : Host.Outcome State Fault Refusal :=
  .next (if s.bit BPH_STAT.LOCK ∧ (3 ≤ missing ∨ 8 ≤ violated) then
    let s := ((s.put BPH_STAT.LOCK 0).inc BPH_CNT_LOCK.w).put BPH_EVT.LOCK_LOST 1
    let s := s.raiseIn iAUDIO_EVENT (s.granted 0x15)
    s.bphUnlock
  else s)

/-- `BPH_SUBFRAME`: parity and validity are judged, channel-status and user bits of subframe A are gathered, and a whole
frame goes to the capture engine (R425). -/
def execBphSubframe (pre : Preamble) (word : BitVec 24) (valid user status parityOk : Bool) (s : State) :
    Host.Outcome State Fault Refusal :=
  .next (if s.bit BPH_STAT.LOCK then
    let v : Int := if parityOk then word.toInt else 0
    let s := if parityOk then s else s.inc BPH_CNT_PARITY.w
    let s := if valid then s else s.inc BPH_CNT_INVALID.w
    let half := some (v, !parityOk, !valid)
    match pre with
    | .b => { s with bph := { s.bph with half := half, halfAt := s.ktime, cs := [status], user := [user],
                                         blockAt := s.ktime } }
    | .m => { s with bph := { s.bph with half := half, halfAt := s.ktime, cs := s.bph.cs ++ [status],
                                         user := s.bph.user ++ [user] } }
    | .w => match s.bph.half with
      | some (a, par, inv) =>
        let chans := match s.capt.job with | some j => j.bphChans | none => []
        let flags := (if par || !parityOk then 2 else 0) + (if inv || !valid then 4 else 0)
        let s := s.sourceFrame .bph (chans.map (fun c => if c = 0 then a else v)) s.bph.halfAt flags
        { s with bph := { s.bph with half := none } }
      | none => s
  else s)

/-- Byte `i` of a bit list, first bit least significant (channel status, IEC 60958; log entry 21). -/
def byteLsb (l : List Bool) (i : Nat) : Nat :=
  ((l.drop (8 * i)).take 8).foldr (fun b a => (if b then 1 else 0) + 2 * a) 0

/-- Byte `i` of a bit list, first bit most significant (R429). -/
def byteMsb (l : List Bool) (i : Nat) : Nat :=
  ((l.drop (8 * i)).take 8).foldl (fun a b => 2 * a + (if b then 1 else 0)) 0

/-- The rate class a sampling-frequency code names; 0 none (log entry 21). -/
def codeClass : Nat → Nat
  | 0 => 2
  | 2 => 3
  | 3 => 1
  | 8 => 4
  | 10 => 5
  | _ => 0

/-- The UMSG flag of a block already in the buffer. -/
def State.markOld (s : State) (time : Nat) : State :=
  match s.capt.used.reverse.find? (fun u => s.le (0x100000 + u.pos) 8 ≤ time) with
  | some u => s.setByte (0x100000 + u.pos + 9) (s.byte (0x100000 + u.pos + 9) ||| 0x10)
  | none => s

/-- Sets the UMSG flag on the capture block that holds the frame of an instant (R430). -/
def State.markUmsg (s : State) (time : Nat) : State :=
  match s.capt.new with
  | some b =>
    if b.time ≤ time then { s with capt := { s.capt with new := some { b with flags := b.flags ||| 0x10 } } }
    else s.markOld time
  | none => s.markOld time

/-- Writes words into neighbouring registers. -/
def State.putWords (s : State) (key : Nat) : List Nat → State
  | [] => s
  | v :: l => (s.put ⟨key, 15, 0⟩ v).putWords (key + 1) l

/-- A good stamp message is latched with its local stamp (R430). -/
def State.umsgCheck (s : State) : State :=
  let m := (List.range 24).map (byteMsb s.bph.user)
  let bs : List Byte := m.map (BitVec.ofNat 8)
  if s.bit BPH_CTL.UMSG_RX ∧ m.take 3 = [0x4B, 0x54, 1] ∧ crc8 (bs.take 23) = bs.getD 23 0 then
    let s := s.putWords 0x15A0 ((List.range 12).map (fun i => m.getD (2 * i) 0 * 0x100 + m.getD (2 * i + 1) 0))
    let s := (s.put32 BPH_UMSG_LT_L.w (s.bph.blockAt % 2 ^ 32)).put BPH_STAT.UMSG_OK 1
    s.markUmsg s.bph.blockAt
  else s

/-- `BPH_BLOCK_END`: 192 frames without a loss of lock end a block (R426, R430). -/
def execBphBlockEnd (s : State) : Host.Outcome State Fault Refusal :=
  .next (if s.bit BPH_STAT.LOCK ∧ s.bph.cs.length = 192 then
    let b (i : Nat) : Nat := byteLsb s.bph.cs i
    let s1 := s.putWords 0x1586 [b 0 * 0x100 + b 1, b 2 * 0x100 + b 3, b 4 * 0x100 + b 5]
    let s1 := (s1.put BPH_STAT.PRO (b 0)).put BPH_STAT.NONAUDIO (b 0 / 2)
    let coded := codeClass (b 3 % 16)
    let s1 := s1.putBit BPH_STAT.CS_MISMATCH (coded != 0 && coded != s.get BPH_STAT.CLASS)
    let s1 := s1.umsgCheck
    { s1 with bph := { s1.bph with cs := [], user := [] } }
  else s)

/-- Nominal rates in mHz by class (Table 19.1). -/
def rateClasses : List (Nat × Nat) := [(1, 32000000), (2, 44100000), (3, 48000000), (4, 88200000), (5, 96000000)]

/-- The class of a rate within ±2 % of a nominal rate, with that nominal; class 0 where there is none (R427). -/
def classOf (mHz : Nat) : Nat × Nat :=
  (rateClasses.find? (fun c => 98 * c.2 ≤ 100 * mHz && 100 * mHz ≤ 102 * c.2)).getD (0, 0)

/-- The 16-bit code of a value held at the ends of the signed range. -/
def satCode (i : Int) : Nat := code16 (max (-0x7FFF) (min 0x7FFF i))

/-- `BPH_RATE_MEASURE`: the rate of a 1 s window, counted against XO (R427). -/
def execBphRateMeasure (mHz : Nat) (s : State) : Host.Outcome State Fault Refusal :=
  .next (if s.bit BPH_STAT.LOCK then
    let e := s.get TIME_XO_ERR.w
    let rate := if e = 0x8000 then mHz else roundNat ((mHz : ℚ) * (1 + (signed16 e : ℚ) / 10 ^ 9))
    let (cls, nom) := classOf rate
    let ppm : Int := if cls = 0 then -0x8000
      else max (-0x7FFF) (min 0x7FFF (Config.round (((rate : ℚ) - nom) * 10 ^ 7 / nom)))
    let s := ((s.put32 BPH_RATE_L.w (rate % 2 ^ 32)).put BPH_STAT.CLASS cls).put BPH_RATE_PPM.w (code16 ppm)
    let changed := match s.bph.rateRef with
      | none => true
      | some (p, c) => c != cls || decide (10 * (s.get BPH_PPM_THR.w : Int) < (ppm - p).natAbs)
    if changed then
      let s : State := { s with bph := { s.bph with rateRef := some (ppm, cls) } }
      let s := (s.put BPH_EVT.RATE 1).raiseIn iRATE_CHANGE (s.granted 0x15)
      match s.capt.job with
      | some j => s.captRec j 7 0 (s.get32 CAPT_FIDX_L.w) cls rate s.tq s.stamp [] []
      | none => s
    else s
  else s)

/-! ### The biphase transmitter (R428, R429) -/

/-- The stamp message of a block (Table 19.2). -/
def State.stampMsg (s : State) : List Byte :=
  let m : List Byte := [0x4B, 0x54, 1, BitVec.ofNat 8 s.tq] ++ (leBytes s.ktime 8).reverse ++
    (leBytes s.bph.blocks 4).reverse ++ [if s.pins.role then 0x80 else 0] ++ List.replicate 6 0
  m ++ [crc8 m]

/-- Bit `i` of a byte list, most significant bit of each byte first. -/
def bitMsb (l : List Byte) (i : Nat) : Bool := (l.getD (i / 8) 0).getLsbD (7 - i % 8)

/-- The channel-status bit of frame `i`: bytes 0 to 5 from `BPH_OCS0` to `BPH_OCS2`, bit 0 always 0. -/
def State.outStatus (s : State) (i : Nat) : Bool :=
  if i = 0 ∨ 48 ≤ i then false
  else (s.get (BPH_OCS.w (i / 16)) / 2 ^ ((if i / 8 % 2 = 0 then 8 else 0) + i % 8)) % 2 == 1

/-- `BPH_OUT_FRAME`: one frame under the transmitter's state machine, with its user and channel-status bits. -/
def execBphOutFrame (s : State) : Host.Outcome State Fault Refusal :=
  .next (if s.ap.bph.run then
    let i := s.bph.frame
    let msg := if i = 0 then (if s.bit BPH_CTL.UMSG_TX then s.stampMsg else []) else s.bph.msg
    let s := (s.txEdge .bph).showLevels
    { s with bph := { s.bph with msg := msg, bits := (bitMsb msg i, s.outStatus i), frame := (i + 1) % 192,
                                 blocks := if i = 191 then s.bph.blocks + 1 else s.bph.blocks } }
  else s)

end Sys2Proof.Machine
end

