-- ==== Sys2Proof/Machine/Crypto.lean ====
section
/-! DEFINITION. The arithmetic of Hedgehog and Flint on lists of bytes: SHA-256 (FIPS 180-4) and ECDSA over P-256 (FIPS
186-5), which R117, R146 and R384 name, and AES-128 with AES-CMAC (FIPS 197, NIST SP 800-38B), which R384 and R391 name (log
entry 173). -/

namespace Sys2Proof.Machine.Crypto

/-! ### SHA-256 -/

/-- Round constants 0 to 63. -/
def shaK : List Nat :=
  ([0x428A2F98, 0x71374491, 0xB5C0FBCF, 0xE9B5DBA5, 0x3956C25B, 0x59F111F1, 0x923F82A4, 0xAB1C5ED5,
     0xD807AA98, 0x12835B01, 0x243185BE, 0x550C7DC3, 0x72BE5D74, 0x80DEB1FE, 0x9BDC06A7, 0xC19BF174] ++
    [0xE49B69C1, 0xEFBE4786, 0x0FC19DC6, 0x240CA1CC, 0x2DE92C6F, 0x4A7484AA, 0x5CB0A9DC, 0x76F988DA,
     0x983E5152, 0xA831C66D, 0xB00327C8, 0xBF597FC7, 0xC6E00BF3, 0xD5A79147, 0x06CA6351, 0x14292967] ++
    [0x27B70A85, 0x2E1B2138, 0x4D2C6DFC, 0x53380D13, 0x650A7354, 0x766A0ABB, 0x81C2C92E, 0x92722C85,
     0xA2BFE8A1, 0xA81A664B, 0xC24B8B70, 0xC76C51A3, 0xD192E819, 0xD6990624, 0xF40E3585, 0x106AA070] ++
    [0x19A4C116, 0x1E376C08, 0x2748774C, 0x34B0BCB5, 0x391C0CB3, 0x4ED8AA4A, 0x5B9CCA4F, 0x682E6FF3,
     0x748F82EE, 0x78A5636F, 0x84C87814, 0x8CC70208, 0x90BEFFFA, 0xA4506CEB, 0xBEF9A3F7, 0xC67178F2] : List Nat)

/-- The eight initial hash words, the first highest: a hash value and the working words a to h are held as one number of
eight 32-bit words. -/
def shaH : Nat := 0x6A09E667BB67AE853C6EF372A54FF53A510E527F9B05688C1F83D9AB5BE0CD19

/-- A big-endian number. -/
def beNat (l : List (BitVec 8)) : Nat := l.foldl (fun n b => n * 0x100 + b.toNat) 0

/-- A number as `n` bytes, most significant first. -/
def beBytes (v : Nat) : Nat → List (BitVec 8)
  | 0 => []
  | n + 1 => BitVec.ofNat 8 (v / 0x100 ^ n) :: beBytes v n

/-- Word `i` of a number, the lowest first. -/
def word (n i : Nat) : Nat := n >>> (32 * i) % 0x100000000

/-- A word rotated right by `n` bits. -/
def rotr (x n : Nat) : Nat := (x >>> n ||| x <<< (32 - n)) % 0x100000000

/-- The window of the message schedule, sixteen words, the oldest highest, moved on by one word. -/
def shaNext (w : Nat) : Nat :=
  let a := word w 14
  let b := word w 1
  let x := word w 15 + (rotr a 7 ^^^ rotr a 18 ^^^ a >>> 3) + word w 6 + (rotr b 17 ^^^ rotr b 19 ^^^ b >>> 10)
  (w * 0x100000000 + x % 0x100000000) % 0x100000000000000000000000000000000000000000000000000000000000000000000000000000000000000000000000000000000000000000000000000000000

/-- One round on the working words with a schedule word and a constant. -/
def shaRound (s w k : Nat) : Nat :=
  let a := word s 7
  let e := word s 3
  let ch := (e &&& word s 2) ^^^ ((0xFFFFFFFF ^^^ e) &&& word s 1)
  let maj := (a &&& word s 6) ^^^ (a &&& word s 5) ^^^ (word s 6 &&& word s 5)
  let t1 := word s 0 + (rotr e 6 ^^^ rotr e 11 ^^^ rotr e 25) + ch + k + w
  let t2 := (rotr a 2 ^^^ rotr a 13 ^^^ rotr a 22) + maj
  s / 0x100000000 - word s 4 * 2 ^ 96 + (word s 4 + t1) % 0x100000000 * 2 ^ 96 + (t1 + t2) % 0x100000000 * 2 ^ 224

/-- The rounds of one block. -/
def shaRounds : List Nat → Nat → Nat → Nat
  | [], _, s => s
  | k :: ks, w, s => shaRounds ks (shaNext w) (shaRound s (word w 15) k)

/-- The compression of one block into the hash. -/
def shaBlock (h : Nat) (blk : List (BitVec 8)) : Nat :=
  let r := shaRounds shaK (beNat blk) h
  (List.range 8).foldl (fun n i => n + (word h i + word r i) % 0x100000000 * 2 ^ (32 * i)) 0

/-- The blocks of a padded message. -/
def shaRun (l : List (BitVec 8)) : Nat → Nat → Nat
  | 0, h => h
  | n + 1, h => shaRun (l.drop 64) n (shaBlock h (l.take 64))

/-- The padding of a message of `n` bytes. -/
def shaPad (n : Nat) : List (BitVec 8) := 0x80 :: (List.replicate ((119 - n % 64) % 64) 0 ++ beBytes (8 * n) 8)

/-- SHA-256 of a message, 32 bytes. -/
def sha256 (m : List (BitVec 8)) : List (BitVec 8) :=
  let l := m ++ shaPad m.length
  beBytes (shaRun l (l.length / 64) shaH) 32

/-! ### P-256 -/

/-- The field prime, the group order, the coefficient b and the base point. -/
def p256 : Nat := 2 ^ 256 - 2 ^ 224 + 2 ^ 192 + 2 ^ 96 - 1
def n256 : Nat := 0xFFFFFFFF00000000FFFFFFFFFFFFFFFFBCE6FAADA7179E84F3B9CAC2FC632551
def b256 : Nat := 0x5AC635D8AA3A93E7B3EBBD55769886BC651D06B0CC53B0F63BCE3C3E27D2604B
def g256 : Nat × Nat :=
  (0x6B17D1F2E12C4247F8BCE6E563A440F277037D812DEB33A0F4A13945D898C296,
   0x4FE342E2FE1A7F9B8EE7EB4A7C0F9E162BCE33576B315ECECBB6406837BF51F5)

/-- `a` to the power that the lowest `n` bits of `e` give, modulo `m`. -/
def powMod (a e m : Nat) : Nat → Nat
  | 0 => 1 % m
  | n + 1 =>
    let h := powMod (a * a % m) (e / 2) m n
    if e % 2 = 1 then a * h % m else h

/-- The inverse modulo a prime of 256 bits. -/
def invMod (a m : Nat) : Nat := powMod (a % m) (m - 2) m 256

/-- Difference modulo the field prime. -/
def subP (a b : Nat) : Nat := (a + p256 - b % p256) % p256

/-- A point in Jacobian coordinates (X, Y, Z); Z = 0 is the point at infinity. -/
abbrev Pt := Nat × Nat × Nat

/-- Twice a point. -/
def dbl (a : Pt) : Pt :=
  let (x, y, z) := a
  let y2 := y * y % p256
  let s := 4 * x * y2 % p256
  let zz := z * z % p256
  let m := 3 * (subP x zz) * (x + zz) % p256
  let x' := subP (m * m) (2 * s)
  (x', subP (m * subP s x') (8 * y2 * y2), 2 * y * z % p256)

/-- The sum of two points. -/
def addPt (a b : Pt) : Pt :=
  let (x1, y1, z1) := a
  let (x2, y2, z2) := b
  if z1 = 0 then b
  else if z2 = 0 then a
  else
    let u1 := x1 * z2 * z2 % p256
    let u2 := x2 * z1 * z1 % p256
    let s1 := y1 * z2 * z2 * z2 % p256
    let s2 := y2 * z1 * z1 * z1 % p256
    if u1 = u2 then (if s1 = s2 then dbl a else (1, 1, 0))
    else
      let h := subP u2 u1
      let r := subP s2 s1
      let h2 := h * h % p256
      let h3 := h * h2 % p256
      let v := u1 * h2 % p256
      let x := subP (subP (r * r) h3) (2 * v)
      (x, subP (r * subP v x) (s1 * h3), h * z1 % p256 * z2 % p256)

/-- The multiple of a point by the lowest `n` bits of `k`. -/
def mulPt (k : Nat) (a : Pt) : Nat → Pt
  | 0 => (1, 1, 0)
  | n + 1 =>
    let h := dbl (mulPt (k / 2) a n)
    if k % 2 = 1 then addPt h a else h

/-- The ECDSA check of FIPS 186-5: public key X then Y, hash of the message, signature r then s. -/
def ecdsaOk (pub hash sig : List (BitVec 8)) : Bool :=
  let x := beNat (pub.take 32)
  let y := beNat ((pub.drop 32).take 32)
  let r := beNat (sig.take 32)
  let s := beNat ((sig.drop 32).take 32)
  let onCurve : Bool := decide (x < p256 ∧ y < p256 ∧ y * y % p256 = (subP (x * x * x) (3 * x) + b256) % p256)
  let w := invMod s n256
  let z := beNat (hash.take 32)
  let q := addPt (mulPt (z * w % n256) (g256.1, g256.2, 1) 256) (mulPt (r * w % n256) (x, y, 1) 256)
  let zi := invMod q.2.2 p256
  onCurve && decide (0 < r ∧ r < n256 ∧ 0 < s ∧ s < n256 ∧ q.2.2 ≠ 0 ∧ q.1 * zi * zi % p256 % n256 = r)

/-! ### AES-128 and AES-CMAC (FIPS 197, NIST SP 800-38B) -/

/-- The substitution table of AES. -/
def aesSbox : List Nat :=
  ([0x63, 0x7C, 0x77, 0x7B, 0xF2, 0x6B, 0x6F, 0xC5, 0x30, 0x01, 0x67, 0x2B, 0xFE, 0xD7, 0xAB, 0x76,
     0xCA, 0x82, 0xC9, 0x7D, 0xFA, 0x59, 0x47, 0xF0, 0xAD, 0xD4, 0xA2, 0xAF, 0x9C, 0xA4, 0x72, 0xC0] : List Nat) ++
    [0xB7, 0xFD, 0x93, 0x26, 0x36, 0x3F, 0xF7, 0xCC, 0x34, 0xA5, 0xE5, 0xF1, 0x71, 0xD8, 0x31, 0x15,
     0x04, 0xC7, 0x23, 0xC3, 0x18, 0x96, 0x05, 0x9A, 0x07, 0x12, 0x80, 0xE2, 0xEB, 0x27, 0xB2, 0x75] ++
    [0x09, 0x83, 0x2C, 0x1A, 0x1B, 0x6E, 0x5A, 0xA0, 0x52, 0x3B, 0xD6, 0xB3, 0x29, 0xE3, 0x2F, 0x84,
     0x53, 0xD1, 0x00, 0xED, 0x20, 0xFC, 0xB1, 0x5B, 0x6A, 0xCB, 0xBE, 0x39, 0x4A, 0x4C, 0x58, 0xCF] ++
    [0xD0, 0xEF, 0xAA, 0xFB, 0x43, 0x4D, 0x33, 0x85, 0x45, 0xF9, 0x02, 0x7F, 0x50, 0x3C, 0x9F, 0xA8,
     0x51, 0xA3, 0x40, 0x8F, 0x92, 0x9D, 0x38, 0xF5, 0xBC, 0xB6, 0xDA, 0x21, 0x10, 0xFF, 0xF3, 0xD2] ++
    [0xCD, 0x0C, 0x13, 0xEC, 0x5F, 0x97, 0x44, 0x17, 0xC4, 0xA7, 0x7E, 0x3D, 0x64, 0x5D, 0x19, 0x73,
     0x60, 0x81, 0x4F, 0xDC, 0x22, 0x2A, 0x90, 0x88, 0x46, 0xEE, 0xB8, 0x14, 0xDE, 0x5E, 0x0B, 0xDB] ++
    [0xE0, 0x32, 0x3A, 0x0A, 0x49, 0x06, 0x24, 0x5C, 0xC2, 0xD3, 0xAC, 0x62, 0x91, 0x95, 0xE4, 0x79,
     0xE7, 0xC8, 0x37, 0x6D, 0x8D, 0xD5, 0x4E, 0xA9, 0x6C, 0x56, 0xF4, 0xEA, 0x65, 0x7A, 0xAE, 0x08] ++
    [0xBA, 0x78, 0x25, 0x2E, 0x1C, 0xA6, 0xB4, 0xC6, 0xE8, 0xDD, 0x74, 0x1F, 0x4B, 0xBD, 0x8B, 0x8A,
     0x70, 0x3E, 0xB5, 0x66, 0x48, 0x03, 0xF6, 0x0E, 0x61, 0x35, 0x57, 0xB9, 0x86, 0xC1, 0x1D, 0x9E] ++
    [0xE1, 0xF8, 0x98, 0x11, 0x69, 0xD9, 0x8E, 0x94, 0x9B, 0x1E, 0x87, 0xE9, 0xCE, 0x55, 0x28, 0xDF,
     0x8C, 0xA1, 0x89, 0x0D, 0xBF, 0xE6, 0x42, 0x68, 0x41, 0x99, 0x2D, 0x0F, 0xB0, 0x54, 0xBB, 0x16]

/-- A byte through the substitution table. -/
def subByte (b : BitVec 8) : BitVec 8 := BitVec.ofNat 8 (aesSbox.getD b.toNat 0)

/-- A byte back through it. -/
def invSubByte (b : BitVec 8) : BitVec 8 := BitVec.ofNat 8 (aesSbox.findIdx (fun x => x == b.toNat))

/-- A byte of GF(2⁸) times the variable, with field polynomial 0x11B. -/
def xtime (b : BitVec 8) : BitVec 8 := (b <<< 1) ^^^ (if b.msb then 0x1B else 0)

/-- The sum of two blocks, byte by byte. -/
def xorBytes (a b : List (BitVec 8)) : List (BitVec 8) := List.zipWith (· ^^^ ·) a b

/-- The next round key from one, with the round constant. -/
def nextKey (k : List (BitVec 8)) (rcon : BitVec 8) : List (BitVec 8) :=
  let g (i : Nat) : BitVec 8 := subByte (k.getD i 0)
  let a := xorBytes (k.take 4) [g 13 ^^^ rcon, g 14, g 15, g 12]
  let b := xorBytes ((k.drop 4).take 4) a
  let c := xorBytes ((k.drop 8).take 4) b
  a ++ b ++ c ++ xorBytes ((k.drop 12).take 4) c

/-- The eleven round keys of a key. -/
def roundKeys (k : List (BitVec 8)) : List (List (BitVec 8)) := go k [1, 2, 4, 8, 0x10, 0x20, 0x40, 0x80, 0x1B, 0x36]
where
  go (k : List (BitVec 8)) : List (BitVec 8) → List (List (BitVec 8))
    | [] => [k]
    | r :: l => k :: go (nextKey k r) l

/-- Row `r` of column `c` comes from column `c + d r`, of four (ShiftRows: d r = r; its inverse: d r = 4 - r). -/
def shiftRows (d : Nat → Nat) (s : List (BitVec 8)) : List (BitVec 8) :=
  (List.range 16).map (fun i => s.getD (4 * ((i / 4 + d (i % 4)) % 4) + i % 4) 0)

/-- One column through the mixing matrix. -/
def mixColumn (a b c d : BitVec 8) : List (BitVec 8) :=
  let m (x y z w : BitVec 8) : BitVec 8 := xtime x ^^^ xtime y ^^^ y ^^^ z ^^^ w
  [m a b c d, m b c d a, m c d a b, m d a b c]

/-- MixColumns. -/
def mixColumns : List (BitVec 8) → List (BitVec 8)
  | a :: b :: c :: d :: l => mixColumn a b c d ++ mixColumns l
  | _ => []

/-- The inverse of MixColumns: the matrix applied three times, since its fourth power is the identity. -/
def invMixColumns (s : List (BitVec 8)) : List (BitVec 8) := mixColumns (mixColumns (mixColumns s))

/-- One block enciphered under a key, both of 16 bytes. -/
def aesEncrypt (key blk : List (BitVec 8)) : List (BitVec 8) :=
  match roundKeys key with
  | k0 :: ks =>
    let mid := (ks.take 9).foldl (fun s k => xorBytes (mixColumns (shiftRows id (s.map subByte))) k) (xorBytes blk k0)
    xorBytes (shiftRows id (mid.map subByte)) (ks.getD 9 [])
  | [] => blk

/-- One block deciphered. -/
def aesDecrypt (key blk : List (BitVec 8)) : List (BitVec 8) :=
  let unshift (s : List (BitVec 8)) : List (BitVec 8) := (shiftRows (fun r => 4 - r) s).map invSubByte
  match (roundKeys key).reverse with
  | k10 :: ks =>
    let mid := (ks.take 9).foldl (fun s k => unshift (invMixColumns (xorBytes s k))) (unshift (xorBytes blk k10))
    xorBytes mid (ks.getD 9 [])
  | [] => blk

/-- A block doubled in GF(2¹²⁸), for the subkeys of the MAC. -/
def dblBlock (b : List (BitVec 8)) : List (BitVec 8) :=
  let n := 2 * beNat b
  beBytes (if n < 2 ^ 128 then n else (n % 2 ^ 128) ^^^ 0x87) 16

/-- The chain of the MAC over `n` whole blocks. -/
def cmacRun (key l : List (BitVec 8)) : Nat → List (BitVec 8) → List (BitVec 8)
  | 0, c => c
  | n + 1, c => cmacRun key (l.drop 16) n (aesEncrypt key (xorBytes c (l.take 16)))

/-- AES-CMAC of a message under a key, 16 bytes. -/
def cmac (key m : List (BitVec 8)) : List (BitVec 8) :=
  let zero : List (BitVec 8) := List.replicate 16 0
  let k1 := dblBlock (aesEncrypt key zero)
  let n := (m.length - 1) / 16
  let last := m.drop (16 * n)
  let last := if last.length = 16 then xorBytes last k1
    else xorBytes (last ++ 0x80 :: List.replicate (15 - last.length) 0) (dblBlock k1)
  aesEncrypt key (xorBytes (cmacRun key m n zero) last)

end Sys2Proof.Machine.Crypto
end

