-- ==== Sys2Proof/Machine/Charger.lean ====
section
/-! DEFINITION. The charger's states, the leakage probe, and the wakes, which both may cut short (R43, R44, R55, R56, R96,
R109). -/

namespace Sys2Proof.Machine

open R

/-! ### Charger (R43, R44) -/

/-- C_est in farads (Table 3.2). -/
def State.cEst (s : State) : ℚ := (s.get RES_C_EST.w : ℚ) / 10000

/-- `CHG_LIMIT` in set-point steps. -/
def State.chgLimit (s : State) : Nat := s.get CHG_CFG.CHG_LIMIT + 1

/-- The idle level, held at the slot target (Table 3.3), and the slot target, in mV. -/
def State.idleMv (s : State) : Nat := 2000 + 10 * min (s.get VRES_IDLE.IDLE) (s.get VRES_TGT.TGT)
def State.tgtMv (s : State) : Nat := 2000 + 10 * s.get VRES_TGT.TGT

/-- The level at which charging stops in the present state: its target or `VBAT` − 30 mV. -/
def State.stopMv (s : State) : Nat :=
  min (if s.get PWR_STAT.CHG_STATE = 1 then s.idleMv else s.tgtMv) (s.get VBAT_MEAS.w - 30)

/-- The part of a charging phase under way ends (R54). -/
def Pwr.cutPart (p : Pwr) : Pwr := { p with part := none, partDone := if p.part.isSome then p.part else p.partDone }

/-- A charging phase starts at 1.0 mA or the limit; its 4 ms without a rise count from here (R43, log entry 165). -/
def State.chargeOn (s : State) : State :=
  { s.put PWR_STAT.CHG_ON 1 with
    pwr := { s.pwr with setPoint := min 4 s.chgLimit, sinceRise := 0, zeroHold := 0, part := none } }

/-- The charge switch opens. -/
def State.chargeOff (s : State) : State :=
  { (s.put PWR_STAT.CHG_ON 0).put PWR_STAT.THROTTLED 0 with
    pwr := { s.pwr.cutPart with setPoint := 0, zeroHold := 0, sagSet := false } }

/-- The charger takes a state. START and PRE-CHARGE charge where `VRES` lies below their stop level, IDLE-HOLD from 50 mV
below its level; a phase under way goes on (R44). -/
def State.chgState (s : State) (v : Nat) : State :=
  let s := s.put PWR_STAT.CHG_STATE v
  if v = 0 then s.chargeOff
  else if s.bit PWR_STAT.CHG_ON then s
  else if s.get VRES_MEAS.w + (if v = 1 then 50 else 1) ≤ s.stopMv then s.chargeOn else s

/-! ### The reservoir's estimates and the leakage probe (R54 to R56) -/

/-- A trigger of re-admission has come (R266). -/
def State.wantReadmit (s : State) : State := { s with sched := { s.sched with readmit := true } }

/-- The estimates have moved since the last admission: C_est down by more than 5 %, the leakage up by more than 25 %
(R266). -/
def State.estimatesMoved (s : State) : Bool :=
  decide (100 * s.get RES_C_EST.w < 95 * s.sched.lastC ∨ 125 * s.sched.lastLeak < 100 * s.get RES_LEAK_EST.w)

/-- A re-admission falls due where the estimates have moved that far. -/
def State.followEstimates (s : State) : State := if s.estimatesMoved then s.wantReadmit else s

/-- An accepted sample moves an estimate by a part of the difference (R54, R55). -/
def State.moveEst (s : State) (est : Fld) (q part : ℚ) : State :=
  s.putSat est (roundNat ((s.get est : ℚ) + (q - s.get est) / part))

/-- An accepted capacitance sample in 0.1 mF; the first of all is stored as the initial value and in CONFIG (R54, R56). -/
def State.takeC (s : State) (q : ℚ) : State :=
  let s := s.moveEst RES_C_EST.w q 16
  let s := if s.pwr.initFlash.1.isSome then s else s.putSat RES_C_INIT.w (roundNat q)
  ({ s with pwr := { s.pwr with cSeen := true, initFlash := (some (s.get RES_C_INIT.w), s.pwr.initFlash.2) } } : State).followEstimates

/-- An accepted leakage sample in 10 nA, likewise (R55, R56). -/
def State.takeLeak (s : State) (q : ℚ) : State :=
  let s := s.moveEst RES_LEAK_EST.w q 8
  let s := if s.pwr.initFlash.2.isSome then s else s.putSat RES_LEAK_INIT.w (roundNat q)
  ({ s with pwr := { s.pwr with leakSeen := true, initFlash := (s.pwr.initFlash.1, some (s.get RES_LEAK_INIT.w)) } } : State).followEstimates

/-- The probe ends: a sample of at least 600 s counts (`LEAK_WIN` is never shorter), unless `VRES` rose or a host load drew
on it. -/
def State.probeEnd (s : State) (vres secs : Nat) : State :=
  let s := s.put PWR_STAT.LEAK_PROBE 0
  let s := if s.get MODE.CUR = 0 then s else s.chgState 1
  let q : ℚ := if secs = 0 then -1 else (s.cEst * (((s.pwr.probeV : ℚ) - vres) / 1000) / secs) * 100000000
  if 600 ≤ secs ∧ 0 ≤ q ∧ q ≤ 4 * s.get RES_LEAK_EST.w then s.takeLeak q else s

/-- A running probe is cut short now. -/
def State.probeCut (s : State) : State :=
  if s.bit PWR_STAT.LEAK_PROBE then s.probeEnd (s.get VRES_MEAS.w) ((s.aon - s.pwr.probeAt) / 32768) else s

/-! ### Wakes (Table 5.7, R109) -/

/-- A wake starts (Tables 5.5 and 5.6): HFRC and the buck start, and XO beside them; one from DEEP enters BOOT. -/
def State.wakeStart (s : State) (cause : Nat) : State :=
  let s := s.latchCause cause
  let s := if s.get MODE.RET = 2 then (s.put MODE.CUR 3).inc BOOT_CNT.ALL else s
  ({ s with mode := { s.mode with waking := some cause, entering := false, delayed := none },
            pwr := s.pwr.cutPart } : State).xoStart

/-- `VRES` in mV below which no wake starts (R109), and V_stop in mV (Table 3.2). -/
def State.wakeMv (s : State) : Nat := 2000 + 10 * s.get VRES_STOP.STOP
def State.vStopMv (s : State) : Nat := max s.wakeMv (1450 + 50 * s.get BUCK_V.VOUT)

/-- The rests that a wake source wakes from (Table 5.7). -/
def State.wakesFrom (s : State) : Nat → Bool
  | 1 => s.get MODE.CUR == 4 && s.nextActivity.isSome
  | 2 => s.pins.vddio
  | 3 => s.bit MODE.MATCH_ON
  | 4 => true
  | 5 => !s.runsPlans
  | 6 => true
  | _ => false

/-- A wake is delayed: the device stays at rest with the charger in IDLE-HOLD until `VRES` reaches 100 mV above a level
(R62, R109). -/
def State.delayWake (s : State) (cause : Option Nat) (level : Nat) : State :=
  ({ s with mode := { s.mode with waking := none, delayed := cause, delayedAt := level + 100 } } : State).chgState 1

/-- A wake event in rest: a leakage probe ends, and the wake starts, or waits for `VRES` (R55, R96, R109). -/
def State.wake (s : State) (cause : Nat) : State :=
  if s.mode.resting ∧ s.get MODE.CUR ≠ 0 ∧ s.mode.waking = none ∧ s.mode.delayed = none ∧ s.wakesFrom cause then
    let s := s.probeCut
    if s.get VRES_MEAS.w < s.wakeMv then s.delayWake (some cause) s.wakeMv else s.wakeStart cause
  else s

/-- A service wake wanted while the device rests. -/
def State.serviceWake (s : State) : State := s.wake 6

end Sys2Proof.Machine
end

