-- ==== Sys2Proof/Machine/Slots.lean ====
section
/-! DEFINITION. What receptions, captures and LISTENs share: PLAN_EVENT records, starting and ending a reception, and
the end of every activity (spec 11, 12). -/

namespace Sys2Proof.Machine

open R

/-- Sub-channel of a watch; 0x40 where it names none. -/
def recSub (w : List Word) : Nat := if recKind w = kEDF ∧ bearer (recKfc w) = 3 then recByte w 29 % 0x40 else 0x40

/-- A PLAN_EVENT record (R267); a MISSED one is counted. -/
def State.planEvent (s : State) (f : Fn) (event cause id sec : Nat) : State :=
  let s := s.deliver f 0x30 ([BitVec.ofNat 16 (event * 0x100 + cause), BitVec.ofNat 16 id] ++ lowHigh sec) [iWATCH_EVENT]
    s.stamp
  if event = 2 then s.inc SCHED_CNT_MISSED.w else s

/-- LISTEN events carry watch id 0xFFFF and start 0. -/
def State.listenEvent (s : State) (f : Fn) (event cause : Nat) : State := s.planEvent f event cause 0xFFFF 0

/-- MISSED for one occurrence of a watch. -/
def State.missed (s : State) (f : Fn) (w : Watch) (nominal cause : Nat) : State :=
  s.planEvent f 2 cause (recId w.words) (nominal / 2 ^ 24)

/-- An accepted SELFTEST executes, or the standby self-test runs (R461, R481). -/
def State.testing (s : State) : Bool :=
  s.twin.testing || allFns.any (fun f => match (s.eng f).op with
    | some o => o.code == 0xA && o.outcome.isNone
    | none => false)

/-- A sector of a stage-form window is being programmed (R154, R158). -/
def State.winWriting (s : State) : Bool :=
  s.img.winLen != 0 && s.bit IMG_HL_STAT.FORM && s.get IMG_HL_STAT.STATE == 1 && !s.bit IMG_HL_STAT.ACCEPT

/-- Flash program or erase is in progress (R241). -/
def State.flashBusy (s : State) : Bool :=
  (s.img.staging && s.get IMG_STAGE.STATE == 2) || s.winWriting || s.bit CAPT_STAT.SPILLING || s.bit EDF_STAT.COMPACT

/-- MAINTAIN work is under way: a calibration, a staging, a compaction, a spill or a self-test (Table 5.1). -/
def State.maintains (s : State) : Bool :=
  s.fe.cal.isSome || s.img.staging || s.winWriting || s.bit EDF_STAT.COMPACT || s.bit CAPT_STAT.SPILLING || s.testing

/-- `MODE.MAINTAIN_ACT` follows the maintenance work. -/
def State.showMaintain (s : State) : State := s.setAct MODE.MAINTAIN_ACT s.maintains

/-- Registers `key` to `key + n - 1` read 0. -/
def State.zeroRegs (s : State) (key : Nat) : Nat → State
  | 0 => s
  | n + 1 => (s.setReg (key + n) 0).zeroRegs key n

/-- Forgets what the demodulators gathered in a reception; the frequencies of each watch's last switch stay (R311,
R331). -/
def State.bearerReset (s : State) : State :=
  let s := ((s.put FMR_STAT.w 0).put FMR_PI.w 0).put FMR_AF_N.w 0
  let s := ((s.put FMR_ODA_AID.w 0).put FMR_ODA_TYPE.w 0).zeroRegs (FMR_AF.w 0).key 25
  let s := ((s.put DAB_STAT.w 0).put DAB_EID.w 0).put32 DAB_SID_L.w 0
  let s := ((s.zeroRegs DAB_SUBCH.w.key 4).put DAB_FERR.w 0x8000).put DAB_FERR_SD.w 0
  let s := (s.put DAB_AF_N.w 0).zeroRegs (DAB_AF.w 0).key 32
  let s := (s.put LFT_STAT.w 0).put LFT_FERR.w 0x8000
  { s with
    fm := { Fm.start with recalled := s.fm.recalled },
    dab := { Dab.start with recalled := s.dab.recalled },
    lf := { s.lf with copy := none, row := 0, lastEdge := none, secs := [], spoiled := false, prev := none } }

/-- One path is powered, or none; the SYN clock runs for the VHF paths (R271, Table 4.1). -/
def State.setPath (s : State) (path : Nat) : State := (s.put FES_STAT.PATH path).putBit CLK_STAT.SYN_ON (decide (2 ≤ path % 4))

/-- The path powers down. -/
def State.pathOff (s : State) : State :=
  (((s.setPath 0).put FES_STAT.LOCKED 0).put SYN_STAT.LOCK 0).put FES_RSSI.w 0x8000

/-- The front end turns to a KFC: a tune job waits to start. -/
def State.rxStart (s : State) (kfc sub : Nat) (addrs : List Nat) : State :=
  let s := s.bearerReset
  let s := s.pathOff.put FES_STAT.JOB 0
  { s with fe := { s.fe with rx := some ⟨kfc, kfc, sub, addrs, false, false⟩ }, time := { s.time with xoMeas := [] } }

/-- Applies an update to the counts of a stream in the present reception (R397). -/
def State.stat (s : State) (stream : Nat) (g : SegStat → SegStat) : State :=
  let l := if s.edf.stats.any (fun x => x.stream == stream) then s.edf.stats
    else s.edf.stats ++ [⟨stream, 0, 0, 0, 0, 0, 0, 0, 0⟩]
  { s with edf := { s.edf with stats := l.map (fun x => if x.stream = stream then g x else x) } }

/-- A segment that is not good is counted, for the stream its first bytes name too (R376, R397). -/
def State.badSegment (s : State) (l : List (Option Byte)) : State :=
  let s := s.inc EDF_CNT_BAD.w
  match l with
  | some a :: some b :: _ => s.stat (a.toNat % 16 * 0x100 + b.toNat) (fun x => { x with bad := x.bad + 1 })
  | _ => s

/-- A partial segment is abandoned: counted, and bad (R376). -/
def State.abandonSegment (s : State) : State :=
  match s.edf.asm with
  | some (_, l, _) =>
    let s := (s.inc EDF_CNT_SEG.w).badSegment l
    { s with edf := { s.edf with asm := none } }
  | none => s

/-- The end of a reception for the datacast: its record falls due, a partial segment is abandoned (R376, R397). -/
def State.edfEnd (s : State) : State :=
  let s := s.abandonSegment
  let e := s.edf
  let due : List RxEnd := if e.carried = [] then e.ended else e.ended ++ [⟨s.stamp, e.carried, e.stats⟩]
  { s with edf := { e with carried := [], stats := [], ended := due, rxEnds := e.rxEnds + 1 } }

/-- The reception ends and with it any host AF check (R280). -/
def State.rxStop (s : State) : State :=
  let s := if s.fe.rx.isSome then s.edfEnd else s
  let s := ((s.pathOff.put FES_STAT.JOB 0).put FES_STAT.AF_BUSY 0).put FES_AF_STAT.BUSY 0
  let s := s.bearerReset
  { s with fe := { s.fe with rx := none, afHost := none } }

/-- The tuner is released once no occurrence and no LISTEN uses it. -/
def State.tunerFollow (s : State) : State :=
  if s.fe.rx.isSome ∧ s.tunerRuns = [] ∧ s.liveListens = [] then s.rxStop else s

/-- The activity bits of slots and LISTENs follow what runs; raw hold reads as LISTEN (R284). -/
def State.showActs (s : State) : State :=
  (s.setAct MODE.SLOT_ACT (s.tunerRuns ≠ [])).setAct MODE.LISTEN_ACT (s.liveListens ≠ [] || s.bit FES_STAT.HOLD)

/-- `PLAN_STAT` shows a function's LISTEN. -/
def State.showListen (s : State) (f : Fn) : State :=
  let (a, p) := match (s.plan f).listen with | some l => (1, if l.paused then 1 else 0) | none => (0, 0)
  (s.fput f PLAN_STAT.LISTEN_ACT a).fput f PLAN_STAT.LISTEN_PAUSED p

/-- Replaces a function's LISTEN. -/
def State.setListen (s : State) (f : Fn) (l : Option Listen) : State :=
  let s := s.account
  (s.setPlan f { s.plan f with listen := l }).showListen f

/-- A LISTEN ends with its cause (Table 11.9). -/
def State.endListen (s : State) (f : Fn) (cause : Nat) : State :=
  if (s.plan f).listen.isSome then ((s.setListen f none).listenEvent f 7 cause).tunerFollow.showActs else s

/-- A LISTEN pauses. -/
def State.pauseListen (s : State) (f : Fn) : State :=
  match (s.plan f).listen with
  | some l => if l.paused then s else (s.setListen f (some { l with paused := true })).listenEvent f 5 0
  | none => s

/-- A paused LISTEN resumes on its KFC. -/
def State.resumeListen (s : State) (f : Fn) : State :=
  match (s.plan f).listen with
  | some l =>
    if l.paused then
      let s := (s.setListen f (some { l with paused := false })).listenEvent f 6 0
      let s := if s.fe.rx.isNone then s.rxStart l.kfc l.sub [l.addr] else s
      s.showActs
    else s
  | none => s

/-- Applies an update to each function in turn. -/
def State.eachFn (s : State) (g : State → Fn → State) : List Fn → State
  | [] => s
  | f :: l => (g s f).eachFn g l

/-- Removes the running occurrences that meet `p`, each reported MISSED with a cause. -/
def State.missRuns (s : State) (p : Run × Watch → Bool) (cause : Nat) : State :=
  let hit := s.runs.filter p
  let s := s.account
  let s : State := { s with sched := { s.sched with
    running := s.sched.running.filter (fun r => !hit.any (fun rw => rw.1 == r)) } }
  hit.foldl (fun s rw => s.missed rw.1.fn rw.2 rw.1.nominal cause) s

/-- Removes the running occurrences that meet `p` without a record. -/
def State.dropRuns (s : State) (p : Run × Watch → Bool) : State :=
  let hit := s.runs.filter p
  let s := s.account
  { s with sched := { s.sched with running := s.sched.running.filter (fun r => !hit.any (fun rw => rw.1 == r)) } }

/-- A standby self-test that runs ends without a result. -/
def State.stestCut (s : State) : State := { s with twin := { s.twin with testing := false } }

/-- A calibration in progress is abandoned, and with it the power of its path. -/
def State.dropCal (s : State) : State :=
  if s.fe.cal.isSome then
    let s := (s.put CAL_STAT.RUNNING 0).pathOff
    { s with fe := { s.fe with cal := none } }
  else s

/-- Raw hold is suspended: its path powers down, and it starts again once the unit may power its front end (log entry 169). -/
def State.holdSuspend (s : State) : State :=
  if s.bit FES_STAT.HOLD then
    ((({ s with fe := { s.fe with holdWait := true } } : State).put FES_STAT.HOLD 0).pathOff).chargeOpen .f0
  else s

/-- Every reception, capture, LISTEN, AF check and calibration in progress ends, and raw hold is suspended; each occurrence
affected is MISSED with the cause; a LISTEN ends with its own cause, or without a record where Table 11.9 has none. -/
def State.endActivities (s : State) (cause : Nat) (listen : Option Nat) : State :=
  let s := s.missRuns (fun _ => true) cause
  let s := s.holdSuspend.stestCut.captEnd 0
  let s : State := { s with capt := { s.capt with due := [] } }
  let s := s.eachFn (fun s f => match listen with
    | some c => if (s.plan f).listen.isSome then (s.setListen f none).listenEvent f 7 c else s
    | none => s.setListen f none) allFns
  (s.dropCal.rxStop.showActs.setAct MODE.CAPTURE_ACT false).showMaintain

end Sys2Proof.Machine
end

