-- ==== Sys2Proof/Machine/FrontEnd.lean ====
section
/-! DEFINITION. The radio front end (spec 12): tune jobs, AF checks, raw registers, calibrations and the submersion
inference. RSSI values are signed, in 0.25 dB. -/

namespace Sys2Proof.Machine

open R

/-! ### Synthesizer (R272, R273) -/

/-- The LO divider of a code of Table 12.2. -/
def loDiv : Nat → Nat
  | 0 => 48
  | 1 => 40
  | 2 => 32
  | 3 => 20
  | 4 => 16
  | 5 => 12
  | 6 => 24
  | _ => 64

/-- The LO of a KFC in Hz: 150 kHz below the station on FM, the channel centre on DAB. -/
def loHz (kfc : Nat) : Nat := if bearer kfc = 2 then kfcFreq kfc * 1000 - 150000 else kfcFreq kfc * 1000

/-- The divider code the sequencer selects. -/
def divCode (lo : Nat) : Nat :=
  if lo < 78000000 then 0 else if lo < 92000000 then 1 else if lo ≤ 107850000 then 2
  else if lo < 187000000 then 3 else 4

/-- N × 2²² + FRAC for an LO: FRAC is rounded to the nearest code, a tie down (R273). -/
def vcoCode (lo : Nat) : Nat := (⌈((loDiv (divCode lo) * lo : Nat) : ℚ) / 49152000 * 2 ^ 22 - 1 / 2⌉).toNat

/-- The KFC lies in its bearer's range (Table 12.1). -/
def kfcInRange (kfc : Nat) : Bool :=
  match bearer kfc with
  | 1 => 30000 ≤ kfcFreq kfc && kfcFreq kfc ≤ 300000
  | 2 => 64000 ≤ kfcFreq kfc && kfcFreq kfc ≤ 108000
  | 3 => 174928 ≤ kfcFreq kfc && kfcFreq kfc ≤ 239200
  | _ => false

/-- Loads synthesizer values into the hardware: the raw registers, `SYN_STAT` and the LO they give. -/
def State.loadSyn (s : State) (code total band : Nat) : State :=
  let s := (((s.put SYN_DIV.w code).put SYN_N.w (total / 2 ^ 22)).put32 SYN_FRAC_L.w (total % 2 ^ 22)).put SYN_BAND.w band
  let s : State := { s with fe := { s.fe with syn := [code, total / 2 ^ 22, total % 2 ^ 22, band, s.get SYN_CP.w] } }
  let s := (s.put SYN_STAT.DIV code).put SYN_STAT.BAND band
  s.put32 SYN_LO_L.w (roundNat (49152000 * (total : ℚ) / 2 ^ 22 / loDiv code))

/-! ### Tune jobs (R274 to R277) -/

/-- Word `i` of a template. -/
def tplWord (t : List Word) (i : Nat) : Nat := (t.getD i 0).toNat

/-- The lowest-numbered enabled template whose carrier is the KFC frequency (R341). -/
def State.lfTemplate (s : State) (kfc : Nat) : Option Nat :=
  (List.range 4).find? (fun i =>
    let t := s.lf.slots.getD i []
    tplWord t 0 / 0x8000 == 1 && tplWord t 1 + 0x10000 * tplWord t 2 == kfcFreq kfc)

/-- An LF tune job takes its copy of the template (R341, R343). -/
def State.lfPick (s : State) (kfc : Nat) : State :=
  match s.lfTemplate kfc with
  | some i =>
    let s := (s.put LFT_STAT.TPL i).put LFT_STAT.TPL_NONE 0
    { s with lf := { s.lf with copy := some (i, s.lf.slots.getD i []) } }
  | none => (({ s with lf := { s.lf with copy := none } } : State).put LFT_STAT.TPL 0).put LFT_STAT.TPL_NONE 1

/-- The tune job enters a state of Table 12.3. -/
def State.setJob (s : State) (v : Nat) : State :=
  let s := s.put FES_STAT.JOB v
  { s with fe := { s.fe with jobAt := s.aon } }

/-- The VCO band of a divider code: from the band table of the last good calibration, else the factory trim (R273, R287). -/
def State.synBand (s : State) (code : Nat) : Nat :=
  match s.fe.bands[code]? with
  | some b => b
  | none => (Config.factoryBand code).toNat

/-- The sequencer loads the values of a VHF KFC (R273). -/
def State.synTo (s : State) (kfc : Nat) : State :=
  let code := divCode (loHz kfc)
  s.loadSyn code (vcoCode (loHz kfc)) (s.synBand code)

/-- The gains in use: `FES_AGC` shows those of every stage, and the raw registers read what the hardware holds (R277,
R282). -/
def State.setGains (s : State) (lna ifGain lfGain : Nat) : State :=
  let s := ((s.put FES_AGC.LNA lna).put FES_AGC.IF ifGain).put FES_AGC.LFPGA lfGain
  ((s.put FES_RAW_LNA.GAIN lna).put FES_RAW_MIX.GAIN ifGain).put FES_RAW_LFPGA.GAIN (lfGain % 8)

/-- The gains a job loads in PROGRAM: the spec states no starting gain, so those of the job's path are open (R274, log entry
168). -/
def State.loadGains (s : State) (lf : Bool) : State :=
  let (w, s) := s.fresh
  let v := w.toNat
  if lf then s.setGains (s.get FES_AGC.LNA) (s.get FES_AGC.IF) (v % 8)
  else s.setGains (v % 16) (v / 16 % 16) (s.get FES_AGC.LFPGA)

/-- The registers of following and decoding that a VHF tune job takes: those of FM, or of DAB (R316, R338). -/
def jobRegs (b : Nat) : List Nat :=
  if b = 2 then [FMR_CFG.w.key, AF_CFG.w.key, AF_TIME.w.key, AF_BAN.w.key, AF_CTL.w.key]
  else if b = 3 then [DAB_AF_CFG.w.key, DAB_AF_TIME.w.key, DAB_AF_BAN.w.key, DAB_AF_CTL.w.key]
  else []

/-- A setting as the last VHF tune job took it. -/
def State.cfg (s : State) (x : Fld) : Nat :=
  match s.fe.cfg.find? (fun e => e.1 == x.key) with
  | some (_, w) => (w.toNat / 2 ^ x.lo) % x.size
  | none => s.get x

/-- A tune job cannot start while XO is not qualified: its occurrences are MISSED with XO, and a LISTEN tries again (R84,
Table 12.8). -/
def State.tuneNoXo (s : State) : State :=
  let s := s.missRuns (fun rw => recKind rw.2.words != kCAPT) 6
  if s.liveListens = [] then s.rxStop.showActs else (s.setJob 7).showActs

/-- `TUNE_JOB_START`: a waiting job enters PROGRAM: its path powers up, and the divider, N, FRAC, band and gains are loaded
(R274). -/
def execTuneJobStart (temp : Int) (s : State) : Host.Outcome State Fault Refusal :=
  .next (match s.fe.rx with
    | some r =>
      if s.get FES_STAT.JOB = 0 ∧ ¬ s.bit FES_STAT.HOLD then
        if ¬ s.bit CLK_STAT.XO_OK then (if s.mode.xoTry then s else s.tuneNoXo)
        else
          let s := ((s.put32 FES_KFC_L.w r.kfc).put CAL_TEMP.w (code16 temp)).put FES_STAT.RAW_TOUCHED 0
          let s : State := { s with fe := { s.fe with
            rx := some { r with second := false }, jobTemp := some temp,
            cfg := (jobRegs (bearer r.kfc)).map (fun k => (k, s.reg k)) } }
          if bearer r.kfc = 1 then
            let s := ((s.put FES_RAW_LNA.EN 0).put FES_RAW_MIX.EN 0).put FES_RAW_LFPGA.EN 1
            (((s.loadGains true).setPath 1).setJob 1).lfPick r.kfc
          else
            let s := ((s.put FES_RAW_LNA.EN 1).put FES_RAW_MIX.EN 1).put FES_RAW_LFPGA.EN 0
            let s := s.putBit FES_RAW_MIX.ZIF (bearer r.kfc == 3)
            (((s.loadGains false).synTo r.kfc).setPath (bearer r.kfc)).setJob 1
      else s
    | none => s)

/-- A VHF tune job has loaded its values and has not reached lock: PROGRAM, LOCK or BANDCAL, whose ends no command marks (log
entry 2). -/
def State.locking (s : State) : Bool := s.fe.rx.any (fun r => bearer r.kfc != 1) && 1 ≤ s.get FES_STAT.JOB && s.get FES_STAT.JOB ≤ 3

/-- `TUNE_LOCK`: the synthesizer locks (R274). -/
def execTuneLock (vtune : Nat) (s : State) : Host.Outcome State Fault Refusal :=
  .next (if s.locking then
    (((s.put FES_STAT.LOCKED 1).put SYN_STAT.LOCK 1).put SYN_VTUNE.w vtune).setJob 4
  else s)

/-- The survey watch that runs, with its step and count (Table 11.2). -/
def State.surveyRun (s : State) : Option (Run × Watch) := s.runs.find? (fun rw => recKind rw.2.words == kSURVEY)

/-- The next channel of a survey, or the end of its measurements; the first one's stamp is kept (R295). -/
def State.surveyNext (s : State) (v : Nat) : State :=
  match s.surveyRun with
  | some (_, w) =>
    let n := s.fe.survey.length + 1
    let s : State := if s.fe.survey = [] then { s with fe := { s.fe with surveyAt := s.stamp } } else s
    let s : State := { s with fe := { s.fe with survey := s.fe.survey ++ [BitVec.ofNat 16 v] } }
    if n < recByte w.words 28 then s.rxStart (recKfc w.words + n * recWord w.words 13) 0x40 []
    else s.rxStop
  | none => s

/-- A tune job fails after its second wait: the path powers down and its occurrences are MISSED with LOCK_FAIL; a failed
survey channel reads 0x8000, and a candidate under confirmation waits for the return (R275, R295, R309). -/
def State.tuneFail (s : State) : State :=
  let s := (s.pathOff.setJob 7).inc FES_CNT_LOCKFAIL.w
  if s.surveyRun.isSome then s.surveyNext 0x8000
  else if s.fm.confirm.isSome ∨ s.dab.confirm.isSome then s
  else
    let s := s.missRuns (fun rw => recKind rw.2.words != kCAPT) 3
    (if s.liveListens = [] then s.rxStop.setJob 7 else s).showActs

/-- The one VCO band in use is recalibrated: the synthesizer, the raw register and `SYN_STAT` take the band found (R275). -/
def State.bandCal (s : State) (band : Nat) : State :=
  let s := ((s.put SYN_BAND.w (band % 64)).put SYN_STAT.BAND band).setJob 3
  { s with fe := { s.fe with syn := s.fe.syn.take 3 ++ [band % 64] ++ s.fe.syn.drop 4 } }

/-- `TUNE_LOCK_TIMEOUT`: the band is recalibrated, to `band`, and a second wait runs, else the job fails (R275). -/
def execTuneLockTimeout (band : Nat) (s : State) : Host.Outcome State Fault Refusal :=
  .next (match s.fe.rx with
    | some r =>
      if s.locking then
        if r.second then s.tuneFail
        else ({ s with fe := { s.fe with rx := some { r with second := true } } } : State).bandCal band
      else s
    | none => s)

/-- An RSSI held in the range of its band (R278). -/
def clampRssi (lf : Bool) (v : Int) : Int := if lf then max (-40) (min 520 v) else max (-480) (min 40 v)

/-! ### Submersion inference (R292 to R294) -/

/-- The middle of a sorted list of values in 0.25 dB, in 1/256 dB: the mean of the two middle ones for an even count. -/
def median (l : List Int) : Int :=
  let a := l.insertionSort (· ≤ ·)
  32 * (a.getD ((a.length - 1) / 2) 0 + a.getD (a.length / 2) 0)

/-- The entry of a KFC. -/
def State.baseOf (s : State) (kfc : Nat) : Option Base := s.fe.bases.find? (fun b => b.kfc == kfc)

/-- Replaces the entries; `BASE_OK` follows them. -/
def State.setBases (s : State) (l : List Base) : State :=
  let s : State := { s with fe := { s.fe with bases := l } }
  s.putBit FLOOD_STAT.BASE_OK (l.any (fun b => bearer b.kfc != 1 && b.base.isSome) &&
    l.any (fun b => bearer b.kfc == 1 && b.base.isSome))

/-- Entries held of a band: two for LF, eight for VHF. -/
def baseRoom (lf : Bool) : Nat := if lf then 2 else 8

/-- The latest LF RSSI less its baseline, in 1/256 dB (R293). -/
def State.lfDev (s : State) : Option Int :=
  match s.fe.lf with
  | some (v, kfc, _) => (s.baseOf kfc).bind (fun b => b.base.map (fun x => 64 * v - x))
  | none => none

/-- An entry takes a measurement: it learns, then follows by a sixty-fourth where it may (R292). -/
def Base.take (b : Base) (v : Int) (learn : Nat) (counts moves : Bool) (sec : Nat) : Base :=
  match b.base with
  | some x => { b with base := some (if moves then x + Config.round (((64 * v - x : Int) : ℚ) / 64) else x), seen := sec }
  | none =>
    let l := if counts then b.samples ++ [v] else b.samples
    if learn ≤ l.length then { b with samples := [], base := some (median l), seen := sec }
    else { b with samples := l, seen := sec }

/-- A measurement on a KFC reaches the baselines; a new KFC takes a free entry. -/
def State.learn (s : State) (kfc : Nat) (v : Int) (counts moves : Bool) : State :=
  let n := s.get FLOOD_CFG.LEARN_N
  let lf := bearer kfc == 1
  match s.baseOf kfc with
  | some _ => s.setBases (s.fe.bases.map (fun b => if b.kfc = kfc then b.take v n counts moves s.sec else b))
  | none =>
    if (s.fe.bases.filter (fun b => (bearer b.kfc == 1) == lf)).length < baseRoom lf then
      s.setBases (s.fe.bases ++ [Base.take ⟨kfc, [], none, s.sec⟩ v n counts moves s.sec])
    else s

/-- The flood state takes a value; each change sets FLOOD_STATE (R294). -/
def State.setFlood (s : State) (v : Nat) : State :=
  if s.get FLOOD_STAT.STATE = v then s else (s.put FLOOD_STAT.STATE v).raise1 jFLOOD_STATE

/-- The candidate state of a loss in 1/256 dB (R293). -/
def State.floodCand (s : State) (loss : Int) : Nat :=
  let dev := s.lfDev
  let fresh : Bool := match s.fe.lf with | some (_, _, t) => decide (s.sec < t + 86400) | none => false
  let off : Bool := match dev with | some d => decide (64 * (s.get FLOOD_LFTOL.TOL : Int) < d.natAbs) | none => true
  if ¬ s.bit FLOOD_STAT.BASE_OK ∨ ¬ fresh ∨ off then 0
  else
    let damp : Int := 256 * s.get FLOOD_THR.DAMP_DB
    let sub : Int := 256 * s.get FLOOD_THR.SUB_DB
    let c := if loss < damp then 1 else if loss < sub then 2 else 3
    let cur := s.get FLOOD_STAT.STATE
    let low := if cur = 3 then sub else damp
    if c < cur ∧ ¬ loss < low - 256 * s.get FLOOD_CFG.HYST then cur else c

/-- `FLOOD_LFDEV`: D now (R293). -/
def State.showLfDev (s : State) : State :=
  match s.lfDev with
  | some d => s.put FLOOD_LFDEV.w (code16 (Config.round ((d : ℚ) / 64)))
  | none => s.put FLOOD_LFDEV.w 0x8000

/-- An evaluation at a VHF RSSI on a learned KFC, and its confirmation (R293, R294). -/
def State.floodEval (s : State) (base v : Int) : State :=
  let loss := max 0 (min (255 * 256) (base - 64 * v))
  let s := (s.put FLOOD_STAT.LOSS (roundNat ((loss : ℚ) / 256))).showLfDev
  let c := s.floodCand loss
  let n := if c = s.fe.cand then s.fe.candN + 1 else 1
  let s : State := { s with fe := { s.fe with cand := c, candN := n, loss := loss, evalAt := s.sec } }
  if s.get FLOOD_CFG.NCONF ≤ n then s.setFlood c else s

/-- An RSSI that became valid on a KFC, for the baselines and the flood state. -/
def State.floodMeasure (s : State) (kfc : Nat) (v : Int) : State :=
  if bearer kfc = 1 then
    let s : State := { s with fe := { s.fe with lf := some (v, kfc, s.sec) } }
    s.learn kfc v true (s.fe.loss < 256 * s.get FLOOD_THR.DAMP_DB)
  else
    let moves := s.get FLOOD_STAT.STATE == 1
    let counts := match s.lfDev with
      | some d => decide (d.natAbs ≤ 64 * s.get FLOOD_LFTOL.TOL)
      | none => true
    let s := match (s.baseOf kfc).bind Base.base with
      | some x => s.floodEval x v
      | none => s
    s.learn kfc v counts moves

/-- `FLOOD_UNKNOWN_TIMEOUT`: seven days without an evaluation (R294). -/
def execFloodUnknownTimeout (s : State) : Host.Outcome State Fault Refusal :=
  .next (if s.get FLOOD_STAT.STATE ≠ 0 ∧ s.fe.evalAt + 604800 ≤ s.sec then s.setFlood 0 else s)

/-- FLOOD_CMD.RELEARN (R292). -/
def State.relearn (s : State) : State :=
  let s := (s.setBases []).setFlood 0
  { s with fe := { s.fe with cand := 0, candN := 0 } }

/-- `BASELINE_ENTRY_DROP`: an entry without a measurement for 60 days (R292). -/
def execBaselineEntryDrop (kfc : Nat) (s : State) : Host.Outcome State Fault Refusal :=
  .next (match s.baseOf kfc with
    | some b => if b.seen + 60 * 86400 ≤ s.sec then s.setBases (s.fe.bases.filter (fun e => e.kfc != kfc)) else s
    | none => s)

/-! ### AGC, loss of lock, retry -/

/-- `AGC_SETTLED`: the job enters RUN, the gains and RSSI show, the flood inference takes the RSSI; a survey goes on to
its next channel (R274, R277, R278, R293, R295). -/
def execAgcSettled (rssi : Int) (lna ifGain lfGain : Nat) (s : State) : Host.Outcome State Fault Refusal :=
  .next (match s.fe.rx with
    | some r =>
      if s.get FES_STAT.JOB = 4 ∨ (s.get FES_STAT.JOB = 1 ∧ bearer r.kfc = 1) then
        let v := clampRssi (bearer r.kfc == 1) rssi
        let s := (s.setGains lna ifGain lfGain).setJob 5
        let s := (s.put FES_RSSI.w (code16 v)).floodMeasure r.kfc v
        if s.surveyRun.isSome then s.surveyNext (code16 v) else s
      else s
    | none => s)

/-- `LOSS_OF_LOCK`: the job returns to LOCK and RSSI is invalid; the bearer sees a gap (R276, R305). -/
def execLossOfLock (s : State) : Host.Outcome State Fault Refusal :=
  .next (match s.fe.rx with
    | some r =>
      if s.get FES_STAT.JOB = 5 ∧ bearer r.kfc ≠ 1 then
        let s := ((s.put FES_STAT.LOCKED 0).put SYN_STAT.LOCK 0).put FES_RSSI.w 0x8000
        let s := s.setJob 2
        { s with fe := { s.fe with rx := some { r with second := false } }, fm := { s.fm with gap := true } }
      else s
    | none => s)

/-- `LISTEN_JOB_RETRY`: a failed LISTEN job starts again (R275). -/
def execListenJobRetry (s : State) : Host.Outcome State Fault Refusal :=
  .next (if s.get FES_STAT.JOB = 7 ∧ s.liveListens ≠ [] then s.put FES_STAT.JOB 0 else s)

/-- `RF_SURVEY`: every channel of a survey occurrence has been measured and the record is delivered (R295). -/
def execRfSurvey (f : Fn) (idx : Nat) (s : State) : Host.Outcome State Fault Refusal :=
  .next (match s.surveyRun with
    | some (r, w) =>
      if r.fn = f ∧ r.idx = idx ∧ s.fe.survey.length = recByte w.words 28 then
        let s := s.deliver f 4 (lowHigh (recKfc w.words) ++
          [BitVec.ofNat 16 (recWord w.words 13), BitVec.ofNat 16 (recByte w.words 28)] ++ s.fe.survey) [] s.fe.surveyAt
        { s with fe := { s.fe with survey := [] } }
      else s
    | none => s)

/-! ### AF checks (R279, R280) -/

/-- A VHF reception is in RUN, or in an AF check of it, and the front end is not held. -/
def State.vhfRun (s : State) : Bool :=
  match s.fe.rx with
  | some r => (s.get FES_STAT.JOB == 5 || s.get FES_STAT.JOB == 6) && bearer r.kfc != 1 && !s.bit FES_STAT.HOLD
  | none => false

/-- The job returns from an AF check to RUN, with the home values loaded (Table 12.5). -/
def State.afBack (s : State) : State :=
  match s.fe.rx with
  | some r => if s.get FES_STAT.JOB = 6 then (s.synTo r.kfc).setJob 5 else s
  | none => s

/-- A write of `FES_AF_CTL.GO` by a function (R280): the values of the alternative are loaded (Table 12.5). -/
def State.afGo (s : State) (f : Fn) : State :=
  let kfc := s.get32 FES_AF_KFC_L.w
  if s.vhfRun then
    match s.fe.rx with
    | some r =>
      if bearer kfc ≠ bearer r.kfc ∨ ¬ kfcInRange kfc then s.setErr f eBADARG
      else if s.fe.afHost.isSome then s.setErr f eBUSY
      else
        let s := (((s.put FES_AF_STAT.BUSY 1).put FES_STAT.AF_BUSY 1).synTo kfc).setJob 6
        { s with fe := { s.fe with afHost := some kfc } }
    | none => s
  else s.setErr f eMODE

/-- An AF check of a KFC has ended after `us` µs with its measurement, or with LOCKFAIL; the demodulator saw a gap (R278,
R279). -/
def State.afResult (s : State) (kfc : Nat) (rssi : Option Int) (us : Nat) : State :=
  let s := ({ s with fm := { s.fm with gap := true } } : State).putSat FES_AF_STAT.DUR us
  match rssi with
  | some x =>
    let v := clampRssi false x
    (((s.put FES_AF_STAT.VALID 1).put FES_AF_STAT.LOCKFAIL 0).put FES_AF_RSSI.w (code16 v)).floodMeasure kfc v
  | none => ((s.put FES_AF_STAT.VALID 0).put FES_AF_STAT.LOCKFAIL 1).put FES_AF_RSSI.w 0x8000

/-- `AF_CHECK`: the requested check ends; the alternative did not lock where `rssi` is none (R279, R280). -/
def execAfCheck (rssi : Option Int) (us : Nat) (s : State) : Host.Outcome State Fault Refusal :=
  .next (match s.fe.afHost with
    | some kfc =>
      let s := ((s.put FES_AF_STAT.BUSY 0).put FES_STAT.AF_BUSY 0).afBack
      ({ s with fe := { s.fe with afHost := none } } : State).afResult kfc rssi us
    | none => s)

/-! ### Raw registers (R281 to R284) -/

/-- A raw write lands: a reception it disturbs is marked, a pending AF check ends without a measurement, following under
confirmation stops for the rest of the reception (R283, Table 13.6), and the charge it draws is counted to F0 (R284). -/
def State.rawTouch (s : State) : State :=
  if s.fe.rx.isSome ∧ 1 ≤ s.get FES_STAT.JOB ∧ s.get FES_STAT.JOB ≤ 6 then
    let s := ((s.put FES_STAT.RAW_TOUCHED 1).inc FES_CNT_RAW.w).chargeOpen .f0
    let s := if s.fe.afHost.isSome then
      (((s.put FES_AF_STAT.BUSY 0).put FES_STAT.AF_BUSY 0).put FES_AF_STAT.VALID 0).afBack else s
    let follows := s.fm.confirm.isSome || s.dab.confirm.isSome
    let s := (s.put FMR_STAT.AF_CONFIRM 0).put DAB_STAT.AF_CONFIRM 0
    { s with fe := { s.fe with afHost := none, rx := s.fe.rx.map (fun r => { r with stopped := r.stopped || follows }) },
             fm := { s.fm with confirm := none }, lf := { s.lf with spoiled := true }, dab := { s.dab with confirm := none },
             sched := { s.sched with running := s.sched.running.map (fun r =>
               match s.watchOf r.fn r.idx with
               | some w => if recKind w.words = kCAPT then r else { r with raw := true }
               | none => r) } }
  else s

/-- SYN_APPLY.APPLY loads the six raw registers together (R282). -/
def State.synApply (s : State) : State :=
  let total := (s.get SYN_N.w % 0x100) * 2 ^ 22 + s.get32 SYN_FRAC_L.w % 2 ^ 22
  let s := s.rawTouch
  let s : State := { s with fe := { s.fe with
    syn := [s.get SYN_DIV.w % 8, total / 2 ^ 22, total % 2 ^ 22, s.get SYN_BAND.w % 64, s.get SYN_CP.w % 16] } }
  let s := (s.put SYN_STAT.DIV (s.get SYN_DIV.w)).put SYN_STAT.BAND (s.get SYN_BAND.w)
  s.put32 SYN_LO_L.w (roundNat (49152000 * (total : ℚ) / 2 ^ 22 / loDiv (s.get SYN_DIV.w % 8)))

/-- Writes the writable bits of a register. -/
def State.putMasked (s : State) (key mask v : Nat) : State :=
  s.setReg key (BitVec.ofNat 16 (((s.reg key).toNat &&& (0xFFFF ^^^ mask)) ||| (v &&& mask)))

/-- A write of `FES_RAW_LNA`, `FES_RAW_MIX` or `FES_RAW_LFPGA` (key 0x0B8B to 0x0B8D): it acts at once while its path
is powered, where `FES_AGC` shows the gain in use (R282, R283). -/
def State.rawWrite (s : State) (key : Nat) (v : Word) : State :=
  let s := s.putMasked key (if key = 0x0B8C then 0x030F else if key = 0x0B8D then 0x0107 else 0x010F) v.toNat
  let path := s.get FES_STAT.PATH
  let on := if key = 0x0B8D then path == 1 else 2 ≤ path
  if on then
    let g := v.toNat % 16
    let s := if key = 0x0B8B then s.put FES_AGC.LNA g else if key = 0x0B8C then s.put FES_AGC.IF g
      else s.put FES_AGC.LFPGA g
    s.rawTouch
  else s

/-- Raw hold starts: the named path is powered, receptions are spoilt, LISTENs pause (R284). -/
def State.holdStart (s : State) : State :=
  let s := s.rawTouch
  let s := s.eachFn State.pauseListen allFns
  let s := s.rxStop.setJob 0
  ((s.put FES_STAT.HOLD 1).setPath (s.get FES_RAW_CTL.PATH)).showActs

/-- Raw hold ends: control returns to the sequencer, listening resumes, and the charge drawn is counted to F0 (R284). -/
def State.holdEnd (s : State) : State :=
  let s := ((s.put FES_STAT.HOLD 0).pathOff).chargeOpen .f0
  (s.eachFn State.resumeListen allFns).showActs

/-- A hold that waits starts once no calibration runs and the unit may power its front end (Table 12.8, R19). -/
def State.holdDue (s : State) : State :=
  if s.fe.holdWait ∧ s.fe.cal.isNone ∧ s.runsPlans ∧ s.awake then ({ s with fe := { s.fe with holdWait := false } } : State).holdStart
  else s

/-- A write of `FES_RAW_CTL`; hold asked for during a calibration starts after it (Table 12.8), and one asked for in a unit
that runs no plans powers nothing until the unit is active (R19, log entry 169). -/
def State.rawCtl (s : State) (v : Word) : State :=
  let was := s.bit FES_STAT.HOLD
  let s := (s.put FES_RAW_CTL.PATH (v.toNat / 2)).put FES_RAW_CTL.HOLD v.toNat
  if v.toNat % 2 = 1 then
    if s.fe.cal.isSome ∨ ¬ s.runsPlans ∨ ¬ s.awake then { s with fe := { s.fe with holdWait := true } }
    else if was then s.setPath (s.get FES_RAW_CTL.PATH) else s.holdStart
  else
    let s : State := { s with fe := { s.fe with holdWait := false } }
    if was then s.holdEnd else s

/-! ### Calibrations (R285 to R290) -/

/-- Something R290 names blocks a calibration. -/
def State.calBlocked (s : State) : Bool :=
  s.fe.rx.isSome || s.capt.job.isSome || s.img.staging || s.bit FES_STAT.HOLD || s.fe.cal.isSome || s.dueWithin 100

/-- The path powered at a moment of a calibration run: one that a selected calibration needs, LF for the LF ADC offset and the
VHF paths for the others but the temperature sensor; which one, the run's progress says, which no command marks (R271, Table
12.6, log entry 170). -/
def State.calPath (s : State) : State :=
  match s.fe.cal with
  | some (mask, _) =>
    let paths := (if mask / 16 % 2 = 1 then [1] else []) ++ (if mask &&& 0x2F = 0 then [] else [2, 3]) ++
      (if mask / 64 % 2 = 1 then [0] else [])
    let (w, s) := s.fresh
    s.setPath (paths.getD (w.toNat % paths.length) 0)
  | none => s

/-- A calibration run starts as a MAINTAIN activity. -/
def State.calStart (s : State) (mask : Nat) (op : Bool) : State :=
  let s := s.put CAL_STAT.RUNNING 1
  ({ s with fe := { s.fe with cal := some (mask, op) } } : State).calPath.showMaintain

/-- `CAL_RUN`: the op starts the selected calibrations, all seven for mask 0, or is refused with BUSY (R290). -/
def execCalRun (f : Fn) (s : State) : Host.Outcome State Fault Refusal :=
  .next (s.withOp f 3 (fun a =>
    if s.fe.cal.any (fun c => c.2) then s
    else if ¬ s.runsPlans then s.outcome f eMODE []
    else if s.calBlocked then s.outcome f eBUSY []
    else s.calStart (if arg a 0 % 0x80 = 0 then 0x7F else arg a 0 % 0x80) true))

/-- The record's age in days (`CAL_REC_AGE`). -/
def State.showCalAge (s : State) : State :=
  match s.fe.calRec with
  | some (_, t) => s.putSat CAL_REC_AGE.w ((s.sec - t) / 86400)
  | none => s.put CAL_REC_AGE.w 0xFFFF

/-- The end of a calibration of the kinds in `mask`; `op` when a mailbox op asked for it (R286 to R290). -/
def State.calEnd (s : State) (mask : Nat) (op : Bool) (good margin ms : Nat) (temp : Int) (bands : List Nat) : State :=
  let passed := mask &&& good
  let failed := mask - passed
  let s := ((s.put CAL_STAT.RUNNING 0).put CAL_STAT.FAIL failed).put CAL_DONE_MASK.w passed
  let s := ((s.putSat CAL_LAST_MS.w ms).inc CAL_CNT.w).put CAL_TEMP.w (code16 temp)
  let s := if passed % 2 = 1 then
      ({ s with fe := { s.fe with bands := (bands.take 5).map (· % 64) } } : State).put CAL_VCO_MARGIN.w margin else s
  let s : State := { s with fe := { s.fe with cal := none, calGood := s.fe.calGood ||| passed } }
  let s := s.pathOff
  let s := if mask = 0x7F ∧ failed = 0 then
      let s : State := { s with fe := { s.fe with calRec := some (temp, s.sec) } }
      (((s.put CAL_STAT.REC_VALID 1).put CAL_REC_TEMP.w (code16 temp)).put CAL_STAT.AUTO_PEND 0).showCalAge
    else s
  let s := ((s.raise1 jCAL_DONE).showMaintain).chargeOpen .f0
  let s := if op then
      match allFns.find? (fun f => (s.eng f).op.any (fun o => o.code == 3)) with
      | some f => s.outcome f 0 [BitVec.ofNat 16 passed, BitVec.ofNat 16 failed, BitVec.ofInt 16 temp, BitVec.ofNat 16 ms]
      | none => s
    else s
  s.holdDue

/-- `CAL_DONE`: the run ends; masks, record, band table, margin and the op's results (R286 to R288, Table 12.7). -/
def execCalDone (good margin ms : Nat) (temp : Int) (bands : List Nat) (s : State) : Host.Outcome State Fault Refusal :=
  .next (match s.fe.cal with
    | some (mask, op) => s.calEnd mask op good margin ms temp bands
    | none => s)

/-- `AUTO_PEND`: the record is 30 days old, or the temperature has drifted by more than 15 °C (R289). -/
def execAutoPend (s : State) : Host.Outcome State Fault Refusal :=
  .next (match s.fe.calRec with
    | some (t, at0) =>
      if s.bit CAL_CFG.AUTO_EN ∧
          (at0 + 30 * 86400 ≤ s.sec ∨ s.fe.jobTemp.any (fun j => 120 < (j - t).natAbs)) then
        (s.put CAL_STAT.AUTO_PEND 1).showCalAge
      else s
    | none => s)

/-- `AUTO_CAL_START`: nothing blocks the pending run (R289), and the unit is neither standby nor undecided, whose front end
stays powered down (R19). -/
def execAutoCalStart (s : State) : Host.Outcome State Fault Refusal :=
  .next (if s.bit CAL_STAT.AUTO_PEND ∧ ¬ s.calBlocked ∧ s.awake ∧ s.runsPlans then
    (s.put CAL_STAT.AUTO_PEND 0).calStart 0x7F false
  else s)

/-! ### The sequencer between commands -/

/-- Milliseconds since the tune job's last change of state, at a cycle. -/
def State.jobMs (s : State) (cycle : Nat) : Nat := (cycle - s.fe.jobAt) * 1000 / 32768

/-- A new millisecond, or a new period of `n` ms, of the tune job's state begins with the present cycle. -/
def State.jobBeat (s : State) (n : Nat) : Bool := s.jobMs s.aon / n != s.jobMs (s.aon - 1) / n

/-- `FES_RSSI` takes the average over the last 16 ms, which the signal at the pins gives (R278, log entry 116). -/
def State.rssiUpdate (s : State) (lf : Bool) : State :=
  let (w, s) := s.fresh
  s.put FES_RSSI.w (code16 (clampRssi lf (signed16 w.toNat)))

/-- A gain code one step down or up, within its range, or as it was. -/
def stepGain (g top move : Nat) : Nat := if move = 1 then g - 1 else if move = 2 then min top (g + 1) else g

/-- AGC moves the gains as R277 lets it: on FM one step of one stage in a millisecond, on DAB freely in the null symbol of each
96 ms frame, on LF one step in 10 ms. Which way it moves, the signal gives. -/
def State.agcMove (s : State) (b : Nat) : State :=
  let (w, s) := s.fresh
  let v := w.toNat
  let lna := s.get FES_AGC.LNA
  let ig := s.get FES_AGC.IF
  let lf := s.get FES_AGC.LFPGA
  if b = 1 then s.setGains lna ig (stepGain lf 7 (v % 3))
  else if b = 3 then s.setGains (v % 16) (v / 16 % 16) lf
  else if v / 4 % 2 = 0 then s.setGains (stepGain lna 15 (v % 3)) ig lf
  else s.setGains lna (stepGain ig 15 (v % 3)) lf

/-- What the sequencer does in an AON cycle: PROGRAM and BANDCAL end after the times of Table 12.4 and R275, RUN updates RSSI
every millisecond and moves the gains, and so does raw hold for RSSI (R274 to R278, R284). -/
def State.frontTick (s : State) : State :=
  if s.fe.cal.isSome then s.calPath
  else if s.bit FES_STAT.HOLD then if s.get FES_STAT.PATH ≠ 0 ∧ s.jobBeat 1 then s.rssiUpdate (s.get FES_STAT.PATH == 1) else s
  else match s.fe.rx with
    | some r =>
      let b := bearer r.kfc
      if s.get FES_STAT.JOB = 1 ∧ s.fe.jobAt + 2 ≤ s.aon then s.setJob (if b = 1 then 4 else 2)
      else if s.get FES_STAT.JOB = 3 ∧ s.fe.jobAt + 17 ≤ s.aon then s.setJob 2
      else if s.get FES_STAT.JOB = 5 then
        let s := if s.jobBeat 1 then s.rssiUpdate (b == 1) else s
        if s.jobBeat (if b = 1 then 10 else if b = 3 then 96 else 1) then s.agcMove b else s
      else s
    | none => s

end Sys2Proof.Machine
end

