-- ==== Sys2Proof/Machine/Timeline.lean ====
section
/-! DEFINITION. The admission procedure's arithmetic (spec 11): placement, the reservoir simulation and the energy
model. Instants are KTIME in units of 2⁻²⁴ s; physical quantities are exact rationals in seconds, volts, amperes and
farads. -/

namespace Sys2Proof.Machine

open R

/-- A second in KTIME units. -/
def oneSec : Nat := 2 ^ 24

/-- KTIME units as seconds. -/
def toSecs (t : Nat) : ℚ := (t : ℚ) / 2 ^ 24

/-- A rational number of seconds in KTIME units, rounded up. -/
def unitsUp (q : ℚ) : Nat := (⌈q * 2 ^ 24⌉).toNat

/-! ### Quantities of the reservoir (Table 3.2) -/

/-- I_leak, I_eff, V_start, V_stop and ESR. -/
def State.iLeak (s : State) : ℚ := (s.get RES_LEAK_EST.w : ℚ) / 100000000
def State.iEff (s : State) : ℚ := ((s.get CHG_CFG.CHG_LIMIT + 1 : Nat) : ℚ) / 4000 * s.get THROT_AVG.FRAC / 255
def State.vStart (s : State) : ℚ :=
  min (2 + (s.get VRES_TGT.TGT : ℚ) / 100) (((s.get VBAT_MEAS.w : ℚ) - 30) / 1000)
def State.vStop (s : State) : ℚ :=
  max (2 + (s.get VRES_STOP.STOP : ℚ) / 100) (1.2 + (s.get BUCK_V.VOUT : ℚ) / 20 + 0.25)
def State.esr (s : State) : ℚ := (s.get RES_ESR.w : ℚ) / 1000

/-- t_pre in seconds; none where I_eff ≤ I_leak gives no time (R45). -/
def State.tPre (s : State) : Option ℚ :=
  if s.iEff ≤ s.iLeak then none
  else some (max 0 (1.25 * s.cEst * (s.vStart - (s.get VRES_MEAS.w : ℚ) / 1000) / (s.iEff - s.iLeak) + 1))

/-! ### Watches as admission sees them -/

/-- A watch with its owner, its index and its first nominal start. -/
structure PWatch where
  fn : Fn
  idx : Nat
  words : List Word
  start : Nat
  deriving DecidableEq, Repr

/-- A placed occurrence with its watch and its span. -/
structure Placed where
  w : PWatch
  nominal : Nat
  at_ : Nat
  lo : Nat
  hi : Nat
  deriving DecidableEq, Repr

/-- The acquisition lead of a bearer in KTIME units (`SCHED_ACQ`; 0 for LF). -/
def State.acqLead (s : State) (b : Nat) : Nat :=
  match b with
  | 2 => s.get SCHED_ACQ.FM * oneSec / 100
  | 3 => s.get SCHED_ACQ.DAB * oneSec / 100
  | _ => 0

/-- A watch needs Pika (Table 11.2). -/
def needsPika (r : List Word) : Bool :=
  if recKind r = kCAPT then recByte r 27 % 2 == 1
  else bearer (recKfc r) == 3 && recKind r != kSURVEY

/-- The span of an occurrence that starts at an instant: the reception with its acquisition lead, or the capture with
`CAPT_LEAD` before it (R257, R441). -/
def State.spanOf (s : State) (r : List Word) (t : Nat) : Nat × Nat :=
  if recKind r = kCAPT then (t - s.captLead, t + recDur r * oneSec / 10)
  else (t, t + s.acqLead (bearer (recKfc r)) + recDur r * oneSec / 10)

/-- The lead of test (a): wake, pre-charge, and 15 ms when Pika is not loaded and the watch needs it (R257). -/
def State.firstLead (s : State) (r : List Word) : ℚ :=
  (if s.bit MODE_CFG.IDLE_DEEP then 0.03 else 0.00035) + s.tPre.getD 0 +
    (if needsPika r && !s.pikaOn then 0.015 else 0)

/-- Size of a sub-channel in CU: as found in a reception, 192 before any (R324). -/
def State.cuOf (s : State) (kfc sub : Nat) : Nat :=
  match s.sched.sizes.find? (fun e => e.1 == kfc && e.2.1 == sub) with
  | some e => e.2.2
  | none => 192

/-- Two watches may share a reception or a capture at the given starts (R257 (b), R442). -/
def mayShare (a b : List Word) (ta tb : Nat) : Bool :=
  if recKind a = kCAPT then
    recKind b == kCAPT && ta == tb && recWord a 13 == recWord b 13 && recWord a 15 == recWord b 15
  else recKfc a == recKfc b && !recFlag a 2 && !recFlag b 2 &&
    (recSub a == 0x40 || recSub b == 0x40 || recSub a == recSub b)

/-- The two spans meet when each is widened by `gap`; repeating ones meet in any turn of the cycle `c` (R258). -/
def meets (c gap : Nat) (rep : Bool) (lo hi lo' hi' : Nat) : Bool :=
  let hit (d : Int) : Bool := decide ((lo : Int) < hi' + d + gap) && decide ((lo' : Int) + d < hi + gap)
  if rep then
    let k : Int := ((lo : Int) - lo') / c
    hit (k * c) || hit ((k + 1) * c) || hit ((k - 1) * c)
  else hit 0

/-- Loads of the placed activities that meet the span, by Table 11.4; activities of one reception or one shared capture
count once. -/
def State.loadOf (s : State) (l : List (List Word × Nat)) : Nat :=
  let dab := l.filter (fun e => needsPika e.1 && recKind e.1 != kCAPT)
  let kfcs := (dab.map (fun e => recKfc e.1)).eraseDups
  let rx := kfcs.map (fun k => 20 + ((dab.filter (fun e => recKfc e.1 == k)).map (fun e =>
    if recSub e.1 = 0x40 then 0 else (s.cuOf k (recSub e.1) + 7) / 8)).foldl max 0)
  let caps := ((l.filter (fun e => needsPika e.1 && recKind e.1 == kCAPT)).map (fun e => (e.2, recWord e.1 13, recWord e.1 15))).eraseDups
  rx.sum + 35 * caps.length

/-- The cycle in KTIME units: a week when any watch has that period, a day otherwise (R258). -/
def cycleOf (ws : List PWatch) : Nat :=
  if ws.any (fun w => recPeriod w.words == 604800) then 604800 * oneSec else 86400 * oneSec

/-- The first failing test of a start, as its reason of Table 11.6; 0 when all hold (R257). -/
def State.testStart (s : State) (done : List Placed) (c : Nat) (w : PWatch) (t : Nat) (lead : Option Nat) : Nat :=
  let (lo, hi) := s.spanOf w.words t
  let rep (p : Placed) : Bool := recPeriod w.words != 0 || recPeriod p.w.words != 0
  let near := done.filter (fun p => meets c 0 (rep p) lo hi p.lo p.hi)
  let bad (p : Placed) : Bool :=
    if recKind w.words = kCAPT ∨ recKind p.w.words = kCAPT then
      recKind w.words == kCAPT && recKind p.w.words == kCAPT && !mayShare w.words p.w.words (t % c) (p.at_ % c)
    else !mayShare w.words p.w.words t p.at_
  let addrs := ((near.filter (fun p => recKfc p.w.words == recKfc w.words && recSub p.w.words != 0x40)).map
    (fun p => recWord p.w.words 15) ++ [recWord w.words 15]).eraseDups
  let retune := s.get SCHED_RETUNE.w * oneSec / 1000000
  let tight (p : Placed) : Bool := recKind w.words != kCAPT && recKind p.w.words != kCAPT &&
    recKfc p.w.words != recKfc w.words && meets c retune (rep p) lo hi p.lo p.hi
  let early : Bool := match lead with | some l => decide (lo < l) | none => false
  let load (x : Nat) : Nat := s.loadOf ((w.words, t % c) ::
    (near.filter (fun p => meets c 0 (rep p) x (x + 1) p.lo p.hi)).map (fun p => (p.w.words, p.at_ % c)))
  let points := lo :: (near.map (fun p => (p.lo + c - lo % c) % c + lo)).filter (fun x => x < hi)
  if early then 6
  else if near.any bad ∨ (recSub w.words ≠ 0x40 ∧ 8 < addrs.length) then 1
  else if done.any tight then 2
  else if needsPika w.words ∧ points.any (fun x => s.get SCHED_DSP_MAX.w < load x) then 3
  else 0

/-- The earliest start from the nominal start in steps of 10 ms at which every test holds, or the reason at the last
one. -/
def State.findStart (s : State) (done : List Placed) (c : Nat) (w : PWatch) (nominal : Nat) (lead : Option Nat) :
    Nat → Nat → Nat ⊕ Nat
  | k, 0 => match s.testStart done c w (nominal + k * oneSec / 100) lead with
    | 0 => .inl (nominal + k * oneSec / 100)
    | r => .inr r
  | k, fuel + 1 => match s.testStart done c w (nominal + k * oneSec / 100) lead with
    | 0 => .inl (nominal + k * oneSec / 100)
    | _ => s.findStart done c w nominal lead (k + 1) fuel

/-- Nominal starts in the cycle from `t0`, each with whether it is a real occurrence rather than an earlier turn of a
repeating watch that has not begun (R258). -/
def nominals (w : PWatch) (t0 c : Nat) : List (Nat × Bool) :=
  let p := recPeriod w.words * oneSec
  if p = 0 then [(w.start, true)]
  else
    let first := t0 + ((w.start % p + p) - t0 % p) % p
    (List.range (c / p)).map (fun k => (first + k * p, decide (w.start ≤ first + k * p)))

/-- Places the occurrences of one watch; the lead is tested for its first occurrence (R257 (a), log entry 101). -/
def State.placeOccs (s : State) (c t0 : Nat) (w : PWatch) (firstDone : Bool) (done : List Placed) :
    List (Nat × Bool) → List Placed ⊕ Nat
  | [] => .inl done
  | (n, real) :: l =>
    let lead := if real ∧ ¬ firstDone then some (t0 + unitsUp (s.firstLead w.words)) else none
    match s.findStart done c w n lead 0 (recSlack w.words * 100) with
    | .inl t =>
      let (lo, hi) := s.spanOf w.words t
      s.placeOccs c t0 w (firstDone || real) (done ++ [⟨w, n, t, lo, hi⟩]) l
    | .inr r => .inr r

/-- The placed occurrence of a one-shot watch that is running, which keeps its place. -/
def State.runningOnce (s : State) (w : PWatch) : Option Placed :=
  if recPeriod w.words = 0 ∧ s.sched.running.any (fun r => r.fn == w.fn && r.idx == w.idx && r.nominal == w.start) then
    (s.sched.timeline.find? (fun o => o.fn == w.fn && o.idx == w.idx && o.nominal == w.start)).map (fun o =>
      let (lo, hi) := s.spanOf w.words o.start
      ⟨w, o.nominal, o.start, lo, hi⟩)
  else none

/-- Places every watch in the given order; on failure the reason and the watch (R257). -/
def State.placeAll (s : State) (c t0 : Nat) (done : List Placed) : List PWatch → List Placed ⊕ (Nat × PWatch)
  | [] => .inl done
  | w :: l =>
    match s.runningOnce w with
    | some p => s.placeAll c t0 (done ++ [p]) l
    | none =>
      match s.placeOccs c t0 w false done (nominals w t0 c) with
      | .inl d => s.placeAll c t0 d l
      | .inr r => .inr (r, w)

/-- Priority class 3 down to 0, then F0 to F3, then index; the list is given by function and index (R257). -/
def byClass (ws : List PWatch) : List PWatch :=
  [3, 2, 1, 0].flatMap (fun c => ws.filter (fun w => recClass w.words == c))

/-! ### Reservoir simulation (R259) -/

/-- The modelled current of an activity in amperes (Table 11.5). -/
def State.actCurrent (s : State) (r : List Word) : ℚ :=
  (if recKind r = kCAPT then ((s.get SCHED_I_CAPT.w + 10 * recWord r 14 : Nat) : ℚ)
   else match bearer (recKfc r) with
    | 1 => (s.get SCHED_I_LF.w : ℚ)
    | 2 => (s.get SCHED_I_FM.w : ℚ)
    | _ => (s.get SCHED_I_DAB.w : ℚ)) / 1000000

/-- One activity of the simulation: its span, the reception or capture it belongs to, its current, the watch, and
whether the test looks at it. -/
structure Act where
  lo : Nat
  hi : Nat
  key : Nat × Nat × Nat
  amps : ℚ
  w : PWatch
  main : Bool
  deriving DecidableEq, Repr

/-- What makes two watches one activity: the KFC, or the capture's parameters. -/
def actKey (r : List Word) : Nat × Nat × Nat :=
  if recKind r = kCAPT then (0, recWord r 13, recWord r 15) else (1, recKfc r, 0)

/-- Inserts by start, then end. -/
def insertAct (a : Act) : List Act → List Act
  | [] => [a]
  | b :: l => if a.lo < b.lo ∨ (a.lo = b.lo ∧ a.hi ≤ b.hi) then a :: b :: l else b :: insertAct a l

/-- A burst: its span, its activities and their summed current. -/
structure Burst where
  lo : Nat
  hi : Nat
  acts : List Act
  deriving DecidableEq, Repr

/-- Overlapping activities form one burst (the list is sorted by start). -/
def bursts : List Act → List Burst → List Burst
  | [], out => out
  | a :: l, [] => bursts l [⟨a.lo, a.hi, [a]⟩]
  | a :: l, b :: out =>
    if a.lo < b.hi then bursts l (⟨b.lo, max b.hi a.hi, b.acts ++ [a]⟩ :: out)
    else bursts l (⟨a.lo, a.hi, [a]⟩ :: b :: out)

/-- The summed current of a burst; one reception or capture counts once, at its largest current. -/
def Burst.amps (b : Burst) : ℚ :=
  ((b.acts.map Act.key).eraseDups.map (fun k => ((b.acts.filter (fun a => a.key = k)).map Act.amps).foldl max 0)).sum

/-- V_end of a load (Table 3.4). -/
def State.vEnd (s : State) (amps : ℚ) : ℚ := s.vStop + amps * 3.3 / s.vStop * s.esr + 0.05

/-- The drop of a burst of a duration (Table 3.4). -/
def State.vDrop (s : State) (amps secs : ℚ) : ℚ :=
  (amps * 3.3 / s.vEnd amps - s.iEff + s.iLeak) * secs / s.cEst

/-- A burst that failed, or passed, with its starting and end voltage. -/
structure BurstRes where
  b : Burst
  v0 : ℚ
  v1 : ℚ
  /-- 0 passed, 1 BURST, 2 RECHARGE. -/
  fail : Nat
  deriving DecidableEq, Repr

/-- Runs the voltage through the bursts in order; a gap of an hour or more is charged at half I_eff where R259 says so. -/
def State.simulate (s : State) (v : ℚ) (prev : Nat) : List Burst → List BurstRes
  | [] => []
  | b :: l =>
    let gap := toSecs (b.lo - prev)
    let slow := s.get DEPASS_THR.THR ≤ s.get PASS_IDX.w ∧ ¬ s.bit DEPASS_CFG.DEPASS_AUTO ∧ 3600 ≤ gap
    let v0 := min s.vStart (v + ((if slow then s.iEff / 2 else s.iEff) - s.iLeak) * gap / s.cEst)
    let drop := s.vDrop b.amps (toSecs (b.hi - b.lo))
    let v1 := min s.vStart (v0 - drop)
    let fail := if v1 < s.vEnd b.amps then (if s.vStart - drop < s.vEnd b.amps then 1 else 2) else 0
    ⟨b, v0, v1, fail⟩ :: s.simulate v1 b.hi l

/-- A placed one-shot occurrence, and the cycle from `t0` that it falls in. -/
def Placed.once (p : Placed) : Bool := recPeriod p.w.words == 0
def Placed.turn (t0 c : Nat) (p : Placed) : Nat := (p.lo - t0) / c

/-- The cycles whose activities differ from the repeating ones: those of the one-shots, and the cycle after each, which it may
leave short of charge (R258). -/
def turnsOf (t0 c : Nat) (l : List Placed) : List Nat :=
  ((l.filter Placed.once).flatMap (fun p => [p.turn t0 c, p.turn t0 c + 1])).eraseDups

/-- What takes place in a cycle: every repeating occurrence, and the one-shots of that cycle; `none` is a cycle without any. -/
def inTurn (t0 c : Nat) (l : List Placed) (k : Option Nat) : List Placed :=
  l.filter (fun p => !p.once || k == some (p.turn t0 c))

/-- The activities of two cycles of which the second is tested: repeating ones in both, one-shots in their own (R258, R259). -/
def State.actsOf (s : State) (t0 c : Nat) (l : List Placed) (k : Option Nat) : List Act :=
  (l.flatMap (fun p =>
    let phase := (p.lo % c + c - t0 % c) % c
    let a (turn : Nat) (main : Bool) : Act :=
      ⟨t0 + turn * c + phase, t0 + turn * c + phase + (p.hi - p.lo), actKey p.w.words, s.actCurrent p.w.words, p.w, main⟩
    if p.once then
      if k = some (p.turn t0 c) then [a 1 true] else if k = some (p.turn t0 c + 1) then [a 0 false] else []
    else [a 0 false, a 1 true])).foldr insertAct []

/-- The watch reported: the draft's first, then by function and index. -/
def rank (draft : Option Fn) (w : PWatch) : Nat := (if draft = some w.fn then 0 else 1000) + 100 * w.fn.toNat + w.idx

/-- The least of a list under a rank. -/
def leastBy {α : Type} (f : α → Nat) : List α → Option α
  | [] => none
  | a :: l => match leastBy f l with
    | some b => if f a ≤ f b then some a else some b
    | none => some a

/-- The simulation's results by cycle, and its failure as detail and watch (Table 11.6). -/
def State.reservoir (s : State) (t0 c : Nat) (draft : Option Fn) (l : List Placed) :
    List (Option Nat × List BurstRes) × Option (Nat × PWatch) :=
  if l = [] then ([], none)
  else if s.iEff ≤ s.iLeak then ([], (leastBy (rank draft) (l.map Placed.w)).map (fun w => (3, w)))
  else
    let rs := (none :: (turnsOf t0 c l).map some).map (fun k => (k, s.simulate s.vStart t0 (bursts (s.actsOf t0 c l k) []).reverse))
    let bad := (rs.flatMap Prod.snd).flatMap (fun r => if r.fail = 0 then []
      else (r.b.acts.filter Act.main).map (fun a => (r.fail, a.w)))
    (rs, leastBy (fun e => rank draft e.2) bad)

/-! ### Energy (R260 to R262) -/

/-- The middle voltage of the burst that holds a tested activity of a placed occurrence. -/
def vMid (s : State) (rs : List BurstRes) (p : Placed) (c : Nat) : ℚ :=
  match rs.find? (fun r => r.b.acts.any (fun a => a.main && a.w == p.w && a.lo % c == p.lo % c)) with
  | some r => (r.v0 + r.v1) / 2
  | none => s.vStart

/-- The spans of another occurrence that meet an occurrence, in the other's turns of the cycle. -/
def metSpans (c : Nat) (p q : Placed) : List (Int × Int) :=
  let k : Int := ((p.lo : Int) - q.lo) / c
  ([k - 1, k, k + 1].map (fun j => ((q.lo : Int) + j * c, (q.hi : Int) + j * c))).filter (fun e => decide (e.1 < p.hi ∧ (p.lo : Int) < e.2))

/-- Spans of one cycle that share the activity of an occurrence, its own among them. -/
def sharers (l : List Placed) (p : Placed) (c : Nat) : List (Int × Int) :=
  (l.filter (fun q => actKey q.w.words = actKey p.w.words)).flatMap (metSpans c p)

/-- An occurrence's share of its activity's time in seconds: each moment in equal parts to the watches that share it. -/
def shareSecs (l : List Placed) (p : Placed) (c : Nat) : ℚ :=
  let sh := sharers l p c
  let cuts := ((((p.lo : Int) :: (p.hi : Int) :: sh.flatMap (fun e => [e.1, e.2])).filter
    (fun x => decide ((p.lo : Int) ≤ x ∧ x ≤ p.hi))).eraseDups).insertionSort (· ≤ ·)
  ((cuts.zip (cuts.drop 1)).map (fun e =>
    toSecs (e.2 - e.1).toNat / ((sh.filter (fun x => decide (x.1 ≤ e.1 ∧ e.2 ≤ x.2))).length.max 1 : Nat))).sum

/-- The charge of an occurrence in µAh (R260). -/
def State.chargeOf (s : State) (rs : List BurstRes) (l : List Placed) (p : Placed) (c : Nat) : ℚ :=
  (s.get SCHED_MARGIN.w : ℚ) / 100 * (s.actCurrent p.w.words * 1000000) * shareSecs l p c / 3600 * 3.3 / vMid s rs p c +
    ((if s.bit MODE_CFG.IDLE_DEEP then s.get SCHED_QWAKE.DEEP else s.get SCHED_QWAKE.WARM : Nat) : ℚ) / 1000

/-- Days of a cycle, and the day an instant falls in, counted from the day of `t0` (R261). -/
def cycleDays (c : Nat) : Nat := c / (86400 * oneSec)
def State.dayOf (s : State) (t0 t : Nat) : Nat :=
  let d (x : Nat) : Nat := (x / oneSec + 86400 - 60 * s.get SCHED_DAY_OFS.w) / 86400
  d t - d t0

/-- The days that admission looks at: those of one cycle, and the own day of each one-shot. -/
def State.daysOf (s : State) (l : List Placed) (t0 c : Nat) : List Nat :=
  (List.range (cycleDays c) ++ (l.filter Placed.once).map (fun p => s.dayOf t0 p.at_)).eraseDups

/-- Charge of a depassivation pulse in µAh, once a day when automatic (R260). -/
def State.depassDay (s : State) : ℚ :=
  if s.bit DEPASS_CFG.DEPASS_AUTO then ((5 * s.get DEPASS_CFG.DEPASS_I * 10 * s.get DEPASS_CFG.DEPASS_T : Nat) : ℚ) / 3600
  else 0

/-- The occurrences of a day with their charge and tuner time: the one-shots of that day, and every repeating occurrence of the
same day of the cycle, each simulated and shared in the cycle it falls in. -/
def State.dayCosts (s : State) (rs : List (Option Nat × List BurstRes)) (l : List Placed) (t0 c d : Nat) :
    List (Placed × Nat × ℚ × ℚ) :=
  let n := cycleDays c
  l.filterMap (fun p =>
    let dp := s.dayOf t0 p.at_
    if (p.once ∧ dp ≠ d) ∨ (¬ p.once ∧ dp % n ≠ d % n) then none
    else
      let k := if p.once then p.turn t0 c else (d - dp) / n
      let k' := if (turnsOf t0 c l).contains k then some k else none
      let m := inTurn t0 c l k'
      let r := ((rs.find? (fun e => e.1 == k')).map Prod.snd).getD []
      some (p, d, s.chargeOf r m p c, if recKind p.w.words = kCAPT then 0 else shareSecs m p c))

/-- Each occurrence with its day, its charge and its tuner time. -/
def State.costs (s : State) (rs : List (Option Nat × List BurstRes)) (l : List Placed) (t0 c : Nat) :
    List (Placed × Nat × ℚ × ℚ) :=
  (s.daysOf l t0 c).flatMap (s.dayCosts rs l t0 c)

/-- Sums of charge and of tuner time over the costs that meet `q`. -/
def sumE (l : List (Placed × Nat × ℚ × ℚ)) (q : Placed → Nat → Bool) : ℚ :=
  ((l.filter (fun e => q e.1 e.2.1)).map (fun e => e.2.2.1)).sum
def sumT (l : List (Placed × Nat × ℚ × ℚ)) (q : Placed → Nat → Bool) : ℚ :=
  ((l.filter (fun e => q e.1 e.2.1)).map (fun e => e.2.2.2)).sum

/-- The days that bear a cost, and at least those of one cycle. -/
def costDays (cs : List (Placed × Nat × ℚ × ℚ)) (c : Nat) : List Nat :=
  (List.range (cycleDays c) ++ cs.map (fun e => e.2.1)).eraseDups

/-- The device's own share of a day in µAh: rest current and leakage under the margin (R260). -/
def State.restDay (s : State) : ℚ :=
  (s.get SCHED_MARGIN.w : ℚ) / 100 * ((s.get SCHED_I_REST.w : ℚ) / 1000 + s.iLeak * 1000000) * 24

/-- The quota registers of a function. -/
def State.quotaE (s : State) (f : Fn) : Nat := s.get (PART_QE_F.w f.toNat)
def State.quotaT (s : State) (f : Fn) : Nat := s.get (PART_QT_F.w f.toNat)

/-- The first quota, cap or budget that fails: reason, detail and the draft's watch with charge on that day (R260). -/
def State.energyFail (s : State) (cs : List (Placed × Nat × ℚ × ℚ)) (c : Nat) (draft : Fn) (ws : List PWatch) :
    Option (Nat × Nat × PWatch) :=
  let days := costDays cs c
  let mine := ws.filter (fun w => w.fn == draft)
  let report (d : Nat) : Option PWatch :=
    match mine.find? (fun w => 0 < sumE cs (fun p e => p.w == w && e == d)) with
    | some w => some w
    | none => mine.head?
  let overE (d : Nat) (f : Fn) : Bool := s.quotaE f != 0xFFFF &&
    decide ((s.quotaE f : ℚ) < sumE cs (fun p e => p.w.fn == f && e == d) + if f = .f0 then s.depassDay else 0)
  let overT (d : Nat) (f : Fn) : Bool := s.quotaT f != 0xFFFF &&
    decide ((s.quotaT f : ℚ) < sumT cs (fun p e => p.w.fn == f && e == d))
  let overCap (d : Nat) (w : PWatch) : Bool := recCap w.words != 0 &&
    decide ((recCap w.words : ℚ) < sumE cs (fun p e => p.w == w && e == d))
  let overAll (d : Nat) : Bool := s.get BUDGET_UAH_DAY.w != 0xFFFF &&
    decide ((s.get BUDGET_UAH_DAY.w : ℚ) < sumE cs (fun _ e => e == d) + s.depassDay + s.restDay)
  let quota := days.findSome? (fun d =>
    if allFns.any (overE d) then (report d).map (fun w => (4, 1, w))
    else if allFns.any (overT d) then (report d).map (fun w => (4, 2, w))
    else if ws.any (overCap d) then (report d).map (fun w => (4, 3, w)) else none)
  match quota with
  | some r => some r
  | none => days.findSome? (fun d => if overAll d then (report d).map (fun w => (13, d % cycleDays c, w)) else none)

/-- Rounded up and held at 16 bits. -/
def ceil16 (q : ℚ) : Nat := min 0xFFFF (⌈q⌉).toNat

/-- `PLAN_USE_E`, `PLAN_USE_T` and `SCHED_DEV_PLAN`: the heaviest day (R262). -/
def State.showUse (s : State) (cs : List (Placed × Nat × ℚ × ℚ)) (c : Nat) : State :=
  let days := costDays cs c
  let s := s.eachFn (fun s f =>
    let e := (days.map (fun d => sumE cs (fun p x => p.w.fn == f && x == d))).foldl max 0
    let t := (days.map (fun d => sumT cs (fun p x => p.w.fn == f && x == d))).foldl max 0
    (s.fput f PLAN_USE_E.w (ceil16 e)).fput f PLAN_USE_T.w (ceil16 t)) allFns
  s.put SCHED_DEV_PLAN.w
    (ceil16 ((days.map (fun d => sumE cs (fun _ x => x == d))).foldl max 0 + s.depassDay + s.restDay))

/-- Every committed watch of the device, by function and index. -/
def State.committed (s : State) : List PWatch :=
  allFns.flatMap (fun f => (s.plan f).plan.mapIdx (fun i w => ⟨f, i, w.words, w.start⟩))

/-- A placed occurrence as the timeline keeps it. -/
def Placed.occ (p : Placed) : Occ := ⟨p.w.fn, p.w.idx, p.nominal, p.at_, p.hi⟩

/-- The timeline of the committed plans is placed again from the present KTIME; what cannot be placed keeps its earlier
occurrences (R269: recomputed after a step). -/
def State.retime (s : State) : State :=
  let ws := byClass s.committed
  let c := cycleOf ws
  match s.placeAll c s.ktime [] ws with
  | .inl l => { s with sched := { s.sched with timeline := l.map Placed.occ, cycle := c / oneSec } }
  | .inr _ => s

/-- Nominal starts of a watch in the span from `old`, not included, to `new`, from its own start on and after the last that it has
had. -/
def Watch.passed (w : Watch) (old new : Nat) : List Nat :=
  let p := recPeriod w.words * oneSec
  let l := if p = 0 then [w.start] else (List.range ((new - w.start) / p + 1 - (old - w.start) / p)).map
    (fun k => w.start + ((old - w.start) / p + k) * p)
  l.filter (fun n => decide (old < n ∧ n ≤ new) && w.last.all (fun x => decide (x < n)))

/-- Occurrences whose nominal start a forward step has passed: SKIPPED, each once (R269). -/
def State.skipPassed (s : State) (old : Nat) : State :=
  s.committed.foldl (fun s e =>
    match s.watchOf e.fn e.idx with
    | some w =>
      let l := w.passed old s.ktime
      let p := s.plan e.fn
      let s := match l.getLast? with
        | some n => s.setPlan e.fn { p with plan := p.plan.set e.idx { w with last := some n } }
        | none => s
      l.foldl (fun s n => s.planEvent e.fn 3 1 (recId w.words) (n / oneSec)) s
    | none => s) s

end Sys2Proof.Machine
end

