-- ==== Sys2Proof/Machine/Time.lean ====
section
/-! DEFINITION. The timebase (spec 16): the AON cycle, candidates, corrections, discipline, leap seconds and the loss of
time quality. -/

namespace Sys2Proof.Machine

open R

/-! ### The AON cycle (R352, R355, R357) -/

/-- One AON cycle: KTIME advances through the fractional accumulator, a slew absorbs 500 ppm, the bound grows. -/
def State.tick (s : State) : State :=
  let t := s.time
  let part : Int := max (-256) (min 256 t.slew)
  let step : Int := 512 * (100000000 + if s.onX32 then s.trim else 0) + 100000 * part
  let acc := t.acc + step.toNat
  let s : State := { s with
    aon := s.aon + 1, ktime := (s.ktime + acc / 100000000) % 2 ^ 64,
    time := { t with
      acc := acc % 100000000, slew := t.slew - part, bound := t.bound.map (fun b => b + 1000 * t.rate) } }
  (if part = 0 then s else s.rearmLoss).showTq

/-- A step with no command waiting: one AON cycle passes, for the timebase and the front-end sequencer, but in SHUTDOWN and in
power-on reset, where nothing runs. -/
def State.idle (s : State) : State := if s.pins.porAsserted ∨ s.get MODE.CUR = 0 then s else s.tick.frontTick

/-! ### Leap seconds (R364, R365) -/

/-- Day number, from 2000-01-01, of 1 January of year 2000 + `k`. -/
def yearDay (k : Nat) : Nat := 365 * k + (k + 3) / 4 + (k + 399) / 400 - (k + 99) / 100

/-- The first end of 30 June or 31 December after a UTC second, in UTC seconds. -/
def nextHalfYear (utc : Nat) : Nat :=
  let k := utc / 86400 * 400 / 146097
  let ends := [k - 1, k, k + 1].flatMap (fun y =>
    let leap := yearDay (y + 1) - yearDay y - 365
    [86400 * (yearDay y + 181 + leap), 86400 * yearDay (y + 1)])
  (ends.find? (fun e => utc < e)).getD utc

/-- UTC now in seconds. -/
def State.utc (s : State) : Nat := ((s.sec : Int) - s.time.leap).toNat

/-- LEAP changes. -/
def State.putLeap (s : State) (v : Int) : State := { s with time := { s.time with leap := v } }

/-- The pending announcement is dropped. -/
def State.clearLeap (s : State) : State :=
  ((s.put TIME_LEAP_PEND.w 0).put32 TIME_LEAP_AT_L.w 0).put TIME_STAT.LEAP_PEND 0

/-- A leap announcement: sign 1 insertion or 2 deletion, at a UTC instant; one equal to the pending one changes nothing
(R364). -/
def State.announce (s : State) (sign utcEnd : Nat) : State :=
  let at_ : Nat := ((utcEnd : Int) + s.time.leap + if sign = 1 then 1 else -1).toNat
  if s.get TIME_LEAP_PEND.w = sign ∧ s.get32 TIME_LEAP_AT_L.w = at_ then s
  else
    let s := ((s.put TIME_LEAP_PEND.w sign).put32 TIME_LEAP_AT_L.w at_).put TIME_STAT.LEAP_PEND 1
    s.timeEvent 5 sign s.tqNow s.tqNow 0 [iTIME_UPDATE] s.stamp

/-- The pending leap second takes effect (R365). -/
def State.leapNow (s : State) : State :=
  let sign := s.get TIME_LEAP_PEND.w
  let s := (s.putLeap (signed16 (code16 (s.time.leap + if sign = 1 then 1 else -1)))).clearLeap
  s.timeEvent 6 sign s.tqNow s.tqNow 0 [iTIME_UPDATE] s.stamp

/-- A leap second is pending and its KTIME second has come. -/
def State.leapDue (s : State) : Bool := s.get TIME_LEAP_PEND.w != 0 && s.get32 TIME_LEAP_AT_L.w ≤ s.sec

/-- `LEAP_APPLIED` (R365). -/
def execLeapApplied (s : State) : Host.Outcome State Fault Refusal := .next (if s.leapDue then s.leapNow else s)

/-! ### Candidates (R356 to R359) -/

/-- A candidate reaches the timebase. -/
def State.candidate (s : State) (src code : Nat) (named : Int) (held : Nat) (fn : Option Fn) (force : Bool) : State :=
  { s with time := { s.time with cands := s.time.cands ++ [⟨src, code, named, held, fn, force, s.aon⟩] } }

/-- The place of a source among candidates of one code: DAB, LF, RDS, host, twin. -/
def srcRank : Nat → Nat
  | 4 => 0
  | 3 => 1
  | 2 => 2
  | 1 => 3
  | _ => 4

/-- A candidate's source is enabled. -/
def State.srcOn (s : State) (c : Cand) : Bool := s.get TIME_SRC_EN.w / 2 ^ c.src % 2 == 1

/-- The tests of R356; FORCE passes them all (R359). -/
def State.candPasses (s : State) (c : Cand) : Bool :=
  c.force || (s.srcOn c && (s.time.src == 0 || c.code ≤ codeOf s.time.whole))

/-- Results of the TIME_SET behind a candidate: outcome and Δ (Table 16.2). -/
def State.setDone (s : State) (c : Cand) (res : Nat) : State :=
  match c.fn with
  | some f => s.outcome f 0 (BitVec.ofNat 16 res :: deltaWords (c.named - c.held))
  | none => s

/-- The candidate's instant as a short stamp. -/
def Cand.stamp (c : Cand) : Nat := c.held % 2 ^ 32

/-- A candidate that is not applied (R356). -/
def State.rejectCand (s : State) (c : Cand) : State :=
  let s := s.inc TIME_CNT_REJ.w
  let s := s.timeEvent 3 c.src s.tqNow s.tqNow (c.named - c.held) [] c.stamp
  s.setDone c (if s.srcOn c then 2 else 3)

/-- KTIME takes a step: occurrences, the pulse and a leap second passed follow, and the candidates that wait keep their Δ to
KTIME as it stands (R357, R365, R368). -/
def State.stepBy (s : State) (d : Int) : State :=
  let old := s.ktime
  let s := s.account
  let moved (c : Cand) : Cand := { c with held := ((c.held : Int) + d).toNat }
  let s : State := { s with
    ktime := ((s.ktime : Int) + d).toNat % 2 ^ 64,
    time := { s.time with
      slew := 0, pulseSkip := true, cands := s.time.cands.map moved, deferred := s.time.deferred.map moved } }
  let s : State := { s with sched := { s.sched with useAt := s.ktime } }
  let s := s.inc TIME_CNT_STEP.w
  (s.skipPassed old).retime

/-- Applies a candidate whose bound is `b`: by slew or by step (R357). -/
def State.applyCand (s : State) (c : Cand) (b : Nat) : State :=
  let d := c.named - c.held
  let lim := s.get TIME_SLEW_LIM.w
  let tq0 := s.tqNow
  let tq1 := tqByte c.src (codeOf (some b))
  let slew : Bool := lim != 0 && d.natAbs * 1000000 ≤ lim * 2 ^ 24
  let at_ := s.stamp
  let s := if slew then ({ s with time := { s.time with slew := 1000 * d } } : State) else s.stepBy d
  let s : State := { s with time := { s.time with src := c.src, bound := some b, rate := s.holdRate } }
  let s : State := { s with time := { s.time with prevCode := codeOf s.time.whole } }
  let s := s.rearmLoss.showTq
  let s := (s.inc TIME_CNT_APPLY.w).put32 TIME_LAST_L.w (s.sec % 0x100000000)
  let s := s.timeEvent (if slew then 1 else 2) c.src tq0 tq1 d [iTIME_UPDATE] at_
  let s := if ¬ slew ∧ s.leapDue then s.leapNow else s
  s.setDone c (if slew then 1 else 0)

/-- Keeps a candidate for the end of the capture (R358). -/
def State.deferCand (s : State) (c : Cand) : State :=
  let keep : Bool := match s.time.deferred with | some o => decide (c.code ≤ o.code) | none => true
  let s : State := if keep then { s with time := { s.time with deferred := some c } } else s
  let s := s.put TIME_STAT.DEFERRED 1
  let s := s.timeEvent 7 c.src s.tqNow s.tqNow (c.named - c.held) [] s.stamp
  s.setDone c 4

/-- The candidate of a cycle that is applied: a forced one, else the lowest code, then the order of R356. -/
def pickCand (l : List Cand) : Option Cand :=
  leastBy (fun c => if c.force then 0 else 1 + c.code * 8 + srcRank c.src) l

/-- Rejects every candidate of a list. -/
def State.rejectAll (s : State) : List Cand → State
  | [] => s
  | c :: l => (s.rejectCand c).rejectAll l

/-- `TIME_CANDIDATE_APPLY`: the candidates of the oldest waiting AON cycle are ranked; one is applied, or deferred by a
capture, and the others are rejected (R356, R357, R358). -/
def execTimeCandidateApply (s : State) : Host.Outcome State Fault Refusal :=
  .next (match s.time.cands with
    | [] => s
    | c0 :: _ =>
      let now := s.time.cands.filter (fun c => c.aon == c0.aon)
      let s : State := { s with time := { s.time with cands := s.time.cands.filter (fun c => c.aon != c0.aon) } }
      match pickCand (now.filter s.candPasses) with
      | some c =>
        let s := if s.capt.job.isSome then s.deferCand c else s.applyCand c (2 ^ c.code * usUnit)
        s.rejectAll (now.erase c)
      | none => s.rejectAll now)

/-- `TIME_DEFERRED_APPLY`: after the capture the kept candidate is tested with its aged bound (R358). -/
def execTimeDeferredApply (s : State) : Host.Outcome State Fault Refusal :=
  .next (match s.time.deferred with
    | some c =>
      if s.capt.job.isSome then s
      else
        let b := 2 ^ c.code * usUnit + (s.aon - c.aon) * 1000 * s.holdRate
        let s : State := { s with time := { s.time with deferred := none } }
        let s := s.put TIME_STAT.DEFERRED 0
        let aged : Cand := { c with code := codeOf (some b), fn := none }
        if s.candPasses aged then s.applyCand aged b else s.rejectCand aged
    | none => s)

/-- `SLEW_END`: the slew has absorbed Δ (R357). -/
def execSlewEnd (s : State) : Host.Outcome State Fault Refusal :=
  .next (if s.time.slew = 0 then s.showTq else s)

/-- The LEAP action of a TIME_SET (Table 16.2). -/
def State.leapAction (s : State) (act leap : Nat) : State :=
  match act with
  | 1 => s.putLeap (signed16 leap)
  | 2 => s.announce 1 (nextHalfYear s.utc)
  | 3 => s.announce 2 (nextHalfYear s.utc)
  | _ => s

/-- `TIME_SET`: a host time candidate at the instant of GO, and a change of LEAP (R359). -/
def execTimeSet (f : Fn) (s : State) : Host.Outcome State Fault Refusal :=
  .next (s.withOp f 2 (fun a =>
    let code := arg a 4 % 32
    let force := arg a 4 / 0x100 % 2 == 1
    let waits : Bool := s.time.cands.any (fun c => c.fn == some f)
    let held := match (s.eng f).op with | some o => o.at_ | none => s.ktime
    if waits then s
    else if force ∧ f ≠ .f0 then s.outcome f eGRANT []
    else
      let s1 := s.leapAction (arg a 4 / 0x400 % 4) (arg a 5)
      if code = 31 then s1.outcome f 0 [5, 0, 0]
      else
        let named := arg a 0 + 0x10000 * arg a 1 + 0x100000000 * arg a 2 + 0x1000000000000 * arg a 3
        s1.candidate 1 code named held (some f) force))

/-! ### Frequency discipline (R360 to R363) -/

/-- The always-on domain runs and its cycle count stands on the grid of 64 s (R519). -/
def State.tempGrid (s : State) : Bool := !s.pins.porAsserted && s.get MODE.CUR != 0 && s.aon % (64 * 32768) == 0

/-- `AON_TEMP_SAMPLE`: on its grid, the trim and the holdover rate follow the temperature (R355, R362, R519). -/
def execAonTempSample (temp : Int) (s : State) : Host.Outcome State Fault Refusal :=
  .next (if ¬ s.tempGrid then s else
    let s : State := { s with time := { s.time with temp := temp } }
    let s := s.put TIME_TEMP.w (code16 temp)
    let s := if s.capt.job.isSome then s else s.setTrim
    { s with time := { s.time with rate := s.holdRate } })

/-- A broadcast measurement of the XO error with its SD (R360). -/
def State.xoMeasure (s : State) (err : Int) (sd : Nat) : State :=
  let s : State := { s with time := { s.time with xoMeas := (err, sd, s.sec) :: s.time.xoMeas } }
  if sd ≤ 50 then
    let s : State := { s with time := { s.time with xoFed := s.time.xoFed ++ [(s.time.temp, err, s.sec)] } }
    if 32 ≤ s.time.xoFed.length then s.put TIME_STAT.XO_MODEL_OK 1 else s
  else s

/-- `TIME_SPAN` takes in a temperature. -/
def State.widenSpan (s : State) (first : Bool) : State :=
  let t := Config.round ((s.time.temp : ℚ) / 8)
  let hi := if first then t else max t (signed8 (s.get TIME_SPAN.w / 0x100))
  let lo := if first then t else min t (signed8 (s.get TIME_SPAN.w))
  s.put TIME_SPAN.w ((hi % 0x100).toNat * 0x100 + (lo % 0x100).toNat)

/-- `X32_PAIR_WINDOW`: a window of X32 against XO ends; its pair is accepted or not (R361, R373). `moved` is how far the
temperature moved in it, in 0.125 °C. -/
def execX32PairWindow (relErr : Int) (moved : Nat) (s : State) : Host.Outcome State Fault Refusal :=
  .next (match s.xoBroadcast, s.time.xoMeas with
    | some e, (_, sd, _) :: _ =>
      if s.bit CLK_STAT.XO_OK ∧ s.onX32 ∧ sd ≤ 50 ∧ moved < 4 then
        let v := relErr + Config.round e
        let first := s.time.x32Fed.isEmpty
        let s : State := { s with time := { s.time with
          x32Fed := s.time.x32Fed ++ [(s.time.temp, v, s.sec)], lastPair := some v } }
        let s := (s.inc TIME_MODEL_N.w).widenSpan first
        let s := s.putSat TIME_X32_RESID.w (Config.x32Resid s.time.x32Fed s.sec)
        let s := if 32 ≤ s.time.x32Fed.length then s.put TIME_STAT.X32_MODEL_OK 1 else s
        if s.capt.job.isSome then s else s.setTrim
      else s
    | _, _ => s)

/-- Both models return to the prior; the trim is kept (Table 16.5). -/
def State.modelReset (s : State) : State :=
  let s : State := { s with time := { s.time with x32Fed := [], xoFed := [], lastPair := none } }
  let s := (s.put TIME_STAT.X32_MODEL_OK 0).put TIME_STAT.XO_MODEL_OK 0
  ((s.put TIME_MODEL_N.w 0).put TIME_SPAN.w 0).put TIME_X32_RESID.w 0

/-- The slope of the a0 records of the last 180 days in 0.001 ppm per 30 days (R363). -/
def a0Trend : List (Nat × Int) → ℚ
  | [(d0, a), (d1, b)] => ((b - a : Int) : ℚ) * 30 / ((d1 : ℚ) - d0)
  | l => (Config.a0Slope l : ℚ)

/-- Every 30th KTIME day with a learned model records a0 (R363). -/
def State.agingRecord (s : State) : State :=
  let day := s.sec / 86400
  if day % 30 = 0 ∧ s.bit TIME_STAT.X32_MODEL_OK ∧ ¬ s.time.a0s.any (fun r => r.1 == day) then
    let s : State := { s with time := { s.time with a0s := s.time.a0s ++ [(day, Config.x32A0 s.time.x32Fed s.sec)] } }
    if 2 ≤ s.time.a0s.length then
      s.put TIME_AGING.w (code16 (max (-0x7FFF) (min 0x7FFF
        (Config.round (a0Trend (s.time.a0s.filter (fun r => day ≤ r.1 + 180)))))))
    else s.put TIME_AGING.w 0x8000
  else s

/-! ### TIME_PULSE and LOSS (R368, R370) -/

/-- A pin carries TIME_PULSE. -/
def State.pulsePin (s : State) : Bool := (List.range 2).any (fun i =>
  s.get { GPIO0_CFG.FUNC with key := GPIO0_CFG.FUNC.key + i } == 2)

/-- KTIME stands, within one AON cycle, at a whole second plus `TIME_PPS_PH` µs. -/
def State.pulseInstant (s : State) : Bool :=
  decide (((s.ktime : Int) - signed16 (s.get TIME_PPS_PH.w) * 2 ^ 24 / 1000000) % 2 ^ 24 < 512)

/-- `TIME_PULSE`: at the pulse instant a pin that carries it rises, for WIDTH ms (R368). None is emitted without `VDDIO` or in
factory test (R29, R32). -/
def execTimePulse (s : State) : Host.Outcome State Fault Refusal :=
  .next (
    let c := codeOf s.time.whole
    if s.get MODE.CUR = 0 ∨ s.pins.porAsserted ∨ s.pins.test ∨ ¬ s.pins.vddio ∨ ¬ s.pulsePin ∨ ¬ s.pulseInstant then s
    else if s.time.pulseSkip then { s with time := { s.time with pulseSkip := false } }
    else if s.bit TIME_PPS.QUAL ∧ (31 ≤ c ∨ s.get TIME_LOSS_THR.w ≤ c) then s
    else { s with
      pins := { s.pins with timePulses := s.pins.timePulses + 1 },
      time := { s.time with pulseEnd := s.aon + (s.get TIME_PPS.WIDTH * 32768 + 999) / 1000 } })

/-- `TIME_LOSS`: the code has risen to 31, or to the threshold (R370). -/
def execTimeLoss (s : State) : Host.Outcome State Fault Refusal :=
  .next (
    let c := codeOf s.time.whole
    let p := s.time.prevCode
    let thr := s.get TIME_LOSS_THR.w
    let hit : State := { s with time := { s.time with prevCode := c } }
    if c = 31 ∧ p < 31 ∧ ¬ s.time.loss2 then
      ({ hit with time := { hit.time with loss2 := true } } : State).lossEvent 2 (tqByte s.time.src 30)
    else if thr ≤ c ∧ c < 31 ∧ p < thr ∧ ¬ s.time.loss1 then
      ({ hit with time := { hit.time with loss1 := true } } : State).lossEvent 1 (tqByte s.time.src (c - 1))
    else s)

/-- A threshold written at or below the present code counts as a rise to it (R370). -/
def State.thrWrite (s : State) (v : Nat) : State :=
  let c := codeOf s.time.whole
  let s := s.put TIME_LOSS_THR.w v
  if v ≤ c ∧ c < 31 ∧ ¬ s.time.loss1 then
    ({ s with time := { s.time with loss1 := true, prevCode := c } } : State).lossEvent 1 s.tqNow
  else s

end Sys2Proof.Machine
end

