-- ==== Sys2Proof/Machine/Edf.lean ====
section
/-! DEFINITION. Datacast and the Hoard (spec 17): segments, the erasure code, objects and their acceptance, storage,
delivery, van windows and the Hoard ops. -/

namespace Sys2Proof.Machine

open R

/-! ### Bytes -/

/-- A number of bytes, most significant first (R374). -/
def beNat (l : List Byte) : Nat := l.foldl (fun a b => a * 0x100 + b.toNat) 0

/-- The `n` bytes at an offset as a number. -/
def beAt (l : List Byte) (off n : Nat) : Nat := beNat ((l.drop off).take n)

/-! ### The erasure code (R381, R382) -/

/-- Product in GF(2⁸) with field polynomial 0x11D. -/
def gfMul (a b : Nat) : Nat :=
  let p := (List.range 8).foldl (fun x i => if b / 2 ^ i % 2 = 1 then x ^^^ (a * 2 ^ i) else x) 0
  [14, 13, 12, 11, 10, 9, 8].foldl (fun x i => if x / 2 ^ i % 2 = 1 then x ^^^ (0x11D * 2 ^ (i - 8)) else x) p

/-- A power in GF(2⁸). -/
def gfPow (a : Nat) : Nat → Nat
  | 0 => 1
  | n + 1 => gfMul a (gfPow a n)

/-- The inverse in GF(2⁸). -/
def gfInv (a : Nat) : Nat := gfPow a 254

/-- The point of index `i`: α^i. -/
def gfPoint (i : Nat) : Nat := gfPow 2 i

/-- The payload of data index `m` by interpolation over the segments held. -/
def interpolate (l : List Seg) (m : Nat) : List Byte :=
  let x := gfPoint m
  let coef (t : Seg) : Nat := (l.filter (fun u => u.i != t.i)).foldl (fun c u =>
    gfMul c (gfMul (x ^^^ gfPoint u.i) (gfInv (gfPoint t.i ^^^ gfPoint u.i)))) 1
  let cs := l.map (fun t => (coef t, t.data))
  (List.range 68).map (fun j => BitVec.ofNat 8 (cs.foldl (fun a c => a ^^^ gfMul c.1 (c.2.getD j 0).toNat) 0))

/-- Every data index of a block is held, or k is 1: the block completes by concatenation. -/
def Blk.systematic (b : Blk) : Bool := (b.k == 1 && !b.segs.isEmpty) || (List.range b.k).all (fun m => b.segs.any (fun t => t.i == m))

/-- The data of a block that holds k distinct indices. -/
def Blk.bytes (b : Blk) : List Byte :=
  if b.k = 1 then (b.segs.map Seg.data).headD []
  else (List.range b.k).flatMap (fun m => match b.segs.find? (fun t => t.i == m) with
    | some t => t.data
    | none => interpolate (b.segs.take b.k) m)

/-! ### Objects and usage (R399, R400, R402) -/

/-- The object of a stream id and an object id. -/
def State.obj (s : State) (stream id : Nat) : Option Obj := s.edf.objs.find? (fun o => o.stream == stream && o.id == id)

/-- Segments an object holds, waiting or in flash. -/
def Obj.held (o : Obj) : Nat := (o.blks.map (fun b => b.segs.length)).sum

/-- Blocks of an object that are complete. -/
def Obj.done (o : Obj) : Nat := (o.blks.filter Blk.complete).length

/-- Bytes an object is charged with. -/
def Obj.used (o : Obj) : Nat := 78 * o.held + 4096 * ((o.store.map Prod.snd).getD 0)

/-- KiB of a number of bytes, rounded up. -/
def kib (n : Nat) : Nat := (n + 1023) / 1024

/-- EDF_STREAM watches of a stream in a function's committed plan. -/
def State.streamWatches (s : State) (f : Fn) (stream : Nat) : List (List Word) :=
  ((s.plan f).plan.map Watch.words).filter (fun w => recKind w == kEDF && recWord w 13 % 0x1000 == stream)

/-- Functions with a committed EDF_STREAM watch on a stream. -/
def State.streamFns (s : State) (stream : Nat) : List Fn := allFns.filter (fun f => s.streamWatches f stream ≠ [])

/-- The function charged for an object: the lowest with a watch on the stream, else the one last charged. -/
def State.payer (s : State) (o : Obj) : Fn := (s.streamFns o.stream).headD o.payer

/-- Bytes of a function's capture store (R440). -/
def State.storeUse (s : State) (f : Fn) : Nat :=
  ((s.capt.stores.filter (fun e => e.1 == f)).map (fun e => 4096 * ((e.2.2 + 3) / 4))).sum

/-- Bytes charged to a function: its objects and its capture store (R400, R440). -/
def State.usage (s : State) (f : Fn) : Nat :=
  ((s.edf.objs.filter (fun o => s.payer o == f)).map Obj.used).sum + s.storeUse f

/-- Sectors of the Hoard area, from flash offset 0x210000 to the end of the flash (R398). -/
def State.sectors (s : State) : Nat := s.edf.flashSize / 0x1000 - 0x210

/-- Erase count of a sector. -/
def State.wearOf (s : State) (n : Nat) : Nat := match s.edf.wear.find? (fun e => e.1 == n) with | some e => e.2 | none => 0

/-- Sectors that hold an object store, a capture store or a segment record, or that are being filled. -/
def State.sectorUsed (s : State) (n : Nat) : Bool :=
  s.edf.objs.any (fun o => (match o.store with
      | some (off, k) => decide (off / 0x1000 - 0x210 ≤ n ∧ n < off / 0x1000 - 0x210 + k)
      | none => false) ||
    o.blks.any (fun b => b.segs.any (fun t => t.sector == some n))) ||
  (match s.edf.fill with | some (m, _) => m == n | none => false) ||
  s.capt.stores.any (fun e => decide (e.2.1 / 0x1000 - 0x210 ≤ n ∧ n < e.2.1 / 0x1000 - 0x210 + (e.2.2 + 3) / 4))

/-- One of `l`, open which (log entry 10). -/
def State.pick (s : State) (l : List Nat) : Option Nat × State :=
  let (w, s) := s.fresh
  (l[w.toNat % l.length]?, s)

/-- Erases a sector before use, which its count shows. -/
def State.eraseSector (s : State) (n : Nat) : State :=
  let l := (n, s.wearOf n + 1) :: s.edf.wear.filter (fun e => e.1 != n)
  { s with edf := { s.edf with wear := l } }

/-- The segments that wait in the SRAM cache (R398). -/
def State.waitingSegs (s : State) : Nat :=
  (s.edf.objs.map (fun o => (o.blks.map (fun b => (b.segs.filter (fun t => t.sector.isNone)).length)).sum)).sum

/-- The EDF page's derived registers follow the Hoard. -/
def State.showEdf (s : State) : State :=
  let o := s.edf.objs
  let n := s.sectors
  let s := s.putBit EDF_STAT.FLUSH_PEND (decide (0 < s.waitingSegs))
  let s := s.putSat EDF_AREA_KIB.w (4 * n)
  let s := s.putSat EDF_USED_KIB.w (kib ((o.map Obj.used).sum + (allFns.map s.storeUse).sum))
  let use (f : Fn) (s : State) : State := s.putSat (EDF_USE_F.w f.toNat) (kib (s.usage f))
  let s := use .f3 (use .f2 (use .f1 (use .f0 s)))
  let s := s.putSat EDF_OBJ_COLL.w ((o.filter (fun x => x.state == 1)).length)
  let s := s.putSat EDF_OBJ_HELD.w ((o.filter (fun x => x.state != 1)).length)
  let s := s.putSat EDF_WEAR_MAX.w ((s.edf.wear.map Prod.snd).foldl max 0)
  let s := s.putSat EDF_WEAR_MIN.w
    (if s.edf.wear.length < n then 0 else (s.edf.wear.map Prod.snd).foldl min ((s.edf.wear.map Prod.snd).headD 0))
  let v := leastBy Van.start s.edf.vans
  let s := (s.put EDF_VAN_N.N s.edf.vans.length).put32 EDF_VAN_NEXT_L.w ((v.map Van.start).getD 0)
  s.put EDF_VAN_DUR.w ((v.map Van.minutes).getD 0)

/-- Replaces an object. -/
def State.setObj (s : State) (o : Obj) : State :=
  ({ s with edf := { s.edf with objs := s.edf.objs.map (fun x => if x.stream = o.stream ∧ x.id = o.id then o else x) } } :
    State).showEdf

/-- The pair enters the done list, whose oldest entry goes when 512 are held (R401). -/
def State.addDone (s : State) (stream id : Nat) : State :=
  let l := s.edf.done ++ [(stream, id, s.sec)]
  { s with edf := { s.edf with done := if 512 < l.length then l.drop 1 else l } }

/-- Removes an object's data; `toDone` enters the pair in the done list. -/
def State.removeObj (s : State) (o : Obj) (toDone : Bool) : State :=
  let s : State := { s with edf := { s.edf with objs := s.edf.objs.filter (fun x => !(x.stream == o.stream && x.id == o.id)) } }
  (if toDone then s.addDone o.stream o.id else s).showEdf

/-- The object is the source of the staging in progress. -/
def State.staged (s : State) (o : Obj) : Bool := s.img.staging && s.img.srcObj == (o.stream, o.id)

/-- An object leaves HELD; an IMAGE that a staging uses waits for its end (R401). -/
def State.leaveHoard (s : State) (o : Obj) : State :=
  if s.staged o then s.setObj { o with dying := true } else s.removeObj o (o.state == 2)

/-- Objects whose deletion waited for the staging now go. -/
def State.reapStaged (s : State) : State :=
  (s.edf.objs.filter (fun o => o.dying && !s.staged o)).foldl (fun s o => s.removeObj o (o.state == 2)) s

/-! ### Collection (R376, R379, R380, R386, R400) -/

/-- The header fields of a segment. -/
structure SegHead where
  stream : Nat
  id : Nat
  b : Nat
  i : Nat
  k : Nat
  n : Nat
  type : Nat
  last : Nat
  deriving DecidableEq, Repr

/-- Reads a segment: no erasure, CRC-16 correct, every field within Table 17.1; the reserved flags are not judged (log
entry 23). -/
def parseSegment (l : List (Option Byte)) : Option SegHead :=
  if l.length = 80 ∧ l.all Option.isSome then
    let d := l.map (fun x => x.getD 0)
    let h : SegHead := ⟨beAt d 0 2 % 0x1000, beAt d 2 2, beAt d 4 1, beAt d 5 1, beAt d 6 1, beAt d 7 1, beAt d 8 1 / 16,
      beAt d 9 1⟩
    if beAt d 0 2 / 0x1000 = 1 ∧ 1 ≤ h.stream ∧ h.stream ≤ 0xFFE ∧ h.b ≤ h.last ∧ h.i < h.n ∧ 1 ≤ h.k ∧ h.k ≤ 200 ∧
        h.k ≤ h.n ∧ 1 ≤ h.type ∧ h.type ≤ 6 ∧ (crc16 (d.take 78)).toNat = beAt d 78 2 then some h else none
  else none

/-- Evicts incomplete objects of a function until one more segment fits its quota; false when it does not (R400). -/
def State.fit (s : State) (f : Fn) (stream id : Nat) : Nat → Bool × State
  | 0 => (false, s)
  | n + 1 =>
    if kib (s.usage f + 78) ≤ s.get (PART_QH_F.w f.toNat) then (true, s)
    else
      let can := s.edf.objs.filter (fun o => s.payer o == f && o.state == 1 && !(o.stream == stream && o.id == id))
      let reserve (st : Nat) : Nat := 4096 * ((s.streamWatches f st).map (fun w => recByte w 28)).foldl max 0
      let streamUse (st : Nat) : Nat := ((s.edf.objs.filter (fun o => o.stream == st)).map Obj.used).sum
      let big := can.filter (fun o => reserve o.stream < streamUse o.stream)
      match leastBy Obj.grown (if big = [] then can else big) with
      | some o => (s.removeObj o false).fit f stream id n
      | none => (false, s)

/-- A duplicate is counted and not stored. -/
def State.dupSegment (s : State) (stream : Nat) : State :=
  (s.inc EDF_CNT_DUP.w).stat stream (fun x => { x with dup := x.dup + 1 })

/-- A good segment's fields clash with those stored for its object (R380). -/
def Obj.clashes (o : Obj) (h : SegHead) : Bool :=
  o.type != h.type || o.last != h.last ||
    o.blks.any (fun b => if b.no = h.b then b.k != h.k || b.n != h.n
      else b.no != o.last && h.b != o.last && b.k != h.k)

/-- Stores a segment in its block. -/
def Obj.store1 (o : Obj) (h : SegHead) (data : List Byte) : Obj :=
  let t : Seg := ⟨h.i, data, none⟩
  if o.blks.any (fun b => b.no == h.b) then
    { o with blks := o.blks.map (fun b => if b.no = h.b then { b with segs := b.segs ++ [t] } else b) }
  else { o with blks := o.blks ++ [⟨h.b, h.k, h.n, [t], false, 0⟩] }

/-- The group of key index `g` matches an object's group fields (R388). -/
def State.groupOk (s : State) (g id mask : Nat) : Bool :=
  match s.flint.groups.getD g none with
  | some own => (id ^^^ own) &&& mask == 0
  | none => true

/-- The addressing in the object header names another device (R386): mode 2 with another serial, or mode 1 with an
installed key whose group does not match. -/
def State.notMine (s : State) (d : List Byte) : Bool :=
  let m := beAt d 1 1 % 4
  (m == 2 && beAt d 8 4 != s.edf.serialNo) || (m == 1 && !s.groupOk (beAt d 1 1 / 4 % 4) (beAt d 4 4) (beAt d 8 4))

/-- The object is being decoded or verified: a block waits for Pika, or every block is complete (R382, Table 17.10). -/
def State.atWork (s : State) (o : Obj) : Bool :=
  o.done == o.last + 1 ||
    s.pikaUsable && o.blks.any (fun b => !b.complete && decide (b.k ≤ b.segs.length) && b.retryAt == 0 && !b.systematic)

/-- Systematic segment 0 of block 0, while the object holds it. -/
def Obj.header (o : Obj) : Option (List Byte) :=
  ((o.blks.find? (fun b => b.no == 0)).bind (fun b => b.segs.find? (fun t => t.i == 0))).map Seg.data

/-- A good segment that a reception collects. -/
def State.collect (s : State) (h : SegHead) (data : List Byte) (heard : List Fn) : State :=
  let old := s.obj h.stream h.id
  let past : Bool := match old with
    | some o => o.state != 1 || s.atWork o ||
        (o.blks.any (fun b => b.no == h.b && (b.complete || b.segs.length ≥ b.k)))
    | none => s.edf.done.any (fun e => e.1 == h.stream && e.2.1 == h.id)
  if past then s.dupSegment h.stream
  else
    let s := match old with
      | some o => if o.clashes h then s.removeObj o false else s
      | none => s
    let old := old.filter (fun o => !o.clashes h)
    if (match old with | some o => o.blks.any (fun b => b.no == h.b && b.segs.any (fun t => t.i == h.i)) | none => false) then
      s.dupSegment h.stream
    else
      let who := (s.streamFns h.stream ++ heard).headD .f0
      match s.fit who h.stream h.id (s.edf.objs.length + 1) with
      | (false, s) => (s.inc EDF_CNT_QUOTA.w).stat h.stream (fun x => { x with refused := x.refused + 1 })
      | (true, s) =>
        if 640 ≤ s.waitingSegs then (s.inc EDF_CNT_DROP.w).stat h.stream (fun x => { x with refused := x.refused + 1 })
        else
          let o : Obj := old.getD ⟨h.stream, h.id, h.type, h.last, [], 1, 0, [], false, [], who, none, 0, false⟩
          let o := { o.store1 h data with grown := s.sec, payer := who, heard := (o.heard ++ heard).eraseDups }
          let s : State := if old.isSome then s else { s with edf := { s.edf with objs := s.edf.objs ++ [o] } }
          let s := ((s.setObj o).inc EDF_CNT_NEW.w).stat h.stream (fun x => { x with new := x.new + 1 })
          if (match o.header with | some d => s.notMine d | none => false) then s.removeObj o true else s

/-- A segment assembled on a reception: counted, judged, and collected when a running watch or a LISTEN asks for it
(R376, R379); `heard` are the functions that listen on its carrier. -/
def State.segment (s : State) (l : List (Option Byte)) (heard : List Fn) : State :=
  let s := s.inc EDF_CNT_SEG.w
  match parseSegment l with
  | none => s.badSegment l
  | some h =>
    let s := s.stat h.stream (fun x => { x with good := x.good + 1 })
    let watched := s.runs.any (fun rw => recKind rw.2.words == kEDF && recWord rw.2.words 13 % 0x1000 == h.stream)
    if watched ∨ heard ≠ [] then s.collect h ((l.drop 10).take 68 |>.map (fun x => x.getD 0)) heard else s

/-- A group of the adopted type at a position (R377). -/
def State.rdsPart (s : State) (pos : Nat) (part : List (Option Byte)) (heard : List Fn) : State :=
  let keep (a : Option (Nat × List (Option Byte) × Nat)) (s : State) : State := { s with edf := { s.edf with asm := a } }
  if 20 ≤ pos then s
  else if pos = 0 then
    match s.edf.asm with
    | some (1, _, _) => s
    | _ => keep (some (1, part, s.sec)) s.abandonSegment
  else match s.edf.asm with
    | some (next, l, t) =>
      if pos = next then
        if pos = 19 then (keep none s).segment (l ++ part) heard else keep (some (next + 1, l ++ part, t)) s
      else if pos + 1 = next then s
      else s.abandonSegment
    | none => s

/-- `RDS_SEGMENT_TIMEOUT`: 30 s after its position-0 group (R377). -/
def execRdsSegmentTimeout (s : State) : Host.Outcome State Fault Refusal :=
  .next (match s.edf.asm with
    | some (_, _, t) => if t + 30 ≤ s.sec then s.abandonSegment else s
    | none => s)

/-! ### Storage (R398, R399, R402) -/

/-- The sector that takes the next segment record: the one being filled while it has room for one of its 52, else a
least-erased free one, open which among equals. -/
def State.nextSector (s : State) : Option Nat × State :=
  match s.edf.fill with
  | some (n, k) =>
    if k < 52 then (some n, { s with edf := { s.edf with fill := some (n, k + 1) } }) else fromFree s
  | none => fromFree s
where
  fromFree (s : State) : Option Nat × State :=
    let free := (List.range s.sectors).filter (fun n => !s.sectorUsed n)
    let low := (free.map s.wearOf).foldl min (s.wearOf (free.headD 0))
    match s.pick (free.filter (fun n => s.wearOf n == low)) with
    | (some n, s) => (some n, { s.eraseSector n with edf := { (s.eraseSector n).edf with fill := some (n, 1) } })
    | (none, s) => (none, s)

/-- The segments of one block go to flash. -/
def State.flushSegs (s : State) : List Seg → List Seg × State
  | [] => ([], s)
  | t :: l =>
    let (t, s) := if t.sector.isNone then
        let (n, s) := s.nextSector
        (({ t with sector := n } : Seg), s)
      else (t, s)
    let (l, s) := s.flushSegs l
    (t :: l, s)

/-- The blocks of one object go to flash. -/
def State.flushBlks (s : State) : List Blk → List Blk × State
  | [] => ([], s)
  | b :: l =>
    let (t, s) := s.flushSegs b.segs
    let (l, s) := s.flushBlks l
    (({ b with segs := t } : Blk) :: l, s)

/-- Every waiting segment is appended to flash (R398). -/
def State.hoardFlush (s : State) : State :=
  (s.edf.objs.foldl (fun s o =>
    let (b, s) := s.flushBlks o.blks
    s.setObj { o with blks := b }) s).showEdf

/-- `HOARD_FLUSH`: 52 segments wait, or the reception is over; while flash is busy they go on waiting (R398). -/
def execHoardFlush (s : State) : Host.Outcome State Fault Refusal :=
  .next (if (52 ≤ s.waitingSegs ∨ s.fe.rx = none) ∧ ¬ s.flashBusy then s.hoardFlush else s)

/-- Starts of the contiguous free runs of `n` sectors. -/
def State.freeRuns (s : State) (n : Nat) : List Nat :=
  (List.range (s.sectors + 1 - n)).filter (fun a => (List.range n).all (fun i => !s.sectorUsed (a + i)))

/-- Writes every complete block still held as segments into the object store, and frees its records. -/
def State.writeStore (s : State) (o : Obj) (off k0 : Nat) : State :=
  let s := o.blks.foldl (fun s b =>
    if b.complete ∧ b.segs ≠ [] then s.setBytes (flashAddr (off + b.no * k0 * 68)) b.bytes else s) s
  s.setObj { o with blks := o.blks.map (fun b => if b.complete then { b with segs := [] } else b) }

/-- The object store is allocated once k₀ is known, or a compaction is called for (R399). -/
def State.place (s : State) (o : Obj) : State :=
  match o.blks.find? (fun b => b.no == 0) with
  | some b0 =>
    match o.store with
    | some (off, _) => s.writeStore o off b0.k
    | none =>
      let size := (o.blks.map (fun b => (b.no * b0.k + b.k) * 68)).foldl max ((o.last + 1) * b0.k * 68)
      let n := (size + 4095) / 4096
      match s.pick (s.freeRuns n) with
      | (some a, s) =>
        let s := (List.range n).foldl (fun s i => s.eraseSector (a + i)) s
        let o := { o with store := some (0x210000 + a * 0x1000, n) }
        (s.setObj o).writeStore o (0x210000 + a * 0x1000) b0.k
      | (none, s) => ((s.setObj o).putBit EDF_STAT.COMPACT true).showMaintain
  | none => s.setObj o

/-- A block completes with its decode's outcome: by concatenation, or by Pika's interpolation; a decode that failed
twice is kept for the end of the next reception (R382, R383). -/
def State.blockDone (s : State) (stream id blk : Nat) (pikaOk : Bool) : State :=
  match s.obj stream id with
  | some o =>
    match o.blks.find? (fun b => b.no == blk) with
    | some b =>
      if b.complete ∨ b.segs.length < b.k then s
      else
        let put (b' : Blk) : Obj := { o with blks := o.blks.map (fun x => if x.no = blk then b' else x) }
        if b.systematic ∨ (pikaOk ∧ s.pikaServes) then
          let s := s.stat stream (fun x => { x with blocks := x.blocks + 1 })
          s.place (put { b with complete := true, retryAt := 0 })
        else if ¬ s.pikaServes then s
        else
          let at_ := s.edf.rxEnds + if s.fe.rx.isSome then 2 else 1
          ((s.inc EDF_CNT_DECODE.w).noteFault.noteFault).setObj (put { b with retryAt := at_ })
    | none => s
  | none => s

/-- `BLOCK_COMPLETE` (R382). -/
def execBlockComplete (stream obj blk : Nat) (pikaOk : Bool) (s : State) : Host.Outcome State Fault Refusal :=
  .next (s.blockDone stream obj blk pikaOk)

/-- `DECODE_RETRY` (R382). -/
def execDecodeRetry (stream obj blk : Nat) (pikaOk : Bool) (s : State) : Host.Outcome State Fault Refusal :=
  .next (match (s.obj stream obj).bind (fun o => o.blks.find? (fun b => b.no == blk)) with
    | some b => if b.retryAt ≠ 0 ∧ b.retryAt ≤ s.edf.rxEnds then s.blockDone stream obj blk pikaOk else s
    | none => s)

/-- The charge of Hoard maintenance is counted to F0. -/
def State.chargeF0 (s : State) : State := s.chargeOpen .f0

/-- Moves every segment record of the Hoard: each takes its place again in a free sector. -/
def State.moveRecords (s : State) (p : Nat → Bool) : State :=
  let lift (t : Seg) : Seg := match t.sector with | some n => if p n then { t with sector := none } else t | none => t
  let stay (t : Seg) : Bool := t.sector.isNone
  let s0 := s
  let s : State := { s with edf := { s.edf with
    fill := none,
    objs := s.edf.objs.map (fun o => { o with blks := o.blks.map (fun b => { b with segs := b.segs.map lift }) }) } }
  let moved := s.hoardFlush
  let back (o : Obj) : Obj :=
    match s0.obj o.stream o.id with
    | some o0 => { o with blks := o.blks.map (fun b => match o0.blks.find? (fun x => x.no == b.no) with
        | some b0 => { b with segs := b.segs.map (fun t =>
            if b0.segs.any (fun x => x.i == t.i && stay x) then { t with sector := none } else t) }
        | none => b) }
    | none => o
  ({ moved with edf := { moved.edf with objs := moved.edf.objs.map back } } : State).showEdf

/-- `HOARD_COMPACT`: segment records are compacted in MAINTAIN with the charge counted to F0, and the run is allocated
(R399). -/
def execHoardCompact (s : State) : Host.Outcome State Fault Refusal :=
  .next (if s.bit EDF_STAT.COMPACT then
    let s := (s.moveRecords (fun _ => true)).chargeF0
    let s := s.edf.objs.foldl (fun s o =>
      if o.state = 1 ∧ o.blks.any (fun b => b.complete && b.segs ≠ []) then s.place o else s) (s.putBit EDF_STAT.COMPACT false)
    s.showMaintain
  else s)

/-- `WEAR_LEVEL_MOVE`: the data of the least-erased sector move when the erase counts are more than 2000 apart
(R402). -/
def execWearLevelMove (s : State) : Host.Outcome State Fault Refusal :=
  .next (
    let all := (List.range s.sectors).map s.wearOf
    let hi := all.foldl max 0
    let lo := all.foldl min (all.headD 0)
    if 2000 < hi - lo then
      let s := s.chargeF0
      let low := (List.range s.sectors).filter (fun n => s.wearOf n == lo && s.sectorUsed n)
      match s.pick low with
      | (some n, s) =>
        match s.edf.objs.find? (fun o => match o.store with
          | some (off, k) => decide (off / 0x1000 - 0x210 ≤ n ∧ n < off / 0x1000 - 0x210 + k) && !s.staged o
          | none => false) with
        | some o =>
          match o.store with
          | some (off, k) =>
            let data := s.bytes (flashAddr off) (4096 * k)
            match s.pick (s.freeRuns k) with
            | (some a, s) =>
              let s := (List.range k).foldl (fun s i => s.eraseSector (a + i)) s
              (s.setBytes (flashAddr (0x210000 + a * 0x1000)) data).setObj { o with store := some (0x210000 + a * 0x1000, k) }
            | (none, s) => s
          | none => s
        | none => s.moveRecords (fun m => m == n)
      | (none, s) => s
    else s)

/-! ### Acceptance (R387, R388, R389) -/

/-- The header fields of an object's bytes (Table 17.2). -/
structure ObjHead where
  type : Nat
  mode : Nat
  key : Nat
  fns : Nat
  signer : Nat
  group : Nat
  mask : Nat
  serial : Nat
  len : Nat
  expiry : Nat
  body : List Byte
  deriving DecidableEq, Repr

/-- Reads the header and the body. -/
def objHead (d : List Byte) : ObjHead :=
  let b1 := beAt d 1 1
  ⟨beAt d 0 1, b1 % 4, b1 / 4 % 4, b1 / 16, beAt d 2 1, beAt d 4 4, beAt d 8 4, beAt d 12 4, beAt d 16 4, beAt d 20 4,
    (d.drop 32).take (beAt d 16 4)⟩

/-- Length of the CMAC: 16 in group mode. -/
def ObjHead.mac (h : ObjHead) : Nat := if h.mode = 1 then 16 else 0

/-- The body suits its type (Tables 17.3, 17.5 to 17.7); reserved bytes are not judged (log entry 23). -/
def ObjHead.bodyOk (h : ObjHead) : Bool :=
  match h.type with
  | 1 => h.len ≤ 512
  | 2 => h.len ≤ 65536
  | 3 =>
    let m := beAt h.body 0 1
    1 ≤ m && m ≤ 16 && h.len == 4 + 12 * m && (List.range m).all (fun w =>
      beAt h.body (8 + 12 * w) 4 == 0 || 3600 ≤ beAt h.body (8 + 12 * w) 4)
  | 4 => h.len ≤ 0x100000
  | 5 => h.len == 28 && beAt h.body 0 1 ≤ 3
  | 6 => beAt h.body 0 1 ≤ 8 && beAt h.body 1 1 ≤ 2 && h.len == 8 + 4 * beAt h.body 0 1
  | _ => false

/-- Check FORMAT over the bytes of an object. -/
def formatOk (d : List Byte) (type : Nat) : Bool :=
  let h := objHead d
  32 ≤ d.length && h.type == type && h.mode != 3 && h.signer ≤ 3 && 160 + h.len + h.mac ≤ d.length && h.bodyOk

/-- A COMMAND serial is new for its signer (R389). -/
def State.serialNew (s : State) (signer serial : Nat) : Bool :=
  match s.edf.hist.getD signer none with
  | none => true
  | some (hi, rec_) => hi < serial || (hi < serial + 256 && rec_ / 2 ^ (hi - serial) % 2 == 0)

/-- The record of a new serial. -/
def State.noteSerial (s : State) (signer serial : Nat) : State :=
  let e : Nat × Nat := match s.edf.hist.getD signer none with
    | none => (serial, 1)
    | some (hi, r) =>
      if hi < serial then (serial, (r * 2 ^ min (serial - hi) 256 + 1) % 2 ^ 256)
      else (hi, r ||| 2 ^ (hi - serial))
  let s : State := { s with edf := { s.edf with hist := s.edf.hist.set signer (some e) } }
  s.put32 (EDF_CSER.w (2 * (signer % 4))) e.1

/-- A bit of a four-bit register field. -/
def State.bitOf (s : State) (x : Fld) (i : Nat) : Bool := s.get x / 2 ^ i % 2 == 1

/-- A schedule's issuer serial is not higher than that of the one in force (R390). -/
def State.oldSchedule (s : State) (serial : Nat) : Bool :=
  match s.edf.vanSerial with | some v => decide (serial ≤ v) | none => false

/-- The issuer public key of an object, and its signature (Table 17.2). -/
def ObjHead.pub (h : ObjHead) (d : List Byte) : List Byte := (d.drop (32 + h.len + h.mac)).take 64
def ObjHead.sig (h : ObjHead) (d : List Byte) : List Byte := (d.drop (96 + h.len + h.mac)).take 64

/-- The issuer public key hashes to the OTP hash of the signer index. -/
def State.issuerOk (s : State) (h : ObjHead) (d : List Byte) : Bool :=
  s.bitOf FLINT_OTP.HASH_SET h.signer && Crypto.sha256 (h.pub d) == s.flint.hashes.getD h.signer []

/-- The signature over header, body and CMAC is valid. -/
def ObjHead.sigOk (h : ObjHead) (d : List Byte) : Bool :=
  Crypto.ecdsaOk (h.pub d) (Crypto.sha256 (d.take (32 + h.len + h.mac))) (h.sig d)

/-- The CMAC under the group key, over header and body, is valid. -/
def State.macOk (s : State) (h : ObjHead) (d : List Byte) : Bool :=
  Crypto.cmac (s.flint.keys.getD h.key []) (d.take (32 + h.len)) == (d.drop (32 + h.len)).take 16

/-- The key that a KEY_UPDATE carries: wrapped under the key in the slot, in clear for an empty slot (R391). -/
def State.newKey (s : State) (body : List Byte) : List Byte :=
  let g := beAt body 0 1
  let w := (body.drop 8).take 16
  if (s.flint.groups.getD g none).isSome then Crypto.aesDecrypt (s.flint.keys.getD g []) w else w

/-- A KEY_UPDATE is acceptable: its slot is filled, or may be, and the check value is that of the key it carries (R391). -/
def State.keyOk (s : State) (body : List Byte) (empty : Bool) : Bool :=
  (empty || (s.flint.groups.getD (beAt body 0 1) none).isSome) &&
    (Crypto.aesEncrypt (s.newKey body) (List.replicate 16 0)).take 4 == (body.drop 24).take 4

/-- The checks of Table 17.4 in order. `empty` allows a KEY_UPDATE to fill an empty slot (R391). -/
def State.check (s : State) (d : List Byte) (type : Nat) (empty : Bool) : Nat :=
  let h := objHead d
  if ¬ formatOk d type then 1
  else if h.expiry ≠ 0 ∧ h.expiry ≤ s.sec % 0x100000000 ∧ codeOf s.time.whole ≤ 20 then 2
  else if ¬ s.issuerOk h d then 3
  else if s.bitOf FLINT_OTP.REVOKED h.signer then 4
  else if ¬ h.sigOk d then 5
  else if (h.mode = 0 ∧ ¬ s.bit EDF_CFG.BCAST_EN) ∨ s.notMine d then 6
  else if h.mode = 1 ∧ (s.flint.groups.getD h.key none).isNone then 7
  else if (h.mode = 1 ∨ h.type = 5) ∧ s.bit FLINT_STAT.LOCKED then 8
  else if h.mode = 1 ∧ ¬ s.macOk h d then 9
  else if h.type = 1 ∧ ¬ s.serialNew h.signer h.serial then 0xA
  else if h.type = 3 ∧ s.oldSchedule h.serial then 0xB
  else if h.type = 5 ∧ ¬ s.keyOk h.body empty then 0xC
  else 0

/-- One propagation entry of a TIME_NOTE (R392). -/
def State.propEntry (s : State) (eid ofs : Nat) : State :=
  let slots := List.range 8
  let place : Option Nat := if eid = 0 then none else
    match slots.find? (fun i => s.get (TIME_PROP_ID.w i) == eid) with
    | some i => some i
    | none => slots.find? (fun i => s.get (TIME_PROP_ID.w i) == 0)
  match place with
  | some i => (s.put (TIME_PROP_ID.w (i % 8)) eid).put (TIME_PROP_OFS.w (i % 8)) ofs
  | none => s.inc EDF_CNT_REJ.w

/-- What the device takes from an accepted object (Table 17.3). -/
def State.consume (s : State) (h : ObjHead) : State :=
  match h.type with
  | 1 => s.noteSerial h.signer h.serial
  | 3 =>
    let vans := (List.range (beAt h.body 0 1)).map (fun w =>
      (⟨beAt h.body (4 + 12 * w) 4, beAt h.body (8 + 12 * w) 4, beAt h.body (12 + 12 * w) 2, beAt h.body (14 + 12 * w) 2⟩ : Van))
    ({ s with edf := { s.edf with vans := vans, vanSerial := some h.serial } } : State).showEdf
  | 5 =>
    let g := beAt h.body 0 1
    let id := beAt h.body 4 4
    let key := s.newKey h.body
    let s : State := { s with flint := { s.flint with groups := s.flint.groups.set g (some id), keys := s.flint.keys.set g key } }
    (s.put FLINT_STAT.GROUP (s.get FLINT_STAT.GROUP ||| 2 ^ g)).put32 (EDF_GROUP_ID.w (2 * (g % 4))) id
  | 6 =>
    let sign := beAt h.body 1 1
    let s := if sign = 0 then s else s.announce sign (86400 * (beAt h.body 4 4 + 1))
    (List.range (beAt h.body 0 1)).foldl (fun s e => s.propEntry (beAt h.body (8 + 4 * e) 2) (beAt h.body (10 + 4 * e) 2)) s
  | _ => s

/-- The words of an EDF_OBJECT record; `addr` is the memory-port address of the body (R395). -/
def objectWords (h : ObjHead) (stream id : Word) (addr : Nat) : List Word :=
  let a := if h.type = 5 then 0 else addr
  [BitVec.ofNat 16 (h.type * 0x1000 + h.mode * 0x400 + h.signer * 0x100), stream, id] ++ lowHigh h.serial ++ lowHigh h.len ++
    lowHigh a ++ lowHigh h.expiry ++ (if h.len ≤ 512 ∧ h.type ≠ 5 then wordsOfBytes h.body else [])

/-- The words of an EDF_COMMAND record (R396). -/
def commandWords (h : ObjHead) (stream id : Word) (dup : Bool) : List Word :=
  [BitVec.ofNat 16 ((if dup then 0x100 else 0) + h.mode * 4 + h.signer), stream, id] ++ lowHigh h.serial ++
    [BitVec.ofNat 16 h.len] ++ wordsOfBytes h.body

/-- Delivers an object's record to functions (R394). -/
def State.deliverObj (s : State) (h : ObjHead) (stream id : Word) (addr : Nat) (dup : Bool) (fns : List Fn) : State :=
  if h.type = 1 then s.deliverAll 0x19 (commandWords h stream id dup) (if dup then [] else [iEDF_COMMAND]) s.stamp fns
  else s.deliverAll 0x18 (objectWords h stream id addr) [iEDF_OBJECT] s.stamp fns

/-- Functions an accepted object is delivered to: F0 for types 4 to 6, else the eligible ones (R394). -/
def State.eligible (s : State) (o : Obj) (h : ObjHead) : List Fn :=
  if 4 ≤ h.type then [.f0]
  else allFns.filter (fun f => (h.fns == 0 || h.fns / 2 ^ f.toNat % 2 == 1) &&
    (s.streamWatches f o.stream ≠ [] || (o.heard.contains f && (s.plan f).listen.isSome)))

/-- The outcome of a check is applied to a Hoard object (Table 17.4). -/
def State.applyResult (s : State) (o : Obj) (d : List Byte) (res : Nat) : State :=
  let h := objHead d
  let stream := BitVec.ofNat 16 o.stream
  let id := BitVec.ofNat 16 o.id
  let s := ((s.put EDF_LAST_RES.w res).put EDF_LAST_STREAM.w o.stream).put EDF_LAST_OBJ.w o.id
  let s := s.stat o.stream (fun x => if res = 0 then { x with accepted := x.accepted + 1 } else { x with rejected := x.rejected + 1 })
  if res = 0 then
    let s := s.consume h
    let fns := s.eligible o h
    let keep := (160 + h.len + h.mac + 4095) / 4096
    let store := o.store.map (fun e => (e.1, min e.2 keep))
    let o := { o with state := 2, grown := s.sec, claims := fns, delivered := fns ≠ [], expiry := h.expiry, store := store }
    (s.setObj o).deliverObj h stream id (flashAddr ((store.map Prod.fst).getD 0) + 32) false fns
  else
    let s := s.inc EDF_CNT_REJ.w
    if res = 7 ∨ res = 8 then
      (if res = 8 then s.inc FLINT_REFCNT.w else s).setObj { o with state := 3, grown := s.sec }
    else
      let s := if res = 0xA ∧ s.bit EDF_CFG.DUP_REP then s.deliverObj h stream id 0 true (s.eligible o h) else s
      s.removeObj o (res == 2 || res == 3 || res == 4 || res == 6 || res == 0xA || res == 0xB)

/-- The bytes of a complete object, read from its store. -/
def State.objBytes (s : State) (o : Obj) : List Byte :=
  match o.store, o.blks.find? (fun b => b.no == 0), o.blks.find? (fun b => b.no == o.last) with
  | some (off, _), some b0, some bl => s.bytes (flashAddr off) ((o.last * b0.k + bl.k) * 68)
  | _, _, _ => []

/-- Every block is complete and in the object store. -/
def Obj.ready (o : Obj) : Bool := o.done == o.last + 1 && o.store.isSome && o.held == 0

/-- `OBJECT_ACCEPTANCE`: a completed object passes the checks in order and the outcome is applied (R387). -/
def execObjectAcceptance (stream obj : Nat) (s : State) : Host.Outcome State Fault Refusal :=
  .next (match s.obj stream obj with
    | some o =>
      if o.state = 1 ∧ o.ready then
        let d := s.objBytes o
        s.applyResult o d (s.check d o.type false)
      else s
    | none => s)

/-! ### Van windows (R390) -/

/-- What is left of a window after its start at or before second `t`. -/
def Van.after (v : Van) (t : Nat) : Option Van :=
  if t < v.start then some v
  else if v.period = 0 then none
  else
    let j := (t - v.start) / v.period + 1
    if v.count ≠ 0 ∧ v.count ≤ j then none
    else some { v with start := v.start + j * v.period, count := if v.count = 0 then 0 else v.count - j }

/-- `VAN_WINDOW_START`: Dormouse finds windows whose start has come (R390); one on its very second is driven, one a step has passed is dropped
undriven (Table 17.10). -/
def execVanWindowStart (s : State) : Host.Outcome State Fault Refusal :=
  .next (if ¬ s.dormouse then s else
    let now := s.sec % 0x100000000
    let hit := s.edf.vans.any (fun v => v.start == now || (v.period != 0 && v.start < now && (now - v.start) % v.period == 0 &&
      (v.count == 0 || (now - v.start) / v.period < v.count)))
    let s : State := { s with edf := { s.edf with vans := s.edf.vans.filterMap (fun v => v.after now) } }
    let s := s.showEdf
    if hit ∧ codeOf s.time.whole ≠ 31 then s.wantHost 1 else s)

/-- EDF_CMD.VAN_CLR (R390). -/
def State.vanClr (s : State) : State := ({ s with edf := { s.edf with vans := [] } } : State).showEdf

/-! ### Statistics record, expiry, ERASE -/

/-- `EDF_SEGMENT_STAT`: the records of the receptions that have ended (R397). -/
def execEdfSegmentStat (s : State) : Host.Outcome State Fault Refusal :=
  .next (
    let due := s.edf.ended
    let s : State := { s with edf := { s.edf with ended := [] } }
    due.foldl (fun s e => e.carried.eraseDups.foldl (fun s c =>
      let x := (e.stats.find? (fun x => x.stream == c.2)).getD ⟨c.2, 0, 0, 0, 0, 0, 0, 0, 0⟩
      s.deliver c.1 0x1A ([c.2, x.good, x.bad, x.new, x.dup, x.refused, x.blocks, x.accepted, x.rejected].map (fun n =>
        BitVec.ofNat 16 (min n 0xFFFF))) [] e.stamp) s) s)

/-- STALE_DAYS in seconds. -/
def State.stale (s : State) : Nat := 86400 * s.get EDF_CFG.STALE_DAYS

/-- An expiry test has found a held object past its expiry: the last day start, or the last change of TQ from code 31,
stands at or after both the expiry and the acceptance (R401). -/
def State.expired (s : State) (o : Obj) : Bool :=
  o.expiry != 0 && [s.sec / 86400 * 86400, s.time.left31].any (fun t =>
    decide (t ≤ s.sec ∧ o.expiry ≤ t % 0x100000000 ∧ o.grown ≤ t))

/-- `OBJECT_EXPIRY`: expiry, release by every function, or staleness (R401). -/
def execObjectExpiry (stream obj : Nat) (s : State) : Host.Outcome State Fault Refusal :=
  .next (match s.obj stream obj with
    | some o =>
      if (o.state = 2 ∧ (s.expired o ∨ (o.delivered ∧ o.claims = []) ∨
          (¬ o.delivered ∧ o.grown + s.stale ≤ s.sec))) ∨ (o.state = 1 ∧ o.grown + s.stale ≤ s.sec) then s.leaveHoard o
      else s
    | none => s)

/-- `DONE_LIST_EXPIRY`: a pair that has been listed for 90 days is dropped (R401). -/
def execDoneListExpiry (stream obj : Nat) (s : State) : Host.Outcome State Fault Refusal :=
  let keep := s.edf.done.filter (fun e => !(e.1 == stream && e.2.1 == obj && e.2.2 + 90 * 86400 ≤ s.sec))
  .next { s with edf := { s.edf with done := keep } }

/-- ERASE deletes every incomplete, HELD and REJECTED object; it is refused BUSY while a staging runs (R405). -/
def State.edfErase (s : State) (f : Fn) : State :=
  if s.img.staging then s.setErr f eBUSY
  else ({ s with edf := { s.edf with objs := [], fill := none } } : State).showEdf

/-! ### Ops (R403, R404) -/

/-- Segments an object still needs: k of each incomplete block less those held, k₀ for a block without any. -/
def Obj.needed (o : Obj) : Nat :=
  let k0 := ((o.blks.find? (fun b => b.no == 0)).map Blk.k).getD 0
  ((List.range (o.last + 1)).map (fun n => match o.blks.find? (fun b => b.no == n) with
    | some b => if b.complete then 0 else b.k - b.segs.length
    | none => k0)).sum

/-- The STATUS results of a pair; the type of a pair on the done list is open (log entry 10). -/
def State.objStatus (s : State) (stream id : Nat) : List Word × State :=
  match s.obj stream id with
  | some o => ([BitVec.ofNat 16 (o.type * 0x1000 + o.state * 0x100 + min o.done 0xFF), BitVec.ofNat 16 (o.last + 1),
      BitVec.ofNat 16 (min o.held 0xFFFF), BitVec.ofNat 16 (min o.needed 0xFFFF)], s)
  | none =>
    if s.edf.done.any (fun e => e.1 == stream && e.2.1 == id) then
      let (w, s) := s.fresh
      ([(w &&& 0xF000) ||| 0x400, 0, 0, 0], s)
    else ([0, 0, 0, 0], s)

/-- Runs sub-op `sub` of HOARD_QUERY; a tenant needs a grant on EDF. -/
def State.hoardOp (s : State) (f : Fn) (sub : Nat) (act : List Word → State) : State :=
  s.withOp f 6 (fun a => if arg a 0 % 4 ≠ sub then s else if s.grant f 0x12 = 0 then s.outcome f eGRANT [] else act a)

/-- `HOARD_QUERY_STATUS` (R403). -/
def execHoardQueryStatus (f : Fn) (s : State) : Host.Outcome State Fault Refusal :=
  .next (s.hoardOp f 0 (fun a =>
    let (r, s) := s.objStatus (arg a 1) (arg a 2)
    s.outcome f 0 r))

/-- `HOARD_QUERY_RELEASE` (R403). -/
def execHoardQueryRelease (f : Fn) (s : State) : Host.Outcome State Fault Refusal :=
  .next (s.hoardOp f 1 (fun a =>
    match s.obj (arg a 1) (arg a 2) with
    | some o =>
      if s.staged o then s.outcome f eBUSY []
      else
        let s := if o.state = 1 then s else
          let o := { o with claims := if f = .f0 then [] else o.claims.filter (· ≠ f) }
          if o.claims = [] ∧ (o.delivered ∨ f = .f0) then s.removeObj o (o.state == 2) else s.setObj o
        let (r, s) := s.objStatus (arg a 1) (arg a 2)
        s.outcome f 0 r
    | none =>
      let (r, s) := s.objStatus (arg a 1) (arg a 2)
      s.outcome f 0 r))

/-- `HOARD_QUERY_LIST` (R403). -/
def execHoardQueryList (f : Fn) (s : State) : Host.Outcome State Fault Refusal :=
  .next (s.hoardOp f 2 (fun a =>
    match leastBy Obj.id (s.edf.objs.filter (fun o => o.stream == arg a 1 && arg a 2 < o.id)) with
    | some o =>
      let (r, s) := s.objStatus o.stream o.id
      s.outcome f 0 [r.getD 0 0, BitVec.ofNat 16 o.id, 0, 0]
    | none => s.outcome f 0 [0, 0, 0, 0]))

/-- `HOARD_QUERY_USAGE` (R403). -/
def execHoardQueryUsage (f : Fn) (s : State) : Host.Outcome State Fault Refusal :=
  .next (s.hoardOp f 3 (fun _ =>
    let mine := s.edf.objs.filter (fun o => s.payer o == f)
    s.outcome f 0 ([min (kib (s.usage f)) 0xFFFF, s.get (PART_QH_F.w f.toNat), (mine.filter (fun o => o.state == 1)).length,
      (mine.filter (fun o => o.state == 2)).length].map (BitVec.ofNat 16))))

/-- The results of VERIFY_OBJECT (Table 17.9). -/
def verifyWords (d : List Byte) (res : Nat) : List Word :=
  let h := objHead d
  [BitVec.ofNat 16 (h.type % 16 * 0x1000 + res), BitVec.ofNat 16 (h.mode * 4 + h.signer % 4)] ++ lowHigh h.serial

/-- The error code of an acceptance result (R404). -/
def verifyErr (res : Nat) : Nat := if res = 0xA then eDUP else if res = 8 then eLOCKED else if res = 0xE then eBUSY else 0

/-- `VERIFY_OBJECT`: the checks over a Hoard object or the caller's Burrow user area; CONSUME applies the outcome
(R404). -/
def execVerifyObject (f : Fn) (s : State) : Host.Outcome State Fault Refusal :=
  .next (s.withFlint f 5 (fun a =>
    let src := arg a 0 % 4
    let consume := arg a 0 / 16 % 2 == 1
    if src = 1 then
      match s.obj (arg a 1) (arg a 2) with
      | some o =>
        if o.state = 1 then s.outcome f 0 [BitVec.ofNat 16 (o.type * 0x1000 + 0xD)]
        else if s.staged o then s.outcome f eBUSY [BitVec.ofNat 16 (o.type * 0x1000 + 0xE)]
        else if consume ∧ o.state ≠ 3 then s.outcome f eBADARG []
        else
          let d := s.objBytes o
          let res := s.check d o.type false
          (if consume then s.applyResult o d res else if res = 8 then s.inc FLINT_REFCNT.w else s).outcome f (verifyErr res)
            (verifyWords d res)
      | none => s.outcome f 0 [0xD]
    else if src = 2 then
      if arg a 1 < 160 ∨ 4096 < arg a 1 then s.outcome f eBADARG []
      else
        let base := 0x300000 + 0x1000 * f.toNat
        let d := s.bytes base (arg a 1)
        let h := objHead d
        if consume ∧ f ≠ .f0 ∧ 3 ≤ h.type ∧ h.type ≤ 6 then s.outcome f eGRANT []
        else
          let res := s.check d h.type (consume && f == .f0)
          let s := if res = 8 then s.inc FLINT_REFCNT.w else s
          let s := if consume ∧ (res = 0 ∨ (res = 0xA ∧ s.bit EDF_CFG.DUP_REP)) then
              let (w1, s) := s.fresh
              let (w2, s) := s.fresh
              (if res = 0 then s.consume h else s).deliverObj h w1 w2 (base + 32) (res == 0xA) [f]
            else s
          s.outcome f (verifyErr res) (verifyWords d res)
    else s.outcome f eBADARG []))

end Sys2Proof.Machine
end

