-- ==== Sys2Proof/Machine/FmRds.lean ====
section
/-! DEFINITION. FM and RDS (spec 13): block synchronisation, groups, AF following, the EDF ODA and clock time. -/

namespace Sys2Proof.Machine

open R

/-! ### Shared with DAB following -/

/-- Running watches of a reception with the FOLLOW flag, or AF_WATCHes. -/
def State.followRuns (s : State) : List (Run × Watch) :=
  s.tunerRuns.filter (fun rw => recFlag rw.2.words 4 || recKind rw.2.words == kAF)

/-- Functions that receive following events. -/
def State.followFns (s : State) : List Fn := s.fnsWith (fun w => recFlag w 4 || recKind w == kAF)

/-- A reception on a bearer runs on its frequency and is not held. -/
def State.onBearer (s : State) (b : Nat) : Bool :=
  match s.fe.rx with
  | some r => bearer r.kfc == b && s.get FES_STAT.JOB == 5 && !s.bit FES_STAT.HOLD
  | none => false

/-- The KFC the reception sits on. -/
def State.rxKfc (s : State) : Nat := match s.fe.rx with | some r => r.kfc | none => 0

/-- The planned KFC of the reception. -/
def State.rxHome (s : State) : Nat := match s.fe.rx with | some r => r.home | none => 0

/-- A tune job of the reception to another KFC waits to start. -/
def State.retune (s : State) (kfc : Nat) : State :=
  let s := s.pathOff.put FES_STAT.JOB 0
  { s with fe := { s.fe with rx := s.fe.rx.map (fun r => { r with kfc := kfc, second := false }) } }

/-- The last switch of each followed watch on the reception is kept (R311). -/
def State.recallPut (s : State) (old : List (Fn × Nat × Nat)) (kfc : Nat) : List (Fn × Nat × Nat) :=
  s.tunerRuns.foldl (fun l rw =>
    (rw.1.fn, recId rw.2.words, kfc) :: l.filter (fun e => !(e.1 == rw.1.fn && e.2.1 == recId rw.2.words))) old

/-- The frequency of the last switch of a watch on the reception. -/
def State.recallGet (s : State) (l : List (Fn × Nat × Nat)) : Option Nat :=
  s.tunerRuns.findSome? (fun rw => (l.find? (fun e => e.1 == rw.1.fn && e.2.1 == recId rw.2.words)).map (fun e => e.2.2))

/-- AF checks that following makes, in turn; how long each lasts, no command says (R278, R279, log
entry 188). -/
def State.measured (s : State) : List (Nat × Option Int) → State
  | [] => s
  | (kfc, v) :: l =>
    let (us, s) := s.fresh
    (s.afResult kfc v (us.toNat % 0x1000)).measured l

/-- The strongest of a list of candidates with RSSI, the first among equals. -/
def strongest (l : List (Nat × Int)) : Option (Nat × Int) := leastBy (fun e => (1000000 - e.2).toNat) l

/-- The entries that were measured, with their RSSI. -/
def heard {α : Type} (l : List (α × Option Int)) : List (α × Int) := l.filterMap (fun x => x.2.map (fun v => (x.1, v)))

/-- The home RSSI is below the switch threshold: the AF_WATCH's, in byte `byte`, else that of the settings (R306, R328). -/
def State.weak (s : State) (byte : Nat) (sw : Fld) : Bool :=
  let thr := match s.tunerRuns.find? (fun rw => recKind rw.2.words == kAF) with
    | some rw => if recByte rw.2.words byte = 0 then s.cfg sw else recByte rw.2.words byte
    | none => s.cfg sw
  decide (signed16 (s.get FES_RSSI.w) < -4 * (thr : Int))

/-- The strongest candidate exceeds the home RSSI by a hysteresis in dB. -/
def State.exceeds (s : State) (v : Int) (hyst : Fld) : Bool := decide (signed16 (s.get FES_RSSI.w) + 4 * (s.cfg hyst : Int) ≤ v)

/-- Pairs the first entries of two lists. -/
def pairUp {α β : Type} : List α → List β → List (α × β)
  | a :: l, v :: m => (a, v) :: pairUp l m
  | _, _ => []

/-! ### Synchronisation and PI (R299 to R303) -/

/-- `RDS_SYNC_ACQUIRED` (R300, R299). -/
def execRdsSyncAcquired (pilot : Bool) (s : State) : Host.Outcome State Fault Refusal :=
  .next (if s.onBearer 2 ∧ ¬ s.bit FMR_STAT.SYNC then
    let s := (s.put FMR_STAT.SYNC 1).putBit FMR_STAT.PILOT pilot
    { s with fm := { s.fm with window := [], blocks := [] } }
  else s)

/-- SYNC_LOSS of the last 16 blocks are uncorrectable. -/
def State.fmLost (s : State) : Bool := s.cfg FMR_CFG.SYNC_LOSS ≤ (s.fm.window.filter id).length

/-- `RDS_SYNC_LOST` (R300). -/
def execRdsSyncLost (s : State) : Host.Outcome State Fault Refusal :=
  .next (if s.bit FMR_STAT.SYNC ∧ s.fmLost then
    let s := (s.put FMR_STAT.SYNC 0).inc FMR_SYNC_CNT.w
    { s with fm := { s.fm with window := [], blocks := [], piN := 0 } }
  else s)

/-- A PI block: a PI is confirmed after PI_CONF_N in a row with status 0 or 1 (R303). -/
def State.piBlock (s : State) (status v : Nat) : State :=
  let n := if 2 ≤ status then 0 else if v = s.fm.pi then s.fm.piN + 1 else 1
  let s : State := { s with fm := { s.fm with pi := if 2 ≤ status then s.fm.pi else v, piN := n } }
  if status ≤ 1 ∧ s.cfg AF_CFG.PI_CONF_N ≤ n then
    let s : State := { s with fm := { s.fm with first := if s.bit FMR_STAT.PI_VALID || s.fm.first != 0 then s.fm.first else v } }
    (s.put FMR_PI.w v).put FMR_STAT.PI_VALID 1
  else s

/-- The status of a block with a burst error of `bits` bits, 0 for none (Table 13.1). -/
def State.blockStatus (s : State) (bits : Nat) : Nat :=
  if bits = 0 then 0 else if s.cfg FMR_CFG.ECC_MAX < bits ∨ 5 < bits then 3 else if bits ≤ 2 then 1 else 2

/-- The group in progress with a block more; a block out of its order leaves no group. -/
def addBlock (l : List (Nat × Word)) (pos : Nat) (e : Nat × Word) : List (Nat × Word) :=
  if pos = 0 then [e] else if l.length = (if pos = 4 then 2 else pos) then l ++ [e] else []

/-- `RDS_BLOCK`: position 0 to 3 for A to D, 4 for C′, with the length of its burst error and the word corrected, where it can
be (R301, R303). -/
def execRdsBlock (pos bits : Nat) (data : Word) (s : State) : Host.Outcome State Fault Refusal :=
  .next (if s.bit FMR_STAT.SYNC then
    let status := s.blockStatus bits
    let bad := decide (3 ≤ status)
    let aBad := s.fm.blocks.any (fun e => decide (3 ≤ e.1))
    let s := s.add32 FMR_BLK_L.w 1
    let s := if bad then s.add32 FMR_BLK_BAD_L.w 1 else s
    let s : State := { s with fm := { s.fm with
      window := (bad :: s.fm.window).take 16, blocks := addBlock s.fm.blocks pos (status, data), cprime := pos == 4 || (pos == 3 && s.fm.cprime) } }
    if pos = 0 ∨ (pos = 4 ∧ aBad) then s.piBlock status data.toNat else s
  else s)

/-! ### The AF list (R307, R308) -/

/-- KFC of an AF code. -/
def afKfc (code : Nat) : Nat := 2 * 2 ^ 28 + 87500 + 100 * code

/-- AF code of a KFC; 0 where it has none. -/
def afCode (kfc : Nat) : Nat :=
  let f := kfcFreq kfc
  if 87600 ≤ f ∧ f ≤ 107900 ∧ f % 100 = 0 then (f - 87500) / 100 else 0

/-- The AF_WATCH of the reception. -/
def State.afWatch (s : State) : Option (List Word) :=
  (s.tunerRuns.find? (fun rw => recKind rw.2.words == kAF)).map (fun rw => rw.2.words)

/-- The PI to follow: the AF_WATCH's, else the first PI confirmed on the reception (R306). -/
def State.followPi (s : State) : Nat :=
  match s.afWatch with
  | some w => if recWord w 13 = 0 then s.fm.first else recWord w 13
  | none => s.fm.first

/-- REG and EON as the AF_WATCH or `AF_CTL` gives them. -/
def State.afReg (s : State) : Bool := s.cfg AF_CTL.REG_EN == 1 || (match s.afWatch with | some w => recByte w 29 % 2 == 1 | none => false)
def State.afEon (s : State) : Bool := s.cfg AF_CTL.EON_EN == 1 || (match s.afWatch with | some w => recByte w 29 / 2 % 2 == 1 | none => false)

/-- The reception follows: some watch has FOLLOW, or is an AF_WATCH without REPORT_ONLY; `byte` holds that flag. -/
def State.follows (s : State) (byte : Nat) : Bool :=
  s.tunerRuns.any (fun rw => recFlag rw.2.words 4 || (recKind rw.2.words == kAF && recByte rw.2.words byte / 4 % 2 == 0))

/-- The AF entries as registers show them. -/
def State.showAf (s : State) (l : List AfEnt) (i : Nat) : List Nat → State
  | [] => s
  | _ :: n =>
    let s := match l with
      | e :: _ => s.put (FMR_AF.w i) (e.code + (if afCode s.rxKfc = e.code then 0x800 else 0) + (if e.eon then 0x400 else 0) +
          (if e.banned then 0x200 else 0) + if e.regional then 0x100 else 0)
      | [] => s.put (FMR_AF.w i) 0
    s.showAf (l.drop 1) (i + 1) n

/-- Replaces the list; registers follow. -/
def State.setAf (s : State) (l : List AfEnt) : State :=
  let l := l.take 25
  (({ s with fm := { s.fm with list := l } } : State).put FMR_AF_N.COUNT l.length).showAf l 0 (List.range 25)

/-- An RDS_AF_EVENT record (R312). -/
def State.afEvent (s : State) (event cause src dst w9 : Nat) : State :=
  s.deliverAll 2 ([BitVec.ofNat 16 (event * 0x100 + cause), BitVec.ofNat 16 s.followPi] ++ lowHigh src ++ lowHigh dst ++
    [BitVec.ofNat 16 w9]) [] s.stamp s.followFns

/-- One AF code of a 0A group, with whether it is the first of its pair. -/
def AfBuild.code (b : AfBuild) (c : Nat) : Option Nat := if b.skip then none else if 1 ≤ c ∧ c ≤ 204 then some c else none

/-- The pair of codes of one 0A block C. -/
def State.afPair (s : State) (c1 c2 : Nat) : State :=
  let set (b : Option AfBuild) : State := { s with fm := { s.fm with building := b } }
  if 224 ≤ c1 ∧ c1 ≤ 249 then
    set (some ⟨c1 - 224, if 1 ≤ c2 ∧ c2 ≤ 204 then [c2] else [], [], s.sec, c2 == 250⟩)
  else match s.fm.building with
    | some b =>
      let x := (b.code c1).getD 0
      let skip2 := !b.skip && c1 == 250
      let y := if skip2 then 0 else if 1 ≤ c2 ∧ c2 ≤ 204 then c2 else 0
      set (some { b with pairs := b.pairs ++ [(x, y)], skip := c2 == 250 && !skip2 })
    | none => s

/-- Distinct codes of a list under construction. -/
def AfBuild.codes (b : AfBuild) : List Nat :=
  ((b.head ++ b.pairs.flatMap (fun p => [p.1, p.2])).filter (fun c => c != 0)).eraseDups

/-- The list is method B: every pair after the count holds the home frequency. -/
def AfBuild.methodB (b : AfBuild) (home : Nat) : Bool := b.pairs != [] && b.pairs.all (fun p => p.1 == home || p.2 == home)

/-- An entry is a regional variant of method B: its pair is in falling order. -/
def AfBuild.isRegional (b : AfBuild) (home code : Nat) : Bool :=
  b.methodB home && b.pairs.any (fun p => (p.1 == code || p.2 == code) && code != home && p.2 < p.1)

/-- `AF_LIST_COMPLETE`: as many distinct entries as announced, or 10 s after the count code; a change is reported
(R307). -/
def execAfListComplete (s : State) : Host.Outcome State Fault Refusal :=
  .next (match s.fm.building with
    | some b =>
      let home := afCode s.rxKfc
      if b.count ≤ b.codes.length ∨ b.since + 10 ≤ s.sec then
        let m := if b.methodB home then 2 else 1
        let old := s.fm.list
        let entry (c : Nat) : AfEnt :=
          match old.find? (fun e => e.code == c && !e.eon) with
          | some e => { e with regional := b.isRegional home c }
          | none => ⟨c, false, b.isRegional home c, false, 0, none⟩
        let new := (b.codes.take b.count).map entry
        let eon := old.filter (fun e => e.eon && !new.any (fun x => x.code == e.code))
        let changed := s.get FMR_AF_N.METHOD != m || ((old.filter (fun e => !e.eon)).map (fun e => (e.code, e.regional))) !=
          new.map (fun e => (e.code, e.regional))
        let s : State := { s with fm := { s.fm with building := none } }
        let s := (s.put FMR_AF_N.METHOD m).setAf (new ++ eon)
        if changed then s.afEvent 4 m s.rxKfc 0 new.length else s
      else s
    | none => s)

/-- Candidates from EON lists (R308). -/
def State.eonAdd (s : State) (codes : List Nat) : State :=
  s.setAf (codes.foldl (fun l c => if 1 ≤ c ∧ c ≤ 204 ∧ ¬ l.any (fun e => e.code == c) then l ++ [⟨c, true, false, false, 0, none⟩] else l)
    s.fm.list)

/-! ### Groups (R304, R305, R313 to R315) -/

/-- AIDs sought by the EDF_STREAM watches of the reception. -/
def State.aids (s : State) : List Nat :=
  (s.tunerRuns.filter (fun rw => recKind rw.2.words == kEDF)).map (fun rw => recWord rw.2.words 15)

/-- `FMR_ODA_AID` shows the AID sought (R313). -/
def State.showAid (s : State) : State := if bearer s.rxHome = 2 then s.put FMR_ODA_AID.w (s.aids.headD 0) else s

/-- A 3A group that names the ODA (R313). -/
def State.odaNamed (s : State) (code : Nat) : State :=
  if code = 0 ∨ code = 0x1F then (s.put FMR_ODA_TYPE.w 0).put FMR_STAT.ODA_FOUND 0
  else if code % 2 = 1 ∨ code = 6 ∨ code = 8 ∨ code = 28 then s
  else (s.put FMR_ODA_TYPE.w (0x8000 + code)).put FMR_STAT.ODA_FOUND 1

/-- UTC seconds from 2000-01-01 of a modified Julian date and a time of day. -/
def mjdSecs (mjd h m sec : Nat) : Int := 86400 * ((mjd : Int) - 51544) + 3600 * h + 60 * m + sec

/-- A 4A group (R315). -/
def State.clockTime (s : State) (at_ b c d : Nat) (ok : Bool) : State :=
  let mjd := b % 4 * 0x8000 + c / 2
  let h := c % 2 * 16 + d / 0x1000
  let m := d / 64 % 64
  if ok ∧ 51544 ≤ mjd ∧ h ≤ 23 ∧ m ≤ 59 then
    let named : Int := (mjdSecs mjd h m 0 + s.time.leap) * 2 ^ 24
    let near : Bool := match s.fm.ct with
      | some (n0, t0) => decide (((named - n0) - ((at_ : Int) - t0)).natAbs ≤ 2 ^ 24)
      | none => false
    let kt : Bool := codeOf s.time.whole ≤ 20 && decide ((named - at_).natAbs ≤ 2 ^ 24)
    let s : State := { s with fm := { s.fm with ct := some (named, at_) } }
    if near ∨ kt then ((s.inc FMR_CT_CNT.w).put FMR_STAT.CT_VALID 1).candidate 2 17 named at_ none false
    else s.inc FMR_CT_REJ.w
  else s.inc FMR_CT_REJ.w

/-- What a group of each type means to the device (Table 13.2); statuses of blocks A to D follow `st`. -/
def State.interpret (s : State) (at_ a b c d : Nat) (sb sc sd : Nat) : State :=
  let type := b / 0x800
  let s := if type = 0 ∧ sc ≤ 1 then s.afPair (c / 0x100) (c % 0x100) else s
  let s := if type = 6 ∧ sb ≤ 1 ∧ sd ≤ 1 ∧ s.aids.contains d then s.odaNamed (b % 32) else s
  let s := if type = 8 then s.clockTime at_ b c d (sb ≤ 1 && sc ≤ 1 && sd ≤ 1) else s
  if type = 28 ∧ s.afEon ∧ sc < 3 ∧ sd < 3 ∧ d = s.followPi ∧ s.followPi ≠ a then
    if b % 16 = 4 then s.eonAdd [c / 0x100, c % 0x100]
    else if b % 16 = 5 ∧ c / 0x100 = afCode s.rxKfc ∧ afCode s.rxKfc ≠ 0 then s.eonAdd [c % 0x100]
    else s
  else s

/-- `RDS_GROUP`: the four blocks received make a group. One whose block B is usable is delivered and interpreted; groups of
the adopted type go to the EDF layer (R304, R313, R314). `at_` is KTIME at the first bit of block A. -/
def execRdsGroup (at_ : Nat) (s : State) : Host.Outcome State Fault Refusal :=
  .next (match s.fm.blocks with
  | [(sa, a), (sb, b), (sc, c), (sd, d)] =>
    let at_ := min at_ s.ktime
    let cprime := s.fm.cprime
    let status := 64 * sa + 16 * sb + 4 * sc + sd
    let s : State := { s with fm := { s.fm with blocks := [] } }
    if 3 ≤ sb then { s with fm := { s.fm with gap := false } }
    else
      let pi : Option Nat := if sa < 3 then some a.toNat else if cprime ∧ sc < 3 then some c.toNat else none
      let wants (w : List Word) : Bool := recKind w == kRDS && recWord w 13 / 2 ^ (b.toNat / 0x1000) % 2 == 1 &&
        (recWord w 14 == 0 || pi == some (recWord w 14))
      let fns := allFns.filter (fun f => (s.fnsWith wants).contains f || s.listeners.contains f)
      let s := s.deliverAll 1 [BitVec.ofNat 16 ((if s.fm.gap then 0x200 else 0) + (if cprime then 0x100 else 0) + status % 0x100),
        a, b, c, d] [] (at_ % 2 ^ 32) fns
      let oda := s.get FMR_ODA_TYPE.w
      let part (x : Word) (st : Nat) : List (Option Byte) :=
        if 3 ≤ st then [none, none] else [some (x.extractLsb' 8 8), some (x.extractLsb' 0 8)]
      let s := if 0x8000 ≤ oda ∧ b.toNat / 0x800 = oda % 32 then
          s.rdsPart (b.toNat % 32) (part c sc ++ part d sd) s.listeners else s
      let s := s.interpret at_ (pi.getD 0) b.toNat c.toNat d.toNat sb sc sd
      { s with fm := { s.fm with gap := false } }
  | _ => s)

/-! ### Following (R309 to R311) -/

/-- The candidates a search checks, in list order. -/
def State.afCands (s : State) : List AfEnt :=
  s.fm.list.filter (fun e => !e.banned && e.code != afCode s.rxKfc && (!e.regional || s.afReg))

/-- Puts measured RSSIs into the list. -/
def State.afRssi (s : State) (l : List (AfEnt × Int)) : State :=
  s.setAf (s.fm.list.map (fun e => match l.find? (fun x => x.1.code == e.code) with
    | some x => { e with rssi := some (clampRssi false x.2) }
    | none => e))

/-- The FM reception moves to a candidate that awaits its PI. -/
def State.afTry (s : State) (kfc cause : Nat) : State :=
  let f : Follow := ⟨kfc, s.rxKfc, cause, s.get FES_RSSI.w, 0⟩
  let s := (s.put FMR_STAT.AF_CONFIRM 1).put FMR_STAT.SYNC 0
  let s := s.put FMR_STAT.PI_VALID 0
  let s : State := { s with fm := { s.fm with confirm := some f, window := [], blocks := [], piN := 0, building := none } }
  s.retune kfc

/-- `AF_SEARCH`: every candidate is checked, one that does not lock having no RSSI, and the strongest that exceeds home by HYST
is tried, or reported (R306, R309). Cause 1 is RSSI, 2 a loss of synchronisation or PI. -/
def execAfSearch (cause : Nat) (rssis : List (Option Int)) (s : State) : Host.Outcome State Fault Refusal :=
  .next (match s.fe.rx with
    | some r =>
      let lost := !s.bit FMR_STAT.SYNC || (s.bit FMR_STAT.PI_VALID && s.get FMR_PI.w != s.followPi)
      if s.onBearer 2 ∧ ¬ r.stopped ∧ s.followRuns ≠ [] ∧ s.fm.confirm.isNone ∧ s.fe.afHost.isNone ∧
          ((cause = 1 ∧ s.weak 28 AF_CFG.SW_DBM) ∨ (cause = 2 ∧ lost)) then
        let all := pairUp s.afCands rssis
        let l := heard all
        let s := (s.measured (all.map (fun x => (afKfc x.1.code, x.2)))).afRssi l
        match strongest (l.map (fun x => (x.1.code, clampRssi false x.2))) with
        | some (code, v) =>
          if s.follows 29 then
            if s.exceeds v AF_CFG.HYST then s.afTry (afKfc code) cause else s
          else s.afEvent 3 0 s.rxKfc (afKfc code) (code16 v)
        | none => s
      else s
    | none => s)

/-- `AF_SWITCH`: the PI to follow is confirmed within PI_DWELL of the tune job, and the switch stands (R309, R310). -/
def execAfSwitch (us : Nat) (s : State) : Host.Outcome State Fault Refusal :=
  .next (match s.fm.confirm with
    | some f =>
      if s.bit FMR_STAT.PI_VALID ∧ s.get FMR_PI.w = s.followPi ∧ us ≤ 10000 * s.cfg AF_TIME.PI_DWELL then
        let old := afCode f.home
        let l := if old = 0 ∨ s.fm.list.any (fun e => e.code == old) then s.fm.list
          else s.fm.list ++ [⟨old, false, false, false, 0, none⟩]
        let again := s.recallPut s.fm.recalled f.kfc
        let s : State := { s with fm := { s.fm with confirm := none, building := none, recalled := again } }
        let s := ((s.setAf l).put FMR_STAT.AF_CONFIRM 0).putBit FMR_STAT.FOLLOWING (f.kfc != s.rxHome)
        ((s.raise1 jAF_SWITCH).inc FMR_AF_CNT_SW.w).afEvent 1 f.cause f.home f.kfc (s.get FES_RSSI.w)
      else s
    | none => s)

/-- `AF_RETURN`: no confirmation; the device tunes back home and bans the candidate (R309). -/
def execAfReturn (s : State) : Host.Outcome State Fault Refusal :=
  .next (match s.fm.confirm with
    | some f =>
      let other : Bool := s.bit FMR_STAT.PI_VALID && s.get FMR_PI.w != s.followPi
      let cause := if s.get FES_STAT.JOB = 7 then 3 else if other then 1 else 2
      let till := s.sec + s.cfg AF_BAN.w
      let l := s.fm.list.map (fun e => if e.code = afCode f.kfc then { e with banned := true, banEnd := till } else e)
      let s : State := { s with fm := { s.fm with confirm := none, window := [], blocks := [], piN := 0 } }
      let s := (((s.put FMR_STAT.AF_CONFIRM 0).put FMR_STAT.SYNC 0).put FMR_STAT.PI_VALID 0).retune f.home
      ((s.setAf l).inc FMR_AF_CNT_RET.w).afEvent 2 cause f.kfc f.home f.rssi
    | none => s)

/-- The planned end abandons a confirmation: RETURNED with cause 0x04 (Table 13.6). -/
def State.fmPlannedEnd (s : State) : State :=
  match s.fm.confirm with
  | some f =>
    let s : State := { s with fm := { s.fm with confirm := none } }
    (s.put FMR_STAT.AF_CONFIRM 0).afEvent 2 4 f.kfc f.home f.rssi
  | none => s

/-- The reception is one that follows, is not stopped or held up by a switch or a check, and its home signal is good. -/
def State.checks (s : State) (stays good : Bool) : Bool :=
  s.followRuns != [] && s.fe.rx.any (fun r => !r.stopped) && s.fe.afHost.isNone && stays && good

/-- `AF_PERIODIC_CHECK`: the next candidate in turn is measured (R309). -/
def execAfPeriodicCheck (rssi : Option Int) (s : State) : Host.Outcome State Fault Refusal :=
  .next (
    let l := s.afCands
    match l[s.fm.turn % l.length]? with
    | some e =>
      if s.onBearer 2 ∧ s.checks s.fm.confirm.isNone (s.bit FMR_STAT.SYNC && !s.weak 28 AF_CFG.SW_DBM) then
        let s : State := { s with fm := { s.fm with turn := s.fm.turn + 1 } }
        (s.measured [(afKfc e.code, rssi)]).afRssi (heard [(e, rssi)])
      else s
    | none => s)

/-- `AF_RECALL`: an occurrence without a confirmed PI on its planned KFC tries the frequency of the watch's last switch
(R311). -/
def execAfRecall (s : State) : Host.Outcome State Fault Refusal :=
  .next (if s.onBearer 2 ∧ s.cfg AF_CTL.RECALL = 1 ∧ s.fe.rx.any (fun r => !r.stopped) ∧ s.follows 29 ∧ ¬ s.bit FMR_STAT.PI_VALID ∧ s.rxKfc = s.rxHome ∧
      s.fm.confirm.isNone ∧ ¬ s.fm.recallTried then
    match s.recallGet s.fm.recalled with
    | some kfc => ({ s with fm := { s.fm with recallTried := true } } : State).afTry kfc 3
    | none => s
  else s)

/-- `AF_BAN_END`: the `AF_BAN` seconds of a ban have passed (R309). -/
def execAfBanEnd (code : Nat) (s : State) : Host.Outcome State Fault Refusal :=
  .next (s.setAf (s.fm.list.map (fun e => if e.code = code ∧ e.banEnd ≤ s.sec then { e with banned := false } else e)))

end Sys2Proof.Machine
end

