-- ==== Sys2Proof/Machine/Dab.lean ====
section
/-! DEFINITION. DAB reception (spec 14): FIC, the data sub-channel, service following, time and frequency. Bit layouts of
the FIGs are those of ETSI EN 300 401, which the spec names and does not repeat (log entry 24). -/

namespace Sys2Proof.Machine

open R

/-! ### FIGs (R321, R323) -/

/-- A FIG: type, extension, the C/N, OE and P/D flags, and the body after the byte that holds the extension. -/
structure Fig where
  type : Nat
  ext : Nat
  cn : Bool
  oe : Bool
  pd : Bool
  body : List Byte
  deriving DecidableEq, Repr

/-- The FIGs of a FIB's 30 data bytes, up to the end marker. -/
def figs : Nat → List Byte → List Fig
  | 0, _ => []
  | _, [] => []
  | n + 1, h :: l =>
    if h = 0xFF then []
    else
      let len := h.toNat % 32
      let t := h.toNat / 32
      let e := (l.headD 0).toNat
      let rest := figs n (l.drop len)
      if len = 0 ∨ 1 < t then rest
      else (⟨t, if t = 0 then e % 32 else e % 8, t == 0 && e / 0x80 == 1,
        if t = 0 then e / 0x40 % 2 == 1 else e / 8 % 2 == 1, t == 0 && e / 0x20 % 2 == 1, (l.take len).drop 1⟩ : Fig) :: rest

/-- CU of a UEP table entry (ETSI EN 300 401, Table 8). -/
def uepSize (i : Nat) : Nat :=
  ([16, 21, 24, 29, 35, 24, 29, 35, 42, 52, 29, 35, 42, 52, 32, 42] ++
   [48, 58, 70, 40, 52, 58, 70, 84, 48, 58, 70, 84, 104, 58, 70, 84] ++
   [104, 64, 84, 96, 116, 140, 80, 104, 116, 140, 168, 96, 116, 140, 168, 208] ++
   [116, 140, 168, 208, 232, 128, 168, 192, 232, 280, 160, 208, 280, 192, 280, 416]).getD i 0

/-- The entries of FIG 0/1. A short form with its table switch set has size 0. -/
def figSubs : Nat → List Byte → List SubCh
  | 0, _ => []
  | n + 1, a :: b :: c :: l =>
    let id := a.toNat / 4
    let start := a.toNat % 4 * 0x100 + b.toNat
    if c.toNat < 0x80 then
      let i := c.toNat % 0x40
      ⟨id, start, if c.toNat / 0x40 % 2 = 1 then 0 else uepSize i, false, 0, 0, i⟩ :: figSubs n l
    else match l with
      | d :: l => ⟨id, start, c.toNat % 4 * 0x100 + d.toNat, true, c.toNat / 0x10 % 8, c.toNat / 4 % 4, 0⟩ :: figSubs n l
      | [] => []
  | _, _ => []

/-- The services of FIG 0/2: SId, SCIds of its packet components in order, and its stream-mode sub-channels. -/
def figServices (pd : Bool) : Nat → List Byte → List (Nat × List Nat × List Nat)
  | 0, _ => []
  | n + 1, l =>
    let w := if pd then 4 else 2
    if l.length ≤ w then []
    else
      let k := (l.getD w 0).toNat % 16
      let comps := (List.range k).map (fun i => beAt l (w + 1 + 2 * i) 2)
      (beAt l 0 w, (comps.filter (fun c => c / 0x4000 == 3)).map (fun c => c / 4 % 0x1000),
        (comps.filter (fun c => c / 0x4000 ≤ 1)).map (fun c => c / 4 % 0x40)) :: figServices pd n (l.drop (w + 1 + 2 * k))

/-- The entries of FIG 0/3: SCId, sub-channel id, packet address. -/
def figComps : Nat → List Byte → List (Nat × Nat × Nat)
  | 0, _ => []
  | n + 1, l =>
    if l.length < 5 then []
    else (beAt l 0 2 / 16, beAt l 3 2 / 0x400, beAt l 3 2 % 0x400) :: figComps n (l.drop (if beAt l 1 1 % 2 = 1 then 7 else 5))

/-- The hard DAB link sets of FIG 0/6, with LA and S/H at 1. -/
def figLinks (pd : Bool) : Nat → List Byte → List (List Nat)
  | 0, _ => []
  | n + 1, l =>
    if l.length < 2 then []
    else
      let a := beAt l 0 1
      if a / 0x80 = 0 then figLinks pd n (l.drop 2)
      else
        let q := beAt l 2 1
        let w := if pd then 4 else if a / 0x10 % 2 = 1 then 3 else 2
        let ids := (List.range (q % 16)).map (fun i => beAt l (3 + w * i) w % if w = 3 then 0x10000 else 0x100000000)
        let rest := figLinks pd n (l.drop (3 + w * (q % 16)))
        if a / 0x20 % 4 = 3 ∧ q / 0x20 % 4 = 0 then ids :: rest else rest

/-- The DAB entries of FIG 0/21: EId and frequency in units of 16 kHz. -/
def figFreqs : Nat → List Byte → List (Nat × Nat)
  | 0, _ => []
  | n + 1, l =>
    if l.length < 2 then []
    else inner (beAt l 1 1 % 32) ((l.drop 2).take (beAt l 1 1 % 32)) ++ figFreqs n (l.drop (2 + beAt l 1 1 % 32))
where
  inner : Nat → List Byte → List (Nat × Nat)
    | 0, _ => []
    | n + 1, l =>
      if l.length < 3 then []
      else
        let k := beAt l 2 1 % 8
        (if beAt l 2 1 / 16 = 0 then (List.range (k / 3)).map (fun i => (beAt l 0 2, beAt l (3 + 3 * i) 3 % 0x80000)) else []) ++
          inner n (l.drop (3 + k))

/-- The entries of FIG 0/24: SId and its EIds. -/
def figOthers (pd : Bool) : Nat → List Byte → List (Nat × List Nat)
  | 0, _ => []
  | n + 1, l =>
    let w := if pd then 4 else 2
    if l.length ≤ w then []
    else
      let k := beAt l w 1 % 16
      (beAt l 0 w, (List.range k).map (fun i => beAt l (w + 1 + 2 * i) 2)) :: figOthers pd n (l.drop (w + 1 + 2 * k))

/-! ### Acquisition (R320) -/

/-- The demodulator starts over on its frequency; what following gathered stays. -/
def State.dabRestart (s : State) : State :=
  let s := ((((s.put DAB_STAT.SYNC 0).put DAB_STAT.FIC_OK 0).put DAB_STAT.EID_VALID 0).put DAB_STAT.SUBCH_ON 0).put DAB_FERR.w 0x8000
  { s with dab := { s.dab with
    fibs := [], mux := ⟨[], []⟩, next := none, services := [], streams := [], fec := [], resolved := false, lost := false } }

/-- `DAB_SYNC` (R320, R337). -/
def execDabSync (s : State) : Host.Outcome State Fault Refusal :=
  .next (if s.onBearer 3 ∧ s.pikaServes ∧ ¬ s.bit DAB_STAT.SYNC then
    ({ s with dab := { s.dab with syncAt := s.aon } } : State).put DAB_STAT.SYNC 1
  else s)

/-- `DAB_SYNC_LOST`: every loss is counted and acquisition starts again (R320). -/
def execDabSyncLost (s : State) : Host.Outcome State Fault Refusal :=
  .next (if s.bit DAB_STAT.SYNC then s.dabRestart.inc DAB_CNT_SYNC.w else s)

/-! ### Events (R333) -/

/-- The sub-channel and address of the reception; 0 where it has none. -/
def State.dabAddr (s : State) : Nat :=
  match s.fe.rx with
  | some r => if r.sub = 0x40 then 0 else r.sub % 0x40 * 0x400 + r.addrs.headD 0 % 0x400
  | none => 0

/-- The followed SId: one that a switch to a linked service made it, else the AF_WATCH's, else the one resolved (R328,
R331). -/
def State.followSid (s : State) : Nat :=
  match s.dab.linkSid with
  | some x => x
  | none => match s.afWatch with
    | some w =>
      let v := recWord w 13 + 0x10000 * recWord w 14
      if v = 0 then s.get32 DAB_SID_L.w else v
    | none => s.get32 DAB_SID_L.w

/-- The payload of a DAB_SERVICE_EVENT. -/
def State.serviceWords (s : State) (event cause src dst eid rssi : Nat) : List Word :=
  [BitVec.ofNat 16 (event * 0x100 + cause)] ++ lowHigh s.followSid ++ lowHigh src ++ lowHigh dst ++
    [BitVec.ofNat 16 eid, BitVec.ofNat 16 s.dabAddr, BitVec.ofNat 16 rssi]

/-- SWITCHED, RETURNED and CANDIDATE. -/
def State.followEvent (s : State) (event cause src dst eid rssi : Nat) : State :=
  s.deliverAll 9 (s.serviceWords event cause src dst eid rssi) [] s.stamp s.followFns

/-- RESOLVED and SUBCH_LOST. -/
def State.subEvent (s : State) (event cause : Nat) : State :=
  s.deliverAll 9 (s.serviceWords event cause 0 s.rxKfc (s.get DAB_EID.w) (s.get FES_RSSI.w)) [] s.stamp
    (allFns.filter (fun f => (s.fnsWith (fun w => recKind w == kEDF)).contains f || s.listeners.contains f))

/-- SUBCH_LOST, once. -/
def State.subLost (s : State) (cause : Nat) : State :=
  if s.dab.lost then s
  else (({ s with dab := { s.dab with lost := true } } : State).put DAB_STAT.SUBCH_ON 0).subEvent 4 cause

/-! ### Service and sub-channel (R324, R327) -/

/-- The reception sits off its planned KFC. -/
def State.offHome (s : State) : Bool := s.rxKfc != s.rxHome

/-- Resolves the service, or on another ensemble the sub-channel and address of the followed service (R327). -/
def State.resolve (s : State) : State :=
  match s.fe.rx with
  | some r =>
    if s.dab.resolved ∨ r.sub = 0x40 ∨ ¬ s.bit DAB_STAT.EID_VALID ∨ s.dab.confirm.isSome then s
    else if s.offHome then
      match s.dab.services.find? (fun e => e.1 == s.followSid) with
      | some (_, scids) =>
        match (scids[s.dab.scids]?).bind (fun x => s.dab.mux.comps.find? (fun c => c.1 == x)) with
        | some (_, sub, addr) =>
          let s : State := { s with fe := { s.fe with rx := some { r with sub := sub, addrs := [addr] } },
                                    dab := { s.dab with resolved := true } }
          s.subEvent 5 0
        | none => s
      | none => s
    else
      match s.dab.mux.comps.find? (fun c => c.2.1 == r.sub && r.addrs.contains c.2.2) with
      | some (scid, _, _) =>
        match s.dab.services.find? (fun e => e.2.contains scid) with
        | some (sid, scids) =>
          let s : State := { s with dab := { s.dab with resolved := true, scids := scids.idxOf scid } }
          (s.put32 DAB_SID_L.w sid).subEvent 5 0
        | none => s
      | none => s
  | none => s

/-- The sub-channel starts to be decoded, or cannot be (R324). -/
def State.startSub (s : State) : State :=
  match s.fe.rx with
  | some r =>
    if r.sub = 0x40 ∨ s.bit DAB_STAT.SUBCH_ON ∨ s.dab.lost ∨ s.dab.confirm.isSome ∨ (s.offHome ∧ ¬ s.dab.resolved) then s
    else match s.dab.mux.subs.find? (fun c => c.id == r.sub) with
      | some c =>
        if 192 < c.size then s.subLost 2
        else if s.dab.streams.contains r.sub ∨ c.size = 0 ∨ (c.long ∧ 1 < c.option) then s.subLost 3
        else if s.dab.mux.comps.any (fun x => x.2.1 == r.sub) then
          let fec := s.dab.fec.contains (r.sub, 1)
          let s := (s.put DAB_STAT.SUBCH_ON 1).put DAB_SUBCH.w (c.id * 0x400 + c.size)
          let s := (s.put DAB_SUBCH_PROT.w ((if c.long then 0x8000 else 0) + c.option * 0x1000 + c.level * 0x400 +
            (if fec then 0x200 else 0) + c.uep)).put DAB_SUBCH_START.w c.start
          let l := (s.rxHome, r.sub, c.size) :: s.sched.sizes.filter (fun e => !(e.1 == s.rxHome && e.2.1 == r.sub))
          if s.offHome then s else { s with sched := { s.sched with sizes := l } }
        else s
      | none => s
  | none => s

/-! ### Candidates (R328, R329) -/

/-- Frequency in units of 16 kHz as a KFC, and its range. -/
def dabKfc (freq : Nat) : Nat := 3 * 2 ^ 28 + 16 * freq
def dabInRange (freq : Nat) : Bool := 174928 ≤ 16 * freq && 16 * freq ≤ 239200

/-- OE and LINK as the AF_WATCH or `DAB_AF_CTL` gives them. -/
def State.dabOe (s : State) : Bool := s.cfg DAB_AF_CTL.OE_EN == 1 || (match s.afWatch with | some w => recByte w 31 % 2 == 1 | none => false)
def State.dabLink (s : State) : Bool := s.cfg DAB_AF_CTL.LINK_EN == 1 || (match s.afWatch with | some w => recByte w 31 / 2 % 2 == 1 | none => false)

/-- The candidate registers follow the list. -/
def State.showDabAf (s : State) (l : List DabCand) (i : Nat) : List Nat → State
  | [] => s
  | _ :: n =>
    let s := match l with
      | c :: _ => (s.put (DAB_AF.w i) c.freq).put (DAB_AF_F.w i) ((if dabKfc c.freq = s.rxKfc then 8 else 0) +
          (if c.banned then 4 else 0) + (if c.oe then 2 else 0) + if c.linked then 1 else 0)
      | [] => (s.put (DAB_AF.w i) 0).put (DAB_AF_F.w i) 0
    s.showDabAf (l.drop 1) (i + 1) n

/-- Replaces the candidates. -/
def State.setDabAf (s : State) (l : List DabCand) : State :=
  (({ s with dab := { s.dab with cands := l } } : State).put DAB_AF_N.w l.length).showDabAf l 0 (List.range 16)

/-- Candidates from the frequencies known, in the order first seen (R329). -/
def State.findCands (s : State) : State :=
  if s.dab.confirm.isSome ∨ ¬ s.bit DAB_STAT.EID_VALID then s
  else
    let home := s.get DAB_EID.w
    let eids (sid : Nat) : List Nat := ((s.dab.others.filter (fun e => e.1 == sid)).flatMap (fun e => e.2))
    let oe := if s.dabOe then eids s.followSid else []
    let ln := if s.dabLink then s.dab.links.flatMap eids else []
    let add (l : List DabCand) (e : Nat × Nat) : List DabCand :=
      if l.length < 16 ∧ dabInRange e.2 ∧ ¬ l.any (fun c => c.freq == e.2) ∧ (e.1 = home ∨ oe.contains e.1 ∨ ln.contains e.1) then
        l ++ [⟨e.2, e.1 != home && oe.contains e.1, e.1 != home && !oe.contains e.1, false, 0, e.1, none⟩] else l
    s.setDabAf (s.dab.freqs.foldl add s.dab.cands)

/-! ### Time (R334, R366) -/

/-- The propagation offset of an ensemble in 0.1 µs. -/
def State.propOf (s : State) (eid : Nat) : Option Int :=
  if eid = 0 then none
  else ((List.range 8).find? (fun i => s.get (TIME_PROP_ID.w i) == eid)).map (fun i => signed16 (s.get (TIME_PROP_OFS.w i)))

/-- A long-form FIG 0/10 (R334). -/
def State.dabTime (s : State) (at_ : Nat) (b : List Byte) : State :=
  let w := beAt b 0 4
  let mjd := w / 0x4000 % 0x20000
  let lsi := w / 0x2000 % 2
  let h := w / 64 % 32
  let m := w % 64
  let x := beAt b 4 2
  let sec := x / 0x400
  let ms := x % 0x400
  if b.length < 6 ∨ w / 0x800 % 2 = 0 then s
  else if 51544 ≤ mjd ∧ h ≤ 23 ∧ m ≤ 59 ∧ (sec ≤ 59 ∨ (sec = 60 ∧ lsi = 1)) ∧ ms ≤ 999 then
    let utc := mjdSecs mjd h m sec
    let named : Int := (utc + s.time.leap) * 2 ^ 24 + Config.round ((ms : ℚ) * 2 ^ 24 / 1000)
    let tol (d : Int) : Bool := d.natAbs * 1000 ≤ 2 ^ 24
    let near : Bool := match s.dab.time with | some (n0, t0) => tol ((named - n0) - ((at_ : Int) - t0)) | none => false
    let kt : Bool := codeOf s.time.whole ≤ 10 && tol (named - at_)
    let s : State := { s with dab := { s.dab with time := some (named, at_) } }
    if near ∨ kt then
      let s := (s.inc DAB_TIME_CNT.w).put DAB_STAT.TIME_VALID 1
      let s := match s.propOf (s.get DAB_EID.w) with
        | some o => s.candidate 4 4 (named + Config.round ((o : ℚ) * 2 ^ 24 / 10000000)) at_ none false
        | none => s.candidate 4 9 named at_ none false
      let stop := nextHalfYear utc.toNat
      if lsi = 1 ∧ s.get TIME_SRC_EN.w / 16 % 2 = 1 ∧ stop ≤ utc.toNat + 31 * 86400 then s.announce 1 stop else s
    else s.inc DAB_TIME_REJ.w
  else s.inc DAB_TIME_REJ.w

/-! ### FIBs (R321 to R323) -/

/-- Puts the entries of a list into a table, a new one replacing the one with its key. -/
def merge {α : Type} (key : α → Nat) (old new : List α) : List α :=
  new.foldl (fun l e => l.filter (fun x => key x != key e) ++ [e]) old

/-- What a FIG of type 0 means to the device (Table 14.2). -/
def State.figMeaning (s : State) (at_ : Nat) (g : Fig) : State :=
  let n := g.body.length
  let d := s.dab
  match g.ext with
  | 0 =>
    let s := ((s.put DAB_EID.w (beAt g.body 0 2)).put DAB_STAT.EID_VALID 1).put DAB_CIF.w
      (beAt g.body 2 1 % 32 * 250 + beAt g.body 3 1)
    if beAt g.body 2 1 / 0x40 ≠ 0 ∧ s.dab.next.isNone then { s with dab := { s.dab with next := some (beAt g.body 4 1, ⟨[], []⟩) } } else s
  | 1 =>
    if g.cn then { s with dab := { d with next := d.next.map (fun e =>
      (e.1, { e.2 with subs := merge SubCh.id e.2.subs (figSubs n g.body) })) } }
    else { s with dab := { d with mux := { d.mux with subs := merge SubCh.id d.mux.subs (figSubs n g.body) } } }
  | 2 =>
    if g.oe ∨ g.cn then s
    else
      let l := figServices g.pd n g.body
      { s with dab := { d with services := merge Prod.fst d.services (l.map (fun e => (e.1, e.2.1))),
                               streams := (d.streams ++ l.flatMap (fun e => e.2.2)).eraseDups } }
  | 3 =>
    if g.cn then { s with dab := { d with next := d.next.map (fun e =>
      (e.1, { e.2 with comps := merge (fun c => c.1) e.2.comps (figComps n g.body) })) } }
    else { s with dab := { d with mux := { d.mux with comps := merge (fun c => c.1) d.mux.comps (figComps n g.body) } } }
  | 6 =>
    let sets := (figLinks g.pd n g.body).filter (fun l => l.contains s.followSid)
    { s with dab := { d with links := (d.links ++ (sets.flatMap id).filter (· ≠ s.followSid)).eraseDups } }
  | 10 => s.dabTime at_ g.body
  | 14 => { s with dab := { d with fec := merge Prod.fst d.fec (g.body.map (fun b => (b.toNat / 4, b.toNat % 4))) } }
  | 21 => { s with dab := { d with freqs := (d.freqs ++ figFreqs n g.body).eraseDups } }
  | 24 => { s with dab := { d with others := merge Prod.fst d.others (figOthers g.pd n g.body) } }
  | _ => s

/-- A watch or LISTEN takes a FIG raw (R323). -/
def figWanted (hist : List (Nat × Nat × List Byte)) (g : Fig) (w : List Word) : Bool :=
  let sel := if g.type = 1 then recByte w 30 / 2 ^ g.ext % 2 == 1
    else (recWord w 13 + 0x10000 * recWord w 14) / 2 ^ g.ext % 2 == 1
  let past := (hist.filter (fun e => e.1 == g.type && e.2.1 == g.ext)).take 16
  recKind w == kFIC && sel && (recByte w 31 % 2 == 0 || !past.any (fun e => e.2.2 == g.body))

/-- Delivers one FIG as a DAB_FIG record (R323). -/
def State.figRecord (s : State) (at_ : Nat) (g : Fig) : State :=
  let fns := allFns.filter (fun f => (s.fnsWith (figWanted s.dab.hist g)).contains f || s.listeners.contains f)
  if fns = [] then s
  else
    let w3 := g.type * 0x2000 + g.ext * 0x100 + (if g.cn then 0x80 else 0) + (if g.oe then 0x40 else 0) +
      (if g.pd then 0x20 else 0) + g.body.length
    let s := s.deliverAll 8 ([BitVec.ofNat 16 w3, BitVec.ofNat 16 (s.get DAB_CIF.w)] ++ wordsOfBytes g.body) [] (at_ % 2 ^ 32) fns
    { s with dab := { s.dab with hist := (g.type, g.ext, g.body) :: s.dab.hist } }

/-- `DAB_SUBCH_PROT.FEC` follows FIG 0/14 while the sub-channel is decoded (R324). -/
def State.showFec (s : State) : State :=
  if s.bit DAB_STAT.SUBCH_ON then s.putBit DAB_SUBCH_PROT.FEC (s.dab.fec.contains (s.get DAB_SUBCH.ID, 1)) else s

/-- Each FIG is interpreted, then delivered. -/
def State.takeFigs (s : State) (at_ : Nat) : List Fig → State
  | [] => s
  | g :: l => ((if g.type = 0 then s.figMeaning at_ g else s).figRecord at_ g).takeFigs at_ l

/-- `DAB_FIB`: a FIB is counted; one that passes its CRC is interpreted and its FIGs delivered (R321, R323). `at_` is KTIME
at the null symbol of its frame. -/
def execDabFib (at_ : Nat) (crcOk : Bool) (bytes : List Byte) (s : State) : Host.Outcome State Fault Refusal :=
  .next (if s.bit DAB_STAT.SYNC then
    let at_ := min at_ s.ktime
    let s := s.inc DAB_CNT_FIB.w
    let s : State := { s with dab := { s.dab with fibs := (crcOk :: s.dab.fibs).take 60 } }
    let s := s.putBit DAB_STAT.FIC_OK (s.dab.fibs.any id)
    if crcOk then ((s.takeFigs at_ (figs 30 (bytes.take 30))).resolve.startSub.showFec).findCands
    else s.inc DAB_CNT_FIB_BAD.w
  else s)

/-- `DAB_RECONFIGURATION`: the announced configuration applies (R322). -/
def execDabReconfiguration (s : State) : Host.Outcome State Fault Refusal :=
  .next (match s.dab.next, s.fe.rx with
    | some (_, m), some r =>
      let s : State := { s with dab := { s.dab with mux := m, next := none, resolved := false, lost := false } }
      if r.sub = 0x40 then s
      else if s.offHome ∧ ¬ s.dab.services.any (fun e => e.1 == s.followSid) then s.subLost 4
      else if m.subs.any (fun c => c.id == r.sub) ∧ m.comps.any (fun c => c.2.1 == r.sub && r.addrs.contains c.2.2) then
        (s.put DAB_STAT.SUBCH_ON 0).resolve.startSub
      else s.subLost 1
    | _, _ => s)

/-- `DAB_PACKET`: a packet of the decoded sub-channel (R325, R378). -/
def execDabPacket (crcOk : Bool) (bytes : List Byte) (s : State) : Host.Outcome State Fault Refusal :=
  .next (match s.fe.rx with
    | some r =>
      let h := beAt bytes 0 1
      let addr := beAt bytes 0 2 % 0x400
      if s.bit DAB_STAT.SUBCH_ON ∧ addr ≠ 0 ∧ r.addrs.contains addr then
        let s := s.inc DAB_CNT_PKT.w
        if crcOk ∧ bytes.length = 96 ∧ h / 0x40 = 3 then
          if h / 4 % 4 = 3 ∧ beAt bytes 2 1 = 80 then
            let heard := (s.liveListens.filter (fun e => e.2.addr == addr || r.addrs == [addr])).map Prod.fst
            s.segment (((bytes.drop 3).take 80).map some) (heard.filter (fun f =>
              match (s.plan f).listen with | some l => l.sub != 0x40 | none => false))
          else (s.inc EDF_CNT_SEG.w).inc EDF_CNT_BAD.w
        else s.inc DAB_CNT_PKT_BAD.w
      else s
    | none => s)

/-! ### Following (R330, R331) -/

/-- More than FIB_BAD × 10 % of the FIBs of the last 20 frames fail, or synchronisation is lost. -/
def State.fibsBad (s : State) : Bool :=
  !s.bit DAB_STAT.SYNC || decide (s.cfg DAB_AF_CFG.FIB_BAD * s.dab.fibs.length < 10 * (s.dab.fibs.filter (fun b => !b)).length)

/-- The candidates a search checks. -/
def State.dabCands (s : State) : List DabCand := s.dab.cands.filter (fun c => !c.banned && dabKfc c.freq != s.rxKfc)

/-- Puts measured RSSIs into the candidates. -/
def State.dabRssi (s : State) (l : List (DabCand × Int)) : State :=
  s.setDabAf (s.dab.cands.map (fun c => match l.find? (fun x => x.1.freq == c.freq) with
    | some x => { c with rssi := some (clampRssi false x.2) }
    | none => c))

/-- The DAB reception moves to a frequency that awaits confirmation. -/
def State.dabTry (s : State) (kfc cause : Nat) : State :=
  let f : Follow := ⟨kfc, s.rxKfc, cause, s.get FES_RSSI.w, s.get DAB_EID.w⟩
  let s := s.dabRestart.put DAB_STAT.AF_CONFIRM 1
  ({ s with dab := { s.dab with confirm := some f } } : State).retune kfc

/-- `DAB_AF_SEARCH`: as `AF_SEARCH`, cause 2 being FIB errors or a loss of synchronisation (R328, R330). -/
def execDabAfSearch (cause : Nat) (rssis : List (Option Int)) (s : State) : Host.Outcome State Fault Refusal :=
  .next (match s.fe.rx with
    | some r =>
      if s.onBearer 3 ∧ ¬ r.stopped ∧ s.followRuns ≠ [] ∧ s.dab.confirm.isNone ∧ s.fe.afHost.isNone ∧
          ((cause = 1 ∧ s.weak 30 DAB_AF_CFG.SW_DBM) ∨ (cause = 2 ∧ s.fibsBad)) then
        let all := pairUp s.dabCands rssis
        let l := heard all
        let s := (s.measured (all.map (fun x => (dabKfc x.1.freq, x.2)))).dabRssi l
        match strongest (l.map (fun x => (x.1.freq, clampRssi false x.2))) with
        | some (freq, v) =>
          if ¬ s.exceeds v DAB_AF_CFG.HYST then s
          else if s.follows 31 then s.dabTry (dabKfc freq) cause
          else
            let eid := ((s.dab.cands.find? (fun c => c.freq == freq)).map DabCand.eid).getD 0
            s.followEvent 3 0 s.rxKfc (dabKfc freq) eid (code16 v)
        | none => s
      else s
    | none => s)

/-- The candidate of a KFC. -/
def State.candOf (s : State) (kfc : Nat) : Option DabCand := s.dab.cands.find? (fun c => dabKfc c.freq == kfc)

/-- `DAB_AF_SWITCH`: synchronisation, the expected EId and the SId are confirmed `ms` after the start of the tune job (R330,
R331). -/
def execDabAfSwitch (ms : Nat) (s : State) : Host.Outcome State Fault Refusal :=
  .next (match s.dab.confirm with
    | some f =>
      let c := s.candOf f.kfc
      let eidOk : Bool := match c with | some c => c.eid == s.get DAB_EID.w | none => true
      let linked : Bool := match c with | some c => c.linked | none => false
      let sid : Option Nat := if linked then (s.dab.links.find? (fun x => s.dab.services.any (fun e => e.1 == x)))
        else if s.dab.services.any (fun e => e.1 == s.followSid) then some s.followSid else none
      if s.bit DAB_STAT.SYNC ∧ s.bit DAB_STAT.EID_VALID ∧ eidOk ∧ sid.isSome ∧ ms ≤ 100 * s.cfg DAB_AF_TIME.CONF_DWELL then
        let again := s.recallPut s.dab.recalled f.kfc
        let s : State := { s with dab := { s.dab with confirm := none, recalled := again } }
        let s := (s.put DAB_STAT.AF_CONFIRM 0).putBit DAB_STAT.FOLLOWING s.offHome
        let s := if linked then ({ s with dab := { s.dab with linkSid := sid } } : State).put32 DAB_SID_L.w (sid.getD 0) else s
        let s := (s.setDabAf s.dab.cands).resolve
        let s := (s.raise1 jAF_SWITCH).inc DAB_AF_CNT_SW.w
        (s.followEvent 1 f.cause f.home f.kfc (s.get DAB_EID.w) (s.get FES_RSSI.w)).startSub
      else s
    | none => s)

/-- `DAB_AF_RETURN` (R330). -/
def execDabAfReturn (s : State) : Host.Outcome State Fault Refusal :=
  .next (match s.dab.confirm with
    | some f =>
      let cause := if s.get FES_STAT.JOB = 7 then 3 else if s.bit DAB_STAT.SYNC then 1 else 2
      let till := s.sec + s.cfg DAB_AF_BAN.w
      let l := s.dab.cands.map (fun c => if dabKfc c.freq = f.kfc then { c with banned := true, banEnd := till } else c)
      let s : State := { s with dab := { s.dab with confirm := none } }
      let s := (s.dabRestart.put DAB_STAT.AF_CONFIRM 0).retune f.home
      ((s.setDabAf l).inc DAB_AF_CNT_RET.w).followEvent 2 cause f.kfc f.home f.eid f.rssi
    | none => s)

/-- The planned end abandons a confirmation (Table 14.6). -/
def State.dabPlannedEnd (s : State) : State :=
  match s.dab.confirm with
  | some f =>
    let s : State := { s with dab := { s.dab with confirm := none } }
    (s.put DAB_STAT.AF_CONFIRM 0).followEvent 2 4 f.kfc f.home f.eid f.rssi
  | none => s

/-- `DAB_AF_PERIODIC_CHECK` (R330). -/
def execDabAfPeriodicCheck (rssi : Option Int) (s : State) : Host.Outcome State Fault Refusal :=
  .next (
    let l := s.dabCands
    match l[s.dab.turn % l.length]? with
    | some c =>
      if s.onBearer 3 ∧ s.checks s.dab.confirm.isNone (!s.fibsBad && !s.weak 30 DAB_AF_CFG.SW_DBM) then
        let s : State := { s with dab := { s.dab with turn := s.dab.turn + 1 } }
        (s.measured [(dabKfc c.freq, rssi)]).dabRssi (heard [(c, rssi)])
      else s
    | none => s)

/-- `DAB_AF_RECALL` (R331). -/
def execDabAfRecall (s : State) : Host.Outcome State Fault Refusal :=
  .next (if s.onBearer 3 ∧ s.cfg DAB_AF_CTL.RECALL = 1 ∧ s.fe.rx.any (fun r => !r.stopped) ∧ s.follows 31 ∧ ¬ s.bit DAB_STAT.SYNC ∧ ¬ s.offHome ∧
      s.dab.confirm.isNone ∧ ¬ s.dab.recallTried then
    match s.recallGet s.dab.recalled with
    | some kfc => ({ s with dab := { s.dab with recallTried := true } } : State).dabTry kfc 3
    | none => s
  else s)

/-- `DAB_AF_BAN_END`: the `DAB_AF_BAN` seconds of a ban have passed (R330). -/
def execDabAfBanEnd (freq : Nat) (s : State) : Host.Outcome State Fault Refusal :=
  .next (s.setDabAf (s.dab.cands.map (fun c => if c.freq = freq ∧ c.banEnd ≤ s.sec then { c with banned := false } else c)))

/-! ### Frequency and Pika (R335, R337) -/

/-- `DAB_FREQ_MEASURE`: a second of continuous synchronisation has passed since it began, or since the last measurement
(R335). -/
def execDabFreqMeasure (err : Int) (sd : Nat) (s : State) : Host.Outcome State Fault Refusal :=
  .next (if s.bit DAB_STAT.SYNC ∧ s.dab.syncAt + 32768 ≤ s.aon then
    let s : State := { s with dab := { s.dab with syncAt := s.aon } }
    ((s.put DAB_FERR.w (satCode err)).putSat DAB_FERR_SD.w sd).xoMeasure err sd
  else s)

/-- `DAB_PIKA_TIMEOUT` (R337). -/
def execDabPikaTimeout (s : State) : Host.Outcome State Fault Refusal :=
  .next (if s.onBearer 3 then (s.inc DAB_CNT_DSP.w).noteFault else s)

end Sys2Proof.Machine
end

