-- ==== Sys2Proof/Machine/Plans.lean ====
section
/-! DEFINITION. Plans (spec 11): the draft, admission and re-admission, occurrences, LISTEN, and the captures that plans
and CAPTURE_NOW ask for, with the spill at a capture's end (spec 19). -/

namespace Sys2Proof.Machine

open R

/-! ### What the registers show -/

/-- The plan registers follow the drafts, the plans and the admission queue. -/
def State.showPlans (s : State) : State :=
  let one (s : State) (f : Fn) : State :=
    let p := s.plan f
    let s := s.fput f PLAN_STAT.BUSY (if s.sched.queue.contains f then 1 else 0)
    let s := s.fput f PLAN_STAT.COMMITTED (if p.plan = [] then 0 else 1)
    (s.fput f PLAN_COUNT.COMMITTED p.plan.length).fput f PLAN_COUNT.DRAFT p.draft.length
  let s := s.eachFn one allFns
  let s := s.put SCHED_STAT.WATCHES ((allFns.map (fun f => (s.plan f).plan.length)).sum)
  let s := s.putBit SCHED_STAT.BUSY (s.sched.queue ≠ [])
  (s.put SCHED_STAT.QUEUED (s.sched.queue.length - 1)).updMode

/-- A watch's next nominal start from the present KTIME. -/
def State.nextNominal (s : State) (w : Watch) : Nat :=
  let p := recPeriod w.words * oneSec
  if p = 0 ∨ s.ktime ≤ w.start then w.start else w.start + (s.ktime - w.start + p - 1) / p * p

/-- The committed watches with an occurrence running or still to come. -/
def State.liveWatches (s : State) : List PWatch :=
  s.committed.filter (fun w => s.sched.running.any (fun r => r.fn == w.fn && r.idx == w.idx) ||
    (match s.watchOf w.fn w.idx with | some x => x.future s.ktime | none => false))

/-- The timeline as placed, with spans. -/
def State.kept (s : State) : List Placed :=
  s.sched.timeline.filterMap (fun o => (s.watchOf o.fn o.idx).map (fun w =>
    let (lo, hi) := s.spanOf w.words o.start
    ⟨⟨o.fn, o.idx, w.words, w.start⟩, o.nominal, o.start, lo, hi⟩))

/-- The use figures formed again from the placement that is kept (R262). -/
def State.refigure (s : State) : State :=
  let c := s.sched.cycle * oneSec
  let l := s.kept
  if c = 0 then s.showUse [] (86400 * oneSec)
  else s.showUse (s.costs (s.reservoir s.ktime c none l).1 l s.ktime c) c

/-- A change of the committed plans waits for the snapshot, which its charge counts to F0 (R255). -/
def State.plansChanged (s : State) : State := { s with sched := { s.sched with dirty := true } }

/-! ### Ending occurrences -/

/-- Some other occurrence of `f` keeps a capture of its own running. -/
def State.ownsCapture (s : State) (f : Fn) : Bool := s.runs.any (fun rw => rw.1.fn == f && recKind rw.2.words == kCAPT)

/-- The captures of plans lose the owners whose occurrences have ended; one without an owner ends. -/
def State.captFollow (s : State) : State :=
  let keep (j : Job) : Job := if j.now then j else { j with owners := j.owners.filter s.ownsCapture }
  let s : State := { s with capt := { s.capt with due := (s.capt.due.map keep).filter (fun j => j.owners ≠ []) } }
  match s.capt.job with
  | some j =>
    if (keep j).owners = [] then s.captEnd 0
    else ({ s with capt := { s.capt with job := some (keep j) } } : State).putBit CAPT_STAT.SHARED (1 < (keep j).owners.length)
  | none => s

/-- What the tuner serves follows the occurrences and LISTENs: packet addresses, the sub-channel and the ODA AID. -/
def State.rxFollow (s : State) : State :=
  match s.fe.rx with
  | some r =>
    let runs := (s.tunerRuns.map (fun rw => rw.2.words)).filter (fun w => recSub w != 0x40)
    let lis := (s.liveListens.map Prod.snd).filter (fun l => l.sub != 0x40)
    let addrs := if s.dab.resolved ∧ r.kfc ≠ r.home then r.addrs else (runs.map (fun w => recWord w 15 % 1024) ++ lis.map Listen.addr).eraseDups
    let sub := (runs.map recSub ++ lis.map Listen.sub).headD r.sub
    ({ s with fe := { s.fe with rx := some { r with addrs := addrs, sub := if r.sub = 0x40 then sub else r.sub } } } : State).showAid
  | none => s

/-- PRE-CHARGE is wanted: a slot runs, or the next one lies within t_pre, or I_eff gives no time (R44, R45). -/
def State.wantsCharge (s : State) : Bool :=
  s.sched.running != [] ||
  (match s.nextStart with
   | some t => (match s.tPre with | some p => decide (t ≤ s.ktime + unitsUp p) | none => true)
   | none => false)

/-- PRE-CHARGE goes on: it is wanted still, or the slot it serves has yet to start (R44, R45). -/
def State.preHeld (s : State) : Bool := s.wantsCharge || (s.pwr.preFor.isSome && s.nextStart == s.pwr.preFor)

/-- After the slot that PRE-CHARGE served, the charger goes back to IDLE-HOLD unless the next one lies within t_pre (R44,
R45). -/
def State.chgFollow (s : State) : State :=
  if s.get PWR_STAT.CHG_STATE = 2 ∧ ¬ s.preHeld then
    let s := s.chgState 1
    if s.idleMv ≤ s.get VRES_MEAS.w then s.chargeOff else s
  else s

/-- Once occurrences have ended, receptions and captures that nothing uses end too. -/
def State.settle (s : State) : State := s.captFollow.tunerFollow.rxFollow.showActs.chgFollow

/-! ### Withdrawal (R254, R266) -/

/-- A function's committed plan is taken out: its occurrences end, the other plans keep their placement. -/
def State.dropPlan (s : State) (f : Fn) : State :=
  let s := s.dropRuns (fun rw => rw.1.fn == f)
  let s := s.setPlan f { s.plan f with plan := [] }
  let s : State := { s with sched := { s.sched with timeline := s.sched.timeline.filter (fun o => o.fn != f) } }
  s.settle.refigure.plansChanged.showPlans

/-- A WITHDRAWN record for a watch (Table 11.9). -/
def State.withdrawn (s : State) (f : Fn) (cause : Nat) (w : Watch) : State :=
  s.planEvent f 4 cause (recId w.words) (s.nextNominal w / oneSec)

/-- A withdrawal with a record for every watch. -/
def State.withdrawAll (s : State) (f : Fn) (cause : Nat) : State :=
  ((s.plan f).plan.foldl (fun s w => s.withdrawn f cause w) s).dropPlan f

/-- `PLAN_RESULT` and `PLAN_FAILW` take a result (R263). -/
def State.planResult (s : State) (f : Fn) (reason detail : Nat) (w : Option (Fn × Nat)) : State :=
  let s := (s.fput f PLAN_RESULT.REASON reason).fput f PLAN_RESULT.DETAIL detail
  match w with
  | some (g, i) => s.fput f PLAN_FAILW.w (0x8000 + 0x100 * g.toNat + i % 16)
  | none => s.fput f PLAN_FAILW.w 0

/-- The host withdraws a plan: at once, with reason OK (R254). -/
def State.hostWithdraw (s : State) (f : Fn) : State :=
  ((s.withdrawAll f 0).planResult f 0 0 none).raise0 f iPLAN_DONE

/-! ### Drafting (R252, R269) -/

/-- A standby or undecided unit ignores plan commands; a running admission keeps the draft (R448, R269). -/
def State.planGuard (s : State) (f : Fn) (act : State) : State :=
  if ¬ s.runsPlans then s.setErr f eMODE
  else if s.fget f PLAN_STAT.BUSY = 1 then s.setErr f eBUSY
  else act

/-- BEGIN. -/
def State.planBegin (s : State) (f : Fn) : State :=
  s.planGuard f (
    let s := s.setPlan f { s.plan f with draft := [] }
    let s := ((s.fput f PLAN_WIDX.INDEX 0).fput f PLAN_STAT.DRAFT_OPEN 1).fput f PLAN_STAT.FULL 0
    s.showPlans)

/-- The record window of a function. -/
def State.window (s : State) (f : Fn) : List Word := (List.range 16).map (fun i => s.reg ((WREC.w i).on f.toNat).key)

/-- Places a record at a draft position; positions before it that were never written hold zeros. -/
def putDraft (d : List (List Word)) (i : Nat) (r : List Word) : List (List Word) :=
  (d ++ List.replicate (i + 1 - d.length) (List.replicate 16 (0 : Word))).set i r

/-- A write of `WREC15`. -/
def State.wrec15 (s : State) (f : Fn) (v : Word) : State :=
  if s.fget f PLAN_STAT.BUSY = 1 then s.setErr f eBUSY
  else
    let s := s.fput f (WREC.w 15) v.toNat
    if s.fget f PLAN_STAT.DRAFT_OPEN = 0 then s.setErr f eMODE
    else if s.fget f PLAN_STAT.FULL = 1 then s.setErr f eRES
    else
      let i := s.fget f PLAN_WIDX.INDEX
      let s := s.setPlan f { s.plan f with draft := putDraft (s.plan f).draft i (s.window f) }
      (if i = 15 then s.fput f PLAN_STAT.FULL 1 else s.fput f PLAN_WIDX.INDEX (i + 1)).showPlans

/-- Loads sixteen words into the record window. -/
def State.loadWindow (s : State) (f : Fn) (r : List Word) : State :=
  (List.range 16).foldl (fun s i => s.fput f (WREC.w i) (r.getD i 0).toNat) s

/-- A write of `PLAN_WIDX`. -/
def State.planWidx (s : State) (f : Fn) (v : Word) : State :=
  if s.fget f PLAN_STAT.BUSY = 1 then s.setErr f eBUSY
  else
    let i := v.toNat % 16
    let s := (s.fput f PLAN_WIDX.INDEX i).fput f PLAN_STAT.FULL 0
    s.loadWindow f ((s.plan f).draft.getD i [])

/-- SUBMIT: an empty draft withdraws the plan, any other waits for its admission; rest ends (R253, R254). -/
def State.planSubmit (s : State) (f : Fn) : State :=
  s.planGuard f (
    let s := s.serviceWake
    if (s.plan f).draft = [] then s.hostWithdraw f
    else ({ s with sched := { s.sched with
        queue := s.sched.queue ++ [f],
        admitAt := if s.sched.queue = [] then s.ktime else s.sched.admitAt } } : State).showPlans)

/-- The waiting or running admission of a function ends without a commit and without PLAN_DONE (Table 11.10); the next one in the
queue starts now. -/
def State.admitDrop (s : State) (f : Fn) : State :=
  if s.sched.queue.contains f then
    ({ s with sched := { s.sched with
      queue := s.sched.queue.filter (· ≠ f),
      admitAt := if s.sched.queue.head? = some f then s.ktime else s.sched.admitAt } } : State).showPlans
  else s

/-- WITHDRAW. -/
def State.planWithdraw (s : State) (f : Fn) : State := s.planGuard f (s.hostWithdraw f)

/-! ### Admission, stages 1 to 6 (R250, R251, R256) -/

/-- The first of some byte offsets whose byte is not 0. -/
def firstSet (w : List Word) (l : List Nat) : Option Nat := l.find? (fun i => recByte w i != 0)

/-- A KFC's bearer is one of a kind's bearers and its frequency lies in the range. -/
def kfcFits (kind kfc : Nat) : Bool :=
  kfcInRange kfc &&
  (match kind with
   | 1 => true
   | 2 => bearer kfc == 2
   | 3 => bearer kfc == 2 || bearer kfc == 3
   | 4 => bearer kfc == 3
   | 5 => bearer kfc == 2 || bearer kfc == 3
   | 7 => true
   | _ => false)

/-- The switch threshold of an AF_WATCH: 0 or 40 to 120. -/
def thrOk (n : Nat) : Bool := n == 0 || (40 ≤ n && n ≤ 120)

/-- Capture parameters fail FORMAT at this byte (R431). -/
def captParams (b26 b27 b30 : Nat) : Option Nat :=
  let chan := b26 / 16 % 4
  if 64 ≤ b26 ∨ b26 % 4 = 3 ∨ (b26 % 4 = 0 ∧ chan = 0) ∨ (b26 % 4 ≠ 0 ∧ chan ≠ 0) then some 26
  else if 8 ≤ b27 ∨ (b27 / 2 % 2 = 1 ∧ b27 % 2 = 0) then some 27
  else if 64 ≤ b30 then some 30 else none

/-- The first bad kind parameter (Table 11.2 and the bearer chapters). -/
def badParam (w : List Word) : Option Nat :=
  let b := recByte w
  let dab : Bool := bearer (recKfc w) == 3
  match recKind w with
  | 1 => if 32 ≤ b 26 then some 26 else firstSet w [27, 28, 29, 30, 31]
  | 2 => firstSet w [30, 31]
  | 3 =>
    let stream := recWord w 13
    if 0x1000 ≤ stream ∨ stream = 0 ∨ stream = 0xFFF then some 26
    else if dab then
      if 64 ≤ b 29 then some 29 else if recWord w 15 = 0 ∨ 1024 ≤ recWord w 15 then some 30 else none
    else firstSet w [29]
  | 4 => if firstSet w [26, 27, 28, 29, 30] = none then some 26 else if 2 ≤ b 31 then some 31 else none
  | 5 =>
    if dab then if ¬ thrOk (b 30) then some 30 else if 8 ≤ b 31 then some 31 else none
    else if ¬ thrOk (b 28) then some 28 else if 8 ≤ b 29 then some 29 else firstSet w [30, 31]
  | 6 => captParams (b 26) (b 27) (b 30)
  | _ => if b 28 = 0 ∨ 64 < b 28 then some 28 else firstSet w [29, 30, 31]

/-- A period is 0, a week, or a divisor of a day of at least 10 s. -/
def periodOk (p : Nat) : Bool := p == 0 || p == 604800 || (10 ≤ p && 86400 % p == 0)

/-- Stage 1: the byte offset of the first bad field of a record. -/
def State.badField (s : State) (w : List Word) : Option Nat :=
  let k := recKind w
  let lead := if k = kCAPT then s.captLead else s.acqLead (bearer (recKfc w))
  if k = 0 ∨ 7 < k then some 0
  else if 32 ≤ recByte w 1 then some 1
  else if (k = kCAPT ∧ recKfc w ≠ 0) ∨ (k ≠ kCAPT ∧ ¬ kfcFits k (recKfc w)) then some 4
  else if recByte w 15 ≠ 0 then some 12
  else if ¬ periodOk (recPeriod w) then some 16
  else if recDur w = 0 ∨ (recPeriod w ≠ 0 ∧ recPeriod w * oneSec ≤ recDur w * oneSec / 10 + lead) then some 20
  else if k = kCAPT ∧ recSlack w ≠ 0 then some 22
  else badParam w

/-- The page of a bearer: LFT, FMR or DAB. -/
def bearerPage (b : Nat) : Nat := keyPage (match b with | 1 => LFT_STAT.w.key | 2 => FMR_STAT.w.key | _ => DAB_STAT.w.key)

/-- The priority ceiling of a function. -/
def State.ceiling (s : State) (f : Fn) : Nat := s.get PART_PRIO.CEIL / 4 ^ f.toNat % 4

/-- Stage 3: a missing grant (1) or a class above the ceiling (2). -/
def State.grantFail (s : State) (f : Fn) (w : List Word) : Option Nat :=
  let page (k : Nat) : Nat := s.grant f k
  let ok : Bool :=
    if recKind w = kCAPT then page (keyPage CAPT_STAT.w.key) == 2
    else 1 ≤ page (bearerPage (bearer (recKfc w))) &&
      (recKind w != kEDF || 1 ≤ page (keyPage EDF_STAT.w.key)) &&
      (recKind w != kTIME || 1 ≤ page (keyPage TIME_STAT.w.key))
  if ¬ ok then some 1 else if s.ceiling f < recClass w then some 2 else none

/-- Hoard reserve of a watch in KiB. -/
def reserveOf (w : List Word) : Nat := if recKind w = kEDF then 4 * recByte w 28 else 0

/-- The first stage among 1 to 6 that fails: reason, detail and index. -/
def State.earlyFail (s : State) (f : Fn) (d : List (List Word)) : Option (Nat × Nat × Nat) :=
  let others := ((allFns.filter (· ≠ f)).map (fun g => (s.plan g).plan.length)).sum
  let l := d.zipIdx
  let pick (reason : Nat) (g : List Word → Nat → Option Nat) : Option (Nat × Nat × Nat) :=
    l.findSome? (fun e => (g e.1 e.2).map (fun x => (reason, x, e.2)))
  (pick 9 (fun w _ => s.badField w)).orElse fun _ =>
  (pick 0xB (fun _ i => if 16 < i + 1 then some 1 else if 32 < others + i + 1 then some 2 else none)).orElse fun _ =>
  (pick 8 (fun w _ => s.grantFail f w)).orElse fun _ =>
  (pick 7 (fun w _ => if s.variantFL ∧ recKind w ≠ kCAPT ∧ bearer (recKfc w) = 3 then some 0 else none)).orElse fun _ =>
  (pick 0xC (fun w _ => if needsPika w ∧ ¬ s.pikaUsable then some 0 else none)).orElse fun _ =>
  pick 0xA (fun _ i => if s.get (PART_QH_F.w f.toNat) < ((d.take (i + 1)).map reserveOf).sum then some 0 else none)

/-! ### Admission, stages 7 to 9 (R257 to R262) -/

/-- The nominal start of a draft watch: its start field, or admission plus the lead in whole seconds (Table 11.10). -/
def State.draftStart (s : State) (w : List Word) : Nat :=
  if recWord w 4 + 0x10000 * recWord w 5 = 0 then
    (s.ktime + unitsUp (s.firstLead w) + oneSec - 1) / oneSec * oneSec
  else recStart w

/-- The admission time: when the admission that runs has started (R257, R269). -/
def State.admitTime (s : State) : Nat := s.sched.admitAt

/-- The verdict of an admission: the refusal, or the placement with its costs and cycle. -/
inductive Verdict where
  | refused (reason detail : Nat) (fn : Fn) (idx : Nat)
  | passed (placed : List Placed) (costs : List (Placed × Nat × ℚ × ℚ)) (cycle : Nat)
  deriving DecidableEq, Repr

/-- The whole admission of a draft (R256). -/
def State.judge (s : State) (f : Fn) (d : List (List Word)) : Verdict :=
  match s.earlyFail f d with
  | some (r, x, i) => .refused r x f i
  | none =>
    let mine : List PWatch := d.mapIdx (fun i w => ⟨f, i, w, s.draftStart w⟩)
    let live := s.liveWatches.filter (fun w => w.fn ≠ f)
    let all := allFns.flatMap (fun g => if g = f then mine else live.filter (fun w => w.fn = g))
    let c := cycleOf all
    match s.placeAll c s.admitTime [] (byClass all) with
    | .inr (r, w) => .refused r 0 w.fn w.idx
    | .inl placed =>
      match s.reservoir s.admitTime c (some f) placed with
      | (_, some (x, w)) => .refused 5 x w.fn w.idx
      | (rs, none) =>
        let cs := s.costs rs placed s.admitTime c
        match s.energyFail cs c f all with
        | some (r, x, w) => .refused r x w.fn w.idx
        | none => .passed placed cs c

/-- The `n`-th element of a list that equals `a`, by its index. -/
def nthEqual {α : Type} [DecidableEq α] (a : α) : List α → Nat → Nat → Option Nat
  | [], _, _ => none
  | b :: l, n, i => if b = a then (if n = 0 then some i else nthEqual a l (n - 1) (i + 1)) else nthEqual a l n (i + 1)

/-- Where a watch of the old plan stands in a new one with a byte-identical record (R254). -/
def sameWatch (old new : List (List Word)) (i : Nat) : Option Nat :=
  match old[i]? with
  | some w => nthEqual w new ((old.take i).count w) 0
  | none => none

/-- An accepted draft replaces the plan: watches with byte-identical records keep their occurrences, the others' end. -/
def State.commit (s : State) (f : Fn) (d : List (List Word)) : State :=
  let old := (s.plan f).plan
  let at_ := sameWatch (old.map Watch.words) d
  let fresh : List Watch := d.map (fun w => ⟨w, s.draftStart w, none⟩)
  let new := (old.zipIdx).foldl (fun (l : List Watch) (e : Watch × Nat) =>
    match at_ e.2 with
    | some k => l.modify k (fun w => if w.start = e.1.start then { w with last := e.1.last } else w)
    | none => l) fresh
  let s := s.dropRuns (fun rw => rw.1.fn == f && (at_ rw.1.idx).isNone)
  let s : State := { s with sched := { s.sched with
    running := s.sched.running.map (fun r => if r.fn = f then { r with idx := (at_ r.idx).getD r.idx } else r) } }
  let s := s.setPlan f { s.plan f with plan := new, draft := [] }
  (s.fput f PLAN_STAT.DRAFT_OPEN 0).fput f PLAN_STAT.FULL 0

/-- The timeline takes a placement. -/
def State.setTimeline (s : State) (l : List Placed) (c : Nat) : State :=
  { s with sched := { s.sched with timeline := l.map Placed.occ, cycle := c / oneSec } }

/-- The estimates that admission drew on (R266). -/
def State.noteEstimates (s : State) : State :=
  { s with sched := { s.sched with lastC := s.get RES_C_EST.w, lastLeak := s.get RES_LEAK_EST.w } }

/-- `ADMISSION_DONE`: the oldest waiting draft is admitted or refused (R253, R256). How long it took is open. -/
def execAdmissionDone (s : State) : Host.Outcome State Fault Refusal :=
  .next (match s.sched.queue with
    | f :: rest =>
      let d := (s.plan f).draft
      let v := s.judge f d
      let s : State := { s with sched := { s.sched with queue := rest, admitAt := s.ktime } }
      let (t, s) := s.fresh
      let s := (s.put SCHED_ADMIT_US.w (t.toNat % 20001)).noteEstimates
      let s := match v with
        | .refused r x g i => (s.planResult f r x (some (g, i))).inc SCHED_CNT_REFUSED.w
        | .passed l cs c =>
          let s := (((s.commit f d).setTimeline l c).settle.showUse cs c).plansChanged
          (s.planResult f 0 0 none).fput f PLAN_SEQ.w (s.fget f PLAN_SEQ.w + 1)
      s.showPlans.raise0 f iPLAN_DONE
    | [] => s)

/-- `PLAN_SNAPSHOT_WRITE`: the committed plans are written to CONFIG, and with them the CORE registers that R108 takes from the
snapshot; the charge is F0's (R255). -/
def execPlanSnapshotWrite (s : State) : Host.Outcome State Fault Refusal :=
  .next (if s.sched.dirty ∧ s.flashFree then
    let snap := allFns.map (fun f => (s.plan f).plan.map Watch.words)
    let core := s.regs.filter (fun e => !isAon e.1)
    ({ s with sched := { s.sched with dirty := false, snapshot := snap, snapRegs := core } } : State).chargeOpen .f0
  else s)

/-! ### Re-admission (R266) -/

/-- Withdraws the plan that owns the reported watch, with its one WITHDRAWN record. -/
def State.readmitFail (s : State) (r : Nat) (w : PWatch) : State :=
  let s := match s.watchOf w.fn w.idx with | some x => s.withdrawn w.fn r x | none => s
  (s.dropPlan w.fn).raise0 w.fn iPLAN_DONE

/-- Places and simulates the committed plans again; a failing plan is withdrawn and the rest tried once more. -/
def State.readmit (s : State) : Nat → State
  | 0 => s
  | n + 1 =>
    let ws := s.liveWatches
    let c := cycleOf ws
    match s.placeAll c s.ktime [] (byClass ws) with
    | .inr (r, w) => (s.readmitFail r w).readmit n
    | .inl l =>
      match s.reservoir s.ktime c none l with
      | (_, some (_, w)) => (s.readmitFail 5 w).readmit n
      | (rs, none) => (((s.setTimeline l c).noteEstimates).showUse (s.costs rs l s.ktime c) c).showPlans

/-- `READMISSION`: the committed plans are admitted again once a trigger has come (R266). -/
def execReadmission (s : State) : Host.Outcome State Fault Refusal :=
  .next (if s.sched.readmit then ({ s with sched := { s.sched with readmit := false } } : State).readmit 5 else s)

/-- `DAY_START`: the counters restart, a0 is recorded every 30th day, and re-admission falls due (R261, R266, R363). -/
def execDayStart (s : State) : Host.Outcome State Fault Refusal :=
  .next (if (s.sec + 86400 - 60 * s.get SCHED_DAY_OFS.w % 86400) % 86400 = 0 then
    let s := s.account
    let s := s.eachFn (fun s f => (s.setEng f { s.eng f with dayE := 0, dayT := 0 }).showDay f) allFns
    let s : State := { s with sched := { s.sched with devE := 0 } }
    (s.put SCHED_DEV_USE.w 0).agingRecord.wantReadmit
  else s)

/-! ### Occurrences (R264, R267, R269, R270) -/

/-- The placed occurrence of a watch that is due now: nominal start, start and end. -/
def State.dueOcc (s : State) (f : Fn) (idx : Nat) : Option (Watch × Nat × Nat × Nat) :=
  match s.watchOf f idx with
  | some w =>
    let c := s.sched.cycle * oneSec
    let turn (o : Occ) : Nat := if recPeriod w.words = 0 ∨ c = 0 then 0 else (s.ktime + s.captLead - o.start) / c * c
    let early := if recKind w.words = kCAPT then s.captLead else 0
    let l := (s.sched.timeline.filter (fun o => o.fn = f ∧ o.idx = idx)).filterMap (fun o =>
      let (n, a, b) := (o.nominal + turn o, o.start + turn o, o.stop + turn o)
      let last := n + (recSlack w.words + 1) * oneSec
      if a ≤ s.ktime + early ∧ s.ktime < max b last ∧ w.start ≤ n ∧ w.last.all (fun x => decide (x < n)) then some (w, n, a, b) else none)
    leastBy (fun e => e.2.1) l
  | none => none

/-- The highest class among the LISTENs on the tuner. -/
def State.listenClass (s : State) : Nat := (s.liveListens.map (fun e => e.2.cls)).foldl max 0

/-- A watch, or a LISTEN without EXCL, may join the present reception. -/
def State.joins (s : State) (kfc sub : Nat) (excl : Bool) : Bool :=
  match s.fe.rx with
  | some r => r.home == kfc && !excl && !s.tunerRuns.any (fun rw => recFlag rw.2.words 2) &&
      (sub == 0x40 || r.sub == 0x40 || r.sub == sub)
  | none => false

/-- An occurrence joins what runs: its record of the run is kept. -/
def State.addRun (s : State) (r : Run) : State :=
  let s := s.account
  { s with sched := { s.sched with running := s.sched.running ++ [r] } }

/-- An EDF_STREAM watch starts on the reception (R397). -/
def State.carry (s : State) (f : Fn) (w : List Word) : State :=
  if recKind w = kEDF then { s with edf := { s.edf with carried := s.edf.carried ++ [(f, recWord w 13 % 0x1000)] } } else s

/-- A planned reception starts, joins, pauses LISTENs of a lower class, or is missed (Table 11.7). -/
def State.startRx (s : State) (r : Run) (w : Watch) : State :=
  let k := recKfc w.words
  let go (s : State) : State := ((s.addRun r).carry r.fn w.words).rxFollow.showActs
  if s.bit FES_STAT.HOLD then s.missed r.fn w r.nominal 5
  else if s.joins k (recSub w.words) (recFlag w.words 2) then go s
  else if s.fe.rx.isNone then go (s.rxStart k (recSub w.words) [])
  else if s.tunerRuns = [] ∧ s.listenClass < recClass w.words then
    let s := (s.eachFn State.pauseListen allFns).rxStop
    go (s.rxStart k (recSub w.words) [])
  else s.missed r.fn w r.nominal 1

/-- A planned capture starts, shares a capture, ends a CAPTURE_NOW, or is missed (R442, Table 19.8). -/
def State.startCapt (s : State) (r : Run) (w : Watch) (start : Nat) : State :=
  let b := recByte w.words
  let s := if s.capt.job.any Job.now then s.captEnd 0x80 else s
  let j : Job := ⟨[r.fn], false, b 26, b 27, b 30, b 31, recWord w.words 14, start, (recDur w.words * oneSec + 9) / 10, 0⟩
  let same (x : Job) : Bool := !x.now && x.start == start && x.b26 == b 26 && x.b27 == b 27 && x.b30 == b 30 && x.b31 == b 31
  let join (x : Job) : Job :=
    { x with owners := (x.owners ++ [r.fn]).eraseDups, dur := max x.dur j.dur, sensor := max x.sensor j.sensor }
  if s.capt.job.any same then
    let s := s.account
    let s : State := { s with capt := { s.capt with job := s.capt.job.map join } }
    (s.putBit CAPT_STAT.SHARED (s.capt.job.any (fun x => 1 < x.owners.length))).addRun r
  else if s.capt.due.any same then
    let due := s.capt.due.map (fun x => if same x then join x else x)
    ({ s with capt := { s.capt with due := due } } : State).addRun r
  else if s.capt.job.isSome then s.missed r.fn w r.nominal 1
  else ({ s with capt := { s.capt with due := s.capt.due ++ [j] } } : State).addRun r

/-- Work that needs XO tries to start it again after a failure (R84). -/
def State.demandXo (s : State) : State := if s.bit CLK_STAT.XO_OK ∨ s.mode.xoTry then s else s.xoStart

/-- The occurrence of a watch that Dormouse finds due, once Dormouse has been released (R68, R120). -/
def State.slotDue (s : State) (f : Fn) (idx : Nat) : Option (Watch × Nat × Nat × Nat) := if s.dormouse then s.dueOcc f idx else none

/-- A reception that falls due under raw hold waits for the end of the hold as long as its slack lasts (Table 12.8, log
entry 190). -/
def State.heldOff (s : State) (w : Watch) (nominal : Nat) : Bool :=
  s.bit FES_STAT.HOLD && recKind w.words != kCAPT && s.awake && s.runsPlans &&
    decide (s.ktime < nominal + recSlack w.words * oneSec)

/-- `SLOT_START`: a planned occurrence falls due (R20, R24, R63, R84, R264, R269). One that starts late runs for its length. -/
def execSlotStart (f : Fn) (idx : Nat) (s : State) : Host.Outcome State Fault Refusal :=
  .next (match s.slotDue f idx with
    | some (w, nominal, start, stop) =>
      if s.heldOff w nominal then s
      else
      let p := s.plan f
      let s := s.setPlan f { p with plan := p.plan.set idx { w with last := some nominal } }
      if ¬ s.runsPlans then s.missed f w nominal 7
      else
        let s := if s.get VRES_MEAS.w + 100 < s.tgtMv then s.raise1 jRESERVOIR_LOW else s
        if ¬ s.awake then s.missed f w nominal 4
        else
        let s := s.demandXo
        let r : Run := ⟨f, idx, nominal, stop + (if recKind w.words = kCAPT then 0 else s.ktime - start), false⟩
        if recKind w.words = kCAPT then s.startCapt r w start else s.startRx r w
    | none => s)

/-- An occurrence may end: its planned end has come, or a TIME watch has reached its target code (R251). -/
def State.ends (s : State) (r : Run) (w : Watch) : Bool :=
  decide (r.stop ≤ s.ktime) ||
    (recKind w.words == kTIME && recByte w.words 26 % 32 != 0 && decide (codeOf s.time.whole ≤ recByte w.words 26 % 32))

/-- `SLOT_END`: an occurrence ends, and its use is counted (R112, R261, R283). -/
def execSlotEnd (f : Fn) (idx : Nat) (s : State) : Host.Outcome State Fault Refusal :=
  .next (match s.runs.find? (fun rw => rw.1.fn == f && rw.1.idx == idx) with
    | some (r, w) =>
      if s.ends r w then
        let lone := s.tunerRuns.all (fun rw => rw.1 == r) && s.liveListens == []
        let s := if lone ∧ recKind w.words ≠ kCAPT then s.fmPlannedEnd.dabPlannedEnd else s
        let s := (s.dropRuns (fun rw => rw.1 == r)).settle
        if r.raw then s.missed f w r.nominal 5
        else if recFlag w.words 3 then s.planEvent f 1 0 (recId w.words) (r.nominal / oneSec)
        else s
      else s
    | none => s)

/-! ### LISTEN (R264, R265) -/

/-- Modelled current of a bearer in µA (Table 11.5). -/
def State.bearerUa (s : State) (b : Nat) : Nat :=
  match b with
  | 1 => s.get SCHED_I_LF.w
  | 2 => s.get SCHED_I_FM.w
  | _ => s.get SCHED_I_DAB.w

/-- M × I_A × duration fits what remains of the function's quotas and of the daily budget (R265). -/
def State.quotaLeft (s : State) (f : Fn) (ua secs : Nat) : Bool :=
  let e : ℚ := (s.get SCHED_MARGIN.w : ℚ) / 100 * ua * secs / 3600
  let g := s.eng f
  (s.quotaE f == 0xFFFF || decide (e ≤ (s.quotaE f : ℚ) - (g.dayE : ℚ) / 1000)) &&
  (s.quotaT f == 0xFFFF || decide ((secs : ℚ) ≤ (s.quotaT f : ℚ) - (g.dayT : ℚ) / 1000)) &&
  (s.get BUDGET_UAH_DAY.w == 0xFFFF || decide (e ≤ (s.get BUDGET_UAH_DAY.w : ℚ) - (s.sched.devE : ℚ) / 1000))

/-- The longest time in seconds a load runs from the present `VRES` before V_end; none where it never reaches it. -/
def State.longest (s : State) (amps : ℚ) : Option ℚ :=
  let slope := (amps * 3.3 / s.vEnd amps - s.iEff + s.iLeak) / s.cEst
  let room := (s.get VRES_MEAS.w : ℚ) / 1000 - s.vEnd amps
  if room < 0 then some 0 else if slope ≤ 0 then none else some (room / slope)

/-- The load carries for `secs` seconds. -/
def State.carries (s : State) (amps secs : ℚ) : Bool :=
  match s.longest amps with | some t => decide (secs ≤ t) | none => true

/-- What is wrong with the arguments of LISTEN_START, as an error code; 0 nothing. -/
def State.listenError (s : State) (f : Fn) (kfc secs w3 w4 : Nat) : Nat :=
  let b := bearer kfc
  if ¬ s.runsPlans then eMODE
  else if ¬ kfcInRange kfc ∨ secs = 0 ∨ 4 ≤ w3 ∨ (b ≠ 3 ∧ w4 ≠ 0) ∨ (s.variantFL ∧ b = 3) then eBADARG
  else if s.ceiling f < w3 ∨ s.grant f (bearerPage b) = 0 then eGRANT
  else if b = 3 ∧ ¬ s.pikaUsable then eNODSP
  else if (s.plan f).listen.isSome then eBUSY
  else if ¬ s.quotaLeft f (s.bearerUa b) secs then eQUOTA
  else 0

/-- An accepted LISTEN starts alone or shares the reception. -/
def State.listenOn (s : State) (f : Fn) (l : Listen) (shared : Bool) : State :=
  let s := s.setListen f (some l)
  let s := if shared ∨ l.paused then s else s.rxStart l.kfc l.sub []
  let s := if l.paused then s.listenEvent f 5 0 else s
  (s.rxFollow.showActs).outcome f 0 [if shared then 1 else 0]

/-- The current of a capture that runs, in amperes, and the seconds it still takes (Table 11.5). -/
def State.captAmps (s : State) : ℚ :=
  match s.capt.job with | some j => ((s.get SCHED_I_CAPT.w + 10 * j.sensor : Nat) : ℚ) / 1000000 | none => 0
def State.captLeft (s : State) : ℚ := match s.capt.job with | some j => toSecs (j.start + j.dur - s.ktime) | none => 0

/-- `LISTEN_START` (R265, Table 11.7): the reservoir test runs with every current of the burst it joins (R259). -/
def execListenStart (f : Fn) (s : State) : Host.Outcome State Fault Refusal :=
  .next (s.withOp f 0xB (fun a =>
    let s := s.account.demandXo
    let kfc := arg a 0 + 0x10000 * arg a 1
    let secs := arg a 2
    let dab : Bool := bearer kfc == 3
    let sub := if dab ∧ 64 ≤ arg a 4 then arg a 4 % 64 else 0x40
    let amps : ℚ := (s.bearerUa (bearer kfc) : ℚ) / 1000000 + s.captAmps
    let l : Listen := ⟨kfc, secs, arg a 3 % 4, sub, arg a 4 / 64, false⟩
    let e := s.listenError f kfc secs (arg a 3) (arg a 4)
    if e ≠ 0 then s.outcome f e []
    else if ¬ s.carries amps (max secs s.captLeft) then
      s.outcome f eRES [0, BitVec.ofNat 16 (min 0xFFFF ((⌊(s.longest amps).getD 0⌋).toNat))]
    else if s.bit FES_STAT.HOLD then s.listenOn f { l with paused := true } false
    else if s.joins kfc sub false then s.listenOn f l true
    else if allFns.any (fun g => (s.plan g).listen.any (fun x => x.kfc != kfc)) then s.outcome f eBUSY []
    else if s.fe.rx.isNone then
      match allFns.findSome? (fun g => (s.plan g).listen) with
      | some _ => s.listenOn f { l with paused := true } true
      | none => s.listenOn f l false
    else if s.liveListens = [] ∧ s.tunerRuns.all (fun rw => decide (recClass rw.2.words < l.cls)) then
      let s := (s.missRuns (fun rw => recKind rw.2.words != kCAPT) 1).rxStop
      s.listenOn f l false
    else s.outcome f eBUSY []))

/-- `LISTEN_STOP`: the op ends the function's listening (R265). -/
def execListenStop (f : Fn) (s : State) : Host.Outcome State Fault Refusal :=
  .next (s.withOp f 0xC (fun _ => (s.endListen f 0).settle.outcome f 0 []))

/-- `LISTEN_MAX_DURATION`: the maximum duration has passed (R265). -/
def execListenMaxDuration (f : Fn) (s : State) : Host.Outcome State Fault Refusal := .next (s.endListen f 1).settle

/-- `LISTEN_RESUMED`: the tuner is free again and its retune gap has passed (R264). -/
def execListenResumed (f : Fn) (s : State) : Host.Outcome State Fault Refusal :=
  .next (match (s.plan f).listen with
    | some l => if l.paused ∧ ¬ s.bit FES_STAT.HOLD ∧ (s.fe.rx.isNone ∨ s.joins l.kfc l.sub false) then
        (s.resumeListen f).rxFollow
      else s
    | none => s)

/-! ### CAPTURE_NOW and the spill (R440, R443) -/

/-- A LISTEN as a watch record, for the load table. -/
def Listen.words (l : Listen) : List Word :=
  let kind := if l.sub = 0x40 then kAF else kEDF
  [BitVec.ofNat 16 kind, 0, BitVec.ofNat 16 l.kfc, BitVec.ofNat 16 (l.kfc / 0x10000), 0, 0, 0, 0, 0, 0, 0, 0, 0, 0,
    BitVec.ofNat 16 (0x100 * (l.sub % 64)), BitVec.ofNat 16 l.addr]

/-- Everything on the tuner as watch records. -/
def State.tunerWords (s : State) : List (List Word) :=
  s.tunerRuns.map (fun rw => rw.2.words) ++ (s.liveListens.map (fun e => e.2.words))

/-- The DSP test and the reservoir test pass for a capture at this moment (R264). -/
def State.captFits (s : State) (analysis : Bool) (sensor dur : Nat) : Bool :=
  let rec0 : List Word := [BitVec.ofNat 16 kCAPT, 0, 0, 0, 0, 0, 0, 0, 0, 0, 0, 0, 0, if analysis then 0x100 else 0, 0, 0]
  let load := s.loadOf ((rec0 :: s.tunerWords).map (fun w => (w, 0)))
  let tuner : ℚ := (s.tunerWords.map s.actCurrent).foldl max 0
  let amps : ℚ := ((s.get SCHED_I_CAPT.w + 10 * sensor : Nat) : ℚ) / 1000000 + tuner
  (!analysis || decide (load ≤ s.get SCHED_DSP_MAX.w)) && s.carries amps (((dur : ℚ) / 10) + (s.get CAPT_LEAD.w : ℚ) / 1000)

/-- `CAPTURE_NOW`: a capture starts at GO plus `CAPT_LEAD`, or the op is refused (R443, Table 19.7). -/
def execCaptureNow (f : Fn) (s : State) : Host.Outcome State Fault Refusal :=
  .next (match (s.eng f).op with
    | some o => s.withOp f 8 (fun a =>
        let (b26, b27, b30, b31) := (arg a 0 % 0x100, arg a 0 / 0x100, arg a 3 % 0x100, arg a 3 / 0x100)
        let start := o.at_ + s.captLead
        if ¬ s.runsPlans then s.outcome f eMODE []
        else if captParams b26 b27 b30 ≠ none ∨ arg a 1 = 0 then s.outcome f eBADARG []
        else if s.capt.job.isSome ∨ s.capt.due ≠ [] then s.outcome f eBUSY []
        else if b27 % 2 = 1 ∧ ¬ s.pikaUsable then s.outcome f eNODSP []
        else if ¬ s.captFits (b27 % 2 == 1) (arg a 2) (arg a 1) then s.outcome f eRES []
        else
          let s := s.demandXo.captBegin ⟨[f], true, b26, b27, b30, b31, arg a 2, start, (arg a 1 * oneSec + 9) / 10, 0⟩ []
          s.outcome f 0 (s.reg CAPT_ID.w.key :: lowHigh (start % 2 ^ 32)))
    | none => s)

/-- The bytes of a block in the capture buffer. -/
def State.blkBytes (s : State) (b : BlkUse) : List Byte :=
  s.bytes (0x100000 + b.pos) (if b.pos = b.start then b.len else b.len - (0x20000 - b.start))

/-- The largest number of sectors, at most `n`, that the quota and the free space allow. -/
def State.spillSectors (s : State) (f : Fn) : Nat → Nat
  | 0 => 0
  | n + 1 =>
    if s.usage f + 4096 * (n + 1) ≤ 1024 * s.get (PART_QH_F.w f.toNat) ∧ s.freeRuns (n + 1) ≠ [] then n + 1
    else s.spillSectors f n

/-- Deletes the capture store of a function (R440). -/
def State.spillDel (s : State) (f : Fn) : State :=
  ({ s with capt := { s.capt with stores := s.capt.stores.filter (fun e => e.1 != f) } } : State).showEdf

/-- The blocks that stay in use once the first `n` bytes of them are in flash: whole blocks are released (R436). -/
def State.unspilled (s : State) (n : Nat) : List BlkUse → List BlkUse
  | [] => []
  | b :: l => if (s.blkBytes b).length ≤ n then s.unspilled (n - (s.blkBytes b).length) l else b :: l

/-- Writes the unreleased blocks into a new capture store of the owner, which releases them, with the SPILLED record. -/
def State.spillTo (s : State) (j : Job) (f : Fn) : State :=
  let s := s.spillDel f
  let all := (s.capt.used.flatMap s.blkBytes).take (1024 * s.get CAPT_SPILL_KIB.w)
  let want := (all.length + 4095) / 4096
  let n := s.spillSectors f want
  let data := all.take (4096 * n)
  let (a, s) := if n = 0 then (none, s) else s.pick (s.freeRuns n)
  let off := 0x210000 + 0x1000 * a.getD 0
  let s := (List.range n).foldl (fun s i => s.eraseSector (a.getD 0 + i)) s
  let s := s.setBytes (flashAddr off) data
  let s := if n = 0 then s else
    ({ s with capt := { s.capt with stores := s.capt.stores ++ [(f, off, kib data.length)] } } : State)
  let s := ({ s with capt := { s.capt with used := s.unspilled data.length s.capt.used } } : State).showRptr
  let s := s.captRec j 5 (if n < want then 0x20 else 0) (s.get32 CAPT_FIDX_L.w) (kib data.length)
    (if n = 0 then 0 else flashAddr off) s.tq s.stamp [] []
  (s.showEdf).chargeOpen f

/-- `SPILL`: the spill of the last capture runs once no staging writes flash (R440, Table 19.8). -/
def execSpill (s : State) : Host.Outcome State Fault Refusal :=
  .next (match s.capt.past with
    | some p =>
      if s.capt.spillDue ∧ ¬ s.img.staging then
        let s := s.spillTo p.job (p.job.owners.headD .f0)
        let s : State := { s with capt := { s.capt with spillDue := false } }
        (s.put CAPT_STAT.SPILLING 0).showMaintain
      else s
    | none => s)

end Sys2Proof.Machine
end

