-- ==== Sys2Proof/Machine/Health.lean ====
section
/-! DEFINITION. The health monitors, the life estimate, REPLACE and the self-test op (spec 21). Metrics are exact
rationals: ratios as such, voltages in mV, model errors in 0.001 ppm, charge in 0.1 µAh. -/

namespace Sys2Proof.Machine

open R

/-- The monitors' ids (Table 21.3). -/
def mCHARGE : Nat := 1
def mSAG : Nat := 2
def mCAP : Nat := 3
def mLEAK : Nat := 4
def mX32 : Nat := 5
def mXO : Nat := 6
def mVCO : Nat := 7
def mECC : Nat := 8
def mFLASH : Nat := 9
def mFAULTS : Nat := 10
def mPARTNER : Nat := 11
def mSELFTEST : Nat := 12
def mAGE : Nat := 13

/-- The state of a monitor. -/
def State.mon (s : State) (id : Nat) : Mon := s.hlt.mons.getD (id - 1) Mon.start

/-- Replaces the state of a monitor. -/
def State.setMon (s : State) (id : Nat) (m : Mon) : State := { s with hlt := { s.hlt with mons := s.hlt.mons.set (id - 1) m } }

/-- The functions that a HEALTH record goes to. -/
def State.hltFns (s : State) : List Fn := s.granted (keyPage HLT_STAT.w.key)

/-- A HEALTH record (R479); `mon` is the monitor it names, 0 for none. -/
def State.healthRec (s : State) (event cause mon : Nat) (bits : List Nat) : State :=
  let m := s.mon mon
  let months := if mon = 0 then 0 else m.months
  let metric := if mon = 0 then 0 else (m.metric % 0x100000000).toNat
  s.deliverAll 0x28
    ([BitVec.ofNat 16 (event * 0x100 + cause), BitVec.ofNat 16 (s.get HLT_LIFE.MONTHS * 0x100 + months)] ++ lowHigh metric)
    bits s.stamp s.hltFns

/-- HEALTH in F0 for a clock failure (R86). -/
def State.clockEvent (s : State) : State := s.raise0 .f0 iHEALTH

/-! ### Counts over 30 days -/

/-- The counts of the last 30 days together. -/
def State.sum30 (s : State) (l : List (Nat × Nat)) : Nat :=
  ((l.filter (fun e => decide (s.dayNo < e.1 + 30))).map Prod.snd).sum

/-- Days of the last 30 with a count. -/
def State.days30 (s : State) (l : List (Nat × Nat)) : Nat :=
  (l.filter (fun e => decide (s.dayNo < e.1 + 30 ∧ 0 < e.2))).length

/-- Seven days in a row, up to the last whole day, each have a count. -/
def State.week (s : State) (l : List (Nat × Nat)) : Bool :=
  (List.range 7).all (fun i => l.any (fun e => e.1 + i + 1 == s.dayNo && 0 < e.2))

/-- Counts since the last sample: what a daily metric shows. -/
def State.todays (s : State) (l : List (Nat × Nat)) : Nat :=
  ((l.filter (fun e => decide (s.hlt.day.getD 0 ≤ e.1))).map Prod.snd).sum

/-! ### Metrics and limits (R472, R474) -/

/-- Usable cell charge in 0.1 µAh. -/
def State.qAvail (s : State) : ℚ := (10000 * s.get HLT_CELL_MAH.w * s.get HLT_CELL_PCT.PCT : Nat) / 100

/-- Charge used by both units in 0.1 µAh (R474). -/
def State.qUsed (s : State) : ℚ :=
  let own : ℚ := (s.get32 LEDGER_L.w : ℚ)
  if s.get32 TWIN_PLEDGER_L.w ≠ 0 then own + s.get32 TWIN_PLEDGER_L.w
  else if s.bit TWIN_CFG.EN ∧ s.bit HLT_STAT.SVC_SET then
    own + (s.get SCHED_I_REST.w * (s.sec - s.get32 HLT_SVC_L.w) : Nat) / 360000
  else own

/-- Whole months since `HLT_SVC`, of 30.44 days. -/
def State.ageMonths (s : State) : Nat := (s.sec - s.get32 HLT_SVC_L.w) * 100 / (3044 * 86400)

/-- The metric of a monitor at this moment; none where the data it needs is missing. -/
def State.metricOf (s : State) (id : Nat) : Option ℚ :=
  match id with
  | 1 => some s.qUsed
  | 2 => s.hlt.lowVbat.map (fun v => (v : ℚ))
  | 3 => if s.get RES_C_INIT.w = 0 then none else some ((s.get RES_C_EST.w : ℚ) / s.get RES_C_INIT.w)
  | 4 => if s.get RES_LEAK_INIT.w = 0 then none else some ((s.get RES_LEAK_EST.w : ℚ) / s.get RES_LEAK_INIT.w)
  | 5 => if s.bit TIME_STAT.X32_MODEL_OK then some (Config.x32A0 s.time.x32Fed s.sec : ℚ) else none
  | 6 => if s.bit TIME_STAT.XO_MODEL_OK then some (Config.xoFit s.time.xoFed s.sec 200 : ℚ) else none
  | 7 => if s.fe.calRec.isSome then some (s.get CAL_VCO_MARGIN.w : ℚ) else none
  | 8 => some (s.todays s.hlt.ecc : ℚ)
  | 9 => some ((s.get EDF_WEAR_MAX.w : ℚ) / (1000 * s.get HLT_FLASH_KCYC.w))
  | 10 => some (s.todays s.hlt.faults : ℚ)
  | 13 => if s.bit HLT_STAT.SVC_SET then some (s.ageMonths : ℚ) else none
  | _ => none

/-- A metric as a record gives it: ratios × 1000, the rest in their own unit. -/
def recMetric (id : Nat) (q : ℚ) : Int := Config.round (if id = 3 ∨ id = 4 ∨ id = 9 then 1000 * q else q)

/-- The end limit of a trended monitor and whether it lies above; `v` picks the nearer end of a two-sided one. -/
def State.limitOf (s : State) (id : Nat) (v : ℚ) : Option (ℚ × Bool) :=
  match id with
  | 2 => some ((2000 + 10 * s.get VBAT_FLOOR.FLOOR : Nat), false)
  | 3 => some (7 / 10, false)
  | 4 => some (3, true)
  | 5 => some (if 0 ≤ v then (500000, true) else (-500000, false))
  | 6 => some (if 0 ≤ v then (40000, true) else (-40000, false))
  | 7 => some (50, false)
  | 9 => some (9 / 10, true)
  | _ => none

/-- Held to 0 to 253 months. -/
def clampMonths (q : ℚ) : Nat := (max 0 (min 253 ⌊q⌋)).toNat

/-- Least squares through points (month, value): fitted value at the latest one, and slope per month. -/
def fitLine (l : List (ℚ × ℚ)) : ℚ × ℚ :=
  let n : ℚ := (l.length : ℚ)
  let mx := (l.map Prod.fst).sum / n
  let my := (l.map Prod.snd).sum / n
  let sxx := (l.map (fun p => (p.1 - mx) ^ 2)).sum
  let sxy := (l.map (fun p => (p.1 - mx) * (p.2 - my))).sum
  let slope := sxy / sxx
  (my + slope * ((l.map Prod.fst).foldl max 0 - mx), slope)

/-- The points a trend uses: the last `FIT_MO`, with their months. -/
def State.fitPoints (s : State) (m : Mon) : List (ℚ × ℚ) :=
  (m.points.drop (m.points.length - s.get HLT_CFG.FIT_MO)).map (fun p => ((p.1 : ℚ) / 30, p.2))

/-- Months of a trend (R473); 0xFF while fewer than 3 points are held. -/
def State.trendMonths (s : State) (id : Nat) (m : Mon) : Nat :=
  let l := s.fitPoints m
  if l.length < 3 then 0xFF
  else
    let (v, slope) := fitLine l
    match s.limitOf id v with
    | some (limit, true) => if limit ≤ v then 0 else if slope ≤ 0 then 0xFE else clampMonths ((limit - v) / slope)
    | some (limit, false) => if v ≤ limit then 0 else if 0 ≤ slope then 0xFE else clampMonths ((limit - v) / slope)
    | none => 0xFF

/-- Months of CELL_CHARGE (R474). -/
def State.cellMonths (s : State) : Nat :=
  let d := s.dayNo
  let old := (s.hlt.used.filter (fun e => decide (e.1 + 30 ≤ d))).getLast?
  match old with
  | some (d0, q0) =>
    if s.get HLT_CELL_MAH.w = 0 then 0xFF
    else
      let rise := (s.qUsed - (q0 : ℚ)) / (d - d0 : Nat)
      if rise ≤ 0 then 0xFE else clampMonths ((s.qAvail - s.qUsed) / (3044 / 100 * rise))
  | none => 0xFF

/-- The immediate band of a monitor (Table 21.3). -/
def State.bandOf (s : State) (id : Nat) : Bool :=
  let h := s.hlt
  match id with
  | 1 => s.get HLT_CELL_MAH.w != 0 && decide (s.qAvail ≤ s.qUsed)
  | 2 => s.week h.sags
  | 3 => 2 ≤ s.sum30 h.resFaults
  | 4 => decide (s.iEff ≤ s.iLeak)
  | 5 => s.bit TIME_STAT.FALLBACK
  | 6 => 3 ≤ s.days30 h.xoFails
  | 7 => s.fe.calRec.isSome && s.get CAL_VCO_MARGIN.w ≤ 20
  | 8 => 64 ≤ s.sum30 h.ecc || 0 < s.sum30 h.eccBad
  | 9 => 8 ≤ s.sum30 h.flashErr
  | 10 => s.get HLT_FAULT_LIM.w ≤ s.sum30 h.faults
  | 11 => h.partner
  | 12 => h.selfBand
  | _ => s.bit HLT_STAT.SVC_SET && s.get HLT_DESIGN_MO.w ≤ s.ageMonths

/-- Months of a monitor: 0 in its immediate band, 0xFE for a band-only one outside it, 0xFF unknown. -/
def State.monthsOf (s : State) (id : Nat) : Nat :=
  if s.bandOf id then 0
  else match id with
    | 1 => s.cellMonths
    | 8 => 0xFE
    | 10 => 0xFE
    | 11 => 0xFE
    | 12 => 0xFE
    | 13 => if s.bit HLT_STAT.SVC_SET then min 253 (s.get HLT_DESIGN_MO.w - s.ageMonths) else 0xFF
    | _ => s.trendMonths id (s.mon id)

/-! ### Sampling (R471, R473) -/

/-- The number of the 30-day span a day lies in, counted from the day of `HLT_SVC`. -/
def State.spanOfDay (s : State) : Nat := (s.dayNo - (s.get32 HLT_SVC_L.w - 60 * s.get SCHED_DAY_OFS.w) / 86400) / 30

/-- A monitor takes its sample; `close` ends the span before it, which yields a point from 10 samples on. -/
def State.sampleMon (s : State) (close : Bool) (id : Nat) : State :=
  let m := s.mon id
  let m := if close then
      { m with span := [], points := if 10 ≤ m.span.length then
          (m.points ++ [(s.dayNo, m.span.sum / (m.span.length : ℚ))]).drop (m.points.length + 1 - 24) else m.points }
    else m
  match s.metricOf id with
  | some q => s.setMon id { m with span := m.span ++ [q], metric := recMetric id q }
  | none => s.setMon id { m with metric := 0 }

/-- Takes the standing conditions of the partner into its band (Table 21.3). -/
def State.partnerBand (s : State) : State :=
  let long (t : Option Nat) (n : Nat) : Bool := match t with | some t => decide (t + n ≤ s.sec) | none => false
  if long s.hlt.silentAt (7 * 86400) ∨ long s.hlt.stuckAt 86400 then { s with hlt := { s.hlt with partner := true } } else s

/-- Raises REPLACE (R476, R477). -/
def State.raiseReplace (s : State) (mon : Nat) : State :=
  let s := (s.put HLT_STAT.REPLACE 1).putAll FN_STATE.REPLACE 1
  ((s.raiseOthers iREPLACE s.hltFns).healthRec 3 mon mon [iREPLACE]).wantHost 2

/-- One monitor's register; a MONITOR record when it enters its band or its months first fall to 2 × `REPL_MO`. -/
def State.showMon (s : State) (id : Nat) : State :=
  let m := s.mon id
  let (b, n) := (s.bandOf id, s.monthsOf id)
  let edge := 2 * s.get HLT_CFG.REPL_MO
  let tell : Bool := (b && !m.band) || (decide (n ≤ edge) && decide (edge < m.months))
  let s := s.setMon id { m with band := b, months := n }
  let s := s.put (HLT_MON.MONTHS (id % 16)) n
  let s := (s.putBit (HLT_MON.BAND (id % 16)) b).putBit (HLT_MON.FITTED (id % 16))
    (3 ≤ (s.fitPoints m).length && (s.limitOf id 0).isSome)
  if tell then s.healthRec 2 id id [iHEALTH] else s

/-- The monitors' ids in order. -/
def monIds : List Nat := [1, 2, 3, 4, 5, 6, 7, 8, 9, 10, 11, 12, 13]

/-- The least months and the lowest monitor that gives them, unknown ones left out (R475). -/
def State.leastMonths (s : State) : Nat × Nat :=
  match leastBy s.monthsOf (monIds.filter (fun id => s.monthsOf id != 0xFF)) with
  | some id => (s.monthsOf id, id)
  | none => (0xFF, 0)

/-- Evaluates every monitor: `HLT_LIFE`, the MONITOR records and REPLACE (R475 to R477). -/
def State.evaluate (s : State) : State :=
  let (n, id) := s.leastMonths
  let s := (s.put HLT_LIFE.MONTHS n).put HLT_LIFE.MONITOR id
  let s := monIds.foldl State.showMon s
  let worn := decide (n ≤ s.get HLT_CFG.REPL_MO)
  let s := if worn ∨ s.bit HLT_STAT.REPLACE then s.put HLT_STAT.REASON id else s
  if worn ∧ ¬ s.bit HLT_STAT.REPLACE then s.raiseReplace id else s

/-- One sample of every monitor, its charge counted to F0; `CAL_TEMP` takes the die temperature, which is open here (R291, log entry 187). -/
def State.healthSample (s : State) : State :=
  let s := s.partnerBand
  let span := s.spanOfDay
  let s := monIds.foldl (fun s id => s.sampleMon (s.hlt.spanNo != span) id) s
  let used := (s.hlt.used.filter (fun e => decide (e.1 ≠ s.dayNo ∧ s.dayNo < e.1 + 40))) ++ [(s.dayNo, (Config.round s.qUsed).toNat)]
  let s : State := { s with hlt := { s.hlt with day := some s.dayNo, due := false, spanNo := span, lowVbat := none, used := used } }
  let (w, s) := s.fresh
  (s.put CAL_TEMP.w w.toNat).evaluate.chargeOpen .f0

/-- A sample is taken now, at the end of the activity that runs, or in a service wake; none while TQ reads code 31 (R471). -/
def State.wantSample (s : State) : State :=
  if codeOf s.time.whole = 31 then s
  else if s.get MODE.CUR = 0 then s
  else if s.awake ∧ ¬ s.active then s.healthSample
  else ({ s with hlt := { s.hlt with due := true } } : State).serviceWake

/-- `HEALTH_SAMPLE`: once for each day, or when one put off can be taken (R471). -/
def execHealthSample (s : State) : Host.Outcome State Fault Refusal :=
  .next (if s.hlt.due ∨ s.hlt.day.all (fun d => decide (d < s.dayNo)) then s.wantSample else s)

/-! ### Commands (R478, R482) -/

/-- Clears REPLACE unless the next evaluation, applied at once, keeps it (R478). -/
def State.replaceClr (s : State) (f : Fn) : State :=
  if f ≠ .f0 then s.setErr f eGRANT
  else if s.bit HLT_STAT.REPLACE then
    let s := s.evaluate
    if s.get HLT_LIFE.MONTHS ≤ s.get HLT_CFG.REPL_MO then s
    else ((s.put HLT_STAT.REPLACE 0).put HLT_STAT.REASON 0).putAll FN_STATE.REPLACE 0 |>.healthRec 4 0 0 []
  else s

/-- SVC_START sets `HLT_SVC` once, with good time, and zeroes the counters of R521 (R482). -/
def State.svcStart (s : State) (f : Fn) : State :=
  if f ≠ .f0 then s.setErr f eGRANT
  else if codeOf s.time.whole = 31 then s.setErr f eNRDY
  else if s.bit HLT_STAT.SVC_SET then s.setErr f eLOCKED
  else
    let s := (s.put32 HLT_SVC_L.w s.sec).put HLT_STAT.SVC_SET 1
    let s := ((s.put HLT_CNT_HB.w 0).put HLT_CNT_SYS.w 0).put HLT_CNT_ECC.w 0
    { s with hlt := { s.hlt with spanNo := 0, mons := s.hlt.mons.map (fun m => { m with span := [] }) } }

/-! ### Self-test (R481, Table 20.5) -/

/-- An own self-test result reaches the monitor SELFTEST. -/
def State.feedSelf (s : State) (mask : Nat) : State :=
  let twice := (s.hlt.ownPrev.getD 0 &&& mask) != 0
  { s with hlt := { s.hlt with ownPrev := some mask, selfBand := (twice || s.hlt.selfBand) && mask != 0 } }

/-- A partner's self-test result reaches the monitor PARTNER. -/
def State.feedPartner (s : State) (mask : Nat) : State :=
  let twice := (s.hlt.partnerPrev.getD 0 &&& mask) != 0
  { s with hlt := { s.hlt with partnerPrev := some mask, partner := s.hlt.partner || twice } }

/-- The checks of Table 20.5 that the state itself decides: trusted boot, XO and PLL, an LF check with no watch to test, and
the reservoir; `lf` says that there is such a watch, `volts` whether the last check passed. -/
def State.checkMask (s : State) (mask : Nat) (lf volts : Bool) : Nat :=
  (if s.bit BOOT_STAT.TRUSTED then 0 else 1) + (mask / 2 % 4) * 2 +
  (if s.bit CLK_STAT.XO_OK && s.bit CLK_STAT.PLL_LOCK then 0 else 8) + (mask / 16 % 2) * 16 +
  (if lf then mask / 32 % 2 else 0) * 32 + (mask / 64 % 2) * 64 + if volts then 0 else 128

/-- A bearer-1 TIME watch. -/
def lfWatch (w : List Word) : Bool := bearer (recKfc w) == 1 && recKind w == kTIME

/-- `SELFTEST`: the op, accepted at its GO, ends; `mask` gives the outcome of the checks that hardware decides (R481). -/
def execSelftest (f : Fn) (mask ms : Nat) (s : State) : Host.Outcome State Fault Refusal :=
  .next (s.withOp f 0xA (fun a =>
    let sel := if arg a 0 % 0x100 = 0 then 0xFF else arg a 0 % 0x100
    let lf := allFns.any (fun g => (s.plan g).plan.any (fun w => lfWatch w.words))
    let failed := s.checkMask mask lf s.hlt.volts &&& sel
    (((s.feedSelf failed).chargeOpen .f0).outcome f 0 [BitVec.ofNat 16 failed, BitVec.ofNat 16 ms]).showMaintain))

end Sys2Proof.Machine
end

