-- ==== Sys2Proof/Machine/Power.lean ====
section
/-! DEFINITION. The charger, the ledger, depassivation and the reservoir's estimates (spec 03). The set-point counts in
steps of 0.25 mA. -/

namespace Sys2Proof.Machine

open R

/-! ### Charger (R43, R44) -/

/-- BAT_SAG is set, which monitor 0x02 counts. -/
def State.raiseSag (s : State) : State :=
  ({ s with hlt := { s.hlt with sags := bump s.dayNo s.hlt.sags } } : State).raise1 jBAT_SAG

/-- One sample of the floor loop (R43). -/
def State.floorLoop (s : State) (vbat : Nat) : State :=
  let p := s.pwr
  let floor := 2000 + 10 * s.get VBAT_FLOOR.FLOOR
  let sp := min p.setPoint s.chgLimit
  let down : Bool := decide (vbat < floor)
  let up : Bool := !down && decide (floor + 10 * s.get VBAT_FLOOR.HYST ≤ vbat ∧ sp < s.chgLimit ∧ 15 ≤ p.sinceRise)
  let sp' := if down then sp - 1 else if up then sp + 1 else sp
  let day := s.aon / (86400 * 32768)
  let old := p.throt.filter (fun e => decide (day < e.1 + 7))
  let share : ℚ := (sp' : ℚ) / s.chgLimit
  let throt : List (Nat × ℚ × Nat) := match old.find? (fun e => e.1 == day) with
    | some e => (day, e.2.1 + share, e.2.2 + 1) :: old.filter (fun e => e.1 != day)
    | none => (day, share, 1) :: old
  let s : State := { s with pwr := { p with
    setPoint := sp', sinceRise := if up then 0 else p.sinceRise + 1,
    zeroHold := if sp' = 0 then p.zeroHold + 1 else 0, sagSet := p.sagSet && sp' == 0, throt := throt } }
  let s := if down then s.put PWR_STAT.THROTTLED 1 else if sp' = s.chgLimit then s.put PWR_STAT.THROTTLED 0 else s
  let n : ℚ := ((throt.map (fun e => e.2.2)).sum : ℚ)
  s.put THROT_AVG.FRAC (min 255 (roundNat (255 * (throt.map (fun e => e.2.1)).sum / n)))

/-- Charge drawn over `n` samples of 250 µs at a current in nA (R50, R261). -/
def State.integrate (s : State) (nA n : Nat) : State :=
  let acc := s.pwr.ledgerAcc + nA * n
  let k := acc / 1440000000
  let s := s.put32 LEDGER_L.w (min 0xFFFFFFFF (s.get32 LEDGER_L.w + k))
  let s : State := { s with pwr := { s.pwr with ledgerAcc := acc % 1440000000 },
                            sched := { s.sched with devE := s.sched.devE + 100 * k } }
  s.put SCHED_DEV_USE.w (min 0xFFFF (roundNat ((s.sched.devE : ℚ) / 1000)))

/-- A part of a charging phase goes on while the buck is off and the set-point stays; at any change it ends and the next one
begins (R54). -/
def State.partStep (s : State) (vres : Nat) : State :=
  let p := s.pwr
  let fresh : Option ChgPart := some ⟨p.setPoint, 0, vres, vres⟩
  let p := match p.part with
    | none => if s.coreRuns then p else { p with part := fresh }
    | some x =>
      if s.coreRuns then p.cutPart
      else if x.setPoint = p.setPoint then { p with part := some { x with samples := x.samples + 1, v1 := vres } }
      else { p.cutPart with part := fresh }
  { s with pwr := p }

/-- `VBAT_SAMPLE`: measurements, the floor loop, the restart of R44 and the ledger. A sample stands for 250 µs while the
switch conducts or a pulse runs, and for 1 s otherwise. -/
def execVbatSample (vbat vres chgUa sinkUa aonNa : Nat) (s : State) : Host.Outcome State Fault Refusal :=
  .next (
    let on := s.bit PWR_STAT.CHG_ON
    let n := if on || s.bit PWR_STAT.DEPASS_BUSY then 1 else 4000
    let s := ((s.putSat VBAT_MEAS.w vbat).putSat VRES_MEAS.w vres).putSat CHG_I_MEAS.w chgUa
    let s := s.putBit PWR_STAT.VRES_OK (2300 ≤ vres)
    let s := if on ∧ 1000 < chgUa then
        { s with hlt := { s.hlt with lowVbat := some (match s.hlt.lowVbat with | some v => min v vbat | none => vbat) } }
      else s
    let s := if on then (s.floorLoop vbat).partStep vres else s
    let s := s.integrate ((chgUa + sinkUa) * 1000 + aonNa) n
    let st := s.get PWR_STAT.CHG_STATE
    if 2 ≤ st ∧ ¬ on ∧ vres + 50 < s.stopMv then s.chargeOn else s)

/-- `IDLE_HOLD_START` (R44). -/
def execIdleHoldStart (s : State) : Host.Outcome State Fault Refusal :=
  .next (if s.get PWR_STAT.CHG_STATE = 1 ∧ ¬ s.bit PWR_STAT.CHG_ON ∧ s.get VRES_MEAS.w + 50 ≤ s.idleMv then s.chargeOn else s)

/-- `CHARGE_TARGET_REACHED` (R44). -/
def execChargeTargetReached (s : State) : Host.Outcome State Fault Refusal :=
  .next (if s.bit PWR_STAT.CHG_ON ∧ s.stopMv ≤ s.get VRES_MEAS.w then s.chargeOff else s)

/-- `START_CONDITION`: Hedgehog is released, unless `TEST` holds it (R46, R32). -/
def execStartCondition (s : State) : Host.Outcome State Fault Refusal :=
  .next (if s.boot.startWait ∧ ¬ s.pins.porAsserted ∧ 2300 ≤ s.get VRES_MEAS.w then
    let s : State := { s with boot := { s.boot with startWait := false, hedgehog := !s.pins.test && !s.pins.strapDue } }
    s.chgState 1
  else s)

/-- The charger may go to PRE-CHARGE. A leakage probe keeps it OFF until it has ended, and a delayed wake in IDLE-HOLD (R109,
log entry 165). -/
def State.preCharge (s : State) : State :=
  if s.get PWR_STAT.CHG_STATE = 1 ∧ s.wantsCharge ∧ s.runsPlans ∧ s.dormouse ∧ s.mode.delayed = none then
    ({ s with pwr := { s.pwr with preFor := s.nextStart } } : State).chgState 2
  else s

/-- `PRE_CHARGE_START` (R45). -/
def execPreChargeStart (s : State) : Host.Outcome State Fault Refusal := .next s.preCharge

/-- `PRE_CHARGE_RECOMPUTE` (R45). -/
def execPreChargeRecompute (s : State) : Host.Outcome State Fault Refusal := .next s.chgFollow.preCharge

/-! ### Leakage probe (R55) -/

/-- `LEAKAGE_PROBE_START`: a rest without a slot for `LEAK_WIN` seconds. -/
def execLeakageProbeStart (s : State) : Host.Outcome State Fault Refusal :=
  .next (if s.mode.resting ∧ s.mode.waking = none ∧ s.dormouse ∧ s.get PWR_STAT.CHG_STATE = 1 ∧
      ¬ s.bit PWR_STAT.DEPASS_BUSY ∧ ¬ s.dueWithin (1000 * s.get LEAK_WIN.w) then
    let s := (s.put PWR_STAT.LEAK_PROBE 1).chgState 0
    { s with pwr := { s.pwr with probeV := s.get VRES_MEAS.w, probeAt := s.aon } }
  else s)

/-- `LEAKAGE_PROBE_END`. -/
def execLeakageProbeEnd (vres secs : Nat) (s : State) : Host.Outcome State Fault Refusal :=
  .next (if s.bit PWR_STAT.LEAK_PROBE then s.probeEnd vres secs else s)

/-- `CAPACITANCE_SAMPLE`: the last part of a charging phase that has ended is judged (R54). -/
def execCapacitanceSample (s : State) : Host.Outcome State Fault Refusal :=
  .next (match s.pwr.partDone with
    | some p =>
      let s : State := { s with pwr := { s.pwr with partDone := none } }
      let amps : ℚ := (p.setPoint : ℚ) / 4000 - s.iLeak
      let rise := p.v1 - p.v0
      let q : ℚ := amps * p.samples * 2500 / rise
      let e : ℚ := (s.get RES_C_EST.w : ℚ)
      if 100 ≤ rise ∧ e / 4 ≤ q ∧ q ≤ 4 * e then s.takeC q else s
    | none => s)

/-- `RES_C_EST` before any accepted sample (R56). -/
def State.cDefault (s : State) : Nat :=
  if s.get RES_CNOM.w = 0 then 470 else roundNat (8 * (s.get RES_CNOM.w : ℚ) / 10)

/-- EST_RESET; refused once the partitions are locked (R56, Table 3.3). -/
def State.estReset (s : State) (f : Fn) : State :=
  if s.bit PART_STAT.LOCKED then s.setErr f eLOCKED
  else
    let s := (s.put RES_C_EST.w s.cDefault).put RES_LEAK_EST.w 1000
    let s := (s.put RES_C_INIT.w 0).put RES_LEAK_INIT.w 0
    ({ s with pwr := { s.pwr with initFlash := (none, none), cSeen := false, leakSeen := false } } : State).followEstimates

/-! ### Depassivation (R47 to R49, Table 3.3) -/

/-- A slot, BOOT or MAINTAIN holds a pulse back. -/
def State.depassBlocked (s : State) : Bool :=
  s.bit MODE.SLOT_ACT || s.sched.running != [] || s.bit MODE.MAINTAIN_ACT || s.get MODE.CUR == 3

/-- A pulse starts; the automatic one is not repeated until a new index has been measured. -/
def State.depassStart (s : State) (auto : Bool) : State :=
  let s := s.put PWR_STAT.DEPASS_PEND 0
  ({ s with pwr := { s.pwr with autoDue := s.pwr.autoDue && !auto, pendAuto := false } } : State).put PWR_STAT.DEPASS_BUSY 1

/-- A pulse waits. -/
def State.depassWait (s : State) (auto : Bool) : State :=
  ({ s with pwr := { s.pwr with pendAuto := auto } } : State).put PWR_STAT.DEPASS_PEND 1

/-- An automatic pulse would end 100 ms or more before the next PRE-CHARGE, and none runs. -/
def State.depassFits (s : State) : Bool :=
  s.get PWR_STAT.CHG_STATE != 2 &&
  match s.nextStart with
  | some t => (match s.tPre with
    | some p => decide (s.ktime + unitsUp p + (10 * s.get DEPASS_CFG.DEPASS_T + 100) * oneSec / 1000 ≤ t)
    | none => false)
  | none => true

/-- DEPASS_GO. -/
def State.depassGo (s : State) (f : Fn) : State :=
  if s.bit PWR_STAT.DEPASS_BUSY ∨ s.bit PWR_STAT.DEPASS_PEND then s.setErr f eBUSY
  else if s.depassBlocked then s.depassWait false
  else s.probeCut.depassStart false

/-- `DEPASS_AUTO_START`: the pulse of the last index starts, or waits. -/
def execDepassAutoStart (s : State) : Host.Outcome State Fault Refusal :=
  .next (if s.bit DEPASS_CFG.DEPASS_AUTO ∧ s.pwr.autoDue ∧ s.dormouse ∧
      ¬ s.bit PWR_STAT.DEPASS_BUSY ∧ ¬ s.bit PWR_STAT.DEPASS_PEND then
    if s.depassBlocked ∨ s.bit PWR_STAT.LEAK_PROBE ∨ ¬ s.depassFits then s.depassWait true else s.depassStart true
  else s)

/-- `DEPASS_DEFERRED_START`: what held the pulse back has ended. -/
def execDepassDeferredStart (s : State) : Host.Outcome State Fault Refusal :=
  .next (if s.bit PWR_STAT.DEPASS_PEND ∧ ¬ s.depassBlocked ∧ ¬ s.bit PWR_STAT.LEAK_PROBE ∧
      (¬ s.pwr.pendAuto ∨ s.depassFits) then s.depassStart s.pwr.pendAuto else s)

/-- A pulse of some milliseconds ends, its charge to F0. -/
def State.depassEnd (s : State) (vmin vend ms : Nat) : State :=
  let s := ((s.put PWR_STAT.DEPASS_BUSY 0).putSat DEPASS_VMIN.w vmin).putSat DEPASS_VEND.w vend
  s.charge .f0 (roundNat ((5000000 * s.get DEPASS_CFG.DEPASS_I * ms : Nat) / 3600000)) 0

/-- `DEPASS_PULSE_END`. -/
def execDepassPulseEnd (vmin vend : Nat) (s : State) : Host.Outcome State Fault Refusal :=
  .next (if s.bit PWR_STAT.DEPASS_BUSY then s.depassEnd vmin vend (10 * s.get DEPASS_CFG.DEPASS_T) else s)

/-- `DEPASS_EARLY_END`: `VBAT` fell below the pulse's limit after `ms`. -/
def execDepassEarlyEnd (vmin vend ms : Nat) (s : State) : Host.Outcome State Fault Refusal :=
  .next (if s.bit PWR_STAT.DEPASS_BUSY ∧ vmin < max 2000 (1700 + 10 * s.get VBAT_FLOOR.FLOOR) then
    (s.depassEnd vmin vend ms).raiseSag else s)

/-- `PASS_IDX_MEASURE`: 50 ms into the first charging phase after an hour of rest (R48). -/
def execPassIdxMeasure (rest now : Nat) (s : State) : Host.Outcome State Fault Refusal :=
  .next (if s.bit PWR_STAT.CHG_ON then
    let s := s.putSat PASS_IDX.w (rest - now)
    { s with pwr := { s.pwr with autoDue := decide (s.get DEPASS_THR.THR ≤ s.get PASS_IDX.w) } }
  else s)

/-! ### Ledger (R51, R52) -/

/-- The ledger is copied to CONFIG, and with it the reset cause and the service counters (R51, R469, R521). -/
def State.ledgerCopy (s : State) : State :=
  { s with pwr := { s.pwr with ledgerFlash := some (s.get32 LEDGER_L.w) },
           hlt := { s.hlt with flash := (s.get HLT_RCAUSE.w, s.get HLT_CNT_HB.w, s.get HLT_CNT_SYS.w, s.get HLT_CNT_ECC.w) } }

/-- `LEDGER_COPY`. -/
def execLedgerCopy (s : State) : Host.Outcome State Fault Refusal := .next (if s.flashFree then s.ledgerCopy else s)

/-- LEDGER_LOAD. -/
def State.ledgerLoad (s : State) : State := (s.put32 LEDGER_L.w (s.get32 LEDGER_LD_L.w)).put PWR_STAT.LEDGER_GAP 0

/-! ### BURST_OK and faults (R58, R64, Table 3.3) -/

/-- No activity runs or starts within the guard. -/
def State.burstQuiet (s : State) : Bool :=
  !s.active && s.get MODE.CUR != 3 && !s.dueWithin (s.get BURST_CFG.BURST_GUARD)

/-- `BURST_OK_LOW`. -/
def execBurstOkLow (s : State) : Host.Outcome State Fault Refusal :=
  .next (if s.get VRES_MEAS.w + 50 < 2000 + 10 * s.get BURST_CFG.BURST_V ∨ ¬ s.burstQuiet then s.put PWR_STAT.BURST_OK 0 else s)

/-- `BURST_OK_HIGH`. -/
def execBurstOkHigh (s : State) : Host.Outcome State Fault Refusal :=
  .next (if 2000 + 10 * s.get BURST_CFG.BURST_V ≤ s.get VRES_MEAS.w ∧ s.burstQuiet then s.put PWR_STAT.BURST_OK 1 else s)

/-- `BAT_SAG`: the set-point has been held at zero for 10 ms, once for each hold (R64). -/
def execBatSag (s : State) : Host.Outcome State Fault Refusal :=
  .next (if 40 ≤ s.pwr.zeroHold ∧ ¬ s.pwr.sagSet then
    ({ s with pwr := { s.pwr with sagSet := true } } : State).raiseSag else s)

/-- `RESERVOIR_FAULT`: charging at the limit has raised `VRES` by too little (Table 3.3). -/
def execReservoirFault (rise ms : Nat) (s : State) : Host.Outcome State Fault Refusal :=
  .next (if s.bit PWR_STAT.CHG_ON ∧ rise < 100 ∧ 4 * s.cEst / 10 ≤ s.iEff * ((ms : ℚ) / 1000) then
    ({ s with hlt := { s.hlt with resFaults := bump s.dayNo s.hlt.resFaults } } : State).raise1 jRESERVOIR_LOW
  else s)

end Sys2Proof.Machine
end

