-- ==== Sys2Proof/Machine/Clocks.lean ====
section
/-! DEFINITION. The oscillators and the core PLL: qualification, failure and retry (spec 04). -/

namespace Sys2Proof.Machine

open R

/-- X32 has started and has neither been qualified nor given up (R68). -/
def State.x32Starting (s : State) : Bool :=
  !s.pins.porAsserted && s.get MODE.CUR != 0 && !s.bit CLK_STAT.X32_OK && !s.bit TIME_STAT.FALLBACK

/-- `X32_QUALIFIED`: AON switches to X32 (R68). -/
def execX32Qualified (s : State) : Host.Outcome State Fault Refusal :=
  .next (if s.x32Starting then
    let s := (s.put CLK_STAT.X32_OK 1).put CLK_STAT.AON_SRC 0
    { s with time := { s.time with rate := s.holdRate } }
  else s)

/-- HFRC runs: it clocks AON before X32 is qualified and in the fallback, and CORE in BOOT and from a wake until the PLL
(Table 4.1). -/
def State.hfrcOn (s : State) : Bool :=
  s.get MODE.CUR != 0 && (s.get MODE.CUR == 3 || s.bit TIME_STAT.FALLBACK || !s.bit CLK_STAT.X32_OK ||
    (s.coreRuns && !s.bit CLK_STAT.CORE_SRC))

/-- `X32_FAIL` is set and the fallback starts (R68, R83, R86). -/
def State.x32Lost (s : State) : State :=
  let s := (s.put CLK_EVT.X32_FAIL 1).clockEvent
  let s := (s.put CLK_STAT.X32_OK 0).put CLK_STAT.AON_SRC 1
  let s := s.put TIME_STAT.FALLBACK 1
  { s with time := { s.time with rate := s.holdRate } }

/-- `X32_FAIL`: X32 is not qualified 3 s after its start. -/
def execX32Fail (s : State) : Host.Outcome State Fault Refusal := .next (if s.x32Starting then s.x32Lost else s)

/-- `X32_MISSING_EDGE`: a qualified X32 has stopped for more than 200 µs (R83). -/
def execX32MissingEdge (s : State) : Host.Outcome State Fault Refusal :=
  .next (if s.bit CLK_STAT.X32_OK ∧ s.get MODE.CUR ≠ 0 then s.x32Lost else s)

/-- `XO_QUALIFIED`: XO runs, `us` after its start; the PLL is enabled (R69). -/
def execXoQualified (us : Nat) (s : State) : Host.Outcome State Fault Refusal :=
  .next (if s.mode.xoTry ∧ s.coreRuns then
    let s := (s.put CLK_STAT.XO_OK 1).putSat XO_START.w us
    { s with mode := { s.mode with xoTry := false }, time := { s.time with xoBad := false } }
  else s)

/-- `XO_FAIL`: XO is not qualified within 5 ms; a slot in progress fails (R84, R86, R373). -/
def execXoFail (s : State) : Host.Outcome State Fault Refusal :=
  .next (if s.mode.xoTry ∧ s.coreRuns then
    let s := ((s.put CLK_EVT.XO_FAIL 1).inc CLK_FAILCNT.XO).put XO_START.w 0xFFFF
    let s : State := { s with
      mode := { s.mode with xoTry := false }, time := { s.time with xoBad := true },
      hlt := { s.hlt with xoFails := bump s.dayNo s.hlt.xoFails } }
    (s.clockEvent.missRuns (fun _ => true) 6).settle
  else s)

/-- `XO_RETRY`: a demand or the 60 s timer starts XO again while CORE runs (R84). -/
def execXoRetry (s : State) : Host.Outcome State Fault Refusal :=
  .next (if s.coreRuns ∧ ¬ s.bit CLK_STAT.XO_OK then s.xoStart else s)

/-- `PLL_LOCK`: CORE switches to the PLL; HFRC is measured, `hfrcErr` in 0.01 %, and trimmed (R69, R70). -/
def execPllLock (hfrcErr : Int) (s : State) : Host.Outcome State Fault Refusal :=
  .next (if s.bit CLK_STAT.XO_OK ∧ s.coreRuns then
    let s := (s.put CLK_STAT.PLL_LOCK 1).put CLK_STAT.CORE_SRC 1
    (s.put HFRC_ERR.w (code16 hfrcErr)).put CLK_STAT.HFRC_TRIMMED 1
  else s)

/-- `PLL_FAIL`: both lock attempts have failed and CORE stays on HFRC. Receptions that need Pika fail and are reported MISSED,
with a cause that Table 11.9 leaves open (R85, R86, log entry 172). -/
def execPllFail (s : State) : Host.Outcome State Fault Refusal :=
  .next (if s.bit CLK_STAT.XO_OK ∧ ¬ s.bit CLK_STAT.PLL_LOCK ∧ s.coreRuns then
    let s := ((s.put CLK_EVT.PLL_FAIL 1).inc CLK_FAILCNT.PLL).clockEvent.noteFault
    let (w, s) := s.fresh
    (s.missRuns (fun rw => needsPika rw.2.words && recKind rw.2.words != kCAPT) (w.toNat % 0x100)).settle
  else s)

end Sys2Proof.Machine
end

