-- ==== Sys2Proof/Machine/Legal.lean ====
section
/-! DEFINITION. Which values a register field takes (R10, R516): the ranges of the field tables, key fields and the
relations between fields of one register. -/

namespace Sys2Proof.Machine

open R

/-- The value a field has inside a word. -/
def Fld.of (x : Fld) (w : Word) : Nat := (w.toNat / 2 ^ x.lo) % x.size

/-- The values of fields that take less than their width: a field with its least and greatest value. Pages 0x00 to 0x09. -/
def rangesA : List (Fld × Nat × Nat) :=
  [(INT_CNT_SEL.SRC, 0, 26), (DQ_THR.w, 1, 0xFFFF), (FN_ERR.CODE, 0, 0),
   (FN_RESET.KEY, 0xC3, 0xC3),
   (MODE_CFG.REST_DELAY, 1, 255), (MODE_CMD.KEY, 0xA5, 0xA5), (MODE_CMD.REQ, 1, 2), (WAKE_CFG.RETRY_S, 1, 15),
   (GPIO0_CFG.FUNC, 0, 4), (GPIO1_CFG.FUNC, 0, 4),
   (VBAT_FLOOR.HYST, 1, 15), (VBAT_FLOOR.FLOOR, 0, 140), (VRES_TGT.TGT, 0, 160), (VRES_IDLE.IDLE, 0, 160),
   (VRES_STOP.STOP, 0, 60), (BUCK_V.VOUT, 0, 16), (DEPASS_CFG.DEPASS_T, 1, 50), (DEPASS_CFG.DEPASS_I, 1, 8),
   (DEPASS_THR.THR, 1, 255), (LEAK_WIN.w, 600, 7200), (BURST_CFG.BURST_V, 0, 160),
   (IMG_REVOKE.KEY, 0x5A, 0x5A), (HP_CFG.IDLE_MS, 1, 255),
   (TW_CFG.STRETCH_MS, 1, 255), (TW_CTL_CFG.PERIOD, 1, 255), (TW_CTL_CFG.TRIES, 1, 15), (TW_CTL_CFG.SPEED, 0, 2),
   (TW_STUCK.MS, 10, 255), (PART_CMD.KEY, 0x3C, 0x3C),
   (PART_QH_F.w 0, 0, 14272), (PART_QH_F.w 1, 0, 14272), (PART_QH_F.w 2, 0, 14272), (PART_QH_F.w 3, 0, 14272)]

/-- Pages 0x0A to 0x12. -/
def rangesB : List (Fld × Nat × Nat) :=
  [(BUDGET_UAH_DAY.w, 1, 0xFFFF), (SCHED_DAY_OFS.w, 0, 1439), (SCHED_DSP_MAX.w, 50, 100), (SCHED_RETUNE.w, 1000, 20000),
   (SCHED_MARGIN.w, 100, 200),
   (FLOOD_CFG.HYST, 1, 15), (FLOOD_CFG.NCONF, 1, 15), (FLOOD_CFG.LEARN_N, 1, 255), (FLOOD_THR.DAMP_DB, 1, 254),
   (FLOOD_LFTOL.TOL, 1, 255),
   (FMR_CFG.SYNC_LOSS, 1, 15), (FMR_CFG.ECC_MAX, 0, 5), (AF_CFG.SW_DBM, 40, 120), (AF_CFG.HYST, 1, 15),
   (AF_CFG.PI_CONF_N, 1, 15), (AF_TIME.DWELL, 1, 255), (AF_TIME.PI_DWELL, 10, 255), (AF_BAN.w, 1, 3600),
   (DAB_AF_CFG.SW_DBM, 40, 120), (DAB_AF_CFG.HYST, 1, 15), (DAB_AF_CFG.FIB_BAD, 1, 10), (DAB_AF_TIME.DWELL, 1, 255),
   (DAB_AF_TIME.CONF_DWELL, 5, 255), (DAB_AF_BAN.w, 1, 3600), (LFT_CFG.CAR_DB, 0, 100),
   (TIME_LOSS_THR.CODE, 1, 30), (TIME_PPS.WIDTH, 1, 255), (EDF_CFG.STALE_DAYS, 1, 255)]

/-- Pages 0x13 to 0x18. -/
def rangesC : List (Fld × Nat × Nat) :=
  [(AP.FMT.FORMAT 0, 0, 3), (AP.FMT.FORMAT 1, 0, 3), (AP.FMT.SLOTW 0, 0, 2), (AP.FMT.SLOTW 1, 0, 2),
   (AP.DIV_I.I 0, 2, 4095), (AP.DIV_I.I 1, 2, 4095), (AP.FADE.RAMP_MS 0, 1, 64), (AP.FADE.RAMP_MS 1, 1, 64),
   (AP.FADE.FADE_MS 0, 1, 64), (AP.FADE.FADE_MS 1, 1, 64), (AP.LOWAT.w 0, 1, 0xFFFF), (AP.LOWAT.w 1, 1, 0xFFFF),
   (AP.WPTR.w 0, 0, 16383), (BPH_WPTR.w, 0, 16383), (BPH_DIV_I.I, 2, 4095), (BPH_FADE.RAMP_MS, 1, 64),
   (BPH_FADE.FADE_MS, 1, 64), (BPH_LOWAT.w, 1, 0xFFFF), (BPH_PPM_THR.w, 1, 1000),
   (CAPT_BLK_FR.w, 64, 8192), (CAPT_LEAD.w, 5, 10000), (CAPT_SPILL_KIB.w, 4, 1024),
   (TWIN_CFG.PERIOD, 1, 63), (TWIN_CKPT_MIN.w, 1, 1440), (TWIN_STEST.DAYS, 1, 28), (TWIN_STEST.HOUR, 0, 23),
   (TWIN_CMD.KEY, 0x7A, 0x7A),
   (HLT_CFG.REPL_MO, 1, 60), (HLT_CFG.FIT_MO, 3, 24), (HLT_DESIGN_MO.w, 12, 240), (HLT_CELL_PCT.PCT, 50, 100),
   (HLT_HB_MS.w, 100, 2000), (HLT_PIKA_MS.w, 10, 255), (HLT_FAULT_LIM.w, 1, 255), (HLT_FLASH_KCYC.w, 10, 1000),
   (HLT_CMD.KEY, 0x69, 0x69)]

/-- The number of set bits of a number below 2⁷. -/
def ones7 (n : Nat) : Nat := ((List.range 7).filter (fun i => n / 2 ^ i % 2 == 1)).length

/-- Relations that a range of one field does not give. -/
def extraLegal (f : Fn) (k : Nat) (w : Word) : Bool :=
  if k = INT_CNT_SEL.w.key then f == .f0 || INT_CNT_SEL.SRC.of w ≤ 15
  else if k = PLAN_CTRL.w.key then w.toNat % 8 = 0 || w.toNat % 8 = 1 || w.toNat % 8 = 2 || w.toNat % 8 = 4
  else if k = RES_CNOM.w.key then w.toNat == 0 || (470 ≤ w.toNat && w.toNat ≤ 20000)
  else if k = TW_MASK.w.key then ones7 (TW_MASK.MASK.of w) ≤ 2
  else if (PART_GRANT.w 0).key ≤ k ∧ k ≤ (PART_GRANT.w 8).key then
    (List.range 8).all (fun i => w.toNat / 4 ^ i % 4 != 3)
  else if k = PART_DQ.w.key then (List.range 4).all (fun i => 1 ≤ w.toNat / 16 ^ i % 16 && w.toNat / 16 ^ i % 16 ≤ 13)
  else if k = FLOOD_THR.w.key then FLOOD_THR.DAMP_DB.of w < FLOOD_THR.SUB_DB.of w
  else if k = CAPT_SNIP_BAND.w.key then CAPT_SNIP_BAND.LO.of w ≤ CAPT_SNIP_BAND.HI.of w
  else true

/-- A word holds no reserved encoding of the register whose key (a common one: its offset) is `k` (R10). -/
def legalWord (f : Fn) (k : Nat) (w : Word) : Bool :=
  (rangesA ++ rangesB ++ rangesC).all (fun r => r.1.key != k || (r.2.1 ≤ r.1.of w && r.1.of w ≤ r.2.2)) && extraLegal f k w

end Sys2Proof.Machine
end

