-- ==== Sys2Proof/Machine/Lf.lean ====
section
/-! DEFINITION. LF time signals (spec 15): templates, second markers, minute frames, time candidates and the carrier. -/

namespace Sys2Proof.Machine

open R

/-! ### Templates (R342, R343) -/

/-- A time field of a template: first second, width, bit order, parity. -/
structure TplField where
  start : Nat
  width : Nat
  msb : Bool
  par : Bool
  deriving DecidableEq, Repr

/-- Field `i`: minute, hour, day, month, year. -/
def tplField (t : List Word) (i : Nat) : TplField :=
  let w := tplWord t (8 + i)
  ⟨w / 0x400, w / 0x40 % 16, w / 0x20 % 2 == 1, w / 0x10 % 2 == 1⟩

/-- Seconds per frame. -/
def tplLen (t : List Word) : Nat := tplWord t 0 / 0x100 % 64

/-- The seconds of a field, and with its parity second. -/
def TplField.secs (f : TplField) : List Nat := (List.range f.width).map (fun i => f.start + i)
def TplField.all (f : TplField) : List Nat := f.secs ++ if f.par ∧ f.width ≠ 0 then [f.start + f.width] else []

/-- The five fields. -/
def tplFields (t : List Word) : List TplField := [0, 1, 2, 3, 4].map (tplField t)

/-- A commit is accepted (R343). -/
def tplOk (t : List Word) : Bool :=
  let n := tplLen t
  let carrier := tplWord t 1 + 0x10000 * tplWord t 2
  let fs := tplFields t
  10 ≤ n && n ≤ 61 && 30000 ≤ carrier && carrier ≤ 300000 &&
    [3, 4, 5, 6].all (fun i => tplWord t i / 0x100 ≤ tplWord t i % 0x100) &&
    fs.all (fun f => f.width ≤ 8 && f.all.all (fun x => x + 2 ≤ n)) &&
    (fs.flatMap TplField.secs).length == (fs.flatMap TplField.secs).eraseDups.length

/-- The slots; `LFT_TPL_STAT.EN` follows them. -/
def State.setSlots (s : State) (l : List (List Word)) : State :=
  let en := (List.range 4).foldl (fun a i => a + tplWord (l.getD i []) 0 / 0x8000 * 2 ^ i) 0
  ({ s with lf := { s.lf with slots := l } } : State).put LFT_TPL_STAT.EN en

/-- The four slots, empty ones as sixteen zero words. -/
def State.slotList (s : State) : List (List Word) :=
  (List.range 4).map (fun i => (List.range 16).map (fun k => (s.lf.slots.getD i []).getD k 0))

/-- The templates the running image carries are loaded at a cold boot; their contents are the image's, which the spec
does not give (R343, log entry 10). -/
def State.loadTemplates (s : State) : State :=
  let (w, s) := s.freshWords 64
  s.setSlots ((List.range 4).map (fun i => (w.drop (16 * i)).take 16))

/-- A write of `LFT_TPL_SEL` loads the slot into the edit window. -/
def State.tplSel (s : State) (v : Nat) : State :=
  let s := s.put LFT_TPL_SEL.w (v % 4)
  s.putWords (LFT_TPL.w 0).key ((s.slotList.getD (v % 4) []).map BitVec.toNat)

/-- COMMIT: the edit window goes into the slot, or is refused (R343, R350). -/
def State.tplCommit (s : State) (f : Fn) : State :=
  let t := (List.range 16).map (fun i => s.reg (LFT_TPL.w i).key)
  if s.bit PART_STAT.LOCKED then s.setErr f eLOCKED
  else if tplOk t then (s.put LFT_TPL_STAT.REJ 0).setSlots (s.slotList.set (s.get LFT_TPL_SEL.SLOT) t)
  else (s.put LFT_TPL_STAT.REJ 1).setErr f eBADARG

/-- CLEAR empties the selected slot (R343, R350). -/
def State.tplClear (s : State) (f : Fn) : State :=
  if s.bit PART_STAT.LOCKED then s.setErr f eLOCKED
  else s.setSlots (s.slotList.set (s.get LFT_TPL_SEL.SLOT) ((List.range 16).map (fun _ => 0)))

/-! ### Markers (R344) -/

/-- The class of a duration, 4 where it fits none; a class with both limits 0 is unused. -/
def markerClass (t : List Word) (durUs : Nat) : Nat :=
  ([0, 1, 2, 3].find? (fun c =>
    let w := tplWord t (3 + c)
    w != 0 && w / 0x100 * 10000 ≤ durUs && durUs ≤ w % 0x100 * 10000)).getD 4

/-- Seconds without a marker between two edges. -/
def gapSecs (last edge : Nat) : List LfSec :=
  (List.range ((edge - last + 2 ^ 23) / 2 ^ 24 - 1)).map (fun i => ⟨5, last + (i + 1) * 2 ^ 24⟩)

/-- Two edges lie 1 s ± 2 ms apart. -/
def oneApart (last edge : Nat) : Bool :=
  (((edge : Int) - last - 2 ^ 24).natAbs * 1000 ≤ 2 * 2 ^ 24)

/-- `LF_MARKER`: `edge` is KTIME at the on-time edge (R344). -/
def execLfMarker (edge durUs : Nat) (s : State) : Host.Outcome State Fault Refusal :=
  .next (match s.lf.copy with
    | some (_, t) =>
      if s.onBearer 1 then
        let near : Bool := match s.lf.lastEdge with | some e => oneApart e edge | none => false
        let row := if near then s.lf.row + 1 else 1
        let gap := match s.lf.lastEdge with | some e => gapSecs e edge | none => []
        let secs := if s.bit LFT_STAT.FRAMESYNC then s.lf.secs ++ gap ++ [⟨markerClass t durUs, edge⟩] else []
        let late := tplLen t + 1 < secs.length
        let s : State := { s with lf := { s.lf with
          row := row, lastEdge := some edge,
          secs := if s.bit LFT_STAT.FRAMESYNC then (if late then [] else secs) else [⟨markerClass t durUs, edge⟩] } }
        let s := if late then s.put LFT_STAT.FRAMESYNC 0 else s
        if 5 ≤ row then s.put LFT_STAT.SECSYNC 1 else s
      else s
    | none => s)

/-- `LF_SECSYNC_LOST`: five seconds without a marker; the frame in progress will not be good (R344, Table 15.2). -/
def execLfSecsyncLost (s : State) : Host.Outcome State Fault Refusal :=
  .next (match s.lf.lastEdge with
    | some e =>
      if s.bit LFT_STAT.SECSYNC ∧ e + 5 * 2 ^ 24 ≤ s.ktime then
        let s := s.put LFT_STAT.SECSYNC 0
        { s with lf := { s.lf with row := 0, spoiled := true } }
      else s
    | none => s)

/-! ### Frames (R345, R346, R349) -/

/-- The bit value of a second. -/
def LfSec.bit (x : LfSec) : Nat := if x.cls = 1 then 1 else 0

/-- The BCD value of a field, none where a digit exceeds 9. -/
def fieldValue (f : TplField) (secs : List LfSec) : Option Nat :=
  let bits := f.secs.map (fun i => (secs.getD i ⟨5, 0⟩).bit)
  let v := (if f.msb then bits.reverse else bits).foldr (fun b a => b + 2 * a) 0
  if v % 16 ≤ 9 ∧ v / 16 ≤ 9 then some (v / 16 * 10 + v % 16) else none

/-- Even parity over a field and its parity second. -/
def parityOk (f : TplField) (secs : List LfSec) : Bool :=
  !f.par || f.width == 0 || ((f.all.map (fun i => (secs.getD i ⟨5, 0⟩).bit)).sum % 2 == 0)

/-- Days of a month. -/
def monthDays (y m : Nat) : Nat :=
  if m = 2 then (if y % 4 = 0 ∧ (y % 100 ≠ 0 ∨ y % 400 = 0) then 29 else 28)
  else if m = 4 ∨ m = 6 ∨ m = 9 ∨ m = 11 then 30 else 31

/-- Day number from 2000-01-01 of a date of year 2000 + `y`. -/
def dateDay (y m d : Nat) : Nat := yearDay y + ((List.range (m - 1)).map (fun i => monthDays (2000 + y) (i + 1))).sum + (d - 1)

/-- A leap second is announced for the minute that begins at KTIME second `t`. -/
def State.leapIn (s : State) (t : Nat) : Bool :=
  s.get TIME_LEAP_PEND.w == 1 && t < s.get32 TIME_LEAP_AT_L.w && s.get32 TIME_LEAP_AT_L.w ≤ t + 62

/-- A frame is good (R345). -/
def State.frameGood (s : State) (t : List Word) (secs : List LfSec) : Bool :=
  let n := tplLen t
  let fs := tplFields t
  let used := fs.flatMap TplField.all
  let cls (i : Nat) : Nat := (secs.getD i ⟨5, 0⟩).cls
  let first := ((secs.headD ⟨5, 0⟩).edge + 2 ^ 23) / 2 ^ 24
  (secs.length == n || (secs.length == n + 1 && s.leapIn first)) &&
    (List.range (n - 1)).all (fun i => cls i ≤ 4 && (cls i ≤ 3 || !used.contains i)) &&
    ((List.range (n - 1)).filter (fun i => cls i == 4)).length ≤ s.get LFT_CFG.BADMAX &&
    used.all (fun i => cls i ≤ 1) && fs.all (fun f => parityOk f secs) &&
    (match fs.map (fun f => fieldValue f secs) with
      | [some mi, some h, some d, some mo, some y] =>
        mi ≤ 59 && h ≤ 23 && 1 ≤ d && 1 ≤ mo && mo ≤ 12 && y ≤ 99 && d ≤ monthDays (2000 + y) mo
      | _ => false)

/-- The five decoded values. -/
def frameVals (t : List Word) (secs : List LfSec) : List Nat := (tplFields t).map (fun f => (fieldValue f secs).getD 0)

/-- Offsets of the classified markers' edges from a 1 s grid at the frame's second 0. -/
def gridOffsets (secs : List LfSec) : List ℚ :=
  ((secs.mapIdx (fun i x => (i, x))).filter (fun e => e.2.cls ≤ 3)).map (fun e => (e.2.edge : ℚ) - e.1 * 2 ^ 24)

/-- The fitted grid's second 0: the mean offset. -/
def gridZero (l : List ℚ) : ℚ := if l = [] then 0 else l.sum / l.length

/-- A square root in whole units; the direction of rounding is open (log entry 11). -/
def rootOf (q : ℚ) : Nat :=
  let n := Nat.sqrt ⌊q⌋.toNat
  if ((n * n : Nat) : ℚ) = q then n else if Config.roundsUp q then n + 1 else n

/-- The RMS scatter about the grid in µs. -/
def gridScatter (l : List ℚ) : Nat :=
  if l = [] then 0 else min 0xFFFF (rootOf ((l.map (fun x => ((x - gridZero l) * 1000000 / 2 ^ 24) ^ 2)).sum / l.length))

/-- The candidate of a good frame: the KTIME it names and the instant (R346). -/
def State.lfCandidate (s : State) (t : List Word) (secs : List LfSec) : Int × Nat :=
  let v := frameVals t secs
  let base : Int := let b := tplWord t 14 % 0x100; if b < 0x80 then b else (b : Int) - 0x100
  let summer := tplWord t 14 / 0x200 % 2 == 1 && (secs.getD (tplWord t 14 / 0x400) ⟨5, 0⟩).bit == 1
  let utc : Int := 86400 * (dateDay (v.getD 4 0) (v.getD 3 0) (v.getD 2 0) : Int) + 3600 * v.getD 1 0 + 60 * v.getD 0 0 -
    900 * base - if summer then 3600 else 0
  let cur := tplWord t 7 / 0x4000 % 2 == 1
  let z := gridZero (gridOffsets secs) + (if cur then 0 else (secs.length : ℚ) * 2 ^ 24) - (tplWord t 13 : ℚ) * 2 ^ 24 / 100000
  ((utc + s.time.leap) * 2 ^ 24, roundNat z)

/-- Whether a candidate is accepted (R346). -/
def State.lfAccept (s : State) (c : Int × Nat) : Bool :=
  (match s.lf.prev with
    | some (n0, t0) => decide (((c.1 - n0) - ((c.2 : Int) - t0)).natAbs ≤ 2 ^ 24)
    | none => false) || (codeOf s.time.whole ≤ 20 && decide ((c.1 - c.2).natAbs ≤ 2 ^ 24))

/-- Words 4 to 7: the bit values of the seconds. -/
def bitWords (secs : List LfSec) : List Word :=
  (List.range 4).map (fun k => BitVec.ofNat 16
    (((secs.drop (16 * k)).take 16).mapIdx (fun i x => x.bit * 2 ^ (15 - i))).sum)

/-- The judged frame: counters, candidate, LF_FRAME record. -/
def State.lfJudge (s : State) (slot : Nat) (t : List Word) (secs : List LfSec) : State :=
  let good := !s.lf.spoiled && s.frameGood t secs
  let s := s.inc LFT_CNT_FRAME.w
  let s := if good then s else s.inc LFT_CNT_FRAME_BAD.w
  let c := s.lfCandidate t secs
  let acc := good && s.lfAccept c
  let s := if acc then ((s.inc LFT_CNT_TIME.w).put LFT_STAT.TIME_VALID 1).candidate 3 9 c.1 c.2 none false
    else if good then s.inc LFT_CNT_TIME_REJ.w else s
  let s : State := if good then { s with lf := { s.lf with prev := some c } } else s
  let rms := gridScatter (gridOffsets secs)
  let s := s.put LFT_EDGE_RMS.w rms
  let bad := (secs.filter (fun x => x.cls == 4)).length
  let w3 := slot * 0x4000 + (if good then 0x2000 else 0) + (if acc then 0x1000 else 0) + min secs.length 63 * 64 + min bad 63
  let v := frameVals t secs
  let tail : List Nat := if good then [v.getD 0 0 * 0x100 + v.getD 1 0, v.getD 2 0 * 0x100 + v.getD 3 0, 2000 + v.getD 4 0] else [0, 0, 0]
  let fns := allFns.filter (fun f => (s.fnsWith (fun w => recKind w == kTIME)).contains f || s.listeners.contains f)
  s.deliverAll 0x10 ([BitVec.ofNat 16 w3] ++ bitWords secs ++ (tail ++ [rms]).map (BitVec.ofNat 16)) []
    ((secs.headD ⟨5, 0⟩).edge % 2 ^ 32) fns

/-- `LF_FRAME`: a minute mark: a class 3 marker, or a second without one where the template says so, and in a frame not before
second FLEN − 1 (Table 15.1). It ends the frame in progress, and the first one gives frame synchronisation (R344, R345,
R349). -/
def execLfFrame (s : State) : Host.Outcome State Fault Refusal :=
  .next (match s.lf.copy, s.lf.lastEdge with
    | some (slot, t), some e =>
      let missing := tplWord t 7 / 0x8000 == 1
      let mark : Bool := if missing then decide (e + 2 ^ 24 ≤ s.ktime)
        else (match s.lf.secs.getLast? with | some x => x.cls == 3 | none => false)
      let secs := if missing then s.lf.secs ++ [⟨5, e + 2 ^ 24⟩] else s.lf.secs
      if s.onBearer 1 ∧ mark ∧ (s.bit LFT_STAT.FRAMESYNC → tplLen t ≤ secs.length) then
        let s := if s.bit LFT_STAT.FRAMESYNC then s.lfJudge slot t secs else s
        let s := s.put LFT_STAT.FRAMESYNC 1
        { s with lf := { s.lf with secs := [], spoiled := false, lastEdge := some (if missing then e + 2 ^ 24 else e) } }
      else s
    | _, _ => s)

/-! ### Carrier (R348) -/

/-- `LF_CARRIER_MEASURE`: 4 s of continuous carrier have passed since it set, or since the last measurement (R348). -/
def execLfCarrierMeasure (err : Int) (sd : Nat) (s : State) : Host.Outcome State Fault Refusal :=
  .next (if s.onBearer 1 ∧ s.bit LFT_STAT.CARRIER ∧ s.lf.carAt + 4 * 32768 ≤ s.aon then
    let s : State := { s with lf := { s.lf with carAt := s.aon } }
    ((s.put LFT_FERR.w (satCode err)).putSat LFT_FERR_SD.w sd).xoMeasure err sd
  else s)

/-- `LF_CARRIER_CHANGE`: the in-band carrier has stayed at `db` dBµV for 1 s (R348). -/
def execLfCarrierChange (db : Int) (s : State) : Host.Outcome State Fault Refusal :=
  .next (if s.onBearer 1 then
    if (s.get LFT_CFG.CAR_DB : Int) < db then
      if s.bit LFT_STAT.CARRIER then s
      else ({ s with lf := { s.lf with carAt := s.aon } } : State).put LFT_STAT.CARRIER 1
    else if db < s.get LFT_CFG.CAR_DB ∧ s.bit LFT_STAT.CARRIER then
      ((s.put LFT_STAT.CARRIER 0).inc LFT_CNT_CARLOSS.w).put LFT_FERR.w 0x8000
    else s
  else s)

end Sys2Proof.Machine
end

