-- ==== Sys2Proof/Machine/HostPorts.lean ====
section
/-! DEFINITION. How a frame or an attention attempt on a host port ends: its outcome, events, counters and errors (R184,
R208, R221). -/

namespace Sys2Proof.Machine

open R

/-- Outcomes of an SPI frame (Table 8.6). -/
def oNRDY : Nat := 1
def oSHORT : Nat := 2
def oCRC : Nat := 3
def oCRCHDR : Nat := 4
def oRESCMD : Nat := 5
def oLENGTH : Nat := 6
def oCRCREQ : Nat := 7
def oOVERLONG : Nat := 8
def oIDLE : Nat := 9
def oLATE : Nat := 10
def oVDDIO : Nat := 11

/-- Event bit, counter and `FN_ERR` code of an SPI outcome (Table 8.6); 0 leaves `FN_ERR` unchanged. -/
def spiRow : Nat → Option Fld × Option Fld × Nat
  | 1 => (none, some HP_CNT_NRDY.w, eNRDY)
  | 2 => (some HP_EVT.SHORT_FRAME, some HP_CNT_SHORT.w, eFRAMING)
  | 3 => (some HP_EVT.CRC, some HP_CNT_CRC.w, eCRC)
  | 4 => (some HP_EVT.CRC, some HP_CNT_CRC.w, eCRC)
  | 5 => (some HP_EVT.FRAMING, some HP_CNT_FRAMING.w, eFRAMING)
  | 6 => (some HP_EVT.FRAMING, some HP_CNT_FRAMING.w, eFRAMING)
  | 7 => (some HP_EVT.FRAMING, some HP_CNT_FRAMING.w, eFRAMING)
  | 8 => (some HP_EVT.FRAMING, some HP_CNT_FRAMING.w, eFRAMING)
  | 9 => (some HP_EVT.TIMEOUT, some HP_CNT_TIMEOUT.w, eTIMEOUT)
  | 10 => (some HP_EVT.TIMEOUT, some HP_CNT_TIMEOUT.w, eTIMEOUT)
  | 11 => (some HP_EVT.VDDIO, none, 0)
  | _ => (none, none, 0)

/-- An SPI frame ends with an outcome (R184); `ready` says that it ran with READY = 1. -/
def State.spiOutcome (s : State) (f : Option Fn) (bytes code : Nat) (ready : Bool) : State :=
  let (evt, cnt, err) := spiRow code
  let fnNo := (f.map Fn.toNat).getD 0
  let s := s.put HP_LAST.w (code * 0x1000 + fnNo * 0x400 + min bytes 0x3FF)
  let s := if code = 0 then s.add32 HP_FRAMES_L.w 1 else s
  let s := match evt with | some e => s.put e 1 | none => s
  let s := match cnt with | some c => s.inc c | none => s
  let s := match f with | some g => if err = 0 then s else s.setErr g err | none => s
  let s := if code = 0 ∨ code = oNRDY then s else s.raise1 jHOSTPORT_ERROR
  { s with spi := ⟨none, if ready then code != 0 else s.spi.err⟩ }

/-- Outcomes of a two-wire target frame (Table 9.7). -/
def wNRDY : Nat := 1
def wSHORT : Nat := 2
def wPEC : Nat := 3
def wLENGTH : Nat := 4
def wOVERLONG : Nat := 5
def wBUS : Nat := 6
def wSTRETCH : Nat := 7
def wTWRST : Nat := 8
def wVDDIO : Nat := 9
def wWAKE : Nat := 10

/-- Event bit and `FN_ERR` code of a two-wire outcome (Table 9.7). -/
def twRow : Nat → Option Fld × Nat
  | 1 => (none, eNRDY)
  | 2 => (some TW_EVT.FRAMING, eFRAMING)
  | 3 => (some TW_EVT.PEC, eCRC)
  | 4 => (some TW_EVT.FRAMING, eFRAMING)
  | 5 => (some TW_EVT.FRAMING, eFRAMING)
  | 6 => (some TW_EVT.FRAMING, eFRAMING)
  | 7 => (some TW_EVT.STRETCH, eTIMEOUT)
  | 8 => (some TW_EVT.TWRST_SEEN, 0)
  | 9 => (some TW_EVT.VDDIO, 0)
  | 10 => (some TW_EVT.WAKE_STRETCH, eTIMEOUT)
  | _ => (none, 0)

/-- A bit of `TW_EVT` is set. While CORE is stopped the crossing holds the set (R79). -/
def State.twEvt (s : State) (x : Fld) : State :=
  if s.coreRuns then s.put x 1 else { s with tw := { s.tw with evtHeld := s.tw.evtHeld ||| 2 ^ x.lo } }

/-- A target frame ends with an outcome (R221). -/
def State.twOutcome (s : State) (f : Fn) (bytes code : Nat) : State :=
  let (evt, err) := twRow code
  let s := s.put TW_LAST.w (code * 0x1000 + f.toNat * 0x400 + min bytes 0x3FF)
  let s := match evt with | some e => s.twEvt e | none => s
  let s := if err = 0 then s else s.setErr f err
  let s := if code = 0 ∨ code = wNRDY then s else (s.inc TW_CNT_ERR.w).raise1 jTW_ERROR
  { s with tw := { s.tw with frame := none, wakeFrame := none, sclHeld := false } }

/-- The first of two rows of Table 9.7 that a frame matches; 0 is none. -/
def firstRow (a b : Nat) : Nat := if a = 0 then b else if b = 0 then a else min a b

/-- A frame in progress on the two-wire port is abandoned with an outcome. -/
def State.twAbandon (s : State) (code : Nat) : State :=
  match s.tw.frame, s.tw.wakeFrame with
  | some fr, _ => s.twOutcome fr.fn fr.bytes (firstRow fr.code code)
  | none, some f => s.twOutcome f 1 code
  | none, none => s

/-! ### Attention attempts (R205, R208) -/

/-- `TW_ATTN_STAT` records the outcome of the attempt of function `f`. -/
def State.attnStat (s : State) (f : Fn) (tryNo code : Nat) : State :=
  s.put TW_ATTN_STAT.w (f.toNat * 0x1000 + s.fget f ATTN_ACK.SEQ * 0x100 + min tryNo 15 * 0x10 + code)

/-- The outstanding message of a function ends. -/
def State.attnOver (s : State) (f : Fn) : State :=
  let e := s.eng f
  let s := s.setEng f { e with attn := { e.attn with due := false, backoff := false } }
  (s.fput f ATTN_ACK.OUT 0).fput f ATTN_ACK.FALLBACK 0

/-- The message of a function is withdrawn with no attempt on the bus: CANCELLED with the last try made (R214). -/
def State.attnWithdraw (s : State) (f : Fn) : State := (s.attnStat f (s.fget f ATTN_ACK.TRIES) 4).attnOver f

/-- An attempt has left the bus before a cancel was sampled: the message is withdrawn now (R214). -/
def State.attnSettle (s : State) (f : Fn) : State :=
  if s.tw.cancel then ({ s with tw := { s.tw with cancel := false } } : State).attnWithdraw f else s

/-- The attempt on the bus ends with an outcome; it has counted as a try since its START. Its STOP lets an address change
take effect (R191). -/
def State.attnEnd (s : State) (code : Nat) : State :=
  match s.tw.onBus with
  | some f =>
    let s := s.attnStat f (s.fget f ATTN_ACK.TRIES) code
    let e := s.eng f
    let s := s.setEng f { e with attn := { e.attn with losses := 0 } }
    let s := if code = 8 then s.twEvt TW_EVT.STRETCH else if code = 10 then s.twEvt TW_EVT.VDDIO else s
    let stop : Bool := code = 1 || code = 2 || code = 3 || code = 5
    ({ s with tw := { s.tw with onBus := none, forceDue := s.tw.forceDue && !stop } } : State).attnSettle f
  | none => s

/-- A cancel sampled at a byte boundary of the attempt of a function: STOP, and the message ends (R214). -/
def State.attnLate (s : State) (f : Fn) : State :=
  let s := ({ s with tw := { s.tw with cancel := false } } : State).attnEnd 5
  (s.twEvt TW_EVT.CANCELLED_LATE).attnOver f

end Sys2Proof.Machine
end

