-- ==== Sys2Proof/Machine/Resets.lean ====
section
/-! DEFINITION. Power-on reset, the reset pin, the system reset, the straps and `VDDIO`: what each keeps and what it
loses (spec 02, Table 5.2, R33, R65, R468, R518). -/

namespace Sys2Proof.Machine

open R

/-! ### What is kept -/

/-- The key lies between two registers. -/
def within (a b : Fld) (k : Nat) : Bool := a.key ≤ k && k ≤ b.key

/-- Counters of CORE-stored pages that run since the power-on reset. -/
def sincePor (k : Nat) : Bool :=
  within BOOT_CNT.w BOOT_CNT.w k || within FLINT_REFCNT.w FLINT_REFCNT.w k || within CAL_CNT.w CAL_CNT.w k ||
  within FMR_BLK_L.w FMR_BLK_BAD_H.w k || within DAB_CNT_FIB.w DAB_CNT_SYNC.w k ||
  within LFT_CNT_FRAME.w LFT_CNT_CARLOSS.w k || within EDF_CNT_SEG.w EDF_CNT_REJ.w k ||
  within (AP.CNT_FADE.w 0) (AP.CNT_HARD.w 0) k || within (AP.CNT_FADE.w 1) (AP.CNT_HARD.w 1) k

/-- Registers that show what OTP, Burrow or CONFIG hold: the vault, the calibration margin, the EDF identity and history,
and the health history (R389, R391, R476, R521). -/
def ownStore (k : Nat) : Bool :=
  within FLINT_STAT.w FLINT_STAT.w k || within FLINT_OTP.w FLINT_OTP.w k || within (FLINT_IDPUB.w 0) (FLINT_IDPUB.w 31) k ||
  within CAL_VCO_MARGIN.w CAL_VCO_MARGIN.w k || within EDF_SERIAL_L.w EDF_SERIAL_H.w k ||
  within (EDF_GROUP_ID.w 0) (EDF_CSER.w 7) k || within HLT_STAT.w HLT_LIFE.w k || within HLT_SVC_L.w HLT_CNT_ECC.w k ||
  within (HLT_MON.w 0) (HLT_MON.w 15) k

/-- The models, the trim and the propagation entries (R361, R371). -/
def modelStore (k : Nat) : Bool :=
  within TIME_TRIM_L.w TIME_TRIM_H.w k || within TIME_X32_RESID.w TIME_AGING.w k || within TIME_MODEL_N.w TIME_SPAN.w k ||
  within (TIME_PROP_ID.w 0) (TIME_PROP_OFS.w 7) k

/-- External flash, and the Burrow user areas, by memory-port address (Table 10.6). -/
def isFlash (a : Nat) : Bool := 0x800000 ≤ a
def isBurrow (a : Nat) : Bool := 0x300000 ≤ a && a < 0x304000

/-! ### Losing CORE (Table 5.2, R33) -/

/-- An object's index as the flash gives it: segments that waited in the SRAM cache are gone (R398). -/
def Obj.rebuilt (o : Obj) : Obj :=
  { o with blks := o.blks.map (fun b =>
      { b with segs := b.segs.filter (fun g => g.sector.isSome), complete := b.complete && b.segs.all (fun g => g.sector.isSome) }) }

/-- The Hoard after a reset: its index rebuilt, the reception's own state gone. -/
def Edf.rebuilt (e : Edf) : Edf :=
  { e with
    objs := (e.objs.map Obj.rebuilt).filter (fun o => o.state != 1 || o.held != 0 || o.store.isSome || o.done != 0),
    asm := none, stats := [], carried := [], ended := [] }

/-- A staging under way, one from a stage-form window too, is left to its journal; the window and a fuse operation are gone
(R156). -/
def Img.cut (i : Img) : Img :=
  let win : Bool := i.winLen != 0 && decide (i.winTarget < 2)
  { i with
    staging := false, held := [], journal := i.journal || i.staging || win, srcWin := if win then true else i.srcWin,
    target := if win then i.winTarget else i.target, fuse := none, winLen := 0, winTarget := 0, winPos := 0 }

/-- The reset addresses of the two-wire port follow the `ROLE` latch (R189, R190). -/
def State.twDefaults (s : State) : State :=
  let (a, b, c) := if s.pins.role then (0xDDDC, 0xDFDE, 0x5C) else (0xD9D8, 0xDBDA, 0x58)
  ((s.put TW_FADDR01.w a).put TW_FADDR23.w b).put TW_ADDR.w c

/-- What CORE-stored registers, Marten's SRAM and the blocks of R33 hold is lost: CORE registers take their reset values
but for counters since the power-on reset and what OTP, Burrow and CONFIG hold. Attention messages, records still held
and the slot table stay (R20, R518, R520), and so do the two-wire port's stuck-bus count and bus-dead latch (log entry 185). -/
def State.coreLost (s : State) : State :=
  let eng (e : FnEng) : FnEng := { FnEng.start with
    held := e.held, twPtr := e.twPtr,
    attn := { e.attn with losses := 0, due := e.attn.due || e.attn.backoff, backoff := false, carried := true } }
  let pl (p : PlanEng) : PlanEng := { PlanEng.start with plan := p.plan }
  let s := s.resetRegs (fun k => !isAon k && !sincePor k && !ownStore k)
  let s := s.dropMem (fun a => !isFlash a && !isBurrow a)
  let s : State := { s with
    spi := ⟨none, false⟩, tw := { Tw.start with pulses := s.tw.pulses, dead := s.tw.dead, evtHeld := s.tw.evtHeld },
    fns := ⟨eng s.fns.f0, eng s.fns.f1, eng s.fns.f2, eng s.fns.f3⟩,
    plans := ⟨pl s.plans.f0, pl s.plans.f1, pl s.plans.f2, pl s.plans.f3⟩,
    sched := { s.sched with queue := [], running := [], readmit := false, dirty := false, devE := 0, sizes := [] },
    fe := { Fe.start with bases := s.fe.bases, calRec := s.fe.calRec, calGood := s.fe.calGood, bands := s.fe.bands },
    fm := Fm.start, dab := Dab.start, lf := Lf.start, edf := s.edf.rebuilt, ap := Ports.start, bph := Bph.start,
    capt := { Capt.start with stores := s.capt.stores }, img := s.img.cut, hlt := { s.hlt with hbArmed := false, due := false } }
  let s := ((s.putAll FN_STATE.RESET_BUSY 0).putAll FN_STATE.PLOCK 0).putAll FN_STATE.FB_PEND 0
  ((s.put HLT_STAT.SAMPLING 0).twDefaults.setBases s.fe.bases).showEdf

/-- CORE starts on HFRC with XO enabled beside it (R69). -/
def State.coreStart (s : State) : State :=
  let s := ((s.put CLK_STAT.XO_OK 0).put CLK_STAT.PLL_LOCK 0).put CLK_STAT.CORE_SRC 0
  ({ s with pwr := s.pwr.cutPart } : State).xoStart

/-- BOOT is entered, for a cause of Table 21.2. -/
def State.bootEntry (s : State) (cause : Nat) (wait : Bool) : State :=
  let s := (((s.put MODE.MAINTAIN_ACT 0).put MODE.CAPTURE_ACT 0).put MODE.LISTEN_ACT 0).put MODE.SLOT_ACT 0
  let s := (((s.put MODE.IDLE 0).put MODE.AWAKE 0).put MODE.CUR 3).inc BOOT_CNT.ALL
  let s : State := { s with
    mode := { s.mode with
      ready := false, resting := false, entering := false, waking := none, delayed := none, restNow := false },
    boot := { Boot.start with
      hedgehog := !wait && !s.pins.strapDue && !s.pins.test, startWait := wait, cause := cause,
      cfgSaved := s.boot.cfgSaved, lastSlot := s.boot.lastSlot } }
  s.coreStart

/-- A reset of every processor and of the blocks of R33, which leaves the AON domain, Burrow, the timebase and the slot
table running; slots in progress are MISSED with NOT_RUNNING once Marten runs again (R20, R33, R468). -/
def State.coldReset (s : State) (cause : Nat) (straps : Bool) : State :=
  let s : State := { s with boot := { s.boot with marten := false }, mode := { s.mode with ready := false } }
  let s := s.probeCut.attnEnd 9
  let s := s.endActivities 4 none
  let s := s.coreLost.resetRegs (fun k => within GPIO0_CFG.w GPIO1_CFG.w k)
  let s : State := { s with latches := [] }
  let s : State := { s with tw := { s.tw with evtHeld := 0 }, pins := { s.pins with
    strapDue := s.pins.strapDue || straps, pulldown := s.pins.pulldown || straps,
    wakeDrive := s.pins.wakeDrive && !straps } }
  let low : Bool := s.get VRES_MEAS.w < 2300
  let s := s.bootEntry cause low
  if low then s.chgState 3 else s

/-- A system reset: the straps are not sampled again (R468). -/
def State.systemReset (s : State) (cause : Nat) : State := s.coldReset cause false

/-- `SYS_WDOG` (R468). -/
def execSysWdog (s : State) : Host.Outcome State Fault Refusal :=
  .next (if s.coreRuns ∧ ¬ s.boot.startWait then (s.inc HLT_CNT_SYS.w).systemReset 9 else s)

/-! ### Power-on reset and SHUTDOWN (Table 5.2, R51, R65, R371) -/

/-- Health state after a power loss: the history of R476 is kept; what only Burrow holds goes with Burrow. -/
def Hlt.kept (h : Hlt) (burrow raise : Bool) : Hlt :=
  { Hlt.start with
    mons := if burrow then h.mons else h.mons.map (fun m => { m with span := [] }),
    sags := if burrow then h.sags else [], resFaults := if burrow then h.resFaults else [],
    xoFails := if burrow then h.xoFails else [], ecc := if burrow then h.ecc else [],
    eccBad := if burrow then h.eccBad else [], flashErr := if burrow then h.flashErr else [],
    faults := if burrow then h.faults else [], used := if burrow then h.used else [],
    lowVbat := if burrow then h.lowVbat else none, day := if burrow then h.day else none,
    partner := h.partner && burrow, ownPrev := h.ownPrev, partnerPrev := h.partnerPrev, selfBand := h.selfBand,
    spanNo := h.spanNo, shutMark := h.shutMark, flash := h.flash, raiseDue := raise }

/-- What only Burrow holds is lost: the user areas, the ledger, the reset cause and the counters come from their CONFIG
copies (R51, R469, R521), and so does the checkpoint (R454). -/
def State.burrowLost (s : State) : State :=
  let s := s.dropMem isBurrow
  let s := s.put32 LEDGER_L.w (s.pwr.ledgerFlash.getD 0)
  let (rc, hb, sys, ecc) := s.hlt.flash
  let s := (((s.put HLT_RCAUSE.w rc).put HLT_CNT_HB.w hb).put HLT_CNT_SYS.w sys).put HLT_CNT_ECC.w ecc
  { s with
    pwr := { s.pwr with ledgerAcc := 0 }, hlt := s.hlt.kept false s.hlt.raiseDue, twin := { s.twin with held := s.twin.copy } }

/-- The state after the loss of the AON domain: registers at their reset values, with what OTP, Burrow, CONFIG and the
flash keep. -/
def State.powerLost (s : State) (burrow : Bool) : State :=
  let x32 := s.bit TIME_STAT.X32_MODEL_OK
  let xo := s.bit TIME_STAT.XO_MODEL_OK
  let r : State := { State.reset with
    variantFL := s.variantFL,
    regs := Sparse.drop (fun k => !ownStore k && !modelStore k && !within LEDGER_L.w LEDGER_H.w k) s.regs,
    mem := Sparse.drop (fun a => !isFlash a && !isBurrow a) s.mem,
    pins := { Pins.start with vddio := s.pins.vddio, hbPulses := s.pins.hbPulses, twrstPulses := s.pins.twrstPulses,
                              timePulses := s.pins.timePulses },
    pwr := { Pwr.start with ledgerAcc := s.pwr.ledgerAcc, ledgerFlash := s.pwr.ledgerFlash, initFlash := s.pwr.initFlash },
    boot := { Boot.start with cfgSaved := s.boot.cfgSaved },
    flint := s.flint, img := s.img.cut,
    sched := { Sched.start with snapshot := s.sched.snapshot, snapRegs := s.sched.snapRegs },
    fe := { Fe.start with bases := s.fe.bases, calRec := s.fe.calRec, calGood := s.fe.calGood, bands := s.fe.bands },
    time := { TimeEng.start with x32Fed := s.time.x32Fed, xoFed := s.time.xoFed, lastPair := s.time.lastPair,
                                 a0s := s.time.a0s },
    edf := s.edf.rebuilt, capt := { Capt.start with stores := s.capt.stores },
    twin := { Twin.start with held := s.twin.held, copy := s.twin.copy },
    hlt := s.hlt.kept true (s.bit HLT_STAT.REPLACE), hostOut := s.hostOut, freeCtr := s.freeCtr, pending := s.pending }
  let r := (r.putBit TIME_STAT.X32_MODEL_OK x32).putBit TIME_STAT.XO_MODEL_OK xo
  let r := (r.put RES_C_INIT.w (s.pwr.initFlash.1.getD 0)).put RES_LEAK_INIT.w (s.pwr.initFlash.2.getD 0)
  let r := if burrow then r else r.burrowLost
  ((r.put HLT_STAT.SAMPLING 0).putBit TWIN_STAT.CKPT_VALID r.twin.held.isSome).setBases r.fe.bases |>.showEdf

/-- `POWER_ON_RESET`: `VBAT` has fallen below 1.95 V, to `vbatMin` mV; Burrow survives from 1.80 V up (R65). The cause
tells which until the boot records it. -/
def execPowerOnReset (vbatMin : Nat) (s : State) : Host.Outcome State Fault Refusal :=
  .next (
    let gone : Bool := decide (s.boot.cause = 1 ∧ (s.pins.porAsserted ∨ s.get MODE.CUR = 0))
    let burrow : Bool := decide (1800 ≤ vbatMin) && !gone
    let s := s.powerLost burrow
    { s with boot := { s.boot with cause := if burrow then 2 else 1 } })

/-- The always-on domain starts: X32 starting, the straps due, the charger in START, Hedgehog waiting (R25, R30, R46). -/
def State.powerUp (s : State) : State :=
  let s : State := { s with pins := { s.pins with porAsserted := false, pulldown := true, strapDue := true } }
  (s.bootEntry (if s.boot.cause = 0 then 1 else s.boot.cause) true).chgState 3

/-- A pin reset. From SHUTDOWN it starts the always-on domain too, since Table 5.9 has it enter BOOT from any mode (log entry
35). -/
def State.pinReset (s : State) : State :=
  if s.get MODE.CUR = 0 then ({ s with boot := { s.boot with cause := 3 } } : State).powerUp else s.coldReset 3 true

/-- `PIN_RESET`: a pulse of 10 µs or more; from 2 µs to 10 µs it is open whether the pulse acts (R33). In power-on reset the
pin does nothing. -/
def execPinReset (lowUs : Nat) (s : State) : Host.Outcome State Fault Refusal :=
  .next (if s.pins.porAsserted ∨ lowUs < 2 then s
    else if 10 ≤ lowUs then s.pinReset
    else
      let (w, s) := s.fresh
      if w = 0 then s else s.pinReset)

/-- `POWER_ON_RESET_RELEASE` (R25). -/
def execPowerOnResetRelease (s : State) : Host.Outcome State Fault Refusal := .next (if s.pins.porAsserted then s.powerUp else s)

/-- `STRAP_SAMPLE`: `ROLE` and `TEST` are latched (R30 to R32, R189); in factory test `WAKE_N` stays released. -/
def execStrapSample (role test : Bool) (s : State) : Host.Outcome State Fault Refusal :=
  .next (if s.pins.strapDue ∧ ¬ s.pins.porAsserted ∧ s.get MODE.CUR ≠ 0 then
    let s : State := { s with
      pins := { s.pins with
        role := role, test := test, pulldown := false, strapDue := false, wakeDrive := s.pins.wakeDrive && !test },
      boot := { s.boot with hedgehog := !test && !s.boot.startWait } }
    (s.putAll FN_ID.UNIT (if role then 1 else 0)).twDefaults
  else s)

/-! ### `VDDIO` (R29) -/

/-- A port stops at once and does not start again in this capture (Table 18.4). -/
def State.barPort (s : State) (p : AudioPort) : State :=
  if (s.port p).run then
    let s := s.stopPort p 3
    s.setPort p { s.port p with barred := true }
  else s

/-- `VDDIO_RETURN`. -/
def execVddioReturn (s : State) : Host.Outcome State Fault Refusal :=
  .next (if ¬ s.pins.vddio then
    (({ s with pins := { s.pins with vddio := true } } : State).raise1 jHOSTPORT_ERROR).raise1 jTW_ERROR
  else s)

end Sys2Proof.Machine
end

