-- ==== Sys2Proof/Machine/Secure.lean ====
section
/-! DEFINITION. Secure start: the cold boot, verification of the Marten and Pika images, what a boot's end sets, HOST-LOAD
wait and the reload of Marten (spec 06, R466 to R470). -/

namespace Sys2Proof.Machine

open R

/-! ### Manifests (R114, R116, R147) -/

/-- Memory-port address of an image source: slot A, slot B, and the image window for a host-load. -/
def slotBase (slot : Nat) : Nat := if slot = 2 then 0x400000 else 0x800000 + 0x100000 * (slot % 2)

/-- Block count, signer index, entry offset and `dsp_epoch` of the manifest at an address. -/
def State.manBlocks (s : State) (base : Nat) : Nat := s.le (base + 0x1C) 2
def State.manSigner (s : State) (base : Nat) : Nat := s.le (base + 6) 1
def State.manEpoch (s : State) (base : Nat) : Nat := s.le (base + 0x14) 1

/-- The most blocks an image of a kind may have. -/
def maxBlocks : Nat → Nat
  | 1 => 64
  | 2 => 48
  | _ => 16

/-- Structural fault of the header area at `base` for an image of a kind: a code of Table 6.6, 0 for none. -/
def State.headFault (s : State) (base kind : Nat) : Nat :=
  let n := s.manBlocks base
  let bytes := 0x1000 * n
  if s.bytes base 5 ≠ [0x4B, 0x52, 0x4B, 0x4D, 0x01] then 0x11
  else if s.le (base + 5) 1 ≠ kind then 0x12
  else if 4 ≤ s.manSigner base ∨ s.le (base + 0x18) 4 ≠ 4096 ∨ n = 0 ∨ maxBlocks kind < n then 0x13
  else if kind ≠ 4 ∧ (bytes ≤ s.le (base + 0x24) 4 ∨ bytes < s.le (base + 0x28) 4 ∨
      ¬ Config.loadFits kind (s.le (base + 0x20) 4) bytes) then 0x13
  else if 0x000C < s.le (base + 0x10) 2 ∨ s.le (base + 0x12) 2 < 0x000C then 0x14
  else 0

/-- What the check of an image's key and signature gives: 0, or a code of Table 6.6 (R117, R135, R146). -/
def State.signFault (s : State) (base : Nat) : Nat :=
  let i := s.manSigner base % 4
  let key := s.bytes (base + 0xA00) 64
  if ¬ s.bitOf FLINT_OTP.HASH_SET i ∨ Crypto.sha256 key ≠ s.flint.hashes.getD i [] then 0x20
  else if s.bitOf FLINT_OTP.REVOKED i then 0x21
  else if ¬ Crypto.ecdsaOk key (Crypto.sha256 (s.bytes base (0x200 + 32 * s.manBlocks base))) (s.bytes (base + 0xA40) 64) then 0x22
  else 0

/-- Block `i` hashes to its entry in the hash table (R117, R145). -/
def State.blockGood (s : State) (base i : Nat) : Bool :=
  Crypto.sha256 (s.bytes (base + 0x1000 * (i + 1)) 0x1000) == s.bytes (base + 0x200 + 32 * i) 32

/-- The whole check of R117 over an image of a kind: 1, or the code of Table 6.6. -/
def State.imageFault (s : State) (base kind : Nat) : Nat :=
  let h := s.headFault base kind
  let g := s.signFault base
  if h ≠ 0 then h
  else if g ≠ 0 then g
  else if (List.range (s.manBlocks base)).all (s.blockGood base) then 1
  else 0x23

/-- The manifest and the hash table of an image, as Hedgehog keeps them. -/
def State.loadTable (s : State) (base : Nat) : State :=
  { s with boot := { s.boot with table := s.bytes base (0x200 + 32 * s.manBlocks base) } }

/-- The signer index of the running Marten image, and its version with its build. -/
def State.runSigner (s : State) : Nat := (s.boot.table.getD 6 0).toNat
def State.runVersion (s : State) : List Byte := (s.boot.table.drop 8).take 8

/-- Address of the Pika header area, and of the bundle's, of the source at `base` (Table 6.2). -/
def State.pikaBase (s : State) (base : Nat) : Nat := base + 0x1000 * (s.manBlocks base + 1)
def State.bundleBase (s : State) (base : Nat) : Nat :=
  let p := s.pikaBase base
  p + (if s.bytes p 4 = [0x4B, 0x52, 0x4B, 0x4D] ∧ s.le (p + 5) 1 = 2 then 0x1000 * (s.manBlocks p + 1) else 0)

/-- Source of the running image. -/
def State.runBase (s : State) : Nat := slotBase (s.get BOOT_STAT.SRC)

/-- The version registers show the manifest at `base`; `ver` is the first of the group. -/
def State.showVersion (s : State) (ver base : Nat) : State :=
  let put (k v : Nat) (s : State) : State := s.setReg k (BitVec.ofNat 16 v)
  let s := put ver (s.le (base + 8) 1 * 0x100 + s.le (base + 9) 1) s
  let s := put (ver + 1) (s.le (base + 0xA) 2) s
  put (ver + 3) (s.le (base + 0xE) 2) (put (ver + 2) (s.le (base + 0xC) 2) s)

/-- `IMG_x_INFO` and the version registers of a slot; a version reads 0 where there is no manifest. -/
def State.showSlot (s : State) (slot st fault : Nat) : State :=
  let base := slotBase slot
  let k := if slot = 0 then IMG_A_INFO.w.key else IMG_B_INFO.w.key
  let s := s.setReg k (BitVec.ofNat 16 (st * 0x4000 + (if st = 0 then 0 else s.manSigner base % 4) * 0x1000 + fault))
  if s.bytes base 5 = [0x4B, 0x52, 0x4B, 0x4D, 0x01] then s.showVersion (k - 4) base else s.zeroRegs (k - 4) 4

/-- State of `IMG_x_INFO` for a code of Table 6.6 found over the whole image. -/
def slotState (fault : Nat) : Nat := if fault = 1 then 2 else 3

/-! ### The attempts of R124 -/

/-- Code of a slot in `BOOT_FAULT`. -/
def State.slotFault (s : State) (slot : Nat) : Nat := s.get (if slot = 0 then BOOT_FAULT.SLOT_A else BOOT_FAULT.SLOT_B)
def State.setFault (s : State) (slot code : Nat) : State :=
  if slot = 2 then s else s.put (if slot = 0 then BOOT_FAULT.SLOT_A else BOOT_FAULT.SLOT_B) code

/-- The next attempt whose header area passes; with none left the flash channel has failed. -/
def State.tryOrder (s : State) : List (Nat × Bool) → State
  | [] => { s with boot := { s.boot with attempt := none, order := [], blocks := [], sig := none, loaded := false } }
  | (slot, trusted) :: l =>
    let code := s.headFault (slotBase slot) 1
    if ¬ trusted ∧ s.slotFault slot < 0x20 then s.tryOrder l
    else if code ≠ 0 then (s.setFault slot code).tryOrder l
    else { s with boot := { s.boot with
      attempt := some (slot, trusted), order := l, blocks := [], sig := none, loaded := false } }

/-- The flash channel starts with a preferred slot (R124). -/
def State.flashChannel (s : State) (pref : Nat) : State :=
  let s := (s.put BOOT_FAULT.w 0).put BOOT_FBLK.w 0xFFFF
  let s : State := { s with boot := { s.boot with pref := pref } }
  s.tryOrder [(pref, true), (1 - pref, true), (pref, false), (1 - pref, false)]

/-- A released Marten is held in reset, and its start-up calibration ends. -/
def State.holdMarten (s : State) : State :=
  if s.boot.marten then
    let s := (s.put BOOT_STAT.STAGE 1).dropCal.showMaintain
    { s with boot := { s.boot with marten := false }, hlt := { s.hlt with hbArmed := false } }
  else s

/-- The attempt fails with a code; a released Marten is held and its SRAM cleared (R138, R140). -/
def State.failAttempt (s : State) (slot code : Nat) : State :=
  let s := (s.setFault slot code).holdMarten
  s.tryOrder s.boot.order

/-! ### Pika (R120, R122, R161) -/

/-- Pika is unavailable. -/
def State.pikaGone (s : State) : State :=
  { s.put BOOT_STAT.PIKA 3 with boot := { s.boot with pikaVerified := false } }

/-- The header area of the running source's Pika image is read and its blocks start to stream. -/
def State.pikaStart (s : State) (base : Nat) : State :=
  let p := s.pikaBase base
  if s.headFault p 2 ≠ 0 then s.pikaGone
  else
    let s := (s.put IMG_EPOCH.PIKA (s.manEpoch p)).put BOOT_STAT.PIKA 1
    { s with boot := { s.boot with blocks := [], sig := none, pikaVerified := false } }

/-- Every Marten block is verified or loaded; Pika follows unless it is deferred. -/
def State.martenLoaded (s : State) (slot : Nat) (trusted : Bool) : State :=
  let s := if trusted then (s.setFault slot 1).put BOOT_STAT.ALL_VERIFIED 1 else s
  let s : State := { s with boot := { s.boot with loaded := true } }
  if s.boot.cfg / 2 % 2 = 1 then s else s.pikaStart (slotBase slot)

/-- Index of the first block that has failed its comparison. -/
def badBlock (l : List (Nat × Bool)) : Option Nat := (l.find? (fun b => !b.2)).map Prod.fst

/-- Compares the blocks that have arrived, in block order, once a signature has passed (R118). -/
def State.compare (s : State) : State :=
  match s.boot.attempt with
  | some (slot, trusted) =>
    if s.boot.loaded then
      let full : Bool := s.boot.blocks.length == s.manBlocks (s.pikaBase (slotBase slot))
      if trusted then
        if s.boot.sig ≠ some true then s
        else if (badBlock s.boot.blocks).isSome then s.pikaGone
        else { s with boot := { s.boot with pikaVerified := full } }
      else { s with boot := { s.boot with pikaVerified := full } }
    else
      let full : Bool := s.boot.blocks.length == s.manBlocks (slotBase slot)
      if trusted then
        if s.boot.sig ≠ some true then s
        else match badBlock s.boot.blocks with
          | some i => (s.put BOOT_FBLK.w i).failAttempt slot 0x23
          | none => if full then s.martenLoaded slot true else s
      else if full then s.martenLoaded slot false else s
  | none => s

/-- An image is streaming: Marten's, or Pika's behind it. -/
def State.streaming (s : State) : Bool :=
  s.boot.attempt.isSome && (!s.boot.loaded || (s.get BOOT_STAT.PIKA == 1 && !s.boot.pikaVerified))

/-- Address of the header area whose image streams. -/
def State.streamBase (s : State) (slot : Nat) : Nat := if s.boot.loaded then s.pikaBase (slotBase slot) else slotBase slot

/-- `IMAGE_BLOCK_ARRIVES`: the next block in order arrives and is hashed. -/
def execImageBlockArrives (idx : Nat) (s : State) : Host.Outcome State Fault Refusal :=
  .next (match s.boot.attempt with
    | some (slot, _) =>
      if s.streaming ∧ idx = s.boot.blocks.length then
        let ok := s.blockGood (s.streamBase slot) idx
        ({ s with boot := { s.boot with blocks := s.boot.blocks ++ [(idx, ok)] } } : State).compare
      else s
    | none => s)

/-- `SIGNATURE_CHECK_DONE`: the check of the issuer key, its fuse and the signature ends (R117, R146). -/
def execSignatureCheckDone (s : State) : Host.Outcome State Fault Refusal :=
  .next (match s.boot.attempt with
    | some (slot, true) =>
      if s.streaming ∧ s.boot.sig = none then
        let code := s.signFault (s.streamBase slot)
        if code = 0 then ({ s with boot := { s.boot with sig := some true } } : State).compare
        else if s.boot.loaded then s.pikaGone
        else s.failAttempt slot code
      else s
    | _ => s)

/-- `QSPI_TIMEOUT` (R140). -/
def execQspiTimeout (s : State) : Host.Outcome State Fault Refusal :=
  .next (if s.streaming then
    match s.boot.attempt with
    | some (slot, _) => if s.boot.loaded then s.noteFlash.pikaGone else s.noteFlash.failAttempt slot 0x10
    | none => s
  else s)

/-! ### Marten (R119, R125, R139) -/

/-- Marten may be released. -/
def State.mayRelease (s : State) (slot : Nat) (trusted : Bool) : Bool :=
  let early := s.le (slotBase slot + 0x28) 4
  s.boot.loaded ||
  (trusted && s.boot.cfg % 2 == 1 && !s.boot.earlyOff && early != 0 && s.boot.sig == some true &&
    decide (early ≤ 0x1000 * s.boot.blocks.length))

/-- Start-up calibration's decision (R121), over the record, the temperature and the age. Where several conditions fail, the
first of this order is shown (log entry 176). -/
def State.calWhy (s : State) : Nat :=
  match s.fe.calRec with
  | none => 1
  | some (t, sec) =>
    if 120 < (s.time.temp - t).natAbs then 2
    else if s.time.src = 0 ∨ codeOf s.time.whole = 31 then 4
    else if sec + 30 * 86400 ≤ s.sec then 3
    else if s.boot.cfg / 4 % 2 = 1 then 5
    else 0

/-- The calibration record is shown again after a loss of CORE. -/
def State.showCalRec (s : State) : State :=
  match s.fe.calRec with
  | some (t, _) => ((s.put CAL_STAT.REC_VALID 1).put CAL_REC_TEMP.w (code16 t)).showCalAge
  | none => s.showCalAge

/-- A boot-form window that no boot has run is closed when an image from flash runs (log entry 177). -/
def State.closeBootWindow (s : State) : State :=
  if s.img.winLen ≠ 0 ∧ ¬ s.bit IMG_HL_STAT.FORM then
    let s := s.dropMem (fun x => 0x400000 ≤ x && x < 0x500000)
    ({ s with img := { s.img with winLen := 0, winPos := 0 } } : State).put IMG_HL_STAT.w 0
  else s

/-- `MARTEN_RELEASE`: Marten runs; the heartbeat check is armed and start-up calibration is decided. The time since the
trigger is not counted in this model (log entry 26). -/
def execMartenRelease (s : State) : Host.Outcome State Fault Refusal :=
  .next (match s.boot.attempt with
    | some (slot, trusted) =>
      if ¬ s.boot.marten ∧ s.mayRelease slot trusted then
        let (w, s) := s.fresh
        let s := ((s.put BOOT_TIME_M.w w.toNat).put BOOT_STAT.STAGE 2).put BOOT_STAT.SRC slot
        let s := s.put MODE.CUR 3
        let s := (s.showVersion IMG_RUN_VER.w.key (slotBase slot)).put IMG_EPOCH.MARTEN (s.manEpoch (slotBase slot))
        let s := (s.loadTable (slotBase slot)).closeBootWindow
        let s : State := { s with
          boot := { s.boot with marten := true }, hlt := { s.hlt with hbArmed := true },
          mode := { s.mode with ready := false } }
        let why := s.calWhy
        let s := (s.put BOOT_STAT.CAL_WHY why).showCalRec
        if why = 0 then s else s.calStart 0x7F false
      else s
    | none => s)

/-- `HEDGEHOG_FAULT`: early release is off for the rest of this boot (R139). -/
def execHedgehogFault (s : State) : Host.Outcome State Fault Refusal :=
  .next (match s.boot.attempt with
    | some (_, true) =>
      if s.boot.marten ∧ ¬ s.boot.loaded then
        let s := (s.put BOOT_STAT.EARLY_REDO 1).holdMarten
        { s with boot := { s.boot with earlyOff := true } }
      else s
    | _ => s)

/-- `PIKA_GO`: equal, non-zero epochs release Pika for starting; else COMPAT (R161). -/
def execPikaGo (s : State) : Host.Outcome State Fault Refusal :=
  .next (if s.boot.marten ∧ s.get BOOT_STAT.PIKA = 1 ∧ ¬ s.boot.pikaGo then
    let m := s.get IMG_EPOCH.MARTEN
    let p := s.get IMG_EPOCH.PIKA
    if m = p ∧ m ≠ 0 then ({ s with boot := { s.boot with pikaGo := true } } : State).putAll FN_STATE.COMPAT 0
    else (s.pikaGone.putAll FN_STATE.COMPAT 1).security
  else s)

/-- Pika may be powered: not on a standby unit, but for its self-test (R19). -/
def State.pikaAllowed (s : State) : Bool := s.runsPlans || s.testing

/-- `PIKA_RELEASE`: Pika runs from the core PLL (R120, R85). -/
def execPikaRelease (s : State) : Host.Outcome State Fault Refusal :=
  .next (if s.boot.pikaVerified ∧ s.boot.pikaGo ∧ s.get BOOT_STAT.PIKA = 1 ∧ s.bit CLK_STAT.PLL_LOCK ∧ s.pikaAllowed then
    s.put BOOT_STAT.PIKA 2 else s)

/-- The source of the running image can still be read: a slot, or the image window while it holds that image. -/
def State.sourceStands (s : State) : Bool :=
  decide (s.get BOOT_STAT.SRC < 2) || (s.get BOOT_STAT.SRC == 2 && s.get IMG_HL_STAT.STATE == 3 && !s.bit IMG_HL_STAT.FORM)

/-- `PIKA_DEFERRED_LOAD`: the first demand, at boot's end or after a rest, loads and verifies the Pika image of the running
source; `readOk` says that its blocks are read without a QSPI timeout (R122). -/
def execPikaDeferredLoad (readOk : Bool) (s : State) : Host.Outcome State Fault Refusal :=
  .next (if s.awake ∧ s.get BOOT_STAT.PIKA = 0 ∧ s.sourceStands ∧ s.pikaAllowed then
    let p := s.pikaBase s.runBase
    let s := s.pikaStart s.runBase
    if s.get BOOT_STAT.PIKA = 3 then s
    else if ¬ readOk then s.noteFlash.pikaGone
    else if ¬ s.bit BOOT_STAT.TRUSTED ∨ s.imageFault p 2 = 1 then
      { s with boot := { s.boot with pikaVerified := true, pikaGo := false } }
    else s.pikaGone
  else s)

/-- The identity key is present and the device secret that wraps it is intact. -/
def State.showIdent (s : State) : State :=
  let on : Bool := s.flint.secretOk && s.flint.identPub != []
  let s := s.putBit FLINT_STAT.IDENT_OK on
  (List.range 32).foldl (fun s i => s.setReg (FLINT_IDPUB.w i).key (if on then s.flint.identPub.getD i 0 else 0)) s

/-- `IDENTITY_KEY_GENERATE`: at a trusted boot with the identity slot blank; `ok` says whether programming succeeds
(R134). -/
def execIdentityKeyGenerate (ok : Bool) (pub : List Word) (s : State) : Host.Outcome State Fault Refusal :=
  .next (match s.boot.attempt with
    | some (_, true) =>
      if s.boot.marten ∧ s.boot.loaded ∧ s.get BOOT_STAT.STAGE = 2 ∧ s.flint.identBlank ∧ s.flint.secretOk ∧
          ¬ s.boot.identDone then
        let s : State := { s with
          boot := { s.boot with identDone := true },
          flint := if ok then { s.flint with identBlank := false, identPub := pub.take 32 } else s.flint }
        s.showIdent
      else s
    | _ => s)

/-! ### The start and the end of a boot (Table 6.3, R144, R469, R470) -/

/-- A cause of Table 21.2 is recorded (R469). -/
def State.recordCause (s : State) (code : Nat) : State :=
  let s := s.put HLT_RCAUSE.w (s.get HLT_RCAUSE.w % 0x100 * 0x100 + code)
  let s := s.put32 HLT_RTIME_L.w 0
  ({ s with hlt := { s.hlt with resetDue := s.hlt.resetDue ++ [code], rtimeDue := true } } : State).noteRtime

/-- The reset cause that Hedgehog finds: a power-on reset with the shutdown mark is a shutdown exit. -/
def State.foundCause (s : State) (burrowOk : Bool) : Nat :=
  if s.boot.cause = 1 ∨ s.boot.cause = 2 then
    if s.hlt.shutMark then 4 else if s.boot.cause = 2 ∧ burrowOk then 2 else 1
  else s.boot.cause

/-- The `BOOT_PREF` record returns to its earlier slot at the boot that ONCE chose (R151). -/
def State.prefReturn (s : State) : State :=
  let i := s.img
  let s : State := if i.prefOnce then { s with img := { i with prefSlot := i.prefReturn, prefOnce := false } } else s
  s.put IMG_PREF.w s.img.prefSlot

/-- What step 4 of Table 6.3 reads: an unreadable `BOOT_PREF` record prefers slot A (R124), an invalid copy of `BOOT_CFG` or
none gives its reset value (R137); a calibration record that fails its integrity check is none (R121). -/
def State.readConfig (s : State) (prefOk cfgOk calOk : Bool) : State :=
  let i := s.img
  let s : State := { s with
    img := if prefOk then i else { i with prefSlot := 0, prefOnce := false },
    boot := { s.boot with cfgSaved := if cfgOk then s.boot.cfgSaved else none },
    fe := { s.fe with calRec := if calOk then s.fe.calRec else none } }
  let s := s.put BOOT_CFG.w (s.boot.cfgSaved.getD 1)
  { s with boot := { s.boot with cfg := s.get BOOT_CFG.w } }

/-- `COLD_BOOT_START`: steps 2 to 6 of Table 6.3, up to the first header area that passes. The operands say what passes its
integrity check: Burrow, the OTP device secret, the `BOOT_PREF` record, the saved `BOOT_CFG` and the calibration record. A new
retention tag key is drawn (R132). -/
def execColdBootStart (burrowOk secretOk prefOk cfgOk calOk : Bool) (s : State) : Host.Outcome State Fault Refusal :=
  .next (if s.boot.hedgehog ∧ s.get MODE.CUR = 3 ∧ s.get BOOT_STAT.STAGE = 0 ∧ ¬ s.boot.startWait ∧ s.boot.attempt = none then
    let code := s.foundCause burrowOk
    let s := if s.boot.cause = 2 ∧ ¬ burrowOk then
        let s := s.burrowLost
        ({ s with hlt := { s.hlt with eccBad := bump s.dayNo s.hlt.eccBad } } : State).inc HLT_CNT_ECC.w
      else s
    let s := s.recordCause code
    let (w, s) := s.fresh
    let s : State := { s with
      hlt := { s.hlt with shutMark := false }, flint := { s.flint with secretOk := secretOk, tagKey := w.toNat },
      boot := { s.boot with marten := false, pikaGo := false, pikaVerified := false } }
    let s := ((s.put BOOT_TIME_M.w 0xFFFF).put BOOT_TIME_R.w 0xFFFF).readConfig prefOk cfgOk calOk
    let s := (s.put BOOT_STAT.w 1).put BOOT_STAT.SRC 3
    let pref := s.img.prefSlot
    s.prefReturn.showIdent.flashChannel pref
  else s)

/-- Records that waited for Marten are written, unless the function's reset still runs (R20, R520). -/
def State.releaseHeld (s : State) (f : Fn) : State :=
  if s.fget f FN_STATE.RESET_BUSY = 1 then s
  else
    let l := (s.eng f).held
    let s := s.setEng f { s.eng f with held := [] }
    l.foldl (fun s r => s.writeRec f r) s

/-- The watch of an undecided unit starts (R447, R513). -/
def State.twinWatch (s : State) : State := { s with twin := { s.twin with watching := true, pulseAt := s.aon } }

/-- STATUS16 READY becomes 1: Marten serves the ports, what waited for it is written, and the mode is the one R88 and R89
select; an undecided unit starts its watch (R447). -/
def State.becomeReady (s : State) : State :=
  let s := (s.put MODE.AWAKE 1).put MODE.MATCH_ON 0
  let s : State := { s with
    mode := { s.mode with ready := true, resting := false, entering := false, waking := none, delayed := none },
    hlt := { s.hlt with hbArmed := true }, boot := { s.boot with marten := true } }
  let s := if s.get MODE.CUR = 3 then s.put MODE.CUR s.restMode else s
  let s := if s.get TWIN_STAT.w / 0x2000 = 4 ∧ ¬ s.twin.watching then s.twinWatch else s
  let s := s.put TW_EVT.w (s.get TW_EVT.w ||| s.tw.evtHeld)
  let s : State := { s with tw := { s.tw with evtHeld := 0 } }
  ((s.eachFn (fun s f => s.releaseHeld f) allFns).holdDue).updMode

/-- BOOT_EVENT at the end of a boot that is not clean (R144). -/
def State.bootEvent (s : State) : State :=
  let bad (c : Nat) : Bool := c != 0 && c != 1
  if s.boot.eventDue ∨ s.get BOOT_STAT.SRC ≠ s.boot.pref ∨ ¬ s.bit BOOT_STAT.TRUSTED ∨ bad (s.slotFault 0) ∨
      bad (s.slotFault 1) ∨ s.bit BOOT_STAT.EARLY_REDO ∨ s.get BOOT_STAT.PIKA = 3 then
    ({ s with boot := { s.boot with eventDue := false } } : State).raise1 jBOOT_EVENT
  else s

/-- Flint is unlocked, or locked for a cause of R133; every lock sets SECURITY. -/
def State.lockFlint (s : State) (cause : Nat) : State :=
  let s := (s.put FLINT_STAT.LOCK_CAUSE cause).putBit FLINT_STAT.LOCKED (cause != 0)
  let s := s.putAll FN_STATE.FLOCK (if cause = 0 then 0 else 1)
  if cause = 0 then s else s.security

/-- Flint's lock follows the boot's outcome (R125, R133). Where the boot ended UNTRUSTED and the device secret fails too, the
cause shown is the secret's (log entry 178). -/
def State.flintLock (s : State) : State :=
  let trusted := s.bit BOOT_STAT.TRUSTED
  let s := s.putAll FN_STATE.UNTRUSTED (if trusted then 0 else 1)
  s.lockFlint (if ¬ s.flint.secretOk then 2 else if trusted then 0 else 1)

/-- The latest nominal start of a watch at or before a KTIME. -/
def lastNominal (w : List Word) (start t : Nat) : Option Nat :=
  if t < start then none
  else if recPeriod w = 0 then some start
  else some (start + (t - start) / (recPeriod w * 2 ^ 24) * (recPeriod w * 2 ^ 24))

/-- The watches of a snapshot or a checkpoint that comes into force at a KTIME. Occurrences whose nominal start has come are
not run again (R24). A watch that was to start at once, its start field 0, has its start on the earlier unit or in the
earlier run, which no record holds: a one-shot counts as run, and a repeating one starts again at once (log entry 179). -/
def State.ofSnapshot (s : State) (l : List (List Word)) : List Watch :=
  l.map (fun w =>
    if recWord w 4 + 0x10000 * recWord w 5 = 0 then
      if recPeriod w = 0 then ⟨w, 0, some 0⟩ else ⟨w, s.draftStart w, none⟩
    else ⟨w, recStart w, lastNominal w (recStart w) s.ktime⟩)

/-- The committed plans come back from the flash snapshot and are admitted again (R106, R266). -/
def State.plansFromFlash (s : State) : State :=
  let s := s.eachFn (fun s f =>
    s.setPlan f { s.plan f with plan := s.ofSnapshot (s.sched.snapshot.getD f.toNat []) }) allFns
  let s : State := { s with sched := { s.sched with timeline := [], cycle := 0, running := [], dirty := false } }
  s.wantReadmit.showPlans

/-- The slot that the boot did not run: its header area is read after READY and its signature checked. -/
def State.readOther (s : State) (slot : Nat) : State :=
  let code := s.slotFault slot
  if code = 0 then
    let h := s.headFault (slotBase slot) 1
    let c := if h ≠ 0 then h else s.signFault (slotBase slot)
    if s.bytes (slotBase slot) 5 = [0xFF, 0xFF, 0xFF, 0xFF, 0xFF] then s.showSlot slot 0 0x11
    else s.showSlot slot (if c = 0 then 1 else 3) (if c = 0 then 1 else c)
  else if s.bytes (slotBase slot) 5 = [0xFF, 0xFF, 0xFF, 0xFF, 0xFF] then s.showSlot slot 0 code
  else s.showSlot slot (slotState code) code

/-- The RESET records of the causes recorded since the last READY, and WDOG for the watchdog causes (R470). -/
def State.resetRecord (s : State) : State :=
  let l := s.hlt.resetDue
  let s : State := { s with hlt := { s.hlt with resetDue := [] } }
  l.foldl (fun s code =>
    let s := s.healthRec 1 code 0 []
    if 6 ≤ code ∧ code ≤ 9 then s.raise1 jWDOG else s) s

/-- A header area with the magic stands at the bundle's place. -/
def State.hasBundle (s : State) (base : Nat) : Bool :=
  decide (s.bytes (s.bundleBase base) 4 = [0x4B, 0x52, 0x4B, 0x4D])

/-- What must have happened before READY: every block verified or loaded, the calibration over, and in a trusted cold boot
the identity key and the bundle dealt with. -/
def State.bootDone (s : State) : Bool :=
  match s.boot.attempt with
  | some (slot, trusted) =>
    s.boot.marten && s.boot.loaded && s.fe.cal.isNone &&
    (!trusted || ((s.boot.bundleDone || s.boot.deep || !s.hasBundle (slotBase slot)) &&
      (s.boot.identDone || !(s.flint.identBlank && s.flint.secretOk))))
  | none => false

/-- Every CORE-stored register that meets `p` takes the value a list gives it, or its reset value. -/
def State.coreFrom (s : State) (p : Nat → Bool) (l : List (Nat × Word)) : State :=
  let s := s.resetRegs (fun k => !isAon k && p k)
  (l.filter (fun e => !isAon e.1 && p e.1)).foldl (fun s e => s.setReg e.1 e.2) s

/-- Registers that show the boot just made: the BOOT page, and of the IMG page the versions, the slots and the epochs. -/
def ofBoot (k : Nat) : Bool := within BOOT_STAT.w BOOT_CNT.w k || within IMG_RUN_VER.w IMG_B_INFO.w k

/-- What a wake from DEEP restores: the saved registers and plans where the running image has the version and build that
saved them; else CORE registers at reset values and plans as after a cold boot (R131). After a failed retention tag nothing
is saved, and registers and plans come from the flash snapshot (R108). The lock stands until the next cold boot (R245). -/
def State.deepRestore (s : State) : State :=
  if s.boot.savedBy ≠ [] ∧ s.boot.savedBy = s.runVersion then s
  else
    let shown := s.regs.filter (fun e => ofBoot e.1)
    let lock := s.get PART_STAT.LOCKED
    let snap : List (Nat × Word) := if s.boot.savedBy = [] then s.sched.snapRegs else []
    let s := (s.coreLost.coreFrom (fun k => !sincePor k && !ownStore k && !ofBoot k) snap).coreFrom ofBoot shown
    let s := (s.put PART_STAT.LOCKED lock).putAll FN_STATE.PLOCK lock
    let s := s.put IMG_PREF.w (s.img.prefSlot + (if s.img.prefOnce then 0x100 else 0))
    s.showIdent.showCalRec.loadTemplates.plansFromFlash

/-- `BOOT_READY`: the boot ends. -/
def execBootReady (s : State) : Host.Outcome State Fault Refusal :=
  .next (if s.get MODE.CUR = 3 ∧ s.get BOOT_STAT.STAGE = 2 ∧ ¬ s.mode.resting then
    if s.boot.reload then
      let s := s.put BOOT_STAT.STAGE 3
      (({ s with boot := { s.boot with reload := false } } : State).becomeReady).resetRecord
    else if s.bootDone then
      let trusted : Bool := match s.boot.attempt with | some (_, t) => t | none => false
      let (w, s) := s.fresh
      let s := ((s.put BOOT_TIME_R.w w.toNat).put BOOT_STAT.STAGE 3).putBit BOOT_STAT.TRUSTED trusted
      let s := if trusted then s else s.inc BOOT_CNT.UNTRUSTED
      let s : State := { s with boot := { s.boot with lastSlot := s.get BOOT_STAT.SRC } }
      let s := s.putAll DEV_STEP.HIF_EPOCH (s.boot.table.getD 0x15 0).toNat
      let s := if s.boot.deep then s.deepRestore else s.loadTemplates.plansFromFlash
      let s : State := { s with boot := { s.boot with deep := false } }
      let s := s.becomeReady.flintLock.resetRecord
      let s := if s.hlt.raiseDue then
          ({ s with hlt := { s.hlt with raiseDue := false } } : State).raiseReplace (s.get HLT_STAT.REASON)
        else s
      (s.bootEvent.readOther 0).readOther 1
    else s
  else s)

/-! ### HOST-LOAD wait (R127, R128, R162) -/

/-- `HOST_LOAD_WAIT`: nothing is loadable. A bad device secret locks Flint here too (R133). -/
def execHostLoadWait (s : State) : Host.Outcome State Fault Refusal :=
  .next (if s.boot.hedgehog ∧ s.get MODE.CUR = 3 ∧ s.get BOOT_STAT.STAGE = 1 ∧ s.boot.attempt = none then
    let s := ((s.put BOOT_STAT.STAGE 4).put BOOT_STAT.SRC 3).putAll DEV_STEP.HIF_EPOCH 1
    let s := ((s.readOther 0).readOther 1).lockFlint (if s.flint.secretOk then 0 else 2)
    ({ s with mode := { s.mode with ready := true } } : State).bootEvent
  else s)

/-- `HOST_LOAD_RETRY`: 60 s after the last write to the window the flash channel is tried again. -/
def execHostLoadRetry (s : State) : Host.Outcome State Fault Refusal :=
  .next (if s.get BOOT_STAT.STAGE = 4 ∧ s.boot.attempt = none then s.flashChannel s.img.prefSlot else s)

/-! ### The heartbeat (R143, R466, R467) -/

/-- Every mailbox op in progress ends with TIMEOUT. -/
def State.timeOutOps (s : State) : State :=
  s.eachFn (fun s f => if (s.eng f).op.isSome then s.finishOp f eTIMEOUT [] else s) allFns

/-- What every heartbeat expiry ends: receptions, captures, calibrations, AF checks and mailbox ops; a staging is left to its
journal. What they report waits until Marten runs again (R20, R466). -/
def State.expiry (s : State) : State :=
  let s : State := { s with boot := { s.boot with marten := false } }
  let s := (((s.endActivities 4 none).timeOutOps).dropCal).recordCause 6
  let i := s.img
  let s : State := { s with
    img := { i with staging := false, journal := i.journal || i.staging }, hlt := { s.hlt with hbArmed := false },
    mode := { s.mode with ready := false, restNow := false } }
  s.showMaintain

/-- What a reload ends, and the entry to BOOT for it: CORE-stored registers, queues, latches and the trust state stay. -/
def State.reloadMarten (s : State) : State :=
  let s := s.expiry.wantReadmit
  let s : State := { s with boot := { s.boot with reload := true } }
  ((s.put MODE.CUR 3).put BOOT_STAT.STAGE 2).inc BOOT_CNT.ALL

/-- An expiry before READY: Marten is held, its pages are rehashed, and it starts again at its entry while verification goes
on (R143, Table 21.6). -/
def State.restartMarten (s : State) : State := s.expiry.put BOOT_STAT.STAGE 1

/-- `MARTEN_HEARTBEAT_TIMEOUT`: `reloadOk` says that the running slot reads and every reloaded block compares good. -/
def execMartenHeartbeatTimeout (reloadOk : Bool) (s : State) : Host.Outcome State Fault Refusal :=
  .next (if s.hlt.hbArmed ∧ s.boot.marten ∧ ¬ s.mode.resting then
    let s := (s.inc HLT_CNT_HB.w).noteFault
    let near := s.hlt.storms.filter (fun t => decide (s.aon < t + 3600 * 32768))
    let s : State := { s with hlt := { s.hlt with storms := near ++ [s.aon] } }
    if 2 ≤ near.length then ({ s with hlt := { s.hlt with storms := [] } } : State).systemReset 8
    else if ¬ reloadOk then s.systemReset 7
    else if s.get MODE.CUR = 3 then s.restartMarten
    else s.reloadMarten
  else s)

end Sys2Proof.Machine
end

