-- ==== Sys2Proof/Machine/Modes.lean ====
section
/-! DEFINITION. Modes, rests, wakes and the `WAKE_N` protocol (spec 05, R62). -/

namespace Sys2Proof.Machine

open R

/-! ### Rest (R91 to R93, R123) -/

/-- The retention level of the next rest (R92): 1 WARM, 2 DEEP. -/
def State.restLevel (s : State) : Nat :=
  let deep := s.bit TWIN_STAT.STANDBY || (if s.restMode = 4 then s.bit MODE_CFG.IDLE_DEEP else s.bit MODE_CFG.RET_DEEP)
  let win := s.get IMG_HL_STAT.STATE
  let keep := s.mode.collidedWait || (1 ≤ win && win ≤ 3) || allFns.any (fun f => (s.eng f).queue != [])
  if deep && !keep then 2 else 1

/-- What every rest loses: the capture buffer, the AP0 and BPH_OUT rings, and Pika's SRAM (Table 5.2). An unavailable Pika is
tried again only after DEEP (R122, R161). -/
def State.loseBuffers (s : State) (level : Nat) : State :=
  let s := s.dropMem (fun a => (0x100000 ≤ a && a < 0x120000) || (0x200000 ≤ a && a < 0x208000))
  let s := ({ s with capt := { s.capt with used := [] }, boot := { s.boot with pikaVerified := false } } : State).showRptr
  if s.get BOOT_STAT.PIKA = 3 ∧ level ≠ 2 then s else s.put BOOT_STAT.PIKA 0

/-- CORE stops: its clocks, the buck and the heartbeat check (Table 5.4). -/
def State.coreStop (s : State) : State :=
  let s := ((s.put CLK_STAT.XO_OK 0).put CLK_STAT.PLL_LOCK 0).put CLK_STAT.CORE_SRC 0
  { s with mode := { s.mode with xoTry := false }, hlt := { s.hlt with hbArmed := false } }

/-- The retention tag of the running image at the present rest counter (R123). -/
def State.tagNow (s : State) : Nat := Config.retentionTag s.flint.tagKey (Crypto.sha256 (s.boot.table.drop 0x200)) s.flint.restCtr

/-- At WARM the retention tag is formed and stored (R123). At DEEP the hash table goes, and what is saved belongs to the
running image (R131). -/
def State.retain (s : State) (level : Nat) : State :=
  if level = 2 then { s with boot := { s.boot with savedBy := s.runVersion, table := [] } }
  else
    let s : State := { s with flint := { s.flint with restCtr := (s.flint.restCtr + 1) % 2 ^ 32 } }
    { s with flint := { s.flint with tag := some s.tagNow } }

/-- The device rests at a level. A written `BOOT_CFG` is saved before (R137); DEEP flushes the Hoard. -/
def State.enterRest (s : State) (level : Nat) : State :=
  let s := if level = 2 then s.hoardFlush else s
  let s : State := if s.boot.cfgDirty then
      { s with boot := { s.boot with cfgSaved := some (s.get BOOT_CFG.w), cfgDirty := false } } else s
  let s := (((s.coreStop.loseBuffers level).retain level).put MODE.RET level).put MODE.AWAKE 0
  let s := s.updMode
  let s := s.putBit MODE.MATCH_ON (s.get MODE.CUR == 2 || (s.get MODE.CUR == 4 && s.bit MODE_CFG.MATCH_EN))
  let s : State := { s with
    mode := { s.mode with ready := false, resting := true, entering := true, waking := none, restNow := false },
    tw := { s.tw with matched := false } }
  if s.get PWR_STAT.CHG_STATE = 2 ∧ s.preHeld then s else s.chgState 1

/-- The conditions of R91 but for the host-idle time, which the event itself marks. -/
def State.restReady (s : State) : Bool :=
  s.mode.ready && s.boot.marten && !s.mode.resting && s.get MODE.CUR != 3 && s.get MODE.CUR != 0 &&
  !s.active && !s.dueWithin 3 && !s.bit MODE_CTRL.STAY_AWAKE && s.tw.onBus.isNone && s.spi.frame.isNone &&
  s.tw.frame.isNone && s.twin.xfer.isNone && allFns.all (fun f => (s.eng f).op.isNone && s.fget f FN_STATE.FB_PEND == 0)

/-- `REST_ENTRY`. -/
def execRestEntry (s : State) : Host.Outcome State Fault Refusal := .next (if s.restReady then s.enterRest s.restLevel else s)

/-- `REST_ENTRY_REVERSED`: a wake event during the entry; what the entry has dropped stays dropped (R107, log entry 27). -/
def execRestEntryReversed (cause : Nat) (s : State) : Host.Outcome State Fault Refusal :=
  .next (if s.mode.resting ∧ s.mode.entering ∧ s.mode.waking = none ∧ s.wakesFrom cause then
    let s := s.latchCause cause
    ({ s with mode := { s.mode with waking := some cause }, pwr := s.pwr.cutPart } : State).xoStart
  else s)

/-! ### Wakes (R94 to R96, R107 to R109, R131) -/

/-- The lead of a slot wake in KTIME units: 0.35 ms at WARM, 30 ms at DEEP, plus the pre-charge time (R95). -/
def State.slotLead (s : State) : Nat := unitsUp ((if s.get MODE.RET = 2 then 0.03 else 0.00035) + s.tPre.getD 0)

/-- `SLOT_WAKE`: Dormouse wakes CORE ahead of a slot of a plan that this unit runs, by the lead of R95. -/
def execSlotWake (s : State) : Host.Outcome State Fault Refusal :=
  .next (match s.nextActivity with
    | some t => if s.dormouse ∧ t ≤ s.ktime + s.slotLead then s.wake 1 else s
    | none => s)

/-- `SPI_WAKE`. -/
def execSpiWake (s : State) : Host.Outcome State Fault Refusal := .next (if s.pins.vddio then s.wake 2 else s)

/-- `HOUSEKEEP_WAKE`. -/
def execHousekeepWake (s : State) : Host.Outcome State Fault Refusal := .next s.serviceWake

/-- `DELAYED_WAKE_START` (R62, R109). -/
def execDelayedWakeStart (s : State) : Host.Outcome State Fault Refusal :=
  .next (match s.mode.delayed with
    | some c => if s.mode.resting ∧ s.mode.delayedAt ≤ s.get VRES_MEAS.w then s.wakeStart c else s
    | none => s)

/-- A wake from DEEP boots the slot of the last cold boot where it still verifies, and restores what was saved; where it does
not, the procedure of R124 runs (R131). `readOk` says that the slot is read without a QSPI timeout. -/
def State.deepReady (s : State) (readOk : Bool) : State :=
  let last := s.boot.lastSlot
  let s := s.put BOOT_STAT.WARM_RESUME 0
  let s : State := { s with boot := { s.boot with pikaGo := false, earlyOff := false } }
  if readOk ∧ last < 2 ∧ s.imageFault (slotBase last) 1 = 1 then
    let base := slotBase last
    let s := ((s.loadTable base).showVersion IMG_RUN_VER.w.key base).put IMG_EPOCH.MARTEN (s.manEpoch base)
    let s := s.putAll DEV_STEP.HIF_EPOCH (s.boot.table.getD 0x15 0).toNat
    s.deepRestore.becomeReady.resetRecord.bootEvent
  else
    let s : State := { s with
      mode := { s.mode with resting := false, entering := false, waking := none },
      boot := { s.boot with marten := false, attempt := none, deep := true, cfg := s.boot.cfgSaved.getD 1, identDone := false } }
    let s := (s.put MODE.CUR 3).put BOOT_CFG.w s.boot.cfg
    ((s.put BOOT_STAT.w 1).put BOOT_STAT.SRC 3).flashChannel s.img.prefSlot

/-- `WAKE_READY`: a WARM wake resumes when the retention tag checks and the supply monitor has recorded nothing (R123), else it
goes on as a wake from DEEP with a full reload from flash (R108). -/
def execWakeReady (supplyOk readOk : Bool) (s : State) : Host.Outcome State Fault Refusal :=
  .next (if s.mode.resting ∧ s.mode.waking.isSome then
    if s.mode.entering then s.becomeReady
    else if s.get MODE.RET ≠ 2 then
      if supplyOk ∧ s.flint.tag = some s.tagNow then (s.put BOOT_STAT.WARM_RESUME 1).becomeReady
      else
        let s := (s.put MODE.CUR 3).inc BOOT_CNT.ALL
        let s : State := { s with boot := { s.boot with savedBy := [] } }
        (s.recordCause 0xA).deepReady readOk
    else s.deepReady readOk
  else s)

/-! ### MODE_CMD (R105, R106) -/

/-- MODE_CMD REQ = SHUTDOWN: the ledger copy, the shutdown mark, and the loss of everything but the flash. -/
def State.shutdown (s : State) (f : Fn) : State :=
  if s.bit MODE.MAINTAIN_ACT ∨ ¬ s.bit WAKE_MON.LEVEL ∨ s.pins.wakeDrive then s.setErr f eBUSY
  else
    let s := (s.probeCut.ledgerCopy.hoardFlush).endActivities 2 none
    let s : State := if s.boot.cfgDirty then
        { s with boot := { s.boot with cfgSaved := some (s.get BOOT_CFG.w), cfgDirty := false } } else s
    let s : State := { s with hlt := { s.hlt with shutMark := true } }
    let s := s.powerLost false
    let s : State := { s with pins := { s.pins with porAsserted := false }, boot := { s.boot with cause := 1 } }
    (s.put MODE.CUR 0).put PWR_STAT.CHG_STATE 0

/-- MODE_CMD REQ = REST_NOW. -/
def State.restNowCmd (s : State) : State := { s with mode := { s.mode with restNow := true } }

/-! ### `WAKE_N` (R97 to R101, R110) -/

/-- The host resumes the device. -/
def State.resumed (s : State) : State :=
  let s := s.put WAKE_MON.LEVEL 0
  ({ s with mode := { s.mode with lowTaken := true } } : State).wake 4

/-- `HOST_RESUME`: the line has been low for `lowUs` without the device driving it; one resume for each low. In SHUTDOWN a
cold boot starts at 100 µs, and the low counts as its one resume. -/
def execHostResume (lowUs : Nat) (s : State) : Host.Outcome State Fault Refusal :=
  .next (if s.pins.porAsserted ∨ s.pins.test then s
    else if s.get MODE.CUR = 0 then
      if lowUs < 100 then s
      else
        let s := (s.powerUp.latchCause 4).put WAKE_MON.LEVEL 0
        { s with mode := { s.mode with lowTaken := true } }
    else if s.mode.lowTaken ∨ s.mode.driving.isSome ∨ lowUs < 20 then s
    else if 50 ≤ lowUs then s.resumed
    else
      let (w, s) := s.fresh
      if w = 0 then s else s.resumed)

/-- A collision: the event is a host resume, and the host's first register access will set WAKE_COLLIDED (R99). -/
def State.collide (s : State) (reason : Nat) : State :=
  let s := ((s.put WAKE_HREASON.PEND 1).put WAKE_HREASON.COLLIDED 1).put WAKE_HREASON.REASON reason
  let s := (s.inc WAKE_MON.COLL_CNT)
  let s : State := { s with mode := { s.mode with collidedWait := true, retries := 0, driving := none } }
  s.resumed

/-- The device drives the line low for 1.000 ms; WAKE_MIRROR goes high (Table 5.8). -/
def State.driveWake (s : State) (reason : Nat) : State :=
  let s := s.put WAKE_MON.LEVEL 0
  { s with mode := { s.mode with driving := some reason, hostAccess := false, mirror := true },
           pins := { s.pins with wakeDrive := true } }

/-- The device may drive `WAKE_N`. -/
def State.mayDrive (s : State) : Bool :=
  s.get MODE.CUR != 0 && !s.pins.porAsserted && !s.pins.test && s.mode.driving.isNone && !s.mode.lowTaken

/-- A held reason may have its attempt: none is pending, or a host access has ended the repeats of the pending one (R98). -/
def State.mayAttempt (s : State) : Bool := s.mayDrive && (!s.bit WAKE_HREASON.PEND || s.mode.hostAccess)

/-- The first sample of an attempt, for the reason held. -/
def State.attempt (s : State) (reason : Nat) (lineHigh : Bool) : State :=
  let s : State := { s with mode := { s.mode with heldReason := none } }
  if lineHigh then
    let s : State := { s with mode := { s.mode with retries := s.get WAKE_CFG.RETRIES } }
    s.driveWake reason
  else s.collide reason

/-- `REMOTE_WAKE_ATTEMPT`. -/
def execRemoteWakeAttempt (reason : Nat) (lineHigh : Bool) (s : State) : Host.Outcome State Fault Refusal :=
  .next (if s.mode.heldReason = some reason ∧ s.mayAttempt then s.attempt reason lineHigh else s)

/-- `REMOTE_WAKE_SAMPLE`: the second sample, 20 µs after the release. It writes the reason the drive began with; one that arose
during the drive waits for its own attempt (log entry 166). -/
def execRemoteWakeSample (lineHigh : Bool) (s : State) : Host.Outcome State Fault Refusal :=
  .next (match s.mode.driving with
    | some r =>
      let s := s.inc WAKE_HREASON.TRIES
      let s : State := { s with mode := { s.mode with driving := none }, pins := { s.pins with wakeDrive := false } }
      let s := s.putBit WAKE_MON.LEVEL lineHigh
      if lineHigh then (s.put WAKE_HREASON.PEND 1).put WAKE_HREASON.REASON r else s.collide r
    | none => s)

/-- `REMOTE_WAKE_RETRY` (R101). -/
def execRemoteWakeRetry (lineHigh : Bool) (s : State) : Host.Outcome State Fault Refusal :=
  .next (if s.bit WAKE_HREASON.PEND ∧ 0 < s.mode.retries ∧ ¬ s.mode.hostAccess ∧ s.mayDrive then
    let r := s.get WAKE_HREASON.REASON
    let s : State := { s with mode := { s.mode with retries := s.mode.retries - 1 } }
    if lineHigh then s.driveWake r else s.collide r
  else s)

/-- `WAKE_N_STUCK`: once for each low (R110). -/
def execWakeNStuck (s : State) : Host.Outcome State Fault Refusal :=
  .next (if s.mode.lowTaken ∧ ¬ s.bit WAKE_MON.STUCK then (s.put WAKE_MON.STUCK 1).raise1 jHOSTPORT_ERROR else s)

/-- `WAKE_N_RELEASED`: the line has been high for 1 ms, and a held reason has its attempt (R110). -/
def execWakeNReleased (s : State) : Host.Outcome State Fault Refusal :=
  .next (
    let s := (s.put WAKE_MON.STUCK 0).put WAKE_MON.LEVEL 1
    let s : State := { s with mode := { s.mode with lowTaken := false } }
    match s.mode.heldReason with
    | some r => if s.mayAttempt then s.attempt r true else s
    | none => s)

/-- A host register access: it ends the repeats, and the first one after a collision sets WAKE_COLLIDED (R99, R101). -/
def State.regAccess (s : State) : State :=
  let wait := s.mode.collidedWait
  let s : State := { s with mode := { s.mode with hostAccess := true, retries := 0, collidedWait := false } }
  if wait then s.raise1 jWAKE_COLLIDED else s

/-- PEND is cleared, and with it COLLIDED, TRIES and WAKE_MIRROR; the repeats end (R101, Table 5.8). -/
def State.clearPend (s : State) : State :=
  let s := ((s.put WAKE_HREASON.PEND 0).put WAKE_HREASON.COLLIDED 0).put WAKE_HREASON.TRIES 0
  { s with mode := { s.mode with retries := 0, mirror := false } }

/-! ### Brown-out (R62) -/

/-- Every mailbox op in progress will end with RESOURCE at the next wake. -/
def State.failOps (s : State) : State :=
  s.eachFn (fun s f => if (s.eng f).op.isSome then s.outcome f eRES [] else s) allFns

/-- `RESERVOIR_BROWNOUT`: `VRES` has fallen below V_stop while CORE runs. A BOOT, that of a DEEP wake included, waits for the
start condition again; an ended service wake, or wake from WARM, is delayed (log entry 43). -/
def execReservoirBrownout (s : State) : Host.Outcome State Fault Refusal :=
  .next (if s.get VRES_MEAS.w < s.vStopMv ∧ s.coreRuns ∧ ¬ s.boot.startWait then
    if s.get MODE.CUR = 3 then
      let s : State := { s with boot := { s.boot with marten := false } }
      let s := (s.raise1 jRESERVOIR_LOW).endActivities 2 (some 2)
      (s.coreLost.bootEntry 5 true).chgState 3
    else if s.mode.resting then
      (s.coreStop.raise1 jRESERVOIR_LOW).delayWake s.mode.waking s.vStopMv
    else
      let busy := s.active
      let cause := s.get WAKE_CAUSE.CAUSE
      let i := s.img
      let s := ((s.failOps.raise1 jRESERVOIR_LOW).endActivities 2 (some 2)).probeCut
      let s : State := { s with img := { i with staging := false, held := i.held, journal := i.journal || i.staging } }
      let s := s.showMaintain
      let s := s.enterRest s.restLevel
      let s : State := { s with mode := { s.mode with entering := false } }
      if busy then s.chgState 1 else s.delayWake (some cause) s.vStopMv
  else s)

end Sys2Proof.Machine
end

