-- ==== Sys2Proof/Machine/Images.lean ====
section
/-! DEFINITION. Revoke fuses, the `BOOT_PREF` record, staging and the image window (spec 07). -/

namespace Sys2Proof.Machine

open R

/-- Results of Table 7.4. -/
def gBUSY : Nat := 0x01
def gOBJ_SIG : Nat := 0x10
def gFAULT : Nat := 0x11
def gHW : Nat := 0x12
def gLARGE : Nat := 0x13
def gRUNNING : Nat := 0x14
def gGONE : Nat := 0x15
def gFLASH : Nat := 0x16
def gOLDER : Nat := 0x17
def gEPOCH : Nat := 0x18
def gORDER : Nat := 0x20
def gLENGTH : Nat := 0x21

/-- A staging, one that waits in its journal too, a host-load or a fuse operation is in progress. -/
def State.imgBusy (s : State) : Bool := s.img.staging || s.img.journal || s.img.winLen != 0 || s.img.fuse.isSome

/-! ### Revocation (R149) -/

/-- A write of `IMG_REVOKE` with its key: the conditions, in the order of `REV_RES`. -/
def State.imgRevoke (s : State) (f : Fn) (i : Nat) : State :=
  let intact (j : Nat) : Bool := s.bitOf FLINT_OTP.HASH_SET j && !s.bitOf FLINT_OTP.REVOKED j
  if ¬ s.bit BOOT_STAT.TRUSTED then (s.put IMG_STAT.REV_RES 1).setErr f eLOCKED
  else if ¬ intact i then s.put IMG_STAT.REV_RES 2
  else if s.runSigner = i then s.put IMG_STAT.REV_RES 3
  else if ¬ (List.range 4).any (fun j => j != i && intact j) then s.put IMG_STAT.REV_RES 4
  else if s.imgBusy then s.put IMG_STAT.REV_RES 5
  else ({ s with img := { s.img with fuse := some i } } : State).put IMG_STAT.REV_BUSY 1

/-- `FUSE_PROGRAM_DONE`: a blown fuse is permanent; the charge is F0's. -/
def execFuseProgramDone (ok : Bool) (s : State) : Host.Outcome State Fault Refusal :=
  .next (match s.img.fuse with
    | some i =>
      let s : State := { s with img := { s.img with fuse := none } }
      let s := (s.put IMG_STAT.REV_BUSY 0).chargeOpen .f0
      if ok then (s.put FLINT_OTP.REVOKED (s.get FLINT_OTP.REVOKED ||| 2 ^ i)).put IMG_STAT.REV_RES 0
      else s.put IMG_STAT.REV_RES 6
    | none => s)

/-! ### `BOOT_PREF` (R151, Table 7.6) -/

/-- A write of `IMG_PREF` rewrites the record; the slot to return to is the one named before the first ONCE. -/
def State.imgPref (s : State) (slot : Nat) (once : Bool) : State :=
  let i := s.img
  let ret := if i.prefOnce then i.prefReturn else i.prefSlot
  let s : State := { s with img := { i with prefSlot := slot, prefOnce := once, prefReturn := ret } }
  (s.put IMG_PREF.SLOT slot).putBit IMG_PREF.ONCE once

/-! ### Staging (R152 to R157) -/

/-- Automatic target: the slot that does not run; after a host-load the slot of `BOOT_PREF` (R152). -/
def State.autoTarget (s : State) : Nat :=
  match s.get BOOT_STAT.SRC with
  | 0 => 1
  | 1 => 0
  | _ => s.img.prefSlot

/-- The slot that target code 0, 1 or 2 names. -/
def State.targetOf (s : State) (code : Nat) : Nat := if code = 0 then s.autoTarget else code - 1

/-- Blocks of the whole slot image at `base` with its header areas (Table 6.2). -/
def State.slotSectors (s : State) (base : Nat) : Nat :=
  let m := s.manBlocks base + 1
  let p := s.pikaBase base
  let np := if s.headFault p 2 = 0x11 then 0 else s.manBlocks p + 1
  let b := s.bundleBase base
  let nb := if s.headFault b 4 = 0x11 then 0 else s.manBlocks b + 1
  m + np + nb

/-- Structural fault of any image at `base`: its code, 0 for none; an absent Pika image or bundle is none. -/
def State.slotHead (s : State) (base : Nat) : Nat :=
  let opt (c : Nat) : Nat := if c = 0x11 then 0 else c
  let a := s.headFault base 1
  let b := opt (s.headFault (s.pikaBase base) 2)
  let c := opt (s.headFault (s.bundleBase base) 4)
  if a ≠ 0 then a else if b ≠ 0 then b else c

/-- Address of the slot image in a held IMAGE object, once its EDF signature has passed. -/
def State.imageAt (s : State) (stream id : Nat) : Option Nat :=
  match s.obj stream id with
  | some o => if o.type = 4 ∧ o.state = 2 ∧ ¬ o.dying then o.store.map (fun e => flashAddr e.1 + 32) else none
  | none => none

/-- The check of R117 over every image at `base`: 1, or the first code of Table 6.6 found. -/
def State.slotVerify (s : State) (base : Nat) : Nat :=
  let opt (b kind : Nat) : Nat := if s.headFault b kind = 0x11 then 1 else s.imageFault b kind
  let a := s.imageFault base 1
  let b := opt (s.pikaBase base) 2
  let c := opt (s.bundleBase base) 4
  if a ≠ 1 then a else if b ≠ 1 then b else c

/-- An image at `base` declares more blocks than its kind may have. -/
def State.tooMany (s : State) (base kind : Nat) : Bool :=
  s.bytes base 5 == [0x4B, 0x52, 0x4B, 0x4D, 0x01] && s.le (base + 5) 1 == kind && decide (maxBlocks kind < s.manBlocks base)

/-- The checks of R153 over the source at `base`: result code and, for IMAGE_FAULT, the fault. -/
def State.stageCheck (s : State) (base minVer : Nat) (force : Bool) : Nat × Nat :=
  let h := s.slotHead base
  let ver := s.le (base + 8) 1 * 0x100 + s.le (base + 9) 1
  let p := s.pikaBase base
  if h = 0x14 then (gHW, 0)
  else if s.tooMany base 1 ∨ s.tooMany p 2 ∨ s.tooMany (s.bundleBase base) 4 then (gLARGE, 0)
  else if h ≠ 0 then (gFAULT, h)
  else if s.slotVerify base ≠ 1 then (gFAULT, s.slotVerify base)
  else if 256 < s.slotSectors base then (gLARGE, 0)
  else if minVer ≠ 0 ∧ ver < minVer then (gOLDER, 0)
  else if ¬ force ∧ s.headFault p 2 = 0 ∧ s.manEpoch base ≠ s.manEpoch p then (gEPOCH, 0)
  else (0, 0)

/-- `IMG_STAGE` shows a state and a result. -/
def State.showStage (s : State) (st result : Nat) : State := (s.put IMG_STAGE.STATE st).put IMG_STAGE.RESULT result

/-- Every byte of a sector reads 0xFF. -/
def State.eraseAt (s : State) (a : Nat) : State := s.dropMem (fun x => a ≤ x && x < a + 0x1000)

/-- A sector of the target is erased and programmed from an address. -/
def State.programAt (s : State) (dst src : Nat) : State :=
  let l := s.bytes src 0x1000
  (s.eraseAt dst).setBytes dst l

/-- The staging has passed its checks: the ledger is copied, the target's header sector is erased, writing starts. -/
def State.stageStart (s : State) (target : Nat) (win auto : Bool) (src : Nat × Nat) (total next : Nat) : State :=
  let s := s.ledgerCopy.eraseAt (slotBase target)
  let s : State := { s with img := { s.img with
    target := target, srcObj := src, total := total, next := next, staging := true, auto := auto, journal := true,
    srcWin := win } }
  let s := ((s.put IMG_STAGE.SRC (if win then 1 else 0)).put IMG_STAGE.TARGET target).showStage 2 0
  (s.put IMG_STAGE_PROG.w (if win then next - 1 else 0)).showMaintain

/-- A check has failed; the target is unchanged. -/
def State.stageRefuse (s : State) (target result fault : Nat) (win : Bool) : State :=
  let s := ((s.put IMG_STAGE.SRC (if win then 1 else 0)).put IMG_STAGE.TARGET target).showStage 5 result
  s.put IMG_STAGE_PROG.w (fault * 0x100)

/-- Starts or refuses the staging of a Hoard object: the result code. -/
def State.stageObject (s : State) (stream id target minVer : Nat) (force auto : Bool) : Nat × State :=
  if target = s.get BOOT_STAT.SRC then (gRUNNING, s.stageRefuse target gRUNNING 0 false)
  else match s.imageAt stream id with
    | none =>
      let code := match s.obj stream id with
        | some o => if o.type = 4 ∧ o.state = 3 then gOBJ_SIG else gGONE
        | none => gGONE
      (code, s.stageRefuse target code 0 false)
    | some base =>
      let (code, bad) := s.stageCheck base minVer force
      if code = 0 then (0, s.stageStart target false auto (stream, id) (s.slotSectors base) 1)
      else (code, s.stageRefuse target code bad false)

/-- Starts or refuses the read-back of a complete stage-form window. -/
def State.stageWindow (s : State) (target minVer : Nat) (force : Bool) : Nat × State :=
  if target = s.get BOOT_STAT.SRC then (gRUNNING, s.stageRefuse target gRUNNING 0 true)
  else if s.img.winLen = 0 ∨ ¬ s.bit IMG_HL_STAT.FORM ∨ s.get IMG_HL_STAT.STATE ≠ 3 ∨ s.img.winTarget ≠ target then
    (gGONE, s.stageRefuse target gGONE 0 true)
  else
    let (code, bad) := s.stageCheck 0x400000 minVer force
    let n := s.img.winLen / 0x1000
    let s : State := { s with img := { s.img with winLen := 0, winPos := 0 } }
    let s := s.put IMG_HL_STAT.STATE 0
    if code = 0 then (0, s.stageStart target true false (0, 0) n n) else (code, s.stageRefuse target code bad true)

/-- `IMG_STAGE_COMMIT`: the op's checks end and writing starts, or a check fails (R153). -/
def execImgStageCommit (f : Fn) (s : State) : Host.Outcome State Fault Refusal :=
  .next (s.withOp f 7 (fun a =>
    let src := arg a 0 % 4
    let tgt := arg a 0 / 16 % 4
    let force : Bool := arg a 0 / 0x100 % 2 == 1
    if src = 0 ∨ src = 3 ∨ tgt = 3 then s.outcome f eBADARG []
    else if s.img.staging ∨ s.img.journal ∨ s.img.fuse.isSome ∨ (s.img.winLen ≠ 0 ∧ (src = 1 ∨ s.get IMG_HL_STAT.STATE ≠ 3)) then
      s.outcome f eBUSY [BitVec.ofNat 16 gBUSY]
    else
      let target := s.targetOf tgt
      let (code, s) :=
        if src = 1 then s.stageObject (arg a 1 % 0x1000) (arg a 2) target (arg a 3) force false
        else s.stageWindow target (arg a 3) force
      s.outcome f 0 [BitVec.ofNat 16 code, BitVec.ofNat 16 target]))

/-- An automatic staging of an object starts, or is refused (R157). -/
def State.autoStart (s : State) (stream obj : Nat) : State :=
  (s.stageObject stream obj s.autoTarget (s.get IMG_BCAST.w) false true).2

/-- The first AUTO_STAGE object held back starts (Table 7.6). -/
def State.startHeld (s : State) : State :=
  match s.img.held with
  | e :: rest =>
    if s.imgBusy then s else ({ s with img := { s.img with held := rest } } : State).autoStart e.1 e.2
  | [] => s

/-- `AUTO_STAGE`: an addressed IMAGE object has completed; while a staging runs it is held (R157, Table 7.6). -/
def execAutoStage (stream obj : Nat) (s : State) : Host.Outcome State Fault Refusal :=
  .next (if s.bit IMG_CFG.AUTO_STAGE ∧ (s.imageAt stream obj).isSome then
    if s.imgBusy then
      if s.img.held.contains (stream, obj) then s
      else { s with img := { s.img with held := s.img.held ++ [(stream, obj)] } }
    else
      let s : State := { s with img := { s.img with held := s.img.held.filter (fun e => e != (stream, obj)) } }
      s.autoStart stream obj
  else s)

/-- Address of the staging's source. -/
def State.stageSrc (s : State) : Option Nat :=
  if s.img.srcWin then some 0x400000 else s.imageAt s.img.srcObj.1 s.img.srcObj.2

/-- The staging ends with a result: BOOT_EVENT, its charge to F0; an object held back starts. -/
def State.stageEnd (s : State) (result : Nat) : State :=
  let s : State := { s with img := { s.img with staging := false, journal := false } }
  let s := if result = gFLASH then s.noteFlash else s
  let s := s.showStage (if result = 0 then 4 else 5) result
  ((s.raise1 jBOOT_EVENT).chargeOpen .f0).reapStaged.showMaintain.startHeld

/-- A failed staging leaves the target without its Marten header area. -/
def State.stageFail (s : State) (result : Nat) : State :=
  let t := s.img.target
  ((s.eraseAt (slotBase t)).showSlot t 0 0x11).stageEnd result

/-- A block of a stage-form window has been programmed into the target, or its programming has failed. -/
def State.windowProgrammed (s : State) (ok : Bool) : State :=
  let i := s.img
  let off := i.winPos - 0x1000
  if ok then
    let s := s.programAt (slotBase i.winTarget + off) (0x400000 + off)
    let s := if i.winPos = i.winLen then s.put IMG_HL_STAT.STATE 2 else s.put IMG_HL_STAT.ACCEPT 1
    s.showMaintain
  else
    let s : State := { s with img := { i with winLen := 0, winPos := 0 } }
    ((s.put IMG_HL_STAT.STATE 4).put IMG_HL_STAT.RESULT gFLASH).noteFlash.showMaintain.startHeld

/-- `STAGING_SECTOR_WRITTEN`: one sector of the target, erased just before, is programmed; `ok` is false where erase or
program fails. -/
def execStagingSectorWritten (ok : Bool) (s : State) : Host.Outcome State Fault Refusal :=
  .next (
    let i := s.img
    if i.staging then
      if s.get IMG_STAGE.STATE ≠ 2 ∨ i.total ≤ i.next then s
      else match s.stageSrc with
        | none => s.stageFail gGONE
        | some src =>
          if ¬ ok then s.stageFail gFLASH
          else
            let s := s.programAt (slotBase i.target + 0x1000 * i.next) (src + 0x1000 * i.next)
            let s : State := { s with img := { i with next := i.next + 1 } }
            s.inc IMG_STAGE_PROG.SECTORS
    else if s.winWriting then s.windowProgrammed ok
    else s)

/-- `STAGING_READBACK_DONE`: the header area has been written and the slot is read back and verified; `ok` is false where the
program or the read-back fails. -/
def execStagingReadbackDone (ok : Bool) (s : State) : Host.Outcome State Fault Refusal :=
  .next (
    let i := s.img
    if i.staging ∧ s.get IMG_STAGE.STATE = 2 ∧ i.next = i.total then
      match s.stageSrc with
      | none => s.stageFail gGONE
      | some src =>
        let s := (s.programAt (slotBase i.target) src).inc IMG_STAGE_PROG.SECTORS
        if ok ∧ s.slotVerify (slotBase i.target) = 1 then (s.showSlot i.target 2 1).stageEnd 0 else s.stageFail gFLASH
    else s)

/-- A slot is running. -/
def State.slotRuns (s : State) : Bool := s.sched.running != []

/-- `STAGING_PAUSE` (R155). -/
def execStagingPause (s : State) : Host.Outcome State Fault Refusal :=
  .next (if s.img.staging ∧ s.get IMG_STAGE.STATE = 2 ∧ (s.slotRuns ∨ s.get VRES_MEAS.w + 300 < s.tgtMv) then
    s.put IMG_STAGE.STATE 3 else s)

/-- `STAGING_RESUME` (R155). -/
def execStagingResume (s : State) : Host.Outcome State Fault Refusal :=
  .next (if s.img.staging ∧ s.get IMG_STAGE.STATE = 3 ∧ ¬ s.slotRuns ∧ s.tgtMv ≤ s.get VRES_MEAS.w then
    s.put IMG_STAGE.STATE 2 else s)

/-- `STAGING_JOURNAL_RESUME`: after a reset or a brown-out, from a Hoard object that is still complete (R156). -/
def execStagingJournalResume (s : State) : Host.Outcome State Fault Refusal :=
  .next (if s.img.journal ∧ ¬ s.img.staging ∧ s.mode.ready ∧ s.boot.marten then
    let i := s.img
    let s := (s.put IMG_STAGE.SRC (if i.srcWin then 1 else 0)).put IMG_STAGE.TARGET i.target
    if ¬ i.srcWin ∧ s.stageSrc.isSome then
      let s : State := { s with img := { i with staging := true } }
      ((s.showStage 2 0).put IMG_STAGE_PROG.SECTORS (i.next - 1)).showMaintain
    else s.stageFail gGONE
  else s)

/-! ### The image window (R158, R159) -/

/-- The host-load channel serves the boot form. -/
def State.hostLoading (s : State) : Bool := s.get BOOT_STAT.STAGE == 4

/-- `HOST_LOAD_BEGIN`. Table 7.5 names no result for a stage-form window whose target is the running slot; it ends with the
RUNNING_SLOT that R152 gives that target (log entry 180). -/
def execHostLoadBegin (f : Fn) (s : State) : Host.Outcome State Fault Refusal :=
  .next (s.withOp f 0xD (fun a =>
    let len := arg a 0 + 0x10000 * arg a 1
    let boot := s.hostLoading
    let tgt := arg a 2 % 4
    let target := if boot then 2 else s.targetOf tgt
    if ¬ boot ∧ tgt = 3 then s.outcome f eBADARG []
    else if s.imgBusy then s.outcome f eBUSY [BitVec.ofNat 16 gBUSY]
    else if len = 0 ∨ len % 4096 ≠ 0 ∨ 0x100000 < len then s.outcome f 0 [BitVec.ofNat 16 gLENGTH]
    else if ¬ boot ∧ target = s.get BOOT_STAT.SRC then s.outcome f 0 [BitVec.ofNat 16 gRUNNING]
    else
      let s := if boot then s else (s.ledgerCopy.eraseAt (slotBase target)).showSlot target 0 0x11
      let s := s.dropMem (fun x => 0x400000 ≤ x && x < 0x500000)
      let s : State := { s with img := { s.img with winLen := len, winTarget := target, winPos := 0 } }
      let s := (s.put IMG_HL_STAT.w (if boot then 0x2800 else 0x3800)).put32 IMG_HL_NEXT_L.w 0
      s.outcome f 0 [0]))

/-- The window is discarded with a result. -/
def State.windowDrop (s : State) (result : Nat) : State :=
  let s := s.dropMem (fun x => 0x400000 ≤ x && x < 0x500000)
  let s : State := { s with img := { s.img with winLen := 0, winPos := 0 } }
  (((s.put IMG_HL_STAT.STATE 4).put IMG_HL_STAT.ACCEPT 0).put IMG_HL_STAT.RESULT result).showMaintain.startHeld

/-- A word written at a window offset: whether the write was taken, so that the address may advance. -/
def State.windowWrite (s : State) (f : Fn) (off : Nat) (w : Word) : Bool × State :=
  if s.img.winLen = 0 then (false, s.setErr f eBADARG)
  else if s.bit IMG_HL_STAT.FORM ∧ ¬ s.bit IMG_HL_STAT.ACCEPT then (false, s.setErr f eBUSY)
  else if s.get IMG_HL_STAT.STATE ≠ 1 then (false, s.setErr f eBADARG)
  else if off ≠ s.img.winPos then (true, s.windowDrop gORDER)
  else
    let s := s.setBytes (0x400000 + off) (bytesOfWords [w])
    let s : State := { s with img := { s.img with winPos := off + 2 } }
    if (off + 2) % 0x1000 ≠ 0 then (true, s)
    else
      let s := s.put32 IMG_HL_NEXT_L.w (off + 2)
      let full : Bool := off + 2 == s.img.winLen
      let stage := s.bit IMG_HL_STAT.FORM
      if stage ∧ off + 2 ≠ 0x1000 then (true, (s.put IMG_HL_STAT.ACCEPT 0).showMaintain)
      else if full then (true, (s.put IMG_HL_STAT.ACCEPT 0).put IMG_HL_STAT.STATE 2)
      else (true, s)

/-- `IMAGE_WINDOW_VERIFY_DONE`: a complete window has been verified under R117. A verified boot-form image runs trusted (R129);
a failing one is discarded, and `IMG_STAGE_PROG.FAULT` holds its code (Table 7.4). -/
def execImageWindowVerifyDone (s : State) : Host.Outcome State Fault Refusal :=
  .next (if s.img.winLen ≠ 0 ∧ s.get IMG_HL_STAT.STATE = 2 then
    let code := s.slotVerify 0x400000
    if code = 0x14 then s.windowDrop gHW
    else if code ≠ 1 then (s.windowDrop gFAULT).put IMG_STAGE_PROG.FAULT code
    else
      let s := (s.put IMG_HL_STAT.STATE 3).put IMG_HL_STAT.RESULT 0
      if s.bit IMG_HL_STAT.FORM then s
      else
        let s : State := { s with
          img := { s.img with winLen := 0, winPos := 0 },
          boot := { s.boot with attempt := some (2, true), order := [], sig := some true, blocks := [], loaded := true } }
        let s := s.put BOOT_STAT.ALL_VERIFIED 1
        let s := s.pikaStart 0x400000
        if s.get BOOT_STAT.PIKA = 1 then { s with boot := { s.boot with pikaVerified := true } } else s
  else s)

/-- `IMAGE_WINDOW_IDLE`: a stage-form window left unwritten for 60 s, a finished one too (R158). -/
def execImageWindowIdle (s : State) : Host.Outcome State Fault Refusal :=
  .next (if s.img.winLen ≠ 0 ∧ s.bit IMG_HL_STAT.FORM ∧ ¬ s.winWriting then s.windowDrop gGONE else s)

end Sys2Proof.Machine
end

