-- ==== Sys2Proof/Machine/Functions.lean ====
section
/-! DEFINITION. Functions and partitions: function reset, the lock, the mailbox, the data queue and the memory port
(spec 10). -/

namespace Sys2Proof.Machine

open R

/-! ### Cancelling a message (R214) -/

/-- A cancel: silent off the bus; on it, it waits for the end of the byte (R214). -/
def State.attnCancel (s : State) (f : Fn) : State :=
  if s.fget f ATTN_ACK.OUT = 0 then s
  else if s.tw.onBus = some f then { s with tw := { s.tw with cancel := true } }
  else s.attnWithdraw f

/-! ### Function reset (R230, R231, R520) -/

/-- The FRESET_BUSY bit of a tenant. -/
def State.showFreset (s : State) (f : Fn) (b : Bool) : State :=
  match f with
  | .f0 => s
  | _ => s.putBit ⟨PART_STAT.w.key, f.toNat, f.toNat⟩ b

/-- A reset starts, or is refused while one runs: `FN_ERR` of the writer takes BUSY. -/
def State.resetStart (s : State) (writer f : Fn) : State :=
  if s.fget f FN_STATE.RESET_BUSY = 1 then s.setErr writer eBUSY
  else (((s.fput f FN_STATE.RESET_BUSY 1).showFreset f true).admitDrop f).serviceWake

/-- Captures lose the function as an owner; one without owners ends, its records discarded (Table 19.8). -/
def State.captDisown (s : State) (f : Fn) : State :=
  let drop (j : Job) : Job := { j with owners := j.owners.filter (fun g => g != f) }
  let s : State := { s with capt := { s.capt with
    due := (s.capt.due.map drop).filter (fun j => j.owners ≠ []), job := s.capt.job.map drop } }
  match s.capt.job with
  | some j => if j.owners = [] then s.captEnd 0 else s.putBit CAPT_STAT.SHARED (1 < j.owners.length)
  | none => s

/-- A CAL_RUN or SELFTEST of the function still runs. -/
def State.longOp (s : State) (f : Fn) : Bool :=
  match (s.eng f).op with
  | some o => (o.code == 3 || o.code == 0xA) && o.outcome.isNone
  | none => false

/-- The mailbox after a function reset (Table 10.4). -/
def State.clearMailbox (s : State) (f : Fn) : State :=
  let had := (s.eng f).op.isSome
  let s := if (s.eng f).op.any (fun o => o.code == 7 && o.outcome.isNone) ∧ s.get IMG_STAGE.STATE = 1 then
      s.put IMG_STAGE.STATE 0 else s
  let s := (s.setEng f { s.eng f with op := none }).showMaintain
  let s := if had then s.fput f CMD_STAT.w 0x6003 else s
  let key (off : Nat) : Nat := (Fld.on ⟨off, 15, 0⟩ f.toNat).key
  (s.zeroRegs (key 0x20) 7).zeroRegs (key 0x29) 4

/-- The rest of Table 10.4. -/
def State.clearFn (s : State) (f : Fn) : State :=
  let key (off : Nat) : Nat := (Fld.on ⟨off, 15, 0⟩ f.toNat).key
  let s := (s.zeroRegs (key 0x10) 6).attnCancel f
  let s : State := { s with
    cnts := Sparse.drop (fun k => k / 32 == f.toNat) s.cnts,
    latches := Sparse.drop (fun k => k / 0x100000 % 4 == f.toNat) s.latches }
  let s := ((s.setErr f 0).fput f PAGE.w 0).flushQueue f
  let e := s.eng f
  let s := s.setEng f { e with
    fill := 0, fillStamp := 0, memAddr := 0, twPtr := 0, attn := { Attn.start with losses := e.attn.losses } }
  let s := (s.fput f DQ_LOST.w 0).fput f DQ_THR.w 1
  (s.zeroRegs (key 0x60) 3).zeroRegs (key 0x64) 3

/-- `FN_RESET_DONE`: within 2 ms, or once a CAL_RUN or SELFTEST of the function has ended. -/
def execFnResetDone (f : Fn) (s : State) : Host.Outcome State Fault Refusal :=
  .next (if s.fget f FN_STATE.RESET_BUSY = 1 ∧ ¬ s.longOp f then
    let s := (s.captDisown f).endListen f 3
    let s := (s.withdrawAll f 0xFE).fput f PLAN_STAT.BUSY 0
    let s : State := { s with sched := { s.sched with queue := s.sched.queue.filter (fun g => g != f) } }
    let s := (s.clearMailbox f).clearFn f
    let s := ((s.fput f FN_STATE.RESET_BUSY 0).showFreset f false).raise0 f iFN_RESET_DONE
    if s.boot.marten then s.releaseHeld f else s
  else s)

/-! ### The lock and the queue sizes (R244, R245) -/

/-- `PART_CMD` LOCK. -/
def State.partLock (s : State) : State := (s.put PART_STAT.LOCKED 1).putAll FN_STATE.PLOCK 1

/-- Records in a list of queue words. -/
def countRecs (l : List Word) : Nat → Nat
  | 0 => 0
  | n + 1 => match l with
    | [] => 0
    | w :: r => 1 + countRecs (r.drop (w.toNat % 1024 + 2)) n

/-- Stamp of the first whole record of a queue. -/
def firstStamp (l : List Word) : Nat := (l.getD 1 0).toNat * 0x10000 + (l.getD 2 0).toNat

/-- A queue whose size changes is emptied; its records count as dropped (R235, R244). -/
def State.emptyQueue (s : State) (f : Fn) : State :=
  let e := s.eng f
  let whole := e.queue.drop e.left
  let first := if e.left = 0 then firstStamp whole else e.leftStamp
  let n := countRecs whole whole.length + (if e.left = 0 then 0 else 1)
  let s := s.flushQueue f
  if n = 0 then s
  else
    let s := s.setEng f { s.eng f with fill := e.fill + n, fillStamp := if e.fill = 0 then first else e.fillStamp }
    (s.putSat (DQ_LOST.w.on f.toNat) (s.fget f DQ_LOST.w + n)).raise0 f iDQ_OVERRUN

/-- `PART_DQ` takes new sizes. -/
def State.partDq (s : State) (v : Nat) : State :=
  let nib (w : Nat) (f : Fn) : Nat := w / 16 ^ f.toNat % 16
  let old := s.get PART_DQ.w
  let s := s.put PART_DQ.w v
  s.eachFn (fun s f => if nib old f = nib v f then s else s.emptyQueue f) allFns

/-! ### Mailbox (R232, R233) -/

/-- The function may start the op (Table 10.5). -/
def State.opAllowed (s : State) (f : Fn) (code : Nat) : Bool :=
  match code with
  | 2 => f == .f0 || s.grant f (keyPage TIME_STAT.w.key) == 2
  | 8 => f == .f0 || s.grant f (keyPage CAPT_STAT.w.key) == 2
  | 3 | 7 | 9 | 0xA | 0xD => f == .f0
  | 0xC => (s.plan f).listen.isSome
  | _ => true

/-- A SELFTEST is judged at its GO: it runs in MAINTAIN, or is refused (R448, R481). -/
def State.selftestBegin (s : State) (f : Fn) : State :=
  if ¬ s.runsPlans then s.outcome f eMODE []
  else if s.active ∨ s.dueWithin 2000 then s.outcome f eBUSY []
  else
    let volts := decide (1900 + 10 * s.get VRES_TGT.TGT ≤ s.get VRES_MEAS.w)
    ({ s with hlt := { s.hlt with volts := volts } } : State).showMaintain

/-- An op of Flint joins its queue (R233). -/
def State.flintJoin (s : State) (f : Fn) (code : Nat) : State :=
  if [4, 5, 0xE].contains code then
    { s with flint := { s.flint with queue := s.flint.queue.filter (fun g => g != f) ++ [f] } }
  else s

/-- GO: the op is latched, or ends at once (R232, R233). -/
def State.cmdGo (s : State) (f : Fn) : State :=
  if s.fget f CMD_STAT.BUSY = 1 then s.setErr f eBUSY
  else
    let code := s.fget f CMD_OP.w % 0x100
    let s := ((s.fput f CMD_STAT.BUSY 1).fput f CMD_STAT.DONE 0).fput f CMD_STAT.ABORTED 0
    if code = 0 ∨ 0xE < code then s.finishOp f eBADARG []
    else if ¬ s.opAllowed f code then s.finishOp f eGRANT []
    else
      let args := (List.range 6).map (fun i => s.reg ((CMD_ARG.w i).on f.toNat).key)
      let s := s.setEng f { s.eng f with op := some ⟨code, args, s.ktime, none⟩ }
      let s := if code = 7 ∧ ¬ s.imgBusy then s.showStage 1 0 else s
      let s := if code = 0xA then s.selftestBegin f else s.flintJoin f code
      s.serviceWake

/-- `CMD_DONE`: an op that has reached its end publishes it. -/
def execCmdDone (f : Fn) (s : State) : Host.Outcome State Fault Refusal :=
  .next (match (s.eng f).op with
    | some o => match o.outcome with
      | some (err, res) => if s.fget f FN_STATE.RESET_BUSY = 1 then s else s.finishOp f err res
      | none => s
    | none => s)

/-- `OP_TIMEOUT`: the op's timeout has passed. During a function reset the op ends without a result, so that the reset can
end (R230, R233). -/
def execOpTimeout (f : Fn) (s : State) : Host.Outcome State Fault Refusal :=
  .next (match (s.eng f).op with
    | some o =>
      if o.outcome ≠ none then s
      else if s.fget f FN_STATE.RESET_BUSY = 1 then (s.outcome f eTIMEOUT []).showMaintain
      else
        let s := if o.code = 7 ∧ s.get IMG_STAGE.STATE = 1 then s.put IMG_STAGE.STATE 0 else s
        (s.finishOp f eTIMEOUT []).showMaintain
    | none => s)

/-- `NOP`. -/
def execNop (f : Fn) (s : State) : Host.Outcome State Fault Refusal := .next (s.withOp f 1 (fun _ => s.outcome f 0 []))

/-! ### Data queue (R236, R237) -/

/-- A read of `DQ_DATA`: the next word leaves the queue; an empty queue gives 0. -/
def State.dqRead (s : State) (f : Fn) : Word × State :=
  let e := s.eng f
  match e.queue with
  | [] => (0, s)
  | w :: l =>
    let fresh : Bool := e.left == 0
    (w, s.setEng f { e with
      queue := l, left := if fresh then w.toNat % 1024 + 2 else e.left - 1,
      leftStamp := if fresh then firstStamp e.queue else e.leftStamp })

/-! ### Memory port (R238 to R241) -/

/-- A memory-port region. -/
inductive Region where
  | cache
  | capture
  | ringAp0
  | ringBph
  | burrow (n : Nat)
  | window
  | flash (off : Nat)
  | unmapped
  deriving DecidableEq, Repr

/-- The flash offset of a memory-port address of the flash region. -/
def flashOff (a : Nat) : Nat := 0x800000 * (a / 0x800000 - 1) + a % 0x800000

/-- The region of an address (Table 10.6). -/
def State.region (s : State) (a : Nat) : Region :=
  if a < 0x10000 then .cache
  else if 0x100000 ≤ a ∧ a < 0x120000 then .capture
  else if 0x200000 ≤ a ∧ a < 0x204000 then .ringAp0
  else if 0x204000 ≤ a ∧ a < 0x208000 then .ringBph
  else if 0x300000 ≤ a ∧ a < 0x304000 then .burrow (a / 0x1000 % 4)
  else if 0x400000 ≤ a ∧ a < 0x800000 then .window
  else if 0x800000 ≤ a ∧ a < 0x800000 + s.edf.flashSize then .flash (flashOff a)
  else .unmapped

/-- The CONFIG area by flash offset. -/
def isConfig (off : Nat) : Bool := 0x200000 ≤ off && off < 0x210000

/-- Function `f` may read the region. -/
def State.mayRead (s : State) (f : Fn) : Region → Bool
  | .cache => f == .f0
  | .capture => f == .f0 || 1 ≤ s.grant f 0x16
  | .ringAp0 => f == .f0 || 1 ≤ s.grant f 0x13
  | .ringBph => f == .f0 || 1 ≤ s.grant f 0x15
  | .burrow n => f == .f0 || f.toNat == n
  | .window => false
  | .flash off => f == .f0 || (1 ≤ s.grant f 0x12 && !isConfig off)
  | .unmapped => false

/-- Function `f` may write the region. -/
def State.mayWrite (s : State) (f : Fn) : Region → Bool
  | .ringAp0 => f == .f0 || s.grant f 0x13 == 2
  | .ringBph => f == .f0 || s.grant f 0x15 == 2
  | .burrow n => f == .f0 || f.toNat == n
  | .window => f == .f0
  | _ => false

/-- A flash byte lies in an object store or a capture store of the Hoard area. -/
def State.inStore (s : State) (off : Nat) : Bool :=
  s.edf.objs.any (fun o => match o.store with
    | some (a, n) => decide (a ≤ off ∧ off < a + 0x1000 * n)
    | none => false) ||
  s.capt.stores.any (fun e => decide (e.2.1 ≤ off ∧ off < e.2.1 + 1024 * e.2.2))

/-- The byte the port reads at an address: places of internal layout read what the device keeps there (log entry 12). -/
def State.portByte (s : State) (a : Nat) : Byte :=
  match s.region a with
  | .cache => Config.internalByte a
  | .flash off => if isConfig off ∨ (0x210000 ≤ off ∧ ¬ s.inStore off) then Config.internalByte a else s.byte a
  | _ => s.byte a

/-- The port's address, which `MEM_POS` shows. -/
def State.setMemAddr (s : State) (f : Fn) (a : Nat) : State :=
  let s := s.setEng f { s.eng f with memAddr := a % 0x2000000 }
  (s.fput f MEM_POS_L.w (a % 0x10000)).fput f MEM_POS_H.w (a / 0x10000 % 0x200)

/-- The address after a word. -/
def State.memNext (s : State) (f : Fn) : State :=
  if s.fget f MEM_CTRL.INC = 1 then s.setMemAddr f ((s.eng f).memAddr + 2) else s

/-- An access that reaches nothing: UNMAPPED, or VIOL for a region barred to the function (R240). -/
def State.memFault (s : State) (f : Fn) (r : Region) : State :=
  if r = .unmapped then (s.fput f MEM_STAT.UNMAPPED 1).setErr f eBADARG else (s.fput f MEM_STAT.VIOL 1).setErr f eGRANT

/-- A read of `MEM_DATA`; `qspiTo` says that the QSPI read times out. -/
def State.memRead (s : State) (f : Fn) (qspiTo : Bool) : Word × State :=
  let a := (s.eng f).memAddr
  let r := s.region a
  if s.hostLoading then (0, s.setErr f eNRDY)
  else if s.fget f MEM_CTRL.WR = 1 then (0, s.setErr f eBADARG)
  else if r = .unmapped ∨ ¬ s.mayRead f r then (0, s.memFault f r)
  else
    let inFlash : Bool := match r with | .flash _ => true | _ => false
    if inFlash ∧ s.flashBusy then (0, s.setErr f eBUSY)
    else if inFlash ∧ qspiTo then (0xFFFF, ((s.fput f MEM_STAT.QSPI_TO 1).setErr f eTIMEOUT).noteFlash)
    else (s.portByte a ++ s.portByte (a + 1), s.memNext f)

/-- A write of `MEM_DATA`. -/
def State.memWrite (s : State) (f : Fn) (w : Word) : State :=
  let a := (s.eng f).memAddr
  let r := s.region a
  if s.hostLoading ∧ r ≠ .window then s.setErr f eNRDY
  else if s.fget f MEM_CTRL.WR = 0 then s.setErr f eBADARG
  else if r = .unmapped ∨ ¬ s.mayWrite f r then s.memFault f r
  else if r = .window then
    let (took, s) := s.windowWrite f (a - 0x400000) w
    if took then s.memNext f else s
  else (s.setBytes a (bytesOfWords [w])).memNext f

/-- A write of `MEM_ADDR_L` sets the port's address (R238). -/
def State.memAddrWrite (s : State) (f : Fn) (v : Nat) : State :=
  let s := s.fput f MEM_ADDR_L.w (v - v % 2)
  s.setMemAddr f (s.fget f MEM_ADDR_H.w % 0x200 * 0x10000 + (v - v % 2))

end Sys2Proof.Machine
end

