-- ==== Sys2Proof/Machine/Twin.lean ====
section
/-! DEFINITION. Twin operation: roles, heartbeat and claim pulses, checkpoints, takeover, the planned swap and the standby
self-test (spec 20). -/

namespace Sys2Proof.Machine

open R

/-! ### Roles (R446 to R448) -/

/-- The KTIME second at which the self-test of the present day wakes the unit (R461). -/
def State.stestAt (s : State) : Nat := s.dayNo * 86400 + 60 * s.get SCHED_DAY_OFS.w + 3600 * s.get TWIN_STEST.HOUR

/-- A unit that takes STANDBY after the hour of the day's self-test does not run it that day. -/
def State.skipStest (s : State) : State :=
  if s.stestAt ≤ s.sec then { s with twin := { s.twin with stestDay := some s.dayNo } } else s

/-- The unit takes a role: ACTIVE, STANDBY, or neither. -/
def State.setRole (s : State) (active standby : Bool) : State :=
  let s := ((s.putBit TWIN_STAT.ACTIVE active).putBit TWIN_STAT.STANDBY standby).putBit MODE.STANDBY standby
  let s := (s.putAll FN_ID.STANDBY (if standby then 1 else 0)).put TWIN_STAT.CLAIMING 0
  let s := if standby then s.skipStest else s
  (({ s with twin := { s.twin with watching := false, claimDue := none } } : State).holdDue).updMode

/-- The unit holds ACTIVE with twinning enabled. -/
def State.isActive (s : State) : Bool := s.bit TWIN_STAT.EN && s.bit TWIN_STAT.ACTIVE

/-- The unit holds STANDBY with twinning enabled. -/
def State.isStandby (s : State) : Bool := s.bit TWIN_STAT.EN && s.bit TWIN_STAT.STANDBY

/-- A write of `TWIN_CFG`: EN rising starts the watch once READY, EN falling leaves the unit alone (R446, R513). -/
def State.twinCfg (s : State) (v : Nat) : State :=
  let was := s.bit TWIN_CFG.EN
  let s := s.put TWIN_CFG.w v
  let now := s.bit TWIN_CFG.EN
  let s := s.putBit TWIN_STAT.EN now
  if now = was then s
  else
    let s : State := { s with twin := { s.twin with
      claimDue := none, xfer := none, part := none, swapAt := none, ckptDue := false, claimAt := none, activeAt := none } }
    let s := (s.setRole false false).put TWIN_STAT.PARTNER_SEEN 0
    if now ∧ s.mode.ready then s.twinWatch else s

/-- The period of the partner's pulses: the last checkpoint's, or the own setting before one (R450). -/
def State.partnerPeriod (s : State) : Nat :=
  match s.twin.held with
  | some d => (d.getD 0xD 0).toNat
  | none => s.get TWIN_CFG.PERIOD

/-- The AON cycles of `n` own periods. -/
def State.periods (s : State) (n : Nat) : Nat := n * s.get TWIN_CFG.PERIOD * 32768

/-- What `TWIN_STAT` reads: MISSED counts whole periods since the last pulse, PARTNER_SEEN holds for three of them on a
standby unit (R450). -/
def State.twinStatWord (s : State) : Word :=
  if s.isStandby then
    let p := s.partnerPeriod * 32768
    let gap := s.aon - s.twin.pulseAt
    let s := s.put TWIN_STAT.MISSED (min 0xFF (gap / max 1 p))
    let s := if 3 * p < gap then s.put TWIN_STAT.PARTNER_SEEN 0 else s
    s.reg TWIN_STAT.w.key
  else s.reg TWIN_STAT.w.key

/-! ### Records (R462) -/

/-- A TWIN record with the checkpoint it names, and TWIN_EVENT in every function. -/
def State.twinRec (s : State) (event cause mask seq sec : Nat) : State :=
  let w4 := (if s.pins.role then 0x8000 else 0) + (if s.bit TWIN_STAT.ACTIVE then 0x4000 else 0) + mask
  let payload := [BitVec.ofNat 16 (event * 0x100 + cause), BitVec.ofNat 16 w4, BitVec.ofNat 16 seq] ++ lowHigh sec
  let l := s.granted (keyPage TWIN_STAT.w.key)
  (s.deliverAll 0x2C payload [iTWIN_EVENT] s.stamp l).raiseOthers iTWIN_EVENT l

/-- A record that names the last committed checkpoint. -/
def State.twinRecRx (s : State) (event cause mask : Nat) : State :=
  s.twinRec event cause mask (s.get TWIN_RX_SEQ.w) (s.get32 TWIN_RX_T_L.w)

/-- A record that names the last checkpoint sent. -/
def State.twinRecTx (s : State) (event cause : Nat) : State :=
  s.twinRec event cause 0 (s.get TWIN_TX_SEQ.w) s.twin.sentSec

/-- The unit takes STANDBY: every activity ends, and a YIELDED record says why (R459). -/
def State.yieldRole (s : State) (cause : Nat) : State :=
  let s := s.endActivities 7 none
  let i := s.img
  let s : State := { s with img := { i with staging := false, journal := i.journal || i.staging } }
  let s := (s.showMaintain).setRole false true
  let s : State := { s with twin := { s.twin with
    pulseAt := s.aon, claimAt := none, activeAt := none, swapAt := none, xfer := none, ckptDue := false } }
  let s := s.put TWIN_STAT.PARTNER_SEEN 1
  if cause = 3 then s.twinRecTx 2 3 else s.twinRecRx 2 cause 0

/-! ### Pulses (R447, R449, R450, R459) -/

/-- `HEARTBEAT_EMIT`: the active unit pulses at the KTIME seconds that are multiples of PERIOD; none in HOST-LOAD wait
(R127). -/
def execHeartbeatEmit (s : State) : Host.Outcome State Fault Refusal :=
  .next (if s.isActive ∧ s.dormouse ∧ ¬ s.pins.test ∧ ¬ s.hostLoading ∧ s.sec % max 1 (s.get TWIN_CFG.PERIOD) = 0 ∧
      s.twin.pulseSec ≠ s.sec then
    { s with pins := { s.pins with hbPulses := s.pins.hbPulses + 1 },
             twin := { s.twin with pulseSec := s.sec, pulseTq := s.tqNow } }
  else s)

/-- The class of a low pulse (Table 20.1): 0 ignored, 1 heartbeat, 2 claim, 3 ignored and counted, 4 stuck. A time on the
edge of two classes is in one of them, which is open. -/
def State.pulseClass (s : State) (lowUs : Nat) : Nat × State :=
  if lowUs < 50 then (0, s)
  else if lowUs < 200 then (1, s)
  else if lowUs = 200 then
    let (w, s) := s.fresh
    (if w = 0 then 1 else 2, s)
  else if lowUs < 450 then (2, s)
  else if lowUs = 450 then
    let (w, s) := s.fresh
    (if w = 0 then 2 else 3, s)
  else if lowUs ≤ 1000 then (3, s)
  else (4, s)

/-- HB_STUCK is set once while the line stays low. -/
def State.hbStuck (s : State) : State :=
  if s.twin.stuck then s
  else
    let s := s.put TWIN_EVT.HB_STUCK 1
    { s with twin := { s.twin with stuck := true }, hlt := { s.hlt with stuckAt := some (s.hlt.stuckAt.getD s.sec) } }

/-- A unit that watches the line latches its KTIME at a pulse. -/
def State.latchEdge (s : State) : State :=
  let s : State := { s with twin := { s.twin with edges := (s.ktime :: s.twin.edges).take 8, pulseAt := s.aon } }
  (s.put TWIN_STAT.MISSED 0).put TWIN_STAT.PARTNER_SEEN 1

/-- Two claims lie within one PERIOD of each other. -/
def State.bothClaim (s : State) : Bool :=
  match s.twin.partnerClaim with
  | some t => decide (s.aon ≤ t + s.periods 1)
  | none => false

/-- An UNDECIDED unit that watches the line takes STANDBY at the partner's pulse (R447). -/
def State.watchSees (s : State) : State := if s.twin.watching then (s.setRole false true).latchEdge else s

/-- A heartbeat of the partner. -/
def State.partnerBeat (s : State) : State :=
  if s.isActive then
    if s.bit TWIN_STAT.CLAIMING then s.yieldRole 2
    else
      let s := s.put TWIN_EVT.CONFLICT 1
      if s.pins.role then s.yieldRole 4 else s
  else if s.isStandby then s.latchEdge
  else s.watchSees

/-- A claim of the partner. -/
def State.partnerClaims (s : State) : State :=
  let s : State := { s with twin := { s.twin with partnerClaim := some s.aon } }
  if s.isActive then
    if s.twin.swapAt.any (fun t => decide (s.aon ≤ t + 32768)) then s.yieldRole 3
    else match s.twin.claimAt with
      | some t =>
        if s.aon ≤ t + s.periods 1 then (if s.pins.role then s.yieldRole 1 else s)
        else s.put TWIN_EVT.CONFLICT 1
      | none => s.put TWIN_EVT.CONFLICT 1
  else if s.isStandby then s.latchEdge
  else s.watchSees

/-- `TWIN_HB_PULSE`: a low pulse that the unit does not drive itself has ended after `lowUs`. -/
def execTwinHbPulse (lowUs : Nat) (s : State) : Host.Outcome State Fault Refusal :=
  .next (if s.bit TWIN_STAT.EN ∧ s.get MODE.CUR ≠ 0 then
    if s.twin.stuck then { s with twin := { s.twin with stuck := false } }
    else
      match s.pulseClass lowUs with
      | (1, s) => s.partnerBeat
      | (2, s) => s.partnerClaims
      | (3, s) => s.inc TWIN_CNT_BAD.w
      | (4, s) =>
        let s := s.hbStuck
        { s with twin := { s.twin with stuck := false } }
      | (_, s) => s
  else s)

/-- `HB_STUCK`: the line has been low for more than 1 ms. -/
def execHbStuck (s : State) : Host.Outcome State Fault Refusal :=
  .next (if s.bit TWIN_STAT.EN ∧ s.get MODE.CUR ≠ 0 then s.hbStuck else s)

/-- A claim falls due with a cause of TOOK_OVER; at rest it wakes the device with cause TWIN (R456). -/
def State.wantClaim (s : State) (cause : Nat) : State :=
  (({ s with twin := { s.twin with claimDue := some cause, testing := false } } : State).showMaintain).wake 5

/-- `UNDECIDED_TIMEOUT` (R447). -/
def execUndecidedTimeout (s : State) : Host.Outcome State Fault Refusal :=
  .next (if s.twin.watching ∧ s.bit TWIN_STAT.EN ∧ s.twin.claimDue = none then s.wantClaim 3 else s)

/-- `TAKEOVER_DUE` (R450). -/
def execTakeoverDue (s : State) : Host.Outcome State Fault Refusal :=
  .next (if s.isStandby ∧ s.get MODE.CUR ≠ 0 ∧ s.twin.claimDue = none then s.wantClaim 1 else s)

/-! ### The checkpoint (R453, Table 20.3) -/

/-- A little-endian number in a byte list. -/
def leAt (d : List Byte) (off n : Nat) : Nat := ((d.drop off).take n).foldr (fun b a => b.toNat + 0x100 * a) 0

/-- The bytes of words, low byte first. -/
def wordBytes (l : List Word) : List Byte := l.flatMap (fun w => leBytes w.toNat 2)

/-- A list cut or filled with 0x00 to `n` bytes. -/
def pad (n : Nat) (l : List Byte) : List Byte := (l ++ List.replicate n 0).take n

/-- The 1536 bytes of the present state. -/
def State.checkpoint (s : State) : List Byte :=
  let us (x : Fld) : List Byte := allFns.flatMap (fun f => leBytes (s.fget f x) 2)
  let hist (i : Nat) : Nat × Nat := (s.edf.hist.getD i none).getD (0, 0)
  let four : List Nat := [0, 1, 2, 3]
  let head : List Byte :=
    [0x4B, 0x52, 0x4B, 0x54, 1,
      BitVec.ofNat 8 ((if s.pins.role then 1 else 0) + 2 * s.get BOOT_STAT.TRUSTED + if s.twin.restart then 4 else 0)] ++
    leBytes (s.get TWIN_TX_SEQ.w) 2 ++ leBytes s.twin.pulseSec 4 ++
    [BitVec.ofNat 8 s.twin.pulseTq, BitVec.ofNat 8 (s.get TWIN_CFG.PERIOD)] ++ leBytes (code16 s.time.leap) 2 ++
    leBytes (s.get32 LEDGER_L.w) 4 ++ leBytes s.dayNo 4 ++ us DAY_USE_E.w ++ us DAY_USE_T.w ++
    leBytes (s.get SCHED_DEV_USE.w) 2 ++ leBytes (s.fget .f0 DEV_STEP.HIF_EPOCH) 2 ++
    allFns.map (fun f => BitVec.ofNat 8 (s.plan f).plan.length)
  let watches := allFns.flatMap (fun f => (s.plan f).plan.flatMap (fun w => wordBytes w.words))
  let vans := s.edf.vans.flatMap (fun v => leBytes v.start 4 ++ leBytes v.period 4 ++ leBytes v.count 2 ++ leBytes v.minutes 2)
  let props := (List.range 8).flatMap (fun i => leBytes (s.get (TIME_PROP_ID.w i)) 2 ++ leBytes (s.get (TIME_PROP_OFS.w i)) 2)
  let body := pad 0x40 head ++ pad 0x400 watches ++ four.flatMap (fun i => leBytes (hist i).1 4) ++
    four.flatMap (fun i => leBytes (hist i).2 32) ++ leBytes (s.edf.vanSerial.getD 0) 4 ++ leBytes s.edf.vans.length 4 ++
    pad 192 vans ++ props ++ leBytes (s.get TIME_LEAP_PEND.w % 4) 4 ++ leBytes (s.get32 TIME_LEAP_AT_L.w) 4 ++ List.replicate 62 0
  body ++ leBytes (crc16 body).toNat 2

/-- The checks of R454 on a whole set. -/
def ckptOk (d : List Byte) : Bool :=
  d.take 5 == [0x4B, 0x52, 0x4B, 0x54, 1] && (crc16 (d.take 0x5FE)).toNat == leAt d 0x5FE 2

/-! ### Takeover (R456 to R458) -/

/-- Function `f`'s watch records in a checkpoint. -/
def ckptWatches (d : List Byte) (f : Fn) : List (List Word) :=
  let n (i : Nat) : Nat := (d.getD (0x2C + i) 0).toNat
  let first := ((List.range f.toNat).map n).sum
  (List.range (n f.toNat)).map (fun i =>
    (List.range 16).map (fun j => BitVec.ofNat 16 (leAt d (0x40 + 32 * (first + i) + 2 * j) 2)))

/-- One function's plan from a checkpoint; a watch this image rejects withdraws it with FORMAT (R458). -/
def State.restorePlan (s : State) (d : List Byte) (f : Fn) : State :=
  let ws := ckptWatches d f
  match ws.find? (fun w => (s.badField w).isSome) with
  | some w => (s.setPlan f { s.plan f with plan := [] }).withdrawn f 9 ⟨w, recStart w, none⟩
  | none => s.setPlan f { s.plan f with plan := s.ofSnapshot ws }

/-- The COMMAND history from a checkpoint. -/
def State.restoreHist (s : State) (d : List Byte) (i : Nat) : State :=
  let h := leAt d (0x440 + 4 * i) 4
  let r := leAt d (0x450 + 32 * i) 32
  let s : State := { s with edf := { s.edf with hist := s.edf.hist.set i (if r = 0 then none else some (h, r)) } }
  s.put32 (EDF_CSER.w (2 * (i % 4))) h

/-- Plans, van windows, the command history, propagation entries and leap state from a checkpoint. -/
def State.restoreCkpt (s : State) (d : List Byte) : State :=
  let s := s.eachFn (fun s f => s.restorePlan d f) allFns
  let s : State := { s with sched := { s.sched with timeline := [], cycle := 0, running := [], dirty := true } }
  let n := min 16 (leAt d 0x4D4 1)
  let van (i : Nat) : Van :=
    let o := 0x4D8 + 12 * i
    ⟨leAt d o 4, leAt d (o + 4) 4, leAt d (o + 8) 2, leAt d (o + 10) 2⟩
  let serial := leAt d 0x4D0 4
  let s : State := { s with edf := { s.edf with
    vans := (List.range n).map van, vanSerial := if serial = 0 ∧ n = 0 then none else some serial } }
  let s := [0, 1, 2, 3].foldl (fun s i => s.restoreHist d i) s
  let s := (List.range 8).foldl (fun s i =>
    (s.put (TIME_PROP_ID.w (i % 8)) (leAt d (0x598 + 4 * i) 2)).put (TIME_PROP_OFS.w (i % 8)) (leAt d (0x59A + 4 * i) 2)) s
  let pend := leAt d 0x5B8 1 % 4
  let s := (s.putLeap (signed16 (leAt d 0xE 2))).put TIME_LEAP_PEND.w pend
  ((s.put32 TIME_LEAP_AT_L.w (leAt d 0x5BC 4)).putBit TIME_STAT.LEAP_PEND (pend != 0)).showEdf

/-- The day counters run from 0. -/
def State.zeroDays (s : State) : State :=
  let s := s.eachFn (fun s f => (s.setEng f { s.eng f with dayE := 0, dayT := 0 }).showDay f) allFns
  ({ s with sched := { s.sched with devE := 0 } } : State).put SCHED_DEV_USE.w 0

/-- The day counters at a takeover (R457). -/
def State.takeDays (s : State) (d : Option (List Byte)) : State :=
  match d with
  | some d =>
    if leAt d 0x14 4 = s.dayNo then
      let s := s.eachFn (fun s f => s.charge f (1000 * leAt d (0x18 + 2 * f.toNat) 2) (1000 * leAt d (0x20 + 2 * f.toNat) 2)) allFns
      let s : State := { s with sched := { s.sched with devE := s.sched.devE + 1000 * leAt d 0x28 2 } }
      s.put SCHED_DEV_USE.w (min 0xFFFF (roundNat ((s.sched.devE : ℚ) / 1000)))
    else s.zeroDays
  | none => s.zeroDays

/-- Steps 2 to 6 of R456. -/
def State.takeOver (s : State) (cause : Nat) : State :=
  let s := (s.setRole true false).put TWIN_STAT.CLAIMING 1
  let s : State := { s with twin := { s.twin with claimAt := some s.aon, activeAt := some s.aon, nacks := 0 } }
  let s := ((s.put TWIN_STAT.MISSED 0).put TWIN_STAT.PARTNER_SEEN 0).inc TWIN_CNT_TAKEOVER.w
  let s := match s.twin.held with
    | some d => s.restoreCkpt d
    | none => s.plansFromFlash
  let s := ((s.takeDays s.twin.held).wantReadmit.showPlans).updMode
  let s : State := if cause = 1 then { s with hlt := { s.hlt with partner := true } } else s
  (s.twinRecRx 1 cause 0).wantHost 3

/-- `CLAIM`: at READY the unit drives its claim pulse and samples the line; a conflict leaves the role to unit A (R456,
R459). -/
def execClaim (lineLow : Bool) (s : State) : Host.Outcome State Fault Refusal :=
  .next (match s.twin.claimDue with
    | some c =>
      if s.awake ∧ s.bit TWIN_STAT.EN ∧ s.get MODE.CUR ≠ 3 then
        let s : State := { s with pins := { s.pins with hbPulses := s.pins.hbPulses + 1 } }
        if (lineLow ∨ s.bothClaim) ∧ s.pins.role then s.yieldRole 1 else s.takeOver c
      else s
    | none => s)

/-- `CLAIMING_END`. -/
def execClaimingEnd (s : State) : Host.Outcome State Fault Refusal := .next (s.put TWIN_STAT.CLAIMING 0)

/-! ### Sending (R452, R460) -/

/-- The WAKE frame of a checkpoint has been sent; PARTNER_SILENT at the third NACK in a row. -/
def State.wakeSent (s : State) (ack : Bool) : State :=
  let s := s.putBit TWIN_STAT.PARTNER_SEEN ack
  let n := if ack then 0 else s.twin.nacks + 1
  let s : State := { s with twin := { s.twin with nacks := n, frameOut := [] } }
  if n = 3 then
    let s := s.put TWIN_EVT.PARTNER_SILENT 1
    let s : State := { s with hlt := { s.hlt with silentAt := some (s.hlt.silentAt.getD s.sec) } }
    s.twinRecTx 3 0
  else s

/-- The next checkpoint is built with the next sequence. -/
def State.ckptBuild (s : State) (swap ack : Bool) : State :=
  let s := s.incWrap TWIN_TX_SEQ.w
  let s : State := { s with twin := { s.twin with
    xfer := some ⟨s.checkpoint, s.get TWIN_TX_SEQ.w, 1, 0, swap⟩, sentSec := s.twin.pulseSec } }
  s.wakeSent ack

/-- A checkpoint waits for the device to be awake. -/
def State.ckptWait (s : State) : State :=
  ({ s with twin := { s.twin with xfer := some ⟨[], 0, 0, 0, false⟩ } } : State).serviceWake

/-- `CHECKPOINT_BUILD`: the period has passed, or TWIN_SWAP or CKPT_NOW has asked; the WAKE frame goes out. A unit at rest wakes
for it. -/
def execCheckpointBuild (wakeAck : Bool) (s : State) : Host.Outcome State Fault Refusal :=
  .next (if s.isActive ∧ s.pins.vddio then
    match s.twin.xfer with
    | some x => if x.stage = 0 ∧ s.awake then s.ckptBuild x.swap wakeAck else s
    | none =>
      if ¬ s.bit TWIN_CFG.CKPT_EN then s
      else if s.awake then s.ckptBuild false wakeAck
      else if s.mode.resting then s.ckptWait
      else s
  else s)

/-- TWIN_CMD.CKPT_NOW: active only; one that comes during a transfer waits for its end. -/
def State.ckptNow (s : State) (f : Fn) : State :=
  if ¬ s.isActive then s.setErr f eBUSY
  else if ¬ s.bit TWIN_CFG.CKPT_EN then s
  else if s.twin.xfer.isSome then { s with twin := { s.twin with ckptDue := true } }
  else s.ckptWait

/-- A transfer has ended. -/
def State.xferEnd (s : State) : State :=
  { s with twin := { s.twin with
    xfer := if s.twin.ckptDue then some ⟨[], 0, 0, 0, false⟩ else none, ckptDue := false } }

/-- The bytes of CHUNK frame `n`. -/
def chunkFrame (x : Xfer) (n : Nat) : List Byte :=
  [1, BitVec.ofNat 8 (x.seq / 0x100), BitVec.ofNat 8 x.seq, BitVec.ofNat 8 (0x10 * n)] ++ (x.data.drop (128 * n)).take 128

/-- `CHUNK_SEND`: one CHUNK frame, or the HANDOVER after a swap's last; a CHUNK is repeated up to eight times. -/
def execChunkSend (ack : Bool) (s : State) : Host.Outcome State Fault Refusal :=
  .next (match s.twin.xfer with
    | some x =>
      if x.stage = 0 ∨ ¬ s.awake ∨ ¬ s.pins.vddio then s
      else if x.stage = 13 then
        let s : State := { s with twin := { s.twin with
          frameOut := [2, BitVec.ofNat 8 (x.seq / 0x100), BitVec.ofNat 8 x.seq], swapAt := some s.aon } }
        s.xferEnd
      else
        let s : State := { s with twin := { s.twin with frameOut := chunkFrame x (x.stage - 1) } }
        if ack then
          if x.stage < 12 then { s with twin := { s.twin with xfer := some { x with stage := x.stage + 1, tries := 0 } } }
          else
            let s := s.inc TWIN_CNT_TX.w
            let s : State := { s with twin := { s.twin with restart := false } }
            if x.swap then { s with twin := { s.twin with xfer := some { x with stage := 13, tries := 0 } } } else s.xferEnd
        else if x.tries < 8 then { s with twin := { s.twin with xfer := some { x with tries := x.tries + 1 } } }
        else
          let s := s.put TWIN_EVT.CKPT_FAIL 1
          let s : State := if x.swap then { s with twin := { s.twin with swapAt := some s.aon } } else s
          s.xferEnd
    | none => s)

/-- `TWIN_SWAP`. -/
def execTwinSwap (f : Fn) (s : State) : Host.Outcome State Fault Refusal :=
  .next (s.withOp f 9 (fun _ =>
    if ¬ s.isActive then s.outcome f eMODE []
    else if s.active ∨ s.twin.xfer.isSome then s.outcome f eBUSY []
    else if s.bit TWIN_EVT.PARTNER_SILENT then s.outcome f eRES []
    else ({ s with twin := { s.twin with xfer := some ⟨[], 0, 0, 0, true⟩ } } : State).outcome f 0 []))

/-- `SWAP_FAILED`: no claim has come within 1 s of HANDOVER. -/
def execSwapFailed (s : State) : Host.Outcome State Fault Refusal :=
  .next (if s.twin.swapAt.isSome then
    let s := s.put TWIN_EVT.SWAP_FAILED 1
    ({ s with twin := { s.twin with swapAt := none } } : State).twinRecTx 5 0
  else s)

/-! ### Receiving (R451, R454, R455) -/

/-- The instant of the latched edge nearest a pulse second (R455). -/
def nearestEdge (l : List Nat) (t : Nat) : Option Nat := leastBy (fun e => ((e : Int) - t).natAbs) l

/-- The time candidate of a committed checkpoint. -/
def State.twinTime (s : State) (d : List Byte) : State :=
  let code := leAt d 0xC 1 % 0x20
  let t := (s.sec / 0x100000000 * 0x100000000 + leAt d 8 4) * 2 ^ 24
  match nearestEdge s.twin.edges t with
  | some e =>
    if s.bit TWIN_CFG.TIME_EN ∧ code < 31 ∧ ((e : Int) - t).natAbs * 2 ≤ leAt d 0xD 1 * 2 ^ 24 then
      s.candidate 5 (max (code + 1) 6) t e none false
    else s
  | none => s

/-- The set is newer than the last committed checkpoint (R454). -/
def State.ckptNewer (s : State) (d : List Byte) : Bool :=
  let seq := leAt d 6 2
  let last := s.get TWIN_RX_SEQ.w
  let diff := (seq + 0x10000 - last) % 0x10000
  let dup : Bool := decide (seq = last ∧ leAt d 8 4 = s.get32 TWIN_RX_T_L.w)
  s.twin.anyNewer || (if leAt d 5 1 / 4 % 2 = 1 then !dup else decide (1 ≤ diff ∧ diff ≤ 32767))

/-- All twelve chunks are held: the set is committed, dropped or counted bad. -/
def State.ckptJudge (s : State) (d : List Byte) : State :=
  let s : State := { s with twin := { s.twin with part := none } }
  if ¬ ckptOk d then (s.inc TWIN_CNT_BAD.w).put TWIN_EVT.CKPT_BAD 1
  else if ¬ s.ckptNewer d then s.inc TWIN_CNT_DUP.w
  else
    let s : State := { s with twin := { s.twin with held := some d, anyNewer := false } }
    let s := (s.put TWIN_RX_SEQ.w (leAt d 6 2)).put32 TWIN_RX_T_L.w (leAt d 8 4)
    let s := ((s.put32 TWIN_PLEDGER_L.w (leAt d 0x10 4)).inc TWIN_CNT_RX.w).put TWIN_STAT.CKPT_VALID 1
    s.twinTime d

/-- A chunk joins its set; one of another sequence starts a new set. -/
def State.chunkIn (s : State) (seq n : Nat) (data : List Byte) : State :=
  let (l, at_) := match s.twin.part with
    | some (q, l, t) => if q = seq then (l, t) else ([], s.aon)
    | none => ([], s.aon)
  let l := l.filter (fun e => e.1 != n) ++ [(n, data)]
  let s : State := { s with twin := { s.twin with part := some (seq, l, at_) } }
  if l.length = 12 then
    s.ckptJudge ((List.range 12).flatMap (fun i => ((l.find? (fun e => e.1 == i)).map Prod.snd).getD []))
  else s

/-- `TWIN_FRAME_RECEIVED`: bytes 0 to m of a frame to the own twin address; none for WAKE, which is its address alone. A
receiver at rest is woken by its address; one that is not READY takes no byte. The PEC is over the own twin address byte
and every byte that follows (R451). -/
def execTwinFrameReceived (bytes : List Byte) (pec : Byte) (s : State) : Host.Outcome State Fault Refusal :=
  .next (if ¬ s.bit TWIN_STAT.EN ∨ ¬ s.pins.vddio then s
    else if s.mode.resting then if s.bit MODE.MATCH_ON then s.wake 3 else s
    else if ¬ s.awake ∨ ¬ s.boot.marten ∨ bytes = [] then s
    else
      let b (i : Nat) : Nat := (bytes.getD i 0).toNat
      let seq := b 1 * 0x100 + b 2
      let own := s.get TWIN_XBASE.w + if s.pins.role then 1 else 0
      let pecOk : Bool := crc8 (BitVec.ofNat 8 (2 * own) :: bytes) == pec
      if pecOk ∧ b 0 = 0 ∧ bytes.length = 1 then s
      else if pecOk ∧ b 0 = 1 ∧ bytes.length = 132 ∧ b 3 / 0x10 ≤ 11 then s.chunkIn seq (b 3 / 0x10) (bytes.drop 4)
      else if pecOk ∧ b 0 = 2 ∧ bytes.length = 3 then
        if s.isStandby ∧ s.bit TWIN_STAT.CKPT_VALID ∧ s.get TWIN_RX_SEQ.w = seq ∧ s.twin.claimDue = none then s.wantClaim 2
        else s
      else if pecOk ∧ b 0 = 3 ∧ bytes.length = 4 then
        ((s.put TWIN_STEST_RES.PARTNER (b 1)).feedPartner (b 1)).twinRecRx 4 2 (b 1)
      else s.inc TWIN_CNT_BAD.w)

/-- `PARTIAL_SET_TIMEOUT`: 5 s after the first chunk. -/
def execPartialSetTimeout (s : State) : Host.Outcome State Fault Refusal :=
  .next ({ s with twin := { s.twin with part := none } })

/-- `CHECKPOINT_CONFIG_COPY`. -/
def execCheckpointConfigCopy (s : State) : Host.Outcome State Fault Refusal :=
  .next (match s.twin.held with
    | some d => { s with twin := { s.twin with copy := some d } }
    | none => s)

/-! ### Standby self-test (R461) -/

/-- The self-test falls due: the day and hour have come with the time known, and no takeover waits. -/
def State.stestDue (s : State) : Bool :=
  s.isStandby && s.bit TWIN_CFG.STEST_EN && s.dayNo % max 1 (s.get TWIN_STEST.DAYS) == 0 &&
  decide (s.stestAt ≤ s.sec ∧ s.time.left31 ≤ s.stestAt) && codeOf s.time.whole != 31 && s.twin.claimDue.isNone && s.twin.stestDay != some s.dayNo

/-- An LF occurrence of the partner's plans, as the checkpoint names it, overlaps the 60 s of the LF check. -/
def State.partnerLf (s : State) : Bool :=
  match s.twin.held with
  | some d => allFns.any (fun f => (ckptWatches d f).any (fun w =>
      lfWatch w &&
      (match lastNominal w (recStart w) (s.ktime + 60 * 2 ^ 24) with
        | some n => decide (s.ktime < n + recDur w * 2 ^ 24)
        | none => false)))
  | none => false

/-- `STANDBY_SELFTEST`: a resting unit wakes for it; awake, it starts in MAINTAIN; while it runs, it ends with the checks that
hardware decides in `mask`, a set bit being a failure. -/
def execStandbySelftest (mask : Nat) (s : State) : Host.Outcome State Fault Refusal :=
  .next (if s.twin.testing then
    if s.awake then
      let lf := match s.twin.held with | some d => allFns.any (fun f => (ckptWatches d f).any lfWatch) | none => false
      let m := s.checkMask mask lf (mask / 128 % 2 = 0)
      let s : State := { s with twin := { s.twin with
        stestDay := some s.dayNo, frameOut := [3, BitVec.ofNat 8 m, 0, 0], testing := false } }
      (((s.put TWIN_STEST_RES.OWN m).feedSelf m).twinRecRx 4 1 m).showMaintain
    else s
  else if s.stestDue ∧ ¬ s.partnerLf ∧ s.get MODE.CUR ≠ 0 then
    if s.mode.resting then s.serviceWake
    else if s.awake then ({ s with twin := { s.twin with testing := true } } : State).showMaintain
    else s
  else s)

end Sys2Proof.Machine
end

