-- ==== Sys2Proof/Machine/Reports.lean ====
section
/-! DEFINITION. What Flint signs on request: records and health reports (R132 to R134, R480). -/

namespace Sys2Proof.Machine

open R

/-- Flint's refusal of a signature: LOCKED while it is locked (R133), RESOURCE for F0 without an identity key (R134). -/
def State.signError (s : State) (f : Fn) : Nat :=
  if s.bit FLINT_STAT.LOCKED then eLOCKED
  else if f = .f0 ∧ ¬ s.bit FLINT_STAT.IDENT_OK then eRES
  else 0

/-- A refused signature is counted. -/
def State.noteRefusal (s : State) (err : Nat) : State := if err = eLOCKED then s.inc FLINT_REFCNT.w else s

/-- `SIGN_RECORD`: what the manual does not state of its arguments and results is open (log entry 28). -/
def execSignRecord (f : Fn) (s : State) : Host.Outcome State Fault Refusal :=
  .next (s.withFlint f 4 (fun _ =>
    let e := s.signError f
    if e = 0 then
      let (l, s) := s.freshWords 4
      s.outcome f 0 l
    else (s.noteRefusal e).outcome f e []))

/-- Bytes 0 to 47 of a health report (Table 21.5). -/
def State.report (s : State) (signed : Bool) : List Byte :=
  let flags := s.get HLT_STAT.REPLACE + 2 * s.fget .f0 FN_STATE.UNTRUSTED + 4 * s.fget .f0 FN_STATE.COMPAT +
    (if s.pins.role then 8 else 0) + 16 * s.get MODE.STANDBY + if signed then 32 else 0
  let b (n : Nat) : Byte := BitVec.ofNat 8 n
  [0x4B, 0x52, 0x4B, 0x48, 1, b flags, b (s.get HLT_STAT.REASON), b (s.get HLT_LIFE.MONTHS)] ++
  leBytes (s.get32 EDF_SERIAL_L.w) 4 ++ leBytes s.sec 4 ++
  [b s.tqNow, b (s.get FLOOD_STAT.STATE), b (s.get HLT_RCAUSE.LAST), 0] ++
  leBytes (s.get32 LEDGER_L.w) 4 ++ leBytes (s.get32 TWIN_PLEDGER_L.w) 4 ++ monIds.map (fun id => b (s.mon id).months) ++
  [b (s.get TWIN_STEST_RES.OWN), b (s.get TWIN_STEST_RES.PARTNER), 0, b (s.get IMG_RUN_VER.MAJOR),
    b (s.get IMG_RUN_VER.MINOR), 0, 0]

/-- `HEALTH_REPORT`: into the caller's Burrow user area; `sig` is the ECDSA signature that Flint forms for F0 over bytes 0 to
47, whose random number is open; a tenant's report carries the CMAC under its own key. -/
def execHealthReport (f : Fn) (sig : List Byte) (s : State) : Host.Outcome State Fault Refusal :=
  .next (s.withFlint f 0xE (fun a =>
    let e := if arg a 0 % 2 = 1 then s.signError f else 0
    let signed : Bool := arg a 0 % 2 == 1 && e == 0
    let rep := s.report signed
    let bytes := if signed then rep ++ (if f = .f0 then pad 64 sig else Crypto.cmac (Config.functionKey f.toNat) rep) else rep
    let at_ := 0x300F00 + 0x1000 * f.toNat
    ((s.noteRefusal e).setBytes at_ bytes).outcome f e (BitVec.ofNat 16 bytes.length :: lowHigh at_)))

end Sys2Proof.Machine
end

