-- ==== Sys2Proof/Machine/Bus.lean ====
section
/-! DEFINITION. Register access by a function: how a read or a write is judged, what a register reads and what a write
does (R7 to R12, R75 to R77, R225, R226, R515 to R517). -/

namespace Sys2Proof.Machine

open R

/-! ### Who reaches what (R12, R127, R142, R225, R226, R230, R515) -/

/-- How the first steps of R515 decide an access. -/
inductive Gate where
  /-- The access goes on. -/
  | serve
  /-- Reserved space: a read gives 0x0000, a write is ignored, `FN_ERR` stays (R12). -/
  | reserved
  /-- The access is refused with this `FN_ERR` code. -/
  | deny (code : Nat)
  deriving DecidableEq, Repr

/-- The key that an offset of function `f`'s window names; `none` on page 0x00 and pages from 0x19 up. -/
def State.keyAt (s : State) (f : Fn) (off : Nat) : Option Nat :=
  if off < 0x80 then some (commonKey f.toNat off)
  else
    let p := s.fget f PAGE.SEL
    if 1 ≤ p ∧ p ≤ 0x18 then some (p * 0x100 + off) else none

/-- The window offset of a key. -/
def offOf (k : Nat) : Nat := k % 0x100

/-- The key's register, a common one by its offset. -/
def baseKey (k : Nat) : Nat := if k < 0x10000 then k else k % 0x10000

/-- Offsets of the AON-stored common part and `PAGE`. -/
def aonOffset (off : Nat) : Bool := off ≤ 0x16 || off == 0x7F

/-- Step 1 of R515: readiness, HOST-LOAD wait and function reset. `early` marks a frame that the matcher acknowledged
(R201). A function reset in HOST-LOAD wait gives BUSY first (log entry 184). -/
def State.gate1 (s : State) (f : Fn) (off page : Nat) (early : Bool) : Gate :=
  if ¬ s.mode.ready ∧ ¬ (early ∧ aonOffset off) then .deny eNRDY
  else if s.fget f FN_STATE.RESET_BUSY = 1 ∧ 7 < off then .deny eBUSY
  else if s.hostLoading ∧ ¬ (if f = .f0 then
      aonOffset off || (0x20 ≤ off && off ≤ 0x2C) || (0x60 ≤ off && off ≤ 0x66) || (0x80 ≤ off && 4 ≤ page && page ≤ 6)
    else off ≤ 7) then .deny eNRDY
  else .serve

/-- Pages whose writes are reserved to F0. -/
def f0Page (page : Nat) : Bool := 1 ≤ page && page ≤ 9

/-- Step 2: a tenant's grant, and pages whose writes are F0's. -/
def State.gate2 (s : State) (f : Fn) (page : Nat) (write : Bool) : Gate :=
  if f = .f0 ∨ page = 0 then .serve
  else if s.grant f page = 0 ∨ (write ∧ (s.grant f page ≠ 2 ∨ f0Page page)) then .deny eGRANT
  else .serve

/-- Step 3: no register stands there; `INT_STAT1` and `INT_EN1` are F0's alone. -/
def gate3 (f : Fn) (k : Nat) : Gate :=
  if (regDef? k).isNone ∨ (f ≠ .f0 ∧ (baseKey k = INT_STAT1.w.key ∨ baseKey k = INT_EN1.w.key)) then .reserved
  else .serve

/-- Steps 1 to 3 for an offset and the key it names. -/
def State.gate (s : State) (f : Fn) (off : Nat) (key : Option Nat) (write early : Bool) : Gate :=
  match key with
  | none => match s.gate1 f off 0 early with
    | .serve => .reserved
    | g => g
  | some k =>
    match s.gate1 f off (keyPage k) early with
    | .serve => match s.gate2 f (keyPage k) write with
      | .serve => gate3 f k
      | g => g
    | g => g

/-! ### Reading (R75 to R77, R226, R236, R238) -/

/-- The level that an output function gives a GPIO pin; none for an input, and for an output at high impedance without
`VDDIO` or in factory test (Table 2.2, R29, R32, R103, R368). -/
def State.gpioDrive (s : State) (cfg : Nat) : Option Bool :=
  let inv : Bool := cfg / 16 % 2 == 1
  if ¬ s.pins.vddio ∨ s.pins.test then none
  else match cfg % 8 with
    | 1 => some ((cfg / 8 % 2 == 1) != inv)
    | 2 => some (decide (s.aon < s.time.pulseEnd) != inv)
    | 3 => some (s.bit PWR_STAT.BURST_OK != inv)
    | 4 => some (s.mode.mirror != inv)
    | _ => none

/-- The level of a GPIO pin: what the device drives, else what stands outside, which is open. -/
def State.gpioLevel (s : State) (cfg : Nat) : Bool × State :=
  match s.gpioDrive cfg with
  | some b => (b, s)
  | none =>
    let (w, s) := s.fresh
    (w.getLsbD 0, s)

/-- `GPIO_IN`. -/
def State.gpioIn (s : State) : Word × State :=
  let (a, s) := s.gpioLevel (s.get GPIO0_CFG.w)
  let (b, s) := s.gpioLevel (s.get GPIO1_CFG.w)
  (BitVec.ofNat 16 ((if a then 1 else 0) + if b then 2 else 0), s)

/-- A leap second is being inserted (R365). -/
def State.inLeap (s : State) : Bool := s.get TIME_LEAP_PEND.w == 1 && s.sec + 1 == s.get32 TIME_LEAP_AT_L.w

/-- The word `KTIME_TQ` shows. -/
def State.tqWord (s : State) : Word := (s.putBit KTIME_TQ.INLEAP s.inLeap).reg KTIME_TQ.w.key

/-- Registers of the common part that are more than a stored word. -/
def State.liveCommon (s : State) (f : Fn) (off : Nat) : Word :=
  let q := (s.eng f).queue
  if off = 0 then (s.put (FN_ID.FN.on f.toNat) f.toNat).reg (commonKey f.toNat 0)
  else if 8 ≤ off ∧ off ≤ 0xB then BitVec.ofNat 16 (s.ktime / 0x10000 ^ (off - 8))
  else if off = 0xC then s.tqWord
  else if off = 0xD then BitVec.ofNat 16 (code16 s.time.leap)
  else if off = 0x16 then BitVec.ofNat 16 (s.cnt f (s.fget f INT_CNT_SEL.SRC))
  else if off = 0x51 then BitVec.ofNat 16 q.length
  else if off = 0x53 ∨ off = 0x56 then q.headD 0
  else if off = 0x54 then BitVec.ofNat 16 (s.dqSize f)
  else if off = 0x64 then (s.putBit (MEM_STAT.BUSY.on f.toNat) s.flashBusy).reg (MEM_STAT.w.on f.toNat).key
  else s.reg (commonKey f.toNat off)

/-- `DAB_CAP` (R336, R337). -/
def State.dabCap (s : State) : Word :=
  BitVec.ofNat 16 ((if s.variantFL then 0 else 0x80C0) + if s.pikaOn then 0x4000 else 0)

/-- Pika is released and holds a job: a DAB reception, or the analysis of a capture that is due (Table 4.1). -/
def State.pikaJob (s : State) : Bool :=
  s.pikaOn && ((match s.fe.rx with | some r => bearer r.kfc == 3 | none => false) || s.capt.statsDue)

/-- `CLK_STAT`: the clocks that run now (R67, Table 4.1). -/
def State.clkStat (s : State) : Word :=
  ((s.putBit CLK_STAT.HFRC_ON s.hfrcOn).putBit CLK_STAT.PIKA_ON (s.pikaJob && s.bit CLK_STAT.PLL_LOCK)).reg CLK_STAT.w.key

/-- The live value of the register at a key. -/
def State.live (s : State) (f : Fn) (k : Nat) : Word × State :=
  if 0x10000 ≤ k then (s.liveCommon f (baseKey k), s)
  else if k = GPIO_IN.w.key then s.gpioIn
  else if k = CLK_STAT.w.key then (s.clkStat, s)
  else if k = EDF_STAT.w.key then ((s.putBit EDF_STAT.NODEC (!s.pikaUsable)).reg k, s)
  else if k = TWIN_STAT.w.key then (s.twinStatWord, s)
  else if k = TIME_XO_ERR.w.key then (BitVec.ofNat 16 s.xoErrWord, s)
  else if k = CAL_REC_AGE.w.key then (s.showCalAge.reg k, s)
  else if k = FLOOD_LFDEV.w.key then (s.showLfDev.reg k, s)
  else if k = DAB_CAP.w.key then (s.dabCap, s)
  else (s.reg k, s)

/-- Capture words of two-word snapshot groups. -/
def pairGroups : List Nat :=
  [0x65, 0x38A, 0x38C, 0x682, 0x68A, 0x692, 0x69E, 0x788, 0xB81, 0xB85, 0xC83, 0xC89, 0xE83, 0xE85, 0xF83,
   0x1187, 0x1189, 0x1191, 0x1282, 0x12A0, 0x12A2, 0x12A4, 0x12A6, 0x12A8, 0x12AA, 0x12AC, 0x12AE, 0x12B1,
   0x1389, 0x138B, 0x1489, 0x148B, 0x1582, 0x15AC, 0x168B, 0x168D, 0x1787, 0x1789, 0x1886, 0x1889]

/-- The snapshot groups of R75: capture word and number of words, a common word by its offset. -/
def snapGroups : List (Nat × Nat) :=
  [(0x08, 6), (0x5A0, 32), (0x1586, 3), (0x15A0, 12)] ++ pairGroups.map (fun k => (k, 2))

/-- The group a word belongs to. -/
def groupOf (k : Nat) : Option (Nat × Nat) := snapGroups.find? (fun g => g.1 ≤ k && k < g.1 + g.2)

/-- A host port with latches of its own (R76). -/
inductive HostPort where
  | spi | tw
  deriving DecidableEq, Repr

/-- The key of a latch: port, function and word. -/
def latchKey (p : HostPort) (f : Fn) (k : Nat) : Nat :=
  ((match p with | .spi => 0 | .tw => 4) + f.toNat) * 0x100000 + k

/-- The latch of a word. -/
def State.latch (s : State) (p : HostPort) (f : Fn) (k : Nat) : Word := Sparse.get (fun _ => (0 : Word)) s.latches (latchKey p f k)

/-- Captures `n` words from key `k` up into the latches. -/
def State.capture (s : State) (p : HostPort) (f : Fn) (k : Nat) : Nat → State
  | 0 => s
  | n + 1 =>
    let (w, s) := s.live f k
    let s : State := { s with latches := Sparse.put (fun _ => (0 : Word)) s.latches (latchKey p f k) w }
    s.capture p f (k + 1) n

/-- A `MEM_DATA` read without the advance. -/
def State.memPeek (s : State) (f : Fn) : Word × State :=
  let a := (s.eng f).memAddr
  let (w, t) := s.memRead f false
  (w, t.setMemAddr f a)

/-- The value an admitted read fetches: from a latch where the word belongs to a snapshot group. Words that a read
removes are not removed here. -/
def State.readKey (s : State) (p : HostPort) (f : Fn) (k : Nat) : Word × State :=
  if baseKey k = MEM_DATA.w.key then s.memPeek f
  else match groupOf (baseKey k) with
    | some (c, n) =>
      let s := if c = baseKey k then s.capture p f k n else s
      (s.latch p f k, s)
    | none => s.live f k

/-- A read of a window offset through a port: 0x0000 where R515 refuses it (R7, R12, R225). -/
def State.fetch (s : State) (p : HostPort) (f : Fn) (off : Nat) (early : Bool) : Word × State :=
  let key := s.keyAt f off
  match s.gate f off key false early, key with
  | .serve, some k => s.readKey p f k
  | .deny c, _ => (0, s.setErr f c)
  | _, _ => (0, s)

/-- A word has been clocked out whole: a register that removes data on read loses it (R176, R196). -/
def State.remove (s : State) (f : Fn) (off : Nat) (early : Bool) : State :=
  match s.gate f off (s.keyAt f off) false early with
  | .serve =>
    if off = 0x53 then (s.dqRead f).2
    else if off = 0x63 then
      let a := (s.eng f).memAddr
      let t := (s.memRead f false).2
      if (t.eng f).memAddr = a then s else s.setMemAddr f (t.eng f).memAddr
    else s
  | _ => s

/-! ### Two-wire addresses (R188 to R191, R451) -/

/-- The address settings: mode, `TW_FADDR01`, `TW_FADDR23`, `TW_ADDR`, `TW_MASK`, `TW_HOSTADDR`. -/
def State.addrCfg (s : State) : List Nat :=
  [s.get TW_CFG.ADDR_MODE, s.get TW_FADDR01.w, s.get TW_FADDR23.w, s.get TW_ADDR.ADDR, s.get TW_MASK.MASK, s.get TW_HOSTADDR.ADDR]

/-- The marked bits of `mask`, packed in ascending order out of `a`. -/
def packBits7 (mask a : Nat) : Nat :=
  ((List.range 7).foldl (fun (r : Nat × Nat) i =>
    if mask / 2 ^ i % 2 = 1 then (r.1 + a / 2 ^ i % 2 * 2 ^ r.2, r.2 + 1) else r) (0, 0)).1

/-- The function an address names under the settings (R189, R190). -/
def matchAddr (cfg : List Nat) (a : Nat) : Option Fn :=
  let c (i : Nat) : Nat := cfg.getD i 0
  if c 0 = 0 then
    let half (w h : Nat) : Nat := w / 0x100 ^ h % 0x100
    let own : List (Nat × Fn) := [(half (c 1) 0, .f0), (half (c 1) 1, .f1), (half (c 2) 0, .f2), (half (c 2) 1, .f3)]
    (own.find? (fun e => e.1 == 0x80 + a)).map Prod.snd
  else if (a ^^^ c 3) &&& (0x7F ^^^ c 4) = 0 then some (Fn.ofIndex (packBits7 (c 4) a))
  else none

/-- Addresses the port may not take (R188). -/
def barred (a : Nat) : Bool := a ≤ 7 || 0x78 ≤ a

/-- Enabled function addresses of the selected mode, with repeats. -/
def ownAddrs (cfg : List Nat) : List Nat :=
  let c (i : Nat) : Nat := cfg.getD i 0
  if c 0 = 0 then
    ([c 1 % 0x100, c 1 / 0x100 % 0x100, c 2 % 0x100, c 2 / 0x100 % 0x100].filter (fun b => 0x80 ≤ b)).map (fun b => b - 0x80)
  else (List.range 0x80).filter (fun a => (a ^^^ c 3) &&& (0x7F ^^^ c 4) == 0)

/-- The check of R191. -/
def addrsOk (cfg : List Nat) : Bool :=
  let host := cfg.getD 5 0
  let own := ownAddrs cfg
  !barred host && own.all (fun a => !barred a && a != host) && decide own.Nodup

/-- The check of R451 on a twin base address. -/
def State.xbaseOk (s : State) (b : Nat) : Bool :=
  let own := s.get TW_HOSTADDR.ADDR :: ownAddrs s.addrCfg
  b % 2 == 0 && !barred b && !barred (b + 1) && !own.contains b && !own.contains (b + 1)

/-- A write of an address register: checked with what it would make, in force from the START after the next STOP. -/
def State.addrWrite (s : State) (f : Fn) (k : Nat) (new : Word) : State :=
  let old := s.addrCfg
  let t := s.setReg k new
  if t.addrCfg = old then t
  else if ¬ addrsOk t.addrCfg then s.setErr f eBADARG
  else if t.tw.forceDue then t
  else { t with tw := { t.tw with force := old, forceDue := true } }

/-- The settings in force. -/
def State.addrForce (s : State) : List Nat := if s.tw.forceDue then s.tw.force else s.addrCfg

/-! ### Command bits (R517) -/

/-- Performs the set bits of a command word in ascending order; `FN_ERR` takes the code of the lowest refused one. -/
def State.woBits (s : State) (f : Fn) (v : Word) (l : List (Nat × (State → State))) : State :=
  let e0 := s.fget f FN_ERR.CODE
  let step (r : State × Nat) (b : Nat × (State → State)) : State × Nat :=
    if v.getLsbD b.1 then
      let t := b.2 (r.1.setErr f 0)
      let e := t.fget f FN_ERR.CODE
      (t, if r.2 = 0 then e else r.2)
    else r
  let (t, e) := l.foldl step (s, 0)
  t.setErr f (if e = 0 then e0 else e)

/-! ### What a write does, by page -/

/-- The bit engine and the matcher are reset: a frame and an attempt end, configuration, pointers and messages stay
(R215). -/
def State.twReset (s : State) : State := ((s.twAbandon wTWRST).attnEnd 9).twEvt TW_EVT.TWRST_SEEN

/-- The device drives one 200 µs pulse on `TWRST_N`, which also resets its own block (R215, R216). -/
def State.twrstDrive (s : State) : State :=
  ({ s with pins := { s.pins with twrstPulses := s.pins.twrstPulses + 1 } } : State).twReset

/-- The common part. `new` is the word the register would hold. -/
def State.writeCommon (s : State) (f : Fn) (k : Nat) (v new : Word) : State :=
  let off := baseKey k
  if off = FN_RESET.w.key then (if v.getLsbD 0 then s.resetStart f f else s)
  else if off = FN_ERR.w.key then s.setErr f 0
  else if off = ATTN_ACK.w.key then (if v.toNat % 16 = s.fget f ATTN_ACK.SEQ then s.attnCancel f else s)
  else if off = INT_ROUTE.w.key ∧ f ≠ .f0 then s.setReg k (new &&& 0x000F)
  else if CMD_OP.w.key ≤ off ∧ off ≤ (CMD_ARG.w 5).key then
    if s.fget f CMD_STAT.BUSY = 1 then s.setErr f eBUSY else s.setReg k new
  else if off = CMD_GO.w.key then
    if ¬ v.getLsbD 0 then s
    else if s.hostLoading ∧ s.fget f CMD_OP.w % 0x100 ≠ 0xD then s.setErr f eNRDY
    else s.cmdGo f
  else if off = PLAN_CTRL.w.key then
    s.woBits f v [(0, fun s => s.planBegin f), (1, fun s => s.planSubmit f), (2, fun s => s.planWithdraw f)]
  else if off = PLAN_WIDX.w.key then s.planWidx f v
  else if off = (WREC.w 15).key then s.wrec15 f v
  else if (WREC.w 0).key ≤ off ∧ off < (WREC.w 15).key ∧ s.fget f PLAN_STAT.BUSY = 1 then s.setErr f eBUSY
  else if off = DQ_CTRL.w.key then (if v.getLsbD 0 then s.flushQueue f else s)
  else if off = MEM_ADDR_L.w.key then s.memAddrWrite f v.toNat
  else if off = MEM_DATA.w.key then s.memWrite f v
  else s.setReg k new

/-- Pages CLK to PWR. -/
def State.writeLow (s : State) (f : Fn) (k : Nat) (v new : Word) : State :=
  if k = MODE_CMD.w.key then (if v.toNat % 4 = 1 then s.shutdown f else s.restNowCmd)
  else if k = WAKE_HREASON.w.key then (if v.getLsbD 15 then s.clearPend else s)
  else if k = PWR_CMD.w.key then
    s.woBits f v [(0, fun s => s.depassGo f), (1, State.ledgerLoad), (2, fun s => s.estReset f)]
  else if k = RES_CNOM.w.key then
    let s := s.setReg k new
    if s.pwr.cSeen then s else (s.put RES_C_EST.w s.cDefault).followEstimates
  else if k = X32_TRIM.w.key then
    let s := s.setReg k new
    { s with mode := { s.mode with x32Load := s.get X32_TRIM.CL } }
  else if k = CHG_CFG.w.key ∨ k = VRES_TGT.w.key ∨ k = VRES_STOP.w.key ∨ k = BUCK_V.w.key ∨ k = RES_ESR.w.key then
    (s.setReg k new).wantReadmit
  else s.setReg k new

/-- The `PART_QH` sum in KiB fits the Hoard area of the flash fitted (R243). -/
def State.qhFits (s : State) : Bool :=
  decide (s.get (PART_QH_F.w 0) + s.get (PART_QH_F.w 1) + s.get (PART_QH_F.w 2) + s.get (PART_QH_F.w 3) ≤
    4 * (s.edf.flashSize / 0x1000 - 0x210))

/-- Pages BOOT to PART. -/
def State.writeMid (s : State) (f : Fn) (k : Nat) (v new : Word) : State :=
  if k = BOOT_CFG.w.key then
    let s := s.setReg k new
    { s with boot := { s.boot with cfgDirty := true } }
  else if k = IMG_PREF.w.key then s.imgPref (v.toNat % 2) (v.getLsbD 8)
  else if k = IMG_REVOKE.w.key then s.imgRevoke f (v.toNat % 4)
  else if k = HP_CMD.w.key then (if v.getLsbD 0 then s.zeroRegs HP_CNT_SHORT.w.key 7 else s)
  else if k = TW_CMD.w.key then
    s.woBits f v [(0, fun s => s.zeroRegs TW_CNT_ERR.w.key 3), (1, State.twrstDrive)]
  else if k = TW_CFG.w.key ∨ k = TW_FADDR01.w.key ∨ k = TW_FADDR23.w.key ∨ k = TW_ADDR.w.key ∨ k = TW_MASK.w.key ∨
      k = TW_HOSTADDR.w.key then s.addrWrite f k new
  else if k = PART_CMD.w.key then
    s.woBits f v [(0, State.partLock), (1, fun s => s.resetStart f .f1), (2, fun s => s.resetStart f .f2),
      (3, fun s => s.resetStart f .f3)]
  else if k = PART_DQ.w.key then
    let n := new.toNat
    if 16 < n % 16 + n / 16 % 16 + n / 256 % 16 + n / 4096 then s.setErr f eRES else s.partDq n
  else if (PART_QH_F.w 0).key ≤ k ∧ k ≤ (PART_QH_F.w 3).key then
    let t := s.setReg k new
    if t.qhFits then t else s.setErr f eRES
  else s.setReg k new

/-- Pages SCHED to TIME. -/
def State.writeRadio (s : State) (f : Fn) (k : Nat) (v new : Word) : State :=
  if k = FES_AF_CTL.w.key then (if v.getLsbD 0 then s.afGo f else s)
  else if k = FES_RAW_CTL.w.key then s.rawCtl v
  else if FES_RAW_LNA.w.key ≤ k ∧ k ≤ FES_RAW_LFPGA.w.key then s.rawWrite k v
  else if k = FLOOD_CMD.w.key then (if v.getLsbD 0 then s.relearn else s)
  else if k = SYN_APPLY.w.key then (if v.getLsbD 0 then s.synApply else s)
  else if k = LFT_TPL_SEL.w.key then s.tplSel v.toNat
  else if k = LFT_TPL_CTL.w.key then s.woBits f v [(0, fun s => s.tplCommit f), (1, fun s => s.tplClear f)]
  else if k = TIME_LOSS_THR.w.key then s.thrWrite (v.toNat % 0x20)
  else if k = TIME_CMD.w.key then s.woBits f v [(0, State.modelReset), (1, State.clearLeap)]
  else s.setReg k new

/-- A setting of a serial port that R412 keeps while the port runs, or of the link and the capture that R444 keeps while a
capture runs. -/
def State.portHeld (s : State) (k : Nat) : Bool :=
  ((AP.FMT.w 0).key ≤ k && k ≤ (AP.LOWAT.w 0).key && s.ap.p0.run) ||
  ((AP.FMT.w 1).key ≤ k && k ≤ (AP.LOWAT.w 1).key && s.ap.p1.run) ||
  ((k == BPH_CFG.w.key || k == BPH_DIV_I.w.key || k == BPH_DIV_F.w.key || k == CAPT_CFG.w.key || k == CAPT_BLK_FR.w.key) &&
    s.capt.job.isSome)

/-- Pages EDF to HEALTH. -/
def State.writeHigh (s : State) (f : Fn) (k : Nat) (v new : Word) : State :=
  if k = EDF_CMD.w.key then
    s.woBits f v [(0, State.hoardFlush), (1, State.vanClr), (2, fun s =>
      if f ≠ .f0 then s.setErr f eGRANT else if v.toNat / 0x100 = 0x96 then s.edfErase f else s.setErr f eBADARG)]
  else if s.portHeld k then s.setErr f eBUSY
  else if k = (AP.CTL.w 0).key then s.ctlWrite f .ap0 v
  else if k = (AP.CTL.w 1).key then s.ctlWrite f .ap1 v
  else if k = (AP.WPTR.w 0).key then s.wptrWrite f .ap0 v
  else if k = (AP.CMD.w 0).key then (if v.getLsbD 0 then s.ringRst f .ap0 else s)
  else if k = BPH_CTL.w.key then s.ctlWrite f .bph v
  else if k = BPH_WPTR.w.key then s.wptrWrite f .bph v
  else if k = BPH_CMD.w.key then (if v.getLsbD 0 then s.ringRst f .bph else s)
  else if k = CAPT_REL.w.key then s.captRel v
  else if k = CAPT_CMD.w.key then (if v.getLsbD 0 then s.spillDel f else s)
  else if k = TWIN_CFG.w.key then s.twinCfg new.toNat
  else if k = TWIN_XBASE.w.key then (if s.xbaseOk (new.toNat % 0x80) then s.setReg k new else s.setErr f eBADARG)
  else if k = TWIN_EVT.w.key then
    let s := s.setReg k new
    { s with hlt := { s.hlt with
      silentAt := if s.bit TWIN_EVT.PARTNER_SILENT then s.hlt.silentAt else none,
      stuckAt := if s.bit TWIN_EVT.HB_STUCK then s.hlt.stuckAt else none } }
  else if k = TWIN_CMD.w.key then (if v.getLsbD 0 then s.ckptNow f else s)
  else if k = HLT_CMD.w.key then
    s.woBits f v [(0, State.wantSample), (1, fun s => s.replaceClr f), (2, fun s => s.svcStart f)]
  else s.setReg k new

/-- Step 6 of R515. -/
def State.writeEffect (s : State) (f : Fn) (k : Nat) (v new : Word) : State :=
  let p := keyPage k
  if p = 0 then s.writeCommon f k v new
  else if p ≤ 3 then s.writeLow f k v new
  else if p ≤ 9 then s.writeMid f k v new
  else if p ≤ 0x11 then s.writeRadio f k v new
  else s.writeHigh f k v new

/-! ### Writing (R7, R10, R515 to R517) -/

/-- The word a register would hold after a write: its RW and unlocked RWL bits take the written ones, written 1s clear W1C
bits, every other bit stays (Table 0.3). -/
def RegDef.merge (d : RegDef) (old v : Word) (locked : Bool) : Word :=
  let m : Word := BitVec.ofNat 16 d.rw ||| (if locked then 0 else BitVec.ofNat 16 d.rwl)
  (v &&& m) ||| (old &&& ~~~(m ||| (BitVec.ofNat 16 d.w1c &&& v)))

/-- The word that R10 judges: the written one, with what a lock keeps. -/
def RegDef.judged (d : RegDef) (old v : Word) (locked : Bool) : Word :=
  let kept : Word := if locked then BitVec.ofNat 16 d.rwl else 0
  (v &&& ~~~kept) ||| (old &&& kept)

/-- A write that step 3 has let pass: whether R7 or R10 ignored it or a part of it, and the state after it. -/
def State.writeReg (s : State) (f : Fn) (k : Nat) (v : Word) : Bool × State :=
  match regDef? k with
  | none => (true, s)
  | some d =>
    let locked := s.bit PART_STAT.LOCKED
    let old := s.reg k
    let differs : Bool := locked && (v ^^^ old) &&& BitVec.ofNat 16 d.rwl != 0
    if d.rw = 0 ∧ d.w1c = 0 ∧ d.wo = 0 ∧ d.rwl = 0 then (true, s)
    else if ¬ legalWord f (baseKey k) (d.judged old v locked) then (true, s.setErr f eBADARG)
    else
      let t := if d.rw = 0 ∧ d.w1c = 0 ∧ d.wo = 0 ∧ locked then s else s.writeEffect f k v (d.merge old v locked)
      (differs, if differs then t.setErr f eLOCKED else t)

/-- A write to a key of function `f`'s window: R515 as a whole. -/
def State.writeKey (s : State) (f : Fn) (off : Nat) (key : Option Nat) (v : Word) (early : Bool) : Bool × State :=
  match s.gate f off key true early, key with
  | .serve, some k => s.writeReg f k v
  | .deny c, _ => (true, s.setErr f c)
  | _, _ => (true, s)

/-- A word that a host port commits at an offset of function `f`'s window. -/
def State.hostWrite (s : State) (f : Fn) (off : Nat) (v : Word) (early : Bool) : State :=
  (s.writeKey f off (s.keyAt f off) v early).2

/-- A write of a named register by function `f`: a field of the common part by its offset, any other by its page and
offset, whatever `PAGE` holds. It is a host register access (R101). -/
def State.cmdWrite (s : State) (f : Fn) (x : Fld) (v : Word) : State :=
  let k := if x.key < 0x80 then commonKey f.toNat x.key else x.key
  let s := if s.mode.ready then s.regAccess else s
  (s.writeKey f (offOf k) (some k) v false).2

end Sys2Proof.Machine
end

