-- ==== Sys2Proof/Machine/Spi.lean ====
section
/-! DEFINITION. The host serial port: STATUS16, the four frame shapes, their outcomes and what ends them (spec 08). -/

namespace Sys2Proof.Machine

open R

/-! ### Command byte and STATUS16 (R168, R170, R171) -/

/-- The function a command byte names (Table 8.1). -/
def cmdFn (cmd : Byte) : Fn := Fn.ofIndex (cmd.toNat / 0x20 % 4)

/-- The window offset of word `k` of a frame (R170). -/
def cmdAddr (cmd addr : Byte) (k : Nat) : Nat := (addr.toNat + if cmd.getLsbD 4 then k else 0) % 0x100

/-- A bit stands in both words under a mask. -/
def State.both (s : State) (f : Fn) (st en : Fld) (mask : Nat) : Bool := s.fget f st &&& s.fget f en &&& mask != 0

/-- STATUS16 for a function (Table 8.3). -/
def State.status16 (s : State) (f : Fn) : Word :=
  let b (x : Bool) (n : Nat) : Nat := if x then 2 ^ n else 0
  let attn : Bool := allFns.any (fun g => s.fget g ATTN_ACK.OUT == 1) || s.bit WAKE_HREASON.PEND
  BitVec.ofNat 16
    (b s.mode.ready 15 + b attn 14 + b s.spi.err 13 + s.get MODE.CUR * 0x400 + b (s.bit HLT_STAT.REPLACE) 9 +
      b (s.fget .f0 FN_STATE.UNTRUSTED == 1) 8 + s.fget f FN_SEQ.w % 16 * 0x10 +
      b (f == .f0 && s.both f INT_STAT1.w INT_EN1.w 0xFFFF) 3 + b (s.both f INT_STAT0.w INT_EN0.w 0xFF00) 2 +
      b (s.both f INT_STAT0.w INT_EN0.w 0x00FF) 1 + s.fget f CMD_STAT.BUSY)

/-! ### Committing and returning words, on either port (R172, R173, R176, R180, R201) -/

/-- An access reaches its register now: READY, or a frame of the matcher on the AON-stored common part. -/
def State.served (s : State) (off : Nat) (early : Bool) : Bool := s.mode.ready || (early && aonOffset off)

/-- Words commit in order, each on its own; true when none was discarded for want of READY. -/
def State.commitFrom (s : State) (f : Fn) (early : Bool) : List (Nat × Word) → Bool × State
  | [] => (true, s)
  | (off, w) :: l =>
    if s.served off early then (s.hostWrite f off w early).commitFrom f early l
    else (false, (s.commitFrom f early l).2)

/-- The words of a write frame commit. `fresh` says that the frame has not stepped `FN_SEQ` of the function yet. -/
def State.commitWords (s : State) (f : Fn) (early fresh : Bool) (l : List (Nat × Word)) : Bool × State :=
  if l.any (fun e => s.served e.1 early) then
    let s := if fresh then s.incWrap (FN_SEQ.w.on f.toNat) else s
    s.regAccess.commitFrom f early l
  else (l.isEmpty, s)

/-- Registers that lose a word when it is read. -/
def removing (off : Nat) : Bool := off == 0x53 || off == 0x63

/-- Goes through `m` words that start on the bus, of which the first `n` are clocked out whole; `w` is word `k`, fetched
already. The next word is fetched while word `k` shifts out, or once that is removed where both name one removing
register. From the late word on, words read 0xFFFF and none is removed (R176, R177); from the first word that READY = 0
finds unfetched, they read 0x0000 and none is removed (R180). -/
def State.readFrom (s : State) (p : HostPort) (f : Fn) (off : Nat → Nat) (late fell : Option Nat) (early : Bool) (k : Nat)
    (w : Word) (n : Nat) : Nat → List Word × State
  | 0 => ([], s)
  | m + 1 =>
    if fell = some k then (List.replicate (m + 1) 0, s)
    else if late = some k then (List.replicate (m + 1) 0xFFFF, s)
    else
      let same : Bool := off (k + 1) == off k && removing (off k)
      let down : Bool := fell == some (k + 1)
      let (v, s) := if same ∨ down then ((0 : Word), s) else s.fetch p f (off (k + 1)) early
      let s := if n = 0 then s else s.remove f (off k) early
      let (v, s) := if same ∧ n ≠ 0 ∧ ¬ down then s.fetch p f (off (k + 1)) early else (v, s)
      let (l, s) := s.readFrom p f off late fell early (k + 1) v (n - 1) m
      (w :: l, s)

/-- The words of a read: the first is fetched when the address is complete. -/
def State.readWords (s : State) (p : HostPort) (f : Fn) (off : Nat → Nat) (late fell : Option Nat) (early : Bool)
    (n m : Nat) : List Word × State :=
  let (w, s) := if fell = some 0 then ((0 : Word), s) else s.fetch p f (off 0) early
  s.readFrom p f off late fell early 0 w n m

/-! ### Frames (R169, R180, R183, R184) -/

/-- The port sees a frame: `VDDIO` present, no SHUTDOWN or reset, no frame in progress. -/
def State.spiSees (s : State) : Bool :=
  s.pins.vddio && !s.pins.porAsserted && !s.pins.test && s.get MODE.CUR != 0 && s.spi.frame.isNone

/-- The frame may act: it began with READY = 1, its reserved bits are 0 and it has the CRC that `CRC_REQ` asks for. -/
def State.spiValid (s : State) (cmd : Byte) : Bool :=
  s.mode.ready && cmd.toNat % 8 == 0 && (cmd.getLsbD 3 || !s.bit HP_CFG.CRC_REQ)

/-- The rows of Table 8.6 in their order: the first that holds. -/
def firstOf : List (Bool × Nat) → Nat
  | [] => 0
  | (b, c) :: l => if b then c else firstOf l

/-- Rows that every shape shares: a short frame, reserved bits, CRC_REQUIRED. -/
def State.headRows (s : State) (cmd : Byte) (bits : Nat) : List (Bool × Nat) :=
  [(decide (bits < 16), oSHORT), (!cmd.getLsbD 3 && bits % 16 != 0, oSHORT), (cmd.toNat % 8 != 0, oRESCMD),
    (!cmd.getLsbD 3 && s.bit HP_CFG.CRC_REQ, oCRCREQ)]

/-- The frame ends, or stays on the bus with its buffered words. A shut-down device records nothing. -/
def State.spiEnd (s : State) (cmd : Byte) (bits code : Nat) (ready : Bool) (buffer : List (Nat × Word)) (fin : SpiEnd) :
    State :=
  let f : Option Fn := if bits < 3 then none else some (cmdFn cmd)
  if s.get MODE.CUR = 0 then s
  else match fin with
    | .rise => s.spiOutcome f (bits / 8) code ready
    | .held => { s with spi := { s.spi with frame := some ⟨f, bits / 8, ready, buffer⟩ } }

/-- The buffered words of a frame commit, when its end lets them (R174, R185). -/
def State.spiFlush (s : State) : State :=
  match s.spi.frame with
  | some ⟨some f, n, r, l⟩ =>
    let s := (s.commitWords f false true l).2
    if s.get MODE.CUR = 0 then s else { s with spi := { s.spi with frame := some ⟨some f, n, r, []⟩ } }
  | _ => s

/-- A frame in progress is abandoned with an outcome, as if `CS_N` had risen at its last edge (Table 8.6). -/
def State.spiAbandon (s : State) (code : Nat) : State :=
  let s := s.spiFlush
  match s.spi.frame with
  | some fr => s.spiOutcome fr.fn fr.bytes code fr.ready
  | none => s

/-- What every frame begins with: STATUS16 goes out, and a device in rest wakes with cause SPI (R171, R181). -/
def State.spiStart (s : State) (cmd : Byte) : State :=
  let st := s.status16 (cmdFn cmd)
  ({ s with hostOut := [st] } : State).wake 2

/-- A frame without a bit whose `CS_N` has risen is a null frame: it only wakes (R181). -/
def isNull (bits : Nat) (fin : SpiEnd) : Bool := bits == 0 && fin == .rise

/-- `SPI_WRITE_FRAME`: `words` are the completed words, `bits` counts the rising edges. -/
def execSpiWriteFrame (cmd addr : Byte) (words : List Word) (bits : Nat) (fin : SpiEnd) (s : State) :
    Host.Outcome State Fault Refusal :=
  .next (if ¬ s.spiSees ∨ cmd.getLsbD 7 ∨ cmd.getLsbD 3 then s
    else if isNull bits fin then s.wake 2
    else
      let ready := s.mode.ready
      let valid := s.spiValid cmd
      let rows := s.headRows cmd bits
      let n := (bits - 16) / 16
      let l := if valid then (words.take n).zipIdx.map (fun e => (cmdAddr cmd addr e.2, e.1)) else []
      let (whole, s) := (s.spiStart cmd).commitWords (cmdFn cmd) false true l
      s.spiEnd cmd bits (firstOf (rows ++ [(!ready || !whole, oNRDY)])) ready [] fin)

/-- `SPI_WRITE_CRC_FRAME`: `words` are the data words and `crc` the last byte; nothing commits before the frame ends. -/
def execSpiWriteCrcFrame (cmd addr : Byte) (words : List Word) (crc : Byte) (bits : Nat) (fin : SpiEnd) (s : State) :
    Host.Outcome State Fault Refusal :=
  .next (if ¬ s.spiSees ∨ cmd.getLsbD 7 ∨ ¬ cmd.getLsbD 3 then s
    else if isNull bits fin then s.wake 2
    else
      let ready := s.mode.ready
      let n := bits / 8
      let data := words.take ((n - 3) / 2)
      let sum : Bool := crc8 (cmd :: addr :: bytesOfWords data) == crc
      let rows := s.headRows cmd bits ++
        [(bits % 8 != 0, oSHORT), (n % 2 == 0 || decide (n < 3), oLENGTH), (decide (64 < (n - 3) / 2), oOVERLONG), (!sum, oCRC)]
      let good : Bool := firstOf rows == 0 && s.spiValid cmd
      let l := if good then data.zipIdx.map (fun e => (cmdAddr cmd addr e.2, e.1)) else []
      let s := s.spiStart cmd
      match fin with
      | .held => s.spiEnd cmd bits 0 ready l fin
      | .rise =>
        let (whole, s) := s.commitWords (cmdFn cmd) false true l
        s.spiEnd cmd bits (firstOf (rows ++ [(!ready || !whole, oNRDY)])) ready [] fin)

/-- Words that have started, and words clocked out whole, of a read of `bits` edges with a head and a stride. -/
def started (bits head stride : Nat) : Nat := (bits - head + stride - 1) / stride
def clocked (bits head stride : Nat) : Nat := (bits - head + stride - 16) / stride

/-- The words a read returns: 0x0000 where the frame may not act. A word returned with READY = 1 makes it a register
access (R99). -/
def State.spiRead (s : State) (cmd addr : Byte) (late fell : Option Nat) (bits head stride : Nat) (act : Bool) :
    List Word × State :=
  let m := started bits head stride
  let n := clocked bits head stride
  if act ∧ head ≤ bits then
    let (l, s) := s.readWords .spi (cmdFn cmd) (cmdAddr cmd addr) late fell false n m
    (l, if n = 0 ∨ late = some 0 ∨ fell = some 0 then s else s.regAccess)
  else (List.replicate m 0, s)

/-- A word of the frame is late (R177), or finds READY = 0 (R180). -/
def isLate (late : Option Nat) (m : Nat) : Bool := match late with | some k => decide (k < m) | none => false

/-- The late word, where it comes before READY falls. -/
def lateBefore : Option Nat → Option Nat → Option Nat
  | some j, some k => if j < k then some j else none
  | l, _ => l

/-- `SPI_READ_FRAME`: `late` is the first late word and `fell` the first that READY = 0 finds unfetched (R177, R180). -/
def execSpiReadFrame (cmd addr : Byte) (late fell : Option Nat) (bits : Nat) (fin : SpiEnd) (s : State) :
    Host.Outcome State Fault Refusal :=
  .next (if ¬ s.spiSees ∨ ¬ cmd.getLsbD 7 ∨ cmd.getLsbD 3 then s
    else if isNull bits fin then s.wake 2
    else
      let ready := s.mode.ready
      let valid := s.spiValid cmd
      let rows := s.headRows cmd bits
      let (l, s) := (s.spiStart cmd).spiRead cmd addr late fell bits 16 16 valid
      let m := started bits 16 16
      let s : State := { s with hostOut := s.hostOut ++ l.take (clocked bits 16 16) }
      s.spiEnd cmd bits
        (firstOf (rows ++ [(valid && isLate (lateBefore late fell) m, oLATE), (!ready || valid && isLate fell m, oNRDY)]))
        ready [] fin)

/-- The CRC byte after word `k` of the returned words; its complement after a late word or a wrong CRC_H (R178). -/
def readCrc (cmd addr : Byte) (l : List Word) (late : Option Nat) (bad : Bool) (k : Nat) : Word :=
  let c := crc8 (cmd :: addr :: bytesOfWords (l.take (k + 1)))
  let flip : Bool := bad || (match late with | some j => decide (j ≤ k) | none => false)
  (if flip then ~~~c else c).zeroExtend 16

/-- `SPI_READ_CRC_FRAME`: `crc` is CRC_H. -/
def execSpiReadCrcFrame (cmd addr crc : Byte) (late fell : Option Nat) (bits : Nat) (fin : SpiEnd) (s : State) :
    Host.Outcome State Fault Refusal :=
  .next (if ¬ s.spiSees ∨ ¬ cmd.getLsbD 7 ∨ ¬ cmd.getLsbD 3 then s
    else if isNull bits fin then s.wake 2
    else
      let ready := s.mode.ready
      let bad : Bool := crc8 [cmd, addr] != crc
      let act : Bool := s.spiValid cmd && !bad
      let late := if act then lateBefore late fell else none
      let fell := if act then fell else none
      let rows := s.headRows cmd bits ++
        [(decide (bits < 24), oSHORT), (bad, oCRCHDR), ((bits - 24) % 24 != 0, oSHORT)]
      let (l, s) := (s.spiStart cmd).spiRead cmd addr late fell bits 24 24 act
      let m := started bits 24 24
      let out := (l.take (clocked bits 24 24)).zipIdx.flatMap (fun e =>
        e.1 :: if 24 * (e.2 + 2) ≤ bits then [readCrc cmd addr l late bad e.2] else [])
      let s : State := { s with hostOut := s.hostOut ++ out }
      s.spiEnd cmd bits
        (firstOf (rows ++ [(isLate late m, oLATE), (!ready || isLate fell m, oNRDY)])) ready [] fin)

/-- `SPI_NULL_FRAME` (R181). -/
def execSpiNullFrame (s : State) : Host.Outcome State Fault Refusal := .next (if s.spiSees then s.wake 2 else s)

/-- `SPI_IDLE_TIMEOUT` (R185). -/
def execSpiIdleTimeout (s : State) : Host.Outcome State Fault Refusal := .next (s.spiAbandon oIDLE)

/-! ### `VDDIO` is lost (R29) -/

/-- `VDDIO_LOSS`: every transfer is abandoned. -/
def execVddioLoss (s : State) : Host.Outcome State Fault Refusal :=
  .next (if s.pins.vddio ∧ s.get MODE.CUR ≠ 0 ∧ ¬ s.pins.porAsserted then
    let s := s.spiAbandon oVDDIO
    if s.get MODE.CUR = 0 then { s with pins := { s.pins with vddio := false } }
    else
      let s : State := { s with pins := { s.pins with vddio := false } }
      let s := (s.twAbandon wVDDIO).attnEnd 10
      ((s.barPort .ap0).barPort .ap1).barPort .bph
  else s)

end Sys2Proof.Machine
end

