-- ==== Sys2Proof/Machine/TwoWire.lean ====
section
/-! DEFINITION. The two-wire port: target frames, the matcher, attention writes, arbitration and the bus reset
(spec 09). -/

namespace Sys2Proof.Machine

open R

/-! ### Target frames (R188 to R201, R221) -/

/-- The register pointer after a word (R192). -/
def ptrNext (p : Nat) : Nat := if removing p then p else (p + 1) % 0x100

/-- The offsets of `n` words from a pointer on. -/
def ptrWalk (p : Nat) : Nat → List Nat
  | 0 => []
  | n + 1 => p :: ptrWalk (ptrNext p) n

/-- The pointer after `n` words. -/
def ptrAfter (p : Nat) : Nat → Nat
  | 0 => p
  | n + 1 => ptrAfter (ptrNext p) n

/-- The pointer of a function. -/
def State.setPtr (s : State) (f : Fn) (p : Nat) : State := s.setEng f { s.eng f with twPtr := p }

/-- The port is powered and its bit engine or matcher may run. -/
def State.twAlive (s : State) : Bool := s.pins.vddio && !s.pins.porAsserted && !s.pins.test && s.get MODE.CUR != 0

/-- The function that answers an address, where the port acknowledges it: with READY = 1, or inside a frame that the
matcher acknowledged (R142, R188, R201). -/
def State.twAnswers (s : State) (a : Nat) : Option Fn :=
  if ¬ s.twAlive ∨ barred a then none
  else match matchAddr s.addrForce a, s.tw.frame with
    | some f, some fr => if fr.held then none else some f
    | some f, none =>
      if s.mode.ready then some f else if s.tw.wakeFrame = some f ∧ ¬ s.tw.sclHeld then some f else none
    | none, _ => none

/-- The frame so far, as its next segment begins. -/
def State.twSoFar (s : State) (f : Fn) : TwFrame := s.tw.frame.getD ⟨f, 0, 0, [], [], [], false⟩

/-- A STOP on the bus: an accepted address change is in force from the next START on (R191). -/
def State.twStop (s : State) : State := { s with tw := { s.tw with forceDue := false } }

/-- A frame that names no address of the port: an earlier segment ends before it, and its STOP is seen. -/
def State.twForeign (s : State) (fin : TwEnd) : State :=
  let s := match s.tw.frame with
    | some fr => if fr.held ∨ ¬ s.twAlive then s else s.twOutcome fr.fn fr.bytes fr.code
    | none => s
  if fin = .stop ∧ s.twAlive ∧ s.mode.ready ∧ s.tw.frame.isNone then s.twStop else s

/-- A segment ends with the frame as it stands; a device that has shut down records nothing. -/
def State.twEnd (s : State) (fr : TwFrame) (fin : TwEnd) : State :=
  if s.get MODE.CUR = 0 then s
  else match fin with
    | .stop => (s.twOutcome fr.fn fr.bytes fr.code).twStop
    | .inside => s.twOutcome fr.fn fr.bytes (firstRow fr.code wBUS)
    | .again => { s with tw := { s.tw with frame := some { fr with held := false } } }
    | .held => { s with tw := { s.tw with frame := some { fr with held := true } } }

/-- A write segment, acknowledged and so a register access (R99): `l` are the words that commit and `n` those its bytes hold, from the pointer that REG has set; `code`
is the row of Table 9.7 that its bytes give. -/
def State.twWrite (s : State) (f : Fn) (a : Nat) (reg : Byte) (l : List Word) (count code : Nat) (fin : TwEnd) : State :=
  let early := s.tw.wakeFrame.isSome
  let fr := s.twSoFar f
  let s := s.regAccess.setPtr f (ptrAfter reg.toNat l.length)
  let words := (ptrWalk reg.toNat l.length).zip l
  let did : Bool := words.any (fun e => s.served e.1 early)
  let (whole, s) := s.commitWords f early (!fr.seqs.contains f) words
  s.twEnd { fr with
    bytes := fr.bytes + 2 + count, code := firstRow fr.code (firstRow (if whole then 0 else wNRDY) code),
    seqs := if did then f :: fr.seqs else fr.seqs, head := [BitVec.ofNat 8 (2 * a), reg] } fin

/-- `TW_WRITE_FRAME`: `data` are the bytes after REG. -/
def execTwWriteFrame (a : Nat) (reg : Byte) (data : List Byte) (fin : TwEnd) (s : State) : Host.Outcome State Fault Refusal :=
  .next (match s.twAnswers a with
    | some f =>
      if s.bit TW_CFG.PEC then s
      else
        let odd : Bool := data.length % 2 == 1
        let cut : Bool := odd && fin != .held
        s.twWrite f a reg (wordsOfBytes (data.take (data.length / 2 * 2))) data.length (if cut then wSHORT else 0) fin
    | none => s.twForeign fin)

/-- The row of Table 9.7 for the bytes after REG of a write with PEC. -/
def pecRow (a : Nat) (reg : Byte) (data : List Byte) : Nat :=
  if data = [] then 0
  else if data.length % 2 = 0 then wLENGTH
  else if 64 < data.length / 2 then wOVERLONG
  else if crc8 (BitVec.ofNat 8 (2 * a) :: reg :: data.dropLast) ≠ data.getLastD 0 then wPEC
  else 0

/-- `TW_WRITE_PEC_FRAME`: `data` are the bytes after REG, the PEC byte last; nothing commits before P or Sr. -/
def execTwWritePecFrame (a : Nat) (reg : Byte) (data : List Byte) (fin : TwEnd) (s : State) :
    Host.Outcome State Fault Refusal :=
  .next (match s.twAnswers a with
    | some f =>
      if ¬ s.bit TW_CFG.PEC then s
      else
        let ended : Bool := fin == .stop || fin == .again
        let row := if fin = .held then 0 else pecRow a reg data
        s.twWrite f a reg (if ended ∧ row = 0 then wordsOfBytes data.dropLast else []) data.length row fin
    | none => s.twForeign fin)

/-- `TW_POINTER_SET`. -/
def execTwPointerSet (a : Nat) (reg : Byte) (fin : TwEnd) (s : State) : Host.Outcome State Fault Refusal :=
  .next (match s.twAnswers a with
    | some f => s.twWrite f a reg [] 0 0 fin
    | none => s.twForeign fin)

/-- The bytes a read returns: each word with its PEC byte where `PEC` = 1, over `head`: the address W byte and REG last sent in
the frame, the address R byte and the data bytes that earlier reads of the frame have returned (R195, log entry 182). -/
def twBytes (head : List Byte) (pec : Bool) (l : List Word) : List Word :=
  l.zipIdx.flatMap (fun e =>
    e.1 :: if pec then [(crc8 (head ++ bytesOfWords (l.take (e.2 + 1)))).zeroExtend 16] else [])

/-- `TW_READ_FRAME`: `bytes` data and PEC bytes are clocked out, after REG and Sr where `reg` is given. -/
def execTwReadFrame (a : Nat) (reg : Option Byte) (bytes : Nat) (fin : TwEnd) (s : State) : Host.Outcome State Fault Refusal :=
  .next (match s.twAnswers a with
    | some f =>
      let pec := s.bit TW_CFG.PEC
      let early := s.tw.wakeFrame.isSome
      let fr := s.twSoFar f
      let s := match reg with | some r => s.setPtr f r.toNat | none => s
      let s := s.regAccess
      let head := match reg with | some r => [BitVec.ofNat 8 (2 * a), r] | none => fr.head
      let stride := if pec then 3 else 2
      let m := (bytes + stride - 1) / stride
      let n := (bytes + stride - 2) / stride
      let p := (s.eng f).twPtr
      let offs := ptrWalk p (max 1 m)
      let nr : Bool := offs.any (fun o => !s.served o early)
      let (l, s) := if bytes = 0 then ((([] : List Word)), (s.fetch .tw f p early).2)
        else s.readWords .tw f (fun k => ptrAfter p k) none none early n m
      let s := s.setPtr f (ptrAfter p n)
      let s : State := { s with hostOut := twBytes (head ++ BitVec.ofNat 8 (2 * a + 1) :: fr.back) pec (l.take n) }
      let cut : Bool := bytes % stride != 0 && fin != .held
      let code := firstRow (if nr then wNRDY else 0) (if cut then wSHORT else 0)
      s.twEnd { fr with
        bytes := fr.bytes + 1 + (if reg.isSome then 2 else 0) + bytes, code := firstRow fr.code code, head := head,
        back := fr.back ++ bytesOfWords (l.take n) } fin
    | none => s.twForeign fin)

/-- `TW_STRETCH_TIMEOUT`: a stretch other than a wake match's has lasted `STRETCH_MS` (R199). -/
def execTwStretchTimeout (s : State) : Host.Outcome State Fault Refusal :=
  .next (match s.tw.frame with
    | some fr => if fr.held then s.twAbandon wSTRETCH else s
    | none => s)

/-! ### The matcher in rest (R200 to R202) -/

/-- The matcher runs: WATCH, or HOARD-IDLE with `MATCH_ON`, until a wake starts; after the frame it has acknowledged, the port
acknowledges no address until READY (R142, R200, R201). -/
def State.matching (s : State) : Bool :=
  s.mode.resting && s.twAlive && s.bit MODE.MATCH_ON && s.mode.waking.isNone && !s.tw.matched

/-- `TW_WAKE_MATCH`. -/
def execTwWakeMatch (a : Nat) (s : State) : Host.Outcome State Fault Refusal :=
  .next (if s.matching ∧ ¬ barred a ∧ s.tw.wakeFrame = none ∧ s.tw.frame = none then
    match matchAddr s.addrForce a with
    | some f => ({ s with tw := { s.tw with wakeFrame := some f, sclHeld := true, matched := true } } : State).wake 3
    | none => s
  else s)

/-- `TW_WAKE_RELEASE`: at READY after a wake from WARM, once the bit engine runs on HFRC where the wake passes through
BOOT. -/
def execTwWakeRelease (s : State) : Host.Outcome State Fault Refusal :=
  .next (if s.tw.sclHeld ∧ (s.mode.ready ∨ (s.get MODE.CUR = 3 ∧ s.mode.delayed = none)) then
    { s with tw := { s.tw with sclHeld := false } }
  else s)

/-- `WAKE_STRETCH`: 2 ms have passed with `SCL` held; the wake goes on. -/
def execWakeStretch (s : State) : Host.Outcome State Fault Refusal :=
  .next (match s.tw.wakeFrame with
    | some f => if s.tw.sclHeld then s.twOutcome f 1 wWAKE else s
    | none => s)

/-! ### Attention messages (R203 to R208) -/

/-- Replaces the attention state of a function. -/
def State.setAttn (s : State) (f : Fn) (a : Attn) : State := s.setEng f { s.eng f with attn := a }

/-- The mask of the halves of a status register that `INT_ROUTE` sends to attention. -/
def State.attnHalves (s : State) (f : Fn) (second : Bool) : Nat :=
  let r (x y : Fld) : Nat := (if s.fget f x = 3 then 0x00FF else 0) + if s.fget f y = 3 then 0xFF00 else 0
  if second then r INT_ROUTE.S1L INT_ROUTE.S1H else r INT_ROUTE.S0L INT_ROUTE.S0H

/-- `ATTENTION_MESSAGE_FORM`: `INT_STAT0` first (R204). -/
def execAttentionMessageForm (f : Fn) (s : State) : Host.Outcome State Fault Refusal :=
  .next (
    let a := (s.eng f).attn
    if s.fget f ATTN_ACK.OUT = 1 ∨ (a.due0 = 0 ∧ a.due1 = 0) then s
    else
      let second : Bool := a.due0 == 0
      let st := if second then s.fget f INT_STAT1.w &&& s.fget f INT_EN1.w else s.fget f INT_STAT0.w &&& s.fget f INT_EN0.w
      let s := s.setAttn f { a with
        carried := false, second := second, payload := BitVec.ofNat 16 (st &&& s.attnHalves f second), losses := 0, due := true,
        backoff := false, due0 := 0, due1 := if second then 0 else a.due1 }
      let s := ((s.fput f ATTN_ACK.SEQ (s.fget f ATTN_ACK.SEQ + 1)).fput f ATTN_ACK.TRIES 0).fput f ATTN_ACK.FALLBACK 0
      (s.fput f ATTN_ACK.OUT 1).serviceWake)

/-- The bytes of a function's outstanding message, its address byte and PEC included (Table 9.4). -/
def State.attnBytes (s : State) (f : Fn) : List Byte :=
  let a := (s.eng f).attn
  let head := (if s.pins.role then 0x80 else 0) + f.toNat * 0x20 + s.fget f ATTN_ACK.SEQ
  let body : List Byte := [BitVec.ofNat 8 (2 * s.addrForce.getD 5 0), BitVec.ofNat 8 head, if a.second then 0x11 else 0x10] ++
    bytesOfWords [a.payload]
  body ++ [crc8 body]

/-- An attempt may start: it is due, tries are left, `VDDIO` is present, the bit engine runs on XO, and neither another attempt
nor a target frame of this port is on the bus. That no other traffic is there (R210) is the event's own condition. After a
reset, the next attempt waits for the end of the boot (R518). -/
def State.attnMayStart (s : State) (f : Fn) : Bool :=
  s.fget f ATTN_ACK.OUT == 1 && s.fget f ATTN_ACK.FALLBACK == 0 && (s.eng f).attn.due && !(s.eng f).attn.backoff &&
  decide (s.fget f ATTN_ACK.TRIES < s.get TW_CTL_CFG.TRIES) && s.twAlive && !s.mode.resting && s.bit CLK_STAT.XO_OK &&
  s.tw.onBus.isNone && s.tw.frame.isNone && s.tw.wakeFrame.isNone && (s.mode.ready || !(s.eng f).attn.carried)

/-- The START of an attempt: it counts as a try (R208). The message's bytes go out. -/
def State.attnStart (s : State) (f : Fn) : State :=
  let s := s.setAttn f { (s.eng f).attn with due := false, carried := false }
  let s := (s.fput f ATTN_ACK.TRIES (min 15 (s.fget f ATTN_ACK.TRIES + 1))).inc TW_CNT_ATTN.w
  { s with tw := { s.tw with onBus := some f }, hostOut := (s.attnBytes f).map (fun b => b.zeroExtend 16) }

/-- `ATTENTION_ATTEMPT`: an attempt starts, or the one on the bus goes on, and stands as `e` says. A cancel that has arrived
meanwhile is sampled at the end of its byte (R214). -/
def execAttentionAttempt (f : Fn) (e : AttnEnd) (s : State) : Host.Outcome State Fault Refusal :=
  .next (
    let s := if s.attnMayStart f then s.attnStart f else s
    if s.tw.onBus = some f then
      if s.tw.cancel ∧ e ≠ .stretch then s.attnLate f
      else match e with
      | .onBus => s
      | .sent => s.attnEnd 1
      | .nackAddr => s.attnEnd 2
      | .nackData => s.attnEnd 3
      | .stretch => s.attnEnd 8
    else s)

/-- `ATTENTION_REPEAT`: `PERIOD` has passed since the start of the last attempt; a device in rest wakes for the next
(R205). -/
def execAttentionRepeat (f : Fn) (s : State) : Host.Outcome State Fault Refusal :=
  .next (
    let n := s.fget f ATTN_ACK.TRIES
    if s.fget f ATTN_ACK.OUT = 1 ∧ s.fget f ATTN_ACK.FALLBACK = 0 ∧ n < s.get TW_CTL_CFG.TRIES ∧ s.tw.onBus ≠ some f then
      (s.setAttn f { (s.eng f).attn with due := true }).serviceWake
    else s)

/-- `ATTN_FALLBACK`: the last attempt has ended without acknowledgement (R206). -/
def execAttnFallback (f : Fn) (s : State) : Host.Outcome State Fault Refusal :=
  .next (
    if s.fget f ATTN_ACK.OUT = 1 ∧ s.fget f ATTN_ACK.FALLBACK = 0 ∧ s.get TW_CTL_CFG.TRIES ≤ s.fget f ATTN_ACK.TRIES ∧
        s.tw.onBus ≠ some f then
      ((s.fput f ATTN_ACK.FALLBACK 1).twEvt TW_EVT.ATTN_FALLBACK).raise1 jTW_ERROR
    else s)

/-! ### Arbitration (R211 to R213) -/

/-- The attempt on the bus is lost to another controller: no try, but for the eighth loss in a row, and a backoff (R208). -/
def State.attnLost (s : State) (f : Fn) (code : Nat) : State :=
  let a := (s.eng f).attn
  let n := s.fget f ATTN_ACK.TRIES
  let s := (s.attnStat f n code).inc TW_CNT_ARB.w
  let eighth : Bool := decide (8 ≤ a.losses + 1)
  let s := s.setAttn f { a with losses := if eighth then 0 else a.losses + 1, backoff := true }
  let s := if eighth then s else s.fput f ATTN_ACK.TRIES (n - 1)
  ({ s with tw := { s.tw with onBus := none } } : State).attnSettle f

/-- `ARB_LOST`. -/
def execArbLost (f : Fn) (s : State) : Host.Outcome State Fault Refusal :=
  .next (if s.tw.onBus = some f then s.attnLost f 6 else s)

/-- `TW_ARB_SR`. -/
def execTwArbSr (f : Fn) (s : State) : Host.Outcome State Fault Refusal :=
  .next (if s.tw.onBus = some f then ((s.attnLost f 7).twEvt TW_EVT.ARB_SR).raise1 jARB_SR else s)

/-- `ARB_BACKOFF_EXPIRY`: the attempt is due again. -/
def execArbBackoffExpiry (f : Fn) (s : State) : Host.Outcome State Fault Refusal :=
  .next (
    let a := (s.eng f).attn
    if a.backoff then (s.setAttn f { a with backoff := false, due := true }).serviceWake else s)

/-! ### Bus reset (R215, R216) -/

/-- `TWRST_PULSE`: a low of `lowUs` on `TWRST_N`; between 20 µs and 100 µs it is open whether it acts. -/
def execTwrstPulse (lowUs : Nat) (s : State) : Host.Outcome State Fault Refusal :=
  .next (if ¬ s.twAlive ∨ lowUs < 20 then s
    else if 100 ≤ lowUs then s.twReset
    else
      let (w, s) := s.fresh
      if w = 0 then s else s.twReset)

/-- The device itself holds a line low: `SCL` in a stretch, and `SDA` too while the matcher acknowledges (R199, R200, R202). -/
def State.drivesLow (s : State) (sda : Bool) : Bool :=
  if sda then s.tw.sclHeld && s.mode.delayed.isNone
  else s.tw.sclHeld || (match s.tw.frame with | some fr => fr.held | none => false)

/-- `STUCK_BUS`: `SDA` or `SCL`, as `sda` says, has been low for longer than `TW_STUCK`; `again` says that it has stayed low
since the last pulse. A low that the device drives itself is not seen. The third pulse in a row makes the bus dead. -/
def execStuckBus (sda again : Bool) (s : State) : Host.Outcome State Fault Refusal :=
  .next (if s.bit TW_CFG.STUCK_RST_EN ∧ s.twAlive ∧ ¬ s.tw.dead ∧ ¬ s.drivesLow sda then
    let n := if again then s.tw.pulses + 1 else 1
    let s := s.twrstDrive.twEvt TW_EVT.STUCK_DRIVEN
    if 3 ≤ n then ({ s with tw := { s.tw with pulses := 0, dead := true } } : State).twEvt TW_EVT.BUS_DEAD
    else { s with tw := { s.tw with pulses := n } }
  else s)

/-- `BUS_DEAD_RELEASE`. -/
def execBusDeadRelease (s : State) : Host.Outcome State Fault Refusal :=
  .next (if s.tw.dead then { s with tw := { s.tw with dead := false, pulses := 0 } } else s)

end Sys2Proof.Machine
end

