-- ==== Sys2Proof/Machine/Commands.lean ====
section
/-! DEFINITION. Commands that are one register access of the host, and the configuration bundle. Each write goes through
the judgement of R515 as any other (R7, R10, R12). -/

namespace Sys2Proof.Machine

open R

/-- `REGISTER_WRITE`: a write at an offset of the function's window. -/
def execRegisterWrite (f : Fn) (off : Nat) (v : Word) (s : State) : Host.Outcome State Fault Refusal :=
  let s := if s.mode.ready then s.regAccess else s
  .next (s.hostWrite f (off % 0x100) v false)

/-- `FN_ERR_WRITE` (R229). -/
def execFnErrWrite (f : Fn) (v : Word) (s : State) : Host.Outcome State Fault Refusal := .next (s.cmdWrite f FN_ERR.w v)

/-! ### Power, modes and boot -/

/-- `DEPASS_GO` (R47). -/
def execDepassGo (f : Fn) (s : State) : Host.Outcome State Fault Refusal := .next (s.cmdWrite f PWR_CMD.w 1)

/-- `LEDGER_LOAD` (R52). -/
def execLedgerLoad (f : Fn) (s : State) : Host.Outcome State Fault Refusal := .next (s.cmdWrite f PWR_CMD.w 2)

/-- `EST_RESET` (R56). -/
def execEstReset (f : Fn) (s : State) : Host.Outcome State Fault Refusal := .next (s.cmdWrite f PWR_CMD.w 4)

/-- `MODE_CMD_SHUTDOWN` (R105). -/
def execModeCmdShutdown (f : Fn) (s : State) : Host.Outcome State Fault Refusal := .next (s.cmdWrite f MODE_CMD.w 0xA501)

/-- `MODE_CMD_REST_NOW` (R106). -/
def execModeCmdRestNow (f : Fn) (s : State) : Host.Outcome State Fault Refusal := .next (s.cmdWrite f MODE_CMD.w 0xA502)

/-- `IMG_REVOKE` (R149). -/
def execImgRevoke (f : Fn) (v : Word) (s : State) : Host.Outcome State Fault Refusal := .next (s.cmdWrite f IMG_REVOKE.w v)

/-- `IMG_PREF_WRITE` (R151). -/
def execImgPrefWrite (f : Fn) (v : Word) (s : State) : Host.Outcome State Fault Refusal := .next (s.cmdWrite f IMG_PREF.w v)

/-- `IMAGE_WINDOW_WRITE`: the port's address lies in the window (R158). -/
def execImageWindowWrite (f : Fn) (w : Word) (s : State) : Host.Outcome State Fault Refusal :=
  .next (if s.region (s.eng f).memAddr = .window then s.cmdWrite f MEM_DATA.w w else s)

/-! ### Host ports -/

/-- `HP_CNT_CLR`. -/
def execHpCntClr (f : Fn) (s : State) : Host.Outcome State Fault Refusal := .next (s.cmdWrite f HP_CMD.w 1)

/-- `TW_ADDRESS_CONFIG_WRITE`: `off` is the offset of `TW_CFG` to `TW_HOSTADDR` (R191). -/
def execTwAddressConfigWrite (f : Fn) (off : Nat) (v : Word) (s : State) : Host.Outcome State Fault Refusal :=
  .next (if 0x80 ≤ off ∧ off ≤ 0x85 then s.cmdWrite f ⟨0x0800 + off, 15, 0⟩ v else s)

/-- `ATTN_ACK_WRITE` (R214). -/
def execAttnAckWrite (f : Fn) (v : Word) (s : State) : Host.Outcome State Fault Refusal := .next (s.cmdWrite f ATTN_ACK.w v)

/-- `TW_BUS_RESET` (R216). -/
def execTwBusReset (f : Fn) (s : State) : Host.Outcome State Fault Refusal := .next (s.cmdWrite f TW_CMD.w 2)

/-- `TW_CNT_CLR` (R221). -/
def execTwCntClr (f : Fn) (s : State) : Host.Outcome State Fault Refusal := .next (s.cmdWrite f TW_CMD.w 1)

/-! ### Functions and partitions -/

/-- `FN_RESET` (R230). -/
def execFnReset (f : Fn) (v : Word) (s : State) : Host.Outcome State Fault Refusal := .next (s.cmdWrite f FN_RESET.w v)

/-- `FRESET` (R230). -/
def execFreset (f : Fn) (v : Word) (s : State) : Host.Outcome State Fault Refusal := .next (s.cmdWrite f PART_CMD.w v)

/-- `PART_LOCK` (R245). -/
def execPartLock (f : Fn) (v : Word) (s : State) : Host.Outcome State Fault Refusal := .next (s.cmdWrite f PART_CMD.w v)

/-- `PART_DQ_WRITE` (R242). -/
def execPartDqWrite (f : Fn) (v : Word) (s : State) : Host.Outcome State Fault Refusal := .next (s.cmdWrite f PART_DQ.w v)

/-- `CMD_GO` (R232). -/
def execCmdGo (f : Fn) (v : Word) (s : State) : Host.Outcome State Fault Refusal := .next (s.cmdWrite f CMD_GO.w v)

/-- A read of one register of the common part by its offset: its word goes out. -/
def State.cmdRead (s : State) (f : Fn) (off : Nat) (get : State → Word × State) : State :=
  match s.gate f off (some (commonKey f.toNat off)) false false with
  | .serve =>
    let (w, s) := get s.regAccess
    { s with hostOut := [w] }
  | .deny c => { s.setErr f c with hostOut := [0] }
  | .reserved => { s with hostOut := [0] }

/-- `DQ_DATA_READ` (R236). -/
def execDqDataRead (f : Fn) (s : State) : Host.Outcome State Fault Refusal := .next (s.cmdRead f 0x53 (fun s => s.dqRead f))

/-- `DQ_FLUSH` (R237). -/
def execDqFlush (f : Fn) (s : State) : Host.Outcome State Fault Refusal := .next (s.cmdWrite f DQ_CTRL.w 1)

/-- `MEM_ADDR_WRITE` (R238). -/
def execMemAddrWrite (f : Fn) (v : Word) (s : State) : Host.Outcome State Fault Refusal := .next (s.cmdWrite f MEM_ADDR_L.w v)

/-- `MEM_DATA_ACCESS`: a write of `w`, or a read; `qspiTo` says that the flash does not answer (R239, R240). -/
def execMemDataAccess (f : Fn) (w : Option Word) (qspiTo : Bool) (s : State) : Host.Outcome State Fault Refusal :=
  .next (match w with
    | some v => s.cmdWrite f MEM_DATA.w v
    | none => s.cmdRead f 0x63 (fun s => s.memRead f qspiTo))

/-! ### Plans -/

/-- `PLAN_BEGIN` (R253). -/
def execPlanBegin (f : Fn) (s : State) : Host.Outcome State Fault Refusal := .next (s.cmdWrite f PLAN_CTRL.w 1)

/-- `PLAN_SUBMIT` (R253). -/
def execPlanSubmit (f : Fn) (s : State) : Host.Outcome State Fault Refusal := .next (s.cmdWrite f PLAN_CTRL.w 2)

/-- `PLAN_WITHDRAW` (R253). -/
def execPlanWithdraw (f : Fn) (s : State) : Host.Outcome State Fault Refusal := .next (s.cmdWrite f PLAN_CTRL.w 4)

/-- `WREC15_WRITE` (R252). -/
def execWrec15Write (f : Fn) (v : Word) (s : State) : Host.Outcome State Fault Refusal := .next (s.cmdWrite f (WREC.w 15) v)

/-- `PLAN_WIDX_WRITE` (R252). -/
def execPlanWidxWrite (f : Fn) (v : Word) (s : State) : Host.Outcome State Fault Refusal := .next (s.cmdWrite f PLAN_WIDX.w v)

/-! ### Front end and LF -/

/-- `FES_AF_GO` (R280). -/
def execFesAfGo (f : Fn) (s : State) : Host.Outcome State Fault Refusal := .next (s.cmdWrite f FES_AF_CTL.w 1)

/-- `SYN_APPLY` (R282). -/
def execSynApply (f : Fn) (s : State) : Host.Outcome State Fault Refusal := .next (s.cmdWrite f SYN_APPLY.w 1)

/-- `RAW_FES_WRITE`: a write of `FES_RAW_LNA`, `FES_RAW_MIX` or `FES_RAW_LFPGA` (R282, R283). -/
def execRawFesWrite (f : Fn) (off : Nat) (v : Word) (s : State) : Host.Outcome State Fault Refusal :=
  .next (if FES_RAW_LNA.w.key ≤ 0x0B00 + off ∧ 0x0B00 + off ≤ FES_RAW_LFPGA.w.key then s.cmdWrite f ⟨0x0B00 + off, 15, 0⟩ v
  else s)

/-- `RAW_HOLD`: HOLD is set (R284). -/
def execRawHold (f : Fn) (v : Word) (s : State) : Host.Outcome State Fault Refusal := .next (s.cmdWrite f FES_RAW_CTL.w (v ||| 1))

/-- `RAW_HOLD_CLEAR` (R284). -/
def execRawHoldClear (f : Fn) (s : State) : Host.Outcome State Fault Refusal :=
  .next (s.cmdWrite f FES_RAW_CTL.w (BitVec.ofNat 16 (2 * s.get FES_RAW_CTL.PATH)))

/-- `RELEARN` (R292). -/
def execRelearn (f : Fn) (s : State) : Host.Outcome State Fault Refusal := .next (s.cmdWrite f FLOOD_CMD.w 1)

/-- `LFT_TPL_SEL_WRITE` (R343). -/
def execLftTplSelWrite (f : Fn) (v : Word) (s : State) : Host.Outcome State Fault Refusal := .next (s.cmdWrite f LFT_TPL_SEL.w v)

/-- `LFT_TPL_COMMIT` (R343). -/
def execLftTplCommit (f : Fn) (s : State) : Host.Outcome State Fault Refusal := .next (s.cmdWrite f LFT_TPL_CTL.w 1)

/-- `LFT_TPL_CLEAR` (R343). -/
def execLftTplClear (f : Fn) (s : State) : Host.Outcome State Fault Refusal := .next (s.cmdWrite f LFT_TPL_CTL.w 2)

/-! ### Timebase, datacast -/

/-- `MODEL_RESET` (R361). -/
def execModelReset (f : Fn) (s : State) : Host.Outcome State Fault Refusal := .next (s.cmdWrite f TIME_CMD.w 1)

/-- `LEAP_CLR` (R364). -/
def execLeapClr (f : Fn) (s : State) : Host.Outcome State Fault Refusal := .next (s.cmdWrite f TIME_CMD.w 2)

/-- `TIME_LOSS_THR_WRITE` (R370). -/
def execTimeLossThrWrite (f : Fn) (v : Word) (s : State) : Host.Outcome State Fault Refusal :=
  .next (s.cmdWrite f TIME_LOSS_THR.w v)

/-- `EDF_FLUSH` (R398). -/
def execEdfFlush (f : Fn) (s : State) : Host.Outcome State Fault Refusal := .next (s.cmdWrite f EDF_CMD.w 1)

/-- `VAN_CLR` (R390). -/
def execVanClr (f : Fn) (s : State) : Host.Outcome State Fault Refusal := .next (s.cmdWrite f EDF_CMD.w 2)

/-- `EDF_ERASE`: ERASE with the key 0x96 (R405). -/
def execEdfErase (f : Fn) (s : State) : Host.Outcome State Fault Refusal := .next (s.cmdWrite f EDF_CMD.w 0x9604)

/-! ### Audio ports and capture -/

/-- `AP_ARM_WRITE`: a write of the port's control register (R412). -/
def execApArmWrite (f : Fn) (port : AudioPort) (v : Word) (s : State) : Host.Outcome State Fault Refusal :=
  .next (match port with
    | .ap0 => s.cmdWrite f (AP.CTL.w 0) v
    | .ap1 => s.cmdWrite f (AP.CTL.w 1) v
    | .bph => s.cmdWrite f BPH_CTL.w v)

/-- `AP0_WPTR_WRITE` (R414). -/
def execAp0WptrWrite (f : Fn) (v : Word) (s : State) : Host.Outcome State Fault Refusal := .next (s.cmdWrite f (AP.WPTR.w 0) v)

/-- `RING_RST`: of the AP0 ring or the BPH_OUT ring; AP1 has no ring (R414). -/
def execRingRst (f : Fn) (port : AudioPort) (s : State) : Host.Outcome State Fault Refusal :=
  .next (match port with
    | .ap0 => s.cmdWrite f (AP.CMD.w 0) 1
    | .ap1 => s
    | .bph => s.cmdWrite f BPH_CMD.w 1)

/-- `CAPT_REL_WRITE`: space is released, clamped at `CAPT_WPTR` (R436). -/
def execCaptRelWrite (f : Fn) (v : Word) (s : State) : Host.Outcome State Fault Refusal := .next (s.cmdWrite f CAPT_REL.w v)

/-- `SPILL_DEL` (R440). -/
def execSpillDel (f : Fn) (s : State) : Host.Outcome State Fault Refusal := .next (s.cmdWrite f CAPT_CMD.w 1)

/-! ### Twin and health -/

/-- `TWIN_EN_WRITE`: a write of `TWIN_CFG` (R445). -/
def execTwinEnWrite (f : Fn) (v : Word) (s : State) : Host.Outcome State Fault Refusal := .next (s.cmdWrite f TWIN_CFG.w v)

/-- `CKPT_NOW` (R452). -/
def execCkptNow (f : Fn) (s : State) : Host.Outcome State Fault Refusal := .next (s.cmdWrite f TWIN_CMD.w 0x7A01)

/-- `SAMPLE_NOW` (R471). -/
def execSampleNow (f : Fn) (s : State) : Host.Outcome State Fault Refusal := .next (s.cmdWrite f HLT_CMD.w 0x6901)

/-- `REPLACE_CLR` (R478). -/
def execReplaceClr (f : Fn) (s : State) : Host.Outcome State Fault Refusal := .next (s.cmdWrite f HLT_CMD.w 0x6902)

/-- `SVC_START` (R482). -/
def execSvcStart (f : Fn) (s : State) : Host.Outcome State Fault Refusal := .next (s.cmdWrite f HLT_CMD.w 0x6904)

/-! ### The configuration bundle (R148) -/

/-- A skipped entry. -/
def State.bundleSkip (s : State) : State :=
  let s := s.put IMG_CFG.SKIPPED 1
  { s with boot := { s.boot with eventDue := true } }

/-- The key that a page and an offset name. -/
def bundleKey (f : Fn) (page off : Nat) : Option Nat :=
  if page = 0 then if off < 0x80 then some (commonKey f.toNat off) else none
  else if off < 0x80 then none else some (page * 0x100 + off)

/-- One entry: a write by its function, judged by steps 2 to 6 of R515; one that any of them refuses counts as skipped. -/
def State.bundleEntry (s : State) (f : Fn) (page off : Nat) (v : Word) : State :=
  match bundleKey f page off with
  | none => s.bundleSkip
  | some k =>
    match s.gate2 f page true, gate3 f k with
    | .serve, .serve =>
      let e0 := s.fget f FN_ERR.CODE
      let (ignored, t) := (s.setErr f 0).writeReg f k v
      if ignored ∨ t.fget f FN_ERR.CODE ≠ 0 then t.bundleSkip else t.setErr f e0
    | .deny c, _ => (s.setErr f c).bundleSkip
    | _, _ => s.bundleSkip

/-- The entries from an address on, at most `n`, until function 0xFF. -/
def State.bundleRun (s : State) (a : Nat) : Nat → State
  | 0 => s
  | n + 1 =>
    let f := s.le a 1
    if f = 0xFF then s
    else
      let s := if 3 < f then s.bundleSkip
        else s.bundleEntry (Fn.ofIndex f) (s.le (a + 1) 1) (s.le (a + 2) 1) (BitVec.ofNat 16 (s.le (a + 4) 2))
      s.bundleRun (a + 8) n

/-- `BUNDLE_APPLY`: a trusted cold boot applies the bundle of its source before READY; `readOk` says that it is read without a
QSPI timeout. One that does not verify, or does not fit step C, is not applied and BOOT_EVENT follows (R148, R160). -/
def execBundleApply (readOk : Bool) (s : State) : Host.Outcome State Fault Refusal :=
  .next (match s.boot.attempt with
    | some (slot, true) =>
      if s.boot.marten ∧ s.boot.loaded ∧ s.get BOOT_STAT.STAGE = 2 ∧ ¬ s.boot.bundleDone ∧ ¬ s.boot.reload ∧
          ¬ s.boot.deep ∧ ¬ s.mode.resting ∧ s.hasBundle (slotBase slot) then
        let b := s.bundleBase (slotBase slot)
        let s : State := { s with boot := { s.boot with bundleDone := true } }
        if readOk ∧ s.imageFault b 4 = 1 then s.bundleRun (b + 0x1000) (s.manBlocks b * 0x200)
        else { s with boot := { s.boot with eventDue := true } }
      else s
    | _ => s)

end Sys2Proof.Machine
end

