-- ==== Sys2Proof/Machine/Dispatch.lean ====
section
/-! DEFINITION. One arm per command: a direct call of its meaning, or a refusal by name where it has none yet. -/

namespace Sys2Proof.Machine

/-- The effect of a command on everything but the queue. -/
def exec (i : Instr) (s : State) : Host.Outcome State Fault Refusal :=
  match i with
  | .powerOnReset vbatMin => Sys2Proof.Machine.execPowerOnReset vbatMin s
  | .powerOnResetRelease => Sys2Proof.Machine.execPowerOnResetRelease s
  | .strapSample role test => Sys2Proof.Machine.execStrapSample role test s
  | .pinReset lowUs => Sys2Proof.Machine.execPinReset lowUs s
  | .vddioLoss => Sys2Proof.Machine.execVddioLoss s
  | .vddioReturn => Sys2Proof.Machine.execVddioReturn s
  | .vbatSample vbat vres chgUa sinkUa aonNa => Sys2Proof.Machine.execVbatSample vbat vres chgUa sinkUa aonNa s
  | .idleHoldStart => Sys2Proof.Machine.execIdleHoldStart s
  | .chargeTargetReached => Sys2Proof.Machine.execChargeTargetReached s
  | .startCondition => Sys2Proof.Machine.execStartCondition s
  | .preChargeStart => Sys2Proof.Machine.execPreChargeStart s
  | .preChargeRecompute => Sys2Proof.Machine.execPreChargeRecompute s
  | .depassGo f => Sys2Proof.Machine.execDepassGo f s
  | .depassAutoStart => Sys2Proof.Machine.execDepassAutoStart s
  | .depassDeferredStart => Sys2Proof.Machine.execDepassDeferredStart s
  | .depassPulseEnd vmin vend => Sys2Proof.Machine.execDepassPulseEnd vmin vend s
  | .depassEarlyEnd vmin vend ms => Sys2Proof.Machine.execDepassEarlyEnd vmin vend ms s
  | .passIdxMeasure rest now => Sys2Proof.Machine.execPassIdxMeasure rest now s
  | .ledgerCopy => Sys2Proof.Machine.execLedgerCopy s
  | .ledgerLoad f => Sys2Proof.Machine.execLedgerLoad f s
  | .estReset f => Sys2Proof.Machine.execEstReset f s
  | .capacitanceSample => Sys2Proof.Machine.execCapacitanceSample s
  | .leakageProbeStart => Sys2Proof.Machine.execLeakageProbeStart s
  | .leakageProbeEnd vres secs => Sys2Proof.Machine.execLeakageProbeEnd vres secs s
  | .burstOkLow => Sys2Proof.Machine.execBurstOkLow s
  | .burstOkHigh => Sys2Proof.Machine.execBurstOkHigh s
  | .reservoirBrownout => Sys2Proof.Machine.execReservoirBrownout s
  | .batSag => Sys2Proof.Machine.execBatSag s
  | .reservoirFault rise ms => Sys2Proof.Machine.execReservoirFault rise ms s
  | .x32Qualified => Sys2Proof.Machine.execX32Qualified s
  | .x32Fail => Sys2Proof.Machine.execX32Fail s
  | .x32MissingEdge => Sys2Proof.Machine.execX32MissingEdge s
  | .xoQualified us => Sys2Proof.Machine.execXoQualified us s
  | .xoFail => Sys2Proof.Machine.execXoFail s
  | .xoRetry => Sys2Proof.Machine.execXoRetry s
  | .pllLock hfrcErr => Sys2Proof.Machine.execPllLock hfrcErr s
  | .pllFail => Sys2Proof.Machine.execPllFail s
  | .registerWrite f off v => Sys2Proof.Machine.execRegisterWrite f off v s
  | .fnErrWrite f v => Sys2Proof.Machine.execFnErrWrite f v s
  | .modeCmdShutdown f => Sys2Proof.Machine.execModeCmdShutdown f s
  | .modeCmdRestNow f => Sys2Proof.Machine.execModeCmdRestNow f s
  | .restEntry => Sys2Proof.Machine.execRestEntry s
  | .restEntryReversed cause => Sys2Proof.Machine.execRestEntryReversed cause s
  | .slotWake => Sys2Proof.Machine.execSlotWake s
  | .spiWake => Sys2Proof.Machine.execSpiWake s
  | .hostResume lowUs => Sys2Proof.Machine.execHostResume lowUs s
  | .housekeepWake => Sys2Proof.Machine.execHousekeepWake s
  | .wakeReady supplyOk readOk => Sys2Proof.Machine.execWakeReady supplyOk readOk s
  | .delayedWakeStart => Sys2Proof.Machine.execDelayedWakeStart s
  | .remoteWakeAttempt reason lineHigh => Sys2Proof.Machine.execRemoteWakeAttempt reason lineHigh s
  | .remoteWakeSample lineHigh => Sys2Proof.Machine.execRemoteWakeSample lineHigh s
  | .remoteWakeRetry lineHigh => Sys2Proof.Machine.execRemoteWakeRetry lineHigh s
  | .wakeNStuck => Sys2Proof.Machine.execWakeNStuck s
  | .wakeNReleased => Sys2Proof.Machine.execWakeNReleased s
  | .coldBootStart burrowOk secretOk prefOk cfgOk calOk => Sys2Proof.Machine.execColdBootStart burrowOk secretOk prefOk cfgOk calOk s
  | .imageBlockArrives idx => Sys2Proof.Machine.execImageBlockArrives idx s
  | .signatureCheckDone => Sys2Proof.Machine.execSignatureCheckDone s
  | .martenRelease => Sys2Proof.Machine.execMartenRelease s
  | .hedgehogFault => Sys2Proof.Machine.execHedgehogFault s
  | .qspiTimeout => Sys2Proof.Machine.execQspiTimeout s
  | .pikaGo => Sys2Proof.Machine.execPikaGo s
  | .pikaRelease => Sys2Proof.Machine.execPikaRelease s
  | .pikaDeferredLoad readOk => Sys2Proof.Machine.execPikaDeferredLoad readOk s
  | .bundleApply readOk => Sys2Proof.Machine.execBundleApply readOk s
  | .identityKeyGenerate ok pub => Sys2Proof.Machine.execIdentityKeyGenerate ok pub s
  | .bootReady => Sys2Proof.Machine.execBootReady s
  | .hostLoadWait => Sys2Proof.Machine.execHostLoadWait s
  | .hostLoadRetry => Sys2Proof.Machine.execHostLoadRetry s
  | .martenHeartbeatTimeout reloadOk => Sys2Proof.Machine.execMartenHeartbeatTimeout reloadOk s
  | .sysWdog => Sys2Proof.Machine.execSysWdog s
  | .imgRevoke f v => Sys2Proof.Machine.execImgRevoke f v s
  | .fuseProgramDone ok => Sys2Proof.Machine.execFuseProgramDone ok s
  | .imgPrefWrite f v => Sys2Proof.Machine.execImgPrefWrite f v s
  | .imgStageCommit f => Sys2Proof.Machine.execImgStageCommit f s
  | .stagingSectorWritten ok => Sys2Proof.Machine.execStagingSectorWritten ok s
  | .stagingReadbackDone ok => Sys2Proof.Machine.execStagingReadbackDone ok s
  | .stagingPause => Sys2Proof.Machine.execStagingPause s
  | .stagingResume => Sys2Proof.Machine.execStagingResume s
  | .stagingJournalResume => Sys2Proof.Machine.execStagingJournalResume s
  | .autoStage stream obj => Sys2Proof.Machine.execAutoStage stream obj s
  | .hostLoadBegin f => Sys2Proof.Machine.execHostLoadBegin f s
  | .imageWindowWrite f w => Sys2Proof.Machine.execImageWindowWrite f w s
  | .imageWindowVerifyDone => Sys2Proof.Machine.execImageWindowVerifyDone s
  | .imageWindowIdle => Sys2Proof.Machine.execImageWindowIdle s
  | .spiWriteFrame cmd addr words bits fin => Sys2Proof.Machine.execSpiWriteFrame cmd addr words bits fin s
  | .spiWriteCrcFrame cmd addr words crc bits fin => Sys2Proof.Machine.execSpiWriteCrcFrame cmd addr words crc bits fin s
  | .spiReadFrame cmd addr late fell bits fin => Sys2Proof.Machine.execSpiReadFrame cmd addr late fell bits fin s
  | .spiReadCrcFrame cmd addr crc late fell bits fin => Sys2Proof.Machine.execSpiReadCrcFrame cmd addr crc late fell bits fin s
  | .spiNullFrame => Sys2Proof.Machine.execSpiNullFrame s
  | .spiIdleTimeout => Sys2Proof.Machine.execSpiIdleTimeout s
  | .hpCntClr f => Sys2Proof.Machine.execHpCntClr f s
  | .twWriteFrame a reg data fin => Sys2Proof.Machine.execTwWriteFrame a reg data fin s
  | .twWritePecFrame a reg data fin => Sys2Proof.Machine.execTwWritePecFrame a reg data fin s
  | .twPointerSet a reg fin => Sys2Proof.Machine.execTwPointerSet a reg fin s
  | .twReadFrame a reg bytes fin => Sys2Proof.Machine.execTwReadFrame a reg bytes fin s
  | .twStretchTimeout => Sys2Proof.Machine.execTwStretchTimeout s
  | .twWakeMatch a => Sys2Proof.Machine.execTwWakeMatch a s
  | .twWakeRelease => Sys2Proof.Machine.execTwWakeRelease s
  | .wakeStretch => Sys2Proof.Machine.execWakeStretch s
  | .twAddressConfigWrite f off v => Sys2Proof.Machine.execTwAddressConfigWrite f off v s
  | .attentionMessageForm f => Sys2Proof.Machine.execAttentionMessageForm f s
  | .attentionAttempt f e => Sys2Proof.Machine.execAttentionAttempt f e s
  | .attentionRepeat f => Sys2Proof.Machine.execAttentionRepeat f s
  | .attnFallback f => Sys2Proof.Machine.execAttnFallback f s
  | .attnAckWrite f v => Sys2Proof.Machine.execAttnAckWrite f v s
  | .arbLost f => Sys2Proof.Machine.execArbLost f s
  | .twArbSr f => Sys2Proof.Machine.execTwArbSr f s
  | .arbBackoffExpiry f => Sys2Proof.Machine.execArbBackoffExpiry f s
  | .twrstPulse lowUs => Sys2Proof.Machine.execTwrstPulse lowUs s
  | .stuckBus sda again => Sys2Proof.Machine.execStuckBus sda again s
  | .twBusReset f => Sys2Proof.Machine.execTwBusReset f s
  | .twCntClr f => Sys2Proof.Machine.execTwCntClr f s
  | .fnReset f v => Sys2Proof.Machine.execFnReset f v s
  | .freset f v => Sys2Proof.Machine.execFreset f v s
  | .fnResetDone f => Sys2Proof.Machine.execFnResetDone f s
  | .partLock f v => Sys2Proof.Machine.execPartLock f v s
  | .partDqWrite f v => Sys2Proof.Machine.execPartDqWrite f v s
  | .cmdGo f v => Sys2Proof.Machine.execCmdGo f v s
  | .cmdDone f => Sys2Proof.Machine.execCmdDone f s
  | .opTimeout f => Sys2Proof.Machine.execOpTimeout f s
  | .nop f => Sys2Proof.Machine.execNop f s
  | .dqDataRead f => Sys2Proof.Machine.execDqDataRead f s
  | .dqFlush f => Sys2Proof.Machine.execDqFlush f s
  | .memAddrWrite f v => Sys2Proof.Machine.execMemAddrWrite f v s
  | .memDataAccess f w qspiTo => Sys2Proof.Machine.execMemDataAccess f w qspiTo s
  | .planBegin f => Sys2Proof.Machine.execPlanBegin f s
  | .wrec15Write f v => Sys2Proof.Machine.execWrec15Write f v s
  | .planWidxWrite f v => Sys2Proof.Machine.execPlanWidxWrite f v s
  | .planSubmit f => Sys2Proof.Machine.execPlanSubmit f s
  | .planWithdraw f => Sys2Proof.Machine.execPlanWithdraw f s
  | .admissionDone => Sys2Proof.Machine.execAdmissionDone s
  | .planSnapshotWrite => Sys2Proof.Machine.execPlanSnapshotWrite s
  | .readmission => Sys2Proof.Machine.execReadmission s
  | .dayStart => Sys2Proof.Machine.execDayStart s
  | .slotStart f idx => Sys2Proof.Machine.execSlotStart f idx s
  | .slotEnd f idx => Sys2Proof.Machine.execSlotEnd f idx s
  | .listenStart f => Sys2Proof.Machine.execListenStart f s
  | .listenStop f => Sys2Proof.Machine.execListenStop f s
  | .listenMaxDuration f => Sys2Proof.Machine.execListenMaxDuration f s
  | .listenResumed f => Sys2Proof.Machine.execListenResumed f s
  | .tuneJobStart temp => Sys2Proof.Machine.execTuneJobStart temp s
  | .tuneLock vtune => Sys2Proof.Machine.execTuneLock vtune s
  | .tuneLockTimeout band => Sys2Proof.Machine.execTuneLockTimeout band s
  | .agcSettled rssi lna ifGain lfGain => Sys2Proof.Machine.execAgcSettled rssi lna ifGain lfGain s
  | .lossOfLock => Sys2Proof.Machine.execLossOfLock s
  | .listenJobRetry => Sys2Proof.Machine.execListenJobRetry s
  | .fesAfGo f => Sys2Proof.Machine.execFesAfGo f s
  | .afCheck rssi us => Sys2Proof.Machine.execAfCheck rssi us s
  | .synApply f => Sys2Proof.Machine.execSynApply f s
  | .rawFesWrite f off v => Sys2Proof.Machine.execRawFesWrite f off v s
  | .rawHold f v => Sys2Proof.Machine.execRawHold f v s
  | .rawHoldClear f => Sys2Proof.Machine.execRawHoldClear f s
  | .calRun f => Sys2Proof.Machine.execCalRun f s
  | .calDone good margin ms temp bands => Sys2Proof.Machine.execCalDone good margin ms temp bands s
  | .autoPend => Sys2Proof.Machine.execAutoPend s
  | .autoCalStart => Sys2Proof.Machine.execAutoCalStart s
  | .floodUnknownTimeout => Sys2Proof.Machine.execFloodUnknownTimeout s
  | .relearn f => Sys2Proof.Machine.execRelearn f s
  | .rfSurvey f idx => Sys2Proof.Machine.execRfSurvey f idx s
  | .rdsSyncAcquired pilot => Sys2Proof.Machine.execRdsSyncAcquired pilot s
  | .rdsSyncLost => Sys2Proof.Machine.execRdsSyncLost s
  | .rdsBlock pos bits data => Sys2Proof.Machine.execRdsBlock pos bits data s
  | .rdsGroup at_ => Sys2Proof.Machine.execRdsGroup at_ s
  | .afListComplete => Sys2Proof.Machine.execAfListComplete s
  | .afSearch cause rssis => Sys2Proof.Machine.execAfSearch cause rssis s
  | .afSwitch us => Sys2Proof.Machine.execAfSwitch us s
  | .afReturn => Sys2Proof.Machine.execAfReturn s
  | .afPeriodicCheck rssi => Sys2Proof.Machine.execAfPeriodicCheck rssi s
  | .afRecall => Sys2Proof.Machine.execAfRecall s
  | .dabSync => Sys2Proof.Machine.execDabSync s
  | .dabSyncLost => Sys2Proof.Machine.execDabSyncLost s
  | .dabFib at_ crcOk bytes => Sys2Proof.Machine.execDabFib at_ crcOk bytes s
  | .dabReconfiguration => Sys2Proof.Machine.execDabReconfiguration s
  | .dabPacket crcOk bytes => Sys2Proof.Machine.execDabPacket crcOk bytes s
  | .dabAfSearch cause rssis => Sys2Proof.Machine.execDabAfSearch cause rssis s
  | .dabAfSwitch ms => Sys2Proof.Machine.execDabAfSwitch ms s
  | .dabAfReturn => Sys2Proof.Machine.execDabAfReturn s
  | .dabFreqMeasure err sd => Sys2Proof.Machine.execDabFreqMeasure err sd s
  | .dabPikaTimeout => Sys2Proof.Machine.execDabPikaTimeout s
  | .lfMarker edge durUs => Sys2Proof.Machine.execLfMarker edge durUs s
  | .lfSecsyncLost => Sys2Proof.Machine.execLfSecsyncLost s
  | .lfFrame => Sys2Proof.Machine.execLfFrame s
  | .lfCarrierMeasure err sd => Sys2Proof.Machine.execLfCarrierMeasure err sd s
  | .lfCarrierChange db => Sys2Proof.Machine.execLfCarrierChange db s
  | .lftTplSelWrite f v => Sys2Proof.Machine.execLftTplSelWrite f v s
  | .lftTplCommit f => Sys2Proof.Machine.execLftTplCommit f s
  | .lftTplClear f => Sys2Proof.Machine.execLftTplClear f s
  | .timeCandidateApply => Sys2Proof.Machine.execTimeCandidateApply s
  | .slewEnd => Sys2Proof.Machine.execSlewEnd s
  | .timeDeferredApply => Sys2Proof.Machine.execTimeDeferredApply s
  | .timeSet f => Sys2Proof.Machine.execTimeSet f s
  | .aonTempSample temp => Sys2Proof.Machine.execAonTempSample temp s
  | .x32PairWindow relErr moved => Sys2Proof.Machine.execX32PairWindow relErr moved s
  | .leapApplied => Sys2Proof.Machine.execLeapApplied s
  | .leapClr f => Sys2Proof.Machine.execLeapClr f s
  | .modelReset f => Sys2Proof.Machine.execModelReset f s
  | .timePulse => Sys2Proof.Machine.execTimePulse s
  | .timeLoss => Sys2Proof.Machine.execTimeLoss s
  | .timeLossThrWrite f v => Sys2Proof.Machine.execTimeLossThrWrite f v s
  | .rdsSegmentTimeout => Sys2Proof.Machine.execRdsSegmentTimeout s
  | .blockComplete stream obj blk pikaOk => Sys2Proof.Machine.execBlockComplete stream obj blk pikaOk s
  | .decodeRetry stream obj blk pikaOk => Sys2Proof.Machine.execDecodeRetry stream obj blk pikaOk s
  | .objectAcceptance stream obj => Sys2Proof.Machine.execObjectAcceptance stream obj s
  | .vanWindowStart => Sys2Proof.Machine.execVanWindowStart s
  | .edfSegmentStat => Sys2Proof.Machine.execEdfSegmentStat s
  | .hoardFlush => Sys2Proof.Machine.execHoardFlush s
  | .hoardCompact => Sys2Proof.Machine.execHoardCompact s
  | .objectExpiry stream obj => Sys2Proof.Machine.execObjectExpiry stream obj s
  | .wearLevelMove => Sys2Proof.Machine.execWearLevelMove s
  | .hoardQueryStatus f => Sys2Proof.Machine.execHoardQueryStatus f s
  | .hoardQueryRelease f => Sys2Proof.Machine.execHoardQueryRelease f s
  | .hoardQueryList f => Sys2Proof.Machine.execHoardQueryList f s
  | .hoardQueryUsage f => Sys2Proof.Machine.execHoardQueryUsage f s
  | .verifyObject f => Sys2Proof.Machine.execVerifyObject f s
  | .edfErase f => Sys2Proof.Machine.execEdfErase f s
  | .vanClr f => Sys2Proof.Machine.execVanClr f s
  | .edfFlush f => Sys2Proof.Machine.execEdfFlush f s
  | .apArmWrite f port v => Sys2Proof.Machine.execApArmWrite f port v s
  | .apPortStart port => Sys2Proof.Machine.execApPortStart port s
  | .apTxFrameEdge port => Sys2Proof.Machine.execApTxFrameEdge port s
  | .apRxFrameEdge port slots => Sys2Proof.Machine.execApRxFrameEdge port slots s
  | .apHardLoss port receive samples => Sys2Proof.Machine.execApHardLoss port receive samples s
  | .ap0WptrWrite f v => Sys2Proof.Machine.execAp0WptrWrite f v s
  | .ringRst f port => Sys2Proof.Machine.execRingRst f port s
  | .apPortStop port => Sys2Proof.Machine.execApPortStop port s
  | .bphLock apart violation => Sys2Proof.Machine.execBphLock apart violation s
  | .bphLockLost missing violated => Sys2Proof.Machine.execBphLockLost missing violated s
  | .bphSubframe pre word valid user status parityOk => Sys2Proof.Machine.execBphSubframe pre word valid user status parityOk s
  | .bphBlockEnd => Sys2Proof.Machine.execBphBlockEnd s
  | .bphRateMeasure mHz => Sys2Proof.Machine.execBphRateMeasure mHz s
  | .bphOutFrame => Sys2Proof.Machine.execBphOutFrame s
  | .captureStart => Sys2Proof.Machine.execCaptureStart s
  | .captureBlockWrite => Sys2Proof.Machine.execCaptureBlockWrite s
  | .captRelWrite f v => Sys2Proof.Machine.execCaptRelWrite f v s
  | .captureEnd => Sys2Proof.Machine.execCaptureEnd s
  | .stats pikaOk => Sys2Proof.Machine.execStats pikaOk s
  | .snippet => Sys2Proof.Machine.execSnippet s
  | .spill => Sys2Proof.Machine.execSpill s
  | .spillDel f => Sys2Proof.Machine.execSpillDel f s
  | .captureNow f => Sys2Proof.Machine.execCaptureNow f s
  | .twinEnWrite f v => Sys2Proof.Machine.execTwinEnWrite f v s
  | .undecidedTimeout => Sys2Proof.Machine.execUndecidedTimeout s
  | .heartbeatEmit => Sys2Proof.Machine.execHeartbeatEmit s
  | .twinHbPulse lowUs => Sys2Proof.Machine.execTwinHbPulse lowUs s
  | .hbStuck => Sys2Proof.Machine.execHbStuck s
  | .takeoverDue => Sys2Proof.Machine.execTakeoverDue s
  | .claim lineLow => Sys2Proof.Machine.execClaim lineLow s
  | .claimingEnd => Sys2Proof.Machine.execClaimingEnd s
  | .checkpointBuild wakeAck => Sys2Proof.Machine.execCheckpointBuild wakeAck s
  | .ckptNow f => Sys2Proof.Machine.execCkptNow f s
  | .chunkSend ack => Sys2Proof.Machine.execChunkSend ack s
  | .twinFrameReceived bytes pec => Sys2Proof.Machine.execTwinFrameReceived bytes pec s
  | .partialSetTimeout => Sys2Proof.Machine.execPartialSetTimeout s
  | .checkpointConfigCopy => Sys2Proof.Machine.execCheckpointConfigCopy s
  | .twinSwap f => Sys2Proof.Machine.execTwinSwap f s
  | .swapFailed => Sys2Proof.Machine.execSwapFailed s
  | .standbySelftest mask => Sys2Proof.Machine.execStandbySelftest mask s
  | .healthSample => Sys2Proof.Machine.execHealthSample s
  | .sampleNow f => Sys2Proof.Machine.execSampleNow f s
  | .replaceClr f => Sys2Proof.Machine.execReplaceClr f s
  | .svcStart f => Sys2Proof.Machine.execSvcStart f s
  | .healthReport f sig => Sys2Proof.Machine.execHealthReport f sig s
  | .selftest f mask ms => Sys2Proof.Machine.execSelftest f mask ms s
  | .signRecord f => Sys2Proof.Machine.execSignRecord f s
  | .busDeadRelease => Sys2Proof.Machine.execBusDeadRelease s
  | .baselineEntryDrop kfc => Sys2Proof.Machine.execBaselineEntryDrop kfc s
  | .afBanEnd code => Sys2Proof.Machine.execAfBanEnd code s
  | .dabAfBanEnd freq => Sys2Proof.Machine.execDabAfBanEnd freq s
  | .dabAfPeriodicCheck rssi => Sys2Proof.Machine.execDabAfPeriodicCheck rssi s
  | .dabAfRecall => Sys2Proof.Machine.execDabAfRecall s
  | .doneListExpiry stream obj => Sys2Proof.Machine.execDoneListExpiry stream obj s

end Sys2Proof.Machine
end

