-- ==== Sys2Proof/Machine/Pins.lean ====
section
/-! DEFINITION. The pins: their numbers, types, supply domains, classes and reset states (Table 2.1), and the state of each one
as the machine stands (Table 2.2). Nothing reads a pin state back: the commands act on what lies behind the pins. Where
Table 2.2 leaves a state open, log entry 189 says which one stands here. -/

namespace Sys2Proof.Machine

open R

/-- The pins of Table 2.1 in order, with the exposed pad. -/
inductive Pin where
  | vbat | lx | vbuck | vres | decAon | x32P | x32N | resetN | wakeN | role | twinHb | twrstN | sda | scl | vddio | csN | sclk
  | mosi | miso | int0N | int1N | fCsN | fSck | fIo0 | fIo1 | fIo2 | fIo3 | decCore | ap0Bclk | ap0Fs | ap0Din | ap0Dout
  | ap1Bclk | ap1Fs | ap1Dat | bphIn | bphOut | gpio0 | gpio1 | test | decSyn | xoN | xoP | decRf | vhfRtn | vhfIn | lfN | lfP
  | ep
  deriving DecidableEq, Repr

/-- Pin types (Table 2.1): supply, power output, decoupling, analog, input, output, bidirectional, open-drain. -/
inductive PinType where
  | p | po | d | a | i | o | io | od
  deriving DecidableEq, Repr

/-- Supply domains of pins. -/
inductive Domain where
  | vbat | aon | vddio | vbuck | vres | core | syn | rf
  deriving DecidableEq, Repr

/-- Pin classes (Table 2.2). -/
inductive PinClass where
  | p | k | a | b | t | w | h | q | s | g
  deriving DecidableEq, Repr

/-- What a pin does. -/
inductive PinState where
  /-- Supplied from outside, or ground. -/
  | present
  /-- A supply output or rail: off, coming up, at retention voltage, on; off with 2 kΩ to ground. -/
  | off | rising | retention | on | offLoaded
  /-- The charge switch of `VRES`: open, or conducting. -/
  | chargeOpen | charging
  /-- An oscillator pin that starts, or runs. -/
  | starting | running
  /-- High impedance, and the same with the pull-down. -/
  | highZ | highZDown
  /-- A disabled input with the pull-down. -/
  | inputOff
  /-- An input: plain, with the pull-up, with the pull-down. -/
  | input | inputUp | inputDown
  /-- A strap whose latched value holds. -/
  | latched
  /-- An open-drain pin: released, or driven low. -/
  | released | low
  /-- A pin driven by its protocol, or at a level. -/
  | driven | level (high : Bool)
  /-- A flash pin without supply. -/
  | unpowered
  /-- An antenna input that is biased; the ground return. -/
  | biased | groundReturn
  deriving DecidableEq, Repr

/-- Type, domain and class of a pin (Table 2.1); supplies and ground have no domain. -/
def Pin.info : Pin → PinType × Option Domain × PinClass
  | .vbat => (.p, none, .p)
  | .lx => (.po, some .vres, .p)
  | .vbuck => (.p, some .vres, .p)
  | .vres => (.p, some .vbat, .p)
  | .decAon => (.d, some .aon, .p)
  | .x32P => (.a, some .aon, .k)
  | .x32N => (.a, some .aon, .k)
  | .resetN => (.i, some .vbat, .b)
  | .wakeN => (.od, some .vbat, .b)
  | .role => (.i, some .vbat, .t)
  | .twinHb => (.od, some .vbat, .b)
  | .twrstN => (.od, some .vddio, .w)
  | .sda => (.od, some .vddio, .w)
  | .scl => (.od, some .vddio, .w)
  | .vddio => (.p, none, .p)
  | .csN => (.i, some .vddio, .h)
  | .sclk => (.i, some .vddio, .h)
  | .mosi => (.i, some .vddio, .h)
  | .miso => (.o, some .vddio, .h)
  | .int0N => (.od, some .vddio, .h)
  | .int1N => (.od, some .vddio, .h)
  | .fCsN => (.o, some .vbuck, .q)
  | .fSck => (.o, some .vbuck, .q)
  | .fIo0 => (.io, some .vbuck, .q)
  | .fIo1 => (.io, some .vbuck, .q)
  | .fIo2 => (.io, some .vbuck, .q)
  | .fIo3 => (.io, some .vbuck, .q)
  | .decCore => (.d, some .core, .p)
  | .ap0Bclk => (.o, some .vddio, .s)
  | .ap0Fs => (.o, some .vddio, .s)
  | .ap0Din => (.i, some .vddio, .s)
  | .ap0Dout => (.o, some .vddio, .s)
  | .ap1Bclk => (.o, some .vddio, .s)
  | .ap1Fs => (.o, some .vddio, .s)
  | .ap1Dat => (.io, some .vddio, .s)
  | .bphIn => (.i, some .vddio, .s)
  | .bphOut => (.o, some .vddio, .s)
  | .gpio0 => (.io, some .vddio, .g)
  | .gpio1 => (.io, some .vddio, .g)
  | .test => (.i, some .vbat, .t)
  | .decSyn => (.d, some .syn, .p)
  | .xoN => (.a, some .syn, .k)
  | .xoP => (.a, some .syn, .k)
  | .decRf => (.d, some .rf, .p)
  | .vhfRtn => (.a, some .rf, .a)
  | .vhfIn => (.a, some .rf, .a)
  | .lfN => (.a, some .rf, .a)
  | .lfP => (.a, some .rf, .a)
  | .ep => (.p, none, .p)

/-- The pins in the order of their numbers, 1 to 48, and the exposed pad. -/
def pinList : List Pin :=
  ([.vbat, .lx, .vbuck, .vres, .decAon, .x32P, .x32N, .resetN, .wakeN, .role, .twinHb, .twrstN] : List Pin) ++
  ([.sda, .scl, .vddio, .csN, .sclk, .mosi, .miso, .int0N, .int1N, .fCsN, .fSck, .fIo0] : List Pin) ++
  ([.fIo1, .fIo2, .fIo3, .decCore, .ap0Bclk, .ap0Fs, .ap0Din, .ap0Dout, .ap1Bclk, .ap1Fs, .ap1Dat, .bphIn] : List Pin) ++
  ([.bphOut, .gpio0, .gpio1, .test, .decSyn, .xoN, .xoP, .decRf, .vhfRtn, .vhfIn, .lfN, .lfP, .ep] : List Pin)

/-- The state of a pin while the power-on reset is asserted or `RESET_N` is low (Table 2.1). -/
def Pin.resetState : Pin → PinState
  | .vbat => .present
  | .lx => .highZ
  | .vbuck => .offLoaded
  | .vres => .chargeOpen
  | .decAon => .rising
  | .x32P => .starting
  | .x32N => .starting
  | .resetN => .inputUp
  | .wakeN => .released
  | .role => .inputDown
  | .twinHb => .released
  | .twrstN => .released
  | .sda => .released
  | .scl => .released
  | .vddio => .present
  | .csN => .inputUp
  | .sclk => .input
  | .mosi => .input
  | .miso => .highZ
  | .int0N => .released
  | .int1N => .released
  | .fCsN => .unpowered
  | .fSck => .unpowered
  | .fIo0 => .unpowered
  | .fIo1 => .unpowered
  | .fIo2 => .unpowered
  | .fIo3 => .unpowered
  | .decCore => .rising
  | .ap0Bclk => .highZDown
  | .ap0Fs => .highZDown
  | .ap0Din => .inputOff
  | .ap0Dout => .highZDown
  | .ap1Bclk => .highZDown
  | .ap1Fs => .highZDown
  | .ap1Dat => .inputOff
  | .bphIn => .inputOff
  | .bphOut => .highZDown
  | .gpio0 => .inputDown
  | .gpio1 => .inputDown
  | .test => .inputDown
  | .decSyn => .off
  | .xoN => .off
  | .xoP => .off
  | .decRf => .off
  | .vhfRtn => .groundReturn
  | .vhfIn => .highZ
  | .lfN => .highZ
  | .lfP => .highZ
  | .ep => .present

/-- The SYN and RF rails are on in BOOT, and for a reception or a calibration. -/
def State.radioRails (s : State) : Bool := s.coreRuns && (s.get MODE.CUR == 3 || s.get FES_STAT.PATH != 0 || s.fe.cal.isSome)

/-- Class P: rails follow the mode; `VRES` conducts while the charger has a set-point. -/
def State.railState (s : State) : Pin → PinState
  | .lx => if s.coreRuns then .driven else .highZ
  | .vbuck => if s.coreRuns then .on else .off
  | .vres => if s.get MODE.CUR = 0 ∨ s.pwr.setPoint = 0 then .chargeOpen else .charging
  | .decAon => if s.get MODE.CUR = 0 then .off else .on
  | .decCore => if s.coreRuns then .on else if s.get MODE.CUR ≠ 0 ∧ s.get MODE.RET = 1 then .retention else .off
  | .decSyn => if s.radioRails then .on else .off
  | .decRf => if s.radioRails then .on else .off
  | _ => .present

/-- Class S: an input or output of a serial port that runs, else high impedance. -/
def State.serialState (s : State) : Pin → PinState
  | .ap0Bclk => if s.ap.p0.run then .driven else .highZDown
  | .ap0Fs => if s.ap.p0.run then .driven else .highZDown
  | .ap0Dout => if s.ap.p0.run ∧ s.txOn .ap0 then .driven else .highZDown
  | .ap0Din => if s.ap.p0.run ∧ s.rxOn .ap0 then .input else .inputOff
  | .ap1Bclk => if s.ap.p1.run then .driven else .highZDown
  | .ap1Fs => if s.ap.p1.run then .driven else .highZDown
  | .ap1Dat => if s.ap.p1.run then (if s.txOn .ap1 then .driven else .input) else .inputOff
  | .bphOut => if s.ap.bph.run then .driven else .highZDown
  | _ => if s.bphRuns then .input else .inputOff

/-- Class G: the configured function, which every rest but SHUTDOWN keeps. -/
def State.gpioState (s : State) (cfg : Nat) : PinState :=
  if s.get MODE.CUR = 0 then .highZDown
  else match s.gpioDrive cfg with
    | some b => .level b
    | none => if cfg / 32 % 2 = 1 then .inputDown else .input

/-- Classes W and H, whose pins are supplied from `VDDIO`. In rest the two-wire lines listen only for the matcher. -/
def State.hostState (s : State) : Pin → PinState
  | .twrstN => if s.get MODE.CUR = 0 then .highZ else .released
  | .sda => if s.get MODE.CUR = 0 ∨ s.mode.resting ∧ ¬ s.bit MODE.MATCH_ON then .highZ else .released
  | .scl =>
    if s.get MODE.CUR = 0 ∨ s.mode.resting ∧ ¬ s.bit MODE.MATCH_ON then .highZ
    else if s.tw.sclHeld ∧ s.pins.vddio then .low else .released
  | .csN => if s.get MODE.CUR = 0 then .inputOff else .inputUp
  | .miso => .highZ
  | .int0N => if s.pinLow 1 then .low else .released
  | .int1N => if s.pinLow 2 then .low else .released
  | _ => if s.get MODE.CUR = 0 then .inputOff else .input

/-- The state of a pin outside reset (Table 2.2). -/
def State.modeState (s : State) (p : Pin) : PinState :=
  match p.info.2.2 with
  | .p => s.railState p
  | .k =>
    if p = .x32P ∨ p = .x32N then (if s.get MODE.CUR = 0 then .off else if s.bit CLK_STAT.X32_OK then .running else .starting)
    else if s.coreRuns then .running else .off
  | .a =>
    if p = .vhfRtn then .groundReturn
    else if p = .vhfIn then (if 2 ≤ s.get FES_STAT.PATH then .biased else .highZ)
    else if s.get FES_STAT.PATH = 1 then .biased else .highZ
  | .b => if p = .resetN then .inputUp else if p = .wakeN ∧ s.pins.wakeDrive then .low else .released
  | .t => if p = .test then .inputDown else if s.pins.pulldown then .inputDown else .latched
  | .w => s.hostState p
  | .h => s.hostState p
  | .q => if s.coreRuns then (if p = .fCsN then .level true else .driven) else .unpowered
  | .s => if s.pins.vddio then s.serialState p else if p.info.1 = .o then .highZDown else .inputOff
  | .g => s.gpioState (s.get (if p = .gpio0 then GPIO0_CFG.w else GPIO1_CFG.w))

/-- Classes that factory test keeps in their reset state (R32). -/
def PinClass.testHeld : PinClass → Bool
  | .b => true
  | .w => true
  | .h => true
  | .s => true
  | .g => true
  | _ => false

/-- The state of a pin (R25, R26, R32). -/
def State.pinState (s : State) (p : Pin) : PinState :=
  if s.pins.porAsserted ∨ (s.pins.test ∧ p.info.2.2.testHeld) then p.resetState else s.modeState p

end Sys2Proof.Machine
end

