-- ==== Sys2Proof/Safety.lean ====
section
/-! DEFINITION. What a safe run is, the invariant of the block's state, and the vocabulary of frames: the areas of the
state, what it means that a command changes only some of them, and what a completed command is said to leave. -/

namespace Sys2Proof.Machine

/-- The invariant: the register file, the event counters, the snapshot latches and device memory are in canonical form,
so that equal contents are equal data and a word written is the word read. -/
abbrev State.Canon (s : State) : Prop :=
  Sparse.wf resetWord s.regs = true ∧ Sparse.wf (fun _ => (0 : Word)) s.cnts = true ∧
    Sparse.wf (fun _ => (0 : Word)) s.latches = true ∧ Sparse.wf memDefault s.mem = true

/-- The block's memory is in canonical form. -/
abbrev Memory.wf (s : State) : Prop := Sparse.wf memDefault s.mem = true

/-- An outcome that goes on to a next state; the block has no other safe one. -/
def Safe (o : Host.Outcome State Fault Refusal) : Prop := ∃ t, o = .next t

/-- The areas of the state: the registers of one page (page 0: the common part of every function), one register (of the
common part: that register of every function), and each store and engine beside the registers. -/
inductive Area where
  | page (p : Nat)
  | reg (x : Fld)
  | counters | latches | memory | ktime | cycles | pins | power | mode | boot | flint | image | spi | twoWire | engines
  | plans | sched | frontEnd | fm | dab | lf | time | datacast | ports | biphase | capture | twin | health | hostOut
  | openValues
  deriving DecidableEq, Repr

/-- An area holds the register of a key. -/
def Area.has (k : Nat) : Area → Bool
  | .page p => keyPage k == p
  | .reg x => keyPage k == keyPage x.key && k % 128 == x.key % 128
  | _ => false

/-- The number of an area beside the registers. -/
def Area.bit : Area → Nat
  | .counters => 0 | .latches => 1 | .memory => 2 | .ktime => 3 | .cycles => 4 | .pins => 5 | .power => 6 | .mode => 7
  | .boot => 8 | .flint => 9 | .image => 10 | .spi => 11 | .twoWire => 12 | .engines => 13 | .plans => 14 | .sched => 15
  | .frontEnd => 16 | .fm => 17 | .dab => 18 | .lf => 19 | .time => 20 | .datacast => 21 | .ports => 22
  | .biphase => 23 | .capture => 24 | .twin => 25 | .health => 26 | .hostOut => 27 | .openValues => 28
  | .page _ => 29
  | .reg _ => 30

/-- Consecutive registers from one on. -/
def Area.regs (x : Fld) (n : Nat) : List Area := (List.range n).map (fun i => .reg ⟨x.key + i, 15, 0⟩)

/-- What a source of `INT_STAT0` that sets may change: the status, its counter, the attention messages, and the request to
wake the host. -/
def Area.event : List Area := [.counters, .mode, .engines, .reg R.INT_STAT0.w, .reg R.WAKE_HREASON.w]

/-- What any register access of the host may change beyond the register's own effect: `FN_ERR`, and what an interrupt
source of F0's `INT_STAT1` that sets changes. -/
def Area.access : List Area :=
  [.counters, .mode, .engines, .reg R.FN_ERR.w, .reg R.INT_STAT1.w, .reg R.WAKE_HREASON.w]

/-- The pages that hold no AON-stored register (Table 4.2). -/
def Area.core : List Area :=
  ((List.range 256).filter (fun p => !([1, 2, 3, 0x11, 0x17].contains p))).map .page

/-- What the end of a reception changes beside the interrupt: the tuner, the decoders, and the registers that show them. -/
def Area.reception : List Area :=
  [.frontEnd, .fm, .dab, .lf, .datacast, .reg R.CLK_STAT.w, .reg R.FES_STAT.w, .reg R.FES_RSSI.w, .reg
    R.FES_AF_STAT.w, .reg R.SYN_STAT.w, .reg R.FMR_STAT.w, .reg R.FMR_PI.w, .reg R.FMR_ODA_AID.w, .reg
    R.FMR_ODA_TYPE.w, .reg R.FMR_AF_N.w, .reg R.DAB_STAT.w, .reg R.DAB_EID.w, .reg R.DAB_SID_L.w, .reg
    R.DAB_SID_H.w, .reg R.DAB_SUBCH.w, .reg R.DAB_SUBCH_PROT.w, .reg R.DAB_SUBCH_START.w, .reg R.DAB_CIF.w, .reg
    R.DAB_FERR.w, .reg R.DAB_FERR_SD.w, .reg R.DAB_AF_N.w, .reg R.LFT_STAT.w, .reg R.LFT_FERR.w, .reg
    R.EDF_CNT_SEG.w, .reg R.EDF_CNT_BAD.w] ++ Area.regs (R.FMR_AF.w 0) 25 ++ Area.regs (R.DAB_AF.w 0) 16 ++
    Area.regs (R.DAB_AF_F.w 0) 16

/-- Two states hold the same in a store or engine. -/
def Same (s t : State) : Area → Prop
  | .page _ => True
  | .reg _ => True
  | .counters => t.cnts = s.cnts
  | .latches => t.latches = s.latches
  | .memory => t.mem = s.mem
  | .ktime => t.ktime = s.ktime
  | .cycles => t.aon = s.aon
  | .pins => t.pins = s.pins
  | .power => t.pwr = s.pwr
  | .mode => t.mode = s.mode
  | .boot => t.boot = s.boot
  | .flint => t.flint = s.flint
  | .image => t.img = s.img
  | .spi => t.spi = s.spi
  | .twoWire => t.tw = s.tw
  | .engines => t.fns = s.fns
  | .plans => t.plans = s.plans
  | .sched => t.sched = s.sched
  | .frontEnd => t.fe = s.fe
  | .fm => t.fm = s.fm
  | .dab => t.dab = s.dab
  | .lf => t.lf = s.lf
  | .time => t.time = s.time
  | .datacast => t.edf = s.edf
  | .ports => t.ap = s.ap
  | .biphase => t.bph = s.bph
  | .capture => t.capt = s.capt
  | .twin => t.twin = s.twin
  | .health => t.hlt = s.hlt
  | .hostOut => t.hostOut = s.hostOut
  | .openValues => t.freeCtr = s.freeCtr

/-- A change of state leaves every register, store and engine outside the list as it was, and the ordering code and the
queue too. -/
def Only (l : List Area) (s t : State) : Prop :=
  t.variantFL = s.variantFL ∧ t.pending = s.pending ∧ (∀ k, l.any (Area.has k) = false → t.reg k = s.reg k) ∧
    ∀ a, a ∉ l → Same s t a

/-- Command `c` goes on from every canonical state that meets `H`, to a state that stands to it as `E` says. -/
def Completes (c : Instr) (H : State → Prop) (E : State → State → Prop) : Prop :=
  ∀ s, s.Canon → H s → ∃ t, exec c s = .next t ∧ E s t

/-- The block serves a write of function `f` to a register of a page: past READY, no reset of the function, no HOST-LOAD wait,
and for a tenant a read-write grant on a page that is not F0's own (R515). Page 0 is the common part. -/
abbrev Serves (s : State) (f : Fn) (page : Nat) : Prop :=
  s.mode.ready = true ∧ s.fget f R.FN_STATE.RESET_BUSY = 0 ∧ s.hostLoading = false ∧
    (f = .f0 ∨ page = 0 ∨ (s.grant f page = 2 ∧ f0Page page = false))

/-- Every register outside the list holds the word it held. -/
def OnlyRegs (l : List Fld) (s t : State) : Prop := ∀ k, k ∉ l.map Fld.key → t.reg k = s.reg k

/-- The bytes at the addresses of a set are as they were. -/
def MemKept (p : Nat → Bool) (s t : State) : Prop := ∀ a, p a = true → t.byte a = s.byte a

/-- The bytes at the addresses of a set read as if nothing had written them. -/
def MemFresh (p : Nat → Bool) (t : State) : Prop := ∀ a, p a = true → t.byte a = memDefault a

/-- The op of function `f` has reached its end with a code and results, which CMD_DONE publishes. -/
def Ended (t : State) (f : Fn) (err : Nat) (res : List Word) : Prop := (t.eng f).op.bind Op.outcome = some (err, res)

/-- Command `c` goes on from every state that meets `H`, and the bytes at the addresses of a set are as they were. -/
def Stores (c : Instr) (H : State → Prop) (p : Nat → Bool) : Prop := ∀ s, H s → ∃ t, exec c s = .next t ∧ MemKept p s t

/-- Command `c` goes on from every state and changes only the areas of some lists. -/
def Within (c : Instr) (l : List (List Area)) : Prop := ∀ s, ∃ t, exec c s = .next t ∧ Only l.flatten s t

end Sys2Proof.Machine
end

