-- ==== Sys2Proof/Certificates/Slice0/Obligations.lean ====
section
/-! DEFINITION. The statements for the provers. A completion statement gives, for each of its commands, conditions on the
state and the operands under which the command goes on, and what the next state holds; a frame statement gives what a
command leaves; the others state rules of the machine as a whole. -/

open Sys2Proof Sys2Proof.Machine R

/-- What the reset commands leave. For each command named in a comment: from every canonical state that meets the
conditions, it goes on to a next state with the values listed. -/
def Obligations.ResetCommandsComplete : Prop :=
  -- POWER_ON_RESET (R65)
  (∀ (vbatMin : Nat), Completes (.powerOnReset vbatMin) (fun s => 1800 ≤ vbatMin ∧ s.boot.cause ≠ 1) (fun s t =>
    t.pins.porAsserted = true ∧ (∀ p, t.pinState p = p.resetState) ∧ t.boot.cause = 2 ∧ t.ktime = 0 ∧ MemKept isFlash s t ∧ MemKept isBurrow s t ∧
    MemFresh (fun a => !isFlash a && !isBurrow a) t ∧ t.get32 LEDGER_L.w = s.get32 LEDGER_L.w)) ∧
  -- POWER_ON_RESET (R65)
  (∀ (vbatMin : Nat), Completes (.powerOnReset vbatMin) (fun _ => vbatMin < 1800) (fun s t =>
    t.pins.porAsserted = true ∧ t.boot.cause = 1 ∧ MemKept isFlash s t ∧ MemFresh (fun a => !isFlash a) t)) ∧
  -- POWER_ON_RESET_RELEASE (R25)
  (Completes (.powerOnResetRelease) (fun s => s.pins.porAsserted = true) (fun _ t => t.pins.porAsserted = false ∧
    t.pins.pulldown = true ∧ t.pins.strapDue = true ∧ t.boot.startWait = true ∧ t.get MODE.CUR = 3 ∧
    t.get PWR_STAT.CHG_STATE = 3)) ∧
  -- STRAP_SAMPLE (R30)
  (∀ (role test : Bool), Completes (.strapSample role test) (fun s => s.pins.strapDue = true ∧
    s.pins.porAsserted = false ∧ s.get MODE.CUR ≠ 0) (fun _ t => t.pins.role = role ∧ t.pins.test = test ∧
    t.pins.pulldown = false ∧ t.pins.strapDue = false ∧ (∀ f, t.fget f FN_ID.UNIT = if role then 1 else 0))) ∧
  -- PIN_RESET (R33)
  (∀ (lowUs : Nat), Completes (.pinReset lowUs) (fun s => 10 ≤ lowUs ∧ s.pins.porAsserted = false ∧
    s.get MODE.CUR ≠ 0) (fun s t => t.get MODE.CUR = 3 ∧ t.boot.cause = 3 ∧ t.pins.strapDue = true ∧
    t.mode.ready = false ∧ t.ktime = s.ktime ∧ t.aon = s.aon)) ∧
  -- PIN_RESET (R112)
  (∀ (lowUs : Nat), Completes (.pinReset lowUs) (fun s => 10 ≤ lowUs ∧ s.pins.porAsserted = false ∧
    s.get MODE.CUR = 0) (fun s t => t.get MODE.CUR = 3 ∧ t.boot.cause = 3 ∧ t.pins.strapDue = true ∧
    t.boot.startWait = true ∧ t.mode.ready = false ∧ t.ktime = s.ktime)) ∧
  -- SYS_WDOG (R468)
  (Completes (.sysWdog) (fun s => s.coreRuns = true ∧ s.boot.startWait = false) (fun s t => t.get MODE.CUR = 3 ∧
    t.boot.cause = 9 ∧ t.pins.strapDue = s.pins.strapDue ∧ t.mode.ready = false ∧ t.ktime = s.ktime ∧ t.aon = s.aon)) ∧
  -- VDDIO_RETURN (R29)
  (Completes (.vddioReturn) (fun s => s.pins.vddio = false) (fun _ t => t.pins.vddio = true ∧
    t.fget .f0 INT_STAT1.HOSTPORT_ERROR = 1 ∧ t.fget .f0 INT_STAT1.TW_ERROR = 1))

/-- What the charger and sampling commands do. For each command named in a comment: from every canonical state that
meets the conditions, it goes on to a next state with the values listed. -/
def Obligations.ChargerCommandsComplete : Prop :=
  -- VBAT_SAMPLE (R43)
  (∀ (vbat vres chgUa sinkUa aonNa : Nat), Completes (.vbatSample vbat vres chgUa sinkUa aonNa) (fun _ =>
    vbat < 0x10000 ∧ vres < 0x10000 ∧ chgUa < 0x10000) (fun _ t => t.get VBAT_MEAS.w = vbat ∧
    t.get VRES_MEAS.w = vres ∧ t.get CHG_I_MEAS.w = chgUa ∧ t.bit PWR_STAT.VRES_OK = decide (2300 ≤ vres))) ∧
  -- IDLE_HOLD_START (R44)
  (Completes (.idleHoldStart) (fun s => s.get PWR_STAT.CHG_STATE = 1 ∧ s.bit PWR_STAT.CHG_ON = false ∧
    s.get VRES_MEAS.w + 50 ≤ s.idleMv) (fun s t => t.bit PWR_STAT.CHG_ON = true ∧ t.pwr.setPoint = min 4 s.chgLimit ∧
    OnlyRegs [PWR_STAT.w] s t)) ∧
  -- CHARGE_TARGET_REACHED (R44)
  (Completes (.chargeTargetReached) (fun s => s.bit PWR_STAT.CHG_ON = true ∧ s.stopMv ≤ s.get VRES_MEAS.w) (fun s t =>
    t.bit PWR_STAT.CHG_ON = false ∧ t.bit PWR_STAT.THROTTLED = false ∧ t.pwr.setPoint = 0 ∧
    OnlyRegs [PWR_STAT.w] s t)) ∧
  -- START_CONDITION (R46)
  (Completes (.startCondition) (fun s => s.boot.startWait = true ∧ s.pins.porAsserted = false ∧
    2300 ≤ s.get VRES_MEAS.w) (fun s t => t.boot.startWait = false ∧
    t.boot.hedgehog = (!s.pins.test && !s.pins.strapDue) ∧ t.get PWR_STAT.CHG_STATE = 1)) ∧
  -- PRE_CHARGE_START (R45)
  (Completes (.preChargeStart) (fun s => s.get PWR_STAT.CHG_STATE = 1 ∧ s.wantsCharge = true ∧
    s.runsPlans = true ∧ s.dormouse = true ∧ s.mode.delayed = none) (fun s t => t.get PWR_STAT.CHG_STATE = 2 ∧ OnlyRegs [PWR_STAT.w] s t)) ∧
  -- PRE_CHARGE_RECOMPUTE (R45)
  (Completes (.preChargeRecompute) (fun s => s.get PWR_STAT.CHG_STATE = 2 ∧ s.preHeld = false) (fun s t =>
    t.get PWR_STAT.CHG_STATE = 1 ∧ OnlyRegs [PWR_STAT.w] s t)) ∧
  -- BAT_SAG (R64)
  (Completes (.batSag) (fun s => 40 ≤ s.pwr.zeroHold ∧ s.pwr.sagSet = false) (fun _ t => t.pwr.sagSet = true ∧
    t.fget .f0 INT_STAT1.BAT_SAG = 1)) ∧
  -- RESERVOIR_FAULT (R65)
  (∀ (rise ms : Nat), Completes (.reservoirFault rise ms) (fun s => s.bit PWR_STAT.CHG_ON = true ∧ rise < 100 ∧
    4 * s.cEst / 10 ≤ s.iEff * ((ms : ℚ) / 1000)) (fun _ t => t.fget .f0 INT_STAT1.RESERVOIR_LOW = 1)) ∧
  -- BURST_OK_LOW (R58)
  (Completes (.burstOkLow) (fun s => s.get VRES_MEAS.w + 50 < 2000 + 10 * s.get BURST_CFG.BURST_V) (fun s t =>
    t.bit PWR_STAT.BURST_OK = false ∧ OnlyRegs [PWR_STAT.w] s t)) ∧
  -- BURST_OK_HIGH (R58)
  (Completes (.burstOkHigh) (fun s => 2000 + 10 * s.get BURST_CFG.BURST_V ≤ s.get VRES_MEAS.w ∧
    s.burstQuiet = true) (fun s t => t.bit PWR_STAT.BURST_OK = true ∧ OnlyRegs [PWR_STAT.w] s t))

/-- What depassivation, the ledger and the estimates do. For each command named in a comment: from every canonical
state that meets the conditions, it goes on to a next state with the values listed. -/
def Obligations.DepassivationAndLedgerCommandsComplete : Prop :=
  -- DEPASS_GO (R47)
  (Completes (.depassGo .f0) (fun s => Serves s .f0 0x3 ∧ s.bit PWR_STAT.DEPASS_BUSY = false ∧
    s.bit PWR_STAT.DEPASS_PEND = false ∧ s.depassBlocked = false ∧ s.bit PWR_STAT.LEAK_PROBE = false) (fun _ t =>
    t.bit PWR_STAT.DEPASS_BUSY = true ∧ t.bit PWR_STAT.DEPASS_PEND = false)) ∧
  -- DEPASS_AUTO_START (R48)
  (Completes (.depassAutoStart) (fun s => s.bit DEPASS_CFG.DEPASS_AUTO = true ∧ s.pwr.autoDue = true ∧
    s.dormouse = true ∧ s.bit PWR_STAT.DEPASS_BUSY = false ∧
    s.bit PWR_STAT.DEPASS_PEND = false ∧ s.depassBlocked = false ∧ s.bit PWR_STAT.LEAK_PROBE = false ∧
    s.depassFits = true) (fun _ t => t.bit PWR_STAT.DEPASS_BUSY = true ∧ t.pwr.autoDue = false)) ∧
  -- DEPASS_DEFERRED_START (R48)
  (Completes (.depassDeferredStart) (fun s => s.bit PWR_STAT.DEPASS_PEND = true ∧ s.depassBlocked = false ∧
    s.bit PWR_STAT.LEAK_PROBE = false ∧ (s.pwr.pendAuto = false ∨ s.depassFits = true)) (fun _ t => t.bit PWR_STAT.DEPASS_BUSY = true ∧
    t.bit PWR_STAT.DEPASS_PEND = false)) ∧
  -- DEPASS_PULSE_END (R47)
  (∀ (vmin vend : Nat), Completes (.depassPulseEnd vmin vend) (fun s => s.bit PWR_STAT.DEPASS_BUSY = true ∧
    vmin < 0x10000 ∧ vend < 0x10000) (fun _ t => t.bit PWR_STAT.DEPASS_BUSY = false ∧ t.get DEPASS_VMIN.w = vmin ∧
    t.get DEPASS_VEND.w = vend)) ∧
  -- DEPASS_EARLY_END (R47)
  (∀ (vmin vend ms : Nat), Completes (.depassEarlyEnd vmin vend ms) (fun s => s.bit PWR_STAT.DEPASS_BUSY = true ∧
    vmin < max 2000 (1700 + 10 * s.get VBAT_FLOOR.FLOOR) ∧ vend < 0x10000) (fun _ t =>
    t.bit PWR_STAT.DEPASS_BUSY = false ∧ t.get DEPASS_VMIN.w = vmin ∧ t.get DEPASS_VEND.w = vend ∧
    t.fget .f0 INT_STAT1.BAT_SAG = 1)) ∧
  -- PASS_IDX_MEASURE (R48)
  (∀ (rest now : Nat), Completes (.passIdxMeasure rest now) (fun s => s.bit PWR_STAT.CHG_ON = true ∧
    rest < 0x10000) (fun s t => t.get PASS_IDX.w = rest - now ∧
    t.pwr.autoDue = decide (s.get DEPASS_THR.THR ≤ rest - now) ∧ OnlyRegs [PASS_IDX.w] s t)) ∧
  -- LEDGER_COPY (R51)
  (Completes (.ledgerCopy) (fun s => s.flashFree = true) (fun s t => t.pwr.ledgerFlash = some (s.get32 LEDGER_L.w) ∧
    OnlyRegs [] s t)) ∧
  -- LEDGER_LOAD (R52)
  (Completes (.ledgerLoad .f0) (fun s => Serves s .f0 0x3) (fun s t => t.get32 LEDGER_L.w = s.get32 LEDGER_LD_L.w ∧
    t.bit PWR_STAT.LEDGER_GAP = false)) ∧
  -- EST_RESET (R56)
  (Completes (.estReset .f0) (fun s => Serves s .f0 0x3 ∧ s.bit PART_STAT.LOCKED = false) (fun _ t =>
    t.get RES_LEAK_EST.w = 1000 ∧ t.get RES_C_INIT.w = 0 ∧ t.get RES_LEAK_INIT.w = 0 ∧ t.pwr.cSeen = false)) ∧
  -- CAPACITANCE_SAMPLE (R54)
  (∀ (p : ChgPart) (q : ℚ), Completes (.capacitanceSample) (fun s => s.pwr.partDone = some p ∧ 100 ≤ p.v1 - p.v0 ∧
    q = ((p.setPoint : ℚ) / 4000 - s.iLeak) * p.samples * 2500 / ((p.v1 - p.v0 : Nat) : ℚ) ∧
    (s.get RES_C_EST.w : ℚ) / 4 ≤ q ∧ q ≤ 4 * (s.get RES_C_EST.w : ℚ)) (fun s t => t.pwr.cSeen = true ∧
    t.pwr.partDone = none ∧
    t.get RES_C_EST.w = min (roundNat ((s.get RES_C_EST.w : ℚ) + (q - s.get RES_C_EST.w) / 16)) 0xFFFF)) ∧
  -- LEAKAGE_PROBE_START (R55)
  (Completes (.leakageProbeStart) (fun s => s.mode.resting = true ∧ s.mode.waking = none ∧
    s.dormouse = true ∧ s.get PWR_STAT.CHG_STATE = 1 ∧ s.bit PWR_STAT.DEPASS_BUSY = false ∧ s.dueWithin (1000 * s.get LEAK_WIN.w) = false) (fun s t =>
    t.bit PWR_STAT.LEAK_PROBE = true ∧ t.get PWR_STAT.CHG_STATE = 0 ∧ t.bit PWR_STAT.CHG_ON = false ∧
    t.pwr.probeV = s.get VRES_MEAS.w ∧ t.pwr.probeAt = s.aon)) ∧
  -- LEAKAGE_PROBE_END (R55)
  (∀ (vres secs : Nat) (q : ℚ), Completes (.leakageProbeEnd vres secs) (fun s => s.bit PWR_STAT.LEAK_PROBE = true ∧
    s.get MODE.CUR ≠ 0 ∧ 600 ≤ secs ∧ q = s.cEst * (((s.pwr.probeV : ℚ) - vres) / 1000) / secs * 100000000 ∧
    0 ≤ q ∧ q ≤ 4 * (s.get RES_LEAK_EST.w : ℚ)) (fun s t => t.bit PWR_STAT.LEAK_PROBE = false ∧
    t.get PWR_STAT.CHG_STATE = 1 ∧ t.pwr.leakSeen = true ∧
    t.get RES_LEAK_EST.w = min (roundNat ((s.get RES_LEAK_EST.w : ℚ) + (q - s.get RES_LEAK_EST.w) / 8)) 0xFFFF)) ∧
  -- LEAKAGE_PROBE_END (R55)
  (∀ (vres secs : Nat), Completes (.leakageProbeEnd vres secs) (fun s => s.bit PWR_STAT.LEAK_PROBE = true ∧
    s.get MODE.CUR ≠ 0 ∧ secs < 600) (fun s t => t.bit PWR_STAT.LEAK_PROBE = false ∧
    t.get PWR_STAT.CHG_STATE = 1 ∧ t.get RES_LEAK_EST.w = s.get RES_LEAK_EST.w))

/-- What the oscillator and PLL events do. For each command named in a comment: from every canonical state that meets
the conditions, it goes on to a next state with the values listed. -/
def Obligations.ClockCommandsComplete : Prop :=
  -- X32_QUALIFIED (R68)
  (Completes (.x32Qualified) (fun s => s.x32Starting = true) (fun s t => t.bit CLK_STAT.X32_OK = true ∧
    t.bit CLK_STAT.AON_SRC = false ∧ t.time.rate = s.holdRate)) ∧
  -- X32_FAIL (R68)
  (Completes (.x32Fail) (fun s => s.x32Starting = true) (fun _ t => t.bit CLK_EVT.X32_FAIL = true ∧
    t.bit CLK_STAT.AON_SRC = true ∧ t.hfrcOn = true ∧ t.bit TIME_STAT.FALLBACK = true ∧
    t.fget .f0 INT_STAT0.HEALTH = 1)) ∧
  -- X32_MISSING_EDGE (R83)
  (Completes (.x32MissingEdge) (fun s => s.bit CLK_STAT.X32_OK = true ∧ s.get MODE.CUR ≠ 0) (fun _ t =>
    t.bit CLK_EVT.X32_FAIL = true ∧ t.bit CLK_STAT.X32_OK = false ∧ t.bit CLK_STAT.AON_SRC = true ∧
    t.bit TIME_STAT.FALLBACK = true)) ∧
  -- XO_QUALIFIED (R69)
  (∀ (us : Nat), Completes (.xoQualified us) (fun s => s.mode.xoTry = true ∧ s.coreRuns = true ∧
    us < 0x10000) (fun s t => t.bit CLK_STAT.XO_OK = true ∧ t.get XO_START.w = us ∧ t.mode.xoTry = false ∧
    OnlyRegs [CLK_STAT.w, XO_START.w] s t)) ∧
  -- XO_FAIL (R84)
  (Completes (.xoFail) (fun s => s.mode.xoTry = true ∧ s.coreRuns = true) (fun _ t => t.bit CLK_EVT.XO_FAIL = true ∧
    t.get XO_START.w = 0xFFFF ∧ t.time.xoBad = true)) ∧
  -- XO_RETRY (R84)
  (Completes (.xoRetry) (fun s => s.coreRuns = true ∧ s.bit CLK_STAT.XO_OK = false) (fun s t => t.mode.xoTry = true ∧
    OnlyRegs [] s t)) ∧
  -- PLL_LOCK (R69)
  (∀ (hfrcErr : Int), Completes (.pllLock hfrcErr) (fun s => s.bit CLK_STAT.XO_OK = true ∧
    s.coreRuns = true) (fun s t => t.bit CLK_STAT.PLL_LOCK = true ∧ t.bit CLK_STAT.CORE_SRC = true ∧
    t.get HFRC_ERR.w = code16 hfrcErr ∧ t.bit CLK_STAT.HFRC_TRIMMED = true ∧ OnlyRegs [CLK_STAT.w, HFRC_ERR.w] s t)) ∧
  -- PLL_FAIL (R85)
  (Completes (.pllFail) (fun s => s.bit CLK_STAT.XO_OK = true ∧ s.bit CLK_STAT.PLL_LOCK = false ∧
    s.coreRuns = true) (fun _ t => t.bit CLK_EVT.PLL_FAIL = true ∧ t.fget .f0 INT_STAT0.HEALTH = 1))

/-- What the events of a cold boot do. For each command named in a comment: from every canonical state that meets the
conditions, it goes on to a next state with the values listed. -/
def Obligations.BootCommandsComplete : Prop :=
  -- COLD_BOOT_START (R115)
  (∀ (burrowOk secretOk prefOk cfgOk calOk : Bool), Completes (.coldBootStart burrowOk secretOk prefOk cfgOk calOk) (fun
    s => s.boot.hedgehog = true ∧
    s.get MODE.CUR = 3 ∧ s.get BOOT_STAT.STAGE = 0 ∧ s.boot.startWait = false ∧ s.boot.attempt = none ∧
    2 < s.boot.cause ∧ s.boot.cause < 0x100) (fun s t =>
    t.get HLT_RCAUSE.w = s.get HLT_RCAUSE.w % 0x100 * 0x100 + s.boot.cause ∧ t.flint.secretOk = secretOk ∧
    t.boot.pref = (if prefOk then s.img.prefSlot else 0) ∧
    t.boot.cfgSaved = (if cfgOk then s.boot.cfgSaved else none))) ∧
  -- IMAGE_BLOCK_ARRIVES (R118)
  (∀ (idx slot : Nat), Completes (.imageBlockArrives idx) (fun s => s.streaming = true ∧
    idx = s.boot.blocks.length ∧ s.boot.attempt = some (slot, true) ∧ s.boot.sig = none) (fun s t =>
    t.boot.blocks = s.boot.blocks ++ [(idx, s.blockGood (s.streamBase slot) idx)] ∧ OnlyRegs [] s t)) ∧
  -- SIGNATURE_CHECK_DONE (R117)
  (∀ (slot : Nat), Completes (.signatureCheckDone) (fun s => s.boot.attempt = some (slot, true) ∧ s.boot.loaded = false ∧ s.boot.sig = none ∧ s.boot.blocks = [] ∧
    s.manBlocks (slotBase slot) ≠ 0 ∧ s.signFault (slotBase slot) = 0) (fun s t =>
    t.boot.sig = some true ∧ OnlyRegs [] s t)) ∧
  -- SIGNATURE_CHECK_DONE (R117)
  (∀ (slot : Nat), Completes (.signatureCheckDone) (fun s => s.boot.attempt = some (slot, true) ∧ slot < 2 ∧
    s.boot.loaded = false ∧ s.boot.sig = none ∧ s.boot.order = [] ∧ s.signFault (slotBase slot) ≠ 0) (fun s t =>
    t.boot.attempt = none ∧ t.boot.marten = false ∧ t.slotFault slot = s.signFault (slotBase slot))) ∧
  -- QSPI_TIMEOUT (R140)
  (∀ (slot : Nat) (tr : Bool), Completes (.qspiTimeout) (fun s => s.boot.attempt = some (slot, tr) ∧
    s.boot.loaded = true ∧ s.streaming = true) (fun s t => t.get BOOT_STAT.PIKA = 3 ∧ t.boot.pikaVerified = false ∧
    OnlyRegs [BOOT_STAT.w] s t)) ∧
  -- MARTEN_RELEASE (R119)
  (∀ (slot : Nat) (tr : Bool), Completes (.martenRelease) (fun s => s.boot.attempt = some (slot, tr) ∧ slot < 3 ∧
    s.boot.marten = false ∧ s.mayRelease slot tr = true) (fun _ t => t.boot.marten = true ∧
    t.get BOOT_STAT.STAGE = 2 ∧ t.get BOOT_STAT.SRC = slot ∧ t.hlt.hbArmed = true ∧ t.mode.ready = false)) ∧
  -- HEDGEHOG_FAULT (R139)
  (∀ (slot : Nat), Completes (.hedgehogFault) (fun s => s.boot.attempt = some (slot, true) ∧ s.boot.marten = true ∧
    s.boot.loaded = false) (fun _ t => t.boot.marten = false ∧ t.boot.earlyOff = true ∧ t.get BOOT_STAT.STAGE = 1 ∧
    t.bit BOOT_STAT.EARLY_REDO = true ∧ t.hlt.hbArmed = false)) ∧
  -- IDENTITY_KEY_GENERATE (R134)
  (∀ (pub : List Word) (slot : Nat), Completes (.identityKeyGenerate true pub) (fun s => pub.length = 32 ∧
    s.boot.attempt = some (slot, true) ∧ s.boot.marten = true ∧ s.boot.loaded = true ∧ s.get BOOT_STAT.STAGE = 2 ∧
    s.flint.identBlank = true ∧ s.flint.secretOk = true ∧ s.boot.identDone = false) (fun _ t =>
    t.flint.identPub = pub ∧ t.flint.identBlank = false ∧ t.bit FLINT_STAT.IDENT_OK = true)) ∧
  -- BUNDLE_APPLY (R148)
  (∀ (slot v : Nat), Completes (.bundleApply true) (fun s => s.boot.attempt = some (slot, true) ∧
    s.boot.marten = true ∧ s.boot.loaded = true ∧ s.get BOOT_STAT.STAGE = 2 ∧ s.boot.bundleDone = false ∧
    s.boot.reload = false ∧ s.boot.deep = false ∧ s.mode.resting = false ∧ s.hasBundle (slotBase slot) = true ∧
    s.imageFault (s.bundleBase (slotBase slot)) 4 = 1 ∧
    s.bytes (s.bundleBase (slotBase slot) + 0x1000) 3 = [0x00, 0x03, 0x84] ∧
    s.le (s.bundleBase (slotBase slot) + 0x1004) 2 = v ∧ v ≤ 160 ∧
    s.byte (s.bundleBase (slotBase slot) + 0x1008) = 0xFF) (fun s t => t.boot.bundleDone = true ∧
    t.boot.eventDue = s.boot.eventDue ∧ t.get VRES_IDLE.IDLE = v ∧ OnlyRegs [VRES_IDLE.w] s t)) ∧
  -- BUNDLE_APPLY (R148)
  (∀ (slot : Nat) (readOk : Bool), Completes (.bundleApply readOk) (fun s => s.boot.attempt = some (slot, true) ∧
    s.boot.marten = true ∧ s.boot.loaded = true ∧ s.get BOOT_STAT.STAGE = 2 ∧ s.boot.bundleDone = false ∧
    s.boot.reload = false ∧ s.boot.deep = false ∧ s.mode.resting = false ∧ s.hasBundle (slotBase slot) = true ∧
    (readOk = false ∨ s.imageFault (s.bundleBase (slotBase slot)) 4 ≠ 1)) (fun s t =>
    t.boot.bundleDone = true ∧ t.boot.eventDue = true ∧ OnlyRegs [] s t))

/-- What Pika, the end of a boot, HOST-LOAD wait and the watchdogs do. For each command named in a comment: from every
canonical state that meets the conditions, it goes on to a next state with the values listed. -/
def Obligations.BootEndsComplete : Prop :=
  -- PIKA_GO (R161)
  (Completes (.pikaGo) (fun s => s.boot.marten = true ∧ s.get BOOT_STAT.PIKA = 1 ∧ s.boot.pikaGo = false ∧
    s.get IMG_EPOCH.MARTEN = s.get IMG_EPOCH.PIKA ∧ s.get IMG_EPOCH.MARTEN ≠ 0) (fun _ t => t.boot.pikaGo = true ∧
    (∀ f, t.fget f FN_STATE.COMPAT = 0))) ∧
  -- PIKA_GO (R161)
  (Completes (.pikaGo) (fun s => s.boot.marten = true ∧ s.get BOOT_STAT.PIKA = 1 ∧ s.boot.pikaGo = false ∧
    s.get IMG_EPOCH.MARTEN ≠ s.get IMG_EPOCH.PIKA) (fun _ t => t.boot.pikaGo = false ∧
    (∀ f, t.fget f FN_STATE.COMPAT = 1) ∧ (∀ f, t.fget f INT_STAT0.SECURITY = 1))) ∧
  -- PIKA_RELEASE (R120)
  (Completes (.pikaRelease) (fun s => s.boot.pikaVerified = true ∧ s.boot.pikaGo = true ∧
    s.get BOOT_STAT.PIKA = 1 ∧ s.bit CLK_STAT.PLL_LOCK = true ∧ s.pikaAllowed = true) (fun s t =>
    t.get BOOT_STAT.PIKA = 2 ∧ OnlyRegs [BOOT_STAT.w] s t)) ∧
  -- PIKA_DEFERRED_LOAD (R122)
  (Completes (.pikaDeferredLoad true) (fun s => s.awake = true ∧ s.get BOOT_STAT.PIKA = 0 ∧ s.sourceStands = true ∧
    s.pikaAllowed = true ∧ s.bit BOOT_STAT.TRUSTED = true) (fun s t =>
    t.boot.pikaVerified = decide (s.imageFault (s.pikaBase s.runBase) 2 = 1) ∧
    (t.get BOOT_STAT.PIKA = if s.imageFault (s.pikaBase s.runBase) 2 = 1 then 1 else 3))) ∧
  -- BOOT_READY (R115)
  (Completes (.bootReady) (fun s => s.get MODE.CUR = 3 ∧
    s.get BOOT_STAT.STAGE = 2 ∧ s.mode.resting = false ∧ s.boot.reload = true) (fun _ t => t.mode.ready = true ∧
    t.get BOOT_STAT.STAGE = 3 ∧ t.boot.reload = false)) ∧
  -- BOOT_READY (R115)
  (∀ (slot : Nat) (tr : Bool), Completes (.bootReady) (fun s => s.get MODE.CUR = 3 ∧
    s.get BOOT_STAT.STAGE = 2 ∧ s.mode.resting = false ∧ s.boot.reload = false ∧ s.boot.attempt = some (slot, tr) ∧
    s.bootDone = true) (fun _ t => t.mode.ready = true ∧ t.get BOOT_STAT.STAGE = 3 ∧ t.bit BOOT_STAT.TRUSTED = tr)) ∧
  -- HOST_LOAD_WAIT (R127)
  (Completes (.hostLoadWait) (fun s => s.boot.hedgehog = true ∧ s.get MODE.CUR = 3 ∧ s.get BOOT_STAT.STAGE = 1 ∧
    s.boot.attempt = none) (fun _ t => t.get BOOT_STAT.STAGE = 4 ∧ t.get BOOT_STAT.SRC = 3 ∧ t.mode.ready = true)) ∧
  -- HOST_LOAD_RETRY (R128)
  (Completes (.hostLoadRetry) (fun s => s.get BOOT_STAT.STAGE = 4 ∧ s.boot.attempt = none) (fun s t =>
    t.get BOOT_FBLK.w = 0xFFFF ∧ t.boot.pref = s.img.prefSlot ∧
    (s.headFault (slotBase s.img.prefSlot) 1 = 0 → t.boot.attempt = some (s.img.prefSlot, true) ∧
    t.get BOOT_FAULT.w = 0))) ∧
  -- MARTEN_HEARTBEAT_TIMEOUT (R466)
  (Completes (.martenHeartbeatTimeout true) (fun s => s.hlt.hbArmed = true ∧ s.boot.marten = true ∧
    s.mode.resting = false ∧ s.hlt.storms = [] ∧ s.get MODE.CUR ≠ 3) (fun _ t => t.get MODE.CUR = 3 ∧
    t.boot.reload = true ∧ t.mode.ready = false)) ∧
  -- MARTEN_HEARTBEAT_TIMEOUT (R483)
  (Completes (.martenHeartbeatTimeout true) (fun s => s.hlt.hbArmed = true ∧ s.boot.marten = true ∧
    s.mode.resting = false ∧ s.hlt.storms = [] ∧ s.get MODE.CUR = 3) (fun _ t => t.get MODE.CUR = 3 ∧
    t.get BOOT_STAT.STAGE = 1 ∧ t.boot.marten = false ∧ t.hlt.hbArmed = false ∧ t.fe.cal = none))

/-- What revocation, staging and the image window do. For each command named in a comment: from every canonical state
that meets the conditions, it goes on to a next state with the values listed. -/
def Obligations.ImageCommandsComplete : Prop :=
  -- IMG_REVOKE (R149)
  (∀ (v : Word), Completes (.imgRevoke .f0 v) (fun s => Serves s .f0 0x6 ∧ legalWord .f0 IMG_REVOKE.w.key v = true ∧
    s.bit BOOT_STAT.TRUSTED = true ∧ s.bitOf FLINT_OTP.HASH_SET (v.toNat % 4) = true ∧
    s.bitOf FLINT_OTP.REVOKED (v.toNat % 4) = false ∧ s.runSigner ≠ v.toNat % 4 ∧
    (((List.range 4).any (fun j =>
    j != v.toNat % 4 && (s.bitOf FLINT_OTP.HASH_SET j && !s.bitOf FLINT_OTP.REVOKED j))) = true) ∧
    s.imgBusy = false) (fun _ t => t.img.fuse = some (v.toNat % 4) ∧ t.bit IMG_STAT.REV_BUSY = true)) ∧
  -- FUSE_PROGRAM_DONE (R149)
  (∀ (i : Nat), Completes (.fuseProgramDone true) (fun s => s.img.fuse = some i ∧ i < 4) (fun s t =>
    t.img.fuse = none ∧ t.bit IMG_STAT.REV_BUSY = false ∧ t.get IMG_STAT.REV_RES = 0 ∧
    t.get FLINT_OTP.REVOKED = s.get FLINT_OTP.REVOKED ||| 2 ^ i)) ∧
  -- IMG_PREF_WRITE (R151)
  (∀ (v : Word), Completes (.imgPrefWrite .f0 v) (fun s => Serves s .f0 0x6 ∧
    legalWord .f0 IMG_PREF.w.key v = true) (fun _ t => t.img.prefSlot = v.toNat % 2 ∧ t.img.prefOnce = v.getLsbD 8 ∧
    t.get IMG_PREF.SLOT = v.toNat % 2)) ∧
  -- IMG_STAGE_COMMIT (R153)
  (∀ (f : Fn) (args : List Word) (start base code target : Nat), Completes (.imgStageCommit f) (fun s =>
    (s.eng f).op = some ⟨7, args, start, none⟩ ∧ arg args 0 % 4 = 1 ∧ arg args 0 / 16 % 4 ≠ 3 ∧ s.imgBusy = false ∧
    target = s.targetOf (arg args 0 / 16 % 4) ∧ target ≠ s.get BOOT_STAT.SRC ∧
    s.imageAt (arg args 1 % 0x1000) (arg args 2) = some base ∧
    code = (s.stageCheck base (arg args 3) (arg args 0 / 0x100 % 2 == 1)).1) (fun _ t =>
    t.img.staging = decide (code = 0) ∧ t.get IMG_STAGE.STATE = (if code = 0 then 2 else 5) ∧
    Ended t f 0 [BitVec.ofNat 16 code, BitVec.ofNat 16 target] ∧
    (code = 0 → t.img.target = target ∧ t.img.journal = true))) ∧
  -- AUTO_STAGE (R157)
  (∀ (stream obj base code : Nat), Completes (.autoStage stream obj) (fun s =>
    s.bit IMG_CFG.AUTO_STAGE = true ∧ s.imageAt stream obj = some base ∧ s.imgBusy = false ∧
    s.autoTarget ≠ s.get BOOT_STAT.SRC ∧ code = (s.stageCheck base (s.get IMG_BCAST.w) false).1) (fun s t =>
    t.img.staging = decide (code = 0) ∧ t.get IMG_STAGE.STATE = (if code = 0 then 2 else 5) ∧
    (code = 0 → t.img.target = s.autoTarget ∧ t.img.auto = true))) ∧
  -- STAGING_SECTOR_WRITTEN (R154)
  (∀ (src : Nat), Completes (.stagingSectorWritten true) (fun s => s.img.staging = true ∧ s.get IMG_STAGE.STATE = 2 ∧
    s.img.next < s.img.total ∧ s.stageSrc = some src) (fun s t => t.img.next = s.img.next + 1 ∧ t.bytes (slotBase
    s.img.target + 0x1000 * s.img.next) 0x1000 = s.bytes (src + 0x1000 * s.img.next) 0x1000)) ∧
  -- STAGING_READBACK_DONE (R154)
  (∀ (src code : Nat), Completes (.stagingReadbackDone true) (fun s => s.img.staging = true ∧
    s.get IMG_STAGE.STATE = 2 ∧ s.img.next = s.img.total ∧ s.stageSrc = some src ∧ s.img.held = [] ∧
    code = (s.programAt (slotBase s.img.target) src).slotVerify (slotBase s.img.target)) (fun _ t =>
    t.img.staging = false ∧ t.img.journal = false ∧ t.get IMG_STAGE.STATE = (if code = 1 then 4 else 5) ∧
    t.get IMG_STAGE.RESULT = (if code = 1 then 0 else gFLASH) ∧ t.fget .f0 INT_STAT1.BOOT_EVENT = 1)) ∧
  -- STAGING_PAUSE (R155)
  (Completes (.stagingPause) (fun s => s.img.staging = true ∧ s.get IMG_STAGE.STATE = 2 ∧
    s.slotRuns = true) (fun s t => t.get IMG_STAGE.STATE = 3 ∧ OnlyRegs [IMG_STAGE.w] s t)) ∧
  -- STAGING_RESUME (R155)
  (Completes (.stagingResume) (fun s => s.img.staging = true ∧ s.get IMG_STAGE.STATE = 3 ∧ s.slotRuns = false ∧
    s.tgtMv ≤ s.get VRES_MEAS.w) (fun s t => t.get IMG_STAGE.STATE = 2 ∧ OnlyRegs [IMG_STAGE.w] s t)) ∧
  -- STAGING_JOURNAL_RESUME (R156)
  (Completes (.stagingJournalResume) (fun s => s.img.journal = true ∧ s.img.staging = false ∧
    s.mode.ready = true ∧ s.boot.marten = true ∧ s.img.srcWin = false ∧ s.stageSrc.isSome = true) (fun s t =>
    t.img.staging = true ∧ t.get IMG_STAGE.STATE = 2 ∧ t.get IMG_STAGE.TARGET = s.img.target % 4)) ∧
  -- HOST_LOAD_BEGIN (R158)
  (∀ (f : Fn) (args : List Word) (start len : Nat), Completes (.hostLoadBegin f) (fun s =>
    (s.eng f).op = some ⟨0xD, args, start, none⟩ ∧ s.hostLoading = true ∧ s.imgBusy = false ∧
    len = arg args 0 + 0x10000 * arg args 1 ∧ len ≠ 0 ∧ len % 4096 = 0 ∧ len ≤ 0x100000) (fun _ t =>
    t.img.winLen = len ∧ t.img.winTarget = 2 ∧ t.img.winPos = 0 ∧ t.bit IMG_HL_STAT.ACCEPT = true ∧
    t.bit IMG_HL_STAT.FORM = false ∧ Ended t f 0 [0])) ∧
  -- IMAGE_WINDOW_WRITE (R158)
  (∀ (w : Word), Completes (.imageWindowWrite .f0 w) (fun s => Serves s .f0 0x0 ∧ 0x400000 ≤ (s.eng .f0).memAddr ∧
    (s.eng .f0).memAddr < 0x500000 ∧ s.fget .f0 MEM_CTRL.WR = 1 ∧ s.img.winLen ≠ 0 ∧ s.get IMG_HL_STAT.STATE = 1 ∧
    s.bit IMG_HL_STAT.ACCEPT = true ∧ (s.eng .f0).memAddr = 0x400000 + s.img.winPos ∧
    (s.img.winPos + 2) % 0x1000 ≠ 0) (fun s t => t.byte (0x400000 + s.img.winPos) = w.extractLsb' 8 8 ∧
    t.byte (0x400000 + s.img.winPos + 1) = w.extractLsb' 0 8 ∧ t.img.winPos = s.img.winPos + 2)) ∧
  -- IMAGE_WINDOW_VERIFY_DONE (R129)
  (∀ (code : Nat), Completes (.imageWindowVerifyDone) (fun s => s.img.winLen ≠ 0 ∧ s.get IMG_HL_STAT.STATE = 2 ∧
    s.bit IMG_HL_STAT.FORM = true ∧ s.img.held = [] ∧ code = s.slotVerify 0x400000) (fun s t =>
    t.get IMG_HL_STAT.STATE = (if code = 1 then 3 else 4) ∧
    t.get IMG_HL_STAT.RESULT = (if code = 1 then 0 else if code = 0x14 then gHW else gFAULT) ∧
    (code = 1 → OnlyRegs [IMG_HL_STAT.w] s t) ∧ (code ≠ 1 → t.img.winLen = 0 ∧
    MemFresh (fun a => decide (0x400000 ≤ a ∧ a < 0x500000)) t))) ∧
  -- IMAGE_WINDOW_VERIFY_DONE (R129)
  (∀ (code : Nat), Completes (.imageWindowVerifyDone) (fun s => s.img.winLen ≠ 0 ∧ s.get IMG_HL_STAT.STATE = 2 ∧
    s.bit IMG_HL_STAT.FORM = false ∧ s.img.held = [] ∧ code = s.slotVerify 0x400000) (fun s t => t.img.winLen = 0 ∧
    (code = 1 → t.boot.attempt = some (2, true) ∧ t.boot.loaded = true) ∧
    (code ≠ 1 → t.boot = s.boot ∧ t.get IMG_HL_STAT.STATE = 4))) ∧
  -- IMAGE_WINDOW_IDLE (R158)
  (Completes (.imageWindowIdle) (fun s => s.img.winLen ≠ 0 ∧ s.bit IMG_HL_STAT.FORM = true ∧
    s.winWriting = false ∧ s.img.held = []) (fun _ t => t.img.winLen = 0 ∧ t.get IMG_HL_STAT.STATE = 4 ∧
    t.get IMG_HL_STAT.RESULT = gGONE ∧ MemFresh (fun a => decide (0x400000 ≤ a ∧ a < 0x500000)) t))

/-- What rests, wakes and the mode commands do. For each command named in a comment: from every canonical state that
meets the conditions, it goes on to a next state with the values listed. -/
def Obligations.RestAndWakeCommandsComplete : Prop :=
  -- MODE_CMD_SHUTDOWN (R106)
  (Completes (.modeCmdShutdown .f0) (fun s => Serves s .f0 0x2 ∧ s.bit MODE.MAINTAIN_ACT = false ∧
    s.bit WAKE_MON.LEVEL = true ∧ s.pins.wakeDrive = false) (fun _ t => t.get MODE.CUR = 0 ∧ t.get PWR_STAT.CHG_STATE = 0 ∧
    t.pins.porAsserted = false ∧ t.hlt.shutMark = true ∧ t.pinState .sda = .highZ ∧ t.pinState .gpio0 = .highZDown ∧
    t.pinState .x32P = .off ∧ t.pinState .fCsN = .unpowered ∧ t.pinState .vres = .chargeOpen)) ∧
  -- MODE_CMD_REST_NOW (R91)
  (Completes (.modeCmdRestNow .f0) (fun s => Serves s .f0 0x2) (fun _ t => t.mode.restNow = true)) ∧
  -- REST_ENTRY (R91)
  (Completes (.restEntry) (fun s => s.restReady = true) (fun s t => t.mode.resting = true ∧ t.mode.ready = false ∧
    t.bit MODE.AWAKE = false ∧ t.get MODE.RET = s.restLevel ∧ t.bit CLK_STAT.XO_OK = false ∧
    t.pinState .fCsN = .unpowered)) ∧
  -- REST_ENTRY_REVERSED (R107)
  (∀ (cause : Nat), Completes (.restEntryReversed cause) (fun s => s.mode.resting = true ∧ s.mode.entering = true ∧
    s.mode.waking = none ∧ s.wakesFrom cause = true) (fun s t => t.mode.waking = some cause ∧
    t.get WAKE_CAUSE.CAUSE = cause ∧ t.get WAKE_CAUSE.PREV = s.get WAKE_CAUSE.CAUSE ∧
    OnlyRegs [WAKE_CAUSE.w] s t)) ∧
  -- SLOT_WAKE (R96)
  (∀ (start : Nat), Completes (.slotWake) (fun s => s.mode.resting = true ∧ s.mode.waking = none ∧
    s.mode.delayed = none ∧ s.wakeMv ≤ s.get VRES_MEAS.w ∧ s.get MODE.CUR = 4 ∧ s.dormouse = true ∧
    s.nextActivity = some start ∧ start ≤ s.ktime + s.slotLead) (fun _ t => t.mode.waking = some 1 ∧ t.get WAKE_CAUSE.CAUSE = 1)) ∧
  -- SPI_WAKE (R181)
  (Completes (.spiWake) (fun s => s.mode.resting = true ∧ s.get MODE.CUR ≠ 0 ∧ s.mode.waking = none ∧
    s.mode.delayed = none ∧ s.wakeMv ≤ s.get VRES_MEAS.w ∧ s.pins.vddio = true) (fun _ t =>
    t.mode.waking = some 2 ∧ t.get WAKE_CAUSE.CAUSE = 2)) ∧
  -- HOST_RESUME (R97)
  (∀ (lowUs : Nat), Completes (.hostResume lowUs) (fun s => s.mode.resting = true ∧ s.get MODE.CUR ≠ 0 ∧
    s.mode.waking = none ∧ s.mode.delayed = none ∧ s.wakeMv ≤ s.get VRES_MEAS.w ∧ 50 ≤ lowUs ∧
    s.pins.porAsserted = false ∧ s.pins.test = false ∧ s.mode.lowTaken = false ∧ s.mode.driving = none) (fun _ t =>
    t.mode.waking = some 4 ∧ t.get WAKE_CAUSE.CAUSE = 4 ∧ t.bit WAKE_MON.LEVEL = false ∧ t.mode.lowTaken = true)) ∧
  -- HOUSEKEEP_WAKE (R96)
  (Completes (.housekeepWake) (fun s => s.mode.resting = true ∧ s.get MODE.CUR ≠ 0 ∧ s.mode.waking = none ∧
    s.mode.delayed = none ∧ s.wakeMv ≤ s.get VRES_MEAS.w) (fun _ t => t.mode.waking = some 6 ∧
    t.get WAKE_CAUSE.CAUSE = 6)) ∧
  -- WAKE_READY (R95)
  (∀ (readOk : Bool), Completes (.wakeReady true readOk) (fun s => s.mode.resting = true ∧
    s.mode.waking.isSome = true ∧ s.mode.entering = false ∧ s.get MODE.RET ≠ 2 ∧
    s.flint.tag = some s.tagNow) (fun _ t => t.mode.ready = true ∧
    t.mode.resting = false ∧ t.bit MODE.AWAKE = true ∧ t.bit BOOT_STAT.WARM_RESUME = true)) ∧
  -- WAKE_READY (R131)
  (∀ (supplyOk : Bool), Completes (.wakeReady supplyOk false) (fun s => s.mode.resting = true ∧
    s.mode.waking.isSome = true ∧ s.mode.entering = false ∧ s.get MODE.RET = 2) (fun _ t => t.get MODE.CUR = 3 ∧
    t.mode.resting = false ∧ t.boot.marten = false ∧ t.boot.deep = true ∧ t.get BOOT_STAT.STAGE = 1 ∧
    t.get BOOT_STAT.SRC = 3 ∧ t.bit BOOT_STAT.WARM_RESUME = false)) ∧
  -- DELAYED_WAKE_START (R109)
  (∀ (c : Nat), Completes (.delayedWakeStart) (fun s => s.mode.resting = true ∧ s.mode.delayed = some c ∧
    s.mode.delayedAt ≤ s.get VRES_MEAS.w ∧ c < 0x10) (fun _ t => t.mode.waking = some c ∧ t.mode.delayed = none ∧
    t.get WAKE_CAUSE.CAUSE = c)) ∧
  -- RESERVOIR_BROWNOUT (R62)
  (Completes (.reservoirBrownout) (fun s => s.get VRES_MEAS.w < s.vStopMv ∧ s.coreRuns = true ∧
    s.boot.startWait = false ∧ s.mode.resting = true ∧ s.get MODE.CUR ≠ 3) (fun s t => t.mode.waking = none ∧
    t.mode.delayed = s.mode.waking ∧ t.mode.delayedAt = s.vStopMv + 100 ∧ t.get PWR_STAT.CHG_STATE = 1 ∧
    t.fget .f0 INT_STAT1.RESERVOIR_LOW = 1)) ∧
  -- RESERVOIR_BROWNOUT (R62)
  (Completes (.reservoirBrownout) (fun s => s.get VRES_MEAS.w < s.vStopMv ∧ s.coreRuns = true ∧
    s.boot.startWait = false ∧ s.get MODE.CUR = 3) (fun _ t => t.get MODE.CUR = 3 ∧ t.boot.cause = 5 ∧
    t.boot.startWait = true ∧ t.boot.marten = false ∧ t.mode.ready = false ∧ t.get PWR_STAT.CHG_STATE = 3))

/-- What the WAKE_N protocol does. For each command named in a comment: from every canonical state that meets the
conditions, it goes on to a next state with the values listed. -/
def Obligations.WakeLineCommandsComplete : Prop :=
  -- REMOTE_WAKE_ATTEMPT (R98)
  (∀ (reason : Nat), Completes (.remoteWakeAttempt reason true) (fun s => s.mode.heldReason = some reason ∧
    s.mayAttempt = true) (fun s t => t.mode.driving = some reason ∧ t.pins.wakeDrive = true ∧
    t.mode.heldReason = none ∧ t.mode.retries = s.get WAKE_CFG.RETRIES ∧
    t.bit WAKE_MON.LEVEL = false ∧ OnlyRegs [WAKE_MON.w] s t)) ∧
  -- REMOTE_WAKE_ATTEMPT (R98)
  (∀ (reason : Nat), Completes (.remoteWakeAttempt reason false) (fun s => s.mode.heldReason = some reason ∧
    reason < 8 ∧ s.mayAttempt = true) (fun _ t => t.bit WAKE_HREASON.PEND = true ∧
    t.bit WAKE_HREASON.COLLIDED = true ∧ t.get WAKE_HREASON.REASON = reason ∧ t.mode.collidedWait = true ∧
    t.mode.driving = none)) ∧
  -- REMOTE_WAKE_SAMPLE (R98)
  (∀ (r : Nat), Completes (.remoteWakeSample true) (fun s => s.mode.driving = some r ∧ r < 8) (fun s t =>
    t.mode.driving = none ∧ t.pins.wakeDrive = false ∧ t.bit WAKE_HREASON.PEND = true ∧
    t.get WAKE_HREASON.REASON = r ∧ t.bit WAKE_MON.LEVEL = true ∧
    OnlyRegs [WAKE_HREASON.w, WAKE_MON.w] s t)) ∧
  -- REMOTE_WAKE_RETRY (R101)
  (Completes (.remoteWakeRetry true) (fun s => s.bit WAKE_HREASON.PEND = true ∧ 0 < s.mode.retries ∧
    s.mode.hostAccess = false ∧ s.mayDrive = true) (fun s t => t.mode.driving = some (s.get WAKE_HREASON.REASON) ∧
    t.mode.retries = s.mode.retries - 1 ∧ t.pins.wakeDrive = true ∧ OnlyRegs [WAKE_MON.w] s t)) ∧
  -- WAKE_N_STUCK (R110)
  (Completes (.wakeNStuck) (fun s => s.mode.lowTaken = true ∧ s.bit WAKE_MON.STUCK = false) (fun _ t =>
    t.bit WAKE_MON.STUCK = true ∧ t.fget .f0 INT_STAT1.HOSTPORT_ERROR = 1)) ∧
  -- WAKE_N_RELEASED (R110)
  (Completes (.wakeNReleased) (fun s => s.mode.heldReason = none) (fun s t => t.bit WAKE_MON.STUCK = false ∧
    t.bit WAKE_MON.LEVEL = true ∧ t.mode.lowTaken = false ∧ OnlyRegs [WAKE_MON.w] s t))

/-- What function reset, the lock, the mailbox, the queue and the memory port do. For each command named in a comment:
from every canonical state that meets the conditions, it goes on to a next state with the values listed. -/
def Obligations.FunctionCommandsComplete : Prop :=
  -- REGISTER_WRITE (R515)
  (∀ (f : Fn) (v : Word), Completes (.registerWrite f INT_EN0.w.key v) (fun s => Serves s f 0) (fun _ t =>
    t.fget f INT_EN0.w = v.toNat)) ∧
  -- FN_ERR_WRITE (R229)
  (∀ (f : Fn), Completes (.fnErrWrite f 0) (fun s => Serves s f 0) (fun _ t => t.fget f FN_ERR.CODE = 0)) ∧
  -- FN_RESET (R230)
  (∀ (f : Fn) (v : Word), Completes (.fnReset f v) (fun s => Serves s f 0 ∧ legalWord f FN_RESET.w.key v = true ∧
    v.getLsbD 0 = true) (fun _ t => t.fget f FN_STATE.RESET_BUSY = 1)) ∧
  -- FRESET (R230)
  (∀ (v : Word), Completes (.freset .f0 v) (fun s => Serves s .f0 0x9 ∧ legalWord .f0 PART_CMD.w.key v = true ∧
    v.getLsbD 1 = true ∧ s.fget .f1 FN_STATE.RESET_BUSY = 0) (fun _ t => t.fget .f1 FN_STATE.RESET_BUSY = 1)) ∧
  -- PART_LOCK (R245)
  (∀ (v : Word), Completes (.partLock .f0 v) (fun s => Serves s .f0 0x9 ∧ legalWord .f0 PART_CMD.w.key v = true ∧
    v.getLsbD 0 = true) (fun _ t => t.bit PART_STAT.LOCKED = true ∧ (∀ f, t.fget f FN_STATE.PLOCK = 1))) ∧
  -- PART_DQ_WRITE (R244)
  (∀ (v : Word), Completes (.partDqWrite .f0 v) (fun s => Serves s .f0 0x9 ∧ s.bit PART_STAT.LOCKED = false ∧
    legalWord .f0 PART_DQ.w.key v = true ∧
    v.toNat % 16 + v.toNat / 16 % 16 + v.toNat / 256 % 16 + v.toNat / 4096 ≤ 16) (fun _ t =>
    t.get PART_DQ.w = v.toNat)) ∧
  -- FN_RESET_DONE (R231)
  (∀ (f : Fn), Completes (.fnResetDone f) (fun s => s.fget f FN_STATE.RESET_BUSY = 1 ∧ s.longOp f = false) (fun _ t =>
    t.fget f FN_STATE.RESET_BUSY = 0 ∧ t.fget f INT_STAT0.FN_RESET_DONE = 1 ∧ t.fget f FN_ERR.CODE = 0 ∧
    (t.eng f).op = none)) ∧
  -- CMD_GO (R232)
  (∀ (f : Fn) (v : Word), Completes (.cmdGo f v) (fun s => Serves s f 0 ∧ legalWord f CMD_GO.w.key v = true ∧
    v.getLsbD 0 = true ∧ s.fget f CMD_STAT.BUSY = 0 ∧ 1 ≤ s.fget f CMD_OP.w % 0x100 ∧
    s.fget f CMD_OP.w % 0x100 ≤ 0xE ∧ s.opAllowed f (s.fget f CMD_OP.w % 0x100) = true) (fun s t =>
    t.fget f CMD_STAT.BUSY = 1 ∧ t.fget f CMD_STAT.DONE = 0 ∧
    ((t.eng f).op = some ⟨s.fget f CMD_OP.w % 0x100, (List.range 6).map (fun i =>
    s.reg ((CMD_ARG.w i).on f.toNat).key), s.ktime, none⟩))) ∧
  -- CMD_DONE (R232)
  (∀ (f : Fn) (code start err : Nat) (args res : List Word), Completes (.cmdDone f) (fun s =>
    (s.eng f).op = some ⟨code, args, start, some (err, res)⟩ ∧ s.fget f FN_STATE.RESET_BUSY = 0 ∧
    err < 0x10) (fun _ t => (t.eng f).op = none ∧ t.fget f CMD_STAT.ERR = err ∧ t.fget f CMD_STAT.BUSY = 0 ∧
    t.fget f CMD_STAT.DONE = 1 ∧ t.fget f (CMD_RES.w 0) = (res.getD 0 0).toNat ∧ t.fget f INT_STAT0.CMD_DONE = 1)) ∧
  -- OP_TIMEOUT (R233)
  (∀ (f : Fn) (code start : Nat) (args : List Word), Completes (.opTimeout f) (fun s =>
    (s.eng f).op = some ⟨code, args, start, none⟩ ∧ s.fget f FN_STATE.RESET_BUSY = 0) (fun _ t =>
    (t.eng f).op = none ∧ t.fget f CMD_STAT.ERR = eTIMEOUT ∧ t.fget f FN_ERR.CODE = eTIMEOUT ∧
    t.fget f CMD_STAT.BUSY = 0 ∧ t.fget f CMD_STAT.DONE = 1)) ∧
  -- OP_TIMEOUT (R230)
  (∀ (f : Fn) (code start : Nat) (args : List Word), Completes (.opTimeout f) (fun s =>
    (s.eng f).op = some ⟨code, args, start, none⟩ ∧ s.fget f FN_STATE.RESET_BUSY = 1) (fun _ t =>
    Ended t f eTIMEOUT [])) ∧
  -- NOP (R233)
  (∀ (f : Fn) (start : Nat) (args : List Word), Completes (.nop f) (fun s =>
    (s.eng f).op = some ⟨1, args, start, none⟩) (fun s t => Ended t f 0 [] ∧ OnlyRegs [] s t)) ∧
  -- DQ_DATA_READ (R236)
  (∀ (f : Fn) (w : Word) (l : List Word), Completes (.dqDataRead f) (fun s => Serves s f 0 ∧
    (s.eng f).queue = w :: l) (fun _ t => t.hostOut = [w] ∧ (t.eng f).queue = l)) ∧
  -- DQ_FLUSH (R237)
  (∀ (f : Fn), Completes (.dqFlush f) (fun s => Serves s f 0) (fun _ t => (t.eng f).queue = [] ∧ (t.eng f).left = 0)) ∧
  -- MEM_ADDR_WRITE (R238)
  (∀ (f : Fn) (v : Word), Completes (.memAddrWrite f v) (fun s => Serves s f 0 ∧
    legalWord f MEM_ADDR_L.w.key v = true) (fun s t =>
    (t.eng f).memAddr = s.fget f MEM_ADDR_H.w % 0x200 * 0x10000 + (v.toNat - v.toNat % 2))) ∧
  -- MEM_DATA_ACCESS (R239)
  (∀ (f : Fn) (v : Word) (qspiTo : Bool), Completes (.memDataAccess f (some v) qspiTo) (fun s => Serves s f 0 ∧
    s.fget f MEM_CTRL.WR = 1 ∧ 0x300000 + 0x1000 * f.toNat ≤ (s.eng f).memAddr ∧
    (s.eng f).memAddr < 0x301000 + 0x1000 * f.toNat) (fun s t => t.byte (s.eng f).memAddr = v.extractLsb' 8 8 ∧
    t.byte ((s.eng f).memAddr + 1) = v.extractLsb' 0 8 ∧ MemKept (fun a =>
    a != (s.eng f).memAddr && a != (s.eng f).memAddr + 1) s t)) ∧
  -- MEM_DATA_ACCESS (R239)
  (∀ (f : Fn) (qspiTo : Bool), Completes (.memDataAccess f none qspiTo) (fun s => Serves s f 0 ∧
    s.fget f MEM_CTRL.WR = 0 ∧ 0x300000 + 0x1000 * f.toNat ≤ (s.eng f).memAddr ∧
    (s.eng f).memAddr + 1 < 0x301000 + 0x1000 * f.toNat) (fun s t =>
    t.hostOut = [s.byte (s.eng f).memAddr ++ s.byte ((s.eng f).memAddr + 1)] ∧ MemKept (fun _ => true) s t))

/-- What the health commands do. For each command named in a comment: from every canonical state that meets the
conditions, it goes on to a next state with the values listed. -/
def Obligations.HealthCommandsComplete : Prop :=
  -- HEALTH_SAMPLE (R471)
  (Completes (.healthSample) (fun s => s.hlt.due = true ∧ codeOf s.time.whole ≠ 31 ∧ s.get MODE.CUR ≠ 0 ∧
    s.awake = true ∧ s.active = false) (fun s t =>
    t.hlt.day = some s.dayNo ∧ t.hlt.due = false)) ∧
  -- SAMPLE_NOW (R471)
  (Completes (.sampleNow .f0) (fun s => Serves s .f0 0x18 ∧ codeOf s.time.whole ≠ 31 ∧
    s.get MODE.CUR ≠ 0 ∧ s.awake = true ∧ s.active = false) (fun s t =>
    t.hlt.day = some s.dayNo ∧ t.hlt.due = false)) ∧
  -- REPLACE_CLR (R478)
  (Completes (.replaceClr .f0) (fun s => Serves s .f0 0x18 ∧ s.mode.collidedWait = false ∧
    s.bit HLT_STAT.REPLACE = true ∧ s.get HLT_CFG.REPL_MO < s.leastMonths.1) (fun _ t =>
    t.bit HLT_STAT.REPLACE = false ∧ t.get HLT_STAT.REASON = 0 ∧ (∀ f, t.fget f FN_STATE.REPLACE = 0))) ∧
  -- SVC_START (R482)
  (Completes (.svcStart .f0) (fun s => Serves s .f0 0x18 ∧ codeOf s.time.whole ≠ 31 ∧ s.bit HLT_STAT.SVC_SET = false ∧
    s.sec < 0x100000000) (fun s t => t.bit HLT_STAT.SVC_SET = true ∧ t.get32 HLT_SVC_L.w = s.sec ∧
    t.get HLT_CNT_HB.w = 0 ∧ t.get HLT_CNT_SYS.w = 0 ∧ t.get HLT_CNT_ECC.w = 0)) ∧
  -- SELFTEST (R481)
  (∀ (f : Fn) (mask ms start : Nat) (args : List Word) (lf : Bool), Completes (.selftest f mask ms) (fun s =>
    (s.eng f).op = some ⟨0xA, args, start, none⟩ ∧ arg args 0 % 0x100 ≠ 0 ∧
    lf = allFns.any (fun g => (s.plan g).plan.any (fun w => lfWatch w.words))) (fun s t =>
    Ended t f 0 [BitVec.ofNat 16 (s.checkMask mask lf s.hlt.volts &&& (arg args 0 % 0x100)), BitVec.ofNat 16 ms]))

/-- What the twin pulses and role events do. For each command named in a comment: from every canonical state that
meets the conditions, it goes on to a next state with the values listed. -/
def Obligations.TwinRoleCommandsComplete : Prop :=
  -- TWIN_EN_WRITE (R513)
  (∀ (v : Word), Completes (.twinEnWrite .f0 v) (fun s => Serves s .f0 0x17 ∧ s.bit PART_STAT.LOCKED = false ∧
    legalWord .f0 TWIN_CFG.w.key v = true ∧ s.bit TWIN_CFG.EN = false ∧ TWIN_CFG.EN.of v = 1) (fun s t =>
    t.bit TWIN_STAT.EN = true ∧ t.bit TWIN_STAT.ACTIVE = false ∧ t.bit TWIN_STAT.STANDBY = false ∧
    t.twin.watching = true ∧ t.twin.pulseAt = s.aon)) ∧
  -- UNDECIDED_TIMEOUT (R447)
  (Completes (.undecidedTimeout) (fun s => s.twin.watching = true ∧ s.bit TWIN_STAT.EN = true ∧
    s.twin.claimDue = none) (fun _ t => t.twin.claimDue = some 3)) ∧
  -- HEARTBEAT_EMIT (R449)
  (Completes (.heartbeatEmit) (fun s => s.isActive = true ∧ s.dormouse = true ∧ s.pins.test = false ∧ s.hostLoading = false ∧
    s.sec % max 1 (s.get TWIN_CFG.PERIOD) = 0 ∧ s.twin.pulseSec ≠ s.sec) (fun s t =>
    t.pins.hbPulses = s.pins.hbPulses + 1 ∧ t.twin.pulseSec = s.sec ∧ OnlyRegs [] s t)) ∧
  -- TWIN_HB_PULSE (R449)
  (∀ (lowUs : Nat), Completes (.twinHbPulse lowUs) (fun s => s.bit TWIN_STAT.EN = true ∧ s.get MODE.CUR ≠ 0 ∧
    s.twin.stuck = false ∧ 50 ≤ lowUs ∧ lowUs < 200 ∧ s.isActive = false ∧ s.isStandby = true) (fun s t =>
    t.twin.pulseAt = s.aon ∧ t.twin.edges = (s.ktime :: s.twin.edges).take 8 ∧ t.bit TWIN_STAT.PARTNER_SEEN = true)) ∧
  -- HB_STUCK (R449)
  (Completes (.hbStuck) (fun s => s.bit TWIN_STAT.EN = true ∧ s.get MODE.CUR ≠ 0 ∧ s.twin.stuck = false) (fun s t =>
    t.bit TWIN_EVT.HB_STUCK = true ∧ t.twin.stuck = true ∧ OnlyRegs [TWIN_EVT.w] s t)) ∧
  -- TAKEOVER_DUE (R450)
  (Completes (.takeoverDue) (fun s => s.isStandby = true ∧ s.get MODE.CUR ≠ 0 ∧ s.twin.claimDue = none) (fun _ t =>
    t.twin.claimDue = some 1)) ∧
  -- CLAIM (R456)
  (∀ (c : Nat), Completes (.claim false) (fun s => s.twin.claimDue = some c ∧ s.awake = true ∧
    s.bit TWIN_STAT.EN = true ∧ s.get MODE.CUR ≠ 3 ∧ s.bothClaim = false) (fun s t =>
    t.pins.hbPulses = s.pins.hbPulses + 1 ∧ t.bit TWIN_STAT.ACTIVE = true ∧ t.bit TWIN_STAT.STANDBY = false ∧
    t.bit TWIN_STAT.CLAIMING = true ∧ t.twin.claimDue = none)) ∧
  -- CLAIMING_END (R456)
  (Completes (.claimingEnd) (fun _ => True) (fun s t => t.bit TWIN_STAT.CLAIMING = false ∧
    OnlyRegs [TWIN_STAT.w] s t)) ∧
  -- SWAP_FAILED (R460)
  (Completes (.swapFailed) (fun s => s.twin.swapAt.isSome = true) (fun _ t => t.bit TWIN_EVT.SWAP_FAILED = true ∧
    t.twin.swapAt = none ∧ (∀ f, t.fget f INT_STAT0.TWIN_EVENT = 1))) ∧
  -- STANDBY_SELFTEST (R461)
  (∀ (mask : Nat), Completes (.standbySelftest mask) (fun s => s.twin.testing = false ∧ s.stestDue = true ∧
    s.partnerLf = false ∧ s.get MODE.CUR ≠ 0 ∧ s.mode.resting = false ∧ s.awake = true) (fun _ t =>
    t.twin.testing = true)) ∧
  -- STANDBY_SELFTEST (R461)
  (∀ (mask : Nat) (lf : Bool), Completes (.standbySelftest mask) (fun s => s.twin.testing = true ∧ s.awake = true ∧
    lf = (match s.twin.held with
      | some d => allFns.any (fun f => (ckptWatches d f).any lfWatch)
      | none => false)) (fun s t =>
    t.get TWIN_STEST_RES.OWN = s.checkMask mask lf (decide (mask / 128 % 2 = 0)) % 0x100 ∧ t.twin.testing = false ∧
    t.twin.stestDay = some s.dayNo ∧ (∀ f, t.fget f INT_STAT0.TWIN_EVENT = 1)))

/-- What checkpoints and the planned swap do. For each command named in a comment: from every canonical state that
meets the conditions, it goes on to a next state with the values listed. -/
def Obligations.CheckpointCommandsComplete : Prop :=
  -- CHECKPOINT_BUILD (R452)
  (∀ (wakeAck : Bool) (x : Xfer), Completes (.checkpointBuild wakeAck) (fun s => s.isActive = true ∧ s.awake = true ∧
    s.pins.vddio = true ∧ s.twin.xfer = some x ∧ x.stage = 0) (fun s t => t.get TWIN_TX_SEQ.w = (s.get TWIN_TX_SEQ.w + 1) % 0x10000 ∧
    ((t.twin.xfer.map (fun y => (y.seq, y.stage, y.swap))) = some (t.get TWIN_TX_SEQ.w, 1, x.swap)) ∧
    t.bit TWIN_STAT.PARTNER_SEEN = wakeAck)) ∧
  -- CKPT_NOW (R452)
  (Completes (.ckptNow .f0) (fun s => Serves s .f0 0x17 ∧ s.isActive = true ∧ s.bit TWIN_CFG.CKPT_EN = true ∧
    s.twin.xfer = none) (fun _ t => t.twin.xfer = some ⟨[], 0, 0, 0, false⟩)) ∧
  -- CHUNK_SEND (R452)
  (∀ (x : Xfer), Completes (.chunkSend true) (fun s => s.awake = true ∧ s.pins.vddio = true ∧
    s.twin.xfer = some x ∧ 0 < x.stage ∧ x.stage < 12) (fun s t =>
    t.twin.frameOut = chunkFrame x (x.stage - 1) ∧ t.twin.xfer = some { x with stage := x.stage + 1, tries := 0 } ∧
    OnlyRegs [] s t)) ∧
  -- TWIN_FRAME_RECEIVED (R454)
  (∀ (bytes : List Byte) (pec : Byte), Completes (.twinFrameReceived bytes pec) (fun s => s.bit TWIN_STAT.EN = true ∧
    s.pins.vddio = true ∧ s.mode.resting = false ∧ s.awake = true ∧ s.boot.marten = true ∧ (crc8 (BitVec.ofNat 8 (2 *
    (s.get TWIN_XBASE.w + if s.pins.role then 1 else 0)) :: bytes) ≠ pec) ∧ bytes ≠ []) (fun s t =>
    t.get TWIN_CNT_BAD.w = min 0xFFFF (s.get TWIN_CNT_BAD.w + 1) ∧ OnlyRegs [TWIN_CNT_BAD.w] s t)) ∧
  -- TWIN_FRAME_RECEIVED (R454)
  (∀ (m pec : Byte), Completes (.twinFrameReceived [3, m, 0, 0] pec) (fun s => s.bit TWIN_STAT.EN = true ∧
    s.pins.vddio = true ∧ s.mode.resting = false ∧ s.awake = true ∧ s.boot.marten = true ∧
    (crc8 [BitVec.ofNat 8 (2 * (s.get TWIN_XBASE.w + if s.pins.role then 1 else 0)), 3, m, 0, 0] = pec)) (fun _ t =>
    t.get TWIN_STEST_RES.PARTNER = m.toNat ∧ t.hlt.partnerPrev = some m.toNat ∧
    (∀ f, t.fget f INT_STAT0.TWIN_EVENT = 1))) ∧
  -- PARTIAL_SET_TIMEOUT (R454)
  (Completes (.partialSetTimeout) (fun _ => True) (fun s t => t.twin.part = none ∧ OnlyRegs [] s t)) ∧
  -- CHECKPOINT_CONFIG_COPY (R454)
  (∀ (d : List Byte), Completes (.checkpointConfigCopy) (fun s => s.twin.held = some d) (fun s t =>
    t.twin.copy = some d ∧ OnlyRegs [] s t)) ∧
  -- TWIN_SWAP (R460)
  (∀ (f : Fn) (start : Nat) (args : List Word), Completes (.twinSwap f) (fun s =>
    (s.eng f).op = some ⟨9, args, start, none⟩ ∧ s.isActive = true ∧ s.active = false ∧ s.twin.xfer = none ∧
    s.bit TWIN_EVT.PARTNER_SILENT = false) (fun _ t => t.twin.xfer = some ⟨[], 0, 0, 0, true⟩ ∧ Ended t f 0 []))

/-- What SIGN_RECORD and HEALTH_REPORT do. For each command named in a comment: from every canonical state that meets
the conditions, it goes on to a next state with the values listed. -/
def Obligations.ReportCommandsComplete : Prop :=
  -- SIGN_RECORD (R132)
  (∀ (f : Fn) (start : Nat) (args : List Word), Completes (.signRecord f) (fun s =>
    (s.eng f).op = some ⟨4, args, start, none⟩ ∧ s.flintWaits f = false ∧ s.bit FLINT_STAT.LOCKED = false ∧
    (f = .f0 → s.bit FLINT_STAT.IDENT_OK = true)) (fun s t => ((t.eng f).op.bind Op.outcome).map Prod.fst = some 0 ∧
    t.get FLINT_REFCNT.w = s.get FLINT_REFCNT.w)) ∧
  -- SIGN_RECORD (R132)
  (∀ (f : Fn) (start : Nat) (args : List Word), Completes (.signRecord f) (fun s =>
    (s.eng f).op = some ⟨4, args, start, none⟩ ∧ s.flintWaits f = false ∧ s.bit FLINT_STAT.LOCKED = true) (fun s t => Ended t f eLOCKED [] ∧
    t.get FLINT_REFCNT.w = min 0xFFFF (s.get FLINT_REFCNT.w + 1))) ∧
  -- HEALTH_REPORT (R480)
  (∀ (f : Fn) (sig : List Byte) (start : Nat) (args : List Word), Completes (.healthReport f sig) (fun s =>
    (s.eng f).op = some ⟨0xE, args, start, none⟩ ∧ s.flintWaits f = false ∧ arg args 0 % 2 = 0) (fun s t =>
    Ended t f 0 (48 :: lowHigh (0x300F00 + 0x1000 * f.toNat)) ∧
    t.bytes (0x300F00 + 0x1000 * f.toNat) 48 = s.report false ∧ MemKept (fun a =>
    !(0x300F00 + 0x1000 * f.toNat ≤ a && a < 0x300F30 + 0x1000 * f.toNat)) s t))

/-- What the host serial port does. For each command named in a comment: from every canonical state that meets the
conditions, it goes on to a next state with the values listed. -/
def Obligations.SpiCommandsComplete : Prop :=
  -- SPI_WRITE_FRAME (R173)
  (∀ (cmd : Byte) (w : Word), Completes (.spiWriteFrame cmd 0x12 [w] 32 .rise) (fun s => s.spiSees = true ∧
    s.mode.ready = true ∧ s.mode.resting = false ∧ s.bit HP_CFG.CRC_REQ = false ∧ Serves s (cmdFn cmd) 0 ∧
    cmd.getLsbD 7 = false ∧ cmd.getLsbD 3 = false ∧ cmd.toNat % 8 = 0) (fun s t =>
    t.fget (cmdFn cmd) INT_EN0.w = w.toNat ∧
    t.fget (cmdFn cmd) FN_SEQ.w = (s.fget (cmdFn cmd) FN_SEQ.w + 1) % 0x10000 ∧ t.hostOut = [s.status16 (cmdFn cmd)] ∧
    t.spi = ⟨none, false⟩ ∧ t.get HP_LAST.w = (cmdFn cmd).toNat * 0x400 + 4)) ∧
  -- SPI_WRITE_CRC_FRAME (R174)
  (∀ (cmd : Byte) (w : Word), Completes (.spiWriteCrcFrame cmd 0x12 [w] (crc8 (cmd :: 0x12 :: bytesOfWords [w])) 40
    .rise) (fun s => s.spiSees = true ∧ s.mode.ready = true ∧ s.mode.resting = false ∧ Serves s (cmdFn cmd) 0 ∧
    cmd.getLsbD 7 = false ∧ cmd.getLsbD 3 = true ∧ cmd.toNat % 8 = 0) (fun s t =>
    t.fget (cmdFn cmd) INT_EN0.w = w.toNat ∧
    t.fget (cmdFn cmd) FN_SEQ.w = (s.fget (cmdFn cmd) FN_SEQ.w + 1) % 0x10000 ∧ t.hostOut = [s.status16 (cmdFn cmd)] ∧
    t.spi = ⟨none, false⟩ ∧ t.get HP_LAST.w = (cmdFn cmd).toNat * 0x400 + 5)) ∧
  -- SPI_READ_FRAME (R176)
  (∀ (cmd : Byte), Completes (.spiReadFrame cmd 0x12 none none 32 .rise) (fun s => s.spiSees = true ∧
    s.mode.ready = true ∧
    s.mode.resting = false ∧ s.bit HP_CFG.CRC_REQ = false ∧ Serves s (cmdFn cmd) 0 ∧ cmd.getLsbD 7 = true ∧
    cmd.getLsbD 3 = false ∧ cmd.toNat % 8 = 0) (fun s t => t.hostOut = [s.status16 (cmdFn cmd),
    s.reg (INT_EN0.w.on (cmdFn cmd).toNat).key] ∧ t.spi = ⟨none, false⟩ ∧
    t.get HP_LAST.w = (cmdFn cmd).toNat * 0x400 + 4 ∧ MemKept (fun _ => true) s t)) ∧
  -- SPI_READ_CRC_FRAME (R178)
  (∀ (cmd : Byte), Completes (.spiReadCrcFrame cmd 0x12 (crc8 [cmd, 0x12]) none none 48 .rise) (fun s =>
    s.spiSees = true ∧     s.mode.ready = true ∧ s.mode.resting = false ∧ Serves s (cmdFn cmd) 0 ∧ cmd.getLsbD 7 = true ∧
    cmd.getLsbD 3 = true ∧ cmd.toNat % 8 = 0) (fun s t => t.hostOut = [s.status16 (cmdFn cmd), s.reg (INT_EN0.w.on
    (cmdFn cmd).toNat).key, (crc8 (cmd :: 0x12 :: bytesOfWords [s.reg (INT_EN0.w.on (cmdFn
    cmd).toNat).key])).zeroExtend 16] ∧ t.spi = ⟨none, false⟩)) ∧
  -- SPI_NULL_FRAME (R181)
  (Completes (.spiNullFrame) (fun s => s.mode.resting = true ∧ s.get MODE.CUR ≠ 0 ∧ s.mode.waking = none ∧
    s.mode.delayed = none ∧ s.wakeMv ≤ s.get VRES_MEAS.w ∧ s.spiSees = true) (fun s t => t.mode.waking = some 2 ∧
    t.get WAKE_CAUSE.CAUSE = 2 ∧ t.spi = s.spi)) ∧
  -- SPI_IDLE_TIMEOUT (R185)
  (∀ (f : Fn) (n : Nat) (r : Bool), Completes (.spiIdleTimeout) (fun s => s.spi.frame = some ⟨some f, n, r, []⟩ ∧
    s.get MODE.CUR ≠ 0 ∧ n < 0x400) (fun _ t => t.spi.frame = none ∧ t.bit HP_EVT.TIMEOUT = true ∧
    t.fget f FN_ERR.CODE = eTIMEOUT ∧ t.get HP_LAST.w = oIDLE * 0x1000 + f.toNat * 0x400 + n ∧
    t.fget .f0 INT_STAT1.HOSTPORT_ERROR = 1)) ∧
  -- HP_CNT_CLR (R184)
  (Completes (.hpCntClr .f0) (fun s => Serves s .f0 0x7) (fun _ t => t.get HP_CNT_SHORT.w = 0 ∧
    t.get HP_CNT_CRC.w = 0 ∧ t.get HP_CNT_FRAMING.w = 0 ∧ t.get HP_CNT_TIMEOUT.w = 0 ∧ t.get HP_CNT_NRDY.w = 0)) ∧
  -- VDDIO_LOSS (R29)
  (Completes (.vddioLoss) (fun s => s.pins.vddio = true ∧ s.get MODE.CUR ≠ 0 ∧ s.pins.porAsserted = false) (fun _ t =>
    t.pins.vddio = false))

/-- What two-wire target frames and the matcher do. For each command named in a comment: from every canonical state
that meets the conditions, it goes on to a next state with the values listed. -/
def Obligations.TwoWireFrameCommandsComplete : Prop :=
  -- TW_WRITE_FRAME (R193)
  (∀ (a : Nat) (f : Fn) (hi lo : Byte), Completes (.twWriteFrame a 0x12 [hi, lo] .stop) (fun s =>
    s.mode.ready = true ∧ s.tw.frame = none ∧ s.tw.wakeFrame = none ∧ Serves s f 0 ∧ s.twAnswers a = some f ∧
    s.bit TW_CFG.PEC = false) (fun _ t => t.fget f INT_EN0.w = hi.toNat * 0x100 + lo.toNat ∧ (t.eng f).twPtr = 0x13 ∧
    t.tw.frame = none ∧ t.get TW_LAST.w = f.toNat * 0x400 + 4)) ∧
  -- TW_WRITE_PEC_FRAME (R194)
  (∀ (a : Nat) (f : Fn) (hi lo : Byte), Completes (.twWritePecFrame a 0x12 [hi, lo, crc8 [BitVec.ofNat 8 (2 * a),
    0x12, hi, lo]] .stop) (fun s => s.mode.ready = true ∧ s.tw.frame = none ∧ s.tw.wakeFrame = none ∧ Serves s f 0 ∧
    s.twAnswers a = some f ∧ s.bit TW_CFG.PEC = true) (fun _ t => t.fget f INT_EN0.w = hi.toNat * 0x100 + lo.toNat ∧
    (t.eng f).twPtr = 0x13 ∧ t.tw.frame = none ∧ t.get TW_LAST.w = f.toNat * 0x400 + 5)) ∧
  -- TW_POINTER_SET (R192)
  (∀ (a : Nat) (f : Fn) (reg : Byte), Completes (.twPointerSet a reg .stop) (fun s => s.mode.ready = true ∧
    s.tw.frame = none ∧ s.tw.wakeFrame = none ∧ Serves s f 0 ∧ s.twAnswers a = some f) (fun _ t =>
    (t.eng f).twPtr = reg.toNat ∧ t.tw.frame = none ∧ t.get TW_LAST.w = f.toNat * 0x400 + 2)) ∧
  -- TW_READ_FRAME (R196)
  (∀ (a : Nat) (f : Fn), Completes (.twReadFrame a (some 0x12) 2 .stop) (fun s => s.mode.ready = true ∧
    s.tw.frame = none ∧ s.tw.wakeFrame = none ∧ Serves s f 0 ∧ s.twAnswers a = some f ∧
    s.bit TW_CFG.PEC = false) (fun s t => t.hostOut = [s.reg (INT_EN0.w.on f.toNat).key] ∧ (t.eng f).twPtr = 0x13 ∧
    t.tw.frame = none ∧ t.get TW_LAST.w = f.toNat * 0x400 + 5 ∧ MemKept (fun _ => true) s t)) ∧
  -- TW_STRETCH_TIMEOUT (R199)
  (∀ (fr : TwFrame), Completes (.twStretchTimeout) (fun s => s.tw.frame = some fr ∧ fr.held = true ∧
    fr.code = 0 ∧ s.coreRuns = true) (fun _ t => t.tw.frame = none ∧ t.bit TW_EVT.STRETCH = true ∧ t.fget fr.fn FN_ERR.CODE = eTIMEOUT ∧
    t.fget .f0 INT_STAT1.TW_ERROR = 1)) ∧
  -- TW_WAKE_MATCH (R200)
  (∀ (a : Nat) (f : Fn), Completes (.twWakeMatch a) (fun s => s.mode.resting = true ∧ s.get MODE.CUR ≠ 0 ∧
    s.mode.waking = none ∧ s.mode.delayed = none ∧ s.wakeMv ≤ s.get VRES_MEAS.w ∧ s.matching = true ∧
    barred a = false ∧ s.tw.wakeFrame = none ∧ s.tw.frame = none ∧ matchAddr s.addrForce a = some f) (fun _ t =>
    t.tw.wakeFrame = some f ∧ t.tw.sclHeld = true ∧ t.mode.waking = some 3 ∧ t.get WAKE_CAUSE.CAUSE = 3)) ∧
  -- TW_WAKE_RELEASE (R200)
  (Completes (.twWakeRelease) (fun s => s.tw.sclHeld = true ∧ s.mode.ready = true) (fun s t => t.tw.sclHeld = false ∧
    t.tw.wakeFrame = s.tw.wakeFrame ∧ OnlyRegs [] s t)) ∧
  -- WAKE_STRETCH (R202)
  (∀ (f : Fn), Completes (.wakeStretch) (fun s => s.tw.wakeFrame = some f ∧ s.tw.sclHeld = true) (fun s t =>
    t.tw.wakeFrame = none ∧ t.tw.sclHeld = false ∧ t.fget f FN_ERR.CODE = eTIMEOUT ∧
    (if s.coreRuns then t.bit TW_EVT.WAKE_STRETCH = true
     else t.tw.evtHeld = s.tw.evtHeld ||| 2 ^ TW_EVT.WAKE_STRETCH.lo))) ∧
  -- TW_ADDRESS_CONFIG_WRITE (R191)
  (∀ (v : Word), Completes (.twAddressConfigWrite .f0 0x85 v) (fun s => Serves s .f0 0x8 ∧
    s.bit PART_STAT.LOCKED = false ∧ legalWord .f0 TW_HOSTADDR.w.key v = true ∧ s.tw.forceDue = false ∧
    TW_HOSTADDR.ADDR.of v ≠ s.get TW_HOSTADDR.ADDR ∧
    addrsOk (s.addrCfg.take 5 ++ [TW_HOSTADDR.ADDR.of v]) = true) (fun s t =>
    t.get TW_HOSTADDR.ADDR = TW_HOSTADDR.ADDR.of v ∧ t.addrForce = s.addrForce ∧ t.tw.forceDue = true))

/-- What attention writes, arbitration and the bus reset do. For each command named in a comment: from every canonical
state that meets the conditions, it goes on to a next state with the values listed. -/
def Obligations.AttentionCommandsComplete : Prop :=
  -- ATTENTION_MESSAGE_FORM (R204)
  (∀ (f : Fn), Completes (.attentionMessageForm f) (fun s => s.fget f ATTN_ACK.OUT = 0 ∧
    (s.eng f).attn.due0 ≠ 0) (fun s t => t.fget f ATTN_ACK.OUT = 1 ∧
    t.fget f ATTN_ACK.SEQ = (s.fget f ATTN_ACK.SEQ + 1) % ATTN_ACK.SEQ.size ∧ t.fget f ATTN_ACK.TRIES = 0 ∧
    (t.eng f).attn.due = true ∧ (t.eng f).attn.due0 = 0 ∧ (t.eng f).attn.second = false)) ∧
  -- ATTENTION_ATTEMPT (R205)
  (∀ (f : Fn), Completes (.attentionAttempt f .sent) (fun s => s.attnMayStart f = true ∧ s.tw.cancel = false) (fun s t =>
    t.tw.onBus = none ∧ t.fget f ATTN_ACK.TRIES = min 15 (s.fget f ATTN_ACK.TRIES + 1) ∧ t.fget f ATTN_ACK.OUT = 1 ∧
    (t.hostOut = (s.attnBytes f).map (fun b => b.zeroExtend 16)) ∧
    t.get TW_CNT_ATTN.w = min 0xFFFF (s.get TW_CNT_ATTN.w + 1))) ∧
  -- ATTENTION_REPEAT (R205)
  (∀ (f : Fn), Completes (.attentionRepeat f) (fun s => s.fget f ATTN_ACK.OUT = 1 ∧ s.fget f ATTN_ACK.FALLBACK = 0 ∧
    s.fget f ATTN_ACK.TRIES < s.get TW_CTL_CFG.TRIES ∧ s.tw.onBus ≠ some f) (fun _ t => (t.eng f).attn.due = true)) ∧
  -- ATTN_FALLBACK (R206)
  (∀ (f : Fn), Completes (.attnFallback f) (fun s => s.fget f ATTN_ACK.OUT = 1 ∧ s.fget f ATTN_ACK.FALLBACK = 0 ∧
    s.get TW_CTL_CFG.TRIES ≤ s.fget f ATTN_ACK.TRIES ∧ s.tw.onBus ≠ some f ∧ s.coreRuns = true) (fun _ t =>
    t.fget f ATTN_ACK.FALLBACK = 1 ∧ t.bit TW_EVT.ATTN_FALLBACK = true ∧ t.fget .f0 INT_STAT1.TW_ERROR = 1)) ∧
  -- ATTN_ACK_WRITE (R214)
  (∀ (f : Fn) (v : Word), Completes (.attnAckWrite f v) (fun s => Serves s f 0 ∧ s.fget f ATTN_ACK.OUT = 1 ∧
    v.toNat % 16 = s.fget f ATTN_ACK.SEQ ∧ legalWord f ATTN_ACK.w.key v = true ∧ s.tw.onBus ≠ some f) (fun _ t =>
    t.fget f ATTN_ACK.OUT = 0 ∧ t.fget f ATTN_ACK.FALLBACK = 0 ∧ (t.eng f).attn.due = false ∧
    (t.eng f).attn.backoff = false)) ∧
  -- ARB_LOST (R211)
  (∀ (f : Fn), Completes (.arbLost f) (fun s => s.tw.onBus = some f ∧ s.tw.cancel = false ∧
    (s.eng f).attn.losses < 7) (fun s t =>
    t.tw.onBus = none ∧ (t.eng f).attn.backoff = true ∧ (t.eng f).attn.losses = (s.eng f).attn.losses + 1 ∧
    t.fget f ATTN_ACK.TRIES = s.fget f ATTN_ACK.TRIES - 1)) ∧
  -- ARB_LOST (R214)
  (∀ (f : Fn), Completes (.arbLost f) (fun s => s.tw.onBus = some f ∧ s.tw.cancel = true) (fun _ t =>
    t.tw.onBus = none ∧ t.tw.cancel = false ∧ t.fget f ATTN_ACK.OUT = 0 ∧ t.get TW_ATTN_STAT.w % 0x10 = 4)) ∧
  -- TW_ARB_SR (R212)
  (∀ (f : Fn), Completes (.twArbSr f) (fun s => s.tw.onBus = some f ∧ s.tw.cancel = false ∧
    s.coreRuns = true) (fun _ t => t.tw.onBus = none ∧
    (t.eng f).attn.backoff = true ∧ t.bit TW_EVT.ARB_SR = true ∧ t.fget .f0 INT_STAT1.ARB_SR = 1)) ∧
  -- ARB_BACKOFF_EXPIRY (R213)
  (∀ (f : Fn), Completes (.arbBackoffExpiry f) (fun s => (s.eng f).attn.backoff = true) (fun _ t =>
    (t.eng f).attn.backoff = false ∧ (t.eng f).attn.due = true)) ∧
  -- TWRST_PULSE (R215)
  (∀ (lowUs : Nat), Completes (.twrstPulse lowUs) (fun s => s.twAlive = true ∧ s.coreRuns = true ∧ 100 ≤ lowUs) (fun _ t =>
    t.bit TW_EVT.TWRST_SEEN = true ∧ t.tw.frame = none ∧ t.tw.onBus = none)) ∧
  -- STUCK_BUS (R216)
  (∀ (sda : Bool), Completes (.stuckBus sda false) (fun s => s.bit TW_CFG.STUCK_RST_EN = true ∧ s.twAlive = true ∧
    s.tw.dead = false ∧ s.drivesLow sda = false ∧ s.coreRuns = true) (fun s t =>
    t.bit TW_EVT.STUCK_DRIVEN = true ∧ t.pins.twrstPulses = s.pins.twrstPulses + 1 ∧ t.tw.pulses = 1)) ∧
  -- STUCK_BUS (R216)
  (∀ (sda : Bool), Completes (.stuckBus sda true) (fun s => s.bit TW_CFG.STUCK_RST_EN = true ∧ s.twAlive = true ∧
    s.tw.dead = false ∧ s.drivesLow sda = false ∧ s.coreRuns = true ∧ s.tw.pulses = 2) (fun s t =>
    t.bit TW_EVT.BUS_DEAD = true ∧ t.pins.twrstPulses = s.pins.twrstPulses + 1 ∧ t.tw.dead = true)) ∧
  -- BUS_DEAD_RELEASE (R216)
  (Completes (.busDeadRelease) (fun s => s.tw.dead = true) (fun s t => t.tw.dead = false ∧ t.tw.pulses = 0 ∧
    OnlyRegs [] s t)) ∧
  -- TW_BUS_RESET (R216)
  (Completes (.twBusReset .f0) (fun s => Serves s .f0 0x8 ∧ s.coreRuns = true) (fun s t => t.pins.twrstPulses = s.pins.twrstPulses + 1 ∧
    t.bit TW_EVT.TWRST_SEEN = true)) ∧
  -- TW_CNT_CLR (R221)
  (Completes (.twCntClr .f0) (fun s => Serves s .f0 0x8) (fun _ t => t.get TW_CNT_ERR.w = 0 ∧ t.get TW_CNT_ARB.w = 0 ∧
    t.get TW_CNT_ATTN.w = 0))

/-- What drafting, SUBMIT, WITHDRAW, admission and the plan snapshot do. For each command named in a comment: from
every canonical state that meets the conditions, it goes on to a next state with the values listed. -/
def Obligations.PlanCommandsComplete : Prop :=
  -- PLAN_BEGIN (R252)
  (∀ (f : Fn), Completes (.planBegin f) (fun s => Serves s f 0 ∧ s.runsPlans = true ∧
    s.fget f PLAN_STAT.BUSY = 0) (fun s t => (t.plan f).draft = [] ∧ (t.plan f).plan = (s.plan f).plan ∧
    t.fget f PLAN_WIDX.INDEX = 0 ∧ t.fget f PLAN_STAT.DRAFT_OPEN = 1 ∧ t.fget f PLAN_STAT.FULL = 0)) ∧
  -- WREC15_WRITE (R252)
  (∀ (f : Fn) (v : Word), Completes (.wrec15Write f v) (fun s => Serves s f 0 ∧ s.fget f PLAN_STAT.BUSY = 0 ∧
    s.fget f PLAN_STAT.DRAFT_OPEN = 1 ∧ s.fget f PLAN_STAT.FULL = 0 ∧ s.fget f PLAN_WIDX.INDEX < 15) (fun s t =>
    t.fget f (WREC.w 15) = v.toNat ∧
    (t.plan f).draft = putDraft (s.plan f).draft (s.fget f PLAN_WIDX.INDEX) (t.window f) ∧
    t.fget f PLAN_WIDX.INDEX = s.fget f PLAN_WIDX.INDEX + 1)) ∧
  -- PLAN_WIDX_WRITE (R252)
  (∀ (f : Fn) (v : Word), Completes (.planWidxWrite f v) (fun s => Serves s f 0 ∧ s.fget f PLAN_STAT.BUSY = 0 ∧
    legalWord f PLAN_WIDX.w.key v = true) (fun s t => t.fget f PLAN_WIDX.INDEX = v.toNat % 16 ∧
    t.fget f PLAN_STAT.FULL = 0 ∧ (t.window f = (List.range 16).map (fun i =>
    ((s.plan f).draft.getD (v.toNat % 16) []).getD i 0)))) ∧
  -- PLAN_SUBMIT (R253)
  (∀ (f : Fn), Completes (.planSubmit f) (fun s => Serves s f 0 ∧ s.runsPlans = true ∧ s.fget f PLAN_STAT.BUSY = 0 ∧
    (s.plan f).draft ≠ []) (fun s t => t.sched.queue = s.sched.queue ++ [f] ∧ t.fget f PLAN_STAT.BUSY = 1 ∧
    (t.plan f).plan = (s.plan f).plan)) ∧
  -- PLAN_WITHDRAW (R254)
  (∀ (f : Fn), Completes (.planWithdraw f) (fun s => Serves s f 0 ∧ s.runsPlans = true ∧
    s.fget f PLAN_STAT.BUSY = 0) (fun _ t => (t.plan f).plan = [] ∧ (∀ o ∈ t.sched.timeline, o.fn ≠ f) ∧
    t.fget f PLAN_RESULT.REASON = 0 ∧ t.fget f PLAN_FAILW.w = 0 ∧ t.fget f INT_STAT0.PLAN_DONE = 1)) ∧
  -- ADMISSION_DONE (R256)
  (∀ (f g : Fn) (rest : List Fn) (r x i : Nat), Completes (.admissionDone) (fun s => s.sched.queue = f :: rest ∧
    s.judge f (s.plan f).draft = .refused r x g i ∧ r < 0x100) (fun s t => t.sched.queue = rest ∧
    t.plan f = s.plan f ∧ t.sched.timeline = s.sched.timeline ∧ t.fget f PLAN_RESULT.REASON = r ∧
    t.fget f INT_STAT0.PLAN_DONE = 1)) ∧
  -- ADMISSION_DONE (R256)
  (∀ (f : Fn) (rest : List Fn) (l : List Placed) (cs : List (Placed × Nat × ℚ × ℚ)) (c : Nat),
    Completes (.admissionDone) (fun s => s.sched.queue = f :: rest ∧
    s.judge f (s.plan f).draft = .passed l cs c) (fun s t => t.sched.queue = rest ∧
    (t.plan f).plan.map Watch.words = (s.plan f).draft ∧ (t.plan f).draft = [] ∧ t.sched.timeline = l.map Placed.occ ∧
    t.sched.dirty = true ∧ t.fget f PLAN_RESULT.REASON = 0 ∧
    t.fget f PLAN_SEQ.w = (s.fget f PLAN_SEQ.w + 1) % 0x10000 ∧ t.fget f INT_STAT0.PLAN_DONE = 1)) ∧
  -- PLAN_SNAPSHOT_WRITE (R255)
  (Completes (.planSnapshotWrite) (fun s => s.sched.dirty = true ∧ s.flashFree = true) (fun s t =>
    t.sched.dirty = false ∧ t.sched.snapshot = allFns.map (fun f => (s.plan f).plan.map Watch.words) ∧
    t.sched.snapRegs = s.regs.filter (fun e => !isAon e.1))) ∧
  -- READMISSION (R266)
  (∀ (u : State) (l : List Placed), Completes (.readmission) (fun s => s.sched.readmit = true ∧
    u = { s with sched := { s.sched with readmit := false } } ∧
    u.placeAll (cycleOf u.liveWatches) u.ktime [] (byClass u.liveWatches) = .inl l ∧
    (u.reservoir u.ktime (cycleOf u.liveWatches) none l).2 = none) (fun s t => t.sched.readmit = false ∧
    t.sched.timeline = l.map Placed.occ ∧ t.sched.lastC = s.get RES_C_EST.w)) ∧
  -- DAY_START (R261)
  (Completes (.dayStart) (fun s => (s.sec + 86400 - 60 * s.get SCHED_DAY_OFS.w % 86400) % 86400 = 0) (fun _ t =>
    (∀ f, t.fget f DAY_USE_E.w = 0) ∧ (∀ f, t.fget f DAY_USE_T.w = 0) ∧ (∀ f, (t.eng f).dayE = 0) ∧ t.sched.devE = 0 ∧
    t.get SCHED_DEV_USE.w = 0 ∧ t.sched.readmit = true))

/-- What occurrences, LISTEN and CAPTURE_NOW do. For each command named in a comment: from every canonical state that
meets the conditions, it goes on to a next state with the values listed. -/
def Obligations.OccurrenceAndListenCommandsComplete : Prop :=
  -- SLOT_START (R264)
  (∀ (f : Fn) (idx : Nat) (w : Watch) (nominal start stop : Nat), Completes (.slotStart f idx) (fun s =>
    s.slotDue f idx = some (w, nominal, start, stop) ∧ s.runsPlans = true ∧ s.awake = true ∧ recKind w.words ≠ kCAPT ∧
    s.bit FES_STAT.HOLD = false ∧ s.fe.rx = none) (fun s t =>
    (⟨f, idx, nominal, stop + (s.ktime - start), false⟩ : Run) ∈ t.sched.running ∧ t.fe.rx.map Rx.kfc = some (recKfc w.words) ∧
    t.bit MODE.SLOT_ACT = true ∧ (t.watchOf f idx).map Watch.last = some (some nominal))) ∧
  -- SLOT_END (R112)
  (∀ (f : Fn) (idx : Nat) (r : Run) (w : Watch), Completes (.slotEnd f idx) (fun s =>
    (s.runs.find? (fun rw => rw.1.fn == f && rw.1.idx == idx) = some (r, w)) ∧ s.ends r w = true) (fun s t =>
    r ∉ t.sched.running ∧ t.sched.useAt = s.ktime)) ∧
  -- SLOT_END (R261)
  (∀ (f : Fn) (idx : Nat) (r : Run) (w : Watch), Completes (.slotEnd f idx) (fun s =>
    (s.runs.find? (fun rw => rw.1.fn == f && rw.1.idx == idx) = some (r, w)) ∧ s.ends r w = true ∧
    s.tunerRuns = [(r, w)] ∧ s.liveListens = []) (fun s t =>
    (t.eng f).dayT = (s.eng f).dayT + (s.ktime - s.sched.useAt) * 1000 / 2 ^ 24)) ∧
  -- LISTEN_START (R265)
  (∀ (f : Fn) (a : List Word) (at_ : Nat) (u : State), Completes (.listenStart f) (fun s =>
    (s.eng f).op = some ⟨0xB, a, at_, none⟩ ∧ u = s.account.demandXo ∧
    u.listenError f (arg a 0 + 0x10000 * arg a 1) (arg a 2) (arg a 3) (arg a 4) = 0 ∧ u.carries ((u.bearerUa (bearer
    (arg a 0 + 0x10000 * arg a 1)) : ℚ) / 1000000 + u.captAmps) (max (arg a 2) u.captLeft) = true ∧
    s.bit FES_STAT.HOLD = false ∧ s.fe.rx = none ∧
    (∀ g, (s.plan g).listen = none)) (fun _ t =>
    (t.plan f).listen.map Listen.kfc = some (arg a 0 + 0x10000 * arg a 1) ∧
    t.fe.rx.map Rx.kfc = some (arg a 0 + 0x10000 * arg a 1) ∧ t.bit MODE.LISTEN_ACT = true ∧ Ended t f 0 [0])) ∧
  -- LISTEN_STOP (R265)
  (∀ (f : Fn) (a : List Word) (at_ : Nat), Completes (.listenStop f) (fun s =>
    (s.eng f).op = some ⟨0xC, a, at_, none⟩) (fun _ t => (t.plan f).listen = none ∧ Ended t f 0 [])) ∧
  -- LISTEN_MAX_DURATION (R265)
  (∀ (f : Fn), Completes (.listenMaxDuration f) (fun s => (s.plan f).listen.isSome = true) (fun _ t =>
    (t.plan f).listen = none ∧ t.fget f PLAN_STAT.LISTEN_ACT = 0)) ∧
  -- LISTEN_RESUMED (R264)
  (∀ (f : Fn) (l : Listen), Completes (.listenResumed f) (fun s => (s.plan f).listen = some l ∧ l.paused = true ∧
    s.bit FES_STAT.HOLD = false ∧ s.fe.rx = none) (fun _ t => (t.plan f).listen = some { l with paused := false } ∧
    t.fe.rx.map Rx.kfc = some l.kfc ∧ t.fget f PLAN_STAT.LISTEN_PAUSED = 0)) ∧
  -- CAPTURE_NOW (R443)
  (∀ (f : Fn) (a : List Word) (at_ : Nat), Completes (.captureNow f) (fun s => (s.eng f).op = some ⟨8, a, at_, none⟩ ∧
    s.runsPlans = true ∧ captParams (arg a 0 % 0x100) (arg a 0 / 0x100) (arg a 3 % 0x100) = none ∧ arg a 1 ≠ 0 ∧
    s.capt.job = none ∧ s.capt.due = [] ∧ arg a 0 / 0x100 % 2 = 0 ∧
    s.captFits false (arg a 2) (arg a 1) = true) (fun s t => t.capt.job = some ⟨[f], true, arg a 0 % 0x100,
    arg a 0 / 0x100, arg a 3 % 0x100, arg a 3 / 0x100, arg a 2, at_ + s.captLead, (arg a 1 * oneSec + 9) / 10,
    t.get CAPT_ID.w⟩ ∧ t.bit CAPT_STAT.RUN = true ∧
    t.bit MODE.CAPTURE_ACT = true ∧ t.get CAPT_ID.w = (s.get CAPT_ID.w + 1) % 0x10000)) ∧
  -- SPILL (R440)
  (∀ (p : Past), Completes (.spill) (fun s => s.capt.past = some p ∧ s.capt.spillDue = true ∧
    s.img.staging = false) (fun _ t => t.capt.spillDue = false ∧ t.bit CAPT_STAT.SPILLING = false)) ∧
  -- SPILL_DEL (R440)
  (∀ (f : Fn), Completes (.spillDel f) (fun s => Serves s f (keyPage CAPT_CMD.w.key)) (fun _ t =>
    (∀ e ∈ t.capt.stores, e.1 ≠ f)))

/-- What tune jobs, AF checks and raw writes do. For each command named in a comment: from every canonical state that
meets the conditions, it goes on to a next state with the values listed. -/
def Obligations.TuneCommandsComplete : Prop :=
  -- TUNE_JOB_START (R274)
  (∀ (temp : Int) (r : Rx), Completes (.tuneJobStart temp) (fun s => s.fe.rx = some r ∧
    s.get FES_STAT.JOB = 0 ∧ s.bit FES_STAT.HOLD = false ∧ s.bit CLK_STAT.XO_OK = true ∧ bearer r.kfc = 2 ∧
    r.kfc < 0x100000000) (fun _ t => t.get FES_STAT.JOB = 1 ∧ t.get FES_STAT.PATH = 2 ∧ t.get32 FES_KFC_L.w = r.kfc ∧ t.bit CLK_STAT.SYN_ON = true ∧
    t.get SYN_STAT.DIV = divCode (loHz r.kfc) ∧ t.get CAL_TEMP.w = code16 temp)) ∧
  -- TUNE_JOB_START (R274)
  (∀ (temp : Int) (r : Rx), Completes (.tuneJobStart temp) (fun s => s.fe.rx = some r ∧
    s.get FES_STAT.JOB = 0 ∧ s.bit FES_STAT.HOLD = false ∧ s.bit CLK_STAT.XO_OK = true ∧ bearer r.kfc = 1) (fun _ t =>
    t.get FES_STAT.JOB = 1 ∧ t.get FES_STAT.PATH = 1 ∧ t.bit CLK_STAT.SYN_ON = false ∧
    t.get CAL_TEMP.w = code16 temp)) ∧
  -- TUNE_JOB_START (R84)
  (∀ (temp : Int) (r : Rx), Completes (.tuneJobStart temp) (fun s => s.fe.rx = some r ∧
    s.get FES_STAT.JOB = 0 ∧ s.bit FES_STAT.HOLD = false ∧ s.bit CLK_STAT.XO_OK = false ∧ s.mode.xoTry = false ∧
    s.liveListens = []) (fun _ t => t.fe.rx = none ∧ t.tunerRuns = [] ∧ t.get FES_STAT.PATH = 0)) ∧
  -- TUNE_LOCK (R274)
  (∀ (vtune : Nat), Completes (.tuneLock vtune) (fun s => s.locking = true ∧ vtune < 0x10000) (fun s t =>
    t.bit FES_STAT.LOCKED = true ∧ t.bit SYN_STAT.LOCK = true ∧ t.get SYN_VTUNE.w = vtune ∧ t.get FES_STAT.JOB = 4 ∧
    OnlyRegs [FES_STAT.w, SYN_STAT.w, SYN_VTUNE.w] s t)) ∧
  -- TUNE_LOCK_TIMEOUT (R275)
  (∀ (band : Nat) (r : Rx), Completes (.tuneLockTimeout band) (fun s => s.fe.rx = some r ∧ s.locking = true ∧
    r.second = false) (fun s t => t.fe.rx = some { r with second := true } ∧ t.get FES_STAT.JOB = 3 ∧
    t.get SYN_STAT.BAND = band % 64 ∧ OnlyRegs [FES_STAT.w, SYN_STAT.w, SYN_BAND.w] s t)) ∧
  -- TUNE_LOCK_TIMEOUT (R275)
  (∀ (band : Nat) (r : Rx), Completes (.tuneLockTimeout band) (fun s => s.fe.rx = some r ∧ s.locking = true ∧
    r.second = true ∧ s.surveyRun = none) (fun s t => t.get FES_STAT.JOB = 7 ∧ t.get FES_CNT_LOCKFAIL.w = min 0xFFFF (s.get FES_CNT_LOCKFAIL.w + 1) ∧
    t.bit FES_STAT.LOCKED = false ∧ t.get FES_RSSI.w = 0x8000)) ∧
  -- AGC_SETTLED (R274)
  (∀ (rssi : Int) (lna ifGain lfGain : Nat) (r : Rx), Completes (.agcSettled rssi lna ifGain lfGain) (fun s =>
    s.fe.rx = some r ∧ s.get FES_STAT.JOB = 4 ∧ s.surveyRun = none ∧ lna < 16 ∧ ifGain < 16) (fun _ t =>
    t.get FES_STAT.JOB = 5 ∧ t.get FES_RSSI.w = code16 (clampRssi (bearer r.kfc == 1) rssi) ∧
    t.get FES_AGC.LNA = lna ∧ t.get FES_AGC.IF = ifGain)) ∧
  -- LOSS_OF_LOCK (R276)
  (∀ (r : Rx), Completes (.lossOfLock) (fun s => s.fe.rx = some r ∧ s.get FES_STAT.JOB = 5 ∧
    bearer r.kfc ≠ 1) (fun _ t => t.get FES_STAT.JOB = 2 ∧ t.bit FES_STAT.LOCKED = false ∧
    t.bit SYN_STAT.LOCK = false ∧ t.get FES_RSSI.w = 0x8000 ∧ t.fm.gap = true)) ∧
  -- LISTEN_JOB_RETRY (R275)
  (Completes (.listenJobRetry) (fun s => s.get FES_STAT.JOB = 7 ∧ s.liveListens ≠ []) (fun s t =>
    t.get FES_STAT.JOB = 0 ∧ OnlyRegs [FES_STAT.w] s t)) ∧
  -- RF_SURVEY (R295)
  (∀ (f : Fn) (idx : Nat) (r : Run) (w : Watch), Completes (.rfSurvey f idx) (fun s => s.surveyRun = some (r, w) ∧
    r.fn = f ∧ r.idx = idx ∧ s.fe.survey.length = recByte w.words 28) (fun s t => t.fe.survey = [] ∧
    t.fe.rx = s.fe.rx)) ∧
  -- FES_AF_GO (R280)
  (∀ (f : Fn) (r : Rx) (kfc : Nat), Completes (.fesAfGo f) (fun s => Serves s f (keyPage FES_AF_CTL.w.key) ∧
    s.vhfRun = true ∧ s.fe.rx = some r ∧ s.get32 FES_AF_KFC_L.w = kfc ∧ bearer kfc = bearer r.kfc ∧
    kfcInRange kfc = true ∧ s.fe.afHost = none) (fun _ t => t.bit FES_AF_STAT.BUSY = true ∧
    t.bit FES_STAT.AF_BUSY = true ∧ t.fe.afHost = some kfc)) ∧
  -- AF_CHECK (R279)
  (∀ (rssi : Int) (us kfc : Nat), Completes (.afCheck (some rssi) us) (fun s => s.fe.afHost = some kfc) (fun _ t =>
    t.fe.afHost = none ∧ t.bit FES_AF_STAT.BUSY = false ∧ t.bit FES_STAT.AF_BUSY = false ∧
    t.bit FES_AF_STAT.VALID = true ∧ t.get FES_AF_RSSI.w = code16 (clampRssi false rssi))) ∧
  -- AF_CHECK (R279)
  (∀ (us kfc : Nat), Completes (.afCheck none us) (fun s => s.fe.afHost = some kfc) (fun _ t =>
    t.fe.afHost = none ∧ t.bit FES_AF_STAT.BUSY = false ∧ t.bit FES_AF_STAT.VALID = false ∧
    t.bit FES_AF_STAT.LOCKFAIL = true ∧ t.get FES_AF_RSSI.w = 0x8000)) ∧
  -- SYN_APPLY (R282)
  (∀ (f : Fn), Completes (.synApply f) (fun s => Serves s f (keyPage SYN_APPLY.w.key)) (fun s t => t.fe.syn = [s.get
    SYN_DIV.w % 8, s.get SYN_N.w % 0x100, s.get32 SYN_FRAC_L.w % 2 ^ 22, s.get SYN_BAND.w % 64, s.get SYN_CP.w % 16] ∧
    t.get SYN_STAT.DIV = s.get SYN_DIV.w % 8)) ∧
  -- RAW_FES_WRITE (R283)
  (∀ (f : Fn) (v : Word), Completes (.rawFesWrite f 0x8B v) (fun s => Serves s f (keyPage FES_RAW_LNA.w.key) ∧
    legalWord f FES_RAW_LNA.w.key v = true ∧ 2 ≤ s.get FES_STAT.PATH) (fun _ t =>
    t.get FES_RAW_LNA.GAIN = v.toNat % 16 ∧ t.get FES_AGC.LNA = v.toNat % 16)) ∧
  -- RAW_HOLD (R284)
  (∀ (f : Fn) (v : Word), Completes (.rawHold f v) (fun s => Serves s f (keyPage FES_RAW_CTL.w.key) ∧
    legalWord f FES_RAW_CTL.w.key (v ||| 1) = true ∧ s.runsPlans = true ∧ s.awake = true ∧ s.fe.cal = none ∧
    s.bit FES_STAT.HOLD = false) (fun _ t =>
    t.bit FES_STAT.HOLD = true ∧ t.fe.rx = none ∧ t.get FES_STAT.PATH = t.get FES_RAW_CTL.PATH ∧
    t.bit MODE.LISTEN_ACT = true)) ∧
  -- RAW_HOLD_CLEAR (R284)
  (∀ (f : Fn), Completes (.rawHoldClear f) (fun s => Serves s f (keyPage FES_RAW_CTL.w.key) ∧
    s.bit FES_STAT.HOLD = true) (fun _ t => t.bit FES_STAT.HOLD = false ∧ t.get FES_STAT.PATH = 0))

/-- What calibrations and the submersion inference do. For each command named in a comment: from every canonical state
that meets the conditions, it goes on to a next state with the values listed. -/
def Obligations.CalibrationAndFloodCommandsComplete : Prop :=
  -- CAL_RUN (R290)
  (∀ (f : Fn) (a : List Word) (at_ : Nat), Completes (.calRun f) (fun s => (s.eng f).op = some ⟨3, a, at_, none⟩ ∧
    s.runsPlans = true ∧ s.calBlocked = false) (fun _ t =>
    (t.fe.cal = some (if arg a 0 % 0x80 = 0 then 0x7F else arg a 0 % 0x80, true)) ∧ t.bit CAL_STAT.RUNNING = true ∧
    t.bit MODE.MAINTAIN_ACT = true)) ∧
  -- CAL_DONE (R286)
  (∀ (good margin ms : Nat) (temp : Int) (mask : Nat) (op : Bool) (bands : List Nat),
    Completes (.calDone good margin ms temp bands) (fun s =>
    s.fe.cal = some (mask, op) ∧ s.fe.holdWait = false ∧ mask < 0x80) (fun _ t => t.fe.cal = none ∧
    t.bit CAL_STAT.RUNNING = false ∧ t.get CAL_DONE_MASK.w = mask &&& good ∧
    t.get CAL_STAT.FAIL = mask - (mask &&& good) ∧ t.get CAL_TEMP.w = code16 temp ∧
    ((mask &&& good) % 2 = 1 → t.fe.bands = (bands.take 5).map (· % 64)) ∧ t.fget .f0 INT_STAT1.CAL_DONE = 1)) ∧
  -- AUTO_PEND (R289)
  (∀ (c : Int) (at0 : Nat), Completes (.autoPend) (fun s => s.fe.calRec = some (c, at0) ∧
    s.bit CAL_CFG.AUTO_EN = true ∧ at0 + 30 * 86400 ≤ s.sec) (fun _ t => t.bit CAL_STAT.AUTO_PEND = true)) ∧
  -- AUTO_CAL_START (R289)
  (Completes (.autoCalStart) (fun s => s.bit CAL_STAT.AUTO_PEND = true ∧ s.calBlocked = false ∧ s.awake = true ∧
    s.runsPlans = true) (fun _ t =>
    t.bit CAL_STAT.AUTO_PEND = false ∧ t.fe.cal = some (0x7F, false) ∧ t.bit CAL_STAT.RUNNING = true)) ∧
  -- FLOOD_UNKNOWN_TIMEOUT (R294)
  (Completes (.floodUnknownTimeout) (fun s => s.get FLOOD_STAT.STATE ≠ 0 ∧ s.fe.evalAt + 604800 ≤ s.sec) (fun _ t =>
    t.get FLOOD_STAT.STATE = 0 ∧ t.fget .f0 INT_STAT1.FLOOD_STATE = 1)) ∧
  -- RELEARN (R292)
  (∀ (f : Fn), Completes (.relearn f) (fun s => Serves s f (keyPage FLOOD_CMD.w.key)) (fun _ t => t.fe.bases = [] ∧
    t.get FLOOD_STAT.STATE = 0 ∧ t.bit FLOOD_STAT.BASE_OK = false)) ∧
  -- BASELINE_ENTRY_DROP (R292)
  (∀ (kfc : Nat) (b : Base), Completes (.baselineEntryDrop kfc) (fun s => s.baseOf kfc = some b ∧
    b.seen + 60 * 86400 ≤ s.sec) (fun s t => (t.fe.bases = s.fe.bases.filter (fun e => e.kfc != kfc))))

/-- What RDS synchronisation, blocks, groups and following do. For each command named in a comment: from every
canonical state that meets the conditions, it goes on to a next state with the values listed. -/
def Obligations.RdsCommandsComplete : Prop :=
  -- RDS_SYNC_ACQUIRED (R300)
  (∀ (pilot : Bool), Completes (.rdsSyncAcquired pilot) (fun s => s.onBearer 2 = true ∧
    s.bit FMR_STAT.SYNC = false) (fun s t => t.bit FMR_STAT.SYNC = true ∧ t.bit FMR_STAT.PILOT = pilot ∧
    t.fm.window = [] ∧ OnlyRegs [FMR_STAT.w] s t)) ∧
  -- RDS_SYNC_LOST (R300)
  (Completes (.rdsSyncLost) (fun s => s.bit FMR_STAT.SYNC = true ∧ s.fmLost = true) (fun s t =>
    t.bit FMR_STAT.SYNC = false ∧ t.get FMR_SYNC_CNT.w = min 0xFFFF (s.get FMR_SYNC_CNT.w + 1) ∧ t.fm.window = [] ∧
    OnlyRegs [FMR_STAT.w, FMR_SYNC_CNT.w] s t)) ∧
  -- RDS_BLOCK (R301)
  (∀ (pos bits : Nat) (data : Word), Completes (.rdsBlock pos bits data) (fun s =>
    s.bit FMR_STAT.SYNC = true) (fun s t => t.get32 FMR_BLK_L.w = (s.get32 FMR_BLK_L.w + 1) % 0x100000000 ∧
    t.fm.window = (decide (3 ≤ s.blockStatus bits) :: s.fm.window).take 16)) ∧
  -- RDS_BLOCK (R301)
  (∀ (bits : Nat) (data : Word), Completes (.rdsBlock 0 bits data) (fun s => s.bit FMR_STAT.SYNC = true ∧
    s.blockStatus bits ≤ 1 ∧ s.fm.pi = data.toNat ∧ s.cfg AF_CFG.PI_CONF_N ≤ s.fm.piN + 1) (fun s t =>
    t.get FMR_PI.w = data.toNat ∧ t.bit FMR_STAT.PI_VALID = true ∧ t.fm.piN = s.fm.piN + 1)) ∧
  -- RDS_GROUP (R304)
  (∀ (at_ : Nat) (a b c d : Word), Completes (.rdsGroup at_) (fun s => s.fm.blocks = [(0, a), (0, b), (0, c), (0, d)] ∧
    s.get FMR_ODA_TYPE.w < 0x8000 ∧ b.toNat / 0x800 = 0 ∧ 224 ≤ c.toNat / 0x100 ∧ c.toNat / 0x100 ≤ 249) (fun s t =>
    (t.fm.building = some ⟨c.toNat / 0x100 - 224, if 1 ≤ c.toNat % 0x100 ∧
    c.toNat % 0x100 ≤ 204 then [c.toNat % 0x100] else [], [], s.sec, c.toNat % 0x100 == 250⟩) ∧ t.fm.gap = false ∧ t.fm.blocks = [])) ∧
  -- AF_LIST_COMPLETE (R307)
  (∀ (b : AfBuild), Completes (.afListComplete) (fun s => s.fm.building = some b ∧
    b.count ≤ b.codes.length) (fun s t => t.fm.building = none ∧
    (t.get FMR_AF_N.METHOD = if b.methodB (afCode s.rxKfc) then 2 else 1))) ∧
  -- AF_SEARCH (R309)
  (∀ (v : Int) (r : Rx) (e : AfEnt), Completes (.afSearch 2 [some v]) (fun s => s.onBearer 2 = true ∧ s.fe.rx = some r ∧
    r.stopped = false ∧ s.followRuns ≠ [] ∧ s.fm.confirm = none ∧ s.fe.afHost = none ∧ s.bit FMR_STAT.SYNC = false ∧
    s.afCands = [e] ∧ s.follows 29 = true ∧
    s.exceeds (clampRssi false v) AF_CFG.HYST = true) (fun _ t => t.fm.confirm.map Follow.kfc = some (afKfc e.code) ∧ t.bit FMR_STAT.AF_CONFIRM = true ∧
    t.fe.rx.map Rx.kfc = some (afKfc e.code) ∧ t.get FES_STAT.JOB = 0)) ∧
  -- AF_SWITCH (R310)
  (∀ (us : Nat) (fo : Follow), Completes (.afSwitch us) (fun s => s.fm.confirm = some fo ∧
    s.bit FMR_STAT.PI_VALID = true ∧ s.get FMR_PI.w = s.followPi ∧ us ≤ 10000 * s.cfg AF_TIME.PI_DWELL) (fun s t =>
    t.fm.confirm = none ∧ t.bit FMR_STAT.AF_CONFIRM = false ∧ t.bit FMR_STAT.FOLLOWING = (fo.kfc != s.rxHome) ∧
    t.fget .f0 INT_STAT1.AF_SWITCH = 1 ∧ t.get FMR_AF_CNT_SW.w = min 0xFFFF (s.get FMR_AF_CNT_SW.w + 1))) ∧
  -- AF_RETURN (R309)
  (∀ (fo : Follow), Completes (.afReturn) (fun s => s.fm.confirm = some fo) (fun s t => t.fm.confirm = none ∧
    t.bit FMR_STAT.AF_CONFIRM = false ∧ t.bit FMR_STAT.SYNC = false ∧ (t.fe.rx.map Rx.kfc = s.fe.rx.map (fun _ =>
    fo.home)) ∧ t.get FES_STAT.JOB = 0 ∧ t.get FMR_AF_CNT_RET.w = min 0xFFFF (s.get FMR_AF_CNT_RET.w + 1))) ∧
  -- AF_PERIODIC_CHECK (R309)
  (∀ (v : Int) (e : AfEnt), Completes (.afPeriodicCheck (some v)) (fun s => s.afCands = [e] ∧
    s.onBearer 2 = true ∧ s.checks s.fm.confirm.isNone (s.bit FMR_STAT.SYNC && !s.weak 28 AF_CFG.SW_DBM) = true) (fun
    s t => t.fm.turn = s.fm.turn + 1 ∧ t.fm.gap = true ∧ t.bit FES_AF_STAT.VALID = true ∧
    t.get FES_AF_RSSI.w = code16 (clampRssi false v))) ∧
  -- AF_RECALL (R311)
  (∀ (kfc : Nat), Completes (.afRecall) (fun s => s.onBearer 2 = true ∧ s.cfg AF_CTL.RECALL = 1 ∧
    s.fe.rx.any (fun r => !r.stopped) = true ∧
    s.follows 29 = true ∧ s.bit FMR_STAT.PI_VALID = false ∧ s.rxKfc = s.rxHome ∧ s.fm.confirm = none ∧
    s.fm.recallTried = false ∧ s.recallGet s.fm.recalled = some kfc) (fun _ t => t.fm.recallTried = true ∧
    t.fm.confirm.map Follow.kfc = some kfc ∧ t.bit FMR_STAT.AF_CONFIRM = true)) ∧
  -- AF_BAN_END (R309)
  (∀ (code : Nat), Completes (.afBanEnd code) (fun s =>
    ∀ e ∈ s.fm.list, e.code = code → e.banEnd ≤ s.sec) (fun _ t =>
    (∀ e ∈ t.fm.list, e.code = code → e.banned = false)))

/-- What DAB synchronisation, FIBs, packets and following do. For each command named in a comment: from every
canonical state that meets the conditions, it goes on to a next state with the values listed. -/
def Obligations.DabCommandsComplete : Prop :=
  -- DAB_SYNC (R320)
  (Completes (.dabSync) (fun s => s.onBearer 3 = true ∧ s.pikaServes = true ∧ s.bit DAB_STAT.SYNC = false) (fun s t =>
    t.bit DAB_STAT.SYNC = true ∧ OnlyRegs [DAB_STAT.w] s t)) ∧
  -- DAB_SYNC_LOST (R320)
  (Completes (.dabSyncLost) (fun s => s.bit DAB_STAT.SYNC = true) (fun s t => t.bit DAB_STAT.SYNC = false ∧
    t.bit DAB_STAT.EID_VALID = false ∧ t.get DAB_CNT_SYNC.w = min 0xFFFF (s.get DAB_CNT_SYNC.w + 1))) ∧
  -- DAB_FIB (R321)
  (∀ (at_ : Nat) (bytes : List Byte), Completes (.dabFib at_ false bytes) (fun s =>
    s.bit DAB_STAT.SYNC = true) (fun s t => t.get DAB_CNT_FIB.w = min 0xFFFF (s.get DAB_CNT_FIB.w + 1) ∧
    t.get DAB_CNT_FIB_BAD.w = min 0xFFFF (s.get DAB_CNT_FIB_BAD.w + 1) ∧ t.dab.fibs = (false :: s.dab.fibs).take 60)) ∧
  -- DAB_FIB (R321)
  (∀ (at_ : Nat) (bytes : List Byte) (g : Fig), Completes (.dabFib at_ true bytes) (fun s =>
    s.bit DAB_STAT.SYNC = true ∧ figs 30 (bytes.take 30) = [g] ∧ g.type = 0 ∧ g.ext = 0) (fun s t =>
    t.get DAB_CNT_FIB.w = min 0xFFFF (s.get DAB_CNT_FIB.w + 1) ∧ t.get DAB_CNT_FIB_BAD.w = s.get DAB_CNT_FIB_BAD.w ∧
    t.get DAB_EID.w = beAt g.body 0 2 ∧ t.bit DAB_STAT.EID_VALID = true ∧ t.bit DAB_STAT.FIC_OK = true)) ∧
  -- DAB_RECONFIGURATION (R322)
  (∀ (c : Nat) (m : Mux) (r : Rx), Completes (.dabReconfiguration) (fun s => s.dab.next = some (c, m) ∧
    s.fe.rx = some r ∧ r.sub = 0x40) (fun s t => t.dab.mux = m ∧ t.dab.next = none ∧ OnlyRegs [] s t)) ∧
  -- DAB_PACKET (R325)
  (∀ (bytes : List Byte) (r : Rx), Completes (.dabPacket false bytes) (fun s => s.fe.rx = some r ∧
    s.bit DAB_STAT.SUBCH_ON = true ∧ beAt bytes 0 2 % 0x400 ≠ 0 ∧
    r.addrs.contains (beAt bytes 0 2 % 0x400) = true) (fun s t =>
    t.get DAB_CNT_PKT.w = min 0xFFFF (s.get DAB_CNT_PKT.w + 1) ∧
    t.get DAB_CNT_PKT_BAD.w = min 0xFFFF (s.get DAB_CNT_PKT_BAD.w + 1))) ∧
  -- DAB_PACKET (R325)
  (∀ (bytes : List Byte) (r : Rx), Completes (.dabPacket true bytes) (fun s => s.fe.rx = some r ∧
    s.bit DAB_STAT.SUBCH_ON = true ∧ beAt bytes 0 2 % 0x400 ≠ 0 ∧ r.addrs.contains (beAt bytes 0 2 % 0x400) = true ∧
    bytes.length = 96 ∧ beAt bytes 0 1 / 0x40 = 3 ∧ beAt bytes 0 1 / 4 % 4 = 3 ∧ beAt bytes 2 1 = 80) (fun s t =>
    t.get DAB_CNT_PKT.w = min 0xFFFF (s.get DAB_CNT_PKT.w + 1) ∧
    t.get EDF_CNT_SEG.w = min 0xFFFF (s.get EDF_CNT_SEG.w + 1) ∧ t.get DAB_CNT_PKT_BAD.w = s.get DAB_CNT_PKT_BAD.w)) ∧
  -- DAB_AF_SEARCH (R330)
  (∀ (v : Int) (r : Rx) (c : DabCand), Completes (.dabAfSearch 2 [some v]) (fun s => s.onBearer 3 = true ∧
    s.fe.rx = some r ∧ r.stopped = false ∧ s.followRuns ≠ [] ∧ s.dab.confirm = none ∧ s.fe.afHost = none ∧
    s.fibsBad = true ∧ s.dabCands = [c] ∧ s.follows 31 = true ∧
    s.exceeds (clampRssi false v) DAB_AF_CFG.HYST = true) (fun _ t => t.dab.confirm.map Follow.kfc = some (dabKfc c.freq) ∧
    t.bit DAB_STAT.AF_CONFIRM = true ∧ t.bit DAB_STAT.SYNC = false ∧ t.fe.rx.map Rx.kfc = some (dabKfc c.freq) ∧
    t.get FES_STAT.JOB = 0)) ∧
  -- DAB_AF_SWITCH (R331)
  (∀ (ms : Nat) (fo : Follow), Completes (.dabAfSwitch ms) (fun s => ms ≤ 100 * s.cfg DAB_AF_TIME.CONF_DWELL ∧ s.dab.confirm = some fo ∧ s.candOf fo.kfc = none ∧
    s.bit DAB_STAT.SYNC = true ∧ s.bit DAB_STAT.EID_VALID = true ∧ (s.dab.services.any (fun e =>
    e.1 == s.followSid) = true)) (fun s t => t.dab.confirm = none ∧ t.bit DAB_STAT.AF_CONFIRM = false ∧
    t.bit DAB_STAT.FOLLOWING = s.offHome ∧ t.fget .f0 INT_STAT1.AF_SWITCH = 1 ∧
    t.get DAB_AF_CNT_SW.w = min 0xFFFF (s.get DAB_AF_CNT_SW.w + 1))) ∧
  -- DAB_AF_RETURN (R330)
  (∀ (fo : Follow), Completes (.dabAfReturn) (fun s => s.dab.confirm = some fo) (fun s t => t.dab.confirm = none ∧
    t.bit DAB_STAT.AF_CONFIRM = false ∧ t.bit DAB_STAT.SYNC = false ∧ (t.fe.rx.map Rx.kfc = s.fe.rx.map (fun _ =>
    fo.home)) ∧ t.get DAB_AF_CNT_RET.w = min 0xFFFF (s.get DAB_AF_CNT_RET.w + 1))) ∧
  -- DAB_AF_PERIODIC_CHECK (R330)
  (∀ (v : Int) (c : DabCand), Completes (.dabAfPeriodicCheck (some v)) (fun s => s.dabCands = [c] ∧
    s.onBearer 3 = true ∧
    s.checks s.dab.confirm.isNone (!s.fibsBad && !s.weak 30 DAB_AF_CFG.SW_DBM) = true) (fun s t =>
    t.dab.turn = s.dab.turn + 1 ∧ t.fm.gap = true ∧ t.bit FES_AF_STAT.VALID = true ∧
    t.get FES_AF_RSSI.w = code16 (clampRssi false v))) ∧
  -- DAB_AF_RECALL (R331)
  (∀ (kfc : Nat), Completes (.dabAfRecall) (fun s => s.onBearer 3 = true ∧ s.cfg DAB_AF_CTL.RECALL = 1 ∧
    s.fe.rx.any (fun r => !r.stopped) = true ∧
    s.follows 31 = true ∧ s.bit DAB_STAT.SYNC = false ∧ s.offHome = false ∧ s.dab.confirm = none ∧
    s.dab.recallTried = false ∧ s.recallGet s.dab.recalled = some kfc) (fun _ t => t.dab.recallTried = true ∧
    t.dab.confirm.map Follow.kfc = some kfc ∧ t.bit DAB_STAT.AF_CONFIRM = true)) ∧
  -- DAB_AF_BAN_END (R330)
  (∀ (freq : Nat), Completes (.dabAfBanEnd freq) (fun s =>
    ∀ c ∈ s.dab.cands, c.freq = freq → c.banEnd ≤ s.sec) (fun _ t =>
    (∀ c ∈ t.dab.cands, c.freq = freq → c.banned = false))) ∧
  -- DAB_FREQ_MEASURE (R335)
  (∀ (err : Int) (sd : Nat), Completes (.dabFreqMeasure err sd) (fun s => s.bit DAB_STAT.SYNC = true ∧
    s.dab.syncAt + 32768 ≤ s.aon) (fun s t =>
    t.get DAB_FERR.w = satCode err ∧ t.get DAB_FERR_SD.w = min sd 0xFFFF ∧
    t.time.xoMeas = (err, sd, s.sec) :: s.time.xoMeas)) ∧
  -- DAB_PIKA_TIMEOUT (R337)
  (Completes (.dabPikaTimeout) (fun s => s.onBearer 3 = true) (fun s t =>
    t.get DAB_CNT_DSP.w = min 0xFFFF (s.get DAB_CNT_DSP.w + 1)))

/-- What LF templates, markers, frames and the carrier do. For each command named in a comment: from every canonical
state that meets the conditions, it goes on to a next state with the values listed. -/
def Obligations.LfCommandsComplete : Prop :=
  -- LFT_TPL_SEL_WRITE (R343)
  (∀ (f : Fn) (v : Word), Completes (.lftTplSelWrite f v) (fun s => Serves s f (keyPage LFT_TPL_SEL.w.key) ∧
    legalWord f LFT_TPL_SEL.w.key v = true) (fun s t => t.get LFT_TPL_SEL.SLOT = v.toNat % 4 ∧
    (∀ i ∈ List.range 16, t.reg (LFT_TPL.w i).key = (s.slotList.getD (v.toNat % 4) []).getD i 0))) ∧
  -- LFT_TPL_COMMIT (R343)
  (∀ (f : Fn), Completes (.lftTplCommit f) (fun s => Serves s f (keyPage LFT_TPL_CTL.w.key) ∧
    s.bit PART_STAT.LOCKED = false ∧ (tplOk ((List.range 16).map (fun i =>
    s.reg (LFT_TPL.w i).key)) = true)) (fun s t => t.bit LFT_TPL_STAT.REJ = false ∧
    (t.lf.slots = s.slotList.set (s.get LFT_TPL_SEL.SLOT) ((List.range 16).map (fun i => s.reg (LFT_TPL.w i).key))))) ∧
  -- LFT_TPL_CLEAR (R343)
  (∀ (f : Fn), Completes (.lftTplClear f) (fun s => Serves s f (keyPage LFT_TPL_CTL.w.key) ∧
    s.bit PART_STAT.LOCKED = false) (fun s t =>
    (t.lf.slots = s.slotList.set (s.get LFT_TPL_SEL.SLOT) ((List.range 16).map (fun _ => 0))))) ∧
  -- LF_MARKER (R344)
  (∀ (edge durUs n e : Nat) (tpl : List Word), Completes (.lfMarker edge durUs) (fun s => s.lf.copy = some (n, tpl) ∧
    s.onBearer 1 = true ∧ s.lf.lastEdge = some e ∧ oneApart e edge = true ∧
    s.bit LFT_STAT.FRAMESYNC = false) (fun s t => t.lf.row = s.lf.row + 1 ∧ t.lf.lastEdge = some edge ∧
    t.lf.secs = [⟨markerClass tpl durUs, edge⟩] ∧
    t.bit LFT_STAT.SECSYNC = (s.bit LFT_STAT.SECSYNC || decide (5 ≤ s.lf.row + 1)) ∧ OnlyRegs [LFT_STAT.w] s t)) ∧
  -- LF_SECSYNC_LOST (R344)
  (∀ (e : Nat), Completes (.lfSecsyncLost) (fun s => s.lf.lastEdge = some e ∧ s.bit LFT_STAT.SECSYNC = true ∧
    e + 5 * 2 ^ 24 ≤ s.ktime) (fun s t => t.bit LFT_STAT.SECSYNC = false ∧ t.lf.row = 0 ∧ t.lf.spoiled = true ∧
    OnlyRegs [LFT_STAT.w] s t)) ∧
  -- LF_FRAME (R349)
  (∀ (n e : Nat) (tpl : List Word) (x : LfSec), Completes (.lfFrame) (fun s => s.lf.copy = some (n, tpl) ∧
    s.lf.lastEdge = some e ∧ s.onBearer 1 = true ∧ tplWord tpl 7 / 0x8000 = 0 ∧ s.lf.secs.getLast? = some x ∧
    x.cls = 3 ∧ s.bit LFT_STAT.SECSYNC = true ∧ s.bit LFT_STAT.FRAMESYNC = false) (fun s t =>
    t.bit LFT_STAT.FRAMESYNC = true ∧ t.lf.secs = [] ∧ OnlyRegs [LFT_STAT.w] s t)) ∧
  -- LF_FRAME (R349)
  (∀ (n e : Nat) (tpl : List Word) (x : LfSec), Completes (.lfFrame) (fun s => s.lf.copy = some (n, tpl) ∧
    s.lf.lastEdge = some e ∧ s.onBearer 1 = true ∧ tplWord tpl 7 / 0x8000 = 0 ∧ s.lf.secs.getLast? = some x ∧
    x.cls = 3 ∧ s.bit LFT_STAT.FRAMESYNC = true ∧ tplLen tpl ≤ s.lf.secs.length) (fun s t =>
    t.get LFT_CNT_FRAME.w = min 0xFFFF (s.get LFT_CNT_FRAME.w + 1) ∧ t.lf.secs = [] ∧ t.lf.spoiled = false)) ∧
  -- LF_CARRIER_MEASURE (R348)
  (∀ (err : Int) (sd : Nat), Completes (.lfCarrierMeasure err sd) (fun s => s.onBearer 1 = true ∧
    s.bit LFT_STAT.CARRIER = true ∧ s.lf.carAt + 4 * 32768 ≤ s.aon) (fun s t => t.get LFT_FERR.w = satCode err ∧ t.get LFT_FERR_SD.w = min sd 0xFFFF ∧
    t.time.xoMeas = (err, sd, s.sec) :: s.time.xoMeas)) ∧
  -- LF_CARRIER_CHANGE (R348)
  (∀ (db : Int), Completes (.lfCarrierChange db) (fun s => s.onBearer 1 = true ∧
    (s.get LFT_CFG.CAR_DB : Int) < db) (fun s t => t.bit LFT_STAT.CARRIER = true ∧ OnlyRegs [LFT_STAT.w] s t)) ∧
  -- LF_CARRIER_CHANGE (R348)
  (∀ (db : Int), Completes (.lfCarrierChange db) (fun s => s.onBearer 1 = true ∧ db < (s.get LFT_CFG.CAR_DB : Int) ∧
    s.bit LFT_STAT.CARRIER = true) (fun s t => t.bit LFT_STAT.CARRIER = false ∧
    t.get LFT_CNT_CARLOSS.w = min 0xFFFF (s.get LFT_CNT_CARLOSS.w + 1) ∧ t.get LFT_FERR.w = 0x8000))

/-- What candidates, corrections, leap seconds, models and LOSS do. For each command named in a comment: from every
canonical state that meets the conditions, it goes on to a next state with the values listed. -/
def Obligations.TimeCommandsComplete : Prop :=
  -- TIME_CANDIDATE_APPLY (R356)
  (∀ (c : Cand), Completes (.timeCandidateApply) (fun s => s.time.cands = [c] ∧ s.candPasses c = true ∧
    s.capt.job = none ∧ s.get TIME_SLEW_LIM.w = 0) (fun s t => t.time.cands = [] ∧ t.time.src = c.src ∧
    t.time.bound = some (2 ^ c.code * usUnit) ∧ t.time.slew = 0 ∧
    t.ktime = ((s.ktime : Int) + (c.named - c.held)).toNat ∧
    t.get TIME_CNT_STEP.w = min 0xFFFF (s.get TIME_CNT_STEP.w + 1) ∧
    t.get TIME_CNT_APPLY.w = min 0xFFFF (s.get TIME_CNT_APPLY.w + 1))) ∧
  -- TIME_CANDIDATE_APPLY (R356)
  (∀ (c : Cand), Completes (.timeCandidateApply) (fun s => s.time.cands = [c] ∧ s.candPasses c = true ∧
    s.capt.job = none ∧ s.get TIME_SLEW_LIM.w ≠ 0 ∧
    (c.named - c.held).natAbs * 1000000 ≤ s.get TIME_SLEW_LIM.w * 2 ^ 24) (fun s t => t.time.cands = [] ∧
    t.time.src = c.src ∧ t.time.bound = some (2 ^ c.code * usUnit) ∧ t.time.slew = 1000 * (c.named - c.held) ∧
    t.ktime = s.ktime ∧ t.get TIME_CNT_APPLY.w = min 0xFFFF (s.get TIME_CNT_APPLY.w + 1))) ∧
  -- TIME_CANDIDATE_APPLY (R356)
  (∀ (c : Cand), Completes (.timeCandidateApply) (fun s => s.time.cands = [c] ∧ s.candPasses c = false) (fun s t =>
    t.time.cands = [] ∧ t.time.bound = s.time.bound ∧ t.ktime = s.ktime ∧
    t.get TIME_CNT_REJ.w = min 0xFFFF (s.get TIME_CNT_REJ.w + 1))) ∧
  -- SLEW_END (R357)
  (Completes (.slewEnd) (fun s => s.time.slew = 0) (fun s t => t.bit KTIME_TQ.SLEWING = false ∧
    t.bit TIME_STAT.SLEWING = false ∧ t.ktime = s.ktime)) ∧
  -- TIME_DEFERRED_APPLY (R358)
  (∀ (c : Cand), Completes (.timeDeferredApply) (fun s => s.time.deferred = some c ∧ s.capt.job = none) (fun _ t =>
    t.time.deferred = none ∧ t.bit TIME_STAT.DEFERRED = false)) ∧
  -- TIME_SET (R359)
  (∀ (f : Fn) (a : List Word) (at_ : Nat), Completes (.timeSet f) (fun s => (s.eng f).op = some ⟨2, a, at_, none⟩ ∧
    s.time.cands.any (fun c => c.fn == some f) = false ∧ arg a 4 % 32 ≠ 31 ∧ arg a 4 / 0x100 % 2 = 0 ∧ arg a 4 / 0x400 % 4 = 0) (fun s t => t.time.cands = s.time.cands ++
    [⟨1, arg a 4 % 32, ((arg a 0 + 0x10000 * arg a 1 + 0x100000000 * arg a 2 + 0x1000000000000 * arg a 3 : Nat) :
    Int), at_, some f, false, s.aon⟩] ∧ t.ktime = s.ktime ∧ OnlyRegs [] s t)) ∧
  -- AON_TEMP_SAMPLE (R519)
  (∀ (temp : Int), Completes (.aonTempSample temp) (fun s => s.tempGrid = true) (fun _ t => t.time.temp = temp ∧
    t.get TIME_TEMP.w = code16 temp ∧ t.time.rate = t.holdRate)) ∧
  -- X32_PAIR_WINDOW (R361)
  (∀ (relErr : Int) (moved sd t0 : Nat) (x : Int) (e : ℚ) (rest : List (Int × Nat × Nat)),
    Completes (.x32PairWindow relErr moved) (fun s => s.xoBroadcast = some e ∧ s.time.xoMeas = (x, sd, t0) :: rest ∧
    s.bit CLK_STAT.XO_OK = true ∧ s.onX32 = true ∧ sd ≤ 50 ∧ moved < 4) (fun s t =>
    t.time.lastPair = some (relErr + Config.round e) ∧
    t.time.x32Fed = s.time.x32Fed ++ [(s.time.temp, relErr + Config.round e, s.sec)] ∧
    t.get TIME_MODEL_N.w = min 0xFFFF (s.get TIME_MODEL_N.w + 1))) ∧
  -- LEAP_APPLIED (R365)
  (Completes (.leapApplied) (fun s => s.leapDue = true) (fun s t => t.get TIME_LEAP_PEND.w = 0 ∧
    t.bit TIME_STAT.LEAP_PEND = false ∧ (t.time.leap = signed16 (code16 (s.time.leap + if s.get TIME_LEAP_PEND.w = 1
    then 1 else -1))))) ∧
  -- LEAP_CLR (R364)
  (∀ (f : Fn), Completes (.leapClr f) (fun s => Serves s f (keyPage TIME_CMD.w.key)) (fun s t =>
    t.get TIME_LEAP_PEND.w = 0 ∧ t.bit TIME_STAT.LEAP_PEND = false ∧ t.time.leap = s.time.leap)) ∧
  -- MODEL_RESET (R361)
  (∀ (f : Fn), Completes (.modelReset f) (fun s => Serves s f (keyPage TIME_CMD.w.key)) (fun s t =>
    t.time.x32Fed = [] ∧ t.time.xoFed = [] ∧ t.bit TIME_STAT.X32_MODEL_OK = false ∧
    t.bit TIME_STAT.XO_MODEL_OK = false ∧ t.get TIME_MODEL_N.w = 0 ∧ t.get32 TIME_TRIM_L.w = s.get32 TIME_TRIM_L.w)) ∧
  -- TIME_PULSE (R368)
  (Completes (.timePulse) (fun s => s.get MODE.CUR ≠ 0 ∧ s.pins.porAsserted = false ∧ s.pins.test = false ∧
    s.pins.vddio = true ∧ s.pulsePin = true ∧ s.pulseInstant = true ∧ s.time.pulseSkip = false ∧ s.bit TIME_PPS.QUAL = false) (fun s t => t.pins.timePulses = s.pins.timePulses + 1 ∧
    OnlyRegs [] s t)) ∧
  -- TIME_LOSS (R370)
  (Completes (.timeLoss) (fun s => codeOf s.time.whole = 31 ∧ s.time.prevCode < 31 ∧ s.time.loss2 = false) (fun _ t =>
    t.time.loss2 = true ∧ t.time.prevCode = 31)) ∧
  -- TIME_LOSS_THR_WRITE (R370)
  (∀ (f : Fn) (v : Word), Completes (.timeLossThrWrite f v) (fun s => Serves s f (keyPage TIME_LOSS_THR.w.key) ∧
    legalWord f TIME_LOSS_THR.w.key v = true) (fun _ t => t.get TIME_LOSS_THR.w = v.toNat % 0x20))

/-- What blocks, flushing, acceptance and expiry do in the Hoard. For each command named in a comment: from every
canonical state that meets the conditions, it goes on to a next state with the values listed. -/
def Obligations.HoardCommandsComplete : Prop :=
  -- RDS_SEGMENT_TIMEOUT (R377)
  (∀ (n t0 : Nat) (l : List (Option Byte)), Completes (.rdsSegmentTimeout) (fun s => s.edf.asm = some (n, l, t0) ∧
    t0 + 30 ≤ s.sec) (fun s t => t.edf.asm = none ∧ t.get EDF_CNT_SEG.w = min 0xFFFF (s.get EDF_CNT_SEG.w + 1) ∧
    t.get EDF_CNT_BAD.w = min 0xFFFF (s.get EDF_CNT_BAD.w + 1) ∧ OnlyRegs [EDF_CNT_SEG.w, EDF_CNT_BAD.w] s t)) ∧
  -- BLOCK_COMPLETE (R382)
  (∀ (st_ ob blk : Nat) (pikaOk : Bool) (o : Obj) (b : Blk), Completes (.blockComplete st_ ob blk pikaOk) (fun s =>
    s.obj st_ ob = some o ∧ (o.blks.find? (fun x => x.no == blk) = some b) ∧ b.complete = false ∧
    b.k ≤ b.segs.length ∧ b.systematic = true ∧ (o.blks.find? (fun x => x.no == 0) = none)) (fun _ t =>
    ((t.obj st_ ob) = some { o with blks := o.blks.map (fun x =>
    if x.no = blk then { b with complete := true, retryAt := 0 } else x) }))) ∧
  -- DECODE_RETRY (R382)
  (∀ (st_ ob blk : Nat) (o : Obj) (b : Blk), Completes (.decodeRetry st_ ob blk true) (fun s =>
    s.obj st_ ob = some o ∧ (o.blks.find? (fun x => x.no == blk) = some b) ∧ b.retryAt ≠ 0 ∧
    b.retryAt ≤ s.edf.rxEnds ∧ b.complete = false ∧ b.k ≤ b.segs.length ∧ s.pikaServes = true ∧
    (o.blks.find? (fun x => x.no == 0) = none)) (fun _ t =>
    ((t.obj st_ ob) = some { o with blks := o.blks.map (fun x =>
    if x.no = blk then { b with complete := true, retryAt := 0 } else x) }))) ∧
  -- OBJECT_ACCEPTANCE (R387)
  (∀ (st_ ob : Nat) (o : Obj), Completes (.objectAcceptance st_ ob) (fun s => s.obj st_ ob = some o ∧ o.state = 1 ∧
    o.ready = true ∧ s.check (s.objBytes o) o.type false = 0 ∧
    (objHead (s.objBytes o)).type = 4) (fun _ t => (t.obj st_ ob).map Obj.state = some 2 ∧
    (t.obj st_ ob).map Obj.claims = some [.f0] ∧ t.get EDF_LAST_RES.w = 0 ∧ t.get EDF_LAST_OBJ.w = o.id % 0x10000)) ∧
  -- OBJECT_ACCEPTANCE (R387)
  (∀ (st_ ob : Nat) (o : Obj), Completes (.objectAcceptance st_ ob) (fun s => s.obj st_ ob = some o ∧ o.state = 1 ∧
    o.ready = true ∧ s.check (s.objBytes o) o.type false = 5) (fun s t =>
    t.obj st_ ob = none ∧ t.get EDF_LAST_RES.w = 5 ∧ t.get EDF_CNT_REJ.w = min 0xFFFF (s.get EDF_CNT_REJ.w + 1))) ∧
  -- HOARD_FLUSH (R398)
  (∀ (o : Obj) (b : Blk) (g : Seg) (n k : Nat), Completes (.hoardFlush) (fun s => s.edf.objs = [o] ∧ o.blks = [b] ∧
    b.segs = [g] ∧ g.sector = none ∧ s.edf.fill = some (n, k) ∧ k < 52 ∧ s.fe.rx = none ∧ s.flashBusy = false) (fun _ t =>
    t.edf.objs = [{ o with blks := [{ b with segs := [{ g with sector := some n }] }] }] ∧
    t.edf.fill = some (n, k + 1) ∧ t.bit EDF_STAT.FLUSH_PEND = false)) ∧
  -- EDF_FLUSH (R398)
  (∀ (f : Fn) (o : Obj) (b : Blk) (g : Seg) (n k : Nat), Completes (.edfFlush f) (fun s =>
    Serves s f (keyPage EDF_CMD.w.key) ∧ s.edf.objs = [o] ∧ o.blks = [b] ∧ b.segs = [g] ∧ g.sector = none ∧
    s.edf.fill = some (n, k) ∧ k < 52) (fun _ t =>
    t.edf.objs = [{ o with blks := [{ b with segs := [{ g with sector := some n }] }] }] ∧
    t.edf.fill = some (n, k + 1))) ∧
  -- HOARD_COMPACT (R399)
  (Completes (.hoardCompact) (fun s => s.bit EDF_STAT.COMPACT = true ∧ (∀ o ∈ s.edf.objs, o.state ≠ 1)) (fun s t =>
    t.bit EDF_STAT.COMPACT = false ∧ t.edf.objs.map Obj.id = s.edf.objs.map Obj.id)) ∧
  -- WEAR_LEVEL_MOVE (R402)
  (Completes (.wearLevelMove) (fun s => 2000 < ((List.range s.sectors).map s.wearOf).foldl max 0 - ((List.range
    s.sectors).map s.wearOf).foldl min (((List.range s.sectors).map s.wearOf).headD 0)) (fun s t =>
    (t.eng .f0).dayE = (s.eng .f0).dayE + (Config.freeWord s.freeCtr).toNat)) ∧
  -- OBJECT_EXPIRY (R401)
  (∀ (st_ ob : Nat) (o : Obj), Completes (.objectExpiry st_ ob) (fun s => s.obj st_ ob = some o ∧ o.state = 2 ∧
    s.expired o = true ∧ s.staged o = false) (fun s t => t.obj st_ ob = none ∧
    (o.stream, o.id, s.sec) ∈ t.edf.done)) ∧
  -- DONE_LIST_EXPIRY (R401)
  (∀ (st_ ob : Nat), Completes (.doneListExpiry st_ ob) (fun _ => True) (fun s t =>
    (∀ e ∈ t.edf.done, e.1 = st_ → e.2.1 = ob → s.sec < e.2.2 + 90 * 86400) ∧ OnlyRegs [] s t))

/-- What van windows, statistics and the Hoard ops do. For each command named in a comment: from every canonical state
that meets the conditions, it goes on to a next state with the values listed. -/
def Obligations.DatacastCommandsComplete : Prop :=
  -- VAN_WINDOW_START (R390)
  (∀ (v : Van), Completes (.vanWindowStart) (fun s => s.edf.vans = [v] ∧ v.start = s.sec % 0x100000000 ∧
    v.period = 0 ∧ codeOf s.time.whole ≠ 31 ∧ s.get WAKE_CFG.w % 2 = 1 ∧ s.dormouse = true) (fun _ t =>
    t.edf.vans = [] ∧ t.mode.heldReason = some 1)) ∧
  -- VAN_CLR (R390)
  (∀ (f : Fn), Completes (.vanClr f) (fun s => Serves s f (keyPage EDF_CMD.w.key)) (fun _ t => t.edf.vans = [] ∧
    t.get EDF_VAN_N.N = 0)) ∧
  -- EDF_ERASE (R405)
  (Completes (.edfErase .f0) (fun s => Serves s .f0 (keyPage EDF_CMD.w.key) ∧ s.img.staging = false) (fun s t =>
    t.edf.objs = [] ∧ t.edf.asm = none ∧ t.edf.done = s.edf.done ∧ t.get EDF_OBJ_HELD.w = 0)) ∧
  -- EDF_SEGMENT_STAT (R397)
  (∀ (e : RxEnd), Completes (.edfSegmentStat) (fun s => s.edf.ended = [e]) (fun s t => t.edf.ended = [] ∧
    t.edf.objs = s.edf.objs)) ∧
  -- HOARD_QUERY_STATUS (R403)
  (∀ (f : Fn) (a : List Word) (at_ : Nat), Completes (.hoardQueryStatus f) (fun s =>
    (s.eng f).op = some ⟨6, a, at_, none⟩ ∧ arg a 0 % 4 = 0 ∧ s.grant f 0x12 ≠ 0) (fun s t =>
    Ended t f 0 (s.objStatus (arg a 1) (arg a 2)).1)) ∧
  -- HOARD_QUERY_RELEASE (R403)
  (∀ (a : List Word) (at_ : Nat) (o : Obj), Completes (.hoardQueryRelease .f0) (fun s =>
    (s.eng .f0).op = some ⟨6, a, at_, none⟩ ∧ arg a 0 % 4 = 1 ∧ s.obj (arg a 1) (arg a 2) = some o ∧ o.state = 2 ∧
    s.staged o = false) (fun s t => t.obj (arg a 1) (arg a 2) = none ∧ (o.stream, o.id, s.sec) ∈ t.edf.done ∧
    ((t.eng .f0).op.bind Op.outcome).map Prod.fst = some 0)) ∧
  -- HOARD_QUERY_LIST (R403)
  (∀ (f : Fn) (a : List Word) (at_ : Nat) (o : Obj), Completes (.hoardQueryList f) (fun s =>
    (s.eng f).op = some ⟨6, a, at_, none⟩ ∧ arg a 0 % 4 = 2 ∧ s.grant f 0x12 ≠ 0 ∧
    (leastBy Obj.id (s.edf.objs.filter (fun o => o.stream == arg a 1 && arg a 2 < o.id)) = some o)) (fun s t =>
    Ended t f 0 [((s.objStatus o.stream o.id).1).getD 0 0, BitVec.ofNat 16 o.id, 0, 0])) ∧
  -- HOARD_QUERY_USAGE (R403)
  (∀ (f : Fn) (a : List Word) (at_ : Nat), Completes (.hoardQueryUsage f) (fun s =>
    (s.eng f).op = some ⟨6, a, at_, none⟩ ∧ arg a 0 % 4 = 3 ∧ s.grant f 0x12 ≠ 0) (fun s t =>
    (Ended t f 0 ([min (kib (s.usage f)) 0xFFFF, s.get (PART_QH_F.w f.toNat), ((s.edf.objs.filter (fun o =>
    s.payer o == f)).filter (fun o => o.state == 1)).length, ((s.edf.objs.filter (fun o =>
    s.payer o == f)).filter (fun o => o.state == 2)).length].map (BitVec.ofNat 16))))) ∧
  -- VERIFY_OBJECT (R404)
  (∀ (f : Fn) (a : List Word) (at_ res : Nat) (o : Obj),
    Completes (.verifyObject f) (fun s => (s.eng f).op = some ⟨5, a, at_, none⟩ ∧ s.flintWaits f = false ∧
    arg a 0 % 4 = 1 ∧ arg a 0 / 16 % 2 = 0 ∧ s.obj (arg a 1) (arg a 2) = some o ∧ o.state ≠ 1 ∧ s.staged o = false ∧
    res = s.check (s.objBytes o) o.type false) (fun s t =>
    Ended t f (verifyErr res) (verifyWords (s.objBytes o) res) ∧ t.edf = s.edf))

/-- What the serial audio ports and their rings do. For each command named in a comment: from every canonical state
that meets the conditions, it goes on to a next state with the values listed. -/
def Obligations.AudioPortCommandsComplete : Prop :=
  -- AP_ARM_WRITE (R412)
  (∀ (f : Fn) (v : Word), Completes (.apArmWrite f .ap0 v) (fun s => Serves s f (keyPage (AP.CTL.w 0).key) ∧
    legalWord f (AP.CTL.w 0).key v = true ∧ v.toNat % 2 = 1 ∧ s.armed .ap0 = false ∧ s.ap.p0.run = false ∧
    s.get (AP.CTL.RX 0) = v.toNat / 4 % 2 ∧ s.get (AP.CTL.TX 0) = v.toNat / 2 % 2 ∧ s.armError .ap0 = 0) (fun s t =>
    t.bit (AP.CTL.ARM 0) = true ∧ t.ap.p0.late = s.capt.job.isSome)) ∧
  -- AP_PORT_START (R408)
  (∀ (port : AudioPort), Completes (.apPortStart port) (fun s => s.mayStart port = true ∧ s.portClock port = true ∧
    port ≠ .bph) (fun _ t => (t.port port).run = true ∧ t.get (txstFld port) = 0 ∧ t.fcnt port = 0 ∧
    t.bit (AP.STAT.RUN (portNo port)) = true)) ∧
  -- AP_PORT_START (R408)
  (Completes (.apPortStart .bph) (fun s => s.mayStart .bph = true ∧ s.portClock .bph = true) (fun _ t =>
    t.ap.bph.run = true ∧ t.bph.frame = 0 ∧ t.bph.blocks = 0 ∧ t.bit BPH_STAT.OUT_RUN = true)) ∧
  -- AP_PORT_STOP (R415)
  (∀ (port : AudioPort), Completes (.apPortStop port) (fun s => s.capt.job = none ∧
    (s.port port).run = true) (fun _ t => (t.port port).run = false ∧ (t.port port).out = [])) ∧
  -- AP_TX_FRAME_EDGE (R416)
  (∀ (port : AudioPort), Completes (.apTxFrameEdge port) (fun s => port ≠ .bph ∧ (s.port port).run = true ∧
    s.txOn port = true ∧ s.get (txstFld port) = 0 ∧ s.fadeLen port < s.ringLevel port) (fun s t =>
    t.get (rptrFld port) = (s.get (rptrFld port) + s.frameBytes port false) % 16384 ∧
    t.fcnt port = (s.fcnt port + 1) % 0x100000000 ∧ t.get (txstFld port) = 0 ∧ MemKept (fun _ => true) s t)) ∧
  -- AP_TX_FRAME_EDGE (R416)
  (∀ (port : AudioPort), Completes (.apTxFrameEdge port) (fun s => port ≠ .bph ∧ (s.port port).run = true ∧
    s.txOn port = true ∧ s.get (txstFld port) = 2 ∧ s.ringLevel port < s.get (lowat port)) (fun s t =>
    (t.port port).out = List.replicate (s.slotsOn port false).length 0 ∧
    (t.port port).tx.idle = (s.port port).tx.idle + 1 ∧ t.fcnt port = (s.fcnt port + 1) % 0x100000000)) ∧
  -- AP_RX_FRAME_EDGE (R417)
  (∀ (port : AudioPort) (slots : List Int), Completes (.apRxFrameEdge port slots) (fun s => port ≠ .bph ∧
    (s.port port).run = true ∧ s.rxOn port = true ∧ s.txOn port = false ∧ s.capt.job = none) (fun s t =>
    t.fcnt port = (s.fcnt port + 1) % 0x100000000 ∧ t.capt = s.capt)) ∧
  -- AP_HARD_LOSS (R418)
  (∀ (port : AudioPort) (samples : Nat), Completes (.apHardLoss port false samples) (fun s =>
    (s.port port).run = true ∧ s.txOn port = true) (fun _ t => t.get (txstFld port) = 3 ∧ t.bit (evtFld port 2) = true ∧
    (t.port port).tx = ⟨0, 0⟩)) ∧
  -- AP0_WPTR_WRITE (R414)
  (∀ (f : Fn) (v : Word), Completes (.ap0WptrWrite f v) (fun s => Serves s f (keyPage (AP.WPTR.w 0).key) ∧
    legalWord f (AP.WPTR.w 0).key v = true ∧ v.toNat < 16384 ∧ s.txOn .ap0 = false ∧ s.txOn .ap1 = false) (fun _ t =>
    t.get (AP.WPTR.w 0) = v.toNat)) ∧
  -- RING_RST (R414)
  (∀ (f : Fn), Completes (.ringRst f .ap0) (fun s => Serves s f (keyPage (AP.CMD.w 0).key) ∧ s.ap.p0.run = false ∧
    s.ap.p1.run = false) (fun _ t => t.get (AP.WPTR.w 0) = 0 ∧ t.get (AP.RPTR.w 0) = 0 ∧ t.get (AP.RPTR.w 1) = 0)) ∧
  -- RING_RST (R414)
  (∀ (f : Fn), Completes (.ringRst f .bph) (fun s => Serves s f (keyPage BPH_CMD.w.key) ∧
    s.ap.bph.run = false) (fun _ t => t.get BPH_WPTR.w = 0 ∧ t.get BPH_RPTR.w = 0))

/-- What the biphase link and the capture engine do. For each command named in a comment: from every canonical state
that meets the conditions, it goes on to a next state with the values listed. -/
def Obligations.BiphaseAndCaptureCommandsComplete : Prop :=
  -- BPH_LOCK (R424)
  (Completes (.bphLock 192 false) (fun s => s.bphRuns = true ∧ s.bit BPH_STAT.LOCK = false) (fun _ t =>
    t.bit BPH_STAT.LOCK = true ∧ t.bph.rateRef = none ∧ t.bph.half = none)) ∧
  -- BPH_LOCK_LOST (R424)
  (∀ (missing violated : Nat), Completes (.bphLockLost missing violated) (fun s => s.bit BPH_STAT.LOCK = true ∧
    3 ≤ missing) (fun s t => t.bit BPH_STAT.LOCK = false ∧
    t.get BPH_CNT_LOCK.w = min 0xFFFF (s.get BPH_CNT_LOCK.w + 1) ∧ t.bit BPH_EVT.LOCK_LOST = true)) ∧
  -- BPH_SUBFRAME (R425)
  (∀ (word : BitVec 24) (valid user status parityOk : Bool),
    Completes (.bphSubframe .b word valid user status parityOk) (fun s => s.bit BPH_STAT.LOCK = true) (fun s t =>
    (t.bph.half = some (if parityOk then word.toInt else 0, !parityOk, !valid)) ∧ t.bph.cs = [status] ∧
    t.bph.user = [user] ∧ t.bph.blockAt = s.ktime)) ∧
  -- BPH_SUBFRAME (R425)
  (∀ (word : BitVec 24) (valid user status parityOk : Bool),
    Completes (.bphSubframe .m word valid user status parityOk) (fun s => s.bit BPH_STAT.LOCK = true) (fun s t =>
    (t.bph.half = some (if parityOk then word.toInt else 0, !parityOk, !valid)) ∧ t.bph.cs = s.bph.cs ++ [status] ∧
    t.bph.user = s.bph.user ++ [user])) ∧
  -- BPH_SUBFRAME (R425)
  (∀ (word : BitVec 24) (valid user status : Bool), Completes (.bphSubframe .w word valid user status false) (fun s =>
    s.bit BPH_STAT.LOCK = true ∧ s.capt.job = none) (fun s t =>
    t.get BPH_CNT_PARITY.w = min 0xFFFF (s.get BPH_CNT_PARITY.w + 1) ∧ t.bph.half = none ∧ t.bph.cs = s.bph.cs)) ∧
  -- BPH_BLOCK_END (R426)
  (Completes (.bphBlockEnd) (fun s => s.bit BPH_STAT.LOCK = true ∧ s.bph.cs.length = 192) (fun s t => t.bph.cs = [] ∧
    t.bph.user = [] ∧ t.get BPH_STAT.PRO = byteLsb s.bph.cs 0 % 2)) ∧
  -- BPH_RATE_MEASURE (R427)
  (∀ (mHz : Nat), Completes (.bphRateMeasure mHz) (fun s => s.bit BPH_STAT.LOCK = true ∧
    s.get TIME_XO_ERR.w = 0x8000) (fun _ t => t.get32 BPH_RATE_L.w = mHz % 0x100000000 ∧
    t.get BPH_STAT.CLASS = (classOf mHz).1)) ∧
  -- BPH_OUT_FRAME (R428)
  (Completes (.bphOutFrame) (fun s => s.ap.bph.run = true) (fun s t => t.bph.frame = (s.bph.frame + 1) % 192 ∧
    (t.bph.blocks = if s.bph.frame = 191 then s.bph.blocks + 1 else s.bph.blocks) ∧
    t.bph.bits.2 = s.outStatus s.bph.frame)) ∧
  -- CAPTURE_START (R433)
  (∀ (j : Job) (rest : List Job), Completes (.captureStart) (fun s => s.capt.due = j :: rest ∧
    s.captDue = true ∧ s.bit CLK_STAT.XO_OK = true) (fun s t =>
    t.capt.job = some { j with id := t.get CAPT_ID.w } ∧ t.capt.due = rest ∧ t.bit CAPT_STAT.RUN = true ∧
    t.get CAPT_ID.w = (s.get CAPT_ID.w + 1) % 0x10000 ∧ t.get32 CAPT_FIDX_L.w = 0 ∧ t.bit MODE.CAPTURE_ACT = true)) ∧
  -- CAPTURE_BLOCK_WRITE (R435)
  (∀ (j : Job) (b : BlkNew), Completes (.captureBlockWrite) (fun s => s.capt.job = some j ∧ s.capt.new = some b ∧
    s.get CAPT_BLK_FR.w ≤ b.frames ∧ s.bit CAPT_CFG.OVERWRITE = false ∧
    4 * s.get CAPT_WPTR.w + b.bytes.length ≤ 0x20000 ∧
    b.bytes.length ≤ 0x20000 - (s.capt.used.map BlkUse.len).sum) (fun s t => t.capt.new = none ∧
    t.capt.count = s.capt.count + 1 ∧
    t.capt.used = s.capt.used ++ [⟨4 * s.get CAPT_WPTR.w, b.bytes.length, 4 * s.get CAPT_WPTR.w⟩] ∧
    t.bytes (0x100000 + 4 * s.get CAPT_WPTR.w) b.bytes.length = b.bytes ∧ MemKept (fun a => decide (a < 0x100000 + 4 *
    s.get CAPT_WPTR.w ∨ 0x100000 + 4 * s.get CAPT_WPTR.w + b.bytes.length ≤ a)) s t)) ∧
  -- CAPTURE_END (R433)
  (∀ (j : Job), Completes (.captureEnd) (fun s => s.capt.job = some j ∧ j.start + j.dur ≤ s.ktime) (fun s t =>
    t.capt.job = none ∧ t.capt.past.map Past.job = some j ∧ t.bit CAPT_STAT.RUN = false ∧
    t.bit MODE.CAPTURE_ACT = decide (s.capt.due ≠ []))) ∧
  -- CAPT_REL_WRITE (R436)
  (∀ (f : Fn) (v : Word), Completes (.captRelWrite f v) (fun s => Serves s f (keyPage CAPT_REL.w.key) ∧
    legalWord f CAPT_REL.w.key v = true) (fun s t => t.capt.used = release (4 * v.toNat) s.capt.used)) ∧
  -- STATS (R438)
  (∀ (p : Past), Completes (.stats true) (fun s => s.capt.past = some p ∧ s.capt.statsDue = true ∧
    s.pikaServes = true) (fun s t =>
    t.capt.statsDue = false ∧ t.get CAPT_CNT_DSP.w = s.get CAPT_CNT_DSP.w)) ∧
  -- STATS (R438)
  (∀ (p : Past), Completes (.stats false) (fun s => s.capt.past = some p ∧ s.capt.statsDue = true) (fun s t =>
    t.capt.statsDue = false ∧ t.get CAPT_CNT_DSP.w = min 0xFFFF (s.get CAPT_CNT_DSP.w + 1))) ∧
  -- SNIPPET (R439)
  (∀ (p : Past) (n : Snip), Completes (.snippet) (fun s => s.capt.past = some p ∧ p.snip = some n)
    (fun _ t => t.capt.past = some { p with snip := none }))

/-- A step is exec of the command at the front of the queue. For every command c and state s with c at the front of
its queue, step of s is exec of c on s with the rest of the queue. -/
def Obligations.StepRunsTheFrontCommand : Prop :=
  ∀ (c : Instr) (l : List Instr) (s : State), s.pending = c :: l → step s = exec c { s with pending := l }

/-- On an empty queue one AON cycle passes (the model's choice, log entry 16). On an empty queue a step changes
nothing in power-on reset and in SHUTDOWN; elsewhere, with no slew left and no X32 trim applied, KTIME advances by
512 units of 2^-24 s (modulo 2^64), the AON cycle count by one, the fraction and the slew stay, and only KTIME, the
cycle count, the timebase, the front end's own work and the registers that show them change. That a step with no
command is one cycle is the model's choice (log entry 16). -/
def Obligations.IdleStepIsOneAonCycle : Prop :=
  ∀ s : State, s.pending = [] →
      ((s.pins.porAsserted = true ∨ s.get MODE.CUR = 0) → step s = .next s) ∧
      (s.pins.porAsserted = false → s.get MODE.CUR ≠ 0 → s.time.slew = 0 → (s.onX32 = false ∨ s.trim = 0) →
        s.time.acc < 100000000 →
        ∃ t, step s = .next t ∧ t.aon = s.aon + 1 ∧ t.ktime = (s.ktime + 512) % 2 ^ 64 ∧ t.time.acc = s.time.acc ∧
          t.time.slew = 0 ∧
          Only [.ktime, .cycles, .time, .frontEnd, .health, .openValues, .reg KTIME_TQ.w, .reg TIME_STAT.w,
            .reg HLT_RTIME_L.w, .reg HLT_RTIME_H.w, .reg CLK_STAT.w, .reg FES_STAT.w, .reg FES_RSSI.w, .reg FES_AGC.w,
            .reg FES_RAW_LNA.w, .reg FES_RAW_MIX.w, .reg FES_RAW_LFPGA.w] s t)

/-- The state after reset is in canonical form. Registers, counters, latches and memory of the state after reset are
in canonical form. -/
def Obligations.ResetIsCanonical : Prop :=
  State.reset.Canon

/-- What power-on reset leaves in registers, counters, latches, queues and pins. After power-on reset the listed registers
hold the reset words of their field tables, every PAGE, event counter and snapshot latch reads 0, every data queue
is empty, no op runs, no plan is committed, nothing runs and KTIME is 0. While the power-on reset is asserted every pin
stands in its reset state of Table 2.1, and with VDDIO absent no pin of that domain drives a level. -/
def Obligations.ResetLeavesTheStatedValues : Prop :=
  (State.reset.reg CHG_CFG.w.key = 0x001F ∧ State.reset.reg VRES_STOP.w.key = 0x000A ∧
    State.reset.reg RES_LEAK_EST.w.key = 0x03E8 ∧
      State.reset.reg HP_CFG.w.key = 0x0A00 ∧ State.reset.reg TW_CFG.w.key = 0x0219 ∧
        State.reset.reg TW_FADDR01.w.key = 0xD9D8 ∧
      State.reset.reg TW_FADDR23.w.key = 0xDBDA ∧ State.reset.reg TW_HOSTADDR.w.key = 0x0010 ∧
        State.reset.reg PART_DQ.w.key = 0x4444 ∧
      State.reset.reg FES_RSSI.w.key = 0x8000 ∧ State.reset.reg (FN_ID.w.on 2).key = 0 ∧
        State.reset.reg SCHED_DSP_MAX.w.key = 0x005A) ∧
    (∀ f : Fn, State.reset.fget f PAGE.w = 0 ∧ (State.reset.eng f).queue = [] ∧ (State.reset.eng f).op = none ∧
      (State.reset.plan f).plan = [] ∧ (∀ src, State.reset.cnt f src = 0) ∧ (∀ p k, State.reset.latch p f k = 0)) ∧
    State.reset.sched.running = [] ∧ State.reset.capt.job = none ∧ State.reset.ktime = 0 ∧ State.reset.pending = [] ∧
    (∀ (s : State) (p : Pin), s.pins.porAsserted = true → s.pinState p = p.resetState) ∧
    (∀ (s : State) (p : Pin), s.pins.vddio = false → p.info.2.1 = some .vddio → s.pinState p ≠ .low ∧
      s.pinState p ≠ .driven ∧ ∀ b, s.pinState p ≠ .level b)

/-- Every command goes on from every state, and leaves the queue and the ordering code. For every command and every
state exec answers a next state; it has the same queue of waiting commands and the same ordering code. -/
def Obligations.EveryCommandGoesOn : Prop :=
  ∀ (c : Instr) (s : State), ∃ t, exec c s = .next t ∧ t.pending = s.pending ∧ t.variantFL = s.variantFL

/-- A field written reads back, and other fields and registers stay. In a canonical state, a field written with a
value reads that value modulo its width; every other register, and every field of the same register that shares no
bit with it, reads as before; the state stays canonical. -/
def Obligations.RegisterFieldsAreApart : Prop :=
  ∀ (s : State) (x : Fld) (v : Nat), s.Canon → x.lo ≤ x.hi → x.hi < 16 →
      (s.put x v).get x = v % x.size ∧ (s.put x v).Canon ∧ (∀ k, k ≠ x.key → (s.put x v).reg k = s.reg k) ∧
      (∀ y : Fld, y.key = x.key → y.lo ≤ y.hi → y.hi < 16 → (y.hi < x.lo ∨ x.hi < y.lo) → (s.put x v).get y = s.get y)

/-- An interrupt source sets its bit and counts every set, in its own function. Setting a source of INT_STAT0 in a
function, or of F0's INT_STAT1, sets its status bit and adds one, modulo 65536, to its event counter whether or not
the bit was set or enabled; every other counter, every other register but WAKE_HREASON and every data queue stay. A
power-on reset clears every counter. -/
def Obligations.EventsSetAndCount : Prop :=
  (∀ (f : Fn) (b : Nat) (s : State), s.Canon → b < 16 →
      (s.raise0 f b).fget f ⟨0x10, b, b⟩ = 1 ∧ (s.raise0 f b).cnt f b = (s.cnt f b + 1) % 0x10000 ∧
      (∀ (g : Fn) (n : Nat), n < 32 → (g ≠ f ∨ n ≠ b) → (s.raise0 f b).cnt g n = s.cnt g n) ∧
      OnlyRegs [INT_STAT0.w.on f.toNat, WAKE_HREASON.w] s (s.raise0 f b) ∧
        (∀ g, ((s.raise0 f b).eng g).queue = (s.eng g).queue)) ∧
    (∀ (b : Nat) (s : State), s.Canon → b < 16 →
      (s.raise1 b).fget .f0 ⟨0x11, b, b⟩ = 1 ∧ (s.raise1 b).cnt .f0 (16 + b) = (s.cnt .f0 (16 + b) + 1) % 0x10000 ∧
      (∀ (g : Fn) (n : Nat), n < 32 → (g ≠ .f0 ∨ n ≠ 16 + b) → (s.raise1 b).cnt g n = s.cnt g n) ∧
      OnlyRegs [INT_STAT1.w.on 0, WAKE_HREASON.w] s (s.raise1 b) ∧
        (∀ g, ((s.raise1 b).eng g).queue = (s.eng g).queue)) ∧
    (∀ (v : Nat) (s : State), ∃ t, exec (.powerOnReset v) s = .next t ∧ ∀ f n, t.cnt f n = 0)

/-- A record enters a data queue whole, behind a FILL record where records were dropped, or is dropped. A record that
fits its function's queue, together with the FILL record that is owed, is appended whole behind that FILL record,
whose payload is the count saturating at 0xFFFF and whose stamp is that of the first record dropped, and the count
is cleared. One that does not fit leaves the queue, increments DQ_LOST (saturating), sets DQ_OVERRUN and adds one to
the FILL count, whose stamp is kept, or taken from this record at the first drop. -/
def Obligations.RecordsEnterAQueueWhole : Prop :=
  ∀ (s : State) (f : Fn) (r : Rec), s.Canon → (∀ b ∈ r.bits, b < 16) →
      let owed : List Word := if (s.eng f).fill = 0 then [] else
        Rec.words ⟨0x3F, (s.eng f).fillStamp, [BitVec.ofNat 16 (min (s.eng f).fill 0xFFFF)], []⟩
      let t := s.writeRec f r
      ((s.eng f).queue.length + owed.length + (Rec.words r).length ≤ s.dqSize f →
        (t.eng f).queue = (s.eng f).queue ++ owed ++ Rec.words r ∧ (t.eng f).fill = 0 ∧
        (∀ b ∈ r.bits, t.fget f ⟨0x10, b, b⟩ = 1) ∧ t.fget f DQ_LOST.w = s.fget f DQ_LOST.w) ∧
      (s.dqSize f < (s.eng f).queue.length + owed.length + (Rec.words r).length →
        (t.eng f).queue = (s.eng f).queue ∧ (t.eng f).fill = (s.eng f).fill + 1 ∧
        (t.eng f).fillStamp = (if (s.eng f).fill = 0 then r.stamp else (s.eng f).fillStamp) ∧
        t.fget f DQ_LOST.w = min 0xFFFF (s.fget f DQ_LOST.w + 1) ∧ t.fget f INT_STAT0.DQ_OVERRUN = 1)

/-- The TQ error code is the least power of two that covers the bound. For an error bound b the code is the least c
from 0 to 30 with 2^c microseconds at least b, and 31 exactly when b exceeds 2^30 microseconds or no candidate was
applied. -/
def Obligations.ErrorCodeIsTheLeast : Prop :=
  codeOf none = 31 ∧ ∀ b : Nat,
      (2 ^ 30 * usUnit < b → codeOf (some b) = 31) ∧
      (b ≤ 2 ^ 30 * usUnit → codeOf (some b) ≤ 30 ∧ b ≤ 2 ^ codeOf (some b) * usUnit ∧
        ∀ c, c < codeOf (some b) → 2 ^ c * usUnit < b)

/-- INT_STAT1 and INT_EN1 exist in F0 alone, and a tenant's INT_ROUTE keeps [7:4] at 0. In a tenant that is served,
INT_STAT1 and INT_EN1 read 0x0000 through either port and a write to them changes nothing beyond the access itself;
after any write to a tenant's INT_ROUTE its bits 7:4 read 0. -/
def Obligations.TenantsHaveNoSecondBank : Prop :=
  ∀ (f : Fn) (s : State) (v : Word), f ≠ .f0 → s.Canon → s.mode.ready = true → s.fget f FN_STATE.RESET_BUSY = 0 →
      s.hostLoading = false →
      (∀ off, off = INT_STAT1.w.key ∨ off = INT_EN1.w.key →
        exec (.registerWrite f off v) s = .next s.regAccess ∧ ∀ p, s.fetch p f off false = (0, s)) ∧
      (∃ t, exec (.registerWrite f INT_ROUTE.w.key v) s = .next t ∧ t.fget f INT_ROUTE.w / 16 = 0)

/-- Every step keeps the canonical form of registers, counters, latches and memory. From every canonical state,
whatever command waits at the front or none, the next state of a step is canonical: no address, register, counter or
latch is listed twice, out of order or with the value an unlisted one reads as. -/
def Obligations.StepKeepsCanonical : Prop :=
  ∀ s t : State, s.Canon → step s = .next t → t.Canon

/-- A tenant's write to the pages CLK to HOSTPORT is ignored with GRANT_DENIED; with a read grant it reads them. A
tenant that is served writes nothing on the pages CLK, MODE, PWR, BOOT, FLINT, IMG and HOSTPORT, whatever its grant:
beyond the access itself only its FN_ERR changes, to GRANT_DENIED. With a grant it reads the registers of the page.
-/
def Obligations.OnlyF0WritesThePagesClkToHostport : Prop :=
  ∀ (f : Fn) (off : Nat) (v : Word) (s : State), f ≠ .f0 → s.Canon → s.mode.ready = true →
      s.fget f FN_STATE.RESET_BUSY = 0 → s.hostLoading = false → 1 ≤ s.fget f PAGE.SEL → s.fget f PAGE.SEL ≤ 7 → 0x80
        ≤ off →
      off < 0x100 →
      exec (.registerWrite f off v) s = .next (s.regAccess.setErr f eGRANT) ∧
      (s.grant f (s.fget f PAGE.SEL) ≠ 0 → regDef? (s.fget f PAGE.SEL * 0x100 + off) ≠ none →
        ∀ p, s.fetch p f off false = s.readKey p f (s.fget f PAGE.SEL * 0x100 + off))

/-- A slot due with VRES more than 100 mV below its target sets RESERVOIR_LOW and starts. When an occurrence is due,
the unit runs its plans and is awake, nothing contends for the tuner or the capture engine, and VRES lies more than
100 mV below the target, SLOT_START sets RESERVOIR_LOW and the occurrence runs, for its whole length from a late start
too. -/
def Obligations.SlotDueBelowTargetStartsWithReservoirLow : Prop :=
  ∀ (f : Fn) (idx : Nat) (w : Watch) (nominal start stop : Nat),
      Completes (.slotStart f idx) (fun s => s.slotDue f idx = some (w, nominal, start, stop) ∧ s.runsPlans = true ∧
          s.awake = true ∧ s.get VRES_MEAS.w + 100 < 2000 + 10 * s.get VRES_TGT.TGT ∧ recKind w.words ≠ kCAPT ∧
          s.bit FES_STAT.HOLD = false ∧ s.fe.rx = none)
        (fun s t => t.fget .f0 INT_STAT1.RESERVOIR_LOW = 1 ∧
          (⟨f, idx, nominal, stop + (s.ktime - start), false⟩ : Run) ∈ t.sched.running ∧
          t.cnt .f0 16 = (s.cnt .f0 16 + 1) % 0x10000)

/-- Below 2.30 V the start condition waits on, however many cycles pass. Below 2300 mV the start event changes
nothing; and a step with no command waiting keeps the wait for the start condition, the charger's state and its
set-point. -/
def Obligations.StartConditionHasNoTimeout : Prop :=
  (∀ s : State, s.get VRES_MEAS.w < 2300 → exec .startCondition s = .next s) ∧
    (∀ s : State, s.Canon → s.pending = [] → ∃ t, step s = .next t ∧ t.boot = s.boot ∧ t.pwr = s.pwr ∧
      t.reg PWR_STAT.w.key = s.reg PWR_STAT.w.key)

/-- MODE_CMD acts only with KEY 0xA5 and REQ 1 or 2; any other write is ignored with BAD_ARG. A write of F0 to
MODE_CMD with another KEY or REQ changes nothing beyond the access but FN_ERR, to BAD_ARG. With KEY 0xA5 and REQ 1
it enters SHUTDOWN as that command does, with REQ 2 it asks for rest. -/
def Obligations.ModeCommandTakesOnlyItsTwoWords : Prop :=
  ∀ (v : Word) (s : State), s.Canon → Serves s .f0 2 → s.fget .f0 PAGE.SEL = 2 →
      (¬ (v.toNat / 0x100 = 0xA5 ∧ (v.toNat % 4 = 1 ∨ v.toNat % 4 = 2)) →
        exec (.registerWrite .f0 0x83 v) s = .next (s.regAccess.setErr .f0 eBADARG)) ∧
      (v.toNat / 0x100 = 0xA5 → v.toNat % 4 = 1 → exec (.registerWrite .f0 0x83 v) s = exec (.modeCmdShutdown .f0) s)
        ∧
      (v.toNat / 0x100 = 0xA5 → v.toNat % 4 = 2 → ∃ t, exec (.registerWrite .f0 0x83 v) s = .next t ∧
        t.mode.restNow = true)

/-- A van window that falls in SHUTDOWN is lost. In SHUTDOWN the start of a van window leaves the mode engine, the
pins and every register: no remote wake is asked for. One whose start has passed is dropped when the next is looked for,
and none is asked for then either. -/
def Obligations.VanWindowInShutdownIsLost : Prop :=
  Completes .vanWindowStart (fun s => s.get MODE.CUR = 0)
      (fun s t => t.mode = s.mode ∧ t.pins = s.pins ∧ OnlyRegs [] s t) ∧
  (∀ (v : Van), Completes .vanWindowStart
      (fun s => s.dormouse = true ∧ s.edf.vans = [v] ∧ v.period = 0 ∧ v.start < s.sec % 0x100000000)
      (fun s t => t.edf.vans = [] ∧ t.mode = s.mode ∧ t.pins = s.pins ∧ (∀ k, keyPage k ≠ 0x12 → t.reg k = s.reg k)))

/-- The memory port reads 0 and writes nothing outside its map, and where the function may not reach. An access of the
memory port in the direction set outside the regions, or beyond the flash fitted, reads 0x0000 or writes nothing,
sets UNMAPPED and FN_ERR = BAD_ARG; one to a region that the function may not reach in that direction does the same
with VIOL and GRANT_DENIED. Neither advances the address. -/
def Obligations.MemoryPortRefusesOutsideItsMap : Prop :=
  ∀ (f : Fn) (q : Bool),
      Completes (.memDataAccess f none q) (fun s => Serves s f 0 ∧ s.fget f MEM_CTRL.WR = 0 ∧
        s.region (s.eng f).memAddr = .unmapped)
        (fun s t => t.hostOut = [0] ∧ t.fget f MEM_STAT.UNMAPPED = 1 ∧ t.fget f FN_ERR.CODE = eBADARG ∧
          (t.eng f).memAddr = (s.eng f).memAddr ∧ t.mem = s.mem) ∧
      Completes (.memDataAccess f none q) (fun s => Serves s f 0 ∧ s.fget f MEM_CTRL.WR = 0 ∧
          s.region (s.eng f).memAddr ≠ .unmapped ∧ s.mayRead f (s.region (s.eng f).memAddr) = false)
        (fun s t => t.hostOut = [0] ∧ t.fget f MEM_STAT.VIOL = 1 ∧ t.fget f FN_ERR.CODE = eGRANT ∧
          (t.eng f).memAddr = (s.eng f).memAddr ∧ t.mem = s.mem) ∧
      ∀ v : Word,
        Completes (.memDataAccess f (some v) q) (fun s => Serves s f 0 ∧ s.fget f MEM_CTRL.WR = 1 ∧
            s.region (s.eng f).memAddr = .unmapped)
          (fun s t => t.fget f MEM_STAT.UNMAPPED = 1 ∧ t.fget f FN_ERR.CODE = eBADARG ∧
            (t.eng f).memAddr = (s.eng f).memAddr ∧ t.mem = s.mem) ∧
        Completes (.memDataAccess f (some v) q) (fun s => Serves s f 0 ∧ s.fget f MEM_CTRL.WR = 1 ∧
            s.region (s.eng f).memAddr ≠ .unmapped ∧ s.mayWrite f (s.region (s.eng f).memAddr) = false)
          (fun s t => t.fget f MEM_STAT.VIOL = 1 ∧ t.fget f FN_ERR.CODE = eGRANT ∧
            (t.eng f).memAddr = (s.eng f).memAddr ∧ t.mem = s.mem)

/-- PART_DQ above 16 KiB and PART_QH above the Hoard area are ignored with RESOURCE. A legal, unlocked write of F0
that would make the PART_DQ fields sum to more than 16 KiB, or the PART_QH_Fn values to more than the KiB of the
Hoard area of the flash fitted, changes nothing beyond the access but FN_ERR, to RESOURCE. -/
def Obligations.PartitionSizesStayWithinTheirSums : Prop :=
  ∀ (v : Word) (s : State), s.Canon → Serves s .f0 9 → s.bit PART_STAT.LOCKED = false →
      (legalWord .f0 PART_DQ.w.key v = true →
        16 < v.toNat % 16 + v.toNat / 16 % 16 + v.toNat / 256 % 16 + v.toNat / 4096 →
        exec (.partDqWrite .f0 v) s = .next (s.regAccess.setErr .f0 eRES)) ∧
      (∀ n, n < 4 → s.fget .f0 PAGE.SEL = 9 → legalWord .f0 (PART_QH_F.w n).key v = true →
        (let t := s.put (PART_QH_F.w n) v.toNat
         4 * (s.edf.flashSize / 0x1000 - 0x210) <
           t.get (PART_QH_F.w 0) + t.get (PART_QH_F.w 1) + t.get (PART_QH_F.w 2) + t.get (PART_QH_F.w 3)) →
        exec (.registerWrite .f0 ((PART_QH_F.w n).key % 0x100) v) s = .next (s.regAccess.setErr .f0 eRES))

/-- DQ_DATA sets at each record with the level at the threshold; FLUSH empties without counting. Appending the words
of a record extends the queue by them and sets DQ_DATA, and counts it, exactly when the level afterwards is at least
DQ_THR; a served FLUSH empties the function's queue and changes no other queue and neither DQ_LOST nor the FILL
count. -/
def Obligations.QueueThresholdAndFlush : Prop :=
  (∀ (s : State) (f : Fn) (ws : List Word), s.Canon →
      ((s.append f ws).eng f).queue = (s.eng f).queue ++ ws ∧
      (s.fget f DQ_THR.w ≤ (s.eng f).queue.length + ws.length →
        (s.append f ws).fget f INT_STAT0.DQ_DATA = 1 ∧ (s.append f ws).cnt f 2 = (s.cnt f 2 + 1) % 0x10000) ∧
      ((s.eng f).queue.length + ws.length < s.fget f DQ_THR.w →
        (s.append f ws).fget f INT_STAT0.w = s.fget f INT_STAT0.w ∧ (s.append f ws).cnt f 2 = s.cnt f 2)) ∧
    (∀ f : Fn, Completes (.dqFlush f) (fun s => Serves s f 0)
      (fun s t => (t.eng f).queue = [] ∧ (t.eng f).fill = (s.eng f).fill ∧ t.fget f DQ_LOST.w = s.fget f DQ_LOST.w ∧
        ∀ g, g ≠ f → (t.eng g).queue = (s.eng g).queue))

/-- A PLAN_EVENT record carries event and cause, watch id and nominal start, and WATCH_EVENT sets with it. A
PLAN_EVENT of a function that is not in reset, with Marten running, no FILL record owed and room in the queue,
appends to that function's queue the header of type 0x30 and length 4, the stamp of the instant, the event and
cause, the watch id and the two words of the nominal start, and sets WATCH_EVENT; the queues of other functions
stay. LISTEN events carry id 0xFFFF and start 0. -/
def Obligations.PlanEventRecordsHaveTheirFourWords : Prop :=
  ∀ (s : State) (f : Fn) (event cause id sec : Nat),
    s.Canon → s.fget f FN_STATE.RESET_BUSY = 0 → s.boot.marten = true →
      (s.eng f).fill = 0 → (s.eng f).queue.length + 7 ≤ s.dqSize f →
      let t := s.planEvent f event cause id sec
      (t.eng f).queue = (s.eng f).queue ++ [0xC004, BitVec.ofNat 16 (s.ktime % 2 ^ 32 / 0x10000),
        BitVec.ofNat 16 s.ktime,
        BitVec.ofNat 16 (event * 0x100 + cause),
          BitVec.ofNat 16 id, BitVec.ofNat 16 sec, BitVec.ofNat 16 (sec / 0x10000)] ∧
      t.fget f INT_STAT0.WATCH_EVENT = 1 ∧ (∀ g, g ≠ f → (t.eng g).queue = (s.eng g).queue) ∧
      s.listenEvent f event cause = s.planEvent f event cause 0xFFFF 0

/-- A third heartbeat expiry within 60 min of the first causes a system reset with cause HB_STORM. With the heartbeat
check armed, Marten running and two earlier expiries within 60 min, an expiry causes a system reset with cause 8 in
place of the reload, whether or not the slot would reload. -/
def Obligations.ThirdHeartbeatExpiryResetsTheSystem : Prop :=
  ∀ ok : Bool, Completes (.martenHeartbeatTimeout ok) (fun s => s.hlt.hbArmed = true ∧ s.boot.marten = true ∧
        s.mode.resting = false ∧ 2 ≤ (s.hlt.storms.filter (fun a => decide (s.aon < a + 3600 * 32768))).length)
      (fun s t => t.boot.cause = 8 ∧ t.get MODE.CUR = 3 ∧ t.mode.ready = false ∧ t.boot.marten = false ∧
        t.boot.reload = false ∧
        t.hlt.storms = [] ∧ t.ktime = s.ktime)

/-- What a function does to its own mailbox, queue, draft, memory port and messages leaves every other tenant. Writes
and reads of a function's own common part (FN_ERR, the memory port's address, the queue, CMD_GO, the draft,
ATTN_ACK) leave, for every other tenant, its queue, op, memory-port address, message state, draft and plan, and
every register of its common part but PLAN_STAT and PLAN_COUNT, which show the plan. -/
def Obligations.FunctionsOwnAccessesLeaveOtherTenants : Prop :=
  ∀ (f g : Fn) (v : Word) (s : State), s.Canon → g ≠ f → g ≠ .f0 →
      ∀ c ∈ ([.fnErrWrite f v, .memAddrWrite f v, .dqFlush f, .dqDataRead f, .cmdGo f v, .planBegin f,
        .planWidxWrite f v, .wrec15Write f v, .attnAckWrite f v] : List Instr),
        ∃ t, exec c s = .next t ∧ t.eng g = s.eng g ∧ t.plan g = s.plan g ∧
          ∀ off, off < 0x80 → off ≠ PLAN_STAT.w.key → off ≠ PLAN_COUNT.w.key → t.reg (commonKey g.toNat off) = s.reg
            (commonKey g.toNat off)

/-- A write that is read-only, reserved, illegal or locked changes FN_ERR at most. A served write to an offset where
no register stands, or to a register with no writable field, changes nothing beyond the access; one with a reserved
encoding changes FN_ERR alone, to BAD_ARG; one to a register of RWL fields alone while F0's lock stands changes
FN_ERR alone, to LOCKED, when it differs in a locked field, and nothing when it does not. -/
def Obligations.IgnoredWritesHaveNoSideEffect : Prop :=
  ∀ (f : Fn) (off k : Nat) (v : Word) (s : State),
    s.Canon → off < 0x100 → s.keyAt f off = some k → Serves s f (keyPage k) →
      (f ≠ .f0 → k % 0x10000 ≠ INT_STAT1.w.key ∧ k % 0x10000 ≠ INT_EN1.w.key) →
      (regDef? k = none → exec (.registerWrite f off v) s = .next s.regAccess) ∧
      ∀ d, regDef? k = some d →
        (d.rw = 0 → d.w1c = 0 → d.wo = 0 → d.rwl = 0 → exec (.registerWrite f off v) s = .next s.regAccess) ∧
        ((d.rw ≠ 0 ∨ d.w1c ≠ 0 ∨ d.wo ≠ 0 ∨ (d.rwl ≠ 0 ∧ s.bit PART_STAT.LOCKED = false)) →
          legalWord f (baseKey k) (d.judged (s.regAccess.reg k) v (s.bit PART_STAT.LOCKED)) = false →
          exec (.registerWrite f off v) s = .next (s.regAccess.setErr f eBADARG)) ∧
        (d.rw = 0 → d.w1c = 0 → d.wo = 0 → d.rwl ≠ 0 → s.bit PART_STAT.LOCKED = true →
          legalWord f (baseKey k) (d.judged (s.reg k) v true) = true →
          exec (.registerWrite f off v) s = .next (if (v ^^^ s.reg k) &&& BitVec.ofNat 16 d.rwl = 0 then s.regAccess
            else s.regAccess.setErr f eLOCKED))

/-- PAGE[7:0] selects the page at offsets 0x80 to 0xFF, its high byte is reserved, and each function has its own. At
offsets 0x80 to 0xFF a function sees the page its own PAGE[7:0] names, for pages 0x01 to 0x18. PAGE resets to
0x0000. A served write sets PAGE[7:0] and leaves PAGE[15:8]; it changes no other function's PAGE. -/
def Obligations.PageSelectsTheShownPage : Prop :=
  (∀ f : Fn, State.reset.fget f PAGE.w = 0) ∧
    (∀ (s : State) (f : Fn) (off : Nat), 0x80 ≤ off → off < 0x100 → s.keyAt f off =
      if 1 ≤ s.fget f PAGE.w % 0x100 ∧
        s.fget f PAGE.w % 0x100 ≤ 0x18 then some (s.fget f PAGE.w % 0x100 * 0x100 + off) else none) ∧
    (∀ (f : Fn) (v : Word), Completes (.registerWrite f 0x7F v) (fun s => Serves s f 0)
      (fun s t => t.fget f PAGE.w % 0x100 = v.toNat % 0x100 ∧ t.fget f PAGE.w / 0x100 = s.fget f PAGE.w / 0x100 ∧
        ∀ g, g ≠ f → t.fget g PAGE.w = s.fget g PAGE.w))

/-- What each power, clock and mode command leaves unchanged: every register, store and engine outside its list (a
register of the common part is listed for all four functions). -/
def Obligations.PowerClockAndModeCommandsLeaveTheRest : Prop :=
  (Within (.powerOnResetRelease) [[.pins, .power, .mode, .boot, .reg CLK_STAT.w, .reg MODE.w, .reg PWR_STAT.w,
    .reg BOOT_CNT.w]]) ∧
    (∀ (role test : Bool), Within (.strapSample role test) [[.pins, .boot, .reg FN_ID.w, .reg TW_FADDR01.w,
      .reg TW_FADDR23.w, .reg TW_ADDR.w]]) ∧
    (∀ (lowUs : Nat), Within (.pinReset lowUs) [Area.access, Area.reception, Area.core, [.latches, .memory, .pins,
      .power, .boot, .image, .spi, .twoWire, .plans, .sched, .ports, .biphase, .capture, .twin, .health, .openValues,
      .reg MODE.w, .reg GPIO0_CFG.w, .reg GPIO1_CFG.w, .reg PWR_STAT.w, .reg RES_LEAK_EST.w, .reg RES_LEAK_INIT.w,
      .reg TIME_TRIM_L.w, .reg TIME_TRIM_H.w]]) ∧
    (Within (.vddioReturn) [[.counters, .pins, .mode, .engines, .reg INT_STAT1.w, .reg WAKE_HREASON.w]]) ∧
    (∀ (vbat vres chgUa sinkUa aonNa : Nat), Within (.vbatSample vbat vres chgUa sinkUa aonNa) [[.power, .sched,
      .health, .reg PWR_STAT.w, .reg VBAT_MEAS.w, .reg VRES_MEAS.w, .reg CHG_I_MEAS.w, .reg LEDGER_L.w,
      .reg LEDGER_H.w, .reg THROT_AVG.w, .reg SCHED_DEV_USE.w]]) ∧
    (Within (.idleHoldStart) [[.power, .reg PWR_STAT.w]]) ∧
    (Within (.chargeTargetReached) [[.power, .reg PWR_STAT.w]]) ∧
    (Within (.startCondition) [[.power, .boot, .reg PWR_STAT.w]]) ∧
    (Within (.preChargeStart) [[.power, .reg PWR_STAT.w]]) ∧
    (Within (.preChargeRecompute) [[.power, .reg PWR_STAT.w]]) ∧
    (∀ (f : Fn), Within (.depassGo f) [Area.access, [.power, .sched, .reg PWR_STAT.w, .reg RES_C_EST.w,
      .reg RES_C_INIT.w, .reg RES_LEAK_EST.w, .reg RES_LEAK_INIT.w]]) ∧
    (Within (.depassAutoStart) [[.power, .reg PWR_STAT.w]]) ∧
    (Within (.depassDeferredStart) [[.power, .reg PWR_STAT.w]]) ∧
    (∀ (vmin vend : Nat), Within (.depassPulseEnd vmin vend) [[.engines, .reg DAY_USE_E.w, .reg DAY_USE_T.w,
      .reg PWR_STAT.w, .reg DEPASS_VMIN.w, .reg DEPASS_VEND.w]]) ∧
    (∀ (vmin vend ms : Nat), Within (.depassEarlyEnd vmin vend ms) [[.counters, .mode, .engines, .health,
      .reg INT_STAT1.w, .reg DAY_USE_E.w, .reg DAY_USE_T.w, .reg WAKE_HREASON.w, .reg PWR_STAT.w, .reg DEPASS_VMIN.w,
      .reg DEPASS_VEND.w]]) ∧
    (∀ (rest now : Nat), Within (.passIdxMeasure rest now) [[.power, .reg PASS_IDX.w]]) ∧
    (Within (.ledgerCopy) [[.power, .health]]) ∧
    (∀ (f : Fn), Within (.ledgerLoad f) [Area.access, [.reg PWR_STAT.w, .reg LEDGER_L.w, .reg LEDGER_H.w]]) ∧
    (∀ (f : Fn), Within (.estReset f) [Area.access, [.power, .sched, .reg RES_C_EST.w, .reg RES_C_INIT.w,
      .reg RES_LEAK_EST.w, .reg RES_LEAK_INIT.w]]) ∧
    (Within (.capacitanceSample) [[.power, .sched, .reg RES_C_EST.w, .reg RES_C_INIT.w]]) ∧
    (Within (.leakageProbeStart) [[.power, .reg PWR_STAT.w]]) ∧
    (∀ (vres secs : Nat), Within (.leakageProbeEnd vres secs) [[.power, .sched, .reg PWR_STAT.w, .reg RES_LEAK_EST.w,
      .reg RES_LEAK_INIT.w]]) ∧
    (Within (.burstOkLow) [[.reg PWR_STAT.w]]) ∧
    (Within (.burstOkHigh) [[.reg PWR_STAT.w]]) ∧
    (Within (.reservoirBrownout) [Area.access, Area.reception, Area.core, [.memory, .power, .boot, .flint, .image,
      .spi, .twoWire, .plans, .sched, .ports, .biphase, .capture, .twin, .health, .openValues, .reg MODE.w,
      .reg PWR_STAT.w, .reg RES_LEAK_EST.w, .reg RES_LEAK_INIT.w, .reg TIME_TRIM_L.w, .reg TIME_TRIM_H.w]]) ∧
    (Within (.batSag) [[.counters, .power, .mode, .engines, .health, .reg INT_STAT1.w, .reg WAKE_HREASON.w]]) ∧
    (∀ (rise ms : Nat), Within (.reservoirFault rise ms) [[.counters, .mode, .engines, .health, .reg INT_STAT1.w,
      .reg WAKE_HREASON.w]]) ∧
    (Within (.x32Qualified) [[.time, .reg CLK_STAT.w]]) ∧
    (Within (.x32Fail) [Area.event, [.time, .reg CLK_STAT.w, .reg CLK_EVT.w, .reg TIME_STAT.w]]) ∧
    (Within (.x32MissingEdge) [Area.event, [.time, .reg CLK_STAT.w, .reg CLK_EVT.w, .reg TIME_STAT.w]]) ∧
    (∀ (us : Nat), Within (.xoQualified us) [[.mode, .time, .reg CLK_STAT.w, .reg XO_START.w]]) ∧
    (Within (.xoFail) [Area.event, Area.reception, [.memory, .power, .sched, .time, .ports, .biphase, .capture,
      .health, .openValues, .reg DAY_USE_E.w, .reg DAY_USE_T.w, .reg DQ_LOST.w, .reg CLK_EVT.w, .reg XO_START.w,
      .reg CLK_FAILCNT.w, .reg MODE.w, .reg PWR_STAT.w, .reg SCHED_CNT_MISSED.w, .reg TIME_TRIM_L.w,
      .reg TIME_TRIM_H.w, .reg (AP.STAT.w 0), .reg (AP.RXFREE.w 0), .reg (AP.STAT.w 1), .reg (AP.RXFREE.w 1),
      .reg BPH_STAT.w, .reg CAPT_STAT.w, .reg CAPT_WPTR.w, .reg CAPT_RPTR.w, .reg CAPT_FREE.w, .reg CAPT_CNT_DISC.w,
      .reg CAPT_CNT_LOST.w]]) ∧
    (Within (.xoRetry) [[.mode]]) ∧
    (∀ (hfrcErr : Int), Within (.pllLock hfrcErr) [[.reg CLK_STAT.w, .reg HFRC_ERR.w]]) ∧
    (Within (.pllFail) [Area.event, Area.reception, [.memory, .power, .sched, .ports, .biphase, .capture, .health,
      .openValues, .reg DAY_USE_E.w, .reg DAY_USE_T.w, .reg DQ_LOST.w, .reg CLK_EVT.w, .reg CLK_FAILCNT.w,
      .reg MODE.w, .reg PWR_STAT.w, .reg SCHED_CNT_MISSED.w, .reg TIME_TRIM_L.w, .reg TIME_TRIM_H.w, .reg (AP.STAT.w
      0), .reg (AP.RXFREE.w 0), .reg (AP.STAT.w 1), .reg (AP.RXFREE.w 1), .reg BPH_STAT.w, .reg CAPT_STAT.w,
      .reg CAPT_WPTR.w, .reg CAPT_RPTR.w, .reg CAPT_FREE.w, .reg CAPT_CNT_DISC.w, .reg CAPT_CNT_LOST.w]])

/-- What each start-up, image and host port command leaves unchanged: every register, store and engine outside its
list (a register of the common part is listed for all four functions). -/
def Obligations.StartupImageAndHostPortCommandsLeaveTheRest : Prop :=
  (∀ (f : Fn), Within (.modeCmdRestNow f) [Area.access]) ∧
    (Within (.restEntry) [[.memory, .power, .mode, .boot, .flint, .twoWire, .datacast, .capture, .health, .openValues,
      .reg CLK_STAT.w, .reg MODE.w, .reg PWR_STAT.w, .reg BOOT_STAT.w, .reg EDF_STAT.w, .reg EDF_AREA_KIB.w,
      .reg EDF_USED_KIB.w, .reg EDF_OBJ_COLL.w, .reg EDF_OBJ_HELD.w, .reg EDF_WEAR_MAX.w, .reg EDF_WEAR_MIN.w,
      .reg EDF_VAN_N.w, .reg EDF_VAN_NEXT_L.w, .reg EDF_VAN_NEXT_H.w, .reg EDF_VAN_DUR.w, .reg CAPT_RPTR.w],
      Area.regs (EDF_USE_F.w 0) 4]) ∧
    (∀ (cause : Nat), Within (.restEntryReversed cause) [[.power, .mode, .reg WAKE_CAUSE.w]]) ∧
    (Within (.slotWake) [[.power, .mode, .sched, .reg MODE.w, .reg WAKE_CAUSE.w, .reg PWR_STAT.w, .reg RES_LEAK_EST.w,
      .reg RES_LEAK_INIT.w, .reg BOOT_CNT.w]]) ∧
    (Within (.spiWake) [[.power, .mode, .sched, .reg MODE.w, .reg WAKE_CAUSE.w, .reg PWR_STAT.w, .reg RES_LEAK_EST.w,
      .reg RES_LEAK_INIT.w, .reg BOOT_CNT.w]]) ∧
    (∀ (lowUs : Nat), Within (.hostResume lowUs) [[.pins, .power, .mode, .boot, .sched, .openValues, .reg CLK_STAT.w,
      .reg MODE.w, .reg WAKE_CAUSE.w, .reg WAKE_MON.w, .reg PWR_STAT.w, .reg RES_LEAK_EST.w, .reg RES_LEAK_INIT.w,
      .reg BOOT_CNT.w]]) ∧
    (Within (.housekeepWake) [[.power, .mode, .sched, .reg MODE.w, .reg WAKE_CAUSE.w, .reg PWR_STAT.w,
      .reg RES_LEAK_EST.w, .reg RES_LEAK_INIT.w, .reg BOOT_CNT.w]]) ∧
    (∀ (supplyOk readOk : Bool), Within (.wakeReady supplyOk readOk) [Area.access, Area.reception, Area.core,
      [.memory, .boot, .image, .spi, .twoWire, .plans, .sched, .ports, .biphase, .capture, .twin, .health,
      .openValues, .reg MODE.w]]) ∧
    (Within (.delayedWakeStart) [[.power, .mode, .reg MODE.w, .reg WAKE_CAUSE.w, .reg BOOT_CNT.w]]) ∧
    (∀ (reason : Nat) (lineHigh : Bool), Within (.remoteWakeAttempt reason lineHigh) [[.pins, .power, .mode, .sched,
      .reg MODE.w, .reg WAKE_CAUSE.w, .reg WAKE_HREASON.w, .reg WAKE_MON.w, .reg PWR_STAT.w, .reg RES_LEAK_EST.w,
      .reg RES_LEAK_INIT.w, .reg BOOT_CNT.w]]) ∧
    (∀ (lineHigh : Bool), Within (.remoteWakeSample lineHigh) [[.pins, .power, .mode, .sched, .reg MODE.w,
      .reg WAKE_CAUSE.w, .reg WAKE_HREASON.w, .reg WAKE_MON.w, .reg PWR_STAT.w, .reg RES_LEAK_EST.w,
      .reg RES_LEAK_INIT.w, .reg BOOT_CNT.w]]) ∧
    (∀ (lineHigh : Bool), Within (.remoteWakeRetry lineHigh) [[.pins, .power, .mode, .sched, .reg MODE.w,
      .reg WAKE_CAUSE.w, .reg WAKE_HREASON.w, .reg WAKE_MON.w, .reg PWR_STAT.w, .reg RES_LEAK_EST.w,
      .reg RES_LEAK_INIT.w, .reg BOOT_CNT.w]]) ∧
    (Within (.wakeNStuck) [[.counters, .mode, .engines, .reg INT_STAT1.w, .reg WAKE_HREASON.w, .reg WAKE_MON.w]]) ∧
    (Within (.wakeNReleased) [[.pins, .power, .mode, .sched, .reg MODE.w, .reg WAKE_CAUSE.w, .reg WAKE_HREASON.w,
      .reg WAKE_MON.w, .reg PWR_STAT.w, .reg RES_LEAK_EST.w, .reg RES_LEAK_INIT.w, .reg BOOT_CNT.w]]) ∧
    (∀ (burrowOk secretOk prefOk cfgOk calOk : Bool), Within (.coldBootStart burrowOk secretOk prefOk cfgOk calOk)
      [[.memory, .power, .boot, .flint, .image, .frontEnd, .twin, .health, .openValues, .reg LEDGER_L.w,
      .reg LEDGER_H.w, .reg BOOT_STAT.w, .reg BOOT_FAULT.w, .reg BOOT_TIME_M.w, .reg BOOT_TIME_R.w, .reg BOOT_CFG.w,
      .reg BOOT_FBLK.w, .reg FLINT_STAT.w, .reg (FLINT_IDPUB.w 16), .reg (FLINT_IDPUB.w 17), .reg (FLINT_IDPUB.w 18),
      .reg (FLINT_IDPUB.w 19), .reg (FLINT_IDPUB.w 20), .reg (FLINT_IDPUB.w 21), .reg (FLINT_IDPUB.w 22),
      .reg (FLINT_IDPUB.w 23), .reg (FLINT_IDPUB.w 24), .reg (FLINT_IDPUB.w 25), .reg (FLINT_IDPUB.w 26),
      .reg (FLINT_IDPUB.w 27), .reg (FLINT_IDPUB.w 28), .reg (FLINT_IDPUB.w 29), .reg (FLINT_IDPUB.w 30),
      .reg (FLINT_IDPUB.w 31), .reg IMG_PREF.w, .reg HLT_RCAUSE.w, .reg HLT_RTIME_L.w, .reg HLT_RTIME_H.w,
      .reg HLT_CNT_HB.w, .reg HLT_CNT_SYS.w, .reg HLT_CNT_ECC.w], Area.regs (FLINT_IDPUB.w 0) 16]) ∧
    (∀ (idx : Nat), Within (.imageBlockArrives idx) [[.boot, .frontEnd, .health, .reg CLK_STAT.w, .reg MODE.w,
      .reg BOOT_STAT.w, .reg BOOT_FAULT.w, .reg BOOT_FBLK.w, .reg IMG_EPOCH.w, .reg FES_STAT.w, .reg FES_RSSI.w,
      .reg SYN_STAT.w, .reg CAL_STAT.w]]) ∧
    (Within (.signatureCheckDone) [[.boot, .frontEnd, .health, .reg CLK_STAT.w, .reg MODE.w, .reg BOOT_STAT.w,
      .reg BOOT_FAULT.w, .reg BOOT_FBLK.w, .reg IMG_EPOCH.w, .reg FES_STAT.w, .reg FES_RSSI.w, .reg SYN_STAT.w,
      .reg CAL_STAT.w]]) ∧
    (Within (.martenRelease) [[.memory, .mode, .boot, .image, .frontEnd, .health, .openValues, .reg CLK_STAT.w,
      .reg MODE.w, .reg BOOT_STAT.w, .reg BOOT_TIME_M.w, .reg IMG_RUN_VER.w, .reg IMG_RUN_PATCH.w,
      .reg IMG_RUN_BUILD_L.w, .reg IMG_RUN_BUILD_H.w, .reg IMG_EPOCH.w, .reg IMG_HL_STAT.w, .reg FES_STAT.w,
      .reg CAL_STAT.w, .reg CAL_REC_TEMP.w, .reg CAL_REC_AGE.w]]) ∧
    (Within (.hedgehogFault) [[.boot, .frontEnd, .health, .reg CLK_STAT.w, .reg MODE.w, .reg BOOT_STAT.w,
      .reg FES_STAT.w, .reg FES_RSSI.w, .reg SYN_STAT.w, .reg CAL_STAT.w]]) ∧
    (Within (.qspiTimeout) [[.boot, .frontEnd, .health, .reg CLK_STAT.w, .reg MODE.w, .reg BOOT_STAT.w,
      .reg BOOT_FAULT.w, .reg FES_STAT.w, .reg FES_RSSI.w, .reg SYN_STAT.w, .reg CAL_STAT.w]]) ∧
    (Within (.pikaGo) [Area.event, [.boot, .reg FN_STATE.w, .reg BOOT_STAT.w]]) ∧
    (Within (.pikaRelease) [[.reg BOOT_STAT.w]]) ∧
    (∀ (readOk : Bool), Within (.pikaDeferredLoad readOk) [[.boot, .health, .reg BOOT_STAT.w, .reg IMG_EPOCH.w]]) ∧
    (∀ (ok : Bool) (pub : List Word), Within (.identityKeyGenerate ok pub) [[.boot, .flint, .reg FLINT_STAT.w,
      .reg (FLINT_IDPUB.w 16), .reg (FLINT_IDPUB.w 17), .reg (FLINT_IDPUB.w 18), .reg (FLINT_IDPUB.w 19),
      .reg (FLINT_IDPUB.w 20), .reg (FLINT_IDPUB.w 21), .reg (FLINT_IDPUB.w 22), .reg (FLINT_IDPUB.w 23),
      .reg (FLINT_IDPUB.w 24), .reg (FLINT_IDPUB.w 25), .reg (FLINT_IDPUB.w 26), .reg (FLINT_IDPUB.w 27),
      .reg (FLINT_IDPUB.w 28), .reg (FLINT_IDPUB.w 29), .reg (FLINT_IDPUB.w 30), .reg (FLINT_IDPUB.w 31)],
      Area.regs (FLINT_IDPUB.w 0) 16]) ∧
    (Within (.bootReady) [Area.access, Area.reception, Area.core, [.memory, .boot, .image, .spi, .twoWire, .plans,
      .sched, .ports, .biphase, .capture, .twin, .health, .openValues, .reg MODE.w]]) ∧
    (Within (.hostLoadWait) [Area.event, [.boot, .reg DEV_STEP.w, .reg FN_STATE.w, .reg INT_STAT1.w, .reg BOOT_STAT.w,
      .reg FLINT_STAT.w, .reg IMG_A_VER.w, .reg IMG_A_PATCH.w, .reg IMG_A_BUILD_L.w, .reg IMG_A_BUILD_H.w,
      .reg IMG_A_INFO.w, .reg IMG_B_VER.w, .reg IMG_B_PATCH.w, .reg IMG_B_BUILD_L.w, .reg IMG_B_BUILD_H.w,
      .reg IMG_B_INFO.w]]) ∧
    (Within (.hostLoadRetry) [[.boot, .reg BOOT_FAULT.w, .reg BOOT_FBLK.w]]) ∧
    (∀ (f : Fn) (v : Word), Within (.imgRevoke f v) [Area.access, [.image, .reg IMG_STAT.w]]) ∧
    (∀ (ok : Bool), Within (.fuseProgramDone ok) [[.image, .engines, .openValues, .reg DAY_USE_E.w, .reg DAY_USE_T.w,
      .reg FLINT_OTP.w, .reg IMG_STAT.w]]) ∧
    (∀ (f : Fn) (v : Word), Within (.imgPrefWrite f v) [Area.access, [.image, .reg IMG_PREF.w]]) ∧
    (∀ (f : Fn), Within (.imgStageCommit f) [[.memory, .power, .image, .engines, .health, .reg MODE.w,
      .reg IMG_STAGE.w, .reg IMG_STAGE_PROG.w, .reg IMG_HL_STAT.w]]) ∧
    (∀ (ok : Bool), Within (.stagingSectorWritten ok) [[.counters, .memory, .power, .mode, .image, .engines,
      .datacast, .health, .openValues, .reg INT_STAT1.w, .reg DAY_USE_E.w, .reg DAY_USE_T.w, .reg MODE.w,
      .reg WAKE_HREASON.w, .reg IMG_A_VER.w, .reg IMG_A_PATCH.w, .reg IMG_A_BUILD_L.w, .reg IMG_A_BUILD_H.w,
      .reg IMG_A_INFO.w, .reg IMG_B_VER.w, .reg IMG_B_PATCH.w, .reg IMG_B_BUILD_L.w, .reg IMG_B_BUILD_H.w,
      .reg IMG_B_INFO.w, .reg IMG_STAGE.w, .reg IMG_STAGE_PROG.w, .reg IMG_HL_STAT.w, .reg EDF_STAT.w,
      .reg EDF_AREA_KIB.w, .reg EDF_USED_KIB.w, .reg EDF_OBJ_COLL.w, .reg EDF_OBJ_HELD.w, .reg EDF_WEAR_MAX.w,
      .reg EDF_WEAR_MIN.w, .reg EDF_VAN_N.w, .reg EDF_VAN_NEXT_L.w, .reg EDF_VAN_NEXT_H.w, .reg EDF_VAN_DUR.w],
      Area.regs (EDF_USE_F.w 0) 4]) ∧
    (∀ (ok : Bool), Within (.stagingReadbackDone ok) [[.counters, .memory, .power, .mode, .image, .engines, .datacast,
      .health, .openValues, .reg INT_STAT1.w, .reg DAY_USE_E.w, .reg DAY_USE_T.w, .reg MODE.w, .reg WAKE_HREASON.w,
      .reg IMG_A_VER.w, .reg IMG_A_PATCH.w, .reg IMG_A_BUILD_L.w, .reg IMG_A_BUILD_H.w, .reg IMG_A_INFO.w,
      .reg IMG_B_VER.w, .reg IMG_B_PATCH.w, .reg IMG_B_BUILD_L.w, .reg IMG_B_BUILD_H.w, .reg IMG_B_INFO.w,
      .reg IMG_STAGE.w, .reg IMG_STAGE_PROG.w, .reg EDF_STAT.w, .reg EDF_AREA_KIB.w, .reg EDF_USED_KIB.w,
      .reg EDF_OBJ_COLL.w, .reg EDF_OBJ_HELD.w, .reg EDF_WEAR_MAX.w, .reg EDF_WEAR_MIN.w, .reg EDF_VAN_N.w,
      .reg EDF_VAN_NEXT_L.w, .reg EDF_VAN_NEXT_H.w, .reg EDF_VAN_DUR.w], Area.regs (EDF_USE_F.w 0) 4]) ∧
    (Within (.stagingPause) [[.reg IMG_STAGE.w]]) ∧
    (Within (.stagingResume) [[.reg IMG_STAGE.w]]) ∧
    (Within (.stagingJournalResume) [[.counters, .memory, .power, .mode, .image, .engines, .datacast, .health,
      .openValues, .reg INT_STAT1.w, .reg DAY_USE_E.w, .reg DAY_USE_T.w, .reg MODE.w, .reg WAKE_HREASON.w,
      .reg IMG_A_VER.w, .reg IMG_A_PATCH.w, .reg IMG_A_BUILD_L.w, .reg IMG_A_BUILD_H.w, .reg IMG_A_INFO.w,
      .reg IMG_B_VER.w, .reg IMG_B_PATCH.w, .reg IMG_B_BUILD_L.w, .reg IMG_B_BUILD_H.w, .reg IMG_B_INFO.w,
      .reg IMG_STAGE.w, .reg IMG_STAGE_PROG.w, .reg EDF_STAT.w, .reg EDF_AREA_KIB.w, .reg EDF_USED_KIB.w,
      .reg EDF_OBJ_COLL.w, .reg EDF_OBJ_HELD.w, .reg EDF_WEAR_MAX.w, .reg EDF_WEAR_MIN.w, .reg EDF_VAN_N.w,
      .reg EDF_VAN_NEXT_L.w, .reg EDF_VAN_NEXT_H.w, .reg EDF_VAN_DUR.w], Area.regs (EDF_USE_F.w 0) 4]) ∧
    (∀ (stream obj : Nat), Within (.autoStage stream obj) [[.memory, .power, .image, .health, .reg MODE.w,
      .reg IMG_STAGE.w, .reg IMG_STAGE_PROG.w]]) ∧
    (∀ (f : Fn), Within (.hostLoadBegin f) [[.memory, .power, .image, .engines, .health, .reg IMG_A_VER.w,
      .reg IMG_A_PATCH.w, .reg IMG_A_BUILD_L.w, .reg IMG_A_BUILD_H.w, .reg IMG_A_INFO.w, .reg IMG_B_VER.w,
      .reg IMG_B_PATCH.w, .reg IMG_B_BUILD_L.w, .reg IMG_B_BUILD_H.w, .reg IMG_B_INFO.w, .reg IMG_HL_STAT.w,
      .reg IMG_HL_NEXT_L.w, .reg IMG_HL_NEXT_H.w]]) ∧
    (∀ (f : Fn) (w : Word), Within (.imageWindowWrite f w) [Area.access, [.memory, .power, .image, .health,
      .reg MEM_STAT.w, .reg MEM_POS_L.w, .reg MEM_POS_H.w, .reg MODE.w, .reg IMG_STAGE.w, .reg IMG_STAGE_PROG.w,
      .reg IMG_HL_STAT.w, .reg IMG_HL_NEXT_L.w, .reg IMG_HL_NEXT_H.w]]) ∧
    (Within (.imageWindowVerifyDone) [[.memory, .power, .boot, .image, .health, .reg MODE.w, .reg BOOT_STAT.w,
      .reg IMG_EPOCH.w, .reg IMG_STAGE.w, .reg IMG_STAGE_PROG.w, .reg IMG_HL_STAT.w]]) ∧
    (Within (.imageWindowIdle) [[.memory, .power, .image, .health, .reg MODE.w, .reg IMG_STAGE.w,
      .reg IMG_STAGE_PROG.w, .reg IMG_HL_STAT.w]]) ∧
    (∀ (cmd addr : Byte) (late fell : Option Nat) (bits : Nat) (fin : SpiEnd), Within (.spiReadFrame cmd addr late
      fell bits fin) [Area.access, [.latches, .power, .spi, .sched, .health, .hostOut, .openValues, .reg MEM_STAT.w,
      .reg MEM_POS_L.w, .reg MEM_POS_H.w, .reg MODE.w, .reg WAKE_CAUSE.w, .reg PWR_STAT.w, .reg RES_LEAK_EST.w,
      .reg RES_LEAK_INIT.w, .reg BOOT_CNT.w, .reg HP_EVT.w, .reg HP_LAST.w, .reg HP_CNT_SHORT.w, .reg HP_CNT_CRC.w,
      .reg HP_CNT_FRAMING.w, .reg HP_CNT_TIMEOUT.w, .reg HP_CNT_NRDY.w, .reg HP_FRAMES_L.w, .reg HP_FRAMES_H.w,
      .reg FLOOD_LFDEV.w, .reg CAL_REC_AGE.w, .reg EDF_STAT.w]]) ∧
    (∀ (cmd addr crc : Byte) (late fell : Option Nat) (bits : Nat) (fin : SpiEnd), Within (.spiReadCrcFrame cmd addr
      crc late fell bits fin) [Area.access, [.latches, .power, .spi, .sched, .health, .hostOut, .openValues,
      .reg MEM_STAT.w, .reg MEM_POS_L.w, .reg MEM_POS_H.w, .reg MODE.w, .reg WAKE_CAUSE.w, .reg PWR_STAT.w,
      .reg RES_LEAK_EST.w, .reg RES_LEAK_INIT.w, .reg BOOT_CNT.w, .reg HP_EVT.w, .reg HP_LAST.w, .reg HP_CNT_SHORT.w,
      .reg HP_CNT_CRC.w, .reg HP_CNT_FRAMING.w, .reg HP_CNT_TIMEOUT.w, .reg HP_CNT_NRDY.w, .reg HP_FRAMES_L.w,
      .reg HP_FRAMES_H.w, .reg FLOOD_LFDEV.w, .reg CAL_REC_AGE.w, .reg EDF_STAT.w]]) ∧
    (Within (.spiNullFrame) [[.power, .mode, .sched, .reg MODE.w, .reg WAKE_CAUSE.w, .reg PWR_STAT.w,
      .reg RES_LEAK_EST.w, .reg RES_LEAK_INIT.w, .reg BOOT_CNT.w]]) ∧
    (∀ (f : Fn), Within (.hpCntClr f) [Area.access, [.reg HP_CNT_SHORT.w, .reg HP_CNT_CRC.w, .reg HP_CNT_FRAMING.w,
      .reg HP_CNT_TIMEOUT.w, .reg HP_CNT_NRDY.w, .reg HP_FRAMES_L.w, .reg HP_FRAMES_H.w]]) ∧
    (∀ (a : Nat) (reg : Option Byte) (bytes : Nat) (fin : TwEnd), Within (.twReadFrame a reg bytes fin) [Area.access,
      [.latches, .twoWire, .health, .hostOut, .openValues, .reg MEM_STAT.w, .reg MEM_POS_L.w, .reg MEM_POS_H.w,
      .reg TW_EVT.w, .reg TW_LAST.w, .reg TW_CNT_ERR.w, .reg FLOOD_LFDEV.w, .reg CAL_REC_AGE.w, .reg EDF_STAT.w]]) ∧
    (Within (.twStretchTimeout) [Area.access, [.twoWire, .reg TW_EVT.w, .reg TW_LAST.w, .reg TW_CNT_ERR.w]]) ∧
    (∀ (a : Nat), Within (.twWakeMatch a) [[.power, .mode, .twoWire, .sched, .reg MODE.w, .reg WAKE_CAUSE.w,
      .reg PWR_STAT.w, .reg RES_LEAK_EST.w, .reg RES_LEAK_INIT.w, .reg BOOT_CNT.w]]) ∧
    (Within (.twWakeRelease) [[.twoWire]]) ∧
    (Within (.wakeStretch) [Area.access, [.twoWire, .reg TW_EVT.w, .reg TW_LAST.w, .reg TW_CNT_ERR.w]]) ∧
    (∀ (f : Fn) (off : Nat) (v : Word), Within (.twAddressConfigWrite f off v) [Area.access, [.twoWire, .reg TW_CFG.w,
      .reg TW_FADDR01.w, .reg TW_FADDR23.w, .reg TW_ADDR.w, .reg TW_MASK.w, .reg TW_HOSTADDR.w]]) ∧
    (∀ (f : Fn), Within (.attentionMessageForm f) [[.power, .mode, .engines, .sched, .reg ATTN_ACK.w, .reg MODE.w,
      .reg WAKE_CAUSE.w, .reg PWR_STAT.w, .reg RES_LEAK_EST.w, .reg RES_LEAK_INIT.w, .reg BOOT_CNT.w]]) ∧
    (∀ (f : Fn) (e : AttnEnd), Within (.attentionAttempt f e) [[.twoWire, .engines, .hostOut, .reg ATTN_ACK.w,
      .reg TW_EVT.w, .reg TW_ATTN_STAT.w, .reg TW_CNT_ATTN.w]]) ∧
    (∀ (f : Fn), Within (.attentionRepeat f) [[.power, .mode, .engines, .sched, .reg MODE.w, .reg WAKE_CAUSE.w,
      .reg PWR_STAT.w, .reg RES_LEAK_EST.w, .reg RES_LEAK_INIT.w, .reg BOOT_CNT.w]]) ∧
    (∀ (f : Fn), Within (.attnFallback f) [[.counters, .mode, .twoWire, .engines, .reg ATTN_ACK.w, .reg INT_STAT1.w,
      .reg WAKE_HREASON.w, .reg TW_EVT.w]]) ∧
    (∀ (f : Fn) (v : Word), Within (.attnAckWrite f v) [Area.access, [.twoWire, .reg ATTN_ACK.w, .reg TW_EVT.w,
      .reg TW_ATTN_STAT.w]]) ∧
    (∀ (f : Fn), Within (.arbLost f) [[.twoWire, .engines, .reg ATTN_ACK.w, .reg TW_ATTN_STAT.w, .reg TW_CNT_ARB.w]])
      ∧
    (∀ (f : Fn), Within (.twArbSr f) [[.counters, .mode, .twoWire, .engines, .reg ATTN_ACK.w, .reg INT_STAT1.w,
      .reg WAKE_HREASON.w, .reg TW_EVT.w, .reg TW_ATTN_STAT.w, .reg TW_CNT_ARB.w]]) ∧
    (∀ (f : Fn), Within (.arbBackoffExpiry f) [[.power, .mode, .engines, .sched, .reg MODE.w, .reg WAKE_CAUSE.w,
      .reg PWR_STAT.w, .reg RES_LEAK_EST.w, .reg RES_LEAK_INIT.w, .reg BOOT_CNT.w]]) ∧
    (∀ (lowUs : Nat), Within (.twrstPulse lowUs) [Area.access, [.twoWire, .openValues, .reg ATTN_ACK.w, .reg TW_EVT.w,
      .reg TW_LAST.w, .reg TW_ATTN_STAT.w, .reg TW_CNT_ERR.w]]) ∧
    (∀ (sda again : Bool), Within (.stuckBus sda again) [Area.access, [.pins, .twoWire, .reg ATTN_ACK.w,
      .reg TW_EVT.w, .reg TW_LAST.w, .reg TW_ATTN_STAT.w, .reg TW_CNT_ERR.w]]) ∧
    (∀ (f : Fn), Within (.twBusReset f) [Area.access, [.pins, .twoWire, .reg ATTN_ACK.w, .reg TW_EVT.w,
      .reg TW_LAST.w, .reg TW_ATTN_STAT.w, .reg TW_CNT_ERR.w]]) ∧
    (∀ (f : Fn), Within (.twCntClr f) [Area.access, [.reg TW_CNT_ERR.w, .reg TW_CNT_ARB.w, .reg TW_CNT_ATTN.w]]) ∧
    (∀ (f : Fn) (idx : Nat), Within (.slotEnd f idx) [Area.event, Area.reception, [.memory, .power, .sched, .ports,
      .biphase, .capture, .openValues, .reg DAY_USE_E.w, .reg DAY_USE_T.w, .reg DQ_LOST.w, .reg MODE.w,
      .reg PWR_STAT.w, .reg SCHED_CNT_MISSED.w, .reg TIME_TRIM_L.w, .reg TIME_TRIM_H.w, .reg (AP.STAT.w 0),
      .reg (AP.RXFREE.w 0), .reg (AP.STAT.w 1), .reg (AP.RXFREE.w 1), .reg BPH_STAT.w, .reg CAPT_STAT.w,
      .reg CAPT_WPTR.w, .reg CAPT_RPTR.w, .reg CAPT_FREE.w, .reg CAPT_CNT_DISC.w, .reg CAPT_CNT_LOST.w]]) ∧
    (∀ (f : Fn), Within (.signRecord f) [[.engines, .openValues, .reg FLINT_REFCNT.w]]) ∧
    (Within (.busDeadRelease) [[.twoWire]])

/-- What each mailbox, partition and plan command leaves unchanged: every register, store and engine outside its list
(a register of the common part is listed for all four functions). -/
def Obligations.MailboxPartitionAndPlanCommandsLeaveTheRest : Prop :=
  (∀ (f : Fn) (v : Word), Within (.fnErrWrite f v) [Area.access]) ∧
    (∀ (f : Fn) (v : Word), Within (.fnReset f v) [Area.access, [.power, .sched, .reg FN_STATE.w, .reg PLAN_STAT.w,
      .reg PLAN_COUNT.w, .reg CLK_STAT.w, .reg MODE.w, .reg WAKE_CAUSE.w, .reg PWR_STAT.w, .reg RES_LEAK_EST.w,
      .reg RES_LEAK_INIT.w, .reg BOOT_CNT.w, .reg PART_STAT.w, .reg SCHED_STAT.w]]) ∧
    (∀ (f : Fn) (v : Word), Within (.freset f v) [Area.access, [.power, .sched, .reg FN_STATE.w, .reg PLAN_STAT.w,
      .reg PLAN_COUNT.w, .reg CLK_STAT.w, .reg MODE.w, .reg WAKE_CAUSE.w, .reg PWR_STAT.w, .reg RES_LEAK_EST.w,
      .reg RES_LEAK_INIT.w, .reg BOOT_CNT.w, .reg PART_STAT.w, .reg SCHED_STAT.w]]) ∧
    (∀ (f : Fn), Within (.fnResetDone f) [Area.access, Area.reception, [.latches, .memory, .power, .twoWire, .plans,
      .sched, .ports, .biphase, .capture, .openValues, .reg FN_STATE.w, .reg ATTN_ACK.w, .reg INT_STAT0.w,
      .reg INT_EN0.w, .reg INT_EN1.w, .reg INT_ROUTE.w, .reg INT_CNT_SEL.w, .reg CMD_OP.w, .reg CMD_STAT.w,
      .reg PLAN_STAT.w, .reg PLAN_COUNT.w, .reg PLAN_USE_E.w, .reg PLAN_USE_T.w, .reg DAY_USE_E.w, .reg DAY_USE_T.w,
      .reg DQ_THR.w, .reg DQ_LOST.w, .reg MEM_ADDR_H.w, .reg MEM_ADDR_L.w, .reg MEM_CTRL.w, .reg MEM_STAT.w,
      .reg MEM_POS_L.w, .reg MEM_POS_H.w, .reg PAGE.w, .reg MODE.w, .reg PWR_STAT.w, .reg IMG_STAGE.w, .reg TW_EVT.w,
      .reg TW_ATTN_STAT.w, .reg PART_STAT.w, .reg SCHED_STAT.w, .reg SCHED_DEV_PLAN.w, .reg SCHED_CNT_MISSED.w,
      .reg TIME_TRIM_L.w, .reg TIME_TRIM_H.w, .reg (AP.STAT.w 0), .reg (AP.RXFREE.w 0), .reg (AP.STAT.w 1),
      .reg (AP.RXFREE.w 1), .reg BPH_STAT.w, .reg CAPT_STAT.w, .reg CAPT_WPTR.w, .reg CAPT_RPTR.w, .reg CAPT_FREE.w,
      .reg CAPT_CNT_DISC.w, .reg CAPT_CNT_LOST.w], Area.regs (CMD_ARG.w 0) 6, Area.regs (CMD_RES.w 0) 4]) ∧
    (∀ (f : Fn) (v : Word), Within (.partLock f v) [Area.access, [.power, .sched, .reg FN_STATE.w, .reg PLAN_STAT.w,
      .reg PLAN_COUNT.w, .reg CLK_STAT.w, .reg MODE.w, .reg WAKE_CAUSE.w, .reg PWR_STAT.w, .reg RES_LEAK_EST.w,
      .reg RES_LEAK_INIT.w, .reg BOOT_CNT.w, .reg PART_STAT.w, .reg SCHED_STAT.w]]) ∧
    (∀ (f : Fn) (v : Word), Within (.partDqWrite f v) [Area.access, [.reg INT_STAT0.w, .reg DQ_LOST.w,
      .reg PART_DQ.w]]) ∧
    (∀ (f : Fn) (v : Word), Within (.cmdGo f v) [Area.access, [.power, .flint, .sched, .health, .reg INT_STAT0.w,
      .reg CMD_STAT.w, .reg CLK_STAT.w, .reg MODE.w, .reg WAKE_CAUSE.w, .reg PWR_STAT.w, .reg RES_LEAK_EST.w,
      .reg RES_LEAK_INIT.w, .reg BOOT_CNT.w, .reg IMG_STAGE.w], Area.regs (CMD_RES.w 0) 4]) ∧
    (∀ (f : Fn), Within (.cmdDone f) [Area.event, [.reg FN_ERR.w, .reg CMD_STAT.w], Area.regs (CMD_RES.w 0) 4]) ∧
    (∀ (f : Fn), Within (.opTimeout f) [Area.event, [.reg FN_ERR.w, .reg CMD_STAT.w, .reg MODE.w, .reg IMG_STAGE.w],
      Area.regs (CMD_RES.w 0) 4]) ∧
    (∀ (f : Fn), Within (.nop f) [[.engines]]) ∧
    (∀ (f : Fn), Within (.dqDataRead f) [Area.access, [.hostOut]]) ∧
    (∀ (f : Fn), Within (.dqFlush f) [Area.access]) ∧
    (∀ (f : Fn) (v : Word), Within (.memAddrWrite f v) [Area.access, [.reg MEM_ADDR_L.w, .reg MEM_POS_L.w,
      .reg MEM_POS_H.w]]) ∧
    (∀ (f : Fn) (w : Option Word) (qspiTo : Bool), Within (.memDataAccess f w qspiTo) [Area.access, [.memory, .power,
      .image, .health, .hostOut, .reg MEM_STAT.w, .reg MEM_POS_L.w, .reg MEM_POS_H.w, .reg MODE.w, .reg IMG_STAGE.w,
      .reg IMG_STAGE_PROG.w, .reg IMG_HL_STAT.w, .reg IMG_HL_NEXT_L.w, .reg IMG_HL_NEXT_H.w]]) ∧
    (∀ (f : Fn), Within (.planBegin f) [Area.access, [.plans, .reg PLAN_STAT.w, .reg PLAN_WIDX.w, .reg PLAN_COUNT.w,
      .reg MODE.w, .reg SCHED_STAT.w]]) ∧
    (∀ (f : Fn) (v : Word), Within (.wrec15Write f v) [Area.access, [.plans, .reg PLAN_STAT.w, .reg PLAN_WIDX.w,
      .reg PLAN_COUNT.w, .reg (WREC.w 15), .reg MODE.w, .reg SCHED_STAT.w]]) ∧
    (∀ (f : Fn) (v : Word), Within (.planWidxWrite f v) [Area.access, [.reg PLAN_STAT.w, .reg PLAN_WIDX.w],
      Area.regs (WREC.w 0) 16]) ∧
    (∀ (f : Fn), Within (.planSubmit f) [Area.access, Area.reception, [.memory, .power, .plans, .sched, .ports,
      .biphase, .capture, .openValues, .reg INT_STAT0.w, .reg PLAN_STAT.w, .reg PLAN_RESULT.w, .reg PLAN_FAILW.w,
      .reg PLAN_COUNT.w, .reg PLAN_USE_E.w, .reg PLAN_USE_T.w, .reg DAY_USE_E.w, .reg DAY_USE_T.w, .reg DQ_LOST.w,
      .reg MODE.w, .reg WAKE_CAUSE.w, .reg PWR_STAT.w, .reg RES_LEAK_EST.w, .reg RES_LEAK_INIT.w, .reg BOOT_CNT.w,
      .reg SCHED_STAT.w, .reg SCHED_DEV_PLAN.w, .reg SCHED_CNT_MISSED.w, .reg TIME_TRIM_L.w, .reg TIME_TRIM_H.w,
      .reg (AP.STAT.w 0), .reg (AP.RXFREE.w 0), .reg (AP.STAT.w 1), .reg (AP.RXFREE.w 1), .reg BPH_STAT.w,
      .reg CAPT_STAT.w, .reg CAPT_WPTR.w, .reg CAPT_RPTR.w, .reg CAPT_FREE.w, .reg CAPT_CNT_DISC.w,
      .reg CAPT_CNT_LOST.w]]) ∧
    (∀ (f : Fn), Within (.planWithdraw f) [Area.access, Area.reception, [.memory, .power, .plans, .sched, .ports,
      .biphase, .capture, .openValues, .reg INT_STAT0.w, .reg PLAN_STAT.w, .reg PLAN_RESULT.w, .reg PLAN_FAILW.w,
      .reg PLAN_COUNT.w, .reg PLAN_USE_E.w, .reg PLAN_USE_T.w, .reg DAY_USE_E.w, .reg DAY_USE_T.w, .reg DQ_LOST.w,
      .reg MODE.w, .reg PWR_STAT.w, .reg SCHED_STAT.w, .reg SCHED_DEV_PLAN.w, .reg SCHED_CNT_MISSED.w,
      .reg TIME_TRIM_L.w, .reg TIME_TRIM_H.w, .reg (AP.STAT.w 0), .reg (AP.RXFREE.w 0), .reg (AP.STAT.w 1),
      .reg (AP.RXFREE.w 1), .reg BPH_STAT.w, .reg CAPT_STAT.w, .reg CAPT_WPTR.w, .reg CAPT_RPTR.w, .reg CAPT_FREE.w,
      .reg CAPT_CNT_DISC.w, .reg CAPT_CNT_LOST.w]]) ∧
    (Within (.admissionDone) [Area.event, Area.reception, [.memory, .power, .plans, .sched, .ports, .biphase,
      .capture, .openValues, .reg PLAN_STAT.w, .reg PLAN_RESULT.w, .reg PLAN_FAILW.w, .reg PLAN_COUNT.w,
      .reg PLAN_SEQ.w, .reg PLAN_USE_E.w, .reg PLAN_USE_T.w, .reg DAY_USE_E.w, .reg DAY_USE_T.w, .reg DQ_LOST.w,
      .reg MODE.w, .reg PWR_STAT.w, .reg SCHED_STAT.w, .reg SCHED_DEV_PLAN.w, .reg SCHED_ADMIT_US.w,
      .reg SCHED_CNT_REFUSED.w, .reg TIME_TRIM_L.w, .reg TIME_TRIM_H.w, .reg (AP.STAT.w 0), .reg (AP.RXFREE.w 0),
      .reg (AP.STAT.w 1), .reg (AP.RXFREE.w 1), .reg BPH_STAT.w, .reg CAPT_STAT.w, .reg CAPT_WPTR.w, .reg CAPT_RPTR.w,
      .reg CAPT_FREE.w, .reg CAPT_CNT_DISC.w, .reg CAPT_CNT_LOST.w]]) ∧
    (Within (.planSnapshotWrite) [[.engines, .sched, .openValues, .reg DAY_USE_E.w, .reg DAY_USE_T.w]]) ∧
    (Within (.readmission) [Area.event, Area.reception, [.memory, .power, .plans, .sched, .ports, .biphase, .capture,
      .openValues, .reg PLAN_STAT.w, .reg PLAN_COUNT.w, .reg PLAN_USE_E.w, .reg PLAN_USE_T.w, .reg DAY_USE_E.w,
      .reg DAY_USE_T.w, .reg DQ_LOST.w, .reg MODE.w, .reg PWR_STAT.w, .reg SCHED_STAT.w, .reg SCHED_DEV_PLAN.w,
      .reg SCHED_CNT_MISSED.w, .reg TIME_TRIM_L.w, .reg TIME_TRIM_H.w, .reg (AP.STAT.w 0), .reg (AP.RXFREE.w 0),
      .reg (AP.STAT.w 1), .reg (AP.RXFREE.w 1), .reg BPH_STAT.w, .reg CAPT_STAT.w, .reg CAPT_WPTR.w, .reg CAPT_RPTR.w,
      .reg CAPT_FREE.w, .reg CAPT_CNT_DISC.w, .reg CAPT_CNT_LOST.w]]) ∧
    (Within (.dayStart) [[.engines, .sched, .time, .openValues, .reg DAY_USE_E.w, .reg DAY_USE_T.w,
      .reg SCHED_DEV_USE.w, .reg TIME_AGING.w]]) ∧
    (∀ (f : Fn) (idx : Nat), Within (.slotStart f idx) [Area.event, Area.reception, [.memory, .plans, .sched, .time,
      .ports, .biphase, .capture, .openValues, .reg INT_STAT1.w, .reg PLAN_STAT.w, .reg DAY_USE_E.w, .reg DAY_USE_T.w,
      .reg DQ_LOST.w, .reg MODE.w, .reg SCHED_CNT_MISSED.w, .reg TIME_TRIM_L.w, .reg TIME_TRIM_H.w, .reg (AP.STAT.w
      0), .reg (AP.RXFREE.w 0), .reg (AP.STAT.w 1), .reg (AP.RXFREE.w 1), .reg BPH_STAT.w, .reg CAPT_STAT.w,
      .reg CAPT_WPTR.w, .reg CAPT_RPTR.w, .reg CAPT_FREE.w, .reg CAPT_CNT_DISC.w, .reg CAPT_CNT_LOST.w]]) ∧
    (∀ (f : Fn), Within (.listenStart f) [Area.event, Area.reception, [.plans, .sched, .time, .openValues,
      .reg PLAN_STAT.w, .reg DAY_USE_E.w, .reg DAY_USE_T.w, .reg DQ_LOST.w, .reg MODE.w, .reg SCHED_CNT_MISSED.w]]) ∧
    (∀ (f : Fn), Within (.listenStop f) [Area.event, Area.reception, [.memory, .power, .plans, .sched, .ports,
      .biphase, .capture, .openValues, .reg PLAN_STAT.w, .reg DAY_USE_E.w, .reg DAY_USE_T.w, .reg DQ_LOST.w,
      .reg MODE.w, .reg PWR_STAT.w, .reg SCHED_CNT_MISSED.w, .reg TIME_TRIM_L.w, .reg TIME_TRIM_H.w, .reg (AP.STAT.w
      0), .reg (AP.RXFREE.w 0), .reg (AP.STAT.w 1), .reg (AP.RXFREE.w 1), .reg BPH_STAT.w, .reg CAPT_STAT.w,
      .reg CAPT_WPTR.w, .reg CAPT_RPTR.w, .reg CAPT_FREE.w, .reg CAPT_CNT_DISC.w, .reg CAPT_CNT_LOST.w]]) ∧
    (∀ (f : Fn), Within (.listenMaxDuration f) [Area.event, Area.reception, [.memory, .power, .plans, .sched, .ports,
      .biphase, .capture, .openValues, .reg PLAN_STAT.w, .reg DAY_USE_E.w, .reg DAY_USE_T.w, .reg DQ_LOST.w,
      .reg MODE.w, .reg PWR_STAT.w, .reg SCHED_CNT_MISSED.w, .reg TIME_TRIM_L.w, .reg TIME_TRIM_H.w, .reg (AP.STAT.w
      0), .reg (AP.RXFREE.w 0), .reg (AP.STAT.w 1), .reg (AP.RXFREE.w 1), .reg BPH_STAT.w, .reg CAPT_STAT.w,
      .reg CAPT_WPTR.w, .reg CAPT_RPTR.w, .reg CAPT_FREE.w, .reg CAPT_CNT_DISC.w, .reg CAPT_CNT_LOST.w]]) ∧
    (∀ (f : Fn), Within (.listenResumed f) [Area.event, [.plans, .sched, .frontEnd, .fm, .dab, .lf, .time,
      .openValues, .reg PLAN_STAT.w, .reg DAY_USE_E.w, .reg DAY_USE_T.w, .reg DQ_LOST.w, .reg CLK_STAT.w, .reg MODE.w,
      .reg SCHED_CNT_MISSED.w, .reg FES_STAT.w, .reg FES_RSSI.w, .reg SYN_STAT.w, .reg FMR_STAT.w, .reg FMR_PI.w,
      .reg FMR_ODA_AID.w, .reg FMR_ODA_TYPE.w, .reg FMR_AF_N.w, .reg DAB_STAT.w, .reg DAB_EID.w, .reg DAB_SID_L.w,
      .reg DAB_SID_H.w, .reg DAB_SUBCH.w, .reg DAB_SUBCH_PROT.w, .reg DAB_SUBCH_START.w, .reg DAB_CIF.w,
      .reg DAB_FERR.w, .reg DAB_FERR_SD.w, .reg DAB_AF_N.w, .reg LFT_STAT.w, .reg LFT_FERR.w], Area.regs (FMR_AF.w 0)
      25, Area.regs (DAB_AF.w 0) 16, Area.regs (DAB_AF_F.w 0) 16])

/-- What each radio command leaves unchanged: every register, store and engine outside its list (a register of the
common part is listed for all four functions). -/
def Obligations.RadioCommandsLeaveTheRest : Prop :=
  (∀ (temp : Int), Within (.tuneJobStart temp) [Area.event, Area.reception, [.sched, .openValues, .reg DAY_USE_E.w,
    .reg DAY_USE_T.w, .reg DQ_LOST.w, .reg MODE.w, .reg SCHED_CNT_MISSED.w, .reg FES_KFC_L.w, .reg FES_KFC_H.w,
    .reg FES_AGC.w, .reg FES_RAW_LNA.w, .reg FES_RAW_MIX.w, .reg FES_RAW_LFPGA.w, .reg SYN_DIV.w, .reg SYN_N.w,
    .reg SYN_FRAC_L.w, .reg SYN_FRAC_H.w, .reg SYN_BAND.w, .reg SYN_LO_L.w, .reg SYN_LO_H.w, .reg CAL_TEMP.w]]) ∧
    (∀ (vtune : Nat), Within (.tuneLock vtune) [[.frontEnd, .reg FES_STAT.w, .reg SYN_STAT.w, .reg SYN_VTUNE.w]]) ∧
    (∀ (band : Nat), Within (.tuneLockTimeout band) [Area.event, Area.reception, [.sched, .time, .openValues,
      .reg DAY_USE_E.w, .reg DAY_USE_T.w, .reg DQ_LOST.w, .reg MODE.w, .reg SCHED_CNT_MISSED.w,
      .reg FES_CNT_LOCKFAIL.w, .reg SYN_BAND.w]]) ∧
    (∀ (rssi : Int) (lna ifGain lfGain : Nat), Within (.agcSettled rssi lna ifGain lfGain) [Area.reception,
      [.counters, .mode, .engines, .time, .reg INT_STAT1.w, .reg WAKE_HREASON.w, .reg FES_AGC.w, .reg FES_RAW_LNA.w,
      .reg FES_RAW_MIX.w, .reg FES_RAW_LFPGA.w, .reg FLOOD_STAT.w, .reg FLOOD_LFDEV.w]]) ∧
    (Within (.lossOfLock) [[.frontEnd, .fm, .reg FES_STAT.w, .reg FES_RSSI.w, .reg SYN_STAT.w]]) ∧
    (Within (.listenJobRetry) [[.reg FES_STAT.w]]) ∧
    (∀ (f : Fn), Within (.fesAfGo f) [Area.access, [.frontEnd, .reg FES_STAT.w, .reg FES_AF_STAT.w, .reg SYN_STAT.w,
      .reg SYN_DIV.w, .reg SYN_N.w, .reg SYN_FRAC_L.w, .reg SYN_FRAC_H.w, .reg SYN_BAND.w, .reg SYN_LO_L.w,
      .reg SYN_LO_H.w]]) ∧
    (∀ (rssi : Option Int) (us : Nat), Within (.afCheck rssi us) [[.counters, .mode, .engines, .frontEnd, .fm,
      .reg INT_STAT1.w, .reg WAKE_HREASON.w, .reg FES_STAT.w, .reg FES_AF_STAT.w, .reg FES_AF_RSSI.w,
      .reg FLOOD_STAT.w, .reg FLOOD_LFDEV.w, .reg SYN_STAT.w, .reg SYN_DIV.w, .reg SYN_N.w, .reg SYN_FRAC_L.w,
      .reg SYN_FRAC_H.w, .reg SYN_BAND.w, .reg SYN_LO_L.w, .reg SYN_LO_H.w]]) ∧
    (∀ (f : Fn), Within (.synApply f) [Area.access, [.sched, .frontEnd, .fm, .dab, .lf, .openValues, .reg DAY_USE_E.w,
      .reg DAY_USE_T.w, .reg FES_STAT.w, .reg FES_AF_STAT.w, .reg FES_CNT_RAW.w, .reg SYN_STAT.w, .reg SYN_DIV.w,
      .reg SYN_N.w, .reg SYN_FRAC_L.w, .reg SYN_FRAC_H.w, .reg SYN_BAND.w, .reg SYN_LO_L.w, .reg SYN_LO_H.w,
      .reg FMR_STAT.w, .reg DAB_STAT.w]]) ∧
    (∀ (f : Fn) (off : Nat) (v : Word), Within (.rawFesWrite f off v) [Area.access, [.sched, .frontEnd, .fm, .dab,
      .lf, .openValues, .reg DAY_USE_E.w, .reg DAY_USE_T.w, .reg FES_STAT.w, .reg FES_AGC.w, .reg FES_AF_STAT.w,
      .reg FES_RAW_LNA.w, .reg FES_RAW_MIX.w, .reg FES_RAW_LFPGA.w, .reg FES_CNT_RAW.w, .reg SYN_STAT.w,
      .reg SYN_DIV.w, .reg SYN_N.w, .reg SYN_FRAC_L.w, .reg SYN_FRAC_H.w, .reg SYN_BAND.w, .reg SYN_LO_L.w,
      .reg SYN_LO_H.w, .reg FMR_STAT.w, .reg DAB_STAT.w]]) ∧
    (∀ (f : Fn) (v : Word), Within (.rawHold f v) [Area.access, Area.reception, [.plans, .sched, .time, .openValues,
      .reg INT_STAT0.w, .reg PLAN_STAT.w, .reg DAY_USE_E.w, .reg DAY_USE_T.w, .reg DQ_LOST.w, .reg MODE.w,
      .reg SCHED_CNT_MISSED.w, .reg FES_RAW_CTL.w, .reg FES_CNT_RAW.w, .reg SYN_DIV.w, .reg SYN_N.w,
      .reg SYN_FRAC_L.w, .reg SYN_FRAC_H.w, .reg SYN_BAND.w, .reg SYN_LO_L.w, .reg SYN_LO_H.w]]) ∧
    (∀ (f : Fn), Within (.rawHoldClear f) [Area.access, Area.reception, [.plans, .sched, .time, .openValues,
      .reg INT_STAT0.w, .reg PLAN_STAT.w, .reg DAY_USE_E.w, .reg DAY_USE_T.w, .reg DQ_LOST.w, .reg MODE.w,
      .reg SCHED_CNT_MISSED.w, .reg FES_RAW_CTL.w, .reg FES_CNT_RAW.w, .reg SYN_DIV.w, .reg SYN_N.w,
      .reg SYN_FRAC_L.w, .reg SYN_FRAC_H.w, .reg SYN_BAND.w, .reg SYN_LO_L.w, .reg SYN_LO_H.w]]) ∧
    (∀ (f : Fn), Within (.calRun f) [[.engines, .frontEnd, .openValues, .reg CLK_STAT.w, .reg MODE.w, .reg FES_STAT.w,
      .reg CAL_STAT.w]]) ∧
    (∀ (good margin ms : Nat) (temp : Int) (bands : List Nat), Within (.calDone good margin ms temp bands)
      [Area.event, Area.reception, [.plans, .sched, .openValues, .reg INT_STAT1.w, .reg PLAN_STAT.w, .reg DAY_USE_E.w,
      .reg DAY_USE_T.w, .reg DQ_LOST.w, .reg MODE.w, .reg SCHED_CNT_MISSED.w, .reg FES_CNT_RAW.w, .reg SYN_DIV.w,
      .reg SYN_N.w, .reg SYN_FRAC_L.w, .reg SYN_FRAC_H.w, .reg SYN_BAND.w, .reg SYN_LO_L.w, .reg SYN_LO_H.w,
      .reg CAL_STAT.w, .reg CAL_TEMP.w, .reg CAL_REC_TEMP.w, .reg CAL_REC_AGE.w, .reg CAL_LAST_MS.w,
      .reg CAL_VCO_MARGIN.w, .reg CAL_DONE_MASK.w, .reg CAL_CNT.w]]) ∧
    (Within (.autoPend) [[.reg CAL_STAT.w, .reg CAL_REC_AGE.w]]) ∧
    (Within (.autoCalStart) [[.frontEnd, .openValues, .reg CLK_STAT.w, .reg MODE.w, .reg FES_STAT.w,
      .reg CAL_STAT.w]]) ∧
    (Within (.floodUnknownTimeout) [[.counters, .mode, .engines, .reg INT_STAT1.w, .reg WAKE_HREASON.w,
      .reg FLOOD_STAT.w]]) ∧
    (∀ (f : Fn), Within (.relearn f) [Area.access, [.frontEnd, .reg FLOOD_STAT.w]]) ∧
    (∀ (f : Fn) (idx : Nat), Within (.rfSurvey f idx) [Area.event, [.frontEnd, .reg DQ_LOST.w]]) ∧
    (∀ (pilot : Bool), Within (.rdsSyncAcquired pilot) [[.fm, .reg FMR_STAT.w]]) ∧
    (Within (.rdsSyncLost) [[.fm, .reg FMR_STAT.w, .reg FMR_SYNC_CNT.w]]) ∧
    (∀ (pos bits : Nat) (data : Word), Within (.rdsBlock pos bits data) [[.fm, .reg FMR_STAT.w, .reg FMR_PI.w,
      .reg FMR_BLK_L.w, .reg FMR_BLK_H.w, .reg FMR_BLK_BAD_L.w, .reg FMR_BLK_BAD_H.w]]) ∧
    (∀ (at_ : Nat), Within (.rdsGroup at_) [Area.event, [.fm, .time, .datacast, .reg DQ_LOST.w, .reg FMR_STAT.w,
      .reg FMR_ODA_TYPE.w, .reg FMR_CT_CNT.w, .reg FMR_CT_REJ.w, .reg FMR_AF_N.w, .reg (FMR_AF.w 25), .reg (FMR_AF.w
      26), .reg (FMR_AF.w 27), .reg (FMR_AF.w 28), .reg (FMR_AF.w 29), .reg (FMR_AF.w 30), .reg (FMR_AF.w 31),
      .reg EDF_STAT.w, .reg EDF_AREA_KIB.w, .reg EDF_USED_KIB.w, .reg EDF_OBJ_COLL.w, .reg EDF_OBJ_HELD.w,
      .reg EDF_CNT_SEG.w, .reg EDF_CNT_BAD.w, .reg EDF_CNT_NEW.w, .reg EDF_CNT_DUP.w, .reg EDF_CNT_QUOTA.w,
      .reg EDF_CNT_DROP.w, .reg EDF_WEAR_MAX.w, .reg EDF_WEAR_MIN.w, .reg EDF_VAN_N.w, .reg EDF_VAN_NEXT_L.w,
      .reg EDF_VAN_NEXT_H.w, .reg EDF_VAN_DUR.w], Area.regs (FMR_AF.w 0) 25, Area.regs (EDF_USE_F.w 0) 4]) ∧
    (Within (.afListComplete) [Area.event, [.fm, .reg DQ_LOST.w, .reg FMR_AF_N.w, .reg (FMR_AF.w 25), .reg (FMR_AF.w
      26), .reg (FMR_AF.w 27), .reg (FMR_AF.w 28), .reg (FMR_AF.w 29), .reg (FMR_AF.w 30), .reg (FMR_AF.w 31)],
      Area.regs (FMR_AF.w 0) 25]) ∧
    (∀ (cause : Nat) (rssis : List (Option Int)), Within (.afSearch cause rssis) [Area.event, [.frontEnd, .fm,
      .openValues, .reg INT_STAT1.w, .reg DQ_LOST.w, .reg CLK_STAT.w, .reg FES_STAT.w, .reg FES_RSSI.w,
      .reg FES_AF_STAT.w, .reg FES_AF_RSSI.w, .reg FLOOD_STAT.w, .reg FLOOD_LFDEV.w, .reg SYN_STAT.w, .reg FMR_STAT.w,
      .reg FMR_AF_N.w, .reg (FMR_AF.w 25), .reg (FMR_AF.w 26), .reg (FMR_AF.w 27), .reg (FMR_AF.w 28), .reg (FMR_AF.w
      29), .reg (FMR_AF.w 30), .reg (FMR_AF.w 31)], Area.regs (FMR_AF.w 0) 25]) ∧
    (∀ (us : Nat), Within (.afSwitch us) [Area.event, [.fm, .reg INT_STAT1.w, .reg DQ_LOST.w, .reg FMR_STAT.w,
      .reg FMR_AF_N.w, .reg FMR_AF_CNT_SW.w, .reg (FMR_AF.w 25), .reg (FMR_AF.w 26), .reg (FMR_AF.w 27),
      .reg (FMR_AF.w 28), .reg (FMR_AF.w 29), .reg (FMR_AF.w 30), .reg (FMR_AF.w 31)], Area.regs (FMR_AF.w 0) 25]) ∧
    (Within (.afReturn) [Area.event, [.frontEnd, .fm, .reg DQ_LOST.w, .reg CLK_STAT.w, .reg FES_STAT.w,
      .reg FES_RSSI.w, .reg SYN_STAT.w, .reg FMR_STAT.w, .reg FMR_AF_N.w, .reg FMR_AF_CNT_RET.w, .reg (FMR_AF.w 25),
      .reg (FMR_AF.w 26), .reg (FMR_AF.w 27), .reg (FMR_AF.w 28), .reg (FMR_AF.w 29), .reg (FMR_AF.w 30),
      .reg (FMR_AF.w 31)], Area.regs (FMR_AF.w 0) 25]) ∧
    (∀ (rssi : Option Int), Within (.afPeriodicCheck rssi) [[.counters, .mode, .engines, .frontEnd, .fm, .openValues,
      .reg INT_STAT1.w, .reg WAKE_HREASON.w, .reg FES_AF_STAT.w, .reg FES_AF_RSSI.w, .reg FLOOD_STAT.w,
      .reg FLOOD_LFDEV.w, .reg FMR_AF_N.w, .reg (FMR_AF.w 25), .reg (FMR_AF.w 26), .reg (FMR_AF.w 27), .reg (FMR_AF.w
      28), .reg (FMR_AF.w 29), .reg (FMR_AF.w 30), .reg (FMR_AF.w 31)], Area.regs (FMR_AF.w 0) 25]) ∧
    (Within (.afRecall) [[.frontEnd, .fm, .reg CLK_STAT.w, .reg FES_STAT.w, .reg FES_RSSI.w, .reg SYN_STAT.w,
      .reg FMR_STAT.w]]) ∧
    (Within (.dabSync) [[.dab, .reg DAB_STAT.w]]) ∧
    (Within (.dabSyncLost) [[.dab, .reg DAB_STAT.w, .reg DAB_FERR.w, .reg DAB_CNT_SYNC.w]]) ∧
    (∀ (at_ : Nat) (crcOk : Bool) (bytes : List Byte), Within (.dabFib at_ crcOk bytes) [Area.event, [.sched,
      .frontEnd, .dab, .time, .reg DQ_LOST.w, .reg DAB_STAT.w, .reg DAB_EID.w, .reg DAB_SID_L.w, .reg DAB_SID_H.w,
      .reg DAB_SUBCH.w, .reg DAB_SUBCH_PROT.w, .reg DAB_SUBCH_START.w, .reg DAB_CIF.w, .reg DAB_CNT_FIB.w,
      .reg DAB_CNT_FIB_BAD.w, .reg DAB_AF_N.w, .reg DAB_TIME_CNT.w, .reg DAB_TIME_REJ.w, .reg TIME_STAT.w,
      .reg TIME_LEAP_PEND.w, .reg TIME_LEAP_AT_L.w, .reg TIME_LEAP_AT_H.w], Area.regs (DAB_AF.w 0) 16,
      Area.regs (DAB_AF_F.w 0) 16]) ∧
    (Within (.dabReconfiguration) [Area.event, [.sched, .frontEnd, .dab, .reg DQ_LOST.w, .reg DAB_STAT.w,
      .reg DAB_SID_L.w, .reg DAB_SID_H.w, .reg DAB_SUBCH.w, .reg DAB_SUBCH_PROT.w, .reg DAB_SUBCH_START.w]]) ∧
    (∀ (crcOk : Bool) (bytes : List Byte), Within (.dabPacket crcOk bytes) [[.datacast, .reg DAB_CNT_PKT.w,
      .reg DAB_CNT_PKT_BAD.w, .reg EDF_STAT.w, .reg EDF_AREA_KIB.w, .reg EDF_USED_KIB.w, .reg EDF_OBJ_COLL.w,
      .reg EDF_OBJ_HELD.w, .reg EDF_CNT_SEG.w, .reg EDF_CNT_BAD.w, .reg EDF_CNT_NEW.w, .reg EDF_CNT_DUP.w,
      .reg EDF_CNT_QUOTA.w, .reg EDF_CNT_DROP.w, .reg EDF_WEAR_MAX.w, .reg EDF_WEAR_MIN.w, .reg EDF_VAN_N.w,
      .reg EDF_VAN_NEXT_L.w, .reg EDF_VAN_NEXT_H.w, .reg EDF_VAN_DUR.w], Area.regs (EDF_USE_F.w 0) 4]) ∧
    (∀ (cause : Nat) (rssis : List (Option Int)), Within (.dabAfSearch cause rssis) [Area.event, [.frontEnd, .fm,
      .dab, .openValues, .reg INT_STAT1.w, .reg DQ_LOST.w, .reg CLK_STAT.w, .reg FES_STAT.w, .reg FES_RSSI.w,
      .reg FES_AF_STAT.w, .reg FES_AF_RSSI.w, .reg FLOOD_STAT.w, .reg FLOOD_LFDEV.w, .reg SYN_STAT.w, .reg DAB_STAT.w,
      .reg DAB_FERR.w, .reg DAB_AF_N.w], Area.regs (DAB_AF.w 0) 16, Area.regs (DAB_AF_F.w 0) 16]) ∧
    (∀ (ms : Nat), Within (.dabAfSwitch ms) [Area.event, [.sched, .frontEnd, .dab, .reg INT_STAT1.w, .reg DQ_LOST.w,
      .reg DAB_STAT.w, .reg DAB_SID_L.w, .reg DAB_SID_H.w, .reg DAB_SUBCH.w, .reg DAB_SUBCH_PROT.w,
      .reg DAB_SUBCH_START.w, .reg DAB_AF_N.w, .reg DAB_AF_CNT_SW.w], Area.regs (DAB_AF.w 0) 16, Area.regs (DAB_AF_F.w
      0) 16]) ∧
    (Within (.dabAfReturn) [Area.event, [.frontEnd, .dab, .reg DQ_LOST.w, .reg CLK_STAT.w, .reg FES_STAT.w,
      .reg FES_RSSI.w, .reg SYN_STAT.w, .reg DAB_STAT.w, .reg DAB_FERR.w, .reg DAB_AF_N.w, .reg DAB_AF_CNT_RET.w],
      Area.regs (DAB_AF.w 0) 16, Area.regs (DAB_AF_F.w 0) 16]) ∧
    (∀ (err : Int) (sd : Nat), Within (.dabFreqMeasure err sd) [[.dab, .time, .reg DAB_FERR.w, .reg DAB_FERR_SD.w,
      .reg TIME_STAT.w]]) ∧
    (Within (.dabPikaTimeout) [[.health, .reg DAB_CNT_DSP.w]]) ∧
    (∀ (edge durUs : Nat), Within (.lfMarker edge durUs) [[.lf, .reg LFT_STAT.w]]) ∧
    (Within (.lfSecsyncLost) [[.lf, .reg LFT_STAT.w]]) ∧
    (Within (.lfFrame) [Area.event, [.lf, .time, .reg DQ_LOST.w, .reg LFT_STAT.w, .reg LFT_EDGE_RMS.w,
      .reg LFT_CNT_FRAME.w, .reg LFT_CNT_FRAME_BAD.w, .reg LFT_CNT_TIME.w, .reg LFT_CNT_TIME_REJ.w]]) ∧
    (∀ (err : Int) (sd : Nat), Within (.lfCarrierMeasure err sd) [[.lf, .time, .reg LFT_FERR.w, .reg LFT_FERR_SD.w,
      .reg TIME_STAT.w]]) ∧
    (∀ (db : Int), Within (.lfCarrierChange db) [[.lf, .reg LFT_STAT.w, .reg LFT_FERR.w, .reg LFT_CNT_CARLOSS.w]]) ∧
    (∀ (f : Fn) (v : Word), Within (.lftTplSelWrite f v) [Area.access, [.reg LFT_TPL_SEL.w], Area.regs (LFT_TPL.w 0)
      16]) ∧
    (∀ (f : Fn), Within (.lftTplCommit f) [Area.access, [.lf, .reg LFT_TPL_STAT.w]]) ∧
    (∀ (f : Fn), Within (.lftTplClear f) [Area.access, [.lf, .reg LFT_TPL_STAT.w]]) ∧
    (∀ (kfc : Nat), Within (.baselineEntryDrop kfc) [[.frontEnd, .reg FLOOD_STAT.w]]) ∧
    (∀ (code : Nat), Within (.afBanEnd code) [[.fm, .reg FMR_AF_N.w, .reg (FMR_AF.w 25), .reg (FMR_AF.w 26),
      .reg (FMR_AF.w 27), .reg (FMR_AF.w 28), .reg (FMR_AF.w 29), .reg (FMR_AF.w 30), .reg (FMR_AF.w 31)],
      Area.regs (FMR_AF.w 0) 25]) ∧
    (∀ (freq : Nat), Within (.dabAfBanEnd freq) [[.dab, .reg DAB_AF_N.w], Area.regs (DAB_AF.w 0) 16,
      Area.regs (DAB_AF_F.w 0) 16]) ∧
    (∀ (rssi : Option Int), Within (.dabAfPeriodicCheck rssi) [[.counters, .mode, .engines, .frontEnd, .fm, .dab,
      .openValues, .reg INT_STAT1.w, .reg WAKE_HREASON.w, .reg FES_AF_STAT.w, .reg FES_AF_RSSI.w, .reg FLOOD_STAT.w,
      .reg FLOOD_LFDEV.w, .reg DAB_AF_N.w], Area.regs (DAB_AF.w 0) 16, Area.regs (DAB_AF_F.w 0) 16]) ∧
    (Within (.dabAfRecall) [[.frontEnd, .dab, .reg CLK_STAT.w, .reg FES_STAT.w, .reg FES_RSSI.w, .reg SYN_STAT.w,
      .reg DAB_STAT.w, .reg DAB_FERR.w]])

/-- What each timebase and datacast command leaves unchanged: every register, store and engine outside its list (a
register of the common part is listed for all four functions). -/
def Obligations.TimebaseAndDatacastCommandsLeaveTheRest : Prop :=
  (Within (.timeCandidateApply) [Area.event, [.ktime, .plans, .sched, .time, .health, .openValues, .reg KTIME_TQ.w,
    .reg DAY_USE_E.w, .reg DAY_USE_T.w, .reg DQ_LOST.w, .reg SCHED_CNT_MISSED.w, .reg TIME_STAT.w,
    .reg TIME_LEAP_PEND.w, .reg TIME_LEAP_AT_L.w, .reg TIME_LEAP_AT_H.w, .reg TIME_LAST_L.w, .reg TIME_LAST_H.w,
    .reg TIME_CNT_APPLY.w, .reg TIME_CNT_REJ.w, .reg TIME_CNT_STEP.w, .reg HLT_RTIME_L.w, .reg HLT_RTIME_H.w]]) ∧
    (Within (.slewEnd) [[.time, .health, .reg KTIME_TQ.w, .reg TIME_STAT.w, .reg HLT_RTIME_L.w, .reg HLT_RTIME_H.w]])
      ∧
    (Within (.timeDeferredApply) [Area.event, [.ktime, .plans, .sched, .time, .health, .openValues, .reg KTIME_TQ.w,
      .reg DAY_USE_E.w, .reg DAY_USE_T.w, .reg DQ_LOST.w, .reg SCHED_CNT_MISSED.w, .reg TIME_STAT.w,
      .reg TIME_LEAP_PEND.w, .reg TIME_LEAP_AT_L.w, .reg TIME_LEAP_AT_H.w, .reg TIME_LAST_L.w, .reg TIME_LAST_H.w,
      .reg TIME_CNT_APPLY.w, .reg TIME_CNT_REJ.w, .reg TIME_CNT_STEP.w, .reg HLT_RTIME_L.w, .reg HLT_RTIME_H.w]]) ∧
    (∀ (f : Fn), Within (.timeSet f) [Area.event, [.time, .reg DQ_LOST.w, .reg TIME_STAT.w, .reg TIME_LEAP_PEND.w,
      .reg TIME_LEAP_AT_L.w, .reg TIME_LEAP_AT_H.w]]) ∧
    (∀ (temp : Int), Within (.aonTempSample temp) [[.time, .reg TIME_TRIM_L.w, .reg TIME_TRIM_H.w, .reg TIME_TEMP.w]])
      ∧
    (∀ (relErr : Int) (moved : Nat), Within (.x32PairWindow relErr moved) [[.time, .reg TIME_STAT.w,
      .reg TIME_TRIM_L.w, .reg TIME_TRIM_H.w, .reg TIME_X32_RESID.w, .reg TIME_MODEL_N.w, .reg TIME_SPAN.w]]) ∧
    (Within (.leapApplied) [Area.event, [.time, .reg DQ_LOST.w, .reg TIME_STAT.w, .reg TIME_LEAP_PEND.w,
      .reg TIME_LEAP_AT_L.w, .reg TIME_LEAP_AT_H.w]]) ∧
    (∀ (f : Fn), Within (.leapClr f) [Area.access, [.reg TIME_STAT.w, .reg TIME_LEAP_PEND.w, .reg TIME_LEAP_AT_L.w,
      .reg TIME_LEAP_AT_H.w]]) ∧
    (∀ (f : Fn), Within (.modelReset f) [Area.access, [.time, .reg TIME_STAT.w, .reg TIME_X32_RESID.w,
      .reg TIME_MODEL_N.w, .reg TIME_SPAN.w]]) ∧
    (Within (.timePulse) [[.pins, .time]]) ∧
    (Within (.timeLoss) [Area.event, [.time, .reg DQ_LOST.w]]) ∧
    (∀ (f : Fn) (v : Word), Within (.timeLossThrWrite f v) [Area.access, [.time, .reg INT_STAT0.w, .reg DQ_LOST.w,
      .reg TIME_LOSS_THR.w]]) ∧
    (Within (.rdsSegmentTimeout) [[.datacast, .reg EDF_CNT_SEG.w, .reg EDF_CNT_BAD.w]]) ∧
    (∀ (stream obj blk : Nat) (pikaOk : Bool), Within (.blockComplete stream obj blk pikaOk) [[.memory, .datacast,
      .health, .openValues, .reg MODE.w, .reg EDF_STAT.w, .reg EDF_AREA_KIB.w, .reg EDF_USED_KIB.w,
      .reg EDF_OBJ_COLL.w, .reg EDF_OBJ_HELD.w, .reg EDF_CNT_DECODE.w, .reg EDF_WEAR_MAX.w, .reg EDF_WEAR_MIN.w,
      .reg EDF_VAN_N.w, .reg EDF_VAN_NEXT_L.w, .reg EDF_VAN_NEXT_H.w, .reg EDF_VAN_DUR.w], Area.regs (EDF_USE_F.w 0)
      4]) ∧
    (∀ (stream obj blk : Nat) (pikaOk : Bool), Within (.decodeRetry stream obj blk pikaOk) [[.memory, .datacast,
      .health, .openValues, .reg MODE.w, .reg EDF_STAT.w, .reg EDF_AREA_KIB.w, .reg EDF_USED_KIB.w,
      .reg EDF_OBJ_COLL.w, .reg EDF_OBJ_HELD.w, .reg EDF_CNT_DECODE.w, .reg EDF_WEAR_MAX.w, .reg EDF_WEAR_MIN.w,
      .reg EDF_VAN_N.w, .reg EDF_VAN_NEXT_L.w, .reg EDF_VAN_NEXT_H.w, .reg EDF_VAN_DUR.w], Area.regs (EDF_USE_F.w 0)
      4]) ∧
    (∀ (stream obj : Nat), Within (.objectAcceptance stream obj) [Area.event, [.flint, .datacast, .reg DQ_LOST.w,
      .reg FLINT_STAT.w, .reg FLINT_REFCNT.w, .reg TIME_STAT.w, .reg TIME_LEAP_PEND.w, .reg TIME_LEAP_AT_L.w,
      .reg TIME_LEAP_AT_H.w, .reg EDF_STAT.w, .reg EDF_AREA_KIB.w, .reg EDF_USED_KIB.w, .reg EDF_OBJ_COLL.w,
      .reg EDF_OBJ_HELD.w, .reg EDF_LAST_RES.w, .reg EDF_LAST_STREAM.w, .reg EDF_LAST_OBJ.w, .reg EDF_CNT_REJ.w,
      .reg EDF_WEAR_MAX.w, .reg EDF_WEAR_MIN.w, .reg (EDF_CSER.w 2), .reg (EDF_CSER.w 3), .reg (EDF_CSER.w 4),
      .reg (EDF_CSER.w 5), .reg (EDF_CSER.w 6), .reg (EDF_CSER.w 7), .reg EDF_VAN_N.w, .reg EDF_VAN_NEXT_L.w,
      .reg EDF_VAN_NEXT_H.w, .reg EDF_VAN_DUR.w], Area.regs (TIME_PROP_ID.w 0) 8, Area.regs (TIME_PROP_OFS.w 0) 8,
      Area.regs (EDF_USE_F.w 0) 4, Area.regs (EDF_GROUP_ID.w 0) 8, Area.regs (EDF_CSER.w 0) 2]) ∧
    (Within (.vanWindowStart) [[.mode, .datacast, .reg WAKE_HREASON.w, .reg EDF_STAT.w, .reg EDF_AREA_KIB.w,
      .reg EDF_USED_KIB.w, .reg EDF_OBJ_COLL.w, .reg EDF_OBJ_HELD.w, .reg EDF_WEAR_MAX.w, .reg EDF_WEAR_MIN.w,
      .reg EDF_VAN_N.w, .reg EDF_VAN_NEXT_L.w, .reg EDF_VAN_NEXT_H.w, .reg EDF_VAN_DUR.w], Area.regs (EDF_USE_F.w 0)
      4]) ∧
    (Within (.edfSegmentStat) [Area.event, [.datacast, .reg DQ_LOST.w]]) ∧
    (Within (.hoardFlush) [[.datacast, .openValues, .reg EDF_STAT.w, .reg EDF_AREA_KIB.w, .reg EDF_USED_KIB.w,
      .reg EDF_OBJ_COLL.w, .reg EDF_OBJ_HELD.w, .reg EDF_WEAR_MAX.w, .reg EDF_WEAR_MIN.w, .reg EDF_VAN_N.w,
      .reg EDF_VAN_NEXT_L.w, .reg EDF_VAN_NEXT_H.w, .reg EDF_VAN_DUR.w], Area.regs (EDF_USE_F.w 0) 4]) ∧
    (Within (.hoardCompact) [[.memory, .engines, .datacast, .openValues, .reg DAY_USE_E.w, .reg DAY_USE_T.w,
      .reg MODE.w, .reg EDF_STAT.w, .reg EDF_AREA_KIB.w, .reg EDF_USED_KIB.w, .reg EDF_OBJ_COLL.w,
      .reg EDF_OBJ_HELD.w, .reg EDF_WEAR_MAX.w, .reg EDF_WEAR_MIN.w, .reg EDF_VAN_N.w, .reg EDF_VAN_NEXT_L.w,
      .reg EDF_VAN_NEXT_H.w, .reg EDF_VAN_DUR.w], Area.regs (EDF_USE_F.w 0) 4]) ∧
    (∀ (stream obj : Nat), Within (.objectExpiry stream obj) [[.datacast, .reg EDF_STAT.w, .reg EDF_AREA_KIB.w,
      .reg EDF_USED_KIB.w, .reg EDF_OBJ_COLL.w, .reg EDF_OBJ_HELD.w, .reg EDF_WEAR_MAX.w, .reg EDF_WEAR_MIN.w,
      .reg EDF_VAN_N.w, .reg EDF_VAN_NEXT_L.w, .reg EDF_VAN_NEXT_H.w, .reg EDF_VAN_DUR.w], Area.regs (EDF_USE_F.w 0)
      4]) ∧
    (Within (.wearLevelMove) [[.memory, .engines, .datacast, .openValues, .reg DAY_USE_E.w, .reg DAY_USE_T.w,
      .reg EDF_STAT.w, .reg EDF_AREA_KIB.w, .reg EDF_USED_KIB.w, .reg EDF_OBJ_COLL.w, .reg EDF_OBJ_HELD.w,
      .reg EDF_WEAR_MAX.w, .reg EDF_WEAR_MIN.w, .reg EDF_VAN_N.w, .reg EDF_VAN_NEXT_L.w, .reg EDF_VAN_NEXT_H.w,
      .reg EDF_VAN_DUR.w], Area.regs (EDF_USE_F.w 0) 4]) ∧
    (∀ (f : Fn), Within (.hoardQueryStatus f) [[.engines, .openValues]]) ∧
    (∀ (f : Fn), Within (.hoardQueryRelease f) [[.engines, .datacast, .openValues, .reg EDF_STAT.w,
      .reg EDF_AREA_KIB.w, .reg EDF_USED_KIB.w, .reg EDF_OBJ_COLL.w, .reg EDF_OBJ_HELD.w, .reg EDF_WEAR_MAX.w,
      .reg EDF_WEAR_MIN.w, .reg EDF_VAN_N.w, .reg EDF_VAN_NEXT_L.w, .reg EDF_VAN_NEXT_H.w, .reg EDF_VAN_DUR.w],
      Area.regs (EDF_USE_F.w 0) 4]) ∧
    (∀ (f : Fn), Within (.hoardQueryList f) [[.engines, .openValues]]) ∧
    (∀ (f : Fn), Within (.hoardQueryUsage f) [[.engines]]) ∧
    (∀ (f : Fn), Within (.verifyObject f) [Area.event, [.flint, .datacast, .openValues, .reg DQ_LOST.w,
      .reg FLINT_STAT.w, .reg FLINT_REFCNT.w, .reg TIME_STAT.w, .reg TIME_LEAP_PEND.w, .reg TIME_LEAP_AT_L.w,
      .reg TIME_LEAP_AT_H.w, .reg EDF_STAT.w, .reg EDF_AREA_KIB.w, .reg EDF_USED_KIB.w, .reg EDF_OBJ_COLL.w,
      .reg EDF_OBJ_HELD.w, .reg EDF_LAST_RES.w, .reg EDF_LAST_STREAM.w, .reg EDF_LAST_OBJ.w, .reg EDF_CNT_REJ.w,
      .reg EDF_WEAR_MAX.w, .reg EDF_WEAR_MIN.w, .reg (EDF_CSER.w 2), .reg (EDF_CSER.w 3), .reg (EDF_CSER.w 4),
      .reg (EDF_CSER.w 5), .reg (EDF_CSER.w 6), .reg (EDF_CSER.w 7), .reg EDF_VAN_N.w, .reg EDF_VAN_NEXT_L.w,
      .reg EDF_VAN_NEXT_H.w, .reg EDF_VAN_DUR.w], Area.regs (TIME_PROP_ID.w 0) 8, Area.regs (TIME_PROP_OFS.w 0) 8,
      Area.regs (EDF_USE_F.w 0) 4, Area.regs (EDF_GROUP_ID.w 0) 8, Area.regs (EDF_CSER.w 0) 2]) ∧
    (∀ (f : Fn), Within (.edfErase f) [Area.access, [.datacast, .reg EDF_STAT.w, .reg EDF_AREA_KIB.w,
      .reg EDF_USED_KIB.w, .reg EDF_OBJ_COLL.w, .reg EDF_OBJ_HELD.w, .reg EDF_WEAR_MAX.w, .reg EDF_WEAR_MIN.w,
      .reg EDF_VAN_N.w, .reg EDF_VAN_NEXT_L.w, .reg EDF_VAN_NEXT_H.w, .reg EDF_VAN_DUR.w], Area.regs (EDF_USE_F.w 0)
      4]) ∧
    (∀ (f : Fn), Within (.vanClr f) [Area.access, [.datacast, .reg EDF_STAT.w, .reg EDF_AREA_KIB.w,
      .reg EDF_USED_KIB.w, .reg EDF_OBJ_COLL.w, .reg EDF_OBJ_HELD.w, .reg EDF_WEAR_MAX.w, .reg EDF_WEAR_MIN.w,
      .reg EDF_VAN_N.w, .reg EDF_VAN_NEXT_L.w, .reg EDF_VAN_NEXT_H.w, .reg EDF_VAN_DUR.w], Area.regs (EDF_USE_F.w 0)
      4]) ∧
    (∀ (f : Fn), Within (.edfFlush f) [Area.access, [.datacast, .openValues, .reg EDF_STAT.w, .reg EDF_AREA_KIB.w,
      .reg EDF_USED_KIB.w, .reg EDF_OBJ_COLL.w, .reg EDF_OBJ_HELD.w, .reg EDF_WEAR_MAX.w, .reg EDF_WEAR_MIN.w,
      .reg EDF_VAN_N.w, .reg EDF_VAN_NEXT_L.w, .reg EDF_VAN_NEXT_H.w, .reg EDF_VAN_DUR.w], Area.regs (EDF_USE_F.w 0)
      4]) ∧
    (∀ (stream obj : Nat), Within (.doneListExpiry stream obj) [[.datacast]])

/-- What each audio, capture, twin and health command leaves unchanged: every register, store and engine outside its
list (a register of the common part is listed for all four functions). -/
def Obligations.AudioCaptureTwinAndHealthCommandsLeaveTheRest : Prop :=
  (∀ (reloadOk : Bool), Within (.martenHeartbeatTimeout reloadOk) [Area.access, Area.reception, Area.core, [.latches,
    .memory, .pins, .power, .boot, .image, .spi, .twoWire, .plans, .sched, .ports, .biphase, .capture, .twin, .health,
    .openValues, .reg MODE.w, .reg GPIO0_CFG.w, .reg GPIO1_CFG.w, .reg PWR_STAT.w, .reg RES_LEAK_EST.w,
    .reg RES_LEAK_INIT.w, .reg TIME_TRIM_L.w, .reg TIME_TRIM_H.w]]) ∧
    (Within (.sysWdog) [Area.access, Area.reception, Area.core, [.latches, .memory, .pins, .power, .boot, .image,
      .spi, .twoWire, .plans, .sched, .ports, .biphase, .capture, .twin, .health, .openValues, .reg MODE.w,
      .reg GPIO0_CFG.w, .reg GPIO1_CFG.w, .reg PWR_STAT.w, .reg RES_LEAK_EST.w, .reg RES_LEAK_INIT.w,
      .reg TIME_TRIM_L.w, .reg TIME_TRIM_H.w]]) ∧
    (∀ (f : Fn) (port : AudioPort) (v : Word), Within (.apArmWrite f port v) [Area.access, [.memory, .ports, .biphase,
      .capture, .reg INT_STAT0.w, .reg DQ_LOST.w, .reg (AP.CTL.w 0), .reg (AP.RXFREE.w 0), .reg (AP.CTL.w 1),
      .reg (AP.RXFREE.w 1), .reg BPH_CTL.w, .reg BPH_STAT.w, .reg CAPT_WPTR.w, .reg CAPT_RPTR.w, .reg CAPT_FREE.w]]) ∧
    (∀ (port : AudioPort), Within (.apPortStart port) [Area.event, [.ports, .biphase, .reg DQ_LOST.w, .reg (AP.STAT.w
      0), .reg (AP.FCNT_L.w 0), .reg (AP.FCNT_H.w 0), .reg (AP.T0_L.w 0), .reg (AP.T0_H.w 0), .reg (AP.STAT.w 1),
      .reg (AP.FCNT_L.w 1), .reg (AP.FCNT_H.w 1), .reg (AP.T0_L.w 1), .reg (AP.T0_H.w 1), .reg BPH_STAT.w]]) ∧
    (∀ (port : AudioPort), Within (.apTxFrameEdge port) [Area.event, [.ports, .reg DQ_LOST.w, .reg (AP.STAT.w 0),
      .reg (AP.EVT.w 0), .reg (AP.FCNT_L.w 0), .reg (AP.FCNT_H.w 0), .reg (AP.LEVEL.w 0), .reg (AP.CNT_FADE.w 0),
      .reg (AP.CNT_LOST.w 0), .reg (AP.RPTR.w 0), .reg (AP.STAT.w 1), .reg (AP.EVT.w 1), .reg (AP.FCNT_L.w 1),
      .reg (AP.FCNT_H.w 1), .reg (AP.LEVEL.w 1), .reg (AP.CNT_FADE.w 1), .reg (AP.CNT_LOST.w 1), .reg (AP.RPTR.w 1),
      .reg BPH_STAT.w, .reg BPH_RPTR.w, .reg BPH_LEVEL.w, .reg BPH_EVT.w]]) ∧
    (∀ (port : AudioPort) (slots : List Int), Within (.apRxFrameEdge port slots) [Area.event, [.memory, .ports,
      .capture, .openValues, .reg DQ_LOST.w, .reg (AP.STAT.w 0), .reg (AP.EVT.w 0), .reg (AP.FCNT_L.w 0),
      .reg (AP.FCNT_H.w 0), .reg (AP.RXFREE.w 0), .reg (AP.CNT_FADE.w 0), .reg (AP.CNT_LOST.w 0), .reg (AP.STAT.w 1),
      .reg (AP.EVT.w 1), .reg (AP.FCNT_L.w 1), .reg (AP.FCNT_H.w 1), .reg (AP.RXFREE.w 1), .reg (AP.CNT_FADE.w 1),
      .reg (AP.CNT_LOST.w 1), .reg BPH_STAT.w, .reg BPH_EVT.w, .reg CAPT_STAT.w, .reg CAPT_WPTR.w, .reg CAPT_RPTR.w,
      .reg CAPT_FREE.w, .reg CAPT_T0_L.w, .reg CAPT_T0_H.w, .reg CAPT_FIDX_L.w, .reg CAPT_FIDX_H.w,
      .reg CAPT_CNT_DISC.w, .reg CAPT_CNT_LOST.w]]) ∧
    (∀ (port : AudioPort) (receive : Bool) (samples : Nat), Within (.apHardLoss port receive samples) [Area.event,
      [.memory, .ports, .capture, .reg DQ_LOST.w, .reg (AP.STAT.w 0), .reg (AP.EVT.w 0), .reg (AP.RXFREE.w 0),
      .reg (AP.CNT_HARD.w 0), .reg (AP.STAT.w 1), .reg (AP.EVT.w 1), .reg (AP.RXFREE.w 1), .reg (AP.CNT_HARD.w 1),
      .reg BPH_STAT.w, .reg BPH_EVT.w, .reg CAPT_STAT.w, .reg CAPT_WPTR.w, .reg CAPT_RPTR.w, .reg CAPT_FREE.w,
      .reg CAPT_CNT_DISC.w, .reg CAPT_CNT_LOST.w]]) ∧
    (∀ (f : Fn) (v : Word), Within (.ap0WptrWrite f v) [Area.access, [.reg (AP.LEVEL.w 0), .reg (AP.WPTR.w 0),
      .reg (AP.LEVEL.w 1), .reg (AP.WPTR.w 1), .reg BPH_WPTR.w, .reg BPH_LEVEL.w]]) ∧
    (∀ (f : Fn) (port : AudioPort), Within (.ringRst f port) [Area.access, [.reg (AP.LEVEL.w 0), .reg (AP.RPTR.w 0),
      .reg (AP.WPTR.w 0), .reg (AP.LEVEL.w 1), .reg (AP.RPTR.w 1), .reg (AP.WPTR.w 1), .reg BPH_WPTR.w,
      .reg BPH_RPTR.w, .reg BPH_LEVEL.w]]) ∧
    (∀ (port : AudioPort), Within (.apPortStop port) [Area.event, [.ports, .reg DQ_LOST.w, .reg (AP.STAT.w 0),
      .reg (AP.STAT.w 1), .reg BPH_STAT.w]]) ∧
    (∀ (apart : Nat) (violation : Bool), Within (.bphLock apart violation) [Area.event, [.memory, .biphase, .capture,
      .reg DQ_LOST.w, .reg (AP.RXFREE.w 0), .reg (AP.RXFREE.w 1), .reg BPH_STAT.w, .reg CAPT_WPTR.w, .reg CAPT_RPTR.w,
      .reg CAPT_FREE.w, .reg CAPT_CNT_DISC.w, .reg CAPT_CNT_LOST.w]]) ∧
    (∀ (missing violated : Nat), Within (.bphLockLost missing violated) [Area.event, [.memory, .biphase, .capture,
      .reg DQ_LOST.w, .reg (AP.RXFREE.w 0), .reg (AP.RXFREE.w 1), .reg BPH_STAT.w, .reg BPH_EVT.w,
      .reg BPH_CNT_LOCK.w, .reg CAPT_WPTR.w, .reg CAPT_RPTR.w, .reg CAPT_FREE.w]]) ∧
    (∀ (pre : Preamble) (word : BitVec 24) (valid user status parityOk : Bool), Within (.bphSubframe pre word valid
      user status parityOk) [Area.event, [.memory, .ports, .biphase, .capture, .openValues, .reg DQ_LOST.w,
      .reg (AP.STAT.w 0), .reg (AP.EVT.w 0), .reg (AP.RXFREE.w 0), .reg (AP.CNT_FADE.w 0), .reg (AP.CNT_LOST.w 0),
      .reg (AP.STAT.w 1), .reg (AP.EVT.w 1), .reg (AP.RXFREE.w 1), .reg (AP.CNT_FADE.w 1), .reg (AP.CNT_LOST.w 1),
      .reg BPH_STAT.w, .reg BPH_EVT.w, .reg BPH_CNT_PARITY.w, .reg BPH_CNT_INVALID.w, .reg CAPT_STAT.w,
      .reg CAPT_WPTR.w, .reg CAPT_RPTR.w, .reg CAPT_FREE.w, .reg CAPT_T0_L.w, .reg CAPT_T0_H.w, .reg CAPT_FIDX_L.w,
      .reg CAPT_FIDX_H.w, .reg CAPT_CNT_DISC.w, .reg CAPT_CNT_LOST.w]]) ∧
    (Within (.bphBlockEnd) [[.memory, .biphase, .capture, .reg BPH_STAT.w], Area.regs (BPH_CS.w 0) 3,
      Area.regs (BPH_UMSG.w 0) 14]) ∧
    (∀ (mHz : Nat), Within (.bphRateMeasure mHz) [Area.event, [.biphase, .reg DQ_LOST.w, .reg BPH_STAT.w,
      .reg BPH_RATE_L.w, .reg BPH_RATE_H.w, .reg BPH_RATE_PPM.w, .reg BPH_EVT.w]]) ∧
    (Within (.bphOutFrame) [Area.event, [.ports, .biphase, .reg DQ_LOST.w, .reg (AP.STAT.w 0), .reg (AP.EVT.w 0),
      .reg (AP.LEVEL.w 0), .reg (AP.CNT_FADE.w 0), .reg (AP.CNT_LOST.w 0), .reg (AP.RPTR.w 0), .reg (AP.STAT.w 1),
      .reg (AP.EVT.w 1), .reg (AP.LEVEL.w 1), .reg (AP.CNT_FADE.w 1), .reg (AP.CNT_LOST.w 1), .reg (AP.RPTR.w 1),
      .reg BPH_STAT.w, .reg BPH_RPTR.w, .reg BPH_LEVEL.w, .reg BPH_EVT.w]]) ∧
    (Within (.captureStart) [Area.event, [.memory, .sched, .ports, .biphase, .capture, .openValues, .reg DAY_USE_E.w,
      .reg DAY_USE_T.w, .reg DQ_LOST.w, .reg MODE.w, .reg (AP.RXFREE.w 0), .reg (AP.RXFREE.w 1), .reg CAPT_STAT.w,
      .reg CAPT_WPTR.w, .reg CAPT_RPTR.w, .reg CAPT_FREE.w, .reg CAPT_ID.w, .reg CAPT_FIDX_L.w, .reg CAPT_FIDX_H.w]])
      ∧
    (Within (.captureBlockWrite) [Area.event, [.memory, .capture, .reg DQ_LOST.w, .reg (AP.RXFREE.w 0),
      .reg (AP.RXFREE.w 1), .reg CAPT_WPTR.w, .reg CAPT_RPTR.w, .reg CAPT_FREE.w]]) ∧
    (∀ (f : Fn) (v : Word), Within (.captRelWrite f v) [Area.access, [.capture, .reg (AP.RXFREE.w 0),
      .reg (AP.RXFREE.w 1), .reg CAPT_RPTR.w, .reg CAPT_FREE.w]]) ∧
    (Within (.captureEnd) [Area.event, [.memory, .sched, .ports, .biphase, .capture, .openValues, .reg DAY_USE_E.w,
      .reg DAY_USE_T.w, .reg DQ_LOST.w, .reg MODE.w, .reg TIME_TRIM_L.w, .reg TIME_TRIM_H.w, .reg (AP.STAT.w 0),
      .reg (AP.RXFREE.w 0), .reg (AP.STAT.w 1), .reg (AP.RXFREE.w 1), .reg BPH_STAT.w, .reg CAPT_STAT.w,
      .reg CAPT_WPTR.w, .reg CAPT_RPTR.w, .reg CAPT_FREE.w, .reg CAPT_CNT_DISC.w, .reg CAPT_CNT_LOST.w]]) ∧
    (∀ (pikaOk : Bool), Within (.stats pikaOk) [Area.event, [.capture, .health, .openValues, .reg DQ_LOST.w,
      .reg CAPT_CNT_DSP.w]]) ∧
    (Within (.snippet) [Area.event, [.capture, .openValues, .reg DQ_LOST.w]]) ∧
    (Within (.spill) [Area.event, [.memory, .datacast, .capture, .openValues, .reg DAY_USE_E.w, .reg DAY_USE_T.w,
      .reg DQ_LOST.w, .reg MODE.w, .reg EDF_STAT.w, .reg EDF_AREA_KIB.w, .reg EDF_USED_KIB.w, .reg EDF_OBJ_COLL.w,
      .reg EDF_OBJ_HELD.w, .reg EDF_WEAR_MAX.w, .reg EDF_WEAR_MIN.w, .reg EDF_VAN_N.w, .reg EDF_VAN_NEXT_L.w,
      .reg EDF_VAN_NEXT_H.w, .reg EDF_VAN_DUR.w, .reg CAPT_STAT.w, .reg CAPT_RPTR.w], Area.regs (EDF_USE_F.w 0) 4]) ∧
    (∀ (f : Fn), Within (.spillDel f) [Area.access, [.capture, .reg EDF_STAT.w, .reg EDF_AREA_KIB.w,
      .reg EDF_USED_KIB.w, .reg EDF_OBJ_COLL.w, .reg EDF_OBJ_HELD.w, .reg EDF_WEAR_MAX.w, .reg EDF_WEAR_MIN.w,
      .reg EDF_VAN_N.w, .reg EDF_VAN_NEXT_L.w, .reg EDF_VAN_NEXT_H.w, .reg EDF_VAN_DUR.w], Area.regs (EDF_USE_F.w 0)
      4]) ∧
    (∀ (f : Fn), Within (.captureNow f) [Area.event, [.memory, .sched, .ports, .biphase, .capture, .openValues,
      .reg DAY_USE_E.w, .reg DAY_USE_T.w, .reg DQ_LOST.w, .reg MODE.w, .reg (AP.RXFREE.w 0), .reg (AP.RXFREE.w 1),
      .reg CAPT_STAT.w, .reg CAPT_WPTR.w, .reg CAPT_RPTR.w, .reg CAPT_FREE.w, .reg CAPT_ID.w, .reg CAPT_FIDX_L.w,
      .reg CAPT_FIDX_H.w]]) ∧
    (∀ (f : Fn) (v : Word), Within (.twinEnWrite f v) [Area.access, Area.reception, [.plans, .sched, .twin,
      .openValues, .reg FN_ID.w, .reg INT_STAT0.w, .reg PLAN_STAT.w, .reg DAY_USE_E.w, .reg DAY_USE_T.w,
      .reg DQ_LOST.w, .reg MODE.w, .reg SCHED_CNT_MISSED.w, .reg FES_CNT_RAW.w, .reg SYN_DIV.w, .reg SYN_N.w,
      .reg SYN_FRAC_L.w, .reg SYN_FRAC_H.w, .reg SYN_BAND.w, .reg SYN_LO_L.w, .reg SYN_LO_H.w, .reg TWIN_STAT.w,
      .reg TWIN_CFG.w]]) ∧
    (Within (.undecidedTimeout) [[.power, .mode, .sched, .twin, .reg MODE.w, .reg WAKE_CAUSE.w, .reg PWR_STAT.w,
      .reg RES_LEAK_EST.w, .reg RES_LEAK_INIT.w, .reg BOOT_CNT.w]]) ∧
    (Within (.heartbeatEmit) [[.pins, .twin]]) ∧
    (∀ (lowUs : Nat), Within (.twinHbPulse lowUs) [Area.event, Area.reception, [.memory, .image, .plans, .sched,
      .ports, .biphase, .capture, .twin, .health, .openValues, .reg FN_ID.w, .reg PLAN_STAT.w, .reg DAY_USE_E.w,
      .reg DAY_USE_T.w, .reg DQ_LOST.w, .reg MODE.w, .reg SCHED_CNT_MISSED.w, .reg FES_CNT_RAW.w, .reg SYN_DIV.w,
      .reg SYN_N.w, .reg SYN_FRAC_L.w, .reg SYN_FRAC_H.w, .reg SYN_BAND.w, .reg SYN_LO_L.w, .reg SYN_LO_H.w,
      .reg CAL_STAT.w, .reg TIME_TRIM_L.w, .reg TIME_TRIM_H.w, .reg (AP.STAT.w 0), .reg (AP.RXFREE.w 0),
      .reg (AP.STAT.w 1), .reg (AP.RXFREE.w 1), .reg BPH_STAT.w, .reg CAPT_STAT.w, .reg CAPT_WPTR.w, .reg CAPT_RPTR.w,
      .reg CAPT_FREE.w, .reg CAPT_CNT_DISC.w, .reg CAPT_CNT_LOST.w, .reg TWIN_STAT.w, .reg TWIN_EVT.w,
      .reg TWIN_CNT_BAD.w]]) ∧
    (Within (.hbStuck) [[.twin, .health, .reg TWIN_EVT.w]]) ∧
    (Within (.takeoverDue) [[.power, .mode, .sched, .twin, .reg MODE.w, .reg WAKE_CAUSE.w, .reg PWR_STAT.w,
      .reg RES_LEAK_EST.w, .reg RES_LEAK_INIT.w, .reg BOOT_CNT.w]]) ∧
    (∀ (lineLow : Bool), Within (.claim lineLow) [Area.event, Area.reception, [.memory, .pins, .image, .plans, .sched,
      .time, .ports, .biphase, .capture, .twin, .health, .openValues, .reg FN_ID.w, .reg PLAN_STAT.w,
      .reg PLAN_COUNT.w, .reg DAY_USE_E.w, .reg DAY_USE_T.w, .reg DQ_LOST.w, .reg MODE.w, .reg SCHED_STAT.w,
      .reg SCHED_DEV_USE.w, .reg SCHED_CNT_MISSED.w, .reg FES_CNT_RAW.w, .reg SYN_DIV.w, .reg SYN_N.w,
      .reg SYN_FRAC_L.w, .reg SYN_FRAC_H.w, .reg SYN_BAND.w, .reg SYN_LO_L.w, .reg SYN_LO_H.w, .reg CAL_STAT.w,
      .reg TIME_STAT.w, .reg TIME_LEAP_PEND.w, .reg TIME_LEAP_AT_L.w, .reg TIME_LEAP_AT_H.w, .reg TIME_TRIM_L.w,
      .reg TIME_TRIM_H.w, .reg EDF_STAT.w, .reg EDF_AREA_KIB.w, .reg EDF_USED_KIB.w, .reg EDF_OBJ_COLL.w,
      .reg EDF_OBJ_HELD.w, .reg EDF_WEAR_MAX.w, .reg EDF_WEAR_MIN.w, .reg (EDF_CSER.w 2), .reg (EDF_CSER.w 3),
      .reg (EDF_CSER.w 4), .reg (EDF_CSER.w 5), .reg (EDF_CSER.w 6), .reg (EDF_CSER.w 7), .reg EDF_VAN_N.w,
      .reg EDF_VAN_NEXT_L.w, .reg EDF_VAN_NEXT_H.w, .reg EDF_VAN_DUR.w, .reg (AP.STAT.w 0), .reg (AP.RXFREE.w 0),
      .reg (AP.STAT.w 1), .reg (AP.RXFREE.w 1), .reg BPH_STAT.w, .reg CAPT_STAT.w, .reg CAPT_WPTR.w, .reg CAPT_RPTR.w,
      .reg CAPT_FREE.w, .reg CAPT_CNT_DISC.w, .reg CAPT_CNT_LOST.w, .reg TWIN_STAT.w, .reg TWIN_CNT_TAKEOVER.w],
      Area.regs (TIME_PROP_ID.w 0) 8, Area.regs (TIME_PROP_OFS.w 0) 8, Area.regs (EDF_USE_F.w 0) 4,
      Area.regs (EDF_CSER.w 0) 2]) ∧
    (Within (.claimingEnd) [[.reg TWIN_STAT.w]]) ∧
    (∀ (wakeAck : Bool), Within (.checkpointBuild wakeAck) [Area.event, [.power, .sched, .twin, .health,
      .reg DQ_LOST.w, .reg MODE.w, .reg WAKE_CAUSE.w, .reg PWR_STAT.w, .reg RES_LEAK_EST.w, .reg RES_LEAK_INIT.w,
      .reg BOOT_CNT.w, .reg TWIN_STAT.w, .reg TWIN_TX_SEQ.w, .reg TWIN_EVT.w]]) ∧
    (∀ (f : Fn), Within (.ckptNow f) [Area.access, [.power, .sched, .twin, .reg CLK_STAT.w, .reg MODE.w,
      .reg WAKE_CAUSE.w, .reg PWR_STAT.w, .reg RES_LEAK_EST.w, .reg RES_LEAK_INIT.w, .reg BOOT_CNT.w]]) ∧
    (∀ (ack : Bool), Within (.chunkSend ack) [[.twin, .reg TWIN_EVT.w, .reg TWIN_CNT_TX.w]]) ∧
    (∀ (bytes : List Byte) (pec : Byte), Within (.twinFrameReceived bytes pec) [Area.event, [.power, .sched, .time,
      .twin, .health, .reg DQ_LOST.w, .reg MODE.w, .reg WAKE_CAUSE.w, .reg PWR_STAT.w, .reg RES_LEAK_EST.w,
      .reg RES_LEAK_INIT.w, .reg BOOT_CNT.w, .reg TWIN_STAT.w, .reg TWIN_RX_SEQ.w, .reg TWIN_RX_T_L.w,
      .reg TWIN_RX_T_H.w, .reg TWIN_PLEDGER_L.w, .reg TWIN_PLEDGER_H.w, .reg TWIN_STEST_RES.w, .reg TWIN_EVT.w,
      .reg TWIN_CNT_RX.w, .reg TWIN_CNT_DUP.w, .reg TWIN_CNT_BAD.w]]) ∧
    (Within (.partialSetTimeout) [[.twin]]) ∧
    (Within (.checkpointConfigCopy) [[.twin]]) ∧
    (∀ (f : Fn), Within (.twinSwap f) [[.engines, .twin]]) ∧
    (Within (.swapFailed) [Area.event, [.twin, .reg DQ_LOST.w, .reg TWIN_EVT.w]]) ∧
    (∀ (mask : Nat), Within (.standbySelftest mask) [Area.event, [.power, .sched, .twin, .health, .reg DQ_LOST.w,
      .reg MODE.w, .reg WAKE_CAUSE.w, .reg PWR_STAT.w, .reg RES_LEAK_EST.w, .reg RES_LEAK_INIT.w, .reg BOOT_CNT.w,
      .reg TWIN_STEST_RES.w]]) ∧
    (Within (.healthSample) [Area.event, [.power, .sched, .health, .openValues, .reg FN_STATE.w, .reg DAY_USE_E.w,
      .reg DAY_USE_T.w, .reg DQ_LOST.w, .reg MODE.w, .reg WAKE_CAUSE.w, .reg PWR_STAT.w, .reg RES_LEAK_EST.w,
      .reg RES_LEAK_INIT.w, .reg BOOT_CNT.w, .reg CAL_TEMP.w, .reg HLT_STAT.w, .reg HLT_LIFE.w], Area.regs (HLT_MON.w
      0) 16]) ∧
    (∀ (f : Fn), Within (.sampleNow f) [Area.access, [.power, .sched, .health, .openValues, .reg FN_STATE.w,
      .reg INT_STAT0.w, .reg DAY_USE_E.w, .reg DAY_USE_T.w, .reg DQ_LOST.w, .reg MODE.w, .reg WAKE_CAUSE.w,
      .reg PWR_STAT.w, .reg RES_LEAK_EST.w, .reg RES_LEAK_INIT.w, .reg BOOT_CNT.w, .reg CAL_TEMP.w, .reg HLT_STAT.w,
      .reg HLT_LIFE.w], Area.regs (HLT_MON.w 0) 16]) ∧
    (∀ (f : Fn), Within (.replaceClr f) [Area.access, [.health, .reg FN_STATE.w, .reg INT_STAT0.w, .reg DQ_LOST.w,
      .reg HLT_STAT.w, .reg HLT_LIFE.w], Area.regs (HLT_MON.w 0) 16]) ∧
    (∀ (f : Fn), Within (.svcStart f) [Area.access, [.health, .reg HLT_STAT.w, .reg HLT_SVC_L.w, .reg HLT_SVC_H.w,
      .reg HLT_CNT_HB.w, .reg HLT_CNT_SYS.w, .reg HLT_CNT_ECC.w]]) ∧
    (∀ (f : Fn) (sig : List Byte), Within (.healthReport f sig) [[.memory, .engines, .reg FLINT_REFCNT.w]]) ∧
    (∀ (f : Fn) (mask ms : Nat), Within (.selftest f mask ms) [[.engines, .health, .openValues, .reg DAY_USE_E.w,
      .reg DAY_USE_T.w, .reg MODE.w]])

/-- Where each command that stores may store. What captures store lies in the capture buffer (with CAPT_WPTR below
0x8000); the user-bit mark in it too (with the blocks in use inside it); what the Hoard stores lies in the Hoard
area, with the object stores in it; a reset of the processors and a DEEP wake keep flash and Burrow, a cold boot all
but Burrow, a rest entry all but the buffers it drops; staging writes the two image slots only, HOST_LOAD_BEGIN
those and the image window, the window's end the window only; a write of the memory port stores at its address, or
ends the window. Every other byte reads as before. -/
def Obligations.StoringCommandsKeepOtherMemory : Prop :=
  (Stores (.captureBlockWrite) (fun s => s.get CAPT_WPTR.w < 0x8000) (fun a => !(0x100000 ≤ a && a < 0x120000))) ∧
    (Stores (.captureEnd) (fun s => s.get CAPT_WPTR.w < 0x8000) (fun a => !(0x100000 ≤ a && a < 0x120000))) ∧
    (∀ (port : AudioPort) (slots : List Int), Stores (.apRxFrameEdge port slots) (fun s =>
      s.get CAPT_WPTR.w < 0x8000) (fun a => !(0x100000 ≤ a && a < 0x120000))) ∧
    (∀ (port : AudioPort) (receive : Bool) (samples : Nat), Stores (.apHardLoss port receive samples) (fun s =>
      s.get CAPT_WPTR.w < 0x8000) (fun a => !(0x100000 ≤ a && a < 0x120000))) ∧
    (∀ (apart : Nat) (violation : Bool), Stores (.bphLock apart violation) (fun s =>
      s.get CAPT_WPTR.w < 0x8000) (fun a => !(0x100000 ≤ a && a < 0x120000))) ∧
    (∀ (missing violated : Nat), Stores (.bphLockLost missing violated) (fun s =>
      s.get CAPT_WPTR.w < 0x8000) (fun a => !(0x100000 ≤ a && a < 0x120000))) ∧
    (∀ (pre : Preamble) (word : BitVec 24) (valid user status parityOk : Bool),
      Stores (.bphSubframe pre word valid user status parityOk) (fun s => s.get CAPT_WPTR.w < 0x8000) (fun a =>
      !(0x100000 ≤ a && a < 0x120000))) ∧
    (Stores (.admissionDone) (fun s => s.get CAPT_WPTR.w < 0x8000) (fun a => !(0x100000 ≤ a && a < 0x120000))) ∧
    (Stores (.readmission) (fun s => s.get CAPT_WPTR.w < 0x8000) (fun a => !(0x100000 ≤ a && a < 0x120000))) ∧
    (∀ (f : Fn) (idx : Nat), Stores (.slotStart f idx) (fun s => s.get CAPT_WPTR.w < 0x8000) (fun a =>
      !(0x100000 ≤ a && a < 0x120000))) ∧
    (∀ (f : Fn) (idx : Nat), Stores (.slotEnd f idx) (fun s =>
      s.get CAPT_WPTR.w < 0x8000) (fun a => !(0x100000 ≤ a && a < 0x120000))) ∧
    (∀ (f : Fn), Stores (.listenStop f) (fun s => s.get CAPT_WPTR.w < 0x8000) (fun a =>
      !(0x100000 ≤ a && a < 0x120000))) ∧
    (∀ (f : Fn), Stores (.listenMaxDuration f) (fun s => s.get CAPT_WPTR.w < 0x8000) (fun a =>
      !(0x100000 ≤ a && a < 0x120000))) ∧
    (Stores (.xoFail) (fun s => s.get CAPT_WPTR.w < 0x8000) (fun a => !(0x100000 ≤ a && a < 0x120000))) ∧
    (∀ (f : Fn), Stores (.fnResetDone f) (fun s => s.get CAPT_WPTR.w < 0x8000) (fun a =>
      !(0x100000 ≤ a && a < 0x120000))) ∧
    (∀ (lowUs : Nat), Stores (.twinHbPulse lowUs) (fun s => s.get CAPT_WPTR.w < 0x8000) (fun a =>
      !(0x100000 ≤ a && a < 0x120000))) ∧
    (∀ (lineLow : Bool), Stores (.claim lineLow) (fun s => s.get CAPT_WPTR.w < 0x8000) (fun a =>
      !(0x100000 ≤ a && a < 0x120000))) ∧
    (∀ (f : Fn), Stores (.planSubmit f) (fun s => s.get CAPT_WPTR.w < 0x8000) (fun a =>
      !(0x100000 ≤ a && a < 0x120000))) ∧
    (∀ (f : Fn), Stores (.planWithdraw f) (fun s => s.get CAPT_WPTR.w < 0x8000) (fun a =>
      !(0x100000 ≤ a && a < 0x120000))) ∧
    (Stores (.bphBlockEnd) (fun s => ∀ u ∈ s.capt.used, u.pos + 9 < 0x20000) (fun a =>
      !(0x100000 ≤ a && a < 0x120000))) ∧
    (∀ (stream obj blk : Nat) (pikaOk : Bool), Stores (.blockComplete stream obj blk pikaOk) (fun s =>
      ∀ o ∈ s.edf.objs, ∀ e, o.store = some e → 0x210000 ≤ e.1) (fun a => a < 0xA10000)) ∧
    (∀ (stream obj blk : Nat) (pikaOk : Bool), Stores (.decodeRetry stream obj blk pikaOk) (fun s =>
      ∀ o ∈ s.edf.objs, ∀ e, o.store = some e → 0x210000 ≤ e.1) (fun a => a < 0xA10000)) ∧
    (Stores (.hoardCompact) (fun s => ∀ o ∈ s.edf.objs, ∀ e, o.store = some e → 0x210000 ≤ e.1) (fun a =>
      a < 0xA10000)) ∧
    (Stores (.wearLevelMove) (fun s => ∀ o ∈ s.edf.objs, ∀ e, o.store = some e → 0x210000 ≤ e.1) (fun a =>
      a < 0xA10000)) ∧
    (Stores (.spill) (fun s => ∀ o ∈ s.edf.objs, ∀ e, o.store = some e → 0x210000 ≤ e.1) (fun a => a < 0xA10000)) ∧
    (Stores (.sysWdog) (fun _ => True) (fun a => isFlash a || isBurrow a)) ∧
    (∀ (lowUs : Nat), Stores (.pinReset lowUs) (fun _ => True) (fun a => isFlash a || isBurrow a)) ∧
    (∀ (reloadOk : Bool), Stores (.martenHeartbeatTimeout reloadOk) (fun _ => True) (fun a =>
      isFlash a || isBurrow a)) ∧
    (∀ (supplyOk readOk : Bool), Stores (.wakeReady supplyOk readOk) (fun _ => True) (fun a =>
      isFlash a || isBurrow a)) ∧
    (Stores (.reservoirBrownout) (fun _ => True) (fun a => isFlash a || isBurrow a)) ∧
    (∀ (burrowOk secretOk prefOk cfgOk calOk : Bool), Stores (.coldBootStart burrowOk secretOk prefOk cfgOk calOk)
      (fun _ => True) (fun a => !isBurrow a)) ∧
    (Stores (.restEntry) (fun _ => True) (fun a =>
      !(0x100000 ≤ a && a < 0x120000) && !(0x200000 ≤ a && a < 0x208000))) ∧
    (∀ (f : Fn), Stores (.imgStageCommit f) (fun _ => True) (fun a =>
      !(0x800000 ≤ a && a < 0xA00000))) ∧
    (∀ (stream obj : Nat), Stores (.autoStage stream obj) (fun _ => True) (fun a =>
      !(0x800000 ≤ a && a < 0xA00000))) ∧
    (Stores (.stagingJournalResume) (fun _ => True) (fun a =>
      !(0x800000 ≤ a && a < 0xA00000))) ∧
    (∀ (ok : Bool), Stores (.stagingSectorWritten ok) (fun s => s.img.next < 0x100 ∧
      s.img.winPos ≤ 0x100000) (fun a => !(0x800000 ≤ a && a < 0xA00000))) ∧
    (∀ (ok : Bool), Stores (.stagingReadbackDone ok) (fun s => s.img.next < 0x100 ∧
      s.img.winPos ≤ 0x100000) (fun a => !(0x800000 ≤ a && a < 0xA00000))) ∧
    (∀ (f : Fn), Stores (.hostLoadBegin f) (fun _ => True) (fun a =>
      !(0x400000 ≤ a && a < 0x500000) && !(0x800000 ≤ a && a < 0xA00000))) ∧
    (Stores (.imageWindowVerifyDone) (fun _ => True) (fun a =>
      !(0x400000 ≤ a && a < 0x500000))) ∧
    (Stores (.imageWindowIdle) (fun _ => True) (fun a => !(0x400000 ≤ a && a < 0x500000))) ∧
    (∀ (f : Fn) (v : Word) (q : Bool), ∀ (s : State), ∃ t, exec (.memDataAccess f (some v) q) s = .next t ∧
      MemKept (fun a =>
      a != (s.eng f).memAddr && a != (s.eng f).memAddr + 1 && !(0x400000 ≤ a && a < 0x500000)) s t) ∧
    (∀ (f : Fn) (v : Word), ∀ (s : State), ∃ t, exec (.imageWindowWrite f v) s = .next t ∧ MemKept (fun a =>
      a != (s.eng f).memAddr && a != (s.eng f).memAddr + 1 && !(0x400000 ≤ a && a < 0x500000)) s t)
end

