-- ==== Sys2Proof/Laws/Sparse.lean ====
section
/-! SUPPORT. What the canonical map operations do: reading back what was put, leaving every other key alone, and keeping
the canonical form. -/

set_option Elab.async false

namespace Sys2Proof.Machine.Sparse

variable {α : Type}

theorem above_mono {n m : Nat} (h : n ≤ m) : ∀ {l : List (Nat × α)}, above m l = true → above n l = true
  | [], _ => rfl
  | (j, _) :: l, hl => by
    simp only [above, Bool.and_eq_true, decide_eq_true_eq] at hl ⊢
    exact ⟨by omega, above_mono h hl.2⟩

theorem get_of_above (d : Nat → α) {n k : Nat} (hk : k ≤ n) :
    ∀ {l : List (Nat × α)}, above n l = true → get d l k = d k
  | [], _ => rfl
  | (j, _) :: l, hl => by
    simp only [above, Bool.and_eq_true, decide_eq_true_eq] at hl
    have : ¬ k = j := by omega
    simp only [get, this, if_false]
    exact get_of_above d hk hl.2

theorem above_put [DecidableEq α] (d : Nat → α) {n k : Nat} {v : α} (hk : n < k) :
    ∀ {l : List (Nat × α)}, above n l = true → above n (put d l k v) = true
  | [], _ => by unfold put; split <;> simp [above, hk]
  | (j, w) :: l, hl => by
    simp only [above, Bool.and_eq_true, decide_eq_true_eq] at hl
    unfold put
    split
    · split <;> simp [above, hl.1, hl.2, hk]
    · split
      · split <;> simp [above, hl.2, hk]
      · simp [above, hl.1, above_put d hk hl.2]

/-- A put keeps the canonical form. -/
theorem wf_put [DecidableEq α] (d : Nat → α) (k : Nat) (v : α) :
    ∀ {l : List (Nat × α)}, wf d l = true → wf d (put d l k v) = true
  | [], _ => by unfold put; split <;> simp_all [wf, above]
  | (j, w) :: l, hl => by
    simp only [wf, Bool.and_eq_true, decide_eq_true_eq] at hl
    obtain ⟨⟨ha, hn⟩, hw⟩ := hl
    unfold put
    split
    · rename_i hkj
      split
      · simp [wf, ha, hn, hw]
      · rename_i hv
        simp [wf, above, ha, hn, hw, hkj, hv, above_mono (Nat.le_of_lt hkj) ha]
    · split
      · rename_i hkj; subst hkj
        split
        · exact hw
        · rename_i hv; simp [wf, ha, hw, hv]
      · rename_i h1 h2
        simp [wf, hn, wf_put d k v hw, above_put d (show j < k by omega) ha]

/-- Reading the key just put gives the value put. -/
theorem get_put_same [DecidableEq α] (d : Nat → α) (k : Nat) (v : α) :
    ∀ {l : List (Nat × α)}, wf d l = true → get d (put d l k v) k = v
  | [], _ => by unfold put; split <;> simp_all [get]
  | (j, w) :: l, hl => by
    simp only [wf, Bool.and_eq_true, decide_eq_true_eq] at hl
    obtain ⟨⟨ha, hn⟩, hw⟩ := hl
    unfold put
    split
    · rename_i hkj
      split
      · rename_i hv
        have : ¬ k = j := by omega
        simp [get, this, hv, get_of_above d (Nat.le_of_lt hkj) ha]
      · simp [get]
    · split
      · rename_i hkj; subst hkj
        split
        · rename_i hv; rw [get_of_above d (Nat.le_refl _) ha, hv]
        · simp [get]
      · rename_i h1 h2
        simp [get, h2, get_put_same d k v hw]

/-- A put leaves every other key as it was. -/
theorem get_put_ne [DecidableEq α] (d : Nat → α) {k m : Nat} (v : α) (hm : m ≠ k) :
    ∀ (l : List (Nat × α)), get d (put d l k v) m = get d l m
  | [] => by unfold put; split <;> simp [get, hm]
  | (j, w) :: l => by
    unfold put
    split
    · split <;> simp [get, hm]
    · split
      · rename_i hkj; subst hkj
        split <;> simp [get, hm]
      · simp [get, get_put_ne d v hm l]

theorem above_drop (p : Nat → Bool) {n : Nat} :
    ∀ {l : List (Nat × α)}, above n l = true → above n (drop p l) = true
  | [], _ => rfl
  | (j, w) :: l, hl => by
    simp only [above, Bool.and_eq_true, decide_eq_true_eq] at hl
    have ih := above_drop p hl.2
    unfold drop at ih ⊢
    by_cases hp : p j <;> simp_all [above]

/-- Dropping entries keeps the canonical form. -/
theorem wf_drop [DecidableEq α] (d : Nat → α) (p : Nat → Bool) :
    ∀ {l : List (Nat × α)}, wf d l = true → wf d (drop p l) = true
  | [], _ => rfl
  | (j, w) :: l, hl => by
    simp only [wf, Bool.and_eq_true, decide_eq_true_eq] at hl
    obtain ⟨⟨ha, hn⟩, hw⟩ := hl
    have ih := wf_drop d p hw
    have ha' := above_drop p ha
    unfold drop at ih ha' ⊢
    by_cases hp : p j <;> simp_all [wf]

/-- A dropped key reads as unlisted, every other key as before. -/
theorem get_drop (d : Nat → α) (p : Nat → Bool) (k : Nat) :
    ∀ (l : List (Nat × α)), get d (drop p l) k = if p k then d k else get d l k
  | [] => by simp [drop, get]
  | (j, w) :: l => by
    have ih := get_drop d p k l
    unfold drop at ih ⊢
    by_cases hp : p j
    · by_cases hk : k = j
      · subst hk; simp_all [get]
      · simp_all [get]
    · by_cases hk : k = j
      · subst hk; simp_all [get]
      · simp_all [get]

end Sys2Proof.Machine.Sparse
end

