-- ==== Sys2Proof/Laws/Keeps.lean ====
section
/-! SUPPORT. `Keeps m s t`: what every operation of the model does to the state. The canonical form is kept; every store and
engine whose bit is not in `m` is left as it was, and every register of which neither the page's bit nor its own is in
`m`. One lemma per operation says so with the operation's own mask; a lemma about a composed operation cites those of its
parts. -/

set_option Elab.async false

namespace Sys2Proof.Machine

/-- The register of a key may change: its page's bit is in `m`, or its own. -/
def regIn (m k : Nat) : Bool := m.testBit (32 + keyPage k) || m.testBit (288 + (keyPage k * 128 + k % 128))

/-- A register of the common part may change in every function. -/
def comIn (m off : Nat) : Bool := m.testBit 32 || m.testBit (288 + off % 128)

/-- From `s` to `t` the canonical form is kept, and only areas whose bit is in `m` may change. -/
def Keeps (m : Nat) (s t : State) : Prop :=
  (s.Canon → t.Canon) ∧ t.variantFL = s.variantFL ∧ t.pending = s.pending ∧
    (∀ k, regIn m k = false → t.reg k = s.reg k) ∧ ∀ a : Area, m.testBit a.bit = false → Same s t a

/-- Every bit of `m` is in `n`. -/
def within? (m n : Nat) : Bool := m &&& n == m


/-- The next state of an outcome, if there is one, meets `P`. -/
def Ends (P : State → Prop) : Host.Outcome State Fault Refusal → Prop
  | .next t => P t
  | _ => True

theorem Ends.of_next {P : State → Prop} {o : Host.Outcome State Fault Refusal} {t : State} (h : Ends P o) (e : o = .next t) :
    P t := by subst e; exact h

theorem Ends.next {P : State → Prop} {t : State} (h : P t) : Ends P (.next t) := h

theorem Same.refl (s : State) (a : Area) : Same s s a := by cases a <;> simp [Same]

theorem Same.trans {s t u : State} {a : Area} (h : Same s t a) (k : Same t u a) : Same s u a := by
  cases a <;> first | exact trivial | exact Eq.trans k h

namespace Keeps

variable {m : Nat} {s t u : State}

theorem refl : Keeps m s s := ⟨id, rfl, rfl, fun _ _ => rfl, fun a _ => Same.refl s a⟩

theorem trans (h : Keeps m s t) (k : Keeps m t u) : Keeps m s u :=
  ⟨k.1 ∘ h.1, k.2.1.trans h.2.1, k.2.2.1.trans h.2.2.1, fun n hn => (k.2.2.2.1 n hn).trans (h.2.2.2.1 n hn),
    fun a ha => (h.2.2.2.2 a ha).trans (k.2.2.2.2 a ha)⟩

theorem testBit_of_within {m n i : Nat} (h : within? m n = true) (hi : n.testBit i = false) : m.testBit i = false := by
  have h' : m &&& n = m := by simpa [within?] using h
  rw [← h', Nat.testBit_and, hi, Bool.and_false]

theorem within_trans {a b c : Nat} (h : within? a b = true) (k : within? b c = true) : within? a c = true := by
  simp only [within?, beq_iff_eq] at *
  rw [← h, Nat.and_assoc, k]

theorem regIn_of_within {m n k : Nat} (h : within? m n = true) (hk : regIn n k = false) : regIn m k = false := by
  simp only [regIn, Bool.or_eq_false_iff] at *
  exact ⟨testBit_of_within h hk.1, testBit_of_within h hk.2⟩

theorem mono {n : Nat} (hm : within? m n = true) (h : Keeps m s t) : Keeps n s t :=
  ⟨h.1, h.2.1, h.2.2.1, fun k hk => h.2.2.2.1 k (regIn_of_within hm hk),
    fun a ha => h.2.2.2.2 a (testBit_of_within hm ha)⟩

/-- An operation with mask `m` after a change with a mask that has every bit of `m`. -/
theorem lift {n : Nat} (h : Keeps n s t) (hm : within? m n = true) (k : Keeps m t u) : Keeps n s u := h.trans (k.mono hm)

theorem cut {v : State} (h : Keeps m s u) (k : Keeps m s u → Keeps m s v) : Keeps m s v := k h

theorem ite {c : Prop} [Decidable c] (h : Keeps m s t) (k : Keeps m s u) : Keeps m s (if c then t else u) := by
  split <;> assumption

theorem byCases {c : Prop} [Decidable c] (h : c → Keeps m s t) (k : ¬c → Keeps m s u) : Keeps m s (if c then t else u) := by
  split
  · exact h ‹_›
  · exact k ‹_›

theorem next (h : Keeps m s t) : Ends (Keeps m s) (.next t) := h

theorem endsIte {c : Prop} [Decidable c] {a b : Host.Outcome State Fault Refusal} (h : Ends (Keeps m s) a)
    (k : Ends (Keeps m s) b) : Ends (Keeps m s) (if c then a else b) := by split <;> assumption

theorem foldl {β : Type} {g : State → β → State} (hg : ∀ v b, Keeps m v (g v b)) :
    ∀ {l : List β} {v : State}, Keeps m s v → Keeps m s (l.foldl g v)
  | [], _, h => h
  | b :: l, v, h => foldl hg (l := l) (v := g v b) (h.trans (hg v b))

/-- A register write changes one register. -/
theorem setReg {k : Nat} {w : Word} (h : Keeps m s t) (hk : regIn m k = true) : Keeps m s (t.setReg k w) := by
  refine h.trans ⟨fun hc => ⟨Sparse.wf_put _ _ _ hc.1, hc.2⟩, rfl, rfl, fun n hn => ?_, fun a _ => ?_⟩
  · refine Sparse.get_put_ne _ _ ?_ _
    rintro rfl
    exact absurd hk (by simp [hn])
  · cases a <;> first | exact trivial | rfl

/-- Dropping registers to their reset words changes those registers. -/
theorem resetRegs {p : Nat → Bool} (h : Keeps m s t) (hp : ∀ k, regIn m k = false → p k = false) :
    Keeps m s (t.resetRegs p) := by
  refine h.trans ⟨fun hc => ⟨Sparse.wf_drop _ _ hc.1, hc.2⟩, rfl, rfl, fun n hn => ?_, fun a _ => ?_⟩
  · simp only [State.reg, State.resetRegs, Sparse.get_drop, hp n hn]
    rfl
  · cases a <;> first | exact trivial | rfl

theorem setByte {k : Nat} {b : Byte} (h : Keeps m s t) (hk : m.testBit 2 = true) : Keeps m s (t.setByte k b) := by
  refine h.trans ⟨fun hc => ⟨hc.1, hc.2.1, hc.2.2.1, Sparse.wf_put _ _ _ hc.2.2.2⟩, rfl, rfl, fun _ _ => rfl, fun a ha => ?_⟩
  cases a
  case memory => simp [Area.bit, hk] at ha
  all_goals first | exact trivial | rfl

theorem dropMem {p : Nat → Bool} (h : Keeps m s t) (hk : m.testBit 2 = true) : Keeps m s (t.dropMem p) := by
  refine h.trans ⟨fun hc => ⟨hc.1, hc.2.1, hc.2.2.1, Sparse.wf_drop _ _ hc.2.2.2⟩, rfl, rfl, fun _ _ => rfl, fun a ha => ?_⟩
  cases a
  case memory => simp [Area.bit, hk] at ha
  all_goals first | exact trivial | rfl

/-- The snapshot latches may be emptied. -/
theorem noLatches (h : Keeps m s t) (hk : m.testBit 1 = true) : Keeps m s { t with latches := [] } := by
  refine h.trans ⟨fun hc => ⟨hc.1, hc.2.1, rfl, hc.2.2.2⟩, rfl, rfl, fun _ _ => rfl, fun a ha => ?_⟩
  cases a
  case latches => simp [Area.bit, hk] at ha
  all_goals first | exact trivial | rfl

theorem count {f : Fn} {src : Nat} (h : Keeps m s t) (hk : m.testBit 0 = true) : Keeps m s (t.count f src) := by
  refine h.trans ⟨fun hc => ⟨hc.1, Sparse.wf_put _ _ _ hc.2.1, hc.2.2⟩, rfl, rfl, fun _ _ => rfl, fun a ha => ?_⟩
  cases a
  case counters => simp [Area.bit, hk] at ha
  all_goals first | exact trivial | rfl

/-- A change of engines alone: the registers, counters, latches and memory are carried over. -/
theorem mk {ktime aon : Nat} {pins : Pins} {pwr : Pwr} {mode : ModeEng} {boot : Boot} {flint : Flint} {img : Img}
    {spi : Spi} {tw : Tw} {fns : PerFn FnEng} {plans : PerFn PlanEng} {sched : Sched} {fe : Fe} {fm : Fm} {dab : Dab}
    {lf : Lf} {time : TimeEng} {edf : Edf} {ap : Ports} {bph : Bph} {capt : Capt} {twin : Twin} {hlt : Hlt}
    {hostOut : List Word} {freeCtr : Nat} (h : Keeps m s t)
    (h3 : m.testBit 3 = true ∨ ktime = t.ktime) (h4 : m.testBit 4 = true ∨ aon = t.aon)
    (h5 : m.testBit 5 = true ∨ pins = t.pins) (h6 : m.testBit 6 = true ∨ pwr = t.pwr)
    (h7 : m.testBit 7 = true ∨ mode = t.mode) (h8 : m.testBit 8 = true ∨ boot = t.boot)
    (h9 : m.testBit 9 = true ∨ flint = t.flint) (h10 : m.testBit 10 = true ∨ img = t.img)
    (h11 : m.testBit 11 = true ∨ spi = t.spi) (h12 : m.testBit 12 = true ∨ tw = t.tw)
    (h13 : m.testBit 13 = true ∨ fns = t.fns) (h14 : m.testBit 14 = true ∨ plans = t.plans)
    (h15 : m.testBit 15 = true ∨ sched = t.sched) (h16 : m.testBit 16 = true ∨ fe = t.fe)
    (h17 : m.testBit 17 = true ∨ fm = t.fm) (h18 : m.testBit 18 = true ∨ dab = t.dab)
    (h19 : m.testBit 19 = true ∨ lf = t.lf) (h20 : m.testBit 20 = true ∨ time = t.time)
    (h21 : m.testBit 21 = true ∨ edf = t.edf) (h22 : m.testBit 22 = true ∨ ap = t.ap)
    (h23 : m.testBit 23 = true ∨ bph = t.bph) (h24 : m.testBit 24 = true ∨ capt = t.capt)
    (h25 : m.testBit 25 = true ∨ twin = t.twin) (h26 : m.testBit 26 = true ∨ hlt = t.hlt)
    (h27 : m.testBit 27 = true ∨ hostOut = t.hostOut) (h28 : m.testBit 28 = true ∨ freeCtr = t.freeCtr) :
    Keeps m s ⟨t.variantFL, t.regs, t.cnts, t.latches, t.mem, ktime, aon, pins, pwr, mode, boot, flint, img, spi, tw, fns,
      plans, sched, fe, fm, dab, lf, time, edf, ap, bph, capt, twin, hlt, hostOut, freeCtr, t.pending⟩ := by
  refine h.trans ⟨id, rfl, rfl, fun _ _ => rfl, fun a ha => ?_⟩
  cases a
  case page => exact trivial
  case reg => exact trivial
  case counters => rfl
  case latches => rfl
  case memory => rfl
  all_goals
    simp only [Area.bit] at ha
    simp only [ha, Bool.false_eq_true, false_or, Same] at *
    assumption

theorem only {l : List Area} (h : Keeps m s t) (hr : ∀ k, l.any (Area.has k) = false → regIn m k = false)
    (hm : ∀ a : Area, a ∉ l → m.testBit a.bit = false ∨ a.bit = 29 ∨ a.bit = 30) : Only l s t :=
  ⟨h.2.1, h.2.2.1, fun k hk => h.2.2.2.1 k (hr k hk), fun a ha => by
    rcases hm a ha with h' | h' | h'
    · exact h.2.2.2.2 a h'
    · cases a <;> first | exact trivial | exact absurd h' (by simp [Area.bit])
    · cases a <;> first | exact trivial | exact absurd h' (by simp [Area.bit])⟩

end Keeps

theorem keyPage_common (f : Fn) (k : Nat) : keyPage (commonKey f.toNat k) = 0 := by
  have : ¬ 0x10000 * (f.toNat + 1) + k < 0x10000 := by omega
  simp [keyPage, commonKey, this]

/-- A register in a function's window is the common part's. -/
theorem regIn_on (m : Nat) (f : Fn) (x : Fld) : regIn m (x.on f.toNat).key = comIn m x.key := by
  rw [regIn, comIn, Fld.on, keyPage_common, commonKey, show (0x10000 * (f.toNat + 1) + x.key) % 128 = x.key % 128 by omega,
    Nat.zero_mul, Nat.zero_add, Nat.add_zero]

/-- A page's bit lets every register of the page change. -/
theorem regIn_page {m k p : Nat} (hp : keyPage k = p) (h : m.testBit (32 + p) = true) : regIn m k = true := by
  rw [regIn, hp, h, Bool.true_or]

theorem State.put_keeps (s : State) (x : Fld) (v : Nat) {μ : Nat} {σ : State} (hk : Keeps μ σ s)
    (hx : regIn μ x.key = true) : Keeps μ σ (s.put x v) := hk.setReg hx

end Sys2Proof.Machine
end

