-- ==== Sys2Proof/Laws/KeepsOps.lean ====
section
/-! SUPPORT. What each operation of Machine/Ops.lean may change, and that it keeps the canonical form. -/

set_option Elab.async false

set_option linter.unusedSimpArgs false
set_option linter.unusedTactic false
set_option linter.unreachableTactic false

namespace Sys2Proof.Machine

open R

theorem State.setReg_keeps (s : State) (k : Nat) (w : Word) {μ : Nat} {σ : State} (hk : Keeps μ σ s)
    (hx : regIn μ k = true) : Keeps μ σ (s.setReg k w) := hk.setReg hx

theorem State.putBit_keeps (s : State) (x : Fld) (b : Bool) {μ : Nat} {σ : State} (hk : Keeps μ σ s)
    (hx : regIn μ x.key = true) : Keeps μ σ (s.putBit x b) := State.put_keeps _ _ _ hk hx

theorem State.putSat_keeps (s : State) (x : Fld) (v : Nat) {μ : Nat} {σ : State} (hk : Keeps μ σ s)
    (hx : regIn μ x.key = true) : Keeps μ σ (s.putSat x v) := State.put_keeps _ _ _ hk hx

theorem State.inc_keeps (s : State) (x : Fld)  {μ : Nat} {σ : State} (hk : Keeps μ σ s)
    (hx : regIn μ x.key = true) : Keeps μ σ (s.inc x) := State.put_keeps _ _ _ hk hx

theorem State.addSat_keeps (s : State) (x : Fld) (n : Nat) {μ : Nat} {σ : State} (hk : Keeps μ σ s)
    (hx : regIn μ x.key = true) : Keeps μ σ (s.addSat x n) := State.put_keeps _ _ _ hk hx

theorem State.incWrap_keeps (s : State) (x : Fld)  {μ : Nat} {σ : State} (hk : Keeps μ σ s)
    (hx : regIn μ x.key = true) : Keeps μ σ (s.incWrap x) := State.put_keeps _ _ _ hk hx

theorem State.put32_keeps (s : State) (x : Fld) (v : Nat) {μ : Nat} {σ : State} (hk : Keeps μ σ s)
    (hx : regIn μ x.key = true) (hy : regIn μ (x.key + 1) = true) : Keeps μ σ (s.put32 x v) :=
  State.put_keeps _ _ _ (State.put_keeps _ _ _ hk hx) hy

theorem State.add32_keeps (s : State) (x : Fld) (n : Nat) {μ : Nat} {σ : State} (hk : Keeps μ σ s)
    (hx : regIn μ x.key = true) (hy : regIn μ (x.key + 1) = true) : Keeps μ σ (s.add32 x n) :=
  State.put32_keeps _ _ _ hk hx hy

theorem State.resetRegs_keeps (s : State) (a b : Fld) {μ : Nat} {σ : State} (hk : Keeps μ σ s)
    (hp : ∀ i < b.key + 1 - a.key, regIn μ (a.key + i) = true) : Keeps μ σ (s.resetRegs (fun k => within a b k)) := by
  refine hk.resetRegs (fun k hk => ?_)
  rw [Bool.eq_false_iff]
  intro h
  simp only [within, Bool.and_eq_true, decide_eq_true_eq] at h
  have := hp (k - a.key) (by omega)
  rw [show a.key + (k - a.key) = k by omega, hk] at this
  exact absurd this (by decide)

theorem State.fresh_out {s u : State} {w : Word} (e : s.fresh = (w, u)) {μ : Nat} {σ : State} (hk : Keeps μ σ s)
    (hm : within? 0x10000000 μ = true) : Keeps μ σ u := by
  obtain ⟨-, rfl⟩ := Prod.mk.inj e
  exact hk.lift hm (by simp (decide := true) only [↓Keeps.mk, ↓Keeps.refl, or_true, true_or, eq_self])

theorem State.fresh_snd (s : State) {μ : Nat} {σ : State} (hk : Keeps μ σ s) (hm : within? 0x10000000 μ = true) :
  Keeps μ σ (State.fresh s).2 := State.fresh_out (w := (State.fresh s).1) (u := (State.fresh s).2) rfl hk hm

theorem State.setByte_keeps (s : State) (a : Nat) (b : Byte) {μ : Nat} {σ : State} (hk : Keeps μ σ s)
    (hm : within? 0x4 μ = true) : Keeps μ σ (s.setByte a b) := hk.lift hm (Keeps.refl.setByte (by decide))

theorem State.setBytes_keeps (s : State) (a : Nat) (l : List Byte) {μ : Nat} {σ : State} (hk : Keeps μ σ s)
    (hm : within? 0x4 μ = true) : Keeps μ σ (s.setBytes a l) := by
  induction l generalizing s a with
  | nil => exact hk
  | cons b l ih => exact ih _ _ (State.setByte_keeps _ _ _ hk hm)

theorem State.dropMem_keeps (s : State) (p : Nat → Bool) {μ : Nat} {σ : State} (hk : Keeps μ σ s)
    (hm : within? 0x4 μ = true) : Keeps μ σ (s.dropMem p) := hk.lift hm (Keeps.refl.dropMem (by decide))

theorem State.setEng_keeps (s : State) (f : Fn) (e : FnEng) {μ : Nat} {σ : State} (hk : Keeps μ σ s) (hm : within?
    0x2000 μ = true) : Keeps μ σ (State.setEng s f e) := by
  refine hk.lift hm ?_
  unfold State.setEng
  repeat' first
    | (extract_lets +onlyGivenNames u
       first
       | (refine Keeps.cut (u := u) ?_ (fun _ => ?_); subst u; on_goal 2 => clear_value u)
       | (have h := @id (_ → _) u; clear h; subst u)
       | clear_value u)
    | with_reducible assumption
    | (simp (decide := true) (maxDischargeDepth := 200) only [↓Keeps.refl, ↓Keeps.ite, ↓Keeps.mk, or_true, true_or,
      eq_self, *]; done)
    | split

theorem State.fput_keeps (s : State) (f : Fn) (x : Fld) (v : Nat) {μ : Nat} {σ : State} (hk : Keeps μ σ s)
    (hx : comIn μ x.key = true) : Keeps μ σ (s.fput f x v) :=
  State.put_keeps _ _ _ hk (by rw [regIn_on]; exact hx)

theorem State.setErr_keeps (s : State) (f : Fn) (code : Nat) {μ : Nat} {σ : State} (hk : Keeps μ σ s) (hm : within?
    0x20000000000000000000000000000000000000000000000000000000000000000000000000 μ = true) : Keeps μ σ (State.setErr s
    f code) := by
  refine hk.lift hm ?_
  unfold State.setErr
  repeat' first
    | (extract_lets +onlyGivenNames u
       first
       | (refine Keeps.cut (u := u) ?_ (fun _ => ?_); subst u; on_goal 2 => clear_value u)
       | (have h := @id (_ → _) u; clear h; subst u)
       | clear_value u)
    | with_reducible assumption
    | (simp (decide := true) (maxDischargeDepth := 200) only [↓Keeps.refl, ↓Keeps.ite, ↓Keeps.mk, ↓State.fput_keeps,
      regIn_on, or_true, true_or, eq_self, *]; done)
    | split

theorem State.count_keeps (s : State) (f : Fn) (src : Nat) {μ : Nat} {σ : State} (hk : Keeps μ σ s)
    (hm : within? 0x1 μ = true) : Keeps μ σ (s.count f src) := hk.lift hm (Keeps.refl.count (by decide))

theorem State.wantHost_keeps (s : State) (reason : Nat) {μ : Nat} {σ : State} (hk : Keeps μ σ s) (hm : within?
    0x400000000000000000000000000000000000000000000000000000000000000000000000000000000000000000000000000000000000000000000000000000000000000080
    μ = true) : Keeps μ σ (State.wantHost s reason) := by
  refine hk.lift hm ?_
  unfold State.wantHost
  repeat' first
    | (extract_lets +onlyGivenNames u
       first
       | (refine Keeps.cut (u := u) ?_ (fun _ => ?_); subst u; on_goal 2 => clear_value u)
       | (have h := @id (_ → _) u; clear h; subst u)
       | clear_value u)
    | with_reducible assumption
    | (simp (decide := true) (maxDischargeDepth := 200) only [↓Keeps.refl, ↓Keeps.ite, ↓Keeps.mk, ↓State.put_keeps,
      or_true, true_or, eq_self, *]; done)
    | split

theorem State.noteAttn_keeps (s : State) (f : Fn) (src : Nat) {μ : Nat} {σ : State} (hk : Keeps μ σ s) (hm : within?
    0x400000000000000000000000000000000000000000000000000000000000000000000000000000000000000000000000000000000000000000000000000000000000002080
    μ = true) : Keeps μ σ (State.noteAttn s f src) := by
  refine hk.lift hm ?_
  unfold State.noteAttn
  repeat' first
    | (extract_lets +onlyGivenNames u
       first
       | (refine Keeps.cut (u := u) ?_ (fun _ => ?_); subst u; on_goal 2 => clear_value u)
       | (have h := @id (_ → _) u; clear h; subst u)
       | clear_value u)
    | with_reducible assumption
    | (simp (decide := true) (maxDischargeDepth := 200) only [↓Keeps.refl, ↓Keeps.ite, ↓Keeps.mk,
      ↓State.wantHost_keeps, ↓State.setEng_keeps, or_true, true_or, eq_self, *]; done)
    | split

theorem State.raise0_keeps (s : State) (f : Fn) (b : Nat) {μ : Nat} {σ : State} (hk : Keeps μ σ s) (hm : within?
    0x400000000000000000000000000000000000000000000000000000000000010000000000000000000000000000000000000000000000000000000000000000000000002081
    μ = true) : Keeps μ σ (State.raise0 s f b) := by
  refine hk.lift hm ?_
  unfold State.raise0
  repeat' first
    | (extract_lets +onlyGivenNames u
       first
       | (refine Keeps.cut (u := u) ?_ (fun _ => ?_); subst u; on_goal 2 => clear_value u)
       | (have h := @id (_ → _) u; clear h; subst u)
       | clear_value u)
    | with_reducible assumption
    | (simp (decide := true) (maxDischargeDepth := 200) only [↓Keeps.refl, ↓Keeps.ite, ↓Keeps.mk,
      ↓State.noteAttn_keeps, ↓State.count_keeps, ↓State.fput_keeps, regIn_on, or_true, true_or, eq_self, *]; done)
    | split

theorem State.raise1_keeps (s : State) (b : Nat) {μ : Nat} {σ : State} (hk : Keeps μ σ s) (hm : within?
    0x400000000000000000000000000000000000000000000000000000000000020000000000000000000000000000000000000000000000000000000000000000000000002081
    μ = true) : Keeps μ σ (State.raise1 s b) := by
  refine hk.lift hm ?_
  unfold State.raise1
  repeat' first
    | (extract_lets +onlyGivenNames u
       first
       | (refine Keeps.cut (u := u) ?_ (fun _ => ?_); subst u; on_goal 2 => clear_value u)
       | (have h := @id (_ → _) u; clear h; subst u)
       | clear_value u)
    | with_reducible assumption
    | (simp (decide := true) (maxDischargeDepth := 200) only [↓Keeps.refl, ↓Keeps.ite, ↓Keeps.mk,
      ↓State.noteAttn_keeps, ↓State.count_keeps, ↓State.fput_keeps, regIn_on, or_true, true_or, eq_self, *]; done)
    | split

theorem State.raiseIn_keeps (s : State) (b : Nat) (l : List Fn) {μ : Nat} {σ : State} (hk : Keeps μ σ s)
    (hm : within? 0x400000000000000000000000000000000000000000000000000000000000010000000000000000000000000000000000000000000000000000000000000000000000002081 μ = true) : Keeps μ σ (s.raiseIn b l) := by
  induction l generalizing s with
  | nil => exact hk
  | cons f l ih => exact ih _ (State.raise0_keeps _ _ _ hk hm)

theorem State.raiseGranted_keeps (s : State) (b page : Nat) {μ : Nat} {σ : State} (hk : Keeps μ σ s) (hm : within?
    0x400000000000000000000000000000000000000000000000000000000000010000000000000000000000000000000000000000000000000000000000000000000000002081
    μ = true) : Keeps μ σ (State.raiseGranted s b page) := by
  refine hk.lift hm ?_
  unfold State.raiseGranted
  repeat' first
    | (extract_lets +onlyGivenNames u
       first
       | (refine Keeps.cut (u := u) ?_ (fun _ => ?_); subst u; on_goal 2 => clear_value u)
       | (have h := @id (_ → _) u; clear h; subst u)
       | clear_value u)
    | with_reducible assumption
    | (simp (decide := true) (maxDischargeDepth := 200) only [↓Keeps.refl, ↓Keeps.ite, ↓Keeps.mk,
      ↓State.raiseIn_keeps, or_true, true_or, eq_self, *]; done)
    | split

theorem State.security_keeps (s : State) {μ : Nat} {σ : State} (hk : Keeps μ σ s) (hm : within?
    0x400000000000000000000000000000000000000000000000000000000000010000000000000000000000000000000000000000000000000000000000000000000000002081
    μ = true) : Keeps μ σ (State.security s) := by
  refine hk.lift hm ?_
  unfold State.security
  repeat' first
    | (extract_lets +onlyGivenNames u
       first
       | (refine Keeps.cut (u := u) ?_ (fun _ => ?_); subst u; on_goal 2 => clear_value u)
       | (have h := @id (_ → _) u; clear h; subst u)
       | clear_value u)
    | with_reducible assumption
    | (simp (decide := true) (maxDischargeDepth := 200) only [↓Keeps.refl, ↓Keeps.ite, ↓Keeps.mk,
      ↓State.raiseIn_keeps, or_true, true_or, eq_self, *]; done)
    | split

theorem State.noteFault_keeps (s : State) {μ : Nat} {σ : State} (hk : Keeps μ σ s) (hm : within? 0x4000000 μ = true) :
    Keeps μ σ (State.noteFault s) := by
  refine hk.lift hm ?_
  unfold State.noteFault
  repeat' first
    | (extract_lets +onlyGivenNames u
       first
       | (refine Keeps.cut (u := u) ?_ (fun _ => ?_); subst u; on_goal 2 => clear_value u)
       | (have h := @id (_ → _) u; clear h; subst u)
       | clear_value u)
    | with_reducible assumption
    | (simp (decide := true) (maxDischargeDepth := 200) only [↓Keeps.refl, ↓Keeps.ite, ↓Keeps.mk, or_true, true_or,
      eq_self, *]; done)
    | split

theorem State.noteFlash_keeps (s : State) {μ : Nat} {σ : State} (hk : Keeps μ σ s) (hm : within? 0x4000000 μ = true) :
    Keeps μ σ (State.noteFlash s) := by
  refine hk.lift hm ?_
  unfold State.noteFlash
  repeat' first
    | (extract_lets +onlyGivenNames u
       first
       | (refine Keeps.cut (u := u) ?_ (fun _ => ?_); subst u; on_goal 2 => clear_value u)
       | (have h := @id (_ → _) u; clear h; subst u)
       | clear_value u)
    | with_reducible assumption
    | (simp (decide := true) (maxDischargeDepth := 200) only [↓Keeps.refl, ↓Keeps.ite, ↓Keeps.mk, or_true, true_or,
      eq_self, *]; done)
    | split

theorem State.append_keeps (s : State) (f : Fn) (ws : List Word) {μ : Nat} {σ : State} (hk : Keeps μ σ s) (hm :
    within?
    0x400000000000000000000000000000000000000000000000000000000000010000000000000000000000000000000000000000000000000000000000000000000000002081
    μ = true) : Keeps μ σ (State.append s f ws) := by
  refine hk.lift hm ?_
  unfold State.append
  repeat' first
    | (extract_lets +onlyGivenNames u
       first
       | (refine Keeps.cut (u := u) ?_ (fun _ => ?_); subst u; on_goal 2 => clear_value u)
       | (have h := @id (_ → _) u; clear h; subst u)
       | clear_value u)
    | with_reducible assumption
    | (simp (decide := true) (maxDischargeDepth := 200) only [↓Keeps.refl, ↓Keeps.ite, ↓Keeps.mk, ↓State.setEng_keeps,
      ↓State.raise0_keeps, or_true, true_or, eq_self, *]; done)
    | split

theorem State.writeRec_keeps (s : State) (f : Fn) (r : Rec) {μ : Nat} {σ : State} (hk : Keeps μ σ s) (hm : within?
    0x400000000000000000000000000000000000000000002000000000000000010000000000000000000000000000000000000000000000000000000000000000000000002081
    μ = true) : Keeps μ σ (State.writeRec s f r) := by
  refine hk.lift hm ?_
  unfold State.writeRec
  repeat' first
    | (extract_lets +onlyGivenNames u
       first
       | (refine Keeps.cut (u := u) ?_ (fun _ => ?_); subst u; on_goal 2 => clear_value u)
       | (have h := @id (_ → _) u; clear h; subst u)
       | clear_value u)
    | with_reducible assumption
    | (simp (decide := true) (maxDischargeDepth := 200) only [↓Keeps.refl, ↓Keeps.ite, ↓Keeps.mk, ↓Keeps.foldl,
      ↓State.append_keeps, ↓State.setEng_keeps, ↓State.raise0_keeps, ↓State.putSat_keeps, implies_true, regIn_on,
      or_true, true_or, eq_self, *]; done)
    | (with_reducible refine Keeps.foldl (fun _ _ => ?_) ?_ <;> beta_reduce)
    | (with_reducible refine State.append_keeps _ _ _ ?_ (by decide))
    | (with_reducible refine State.setEng_keeps _ _ _ ?_ (by decide))
    | (with_reducible refine State.raise0_keeps _ _ _ ?_ (by decide))
    | (with_reducible refine State.putSat_keeps _ _ _ ?_ (by decide))
    | split

theorem State.deliver_keeps (s : State) (f : Fn) (type : Nat) (payload : List Word) (bits : List Nat) (stamp : Nat) {μ
    : Nat} {σ : State} (hk : Keeps μ σ s) (hm : within?
    0x400000000000000000000000000000000000000000002000000000000000010000000000000000000000000000000000000000000000000000000000000000000000002081
    μ = true) : Keeps μ σ (State.deliver s f type payload bits stamp) := by
  refine hk.lift hm ?_
  unfold State.deliver
  repeat' first
    | (extract_lets +onlyGivenNames u
       first
       | (refine Keeps.cut (u := u) ?_ (fun _ => ?_); subst u; on_goal 2 => clear_value u)
       | (have h := @id (_ → _) u; clear h; subst u)
       | clear_value u)
    | with_reducible assumption
    | (simp (decide := true) (maxDischargeDepth := 200) only [↓Keeps.refl, ↓Keeps.ite, ↓Keeps.mk, ↓State.setEng_keeps,
      ↓State.writeRec_keeps, or_true, true_or, eq_self, *]; done)
    | split

theorem State.raiseOthers_keeps (s : State) (b : Nat) (fns : List Fn) {μ : Nat} {σ : State} (hk : Keeps μ σ s) (hm :
    within?
    0x400000000000000000000000000000000000000000000000000000000000010000000000000000000000000000000000000000000000000000000000000000000000002081
    μ = true) : Keeps μ σ (State.raiseOthers s b fns) := by
  refine hk.lift hm ?_
  unfold State.raiseOthers
  repeat' first
    | (extract_lets +onlyGivenNames u
       first
       | (refine Keeps.cut (u := u) ?_ (fun _ => ?_); subst u; on_goal 2 => clear_value u)
       | (have h := @id (_ → _) u; clear h; subst u)
       | clear_value u)
    | with_reducible assumption
    | (simp (decide := true) (maxDischargeDepth := 200) only [↓Keeps.refl, ↓Keeps.ite, ↓Keeps.mk,
      ↓State.raiseIn_keeps, or_true, true_or, eq_self, *]; done)
    | split

theorem State.deliverAll_keeps (s : State) (type : Nat) (payload : List Word) (bits : List Nat) (stamp : Nat)
    (l : List Fn) {μ : Nat} {σ : State} (hk : Keeps μ σ s) (hm : within? 0x400000000000000000000000000000000000000000002000000000000000010000000000000000000000000000000000000000000000000000000000000000000000002081 μ = true) :
    Keeps μ σ (s.deliverAll type payload bits stamp l) := by
  induction l generalizing s with
  | nil => exact hk
  | cons f l ih => exact ih _ (State.deliver_keeps _ _ _ _ _ _ hk hm)

theorem State.flushQueue_keeps (s : State) (f : Fn) {μ : Nat} {σ : State} (hk : Keeps μ σ s) (hm : within? 0x2000 μ =
    true) : Keeps μ σ (State.flushQueue s f) := by
  refine hk.lift hm ?_
  unfold State.flushQueue
  repeat' first
    | (extract_lets +onlyGivenNames u
       first
       | (refine Keeps.cut (u := u) ?_ (fun _ => ?_); subst u; on_goal 2 => clear_value u)
       | (have h := @id (_ → _) u; clear h; subst u)
       | clear_value u)
    | with_reducible assumption
    | (simp (decide := true) (maxDischargeDepth := 200) only [↓Keeps.refl, ↓Keeps.ite, ↓Keeps.mk, ↓State.setEng_keeps,
      or_true, true_or, eq_self, *]; done)
    | split

theorem State.finishOp_keeps (s : State) (f : Fn) (err : Nat) (res : List Word) {μ : Nat} {σ : State} (hk : Keeps μ σ
    s) (hm : within?
    0x4000000000000000000000000000000000000000000000000000001F0000010020000000000000000000000000000000000000000000000000000000000000000000002081
    μ = true) : Keeps μ σ (State.finishOp s f err res) := by
  refine hk.lift hm ?_
  unfold State.finishOp
  repeat' first
    | (extract_lets +onlyGivenNames u
       first
       | (refine Keeps.cut (u := u) ?_ (fun _ => ?_); subst u; on_goal 2 => clear_value u)
       | (have h := @id (_ → _) u; clear h; subst u)
       | clear_value u)
    | with_reducible assumption
    | (simp (decide := true) (maxDischargeDepth := 200) only [↓Keeps.refl, ↓Keeps.ite, ↓Keeps.mk, ↓State.fput_keeps,
      ↓State.setEng_keeps, ↓State.setErr_keeps, ↓State.raise0_keeps, regIn_on, or_true, true_or, eq_self, *]; done)
    | split

theorem State.outcome_keeps (s : State) (f : Fn) (err : Nat) (res : List Word) {μ : Nat} {σ : State} (hk : Keeps μ σ
    s) (hm : within? 0x2000 μ = true) : Keeps μ σ (State.outcome s f err res) := by
  refine hk.lift hm ?_
  unfold State.outcome
  repeat' first
    | (extract_lets +onlyGivenNames u
       first
       | (refine Keeps.cut (u := u) ?_ (fun _ => ?_); subst u; on_goal 2 => clear_value u)
       | (have h := @id (_ → _) u; clear h; subst u)
       | clear_value u)
    | with_reducible assumption
    | (simp (decide := true) (maxDischargeDepth := 200) only [↓Keeps.refl, ↓Keeps.ite, ↓Keeps.mk, ↓State.setEng_keeps,
      or_true, true_or, eq_self, *]; done)
    | split

theorem State.withOp_keeps (s : State) (f : Fn) (code : Nat) (act : List Word → State) {μ : Nat} {σ : State} (hk : Keeps μ σ s)
    (ha : ∀ l, Keeps μ σ (act l)) : Keeps μ σ (s.withOp f code act) := by
  unfold State.withOp
  split
  · split
    · exact ha _
    · exact hk
  · exact hk

theorem State.withFlint_keeps (s : State) (f : Fn) (code : Nat) (act : List Word → State) {μ : Nat} {σ : State}
    (hk : Keeps μ σ s) (ha : ∀ l, Keeps μ σ (act l)) : Keeps μ σ (s.withFlint f code act) :=
  Keeps.ite hk (State.withOp_keeps _ _ _ _ hk ha)

theorem State.setPlan_keeps (s : State) (f : Fn) (p : PlanEng) {μ : Nat} {σ : State} (hk : Keeps μ σ s) (hm : within?
    0x4000 μ = true) : Keeps μ σ (State.setPlan s f p) := by
  refine hk.lift hm ?_
  unfold State.setPlan
  repeat' first
    | (extract_lets +onlyGivenNames u
       first
       | (refine Keeps.cut (u := u) ?_ (fun _ => ?_); subst u; on_goal 2 => clear_value u)
       | (have h := @id (_ → _) u; clear h; subst u)
       | clear_value u)
    | with_reducible assumption
    | (simp (decide := true) (maxDischargeDepth := 200) only [↓Keeps.refl, ↓Keeps.ite, ↓Keeps.mk, or_true, true_or,
      eq_self, *]; done)
    | split

theorem State.updMode_keeps (s : State) {μ : Nat} {σ : State} (hk : Keeps μ σ s) (hm : within?
    0x10000000000000000000000000000000000000000000000000000000000000000000000000000000000000000000000000000000000000000000000000000000000000000
    μ = true) : Keeps μ σ (State.updMode s) := by
  refine hk.lift hm ?_
  unfold State.updMode
  repeat' first
    | (extract_lets +onlyGivenNames u
       first
       | (refine Keeps.cut (u := u) ?_ (fun _ => ?_); subst u; on_goal 2 => clear_value u)
       | (have h := @id (_ → _) u; clear h; subst u)
       | clear_value u)
    | with_reducible assumption
    | (simp (decide := true) (maxDischargeDepth := 200) only [↓Keeps.refl, ↓Keeps.ite, ↓Keeps.mk, ↓State.put_keeps,
      ↓State.putBit_keeps, or_true, true_or, eq_self, *]; done)
    | split

theorem State.setAct_keeps (s : State) (x : Fld) (b : Bool) {μ : Nat} {σ : State} (hk : Keeps μ σ s)
    (hx : regIn μ x.key = true) (hm : within? 0x10000000000000000000000000000000000000000000000000000000000000000000000000000000000000000000000000000000000000000000000000000000000000000 μ = true) : Keeps μ σ (s.setAct x b) :=
  State.updMode_keeps _ (State.putBit_keeps _ _ _ hk hx) hm

theorem State.latchCause_keeps (s : State) (cause : Nat) {μ : Nat} {σ : State} (hk : Keeps μ σ s) (hm : within?
    0x100000000000000000000000000000000000000000000000000000000000000000000000000000000000000000000000000000000000000000000000000000000000000000
    μ = true) : Keeps μ σ (State.latchCause s cause) := by
  refine hk.lift hm ?_
  unfold State.latchCause
  repeat' first
    | (extract_lets +onlyGivenNames u
       first
       | (refine Keeps.cut (u := u) ?_ (fun _ => ?_); subst u; on_goal 2 => clear_value u)
       | (have h := @id (_ → _) u; clear h; subst u)
       | clear_value u)
    | with_reducible assumption
    | (simp (decide := true) (maxDischargeDepth := 200) only [↓Keeps.refl, ↓Keeps.ite, ↓Keeps.mk, ↓State.put_keeps,
      or_true, true_or, eq_self, *]; done)
    | split

theorem State.xoStart_keeps (s : State) {μ : Nat} {σ : State} (hk : Keeps μ σ s) (hm : within? 0x80 μ = true) : Keeps
    μ σ (State.xoStart s) := by
  refine hk.lift hm ?_
  unfold State.xoStart
  repeat' first
    | (extract_lets +onlyGivenNames u
       first
       | (refine Keeps.cut (u := u) ?_ (fun _ => ?_); subst u; on_goal 2 => clear_value u)
       | (have h := @id (_ → _) u; clear h; subst u)
       | clear_value u)
    | with_reducible assumption
    | (simp (decide := true) (maxDischargeDepth := 200) only [↓Keeps.refl, ↓Keeps.ite, ↓Keeps.mk, or_true, true_or,
      eq_self, *]; done)
    | split

theorem State.putAll_keeps (s : State) (x : Fld) (v : Nat) {μ : Nat} {σ : State} (hk : Keeps μ σ s)
    (hm : comIn μ x.key = true) : Keeps μ σ (s.putAll x v) :=
  State.fput_keeps _ _ _ _ (State.fput_keeps _ _ _ _ (State.fput_keeps _ _ _ _ (State.fput_keeps _ _ _ _ hk hm) hm) hm) hm

end Sys2Proof.Machine
end

