-- ==== Sys2Proof/Laws/KeepsCharger.lean ====
section
/-! SUPPORT. What each operation of Machine/Charger.lean may change, and that it keeps the canonical form. -/

set_option Elab.async false

set_option linter.unusedSimpArgs false
set_option linter.unusedTactic false
set_option linter.unreachableTactic false

namespace Sys2Proof.Machine

open R

theorem State.chargeOn_keeps (s : State) {μ : Nat} {σ : State} (hk : Keeps μ σ s) (hm : within?
    0x1000000000000000000000000000000000000000000000000000000000000000000000000000000000000000000000000000000000000000000000000000000000000000000000000000000000000000000000040
    μ = true) : Keeps μ σ (State.chargeOn s) := by
  refine hk.lift hm ?_
  unfold State.chargeOn
  repeat' first
    | (extract_lets +onlyGivenNames u
       first
       | (refine Keeps.cut (u := u) ?_ (fun _ => ?_); subst u; on_goal 2 => clear_value u)
       | (have h := @id (_ → _) u; clear h; subst u)
       | clear_value u)
    | with_reducible assumption
    | (simp (decide := true) (maxDischargeDepth := 200) only [↓Keeps.refl, ↓Keeps.ite, ↓Keeps.mk, ↓State.put_keeps,
      or_true, true_or, eq_self, *]; done)
    | split

theorem State.chargeOff_keeps (s : State) {μ : Nat} {σ : State} (hk : Keeps μ σ s) (hm : within?
    0x1000000000000000000000000000000000000000000000000000000000000000000000000000000000000000000000000000000000000000000000000000000000000000000000000000000000000000000000040
    μ = true) : Keeps μ σ (State.chargeOff s) := by
  refine hk.lift hm ?_
  unfold State.chargeOff
  repeat' first
    | (extract_lets +onlyGivenNames u
       first
       | (refine Keeps.cut (u := u) ?_ (fun _ => ?_); subst u; on_goal 2 => clear_value u)
       | (have h := @id (_ → _) u; clear h; subst u)
       | clear_value u)
    | with_reducible assumption
    | (simp (decide := true) (maxDischargeDepth := 200) only [↓Keeps.refl, ↓Keeps.ite, ↓Keeps.mk, ↓State.put_keeps,
      or_true, true_or, eq_self, *]; done)
    | split

theorem State.chgState_keeps (s : State) (v : Nat) {μ : Nat} {σ : State} (hk : Keeps μ σ s) (hm : within?
    0x1000000000000000000000000000000000000000000000000000000000000000000000000000000000000000000000000000000000000000000000000000000000000000000000000000000000000000000000040
    μ = true) : Keeps μ σ (State.chgState s v) := by
  refine hk.lift hm ?_
  unfold State.chgState
  repeat' first
    | (extract_lets +onlyGivenNames u
       first
       | (refine Keeps.cut (u := u) ?_ (fun _ => ?_); subst u; on_goal 2 => clear_value u)
       | (have h := @id (_ → _) u; clear h; subst u)
       | clear_value u)
    | with_reducible assumption
    | (simp (decide := true) (maxDischargeDepth := 200) only [↓Keeps.refl, ↓Keeps.ite, ↓Keeps.mk, ↓State.put_keeps,
      ↓State.chargeOff_keeps, ↓State.chargeOn_keeps, or_true, true_or, eq_self, *]; done)
    | split

theorem State.wantReadmit_keeps (s : State) {μ : Nat} {σ : State} (hk : Keeps μ σ s) (hm : within? 0x8000 μ = true) :
    Keeps μ σ (State.wantReadmit s) := by
  refine hk.lift hm ?_
  unfold State.wantReadmit
  repeat' first
    | (extract_lets +onlyGivenNames u
       first
       | (refine Keeps.cut (u := u) ?_ (fun _ => ?_); subst u; on_goal 2 => clear_value u)
       | (have h := @id (_ → _) u; clear h; subst u)
       | clear_value u)
    | with_reducible assumption
    | (simp (decide := true) (maxDischargeDepth := 200) only [↓Keeps.refl, ↓Keeps.ite, ↓Keeps.mk, or_true, true_or,
      eq_self, *]; done)
    | split

theorem State.followEstimates_keeps (s : State) {μ : Nat} {σ : State} (hk : Keeps μ σ s) (hm : within? 0x8000 μ =
    true) : Keeps μ σ (State.followEstimates s) := by
  refine hk.lift hm ?_
  unfold State.followEstimates
  repeat' first
    | (extract_lets +onlyGivenNames u
       first
       | (refine Keeps.cut (u := u) ?_ (fun _ => ?_); subst u; on_goal 2 => clear_value u)
       | (have h := @id (_ → _) u; clear h; subst u)
       | clear_value u)
    | with_reducible assumption
    | (simp (decide := true) (maxDischargeDepth := 200) only [↓Keeps.refl, ↓Keeps.ite, ↓Keeps.mk,
      ↓State.wantReadmit_keeps, or_true, true_or, eq_self, *]; done)
    | split

theorem State.moveEst_keeps (s : State) (est : Fld) (q part : Rat) {μ : Nat} {σ : State} (hk : Keeps μ σ s)
    (hx : regIn μ est.key = true) : Keeps μ σ (s.moveEst est q part) := State.putSat_keeps _ _ _ hk hx

theorem State.takeC_keeps (s : State) (q : Rat) {μ : Nat} {σ : State} (hk : Keeps μ σ s) (hm : within?
    0x18000000000000000000000000000000000000000000000000000000000000000000000000000000000000000000000000000000000000000000000000000000000000000000000000000000000000000000000008040
    μ = true) : Keeps μ σ (State.takeC s q) := by
  refine hk.lift hm ?_
  unfold State.takeC
  repeat' first
    | (extract_lets +onlyGivenNames u
       first
       | (refine Keeps.cut (u := u) ?_ (fun _ => ?_); subst u; on_goal 2 => clear_value u)
       | (have h := @id (_ → _) u; clear h; subst u)
       | clear_value u)
    | with_reducible assumption
    | (simp (decide := true) (maxDischargeDepth := 200) only [↓Keeps.refl, ↓Keeps.ite, ↓Keeps.mk,
      ↓State.moveEst_keeps, ↓State.putSat_keeps, ↓State.followEstimates_keeps, or_true, true_or, eq_self, *]; done)
    | split

theorem State.takeLeak_keeps (s : State) (q : Rat) {μ : Nat} {σ : State} (hk : Keeps μ σ s) (hm : within?
    0x60000000000000000000000000000000000000000000000000000000000000000000000000000000000000000000000000000000000000000000000000000000000000000000000000000000000000000000000008040
    μ = true) : Keeps μ σ (State.takeLeak s q) := by
  refine hk.lift hm ?_
  unfold State.takeLeak
  repeat' first
    | (extract_lets +onlyGivenNames u
       first
       | (refine Keeps.cut (u := u) ?_ (fun _ => ?_); subst u; on_goal 2 => clear_value u)
       | (have h := @id (_ → _) u; clear h; subst u)
       | clear_value u)
    | with_reducible assumption
    | (simp (decide := true) (maxDischargeDepth := 200) only [↓Keeps.refl, ↓Keeps.ite, ↓Keeps.mk,
      ↓State.moveEst_keeps, ↓State.putSat_keeps, ↓State.followEstimates_keeps, or_true, true_or, eq_self, *]; done)
    | split

theorem State.probeEnd_keeps (s : State) (vres secs : Nat) {μ : Nat} {σ : State} (hk : Keeps μ σ s) (hm : within?
    0x60001000000000000000000000000000000000000000000000000000000000000000000000000000000000000000000000000000000000000000000000000000000000000000000000000000000000000000000008040
    μ = true) : Keeps μ σ (State.probeEnd s vres secs) := by
  refine hk.lift hm ?_
  unfold State.probeEnd
  repeat' first
    | (extract_lets +onlyGivenNames u
       first
       | (refine Keeps.cut (u := u) ?_ (fun _ => ?_); subst u; on_goal 2 => clear_value u)
       | (have h := @id (_ → _) u; clear h; subst u)
       | clear_value u)
    | with_reducible assumption
    | (simp (decide := true) (maxDischargeDepth := 200) only [↓Keeps.refl, ↓Keeps.ite, ↓Keeps.mk, ↓State.put_keeps,
      ↓State.chgState_keeps, ↓State.takeLeak_keeps, or_true, true_or, eq_self, *]; done)
    | split

theorem State.probeCut_keeps (s : State) {μ : Nat} {σ : State} (hk : Keeps μ σ s) (hm : within?
    0x60001000000000000000000000000000000000000000000000000000000000000000000000000000000000000000000000000000000000000000000000000000000000000000000000000000000000000000000008040
    μ = true) : Keeps μ σ (State.probeCut s) := by
  refine hk.lift hm ?_
  unfold State.probeCut
  repeat' first
    | (extract_lets +onlyGivenNames u
       first
       | (refine Keeps.cut (u := u) ?_ (fun _ => ?_); subst u; on_goal 2 => clear_value u)
       | (have h := @id (_ → _) u; clear h; subst u)
       | clear_value u)
    | with_reducible assumption
    | (simp (decide := true) (maxDischargeDepth := 200) only [↓Keeps.refl, ↓Keeps.ite, ↓Keeps.mk,
      ↓State.probeEnd_keeps, or_true, true_or, eq_self, *]; done)
    | split

theorem State.wakeStart_keeps (s : State) (cause : Nat) {μ : Nat} {σ : State} (hk : Keeps μ σ s) (hm : within?
    0x40000000000000000000000000000000000000000000000000000000000000001100000000000000000000000000000000000000000000000000000000000000000000000000000000000000000000000000000000000000000000000000000000000000C0
    μ = true) : Keeps μ σ (State.wakeStart s cause) := by
  refine hk.lift hm ?_
  unfold State.wakeStart
  repeat' first
    | (extract_lets +onlyGivenNames u
       first
       | (refine Keeps.cut (u := u) ?_ (fun _ => ?_); subst u; on_goal 2 => clear_value u)
       | (have h := @id (_ → _) u; clear h; subst u)
       | clear_value u)
    | with_reducible assumption
    | (simp (decide := true) (maxDischargeDepth := 200) only [↓Keeps.refl, ↓Keeps.ite, ↓Keeps.mk,
      ↓State.latchCause_keeps, ↓State.inc_keeps, ↓State.put_keeps, ↓State.xoStart_keeps, or_true, true_or, eq_self,
      *]; done)
    | split

theorem State.delayWake_keeps (s : State) (cause : Option Nat) (level : Nat) {μ : Nat} {σ : State} (hk : Keeps μ σ s)
    (hm : within?
    0x10000000000000000000000000000000000000000000000000000000000000000000000000000000000000000000000000000000000000000000000000000000000000000000000000000000000000000000000C0
    μ = true) : Keeps μ σ (State.delayWake s cause level) := by
  refine hk.lift hm ?_
  unfold State.delayWake
  repeat' first
    | (extract_lets +onlyGivenNames u
       first
       | (refine Keeps.cut (u := u) ?_ (fun _ => ?_); subst u; on_goal 2 => clear_value u)
       | (have h := @id (_ → _) u; clear h; subst u)
       | clear_value u)
    | with_reducible assumption
    | (simp (decide := true) (maxDischargeDepth := 200) only [↓Keeps.refl, ↓Keeps.ite, ↓Keeps.mk,
      ↓State.chgState_keeps, or_true, true_or, eq_self, *]; done)
    | split

theorem State.wake_keeps (s : State) (cause : Nat) {μ : Nat} {σ : State} (hk : Keeps μ σ s) (hm : within?
    0x40000000000000000000000000000600010000000000000000000000000000001100000000000000000000000000000000000000000000000000000000000000000000000000000000000000000000000000000000000000000000000000000000000080C0
    μ = true) : Keeps μ σ (State.wake s cause) := by
  refine hk.lift hm ?_
  unfold State.wake
  repeat' first
    | (extract_lets +onlyGivenNames u
       first
       | (refine Keeps.cut (u := u) ?_ (fun _ => ?_); subst u; on_goal 2 => clear_value u)
       | (have h := @id (_ → _) u; clear h; subst u)
       | clear_value u)
    | with_reducible assumption
    | (simp (decide := true) (maxDischargeDepth := 200) only [↓Keeps.refl, ↓Keeps.ite, ↓Keeps.mk,
      ↓State.probeCut_keeps, ↓State.delayWake_keeps, ↓State.wakeStart_keeps, or_true, true_or, eq_self, *]; done)
    | split

theorem State.serviceWake_keeps (s : State) {μ : Nat} {σ : State} (hk : Keeps μ σ s) (hm : within?
    0x40000000000000000000000000000600010000000000000000000000000000001100000000000000000000000000000000000000000000000000000000000000000000000000000000000000000000000000000000000000000000000000000000000080C0
    μ = true) : Keeps μ σ (State.serviceWake s) := by
  refine hk.lift hm ?_
  unfold State.serviceWake
  repeat' first
    | (extract_lets +onlyGivenNames u
       first
       | (refine Keeps.cut (u := u) ?_ (fun _ => ?_); subst u; on_goal 2 => clear_value u)
       | (have h := @id (_ → _) u; clear h; subst u)
       | clear_value u)
    | with_reducible assumption
    | (simp (decide := true) (maxDischargeDepth := 200) only [↓Keeps.refl, ↓Keeps.ite, ↓Keeps.mk, ↓State.wake_keeps,
      or_true, true_or, eq_self, *]; done)
    | split

end Sys2Proof.Machine
end

