-- ==== Sys2Proof/Laws/KeepsUsage.lean ====
section
/-! SUPPORT. What each operation of Machine/Usage.lean may change, and that it keeps the canonical form. -/

set_option Elab.async false

set_option linter.unusedSimpArgs false
set_option linter.unusedTactic false
set_option linter.unreachableTactic false

namespace Sys2Proof.Machine

open R

theorem State.showDay_keeps (s : State) (f : Fn) {μ : Nat} {σ : State} (hk : Keeps μ σ s) (hm : within?
    0x600000000000000000000000000000000000000000000000000000000000000000000000000000000000000 μ = true) : Keeps μ σ
    (State.showDay s f) := by
  refine hk.lift hm ?_
  unfold State.showDay
  repeat' first
    | (extract_lets +onlyGivenNames u
       first
       | (refine Keeps.cut (u := u) ?_ (fun _ => ?_); subst u; on_goal 2 => clear_value u)
       | (have h := @id (_ → _) u; clear h; subst u)
       | clear_value u)
    | with_reducible assumption
    | (simp (decide := true) (maxDischargeDepth := 200) only [↓Keeps.refl, ↓Keeps.ite, ↓Keeps.mk, ↓State.fput_keeps,
      regIn_on, or_true, true_or, eq_self, *]; done)
    | split

theorem State.charge_keeps (s : State) (f : Fn) (nAh ms : Nat) {μ : Nat} {σ : State} (hk : Keeps μ σ s) (hm : within?
    0x600000000000000000000000000000000000000000000000000000000000000000000000000000000002000 μ = true) : Keeps μ σ
    (State.charge s f nAh ms) := by
  refine hk.lift hm ?_
  unfold State.charge
  repeat' first
    | (extract_lets +onlyGivenNames u
       first
       | (refine Keeps.cut (u := u) ?_ (fun _ => ?_); subst u; on_goal 2 => clear_value u)
       | (have h := @id (_ → _) u; clear h; subst u)
       | clear_value u)
    | with_reducible assumption
    | (simp (decide := true) (maxDischargeDepth := 200) only [↓Keeps.refl, ↓Keeps.ite, ↓Keeps.mk,
      ↓State.showDay_keeps, ↓State.setEng_keeps, or_true, true_or, eq_self, *]; done)
    | split

theorem State.chargeOpen_keeps (s : State) (f : Fn) {μ : Nat} {σ : State} (hk : Keeps μ σ s) (hm : within?
    0x600000000000000000000000000000000000000000000000000000000000000000000000000000010002000 μ = true) : Keeps μ σ
    (State.chargeOpen s f) := by
  refine hk.lift hm ?_
  unfold State.chargeOpen
  repeat' first
    | (extract_lets +onlyGivenNames u
       first
       | (refine Keeps.cut (u := u) ?_ (fun _ => ?_); subst u; on_goal 2 => clear_value u)
       | (have h := @id (_ → _) u; clear h; subst u)
       | clear_value u)
    | with_reducible assumption
    | (simp (decide := true) (maxDischargeDepth := 200) only [↓Keeps.refl, ↓Keeps.ite, ↓Keeps.mk, ↓State.fresh_snd,
      ↓State.charge_keeps, or_true, true_or, eq_self, *]; done)
    | (split <;>
        (rename_i e
         refine Keeps.cut (State.fresh_out (by with_reducible exact e) ?_ (by decide)) (fun _ => ?_) <;> clear e))
    | (with_reducible refine State.fresh_snd _ ?_ (by decide))
    | (with_reducible refine State.charge_keeps _ _ _ _ ?_ (by decide))
    | split

theorem State.split_keeps (s : State) (nAh ms : Nat) (users : List Fn) {μ : Nat} {σ : State} (hk : Keeps μ σ s) (hm :
    within? 0x600000000000000000000000000000000000000000000000000000000000000000000000000000000002000 μ = true) :
    Keeps μ σ (State.split s nAh ms users) := by
  refine hk.lift hm ?_
  unfold State.split
  repeat' first
    | (extract_lets +onlyGivenNames u
       first
       | (refine Keeps.cut (u := u) ?_ (fun _ => ?_); subst u; on_goal 2 => clear_value u)
       | (have h := @id (_ → _) u; clear h; subst u)
       | clear_value u)
    | with_reducible assumption
    | (simp (decide := true) (maxDischargeDepth := 200) only [↓Keeps.refl, ↓Keeps.ite, ↓Keeps.mk, ↓Keeps.foldl,
      ↓State.charge_keeps, implies_true, or_true, true_or, eq_self, *]; done)
    | (with_reducible refine Keeps.foldl (fun _ _ => ?_) ?_ <;> beta_reduce)
    | (with_reducible refine State.charge_keeps _ _ _ _ ?_ (by decide))
    | split

theorem State.account_keeps (s : State) {μ : Nat} {σ : State} (hk : Keeps μ σ s) (hm : within?
    0x60000000000000000000000000000000000000000000000000000000000000000000000000000001000A000 μ = true) : Keeps μ σ
    (State.account s) := by
  refine hk.lift hm ?_
  unfold State.account
  repeat' first
    | (extract_lets +onlyGivenNames u
       first
       | (refine Keeps.cut (u := u) ?_ (fun _ => ?_); subst u; on_goal 2 => clear_value u)
       | (have h := @id (_ → _) u; clear h; subst u)
       | clear_value u)
    | with_reducible assumption
    | (simp (decide := true) (maxDischargeDepth := 200) only [↓Keeps.refl, ↓Keeps.ite, ↓Keeps.mk, ↓State.fresh_snd,
      ↓State.split_keeps, or_true, true_or, eq_self, *]; done)
    | (split <;>
        (rename_i e
         refine Keeps.cut (State.fresh_out (by with_reducible exact e) ?_ (by decide)) (fun _ => ?_) <;> clear e))
    | (with_reducible refine State.fresh_snd _ ?_ (by decide))
    | (with_reducible refine State.split_keeps _ _ _ _ ?_ (by decide))
    | split

end Sys2Proof.Machine
end

