-- ==== Sys2Proof/Laws/KeepsDiscipline.lean ====
section
/-! SUPPORT. What each operation of Machine/Discipline.lean may change, and that it keeps the canonical form. -/

set_option Elab.async false

set_option linter.unusedSimpArgs false
set_option linter.unusedTactic false
set_option linter.unreachableTactic false

namespace Sys2Proof.Machine

open R

theorem State.noteRtime_keeps (s : State) {μ : Nat} {σ : State} (hk : Keeps μ σ s) (hm : within?
    0x600000000000000000000000000000000000000000000000000000000000000000000000000000000000000000000000000000000000000000000000000000000000000000000000000000000000000000000000000000000000000000000000000000000000000000000000000000000000000000000000000000000000000000000000000000000000000000000000000000000000000000000000000000000000000000000000000000000000000000000000000000000000000000000000000000000000000000000000000000000000000000000000000000000000000000000000000000000000000000000000000000000000000000000000000000000000000000000000000000000000000000000000000000000000000000000000000000000000000000000000000000000000000000000000000000000000000000000000000000000000000000000000000000000000000000000000000000000000000000000000000000000000000000000000000000000000000000000000000000000000000000000000000000000000000000000000000000000000000000004000000
    μ = true) : Keeps μ σ (State.noteRtime s) := by
  refine hk.lift hm ?_
  unfold State.noteRtime
  repeat' first
    | (extract_lets +onlyGivenNames u
       first
       | (refine Keeps.cut (u := u) ?_ (fun _ => ?_); subst u; on_goal 2 => clear_value u)
       | (have h := @id (_ → _) u; clear h; subst u)
       | clear_value u)
    | with_reducible assumption
    | (simp (decide := true) (maxDischargeDepth := 200) only [↓Keeps.refl, ↓Keeps.ite, ↓Keeps.mk, ↓State.put32_keeps,
      or_true, true_or, eq_self, *]; done)
    | split

theorem State.showTq_keeps (s : State) {μ : Nat} {σ : State} (hk : Keeps μ σ s) (hm : within?
    0x600000000000000000000000000000000000000000000000000000000000000000000000000000000000000000000000000000000000000000000000000000000000000000000000000000000000000000000000000000000000000000000000000000000000000000000000000000000010000000000000000000000000000000000000000000000000000000000000000000000000000000000000000000000000000000000000000000000000000000000000000000000000000000000000000000000000000000000000000000000000000000000000000000000000000000000000000000000000000000000000000000000000000000000000000000000000000000000000000000000000000000000000000000000000000000000000000000000000000000000000000000000000000000000000000000000000000000000000000000000000000000000000000000000000000000000000000000000000000000000000000000000000000000000000000000000000000000000001000000000000000000000000000000000000000000000000000000000000000000004100000
    μ = true) : Keeps μ σ (State.showTq s) := by
  refine hk.lift hm ?_
  unfold State.showTq
  repeat' first
    | (extract_lets +onlyGivenNames u
       first
       | (refine Keeps.cut (u := u) ?_ (fun _ => ?_); subst u; on_goal 2 => clear_value u)
       | (have h := @id (_ → _) u; clear h; subst u)
       | clear_value u)
    | with_reducible assumption
    | (simp (decide := true) (maxDischargeDepth := 200) only [↓Keeps.refl, ↓Keeps.ite, ↓Keeps.mk, ↓State.put_keeps,
      ↓State.noteRtime_keeps, ↓State.putBit_keeps, or_true, true_or, eq_self, *]; done)
    | split

theorem State.rearmLoss_keeps (s : State) {μ : Nat} {σ : State} (hk : Keeps μ σ s) (hm : within? 0x100000 μ = true) :
    Keeps μ σ (State.rearmLoss s) := by
  refine hk.lift hm ?_
  unfold State.rearmLoss
  repeat' first
    | (extract_lets +onlyGivenNames u
       first
       | (refine Keeps.cut (u := u) ?_ (fun _ => ?_); subst u; on_goal 2 => clear_value u)
       | (have h := @id (_ → _) u; clear h; subst u)
       | clear_value u)
    | with_reducible assumption
    | (simp (decide := true) (maxDischargeDepth := 200) only [↓Keeps.refl, ↓Keeps.ite, ↓Keeps.mk, or_true, true_or,
      eq_self, *]; done)
    | split

theorem State.putTrim_keeps (s : State) (e : Rat) {μ : Nat} {σ : State} (hk : Keeps μ σ s) (hm : within?
    0x6000000000000000000000000000000000000000000000000000000000000000000000000000000000000000000000000000000000000000000000000000000000000000000000000000000000000000000000000000000000000000000000000000000000000000000000000000000000000000000000000000000000000000000000000000000000000000000000000000000000000000000000000000000000000000000000000000000000000000000000000000000000000000000000000000000000000000000000000000000000000000000000000000000000000000000000000000000000000000000000000000000000000000000000000000000000000000000000000000000000000000000000000000000000000000000000000000000000000000000000000000000000000000000
    μ = true) : Keeps μ σ (State.putTrim s e) := by
  refine hk.lift hm ?_
  unfold State.putTrim
  repeat' first
    | (extract_lets +onlyGivenNames u
       first
       | (refine Keeps.cut (u := u) ?_ (fun _ => ?_); subst u; on_goal 2 => clear_value u)
       | (have h := @id (_ → _) u; clear h; subst u)
       | clear_value u)
    | with_reducible assumption
    | (simp (decide := true) (maxDischargeDepth := 200) only [↓Keeps.refl, ↓Keeps.ite, ↓Keeps.mk, ↓State.put32_keeps,
      or_true, true_or, eq_self, *]; done)
    | split

theorem State.setTrim_keeps (s : State) {μ : Nat} {σ : State} (hk : Keeps μ σ s) (hm : within?
    0x6000000000000000000000000000000000000000000000000000000000000000000000000000000000000000000000000000000000000000000000000000000000000000000000000000000000000000000000000000000000000000000000000000000000000000000000000000000000000000000000000000000000000000000000000000000000000000000000000000000000000000000000000000000000000000000000000000000000000000000000000000000000000000000000000000000000000000000000000000000000000000000000000000000000000000000000000000000000000000000000000000000000000000000000000000000000000000000000000000000000000000000000000000000000000000000000000000000000000000000000000000000000000000000
    μ = true) : Keeps μ σ (State.setTrim s) := by
  refine hk.lift hm ?_
  unfold State.setTrim
  repeat' first
    | (extract_lets +onlyGivenNames u
       first
       | (refine Keeps.cut (u := u) ?_ (fun _ => ?_); subst u; on_goal 2 => clear_value u)
       | (have h := @id (_ → _) u; clear h; subst u)
       | clear_value u)
    | with_reducible assumption
    | (simp (decide := true) (maxDischargeDepth := 200) only [↓Keeps.refl, ↓Keeps.ite, ↓Keeps.mk,
      ↓State.putTrim_keeps, or_true, true_or, eq_self, *]; done)
    | split

theorem State.timeEvent_keeps (s : State) (event cause tq0 tq1 : Nat) (delta : Int) (bits : List Nat) (stamp : Nat) {μ
    : Nat} {σ : State} (hk : Keeps μ σ s) (hm : within?
    0x400000000000000000000000000000000000000000002000000000000000010000000000000000000000000000000000000000000000000000000000000000000000002081
    μ = true) : Keeps μ σ (State.timeEvent s event cause tq0 tq1 delta bits stamp) := by
  refine hk.lift hm ?_
  unfold State.timeEvent
  repeat' first
    | (extract_lets +onlyGivenNames u
       first
       | (refine Keeps.cut (u := u) ?_ (fun _ => ?_); subst u; on_goal 2 => clear_value u)
       | (have h := @id (_ → _) u; clear h; subst u)
       | clear_value u)
    | with_reducible assumption
    | (simp (decide := true) (maxDischargeDepth := 200) only [↓Keeps.refl, ↓Keeps.ite, ↓Keeps.mk,
      ↓State.deliverAll_keeps, or_true, true_or, eq_self, *]; done)
    | split

theorem State.lossEvent_keeps (s : State) (cause tq0 : Nat) {μ : Nat} {σ : State} (hk : Keeps μ σ s) (hm : within?
    0x400000000000000000000000000000000000000000002000000000000000010000000000000000000000000000000000000000000000000000000000000000000000002081
    μ = true) : Keeps μ σ (State.lossEvent s cause tq0) := by
  refine hk.lift hm ?_
  unfold State.lossEvent
  repeat' first
    | (extract_lets +onlyGivenNames u
       first
       | (refine Keeps.cut (u := u) ?_ (fun _ => ?_); subst u; on_goal 2 => clear_value u)
       | (have h := @id (_ → _) u; clear h; subst u)
       | clear_value u)
    | with_reducible assumption
    | (simp (decide := true) (maxDischargeDepth := 200) only [↓Keeps.refl, ↓Keeps.ite, ↓Keeps.mk,
      ↓State.timeEvent_keeps, or_true, true_or, eq_self, *]; done)
    | split

end Sys2Proof.Machine
end

