-- ==== Sys2Proof/Laws/KeepsSamples.lean ====
section
/-! SUPPORT. What each operation of Machine/Samples.lean may change, and that it keeps the canonical form. -/

set_option Elab.async false

set_option linter.unusedSimpArgs false
set_option linter.unusedTactic false
set_option linter.unreachableTactic false

namespace Sys2Proof.Machine

open R

theorem State.setPort_keeps (s : State) (p : AudioPort) (e : Port) {μ : Nat} {σ : State} (hk : Keeps μ σ s) (hm :
    within? 0x400000 μ = true) : Keeps μ σ (State.setPort s p e) := by
  refine hk.lift hm ?_
  unfold State.setPort
  cases p
  all_goals
    repeat' first
      | (extract_lets +onlyGivenNames u
         first
         | (refine Keeps.cut (u := u) ?_ (fun _ => ?_); subst u; on_goal 2 => clear_value u)
         | (have h := @id (_ → _) u; clear h; subst u)
         | clear_value u)
      | with_reducible assumption
      | (simp (decide := true) (maxDischargeDepth := 200) only [↓Keeps.refl, ↓Keeps.ite, ↓Keeps.mk, or_true, true_or,
        eq_self, *]; done)
      | split

theorem State.showLevels_keeps (s : State) {μ : Nat} {σ : State} (hk : Keeps μ σ s) (hm : within?
    0x80000000000000000000000000000000020000000000000000000000000000000200000000000000000000000000000000000000000000000000000000000000000000000000000000000000000000000000000000000000000000000000000000000000000000000000000000000000000000000000000000000000000000000000000000000000000000000000000000000000000000000000000000000000000000000000000000000000000000000000000000000000000000000000000000000000000000000000000000000000000000000000000000000000000000000000000000000000000000000000000000000000000000000000000000000000000000000000000000000000000000000000000000000000000000000000000000000000000000000000000000000000000000000000000000000000000000000000000000000000000000000000000000000000000000000000000000000000000000000000000000000000000000000000000000000
    μ = true) : Keeps μ σ (State.showLevels s) := by
  refine hk.lift hm ?_
  unfold State.showLevels
  repeat' first
    | (extract_lets +onlyGivenNames u
       first
       | (refine Keeps.cut (u := u) ?_ (fun _ => ?_); subst u; on_goal 2 => clear_value u)
       | (have h := @id (_ → _) u; clear h; subst u)
       | clear_value u)
    | with_reducible assumption
    | (simp (decide := true) (maxDischargeDepth := 200) only [↓Keeps.refl, ↓Keeps.ite, ↓Keeps.mk, ↓State.putSat_keeps,
      or_true, true_or, eq_self, *]; done)
    | split

theorem State.audioEvent_keeps (s : State) (p : AudioPort) (receive : Bool) (event cause frame count : Nat) {μ : Nat}
    {σ : State} (hk : Keeps μ σ s) (hm : within?
    0x400000000000000000000000000000000000000000002000000000000000010000000000000000000000000000000000000000000000000000000000000000000000002081
    μ = true) : Keeps μ σ (State.audioEvent s p receive event cause frame count) := by
  refine hk.lift hm ?_
  unfold State.audioEvent
  cases p
  all_goals
    repeat' first
      | (extract_lets +onlyGivenNames u
         first
         | (refine Keeps.cut (u := u) ?_ (fun _ => ?_); subst u; on_goal 2 => clear_value u)
         | (have h := @id (_ → _) u; clear h; subst u)
         | clear_value u)
      | with_reducible assumption
      | (simp (decide := true) (maxDischargeDepth := 200) only [↓Keeps.refl, ↓Keeps.ite, ↓Keeps.mk,
        ↓State.raiseIn_keeps, ↓State.deliverAll_keeps, or_true, true_or, eq_self, *]; done)
      | split

theorem State.fcntUp_keeps (s : State) (p : AudioPort) {μ : Nat} {σ : State} (hk : Keeps μ σ s)
    (hm : within? 0x6000000000000000000000000000000060000000000000000000000000000000000000000000000000000000000000000000000000000000000000000000000000000000000000000000000000000000000000000000000000000000000000000000000000000000000000000000000000000000000000000000000000000000000000000000000000000000000000000000000000000000000000000000000000000000000000000000000000000000000000000000000000000000000000000000000000000000000000000000000000000000000000000000000000000000000000000000000000000000000000000000000000000000000000000000000000000000000000000000000000000000000000000000000000000000000000000000000000000000000000000000000000000000000000000000000000000000000000000000000000000000000000000000000000000000000000000000000000000000000 μ = true) : Keeps μ σ (s.fcntUp p) := by
  refine hk.lift hm ?_
  cases p <;> simp (decide := true) (maxDischargeDepth := 200) only [State.fcntUp, ↓Keeps.refl, ↓State.add32_keeps]

theorem State.portCount_keeps (s : State) (x : Nat → Fld) (p : AudioPort) (n : Nat) {μ : Nat} {σ : State} (hk : Keeps μ σ s)
    (hx : regIn μ (x (portNo p)).key = true) : Keeps μ σ (s.portCount x p n) := by
  cases p with
  | bph => exact hk
  | _ => exact State.addSat_keeps _ _ _ hk hx

end Sys2Proof.Machine
end

