-- ==== Sys2Proof/Laws/KeepsCapture.lean ====
section
/-! SUPPORT. What each operation of Machine/Capture.lean may change, and that it keeps the canonical form. -/

set_option Elab.async false

set_option linter.unusedSimpArgs false
set_option linter.unusedTactic false
set_option linter.unreachableTactic false

namespace Sys2Proof.Machine

open R

theorem State.showFree_keeps (s : State) {μ : Nat} {σ : State} (hk : Keeps μ σ s)
    (hm : within? 0x20000000000000000000000000000000000000000000000000000000000000040000000000000000000000000000000400000000000000000000000000000000000000000000000000000000000000000000000000000000000000000000000000000000000000000000000000000000000000000000000000000000000000000000000000000000000000000000000000000000000000000000000000000000000000000000000000000000000000000000000000000000000000000000000000000000000000000000000000000000000000000000000000000000000000000000000000000000000000000000000000000000000000000000000000000000000000000000000000000000000000000000000000000000000000000000000000000000000000000000000000000000000000000000000000000000000000000000000000000000000000000000000000000000000000000000000000000000000000000000000000000000000000000000000000000000000000000000000000000000000 μ = true) : Keeps μ σ (State.showFree s) := by
  refine hk.lift hm ?_
  unfold State.showFree
  split
  · rename_i j _
    have h := State.putSat_keeps s CAPT_FREE.w (s.captFrames j) (μ := 0x20000000000000000000000000000000000000000000000000000000000000040000000000000000000000000000000400000000000000000000000000000000000000000000000000000000000000000000000000000000000000000000000000000000000000000000000000000000000000000000000000000000000000000000000000000000000000000000000000000000000000000000000000000000000000000000000000000000000000000000000000000000000000000000000000000000000000000000000000000000000000000000000000000000000000000000000000000000000000000000000000000000000000000000000000000000000000000000000000000000000000000000000000000000000000000000000000000000000000000000000000000000000000000000000000000000000000000000000000000000000000000000000000000000000000000000000000000000000000000000000000000000000000000000000000000000000000000000000000000000000) .refl (by decide)
    cases e : j.source with
    | bph => simpa [e] using h
    | _ => simpa [e] using State.putSat_keeps _ _ _ h (by decide)
  · exact .refl

theorem State.captRec_keeps (s : State) (j : Job) (kind flags index w7 w89 tq stamp : Nat) (extra : List Word) (bits :
    List Nat) {μ : Nat} {σ : State} (hk : Keeps μ σ s) (hm : within?
    0x400000000000000000000000000000000000000000002000000000000000010000000000000000000000000000000000000000000000000000000000000000000000002081
    μ = true) : Keeps μ σ (State.captRec s j kind flags index w7 w89 tq stamp extra bits) := by
  refine hk.lift hm ?_
  unfold State.captRec
  repeat' first
    | (extract_lets +onlyGivenNames u
       first
       | (refine Keeps.cut (u := u) ?_ (fun _ => ?_); subst u; on_goal 2 => clear_value u)
       | (have h := @id (_ → _) u; clear h; subst u)
       | clear_value u)
    | with_reducible assumption
    | (simp (decide := true) (maxDischargeDepth := 200) only [↓Keeps.refl, ↓Keeps.ite, ↓Keeps.mk,
      ↓State.deliverAll_keeps, or_true, true_or, eq_self, *]; done)
    | split

theorem State.showRptr_keeps (s : State) {μ : Nat} {σ : State} (hk : Keeps μ σ s) (hm : within?
    0x8000000000000000000000000000000000000000000000000000000000000000000000000000000000000000000000000000000000000000000000000000000000000000000000000000000000000000000000000000000000000000000000000000000000000000000000000000000000000000000000000000000000000000000000000000000000000000000000000000000000000000000000000000000000000000000000000000000000000000000000000000000000000000000000000000000000000000000000000000000000000000000000000000000000000000000000000000000000000000000000000000000000000000000000000000000000000000000000000000000000000000000000000000000000000000000000000000000000000000000000000000000000000000000000000000000000000000000000000000000000000000000000000000000000000000000000000000000000000000000000000000000000000000000000000000000000000000000000000000000000
    μ = true) : Keeps μ σ (State.showRptr s) := by
  refine hk.lift hm ?_
  unfold State.showRptr
  repeat' first
    | (extract_lets +onlyGivenNames u
       first
       | (refine Keeps.cut (u := u) ?_ (fun _ => ?_); subst u; on_goal 2 => clear_value u)
       | (have h := @id (_ → _) u; clear h; subst u)
       | clear_value u)
    | with_reducible assumption
    | (simp (decide := true) (maxDischargeDepth := 200) only [↓Keeps.refl, ↓Keeps.ite, ↓Keeps.mk, ↓State.put_keeps,
      or_true, true_or, eq_self, *]; done)
    | split

theorem State.writeBlock_keeps (s : State) {μ : Nat} {σ : State} (hk : Keeps μ σ s) (hm : within?
    0x2C000000000000000000000000000000000000000000000000000000000000040000000000000000000000000000000400000000000000000000000000000000000000000000000000000000000000000000000000000000000000000000000000000000000000000000000000000000000000000000000000000000000000000000000000000000000000000000000000000000000000000000000000000000000000000000000000000000000000000000000000000000000000000000000000000000000000000000000000000000000000000000000000000000000000000000000000000000000000000000000000000000000000000000000000000000000000000000000000000000000000000000000000000000000000000000000000000000000000000000000000000000000000000000000000000000000000000400000000000000000000000000000000000000000002000000000000000010000000000000000000000000000000000000000000000000000000000000000000001002085
    μ = true) : Keeps μ σ (State.writeBlock s) := by
  refine hk.lift hm ?_
  unfold State.writeBlock
  repeat' first
    | (extract_lets +onlyGivenNames u
       first
       | (refine Keeps.cut (u := u) ?_ (fun _ => ?_); subst u; on_goal 2 => clear_value u)
       | (have h := @id (_ → _) u; clear h; subst u)
       | clear_value u)
    | with_reducible assumption
    | (simp (decide := true) (maxDischargeDepth := 200) only [↓Keeps.refl, ↓Keeps.ite, ↓Keeps.mk,
      ↓State.setBytes_keeps, ↓State.showRptr_keeps, ↓State.put_keeps, ↓State.captRec_keeps, ↓State.showFree_keeps,
      or_true, true_or, eq_self, *]; done)
    | split

theorem State.cutSnippet_keeps (s : State) {μ : Nat} {σ : State} (hk : Keeps μ σ s) (hm : within? 0x1000000 μ = true)
    : Keeps μ σ (State.cutSnippet s) := by
  refine hk.lift hm ?_
  unfold State.cutSnippet
  repeat' first
    | (extract_lets +onlyGivenNames u
       first
       | (refine Keeps.cut (u := u) ?_ (fun _ => ?_); subst u; on_goal 2 => clear_value u)
       | (have h := @id (_ → _) u; clear h; subst u)
       | clear_value u)
    | with_reducible assumption
    | (simp (decide := true) (maxDischargeDepth := 200) only [↓Keeps.refl, ↓Keeps.ite, ↓Keeps.mk, or_true, true_or,
      eq_self, *]; done)
    | split

theorem State.discont_keeps (s : State) (stamp tq n : Nat) {μ : Nat} {σ : State} (hk : Keeps μ σ s) (hm : within?
    0x182C000000000000000000000000000000000000000000000000000000000000040000000000000000000000000000000400000000000000000000000000000000000000000000000000000000000000000000000000000000000000000000000000000000000000000000000000000000000000000000000000000000000000000000000000000000000000000000000000000000000000000000000000000000000000000000000000000000000000000000000000000000000000000000000000000000000000000000000000000000000000000000000000000000000000000000000000000000000000000000000000000000000000000000000000000000000000000000000000000000000000000000000000000000000000000000000000000000000000000000000000000000000000000000000000000000000000000400000000000000000000000000000000000000000002000000000000000010000000000000000000000000000000000000000000000000000000000000000000001002085
    μ = true) : Keeps μ σ (State.discont s stamp tq n) := by
  refine hk.lift hm ?_
  unfold State.discont
  repeat' first
    | (extract_lets +onlyGivenNames u
       first
       | (refine Keeps.cut (u := u) ?_ (fun _ => ?_); subst u; on_goal 2 => clear_value u)
       | (have h := @id (_ → _) u; clear h; subst u)
       | clear_value u)
    | with_reducible assumption
    | (simp (decide := true) (maxDischargeDepth := 200) only [↓Keeps.refl, ↓Keeps.ite, ↓Keeps.mk,
      ↓State.cutSnippet_keeps, ↓State.writeBlock_keeps, ↓State.addSat_keeps, ↓State.inc_keeps, ↓State.captRec_keeps,
      or_true, true_or, eq_self, *]; done)
    | split

theorem State.freshInt_out {s u : State} {w : Int} (e : s.freshInt = (w, u)) {μ : Nat} {σ : State} (hk : Keeps μ σ s)
    (hm : within? 0x10000000 μ = true) : Keeps μ σ u := by
  exact State.fresh_out (s := (s.fresh).2) (w := (State.fresh (s.fresh).2).1) (by rw [← (Prod.mk.inj e).2]; rfl) (State.fresh_out rfl hk hm) hm

theorem State.freshInt_snd (s : State) {μ : Nat} {σ : State} (hk : Keeps μ σ s) (hm : within? 0x10000000 μ =
  true) : Keeps μ σ (State.freshInt s).2 := State.freshInt_out (w := (State.freshInt s).1) (u := (State.freshInt
  s).2) rfl hk hm

theorem State.freshInts_out {n : Nat} {s u : State} {w : List Int} (e : s.freshInts n = (w, u)) {μ : Nat} {σ : State}
    (hk : Keeps μ σ s) (hm : within? 0x10000000 μ = true) : Keeps μ σ u := by
  induction n generalizing s u w with
  | zero => obtain ⟨-, rfl⟩ := Prod.mk.inj e; exact hk
  | succ n ih =>
    obtain ⟨-, rfl⟩ := Prod.mk.inj e
    exact ih rfl (State.freshInt_out rfl hk hm)

theorem State.freshInts_snd (s : State) (n : Nat) {μ : Nat} {σ : State} (hk : Keeps μ σ s) (hm : within?
  0x10000000 μ = true) : Keeps μ σ (State.freshInts s n).2 := State.freshInts_out (w := (State.freshInts s
  n).1) (u := (State.freshInts s n).2) rfl hk hm

theorem State.snipFrame_keeps (s : State) (j : Job) (time tq index : Nat) {μ : Nat} {σ : State} (hk : Keeps μ σ s) (hm
    : within? 0x1000000 μ = true) : Keeps μ σ (State.snipFrame s j time tq index) := by
  refine hk.lift hm ?_
  unfold State.snipFrame
  repeat' first
    | (extract_lets +onlyGivenNames u
       first
       | (refine Keeps.cut (u := u) ?_ (fun _ => ?_); subst u; on_goal 2 => clear_value u)
       | (have h := @id (_ → _) u; clear h; subst u)
       | clear_value u)
    | with_reducible assumption
    | (simp (decide := true) (maxDischargeDepth := 200) only [↓Keeps.refl, ↓Keeps.ite, ↓Keeps.mk, or_true, true_or,
      eq_self, *]; done)
    | split

theorem State.storeFrame_keeps (s : State) (j : Job) (index : Nat) (vals : List Int) (time tq flags : Nat) {μ : Nat}
    {σ : State} (hk : Keeps μ σ s) (hm : within?
    0x62C000000000000000000000000000000000000000000000000000000000000040000000000000000000000000000000400000000000000000000000000000000000000000000000000000000000000000000000000000000000000000000000000000000000000000000000000000000000000000000000000000000000000000000000000000000000000000000000000000000000000000000000000000000000000000000000000000000000000000000000000000000000000000000000000000000000000000000000000000000000000000000000000000000000000000000000000000000000000000000000000000000000000000000000000000000000000000000000000000000000000000000000000000000000000000000000000000000000000000000000000000000000000000000000000000000000000000400000000000000000000000000000000000000000002000000000000000010000000000000000000000000000000000000000000000000000000000000000000001002085
    μ = true) : Keeps μ σ (State.storeFrame s j index vals time tq flags) := by
  refine hk.lift hm ?_
  unfold State.storeFrame
  repeat' first
    | (extract_lets +onlyGivenNames u
       first
       | (refine Keeps.cut (u := u) ?_ (fun _ => ?_); subst u; on_goal 2 => clear_value u)
       | (have h := @id (_ → _) u; clear h; subst u)
       | clear_value u)
    | with_reducible assumption
    | (simp (decide := true) (maxDischargeDepth := 200) only [↓Keeps.refl, ↓Keeps.ite, ↓Keeps.mk,
      ↓State.writeBlock_keeps, ↓State.showFree_keeps, ↓State.snipFrame_keeps, ↓State.put32_keeps, or_true, true_or,
      eq_self, *]; done)
    | split

theorem State.inputFrame_keeps (s : State) (j : Job) (words : List Int) (time tq flags : Nat) {μ : Nat} {σ : State}
    (hk : Keeps μ σ s) (hm : within?
    0x7AC000000000000000000000000000000000000000000000000000000000000040000000000000000000000000000000400000000000000000000000000000000000000000000000000000000000000000000000000000000000000000000000000000000000000000000000000000000000000000000000000000000000000000000000000000000000000000000000000000000000000000000000000000000000000000000000000000000000000000000000000000000000000000000000000000000000000000000000000000000000000000000000000000000000000000000000000000000000000000000000000000000000000000000000000000000000000000000000000000000000000000000000000000000000000000000000000000000000000000000000000000000000000000000000000000000000000000400000000000000000000000000000000000000000002000000000000000010000000000000000000000000000000000000000000000000000000000000000000011002085
    μ = true) : Keeps μ σ (State.inputFrame s j words time tq flags) := by
  refine hk.lift hm ?_
  unfold State.inputFrame
  repeat' first
    | (extract_lets +onlyGivenNames u
       first
       | (refine Keeps.cut (u := u) ?_ (fun _ => ?_); subst u; on_goal 2 => clear_value u)
       | (have h := @id (_ → _) u; clear h; subst u)
       | clear_value u)
    | with_reducible assumption
    | (simp (decide := true) (maxDischargeDepth := 200) only [↓Keeps.refl, ↓Keeps.ite, ↓Keeps.mk, ↓State.put32_keeps,
      ↓State.storeFrame_keeps, ↓State.freshInts_snd, or_true, true_or, eq_self, *]; done)
    | (split <;>
        (rename_i e
         refine Keeps.cut (State.freshInts_out (by with_reducible exact e) ?_ (by decide)) (fun _ => ?_) <;> clear e))
    | (with_reducible refine State.put32_keeps _ _ _ ?_ (by decide) (by decide))
    | (with_reducible refine State.storeFrame_keeps _ _ _ _ _ _ _ ?_ (by decide))
    | (with_reducible refine State.freshInts_snd _ _ ?_ (by decide))
    | split

theorem State.skipFrames_keeps (s : State) (n : Nat) {μ : Nat} {σ : State} (hk : Keeps μ σ s) (hm : within? 0x1000000
    μ = true) : Keeps μ σ (State.skipFrames s n) := by
  refine hk.lift hm ?_
  unfold State.skipFrames
  repeat' first
    | (extract_lets +onlyGivenNames u
       first
       | (refine Keeps.cut (u := u) ?_ (fun _ => ?_); subst u; on_goal 2 => clear_value u)
       | (have h := @id (_ → _) u; clear h; subst u)
       | clear_value u)
    | with_reducible assumption
    | (simp (decide := true) (maxDischargeDepth := 200) only [↓Keeps.refl, ↓Keeps.ite, ↓Keeps.mk, or_true, true_or,
      eq_self, *]; done)
    | split

theorem State.setRx_keeps (s : State) (p : AudioPort) (st j idle : Nat) {μ : Nat} {σ : State} (hk : Keeps μ σ s) (hm :
    within?
    0x100000000000000000000000000000002000000000000000000000000000000800000000000000000000000000000008000000000000000000000000000000000000000000000000000000000000000000000000000000000000000000000000000000000000000000000000000000000000000000000000000000000000000000000000000000000000000000000000000000000000000000000000000000000000000000000000000000000000000000000000000000000000000000000000000000000000000000000000000000000000000000000000000000000000000000000000000000000000000000000000000000000000000000000000000000000000000000000000000000000000000000000000000000000000000000000000000000000000000000000000000000000000000000000000000000000000000000000000000000000000000000000000000000000000000000000000000000000000000000000000000000000000000000000000000000000000000000000000000400000
    μ = true) : Keeps μ σ (State.setRx s p st j idle) := by
  refine hk.lift hm ?_
  unfold State.setRx
  cases p
  all_goals
    repeat' first
      | (extract_lets +onlyGivenNames u
         first
         | (refine Keeps.cut (u := u) ?_ (fun _ => ?_); subst u; on_goal 2 => clear_value u)
         | (have h := @id (_ → _) u; clear h; subst u)
         | clear_value u)
      | with_reducible assumption
      | (simp (decide := true) (maxDischargeDepth := 200) only [↓Keeps.refl, ↓Keeps.ite, ↓Keeps.mk, ↓State.put_keeps,
        ↓State.setPort_keeps, or_true, true_or, eq_self, *]; done)
      | split

theorem State.rxEdge_keeps (s : State) (p : AudioPort) (j : Job) (words : List Int) (time tq flags : Nat) {μ : Nat} {σ
    : State} (hk : Keeps μ σ s) (hm : within?
    0x1FAC1000000000000000000000000002000020000000000000000000000000001C1800000000000000000000000000001C18000000000000000000000000000000000000000000000000000000000000000000000000000000000000000000000000000000000000000000000000000000000000000000000000000000000000000000000000000000000000000000000000000000000000000000000000000000000000000000000000000000000000000000000000000000000000000000000000000000000000000000000000000000000000000000000000000000000000000000000000000000000000000000000000000000000000000000000000000000000000000000000000000000000000000000000000000000000000000000000000000000000000000000000000000000000000000000000000000000000000000400000000000000000000000000000000000000000002000000000000000010000000000000000000000000000000000000000000000000000000000000000000011402085
    μ = true) : Keeps μ σ (State.rxEdge s p j words time tq flags) := by
  refine hk.lift hm ?_
  unfold State.rxEdge
  cases p
  all_goals
    repeat' first
      | (extract_lets +onlyGivenNames u
         first
         | (refine Keeps.cut (u := u) ?_ (fun _ => ?_); subst u; on_goal 2 => clear_value u)
         | (have h := @id (_ → _) u; clear h; subst u)
         | clear_value u)
      | with_reducible assumption
      | (simp (decide := true) (maxDischargeDepth := 200) only [↓Keeps.refl, ↓Keeps.ite, ↓Keeps.mk,
        ↓State.inputFrame_keeps, ↓State.portCount_keeps, ↓State.putBit_keeps, ↓State.setRx_keeps,
        ↓State.audioEvent_keeps, ↓State.discont_keeps, ↓State.cutSnippet_keeps, ↓State.writeBlock_keeps,
        ↓State.skipFrames_keeps, or_true, true_or, eq_self, *]; done)
      | split

theorem State.sourceFrame_keeps (s : State) (p : AudioPort) (words : List Int) (time flags : Nat) {μ : Nat} {σ :
    State} (hk : Keeps μ σ s) (hm : within?
    0x1FAC1000000000000000000000000002000020000000000000000000000000001C1800000000000000000000000000001C18000000000000000000000000000000000000000000000000000000000000000000000000000000000000000000000000000000000000000000000000000000000000000000000000000000000000000000000000000000000000000000000000000000000000000000000000000000000000000000000000000000000000000000000000000000000000000000000000000000000000000000000000000000000000000000000000000000000000000000000000000000000000000000000000000000000000000000000000000000000000000000000000000000000000000000000000000000000000000000000000000000000000000000000000000000000000000000000000000000000000000400000000000000000000000000000000000000000002000000000000000010000000000000000000000000000000000000000000000000000000000000000000011402085
    μ = true) : Keeps μ σ (State.sourceFrame s p words time flags) := by
  refine hk.lift hm ?_
  unfold State.sourceFrame
  cases p
  all_goals
    repeat' first
      | (extract_lets +onlyGivenNames u
         first
         | (refine Keeps.cut (u := u) ?_ (fun _ => ?_); subst u; on_goal 2 => clear_value u)
         | (have h := @id (_ → _) u; clear h; subst u)
         | clear_value u)
      | with_reducible assumption
      | (simp (decide := true) (maxDischargeDepth := 200) only [↓Keeps.refl, ↓Keeps.ite, ↓Keeps.mk,
        ↓State.rxEdge_keeps, or_true, true_or, eq_self, *]; done)
      | split

theorem State.closeGap_keeps (s : State) (j : Job) {μ : Nat} {σ : State} (hk : Keeps μ σ s) (hm : within?
    0x182C000000000000000000000000000000000000000000000000000000000000040000000000000000000000000000000400000000000000000000000000000000000000000000000000000000000000000000000000000000000000000000000000000000000000000000000000000000000000000000000000000000000000000000000000000000000000000000000000000000000000000000000000000000000000000000000000000000000000000000000000000000000000000000000000000000000000000000000000000000000000000000000000000000000000000000000000000000000000000000000000000000000000000000000000000000000000000000000000000000000000000000000000000000000000000000000000000000000000000000000000000000000000000000000000000000000000000400000000000000000000000000000000000000000002000000000000000010000000000000000000000000000000000000000000000000000000000000000000001802085
    μ = true) : Keeps μ σ (State.closeGap s j) := by
  refine hk.lift hm ?_
  unfold State.closeGap
  repeat' first
    | (extract_lets +onlyGivenNames u
       first
       | (refine Keeps.cut (u := u) ?_ (fun _ => ?_); subst u; on_goal 2 => clear_value u)
       | (have h := @id (_ → _) u; clear h; subst u)
       | clear_value u)
    | with_reducible assumption
    | (simp (decide := true) (maxDischargeDepth := 200) only [↓Keeps.refl, ↓Keeps.ite, ↓Keeps.mk,
      ↓State.skipFrames_keeps, ↓State.discont_keeps, or_true, true_or, eq_self, *]; done)
    | split

theorem State.bphUnlock_keeps (s : State) {μ : Nat} {σ : State} (hk : Keeps μ σ s) (hm : within?
    0x2C000000000000000000000000000000000000000000000000000000000000040000000000000000000000000000000400000000000000000000000000000000000000000000000000000000000000000000000000000000000000000000000000000000000000000000000000000000000000000000000000000000000000000000000000000000000000000000000000000000000000000000000000000000000000000000000000000000000000000000000000000000000000000000000000000000000000000000000000000000000000000000000000000000000000000000000000000000000000000000000000000000000000000000000000000000000000000000000000000000000000000000000000000000000000000000000000000000000000000000000000000000000000000000000000000000000000000400000000000000000000000000000000000000000002000000000000000010000000000000000000000000000000000000000000000000000000000000000000001802085
    μ = true) : Keeps μ σ (State.bphUnlock s) := by
  refine hk.lift hm ?_
  unfold State.bphUnlock
  repeat' first
    | (extract_lets +onlyGivenNames u
       first
       | (refine Keeps.cut (u := u) ?_ (fun _ => ?_); subst u; on_goal 2 => clear_value u)
       | (have h := @id (_ → _) u; clear h; subst u)
       | clear_value u)
    | with_reducible assumption
    | (simp (decide := true) (maxDischargeDepth := 200) only [↓Keeps.refl, ↓Keeps.ite, ↓Keeps.mk,
      ↓State.cutSnippet_keeps, ↓State.writeBlock_keeps, or_true, true_or, eq_self, *]; done)
    | split

theorem State.captBegin_keeps (s : State) (j : Job) (rest : List Job) {μ : Nat} {σ : State} (hk : Keeps μ σ s) (hm :
    within?
    0x66C100000000000000000000000000000000000000000000000000000000000040000000000000000000000000000000400000000000000000000000000000000000000000000000000000000000000000000000000000000000000000000000000000000000000000000000000000000000000000000000000000000000000000000000000000000000000000000000000000000000000000000000000000000000000000000000000000000000000000000000000000000000000000000000000000000000000000000000000000000000000000000000000000000000000000000000000000000000000000000000000000000000000000000000000000000000000000000000000000000000000000000000000000000000000000000000000000000000000000000000000000000000000000000000000000000000000000410000000000000000000000000000000000000000002000000600000000010000000000000000000000000000000000000000000000000000000000000000000011C0A085
    μ = true) : Keeps μ σ (State.captBegin s j rest) := by
  refine hk.lift hm ?_
  unfold State.captBegin
  repeat' first
    | (extract_lets +onlyGivenNames u
       first
       | (refine Keeps.cut (u := u) ?_ (fun _ => ?_); subst u; on_goal 2 => clear_value u)
       | (have h := @id (_ → _) u; clear h; subst u)
       | clear_value u)
    | with_reducible assumption
    | (simp (decide := true) (maxDischargeDepth := 200) only [↓Keeps.refl, ↓Keeps.ite, ↓Keeps.mk,
      ↓State.incWrap_keeps, ↓State.account_keeps, ↓State.put_keeps, ↓State.putBit_keeps, ↓State.bphUnlock_keeps,
      ↓State.setPort_keeps, ↓State.showFree_keeps, ↓State.setAct_keeps, ↓State.put32_keeps, or_true, true_or, eq_self,
      *]; done)
    | split

theorem State.captEnd_keeps (s : State) (flags : Nat) {μ : Nat} {σ : State} (hk : Keeps μ σ s) (hm : within?
    0x182C100000000000000000000000000000002000000000000000000000000000040800000000000000000000000000000408000000000000000000000000000000000000000000000000000000000000006000000000000000000000000000000000000000000000000000000000000000000000000000000000000000000000000000000000000000000000000000000000000000000000000000000000000000000000000000000000000000000000000000000000000000000000000000000000000000000000000000000000000000000000000000000000000000000000000000000000000000000000000000000000000000000000000000000000000000000000000000000000000000000000000000000000000000000000000000000000000000000000000000000000000000000000000000000000000000000000000410000000000000000000000000000000000000000002000000600000000010000000000000000000000000000000000000000000000000000000000000000000011C0A085
    μ = true) : Keeps μ σ (State.captEnd s flags) := by
  refine hk.lift hm ?_
  unfold State.captEnd
  repeat' first
    | (extract_lets +onlyGivenNames u
       first
       | (refine Keeps.cut (u := u) ?_ (fun _ => ?_); subst u; on_goal 2 => clear_value u)
       | (have h := @id (_ → _) u; clear h; subst u)
       | clear_value u)
    | with_reducible assumption
    | (simp (decide := true) (maxDischargeDepth := 200) only [↓Keeps.refl, ↓Keeps.ite, ↓Keeps.mk,
      ↓State.writeBlock_keeps, ↓State.closeGap_keeps, ↓State.account_keeps, ↓State.captRec_keeps, ↓State.putBit_keeps,
      ↓State.put_keeps, ↓State.setRx_keeps, ↓State.setAct_keeps, ↓State.setTrim_keeps, or_true, true_or, eq_self,
      *]; done)
    | split

theorem State.chanWords_out {bits : Nat} {c : Chan} {s u : State} {w : List Word} (e : s.chanWords bits c = (w, u)) {μ : Nat}
    {σ : State} (hk : Keeps μ σ s) (hm : within? 0x10000000 μ = true) : Keeps μ σ u := by
  have hw : ∀ (v : Option Int) (t : State), Keeps μ σ t →
      Keeps μ σ (match (motive := Option Int → Word × State) v with
        | some i => (BitVec.ofInt 16 i, t)
        | none => t.fresh).2 := by
    intro v t ht
    cases v
    · exact State.fresh_out rfl ht hm
    · exact ht
  obtain ⟨-, rfl⟩ := Prod.mk.inj e
  exact hw _ _ (State.fresh_out rfl (hw _ _ (hw _ _ hk)) hm)

theorem State.chanWords_snd (s : State) (bits : Nat) (c : Chan) {μ : Nat} {σ : State} (hk : Keeps μ σ s) (hm :
  within? 0x10000000 μ = true) : Keeps μ σ (State.chanWords s bits c).2 := State.chanWords_out (w :=
  (State.chanWords s bits c).1) (u := (State.chanWords s bits c).2) rfl hk hm

theorem State.bandWords_out {rate : ℚ} {n : Nat} {s u : State} {w : List Word} (e : s.bandWords rate n = (w, u)) {μ : Nat}
    {σ : State} (hk : Keeps μ σ s) (hm : within? 0x10000000 μ = true) : Keeps μ σ u := by
  induction n generalizing s u w with
  | zero => obtain ⟨-, rfl⟩ := Prod.mk.inj e; exact hk
  | succ n ih =>
    unfold State.bandWords at e
    dsimp only at e
    split at e
    · obtain ⟨-, rfl⟩ := Prod.mk.inj e; exact ih rfl hk
    · obtain ⟨-, rfl⟩ := Prod.mk.inj e; exact State.fresh_out rfl (ih rfl hk) hm

theorem State.bandWords_snd (s : State) (rate : ℚ) (n : Nat) {μ : Nat} {σ : State} (hk : Keeps μ σ s) (hm : within?
  0x10000000 μ = true) : Keeps μ σ (State.bandWords s rate n).2 := State.bandWords_out (w := (State.bandWords
  s rate n).1) (u := (State.bandWords s rate n).2) rfl hk hm

theorem State.statsFrom_keeps (s : State) (p : Past) (ok : Bool) (i : Nat) (l : List Chan) {μ : Nat} {σ : State} (hk : Keeps μ σ s)
    (hm : within? 0x400000000000000000000000000000000000000000002000000000000000010000000000000000000000000000000000000000000000000000000000000000000010002081 μ = true) : Keeps μ σ (s.statsFrom p ok i l) := by
  induction l generalizing s i with
  | nil => exact hk
  | cons c l ih =>
    refine ih _ _ ?_
    refine hk.lift hm ?_
    split
    · split
      rename_i e
      split
      rename_i e'
      refine State.captRec_keeps _ _ _ _ _ _ _ _ _ _ _ ?_ (by decide)
      exact State.chanWords_out e' (State.bandWords_out e .refl (by decide)) (by decide)
    · exact State.captRec_keeps _ _ _ _ _ _ _ _ _ _ _ .refl (by decide)

theorem execStats_keeps (pikaOk : Bool) (s : State) : Ends (Keeps
    0x2000000000000000000000000000000000000000000000000000000000000000000000000000000000000000000000000000000000000000000000000000000000000000000000000000000000000000000000000000000000000000000000000000000000000000000000000000000000000000000000000000000000000000000000000000000000000000000000000000000000000000000000000000000000000000000000000000000000000000000000000000000000000000000000000000000000000000000000000000000000000000000000000000000000000000000000000000000000000000000000000000000000000000000000000000000000000000000000000000000000000000000000000000000000000000000000000000000000000000000000000000000000000000000000000000000000000000000400000000000000000000000000000000000000000002000000000000000010000000000000000000000000000000000000000000000000000000000000000000015002081
    s) (execStats pikaOk s) := by
  unfold execStats
  refine Ends.next ?_
  repeat' first
    | (extract_lets +onlyGivenNames u
       first
       | (refine Keeps.cut (u := u) ?_ (fun _ => ?_); subst u; on_goal 2 => clear_value u)
       | (have h := @id (_ → _) u; clear h; subst u)
       | clear_value u)
    | with_reducible assumption
    | (simp (decide := true) (maxDischargeDepth := 200) only [↓Keeps.next, ↓Keeps.endsIte, ↓Keeps.refl, ↓Keeps.ite,
      ↓Keeps.mk, ↓State.statsFrom_keeps, ↓State.noteFault_keeps, ↓State.inc_keeps, or_true, true_or, eq_self,
      *]; done)
    | split

theorem State.freshWords_out {n : Nat} {s u : State} {w : List Word} (e : s.freshWords n = (w, u)) {μ : Nat} {σ : State}
    (hk : Keeps μ σ s) (hm : within? 0x10000000 μ = true) : Keeps μ σ u := by
  induction n generalizing s u w with
  | zero => obtain ⟨-, rfl⟩ := Prod.mk.inj e; exact hk
  | succ n ih =>
    obtain ⟨-, rfl⟩ := Prod.mk.inj e
    exact ih rfl (State.fresh_out rfl hk hm)

theorem State.freshWords_snd (s : State) (n : Nat) {μ : Nat} {σ : State} (hk : Keeps μ σ s) (hm : within?
  0x10000000 μ = true) : Keeps μ σ (State.freshWords s n).2 := State.freshWords_out (w := (State.freshWords s
  n).1) (u := (State.freshWords s n).2) rfl hk hm

theorem State.snipRecs_keeps (s : State) (j : Job) (trunc : Bool) (left : Nat) (l : List (Nat × Nat × Nat)) {μ : Nat} {σ : State}
    (hk : Keeps μ σ s) (hm : within? 0x400000000000000000000000000000000000000000002000000000000000010000000000000000000000000000000000000000000000000000000000000000000010002081 μ = true) : Keeps μ σ (s.snipRecs j trunc left l) := by
  induction l generalizing s left with
  | nil => exact hk
  | cons c l ih =>
    refine ih _ _ ?_
    refine hk.lift hm ?_
    exact State.captRec_keeps _ _ _ _ _ _ _ _ _ _ _ (State.freshWords_out rfl .refl (by decide)) (by decide)

theorem execSnippet_keeps (s : State) : Ends (Keeps
    0x400000000000000000000000000000000000000000002000000000000000010000000000000000000000000000000000000000000000000000000000000000000011002081
    s) (execSnippet s) := by
  unfold execSnippet
  refine Ends.next ?_
  repeat' first
    | (extract_lets +onlyGivenNames u
       first
       | (refine Keeps.cut (u := u) ?_ (fun _ => ?_); subst u; on_goal 2 => clear_value u)
       | (have h := @id (_ → _) u; clear h; subst u)
       | clear_value u)
    | with_reducible assumption
    | (simp (decide := true) (maxDischargeDepth := 200) only [↓Keeps.next, ↓Keeps.endsIte, ↓Keeps.refl, ↓Keeps.ite,
      ↓Keeps.mk, ↓State.snipRecs_keeps, or_true, true_or, eq_self, *]; done)
    | split

theorem execCaptureBlockWrite_keeps (s : State) : Ends (Keeps
    0x2C000000000000000000000000000000000000000000000000000000000000040000000000000000000000000000000400000000000000000000000000000000000000000000000000000000000000000000000000000000000000000000000000000000000000000000000000000000000000000000000000000000000000000000000000000000000000000000000000000000000000000000000000000000000000000000000000000000000000000000000000000000000000000000000000000000000000000000000000000000000000000000000000000000000000000000000000000000000000000000000000000000000000000000000000000000000000000000000000000000000000000000000000000000000000000000000000000000000000000000000000000000000000000000000000000000000000000400000000000000000000000000000000000000000002000000000000000010000000000000000000000000000000000000000000000000000000000000000000001002085
    s) (execCaptureBlockWrite s) := by
  unfold execCaptureBlockWrite
  refine Ends.next ?_
  repeat' first
    | (extract_lets +onlyGivenNames u
       first
       | (refine Keeps.cut (u := u) ?_ (fun _ => ?_); subst u; on_goal 2 => clear_value u)
       | (have h := @id (_ → _) u; clear h; subst u)
       | clear_value u)
    | with_reducible assumption
    | (simp (decide := true) (maxDischargeDepth := 200) only [↓Keeps.next, ↓Keeps.endsIte, ↓Keeps.refl, ↓Keeps.ite,
      ↓Keeps.mk, ↓State.writeBlock_keeps, or_true, true_or, eq_self, *]; done)
    | split

theorem State.captRel_keeps (s : State) (v : Word) {μ : Nat} {σ : State} (hk : Keeps μ σ s) (hm : within?
    0x28000000000000000000000000000000000000000000000000000000000000040000000000000000000000000000000400000000000000000000000000000000000000000000000000000000000000000000000000000000000000000000000000000000000000000000000000000000000000000000000000000000000000000000000000000000000000000000000000000000000000000000000000000000000000000000000000000000000000000000000000000000000000000000000000000000000000000000000000000000000000000000000000000000000000000000000000000000000000000000000000000000000000000000000000000000000000000000000000000000000000000000000000000000000000000000000000000000000000000000000000000000000000000000000000000000000000000000000000000000000000000000000000000000000000000000000000000000000000000000000000000000000000000000000000000000000000000000000000001000000
    μ = true) : Keeps μ σ (State.captRel s v) := by
  refine hk.lift hm ?_
  unfold State.captRel
  repeat' first
    | (extract_lets +onlyGivenNames u
       first
       | (refine Keeps.cut (u := u) ?_ (fun _ => ?_); subst u; on_goal 2 => clear_value u)
       | (have h := @id (_ → _) u; clear h; subst u)
       | clear_value u)
    | with_reducible assumption
    | (simp (decide := true) (maxDischargeDepth := 200) only [↓Keeps.refl, ↓Keeps.ite, ↓Keeps.mk,
      ↓State.showFree_keeps, ↓State.showRptr_keeps, or_true, true_or, eq_self, *]; done)
    | split

theorem execCaptureStart_keeps (s : State) : Ends (Keeps
    0x66C100000000000000000000000000000000000000000000000000000000000040000000000000000000000000000000400000000000000000000000000000000000000000000000000000000000000000000000000000000000000000000000000000000000000000000000000000000000000000000000000000000000000000000000000000000000000000000000000000000000000000000000000000000000000000000000000000000000000000000000000000000000000000000000000000000000000000000000000000000000000000000000000000000000000000000000000000000000000000000000000000000000000000000000000000000000000000000000000000000000000000000000000000000000000000000000000000000000000000000000000000000000000000000000000000000000000000410000000000000000000000000000000000000000002000000600000000010000000000000000000000000000000000000000000000000000000000000000000011C0A085
    s) (execCaptureStart s) := by
  unfold execCaptureStart
  refine Ends.next ?_
  repeat' first
    | (extract_lets +onlyGivenNames u
       first
       | (refine Keeps.cut (u := u) ?_ (fun _ => ?_); subst u; on_goal 2 => clear_value u)
       | (have h := @id (_ → _) u; clear h; subst u)
       | clear_value u)
    | with_reducible assumption
    | (simp (decide := true) (maxDischargeDepth := 200) only [↓Keeps.next, ↓Keeps.endsIte, ↓Keeps.refl, ↓Keeps.ite,
      ↓Keeps.mk, ↓State.captBegin_keeps, or_true, true_or, eq_self, *]; done)
    | split

theorem execCaptureEnd_keeps (s : State) : Ends (Keeps
    0x182C100000000000000000000000000000002000000000000000000000000000040800000000000000000000000000000408000000000000000000000000000000000000000000000000000000000000006000000000000000000000000000000000000000000000000000000000000000000000000000000000000000000000000000000000000000000000000000000000000000000000000000000000000000000000000000000000000000000000000000000000000000000000000000000000000000000000000000000000000000000000000000000000000000000000000000000000000000000000000000000000000000000000000000000000000000000000000000000000000000000000000000000000000000000000000000000000000000000000000000000000000000000000000000000000000000000000000410000000000000000000000000000000000000000002000000600000000010000000000000000000000000000000000000000000000000000000000000000000011C0A085
    s) (execCaptureEnd s) := by
  unfold execCaptureEnd
  refine Ends.next ?_
  repeat' first
    | (extract_lets +onlyGivenNames u
       first
       | (refine Keeps.cut (u := u) ?_ (fun _ => ?_); subst u; on_goal 2 => clear_value u)
       | (have h := @id (_ → _) u; clear h; subst u)
       | clear_value u)
    | with_reducible assumption
    | (simp (decide := true) (maxDischargeDepth := 200) only [↓Keeps.next, ↓Keeps.endsIte, ↓Keeps.refl, ↓Keeps.ite,
      ↓Keeps.mk, ↓State.captEnd_keeps, or_true, true_or, eq_self, *]; done)
    | split

end Sys2Proof.Machine
end

