-- ==== Sys2Proof/Laws/KeepsAudio.lean ====
section
/-! SUPPORT. What each operation of Machine/Audio.lean may change, and that it keeps the canonical form. -/

set_option Elab.async false

set_option linter.unusedSimpArgs false
set_option linter.unusedTactic false
set_option linter.unreachableTactic false

namespace Sys2Proof.Machine

open R

theorem State.tryArm_keeps (s : State) (f : Fn) (p : AudioPort) {μ : Nat} {σ : State} (hk : Keeps μ σ s) (hm : within?
    0x1000000000000000000000000000000010000000000000000000000000000000100000000000000000000000000000000000000000000000000000000000000000000000000000000000000000000000000000000000000000000000000000000000000000000000000000000000000000000000000000000000000000000000000000000000000000000000000000000000000000000000000000000000000000000000000000000000000000000000000000000000000000000000000000000000000000000000000000000000000000000000000000000000000000000000000000000000000000000000000000000000000000000000000000000000000000000000000000000000000000000000000000000000000000000000000000000000000000000000000000000000000000000000000000000000000000000000000000000000000000000000000000020000000000000000000000000000000000000000000000000000000000000000000400000
    μ = true) : Keeps μ σ (State.tryArm s f p) := by
  refine hk.lift hm ?_
  unfold State.tryArm
  cases p
  all_goals
    repeat' first
      | (extract_lets +onlyGivenNames u
         first
         | (refine Keeps.cut (u := u) ?_ (fun _ => ?_); subst u; on_goal 2 => clear_value u)
         | (have h := @id (_ → _) u; clear h; subst u)
         | clear_value u)
      | with_reducible assumption
      | (simp (decide := true) (maxDischargeDepth := 200) only [↓Keeps.refl, ↓Keeps.ite, ↓Keeps.mk, ↓State.put_keeps,
        ↓State.setPort_keeps, ↓State.setErr_keeps, or_true, true_or, eq_self, *]; done)
      | split

theorem State.ctlWrite_keeps (s : State) (f : Fn) (p : AudioPort) (v : Word) {μ : Nat} {σ : State} (hk : Keeps μ σ s)
    (hm : within?
    0x2C000000000000000000000000000000003000000000000000000000000000040010000000000000000000000000000400100000000000000000000000000000000000000000000000000000000000000000000000000000000000000000000000000000000000000000000000000000000000000000000000000000000000000000000000000000000000000000000000000000000000000000000000000000000000000000000000000000000000000000000000000000000000000000000000000000000000000000000000000000000000000000000000000000000000000000000000000000000000000000000000000000000000000000000000000000000000000000000000000000000000000000000000000000000000000000000000000000000000000000000000000000000000000000000000000000000000000400000000000000000000000000000000000000000002000000000000000010020000000000000000000000000000000000000000000000000000000000000000001C02085
    μ = true) : Keeps μ σ (State.ctlWrite s f p v) := by
  refine hk.lift hm ?_
  unfold State.ctlWrite
  cases p
  all_goals
    repeat' first
      | (extract_lets +onlyGivenNames u
         first
         | (refine Keeps.cut (u := u) ?_ (fun _ => ?_); subst u; on_goal 2 => clear_value u)
         | (have h := @id (_ → _) u; clear h; subst u)
         | clear_value u)
      | with_reducible assumption
      | (simp (decide := true) (maxDischargeDepth := 200) only [↓Keeps.refl, ↓Keeps.ite, ↓Keeps.mk, ↓State.put_keeps,
        ↓State.bphUnlock_keeps, ↓State.tryArm_keeps, ↓State.setErr_keeps, or_true, true_or, eq_self, *]; done)
      | split

theorem State.showRun_keeps (s : State) (p : AudioPort) (b : Bool) {μ : Nat} {σ : State} (hk : Keeps μ σ s) (hm :
    within?
    0x2000000000000000000000000000000800000000000000000000000000000008000000000000000000000000000000000000000000000000000000000000000000000000000000000000000000000000000000000000000000000000000000000000000000000000000000000000000000000000000000000000000000000000000000000000000000000000000000000000000000000000000000000000000000000000000000000000000000000000000000000000000000000000000000000000000000000000000000000000000000000000000000000000000000000000000000000000000000000000000000000000000000000000000000000000000000000000000000000000000000000000000000000000000000000000000000000000000000000000000000000000000000000000000000000000000000000000000000000000000000000000000000000000000000000000000000000000000000000000000000000000000000000000000000000
    μ = true) : Keeps μ σ (State.showRun s p b) := by
  refine hk.lift hm ?_
  unfold State.showRun
  cases p
  all_goals
    repeat' first
      | (extract_lets +onlyGivenNames u
         first
         | (refine Keeps.cut (u := u) ?_ (fun _ => ?_); subst u; on_goal 2 => clear_value u)
         | (have h := @id (_ → _) u; clear h; subst u)
         | clear_value u)
      | with_reducible assumption
      | (simp (decide := true) (maxDischargeDepth := 200) only [↓Keeps.refl, ↓Keeps.ite, ↓Keeps.mk,
        ↓State.putBit_keeps, or_true, true_or, eq_self, *]; done)
      | split

theorem State.stopPort_keeps (s : State) (p : AudioPort) (cause : Nat) {μ : Nat} {σ : State} (hk : Keeps μ σ s) (hm :
    within?
    0x2000000000000000000000000000000800000000000000000000000000000008000000000000000000000000000000000000000000000000000000000000000000000000000000000000000000000000000000000000000000000000000000000000000000000000000000000000000000000000000000000000000000000000000000000000000000000000000000000000000000000000000000000000000000000000000000000000000000000000000000000000000000000000000000000000000000000000000000000000000000000000000000000000000000000000000000000000000000000000000000000000000000000000000000000000000000000000000000000000000000000000000000000000000000000000000000000000000000000000000000000000000400000000000000000000000000000000000000000002000000000000000010000000000000000000000000000000000000000000000000000000000000000000000402081
    μ = true) : Keeps μ σ (State.stopPort s p cause) := by
  refine hk.lift hm ?_
  unfold State.stopPort
  cases p
  all_goals
    repeat' first
      | (extract_lets +onlyGivenNames u
         first
         | (refine Keeps.cut (u := u) ?_ (fun _ => ?_); subst u; on_goal 2 => clear_value u)
         | (have h := @id (_ → _) u; clear h; subst u)
         | clear_value u)
      | with_reducible assumption
      | (simp (decide := true) (maxDischargeDepth := 200) only [↓Keeps.refl, ↓Keeps.ite, ↓Keeps.mk,
        ↓State.audioEvent_keeps, ↓State.setPort_keeps, ↓State.showRun_keeps, or_true, true_or, eq_self, *]; done)
      | split

theorem execApPortStart_keeps (port : AudioPort) (s : State) : Ends (Keeps
    0x200000000000000000000000000001E8000000000000000000000000000001E8000000000000000000000000000000000000000000000000000000000000000000000000000000000000000000000000000000000000000000000000000000000000000000000000000000000000000000000000000000000000000000000000000000000000000000000000000000000000000000000000000000000000000000000000000000000000000000000000000000000000000000000000000000000000000000000000000000000000000000000000000000000000000000000000000000000000000000000000000000000000000000000000000000000000000000000000000000000000000000000000000000000000000000000000000000000000000000000000000000000000000400000000000000000000000000000000000000000002000000000000000010000000000000000000000000000000000000000000000000000000000000000000000C02081
    s) (execApPortStart port s) := by
  unfold execApPortStart
  refine Ends.next ?_
  cases port
  all_goals
    repeat' first
      | (extract_lets +onlyGivenNames u
         first
         | (refine Keeps.cut (u := u) ?_ (fun _ => ?_); subst u; on_goal 2 => clear_value u)
         | (have h := @id (_ → _) u; clear h; subst u)
         | clear_value u)
      | with_reducible assumption
      | (simp (decide := true) (maxDischargeDepth := 200) only [↓Keeps.next, ↓Keeps.endsIte, ↓Keeps.refl, ↓Keeps.ite,
        ↓Keeps.mk, ↓State.setPort_keeps, ↓State.put_keeps, ↓State.showRun_keeps, ↓State.put32_keeps,
        ↓State.audioEvent_keeps, or_true, true_or, eq_self, *]; done)
      | split

theorem execApPortStop_keeps (port : AudioPort) (s : State) : Ends (Keeps
    0x2000000000000000000000000000000800000000000000000000000000000008000000000000000000000000000000000000000000000000000000000000000000000000000000000000000000000000000000000000000000000000000000000000000000000000000000000000000000000000000000000000000000000000000000000000000000000000000000000000000000000000000000000000000000000000000000000000000000000000000000000000000000000000000000000000000000000000000000000000000000000000000000000000000000000000000000000000000000000000000000000000000000000000000000000000000000000000000000000000000000000000000000000000000000000000000000000000000000000000000000000000000400000000000000000000000000000000000000000002000000000000000010000000000000000000000000000000000000000000000000000000000000000000000402081
    s) (execApPortStop port s) := by
  unfold execApPortStop
  refine Ends.next ?_
  cases port
  all_goals
    repeat' first
      | (extract_lets +onlyGivenNames u
         first
         | (refine Keeps.cut (u := u) ?_ (fun _ => ?_); subst u; on_goal 2 => clear_value u)
         | (have h := @id (_ → _) u; clear h; subst u)
         | clear_value u)
      | with_reducible assumption
      | (simp (decide := true) (maxDischargeDepth := 200) only [↓Keeps.next, ↓Keeps.endsIte, ↓Keeps.refl, ↓Keeps.ite,
        ↓Keeps.mk, ↓State.stopPort_keeps, or_true, true_or, eq_self, *]; done)
      | split

theorem State.sendFrame_keeps (s : State) (p : AudioPort) (num den : Nat) {μ : Nat} {σ : State} (hk : Keeps μ σ s) (hm
    : within?
    0x40000000000000000000000000000000400000000000000000000000000000004000000000000000000000000000000000000000000000000000000000000000000000000000000000000000000000000000000000000000000000000000000000000000000000000000000000000000000000000000000000000000000000000000000000000000000000000000000000000000000000000000000000000000000000000000000000000000000000000000000000000000000000000000000000000000000000000000000000000000000000000000000000000000000000000000000000000000000000000000000000000000000000000000000000000000000000000000000000000000000000000000000000000000000000000000000000000000000000000000000000000000000000000000000000000000000000000000000000000000000000000000000000000000000000000000000000000000000000000000000000000000000000000000000400000
    μ = true) : Keeps μ σ (State.sendFrame s p num den) := by
  refine hk.lift hm ?_
  unfold State.sendFrame
  cases p
  all_goals
    repeat' first
      | (extract_lets +onlyGivenNames u
         first
         | (refine Keeps.cut (u := u) ?_ (fun _ => ?_); subst u; on_goal 2 => clear_value u)
         | (have h := @id (_ → _) u; clear h; subst u)
         | clear_value u)
      | with_reducible assumption
      | (simp (decide := true) (maxDischargeDepth := 200) only [↓Keeps.refl, ↓Keeps.ite, ↓Keeps.mk, ↓State.put_keeps,
        ↓State.setPort_keeps, or_true, true_or, eq_self, *]; done)
      | split

theorem State.setTx_keeps (s : State) (p : AudioPort) (st j idle : Nat) {μ : Nat} {σ : State} (hk : Keeps μ σ s) (hm :
    within?
    0x2000000000000000000000000000000800000000000000000000000000000008000000000000000000000000000000000000000000000000000000000000000000000000000000000000000000000000000000000000000000000000000000000000000000000000000000000000000000000000000000000000000000000000000000000000000000000000000000000000000000000000000000000000000000000000000000000000000000000000000000000000000000000000000000000000000000000000000000000000000000000000000000000000000000000000000000000000000000000000000000000000000000000000000000000000000000000000000000000000000000000000000000000000000000000000000000000000000000000000000000000000000000000000000000000000000000000000000000000000000000000000000000000000000000000000000000000000000000000000000000000000000000000000000400000
    μ = true) : Keeps μ σ (State.setTx s p st j idle) := by
  refine hk.lift hm ?_
  unfold State.setTx
  cases p
  all_goals
    repeat' first
      | (extract_lets +onlyGivenNames u
         first
         | (refine Keeps.cut (u := u) ?_ (fun _ => ?_); subst u; on_goal 2 => clear_value u)
         | (have h := @id (_ → _) u; clear h; subst u)
         | clear_value u)
      | with_reducible assumption
      | (simp (decide := true) (maxDischargeDepth := 200) only [↓Keeps.refl, ↓Keeps.ite, ↓Keeps.mk, ↓State.put_keeps,
        ↓State.setPort_keeps, or_true, true_or, eq_self, *]; done)
      | split

theorem State.txEdge_keeps (s : State) (p : AudioPort) {μ : Nat} {σ : State} (hk : Keeps μ σ s) (hm : within?
    0x240002000000000000000000000000000581800000000000000000000000000005818000000000000000000000000000000000000000000000000000000000000000000000000000000000000000000000000000000000000000000000000000000000000000000000000000000000000000000000000000000000000000000000000000000000000000000000000000000000000000000000000000000000000000000000000000000000000000000000000000000000000000000000000000000000000000000000000000000000000000000000000000000000000000000000000000000000000000000000000000000000000000000000000000000000000000000000000000000000000000000000000000000000000000000000000000000000000000000000000000000000000000400000000000000000000000000000000000000000002000000000000000010000000000000000000000000000000000000000000000000000000000000000000000402081
    μ = true) : Keeps μ σ (State.txEdge s p) := by
  refine hk.lift hm ?_
  unfold State.txEdge
  cases p
  all_goals
    repeat' first
      | (extract_lets +onlyGivenNames u
         first
         | (refine Keeps.cut (u := u) ?_ (fun _ => ?_); subst u; on_goal 2 => clear_value u)
         | (have h := @id (_ → _) u; clear h; subst u)
         | clear_value u)
      | with_reducible assumption
      | (simp (decide := true) (maxDischargeDepth := 200) only [↓Keeps.refl, ↓Keeps.ite, ↓Keeps.mk,
        ↓State.portCount_keeps, ↓State.putBit_keeps, ↓State.setTx_keeps, ↓State.sendFrame_keeps,
        ↓State.audioEvent_keeps, ↓State.setPort_keeps, or_true, true_or, eq_self, *]; done)
      | split

theorem execApTxFrameEdge_keeps (port : AudioPort) (s : State) : Ends (Keeps
    0x2C00020000000000000000000000000005A7800000000000000000000000000005A78000000000000000000000000000000000000000000000000000000000000000000000000000000000000000000000000000000000000000000000000000000000000000000000000000000000000000000000000000000000000000000000000000000000000000000000000000000000000000000000000000000000000000000000000000000000000000000000000000000000000000000000000000000000000000000000000000000000000000000000000000000000000000000000000000000000000000000000000000000000000000000000000000000000000000000000000000000000000000000000000000000000000000000000000000000000000000000000000000000000000000400000000000000000000000000000000000000000002000000000000000010000000000000000000000000000000000000000000000000000000000000000000000402081
    s) (execApTxFrameEdge port s) := by
  unfold execApTxFrameEdge
  refine Ends.next ?_
  cases port
  all_goals
    repeat' first
      | (extract_lets +onlyGivenNames u
         first
         | (refine Keeps.cut (u := u) ?_ (fun _ => ?_); subst u; on_goal 2 => clear_value u)
         | (have h := @id (_ → _) u; clear h; subst u)
         | clear_value u)
      | with_reducible assumption
      | (simp (decide := true) (maxDischargeDepth := 200) only [↓Keeps.next, ↓Keeps.endsIte, ↓Keeps.refl, ↓Keeps.ite,
        ↓Keeps.mk, ↓State.showLevels_keeps, ↓State.fcntUp_keeps, ↓State.txEdge_keeps, or_true, true_or, eq_self,
        *]; done)
      | split

theorem execApRxFrameEdge_keeps (port : AudioPort) (slots : List Int) (s : State) : Ends (Keeps
    0x1FAC1000000000000000000000000002000020000000000000000000000000001C7800000000000000000000000000001C78000000000000000000000000000000000000000000000000000000000000000000000000000000000000000000000000000000000000000000000000000000000000000000000000000000000000000000000000000000000000000000000000000000000000000000000000000000000000000000000000000000000000000000000000000000000000000000000000000000000000000000000000000000000000000000000000000000000000000000000000000000000000000000000000000000000000000000000000000000000000000000000000000000000000000000000000000000000000000000000000000000000000000000000000000000000000000000000000000000000000000400000000000000000000000000000000000000000002000000000000000010000000000000000000000000000000000000000000000000000000000000000000011402085
    s) (execApRxFrameEdge port slots s) := by
  unfold execApRxFrameEdge
  refine Ends.next ?_
  cases port
  all_goals
    repeat' first
      | (extract_lets +onlyGivenNames u
         first
         | (refine Keeps.cut (u := u) ?_ (fun _ => ?_); subst u; on_goal 2 => clear_value u)
         | (have h := @id (_ → _) u; clear h; subst u)
         | clear_value u)
      | with_reducible assumption
      | (simp (decide := true) (maxDischargeDepth := 200) only [↓Keeps.next, ↓Keeps.endsIte, ↓Keeps.refl, ↓Keeps.ite,
        ↓Keeps.mk, ↓State.sourceFrame_keeps, ↓State.fcntUp_keeps, or_true, true_or, eq_self, *]; done)
      | split

theorem execApHardLoss_keeps (port : AudioPort) (receive : Bool) (samples : Nat) (s : State) : Ends (Keeps
    0x182C100000000000000000000000000200002000000000000000000000000000241800000000000000000000000000002418000000000000000000000000000000000000000000000000000000000000000000000000000000000000000000000000000000000000000000000000000000000000000000000000000000000000000000000000000000000000000000000000000000000000000000000000000000000000000000000000000000000000000000000000000000000000000000000000000000000000000000000000000000000000000000000000000000000000000000000000000000000000000000000000000000000000000000000000000000000000000000000000000000000000000000000000000000000000000000000000000000000000000000000000000000000000000000000000000000000000000400000000000000000000000000000000000000000002000000000000000010000000000000000000000000000000000000000000000000000000000000000000001402085
    s) (execApHardLoss port receive samples s) := by
  unfold execApHardLoss
  refine Ends.next ?_
  cases port
  all_goals
    repeat' first
      | (extract_lets +onlyGivenNames u
         first
         | (refine Keeps.cut (u := u) ?_ (fun _ => ?_); subst u; on_goal 2 => clear_value u)
         | (have h := @id (_ → _) u; clear h; subst u)
         | clear_value u)
      | with_reducible assumption
      | (simp (decide := true) (maxDischargeDepth := 200) only [↓Keeps.next, ↓Keeps.endsIte, ↓Keeps.refl, ↓Keeps.ite,
        ↓Keeps.mk, ↓State.portCount_keeps, ↓State.putBit_keeps, ↓State.audioEvent_keeps, ↓State.skipFrames_keeps,
        ↓State.discont_keeps, ↓State.setRx_keeps, ↓State.setTx_keeps, or_true, true_or, eq_self, *]; done)
      | split

theorem State.wptrWrite_keeps (s : State) (f : Fn) (p : AudioPort) (v : Word) {μ : Nat} {σ : State} (hk : Keeps μ σ s)
    (hm : within?
    0xA0000000000000000000000000000000820000000000000000000000000000008200000000000000000000000000000000000000000000000000000000000000000000000000000000000000000000000000000000000000000000000000000000000000000000000000000000000000000000000000000000000000000000000000000000000000000000000000000000000000000000000000000000000000000000000000000000000000000000000000000000000000000000000000000000000000000000000000000000000000000000000000000000000000000000000000000000000000000000000000000000000000000000000000000000000000000000000000000000000000000000000000000000000000000000000000000000000000000000000000000000000000000000000000000000000000000000000000000000000000000000000000000000020000000000000000000000000000000000000000000000000000000000000000000000000
    μ = true) : Keeps μ σ (State.wptrWrite s f p v) := by
  refine hk.lift hm ?_
  unfold State.wptrWrite
  cases p
  all_goals
    repeat' first
      | (extract_lets +onlyGivenNames u
         first
         | (refine Keeps.cut (u := u) ?_ (fun _ => ?_); subst u; on_goal 2 => clear_value u)
         | (have h := @id (_ → _) u; clear h; subst u)
         | clear_value u)
      | with_reducible assumption
      | (simp (decide := true) (maxDischargeDepth := 200) only [↓Keeps.refl, ↓Keeps.ite, ↓Keeps.mk,
        ↓State.setErr_keeps, ↓State.showLevels_keeps, ↓State.put_keeps, or_true, true_or, eq_self, *]; done)
      | split

theorem State.ringRst_keeps (s : State) (f : Fn) (p : AudioPort) {μ : Nat} {σ : State} (hk : Keeps μ σ s) (hm :
    within?
    0xE000000000000000000000000000000042000000000000000000000000000000C200000000000000000000000000000000000000000000000000000000000000000000000000000000000000000000000000000000000000000000000000000000000000000000000000000000000000000000000000000000000000000000000000000000000000000000000000000000000000000000000000000000000000000000000000000000000000000000000000000000000000000000000000000000000000000000000000000000000000000000000000000000000000000000000000000000000000000000000000000000000000000000000000000000000000000000000000000000000000000000000000000000000000000000000000000000000000000000000000000000000000000000000000000000000000000000000000000000000000000000000000000000020000000000000000000000000000000000000000000000000000000000000000000000000
    μ = true) : Keeps μ σ (State.ringRst s f p) := by
  refine hk.lift hm ?_
  unfold State.ringRst
  cases p
  all_goals
    repeat' first
      | (extract_lets +onlyGivenNames u
         first
         | (refine Keeps.cut (u := u) ?_ (fun _ => ?_); subst u; on_goal 2 => clear_value u)
         | (have h := @id (_ → _) u; clear h; subst u)
         | clear_value u)
      | with_reducible assumption
      | (simp (decide := true) (maxDischargeDepth := 200) only [↓Keeps.refl, ↓Keeps.ite, ↓Keeps.mk,
        ↓State.setErr_keeps, ↓State.showLevels_keeps, ↓State.put_keeps, or_true, true_or, eq_self, *]; done)
      | split

theorem execBphLock_keeps (apart : Nat) (violation : Bool) (s : State) : Ends (Keeps
    0x182C000000000000000000000000000000002000000000000000000000000000040000000000000000000000000000000400000000000000000000000000000000000000000000000000000000000000000000000000000000000000000000000000000000000000000000000000000000000000000000000000000000000000000000000000000000000000000000000000000000000000000000000000000000000000000000000000000000000000000000000000000000000000000000000000000000000000000000000000000000000000000000000000000000000000000000000000000000000000000000000000000000000000000000000000000000000000000000000000000000000000000000000000000000000000000000000000000000000000000000000000000000000000000000000000000000000000000400000000000000000000000000000000000000000002000000000000000010000000000000000000000000000000000000000000000000000000000000000000001802085
    s) (execBphLock apart violation s) := by
  unfold execBphLock
  refine Ends.next ?_
  repeat' first
    | (extract_lets +onlyGivenNames u
       first
       | (refine Keeps.cut (u := u) ?_ (fun _ => ?_); subst u; on_goal 2 => clear_value u)
       | (have h := @id (_ → _) u; clear h; subst u)
       | clear_value u)
    | with_reducible assumption
    | (simp (decide := true) (maxDischargeDepth := 200) only [↓Keeps.next, ↓Keeps.endsIte, ↓Keeps.refl, ↓Keeps.ite,
      ↓Keeps.mk, ↓State.closeGap_keeps, ↓State.put_keeps, or_true, true_or, eq_self, *]; done)
    | split

theorem execBphLockLost_keeps (missing violated : Nat) (s : State) : Ends (Keeps
    0x2C000000000000000000000000001200002000000000000000000000000000040000000000000000000000000000000400000000000000000000000000000000000000000000000000000000000000000000000000000000000000000000000000000000000000000000000000000000000000000000000000000000000000000000000000000000000000000000000000000000000000000000000000000000000000000000000000000000000000000000000000000000000000000000000000000000000000000000000000000000000000000000000000000000000000000000000000000000000000000000000000000000000000000000000000000000000000000000000000000000000000000000000000000000000000000000000000000000000000000000000000000000000000000000000000000000000000000400000000000000000000000000000000000000000002000000000000000010000000000000000000000000000000000000000000000000000000000000000000001802085
    s) (execBphLockLost missing violated s) := by
  unfold execBphLockLost
  refine Ends.next ?_
  repeat' first
    | (extract_lets +onlyGivenNames u
       first
       | (refine Keeps.cut (u := u) ?_ (fun _ => ?_); subst u; on_goal 2 => clear_value u)
       | (have h := @id (_ → _) u; clear h; subst u)
       | clear_value u)
    | with_reducible assumption
    | (simp (decide := true) (maxDischargeDepth := 200) only [↓Keeps.next, ↓Keeps.endsIte, ↓Keeps.refl, ↓Keeps.ite,
      ↓Keeps.mk, ↓State.put_keeps, ↓State.inc_keeps, ↓State.raiseIn_keeps, ↓State.bphUnlock_keeps, or_true, true_or,
      eq_self, *]; done)
    | split

theorem execBphSubframe_keeps (pre : Preamble) (word : BitVec 24) (valid user status parityOk : Bool) (s : State) :
    Ends (Keeps
    0x1FAC100000000000000000000000000E000020000000000000000000000000001C1800000000000000000000000000001C18000000000000000000000000000000000000000000000000000000000000000000000000000000000000000000000000000000000000000000000000000000000000000000000000000000000000000000000000000000000000000000000000000000000000000000000000000000000000000000000000000000000000000000000000000000000000000000000000000000000000000000000000000000000000000000000000000000000000000000000000000000000000000000000000000000000000000000000000000000000000000000000000000000000000000000000000000000000000000000000000000000000000000000000000000000000000000000000000000000000000000400000000000000000000000000000000000000000002000000000000000010000000000000000000000000000000000000000000000000000000000000000000011C02085
    s) (execBphSubframe pre word valid user status parityOk s) := by
  unfold execBphSubframe
  refine Ends.next ?_
  repeat' first
    | (extract_lets +onlyGivenNames u
       first
       | (refine Keeps.cut (u := u) ?_ (fun _ => ?_); subst u; on_goal 2 => clear_value u)
       | (have h := @id (_ → _) u; clear h; subst u)
       | clear_value u)
    | with_reducible assumption
    | (simp (decide := true) (maxDischargeDepth := 200) only [↓Keeps.next, ↓Keeps.endsIte, ↓Keeps.refl, ↓Keeps.ite,
      ↓Keeps.mk, ↓State.inc_keeps, ↓State.sourceFrame_keeps, or_true, true_or, eq_self, *]; done)
    | split

theorem State.markOld_keeps (s : State) (time : Nat) {μ : Nat} {σ : State} (hk : Keeps μ σ s) (hm : within? 0x4 μ =
    true) : Keeps μ σ (State.markOld s time) := by
  refine hk.lift hm ?_
  unfold State.markOld
  repeat' first
    | (extract_lets +onlyGivenNames u
       first
       | (refine Keeps.cut (u := u) ?_ (fun _ => ?_); subst u; on_goal 2 => clear_value u)
       | (have h := @id (_ → _) u; clear h; subst u)
       | clear_value u)
    | with_reducible assumption
    | (simp (decide := true) (maxDischargeDepth := 200) only [↓Keeps.refl, ↓Keeps.ite, ↓Keeps.mk,
      ↓State.setByte_keeps, or_true, true_or, eq_self, *]; done)
    | split

theorem State.markUmsg_keeps (s : State) (time : Nat) {μ : Nat} {σ : State} (hk : Keeps μ σ s) (hm : within? 0x1000004
    μ = true) : Keeps μ σ (State.markUmsg s time) := by
  refine hk.lift hm ?_
  unfold State.markUmsg
  repeat' first
    | (extract_lets +onlyGivenNames u
       first
       | (refine Keeps.cut (u := u) ?_ (fun _ => ?_); subst u; on_goal 2 => clear_value u)
       | (have h := @id (_ → _) u; clear h; subst u)
       | clear_value u)
    | with_reducible assumption
    | (simp (decide := true) (maxDischargeDepth := 200) only [↓Keeps.refl, ↓Keeps.ite, ↓Keeps.mk,
      ↓State.markOld_keeps, or_true, true_or, eq_self, *]; done)
    | split

theorem State.putWords_keeps (s : State) (key : Nat) (l : List Nat) {μ : Nat} {σ : State} (hk : Keeps μ σ s)
    (hx : ∀ i < l.length, regIn μ (key + i) = true) : Keeps μ σ (s.putWords key l) := by
  induction l generalizing s key with
  | nil => exact hk
  | cons v l ih =>
    refine ih _ _ (State.put_keeps _ _ _ hk (hx 0 (Nat.succ_pos _))) (fun i hi => ?_)
    have := hx (i + 1) (by rw [List.length_cons]; omega)
    rwa [show key + 1 + i = key + (i + 1) by omega]

theorem State.umsgCheck_keeps (s : State) {μ : Nat} {σ : State} (hk : Keeps μ σ s) (hm : within?
    0x3FFF00000002000000000000000000000000000000000000000000000000000000000000000000000000000000000000000000000000000000000000000000000000000000000000000000000000000000000000000000000000000000000000000000000000000000000000000000000000000000000000000000000000000000000000000000000000000000000000000000000000000000000000000000000000000000000000000000000000000000000000000000000000000000000000000000000000000000000000000000000000000000000000000000000000000000000000000000000000000000000000000000000000000000000000000000000000000000000000000000000000000000000000000000000000000000000000000000000000000000000000000000000000000000000000000000000000000000000000000000000000000000000000000000000000000000000000000000000000000000000000000000000000000000000000000001000004
    μ = true) : Keeps μ σ (State.umsgCheck s) := by
  refine hk.lift hm ?_
  unfold State.umsgCheck
  repeat' first
    | (extract_lets +onlyGivenNames u
       first
       | (refine Keeps.cut (u := u) ?_ (fun _ => ?_); subst u; on_goal 2 => clear_value u)
       | (have h := @id (_ → _) u; clear h; subst u)
       | clear_value u)
    | with_reducible assumption
    | (simp (decide := true) (maxDischargeDepth := 200) only [↓Keeps.refl, ↓Keeps.ite, ↓Keeps.mk,
      ↓State.putWords_keeps, ↓State.put_keeps, ↓State.put32_keeps, ↓State.markUmsg_keeps, List.length_cons,
      List.length_map, List.length_nil, List.length_range, or_true, true_or, eq_self, *]; done)
    | split

theorem execBphBlockEnd_keeps (s : State) : Ends (Keeps
    0x3FFF000001C2000000000000000000000000000000000000000000000000000000000000000000000000000000000000000000000000000000000000000000000000000000000000000000000000000000000000000000000000000000000000000000000000000000000000000000000000000000000000000000000000000000000000000000000000000000000000000000000000000000000000000000000000000000000000000000000000000000000000000000000000000000000000000000000000000000000000000000000000000000000000000000000000000000000000000000000000000000000000000000000000000000000000000000000000000000000000000000000000000000000000000000000000000000000000000000000000000000000000000000000000000000000000000000000000000000000000000000000000000000000000000000000000000000000000000000000000000000000000000000000000000000000000000001800004
    s) (execBphBlockEnd s) := by
  unfold execBphBlockEnd
  refine Ends.next ?_
  repeat' first
    | (extract_lets +onlyGivenNames u
       first
       | (refine Keeps.cut (u := u) ?_ (fun _ => ?_); subst u; on_goal 2 => clear_value u)
       | (have h := @id (_ → _) u; clear h; subst u)
       | clear_value u)
    | with_reducible assumption
    | (simp (decide := true) (maxDischargeDepth := 200) only [↓Keeps.next, ↓Keeps.endsIte, ↓Keeps.refl, ↓Keeps.ite,
      ↓Keeps.mk, ↓State.putWords_keeps, ↓State.put_keeps, ↓State.putBit_keeps, ↓State.umsgCheck_keeps,
      List.length_cons, List.length_map, List.length_nil, List.length_range, or_true, true_or, eq_self, *]; done)
    | split

theorem execBphRateMeasure_keeps (mHz : Nat) (s : State) : Ends (Keeps
    0x20001E000000000000000000000000000000000000000000000000000000000000000000000000000000000000000000000000000000000000000000000000000000000000000000000000000000000000000000000000000000000000000000000000000000000000000000000000000000000000000000000000000000000000000000000000000000000000000000000000000000000000000000000000000000000000000000000000000000000000000000000000000000000000000000000000000000000000000000000000000000000000000000000000000000000000000000000000000000000000000000000000000000000000000000000000000000000000000000000000000000000000000000000000000000000000000000000000000000000000000000000000000000400000000000000000000000000000000000000000002000000000000000010000000000000000000000000000000000000000000000000000000000000000000000802081
    s) (execBphRateMeasure mHz s) := by
  unfold execBphRateMeasure
  refine Ends.next ?_
  repeat' first
    | (extract_lets +onlyGivenNames u
       first
       | (refine Keeps.cut (u := u) ?_ (fun _ => ?_); subst u; on_goal 2 => clear_value u)
       | (have h := @id (_ → _) u; clear h; subst u)
       | clear_value u)
    | with_reducible assumption
    | (simp (decide := true) (maxDischargeDepth := 200) only [↓Keeps.next, ↓Keeps.endsIte, ↓Keeps.refl, ↓Keeps.ite,
      ↓Keeps.mk, ↓State.put_keeps, ↓State.put32_keeps, ↓State.raiseIn_keeps, ↓State.captRec_keeps, or_true, true_or,
      eq_self, *]; done)
    | split

theorem execBphOutFrame_keeps (s : State) : Ends (Keeps
    0x2C00020000000000000000000000000005A1800000000000000000000000000005A18000000000000000000000000000000000000000000000000000000000000000000000000000000000000000000000000000000000000000000000000000000000000000000000000000000000000000000000000000000000000000000000000000000000000000000000000000000000000000000000000000000000000000000000000000000000000000000000000000000000000000000000000000000000000000000000000000000000000000000000000000000000000000000000000000000000000000000000000000000000000000000000000000000000000000000000000000000000000000000000000000000000000000000000000000000000000000000000000000000000000000400000000000000000000000000000000000000000002000000000000000010000000000000000000000000000000000000000000000000000000000000000000000C02081
    s) (execBphOutFrame s) := by
  unfold execBphOutFrame
  refine Ends.next ?_
  repeat' first
    | (extract_lets +onlyGivenNames u
       first
       | (refine Keeps.cut (u := u) ?_ (fun _ => ?_); subst u; on_goal 2 => clear_value u)
       | (have h := @id (_ → _) u; clear h; subst u)
       | clear_value u)
    | with_reducible assumption
    | (simp (decide := true) (maxDischargeDepth := 200) only [↓Keeps.next, ↓Keeps.endsIte, ↓Keeps.refl, ↓Keeps.ite,
      ↓Keeps.mk, ↓State.showLevels_keeps, ↓State.txEdge_keeps, or_true, true_or, eq_self, *]; done)
    | split

end Sys2Proof.Machine
end

