-- ==== Sys2Proof/Laws/KeepsSlots.lean ====
section
/-! SUPPORT. What each operation of Machine/Slots.lean may change, and that it keeps the canonical form. -/

set_option Elab.async false

set_option linter.unusedSimpArgs false
set_option linter.unusedTactic false
set_option linter.unreachableTactic false

namespace Sys2Proof.Machine

open R

theorem State.planEvent_keeps (s : State) (f : Fn) (event cause id sec : Nat) {μ : Nat} {σ : State} (hk : Keeps μ σ s)
    (hm : within?
    0x2000000000000000000000000000000000000000000000000000000000000000000000000000000000000000000000000000000000000000000000000000000000000000000000000000000000000000000000000000000000000000000000000000000000000000000000000000000000000000000000000000000000000000000400000000000000000000000000000000000000000002000000000000000010000000000000000000000000000000000000000000000000000000000000000000000002081
    μ = true) : Keeps μ σ (State.planEvent s f event cause id sec) := by
  refine hk.lift hm ?_
  unfold State.planEvent
  repeat' first
    | (extract_lets +onlyGivenNames u
       first
       | (refine Keeps.cut (u := u) ?_ (fun _ => ?_); subst u; on_goal 2 => clear_value u)
       | (have h := @id (_ → _) u; clear h; subst u)
       | clear_value u)
    | with_reducible assumption
    | (simp (decide := true) (maxDischargeDepth := 200) only [↓Keeps.refl, ↓Keeps.ite, ↓Keeps.mk,
      ↓State.deliver_keeps, ↓State.inc_keeps, or_true, true_or, eq_self, *]; done)
    | split

theorem State.listenEvent_keeps (s : State) (f : Fn) (event cause : Nat) {μ : Nat} {σ : State} (hk : Keeps μ σ s) (hm
    : within?
    0x2000000000000000000000000000000000000000000000000000000000000000000000000000000000000000000000000000000000000000000000000000000000000000000000000000000000000000000000000000000000000000000000000000000000000000000000000000000000000000000000000000000000000000000400000000000000000000000000000000000000000002000000000000000010000000000000000000000000000000000000000000000000000000000000000000000002081
    μ = true) : Keeps μ σ (State.listenEvent s f event cause) := by
  refine hk.lift hm ?_
  unfold State.listenEvent
  repeat' first
    | (extract_lets +onlyGivenNames u
       first
       | (refine Keeps.cut (u := u) ?_ (fun _ => ?_); subst u; on_goal 2 => clear_value u)
       | (have h := @id (_ → _) u; clear h; subst u)
       | clear_value u)
    | with_reducible assumption
    | (simp (decide := true) (maxDischargeDepth := 200) only [↓Keeps.refl, ↓Keeps.ite, ↓Keeps.mk,
      ↓State.planEvent_keeps, or_true, true_or, eq_self, *]; done)
    | split

theorem State.missed_keeps (s : State) (f : Fn) (w : Watch) (nominal cause : Nat) {μ : Nat} {σ : State} (hk : Keeps μ
    σ s) (hm : within?
    0x2000000000000000000000000000000000000000000000000000000000000000000000000000000000000000000000000000000000000000000000000000000000000000000000000000000000000000000000000000000000000000000000000000000000000000000000000000000000000000000000000000000000000000000400000000000000000000000000000000000000000002000000000000000010000000000000000000000000000000000000000000000000000000000000000000000002081
    μ = true) : Keeps μ σ (State.missed s f w nominal cause) := by
  refine hk.lift hm ?_
  unfold State.missed
  repeat' first
    | (extract_lets +onlyGivenNames u
       first
       | (refine Keeps.cut (u := u) ?_ (fun _ => ?_); subst u; on_goal 2 => clear_value u)
       | (have h := @id (_ → _) u; clear h; subst u)
       | clear_value u)
    | with_reducible assumption
    | (simp (decide := true) (maxDischargeDepth := 200) only [↓Keeps.refl, ↓Keeps.ite, ↓Keeps.mk,
      ↓State.planEvent_keeps, or_true, true_or, eq_self, *]; done)
    | split

theorem State.showMaintain_keeps (s : State) {μ : Nat} {σ : State} (hk : Keeps μ σ s) (hm : within?
    0x10000000000000000000000000000000000000000000000000000000000000000000000000000000000000000000000000000000000000000000000000000000000000000
    μ = true) : Keeps μ σ (State.showMaintain s) := by
  refine hk.lift hm ?_
  unfold State.showMaintain
  repeat' first
    | (extract_lets +onlyGivenNames u
       first
       | (refine Keeps.cut (u := u) ?_ (fun _ => ?_); subst u; on_goal 2 => clear_value u)
       | (have h := @id (_ → _) u; clear h; subst u)
       | clear_value u)
    | with_reducible assumption
    | (simp (decide := true) (maxDischargeDepth := 200) only [↓Keeps.refl, ↓Keeps.ite, ↓Keeps.mk, ↓State.setAct_keeps,
      or_true, true_or, eq_self, *]; done)
    | split

theorem State.zeroRegs_keeps (s : State) (key n : Nat) {μ : Nat} {σ : State} (hk : Keeps μ σ s)
    (hx : ∀ i < n, regIn μ (key + i) = true) : Keeps μ σ (s.zeroRegs key n) := by
  induction n generalizing s with
  | zero => exact hk
  | succ n ih =>
    exact ih _ (State.setReg_keeps _ _ _ hk (hx n (Nat.lt_succ_self n))) (fun i hi => hx i (by omega))

theorem State.bearerReset_keeps (s : State) {μ : Nat} {σ : State} (hk : Keeps μ σ s) (hm : within?
    0x210000000000000000FFFFFFFF002007FD000000000000000001FFFFFF0001300300000000000000000000000000000000000000000000000000000000000000000000000000000000000000000000000000000000000000000000000000000000000000000000000000000000000000000000000000000000000000000000000000000000000000000000000000000000000000000000000000000000000000000000000000000000000000000000000000000000000000000000000000000000000000000000000000000000000000000000000000000000000000000000000000000000000000000000000000000000000000000000000000000000000000000000000000000000000000000000000000000000000000000000000000000000000E0000
    μ = true) : Keeps μ σ (State.bearerReset s) := by
  refine hk.lift hm ?_
  unfold State.bearerReset
  repeat' first
    | (extract_lets +onlyGivenNames u
       first
       | (refine Keeps.cut (u := u) ?_ (fun _ => ?_); subst u; on_goal 2 => clear_value u)
       | (have h := @id (_ → _) u; clear h; subst u)
       | clear_value u)
    | with_reducible assumption
    | (simp (decide := true) (maxDischargeDepth := 200) only [↓Keeps.refl, ↓Keeps.ite, ↓Keeps.mk, ↓State.put_keeps,
      ↓State.zeroRegs_keeps, ↓State.put32_keeps, or_true, true_or, eq_self, *]; done)
    | split

theorem State.setPath_keeps (s : State) (path : Nat) {μ : Nat} {σ : State} (hk : Keeps μ σ s) (hm : within?
    0x10000000000000000000000000000000000000000000000000000000000000000000000000000000000000000000000000000000000000000000000000000000000000000000000000000000000000000000000000000000000000000000000000000000000000000000000000000000000000000000000000000000000000000000000000000000000000000000000000000000000000000000000000000000100000000000000000000000000000000000000000000000000000000000000000000000000000000000000000000000000000000
    μ = true) : Keeps μ σ (State.setPath s path) := by
  refine hk.lift hm ?_
  unfold State.setPath
  repeat' first
    | (extract_lets +onlyGivenNames u
       first
       | (refine Keeps.cut (u := u) ?_ (fun _ => ?_); subst u; on_goal 2 => clear_value u)
       | (have h := @id (_ → _) u; clear h; subst u)
       | clear_value u)
    | with_reducible assumption
    | (simp (decide := true) (maxDischargeDepth := 200) only [↓Keeps.refl, ↓Keeps.ite, ↓Keeps.mk, ↓State.putBit_keeps,
      ↓State.put_keeps, or_true, true_or, eq_self, *]; done)
    | split

theorem State.pathOff_keeps (s : State) {μ : Nat} {σ : State} (hk : Keeps μ σ s) (hm : within?
    0x1000000000000000000000000000000090000000000000000000000000000000000000000000000000000000000000000000000000000000000000000000000000000000000000000000000000000000000000000000000000000000000000000000000000000000000000000000000000000000000000000000000000000000000000000000000000000000000000000000000000000000000000000000000000000000000000000000000000000000100000000000000000000000000000000000000000000000000000000000000000000000000000000000000000000000000000000
    μ = true) : Keeps μ σ (State.pathOff s) := by
  refine hk.lift hm ?_
  unfold State.pathOff
  repeat' first
    | (extract_lets +onlyGivenNames u
       first
       | (refine Keeps.cut (u := u) ?_ (fun _ => ?_); subst u; on_goal 2 => clear_value u)
       | (have h := @id (_ → _) u; clear h; subst u)
       | clear_value u)
    | with_reducible assumption
    | (simp (decide := true) (maxDischargeDepth := 200) only [↓Keeps.refl, ↓Keeps.ite, ↓Keeps.mk, ↓State.put_keeps,
      ↓State.setPath_keeps, or_true, true_or, eq_self, *]; done)
    | split

theorem State.rxStart_keeps (s : State) (kfc sub : Nat) (addrs : List Nat) {μ : Nat} {σ : State} (hk : Keeps μ σ s)
    (hm : within?
    0x210000000000000000FFFFFFFF002007FD000000000000000001FFFFFF0001300300000000000000000000000000000000000000000000000000000000000000010000000000000000000000000000000900000000000000000000000000000000000000000000000000000000000000000000000000000000000000000000000000000000000000000000000000000000000000000000000000000000000000000000000000000000000000000000000000000000000000000000000000000000000000000000000000000000000000000000000000000000000000000000000000000000000000000000000000000001000000000000000000000000000000000000000000000000000000000000000000000000000000000000000000000000001F0000
    μ = true) : Keeps μ σ (State.rxStart s kfc sub addrs) := by
  refine hk.lift hm ?_
  unfold State.rxStart
  repeat' first
    | (extract_lets +onlyGivenNames u
       first
       | (refine Keeps.cut (u := u) ?_ (fun _ => ?_); subst u; on_goal 2 => clear_value u)
       | (have h := @id (_ → _) u; clear h; subst u)
       | clear_value u)
    | with_reducible assumption
    | (simp (decide := true) (maxDischargeDepth := 200) only [↓Keeps.refl, ↓Keeps.ite, ↓Keeps.mk,
      ↓State.bearerReset_keeps, ↓State.put_keeps, ↓State.pathOff_keeps, or_true, true_or, eq_self, *]; done)
    | split

theorem State.stat_keeps (s : State) (stream : Nat) (g : SegStat → SegStat) {μ : Nat} {σ : State} (hk : Keeps μ σ s)
    (hm : within? 0x200000 μ = true) : Keeps μ σ (State.stat s stream g) := by
  refine hk.lift hm ?_
  unfold State.stat
  repeat' first
    | (extract_lets +onlyGivenNames u
       first
       | (refine Keeps.cut (u := u) ?_ (fun _ => ?_); subst u; on_goal 2 => clear_value u)
       | (have h := @id (_ → _) u; clear h; subst u)
       | clear_value u)
    | with_reducible assumption
    | (simp (decide := true) (maxDischargeDepth := 200) only [↓Keeps.refl, ↓Keeps.ite, ↓Keeps.mk, or_true, true_or,
      eq_self, *]; done)
    | split

theorem State.badSegment_keeps (s : State) (l : List (Option Byte)) {μ : Nat} {σ : State} (hk : Keeps μ σ s) (hm :
    within?
    0x10000000000000000000000000000000000000000000000000000000000000000000000000000000000000000000000000000000000000000000000000000000000000000000000000000000000000000000000000000000000000000000000000000000000000000000000000000000000000000000000000000000000000000000000000000000000000000000000000000000000000000000000000000000000000000000000000000000000000000000000000000000000000000000000000000000000000000000000000000000000000000000000000000000000000000000000000000000000000000000000000000000000000000000000000000000000000000000000000000000000000000000000000000000000000000000000000000000000000000000000000000000000000000000000000000000000000000000000200000
    μ = true) : Keeps μ σ (State.badSegment s l) := by
  refine hk.lift hm ?_
  unfold State.badSegment
  repeat' first
    | (extract_lets +onlyGivenNames u
       first
       | (refine Keeps.cut (u := u) ?_ (fun _ => ?_); subst u; on_goal 2 => clear_value u)
       | (have h := @id (_ → _) u; clear h; subst u)
       | clear_value u)
    | with_reducible assumption
    | (simp (decide := true) (maxDischargeDepth := 200) only [↓Keeps.refl, ↓Keeps.ite, ↓Keeps.mk, ↓State.inc_keeps,
      ↓State.stat_keeps, or_true, true_or, eq_self, *]; done)
    | split

theorem State.abandonSegment_keeps (s : State) {μ : Nat} {σ : State} (hk : Keeps μ σ s) (hm : within?
    0x18000000000000000000000000000000000000000000000000000000000000000000000000000000000000000000000000000000000000000000000000000000000000000000000000000000000000000000000000000000000000000000000000000000000000000000000000000000000000000000000000000000000000000000000000000000000000000000000000000000000000000000000000000000000000000000000000000000000000000000000000000000000000000000000000000000000000000000000000000000000000000000000000000000000000000000000000000000000000000000000000000000000000000000000000000000000000000000000000000000000000000000000000000000000000000000000000000000000000000000000000000000000000000000000000000000000000000000000200000
    μ = true) : Keeps μ σ (State.abandonSegment s) := by
  refine hk.lift hm ?_
  unfold State.abandonSegment
  repeat' first
    | (extract_lets +onlyGivenNames u
       first
       | (refine Keeps.cut (u := u) ?_ (fun _ => ?_); subst u; on_goal 2 => clear_value u)
       | (have h := @id (_ → _) u; clear h; subst u)
       | clear_value u)
    | with_reducible assumption
    | (simp (decide := true) (maxDischargeDepth := 200) only [↓Keeps.refl, ↓Keeps.ite, ↓Keeps.mk,
      ↓State.badSegment_keeps, ↓State.inc_keeps, or_true, true_or, eq_self, *]; done)
    | split

theorem State.edfEnd_keeps (s : State) {μ : Nat} {σ : State} (hk : Keeps μ σ s) (hm : within?
    0x18000000000000000000000000000000000000000000000000000000000000000000000000000000000000000000000000000000000000000000000000000000000000000000000000000000000000000000000000000000000000000000000000000000000000000000000000000000000000000000000000000000000000000000000000000000000000000000000000000000000000000000000000000000000000000000000000000000000000000000000000000000000000000000000000000000000000000000000000000000000000000000000000000000000000000000000000000000000000000000000000000000000000000000000000000000000000000000000000000000000000000000000000000000000000000000000000000000000000000000000000000000000000000000000000000000000000000000000200000
    μ = true) : Keeps μ σ (State.edfEnd s) := by
  refine hk.lift hm ?_
  unfold State.edfEnd
  repeat' first
    | (extract_lets +onlyGivenNames u
       first
       | (refine Keeps.cut (u := u) ?_ (fun _ => ?_); subst u; on_goal 2 => clear_value u)
       | (have h := @id (_ → _) u; clear h; subst u)
       | clear_value u)
    | with_reducible assumption
    | (simp (decide := true) (maxDischargeDepth := 200) only [↓Keeps.refl, ↓Keeps.ite, ↓Keeps.mk,
      ↓State.abandonSegment_keeps, or_true, true_or, eq_self, *]; done)
    | split

theorem State.rxStop_keeps (s : State) {μ : Nat} {σ : State} (hk : Keeps μ σ s) (hm : within?
    0x1800000000000000000000000000000000000000000000000000000000000000000210000000000000000FFFFFFFF002007FD000000000000000001FFFFFF0001300300000000000000000000000000000000000000000000000000000000000000010000000000000000000000000000010900000000000000000000000000000000000000000000000000000000000000000000000000000000000000000000000000000000000000000000000000000000000000000000000000000000000000000000000000000000000000000000000000000000000000000000000000000000000000000000000000000000000000000000000000000000000000000000000000000000000000000000000000000001000000000000000000000000000000000000000000000000000000000000000000000000000000000000000000000000002F0000
    μ = true) : Keeps μ σ (State.rxStop s) := by
  refine hk.lift hm ?_
  unfold State.rxStop
  repeat' first
    | (extract_lets +onlyGivenNames u
       first
       | (refine Keeps.cut (u := u) ?_ (fun _ => ?_); subst u; on_goal 2 => clear_value u)
       | (have h := @id (_ → _) u; clear h; subst u)
       | clear_value u)
    | with_reducible assumption
    | (simp (decide := true) (maxDischargeDepth := 200) only [↓Keeps.refl, ↓Keeps.ite, ↓Keeps.mk, ↓State.edfEnd_keeps,
      ↓State.put_keeps, ↓State.pathOff_keeps, ↓State.bearerReset_keeps, or_true, true_or, eq_self, *]; done)
    | split

theorem State.tunerFollow_keeps (s : State) {μ : Nat} {σ : State} (hk : Keeps μ σ s) (hm : within?
    0x1800000000000000000000000000000000000000000000000000000000000000000210000000000000000FFFFFFFF002007FD000000000000000001FFFFFF0001300300000000000000000000000000000000000000000000000000000000000000010000000000000000000000000000010900000000000000000000000000000000000000000000000000000000000000000000000000000000000000000000000000000000000000000000000000000000000000000000000000000000000000000000000000000000000000000000000000000000000000000000000000000000000000000000000000000000000000000000000000000000000000000000000000000000000000000000000000000001000000000000000000000000000000000000000000000000000000000000000000000000000000000000000000000000002F0000
    μ = true) : Keeps μ σ (State.tunerFollow s) := by
  refine hk.lift hm ?_
  unfold State.tunerFollow
  repeat' first
    | (extract_lets +onlyGivenNames u
       first
       | (refine Keeps.cut (u := u) ?_ (fun _ => ?_); subst u; on_goal 2 => clear_value u)
       | (have h := @id (_ → _) u; clear h; subst u)
       | clear_value u)
    | with_reducible assumption
    | (simp (decide := true) (maxDischargeDepth := 200) only [↓Keeps.refl, ↓Keeps.ite, ↓Keeps.mk, ↓State.rxStop_keeps,
      or_true, true_or, eq_self, *]; done)
    | split

theorem State.showActs_keeps (s : State) {μ : Nat} {σ : State} (hk : Keeps μ σ s) (hm : within?
    0x10000000000000000000000000000000000000000000000000000000000000000000000000000000000000000000000000000000000000000000000000000000000000000
    μ = true) : Keeps μ σ (State.showActs s) := by
  refine hk.lift hm ?_
  unfold State.showActs
  repeat' first
    | (extract_lets +onlyGivenNames u
       first
       | (refine Keeps.cut (u := u) ?_ (fun _ => ?_); subst u; on_goal 2 => clear_value u)
       | (have h := @id (_ → _) u; clear h; subst u)
       | clear_value u)
    | with_reducible assumption
    | (simp (decide := true) (maxDischargeDepth := 200) only [↓Keeps.refl, ↓Keeps.ite, ↓Keeps.mk, ↓State.setAct_keeps,
      or_true, true_or, eq_self, *]; done)
    | split

theorem State.showListen_keeps (s : State) (f : Fn) {μ : Nat} {σ : State} (hk : Keeps μ σ s) (hm : within?
    0x2000000000000000000000000000000000000000000000000000000000000000000000000000000000000 μ = true) : Keeps μ σ
    (State.showListen s f) := by
  refine hk.lift hm ?_
  unfold State.showListen
  repeat' first
    | (extract_lets +onlyGivenNames u
       first
       | (refine Keeps.cut (u := u) ?_ (fun _ => ?_); subst u; on_goal 2 => clear_value u)
       | (have h := @id (_ → _) u; clear h; subst u)
       | clear_value u)
    | with_reducible assumption
    | (simp (decide := true) (maxDischargeDepth := 200) only [↓Keeps.refl, ↓Keeps.ite, ↓Keeps.mk, ↓State.fput_keeps,
      regIn_on, or_true, true_or, eq_self, *]; done)
    | split

theorem State.setListen_keeps (s : State) (f : Fn) (l : Option Listen) {μ : Nat} {σ : State} (hk : Keeps μ σ s) (hm :
    within? 0x60200000000000000000000000000000000000000000000000000000000000000000000000000001000E000 μ = true) :
    Keeps μ σ (State.setListen s f l) := by
  refine hk.lift hm ?_
  unfold State.setListen
  repeat' first
    | (extract_lets +onlyGivenNames u
       first
       | (refine Keeps.cut (u := u) ?_ (fun _ => ?_); subst u; on_goal 2 => clear_value u)
       | (have h := @id (_ → _) u; clear h; subst u)
       | clear_value u)
    | with_reducible assumption
    | (simp (decide := true) (maxDischargeDepth := 200) only [↓Keeps.refl, ↓Keeps.ite, ↓Keeps.mk,
      ↓State.account_keeps, ↓State.showListen_keeps, ↓State.setPlan_keeps, or_true, true_or, eq_self, *]; done)
    | split

theorem State.endListen_keeps (s : State) (f : Fn) (cause : Nat) {μ : Nat} {σ : State} (hk : Keeps μ σ s) (hm :
    within?
    0x1800000000000000000000000000000000000000000000000000000000000000000210000000000000000FFFFFFFF002007FD000000000000000001FFFFFF0001300300000000000000000000000000000000000000000000000000000000000000010000000000000000000000000000010900000000000000000000000000020000000000000000000000000000000000000000000000000000000000000000000000000000000000000000000000000000000000000000000000000000000000000000000000000000000000000000000000000000000000000000000000000000000000000000000000000000000000000000000000000000000000000000004100000000000000000000000000000001000000000020000006020000000100000000000000000000000000000000000000000000000000000000000000000000102FE081
    μ = true) : Keeps μ σ (State.endListen s f cause) := by
  refine hk.lift hm ?_
  unfold State.endListen
  repeat' first
    | (extract_lets +onlyGivenNames u
       first
       | (refine Keeps.cut (u := u) ?_ (fun _ => ?_); subst u; on_goal 2 => clear_value u)
       | (have h := @id (_ → _) u; clear h; subst u)
       | clear_value u)
    | with_reducible assumption
    | (simp (decide := true) (maxDischargeDepth := 200) only [↓Keeps.refl, ↓Keeps.ite, ↓Keeps.mk,
      ↓State.showActs_keeps, ↓State.tunerFollow_keeps, ↓State.listenEvent_keeps, ↓State.setListen_keeps, or_true,
      true_or, eq_self, *]; done)
    | split

theorem State.pauseListen_keeps (s : State) (f : Fn) {μ : Nat} {σ : State} (hk : Keeps μ σ s) (hm : within?
    0x200000000000000000000000000000000000000000000000000000000000000000000000000000000000000000000000000000000000000000000000000000000000000000000000000000000000000000000000000000000000000000000000000000000000000000000000000000000000000000000000000000000000000000040000000000000000000000000000000000000000000200000060200000001000000000000000000000000000000000000000000000000000000000000000000001000E081
    μ = true) : Keeps μ σ (State.pauseListen s f) := by
  refine hk.lift hm ?_
  unfold State.pauseListen
  repeat' first
    | (extract_lets +onlyGivenNames u
       first
       | (refine Keeps.cut (u := u) ?_ (fun _ => ?_); subst u; on_goal 2 => clear_value u)
       | (have h := @id (_ → _) u; clear h; subst u)
       | clear_value u)
    | with_reducible assumption
    | (simp (decide := true) (maxDischargeDepth := 200) only [↓Keeps.refl, ↓Keeps.ite, ↓Keeps.mk,
      ↓State.listenEvent_keeps, ↓State.setListen_keeps, or_true, true_or, eq_self, *]; done)
    | split

theorem State.resumeListen_keeps (s : State) (f : Fn) {μ : Nat} {σ : State} (hk : Keeps μ σ s) (hm : within?
    0x210000000000000000FFFFFFFF002007FD000000000000000001FFFFFF0001300300000000000000000000000000000000000000000000000000000000000000010000000000000000000000000000000900000000000000000000000000020000000000000000000000000000000000000000000000000000000000000000000000000000000000000000000000000000000000000000000000000000000000000000000000000000000000000000000000000000000000000000000000000000000000000000000000000000000000000000000000000000000000000000004100000000000000000000000000000001000000000020000006020000000100000000000000000000000000000000000000000000000000000000000000000000101FE081
    μ = true) : Keeps μ σ (State.resumeListen s f) := by
  refine hk.lift hm ?_
  unfold State.resumeListen
  repeat' first
    | (extract_lets +onlyGivenNames u
       first
       | (refine Keeps.cut (u := u) ?_ (fun _ => ?_); subst u; on_goal 2 => clear_value u)
       | (have h := @id (_ → _) u; clear h; subst u)
       | clear_value u)
    | with_reducible assumption
    | (simp (decide := true) (maxDischargeDepth := 200) only [↓Keeps.refl, ↓Keeps.ite, ↓Keeps.mk,
      ↓State.listenEvent_keeps, ↓State.setListen_keeps, ↓State.rxStart_keeps, ↓State.showActs_keeps, or_true, true_or,
      eq_self, *]; done)
    | split

theorem State.eachFn_keeps (s : State) (g : State → Fn → State) (l : List Fn) {μ : Nat} {σ : State} (hk : Keeps μ σ s)
    (hg : ∀ t f, Keeps μ t (g t f)) : Keeps μ σ (s.eachFn g l) := by
  induction l generalizing s with
  | nil => exact hk
  | cons f l ih => exact ih _ (hk.trans (hg s f))

theorem State.missRuns_keeps (s : State) (p : Run × Watch → Bool) (cause : Nat) {μ : Nat} {σ : State} (hk : Keeps μ σ
    s) (hm : within?
    0x200000000000000000000000000000000000000000000000000000000000000000000000000000000000000000000000000000000000000000000000000000000000000000000000000000000000000000000000000000000000000000000000000000000000000000000000000000000000000000000000000000000000000000040000000000000000000000000000000000000000000200000060000000001000000000000000000000000000000000000000000000000000000000000000000001000A081
    μ = true) : Keeps μ σ (State.missRuns s p cause) := by
  refine hk.lift hm ?_
  unfold State.missRuns
  repeat' first
    | (extract_lets +onlyGivenNames u
       first
       | (refine Keeps.cut (u := u) ?_ (fun _ => ?_); subst u; on_goal 2 => clear_value u)
       | (have h := @id (_ → _) u; clear h; subst u)
       | clear_value u)
    | with_reducible assumption
    | (simp (decide := true) (maxDischargeDepth := 200) only [↓Keeps.refl, ↓Keeps.ite, ↓Keeps.mk, ↓Keeps.foldl,
      ↓State.account_keeps, ↓State.missed_keeps, implies_true, or_true, true_or, eq_self, *]; done)
    | (with_reducible refine Keeps.foldl (fun _ _ => ?_) ?_ <;> beta_reduce)
    | (with_reducible refine State.account_keeps _ ?_ (by decide))
    | (with_reducible refine State.missed_keeps _ _ _ _ _ ?_ (by decide))
    | split

theorem State.dropRuns_keeps (s : State) (p : Run × Watch → Bool) {μ : Nat} {σ : State} (hk : Keeps μ σ s) (hm :
    within? 0x60000000000000000000000000000000000000000000000000000000000000000000000000000001000A000 μ = true) :
    Keeps μ σ (State.dropRuns s p) := by
  refine hk.lift hm ?_
  unfold State.dropRuns
  repeat' first
    | (extract_lets +onlyGivenNames u
       first
       | (refine Keeps.cut (u := u) ?_ (fun _ => ?_); subst u; on_goal 2 => clear_value u)
       | (have h := @id (_ → _) u; clear h; subst u)
       | clear_value u)
    | with_reducible assumption
    | (simp (decide := true) (maxDischargeDepth := 200) only [↓Keeps.refl, ↓Keeps.ite, ↓Keeps.mk,
      ↓State.account_keeps, or_true, true_or, eq_self, *]; done)
    | split

theorem State.stestCut_keeps (s : State) {μ : Nat} {σ : State} (hk : Keeps μ σ s) (hm : within? 0x2000000 μ = true) :
    Keeps μ σ (State.stestCut s) := by
  refine hk.lift hm ?_
  unfold State.stestCut
  repeat' first
    | (extract_lets +onlyGivenNames u
       first
       | (refine Keeps.cut (u := u) ?_ (fun _ => ?_); subst u; on_goal 2 => clear_value u)
       | (have h := @id (_ → _) u; clear h; subst u)
       | clear_value u)
    | with_reducible assumption
    | (simp (decide := true) (maxDischargeDepth := 200) only [↓Keeps.refl, ↓Keeps.ite, ↓Keeps.mk, or_true, true_or,
      eq_self, *]; done)
    | split

theorem State.dropCal_keeps (s : State) {μ : Nat} {σ : State} (hk : Keeps μ σ s) (hm : within?
    0x100000000000000000000000000000001000000000000000000000000000000090000000000000000000000000000000000000000000000000000000000000000000000000000000000000000000000000000000000000000000000000000000000000000000000000000000000000000000000000000000000000000000000000000000000000000000000000000000000000000000000000000000000000000000000000000000000000000000000000000000000000000000000000000000100000000000000000000000000000000000000000000000000000000000000000000000000000000000000000000000000010000
    μ = true) : Keeps μ σ (State.dropCal s) := by
  refine hk.lift hm ?_
  unfold State.dropCal
  repeat' first
    | (extract_lets +onlyGivenNames u
       first
       | (refine Keeps.cut (u := u) ?_ (fun _ => ?_); subst u; on_goal 2 => clear_value u)
       | (have h := @id (_ → _) u; clear h; subst u)
       | clear_value u)
    | with_reducible assumption
    | (simp (decide := true) (maxDischargeDepth := 200) only [↓Keeps.refl, ↓Keeps.ite, ↓Keeps.mk,
      ↓State.pathOff_keeps, ↓State.put_keeps, or_true, true_or, eq_self, *]; done)
    | split

theorem State.holdSuspend_keeps (s : State) {μ : Nat} {σ : State} (hk : Keeps μ σ s) (hm : within?
    0x1000000000000000000000000000000090000000000000000000000000000000000000000000000000000000000000000000000000000000000000000000000000000000000000000000000000000000000000000000000000000000000000000000000000000000000000000000000000000000000000000000000000000000000000000000000000000000000000000000000000000000000000000000000000000000000000000000000000000000100000000000000000600000000000000000000000000000000000000000000000000000000000000000000000000000010012000
    μ = true) : Keeps μ σ (State.holdSuspend s) := by
  refine hk.lift hm ?_
  unfold State.holdSuspend
  repeat' first
    | (extract_lets +onlyGivenNames u
       first
       | (refine Keeps.cut (u := u) ?_ (fun _ => ?_); subst u; on_goal 2 => clear_value u)
       | (have h := @id (_ → _) u; clear h; subst u)
       | clear_value u)
    | with_reducible assumption
    | (simp (decide := true) (maxDischargeDepth := 200) only [↓Keeps.refl, ↓Keeps.ite, ↓Keeps.mk,
      ↓State.chargeOpen_keeps, ↓State.pathOff_keeps, ↓State.put_keeps, or_true, true_or, eq_self, *]; done)
    | split

theorem State.endActivities_keeps (s : State) (cause : Nat) (listen : Option Nat) {μ : Nat} {σ : State} (hk : Keeps μ
    σ s) (hm : within?
    0x182C10000000000000000000000000000000200000000000000000000000000004080000000000000000000000000000040800000000000000000000000000001800000000000000000000000000000000600000000000000000000000000000000210000000000000000FFFFFFFF002007FD000000000000000001FFFFFF000130030000000000000000000000000000000100000000000000000000000000000001000000000000000000000000000001090000000000000000000000000002000000000000000000000000000000000000000000000000000000000000000000000000000000000000000000000000000000000000000000000000000000000000000000000000000000000000000000000000000000000000000000000000000000000000000000000000000000000000000000000000000000000000000000410000000000000000000000000000000100000000002000000602000000010000000000000000000000000000000000000000000000000000000000000000000013EFE085
    μ = true) : Keeps μ σ (State.endActivities s cause listen) := by
  refine hk.lift hm ?_
  unfold State.endActivities
  repeat' first
    | (extract_lets +onlyGivenNames u
       first
       | (refine Keeps.cut (u := u) ?_ (fun _ => ?_); subst u; on_goal 2 => clear_value u)
       | (have h := @id (_ → _) u; clear h; subst u)
       | clear_value u)
    | with_reducible assumption
    | (simp (decide := true) (maxDischargeDepth := 200) only [↓Keeps.refl, ↓Keeps.ite, ↓Keeps.mk,
      ↓State.missRuns_keeps, ↓State.captEnd_keeps, ↓State.stestCut_keeps, ↓State.holdSuspend_keeps,
      ↓State.listenEvent_keeps, ↓State.setListen_keeps, ↓State.showMaintain_keeps, ↓State.setAct_keeps,
      ↓State.showActs_keeps, ↓State.rxStop_keeps, ↓State.dropCal_keeps, implies_true, or_true, true_or, eq_self,
      *]; done)
    | (with_reducible refine State.eachFn_keeps _ _ _ ?_ (fun _ _ => ?_) <;> beta_reduce)
    | (with_reducible refine State.missRuns_keeps _ _ _ ?_ (by decide))
    | (with_reducible refine State.captEnd_keeps _ _ ?_ (by decide))
    | (with_reducible refine State.stestCut_keeps _ ?_ (by decide))
    | (with_reducible refine State.holdSuspend_keeps _ ?_ (by decide))
    | (with_reducible refine State.listenEvent_keeps _ _ _ _ ?_ (by decide))
    | (with_reducible refine State.setListen_keeps _ _ _ ?_ (by decide))
    | (with_reducible refine State.showMaintain_keeps _ ?_ (by decide))
    | (with_reducible refine State.setAct_keeps _ _ _ ?_ (by decide) (by decide))
    | (with_reducible refine State.showActs_keeps _ ?_ (by decide))
    | (with_reducible refine State.rxStop_keeps _ ?_ (by decide))
    | (with_reducible refine State.dropCal_keeps _ ?_ (by decide))
    | split

end Sys2Proof.Machine
end

