-- ==== Sys2Proof/Laws/KeepsFrontEnd.lean ====
section
/-! SUPPORT. What each operation of Machine/FrontEnd.lean may change, and that it keeps the canonical form. -/

set_option Elab.async false

set_option linter.unusedSimpArgs false
set_option linter.unusedTactic false
set_option linter.unreachableTactic false

namespace Sys2Proof.Machine

open R

theorem State.loadSyn_keeps (s : State) (code total band : Nat) {μ : Nat} {σ : State} (hk : Keeps μ σ s) (hm : within?
    0x65F000000000000000000000000000000000000000000000000000000000000000000000000000000000000000000000000000000000000000000000000000000000000000000000000000000000000000000000000000000000000000000000000000000000000000000000000000000000000000000000000000000000000000000000000000000000000000000000000000000000000000000000000000000000000000000000000000000000000000000000000000000000000000000000000000000000000000000000000000000000000000000000000000000000000000000010000
    μ = true) : Keeps μ σ (State.loadSyn s code total band) := by
  refine hk.lift hm ?_
  unfold State.loadSyn
  repeat' first
    | (extract_lets +onlyGivenNames u
       first
       | (refine Keeps.cut (u := u) ?_ (fun _ => ?_); subst u; on_goal 2 => clear_value u)
       | (have h := @id (_ → _) u; clear h; subst u)
       | clear_value u)
    | with_reducible assumption
    | (simp (decide := true) (maxDischargeDepth := 200) only [↓Keeps.refl, ↓Keeps.ite, ↓Keeps.mk, ↓State.put_keeps,
      ↓State.put32_keeps, or_true, true_or, eq_self, *]; done)
    | split

theorem State.lfPick_keeps (s : State) (kfc : Nat) {μ : Nat} {σ : State} (hk : Keeps μ σ s) (hm : within?
    0x100000000000000000000000000000000000000000000000000000000000000000000000000000000000000000000000000000000000000000000000000000000000000000000000000000000000000000000000000000000000000000000000000000000000000000000000000000000000000000000000000000000000000000000000000000000000000000000000000000000000000000000000000000000000000000000000000000000000000000000000000000000000000000000000000000000000000000000000000000000000000000000000000000000000000000000000000000000000000000000000000000000000000000000000000000000000000000000000000000000000000000000000000000000000000000000000000080000
    μ = true) : Keeps μ σ (State.lfPick s kfc) := by
  refine hk.lift hm ?_
  unfold State.lfPick
  repeat' first
    | (extract_lets +onlyGivenNames u
       first
       | (refine Keeps.cut (u := u) ?_ (fun _ => ?_); subst u; on_goal 2 => clear_value u)
       | (have h := @id (_ → _) u; clear h; subst u)
       | clear_value u)
    | with_reducible assumption
    | (simp (decide := true) (maxDischargeDepth := 200) only [↓Keeps.refl, ↓Keeps.ite, ↓Keeps.mk, ↓State.put_keeps,
      or_true, true_or, eq_self, *]; done)
    | split

theorem State.setJob_keeps (s : State) (v : Nat) {μ : Nat} {σ : State} (hk : Keeps μ σ s) (hm : within?
    0x10000000000000000000000000000000000000000000000000000000000000000000000000000000000000000000000000000000000000000000000000000000000000000000000000000000000000000000000000000000000000000000000000000000000000000000000000000000000000000000000000000000000000000000000000000000000000000000000000000000000000000000000000000000000000000000000000000000000000000000000000000000000000000000000000000000000000000000000000000000000010000
    μ = true) : Keeps μ σ (State.setJob s v) := by
  refine hk.lift hm ?_
  unfold State.setJob
  repeat' first
    | (extract_lets +onlyGivenNames u
       first
       | (refine Keeps.cut (u := u) ?_ (fun _ => ?_); subst u; on_goal 2 => clear_value u)
       | (have h := @id (_ → _) u; clear h; subst u)
       | clear_value u)
    | with_reducible assumption
    | (simp (decide := true) (maxDischargeDepth := 200) only [↓Keeps.refl, ↓Keeps.ite, ↓Keeps.mk, ↓State.put_keeps,
      or_true, true_or, eq_self, *]; done)
    | split

theorem State.synTo_keeps (s : State) (kfc : Nat) {μ : Nat} {σ : State} (hk : Keeps μ σ s) (hm : within?
    0x65F000000000000000000000000000000000000000000000000000000000000000000000000000000000000000000000000000000000000000000000000000000000000000000000000000000000000000000000000000000000000000000000000000000000000000000000000000000000000000000000000000000000000000000000000000000000000000000000000000000000000000000000000000000000000000000000000000000000000000000000000000000000000000000000000000000000000000000000000000000000000000000000000000000000000000000010000
    μ = true) : Keeps μ σ (State.synTo s kfc) := by
  refine hk.lift hm ?_
  unfold State.synTo
  repeat' first
    | (extract_lets +onlyGivenNames u
       first
       | (refine Keeps.cut (u := u) ?_ (fun _ => ?_); subst u; on_goal 2 => clear_value u)
       | (have h := @id (_ → _) u; clear h; subst u)
       | clear_value u)
    | with_reducible assumption
    | (simp (decide := true) (maxDischargeDepth := 200) only [↓Keeps.refl, ↓Keeps.ite, ↓Keeps.mk,
      ↓State.loadSyn_keeps, or_true, true_or, eq_self, *]; done)
    | split

theorem State.setGains_keeps (s : State) (lna ifGain lfGain : Nat) {μ : Nat} {σ : State} (hk : Keeps μ σ s) (hm :
    within?
    0x38100000000000000000000000000000000000000000000000000000000000000000000000000000000000000000000000000000000000000000000000000000000000000000000000000000000000000000000000000000000000000000000000000000000000000000000000000000000000000000000000000000000000000000000000000000000000000000000000000000000000000000000000000000000000000000000000000000000000000000000000000000000000000000000000000000000000000000000000000000000000000000
    μ = true) : Keeps μ σ (State.setGains s lna ifGain lfGain) := by
  refine hk.lift hm ?_
  unfold State.setGains
  repeat' first
    | (extract_lets +onlyGivenNames u
       first
       | (refine Keeps.cut (u := u) ?_ (fun _ => ?_); subst u; on_goal 2 => clear_value u)
       | (have h := @id (_ → _) u; clear h; subst u)
       | clear_value u)
    | with_reducible assumption
    | (simp (decide := true) (maxDischargeDepth := 200) only [↓Keeps.refl, ↓Keeps.ite, ↓Keeps.mk, ↓State.put_keeps,
      or_true, true_or, eq_self, *]; done)
    | split

theorem State.loadGains_keeps (s : State) (lf : Bool) {μ : Nat} {σ : State} (hk : Keeps μ σ s) (hm : within?
    0x38100000000000000000000000000000000000000000000000000000000000000000000000000000000000000000000000000000000000000000000000000000000000000000000000000000000000000000000000000000000000000000000000000000000000000000000000000000000000000000000000000000000000000000000000000000000000000000000000000000000000000000000000000000000000000000000000000000000000000000000000000000000000000000000000000000000000000000000000000000000010000000
    μ = true) : Keeps μ σ (State.loadGains s lf) := by
  refine hk.lift hm ?_
  unfold State.loadGains
  repeat' first
    | (extract_lets +onlyGivenNames u
       first
       | (refine Keeps.cut (u := u) ?_ (fun _ => ?_); subst u; on_goal 2 => clear_value u)
       | (have h := @id (_ → _) u; clear h; subst u)
       | clear_value u)
    | with_reducible assumption
    | (simp (decide := true) (maxDischargeDepth := 200) only [↓Keeps.refl, ↓Keeps.ite, ↓Keeps.mk, ↓State.fresh_snd,
      ↓State.setGains_keeps, or_true, true_or, eq_self, *]; done)
    | (split <;>
        (rename_i e
         refine Keeps.cut (State.fresh_out (by with_reducible exact e) ?_ (by decide)) (fun _ => ?_) <;> clear e))
    | (with_reducible refine State.fresh_snd _ ?_ (by decide))
    | (with_reducible refine State.setGains_keeps _ _ _ _ ?_ (by decide))
    | split

theorem State.tuneNoXo_keeps (s : State) {μ : Nat} {σ : State} (hk : Keeps μ σ s) (hm : within?
    0x1800000000000000000000000000000000000000000000000000000000000000000210000000000000000FFFFFFFF002007FD000000000000000001FFFFFF0001300300000000000000000000000000000000000000000000000000000000000000010000000000000000000000000000010900000000000000000000000000020000000000000000000000000000000000000000000000000000000000000000000000000000000000000000000000000000000000000000000000000000000000000000000000000000000000000000000000000000000000000000000000000000000000000000000000000000000000000000000000000000000000000000004100000000000000000000000000000001000000000020000006000000000100000000000000000000000000000000000000000000000000000000000000000000102FA081
    μ = true) : Keeps μ σ (State.tuneNoXo s) := by
  refine hk.lift hm ?_
  unfold State.tuneNoXo
  repeat' first
    | (extract_lets +onlyGivenNames u
       first
       | (refine Keeps.cut (u := u) ?_ (fun _ => ?_); subst u; on_goal 2 => clear_value u)
       | (have h := @id (_ → _) u; clear h; subst u)
       | clear_value u)
    | with_reducible assumption
    | (simp (decide := true) (maxDischargeDepth := 200) only [↓Keeps.refl, ↓Keeps.ite, ↓Keeps.mk,
      ↓State.missRuns_keeps, ↓State.showActs_keeps, ↓State.rxStop_keeps, ↓State.setJob_keeps, or_true, true_or,
      eq_self, *]; done)
    | split

theorem execTuneJobStart_keeps (temp : Int) (s : State) : Ends (Keeps
    0x1800000000000000000000000000000000000000000000000000000000000000000210000000000000000FFFFFFFF002007FD000000000000000001FFFFFF00013003000000000000000000000000000000040000000000000000000000000000065F0000000000000000000000000000391F00000000000000000000000000020000000000000000000000000000000000000000000000000000000000000000000000000000000000000000000000000000000000000000000000000000000000000000000000000000000000000000000000000000000000000000000000000000000000000000000000000000000000000000000000000000000000000000004100000000000000000000000000000001000000000020000006000000000100000000000000000000000000000000000000000000000000000000000000000000102FA081
    s) (execTuneJobStart temp s) := by
  unfold execTuneJobStart
  refine Ends.next ?_
  repeat' first
    | (extract_lets +onlyGivenNames u
       first
       | (refine Keeps.cut (u := u) ?_ (fun _ => ?_); subst u; on_goal 2 => clear_value u)
       | (have h := @id (_ → _) u; clear h; subst u)
       | clear_value u)
    | with_reducible assumption
    | (simp (decide := true) (maxDischargeDepth := 200) only [↓Keeps.next, ↓Keeps.endsIte, ↓Keeps.refl, ↓Keeps.ite,
      ↓Keeps.mk, ↓State.tuneNoXo_keeps, ↓State.put_keeps, ↓State.put32_keeps, ↓State.lfPick_keeps,
      ↓State.setJob_keeps, ↓State.setPath_keeps, ↓State.loadGains_keeps, ↓State.putBit_keeps, ↓State.synTo_keeps,
      or_true, true_or, eq_self, *]; done)
    | split

theorem execTuneLock_keeps (vtune : Nat) (s : State) : Ends (Keeps
    0x101000000000000000000000000000000010000000000000000000000000000000000000000000000000000000000000000000000000000000000000000000000000000000000000000000000000000000000000000000000000000000000000000000000000000000000000000000000000000000000000000000000000000000000000000000000000000000000000000000000000000000000000000000000000000000000000000000000000000000000000000000000000000000000000000000000000000000000000000000000000000000000000000000000000000000000010000
    s) (execTuneLock vtune s) := by
  unfold execTuneLock
  refine Ends.next ?_
  repeat' first
    | (extract_lets +onlyGivenNames u
       first
       | (refine Keeps.cut (u := u) ?_ (fun _ => ?_); subst u; on_goal 2 => clear_value u)
       | (have h := @id (_ → _) u; clear h; subst u)
       | clear_value u)
    | with_reducible assumption
    | (simp (decide := true) (maxDischargeDepth := 200) only [↓Keeps.next, ↓Keeps.endsIte, ↓Keeps.refl, ↓Keeps.ite,
      ↓Keeps.mk, ↓State.setJob_keeps, ↓State.put_keeps, or_true, true_or, eq_self, *]; done)
    | split

theorem State.surveyNext_keeps (s : State) (v : Nat) {μ : Nat} {σ : State} (hk : Keeps μ σ s) (hm : within?
    0x1800000000000000000000000000000000000000000000000000000000000000000210000000000000000FFFFFFFF002007FD000000000000000001FFFFFF0001300300000000000000000000000000000000000000000000000000000000000000010000000000000000000000000000010900000000000000000000000000000000000000000000000000000000000000000000000000000000000000000000000000000000000000000000000000000000000000000000000000000000000000000000000000000000000000000000000000000000000000000000000000000000000000000000000000000000000000000000000000000000000000000000000000000000000000000000000000000001000000000000000000000000000000000000000000000000000000000000000000000000000000000000000000000000003F0000
    μ = true) : Keeps μ σ (State.surveyNext s v) := by
  refine hk.lift hm ?_
  unfold State.surveyNext
  repeat' first
    | (extract_lets +onlyGivenNames u
       first
       | (refine Keeps.cut (u := u) ?_ (fun _ => ?_); subst u; on_goal 2 => clear_value u)
       | (have h := @id (_ → _) u; clear h; subst u)
       | clear_value u)
    | with_reducible assumption
    | (simp (decide := true) (maxDischargeDepth := 200) only [↓Keeps.refl, ↓Keeps.ite, ↓Keeps.mk,
      ↓State.rxStart_keeps, ↓State.rxStop_keeps, or_true, true_or, eq_self, *]; done)
    | split

theorem State.tuneFail_keeps (s : State) {μ : Nat} {σ : State} (hk : Keeps μ σ s) (hm : within?
    0x1800000000000000000000000000000000000000000000000000000000000000000210000000000000000FFFFFFFF002007FD000000000000000001FFFFFF0001300300000000000000000000000000000000000000000000000000000000000000010000000000000000000000000000410900000000000000000000000000020000000000000000000000000000000000000000000000000000000000000000000000000000000000000000000000000000000000000000000000000000000000000000000000000000000000000000000000000000000000000000000000000000000000000000000000000000000000000000000000000000000000000000004100000000000000000000000000000001000000000020000006000000000100000000000000000000000000000000000000000000000000000000000000000000103FA081
    μ = true) : Keeps μ σ (State.tuneFail s) := by
  refine hk.lift hm ?_
  unfold State.tuneFail
  repeat' first
    | (extract_lets +onlyGivenNames u
       first
       | (refine Keeps.cut (u := u) ?_ (fun _ => ?_); subst u; on_goal 2 => clear_value u)
       | (have h := @id (_ → _) u; clear h; subst u)
       | clear_value u)
    | with_reducible assumption
    | (simp (decide := true) (maxDischargeDepth := 200) only [↓Keeps.refl, ↓Keeps.ite, ↓Keeps.mk, ↓State.inc_keeps,
      ↓State.setJob_keeps, ↓State.pathOff_keeps, ↓State.surveyNext_keeps, ↓State.missRuns_keeps,
      ↓State.showActs_keeps, ↓State.rxStop_keeps, or_true, true_or, eq_self, *]; done)
    | split

theorem State.bandCal_keeps (s : State) (band : Nat) {μ : Nat} {σ : State} (hk : Keeps μ σ s) (hm : within?
    0x41000000000000000000000000000000010000000000000000000000000000000000000000000000000000000000000000000000000000000000000000000000000000000000000000000000000000000000000000000000000000000000000000000000000000000000000000000000000000000000000000000000000000000000000000000000000000000000000000000000000000000000000000000000000000000000000000000000000000000000000000000000000000000000000000000000000000000000000000000000000000000000000000000000000000000000010000
    μ = true) : Keeps μ σ (State.bandCal s band) := by
  refine hk.lift hm ?_
  unfold State.bandCal
  repeat' first
    | (extract_lets +onlyGivenNames u
       first
       | (refine Keeps.cut (u := u) ?_ (fun _ => ?_); subst u; on_goal 2 => clear_value u)
       | (have h := @id (_ → _) u; clear h; subst u)
       | clear_value u)
    | with_reducible assumption
    | (simp (decide := true) (maxDischargeDepth := 200) only [↓Keeps.refl, ↓Keeps.ite, ↓Keeps.mk, ↓State.setJob_keeps,
      ↓State.put_keeps, or_true, true_or, eq_self, *]; done)
    | split

theorem execTuneLockTimeout_keeps (band : Nat) (s : State) : Ends (Keeps
    0x1800000000000000000000000000000000000000000000000000000000000000000210000000000000000FFFFFFFF002007FD000000000000000001FFFFFF0001300300000000000000000000000000000000000000000000000000000000000000410000000000000000000000000000410900000000000000000000000000020000000000000000000000000000000000000000000000000000000000000000000000000000000000000000000000000000000000000000000000000000000000000000000000000000000000000000000000000000000000000000000000000000000000000000000000000000000000000000000000000000000000000000004100000000000000000000000000000001000000000020000006000000000100000000000000000000000000000000000000000000000000000000000000000000103FA081
    s) (execTuneLockTimeout band s) := by
  unfold execTuneLockTimeout
  refine Ends.next ?_
  repeat' first
    | (extract_lets +onlyGivenNames u
       first
       | (refine Keeps.cut (u := u) ?_ (fun _ => ?_); subst u; on_goal 2 => clear_value u)
       | (have h := @id (_ → _) u; clear h; subst u)
       | clear_value u)
    | with_reducible assumption
    | (simp (decide := true) (maxDischargeDepth := 200) only [↓Keeps.next, ↓Keeps.endsIte, ↓Keeps.refl, ↓Keeps.ite,
      ↓Keeps.mk, ↓State.tuneFail_keeps, ↓State.bandCal_keeps, or_true, true_or, eq_self, *]; done)
    | split

theorem State.setBases_keeps (s : State) (l : List Base) {μ : Nat} {σ : State} (hk : Keeps μ σ s) (hm : within?
    0x100000000000000000000000000000000000000000000000000000000000000000000000000000000000000000000000000000000000000000000000000000000000000000000000000000000000000000000000000000000000000000000000000000000000000000000000000000000000000000000000000000000000000000000000000000000000000000000000000000000000000000000000000000000000000000000000000000000000000000000000000000000000000000000000000000000000000000000000000000000000000010000
    μ = true) : Keeps μ σ (State.setBases s l) := by
  refine hk.lift hm ?_
  unfold State.setBases
  repeat' first
    | (extract_lets +onlyGivenNames u
       first
       | (refine Keeps.cut (u := u) ?_ (fun _ => ?_); subst u; on_goal 2 => clear_value u)
       | (have h := @id (_ → _) u; clear h; subst u)
       | clear_value u)
    | with_reducible assumption
    | (simp (decide := true) (maxDischargeDepth := 200) only [↓Keeps.refl, ↓Keeps.ite, ↓Keeps.mk, ↓State.putBit_keeps,
      or_true, true_or, eq_self, *]; done)
    | split

theorem State.learn_keeps (s : State) (kfc : Nat) (v : Int) (counts moves : Bool) {μ : Nat} {σ : State} (hk : Keeps μ
    σ s) (hm : within?
    0x100000000000000000000000000000000000000000000000000000000000000000000000000000000000000000000000000000000000000000000000000000000000000000000000000000000000000000000000000000000000000000000000000000000000000000000000000000000000000000000000000000000000000000000000000000000000000000000000000000000000000000000000000000000000000000000000000000000000000000000000000000000000000000000000000000000000000000000000000000000000000010000
    μ = true) : Keeps μ σ (State.learn s kfc v counts moves) := by
  refine hk.lift hm ?_
  unfold State.learn
  repeat' first
    | (extract_lets +onlyGivenNames u
       first
       | (refine Keeps.cut (u := u) ?_ (fun _ => ?_); subst u; on_goal 2 => clear_value u)
       | (have h := @id (_ → _) u; clear h; subst u)
       | clear_value u)
    | with_reducible assumption
    | (simp (decide := true) (maxDischargeDepth := 200) only [↓Keeps.refl, ↓Keeps.ite, ↓Keeps.mk,
      ↓State.setBases_keeps, or_true, true_or, eq_self, *]; done)
    | split

theorem State.setFlood_keeps (s : State) (v : Nat) {μ : Nat} {σ : State} (hk : Keeps μ σ s) (hm : within?
    0x100000000000000000000000000000000000000000000000000000000000000000000000000000000000000000000000000000000000000000000000000000000000000000000000000000000000000000000000000000000000000000000000000000000000000000000000000000000000000000000000000000000000000000000000000000000000000000000000000400000000000000000000000000000000000000000000000000000000000020000000000000000000000000000000000000000000000000000000000000000000000002081
    μ = true) : Keeps μ σ (State.setFlood s v) := by
  refine hk.lift hm ?_
  unfold State.setFlood
  repeat' first
    | (extract_lets +onlyGivenNames u
       first
       | (refine Keeps.cut (u := u) ?_ (fun _ => ?_); subst u; on_goal 2 => clear_value u)
       | (have h := @id (_ → _) u; clear h; subst u)
       | clear_value u)
    | with_reducible assumption
    | (simp (decide := true) (maxDischargeDepth := 200) only [↓Keeps.refl, ↓Keeps.ite, ↓Keeps.mk, ↓State.raise1_keeps,
      ↓State.put_keeps, or_true, true_or, eq_self, *]; done)
    | split

theorem State.showLfDev_keeps (s : State) {μ : Nat} {σ : State} (hk : Keeps μ σ s) (hm : within?
    0x200000000000000000000000000000000000000000000000000000000000000000000000000000000000000000000000000000000000000000000000000000000000000000000000000000000000000000000000000000000000000000000000000000000000000000000000000000000000000000000000000000000000000000000000000000000000000000000000000000000000000000000000000000000000000000000000000000000000000000000000000000000000000000000000000000000000000000000000000000000000000000000
    μ = true) : Keeps μ σ (State.showLfDev s) := by
  refine hk.lift hm ?_
  unfold State.showLfDev
  repeat' first
    | (extract_lets +onlyGivenNames u
       first
       | (refine Keeps.cut (u := u) ?_ (fun _ => ?_); subst u; on_goal 2 => clear_value u)
       | (have h := @id (_ → _) u; clear h; subst u)
       | clear_value u)
    | with_reducible assumption
    | (simp (decide := true) (maxDischargeDepth := 200) only [↓Keeps.refl, ↓Keeps.ite, ↓Keeps.mk, ↓State.put_keeps,
      or_true, true_or, eq_self, *]; done)
    | split

theorem State.floodEval_keeps (s : State) (base v : Int) {μ : Nat} {σ : State} (hk : Keeps μ σ s) (hm : within?
    0x300000000000000000000000000000000000000000000000000000000000000000000000000000000000000000000000000000000000000000000000000000000000000000000000000000000000000000000000000000000000000000000000000000000000000000000000000000000000000000000000000000000000000000000000000000000000000000000000000400000000000000000000000000000000000000000000000000000000000020000000000000000000000000000000000000000000000000000000000000000000000012081
    μ = true) : Keeps μ σ (State.floodEval s base v) := by
  refine hk.lift hm ?_
  unfold State.floodEval
  repeat' first
    | (extract_lets +onlyGivenNames u
       first
       | (refine Keeps.cut (u := u) ?_ (fun _ => ?_); subst u; on_goal 2 => clear_value u)
       | (have h := @id (_ → _) u; clear h; subst u)
       | clear_value u)
    | with_reducible assumption
    | (simp (decide := true) (maxDischargeDepth := 200) only [↓Keeps.refl, ↓Keeps.ite, ↓Keeps.mk,
      ↓State.showLfDev_keeps, ↓State.put_keeps, ↓State.setFlood_keeps, or_true, true_or, eq_self, *]; done)
    | split

theorem State.floodMeasure_keeps (s : State) (kfc : Nat) (v : Int) {μ : Nat} {σ : State} (hk : Keeps μ σ s) (hm :
    within?
    0x300000000000000000000000000000000000000000000000000000000000000000000000000000000000000000000000000000000000000000000000000000000000000000000000000000000000000000000000000000000000000000000000000000000000000000000000000000000000000000000000000000000000000000000000000000000000000000000000000400000000000000000000000000000000000000000000000000000000000020000000000000000000000000000000000000000000000000000000000000000000000012081
    μ = true) : Keeps μ σ (State.floodMeasure s kfc v) := by
  refine hk.lift hm ?_
  unfold State.floodMeasure
  repeat' first
    | (extract_lets +onlyGivenNames u
       first
       | (refine Keeps.cut (u := u) ?_ (fun _ => ?_); subst u; on_goal 2 => clear_value u)
       | (have h := @id (_ → _) u; clear h; subst u)
       | clear_value u)
    | with_reducible assumption
    | (simp (decide := true) (maxDischargeDepth := 200) only [↓Keeps.refl, ↓Keeps.ite, ↓Keeps.mk, ↓State.learn_keeps,
      ↓State.floodEval_keeps, or_true, true_or, eq_self, *]; done)
    | split

theorem execFloodUnknownTimeout_keeps (s : State) : Ends (Keeps
    0x100000000000000000000000000000000000000000000000000000000000000000000000000000000000000000000000000000000000000000000000000000000000000000000000000000000000000000000000000000000000000000000000000000000000000000000000000000000000000000000000000000000000000000000000000000000000000000000000000400000000000000000000000000000000000000000000000000000000000020000000000000000000000000000000000000000000000000000000000000000000000002081
    s) (execFloodUnknownTimeout s) := by
  unfold execFloodUnknownTimeout
  refine Ends.next ?_
  repeat' first
    | (extract_lets +onlyGivenNames u
       first
       | (refine Keeps.cut (u := u) ?_ (fun _ => ?_); subst u; on_goal 2 => clear_value u)
       | (have h := @id (_ → _) u; clear h; subst u)
       | clear_value u)
    | with_reducible assumption
    | (simp (decide := true) (maxDischargeDepth := 200) only [↓Keeps.next, ↓Keeps.endsIte, ↓Keeps.refl, ↓Keeps.ite,
      ↓Keeps.mk, ↓State.setFlood_keeps, or_true, true_or, eq_self, *]; done)
    | split

theorem State.relearn_keeps (s : State) {μ : Nat} {σ : State} (hk : Keeps μ σ s) (hm : within?
    0x100000000000000000000000000000000000000000000000000000000000000000000000000000000000000000000000000000000000000000000000000000000000000000000000000000000000000000000000000000000000000000000000000000000000000000000000000000000000000000000000000000000000000000000000000000000000000000000000000400000000000000000000000000000000000000000000000000000000000020000000000000000000000000000000000000000000000000000000000000000000000012081
    μ = true) : Keeps μ σ (State.relearn s) := by
  refine hk.lift hm ?_
  unfold State.relearn
  repeat' first
    | (extract_lets +onlyGivenNames u
       first
       | (refine Keeps.cut (u := u) ?_ (fun _ => ?_); subst u; on_goal 2 => clear_value u)
       | (have h := @id (_ → _) u; clear h; subst u)
       | clear_value u)
    | with_reducible assumption
    | (simp (decide := true) (maxDischargeDepth := 200) only [↓Keeps.refl, ↓Keeps.ite, ↓Keeps.mk,
      ↓State.setFlood_keeps, ↓State.setBases_keeps, or_true, true_or, eq_self, *]; done)
    | split

theorem execBaselineEntryDrop_keeps (kfc : Nat) (s : State) : Ends (Keeps
    0x100000000000000000000000000000000000000000000000000000000000000000000000000000000000000000000000000000000000000000000000000000000000000000000000000000000000000000000000000000000000000000000000000000000000000000000000000000000000000000000000000000000000000000000000000000000000000000000000000000000000000000000000000000000000000000000000000000000000000000000000000000000000000000000000000000000000000000000000000000000000000010000
    s) (execBaselineEntryDrop kfc s) := by
  unfold execBaselineEntryDrop
  refine Ends.next ?_
  repeat' first
    | (extract_lets +onlyGivenNames u
       first
       | (refine Keeps.cut (u := u) ?_ (fun _ => ?_); subst u; on_goal 2 => clear_value u)
       | (have h := @id (_ → _) u; clear h; subst u)
       | clear_value u)
    | with_reducible assumption
    | (simp (decide := true) (maxDischargeDepth := 200) only [↓Keeps.next, ↓Keeps.endsIte, ↓Keeps.refl, ↓Keeps.ite,
      ↓Keeps.mk, ↓State.setBases_keeps, or_true, true_or, eq_self, *]; done)
    | split

theorem execAgcSettled_keeps (rssi : Int) (lna ifGain lfGain : Nat) (s : State) : Ends (Keeps
    0x1800000000000000000000000000000000000000000000000000000000000000000210000000000000000FFFFFFFF002007FD000000000000000001FFFFFF0001300300000000000000000000000000000000000000000000000000000000000000010000000000000000000000000003391900000000000000000000000000000000000000000000000000000000000000000000000000000000000000000000000000000000000000000000000000000000000000000000000000000000000000000000000000000000000000000000000000000000000000000000000000000000000000000000000000000000000000000000000000000000000000000000004000000000000000000000000000000001000000000000000000000000000200000000000000000000000000000000000000000000000000000000000000000000003F2081
    s) (execAgcSettled rssi lna ifGain lfGain s) := by
  unfold execAgcSettled
  refine Ends.next ?_
  repeat' first
    | (extract_lets +onlyGivenNames u
       first
       | (refine Keeps.cut (u := u) ?_ (fun _ => ?_); subst u; on_goal 2 => clear_value u)
       | (have h := @id (_ → _) u; clear h; subst u)
       | clear_value u)
    | with_reducible assumption
    | (simp (decide := true) (maxDischargeDepth := 200) only [↓Keeps.next, ↓Keeps.endsIte, ↓Keeps.refl, ↓Keeps.ite,
      ↓Keeps.mk, ↓State.setJob_keeps, ↓State.setGains_keeps, ↓State.floodMeasure_keeps, ↓State.put_keeps,
      ↓State.surveyNext_keeps, or_true, true_or, eq_self, *]; done)
    | split

theorem execLossOfLock_keeps (s : State) : Ends (Keeps
    0x1000000000000000000000000000000090000000000000000000000000000000000000000000000000000000000000000000000000000000000000000000000000000000000000000000000000000000000000000000000000000000000000000000000000000000000000000000000000000000000000000000000000000000000000000000000000000000000000000000000000000000000000000000000000000000000000000000000000000000000000000000000000000000000000000000000000000000000000000000000000000000000000000000000000000000000030000
    s) (execLossOfLock s) := by
  unfold execLossOfLock
  refine Ends.next ?_
  repeat' first
    | (extract_lets +onlyGivenNames u
       first
       | (refine Keeps.cut (u := u) ?_ (fun _ => ?_); subst u; on_goal 2 => clear_value u)
       | (have h := @id (_ → _) u; clear h; subst u)
       | clear_value u)
    | with_reducible assumption
    | (simp (decide := true) (maxDischargeDepth := 200) only [↓Keeps.next, ↓Keeps.endsIte, ↓Keeps.refl, ↓Keeps.ite,
      ↓Keeps.mk, ↓State.put_keeps, ↓State.setJob_keeps, or_true, true_or, eq_self, *]; done)
    | split

theorem execListenJobRetry_keeps (s : State) : Ends (Keeps
    0x10000000000000000000000000000000000000000000000000000000000000000000000000000000000000000000000000000000000000000000000000000000000000000000000000000000000000000000000000000000000000000000000000000000000000000000000000000000000000000000000000000000000000000000000000000000000000000000000000000000000000000000000000000000000000000000000000000000000000000000000000000000000000000000000000000000000000000000000000000000000000000
    s) (execListenJobRetry s) := by
  unfold execListenJobRetry
  refine Ends.next ?_
  repeat' first
    | (extract_lets +onlyGivenNames u
       first
       | (refine Keeps.cut (u := u) ?_ (fun _ => ?_); subst u; on_goal 2 => clear_value u)
       | (have h := @id (_ → _) u; clear h; subst u)
       | clear_value u)
    | with_reducible assumption
    | (simp (decide := true) (maxDischargeDepth := 200) only [↓Keeps.next, ↓Keeps.endsIte, ↓Keeps.refl, ↓Keeps.ite,
      ↓Keeps.mk, ↓State.put_keeps, or_true, true_or, eq_self, *]; done)
    | split

theorem execRfSurvey_keeps (f : Fn) (idx : Nat) (s : State) : Ends (Keeps
    0x400000000000000000000000000000000000000000002000000000000000010000000000000000000000000000000000000000000000000000000000000000000000012081
    s) (execRfSurvey f idx s) := by
  unfold execRfSurvey
  refine Ends.next ?_
  repeat' first
    | (extract_lets +onlyGivenNames u
       first
       | (refine Keeps.cut (u := u) ?_ (fun _ => ?_); subst u; on_goal 2 => clear_value u)
       | (have h := @id (_ → _) u; clear h; subst u)
       | clear_value u)
    | with_reducible assumption
    | (simp (decide := true) (maxDischargeDepth := 200) only [↓Keeps.next, ↓Keeps.endsIte, ↓Keeps.refl, ↓Keeps.ite,
      ↓Keeps.mk, ↓State.deliver_keeps, or_true, true_or, eq_self, *]; done)
    | split

theorem State.afBack_keeps (s : State) {μ : Nat} {σ : State} (hk : Keeps μ σ s) (hm : within?
    0x65F000000000000000000000000000000010000000000000000000000000000000000000000000000000000000000000000000000000000000000000000000000000000000000000000000000000000000000000000000000000000000000000000000000000000000000000000000000000000000000000000000000000000000000000000000000000000000000000000000000000000000000000000000000000000000000000000000000000000000000000000000000000000000000000000000000000000000000000000000000000000000000000000000000000000000000010000
    μ = true) : Keeps μ σ (State.afBack s) := by
  refine hk.lift hm ?_
  unfold State.afBack
  repeat' first
    | (extract_lets +onlyGivenNames u
       first
       | (refine Keeps.cut (u := u) ?_ (fun _ => ?_); subst u; on_goal 2 => clear_value u)
       | (have h := @id (_ → _) u; clear h; subst u)
       | clear_value u)
    | with_reducible assumption
    | (simp (decide := true) (maxDischargeDepth := 200) only [↓Keeps.refl, ↓Keeps.ite, ↓Keeps.mk, ↓State.setJob_keeps,
      ↓State.synTo_keeps, or_true, true_or, eq_self, *]; done)
    | split

theorem State.afGo_keeps (s : State) (f : Fn) {μ : Nat} {σ : State} (hk : Keeps μ σ s) (hm : within?
    0x65F000000000000000000000000000001010000000000000000000000000000000000000000000000000000000000000000000000000000000000000000000000000000000000000000000000000000000000000000000000000000000000000000000000000000000000000000000000000000000000000000000000000000000000000000000000000000000000000000000000000000000000000000000000000000000000000000000000000000000000000000000000000000000000000020000000000000000000000000000000000000000000000000000000000000000000010000
    μ = true) : Keeps μ σ (State.afGo s f) := by
  refine hk.lift hm ?_
  unfold State.afGo
  repeat' first
    | (extract_lets +onlyGivenNames u
       first
       | (refine Keeps.cut (u := u) ?_ (fun _ => ?_); subst u; on_goal 2 => clear_value u)
       | (have h := @id (_ → _) u; clear h; subst u)
       | clear_value u)
    | with_reducible assumption
    | (simp (decide := true) (maxDischargeDepth := 200) only [↓Keeps.refl, ↓Keeps.ite, ↓Keeps.mk, ↓State.setErr_keeps,
      ↓State.setJob_keeps, ↓State.synTo_keeps, ↓State.put_keeps, or_true, true_or, eq_self, *]; done)
    | split

theorem State.afResult_keeps (s : State) (kfc : Nat) (rssi : Option Int) (us : Nat) {μ : Nat} {σ : State} (hk : Keeps
    μ σ s) (hm : within?
    0x303000000000000000000000000000000000000000000000000000000000000000000000000000000000000000000000000000000000000000000000000000000000000000000000000000000000000000000000000000000000000000000000000000000000000000000000000000000000000000000000000000000000000000000000000000000000000000000000000400000000000000000000000000000000000000000000000000000000000020000000000000000000000000000000000000000000000000000000000000000000000032081
    μ = true) : Keeps μ σ (State.afResult s kfc rssi us) := by
  refine hk.lift hm ?_
  unfold State.afResult
  repeat' first
    | (extract_lets +onlyGivenNames u
       first
       | (refine Keeps.cut (u := u) ?_ (fun _ => ?_); subst u; on_goal 2 => clear_value u)
       | (have h := @id (_ → _) u; clear h; subst u)
       | clear_value u)
    | with_reducible assumption
    | (simp (decide := true) (maxDischargeDepth := 200) only [↓Keeps.refl, ↓Keeps.ite, ↓Keeps.mk, ↓State.putSat_keeps,
      ↓State.floodMeasure_keeps, ↓State.put_keeps, or_true, true_or, eq_self, *]; done)
    | split

theorem execAfCheck_keeps (rssi : Option Int) (us : Nat) (s : State) : Ends (Keeps
    0x65F000000000000000000000000000303010000000000000000000000000000000000000000000000000000000000000000000000000000000000000000000000000000000000000000000000000000000000000000000000000000000000000000000000000000000000000000000000000000000000000000000000000000000000000000000000000000000000000000000000000000000000000000000000400000000000000000000000000000000000000000000000000000000000020000000000000000000000000000000000000000000000000000000000000000000000032081
    s) (execAfCheck rssi us s) := by
  unfold execAfCheck
  refine Ends.next ?_
  repeat' first
    | (extract_lets +onlyGivenNames u
       first
       | (refine Keeps.cut (u := u) ?_ (fun _ => ?_); subst u; on_goal 2 => clear_value u)
       | (have h := @id (_ → _) u; clear h; subst u)
       | clear_value u)
    | with_reducible assumption
    | (simp (decide := true) (maxDischargeDepth := 200) only [↓Keeps.next, ↓Keeps.endsIte, ↓Keeps.refl, ↓Keeps.ite,
      ↓Keeps.mk, ↓State.afBack_keeps, ↓State.put_keeps, ↓State.afResult_keeps, or_true, true_or, eq_self, *]; done)
    | split

theorem State.rawTouch_keeps (s : State) {μ : Nat} {σ : State} (hk : Keeps μ σ s) (hm : within?
    0x100000000000000000000000000000001000000000000000000000000000000000000000000000000000000000000065F0000000000000000000000000000810100000000000000000000000000000000000000000000000000000000000000000000000000000000000000000000000000000000000000000000000000000000000000000000000000000000000000000000000000000000000000000000000000000000000000000000000000000000000000000000000000000000000000000000000000000000000000000000000000000000000000000000000000000000000000000000000006000000000000000000000000000000000000000000000000000000000000000000000000000000100FA000
    μ = true) : Keeps μ σ (State.rawTouch s) := by
  refine hk.lift hm ?_
  unfold State.rawTouch
  repeat' first
    | (extract_lets +onlyGivenNames u
       first
       | (refine Keeps.cut (u := u) ?_ (fun _ => ?_); subst u; on_goal 2 => clear_value u)
       | (have h := @id (_ → _) u; clear h; subst u)
       | clear_value u)
    | with_reducible assumption
    | (simp (decide := true) (maxDischargeDepth := 200) only [↓Keeps.refl, ↓Keeps.ite, ↓Keeps.mk,
      ↓State.chargeOpen_keeps, ↓State.inc_keeps, ↓State.put_keeps, ↓State.afBack_keeps, or_true, true_or, eq_self,
      *]; done)
    | split

theorem State.synApply_keeps (s : State) {μ : Nat} {σ : State} (hk : Keeps μ σ s) (hm : within?
    0x100000000000000000000000000000001000000000000000000000000000000000000000000000000000000000000065F0000000000000000000000000000810100000000000000000000000000000000000000000000000000000000000000000000000000000000000000000000000000000000000000000000000000000000000000000000000000000000000000000000000000000000000000000000000000000000000000000000000000000000000000000000000000000000000000000000000000000000000000000000000000000000000000000000000000000000000000000000000006000000000000000000000000000000000000000000000000000000000000000000000000000000100FA000
    μ = true) : Keeps μ σ (State.synApply s) := by
  refine hk.lift hm ?_
  unfold State.synApply
  repeat' first
    | (extract_lets +onlyGivenNames u
       first
       | (refine Keeps.cut (u := u) ?_ (fun _ => ?_); subst u; on_goal 2 => clear_value u)
       | (have h := @id (_ → _) u; clear h; subst u)
       | clear_value u)
    | with_reducible assumption
    | (simp (decide := true) (maxDischargeDepth := 200) only [↓Keeps.refl, ↓Keeps.ite, ↓Keeps.mk,
      ↓State.rawTouch_keeps, ↓State.put_keeps, ↓State.put32_keeps, or_true, true_or, eq_self, *]; done)
    | split

theorem State.putMasked_keeps (s : State) (key mask v : Nat) {μ : Nat} {σ : State} (hk : Keeps μ σ s)
    (hm : within? 0x38000000000000000000000000000000000000000000000000000000000000000000000000000000000000000000000000000000000000000000000000000000000000000000000000000000000000000000000000000000000000000000000000000000000000000000000000000000000000000000000000000000000000000000000000000000000000000000000000000000000000000000000000000000000000000000000000000000000000000000000000000000000000000000000000000000000000000000000000000000000000000000 μ = true) (hx : FES_RAW_LNA.w.key ≤ key ∧ key ≤ FES_RAW_LFPGA.w.key) :
    Keeps μ σ (State.putMasked s key mask v) := by
  refine hk.lift hm ?_
  have h1 : FES_RAW_LNA.w.key = 0xB8B := by decide
  have h2 : FES_RAW_LFPGA.w.key = 0xB8D := by decide
  rw [h1, h2] at hx
  have h := (by decide : ∀ i < 3, regIn 0x38000000000000000000000000000000000000000000000000000000000000000000000000000000000000000000000000000000000000000000000000000000000000000000000000000000000000000000000000000000000000000000000000000000000000000000000000000000000000000000000000000000000000000000000000000000000000000000000000000000000000000000000000000000000000000000000000000000000000000000000000000000000000000000000000000000000000000000000000000000000000000000 (0xB8B + i) = true) (key - 0xB8B) (by omega)
  rw [show 0xB8B + (key - 0xB8B) = key by omega] at h
  unfold State.putMasked
  simp (decide := true) (maxDischargeDepth := 200) only [↓Keeps.refl, ↓Keeps.ite, ↓State.setReg_keeps, h]

theorem State.rawWrite_keeps (s : State) (key : Nat) (v : Word) {μ : Nat} {σ : State} (hk : Keeps μ σ s) (hm :
    within?
    0x100000000000000000000000000000001000000000000000000000000000000000000000000000000000000000000065F0000000000000000000000000000B91100000000000000000000000000000000000000000000000000000000000000000000000000000000000000000000000000000000000000000000000000000000000000000000000000000000000000000000000000000000000000000000000000000000000000000000000000000000000000000000000000000000000000000000000000000000000000000000000000000000000000000000000000000000000000000000000006000000000000000000000000000000000000000000000000000000000000000000000000000000100FA000
    μ = true) (hx : FES_RAW_LNA.w.key ≤ key ∧ key ≤ FES_RAW_LFPGA.w.key) : Keeps μ σ (State.rawWrite s key v) := by
  refine hk.lift hm ?_
  unfold State.rawWrite
  repeat' first
    | (extract_lets +onlyGivenNames u
       first
       | (refine Keeps.cut (u := u) ?_ (fun _ => ?_); subst u; on_goal 2 => clear_value u)
       | (have h := @id (_ → _) u; clear h; subst u)
       | clear_value u)
    | with_reducible assumption
    | (simp (decide := true) (maxDischargeDepth := 200) only [↓Keeps.refl, ↓Keeps.ite, ↓State.putMasked_keeps,
      ↓State.put_keeps, ↓State.rawTouch_keeps, hx, *]; done)
    | split

theorem State.holdStart_keeps (s : State) {μ : Nat} {σ : State} (hk : Keeps μ σ s) (hm : within?
    0x1800000000000000000000000000000000000000000000000000000000000000000210000000000000000FFFFFFFF002007FD000000000000000001FFFFFF00013003000000000000000000000000000000000000000000000000000000000000065F0000000000000000000000000000810900000000000000000000000000020000000000000000000000000000000000000000000000000000000000000000000000000000000000000000000000000000000000000000000000000000000000000000000000000000000000000000000000000000000000000000000000000000000000000000000000000000000000000000000000000000000000000000004100000000000000000000000000000001000000000020000006020000000100000000000000000000000000000000000000000000000000000000000000000000102FE081
    μ = true) : Keeps μ σ (State.holdStart s) := by
  refine hk.lift hm ?_
  unfold State.holdStart
  repeat' first
    | (extract_lets +onlyGivenNames u
       first
       | (refine Keeps.cut (u := u) ?_ (fun _ => ?_); subst u; on_goal 2 => clear_value u)
       | (have h := @id (_ → _) u; clear h; subst u)
       | clear_value u)
    | with_reducible assumption
    | (simp (decide := true) (maxDischargeDepth := 200) only [↓Keeps.refl, ↓Keeps.ite, ↓Keeps.mk,
      ↓State.rawTouch_keeps, ↓State.pauseListen_keeps, ↓State.setJob_keeps, ↓State.rxStop_keeps,
      ↓State.showActs_keeps, ↓State.setPath_keeps, ↓State.put_keeps, implies_true, or_true, true_or, eq_self,
      *]; done)
    | (with_reducible refine State.eachFn_keeps _ _ _ ?_ (fun _ _ => ?_) <;> beta_reduce)
    | (with_reducible refine State.rawTouch_keeps _ ?_ (by decide))
    | (with_reducible refine State.pauseListen_keeps _ _ ?_ (by decide))
    | (with_reducible refine State.setJob_keeps _ _ ?_ (by decide))
    | (with_reducible refine State.rxStop_keeps _ ?_ (by decide))
    | (with_reducible refine State.showActs_keeps _ ?_ (by decide))
    | (with_reducible refine State.setPath_keeps _ _ ?_ (by decide))
    | (with_reducible refine State.put_keeps _ _ _ ?_ (by decide))
    | split

theorem State.holdEnd_keeps (s : State) {μ : Nat} {σ : State} (hk : Keeps μ σ s) (hm : within?
    0x210000000000000000FFFFFFFF002007FD000000000000000001FFFFFF0001300300000000000000000000000000000000000000000000000000000000000000010000000000000000000000000000000900000000000000000000000000020000000000000000000000000000000000000000000000000000000000000000000000000000000000000000000000000000000000000000000000000000000000000000000000000000000000000000000000000000000000000000000000000000000000000000000000000000000000000000000000000000000000000000004100000000000000000000000000000001000000000020000006020000000100000000000000000000000000000000000000000000000000000000000000000000101FE081
    μ = true) : Keeps μ σ (State.holdEnd s) := by
  refine hk.lift hm ?_
  unfold State.holdEnd
  repeat' first
    | (extract_lets +onlyGivenNames u
       first
       | (refine Keeps.cut (u := u) ?_ (fun _ => ?_); subst u; on_goal 2 => clear_value u)
       | (have h := @id (_ → _) u; clear h; subst u)
       | clear_value u)
    | with_reducible assumption
    | (simp (decide := true) (maxDischargeDepth := 200) only [↓Keeps.refl, ↓Keeps.ite, ↓Keeps.mk,
      ↓State.chargeOpen_keeps, ↓State.pathOff_keeps, ↓State.put_keeps, ↓State.showActs_keeps,
      ↓State.resumeListen_keeps, implies_true, or_true, true_or, eq_self, *]; done)
    | (with_reducible refine State.eachFn_keeps _ _ _ ?_ (fun _ _ => ?_) <;> beta_reduce)
    | (with_reducible refine State.chargeOpen_keeps _ _ ?_ (by decide))
    | (with_reducible refine State.pathOff_keeps _ ?_ (by decide))
    | (with_reducible refine State.put_keeps _ _ _ ?_ (by decide))
    | (with_reducible refine State.showActs_keeps _ ?_ (by decide))
    | (with_reducible refine State.resumeListen_keeps _ _ ?_ (by decide))
    | split

theorem State.holdDue_keeps (s : State) {μ : Nat} {σ : State} (hk : Keeps μ σ s) (hm : within?
    0x1800000000000000000000000000000000000000000000000000000000000000000210000000000000000FFFFFFFF002007FD000000000000000001FFFFFF00013003000000000000000000000000000000000000000000000000000000000000065F0000000000000000000000000000810900000000000000000000000000020000000000000000000000000000000000000000000000000000000000000000000000000000000000000000000000000000000000000000000000000000000000000000000000000000000000000000000000000000000000000000000000000000000000000000000000000000000000000000000000000000000000000000004100000000000000000000000000000001000000000020000006020000000100000000000000000000000000000000000000000000000000000000000000000000102FE081
    μ = true) : Keeps μ σ (State.holdDue s) := by
  refine hk.lift hm ?_
  unfold State.holdDue
  repeat' first
    | (extract_lets +onlyGivenNames u
       first
       | (refine Keeps.cut (u := u) ?_ (fun _ => ?_); subst u; on_goal 2 => clear_value u)
       | (have h := @id (_ → _) u; clear h; subst u)
       | clear_value u)
    | with_reducible assumption
    | (simp (decide := true) (maxDischargeDepth := 200) only [↓Keeps.refl, ↓Keeps.ite, ↓Keeps.mk,
      ↓State.holdStart_keeps, or_true, true_or, eq_self, *]; done)
    | split

theorem State.rawCtl_keeps (s : State) (v : Word) {μ : Nat} {σ : State} (hk : Keeps μ σ s) (hm : within?
    0x1800000000000000000000000000000000000000000000000000000000000000000210000000000000000FFFFFFFF002007FD000000000000000001FFFFFF00013003000000000000000000000000000000000000000000000000000000000000065F0000000000000000000000000000850900000000000000000000000000020000000000000000000000000000000000000000000000000000000000000000000000000000000000000000000000000000000000000000000000000000000000000000000000000000000000000000000000000000000000000000000000000000000000000000000000000000000000000000000000000000000000000000004100000000000000000000000000000001000000000020000006020000000100000000000000000000000000000000000000000000000000000000000000000000103FE081
    μ = true) : Keeps μ σ (State.rawCtl s v) := by
  refine hk.lift hm ?_
  unfold State.rawCtl
  repeat' first
    | (extract_lets +onlyGivenNames u
       first
       | (refine Keeps.cut (u := u) ?_ (fun _ => ?_); subst u; on_goal 2 => clear_value u)
       | (have h := @id (_ → _) u; clear h; subst u)
       | clear_value u)
    | with_reducible assumption
    | (simp (decide := true) (maxDischargeDepth := 200) only [↓Keeps.refl, ↓Keeps.ite, ↓Keeps.mk, ↓State.put_keeps,
      ↓State.setPath_keeps, ↓State.holdStart_keeps, ↓State.holdEnd_keeps, or_true, true_or, eq_self, *]; done)
    | split

theorem State.calPath_keeps (s : State) {μ : Nat} {σ : State} (hk : Keeps μ σ s) (hm : within?
    0x10000000000000000000000000000000000000000000000000000000000000000000000000000000000000000000000000000000000000000000000000000000000000000000000000000000000000000000000000000000000000000000000000000000000000000000000000000000000000000000000000000000000000000000000000000000000000000000000000000000000000000000000000000000100000000000000000000000000000000000000000000000000000000000000000000000000000000000000000000000010000000
    μ = true) : Keeps μ σ (State.calPath s) := by
  refine hk.lift hm ?_
  unfold State.calPath
  repeat' first
    | (extract_lets +onlyGivenNames u
       first
       | (refine Keeps.cut (u := u) ?_ (fun _ => ?_); subst u; on_goal 2 => clear_value u)
       | (have h := @id (_ → _) u; clear h; subst u)
       | clear_value u)
    | with_reducible assumption
    | (simp (decide := true) (maxDischargeDepth := 200) only [↓Keeps.refl, ↓Keeps.ite, ↓Keeps.mk, ↓State.fresh_snd,
      ↓State.setPath_keeps, or_true, true_or, eq_self, *]; done)
    | (split <;>
        (rename_i e
         refine Keeps.cut (State.fresh_out (by with_reducible exact e) ?_ (by decide)) (fun _ => ?_) <;> clear e))
    | (with_reducible refine State.fresh_snd _ ?_ (by decide))
    | (with_reducible refine State.setPath_keeps _ _ ?_ (by decide))
    | split

theorem State.calStart_keeps (s : State) (mask : Nat) (op : Bool) {μ : Nat} {σ : State} (hk : Keeps μ σ s) (hm :
    within?
    0x100000000000000000000000000000000000000000000000000000000000000010000000000000000000000000000000000000000000000000000000000000000000000000000000000000000000000000000000000000000000000000000000000000000000000000000000000000000000000000000000000000000000000000000000000000000000000000000000000000000000000000000000000000000000000000000000000000000000000010000000000000000000000000000000100000000000000000000000000000000000000000000000000000000000000000000000000000000000000000000000010010000
    μ = true) : Keeps μ σ (State.calStart s mask op) := by
  refine hk.lift hm ?_
  unfold State.calStart
  repeat' first
    | (extract_lets +onlyGivenNames u
       first
       | (refine Keeps.cut (u := u) ?_ (fun _ => ?_); subst u; on_goal 2 => clear_value u)
       | (have h := @id (_ → _) u; clear h; subst u)
       | clear_value u)
    | with_reducible assumption
    | (simp (decide := true) (maxDischargeDepth := 200) only [↓Keeps.refl, ↓Keeps.ite, ↓Keeps.mk, ↓State.put_keeps,
      ↓State.showMaintain_keeps, ↓State.calPath_keeps, or_true, true_or, eq_self, *]; done)
    | split

theorem execCalRun_keeps (f : Fn) (s : State) : Ends (Keeps
    0x100000000000000000000000000000000000000000000000000000000000000010000000000000000000000000000000000000000000000000000000000000000000000000000000000000000000000000000000000000000000000000000000000000000000000000000000000000000000000000000000000000000000000000000000000000000000000000000000000000000000000000000000000000000000000000000000000000000000000010000000000000000000000000000000100000000000000000000000000000000000000000000000000000000000000000000000000000000000000000000000010012000
    s) (execCalRun f s) := by
  unfold execCalRun
  refine Ends.next ?_
  repeat' first
    | (extract_lets +onlyGivenNames u
       first
       | (refine Keeps.cut (u := u) ?_ (fun _ => ?_); subst u; on_goal 2 => clear_value u)
       | (have h := @id (_ → _) u; clear h; subst u)
       | clear_value u)
    | with_reducible assumption
    | (simp (decide := true) (maxDischargeDepth := 200) only [↓Keeps.next, ↓Keeps.endsIte, ↓Keeps.refl, ↓Keeps.ite,
      ↓Keeps.mk, ↓State.outcome_keeps, ↓State.calStart_keeps, implies_true, or_true, true_or, eq_self, *]; done)
    | (with_reducible refine State.withOp_keeps _ _ _ _ ?_ (fun _ => ?_) <;> beta_reduce)
    | (with_reducible refine State.outcome_keeps _ _ _ _ ?_ (by decide))
    | (with_reducible refine State.calStart_keeps _ _ _ ?_ (by decide))
    | split

theorem State.showCalAge_keeps (s : State) {μ : Nat} {σ : State} (hk : Keeps μ σ s) (hm : within?
    0x1000000000000000000000000000000000000000000000000000000000000000000000000000000000000000000000000000000000000000000000000000000000000000000000000000000000000000000000000000000000000000000000000000000000000000000000000000000000000000000000000000000000000000000000000000000000000000000000000000000000000000000000000000000000000000000000000000000000000000000000000000000000000000000000000000000000000000000000000000000000000000000000000000000000000000000000000000000000000000000000000000000000
    μ = true) : Keeps μ σ (State.showCalAge s) := by
  refine hk.lift hm ?_
  unfold State.showCalAge
  repeat' first
    | (extract_lets +onlyGivenNames u
       first
       | (refine Keeps.cut (u := u) ?_ (fun _ => ?_); subst u; on_goal 2 => clear_value u)
       | (have h := @id (_ → _) u; clear h; subst u)
       | clear_value u)
    | with_reducible assumption
    | (simp (decide := true) (maxDischargeDepth := 200) only [↓Keeps.refl, ↓Keeps.ite, ↓Keeps.mk, ↓State.putSat_keeps,
      ↓State.put_keeps, or_true, true_or, eq_self, *]; done)
    | split

theorem State.calEnd_keeps (s : State) (mask : Nat) (op : Bool) (good margin ms : Nat) (temp : Int) (bands : List Nat)
    {μ : Nat} {σ : State} (hk : Keeps μ σ s) (hm : within?
    0x1800000000000000000000000000000000000000000000000000000000000000000210000000000000000FFFFFFFF002007FD000000000000000001FFFFFF00013003000000000000000000000000000001FD0000000000000000000000000000065F0000000000000000000000000000810900000000000000000000000000020000000000000000000000000000000000000000000000000000000000000000000000000000000000000000000000000000000000000000000000000000000000000000000000000000000000000000000000000000000000000000000000000000000000000000000000000000000000000000000000000000000000000000004100000000000000000000000000000001000000000020000006020000000300000000000000000000000000000000000000000000000000000000000000000000102FE081
    μ = true) : Keeps μ σ (State.calEnd s mask op good margin ms temp bands) := by
  refine hk.lift hm ?_
  unfold State.calEnd
  repeat' first
    | (extract_lets +onlyGivenNames u
       first
       | (refine Keeps.cut (u := u) ?_ (fun _ => ?_); subst u; on_goal 2 => clear_value u)
       | (have h := @id (_ → _) u; clear h; subst u)
       | clear_value u)
    | with_reducible assumption
    | (simp (decide := true) (maxDischargeDepth := 200) only [↓Keeps.refl, ↓Keeps.ite, ↓Keeps.mk, ↓State.put_keeps,
      ↓State.inc_keeps, ↓State.putSat_keeps, ↓State.pathOff_keeps, ↓State.showCalAge_keeps, ↓State.chargeOpen_keeps,
      ↓State.showMaintain_keeps, ↓State.raise1_keeps, ↓State.outcome_keeps, ↓State.holdDue_keeps, or_true, true_or,
      eq_self, *]; done)
    | split

theorem execCalDone_keeps (good margin ms : Nat) (temp : Int) (bands : List Nat) (s : State) : Ends (Keeps
    0x1800000000000000000000000000000000000000000000000000000000000000000210000000000000000FFFFFFFF002007FD000000000000000001FFFFFF00013003000000000000000000000000000001FD0000000000000000000000000000065F0000000000000000000000000000810900000000000000000000000000020000000000000000000000000000000000000000000000000000000000000000000000000000000000000000000000000000000000000000000000000000000000000000000000000000000000000000000000000000000000000000000000000000000000000000000000000000000000000000000000000000000000000000004100000000000000000000000000000001000000000020000006020000000300000000000000000000000000000000000000000000000000000000000000000000102FE081
    s) (execCalDone good margin ms temp bands s) := by
  unfold execCalDone
  refine Ends.next ?_
  repeat' first
    | (extract_lets +onlyGivenNames u
       first
       | (refine Keeps.cut (u := u) ?_ (fun _ => ?_); subst u; on_goal 2 => clear_value u)
       | (have h := @id (_ → _) u; clear h; subst u)
       | clear_value u)
    | with_reducible assumption
    | (simp (decide := true) (maxDischargeDepth := 200) only [↓Keeps.next, ↓Keeps.endsIte, ↓Keeps.refl, ↓Keeps.ite,
      ↓Keeps.mk, ↓State.calEnd_keeps, or_true, true_or, eq_self, *]; done)
    | split

theorem execAutoPend_keeps (s : State) : Ends (Keeps
    0x1100000000000000000000000000000000000000000000000000000000000000000000000000000000000000000000000000000000000000000000000000000000000000000000000000000000000000000000000000000000000000000000000000000000000000000000000000000000000000000000000000000000000000000000000000000000000000000000000000000000000000000000000000000000000000000000000000000000000000000000000000000000000000000000000000000000000000000000000000000000000000000000000000000000000000000000000000000000000000000000000000000000
    s) (execAutoPend s) := by
  unfold execAutoPend
  refine Ends.next ?_
  repeat' first
    | (extract_lets +onlyGivenNames u
       first
       | (refine Keeps.cut (u := u) ?_ (fun _ => ?_); subst u; on_goal 2 => clear_value u)
       | (have h := @id (_ → _) u; clear h; subst u)
       | clear_value u)
    | with_reducible assumption
    | (simp (decide := true) (maxDischargeDepth := 200) only [↓Keeps.next, ↓Keeps.endsIte, ↓Keeps.refl, ↓Keeps.ite,
      ↓Keeps.mk, ↓State.showCalAge_keeps, ↓State.put_keeps, or_true, true_or, eq_self, *]; done)
    | split

theorem execAutoCalStart_keeps (s : State) : Ends (Keeps
    0x100000000000000000000000000000000000000000000000000000000000000010000000000000000000000000000000000000000000000000000000000000000000000000000000000000000000000000000000000000000000000000000000000000000000000000000000000000000000000000000000000000000000000000000000000000000000000000000000000000000000000000000000000000000000000000000000000000000000000010000000000000000000000000000000100000000000000000000000000000000000000000000000000000000000000000000000000000000000000000000000010010000
    s) (execAutoCalStart s) := by
  unfold execAutoCalStart
  refine Ends.next ?_
  repeat' first
    | (extract_lets +onlyGivenNames u
       first
       | (refine Keeps.cut (u := u) ?_ (fun _ => ?_); subst u; on_goal 2 => clear_value u)
       | (have h := @id (_ → _) u; clear h; subst u)
       | clear_value u)
    | with_reducible assumption
    | (simp (decide := true) (maxDischargeDepth := 200) only [↓Keeps.next, ↓Keeps.endsIte, ↓Keeps.refl, ↓Keeps.ite,
      ↓Keeps.mk, ↓State.calStart_keeps, ↓State.put_keeps, or_true, true_or, eq_self, *]; done)
    | split

theorem State.rssiUpdate_keeps (s : State) (lf : Bool) {μ : Nat} {σ : State} (hk : Keeps μ σ s) (hm : within?
    0x80000000000000000000000000000000000000000000000000000000000000000000000000000000000000000000000000000000000000000000000000000000000000000000000000000000000000000000000000000000000000000000000000000000000000000000000000000000000000000000000000000000000000000000000000000000000000000000000000000000000000000000000000000000000000000000000000000000000000000000000000000000000000000000000000000000000000000000000000000000010000000
    μ = true) : Keeps μ σ (State.rssiUpdate s lf) := by
  refine hk.lift hm ?_
  unfold State.rssiUpdate
  repeat' first
    | (extract_lets +onlyGivenNames u
       first
       | (refine Keeps.cut (u := u) ?_ (fun _ => ?_); subst u; on_goal 2 => clear_value u)
       | (have h := @id (_ → _) u; clear h; subst u)
       | clear_value u)
    | with_reducible assumption
    | (simp (decide := true) (maxDischargeDepth := 200) only [↓Keeps.refl, ↓Keeps.ite, ↓Keeps.mk, ↓State.fresh_snd,
      ↓State.put_keeps, or_true, true_or, eq_self, *]; done)
    | (split <;>
        (rename_i e
         refine Keeps.cut (State.fresh_out (by with_reducible exact e) ?_ (by decide)) (fun _ => ?_) <;> clear e))
    | (with_reducible refine State.fresh_snd _ ?_ (by decide))
    | (with_reducible refine State.put_keeps _ _ _ ?_ (by decide))
    | split

theorem State.agcMove_keeps (s : State) (b : Nat) {μ : Nat} {σ : State} (hk : Keeps μ σ s) (hm : within?
    0x38100000000000000000000000000000000000000000000000000000000000000000000000000000000000000000000000000000000000000000000000000000000000000000000000000000000000000000000000000000000000000000000000000000000000000000000000000000000000000000000000000000000000000000000000000000000000000000000000000000000000000000000000000000000000000000000000000000000000000000000000000000000000000000000000000000000000000000000000000000000010000000
    μ = true) : Keeps μ σ (State.agcMove s b) := by
  refine hk.lift hm ?_
  unfold State.agcMove
  repeat' first
    | (extract_lets +onlyGivenNames u
       first
       | (refine Keeps.cut (u := u) ?_ (fun _ => ?_); subst u; on_goal 2 => clear_value u)
       | (have h := @id (_ → _) u; clear h; subst u)
       | clear_value u)
    | with_reducible assumption
    | (simp (decide := true) (maxDischargeDepth := 200) only [↓Keeps.refl, ↓Keeps.ite, ↓Keeps.mk, ↓State.fresh_snd,
      ↓State.setGains_keeps, or_true, true_or, eq_self, *]; done)
    | (split <;>
        (rename_i e
         refine Keeps.cut (State.fresh_out (by with_reducible exact e) ?_ (by decide)) (fun _ => ?_) <;> clear e))
    | (with_reducible refine State.fresh_snd _ ?_ (by decide))
    | (with_reducible refine State.setGains_keeps _ _ _ _ ?_ (by decide))
    | split

theorem State.frontTick_keeps (s : State) {μ : Nat} {σ : State} (hk : Keeps μ σ s) (hm : within?
    0x38190000000000000000000000000000000000000000000000000000000000000000000000000000000000000000000000000000000000000000000000000000000000000000000000000000000000000000000000000000000000000000000000000000000000000000000000000000000000000000000000000000000000000000000000000000000000000000000000000000000000000000000000000000000100000000000000000000000000000000000000000000000000000000000000000000000000000000000000000000000010010000
    μ = true) : Keeps μ σ (State.frontTick s) := by
  refine hk.lift hm ?_
  unfold State.frontTick
  repeat' first
    | (extract_lets +onlyGivenNames u
       first
       | (refine Keeps.cut (u := u) ?_ (fun _ => ?_); subst u; on_goal 2 => clear_value u)
       | (have h := @id (_ → _) u; clear h; subst u)
       | clear_value u)
    | with_reducible assumption
    | (simp (decide := true) (maxDischargeDepth := 200) only [↓Keeps.refl, ↓Keeps.ite, ↓Keeps.mk,
      ↓State.calPath_keeps, ↓State.rssiUpdate_keeps, ↓State.setJob_keeps, ↓State.agcMove_keeps, or_true, true_or,
      eq_self, *]; done)
    | split

end Sys2Proof.Machine
end

