-- ==== Sys2Proof/Laws/KeepsTimeline.lean ====
section
/-! SUPPORT. What each operation of Machine/Timeline.lean may change, and that it keeps the canonical form. -/

set_option Elab.async false

set_option linter.unusedSimpArgs false
set_option linter.unusedTactic false
set_option linter.unreachableTactic false

namespace Sys2Proof.Machine

open R

theorem State.showUse_keeps (s : State) (cs : List (Placed × Nat × Rat × Rat)) (c : Nat) {μ : Nat} {σ : State} (hk :
    Keeps μ σ s) (hm : within?
    0x400000000000000000000000000000000000000000000000000000000000000000000000000000000000000000000000000000000000000000000000000000000000000000000000000000000000000000000000000000000000000000000000000000000000000000000000000000000000000000000000000000000000000000000000000000000000000000000000000000000000000000000180000000000000000000000000000000000000000000000000000000000000000000000000000000000000
    μ = true) : Keeps μ σ (State.showUse s cs c) := by
  refine hk.lift hm ?_
  unfold State.showUse
  repeat' first
    | (extract_lets +onlyGivenNames u
       first
       | (refine Keeps.cut (u := u) ?_ (fun _ => ?_); subst u; on_goal 2 => clear_value u)
       | (have h := @id (_ → _) u; clear h; subst u)
       | clear_value u)
    | with_reducible assumption
    | (simp (decide := true) (maxDischargeDepth := 200) only [↓Keeps.refl, ↓Keeps.ite, ↓Keeps.mk, ↓Keeps.foldl,
      ↓State.fput_keeps, ↓State.put_keeps, implies_true, regIn_on, or_true, true_or, eq_self, *]; done)
    | (with_reducible refine Keeps.foldl (fun _ _ => ?_) ?_ <;> beta_reduce)
    | (with_reducible refine State.eachFn_keeps _ _ _ ?_ (fun _ _ => ?_) <;> beta_reduce)
    | (with_reducible refine State.fput_keeps _ _ _ _ ?_ (by decide))
    | (with_reducible refine State.put_keeps _ _ _ ?_ (by decide))
    | split

theorem State.retime_keeps (s : State) {μ : Nat} {σ : State} (hk : Keeps μ σ s) (hm : within? 0x8000 μ = true) : Keeps
    μ σ (State.retime s) := by
  refine hk.lift hm ?_
  unfold State.retime
  repeat' first
    | (extract_lets +onlyGivenNames u
       first
       | (refine Keeps.cut (u := u) ?_ (fun _ => ?_); subst u; on_goal 2 => clear_value u)
       | (have h := @id (_ → _) u; clear h; subst u)
       | clear_value u)
    | with_reducible assumption
    | (simp (decide := true) (maxDischargeDepth := 200) only [↓Keeps.refl, ↓Keeps.ite, ↓Keeps.mk, or_true, true_or,
      eq_self, *]; done)
    | split

theorem State.skipPassed_keeps (s : State) (old : Nat) {μ : Nat} {σ : State} (hk : Keeps μ σ s) (hm : within?
    0x2000000000000000000000000000000000000000000000000000000000000000000000000000000000000000000000000000000000000000000000000000000000000000000000000000000000000000000000000000000000000000000000000000000000000000000000000000000000000000000000000000000000000000000400000000000000000000000000000000000000000002000000000000000010000000000000000000000000000000000000000000000000000000000000000000000006081
    μ = true) : Keeps μ σ (State.skipPassed s old) := by
  refine hk.lift hm ?_
  unfold State.skipPassed
  repeat' first
    | (extract_lets +onlyGivenNames u
       first
       | (refine Keeps.cut (u := u) ?_ (fun _ => ?_); subst u; on_goal 2 => clear_value u)
       | (have h := @id (_ → _) u; clear h; subst u)
       | clear_value u)
    | with_reducible assumption
    | (simp (decide := true) (maxDischargeDepth := 200) only [↓Keeps.refl, ↓Keeps.ite, ↓Keeps.mk, ↓Keeps.foldl,
      ↓State.setPlan_keeps, ↓State.planEvent_keeps, implies_true, or_true, true_or, eq_self, *]; done)
    | (with_reducible refine Keeps.foldl (fun _ _ => ?_) ?_ <;> beta_reduce)
    | (with_reducible refine State.setPlan_keeps _ _ _ ?_ (by decide))
    | (with_reducible refine State.planEvent_keeps _ _ _ _ _ _ ?_ (by decide))
    | split

end Sys2Proof.Machine
end

