-- ==== Sys2Proof/Laws/KeepsTime.lean ====
section
/-! SUPPORT. What each operation of Machine/Time.lean may change, and that it keeps the canonical form. -/

set_option Elab.async false

set_option linter.unusedSimpArgs false
set_option linter.unusedTactic false
set_option linter.unreachableTactic false

namespace Sys2Proof.Machine

open R

theorem State.tick_keeps (s : State) {μ : Nat} {σ : State} (hk : Keeps μ σ s) (hm : within?
    0x600000000000000000000000000000000000000000000000000000000000000000000000000000000000000000000000000000000000000000000000000000000000000000000000000000000000000000000000000000000000000000000000000000000000000000000000000000000010000000000000000000000000000000000000000000000000000000000000000000000000000000000000000000000000000000000000000000000000000000000000000000000000000000000000000000000000000000000000000000000000000000000000000000000000000000000000000000000000000000000000000000000000000000000000000000000000000000000000000000000000000000000000000000000000000000000000000000000000000000000000000000000000000000000000000000000000000000000000000000000000000000000000000000000000000000000000000000000000000000000000000000000000000000000000000000000000000000000001000000000000000000000000000000000000000000000000000000000000000000004100018
    μ = true) : Keeps μ σ (State.tick s) := by
  refine hk.lift hm ?_
  unfold State.tick
  repeat' first
    | (extract_lets +onlyGivenNames u
       first
       | (refine Keeps.cut (u := u) ?_ (fun _ => ?_); subst u; on_goal 2 => clear_value u)
       | (have h := @id (_ → _) u; clear h; subst u)
       | clear_value u)
    | with_reducible assumption
    | (simp (decide := true) (maxDischargeDepth := 200) only [↓Keeps.refl, ↓Keeps.ite, ↓Keeps.mk, ↓State.showTq_keeps,
      ↓State.rearmLoss_keeps, or_true, true_or, eq_self, *]; done)
    | split

theorem State.idle_keeps (s : State) {μ : Nat} {σ : State} (hk : Keeps μ σ s) (hm : within?
    0x600000000000000000000000000000000000000000000000000000000000000000000000000000000000000000000000000000000000000000000000000000000000000000000000000000000000000000000000000000000000000000000000000000000000000000000000000000000010000000000000000000000000000000000000000000000000000000000000000000000000000000000000000000000000000000000000000000000000000000000000000000000000000000000000000000000000000000000000000000038190000000000000000000000000000000000000000000000000000000000000000000000000000000000000000000000000000000000000000000000000000000000000000000000000000000000000000000000000000000000000000000000000000000000000000000000000000000000000000000000000000000000000000000000000000000000000000000000000000000000000000000000000000000100000000000000000000000000001000000000000000000000000000000000000000000000000000000000000000000014110018
    μ = true) : Keeps μ σ (State.idle s) := by
  refine hk.lift hm ?_
  unfold State.idle
  repeat' first
    | (extract_lets +onlyGivenNames u
       first
       | (refine Keeps.cut (u := u) ?_ (fun _ => ?_); subst u; on_goal 2 => clear_value u)
       | (have h := @id (_ → _) u; clear h; subst u)
       | clear_value u)
    | with_reducible assumption
    | (simp (decide := true) (maxDischargeDepth := 200) only [↓Keeps.refl, ↓Keeps.ite, ↓Keeps.mk,
      ↓State.frontTick_keeps, ↓State.tick_keeps, or_true, true_or, eq_self, *]; done)
    | split

theorem State.putLeap_keeps (s : State) (v : Int) {μ : Nat} {σ : State} (hk : Keeps μ σ s) (hm : within? 0x100000 μ =
    true) : Keeps μ σ (State.putLeap s v) := by
  refine hk.lift hm ?_
  unfold State.putLeap
  repeat' first
    | (extract_lets +onlyGivenNames u
       first
       | (refine Keeps.cut (u := u) ?_ (fun _ => ?_); subst u; on_goal 2 => clear_value u)
       | (have h := @id (_ → _) u; clear h; subst u)
       | clear_value u)
    | with_reducible assumption
    | (simp (decide := true) (maxDischargeDepth := 200) only [↓Keeps.refl, ↓Keeps.ite, ↓Keeps.mk, or_true, true_or,
      eq_self, *]; done)
    | split

theorem State.clearLeap_keeps (s : State) {μ : Nat} {σ : State} (hk : Keeps μ σ s) (hm : within?
    0x1C10000000000000000000000000000000000000000000000000000000000000000000000000000000000000000000000000000000000000000000000000000000000000000000000000000000000000000000000000000000000000000000000000000000000000000000000000000000000000000000000000000000000000000000000000000000000000000000000000000000000000000000000000000000000000000000000000000000000000000000000000000000000000000000000000000000000000000000000000000000000000000000000000000000000000000000000000000000000000000000000000000000000000000000000000000000000000000000000000000000000000000000000000000000000000000000000000000000000000000000000000000000000000000
    μ = true) : Keeps μ σ (State.clearLeap s) := by
  refine hk.lift hm ?_
  unfold State.clearLeap
  repeat' first
    | (extract_lets +onlyGivenNames u
       first
       | (refine Keeps.cut (u := u) ?_ (fun _ => ?_); subst u; on_goal 2 => clear_value u)
       | (have h := @id (_ → _) u; clear h; subst u)
       | clear_value u)
    | with_reducible assumption
    | (simp (decide := true) (maxDischargeDepth := 200) only [↓Keeps.refl, ↓Keeps.ite, ↓Keeps.mk, ↓State.put_keeps,
      ↓State.put32_keeps, or_true, true_or, eq_self, *]; done)
    | split

theorem State.announce_keeps (s : State) (sign utcEnd : Nat) {μ : Nat} {σ : State} (hk : Keeps μ σ s) (hm : within?
    0x1C10000000000000000000000000000000000000000000000000000000000000000000000000000000000000000000000000000000000000000000000000000000000000000000000000000000000000000000000000000000000000000000000000000000000000000000000000000000000000000000000000000000000000000000000000000000000000000000000000000000000000000000000000000000000000000000000000000000000000000000000000000000000000000000000000000000000000000000000000000000000000000000000000000000000000000000000000000000000000000000000400000000000000000000000000000000000000000002000000000000000010000000000000000000000000000000000000000000000000000000000000000000000002081
    μ = true) : Keeps μ σ (State.announce s sign utcEnd) := by
  refine hk.lift hm ?_
  unfold State.announce
  repeat' first
    | (extract_lets +onlyGivenNames u
       first
       | (refine Keeps.cut (u := u) ?_ (fun _ => ?_); subst u; on_goal 2 => clear_value u)
       | (have h := @id (_ → _) u; clear h; subst u)
       | clear_value u)
    | with_reducible assumption
    | (simp (decide := true) (maxDischargeDepth := 200) only [↓Keeps.refl, ↓Keeps.ite, ↓Keeps.mk, ↓State.put_keeps,
      ↓State.put32_keeps, ↓State.timeEvent_keeps, or_true, true_or, eq_self, *]; done)
    | split

theorem State.leapNow_keeps (s : State) {μ : Nat} {σ : State} (hk : Keeps μ σ s) (hm : within?
    0x1C10000000000000000000000000000000000000000000000000000000000000000000000000000000000000000000000000000000000000000000000000000000000000000000000000000000000000000000000000000000000000000000000000000000000000000000000000000000000000000000000000000000000000000000000000000000000000000000000000000000000000000000000000000000000000000000000000000000000000000000000000000000000000000000000000000000000000000000000000000000000000000000000000000000000000000000000000000000000000000000000400000000000000000000000000000000000000000002000000000000000010000000000000000000000000000000000000000000000000000000000000000000000102081
    μ = true) : Keeps μ σ (State.leapNow s) := by
  refine hk.lift hm ?_
  unfold State.leapNow
  repeat' first
    | (extract_lets +onlyGivenNames u
       first
       | (refine Keeps.cut (u := u) ?_ (fun _ => ?_); subst u; on_goal 2 => clear_value u)
       | (have h := @id (_ → _) u; clear h; subst u)
       | clear_value u)
    | with_reducible assumption
    | (simp (decide := true) (maxDischargeDepth := 200) only [↓Keeps.refl, ↓Keeps.ite, ↓Keeps.mk,
      ↓State.clearLeap_keeps, ↓State.putLeap_keeps, ↓State.timeEvent_keeps, or_true, true_or, eq_self, *]; done)
    | split

theorem execLeapApplied_keeps (s : State) : Ends (Keeps
    0x1C10000000000000000000000000000000000000000000000000000000000000000000000000000000000000000000000000000000000000000000000000000000000000000000000000000000000000000000000000000000000000000000000000000000000000000000000000000000000000000000000000000000000000000000000000000000000000000000000000000000000000000000000000000000000000000000000000000000000000000000000000000000000000000000000000000000000000000000000000000000000000000000000000000000000000000000000000000000000000000000000400000000000000000000000000000000000000000002000000000000000010000000000000000000000000000000000000000000000000000000000000000000000102081
    s) (execLeapApplied s) := by
  unfold execLeapApplied
  refine Ends.next ?_
  repeat' first
    | (extract_lets +onlyGivenNames u
       first
       | (refine Keeps.cut (u := u) ?_ (fun _ => ?_); subst u; on_goal 2 => clear_value u)
       | (have h := @id (_ → _) u; clear h; subst u)
       | clear_value u)
    | with_reducible assumption
    | (simp (decide := true) (maxDischargeDepth := 200) only [↓Keeps.next, ↓Keeps.endsIte, ↓Keeps.refl, ↓Keeps.ite,
      ↓Keeps.mk, ↓State.leapNow_keeps, or_true, true_or, eq_self, *]; done)
    | split

theorem State.candidate_keeps (s : State) (src code : Nat) (named : Int) (held : Nat) (fn : Option Fn) (force : Bool)
    {μ : Nat} {σ : State} (hk : Keeps μ σ s) (hm : within? 0x100000 μ = true) : Keeps μ σ (State.candidate s src code
    named held fn force) := by
  refine hk.lift hm ?_
  unfold State.candidate
  repeat' first
    | (extract_lets +onlyGivenNames u
       first
       | (refine Keeps.cut (u := u) ?_ (fun _ => ?_); subst u; on_goal 2 => clear_value u)
       | (have h := @id (_ → _) u; clear h; subst u)
       | clear_value u)
    | with_reducible assumption
    | (simp (decide := true) (maxDischargeDepth := 200) only [↓Keeps.refl, ↓Keeps.ite, ↓Keeps.mk, or_true, true_or,
      eq_self, *]; done)
    | split

theorem State.setDone_keeps (s : State) (c : Cand) (res : Nat) {μ : Nat} {σ : State} (hk : Keeps μ σ s) (hm : within?
    0x2000 μ = true) : Keeps μ σ (State.setDone s c res) := by
  refine hk.lift hm ?_
  unfold State.setDone
  repeat' first
    | (extract_lets +onlyGivenNames u
       first
       | (refine Keeps.cut (u := u) ?_ (fun _ => ?_); subst u; on_goal 2 => clear_value u)
       | (have h := @id (_ → _) u; clear h; subst u)
       | clear_value u)
    | with_reducible assumption
    | (simp (decide := true) (maxDischargeDepth := 200) only [↓Keeps.refl, ↓Keeps.ite, ↓Keeps.mk,
      ↓State.outcome_keeps, or_true, true_or, eq_self, *]; done)
    | split

theorem State.rejectCand_keeps (s : State) (c : Cand) {μ : Nat} {σ : State} (hk : Keeps μ σ s) (hm : within?
    0x1000000000000000000000000000000000000000000000000000000000000000000000000000000000000000000000000000000000000000000000000000000000000000000000000000000000000000000000000000000000000000000000000000000000000000000000000000000000000000000000000000000000000000000000000000000000000000000000000000000000000000000000000000000000000000000000000000000000000000000000000000000000000000000000000000000000000000000000000000000000000000000000000000000000000000000000000000000000000000000000000000400000000000000000000000000000000000000000002000000000000000010000000000000000000000000000000000000000000000000000000000000000000000002081
    μ = true) : Keeps μ σ (State.rejectCand s c) := by
  refine hk.lift hm ?_
  unfold State.rejectCand
  repeat' first
    | (extract_lets +onlyGivenNames u
       first
       | (refine Keeps.cut (u := u) ?_ (fun _ => ?_); subst u; on_goal 2 => clear_value u)
       | (have h := @id (_ → _) u; clear h; subst u)
       | clear_value u)
    | with_reducible assumption
    | (simp (decide := true) (maxDischargeDepth := 200) only [↓Keeps.refl, ↓Keeps.ite, ↓Keeps.mk, ↓State.inc_keeps,
      ↓State.timeEvent_keeps, ↓State.setDone_keeps, or_true, true_or, eq_self, *]; done)
    | split

theorem State.stepBy_keeps (s : State) (d : Int) {μ : Nat} {σ : State} (hk : Keeps μ σ s) (hm : within?
    0x200000000000000000000000000000000000000000000000000000000000000000000000000000000000000000000000000000000000000000000000000000000000000000000000000000000000000000000000000000000000000000000000000000000000000000000000000000000200000000000000000000000000000000000000000000000000000000000000000000000000000000000000000000000000000000000000000000000000000000000000000000000000000000000000000000000000000000000000000000000000000000000000000000000000000000000000000000000000000000000000000040000000000000000000000000000000000000000000200000060000000001000000000000000000000000000000000000000000000000000000000000000000001010E089
    μ = true) : Keeps μ σ (State.stepBy s d) := by
  refine hk.lift hm ?_
  unfold State.stepBy
  repeat' first
    | (extract_lets +onlyGivenNames u
       first
       | (refine Keeps.cut (u := u) ?_ (fun _ => ?_); subst u; on_goal 2 => clear_value u)
       | (have h := @id (_ → _) u; clear h; subst u)
       | clear_value u)
    | with_reducible assumption
    | (simp (decide := true) (maxDischargeDepth := 200) only [↓Keeps.refl, ↓Keeps.ite, ↓Keeps.mk,
      ↓State.account_keeps, ↓State.inc_keeps, ↓State.retime_keeps, ↓State.skipPassed_keeps, or_true, true_or, eq_self,
      *]; done)
    | split

theorem State.applyCand_keeps (s : State) (c : Cand) (b : Nat) {μ : Nat} {σ : State} (hk : Keeps μ σ s) (hm : within?
    0x600000000000000000000000000000000000000000000000000000000000000000000000000000000000000000000000000000000000000000000000000000000000000000000000000000000000000000000000000000000000000000000000000000000000000000000000000002E01C1000000000000000000000000000000000000000000000000000000000000000000000000000000000000000000000000000000000000000000000000000000000000000000000000000000000000000000000000000000000000000000000000000000000000000000000000000200000000000000000000000000000000000000000000000000000000000000000000000000000000000000000000000000000000000000000000000000000000000000000000000000000000000000000000000000000000000000000000000000000000000000000000000000000000000000000000000000000000000000000040000000000000000000000000000000000000000000200000060000000001100000000000000000000000000000000000000000000000000000000000000000001410E089
    μ = true) : Keeps μ σ (State.applyCand s c b) := by
  refine hk.lift hm ?_
  unfold State.applyCand
  repeat' first
    | (extract_lets +onlyGivenNames u
       first
       | (refine Keeps.cut (u := u) ?_ (fun _ => ?_); subst u; on_goal 2 => clear_value u)
       | (have h := @id (_ → _) u; clear h; subst u)
       | clear_value u)
    | with_reducible assumption
    | (simp (decide := true) (maxDischargeDepth := 200) only [↓Keeps.refl, ↓Keeps.ite, ↓Keeps.mk, ↓State.stepBy_keeps,
      ↓State.showTq_keeps, ↓State.rearmLoss_keeps, ↓State.put32_keeps, ↓State.inc_keeps, ↓State.timeEvent_keeps,
      ↓State.leapNow_keeps, ↓State.setDone_keeps, or_true, true_or, eq_self, *]; done)
    | split

theorem State.deferCand_keeps (s : State) (c : Cand) {μ : Nat} {σ : State} (hk : Keeps μ σ s) (hm : within?
    0x10000000000000000000000000000000000000000000000000000000000000000000000000000000000000000000000000000000000000000000000000000000000000000000000000000000000000000000000000000000000000000000000000000000000000000000000000000000000000000000000000000000000000000000000000000000000000000000000000000000000000000000000000000000000000000000000000000000000000000000000000000000000000000000000000000000000000000000000000000000000000000000000000000000000000000000000000000000000000000000000400000000000000000000000000000000000000000002000000000000000010000000000000000000000000000000000000000000000000000000000000000000000102081
    μ = true) : Keeps μ σ (State.deferCand s c) := by
  refine hk.lift hm ?_
  unfold State.deferCand
  repeat' first
    | (extract_lets +onlyGivenNames u
       first
       | (refine Keeps.cut (u := u) ?_ (fun _ => ?_); subst u; on_goal 2 => clear_value u)
       | (have h := @id (_ → _) u; clear h; subst u)
       | clear_value u)
    | with_reducible assumption
    | (simp (decide := true) (maxDischargeDepth := 200) only [↓Keeps.refl, ↓Keeps.ite, ↓Keeps.mk, ↓State.put_keeps,
      ↓State.timeEvent_keeps, ↓State.setDone_keeps, or_true, true_or, eq_self, *]; done)
    | split

theorem State.rejectAll_keeps (s : State) (l : List Cand) {μ : Nat} {σ : State} (hk : Keeps μ σ s)
    (hm : within? 0x1000000000000000000000000000000000000000000000000000000000000000000000000000000000000000000000000000000000000000000000000000000000000000000000000000000000000000000000000000000000000000000000000000000000000000000000000000000000000000000000000000000000000000000000000000000000000000000000000000000000000000000000000000000000000000000000000000000000000000000000000000000000000000000000000000000000000000000000000000000000000000000000000000000000000000000000000000000000000000000000000000400000000000000000000000000000000000000000002000000000000000010000000000000000000000000000000000000000000000000000000000000000000000002081 μ = true) : Keeps μ σ (s.rejectAll l) := by
  induction l generalizing s with
  | nil => exact hk
  | cons c l ih => exact ih _ (State.rejectCand_keeps _ _ hk hm)

theorem execTimeCandidateApply_keeps (s : State) : Ends (Keeps
    0x600000000000000000000000000000000000000000000000000000000000000000000000000000000000000000000000000000000000000000000000000000000000000000000000000000000000000000000000000000000000000000000000000000000000000000000000000003E01C1000000000000000000000000000000000000000000000000000000000000000000000000000000000000000000000000000000000000000000000000000000000000000000000000000000000000000000000000000000000000000000000000000000000000000000000000000200000000000000000000000000000000000000000000000000000000000000000000000000000000000000000000000000000000000000000000000000000000000000000000000000000000000000000000000000000000000000000000000000000000000000000000000000000000000000000000000000000000000000000040000000000000000000000000000000000000000000200000060000000001100000000000000000000000000000000000000000000000000000000000000000001410E089
    s) (execTimeCandidateApply s) := by
  unfold execTimeCandidateApply
  refine Ends.next ?_
  repeat' first
    | (extract_lets +onlyGivenNames u
       first
       | (refine Keeps.cut (u := u) ?_ (fun _ => ?_); subst u; on_goal 2 => clear_value u)
       | (have h := @id (_ → _) u; clear h; subst u)
       | clear_value u)
    | with_reducible assumption
    | (simp (decide := true) (maxDischargeDepth := 200) only [↓Keeps.next, ↓Keeps.endsIte, ↓Keeps.refl, ↓Keeps.ite,
      ↓Keeps.mk, ↓State.deferCand_keeps, ↓State.applyCand_keeps, ↓State.rejectAll_keeps, or_true, true_or, eq_self,
      *]; done)
    | split

theorem execTimeDeferredApply_keeps (s : State) : Ends (Keeps
    0x600000000000000000000000000000000000000000000000000000000000000000000000000000000000000000000000000000000000000000000000000000000000000000000000000000000000000000000000000000000000000000000000000000000000000000000000000003E01C1000000000000000000000000000000000000000000000000000000000000000000000000000000000000000000000000000000000000000000000000000000000000000000000000000000000000000000000000000000000000000000000000000000000000000000000000000200000000000000000000000000000000000000000000000000000000000000000000000000000000000000000000000000000000000000000000000000000000000000000000000000000000000000000000000000000000000000000000000000000000000000000000000000000000000000000000000000000000000000000040000000000000000000000000000000000000000000200000060000000001100000000000000000000000000000000000000000000000000000000000000000001410E089
    s) (execTimeDeferredApply s) := by
  unfold execTimeDeferredApply
  refine Ends.next ?_
  repeat' first
    | (extract_lets +onlyGivenNames u
       first
       | (refine Keeps.cut (u := u) ?_ (fun _ => ?_); subst u; on_goal 2 => clear_value u)
       | (have h := @id (_ → _) u; clear h; subst u)
       | clear_value u)
    | with_reducible assumption
    | (simp (decide := true) (maxDischargeDepth := 200) only [↓Keeps.next, ↓Keeps.endsIte, ↓Keeps.refl, ↓Keeps.ite,
      ↓Keeps.mk, ↓State.put_keeps, ↓State.applyCand_keeps, ↓State.rejectCand_keeps, or_true, true_or, eq_self,
      *]; done)
    | split

theorem execSlewEnd_keeps (s : State) : Ends (Keeps
    0x600000000000000000000000000000000000000000000000000000000000000000000000000000000000000000000000000000000000000000000000000000000000000000000000000000000000000000000000000000000000000000000000000000000000000000000000000000000010000000000000000000000000000000000000000000000000000000000000000000000000000000000000000000000000000000000000000000000000000000000000000000000000000000000000000000000000000000000000000000000000000000000000000000000000000000000000000000000000000000000000000000000000000000000000000000000000000000000000000000000000000000000000000000000000000000000000000000000000000000000000000000000000000000000000000000000000000000000000000000000000000000000000000000000000000000000000000000000000000000000000000000000000000000000000000000000000000000000001000000000000000000000000000000000000000000000000000000000000000000004100000
    s) (execSlewEnd s) := by
  unfold execSlewEnd
  refine Ends.next ?_
  repeat' first
    | (extract_lets +onlyGivenNames u
       first
       | (refine Keeps.cut (u := u) ?_ (fun _ => ?_); subst u; on_goal 2 => clear_value u)
       | (have h := @id (_ → _) u; clear h; subst u)
       | clear_value u)
    | with_reducible assumption
    | (simp (decide := true) (maxDischargeDepth := 200) only [↓Keeps.next, ↓Keeps.endsIte, ↓Keeps.refl, ↓Keeps.ite,
      ↓Keeps.mk, ↓State.showTq_keeps, or_true, true_or, eq_self, *]; done)
    | split

theorem State.leapAction_keeps (s : State) (act leap : Nat) {μ : Nat} {σ : State} (hk : Keeps μ σ s) (hm : within?
    0x1C10000000000000000000000000000000000000000000000000000000000000000000000000000000000000000000000000000000000000000000000000000000000000000000000000000000000000000000000000000000000000000000000000000000000000000000000000000000000000000000000000000000000000000000000000000000000000000000000000000000000000000000000000000000000000000000000000000000000000000000000000000000000000000000000000000000000000000000000000000000000000000000000000000000000000000000000000000000000000000000000400000000000000000000000000000000000000000002000000000000000010000000000000000000000000000000000000000000000000000000000000000000000102081
    μ = true) : Keeps μ σ (State.leapAction s act leap) := by
  refine hk.lift hm ?_
  unfold State.leapAction
  repeat' first
    | (extract_lets +onlyGivenNames u
       first
       | (refine Keeps.cut (u := u) ?_ (fun _ => ?_); subst u; on_goal 2 => clear_value u)
       | (have h := @id (_ → _) u; clear h; subst u)
       | clear_value u)
    | with_reducible assumption
    | (simp (decide := true) (maxDischargeDepth := 200) only [↓Keeps.refl, ↓Keeps.ite, ↓Keeps.mk,
      ↓State.putLeap_keeps, ↓State.announce_keeps, or_true, true_or, eq_self, *]; done)
    | split

theorem execTimeSet_keeps (f : Fn) (s : State) : Ends (Keeps
    0x1C10000000000000000000000000000000000000000000000000000000000000000000000000000000000000000000000000000000000000000000000000000000000000000000000000000000000000000000000000000000000000000000000000000000000000000000000000000000000000000000000000000000000000000000000000000000000000000000000000000000000000000000000000000000000000000000000000000000000000000000000000000000000000000000000000000000000000000000000000000000000000000000000000000000000000000000000000000000000000000000000400000000000000000000000000000000000000000002000000000000000010000000000000000000000000000000000000000000000000000000000000000000000102081
    s) (execTimeSet f s) := by
  unfold execTimeSet
  refine Ends.next ?_
  repeat' first
    | (extract_lets +onlyGivenNames u
       first
       | (refine Keeps.cut (u := u) ?_ (fun _ => ?_); subst u; on_goal 2 => clear_value u)
       | (have h := @id (_ → _) u; clear h; subst u)
       | clear_value u)
    | with_reducible assumption
    | (simp (decide := true) (maxDischargeDepth := 200) only [↓Keeps.next, ↓Keeps.endsIte, ↓Keeps.refl, ↓Keeps.ite,
      ↓Keeps.mk, ↓State.outcome_keeps, ↓State.leapAction_keeps, ↓State.candidate_keeps, implies_true, or_true,
      true_or, eq_self, *]; done)
    | (with_reducible refine State.withOp_keeps _ _ _ _ ?_ (fun _ => ?_) <;> beta_reduce)
    | (with_reducible refine State.outcome_keeps _ _ _ _ ?_ (by decide))
    | (with_reducible refine State.leapAction_keeps _ _ _ ?_ (by decide))
    | (with_reducible refine State.candidate_keeps _ _ _ _ _ _ _ ?_ (by decide))
    | split

theorem execAonTempSample_keeps (temp : Int) (s : State) : Ends (Keeps
    0x46000000000000000000000000000000000000000000000000000000000000000000000000000000000000000000000000000000000000000000000000000000000000000000000000000000000000000000000000000000000000000000000000000000000000000000000000000000000000000000000000000000000000000000000000000000000000000000000000000000000000000000000000000000000000000000000000000000000000000000000000000000000000000000000000000000000000000000000000000000000000000000000000000000000000000000000000000000000000000000000000000000000000000000000000000000000000000000000000000000000000000000000000000000000000000000000000000000000000000000000000000000000000100000
    s) (execAonTempSample temp s) := by
  unfold execAonTempSample
  refine Ends.next ?_
  repeat' first
    | (extract_lets +onlyGivenNames u
       first
       | (refine Keeps.cut (u := u) ?_ (fun _ => ?_); subst u; on_goal 2 => clear_value u)
       | (have h := @id (_ → _) u; clear h; subst u)
       | clear_value u)
    | with_reducible assumption
    | (simp (decide := true) (maxDischargeDepth := 200) only [↓Keeps.next, ↓Keeps.endsIte, ↓Keeps.refl, ↓Keeps.ite,
      ↓Keeps.mk, ↓State.put_keeps, ↓State.setTrim_keeps, or_true, true_or, eq_self, *]; done)
    | split

theorem State.xoMeasure_keeps (s : State) (err : Int) (sd : Nat) {μ : Nat} {σ : State} (hk : Keeps μ σ s) (hm :
    within?
    0x10000000000000000000000000000000000000000000000000000000000000000000000000000000000000000000000000000000000000000000000000000000000000000000000000000000000000000000000000000000000000000000000000000000000000000000000000000000000000000000000000000000000000000000000000000000000000000000000000000000000000000000000000000000000000000000000000000000000000000000000000000000000000000000000000000000000000000000000000000000000000000000000000000000000000000000000000000000000000000000000000000000000000000000000000000000000000000000000000000000000000000000000000000000000000000000000000000000000000000000000000000000000100000
    μ = true) : Keeps μ σ (State.xoMeasure s err sd) := by
  refine hk.lift hm ?_
  unfold State.xoMeasure
  repeat' first
    | (extract_lets +onlyGivenNames u
       first
       | (refine Keeps.cut (u := u) ?_ (fun _ => ?_); subst u; on_goal 2 => clear_value u)
       | (have h := @id (_ → _) u; clear h; subst u)
       | clear_value u)
    | with_reducible assumption
    | (simp (decide := true) (maxDischargeDepth := 200) only [↓Keeps.refl, ↓Keeps.ite, ↓Keeps.mk, ↓State.put_keeps,
      or_true, true_or, eq_self, *]; done)
    | split

theorem State.widenSpan_keeps (s : State) (first : Bool) {μ : Nat} {σ : State} (hk : Keeps μ σ s) (hm : within?
    0x100000000000000000000000000000000000000000000000000000000000000000000000000000000000000000000000000000000000000000000000000000000000000000000000000000000000000000000000000000000000000000000000000000000000000000000000000000000000000000000000000000000000000000000000000000000000000000000000000000000000000000000000000000000000000000000000000000000000000000000000000000000000000000000000000000000000000000000000000000000000000000000000000000000000000000000000000000000000000000000000000000000000000000000000000000000000000000000000000000000000000000000000000000000000000000000000000000000000000000000000000000000000000000000
    μ = true) : Keeps μ σ (State.widenSpan s first) := by
  refine hk.lift hm ?_
  unfold State.widenSpan
  repeat' first
    | (extract_lets +onlyGivenNames u
       first
       | (refine Keeps.cut (u := u) ?_ (fun _ => ?_); subst u; on_goal 2 => clear_value u)
       | (have h := @id (_ → _) u; clear h; subst u)
       | clear_value u)
    | with_reducible assumption
    | (simp (decide := true) (maxDischargeDepth := 200) only [↓Keeps.refl, ↓Keeps.ite, ↓Keeps.mk, ↓State.put_keeps,
      or_true, true_or, eq_self, *]; done)
    | split

theorem execX32PairWindow_keeps (relErr : Int) (moved : Nat) (s : State) : Ends (Keeps
    0x196010000000000000000000000000000000000000000000000000000000000000000000000000000000000000000000000000000000000000000000000000000000000000000000000000000000000000000000000000000000000000000000000000000000000000000000000000000000000000000000000000000000000000000000000000000000000000000000000000000000000000000000000000000000000000000000000000000000000000000000000000000000000000000000000000000000000000000000000000000000000000000000000000000000000000000000000000000000000000000000000000000000000000000000000000000000000000000000000000000000000000000000000000000000000000000000000000000000000000000000000000000000000100000
    s) (execX32PairWindow relErr moved s) := by
  unfold execX32PairWindow
  refine Ends.next ?_
  repeat' first
    | (extract_lets +onlyGivenNames u
       first
       | (refine Keeps.cut (u := u) ?_ (fun _ => ?_); subst u; on_goal 2 => clear_value u)
       | (have h := @id (_ → _) u; clear h; subst u)
       | clear_value u)
    | with_reducible assumption
    | (simp (decide := true) (maxDischargeDepth := 200) only [↓Keeps.next, ↓Keeps.endsIte, ↓Keeps.refl, ↓Keeps.ite,
      ↓Keeps.mk, ↓State.widenSpan_keeps, ↓State.inc_keeps, ↓State.putSat_keeps, ↓State.put_keeps,
      ↓State.setTrim_keeps, or_true, true_or, eq_self, *]; done)
    | split

theorem State.modelReset_keeps (s : State) {μ : Nat} {σ : State} (hk : Keeps μ σ s) (hm : within?
    0x190010000000000000000000000000000000000000000000000000000000000000000000000000000000000000000000000000000000000000000000000000000000000000000000000000000000000000000000000000000000000000000000000000000000000000000000000000000000000000000000000000000000000000000000000000000000000000000000000000000000000000000000000000000000000000000000000000000000000000000000000000000000000000000000000000000000000000000000000000000000000000000000000000000000000000000000000000000000000000000000000000000000000000000000000000000000000000000000000000000000000000000000000000000000000000000000000000000000000000000000000000000000000100000
    μ = true) : Keeps μ σ (State.modelReset s) := by
  refine hk.lift hm ?_
  unfold State.modelReset
  repeat' first
    | (extract_lets +onlyGivenNames u
       first
       | (refine Keeps.cut (u := u) ?_ (fun _ => ?_); subst u; on_goal 2 => clear_value u)
       | (have h := @id (_ → _) u; clear h; subst u)
       | clear_value u)
    | with_reducible assumption
    | (simp (decide := true) (maxDischargeDepth := 200) only [↓Keeps.refl, ↓Keeps.ite, ↓Keeps.mk, ↓State.put_keeps,
      or_true, true_or, eq_self, *]; done)
    | split

theorem State.agingRecord_keeps (s : State) {μ : Nat} {σ : State} (hk : Keeps μ σ s) (hm : within?
    0x20000000000000000000000000000000000000000000000000000000000000000000000000000000000000000000000000000000000000000000000000000000000000000000000000000000000000000000000000000000000000000000000000000000000000000000000000000000000000000000000000000000000000000000000000000000000000000000000000000000000000000000000000000000000000000000000000000000000000000000000000000000000000000000000000000000000000000000000000000000000000000000000000000000000000000000000000000000000000000000000000000000000000000000000000000000000000000000000000000000000000000000000000000000000000000000000000000000000000000000000000000000000000100000
    μ = true) : Keeps μ σ (State.agingRecord s) := by
  refine hk.lift hm ?_
  unfold State.agingRecord
  repeat' first
    | (extract_lets +onlyGivenNames u
       first
       | (refine Keeps.cut (u := u) ?_ (fun _ => ?_); subst u; on_goal 2 => clear_value u)
       | (have h := @id (_ → _) u; clear h; subst u)
       | clear_value u)
    | with_reducible assumption
    | (simp (decide := true) (maxDischargeDepth := 200) only [↓Keeps.refl, ↓Keeps.ite, ↓Keeps.mk, ↓State.put_keeps,
      or_true, true_or, eq_self, *]; done)
    | split

theorem execTimePulse_keeps (s : State) : Ends (Keeps 0x100020 s) (execTimePulse s) := by
  unfold execTimePulse
  refine Ends.next ?_
  repeat' first
    | (extract_lets +onlyGivenNames u
       first
       | (refine Keeps.cut (u := u) ?_ (fun _ => ?_); subst u; on_goal 2 => clear_value u)
       | (have h := @id (_ → _) u; clear h; subst u)
       | clear_value u)
    | with_reducible assumption
    | (simp (decide := true) (maxDischargeDepth := 200) only [↓Keeps.next, ↓Keeps.endsIte, ↓Keeps.refl, ↓Keeps.ite,
      ↓Keeps.mk, or_true, true_or, eq_self, *]; done)
    | split

theorem execTimeLoss_keeps (s : State) : Ends (Keeps
    0x400000000000000000000000000000000000000000002000000000000000010000000000000000000000000000000000000000000000000000000000000000000000102081
    s) (execTimeLoss s) := by
  unfold execTimeLoss
  refine Ends.next ?_
  repeat' first
    | (extract_lets +onlyGivenNames u
       first
       | (refine Keeps.cut (u := u) ?_ (fun _ => ?_); subst u; on_goal 2 => clear_value u)
       | (have h := @id (_ → _) u; clear h; subst u)
       | clear_value u)
    | with_reducible assumption
    | (simp (decide := true) (maxDischargeDepth := 200) only [↓Keeps.next, ↓Keeps.endsIte, ↓Keeps.refl, ↓Keeps.ite,
      ↓Keeps.mk, ↓State.lossEvent_keeps, or_true, true_or, eq_self, *]; done)
    | split

theorem State.thrWrite_keeps (s : State) (v : Nat) {μ : Nat} {σ : State} (hk : Keeps μ σ s) (hm : within?
    0x80000000000000000000000000000000000000000000000000000000000000000000000000000000000000000000000000000000000000000000000000000000000000000000000000000000000000000000000000000000000000000000000000000000000000000000000000000000000000000000000000000000000000000000000000000000000000000000000000000000000000000000000000000000000000000000000000000000000000000000000000000000000000000000000000000000000000000000000000000000000000000000000000000000000000000000000000000000000000000000000400000000000000000000000000000000000000000002000000000000000010000000000000000000000000000000000000000000000000000000000000000000000102081
    μ = true) : Keeps μ σ (State.thrWrite s v) := by
  refine hk.lift hm ?_
  unfold State.thrWrite
  repeat' first
    | (extract_lets +onlyGivenNames u
       first
       | (refine Keeps.cut (u := u) ?_ (fun _ => ?_); subst u; on_goal 2 => clear_value u)
       | (have h := @id (_ → _) u; clear h; subst u)
       | clear_value u)
    | with_reducible assumption
    | (simp (decide := true) (maxDischargeDepth := 200) only [↓Keeps.refl, ↓Keeps.ite, ↓Keeps.mk, ↓State.put_keeps,
      ↓State.lossEvent_keeps, or_true, true_or, eq_self, *]; done)
    | split

end Sys2Proof.Machine
end

