-- ==== Sys2Proof/Laws/KeepsEdf.lean ====
section
/-! SUPPORT. What each operation of Machine/Edf.lean may change, and that it keeps the canonical form. -/

set_option Elab.async false

set_option linter.unusedSimpArgs false
set_option linter.unusedTactic false
set_option linter.unreachableTactic false

namespace Sys2Proof.Machine

open R

theorem State.pick_out {l : List Nat} {s u : State} {w : Option Nat} (e : s.pick l = (w, u)) {μ : Nat} {σ : State}
    (hk : Keeps μ σ s) (hm : within? 0x10000000 μ = true) : Keeps μ σ u := by
  obtain ⟨-, rfl⟩ := Prod.mk.inj e
  exact State.fresh_out rfl hk hm

theorem State.pick_snd (s : State) (l : List Nat) {μ : Nat} {σ : State} (hk : Keeps μ σ s) (hm : within? 0x10000000
  μ = true) : Keeps μ σ (State.pick s l).2 := State.pick_out (w := (State.pick s l).1) (u := (State.pick s l).2) rfl
  hk hm

theorem State.eraseSector_keeps (s : State) (n : Nat) {μ : Nat} {σ : State} (hk : Keeps μ σ s) (hm : within? 0x200000
    μ = true) : Keeps μ σ (State.eraseSector s n) := by
  refine hk.lift hm ?_
  unfold State.eraseSector
  repeat' first
    | (extract_lets +onlyGivenNames u
       first
       | (refine Keeps.cut (u := u) ?_ (fun _ => ?_); subst u; on_goal 2 => clear_value u)
       | (have h := @id (_ → _) u; clear h; subst u)
       | clear_value u)
    | with_reducible assumption
    | (simp (decide := true) (maxDischargeDepth := 200) only [↓Keeps.refl, ↓Keeps.ite, ↓Keeps.mk, or_true, true_or,
      eq_self, *]; done)
    | split

theorem State.showEdf_keeps (s : State) {μ : Nat} {σ : State} (hk : Keeps μ σ s) (hm : within?
    0xF000001800FF1000000000000000000000000000000000000000000000000000000000000000000000000000000000000000000000000000000000000000000000000000000000000000000000000000000000000000000000000000000000000000000000000000000000000000000000000000000000000000000000000000000000000000000000000000000000000000000000000000000000000000000000000000000000000000000000000000000000000000000000000000000000000000000000000000000000000000000000000000000000000000000000000000000000000000000000000000000000000000000000000000000000000000000000000000000000000000000000000000000000000000000000000000000000000000000000000000000000000000000000000000000000000000000000000000000000000000000000000
    μ = true) : Keeps μ σ (State.showEdf s) := by
  refine hk.lift hm ?_
  unfold State.showEdf
  repeat' first
    | (extract_lets +onlyGivenNames u
       first
       | (refine Keeps.cut (u := u) ?_ (fun _ => ?_); subst u; on_goal 2 => clear_value u)
       | (have h := @id (_ → _) u; clear h; subst u)
       | clear_value u)
    | with_reducible assumption
    | (simp (decide := true) (maxDischargeDepth := 200) only [↓Keeps.refl, ↓Keeps.ite, ↓Keeps.mk, ↓Keeps.foldl,
      ↓State.putBit_keeps, ↓State.putSat_keeps, ↓State.put32_keeps, ↓State.put_keeps, implies_true, or_true, true_or,
      eq_self, *]; done)
    | (with_reducible refine Keeps.foldl (fun _ _ => ?_) ?_ <;> beta_reduce)
    | (with_reducible refine State.putBit_keeps _ _ _ ?_ (by decide))
    | (with_reducible refine State.putSat_keeps _ _ _ ?_ (by decide))
    | (with_reducible refine State.put32_keeps _ _ _ ?_ (by decide) (by decide))
    | (with_reducible refine State.put_keeps _ _ _ ?_ (by decide))
    | split

theorem State.setObj_keeps (s : State) (o : Obj) {μ : Nat} {σ : State} (hk : Keeps μ σ s) (hm : within?
    0xF000001800FF1000000000000000000000000000000000000000000000000000000000000000000000000000000000000000000000000000000000000000000000000000000000000000000000000000000000000000000000000000000000000000000000000000000000000000000000000000000000000000000000000000000000000000000000000000000000000000000000000000000000000000000000000000000000000000000000000000000000000000000000000000000000000000000000000000000000000000000000000000000000000000000000000000000000000000000000000000000000000000000000000000000000000000000000000000000000000000000000000000000000000000000000000000000000000000000000000000000000000000000000000000000000000000000000000000000000000000000200000
    μ = true) : Keeps μ σ (State.setObj s o) := by
  refine hk.lift hm ?_
  unfold State.setObj
  repeat' first
    | (extract_lets +onlyGivenNames u
       first
       | (refine Keeps.cut (u := u) ?_ (fun _ => ?_); subst u; on_goal 2 => clear_value u)
       | (have h := @id (_ → _) u; clear h; subst u)
       | clear_value u)
    | with_reducible assumption
    | (simp (decide := true) (maxDischargeDepth := 200) only [↓Keeps.refl, ↓Keeps.ite, ↓Keeps.mk,
      ↓State.showEdf_keeps, or_true, true_or, eq_self, *]; done)
    | split

theorem State.addDone_keeps (s : State) (stream id : Nat) {μ : Nat} {σ : State} (hk : Keeps μ σ s) (hm : within?
    0x200000 μ = true) : Keeps μ σ (State.addDone s stream id) := by
  refine hk.lift hm ?_
  unfold State.addDone
  repeat' first
    | (extract_lets +onlyGivenNames u
       first
       | (refine Keeps.cut (u := u) ?_ (fun _ => ?_); subst u; on_goal 2 => clear_value u)
       | (have h := @id (_ → _) u; clear h; subst u)
       | clear_value u)
    | with_reducible assumption
    | (simp (decide := true) (maxDischargeDepth := 200) only [↓Keeps.refl, ↓Keeps.ite, ↓Keeps.mk, or_true, true_or,
      eq_self, *]; done)
    | split

theorem State.removeObj_keeps (s : State) (o : Obj) (toDone : Bool) {μ : Nat} {σ : State} (hk : Keeps μ σ s) (hm :
    within?
    0xF000001800FF1000000000000000000000000000000000000000000000000000000000000000000000000000000000000000000000000000000000000000000000000000000000000000000000000000000000000000000000000000000000000000000000000000000000000000000000000000000000000000000000000000000000000000000000000000000000000000000000000000000000000000000000000000000000000000000000000000000000000000000000000000000000000000000000000000000000000000000000000000000000000000000000000000000000000000000000000000000000000000000000000000000000000000000000000000000000000000000000000000000000000000000000000000000000000000000000000000000000000000000000000000000000000000000000000000000000000000000200000
    μ = true) : Keeps μ σ (State.removeObj s o toDone) := by
  refine hk.lift hm ?_
  unfold State.removeObj
  repeat' first
    | (extract_lets +onlyGivenNames u
       first
       | (refine Keeps.cut (u := u) ?_ (fun _ => ?_); subst u; on_goal 2 => clear_value u)
       | (have h := @id (_ → _) u; clear h; subst u)
       | clear_value u)
    | with_reducible assumption
    | (simp (decide := true) (maxDischargeDepth := 200) only [↓Keeps.refl, ↓Keeps.ite, ↓Keeps.mk,
      ↓State.showEdf_keeps, ↓State.addDone_keeps, or_true, true_or, eq_self, *]; done)
    | split

theorem State.leaveHoard_keeps (s : State) (o : Obj) {μ : Nat} {σ : State} (hk : Keeps μ σ s) (hm : within?
    0xF000001800FF1000000000000000000000000000000000000000000000000000000000000000000000000000000000000000000000000000000000000000000000000000000000000000000000000000000000000000000000000000000000000000000000000000000000000000000000000000000000000000000000000000000000000000000000000000000000000000000000000000000000000000000000000000000000000000000000000000000000000000000000000000000000000000000000000000000000000000000000000000000000000000000000000000000000000000000000000000000000000000000000000000000000000000000000000000000000000000000000000000000000000000000000000000000000000000000000000000000000000000000000000000000000000000000000000000000000000000000200000
    μ = true) : Keeps μ σ (State.leaveHoard s o) := by
  refine hk.lift hm ?_
  unfold State.leaveHoard
  repeat' first
    | (extract_lets +onlyGivenNames u
       first
       | (refine Keeps.cut (u := u) ?_ (fun _ => ?_); subst u; on_goal 2 => clear_value u)
       | (have h := @id (_ → _) u; clear h; subst u)
       | clear_value u)
    | with_reducible assumption
    | (simp (decide := true) (maxDischargeDepth := 200) only [↓Keeps.refl, ↓Keeps.ite, ↓Keeps.mk, ↓State.setObj_keeps,
      ↓State.removeObj_keeps, or_true, true_or, eq_self, *]; done)
    | split

theorem State.reapStaged_keeps (s : State) {μ : Nat} {σ : State} (hk : Keeps μ σ s) (hm : within?
    0xF000001800FF1000000000000000000000000000000000000000000000000000000000000000000000000000000000000000000000000000000000000000000000000000000000000000000000000000000000000000000000000000000000000000000000000000000000000000000000000000000000000000000000000000000000000000000000000000000000000000000000000000000000000000000000000000000000000000000000000000000000000000000000000000000000000000000000000000000000000000000000000000000000000000000000000000000000000000000000000000000000000000000000000000000000000000000000000000000000000000000000000000000000000000000000000000000000000000000000000000000000000000000000000000000000000000000000000000000000000000000200000
    μ = true) : Keeps μ σ (State.reapStaged s) := by
  refine hk.lift hm ?_
  unfold State.reapStaged
  repeat' first
    | (extract_lets +onlyGivenNames u
       first
       | (refine Keeps.cut (u := u) ?_ (fun _ => ?_); subst u; on_goal 2 => clear_value u)
       | (have h := @id (_ → _) u; clear h; subst u)
       | clear_value u)
    | with_reducible assumption
    | (simp (decide := true) (maxDischargeDepth := 200) only [↓Keeps.refl, ↓Keeps.ite, ↓Keeps.mk, ↓Keeps.foldl,
      ↓State.removeObj_keeps, implies_true, or_true, true_or, eq_self, *]; done)
    | (with_reducible refine Keeps.foldl (fun _ _ => ?_) ?_ <;> beta_reduce)
    | (with_reducible refine State.removeObj_keeps _ _ _ ?_ (by decide))
    | split

theorem State.fit_out {f : Fn} {stream id n : Nat} {s u : State} {w : Bool} (e : s.fit f stream id n = (w, u)) {μ : Nat}
    {σ : State} (hk : Keeps μ σ s) (hm : within? 0xF000001800FF1000000000000000000000000000000000000000000000000000000000000000000000000000000000000000000000000000000000000000000000000000000000000000000000000000000000000000000000000000000000000000000000000000000000000000000000000000000000000000000000000000000000000000000000000000000000000000000000000000000000000000000000000000000000000000000000000000000000000000000000000000000000000000000000000000000000000000000000000000000000000000000000000000000000000000000000000000000000000000000000000000000000000000000000000000000000000000000000000000000000000000000000000000000000000000000000000000000000000000000000000000000000000000000000000000000000000000000200000 μ = true) : Keeps μ σ u := by
  induction n generalizing s u w with
  | zero => obtain ⟨-, rfl⟩ := Prod.mk.inj e; exact hk
  | succ n ih =>
    unfold State.fit at e
    dsimp only at e
    split at e
    · obtain ⟨-, rfl⟩ := Prod.mk.inj e; exact hk
    · split at e
      · exact ih e (State.removeObj_keeps _ _ _ hk hm)
      · obtain ⟨-, rfl⟩ := Prod.mk.inj e; exact hk

theorem State.fit_snd (s : State) (f : Fn) (stream id : Nat) (n : Nat) {μ : Nat} {σ : State} (hk : Keeps μ σ s) (hm
  : within? 0xF000001800FF1000000000000000000000000000000000000000000000000000000000000000000000000000000000000000000000000000000000000000000000000000000000000000000000000000000000000000000000000000000000000000000000000000000000000000000000000000000000000000000000000000000000000000000000000000000000000000000000000000000000000000000000000000000000000000000000000000000000000000000000000000000000000000000000000000000000000000000000000000000000000000000000000000000000000000000000000000000000000000000000000000000000000000000000000000000000000000000000000000000000000000000000000000000000000000000000000000000000000000000000000000000000000000000000000000000000000000000200000 μ = true) : Keeps μ σ (State.fit s f stream id n).2 := State.fit_out (w := (State.fit s f
  stream id n).1) (u := (State.fit s f stream id n).2) rfl hk hm

theorem State.dupSegment_keeps (s : State) (stream : Nat) {μ : Nat} {σ : State} (hk : Keeps μ σ s) (hm : within?
    0x40000000000000000000000000000000000000000000000000000000000000000000000000000000000000000000000000000000000000000000000000000000000000000000000000000000000000000000000000000000000000000000000000000000000000000000000000000000000000000000000000000000000000000000000000000000000000000000000000000000000000000000000000000000000000000000000000000000000000000000000000000000000000000000000000000000000000000000000000000000000000000000000000000000000000000000000000000000000000000000000000000000000000000000000000000000000000000000000000000000000000000000000000000000000000000000000000000000000000000000000000000000000000000000000000000000000000000000000200000
    μ = true) : Keeps μ σ (State.dupSegment s stream) := by
  refine hk.lift hm ?_
  unfold State.dupSegment
  repeat' first
    | (extract_lets +onlyGivenNames u
       first
       | (refine Keeps.cut (u := u) ?_ (fun _ => ?_); subst u; on_goal 2 => clear_value u)
       | (have h := @id (_ → _) u; clear h; subst u)
       | clear_value u)
    | with_reducible assumption
    | (simp (decide := true) (maxDischargeDepth := 200) only [↓Keeps.refl, ↓Keeps.ite, ↓Keeps.mk, ↓State.stat_keeps,
      ↓State.inc_keeps, or_true, true_or, eq_self, *]; done)
    | split

theorem State.collect_keeps (s : State) (h : SegHead) (data : List Byte) (heard : List Fn) {μ : Nat} {σ : State} (hk :
    Keeps μ σ s) (hm : within?
    0xF0000019E0FF1000000000000000000000000000000000000000000000000000000000000000000000000000000000000000000000000000000000000000000000000000000000000000000000000000000000000000000000000000000000000000000000000000000000000000000000000000000000000000000000000000000000000000000000000000000000000000000000000000000000000000000000000000000000000000000000000000000000000000000000000000000000000000000000000000000000000000000000000000000000000000000000000000000000000000000000000000000000000000000000000000000000000000000000000000000000000000000000000000000000000000000000000000000000000000000000000000000000000000000000000000000000000000000000000000000000000000000200000
    μ = true) : Keeps μ σ (State.collect s h data heard) := by
  refine hk.lift hm ?_
  unfold State.collect
  repeat' first
    | (extract_lets +onlyGivenNames u
       first
       | (refine Keeps.cut (u := u) ?_ (fun _ => ?_); subst u; on_goal 2 => clear_value u)
       | (have h := @id (_ → _) u; clear h; subst u)
       | clear_value u)
    | with_reducible assumption
    | (simp (decide := true) (maxDischargeDepth := 200) only [↓Keeps.refl, ↓Keeps.ite, ↓Keeps.mk,
      ↓State.dupSegment_keeps, ↓State.removeObj_keeps, ↓State.fit_snd, ↓State.stat_keeps, ↓State.inc_keeps,
      ↓State.setObj_keeps, or_true, true_or, eq_self, *]; done)
    | (split <;>
        (rename_i e
         refine Keeps.cut (State.fit_out (by with_reducible exact e) ?_ (by decide)) (fun _ => ?_) <;> clear e))
    | (with_reducible refine State.dupSegment_keeps _ _ ?_ (by decide))
    | (with_reducible refine State.removeObj_keeps _ _ _ ?_ (by decide))
    | (with_reducible refine State.fit_snd _ _ _ _ _ ?_ (by decide))
    | (with_reducible refine State.stat_keeps _ _ _ ?_ (by decide))
    | (with_reducible refine State.inc_keeps _ _ ?_ (by decide))
    | (with_reducible refine State.setObj_keeps _ _ ?_ (by decide))
    | split

theorem State.segment_keeps (s : State) (l : List (Option Byte)) (heard : List Fn) {μ : Nat} {σ : State} (hk : Keeps μ
    σ s) (hm : within?
    0xF0000019F8FF1000000000000000000000000000000000000000000000000000000000000000000000000000000000000000000000000000000000000000000000000000000000000000000000000000000000000000000000000000000000000000000000000000000000000000000000000000000000000000000000000000000000000000000000000000000000000000000000000000000000000000000000000000000000000000000000000000000000000000000000000000000000000000000000000000000000000000000000000000000000000000000000000000000000000000000000000000000000000000000000000000000000000000000000000000000000000000000000000000000000000000000000000000000000000000000000000000000000000000000000000000000000000000000000000000000000000000000200000
    μ = true) : Keeps μ σ (State.segment s l heard) := by
  refine hk.lift hm ?_
  unfold State.segment
  repeat' first
    | (extract_lets +onlyGivenNames u
       first
       | (refine Keeps.cut (u := u) ?_ (fun _ => ?_); subst u; on_goal 2 => clear_value u)
       | (have h := @id (_ → _) u; clear h; subst u)
       | clear_value u)
    | with_reducible assumption
    | (simp (decide := true) (maxDischargeDepth := 200) only [↓Keeps.refl, ↓Keeps.ite, ↓Keeps.mk, ↓State.inc_keeps,
      ↓State.badSegment_keeps, ↓State.stat_keeps, ↓State.collect_keeps, or_true, true_or, eq_self, *]; done)
    | split

theorem State.rdsPart_keeps (s : State) (pos : Nat) (part : List (Option Byte)) (heard : List Fn) {μ : Nat} {σ :
    State} (hk : Keeps μ σ s) (hm : within?
    0xF0000019F8FF1000000000000000000000000000000000000000000000000000000000000000000000000000000000000000000000000000000000000000000000000000000000000000000000000000000000000000000000000000000000000000000000000000000000000000000000000000000000000000000000000000000000000000000000000000000000000000000000000000000000000000000000000000000000000000000000000000000000000000000000000000000000000000000000000000000000000000000000000000000000000000000000000000000000000000000000000000000000000000000000000000000000000000000000000000000000000000000000000000000000000000000000000000000000000000000000000000000000000000000000000000000000000000000000000000000000000000000200000
    μ = true) : Keeps μ σ (State.rdsPart s pos part heard) := by
  refine hk.lift hm ?_
  unfold State.rdsPart
  repeat' first
    | (extract_lets +onlyGivenNames u
       first
       | (refine Keeps.cut (u := u) ?_ (fun _ => ?_); subst u; on_goal 2 => clear_value u)
       | (have h := @id (_ → _) u; clear h; subst u)
       | clear_value u)
    | with_reducible assumption
    | (simp (decide := true) (maxDischargeDepth := 200) only [↓Keeps.refl, ↓Keeps.ite, ↓Keeps.mk,
      ↓State.abandonSegment_keeps, ↓State.segment_keeps, or_true, true_or, eq_self, *]; done)
    | split

theorem execRdsSegmentTimeout_keeps (s : State) : Ends (Keeps
    0x18000000000000000000000000000000000000000000000000000000000000000000000000000000000000000000000000000000000000000000000000000000000000000000000000000000000000000000000000000000000000000000000000000000000000000000000000000000000000000000000000000000000000000000000000000000000000000000000000000000000000000000000000000000000000000000000000000000000000000000000000000000000000000000000000000000000000000000000000000000000000000000000000000000000000000000000000000000000000000000000000000000000000000000000000000000000000000000000000000000000000000000000000000000000000000000000000000000000000000000000000000000000000000000000000000000000000000000000200000
    s) (execRdsSegmentTimeout s) := by
  unfold execRdsSegmentTimeout
  refine Ends.next ?_
  repeat' first
    | (extract_lets +onlyGivenNames u
       first
       | (refine Keeps.cut (u := u) ?_ (fun _ => ?_); subst u; on_goal 2 => clear_value u)
       | (have h := @id (_ → _) u; clear h; subst u)
       | clear_value u)
    | with_reducible assumption
    | (simp (decide := true) (maxDischargeDepth := 200) only [↓Keeps.next, ↓Keeps.endsIte, ↓Keeps.refl, ↓Keeps.ite,
      ↓Keeps.mk, ↓State.abandonSegment_keeps, or_true, true_or, eq_self, *]; done)
    | split

theorem State.nextSector.fromFree_out {s u : State} {w : Option Nat} (e : nextSector.fromFree s = (w, u)) {μ : Nat}
    {σ : State} (hk : Keeps μ σ s) (hm : within? 0x10200000 μ = true) : Keeps μ σ u := by
  unfold nextSector.fromFree at e
  dsimp only at e
  generalize h : State.pick _ _ = p at e
  obtain ⟨a, t⟩ := p
  have ht : Keeps 0x10200000 s t := State.pick_out h .refl (by decide)
  cases a with
  | some n =>
    obtain ⟨-, rfl⟩ := Prod.mk.inj e
    refine hk.lift hm ?_
    have h' := State.eraseSector_keeps t n ht (by decide)
    simp (decide := true) only [↓Keeps.mk, or_true, true_or, eq_self, h']
  | none =>
    obtain ⟨-, rfl⟩ := Prod.mk.inj e
    exact hk.lift hm ht

theorem State.nextSector_out {s u : State} {w : Option Nat} (e : s.nextSector = (w, u)) {μ : Nat} {σ : State}
    (hk : Keeps μ σ s) (hm : within? 0x10200000 μ = true) : Keeps μ σ u := by
  unfold State.nextSector at e
  split at e
  · split at e
    · obtain ⟨-, rfl⟩ := Prod.mk.inj e
      exact hk.lift hm (by simp (decide := true) only [↓Keeps.mk, ↓Keeps.refl, or_true, true_or, eq_self])
    · exact State.nextSector.fromFree_out e hk hm
  · exact State.nextSector.fromFree_out e hk hm

theorem State.nextSector_snd (s : State) {μ : Nat} {σ : State} (hk : Keeps μ σ s) (hm : within? 0x10200000 μ
  = true) : Keeps μ σ (State.nextSector s).2 := State.nextSector_out (w := (State.nextSector s).1) (u :=
  (State.nextSector s).2) rfl hk hm

theorem State.flushSegs_out {l : List Seg} {s u : State} {w : List Seg} (e : s.flushSegs l = (w, u)) {μ : Nat} {σ : State}
    (hk : Keeps μ σ s) (hm : within? 0x10200000 μ = true) : Keeps μ σ u := by
  induction l generalizing s u w with
  | nil => obtain ⟨-, rfl⟩ := Prod.mk.inj e; exact hk
  | cons t l ih =>
    unfold State.flushSegs at e
    split at e
    rename_i t' v ht
    obtain ⟨-, rfl⟩ := Prod.mk.inj e
    refine ih rfl ?_
    split at ht
    · generalize hn : s.nextSector = p at ht
      obtain ⟨-, rfl⟩ := Prod.mk.inj ht
      exact State.nextSector_out (Prod.mk.eta (p := p) ▸ hn) hk hm
    · obtain ⟨-, rfl⟩ := Prod.mk.inj ht
      exact hk

theorem State.flushSegs_snd (s : State) (n : List Seg) {μ : Nat} {σ : State} (hk : Keeps μ σ s) (hm : within?
  0x10200000 μ = true) : Keeps μ σ (State.flushSegs s n).2 := State.flushSegs_out (w := (State.flushSegs s
  n).1) (u := (State.flushSegs s n).2) rfl hk hm

theorem State.flushBlks_out {l : List Blk} {s u : State} {w : List Blk} (e : s.flushBlks l = (w, u)) {μ : Nat} {σ : State}
    (hk : Keeps μ σ s) (hm : within? 0x10200000 μ = true) : Keeps μ σ u := by
  induction l generalizing s u w with
  | nil => obtain ⟨-, rfl⟩ := Prod.mk.inj e; exact hk
  | cons t l ih =>
    obtain ⟨-, rfl⟩ := Prod.mk.inj e
    exact ih rfl (State.flushSegs_out rfl hk hm)

theorem State.flushBlks_snd (s : State) (n : List Blk) {μ : Nat} {σ : State} (hk : Keeps μ σ s) (hm : within?
  0x10200000 μ = true) : Keeps μ σ (State.flushBlks s n).2 := State.flushBlks_out (w := (State.flushBlks s
  n).1) (u := (State.flushBlks s n).2) rfl hk hm

theorem State.hoardFlush_keeps (s : State) {μ : Nat} {σ : State} (hk : Keeps μ σ s) (hm : within?
    0xF000001800FF1000000000000000000000000000000000000000000000000000000000000000000000000000000000000000000000000000000000000000000000000000000000000000000000000000000000000000000000000000000000000000000000000000000000000000000000000000000000000000000000000000000000000000000000000000000000000000000000000000000000000000000000000000000000000000000000000000000000000000000000000000000000000000000000000000000000000000000000000000000000000000000000000000000000000000000000000000000000000000000000000000000000000000000000000000000000000000000000000000000000000000000000000000000000000000000000000000000000000000000000000000000000000000000000000000000000000000010200000
    μ = true) : Keeps μ σ (State.hoardFlush s) := by
  refine hk.lift hm ?_
  unfold State.hoardFlush
  repeat' first
    | (extract_lets +onlyGivenNames u
       first
       | (refine Keeps.cut (u := u) ?_ (fun _ => ?_); subst u; on_goal 2 => clear_value u)
       | (have h := @id (_ → _) u; clear h; subst u)
       | clear_value u)
    | with_reducible assumption
    | (simp (decide := true) (maxDischargeDepth := 200) only [↓Keeps.refl, ↓Keeps.ite, ↓Keeps.mk, ↓Keeps.foldl,
      ↓State.showEdf_keeps, ↓State.flushBlks_snd, ↓State.setObj_keeps, implies_true, or_true, true_or, eq_self,
      *]; done)
    | (split <;>
        (rename_i e
         refine Keeps.cut (State.flushBlks_out (by with_reducible exact e) ?_ (by decide)) (fun _ => ?_) <;> clear e))
    | (with_reducible refine Keeps.foldl (fun _ _ => ?_) ?_ <;> beta_reduce)
    | (with_reducible refine State.showEdf_keeps _ ?_ (by decide))
    | (with_reducible refine State.flushBlks_snd _ _ ?_ (by decide))
    | (with_reducible refine State.setObj_keeps _ _ ?_ (by decide))
    | split

theorem execHoardFlush_keeps (s : State) : Ends (Keeps
    0xF000001800FF1000000000000000000000000000000000000000000000000000000000000000000000000000000000000000000000000000000000000000000000000000000000000000000000000000000000000000000000000000000000000000000000000000000000000000000000000000000000000000000000000000000000000000000000000000000000000000000000000000000000000000000000000000000000000000000000000000000000000000000000000000000000000000000000000000000000000000000000000000000000000000000000000000000000000000000000000000000000000000000000000000000000000000000000000000000000000000000000000000000000000000000000000000000000000000000000000000000000000000000000000000000000000000000000000000000000000000010200000
    s) (execHoardFlush s) := by
  unfold execHoardFlush
  refine Ends.next ?_
  repeat' first
    | (extract_lets +onlyGivenNames u
       first
       | (refine Keeps.cut (u := u) ?_ (fun _ => ?_); subst u; on_goal 2 => clear_value u)
       | (have h := @id (_ → _) u; clear h; subst u)
       | clear_value u)
    | with_reducible assumption
    | (simp (decide := true) (maxDischargeDepth := 200) only [↓Keeps.next, ↓Keeps.endsIte, ↓Keeps.refl, ↓Keeps.ite,
      ↓Keeps.mk, ↓State.hoardFlush_keeps, or_true, true_or, eq_self, *]; done)
    | split

theorem State.writeStore_keeps (s : State) (o : Obj) (off k0 : Nat) {μ : Nat} {σ : State} (hk : Keeps μ σ s) (hm :
    within?
    0xF000001800FF1000000000000000000000000000000000000000000000000000000000000000000000000000000000000000000000000000000000000000000000000000000000000000000000000000000000000000000000000000000000000000000000000000000000000000000000000000000000000000000000000000000000000000000000000000000000000000000000000000000000000000000000000000000000000000000000000000000000000000000000000000000000000000000000000000000000000000000000000000000000000000000000000000000000000000000000000000000000000000000000000000000000000000000000000000000000000000000000000000000000000000000000000000000000000000000000000000000000000000000000000000000000000000000000000000000000000000000200004
    μ = true) : Keeps μ σ (State.writeStore s o off k0) := by
  refine hk.lift hm ?_
  unfold State.writeStore
  repeat' first
    | (extract_lets +onlyGivenNames u
       first
       | (refine Keeps.cut (u := u) ?_ (fun _ => ?_); subst u; on_goal 2 => clear_value u)
       | (have h := @id (_ → _) u; clear h; subst u)
       | clear_value u)
    | with_reducible assumption
    | (simp (decide := true) (maxDischargeDepth := 200) only [↓Keeps.refl, ↓Keeps.ite, ↓Keeps.mk, ↓Keeps.foldl,
      ↓State.setBytes_keeps, ↓State.setObj_keeps, implies_true, or_true, true_or, eq_self, *]; done)
    | (with_reducible refine Keeps.foldl (fun _ _ => ?_) ?_ <;> beta_reduce)
    | (with_reducible refine State.setBytes_keeps _ _ _ ?_ (by decide))
    | (with_reducible refine State.setObj_keeps _ _ ?_ (by decide))
    | split

theorem State.place_keeps (s : State) (o : Obj) {μ : Nat} {σ : State} (hk : Keeps μ σ s) (hm : within?
    0xF000001800FF1000000000000000000000000000000000000000000000000000000000000000000000000000000000000000000000000000000000000000000000000000000000000000000000000000000000000000000000000000000000000000000000000000000000000000000000000000000000000000000000000000000000000000000000000000000000000000000000000000000000000000000000000000000000000000000000000000000000000000000000000000000000000000000000000000000000000000000000000000000000000000000000000000000000000000000000000000000000000000000000000000000000000000000000000000000010000000000000000000000000000000000000000000000000000000000000000000000000000000000000000000000000000000000000000000000000000000010200004
    μ = true) : Keeps μ σ (State.place s o) := by
  refine hk.lift hm ?_
  unfold State.place
  repeat' first
    | (extract_lets +onlyGivenNames u
       first
       | (refine Keeps.cut (u := u) ?_ (fun _ => ?_); subst u; on_goal 2 => clear_value u)
       | (have h := @id (_ → _) u; clear h; subst u)
       | clear_value u)
    | with_reducible assumption
    | (simp (decide := true) (maxDischargeDepth := 200) only [↓Keeps.refl, ↓Keeps.ite, ↓Keeps.mk, ↓Keeps.foldl,
      ↓State.writeStore_keeps, ↓State.pick_snd, ↓State.eraseSector_keeps, ↓State.setObj_keeps,
      ↓State.showMaintain_keeps, ↓State.putBit_keeps, implies_true, or_true, true_or, eq_self, *]; done)
    | (split <;>
        (rename_i e
         refine Keeps.cut (State.pick_out (by with_reducible exact e) ?_ (by decide)) (fun _ => ?_) <;> clear e))
    | (with_reducible refine Keeps.foldl (fun _ _ => ?_) ?_ <;> beta_reduce)
    | (with_reducible refine State.writeStore_keeps _ _ _ _ ?_ (by decide))
    | (with_reducible refine State.pick_snd _ _ ?_ (by decide))
    | (with_reducible refine State.eraseSector_keeps _ _ ?_ (by decide))
    | (with_reducible refine State.setObj_keeps _ _ ?_ (by decide))
    | (with_reducible refine State.showMaintain_keeps _ ?_ (by decide))
    | (with_reducible refine State.putBit_keeps _ _ _ ?_ (by decide))
    | split

theorem State.blockDone_keeps (s : State) (stream id blk : Nat) (pikaOk : Bool) {μ : Nat} {σ : State} (hk : Keeps μ σ
    s) (hm : within?
    0xF000001A00FF1000000000000000000000000000000000000000000000000000000000000000000000000000000000000000000000000000000000000000000000000000000000000000000000000000000000000000000000000000000000000000000000000000000000000000000000000000000000000000000000000000000000000000000000000000000000000000000000000000000000000000000000000000000000000000000000000000000000000000000000000000000000000000000000000000000000000000000000000000000000000000000000000000000000000000000000000000000000000000000000000000000000000000000000000000000010000000000000000000000000000000000000000000000000000000000000000000000000000000000000000000000000000000000000000000000000000000014200004
    μ = true) : Keeps μ σ (State.blockDone s stream id blk pikaOk) := by
  refine hk.lift hm ?_
  unfold State.blockDone
  repeat' first
    | (extract_lets +onlyGivenNames u
       first
       | (refine Keeps.cut (u := u) ?_ (fun _ => ?_); subst u; on_goal 2 => clear_value u)
       | (have h := @id (_ → _) u; clear h; subst u)
       | clear_value u)
    | with_reducible assumption
    | (simp (decide := true) (maxDischargeDepth := 200) only [↓Keeps.refl, ↓Keeps.ite, ↓Keeps.mk, ↓State.stat_keeps,
      ↓State.place_keeps, ↓State.setObj_keeps, ↓State.noteFault_keeps, ↓State.inc_keeps, or_true, true_or, eq_self,
      *]; done)
    | split

theorem execBlockComplete_keeps (stream obj blk : Nat) (pikaOk : Bool) (s : State) : Ends (Keeps
    0xF000001A00FF1000000000000000000000000000000000000000000000000000000000000000000000000000000000000000000000000000000000000000000000000000000000000000000000000000000000000000000000000000000000000000000000000000000000000000000000000000000000000000000000000000000000000000000000000000000000000000000000000000000000000000000000000000000000000000000000000000000000000000000000000000000000000000000000000000000000000000000000000000000000000000000000000000000000000000000000000000000000000000000000000000000000000000000000000000000010000000000000000000000000000000000000000000000000000000000000000000000000000000000000000000000000000000000000000000000000000000014200004
    s) (execBlockComplete stream obj blk pikaOk s) := by
  unfold execBlockComplete
  refine Ends.next ?_
  repeat' first
    | (extract_lets +onlyGivenNames u
       first
       | (refine Keeps.cut (u := u) ?_ (fun _ => ?_); subst u; on_goal 2 => clear_value u)
       | (have h := @id (_ → _) u; clear h; subst u)
       | clear_value u)
    | with_reducible assumption
    | (simp (decide := true) (maxDischargeDepth := 200) only [↓Keeps.next, ↓Keeps.endsIte, ↓Keeps.refl, ↓Keeps.ite,
      ↓Keeps.mk, ↓State.blockDone_keeps, or_true, true_or, eq_self, *]; done)
    | split

theorem execDecodeRetry_keeps (stream obj blk : Nat) (pikaOk : Bool) (s : State) : Ends (Keeps
    0xF000001A00FF1000000000000000000000000000000000000000000000000000000000000000000000000000000000000000000000000000000000000000000000000000000000000000000000000000000000000000000000000000000000000000000000000000000000000000000000000000000000000000000000000000000000000000000000000000000000000000000000000000000000000000000000000000000000000000000000000000000000000000000000000000000000000000000000000000000000000000000000000000000000000000000000000000000000000000000000000000000000000000000000000000000000000000000000000000000010000000000000000000000000000000000000000000000000000000000000000000000000000000000000000000000000000000000000000000000000000000014200004
    s) (execDecodeRetry stream obj blk pikaOk s) := by
  unfold execDecodeRetry
  refine Ends.next ?_
  repeat' first
    | (extract_lets +onlyGivenNames u
       first
       | (refine Keeps.cut (u := u) ?_ (fun _ => ?_); subst u; on_goal 2 => clear_value u)
       | (have h := @id (_ → _) u; clear h; subst u)
       | clear_value u)
    | with_reducible assumption
    | (simp (decide := true) (maxDischargeDepth := 200) only [↓Keeps.next, ↓Keeps.endsIte, ↓Keeps.refl, ↓Keeps.ite,
      ↓Keeps.mk, ↓State.blockDone_keeps, or_true, true_or, eq_self, *]; done)
    | split

theorem State.chargeF0_keeps (s : State) {μ : Nat} {σ : State} (hk : Keeps μ σ s) (hm : within?
    0x600000000000000000000000000000000000000000000000000000000000000000000000000000010002000 μ = true) : Keeps μ σ
    (State.chargeF0 s) := by
  refine hk.lift hm ?_
  unfold State.chargeF0
  repeat' first
    | (extract_lets +onlyGivenNames u
       first
       | (refine Keeps.cut (u := u) ?_ (fun _ => ?_); subst u; on_goal 2 => clear_value u)
       | (have h := @id (_ → _) u; clear h; subst u)
       | clear_value u)
    | with_reducible assumption
    | (simp (decide := true) (maxDischargeDepth := 200) only [↓Keeps.refl, ↓Keeps.ite, ↓Keeps.mk,
      ↓State.chargeOpen_keeps, or_true, true_or, eq_self, *]; done)
    | split

theorem State.moveRecords_keeps (s : State) (p : Nat → Bool) {μ : Nat} {σ : State} (hk : Keeps μ σ s) (hm : within?
    0xF000001800FF1000000000000000000000000000000000000000000000000000000000000000000000000000000000000000000000000000000000000000000000000000000000000000000000000000000000000000000000000000000000000000000000000000000000000000000000000000000000000000000000000000000000000000000000000000000000000000000000000000000000000000000000000000000000000000000000000000000000000000000000000000000000000000000000000000000000000000000000000000000000000000000000000000000000000000000000000000000000000000000000000000000000000000000000000000000000000000000000000000000000000000000000000000000000000000000000000000000000000000000000000000000000000000000000000000000000000000010200000
    μ = true) : Keeps μ σ (State.moveRecords s p) := by
  refine hk.lift hm ?_
  unfold State.moveRecords
  repeat' first
    | (extract_lets +onlyGivenNames u
       first
       | (refine Keeps.cut (u := u) ?_ (fun _ => ?_); subst u; on_goal 2 => clear_value u)
       | (have h := @id (_ → _) u; clear h; subst u)
       | clear_value u)
    | with_reducible assumption
    | (simp (decide := true) (maxDischargeDepth := 200) only [↓Keeps.refl, ↓Keeps.ite, ↓Keeps.mk,
      ↓State.hoardFlush_keeps, ↓State.showEdf_keeps, or_true, true_or, eq_self, *]; done)
    | split

theorem execHoardCompact_keeps (s : State) : Ends (Keeps
    0xF000001800FF1000000000000000000000000000000000000000000000000000000000000000000000000000000000000000000000000000000000000000000000000000000000000000000000000000000000000000000000000000000000000000000000000000000000000000000000000000000000000000000000000000000000000000000000000000000000000000000000000000000000000000000000000000000000000000000000000000000000000000000000000000000000000000000000000000000000000000000000000000000000000000000000000000000000000000000000000000000000000000000000000000000000000000000000000000000010000000000000000000000000000000000000000000000000600000000000000000000000000000000000000000000000000000000000000000000000000000010202004
    s) (execHoardCompact s) := by
  unfold execHoardCompact
  refine Ends.next ?_
  repeat' first
    | (extract_lets +onlyGivenNames u
       first
       | (refine Keeps.cut (u := u) ?_ (fun _ => ?_); subst u; on_goal 2 => clear_value u)
       | (have h := @id (_ → _) u; clear h; subst u)
       | clear_value u)
    | with_reducible assumption
    | (simp (decide := true) (maxDischargeDepth := 200) only [↓Keeps.next, ↓Keeps.endsIte, ↓Keeps.refl, ↓Keeps.ite,
      ↓Keeps.mk, ↓Keeps.foldl, ↓State.chargeF0_keeps, ↓State.moveRecords_keeps, ↓State.place_keeps,
      ↓State.putBit_keeps, ↓State.showMaintain_keeps, implies_true, or_true, true_or, eq_self, *]; done)
    | (with_reducible refine Keeps.foldl (fun _ _ => ?_) ?_ <;> beta_reduce)
    | (with_reducible refine State.chargeF0_keeps _ ?_ (by decide))
    | (with_reducible refine State.moveRecords_keeps _ _ ?_ (by decide))
    | (with_reducible refine State.place_keeps _ _ ?_ (by decide))
    | (with_reducible refine State.putBit_keeps _ _ _ ?_ (by decide))
    | (with_reducible refine State.showMaintain_keeps _ ?_ (by decide))
    | split

theorem execWearLevelMove_keeps (s : State) : Ends (Keeps
    0xF000001800FF1000000000000000000000000000000000000000000000000000000000000000000000000000000000000000000000000000000000000000000000000000000000000000000000000000000000000000000000000000000000000000000000000000000000000000000000000000000000000000000000000000000000000000000000000000000000000000000000000000000000000000000000000000000000000000000000000000000000000000000000000000000000000000000000000000000000000000000000000000000000000000000000000000000000000000000000000000000000000000000000000000000000000000000000000000000000000000000000000000000000000000000000000000000000600000000000000000000000000000000000000000000000000000000000000000000000000000010202004
    s) (execWearLevelMove s) := by
  unfold execWearLevelMove
  refine Ends.next ?_
  repeat' first
    | (extract_lets +onlyGivenNames u
       first
       | (refine Keeps.cut (u := u) ?_ (fun _ => ?_); subst u; on_goal 2 => clear_value u)
       | (have h := @id (_ → _) u; clear h; subst u)
       | clear_value u)
    | with_reducible assumption
    | (simp (decide := true) (maxDischargeDepth := 200) only [↓Keeps.next, ↓Keeps.endsIte, ↓Keeps.refl, ↓Keeps.ite,
      ↓Keeps.mk, ↓Keeps.foldl, ↓State.chargeF0_keeps, ↓State.pick_snd, ↓State.eraseSector_keeps, ↓State.setObj_keeps,
      ↓State.setBytes_keeps, ↓State.moveRecords_keeps, implies_true, or_true, true_or, eq_self, *]; done)
    | (split <;>
        (rename_i e
         refine Keeps.cut (State.pick_out (by with_reducible exact e) ?_ (by decide)) (fun _ => ?_) <;> clear e))
    | (with_reducible refine Keeps.foldl (fun _ _ => ?_) ?_ <;> beta_reduce)
    | (with_reducible refine State.chargeF0_keeps _ ?_ (by decide))
    | (with_reducible refine State.pick_snd _ _ ?_ (by decide))
    | (with_reducible refine State.eraseSector_keeps _ _ ?_ (by decide))
    | (with_reducible refine State.setObj_keeps _ _ ?_ (by decide))
    | (with_reducible refine State.setBytes_keeps _ _ _ ?_ (by decide))
    | (with_reducible refine State.moveRecords_keeps _ _ ?_ (by decide))
    | split

theorem regIn_EDF_CSER {m : Nat} (n : Nat) (hm : ∀ i < 4, regIn m (EDF_CSER.w (2 * i)).key = true ∧ regIn m ((EDF_CSER.w (2 * i)).key + 1) = true) :
    regIn m (EDF_CSER.w (2 * (n % 4))).key = true ∧ regIn m ((EDF_CSER.w (2 * (n % 4))).key + 1) = true := hm _ (Nat.mod_lt _ (by decide))

theorem regIn_EDF_GROUP_ID {m : Nat} (n : Nat) (hm : ∀ i < 4, regIn m (EDF_GROUP_ID.w (2 * i)).key = true ∧ regIn m ((EDF_GROUP_ID.w (2 * i)).key + 1) = true) :
    regIn m (EDF_GROUP_ID.w (2 * (n % 4))).key = true ∧ regIn m ((EDF_GROUP_ID.w (2 * (n % 4))).key + 1) = true := hm _ (Nat.mod_lt _ (by decide))

theorem regIn_TIME_PROP {m : Nat} (n : Nat) (hm : ∀ i < 8, regIn m (TIME_PROP_ID.w i).key = true ∧ regIn m (TIME_PROP_OFS.w i).key = true) :
    regIn m (TIME_PROP_ID.w (n % 8)).key = true ∧ regIn m (TIME_PROP_OFS.w (n % 8)).key = true := hm _ (Nat.mod_lt _ (by decide))

theorem State.noteSerial_keeps (s : State) (signer serial : Nat) {μ : Nat} {σ : State} (hk : Keeps μ σ s) (hm :
    within?
    0xFF0000000000000000000000000000000000000000000000000000000000000000000000000000000000000000000000000000000000000000000000000000000000000000000000000000000000000000000000000000000000000000000000000000000000000000000000000000000000000000000000000000000000000000000000000000000000000000000000000000000000000000000000000000000000000000000000000000000000000000000000000000000000000000000000000000000000000000000000000000000000000000000000000000000000000000000000000000000000000000000000000000000000000000000000000000000000000000000000000000000000000000000000000000000000000000000000000000000000000000000000000000000000000000000000000000000000000000000000000000200000
    μ = true) : Keeps μ σ (State.noteSerial s signer serial) := by
  refine hk.lift hm ?_
  unfold State.noteSerial
  repeat' first
    | (extract_lets +onlyGivenNames u
       first
       | (refine Keeps.cut (u := u) ?_ (fun _ => ?_); subst u; on_goal 2 => clear_value u)
       | (have h := @id (_ → _) u; clear h; subst u)
       | clear_value u)
    | with_reducible assumption
    | (simp (decide := true) (maxDischargeDepth := 200) only [↓Keeps.refl, ↓Keeps.ite, ↓Keeps.mk, ↓State.put32_keeps,
      regIn_EDF_CSER, or_true, true_or, eq_self, *]; done)
    | split

theorem State.propEntry_keeps (s : State) (eid ofs : Nat) {μ : Nat} {σ : State} (hk : Keeps μ σ s) (hm : within?
    0x40000000000000000000000000FFFF000000000000000000000000000000000000000000000000000000000000000000000000000000000000000000000000000000000000000000000000000000000000000000000000000000000000000000000000000000000000000000000000000000000000000000000000000000000000000000000000000000000000000000000000000000000000000000000000000000000000000000000000000000000000000000000000000000000000000000000000000000000000000000000000000000000000000000000000000000000000000000000000000000000000000000000000000000000000000000000000000000000000000000000000000000000000000000000000000000000000000000000000000000000000000000000000000000000000000000000000000000000000000000000000
    μ = true) : Keeps μ σ (State.propEntry s eid ofs) := by
  refine hk.lift hm ?_
  unfold State.propEntry
  repeat' first
    | (extract_lets +onlyGivenNames u
       first
       | (refine Keeps.cut (u := u) ?_ (fun _ => ?_); subst u; on_goal 2 => clear_value u)
       | (have h := @id (_ → _) u; clear h; subst u)
       | clear_value u)
    | with_reducible assumption
    | (simp (decide := true) (maxDischargeDepth := 200) only [↓Keeps.refl, ↓Keeps.ite, ↓Keeps.mk, ↓State.put_keeps,
      ↓State.inc_keeps, regIn_TIME_PROP, or_true, true_or, eq_self, *]; done)
    | split

theorem State.consume_keeps (s : State) (h : ObjHead) {μ : Nat} {σ : State} (hk : Keeps μ σ s) (hm : within?
    0xFFFFF01C00FF100000000000000000000FFFF000001C10000000000000000000000000000000000000000000000000000000000000000000000000000000000000000000000000000000000000000000000000000000000000000000000000000000000000000000000000000000000000000000000000000000000000000000000000000000000000000000000000000000000000000000000000000000000000000000000000000000000000000000000000000000000000000000000000000000000000000000000000000000000000000000000010000000000000000000000000000000000000000000000000000000000000000000000000000000000000000000000400000000000000000000000000000000000000000002000000000000000010000000000000000000000000000000000000000000000000000000000000000000000202281
    μ = true) : Keeps μ σ (State.consume s h) := by
  refine hk.lift hm ?_
  unfold State.consume
  repeat' first
    | (extract_lets +onlyGivenNames u
       first
       | (refine Keeps.cut (u := u) ?_ (fun _ => ?_); subst u; on_goal 2 => clear_value u)
       | (have h := @id (_ → _) u; clear h; subst u)
       | clear_value u)
    | with_reducible assumption
    | (simp (decide := true) (maxDischargeDepth := 200) only [↓Keeps.refl, ↓Keeps.ite, ↓Keeps.mk, ↓Keeps.foldl,
      ↓State.noteSerial_keeps, ↓State.showEdf_keeps, ↓State.put32_keeps, ↓State.put_keeps, ↓State.announce_keeps,
      ↓State.propEntry_keeps, implies_true, regIn_EDF_GROUP_ID, or_true, true_or, eq_self, *]; done)
    | (with_reducible refine Keeps.foldl (fun _ _ => ?_) ?_ <;> beta_reduce)
    | (with_reducible refine State.noteSerial_keeps _ _ _ ?_ (by decide))
    | (with_reducible refine State.showEdf_keeps _ ?_ (by decide))
    | (with_reducible refine State.put32_keeps _ _ _ ?_ (by decide) (by decide))
    | (with_reducible refine State.put_keeps _ _ _ ?_ (by decide))
    | (with_reducible refine State.announce_keeps _ _ _ ?_ (by decide))
    | (with_reducible refine State.propEntry_keeps _ _ _ ?_ (by decide))
    | split

theorem State.deliverObj_keeps (s : State) (h : ObjHead) (stream id : Word) (addr : Nat) (dup : Bool) (fns : List Fn)
    {μ : Nat} {σ : State} (hk : Keeps μ σ s) (hm : within?
    0x400000000000000000000000000000000000000000002000000000000000010000000000000000000000000000000000000000000000000000000000000000000000002081
    μ = true) : Keeps μ σ (State.deliverObj s h stream id addr dup fns) := by
  refine hk.lift hm ?_
  unfold State.deliverObj
  repeat' first
    | (extract_lets +onlyGivenNames u
       first
       | (refine Keeps.cut (u := u) ?_ (fun _ => ?_); subst u; on_goal 2 => clear_value u)
       | (have h := @id (_ → _) u; clear h; subst u)
       | clear_value u)
    | with_reducible assumption
    | (simp (decide := true) (maxDischargeDepth := 200) only [↓Keeps.refl, ↓Keeps.ite, ↓Keeps.mk,
      ↓State.deliverAll_keeps, or_true, true_or, eq_self, *]; done)
    | split

theorem State.applyResult_keeps (s : State) (o : Obj) (d : List Byte) (res : Nat) {μ : Nat} {σ : State} (hk : Keeps μ
    σ s) (hm : within?
    0xFFFFF01C07FF100000000000000000000FFFF000001C10000000000000000000000000000000000000000000000000000000000000000000000000000000000000000000000000000000000000000000000000000000000000000000000000000000000000000000000000000000000000000000000000000000000000000000000000000000000000000000000000000000000000000000000000000000000000000000000000000000000000000000000000000000000000000000000000000000000000000000000000000000000000000000000030000000000000000000000000000000000000000000000000000000000000000000000000000000000000000000000400000000000000000000000000000000000000000002000000000000000010000000000000000000000000000000000000000000000000000000000000000000000202281
    μ = true) : Keeps μ σ (State.applyResult s o d res) := by
  refine hk.lift hm ?_
  unfold State.applyResult
  repeat' first
    | (extract_lets +onlyGivenNames u
       first
       | (refine Keeps.cut (u := u) ?_ (fun _ => ?_); subst u; on_goal 2 => clear_value u)
       | (have h := @id (_ → _) u; clear h; subst u)
       | clear_value u)
    | with_reducible assumption
    | (simp (decide := true) (maxDischargeDepth := 200) only [↓Keeps.refl, ↓Keeps.ite, ↓Keeps.mk, ↓State.put_keeps,
      ↓State.stat_keeps, ↓State.consume_keeps, ↓State.deliverObj_keeps, ↓State.setObj_keeps, ↓State.inc_keeps,
      ↓State.removeObj_keeps, or_true, true_or, eq_self, *]; done)
    | split

theorem execObjectAcceptance_keeps (stream obj : Nat) (s : State) : Ends (Keeps
    0xFFFFF01C07FF100000000000000000000FFFF000001C10000000000000000000000000000000000000000000000000000000000000000000000000000000000000000000000000000000000000000000000000000000000000000000000000000000000000000000000000000000000000000000000000000000000000000000000000000000000000000000000000000000000000000000000000000000000000000000000000000000000000000000000000000000000000000000000000000000000000000000000000000000000000000000000030000000000000000000000000000000000000000000000000000000000000000000000000000000000000000000000400000000000000000000000000000000000000000002000000000000000010000000000000000000000000000000000000000000000000000000000000000000000202281
    s) (execObjectAcceptance stream obj s) := by
  unfold execObjectAcceptance
  refine Ends.next ?_
  repeat' first
    | (extract_lets +onlyGivenNames u
       first
       | (refine Keeps.cut (u := u) ?_ (fun _ => ?_); subst u; on_goal 2 => clear_value u)
       | (have h := @id (_ → _) u; clear h; subst u)
       | clear_value u)
    | with_reducible assumption
    | (simp (decide := true) (maxDischargeDepth := 200) only [↓Keeps.next, ↓Keeps.endsIte, ↓Keeps.refl, ↓Keeps.ite,
      ↓Keeps.mk, ↓State.applyResult_keeps, or_true, true_or, eq_self, *]; done)
    | split

theorem execVanWindowStart_keeps (s : State) : Ends (Keeps
    0xF000001800FF1000000000000000000000000000000000000000000000000000000000000000000000000000000000000000000000000000000000000000000000000000000000000000000000000000000000000000000000000000000000000000000000000000000000000000000000000000000000000000000000000000000000000000000000000000000000000000000000000000000000000000000000000000000000000000000000000000000000000000000000000000000000000000000000000000000000000000000000000000000000000000000000000000000000000000000000000000000000000000000000000000000000000000000000000000000400000000000000000000000000000000000000000000000000000000000000000000000000000000000000000000000000000000000000000000000000000000000200080
    s) (execVanWindowStart s) := by
  unfold execVanWindowStart
  refine Ends.next ?_
  repeat' first
    | (extract_lets +onlyGivenNames u
       first
       | (refine Keeps.cut (u := u) ?_ (fun _ => ?_); subst u; on_goal 2 => clear_value u)
       | (have h := @id (_ → _) u; clear h; subst u)
       | clear_value u)
    | with_reducible assumption
    | (simp (decide := true) (maxDischargeDepth := 200) only [↓Keeps.next, ↓Keeps.endsIte, ↓Keeps.refl, ↓Keeps.ite,
      ↓Keeps.mk, ↓State.showEdf_keeps, ↓State.wantHost_keeps, or_true, true_or, eq_self, *]; done)
    | split

theorem State.vanClr_keeps (s : State) {μ : Nat} {σ : State} (hk : Keeps μ σ s) (hm : within?
    0xF000001800FF1000000000000000000000000000000000000000000000000000000000000000000000000000000000000000000000000000000000000000000000000000000000000000000000000000000000000000000000000000000000000000000000000000000000000000000000000000000000000000000000000000000000000000000000000000000000000000000000000000000000000000000000000000000000000000000000000000000000000000000000000000000000000000000000000000000000000000000000000000000000000000000000000000000000000000000000000000000000000000000000000000000000000000000000000000000000000000000000000000000000000000000000000000000000000000000000000000000000000000000000000000000000000000000000000000000000000000000200000
    μ = true) : Keeps μ σ (State.vanClr s) := by
  refine hk.lift hm ?_
  unfold State.vanClr
  repeat' first
    | (extract_lets +onlyGivenNames u
       first
       | (refine Keeps.cut (u := u) ?_ (fun _ => ?_); subst u; on_goal 2 => clear_value u)
       | (have h := @id (_ → _) u; clear h; subst u)
       | clear_value u)
    | with_reducible assumption
    | (simp (decide := true) (maxDischargeDepth := 200) only [↓Keeps.refl, ↓Keeps.ite, ↓Keeps.mk,
      ↓State.showEdf_keeps, or_true, true_or, eq_self, *]; done)
    | split

theorem execEdfSegmentStat_keeps (s : State) : Ends (Keeps
    0x400000000000000000000000000000000000000000002000000000000000010000000000000000000000000000000000000000000000000000000000000000000000202081
    s) (execEdfSegmentStat s) := by
  unfold execEdfSegmentStat
  refine Ends.next ?_
  repeat' first
    | (extract_lets +onlyGivenNames u
       first
       | (refine Keeps.cut (u := u) ?_ (fun _ => ?_); subst u; on_goal 2 => clear_value u)
       | (have h := @id (_ → _) u; clear h; subst u)
       | clear_value u)
    | with_reducible assumption
    | (simp (decide := true) (maxDischargeDepth := 200) only [↓Keeps.next, ↓Keeps.endsIte, ↓Keeps.refl, ↓Keeps.ite,
      ↓Keeps.mk, ↓Keeps.foldl, ↓State.deliver_keeps, implies_true, or_true, true_or, eq_self, *]; done)
    | (with_reducible refine Keeps.foldl (fun _ _ => ?_) ?_ <;> beta_reduce)
    | (with_reducible refine State.deliver_keeps _ _ _ _ _ _ ?_ (by decide))
    | split

theorem execObjectExpiry_keeps (stream obj : Nat) (s : State) : Ends (Keeps
    0xF000001800FF1000000000000000000000000000000000000000000000000000000000000000000000000000000000000000000000000000000000000000000000000000000000000000000000000000000000000000000000000000000000000000000000000000000000000000000000000000000000000000000000000000000000000000000000000000000000000000000000000000000000000000000000000000000000000000000000000000000000000000000000000000000000000000000000000000000000000000000000000000000000000000000000000000000000000000000000000000000000000000000000000000000000000000000000000000000000000000000000000000000000000000000000000000000000000000000000000000000000000000000000000000000000000000000000000000000000000000000200000
    s) (execObjectExpiry stream obj s) := by
  unfold execObjectExpiry
  refine Ends.next ?_
  repeat' first
    | (extract_lets +onlyGivenNames u
       first
       | (refine Keeps.cut (u := u) ?_ (fun _ => ?_); subst u; on_goal 2 => clear_value u)
       | (have h := @id (_ → _) u; clear h; subst u)
       | clear_value u)
    | with_reducible assumption
    | (simp (decide := true) (maxDischargeDepth := 200) only [↓Keeps.next, ↓Keeps.endsIte, ↓Keeps.refl, ↓Keeps.ite,
      ↓Keeps.mk, ↓State.leaveHoard_keeps, or_true, true_or, eq_self, *]; done)
    | split

theorem execDoneListExpiry_keeps (stream obj : Nat) (s : State) : Ends (Keeps 0x200000 s) (execDoneListExpiry stream
    obj s) := by
  unfold execDoneListExpiry
  refine Ends.next ?_
  repeat' first
    | (extract_lets +onlyGivenNames u
       first
       | (refine Keeps.cut (u := u) ?_ (fun _ => ?_); subst u; on_goal 2 => clear_value u)
       | (have h := @id (_ → _) u; clear h; subst u)
       | clear_value u)
    | with_reducible assumption
    | (simp (decide := true) (maxDischargeDepth := 200) only [↓Keeps.next, ↓Keeps.endsIte, ↓Keeps.refl, ↓Keeps.ite,
      ↓Keeps.mk, or_true, true_or, eq_self, *]; done)
    | split

theorem State.edfErase_keeps (s : State) (f : Fn) {μ : Nat} {σ : State} (hk : Keeps μ σ s) (hm : within?
    0xF000001800FF1000000000000000000000000000000000000000000000000000000000000000000000000000000000000000000000000000000000000000000000000000000000000000000000000000000000000000000000000000000000000000000000000000000000000000000000000000000000000000000000000000000000000000000000000000000000000000000000000000000000000000000000000000000000000000000000000000000000000000000000000000000000000000000000000000000000000000000000000000000000000000000000000000000000000000000000000000000000000000000000000000000000000000000000000000000000000000000000000000000000000000000000000000000000000000000000020000000000000000000000000000000000000000000000000000000000000000000200000
    μ = true) : Keeps μ σ (State.edfErase s f) := by
  refine hk.lift hm ?_
  unfold State.edfErase
  repeat' first
    | (extract_lets +onlyGivenNames u
       first
       | (refine Keeps.cut (u := u) ?_ (fun _ => ?_); subst u; on_goal 2 => clear_value u)
       | (have h := @id (_ → _) u; clear h; subst u)
       | clear_value u)
    | with_reducible assumption
    | (simp (decide := true) (maxDischargeDepth := 200) only [↓Keeps.refl, ↓Keeps.ite, ↓Keeps.mk, ↓State.setErr_keeps,
      ↓State.showEdf_keeps, or_true, true_or, eq_self, *]; done)
    | split

theorem State.objStatus_out {stream id : Nat} {s u : State} {w : List Word} (e : s.objStatus stream id = (w, u)) {μ : Nat}
    {σ : State} (hk : Keeps μ σ s) (hm : within? 0x10000000 μ = true) : Keeps μ σ u := by
  unfold State.objStatus at e
  split at e
  · obtain ⟨-, rfl⟩ := Prod.mk.inj e; exact hk
  · split at e
    · obtain ⟨-, rfl⟩ := Prod.mk.inj e; exact State.fresh_out rfl hk hm
    · obtain ⟨-, rfl⟩ := Prod.mk.inj e; exact hk

theorem State.objStatus_snd (s : State) (stream id : Nat) {μ : Nat} {σ : State} (hk : Keeps μ σ s) (hm : within?
  0x10000000 μ = true) : Keeps μ σ (State.objStatus s stream id).2 := State.objStatus_out (w :=
  (State.objStatus s stream id).1) (u := (State.objStatus s stream id).2) rfl hk hm

theorem State.hoardOp_keeps (s : State) (f : Fn) (sub : Nat) (act : List Word → State) {μ : Nat} {σ : State}
    (hk : Keeps μ σ s) (hm : within? 0x2000 μ = true) (ha : ∀ a, Keeps μ σ (act a)) :
    Keeps μ σ (s.hoardOp f sub act) := by
  refine State.withOp_keeps _ _ _ _ hk (fun a => ?_)
  split
  · exact hk
  · split
    · exact State.outcome_keeps _ _ _ _ hk hm
    · exact ha _

theorem execHoardQueryStatus_keeps (f : Fn) (s : State) : Ends (Keeps 0x10002000 s) (execHoardQueryStatus f s) := by
  unfold execHoardQueryStatus
  refine Ends.next ?_
  repeat' first
    | (extract_lets +onlyGivenNames u
       first
       | (refine Keeps.cut (u := u) ?_ (fun _ => ?_); subst u; on_goal 2 => clear_value u)
       | (have h := @id (_ → _) u; clear h; subst u)
       | clear_value u)
    | with_reducible assumption
    | (simp (decide := true) (maxDischargeDepth := 200) only [↓Keeps.next, ↓Keeps.endsIte, ↓Keeps.refl, ↓Keeps.ite,
      ↓Keeps.mk, ↓State.objStatus_snd, ↓State.outcome_keeps, implies_true, or_true, true_or, eq_self, *]; done)
    | (split <;>
        (rename_i e
         refine Keeps.cut (State.objStatus_out (by with_reducible exact e) ?_ (by decide)) (fun _ => ?_) <;> clear e))
    | (with_reducible refine State.hoardOp_keeps _ _ _ _ ?_ (by decide) (fun _ => ?_) <;> beta_reduce)
    | (with_reducible refine State.objStatus_snd _ _ _ ?_ (by decide))
    | (with_reducible refine State.outcome_keeps _ _ _ _ ?_ (by decide))
    | split

theorem execHoardQueryRelease_keeps (f : Fn) (s : State) : Ends (Keeps
    0xF000001800FF1000000000000000000000000000000000000000000000000000000000000000000000000000000000000000000000000000000000000000000000000000000000000000000000000000000000000000000000000000000000000000000000000000000000000000000000000000000000000000000000000000000000000000000000000000000000000000000000000000000000000000000000000000000000000000000000000000000000000000000000000000000000000000000000000000000000000000000000000000000000000000000000000000000000000000000000000000000000000000000000000000000000000000000000000000000000000000000000000000000000000000000000000000000000000000000000000000000000000000000000000000000000000000000000000000000000000000010202000
    s) (execHoardQueryRelease f s) := by
  unfold execHoardQueryRelease
  refine Ends.next ?_
  repeat' first
    | (extract_lets +onlyGivenNames u
       first
       | (refine Keeps.cut (u := u) ?_ (fun _ => ?_); subst u; on_goal 2 => clear_value u)
       | (have h := @id (_ → _) u; clear h; subst u)
       | clear_value u)
    | with_reducible assumption
    | (simp (decide := true) (maxDischargeDepth := 200) only [↓Keeps.next, ↓Keeps.endsIte, ↓Keeps.refl, ↓Keeps.ite,
      ↓Keeps.mk, ↓State.outcome_keeps, ↓State.removeObj_keeps, ↓State.setObj_keeps, ↓State.objStatus_snd,
      implies_true, or_true, true_or, eq_self, *]; done)
    | (split <;>
        (rename_i e
         refine Keeps.cut (State.objStatus_out (by with_reducible exact e) ?_ (by decide)) (fun _ => ?_) <;> clear e))
    | (with_reducible refine State.hoardOp_keeps _ _ _ _ ?_ (by decide) (fun _ => ?_) <;> beta_reduce)
    | (with_reducible refine State.outcome_keeps _ _ _ _ ?_ (by decide))
    | (with_reducible refine State.removeObj_keeps _ _ _ ?_ (by decide))
    | (with_reducible refine State.setObj_keeps _ _ ?_ (by decide))
    | (with_reducible refine State.objStatus_snd _ _ _ ?_ (by decide))
    | split

theorem execHoardQueryList_keeps (f : Fn) (s : State) : Ends (Keeps 0x10002000 s) (execHoardQueryList f s) := by
  unfold execHoardQueryList
  refine Ends.next ?_
  repeat' first
    | (extract_lets +onlyGivenNames u
       first
       | (refine Keeps.cut (u := u) ?_ (fun _ => ?_); subst u; on_goal 2 => clear_value u)
       | (have h := @id (_ → _) u; clear h; subst u)
       | clear_value u)
    | with_reducible assumption
    | (simp (decide := true) (maxDischargeDepth := 200) only [↓Keeps.next, ↓Keeps.endsIte, ↓Keeps.refl, ↓Keeps.ite,
      ↓Keeps.mk, ↓State.objStatus_snd, ↓State.outcome_keeps, implies_true, or_true, true_or, eq_self, *]; done)
    | (split <;>
        (rename_i e
         refine Keeps.cut (State.objStatus_out (by with_reducible exact e) ?_ (by decide)) (fun _ => ?_) <;> clear e))
    | (with_reducible refine State.hoardOp_keeps _ _ _ _ ?_ (by decide) (fun _ => ?_) <;> beta_reduce)
    | (with_reducible refine State.objStatus_snd _ _ _ ?_ (by decide))
    | (with_reducible refine State.outcome_keeps _ _ _ _ ?_ (by decide))
    | split

theorem execHoardQueryUsage_keeps (f : Fn) (s : State) : Ends (Keeps 0x2000 s) (execHoardQueryUsage f s) := by
  unfold execHoardQueryUsage
  refine Ends.next ?_
  repeat' first
    | (extract_lets +onlyGivenNames u
       first
       | (refine Keeps.cut (u := u) ?_ (fun _ => ?_); subst u; on_goal 2 => clear_value u)
       | (have h := @id (_ → _) u; clear h; subst u)
       | clear_value u)
    | with_reducible assumption
    | (simp (decide := true) (maxDischargeDepth := 200) only [↓Keeps.next, ↓Keeps.endsIte, ↓Keeps.refl, ↓Keeps.ite,
      ↓Keeps.mk, ↓State.outcome_keeps, implies_true, or_true, true_or, eq_self, *]; done)
    | (with_reducible refine State.hoardOp_keeps _ _ _ _ ?_ (by decide) (fun _ => ?_) <;> beta_reduce)
    | (with_reducible refine State.outcome_keeps _ _ _ _ ?_ (by decide))
    | split

theorem execVerifyObject_keeps (f : Fn) (s : State) : Ends (Keeps
    0xFFFFF01C07FF100000000000000000000FFFF000001C10000000000000000000000000000000000000000000000000000000000000000000000000000000000000000000000000000000000000000000000000000000000000000000000000000000000000000000000000000000000000000000000000000000000000000000000000000000000000000000000000000000000000000000000000000000000000000000000000000000000000000000000000000000000000000000000000000000000000000000000000000000000000000000000030000000000000000000000000000000000000000000000000000000000000000000000000000000000000000000000400000000000000000000000000000000000000000002000000000000000010000000000000000000000000000000000000000000000000000000000000000000010202281
    s) (execVerifyObject f s) := by
  unfold execVerifyObject
  refine Ends.next ?_
  repeat' first
    | (extract_lets +onlyGivenNames u
       first
       | (refine Keeps.cut (u := u) ?_ (fun _ => ?_); subst u; on_goal 2 => clear_value u)
       | (have h := @id (_ → _) u; clear h; subst u)
       | clear_value u)
    | with_reducible assumption
    | (simp (decide := true) (maxDischargeDepth := 200) only [↓Keeps.next, ↓Keeps.endsIte, ↓Keeps.refl, ↓Keeps.ite,
      ↓Keeps.mk, ↓State.outcome_keeps, ↓State.applyResult_keeps, ↓State.inc_keeps, ↓State.fresh_snd,
      ↓State.deliverObj_keeps, ↓State.consume_keeps, implies_true, or_true, true_or, eq_self, *]; done)
    | (split <;>
        (rename_i e
         refine Keeps.cut (State.fresh_out (by with_reducible exact e) ?_ (by decide)) (fun _ => ?_) <;> clear e))
    | (with_reducible refine State.withFlint_keeps _ _ _ _ ?_ (fun _ => ?_) <;> beta_reduce)
    | (with_reducible refine State.outcome_keeps _ _ _ _ ?_ (by decide))
    | (with_reducible refine State.applyResult_keeps _ _ _ _ ?_ (by decide))
    | (with_reducible refine State.inc_keeps _ _ ?_ (by decide))
    | (with_reducible refine State.fresh_snd _ ?_ (by decide))
    | (with_reducible refine State.deliverObj_keeps _ _ _ _ _ _ _ ?_ (by decide))
    | (with_reducible refine State.consume_keeps _ _ ?_ (by decide))
    | split

end Sys2Proof.Machine
end

