-- ==== Sys2Proof/Laws/KeepsPlans.lean ====
section
/-! SUPPORT. What each operation of Machine/Plans.lean may change, and that it keeps the canonical form. -/

set_option Elab.async false

set_option linter.unusedSimpArgs false
set_option linter.unusedTactic false
set_option linter.unreachableTactic false

namespace Sys2Proof.Machine

open R

theorem State.showPlans_keeps (s : State) {μ : Nat} {σ : State} (hk : Keeps μ σ s) (hm : within?
    0x100000000000000000000000000000000000000000000000000000000000000000000000000000000000000000000000000000000000000000000000000000000000000000000000000000000000000000000000000000000000000000000000000000000000000000000000000000000000000000000000000000000000000010000000000000000000000000000000000000000000000000022000000000000000000000000000000000000000000000000000000000000000000000000000000000000
    μ = true) : Keeps μ σ (State.showPlans s) := by
  refine hk.lift hm ?_
  unfold State.showPlans
  repeat' first
    | (extract_lets +onlyGivenNames u
       first
       | (refine Keeps.cut (u := u) ?_ (fun _ => ?_); subst u; on_goal 2 => clear_value u)
       | (have h := @id (_ → _) u; clear h; subst u)
       | clear_value u)
    | with_reducible assumption
    | (simp (decide := true) (maxDischargeDepth := 200) only [↓Keeps.refl, ↓Keeps.ite, ↓Keeps.mk, ↓State.fput_keeps,
      ↓State.put_keeps, ↓State.putBit_keeps, ↓State.updMode_keeps, implies_true, regIn_on, or_true, true_or, eq_self,
      *]; done)
    | (with_reducible refine State.eachFn_keeps _ _ _ ?_ (fun _ _ => ?_) <;> beta_reduce)
    | (with_reducible refine State.fput_keeps _ _ _ _ ?_ (by decide))
    | (with_reducible refine State.put_keeps _ _ _ ?_ (by decide))
    | (with_reducible refine State.putBit_keeps _ _ _ ?_ (by decide))
    | (with_reducible refine State.updMode_keeps _ ?_ (by decide))
    | split

theorem State.refigure_keeps (s : State) {μ : Nat} {σ : State} (hk : Keeps μ σ s) (hm : within?
    0x400000000000000000000000000000000000000000000000000000000000000000000000000000000000000000000000000000000000000000000000000000000000000000000000000000000000000000000000000000000000000000000000000000000000000000000000000000000000000000000000000000000000000000000000000000000000000000000000000000000000000000000180000000000000000000000000000000000000000000000000000000000000000000000000000000000000
    μ = true) : Keeps μ σ (State.refigure s) := by
  refine hk.lift hm ?_
  unfold State.refigure
  repeat' first
    | (extract_lets +onlyGivenNames u
       first
       | (refine Keeps.cut (u := u) ?_ (fun _ => ?_); subst u; on_goal 2 => clear_value u)
       | (have h := @id (_ → _) u; clear h; subst u)
       | clear_value u)
    | with_reducible assumption
    | (simp (decide := true) (maxDischargeDepth := 200) only [↓Keeps.refl, ↓Keeps.ite, ↓Keeps.mk,
      ↓State.showUse_keeps, or_true, true_or, eq_self, *]; done)
    | split

theorem State.plansChanged_keeps (s : State) {μ : Nat} {σ : State} (hk : Keeps μ σ s) (hm : within? 0x8000 μ = true) :
    Keeps μ σ (State.plansChanged s) := by
  refine hk.lift hm ?_
  unfold State.plansChanged
  repeat' first
    | (extract_lets +onlyGivenNames u
       first
       | (refine Keeps.cut (u := u) ?_ (fun _ => ?_); subst u; on_goal 2 => clear_value u)
       | (have h := @id (_ → _) u; clear h; subst u)
       | clear_value u)
    | with_reducible assumption
    | (simp (decide := true) (maxDischargeDepth := 200) only [↓Keeps.refl, ↓Keeps.ite, ↓Keeps.mk, or_true, true_or,
      eq_self, *]; done)
    | split

theorem State.captFollow_keeps (s : State) {μ : Nat} {σ : State} (hk : Keeps μ σ s) (hm : within?
    0x182C100000000000000000000000000000002000000000000000000000000000040800000000000000000000000000000408000000000000000000000000000000000000000000000000000000000000006000000000000000000000000000000000000000000000000000000000000000000000000000000000000000000000000000000000000000000000000000000000000000000000000000000000000000000000000000000000000000000000000000000000000000000000000000000000000000000000000000000000000000000000000000000000000000000000000000000000000000000000000000000000000000000000000000000000000000000000000000000000000000000000000000000000000000000000000000000000000000000000000000000000000000000000000000000000000000000000000410000000000000000000000000000000000000000002000000600000000010000000000000000000000000000000000000000000000000000000000000000000011C0A085
    μ = true) : Keeps μ σ (State.captFollow s) := by
  refine hk.lift hm ?_
  unfold State.captFollow
  repeat' first
    | (extract_lets +onlyGivenNames u
       first
       | (refine Keeps.cut (u := u) ?_ (fun _ => ?_); subst u; on_goal 2 => clear_value u)
       | (have h := @id (_ → _) u; clear h; subst u)
       | clear_value u)
    | with_reducible assumption
    | (simp (decide := true) (maxDischargeDepth := 200) only [↓Keeps.refl, ↓Keeps.ite, ↓Keeps.mk,
      ↓State.captEnd_keeps, ↓State.putBit_keeps, or_true, true_or, eq_self, *]; done)
    | split

theorem State.rxFollow_keeps (s : State) {μ : Nat} {σ : State} (hk : Keeps μ σ s) (hm : within?
    0x10000000000000000000000000000000000000000000000000000000000000000000000000000000000000000000000000000000000000000000000000000000000000000000000000000000000000000000000000000000000000000000000000000000000000000000000000000000000000000000000000000000000000000000000000000000000000000000000000000000000000000000000000000000000000000000000000000000000000000000000000000000000000000000000000000000000000000000000000000000000000000000000000000000000000000000000000000000000000000000000000000000000000000000000000000000000000010000
    μ = true) : Keeps μ σ (State.rxFollow s) := by
  refine hk.lift hm ?_
  unfold State.rxFollow
  repeat' first
    | (extract_lets +onlyGivenNames u
       first
       | (refine Keeps.cut (u := u) ?_ (fun _ => ?_); subst u; on_goal 2 => clear_value u)
       | (have h := @id (_ → _) u; clear h; subst u)
       | clear_value u)
    | with_reducible assumption
    | (simp (decide := true) (maxDischargeDepth := 200) only [↓Keeps.refl, ↓Keeps.ite, ↓Keeps.mk,
      ↓State.showAid_keeps, or_true, true_or, eq_self, *]; done)
    | split

theorem State.chgFollow_keeps (s : State) {μ : Nat} {σ : State} (hk : Keeps μ σ s) (hm : within?
    0x1000000000000000000000000000000000000000000000000000000000000000000000000000000000000000000000000000000000000000000000000000000000000000000000000000000000000000000000040
    μ = true) : Keeps μ σ (State.chgFollow s) := by
  refine hk.lift hm ?_
  unfold State.chgFollow
  repeat' first
    | (extract_lets +onlyGivenNames u
       first
       | (refine Keeps.cut (u := u) ?_ (fun _ => ?_); subst u; on_goal 2 => clear_value u)
       | (have h := @id (_ → _) u; clear h; subst u)
       | clear_value u)
    | with_reducible assumption
    | (simp (decide := true) (maxDischargeDepth := 200) only [↓Keeps.refl, ↓Keeps.ite, ↓Keeps.mk,
      ↓State.chgState_keeps, ↓State.chargeOff_keeps, or_true, true_or, eq_self, *]; done)
    | split

theorem State.settle_keeps (s : State) {μ : Nat} {σ : State} (hk : Keeps μ σ s) (hm : within?
    0x182C10000000000000000000000000000000200000000000000000000000000004080000000000000000000000000000040800000000000000000000000000001800000000000000000000000000000000600000000000000000000000000000000210000000000000000FFFFFFFF002007FD000000000000000001FFFFFF000130030000000000000000000000000000000000000000000000000000000000000001000000000000000000000000000001090000000000000000000000000000000000000000000000000000000000000000000000000000000000000000000000000000000000000000000000000000000000000000000000000000000000000000000000000000000000000000000000000000000000000000000000000000000000000000000000000000000000000001000000000000000000000000000000410000000000000000000000000000000100000000002000000600000000010000000000000000000000000000000000000000000000000000000000000000000011EFA0C5
    μ = true) : Keeps μ σ (State.settle s) := by
  refine hk.lift hm ?_
  unfold State.settle
  repeat' first
    | (extract_lets +onlyGivenNames u
       first
       | (refine Keeps.cut (u := u) ?_ (fun _ => ?_); subst u; on_goal 2 => clear_value u)
       | (have h := @id (_ → _) u; clear h; subst u)
       | clear_value u)
    | with_reducible assumption
    | (simp (decide := true) (maxDischargeDepth := 200) only [↓Keeps.refl, ↓Keeps.ite, ↓Keeps.mk,
      ↓State.chgFollow_keeps, ↓State.showActs_keeps, ↓State.rxFollow_keeps, ↓State.tunerFollow_keeps,
      ↓State.captFollow_keeps, or_true, true_or, eq_self, *]; done)
    | split

theorem State.dropPlan_keeps (s : State) (f : Fn) {μ : Nat} {σ : State} (hk : Keeps μ σ s) (hm : within?
    0x182C10000000000000000000000000000000200000000000000000000000000004080000000000000000000000000000040800000000000000000000000000001800000000000000000000000000000000600000000000000000000000000000000210000000000000000FFFFFFFF002007FD000000000000000001FFFFFF0001300300000000000000000000000000000000000000000000000000000000000000010000000000000000000000000000010900000000000000000000000000004001000000000000000000000000000000000000000000000000000000000000000000000000000000000000000000000000000000000000000000000000000000000000000000000000000000000000000000000000000000000000000000000000000000000000000000000000000000010000000000000000000000000000004100000000000000000000000000000001000000000020000007A2000000010000000000000000000000000000000000000000000000000000000000000000000011EFE0C5
    μ = true) : Keeps μ σ (State.dropPlan s f) := by
  refine hk.lift hm ?_
  unfold State.dropPlan
  repeat' first
    | (extract_lets +onlyGivenNames u
       first
       | (refine Keeps.cut (u := u) ?_ (fun _ => ?_); subst u; on_goal 2 => clear_value u)
       | (have h := @id (_ → _) u; clear h; subst u)
       | clear_value u)
    | with_reducible assumption
    | (simp (decide := true) (maxDischargeDepth := 200) only [↓Keeps.refl, ↓Keeps.ite, ↓Keeps.mk,
      ↓State.dropRuns_keeps, ↓State.setPlan_keeps, ↓State.showPlans_keeps, ↓State.plansChanged_keeps,
      ↓State.refigure_keeps, ↓State.settle_keeps, or_true, true_or, eq_self, *]; done)
    | split

theorem State.withdrawn_keeps (s : State) (f : Fn) (cause : Nat) (w : Watch) {μ : Nat} {σ : State} (hk : Keeps μ σ s)
    (hm : within?
    0x2000000000000000000000000000000000000000000000000000000000000000000000000000000000000000000000000000000000000000000000000000000000000000000000000000000000000000000000000000000000000000000000000000000000000000000000000000000000000000000000000000000000000000000400000000000000000000000000000000000000000002000000000000000010000000000000000000000000000000000000000000000000000000000000000000000002081
    μ = true) : Keeps μ σ (State.withdrawn s f cause w) := by
  refine hk.lift hm ?_
  unfold State.withdrawn
  repeat' first
    | (extract_lets +onlyGivenNames u
       first
       | (refine Keeps.cut (u := u) ?_ (fun _ => ?_); subst u; on_goal 2 => clear_value u)
       | (have h := @id (_ → _) u; clear h; subst u)
       | clear_value u)
    | with_reducible assumption
    | (simp (decide := true) (maxDischargeDepth := 200) only [↓Keeps.refl, ↓Keeps.ite, ↓Keeps.mk,
      ↓State.planEvent_keeps, or_true, true_or, eq_self, *]; done)
    | split

theorem State.withdrawAll_keeps (s : State) (f : Fn) (cause : Nat) {μ : Nat} {σ : State} (hk : Keeps μ σ s) (hm :
    within?
    0x182C10000000000000000000000000000000200000000000000000000000000004080000000000000000000000000000040800000000000000000000000000001800000000000000000000000000000000600000000000000000000000000000000210000000000000000FFFFFFFF002007FD000000000000000001FFFFFF0001300300000000000000000000000000000000000000000000000000000000000000010000000000000000000000000000010900000000000000000000000000024001000000000000000000000000000000000000000000000000000000000000000000000000000000000000000000000000000000000000000000000000000000000000000000000000000000000000000000000000000000000000000000000000000000000000000000000000000000010000000000000000000000000000004100000000000000000000000000000001000000000020000007A2000000010000000000000000000000000000000000000000000000000000000000000000000011EFE0C5
    μ = true) : Keeps μ σ (State.withdrawAll s f cause) := by
  refine hk.lift hm ?_
  unfold State.withdrawAll
  repeat' first
    | (extract_lets +onlyGivenNames u
       first
       | (refine Keeps.cut (u := u) ?_ (fun _ => ?_); subst u; on_goal 2 => clear_value u)
       | (have h := @id (_ → _) u; clear h; subst u)
       | clear_value u)
    | with_reducible assumption
    | (simp (decide := true) (maxDischargeDepth := 200) only [↓Keeps.refl, ↓Keeps.ite, ↓Keeps.mk, ↓Keeps.foldl,
      ↓State.dropPlan_keeps, ↓State.withdrawn_keeps, implies_true, or_true, true_or, eq_self, *]; done)
    | (with_reducible refine Keeps.foldl (fun _ _ => ?_) ?_ <;> beta_reduce)
    | (with_reducible refine State.dropPlan_keeps _ _ ?_ (by decide))
    | (with_reducible refine State.withdrawn_keeps _ _ _ _ ?_ (by decide))
    | split

theorem State.planResult_keeps (s : State) (f : Fn) (reason detail : Nat) (w : Option (Fn × Nat)) {μ : Nat} {σ :
    State} (hk : Keeps μ σ s) (hm : within?
    0xC000000000000000000000000000000000000000000000000000000000000000000000000000000000000 μ = true) : Keeps μ σ
    (State.planResult s f reason detail w) := by
  refine hk.lift hm ?_
  unfold State.planResult
  repeat' first
    | (extract_lets +onlyGivenNames u
       first
       | (refine Keeps.cut (u := u) ?_ (fun _ => ?_); subst u; on_goal 2 => clear_value u)
       | (have h := @id (_ → _) u; clear h; subst u)
       | clear_value u)
    | with_reducible assumption
    | (simp (decide := true) (maxDischargeDepth := 200) only [↓Keeps.refl, ↓Keeps.ite, ↓Keeps.mk, ↓State.fput_keeps,
      regIn_on, or_true, true_or, eq_self, *]; done)
    | split

theorem State.hostWithdraw_keeps (s : State) (f : Fn) {μ : Nat} {σ : State} (hk : Keeps μ σ s) (hm : within?
    0x182C10000000000000000000000000000000200000000000000000000000000004080000000000000000000000000000040800000000000000000000000000001800000000000000000000000000000000600000000000000000000000000000000210000000000000000FFFFFFFF002007FD000000000000000001FFFFFF0001300300000000000000000000000000000000000000000000000000000000000000010000000000000000000000000000010900000000000000000000000000024001000000000000000000000000000000000000000000000000000000000000000000000000000000000000000000000000000000000000000000000000000000000000000000000000000000000000000000000000000000000000000000000000000000000000000000000000000000010000000000000000000000000000004100000000000000000000000000000001000000000020000007AE000000010000000000000000000000000000000000000000000000000000000000000000000011EFE0C5
    μ = true) : Keeps μ σ (State.hostWithdraw s f) := by
  refine hk.lift hm ?_
  unfold State.hostWithdraw
  repeat' first
    | (extract_lets +onlyGivenNames u
       first
       | (refine Keeps.cut (u := u) ?_ (fun _ => ?_); subst u; on_goal 2 => clear_value u)
       | (have h := @id (_ → _) u; clear h; subst u)
       | clear_value u)
    | with_reducible assumption
    | (simp (decide := true) (maxDischargeDepth := 200) only [↓Keeps.refl, ↓Keeps.ite, ↓Keeps.mk, ↓State.raise0_keeps,
      ↓State.planResult_keeps, ↓State.withdrawAll_keeps, or_true, true_or, eq_self, *]; done)
    | split

theorem State.planGuard_keeps (s : State) (f : Fn) (act : State) {μ : Nat} {σ : State} (hk : Keeps μ σ s)
    (ha : Keeps μ σ act) (hm : within? 0x20000000000000000000000000000000000000000000000000000000000000000000000000 μ = true) : Keeps μ σ (s.planGuard f act) := by
  unfold State.planGuard
  exact Keeps.ite (State.setErr_keeps _ _ _ hk hm) (Keeps.ite (State.setErr_keeps _ _ _ hk hm) ha)

theorem State.planBegin_keeps (s : State) (f : Fn) {μ : Nat} {σ : State} (hk : Keeps μ σ s) (hm : within?
    0x100000000000000000000000000000000000000000000000000000000000000000000000000000000000000000000000000000000000000000000000000000000000000000000000000000000000000000000000000000000000000000000000000000000000000000000000000000000000000000000000000000000000000010000000000000000000000000000000000000000000000000032000000000020000000000000000000000000000000000000000000000000000000000000000000004000
    μ = true) : Keeps μ σ (State.planBegin s f) := by
  refine hk.lift hm ?_
  unfold State.planBegin
  repeat' first
    | (extract_lets +onlyGivenNames u
       first
       | (refine Keeps.cut (u := u) ?_ (fun _ => ?_); subst u; on_goal 2 => clear_value u)
       | (have h := @id (_ → _) u; clear h; subst u)
       | clear_value u)
    | with_reducible assumption
    | (simp (decide := true) (maxDischargeDepth := 200) only [↓Keeps.refl, ↓Keeps.ite, ↓Keeps.mk,
      ↓State.planGuard_keeps, ↓State.setPlan_keeps, ↓State.fput_keeps, ↓State.showPlans_keeps, regIn_on, or_true,
      true_or, eq_self, *]; done)
    | split

theorem State.wrec15_keeps (s : State) (f : Fn) (v : Word) {μ : Nat} {σ : State} (hk : Keeps μ σ s) (hm : within?
    0x100000000000000000000000000000000000000000000000000000000000000000000000000000000000000000000000000000000000000000000000000000000000000000000000000000000000000000000000000000000000000000000000000000000000000000000000000000000000000000000000000000000000000010000000000000000000000000000000000000000000080000032000000000020000000000000000000000000000000000000000000000000000000000000000000004000
    μ = true) : Keeps μ σ (State.wrec15 s f v) := by
  refine hk.lift hm ?_
  unfold State.wrec15
  repeat' first
    | (extract_lets +onlyGivenNames u
       first
       | (refine Keeps.cut (u := u) ?_ (fun _ => ?_); subst u; on_goal 2 => clear_value u)
       | (have h := @id (_ → _) u; clear h; subst u)
       | clear_value u)
    | with_reducible assumption
    | (simp (decide := true) (maxDischargeDepth := 200) only [↓Keeps.refl, ↓Keeps.ite, ↓Keeps.mk, ↓State.setErr_keeps,
      ↓State.fput_keeps, ↓State.setPlan_keeps, ↓State.showPlans_keeps, regIn_on, or_true, true_or, eq_self, *]; done)
    | split

theorem State.loadWindow_keeps (s : State) (f : Fn) (r : List Word) {μ : Nat} {σ : State} (hk : Keeps μ σ s)
    (hm : within? 0xFFFF0000000000000000000000000000000000000000000000000000000000000000000000000000000000000000 μ = true) : Keeps μ σ (State.loadWindow s f r) := by
  refine hk.lift hm ?_
  have hp : ∀ i, i < 16 → comIn 0xFFFF0000000000000000000000000000000000000000000000000000000000000000000000000000000000000000 (WREC.w i).key = true := by decide
  have h : ∀ (l : List Nat) (t : State), (∀ i ∈ l, i < 16) → Keeps 0xFFFF0000000000000000000000000000000000000000000000000000000000000000000000000000000000000000 s t →
      Keeps 0xFFFF0000000000000000000000000000000000000000000000000000000000000000000000000000000000000000 s (l.foldl (fun t i => t.fput f (WREC.w i) (r.getD i 0).toNat) t) := by
    intro l
    induction l with
    | nil => exact fun t _ h => h
    | cons i l ih =>
      exact fun t hl ht => ih _ (fun j hj => hl j (List.mem_cons_of_mem _ hj))
        (State.fput_keeps _ _ _ _ ht (hp i (hl i List.mem_cons_self)))
  exact h (List.range 16) s (fun i hi => List.mem_range.mp hi) .refl

theorem State.planWidx_keeps (s : State) (f : Fn) (v : Word) {μ : Nat} {σ : State} (hk : Keeps μ σ s) (hm : within?
    0xFFFF0012000000000020000000000000000000000000000000000000000000000000000000000000000000000000 μ = true) : Keeps μ
    σ (State.planWidx s f v) := by
  refine hk.lift hm ?_
  unfold State.planWidx
  repeat' first
    | (extract_lets +onlyGivenNames u
       first
       | (refine Keeps.cut (u := u) ?_ (fun _ => ?_); subst u; on_goal 2 => clear_value u)
       | (have h := @id (_ → _) u; clear h; subst u)
       | clear_value u)
    | with_reducible assumption
    | (simp (decide := true) (maxDischargeDepth := 200) only [↓Keeps.refl, ↓Keeps.ite, ↓Keeps.mk, ↓State.setErr_keeps,
      ↓State.fput_keeps, ↓State.loadWindow_keeps, regIn_on, or_true, true_or, eq_self, *]; done)
    | split

theorem State.planSubmit_keeps (s : State) (f : Fn) {μ : Nat} {σ : State} (hk : Keeps μ σ s) (hm : within?
    0x182C10000000000000000000000000000000200000000000000000000000000004080000000000000000000000000000040800000000000000000000000000001800000000000000000000000000000000600000000000000000000000000000000210000000000000000FFFFFFFF002007FD000000000000000001FFFFFF0001300300000000000000000000000000000000000000000000000000000000000000010000000000000000000000000000010900000000000000000000000000024001000000000000000000000000000000000000000000000000000000000000000000000000000000000000000000000000000000000000000000000000000000000000000000000000000000000000000000000000000000000000000000000040000000000000000000000000000600010000000000000000000000000000005100000000000000000000000000000001000000000020000007AE000000010020000000000000000000000000000000000000000000000000000000000000000011EFE0C5
    μ = true) : Keeps μ σ (State.planSubmit s f) := by
  refine hk.lift hm ?_
  unfold State.planSubmit
  repeat' first
    | (extract_lets +onlyGivenNames u
       first
       | (refine Keeps.cut (u := u) ?_ (fun _ => ?_); subst u; on_goal 2 => clear_value u)
       | (have h := @id (_ → _) u; clear h; subst u)
       | clear_value u)
    | with_reducible assumption
    | (simp (decide := true) (maxDischargeDepth := 200) only [↓Keeps.refl, ↓Keeps.ite, ↓Keeps.mk,
      ↓State.planGuard_keeps, ↓State.serviceWake_keeps, ↓State.hostWithdraw_keeps, ↓State.showPlans_keeps, or_true,
      true_or, eq_self, *]; done)
    | split

theorem State.admitDrop_keeps (s : State) (f : Fn) {μ : Nat} {σ : State} (hk : Keeps μ σ s) (hm : within?
    0x100000000000000000000000000000000000000000000000000000000000000000000000000000000000000000000000000000000000000000000000000000000000000000000000000000000000000000000000000000000000000000000000000000000000000000000000000000000000000000000000000000000000000010000000000000000000000000000000000000000000000000022000000000000000000000000000000000000000000000000000000000000000000000000000000008000
    μ = true) : Keeps μ σ (State.admitDrop s f) := by
  refine hk.lift hm ?_
  unfold State.admitDrop
  repeat' first
    | (extract_lets +onlyGivenNames u
       first
       | (refine Keeps.cut (u := u) ?_ (fun _ => ?_); subst u; on_goal 2 => clear_value u)
       | (have h := @id (_ → _) u; clear h; subst u)
       | clear_value u)
    | with_reducible assumption
    | (simp (decide := true) (maxDischargeDepth := 200) only [↓Keeps.refl, ↓Keeps.ite, ↓Keeps.mk,
      ↓State.showPlans_keeps, or_true, true_or, eq_self, *]; done)
    | split

theorem State.planWithdraw_keeps (s : State) (f : Fn) {μ : Nat} {σ : State} (hk : Keeps μ σ s) (hm : within?
    0x182C10000000000000000000000000000000200000000000000000000000000004080000000000000000000000000000040800000000000000000000000000001800000000000000000000000000000000600000000000000000000000000000000210000000000000000FFFFFFFF002007FD000000000000000001FFFFFF0001300300000000000000000000000000000000000000000000000000000000000000010000000000000000000000000000010900000000000000000000000000024001000000000000000000000000000000000000000000000000000000000000000000000000000000000000000000000000000000000000000000000000000000000000000000000000000000000000000000000000000000000000000000000000000000000000000000000000000000010000000000000000000000000000004100000000000000000000000000000001000000000020000007AE000000010020000000000000000000000000000000000000000000000000000000000000000011EFE0C5
    μ = true) : Keeps μ σ (State.planWithdraw s f) := by
  refine hk.lift hm ?_
  unfold State.planWithdraw
  repeat' first
    | (extract_lets +onlyGivenNames u
       first
       | (refine Keeps.cut (u := u) ?_ (fun _ => ?_); subst u; on_goal 2 => clear_value u)
       | (have h := @id (_ → _) u; clear h; subst u)
       | clear_value u)
    | with_reducible assumption
    | (simp (decide := true) (maxDischargeDepth := 200) only [↓Keeps.refl, ↓Keeps.ite, ↓Keeps.mk,
      ↓State.planGuard_keeps, ↓State.hostWithdraw_keeps, or_true, true_or, eq_self, *]; done)
    | split

theorem State.commit_keeps (s : State) (f : Fn) (d : List (List Word)) {μ : Nat} {σ : State} (hk : Keeps μ σ s) (hm :
    within? 0x60200000000000000000000000000000000000000000000000000000000000000000000000000001000E000 μ = true) :
    Keeps μ σ (State.commit s f d) := by
  refine hk.lift hm ?_
  unfold State.commit
  repeat' first
    | (extract_lets +onlyGivenNames u
       first
       | (refine Keeps.cut (u := u) ?_ (fun _ => ?_); subst u; on_goal 2 => clear_value u)
       | (have h := @id (_ → _) u; clear h; subst u)
       | clear_value u)
    | with_reducible assumption
    | (simp (decide := true) (maxDischargeDepth := 200) only [↓Keeps.refl, ↓Keeps.ite, ↓Keeps.mk, ↓Keeps.foldl,
      ↓State.dropRuns_keeps, ↓State.setPlan_keeps, ↓State.fput_keeps, implies_true, regIn_on, or_true, true_or,
      eq_self, *]; done)
    | (with_reducible refine Keeps.foldl (fun _ _ => ?_) ?_ <;> beta_reduce)
    | (with_reducible refine State.dropRuns_keeps _ _ ?_ (by decide))
    | (with_reducible refine State.setPlan_keeps _ _ _ ?_ (by decide))
    | (with_reducible refine State.fput_keeps _ _ _ _ ?_ (by decide))
    | split

theorem State.setTimeline_keeps (s : State) (l : List Placed) (c : Nat) {μ : Nat} {σ : State} (hk : Keeps μ σ s) (hm :
    within? 0x8000 μ = true) : Keeps μ σ (State.setTimeline s l c) := by
  refine hk.lift hm ?_
  unfold State.setTimeline
  repeat' first
    | (extract_lets +onlyGivenNames u
       first
       | (refine Keeps.cut (u := u) ?_ (fun _ => ?_); subst u; on_goal 2 => clear_value u)
       | (have h := @id (_ → _) u; clear h; subst u)
       | clear_value u)
    | with_reducible assumption
    | (simp (decide := true) (maxDischargeDepth := 200) only [↓Keeps.refl, ↓Keeps.ite, ↓Keeps.mk, or_true, true_or,
      eq_self, *]; done)
    | split

theorem State.noteEstimates_keeps (s : State) {μ : Nat} {σ : State} (hk : Keeps μ σ s) (hm : within? 0x8000 μ = true)
    : Keeps μ σ (State.noteEstimates s) := by
  refine hk.lift hm ?_
  unfold State.noteEstimates
  repeat' first
    | (extract_lets +onlyGivenNames u
       first
       | (refine Keeps.cut (u := u) ?_ (fun _ => ?_); subst u; on_goal 2 => clear_value u)
       | (have h := @id (_ → _) u; clear h; subst u)
       | clear_value u)
    | with_reducible assumption
    | (simp (decide := true) (maxDischargeDepth := 200) only [↓Keeps.refl, ↓Keeps.ite, ↓Keeps.mk, or_true, true_or,
      eq_self, *]; done)
    | split

theorem execAdmissionDone_keeps (s : State) : Ends (Keeps
    0x182C10000000000000000000000000000000200000000000000000000000000004080000000000000000000000000000040800000000000000000000000000001800000000000000000000000000000000600000000000000000000000000000000210000000000000000FFFFFFFF002007FD000000000000000001FFFFFF000130030000000000000000000000000000000000000000000000000000000000000001000000000000000000000000000001090000000000000000000000000001C001000000000000000000000000000000000000000000000000000000000000000000000000000000000000000000000000000000000000000000000000000000000000000000000000000000000000000000000000000000000000000000000000000000000000000000000000000000010000000000000000000000000000004100000000000000000000000000000001000000000020000007EE000000010000000000000000000000000000000000000000000000000000000000000000000011EFE0C5
    s) (execAdmissionDone s) := by
  unfold execAdmissionDone
  refine Ends.next ?_
  repeat' first
    | (extract_lets +onlyGivenNames u
       first
       | (refine Keeps.cut (u := u) ?_ (fun _ => ?_); subst u; on_goal 2 => clear_value u)
       | (have h := @id (_ → _) u; clear h; subst u)
       | clear_value u)
    | with_reducible assumption
    | (simp (decide := true) (maxDischargeDepth := 200) only [↓Keeps.next, ↓Keeps.endsIte, ↓Keeps.refl, ↓Keeps.ite,
      ↓Keeps.mk, ↓State.fresh_snd, ↓State.noteEstimates_keeps, ↓State.put_keeps, ↓State.inc_keeps,
      ↓State.planResult_keeps, ↓State.plansChanged_keeps, ↓State.showUse_keeps, ↓State.settle_keeps,
      ↓State.setTimeline_keeps, ↓State.commit_keeps, ↓State.fput_keeps, ↓State.raise0_keeps, ↓State.showPlans_keeps,
      regIn_on, or_true, true_or, eq_self, *]; done)
    | (split <;>
        (rename_i e
         refine Keeps.cut (State.fresh_out (by with_reducible exact e) ?_ (by decide)) (fun _ => ?_) <;> clear e))
    | (with_reducible refine State.fresh_snd _ ?_ (by decide))
    | (with_reducible refine State.noteEstimates_keeps _ ?_ (by decide))
    | (with_reducible refine State.put_keeps _ _ _ ?_ (by decide))
    | (with_reducible refine State.inc_keeps _ _ ?_ (by decide))
    | (with_reducible refine State.planResult_keeps _ _ _ _ _ ?_ (by decide))
    | (with_reducible refine State.plansChanged_keeps _ ?_ (by decide))
    | (with_reducible refine State.showUse_keeps _ _ _ ?_ (by decide))
    | (with_reducible refine State.settle_keeps _ ?_ (by decide))
    | (with_reducible refine State.setTimeline_keeps _ _ _ ?_ (by decide))
    | (with_reducible refine State.commit_keeps _ _ _ ?_ (by decide))
    | (with_reducible refine State.fput_keeps _ _ _ _ ?_ (by decide))
    | (with_reducible refine State.raise0_keeps _ _ _ ?_ (by decide))
    | (with_reducible refine State.showPlans_keeps _ ?_ (by decide))
    | split

theorem execPlanSnapshotWrite_keeps (s : State) : Ends (Keeps
    0x60000000000000000000000000000000000000000000000000000000000000000000000000000001000A000 s)
    (execPlanSnapshotWrite s) := by
  unfold execPlanSnapshotWrite
  refine Ends.next ?_
  repeat' first
    | (extract_lets +onlyGivenNames u
       first
       | (refine Keeps.cut (u := u) ?_ (fun _ => ?_); subst u; on_goal 2 => clear_value u)
       | (have h := @id (_ → _) u; clear h; subst u)
       | clear_value u)
    | with_reducible assumption
    | (simp (decide := true) (maxDischargeDepth := 200) only [↓Keeps.next, ↓Keeps.endsIte, ↓Keeps.refl, ↓Keeps.ite,
      ↓Keeps.mk, ↓State.chargeOpen_keeps, or_true, true_or, eq_self, *]; done)
    | split

theorem State.readmitFail_keeps (s : State) (r : Nat) (w : PWatch) {μ : Nat} {σ : State} (hk : Keeps μ σ s) (hm :
    within?
    0x182C10000000000000000000000000000000200000000000000000000000000004080000000000000000000000000000040800000000000000000000000000001800000000000000000000000000000000600000000000000000000000000000000210000000000000000FFFFFFFF002007FD000000000000000001FFFFFF0001300300000000000000000000000000000000000000000000000000000000000000010000000000000000000000000000010900000000000000000000000000024001000000000000000000000000000000000000000000000000000000000000000000000000000000000000000000000000000000000000000000000000000000000000000000000000000000000000000000000000000000000000000000000000000000000000000000000000000000010000000000000000000000000000004100000000000000000000000000000001000000000020000007A2000000010000000000000000000000000000000000000000000000000000000000000000000011EFE0C5
    μ = true) : Keeps μ σ (State.readmitFail s r w) := by
  refine hk.lift hm ?_
  unfold State.readmitFail
  repeat' first
    | (extract_lets +onlyGivenNames u
       first
       | (refine Keeps.cut (u := u) ?_ (fun _ => ?_); subst u; on_goal 2 => clear_value u)
       | (have h := @id (_ → _) u; clear h; subst u)
       | clear_value u)
    | with_reducible assumption
    | (simp (decide := true) (maxDischargeDepth := 200) only [↓Keeps.refl, ↓Keeps.ite, ↓Keeps.mk,
      ↓State.withdrawn_keeps, ↓State.raise0_keeps, ↓State.dropPlan_keeps, or_true, true_or, eq_self, *]; done)
    | split

theorem State.readmit_keeps (s : State) (n : Nat) {μ : Nat} {σ : State} (hk : Keeps μ σ s)
    (hm : within? 0x182C10000000000000000000000000000000200000000000000000000000000004080000000000000000000000000000040800000000000000000000000000001800000000000000000000000000000000600000000000000000000000000000000210000000000000000FFFFFFFF002007FD000000000000000001FFFFFF0001300300000000000000000000000000000000000000000000000000000000000000010000000000000000000000000000010900000000000000000000000000024001000000000000000000000000000000000000000000000000000000000000000000000000000000000000000000000000000000000000000000000000000000000000000000000000000000000000000000000000000000000000000000000000000000000000000000000000000000010000000000000000000000000000004100000000000000000000000000000001000000000020000007A2000000010000000000000000000000000000000000000000000000000000000000000000000011EFE0C5 μ = true) : Keeps μ σ (s.readmit n) := by
  induction n generalizing s with
  | zero => exact hk
  | succ n ih =>
    unfold State.readmit
    extract_lets ws c
    have hf : ∀ r w, Keeps μ σ (s.readmitFail r w) := fun r w =>
      hk.lift hm (State.readmitFail_keeps _ _ _ .refl (by decide))
    split
    · exact ih _ (hf _ _)
    · split
      · exact ih _ (hf _ _)
      · exact hk.lift hm (State.showPlans_keeps _ (State.showUse_keeps _ _ _ (State.noteEstimates_keeps _
          (State.setTimeline_keeps _ _ _ .refl (by decide)) (by decide)) (by decide)) (by decide))

theorem execReadmission_keeps (s : State) : Ends (Keeps
    0x182C10000000000000000000000000000000200000000000000000000000000004080000000000000000000000000000040800000000000000000000000000001800000000000000000000000000000000600000000000000000000000000000000210000000000000000FFFFFFFF002007FD000000000000000001FFFFFF0001300300000000000000000000000000000000000000000000000000000000000000010000000000000000000000000000010900000000000000000000000000024001000000000000000000000000000000000000000000000000000000000000000000000000000000000000000000000000000000000000000000000000000000000000000000000000000000000000000000000000000000000000000000000000000000000000000000000000000000010000000000000000000000000000004100000000000000000000000000000001000000000020000007A2000000010000000000000000000000000000000000000000000000000000000000000000000011EFE0C5
    s) (execReadmission s) := by
  unfold execReadmission
  refine Ends.next ?_
  repeat' first
    | (extract_lets +onlyGivenNames u
       first
       | (refine Keeps.cut (u := u) ?_ (fun _ => ?_); subst u; on_goal 2 => clear_value u)
       | (have h := @id (_ → _) u; clear h; subst u)
       | clear_value u)
    | with_reducible assumption
    | (simp (decide := true) (maxDischargeDepth := 200) only [↓Keeps.next, ↓Keeps.endsIte, ↓Keeps.refl, ↓Keeps.ite,
      ↓Keeps.mk, ↓State.readmit_keeps, or_true, true_or, eq_self, *]; done)
    | split

theorem execDayStart_keeps (s : State) : Ends (Keeps
    0x2000000000000000000000000000000000000000000000000000000000000000000000000000000000000000000000000000000000000000000000000000000000000000000000000000000000000000000000000000000000000000000000000000000000000000000000000000000020000000000000000000000000000000000000000000000000000000000000000000000000000000000000000000000000000000000000000000000000000000000000000000000000000000000000000000000000000000000000000000000000000000000000000000000000000000000000000000000000000000000000000000000000000000000000000000000000000000000000000000060000000000000000000000000000000000000000000000000000000000000000000000000000001010A000
    s) (execDayStart s) := by
  unfold execDayStart
  refine Ends.next ?_
  repeat' first
    | (extract_lets +onlyGivenNames u
       first
       | (refine Keeps.cut (u := u) ?_ (fun _ => ?_); subst u; on_goal 2 => clear_value u)
       | (have h := @id (_ → _) u; clear h; subst u)
       | clear_value u)
    | with_reducible assumption
    | (simp (decide := true) (maxDischargeDepth := 200) only [↓Keeps.next, ↓Keeps.endsIte, ↓Keeps.refl, ↓Keeps.ite,
      ↓Keeps.mk, ↓State.account_keeps, ↓State.showDay_keeps, ↓State.setEng_keeps, ↓State.wantReadmit_keeps,
      ↓State.agingRecord_keeps, ↓State.put_keeps, implies_true, or_true, true_or, eq_self, *]; done)
    | (with_reducible refine State.eachFn_keeps _ _ _ ?_ (fun _ _ => ?_) <;> beta_reduce)
    | (with_reducible refine State.account_keeps _ ?_ (by decide))
    | (with_reducible refine State.showDay_keeps _ _ ?_ (by decide))
    | (with_reducible refine State.setEng_keeps _ _ _ ?_ (by decide))
    | (with_reducible refine State.wantReadmit_keeps _ ?_ (by decide))
    | (with_reducible refine State.agingRecord_keeps _ ?_ (by decide))
    | (with_reducible refine State.put_keeps _ _ _ ?_ (by decide))
    | split

theorem State.addRun_keeps (s : State) (r : Run) {μ : Nat} {σ : State} (hk : Keeps μ σ s) (hm : within?
    0x60000000000000000000000000000000000000000000000000000000000000000000000000000001000A000 μ = true) : Keeps μ σ
    (State.addRun s r) := by
  refine hk.lift hm ?_
  unfold State.addRun
  repeat' first
    | (extract_lets +onlyGivenNames u
       first
       | (refine Keeps.cut (u := u) ?_ (fun _ => ?_); subst u; on_goal 2 => clear_value u)
       | (have h := @id (_ → _) u; clear h; subst u)
       | clear_value u)
    | with_reducible assumption
    | (simp (decide := true) (maxDischargeDepth := 200) only [↓Keeps.refl, ↓Keeps.ite, ↓Keeps.mk,
      ↓State.account_keeps, or_true, true_or, eq_self, *]; done)
    | split

theorem State.carry_keeps (s : State) (f : Fn) (w : List Word) {μ : Nat} {σ : State} (hk : Keeps μ σ s) (hm : within?
    0x200000 μ = true) : Keeps μ σ (State.carry s f w) := by
  refine hk.lift hm ?_
  unfold State.carry
  repeat' first
    | (extract_lets +onlyGivenNames u
       first
       | (refine Keeps.cut (u := u) ?_ (fun _ => ?_); subst u; on_goal 2 => clear_value u)
       | (have h := @id (_ → _) u; clear h; subst u)
       | clear_value u)
    | with_reducible assumption
    | (simp (decide := true) (maxDischargeDepth := 200) only [↓Keeps.refl, ↓Keeps.ite, ↓Keeps.mk, or_true, true_or,
      eq_self, *]; done)
    | split

theorem State.startRx_keeps (s : State) (r : Run) (w : Watch) {μ : Nat} {σ : State} (hk : Keeps μ σ s) (hm : within?
    0x1800000000000000000000000000000000000000000000000000000000000000000210000000000000000FFFFFFFF002007FD000000000000000001FFFFFF0001300300000000000000000000000000000000000000000000000000000000000000010000000000000000000000000000010900000000000000000000000000020000000000000000000000000000000000000000000000000000000000000000000000000000000000000000000000000000000000000000000000000000000000000000000000000000000000000000000000000000000000000000000000000000000000000000000000000000000000000000000000000000000000000000004100000000000000000000000000000001000000000020000006020000000100000000000000000000000000000000000000000000000000000000000000000000103FE081
    μ = true) : Keeps μ σ (State.startRx s r w) := by
  refine hk.lift hm ?_
  unfold State.startRx
  repeat' first
    | (extract_lets +onlyGivenNames u
       first
       | (refine Keeps.cut (u := u) ?_ (fun _ => ?_); subst u; on_goal 2 => clear_value u)
       | (have h := @id (_ → _) u; clear h; subst u)
       | clear_value u)
    | with_reducible assumption
    | (simp (decide := true) (maxDischargeDepth := 200) only [↓Keeps.refl, ↓Keeps.ite, ↓Keeps.mk,
      ↓State.showActs_keeps, ↓State.rxFollow_keeps, ↓State.carry_keeps, ↓State.addRun_keeps, ↓State.missed_keeps,
      ↓State.rxStart_keeps, ↓State.rxStop_keeps, ↓State.pauseListen_keeps, implies_true, or_true, true_or, eq_self,
      *]; done)
    | (with_reducible refine State.eachFn_keeps _ _ _ ?_ (fun _ _ => ?_) <;> beta_reduce)
    | (with_reducible refine State.showActs_keeps _ ?_ (by decide))
    | (with_reducible refine State.rxFollow_keeps _ ?_ (by decide))
    | (with_reducible refine State.carry_keeps _ _ _ ?_ (by decide))
    | (with_reducible refine State.addRun_keeps _ _ ?_ (by decide))
    | (with_reducible refine State.missed_keeps _ _ _ _ _ ?_ (by decide))
    | (with_reducible refine State.rxStart_keeps _ _ _ _ ?_ (by decide))
    | (with_reducible refine State.rxStop_keeps _ ?_ (by decide))
    | (with_reducible refine State.pauseListen_keeps _ _ ?_ (by decide))
    | split

theorem State.startCapt_keeps (s : State) (r : Run) (w : Watch) (start : Nat) {μ : Nat} {σ : State} (hk : Keeps μ σ s)
    (hm : within?
    0x182C100000000000000000000000000000002000000000000000000000000000040800000000000000000000000000000408000000000000000000000000000000000000000000000000000000000000006000000000000000000000000000000000000000000000000000000000000000000000000000000000000000000000000000000000000000000000000000000000000000000000000000000000000000000000000000000000000000000000000000000000000000000000000000002000000000000000000000000000000000000000000000000000000000000000000000000000000000000000000000000000000000000000000000000000000000000000000000000000000000000000000000000000000000000000000000000000000000000000000000000000000000000000000000000000000000000000000410000000000000000000000000000000000000000002000000600000000010000000000000000000000000000000000000000000000000000000000000000000011C0A085
    μ = true) : Keeps μ σ (State.startCapt s r w start) := by
  refine hk.lift hm ?_
  unfold State.startCapt
  repeat' first
    | (extract_lets +onlyGivenNames u
       first
       | (refine Keeps.cut (u := u) ?_ (fun _ => ?_); subst u; on_goal 2 => clear_value u)
       | (have h := @id (_ → _) u; clear h; subst u)
       | clear_value u)
    | with_reducible assumption
    | (simp (decide := true) (maxDischargeDepth := 200) only [↓Keeps.refl, ↓Keeps.ite, ↓Keeps.mk,
      ↓State.captEnd_keeps, ↓State.account_keeps, ↓State.addRun_keeps, ↓State.putBit_keeps, ↓State.missed_keeps,
      or_true, true_or, eq_self, *]; done)
    | split

theorem State.demandXo_keeps (s : State) {μ : Nat} {σ : State} (hk : Keeps μ σ s) (hm : within? 0x80 μ = true) : Keeps
    μ σ (State.demandXo s) := by
  refine hk.lift hm ?_
  unfold State.demandXo
  repeat' first
    | (extract_lets +onlyGivenNames u
       first
       | (refine Keeps.cut (u := u) ?_ (fun _ => ?_); subst u; on_goal 2 => clear_value u)
       | (have h := @id (_ → _) u; clear h; subst u)
       | clear_value u)
    | with_reducible assumption
    | (simp (decide := true) (maxDischargeDepth := 200) only [↓Keeps.refl, ↓Keeps.ite, ↓Keeps.mk,
      ↓State.xoStart_keeps, or_true, true_or, eq_self, *]; done)
    | split

theorem execSlotStart_keeps (f : Fn) (idx : Nat) (s : State) : Ends (Keeps
    0x182C10000000000000000000000000000000200000000000000000000000000004080000000000000000000000000000040800000000000000000000000000001800000000000000000000000000000000600000000000000000000000000000000210000000000000000FFFFFFFF002007FD000000000000000001FFFFFF000130030000000000000000000000000000000000000000000000000000000000000001000000000000000000000000000001090000000000000000000000000002000000000000000000000000000000000000000000000000000000000000000000000000000000000000000000000000000000000000000000000000000000000000000000000000000000000000000000000000000000000000000000000000000000000000000000000000000000000000000000000000000000000000000000410000000000000000000000000000000100000000002000000602000000030000000000000000000000000000000000000000000000000000000000000000000011FFE085
    s) (execSlotStart f idx s) := by
  unfold execSlotStart
  refine Ends.next ?_
  repeat' first
    | (extract_lets +onlyGivenNames u
       first
       | (refine Keeps.cut (u := u) ?_ (fun _ => ?_); subst u; on_goal 2 => clear_value u)
       | (have h := @id (_ → _) u; clear h; subst u)
       | clear_value u)
    | with_reducible assumption
    | (simp (decide := true) (maxDischargeDepth := 200) only [↓Keeps.next, ↓Keeps.endsIte, ↓Keeps.refl, ↓Keeps.ite,
      ↓Keeps.mk, ↓State.setPlan_keeps, ↓State.missed_keeps, ↓State.raise1_keeps, ↓State.demandXo_keeps,
      ↓State.startCapt_keeps, ↓State.startRx_keeps, or_true, true_or, eq_self, *]; done)
    | split

theorem execSlotEnd_keeps (f : Fn) (idx : Nat) (s : State) : Ends (Keeps
    0x182C10000000000000000000000000000000200000000000000000000000000004080000000000000000000000000000040800000000000000000000000000001800000000000000000000000000000000600000000000000000000000000000000210000000000000000FFFFFFFF002007FD000000000000000001FFFFFF000130030000000000000000000000000000000000000000000000000000000000000001000000000000000000000000000001090000000000000000000000000002000000000000000000000000000000000000000000000000000000000000000000000000000000000000000000000000000000000000000000000000000000000000000000000000000000000000000000000000000000000000000000000000000000000000000000000000000000000001000000000000000000000000000000410000000000000000000000000000000100000000002000000600000000010000000000000000000000000000000000000000000000000000000000000000000011EFA0C5
    s) (execSlotEnd f idx s) := by
  unfold execSlotEnd
  refine Ends.next ?_
  repeat' first
    | (extract_lets +onlyGivenNames u
       first
       | (refine Keeps.cut (u := u) ?_ (fun _ => ?_); subst u; on_goal 2 => clear_value u)
       | (have h := @id (_ → _) u; clear h; subst u)
       | clear_value u)
    | with_reducible assumption
    | (simp (decide := true) (maxDischargeDepth := 200) only [↓Keeps.next, ↓Keeps.endsIte, ↓Keeps.refl, ↓Keeps.ite,
      ↓Keeps.mk, ↓State.dabPlannedEnd_keeps, ↓State.fmPlannedEnd_keeps, ↓State.settle_keeps, ↓State.dropRuns_keeps,
      ↓State.missed_keeps, ↓State.planEvent_keeps, or_true, true_or, eq_self, *]; done)
    | split

theorem State.listenOn_keeps (s : State) (f : Fn) (l : Listen) (shared : Bool) {μ : Nat} {σ : State} (hk : Keeps μ σ
    s) (hm : within?
    0x210000000000000000FFFFFFFF002007FD000000000000000001FFFFFF0001300300000000000000000000000000000000000000000000000000000000000000010000000000000000000000000000000900000000000000000000000000020000000000000000000000000000000000000000000000000000000000000000000000000000000000000000000000000000000000000000000000000000000000000000000000000000000000000000000000000000000000000000000000000000000000000000000000000000000000000000000000000000000000000000004100000000000000000000000000000001000000000020000006020000000100000000000000000000000000000000000000000000000000000000000000000000101FE081
    μ = true) : Keeps μ σ (State.listenOn s f l shared) := by
  refine hk.lift hm ?_
  unfold State.listenOn
  repeat' first
    | (extract_lets +onlyGivenNames u
       first
       | (refine Keeps.cut (u := u) ?_ (fun _ => ?_); subst u; on_goal 2 => clear_value u)
       | (have h := @id (_ → _) u; clear h; subst u)
       | clear_value u)
    | with_reducible assumption
    | (simp (decide := true) (maxDischargeDepth := 200) only [↓Keeps.refl, ↓Keeps.ite, ↓Keeps.mk,
      ↓State.setListen_keeps, ↓State.rxStart_keeps, ↓State.listenEvent_keeps, ↓State.outcome_keeps,
      ↓State.showActs_keeps, ↓State.rxFollow_keeps, or_true, true_or, eq_self, *]; done)
    | split

theorem execListenStart_keeps (f : Fn) (s : State) : Ends (Keeps
    0x1800000000000000000000000000000000000000000000000000000000000000000210000000000000000FFFFFFFF002007FD000000000000000001FFFFFF0001300300000000000000000000000000000000000000000000000000000000000000010000000000000000000000000000010900000000000000000000000000020000000000000000000000000000000000000000000000000000000000000000000000000000000000000000000000000000000000000000000000000000000000000000000000000000000000000000000000000000000000000000000000000000000000000000000000000000000000000000000000000000000000000000004100000000000000000000000000000001000000000020000006020000000100000000000000000000000000000000000000000000000000000000000000000000103FE081
    s) (execListenStart f s) := by
  unfold execListenStart
  refine Ends.next ?_
  repeat' first
    | (extract_lets +onlyGivenNames u
       first
       | (refine Keeps.cut (u := u) ?_ (fun _ => ?_); subst u; on_goal 2 => clear_value u)
       | (have h := @id (_ → _) u; clear h; subst u)
       | clear_value u)
    | with_reducible assumption
    | (simp (decide := true) (maxDischargeDepth := 200) only [↓Keeps.next, ↓Keeps.endsIte, ↓Keeps.refl, ↓Keeps.ite,
      ↓Keeps.mk, ↓State.demandXo_keeps, ↓State.account_keeps, ↓State.outcome_keeps, ↓State.listenOn_keeps,
      ↓State.rxStop_keeps, ↓State.missRuns_keeps, implies_true, or_true, true_or, eq_self, *]; done)
    | (with_reducible refine State.withOp_keeps _ _ _ _ ?_ (fun _ => ?_) <;> beta_reduce)
    | (with_reducible refine State.demandXo_keeps _ ?_ (by decide))
    | (with_reducible refine State.account_keeps _ ?_ (by decide))
    | (with_reducible refine State.outcome_keeps _ _ _ _ ?_ (by decide))
    | (with_reducible refine State.listenOn_keeps _ _ _ _ ?_ (by decide))
    | (with_reducible refine State.rxStop_keeps _ ?_ (by decide))
    | (with_reducible refine State.missRuns_keeps _ _ _ ?_ (by decide))
    | split

theorem execListenStop_keeps (f : Fn) (s : State) : Ends (Keeps
    0x182C10000000000000000000000000000000200000000000000000000000000004080000000000000000000000000000040800000000000000000000000000001800000000000000000000000000000000600000000000000000000000000000000210000000000000000FFFFFFFF002007FD000000000000000001FFFFFF000130030000000000000000000000000000000000000000000000000000000000000001000000000000000000000000000001090000000000000000000000000002000000000000000000000000000000000000000000000000000000000000000000000000000000000000000000000000000000000000000000000000000000000000000000000000000000000000000000000000000000000000000000000000000000000000000000000000000000000001000000000000000000000000000000410000000000000000000000000000000100000000002000000602000000010000000000000000000000000000000000000000000000000000000000000000000011EFE0C5
    s) (execListenStop f s) := by
  unfold execListenStop
  refine Ends.next ?_
  repeat' first
    | (extract_lets +onlyGivenNames u
       first
       | (refine Keeps.cut (u := u) ?_ (fun _ => ?_); subst u; on_goal 2 => clear_value u)
       | (have h := @id (_ → _) u; clear h; subst u)
       | clear_value u)
    | with_reducible assumption
    | (simp (decide := true) (maxDischargeDepth := 200) only [↓Keeps.next, ↓Keeps.endsIte, ↓Keeps.refl, ↓Keeps.ite,
      ↓Keeps.mk, ↓State.outcome_keeps, ↓State.settle_keeps, ↓State.endListen_keeps, implies_true, or_true, true_or,
      eq_self, *]; done)
    | (with_reducible refine State.withOp_keeps _ _ _ _ ?_ (fun _ => ?_) <;> beta_reduce)
    | (with_reducible refine State.outcome_keeps _ _ _ _ ?_ (by decide))
    | (with_reducible refine State.settle_keeps _ ?_ (by decide))
    | (with_reducible refine State.endListen_keeps _ _ _ ?_ (by decide))
    | split

theorem execListenMaxDuration_keeps (f : Fn) (s : State) : Ends (Keeps
    0x182C10000000000000000000000000000000200000000000000000000000000004080000000000000000000000000000040800000000000000000000000000001800000000000000000000000000000000600000000000000000000000000000000210000000000000000FFFFFFFF002007FD000000000000000001FFFFFF000130030000000000000000000000000000000000000000000000000000000000000001000000000000000000000000000001090000000000000000000000000002000000000000000000000000000000000000000000000000000000000000000000000000000000000000000000000000000000000000000000000000000000000000000000000000000000000000000000000000000000000000000000000000000000000000000000000000000000000001000000000000000000000000000000410000000000000000000000000000000100000000002000000602000000010000000000000000000000000000000000000000000000000000000000000000000011EFE0C5
    s) (execListenMaxDuration f s) := by
  unfold execListenMaxDuration
  refine Ends.next ?_
  repeat' first
    | (extract_lets +onlyGivenNames u
       first
       | (refine Keeps.cut (u := u) ?_ (fun _ => ?_); subst u; on_goal 2 => clear_value u)
       | (have h := @id (_ → _) u; clear h; subst u)
       | clear_value u)
    | with_reducible assumption
    | (simp (decide := true) (maxDischargeDepth := 200) only [↓Keeps.next, ↓Keeps.endsIte, ↓Keeps.refl, ↓Keeps.ite,
      ↓Keeps.mk, ↓State.settle_keeps, ↓State.endListen_keeps, or_true, true_or, eq_self, *]; done)
    | split

theorem execListenResumed_keeps (f : Fn) (s : State) : Ends (Keeps
    0x210000000000000000FFFFFFFF002007FD000000000000000001FFFFFF0001300300000000000000000000000000000000000000000000000000000000000000010000000000000000000000000000000900000000000000000000000000020000000000000000000000000000000000000000000000000000000000000000000000000000000000000000000000000000000000000000000000000000000000000000000000000000000000000000000000000000000000000000000000000000000000000000000000000000000000000000000000000000000000000000004100000000000000000000000000000001000000000020000006020000000100000000000000000000000000000000000000000000000000000000000000000000101FE081
    s) (execListenResumed f s) := by
  unfold execListenResumed
  refine Ends.next ?_
  repeat' first
    | (extract_lets +onlyGivenNames u
       first
       | (refine Keeps.cut (u := u) ?_ (fun _ => ?_); subst u; on_goal 2 => clear_value u)
       | (have h := @id (_ → _) u; clear h; subst u)
       | clear_value u)
    | with_reducible assumption
    | (simp (decide := true) (maxDischargeDepth := 200) only [↓Keeps.next, ↓Keeps.endsIte, ↓Keeps.refl, ↓Keeps.ite,
      ↓Keeps.mk, ↓State.rxFollow_keeps, ↓State.resumeListen_keeps, or_true, true_or, eq_self, *]; done)
    | split

theorem execCaptureNow_keeps (f : Fn) (s : State) : Ends (Keeps
    0x66C100000000000000000000000000000000000000000000000000000000000040000000000000000000000000000000400000000000000000000000000000000000000000000000000000000000000000000000000000000000000000000000000000000000000000000000000000000000000000000000000000000000000000000000000000000000000000000000000000000000000000000000000000000000000000000000000000000000000000000000000000000000000000000000000000000000000000000000000000000000000000000000000000000000000000000000000000000000000000000000000000000000000000000000000000000000000000000000000000000000000000000000000000000000000000000000000000000000000000000000000000000000000000000000000000000000000000410000000000000000000000000000000000000000002000000600000000010000000000000000000000000000000000000000000000000000000000000000000011C0A085
    s) (execCaptureNow f s) := by
  unfold execCaptureNow
  refine Ends.next ?_
  repeat' first
    | (extract_lets +onlyGivenNames u
       first
       | (refine Keeps.cut (u := u) ?_ (fun _ => ?_); subst u; on_goal 2 => clear_value u)
       | (have h := @id (_ → _) u; clear h; subst u)
       | clear_value u)
    | with_reducible assumption
    | (simp (decide := true) (maxDischargeDepth := 200) only [↓Keeps.next, ↓Keeps.endsIte, ↓Keeps.refl, ↓Keeps.ite,
      ↓Keeps.mk, ↓State.outcome_keeps, ↓State.captBegin_keeps, ↓State.demandXo_keeps, implies_true, or_true, true_or,
      eq_self, *]; done)
    | (with_reducible refine State.withOp_keeps _ _ _ _ ?_ (fun _ => ?_) <;> beta_reduce)
    | (with_reducible refine State.outcome_keeps _ _ _ _ ?_ (by decide))
    | (with_reducible refine State.captBegin_keeps _ _ _ ?_ (by decide))
    | (with_reducible refine State.demandXo_keeps _ ?_ (by decide))
    | split

theorem State.spillDel_keeps (s : State) (f : Fn) {μ : Nat} {σ : State} (hk : Keeps μ σ s) (hm : within?
    0xF000001800FF1000000000000000000000000000000000000000000000000000000000000000000000000000000000000000000000000000000000000000000000000000000000000000000000000000000000000000000000000000000000000000000000000000000000000000000000000000000000000000000000000000000000000000000000000000000000000000000000000000000000000000000000000000000000000000000000000000000000000000000000000000000000000000000000000000000000000000000000000000000000000000000000000000000000000000000000000000000000000000000000000000000000000000000000000000000000000000000000000000000000000000000000000000000000000000000000000000000000000000000000000000000000000000000000000000000000000000001000000
    μ = true) : Keeps μ σ (State.spillDel s f) := by
  refine hk.lift hm ?_
  unfold State.spillDel
  repeat' first
    | (extract_lets +onlyGivenNames u
       first
       | (refine Keeps.cut (u := u) ?_ (fun _ => ?_); subst u; on_goal 2 => clear_value u)
       | (have h := @id (_ → _) u; clear h; subst u)
       | clear_value u)
    | with_reducible assumption
    | (simp (decide := true) (maxDischargeDepth := 200) only [↓Keeps.refl, ↓Keeps.ite, ↓Keeps.mk,
      ↓State.showEdf_keeps, or_true, true_or, eq_self, *]; done)
    | split

theorem State.spillTo_keeps (s : State) (j : Job) (f : Fn) {μ : Nat} {σ : State} (hk : Keeps μ σ s) (hm : within?
    0x800000000000000000000000000000000000000000000000000000000000000000000000000000000000000000000000000000000000000000000F000001800FF1000000000000000000000000000000000000000000000000000000000000000000000000000000000000000000000000000000000000000000000000000000000000000000000000000000000000000000000000000000000000000000000000000000000000000000000000000000000000000000000000000000000000000000000000000000000000000000000000000000000000000000000000000000000000000000000000000000000000000000000000000000000000000000000000000000000000000000000000000000000000000000000000000000000000000000000000000000000000000000000000000000000000000000000000000000400000000000000000000000000000000000000000002000000600000000010000000000000000000000000000000000000000000000000000000000000000000011202085
    μ = true) : Keeps μ σ (State.spillTo s j f) := by
  refine hk.lift hm ?_
  unfold State.spillTo
  repeat' first
    | (extract_lets +onlyGivenNames u
       first
       | (refine Keeps.cut (u := u) ?_ (fun _ => ?_); subst u; on_goal 2 => clear_value u)
       | (have h := @id (_ → _) u; clear h; subst u)
       | clear_value u)
    | with_reducible assumption
    | (simp (decide := true) (maxDischargeDepth := 200) only [↓Keeps.refl, ↓Keeps.ite, ↓Keeps.mk, ↓Keeps.foldl,
      ↓State.spillDel_keeps, ↓State.pick_snd, ↓State.eraseSector_keeps, ↓State.setBytes_keeps, ↓State.showRptr_keeps,
      ↓State.captRec_keeps, ↓State.chargeOpen_keeps, ↓State.showEdf_keeps, implies_true, or_true, true_or, eq_self,
      *]; done)
    | (split <;>
        (rename_i e
         refine Keeps.cut (State.pick_out (by with_reducible exact e) ?_ (by decide)) (fun _ => ?_) <;> clear e))
    | (with_reducible refine Keeps.foldl (fun _ _ => ?_) ?_ <;> beta_reduce)
    | (with_reducible refine State.spillDel_keeps _ _ ?_ (by decide))
    | (with_reducible refine State.pick_snd _ _ ?_ (by decide))
    | (with_reducible refine State.eraseSector_keeps _ _ ?_ (by decide))
    | (with_reducible refine State.setBytes_keeps _ _ _ ?_ (by decide))
    | (with_reducible refine State.showRptr_keeps _ ?_ (by decide))
    | (with_reducible refine State.captRec_keeps _ _ _ _ _ _ _ _ _ _ _ ?_ (by decide))
    | (with_reducible refine State.chargeOpen_keeps _ _ ?_ (by decide))
    | (with_reducible refine State.showEdf_keeps _ ?_ (by decide))
    | split

theorem execSpill_keeps (s : State) : Ends (Keeps
    0x810000000000000000000000000000000000000000000000000000000000000000000000000000000000000000000000000000000000000000000F000001800FF1000000000000000000000000000000000000000000000000000000000000000000000000000000000000000000000000000000000000000000000000000000000000000000000000000000000000000000000000000000000000000000000000000000000000000000000000000000000000000000000000000000000000000000000000000000000000000000000000000000000000000000000000000000000000000000000000000000000000000000000000000000000000000000000000000000000000000000000000000000000000000000000000000000000000000000000000000000000000000000000000000000000000000000000000000000410000000000000000000000000000000000000000002000000600000000010000000000000000000000000000000000000000000000000000000000000000000011202085
    s) (execSpill s) := by
  unfold execSpill
  refine Ends.next ?_
  repeat' first
    | (extract_lets +onlyGivenNames u
       first
       | (refine Keeps.cut (u := u) ?_ (fun _ => ?_); subst u; on_goal 2 => clear_value u)
       | (have h := @id (_ → _) u; clear h; subst u)
       | clear_value u)
    | with_reducible assumption
    | (simp (decide := true) (maxDischargeDepth := 200) only [↓Keeps.next, ↓Keeps.endsIte, ↓Keeps.refl, ↓Keeps.ite,
      ↓Keeps.mk, ↓State.spillTo_keeps, ↓State.showMaintain_keeps, ↓State.put_keeps, or_true, true_or, eq_self,
      *]; done)
    | split

end Sys2Proof.Machine
end

