-- ==== Sys2Proof/Laws/KeepsHealth.lean ====
section
/-! SUPPORT. What each operation of Machine/Health.lean may change, and that it keeps the canonical form. -/

set_option Elab.async false

set_option linter.unusedSimpArgs false
set_option linter.unusedTactic false
set_option linter.unreachableTactic false

namespace Sys2Proof.Machine

open R

theorem State.setMon_keeps (s : State) (id : Nat) (m : Mon) {μ : Nat} {σ : State} (hk : Keeps μ σ s) (hm : within?
    0x4000000 μ = true) : Keeps μ σ (State.setMon s id m) := by
  refine hk.lift hm ?_
  unfold State.setMon
  repeat' first
    | (extract_lets +onlyGivenNames u
       first
       | (refine Keeps.cut (u := u) ?_ (fun _ => ?_); subst u; on_goal 2 => clear_value u)
       | (have h := @id (_ → _) u; clear h; subst u)
       | clear_value u)
    | with_reducible assumption
    | (simp (decide := true) (maxDischargeDepth := 200) only [↓Keeps.refl, ↓Keeps.ite, ↓Keeps.mk, or_true, true_or,
      eq_self, *]; done)
    | split

theorem State.healthRec_keeps (s : State) (event cause mon : Nat) (bits : List Nat) {μ : Nat} {σ : State} (hk : Keeps
    μ σ s) (hm : within?
    0x400000000000000000000000000000000000000000002000000000000000010000000000000000000000000000000000000000000000000000000000000000000000002081
    μ = true) : Keeps μ σ (State.healthRec s event cause mon bits) := by
  refine hk.lift hm ?_
  unfold State.healthRec
  repeat' first
    | (extract_lets +onlyGivenNames u
       first
       | (refine Keeps.cut (u := u) ?_ (fun _ => ?_); subst u; on_goal 2 => clear_value u)
       | (have h := @id (_ → _) u; clear h; subst u)
       | clear_value u)
    | with_reducible assumption
    | (simp (decide := true) (maxDischargeDepth := 200) only [↓Keeps.refl, ↓Keeps.ite, ↓Keeps.mk,
      ↓State.deliverAll_keeps, or_true, true_or, eq_self, *]; done)
    | split

theorem State.clockEvent_keeps (s : State) {μ : Nat} {σ : State} (hk : Keeps μ σ s) (hm : within?
    0x400000000000000000000000000000000000000000000000000000000000010000000000000000000000000000000000000000000000000000000000000000000000002081
    μ = true) : Keeps μ σ (State.clockEvent s) := by
  refine hk.lift hm ?_
  unfold State.clockEvent
  repeat' first
    | (extract_lets +onlyGivenNames u
       first
       | (refine Keeps.cut (u := u) ?_ (fun _ => ?_); subst u; on_goal 2 => clear_value u)
       | (have h := @id (_ → _) u; clear h; subst u)
       | clear_value u)
    | with_reducible assumption
    | (simp (decide := true) (maxDischargeDepth := 200) only [↓Keeps.refl, ↓Keeps.ite, ↓Keeps.mk, ↓State.raise0_keeps,
      or_true, true_or, eq_self, *]; done)
    | split

theorem State.sampleMon_keeps (s : State) (close : Bool) (id : Nat) {μ : Nat} {σ : State} (hk : Keeps μ σ s) (hm :
    within? 0x4000000 μ = true) : Keeps μ σ (State.sampleMon s close id) := by
  refine hk.lift hm ?_
  unfold State.sampleMon
  repeat' first
    | (extract_lets +onlyGivenNames u
       first
       | (refine Keeps.cut (u := u) ?_ (fun _ => ?_); subst u; on_goal 2 => clear_value u)
       | (have h := @id (_ → _) u; clear h; subst u)
       | clear_value u)
    | with_reducible assumption
    | (simp (decide := true) (maxDischargeDepth := 200) only [↓Keeps.refl, ↓Keeps.ite, ↓Keeps.mk, ↓State.setMon_keeps,
      or_true, true_or, eq_self, *]; done)
    | split

theorem State.partnerBand_keeps (s : State) {μ : Nat} {σ : State} (hk : Keeps μ σ s) (hm : within? 0x4000000 μ = true)
    : Keeps μ σ (State.partnerBand s) := by
  refine hk.lift hm ?_
  unfold State.partnerBand
  repeat' first
    | (extract_lets +onlyGivenNames u
       first
       | (refine Keeps.cut (u := u) ?_ (fun _ => ?_); subst u; on_goal 2 => clear_value u)
       | (have h := @id (_ → _) u; clear h; subst u)
       | clear_value u)
    | with_reducible assumption
    | (simp (decide := true) (maxDischargeDepth := 200) only [↓Keeps.refl, ↓Keeps.ite, ↓Keeps.mk, or_true, true_or,
      eq_self, *]; done)
    | split

theorem State.raiseReplace_keeps (s : State) (mon : Nat) {μ : Nat} {σ : State} (hk : Keeps μ σ s) (hm : within?
    0x1000000000000000000000000000000000000000000000000000000000000000000000000000000000000000000000000000000000000000000000000000000000000000000000000000000000000000000000000000000000000000000000000000000000000000000000000000000000000000000000000000000000000000000000000000000000000000000000000000000000000000000000000000000000000000000000000000000000000000000000000000000000000000000000000000000000000000000000000000000000000000000000000000000000000000000000000000000000000000000000000000000000000000000000000000000000000000000000000000000000000000000000000000000000000000000000000000000000000000000000000000000000000000000000000000000000000000000000000000000000000000000000000000000000000000000000000000000400000000000000000000000000000000000000000002000000000000000010008000000000000000000000000000000000000000000000000000000000000000000002081
    μ = true) : Keeps μ σ (State.raiseReplace s mon) := by
  refine hk.lift hm ?_
  unfold State.raiseReplace
  repeat' first
    | (extract_lets +onlyGivenNames u
       first
       | (refine Keeps.cut (u := u) ?_ (fun _ => ?_); subst u; on_goal 2 => clear_value u)
       | (have h := @id (_ → _) u; clear h; subst u)
       | clear_value u)
    | with_reducible assumption
    | (simp (decide := true) (maxDischargeDepth := 200) only [↓Keeps.refl, ↓Keeps.ite, ↓Keeps.mk, ↓State.putAll_keeps,
      ↓State.put_keeps, ↓State.wantHost_keeps, ↓State.healthRec_keeps, ↓State.raiseOthers_keeps, regIn_on, or_true,
      true_or, eq_self, *]; done)
    | split

theorem regIn_HLT_MON {m : Nat} (n : Nat) (hm : ∀ i < 16, regIn m (HLT_MON.MONTHS i).key = true ∧ regIn m (HLT_MON.BAND i).key = true ∧ regIn m (HLT_MON.FITTED i).key = true) :
    regIn m (HLT_MON.MONTHS (n % 16)).key = true ∧ regIn m (HLT_MON.BAND (n % 16)).key = true ∧ regIn m (HLT_MON.FITTED (n % 16)).key = true := hm _ (Nat.mod_lt _ (by decide))

theorem State.showMon_keeps (s : State) (id : Nat) {μ : Nat} {σ : State} (hk : Keeps μ σ s) (hm : within?
    0xFFFF00000000000000000000000000000000000000000000000000000000000000000000000000000000000000000000000000000000000000000000000000000000000000000000000000000000000000000000000000000000000000000000000000000000000000000000000000000000000000000000000000000000000000000000000000000000000000000000000000000000000000000000000000000000000000000000000000000000000000000000000000000000000000000000000000000000000000000000000000000000000000000000000000000000000000000000000000000000000000000000000000000000000000000000000000000000000000000000000000000000000000000000000000000000000000000000000000000000000000000000000000000000000000000000000000000000000000000000000000000000000000000000000000000000000000000000000000000000000000400000000000000000000000000000000000000000002000000000000000010000000000000000000000000000000000000000000000000000000000000000000004002081
    μ = true) : Keeps μ σ (State.showMon s id) := by
  refine hk.lift hm ?_
  unfold State.showMon
  repeat' first
    | (extract_lets +onlyGivenNames u
       first
       | (refine Keeps.cut (u := u) ?_ (fun _ => ?_); subst u; on_goal 2 => clear_value u)
       | (have h := @id (_ → _) u; clear h; subst u)
       | clear_value u)
    | with_reducible assumption
    | (simp (decide := true) (maxDischargeDepth := 200) only [↓Keeps.refl, ↓Keeps.ite, ↓Keeps.mk, ↓State.setMon_keeps,
      ↓State.put_keeps, ↓State.putBit_keeps, ↓State.healthRec_keeps, regIn_HLT_MON, or_true, true_or, eq_self,
      *]; done)
    | split

theorem State.evaluate_keeps (s : State) {μ : Nat} {σ : State} (hk : Keeps μ σ s) (hm : within?
    0xFFFF00000003000000000000000000000000000000000000000000000000000000000000000000000000000000000000000000000000000000000000000000000000000000000000000000000000000000000000000000000000000000000000000000000000000000000000000000000000000000000000000000000000000000000000000000000000000000000000000000000000000000000000000000000000000000000000000000000000000000000000000000000000000000000000000000000000000000000000000000000000000000000000000000000000000000000000000000000000000000000000000000000000000000000000000000000000000000000000000000000000000000000000000000000000000000000000000000000000000000000000000000000000000000000000000000000000000000000000000000000000000000000000000000000000000000000000000000000000000000400000000000000000000000000000000000000000002000000000000000010008000000000000000000000000000000000000000000000000000000000000000004002081
    μ = true) : Keeps μ σ (State.evaluate s) := by
  refine hk.lift hm ?_
  unfold State.evaluate
  repeat' first
    | (extract_lets +onlyGivenNames u
       first
       | (refine Keeps.cut (u := u) ?_ (fun _ => ?_); subst u; on_goal 2 => clear_value u)
       | (have h := @id (_ → _) u; clear h; subst u)
       | clear_value u)
    | with_reducible assumption
    | (simp (decide := true) (maxDischargeDepth := 200) only [↓Keeps.refl, ↓Keeps.ite, ↓Keeps.mk, ↓Keeps.foldl,
      ↓State.put_keeps, ↓State.showMon_keeps, ↓State.raiseReplace_keeps, implies_true, or_true, true_or, eq_self,
      *]; done)
    | (with_reducible refine Keeps.foldl (fun _ _ => ?_) ?_ <;> beta_reduce)
    | (with_reducible refine State.put_keeps _ _ _ ?_ (by decide))
    | (with_reducible refine State.showMon_keeps _ _ ?_ (by decide))
    | (with_reducible refine State.raiseReplace_keeps _ _ ?_ (by decide))
    | split

theorem State.healthSample_keeps (s : State) {μ : Nat} {σ : State} (hk : Keeps μ σ s) (hm : within?
    0xFFFF00000003000000000000000000000000000000000000000000000000000000000000000000000000000000000000000000000000000000000000000000000000000000000000000000000000000000000000000000000000000000000000000000000000000000000000000000000000000000000000000000000000000000000000000000000000000000000000000000000000000000000000000000000000000000000000000000000000000000000000000400000000000000000000000000000000000000000000000000000000000000000000000000000000000000000000000000000000000000000000000000000000000000000000000000000000000000000000000000000000000000000000000000000000000000000000000000000000000000000000000000000000000000000000000000000000000000000000000000000000000000000000000000000000000000000000000000000000000000400000000000000000000000000000000000000000002000000600000000010008000000000000000000000000000000000000000000000000000000000000000014002081
    μ = true) : Keeps μ σ (State.healthSample s) := by
  refine hk.lift hm ?_
  unfold State.healthSample
  repeat' first
    | (extract_lets +onlyGivenNames u
       first
       | (refine Keeps.cut (u := u) ?_ (fun _ => ?_); subst u; on_goal 2 => clear_value u)
       | (have h := @id (_ → _) u; clear h; subst u)
       | clear_value u)
    | with_reducible assumption
    | (simp (decide := true) (maxDischargeDepth := 200) only [↓Keeps.refl, ↓Keeps.ite, ↓Keeps.mk, ↓Keeps.foldl,
      ↓State.partnerBand_keeps, ↓State.sampleMon_keeps, ↓State.fresh_snd, ↓State.chargeOpen_keeps,
      ↓State.evaluate_keeps, ↓State.put_keeps, implies_true, or_true, true_or, eq_self, *]; done)
    | (split <;>
        (rename_i e
         refine Keeps.cut (State.fresh_out (by with_reducible exact e) ?_ (by decide)) (fun _ => ?_) <;> clear e))
    | (with_reducible refine Keeps.foldl (fun _ _ => ?_) ?_ <;> beta_reduce)
    | (with_reducible refine State.partnerBand_keeps _ ?_ (by decide))
    | (with_reducible refine State.sampleMon_keeps _ _ _ ?_ (by decide))
    | (with_reducible refine State.fresh_snd _ ?_ (by decide))
    | (with_reducible refine State.chargeOpen_keeps _ _ ?_ (by decide))
    | (with_reducible refine State.evaluate_keeps _ ?_ (by decide))
    | (with_reducible refine State.put_keeps _ _ _ ?_ (by decide))
    | split

theorem State.wantSample_keeps (s : State) {μ : Nat} {σ : State} (hk : Keeps μ σ s) (hm : within?
    0xFFFF0000000300000000000000000000000000000000000000000000000000000000000000000000000000000000000000000000000000000000000000000000000000000000000000000000000000000000000000000000000000000000000000000000000000000000000000000000000000000000000000000000000000000000000000000000000000000000000000000000000000000000000000000000000000000000000000000000000000000000000000040000000000000000000000000000000000000000000000000000000000000000000000000000000000000000000000000000000000000000000000000000000000000000000000000000000000000000000000000000000000000000000000000000000000000000000000000000000000000000000000000000000000000000000000000000000000000000000000400000000000000000000000000006000100000000000000000000000000000051000000000000000000000000000000000000000000200000060000000001000800000000000000000000000000000000000000000000000000000000000000001400A0C1
    μ = true) : Keeps μ σ (State.wantSample s) := by
  refine hk.lift hm ?_
  unfold State.wantSample
  repeat' first
    | (extract_lets +onlyGivenNames u
       first
       | (refine Keeps.cut (u := u) ?_ (fun _ => ?_); subst u; on_goal 2 => clear_value u)
       | (have h := @id (_ → _) u; clear h; subst u)
       | clear_value u)
    | with_reducible assumption
    | (simp (decide := true) (maxDischargeDepth := 200) only [↓Keeps.refl, ↓Keeps.ite, ↓Keeps.mk,
      ↓State.healthSample_keeps, ↓State.serviceWake_keeps, or_true, true_or, eq_self, *]; done)
    | split

theorem execHealthSample_keeps (s : State) : Ends (Keeps
    0xFFFF0000000300000000000000000000000000000000000000000000000000000000000000000000000000000000000000000000000000000000000000000000000000000000000000000000000000000000000000000000000000000000000000000000000000000000000000000000000000000000000000000000000000000000000000000000000000000000000000000000000000000000000000000000000000000000000000000000000000000000000000040000000000000000000000000000000000000000000000000000000000000000000000000000000000000000000000000000000000000000000000000000000000000000000000000000000000000000000000000000000000000000000000000000000000000000000000000000000000000000000000000000000000000000000000000000000000000000000000400000000000000000000000000006000100000000000000000000000000000051000000000000000000000000000000000000000000200000060000000001000800000000000000000000000000000000000000000000000000000000000000001400A0C1
    s) (execHealthSample s) := by
  unfold execHealthSample
  refine Ends.next ?_
  repeat' first
    | (extract_lets +onlyGivenNames u
       first
       | (refine Keeps.cut (u := u) ?_ (fun _ => ?_); subst u; on_goal 2 => clear_value u)
       | (have h := @id (_ → _) u; clear h; subst u)
       | clear_value u)
    | with_reducible assumption
    | (simp (decide := true) (maxDischargeDepth := 200) only [↓Keeps.next, ↓Keeps.endsIte, ↓Keeps.refl, ↓Keeps.ite,
      ↓Keeps.mk, ↓State.wantSample_keeps, or_true, true_or, eq_self, *]; done)
    | split

theorem State.replaceClr_keeps (s : State) (f : Fn) {μ : Nat} {σ : State} (hk : Keeps μ σ s) (hm : within?
    0xFFFF00000003000000000000000000000000000000000000000000000000000000000000000000000000000000000000000000000000000000000000000000000000000000000000000000000000000000000000000000000000000000000000000000000000000000000000000000000000000000000000000000000000000000000000000000000000000000000000000000000000000000000000000000000000000000000000000000000000000000000000000000000000000000000000000000000000000000000000000000000000000000000000000000000000000000000000000000000000000000000000000000000000000000000000000000000000000000000000000000000000000000000000000000000000000000000000000000000000000000000000000000000000000000000000000000000000000000000000000000000000000000000000000000000000000000000000000000000000000000400000000000000000000000000000000000000000002000000000000000010028000000000000000000000000000000000000000000000000000000000000000004002081
    μ = true) : Keeps μ σ (State.replaceClr s f) := by
  refine hk.lift hm ?_
  unfold State.replaceClr
  repeat' first
    | (extract_lets +onlyGivenNames u
       first
       | (refine Keeps.cut (u := u) ?_ (fun _ => ?_); subst u; on_goal 2 => clear_value u)
       | (have h := @id (_ → _) u; clear h; subst u)
       | clear_value u)
    | with_reducible assumption
    | (simp (decide := true) (maxDischargeDepth := 200) only [↓Keeps.refl, ↓Keeps.ite, ↓Keeps.mk, ↓State.setErr_keeps,
      ↓State.evaluate_keeps, ↓State.healthRec_keeps, ↓State.putAll_keeps, ↓State.put_keeps, regIn_on, or_true,
      true_or, eq_self, *]; done)
    | split

theorem State.svcStart_keeps (s : State) (f : Fn) {μ : Nat} {σ : State} (hk : Keeps μ σ s) (hm : within?
    0x38C1000000000000000000000000000000000000000000000000000000000000000000000000000000000000000000000000000000000000000000000000000000000000000000000000000000000000000000000000000000000000000000000000000000000000000000000000000000000000000000000000000000000000000000000000000000000000000000000000000000000000000000000000000000000000000000000000000000000000000000000000000000000000000000000000000000000000000000000000000000000000000000000000000000000000000000000000000000000000000000000000000000000000000000000000000000000000000000000000000000000000000000000000000000000000000000000000000000000000000000000000000000000000000000000000000000000000000000000000000000000000000000000000000000000000000000000000000000000000000000000000000000000000000000000000000000000000000000000020000000000000000000000000000000000000000000000000000000000000000004000000
    μ = true) : Keeps μ σ (State.svcStart s f) := by
  refine hk.lift hm ?_
  unfold State.svcStart
  repeat' first
    | (extract_lets +onlyGivenNames u
       first
       | (refine Keeps.cut (u := u) ?_ (fun _ => ?_); subst u; on_goal 2 => clear_value u)
       | (have h := @id (_ → _) u; clear h; subst u)
       | clear_value u)
    | with_reducible assumption
    | (simp (decide := true) (maxDischargeDepth := 200) only [↓Keeps.refl, ↓Keeps.ite, ↓Keeps.mk, ↓State.setErr_keeps,
      ↓State.put_keeps, ↓State.put32_keeps, or_true, true_or, eq_self, *]; done)
    | split

theorem State.feedSelf_keeps (s : State) (mask : Nat) {μ : Nat} {σ : State} (hk : Keeps μ σ s) (hm : within? 0x4000000
    μ = true) : Keeps μ σ (State.feedSelf s mask) := by
  refine hk.lift hm ?_
  unfold State.feedSelf
  repeat' first
    | (extract_lets +onlyGivenNames u
       first
       | (refine Keeps.cut (u := u) ?_ (fun _ => ?_); subst u; on_goal 2 => clear_value u)
       | (have h := @id (_ → _) u; clear h; subst u)
       | clear_value u)
    | with_reducible assumption
    | (simp (decide := true) (maxDischargeDepth := 200) only [↓Keeps.refl, ↓Keeps.ite, ↓Keeps.mk, or_true, true_or,
      eq_self, *]; done)
    | split

theorem State.feedPartner_keeps (s : State) (mask : Nat) {μ : Nat} {σ : State} (hk : Keeps μ σ s) (hm : within?
    0x4000000 μ = true) : Keeps μ σ (State.feedPartner s mask) := by
  refine hk.lift hm ?_
  unfold State.feedPartner
  repeat' first
    | (extract_lets +onlyGivenNames u
       first
       | (refine Keeps.cut (u := u) ?_ (fun _ => ?_); subst u; on_goal 2 => clear_value u)
       | (have h := @id (_ → _) u; clear h; subst u)
       | clear_value u)
    | with_reducible assumption
    | (simp (decide := true) (maxDischargeDepth := 200) only [↓Keeps.refl, ↓Keeps.ite, ↓Keeps.mk, or_true, true_or,
      eq_self, *]; done)
    | split

theorem execSelftest_keeps (f : Fn) (mask ms : Nat) (s : State) : Ends (Keeps
    0x10000000000000000000000000000000000000000000000000600000000000000000000000000000000000000000000000000000000000000000000000000000014002000
    s) (execSelftest f mask ms s) := by
  unfold execSelftest
  refine Ends.next ?_
  repeat' first
    | (extract_lets +onlyGivenNames u
       first
       | (refine Keeps.cut (u := u) ?_ (fun _ => ?_); subst u; on_goal 2 => clear_value u)
       | (have h := @id (_ → _) u; clear h; subst u)
       | clear_value u)
    | with_reducible assumption
    | (simp (decide := true) (maxDischargeDepth := 200) only [↓Keeps.next, ↓Keeps.endsIte, ↓Keeps.refl, ↓Keeps.ite,
      ↓Keeps.mk, ↓State.showMaintain_keeps, ↓State.outcome_keeps, ↓State.chargeOpen_keeps, ↓State.feedSelf_keeps,
      implies_true, or_true, true_or, eq_self, *]; done)
    | (with_reducible refine State.withOp_keeps _ _ _ _ ?_ (fun _ => ?_) <;> beta_reduce)
    | (with_reducible refine State.showMaintain_keeps _ ?_ (by decide))
    | (with_reducible refine State.outcome_keeps _ _ _ _ ?_ (by decide))
    | (with_reducible refine State.chargeOpen_keeps _ _ ?_ (by decide))
    | (with_reducible refine State.feedSelf_keeps _ _ ?_ (by decide))
    | split

end Sys2Proof.Machine
end

