-- ==== Sys2Proof/Laws/KeepsClocks.lean ====
section
/-! SUPPORT. What each operation of Machine/Clocks.lean may change, and that it keeps the canonical form. -/

set_option Elab.async false

set_option linter.unusedSimpArgs false
set_option linter.unusedTactic false
set_option linter.unreachableTactic false

namespace Sys2Proof.Machine

open R

theorem execX32Qualified_keeps (s : State) : Ends (Keeps
    0x100000000000000000000000000000000000000000000000000000000000000000000000000000000000000000000000000100000 s)
    (execX32Qualified s) := by
  unfold execX32Qualified
  refine Ends.next ?_
  repeat' first
    | (extract_lets +onlyGivenNames u
       first
       | (refine Keeps.cut (u := u) ?_ (fun _ => ?_); subst u; on_goal 2 => clear_value u)
       | (have h := @id (_ → _) u; clear h; subst u)
       | clear_value u)
    | with_reducible assumption
    | (simp (decide := true) (maxDischargeDepth := 200) only [↓Keeps.next, ↓Keeps.endsIte, ↓Keeps.refl, ↓Keeps.ite,
      ↓Keeps.mk, ↓State.put_keeps, or_true, true_or, eq_self, *]; done)
    | split

theorem State.x32Lost_keeps (s : State) {μ : Nat} {σ : State} (hk : Keeps μ σ s) (hm : within?
    0x10000000000000000000000000000000000000000000000000000000000000000000000000000000000000000000000000000000000000000000000000000000000000000000000000000000000000000000000000000000000000000000000000000000000000000000000000000000000000000000000000000000000000000000000000000000000000000000000000000000000000000000000000000000000000000000000000000000000000000000000000000000000000000000000000000000000000000000000000000000000000000000000000000000000000000000000000000000000000000000000400000000000000000000000000000000300000000000000000000000000010000000000000000000000000000000000000000000000000000000000000000000000102081
    μ = true) : Keeps μ σ (State.x32Lost s) := by
  refine hk.lift hm ?_
  unfold State.x32Lost
  repeat' first
    | (extract_lets +onlyGivenNames u
       first
       | (refine Keeps.cut (u := u) ?_ (fun _ => ?_); subst u; on_goal 2 => clear_value u)
       | (have h := @id (_ → _) u; clear h; subst u)
       | clear_value u)
    | with_reducible assumption
    | (simp (decide := true) (maxDischargeDepth := 200) only [↓Keeps.refl, ↓Keeps.ite, ↓Keeps.mk,
      ↓State.clockEvent_keeps, ↓State.put_keeps, or_true, true_or, eq_self, *]; done)
    | split

theorem execX32Fail_keeps (s : State) : Ends (Keeps
    0x10000000000000000000000000000000000000000000000000000000000000000000000000000000000000000000000000000000000000000000000000000000000000000000000000000000000000000000000000000000000000000000000000000000000000000000000000000000000000000000000000000000000000000000000000000000000000000000000000000000000000000000000000000000000000000000000000000000000000000000000000000000000000000000000000000000000000000000000000000000000000000000000000000000000000000000000000000000000000000000000400000000000000000000000000000000300000000000000000000000000010000000000000000000000000000000000000000000000000000000000000000000000102081
    s) (execX32Fail s) := by
  unfold execX32Fail
  refine Ends.next ?_
  repeat' first
    | (extract_lets +onlyGivenNames u
       first
       | (refine Keeps.cut (u := u) ?_ (fun _ => ?_); subst u; on_goal 2 => clear_value u)
       | (have h := @id (_ → _) u; clear h; subst u)
       | clear_value u)
    | with_reducible assumption
    | (simp (decide := true) (maxDischargeDepth := 200) only [↓Keeps.next, ↓Keeps.endsIte, ↓Keeps.refl, ↓Keeps.ite,
      ↓Keeps.mk, ↓State.x32Lost_keeps, or_true, true_or, eq_self, *]; done)
    | split

theorem execX32MissingEdge_keeps (s : State) : Ends (Keeps
    0x10000000000000000000000000000000000000000000000000000000000000000000000000000000000000000000000000000000000000000000000000000000000000000000000000000000000000000000000000000000000000000000000000000000000000000000000000000000000000000000000000000000000000000000000000000000000000000000000000000000000000000000000000000000000000000000000000000000000000000000000000000000000000000000000000000000000000000000000000000000000000000000000000000000000000000000000000000000000000000000000400000000000000000000000000000000300000000000000000000000000010000000000000000000000000000000000000000000000000000000000000000000000102081
    s) (execX32MissingEdge s) := by
  unfold execX32MissingEdge
  refine Ends.next ?_
  repeat' first
    | (extract_lets +onlyGivenNames u
       first
       | (refine Keeps.cut (u := u) ?_ (fun _ => ?_); subst u; on_goal 2 => clear_value u)
       | (have h := @id (_ → _) u; clear h; subst u)
       | clear_value u)
    | with_reducible assumption
    | (simp (decide := true) (maxDischargeDepth := 200) only [↓Keeps.next, ↓Keeps.endsIte, ↓Keeps.refl, ↓Keeps.ite,
      ↓Keeps.mk, ↓State.x32Lost_keeps, or_true, true_or, eq_self, *]; done)
    | split

theorem execXoQualified_keeps (us : Nat) (s : State) : Ends (Keeps
    0x2100000000000000000000000000000000000000000000000000000000000000000000000000000000000000000000000000100080 s)
    (execXoQualified us s) := by
  unfold execXoQualified
  refine Ends.next ?_
  repeat' first
    | (extract_lets +onlyGivenNames u
       first
       | (refine Keeps.cut (u := u) ?_ (fun _ => ?_); subst u; on_goal 2 => clear_value u)
       | (have h := @id (_ → _) u; clear h; subst u)
       | clear_value u)
    | with_reducible assumption
    | (simp (decide := true) (maxDischargeDepth := 200) only [↓Keeps.next, ↓Keeps.endsIte, ↓Keeps.refl, ↓Keeps.ite,
      ↓Keeps.mk, ↓State.putSat_keeps, ↓State.put_keeps, or_true, true_or, eq_self, *]; done)
    | split

theorem execXoFail_keeps (s : State) : Ends (Keeps
    0x182C10000000000000000000000000000000200000000000000000000000000004080000000000000000000000000000040800000000000000000000000000001800000000000000000000000000000000600000000000000000000000000000000210000000000000000FFFFFFFF002007FD000000000000000001FFFFFF000130030000000000000000000000000000000000000000000000000000000000000001000000000000000000000000000001090000000000000000000000000002000000000000000000000000000000000000000000000000000000000000000000000000000000000000000000000000000000000000000000000000000000000000000000000000000000000000000000000000000000000000000000000000000000000000000000000000000000000001000000000000000000000000000000410000000000000000000000000000006300000000002000000600000000010000000000000000000000000000000000000000000000000000000000000000000015FFA0C5
    s) (execXoFail s) := by
  unfold execXoFail
  refine Ends.next ?_
  repeat' first
    | (extract_lets +onlyGivenNames u
       first
       | (refine Keeps.cut (u := u) ?_ (fun _ => ?_); subst u; on_goal 2 => clear_value u)
       | (have h := @id (_ → _) u; clear h; subst u)
       | clear_value u)
    | with_reducible assumption
    | (simp (decide := true) (maxDischargeDepth := 200) only [↓Keeps.next, ↓Keeps.endsIte, ↓Keeps.refl, ↓Keeps.ite,
      ↓Keeps.mk, ↓State.put_keeps, ↓State.inc_keeps, ↓State.settle_keeps, ↓State.missRuns_keeps,
      ↓State.clockEvent_keeps, or_true, true_or, eq_self, *]; done)
    | split

theorem execXoRetry_keeps (s : State) : Ends (Keeps 0x80 s) (execXoRetry s) := by
  unfold execXoRetry
  refine Ends.next ?_
  repeat' first
    | (extract_lets +onlyGivenNames u
       first
       | (refine Keeps.cut (u := u) ?_ (fun _ => ?_); subst u; on_goal 2 => clear_value u)
       | (have h := @id (_ → _) u; clear h; subst u)
       | clear_value u)
    | with_reducible assumption
    | (simp (decide := true) (maxDischargeDepth := 200) only [↓Keeps.next, ↓Keeps.endsIte, ↓Keeps.refl, ↓Keeps.ite,
      ↓Keeps.mk, ↓State.xoStart_keeps, or_true, true_or, eq_self, *]; done)
    | split

theorem execPllLock_keeps (hfrcErr : Int) (s : State) : Ends (Keeps
    0x1100000000000000000000000000000000000000000000000000000000000000000000000000000000000000000000000000000000 s)
    (execPllLock hfrcErr s) := by
  unfold execPllLock
  refine Ends.next ?_
  repeat' first
    | (extract_lets +onlyGivenNames u
       first
       | (refine Keeps.cut (u := u) ?_ (fun _ => ?_); subst u; on_goal 2 => clear_value u)
       | (have h := @id (_ → _) u; clear h; subst u)
       | clear_value u)
    | with_reducible assumption
    | (simp (decide := true) (maxDischargeDepth := 200) only [↓Keeps.next, ↓Keeps.endsIte, ↓Keeps.refl, ↓Keeps.ite,
      ↓Keeps.mk, ↓State.put_keeps, or_true, true_or, eq_self, *]; done)
    | split

theorem execPllFail_keeps (s : State) : Ends (Keeps
    0x182C10000000000000000000000000000000200000000000000000000000000004080000000000000000000000000000040800000000000000000000000000001800000000000000000000000000000000600000000000000000000000000000000210000000000000000FFFFFFFF002007FD000000000000000001FFFFFF000130030000000000000000000000000000000000000000000000000000000000000001000000000000000000000000000001090000000000000000000000000002000000000000000000000000000000000000000000000000000000000000000000000000000000000000000000000000000000000000000000000000000000000000000000000000000000000000000000000000000000000000000000000000000000000000000000000000000000000001000000000000000000000000000000410000000000000000000000000000004300000000002000000600000000010000000000000000000000000000000000000000000000000000000000000000000015EFA0C5
    s) (execPllFail s) := by
  unfold execPllFail
  refine Ends.next ?_
  repeat' first
    | (extract_lets +onlyGivenNames u
       first
       | (refine Keeps.cut (u := u) ?_ (fun _ => ?_); subst u; on_goal 2 => clear_value u)
       | (have h := @id (_ → _) u; clear h; subst u)
       | clear_value u)
    | with_reducible assumption
    | (simp (decide := true) (maxDischargeDepth := 200) only [↓Keeps.next, ↓Keeps.endsIte, ↓Keeps.refl, ↓Keeps.ite,
      ↓Keeps.mk, ↓State.noteFault_keeps, ↓State.clockEvent_keeps, ↓State.inc_keeps, ↓State.put_keeps,
      ↓State.fresh_snd, ↓State.settle_keeps, ↓State.missRuns_keeps, or_true, true_or, eq_self, *]; done)
    | (split <;>
        (rename_i e
         refine Keeps.cut (State.fresh_out (by with_reducible exact e) ?_ (by decide)) (fun _ => ?_) <;> clear e))
    | (with_reducible refine State.noteFault_keeps _ ?_ (by decide))
    | (with_reducible refine State.clockEvent_keeps _ ?_ (by decide))
    | (with_reducible refine State.inc_keeps _ _ ?_ (by decide))
    | (with_reducible refine State.put_keeps _ _ _ ?_ (by decide))
    | (with_reducible refine State.fresh_snd _ ?_ (by decide))
    | (with_reducible refine State.settle_keeps _ ?_ (by decide))
    | (with_reducible refine State.missRuns_keeps _ _ _ ?_ (by decide))
    | split

end Sys2Proof.Machine
end

