-- ==== Sys2Proof/Laws/KeepsHostPorts.lean ====
section
/-! SUPPORT. What each operation of Machine/HostPorts.lean may change, and that it keeps the canonical form. -/

set_option Elab.async false

set_option linter.unusedSimpArgs false
set_option linter.unusedTactic false
set_option linter.unreachableTactic false

namespace Sys2Proof.Machine

open R

theorem spiRow_page (m code : Nat)
    (hm : ∀ k ∈ [HP_EVT.w.key, HP_CNT_NRDY.w.key, HP_CNT_SHORT.w.key, HP_CNT_CRC.w.key, HP_CNT_FRAMING.w.key, HP_CNT_TIMEOUT.w.key], regIn m k = true) : (∀ e, (spiRow code).1 = some e → regIn m e.key = true) ∧
    (∀ e, (spiRow code).2.1 = some e → regIn m e.key = true) := by
  unfold spiRow
  split <;> simp <;> first | exact hm _ (by decide) | exact ⟨hm _ (by decide), hm _ (by decide)⟩

theorem State.spiOutcome_keeps (s : State) (f : Option Fn) (bytes code : Nat) (ready : Bool) {μ : Nat} {σ : State} (hk : Keeps μ σ s)
    (hm : within? 0x3FE00000000000000000000000000000000000000000000000000000000000000000000000000000000000000000000000000000000000000000000000000000000000000000000000000000000000000400000000000000000000000000000000000000000000000000000000000020020000000000000000000000000000000000000000000000000000000000000000000002881 μ = true) : Keeps μ σ (s.spiOutcome f bytes code ready) := by
  refine hk.lift hm ?_
  have h := spiRow_page 0x3FE00000000000000000000000000000000000000000000000000000000000000000000000000000000000000000000000000000000000000000000000000000000000000000000000000000000000000400000000000000000000000000000000000000000000000000000000000020020000000000000000000000000000000000000000000000000000000000000000000002881 code (by decide)
  unfold State.spiOutcome
  generalize spiRow code = r at h ⊢
  obtain ⟨evt, cnt, err⟩ := r
  rcases evt with _ | e <;> rcases cnt with _ | c <;> (try have h1 := h.1 _ rfl) <;> (try have h2 := h.2 _ rfl) <;> clear h <;>
    dsimp (zeta := false) only
  all_goals
    repeat' first
      | (extract_lets +onlyGivenNames u
         first
         | (refine Keeps.cut (u := u) ?_ (fun _ => ?_); subst u; on_goal 2 => clear_value u)
         | (have h := @id (_ → _) u; clear h; subst u)
         | clear_value u)
      | with_reducible assumption
      | (simp (decide := true) (maxDischargeDepth := 200) only [↓Keeps.refl, ↓Keeps.ite, ↓Keeps.mk, ↓State.put_keeps, ↓State.inc_keeps, ↓State.add32_keeps, ↓State.setErr_keeps, ↓State.raise1_keeps, or_true, true_or, eq_self, implies_true, *]; done)
      | split

theorem State.twEvt_keeps (s : State) (x : Fld) {μ : Nat} {σ : State} (hk : Keeps μ σ s)
    (hx : regIn μ x.key = true) (hm : within? 0x1000 μ = true) : Keeps μ σ (s.twEvt x) := by
  unfold State.twEvt
  refine Keeps.ite (State.put_keeps _ _ _ hk hx) (hk.lift hm ?_)
  simp (decide := true) only [↓Keeps.mk, ↓Keeps.refl, or_true, true_or, eq_self]

theorem twRow_page (m code : Nat)
    (hm : ∀ k ∈ [TW_EVT.w.key], regIn m k = true) : (∀ e, (twRow code).1 = some e → regIn m e.key = true) := by
  unfold twRow
  split <;> simp <;> first | exact hm _ (by decide) | exact ⟨hm _ (by decide), hm _ (by decide)⟩

theorem State.twOutcome_keeps (s : State) (f : Fn) (bytes code : Nat) {μ : Nat} {σ : State} (hk : Keeps μ σ s)
    (hm : within? 0xB000000000000000000000000000000000000000000000000000000000000000000000000000000000000000000000000000000000000000000000000000000000000000000000000000000000000000000000000000000000000000000000000400000000000000000000000000000000000000000000000000000000000020020000000000000000000000000000000000000000000000000000000000000000000003081 μ = true) : Keeps μ σ (s.twOutcome f bytes code) := by
  refine hk.lift hm ?_
  have h := twRow_page 0xB000000000000000000000000000000000000000000000000000000000000000000000000000000000000000000000000000000000000000000000000000000000000000000000000000000000000000000000000000000000000000000000000400000000000000000000000000000000000000000000000000000000000020020000000000000000000000000000000000000000000000000000000000000000000003081 code (by decide)
  unfold State.twOutcome
  generalize twRow code = r at h ⊢
  obtain ⟨evt, err⟩ := r
  rcases evt with _ | e <;> (try have h1 := h _ rfl) <;> clear h <;> dsimp (zeta := false) only
  all_goals
    repeat' first
      | (extract_lets +onlyGivenNames u
         first
         | (refine Keeps.cut (u := u) ?_ (fun _ => ?_); subst u; on_goal 2 => clear_value u)
         | (have h := @id (_ → _) u; clear h; subst u)
         | clear_value u)
      | with_reducible assumption
      | (simp (decide := true) (maxDischargeDepth := 200) only [↓State.twEvt_keeps, ↓Keeps.refl, ↓Keeps.ite, ↓Keeps.mk, ↓State.put_keeps, ↓State.inc_keeps, ↓State.add32_keeps, ↓State.setErr_keeps, ↓State.raise1_keeps, or_true, true_or, eq_self, implies_true, *]; done)
      | split

theorem State.twAbandon_keeps (s : State) (code : Nat) {μ : Nat} {σ : State} (hk : Keeps μ σ s) (hm : within?
    0xB000000000000000000000000000000000000000000000000000000000000000000000000000000000000000000000000000000000000000000000000000000000000000000000000000000000000000000000000000000000000000000000000400000000000000000000000000000000000000000000000000000000000020020000000000000000000000000000000000000000000000000000000000000000000003081
    μ = true) : Keeps μ σ (State.twAbandon s code) := by
  refine hk.lift hm ?_
  unfold State.twAbandon
  repeat' first
    | (extract_lets +onlyGivenNames u
       first
       | (refine Keeps.cut (u := u) ?_ (fun _ => ?_); subst u; on_goal 2 => clear_value u)
       | (have h := @id (_ → _) u; clear h; subst u)
       | clear_value u)
    | with_reducible assumption
    | (simp (decide := true) (maxDischargeDepth := 200) only [↓Keeps.refl, ↓Keeps.ite, ↓Keeps.mk,
      ↓State.twOutcome_keeps, or_true, true_or, eq_self, *]; done)
    | split

theorem State.attnStat_keeps (s : State) (f : Fn) (tryNo code : Nat) {μ : Nat} {σ : State} (hk : Keeps μ σ s) (hm :
    within?
    0x4000000000000000000000000000000000000000000000000000000000000000000000000000000000000000000000000000000000000000000000000000000000000000000000000000000000000000000000000000000000000000000000000000000000000000000000000000000000000000000000000000000000000000000000000000000000000000000000000000000000000000000000000000000000000000000
    μ = true) : Keeps μ σ (State.attnStat s f tryNo code) := by
  refine hk.lift hm ?_
  unfold State.attnStat
  repeat' first
    | (extract_lets +onlyGivenNames u
       first
       | (refine Keeps.cut (u := u) ?_ (fun _ => ?_); subst u; on_goal 2 => clear_value u)
       | (have h := @id (_ → _) u; clear h; subst u)
       | clear_value u)
    | with_reducible assumption
    | (simp (decide := true) (maxDischargeDepth := 200) only [↓Keeps.refl, ↓Keeps.ite, ↓Keeps.mk, ↓State.put_keeps,
      or_true, true_or, eq_self, *]; done)
    | split

theorem State.attnOver_keeps (s : State) (f : Fn) {μ : Nat} {σ : State} (hk : Keeps μ σ s) (hm : within?
    0x80000000000000000000000000000000000000000000000000000000000000000000002000 μ = true) : Keeps μ σ (State.attnOver
    s f) := by
  refine hk.lift hm ?_
  unfold State.attnOver
  repeat' first
    | (extract_lets +onlyGivenNames u
       first
       | (refine Keeps.cut (u := u) ?_ (fun _ => ?_); subst u; on_goal 2 => clear_value u)
       | (have h := @id (_ → _) u; clear h; subst u)
       | clear_value u)
    | with_reducible assumption
    | (simp (decide := true) (maxDischargeDepth := 200) only [↓Keeps.refl, ↓Keeps.ite, ↓Keeps.mk, ↓State.setEng_keeps,
      ↓State.fput_keeps, regIn_on, or_true, true_or, eq_self, *]; done)
    | split

theorem State.attnWithdraw_keeps (s : State) (f : Fn) {μ : Nat} {σ : State} (hk : Keeps μ σ s) (hm : within?
    0x4000000000000000000000000000000000000000000000000000000000000000000000000000000000000000000000000000000000000000000000000000000000000000000000000000000000000000000000000000000000000000000000000000000000000000000000000000000000000000000000000000000000000000080000000000000000000000000000000000000000000000000000000000000000000002000
    μ = true) : Keeps μ σ (State.attnWithdraw s f) := by
  refine hk.lift hm ?_
  unfold State.attnWithdraw
  repeat' first
    | (extract_lets +onlyGivenNames u
       first
       | (refine Keeps.cut (u := u) ?_ (fun _ => ?_); subst u; on_goal 2 => clear_value u)
       | (have h := @id (_ → _) u; clear h; subst u)
       | clear_value u)
    | with_reducible assumption
    | (simp (decide := true) (maxDischargeDepth := 200) only [↓Keeps.refl, ↓Keeps.ite, ↓Keeps.mk,
      ↓State.attnOver_keeps, ↓State.attnStat_keeps, or_true, true_or, eq_self, *]; done)
    | split

theorem State.attnSettle_keeps (s : State) (f : Fn) {μ : Nat} {σ : State} (hk : Keeps μ σ s) (hm : within?
    0x4000000000000000000000000000000000000000000000000000000000000000000000000000000000000000000000000000000000000000000000000000000000000000000000000000000000000000000000000000000000000000000000000000000000000000000000000000000000000000000000000000000000000000080000000000000000000000000000000000000000000000000000000000000000000003000
    μ = true) : Keeps μ σ (State.attnSettle s f) := by
  refine hk.lift hm ?_
  unfold State.attnSettle
  repeat' first
    | (extract_lets +onlyGivenNames u
       first
       | (refine Keeps.cut (u := u) ?_ (fun _ => ?_); subst u; on_goal 2 => clear_value u)
       | (have h := @id (_ → _) u; clear h; subst u)
       | clear_value u)
    | with_reducible assumption
    | (simp (decide := true) (maxDischargeDepth := 200) only [↓Keeps.refl, ↓Keeps.ite, ↓Keeps.mk,
      ↓State.attnWithdraw_keeps, or_true, true_or, eq_self, *]; done)
    | split

theorem State.attnEnd_keeps (s : State) (code : Nat) {μ : Nat} {σ : State} (hk : Keeps μ σ s) (hm : within?
    0x5000000000000000000000000000000000000000000000000000000000000000000000000000000000000000000000000000000000000000000000000000000000000000000000000000000000000000000000000000000000000000000000000000000000000000000000000000000000000000000000000000000000000000080000000000000000000000000000000000000000000000000000000000000000000003000
    μ = true) : Keeps μ σ (State.attnEnd s code) := by
  refine hk.lift hm ?_
  unfold State.attnEnd
  repeat' first
    | (extract_lets +onlyGivenNames u
       first
       | (refine Keeps.cut (u := u) ?_ (fun _ => ?_); subst u; on_goal 2 => clear_value u)
       | (have h := @id (_ → _) u; clear h; subst u)
       | clear_value u)
    | with_reducible assumption
    | (simp (decide := true) (maxDischargeDepth := 200) only [↓Keeps.refl, ↓Keeps.ite, ↓Keeps.mk,
      ↓State.attnStat_keeps, ↓State.setEng_keeps, ↓State.twEvt_keeps, ↓State.attnSettle_keeps, or_true, true_or,
      eq_self, *]; done)
    | split

theorem State.attnLate_keeps (s : State) (f : Fn) {μ : Nat} {σ : State} (hk : Keeps μ σ s) (hm : within?
    0x5000000000000000000000000000000000000000000000000000000000000000000000000000000000000000000000000000000000000000000000000000000000000000000000000000000000000000000000000000000000000000000000000000000000000000000000000000000000000000000000000000000000000000080000000000000000000000000000000000000000000000000000000000000000000003000
    μ = true) : Keeps μ σ (State.attnLate s f) := by
  refine hk.lift hm ?_
  unfold State.attnLate
  repeat' first
    | (extract_lets +onlyGivenNames u
       first
       | (refine Keeps.cut (u := u) ?_ (fun _ => ?_); subst u; on_goal 2 => clear_value u)
       | (have h := @id (_ → _) u; clear h; subst u)
       | clear_value u)
    | with_reducible assumption
    | (simp (decide := true) (maxDischargeDepth := 200) only [↓Keeps.refl, ↓Keeps.ite, ↓Keeps.mk,
      ↓State.attnEnd_keeps, ↓State.attnOver_keeps, ↓State.twEvt_keeps, or_true, true_or, eq_self, *]; done)
    | split

end Sys2Proof.Machine
end

