-- ==== Sys2Proof/Laws/KeepsResets.lean ====
section
/-! SUPPORT. What each operation of Machine/Resets.lean may change, and that it keeps the canonical form. -/

set_option Elab.async false

set_option linter.unusedSimpArgs false
set_option linter.unusedTactic false
set_option linter.unreachableTactic false

namespace Sys2Proof.Machine

open R

theorem State.twDefaults_keeps (s : State) {μ : Nat} {σ : State} (hk : Keeps μ σ s) (hm : within?
    0xE0000000000000000000000000000000000000000000000000000000000000000000000000000000000000000000000000000000000000000000000000000000000000000000000000000000000000000000000000000000000000000000000000000000000000000000000000000000000000000000000000000000000000000000000000000000000000000000000000000000000000000000000000000000000000000
    μ = true) : Keeps μ σ (State.twDefaults s) := by
  refine hk.lift hm ?_
  unfold State.twDefaults
  repeat' first
    | (extract_lets +onlyGivenNames u
       first
       | (refine Keeps.cut (u := u) ?_ (fun _ => ?_); subst u; on_goal 2 => clear_value u)
       | (have h := @id (_ → _) u; clear h; subst u)
       | clear_value u)
    | with_reducible assumption
    | (simp (decide := true) (maxDischargeDepth := 200) only [↓Keeps.refl, ↓Keeps.ite, ↓Keeps.mk, ↓State.put_keeps,
      or_true, true_or, eq_self, *]; done)
    | split

/-- The pages of CORE-stored registers. -/

theorem corePage_in (k : Nat) (h : regIn 0x100000000000000000000000000000000000000000000000000000000000000000000000000000000000000000000000000000000000000000000000000000000000000000000000000000000000000000000000000000000000F000001800FF10000000000000000000000000000000000000000000000000000000000000000000000000000000000000000000000000000000000000000000000000000000000000000000000000000000000000000000000000000000000000000000000000000000000000000000000000001000000000000000000000000000000000000000000000000000000000000000000000000000000000000000000000000000E0000000000000000000000000000000000000000000000000000000000000000000000000000000000000000000000000000000000000000000000000000000000000000000000000000000000000000000000000000000000000000000000000000000000000000000000000000000000000000000000000000000000000008FFFFFFFFFFFFFFFFFFFFFFFFFFFFFFFFFFFFFFFFFFFFFFFFFFFFFFFFFF7DFFF100000000 k = false) : isAon k = true := by
  replace h := (Bool.or_eq_false_iff.mp h).1
  have h0 : keyPage k < 256 := by unfold keyPage; split <;> omega
  have h1 : ∀ p, p < 256 → Nat.testBit 0x100000000000000000000000000000000000000000000000000000000000000000000000000000000000000000000000000000000000000000000000000000000000000000000000000000000000000000000000000000000000F000001800FF10000000000000000000000000000000000000000000000000000000000000000000000000000000000000000000000000000000000000000000000000000000000000000000000000000000000000000000000000000000000000000000000000000000000000000000000000001000000000000000000000000000000000000000000000000000000000000000000000000000000000000000000000000000E0000000000000000000000000000000000000000000000000000000000000000000000000000000000000000000000000000000000000000000000000000000000000000000000000000000000000000000000000000000000000000000000000000000000000000000000000000000000000000000000000000000000000008FFFFFFFFFFFFFFFFFFFFFFFFFFFFFFFFFFFFFFFFFFFFFFFFFFFFFFFFFF7DFFF100000000 (32 + p) = false →
      (p == 1 || p == 2 || p == 3 || p == 0x11 || p == 0x17) = true := by decide +kernel
  have h2 := h1 _ h0 h
  unfold isAon
  split
  · exact h2
  · rename_i hk
    simp [keyPage, hk] at h2

theorem State.coreLost_keeps (s : State) {μ : Nat} {σ : State} (hk : Keeps μ σ s)
    (hm : within? 0x100000000000000000000000000000000000000000000000000000000000000000000000000000000000000000000000000000000000000000000000000000000000000000000000000000000000000000000000000000000000F000001800FF10000000000000000000000000000000000000000000000000000000000000000000000000000000000000000000000000000000000000000000000000000000000000000000000000000000000000000000000000000000000000000000000000000000000000000000000000001000000000000000000000000000000000000000000000000000000000000000000000000000000000000000000000000000E0000000000000000000000000000000000000000000000000000000000000000000000000000000000000000000000000000000000000000000000000000000000000000000000000000000000000000000000000000000000000000000000000000000000000000000000000000000000000000000000000000000000000008FFFFFFFFFFFFFFFFFFFFFFFFFFFFFFFFFFFFFFFFFFFFFFFFFFFFFFFFFF7DFFF105EFFC04 μ = true) : Keeps μ σ s.coreLost := by
  refine hk.lift hm ?_
  have h1 := Keeps.resetRegs (p := fun k => !isAon k && !sincePor k && !ownStore k) (Keeps.refl (m := 0x100000000000000000000000000000000000000000000000000000000000000000000000000000000000000000000000000000000000000000000000000000000000000000000000000000000000000000000000000000000000F000001800FF10000000000000000000000000000000000000000000000000000000000000000000000000000000000000000000000000000000000000000000000000000000000000000000000000000000000000000000000000000000000000000000000000000000000000000000000000001000000000000000000000000000000000000000000000000000000000000000000000000000000000000000000000000000E0000000000000000000000000000000000000000000000000000000000000000000000000000000000000000000000000000000000000000000000000000000000000000000000000000000000000000000000000000000000000000000000000000000000000000000000000000000000000000000000000000000000000008FFFFFFFFFFFFFFFFFFFFFFFFFFFFFFFFFFFFFFFFFFFFFFFFFFFFFFFFFF7DFFF105EFFC04) (s := s))
    (fun k hk => by simp [corePage_in k (Keeps.regIn_of_within (by decide) hk)])
  have h2 := h1.dropMem (p := fun a => !isFlash a && !isBurrow a) (by decide)
  unfold State.coreLost
  extract_lets e0 eng e1 pl u v w0 w1 w2 w3 w4 w x
  change Keeps _ _ v at h2
  have h4 : Keeps 0x100000000000000000000000000000000000000000000000000000000000000000000000000000000000000000000000000000000000000000000000000000000000000000000000000000000000000000000000000000000000F000001800FF10000000000000000000000000000000000000000000000000000000000000000000000000000000000000000000000000000000000000000000000000000000000000000000000000000000000000000000000000000000000000000000000000000000000000000000000000001000000000000000000000000000000000000000000000000000000000000000000000000000000000000000000000000000E0000000000000000000000000000000000000000000000000000000000000000000000000000000000000000000000000000000000000000000000000000000000000000000000000000000000000000000000000000000000000000000000000000000000000000000000000000000000000000000000000000000000000008FFFFFFFFFFFFFFFFFFFFFFFFFFFFFFFFFFFFFFFFFFFFFFFFFFFFFFFFFF7DFFF105EFFC04 s w := by
    apply Keeps.mk h2 <;> first | exact Or.inl (by decide) | exact Or.inr rfl
  clear_value w
  subst x
  simp (decide := true) (maxDischargeDepth := 200) only [↓State.putAll_keeps, ↓State.put_keeps, ↓State.twDefaults_keeps,
    ↓State.setBases_keeps, ↓State.showEdf_keeps, h4]

theorem State.coreStart_keeps (s : State) {μ : Nat} {σ : State} (hk : Keeps μ σ s) (hm : within?
    0x1000000000000000000000000000000000000000000000000000000000000000000000000000000000000000000000000000000C0 μ =
    true) : Keeps μ σ (State.coreStart s) := by
  refine hk.lift hm ?_
  unfold State.coreStart
  repeat' first
    | (extract_lets +onlyGivenNames u
       first
       | (refine Keeps.cut (u := u) ?_ (fun _ => ?_); subst u; on_goal 2 => clear_value u)
       | (have h := @id (_ → _) u; clear h; subst u)
       | clear_value u)
    | with_reducible assumption
    | (simp (decide := true) (maxDischargeDepth := 200) only [↓Keeps.refl, ↓Keeps.ite, ↓Keeps.mk, ↓State.put_keeps,
      ↓State.xoStart_keeps, or_true, true_or, eq_self, *]; done)
    | split

theorem State.bootEntry_keeps (s : State) (cause : Nat) (wait : Bool) {μ : Nat} {σ : State} (hk : Keeps μ σ s) (hm :
    within?
    0x40000000000000000000000000000000000000000000000000000000000000000100000000000000000000000000000001000000000000000000000000000000000000000000000000000000000000000000000000000000000000000000000000000001C0
    μ = true) : Keeps μ σ (State.bootEntry s cause wait) := by
  refine hk.lift hm ?_
  unfold State.bootEntry
  repeat' first
    | (extract_lets +onlyGivenNames u
       first
       | (refine Keeps.cut (u := u) ?_ (fun _ => ?_); subst u; on_goal 2 => clear_value u)
       | (have h := @id (_ → _) u; clear h; subst u)
       | clear_value u)
    | with_reducible assumption
    | (simp (decide := true) (maxDischargeDepth := 200) only [↓Keeps.refl, ↓Keeps.ite, ↓Keeps.mk, ↓State.put_keeps,
      ↓State.inc_keeps, ↓State.coreStart_keeps, or_true, true_or, eq_self, *]; done)
    | split

theorem State.coldReset_keeps (s : State) (cause : Nat) (straps : Bool) {μ : Nat} {σ : State} (hk : Keeps μ σ s) (hm :
    within?
    0x100000000000000000000000000000000000000000000000000000000000182C10000000000000000000000000000000200000000000000000000000000004080000000000000000000000000000040800000000000000000000F000001818FF100000000000000000000000000000600000000000000000000000000000000210000000000000000FFFFFFFF002007FD000000000000000001FFFFFF0001300300000000000000000000000000000001000000000000000000000000000000010000000000000000000000000001010900000000000000000000000000020000000000000000000000000000000000000000000000000000000000000000050E0000000000000000000000000000000000000000000000000000000000000000000000000000000000000000000000000000000000000000000000000000004000000000000000000000000000060001000000000000000000000000000003410000000000000000000000000000000100000000002000000602000000010088FFFFFFFFFFFFFFFFFFFFFFFFFFFFFFFFFFFFFFFFFFFFFFFFFFFFFFFFFF7DFFF117EFFDE7
    μ = true) : Keeps μ σ (State.coldReset s cause straps) := by
  refine hk.lift hm ?_
  unfold State.coldReset
  repeat' first
    | (extract_lets +onlyGivenNames u
       first
       | (refine Keeps.cut (u := u) ?_ (fun _ => ?_); subst u; on_goal 2 => clear_value u)
       | (have h := @id (_ → _) u; clear h; subst u)
       | clear_value u)
    | with_reducible assumption
    | (simp (decide := true) (maxDischargeDepth := 200) only [↓Keeps.noLatches, ↓Keeps.refl, ↓Keeps.ite, ↓Keeps.mk,
      ↓State.attnEnd_keeps, ↓State.probeCut_keeps, ↓State.endActivities_keeps, ↓State.resetRegs_keeps,
      ↓State.coreLost_keeps, ↓State.bootEntry_keeps, ↓State.chgState_keeps, or_true, true_or, eq_self, *]; done)
    | split

theorem State.systemReset_keeps (s : State) (cause : Nat) {μ : Nat} {σ : State} (hk : Keeps μ σ s) (hm : within?
    0x100000000000000000000000000000000000000000000000000000000000182C10000000000000000000000000000000200000000000000000000000000004080000000000000000000000000000040800000000000000000000F000001818FF100000000000000000000000000000600000000000000000000000000000000210000000000000000FFFFFFFF002007FD000000000000000001FFFFFF0001300300000000000000000000000000000001000000000000000000000000000000010000000000000000000000000001010900000000000000000000000000020000000000000000000000000000000000000000000000000000000000000000050E0000000000000000000000000000000000000000000000000000000000000000000000000000000000000000000000000000000000000000000000000000004000000000000000000000000000060001000000000000000000000000000003410000000000000000000000000000000100000000002000000602000000010088FFFFFFFFFFFFFFFFFFFFFFFFFFFFFFFFFFFFFFFFFFFFFFFFFFFFFFFFFF7DFFF117EFFDE7
    μ = true) : Keeps μ σ (State.systemReset s cause) := by
  refine hk.lift hm ?_
  unfold State.systemReset
  repeat' first
    | (extract_lets +onlyGivenNames u
       first
       | (refine Keeps.cut (u := u) ?_ (fun _ => ?_); subst u; on_goal 2 => clear_value u)
       | (have h := @id (_ → _) u; clear h; subst u)
       | clear_value u)
    | with_reducible assumption
    | (simp (decide := true) (maxDischargeDepth := 200) only [↓Keeps.refl, ↓Keeps.ite, ↓Keeps.mk,
      ↓State.coldReset_keeps, or_true, true_or, eq_self, *]; done)
    | split

theorem execSysWdog_keeps (s : State) : Ends (Keeps
    0x100100000000000000000000000000000000000000000000000000000000000182C10000000000000000000000000000000200000000000000000000000000004080000000000000000000000000000040800000000000000000000F000001818FF100000000000000000000000000000600000000000000000000000000000000210000000000000000FFFFFFFF002007FD000000000000000001FFFFFF0001300300000000000000000000000000000001000000000000000000000000000000010000000000000000000000000001010900000000000000000000000000020000000000000000000000000000000000000000000000000000000000000000050E0000000000000000000000000000000000000000000000000000000000000000000000000000000000000000000000000000000000000000000000000000004000000000000000000000000000060001000000000000000000000000000003410000000000000000000000000000000100000000002000000602000000010088FFFFFFFFFFFFFFFFFFFFFFFFFFFFFFFFFFFFFFFFFFFFFFFFFFFFFFFFFF7DFFF117EFFDE7
    s) (execSysWdog s) := by
  unfold execSysWdog
  refine Ends.next ?_
  repeat' first
    | (extract_lets +onlyGivenNames u
       first
       | (refine Keeps.cut (u := u) ?_ (fun _ => ?_); subst u; on_goal 2 => clear_value u)
       | (have h := @id (_ → _) u; clear h; subst u)
       | clear_value u)
    | with_reducible assumption
    | (simp (decide := true) (maxDischargeDepth := 200) only [↓Keeps.next, ↓Keeps.endsIte, ↓Keeps.refl, ↓Keeps.ite,
      ↓Keeps.mk, ↓State.systemReset_keeps, ↓State.inc_keeps, or_true, true_or, eq_self, *]; done)
    | split

theorem State.burrowLost_keeps (s : State) {μ : Nat} {σ : State} (hk : Keeps μ σ s) (hm : within?
    0x3900000000000000000000000000000000000000000000000000000000000000000000000000000000000000000000000000000000000000000000000000000000000000000000000000000000000000000000000000000000000000000000000000000000000000000000000000000000000000000000000000000000000000000000000000000000000000000000000000000000000000000000000000000000000000000000000000000000000000000000000000000000000000000000000000000000000000000000000000000000000000000000000000000000000000000000000000000000000000000000000000000000000000000000000000000000000000000000000000000000000000000000000000000000000000000000000000000000000000000000000000000000000000000000000000000000000000000000000000000000000000000000000C00000000000000000000000000000000000000000000000000000000000000000000000000000000000000000000000000000000000000000000000000000000000000000000000000000000000000000006000044
    μ = true) : Keeps μ σ (State.burrowLost s) := by
  refine hk.lift hm ?_
  unfold State.burrowLost
  repeat' first
    | (extract_lets +onlyGivenNames u
       first
       | (refine Keeps.cut (u := u) ?_ (fun _ => ?_); subst u; on_goal 2 => clear_value u)
       | (have h := @id (_ → _) u; clear h; subst u)
       | clear_value u)
    | with_reducible assumption
    | (simp (decide := true) (maxDischargeDepth := 200) only [↓Keeps.refl, ↓Keeps.ite, ↓Keeps.mk,
      ↓State.dropMem_keeps, ↓State.put32_keeps, ↓State.put_keeps, or_true, true_or, eq_self, *]; done)
    | split

theorem State.powerLost_keeps (s : State) (burrow : Bool) {μ : Nat} {σ : State} (hk : Keeps μ σ s)
    (hm : within? 0x390100000000000000000000000000000001000000000000000000000000000000000000000000000000000000000000000000000000000000000000000000000000000000000000000000000000000000000000000000000000000F000001800FF1000000000000000000000000000000010000000000000000000000000000000000000000000000000000000000000000000000000000000000000000000000000000000000000000000000000000000000000000000000000000000000000000000000000000000000000000000100000000000000000000000000000000000000000000000000000000000000000000000000000000000000000000000000000000000000000000000000000000000000000000000000000000000000000000000000000000000000000000000000000000000000000000000000000000000000000000000000000000000000050C00000000000000000000000000000000000000000000000000000000000000000000000000000000000000000000000000FFFFFFFFFFFFFFFFFFFFFFFFFFFFFFFFFFFFFFFFFFFFFFFFFFFFFFFFFFFFFFFF1FFFFFFF μ = true) : Keeps μ σ (s.powerLost burrow) := by
  refine hk.lift hm ?_
  have hp : ∀ k, regIn 0x390100000000000000000000000000000001000000000000000000000000000000000000000000000000000000000000000000000000000000000000000000000000000000000000000000000000000000000000000000000000000F000001800FF1000000000000000000000000000000010000000000000000000000000000000000000000000000000000000000000000000000000000000000000000000000000000000000000000000000000000000000000000000000000000000000000000000000000000000000000000000100000000000000000000000000000000000000000000000000000000000000000000000000000000000000000000000000000000000000000000000000000000000000000000000000000000000000000000000000000000000000000000000000000000000000000000000000000000000000000000000000000000000000050C00000000000000000000000000000000000000000000000000000000000000000000000000000000000000000000000000FFFFFFFFFFFFFFFFFFFFFFFFFFFFFFFFFFFFFFFFFFFFFFFFFFFFFFFFFFFFFFFF1FFFFFFF k = true := fun k => by
    have h0 : keyPage k < 256 := by unfold keyPage; split <;> omega
    have h1 : ∀ p, p < 256 → Nat.testBit 0x390100000000000000000000000000000001000000000000000000000000000000000000000000000000000000000000000000000000000000000000000000000000000000000000000000000000000000000000000000000000000F000001800FF1000000000000000000000000000000010000000000000000000000000000000000000000000000000000000000000000000000000000000000000000000000000000000000000000000000000000000000000000000000000000000000000000000000000000000000000000000100000000000000000000000000000000000000000000000000000000000000000000000000000000000000000000000000000000000000000000000000000000000000000000000000000000000000000000000000000000000000000000000000000000000000000000000000000000000000000000000000000000000000050C00000000000000000000000000000000000000000000000000000000000000000000000000000000000000000000000000FFFFFFFFFFFFFFFFFFFFFFFFFFFFFFFFFFFFFFFFFFFFFFFFFFFFFFFFFFFFFFFF1FFFFFFF (32 + p) = true := by decide +kernel
    exact regIn_page rfl (h1 _ h0)
  unfold State.powerLost
  extract_lets x32 xo a0 a1 a2 a3 a4 a5 a6 a7 a8 r r1 r2 r3
  have h : Keeps 0x390100000000000000000000000000000001000000000000000000000000000000000000000000000000000000000000000000000000000000000000000000000000000000000000000000000000000000000000000000000000000F000001800FF1000000000000000000000000000000010000000000000000000000000000000000000000000000000000000000000000000000000000000000000000000000000000000000000000000000000000000000000000000000000000000000000000000000000000000000000000000100000000000000000000000000000000000000000000000000000000000000000000000000000000000000000000000000000000000000000000000000000000000000000000000000000000000000000000000000000000000000000000000000000000000000000000000000000000000000000000000000000000000000050C00000000000000000000000000000000000000000000000000000000000000000000000000000000000000000000000000FFFFFFFFFFFFFFFFFFFFFFFFFFFFFFFFFFFFFFFFFFFFFFFFFFFFFFFFFFFFFFFF1FFFFFFF s r := by
    refine ⟨fun hc => ⟨?_, rfl, rfl, ?_⟩, rfl, rfl, fun k hk => absurd (hp k) (by simp [hk]), fun a ha => ?_⟩
    · show Sparse.wf resetWord (Sparse.drop (fun k => !ownStore k && !modelStore k && !within LEDGER_L.w LEDGER_H.w k) s.regs) = true
      exact Sparse.wf_drop _ _ hc.1
    · show Sparse.wf memDefault (Sparse.drop (fun a => !isFlash a && !isBurrow a) s.mem) = true
      exact Sparse.wf_drop _ _ hc.2.2.2
    cases a
    case page => exact trivial
    case reg => exact trivial
    case hostOut => rfl
    case openValues => rfl
    all_goals exact absurd ha (by decide)
  clear_value r
  clear a0 a1 a2 a3 a4 a5 a6 a7 a8
  subst r3 r2 r1
  simp (decide := true) (maxDischargeDepth := 200) only [↓State.putBit_keeps, ↓State.put_keeps, ↓State.burrowLost_keeps,
    ↓State.setBases_keeps, ↓State.showEdf_keeps, ↓Keeps.ite, h]

theorem execPowerOnReset_keeps (vbatMin : Nat) (s : State) : Ends (Keeps
    0x390100000000000000000000000000000001000000000000000000000000000000000000000000000000000000000000000000000000000000000000000000000000000000000000000000000000000000000000000000000000000F000001800FF1000000000000000000000000000000010000000000000000000000000000000000000000000000000000000000000000000000000000000000000000000000000000000000000000000000000000000000000000000000000000000000000000000000000000000000000000000100000000000000000000000000000000000000000000000000000000000000000000000000000000000000000000000000000000000000000000000000000000000000000000000000000000000000000000000000000000000000000000000000000000000000000000000000000000000000000000000000000000000000050C00000000000000000000000000000000000000000000000000000000000000000000000000000000000000000000000000FFFFFFFFFFFFFFFFFFFFFFFFFFFFFFFFFFFFFFFFFFFFFFFFFFFFFFFFFFFFFFFF1FFFFFFF
    s) (execPowerOnReset vbatMin s) := by
  unfold execPowerOnReset
  refine Ends.next ?_
  repeat' first
    | (extract_lets +onlyGivenNames u
       first
       | (refine Keeps.cut (u := u) ?_ (fun _ => ?_); subst u; on_goal 2 => clear_value u)
       | (have h := @id (_ → _) u; clear h; subst u)
       | clear_value u)
    | with_reducible assumption
    | (simp (decide := true) (maxDischargeDepth := 200) only [↓Keeps.next, ↓Keeps.endsIte, ↓Keeps.refl, ↓Keeps.ite,
      ↓Keeps.mk, ↓State.powerLost_keeps, or_true, true_or, eq_self, *]; done)
    | split

theorem State.powerUp_keeps (s : State) {μ : Nat} {σ : State} (hk : Keeps μ σ s) (hm : within?
    0x40000000000000000000000000000000010000000000000000000000000000000100000000000000000000000000000001000000000000000000000000000000000000000000000000000000000000000000000000000000000000000000000000000001E0
    μ = true) : Keeps μ σ (State.powerUp s) := by
  refine hk.lift hm ?_
  unfold State.powerUp
  repeat' first
    | (extract_lets +onlyGivenNames u
       first
       | (refine Keeps.cut (u := u) ?_ (fun _ => ?_); subst u; on_goal 2 => clear_value u)
       | (have h := @id (_ → _) u; clear h; subst u)
       | clear_value u)
    | with_reducible assumption
    | (simp (decide := true) (maxDischargeDepth := 200) only [↓Keeps.refl, ↓Keeps.ite, ↓Keeps.mk,
      ↓State.chgState_keeps, ↓State.bootEntry_keeps, or_true, true_or, eq_self, *]; done)
    | split

theorem State.pinReset_keeps (s : State) {μ : Nat} {σ : State} (hk : Keeps μ σ s) (hm : within?
    0x100000000000000000000000000000000000000000000000000000000000182C10000000000000000000000000000000200000000000000000000000000004080000000000000000000000000000040800000000000000000000F000001818FF100000000000000000000000000000600000000000000000000000000000000210000000000000000FFFFFFFF002007FD000000000000000001FFFFFF0001300300000000000000000000000000000001000000000000000000000000000000010000000000000000000000000001010900000000000000000000000000020000000000000000000000000000000000000000000000000000000000000000050E0000000000000000000000000000000000000000000000000000000000000000000000000000000000000000000000000000000000000000000000000000004000000000000000000000000000060001000000000000000000000000000003410000000000000000000000000000000100000000002000000602000000010088FFFFFFFFFFFFFFFFFFFFFFFFFFFFFFFFFFFFFFFFFFFFFFFFFFFFFFFFFF7DFFF117EFFDE7
    μ = true) : Keeps μ σ (State.pinReset s) := by
  refine hk.lift hm ?_
  unfold State.pinReset
  repeat' first
    | (extract_lets +onlyGivenNames u
       first
       | (refine Keeps.cut (u := u) ?_ (fun _ => ?_); subst u; on_goal 2 => clear_value u)
       | (have h := @id (_ → _) u; clear h; subst u)
       | clear_value u)
    | with_reducible assumption
    | (simp (decide := true) (maxDischargeDepth := 200) only [↓Keeps.refl, ↓Keeps.ite, ↓Keeps.mk,
      ↓State.powerUp_keeps, ↓State.coldReset_keeps, or_true, true_or, eq_self, *]; done)
    | split

theorem execPinReset_keeps (lowUs : Nat) (s : State) : Ends (Keeps
    0x100000000000000000000000000000000000000000000000000000000000182C10000000000000000000000000000000200000000000000000000000000004080000000000000000000000000000040800000000000000000000F000001818FF100000000000000000000000000000600000000000000000000000000000000210000000000000000FFFFFFFF002007FD000000000000000001FFFFFF0001300300000000000000000000000000000001000000000000000000000000000000010000000000000000000000000001010900000000000000000000000000020000000000000000000000000000000000000000000000000000000000000000050E0000000000000000000000000000000000000000000000000000000000000000000000000000000000000000000000000000000000000000000000000000004000000000000000000000000000060001000000000000000000000000000003410000000000000000000000000000000100000000002000000602000000010088FFFFFFFFFFFFFFFFFFFFFFFFFFFFFFFFFFFFFFFFFFFFFFFFFFFFFFFFFF7DFFF117EFFDE7
    s) (execPinReset lowUs s) := by
  unfold execPinReset
  refine Ends.next ?_
  repeat' first
    | (extract_lets +onlyGivenNames u
       first
       | (refine Keeps.cut (u := u) ?_ (fun _ => ?_); subst u; on_goal 2 => clear_value u)
       | (have h := @id (_ → _) u; clear h; subst u)
       | clear_value u)
    | with_reducible assumption
    | (simp (decide := true) (maxDischargeDepth := 200) only [↓Keeps.next, ↓Keeps.endsIte, ↓Keeps.refl, ↓Keeps.ite,
      ↓Keeps.mk, ↓State.pinReset_keeps, ↓State.fresh_snd, or_true, true_or, eq_self, *]; done)
    | (split <;>
        (rename_i e
         refine Keeps.cut (State.fresh_out (by with_reducible exact e) ?_ (by decide)) (fun _ => ?_) <;> clear e))
    | (with_reducible refine State.pinReset_keeps _ ?_ (by decide))
    | (with_reducible refine State.fresh_snd _ ?_ (by decide))
    | split

theorem execPowerOnResetRelease_keeps (s : State) : Ends (Keeps
    0x40000000000000000000000000000000010000000000000000000000000000000100000000000000000000000000000001000000000000000000000000000000000000000000000000000000000000000000000000000000000000000000000000000001E0
    s) (execPowerOnResetRelease s) := by
  unfold execPowerOnResetRelease
  refine Ends.next ?_
  repeat' first
    | (extract_lets +onlyGivenNames u
       first
       | (refine Keeps.cut (u := u) ?_ (fun _ => ?_); subst u; on_goal 2 => clear_value u)
       | (have h := @id (_ → _) u; clear h; subst u)
       | clear_value u)
    | with_reducible assumption
    | (simp (decide := true) (maxDischargeDepth := 200) only [↓Keeps.next, ↓Keeps.endsIte, ↓Keeps.refl, ↓Keeps.ite,
      ↓Keeps.mk, ↓State.powerUp_keeps, or_true, true_or, eq_self, *]; done)
    | split

theorem execStrapSample_keeps (role test : Bool) (s : State) : Ends (Keeps
    0xE0000000000000000000000000000000000000000000000000000000000000000000000000000000000000000000000000000000000000000000000000000000000000000000000000000000000000000000000000000000000000000000000000000000000000000000000000000000000000000000000000000000000000001000000000000000000000000000000000000000000000000000000000000000000000120
    s) (execStrapSample role test s) := by
  unfold execStrapSample
  refine Ends.next ?_
  repeat' first
    | (extract_lets +onlyGivenNames u
       first
       | (refine Keeps.cut (u := u) ?_ (fun _ => ?_); subst u; on_goal 2 => clear_value u)
       | (have h := @id (_ → _) u; clear h; subst u)
       | clear_value u)
    | with_reducible assumption
    | (simp (decide := true) (maxDischargeDepth := 200) only [↓Keeps.next, ↓Keeps.endsIte, ↓Keeps.refl, ↓Keeps.ite,
      ↓Keeps.mk, ↓State.twDefaults_keeps, ↓State.putAll_keeps, regIn_on, or_true, true_or, eq_self, *]; done)
    | split

theorem State.barPort_keeps (s : State) (p : AudioPort) {μ : Nat} {σ : State} (hk : Keeps μ σ s) (hm : within?
    0x2000000000000000000000000000000800000000000000000000000000000008000000000000000000000000000000000000000000000000000000000000000000000000000000000000000000000000000000000000000000000000000000000000000000000000000000000000000000000000000000000000000000000000000000000000000000000000000000000000000000000000000000000000000000000000000000000000000000000000000000000000000000000000000000000000000000000000000000000000000000000000000000000000000000000000000000000000000000000000000000000000000000000000000000000000000000000000000000000000000000000000000000000000000000000000000000000000000000000000000000000000000400000000000000000000000000000000000000000002000000000000000010000000000000000000000000000000000000000000000000000000000000000000000402081
    μ = true) : Keeps μ σ (State.barPort s p) := by
  refine hk.lift hm ?_
  unfold State.barPort
  cases p
  all_goals
    repeat' first
      | (extract_lets +onlyGivenNames u
         first
         | (refine Keeps.cut (u := u) ?_ (fun _ => ?_); subst u; on_goal 2 => clear_value u)
         | (have h := @id (_ → _) u; clear h; subst u)
         | clear_value u)
      | with_reducible assumption
      | (simp (decide := true) (maxDischargeDepth := 200) only [↓Keeps.refl, ↓Keeps.ite, ↓Keeps.mk,
        ↓State.stopPort_keeps, ↓State.setPort_keeps, or_true, true_or, eq_self, *]; done)
      | split

theorem execVddioReturn_keeps (s : State) : Ends (Keeps
    0x4000000000000000000000000000000000000000000000000000000000000200000000000000000000000000000000000000000000000000000000000000000000000020A1
    s) (execVddioReturn s) := by
  unfold execVddioReturn
  refine Ends.next ?_
  repeat' first
    | (extract_lets +onlyGivenNames u
       first
       | (refine Keeps.cut (u := u) ?_ (fun _ => ?_); subst u; on_goal 2 => clear_value u)
       | (have h := @id (_ → _) u; clear h; subst u)
       | clear_value u)
    | with_reducible assumption
    | (simp (decide := true) (maxDischargeDepth := 200) only [↓Keeps.next, ↓Keeps.endsIte, ↓Keeps.refl, ↓Keeps.ite,
      ↓Keeps.mk, ↓State.raise1_keeps, or_true, true_or, eq_self, *]; done)
    | split

end Sys2Proof.Machine
end

