-- ==== Sys2Proof/Laws/KeepsSecure.lean ====
section
/-! SUPPORT. What each operation of Machine/Secure.lean may change, and that it keeps the canonical form. -/

set_option Elab.async false

set_option linter.unusedSimpArgs false
set_option linter.unusedTactic false
set_option linter.unreachableTactic false

namespace Sys2Proof.Machine

open R

theorem State.loadTable_keeps (s : State) (base : Nat) {μ : Nat} {σ : State} (hk : Keeps μ σ s) (hm : within? 0x100 μ
    = true) : Keeps μ σ (State.loadTable s base) := by
  refine hk.lift hm ?_
  unfold State.loadTable
  repeat' first
    | (extract_lets +onlyGivenNames u
       first
       | (refine Keeps.cut (u := u) ?_ (fun _ => ?_); subst u; on_goal 2 => clear_value u)
       | (have h := @id (_ → _) u; clear h; subst u)
       | clear_value u)
    | with_reducible assumption
    | (simp (decide := true) (maxDischargeDepth := 200) only [↓Keeps.refl, ↓Keeps.ite, ↓Keeps.mk, or_true, true_or,
      eq_self, *]; done)
    | split

theorem State.showVersion_keeps (s : State) (ver base : Nat) {μ : Nat} {σ : State} (hk : Keeps μ σ s)
    (h0 : regIn μ ver = true) (h1 : regIn μ (ver + 1) = true) (h2 : regIn μ (ver + 2) = true)
    (h3 : regIn μ (ver + 3) = true) : Keeps μ σ (s.showVersion ver base) :=
  (((hk.setReg h0).setReg h1).setReg h2).setReg h3

theorem State.showSlot_keeps (s : State) (slot st fault : Nat) {μ : Nat} {σ : State} (hk : Keeps μ σ s)
    (hm : within? 0x1F1F00000000000000000000000000000000000000000000000000000000000000000000000000000000000000000000000000000000000000000000000000000000000000000000000000000000000000000000000000000000000000000000000000000000000000000000000000000000000000000000000000000000000000000000000000 μ = true) : Keeps μ σ (s.showSlot slot st fault) := by
  refine hk.lift hm ?_
  unfold State.showSlot
  dsimp only
  by_cases h : slot = 0 <;> simp only [h, if_true, if_false]
  all_goals
    refine Keeps.ite ?_ ?_
    · refine State.showVersion_keeps _ _ _ (Keeps.refl.setReg ?_) ?_ ?_ ?_ ?_ <;> decide
    · refine State.zeroRegs_keeps _ _ _ (Keeps.refl.setReg ?_) ?_ <;> decide

theorem State.setFault_keeps (s : State) (slot code : Nat) {μ : Nat} {σ : State} (hk : Keeps μ σ s) (hm : within?
    0x200000000000000000000000000000000000000000000000000000000000000000000000000000000000000000000000000000000000000000000000000000000000000000000000000000000000000000000000000000000000000000000000000000000
    μ = true) : Keeps μ σ (State.setFault s slot code) := by
  refine hk.lift hm ?_
  unfold State.setFault
  repeat' first
    | (extract_lets +onlyGivenNames u
       first
       | (refine Keeps.cut (u := u) ?_ (fun _ => ?_); subst u; on_goal 2 => clear_value u)
       | (have h := @id (_ → _) u; clear h; subst u)
       | clear_value u)
    | with_reducible assumption
    | (simp (decide := true) (maxDischargeDepth := 200) only [↓Keeps.refl, ↓Keeps.ite, ↓Keeps.mk, ↓State.put_keeps,
      or_true, true_or, eq_self, *]; done)
    | split

theorem State.tryOrder_keeps (s : State) (l : List (Nat × Bool)) {μ : Nat} {σ : State} (hk : Keeps μ σ s)
    (hm : within? 0x200000000000000000000000000000000000000000000000000000000000000000000000000000000000000000000000000000000000000000000000000000000000000000000000000000000000000000000000000000000000000000000000000000100 μ = true) : Keeps μ σ (s.tryOrder l) := by
  induction l generalizing s with
  | nil => exact hk.lift hm (by simp (decide := true) only [↓State.tryOrder, ↓Keeps.mk, ↓Keeps.refl, or_true, true_or, eq_self])
  | cons e l ih =>
    unfold State.tryOrder
    refine Keeps.ite (ih _ hk) (Keeps.ite (ih _ (hk.lift hm (State.setFault_keeps _ _ _ .refl (by decide)))) ?_)
    exact hk.lift hm (by simp (decide := true) only [↓Keeps.mk, ↓Keeps.refl, or_true, true_or, eq_self])

theorem State.flashChannel_keeps (s : State) (pref : Nat) {μ : Nat} {σ : State} (hk : Keeps μ σ s) (hm : within?
    0x2200000000000000000000000000000000000000000000000000000000000000000000000000000000000000000000000000000000000000000000000000000000000000000000000000000000000000000000000000000000000000000000000000000100
    μ = true) : Keeps μ σ (State.flashChannel s pref) := by
  refine hk.lift hm ?_
  unfold State.flashChannel
  repeat' first
    | (extract_lets +onlyGivenNames u
       first
       | (refine Keeps.cut (u := u) ?_ (fun _ => ?_); subst u; on_goal 2 => clear_value u)
       | (have h := @id (_ → _) u; clear h; subst u)
       | clear_value u)
    | with_reducible assumption
    | (simp (decide := true) (maxDischargeDepth := 200) only [↓Keeps.refl, ↓Keeps.ite, ↓Keeps.mk, ↓State.put_keeps,
      ↓State.tryOrder_keeps, or_true, true_or, eq_self, *]; done)
    | split

theorem State.holdMarten_keeps (s : State) {μ : Nat} {σ : State} (hk : Keeps μ σ s) (hm : within?
    0x100000000000000000000000000000001000000000000000000000000000000090000000000000000000000000000000000000000000000000000000000000000000000000000000000000000000000000000000000000000000000000000000000000000000000000000000000000000000000000000000000000000000000000000000000000000000000000000000100000000000000000000000000000000000000000000000000000000000000010000000000000000000000000000000100000000000000000000000000000000000000000000000000000000000000000000000000000000000000000000000004010100
    μ = true) : Keeps μ σ (State.holdMarten s) := by
  refine hk.lift hm ?_
  unfold State.holdMarten
  repeat' first
    | (extract_lets +onlyGivenNames u
       first
       | (refine Keeps.cut (u := u) ?_ (fun _ => ?_); subst u; on_goal 2 => clear_value u)
       | (have h := @id (_ → _) u; clear h; subst u)
       | clear_value u)
    | with_reducible assumption
    | (simp (decide := true) (maxDischargeDepth := 200) only [↓Keeps.refl, ↓Keeps.ite, ↓Keeps.mk,
      ↓State.showMaintain_keeps, ↓State.dropCal_keeps, ↓State.put_keeps, or_true, true_or, eq_self, *]; done)
    | split

theorem State.failAttempt_keeps (s : State) (slot code : Nat) {μ : Nat} {σ : State} (hk : Keeps μ σ s) (hm : within?
    0x100000000000000000000000000000001000000000000000000000000000000090000000000000000000000000000000000000000000000000000000000000000000000000000000000000000000000000000000000000000000000000000000000000000000000000000000000000000000000000000000000000000000000000000000000000000000000000000000300000000000000000000000000000000000000000000000000000000000000010000000000000000000000000000000100000000000000000000000000000000000000000000000000000000000000000000000000000000000000000000000004010100
    μ = true) : Keeps μ σ (State.failAttempt s slot code) := by
  refine hk.lift hm ?_
  unfold State.failAttempt
  repeat' first
    | (extract_lets +onlyGivenNames u
       first
       | (refine Keeps.cut (u := u) ?_ (fun _ => ?_); subst u; on_goal 2 => clear_value u)
       | (have h := @id (_ → _) u; clear h; subst u)
       | clear_value u)
    | with_reducible assumption
    | (simp (decide := true) (maxDischargeDepth := 200) only [↓Keeps.refl, ↓Keeps.ite, ↓Keeps.mk,
      ↓State.holdMarten_keeps, ↓State.setFault_keeps, ↓State.tryOrder_keeps, or_true, true_or, eq_self, *]; done)
    | split

theorem State.pikaGone_keeps (s : State) {μ : Nat} {σ : State} (hk : Keeps μ σ s) (hm : within?
    0x100000000000000000000000000000000000000000000000000000000000000000000000000000000000000000000000000000000000000000000000000000000000000000000000000000000000000000000000000000000000000000000000000000100
    μ = true) : Keeps μ σ (State.pikaGone s) := by
  refine hk.lift hm ?_
  unfold State.pikaGone
  repeat' first
    | (extract_lets +onlyGivenNames u
       first
       | (refine Keeps.cut (u := u) ?_ (fun _ => ?_); subst u; on_goal 2 => clear_value u)
       | (have h := @id (_ → _) u; clear h; subst u)
       | clear_value u)
    | with_reducible assumption
    | (simp (decide := true) (maxDischargeDepth := 200) only [↓Keeps.refl, ↓Keeps.ite, ↓Keeps.mk, ↓State.put_keeps,
      or_true, true_or, eq_self, *]; done)
    | split

theorem State.pikaStart_keeps (s : State) (base : Nat) {μ : Nat} {σ : State} (hk : Keeps μ σ s) (hm : within?
    0x10000000000000000000000000000000000000000000000000000000000000000100000000000000000000000000000000000000000000000000000000000000000000000000000000000000000000000000000000000000000000000000000000000000000000000000000000000000000000000000000000000000000000000000000100
    μ = true) : Keeps μ σ (State.pikaStart s base) := by
  refine hk.lift hm ?_
  unfold State.pikaStart
  repeat' first
    | (extract_lets +onlyGivenNames u
       first
       | (refine Keeps.cut (u := u) ?_ (fun _ => ?_); subst u; on_goal 2 => clear_value u)
       | (have h := @id (_ → _) u; clear h; subst u)
       | clear_value u)
    | with_reducible assumption
    | (simp (decide := true) (maxDischargeDepth := 200) only [↓Keeps.refl, ↓Keeps.ite, ↓Keeps.mk,
      ↓State.pikaGone_keeps, ↓State.put_keeps, or_true, true_or, eq_self, *]; done)
    | split

theorem State.martenLoaded_keeps (s : State) (slot : Nat) (trusted : Bool) {μ : Nat} {σ : State} (hk : Keeps μ σ s)
    (hm : within?
    0x10000000000000000000000000000000000000000000000000000000000000000300000000000000000000000000000000000000000000000000000000000000000000000000000000000000000000000000000000000000000000000000000000000000000000000000000000000000000000000000000000000000000000000000000100
    μ = true) : Keeps μ σ (State.martenLoaded s slot trusted) := by
  refine hk.lift hm ?_
  unfold State.martenLoaded
  repeat' first
    | (extract_lets +onlyGivenNames u
       first
       | (refine Keeps.cut (u := u) ?_ (fun _ => ?_); subst u; on_goal 2 => clear_value u)
       | (have h := @id (_ → _) u; clear h; subst u)
       | clear_value u)
    | with_reducible assumption
    | (simp (decide := true) (maxDischargeDepth := 200) only [↓Keeps.refl, ↓Keeps.ite, ↓Keeps.mk, ↓State.put_keeps,
      ↓State.setFault_keeps, ↓State.pikaStart_keeps, or_true, true_or, eq_self, *]; done)
    | split

theorem State.compare_keeps (s : State) {μ : Nat} {σ : State} (hk : Keeps μ σ s) (hm : within?
    0x100000000000000000000000000000001000000000000000000000000000000090000000000000000000000000000000000000000000000000000000000000000000000000000000000000000000000000000000000000000000000000000000000000000000000000000000000000010000000000000000000000000000000000000000000000000000000000000002300000000000000000000000000000000000000000000000000000000000000010000000000000000000000000000000100000000000000000000000000000000000000000000000000000000000000000000000000000000000000000000000004010100
    μ = true) : Keeps μ σ (State.compare s) := by
  refine hk.lift hm ?_
  unfold State.compare
  repeat' first
    | (extract_lets +onlyGivenNames u
       first
       | (refine Keeps.cut (u := u) ?_ (fun _ => ?_); subst u; on_goal 2 => clear_value u)
       | (have h := @id (_ → _) u; clear h; subst u)
       | clear_value u)
    | with_reducible assumption
    | (simp (decide := true) (maxDischargeDepth := 200) only [↓Keeps.refl, ↓Keeps.ite, ↓Keeps.mk,
      ↓State.pikaGone_keeps, ↓State.failAttempt_keeps, ↓State.put_keeps, ↓State.martenLoaded_keeps, or_true, true_or,
      eq_self, *]; done)
    | split

theorem execImageBlockArrives_keeps (idx : Nat) (s : State) : Ends (Keeps
    0x100000000000000000000000000000001000000000000000000000000000000090000000000000000000000000000000000000000000000000000000000000000000000000000000000000000000000000000000000000000000000000000000000000000000000000000000000000010000000000000000000000000000000000000000000000000000000000000002300000000000000000000000000000000000000000000000000000000000000010000000000000000000000000000000100000000000000000000000000000000000000000000000000000000000000000000000000000000000000000000000004010100
    s) (execImageBlockArrives idx s) := by
  unfold execImageBlockArrives
  refine Ends.next ?_
  repeat' first
    | (extract_lets +onlyGivenNames u
       first
       | (refine Keeps.cut (u := u) ?_ (fun _ => ?_); subst u; on_goal 2 => clear_value u)
       | (have h := @id (_ → _) u; clear h; subst u)
       | clear_value u)
    | with_reducible assumption
    | (simp (decide := true) (maxDischargeDepth := 200) only [↓Keeps.next, ↓Keeps.endsIte, ↓Keeps.refl, ↓Keeps.ite,
      ↓Keeps.mk, ↓State.compare_keeps, or_true, true_or, eq_self, *]; done)
    | split

theorem execSignatureCheckDone_keeps (s : State) : Ends (Keeps
    0x100000000000000000000000000000001000000000000000000000000000000090000000000000000000000000000000000000000000000000000000000000000000000000000000000000000000000000000000000000000000000000000000000000000000000000000000000000010000000000000000000000000000000000000000000000000000000000000002300000000000000000000000000000000000000000000000000000000000000010000000000000000000000000000000100000000000000000000000000000000000000000000000000000000000000000000000000000000000000000000000004010100
    s) (execSignatureCheckDone s) := by
  unfold execSignatureCheckDone
  refine Ends.next ?_
  repeat' first
    | (extract_lets +onlyGivenNames u
       first
       | (refine Keeps.cut (u := u) ?_ (fun _ => ?_); subst u; on_goal 2 => clear_value u)
       | (have h := @id (_ → _) u; clear h; subst u)
       | clear_value u)
    | with_reducible assumption
    | (simp (decide := true) (maxDischargeDepth := 200) only [↓Keeps.next, ↓Keeps.endsIte, ↓Keeps.refl, ↓Keeps.ite,
      ↓Keeps.mk, ↓State.compare_keeps, ↓State.pikaGone_keeps, ↓State.failAttempt_keeps, or_true, true_or, eq_self,
      *]; done)
    | split

theorem execQspiTimeout_keeps (s : State) : Ends (Keeps
    0x100000000000000000000000000000001000000000000000000000000000000090000000000000000000000000000000000000000000000000000000000000000000000000000000000000000000000000000000000000000000000000000000000000000000000000000000000000000000000000000000000000000000000000000000000000000000000000000000300000000000000000000000000000000000000000000000000000000000000010000000000000000000000000000000100000000000000000000000000000000000000000000000000000000000000000000000000000000000000000000000004010100
    s) (execQspiTimeout s) := by
  unfold execQspiTimeout
  refine Ends.next ?_
  repeat' first
    | (extract_lets +onlyGivenNames u
       first
       | (refine Keeps.cut (u := u) ?_ (fun _ => ?_); subst u; on_goal 2 => clear_value u)
       | (have h := @id (_ → _) u; clear h; subst u)
       | clear_value u)
    | with_reducible assumption
    | (simp (decide := true) (maxDischargeDepth := 200) only [↓Keeps.next, ↓Keeps.endsIte, ↓Keeps.refl, ↓Keeps.ite,
      ↓Keeps.mk, ↓State.pikaGone_keeps, ↓State.noteFlash_keeps, ↓State.failAttempt_keeps, or_true, true_or, eq_self,
      *]; done)
    | split

theorem State.showCalRec_keeps (s : State) {μ : Nat} {σ : State} (hk : Keeps μ σ s) (hm : within?
    0x1900000000000000000000000000000000000000000000000000000000000000000000000000000000000000000000000000000000000000000000000000000000000000000000000000000000000000000000000000000000000000000000000000000000000000000000000000000000000000000000000000000000000000000000000000000000000000000000000000000000000000000000000000000000000000000000000000000000000000000000000000000000000000000000000000000000000000000000000000000000000000000000000000000000000000000000000000000000000000000000000000000000
    μ = true) : Keeps μ σ (State.showCalRec s) := by
  refine hk.lift hm ?_
  unfold State.showCalRec
  repeat' first
    | (extract_lets +onlyGivenNames u
       first
       | (refine Keeps.cut (u := u) ?_ (fun _ => ?_); subst u; on_goal 2 => clear_value u)
       | (have h := @id (_ → _) u; clear h; subst u)
       | clear_value u)
    | with_reducible assumption
    | (simp (decide := true) (maxDischargeDepth := 200) only [↓Keeps.refl, ↓Keeps.ite, ↓Keeps.mk,
      ↓State.showCalAge_keeps, ↓State.put_keeps, or_true, true_or, eq_self, *]; done)
    | split

theorem State.closeBootWindow_keeps (s : State) {μ : Nat} {σ : State} (hk : Keeps μ σ s) (hm : within?
    0x20000000000000000000000000000000000000000000000000000000000000000000000000000000000000000000000000000000000000000000000000000000000000000000000000000000000000000000000000000000000000000000000000000000000000000000000000000000000000000000000000000000000000000000000000000404
    μ = true) : Keeps μ σ (State.closeBootWindow s) := by
  refine hk.lift hm ?_
  unfold State.closeBootWindow
  repeat' first
    | (extract_lets +onlyGivenNames u
       first
       | (refine Keeps.cut (u := u) ?_ (fun _ => ?_); subst u; on_goal 2 => clear_value u)
       | (have h := @id (_ → _) u; clear h; subst u)
       | clear_value u)
    | with_reducible assumption
    | (simp (decide := true) (maxDischargeDepth := 200) only [↓Keeps.refl, ↓Keeps.ite, ↓Keeps.mk,
      ↓State.dropMem_keeps, ↓State.put_keeps, or_true, true_or, eq_self, *]; done)
    | split

theorem execMartenRelease_keeps (s : State) : Ends (Keeps
    0x190000000000000000000000000000000000000000000000000000000000000001000000000000000000000000000000000000000000000000000000000000000000000000000000000000000000000000000000000000000000000000000000000000000000000000000000002000001F000000000000000000000000000000000000000000000000000000000000000500000000000000000000000000000000000000000000000000000000000000010000000000000000000000000000000100000000000000000000000000000000000000000000000000000000000000000000000000000000000000000000000014010584
    s) (execMartenRelease s) := by
  unfold execMartenRelease
  refine Ends.next ?_
  repeat' first
    | (extract_lets +onlyGivenNames u
       first
       | (refine Keeps.cut (u := u) ?_ (fun _ => ?_); subst u; on_goal 2 => clear_value u)
       | (have h := @id (_ → _) u; clear h; subst u)
       | clear_value u)
    | with_reducible assumption
    | (simp (decide := true) (maxDischargeDepth := 200) only [↓Keeps.next, ↓Keeps.endsIte, ↓Keeps.refl, ↓Keeps.ite,
      ↓Keeps.mk, ↓State.fresh_snd, ↓State.put_keeps, ↓State.showVersion_keeps, ↓State.closeBootWindow_keeps,
      ↓State.loadTable_keeps, ↓State.showCalRec_keeps, ↓State.calStart_keeps, or_true, true_or, eq_self, *]; done)
    | (split <;>
        (rename_i e
         refine Keeps.cut (State.fresh_out (by with_reducible exact e) ?_ (by decide)) (fun _ => ?_) <;> clear e))
    | (with_reducible refine State.fresh_snd _ ?_ (by decide))
    | (with_reducible refine State.put_keeps _ _ _ ?_ (by decide))
    | (with_reducible refine State.showVersion_keeps _ _ _ ?_ (by decide))
    | (with_reducible refine State.closeBootWindow_keeps _ ?_ (by decide))
    | (with_reducible refine State.loadTable_keeps _ _ ?_ (by decide))
    | (with_reducible refine State.showCalRec_keeps _ ?_ (by decide))
    | (with_reducible refine State.calStart_keeps _ _ _ ?_ (by decide))
    | split

theorem execHedgehogFault_keeps (s : State) : Ends (Keeps
    0x100000000000000000000000000000001000000000000000000000000000000090000000000000000000000000000000000000000000000000000000000000000000000000000000000000000000000000000000000000000000000000000000000000000000000000000000000000000000000000000000000000000000000000000000000000000000000000000000100000000000000000000000000000000000000000000000000000000000000010000000000000000000000000000000100000000000000000000000000000000000000000000000000000000000000000000000000000000000000000000000004010100
    s) (execHedgehogFault s) := by
  unfold execHedgehogFault
  refine Ends.next ?_
  repeat' first
    | (extract_lets +onlyGivenNames u
       first
       | (refine Keeps.cut (u := u) ?_ (fun _ => ?_); subst u; on_goal 2 => clear_value u)
       | (have h := @id (_ → _) u; clear h; subst u)
       | clear_value u)
    | with_reducible assumption
    | (simp (decide := true) (maxDischargeDepth := 200) only [↓Keeps.next, ↓Keeps.endsIte, ↓Keeps.refl, ↓Keeps.ite,
      ↓Keeps.mk, ↓State.holdMarten_keeps, ↓State.put_keeps, or_true, true_or, eq_self, *]; done)
    | split

theorem execPikaGo_keeps (s : State) : Ends (Keeps
    0x100000000000000000000000000000000000000000000000000000000000000400000000000000000000000000000000000000000000000000000000000010008000000000000000000000000000000000000000000000000000000000000000000002181
    s) (execPikaGo s) := by
  unfold execPikaGo
  refine Ends.next ?_
  repeat' first
    | (extract_lets +onlyGivenNames u
       first
       | (refine Keeps.cut (u := u) ?_ (fun _ => ?_); subst u; on_goal 2 => clear_value u)
       | (have h := @id (_ → _) u; clear h; subst u)
       | clear_value u)
    | with_reducible assumption
    | (simp (decide := true) (maxDischargeDepth := 200) only [↓Keeps.next, ↓Keeps.endsIte, ↓Keeps.refl, ↓Keeps.ite,
      ↓Keeps.mk, ↓State.putAll_keeps, ↓State.security_keeps, ↓State.pikaGone_keeps, regIn_on, or_true, true_or,
      eq_self, *]; done)
    | split

theorem execPikaRelease_keeps (s : State) : Ends (Keeps
    0x100000000000000000000000000000000000000000000000000000000000000000000000000000000000000000000000000000000000000000000000000000000000000000000000000000000000000000000000000000000000000000000000000000000
    s) (execPikaRelease s) := by
  unfold execPikaRelease
  refine Ends.next ?_
  repeat' first
    | (extract_lets +onlyGivenNames u
       first
       | (refine Keeps.cut (u := u) ?_ (fun _ => ?_); subst u; on_goal 2 => clear_value u)
       | (have h := @id (_ → _) u; clear h; subst u)
       | clear_value u)
    | with_reducible assumption
    | (simp (decide := true) (maxDischargeDepth := 200) only [↓Keeps.next, ↓Keeps.endsIte, ↓Keeps.refl, ↓Keeps.ite,
      ↓Keeps.mk, ↓State.put_keeps, or_true, true_or, eq_self, *]; done)
    | split

theorem execPikaDeferredLoad_keeps (readOk : Bool) (s : State) : Ends (Keeps
    0x10000000000000000000000000000000000000000000000000000000000000000100000000000000000000000000000000000000000000000000000000000000000000000000000000000000000000000000000000000000000000000000000000000000000000000000000000000000000000000000000000000000000000000004000100
    s) (execPikaDeferredLoad readOk s) := by
  unfold execPikaDeferredLoad
  refine Ends.next ?_
  repeat' first
    | (extract_lets +onlyGivenNames u
       first
       | (refine Keeps.cut (u := u) ?_ (fun _ => ?_); subst u; on_goal 2 => clear_value u)
       | (have h := @id (_ → _) u; clear h; subst u)
       | clear_value u)
    | with_reducible assumption
    | (simp (decide := true) (maxDischargeDepth := 200) only [↓Keeps.next, ↓Keeps.endsIte, ↓Keeps.refl, ↓Keeps.ite,
      ↓Keeps.mk, ↓State.pikaStart_keeps, ↓State.pikaGone_keeps, ↓State.noteFlash_keeps, or_true, true_or, eq_self,
      *]; done)
    | split

theorem State.showIdent_keeps (s : State) {μ : Nat} {σ : State} (hk : Keeps μ σ s)
    (hm : within? 0xFFFFFFFF000000010000000000000000000000000000000000000000000000000000000000000000000000000000000000000000000000000000000000000000000000000000000000000000000000000000000000000000000000000000000000000000000000000000000000000000000000000000000000000000 μ = true) : Keeps μ σ s.showIdent := by
  refine hk.lift hm ?_
  have hp : ∀ i, i < 32 → regIn 0xFFFFFFFF000000010000000000000000000000000000000000000000000000000000000000000000000000000000000000000000000000000000000000000000000000000000000000000000000000000000000000000000000000000000000000000000000000000000000000000000000000000000000000000000 (FLINT_IDPUB.w i).key = true := by decide
  have h : ∀ (g : Nat → Word) (l : List Nat) (t : State), (∀ i ∈ l, i < 32) → Keeps 0xFFFFFFFF000000010000000000000000000000000000000000000000000000000000000000000000000000000000000000000000000000000000000000000000000000000000000000000000000000000000000000000000000000000000000000000000000000000000000000000000000000000000000000000000 s t →
      Keeps 0xFFFFFFFF000000010000000000000000000000000000000000000000000000000000000000000000000000000000000000000000000000000000000000000000000000000000000000000000000000000000000000000000000000000000000000000000000000000000000000000000000000000000000000000000 s (l.foldl (fun t i => t.setReg (FLINT_IDPUB.w i).key (g i)) t) := by
    intro g l
    induction l with
    | nil => exact fun t _ h => h
    | cons i l ih =>
      exact fun t hl ht => ih _ (fun j hj => hl j (List.mem_cons_of_mem _ hj))
        (ht.setReg (hp i (hl i List.mem_cons_self)))
  refine h (fun i => if s.flint.secretOk && s.flint.identPub != [] then s.flint.identPub.getD i 0 else 0) (List.range 32) _
    (fun i hi => List.mem_range.mp hi) (State.putBit_keeps _ _ _ .refl (by decide))

theorem execIdentityKeyGenerate_keeps (ok : Bool) (pub : List Word) (s : State) : Ends (Keeps
    0xFFFFFFFF000000010000000000000000000000000000000000000000000000000000000000000000000000000000000000000000000000000000000000000000000000000000000000000000000000000000000000000000000000000000000000000000000000000000000000000000000000000000000000000300
    s) (execIdentityKeyGenerate ok pub s) := by
  unfold execIdentityKeyGenerate
  refine Ends.next ?_
  repeat' first
    | (extract_lets +onlyGivenNames u
       first
       | (refine Keeps.cut (u := u) ?_ (fun _ => ?_); subst u; on_goal 2 => clear_value u)
       | (have h := @id (_ → _) u; clear h; subst u)
       | clear_value u)
    | with_reducible assumption
    | (simp (decide := true) (maxDischargeDepth := 200) only [↓Keeps.next, ↓Keeps.endsIte, ↓Keeps.refl, ↓Keeps.ite,
      ↓Keeps.mk, ↓State.showIdent_keeps, or_true, true_or, eq_self, *]; done)
    | split

theorem State.recordCause_keeps (s : State) (code : Nat) {μ : Nat} {σ : State} (hk : Keeps μ σ s) (hm : within?
    0x700000000000000000000000000000000000000000000000000000000000000000000000000000000000000000000000000000000000000000000000000000000000000000000000000000000000000000000000000000000000000000000000000000000000000000000000000000000000000000000000000000000000000000000000000000000000000000000000000000000000000000000000000000000000000000000000000000000000000000000000000000000000000000000000000000000000000000000000000000000000000000000000000000000000000000000000000000000000000000000000000000000000000000000000000000000000000000000000000000000000000000000000000000000000000000000000000000000000000000000000000000000000000000000000000000000000000000000000000000000000000000000000000000000000000000000000000000000000000000000000000000000000000000000000000000000000000000000000000000000000000000000000000000000000000000000000000000000000000000004000000
    μ = true) : Keeps μ σ (State.recordCause s code) := by
  refine hk.lift hm ?_
  unfold State.recordCause
  repeat' first
    | (extract_lets +onlyGivenNames u
       first
       | (refine Keeps.cut (u := u) ?_ (fun _ => ?_); subst u; on_goal 2 => clear_value u)
       | (have h := @id (_ → _) u; clear h; subst u)
       | clear_value u)
    | with_reducible assumption
    | (simp (decide := true) (maxDischargeDepth := 200) only [↓Keeps.refl, ↓Keeps.ite, ↓Keeps.mk, ↓State.put_keeps,
      ↓State.put32_keeps, ↓State.noteRtime_keeps, or_true, true_or, eq_self, *]; done)
    | split

theorem State.prefReturn_keeps (s : State) {μ : Nat} {σ : State} (hk : Keeps μ σ s) (hm : within?
    0x1000000000000000000000000000000000000000000000000000000000000000000000000000000000000000000000000000000000000000000000000000000000000000000000000000000000000000000000000000000000000000000000000000000000000000000000000000000000000000000000000000000000000000000000000000400
    μ = true) : Keeps μ σ (State.prefReturn s) := by
  refine hk.lift hm ?_
  unfold State.prefReturn
  repeat' first
    | (extract_lets +onlyGivenNames u
       first
       | (refine Keeps.cut (u := u) ?_ (fun _ => ?_); subst u; on_goal 2 => clear_value u)
       | (have h := @id (_ → _) u; clear h; subst u)
       | clear_value u)
    | with_reducible assumption
    | (simp (decide := true) (maxDischargeDepth := 200) only [↓Keeps.refl, ↓Keeps.ite, ↓Keeps.mk, ↓State.put_keeps,
      or_true, true_or, eq_self, *]; done)
    | split

theorem State.readConfig_keeps (s : State) (prefOk cfgOk calOk : Bool) {μ : Nat} {σ : State} (hk : Keeps μ σ s) (hm :
    within?
    0x1000000000000000000000000000000000000000000000000000000000000000000000000000000000000000000000000000000000000000000000000000000000000000000000000000000000000000000000000000000000000000000000000000010500
    μ = true) : Keeps μ σ (State.readConfig s prefOk cfgOk calOk) := by
  refine hk.lift hm ?_
  unfold State.readConfig
  repeat' first
    | (extract_lets +onlyGivenNames u
       first
       | (refine Keeps.cut (u := u) ?_ (fun _ => ?_); subst u; on_goal 2 => clear_value u)
       | (have h := @id (_ → _) u; clear h; subst u)
       | clear_value u)
    | with_reducible assumption
    | (simp (decide := true) (maxDischargeDepth := 200) only [↓Keeps.refl, ↓Keeps.ite, ↓Keeps.mk, ↓State.put_keeps,
      or_true, true_or, eq_self, *]; done)
    | split

theorem execColdBootStart_keeps (burrowOk secretOk prefOk cfgOk calOk : Bool) (s : State) : Ends (Keeps
    0x3F000000000000000000000000000000000000000000000000000000000000000000000000000000000000000000000000000000000000000000000000000000000000000000000000000000000000000000000000000000000000000000000000000000000000000000000000000000000000000000000000000000000000000000000000000000000000000000000000000000000000000000000000000000000000000000000000000000000000000000000000000000000000000000000000000000000000000000000000000000000000000000000000000000000000000000000000000000000000000000000000000000000000000000000000000000000000000000000000000000000000000000000000000000000000000000010000000000000000000000FFFFFFFF000000010000000000000000000000000000003F00000000000000000000000000000C00000000000000000000000000000000000000000000000000000000000000000000000000000000000000000000000000000000000000000000000000000000000000000000000000000000000000000016010744
    s) (execColdBootStart burrowOk secretOk prefOk cfgOk calOk s) := by
  unfold execColdBootStart
  refine Ends.next ?_
  repeat' first
    | (extract_lets +onlyGivenNames u
       first
       | (refine Keeps.cut (u := u) ?_ (fun _ => ?_); subst u; on_goal 2 => clear_value u)
       | (have h := @id (_ → _) u; clear h; subst u)
       | clear_value u)
    | with_reducible assumption
    | (simp (decide := true) (maxDischargeDepth := 200) only [↓Keeps.next, ↓Keeps.endsIte, ↓Keeps.refl, ↓Keeps.ite,
      ↓Keeps.mk, ↓State.burrowLost_keeps, ↓State.inc_keeps, ↓State.recordCause_keeps, ↓State.fresh_snd,
      ↓State.readConfig_keeps, ↓State.put_keeps, ↓State.flashChannel_keeps, ↓State.showIdent_keeps,
      ↓State.prefReturn_keeps, or_true, true_or, eq_self, *]; done)
    | (split <;>
        (rename_i e
         refine Keeps.cut (State.fresh_out (by with_reducible exact e) ?_ (by decide)) (fun _ => ?_) <;> clear e))
    | (with_reducible refine State.burrowLost_keeps _ ?_ (by decide))
    | (with_reducible refine State.inc_keeps _ _ ?_ (by decide))
    | (with_reducible refine State.recordCause_keeps _ _ ?_ (by decide))
    | (with_reducible refine State.fresh_snd _ ?_ (by decide))
    | (with_reducible refine State.readConfig_keeps _ _ _ _ ?_ (by decide))
    | (with_reducible refine State.put_keeps _ _ _ ?_ (by decide))
    | (with_reducible refine State.flashChannel_keeps _ _ ?_ (by decide))
    | (with_reducible refine State.showIdent_keeps _ ?_ (by decide))
    | (with_reducible refine State.prefReturn_keeps _ ?_ (by decide))
    | split

theorem State.releaseHeld_keeps (s : State) (f : Fn) {μ : Nat} {σ : State} (hk : Keeps μ σ s) (hm : within?
    0x400000000000000000000000000000000000000000002000000000000000010000000000000000000000000000000000000000000000000000000000000000000000002081
    μ = true) : Keeps μ σ (State.releaseHeld s f) := by
  refine hk.lift hm ?_
  unfold State.releaseHeld
  repeat' first
    | (extract_lets +onlyGivenNames u
       first
       | (refine Keeps.cut (u := u) ?_ (fun _ => ?_); subst u; on_goal 2 => clear_value u)
       | (have h := @id (_ → _) u; clear h; subst u)
       | clear_value u)
    | with_reducible assumption
    | (simp (decide := true) (maxDischargeDepth := 200) only [↓Keeps.refl, ↓Keeps.ite, ↓Keeps.mk, ↓Keeps.foldl,
      ↓State.setEng_keeps, ↓State.writeRec_keeps, implies_true, or_true, true_or, eq_self, *]; done)
    | (with_reducible refine Keeps.foldl (fun _ _ => ?_) ?_ <;> beta_reduce)
    | (with_reducible refine State.setEng_keeps _ _ _ ?_ (by decide))
    | (with_reducible refine State.writeRec_keeps _ _ _ ?_ (by decide))
    | split

theorem State.twinWatch_keeps (s : State) {μ : Nat} {σ : State} (hk : Keeps μ σ s) (hm : within? 0x2000000 μ = true) :
    Keeps μ σ (State.twinWatch s) := by
  refine hk.lift hm ?_
  unfold State.twinWatch
  repeat' first
    | (extract_lets +onlyGivenNames u
       first
       | (refine Keeps.cut (u := u) ?_ (fun _ => ?_); subst u; on_goal 2 => clear_value u)
       | (have h := @id (_ → _) u; clear h; subst u)
       | clear_value u)
    | with_reducible assumption
    | (simp (decide := true) (maxDischargeDepth := 200) only [↓Keeps.refl, ↓Keeps.ite, ↓Keeps.mk, or_true, true_or,
      eq_self, *]; done)
    | split

theorem State.becomeReady_keeps (s : State) {μ : Nat} {σ : State} (hk : Keeps μ σ s) (hm : within?
    0x1800000000000000000000000000000000000000000000000000000000000000000210000000000000000FFFFFFFF002007FD000000000000000001FFFFFF00013003000000000000000000000000000000000000000000000000000000000000065F0000000000000000000000000000810900000000000000000000000000020000000000000000000000000000000000000000000000000000000000000000010000000000000000000000000000000000000000000000000000000000000000000000000000000000000000000000000000000000000000000000000000000000000000000000000000000000000000000000000000000000000000000000004100000000000000000000000000000001000000000020000006020000000100000000000000000000000000000000000000000000000000000000000000000000162FF181
    μ = true) : Keeps μ σ (State.becomeReady s) := by
  refine hk.lift hm ?_
  unfold State.becomeReady
  repeat' first
    | (extract_lets +onlyGivenNames u
       first
       | (refine Keeps.cut (u := u) ?_ (fun _ => ?_); subst u; on_goal 2 => clear_value u)
       | (have h := @id (_ → _) u; clear h; subst u)
       | clear_value u)
    | with_reducible assumption
    | (simp (decide := true) (maxDischargeDepth := 200) only [↓Keeps.refl, ↓Keeps.ite, ↓Keeps.mk, ↓State.put_keeps,
      ↓State.twinWatch_keeps, ↓State.updMode_keeps, ↓State.holdDue_keeps, ↓State.releaseHeld_keeps, implies_true,
      or_true, true_or, eq_self, *]; done)
    | (with_reducible refine State.eachFn_keeps _ _ _ ?_ (fun _ _ => ?_) <;> beta_reduce)
    | (with_reducible refine State.put_keeps _ _ _ ?_ (by decide))
    | (with_reducible refine State.twinWatch_keeps _ ?_ (by decide))
    | (with_reducible refine State.updMode_keeps _ ?_ (by decide))
    | (with_reducible refine State.holdDue_keeps _ ?_ (by decide))
    | (with_reducible refine State.releaseHeld_keeps _ _ ?_ (by decide))
    | split

theorem State.bootEvent_keeps (s : State) {μ : Nat} {σ : State} (hk : Keeps μ σ s) (hm : within?
    0x400000000000000000000000000000000000000000000000000000000000020000000000000000000000000000000000000000000000000000000000000000000000002181
    μ = true) : Keeps μ σ (State.bootEvent s) := by
  refine hk.lift hm ?_
  unfold State.bootEvent
  repeat' first
    | (extract_lets +onlyGivenNames u
       first
       | (refine Keeps.cut (u := u) ?_ (fun _ => ?_); subst u; on_goal 2 => clear_value u)
       | (have h := @id (_ → _) u; clear h; subst u)
       | clear_value u)
    | with_reducible assumption
    | (simp (decide := true) (maxDischargeDepth := 200) only [↓Keeps.refl, ↓Keeps.ite, ↓Keeps.mk, ↓State.raise1_keeps,
      or_true, true_or, eq_self, *]; done)
    | split

theorem State.lockFlint_keeps (s : State) (cause : Nat) {μ : Nat} {σ : State} (hk : Keeps μ σ s) (hm : within?
    0x10000000000000000000000000000000000000000000000000000000000000000000000000000000000000000000000400000000000000000000000000000000000000000000000000000000000010008000000000000000000000000000000000000000000000000000000000000000000002081
    μ = true) : Keeps μ σ (State.lockFlint s cause) := by
  refine hk.lift hm ?_
  unfold State.lockFlint
  repeat' first
    | (extract_lets +onlyGivenNames u
       first
       | (refine Keeps.cut (u := u) ?_ (fun _ => ?_); subst u; on_goal 2 => clear_value u)
       | (have h := @id (_ → _) u; clear h; subst u)
       | clear_value u)
    | with_reducible assumption
    | (simp (decide := true) (maxDischargeDepth := 200) only [↓Keeps.refl, ↓Keeps.ite, ↓Keeps.mk, ↓State.putBit_keeps,
      ↓State.put_keeps, ↓State.putAll_keeps, ↓State.security_keeps, regIn_on, or_true, true_or, eq_self, *]; done)
    | split

theorem State.flintLock_keeps (s : State) {μ : Nat} {σ : State} (hk : Keeps μ σ s) (hm : within?
    0x10000000000000000000000000000000000000000000000000000000000000000000000000000000000000000000000400000000000000000000000000000000000000000000000000000000000010008000000000000000000000000000000000000000000000000000000000000000000002081
    μ = true) : Keeps μ σ (State.flintLock s) := by
  refine hk.lift hm ?_
  unfold State.flintLock
  repeat' first
    | (extract_lets +onlyGivenNames u
       first
       | (refine Keeps.cut (u := u) ?_ (fun _ => ?_); subst u; on_goal 2 => clear_value u)
       | (have h := @id (_ → _) u; clear h; subst u)
       | clear_value u)
    | with_reducible assumption
    | (simp (decide := true) (maxDischargeDepth := 200) only [↓Keeps.refl, ↓Keeps.ite, ↓Keeps.mk, ↓State.putAll_keeps,
      ↓State.lockFlint_keeps, regIn_on, or_true, true_or, eq_self, *]; done)
    | split

theorem State.plansFromFlash_keeps (s : State) {μ : Nat} {σ : State} (hk : Keeps μ σ s) (hm : within?
    0x10000000000000000000000000000000000000000000000000000000000000000000000000000000000000000000000000000000000000000000000000000000000000000000000000000000000000000000000000000000000000000000000000000000000000000000000000000000000000000000000000000000000000001000000000000000000000000000000000000000000000000002200000000000000000000000000000000000000000000000000000000000000000000000000000000C000
    μ = true) : Keeps μ σ (State.plansFromFlash s) := by
  refine hk.lift hm ?_
  unfold State.plansFromFlash
  repeat' first
    | (extract_lets +onlyGivenNames u
       first
       | (refine Keeps.cut (u := u) ?_ (fun _ => ?_); subst u; on_goal 2 => clear_value u)
       | (have h := @id (_ → _) u; clear h; subst u)
       | clear_value u)
    | with_reducible assumption
    | (simp (decide := true) (maxDischargeDepth := 200) only [↓Keeps.refl, ↓Keeps.ite, ↓Keeps.mk,
      ↓State.setPlan_keeps, ↓State.showPlans_keeps, ↓State.wantReadmit_keeps, implies_true, or_true, true_or, eq_self,
      *]; done)
    | (with_reducible refine State.eachFn_keeps _ _ _ ?_ (fun _ _ => ?_) <;> beta_reduce)
    | (with_reducible refine State.setPlan_keeps _ _ _ ?_ (by decide))
    | (with_reducible refine State.showPlans_keeps _ ?_ (by decide))
    | (with_reducible refine State.wantReadmit_keeps _ ?_ (by decide))
    | split

theorem State.readOther_keeps (s : State) (slot : Nat) {μ : Nat} {σ : State} (hk : Keeps μ σ s) (hm : within?
    0x1F1F00000000000000000000000000000000000000000000000000000000000000000000000000000000000000000000000000000000000000000000000000000000000000000000000000000000000000000000000000000000000000000000000000000000000000000000000000000000000000000000000000000000000000000000000000
    μ = true) : Keeps μ σ (State.readOther s slot) := by
  refine hk.lift hm ?_
  unfold State.readOther
  repeat' first
    | (extract_lets +onlyGivenNames u
       first
       | (refine Keeps.cut (u := u) ?_ (fun _ => ?_); subst u; on_goal 2 => clear_value u)
       | (have h := @id (_ → _) u; clear h; subst u)
       | clear_value u)
    | with_reducible assumption
    | (simp (decide := true) (maxDischargeDepth := 200) only [↓Keeps.refl, ↓Keeps.ite, ↓Keeps.mk,
      ↓State.showSlot_keeps, or_true, true_or, eq_self, *]; done)
    | split

theorem State.resetRecord_keeps (s : State) {μ : Nat} {σ : State} (hk : Keeps μ σ s) (hm : within?
    0x400000000000000000000000000000000000000000002000000000000000030000000000000000000000000000000000000000000000000000000000000000000004002081
    μ = true) : Keeps μ σ (State.resetRecord s) := by
  refine hk.lift hm ?_
  unfold State.resetRecord
  repeat' first
    | (extract_lets +onlyGivenNames u
       first
       | (refine Keeps.cut (u := u) ?_ (fun _ => ?_); subst u; on_goal 2 => clear_value u)
       | (have h := @id (_ → _) u; clear h; subst u)
       | clear_value u)
    | with_reducible assumption
    | (simp (decide := true) (maxDischargeDepth := 200) only [↓Keeps.refl, ↓Keeps.ite, ↓Keeps.mk, ↓Keeps.foldl,
      ↓State.healthRec_keeps, ↓State.raise1_keeps, implies_true, or_true, true_or, eq_self, *]; done)
    | (with_reducible refine Keeps.foldl (fun _ _ => ?_) ?_ <;> beta_reduce)
    | (with_reducible refine State.healthRec_keeps _ _ _ _ _ ?_ (by decide))
    | (with_reducible refine State.raise1_keeps _ _ ?_ (by decide))
    | split

theorem State.coreFrom_keeps (s : State) (p : Nat → Bool) (l : List (Nat × Word)) {μ : Nat} {σ : State} (hk : Keeps μ σ s)
    (hm : within? 0x100000000000000000000000000000000000000000000000000000000000000000000000000000000000000000000000000000000000000000000000000000000000000000000000000000000000000000000000000000000000F000001800FF10000000000000000000000000000000000000000000000000000000000000000000000000000000000000000000000000000000000000000000000000000000000000000000000000000000000000000000000000000000000000000000000000000000000000000000000000001000000000000000000000000000000000000000000000000000000000000000000000000000000000000000000000000000E0000000000000000000000000000000000000000000000000000000000000000000000000000000000000000000000000000000000000000000000000000000000000000000000000000000000000000000000000000000000000000000000000000000000000000000000000000000000000000000000000000000000000008FFFFFFFFFFFFFFFFFFFFFFFFFFFFFFFFFFFFFFFFFFFFFFFFFFFFFFFFFF7DFFF100000000 μ = true) : Keeps μ σ (s.coreFrom p l) := by
  refine hk.lift hm ?_
  have h1 := Keeps.resetRegs (p := fun k => !isAon k && p k) (Keeps.refl (m := 0x100000000000000000000000000000000000000000000000000000000000000000000000000000000000000000000000000000000000000000000000000000000000000000000000000000000000000000000000000000000000F000001800FF10000000000000000000000000000000000000000000000000000000000000000000000000000000000000000000000000000000000000000000000000000000000000000000000000000000000000000000000000000000000000000000000000000000000000000000000000001000000000000000000000000000000000000000000000000000000000000000000000000000000000000000000000000000E0000000000000000000000000000000000000000000000000000000000000000000000000000000000000000000000000000000000000000000000000000000000000000000000000000000000000000000000000000000000000000000000000000000000000000000000000000000000000000000000000000000000000008FFFFFFFFFFFFFFFFFFFFFFFFFFFFFFFFFFFFFFFFFFFFFFFFFFFFFFFFFF7DFFF100000000) (s := s)) (fun k hk => by simp [corePage_in k (Keeps.regIn_of_within (by decide) hk)])
  have h : ∀ (l : List (Nat × Word)) (t : State), (∀ e ∈ l, regIn 0x100000000000000000000000000000000000000000000000000000000000000000000000000000000000000000000000000000000000000000000000000000000000000000000000000000000000000000000000000000000000F000001800FF10000000000000000000000000000000000000000000000000000000000000000000000000000000000000000000000000000000000000000000000000000000000000000000000000000000000000000000000000000000000000000000000000000000000000000000000000001000000000000000000000000000000000000000000000000000000000000000000000000000000000000000000000000000E0000000000000000000000000000000000000000000000000000000000000000000000000000000000000000000000000000000000000000000000000000000000000000000000000000000000000000000000000000000000000000000000000000000000000000000000000000000000000000000000000000000000000008FFFFFFFFFFFFFFFFFFFFFFFFFFFFFFFFFFFFFFFFFFFFFFFFFFFFFFFFFF7DFFF100000000 e.1 = true) → Keeps 0x100000000000000000000000000000000000000000000000000000000000000000000000000000000000000000000000000000000000000000000000000000000000000000000000000000000000000000000000000000000000F000001800FF10000000000000000000000000000000000000000000000000000000000000000000000000000000000000000000000000000000000000000000000000000000000000000000000000000000000000000000000000000000000000000000000000000000000000000000000000001000000000000000000000000000000000000000000000000000000000000000000000000000000000000000000000000000E0000000000000000000000000000000000000000000000000000000000000000000000000000000000000000000000000000000000000000000000000000000000000000000000000000000000000000000000000000000000000000000000000000000000000000000000000000000000000000000000000000000000000008FFFFFFFFFFFFFFFFFFFFFFFFFFFFFFFFFFFFFFFFFFFFFFFFFFFFFFFFFF7DFFF100000000 s t →
      Keeps 0x100000000000000000000000000000000000000000000000000000000000000000000000000000000000000000000000000000000000000000000000000000000000000000000000000000000000000000000000000000000000F000001800FF10000000000000000000000000000000000000000000000000000000000000000000000000000000000000000000000000000000000000000000000000000000000000000000000000000000000000000000000000000000000000000000000000000000000000000000000000001000000000000000000000000000000000000000000000000000000000000000000000000000000000000000000000000000E0000000000000000000000000000000000000000000000000000000000000000000000000000000000000000000000000000000000000000000000000000000000000000000000000000000000000000000000000000000000000000000000000000000000000000000000000000000000000000000000000000000000000008FFFFFFFFFFFFFFFFFFFFFFFFFFFFFFFFFFFFFFFFFFFFFFFFFFFFFFFFFF7DFFF100000000 s (l.foldl (fun s e => s.setReg e.1 e.2) t) := by
    intro l
    induction l with
    | nil => exact fun t _ h => h
    | cons e l ih =>
      exact fun t hl ht => ih _ (fun j hj => hl j (List.mem_cons_of_mem _ hj)) (ht.setReg (hl e List.mem_cons_self))
  refine h _ _ (fun e he => ?_) h1
  cases hr : regIn 0x100000000000000000000000000000000000000000000000000000000000000000000000000000000000000000000000000000000000000000000000000000000000000000000000000000000000000000000000000000000000F000001800FF10000000000000000000000000000000000000000000000000000000000000000000000000000000000000000000000000000000000000000000000000000000000000000000000000000000000000000000000000000000000000000000000000000000000000000000000000001000000000000000000000000000000000000000000000000000000000000000000000000000000000000000000000000000E0000000000000000000000000000000000000000000000000000000000000000000000000000000000000000000000000000000000000000000000000000000000000000000000000000000000000000000000000000000000000000000000000000000000000000000000000000000000000000000000000000000000000008FFFFFFFFFFFFFFFFFFFFFFFFFFFFFFFFFFFFFFFFFFFFFFFFFFFFFFFFFF7DFFF100000000 e.1
  · have := corePage_in e.1 (Keeps.regIn_of_within (by decide) hr)
    simp [this] at he
  · rfl

theorem State.deepRestore_keeps (s : State) {μ : Nat} {σ : State} (hk : Keeps μ σ s) (hm : within?
    0x100000000000000000000000000000000000000000000000000000000000000000000000000000000000000000000000000000000000000000000000000000000000000000000000000000000000000000000000000000000000F000001800FF10000000000000000000000000000000000000000000000000000000000000010000000000000000000000000000000000000000000000000000000000000000000000000000000000000000000000019000000000000000000000000000000000000000000000000000000000001000000000000000000000000000000000001000000000000000000000000000000010000000000000000000000000000000E00000000000000000000000000000000000000000000000000000000010000000000000000000000FFFFFFFF000000010000000000000000000000000000000000000000000000000000000000000000000000000000000000000000000000010000000000000000000000000000000000000000000000000022000000000008FFFFFFFFFFFFFFFFFFFFFFFFFFFFFFFFFFFFFFFFFFFFFFFFFFFFFFFFFF7DFFF115EFFC04
    μ = true) : Keeps μ σ (State.deepRestore s) := by
  refine hk.lift hm ?_
  unfold State.deepRestore
  repeat' first
    | (extract_lets +onlyGivenNames u
       first
       | (refine Keeps.cut (u := u) ?_ (fun _ => ?_); subst u; on_goal 2 => clear_value u)
       | (have h := @id (_ → _) u; clear h; subst u)
       | clear_value u)
    | with_reducible assumption
    | (simp (decide := true) (maxDischargeDepth := 200) only [↓Keeps.refl, ↓Keeps.ite, ↓Keeps.mk,
      ↓State.coreFrom_keeps, ↓State.coreLost_keeps, ↓State.putAll_keeps, ↓State.put_keeps,
      ↓State.plansFromFlash_keeps, ↓State.loadTemplates_keeps, ↓State.showCalRec_keeps, ↓State.showIdent_keeps,
      regIn_on, or_true, true_or, eq_self, *]; done)
    | split

theorem execBootReady_keeps (s : State) : Ends (Keeps
    0x100000000000000000000000000000000000000000000000000000000000000000000000000000000000000000000000000000000000000000000000000000000000000000000000000000000000000000000000000000000000F000001818FF100000000000000000000000000000000000000000000000000000000000000310000000000000000FFFFFFFF002007FD000000000000000001FFFFFF00013003000000000000000000000000000000190000000000000000000000000000065F0000000000000000000000000001810900000000000000000000000000020001000000000000000000000000000000010000000000000000000000000000010E00000000000000000000000000000000000000000000000000000000011F1F000000000000000000FFFFFFFF00000001000000000000000000000000000000490000000000000000000000000000000000000000000000000000000000000041000000000000000000000000000000010000000000200000062200000003000CFFFFFFFFFFFFFFFFFFFFFFFFFFFFFFFFFFFFFFFFFFFFFFFFFFFFFFFFFF7DFFF117EFFD85
    s) (execBootReady s) := by
  unfold execBootReady
  refine Ends.next ?_
  repeat' first
    | (extract_lets +onlyGivenNames u
       first
       | (refine Keeps.cut (u := u) ?_ (fun _ => ?_); subst u; on_goal 2 => clear_value u)
       | (have h := @id (_ → _) u; clear h; subst u)
       | clear_value u)
    | with_reducible assumption
    | (simp (decide := true) (maxDischargeDepth := 200) only [↓Keeps.next, ↓Keeps.endsIte, ↓Keeps.refl, ↓Keeps.ite,
      ↓Keeps.mk, ↓State.put_keeps, ↓State.resetRecord_keeps, ↓State.becomeReady_keeps, ↓State.fresh_snd,
      ↓State.putBit_keeps, ↓State.inc_keeps, ↓State.putAll_keeps, ↓State.deepRestore_keeps,
      ↓State.plansFromFlash_keeps, ↓State.loadTemplates_keeps, ↓State.flintLock_keeps, ↓State.raiseReplace_keeps,
      ↓State.readOther_keeps, ↓State.bootEvent_keeps, regIn_on, or_true, true_or, eq_self, *]; done)
    | (split <;>
        (rename_i e
         refine Keeps.cut (State.fresh_out (by with_reducible exact e) ?_ (by decide)) (fun _ => ?_) <;> clear e))
    | (with_reducible refine State.put_keeps _ _ _ ?_ (by decide))
    | (with_reducible refine State.resetRecord_keeps _ ?_ (by decide))
    | (with_reducible refine State.becomeReady_keeps _ ?_ (by decide))
    | (with_reducible refine State.fresh_snd _ ?_ (by decide))
    | (with_reducible refine State.putBit_keeps _ _ _ ?_ (by decide))
    | (with_reducible refine State.inc_keeps _ _ ?_ (by decide))
    | (with_reducible refine State.putAll_keeps _ _ _ ?_ (by decide))
    | (with_reducible refine State.deepRestore_keeps _ ?_ (by decide))
    | (with_reducible refine State.plansFromFlash_keeps _ ?_ (by decide))
    | (with_reducible refine State.loadTemplates_keeps _ ?_ (by decide))
    | (with_reducible refine State.flintLock_keeps _ ?_ (by decide))
    | (with_reducible refine State.raiseReplace_keeps _ _ ?_ (by decide))
    | (with_reducible refine State.readOther_keeps _ _ ?_ (by decide))
    | (with_reducible refine State.bootEvent_keeps _ ?_ (by decide))
    | split

theorem execHostLoadWait_keeps (s : State) : Ends (Keeps
    0x1F1F0000000000000000000000000000000001000000000000000000000000000000010000000000000000000000000000000000000000000000000000000000000040000000000000000000000000000000000000000000000000000000000003000C000000000000000000000000000000000000000000000000000000000000000000002181
    s) (execHostLoadWait s) := by
  unfold execHostLoadWait
  refine Ends.next ?_
  repeat' first
    | (extract_lets +onlyGivenNames u
       first
       | (refine Keeps.cut (u := u) ?_ (fun _ => ?_); subst u; on_goal 2 => clear_value u)
       | (have h := @id (_ → _) u; clear h; subst u)
       | clear_value u)
    | with_reducible assumption
    | (simp (decide := true) (maxDischargeDepth := 200) only [↓Keeps.next, ↓Keeps.endsIte, ↓Keeps.refl, ↓Keeps.ite,
      ↓Keeps.mk, ↓State.putAll_keeps, ↓State.put_keeps, ↓State.lockFlint_keeps, ↓State.readOther_keeps,
      ↓State.bootEvent_keeps, regIn_on, or_true, true_or, eq_self, *]; done)
    | split

theorem execHostLoadRetry_keeps (s : State) : Ends (Keeps
    0x2200000000000000000000000000000000000000000000000000000000000000000000000000000000000000000000000000000000000000000000000000000000000000000000000000000000000000000000000000000000000000000000000000000100
    s) (execHostLoadRetry s) := by
  unfold execHostLoadRetry
  refine Ends.next ?_
  repeat' first
    | (extract_lets +onlyGivenNames u
       first
       | (refine Keeps.cut (u := u) ?_ (fun _ => ?_); subst u; on_goal 2 => clear_value u)
       | (have h := @id (_ → _) u; clear h; subst u)
       | clear_value u)
    | with_reducible assumption
    | (simp (decide := true) (maxDischargeDepth := 200) only [↓Keeps.next, ↓Keeps.endsIte, ↓Keeps.refl, ↓Keeps.ite,
      ↓Keeps.mk, ↓State.flashChannel_keeps, or_true, true_or, eq_self, *]; done)
    | split

theorem State.timeOutOps_keeps (s : State) {μ : Nat} {σ : State} (hk : Keeps μ σ s) (hm : within?
    0x4000000000000000000000000000000000000000000000000000001F0000010020000000000000000000000000000000000000000000000000000000000000000000002081
    μ = true) : Keeps μ σ (State.timeOutOps s) := by
  refine hk.lift hm ?_
  unfold State.timeOutOps
  repeat' first
    | (extract_lets +onlyGivenNames u
       first
       | (refine Keeps.cut (u := u) ?_ (fun _ => ?_); subst u; on_goal 2 => clear_value u)
       | (have h := @id (_ → _) u; clear h; subst u)
       | clear_value u)
    | with_reducible assumption
    | (simp (decide := true) (maxDischargeDepth := 200) only [↓Keeps.refl, ↓Keeps.ite, ↓Keeps.mk,
      ↓State.finishOp_keeps, implies_true, or_true, true_or, eq_self, *]; done)
    | (with_reducible refine State.eachFn_keeps _ _ _ ?_ (fun _ _ => ?_) <;> beta_reduce)
    | (with_reducible refine State.finishOp_keeps _ _ _ _ ?_ (by decide))
    | split

theorem State.expiry_keeps (s : State) {μ : Nat} {σ : State} (hk : Keeps μ σ s) (hm : within?
    0x70000000000000000000000000000000000000000000000000000000000000182C10000000000000000000000000000000200000000000000000000000000004080000000000000000000000000000040800000000000000000000000000001800000000000000000000000000000000600000000000000000000000000000000210000000000000000FFFFFFFF002007FD000000000000000001FFFFFF0001300300000000000000000000000000000001000000000000000000000000000000010000000000000000000000000000010900000000000000000000000000020000000000000000000000000000000000000000000000000000000000000000000000000000000000000000000000000000000000000000000000000000000000000000000000000000000000000000000000000000000000000000000000000000000000000000000000000000000000000000000000000000000000000000004100000000000000000000000000000001000000000020000006021F0000010020000000000000000000000000000000000000000000000000000000000000000017EFE585
    μ = true) : Keeps μ σ (State.expiry s) := by
  refine hk.lift hm ?_
  unfold State.expiry
  repeat' first
    | (extract_lets +onlyGivenNames u
       first
       | (refine Keeps.cut (u := u) ?_ (fun _ => ?_); subst u; on_goal 2 => clear_value u)
       | (have h := @id (_ → _) u; clear h; subst u)
       | clear_value u)
    | with_reducible assumption
    | (simp (decide := true) (maxDischargeDepth := 200) only [↓Keeps.refl, ↓Keeps.ite, ↓Keeps.mk,
      ↓State.recordCause_keeps, ↓State.dropCal_keeps, ↓State.timeOutOps_keeps, ↓State.endActivities_keeps,
      ↓State.showMaintain_keeps, or_true, true_or, eq_self, *]; done)
    | split

theorem State.reloadMarten_keeps (s : State) {μ : Nat} {σ : State} (hk : Keeps μ σ s) (hm : within?
    0x70000000000000000000000000000000000000000000000000000000000000182C10000000000000000000000000000000200000000000000000000000000004080000000000000000000000000000040800000000000000000000000000001800000000000000000000000000000000600000000000000000000000000000000210000000000000000FFFFFFFF002007FD000000000000000001FFFFFF0001300300000000000000000000000000000001000000000000000000000000000000010000000000000000000000000000010900000000000000000000000000020000000000000000000000000000000000000000000000000000000000000000000000000000000000000000000000000000000000000000000000000000000000000000000000000000000000000000000000000000000000000000000000000041000000000000000000000000000000000000000000000000000000000000004100000000000000000000000000000001000000000020000006021F0000010020000000000000000000000000000000000000000000000000000000000000000017EFE585
    μ = true) : Keeps μ σ (State.reloadMarten s) := by
  refine hk.lift hm ?_
  unfold State.reloadMarten
  repeat' first
    | (extract_lets +onlyGivenNames u
       first
       | (refine Keeps.cut (u := u) ?_ (fun _ => ?_); subst u; on_goal 2 => clear_value u)
       | (have h := @id (_ → _) u; clear h; subst u)
       | clear_value u)
    | with_reducible assumption
    | (simp (decide := true) (maxDischargeDepth := 200) only [↓Keeps.refl, ↓Keeps.ite, ↓Keeps.mk,
      ↓State.wantReadmit_keeps, ↓State.expiry_keeps, ↓State.inc_keeps, ↓State.put_keeps, or_true, true_or, eq_self,
      *]; done)
    | split

theorem State.restartMarten_keeps (s : State) {μ : Nat} {σ : State} (hk : Keeps μ σ s) (hm : within?
    0x70000000000000000000000000000000000000000000000000000000000000182C10000000000000000000000000000000200000000000000000000000000004080000000000000000000000000000040800000000000000000000000000001800000000000000000000000000000000600000000000000000000000000000000210000000000000000FFFFFFFF002007FD000000000000000001FFFFFF0001300300000000000000000000000000000001000000000000000000000000000000010000000000000000000000000000010900000000000000000000000000020000000000000000000000000000000000000000000000000000000000000000000000000000000000000000000000000000000000000000000000000000000000000000000000000000000000000000000000000000000000000000000000000001000000000000000000000000000000000000000000000000000000000000004100000000000000000000000000000001000000000020000006021F0000010020000000000000000000000000000000000000000000000000000000000000000017EFE585
    μ = true) : Keeps μ σ (State.restartMarten s) := by
  refine hk.lift hm ?_
  unfold State.restartMarten
  repeat' first
    | (extract_lets +onlyGivenNames u
       first
       | (refine Keeps.cut (u := u) ?_ (fun _ => ?_); subst u; on_goal 2 => clear_value u)
       | (have h := @id (_ → _) u; clear h; subst u)
       | clear_value u)
    | with_reducible assumption
    | (simp (decide := true) (maxDischargeDepth := 200) only [↓Keeps.refl, ↓Keeps.ite, ↓Keeps.mk, ↓State.put_keeps,
      ↓State.expiry_keeps, or_true, true_or, eq_self, *]; done)
    | split

theorem execMartenHeartbeatTimeout_keeps (reloadOk : Bool) (s : State) : Ends (Keeps
    0xF0100000000000000000000000000000000000000000000000000000000000182C10000000000000000000000000000000200000000000000000000000000004080000000000000000000000000000040800000000000000000000F000001818FF100000000000000000000000000000600000000000000000000000000000000210000000000000000FFFFFFFF002007FD000000000000000001FFFFFF0001300300000000000000000000000000000001000000000000000000000000000000010000000000000000000000000001010900000000000000000000000000020000000000000000000000000000000000000000000000000000000000000000050E00000000000000000000000000000000000000000000000000000000000000000000000000000000000000000000000000000000000000000000000000000041000000000000000000000000000600010000000000000000000000000000034100000000000000000000000000000001000000000020000006021F00000100A8FFFFFFFFFFFFFFFFFFFFFFFFFFFFFFFFFFFFFFFFFFFFFFFFFFFFFFFFFF7DFFF117EFFDE7
    s) (execMartenHeartbeatTimeout reloadOk s) := by
  unfold execMartenHeartbeatTimeout
  refine Ends.next ?_
  repeat' first
    | (extract_lets +onlyGivenNames u
       first
       | (refine Keeps.cut (u := u) ?_ (fun _ => ?_); subst u; on_goal 2 => clear_value u)
       | (have h := @id (_ → _) u; clear h; subst u)
       | clear_value u)
    | with_reducible assumption
    | (simp (decide := true) (maxDischargeDepth := 200) only [↓Keeps.next, ↓Keeps.endsIte, ↓Keeps.refl, ↓Keeps.ite,
      ↓Keeps.mk, ↓State.noteFault_keeps, ↓State.inc_keeps, ↓State.systemReset_keeps, ↓State.restartMarten_keeps,
      ↓State.reloadMarten_keeps, or_true, true_or, eq_self, *]; done)
    | split

end Sys2Proof.Machine
end

