-- ==== Sys2Proof/Laws/KeepsModes.lean ====
section
/-! SUPPORT. What each operation of Machine/Modes.lean may change, and that it keeps the canonical form. -/

set_option Elab.async false

set_option linter.unusedSimpArgs false
set_option linter.unusedTactic false
set_option linter.unreachableTactic false

namespace Sys2Proof.Machine

open R

theorem State.loseBuffers_keeps (s : State) (level : Nat) {μ : Nat} {σ : State} (hk : Keeps μ σ s) (hm : within?
    0x8000000000000000000000000000000000000000000000000000000000000000000000000000000000000000000000000000000000000000000000000000000000000000000000000000000000000000000000000000000000000000000000000000000000000000000000000000000000000000000000000000000000000000000000000000000000000000000000000000000000000000000000000000000000000000000000000000000000000000000000000000000000000000000000000000000000000000000000000000000000000000000000000000000000000000000000000000000000000000000000000000000000000000000000000000000000000000000000000000000000000000000000000000000000000000000000000100000000000000000000000000000000000000000000000000000000000000000000000000000000000000000000000000000000000000000000000000000000000000000000000000000000000000000000000000000000000000000000000001000104
    μ = true) : Keeps μ σ (State.loseBuffers s level) := by
  refine hk.lift hm ?_
  unfold State.loseBuffers
  repeat' first
    | (extract_lets +onlyGivenNames u
       first
       | (refine Keeps.cut (u := u) ?_ (fun _ => ?_); subst u; on_goal 2 => clear_value u)
       | (have h := @id (_ → _) u; clear h; subst u)
       | clear_value u)
    | with_reducible assumption
    | (simp (decide := true) (maxDischargeDepth := 200) only [↓Keeps.refl, ↓Keeps.ite, ↓Keeps.mk,
      ↓State.dropMem_keeps, ↓State.showRptr_keeps, ↓State.put_keeps, or_true, true_or, eq_self, *]; done)
    | split

theorem State.coreStop_keeps (s : State) {μ : Nat} {σ : State} (hk : Keeps μ σ s) (hm : within?
    0x100000000000000000000000000000000000000000000000000000000000000000000000000000000000000000000000004000080 μ =
    true) : Keeps μ σ (State.coreStop s) := by
  refine hk.lift hm ?_
  unfold State.coreStop
  repeat' first
    | (extract_lets +onlyGivenNames u
       first
       | (refine Keeps.cut (u := u) ?_ (fun _ => ?_); subst u; on_goal 2 => clear_value u)
       | (have h := @id (_ → _) u; clear h; subst u)
       | clear_value u)
    | with_reducible assumption
    | (simp (decide := true) (maxDischargeDepth := 200) only [↓Keeps.refl, ↓Keeps.ite, ↓Keeps.mk, ↓State.put_keeps,
      or_true, true_or, eq_self, *]; done)
    | split

theorem State.retain_keeps (s : State) (level : Nat) {μ : Nat} {σ : State} (hk : Keeps μ σ s) (hm : within? 0x300 μ =
    true) : Keeps μ σ (State.retain s level) := by
  refine hk.lift hm ?_
  unfold State.retain
  repeat' first
    | (extract_lets +onlyGivenNames u
       first
       | (refine Keeps.cut (u := u) ?_ (fun _ => ?_); subst u; on_goal 2 => clear_value u)
       | (have h := @id (_ → _) u; clear h; subst u)
       | clear_value u)
    | with_reducible assumption
    | (simp (decide := true) (maxDischargeDepth := 200) only [↓Keeps.refl, ↓Keeps.ite, ↓Keeps.mk, or_true, true_or,
      eq_self, *]; done)
    | split

theorem State.enterRest_keeps (s : State) (level : Nat) {μ : Nat} {σ : State} (hk : Keeps μ σ s) (hm : within?
    0x800000000000000000000000000000000000000000000000000000000000000000000000000000000000000000000000000000000000000000000F000001800FF10000000000000000000000000000000000000000000000000000000000000000000000000000000000000000000000000000000000000000000000000000000000000000000000000000000000000000000000000000000000000000000000000000000000000000000000000000000000000000000000000000000000000000000000000000000000000000000000000000000000000000000000000000000000000000000000000000000000000000000000000000000000000000000000000000000000000000000000000000000000000000000000000000000000000001000000000000000000000000000000010000000000000000000000000000000100000000000000000000000000000001000000000000000000000000000000000000000000000000000000000000000000000000000000000000000000000000152013C4
    μ = true) : Keeps μ σ (State.enterRest s level) := by
  refine hk.lift hm ?_
  unfold State.enterRest
  repeat' first
    | (extract_lets +onlyGivenNames u
       first
       | (refine Keeps.cut (u := u) ?_ (fun _ => ?_); subst u; on_goal 2 => clear_value u)
       | (have h := @id (_ → _) u; clear h; subst u)
       | clear_value u)
    | with_reducible assumption
    | (simp (decide := true) (maxDischargeDepth := 200) only [↓Keeps.refl, ↓Keeps.ite, ↓Keeps.mk,
      ↓State.hoardFlush_keeps, ↓State.put_keeps, ↓State.retain_keeps, ↓State.loseBuffers_keeps, ↓State.coreStop_keeps,
      ↓State.updMode_keeps, ↓State.putBit_keeps, ↓State.chgState_keeps, or_true, true_or, eq_self, *]; done)
    | split

theorem execRestEntry_keeps (s : State) : Ends (Keeps
    0x800000000000000000000000000000000000000000000000000000000000000000000000000000000000000000000000000000000000000000000F000001800FF10000000000000000000000000000000000000000000000000000000000000000000000000000000000000000000000000000000000000000000000000000000000000000000000000000000000000000000000000000000000000000000000000000000000000000000000000000000000000000000000000000000000000000000000000000000000000000000000000000000000000000000000000000000000000000000000000000000000000000000000000000000000000000000000000000000000000000000000000000000000000000000000000000000000000001000000000000000000000000000000010000000000000000000000000000000100000000000000000000000000000001000000000000000000000000000000000000000000000000000000000000000000000000000000000000000000000000152013C4
    s) (execRestEntry s) := by
  unfold execRestEntry
  refine Ends.next ?_
  repeat' first
    | (extract_lets +onlyGivenNames u
       first
       | (refine Keeps.cut (u := u) ?_ (fun _ => ?_); subst u; on_goal 2 => clear_value u)
       | (have h := @id (_ → _) u; clear h; subst u)
       | clear_value u)
    | with_reducible assumption
    | (simp (decide := true) (maxDischargeDepth := 200) only [↓Keeps.next, ↓Keeps.endsIte, ↓Keeps.refl, ↓Keeps.ite,
      ↓Keeps.mk, ↓State.enterRest_keeps, or_true, true_or, eq_self, *]; done)
    | split

theorem execRestEntryReversed_keeps (cause : Nat) (s : State) : Ends (Keeps
    0x1000000000000000000000000000000000000000000000000000000000000000000000000000000000000000000000000000000000000000000000000000000000000000C0
    s) (execRestEntryReversed cause s) := by
  unfold execRestEntryReversed
  refine Ends.next ?_
  repeat' first
    | (extract_lets +onlyGivenNames u
       first
       | (refine Keeps.cut (u := u) ?_ (fun _ => ?_); subst u; on_goal 2 => clear_value u)
       | (have h := @id (_ → _) u; clear h; subst u)
       | clear_value u)
    | with_reducible assumption
    | (simp (decide := true) (maxDischargeDepth := 200) only [↓Keeps.next, ↓Keeps.endsIte, ↓Keeps.refl, ↓Keeps.ite,
      ↓Keeps.mk, ↓State.latchCause_keeps, ↓State.xoStart_keeps, or_true, true_or, eq_self, *]; done)
    | split

theorem execSlotWake_keeps (s : State) : Ends (Keeps
    0x40000000000000000000000000000600010000000000000000000000000000001100000000000000000000000000000000000000000000000000000000000000000000000000000000000000000000000000000000000000000000000000000000000080C0
    s) (execSlotWake s) := by
  unfold execSlotWake
  refine Ends.next ?_
  repeat' first
    | (extract_lets +onlyGivenNames u
       first
       | (refine Keeps.cut (u := u) ?_ (fun _ => ?_); subst u; on_goal 2 => clear_value u)
       | (have h := @id (_ → _) u; clear h; subst u)
       | clear_value u)
    | with_reducible assumption
    | (simp (decide := true) (maxDischargeDepth := 200) only [↓Keeps.next, ↓Keeps.endsIte, ↓Keeps.refl, ↓Keeps.ite,
      ↓Keeps.mk, ↓State.wake_keeps, or_true, true_or, eq_self, *]; done)
    | split

theorem execSpiWake_keeps (s : State) : Ends (Keeps
    0x40000000000000000000000000000600010000000000000000000000000000001100000000000000000000000000000000000000000000000000000000000000000000000000000000000000000000000000000000000000000000000000000000000080C0
    s) (execSpiWake s) := by
  unfold execSpiWake
  refine Ends.next ?_
  repeat' first
    | (extract_lets +onlyGivenNames u
       first
       | (refine Keeps.cut (u := u) ?_ (fun _ => ?_); subst u; on_goal 2 => clear_value u)
       | (have h := @id (_ → _) u; clear h; subst u)
       | clear_value u)
    | with_reducible assumption
    | (simp (decide := true) (maxDischargeDepth := 200) only [↓Keeps.next, ↓Keeps.endsIte, ↓Keeps.refl, ↓Keeps.ite,
      ↓Keeps.mk, ↓State.wake_keeps, or_true, true_or, eq_self, *]; done)
    | split

theorem execHousekeepWake_keeps (s : State) : Ends (Keeps
    0x40000000000000000000000000000600010000000000000000000000000000001100000000000000000000000000000000000000000000000000000000000000000000000000000000000000000000000000000000000000000000000000000000000080C0
    s) (execHousekeepWake s) := by
  unfold execHousekeepWake
  refine Ends.next ?_
  repeat' first
    | (extract_lets +onlyGivenNames u
       first
       | (refine Keeps.cut (u := u) ?_ (fun _ => ?_); subst u; on_goal 2 => clear_value u)
       | (have h := @id (_ → _) u; clear h; subst u)
       | clear_value u)
    | with_reducible assumption
    | (simp (decide := true) (maxDischargeDepth := 200) only [↓Keeps.next, ↓Keeps.endsIte, ↓Keeps.refl, ↓Keeps.ite,
      ↓Keeps.mk, ↓State.serviceWake_keeps, or_true, true_or, eq_self, *]; done)
    | split

theorem execDelayedWakeStart_keeps (s : State) : Ends (Keeps
    0x40000000000000000000000000000000000000000000000000000000000000001100000000000000000000000000000000000000000000000000000000000000000000000000000000000000000000000000000000000000000000000000000000000000C0
    s) (execDelayedWakeStart s) := by
  unfold execDelayedWakeStart
  refine Ends.next ?_
  repeat' first
    | (extract_lets +onlyGivenNames u
       first
       | (refine Keeps.cut (u := u) ?_ (fun _ => ?_); subst u; on_goal 2 => clear_value u)
       | (have h := @id (_ → _) u; clear h; subst u)
       | clear_value u)
    | with_reducible assumption
    | (simp (decide := true) (maxDischargeDepth := 200) only [↓Keeps.next, ↓Keeps.endsIte, ↓Keeps.refl, ↓Keeps.ite,
      ↓Keeps.mk, ↓State.wakeStart_keeps, or_true, true_or, eq_self, *]; done)
    | split

theorem State.deepReady_keeps (s : State) (readOk : Bool) {μ : Nat} {σ : State} (hk : Keeps μ σ s) (hm : within?
    0x100000000000000000000000000000000000000000000000000000000000000000000000000000000000000000000000000000000000000000000000000000000000000000000000000000000000000000000000000000000000F000001818FF100000000000000000000000000000000000000000000000000000000000000310000000000000000FFFFFFFF002007FD000000000000000001FFFFFF00013003000000000000000000000000000000190000000000000000000000000000065F0000000000000000000000000001810900000000000000000000000000020001000000000000000000000000000000010000000000000000000000000000010E000000000000000000000000000000000000000000000000000000000100001F0000000000000000FFFFFFFF00000001000000000000000000000000000000330000000000000000000000000000000000000000000000000000000000000041000000000000000000000000000000010000000000200000062200000003000CFFFFFFFFFFFFFFFFFFFFFFFFFFFFFFFFFFFFFFFFFFFFFFFFFFFFFFFFFF7DFFF117EFFD85
    μ = true) : Keeps μ σ (State.deepReady s readOk) := by
  refine hk.lift hm ?_
  unfold State.deepReady
  repeat' first
    | (extract_lets +onlyGivenNames u
       first
       | (refine Keeps.cut (u := u) ?_ (fun _ => ?_); subst u; on_goal 2 => clear_value u)
       | (have h := @id (_ → _) u; clear h; subst u)
       | clear_value u)
    | with_reducible assumption
    | (simp (decide := true) (maxDischargeDepth := 200) only [↓Keeps.refl, ↓Keeps.ite, ↓Keeps.mk, ↓State.put_keeps,
      ↓State.showVersion_keeps, ↓State.loadTable_keeps, ↓State.putAll_keeps, ↓State.bootEvent_keeps,
      ↓State.resetRecord_keeps, ↓State.becomeReady_keeps, ↓State.deepRestore_keeps, ↓State.flashChannel_keeps,
      regIn_on, or_true, true_or, eq_self, *]; done)
    | split

theorem execWakeReady_keeps (supplyOk readOk : Bool) (s : State) : Ends (Keeps
    0x70100000000000000000000000000000000000000000000000000000000000000000000000000000000000000000000000000000000000000000000000000000000000000000000000000000000000000000000000000000000000F000001818FF100000000000000000000000000000000000000000000000000000000000000310000000000000000FFFFFFFF002007FD000000000000000001FFFFFF00013003000000000000000000000000000000190000000000000000000000000000065F0000000000000000000000000001810900000000000000000000000000020001000000000000000000000000000000010000000000000000000000000000010E000000000000000000000000000000000000000000000000000000000100001F0000000000000000FFFFFFFF00000001000000000000000000000000000000730000000000000000000000000000000000000000000000000000000000000041000000000000000000000000000000010000000000200000062200000003000CFFFFFFFFFFFFFFFFFFFFFFFFFFFFFFFFFFFFFFFFFFFFFFFFFFFFFFFFFF7DFFF117EFFD85
    s) (execWakeReady supplyOk readOk s) := by
  unfold execWakeReady
  refine Ends.next ?_
  repeat' first
    | (extract_lets +onlyGivenNames u
       first
       | (refine Keeps.cut (u := u) ?_ (fun _ => ?_); subst u; on_goal 2 => clear_value u)
       | (have h := @id (_ → _) u; clear h; subst u)
       | clear_value u)
    | with_reducible assumption
    | (simp (decide := true) (maxDischargeDepth := 200) only [↓Keeps.next, ↓Keeps.endsIte, ↓Keeps.refl, ↓Keeps.ite,
      ↓Keeps.mk, ↓State.becomeReady_keeps, ↓State.put_keeps, ↓State.inc_keeps, ↓State.deepReady_keeps,
      ↓State.recordCause_keeps, or_true, true_or, eq_self, *]; done)
    | split

theorem State.shutdown_keeps (s : State) (f : Fn) {μ : Nat} {σ : State} (hk : Keeps μ σ s) (hm : within?
    0x390100000000000000000000000000000001000000000000000000000000000182C10000000000000000000000000000000200000000000000000000000000004080000000000000000000000000000040800000000000000000000F000001818FF100000000000000000000000000000601000000000000000000000000000000210000000000000000FFFFFFFF002007FD000000000000000001FFFFFF000130030000000000000000000000000000000100000000000000000000000000000001000000000000000000000000000101090000000000000000000000000002000000000000000000000000000000000000000000000000000000000000000000000000000000000000000000000000000000000000000000000000000000000000000000000000000000000000000000000000000000000000000000000000000000000000000000000000000000070C01000000000000000000000000000000410000000000000000000000000000000100000000002000000602000000010020FFFFFFFFFFFFFFFFFFFFFFFFFFFFFFFFFFFFFFFFFFFFFFFFFFFFFFFFFFFFFFFF1FFFFFFF
    μ = true) : Keeps μ σ (State.shutdown s f) := by
  refine hk.lift hm ?_
  unfold State.shutdown
  repeat' first
    | (extract_lets +onlyGivenNames u
       first
       | (refine Keeps.cut (u := u) ?_ (fun _ => ?_); subst u; on_goal 2 => clear_value u)
       | (have h := @id (_ → _) u; clear h; subst u)
       | clear_value u)
    | with_reducible assumption
    | (simp (decide := true) (maxDischargeDepth := 200) only [↓Keeps.refl, ↓Keeps.ite, ↓Keeps.mk, ↓State.setErr_keeps,
      ↓State.endActivities_keeps, ↓State.hoardFlush_keeps, ↓State.ledgerCopy_keeps, ↓State.probeCut_keeps,
      ↓State.powerLost_keeps, ↓State.put_keeps, or_true, true_or, eq_self, *]; done)
    | split

theorem State.restNowCmd_keeps (s : State) {μ : Nat} {σ : State} (hk : Keeps μ σ s) (hm : within? 0x80 μ = true) :
    Keeps μ σ (State.restNowCmd s) := by
  refine hk.lift hm ?_
  unfold State.restNowCmd
  repeat' first
    | (extract_lets +onlyGivenNames u
       first
       | (refine Keeps.cut (u := u) ?_ (fun _ => ?_); subst u; on_goal 2 => clear_value u)
       | (have h := @id (_ → _) u; clear h; subst u)
       | clear_value u)
    | with_reducible assumption
    | (simp (decide := true) (maxDischargeDepth := 200) only [↓Keeps.refl, ↓Keeps.ite, ↓Keeps.mk, or_true, true_or,
      eq_self, *]; done)
    | split

theorem State.resumed_keeps (s : State) {μ : Nat} {σ : State} (hk : Keeps μ σ s) (hm : within?
    0x40000000000000000000000000000600010000000000000000000000000000009100000000000000000000000000000000000000000000000000000000000000000000000000000000000000000000000000000000000000000000000000000000000080C0
    μ = true) : Keeps μ σ (State.resumed s) := by
  refine hk.lift hm ?_
  unfold State.resumed
  repeat' first
    | (extract_lets +onlyGivenNames u
       first
       | (refine Keeps.cut (u := u) ?_ (fun _ => ?_); subst u; on_goal 2 => clear_value u)
       | (have h := @id (_ → _) u; clear h; subst u)
       | clear_value u)
    | with_reducible assumption
    | (simp (decide := true) (maxDischargeDepth := 200) only [↓Keeps.refl, ↓Keeps.ite, ↓Keeps.mk, ↓State.put_keeps,
      ↓State.wake_keeps, or_true, true_or, eq_self, *]; done)
    | split

theorem execHostResume_keeps (lowUs : Nat) (s : State) : Ends (Keeps
    0x40000000000000000000000000000600010000000000000000000000000000009100000000000000000000000000000001000000000000000000000000000000000000000000000000000000000000000000000000000000000000000000000000100081E0
    s) (execHostResume lowUs s) := by
  unfold execHostResume
  refine Ends.next ?_
  repeat' first
    | (extract_lets +onlyGivenNames u
       first
       | (refine Keeps.cut (u := u) ?_ (fun _ => ?_); subst u; on_goal 2 => clear_value u)
       | (have h := @id (_ → _) u; clear h; subst u)
       | clear_value u)
    | with_reducible assumption
    | (simp (decide := true) (maxDischargeDepth := 200) only [↓Keeps.next, ↓Keeps.endsIte, ↓Keeps.refl, ↓Keeps.ite,
      ↓Keeps.mk, ↓State.put_keeps, ↓State.latchCause_keeps, ↓State.powerUp_keeps, ↓State.resumed_keeps,
      ↓State.fresh_snd, or_true, true_or, eq_self, *]; done)
    | (split <;>
        (rename_i e
         refine Keeps.cut (State.fresh_out (by with_reducible exact e) ?_ (by decide)) (fun _ => ?_) <;> clear e))
    | (with_reducible refine State.put_keeps _ _ _ ?_ (by decide))
    | (with_reducible refine State.latchCause_keeps _ _ ?_ (by decide))
    | (with_reducible refine State.powerUp_keeps _ ?_ (by decide))
    | (with_reducible refine State.resumed_keeps _ ?_ (by decide))
    | (with_reducible refine State.fresh_snd _ ?_ (by decide))
    | split

theorem State.collide_keeps (s : State) (reason : Nat) {μ : Nat} {σ : State} (hk : Keeps μ σ s) (hm : within?
    0x4000000000000000000000000000060001000000000000000000000000000000D100000000000000000000000000000000000000000000000000000000000000000000000000000000000000000000000000000000000000000000000000000000000080C0
    μ = true) : Keeps μ σ (State.collide s reason) := by
  refine hk.lift hm ?_
  unfold State.collide
  repeat' first
    | (extract_lets +onlyGivenNames u
       first
       | (refine Keeps.cut (u := u) ?_ (fun _ => ?_); subst u; on_goal 2 => clear_value u)
       | (have h := @id (_ → _) u; clear h; subst u)
       | clear_value u)
    | with_reducible assumption
    | (simp (decide := true) (maxDischargeDepth := 200) only [↓Keeps.refl, ↓Keeps.ite, ↓Keeps.mk, ↓State.put_keeps,
      ↓State.inc_keeps, ↓State.resumed_keeps, or_true, true_or, eq_self, *]; done)
    | split

theorem State.driveWake_keeps (s : State) (reason : Nat) {μ : Nat} {σ : State} (hk : Keeps μ σ s) (hm : within?
    0x8000000000000000000000000000000000000000000000000000000000000000000000000000000000000000000000000000000000000000000000000000000000000000A0
    μ = true) : Keeps μ σ (State.driveWake s reason) := by
  refine hk.lift hm ?_
  unfold State.driveWake
  repeat' first
    | (extract_lets +onlyGivenNames u
       first
       | (refine Keeps.cut (u := u) ?_ (fun _ => ?_); subst u; on_goal 2 => clear_value u)
       | (have h := @id (_ → _) u; clear h; subst u)
       | clear_value u)
    | with_reducible assumption
    | (simp (decide := true) (maxDischargeDepth := 200) only [↓Keeps.refl, ↓Keeps.ite, ↓Keeps.mk, ↓State.put_keeps,
      or_true, true_or, eq_self, *]; done)
    | split

theorem State.attempt_keeps (s : State) (reason : Nat) (lineHigh : Bool) {μ : Nat} {σ : State} (hk : Keeps μ σ s) (hm
    : within?
    0x4000000000000000000000000000060001000000000000000000000000000000D100000000000000000000000000000000000000000000000000000000000000000000000000000000000000000000000000000000000000000000000000000000000080E0
    μ = true) : Keeps μ σ (State.attempt s reason lineHigh) := by
  refine hk.lift hm ?_
  unfold State.attempt
  repeat' first
    | (extract_lets +onlyGivenNames u
       first
       | (refine Keeps.cut (u := u) ?_ (fun _ => ?_); subst u; on_goal 2 => clear_value u)
       | (have h := @id (_ → _) u; clear h; subst u)
       | clear_value u)
    | with_reducible assumption
    | (simp (decide := true) (maxDischargeDepth := 200) only [↓Keeps.refl, ↓Keeps.ite, ↓Keeps.mk,
      ↓State.driveWake_keeps, ↓State.collide_keeps, or_true, true_or, eq_self, *]; done)
    | split

theorem execRemoteWakeAttempt_keeps (reason : Nat) (lineHigh : Bool) (s : State) : Ends (Keeps
    0x4000000000000000000000000000060001000000000000000000000000000000D100000000000000000000000000000000000000000000000000000000000000000000000000000000000000000000000000000000000000000000000000000000000080E0
    s) (execRemoteWakeAttempt reason lineHigh s) := by
  unfold execRemoteWakeAttempt
  refine Ends.next ?_
  repeat' first
    | (extract_lets +onlyGivenNames u
       first
       | (refine Keeps.cut (u := u) ?_ (fun _ => ?_); subst u; on_goal 2 => clear_value u)
       | (have h := @id (_ → _) u; clear h; subst u)
       | clear_value u)
    | with_reducible assumption
    | (simp (decide := true) (maxDischargeDepth := 200) only [↓Keeps.next, ↓Keeps.endsIte, ↓Keeps.refl, ↓Keeps.ite,
      ↓Keeps.mk, ↓State.attempt_keeps, or_true, true_or, eq_self, *]; done)
    | split

theorem execRemoteWakeSample_keeps (lineHigh : Bool) (s : State) : Ends (Keeps
    0x4000000000000000000000000000060001000000000000000000000000000000D100000000000000000000000000000000000000000000000000000000000000000000000000000000000000000000000000000000000000000000000000000000000080E0
    s) (execRemoteWakeSample lineHigh s) := by
  unfold execRemoteWakeSample
  refine Ends.next ?_
  repeat' first
    | (extract_lets +onlyGivenNames u
       first
       | (refine Keeps.cut (u := u) ?_ (fun _ => ?_); subst u; on_goal 2 => clear_value u)
       | (have h := @id (_ → _) u; clear h; subst u)
       | clear_value u)
    | with_reducible assumption
    | (simp (decide := true) (maxDischargeDepth := 200) only [↓Keeps.next, ↓Keeps.endsIte, ↓Keeps.refl, ↓Keeps.ite,
      ↓Keeps.mk, ↓State.inc_keeps, ↓State.putBit_keeps, ↓State.put_keeps, ↓State.collide_keeps, or_true, true_or,
      eq_self, *]; done)
    | split

theorem execRemoteWakeRetry_keeps (lineHigh : Bool) (s : State) : Ends (Keeps
    0x4000000000000000000000000000060001000000000000000000000000000000D100000000000000000000000000000000000000000000000000000000000000000000000000000000000000000000000000000000000000000000000000000000000080E0
    s) (execRemoteWakeRetry lineHigh s) := by
  unfold execRemoteWakeRetry
  refine Ends.next ?_
  repeat' first
    | (extract_lets +onlyGivenNames u
       first
       | (refine Keeps.cut (u := u) ?_ (fun _ => ?_); subst u; on_goal 2 => clear_value u)
       | (have h := @id (_ → _) u; clear h; subst u)
       | clear_value u)
    | with_reducible assumption
    | (simp (decide := true) (maxDischargeDepth := 200) only [↓Keeps.next, ↓Keeps.endsIte, ↓Keeps.refl, ↓Keeps.ite,
      ↓Keeps.mk, ↓State.driveWake_keeps, ↓State.collide_keeps, or_true, true_or, eq_self, *]; done)
    | split

theorem execWakeNStuck_keeps (s : State) : Ends (Keeps
    0xC00000000000000000000000000000000000000000000000000000000000020000000000000000000000000000000000000000000000000000000000000000000000002081
    s) (execWakeNStuck s) := by
  unfold execWakeNStuck
  refine Ends.next ?_
  repeat' first
    | (extract_lets +onlyGivenNames u
       first
       | (refine Keeps.cut (u := u) ?_ (fun _ => ?_); subst u; on_goal 2 => clear_value u)
       | (have h := @id (_ → _) u; clear h; subst u)
       | clear_value u)
    | with_reducible assumption
    | (simp (decide := true) (maxDischargeDepth := 200) only [↓Keeps.next, ↓Keeps.endsIte, ↓Keeps.refl, ↓Keeps.ite,
      ↓Keeps.mk, ↓State.raise1_keeps, ↓State.put_keeps, or_true, true_or, eq_self, *]; done)
    | split

theorem execWakeNReleased_keeps (s : State) : Ends (Keeps
    0x4000000000000000000000000000060001000000000000000000000000000000D100000000000000000000000000000000000000000000000000000000000000000000000000000000000000000000000000000000000000000000000000000000000080E0
    s) (execWakeNReleased s) := by
  unfold execWakeNReleased
  refine Ends.next ?_
  repeat' first
    | (extract_lets +onlyGivenNames u
       first
       | (refine Keeps.cut (u := u) ?_ (fun _ => ?_); subst u; on_goal 2 => clear_value u)
       | (have h := @id (_ → _) u; clear h; subst u)
       | clear_value u)
    | with_reducible assumption
    | (simp (decide := true) (maxDischargeDepth := 200) only [↓Keeps.next, ↓Keeps.endsIte, ↓Keeps.refl, ↓Keeps.ite,
      ↓Keeps.mk, ↓State.put_keeps, ↓State.attempt_keeps, or_true, true_or, eq_self, *]; done)
    | split

theorem State.regAccess_keeps (s : State) {μ : Nat} {σ : State} (hk : Keeps μ σ s) (hm : within?
    0x400000000000000000000000000000000000000000000000000000000000020000000000000000000000000000000000000000000000000000000000000000000000002081
    μ = true) : Keeps μ σ (State.regAccess s) := by
  refine hk.lift hm ?_
  unfold State.regAccess
  repeat' first
    | (extract_lets +onlyGivenNames u
       first
       | (refine Keeps.cut (u := u) ?_ (fun _ => ?_); subst u; on_goal 2 => clear_value u)
       | (have h := @id (_ → _) u; clear h; subst u)
       | clear_value u)
    | with_reducible assumption
    | (simp (decide := true) (maxDischargeDepth := 200) only [↓Keeps.refl, ↓Keeps.ite, ↓Keeps.mk, ↓State.raise1_keeps,
      or_true, true_or, eq_self, *]; done)
    | split

theorem State.clearPend_keeps (s : State) {μ : Nat} {σ : State} (hk : Keeps μ σ s) (hm : within?
    0x400000000000000000000000000000000000000000000000000000000000000000000000000000000000000000000000000000000000000000000000000000000000000080
    μ = true) : Keeps μ σ (State.clearPend s) := by
  refine hk.lift hm ?_
  unfold State.clearPend
  repeat' first
    | (extract_lets +onlyGivenNames u
       first
       | (refine Keeps.cut (u := u) ?_ (fun _ => ?_); subst u; on_goal 2 => clear_value u)
       | (have h := @id (_ → _) u; clear h; subst u)
       | clear_value u)
    | with_reducible assumption
    | (simp (decide := true) (maxDischargeDepth := 200) only [↓Keeps.refl, ↓Keeps.ite, ↓Keeps.mk, ↓State.put_keeps,
      or_true, true_or, eq_self, *]; done)
    | split

theorem State.failOps_keeps (s : State) {μ : Nat} {σ : State} (hk : Keeps μ σ s) (hm : within? 0x2000 μ = true) :
    Keeps μ σ (State.failOps s) := by
  refine hk.lift hm ?_
  unfold State.failOps
  repeat' first
    | (extract_lets +onlyGivenNames u
       first
       | (refine Keeps.cut (u := u) ?_ (fun _ => ?_); subst u; on_goal 2 => clear_value u)
       | (have h := @id (_ → _) u; clear h; subst u)
       | clear_value u)
    | with_reducible assumption
    | (simp (decide := true) (maxDischargeDepth := 200) only [↓Keeps.refl, ↓Keeps.ite, ↓Keeps.mk,
      ↓State.outcome_keeps, implies_true, or_true, true_or, eq_self, *]; done)
    | (with_reducible refine State.eachFn_keeps _ _ _ ?_ (fun _ _ => ?_) <;> beta_reduce)
    | (with_reducible refine State.outcome_keeps _ _ _ _ ?_ (by decide))
    | split

theorem execReservoirBrownout_keeps (s : State) : Ends (Keeps
    0x100000000000000000000000000000000000000000000000000000000000182C10000000000000000000000000000000200000000000000000000000000004080000000000000000000000000000040800000000000000000000F000001818FF100000000000000000000000000000600000000000000000000000000000000210000000000000000FFFFFFFF002007FD000000000000000001FFFFFF0001300300000000000000000000000000000001000000000000000000000000000000010000000000000000000000000001010900000000000000000000000000020000000000000000000000000000000000000000000000000000000000000000000E0000000000000000000000000000000000000000000000000000000000000000000000000000000000000000000000000000000000000000000000000000004100000000000000000000000000060001000000000000000000000000000000410000000000000000000000000000000100000000002000000602000000030008FFFFFFFFFFFFFFFFFFFFFFFFFFFFFFFFFFFFFFFFFFFFFFFFFFFFFFFFFF7DFFF117EFFFC5
    s) (execReservoirBrownout s) := by
  unfold execReservoirBrownout
  refine Ends.next ?_
  repeat' first
    | (extract_lets +onlyGivenNames u
       first
       | (refine Keeps.cut (u := u) ?_ (fun _ => ?_); subst u; on_goal 2 => clear_value u)
       | (have h := @id (_ → _) u; clear h; subst u)
       | clear_value u)
    | with_reducible assumption
    | (simp (decide := true) (maxDischargeDepth := 200) only [↓Keeps.next, ↓Keeps.endsIte, ↓Keeps.refl, ↓Keeps.ite,
      ↓Keeps.mk, ↓State.endActivities_keeps, ↓State.raise1_keeps, ↓State.chgState_keeps, ↓State.bootEntry_keeps,
      ↓State.coreLost_keeps, ↓State.delayWake_keeps, ↓State.coreStop_keeps, ↓State.probeCut_keeps,
      ↓State.failOps_keeps, ↓State.showMaintain_keeps, ↓State.enterRest_keeps, or_true, true_or, eq_self, *]; done)
    | split

end Sys2Proof.Machine
end

