-- ==== Sys2Proof/Laws/KeepsImages.lean ====
section
/-! SUPPORT. What each operation of Machine/Images.lean may change, and that it keeps the canonical form. -/

set_option Elab.async false

set_option linter.unusedSimpArgs false
set_option linter.unusedTactic false
set_option linter.unreachableTactic false

namespace Sys2Proof.Machine

open R

theorem State.imgRevoke_keeps (s : State) (f : Fn) (i : Nat) {μ : Nat} {σ : State} (hk : Keeps μ σ s) (hm : within?
    0x4000000000000000000000000000000000000000000000000000000000000000000000000000000000000000000000000000000000000000000000000000000000000000000000000000000000000000000000000000000000000000000000000000020000000000000000000000000000000000000000000000000000000000000000000000400
    μ = true) : Keeps μ σ (State.imgRevoke s f i) := by
  refine hk.lift hm ?_
  unfold State.imgRevoke
  repeat' first
    | (extract_lets +onlyGivenNames u
       first
       | (refine Keeps.cut (u := u) ?_ (fun _ => ?_); subst u; on_goal 2 => clear_value u)
       | (have h := @id (_ → _) u; clear h; subst u)
       | clear_value u)
    | with_reducible assumption
    | (simp (decide := true) (maxDischargeDepth := 200) only [↓Keeps.refl, ↓Keeps.ite, ↓Keeps.mk, ↓State.setErr_keeps,
      ↓State.put_keeps, or_true, true_or, eq_self, *]; done)
    | split

theorem execFuseProgramDone_keeps (ok : Bool) (s : State) : Ends (Keeps
    0x4000000000000000000000000000000000000040000000000000000000000000000000000000000000000000000000000000000000000000000000000000000000000000000000000000000000000000000000000000000000000000600000000000000000000000000000000000000000000000000000000000000000000000000000010002400
    s) (execFuseProgramDone ok s) := by
  unfold execFuseProgramDone
  refine Ends.next ?_
  repeat' first
    | (extract_lets +onlyGivenNames u
       first
       | (refine Keeps.cut (u := u) ?_ (fun _ => ?_); subst u; on_goal 2 => clear_value u)
       | (have h := @id (_ → _) u; clear h; subst u)
       | clear_value u)
    | with_reducible assumption
    | (simp (decide := true) (maxDischargeDepth := 200) only [↓Keeps.next, ↓Keeps.endsIte, ↓Keeps.refl, ↓Keeps.ite,
      ↓Keeps.mk, ↓State.chargeOpen_keeps, ↓State.put_keeps, or_true, true_or, eq_self, *]; done)
    | split

theorem State.imgPref_keeps (s : State) (slot : Nat) (once : Bool) {μ : Nat} {σ : State} (hk : Keeps μ σ s) (hm :
    within?
    0x1000000000000000000000000000000000000000000000000000000000000000000000000000000000000000000000000000000000000000000000000000000000000000000000000000000000000000000000000000000000000000000000000000000000000000000000000000000000000000000000000000000000000000000000000000400
    μ = true) : Keeps μ σ (State.imgPref s slot once) := by
  refine hk.lift hm ?_
  unfold State.imgPref
  repeat' first
    | (extract_lets +onlyGivenNames u
       first
       | (refine Keeps.cut (u := u) ?_ (fun _ => ?_); subst u; on_goal 2 => clear_value u)
       | (have h := @id (_ → _) u; clear h; subst u)
       | clear_value u)
    | with_reducible assumption
    | (simp (decide := true) (maxDischargeDepth := 200) only [↓Keeps.refl, ↓Keeps.ite, ↓Keeps.mk, ↓State.putBit_keeps,
      ↓State.put_keeps, or_true, true_or, eq_self, *]; done)
    | split

theorem State.showStage_keeps (s : State) (st result : Nat) {μ : Nat} {σ : State} (hk : Keeps μ σ s) (hm : within?
    0x8000000000000000000000000000000000000000000000000000000000000000000000000000000000000000000000000000000000000000000000000000000000000000000000000000000000000000000000000000000000000000000000000000000000000000000000000000000000000000000000000000000000000000000000000000000
    μ = true) : Keeps μ σ (State.showStage s st result) := by
  refine hk.lift hm ?_
  unfold State.showStage
  repeat' first
    | (extract_lets +onlyGivenNames u
       first
       | (refine Keeps.cut (u := u) ?_ (fun _ => ?_); subst u; on_goal 2 => clear_value u)
       | (have h := @id (_ → _) u; clear h; subst u)
       | clear_value u)
    | with_reducible assumption
    | (simp (decide := true) (maxDischargeDepth := 200) only [↓Keeps.refl, ↓Keeps.ite, ↓Keeps.mk, ↓State.put_keeps,
      or_true, true_or, eq_self, *]; done)
    | split

theorem State.eraseAt_keeps (s : State) (a : Nat) {μ : Nat} {σ : State} (hk : Keeps μ σ s) (hm : within? 0x4 μ = true)
    : Keeps μ σ (State.eraseAt s a) := by
  refine hk.lift hm ?_
  unfold State.eraseAt
  repeat' first
    | (extract_lets +onlyGivenNames u
       first
       | (refine Keeps.cut (u := u) ?_ (fun _ => ?_); subst u; on_goal 2 => clear_value u)
       | (have h := @id (_ → _) u; clear h; subst u)
       | clear_value u)
    | with_reducible assumption
    | (simp (decide := true) (maxDischargeDepth := 200) only [↓Keeps.refl, ↓Keeps.ite, ↓Keeps.mk,
      ↓State.dropMem_keeps, or_true, true_or, eq_self, *]; done)
    | split

theorem State.programAt_keeps (s : State) (dst src : Nat) {μ : Nat} {σ : State} (hk : Keeps μ σ s) (hm : within? 0x4 μ
    = true) : Keeps μ σ (State.programAt s dst src) := by
  refine hk.lift hm ?_
  unfold State.programAt
  repeat' first
    | (extract_lets +onlyGivenNames u
       first
       | (refine Keeps.cut (u := u) ?_ (fun _ => ?_); subst u; on_goal 2 => clear_value u)
       | (have h := @id (_ → _) u; clear h; subst u)
       | clear_value u)
    | with_reducible assumption
    | (simp (decide := true) (maxDischargeDepth := 200) only [↓Keeps.refl, ↓Keeps.ite, ↓Keeps.mk,
      ↓State.setBytes_keeps, ↓State.eraseAt_keeps, or_true, true_or, eq_self, *]; done)
    | split

theorem State.stageStart_keeps (s : State) (target : Nat) (win auto : Bool) (src : Nat × Nat) (total next : Nat) {μ :
    Nat} {σ : State} (hk : Keeps μ σ s) (hm : within?
    0x18000000000000000000000000000000000000000000000000000000000000000000000000000000000000000000000000000000000000000000000000000000000000010000000000000000000000000000000000000000000000000000000000000000000000000000000000000000000000000000000000000000000000000000000004000444
    μ = true) : Keeps μ σ (State.stageStart s target win auto src total next) := by
  refine hk.lift hm ?_
  unfold State.stageStart
  repeat' first
    | (extract_lets +onlyGivenNames u
       first
       | (refine Keeps.cut (u := u) ?_ (fun _ => ?_); subst u; on_goal 2 => clear_value u)
       | (have h := @id (_ → _) u; clear h; subst u)
       | clear_value u)
    | with_reducible assumption
    | (simp (decide := true) (maxDischargeDepth := 200) only [↓Keeps.refl, ↓Keeps.ite, ↓Keeps.mk,
      ↓State.eraseAt_keeps, ↓State.ledgerCopy_keeps, ↓State.showStage_keeps, ↓State.put_keeps,
      ↓State.showMaintain_keeps, or_true, true_or, eq_self, *]; done)
    | split

theorem State.stageRefuse_keeps (s : State) (target result fault : Nat) (win : Bool) {μ : Nat} {σ : State} (hk : Keeps
    μ σ s) (hm : within?
    0x18000000000000000000000000000000000000000000000000000000000000000000000000000000000000000000000000000000000000000000000000000000000000000000000000000000000000000000000000000000000000000000000000000000000000000000000000000000000000000000000000000000000000000000000000000000
    μ = true) : Keeps μ σ (State.stageRefuse s target result fault win) := by
  refine hk.lift hm ?_
  unfold State.stageRefuse
  repeat' first
    | (extract_lets +onlyGivenNames u
       first
       | (refine Keeps.cut (u := u) ?_ (fun _ => ?_); subst u; on_goal 2 => clear_value u)
       | (have h := @id (_ → _) u; clear h; subst u)
       | clear_value u)
    | with_reducible assumption
    | (simp (decide := true) (maxDischargeDepth := 200) only [↓Keeps.refl, ↓Keeps.ite, ↓Keeps.mk,
      ↓State.showStage_keeps, ↓State.put_keeps, or_true, true_or, eq_self, *]; done)
    | split

theorem State.stageObject_snd (s : State) (stream id target minVer : Nat) (force auto : Bool) {μ : Nat} {σ : State}
    (hk : Keeps μ σ s) (hm : within?
    0x18000000000000000000000000000000000000000000000000000000000000000000000000000000000000000000000000000000000000000000000000000000000000010000000000000000000000000000000000000000000000000000000000000000000000000000000000000000000000000000000000000000000000000000000004000444
    μ = true) : Keeps μ σ (State.stageObject s stream id target minVer force auto).2 := by
  refine hk.lift hm ?_
  unfold State.stageObject
  repeat' first
    | (extract_lets +onlyGivenNames u
       first
       | (refine Keeps.cut (u := u) ?_ (fun _ => ?_); subst u; on_goal 2 => clear_value u)
       | (have h := @id (_ → _) u; clear h; subst u)
       | clear_value u)
    | with_reducible assumption
    | (simp (decide := true) (maxDischargeDepth := 200) only [↓Keeps.refl, ↓Keeps.ite, ↓Keeps.mk,
      ↓State.stageRefuse_keeps, ↓State.stageStart_keeps, or_true, true_or, eq_self, *]; done)
    | split
    | dsimp (zeta := false) only

theorem State.stageObject_out {s u : State} {stream id target minVer : Nat} {force auto : Bool} {r : Nat} (e :
    State.stageObject s stream id target minVer force auto = (r, u)) {μ : Nat} {σ : State} (hk : Keeps μ σ s) (hm :
    within?
    0x18000000000000000000000000000000000000000000000000000000000000000000000000000000000000000000000000000000000000000000000000000000000000010000000000000000000000000000000000000000000000000000000000000000000000000000000000000000000000000000000000000000000000000000000004000444
    μ = true) : Keeps μ σ u := by
  have h := State.stageObject_snd s stream id target minVer force auto hk hm
  rw [e] at h
  exact h

theorem State.stageWindow_snd (s : State) (target minVer : Nat) (force : Bool) {μ : Nat} {σ : State} (hk : Keeps μ σ
    s) (hm : within?
    0x38000000000000000000000000000000000000000000000000000000000000000000000000000000000000000000000000000000000000000000000000000000000000010000000000000000000000000000000000000000000000000000000000000000000000000000000000000000000000000000000000000000000000000000000004000444
    μ = true) : Keeps μ σ (State.stageWindow s target minVer force).2 := by
  refine hk.lift hm ?_
  unfold State.stageWindow
  repeat' first
    | (extract_lets +onlyGivenNames u
       first
       | (refine Keeps.cut (u := u) ?_ (fun _ => ?_); subst u; on_goal 2 => clear_value u)
       | (have h := @id (_ → _) u; clear h; subst u)
       | clear_value u)
    | with_reducible assumption
    | (simp (decide := true) (maxDischargeDepth := 200) only [↓Keeps.refl, ↓Keeps.ite, ↓Keeps.mk,
      ↓State.stageRefuse_keeps, ↓State.put_keeps, ↓State.stageStart_keeps, or_true, true_or, eq_self, *]; done)
    | split
    | dsimp (zeta := false) only

theorem State.stageWindow_out {s u : State} {target minVer : Nat} {force : Bool} {r : Nat} (e : State.stageWindow s
    target minVer force = (r, u)) {μ : Nat} {σ : State} (hk : Keeps μ σ s) (hm : within?
    0x38000000000000000000000000000000000000000000000000000000000000000000000000000000000000000000000000000000000000000000000000000000000000010000000000000000000000000000000000000000000000000000000000000000000000000000000000000000000000000000000000000000000000000000000004000444
    μ = true) : Keeps μ σ u := by
  have h := State.stageWindow_snd s target minVer force hk hm
  rw [e] at h
  exact h

theorem execImgStageCommit_keeps (f : Fn) (s : State) : Ends (Keeps
    0x38000000000000000000000000000000000000000000000000000000000000000000000000000000000000000000000000000000000000000000000000000000000000010000000000000000000000000000000000000000000000000000000000000000000000000000000000000000000000000000000000000000000000000000000004002444
    s) (execImgStageCommit f s) := by
  unfold execImgStageCommit
  refine Ends.next ?_
  repeat' first
    | (extract_lets +onlyGivenNames u
       first
       | (refine Keeps.cut (u := u) ?_ (fun _ => ?_); subst u; on_goal 2 => clear_value u)
       | (have h := @id (_ → _) u; clear h; subst u)
       | clear_value u)
    | with_reducible assumption
    | (simp (decide := true) (maxDischargeDepth := 200) only [↓Keeps.next, ↓Keeps.endsIte, ↓Keeps.refl, ↓Keeps.ite,
      ↓Keeps.mk, ↓State.outcome_keeps, ↓State.stageObject_snd, ↓State.stageWindow_snd, implies_true, or_true, true_or,
      eq_self, *]; done)
    | (split <;>
        (rename_i e
         refine Keeps.cut (State.stageObject_out (by with_reducible exact e) ?_ (by decide)) (fun _ => ?_) <;> clear e))
    | (split <;>
        (rename_i e
         refine Keeps.cut (State.stageWindow_out (by with_reducible exact e) ?_ (by decide)) (fun _ => ?_) <;> clear e))
    | (with_reducible refine State.withOp_keeps _ _ _ _ ?_ (fun _ => ?_) <;> beta_reduce)
    | (with_reducible refine State.outcome_keeps _ _ _ _ ?_ (by decide))
    | (with_reducible refine State.stageObject_snd _ _ _ _ _ _ _ ?_ (by decide))
    | (with_reducible refine State.stageWindow_snd _ _ _ _ ?_ (by decide))
    | split

theorem State.autoStart_keeps (s : State) (stream obj : Nat) {μ : Nat} {σ : State} (hk : Keeps μ σ s) (hm : within?
    0x18000000000000000000000000000000000000000000000000000000000000000000000000000000000000000000000000000000000000000000000000000000000000010000000000000000000000000000000000000000000000000000000000000000000000000000000000000000000000000000000000000000000000000000000004000444
    μ = true) : Keeps μ σ (State.autoStart s stream obj) := by
  refine hk.lift hm ?_
  unfold State.autoStart
  repeat' first
    | (extract_lets +onlyGivenNames u
       first
       | (refine Keeps.cut (u := u) ?_ (fun _ => ?_); subst u; on_goal 2 => clear_value u)
       | (have h := @id (_ → _) u; clear h; subst u)
       | clear_value u)
    | with_reducible assumption
    | (simp (decide := true) (maxDischargeDepth := 200) only [↓Keeps.refl, ↓Keeps.ite, ↓Keeps.mk,
      ↓State.stageObject_snd, or_true, true_or, eq_self, *]; done)
    | (split <;>
        (rename_i e
         refine Keeps.cut (State.stageObject_out (by with_reducible exact e) ?_ (by decide)) (fun _ => ?_) <;> clear e))
    | (with_reducible refine State.stageObject_snd _ _ _ _ _ _ _ ?_ (by decide))
    | split

theorem State.startHeld_keeps (s : State) {μ : Nat} {σ : State} (hk : Keeps μ σ s) (hm : within?
    0x18000000000000000000000000000000000000000000000000000000000000000000000000000000000000000000000000000000000000000000000000000000000000010000000000000000000000000000000000000000000000000000000000000000000000000000000000000000000000000000000000000000000000000000000004000444
    μ = true) : Keeps μ σ (State.startHeld s) := by
  refine hk.lift hm ?_
  unfold State.startHeld
  repeat' first
    | (extract_lets +onlyGivenNames u
       first
       | (refine Keeps.cut (u := u) ?_ (fun _ => ?_); subst u; on_goal 2 => clear_value u)
       | (have h := @id (_ → _) u; clear h; subst u)
       | clear_value u)
    | with_reducible assumption
    | (simp (decide := true) (maxDischargeDepth := 200) only [↓Keeps.refl, ↓Keeps.ite, ↓Keeps.mk,
      ↓State.autoStart_keeps, or_true, true_or, eq_self, *]; done)
    | split

theorem execAutoStage_keeps (stream obj : Nat) (s : State) : Ends (Keeps
    0x18000000000000000000000000000000000000000000000000000000000000000000000000000000000000000000000000000000000000000000000000000000000000010000000000000000000000000000000000000000000000000000000000000000000000000000000000000000000000000000000000000000000000000000000004000444
    s) (execAutoStage stream obj s) := by
  unfold execAutoStage
  refine Ends.next ?_
  repeat' first
    | (extract_lets +onlyGivenNames u
       first
       | (refine Keeps.cut (u := u) ?_ (fun _ => ?_); subst u; on_goal 2 => clear_value u)
       | (have h := @id (_ → _) u; clear h; subst u)
       | clear_value u)
    | with_reducible assumption
    | (simp (decide := true) (maxDischargeDepth := 200) only [↓Keeps.next, ↓Keeps.endsIte, ↓Keeps.refl, ↓Keeps.ite,
      ↓Keeps.mk, ↓State.autoStart_keeps, or_true, true_or, eq_self, *]; done)
    | split

theorem State.stageEnd_keeps (s : State) (result : Nat) {μ : Nat} {σ : State} (hk : Keeps μ σ s) (hm : within?
    0xF000001800FF10000000000000000000000000000000000000000000000000000000000000000000000000000000000000000000000000000000000000000000000000000000000000000000000000000000000000000000000000000000000000000000000000000000000000000000000000000000000000000000000000000000000000000000000000000000000000000000000000000000000000000000000000000000000000000000000000000000000000000000000000000000000000000180000000000000000000000000000000000000000000000000000000000000000000000000000000000000000000000000000000000000000000000000000000000004100000000000000000000000000000000000000000000000006000000000200000000000000000000000000000000000000000000000000000000000000000000142024C5
    μ = true) : Keeps μ σ (State.stageEnd s result) := by
  refine hk.lift hm ?_
  unfold State.stageEnd
  repeat' first
    | (extract_lets +onlyGivenNames u
       first
       | (refine Keeps.cut (u := u) ?_ (fun _ => ?_); subst u; on_goal 2 => clear_value u)
       | (have h := @id (_ → _) u; clear h; subst u)
       | clear_value u)
    | with_reducible assumption
    | (simp (decide := true) (maxDischargeDepth := 200) only [↓Keeps.refl, ↓Keeps.ite, ↓Keeps.mk,
      ↓State.noteFlash_keeps, ↓State.showStage_keeps, ↓State.startHeld_keeps, ↓State.showMaintain_keeps,
      ↓State.reapStaged_keeps, ↓State.chargeOpen_keeps, ↓State.raise1_keeps, or_true, true_or, eq_self, *]; done)
    | split

theorem State.stageFail_keeps (s : State) (result : Nat) {μ : Nat} {σ : State} (hk : Keeps μ σ s) (hm : within?
    0xF000001800FF10000000000000000000000000000000000000000000000000000000000000000000000000000000000000000000000000000000000000000000000000000000000000000000000000000000000000000000000000000000000000000000000000000000000000000000000000000000000000000000000000000000000000000000000000000000000000000000000000000000000000000000000000000000000000000000000000000000000000000000000000000000000000000181F1F000000000000000000000000000000000000000000000000000000000000000000000000000000000000000000000000000000000000000000000000000000004100000000000000000000000000000000000000000000000006000000000200000000000000000000000000000000000000000000000000000000000000000000142024C5
    μ = true) : Keeps μ σ (State.stageFail s result) := by
  refine hk.lift hm ?_
  unfold State.stageFail
  repeat' first
    | (extract_lets +onlyGivenNames u
       first
       | (refine Keeps.cut (u := u) ?_ (fun _ => ?_); subst u; on_goal 2 => clear_value u)
       | (have h := @id (_ → _) u; clear h; subst u)
       | clear_value u)
    | with_reducible assumption
    | (simp (decide := true) (maxDischargeDepth := 200) only [↓Keeps.refl, ↓Keeps.ite, ↓Keeps.mk,
      ↓State.stageEnd_keeps, ↓State.showSlot_keeps, ↓State.eraseAt_keeps, or_true, true_or, eq_self, *]; done)
    | split

theorem State.windowProgrammed_keeps (s : State) (ok : Bool) {μ : Nat} {σ : State} (hk : Keeps μ σ s) (hm : within?
    0x38000000000000000000000000000000000000000000000000000000000000000000000000000000000000000000000000000000000000000000000000000000000000010000000000000000000000000000000000000000000000000000000000000000000000000000000000000000000000000000000000000000000000000000000004000444
    μ = true) : Keeps μ σ (State.windowProgrammed s ok) := by
  refine hk.lift hm ?_
  unfold State.windowProgrammed
  repeat' first
    | (extract_lets +onlyGivenNames u
       first
       | (refine Keeps.cut (u := u) ?_ (fun _ => ?_); subst u; on_goal 2 => clear_value u)
       | (have h := @id (_ → _) u; clear h; subst u)
       | clear_value u)
    | with_reducible assumption
    | (simp (decide := true) (maxDischargeDepth := 200) only [↓Keeps.refl, ↓Keeps.ite, ↓Keeps.mk,
      ↓State.programAt_keeps, ↓State.put_keeps, ↓State.showMaintain_keeps, ↓State.startHeld_keeps,
      ↓State.noteFlash_keeps, or_true, true_or, eq_self, *]; done)
    | split

theorem execStagingSectorWritten_keeps (ok : Bool) (s : State) : Ends (Keeps
    0xF000001800FF10000000000000000000000000000000000000000000000000000000000000000000000000000000000000000000000000000000000000000000000000000000000000000000000000000000000000000000000000000000000000000000000000000000000000000000000000000000000000000000000000000000000000000000000000000000000000000000000000000000000000000000000000000000000000000000000000000000000000000000000000000000000000000381F1F000000000000000000000000000000000000000000000000000000000000000000000000000000000000000000000000000000000000000000000000000000004100000000000000000000000000000000000000000000000006000000000200000000000000000000000000000000000000000000000000000000000000000000142024C5
    s) (execStagingSectorWritten ok s) := by
  unfold execStagingSectorWritten
  refine Ends.next ?_
  repeat' first
    | (extract_lets +onlyGivenNames u
       first
       | (refine Keeps.cut (u := u) ?_ (fun _ => ?_); subst u; on_goal 2 => clear_value u)
       | (have h := @id (_ → _) u; clear h; subst u)
       | clear_value u)
    | with_reducible assumption
    | (simp (decide := true) (maxDischargeDepth := 200) only [↓Keeps.next, ↓Keeps.endsIte, ↓Keeps.refl, ↓Keeps.ite,
      ↓Keeps.mk, ↓State.stageFail_keeps, ↓State.programAt_keeps, ↓State.inc_keeps, ↓State.windowProgrammed_keeps,
      or_true, true_or, eq_self, *]; done)
    | split

theorem execStagingReadbackDone_keeps (ok : Bool) (s : State) : Ends (Keeps
    0xF000001800FF10000000000000000000000000000000000000000000000000000000000000000000000000000000000000000000000000000000000000000000000000000000000000000000000000000000000000000000000000000000000000000000000000000000000000000000000000000000000000000000000000000000000000000000000000000000000000000000000000000000000000000000000000000000000000000000000000000000000000000000000000000000000000000181F1F000000000000000000000000000000000000000000000000000000000000000000000000000000000000000000000000000000000000000000000000000000004100000000000000000000000000000000000000000000000006000000000200000000000000000000000000000000000000000000000000000000000000000000142024C5
    s) (execStagingReadbackDone ok s) := by
  unfold execStagingReadbackDone
  refine Ends.next ?_
  repeat' first
    | (extract_lets +onlyGivenNames u
       first
       | (refine Keeps.cut (u := u) ?_ (fun _ => ?_); subst u; on_goal 2 => clear_value u)
       | (have h := @id (_ → _) u; clear h; subst u)
       | clear_value u)
    | with_reducible assumption
    | (simp (decide := true) (maxDischargeDepth := 200) only [↓Keeps.next, ↓Keeps.endsIte, ↓Keeps.refl, ↓Keeps.ite,
      ↓Keeps.mk, ↓State.stageFail_keeps, ↓State.inc_keeps, ↓State.programAt_keeps, ↓State.stageEnd_keeps,
      ↓State.showSlot_keeps, or_true, true_or, eq_self, *]; done)
    | split

theorem execStagingPause_keeps (s : State) : Ends (Keeps
    0x8000000000000000000000000000000000000000000000000000000000000000000000000000000000000000000000000000000000000000000000000000000000000000000000000000000000000000000000000000000000000000000000000000000000000000000000000000000000000000000000000000000000000000000000000000000
    s) (execStagingPause s) := by
  unfold execStagingPause
  refine Ends.next ?_
  repeat' first
    | (extract_lets +onlyGivenNames u
       first
       | (refine Keeps.cut (u := u) ?_ (fun _ => ?_); subst u; on_goal 2 => clear_value u)
       | (have h := @id (_ → _) u; clear h; subst u)
       | clear_value u)
    | with_reducible assumption
    | (simp (decide := true) (maxDischargeDepth := 200) only [↓Keeps.next, ↓Keeps.endsIte, ↓Keeps.refl, ↓Keeps.ite,
      ↓Keeps.mk, ↓State.put_keeps, or_true, true_or, eq_self, *]; done)
    | split

theorem execStagingResume_keeps (s : State) : Ends (Keeps
    0x8000000000000000000000000000000000000000000000000000000000000000000000000000000000000000000000000000000000000000000000000000000000000000000000000000000000000000000000000000000000000000000000000000000000000000000000000000000000000000000000000000000000000000000000000000000
    s) (execStagingResume s) := by
  unfold execStagingResume
  refine Ends.next ?_
  repeat' first
    | (extract_lets +onlyGivenNames u
       first
       | (refine Keeps.cut (u := u) ?_ (fun _ => ?_); subst u; on_goal 2 => clear_value u)
       | (have h := @id (_ → _) u; clear h; subst u)
       | clear_value u)
    | with_reducible assumption
    | (simp (decide := true) (maxDischargeDepth := 200) only [↓Keeps.next, ↓Keeps.endsIte, ↓Keeps.refl, ↓Keeps.ite,
      ↓Keeps.mk, ↓State.put_keeps, or_true, true_or, eq_self, *]; done)
    | split

theorem execStagingJournalResume_keeps (s : State) : Ends (Keeps
    0xF000001800FF10000000000000000000000000000000000000000000000000000000000000000000000000000000000000000000000000000000000000000000000000000000000000000000000000000000000000000000000000000000000000000000000000000000000000000000000000000000000000000000000000000000000000000000000000000000000000000000000000000000000000000000000000000000000000000000000000000000000000000000000000000000000000000181F1F000000000000000000000000000000000000000000000000000000000000000000000000000000000000000000000000000000000000000000000000000000004100000000000000000000000000000000000000000000000006000000000200000000000000000000000000000000000000000000000000000000000000000000142024C5
    s) (execStagingJournalResume s) := by
  unfold execStagingJournalResume
  refine Ends.next ?_
  repeat' first
    | (extract_lets +onlyGivenNames u
       first
       | (refine Keeps.cut (u := u) ?_ (fun _ => ?_); subst u; on_goal 2 => clear_value u)
       | (have h := @id (_ → _) u; clear h; subst u)
       | clear_value u)
    | with_reducible assumption
    | (simp (decide := true) (maxDischargeDepth := 200) only [↓Keeps.next, ↓Keeps.endsIte, ↓Keeps.refl, ↓Keeps.ite,
      ↓Keeps.mk, ↓State.put_keeps, ↓State.showMaintain_keeps, ↓State.showStage_keeps, ↓State.stageFail_keeps, or_true,
      true_or, eq_self, *]; done)
    | split

theorem execHostLoadBegin_keeps (f : Fn) (s : State) : Ends (Keeps
    0xE01F1F00000000000000000000000000000000000000000000000000000000000000000000000000000000000000000000000000000000000000000000000000000000000000000000000000000000000000000000000000000000000000000000000000000000000000000000000000000000000000000000000000000000000000000004002444
    s) (execHostLoadBegin f s) := by
  unfold execHostLoadBegin
  refine Ends.next ?_
  repeat' first
    | (extract_lets +onlyGivenNames u
       first
       | (refine Keeps.cut (u := u) ?_ (fun _ => ?_); subst u; on_goal 2 => clear_value u)
       | (have h := @id (_ → _) u; clear h; subst u)
       | clear_value u)
    | with_reducible assumption
    | (simp (decide := true) (maxDischargeDepth := 200) only [↓Keeps.next, ↓Keeps.endsIte, ↓Keeps.refl, ↓Keeps.ite,
      ↓Keeps.mk, ↓State.outcome_keeps, ↓State.showSlot_keeps, ↓State.eraseAt_keeps, ↓State.ledgerCopy_keeps,
      ↓State.dropMem_keeps, ↓State.put32_keeps, ↓State.put_keeps, implies_true, or_true, true_or, eq_self, *]; done)
    | (with_reducible refine State.withOp_keeps _ _ _ _ ?_ (fun _ => ?_) <;> beta_reduce)
    | (with_reducible refine State.outcome_keeps _ _ _ _ ?_ (by decide))
    | (with_reducible refine State.showSlot_keeps _ _ _ _ ?_ (by decide))
    | (with_reducible refine State.eraseAt_keeps _ _ ?_ (by decide))
    | (with_reducible refine State.ledgerCopy_keeps _ ?_ (by decide))
    | (with_reducible refine State.dropMem_keeps _ _ ?_ (by decide))
    | (with_reducible refine State.put32_keeps _ _ _ ?_ (by decide) (by decide))
    | (with_reducible refine State.put_keeps _ _ _ ?_ (by decide))
    | split

theorem State.windowDrop_keeps (s : State) (result : Nat) {μ : Nat} {σ : State} (hk : Keeps μ σ s) (hm : within?
    0x38000000000000000000000000000000000000000000000000000000000000000000000000000000000000000000000000000000000000000000000000000000000000010000000000000000000000000000000000000000000000000000000000000000000000000000000000000000000000000000000000000000000000000000000004000444
    μ = true) : Keeps μ σ (State.windowDrop s result) := by
  refine hk.lift hm ?_
  unfold State.windowDrop
  repeat' first
    | (extract_lets +onlyGivenNames u
       first
       | (refine Keeps.cut (u := u) ?_ (fun _ => ?_); subst u; on_goal 2 => clear_value u)
       | (have h := @id (_ → _) u; clear h; subst u)
       | clear_value u)
    | with_reducible assumption
    | (simp (decide := true) (maxDischargeDepth := 200) only [↓Keeps.refl, ↓Keeps.ite, ↓Keeps.mk,
      ↓State.dropMem_keeps, ↓State.startHeld_keeps, ↓State.showMaintain_keeps, ↓State.put_keeps, or_true, true_or,
      eq_self, *]; done)
    | split

theorem State.windowWrite_snd (s : State) (f : Fn) (off : Nat) (w : Word) {μ : Nat} {σ : State} (hk : Keeps μ σ s) (hm
    : within?
    0xF8000000000000000000000000000000000000000000000000000000000000000000000000000000000000000000000000000000000000000000000000000000000000010000000000000000000000000000000000000000000000000000000000000020000000000000000000000000000000000000000000000000000000000000000004000444
    μ = true) : Keeps μ σ (State.windowWrite s f off w).2 := by
  refine hk.lift hm ?_
  unfold State.windowWrite
  repeat' first
    | (extract_lets +onlyGivenNames u
       first
       | (refine Keeps.cut (u := u) ?_ (fun _ => ?_); subst u; on_goal 2 => clear_value u)
       | (have h := @id (_ → _) u; clear h; subst u)
       | clear_value u)
    | with_reducible assumption
    | (simp (decide := true) (maxDischargeDepth := 200) only [↓Keeps.refl, ↓Keeps.ite, ↓Keeps.mk, ↓State.setErr_keeps,
      ↓State.windowDrop_keeps, ↓State.setBytes_keeps, ↓State.put32_keeps, ↓State.showMaintain_keeps, ↓State.put_keeps,
      or_true, true_or, eq_self, *]; done)
    | split
    | dsimp (zeta := false) only

theorem State.windowWrite_out {s u : State} {f : Fn} {off : Nat} {w : Word} {r : Bool} (e : State.windowWrite s f off
    w = (r, u)) {μ : Nat} {σ : State} (hk : Keeps μ σ s) (hm : within?
    0xF8000000000000000000000000000000000000000000000000000000000000000000000000000000000000000000000000000000000000000000000000000000000000010000000000000000000000000000000000000000000000000000000000000020000000000000000000000000000000000000000000000000000000000000000004000444
    μ = true) : Keeps μ σ u := by
  have h := State.windowWrite_snd s f off w hk hm
  rw [e] at h
  exact h

theorem execImageWindowVerifyDone_keeps (s : State) : Ends (Keeps
    0x38000010000000000000000000000000000000000000000000000000000000000000000100000000000000000000000000000000000000000000000000000000000000010000000000000000000000000000000000000000000000000000000000000000000000000000000000000000000000000000000000000000000000000000000004000544
    s) (execImageWindowVerifyDone s) := by
  unfold execImageWindowVerifyDone
  refine Ends.next ?_
  repeat' first
    | (extract_lets +onlyGivenNames u
       first
       | (refine Keeps.cut (u := u) ?_ (fun _ => ?_); subst u; on_goal 2 => clear_value u)
       | (have h := @id (_ → _) u; clear h; subst u)
       | clear_value u)
    | with_reducible assumption
    | (simp (decide := true) (maxDischargeDepth := 200) only [↓Keeps.next, ↓Keeps.endsIte, ↓Keeps.refl, ↓Keeps.ite,
      ↓Keeps.mk, ↓State.windowDrop_keeps, ↓State.put_keeps, ↓State.pikaStart_keeps, or_true, true_or, eq_self,
      *]; done)
    | split

theorem execImageWindowIdle_keeps (s : State) : Ends (Keeps
    0x38000000000000000000000000000000000000000000000000000000000000000000000000000000000000000000000000000000000000000000000000000000000000010000000000000000000000000000000000000000000000000000000000000000000000000000000000000000000000000000000000000000000000000000000004000444
    s) (execImageWindowIdle s) := by
  unfold execImageWindowIdle
  refine Ends.next ?_
  repeat' first
    | (extract_lets +onlyGivenNames u
       first
       | (refine Keeps.cut (u := u) ?_ (fun _ => ?_); subst u; on_goal 2 => clear_value u)
       | (have h := @id (_ → _) u; clear h; subst u)
       | clear_value u)
    | with_reducible assumption
    | (simp (decide := true) (maxDischargeDepth := 200) only [↓Keeps.next, ↓Keeps.endsIte, ↓Keeps.refl, ↓Keeps.ite,
      ↓Keeps.mk, ↓State.windowDrop_keeps, or_true, true_or, eq_self, *]; done)
    | split

end Sys2Proof.Machine
end

