-- ==== Sys2Proof/Laws/KeepsFunctions.lean ====
section
/-! SUPPORT. What each operation of Machine/Functions.lean may change, and that it keeps the canonical form. -/

set_option Elab.async false

set_option linter.unusedSimpArgs false
set_option linter.unusedTactic false
set_option linter.unreachableTactic false

namespace Sys2Proof.Machine

open R

theorem State.attnCancel_keeps (s : State) (f : Fn) {μ : Nat} {σ : State} (hk : Keeps μ σ s) (hm : within?
    0x4000000000000000000000000000000000000000000000000000000000000000000000000000000000000000000000000000000000000000000000000000000000000000000000000000000000000000000000000000000000000000000000000000000000000000000000000000000000000000000000000000000000000000080000000000000000000000000000000000000000000000000000000000000000000003000
    μ = true) : Keeps μ σ (State.attnCancel s f) := by
  refine hk.lift hm ?_
  unfold State.attnCancel
  repeat' first
    | (extract_lets +onlyGivenNames u
       first
       | (refine Keeps.cut (u := u) ?_ (fun _ => ?_); subst u; on_goal 2 => clear_value u)
       | (have h := @id (_ → _) u; clear h; subst u)
       | clear_value u)
    | with_reducible assumption
    | (simp (decide := true) (maxDischargeDepth := 200) only [↓Keeps.refl, ↓Keeps.ite, ↓Keeps.mk,
      ↓State.attnWithdraw_keeps, or_true, true_or, eq_self, *]; done)
    | split

theorem State.showFreset_keeps (s : State) (f : Fn) (b : Bool) {μ : Nat} {σ : State} (hk : Keeps μ σ s) (hm : within?
    0x1000000000000000000000000000000000000000000000000000000000000000000000000000000000000000000000000000000000000000000000000000000000000000000000000000000000000000000000000000000000000000000000000000000000000000000000000000000000000000000000000000000000000000000000000000000000000000000000000000000000000000000000000000000000000000000000000000000000000000000000000
    μ = true) : Keeps μ σ (State.showFreset s f b) := by
  refine hk.lift hm ?_
  unfold State.showFreset
  repeat' first
    | (extract_lets +onlyGivenNames u
       first
       | (refine Keeps.cut (u := u) ?_ (fun _ => ?_); subst u; on_goal 2 => clear_value u)
       | (have h := @id (_ → _) u; clear h; subst u)
       | clear_value u)
    | with_reducible assumption
    | (simp (decide := true) (maxDischargeDepth := 200) only [↓Keeps.refl, ↓Keeps.ite, ↓Keeps.mk, ↓State.putBit_keeps,
      or_true, true_or, eq_self, *]; done)
    | split

theorem State.resetStart_keeps (s : State) (writer f : Fn) {μ : Nat} {σ : State} (hk : Keeps μ σ s) (hm : within?
    0x1000000000000000000000000000000010000000000000000000000000000000000000000000000000000000000000000000000000000000000000000000000000000000000000000000000000000000000000000000000000000000000000040000000000000000000000000000600010000000000000000000000000000001100000000000000000000000000000000000000000000000000220000000000280000000000000000000000000000000000000000000000000000000000000000000080C0
    μ = true) : Keeps μ σ (State.resetStart s writer f) := by
  refine hk.lift hm ?_
  unfold State.resetStart
  repeat' first
    | (extract_lets +onlyGivenNames u
       first
       | (refine Keeps.cut (u := u) ?_ (fun _ => ?_); subst u; on_goal 2 => clear_value u)
       | (have h := @id (_ → _) u; clear h; subst u)
       | clear_value u)
    | with_reducible assumption
    | (simp (decide := true) (maxDischargeDepth := 200) only [↓Keeps.refl, ↓Keeps.ite, ↓Keeps.mk, ↓State.setErr_keeps,
      ↓State.serviceWake_keeps, ↓State.admitDrop_keeps, ↓State.showFreset_keeps, ↓State.fput_keeps, regIn_on, or_true,
      true_or, eq_self, *]; done)
    | split

theorem State.captDisown_keeps (s : State) (f : Fn) {μ : Nat} {σ : State} (hk : Keeps μ σ s) (hm : within?
    0x182C100000000000000000000000000000002000000000000000000000000000040800000000000000000000000000000408000000000000000000000000000000000000000000000000000000000000006000000000000000000000000000000000000000000000000000000000000000000000000000000000000000000000000000000000000000000000000000000000000000000000000000000000000000000000000000000000000000000000000000000000000000000000000000000000000000000000000000000000000000000000000000000000000000000000000000000000000000000000000000000000000000000000000000000000000000000000000000000000000000000000000000000000000000000000000000000000000000000000000000000000000000000000000000000000000000000000000410000000000000000000000000000000000000000002000000600000000010000000000000000000000000000000000000000000000000000000000000000000011C0A085
    μ = true) : Keeps μ σ (State.captDisown s f) := by
  refine hk.lift hm ?_
  unfold State.captDisown
  repeat' first
    | (extract_lets +onlyGivenNames u
       first
       | (refine Keeps.cut (u := u) ?_ (fun _ => ?_); subst u; on_goal 2 => clear_value u)
       | (have h := @id (_ → _) u; clear h; subst u)
       | clear_value u)
    | with_reducible assumption
    | (simp (decide := true) (maxDischargeDepth := 200) only [↓Keeps.refl, ↓Keeps.ite, ↓Keeps.mk,
      ↓State.captEnd_keeps, ↓State.putBit_keeps, or_true, true_or, eq_self, *]; done)
    | split

theorem State.zeroCommon_keeps (s : State) (f : Fn) (off n : Nat) {μ : Nat} {σ : State} (hk : Keeps μ σ s)
    (hx : ∀ i < n, comIn μ (off + i) = true) : Keeps μ σ (s.zeroRegs (Fld.on ⟨off, 15, 0⟩ f.toNat).key n) := by
  refine State.zeroRegs_keeps _ _ _ hk (fun i hi => ?_)
  have h := regIn_on μ f ⟨off + i, 15, 0⟩
  rw [hx i hi] at h
  rw [← h]
  simp only [Fld.on, commonKey, Nat.add_assoc]

/-- Forgetting counters and latches. -/

theorem State.forget_keeps (s : State) (p q : Nat → Bool) {μ : Nat} {σ : State} (hk : Keeps μ σ s)
    (hm : within? 0x3 μ = true) :
    Keeps μ σ { s with cnts := Sparse.drop p s.cnts, latches := Sparse.drop q s.latches } := by
  refine hk.lift hm ⟨fun hc => ⟨hc.1, Sparse.wf_drop _ _ hc.2.1, Sparse.wf_drop _ _ hc.2.2.1, hc.2.2.2⟩, rfl, rfl,
    fun _ _ => rfl, fun a ha => ?_⟩
  cases a
  case counters => exact absurd ha (by decide)
  case latches => exact absurd ha (by decide)
  all_goals first | exact trivial | rfl

theorem State.clearMailbox_keeps (s : State) (f : Fn) {μ : Nat} {σ : State} (hk : Keeps μ σ s) (hm : within?
    0x80000000000000000000000000000000000000000000000000000000000000000000000000000000000000000000000000000000000000000000000000000000000000100000000000000000000000000000000000000000000000000001F7F00000000000000000000000000000000000000000000000000000000000000000000000000002000 μ = true) : Keeps μ σ
    (State.clearMailbox s f) := by
  refine hk.lift hm ?_
  unfold State.clearMailbox
  repeat' first
    | (extract_lets +onlyGivenNames u
       first
       | (refine Keeps.cut (u := u) ?_ (fun _ => ?_); subst u; on_goal 2 => clear_value u)
       | (have h := @id (_ → _) u; clear h; subst u)
       | clear_value u)
    | with_reducible assumption
    | (simp (decide := true) (maxDischargeDepth := 200) only [↓State.put_keeps, ↓State.showMaintain_keeps, ↓Keeps.refl, ↓Keeps.ite, ↓Keeps.mk,
      ↓State.setEng_keeps, ↓State.fput_keeps, ↓State.zeroRegs_keeps, ↓State.zeroCommon_keeps, or_true, true_or,
      eq_self, regIn_on, *]; done)
    | split

theorem State.clearFn_keeps (s : State) (f : Fn) {μ : Nat} {σ : State} (hk : Keeps μ σ s) (hm : within?
    0x50000000000000000000000000000000000000000000000000000000000000000000000000000000000000000000000000000000000000000000000000000000000000000000000000000000000000000000000000000000000000000000000000000000000000000000000000000000000800000770024000000000000003F00A0000000000000000000000000000000000000000000000000000000000000000000003003
    μ = true) : Keeps μ σ (State.clearFn s f) := by
  refine hk.lift hm ?_
  unfold State.clearFn
  repeat' first
    | (extract_lets +onlyGivenNames u
       first
       | (refine Keeps.cut (u := u) ?_ (fun _ => ?_); subst u; on_goal 2 => clear_value u)
       | (have h := @id (_ → _) u; clear h; subst u)
       | clear_value u)
    | with_reducible assumption
    | (simp (decide := true) (maxDischargeDepth := 200) only [↓Keeps.refl, ↓Keeps.ite, ↓Keeps.mk,
      ↓State.zeroRegs_keeps, ↓State.attnCancel_keeps, ↓State.setErr_keeps, ↓State.fput_keeps,
      ↓State.flushQueue_keeps, ↓State.setEng_keeps, ↓State.zeroCommon_keeps, ↓State.forget_keeps, or_true, true_or,
      eq_self, regIn_on, *]; done)

theorem execFnResetDone_keeps (f : Fn) (s : State) : Ends (Keeps
    0x182C10000000000000000000000000000000200000000000000000000000000004080000000000000000000000000000040800000000000000000000000000001800000000000000000000000000000000600000000000000000000000000000000210000000000000000FFFFFFFF002007FD000000000000000001FFFFFF0001300300000000000000000000000000000000000000000000000000000000000000010000000000000000000000000000010900000000000000000000000000024001000000000000000000000000000000010000000000000000000000000000050000000000000000000000000000000000000000000000000000000000080000000000000000000000000000000000000000000000000000000000000000000000000000000000000000000000000000010000000000000000000000000000004100000000000000000000000000000001800000770024000007A21F7F003F00A8000000000000000000000000000000000000000000000000000000000000000011EFF0C7
    s) (execFnResetDone f s) := by
  unfold execFnResetDone
  refine Ends.next ?_
  repeat' first
    | (extract_lets +onlyGivenNames u
       first
       | (refine Keeps.cut (u := u) ?_ (fun _ => ?_); subst u; on_goal 2 => clear_value u)
       | (have h := @id (_ → _) u; clear h; subst u)
       | clear_value u)
    | with_reducible assumption
    | (simp (decide := true) (maxDischargeDepth := 200) only [↓Keeps.next, ↓Keeps.endsIte, ↓Keeps.refl, ↓Keeps.ite,
      ↓Keeps.mk, ↓State.endListen_keeps, ↓State.captDisown_keeps, ↓State.fput_keeps, ↓State.withdrawAll_keeps,
      ↓State.clearFn_keeps, ↓State.clearMailbox_keeps, ↓State.raise0_keeps, ↓State.showFreset_keeps,
      ↓State.releaseHeld_keeps, regIn_on, or_true, true_or, eq_self, *]; done)
    | split

theorem State.partLock_keeps (s : State) {μ : Nat} {σ : State} (hk : Keeps μ σ s) (hm : within?
    0x1000000000000000000000000000000000000000000000000000000000000000000000000000000000000000000000000000000000000000000000000000000000000000000000000000000000000000000000000000000000000000000000000000000000000000000000000000000000000000000000000000000000000000000000000000000000000000000000008000000000000000000000000000000000000000000000000000000000000000000000000
    μ = true) : Keeps μ σ (State.partLock s) := by
  refine hk.lift hm ?_
  unfold State.partLock
  repeat' first
    | (extract_lets +onlyGivenNames u
       first
       | (refine Keeps.cut (u := u) ?_ (fun _ => ?_); subst u; on_goal 2 => clear_value u)
       | (have h := @id (_ → _) u; clear h; subst u)
       | clear_value u)
    | with_reducible assumption
    | (simp (decide := true) (maxDischargeDepth := 200) only [↓Keeps.refl, ↓Keeps.ite, ↓Keeps.mk, ↓State.putAll_keeps,
      ↓State.put_keeps, regIn_on, or_true, true_or, eq_self, *]; done)
    | split

theorem State.emptyQueue_keeps (s : State) (f : Fn) {μ : Nat} {σ : State} (hk : Keeps μ σ s) (hm : within?
    0x400000000000000000000000000000000000000000002000000000000000010000000000000000000000000000000000000000000000000000000000000000000000002081
    μ = true) : Keeps μ σ (State.emptyQueue s f) := by
  refine hk.lift hm ?_
  unfold State.emptyQueue
  repeat' first
    | (extract_lets +onlyGivenNames u
       first
       | (refine Keeps.cut (u := u) ?_ (fun _ => ?_); subst u; on_goal 2 => clear_value u)
       | (have h := @id (_ → _) u; clear h; subst u)
       | clear_value u)
    | with_reducible assumption
    | (simp (decide := true) (maxDischargeDepth := 200) only [↓Keeps.refl, ↓Keeps.ite, ↓Keeps.mk,
      ↓State.flushQueue_keeps, ↓State.setEng_keeps, ↓State.raise0_keeps, ↓State.putSat_keeps, regIn_on, or_true,
      true_or, eq_self, *]; done)
    | split

theorem State.partDq_keeps (s : State) (v : Nat) {μ : Nat} {σ : State} (hk : Keeps μ σ s) (hm : within?
    0x800000000000000000000000000000000000000000000000000000000000000000000000000000000000000000000000000000000000000000000000000000000000000000000000000000000000000000000000000000000000000000000000000000000000000000000000000000000400000000000000000000000000000000000000000002000000000000000010000000000000000000000000000000000000000000000000000000000000000000000002081
    μ = true) : Keeps μ σ (State.partDq s v) := by
  refine hk.lift hm ?_
  unfold State.partDq
  repeat' first
    | (extract_lets +onlyGivenNames u
       first
       | (refine Keeps.cut (u := u) ?_ (fun _ => ?_); subst u; on_goal 2 => clear_value u)
       | (have h := @id (_ → _) u; clear h; subst u)
       | clear_value u)
    | with_reducible assumption
    | (simp (decide := true) (maxDischargeDepth := 200) only [↓Keeps.refl, ↓Keeps.ite, ↓Keeps.mk, ↓State.put_keeps,
      ↓State.emptyQueue_keeps, implies_true, or_true, true_or, eq_self, *]; done)
    | (with_reducible refine State.eachFn_keeps _ _ _ ?_ (fun _ _ => ?_) <;> beta_reduce)
    | (with_reducible refine State.put_keeps _ _ _ ?_ (by decide))
    | (with_reducible refine State.emptyQueue_keeps _ _ ?_ (by decide))
    | split

theorem State.selftestBegin_keeps (s : State) (f : Fn) {μ : Nat} {σ : State} (hk : Keeps μ σ s) (hm : within?
    0x10000000000000000000000000000000000000000000000000000000000000000000000000000000000000000000000000000000000000000000000000000000004002000
    μ = true) : Keeps μ σ (State.selftestBegin s f) := by
  refine hk.lift hm ?_
  unfold State.selftestBegin
  repeat' first
    | (extract_lets +onlyGivenNames u
       first
       | (refine Keeps.cut (u := u) ?_ (fun _ => ?_); subst u; on_goal 2 => clear_value u)
       | (have h := @id (_ → _) u; clear h; subst u)
       | clear_value u)
    | with_reducible assumption
    | (simp (decide := true) (maxDischargeDepth := 200) only [↓Keeps.refl, ↓Keeps.ite, ↓Keeps.mk,
      ↓State.outcome_keeps, ↓State.showMaintain_keeps, or_true, true_or, eq_self, *]; done)
    | split

theorem State.flintJoin_keeps (s : State) (f : Fn) (code : Nat) {μ : Nat} {σ : State} (hk : Keeps μ σ s) (hm : within?
    0x200 μ = true) : Keeps μ σ (State.flintJoin s f code) := by
  refine hk.lift hm ?_
  unfold State.flintJoin
  repeat' first
    | (extract_lets +onlyGivenNames u
       first
       | (refine Keeps.cut (u := u) ?_ (fun _ => ?_); subst u; on_goal 2 => clear_value u)
       | (have h := @id (_ → _) u; clear h; subst u)
       | clear_value u)
    | with_reducible assumption
    | (simp (decide := true) (maxDischargeDepth := 200) only [↓Keeps.refl, ↓Keeps.ite, ↓Keeps.mk, or_true, true_or,
      eq_self, *]; done)
    | split

theorem State.cmdGo_keeps (s : State) (f : Fn) {μ : Nat} {σ : State} (hk : Keeps μ σ s) (hm : within?
    0x80000000000000000000000000000000000000000000000000000000000000000000040000000000000000000000000000600010000000000000000000000000000005100000000000000000000000000000000000000000000000000001F000001002000000000000000000000000000000000000000000000000000000000000000000400A2C1
    μ = true) : Keeps μ σ (State.cmdGo s f) := by
  refine hk.lift hm ?_
  unfold State.cmdGo
  repeat' first
    | (extract_lets +onlyGivenNames u
       first
       | (refine Keeps.cut (u := u) ?_ (fun _ => ?_); subst u; on_goal 2 => clear_value u)
       | (have h := @id (_ → _) u; clear h; subst u)
       | clear_value u)
    | with_reducible assumption
    | (simp (decide := true) (maxDischargeDepth := 200) only [↓Keeps.refl, ↓Keeps.ite, ↓Keeps.mk, ↓State.setErr_keeps,
      ↓State.fput_keeps, ↓State.finishOp_keeps, ↓State.setEng_keeps, ↓State.showStage_keeps,
      ↓State.selftestBegin_keeps, ↓State.flintJoin_keeps, ↓State.serviceWake_keeps, regIn_on, or_true, true_or,
      eq_self, *]; done)
    | split

theorem execCmdDone_keeps (f : Fn) (s : State) : Ends (Keeps
    0x4000000000000000000000000000000000000000000000000000001F0000010020000000000000000000000000000000000000000000000000000000000000000000002081
    s) (execCmdDone f s) := by
  unfold execCmdDone
  refine Ends.next ?_
  repeat' first
    | (extract_lets +onlyGivenNames u
       first
       | (refine Keeps.cut (u := u) ?_ (fun _ => ?_); subst u; on_goal 2 => clear_value u)
       | (have h := @id (_ → _) u; clear h; subst u)
       | clear_value u)
    | with_reducible assumption
    | (simp (decide := true) (maxDischargeDepth := 200) only [↓Keeps.next, ↓Keeps.endsIte, ↓Keeps.refl, ↓Keeps.ite,
      ↓Keeps.mk, ↓State.finishOp_keeps, or_true, true_or, eq_self, *]; done)
    | split

theorem execOpTimeout_keeps (f : Fn) (s : State) : Ends (Keeps
    0x80000000000000000000000000000000000000000000000000000000000000000000000000000000000000000000000000000000000000000000000000000000000004100000000000000000000000000000000000000000000000000001F0000010020000000000000000000000000000000000000000000000000000000000000000000002081
    s) (execOpTimeout f s) := by
  unfold execOpTimeout
  refine Ends.next ?_
  repeat' first
    | (extract_lets +onlyGivenNames u
       first
       | (refine Keeps.cut (u := u) ?_ (fun _ => ?_); subst u; on_goal 2 => clear_value u)
       | (have h := @id (_ → _) u; clear h; subst u)
       | clear_value u)
    | with_reducible assumption
    | (simp (decide := true) (maxDischargeDepth := 200) only [↓Keeps.next, ↓Keeps.endsIte, ↓Keeps.refl, ↓Keeps.ite,
      ↓Keeps.mk, ↓State.showMaintain_keeps, ↓State.outcome_keeps, ↓State.put_keeps, ↓State.finishOp_keeps, or_true,
      true_or, eq_self, *]; done)
    | split

theorem execNop_keeps (f : Fn) (s : State) : Ends (Keeps 0x2000 s) (execNop f s) := by
  unfold execNop
  refine Ends.next ?_
  repeat' first
    | (extract_lets +onlyGivenNames u
       first
       | (refine Keeps.cut (u := u) ?_ (fun _ => ?_); subst u; on_goal 2 => clear_value u)
       | (have h := @id (_ → _) u; clear h; subst u)
       | clear_value u)
    | with_reducible assumption
    | (simp (decide := true) (maxDischargeDepth := 200) only [↓Keeps.next, ↓Keeps.endsIte, ↓Keeps.refl, ↓Keeps.ite,
      ↓Keeps.mk, ↓State.outcome_keeps, implies_true, or_true, true_or, eq_self, *]; done)
    | (with_reducible refine State.withOp_keeps _ _ _ _ ?_ (fun _ => ?_) <;> beta_reduce)
    | (with_reducible refine State.outcome_keeps _ _ _ _ ?_ (by decide))
    | split

theorem State.dqRead_snd (s : State) (f : Fn) {μ : Nat} {σ : State} (hk : Keeps μ σ s) (hm : within? 0x2000 μ = true)
    : Keeps μ σ (State.dqRead s f).2 := by
  refine hk.lift hm ?_
  unfold State.dqRead
  repeat' first
    | (extract_lets +onlyGivenNames u
       first
       | (refine Keeps.cut (u := u) ?_ (fun _ => ?_); subst u; on_goal 2 => clear_value u)
       | (have h := @id (_ → _) u; clear h; subst u)
       | clear_value u)
    | with_reducible assumption
    | (simp (decide := true) (maxDischargeDepth := 200) only [↓Keeps.refl, ↓Keeps.ite, ↓Keeps.mk, ↓State.setEng_keeps,
      or_true, true_or, eq_self, *]; done)
    | split
    | dsimp (zeta := false) only

theorem State.dqRead_out {s u : State} {f : Fn} {r : Word} (e : State.dqRead s f = (r, u)) {μ : Nat} {σ : State} (hk :
    Keeps μ σ s) (hm : within? 0x2000 μ = true) : Keeps μ σ u := by
  have h := State.dqRead_snd s f hk hm
  rw [e] at h
  exact h

theorem State.setMemAddr_keeps (s : State) (f : Fn) (a : Nat) {μ : Nat} {σ : State} (hk : Keeps μ σ s) (hm : within?
    0x60000000000000000000000000000000000000000000000000000000000000000000000000000000000000000000002000 μ = true) :
    Keeps μ σ (State.setMemAddr s f a) := by
  refine hk.lift hm ?_
  unfold State.setMemAddr
  repeat' first
    | (extract_lets +onlyGivenNames u
       first
       | (refine Keeps.cut (u := u) ?_ (fun _ => ?_); subst u; on_goal 2 => clear_value u)
       | (have h := @id (_ → _) u; clear h; subst u)
       | clear_value u)
    | with_reducible assumption
    | (simp (decide := true) (maxDischargeDepth := 200) only [↓Keeps.refl, ↓Keeps.ite, ↓Keeps.mk, ↓State.setEng_keeps,
      ↓State.fput_keeps, regIn_on, or_true, true_or, eq_self, *]; done)
    | split

theorem State.memNext_keeps (s : State) (f : Fn) {μ : Nat} {σ : State} (hk : Keeps μ σ s) (hm : within?
    0x60000000000000000000000000000000000000000000000000000000000000000000000000000000000000000000002000 μ = true) :
    Keeps μ σ (State.memNext s f) := by
  refine hk.lift hm ?_
  unfold State.memNext
  repeat' first
    | (extract_lets +onlyGivenNames u
       first
       | (refine Keeps.cut (u := u) ?_ (fun _ => ?_); subst u; on_goal 2 => clear_value u)
       | (have h := @id (_ → _) u; clear h; subst u)
       | clear_value u)
    | with_reducible assumption
    | (simp (decide := true) (maxDischargeDepth := 200) only [↓Keeps.refl, ↓Keeps.ite, ↓Keeps.mk,
      ↓State.setMemAddr_keeps, or_true, true_or, eq_self, *]; done)
    | split

theorem State.memFault_keeps (s : State) (f : Fn) (r : Region) {μ : Nat} {σ : State} (hk : Keeps μ σ s) (hm : within?
    0x10000000000000000000000020000000000000000000000000000000000000000000000000000000000000000000000000 μ = true) :
    Keeps μ σ (State.memFault s f r) := by
  refine hk.lift hm ?_
  unfold State.memFault
  repeat' first
    | (extract_lets +onlyGivenNames u
       first
       | (refine Keeps.cut (u := u) ?_ (fun _ => ?_); subst u; on_goal 2 => clear_value u)
       | (have h := @id (_ → _) u; clear h; subst u)
       | clear_value u)
    | with_reducible assumption
    | (simp (decide := true) (maxDischargeDepth := 200) only [↓Keeps.refl, ↓Keeps.ite, ↓Keeps.mk, ↓State.setErr_keeps,
      ↓State.fput_keeps, regIn_on, or_true, true_or, eq_self, *]; done)
    | split

theorem State.memRead_snd (s : State) (f : Fn) (qspiTo : Bool) {μ : Nat} {σ : State} (hk : Keeps μ σ s) (hm : within?
    0x70000000000000000000000020000000000000000000000000000000000000000000000000000000000000000004002000 μ = true) :
    Keeps μ σ (State.memRead s f qspiTo).2 := by
  refine hk.lift hm ?_
  unfold State.memRead
  repeat' first
    | (extract_lets +onlyGivenNames u
       first
       | (refine Keeps.cut (u := u) ?_ (fun _ => ?_); subst u; on_goal 2 => clear_value u)
       | (have h := @id (_ → _) u; clear h; subst u)
       | clear_value u)
    | with_reducible assumption
    | (simp (decide := true) (maxDischargeDepth := 200) only [↓Keeps.refl, ↓Keeps.ite, ↓Keeps.mk, ↓State.setErr_keeps,
      ↓State.memFault_keeps, ↓State.noteFlash_keeps, ↓State.fput_keeps, ↓State.memNext_keeps, regIn_on, or_true,
      true_or, eq_self, *]; done)
    | split
    | dsimp (zeta := false) only

theorem State.memRead_out {s u : State} {f : Fn} {qspiTo : Bool} {r : Word} (e : State.memRead s f qspiTo = (r, u)) {μ
    : Nat} {σ : State} (hk : Keeps μ σ s) (hm : within?
    0x70000000000000000000000020000000000000000000000000000000000000000000000000000000000000000004002000 μ = true) :
    Keeps μ σ u := by
  have h := State.memRead_snd s f qspiTo hk hm
  rw [e] at h
  exact h

theorem State.memWrite_keeps (s : State) (f : Fn) (w : Word) {μ : Nat} {σ : State} (hk : Keeps μ σ s) (hm : within?
    0xF8000000000000000000000000000000000000000000000000000000000000000000000000000000000000000000000000000000000000000000000000000000000000010000000000000000000000000000000000000070000000000000000000000020000000000000000000000000000000000000000000000000000000000000000004002444
    μ = true) : Keeps μ σ (State.memWrite s f w) := by
  refine hk.lift hm ?_
  unfold State.memWrite
  repeat' first
    | (extract_lets +onlyGivenNames u
       first
       | (refine Keeps.cut (u := u) ?_ (fun _ => ?_); subst u; on_goal 2 => clear_value u)
       | (have h := @id (_ → _) u; clear h; subst u)
       | clear_value u)
    | with_reducible assumption
    | (simp (decide := true) (maxDischargeDepth := 200) only [↓Keeps.refl, ↓Keeps.ite, ↓Keeps.mk, ↓State.setErr_keeps,
      ↓State.memFault_keeps, ↓State.windowWrite_snd, ↓State.memNext_keeps, ↓State.setBytes_keeps, or_true, true_or,
      eq_self, *]; done)
    | (split <;>
        (rename_i e
         refine Keeps.cut (State.windowWrite_out (by with_reducible exact e) ?_ (by decide)) (fun _ => ?_) <;> clear e))
    | (with_reducible refine State.setErr_keeps _ _ _ ?_ (by decide))
    | (with_reducible refine State.memFault_keeps _ _ _ ?_ (by decide))
    | (with_reducible refine State.windowWrite_snd _ _ _ _ ?_ (by decide))
    | (with_reducible refine State.memNext_keeps _ _ ?_ (by decide))
    | (with_reducible refine State.setBytes_keeps _ _ _ ?_ (by decide))
    | split

theorem State.memAddrWrite_keeps (s : State) (f : Fn) (v : Nat) {μ : Nat} {σ : State} (hk : Keeps μ σ s) (hm : within?
    0x62000000000000000000000000000000000000000000000000000000000000000000000000000000000000000000002000 μ = true) :
    Keeps μ σ (State.memAddrWrite s f v) := by
  refine hk.lift hm ?_
  unfold State.memAddrWrite
  repeat' first
    | (extract_lets +onlyGivenNames u
       first
       | (refine Keeps.cut (u := u) ?_ (fun _ => ?_); subst u; on_goal 2 => clear_value u)
       | (have h := @id (_ → _) u; clear h; subst u)
       | clear_value u)
    | with_reducible assumption
    | (simp (decide := true) (maxDischargeDepth := 200) only [↓Keeps.refl, ↓Keeps.ite, ↓Keeps.mk, ↓State.fput_keeps,
      ↓State.setMemAddr_keeps, regIn_on, or_true, true_or, eq_self, *]; done)
    | split

end Sys2Proof.Machine
end

