-- ==== Sys2Proof/Laws/KeepsTwin.lean ====
section
/-! SUPPORT. What each operation of Machine/Twin.lean may change, and that it keeps the canonical form. -/

set_option Elab.async false

set_option linter.unusedSimpArgs false
set_option linter.unusedTactic false
set_option linter.unreachableTactic false

namespace Sys2Proof.Machine

open R

theorem State.skipStest_keeps (s : State) {μ : Nat} {σ : State} (hk : Keeps μ σ s) (hm : within? 0x2000000 μ = true) :
    Keeps μ σ (State.skipStest s) := by
  refine hk.lift hm ?_
  unfold State.skipStest
  repeat' first
    | (extract_lets +onlyGivenNames u
       first
       | (refine Keeps.cut (u := u) ?_ (fun _ => ?_); subst u; on_goal 2 => clear_value u)
       | (have h := @id (_ → _) u; clear h; subst u)
       | clear_value u)
    | with_reducible assumption
    | (simp (decide := true) (maxDischargeDepth := 200) only [↓Keeps.refl, ↓Keeps.ite, ↓Keeps.mk, or_true, true_or,
      eq_self, *]; done)
    | split

theorem State.setRole_keeps (s : State) (active standby : Bool) {μ : Nat} {σ : State} (hk : Keeps μ σ s) (hm : within?
    0x1000000000000000000000000000000000000000000000000000000000000000000000000000000000000000000000000000000000000000000000000000000000000000000000000000000000001800000000000000000000000000000000000000000000000000000000000000000210000000000000000FFFFFFFF002007FD000000000000000001FFFFFF00013003000000000000000000000000000000000000000000000000000000000000065F0000000000000000000000000000810900000000000000000000000000020000000000000000000000000000000000000000000000000000000000000000000000000000000000000000000000000000000000000000000000000000000000000000000000000000000000000000000000000000000000000000000000000000000000000000000000000000000000000000000000000000000000000000004100000000000000000000000000000001000000000020000006020000000100010000000000000000000000000000000000000000000000000000000000000000122FE081
    μ = true) : Keeps μ σ (State.setRole s active standby) := by
  refine hk.lift hm ?_
  unfold State.setRole
  repeat' first
    | (extract_lets +onlyGivenNames u
       first
       | (refine Keeps.cut (u := u) ?_ (fun _ => ?_); subst u; on_goal 2 => clear_value u)
       | (have h := @id (_ → _) u; clear h; subst u)
       | clear_value u)
    | with_reducible assumption
    | (simp (decide := true) (maxDischargeDepth := 200) only [↓Keeps.refl, ↓Keeps.ite, ↓Keeps.mk, ↓State.putBit_keeps,
      ↓State.put_keeps, ↓State.putAll_keeps, ↓State.skipStest_keeps, ↓State.updMode_keeps, ↓State.holdDue_keeps,
      regIn_on, or_true, true_or, eq_self, *]; done)
    | split

theorem State.twinCfg_keeps (s : State) (v : Nat) {μ : Nat} {σ : State} (hk : Keeps μ σ s) (hm : within?
    0x3000000000000000000000000000000000000000000000000000000000000000000000000000000000000000000000000000000000000000000000000000000000000000000000000000000000001800000000000000000000000000000000000000000000000000000000000000000210000000000000000FFFFFFFF002007FD000000000000000001FFFFFF00013003000000000000000000000000000000000000000000000000000000000000065F0000000000000000000000000000810900000000000000000000000000020000000000000000000000000000000000000000000000000000000000000000000000000000000000000000000000000000000000000000000000000000000000000000000000000000000000000000000000000000000000000000000000000000000000000000000000000000000000000000000000000000000000000000004100000000000000000000000000000001000000000020000006020000000100010000000000000000000000000000000000000000000000000000000000000000122FE081
    μ = true) : Keeps μ σ (State.twinCfg s v) := by
  refine hk.lift hm ?_
  unfold State.twinCfg
  repeat' first
    | (extract_lets +onlyGivenNames u
       first
       | (refine Keeps.cut (u := u) ?_ (fun _ => ?_); subst u; on_goal 2 => clear_value u)
       | (have h := @id (_ → _) u; clear h; subst u)
       | clear_value u)
    | with_reducible assumption
    | (simp (decide := true) (maxDischargeDepth := 200) only [↓Keeps.refl, ↓Keeps.ite, ↓Keeps.mk, ↓State.put_keeps,
      ↓State.putBit_keeps, ↓State.setRole_keeps, ↓State.twinWatch_keeps, or_true, true_or, eq_self, *]; done)
    | split

theorem State.twinRec_keeps (s : State) (event cause mask seq sec : Nat) {μ : Nat} {σ : State} (hk : Keeps μ σ s) (hm
    : within?
    0x400000000000000000000000000000000000000000002000000000000000010000000000000000000000000000000000000000000000000000000000000000000000002081
    μ = true) : Keeps μ σ (State.twinRec s event cause mask seq sec) := by
  refine hk.lift hm ?_
  unfold State.twinRec
  repeat' first
    | (extract_lets +onlyGivenNames u
       first
       | (refine Keeps.cut (u := u) ?_ (fun _ => ?_); subst u; on_goal 2 => clear_value u)
       | (have h := @id (_ → _) u; clear h; subst u)
       | clear_value u)
    | with_reducible assumption
    | (simp (decide := true) (maxDischargeDepth := 200) only [↓Keeps.refl, ↓Keeps.ite, ↓Keeps.mk,
      ↓State.raiseOthers_keeps, ↓State.deliverAll_keeps, or_true, true_or, eq_self, *]; done)
    | split

theorem State.twinRecRx_keeps (s : State) (event cause mask : Nat) {μ : Nat} {σ : State} (hk : Keeps μ σ s) (hm :
    within?
    0x400000000000000000000000000000000000000000002000000000000000010000000000000000000000000000000000000000000000000000000000000000000000002081
    μ = true) : Keeps μ σ (State.twinRecRx s event cause mask) := by
  refine hk.lift hm ?_
  unfold State.twinRecRx
  repeat' first
    | (extract_lets +onlyGivenNames u
       first
       | (refine Keeps.cut (u := u) ?_ (fun _ => ?_); subst u; on_goal 2 => clear_value u)
       | (have h := @id (_ → _) u; clear h; subst u)
       | clear_value u)
    | with_reducible assumption
    | (simp (decide := true) (maxDischargeDepth := 200) only [↓Keeps.refl, ↓Keeps.ite, ↓Keeps.mk,
      ↓State.twinRec_keeps, or_true, true_or, eq_self, *]; done)
    | split

theorem State.twinRecTx_keeps (s : State) (event cause : Nat) {μ : Nat} {σ : State} (hk : Keeps μ σ s) (hm : within?
    0x400000000000000000000000000000000000000000002000000000000000010000000000000000000000000000000000000000000000000000000000000000000000002081
    μ = true) : Keeps μ σ (State.twinRecTx s event cause) := by
  refine hk.lift hm ?_
  unfold State.twinRecTx
  repeat' first
    | (extract_lets +onlyGivenNames u
       first
       | (refine Keeps.cut (u := u) ?_ (fun _ => ?_); subst u; on_goal 2 => clear_value u)
       | (have h := @id (_ → _) u; clear h; subst u)
       | clear_value u)
    | with_reducible assumption
    | (simp (decide := true) (maxDischargeDepth := 200) only [↓Keeps.refl, ↓Keeps.ite, ↓Keeps.mk,
      ↓State.twinRec_keeps, or_true, true_or, eq_self, *]; done)
    | split

theorem State.yieldRole_keeps (s : State) (cause : Nat) {μ : Nat} {σ : State} (hk : Keeps μ σ s) (hm : within?
    0x1000000000000000000000000000182C10000000000000000000000000000000200000000000000000000000000004080000000000000000000000000000040800000000000000000000000000001800000000000000000000000000000000600000000000000000000000000000000210000000000000000FFFFFFFF002007FD000000000000000001FFFFFF00013003000000000000000000000000000000010000000000000000000000000000065F000000000000000000000000000081090000000000000000000000000002000000000000000000000000000000000000000000000000000000000000000000000000000000000000000000000000000000000000000000000000000000000000000000000000000000000000000000000000000000000000000000000000000000000000000000000000000000000000000000000000000000000000000000410000000000000000000000000000000100000000002000000602000000010001000000000000000000000000000000000000000000000000000000000000000013EFE485
    μ = true) : Keeps μ σ (State.yieldRole s cause) := by
  refine hk.lift hm ?_
  unfold State.yieldRole
  repeat' first
    | (extract_lets +onlyGivenNames u
       first
       | (refine Keeps.cut (u := u) ?_ (fun _ => ?_); subst u; on_goal 2 => clear_value u)
       | (have h := @id (_ → _) u; clear h; subst u)
       | clear_value u)
    | with_reducible assumption
    | (simp (decide := true) (maxDischargeDepth := 200) only [↓Keeps.refl, ↓Keeps.ite, ↓Keeps.mk,
      ↓State.endActivities_keeps, ↓State.setRole_keeps, ↓State.showMaintain_keeps, ↓State.put_keeps,
      ↓State.twinRecTx_keeps, ↓State.twinRecRx_keeps, or_true, true_or, eq_self, *]; done)
    | split

theorem execHeartbeatEmit_keeps (s : State) : Ends (Keeps 0x2000020 s) (execHeartbeatEmit s) := by
  unfold execHeartbeatEmit
  refine Ends.next ?_
  repeat' first
    | (extract_lets +onlyGivenNames u
       first
       | (refine Keeps.cut (u := u) ?_ (fun _ => ?_); subst u; on_goal 2 => clear_value u)
       | (have h := @id (_ → _) u; clear h; subst u)
       | clear_value u)
    | with_reducible assumption
    | (simp (decide := true) (maxDischargeDepth := 200) only [↓Keeps.next, ↓Keeps.endsIte, ↓Keeps.refl, ↓Keeps.ite,
      ↓Keeps.mk, or_true, true_or, eq_self, *]; done)
    | split

theorem State.pulseClass_snd (s : State) (lowUs : Nat) {μ : Nat} {σ : State} (hk : Keeps μ σ s) (hm : within?
    0x10000000 μ = true) : Keeps μ σ (State.pulseClass s lowUs).2 := by
  refine hk.lift hm ?_
  unfold State.pulseClass
  repeat' first
    | (extract_lets +onlyGivenNames u
       first
       | (refine Keeps.cut (u := u) ?_ (fun _ => ?_); subst u; on_goal 2 => clear_value u)
       | (have h := @id (_ → _) u; clear h; subst u)
       | clear_value u)
    | with_reducible assumption
    | (simp (decide := true) (maxDischargeDepth := 200) only [↓Keeps.refl, ↓Keeps.ite, ↓Keeps.mk, ↓State.fresh_snd,
      or_true, true_or, eq_self, *]; done)
    | (split <;>
        (rename_i e
         refine Keeps.cut (State.fresh_out (by with_reducible exact e) ?_ (by decide)) (fun _ => ?_) <;> clear e))
    | (with_reducible refine State.fresh_snd _ ?_ (by decide))
    | split
    | dsimp (zeta := false) only

theorem State.pulseClass_out {s u : State} {lowUs : Nat} {r : Nat} (e : State.pulseClass s lowUs = (r, u)) {μ : Nat}
    {σ : State} (hk : Keeps μ σ s) (hm : within? 0x10000000 μ = true) : Keeps μ σ u := by
  have h := State.pulseClass_snd s lowUs hk hm
  rw [e] at h
  exact h

theorem State.hbStuck_keeps (s : State) {μ : Nat} {σ : State} (hk : Keeps μ σ s) (hm : within?
    0x10000000000000000000000000000000000000000000000000000000000000000000000000000000000000000000000000000000000000000000000000000000000000000000000000000000000000000000000000000000000000000000000000000000000000000000000000000000000000000000000000000000000000000000000000000000000000000000000000000000000000000000000000000000000000000000000000000000000000000000000000000000000000000000000000000000000000000000000000000000000000000000000000000000000000000000000000000000000000000000000000000000000000000000000000000000000000000000000000000000000000000000000000000000000000000000000000000000000000000000000000000000000000000000000000000000000000000000000000000000000000000000000000000000000000000000000000000000000000000000000000000000000000000000000000000000000000000000000000000000000000000000000000000000000006000000
    μ = true) : Keeps μ σ (State.hbStuck s) := by
  refine hk.lift hm ?_
  unfold State.hbStuck
  repeat' first
    | (extract_lets +onlyGivenNames u
       first
       | (refine Keeps.cut (u := u) ?_ (fun _ => ?_); subst u; on_goal 2 => clear_value u)
       | (have h := @id (_ → _) u; clear h; subst u)
       | clear_value u)
    | with_reducible assumption
    | (simp (decide := true) (maxDischargeDepth := 200) only [↓Keeps.refl, ↓Keeps.ite, ↓Keeps.mk, ↓State.put_keeps,
      or_true, true_or, eq_self, *]; done)
    | split

theorem State.latchEdge_keeps (s : State) {μ : Nat} {σ : State} (hk : Keeps μ σ s) (hm : within?
    0x10000000000000000000000000000000000000000000000000000000000000000000000000000000000000000000000000000000000000000000000000000000000000000000000000000000000000000000000000000000000000000000000000000000000000000000000000000000000000000000000000000000000000000000000000000000000000000000000000000000000000000000000000000000000000000000000000000000000000000000000000000000000000000000000000000000000000000000000000000000000000000000000000000000000000000000000000000000000000000000000000000000000000000000000000000000000000000000000000000000000000000000000000000000000000000000000000000000000000000000000000000000000000000000000000000000000000000000000000000000000000000000000000000000000000000000000000000000000000000000000000000000000000000000000000000000000000000000000000000000000000000000000000000000002000000
    μ = true) : Keeps μ σ (State.latchEdge s) := by
  refine hk.lift hm ?_
  unfold State.latchEdge
  repeat' first
    | (extract_lets +onlyGivenNames u
       first
       | (refine Keeps.cut (u := u) ?_ (fun _ => ?_); subst u; on_goal 2 => clear_value u)
       | (have h := @id (_ → _) u; clear h; subst u)
       | clear_value u)
    | with_reducible assumption
    | (simp (decide := true) (maxDischargeDepth := 200) only [↓Keeps.refl, ↓Keeps.ite, ↓Keeps.mk, ↓State.put_keeps,
      or_true, true_or, eq_self, *]; done)
    | split

theorem State.watchSees_keeps (s : State) {μ : Nat} {σ : State} (hk : Keeps μ σ s) (hm : within?
    0x1000000000000000000000000000000000000000000000000000000000000000000000000000000000000000000000000000000000000000000000000000000000000000000000000000000000001800000000000000000000000000000000000000000000000000000000000000000210000000000000000FFFFFFFF002007FD000000000000000001FFFFFF00013003000000000000000000000000000000000000000000000000000000000000065F0000000000000000000000000000810900000000000000000000000000020000000000000000000000000000000000000000000000000000000000000000000000000000000000000000000000000000000000000000000000000000000000000000000000000000000000000000000000000000000000000000000000000000000000000000000000000000000000000000000000000000000000000000004100000000000000000000000000000001000000000020000006020000000100010000000000000000000000000000000000000000000000000000000000000000122FE081
    μ = true) : Keeps μ σ (State.watchSees s) := by
  refine hk.lift hm ?_
  unfold State.watchSees
  repeat' first
    | (extract_lets +onlyGivenNames u
       first
       | (refine Keeps.cut (u := u) ?_ (fun _ => ?_); subst u; on_goal 2 => clear_value u)
       | (have h := @id (_ → _) u; clear h; subst u)
       | clear_value u)
    | with_reducible assumption
    | (simp (decide := true) (maxDischargeDepth := 200) only [↓Keeps.refl, ↓Keeps.ite, ↓Keeps.mk,
      ↓State.latchEdge_keeps, ↓State.setRole_keeps, or_true, true_or, eq_self, *]; done)
    | split

theorem State.partnerBeat_keeps (s : State) {μ : Nat} {σ : State} (hk : Keeps μ σ s) (hm : within?
    0x1001000000000000000000000000000182C10000000000000000000000000000000200000000000000000000000000004080000000000000000000000000000040800000000000000000000000000001800000000000000000000000000000000600000000000000000000000000000000210000000000000000FFFFFFFF002007FD000000000000000001FFFFFF00013003000000000000000000000000000000010000000000000000000000000000065F000000000000000000000000000081090000000000000000000000000002000000000000000000000000000000000000000000000000000000000000000000000000000000000000000000000000000000000000000000000000000000000000000000000000000000000000000000000000000000000000000000000000000000000000000000000000000000000000000000000000000000000000000000410000000000000000000000000000000100000000002000000602000000010001000000000000000000000000000000000000000000000000000000000000000013EFE485
    μ = true) : Keeps μ σ (State.partnerBeat s) := by
  refine hk.lift hm ?_
  unfold State.partnerBeat
  repeat' first
    | (extract_lets +onlyGivenNames u
       first
       | (refine Keeps.cut (u := u) ?_ (fun _ => ?_); subst u; on_goal 2 => clear_value u)
       | (have h := @id (_ → _) u; clear h; subst u)
       | clear_value u)
    | with_reducible assumption
    | (simp (decide := true) (maxDischargeDepth := 200) only [↓Keeps.refl, ↓Keeps.ite, ↓Keeps.mk,
      ↓State.yieldRole_keeps, ↓State.put_keeps, ↓State.latchEdge_keeps, ↓State.watchSees_keeps, or_true, true_or,
      eq_self, *]; done)
    | split

theorem State.partnerClaims_keeps (s : State) {μ : Nat} {σ : State} (hk : Keeps μ σ s) (hm : within?
    0x1001000000000000000000000000000182C10000000000000000000000000000000200000000000000000000000000004080000000000000000000000000000040800000000000000000000000000001800000000000000000000000000000000600000000000000000000000000000000210000000000000000FFFFFFFF002007FD000000000000000001FFFFFF00013003000000000000000000000000000000010000000000000000000000000000065F000000000000000000000000000081090000000000000000000000000002000000000000000000000000000000000000000000000000000000000000000000000000000000000000000000000000000000000000000000000000000000000000000000000000000000000000000000000000000000000000000000000000000000000000000000000000000000000000000000000000000000000000000000410000000000000000000000000000000100000000002000000602000000010001000000000000000000000000000000000000000000000000000000000000000013EFE485
    μ = true) : Keeps μ σ (State.partnerClaims s) := by
  refine hk.lift hm ?_
  unfold State.partnerClaims
  repeat' first
    | (extract_lets +onlyGivenNames u
       first
       | (refine Keeps.cut (u := u) ?_ (fun _ => ?_); subst u; on_goal 2 => clear_value u)
       | (have h := @id (_ → _) u; clear h; subst u)
       | clear_value u)
    | with_reducible assumption
    | (simp (decide := true) (maxDischargeDepth := 200) only [↓Keeps.refl, ↓Keeps.ite, ↓Keeps.mk,
      ↓State.yieldRole_keeps, ↓State.put_keeps, ↓State.latchEdge_keeps, ↓State.watchSees_keeps, or_true, true_or,
      eq_self, *]; done)
    | split

theorem execTwinHbPulse_keeps (lowUs : Nat) (s : State) : Ends (Keeps
    0x11001000000000000000000000000000182C10000000000000000000000000000000200000000000000000000000000004080000000000000000000000000000040800000000000000000000000000001800000000000000000000000000000000600000000000000000000000000000000210000000000000000FFFFFFFF002007FD000000000000000001FFFFFF00013003000000000000000000000000000000010000000000000000000000000000065F000000000000000000000000000081090000000000000000000000000002000000000000000000000000000000000000000000000000000000000000000000000000000000000000000000000000000000000000000000000000000000000000000000000000000000000000000000000000000000000000000000000000000000000000000000000000000000000000000000000000000000000000000000410000000000000000000000000000000100000000002000000602000000010001000000000000000000000000000000000000000000000000000000000000000017EFE485
    s) (execTwinHbPulse lowUs s) := by
  unfold execTwinHbPulse
  refine Ends.next ?_
  repeat' first
    | (extract_lets +onlyGivenNames u
       first
       | (refine Keeps.cut (u := u) ?_ (fun _ => ?_); subst u; on_goal 2 => clear_value u)
       | (have h := @id (_ → _) u; clear h; subst u)
       | clear_value u)
    | with_reducible assumption
    | (simp (decide := true) (maxDischargeDepth := 200) only [↓Keeps.next, ↓Keeps.endsIte, ↓Keeps.refl, ↓Keeps.ite,
      ↓Keeps.mk, ↓State.pulseClass_snd, ↓State.partnerBeat_keeps, ↓State.partnerClaims_keeps, ↓State.inc_keeps,
      ↓State.hbStuck_keeps, or_true, true_or, eq_self, *]; done)
    | (split <;>
        (rename_i e
         refine Keeps.cut (State.pulseClass_out (by with_reducible exact e) ?_ (by decide)) (fun _ => ?_) <;> clear e))
    | (with_reducible refine State.pulseClass_snd _ _ ?_ (by decide))
    | (with_reducible refine State.partnerBeat_keeps _ ?_ (by decide))
    | (with_reducible refine State.partnerClaims_keeps _ ?_ (by decide))
    | (with_reducible refine State.inc_keeps _ _ ?_ (by decide))
    | (with_reducible refine State.hbStuck_keeps _ ?_ (by decide))
    | split

theorem execHbStuck_keeps (s : State) : Ends (Keeps
    0x10000000000000000000000000000000000000000000000000000000000000000000000000000000000000000000000000000000000000000000000000000000000000000000000000000000000000000000000000000000000000000000000000000000000000000000000000000000000000000000000000000000000000000000000000000000000000000000000000000000000000000000000000000000000000000000000000000000000000000000000000000000000000000000000000000000000000000000000000000000000000000000000000000000000000000000000000000000000000000000000000000000000000000000000000000000000000000000000000000000000000000000000000000000000000000000000000000000000000000000000000000000000000000000000000000000000000000000000000000000000000000000000000000000000000000000000000000000000000000000000000000000000000000000000000000000000000000000000000000000000000000000000000000000000006000000
    s) (execHbStuck s) := by
  unfold execHbStuck
  refine Ends.next ?_
  repeat' first
    | (extract_lets +onlyGivenNames u
       first
       | (refine Keeps.cut (u := u) ?_ (fun _ => ?_); subst u; on_goal 2 => clear_value u)
       | (have h := @id (_ → _) u; clear h; subst u)
       | clear_value u)
    | with_reducible assumption
    | (simp (decide := true) (maxDischargeDepth := 200) only [↓Keeps.next, ↓Keeps.endsIte, ↓Keeps.refl, ↓Keeps.ite,
      ↓Keeps.mk, ↓State.hbStuck_keeps, or_true, true_or, eq_self, *]; done)
    | split

theorem State.wantClaim_keeps (s : State) (cause : Nat) {μ : Nat} {σ : State} (hk : Keeps μ σ s) (hm : within?
    0x40000000000000000000000000000600010000000000000000000000000000001100000000000000000000000000000000000000000000000000000000000000000000000000000000000000000000000000000000000000000000000000000000020080C0
    μ = true) : Keeps μ σ (State.wantClaim s cause) := by
  refine hk.lift hm ?_
  unfold State.wantClaim
  repeat' first
    | (extract_lets +onlyGivenNames u
       first
       | (refine Keeps.cut (u := u) ?_ (fun _ => ?_); subst u; on_goal 2 => clear_value u)
       | (have h := @id (_ → _) u; clear h; subst u)
       | clear_value u)
    | with_reducible assumption
    | (simp (decide := true) (maxDischargeDepth := 200) only [↓Keeps.refl, ↓Keeps.ite, ↓Keeps.mk, ↓State.wake_keeps,
      ↓State.showMaintain_keeps, or_true, true_or, eq_self, *]; done)
    | split

theorem execUndecidedTimeout_keeps (s : State) : Ends (Keeps
    0x40000000000000000000000000000600010000000000000000000000000000001100000000000000000000000000000000000000000000000000000000000000000000000000000000000000000000000000000000000000000000000000000000020080C0
    s) (execUndecidedTimeout s) := by
  unfold execUndecidedTimeout
  refine Ends.next ?_
  repeat' first
    | (extract_lets +onlyGivenNames u
       first
       | (refine Keeps.cut (u := u) ?_ (fun _ => ?_); subst u; on_goal 2 => clear_value u)
       | (have h := @id (_ → _) u; clear h; subst u)
       | clear_value u)
    | with_reducible assumption
    | (simp (decide := true) (maxDischargeDepth := 200) only [↓Keeps.next, ↓Keeps.endsIte, ↓Keeps.refl, ↓Keeps.ite,
      ↓Keeps.mk, ↓State.wantClaim_keeps, or_true, true_or, eq_self, *]; done)
    | split

theorem execTakeoverDue_keeps (s : State) : Ends (Keeps
    0x40000000000000000000000000000600010000000000000000000000000000001100000000000000000000000000000000000000000000000000000000000000000000000000000000000000000000000000000000000000000000000000000000020080C0
    s) (execTakeoverDue s) := by
  unfold execTakeoverDue
  refine Ends.next ?_
  repeat' first
    | (extract_lets +onlyGivenNames u
       first
       | (refine Keeps.cut (u := u) ?_ (fun _ => ?_); subst u; on_goal 2 => clear_value u)
       | (have h := @id (_ → _) u; clear h; subst u)
       | clear_value u)
    | with_reducible assumption
    | (simp (decide := true) (maxDischargeDepth := 200) only [↓Keeps.next, ↓Keeps.endsIte, ↓Keeps.refl, ↓Keeps.ite,
      ↓Keeps.mk, ↓State.wantClaim_keeps, or_true, true_or, eq_self, *]; done)
    | split

theorem State.restorePlan_keeps (s : State) (d : List Byte) (f : Fn) {μ : Nat} {σ : State} (hk : Keeps μ σ s) (hm :
    within?
    0x2000000000000000000000000000000000000000000000000000000000000000000000000000000000000000000000000000000000000000000000000000000000000000000000000000000000000000000000000000000000000000000000000000000000000000000000000000000000000000000000000000000000000000000400000000000000000000000000000000000000000002000000000000000010000000000000000000000000000000000000000000000000000000000000000000000006081
    μ = true) : Keeps μ σ (State.restorePlan s d f) := by
  refine hk.lift hm ?_
  unfold State.restorePlan
  repeat' first
    | (extract_lets +onlyGivenNames u
       first
       | (refine Keeps.cut (u := u) ?_ (fun _ => ?_); subst u; on_goal 2 => clear_value u)
       | (have h := @id (_ → _) u; clear h; subst u)
       | clear_value u)
    | with_reducible assumption
    | (simp (decide := true) (maxDischargeDepth := 200) only [↓Keeps.refl, ↓Keeps.ite, ↓Keeps.mk,
      ↓State.withdrawn_keeps, ↓State.setPlan_keeps, or_true, true_or, eq_self, *]; done)
    | split

theorem State.restoreHist_keeps (s : State) (d : List Byte) (i : Nat) {μ : Nat} {σ : State} (hk : Keeps μ σ s) (hm :
    within?
    0xFF0000000000000000000000000000000000000000000000000000000000000000000000000000000000000000000000000000000000000000000000000000000000000000000000000000000000000000000000000000000000000000000000000000000000000000000000000000000000000000000000000000000000000000000000000000000000000000000000000000000000000000000000000000000000000000000000000000000000000000000000000000000000000000000000000000000000000000000000000000000000000000000000000000000000000000000000000000000000000000000000000000000000000000000000000000000000000000000000000000000000000000000000000000000000000000000000000000000000000000000000000000000000000000000000000000000000000000000000000000200000
    μ = true) : Keeps μ σ (State.restoreHist s d i) := by
  refine hk.lift hm ?_
  unfold State.restoreHist
  repeat' first
    | (extract_lets +onlyGivenNames u
       first
       | (refine Keeps.cut (u := u) ?_ (fun _ => ?_); subst u; on_goal 2 => clear_value u)
       | (have h := @id (_ → _) u; clear h; subst u)
       | clear_value u)
    | with_reducible assumption
    | (simp (decide := true) (maxDischargeDepth := 200) only [↓Keeps.refl, ↓Keeps.ite, ↓Keeps.mk, ↓State.put32_keeps,
      regIn_EDF_CSER, or_true, true_or, eq_self, *]; done)
    | split

theorem State.restoreCkpt_keeps (s : State) (d : List Byte) {μ : Nat} {σ : State} (hk : Keeps μ σ s) (hm : within?
    0xFFF0001800FF100000000000000000000FFFF000001C1000000000000000000000000000000000000000000000000000000000000000000000000000000000000000000000000000000000000000000000000000000000000000000000000000000000000000000000000000000000000000000000000000000000000000000000000000200000000000000000000000000000000000000000000000000000000000000000000000000000000000000000000000000000000000000000000000000000000000000000000000000000000000000000000000000000000000000000000000000000000000000000000000000000000000000000000000000000000000000000040000000000000000000000000000000000000000000200000000000000001000000000000000000000000000000000000000000000000000000000000000000000030E081
    μ = true) : Keeps μ σ (State.restoreCkpt s d) := by
  refine hk.lift hm ?_
  unfold State.restoreCkpt
  repeat' first
    | (extract_lets +onlyGivenNames u
       first
       | (refine Keeps.cut (u := u) ?_ (fun _ => ?_); subst u; on_goal 2 => clear_value u)
       | (have h := @id (_ → _) u; clear h; subst u)
       | clear_value u)
    | with_reducible assumption
    | (simp (decide := true) (maxDischargeDepth := 200) only [↓Keeps.refl, ↓Keeps.ite, ↓Keeps.mk, ↓Keeps.foldl,
      ↓State.restorePlan_keeps, ↓State.restoreHist_keeps, ↓State.put_keeps, ↓State.putLeap_keeps,
      ↓State.showEdf_keeps, ↓State.putBit_keeps, ↓State.put32_keeps, implies_true, regIn_TIME_PROP, or_true, true_or,
      eq_self, *]; done)
    | (with_reducible refine Keeps.foldl (fun _ _ => ?_) ?_ <;> beta_reduce)
    | (with_reducible refine State.eachFn_keeps _ _ _ ?_ (fun _ _ => ?_) <;> beta_reduce)
    | (with_reducible refine State.restorePlan_keeps _ _ _ ?_ (by decide))
    | (with_reducible refine State.restoreHist_keeps _ _ _ ?_ (by decide))
    | (with_reducible refine State.put_keeps _ _ _ ?_ (by decide))
    | (with_reducible refine State.putLeap_keeps _ _ ?_ (by decide))
    | (with_reducible refine State.showEdf_keeps _ ?_ (by decide))
    | (with_reducible refine State.putBit_keeps _ _ _ ?_ (by decide))
    | (with_reducible refine State.put32_keeps _ _ _ ?_ (by decide) (by decide))
    | split

theorem State.zeroDays_keeps (s : State) {μ : Nat} {σ : State} (hk : Keeps μ σ s) (hm : within?
    0x20000000000000000000000000000000000000000000000000000000000000000000000000000000000000000000000000000000000000000000000000000000000000000000000000000000000000000000000000000000000000000000000000000000000000000000000000000000000000000000000000000000000000000000000000000000000000000000000000000000000000000000060000000000000000000000000000000000000000000000000000000000000000000000000000000000A000
    μ = true) : Keeps μ σ (State.zeroDays s) := by
  refine hk.lift hm ?_
  unfold State.zeroDays
  repeat' first
    | (extract_lets +onlyGivenNames u
       first
       | (refine Keeps.cut (u := u) ?_ (fun _ => ?_); subst u; on_goal 2 => clear_value u)
       | (have h := @id (_ → _) u; clear h; subst u)
       | clear_value u)
    | with_reducible assumption
    | (simp (decide := true) (maxDischargeDepth := 200) only [↓Keeps.refl, ↓Keeps.ite, ↓Keeps.mk,
      ↓State.showDay_keeps, ↓State.setEng_keeps, ↓State.put_keeps, implies_true, or_true, true_or, eq_self, *]; done)
    | (with_reducible refine State.eachFn_keeps _ _ _ ?_ (fun _ _ => ?_) <;> beta_reduce)
    | (with_reducible refine State.showDay_keeps _ _ ?_ (by decide))
    | (with_reducible refine State.setEng_keeps _ _ _ ?_ (by decide))
    | (with_reducible refine State.put_keeps _ _ _ ?_ (by decide))
    | split

theorem State.takeDays_keeps (s : State) (d : Option (List Byte)) {μ : Nat} {σ : State} (hk : Keeps μ σ s) (hm :
    within?
    0x20000000000000000000000000000000000000000000000000000000000000000000000000000000000000000000000000000000000000000000000000000000000000000000000000000000000000000000000000000000000000000000000000000000000000000000000000000000000000000000000000000000000000000000000000000000000000000000000000000000000000000000060000000000000000000000000000000000000000000000000000000000000000000000000000000000A000
    μ = true) : Keeps μ σ (State.takeDays s d) := by
  refine hk.lift hm ?_
  unfold State.takeDays
  repeat' first
    | (extract_lets +onlyGivenNames u
       first
       | (refine Keeps.cut (u := u) ?_ (fun _ => ?_); subst u; on_goal 2 => clear_value u)
       | (have h := @id (_ → _) u; clear h; subst u)
       | clear_value u)
    | with_reducible assumption
    | (simp (decide := true) (maxDischargeDepth := 200) only [↓Keeps.refl, ↓Keeps.ite, ↓Keeps.mk, ↓State.charge_keeps,
      ↓State.put_keeps, ↓State.zeroDays_keeps, implies_true, or_true, true_or, eq_self, *]; done)
    | (with_reducible refine State.eachFn_keeps _ _ _ ?_ (fun _ _ => ?_) <;> beta_reduce)
    | (with_reducible refine State.charge_keeps _ _ _ _ ?_ (by decide))
    | (with_reducible refine State.put_keeps _ _ _ ?_ (by decide))
    | (with_reducible refine State.zeroDays_keeps _ ?_ (by decide))
    | split

theorem State.takeOver_keeps (s : State) (cause : Nat) {μ : Nat} {σ : State} (hk : Keeps μ σ s) (hm : within?
    0x20001000000000000000000000000000000000000000000000000000000000000000000000000000000000000000000000000000000000000000000000000000000000000000000000000000FFF0001818FF100000000000000000000FFFF000001C1000000000000000000000000000000210000000000000000FFFFFFFF002007FD000000000000000001FFFFFF00013003000000000000000000000000000000000000000000000000000000000000065F0000000000000000000000000000810900000000000000000000000000022001000000000000000000000000000000000000000000000000000000000000000000000000000000000000000000000000000000000000000000000000000000000000000000000000000000000000000000000000000000000000000000000000000000000000000000000000000000000000000000000000000000000000004100000000000000000000000000000001000000000020000006220000000100010000000000000000000000000000000000000000000000000000000000000000163FE081
    μ = true) : Keeps μ σ (State.takeOver s cause) := by
  refine hk.lift hm ?_
  unfold State.takeOver
  repeat' first
    | (extract_lets +onlyGivenNames u
       first
       | (refine Keeps.cut (u := u) ?_ (fun _ => ?_); subst u; on_goal 2 => clear_value u)
       | (have h := @id (_ → _) u; clear h; subst u)
       | clear_value u)
    | with_reducible assumption
    | (simp (decide := true) (maxDischargeDepth := 200) only [↓Keeps.refl, ↓Keeps.ite, ↓Keeps.mk, ↓State.put_keeps,
      ↓State.setRole_keeps, ↓State.inc_keeps, ↓State.restoreCkpt_keeps, ↓State.plansFromFlash_keeps,
      ↓State.updMode_keeps, ↓State.showPlans_keeps, ↓State.wantReadmit_keeps, ↓State.takeDays_keeps,
      ↓State.wantHost_keeps, ↓State.twinRecRx_keeps, or_true, true_or, eq_self, *]; done)
    | split

theorem execClaim_keeps (lineLow : Bool) (s : State) : Ends (Keeps
    0x20001000000000000000000000000000182C10000000000000000000000000000000200000000000000000000000000004080000000000000000000000000000040800000000000000000000FFF0001818FF100000000000000000000FFFF000007C1000000000000000000000000000000210000000000000000FFFFFFFF002007FD000000000000000001FFFFFF00013003000000000000000000000000000000010000000000000000000000000000065F000000000000000000000000000081090000000000000000000000000002200100000000000000000000000000000000000000000000000000000000000000000000000000000000000000000000000000000000000000000000000000000000000000000000000000000000000000000000000000000000000000000000000000000000000000000000000000000000000000000000000000000000000000410000000000000000000000000000000100000000002000000622000000010001000000000000000000000000000000000000000000000000000000000000000017FFE4A5
    s) (execClaim lineLow s) := by
  unfold execClaim
  refine Ends.next ?_
  repeat' first
    | (extract_lets +onlyGivenNames u
       first
       | (refine Keeps.cut (u := u) ?_ (fun _ => ?_); subst u; on_goal 2 => clear_value u)
       | (have h := @id (_ → _) u; clear h; subst u)
       | clear_value u)
    | with_reducible assumption
    | (simp (decide := true) (maxDischargeDepth := 200) only [↓Keeps.next, ↓Keeps.endsIte, ↓Keeps.refl, ↓Keeps.ite,
      ↓Keeps.mk, ↓State.yieldRole_keeps, ↓State.takeOver_keeps, or_true, true_or, eq_self, *]; done)
    | split

theorem execClaimingEnd_keeps (s : State) : Ends (Keeps
    0x10000000000000000000000000000000000000000000000000000000000000000000000000000000000000000000000000000000000000000000000000000000000000000000000000000000000000000000000000000000000000000000000000000000000000000000000000000000000000000000000000000000000000000000000000000000000000000000000000000000000000000000000000000000000000000000000000000000000000000000000000000000000000000000000000000000000000000000000000000000000000000000000000000000000000000000000000000000000000000000000000000000000000000000000000000000000000000000000000000000000000000000000000000000000000000000000000000000000000000000000000000000000000000000000000000000000000000000000000000000000000000000000000000000000000000000000000000000000000000000000000000000000000000000000000000000000000000000000000000000000000000000000000000000000000000
    s) (execClaimingEnd s) := by
  unfold execClaimingEnd
  refine Ends.next ?_
  repeat' first
    | (extract_lets +onlyGivenNames u
       first
       | (refine Keeps.cut (u := u) ?_ (fun _ => ?_); subst u; on_goal 2 => clear_value u)
       | (have h := @id (_ → _) u; clear h; subst u)
       | clear_value u)
    | with_reducible assumption
    | (simp (decide := true) (maxDischargeDepth := 200) only [↓Keeps.next, ↓Keeps.endsIte, ↓Keeps.refl, ↓Keeps.ite,
      ↓Keeps.mk, ↓State.put_keeps, or_true, true_or, eq_self, *]; done)
    | split

theorem State.wakeSent_keeps (s : State) (ack : Bool) {μ : Nat} {σ : State} (hk : Keeps μ σ s) (hm : within?
    0x10010000000000000000000000000000000000000000000000000000000000000000000000000000000000000000000000000000000000000000000000000000000000000000000000000000000000000000000000000000000000000000000000000000000000000000000000000000000000000000000000000000000000000000000000000000000000000000000000000000000000000000000000000000000000000000000000000000000000000000000000000000000000000000000000000000000000000000000000000000000000000000000000000000000000000000000000000000000000000000000000000000000000000000000000000000000000000000000000000000000000000000000000000000000000000000000000000000000000000000000000000000000000000000000000000000000000000000000000000000000000000000000000400000000000000000000000000000000000000000002000000000000000010000000000000000000000000000000000000000000000000000000000000000000006002081
    μ = true) : Keeps μ σ (State.wakeSent s ack) := by
  refine hk.lift hm ?_
  unfold State.wakeSent
  repeat' first
    | (extract_lets +onlyGivenNames u
       first
       | (refine Keeps.cut (u := u) ?_ (fun _ => ?_); subst u; on_goal 2 => clear_value u)
       | (have h := @id (_ → _) u; clear h; subst u)
       | clear_value u)
    | with_reducible assumption
    | (simp (decide := true) (maxDischargeDepth := 200) only [↓Keeps.refl, ↓Keeps.ite, ↓Keeps.mk, ↓State.putBit_keeps,
      ↓State.put_keeps, ↓State.twinRecTx_keeps, or_true, true_or, eq_self, *]; done)
    | split

theorem State.ckptBuild_keeps (s : State) (swap ack : Bool) {μ : Nat} {σ : State} (hk : Keeps μ σ s) (hm : within?
    0x10210000000000000000000000000000000000000000000000000000000000000000000000000000000000000000000000000000000000000000000000000000000000000000000000000000000000000000000000000000000000000000000000000000000000000000000000000000000000000000000000000000000000000000000000000000000000000000000000000000000000000000000000000000000000000000000000000000000000000000000000000000000000000000000000000000000000000000000000000000000000000000000000000000000000000000000000000000000000000000000000000000000000000000000000000000000000000000000000000000000000000000000000000000000000000000000000000000000000000000000000000000000000000000000000000000000000000000000000000000000000000000000000400000000000000000000000000000000000000000002000000000000000010000000000000000000000000000000000000000000000000000000000000000000006002081
    μ = true) : Keeps μ σ (State.ckptBuild s swap ack) := by
  refine hk.lift hm ?_
  unfold State.ckptBuild
  repeat' first
    | (extract_lets +onlyGivenNames u
       first
       | (refine Keeps.cut (u := u) ?_ (fun _ => ?_); subst u; on_goal 2 => clear_value u)
       | (have h := @id (_ → _) u; clear h; subst u)
       | clear_value u)
    | with_reducible assumption
    | (simp (decide := true) (maxDischargeDepth := 200) only [↓Keeps.refl, ↓Keeps.ite, ↓Keeps.mk,
      ↓State.incWrap_keeps, ↓State.wakeSent_keeps, or_true, true_or, eq_self, *]; done)
    | split

theorem State.ckptWait_keeps (s : State) {μ : Nat} {σ : State} (hk : Keeps μ σ s) (hm : within?
    0x40000000000000000000000000000600010000000000000000000000000000001100000000000000000000000000000000000000000000000000000000000000000000000000000000000000000000000000000000000000000000000000000000020080C0
    μ = true) : Keeps μ σ (State.ckptWait s) := by
  refine hk.lift hm ?_
  unfold State.ckptWait
  repeat' first
    | (extract_lets +onlyGivenNames u
       first
       | (refine Keeps.cut (u := u) ?_ (fun _ => ?_); subst u; on_goal 2 => clear_value u)
       | (have h := @id (_ → _) u; clear h; subst u)
       | clear_value u)
    | with_reducible assumption
    | (simp (decide := true) (maxDischargeDepth := 200) only [↓Keeps.refl, ↓Keeps.ite, ↓Keeps.mk,
      ↓State.serviceWake_keeps, or_true, true_or, eq_self, *]; done)
    | split

theorem execCheckpointBuild_keeps (wakeAck : Bool) (s : State) : Ends (Keeps
    0x1021000000000000000000000000000000000000000000000000000000000000000000000000000000000000000000000000000000000000000000000000000000000000000000000000000000000000000000000000000000000000000000000000000000000000000000000000000000000000000000000000000000000000000000000000000000000000000000000000000000000000000000000000000000000000000000000000000000000000000000000000000000000000000000000000000000000000000000000000000000000000000000000000000000000000000000000000000000000000000000000000000000000000000000000000000000000000000000000000000000000000000000000000000000000000000000000000000000000000000000000000000000400000000000000000000000000006000100000000000000000000000000000051000000000000000000000000000000000000000000200000000000000001000000000000000000000000000000000000000000000000000000000000000000000600A0C1
    s) (execCheckpointBuild wakeAck s) := by
  unfold execCheckpointBuild
  refine Ends.next ?_
  repeat' first
    | (extract_lets +onlyGivenNames u
       first
       | (refine Keeps.cut (u := u) ?_ (fun _ => ?_); subst u; on_goal 2 => clear_value u)
       | (have h := @id (_ → _) u; clear h; subst u)
       | clear_value u)
    | with_reducible assumption
    | (simp (decide := true) (maxDischargeDepth := 200) only [↓Keeps.next, ↓Keeps.endsIte, ↓Keeps.refl, ↓Keeps.ite,
      ↓Keeps.mk, ↓State.ckptBuild_keeps, ↓State.ckptWait_keeps, or_true, true_or, eq_self, *]; done)
    | split

theorem State.ckptNow_keeps (s : State) (f : Fn) {μ : Nat} {σ : State} (hk : Keeps μ σ s) (hm : within?
    0x40000000000000000000000000000600010000000000000000000000000000001100000000000000000000000000000000000000000000000000000000000000200000000000000000000000000000000000000000000000000000000000000000020080C0
    μ = true) : Keeps μ σ (State.ckptNow s f) := by
  refine hk.lift hm ?_
  unfold State.ckptNow
  repeat' first
    | (extract_lets +onlyGivenNames u
       first
       | (refine Keeps.cut (u := u) ?_ (fun _ => ?_); subst u; on_goal 2 => clear_value u)
       | (have h := @id (_ → _) u; clear h; subst u)
       | clear_value u)
    | with_reducible assumption
    | (simp (decide := true) (maxDischargeDepth := 200) only [↓Keeps.refl, ↓Keeps.ite, ↓Keeps.mk, ↓State.setErr_keeps,
      ↓State.ckptWait_keeps, or_true, true_or, eq_self, *]; done)
    | split

theorem State.xferEnd_keeps (s : State) {μ : Nat} {σ : State} (hk : Keeps μ σ s) (hm : within? 0x2000000 μ = true) :
    Keeps μ σ (State.xferEnd s) := by
  refine hk.lift hm ?_
  unfold State.xferEnd
  repeat' first
    | (extract_lets +onlyGivenNames u
       first
       | (refine Keeps.cut (u := u) ?_ (fun _ => ?_); subst u; on_goal 2 => clear_value u)
       | (have h := @id (_ → _) u; clear h; subst u)
       | clear_value u)
    | with_reducible assumption
    | (simp (decide := true) (maxDischargeDepth := 200) only [↓Keeps.refl, ↓Keeps.ite, ↓Keeps.mk, or_true, true_or,
      eq_self, *]; done)
    | split

theorem execChunkSend_keeps (ack : Bool) (s : State) : Ends (Keeps
    0x30000000000000000000000000000000000000000000000000000000000000000000000000000000000000000000000000000000000000000000000000000000000000000000000000000000000000000000000000000000000000000000000000000000000000000000000000000000000000000000000000000000000000000000000000000000000000000000000000000000000000000000000000000000000000000000000000000000000000000000000000000000000000000000000000000000000000000000000000000000000000000000000000000000000000000000000000000000000000000000000000000000000000000000000000000000000000000000000000000000000000000000000000000000000000000000000000000000000000000000000000000000000000000000000000000000000000000000000000000000000000000000000000000000000000000000000000000000000000000000000000000000000000000000000000000000000000000000000000000000000000000000000000000000000002000000
    s) (execChunkSend ack s) := by
  unfold execChunkSend
  refine Ends.next ?_
  repeat' first
    | (extract_lets +onlyGivenNames u
       first
       | (refine Keeps.cut (u := u) ?_ (fun _ => ?_); subst u; on_goal 2 => clear_value u)
       | (have h := @id (_ → _) u; clear h; subst u)
       | clear_value u)
    | with_reducible assumption
    | (simp (decide := true) (maxDischargeDepth := 200) only [↓Keeps.next, ↓Keeps.endsIte, ↓Keeps.refl, ↓Keeps.ite,
      ↓Keeps.mk, ↓State.xferEnd_keeps, ↓State.inc_keeps, ↓State.put_keeps, or_true, true_or, eq_self, *]; done)
    | split

theorem execTwinSwap_keeps (f : Fn) (s : State) : Ends (Keeps 0x2002000 s) (execTwinSwap f s) := by
  unfold execTwinSwap
  refine Ends.next ?_
  repeat' first
    | (extract_lets +onlyGivenNames u
       first
       | (refine Keeps.cut (u := u) ?_ (fun _ => ?_); subst u; on_goal 2 => clear_value u)
       | (have h := @id (_ → _) u; clear h; subst u)
       | clear_value u)
    | with_reducible assumption
    | (simp (decide := true) (maxDischargeDepth := 200) only [↓Keeps.next, ↓Keeps.endsIte, ↓Keeps.refl, ↓Keeps.ite,
      ↓Keeps.mk, ↓State.outcome_keeps, implies_true, or_true, true_or, eq_self, *]; done)
    | (with_reducible refine State.withOp_keeps _ _ _ _ ?_ (fun _ => ?_) <;> beta_reduce)
    | (with_reducible refine State.outcome_keeps _ _ _ _ ?_ (by decide))
    | split

theorem execSwapFailed_keeps (s : State) : Ends (Keeps
    0x10000000000000000000000000000000000000000000000000000000000000000000000000000000000000000000000000000000000000000000000000000000000000000000000000000000000000000000000000000000000000000000000000000000000000000000000000000000000000000000000000000000000000000000000000000000000000000000000000000000000000000000000000000000000000000000000000000000000000000000000000000000000000000000000000000000000000000000000000000000000000000000000000000000000000000000000000000000000000000000000000000000000000000000000000000000000000000000000000000000000000000000000000000000000000000000000000000000000000000000000000000000000000000000000000000000000000000000000000000000000000000000000000400000000000000000000000000000000000000000002000000000000000010000000000000000000000000000000000000000000000000000000000000000000002002081
    s) (execSwapFailed s) := by
  unfold execSwapFailed
  refine Ends.next ?_
  repeat' first
    | (extract_lets +onlyGivenNames u
       first
       | (refine Keeps.cut (u := u) ?_ (fun _ => ?_); subst u; on_goal 2 => clear_value u)
       | (have h := @id (_ → _) u; clear h; subst u)
       | clear_value u)
    | with_reducible assumption
    | (simp (decide := true) (maxDischargeDepth := 200) only [↓Keeps.next, ↓Keeps.endsIte, ↓Keeps.refl, ↓Keeps.ite,
      ↓Keeps.mk, ↓State.put_keeps, ↓State.twinRecTx_keeps, or_true, true_or, eq_self, *]; done)
    | split

theorem State.twinTime_keeps (s : State) (d : List Byte) {μ : Nat} {σ : State} (hk : Keeps μ σ s) (hm : within?
    0x100000 μ = true) : Keeps μ σ (State.twinTime s d) := by
  refine hk.lift hm ?_
  unfold State.twinTime
  repeat' first
    | (extract_lets +onlyGivenNames u
       first
       | (refine Keeps.cut (u := u) ?_ (fun _ => ?_); subst u; on_goal 2 => clear_value u)
       | (have h := @id (_ → _) u; clear h; subst u)
       | clear_value u)
    | with_reducible assumption
    | (simp (decide := true) (maxDischargeDepth := 200) only [↓Keeps.refl, ↓Keeps.ite, ↓Keeps.mk,
      ↓State.candidate_keeps, or_true, true_or, eq_self, *]; done)
    | split

theorem State.ckptJudge_keeps (s : State) (d : List Byte) {μ : Nat} {σ : State} (hk : Keeps μ σ s) (hm : within?
    0x1D7C10000000000000000000000000000000000000000000000000000000000000000000000000000000000000000000000000000000000000000000000000000000000000000000000000000000000000000000000000000000000000000000000000000000000000000000000000000000000000000000000000000000000000000000000000000000000000000000000000000000000000000000000000000000000000000000000000000000000000000000000000000000000000000000000000000000000000000000000000000000000000000000000000000000000000000000000000000000000000000000000000000000000000000000000000000000000000000000000000000000000000000000000000000000000000000000000000000000000000000000000000000000000000000000000000000000000000000000000000000000000000000000000000000000000000000000000000000000000000000000000000000000000000000000000000000000000000000000000000000000000000000000000000000000002100000
    μ = true) : Keeps μ σ (State.ckptJudge s d) := by
  refine hk.lift hm ?_
  unfold State.ckptJudge
  repeat' first
    | (extract_lets +onlyGivenNames u
       first
       | (refine Keeps.cut (u := u) ?_ (fun _ => ?_); subst u; on_goal 2 => clear_value u)
       | (have h := @id (_ → _) u; clear h; subst u)
       | clear_value u)
    | with_reducible assumption
    | (simp (decide := true) (maxDischargeDepth := 200) only [↓Keeps.refl, ↓Keeps.ite, ↓Keeps.mk, ↓State.put_keeps,
      ↓State.inc_keeps, ↓State.put32_keeps, ↓State.twinTime_keeps, or_true, true_or, eq_self, *]; done)
    | split

theorem State.chunkIn_keeps (s : State) (seq n : Nat) (data : List Byte) {μ : Nat} {σ : State} (hk : Keeps μ σ s) (hm
    : within?
    0x1D7C10000000000000000000000000000000000000000000000000000000000000000000000000000000000000000000000000000000000000000000000000000000000000000000000000000000000000000000000000000000000000000000000000000000000000000000000000000000000000000000000000000000000000000000000000000000000000000000000000000000000000000000000000000000000000000000000000000000000000000000000000000000000000000000000000000000000000000000000000000000000000000000000000000000000000000000000000000000000000000000000000000000000000000000000000000000000000000000000000000000000000000000000000000000000000000000000000000000000000000000000000000000000000000000000000000000000000000000000000000000000000000000000000000000000000000000000000000000000000000000000000000000000000000000000000000000000000000000000000000000000000000000000000000000002100000
    μ = true) : Keeps μ σ (State.chunkIn s seq n data) := by
  refine hk.lift hm ?_
  unfold State.chunkIn
  repeat' first
    | (extract_lets +onlyGivenNames u
       first
       | (refine Keeps.cut (u := u) ?_ (fun _ => ?_); subst u; on_goal 2 => clear_value u)
       | (have h := @id (_ → _) u; clear h; subst u)
       | clear_value u)
    | with_reducible assumption
    | (simp (decide := true) (maxDischargeDepth := 200) only [↓Keeps.refl, ↓Keeps.ite, ↓Keeps.mk,
      ↓State.ckptJudge_keeps, or_true, true_or, eq_self, *]; done)
    | split

theorem execTwinFrameReceived_keeps (bytes : List Byte) (pec : Byte) (s : State) : Ends (Keeps
    0x1DFC1000000000000000000000000000000000000000000000000000000000000000000000000000000000000000000000000000000000000000000000000000000000000000000000000000000000000000000000000000000000000000000000000000000000000000000000000000000000000000000000000000000000000000000000000000000000000000000000000000000000000000000000000000000000000000000000000000000000000000000000000000000000000000000000000000000000000000000000000000000000000000000000000000000000000000000000000000000000000000000000000000000000000000000000000000000000000000000000000000000000000000000000000000000000000000000000000000000000000000000000000000000400000000000000000000000000006000100000000000000000000000000000051000000000000000000000000000000000000000000200000000000000001000000000000000000000000000000000000000000000000000000000000000000000610A0C1
    s) (execTwinFrameReceived bytes pec s) := by
  unfold execTwinFrameReceived
  refine Ends.next ?_
  repeat' first
    | (extract_lets +onlyGivenNames u
       first
       | (refine Keeps.cut (u := u) ?_ (fun _ => ?_); subst u; on_goal 2 => clear_value u)
       | (have h := @id (_ → _) u; clear h; subst u)
       | clear_value u)
    | with_reducible assumption
    | (simp (decide := true) (maxDischargeDepth := 200) only [↓Keeps.next, ↓Keeps.endsIte, ↓Keeps.refl, ↓Keeps.ite,
      ↓Keeps.mk, ↓State.wake_keeps, ↓State.chunkIn_keeps, ↓State.wantClaim_keeps, ↓State.twinRecRx_keeps,
      ↓State.feedPartner_keeps, ↓State.put_keeps, ↓State.inc_keeps, or_true, true_or, eq_self, *]; done)
    | split

theorem execPartialSetTimeout_keeps (s : State) : Ends (Keeps 0x2000000 s) (execPartialSetTimeout s) := by
  unfold execPartialSetTimeout
  refine Ends.next ?_
  repeat' first
    | (extract_lets +onlyGivenNames u
       first
       | (refine Keeps.cut (u := u) ?_ (fun _ => ?_); subst u; on_goal 2 => clear_value u)
       | (have h := @id (_ → _) u; clear h; subst u)
       | clear_value u)
    | with_reducible assumption
    | (simp (decide := true) (maxDischargeDepth := 200) only [↓Keeps.next, ↓Keeps.endsIte, ↓Keeps.refl, ↓Keeps.ite,
      ↓Keeps.mk, or_true, true_or, eq_self, *]; done)
    | split

theorem execCheckpointConfigCopy_keeps (s : State) : Ends (Keeps 0x2000000 s) (execCheckpointConfigCopy s) := by
  unfold execCheckpointConfigCopy
  refine Ends.next ?_
  repeat' first
    | (extract_lets +onlyGivenNames u
       first
       | (refine Keeps.cut (u := u) ?_ (fun _ => ?_); subst u; on_goal 2 => clear_value u)
       | (have h := @id (_ → _) u; clear h; subst u)
       | clear_value u)
    | with_reducible assumption
    | (simp (decide := true) (maxDischargeDepth := 200) only [↓Keeps.next, ↓Keeps.endsIte, ↓Keeps.refl, ↓Keeps.ite,
      ↓Keeps.mk, or_true, true_or, eq_self, *]; done)
    | split

theorem execStandbySelftest_keeps (mask : Nat) (s : State) : Ends (Keeps
    0x800000000000000000000000000000000000000000000000000000000000000000000000000000000000000000000000000000000000000000000000000000000000000000000000000000000000000000000000000000000000000000000000000000000000000000000000000000000000000000000000000000000000000000000000000000000000000000000000000000000000000000000000000000000000000000000000000000000000000000000000000000000000000000000000000000000000000000000000000000000000000000000000000000000000000000000000000000000000000000000000000000000000000000000000000000000000000000000000000000000000000000000000000000000000000000000000000000000000000000000000000000000400000000000000000000000000006000100000000000000000000000000000051000000000000000000000000000000000000000000200000000000000001000000000000000000000000000000000000000000000000000000000000000000000600A0C1
    s) (execStandbySelftest mask s) := by
  unfold execStandbySelftest
  refine Ends.next ?_
  repeat' first
    | (extract_lets +onlyGivenNames u
       first
       | (refine Keeps.cut (u := u) ?_ (fun _ => ?_); subst u; on_goal 2 => clear_value u)
       | (have h := @id (_ → _) u; clear h; subst u)
       | clear_value u)
    | with_reducible assumption
    | (simp (decide := true) (maxDischargeDepth := 200) only [↓Keeps.next, ↓Keeps.endsIte, ↓Keeps.refl, ↓Keeps.ite,
      ↓Keeps.mk, ↓State.showMaintain_keeps, ↓State.twinRecRx_keeps, ↓State.feedSelf_keeps, ↓State.put_keeps,
      ↓State.serviceWake_keeps, or_true, true_or, eq_self, *]; done)
    | split

end Sys2Proof.Machine
end

