-- ==== Sys2Proof/Laws/KeepsReports.lean ====
section
/-! SUPPORT. What each operation of Machine/Reports.lean may change, and that it keeps the canonical form. -/

set_option Elab.async false

set_option linter.unusedSimpArgs false
set_option linter.unusedTactic false
set_option linter.unreachableTactic false

namespace Sys2Proof.Machine

open R

theorem State.noteRefusal_keeps (s : State) (err : Nat) {μ : Nat} {σ : State} (hk : Keeps μ σ s) (hm : within?
    0x20000000000000000000000000000000000000000000000000000000000000000000000000000000000000000000000000000000000000000000000000000000000000000000000000000000000000000000000000000000000000000000000000000000000000000000000000000000000000000
    μ = true) : Keeps μ σ (State.noteRefusal s err) := by
  refine hk.lift hm ?_
  unfold State.noteRefusal
  repeat' first
    | (extract_lets +onlyGivenNames u
       first
       | (refine Keeps.cut (u := u) ?_ (fun _ => ?_); subst u; on_goal 2 => clear_value u)
       | (have h := @id (_ → _) u; clear h; subst u)
       | clear_value u)
    | with_reducible assumption
    | (simp (decide := true) (maxDischargeDepth := 200) only [↓Keeps.refl, ↓Keeps.ite, ↓Keeps.mk, ↓State.inc_keeps,
      or_true, true_or, eq_self, *]; done)
    | split

theorem execSignRecord_keeps (f : Fn) (s : State) : Ends (Keeps
    0x20000000000000000000000000000000000000000000000000000000000000000000000000000000000000000000000000000000000000000000000000000000000000000000000000000000000000000000000000000000000000000000000000000000000000000000000000000000010002000
    s) (execSignRecord f s) := by
  unfold execSignRecord
  refine Ends.next ?_
  repeat' first
    | (extract_lets +onlyGivenNames u
       first
       | (refine Keeps.cut (u := u) ?_ (fun _ => ?_); subst u; on_goal 2 => clear_value u)
       | (have h := @id (_ → _) u; clear h; subst u)
       | clear_value u)
    | with_reducible assumption
    | (simp (decide := true) (maxDischargeDepth := 200) only [↓Keeps.next, ↓Keeps.endsIte, ↓Keeps.refl, ↓Keeps.ite,
      ↓Keeps.mk, ↓State.freshWords_snd, ↓State.outcome_keeps, ↓State.noteRefusal_keeps, implies_true, or_true,
      true_or, eq_self, *]; done)
    | (split <;>
        (rename_i e
         refine Keeps.cut (State.freshWords_out (by with_reducible exact e) ?_ (by decide)) (fun _ => ?_) <;> clear e))
    | (with_reducible refine State.withFlint_keeps _ _ _ _ ?_ (fun _ => ?_) <;> beta_reduce)
    | (with_reducible refine State.freshWords_snd _ _ ?_ (by decide))
    | (with_reducible refine State.outcome_keeps _ _ _ _ ?_ (by decide))
    | (with_reducible refine State.noteRefusal_keeps _ _ ?_ (by decide))
    | split

theorem execHealthReport_keeps (f : Fn) (sig : List Byte) (s : State) : Ends (Keeps
    0x20000000000000000000000000000000000000000000000000000000000000000000000000000000000000000000000000000000000000000000000000000000000000000000000000000000000000000000000000000000000000000000000000000000000000000000000000000000000002004
    s) (execHealthReport f sig s) := by
  unfold execHealthReport
  refine Ends.next ?_
  repeat' first
    | (extract_lets +onlyGivenNames u
       first
       | (refine Keeps.cut (u := u) ?_ (fun _ => ?_); subst u; on_goal 2 => clear_value u)
       | (have h := @id (_ → _) u; clear h; subst u)
       | clear_value u)
    | with_reducible assumption
    | (simp (decide := true) (maxDischargeDepth := 200) only [↓Keeps.next, ↓Keeps.endsIte, ↓Keeps.refl, ↓Keeps.ite,
      ↓Keeps.mk, ↓State.outcome_keeps, ↓State.setBytes_keeps, ↓State.noteRefusal_keeps, implies_true, or_true,
      true_or, eq_self, *]; done)
    | (with_reducible refine State.withFlint_keeps _ _ _ _ ?_ (fun _ => ?_) <;> beta_reduce)
    | (with_reducible refine State.outcome_keeps _ _ _ _ ?_ (by decide))
    | (with_reducible refine State.setBytes_keeps _ _ _ ?_ (by decide))
    | (with_reducible refine State.noteRefusal_keeps _ _ ?_ (by decide))
    | split

end Sys2Proof.Machine
end

