-- ==== Sys2Proof/Laws/KeepsBus.lean ====
section
/-! SUPPORT. What each operation of Machine/Bus.lean may change, and that it keeps the canonical form. -/

set_option Elab.async false

set_option linter.unusedSimpArgs false
set_option linter.unusedTactic false
set_option linter.unreachableTactic false

namespace Sys2Proof.Machine

open R

theorem State.gpioLevel_snd (s : State) (cfg : Nat) {μ : Nat} {σ : State} (hk : Keeps μ σ s) (hm : within? 0x10000000
    μ = true) : Keeps μ σ (State.gpioLevel s cfg).2 := by
  refine hk.lift hm ?_
  unfold State.gpioLevel
  repeat' first
    | (extract_lets +onlyGivenNames u
       first
       | (refine Keeps.cut (u := u) ?_ (fun _ => ?_); subst u; on_goal 2 => clear_value u)
       | (have h := @id (_ → _) u; clear h; subst u)
       | clear_value u)
    | with_reducible assumption
    | (simp (decide := true) (maxDischargeDepth := 200) only [↓Keeps.refl, ↓Keeps.ite, ↓Keeps.mk, ↓State.fresh_snd,
      or_true, true_or, eq_self, *]; done)
    | (split <;>
        (rename_i e
         refine Keeps.cut (State.fresh_out (by with_reducible exact e) ?_ (by decide)) (fun _ => ?_) <;> clear e))
    | (with_reducible refine State.fresh_snd _ ?_ (by decide))
    | split
    | dsimp (zeta := false) only

theorem State.gpioLevel_out {s u : State} {cfg : Nat} {r : Bool} (e : State.gpioLevel s cfg = (r, u)) {μ : Nat} {σ :
    State} (hk : Keeps μ σ s) (hm : within? 0x10000000 μ = true) : Keeps μ σ u := by
  have h := State.gpioLevel_snd s cfg hk hm
  rw [e] at h
  exact h

theorem State.gpioIn_snd (s : State) {μ : Nat} {σ : State} (hk : Keeps μ σ s) (hm : within? 0x10000000 μ = true) :
    Keeps μ σ (State.gpioIn s).2 := by
  refine hk.lift hm ?_
  unfold State.gpioIn
  repeat' first
    | (extract_lets +onlyGivenNames u
       first
       | (refine Keeps.cut (u := u) ?_ (fun _ => ?_); subst u; on_goal 2 => clear_value u)
       | (have h := @id (_ → _) u; clear h; subst u)
       | clear_value u)
    | with_reducible assumption
    | (simp (decide := true) (maxDischargeDepth := 200) only [↓Keeps.refl, ↓Keeps.ite, ↓Keeps.mk,
      ↓State.gpioLevel_snd, or_true, true_or, eq_self, *]; done)
    | (split <;>
        (rename_i e
         refine Keeps.cut (State.gpioLevel_out (by with_reducible exact e) ?_ (by decide)) (fun _ => ?_) <;> clear e))
    | (with_reducible refine State.gpioLevel_snd _ _ ?_ (by decide))
    | split
    | dsimp (zeta := false) only

theorem State.gpioIn_out {s u : State}  {r : Word} (e : State.gpioIn s = (r, u)) {μ : Nat} {σ : State} (hk : Keeps μ σ
    s) (hm : within? 0x10000000 μ = true) : Keeps μ σ u := by
  have h := State.gpioIn_snd s hk hm
  rw [e] at h
  exact h

theorem State.live_snd (s : State) (f : Fn) (k : Nat) {μ : Nat} {σ : State} (hk : Keeps μ σ s) (hm : within?
    0x1000000000000000000000000000000000000000000000000000000000000000000000000000000000000000000000000000000000000000000000000000000000000000000000000000000000000001000000000000000000000000000000000000000000000000000000000000200000000000000000000000000000000000000000000000000000000000000000000000000000000000000000000000000000000000000000000000000000000000000000000000000000000000000000000000000000000000000000000000000000000000000000000000000000000000000000000000000000000000000000000000000000000000000000000000000000000000000000000000000000000000000000000000000000000000000000000000000000000000000000000000000000000000000000000000000000000000010000000
    μ = true) : Keeps μ σ (State.live s f k).2 := by
  refine hk.lift hm ?_
  unfold State.live
  repeat' first
    | (extract_lets +onlyGivenNames u
       first
       | (refine Keeps.cut (u := u) ?_ (fun _ => ?_); subst u; on_goal 2 => clear_value u)
       | (have h := @id (_ → _) u; clear h; subst u)
       | clear_value u)
    | with_reducible assumption
    | (simp (decide := true) (maxDischargeDepth := 200) only [↓Keeps.refl, ↓Keeps.ite, ↓Keeps.mk, ↓State.gpioIn_snd,
      ↓State.putBit_keeps, ↓State.showCalAge_keeps, ↓State.showLfDev_keeps, or_true, true_or, eq_self, *]; done)
    | (split <;>
        (rename_i e
         refine Keeps.cut (State.gpioIn_out (by with_reducible exact e) ?_ (by decide)) (fun _ => ?_) <;> clear e))
    | (with_reducible refine State.gpioIn_snd _ ?_ (by decide))
    | (with_reducible refine State.putBit_keeps _ _ _ ?_ (by decide))
    | (with_reducible refine State.showCalAge_keeps _ ?_ (by decide))
    | (with_reducible refine State.showLfDev_keeps _ ?_ (by decide))
    | split
    | dsimp (zeta := false) only

theorem State.live_out {s u : State} {f : Fn} {k : Nat} {r : Word} (e : State.live s f k = (r, u)) {μ : Nat} {σ :
    State} (hk : Keeps μ σ s) (hm : within?
    0x1000000000000000000000000000000000000000000000000000000000000000000000000000000000000000000000000000000000000000000000000000000000000000000000000000000000000001000000000000000000000000000000000000000000000000000000000000200000000000000000000000000000000000000000000000000000000000000000000000000000000000000000000000000000000000000000000000000000000000000000000000000000000000000000000000000000000000000000000000000000000000000000000000000000000000000000000000000000000000000000000000000000000000000000000000000000000000000000000000000000000000000000000000000000000000000000000000000000000000000000000000000000000000000000000000000000000000010000000
    μ = true) : Keeps μ σ u := by
  have h := State.live_snd s f k hk hm
  rw [e] at h
  exact h

theorem State.setLatch_keeps (s : State) (k : Nat) (w : Word) {μ : Nat} {σ : State} (hk : Keeps μ σ s)
    (hm : within? 0x2 μ = true) :
    Keeps μ σ { s with latches := Sparse.put (fun _ => (0 : Word)) s.latches k w } := by
  refine hk.lift hm ⟨fun hc => ⟨hc.1, hc.2.1, Sparse.wf_put _ _ _ hc.2.2.1, hc.2.2.2⟩, rfl, rfl, fun _ _ => rfl, fun a ha => ?_⟩
  cases a
  case latches => exact absurd ha (by decide)
  all_goals first | exact trivial | rfl

theorem State.capture_keeps (s : State) (p : HostPort) (f : Fn) (k n : Nat) {μ : Nat} {σ : State} (hk : Keeps μ σ s)
    (hm : within? 0x1000000000000000000000000000000000000000000000000000000000000000000000000000000000000000000000000000000000000000000000000000000000000000000000000000000000000001000000000000000000000000000000000000000000000000000000000000200000000000000000000000000000000000000000000000000000000000000000000000000000000000000000000000000000000000000000000000000000000000000000000000000000000000000000000000000000000000000000000000000000000000000000000000000000000000000000000000000000000000000000000000000000000000000000000000000000000000000000000000000000000000000000000000000000000000000000000000000000000000000000000000000000000000000000000000000000000000010000002 μ = true) : Keeps μ σ (s.capture p f k n) := by
  induction n generalizing s k with
  | zero => exact hk
  | succ n ih =>
    refine ih _ _ (State.setLatch_keeps _ _ _ (hk.lift hm ?_) (Keeps.within_trans (by decide) hm))
    exact State.live_snd _ _ _ .refl (by decide)

theorem State.memPeek_snd (s : State) (f : Fn) {μ : Nat} {σ : State} (hk : Keeps μ σ s) (hm : within?
    0x70000000000000000000000020000000000000000000000000000000000000000000000000000000000000000004002000 μ = true) :
    Keeps μ σ (State.memPeek s f).2 := by
  refine hk.lift hm ?_
  unfold State.memPeek
  repeat' first
    | (extract_lets +onlyGivenNames u
       first
       | (refine Keeps.cut (u := u) ?_ (fun _ => ?_); subst u; on_goal 2 => clear_value u)
       | (have h := @id (_ → _) u; clear h; subst u)
       | clear_value u)
    | with_reducible assumption
    | (simp (decide := true) (maxDischargeDepth := 200) only [↓Keeps.refl, ↓Keeps.ite, ↓Keeps.mk, ↓State.memRead_snd,
      ↓State.setMemAddr_keeps, or_true, true_or, eq_self, *]; done)
    | (split <;>
        (rename_i e
         refine Keeps.cut (State.memRead_out (by with_reducible exact e) ?_ (by decide)) (fun _ => ?_) <;> clear e))
    | (with_reducible refine State.memRead_snd _ _ _ ?_ (by decide))
    | (with_reducible refine State.setMemAddr_keeps _ _ _ ?_ (by decide))
    | split
    | dsimp (zeta := false) only

theorem State.memPeek_out {s u : State} {f : Fn} {r : Word} (e : State.memPeek s f = (r, u)) {μ : Nat} {σ : State} (hk
    : Keeps μ σ s) (hm : within?
    0x70000000000000000000000020000000000000000000000000000000000000000000000000000000000000000004002000 μ = true) :
    Keeps μ σ u := by
  have h := State.memPeek_snd s f hk hm
  rw [e] at h
  exact h

theorem State.readKey_snd (s : State) (p : HostPort) (f : Fn) (k : Nat) {μ : Nat} {σ : State} (hk : Keeps μ σ s) (hm :
    within?
    0x1000000000000000000000000000000000000000000000000000000000000000000000000000000000000000000000000000000000000000000000000000000000000000000000000000000000000001000000000000000000000000000000000000000000000000000000000000200000000000000000000000000000000000000000000000000000000000000000000000000000000000000000000000000000000000000000000000000000000000000000000000000000000000000000000000000000000000000000000000000000000000000000000000000000000000000000000000000000000000000000000000000000000000000000000000000000000000000000000000000000000000000000070000000000000000000000020000000000000000000000000000000000000000000000000000000000000000014002002
    μ = true) : Keeps μ σ (State.readKey s p f k).2 := by
  refine hk.lift hm ?_
  unfold State.readKey
  repeat' first
    | (extract_lets +onlyGivenNames u
       first
       | (refine Keeps.cut (u := u) ?_ (fun _ => ?_); subst u; on_goal 2 => clear_value u)
       | (have h := @id (_ → _) u; clear h; subst u)
       | clear_value u)
    | with_reducible assumption
    | (simp (decide := true) (maxDischargeDepth := 200) only [↓Keeps.refl, ↓Keeps.ite, ↓Keeps.mk, ↓State.memPeek_snd,
      ↓State.capture_keeps, ↓State.live_snd, or_true, true_or, eq_self, *]; done)
    | (split <;>
        (rename_i e
         refine Keeps.cut (State.memPeek_out (by with_reducible exact e) ?_ (by decide)) (fun _ => ?_) <;> clear e))
    | (split <;>
        (rename_i e
         refine Keeps.cut (State.live_out (by with_reducible exact e) ?_ (by decide)) (fun _ => ?_) <;> clear e))
    | (with_reducible refine State.memPeek_snd _ _ ?_ (by decide))
    | (with_reducible refine State.capture_keeps _ _ _ _ _ ?_ (by decide))
    | (with_reducible refine State.live_snd _ _ _ ?_ (by decide))
    | split
    | dsimp (zeta := false) only

theorem State.readKey_out {s u : State} {p : HostPort} {f : Fn} {k : Nat} {r : Word} (e : State.readKey s p f k = (r,
    u)) {μ : Nat} {σ : State} (hk : Keeps μ σ s) (hm : within?
    0x1000000000000000000000000000000000000000000000000000000000000000000000000000000000000000000000000000000000000000000000000000000000000000000000000000000000000001000000000000000000000000000000000000000000000000000000000000200000000000000000000000000000000000000000000000000000000000000000000000000000000000000000000000000000000000000000000000000000000000000000000000000000000000000000000000000000000000000000000000000000000000000000000000000000000000000000000000000000000000000000000000000000000000000000000000000000000000000000000000000000000000000000070000000000000000000000020000000000000000000000000000000000000000000000000000000000000000014002002
    μ = true) : Keeps μ σ u := by
  have h := State.readKey_snd s p f k hk hm
  rw [e] at h
  exact h

theorem State.fetch_snd (s : State) (p : HostPort) (f : Fn) (off : Nat) (early : Bool) {μ : Nat} {σ : State} (hk :
    Keeps μ σ s) (hm : within?
    0x1000000000000000000000000000000000000000000000000000000000000000000000000000000000000000000000000000000000000000000000000000000000000000000000000000000000000001000000000000000000000000000000000000000000000000000000000000200000000000000000000000000000000000000000000000000000000000000000000000000000000000000000000000000000000000000000000000000000000000000000000000000000000000000000000000000000000000000000000000000000000000000000000000000000000000000000000000000000000000000000000000000000000000000000000000000000000000000000000000000000000000000000070000000000000000000000020000000000000000000000000000000000000000000000000000000000000000014002002
    μ = true) : Keeps μ σ (State.fetch s p f off early).2 := by
  refine hk.lift hm ?_
  unfold State.fetch
  repeat' first
    | (extract_lets +onlyGivenNames u
       first
       | (refine Keeps.cut (u := u) ?_ (fun _ => ?_); subst u; on_goal 2 => clear_value u)
       | (have h := @id (_ → _) u; clear h; subst u)
       | clear_value u)
    | with_reducible assumption
    | (simp (decide := true) (maxDischargeDepth := 200) only [↓Keeps.refl, ↓Keeps.ite, ↓Keeps.mk, ↓State.readKey_snd,
      ↓State.setErr_keeps, or_true, true_or, eq_self, *]; done)
    | (split <;>
        (rename_i e
         refine Keeps.cut (State.readKey_out (by with_reducible exact e) ?_ (by decide)) (fun _ => ?_) <;> clear e))
    | (with_reducible refine State.readKey_snd _ _ _ _ ?_ (by decide))
    | (with_reducible refine State.setErr_keeps _ _ _ ?_ (by decide))
    | split
    | dsimp (zeta := false) only

theorem State.fetch_out {s u : State} {p : HostPort} {f : Fn} {off : Nat} {early : Bool} {r : Word} (e : State.fetch s
    p f off early = (r, u)) {μ : Nat} {σ : State} (hk : Keeps μ σ s) (hm : within?
    0x1000000000000000000000000000000000000000000000000000000000000000000000000000000000000000000000000000000000000000000000000000000000000000000000000000000000000001000000000000000000000000000000000000000000000000000000000000200000000000000000000000000000000000000000000000000000000000000000000000000000000000000000000000000000000000000000000000000000000000000000000000000000000000000000000000000000000000000000000000000000000000000000000000000000000000000000000000000000000000000000000000000000000000000000000000000000000000000000000000000000000000000000070000000000000000000000020000000000000000000000000000000000000000000000000000000000000000014002002
    μ = true) : Keeps μ σ u := by
  have h := State.fetch_snd s p f off early hk hm
  rw [e] at h
  exact h

theorem State.remove_keeps (s : State) (f : Fn) (off : Nat) (early : Bool) {μ : Nat} {σ : State} (hk : Keeps μ σ s)
    (hm : within? 0x70000000000000000000000020000000000000000000000000000000000000000000000000000000000000000004002000
    μ = true) : Keeps μ σ (State.remove s f off early) := by
  refine hk.lift hm ?_
  unfold State.remove
  repeat' first
    | (extract_lets +onlyGivenNames u
       first
       | (refine Keeps.cut (u := u) ?_ (fun _ => ?_); subst u; on_goal 2 => clear_value u)
       | (have h := @id (_ → _) u; clear h; subst u)
       | clear_value u)
    | with_reducible assumption
    | (simp (decide := true) (maxDischargeDepth := 200) only [↓Keeps.refl, ↓Keeps.ite, ↓Keeps.mk, ↓State.dqRead_snd,
      ↓State.memRead_snd, ↓State.setMemAddr_keeps, or_true, true_or, eq_self, *]; done)
    | (split <;>
        (rename_i e
         refine Keeps.cut (State.dqRead_out (by with_reducible exact e) ?_ (by decide)) (fun _ => ?_) <;> clear e))
    | (split <;>
        (rename_i e
         refine Keeps.cut (State.memRead_out (by with_reducible exact e) ?_ (by decide)) (fun _ => ?_) <;> clear e))
    | (with_reducible refine State.dqRead_snd _ _ ?_ (by decide))
    | (with_reducible refine State.memRead_snd _ _ _ ?_ (by decide))
    | (with_reducible refine State.setMemAddr_keeps _ _ _ ?_ (by decide))
    | split

theorem State.addrWrite_keeps (s : State) (f : Fn) (k : Nat) (new : Word) {μ : Nat} {σ : State} (hk : Keeps μ σ s)
    (hm : within?
    0x3F0000000000000000000000000000000000000000000000000000000000000000000000000000000000000000000000000000000000000000000000000000000000000000000000000000000000000000000000000000000000000000000000000000000000000000000000000000000000000000000000000000000000000020000000000000000000000000000000000000000000000000000000000000000000001000
    μ = true) (hx : regIn
    0x3F0000000000000000000000000000000000000000000000000000000000000000000000000000000000000000000000000000000000000000000000000000000000000000000000000000000000000000000000000000000000000000000000000000000000000000000000000000000000000000000000000000000000000020000000000000000000000000000000000000000000000000000000000000000000001000
    k = true) : Keeps μ σ (State.addrWrite s f k new) := by
  refine hk.lift hm ?_
  unfold State.addrWrite
  repeat' first
    | (extract_lets +onlyGivenNames u
       first
       | (refine Keeps.cut (u := u) ?_ (fun _ => ?_); subst u; on_goal 2 => clear_value u)
       | (have h := @id (_ → _) u; clear h; subst u)
       | clear_value u)
    | with_reducible assumption
    | (simp (decide := true) (maxDischargeDepth := 200) only [↓Keeps.refl, ↓Keeps.ite, ↓Keeps.mk,
      ↓State.setReg_keeps, ↓State.setErr_keeps, or_true, true_or, eq_self, hx, *]; done)
    | split

/-- Every command of a list keeps what `m` keeps. -/

def allKeep (m : Nat) : List (Nat × (State → State)) → Prop
  | [] => True
  | b :: l => (∀ t, Keeps m t (b.2 t)) ∧ allKeep m l

theorem State.woBits_keeps (s : State) (f : Fn) (v : Word) (l : List (Nat × (State → State))) {μ : Nat} {σ : State}
    (hk : Keeps μ σ s) (hm : within? 0x20000000000000000000000000000000000000000000000000000000000000000000000000 μ = true) (hl : allKeep μ l) : Keeps μ σ (s.woBits f v l) := by
  unfold State.woBits
  have h : ∀ (l : List (Nat × (State → State))) (r : State × Nat), allKeep μ l → Keeps μ σ r.1 →
      Keeps μ σ (l.foldl (fun (r : State × Nat) (b : Nat × (State → State)) =>
        if v.getLsbD b.1 then
          (b.2 (r.1.setErr f 0),
            if r.2 = 0 then (b.2 (r.1.setErr f 0)).fget f FN_ERR.CODE else r.2)
        else r) r).1 := by
    intro l
    induction l with
    | nil => exact fun _ _ h => h
    | cons b l ih =>
      intro r hl hr
      refine ih _ hl.2 ?_
      dsimp only
      split
      · exact (State.setErr_keeps _ _ _ hr hm).trans (hl.1 _)
      · exact hr
  exact State.setErr_keeps _ _ _ (h l (s, 0) hl hk) hm

theorem State.twReset_keeps (s : State) {μ : Nat} {σ : State} (hk : Keeps μ σ s) (hm : within?
    0xF0000000000000000000000000000000000000000000000000000000000000000000000000000000000000000000000000000000000000000000000000000000000000000000000000000000000000000000000000000000000000000000000004000000000000000000000000000000000000000000000000000000000000200A0000000000000000000000000000000000000000000000000000000000000000000003081
    μ = true) : Keeps μ σ (State.twReset s) := by
  refine hk.lift hm ?_
  unfold State.twReset
  repeat' first
    | (extract_lets +onlyGivenNames u
       first
       | (refine Keeps.cut (u := u) ?_ (fun _ => ?_); subst u; on_goal 2 => clear_value u)
       | (have h := @id (_ → _) u; clear h; subst u)
       | clear_value u)
    | with_reducible assumption
    | (simp (decide := true) (maxDischargeDepth := 200) only [↓Keeps.refl, ↓Keeps.ite, ↓Keeps.mk, ↓State.twEvt_keeps,
      ↓State.attnEnd_keeps, ↓State.twAbandon_keeps, or_true, true_or, eq_self, *]; done)
    | split

theorem State.twrstDrive_keeps (s : State) {μ : Nat} {σ : State} (hk : Keeps μ σ s) (hm : within?
    0xF0000000000000000000000000000000000000000000000000000000000000000000000000000000000000000000000000000000000000000000000000000000000000000000000000000000000000000000000000000000000000000000000004000000000000000000000000000000000000000000000000000000000000200A00000000000000000000000000000000000000000000000000000000000000000000030A1
    μ = true) : Keeps μ σ (State.twrstDrive s) := by
  refine hk.lift hm ?_
  unfold State.twrstDrive
  repeat' first
    | (extract_lets +onlyGivenNames u
       first
       | (refine Keeps.cut (u := u) ?_ (fun _ => ?_); subst u; on_goal 2 => clear_value u)
       | (have h := @id (_ → _) u; clear h; subst u)
       | clear_value u)
    | with_reducible assumption
    | (simp (decide := true) (maxDischargeDepth := 200) only [↓Keeps.refl, ↓Keeps.ite, ↓Keeps.mk,
      ↓State.twReset_keeps, or_true, true_or, eq_self, *]; done)
    | split

theorem State.writeCommon_keeps (s : State) (f : Fn) (k : Nat) (v new : Word) {μ : Nat} {σ : State} (hk : Keeps μ σ
    s) (hm : within?
    0x182C10000000000000000000000000000000200000000000000000000000000004080000000000000000000000000000040800000000000000000000000000001800000000000000000000000000000000600000000000000000000000000000000210000000000000000FFFFFFFF002007FD000000000000000001FFFFFF0001300300000000000000000000000000000000000000000000000000000000000000010000000000000000000000000000010900000000000000000000000000024001000000000000000000000000000000010000000000000000000000000000050000000000000000000000000000000000000000000000000000000000F80000000000000000000000000000000000000000000000000000000000000000000040000000000000000000000000000600010000000000000000000000000000005100000000000000000000000000000001FFFFFFFFFFFFFFFFFFFFFFFFFFFFFFFF000000000000000000000000000000000000000000000000000000000000000115EFF6C5
    μ = true) (hx : regIn
    0x182C10000000000000000000000000000000200000000000000000000000000004080000000000000000000000000000040800000000000000000000000000001800000000000000000000000000000000600000000000000000000000000000000210000000000000000FFFFFFFF002007FD000000000000000001FFFFFF0001300300000000000000000000000000000000000000000000000000000000000000010000000000000000000000000000010900000000000000000000000000024001000000000000000000000000000000010000000000000000000000000000050000000000000000000000000000000000000000000000000000000000F80000000000000000000000000000000000000000000000000000000000000000000040000000000000000000000000000600010000000000000000000000000000005100000000000000000000000000000001FFFFFFFFFFFFFFFFFFFFFFFFFFFFFFFF000000000000000000000000000000000000000000000000000000000000000115EFF6C5
    k = true) : Keeps μ σ (State.writeCommon s f k v new) := by
  refine hk.lift hm ?_
  unfold State.writeCommon
  repeat' first
    | (extract_lets +onlyGivenNames u
       first
       | (refine Keeps.cut (u := u) ?_ (fun _ => ?_); subst u; on_goal 2 => clear_value u)
       | (have h := @id (_ → _) u; clear h; subst u)
       | clear_value u)
    | with_reducible assumption
    | (simp (decide := true) (maxDischargeDepth := 200) only [↓Keeps.refl, ↓Keeps.ite, ↓State.resetStart_keeps,
      ↓State.setErr_keeps, ↓State.attnCancel_keeps, ↓State.setReg_keeps, ↓State.cmdGo_keeps, ↓State.woBits_keeps,
      ↓State.planBegin_keeps, ↓State.planSubmit_keeps, ↓State.planWithdraw_keeps, ↓State.planWidx_keeps,
      ↓State.wrec15_keeps, ↓State.flushQueue_keeps, ↓State.memAddrWrite_keeps, ↓State.memWrite_keeps, implies_true,
      hx, *]; done)
    | (with_reducible refine State.woBits_keeps _ _ _ _ ?_ (by decide) ?_)
    | (exact trivial)
    | (unfold allKeep; refine ⟨fun _ => ?_, ?_⟩)
    | (dsimp (zeta := false) only)
    | (with_reducible refine Keeps.byCases (fun _ => ?_) (fun _ => ?_))
    | split

theorem State.writeLow_keeps (s : State) (f : Fn) (k : Nat) (v new : Word) {μ : Nat} {σ : State} (hk : Keeps μ σ s)
    (hm : within?
    0x390100000000000000000000000000000001000000000000000000000000000182C10000000000000000000000000000000200000000000000000000000000004080000000000000000000000000000040800000000000000000000F000001818FF100000000000000000000000000000601000000000000000000000000000000210000000000000000FFFFFFFF002007FD000000000000000001FFFFFF000130030000000000000000000000000000000100000000000000000000000000000001000000000000000000000000000101090000000000000000000000000002000000000000000000000000000000000000000000000000000000000000000000000000000000000000000000000000000000000000000000000000000000000000000000000000000000000000000000000000000000000000000000000000000000000000000000000000000000078C01000000000000000000000000000000410000000000000000000000000000000100000000002000000602000000010020FFFFFFFFFFFFFFFFFFFFFFFFFFFFFFFFFFFFFFFFFFFFFFFFFFFFFFFFFFFFFFFF1FFFFFFF
    μ = true) (hx : regIn
    0x390100000000000000000000000000000001000000000000000000000000000182C10000000000000000000000000000000200000000000000000000000000004080000000000000000000000000000040800000000000000000000F000001818FF100000000000000000000000000000601000000000000000000000000000000210000000000000000FFFFFFFF002007FD000000000000000001FFFFFF000130030000000000000000000000000000000100000000000000000000000000000001000000000000000000000000000101090000000000000000000000000002000000000000000000000000000000000000000000000000000000000000000000000000000000000000000000000000000000000000000000000000000000000000000000000000000000000000000000000000000000000000000000000000000000000000000000000000000000078C01000000000000000000000000000000410000000000000000000000000000000100000000002000000602000000010020FFFFFFFFFFFFFFFFFFFFFFFFFFFFFFFFFFFFFFFFFFFFFFFFFFFFFFFFFFFFFFFF1FFFFFFF
    k = true) : Keeps μ σ (State.writeLow s f k v new) := by
  refine hk.lift hm ?_
  unfold State.writeLow
  repeat' first
    | (extract_lets +onlyGivenNames u
       first
       | (refine Keeps.cut (u := u) ?_ (fun _ => ?_); subst u; on_goal 2 => clear_value u)
       | (have h := @id (_ → _) u; clear h; subst u)
       | clear_value u)
    | with_reducible assumption
    | (simp (decide := true) (maxDischargeDepth := 200) only [↓State.followEstimates_keeps, ↓Keeps.mk, or_true, true_or, eq_self, ↓Keeps.refl, ↓Keeps.ite, ↓State.setReg_keeps,
      ↓State.updMode_keeps, ↓State.shutdown_keeps, ↓State.restNowCmd_keeps, ↓State.clearPend_keeps,
      ↓State.woBits_keeps, ↓State.depassGo_keeps, ↓State.ledgerLoad_keeps, ↓State.estReset_keeps, ↓State.put_keeps,
      ↓State.wantReadmit_keeps, implies_true, hx, *]; done)
    | (with_reducible refine State.woBits_keeps _ _ _ _ ?_ (by decide) ?_)
    | (exact trivial)
    | (unfold allKeep; refine ⟨fun _ => ?_, ?_⟩)
    | (dsimp (zeta := false) only)
    | (with_reducible refine Keeps.byCases (fun _ => ?_) (fun _ => ?_))
    | split

theorem State.writeMid_keeps (s : State) (f : Fn) (k : Nat) (v new : Word) {μ : Nat} {σ : State} (hk : Keeps μ σ s)
    (hm : within?
    0x10000000000000000000000000000080100000000000000000000000000003F3F000000000000000000000000000003F8000000000000000000000000050000000000000000000000000000000000000000000000000000000000000000000040000000000000000000000000000600010000000000000000000000000000005100000000000000000000000000000001000000000020000000220000000300A800000000000000000000000000000000000000000000000000000000000003F00000B5E1
    μ = true) (hx : regIn
    0x10000000000000000000000000000080100000000000000000000000000003F3F000000000000000000000000000003F8000000000000000000000000050000000000000000000000000000000000000000000000000000000000000000000040000000000000000000000000000600010000000000000000000000000000005100000000000000000000000000000001000000000020000000220000000300A800000000000000000000000000000000000000000000000000000000000003F00000B5E1
    k = true) : Keeps μ σ (State.writeMid s f k v new) := by
  refine hk.lift hm ?_
  unfold State.writeMid
  repeat' first
    | (extract_lets +onlyGivenNames u
       first
       | (refine Keeps.cut (u := u) ?_ (fun _ => ?_); subst u; on_goal 2 => clear_value u)
       | (have h := @id (_ → _) u; clear h; subst u)
       | clear_value u)
    | with_reducible assumption
    | (simp (decide := true) (maxDischargeDepth := 200) only [↓Keeps.refl, ↓Keeps.ite, ↓Keeps.mk,
      ↓State.setReg_keeps, ↓State.imgPref_keeps, ↓State.imgRevoke_keeps, ↓State.zeroRegs_keeps, ↓State.woBits_keeps,
      ↓State.twrstDrive_keeps, ↓State.addrWrite_keeps, ↓State.partLock_keeps, ↓State.resetStart_keeps,
      ↓State.setErr_keeps, ↓State.partDq_keeps, or_true, true_or, eq_self, implies_true, hx, *]; done)
    | (with_reducible refine State.woBits_keeps _ _ _ _ ?_ (by decide) ?_)
    | (exact trivial)
    | (unfold allKeep; refine ⟨fun _ => ?_, ?_⟩)
    | (dsimp (zeta := false) only)
    | (with_reducible refine Keeps.byCases (fun _ => ?_) (fun _ => ?_))
    | (refine (State.addrWrite_keeps _ _ _ _ .refl (by decide) ?_); rename_i h; rcases h with h | h | h | h | h | h
      <;> rw [h] <;> decide)
    | split

theorem State.writeRadio_keeps (s : State) (f : Fn) (k : Nat) (v new : Word) {μ : Nat} {σ : State} (hk : Keeps μ σ
    s) (hm : within?
    0x18000000000000000000000000000000191C9000000000000000000000000FFFF00350000000000000000FFFFFFFF002007FD000000000000000001FFFFFF00013003000000000000000000000000000000000000000000000000000000000000065F0000000000000000000000000001BD190000000000000000000000000002000000000000000000000000000000000000000000000000000000000000000000000000000000000000000000000000000000000000000000000000000000000000000000000000000000000000000000000000000000000000000000000000000000000000000000000000000000000000000000000000000000000000000000410000000000000000000000000000000100000000002000000602000000030020000000000000000000000000000000000000000000000000000000000003FC00103FE081
    μ = true) (hx : regIn
    0x18000000000000000000000000000000191C9000000000000000000000000FFFF00350000000000000000FFFFFFFF002007FD000000000000000001FFFFFF00013003000000000000000000000000000000000000000000000000000000000000065F0000000000000000000000000001BD190000000000000000000000000002000000000000000000000000000000000000000000000000000000000000000000000000000000000000000000000000000000000000000000000000000000000000000000000000000000000000000000000000000000000000000000000000000000000000000000000000000000000000000000000000000000000000000000410000000000000000000000000000000100000000002000000602000000030020000000000000000000000000000000000000000000000000000000000003FC00103FE081
    k = true) : Keeps μ σ (State.writeRadio s f k v new) := by
  refine hk.lift hm ?_
  unfold State.writeRadio
  repeat' first
    | with_reducible assumption
    | (simp (decide := true) (maxDischargeDepth := 200) only [↓Keeps.refl, ↓Keeps.ite, ↓State.afGo_keeps,
      ↓State.rawCtl_keeps, ↓State.rawWrite_keeps, ↓State.relearn_keeps, ↓State.synApply_keeps, ↓State.tplSel_keeps,
      ↓State.woBits_keeps, ↓State.tplCommit_keeps, ↓State.tplClear_keeps, ↓State.thrWrite_keeps,
      ↓State.modelReset_keeps, ↓State.clearLeap_keeps, ↓State.setReg_keeps, implies_true, hx]; done)
    | (with_reducible refine State.woBits_keeps _ _ _ _ ?_ (by decide) ?_)
    | (exact trivial)
    | (unfold allKeep; refine ⟨fun _ => ?_, ?_⟩)
    | (dsimp (zeta := false) only)
    | (with_reducible refine Keeps.byCases (fun _ => ?_) (fun _ => ?_))
    | (with_reducible refine State.rawWrite_keeps _ _ _ .refl (by decide) ?_)
    | split

theorem State.writeHigh_keeps (s : State) (f : Fn) (k : Nat) (v new : Word) {μ : Nat} {σ : State} (hk : Keeps μ σ s)
    (hm : within?
    0xFFFF000038C300000000000000000000000000000003000000000000000000000000000002C0000000000000000000000000000E0003000000000000000000000000000C6001000000000000000000000000000C60010000000000000000000F000001818FF100000000000000000000000000000000000000000000000000000000000000210000000000000000FFFFFFFF002007FD000000000000000001FFFFFF00013003000000000000000000000000000000040000000000000000000000000000065F000000000000000000000000000081090000000000000000000000000002000000000000000000000000000000000000000000000000000000000000000000000000000000000000000000000000000000000000000000000000000000000000000000000000000000000000000000000000000000000000000000000000004000000000000000000000000000060001000000000000000000000000000000510000000000000000000000000000000100000000002000000602000000010029FFFFFFFFFFFFFFFFFFFFFFFFFFFFFFFFFFFFFFFFFFFFFFFFFFFFFFFFFFFC000017EFE0C5
    μ = true) (hx : regIn
    0xFFFF000038C300000000000000000000000000000003000000000000000000000000000002C0000000000000000000000000000E0003000000000000000000000000000C6001000000000000000000000000000C60010000000000000000000F000001818FF100000000000000000000000000000000000000000000000000000000000000210000000000000000FFFFFFFF002007FD000000000000000001FFFFFF00013003000000000000000000000000000000040000000000000000000000000000065F000000000000000000000000000081090000000000000000000000000002000000000000000000000000000000000000000000000000000000000000000000000000000000000000000000000000000000000000000000000000000000000000000000000000000000000000000000000000000000000000000000000000004000000000000000000000000000060001000000000000000000000000000000510000000000000000000000000000000100000000002000000602000000010029FFFFFFFFFFFFFFFFFFFFFFFFFFFFFFFFFFFFFFFFFFFFFFFFFFFFFFFFFFFC000017EFE0C5
    k = true) : Keeps μ σ (State.writeHigh s f k v new) := by
  refine hk.lift hm ?_
  unfold State.writeHigh
  repeat' first
    | (extract_lets +onlyGivenNames u
       first
       | (refine Keeps.cut (u := u) ?_ (fun _ => ?_); subst u; on_goal 2 => clear_value u)
       | (have h := @id (_ → _) u; clear h; subst u)
       | clear_value u)
    | with_reducible assumption
    | (with_reducible refine Keeps.byCases (fun _ => ?_) (fun _ => ?_))
    | (simp (decide := true) (maxDischargeDepth := 200) only [↓Keeps.refl, ↓Keeps.ite, ↓Keeps.mk,
      ↓State.woBits_keeps, ↓State.hoardFlush_keeps, ↓State.vanClr_keeps, ↓State.setErr_keeps, ↓State.edfErase_keeps,
      ↓State.ctlWrite_keeps, ↓State.wptrWrite_keeps, ↓State.ringRst_keeps, ↓State.captRel_keeps,
      ↓State.spillDel_keeps, ↓State.twinCfg_keeps, ↓State.setReg_keeps, ↓State.ckptNow_keeps,
      ↓State.wantSample_keeps, ↓State.replaceClr_keeps, ↓State.svcStart_keeps, or_true, true_or, eq_self,
      implies_true, hx, *]; done)
    | (with_reducible refine State.woBits_keeps _ _ _ _ ?_ (by decide) ?_)
    | (exact trivial)
    | (unfold allKeep; refine ⟨fun _ => ?_, ?_⟩)
    | (dsimp (zeta := false) only)
    | (with_reducible refine Keeps.byCases (fun _ => ?_) (fun _ => ?_))
    | split

theorem State.writeEffect_keeps (s : State) (f : Fn) (k : Nat) (v new : Word) {μ : Nat} {σ : State} (hk : Keeps μ σ s)
    (hm : within? 0xFFFF000039C300000000000000000000000000000003000000000000000000000000000182C1000000000000000000000000000E0003000000000000000000000000000C6081000000000000000000000000000C60810000000000000000000F000001818FF1000000000000000000000000000197C9000000000000000000000000FFFF00350000000000000000FFFFFFFF002007FD000000000000000001FFFFFF00013003000000000000000000000000000000050000000000000000000000000000065F0000000000000000000000000001BD19000000000000000000000000000240010000000000000000000000000000080100000000000000000000000000003F3F000000000000000000000000000003F8000000000000000000000000FD000000000000000000000000000000000000000000000000000000000000000000004000000000000000000000000000078C010000000000000000000000000000005100000000000000000000000000000001FFFFFFFFFFFFFFFFFFFFFFFFFFFFFFFFFFFFFFFFFFFFFFFFFFFFFFFFFFFFFFFFFFFFFFFFFFFFFFFFFFFFFFFFFFFFFFFF1FFFFFFF μ = true) : Keeps μ σ (s.writeEffect f k v new) := by
  refine hk.lift hm ?_
  have h0 : keyPage k < 256 := by unfold keyPage; split <;> omega
  have hin : ∀ m, (∀ p, p = keyPage k → m.testBit (32 + p) = true) → regIn m k = true := fun m h => regIn_page rfl (h _ rfl)
  unfold State.writeEffect
  dsimp only
  split
  · exact (State.writeCommon_keeps s f k v new (μ := 0x182C10000000000000000000000000000000200000000000000000000000000004080000000000000000000000000000040800000000000000000000000000001800000000000000000000000000000000600000000000000000000000000000000210000000000000000FFFFFFFF002007FD000000000000000001FFFFFF0001300300000000000000000000000000000000000000000000000000000000000000010000000000000000000000000000010900000000000000000000000000024001000000000000000000000000000000010000000000000000000000000000050000000000000000000000000000000000000000000000000000000000F80000000000000000000000000000000000000000000000000000000000000000000040000000000000000000000000000600010000000000000000000000000000005100000000000000000000000000000001FFFFFFFFFFFFFFFFFFFFFFFFFFFFFFFF000000000000000000000000000000000000000000000000000000000000000115EFF6C5) .refl (by decide)
      (hin _ (fun p hp => by rw [hp, show keyPage k = 0 from ‹_›]; decide))).mono (by decide)
  split
  · exact (State.writeLow_keeps s f k v new (μ := 0x390100000000000000000000000000000001000000000000000000000000000182C10000000000000000000000000000000200000000000000000000000000004080000000000000000000000000000040800000000000000000000F000001818FF100000000000000000000000000000601000000000000000000000000000000210000000000000000FFFFFFFF002007FD000000000000000001FFFFFF000130030000000000000000000000000000000100000000000000000000000000000001000000000000000000000000000101090000000000000000000000000002000000000000000000000000000000000000000000000000000000000000000000000000000000000000000000000000000000000000000000000000000000000000000000000000000000000000000000000000000000000000000000000000000000000000000000000000000000078C01000000000000000000000000000000410000000000000000000000000000000100000000002000000602000000010020FFFFFFFFFFFFFFFFFFFFFFFFFFFFFFFFFFFFFFFFFFFFFFFFFFFFFFFFFFFFFFFF1FFFFFFF) .refl (by decide)
      (hin _ (fun p hp => by
        have ha : 1 ≤ p := by omega
        have hb : p ≤ 3 := by omega
        clear hin hp h0 hm hk
        interval_cases p <;> decide))).mono (by decide)
  split
  · exact (State.writeMid_keeps s f k v new (μ := 0x10000000000000000000000000000080100000000000000000000000000003F3F000000000000000000000000000003F8000000000000000000000000050000000000000000000000000000000000000000000000000000000000000000000040000000000000000000000000000600010000000000000000000000000000005100000000000000000000000000000001000000000020000000220000000300A800000000000000000000000000000000000000000000000000000000000003F00000B5E1) .refl (by decide)
      (hin _ (fun p hp => by
        have ha : 4 ≤ p := by omega
        have hb : p ≤ 9 := by omega
        clear hin hp h0 hm hk
        interval_cases p <;> decide))).mono (by decide)
  split
  · exact (State.writeRadio_keeps s f k v new (μ := 0x18000000000000000000000000000000191C9000000000000000000000000FFFF00350000000000000000FFFFFFFF002007FD000000000000000001FFFFFF00013003000000000000000000000000000000000000000000000000000000000000065F0000000000000000000000000001BD190000000000000000000000000002000000000000000000000000000000000000000000000000000000000000000000000000000000000000000000000000000000000000000000000000000000000000000000000000000000000000000000000000000000000000000000000000000000000000000000000000000000000000000000000000000000000000000000410000000000000000000000000000000100000000002000000602000000030020000000000000000000000000000000000000000000000000000000000003FC00103FE081) .refl (by decide)
      (hin _ (fun p hp => by
        have ha : 10 ≤ p := by omega
        have hb : p ≤ 17 := by omega
        clear hin hp h0 hm hk
        interval_cases p <;> decide))).mono (by decide)
  · exact (State.writeHigh_keeps s f k v new (μ := 0xFFFF000038C300000000000000000000000000000003000000000000000000000000000002C0000000000000000000000000000E0003000000000000000000000000000C6001000000000000000000000000000C60010000000000000000000F000001818FF100000000000000000000000000000000000000000000000000000000000000210000000000000000FFFFFFFF002007FD000000000000000001FFFFFF00013003000000000000000000000000000000040000000000000000000000000000065F000000000000000000000000000081090000000000000000000000000002000000000000000000000000000000000000000000000000000000000000000000000000000000000000000000000000000000000000000000000000000000000000000000000000000000000000000000000000000000000000000000000000004000000000000000000000000000060001000000000000000000000000000000510000000000000000000000000000000100000000002000000602000000010029FFFFFFFFFFFFFFFFFFFFFFFFFFFFFFFFFFFFFFFFFFFFFFFFFFFFFFFFFFFC000017EFE0C5) .refl (by decide)
      (hin _ (fun p hp =>
        (by decide +kernel : ∀ p, p < 256 → 17 < p → Nat.testBit 0xFFFF000038C300000000000000000000000000000003000000000000000000000000000002C0000000000000000000000000000E0003000000000000000000000000000C6001000000000000000000000000000C60010000000000000000000F000001818FF100000000000000000000000000000000000000000000000000000000000000210000000000000000FFFFFFFF002007FD000000000000000001FFFFFF00013003000000000000000000000000000000040000000000000000000000000000065F000000000000000000000000000081090000000000000000000000000002000000000000000000000000000000000000000000000000000000000000000000000000000000000000000000000000000000000000000000000000000000000000000000000000000000000000000000000000000000000000000000000000004000000000000000000000000000060001000000000000000000000000000000510000000000000000000000000000000100000000002000000602000000010029FFFFFFFFFFFFFFFFFFFFFFFFFFFFFFFFFFFFFFFFFFFFFFFFFFFFFFFFFFFC000017EFE0C5 (32 + p) = true) p (by omega) (by omega)))).mono (by decide)

theorem State.writeReg_snd (s : State) (f : Fn) (k : Nat) (v : Word) {μ : Nat} {σ : State} (hk : Keeps μ σ s) (hm :
    within?
    0xFFFF000039C300000000000000000000000000000003000000000000000000000000000182C1000000000000000000000000000E0003000000000000000000000000000C6081000000000000000000000000000C60810000000000000000000F000001818FF1000000000000000000000000000197C9000000000000000000000000FFFF00350000000000000000FFFFFFFF002007FD000000000000000001FFFFFF00013003000000000000000000000000000000050000000000000000000000000000065F0000000000000000000000000001BD19000000000000000000000000000240010000000000000000000000000000080100000000000000000000000000003F3F000000000000000000000000000003F8000000000000000000000000FD000000000000000000000000000000000000000000000000000000000000000000004000000000000000000000000000078C010000000000000000000000000000005100000000000000000000000000000001FFFFFFFFFFFFFFFFFFFFFFFFFFFFFFFFFFFFFFFFFFFFFFFFFFFFFFFFFFFFFFFFFFFFFFFFFFFFFFFFFFFFFFFFFFFFFFFF1FFFFFFF
    μ = true) : Keeps μ σ (State.writeReg s f k v).2 := by
  refine hk.lift hm ?_
  unfold State.writeReg
  repeat' first
    | (extract_lets +onlyGivenNames u
       first
       | (refine Keeps.cut (u := u) ?_ (fun _ => ?_); subst u; on_goal 2 => clear_value u)
       | (have h := @id (_ → _) u; clear h; subst u)
       | clear_value u)
    | with_reducible assumption
    | (simp (decide := true) (maxDischargeDepth := 200) only [↓Keeps.refl, ↓Keeps.ite, ↓Keeps.mk, ↓State.setErr_keeps,
      ↓State.writeEffect_keeps, or_true, true_or, eq_self, *]; done)
    | split
    | dsimp (zeta := false) only

theorem State.writeReg_out {s u : State} {f : Fn} {k : Nat} {v : Word} {r : Bool} (e : State.writeReg s f k v = (r,
    u)) {μ : Nat} {σ : State} (hk : Keeps μ σ s) (hm : within?
    0xFFFF000039C300000000000000000000000000000003000000000000000000000000000182C1000000000000000000000000000E0003000000000000000000000000000C6081000000000000000000000000000C60810000000000000000000F000001818FF1000000000000000000000000000197C9000000000000000000000000FFFF00350000000000000000FFFFFFFF002007FD000000000000000001FFFFFF00013003000000000000000000000000000000050000000000000000000000000000065F0000000000000000000000000001BD19000000000000000000000000000240010000000000000000000000000000080100000000000000000000000000003F3F000000000000000000000000000003F8000000000000000000000000FD000000000000000000000000000000000000000000000000000000000000000000004000000000000000000000000000078C010000000000000000000000000000005100000000000000000000000000000001FFFFFFFFFFFFFFFFFFFFFFFFFFFFFFFFFFFFFFFFFFFFFFFFFFFFFFFFFFFFFFFFFFFFFFFFFFFFFFFFFFFFFFFFFFFFFFFF1FFFFFFF
    μ = true) : Keeps μ σ u := by
  have h := State.writeReg_snd s f k v hk hm
  rw [e] at h
  exact h

theorem State.writeKey_snd (s : State) (f : Fn) (off : Nat) (key : Option Nat) (v : Word) (early : Bool) {μ : Nat} {σ
    : State} (hk : Keeps μ σ s) (hm : within?
    0xFFFF000039C300000000000000000000000000000003000000000000000000000000000182C1000000000000000000000000000E0003000000000000000000000000000C6081000000000000000000000000000C60810000000000000000000F000001818FF1000000000000000000000000000197C9000000000000000000000000FFFF00350000000000000000FFFFFFFF002007FD000000000000000001FFFFFF00013003000000000000000000000000000000050000000000000000000000000000065F0000000000000000000000000001BD19000000000000000000000000000240010000000000000000000000000000080100000000000000000000000000003F3F000000000000000000000000000003F8000000000000000000000000FD000000000000000000000000000000000000000000000000000000000000000000004000000000000000000000000000078C010000000000000000000000000000005100000000000000000000000000000001FFFFFFFFFFFFFFFFFFFFFFFFFFFFFFFFFFFFFFFFFFFFFFFFFFFFFFFFFFFFFFFFFFFFFFFFFFFFFFFFFFFFFFFFFFFFFFFF1FFFFFFF
    μ = true) : Keeps μ σ (State.writeKey s f off key v early).2 := by
  refine hk.lift hm ?_
  unfold State.writeKey
  repeat' first
    | (extract_lets +onlyGivenNames u
       first
       | (refine Keeps.cut (u := u) ?_ (fun _ => ?_); subst u; on_goal 2 => clear_value u)
       | (have h := @id (_ → _) u; clear h; subst u)
       | clear_value u)
    | with_reducible assumption
    | (simp (decide := true) (maxDischargeDepth := 200) only [↓Keeps.refl, ↓Keeps.ite, ↓Keeps.mk, ↓State.writeReg_snd,
      ↓State.setErr_keeps, or_true, true_or, eq_self, *]; done)
    | (split <;>
        (rename_i e
         refine Keeps.cut (State.writeReg_out (by with_reducible exact e) ?_ (by decide)) (fun _ => ?_) <;> clear e))
    | (with_reducible refine State.writeReg_snd _ _ _ _ ?_ (by decide))
    | (with_reducible refine State.setErr_keeps _ _ _ ?_ (by decide))
    | split
    | dsimp (zeta := false) only

theorem State.writeKey_out {s u : State} {f : Fn} {off : Nat} {key : Option Nat} {v : Word} {early : Bool} {r : Bool}
    (e : State.writeKey s f off key v early = (r, u)) {μ : Nat} {σ : State} (hk : Keeps μ σ s) (hm : within?
    0xFFFF000039C300000000000000000000000000000003000000000000000000000000000182C1000000000000000000000000000E0003000000000000000000000000000C6081000000000000000000000000000C60810000000000000000000F000001818FF1000000000000000000000000000197C9000000000000000000000000FFFF00350000000000000000FFFFFFFF002007FD000000000000000001FFFFFF00013003000000000000000000000000000000050000000000000000000000000000065F0000000000000000000000000001BD19000000000000000000000000000240010000000000000000000000000000080100000000000000000000000000003F3F000000000000000000000000000003F8000000000000000000000000FD000000000000000000000000000000000000000000000000000000000000000000004000000000000000000000000000078C010000000000000000000000000000005100000000000000000000000000000001FFFFFFFFFFFFFFFFFFFFFFFFFFFFFFFFFFFFFFFFFFFFFFFFFFFFFFFFFFFFFFFFFFFFFFFFFFFFFFFFFFFFFFFFFFFFFFFF1FFFFFFF
    μ = true) : Keeps μ σ u := by
  have h := State.writeKey_snd s f off key v early hk hm
  rw [e] at h
  exact h

theorem State.hostWrite_keeps (s : State) (f : Fn) (off : Nat) (v : Word) (early : Bool) {μ : Nat} {σ : State} (hk :
    Keeps μ σ s) (hm : within?
    0xFFFF000039C300000000000000000000000000000003000000000000000000000000000182C1000000000000000000000000000E0003000000000000000000000000000C6081000000000000000000000000000C60810000000000000000000F000001818FF1000000000000000000000000000197C9000000000000000000000000FFFF00350000000000000000FFFFFFFF002007FD000000000000000001FFFFFF00013003000000000000000000000000000000050000000000000000000000000000065F0000000000000000000000000001BD19000000000000000000000000000240010000000000000000000000000000080100000000000000000000000000003F3F000000000000000000000000000003F8000000000000000000000000FD000000000000000000000000000000000000000000000000000000000000000000004000000000000000000000000000078C010000000000000000000000000000005100000000000000000000000000000001FFFFFFFFFFFFFFFFFFFFFFFFFFFFFFFFFFFFFFFFFFFFFFFFFFFFFFFFFFFFFFFFFFFFFFFFFFFFFFFFFFFFFFFFFFFFFFFF1FFFFFFF
    μ = true) : Keeps μ σ (State.hostWrite s f off v early) := by
  refine hk.lift hm ?_
  unfold State.hostWrite
  repeat' first
    | (extract_lets +onlyGivenNames u
       first
       | (refine Keeps.cut (u := u) ?_ (fun _ => ?_); subst u; on_goal 2 => clear_value u)
       | (have h := @id (_ → _) u; clear h; subst u)
       | clear_value u)
    | with_reducible assumption
    | (simp (decide := true) (maxDischargeDepth := 200) only [↓Keeps.refl, ↓Keeps.ite, ↓Keeps.mk, ↓State.writeKey_snd,
      or_true, true_or, eq_self, *]; done)
    | (split <;>
        (rename_i e
         refine Keeps.cut (State.writeKey_out (by with_reducible exact e) ?_ (by decide)) (fun _ => ?_) <;> clear e))
    | (with_reducible refine State.writeKey_snd _ _ _ _ _ _ ?_ (by decide))
    | split

theorem State.cmdWrite_keeps (s : State) (f : Fn) (x : Fld) (v : Word) {μ : Nat} {σ : State} (hk : Keeps μ σ s) (hm :
    within?
    0xFFFF000039C300000000000000000000000000000003000000000000000000000000000182C1000000000000000000000000000E0003000000000000000000000000000C6081000000000000000000000000000C60810000000000000000000F000001818FF1000000000000000000000000000197C9000000000000000000000000FFFF00350000000000000000FFFFFFFF002007FD000000000000000001FFFFFF00013003000000000000000000000000000000050000000000000000000000000000065F0000000000000000000000000001BD19000000000000000000000000000240010000000000000000000000000000080100000000000000000000000000003F3F000000000000000000000000000003F8000000000000000000000000FD000000000000000000000000000000000000000000000000000000000000000000004000000000000000000000000000078C010000000000000000000000000000005100000000000000000000000000000001FFFFFFFFFFFFFFFFFFFFFFFFFFFFFFFFFFFFFFFFFFFFFFFFFFFFFFFFFFFFFFFFFFFFFFFFFFFFFFFFFFFFFFFFFFFFFFFF1FFFFFFF
    μ = true) : Keeps μ σ (State.cmdWrite s f x v) := by
  refine hk.lift hm ?_
  unfold State.cmdWrite
  repeat' first
    | (extract_lets +onlyGivenNames u
       first
       | (refine Keeps.cut (u := u) ?_ (fun _ => ?_); subst u; on_goal 2 => clear_value u)
       | (have h := @id (_ → _) u; clear h; subst u)
       | clear_value u)
    | with_reducible assumption
    | (simp (decide := true) (maxDischargeDepth := 200) only [↓Keeps.refl, ↓Keeps.ite, ↓Keeps.mk,
      ↓State.regAccess_keeps, ↓State.writeKey_snd, or_true, true_or, eq_self, *]; done)
    | (split <;>
        (rename_i e
         refine Keeps.cut (State.writeKey_out (by with_reducible exact e) ?_ (by decide)) (fun _ => ?_) <;> clear e))
    | (with_reducible refine State.regAccess_keeps _ ?_ (by decide))
    | (with_reducible refine State.writeKey_snd _ _ _ _ _ _ ?_ (by decide))
    | split

end Sys2Proof.Machine
end

