-- ==== Sys2Proof/Laws/KeepsSpi.lean ====
section
/-! SUPPORT. What each operation of Machine/Spi.lean may change, and that it keeps the canonical form. -/

set_option Elab.async false

set_option linter.unusedSimpArgs false
set_option linter.unusedTactic false
set_option linter.unreachableTactic false

namespace Sys2Proof.Machine

open R

theorem State.commitFrom_snd (s : State) (f : Fn) (early : Bool) (l : List (Nat × Word)) {μ : Nat} {σ : State}
    (hk : Keeps μ σ s) (hm : within? 0xFFFF000039C300000000000000000000000000000003000000000000000000000000000182C1000000000000000000000000000E0003000000000000000000000000000C6081000000000000000000000000000C60810000000000000000000F000001818FF1000000000000000000000000000197C9000000000000000000000000FFFF00350000000000000000FFFFFFFF002007FD000000000000000001FFFFFF00013003000000000000000000000000000000050000000000000000000000000000065F0000000000000000000000000001BD19000000000000000000000000000240010000000000000000000000000000080100000000000000000000000000003F3F000000000000000000000000000003F8000000000000000000000000FD000000000000000000000000000000000000000000000000000000000000000000004000000000000000000000000000078C010000000000000000000000000000005100000000000000000000000000000001FFFFFFFFFFFFFFFFFFFFFFFFFFFFFFFFFFFFFFFFFFFFFFFFFFFFFFFFFFFFFFFFFFFFFFFFFFFFFFFFFFFFFFFFFFFFFFFF1FFFFFFF μ = true) : Keeps μ σ (s.commitFrom f early l).2 := by
  induction l generalizing s with
  | nil => exact hk
  | cons e l ih =>
    obtain ⟨off, w⟩ := e
    unfold State.commitFrom
    split
    · exact ih _ (State.hostWrite_keeps _ _ _ _ _ hk hm)
    · exact ih _ hk

theorem State.commitFrom_out {s u : State} {f : Fn} {early : Bool} {l : List (Nat × Word)} {r : Bool}
    (e : s.commitFrom f early l = (r, u)) {μ : Nat} {σ : State}
    (hk : Keeps μ σ s) (hm : within? 0xFFFF000039C300000000000000000000000000000003000000000000000000000000000182C1000000000000000000000000000E0003000000000000000000000000000C6081000000000000000000000000000C60810000000000000000000F000001818FF1000000000000000000000000000197C9000000000000000000000000FFFF00350000000000000000FFFFFFFF002007FD000000000000000001FFFFFF00013003000000000000000000000000000000050000000000000000000000000000065F0000000000000000000000000001BD19000000000000000000000000000240010000000000000000000000000000080100000000000000000000000000003F3F000000000000000000000000000003F8000000000000000000000000FD000000000000000000000000000000000000000000000000000000000000000000004000000000000000000000000000078C010000000000000000000000000000005100000000000000000000000000000001FFFFFFFFFFFFFFFFFFFFFFFFFFFFFFFFFFFFFFFFFFFFFFFFFFFFFFFFFFFFFFFFFFFFFFFFFFFFFFFFFFFFFFFFFFFFFFFF1FFFFFFF μ = true) : Keeps μ σ u := by
  have h := State.commitFrom_snd s f early l hk hm
  rw [e] at h
  exact h

theorem State.commitWords_snd (s : State) (f : Fn) (early fresh : Bool) (l : List (Nat × Word)) {μ : Nat} {σ : State}
    (hk : Keeps μ σ s) (hm : within?
    0xFFFF000039C300000000000000000000000000000003000000000000000000000000000182C1000000000000000000000000000E0003000000000000000000000000000C6081000000000000000000000000000C60810000000000000000000F000001818FF1000000000000000000000000000197C9000000000000000000000000FFFF00350000000000000000FFFFFFFF002007FD000000000000000001FFFFFF00013003000000000000000000000000000000050000000000000000000000000000065F0000000000000000000000000001BD19000000000000000000000000000240010000000000000000000000000000080100000000000000000000000000003F3F000000000000000000000000000003F8000000000000000000000000FD000000000000000000000000000000000000000000000000000000000000000000004000000000000000000000000000078C010000000000000000000000000000005100000000000000000000000000000001FFFFFFFFFFFFFFFFFFFFFFFFFFFFFFFFFFFFFFFFFFFFFFFFFFFFFFFFFFFFFFFFFFFFFFFFFFFFFFFFFFFFFFFFFFFFFFFF1FFFFFFF
    μ = true) : Keeps μ σ (State.commitWords s f early fresh l).2 := by
  refine hk.lift hm ?_
  unfold State.commitWords
  repeat' first
    | (extract_lets +onlyGivenNames u
       first
       | (refine Keeps.cut (u := u) ?_ (fun _ => ?_); subst u; on_goal 2 => clear_value u)
       | (have h := @id (_ → _) u; clear h; subst u)
       | clear_value u)
    | with_reducible assumption
    | (simp (decide := true) (maxDischargeDepth := 200) only [↓Keeps.refl, ↓Keeps.ite, ↓Keeps.mk,
      ↓State.incWrap_keeps, ↓State.commitFrom_snd, ↓State.regAccess_keeps, regIn_on, or_true, true_or, eq_self,
      *]; done)
    | (split <;>
        (rename_i e
         refine Keeps.cut (State.commitFrom_out (by with_reducible exact e) ?_ (by decide)) (fun _ => ?_) <;> clear e))
    | (with_reducible refine State.incWrap_keeps _ _ ?_ (by decide))
    | (with_reducible refine State.commitFrom_snd _ _ _ _ ?_ (by decide))
    | (with_reducible refine State.regAccess_keeps _ ?_ (by decide))
    | split
    | dsimp (zeta := false) only

theorem State.commitWords_out {s u : State} {f : Fn} {early fresh : Bool} {l : List (Nat × Word)} {r : Bool} (e :
    State.commitWords s f early fresh l = (r, u)) {μ : Nat} {σ : State} (hk : Keeps μ σ s) (hm : within?
    0xFFFF000039C300000000000000000000000000000003000000000000000000000000000182C1000000000000000000000000000E0003000000000000000000000000000C6081000000000000000000000000000C60810000000000000000000F000001818FF1000000000000000000000000000197C9000000000000000000000000FFFF00350000000000000000FFFFFFFF002007FD000000000000000001FFFFFF00013003000000000000000000000000000000050000000000000000000000000000065F0000000000000000000000000001BD19000000000000000000000000000240010000000000000000000000000000080100000000000000000000000000003F3F000000000000000000000000000003F8000000000000000000000000FD000000000000000000000000000000000000000000000000000000000000000000004000000000000000000000000000078C010000000000000000000000000000005100000000000000000000000000000001FFFFFFFFFFFFFFFFFFFFFFFFFFFFFFFFFFFFFFFFFFFFFFFFFFFFFFFFFFFFFFFFFFFFFFFFFFFFFFFFFFFFFFFFFFFFFFFF1FFFFFFF
    μ = true) : Keeps μ σ u := by
  have h := State.commitWords_snd s f early fresh l hk hm
  rw [e] at h
  exact h

theorem State.readFrom_snd (s : State) (p : HostPort) (f : Fn) (off : Nat → Nat) (late fell : Option Nat) (early : Bool)
    (k : Nat) (w : Word) (n m : Nat) {μ : Nat} {σ : State} (hk : Keeps μ σ s)
    (hm : within? 0x1000000000000000000000000000000000000000000000000000000000000000000000000000000000000000000000000000000000000000000000000000000000000000000000000000000000000001000000000000000000000000000000000000000000000000000000000000200000000000000000000000000000000000000000000000000000000000000000000000000000000000000000000000000000000000000000000000000000000000000000000000000000000000000000000000000000000000000000000000000000000000000000000000000000000000000000000000000000000000000000000000000000000000000000000000000000000000000000000000000000000000000000070000000000000000000000020000000000000000000000000000000000000000000000000000000000000000014002002 μ = true) : Keeps μ σ (s.readFrom p f off late fell early k w n m).2 := by
  induction m generalizing s k w n with
  | zero => exact hk
  | succ m ih =>
    unfold State.readFrom
    split
    · exact hk
    · split
      · exact hk
      · have hf : ∀ (t : State) o, Keeps μ σ t → Keeps μ σ (t.fetch p f o early).2 := fun t o ht =>
          State.fetch_snd _ _ _ _ _ ht (Keeps.within_trans (by decide) hm)
        have hr : ∀ (t : State) o, Keeps μ σ t → Keeps μ σ (t.remove f o early) := fun t o ht =>
          State.remove_keeps _ _ _ _ ht (Keeps.within_trans (by decide) hm)
        extract_lets same down
        generalize hA : (if same = true ∨ down = true then ((0 : Word), s) else s.fetch p f (off (k + 1)) early) = A
        have h1 : Keeps μ σ A.2 := by
          rw [← hA]
          split
          · exact hk
          · exact hf _ _ hk
        obtain ⟨v, s1⟩ := A
        dsimp only
        generalize hB : (if n = 0 then s1 else s1.remove f (off k) early) = B
        have h2 : Keeps μ σ B := by
          rw [← hB]
          split
          · exact h1
          · exact hr _ _ h1
        generalize hC : (if same = true ∧ n ≠ 0 ∧ ¬down = true then B.fetch p f (off (k + 1)) early else (v, B)) = C
        have h3 : Keeps μ σ C.2 := by
          rw [← hC]
          split
          · exact hf _ _ h2
          · exact h2
        exact ih _ _ _ _ h3

theorem State.readFrom_out {s u : State} {p : HostPort} {f : Fn} {off : Nat → Nat} {late fell : Option Nat} {early :
    Bool} {k : Nat} {w : Word} {n l10 : Nat} {r : List Word} (e : State.readFrom s p f off late fell early k w n l10 =
    (r, u)) {μ : Nat} {σ : State} (hk : Keeps μ σ s) (hm : within?
    0x1000000000000000000000000000000000000000000000000000000000000000000000000000000000000000000000000000000000000000000000000000000000000000000000000000000000000001000000000000000000000000000000000000000000000000000000000000200000000000000000000000000000000000000000000000000000000000000000000000000000000000000000000000000000000000000000000000000000000000000000000000000000000000000000000000000000000000000000000000000000000000000000000000000000000000000000000000000000000000000000000000000000000000000000000000000000000000000000000000000000000000000000070000000000000000000000020000000000000000000000000000000000000000000000000000000000000000014002002
    μ = true) : Keeps μ σ u := by
  have h := State.readFrom_snd s p f off late fell early k w n l10 hk hm
  rw [e] at h
  exact h

theorem State.readWords_snd (s : State) (p : HostPort) (f : Fn) (off : Nat → Nat) (late fell : Option Nat) (early :
    Bool) (n m : Nat) {μ : Nat} {σ : State} (hk : Keeps μ σ s) (hm : within?
    0x1000000000000000000000000000000000000000000000000000000000000000000000000000000000000000000000000000000000000000000000000000000000000000000000000000000000000001000000000000000000000000000000000000000000000000000000000000200000000000000000000000000000000000000000000000000000000000000000000000000000000000000000000000000000000000000000000000000000000000000000000000000000000000000000000000000000000000000000000000000000000000000000000000000000000000000000000000000000000000000000000000000000000000000000000000000000000000000000000000000000000000000000070000000000000000000000020000000000000000000000000000000000000000000000000000000000000000014002002
    μ = true) : Keeps μ σ (State.readWords s p f off late fell early n m).2 := by
  refine hk.lift hm ?_
  unfold State.readWords
  repeat' first
    | (extract_lets +onlyGivenNames u
       first
       | (refine Keeps.cut (u := u) ?_ (fun _ => ?_); subst u; on_goal 2 => clear_value u)
       | (have h := @id (_ → _) u; clear h; subst u)
       | clear_value u)
    | with_reducible assumption
    | (simp (decide := true) (maxDischargeDepth := 200) only [↓Keeps.refl, ↓Keeps.ite, ↓Keeps.mk, ↓State.fetch_snd,
      ↓State.readFrom_snd, or_true, true_or, eq_self, *]; done)
    | (split <;>
        (rename_i e
         refine Keeps.cut (State.fetch_out (by with_reducible exact e) ?_ (by decide)) (fun _ => ?_) <;> clear e))
    | (split <;>
        (rename_i e
         refine Keeps.cut (State.readFrom_out (by with_reducible exact e) ?_ (by decide)) (fun _ => ?_) <;> clear e))
    | (with_reducible refine State.fetch_snd _ _ _ _ _ ?_ (by decide))
    | (with_reducible refine State.readFrom_snd _ _ _ _ _ _ _ _ _ _ _ ?_ (by decide))
    | split
    | dsimp (zeta := false) only

theorem State.readWords_out {s u : State} {p : HostPort} {f : Fn} {off : Nat → Nat} {late fell : Option Nat} {early :
    Bool} {n m : Nat} {r : List Word} (e : State.readWords s p f off late fell early n m = (r, u)) {μ : Nat} {σ :
    State} (hk : Keeps μ σ s) (hm : within?
    0x1000000000000000000000000000000000000000000000000000000000000000000000000000000000000000000000000000000000000000000000000000000000000000000000000000000000000001000000000000000000000000000000000000000000000000000000000000200000000000000000000000000000000000000000000000000000000000000000000000000000000000000000000000000000000000000000000000000000000000000000000000000000000000000000000000000000000000000000000000000000000000000000000000000000000000000000000000000000000000000000000000000000000000000000000000000000000000000000000000000000000000000000070000000000000000000000020000000000000000000000000000000000000000000000000000000000000000014002002
    μ = true) : Keeps μ σ u := by
  have h := State.readWords_snd s p f off late fell early n m hk hm
  rw [e] at h
  exact h

theorem State.spiEnd_keeps (s : State) (cmd : Byte) (bits code : Nat) (ready : Bool) (buffer : List (Nat × Word)) (fin
    : SpiEnd) {μ : Nat} {σ : State} (hk : Keeps μ σ s) (hm : within?
    0x3FE00000000000000000000000000000000000000000000000000000000000000000000000000000000000000000000000000000000000000000000000000000000000000000000000000000000000000400000000000000000000000000000000000000000000000000000000000020020000000000000000000000000000000000000000000000000000000000000000000002881
    μ = true) : Keeps μ σ (State.spiEnd s cmd bits code ready buffer fin) := by
  refine hk.lift hm ?_
  unfold State.spiEnd
  repeat' first
    | (extract_lets +onlyGivenNames u
       first
       | (refine Keeps.cut (u := u) ?_ (fun _ => ?_); subst u; on_goal 2 => clear_value u)
       | (have h := @id (_ → _) u; clear h; subst u)
       | clear_value u)
    | with_reducible assumption
    | (simp (decide := true) (maxDischargeDepth := 200) only [↓Keeps.refl, ↓Keeps.ite, ↓Keeps.mk,
      ↓State.spiOutcome_keeps, or_true, true_or, eq_self, *]; done)
    | split

theorem State.spiFlush_keeps (s : State) {μ : Nat} {σ : State} (hk : Keeps μ σ s) (hm : within?
    0xFFFF000039C300000000000000000000000000000003000000000000000000000000000182C1000000000000000000000000000E0003000000000000000000000000000C6081000000000000000000000000000C60810000000000000000000F000001818FF1000000000000000000000000000197C9000000000000000000000000FFFF00350000000000000000FFFFFFFF002007FD000000000000000001FFFFFF00013003000000000000000000000000000000050000000000000000000000000000065F0000000000000000000000000001BD19000000000000000000000000000240010000000000000000000000000000080100000000000000000000000000003F3F000000000000000000000000000003F8000000000000000000000000FD000000000000000000000000000000000000000000000000000000000000000000004000000000000000000000000000078C010000000000000000000000000000005100000000000000000000000000000001FFFFFFFFFFFFFFFFFFFFFFFFFFFFFFFFFFFFFFFFFFFFFFFFFFFFFFFFFFFFFFFFFFFFFFFFFFFFFFFFFFFFFFFFFFFFFFFF1FFFFFFF
    μ = true) : Keeps μ σ (State.spiFlush s) := by
  refine hk.lift hm ?_
  unfold State.spiFlush
  repeat' first
    | (extract_lets +onlyGivenNames u
       first
       | (refine Keeps.cut (u := u) ?_ (fun _ => ?_); subst u; on_goal 2 => clear_value u)
       | (have h := @id (_ → _) u; clear h; subst u)
       | clear_value u)
    | with_reducible assumption
    | (simp (decide := true) (maxDischargeDepth := 200) only [↓Keeps.refl, ↓Keeps.ite, ↓Keeps.mk,
      ↓State.commitWords_snd, or_true, true_or, eq_self, *]; done)
    | (split <;>
        (rename_i e
         refine Keeps.cut (State.commitWords_out (by with_reducible exact e) ?_ (by decide)) (fun _ => ?_) <;> clear e))
    | (with_reducible refine State.commitWords_snd _ _ _ _ _ ?_ (by decide))
    | split

theorem State.spiAbandon_keeps (s : State) (code : Nat) {μ : Nat} {σ : State} (hk : Keeps μ σ s) (hm : within?
    0xFFFF000039C300000000000000000000000000000003000000000000000000000000000182C1000000000000000000000000000E0003000000000000000000000000000C6081000000000000000000000000000C60810000000000000000000F000001818FF1000000000000000000000000000197C9000000000000000000000000FFFF00350000000000000000FFFFFFFF002007FD000000000000000001FFFFFF00013003000000000000000000000000000000050000000000000000000000000000065F0000000000000000000000000001BD19000000000000000000000000000240010000000000000000000000000000080100000000000000000000000000003F3F000000000000000000000000000003FE000000000000000000000000FD000000000000000000000000000000000000000000000000000000000000000000004000000000000000000000000000078C010000000000000000000000000000005100000000000000000000000000000001FFFFFFFFFFFFFFFFFFFFFFFFFFFFFFFFFFFFFFFFFFFFFFFFFFFFFFFFFFFFFFFFFFFFFFFFFFFFFFFFFFFFFFFFFFFFFFFF1FFFFFFF
    μ = true) : Keeps μ σ (State.spiAbandon s code) := by
  refine hk.lift hm ?_
  unfold State.spiAbandon
  repeat' first
    | (extract_lets +onlyGivenNames u
       first
       | (refine Keeps.cut (u := u) ?_ (fun _ => ?_); subst u; on_goal 2 => clear_value u)
       | (have h := @id (_ → _) u; clear h; subst u)
       | clear_value u)
    | with_reducible assumption
    | (simp (decide := true) (maxDischargeDepth := 200) only [↓Keeps.refl, ↓Keeps.ite, ↓Keeps.mk,
      ↓State.spiFlush_keeps, ↓State.spiOutcome_keeps, or_true, true_or, eq_self, *]; done)
    | split

theorem State.spiStart_keeps (s : State) (cmd : Byte) {μ : Nat} {σ : State} (hk : Keeps μ σ s) (hm : within?
    0x40000000000000000000000000000600010000000000000000000000000000001100000000000000000000000000000000000000000000000000000000000000000000000000000000000000000000000000000000000000000000000000000000080080C0
    μ = true) : Keeps μ σ (State.spiStart s cmd) := by
  refine hk.lift hm ?_
  unfold State.spiStart
  repeat' first
    | (extract_lets +onlyGivenNames u
       first
       | (refine Keeps.cut (u := u) ?_ (fun _ => ?_); subst u; on_goal 2 => clear_value u)
       | (have h := @id (_ → _) u; clear h; subst u)
       | clear_value u)
    | with_reducible assumption
    | (simp (decide := true) (maxDischargeDepth := 200) only [↓Keeps.refl, ↓Keeps.ite, ↓Keeps.mk, ↓State.wake_keeps,
      or_true, true_or, eq_self, *]; done)
    | split

theorem execSpiWriteFrame_keeps (cmd addr : Byte) (words : List Word) (bits : Nat) (fin : SpiEnd) (s : State) : Ends
    (Keeps
    0xFFFF000039C300000000000000000000000000000003000000000000000000000000000182C1000000000000000000000000000E0003000000000000000000000000000C6081000000000000000000000000000C60810000000000000000000F000001818FF1000000000000000000000000000197C9000000000000000000000000FFFF00350000000000000000FFFFFFFF002007FD000000000000000001FFFFFF00013003000000000000000000000000000000050000000000000000000000000000065F0000000000000000000000000001BD19000000000000000000000000000240010000000000000000000000000000080100000000000000000000000000003F3F000000000000000000000000000003FE000000000000000000000000FD000000000000000000000000000000000000000000000000000000000000000000004000000000000000000000000000078C010000000000000000000000000000005100000000000000000000000000000001FFFFFFFFFFFFFFFFFFFFFFFFFFFFFFFFFFFFFFFFFFFFFFFFFFFFFFFFFFFFFFFFFFFFFFFFFFFFFFFFFFFFFFFFFFFFFFFF1FFFFFFF
    s) (execSpiWriteFrame cmd addr words bits fin s) := by
  unfold execSpiWriteFrame
  refine Ends.next ?_
  repeat' first
    | (extract_lets +onlyGivenNames u
       first
       | (refine Keeps.cut (u := u) ?_ (fun _ => ?_); subst u; on_goal 2 => clear_value u)
       | (have h := @id (_ → _) u; clear h; subst u)
       | clear_value u)
    | with_reducible assumption
    | (simp (decide := true) (maxDischargeDepth := 200) only [↓Keeps.next, ↓Keeps.endsIte, ↓Keeps.refl, ↓Keeps.ite,
      ↓Keeps.mk, ↓State.wake_keeps, ↓State.commitWords_snd, ↓State.spiStart_keeps, ↓State.spiEnd_keeps, or_true,
      true_or, eq_self, *]; done)
    | (split <;>
        (rename_i e
         refine Keeps.cut (State.commitWords_out (by with_reducible exact e) ?_ (by decide)) (fun _ => ?_) <;> clear e))
    | (with_reducible refine State.wake_keeps _ _ ?_ (by decide))
    | (with_reducible refine State.commitWords_snd _ _ _ _ _ ?_ (by decide))
    | (with_reducible refine State.spiStart_keeps _ _ ?_ (by decide))
    | (with_reducible refine State.spiEnd_keeps _ _ _ _ _ _ _ ?_ (by decide))
    | split

theorem execSpiWriteCrcFrame_keeps (cmd addr : Byte) (words : List Word) (crc : Byte) (bits : Nat) (fin : SpiEnd) (s :
    State) : Ends (Keeps
    0xFFFF000039C300000000000000000000000000000003000000000000000000000000000182C1000000000000000000000000000E0003000000000000000000000000000C6081000000000000000000000000000C60810000000000000000000F000001818FF1000000000000000000000000000197C9000000000000000000000000FFFF00350000000000000000FFFFFFFF002007FD000000000000000001FFFFFF00013003000000000000000000000000000000050000000000000000000000000000065F0000000000000000000000000001BD19000000000000000000000000000240010000000000000000000000000000080100000000000000000000000000003F3F000000000000000000000000000003FE000000000000000000000000FD000000000000000000000000000000000000000000000000000000000000000000004000000000000000000000000000078C010000000000000000000000000000005100000000000000000000000000000001FFFFFFFFFFFFFFFFFFFFFFFFFFFFFFFFFFFFFFFFFFFFFFFFFFFFFFFFFFFFFFFFFFFFFFFFFFFFFFFFFFFFFFFFFFFFFFFF1FFFFFFF
    s) (execSpiWriteCrcFrame cmd addr words crc bits fin s) := by
  unfold execSpiWriteCrcFrame
  refine Ends.next ?_
  repeat' first
    | (extract_lets +onlyGivenNames u
       first
       | (refine Keeps.cut (u := u) ?_ (fun _ => ?_); subst u; on_goal 2 => clear_value u)
       | (have h := @id (_ → _) u; clear h; subst u)
       | clear_value u)
    | with_reducible assumption
    | (simp (decide := true) (maxDischargeDepth := 200) only [↓Keeps.next, ↓Keeps.endsIte, ↓Keeps.refl, ↓Keeps.ite,
      ↓Keeps.mk, ↓State.wake_keeps, ↓State.spiStart_keeps, ↓State.spiEnd_keeps, ↓State.commitWords_snd, or_true,
      true_or, eq_self, *]; done)
    | (split <;>
        (rename_i e
         refine Keeps.cut (State.commitWords_out (by with_reducible exact e) ?_ (by decide)) (fun _ => ?_) <;> clear e))
    | (with_reducible refine State.wake_keeps _ _ ?_ (by decide))
    | (with_reducible refine State.spiStart_keeps _ _ ?_ (by decide))
    | (with_reducible refine State.spiEnd_keeps _ _ _ _ _ _ _ ?_ (by decide))
    | (with_reducible refine State.commitWords_snd _ _ _ _ _ ?_ (by decide))
    | split

theorem State.spiRead_snd (s : State) (cmd addr : Byte) (late fell : Option Nat) (bits head stride : Nat) (act : Bool)
    {μ : Nat} {σ : State} (hk : Keeps μ σ s) (hm : within?
    0x1000000000000000000000000000000000000000000000000000000000000000000000000000000000000000000000000000000000000000000000000000000000000000000000000000000000000001000000000000000000000000000000000000000000000000000000000000200000000000000000000000000000000000000000000000000000000000000000000000000000000000000000000000000000000000000000000000000000000000000000000000000000000000000000000000000000000000000000000000000000000000000000000000000000000000000000000000000000000000000000000000000000000000000000000000000400000000000000000000000000000000000000070000000000000000000020020000000000000000000000000000000000000000000000000000000000000000014002083
    μ = true) : Keeps μ σ (State.spiRead s cmd addr late fell bits head stride act).2 := by
  refine hk.lift hm ?_
  unfold State.spiRead
  repeat' first
    | (extract_lets +onlyGivenNames u
       first
       | (refine Keeps.cut (u := u) ?_ (fun _ => ?_); subst u; on_goal 2 => clear_value u)
       | (have h := @id (_ → _) u; clear h; subst u)
       | clear_value u)
    | with_reducible assumption
    | (simp (decide := true) (maxDischargeDepth := 200) only [↓Keeps.refl, ↓Keeps.ite, ↓Keeps.mk,
      ↓State.readWords_snd, ↓State.regAccess_keeps, or_true, true_or, eq_self, *]; done)
    | (split <;>
        (rename_i e
         refine Keeps.cut (State.readWords_out (by with_reducible exact e) ?_ (by decide)) (fun _ => ?_) <;> clear e))
    | (with_reducible refine State.readWords_snd _ _ _ _ _ _ _ _ _ ?_ (by decide))
    | (with_reducible refine State.regAccess_keeps _ ?_ (by decide))
    | split
    | dsimp (zeta := false) only

theorem State.spiRead_out {s u : State} {cmd addr : Byte} {late fell : Option Nat} {bits head stride : Nat} {act :
    Bool} {r : List Word} (e : State.spiRead s cmd addr late fell bits head stride act = (r, u)) {μ : Nat} {σ : State}
    (hk : Keeps μ σ s) (hm : within?
    0x1000000000000000000000000000000000000000000000000000000000000000000000000000000000000000000000000000000000000000000000000000000000000000000000000000000000000001000000000000000000000000000000000000000000000000000000000000200000000000000000000000000000000000000000000000000000000000000000000000000000000000000000000000000000000000000000000000000000000000000000000000000000000000000000000000000000000000000000000000000000000000000000000000000000000000000000000000000000000000000000000000000000000000000000000000000400000000000000000000000000000000000000070000000000000000000020020000000000000000000000000000000000000000000000000000000000000000014002083
    μ = true) : Keeps μ σ u := by
  have h := State.spiRead_snd s cmd addr late fell bits head stride act hk hm
  rw [e] at h
  exact h

theorem execSpiReadFrame_keeps (cmd addr : Byte) (late fell : Option Nat) (bits : Nat) (fin : SpiEnd) (s : State) :
    Ends (Keeps
    0x100000000000000000000000000000000000000000000000000000000000000000000000000000000000000000000000000000000000000000000000000000000000000000000000000000000000000100000000000000000000000000000000000000000000000000000000000020000000000000000000000000000000000000000000000000000000000000000000000000000000000000000000000000000000000000000000000000000000003FE0000000000000000000000000000000000000000000000000000000000000000000000000000000000000000000000400000000000000000000000000006000100000000000000000000000000000051000000000000000000000000000000000000007000000000000000000002002000000000000000000000000000000000000000000000000000000000000000001C00A8C3
    s) (execSpiReadFrame cmd addr late fell bits fin s) := by
  unfold execSpiReadFrame
  refine Ends.next ?_
  repeat' first
    | (extract_lets +onlyGivenNames u
       first
       | (refine Keeps.cut (u := u) ?_ (fun _ => ?_); subst u; on_goal 2 => clear_value u)
       | (have h := @id (_ → _) u; clear h; subst u)
       | clear_value u)
    | with_reducible assumption
    | (simp (decide := true) (maxDischargeDepth := 200) only [↓Keeps.next, ↓Keeps.endsIte, ↓Keeps.refl, ↓Keeps.ite,
      ↓Keeps.mk, ↓State.wake_keeps, ↓State.spiRead_snd, ↓State.spiStart_keeps, ↓State.spiEnd_keeps, or_true, true_or,
      eq_self, *]; done)
    | (split <;>
        (rename_i e
         refine Keeps.cut (State.spiRead_out (by with_reducible exact e) ?_ (by decide)) (fun _ => ?_) <;> clear e))
    | (with_reducible refine State.wake_keeps _ _ ?_ (by decide))
    | (with_reducible refine State.spiRead_snd _ _ _ _ _ _ _ _ _ ?_ (by decide))
    | (with_reducible refine State.spiStart_keeps _ _ ?_ (by decide))
    | (with_reducible refine State.spiEnd_keeps _ _ _ _ _ _ _ ?_ (by decide))
    | split

theorem execSpiReadCrcFrame_keeps (cmd addr crc : Byte) (late fell : Option Nat) (bits : Nat) (fin : SpiEnd) (s :
    State) : Ends (Keeps
    0x100000000000000000000000000000000000000000000000000000000000000000000000000000000000000000000000000000000000000000000000000000000000000000000000000000000000000100000000000000000000000000000000000000000000000000000000000020000000000000000000000000000000000000000000000000000000000000000000000000000000000000000000000000000000000000000000000000000000003FE0000000000000000000000000000000000000000000000000000000000000000000000000000000000000000000000400000000000000000000000000006000100000000000000000000000000000051000000000000000000000000000000000000007000000000000000000002002000000000000000000000000000000000000000000000000000000000000000001C00A8C3
    s) (execSpiReadCrcFrame cmd addr crc late fell bits fin s) := by
  unfold execSpiReadCrcFrame
  refine Ends.next ?_
  repeat' first
    | (extract_lets +onlyGivenNames u
       first
       | (refine Keeps.cut (u := u) ?_ (fun _ => ?_); subst u; on_goal 2 => clear_value u)
       | (have h := @id (_ → _) u; clear h; subst u)
       | clear_value u)
    | with_reducible assumption
    | (simp (decide := true) (maxDischargeDepth := 200) only [↓Keeps.next, ↓Keeps.endsIte, ↓Keeps.refl, ↓Keeps.ite,
      ↓Keeps.mk, ↓State.wake_keeps, ↓State.spiRead_snd, ↓State.spiStart_keeps, ↓State.spiEnd_keeps, or_true, true_or,
      eq_self, *]; done)
    | (split <;>
        (rename_i e
         refine Keeps.cut (State.spiRead_out (by with_reducible exact e) ?_ (by decide)) (fun _ => ?_) <;> clear e))
    | (with_reducible refine State.wake_keeps _ _ ?_ (by decide))
    | (with_reducible refine State.spiRead_snd _ _ _ _ _ _ _ _ _ ?_ (by decide))
    | (with_reducible refine State.spiStart_keeps _ _ ?_ (by decide))
    | (with_reducible refine State.spiEnd_keeps _ _ _ _ _ _ _ ?_ (by decide))
    | split

theorem execSpiNullFrame_keeps (s : State) : Ends (Keeps
    0x40000000000000000000000000000600010000000000000000000000000000001100000000000000000000000000000000000000000000000000000000000000000000000000000000000000000000000000000000000000000000000000000000000080C0
    s) (execSpiNullFrame s) := by
  unfold execSpiNullFrame
  refine Ends.next ?_
  repeat' first
    | (extract_lets +onlyGivenNames u
       first
       | (refine Keeps.cut (u := u) ?_ (fun _ => ?_); subst u; on_goal 2 => clear_value u)
       | (have h := @id (_ → _) u; clear h; subst u)
       | clear_value u)
    | with_reducible assumption
    | (simp (decide := true) (maxDischargeDepth := 200) only [↓Keeps.next, ↓Keeps.endsIte, ↓Keeps.refl, ↓Keeps.ite,
      ↓Keeps.mk, ↓State.wake_keeps, or_true, true_or, eq_self, *]; done)
    | split

theorem execSpiIdleTimeout_keeps (s : State) : Ends (Keeps
    0xFFFF000039C300000000000000000000000000000003000000000000000000000000000182C1000000000000000000000000000E0003000000000000000000000000000C6081000000000000000000000000000C60810000000000000000000F000001818FF1000000000000000000000000000197C9000000000000000000000000FFFF00350000000000000000FFFFFFFF002007FD000000000000000001FFFFFF00013003000000000000000000000000000000050000000000000000000000000000065F0000000000000000000000000001BD19000000000000000000000000000240010000000000000000000000000000080100000000000000000000000000003F3F000000000000000000000000000003FE000000000000000000000000FD000000000000000000000000000000000000000000000000000000000000000000004000000000000000000000000000078C010000000000000000000000000000005100000000000000000000000000000001FFFFFFFFFFFFFFFFFFFFFFFFFFFFFFFFFFFFFFFFFFFFFFFFFFFFFFFFFFFFFFFFFFFFFFFFFFFFFFFFFFFFFFFFFFFFFFFF1FFFFFFF
    s) (execSpiIdleTimeout s) := by
  unfold execSpiIdleTimeout
  refine Ends.next ?_
  repeat' first
    | (extract_lets +onlyGivenNames u
       first
       | (refine Keeps.cut (u := u) ?_ (fun _ => ?_); subst u; on_goal 2 => clear_value u)
       | (have h := @id (_ → _) u; clear h; subst u)
       | clear_value u)
    | with_reducible assumption
    | (simp (decide := true) (maxDischargeDepth := 200) only [↓Keeps.next, ↓Keeps.endsIte, ↓Keeps.refl, ↓Keeps.ite,
      ↓Keeps.mk, ↓State.spiAbandon_keeps, or_true, true_or, eq_self, *]; done)
    | split

theorem execVddioLoss_keeps (s : State) : Ends (Keeps
    0xFFFF000039C300000000000000000000000000000003000000000000000000000000000182C1000000000000000000000000000E0003000000000000000000000000000C6081000000000000000000000000000C60810000000000000000000F000001818FF1000000000000000000000000000197C9000000000000000000000000FFFF00350000000000000000FFFFFFFF002007FD000000000000000001FFFFFF00013003000000000000000000000000000000050000000000000000000000000000065F0000000000000000000000000001BD19000000000000000000000000000240010000000000000000000000000000080100000000000000000000000000003F3F000000000000000000000000000003FE000000000000000000000000FD000000000000000000000000000000000000000000000000000000000000000000004000000000000000000000000000078C010000000000000000000000000000005100000000000000000000000000000001FFFFFFFFFFFFFFFFFFFFFFFFFFFFFFFFFFFFFFFFFFFFFFFFFFFFFFFFFFFFFFFFFFFFFFFFFFFFFFFFFFFFFFFFFFFFFFFF1FFFFFFF
    s) (execVddioLoss s) := by
  unfold execVddioLoss
  refine Ends.next ?_
  repeat' first
    | (extract_lets +onlyGivenNames u
       first
       | (refine Keeps.cut (u := u) ?_ (fun _ => ?_); subst u; on_goal 2 => clear_value u)
       | (have h := @id (_ → _) u; clear h; subst u)
       | clear_value u)
    | with_reducible assumption
    | (simp (decide := true) (maxDischargeDepth := 200) only [↓Keeps.next, ↓Keeps.endsIte, ↓Keeps.refl, ↓Keeps.ite,
      ↓Keeps.mk, ↓State.spiAbandon_keeps, ↓State.attnEnd_keeps, ↓State.twAbandon_keeps, ↓State.barPort_keeps, or_true,
      true_or, eq_self, *]; done)
    | split

end Sys2Proof.Machine
end

