-- ==== Sys2Proof/Laws/KeepsTwoWire.lean ====
section
/-! SUPPORT. What each operation of Machine/TwoWire.lean may change, and that it keeps the canonical form. -/

set_option Elab.async false

set_option linter.unusedSimpArgs false
set_option linter.unusedTactic false
set_option linter.unreachableTactic false

namespace Sys2Proof.Machine

open R

theorem State.setPtr_keeps (s : State) (f : Fn) (p : Nat) {μ : Nat} {σ : State} (hk : Keeps μ σ s) (hm : within?
    0x2000 μ = true) : Keeps μ σ (State.setPtr s f p) := by
  refine hk.lift hm ?_
  unfold State.setPtr
  repeat' first
    | (extract_lets +onlyGivenNames u
       first
       | (refine Keeps.cut (u := u) ?_ (fun _ => ?_); subst u; on_goal 2 => clear_value u)
       | (have h := @id (_ → _) u; clear h; subst u)
       | clear_value u)
    | with_reducible assumption
    | (simp (decide := true) (maxDischargeDepth := 200) only [↓Keeps.refl, ↓Keeps.ite, ↓Keeps.mk, ↓State.setEng_keeps,
      or_true, true_or, eq_self, *]; done)
    | split

theorem State.twStop_keeps (s : State) {μ : Nat} {σ : State} (hk : Keeps μ σ s) (hm : within? 0x1000 μ = true) : Keeps
    μ σ (State.twStop s) := by
  refine hk.lift hm ?_
  unfold State.twStop
  repeat' first
    | (extract_lets +onlyGivenNames u
       first
       | (refine Keeps.cut (u := u) ?_ (fun _ => ?_); subst u; on_goal 2 => clear_value u)
       | (have h := @id (_ → _) u; clear h; subst u)
       | clear_value u)
    | with_reducible assumption
    | (simp (decide := true) (maxDischargeDepth := 200) only [↓Keeps.refl, ↓Keeps.ite, ↓Keeps.mk, or_true, true_or,
      eq_self, *]; done)
    | split

theorem State.twForeign_keeps (s : State) (fin : TwEnd) {μ : Nat} {σ : State} (hk : Keeps μ σ s) (hm : within?
    0xB000000000000000000000000000000000000000000000000000000000000000000000000000000000000000000000000000000000000000000000000000000000000000000000000000000000000000000000000000000000000000000000000400000000000000000000000000000000000000000000000000000000000020020000000000000000000000000000000000000000000000000000000000000000000003081
    μ = true) : Keeps μ σ (State.twForeign s fin) := by
  refine hk.lift hm ?_
  unfold State.twForeign
  repeat' first
    | (extract_lets +onlyGivenNames u
       first
       | (refine Keeps.cut (u := u) ?_ (fun _ => ?_); subst u; on_goal 2 => clear_value u)
       | (have h := @id (_ → _) u; clear h; subst u)
       | clear_value u)
    | with_reducible assumption
    | (simp (decide := true) (maxDischargeDepth := 200) only [↓Keeps.refl, ↓Keeps.ite, ↓Keeps.mk,
      ↓State.twOutcome_keeps, ↓State.twStop_keeps, or_true, true_or, eq_self, *]; done)
    | split

theorem State.twEnd_keeps (s : State) (fr : TwFrame) (fin : TwEnd) {μ : Nat} {σ : State} (hk : Keeps μ σ s) (hm :
    within?
    0xB000000000000000000000000000000000000000000000000000000000000000000000000000000000000000000000000000000000000000000000000000000000000000000000000000000000000000000000000000000000000000000000000400000000000000000000000000000000000000000000000000000000000020020000000000000000000000000000000000000000000000000000000000000000000003081
    μ = true) : Keeps μ σ (State.twEnd s fr fin) := by
  refine hk.lift hm ?_
  unfold State.twEnd
  repeat' first
    | (extract_lets +onlyGivenNames u
       first
       | (refine Keeps.cut (u := u) ?_ (fun _ => ?_); subst u; on_goal 2 => clear_value u)
       | (have h := @id (_ → _) u; clear h; subst u)
       | clear_value u)
    | with_reducible assumption
    | (simp (decide := true) (maxDischargeDepth := 200) only [↓Keeps.refl, ↓Keeps.ite, ↓Keeps.mk, ↓State.twStop_keeps,
      ↓State.twOutcome_keeps, or_true, true_or, eq_self, *]; done)
    | split

theorem State.twWrite_keeps (s : State) (f : Fn) (a : Nat) (reg : Byte) (l : List Word) (count code : Nat) (fin :
    TwEnd) {μ : Nat} {σ : State} (hk : Keeps μ σ s) (hm : within?
    0xFFFF000039C300000000000000000000000000000003000000000000000000000000000182C1000000000000000000000000000E0003000000000000000000000000000C6081000000000000000000000000000C60810000000000000000000F000001818FF1000000000000000000000000000197C9000000000000000000000000FFFF00350000000000000000FFFFFFFF002007FD000000000000000001FFFFFF00013003000000000000000000000000000000050000000000000000000000000000065F0000000000000000000000000001BD19000000000000000000000000000240010000000000000000000000000000080100000000000000000000000000003F3F000000000000000000000000000003F8000000000000000000000000FD000000000000000000000000000000000000000000000000000000000000000000004000000000000000000000000000078C010000000000000000000000000000005100000000000000000000000000000001FFFFFFFFFFFFFFFFFFFFFFFFFFFFFFFFFFFFFFFFFFFFFFFFFFFFFFFFFFFFFFFFFFFFFFFFFFFFFFFFFFFFFFFFFFFFFFFF1FFFFFFF
    μ = true) : Keeps μ σ (State.twWrite s f a reg l count code fin) := by
  refine hk.lift hm ?_
  unfold State.twWrite
  repeat' first
    | (extract_lets +onlyGivenNames u
       first
       | (refine Keeps.cut (u := u) ?_ (fun _ => ?_); subst u; on_goal 2 => clear_value u)
       | (have h := @id (_ → _) u; clear h; subst u)
       | clear_value u)
    | with_reducible assumption
    | (simp (decide := true) (maxDischargeDepth := 200) only [↓Keeps.refl, ↓Keeps.ite, ↓Keeps.mk, ↓State.setPtr_keeps,
      ↓State.regAccess_keeps, ↓State.commitWords_snd, ↓State.twEnd_keeps, or_true, true_or, eq_self, *]; done)
    | (split <;>
        (rename_i e
         refine Keeps.cut (State.commitWords_out (by with_reducible exact e) ?_ (by decide)) (fun _ => ?_) <;> clear e))
    | (with_reducible refine State.setPtr_keeps _ _ _ ?_ (by decide))
    | (with_reducible refine State.regAccess_keeps _ ?_ (by decide))
    | (with_reducible refine State.commitWords_snd _ _ _ _ _ ?_ (by decide))
    | (with_reducible refine State.twEnd_keeps _ _ _ ?_ (by decide))
    | split

theorem execTwWriteFrame_keeps (a : Nat) (reg : Byte) (data : List Byte) (fin : TwEnd) (s : State) : Ends (Keeps
    0xFFFF000039C300000000000000000000000000000003000000000000000000000000000182C1000000000000000000000000000E0003000000000000000000000000000C6081000000000000000000000000000C60810000000000000000000F000001818FF1000000000000000000000000000197C9000000000000000000000000FFFF00350000000000000000FFFFFFFF002007FD000000000000000001FFFFFF00013003000000000000000000000000000000050000000000000000000000000000065F0000000000000000000000000001BD19000000000000000000000000000240010000000000000000000000000000080100000000000000000000000000003F3F000000000000000000000000000003F8000000000000000000000000FD000000000000000000000000000000000000000000000000000000000000000000004000000000000000000000000000078C010000000000000000000000000000005100000000000000000000000000000001FFFFFFFFFFFFFFFFFFFFFFFFFFFFFFFFFFFFFFFFFFFFFFFFFFFFFFFFFFFFFFFFFFFFFFFFFFFFFFFFFFFFFFFFFFFFFFFF1FFFFFFF
    s) (execTwWriteFrame a reg data fin s) := by
  unfold execTwWriteFrame
  refine Ends.next ?_
  repeat' first
    | (extract_lets +onlyGivenNames u
       first
       | (refine Keeps.cut (u := u) ?_ (fun _ => ?_); subst u; on_goal 2 => clear_value u)
       | (have h := @id (_ → _) u; clear h; subst u)
       | clear_value u)
    | with_reducible assumption
    | (simp (decide := true) (maxDischargeDepth := 200) only [↓Keeps.next, ↓Keeps.endsIte, ↓Keeps.refl, ↓Keeps.ite,
      ↓Keeps.mk, ↓State.twWrite_keeps, ↓State.twForeign_keeps, or_true, true_or, eq_self, *]; done)
    | split

theorem execTwWritePecFrame_keeps (a : Nat) (reg : Byte) (data : List Byte) (fin : TwEnd) (s : State) : Ends (Keeps
    0xFFFF000039C300000000000000000000000000000003000000000000000000000000000182C1000000000000000000000000000E0003000000000000000000000000000C6081000000000000000000000000000C60810000000000000000000F000001818FF1000000000000000000000000000197C9000000000000000000000000FFFF00350000000000000000FFFFFFFF002007FD000000000000000001FFFFFF00013003000000000000000000000000000000050000000000000000000000000000065F0000000000000000000000000001BD19000000000000000000000000000240010000000000000000000000000000080100000000000000000000000000003F3F000000000000000000000000000003F8000000000000000000000000FD000000000000000000000000000000000000000000000000000000000000000000004000000000000000000000000000078C010000000000000000000000000000005100000000000000000000000000000001FFFFFFFFFFFFFFFFFFFFFFFFFFFFFFFFFFFFFFFFFFFFFFFFFFFFFFFFFFFFFFFFFFFFFFFFFFFFFFFFFFFFFFFFFFFFFFFF1FFFFFFF
    s) (execTwWritePecFrame a reg data fin s) := by
  unfold execTwWritePecFrame
  refine Ends.next ?_
  repeat' first
    | (extract_lets +onlyGivenNames u
       first
       | (refine Keeps.cut (u := u) ?_ (fun _ => ?_); subst u; on_goal 2 => clear_value u)
       | (have h := @id (_ → _) u; clear h; subst u)
       | clear_value u)
    | with_reducible assumption
    | (simp (decide := true) (maxDischargeDepth := 200) only [↓Keeps.next, ↓Keeps.endsIte, ↓Keeps.refl, ↓Keeps.ite,
      ↓Keeps.mk, ↓State.twWrite_keeps, ↓State.twForeign_keeps, or_true, true_or, eq_self, *]; done)
    | split

theorem execTwPointerSet_keeps (a : Nat) (reg : Byte) (fin : TwEnd) (s : State) : Ends (Keeps
    0xFFFF000039C300000000000000000000000000000003000000000000000000000000000182C1000000000000000000000000000E0003000000000000000000000000000C6081000000000000000000000000000C60810000000000000000000F000001818FF1000000000000000000000000000197C9000000000000000000000000FFFF00350000000000000000FFFFFFFF002007FD000000000000000001FFFFFF00013003000000000000000000000000000000050000000000000000000000000000065F0000000000000000000000000001BD19000000000000000000000000000240010000000000000000000000000000080100000000000000000000000000003F3F000000000000000000000000000003F8000000000000000000000000FD000000000000000000000000000000000000000000000000000000000000000000004000000000000000000000000000078C010000000000000000000000000000005100000000000000000000000000000001FFFFFFFFFFFFFFFFFFFFFFFFFFFFFFFFFFFFFFFFFFFFFFFFFFFFFFFFFFFFFFFFFFFFFFFFFFFFFFFFFFFFFFFFFFFFFFFF1FFFFFFF
    s) (execTwPointerSet a reg fin s) := by
  unfold execTwPointerSet
  refine Ends.next ?_
  repeat' first
    | (extract_lets +onlyGivenNames u
       first
       | (refine Keeps.cut (u := u) ?_ (fun _ => ?_); subst u; on_goal 2 => clear_value u)
       | (have h := @id (_ → _) u; clear h; subst u)
       | clear_value u)
    | with_reducible assumption
    | (simp (decide := true) (maxDischargeDepth := 200) only [↓Keeps.next, ↓Keeps.endsIte, ↓Keeps.refl, ↓Keeps.ite,
      ↓Keeps.mk, ↓State.twWrite_keeps, ↓State.twForeign_keeps, or_true, true_or, eq_self, *]; done)
    | split

theorem execTwReadFrame_keeps (a : Nat) (reg : Option Byte) (bytes : Nat) (fin : TwEnd) (s : State) : Ends (Keeps
    0x100000000000000000000000000000000000000000000000000000000000000000000000000000000000000000000000000000000000000000000000000000000000000000000000000000000000000100000000000000000000000000000000000000000000000000000000000020000000000000000000000000000000000000000000000000000000000000000000000000000000000000000000000000B00000000000000000000000000000000000000000000000000000000000000000000000000000000000000000000000000000000000000000000000000000000000000000000000000000000000000000000000000000000000000000000000040000000000000000000000000000000000000007000000000000000000002002000000000000000000000000000000000000000000000000000000000000000001C003083
    s) (execTwReadFrame a reg bytes fin s) := by
  unfold execTwReadFrame
  refine Ends.next ?_
  repeat' first
    | (extract_lets +onlyGivenNames u
       first
       | (refine Keeps.cut (u := u) ?_ (fun _ => ?_); subst u; on_goal 2 => clear_value u)
       | (have h := @id (_ → _) u; clear h; subst u)
       | clear_value u)
    | with_reducible assumption
    | (simp (decide := true) (maxDischargeDepth := 200) only [↓Keeps.next, ↓Keeps.endsIte, ↓Keeps.refl, ↓Keeps.ite,
      ↓Keeps.mk, ↓State.setPtr_keeps, ↓State.regAccess_keeps, ↓State.fetch_snd, ↓State.readWords_snd,
      ↓State.twEnd_keeps, ↓State.twForeign_keeps, or_true, true_or, eq_self, *]; done)
    | (split <;>
        (rename_i e
         refine Keeps.cut (State.fetch_out (by with_reducible exact e) ?_ (by decide)) (fun _ => ?_) <;> clear e))
    | (split <;>
        (rename_i e
         refine Keeps.cut (State.readWords_out (by with_reducible exact e) ?_ (by decide)) (fun _ => ?_) <;> clear e))
    | (with_reducible refine State.setPtr_keeps _ _ _ ?_ (by decide))
    | (with_reducible refine State.regAccess_keeps _ ?_ (by decide))
    | (with_reducible refine State.fetch_snd _ _ _ _ _ ?_ (by decide))
    | (with_reducible refine State.readWords_snd _ _ _ _ _ _ _ _ _ ?_ (by decide))
    | (with_reducible refine State.twEnd_keeps _ _ _ ?_ (by decide))
    | (with_reducible refine State.twForeign_keeps _ _ ?_ (by decide))
    | split

theorem execTwStretchTimeout_keeps (s : State) : Ends (Keeps
    0xB000000000000000000000000000000000000000000000000000000000000000000000000000000000000000000000000000000000000000000000000000000000000000000000000000000000000000000000000000000000000000000000000400000000000000000000000000000000000000000000000000000000000020020000000000000000000000000000000000000000000000000000000000000000000003081
    s) (execTwStretchTimeout s) := by
  unfold execTwStretchTimeout
  refine Ends.next ?_
  repeat' first
    | (extract_lets +onlyGivenNames u
       first
       | (refine Keeps.cut (u := u) ?_ (fun _ => ?_); subst u; on_goal 2 => clear_value u)
       | (have h := @id (_ → _) u; clear h; subst u)
       | clear_value u)
    | with_reducible assumption
    | (simp (decide := true) (maxDischargeDepth := 200) only [↓Keeps.next, ↓Keeps.endsIte, ↓Keeps.refl, ↓Keeps.ite,
      ↓Keeps.mk, ↓State.twAbandon_keeps, or_true, true_or, eq_self, *]; done)
    | split

theorem execTwWakeMatch_keeps (a : Nat) (s : State) : Ends (Keeps
    0x40000000000000000000000000000600010000000000000000000000000000001100000000000000000000000000000000000000000000000000000000000000000000000000000000000000000000000000000000000000000000000000000000000090C0
    s) (execTwWakeMatch a s) := by
  unfold execTwWakeMatch
  refine Ends.next ?_
  repeat' first
    | (extract_lets +onlyGivenNames u
       first
       | (refine Keeps.cut (u := u) ?_ (fun _ => ?_); subst u; on_goal 2 => clear_value u)
       | (have h := @id (_ → _) u; clear h; subst u)
       | clear_value u)
    | with_reducible assumption
    | (simp (decide := true) (maxDischargeDepth := 200) only [↓Keeps.next, ↓Keeps.endsIte, ↓Keeps.refl, ↓Keeps.ite,
      ↓Keeps.mk, ↓State.wake_keeps, or_true, true_or, eq_self, *]; done)
    | split

theorem execTwWakeRelease_keeps (s : State) : Ends (Keeps 0x1000 s) (execTwWakeRelease s) := by
  unfold execTwWakeRelease
  refine Ends.next ?_
  repeat' first
    | (extract_lets +onlyGivenNames u
       first
       | (refine Keeps.cut (u := u) ?_ (fun _ => ?_); subst u; on_goal 2 => clear_value u)
       | (have h := @id (_ → _) u; clear h; subst u)
       | clear_value u)
    | with_reducible assumption
    | (simp (decide := true) (maxDischargeDepth := 200) only [↓Keeps.next, ↓Keeps.endsIte, ↓Keeps.refl, ↓Keeps.ite,
      ↓Keeps.mk, or_true, true_or, eq_self, *]; done)
    | split

theorem execWakeStretch_keeps (s : State) : Ends (Keeps
    0xB000000000000000000000000000000000000000000000000000000000000000000000000000000000000000000000000000000000000000000000000000000000000000000000000000000000000000000000000000000000000000000000000400000000000000000000000000000000000000000000000000000000000020020000000000000000000000000000000000000000000000000000000000000000000003081
    s) (execWakeStretch s) := by
  unfold execWakeStretch
  refine Ends.next ?_
  repeat' first
    | (extract_lets +onlyGivenNames u
       first
       | (refine Keeps.cut (u := u) ?_ (fun _ => ?_); subst u; on_goal 2 => clear_value u)
       | (have h := @id (_ → _) u; clear h; subst u)
       | clear_value u)
    | with_reducible assumption
    | (simp (decide := true) (maxDischargeDepth := 200) only [↓Keeps.next, ↓Keeps.endsIte, ↓Keeps.refl, ↓Keeps.ite,
      ↓Keeps.mk, ↓State.twOutcome_keeps, or_true, true_or, eq_self, *]; done)
    | split

theorem State.setAttn_keeps (s : State) (f : Fn) (a : Attn) {μ : Nat} {σ : State} (hk : Keeps μ σ s) (hm : within?
    0x2000 μ = true) : Keeps μ σ (State.setAttn s f a) := by
  refine hk.lift hm ?_
  unfold State.setAttn
  repeat' first
    | (extract_lets +onlyGivenNames u
       first
       | (refine Keeps.cut (u := u) ?_ (fun _ => ?_); subst u; on_goal 2 => clear_value u)
       | (have h := @id (_ → _) u; clear h; subst u)
       | clear_value u)
    | with_reducible assumption
    | (simp (decide := true) (maxDischargeDepth := 200) only [↓Keeps.refl, ↓Keeps.ite, ↓Keeps.mk, ↓State.setEng_keeps,
      or_true, true_or, eq_self, *]; done)
    | split

theorem execAttentionMessageForm_keeps (f : Fn) (s : State) : Ends (Keeps
    0x400000000000000000000000000006000100000000000000000000000000000011000000000000000000000000000000000000000000000000000000000000008000000000000000000000000000000000000000000000000000000000000000000000A0C0
    s) (execAttentionMessageForm f s) := by
  unfold execAttentionMessageForm
  refine Ends.next ?_
  repeat' first
    | (extract_lets +onlyGivenNames u
       first
       | (refine Keeps.cut (u := u) ?_ (fun _ => ?_); subst u; on_goal 2 => clear_value u)
       | (have h := @id (_ → _) u; clear h; subst u)
       | clear_value u)
    | with_reducible assumption
    | (simp (decide := true) (maxDischargeDepth := 200) only [↓Keeps.next, ↓Keeps.endsIte, ↓Keeps.refl, ↓Keeps.ite,
      ↓Keeps.mk, ↓State.setAttn_keeps, ↓State.fput_keeps, ↓State.serviceWake_keeps, regIn_on, or_true, true_or,
      eq_self, *]; done)
    | split

theorem State.attnStart_keeps (s : State) (f : Fn) {μ : Nat} {σ : State} (hk : Keeps μ σ s) (hm : within?
    0x20000000000000000000000000000000000000000000000000000000000000000000000000000000000000000000000000000000000000000000000000000000000000000000000000000000000000000000000000000000000000000000000000000000000000000000000000000000000000000000000000000000000000000080000000000000000000000000000000000000000000000000000000000000000008003000
    μ = true) : Keeps μ σ (State.attnStart s f) := by
  refine hk.lift hm ?_
  unfold State.attnStart
  repeat' first
    | (extract_lets +onlyGivenNames u
       first
       | (refine Keeps.cut (u := u) ?_ (fun _ => ?_); subst u; on_goal 2 => clear_value u)
       | (have h := @id (_ → _) u; clear h; subst u)
       | clear_value u)
    | with_reducible assumption
    | (simp (decide := true) (maxDischargeDepth := 200) only [↓Keeps.refl, ↓Keeps.ite, ↓Keeps.mk,
      ↓State.setAttn_keeps, ↓State.inc_keeps, ↓State.fput_keeps, regIn_on, or_true, true_or, eq_self, *]; done)
    | split

theorem execAttentionAttempt_keeps (f : Fn) (e : AttnEnd) (s : State) : Ends (Keeps
    0x25000000000000000000000000000000000000000000000000000000000000000000000000000000000000000000000000000000000000000000000000000000000000000000000000000000000000000000000000000000000000000000000000000000000000000000000000000000000000000000000000000000000000000080000000000000000000000000000000000000000000000000000000000000000008003000
    s) (execAttentionAttempt f e s) := by
  unfold execAttentionAttempt
  refine Ends.next ?_
  repeat' first
    | (extract_lets +onlyGivenNames u
       first
       | (refine Keeps.cut (u := u) ?_ (fun _ => ?_); subst u; on_goal 2 => clear_value u)
       | (have h := @id (_ → _) u; clear h; subst u)
       | clear_value u)
    | with_reducible assumption
    | (simp (decide := true) (maxDischargeDepth := 200) only [↓Keeps.next, ↓Keeps.endsIte, ↓Keeps.refl, ↓Keeps.ite,
      ↓Keeps.mk, ↓State.attnStart_keeps, ↓State.attnLate_keeps, ↓State.attnEnd_keeps, or_true, true_or, eq_self,
      *]; done)
    | split

theorem execAttentionRepeat_keeps (f : Fn) (s : State) : Ends (Keeps
    0x400000000000000000000000000006000100000000000000000000000000000011000000000000000000000000000000000000000000000000000000000000000000000000000000000000000000000000000000000000000000000000000000000000A0C0
    s) (execAttentionRepeat f s) := by
  unfold execAttentionRepeat
  refine Ends.next ?_
  repeat' first
    | (extract_lets +onlyGivenNames u
       first
       | (refine Keeps.cut (u := u) ?_ (fun _ => ?_); subst u; on_goal 2 => clear_value u)
       | (have h := @id (_ → _) u; clear h; subst u)
       | clear_value u)
    | with_reducible assumption
    | (simp (decide := true) (maxDischargeDepth := 200) only [↓Keeps.next, ↓Keeps.endsIte, ↓Keeps.refl, ↓Keeps.ite,
      ↓Keeps.mk, ↓State.serviceWake_keeps, ↓State.setAttn_keeps, or_true, true_or, eq_self, *]; done)
    | split

theorem execAttnFallback_keeps (f : Fn) (s : State) : Ends (Keeps
    0x1000000000000000000000000000000000000000000000000000000000000000000000000000000000000000000000000000000000000000000000000000000000000000000000000000000000000000000000000000000000000000000000000400000000000000000000000000000000000000000000000000000000000020080000000000000000000000000000000000000000000000000000000000000000000003081
    s) (execAttnFallback f s) := by
  unfold execAttnFallback
  refine Ends.next ?_
  repeat' first
    | (extract_lets +onlyGivenNames u
       first
       | (refine Keeps.cut (u := u) ?_ (fun _ => ?_); subst u; on_goal 2 => clear_value u)
       | (have h := @id (_ → _) u; clear h; subst u)
       | clear_value u)
    | with_reducible assumption
    | (simp (decide := true) (maxDischargeDepth := 200) only [↓Keeps.next, ↓Keeps.endsIte, ↓Keeps.refl, ↓Keeps.ite,
      ↓Keeps.mk, ↓State.raise1_keeps, ↓State.twEvt_keeps, ↓State.fput_keeps, regIn_on, or_true, true_or, eq_self,
      *]; done)
    | split

theorem State.attnLost_keeps (s : State) (f : Fn) (code : Nat) {μ : Nat} {σ : State} (hk : Keeps μ σ s) (hm : within?
    0x14000000000000000000000000000000000000000000000000000000000000000000000000000000000000000000000000000000000000000000000000000000000000000000000000000000000000000000000000000000000000000000000000000000000000000000000000000000000000000000000000000000000000000080000000000000000000000000000000000000000000000000000000000000000000003000
    μ = true) : Keeps μ σ (State.attnLost s f code) := by
  refine hk.lift hm ?_
  unfold State.attnLost
  repeat' first
    | (extract_lets +onlyGivenNames u
       first
       | (refine Keeps.cut (u := u) ?_ (fun _ => ?_); subst u; on_goal 2 => clear_value u)
       | (have h := @id (_ → _) u; clear h; subst u)
       | clear_value u)
    | with_reducible assumption
    | (simp (decide := true) (maxDischargeDepth := 200) only [↓Keeps.refl, ↓Keeps.ite, ↓Keeps.mk, ↓State.inc_keeps,
      ↓State.attnStat_keeps, ↓State.setAttn_keeps, ↓State.fput_keeps, ↓State.attnSettle_keeps, regIn_on, or_true,
      true_or, eq_self, *]; done)
    | split

theorem execArbLost_keeps (f : Fn) (s : State) : Ends (Keeps
    0x14000000000000000000000000000000000000000000000000000000000000000000000000000000000000000000000000000000000000000000000000000000000000000000000000000000000000000000000000000000000000000000000000000000000000000000000000000000000000000000000000000000000000000080000000000000000000000000000000000000000000000000000000000000000000003000
    s) (execArbLost f s) := by
  unfold execArbLost
  refine Ends.next ?_
  repeat' first
    | (extract_lets +onlyGivenNames u
       first
       | (refine Keeps.cut (u := u) ?_ (fun _ => ?_); subst u; on_goal 2 => clear_value u)
       | (have h := @id (_ → _) u; clear h; subst u)
       | clear_value u)
    | with_reducible assumption
    | (simp (decide := true) (maxDischargeDepth := 200) only [↓Keeps.next, ↓Keeps.endsIte, ↓Keeps.refl, ↓Keeps.ite,
      ↓Keeps.mk, ↓State.attnLost_keeps, or_true, true_or, eq_self, *]; done)
    | split

theorem execTwArbSr_keeps (f : Fn) (s : State) : Ends (Keeps
    0x15000000000000000000000000000000000000000000000000000000000000000000000000000000000000000000000000000000000000000000000000000000000000000000000000000000000000000000000000000000000000000000000000400000000000000000000000000000000000000000000000000000000000020080000000000000000000000000000000000000000000000000000000000000000000003081
    s) (execTwArbSr f s) := by
  unfold execTwArbSr
  refine Ends.next ?_
  repeat' first
    | (extract_lets +onlyGivenNames u
       first
       | (refine Keeps.cut (u := u) ?_ (fun _ => ?_); subst u; on_goal 2 => clear_value u)
       | (have h := @id (_ → _) u; clear h; subst u)
       | clear_value u)
    | with_reducible assumption
    | (simp (decide := true) (maxDischargeDepth := 200) only [↓Keeps.next, ↓Keeps.endsIte, ↓Keeps.refl, ↓Keeps.ite,
      ↓Keeps.mk, ↓State.raise1_keeps, ↓State.twEvt_keeps, ↓State.attnLost_keeps, or_true, true_or, eq_self, *]; done)
    | split

theorem execArbBackoffExpiry_keeps (f : Fn) (s : State) : Ends (Keeps
    0x400000000000000000000000000006000100000000000000000000000000000011000000000000000000000000000000000000000000000000000000000000000000000000000000000000000000000000000000000000000000000000000000000000A0C0
    s) (execArbBackoffExpiry f s) := by
  unfold execArbBackoffExpiry
  refine Ends.next ?_
  repeat' first
    | (extract_lets +onlyGivenNames u
       first
       | (refine Keeps.cut (u := u) ?_ (fun _ => ?_); subst u; on_goal 2 => clear_value u)
       | (have h := @id (_ → _) u; clear h; subst u)
       | clear_value u)
    | with_reducible assumption
    | (simp (decide := true) (maxDischargeDepth := 200) only [↓Keeps.next, ↓Keeps.endsIte, ↓Keeps.refl, ↓Keeps.ite,
      ↓Keeps.mk, ↓State.serviceWake_keeps, ↓State.setAttn_keeps, or_true, true_or, eq_self, *]; done)
    | split

theorem execTwrstPulse_keeps (lowUs : Nat) (s : State) : Ends (Keeps
    0xF0000000000000000000000000000000000000000000000000000000000000000000000000000000000000000000000000000000000000000000000000000000000000000000000000000000000000000000000000000000000000000000000004000000000000000000000000000000000000000000000000000000000000200A0000000000000000000000000000000000000000000000000000000000000000010003081
    s) (execTwrstPulse lowUs s) := by
  unfold execTwrstPulse
  refine Ends.next ?_
  repeat' first
    | (extract_lets +onlyGivenNames u
       first
       | (refine Keeps.cut (u := u) ?_ (fun _ => ?_); subst u; on_goal 2 => clear_value u)
       | (have h := @id (_ → _) u; clear h; subst u)
       | clear_value u)
    | with_reducible assumption
    | (simp (decide := true) (maxDischargeDepth := 200) only [↓Keeps.next, ↓Keeps.endsIte, ↓Keeps.refl, ↓Keeps.ite,
      ↓Keeps.mk, ↓State.twReset_keeps, ↓State.fresh_snd, or_true, true_or, eq_self, *]; done)
    | (split <;>
        (rename_i e
         refine Keeps.cut (State.fresh_out (by with_reducible exact e) ?_ (by decide)) (fun _ => ?_) <;> clear e))
    | (with_reducible refine State.twReset_keeps _ ?_ (by decide))
    | (with_reducible refine State.fresh_snd _ ?_ (by decide))
    | split

theorem execStuckBus_keeps (sda again : Bool) (s : State) : Ends (Keeps
    0xF0000000000000000000000000000000000000000000000000000000000000000000000000000000000000000000000000000000000000000000000000000000000000000000000000000000000000000000000000000000000000000000000004000000000000000000000000000000000000000000000000000000000000200A00000000000000000000000000000000000000000000000000000000000000000000030A1
    s) (execStuckBus sda again s) := by
  unfold execStuckBus
  refine Ends.next ?_
  repeat' first
    | (extract_lets +onlyGivenNames u
       first
       | (refine Keeps.cut (u := u) ?_ (fun _ => ?_); subst u; on_goal 2 => clear_value u)
       | (have h := @id (_ → _) u; clear h; subst u)
       | clear_value u)
    | with_reducible assumption
    | (simp (decide := true) (maxDischargeDepth := 200) only [↓Keeps.next, ↓Keeps.endsIte, ↓Keeps.refl, ↓Keeps.ite,
      ↓Keeps.mk, ↓State.twEvt_keeps, ↓State.twrstDrive_keeps, or_true, true_or, eq_self, *]; done)
    | split

theorem execBusDeadRelease_keeps (s : State) : Ends (Keeps 0x1000 s) (execBusDeadRelease s) := by
  unfold execBusDeadRelease
  refine Ends.next ?_
  repeat' first
    | (extract_lets +onlyGivenNames u
       first
       | (refine Keeps.cut (u := u) ?_ (fun _ => ?_); subst u; on_goal 2 => clear_value u)
       | (have h := @id (_ → _) u; clear h; subst u)
       | clear_value u)
    | with_reducible assumption
    | (simp (decide := true) (maxDischargeDepth := 200) only [↓Keeps.next, ↓Keeps.endsIte, ↓Keeps.refl, ↓Keeps.ite,
      ↓Keeps.mk, or_true, true_or, eq_self, *]; done)
    | split

end Sys2Proof.Machine
end

