-- ==== Sys2Proof/Laws/KeepsCommands.lean ====
section
/-! SUPPORT. What each operation of Machine/Commands.lean may change, and that it keeps the canonical form. -/

set_option Elab.async false

set_option linter.unusedSimpArgs false
set_option linter.unusedTactic false
set_option linter.unreachableTactic false

namespace Sys2Proof.Machine

open R

theorem execRegisterWrite_keeps (f : Fn) (off : Nat) (v : Word) (s : State) : Ends (Keeps
    0xFFFF000039C300000000000000000000000000000003000000000000000000000000000182C1000000000000000000000000000E0003000000000000000000000000000C6081000000000000000000000000000C60810000000000000000000F000001818FF1000000000000000000000000000197C9000000000000000000000000FFFF00350000000000000000FFFFFFFF002007FD000000000000000001FFFFFF00013003000000000000000000000000000000050000000000000000000000000000065F0000000000000000000000000001BD19000000000000000000000000000240010000000000000000000000000000080100000000000000000000000000003F3F000000000000000000000000000003F8000000000000000000000000FD000000000000000000000000000000000000000000000000000000000000000000004000000000000000000000000000078C010000000000000000000000000000005100000000000000000000000000000001FFFFFFFFFFFFFFFFFFFFFFFFFFFFFFFFFFFFFFFFFFFFFFFFFFFFFFFFFFFFFFFFFFFFFFFFFFFFFFFFFFFFFFFFFFFFFFFF1FFFFFFF
    s) (execRegisterWrite f off v s) := by
  unfold execRegisterWrite
  repeat' first
    | (extract_lets +onlyGivenNames u
       first
       | (refine Keeps.cut (u := u) ?_ (fun _ => ?_); subst u; on_goal 2 => clear_value u)
       | (have h := @id (_ → _) u; clear h; subst u)
       | clear_value u)
    | with_reducible assumption
    | (simp (decide := true) (maxDischargeDepth := 200) only [↓Keeps.next, ↓Keeps.endsIte, ↓Keeps.refl, ↓Keeps.ite,
      ↓State.regAccess_keeps, ↓State.hostWrite_keeps, *]; done)
    | split

theorem execFnErrWrite_keeps (f : Fn) (v : Word) (s : State) : Ends (Keeps
    0xFFFF000039C300000000000000000000000000000003000000000000000000000000000182C1000000000000000000000000000E0003000000000000000000000000000C6081000000000000000000000000000C60810000000000000000000F000001818FF1000000000000000000000000000197C9000000000000000000000000FFFF00350000000000000000FFFFFFFF002007FD000000000000000001FFFFFF00013003000000000000000000000000000000050000000000000000000000000000065F0000000000000000000000000001BD19000000000000000000000000000240010000000000000000000000000000080100000000000000000000000000003F3F000000000000000000000000000003F8000000000000000000000000FD000000000000000000000000000000000000000000000000000000000000000000004000000000000000000000000000078C010000000000000000000000000000005100000000000000000000000000000001FFFFFFFFFFFFFFFFFFFFFFFFFFFFFFFFFFFFFFFFFFFFFFFFFFFFFFFFFFFFFFFFFFFFFFFFFFFFFFFFFFFFFFFFFFFFFFFF1FFFFFFF
    s) (execFnErrWrite f v s) := by
  unfold execFnErrWrite
  refine Ends.next ?_
  repeat' first
    | (extract_lets +onlyGivenNames u
       first
       | (refine Keeps.cut (u := u) ?_ (fun _ => ?_); subst u; on_goal 2 => clear_value u)
       | (have h := @id (_ → _) u; clear h; subst u)
       | clear_value u)
    | with_reducible assumption
    | (simp (decide := true) (maxDischargeDepth := 200) only [↓Keeps.next, ↓Keeps.endsIte, ↓Keeps.refl, ↓Keeps.ite,
      ↓Keeps.mk, ↓State.cmdWrite_keeps, or_true, true_or, eq_self, *]; done)
    | split

theorem execDepassGo_keeps (f : Fn) (s : State) : Ends (Keeps
    0xFFFF000039C300000000000000000000000000000003000000000000000000000000000182C1000000000000000000000000000E0003000000000000000000000000000C6081000000000000000000000000000C60810000000000000000000F000001818FF1000000000000000000000000000197C9000000000000000000000000FFFF00350000000000000000FFFFFFFF002007FD000000000000000001FFFFFF00013003000000000000000000000000000000050000000000000000000000000000065F0000000000000000000000000001BD19000000000000000000000000000240010000000000000000000000000000080100000000000000000000000000003F3F000000000000000000000000000003F8000000000000000000000000FD000000000000000000000000000000000000000000000000000000000000000000004000000000000000000000000000078C010000000000000000000000000000005100000000000000000000000000000001FFFFFFFFFFFFFFFFFFFFFFFFFFFFFFFFFFFFFFFFFFFFFFFFFFFFFFFFFFFFFFFFFFFFFFFFFFFFFFFFFFFFFFFFFFFFFFFF1FFFFFFF
    s) (execDepassGo f s) := by
  unfold execDepassGo
  refine Ends.next ?_
  repeat' first
    | (extract_lets +onlyGivenNames u
       first
       | (refine Keeps.cut (u := u) ?_ (fun _ => ?_); subst u; on_goal 2 => clear_value u)
       | (have h := @id (_ → _) u; clear h; subst u)
       | clear_value u)
    | with_reducible assumption
    | (simp (decide := true) (maxDischargeDepth := 200) only [↓Keeps.next, ↓Keeps.endsIte, ↓Keeps.refl, ↓Keeps.ite,
      ↓Keeps.mk, ↓State.cmdWrite_keeps, or_true, true_or, eq_self, *]; done)
    | split

theorem execLedgerLoad_keeps (f : Fn) (s : State) : Ends (Keeps
    0xFFFF000039C300000000000000000000000000000003000000000000000000000000000182C1000000000000000000000000000E0003000000000000000000000000000C6081000000000000000000000000000C60810000000000000000000F000001818FF1000000000000000000000000000197C9000000000000000000000000FFFF00350000000000000000FFFFFFFF002007FD000000000000000001FFFFFF00013003000000000000000000000000000000050000000000000000000000000000065F0000000000000000000000000001BD19000000000000000000000000000240010000000000000000000000000000080100000000000000000000000000003F3F000000000000000000000000000003F8000000000000000000000000FD000000000000000000000000000000000000000000000000000000000000000000004000000000000000000000000000078C010000000000000000000000000000005100000000000000000000000000000001FFFFFFFFFFFFFFFFFFFFFFFFFFFFFFFFFFFFFFFFFFFFFFFFFFFFFFFFFFFFFFFFFFFFFFFFFFFFFFFFFFFFFFFFFFFFFFFF1FFFFFFF
    s) (execLedgerLoad f s) := by
  unfold execLedgerLoad
  refine Ends.next ?_
  repeat' first
    | (extract_lets +onlyGivenNames u
       first
       | (refine Keeps.cut (u := u) ?_ (fun _ => ?_); subst u; on_goal 2 => clear_value u)
       | (have h := @id (_ → _) u; clear h; subst u)
       | clear_value u)
    | with_reducible assumption
    | (simp (decide := true) (maxDischargeDepth := 200) only [↓Keeps.next, ↓Keeps.endsIte, ↓Keeps.refl, ↓Keeps.ite,
      ↓Keeps.mk, ↓State.cmdWrite_keeps, or_true, true_or, eq_self, *]; done)
    | split

theorem execEstReset_keeps (f : Fn) (s : State) : Ends (Keeps
    0xFFFF000039C300000000000000000000000000000003000000000000000000000000000182C1000000000000000000000000000E0003000000000000000000000000000C6081000000000000000000000000000C60810000000000000000000F000001818FF1000000000000000000000000000197C9000000000000000000000000FFFF00350000000000000000FFFFFFFF002007FD000000000000000001FFFFFF00013003000000000000000000000000000000050000000000000000000000000000065F0000000000000000000000000001BD19000000000000000000000000000240010000000000000000000000000000080100000000000000000000000000003F3F000000000000000000000000000003F8000000000000000000000000FD000000000000000000000000000000000000000000000000000000000000000000004000000000000000000000000000078C010000000000000000000000000000005100000000000000000000000000000001FFFFFFFFFFFFFFFFFFFFFFFFFFFFFFFFFFFFFFFFFFFFFFFFFFFFFFFFFFFFFFFFFFFFFFFFFFFFFFFFFFFFFFFFFFFFFFFF1FFFFFFF
    s) (execEstReset f s) := by
  unfold execEstReset
  refine Ends.next ?_
  repeat' first
    | (extract_lets +onlyGivenNames u
       first
       | (refine Keeps.cut (u := u) ?_ (fun _ => ?_); subst u; on_goal 2 => clear_value u)
       | (have h := @id (_ → _) u; clear h; subst u)
       | clear_value u)
    | with_reducible assumption
    | (simp (decide := true) (maxDischargeDepth := 200) only [↓Keeps.next, ↓Keeps.endsIte, ↓Keeps.refl, ↓Keeps.ite,
      ↓Keeps.mk, ↓State.cmdWrite_keeps, or_true, true_or, eq_self, *]; done)
    | split

theorem execModeCmdShutdown_keeps (f : Fn) (s : State) : Ends (Keeps
    0xFFFF000039C300000000000000000000000000000003000000000000000000000000000182C1000000000000000000000000000E0003000000000000000000000000000C6081000000000000000000000000000C60810000000000000000000F000001818FF1000000000000000000000000000197C9000000000000000000000000FFFF00350000000000000000FFFFFFFF002007FD000000000000000001FFFFFF00013003000000000000000000000000000000050000000000000000000000000000065F0000000000000000000000000001BD19000000000000000000000000000240010000000000000000000000000000080100000000000000000000000000003F3F000000000000000000000000000003F8000000000000000000000000FD000000000000000000000000000000000000000000000000000000000000000000004000000000000000000000000000078C010000000000000000000000000000005100000000000000000000000000000001FFFFFFFFFFFFFFFFFFFFFFFFFFFFFFFFFFFFFFFFFFFFFFFFFFFFFFFFFFFFFFFFFFFFFFFFFFFFFFFFFFFFFFFFFFFFFFFF1FFFFFFF
    s) (execModeCmdShutdown f s) := by
  unfold execModeCmdShutdown
  refine Ends.next ?_
  repeat' first
    | (extract_lets +onlyGivenNames u
       first
       | (refine Keeps.cut (u := u) ?_ (fun _ => ?_); subst u; on_goal 2 => clear_value u)
       | (have h := @id (_ → _) u; clear h; subst u)
       | clear_value u)
    | with_reducible assumption
    | (simp (decide := true) (maxDischargeDepth := 200) only [↓Keeps.next, ↓Keeps.endsIte, ↓Keeps.refl, ↓Keeps.ite,
      ↓Keeps.mk, ↓State.cmdWrite_keeps, or_true, true_or, eq_self, *]; done)
    | split

theorem execModeCmdRestNow_keeps (f : Fn) (s : State) : Ends (Keeps
    0xFFFF000039C300000000000000000000000000000003000000000000000000000000000182C1000000000000000000000000000E0003000000000000000000000000000C6081000000000000000000000000000C60810000000000000000000F000001818FF1000000000000000000000000000197C9000000000000000000000000FFFF00350000000000000000FFFFFFFF002007FD000000000000000001FFFFFF00013003000000000000000000000000000000050000000000000000000000000000065F0000000000000000000000000001BD19000000000000000000000000000240010000000000000000000000000000080100000000000000000000000000003F3F000000000000000000000000000003F8000000000000000000000000FD000000000000000000000000000000000000000000000000000000000000000000004000000000000000000000000000078C010000000000000000000000000000005100000000000000000000000000000001FFFFFFFFFFFFFFFFFFFFFFFFFFFFFFFFFFFFFFFFFFFFFFFFFFFFFFFFFFFFFFFFFFFFFFFFFFFFFFFFFFFFFFFFFFFFFFFF1FFFFFFF
    s) (execModeCmdRestNow f s) := by
  unfold execModeCmdRestNow
  refine Ends.next ?_
  repeat' first
    | (extract_lets +onlyGivenNames u
       first
       | (refine Keeps.cut (u := u) ?_ (fun _ => ?_); subst u; on_goal 2 => clear_value u)
       | (have h := @id (_ → _) u; clear h; subst u)
       | clear_value u)
    | with_reducible assumption
    | (simp (decide := true) (maxDischargeDepth := 200) only [↓Keeps.next, ↓Keeps.endsIte, ↓Keeps.refl, ↓Keeps.ite,
      ↓Keeps.mk, ↓State.cmdWrite_keeps, or_true, true_or, eq_self, *]; done)
    | split

theorem execImgRevoke_keeps (f : Fn) (v : Word) (s : State) : Ends (Keeps
    0xFFFF000039C300000000000000000000000000000003000000000000000000000000000182C1000000000000000000000000000E0003000000000000000000000000000C6081000000000000000000000000000C60810000000000000000000F000001818FF1000000000000000000000000000197C9000000000000000000000000FFFF00350000000000000000FFFFFFFF002007FD000000000000000001FFFFFF00013003000000000000000000000000000000050000000000000000000000000000065F0000000000000000000000000001BD19000000000000000000000000000240010000000000000000000000000000080100000000000000000000000000003F3F000000000000000000000000000003F8000000000000000000000000FD000000000000000000000000000000000000000000000000000000000000000000004000000000000000000000000000078C010000000000000000000000000000005100000000000000000000000000000001FFFFFFFFFFFFFFFFFFFFFFFFFFFFFFFFFFFFFFFFFFFFFFFFFFFFFFFFFFFFFFFFFFFFFFFFFFFFFFFFFFFFFFFFFFFFFFFF1FFFFFFF
    s) (execImgRevoke f v s) := by
  unfold execImgRevoke
  refine Ends.next ?_
  repeat' first
    | (extract_lets +onlyGivenNames u
       first
       | (refine Keeps.cut (u := u) ?_ (fun _ => ?_); subst u; on_goal 2 => clear_value u)
       | (have h := @id (_ → _) u; clear h; subst u)
       | clear_value u)
    | with_reducible assumption
    | (simp (decide := true) (maxDischargeDepth := 200) only [↓Keeps.next, ↓Keeps.endsIte, ↓Keeps.refl, ↓Keeps.ite,
      ↓Keeps.mk, ↓State.cmdWrite_keeps, or_true, true_or, eq_self, *]; done)
    | split

theorem execImgPrefWrite_keeps (f : Fn) (v : Word) (s : State) : Ends (Keeps
    0xFFFF000039C300000000000000000000000000000003000000000000000000000000000182C1000000000000000000000000000E0003000000000000000000000000000C6081000000000000000000000000000C60810000000000000000000F000001818FF1000000000000000000000000000197C9000000000000000000000000FFFF00350000000000000000FFFFFFFF002007FD000000000000000001FFFFFF00013003000000000000000000000000000000050000000000000000000000000000065F0000000000000000000000000001BD19000000000000000000000000000240010000000000000000000000000000080100000000000000000000000000003F3F000000000000000000000000000003F8000000000000000000000000FD000000000000000000000000000000000000000000000000000000000000000000004000000000000000000000000000078C010000000000000000000000000000005100000000000000000000000000000001FFFFFFFFFFFFFFFFFFFFFFFFFFFFFFFFFFFFFFFFFFFFFFFFFFFFFFFFFFFFFFFFFFFFFFFFFFFFFFFFFFFFFFFFFFFFFFFF1FFFFFFF
    s) (execImgPrefWrite f v s) := by
  unfold execImgPrefWrite
  refine Ends.next ?_
  repeat' first
    | (extract_lets +onlyGivenNames u
       first
       | (refine Keeps.cut (u := u) ?_ (fun _ => ?_); subst u; on_goal 2 => clear_value u)
       | (have h := @id (_ → _) u; clear h; subst u)
       | clear_value u)
    | with_reducible assumption
    | (simp (decide := true) (maxDischargeDepth := 200) only [↓Keeps.next, ↓Keeps.endsIte, ↓Keeps.refl, ↓Keeps.ite,
      ↓Keeps.mk, ↓State.cmdWrite_keeps, or_true, true_or, eq_self, *]; done)
    | split

theorem execImageWindowWrite_keeps (f : Fn) (w : Word) (s : State) : Ends (Keeps
    0xFFFF000039C300000000000000000000000000000003000000000000000000000000000182C1000000000000000000000000000E0003000000000000000000000000000C6081000000000000000000000000000C60810000000000000000000F000001818FF1000000000000000000000000000197C9000000000000000000000000FFFF00350000000000000000FFFFFFFF002007FD000000000000000001FFFFFF00013003000000000000000000000000000000050000000000000000000000000000065F0000000000000000000000000001BD19000000000000000000000000000240010000000000000000000000000000080100000000000000000000000000003F3F000000000000000000000000000003F8000000000000000000000000FD000000000000000000000000000000000000000000000000000000000000000000004000000000000000000000000000078C010000000000000000000000000000005100000000000000000000000000000001FFFFFFFFFFFFFFFFFFFFFFFFFFFFFFFFFFFFFFFFFFFFFFFFFFFFFFFFFFFFFFFFFFFFFFFFFFFFFFFFFFFFFFFFFFFFFFFF1FFFFFFF
    s) (execImageWindowWrite f w s) := by
  unfold execImageWindowWrite
  refine Ends.next ?_
  repeat' first
    | (extract_lets +onlyGivenNames u
       first
       | (refine Keeps.cut (u := u) ?_ (fun _ => ?_); subst u; on_goal 2 => clear_value u)
       | (have h := @id (_ → _) u; clear h; subst u)
       | clear_value u)
    | with_reducible assumption
    | (simp (decide := true) (maxDischargeDepth := 200) only [↓Keeps.next, ↓Keeps.endsIte, ↓Keeps.refl, ↓Keeps.ite,
      ↓Keeps.mk, ↓State.cmdWrite_keeps, or_true, true_or, eq_self, *]; done)
    | split

theorem execHpCntClr_keeps (f : Fn) (s : State) : Ends (Keeps
    0xFFFF000039C300000000000000000000000000000003000000000000000000000000000182C1000000000000000000000000000E0003000000000000000000000000000C6081000000000000000000000000000C60810000000000000000000F000001818FF1000000000000000000000000000197C9000000000000000000000000FFFF00350000000000000000FFFFFFFF002007FD000000000000000001FFFFFF00013003000000000000000000000000000000050000000000000000000000000000065F0000000000000000000000000001BD19000000000000000000000000000240010000000000000000000000000000080100000000000000000000000000003F3F000000000000000000000000000003F8000000000000000000000000FD000000000000000000000000000000000000000000000000000000000000000000004000000000000000000000000000078C010000000000000000000000000000005100000000000000000000000000000001FFFFFFFFFFFFFFFFFFFFFFFFFFFFFFFFFFFFFFFFFFFFFFFFFFFFFFFFFFFFFFFFFFFFFFFFFFFFFFFFFFFFFFFFFFFFFFFF1FFFFFFF
    s) (execHpCntClr f s) := by
  unfold execHpCntClr
  refine Ends.next ?_
  repeat' first
    | (extract_lets +onlyGivenNames u
       first
       | (refine Keeps.cut (u := u) ?_ (fun _ => ?_); subst u; on_goal 2 => clear_value u)
       | (have h := @id (_ → _) u; clear h; subst u)
       | clear_value u)
    | with_reducible assumption
    | (simp (decide := true) (maxDischargeDepth := 200) only [↓Keeps.next, ↓Keeps.endsIte, ↓Keeps.refl, ↓Keeps.ite,
      ↓Keeps.mk, ↓State.cmdWrite_keeps, or_true, true_or, eq_self, *]; done)
    | split

theorem execTwAddressConfigWrite_keeps (f : Fn) (off : Nat) (v : Word) (s : State) : Ends (Keeps
    0xFFFF000039C300000000000000000000000000000003000000000000000000000000000182C1000000000000000000000000000E0003000000000000000000000000000C6081000000000000000000000000000C60810000000000000000000F000001818FF1000000000000000000000000000197C9000000000000000000000000FFFF00350000000000000000FFFFFFFF002007FD000000000000000001FFFFFF00013003000000000000000000000000000000050000000000000000000000000000065F0000000000000000000000000001BD19000000000000000000000000000240010000000000000000000000000000080100000000000000000000000000003F3F000000000000000000000000000003F8000000000000000000000000FD000000000000000000000000000000000000000000000000000000000000000000004000000000000000000000000000078C010000000000000000000000000000005100000000000000000000000000000001FFFFFFFFFFFFFFFFFFFFFFFFFFFFFFFFFFFFFFFFFFFFFFFFFFFFFFFFFFFFFFFFFFFFFFFFFFFFFFFFFFFFFFFFFFFFFFFF1FFFFFFF
    s) (execTwAddressConfigWrite f off v s) := by
  unfold execTwAddressConfigWrite
  refine Ends.next ?_
  repeat' first
    | (extract_lets +onlyGivenNames u
       first
       | (refine Keeps.cut (u := u) ?_ (fun _ => ?_); subst u; on_goal 2 => clear_value u)
       | (have h := @id (_ → _) u; clear h; subst u)
       | clear_value u)
    | with_reducible assumption
    | (simp (decide := true) (maxDischargeDepth := 200) only [↓Keeps.next, ↓Keeps.endsIte, ↓Keeps.refl, ↓Keeps.ite,
      ↓Keeps.mk, ↓State.cmdWrite_keeps, or_true, true_or, eq_self, *]; done)
    | split

theorem execAttnAckWrite_keeps (f : Fn) (v : Word) (s : State) : Ends (Keeps
    0xFFFF000039C300000000000000000000000000000003000000000000000000000000000182C1000000000000000000000000000E0003000000000000000000000000000C6081000000000000000000000000000C60810000000000000000000F000001818FF1000000000000000000000000000197C9000000000000000000000000FFFF00350000000000000000FFFFFFFF002007FD000000000000000001FFFFFF00013003000000000000000000000000000000050000000000000000000000000000065F0000000000000000000000000001BD19000000000000000000000000000240010000000000000000000000000000080100000000000000000000000000003F3F000000000000000000000000000003F8000000000000000000000000FD000000000000000000000000000000000000000000000000000000000000000000004000000000000000000000000000078C010000000000000000000000000000005100000000000000000000000000000001FFFFFFFFFFFFFFFFFFFFFFFFFFFFFFFFFFFFFFFFFFFFFFFFFFFFFFFFFFFFFFFFFFFFFFFFFFFFFFFFFFFFFFFFFFFFFFFF1FFFFFFF
    s) (execAttnAckWrite f v s) := by
  unfold execAttnAckWrite
  refine Ends.next ?_
  repeat' first
    | (extract_lets +onlyGivenNames u
       first
       | (refine Keeps.cut (u := u) ?_ (fun _ => ?_); subst u; on_goal 2 => clear_value u)
       | (have h := @id (_ → _) u; clear h; subst u)
       | clear_value u)
    | with_reducible assumption
    | (simp (decide := true) (maxDischargeDepth := 200) only [↓Keeps.next, ↓Keeps.endsIte, ↓Keeps.refl, ↓Keeps.ite,
      ↓Keeps.mk, ↓State.cmdWrite_keeps, or_true, true_or, eq_self, *]; done)
    | split

theorem execTwBusReset_keeps (f : Fn) (s : State) : Ends (Keeps
    0xFFFF000039C300000000000000000000000000000003000000000000000000000000000182C1000000000000000000000000000E0003000000000000000000000000000C6081000000000000000000000000000C60810000000000000000000F000001818FF1000000000000000000000000000197C9000000000000000000000000FFFF00350000000000000000FFFFFFFF002007FD000000000000000001FFFFFF00013003000000000000000000000000000000050000000000000000000000000000065F0000000000000000000000000001BD19000000000000000000000000000240010000000000000000000000000000080100000000000000000000000000003F3F000000000000000000000000000003F8000000000000000000000000FD000000000000000000000000000000000000000000000000000000000000000000004000000000000000000000000000078C010000000000000000000000000000005100000000000000000000000000000001FFFFFFFFFFFFFFFFFFFFFFFFFFFFFFFFFFFFFFFFFFFFFFFFFFFFFFFFFFFFFFFFFFFFFFFFFFFFFFFFFFFFFFFFFFFFFFFF1FFFFFFF
    s) (execTwBusReset f s) := by
  unfold execTwBusReset
  refine Ends.next ?_
  repeat' first
    | (extract_lets +onlyGivenNames u
       first
       | (refine Keeps.cut (u := u) ?_ (fun _ => ?_); subst u; on_goal 2 => clear_value u)
       | (have h := @id (_ → _) u; clear h; subst u)
       | clear_value u)
    | with_reducible assumption
    | (simp (decide := true) (maxDischargeDepth := 200) only [↓Keeps.next, ↓Keeps.endsIte, ↓Keeps.refl, ↓Keeps.ite,
      ↓Keeps.mk, ↓State.cmdWrite_keeps, or_true, true_or, eq_self, *]; done)
    | split

theorem execTwCntClr_keeps (f : Fn) (s : State) : Ends (Keeps
    0xFFFF000039C300000000000000000000000000000003000000000000000000000000000182C1000000000000000000000000000E0003000000000000000000000000000C6081000000000000000000000000000C60810000000000000000000F000001818FF1000000000000000000000000000197C9000000000000000000000000FFFF00350000000000000000FFFFFFFF002007FD000000000000000001FFFFFF00013003000000000000000000000000000000050000000000000000000000000000065F0000000000000000000000000001BD19000000000000000000000000000240010000000000000000000000000000080100000000000000000000000000003F3F000000000000000000000000000003F8000000000000000000000000FD000000000000000000000000000000000000000000000000000000000000000000004000000000000000000000000000078C010000000000000000000000000000005100000000000000000000000000000001FFFFFFFFFFFFFFFFFFFFFFFFFFFFFFFFFFFFFFFFFFFFFFFFFFFFFFFFFFFFFFFFFFFFFFFFFFFFFFFFFFFFFFFFFFFFFFFF1FFFFFFF
    s) (execTwCntClr f s) := by
  unfold execTwCntClr
  refine Ends.next ?_
  repeat' first
    | (extract_lets +onlyGivenNames u
       first
       | (refine Keeps.cut (u := u) ?_ (fun _ => ?_); subst u; on_goal 2 => clear_value u)
       | (have h := @id (_ → _) u; clear h; subst u)
       | clear_value u)
    | with_reducible assumption
    | (simp (decide := true) (maxDischargeDepth := 200) only [↓Keeps.next, ↓Keeps.endsIte, ↓Keeps.refl, ↓Keeps.ite,
      ↓Keeps.mk, ↓State.cmdWrite_keeps, or_true, true_or, eq_self, *]; done)
    | split

theorem execFnReset_keeps (f : Fn) (v : Word) (s : State) : Ends (Keeps
    0xFFFF000039C300000000000000000000000000000003000000000000000000000000000182C1000000000000000000000000000E0003000000000000000000000000000C6081000000000000000000000000000C60810000000000000000000F000001818FF1000000000000000000000000000197C9000000000000000000000000FFFF00350000000000000000FFFFFFFF002007FD000000000000000001FFFFFF00013003000000000000000000000000000000050000000000000000000000000000065F0000000000000000000000000001BD19000000000000000000000000000240010000000000000000000000000000080100000000000000000000000000003F3F000000000000000000000000000003F8000000000000000000000000FD000000000000000000000000000000000000000000000000000000000000000000004000000000000000000000000000078C010000000000000000000000000000005100000000000000000000000000000001FFFFFFFFFFFFFFFFFFFFFFFFFFFFFFFFFFFFFFFFFFFFFFFFFFFFFFFFFFFFFFFFFFFFFFFFFFFFFFFFFFFFFFFFFFFFFFFF1FFFFFFF
    s) (execFnReset f v s) := by
  unfold execFnReset
  refine Ends.next ?_
  repeat' first
    | (extract_lets +onlyGivenNames u
       first
       | (refine Keeps.cut (u := u) ?_ (fun _ => ?_); subst u; on_goal 2 => clear_value u)
       | (have h := @id (_ → _) u; clear h; subst u)
       | clear_value u)
    | with_reducible assumption
    | (simp (decide := true) (maxDischargeDepth := 200) only [↓Keeps.next, ↓Keeps.endsIte, ↓Keeps.refl, ↓Keeps.ite,
      ↓Keeps.mk, ↓State.cmdWrite_keeps, or_true, true_or, eq_self, *]; done)
    | split

theorem execFreset_keeps (f : Fn) (v : Word) (s : State) : Ends (Keeps
    0xFFFF000039C300000000000000000000000000000003000000000000000000000000000182C1000000000000000000000000000E0003000000000000000000000000000C6081000000000000000000000000000C60810000000000000000000F000001818FF1000000000000000000000000000197C9000000000000000000000000FFFF00350000000000000000FFFFFFFF002007FD000000000000000001FFFFFF00013003000000000000000000000000000000050000000000000000000000000000065F0000000000000000000000000001BD19000000000000000000000000000240010000000000000000000000000000080100000000000000000000000000003F3F000000000000000000000000000003F8000000000000000000000000FD000000000000000000000000000000000000000000000000000000000000000000004000000000000000000000000000078C010000000000000000000000000000005100000000000000000000000000000001FFFFFFFFFFFFFFFFFFFFFFFFFFFFFFFFFFFFFFFFFFFFFFFFFFFFFFFFFFFFFFFFFFFFFFFFFFFFFFFFFFFFFFFFFFFFFFFF1FFFFFFF
    s) (execFreset f v s) := by
  unfold execFreset
  refine Ends.next ?_
  repeat' first
    | (extract_lets +onlyGivenNames u
       first
       | (refine Keeps.cut (u := u) ?_ (fun _ => ?_); subst u; on_goal 2 => clear_value u)
       | (have h := @id (_ → _) u; clear h; subst u)
       | clear_value u)
    | with_reducible assumption
    | (simp (decide := true) (maxDischargeDepth := 200) only [↓Keeps.next, ↓Keeps.endsIte, ↓Keeps.refl, ↓Keeps.ite,
      ↓Keeps.mk, ↓State.cmdWrite_keeps, or_true, true_or, eq_self, *]; done)
    | split

theorem execPartLock_keeps (f : Fn) (v : Word) (s : State) : Ends (Keeps
    0xFFFF000039C300000000000000000000000000000003000000000000000000000000000182C1000000000000000000000000000E0003000000000000000000000000000C6081000000000000000000000000000C60810000000000000000000F000001818FF1000000000000000000000000000197C9000000000000000000000000FFFF00350000000000000000FFFFFFFF002007FD000000000000000001FFFFFF00013003000000000000000000000000000000050000000000000000000000000000065F0000000000000000000000000001BD19000000000000000000000000000240010000000000000000000000000000080100000000000000000000000000003F3F000000000000000000000000000003F8000000000000000000000000FD000000000000000000000000000000000000000000000000000000000000000000004000000000000000000000000000078C010000000000000000000000000000005100000000000000000000000000000001FFFFFFFFFFFFFFFFFFFFFFFFFFFFFFFFFFFFFFFFFFFFFFFFFFFFFFFFFFFFFFFFFFFFFFFFFFFFFFFFFFFFFFFFFFFFFFFF1FFFFFFF
    s) (execPartLock f v s) := by
  unfold execPartLock
  refine Ends.next ?_
  repeat' first
    | (extract_lets +onlyGivenNames u
       first
       | (refine Keeps.cut (u := u) ?_ (fun _ => ?_); subst u; on_goal 2 => clear_value u)
       | (have h := @id (_ → _) u; clear h; subst u)
       | clear_value u)
    | with_reducible assumption
    | (simp (decide := true) (maxDischargeDepth := 200) only [↓Keeps.next, ↓Keeps.endsIte, ↓Keeps.refl, ↓Keeps.ite,
      ↓Keeps.mk, ↓State.cmdWrite_keeps, or_true, true_or, eq_self, *]; done)
    | split

theorem execPartDqWrite_keeps (f : Fn) (v : Word) (s : State) : Ends (Keeps
    0xFFFF000039C300000000000000000000000000000003000000000000000000000000000182C1000000000000000000000000000E0003000000000000000000000000000C6081000000000000000000000000000C60810000000000000000000F000001818FF1000000000000000000000000000197C9000000000000000000000000FFFF00350000000000000000FFFFFFFF002007FD000000000000000001FFFFFF00013003000000000000000000000000000000050000000000000000000000000000065F0000000000000000000000000001BD19000000000000000000000000000240010000000000000000000000000000080100000000000000000000000000003F3F000000000000000000000000000003F8000000000000000000000000FD000000000000000000000000000000000000000000000000000000000000000000004000000000000000000000000000078C010000000000000000000000000000005100000000000000000000000000000001FFFFFFFFFFFFFFFFFFFFFFFFFFFFFFFFFFFFFFFFFFFFFFFFFFFFFFFFFFFFFFFFFFFFFFFFFFFFFFFFFFFFFFFFFFFFFFFF1FFFFFFF
    s) (execPartDqWrite f v s) := by
  unfold execPartDqWrite
  refine Ends.next ?_
  repeat' first
    | (extract_lets +onlyGivenNames u
       first
       | (refine Keeps.cut (u := u) ?_ (fun _ => ?_); subst u; on_goal 2 => clear_value u)
       | (have h := @id (_ → _) u; clear h; subst u)
       | clear_value u)
    | with_reducible assumption
    | (simp (decide := true) (maxDischargeDepth := 200) only [↓Keeps.next, ↓Keeps.endsIte, ↓Keeps.refl, ↓Keeps.ite,
      ↓Keeps.mk, ↓State.cmdWrite_keeps, or_true, true_or, eq_self, *]; done)
    | split

theorem execCmdGo_keeps (f : Fn) (v : Word) (s : State) : Ends (Keeps
    0xFFFF000039C300000000000000000000000000000003000000000000000000000000000182C1000000000000000000000000000E0003000000000000000000000000000C6081000000000000000000000000000C60810000000000000000000F000001818FF1000000000000000000000000000197C9000000000000000000000000FFFF00350000000000000000FFFFFFFF002007FD000000000000000001FFFFFF00013003000000000000000000000000000000050000000000000000000000000000065F0000000000000000000000000001BD19000000000000000000000000000240010000000000000000000000000000080100000000000000000000000000003F3F000000000000000000000000000003F8000000000000000000000000FD000000000000000000000000000000000000000000000000000000000000000000004000000000000000000000000000078C010000000000000000000000000000005100000000000000000000000000000001FFFFFFFFFFFFFFFFFFFFFFFFFFFFFFFFFFFFFFFFFFFFFFFFFFFFFFFFFFFFFFFFFFFFFFFFFFFFFFFFFFFFFFFFFFFFFFFF1FFFFFFF
    s) (execCmdGo f v s) := by
  unfold execCmdGo
  refine Ends.next ?_
  repeat' first
    | (extract_lets +onlyGivenNames u
       first
       | (refine Keeps.cut (u := u) ?_ (fun _ => ?_); subst u; on_goal 2 => clear_value u)
       | (have h := @id (_ → _) u; clear h; subst u)
       | clear_value u)
    | with_reducible assumption
    | (simp (decide := true) (maxDischargeDepth := 200) only [↓Keeps.next, ↓Keeps.endsIte, ↓Keeps.refl, ↓Keeps.ite,
      ↓Keeps.mk, ↓State.cmdWrite_keeps, or_true, true_or, eq_self, *]; done)
    | split

theorem State.setOut_keeps (s : State) (l : List Word) {μ : Nat} {σ : State} (hk : Keeps μ σ s)
    (hm : within? 0x8000000 μ = true) : Keeps μ σ { s with hostOut := l } := by
  refine hk.lift hm ?_
  simp (decide := true) only [↓Keeps.mk, ↓Keeps.refl, or_true, true_or, eq_self]

theorem State.cmdRead_keeps (s : State) (f : Fn) (off : Nat) (get : State → Word × State) {μ : Nat} {σ : State}
    (hk : Keeps μ σ s) (hm : within? 0x400000000000000000000000000000000000000000000000000000000000020020000000000000000000000000000000000000000000000000000000000000000008002081 μ = true) (hg : ∀ t, Keeps μ t (get t).2) :
    Keeps μ σ (s.cmdRead f off get) := by
  unfold State.cmdRead
  have h8 : within? 0x8000000 μ = true := Keeps.within_trans (by decide) hm
  split
  · exact State.setOut_keeps _ _ ((State.regAccess_keeps _ hk (Keeps.within_trans (by decide) hm)).trans (hg _)) h8
  · exact State.setOut_keeps _ _ (State.setErr_keeps _ _ _ hk (Keeps.within_trans (by decide) hm)) h8
  · exact State.setOut_keeps _ _ hk h8

theorem execDqDataRead_keeps (f : Fn) (s : State) : Ends (Keeps
    0x400000000000000000000000000000000000000000000000000000000000020020000000000000000000000000000000000000000000000000000000000000000008002081
    s) (execDqDataRead f s) := by
  unfold execDqDataRead
  refine Ends.next ?_
  repeat' first
    | (extract_lets +onlyGivenNames u
       first
       | (refine Keeps.cut (u := u) ?_ (fun _ => ?_); subst u; on_goal 2 => clear_value u)
       | (have h := @id (_ → _) u; clear h; subst u)
       | clear_value u)
    | with_reducible assumption
    | (simp (decide := true) (maxDischargeDepth := 200) only [↓Keeps.next, ↓Keeps.endsIte, ↓Keeps.refl, ↓Keeps.ite,
      ↓Keeps.mk, ↓State.cmdRead_keeps, ↓State.dqRead_snd, implies_true, or_true, true_or, eq_self, *]; done)
    | (split <;>
        (rename_i e
         refine Keeps.cut (State.dqRead_out (by with_reducible exact e) ?_ (by decide)) (fun _ => ?_) <;> clear e))
    | (with_reducible refine State.cmdRead_keeps _ _ _ _ ?_ (by decide))
    | (with_reducible refine State.dqRead_snd _ _ ?_ (by decide))
    | split

theorem execDqFlush_keeps (f : Fn) (s : State) : Ends (Keeps
    0xFFFF000039C300000000000000000000000000000003000000000000000000000000000182C1000000000000000000000000000E0003000000000000000000000000000C6081000000000000000000000000000C60810000000000000000000F000001818FF1000000000000000000000000000197C9000000000000000000000000FFFF00350000000000000000FFFFFFFF002007FD000000000000000001FFFFFF00013003000000000000000000000000000000050000000000000000000000000000065F0000000000000000000000000001BD19000000000000000000000000000240010000000000000000000000000000080100000000000000000000000000003F3F000000000000000000000000000003F8000000000000000000000000FD000000000000000000000000000000000000000000000000000000000000000000004000000000000000000000000000078C010000000000000000000000000000005100000000000000000000000000000001FFFFFFFFFFFFFFFFFFFFFFFFFFFFFFFFFFFFFFFFFFFFFFFFFFFFFFFFFFFFFFFFFFFFFFFFFFFFFFFFFFFFFFFFFFFFFFFF1FFFFFFF
    s) (execDqFlush f s) := by
  unfold execDqFlush
  refine Ends.next ?_
  repeat' first
    | (extract_lets +onlyGivenNames u
       first
       | (refine Keeps.cut (u := u) ?_ (fun _ => ?_); subst u; on_goal 2 => clear_value u)
       | (have h := @id (_ → _) u; clear h; subst u)
       | clear_value u)
    | with_reducible assumption
    | (simp (decide := true) (maxDischargeDepth := 200) only [↓Keeps.next, ↓Keeps.endsIte, ↓Keeps.refl, ↓Keeps.ite,
      ↓Keeps.mk, ↓State.cmdWrite_keeps, or_true, true_or, eq_self, *]; done)
    | split

theorem execMemAddrWrite_keeps (f : Fn) (v : Word) (s : State) : Ends (Keeps
    0xFFFF000039C300000000000000000000000000000003000000000000000000000000000182C1000000000000000000000000000E0003000000000000000000000000000C6081000000000000000000000000000C60810000000000000000000F000001818FF1000000000000000000000000000197C9000000000000000000000000FFFF00350000000000000000FFFFFFFF002007FD000000000000000001FFFFFF00013003000000000000000000000000000000050000000000000000000000000000065F0000000000000000000000000001BD19000000000000000000000000000240010000000000000000000000000000080100000000000000000000000000003F3F000000000000000000000000000003F8000000000000000000000000FD000000000000000000000000000000000000000000000000000000000000000000004000000000000000000000000000078C010000000000000000000000000000005100000000000000000000000000000001FFFFFFFFFFFFFFFFFFFFFFFFFFFFFFFFFFFFFFFFFFFFFFFFFFFFFFFFFFFFFFFFFFFFFFFFFFFFFFFFFFFFFFFFFFFFFFFF1FFFFFFF
    s) (execMemAddrWrite f v s) := by
  unfold execMemAddrWrite
  refine Ends.next ?_
  repeat' first
    | (extract_lets +onlyGivenNames u
       first
       | (refine Keeps.cut (u := u) ?_ (fun _ => ?_); subst u; on_goal 2 => clear_value u)
       | (have h := @id (_ → _) u; clear h; subst u)
       | clear_value u)
    | with_reducible assumption
    | (simp (decide := true) (maxDischargeDepth := 200) only [↓Keeps.next, ↓Keeps.endsIte, ↓Keeps.refl, ↓Keeps.ite,
      ↓Keeps.mk, ↓State.cmdWrite_keeps, or_true, true_or, eq_self, *]; done)
    | split

theorem execMemDataAccess_keeps (f : Fn) (w : Option Word) (qspiTo : Bool) (s : State) : Ends (Keeps
    0xFFFF000039C300000000000000000000000000000003000000000000000000000000000182C1000000000000000000000000000E0003000000000000000000000000000C6081000000000000000000000000000C60810000000000000000000F000001818FF1000000000000000000000000000197C9000000000000000000000000FFFF00350000000000000000FFFFFFFF002007FD000000000000000001FFFFFF00013003000000000000000000000000000000050000000000000000000000000000065F0000000000000000000000000001BD19000000000000000000000000000240010000000000000000000000000000080100000000000000000000000000003F3F000000000000000000000000000003F8000000000000000000000000FD000000000000000000000000000000000000000000000000000000000000000000004000000000000000000000000000078C010000000000000000000000000000005100000000000000000000000000000001FFFFFFFFFFFFFFFFFFFFFFFFFFFFFFFFFFFFFFFFFFFFFFFFFFFFFFFFFFFFFFFFFFFFFFFFFFFFFFFFFFFFFFFFFFFFFFFF1FFFFFFF
    s) (execMemDataAccess f w qspiTo s) := by
  unfold execMemDataAccess
  refine Ends.next ?_
  repeat' first
    | (extract_lets +onlyGivenNames u
       first
       | (refine Keeps.cut (u := u) ?_ (fun _ => ?_); subst u; on_goal 2 => clear_value u)
       | (have h := @id (_ → _) u; clear h; subst u)
       | clear_value u)
    | with_reducible assumption
    | (simp (decide := true) (maxDischargeDepth := 200) only [↓Keeps.next, ↓Keeps.endsIte, ↓Keeps.refl, ↓Keeps.ite,
      ↓Keeps.mk, ↓State.cmdWrite_keeps, ↓State.cmdRead_keeps, ↓State.memRead_snd, implies_true, or_true, true_or,
      eq_self, *]; done)
    | (split <;>
        (rename_i e
         refine Keeps.cut (State.memRead_out (by with_reducible exact e) ?_ (by decide)) (fun _ => ?_) <;> clear e))
    | (with_reducible refine State.cmdWrite_keeps _ _ _ _ ?_ (by decide))
    | (with_reducible refine State.cmdRead_keeps _ _ _ _ ?_ (by decide))
    | (with_reducible refine State.memRead_snd _ _ _ ?_ (by decide))
    | split

theorem execPlanBegin_keeps (f : Fn) (s : State) : Ends (Keeps
    0xFFFF000039C300000000000000000000000000000003000000000000000000000000000182C1000000000000000000000000000E0003000000000000000000000000000C6081000000000000000000000000000C60810000000000000000000F000001818FF1000000000000000000000000000197C9000000000000000000000000FFFF00350000000000000000FFFFFFFF002007FD000000000000000001FFFFFF00013003000000000000000000000000000000050000000000000000000000000000065F0000000000000000000000000001BD19000000000000000000000000000240010000000000000000000000000000080100000000000000000000000000003F3F000000000000000000000000000003F8000000000000000000000000FD000000000000000000000000000000000000000000000000000000000000000000004000000000000000000000000000078C010000000000000000000000000000005100000000000000000000000000000001FFFFFFFFFFFFFFFFFFFFFFFFFFFFFFFFFFFFFFFFFFFFFFFFFFFFFFFFFFFFFFFFFFFFFFFFFFFFFFFFFFFFFFFFFFFFFFFF1FFFFFFF
    s) (execPlanBegin f s) := by
  unfold execPlanBegin
  refine Ends.next ?_
  repeat' first
    | (extract_lets +onlyGivenNames u
       first
       | (refine Keeps.cut (u := u) ?_ (fun _ => ?_); subst u; on_goal 2 => clear_value u)
       | (have h := @id (_ → _) u; clear h; subst u)
       | clear_value u)
    | with_reducible assumption
    | (simp (decide := true) (maxDischargeDepth := 200) only [↓Keeps.next, ↓Keeps.endsIte, ↓Keeps.refl, ↓Keeps.ite,
      ↓Keeps.mk, ↓State.cmdWrite_keeps, or_true, true_or, eq_self, *]; done)
    | split

theorem execPlanSubmit_keeps (f : Fn) (s : State) : Ends (Keeps
    0xFFFF000039C300000000000000000000000000000003000000000000000000000000000182C1000000000000000000000000000E0003000000000000000000000000000C6081000000000000000000000000000C60810000000000000000000F000001818FF1000000000000000000000000000197C9000000000000000000000000FFFF00350000000000000000FFFFFFFF002007FD000000000000000001FFFFFF00013003000000000000000000000000000000050000000000000000000000000000065F0000000000000000000000000001BD19000000000000000000000000000240010000000000000000000000000000080100000000000000000000000000003F3F000000000000000000000000000003F8000000000000000000000000FD000000000000000000000000000000000000000000000000000000000000000000004000000000000000000000000000078C010000000000000000000000000000005100000000000000000000000000000001FFFFFFFFFFFFFFFFFFFFFFFFFFFFFFFFFFFFFFFFFFFFFFFFFFFFFFFFFFFFFFFFFFFFFFFFFFFFFFFFFFFFFFFFFFFFFFFF1FFFFFFF
    s) (execPlanSubmit f s) := by
  unfold execPlanSubmit
  refine Ends.next ?_
  repeat' first
    | (extract_lets +onlyGivenNames u
       first
       | (refine Keeps.cut (u := u) ?_ (fun _ => ?_); subst u; on_goal 2 => clear_value u)
       | (have h := @id (_ → _) u; clear h; subst u)
       | clear_value u)
    | with_reducible assumption
    | (simp (decide := true) (maxDischargeDepth := 200) only [↓Keeps.next, ↓Keeps.endsIte, ↓Keeps.refl, ↓Keeps.ite,
      ↓Keeps.mk, ↓State.cmdWrite_keeps, or_true, true_or, eq_self, *]; done)
    | split

theorem execPlanWithdraw_keeps (f : Fn) (s : State) : Ends (Keeps
    0xFFFF000039C300000000000000000000000000000003000000000000000000000000000182C1000000000000000000000000000E0003000000000000000000000000000C6081000000000000000000000000000C60810000000000000000000F000001818FF1000000000000000000000000000197C9000000000000000000000000FFFF00350000000000000000FFFFFFFF002007FD000000000000000001FFFFFF00013003000000000000000000000000000000050000000000000000000000000000065F0000000000000000000000000001BD19000000000000000000000000000240010000000000000000000000000000080100000000000000000000000000003F3F000000000000000000000000000003F8000000000000000000000000FD000000000000000000000000000000000000000000000000000000000000000000004000000000000000000000000000078C010000000000000000000000000000005100000000000000000000000000000001FFFFFFFFFFFFFFFFFFFFFFFFFFFFFFFFFFFFFFFFFFFFFFFFFFFFFFFFFFFFFFFFFFFFFFFFFFFFFFFFFFFFFFFFFFFFFFFF1FFFFFFF
    s) (execPlanWithdraw f s) := by
  unfold execPlanWithdraw
  refine Ends.next ?_
  repeat' first
    | (extract_lets +onlyGivenNames u
       first
       | (refine Keeps.cut (u := u) ?_ (fun _ => ?_); subst u; on_goal 2 => clear_value u)
       | (have h := @id (_ → _) u; clear h; subst u)
       | clear_value u)
    | with_reducible assumption
    | (simp (decide := true) (maxDischargeDepth := 200) only [↓Keeps.next, ↓Keeps.endsIte, ↓Keeps.refl, ↓Keeps.ite,
      ↓Keeps.mk, ↓State.cmdWrite_keeps, or_true, true_or, eq_self, *]; done)
    | split

theorem execWrec15Write_keeps (f : Fn) (v : Word) (s : State) : Ends (Keeps
    0xFFFF000039C300000000000000000000000000000003000000000000000000000000000182C1000000000000000000000000000E0003000000000000000000000000000C6081000000000000000000000000000C60810000000000000000000F000001818FF1000000000000000000000000000197C9000000000000000000000000FFFF00350000000000000000FFFFFFFF002007FD000000000000000001FFFFFF00013003000000000000000000000000000000050000000000000000000000000000065F0000000000000000000000000001BD19000000000000000000000000000240010000000000000000000000000000080100000000000000000000000000003F3F000000000000000000000000000003F8000000000000000000000000FD000000000000000000000000000000000000000000000000000000000000000000004000000000000000000000000000078C010000000000000000000000000000005100000000000000000000000000000001FFFFFFFFFFFFFFFFFFFFFFFFFFFFFFFFFFFFFFFFFFFFFFFFFFFFFFFFFFFFFFFFFFFFFFFFFFFFFFFFFFFFFFFFFFFFFFFF1FFFFFFF
    s) (execWrec15Write f v s) := by
  unfold execWrec15Write
  refine Ends.next ?_
  repeat' first
    | (extract_lets +onlyGivenNames u
       first
       | (refine Keeps.cut (u := u) ?_ (fun _ => ?_); subst u; on_goal 2 => clear_value u)
       | (have h := @id (_ → _) u; clear h; subst u)
       | clear_value u)
    | with_reducible assumption
    | (simp (decide := true) (maxDischargeDepth := 200) only [↓Keeps.next, ↓Keeps.endsIte, ↓Keeps.refl, ↓Keeps.ite,
      ↓Keeps.mk, ↓State.cmdWrite_keeps, or_true, true_or, eq_self, *]; done)
    | split

theorem execPlanWidxWrite_keeps (f : Fn) (v : Word) (s : State) : Ends (Keeps
    0xFFFF000039C300000000000000000000000000000003000000000000000000000000000182C1000000000000000000000000000E0003000000000000000000000000000C6081000000000000000000000000000C60810000000000000000000F000001818FF1000000000000000000000000000197C9000000000000000000000000FFFF00350000000000000000FFFFFFFF002007FD000000000000000001FFFFFF00013003000000000000000000000000000000050000000000000000000000000000065F0000000000000000000000000001BD19000000000000000000000000000240010000000000000000000000000000080100000000000000000000000000003F3F000000000000000000000000000003F8000000000000000000000000FD000000000000000000000000000000000000000000000000000000000000000000004000000000000000000000000000078C010000000000000000000000000000005100000000000000000000000000000001FFFFFFFFFFFFFFFFFFFFFFFFFFFFFFFFFFFFFFFFFFFFFFFFFFFFFFFFFFFFFFFFFFFFFFFFFFFFFFFFFFFFFFFFFFFFFFFF1FFFFFFF
    s) (execPlanWidxWrite f v s) := by
  unfold execPlanWidxWrite
  refine Ends.next ?_
  repeat' first
    | (extract_lets +onlyGivenNames u
       first
       | (refine Keeps.cut (u := u) ?_ (fun _ => ?_); subst u; on_goal 2 => clear_value u)
       | (have h := @id (_ → _) u; clear h; subst u)
       | clear_value u)
    | with_reducible assumption
    | (simp (decide := true) (maxDischargeDepth := 200) only [↓Keeps.next, ↓Keeps.endsIte, ↓Keeps.refl, ↓Keeps.ite,
      ↓Keeps.mk, ↓State.cmdWrite_keeps, or_true, true_or, eq_self, *]; done)
    | split

theorem execFesAfGo_keeps (f : Fn) (s : State) : Ends (Keeps
    0xFFFF000039C300000000000000000000000000000003000000000000000000000000000182C1000000000000000000000000000E0003000000000000000000000000000C6081000000000000000000000000000C60810000000000000000000F000001818FF1000000000000000000000000000197C9000000000000000000000000FFFF00350000000000000000FFFFFFFF002007FD000000000000000001FFFFFF00013003000000000000000000000000000000050000000000000000000000000000065F0000000000000000000000000001BD19000000000000000000000000000240010000000000000000000000000000080100000000000000000000000000003F3F000000000000000000000000000003F8000000000000000000000000FD000000000000000000000000000000000000000000000000000000000000000000004000000000000000000000000000078C010000000000000000000000000000005100000000000000000000000000000001FFFFFFFFFFFFFFFFFFFFFFFFFFFFFFFFFFFFFFFFFFFFFFFFFFFFFFFFFFFFFFFFFFFFFFFFFFFFFFFFFFFFFFFFFFFFFFFF1FFFFFFF
    s) (execFesAfGo f s) := by
  unfold execFesAfGo
  refine Ends.next ?_
  repeat' first
    | (extract_lets +onlyGivenNames u
       first
       | (refine Keeps.cut (u := u) ?_ (fun _ => ?_); subst u; on_goal 2 => clear_value u)
       | (have h := @id (_ → _) u; clear h; subst u)
       | clear_value u)
    | with_reducible assumption
    | (simp (decide := true) (maxDischargeDepth := 200) only [↓Keeps.next, ↓Keeps.endsIte, ↓Keeps.refl, ↓Keeps.ite,
      ↓Keeps.mk, ↓State.cmdWrite_keeps, or_true, true_or, eq_self, *]; done)
    | split

theorem execSynApply_keeps (f : Fn) (s : State) : Ends (Keeps
    0xFFFF000039C300000000000000000000000000000003000000000000000000000000000182C1000000000000000000000000000E0003000000000000000000000000000C6081000000000000000000000000000C60810000000000000000000F000001818FF1000000000000000000000000000197C9000000000000000000000000FFFF00350000000000000000FFFFFFFF002007FD000000000000000001FFFFFF00013003000000000000000000000000000000050000000000000000000000000000065F0000000000000000000000000001BD19000000000000000000000000000240010000000000000000000000000000080100000000000000000000000000003F3F000000000000000000000000000003F8000000000000000000000000FD000000000000000000000000000000000000000000000000000000000000000000004000000000000000000000000000078C010000000000000000000000000000005100000000000000000000000000000001FFFFFFFFFFFFFFFFFFFFFFFFFFFFFFFFFFFFFFFFFFFFFFFFFFFFFFFFFFFFFFFFFFFFFFFFFFFFFFFFFFFFFFFFFFFFFFFF1FFFFFFF
    s) (execSynApply f s) := by
  unfold execSynApply
  refine Ends.next ?_
  repeat' first
    | (extract_lets +onlyGivenNames u
       first
       | (refine Keeps.cut (u := u) ?_ (fun _ => ?_); subst u; on_goal 2 => clear_value u)
       | (have h := @id (_ → _) u; clear h; subst u)
       | clear_value u)
    | with_reducible assumption
    | (simp (decide := true) (maxDischargeDepth := 200) only [↓Keeps.next, ↓Keeps.endsIte, ↓Keeps.refl, ↓Keeps.ite,
      ↓Keeps.mk, ↓State.cmdWrite_keeps, or_true, true_or, eq_self, *]; done)
    | split

theorem execRawFesWrite_keeps (f : Fn) (off : Nat) (v : Word) (s : State) : Ends (Keeps
    0xFFFF000039C300000000000000000000000000000003000000000000000000000000000182C1000000000000000000000000000E0003000000000000000000000000000C6081000000000000000000000000000C60810000000000000000000F000001818FF1000000000000000000000000000197C9000000000000000000000000FFFF00350000000000000000FFFFFFFF002007FD000000000000000001FFFFFF00013003000000000000000000000000000000050000000000000000000000000000065F0000000000000000000000000001BD19000000000000000000000000000240010000000000000000000000000000080100000000000000000000000000003F3F000000000000000000000000000003F8000000000000000000000000FD000000000000000000000000000000000000000000000000000000000000000000004000000000000000000000000000078C010000000000000000000000000000005100000000000000000000000000000001FFFFFFFFFFFFFFFFFFFFFFFFFFFFFFFFFFFFFFFFFFFFFFFFFFFFFFFFFFFFFFFFFFFFFFFFFFFFFFFFFFFFFFFFFFFFFFFF1FFFFFFF
    s) (execRawFesWrite f off v s) := by
  unfold execRawFesWrite
  refine Ends.next ?_
  repeat' first
    | (extract_lets +onlyGivenNames u
       first
       | (refine Keeps.cut (u := u) ?_ (fun _ => ?_); subst u; on_goal 2 => clear_value u)
       | (have h := @id (_ → _) u; clear h; subst u)
       | clear_value u)
    | with_reducible assumption
    | (simp (decide := true) (maxDischargeDepth := 200) only [↓Keeps.next, ↓Keeps.endsIte, ↓Keeps.refl, ↓Keeps.ite,
      ↓Keeps.mk, ↓State.cmdWrite_keeps, or_true, true_or, eq_self, *]; done)
    | split

theorem execRawHold_keeps (f : Fn) (v : Word) (s : State) : Ends (Keeps
    0xFFFF000039C300000000000000000000000000000003000000000000000000000000000182C1000000000000000000000000000E0003000000000000000000000000000C6081000000000000000000000000000C60810000000000000000000F000001818FF1000000000000000000000000000197C9000000000000000000000000FFFF00350000000000000000FFFFFFFF002007FD000000000000000001FFFFFF00013003000000000000000000000000000000050000000000000000000000000000065F0000000000000000000000000001BD19000000000000000000000000000240010000000000000000000000000000080100000000000000000000000000003F3F000000000000000000000000000003F8000000000000000000000000FD000000000000000000000000000000000000000000000000000000000000000000004000000000000000000000000000078C010000000000000000000000000000005100000000000000000000000000000001FFFFFFFFFFFFFFFFFFFFFFFFFFFFFFFFFFFFFFFFFFFFFFFFFFFFFFFFFFFFFFFFFFFFFFFFFFFFFFFFFFFFFFFFFFFFFFFF1FFFFFFF
    s) (execRawHold f v s) := by
  unfold execRawHold
  refine Ends.next ?_
  repeat' first
    | (extract_lets +onlyGivenNames u
       first
       | (refine Keeps.cut (u := u) ?_ (fun _ => ?_); subst u; on_goal 2 => clear_value u)
       | (have h := @id (_ → _) u; clear h; subst u)
       | clear_value u)
    | with_reducible assumption
    | (simp (decide := true) (maxDischargeDepth := 200) only [↓Keeps.next, ↓Keeps.endsIte, ↓Keeps.refl, ↓Keeps.ite,
      ↓Keeps.mk, ↓State.cmdWrite_keeps, or_true, true_or, eq_self, *]; done)
    | split

theorem execRawHoldClear_keeps (f : Fn) (s : State) : Ends (Keeps
    0xFFFF000039C300000000000000000000000000000003000000000000000000000000000182C1000000000000000000000000000E0003000000000000000000000000000C6081000000000000000000000000000C60810000000000000000000F000001818FF1000000000000000000000000000197C9000000000000000000000000FFFF00350000000000000000FFFFFFFF002007FD000000000000000001FFFFFF00013003000000000000000000000000000000050000000000000000000000000000065F0000000000000000000000000001BD19000000000000000000000000000240010000000000000000000000000000080100000000000000000000000000003F3F000000000000000000000000000003F8000000000000000000000000FD000000000000000000000000000000000000000000000000000000000000000000004000000000000000000000000000078C010000000000000000000000000000005100000000000000000000000000000001FFFFFFFFFFFFFFFFFFFFFFFFFFFFFFFFFFFFFFFFFFFFFFFFFFFFFFFFFFFFFFFFFFFFFFFFFFFFFFFFFFFFFFFFFFFFFFFF1FFFFFFF
    s) (execRawHoldClear f s) := by
  unfold execRawHoldClear
  refine Ends.next ?_
  repeat' first
    | (extract_lets +onlyGivenNames u
       first
       | (refine Keeps.cut (u := u) ?_ (fun _ => ?_); subst u; on_goal 2 => clear_value u)
       | (have h := @id (_ → _) u; clear h; subst u)
       | clear_value u)
    | with_reducible assumption
    | (simp (decide := true) (maxDischargeDepth := 200) only [↓Keeps.next, ↓Keeps.endsIte, ↓Keeps.refl, ↓Keeps.ite,
      ↓Keeps.mk, ↓State.cmdWrite_keeps, or_true, true_or, eq_self, *]; done)
    | split

theorem execRelearn_keeps (f : Fn) (s : State) : Ends (Keeps
    0xFFFF000039C300000000000000000000000000000003000000000000000000000000000182C1000000000000000000000000000E0003000000000000000000000000000C6081000000000000000000000000000C60810000000000000000000F000001818FF1000000000000000000000000000197C9000000000000000000000000FFFF00350000000000000000FFFFFFFF002007FD000000000000000001FFFFFF00013003000000000000000000000000000000050000000000000000000000000000065F0000000000000000000000000001BD19000000000000000000000000000240010000000000000000000000000000080100000000000000000000000000003F3F000000000000000000000000000003F8000000000000000000000000FD000000000000000000000000000000000000000000000000000000000000000000004000000000000000000000000000078C010000000000000000000000000000005100000000000000000000000000000001FFFFFFFFFFFFFFFFFFFFFFFFFFFFFFFFFFFFFFFFFFFFFFFFFFFFFFFFFFFFFFFFFFFFFFFFFFFFFFFFFFFFFFFFFFFFFFFF1FFFFFFF
    s) (execRelearn f s) := by
  unfold execRelearn
  refine Ends.next ?_
  repeat' first
    | (extract_lets +onlyGivenNames u
       first
       | (refine Keeps.cut (u := u) ?_ (fun _ => ?_); subst u; on_goal 2 => clear_value u)
       | (have h := @id (_ → _) u; clear h; subst u)
       | clear_value u)
    | with_reducible assumption
    | (simp (decide := true) (maxDischargeDepth := 200) only [↓Keeps.next, ↓Keeps.endsIte, ↓Keeps.refl, ↓Keeps.ite,
      ↓Keeps.mk, ↓State.cmdWrite_keeps, or_true, true_or, eq_self, *]; done)
    | split

theorem execLftTplSelWrite_keeps (f : Fn) (v : Word) (s : State) : Ends (Keeps
    0xFFFF000039C300000000000000000000000000000003000000000000000000000000000182C1000000000000000000000000000E0003000000000000000000000000000C6081000000000000000000000000000C60810000000000000000000F000001818FF1000000000000000000000000000197C9000000000000000000000000FFFF00350000000000000000FFFFFFFF002007FD000000000000000001FFFFFF00013003000000000000000000000000000000050000000000000000000000000000065F0000000000000000000000000001BD19000000000000000000000000000240010000000000000000000000000000080100000000000000000000000000003F3F000000000000000000000000000003F8000000000000000000000000FD000000000000000000000000000000000000000000000000000000000000000000004000000000000000000000000000078C010000000000000000000000000000005100000000000000000000000000000001FFFFFFFFFFFFFFFFFFFFFFFFFFFFFFFFFFFFFFFFFFFFFFFFFFFFFFFFFFFFFFFFFFFFFFFFFFFFFFFFFFFFFFFFFFFFFFFF1FFFFFFF
    s) (execLftTplSelWrite f v s) := by
  unfold execLftTplSelWrite
  refine Ends.next ?_
  repeat' first
    | (extract_lets +onlyGivenNames u
       first
       | (refine Keeps.cut (u := u) ?_ (fun _ => ?_); subst u; on_goal 2 => clear_value u)
       | (have h := @id (_ → _) u; clear h; subst u)
       | clear_value u)
    | with_reducible assumption
    | (simp (decide := true) (maxDischargeDepth := 200) only [↓Keeps.next, ↓Keeps.endsIte, ↓Keeps.refl, ↓Keeps.ite,
      ↓Keeps.mk, ↓State.cmdWrite_keeps, or_true, true_or, eq_self, *]; done)
    | split

theorem execLftTplCommit_keeps (f : Fn) (s : State) : Ends (Keeps
    0xFFFF000039C300000000000000000000000000000003000000000000000000000000000182C1000000000000000000000000000E0003000000000000000000000000000C6081000000000000000000000000000C60810000000000000000000F000001818FF1000000000000000000000000000197C9000000000000000000000000FFFF00350000000000000000FFFFFFFF002007FD000000000000000001FFFFFF00013003000000000000000000000000000000050000000000000000000000000000065F0000000000000000000000000001BD19000000000000000000000000000240010000000000000000000000000000080100000000000000000000000000003F3F000000000000000000000000000003F8000000000000000000000000FD000000000000000000000000000000000000000000000000000000000000000000004000000000000000000000000000078C010000000000000000000000000000005100000000000000000000000000000001FFFFFFFFFFFFFFFFFFFFFFFFFFFFFFFFFFFFFFFFFFFFFFFFFFFFFFFFFFFFFFFFFFFFFFFFFFFFFFFFFFFFFFFFFFFFFFFF1FFFFFFF
    s) (execLftTplCommit f s) := by
  unfold execLftTplCommit
  refine Ends.next ?_
  repeat' first
    | (extract_lets +onlyGivenNames u
       first
       | (refine Keeps.cut (u := u) ?_ (fun _ => ?_); subst u; on_goal 2 => clear_value u)
       | (have h := @id (_ → _) u; clear h; subst u)
       | clear_value u)
    | with_reducible assumption
    | (simp (decide := true) (maxDischargeDepth := 200) only [↓Keeps.next, ↓Keeps.endsIte, ↓Keeps.refl, ↓Keeps.ite,
      ↓Keeps.mk, ↓State.cmdWrite_keeps, or_true, true_or, eq_self, *]; done)
    | split

theorem execLftTplClear_keeps (f : Fn) (s : State) : Ends (Keeps
    0xFFFF000039C300000000000000000000000000000003000000000000000000000000000182C1000000000000000000000000000E0003000000000000000000000000000C6081000000000000000000000000000C60810000000000000000000F000001818FF1000000000000000000000000000197C9000000000000000000000000FFFF00350000000000000000FFFFFFFF002007FD000000000000000001FFFFFF00013003000000000000000000000000000000050000000000000000000000000000065F0000000000000000000000000001BD19000000000000000000000000000240010000000000000000000000000000080100000000000000000000000000003F3F000000000000000000000000000003F8000000000000000000000000FD000000000000000000000000000000000000000000000000000000000000000000004000000000000000000000000000078C010000000000000000000000000000005100000000000000000000000000000001FFFFFFFFFFFFFFFFFFFFFFFFFFFFFFFFFFFFFFFFFFFFFFFFFFFFFFFFFFFFFFFFFFFFFFFFFFFFFFFFFFFFFFFFFFFFFFFF1FFFFFFF
    s) (execLftTplClear f s) := by
  unfold execLftTplClear
  refine Ends.next ?_
  repeat' first
    | (extract_lets +onlyGivenNames u
       first
       | (refine Keeps.cut (u := u) ?_ (fun _ => ?_); subst u; on_goal 2 => clear_value u)
       | (have h := @id (_ → _) u; clear h; subst u)
       | clear_value u)
    | with_reducible assumption
    | (simp (decide := true) (maxDischargeDepth := 200) only [↓Keeps.next, ↓Keeps.endsIte, ↓Keeps.refl, ↓Keeps.ite,
      ↓Keeps.mk, ↓State.cmdWrite_keeps, or_true, true_or, eq_self, *]; done)
    | split

theorem execModelReset_keeps (f : Fn) (s : State) : Ends (Keeps
    0xFFFF000039C300000000000000000000000000000003000000000000000000000000000182C1000000000000000000000000000E0003000000000000000000000000000C6081000000000000000000000000000C60810000000000000000000F000001818FF1000000000000000000000000000197C9000000000000000000000000FFFF00350000000000000000FFFFFFFF002007FD000000000000000001FFFFFF00013003000000000000000000000000000000050000000000000000000000000000065F0000000000000000000000000001BD19000000000000000000000000000240010000000000000000000000000000080100000000000000000000000000003F3F000000000000000000000000000003F8000000000000000000000000FD000000000000000000000000000000000000000000000000000000000000000000004000000000000000000000000000078C010000000000000000000000000000005100000000000000000000000000000001FFFFFFFFFFFFFFFFFFFFFFFFFFFFFFFFFFFFFFFFFFFFFFFFFFFFFFFFFFFFFFFFFFFFFFFFFFFFFFFFFFFFFFFFFFFFFFFF1FFFFFFF
    s) (execModelReset f s) := by
  unfold execModelReset
  refine Ends.next ?_
  repeat' first
    | (extract_lets +onlyGivenNames u
       first
       | (refine Keeps.cut (u := u) ?_ (fun _ => ?_); subst u; on_goal 2 => clear_value u)
       | (have h := @id (_ → _) u; clear h; subst u)
       | clear_value u)
    | with_reducible assumption
    | (simp (decide := true) (maxDischargeDepth := 200) only [↓Keeps.next, ↓Keeps.endsIte, ↓Keeps.refl, ↓Keeps.ite,
      ↓Keeps.mk, ↓State.cmdWrite_keeps, or_true, true_or, eq_self, *]; done)
    | split

theorem execLeapClr_keeps (f : Fn) (s : State) : Ends (Keeps
    0xFFFF000039C300000000000000000000000000000003000000000000000000000000000182C1000000000000000000000000000E0003000000000000000000000000000C6081000000000000000000000000000C60810000000000000000000F000001818FF1000000000000000000000000000197C9000000000000000000000000FFFF00350000000000000000FFFFFFFF002007FD000000000000000001FFFFFF00013003000000000000000000000000000000050000000000000000000000000000065F0000000000000000000000000001BD19000000000000000000000000000240010000000000000000000000000000080100000000000000000000000000003F3F000000000000000000000000000003F8000000000000000000000000FD000000000000000000000000000000000000000000000000000000000000000000004000000000000000000000000000078C010000000000000000000000000000005100000000000000000000000000000001FFFFFFFFFFFFFFFFFFFFFFFFFFFFFFFFFFFFFFFFFFFFFFFFFFFFFFFFFFFFFFFFFFFFFFFFFFFFFFFFFFFFFFFFFFFFFFFF1FFFFFFF
    s) (execLeapClr f s) := by
  unfold execLeapClr
  refine Ends.next ?_
  repeat' first
    | (extract_lets +onlyGivenNames u
       first
       | (refine Keeps.cut (u := u) ?_ (fun _ => ?_); subst u; on_goal 2 => clear_value u)
       | (have h := @id (_ → _) u; clear h; subst u)
       | clear_value u)
    | with_reducible assumption
    | (simp (decide := true) (maxDischargeDepth := 200) only [↓Keeps.next, ↓Keeps.endsIte, ↓Keeps.refl, ↓Keeps.ite,
      ↓Keeps.mk, ↓State.cmdWrite_keeps, or_true, true_or, eq_self, *]; done)
    | split

theorem execTimeLossThrWrite_keeps (f : Fn) (v : Word) (s : State) : Ends (Keeps
    0xFFFF000039C300000000000000000000000000000003000000000000000000000000000182C1000000000000000000000000000E0003000000000000000000000000000C6081000000000000000000000000000C60810000000000000000000F000001818FF1000000000000000000000000000197C9000000000000000000000000FFFF00350000000000000000FFFFFFFF002007FD000000000000000001FFFFFF00013003000000000000000000000000000000050000000000000000000000000000065F0000000000000000000000000001BD19000000000000000000000000000240010000000000000000000000000000080100000000000000000000000000003F3F000000000000000000000000000003F8000000000000000000000000FD000000000000000000000000000000000000000000000000000000000000000000004000000000000000000000000000078C010000000000000000000000000000005100000000000000000000000000000001FFFFFFFFFFFFFFFFFFFFFFFFFFFFFFFFFFFFFFFFFFFFFFFFFFFFFFFFFFFFFFFFFFFFFFFFFFFFFFFFFFFFFFFFFFFFFFFF1FFFFFFF
    s) (execTimeLossThrWrite f v s) := by
  unfold execTimeLossThrWrite
  refine Ends.next ?_
  repeat' first
    | (extract_lets +onlyGivenNames u
       first
       | (refine Keeps.cut (u := u) ?_ (fun _ => ?_); subst u; on_goal 2 => clear_value u)
       | (have h := @id (_ → _) u; clear h; subst u)
       | clear_value u)
    | with_reducible assumption
    | (simp (decide := true) (maxDischargeDepth := 200) only [↓Keeps.next, ↓Keeps.endsIte, ↓Keeps.refl, ↓Keeps.ite,
      ↓Keeps.mk, ↓State.cmdWrite_keeps, or_true, true_or, eq_self, *]; done)
    | split

theorem execEdfFlush_keeps (f : Fn) (s : State) : Ends (Keeps
    0xFFFF000039C300000000000000000000000000000003000000000000000000000000000182C1000000000000000000000000000E0003000000000000000000000000000C6081000000000000000000000000000C60810000000000000000000F000001818FF1000000000000000000000000000197C9000000000000000000000000FFFF00350000000000000000FFFFFFFF002007FD000000000000000001FFFFFF00013003000000000000000000000000000000050000000000000000000000000000065F0000000000000000000000000001BD19000000000000000000000000000240010000000000000000000000000000080100000000000000000000000000003F3F000000000000000000000000000003F8000000000000000000000000FD000000000000000000000000000000000000000000000000000000000000000000004000000000000000000000000000078C010000000000000000000000000000005100000000000000000000000000000001FFFFFFFFFFFFFFFFFFFFFFFFFFFFFFFFFFFFFFFFFFFFFFFFFFFFFFFFFFFFFFFFFFFFFFFFFFFFFFFFFFFFFFFFFFFFFFFF1FFFFFFF
    s) (execEdfFlush f s) := by
  unfold execEdfFlush
  refine Ends.next ?_
  repeat' first
    | (extract_lets +onlyGivenNames u
       first
       | (refine Keeps.cut (u := u) ?_ (fun _ => ?_); subst u; on_goal 2 => clear_value u)
       | (have h := @id (_ → _) u; clear h; subst u)
       | clear_value u)
    | with_reducible assumption
    | (simp (decide := true) (maxDischargeDepth := 200) only [↓Keeps.next, ↓Keeps.endsIte, ↓Keeps.refl, ↓Keeps.ite,
      ↓Keeps.mk, ↓State.cmdWrite_keeps, or_true, true_or, eq_self, *]; done)
    | split

theorem execVanClr_keeps (f : Fn) (s : State) : Ends (Keeps
    0xFFFF000039C300000000000000000000000000000003000000000000000000000000000182C1000000000000000000000000000E0003000000000000000000000000000C6081000000000000000000000000000C60810000000000000000000F000001818FF1000000000000000000000000000197C9000000000000000000000000FFFF00350000000000000000FFFFFFFF002007FD000000000000000001FFFFFF00013003000000000000000000000000000000050000000000000000000000000000065F0000000000000000000000000001BD19000000000000000000000000000240010000000000000000000000000000080100000000000000000000000000003F3F000000000000000000000000000003F8000000000000000000000000FD000000000000000000000000000000000000000000000000000000000000000000004000000000000000000000000000078C010000000000000000000000000000005100000000000000000000000000000001FFFFFFFFFFFFFFFFFFFFFFFFFFFFFFFFFFFFFFFFFFFFFFFFFFFFFFFFFFFFFFFFFFFFFFFFFFFFFFFFFFFFFFFFFFFFFFFF1FFFFFFF
    s) (execVanClr f s) := by
  unfold execVanClr
  refine Ends.next ?_
  repeat' first
    | (extract_lets +onlyGivenNames u
       first
       | (refine Keeps.cut (u := u) ?_ (fun _ => ?_); subst u; on_goal 2 => clear_value u)
       | (have h := @id (_ → _) u; clear h; subst u)
       | clear_value u)
    | with_reducible assumption
    | (simp (decide := true) (maxDischargeDepth := 200) only [↓Keeps.next, ↓Keeps.endsIte, ↓Keeps.refl, ↓Keeps.ite,
      ↓Keeps.mk, ↓State.cmdWrite_keeps, or_true, true_or, eq_self, *]; done)
    | split

theorem execEdfErase_keeps (f : Fn) (s : State) : Ends (Keeps
    0xFFFF000039C300000000000000000000000000000003000000000000000000000000000182C1000000000000000000000000000E0003000000000000000000000000000C6081000000000000000000000000000C60810000000000000000000F000001818FF1000000000000000000000000000197C9000000000000000000000000FFFF00350000000000000000FFFFFFFF002007FD000000000000000001FFFFFF00013003000000000000000000000000000000050000000000000000000000000000065F0000000000000000000000000001BD19000000000000000000000000000240010000000000000000000000000000080100000000000000000000000000003F3F000000000000000000000000000003F8000000000000000000000000FD000000000000000000000000000000000000000000000000000000000000000000004000000000000000000000000000078C010000000000000000000000000000005100000000000000000000000000000001FFFFFFFFFFFFFFFFFFFFFFFFFFFFFFFFFFFFFFFFFFFFFFFFFFFFFFFFFFFFFFFFFFFFFFFFFFFFFFFFFFFFFFFFFFFFFFFF1FFFFFFF
    s) (execEdfErase f s) := by
  unfold execEdfErase
  refine Ends.next ?_
  repeat' first
    | (extract_lets +onlyGivenNames u
       first
       | (refine Keeps.cut (u := u) ?_ (fun _ => ?_); subst u; on_goal 2 => clear_value u)
       | (have h := @id (_ → _) u; clear h; subst u)
       | clear_value u)
    | with_reducible assumption
    | (simp (decide := true) (maxDischargeDepth := 200) only [↓Keeps.next, ↓Keeps.endsIte, ↓Keeps.refl, ↓Keeps.ite,
      ↓Keeps.mk, ↓State.cmdWrite_keeps, or_true, true_or, eq_self, *]; done)
    | split

theorem execApArmWrite_keeps (f : Fn) (port : AudioPort) (v : Word) (s : State) : Ends (Keeps
    0xFFFF000039C300000000000000000000000000000003000000000000000000000000000182C1000000000000000000000000000E0003000000000000000000000000000C6081000000000000000000000000000C60810000000000000000000F000001818FF1000000000000000000000000000197C9000000000000000000000000FFFF00350000000000000000FFFFFFFF002007FD000000000000000001FFFFFF00013003000000000000000000000000000000050000000000000000000000000000065F0000000000000000000000000001BD19000000000000000000000000000240010000000000000000000000000000080100000000000000000000000000003F3F000000000000000000000000000003F8000000000000000000000000FD000000000000000000000000000000000000000000000000000000000000000000004000000000000000000000000000078C010000000000000000000000000000005100000000000000000000000000000001FFFFFFFFFFFFFFFFFFFFFFFFFFFFFFFFFFFFFFFFFFFFFFFFFFFFFFFFFFFFFFFFFFFFFFFFFFFFFFFFFFFFFFFFFFFFFFFF1FFFFFFF
    s) (execApArmWrite f port v s) := by
  unfold execApArmWrite
  refine Ends.next ?_
  cases port
  all_goals
    repeat' first
      | (extract_lets +onlyGivenNames u
         first
         | (refine Keeps.cut (u := u) ?_ (fun _ => ?_); subst u; on_goal 2 => clear_value u)
         | (have h := @id (_ → _) u; clear h; subst u)
         | clear_value u)
      | with_reducible assumption
      | (simp (decide := true) (maxDischargeDepth := 200) only [↓Keeps.next, ↓Keeps.endsIte, ↓Keeps.refl, ↓Keeps.ite,
        ↓Keeps.mk, ↓State.cmdWrite_keeps, or_true, true_or, eq_self, *]; done)
      | split

theorem execAp0WptrWrite_keeps (f : Fn) (v : Word) (s : State) : Ends (Keeps
    0xFFFF000039C300000000000000000000000000000003000000000000000000000000000182C1000000000000000000000000000E0003000000000000000000000000000C6081000000000000000000000000000C60810000000000000000000F000001818FF1000000000000000000000000000197C9000000000000000000000000FFFF00350000000000000000FFFFFFFF002007FD000000000000000001FFFFFF00013003000000000000000000000000000000050000000000000000000000000000065F0000000000000000000000000001BD19000000000000000000000000000240010000000000000000000000000000080100000000000000000000000000003F3F000000000000000000000000000003F8000000000000000000000000FD000000000000000000000000000000000000000000000000000000000000000000004000000000000000000000000000078C010000000000000000000000000000005100000000000000000000000000000001FFFFFFFFFFFFFFFFFFFFFFFFFFFFFFFFFFFFFFFFFFFFFFFFFFFFFFFFFFFFFFFFFFFFFFFFFFFFFFFFFFFFFFFFFFFFFFFF1FFFFFFF
    s) (execAp0WptrWrite f v s) := by
  unfold execAp0WptrWrite
  refine Ends.next ?_
  repeat' first
    | (extract_lets +onlyGivenNames u
       first
       | (refine Keeps.cut (u := u) ?_ (fun _ => ?_); subst u; on_goal 2 => clear_value u)
       | (have h := @id (_ → _) u; clear h; subst u)
       | clear_value u)
    | with_reducible assumption
    | (simp (decide := true) (maxDischargeDepth := 200) only [↓Keeps.next, ↓Keeps.endsIte, ↓Keeps.refl, ↓Keeps.ite,
      ↓Keeps.mk, ↓State.cmdWrite_keeps, or_true, true_or, eq_self, *]; done)
    | split

theorem execRingRst_keeps (f : Fn) (port : AudioPort) (s : State) : Ends (Keeps
    0xFFFF000039C300000000000000000000000000000003000000000000000000000000000182C1000000000000000000000000000E0003000000000000000000000000000C6081000000000000000000000000000C60810000000000000000000F000001818FF1000000000000000000000000000197C9000000000000000000000000FFFF00350000000000000000FFFFFFFF002007FD000000000000000001FFFFFF00013003000000000000000000000000000000050000000000000000000000000000065F0000000000000000000000000001BD19000000000000000000000000000240010000000000000000000000000000080100000000000000000000000000003F3F000000000000000000000000000003F8000000000000000000000000FD000000000000000000000000000000000000000000000000000000000000000000004000000000000000000000000000078C010000000000000000000000000000005100000000000000000000000000000001FFFFFFFFFFFFFFFFFFFFFFFFFFFFFFFFFFFFFFFFFFFFFFFFFFFFFFFFFFFFFFFFFFFFFFFFFFFFFFFFFFFFFFFFFFFFFFFF1FFFFFFF
    s) (execRingRst f port s) := by
  unfold execRingRst
  refine Ends.next ?_
  cases port
  all_goals
    repeat' first
      | (extract_lets +onlyGivenNames u
         first
         | (refine Keeps.cut (u := u) ?_ (fun _ => ?_); subst u; on_goal 2 => clear_value u)
         | (have h := @id (_ → _) u; clear h; subst u)
         | clear_value u)
      | with_reducible assumption
      | (simp (decide := true) (maxDischargeDepth := 200) only [↓Keeps.next, ↓Keeps.endsIte, ↓Keeps.refl, ↓Keeps.ite,
        ↓Keeps.mk, ↓State.cmdWrite_keeps, or_true, true_or, eq_self, *]; done)
      | split

theorem execCaptRelWrite_keeps (f : Fn) (v : Word) (s : State) : Ends (Keeps
    0xFFFF000039C300000000000000000000000000000003000000000000000000000000000182C1000000000000000000000000000E0003000000000000000000000000000C6081000000000000000000000000000C60810000000000000000000F000001818FF1000000000000000000000000000197C9000000000000000000000000FFFF00350000000000000000FFFFFFFF002007FD000000000000000001FFFFFF00013003000000000000000000000000000000050000000000000000000000000000065F0000000000000000000000000001BD19000000000000000000000000000240010000000000000000000000000000080100000000000000000000000000003F3F000000000000000000000000000003F8000000000000000000000000FD000000000000000000000000000000000000000000000000000000000000000000004000000000000000000000000000078C010000000000000000000000000000005100000000000000000000000000000001FFFFFFFFFFFFFFFFFFFFFFFFFFFFFFFFFFFFFFFFFFFFFFFFFFFFFFFFFFFFFFFFFFFFFFFFFFFFFFFFFFFFFFFFFFFFFFFF1FFFFFFF
    s) (execCaptRelWrite f v s) := by
  unfold execCaptRelWrite
  refine Ends.next ?_
  repeat' first
    | (extract_lets +onlyGivenNames u
       first
       | (refine Keeps.cut (u := u) ?_ (fun _ => ?_); subst u; on_goal 2 => clear_value u)
       | (have h := @id (_ → _) u; clear h; subst u)
       | clear_value u)
    | with_reducible assumption
    | (simp (decide := true) (maxDischargeDepth := 200) only [↓Keeps.next, ↓Keeps.endsIte, ↓Keeps.refl, ↓Keeps.ite,
      ↓Keeps.mk, ↓State.cmdWrite_keeps, or_true, true_or, eq_self, *]; done)
    | split

theorem execSpillDel_keeps (f : Fn) (s : State) : Ends (Keeps
    0xFFFF000039C300000000000000000000000000000003000000000000000000000000000182C1000000000000000000000000000E0003000000000000000000000000000C6081000000000000000000000000000C60810000000000000000000F000001818FF1000000000000000000000000000197C9000000000000000000000000FFFF00350000000000000000FFFFFFFF002007FD000000000000000001FFFFFF00013003000000000000000000000000000000050000000000000000000000000000065F0000000000000000000000000001BD19000000000000000000000000000240010000000000000000000000000000080100000000000000000000000000003F3F000000000000000000000000000003F8000000000000000000000000FD000000000000000000000000000000000000000000000000000000000000000000004000000000000000000000000000078C010000000000000000000000000000005100000000000000000000000000000001FFFFFFFFFFFFFFFFFFFFFFFFFFFFFFFFFFFFFFFFFFFFFFFFFFFFFFFFFFFFFFFFFFFFFFFFFFFFFFFFFFFFFFFFFFFFFFFF1FFFFFFF
    s) (execSpillDel f s) := by
  unfold execSpillDel
  refine Ends.next ?_
  repeat' first
    | (extract_lets +onlyGivenNames u
       first
       | (refine Keeps.cut (u := u) ?_ (fun _ => ?_); subst u; on_goal 2 => clear_value u)
       | (have h := @id (_ → _) u; clear h; subst u)
       | clear_value u)
    | with_reducible assumption
    | (simp (decide := true) (maxDischargeDepth := 200) only [↓Keeps.next, ↓Keeps.endsIte, ↓Keeps.refl, ↓Keeps.ite,
      ↓Keeps.mk, ↓State.cmdWrite_keeps, or_true, true_or, eq_self, *]; done)
    | split

theorem execTwinEnWrite_keeps (f : Fn) (v : Word) (s : State) : Ends (Keeps
    0xFFFF000039C300000000000000000000000000000003000000000000000000000000000182C1000000000000000000000000000E0003000000000000000000000000000C6081000000000000000000000000000C60810000000000000000000F000001818FF1000000000000000000000000000197C9000000000000000000000000FFFF00350000000000000000FFFFFFFF002007FD000000000000000001FFFFFF00013003000000000000000000000000000000050000000000000000000000000000065F0000000000000000000000000001BD19000000000000000000000000000240010000000000000000000000000000080100000000000000000000000000003F3F000000000000000000000000000003F8000000000000000000000000FD000000000000000000000000000000000000000000000000000000000000000000004000000000000000000000000000078C010000000000000000000000000000005100000000000000000000000000000001FFFFFFFFFFFFFFFFFFFFFFFFFFFFFFFFFFFFFFFFFFFFFFFFFFFFFFFFFFFFFFFFFFFFFFFFFFFFFFFFFFFFFFFFFFFFFFFF1FFFFFFF
    s) (execTwinEnWrite f v s) := by
  unfold execTwinEnWrite
  refine Ends.next ?_
  repeat' first
    | (extract_lets +onlyGivenNames u
       first
       | (refine Keeps.cut (u := u) ?_ (fun _ => ?_); subst u; on_goal 2 => clear_value u)
       | (have h := @id (_ → _) u; clear h; subst u)
       | clear_value u)
    | with_reducible assumption
    | (simp (decide := true) (maxDischargeDepth := 200) only [↓Keeps.next, ↓Keeps.endsIte, ↓Keeps.refl, ↓Keeps.ite,
      ↓Keeps.mk, ↓State.cmdWrite_keeps, or_true, true_or, eq_self, *]; done)
    | split

theorem execCkptNow_keeps (f : Fn) (s : State) : Ends (Keeps
    0xFFFF000039C300000000000000000000000000000003000000000000000000000000000182C1000000000000000000000000000E0003000000000000000000000000000C6081000000000000000000000000000C60810000000000000000000F000001818FF1000000000000000000000000000197C9000000000000000000000000FFFF00350000000000000000FFFFFFFF002007FD000000000000000001FFFFFF00013003000000000000000000000000000000050000000000000000000000000000065F0000000000000000000000000001BD19000000000000000000000000000240010000000000000000000000000000080100000000000000000000000000003F3F000000000000000000000000000003F8000000000000000000000000FD000000000000000000000000000000000000000000000000000000000000000000004000000000000000000000000000078C010000000000000000000000000000005100000000000000000000000000000001FFFFFFFFFFFFFFFFFFFFFFFFFFFFFFFFFFFFFFFFFFFFFFFFFFFFFFFFFFFFFFFFFFFFFFFFFFFFFFFFFFFFFFFFFFFFFFFF1FFFFFFF
    s) (execCkptNow f s) := by
  unfold execCkptNow
  refine Ends.next ?_
  repeat' first
    | (extract_lets +onlyGivenNames u
       first
       | (refine Keeps.cut (u := u) ?_ (fun _ => ?_); subst u; on_goal 2 => clear_value u)
       | (have h := @id (_ → _) u; clear h; subst u)
       | clear_value u)
    | with_reducible assumption
    | (simp (decide := true) (maxDischargeDepth := 200) only [↓Keeps.next, ↓Keeps.endsIte, ↓Keeps.refl, ↓Keeps.ite,
      ↓Keeps.mk, ↓State.cmdWrite_keeps, or_true, true_or, eq_self, *]; done)
    | split

theorem execSampleNow_keeps (f : Fn) (s : State) : Ends (Keeps
    0xFFFF000039C300000000000000000000000000000003000000000000000000000000000182C1000000000000000000000000000E0003000000000000000000000000000C6081000000000000000000000000000C60810000000000000000000F000001818FF1000000000000000000000000000197C9000000000000000000000000FFFF00350000000000000000FFFFFFFF002007FD000000000000000001FFFFFF00013003000000000000000000000000000000050000000000000000000000000000065F0000000000000000000000000001BD19000000000000000000000000000240010000000000000000000000000000080100000000000000000000000000003F3F000000000000000000000000000003F8000000000000000000000000FD000000000000000000000000000000000000000000000000000000000000000000004000000000000000000000000000078C010000000000000000000000000000005100000000000000000000000000000001FFFFFFFFFFFFFFFFFFFFFFFFFFFFFFFFFFFFFFFFFFFFFFFFFFFFFFFFFFFFFFFFFFFFFFFFFFFFFFFFFFFFFFFFFFFFFFFF1FFFFFFF
    s) (execSampleNow f s) := by
  unfold execSampleNow
  refine Ends.next ?_
  repeat' first
    | (extract_lets +onlyGivenNames u
       first
       | (refine Keeps.cut (u := u) ?_ (fun _ => ?_); subst u; on_goal 2 => clear_value u)
       | (have h := @id (_ → _) u; clear h; subst u)
       | clear_value u)
    | with_reducible assumption
    | (simp (decide := true) (maxDischargeDepth := 200) only [↓Keeps.next, ↓Keeps.endsIte, ↓Keeps.refl, ↓Keeps.ite,
      ↓Keeps.mk, ↓State.cmdWrite_keeps, or_true, true_or, eq_self, *]; done)
    | split

theorem execReplaceClr_keeps (f : Fn) (s : State) : Ends (Keeps
    0xFFFF000039C300000000000000000000000000000003000000000000000000000000000182C1000000000000000000000000000E0003000000000000000000000000000C6081000000000000000000000000000C60810000000000000000000F000001818FF1000000000000000000000000000197C9000000000000000000000000FFFF00350000000000000000FFFFFFFF002007FD000000000000000001FFFFFF00013003000000000000000000000000000000050000000000000000000000000000065F0000000000000000000000000001BD19000000000000000000000000000240010000000000000000000000000000080100000000000000000000000000003F3F000000000000000000000000000003F8000000000000000000000000FD000000000000000000000000000000000000000000000000000000000000000000004000000000000000000000000000078C010000000000000000000000000000005100000000000000000000000000000001FFFFFFFFFFFFFFFFFFFFFFFFFFFFFFFFFFFFFFFFFFFFFFFFFFFFFFFFFFFFFFFFFFFFFFFFFFFFFFFFFFFFFFFFFFFFFFFF1FFFFFFF
    s) (execReplaceClr f s) := by
  unfold execReplaceClr
  refine Ends.next ?_
  repeat' first
    | (extract_lets +onlyGivenNames u
       first
       | (refine Keeps.cut (u := u) ?_ (fun _ => ?_); subst u; on_goal 2 => clear_value u)
       | (have h := @id (_ → _) u; clear h; subst u)
       | clear_value u)
    | with_reducible assumption
    | (simp (decide := true) (maxDischargeDepth := 200) only [↓Keeps.next, ↓Keeps.endsIte, ↓Keeps.refl, ↓Keeps.ite,
      ↓Keeps.mk, ↓State.cmdWrite_keeps, or_true, true_or, eq_self, *]; done)
    | split

theorem execSvcStart_keeps (f : Fn) (s : State) : Ends (Keeps
    0xFFFF000039C300000000000000000000000000000003000000000000000000000000000182C1000000000000000000000000000E0003000000000000000000000000000C6081000000000000000000000000000C60810000000000000000000F000001818FF1000000000000000000000000000197C9000000000000000000000000FFFF00350000000000000000FFFFFFFF002007FD000000000000000001FFFFFF00013003000000000000000000000000000000050000000000000000000000000000065F0000000000000000000000000001BD19000000000000000000000000000240010000000000000000000000000000080100000000000000000000000000003F3F000000000000000000000000000003F8000000000000000000000000FD000000000000000000000000000000000000000000000000000000000000000000004000000000000000000000000000078C010000000000000000000000000000005100000000000000000000000000000001FFFFFFFFFFFFFFFFFFFFFFFFFFFFFFFFFFFFFFFFFFFFFFFFFFFFFFFFFFFFFFFFFFFFFFFFFFFFFFFFFFFFFFFFFFFFFFFF1FFFFFFF
    s) (execSvcStart f s) := by
  unfold execSvcStart
  refine Ends.next ?_
  repeat' first
    | (extract_lets +onlyGivenNames u
       first
       | (refine Keeps.cut (u := u) ?_ (fun _ => ?_); subst u; on_goal 2 => clear_value u)
       | (have h := @id (_ → _) u; clear h; subst u)
       | clear_value u)
    | with_reducible assumption
    | (simp (decide := true) (maxDischargeDepth := 200) only [↓Keeps.next, ↓Keeps.endsIte, ↓Keeps.refl, ↓Keeps.ite,
      ↓Keeps.mk, ↓State.cmdWrite_keeps, or_true, true_or, eq_self, *]; done)
    | split

theorem State.bundleSkip_keeps (s : State) {μ : Nat} {σ : State} (hk : Keeps μ σ s) (hm : within?
    0x200000000000000000000000000000000000000000000000000000000000000000000000000000000000000000000000000000000000000000000000000000000000000000000000000000000000000000000000000000000000000000000000000000000000000000000000000000000000000000000000000000000000000000000000000000100
    μ = true) : Keeps μ σ (State.bundleSkip s) := by
  refine hk.lift hm ?_
  unfold State.bundleSkip
  repeat' first
    | (extract_lets +onlyGivenNames u
       first
       | (refine Keeps.cut (u := u) ?_ (fun _ => ?_); subst u; on_goal 2 => clear_value u)
       | (have h := @id (_ → _) u; clear h; subst u)
       | clear_value u)
    | with_reducible assumption
    | (simp (decide := true) (maxDischargeDepth := 200) only [↓Keeps.refl, ↓Keeps.ite, ↓Keeps.mk, ↓State.put_keeps,
      or_true, true_or, eq_self, *]; done)
    | split

theorem State.bundleEntry_keeps (s : State) (f : Fn) (page off : Nat) (v : Word) {μ : Nat} {σ : State} (hk : Keeps μ σ
    s) (hm : within?
    0xFFFF000039C300000000000000000000000000000003000000000000000000000000000182C1000000000000000000000000000E0003000000000000000000000000000C6081000000000000000000000000000C60810000000000000000000F000001818FF1000000000000000000000000000197C9000000000000000000000000FFFF00350000000000000000FFFFFFFF002007FD000000000000000001FFFFFF00013003000000000000000000000000000000050000000000000000000000000000065F0000000000000000000000000001BD19000000000000000000000000000240010000000000000000000000000000080100000000000000000000000000003F3F000000000000000000000000000003F8000000000000000000000002FD000000000000000000000000000000000000000000000000000000000000000000004000000000000000000000000000078C010000000000000000000000000000005100000000000000000000000000000001FFFFFFFFFFFFFFFFFFFFFFFFFFFFFFFFFFFFFFFFFFFFFFFFFFFFFFFFFFFFFFFFFFFFFFFFFFFFFFFFFFFFFFFFFFFFFFFF1FFFFFFF
    μ = true) : Keeps μ σ (State.bundleEntry s f page off v) := by
  refine hk.lift hm ?_
  unfold State.bundleEntry
  repeat' first
    | (extract_lets +onlyGivenNames u
       first
       | (refine Keeps.cut (u := u) ?_ (fun _ => ?_); subst u; on_goal 2 => clear_value u)
       | (have h := @id (_ → _) u; clear h; subst u)
       | clear_value u)
    | with_reducible assumption
    | (simp (decide := true) (maxDischargeDepth := 200) only [↓Keeps.refl, ↓Keeps.ite, ↓Keeps.mk,
      ↓State.bundleSkip_keeps, ↓State.writeReg_snd, ↓State.setErr_keeps, or_true, true_or, eq_self, *]; done)
    | (split <;>
        (rename_i e
         refine Keeps.cut (State.writeReg_out (by with_reducible exact e) ?_ (by decide)) (fun _ => ?_) <;> clear e))
    | (with_reducible refine State.bundleSkip_keeps _ ?_ (by decide))
    | (with_reducible refine State.writeReg_snd _ _ _ _ ?_ (by decide))
    | (with_reducible refine State.setErr_keeps _ _ _ ?_ (by decide))
    | split

theorem State.bundleRun_keeps (s : State) (a n : Nat) {μ : Nat} {σ : State} (hk : Keeps μ σ s)
    (hm : within? 0xFFFF000039C300000000000000000000000000000003000000000000000000000000000182C1000000000000000000000000000E0003000000000000000000000000000C6081000000000000000000000000000C60810000000000000000000F000001818FF1000000000000000000000000000197C9000000000000000000000000FFFF00350000000000000000FFFFFFFF002007FD000000000000000001FFFFFF00013003000000000000000000000000000000050000000000000000000000000000065F0000000000000000000000000001BD19000000000000000000000000000240010000000000000000000000000000080100000000000000000000000000003F3F000000000000000000000000000003F8000000000000000000000002FD000000000000000000000000000000000000000000000000000000000000000000004000000000000000000000000000078C010000000000000000000000000000005100000000000000000000000000000001FFFFFFFFFFFFFFFFFFFFFFFFFFFFFFFFFFFFFFFFFFFFFFFFFFFFFFFFFFFFFFFFFFFFFFFFFFFFFFFFFFFFFFFFFFFFFFFF1FFFFFFF μ = true) : Keeps μ σ (s.bundleRun a n) := by
  induction n generalizing s a with
  | zero => exact hk
  | succ n ih =>
    unfold State.bundleRun
    dsimp only
    split
    · exact hk
    · refine ih _ _ ?_
      split
      · exact State.bundleSkip_keeps _ hk (Keeps.within_trans (by decide) hm)
      · exact State.bundleEntry_keeps _ _ _ _ _ hk (Keeps.within_trans (by decide) hm)

theorem execBundleApply_keeps (readOk : Bool) (s : State) : Ends (Keeps
    0xFFFF000039C300000000000000000000000000000003000000000000000000000000000182C1000000000000000000000000000E0003000000000000000000000000000C6081000000000000000000000000000C60810000000000000000000F000001818FF1000000000000000000000000000197C9000000000000000000000000FFFF00350000000000000000FFFFFFFF002007FD000000000000000001FFFFFF00013003000000000000000000000000000000050000000000000000000000000000065F0000000000000000000000000001BD19000000000000000000000000000240010000000000000000000000000000080100000000000000000000000000003F3F000000000000000000000000000003F8000000000000000000000002FD000000000000000000000000000000000000000000000000000000000000000000004000000000000000000000000000078C010000000000000000000000000000005100000000000000000000000000000001FFFFFFFFFFFFFFFFFFFFFFFFFFFFFFFFFFFFFFFFFFFFFFFFFFFFFFFFFFFFFFFFFFFFFFFFFFFFFFFFFFFFFFFFFFFFFFFF1FFFFFFF
    s) (execBundleApply readOk s) := by
  unfold execBundleApply
  refine Ends.next ?_
  repeat' first
    | (extract_lets +onlyGivenNames u
       first
       | (refine Keeps.cut (u := u) ?_ (fun _ => ?_); subst u; on_goal 2 => clear_value u)
       | (have h := @id (_ → _) u; clear h; subst u)
       | clear_value u)
    | with_reducible assumption
    | (simp (decide := true) (maxDischargeDepth := 200) only [↓Keeps.next, ↓Keeps.endsIte, ↓Keeps.refl, ↓Keeps.ite,
      ↓Keeps.mk, ↓State.bundleRun_keeps, or_true, true_or, eq_self, *]; done)
    | split

end Sys2Proof.Machine
end

