-- ==== Sys2Proof/Laws/KeepsWrites.lean ====
section
/-! SUPPORT. What each command that is one register write may change: the access itself, `FN_ERR`, and what the register's
own write does. -/

set_option Elab.async false

set_option linter.unusedSimpArgs false
set_option linter.unusedTactic false
set_option linter.unreachableTactic false

namespace Sys2Proof.Machine

open R

theorem baseKey_common (f : Fn) {off : Nat} (h : off < 0x10000) : baseKey (commonKey f.toNat off) = off := by
  rw [baseKey, commonKey, if_neg (by omega)]
  omega

/-- Every part of a list whose bit is set keeps what `m` keeps. -/
def allSet (m : Nat) (v : Word) : List (Nat × (State → State)) → Prop
  | [] => True
  | b :: l => (v.getLsbD b.1 = true → ∀ t, Keeps m t (b.2 t)) ∧ allSet m v l

/-- The bits that are set perform their parts. -/
theorem State.woBits_within (s : State) (f : Fn) (v : Word) (l : List (Nat × (State → State))) {m : Nat}
    (hm : within? 0x20000000000000000000000000000000000000000000000000000000000000000000000000 m = true) (hl : allSet m v l) :
    Keeps m s (s.woBits f v l) := by
  unfold State.woBits
  have h : ∀ (l : List (Nat × (State → State))) (r : State × Nat),
      allSet m v l → Keeps m s r.1 →
      Keeps m s (l.foldl (fun (r : State × Nat) (b : Nat × (State → State)) =>
        if v.getLsbD b.1 then
          (b.2 (r.1.setErr f 0),
            if r.2 = 0 then (b.2 (r.1.setErr f 0)).fget f FN_ERR.CODE else r.2)
        else r) r).1 := by
    intro l
    induction l with
    | nil => exact fun _ _ h => h
    | cons b l ih =>
      intro r hl hr
      refine ih _ hl.2 ?_
      dsimp only
      split
      · exact (State.setErr_keeps _ _ _ hr hm).trans (hl.1 ‹_› _)
      · exact hr
  exact State.setErr_keeps _ _ _ (h l (s, 0) hl .refl) hm

/-- A write of one register changes what the access, a refusal and the register's own effect change. -/
theorem State.cmdWrite_within (s : State) (f : Fn) (x : Fld) (v : Word) {m : Nat} (ha : within? 0x400000000000000000000000000000000000000000000000000000000000020000000000000000000000000000000000000000000000000000000000000000000000002081 m = true)
    (he : within? 0x20000000000000000000000000000000000000000000000000000000000000000000000000 m = true) (hw : ∀ (t : State) (new : Word), Keeps m t
      (t.writeEffect f (if x.key < 0x80 then commonKey f.toNat x.key else x.key) v new)) : Keeps m s (s.cmdWrite f x v) := by
  have h : ∀ (t : State) k, (∀ (t : State) (new : Word), Keeps m t (t.writeEffect f k v new)) →
      Keeps m t (t.writeReg f k v).2 := by
    intro t k hk
    unfold State.writeReg
    split
    · exact .refl
    · dsimp only
      split
      · exact .refl
      · split
        · exact State.setErr_keeps _ _ _ .refl he
        · dsimp only
          split <;> rename_i h0
          · split
            · exact State.setErr_keeps _ _ _ .refl he
            · exact State.setErr_keeps _ _ _ (hk _ _) he
          · split
            · exact .refl
            · exact hk _ _
  have h2 : ∀ (t : State) off k, (∀ (t : State) (new : Word), Keeps m t (t.writeEffect f k v new)) →
      Keeps m t (t.writeKey f off (some k) v false).2 := by
    intro t off k hk
    unfold State.writeKey
    split
    · rename_i hs
      cases hs
      exact h _ _ hk
    · exact State.setErr_keeps _ _ _ .refl he
    · exact .refl
  unfold State.cmdWrite
  dsimp only
  split
  · exact (State.regAccess_keeps _ .refl ha).trans (h2 _ _ _ hw)
  · exact h2 _ _ _ hw

theorem execFnErrWrite_within (f : Fn) (v : Word) (s : State) : Ends (Keeps
  0x400000000000000000000000000000000000000000000000000000000000020020000000000000000000000000000000000000000000000000000000000000000000002081
  s) (execFnErrWrite f v s) := by
  refine Ends.next (State.cmdWrite_within _ _ _ _ (by decide) (by decide) (fun t new => ?_))
  simp (decide := true) only [State.writeEffect, State.writeCommon, State.writeLow, State.writeMid, State.writeRadio,
    State.writeHigh, keyPage_common, baseKey_common, if_true, if_false,
    true_and, and_true, false_and, and_false]
  repeat' first
    | with_reducible assumption
    | (simp (decide := true) (maxDischargeDepth := 200) only [↓Keeps.refl, ↓Keeps.ite, ↓State.setErr_keeps]; done)
    | (with_reducible refine State.woBits_within _ _ _ _ (by decide) ?_)
    | (exact trivial)
    | (unfold allSet; refine ⟨fun h _ => ?_, ?_⟩)
    | (simp at h; done)
    | (dsimp (zeta := false) only)
    | split

theorem execDepassGo_within (f : Fn) (s : State) : Ends (Keeps
  0x7800100000000000000000000000000000040000000000000000000000000000000000000000000000000000000000002002000000000000000000000000000000000000000000000000000000000000000000000A0C1
  s) (execDepassGo f s) := by
  refine Ends.next (State.cmdWrite_within _ _ _ _ (by decide) (by decide) (fun t new => ?_))
  simp (decide := true) only [State.writeEffect, State.writeCommon, State.writeLow, State.writeMid, State.writeRadio,
    State.writeHigh, keyPage_common, baseKey_common, if_true, if_false,
    true_and, and_true, false_and, and_false]
  repeat' first
    | with_reducible assumption
    | (simp (decide := true) (maxDischargeDepth := 200) only [↓Keeps.refl, ↓Keeps.ite, ↓State.depassGo_keeps]; done)
    | (with_reducible refine State.woBits_within _ _ _ _ (by decide) ?_)
    | (exact trivial)
    | (unfold allSet; refine ⟨fun h _ => ?_, ?_⟩)
    | (simp at h; done)
    | (dsimp (zeta := false) only)
    | split

theorem execLedgerLoad_within (f : Fn) (s : State) : Ends (Keeps
  0xC01000000000000000000000000000000400000000000000000000000000000000000000000000000000000000000020020000000000000000000000000000000000000000000000000000000000000000000002081
  s) (execLedgerLoad f s) := by
  refine Ends.next (State.cmdWrite_within _ _ _ _ (by decide) (by decide) (fun t new => ?_))
  simp (decide := true) only [State.writeEffect, State.writeCommon, State.writeLow, State.writeMid, State.writeRadio,
    State.writeHigh, keyPage_common, baseKey_common, if_true, if_false,
    true_and, and_true, false_and, and_false]
  repeat' first
    | with_reducible assumption
    | (simp (decide := true) (maxDischargeDepth := 200) only [↓Keeps.refl, ↓Keeps.ite,
      ↓State.ledgerLoad_keeps]; done)
    | (with_reducible refine State.woBits_within _ _ _ _ (by decide) ?_)
    | (exact trivial)
    | (unfold allSet; refine ⟨fun h _ => ?_, ?_⟩)
    | (simp at h; done)
    | (dsimp (zeta := false) only)
    | split

theorem execEstReset_within (f : Fn) (s : State) : Ends (Keeps
  0x7800000000000000000000000000000000040000000000000000000000000000000000000000000000000000000000002002000000000000000000000000000000000000000000000000000000000000000000000A0C1
  s) (execEstReset f s) := by
  refine Ends.next (State.cmdWrite_within _ _ _ _ (by decide) (by decide) (fun t new => ?_))
  simp (decide := true) only [State.writeEffect, State.writeCommon, State.writeLow, State.writeMid, State.writeRadio,
    State.writeHigh, keyPage_common, baseKey_common, if_true, if_false,
    true_and, and_true, false_and, and_false]
  repeat' first
    | with_reducible assumption
    | (simp (decide := true) (maxDischargeDepth := 200) only [↓Keeps.refl, ↓Keeps.ite, ↓State.estReset_keeps]; done)
    | (with_reducible refine State.woBits_within _ _ _ _ (by decide) ?_)
    | (exact trivial)
    | (unfold allSet; refine ⟨fun h _ => ?_, ?_⟩)
    | (simp at h; done)
    | (dsimp (zeta := false) only)
    | split

theorem execModeCmdRestNow_within (f : Fn) (s : State) : Ends (Keeps
  0x400000000000000000000000000000000000000000000000000000000000020020000000000000000000000000000000000000000000000000000000000000000000002081
  s) (execModeCmdRestNow f s) := by
  refine Ends.next (State.cmdWrite_within _ _ _ _ (by decide) (by decide) (fun t new => ?_))
  simp (decide := true) only [State.writeEffect, State.writeCommon, State.writeLow, State.writeMid, State.writeRadio,
    State.writeHigh, keyPage_common, baseKey_common, if_true, if_false,
    true_and, and_true, false_and, and_false]
  repeat' first
    | with_reducible assumption
    | (simp (decide := true) (maxDischargeDepth := 200) only [↓Keeps.refl, ↓Keeps.ite,
      ↓State.restNowCmd_keeps]; done)
    | (with_reducible refine State.woBits_within _ _ _ _ (by decide) ?_)
    | (exact trivial)
    | (unfold allSet; refine ⟨fun h _ => ?_, ?_⟩)
    | (simp at h; done)
    | (dsimp (zeta := false) only)
    | split

theorem execImgRevoke_within (f : Fn) (v : Word) (s : State) : Ends (Keeps
  0x4000000000000000000000000000000000000000000000000000000000000000000000000000000000000000000000000000000000000000000000000000000000000400000000000000000000000000000000000000000000000000000000000020020000000000000000000000000000000000000000000000000000000000000000000002481
  s) (execImgRevoke f v s) := by
  refine Ends.next (State.cmdWrite_within _ _ _ _ (by decide) (by decide) (fun t new => ?_))
  simp (decide := true) only [State.writeEffect, State.writeCommon, State.writeLow, State.writeMid, State.writeRadio,
    State.writeHigh, keyPage_common, baseKey_common, if_true, if_false,
    true_and, and_true, false_and, and_false]
  repeat' first
    | with_reducible assumption
    | (simp (decide := true) (maxDischargeDepth := 200) only [↓Keeps.refl, ↓Keeps.ite,
      ↓State.imgRevoke_keeps]; done)
    | (with_reducible refine State.woBits_within _ _ _ _ (by decide) ?_)
    | (exact trivial)
    | (unfold allSet; refine ⟨fun h _ => ?_, ?_⟩)
    | (simp at h; done)
    | (dsimp (zeta := false) only)
    | split

theorem execImgPrefWrite_within (f : Fn) (v : Word) (s : State) : Ends (Keeps
  0x1000000000000000000000000000000000000000000000000000000000000000000000000000000000000000000000000000000000000000000000000000000000000400000000000000000000000000000000000000000000000000000000000020020000000000000000000000000000000000000000000000000000000000000000000002481
  s) (execImgPrefWrite f v s) := by
  refine Ends.next (State.cmdWrite_within _ _ _ _ (by decide) (by decide) (fun t new => ?_))
  simp (decide := true) only [State.writeEffect, State.writeCommon, State.writeLow, State.writeMid, State.writeRadio,
    State.writeHigh, keyPage_common, baseKey_common, if_true, if_false,
    true_and, and_true, false_and, and_false]
  repeat' first
    | with_reducible assumption
    | (simp (decide := true) (maxDischargeDepth := 200) only [↓Keeps.refl, ↓Keeps.ite, ↓State.imgPref_keeps]; done)
    | (with_reducible refine State.woBits_within _ _ _ _ (by decide) ?_)
    | (exact trivial)
    | (unfold allSet; refine ⟨fun h _ => ?_, ?_⟩)
    | (simp at h; done)
    | (dsimp (zeta := false) only)
    | split

theorem execHpCntClr_within (f : Fn) (s : State) : Ends (Keeps
  0x3F800000000000000000000000000000000000000000000000000000000000000000000000000000000000000000000000000000000000000000000000000000000000000000000000000000000000000400000000000000000000000000000000000000000000000000000000000020020000000000000000000000000000000000000000000000000000000000000000000002081
  s) (execHpCntClr f s) := by
  refine Ends.next (State.cmdWrite_within _ _ _ _ (by decide) (by decide) (fun t new => ?_))
  simp (decide := true) only [State.writeEffect, State.writeCommon, State.writeLow, State.writeMid, State.writeRadio,
    State.writeHigh, keyPage_common, baseKey_common, if_true, if_false,
    true_and, and_true, false_and, and_false]
  repeat' first
    | with_reducible assumption
    | (simp (decide := true) (maxDischargeDepth := 200) only [↓Keeps.refl, ↓Keeps.ite, ↓State.zeroRegs_keeps]; done)
    | (with_reducible refine State.woBits_within _ _ _ _ (by decide) ?_)
    | (exact trivial)
    | (unfold allSet; refine ⟨fun h _ => ?_, ?_⟩)
    | (simp at h; done)
    | (dsimp (zeta := false) only)
    | split

theorem execAttnAckWrite_within (f : Fn) (v : Word) (s : State) : Ends (Keeps
  0x50000000000000000000000000000000000000000000000000000000000000000000000000000000000000000000000000000000000000000000000000000000000000000000000000000000000000000000000000000000000000000000000004000000000000000000000000000000000000000000000000000000000000200A0000000000000000000000000000000000000000000000000000000000000000000003081
  s) (execAttnAckWrite f v s) := by
  refine Ends.next (State.cmdWrite_within _ _ _ _ (by decide) (by decide) (fun t new => ?_))
  simp (decide := true) only [State.writeEffect, State.writeCommon, State.writeLow, State.writeMid, State.writeRadio,
    State.writeHigh, keyPage_common, baseKey_common, if_true, if_false,
    true_and, and_true, false_and, and_false]
  repeat' first
    | with_reducible assumption
    | (simp (decide := true) (maxDischargeDepth := 200) only [↓Keeps.refl, ↓Keeps.ite,
      ↓State.attnCancel_keeps]; done)
    | (with_reducible refine State.woBits_within _ _ _ _ (by decide) ?_)
    | (exact trivial)
    | (unfold allSet; refine ⟨fun h _ => ?_, ?_⟩)
    | (simp at h; done)
    | (dsimp (zeta := false) only)
    | split

theorem execTwBusReset_within (f : Fn) (s : State) : Ends (Keeps
  0xF0000000000000000000000000000000000000000000000000000000000000000000000000000000000000000000000000000000000000000000000000000000000000000000000000000000000000000000000000000000000000000000000004000000000000000000000000000000000000000000000000000000000000200A00000000000000000000000000000000000000000000000000000000000000000000030A1
  s) (execTwBusReset f s) := by
  refine Ends.next (State.cmdWrite_within _ _ _ _ (by decide) (by decide) (fun t new => ?_))
  simp (decide := true) only [State.writeEffect, State.writeCommon, State.writeLow, State.writeMid, State.writeRadio,
    State.writeHigh, keyPage_common, baseKey_common, if_true, if_false,
    true_and, and_true, false_and, and_false]
  repeat' first
    | with_reducible assumption
    | (simp (decide := true) (maxDischargeDepth := 200) only [↓Keeps.refl, ↓Keeps.ite,
      ↓State.twrstDrive_keeps]; done)
    | (with_reducible refine State.woBits_within _ _ _ _ (by decide) ?_)
    | (exact trivial)
    | (unfold allSet; refine ⟨fun h _ => ?_, ?_⟩)
    | (simp at h; done)
    | (dsimp (zeta := false) only)
    | split

theorem execTwCntClr_within (f : Fn) (s : State) : Ends (Keeps
  0x38000000000000000000000000000000000000000000000000000000000000000000000000000000000000000000000000000000000000000000000000000000000000000000000000000000000000000000000000000000000000000000000000400000000000000000000000000000000000000000000000000000000000020020000000000000000000000000000000000000000000000000000000000000000000002081
  s) (execTwCntClr f s) := by
  refine Ends.next (State.cmdWrite_within _ _ _ _ (by decide) (by decide) (fun t new => ?_))
  simp (decide := true) only [State.writeEffect, State.writeCommon, State.writeLow, State.writeMid, State.writeRadio,
    State.writeHigh, keyPage_common, baseKey_common, if_true, if_false,
    true_and, and_true, false_and, and_false]
  repeat' first
    | with_reducible assumption
    | (simp (decide := true) (maxDischargeDepth := 200) only [↓Keeps.refl, ↓Keeps.ite, ↓State.zeroRegs_keeps]; done)
    | (with_reducible refine State.woBits_within _ _ _ _ (by decide) ?_)
    | (exact trivial)
    | (unfold allSet; refine ⟨fun h _ => ?_, ?_⟩)
    | (simp at h; done)
    | (dsimp (zeta := false) only)
    | split

theorem execFnReset_within (f : Fn) (v : Word) (s : State) : Ends (Keeps
  0x10000000000000000000000000000000100000000000000000000000000000000000000000000000000000000000000000000000000000000000000000000000000000000000000000000000000000000000000000000000000000000000000400000000000000000000000000006000100000000000000000000000000000051000000000000000000000000000000010000000000000000002200000002002800000000000000000000000000000000000000000000000000000000000000000000A0C1
  s) (execFnReset f v s) := by
  refine Ends.next (State.cmdWrite_within _ _ _ _ (by decide) (by decide) (fun t new => ?_))
  simp (decide := true) only [State.writeEffect, State.writeCommon, State.writeLow, State.writeMid, State.writeRadio,
    State.writeHigh, keyPage_common, baseKey_common, if_true, if_false,
    true_and, and_true, false_and, and_false]
  repeat' first
    | with_reducible assumption
    | (simp (decide := true) (maxDischargeDepth := 200) only [↓Keeps.refl, ↓Keeps.ite,
      ↓State.resetStart_keeps]; done)
    | (with_reducible refine State.woBits_within _ _ _ _ (by decide) ?_)
    | (exact trivial)
    | (unfold allSet; refine ⟨fun h _ => ?_, ?_⟩)
    | (simp at h; done)
    | (dsimp (zeta := false) only)
    | split

theorem execFreset_within (f : Fn) (v : Word) (s : State) : Ends (Keeps
  0x10000000000000000000000000000000100000000000000000000000000000000000000000000000000000000000000000000000000000000000000000000000000000000000000000000000000000000000000000000000000000000000000400000000000000000000000000006000100000000000000000000000000000051000000000000000000000000000000010000000000000000002200000002002800000000000000000000000000000000000000000000000000000000000000000000A0C1
  s) (execFreset f v s) := by
  refine Ends.next (State.cmdWrite_within _ _ _ _ (by decide) (by decide) (fun t new => ?_))
  simp (decide := true) only [State.writeEffect, State.writeCommon, State.writeLow, State.writeMid, State.writeRadio,
    State.writeHigh, keyPage_common, baseKey_common, if_true, if_false,
    true_and, and_true, false_and, and_false]
  repeat' first
    | with_reducible assumption
    | (simp (decide := true) (maxDischargeDepth := 200) only [↓Keeps.refl, ↓Keeps.ite, ↓State.resetStart_keeps,
      ↓State.partLock_keeps]; done)
    | (with_reducible refine State.woBits_within _ _ _ _ (by decide) ?_)
    | (exact trivial)
    | (unfold allSet; refine ⟨fun h _ => ?_, ?_⟩)
    | (simp at h; done)
    | (dsimp (zeta := false) only)
    | split

theorem execPartLock_within (f : Fn) (v : Word) (s : State) : Ends (Keeps
  0x10000000000000000000000000000000100000000000000000000000000000000000000000000000000000000000000000000000000000000000000000000000000000000000000000000000000000000000000000000000000000000000000400000000000000000000000000006000100000000000000000000000000000051000000000000000000000000000000010000000000000000002200000002002800000000000000000000000000000000000000000000000000000000000000000000A0C1
  s) (execPartLock f v s) := by
  refine Ends.next (State.cmdWrite_within _ _ _ _ (by decide) (by decide) (fun t new => ?_))
  simp (decide := true) only [State.writeEffect, State.writeCommon, State.writeLow, State.writeMid, State.writeRadio,
    State.writeHigh, keyPage_common, baseKey_common, if_true, if_false,
    true_and, and_true, false_and, and_false]
  repeat' first
    | with_reducible assumption
    | (simp (decide := true) (maxDischargeDepth := 200) only [↓Keeps.refl, ↓Keeps.ite, ↓State.resetStart_keeps,
      ↓State.partLock_keeps]; done)
    | (with_reducible refine State.woBits_within _ _ _ _ (by decide) ?_)
    | (exact trivial)
    | (unfold allSet; refine ⟨fun h _ => ?_, ?_⟩)
    | (simp at h; done)
    | (dsimp (zeta := false) only)
    | split

theorem execPartDqWrite_within (f : Fn) (v : Word) (s : State) : Ends (Keeps
  0x800000000000000000000000000000000000000000000000000000000000000000000000000000000000000000000000000000000000000000000000000000000000000000000000000000000000000000000000000000000000000000000000000000000000000000000000000000000400000000000000000000000000000000000000000002000000000000000030020000000000000000000000000000000000000000000000000000000000000000000002081
  s) (execPartDqWrite f v s) := by
  refine Ends.next (State.cmdWrite_within _ _ _ _ (by decide) (by decide) (fun t new => ?_))
  simp (decide := true) only [State.writeEffect, State.writeCommon, State.writeLow, State.writeMid, State.writeRadio,
    State.writeHigh, keyPage_common, baseKey_common, if_true, if_false,
    true_and, and_true, false_and, and_false]
  repeat' first
    | with_reducible assumption
    | (simp (decide := true) (maxDischargeDepth := 200) only [↓Keeps.refl, ↓Keeps.ite, ↓State.partDq_keeps,
      ↓State.setErr_keeps]; done)
    | (with_reducible refine State.woBits_within _ _ _ _ (by decide) ?_)
    | (exact trivial)
    | (unfold allSet; refine ⟨fun h _ => ?_, ?_⟩)
    | (simp at h; done)
    | (dsimp (zeta := false) only)
    | split

theorem execCmdGo_within (f : Fn) (v : Word) (s : State) : Ends (Keeps
  0x80000000000000000000000000000000000000000000000000000000000000000000040000000000000000000000000000600010000000000000000000000000000005100000000000000000000000000000001000000000000000000001F000003002000000000000000000000000000000000000000000000000000000000000000000400A2C1
  s) (execCmdGo f v s) := by
  refine Ends.next (State.cmdWrite_within _ _ _ _ (by decide) (by decide) (fun t new => ?_))
  simp (decide := true) only [State.writeEffect, State.writeCommon, State.writeLow, State.writeMid, State.writeRadio,
    State.writeHigh, keyPage_common, baseKey_common, if_true, if_false,
    true_and, and_true, false_and, and_false]
  repeat' first
    | with_reducible assumption
    | (simp (decide := true) (maxDischargeDepth := 200) only [↓Keeps.refl, ↓Keeps.ite, ↓State.cmdGo_keeps,
      ↓State.setErr_keeps]; done)
    | (with_reducible refine State.woBits_within _ _ _ _ (by decide) ?_)
    | (exact trivial)
    | (unfold allSet; refine ⟨fun h _ => ?_, ?_⟩)
    | (simp at h; done)
    | (dsimp (zeta := false) only)
    | split

theorem execDqFlush_within (f : Fn) (s : State) : Ends (Keeps
  0x400000000000000000000000000000000000000000000000000000000000020020000000000000000000000000000000000000000000000000000000000000000000002081
  s) (execDqFlush f s) := by
  refine Ends.next (State.cmdWrite_within _ _ _ _ (by decide) (by decide) (fun t new => ?_))
  simp (decide := true) only [State.writeEffect, State.writeCommon, State.writeLow, State.writeMid, State.writeRadio,
    State.writeHigh, keyPage_common, baseKey_common, if_true, if_false,
    true_and, and_true, false_and, and_false]
  repeat' first
    | with_reducible assumption
    | (simp (decide := true) (maxDischargeDepth := 200) only [↓Keeps.refl, ↓Keeps.ite,
      ↓State.flushQueue_keeps]; done)
    | (with_reducible refine State.woBits_within _ _ _ _ (by decide) ?_)
    | (exact trivial)
    | (unfold allSet; refine ⟨fun h _ => ?_, ?_⟩)
    | (simp at h; done)
    | (dsimp (zeta := false) only)
    | split

theorem execMemAddrWrite_within (f : Fn) (v : Word) (s : State) : Ends (Keeps
  0x400000000000000000000000000000000000000062000000000000000000020020000000000000000000000000000000000000000000000000000000000000000000002081
  s) (execMemAddrWrite f v s) := by
  refine Ends.next (State.cmdWrite_within _ _ _ _ (by decide) (by decide) (fun t new => ?_))
  simp (decide := true) only [State.writeEffect, State.writeCommon, State.writeLow, State.writeMid, State.writeRadio,
    State.writeHigh, keyPage_common, baseKey_common, if_true, if_false,
    true_and, and_true, false_and, and_false]
  repeat' first
    | with_reducible assumption
    | (simp (decide := true) (maxDischargeDepth := 200) only [↓Keeps.refl, ↓Keeps.ite,
      ↓State.memAddrWrite_keeps]; done)
    | (with_reducible refine State.woBits_within _ _ _ _ (by decide) ?_)
    | (exact trivial)
    | (unfold allSet; refine ⟨fun h _ => ?_, ?_⟩)
    | (simp at h; done)
    | (dsimp (zeta := false) only)
    | split

theorem execPlanBegin_within (f : Fn) (s : State) : Ends (Keeps
  0x100000000000000000000000000000000000000000000000000000000000000000000000000000000000000000000000000000000000000000000000000000000000000000000000000000000000000000000000000000000000000000000000000000000000000000000000000000000000000000000000000000000000000410000000000000000000000000000000000000000000000000032000000020020000000000000000000000000000000000000000000000000000000000000000000006081
  s) (execPlanBegin f s) := by
  refine Ends.next (State.cmdWrite_within _ _ _ _ (by decide) (by decide) (fun t new => ?_))
  simp (decide := true) only [State.writeEffect, State.writeCommon, State.writeLow, State.writeMid, State.writeRadio,
    State.writeHigh, keyPage_common, baseKey_common, if_true, if_false,
    true_and, and_true, false_and, and_false]
  repeat' first
    | with_reducible assumption
    | (simp (decide := true) (maxDischargeDepth := 200) only [↓Keeps.refl, ↓Keeps.ite,
      ↓State.planBegin_keeps]; done)
    | (with_reducible refine State.woBits_within _ _ _ _ (by decide) ?_)
    | (exact trivial)
    | (unfold allSet; refine ⟨fun h _ => ?_, ?_⟩)
    | (simp at h; done)
    | (dsimp (zeta := false) only)
    | split

theorem execPlanSubmit_within (f : Fn) (s : State) : Ends (Keeps
  0x182C10000000000000000000000000000000200000000000000000000000000004080000000000000000000000000000040800000000000000000000000000001800000000000000000000000000000000600000000000000000000000000000000210000000000000000FFFFFFFF002007FD000000000000000001FFFFFF0001300300000000000000000000000000000000000000000000000000000000000000010000000000000000000000000000010900000000000000000000000000024001000000000000000000000000000000000000000000000000000000000000000000000000000000000000000000000000000000000000000000000000000000000000000000000000000000000000000000000000000000000000000000000040000000000000000000000000000600010000000000000000000000000000005100000000000000000000000000000001000000000020000007AE000000030020000000000000000000000000000000000000000000000000000000000000000011EFE0C5
  s) (execPlanSubmit f s) := by
  refine Ends.next (State.cmdWrite_within _ _ _ _ (by decide) (by decide) (fun t new => ?_))
  simp (decide := true) only [State.writeEffect, State.writeCommon, State.writeLow, State.writeMid, State.writeRadio,
    State.writeHigh, keyPage_common, baseKey_common, if_true, if_false,
    true_and, and_true, false_and, and_false]
  repeat' first
    | with_reducible assumption
    | (simp (decide := true) (maxDischargeDepth := 200) only [↓Keeps.refl, ↓Keeps.ite,
      ↓State.planSubmit_keeps]; done)
    | (with_reducible refine State.woBits_within _ _ _ _ (by decide) ?_)
    | (exact trivial)
    | (unfold allSet; refine ⟨fun h _ => ?_, ?_⟩)
    | (simp at h; done)
    | (dsimp (zeta := false) only)
    | split

theorem execPlanWithdraw_within (f : Fn) (s : State) : Ends (Keeps
  0x182C10000000000000000000000000000000200000000000000000000000000004080000000000000000000000000000040800000000000000000000000000001800000000000000000000000000000000600000000000000000000000000000000210000000000000000FFFFFFFF002007FD000000000000000001FFFFFF0001300300000000000000000000000000000000000000000000000000000000000000010000000000000000000000000000010900000000000000000000000000024001000000000000000000000000000000000000000000000000000000000000000000000000000000000000000000000000000000000000000000000000000000000000000000000000000000000000000000000000000000000000000000000000000000000000000000000000000000010000000000000000000000000000004100000000000000000000000000000001000000000020000007AE000000030020000000000000000000000000000000000000000000000000000000000000000011EFE0C5
  s) (execPlanWithdraw f s) := by
  refine Ends.next (State.cmdWrite_within _ _ _ _ (by decide) (by decide) (fun t new => ?_))
  simp (decide := true) only [State.writeEffect, State.writeCommon, State.writeLow, State.writeMid, State.writeRadio,
    State.writeHigh, keyPage_common, baseKey_common, if_true, if_false,
    true_and, and_true, false_and, and_false]
  repeat' first
    | with_reducible assumption
    | (simp (decide := true) (maxDischargeDepth := 200) only [↓Keeps.refl, ↓Keeps.ite,
      ↓State.planWithdraw_keeps]; done)
    | (with_reducible refine State.woBits_within _ _ _ _ (by decide) ?_)
    | (exact trivial)
    | (unfold allSet; refine ⟨fun h _ => ?_, ?_⟩)
    | (simp at h; done)
    | (dsimp (zeta := false) only)
    | split

theorem execWrec15Write_within (f : Fn) (v : Word) (s : State) : Ends (Keeps
  0x100000000000000000000000000000000000000000000000000000000000000000000000000000000000000000000000000000000000000000000000000000000000000000000000000000000000000000000000000000000000000000000000000000000000000000000000000000000000000000000000000000000000000410000000000000000000000000000000000000000000080000032000000020020000000000000000000000000000000000000000000000000000000000000000000006081
  s) (execWrec15Write f v s) := by
  refine Ends.next (State.cmdWrite_within _ _ _ _ (by decide) (by decide) (fun t new => ?_))
  simp (decide := true) only [State.writeEffect, State.writeCommon, State.writeLow, State.writeMid, State.writeRadio,
    State.writeHigh, keyPage_common, baseKey_common, if_true, if_false,
    true_and, and_true, false_and, and_false]
  repeat' first
    | with_reducible assumption
    | (simp (decide := true) (maxDischargeDepth := 200) only [↓Keeps.refl, ↓Keeps.ite, ↓State.wrec15_keeps]; done)
    | (with_reducible refine State.woBits_within _ _ _ _ (by decide) ?_)
    | (exact trivial)
    | (unfold allSet; refine ⟨fun h _ => ?_, ?_⟩)
    | (simp at h; done)
    | (dsimp (zeta := false) only)
    | split

theorem execPlanWidxWrite_within (f : Fn) (v : Word) (s : State) : Ends (Keeps
  0x4000000000000000000000000000000000000000000000FFFF0012000000020020000000000000000000000000000000000000000000000000000000000000000000002081
  s) (execPlanWidxWrite f v s) := by
  refine Ends.next (State.cmdWrite_within _ _ _ _ (by decide) (by decide) (fun t new => ?_))
  simp (decide := true) only [State.writeEffect, State.writeCommon, State.writeLow, State.writeMid, State.writeRadio,
    State.writeHigh, keyPage_common, baseKey_common, if_true, if_false,
    true_and, and_true, false_and, and_false]
  repeat' first
    | with_reducible assumption
    | (simp (decide := true) (maxDischargeDepth := 200) only [↓Keeps.refl, ↓Keeps.ite, ↓State.planWidx_keeps]; done)
    | (with_reducible refine State.woBits_within _ _ _ _ (by decide) ?_)
    | (exact trivial)
    | (unfold allSet; refine ⟨fun h _ => ?_, ?_⟩)
    | (simp at h; done)
    | (dsimp (zeta := false) only)
    | split

theorem execFesAfGo_within (f : Fn) (s : State) : Ends (Keeps
  0x65F000000000000000000000000000001010000000000000000000000000000000000000000000000000000000000000000000000000000000000000000000000000000000000000000000000000000000000000000000000000000000000000000000000000000000000000000000000000000000000000000000000000000000000000000000000000000000000000000000000000000000000000000000000400000000000000000000000000000000000000000000000000000000000020020000000000000000000000000000000000000000000000000000000000000000000012081
  s) (execFesAfGo f s) := by
  refine Ends.next (State.cmdWrite_within _ _ _ _ (by decide) (by decide) (fun t new => ?_))
  simp (decide := true) only [State.writeEffect, State.writeCommon, State.writeLow, State.writeMid, State.writeRadio,
    State.writeHigh, keyPage_common, baseKey_common, if_true, if_false,
    true_and, and_true, false_and, and_false]
  repeat' first
    | with_reducible assumption
    | (simp (decide := true) (maxDischargeDepth := 200) only [↓Keeps.refl, ↓Keeps.ite, ↓State.afGo_keeps]; done)
    | (with_reducible refine State.woBits_within _ _ _ _ (by decide) ?_)
    | (exact trivial)
    | (unfold allSet; refine ⟨fun h _ => ?_, ?_⟩)
    | (simp at h; done)
    | (dsimp (zeta := false) only)
    | split

theorem execSynApply_within (f : Fn) (s : State) : Ends (Keeps
  0x100000000000000000000000000000001000000000000000000000000000000000000000000000000000000000000065F0000000000000000000000000000810100000000000000000000000000000000000000000000000000000000000000000000000000000000000000000000000000000000000000000000000000000000000000000000000000000000000000000000000000000000000000000000000000000000000000000000000000000000000000000000000000000000000000000000000000000000000000000000004000000000000000000000000000000000000000000000000006000000000200200000000000000000000000000000000000000000000000000000000000000000100FA081
  s) (execSynApply f s) := by
  refine Ends.next (State.cmdWrite_within _ _ _ _ (by decide) (by decide) (fun t new => ?_))
  simp (decide := true) only [State.writeEffect, State.writeCommon, State.writeLow, State.writeMid, State.writeRadio,
    State.writeHigh, keyPage_common, baseKey_common, if_true, if_false,
    true_and, and_true, false_and, and_false]
  repeat' first
    | with_reducible assumption
    | (simp (decide := true) (maxDischargeDepth := 200) only [↓Keeps.refl, ↓Keeps.ite, ↓State.synApply_keeps]; done)
    | (with_reducible refine State.woBits_within _ _ _ _ (by decide) ?_)
    | (exact trivial)
    | (unfold allSet; refine ⟨fun h _ => ?_, ?_⟩)
    | (simp at h; done)
    | (dsimp (zeta := false) only)
    | split

theorem execRawHold_within (f : Fn) (v : Word) (s : State) : Ends (Keeps
  0x1800000000000000000000000000000000000000000000000000000000000000000210000000000000000FFFFFFFF002007FD000000000000000001FFFFFF00013003000000000000000000000000000000000000000000000000000000000000065F0000000000000000000000000000850900000000000000000000000000020000000000000000000000000000000000000000000000000000000000000000000000000000000000000000000000000000000000000000000000000000000000000000000000000000000000000000000000000000000000000000000000000000000000000000000000000000000000000000000000000000000000000000004100000000000000000000000000000001000000000020000006020000000300200000000000000000000000000000000000000000000000000000000000000000103FE081
  s) (execRawHold f v s) := by
  refine Ends.next (State.cmdWrite_within _ _ _ _ (by decide) (by decide) (fun t new => ?_))
  simp (decide := true) only [State.writeEffect, State.writeCommon, State.writeLow, State.writeMid, State.writeRadio,
    State.writeHigh, keyPage_common, baseKey_common, if_true, if_false,
    true_and, and_true, false_and, and_false]
  repeat' first
    | with_reducible assumption
    | (simp (decide := true) (maxDischargeDepth := 200) only [↓Keeps.refl, ↓Keeps.ite, ↓State.rawCtl_keeps]; done)
    | (with_reducible refine State.woBits_within _ _ _ _ (by decide) ?_)
    | (exact trivial)
    | (unfold allSet; refine ⟨fun h _ => ?_, ?_⟩)
    | (simp at h; done)
    | (dsimp (zeta := false) only)
    | split

theorem execRawHoldClear_within (f : Fn) (s : State) : Ends (Keeps
  0x1800000000000000000000000000000000000000000000000000000000000000000210000000000000000FFFFFFFF002007FD000000000000000001FFFFFF00013003000000000000000000000000000000000000000000000000000000000000065F0000000000000000000000000000850900000000000000000000000000020000000000000000000000000000000000000000000000000000000000000000000000000000000000000000000000000000000000000000000000000000000000000000000000000000000000000000000000000000000000000000000000000000000000000000000000000000000000000000000000000000000000000000004100000000000000000000000000000001000000000020000006020000000300200000000000000000000000000000000000000000000000000000000000000000103FE081
  s) (execRawHoldClear f s) := by
  refine Ends.next (State.cmdWrite_within _ _ _ _ (by decide) (by decide) (fun t new => ?_))
  simp (decide := true) only [State.writeEffect, State.writeCommon, State.writeLow, State.writeMid, State.writeRadio,
    State.writeHigh, keyPage_common, baseKey_common, if_true, if_false,
    true_and, and_true, false_and, and_false]
  repeat' first
    | with_reducible assumption
    | (simp (decide := true) (maxDischargeDepth := 200) only [↓Keeps.refl, ↓Keeps.ite, ↓State.rawCtl_keeps]; done)
    | (with_reducible refine State.woBits_within _ _ _ _ (by decide) ?_)
    | (exact trivial)
    | (unfold allSet; refine ⟨fun h _ => ?_, ?_⟩)
    | (simp at h; done)
    | (dsimp (zeta := false) only)
    | split

theorem execRelearn_within (f : Fn) (s : State) : Ends (Keeps
  0x100000000000000000000000000000000000000000000000000000000000000000000000000000000000000000000000000000000000000000000000000000000000000000000000000000000000000000000000000000000000000000000000000000000000000000000000000000000000000000000000000000000000000000000000000000000000000000000000000400000000000000000000000000000000000000000000000000000000000020020000000000000000000000000000000000000000000000000000000000000000000012081
  s) (execRelearn f s) := by
  refine Ends.next (State.cmdWrite_within _ _ _ _ (by decide) (by decide) (fun t new => ?_))
  simp (decide := true) only [State.writeEffect, State.writeCommon, State.writeLow, State.writeMid, State.writeRadio,
    State.writeHigh, keyPage_common, baseKey_common, if_true, if_false,
    true_and, and_true, false_and, and_false]
  repeat' first
    | with_reducible assumption
    | (simp (decide := true) (maxDischargeDepth := 200) only [↓Keeps.refl, ↓Keeps.ite, ↓State.relearn_keeps]; done)
    | (with_reducible refine State.woBits_within _ _ _ _ (by decide) ?_)
    | (exact trivial)
    | (unfold allSet; refine ⟨fun h _ => ?_, ?_⟩)
    | (simp at h; done)
    | (dsimp (zeta := false) only)
    | split

theorem execLftTplSelWrite_within (f : Fn) (v : Word) (s : State) : Ends (Keeps
  0xFFFF000400000000000000000000000000000000000000000000000000000000000000000000000000000000000000000000000000000000000000000000000000000000000000000000000000000000000000000000000000000000000000000000000000000000000000000000000000000000000000000000000000000000000000000000000000000000000000000000000000000000000000000000000000000000000000000000000000000000000000000000000000000000000000000000000000000000000000000000000000000000000000000000000000000000000000400000000000000000000000000000000000000000000000000000000000020020000000000000000000000000000000000000000000000000000000000000000000002081
  s) (execLftTplSelWrite f v s) := by
  refine Ends.next (State.cmdWrite_within _ _ _ _ (by decide) (by decide) (fun t new => ?_))
  simp (decide := true) only [State.writeEffect, State.writeCommon, State.writeLow, State.writeMid, State.writeRadio,
    State.writeHigh, keyPage_common, baseKey_common, if_true, if_false,
    true_and, and_true, false_and, and_false]
  repeat' first
    | with_reducible assumption
    | (simp (decide := true) (maxDischargeDepth := 200) only [↓Keeps.refl, ↓Keeps.ite, ↓State.tplSel_keeps]; done)
    | (with_reducible refine State.woBits_within _ _ _ _ (by decide) ?_)
    | (exact trivial)
    | (unfold allSet; refine ⟨fun h _ => ?_, ?_⟩)
    | (simp at h; done)
    | (dsimp (zeta := false) only)
    | split

theorem execLftTplCommit_within (f : Fn) (s : State) : Ends (Keeps
  0x1000000000000000000000000000000000000000000000000000000000000000000000000000000000000000000000000000000000000000000000000000000000000000000000000000000000000000000000000000000000000000000000000000000000000000000000000000000000000000000000000000000000000000000000000000000000000000000000000000000000000000000000000000000000000000000000000000000000000000000000000000000000000000000000000000000000000000000000000000000000000000000000000000000000000000400000000000000000000000000000000000000000000000000000000000020020000000000000000000000000000000000000000000000000000000000000000000082081
  s) (execLftTplCommit f s) := by
  refine Ends.next (State.cmdWrite_within _ _ _ _ (by decide) (by decide) (fun t new => ?_))
  simp (decide := true) only [State.writeEffect, State.writeCommon, State.writeLow, State.writeMid, State.writeRadio,
    State.writeHigh, keyPage_common, baseKey_common, if_true, if_false,
    true_and, and_true, false_and, and_false]
  repeat' first
    | with_reducible assumption
    | (simp (decide := true) (maxDischargeDepth := 200) only [↓Keeps.refl, ↓Keeps.ite,
      ↓State.tplCommit_keeps]; done)
    | (with_reducible refine State.woBits_within _ _ _ _ (by decide) ?_)
    | (exact trivial)
    | (unfold allSet; refine ⟨fun h _ => ?_, ?_⟩)
    | (simp at h; done)
    | (dsimp (zeta := false) only)
    | split

theorem execLftTplClear_within (f : Fn) (s : State) : Ends (Keeps
  0x1000000000000000000000000000000000000000000000000000000000000000000000000000000000000000000000000000000000000000000000000000000000000000000000000000000000000000000000000000000000000000000000000000000000000000000000000000000000000000000000000000000000000000000000000000000000000000000000000000000000000000000000000000000000000000000000000000000000000000000000000000000000000000000000000000000000000000000000000000000000000000000000000000000000000000400000000000000000000000000000000000000000000000000000000000020020000000000000000000000000000000000000000000000000000000000000000000082081
  s) (execLftTplClear f s) := by
  refine Ends.next (State.cmdWrite_within _ _ _ _ (by decide) (by decide) (fun t new => ?_))
  simp (decide := true) only [State.writeEffect, State.writeCommon, State.writeLow, State.writeMid, State.writeRadio,
    State.writeHigh, keyPage_common, baseKey_common, if_true, if_false,
    true_and, and_true, false_and, and_false]
  repeat' first
    | with_reducible assumption
    | (simp (decide := true) (maxDischargeDepth := 200) only [↓Keeps.refl, ↓Keeps.ite, ↓State.tplClear_keeps]; done)
    | (with_reducible refine State.woBits_within _ _ _ _ (by decide) ?_)
    | (exact trivial)
    | (unfold allSet; refine ⟨fun h _ => ?_, ?_⟩)
    | (simp at h; done)
    | (dsimp (zeta := false) only)
    | split

theorem execModelReset_within (f : Fn) (s : State) : Ends (Keeps
  0x190010000000000000000000000000000000000000000000000000000000000000000000000000000000000000000000000000000000000000000000000000000000000000000000000000000000000000000000000000000000000000000000000000000000000000000000000000000000000000000000000000000000000000000000000000000000000000000000000000000000000000000000000000000000000000000000000000000000000000000000000000000000000000000000000000000000000000000000000000000000000000000000000000000000000000000000000000000000000000000000000400000000000000000000000000000000000000000000000000000000000020020000000000000000000000000000000000000000000000000000000000000000000102081
  s) (execModelReset f s) := by
  refine Ends.next (State.cmdWrite_within _ _ _ _ (by decide) (by decide) (fun t new => ?_))
  simp (decide := true) only [State.writeEffect, State.writeCommon, State.writeLow, State.writeMid, State.writeRadio,
    State.writeHigh, keyPage_common, baseKey_common, if_true, if_false,
    true_and, and_true, false_and, and_false]
  repeat' first
    | with_reducible assumption
    | (simp (decide := true) (maxDischargeDepth := 200) only [↓Keeps.refl, ↓Keeps.ite,
      ↓State.modelReset_keeps]; done)
    | (with_reducible refine State.woBits_within _ _ _ _ (by decide) ?_)
    | (exact trivial)
    | (unfold allSet; refine ⟨fun h _ => ?_, ?_⟩)
    | (simp at h; done)
    | (dsimp (zeta := false) only)
    | split

theorem execLeapClr_within (f : Fn) (s : State) : Ends (Keeps
  0x1C10000000000000000000000000000000000000000000000000000000000000000000000000000000000000000000000000000000000000000000000000000000000000000000000000000000000000000000000000000000000000000000000000000000000000000000000000000000000000000000000000000000000000000000000000000000000000000000000000000000000000000000000000000000000000000000000000000000000000000000000000000000000000000000000000000000000000000000000000000000000000000000000000000000000000000000000000000000000000000000000400000000000000000000000000000000000000000000000000000000000020020000000000000000000000000000000000000000000000000000000000000000000002081
  s) (execLeapClr f s) := by
  refine Ends.next (State.cmdWrite_within _ _ _ _ (by decide) (by decide) (fun t new => ?_))
  simp (decide := true) only [State.writeEffect, State.writeCommon, State.writeLow, State.writeMid, State.writeRadio,
    State.writeHigh, keyPage_common, baseKey_common, if_true, if_false,
    true_and, and_true, false_and, and_false]
  repeat' first
    | with_reducible assumption
    | (simp (decide := true) (maxDischargeDepth := 200) only [↓Keeps.refl, ↓Keeps.ite,
      ↓State.clearLeap_keeps]; done)
    | (with_reducible refine State.woBits_within _ _ _ _ (by decide) ?_)
    | (exact trivial)
    | (unfold allSet; refine ⟨fun h _ => ?_, ?_⟩)
    | (simp at h; done)
    | (dsimp (zeta := false) only)
    | split

theorem execTimeLossThrWrite_within (f : Fn) (v : Word) (s : State) : Ends (Keeps
  0x80000000000000000000000000000000000000000000000000000000000000000000000000000000000000000000000000000000000000000000000000000000000000000000000000000000000000000000000000000000000000000000000000000000000000000000000000000000000000000000000000000000000000000000000000000000000000000000000000000000000000000000000000000000000000000000000000000000000000000000000000000000000000000000000000000000000000000000000000000000000000000000000000000000000000000000000000000000000000000000000400000000000000000000000000000000000000000002000000000000000030020000000000000000000000000000000000000000000000000000000000000000000102081
  s) (execTimeLossThrWrite f v s) := by
  refine Ends.next (State.cmdWrite_within _ _ _ _ (by decide) (by decide) (fun t new => ?_))
  simp (decide := true) only [State.writeEffect, State.writeCommon, State.writeLow, State.writeMid, State.writeRadio,
    State.writeHigh, keyPage_common, baseKey_common, if_true, if_false,
    true_and, and_true, false_and, and_false]
  repeat' first
    | with_reducible assumption
    | (simp (decide := true) (maxDischargeDepth := 200) only [↓Keeps.refl, ↓Keeps.ite, ↓State.thrWrite_keeps]; done)
    | (with_reducible refine State.woBits_within _ _ _ _ (by decide) ?_)
    | (exact trivial)
    | (unfold allSet; refine ⟨fun h _ => ?_, ?_⟩)
    | (simp at h; done)
    | (dsimp (zeta := false) only)
    | split

theorem execEdfFlush_within (f : Fn) (s : State) : Ends (Keeps
  0xF000001800FF1000000000000000000000000000000000000000000000000000000000000000000000000000000000000000000000000000000000000000000000000000000000000000000000000000000000000000000000000000000000000000000000000000000000000000000000000000000000000000000000000000000000000000000000000000000000000000000000000000000000000000000000000000000000000000000000000000000000000000000000000000000000000000000000000000000000000000000000000000000000000000000000000000000000000000000000000000000000000000000000000000000000000000000000000000000400000000000000000000000000000000000000000000000000000000000020020000000000000000000000000000000000000000000000000000000000000000010202081
  s) (execEdfFlush f s) := by
  refine Ends.next (State.cmdWrite_within _ _ _ _ (by decide) (by decide) (fun t new => ?_))
  simp (decide := true) only [State.writeEffect, State.writeCommon, State.writeLow, State.writeMid, State.writeRadio,
    State.writeHigh, keyPage_common, baseKey_common, if_true, if_false,
    true_and, and_true, false_and, and_false]
  repeat' first
    | with_reducible assumption
    | (simp (decide := true) (maxDischargeDepth := 200) only [↓Keeps.refl, ↓Keeps.ite,
      ↓State.hoardFlush_keeps]; done)
    | (with_reducible refine State.woBits_within _ _ _ _ (by decide) ?_)
    | (exact trivial)
    | (unfold allSet; refine ⟨fun h _ => ?_, ?_⟩)
    | (simp at h; done)
    | (dsimp (zeta := false) only)
    | split

theorem execVanClr_within (f : Fn) (s : State) : Ends (Keeps
  0xF000001800FF1000000000000000000000000000000000000000000000000000000000000000000000000000000000000000000000000000000000000000000000000000000000000000000000000000000000000000000000000000000000000000000000000000000000000000000000000000000000000000000000000000000000000000000000000000000000000000000000000000000000000000000000000000000000000000000000000000000000000000000000000000000000000000000000000000000000000000000000000000000000000000000000000000000000000000000000000000000000000000000000000000000000000000000000000000000400000000000000000000000000000000000000000000000000000000000020020000000000000000000000000000000000000000000000000000000000000000000202081
  s) (execVanClr f s) := by
  refine Ends.next (State.cmdWrite_within _ _ _ _ (by decide) (by decide) (fun t new => ?_))
  simp (decide := true) only [State.writeEffect, State.writeCommon, State.writeLow, State.writeMid, State.writeRadio,
    State.writeHigh, keyPage_common, baseKey_common, if_true, if_false,
    true_and, and_true, false_and, and_false]
  repeat' first
    | with_reducible assumption
    | (simp (decide := true) (maxDischargeDepth := 200) only [↓Keeps.refl, ↓Keeps.ite, ↓State.vanClr_keeps]; done)
    | (with_reducible refine State.woBits_within _ _ _ _ (by decide) ?_)
    | (exact trivial)
    | (unfold allSet; refine ⟨fun h _ => ?_, ?_⟩)
    | (simp at h; done)
    | (dsimp (zeta := false) only)
    | split

theorem execEdfErase_within (f : Fn) (s : State) : Ends (Keeps
  0xF000001800FF1000000000000000000000000000000000000000000000000000000000000000000000000000000000000000000000000000000000000000000000000000000000000000000000000000000000000000000000000000000000000000000000000000000000000000000000000000000000000000000000000000000000000000000000000000000000000000000000000000000000000000000000000000000000000000000000000000000000000000000000000000000000000000000000000000000000000000000000000000000000000000000000000000000000000000000000000000000000000000000000000000000000000000000000000000000400000000000000000000000000000000000000000000000000000000000020020000000000000000000000000000000000000000000000000000000000000000000202081
  s) (execEdfErase f s) := by
  refine Ends.next (State.cmdWrite_within _ _ _ _ (by decide) (by decide) (fun t new => ?_))
  simp (decide := true) only [State.writeEffect, State.writeCommon, State.writeLow, State.writeMid, State.writeRadio,
    State.writeHigh, keyPage_common, baseKey_common, if_true, if_false,
    true_and, and_true, false_and, and_false]
  repeat' first
    | with_reducible assumption
    | (simp (decide := true) (maxDischargeDepth := 200) only [↓Keeps.refl, ↓Keeps.ite, ↓State.edfErase_keeps,
      ↓State.setErr_keeps]; done)
    | (with_reducible refine State.woBits_within _ _ _ _ (by decide) ?_)
    | (exact trivial)
    | (unfold allSet; refine ⟨fun h _ => ?_, ?_⟩)
    | (simp at h; done)
    | (dsimp (zeta := false) only)
    | split

theorem execAp0WptrWrite_within (f : Fn) (v : Word) (s : State) : Ends (Keeps
  0xA0000000000000000000000000000000820000000000000000000000000000008200000000000000000000000000000000000000000000000000000000000000000000000000000000000000000000000000000000000000000000000000000000000000000000000000000000000000000000000000000000000000000000000000000000000000000000000000000000000000000000000000000000000000000000000000000000000000000000000000000000000000000000000000000000000000000000000000000000000000000000000000000000000000000000000000000000000000000000000000000000000000000000000000000000000000000000000000000000000000000000000000000000000000000000000000000000000000000000000000000000000000000400000000000000000000000000000000000000000000000000000000000020020000000000000000000000000000000000000000000000000000000000000000000002081
  s) (execAp0WptrWrite f v s) := by
  refine Ends.next (State.cmdWrite_within _ _ _ _ (by decide) (by decide) (fun t new => ?_))
  simp (decide := true) only [State.writeEffect, State.writeCommon, State.writeLow, State.writeMid, State.writeRadio,
    State.writeHigh, keyPage_common, baseKey_common, if_true, if_false,
    true_and, and_true, false_and, and_false]
  repeat' first
    | with_reducible assumption
    | (simp (decide := true) (maxDischargeDepth := 200) only [↓Keeps.refl, ↓Keeps.ite, ↓State.wptrWrite_keeps,
      ↓State.setErr_keeps]; done)
    | (with_reducible refine State.woBits_within _ _ _ _ (by decide) ?_)
    | (exact trivial)
    | (unfold allSet; refine ⟨fun h _ => ?_, ?_⟩)
    | (simp at h; done)
    | (dsimp (zeta := false) only)
    | split

theorem execCaptRelWrite_within (f : Fn) (v : Word) (s : State) : Ends (Keeps
  0x28000000000000000000000000000000000000000000000000000000000000040000000000000000000000000000000400000000000000000000000000000000000000000000000000000000000000000000000000000000000000000000000000000000000000000000000000000000000000000000000000000000000000000000000000000000000000000000000000000000000000000000000000000000000000000000000000000000000000000000000000000000000000000000000000000000000000000000000000000000000000000000000000000000000000000000000000000000000000000000000000000000000000000000000000000000000000000000000000000000000000000000000000000000000000000000000000000000000000000000000000000000000000000000000000000000000000000400000000000000000000000000000000000000000000000000000000000020020000000000000000000000000000000000000000000000000000000000000000001002081
  s) (execCaptRelWrite f v s) := by
  refine Ends.next (State.cmdWrite_within _ _ _ _ (by decide) (by decide) (fun t new => ?_))
  simp (decide := true) only [State.writeEffect, State.writeCommon, State.writeLow, State.writeMid, State.writeRadio,
    State.writeHigh, keyPage_common, baseKey_common, if_true, if_false,
    true_and, and_true, false_and, and_false]
  repeat' first
    | with_reducible assumption
    | (simp (decide := true) (maxDischargeDepth := 200) only [↓Keeps.refl, ↓Keeps.ite, ↓State.captRel_keeps,
      ↓State.setErr_keeps]; done)
    | (with_reducible refine State.woBits_within _ _ _ _ (by decide) ?_)
    | (exact trivial)
    | (unfold allSet; refine ⟨fun h _ => ?_, ?_⟩)
    | (simp at h; done)
    | (dsimp (zeta := false) only)
    | split

theorem execSpillDel_within (f : Fn) (s : State) : Ends (Keeps
  0xF000001800FF1000000000000000000000000000000000000000000000000000000000000000000000000000000000000000000000000000000000000000000000000000000000000000000000000000000000000000000000000000000000000000000000000000000000000000000000000000000000000000000000000000000000000000000000000000000000000000000000000000000000000000000000000000000000000000000000000000000000000000000000000000000000000000000000000000000000000000000000000000000000000000000000000000000000000000000000000000000000000000000000000000000000000000000000000000000400000000000000000000000000000000000000000000000000000000000020020000000000000000000000000000000000000000000000000000000000000000001002081
  s) (execSpillDel f s) := by
  refine Ends.next (State.cmdWrite_within _ _ _ _ (by decide) (by decide) (fun t new => ?_))
  simp (decide := true) only [State.writeEffect, State.writeCommon, State.writeLow, State.writeMid, State.writeRadio,
    State.writeHigh, keyPage_common, baseKey_common, if_true, if_false,
    true_and, and_true, false_and, and_false]
  repeat' first
    | with_reducible assumption
    | (simp (decide := true) (maxDischargeDepth := 200) only [↓Keeps.refl, ↓Keeps.ite, ↓State.spillDel_keeps,
      ↓State.setErr_keeps]; done)
    | (with_reducible refine State.woBits_within _ _ _ _ (by decide) ?_)
    | (exact trivial)
    | (unfold allSet; refine ⟨fun h _ => ?_, ?_⟩)
    | (simp at h; done)
    | (dsimp (zeta := false) only)
    | split

theorem execTwinEnWrite_within (f : Fn) (v : Word) (s : State) : Ends (Keeps
  0x3000000000000000000000000000000000000000000000000000000000000000000000000000000000000000000000000000000000000000000000000000000000000000000000000000000000001800000000000000000000000000000000000000000000000000000000000000000210000000000000000FFFFFFFF002007FD000000000000000001FFFFFF00013003000000000000000000000000000000000000000000000000000000000000065F0000000000000000000000000000810900000000000000000000000000020000000000000000000000000000000000000000000000000000000000000000000000000000000000000000000000000000000000000000000000000000000000000000000000000000000000000000000000000000000000000000000000000000000000000000000000000000000000000000000000000000000000000000004100000000000000000000000000000001000000000020000006020000000300210000000000000000000000000000000000000000000000000000000000000000122FE081
  s) (execTwinEnWrite f v s) := by
  refine Ends.next (State.cmdWrite_within _ _ _ _ (by decide) (by decide) (fun t new => ?_))
  simp (decide := true) only [State.writeEffect, State.writeCommon, State.writeLow, State.writeMid, State.writeRadio,
    State.writeHigh, keyPage_common, baseKey_common, if_true, if_false,
    true_and, and_true, false_and, and_false]
  repeat' first
    | with_reducible assumption
    | (simp (decide := true) (maxDischargeDepth := 200) only [↓Keeps.refl, ↓Keeps.ite, ↓State.twinCfg_keeps,
      ↓State.setErr_keeps]; done)
    | (with_reducible refine State.woBits_within _ _ _ _ (by decide) ?_)
    | (exact trivial)
    | (unfold allSet; refine ⟨fun h _ => ?_, ?_⟩)
    | (simp at h; done)
    | (dsimp (zeta := false) only)
    | split

theorem execCkptNow_within (f : Fn) (s : State) : Ends (Keeps
  0x400000000000000000000000000006000100000000000000000000000000000051000000000000000000000000000000010000000000000000000000000002002000000000000000000000000000000000000000000000000000000000000000000200A0C1
  s) (execCkptNow f s) := by
  refine Ends.next (State.cmdWrite_within _ _ _ _ (by decide) (by decide) (fun t new => ?_))
  simp (decide := true) only [State.writeEffect, State.writeCommon, State.writeLow, State.writeMid, State.writeRadio,
    State.writeHigh, keyPage_common, baseKey_common, if_true, if_false,
    true_and, and_true, false_and, and_false]
  repeat' first
    | with_reducible assumption
    | (simp (decide := true) (maxDischargeDepth := 200) only [↓Keeps.refl, ↓Keeps.ite, ↓State.ckptNow_keeps,
      ↓State.setErr_keeps]; done)
    | (with_reducible refine State.woBits_within _ _ _ _ (by decide) ?_)
    | (exact trivial)
    | (unfold allSet; refine ⟨fun h _ => ?_, ?_⟩)
    | (simp at h; done)
    | (dsimp (zeta := false) only)
    | split

theorem execSampleNow_within (f : Fn) (s : State) : Ends (Keeps
  0xFFFF0000000300000000000000000000000000000000000000000000000000000000000000000000000000000000000000000000000000000000000000000000000000000000000000000000000000000000000000000000000000000000000000000000000000000000000000000000000000000000000000000000000000000000000000000000000000000000000000000000000000000000000000000000000000000000000000000000000000000000000000040000000000000000000000000000000000000000000000000000000000000000000000000000000000000000000000000000000000000000000000000000000000000000000000000000000000000000000000000000000000000000000000000000000000000000000000000000000000000000000000000000000000000000000000000000000000000000000000400000000000000000000000000006000100000000000000000000000000000051000000000000000000000000000000000000000000200000060000000003002800000000000000000000000000000000000000000000000000000000000000001400A0C1
  s) (execSampleNow f s) := by
  refine Ends.next (State.cmdWrite_within _ _ _ _ (by decide) (by decide) (fun t new => ?_))
  simp (decide := true) only [State.writeEffect, State.writeCommon, State.writeLow, State.writeMid, State.writeRadio,
    State.writeHigh, keyPage_common, baseKey_common, if_true, if_false,
    true_and, and_true, false_and, and_false]
  repeat' first
    | with_reducible assumption
    | (simp (decide := true) (maxDischargeDepth := 200) only [↓Keeps.refl, ↓Keeps.ite, ↓State.wantSample_keeps,
      ↓State.setErr_keeps]; done)
    | (with_reducible refine State.woBits_within _ _ _ _ (by decide) ?_)
    | (exact trivial)
    | (unfold allSet; refine ⟨fun h _ => ?_, ?_⟩)
    | (simp at h; done)
    | (dsimp (zeta := false) only)
    | split

theorem execReplaceClr_within (f : Fn) (s : State) : Ends (Keeps
  0xFFFF00000003000000000000000000000000000000000000000000000000000000000000000000000000000000000000000000000000000000000000000000000000000000000000000000000000000000000000000000000000000000000000000000000000000000000000000000000000000000000000000000000000000000000000000000000000000000000000000000000000000000000000000000000000000000000000000000000000000000000000000000000000000000000000000000000000000000000000000000000000000000000000000000000000000000000000000000000000000000000000000000000000000000000000000000000000000000000000000000000000000000000000000000000000000000000000000000000000000000000000000000000000000000000000000000000000000000000000000000000000000000000000000000000000000000000000000000000000000000400000000000000000000000000000000000000000002000000000000000030028000000000000000000000000000000000000000000000000000000000000000004002081
  s) (execReplaceClr f s) := by
  refine Ends.next (State.cmdWrite_within _ _ _ _ (by decide) (by decide) (fun t new => ?_))
  simp (decide := true) only [State.writeEffect, State.writeCommon, State.writeLow, State.writeMid, State.writeRadio,
    State.writeHigh, keyPage_common, baseKey_common, if_true, if_false,
    true_and, and_true, false_and, and_false]
  repeat' first
    | with_reducible assumption
    | (simp (decide := true) (maxDischargeDepth := 200) only [↓Keeps.refl, ↓Keeps.ite, ↓State.replaceClr_keeps,
      ↓State.setErr_keeps]; done)
    | (with_reducible refine State.woBits_within _ _ _ _ (by decide) ?_)
    | (exact trivial)
    | (unfold allSet; refine ⟨fun h _ => ?_, ?_⟩)
    | (simp at h; done)
    | (dsimp (zeta := false) only)
    | split

theorem execSvcStart_within (f : Fn) (s : State) : Ends (Keeps
  0x38C1000000000000000000000000000000000000000000000000000000000000000000000000000000000000000000000000000000000000000000000000000000000000000000000000000000000000000000000000000000000000000000000000000000000000000000000000000000000000000000000000000000000000000000000000000000000000000000000000000000000000000000000000000000000000000000000000000000000000000000000000000000000000000000000000000000000000000000000000000000000000000000000000000000000000000000000000000000000000000000000000000000000000000000000000000000000000000000000000000000000000000000000000000000000000000000000000000000000000000000000000000000000000000000000000000000000000000000000000000000000000000000000000000000000000000000000000000000400000000000000000000000000000000000000000000000000000000000020020000000000000000000000000000000000000000000000000000000000000000004002081
  s) (execSvcStart f s) := by
  refine Ends.next (State.cmdWrite_within _ _ _ _ (by decide) (by decide) (fun t new => ?_))
  simp (decide := true) only [State.writeEffect, State.writeCommon, State.writeLow, State.writeMid, State.writeRadio,
    State.writeHigh, keyPage_common, baseKey_common, if_true, if_false,
    true_and, and_true, false_and, and_false]
  repeat' first
    | with_reducible assumption
    | (simp (decide := true) (maxDischargeDepth := 200) only [↓Keeps.refl, ↓Keeps.ite, ↓State.svcStart_keeps,
      ↓State.setErr_keeps]; done)
    | (with_reducible refine State.woBits_within _ _ _ _ (by decide) ?_)
    | (exact trivial)
    | (unfold allSet; refine ⟨fun h _ => ?_, ?_⟩)
    | (simp at h; done)
    | (dsimp (zeta := false) only)
    | split

theorem execImageWindowWrite_within (f : Fn) (w : Word) (s : State) : Ends (Keeps
  0xF80000000000000000000000000000000000000000000000000000000000000000000000000000000000000000000000000000000000000000000000000000000000004100000000000000000000000000000000000000700000000000000000000200200000000000000000000000000000000000000000000000000000000000000000040024C5
  s) (execImageWindowWrite f w s) := by
  refine Ends.next (Keeps.ite (State.cmdWrite_within _ _ _ _ (by decide) (by decide) (fun t new => ?_)) .refl)
  simp (decide := true) only [State.writeEffect, State.writeCommon, State.writeLow, State.writeMid, State.writeRadio,
    State.writeHigh, keyPage_common, baseKey_common, if_true, if_false,
    true_and, and_true, false_and, and_false]
  repeat' first
    | with_reducible assumption
    | (simp (decide := true) (maxDischargeDepth := 200) only [↓Keeps.refl, ↓Keeps.ite, ↓State.memWrite_keeps]; done)
    | (with_reducible refine State.woBits_within _ _ _ _ (by decide) ?_)
    | (exact trivial)
    | (unfold allSet; refine ⟨fun h _ => ?_, ?_⟩)
    | (simp at h; done)
    | (dsimp (zeta := false) only)
    | split

theorem execTwAddressConfigWrite_within (f : Fn) (off : Nat) (v : Word) (s : State) : Ends (Keeps
  0x3F0000000000000000000000000000000000000000000000000000000000000000000000000000000000000000000000000000000000000000000000000000000000000000000000000000000000000000000000000000000000000000000000400000000000000000000000000000000000000000000000000000000000020020000000000000000000000000000000000000000000000000000000000000000000003081
  s) (execTwAddressConfigWrite f off v s) := by
  refine Ends.next (Keeps.byCases (fun h => ?_) (fun _ => .refl))
  obtain ⟨h1, h2⟩ := h
  refine State.cmdWrite_within _ _ _ _ (by decide) (by decide) (fun t new => ?_)
  have hk : ∀ i, 0x80 ≤ i → i ≤ 0x85 → Keeps 0x3F0000000000000000000000000000000000000000000000000000000000000000000000000000000000000000000000000000000000000000000000000000000000000000000000000000000000000000000000000000000000000000000000400000000000000000000000000000000000000000000000000000000000020020000000000000000000000000000000000000000000000000000000000000000000003081 t (t.writeEffect f (0x800 + i) v new) := by
    intro i h1 h2
    interval_cases i
    all_goals
      simp (decide := true) only [State.writeEffect, State.writeMid, if_true, if_false, or_true, true_or]
      exact State.addrWrite_keeps _ _ _ _ .refl (by decide) (by decide)
  have := hk off h1 h2
  rwa [if_neg (by simp only; omega)]

theorem execRawFesWrite_within (f : Fn) (off : Nat) (v : Word) (s : State) : Ends (Keeps
  0x100000000000000000000000000000001000000000000000000000000000000000000000000000000000000000000065F0000000000000000000000000000B91100000000000000000000000000000000000000000000000000000000000000000000000000000000000000000000000000000000000000000000000000000000000000000000000000000000000000000000000000000000000000000000000000000000000000000000000000000000000000000000000000000000000000000000000000000000000000000000004000000000000000000000000000000000000000000000000006000000000200200000000000000000000000000000000000000000000000000000000000000000100FA081
  s) (execRawFesWrite f off v s) := by
  refine Ends.next (Keeps.byCases (fun h => ?_) (fun _ => .refl))
  have e1 : FES_RAW_LNA.w.key = 0xB8B := by decide
  have e2 : FES_RAW_LFPGA.w.key = 0xB8D := by decide
  rw [e1, e2] at h
  refine State.cmdWrite_within _ _ _ _ (by decide) (by decide) (fun t new => ?_)
  have hk : ∀ i, 0x8B ≤ i → i ≤ 0x8D → Keeps 0x100000000000000000000000000000001000000000000000000000000000000000000000000000000000000000000065F0000000000000000000000000000B91100000000000000000000000000000000000000000000000000000000000000000000000000000000000000000000000000000000000000000000000000000000000000000000000000000000000000000000000000000000000000000000000000000000000000000000000000000000000000000000000000000000000000000000000000000000000000000000004000000000000000000000000000000000000000000000000006000000000200200000000000000000000000000000000000000000000000000000000000000000100FA081 t (t.writeEffect f (0xB00 + i) v new) := by
    intro i h1 h2
    interval_cases i
    all_goals
      simp (decide := true) only [State.writeEffect, State.writeRadio, if_true, if_false, and_true]
      exact State.rawWrite_keeps _ _ _ .refl (by decide) (by decide)
  have := hk off (by omega) (by omega)
  rwa [if_neg (by simp only; omega)]

theorem execApArmWrite_within (f : Fn) (port : AudioPort) (v : Word) (s : State) : Ends (Keeps
  0x2C000000000000000000000000000000003000000000000000000000000000040010000000000000000000000000000400100000000000000000000000000000000000000000000000000000000000000000000000000000000000000000000000000000000000000000000000000000000000000000000000000000000000000000000000000000000000000000000000000000000000000000000000000000000000000000000000000000000000000000000000000000000000000000000000000000000000000000000000000000000000000000000000000000000000000000000000000000000000000000000000000000000000000000000000000000000000000000000000000000000000000000000000000000000000000000000000000000000000000000000000000000000000000000000000000000000000000400000000000000000000000000000000000000000002000000000000000030020000000000000000000000000000000000000000000000000000000000000000001C02085
  s) (execApArmWrite f port v s) := by
  cases port
  all_goals
    unfold execApArmWrite
    dsimp only
    refine Ends.next (State.cmdWrite_within _ _ _ _ (by decide) (by decide) (fun t new => ?_))
    simp (decide := true) only [State.writeEffect, State.writeCommon, State.writeLow, State.writeMid, State.writeRadio,
      State.writeHigh, keyPage_common, baseKey_common, if_true, if_false,
      true_and, and_true, false_and, and_false]
    repeat' first
      | with_reducible assumption
      | (simp (decide := true) (maxDischargeDepth := 200) only [↓Keeps.refl, ↓Keeps.ite, ↓State.ctlWrite_keeps,
        ↓State.setErr_keeps]; done)
      | (with_reducible refine State.woBits_within _ _ _ _ (by decide) ?_)
      | (exact trivial)
      | (unfold allSet; refine ⟨fun h _ => ?_, ?_⟩)
      | (simp at h; done)
      | (dsimp (zeta := false) only)
      | split

theorem execRingRst_within (f : Fn) (port : AudioPort) (s : State) : Ends (Keeps
  0xE0000000000000000000000000000000C2000000000000000000000000000000C200000000000000000000000000000000000000000000000000000000000000000000000000000000000000000000000000000000000000000000000000000000000000000000000000000000000000000000000000000000000000000000000000000000000000000000000000000000000000000000000000000000000000000000000000000000000000000000000000000000000000000000000000000000000000000000000000000000000000000000000000000000000000000000000000000000000000000000000000000000000000000000000000000000000000000000000000000000000000000000000000000000000000000000000000000000000000000000000000000000000000000400000000000000000000000000000000000000000000000000000000000020020000000000000000000000000000000000000000000000000000000000000000000002081
  s) (execRingRst f port s) := by
  cases port
  case ap1 => exact Ends.next .refl
  all_goals
    unfold execRingRst
    dsimp only
    refine Ends.next (State.cmdWrite_within _ _ _ _ (by decide) (by decide) (fun t new => ?_))
    simp (decide := true) only [State.writeEffect, State.writeCommon, State.writeLow, State.writeMid, State.writeRadio,
      State.writeHigh, keyPage_common, baseKey_common, if_true, if_false,
      true_and, and_true, false_and, and_false]
    repeat' first
      | with_reducible assumption
      | (simp (decide := true) (maxDischargeDepth := 200) only [↓Keeps.refl, ↓Keeps.ite, ↓State.ringRst_keeps,
        ↓State.setErr_keeps]; done)
      | (with_reducible refine State.woBits_within _ _ _ _ (by decide) ?_)
      | (exact trivial)
      | (unfold allSet; refine ⟨fun h _ => ?_, ?_⟩)
      | (simp at h; done)
      | (dsimp (zeta := false) only)
      | split

theorem execMemDataAccess_within (f : Fn) (w : Option Word) (qspiTo : Bool) (s : State) : Ends (Keeps
  0xF800000000000000000000000000000000000000000000000000000000000000000000000000000000000000000000000000000000000000000000000000000000000041000000000000000000000000000000000000007000000000000000000002002000000000000000000000000000000000000000000000000000000000000000000C0024C5
  s) (execMemDataAccess f w qspiTo s) := by
  cases w
  case none =>
    refine Ends.next (State.cmdRead_keeps _ _ _ _ .refl (by decide) (fun t => ?_))
    exact State.memRead_snd _ _ _ .refl (by decide)
  case some w =>
    unfold execMemDataAccess
    dsimp only
    refine Ends.next (State.cmdWrite_within _ _ _ _ (by decide) (by decide) (fun t new => ?_))
    simp (decide := true) only [State.writeEffect, State.writeCommon, State.writeLow, State.writeMid, State.writeRadio,
      State.writeHigh, keyPage_common, baseKey_common, if_true, if_false,
      true_and, and_true, false_and, and_false]
    repeat' first
      | with_reducible assumption
      | (simp (decide := true) (maxDischargeDepth := 200) only [↓Keeps.refl, ↓Keeps.ite,
        ↓State.memWrite_keeps]; done)
      | (with_reducible refine State.woBits_within _ _ _ _ (by decide) ?_)
      | (exact trivial)
      | (unfold allSet; refine ⟨fun h _ => ?_, ?_⟩)
      | (simp at h; done)
      | (dsimp (zeta := false) only)
      | split

end Sys2Proof.Machine
end

