-- ==== Sys2Proof/Laws/Frames.lean ====
section
/-! SUPPORT. From what an operation keeps, as a mask, to the frame of a command, as a list of areas. -/

set_option Elab.async false

namespace Sys2Proof.Machine

/-- The mask bit of an area. -/
def Area.mask : Area → Nat
  | .page p => 1 <<< (32 + p) ||| (2 ^ 128 - 1) <<< (288 + 128 * p)
  | .reg x => 1 <<< (288 + (keyPage x.key * 128 + x.key % 128))
  | a => 1 <<< a.bit

/-- The mask of a list of areas. -/
def areasMask (l : List Area) : Nat := l.foldr (fun a m => a.mask ||| m) 0

/-- An area names a page a register can have. -/
def Area.ok : Area → Bool
  | .page p => p < 256
  | _ => true

theorem testBit_shift_ne {i j : Nat} (h : i ≠ j) : (1 <<< i).testBit j = false := by
  rw [Nat.shiftLeft_eq, Nat.one_mul, Nat.testBit_two_pow_of_ne h]

theorem testBit_span {i j : Nat} (h : j < i ∨ i + 128 ≤ j) : ((2 ^ 128 - 1) <<< i).testBit j = false := by
  rw [Nat.testBit_shiftLeft]
  rcases h with h | h
  · simp only [ge_iff_le, Bool.and_eq_false_iff, decide_eq_false_iff_not]
    exact Or.inl (by omega)
  · rw [Nat.testBit_two_pow_sub_one, Bool.and_eq_false_iff]
    exact Or.inr (by simp only [decide_eq_false_iff_not]; omega)

theorem keyPage_lt (k : Nat) : keyPage k < 256 := by
  unfold keyPage
  split <;> omega

theorem Area.bit_lt (a : Area) : a.bit < 32 := by
  cases a <;> simp [Area.bit]

theorem Area.mask_reg {a : Area} {k : Nat} (ho : a.ok = true) (h : a.has k = false) : regIn a.mask k = false := by
  have hk := keyPage_lt k
  have hb := a.bit_lt
  cases a
  case page p =>
    simp only [Area.has, Area.ok, beq_eq_false_iff_ne, decide_eq_true_eq] at h ho
    simp only [regIn, Area.mask, Bool.or_eq_false_iff]
    simp only [Nat.testBit_or, Bool.or_eq_false_iff]
    exact ⟨⟨testBit_shift_ne (by omega), testBit_span (by omega)⟩, testBit_shift_ne (by omega), testBit_span (by omega)⟩
  case reg x =>
    simp only [Area.has, Bool.and_eq_false_iff, beq_eq_false_iff_ne] at h
    simp only [regIn, Area.mask, Bool.or_eq_false_iff]
    exact ⟨testBit_shift_ne (by omega), testBit_shift_ne (by omega)⟩
  all_goals
    simp only [regIn, Area.mask, Bool.or_eq_false_iff]
    exact ⟨testBit_shift_ne (by omega), testBit_shift_ne (by omega)⟩

theorem Area.mask_bit {a b : Area} (h : b ≠ a) (hb : b.bit < 29) : a.mask.testBit b.bit = false := by
  cases a
  case page p =>
    simp only [Area.mask, Nat.testBit_or, Bool.or_eq_false_iff]
    exact ⟨testBit_shift_ne (by omega), testBit_span (by omega)⟩
  case reg x => exact testBit_shift_ne (by omega)
  all_goals
    refine testBit_shift_ne ?_
    cases b <;> first | exact absurd rfl h | simp [Area.bit] | simp [Area.bit] at hb

theorem areasMask_reg {l : List Area} {k : Nat} (ho : l.all Area.ok = true) (h : l.any (Area.has k) = false) :
    regIn (areasMask l) k = false := by
  induction l with
  | nil => simp [areasMask, regIn]
  | cons a l ih =>
    simp only [List.all_cons, List.any_cons, Bool.and_eq_true, Bool.or_eq_false_iff] at ho h
    have h1 := Area.mask_reg ho.1 h.1
    have h2 := ih ho.2 h.2
    simp only [regIn, areasMask, List.foldr_cons, Nat.testBit_or, Bool.or_eq_false_iff] at h1 h2 ⊢
    exact ⟨⟨h1.1, h2.1⟩, ⟨h1.2, h2.2⟩⟩

theorem areasMask_bit {l : List Area} {b : Area} (h : b ∉ l) (hb : b.bit < 29) : (areasMask l).testBit b.bit = false := by
  induction l with
  | nil => simp [areasMask]
  | cons a l ih =>
    rw [List.mem_cons, not_or] at h
    simp only [areasMask, List.foldr_cons, Nat.testBit_or, Bool.or_eq_false_iff]
    exact ⟨Area.mask_bit h.1 hb, ih h.2⟩

/-- A change within the mask of a list of areas changes only those areas. -/
theorem Keeps.areas {l : List Area} {m : Nat} {s t : State} (h : Keeps m s t) (ho : l.all Area.ok = true)
    (hw : within? m (areasMask l) = true) : Only l s t := by
  refine (h.mono hw).only (fun k hk => areasMask_reg ho hk) (fun a ha => ?_)
  have := a.bit_lt
  rcases Nat.lt_or_ge a.bit 29 with hb | hb
  · exact Or.inl (areasMask_bit ha hb)
  · right
    cases a <;> simp [Area.bit] at hb ⊢

/-- The frame of a command that goes on from every state. -/
theorem within_of {c : Instr} {l : List (List Area)} {m : Nat} (ho : l.flatten.all Area.ok = true)
    (hw : within? m (areasMask l.flatten) = true) (hn : ∀ s, ∃ t, exec c s = .next t) (hk : ∀ s, Ends (Keeps m s) (exec c s)) :
    Within c l := fun s => by
  obtain ⟨t, ht⟩ := hn s
  exact ⟨t, ht, ((hk s).of_next ht).areas ho hw⟩

end Sys2Proof.Machine
end

