-- ==== Sys2Proof/Laws/State.lean ====
section
/-! SUPPORT. What each named update of the state leaves: one lemma per field per update, so that no proof unfolds a record
update to read another field. -/

set_option Elab.async false

namespace Sys2Proof.Machine

variable (s : State)

@[simp] theorem State.setReg_variantFL (k : Nat) (w : Word) : (s.setReg k w).variantFL = s.variantFL := rfl
@[simp] theorem State.setReg_regs (k : Nat) (w : Word) : (s.setReg k w).regs = Sparse.put resetWord s.regs k w := rfl
@[simp] theorem State.setReg_cnts (k : Nat) (w : Word) : (s.setReg k w).cnts = s.cnts := rfl
@[simp] theorem State.setReg_latches (k : Nat) (w : Word) : (s.setReg k w).latches = s.latches := rfl
@[simp] theorem State.setReg_mem (k : Nat) (w : Word) : (s.setReg k w).mem = s.mem := rfl
@[simp] theorem State.setReg_ktime (k : Nat) (w : Word) : (s.setReg k w).ktime = s.ktime := rfl
@[simp] theorem State.setReg_aon (k : Nat) (w : Word) : (s.setReg k w).aon = s.aon := rfl
@[simp] theorem State.setReg_pins (k : Nat) (w : Word) : (s.setReg k w).pins = s.pins := rfl
@[simp] theorem State.setReg_pwr (k : Nat) (w : Word) : (s.setReg k w).pwr = s.pwr := rfl
@[simp] theorem State.setReg_mode (k : Nat) (w : Word) : (s.setReg k w).mode = s.mode := rfl
@[simp] theorem State.setReg_boot (k : Nat) (w : Word) : (s.setReg k w).boot = s.boot := rfl
@[simp] theorem State.setReg_flint (k : Nat) (w : Word) : (s.setReg k w).flint = s.flint := rfl
@[simp] theorem State.setReg_img (k : Nat) (w : Word) : (s.setReg k w).img = s.img := rfl
@[simp] theorem State.setReg_spi (k : Nat) (w : Word) : (s.setReg k w).spi = s.spi := rfl
@[simp] theorem State.setReg_tw (k : Nat) (w : Word) : (s.setReg k w).tw = s.tw := rfl
@[simp] theorem State.setReg_fns (k : Nat) (w : Word) : (s.setReg k w).fns = s.fns := rfl
@[simp] theorem State.setReg_plans (k : Nat) (w : Word) : (s.setReg k w).plans = s.plans := rfl
@[simp] theorem State.setReg_sched (k : Nat) (w : Word) : (s.setReg k w).sched = s.sched := rfl
@[simp] theorem State.setReg_fe (k : Nat) (w : Word) : (s.setReg k w).fe = s.fe := rfl
@[simp] theorem State.setReg_fm (k : Nat) (w : Word) : (s.setReg k w).fm = s.fm := rfl
@[simp] theorem State.setReg_dab (k : Nat) (w : Word) : (s.setReg k w).dab = s.dab := rfl
@[simp] theorem State.setReg_lf (k : Nat) (w : Word) : (s.setReg k w).lf = s.lf := rfl
@[simp] theorem State.setReg_time (k : Nat) (w : Word) : (s.setReg k w).time = s.time := rfl
@[simp] theorem State.setReg_edf (k : Nat) (w : Word) : (s.setReg k w).edf = s.edf := rfl
@[simp] theorem State.setReg_ap (k : Nat) (w : Word) : (s.setReg k w).ap = s.ap := rfl
@[simp] theorem State.setReg_bph (k : Nat) (w : Word) : (s.setReg k w).bph = s.bph := rfl
@[simp] theorem State.setReg_capt (k : Nat) (w : Word) : (s.setReg k w).capt = s.capt := rfl
@[simp] theorem State.setReg_twin (k : Nat) (w : Word) : (s.setReg k w).twin = s.twin := rfl
@[simp] theorem State.setReg_hlt (k : Nat) (w : Word) : (s.setReg k w).hlt = s.hlt := rfl
@[simp] theorem State.setReg_hostOut (k : Nat) (w : Word) : (s.setReg k w).hostOut = s.hostOut := rfl
@[simp] theorem State.setReg_freeCtr (k : Nat) (w : Word) : (s.setReg k w).freeCtr = s.freeCtr := rfl
@[simp] theorem State.setReg_pending (k : Nat) (w : Word) : (s.setReg k w).pending = s.pending := rfl

@[simp] theorem State.put_variantFL (x : Fld) (v : Nat) : (s.put x v).variantFL = s.variantFL := rfl
@[simp] theorem State.put_cnts (x : Fld) (v : Nat) : (s.put x v).cnts = s.cnts := rfl
@[simp] theorem State.put_latches (x : Fld) (v : Nat) : (s.put x v).latches = s.latches := rfl
@[simp] theorem State.put_mem (x : Fld) (v : Nat) : (s.put x v).mem = s.mem := rfl
@[simp] theorem State.put_ktime (x : Fld) (v : Nat) : (s.put x v).ktime = s.ktime := rfl
@[simp] theorem State.put_aon (x : Fld) (v : Nat) : (s.put x v).aon = s.aon := rfl
@[simp] theorem State.put_pins (x : Fld) (v : Nat) : (s.put x v).pins = s.pins := rfl
@[simp] theorem State.put_pwr (x : Fld) (v : Nat) : (s.put x v).pwr = s.pwr := rfl
@[simp] theorem State.put_mode (x : Fld) (v : Nat) : (s.put x v).mode = s.mode := rfl
@[simp] theorem State.put_boot (x : Fld) (v : Nat) : (s.put x v).boot = s.boot := rfl
@[simp] theorem State.put_flint (x : Fld) (v : Nat) : (s.put x v).flint = s.flint := rfl
@[simp] theorem State.put_img (x : Fld) (v : Nat) : (s.put x v).img = s.img := rfl
@[simp] theorem State.put_spi (x : Fld) (v : Nat) : (s.put x v).spi = s.spi := rfl
@[simp] theorem State.put_tw (x : Fld) (v : Nat) : (s.put x v).tw = s.tw := rfl
@[simp] theorem State.put_fns (x : Fld) (v : Nat) : (s.put x v).fns = s.fns := rfl
@[simp] theorem State.put_plans (x : Fld) (v : Nat) : (s.put x v).plans = s.plans := rfl
@[simp] theorem State.put_sched (x : Fld) (v : Nat) : (s.put x v).sched = s.sched := rfl
@[simp] theorem State.put_fe (x : Fld) (v : Nat) : (s.put x v).fe = s.fe := rfl
@[simp] theorem State.put_fm (x : Fld) (v : Nat) : (s.put x v).fm = s.fm := rfl
@[simp] theorem State.put_dab (x : Fld) (v : Nat) : (s.put x v).dab = s.dab := rfl
@[simp] theorem State.put_lf (x : Fld) (v : Nat) : (s.put x v).lf = s.lf := rfl
@[simp] theorem State.put_time (x : Fld) (v : Nat) : (s.put x v).time = s.time := rfl
@[simp] theorem State.put_edf (x : Fld) (v : Nat) : (s.put x v).edf = s.edf := rfl
@[simp] theorem State.put_ap (x : Fld) (v : Nat) : (s.put x v).ap = s.ap := rfl
@[simp] theorem State.put_bph (x : Fld) (v : Nat) : (s.put x v).bph = s.bph := rfl
@[simp] theorem State.put_capt (x : Fld) (v : Nat) : (s.put x v).capt = s.capt := rfl
@[simp] theorem State.put_twin (x : Fld) (v : Nat) : (s.put x v).twin = s.twin := rfl
@[simp] theorem State.put_hlt (x : Fld) (v : Nat) : (s.put x v).hlt = s.hlt := rfl
@[simp] theorem State.put_hostOut (x : Fld) (v : Nat) : (s.put x v).hostOut = s.hostOut := rfl
@[simp] theorem State.put_freeCtr (x : Fld) (v : Nat) : (s.put x v).freeCtr = s.freeCtr := rfl
@[simp] theorem State.put_pending (x : Fld) (v : Nat) : (s.put x v).pending = s.pending := rfl

@[simp] theorem State.resetRegs_variantFL (p : Nat → Bool) : (s.resetRegs p).variantFL = s.variantFL := rfl
@[simp] theorem State.resetRegs_regs (p : Nat → Bool) : (s.resetRegs p).regs = Sparse.drop p s.regs := rfl
@[simp] theorem State.resetRegs_cnts (p : Nat → Bool) : (s.resetRegs p).cnts = s.cnts := rfl
@[simp] theorem State.resetRegs_latches (p : Nat → Bool) : (s.resetRegs p).latches = s.latches := rfl
@[simp] theorem State.resetRegs_mem (p : Nat → Bool) : (s.resetRegs p).mem = s.mem := rfl
@[simp] theorem State.resetRegs_ktime (p : Nat → Bool) : (s.resetRegs p).ktime = s.ktime := rfl
@[simp] theorem State.resetRegs_aon (p : Nat → Bool) : (s.resetRegs p).aon = s.aon := rfl
@[simp] theorem State.resetRegs_pins (p : Nat → Bool) : (s.resetRegs p).pins = s.pins := rfl
@[simp] theorem State.resetRegs_pwr (p : Nat → Bool) : (s.resetRegs p).pwr = s.pwr := rfl
@[simp] theorem State.resetRegs_mode (p : Nat → Bool) : (s.resetRegs p).mode = s.mode := rfl
@[simp] theorem State.resetRegs_boot (p : Nat → Bool) : (s.resetRegs p).boot = s.boot := rfl
@[simp] theorem State.resetRegs_flint (p : Nat → Bool) : (s.resetRegs p).flint = s.flint := rfl
@[simp] theorem State.resetRegs_img (p : Nat → Bool) : (s.resetRegs p).img = s.img := rfl
@[simp] theorem State.resetRegs_spi (p : Nat → Bool) : (s.resetRegs p).spi = s.spi := rfl
@[simp] theorem State.resetRegs_tw (p : Nat → Bool) : (s.resetRegs p).tw = s.tw := rfl
@[simp] theorem State.resetRegs_fns (p : Nat → Bool) : (s.resetRegs p).fns = s.fns := rfl
@[simp] theorem State.resetRegs_plans (p : Nat → Bool) : (s.resetRegs p).plans = s.plans := rfl
@[simp] theorem State.resetRegs_sched (p : Nat → Bool) : (s.resetRegs p).sched = s.sched := rfl
@[simp] theorem State.resetRegs_fe (p : Nat → Bool) : (s.resetRegs p).fe = s.fe := rfl
@[simp] theorem State.resetRegs_fm (p : Nat → Bool) : (s.resetRegs p).fm = s.fm := rfl
@[simp] theorem State.resetRegs_dab (p : Nat → Bool) : (s.resetRegs p).dab = s.dab := rfl
@[simp] theorem State.resetRegs_lf (p : Nat → Bool) : (s.resetRegs p).lf = s.lf := rfl
@[simp] theorem State.resetRegs_time (p : Nat → Bool) : (s.resetRegs p).time = s.time := rfl
@[simp] theorem State.resetRegs_edf (p : Nat → Bool) : (s.resetRegs p).edf = s.edf := rfl
@[simp] theorem State.resetRegs_ap (p : Nat → Bool) : (s.resetRegs p).ap = s.ap := rfl
@[simp] theorem State.resetRegs_bph (p : Nat → Bool) : (s.resetRegs p).bph = s.bph := rfl
@[simp] theorem State.resetRegs_capt (p : Nat → Bool) : (s.resetRegs p).capt = s.capt := rfl
@[simp] theorem State.resetRegs_twin (p : Nat → Bool) : (s.resetRegs p).twin = s.twin := rfl
@[simp] theorem State.resetRegs_hlt (p : Nat → Bool) : (s.resetRegs p).hlt = s.hlt := rfl
@[simp] theorem State.resetRegs_hostOut (p : Nat → Bool) : (s.resetRegs p).hostOut = s.hostOut := rfl
@[simp] theorem State.resetRegs_freeCtr (p : Nat → Bool) : (s.resetRegs p).freeCtr = s.freeCtr := rfl
@[simp] theorem State.resetRegs_pending (p : Nat → Bool) : (s.resetRegs p).pending = s.pending := rfl

@[simp] theorem State.setByte_variantFL (a : Nat) (b : Byte) : (s.setByte a b).variantFL = s.variantFL := rfl
@[simp] theorem State.setByte_regs (a : Nat) (b : Byte) : (s.setByte a b).regs = s.regs := rfl
@[simp] theorem State.setByte_cnts (a : Nat) (b : Byte) : (s.setByte a b).cnts = s.cnts := rfl
@[simp] theorem State.setByte_latches (a : Nat) (b : Byte) : (s.setByte a b).latches = s.latches := rfl
@[simp] theorem State.setByte_mem (a : Nat) (b : Byte) : (s.setByte a b).mem = Sparse.put memDefault s.mem a b := rfl
@[simp] theorem State.setByte_ktime (a : Nat) (b : Byte) : (s.setByte a b).ktime = s.ktime := rfl
@[simp] theorem State.setByte_aon (a : Nat) (b : Byte) : (s.setByte a b).aon = s.aon := rfl
@[simp] theorem State.setByte_pins (a : Nat) (b : Byte) : (s.setByte a b).pins = s.pins := rfl
@[simp] theorem State.setByte_pwr (a : Nat) (b : Byte) : (s.setByte a b).pwr = s.pwr := rfl
@[simp] theorem State.setByte_mode (a : Nat) (b : Byte) : (s.setByte a b).mode = s.mode := rfl
@[simp] theorem State.setByte_boot (a : Nat) (b : Byte) : (s.setByte a b).boot = s.boot := rfl
@[simp] theorem State.setByte_flint (a : Nat) (b : Byte) : (s.setByte a b).flint = s.flint := rfl
@[simp] theorem State.setByte_img (a : Nat) (b : Byte) : (s.setByte a b).img = s.img := rfl
@[simp] theorem State.setByte_spi (a : Nat) (b : Byte) : (s.setByte a b).spi = s.spi := rfl
@[simp] theorem State.setByte_tw (a : Nat) (b : Byte) : (s.setByte a b).tw = s.tw := rfl
@[simp] theorem State.setByte_fns (a : Nat) (b : Byte) : (s.setByte a b).fns = s.fns := rfl
@[simp] theorem State.setByte_plans (a : Nat) (b : Byte) : (s.setByte a b).plans = s.plans := rfl
@[simp] theorem State.setByte_sched (a : Nat) (b : Byte) : (s.setByte a b).sched = s.sched := rfl
@[simp] theorem State.setByte_fe (a : Nat) (b : Byte) : (s.setByte a b).fe = s.fe := rfl
@[simp] theorem State.setByte_fm (a : Nat) (b : Byte) : (s.setByte a b).fm = s.fm := rfl
@[simp] theorem State.setByte_dab (a : Nat) (b : Byte) : (s.setByte a b).dab = s.dab := rfl
@[simp] theorem State.setByte_lf (a : Nat) (b : Byte) : (s.setByte a b).lf = s.lf := rfl
@[simp] theorem State.setByte_time (a : Nat) (b : Byte) : (s.setByte a b).time = s.time := rfl
@[simp] theorem State.setByte_edf (a : Nat) (b : Byte) : (s.setByte a b).edf = s.edf := rfl
@[simp] theorem State.setByte_ap (a : Nat) (b : Byte) : (s.setByte a b).ap = s.ap := rfl
@[simp] theorem State.setByte_bph (a : Nat) (b : Byte) : (s.setByte a b).bph = s.bph := rfl
@[simp] theorem State.setByte_capt (a : Nat) (b : Byte) : (s.setByte a b).capt = s.capt := rfl
@[simp] theorem State.setByte_twin (a : Nat) (b : Byte) : (s.setByte a b).twin = s.twin := rfl
@[simp] theorem State.setByte_hlt (a : Nat) (b : Byte) : (s.setByte a b).hlt = s.hlt := rfl
@[simp] theorem State.setByte_hostOut (a : Nat) (b : Byte) : (s.setByte a b).hostOut = s.hostOut := rfl
@[simp] theorem State.setByte_freeCtr (a : Nat) (b : Byte) : (s.setByte a b).freeCtr = s.freeCtr := rfl
@[simp] theorem State.setByte_pending (a : Nat) (b : Byte) : (s.setByte a b).pending = s.pending := rfl

@[simp] theorem State.dropMem_variantFL (p : Nat → Bool) : (s.dropMem p).variantFL = s.variantFL := rfl
@[simp] theorem State.dropMem_regs (p : Nat → Bool) : (s.dropMem p).regs = s.regs := rfl
@[simp] theorem State.dropMem_cnts (p : Nat → Bool) : (s.dropMem p).cnts = s.cnts := rfl
@[simp] theorem State.dropMem_latches (p : Nat → Bool) : (s.dropMem p).latches = s.latches := rfl
@[simp] theorem State.dropMem_mem (p : Nat → Bool) : (s.dropMem p).mem = Sparse.drop p s.mem := rfl
@[simp] theorem State.dropMem_ktime (p : Nat → Bool) : (s.dropMem p).ktime = s.ktime := rfl
@[simp] theorem State.dropMem_aon (p : Nat → Bool) : (s.dropMem p).aon = s.aon := rfl
@[simp] theorem State.dropMem_pins (p : Nat → Bool) : (s.dropMem p).pins = s.pins := rfl
@[simp] theorem State.dropMem_pwr (p : Nat → Bool) : (s.dropMem p).pwr = s.pwr := rfl
@[simp] theorem State.dropMem_mode (p : Nat → Bool) : (s.dropMem p).mode = s.mode := rfl
@[simp] theorem State.dropMem_boot (p : Nat → Bool) : (s.dropMem p).boot = s.boot := rfl
@[simp] theorem State.dropMem_flint (p : Nat → Bool) : (s.dropMem p).flint = s.flint := rfl
@[simp] theorem State.dropMem_img (p : Nat → Bool) : (s.dropMem p).img = s.img := rfl
@[simp] theorem State.dropMem_spi (p : Nat → Bool) : (s.dropMem p).spi = s.spi := rfl
@[simp] theorem State.dropMem_tw (p : Nat → Bool) : (s.dropMem p).tw = s.tw := rfl
@[simp] theorem State.dropMem_fns (p : Nat → Bool) : (s.dropMem p).fns = s.fns := rfl
@[simp] theorem State.dropMem_plans (p : Nat → Bool) : (s.dropMem p).plans = s.plans := rfl
@[simp] theorem State.dropMem_sched (p : Nat → Bool) : (s.dropMem p).sched = s.sched := rfl
@[simp] theorem State.dropMem_fe (p : Nat → Bool) : (s.dropMem p).fe = s.fe := rfl
@[simp] theorem State.dropMem_fm (p : Nat → Bool) : (s.dropMem p).fm = s.fm := rfl
@[simp] theorem State.dropMem_dab (p : Nat → Bool) : (s.dropMem p).dab = s.dab := rfl
@[simp] theorem State.dropMem_lf (p : Nat → Bool) : (s.dropMem p).lf = s.lf := rfl
@[simp] theorem State.dropMem_time (p : Nat → Bool) : (s.dropMem p).time = s.time := rfl
@[simp] theorem State.dropMem_edf (p : Nat → Bool) : (s.dropMem p).edf = s.edf := rfl
@[simp] theorem State.dropMem_ap (p : Nat → Bool) : (s.dropMem p).ap = s.ap := rfl
@[simp] theorem State.dropMem_bph (p : Nat → Bool) : (s.dropMem p).bph = s.bph := rfl
@[simp] theorem State.dropMem_capt (p : Nat → Bool) : (s.dropMem p).capt = s.capt := rfl
@[simp] theorem State.dropMem_twin (p : Nat → Bool) : (s.dropMem p).twin = s.twin := rfl
@[simp] theorem State.dropMem_hlt (p : Nat → Bool) : (s.dropMem p).hlt = s.hlt := rfl
@[simp] theorem State.dropMem_hostOut (p : Nat → Bool) : (s.dropMem p).hostOut = s.hostOut := rfl
@[simp] theorem State.dropMem_freeCtr (p : Nat → Bool) : (s.dropMem p).freeCtr = s.freeCtr := rfl
@[simp] theorem State.dropMem_pending (p : Nat → Bool) : (s.dropMem p).pending = s.pending := rfl

@[simp] theorem State.setEng_variantFL (f : Fn) (e : FnEng) : (s.setEng f e).variantFL = s.variantFL := rfl
@[simp] theorem State.setEng_regs (f : Fn) (e : FnEng) : (s.setEng f e).regs = s.regs := rfl
@[simp] theorem State.setEng_cnts (f : Fn) (e : FnEng) : (s.setEng f e).cnts = s.cnts := rfl
@[simp] theorem State.setEng_latches (f : Fn) (e : FnEng) : (s.setEng f e).latches = s.latches := rfl
@[simp] theorem State.setEng_mem (f : Fn) (e : FnEng) : (s.setEng f e).mem = s.mem := rfl
@[simp] theorem State.setEng_ktime (f : Fn) (e : FnEng) : (s.setEng f e).ktime = s.ktime := rfl
@[simp] theorem State.setEng_aon (f : Fn) (e : FnEng) : (s.setEng f e).aon = s.aon := rfl
@[simp] theorem State.setEng_pins (f : Fn) (e : FnEng) : (s.setEng f e).pins = s.pins := rfl
@[simp] theorem State.setEng_pwr (f : Fn) (e : FnEng) : (s.setEng f e).pwr = s.pwr := rfl
@[simp] theorem State.setEng_mode (f : Fn) (e : FnEng) : (s.setEng f e).mode = s.mode := rfl
@[simp] theorem State.setEng_boot (f : Fn) (e : FnEng) : (s.setEng f e).boot = s.boot := rfl
@[simp] theorem State.setEng_flint (f : Fn) (e : FnEng) : (s.setEng f e).flint = s.flint := rfl
@[simp] theorem State.setEng_img (f : Fn) (e : FnEng) : (s.setEng f e).img = s.img := rfl
@[simp] theorem State.setEng_spi (f : Fn) (e : FnEng) : (s.setEng f e).spi = s.spi := rfl
@[simp] theorem State.setEng_tw (f : Fn) (e : FnEng) : (s.setEng f e).tw = s.tw := rfl
@[simp] theorem State.setEng_fns (f : Fn) (e : FnEng) : (s.setEng f e).fns = s.fns.set f e := rfl
@[simp] theorem State.setEng_plans (f : Fn) (e : FnEng) : (s.setEng f e).plans = s.plans := rfl
@[simp] theorem State.setEng_sched (f : Fn) (e : FnEng) : (s.setEng f e).sched = s.sched := rfl
@[simp] theorem State.setEng_fe (f : Fn) (e : FnEng) : (s.setEng f e).fe = s.fe := rfl
@[simp] theorem State.setEng_fm (f : Fn) (e : FnEng) : (s.setEng f e).fm = s.fm := rfl
@[simp] theorem State.setEng_dab (f : Fn) (e : FnEng) : (s.setEng f e).dab = s.dab := rfl
@[simp] theorem State.setEng_lf (f : Fn) (e : FnEng) : (s.setEng f e).lf = s.lf := rfl
@[simp] theorem State.setEng_time (f : Fn) (e : FnEng) : (s.setEng f e).time = s.time := rfl
@[simp] theorem State.setEng_edf (f : Fn) (e : FnEng) : (s.setEng f e).edf = s.edf := rfl
@[simp] theorem State.setEng_ap (f : Fn) (e : FnEng) : (s.setEng f e).ap = s.ap := rfl
@[simp] theorem State.setEng_bph (f : Fn) (e : FnEng) : (s.setEng f e).bph = s.bph := rfl
@[simp] theorem State.setEng_capt (f : Fn) (e : FnEng) : (s.setEng f e).capt = s.capt := rfl
@[simp] theorem State.setEng_twin (f : Fn) (e : FnEng) : (s.setEng f e).twin = s.twin := rfl
@[simp] theorem State.setEng_hlt (f : Fn) (e : FnEng) : (s.setEng f e).hlt = s.hlt := rfl
@[simp] theorem State.setEng_hostOut (f : Fn) (e : FnEng) : (s.setEng f e).hostOut = s.hostOut := rfl
@[simp] theorem State.setEng_freeCtr (f : Fn) (e : FnEng) : (s.setEng f e).freeCtr = s.freeCtr := rfl
@[simp] theorem State.setEng_pending (f : Fn) (e : FnEng) : (s.setEng f e).pending = s.pending := rfl

@[simp] theorem State.setPlan_variantFL (f : Fn) (e : PlanEng) : (s.setPlan f e).variantFL = s.variantFL := rfl
@[simp] theorem State.setPlan_regs (f : Fn) (e : PlanEng) : (s.setPlan f e).regs = s.regs := rfl
@[simp] theorem State.setPlan_cnts (f : Fn) (e : PlanEng) : (s.setPlan f e).cnts = s.cnts := rfl
@[simp] theorem State.setPlan_latches (f : Fn) (e : PlanEng) : (s.setPlan f e).latches = s.latches := rfl
@[simp] theorem State.setPlan_mem (f : Fn) (e : PlanEng) : (s.setPlan f e).mem = s.mem := rfl
@[simp] theorem State.setPlan_ktime (f : Fn) (e : PlanEng) : (s.setPlan f e).ktime = s.ktime := rfl
@[simp] theorem State.setPlan_aon (f : Fn) (e : PlanEng) : (s.setPlan f e).aon = s.aon := rfl
@[simp] theorem State.setPlan_pins (f : Fn) (e : PlanEng) : (s.setPlan f e).pins = s.pins := rfl
@[simp] theorem State.setPlan_pwr (f : Fn) (e : PlanEng) : (s.setPlan f e).pwr = s.pwr := rfl
@[simp] theorem State.setPlan_mode (f : Fn) (e : PlanEng) : (s.setPlan f e).mode = s.mode := rfl
@[simp] theorem State.setPlan_boot (f : Fn) (e : PlanEng) : (s.setPlan f e).boot = s.boot := rfl
@[simp] theorem State.setPlan_flint (f : Fn) (e : PlanEng) : (s.setPlan f e).flint = s.flint := rfl
@[simp] theorem State.setPlan_img (f : Fn) (e : PlanEng) : (s.setPlan f e).img = s.img := rfl
@[simp] theorem State.setPlan_spi (f : Fn) (e : PlanEng) : (s.setPlan f e).spi = s.spi := rfl
@[simp] theorem State.setPlan_tw (f : Fn) (e : PlanEng) : (s.setPlan f e).tw = s.tw := rfl
@[simp] theorem State.setPlan_fns (f : Fn) (e : PlanEng) : (s.setPlan f e).fns = s.fns := rfl
@[simp] theorem State.setPlan_plans (f : Fn) (e : PlanEng) : (s.setPlan f e).plans = s.plans.set f e := rfl
@[simp] theorem State.setPlan_sched (f : Fn) (e : PlanEng) : (s.setPlan f e).sched = s.sched := rfl
@[simp] theorem State.setPlan_fe (f : Fn) (e : PlanEng) : (s.setPlan f e).fe = s.fe := rfl
@[simp] theorem State.setPlan_fm (f : Fn) (e : PlanEng) : (s.setPlan f e).fm = s.fm := rfl
@[simp] theorem State.setPlan_dab (f : Fn) (e : PlanEng) : (s.setPlan f e).dab = s.dab := rfl
@[simp] theorem State.setPlan_lf (f : Fn) (e : PlanEng) : (s.setPlan f e).lf = s.lf := rfl
@[simp] theorem State.setPlan_time (f : Fn) (e : PlanEng) : (s.setPlan f e).time = s.time := rfl
@[simp] theorem State.setPlan_edf (f : Fn) (e : PlanEng) : (s.setPlan f e).edf = s.edf := rfl
@[simp] theorem State.setPlan_ap (f : Fn) (e : PlanEng) : (s.setPlan f e).ap = s.ap := rfl
@[simp] theorem State.setPlan_bph (f : Fn) (e : PlanEng) : (s.setPlan f e).bph = s.bph := rfl
@[simp] theorem State.setPlan_capt (f : Fn) (e : PlanEng) : (s.setPlan f e).capt = s.capt := rfl
@[simp] theorem State.setPlan_twin (f : Fn) (e : PlanEng) : (s.setPlan f e).twin = s.twin := rfl
@[simp] theorem State.setPlan_hlt (f : Fn) (e : PlanEng) : (s.setPlan f e).hlt = s.hlt := rfl
@[simp] theorem State.setPlan_hostOut (f : Fn) (e : PlanEng) : (s.setPlan f e).hostOut = s.hostOut := rfl
@[simp] theorem State.setPlan_freeCtr (f : Fn) (e : PlanEng) : (s.setPlan f e).freeCtr = s.freeCtr := rfl
@[simp] theorem State.setPlan_pending (f : Fn) (e : PlanEng) : (s.setPlan f e).pending = s.pending := rfl

end Sys2Proof.Machine
end

