-- ==== Sys2Proof/Laws/Ops.lean ====
section
/-! SUPPORT. What the operations over registers, memory and engines do: a read after a write, what a write leaves, and that
every memory operation keeps the canonical form. -/

set_option Elab.async false

namespace Sys2Proof.Machine

variable (s : State)

/-! ### Registers -/

theorem State.reg_setReg {s : State} (h : Sparse.wf resetWord s.regs = true) (k : Nat) (w : Word) :
    (s.setReg k w).reg k = w :=
  Sparse.get_put_same resetWord k w h

theorem State.reg_setReg_ne {k m : Nat} (w : Word) (h : m ≠ k) : (s.setReg k w).reg m = s.reg m :=
  Sparse.get_put_ne resetWord w h s.regs

theorem State.reg_put_ne {x : Fld} {k : Nat} (v : Nat) (h : k ≠ x.key) : (s.put x v).reg k = s.reg k :=
  s.reg_setReg_ne _ h

/-- A field of another register reads as before. -/
theorem State.get_put_ne {x y : Fld} (v : Nat) (h : y.key ≠ x.key) : (s.put x v).get y = s.get y := by
  unfold State.get
  rw [s.reg_put_ne v h]

/-- A register that is reset holds its reset value, any other what it held. -/
theorem State.reg_resetRegs (p : Nat → Bool) (k : Nat) :
    (s.resetRegs p).reg k = if p k then resetWord k else s.reg k :=
  Sparse.get_drop resetWord p k s.regs

/-! ### Memory -/

theorem State.byte_setByte {s : State} (h : Memory.wf s) (a : Nat) (b : Byte) : (s.setByte a b).byte a = b :=
  Sparse.get_put_same memDefault a b h

theorem State.byte_setByte_ne {a c : Nat} (b : Byte) (h : c ≠ a) : (s.setByte a b).byte c = s.byte c :=
  Sparse.get_put_ne memDefault b h s.mem

/-- Bytes outside the ones written read as before. -/
theorem State.byte_setBytes_out {c : Nat} :
    ∀ (l : List Byte) (s : State) (a : Nat), c < a ∨ a + l.length ≤ c → (s.setBytes a l).byte c = s.byte c
  | [], _, _, _ => rfl
  | b :: l, s, a, h => by
    rw [State.setBytes, State.byte_setBytes_out l _ _ (by simp at h; omega), s.byte_setByte_ne b (by simp at h; omega)]

theorem State.byte_dropMem (p : Nat → Bool) (a : Nat) :
    (s.dropMem p).byte a = if p a then memDefault a else s.byte a :=
  Sparse.get_drop memDefault p a s.mem

/-! ### The canonical form of memory is kept -/

theorem Memory.wf_setByte {s : State} (h : Memory.wf s) (a : Nat) (b : Byte) : Memory.wf (s.setByte a b) :=
  Sparse.wf_put memDefault a b h

theorem Memory.wf_setBytes : ∀ (l : List Byte) {s : State} (a : Nat), Memory.wf s → Memory.wf (s.setBytes a l)
  | [], _, _, h => h
  | b :: l, _, a, h => Memory.wf_setBytes l (a + 1) (Memory.wf_setByte h a b)

theorem Memory.wf_dropMem {s : State} (h : Memory.wf s) (p : Nat → Bool) : Memory.wf (s.dropMem p) :=
  Sparse.wf_drop memDefault p h

/-- Each byte written reads as written. -/
theorem State.byte_setBytes (l : List Byte) {s : State} (a i : Nat) (h : i < l.length) (hm : Memory.wf s) :
    (s.setBytes a l).byte (a + i) = l[i] := by
  induction l generalizing s a i with
  | nil => simp at h
  | cons b l ih =>
    rw [State.setBytes]
    cases i with
    | zero =>
      rw [State.byte_setBytes_out l _ _ (Or.inl (by omega))]
      exact State.byte_setByte hm a b
    | succ i =>
      rw [show a + (i + 1) = a + 1 + i by omega, ih (a + 1) i (by simpa using h) (Memory.wf_setByte hm a b)]
      rfl

/-! ### Engines of the functions -/

@[simp] theorem PerFn.get_set {α : Type} (p : PerFn α) (f : Fn) (a : α) : (p.set f a).get f = a := by
  cases f <;> rfl

theorem PerFn.get_set_ne {α : Type} (p : PerFn α) {f g : Fn} (a : α) (h : g ≠ f) : (p.set f a).get g = p.get g := by
  cases f <;> cases g <;> first | rfl | exact absurd rfl h

@[simp] theorem State.eng_setEng (f : Fn) (e : FnEng) : (s.setEng f e).eng f = e := PerFn.get_set _ f e

theorem State.eng_setEng_ne {f g : Fn} (e : FnEng) (h : g ≠ f) : (s.setEng f e).eng g = s.eng g :=
  PerFn.get_set_ne _ e h

@[simp] theorem State.plan_setPlan (f : Fn) (e : PlanEng) : (s.setPlan f e).plan f = e := PerFn.get_set _ f e

theorem State.plan_setPlan_ne {f g : Fn} (e : PlanEng) (h : g ≠ f) : (s.setPlan f e).plan g = s.plan g :=
  PerFn.get_set_ne _ e h

end Sys2Proof.Machine
end

