-- ==== Sys2Proof/WellFormed.lean ====
section
/-! DEFINITION. Well-formed commands: every operand that the outside world supplies lies in the range the spec gives it.
`exec` is defined on every command, well-formed or not. -/

namespace Sys2Proof

/-- A measurement that its 16-bit register holds. -/
def fits (v : Nat) : Bool := decide (v < 0x10000)

/-- A signed measurement that its 16-bit register holds. -/
def isCode (v : Int) : Bool := decide (-0x8000 ≤ v) && decide (v < 0x8000)

/-- A register address in the window of a function (R168). -/
def isOff (off : Nat) : Bool := decide (off < 0x100)

/-- A stream id 0x001 to 0xFFE and an object id of 16 bits (R379). -/
def isObj (stream obj : Nat) : Bool := decide (0 < stream) && decide (stream < 0xFFF) && decide (obj < 0x10000)

/-- The cause of an alternative-frequency search: 1 weak signal, 2 lost synchronisation (R309, R330). -/
def isCause (c : Nat) : Bool := c == 1 || c == 2

/-- The word that was late, where one was, is a word of the frame (R177). -/
def isLateWord (late : Option Nat) (words : Nat) : Bool :=
  match late with
  | some k => decide (k < words)
  | none => true

/-- A well-formed command. -/
def Instr.wf : Instr → Bool
  | .powerOnReset vbatMin => decide (vbatMin < 1950)
  | .powerOnResetRelease => true
  | .strapSample _ _ => true
  | .pinReset _ => true
  | .vddioLoss => true
  | .vddioReturn => true
  | .vbatSample vbat vres _ _ _ => fits vbat && fits vres
  | .idleHoldStart => true
  | .chargeTargetReached => true
  | .startCondition => true
  | .preChargeStart => true
  | .preChargeRecompute => true
  | .depassGo _ => true
  | .depassAutoStart => true
  | .depassDeferredStart => true
  | .depassPulseEnd vmin vend => fits vmin && fits vend
  | .depassEarlyEnd vmin vend _ => fits vmin && fits vend
  | .passIdxMeasure rest now => fits rest && fits now
  | .ledgerCopy => true
  | .ledgerLoad _ => true
  | .estReset _ => true
  | .capacitanceSample => true
  | .leakageProbeStart => true
  | .leakageProbeEnd vres _ => fits vres
  | .burstOkLow => true
  | .burstOkHigh => true
  | .reservoirBrownout => true
  | .batSag => true
  | .reservoirFault _ _ => true
  | .x32Qualified => true
  | .x32Fail => true
  | .x32MissingEdge => true
  | .xoQualified _ => true
  | .xoFail => true
  | .xoRetry => true
  | .pllLock _ => true
  | .pllFail => true
  | .registerWrite _ off _ => isOff off
  | .fnErrWrite _ _ => true
  | .modeCmdShutdown _ => true
  | .modeCmdRestNow _ => true
  | .restEntry => true
  | .restEntryReversed cause => decide (1 ≤ cause) && decide (cause ≤ 6)
  | .slotWake => true
  | .spiWake => true
  | .hostResume _ => true
  | .housekeepWake => true
  | .wakeReady _ _ => true
  | .delayedWakeStart => true
  | .remoteWakeAttempt reason _ => decide (1 ≤ reason) && decide (reason ≤ 4)
  | .remoteWakeSample _ => true
  | .remoteWakeRetry _ => true
  | .wakeNStuck => true
  | .wakeNReleased => true
  | .coldBootStart _ _ _ _ _ => true
  | .imageBlockArrives idx => decide (idx < 256)
  | .signatureCheckDone => true
  | .martenRelease => true
  | .hedgehogFault => true
  | .qspiTimeout => true
  | .pikaGo => true
  | .pikaRelease => true
  | .pikaDeferredLoad _ => true
  | .bundleApply _ => true
  | .identityKeyGenerate ok pub => !ok || decide (pub.length = 32)
  | .bootReady => true
  | .hostLoadWait => true
  | .hostLoadRetry => true
  | .martenHeartbeatTimeout _ => true
  | .sysWdog => true
  | .imgRevoke _ _ => true
  | .fuseProgramDone _ => true
  | .imgPrefWrite _ _ => true
  | .imgStageCommit _ => true
  | .stagingSectorWritten _ => true
  | .stagingReadbackDone _ => true
  | .stagingPause => true
  | .stagingResume => true
  | .stagingJournalResume => true
  | .autoStage stream obj => isObj stream obj
  | .hostLoadBegin _ => true
  | .imageWindowWrite _ _ => true
  | .imageWindowVerifyDone => true
  | .imageWindowIdle => true
  | .spiWriteFrame cmd _ words bits _ => !cmd.getLsbD 7 && !cmd.getLsbD 3 && decide (words.length = (bits - 16) / 16)
  | .spiWriteCrcFrame cmd _ words _ bits _ => !cmd.getLsbD 7 && cmd.getLsbD 3 && decide (words.length = (bits / 8 - 3) / 2)
  | .spiReadFrame cmd _ late fell bits _ =>
    cmd.getLsbD 7 && !cmd.getLsbD 3 && isLateWord late ((bits - 1) / 16) && isLateWord fell ((bits - 1) / 16)
  | .spiReadCrcFrame cmd _ _ late fell bits _ =>
    cmd.getLsbD 7 && cmd.getLsbD 3 && isLateWord late ((bits - 1) / 24) && isLateWord fell ((bits - 1) / 24)
  | .spiNullFrame => true
  | .spiIdleTimeout => true
  | .hpCntClr _ => true
  | .twWriteFrame a _ _ _ => decide (a < 128)
  | .twWritePecFrame a _ _ _ => decide (a < 128)
  | .twPointerSet a _ _ => decide (a < 128)
  | .twReadFrame a _ _ _ => decide (a < 128)
  | .twStretchTimeout => true
  | .twWakeMatch a => decide (a < 128)
  | .twWakeRelease => true
  | .wakeStretch => true
  | .twAddressConfigWrite _ off _ => decide (0x80 ≤ off) && decide (off ≤ 0x85)
  | .attentionMessageForm _ => true
  | .attentionAttempt _ _ => true
  | .attentionRepeat _ => true
  | .attnFallback _ => true
  | .attnAckWrite _ _ => true
  | .arbLost _ => true
  | .twArbSr _ => true
  | .arbBackoffExpiry _ => true
  | .twrstPulse _ => true
  | .stuckBus _ _ => true
  | .twBusReset _ => true
  | .twCntClr _ => true
  | .fnReset _ _ => true
  | .freset _ _ => true
  | .fnResetDone _ => true
  | .partLock _ _ => true
  | .partDqWrite _ _ => true
  | .cmdGo _ _ => true
  | .cmdDone _ => true
  | .opTimeout _ => true
  | .nop _ => true
  | .dqDataRead _ => true
  | .dqFlush _ => true
  | .memAddrWrite _ _ => true
  | .memDataAccess _ _ _ => true
  | .planBegin _ => true
  | .wrec15Write _ _ => true
  | .planWidxWrite _ _ => true
  | .planSubmit _ => true
  | .planWithdraw _ => true
  | .admissionDone => true
  | .planSnapshotWrite => true
  | .readmission => true
  | .dayStart => true
  | .slotStart _ idx => decide (idx < 16)
  | .slotEnd _ idx => decide (idx < 16)
  | .listenStart _ => true
  | .listenStop _ => true
  | .listenMaxDuration _ => true
  | .listenResumed _ => true
  | .tuneJobStart temp => isCode temp
  | .tuneLock vtune => fits vtune
  | .tuneLockTimeout band => decide (band < 64)
  | .agcSettled rssi _ _ _ => isCode rssi
  | .lossOfLock => true
  | .listenJobRetry => true
  | .fesAfGo _ => true
  | .afCheck rssi _ => rssi.all isCode
  | .synApply _ => true
  | .rawFesWrite _ off _ => decide (0x8B ≤ off) && decide (off ≤ 0x8D)
  | .rawHold _ _ => true
  | .rawHoldClear _ => true
  | .calRun _ => true
  | .calDone _ _ _ temp bands => isCode temp && decide (bands.length = 5) && bands.all (fun b => decide (b < 64))
  | .autoPend => true
  | .autoCalStart => true
  | .floodUnknownTimeout => true
  | .relearn _ => true
  | .rfSurvey _ idx => decide (idx < 16)
  | .rdsSyncAcquired _ => true
  | .rdsSyncLost => true
  | .rdsBlock pos bits _ => decide (pos ≤ 4) && decide (bits ≤ 26)
  | .rdsGroup _ => true
  | .afListComplete => true
  | .afSearch cause rssis => isCause cause && rssis.all (fun r => r.all isCode)
  | .afSwitch _ => true
  | .afReturn => true
  | .afPeriodicCheck rssi => rssi.all isCode
  | .afRecall => true
  | .dabSync => true
  | .dabSyncLost => true
  | .dabFib _ _ bytes => decide (bytes.length = 30)
  | .dabReconfiguration => true
  | .dabPacket _ bytes => decide (bytes.length ∈ [24, 48, 72, 96])
  | .dabAfSearch cause rssis => isCause cause && rssis.all (fun r => r.all isCode)
  | .dabAfSwitch _ => true
  | .dabAfReturn => true
  | .dabFreqMeasure _ _ => true
  | .dabPikaTimeout => true
  | .lfMarker _ _ => true
  | .lfSecsyncLost => true
  | .lfFrame => true
  | .lfCarrierMeasure _ _ => true
  | .lfCarrierChange _ => true
  | .lftTplSelWrite _ _ => true
  | .lftTplCommit _ => true
  | .lftTplClear _ => true
  | .timeCandidateApply => true
  | .slewEnd => true
  | .timeDeferredApply => true
  | .timeSet _ => true
  | .aonTempSample temp => isCode temp
  | .x32PairWindow _ _ => true
  | .leapApplied => true
  | .leapClr _ => true
  | .modelReset _ => true
  | .timePulse => true
  | .timeLoss => true
  | .timeLossThrWrite _ _ => true
  | .rdsSegmentTimeout => true
  | .blockComplete stream obj _ _ => isObj stream obj
  | .decodeRetry stream obj _ _ => isObj stream obj
  | .objectAcceptance stream obj => isObj stream obj
  | .vanWindowStart => true
  | .edfSegmentStat => true
  | .hoardFlush => true
  | .hoardCompact => true
  | .objectExpiry stream obj => isObj stream obj
  | .wearLevelMove => true
  | .hoardQueryStatus _ => true
  | .hoardQueryRelease _ => true
  | .hoardQueryList _ => true
  | .hoardQueryUsage _ => true
  | .verifyObject _ => true
  | .edfErase _ => true
  | .vanClr _ => true
  | .edfFlush _ => true
  | .apArmWrite _ _ _ => true
  | .apPortStart _ => true
  | .apTxFrameEdge _ => true
  | .apRxFrameEdge _ _ => true
  | .apHardLoss _ _ samples => decide (0 < samples)
  | .ap0WptrWrite _ _ => true
  | .ringRst _ _ => true
  | .apPortStop _ => true
  | .bphLock _ _ => true
  | .bphLockLost _ _ => true
  | .bphSubframe _ _ _ _ _ _ => true
  | .bphBlockEnd => true
  | .bphRateMeasure _ => true
  | .bphOutFrame => true
  | .captureStart => true
  | .captureBlockWrite => true
  | .captRelWrite _ _ => true
  | .captureEnd => true
  | .stats _ => true
  | .snippet => true
  | .spill => true
  | .spillDel _ => true
  | .captureNow _ => true
  | .twinEnWrite _ _ => true
  | .undecidedTimeout => true
  | .heartbeatEmit => true
  | .twinHbPulse _ => true
  | .hbStuck => true
  | .takeoverDue => true
  | .claim _ => true
  | .claimingEnd => true
  | .checkpointBuild _ => true
  | .ckptNow _ => true
  | .chunkSend _ => true
  | .twinFrameReceived bytes _ => decide (0 < bytes.length)
  | .partialSetTimeout => true
  | .checkpointConfigCopy => true
  | .twinSwap _ => true
  | .swapFailed => true
  | .standbySelftest mask => decide (mask < 256)
  | .healthSample => true
  | .sampleNow _ => true
  | .replaceClr _ => true
  | .svcStart _ => true
  | .healthReport f sig => decide (sig = []) || decide (sig.length = if f = .f0 then 64 else 16)
  | .selftest _ mask _ => decide (mask < 256)
  | .signRecord _ => true
  | .busDeadRelease => true
  | .baselineEntryDrop _ => true
  | .afBanEnd _ => true
  | .dabAfBanEnd _ => true
  | .dabAfPeriodicCheck rssi => rssi.all isCode
  | .dabAfRecall => true
  | .doneListExpiry stream obj => isObj stream obj

end Sys2Proof
end

