-- ==== Sys2Proof/Tests/Slice0.lean ====
section
/-! SUPPORT. Tests: small steps on small states, a term that each check of well-formedness refuses, and for every statement
with hypotheses states and operands that meet them. -/

set_option Elab.async false

namespace Sys2Proof.Tests

open Sys2Proof Sys2Proof.Machine R

/-- A state with some register fields set. -/
def st (s : State) (l : List (Fld × Nat)) : State := l.foldl (fun s e => s.put e.1 e.2) s

/-- The block after a trusted boot: READY, Marten running, MATCH mode, nothing active. -/
def up : State :=
  st { State.reset with
    pins := { Pins.start with porAsserted := false }, mode := { ModeEng.start with ready := true },
    boot := { Boot.start with hedgehog := true, cause := 3, marten := true } }
    [(MODE.CUR, 2), (MODE.AWAKE, 1), (BOOT_STAT.STAGE, 3), (VRES_MEAS.w, 2500), (CLK_STAT.X32_OK, 1)]

/-- The same block in a rest. -/
def rest : State :=
  st { up with mode := { ModeEng.start with resting := true } } [(MODE.AWAKE, 0), (MODE.RET, 0)]

/-- The same block with a good time. -/
def timed : State := { up with time := { TimeEng.start with bound := some 0, src := 3 } }

/-- Bytes of an image header area at an address: magic, version, kind, signer, block size, one block, HW range. -/
def header (s : State) (a kind : Nat) : State :=
  (((s.setBytes a [0x4B, 0x52, 0x4B, 0x4D, 0x01, BitVec.ofNat 8 kind, 0, 0]).setBytes (a + 0x10) [0x0C, 0, 0x0C, 0]).setBytes
    (a + 0x18) [0, 0x10, 0, 0]).setBytes (a + 0x1C) [1, 0]

/-- Images in slot A and in the window, a bundle behind slot A's Marten image. -/
def flashUp : State := header up 0x800000 1
def bundleUp : State := header flashUp 0x802000 4
def winUp : State := header up 0x400000 1

/-- An issuer's public key and its hash, and its signatures of the image header below and of an IMAGE object without a body:
made outside Lean for a private key of this test. -/
def pubKey : Nat :=
  0x471C3E758C4904285BBA7E53118ED0F524ADEB0757D25BD2F8E7B0D76DFA714CDD520F7ACA8A8B917ACC37F51DE8F0C9BBE3AD858382E702DC25A12D09F7A858
def keyHash : List Byte := Crypto.beBytes 0xB3D283416A8E6401D39A988F2E469A12968DC63C4387A3F2C67338AD14A1E6D0 32
def blockHash : Nat := 0x2AC115B5655983639D8C8EA5BCE61F787EC7330CD56848FF5D86924728823B17
def imageSig : Nat :=
  0x7B4E0F0A6F5F6EC8438FBD83726ACF5D65C8AF9AFA7D98C914D62FC888150FD352ECFF94B9B870C2554C0C3ABC6352EFF067550B97BB33C4B1E8169D885BBDCB
def objSig : Nat :=
  0x1779850BC6A54C232A2D8B2802210BE39219CEA3F20D860E86B3D72636357F641F045886E1EEE5AD2CCA2B0C17B05B5A80E65FBBEACFCCF779831567A5A30EAC

/-- Flint knows the issuer. -/
def withIssuer (s : State) : State := { s with flint := { s.flint with hashes := [keyHash] } }

/-- A signed bundle of one block at an address: one entry, VRES_IDLE = 0x50. -/
def signed (a : Nat) (s : State) : State :=
  (((((header (withIssuer s) a 4).setBytes (a + 0x200) (Crypto.beBytes blockHash 32)).setBytes (a + 0xA00)
    (Crypto.beBytes pubKey 64)).setBytes (a + 0xA40) (Crypto.beBytes imageSig 64)).setBytes (a + 0x1000) [0x00, 0x03, 0x84]).setBytes
    (a + 0x1004) [0x50, 0x00]

/-- A boot from slot A, all loaded, with the signed bundle. -/
def bundleRunUp : State :=
  { st (signed 0x802000 flashUp) [(BOOT_STAT.STAGE, 2)] with boot := { up.boot with attempt := some (0, true), loaded := true } }

/-- A TIME watch on LF 77.5 kHz: start second 4, duration 50 s, slack 100 s. -/
def timeRec : List Word := [0x0001, 0, 0x2EBC, 0x1001, 4, 0, 0, 0, 0, 0, 50, 0, 100, 0, 0, 0]

/-- F1 has the plan, and its one occurrence is placed. -/
def planned : State :=
  { up with
    plans := ⟨PlanEng.start, ⟨[], [⟨timeRec, 0x4000000, none⟩], none⟩, PlanEng.start, PlanEng.start⟩,
    sched := { Sched.start with timeline := [⟨.f1, 0, 0x4000000, 0x4000000, 0x9000000⟩] } }

/-- The occurrence runs. -/
def run0 : Run := ⟨.f1, 0, 0x4000000, 0x9000000, false⟩
def runningUp : State := { planned with sched := { planned.sched with running := [run0] } }

/-- F's mailbox op is executing. -/
def opUp (f : Fn) (code : Nat) (a : List Word) : State := up.setEng f { FnEng.start with op := some ⟨code, a, 0, none⟩ }

/-- F1 listens on FM 98.0 MHz, paused. -/
def listenUp : State :=
  { up with plans := ⟨PlanEng.start, ⟨[], [], some ⟨0x20017CDC, 60, 1, 0x40, 0, true⟩⟩, PlanEng.start, PlanEng.start⟩ }

/-- A capture of F0 and a reception on a KFC. -/
def job0 : Job := ⟨[.f0], false, 1, 0, 0, 0, 0, 0, 0x1000000, 0⟩
def past0 : Past := ⟨job0, [], none, 0, 31, 0⟩
def rxOf (kfc : Nat) : Rx := ⟨kfc, kfc, 0x40, [], false, false⟩
def rxUp (kfc : Nat) : State := { up with fe := { Fe.start with rx := some (rxOf kfc) } }

/-- F1's running occurrence is of another record. -/
def runOf (w : List Word) (s : State) : State :=
  { s with
    plans := ⟨PlanEng.start, ⟨[], [⟨w, 0x4000000, none⟩], none⟩, PlanEng.start, PlanEng.start⟩,
    sched := { Sched.start with running := [run0] } }

/-- A SURVEY of one FM channel, measured. -/
def surveyRec : List Word := [0x0007, 0, 0x7CDC, 0x2001, 4, 0, 0, 0, 0, 0, 50, 0, 100, 100, 1, 0]
def surveyUp : State := runOf surveyRec { up with fe := { Fe.start with survey := [5] } }

/-- Receptions settled on FM, DAB and LF. -/
def fmUp : State := st (rxUp 0x20017CDC) [(FES_STAT.JOB, 5)]
def dabUp : State := st (rxUp 0x3003A300) [(FES_STAT.JOB, 5)]
def lfUp : State := st (rxUp 0x10012EBC) [(FES_STAT.JOB, 5)]

/-- An AF_WATCH of F1 runs on the FM, and on the DAB, reception. -/
def afRec : List Word := [0x0005, 0, 0x7CDC, 0x2001, 4, 0, 0, 0, 0, 0, 50, 0, 100, 0, 0, 0]
def afDabRec : List Word := [0x0005, 0, 0xA300, 0x3003, 4, 0, 0, 0, 0, 0, 50, 0, 100, 0, 0, 0]
def followUp : State := runOf afRec fmUp
def dabFollowUp : State := runOf afDabRec dabUp

/-- A legal LF template of ten seconds, and the same in the edit window. -/
def lfTpl : List Word := [0x8A00, 0x2EBC, 0x0001, 0x0A14, 0x1E28, 0x323C, 0x5064, 0, 0, 0, 0, 0, 0, 0, 0, 0]
def tplEdit : List (Fld × Nat) := (List.range 16).map (fun i => (LFT_TPL.w i, (lfTpl.getD i 0).toNat))

/-- A held IMAGE object in the object store, its bytes a header alone; `n` is its state: 1 collecting, 2 held. -/
def imgObj (n : Nat) : State :=
  { (st up [(EDF_CFG.BCAST_EN, 1)]).setBytes 0xA10000 (4 :: List.replicate 31 0) with
    edf := { Edf.start with objs := [⟨1, 7, 4, 0, [⟨0, 3, 3, [], true, 0⟩], n, 0, if n = 2 then [.f0] else [], n == 2, [], .f0,
      some (0x210000, 1), 0, false⟩] } }
def imgUp : State := header (imgObj 2) 0xA10020 1

/-- The same object with its issuer's key and a signature. -/
def signedObj (sig : Nat) : State :=
  ((withIssuer (imgObj 1)).setBytes 0xA10020 (Crypto.beBytes pubKey 64)).setBytes 0xA10060 (Crypto.beBytes sig 64)

/-- A part of a charging phase that has ended, a leakage probe under way, a rest whose tag stands, and a LISTEN that waits. -/
def capUp : State := { up with pwr := { Pwr.start with partDone := some ⟨40, 2000, 2400, 2500⟩ } }
def leakUp : State := { st rest [(PWR_STAT.LEAK_PROBE, 1), (LEAK_WIN.w, 900)] with pwr := { Pwr.start with probeV := 2500 } }
def wakeUp : State := { rest with mode := { rest.mode with waking := some 2 } }
def tagUp : State := { wakeUp with flint := { wakeUp.flint with tag := some wakeUp.tagNow } }
def lisUp : State := st (opUp .f0 0xB [0x7CDC, 0x2001, 60, 1, 0, 0]) [(VRES_MEAS.w, 3500), (RES_C_EST.w, 20000)]

/-- F0's draft of one TIME watch waits for its admission. -/
def passUp : State :=
  { st up [(VBAT_MEAS.w, 3600), (VRES_MEAS.w, 3500), (RES_C_EST.w, 20000)] with
    plans := ⟨⟨[timeRec], [], none⟩, PlanEng.start, PlanEng.start, PlanEng.start⟩,
    sched := { Sched.start with queue := [.f0] } }

/-- What an admission that passes gives. -/
def passOf : Verdict → List Placed × List (Placed × Nat × ℚ × ℚ) × Nat
  | .passed l cs c => (l, cs, c)
  | .refused .. => ([], [], 0)

/-- Entries below an address do not matter to what is read from it on. -/
theorem get_dropWhile {α : Type} (d : Nat → α) (l : List (Nat × α)) (a k : Nat) (h : a ≤ k) :
    Sparse.get d l k = Sparse.get d (l.dropWhile (fun e => decide (e.1 < a))) k := by
  induction l with
  | nil => rfl
  | cons e l ih =>
    by_cases he : e.1 < a
    · have hk : k ≠ e.1 := by omega
      simp [Sparse.get, he, hk, ih]
    · simp [he]

theorem bytes_dropWhile (s : State) (a b n : Nat) (h : a ≤ b) :
    s.bytes b n = ({ s with mem := s.mem.dropWhile (fun e => decide (e.1 < a)) } : State).bytes b n := by
  induction n generalizing b with
  | zero => rfl
  | succ n ih =>
    rw [State.bytes, State.bytes, ih (b + 1) (by omega)]
    exact congrArg (· :: _) (get_dropWhile memDefault s.mem a b h)

/-- The bundle's image verifies (R117): its head, its signature, and the hash of its one block of 4096 bytes. -/
theorem bundle_head : bundleRunUp.headFault 0x802000 4 = 0 := by decide +kernel
theorem bundle_signature : bundleRunUp.signFault 0x802000 = 0 := by decide +kernel
theorem bundle_block : bundleRunUp.blockGood 0x802000 0 = true := by
  rw [State.blockGood, bytes_dropWhile _ 0x803000 _ _ (by decide)]
  decide +kernel
theorem bundle_verifies : bundleRunUp.imageFault (bundleRunUp.bundleBase (slotBase 0)) 4 = 1 := by
  have hb : bundleRunUp.bundleBase (slotBase 0) = 0x802000 := by decide +kernel
  have hn : bundleRunUp.manBlocks 0x802000 = 1 := by decide +kernel
  rw [hb, State.imageFault, bundle_head, bundle_signature, hn]
  simp [List.range_succ, bundle_block]

/-! ### Well-formedness refuses an operand out of its range -/

theorem test_wf_measurements :
    (Instr.powerOnReset 1950).wf = false ∧ (Instr.vbatSample 0x10000 0 0 0 0).wf = false ∧
    (Instr.vbatSample 0 0x10000 0 0 0).wf = false ∧ (Instr.depassPulseEnd 0x10000 0).wf = false ∧
    (Instr.depassPulseEnd 0 0x10000).wf = false ∧ (Instr.depassEarlyEnd 0x10000 0 1).wf = false ∧
    (Instr.depassEarlyEnd 0 0x10000 1).wf = false ∧ (Instr.passIdxMeasure 0x10000 0).wf = false ∧
    (Instr.passIdxMeasure 0 0x10000).wf = false ∧ (Instr.leakageProbeEnd 0x10000 1).wf = false ∧
    (Instr.tuneJobStart 0x8000).wf = false ∧ (Instr.tuneLockTimeout 64).wf = false ∧
    (Instr.tuneLock 0x10000).wf = false ∧ (Instr.agcSettled (-0x8001) 0 0 0).wf = false ∧
    (Instr.afCheck (some 0x8000) 0).wf = false ∧ (Instr.calDone 0 0 0 0x8000 []).wf = false ∧
    (Instr.calDone 0 0 0 0 [64]).wf = false ∧
    (Instr.aonTempSample (-0x8001)).wf = false ∧ (Instr.afPeriodicCheck (some 0x8000)).wf = false ∧
    (Instr.dabAfPeriodicCheck (some 0x8000)).wf = false ∧ (Instr.apHardLoss .ap0 true 0).wf = false := by decide

theorem test_wf_codes :
    (Instr.restEntryReversed 0).wf = false ∧ (Instr.restEntryReversed 7).wf = false ∧
    (Instr.remoteWakeAttempt 0 true).wf = false ∧ (Instr.remoteWakeAttempt 5 true).wf = false ∧
    (Instr.imageBlockArrives 256).wf = false ∧ (Instr.identityKeyGenerate true []).wf = false ∧
    (Instr.autoStage 0xFFF 1).wf = false ∧ (Instr.slotStart .f0 16).wf = false ∧
    (Instr.slotEnd .f1 16).wf = false ∧ (Instr.rfSurvey .f2 16).wf = false ∧
    (Instr.afSearch 3 []).wf = false ∧ (Instr.afSearch 1 [some 0x8000]).wf = false ∧
    (Instr.dabAfSearch 0 []).wf = false ∧ (Instr.dabAfSearch 1 [some 0x8000]).wf = false ∧
    (Instr.standbySelftest 256).wf = false ∧ (Instr.selftest .f0 256 0).wf = false ∧
    (Instr.healthReport .f0 [1]).wf = false := by decide

theorem test_wf_frames :
    (Instr.registerWrite .f0 256 0).wf = false ∧ (Instr.twAddressConfigWrite .f0 0x7F 0).wf = false ∧
    (Instr.twAddressConfigWrite .f0 0x86 0).wf = false ∧ (Instr.rawFesWrite .f0 0x8A 0).wf = false ∧
    (Instr.rawFesWrite .f0 0x8E 0).wf = false ∧ (Instr.spiWriteFrame 0x80 0 [] 16 .rise).wf = false ∧
    (Instr.spiWriteFrame 0x08 0 [] 16 .rise).wf = false ∧ (Instr.spiWriteFrame 0 0 [] 32 .rise).wf = false ∧
    (Instr.spiWriteCrcFrame 0x88 0 [] 0 24 .rise).wf = false ∧ (Instr.spiWriteCrcFrame 0 0 [] 0 24 .rise).wf = false ∧
    (Instr.spiWriteCrcFrame 8 0 [1] 0 24 .rise).wf = false ∧ (Instr.spiReadFrame 0 0 none none 32 .rise).wf = false ∧
    (Instr.spiReadFrame 0x88 0 none none 32 .rise).wf = false ∧ (Instr.spiReadFrame 0x80 0 (some 1) none 32 .rise).wf = false ∧
    (Instr.spiReadCrcFrame 0x80 0 0 none none 48 .rise).wf = false ∧ (Instr.spiReadCrcFrame 8 0 0 none none 48 .rise).wf = false ∧
    (Instr.spiReadCrcFrame 0x88 0 0 (some 1) none 48 .rise).wf = false ∧ (Instr.twWriteFrame 128 0 [] .stop).wf = false ∧
    (Instr.twWritePecFrame 128 0 [] .stop).wf = false ∧ (Instr.twPointerSet 128 0 .stop).wf = false ∧
    (Instr.twReadFrame 128 none 2 .stop).wf = false ∧ (Instr.twWakeMatch 128).wf = false ∧
    (Instr.twinFrameReceived [] 0).wf = false := by decide

theorem test_wf_receptions :
    (Instr.rdsBlock 5 0 0).wf = false ∧ (Instr.dabFib 0 true []).wf = false ∧
    (Instr.dabPacket true [1, 2]).wf = false ∧ (Instr.blockComplete 0 0 0 true).wf = false ∧
    (Instr.decodeRetry 1 0x10000 0 true).wf = false ∧ (Instr.objectAcceptance 0xFFF 0).wf = false ∧
    (Instr.objectExpiry 0 0).wf = false ∧ (Instr.doneListExpiry 0x1000 0).wf = false := by decide

theorem test_wf_accepts :
    (Instr.powerOnReset 1949).wf = true ∧ (Instr.spiWriteFrame 0x20 0x10 [0x1234] 32 .rise).wf = true ∧
    (Instr.spiReadCrcFrame 0x88 0 0 none none 48 .rise).wf = true ∧ (Instr.autoStage 0x123 1).wf = true ∧
    (Instr.remoteWakeAttempt 4 true).wf = true := by decide

/-! ### Values the spec works out -/

/-- Table 8.4, worked case 9.1, and the usual check value of the CRC-16 of R375. -/
theorem test_crc_values :
    crc8 [0x08, 0x7F, 0x00, 0x03] = 0x99 ∧ crc8 [0x20, 0x21, 0x10, 0x00, 0x40] = 0xD9 ∧
    crc16 [0x31, 0x32, 0x33, 0x34, 0x35, 0x36, 0x37, 0x38, 0x39] = 0x29B1 := by decide +kernel

/-- The examples of FIPS 180-4 ("abc") and FIPS 197 (appendix C.1), and NIST SP 800-38B (AES-128, 16 bytes). -/
theorem test_sha256 : Crypto.sha256 [0x61, 0x62, 0x63] =
    Crypto.beBytes 0xBA7816BF8F01CFEA414140DE5DAE2223B00361A396177A9CB410FF61F20015AD 32 := by decide +kernel

theorem test_aes :
    Crypto.aesEncrypt (Crypto.beBytes 0x000102030405060708090A0B0C0D0E0F 16) (Crypto.beBytes 0x00112233445566778899AABBCCDDEEFF 16) =
      Crypto.beBytes 0x69C4E0D86A7B0430D8CDB78070B4C55A 16 ∧
    Crypto.cmac (Crypto.beBytes 0x2B7E151628AED2A6ABF7158809CF4F3C 16) (Crypto.beBytes 0x6BC1BEE22E409F96E93D7E117393172A 16) =
      Crypto.beBytes 0x070A16B46B4D4144F79BDD9DD04A287C 16 := by decide +kernel

/-- The next state of a command that goes on. -/
def after (o : Host.Outcome State Fault Refusal) : State :=
  match o with
  | .next s => s
  | _ => State.reset

/-- Worked case 8.1, before order 1 and before order 3. -/
def case8 : State := st up [(MODE.CUR, 4), (INT_EN1.w.on 0, 8), (FN_SEQ.w.on 0, 5)]
def case8b : State := st case8 [(FN_SEQ.w.on 0, 7), (PAGE.w.on 0, 7), (HP_CFG.w, 0x0A01)]

theorem test_spi_write_crc :
    (after (execSpiWriteCrcFrame 0x08 0x7F [7] 0x85 40 .rise case8)).hostOut = [0x9050] ∧
    (after (execSpiWriteCrcFrame 0x08 0x7F [7] 0x85 40 .rise case8)).get (PAGE.w.on 0) = 7 := by decide +kernel

theorem test_spi_write_refused :
    (after (execSpiWriteFrame 0x00 0x81 [4] 32 .rise case8b)).hostOut = [0x9070] ∧
    (after (execSpiWriteFrame 0x00 0x81 [4] 32 .rise case8b)).get HP_EVT.w = 4 := by decide +kernel

theorem test_spi_read_crc :
    (after (execSpiReadCrcFrame 0x88 0x81 0x90 none none 48 .rise
      (after (execSpiWriteFrame 0x00 0x81 [4] 32 .rise case8b)))).hostOut = [0xB078, 0x0004, 0xFD] := by decide +kernel

/-- Worked case 12.1: D, N, FRAC and LO of 98.7 MHz. -/
theorem test_tune :
    let s := ({ up with fe := { Fe.start with bands := [0, 0, 7, 0, 0] } } : State).synTo 0x2001818C
    s.get SYN_DIV.w = 2 ∧ s.get SYN_N.w = 0x40 ∧ s.get SYN_FRAC_L.w = 0x4000 ∧ s.get SYN_FRAC_H.w = 0x000A ∧
    s.get SYN_LO_L.w = 0xC0F0 ∧ s.get SYN_LO_H.w = 0x05DF := by decide +kernel

/-! ### Each statement's hypotheses are met -/

theorem witness_ResetCommandsComplete :
    (∃ (s : State) (vbatMin : Nat), s.Canon ∧ 1800 ≤ vbatMin ∧ s.boot.cause ≠ 1) ∧
    (∃ (s : State) (vbatMin : Nat), s.Canon ∧ vbatMin < 1800) ∧
    (∃ (s : State), s.Canon ∧ s.pins.porAsserted = true) ∧
    (∃ (s : State) (role test : Bool), s.Canon ∧ s.pins.strapDue = true ∧ s.pins.porAsserted = false ∧
      s.get MODE.CUR ≠ 0) ∧
    (∃ (s : State) (lowUs : Nat), s.Canon ∧ 10 ≤ lowUs ∧ s.pins.porAsserted = false ∧ s.get MODE.CUR ≠ 0) ∧
    (∃ (s : State) (lowUs : Nat), s.Canon ∧ 10 ≤ lowUs ∧ s.pins.porAsserted = false ∧ s.get MODE.CUR = 0) ∧
    (∃ (s : State), s.Canon ∧ s.coreRuns = true ∧ s.boot.startWait = false) ∧
    (∃ (s : State), s.Canon ∧ s.pins.vddio = false) :=
  ⟨⟨up, 1900, by decide +kernel⟩,
    ⟨up, 1700, by decide +kernel⟩,
    ⟨State.reset, by decide +kernel⟩,
    ⟨{ up with pins := { up.pins with strapDue := true } }, true, false, by decide +kernel⟩,
    ⟨up, 10, by decide +kernel⟩,
    ⟨st up [(MODE.CUR, 0)], 10, by decide +kernel⟩,
    ⟨up, by decide +kernel⟩,
    ⟨{ up with pins := { up.pins with vddio := false } }, by decide +kernel⟩⟩

theorem witness_ChargerCommandsComplete :
    (∃ (s : State) (vbat vres chgUa sinkUa aonNa : Nat), s.Canon ∧ vbat < 0x10000 ∧ vres < 0x10000 ∧
      chgUa < 0x10000) ∧
    (∃ (s : State), s.Canon ∧ s.get PWR_STAT.CHG_STATE = 1 ∧ s.bit PWR_STAT.CHG_ON = false ∧
      s.get VRES_MEAS.w + 50 ≤ s.idleMv) ∧
    (∃ (s : State), s.Canon ∧ s.bit PWR_STAT.CHG_ON = true ∧ s.stopMv ≤ s.get VRES_MEAS.w) ∧
    (∃ (s : State), s.Canon ∧ s.boot.startWait = true ∧ s.pins.porAsserted = false ∧ 2300 ≤ s.get VRES_MEAS.w) ∧
    (∃ (s : State), s.Canon ∧ s.get PWR_STAT.CHG_STATE = 1 ∧ s.wantsCharge = true ∧ s.runsPlans = true ∧
      s.dormouse = true ∧ s.mode.delayed = none) ∧
    (∃ (s : State), s.Canon ∧ s.get PWR_STAT.CHG_STATE = 2 ∧ s.preHeld = false) ∧
    (∃ (s : State), s.Canon ∧ 40 ≤ s.pwr.zeroHold ∧ s.pwr.sagSet = false) ∧
    (∃ (s : State) (rise ms : Nat), s.Canon ∧ s.bit PWR_STAT.CHG_ON = true ∧ rise < 100 ∧
      4 * s.cEst / 10 ≤ s.iEff * ((ms : ℚ) / 1000)) ∧
    (∃ (s : State), s.Canon ∧ s.get VRES_MEAS.w + 50 < 2000 + 10 * s.get BURST_CFG.BURST_V) ∧
    (∃ (s : State), s.Canon ∧ 2000 + 10 * s.get BURST_CFG.BURST_V ≤ s.get VRES_MEAS.w ∧ s.burstQuiet = true) :=
  ⟨⟨up, 3600, 2500, 1000, 0, 900, by decide +kernel⟩,
    ⟨st up [(PWR_STAT.CHG_STATE, 1)], by decide +kernel⟩,
    ⟨st up [(PWR_STAT.CHG_STATE, 1), (PWR_STAT.CHG_ON, 1), (VRES_MEAS.w, 3000)], by decide +kernel⟩,
    ⟨{ st up [(VRES_MEAS.w, 2300)] with boot := { Boot.start with startWait := true } }, by decide +kernel⟩,
    ⟨{ st up [(PWR_STAT.CHG_STATE, 1)] with sched := { Sched.start with running := [run0] } }, by decide +kernel⟩,
    ⟨st up [(PWR_STAT.CHG_STATE, 2)], by decide +kernel⟩,
    ⟨{ up with pwr := { Pwr.start with zeroHold := 40 } }, by decide +kernel⟩,
    ⟨st up [(PWR_STAT.CHG_ON, 1)], 50, 1000000, by decide +kernel⟩,
    ⟨up, by decide +kernel⟩,
    ⟨st up [(VRES_MEAS.w, 9000)], by decide +kernel⟩⟩

theorem witness_DepassivationAndLedgerCommandsComplete :
    (∃ (s : State), s.Canon ∧ Serves s .f0 0x3 ∧ s.bit PWR_STAT.DEPASS_BUSY = false ∧
      s.bit PWR_STAT.DEPASS_PEND = false ∧ s.depassBlocked = false ∧ s.bit PWR_STAT.LEAK_PROBE = false) ∧
    (∃ (s : State), s.Canon ∧ s.bit DEPASS_CFG.DEPASS_AUTO = true ∧ s.pwr.autoDue = true ∧ s.dormouse = true ∧
      s.bit PWR_STAT.DEPASS_BUSY = false ∧ s.bit PWR_STAT.DEPASS_PEND = false ∧ s.depassBlocked = false ∧
      s.bit PWR_STAT.LEAK_PROBE = false ∧ s.depassFits = true) ∧
    (∃ (s : State), s.Canon ∧ s.bit PWR_STAT.DEPASS_PEND = true ∧ s.depassBlocked = false ∧
      s.bit PWR_STAT.LEAK_PROBE = false ∧ (s.pwr.pendAuto = false ∨ s.depassFits = true)) ∧
    (∃ (s : State) (vmin vend : Nat), s.Canon ∧ s.bit PWR_STAT.DEPASS_BUSY = true ∧ vmin < 0x10000 ∧ vend < 0x10000) ∧
    (∃ (s : State) (vmin vend ms : Nat), s.Canon ∧ s.bit PWR_STAT.DEPASS_BUSY = true ∧
      vmin < max 2000 (1700 + 10 * s.get VBAT_FLOOR.FLOOR) ∧ vend < 0x10000) ∧
    (∃ (s : State) (rest now : Nat), s.Canon ∧ s.bit PWR_STAT.CHG_ON = true ∧ rest < 0x10000) ∧
    (∃ (s : State), s.Canon ∧ s.flashFree = true) ∧
    (∃ (s : State), s.Canon ∧ Serves s .f0 0x3) ∧
    (∃ (s : State), s.Canon ∧ Serves s .f0 0x3 ∧ s.bit PART_STAT.LOCKED = false) ∧
    (∃ (s : State) (p : ChgPart) (q : ℚ), s.Canon ∧ s.pwr.partDone = some p ∧ 100 ≤ p.v1 - p.v0 ∧
      q = ((p.setPoint : ℚ) / 4000 - s.iLeak) * p.samples * 2500 / ((p.v1 - p.v0 : Nat) : ℚ) ∧
      (s.get RES_C_EST.w : ℚ) / 4 ≤ q ∧ q ≤ 4 * (s.get RES_C_EST.w : ℚ)) ∧
    (∃ (s : State), s.Canon ∧ s.mode.resting = true ∧ s.mode.waking = none ∧ s.dormouse = true ∧
      s.get PWR_STAT.CHG_STATE = 1 ∧ s.bit PWR_STAT.DEPASS_BUSY = false ∧
      s.dueWithin (1000 * s.get LEAK_WIN.w) = false) ∧
    (∃ (s : State) (vres secs : Nat) (q : ℚ), s.Canon ∧ s.bit PWR_STAT.LEAK_PROBE = true ∧ s.get MODE.CUR ≠ 0 ∧
      600 ≤ secs ∧ q = s.cEst * (((s.pwr.probeV : ℚ) - vres) / 1000) / secs * 100000000 ∧ 0 ≤ q ∧
      q ≤ 4 * (s.get RES_LEAK_EST.w : ℚ)) ∧
    (∃ (s : State) (vres secs : Nat), s.Canon ∧ s.bit PWR_STAT.LEAK_PROBE = true ∧ s.get MODE.CUR ≠ 0 ∧ secs < 600) :=
  ⟨⟨up, by decide +kernel⟩,
    ⟨{ st up [(DEPASS_CFG.DEPASS_AUTO, 1), (PASS_IDX.w, 5000)] with pwr := { Pwr.start with autoDue := true } },
      by decide +kernel⟩,
    ⟨st up [(PWR_STAT.DEPASS_PEND, 1)], by decide +kernel⟩,
    ⟨st up [(PWR_STAT.DEPASS_BUSY, 1)], 3000, 3100, by decide +kernel⟩,
    ⟨st up [(PWR_STAT.DEPASS_BUSY, 1)], 1990, 2000, 40, by decide +kernel⟩,
    ⟨st up [(PWR_STAT.CHG_ON, 1)], 3600, 3500, by decide +kernel⟩,
    ⟨up, by decide +kernel⟩,
    ⟨up, by decide +kernel⟩,
    ⟨up, by decide +kernel⟩,
    ⟨capUp, ⟨40, 2000, 2400, 2500⟩,
      (((40 : Nat) : ℚ) / 4000 - capUp.iLeak) * ((2000 : Nat) : ℚ) * 2500 / ((2500 - 2400 : Nat) : ℚ),
      by decide +kernel⟩,
    ⟨st rest [(PWR_STAT.CHG_STATE, 1)], by decide +kernel⟩,
    ⟨leakUp, 2400, 600, leakUp.cEst * (((leakUp.pwr.probeV : ℚ) - (2400 : Nat)) / 1000) / (600 : Nat) * 100000000,
      by decide +kernel⟩,
    ⟨leakUp, 2400, 10, by decide +kernel⟩⟩

theorem witness_ClockCommandsComplete :
    (∃ (s : State), s.Canon ∧ s.x32Starting = true) ∧
    (∃ (s : State), s.Canon ∧ s.x32Starting = true) ∧
    (∃ (s : State), s.Canon ∧ s.bit CLK_STAT.X32_OK = true ∧ s.get MODE.CUR ≠ 0) ∧
    (∃ (s : State) (us : Nat), s.Canon ∧ s.mode.xoTry = true ∧ s.coreRuns = true ∧ us < 0x10000) ∧
    (∃ (s : State), s.Canon ∧ s.mode.xoTry = true ∧ s.coreRuns = true) ∧
    (∃ (s : State), s.Canon ∧ s.coreRuns = true ∧ s.bit CLK_STAT.XO_OK = false) ∧
    (∃ (s : State) (hfrcErr : Int), s.Canon ∧ s.bit CLK_STAT.XO_OK = true ∧ s.coreRuns = true) ∧
    (∃ (s : State), s.Canon ∧ s.bit CLK_STAT.XO_OK = true ∧ s.bit CLK_STAT.PLL_LOCK = false ∧ s.coreRuns = true) :=
  ⟨⟨st up [(CLK_STAT.X32_OK, 0)], by decide +kernel⟩,
    ⟨st up [(CLK_STAT.X32_OK, 0)], by decide +kernel⟩,
    ⟨st up [(CLK_STAT.X32_OK, 1)], by decide +kernel⟩,
    ⟨{ up with mode := { up.mode with xoTry := true } }, 900, by decide +kernel⟩,
    ⟨{ up with mode := { up.mode with xoTry := true } }, by decide +kernel⟩,
    ⟨up, by decide +kernel⟩,
    ⟨st up [(CLK_STAT.XO_OK, 1)], (-12), by decide +kernel⟩,
    ⟨st up [(CLK_STAT.XO_OK, 1)], by decide +kernel⟩⟩

theorem witness_BootCommandsComplete :
    (∃ (s : State) (burrowOk secretOk prefOk cfgOk calOk : Bool), s.Canon ∧ s.boot.hedgehog = true ∧
      s.get MODE.CUR = 3 ∧ s.get BOOT_STAT.STAGE = 0 ∧ s.boot.startWait = false ∧ s.boot.attempt = none ∧
      2 < s.boot.cause ∧ s.boot.cause < 0x100) ∧
    (∃ (s : State) (idx slot : Nat), s.Canon ∧ s.streaming = true ∧ idx = s.boot.blocks.length ∧
      s.boot.attempt = some (slot, true) ∧ s.boot.sig = none) ∧
    (∃ (s : State) (slot : Nat), s.Canon ∧ s.boot.attempt = some (slot, true) ∧ s.boot.loaded = false ∧
      s.boot.sig = none ∧ s.boot.blocks = [] ∧ s.manBlocks (slotBase slot) ≠ 0 ∧ s.signFault (slotBase slot) = 0) ∧
    (∃ (s : State) (slot : Nat), s.Canon ∧ s.boot.attempt = some (slot, true) ∧ slot < 2 ∧ s.boot.loaded = false ∧
      s.boot.sig = none ∧ s.boot.order = [] ∧ s.signFault (slotBase slot) ≠ 0) ∧
    (∃ (s : State) (slot : Nat) (tr : Bool), s.Canon ∧ s.boot.attempt = some (slot, tr) ∧ s.boot.loaded = true ∧
      s.streaming = true) ∧
    (∃ (s : State) (slot : Nat) (tr : Bool), s.Canon ∧ s.boot.attempt = some (slot, tr) ∧ slot < 3 ∧
      s.boot.marten = false ∧ s.mayRelease slot tr = true) ∧
    (∃ (s : State) (slot : Nat), s.Canon ∧ s.boot.attempt = some (slot, true) ∧ s.boot.marten = true ∧
      s.boot.loaded = false) ∧
    (∃ (s : State) (pub : List Word) (slot : Nat), s.Canon ∧ pub.length = 32 ∧ s.boot.attempt = some (slot, true) ∧
      s.boot.marten = true ∧ s.boot.loaded = true ∧ s.get BOOT_STAT.STAGE = 2 ∧ s.flint.identBlank = true ∧
      s.flint.secretOk = true ∧ s.boot.identDone = false) ∧
    (∃ (s : State) (slot v : Nat), s.Canon ∧ s.boot.attempt = some (slot, true) ∧ s.boot.marten = true ∧
      s.boot.loaded = true ∧ s.get BOOT_STAT.STAGE = 2 ∧ s.boot.bundleDone = false ∧ s.boot.reload = false ∧
      s.boot.deep = false ∧ s.mode.resting = false ∧ s.hasBundle (slotBase slot) = true ∧
      s.imageFault (s.bundleBase (slotBase slot)) 4 = 1 ∧
      s.bytes (s.bundleBase (slotBase slot) + 0x1000) 3 = [0x00, 0x03, 0x84] ∧
      s.le (s.bundleBase (slotBase slot) + 0x1004) 2 = v ∧ v ≤ 160 ∧
      s.byte (s.bundleBase (slotBase slot) + 0x1008) = 0xFF) ∧
    (∃ (s : State) (slot : Nat) (readOk : Bool), s.Canon ∧ s.boot.attempt = some (slot, true) ∧ s.boot.marten = true ∧
      s.boot.loaded = true ∧ s.get BOOT_STAT.STAGE = 2 ∧ s.boot.bundleDone = false ∧ s.boot.reload = false ∧
      s.boot.deep = false ∧ s.mode.resting = false ∧ s.hasBundle (slotBase slot) = true ∧
      (readOk = false ∨ s.imageFault (s.bundleBase (slotBase slot)) 4 ≠ 1)) :=
  ⟨⟨{ st up [(MODE.CUR, 3), (BOOT_STAT.STAGE, 0)] with boot := { Boot.start with hedgehog := true, cause := 3 } },
      true, true, true, true, true, by decide +kernel⟩,
    ⟨{ up with boot := { up.boot with attempt := some (0, true) } }, 0, 0, by decide +kernel⟩,
    ⟨{ signed 0x800000 up with boot := { up.boot with attempt := some (0, true) } }, 0, by decide +kernel⟩,
    ⟨{ flashUp with boot := { up.boot with attempt := some (0, true) } }, 0, by decide +kernel⟩,
    ⟨{ st up [(BOOT_STAT.PIKA, 1)] with boot := { up.boot with attempt := some (0, true), loaded := true } }, 0, true,
      by decide +kernel⟩,
    ⟨{ up with boot := { up.boot with marten := false, attempt := some (1, false), loaded := true } }, 1, false,
      by decide +kernel⟩,
    ⟨{ up with boot := { up.boot with attempt := some (0, true) } }, 0, by decide +kernel⟩,
    ⟨{ st up [(BOOT_STAT.STAGE, 2)] with boot := { up.boot with attempt := some (0, true), loaded := true } },
      (List.replicate 32 7), 0, by decide +kernel⟩,
    ⟨bundleRunUp, 0, 0x50, by decide +kernel, by decide +kernel, by decide +kernel, by decide +kernel,
      by decide +kernel, by decide +kernel, by decide +kernel, by decide +kernel, by decide +kernel,
      by decide +kernel, bundle_verifies, by decide +kernel, by decide +kernel, by decide +kernel, by decide +kernel⟩,
    ⟨{ st bundleUp [(BOOT_STAT.STAGE, 2)] with boot := { up.boot with attempt := some (0, true), loaded := true } },
      0, false, by decide +kernel⟩⟩

theorem witness_BootEndsComplete :
    (∃ (s : State), s.Canon ∧ s.boot.marten = true ∧ s.get BOOT_STAT.PIKA = 1 ∧ s.boot.pikaGo = false ∧
      s.get IMG_EPOCH.MARTEN = s.get IMG_EPOCH.PIKA ∧ s.get IMG_EPOCH.MARTEN ≠ 0) ∧
    (∃ (s : State), s.Canon ∧ s.boot.marten = true ∧ s.get BOOT_STAT.PIKA = 1 ∧ s.boot.pikaGo = false ∧
      s.get IMG_EPOCH.MARTEN ≠ s.get IMG_EPOCH.PIKA) ∧
    (∃ (s : State), s.Canon ∧ s.boot.pikaVerified = true ∧ s.boot.pikaGo = true ∧ s.get BOOT_STAT.PIKA = 1 ∧
      s.bit CLK_STAT.PLL_LOCK = true ∧ s.pikaAllowed = true) ∧
    (∃ (s : State), s.Canon ∧ s.awake = true ∧ s.get BOOT_STAT.PIKA = 0 ∧ s.sourceStands = true ∧
      s.pikaAllowed = true ∧ s.bit BOOT_STAT.TRUSTED = true) ∧
    (∃ (s : State), s.Canon ∧ s.get MODE.CUR = 3 ∧ s.get BOOT_STAT.STAGE = 2 ∧ s.mode.resting = false ∧
      s.boot.reload = true) ∧
    (∃ (s : State) (slot : Nat) (tr : Bool), s.Canon ∧ s.get MODE.CUR = 3 ∧ s.get BOOT_STAT.STAGE = 2 ∧
      s.mode.resting = false ∧ s.boot.reload = false ∧ s.boot.attempt = some (slot, tr) ∧ s.bootDone = true) ∧
    (∃ (s : State), s.Canon ∧ s.boot.hedgehog = true ∧ s.get MODE.CUR = 3 ∧ s.get BOOT_STAT.STAGE = 1 ∧
      s.boot.attempt = none) ∧
    (∃ (s : State), s.Canon ∧ s.get BOOT_STAT.STAGE = 4 ∧ s.boot.attempt = none) ∧
    (∃ (s : State), s.Canon ∧ s.hlt.hbArmed = true ∧ s.boot.marten = true ∧ s.mode.resting = false ∧
      s.hlt.storms = [] ∧ s.get MODE.CUR ≠ 3) ∧
    (∃ (s : State), s.Canon ∧ s.hlt.hbArmed = true ∧ s.boot.marten = true ∧ s.mode.resting = false ∧
      s.hlt.storms = [] ∧ s.get MODE.CUR = 3) :=
  ⟨⟨st up [(BOOT_STAT.PIKA, 1), (IMG_EPOCH.MARTEN, 3), (IMG_EPOCH.PIKA, 3)], by decide +kernel⟩,
    ⟨st up [(BOOT_STAT.PIKA, 1), (IMG_EPOCH.MARTEN, 2), (IMG_EPOCH.PIKA, 3)], by decide +kernel⟩,
    ⟨{ st up [(BOOT_STAT.PIKA, 1), (CLK_STAT.PLL_LOCK, 1)] with boot := { up.boot with pikaVerified := true, pikaGo := true } },
      by decide +kernel⟩,
    ⟨st flashUp [(BOOT_STAT.TRUSTED, 1)], by decide +kernel⟩,
    ⟨{ st up [(MODE.CUR, 3), (BOOT_STAT.STAGE, 2)] with boot := { up.boot with reload := true } }, by decide +kernel⟩,
    ⟨{ st up [(MODE.CUR, 3), (BOOT_STAT.STAGE, 2)] with boot := { up.boot with attempt := some (0, false), loaded := true } },
      0, false, by decide +kernel⟩,
    ⟨st up [(MODE.CUR, 3), (BOOT_STAT.STAGE, 1)], by decide +kernel⟩,
    ⟨st flashUp [(BOOT_STAT.STAGE, 4)], by decide +kernel⟩,
    ⟨{ up with hlt := { Hlt.start with hbArmed := true } }, by decide +kernel⟩,
    ⟨{ st up [(MODE.CUR, 3)] with hlt := { Hlt.start with hbArmed := true } }, by decide +kernel⟩⟩

theorem witness_ImageCommandsComplete :
    (∃ (s : State) (v : Word), s.Canon ∧ Serves s .f0 0x6 ∧ legalWord .f0 IMG_REVOKE.w.key v = true ∧
      s.bit BOOT_STAT.TRUSTED = true ∧ s.bitOf FLINT_OTP.HASH_SET (v.toNat % 4) = true ∧
      s.bitOf FLINT_OTP.REVOKED (v.toNat % 4) = false ∧ s.runSigner ≠ v.toNat % 4 ∧
      (((List.range 4).any (fun j => j != v.toNat % 4 && (s.bitOf FLINT_OTP.HASH_SET j && !s.bitOf FLINT_OTP.REVOKED
      j))) = true) ∧ s.imgBusy = false) ∧
    (∃ (s : State) (i : Nat), s.Canon ∧ s.img.fuse = some i ∧ i < 4) ∧
    (∃ (s : State) (v : Word), s.Canon ∧ Serves s .f0 0x6 ∧ legalWord .f0 IMG_PREF.w.key v = true) ∧
    (∃ (s : State) (f : Fn) (args : List Word) (start base code target : Nat), s.Canon ∧
      (s.eng f).op = some ⟨7, args, start, none⟩ ∧ arg args 0 % 4 = 1 ∧ arg args 0 / 16 % 4 ≠ 3 ∧ s.imgBusy = false ∧
      target = s.targetOf (arg args 0 / 16 % 4) ∧ target ≠ s.get BOOT_STAT.SRC ∧
      s.imageAt (arg args 1 % 0x1000) (arg args 2) = some base ∧
      code = (s.stageCheck base (arg args 3) (arg args 0 / 0x100 % 2 == 1)).1) ∧
    (∃ (s : State) (stream obj base code : Nat), s.Canon ∧ s.bit IMG_CFG.AUTO_STAGE = true ∧
      s.imageAt stream obj = some base ∧ s.imgBusy = false ∧ s.autoTarget ≠ s.get BOOT_STAT.SRC ∧
      code = (s.stageCheck base (s.get IMG_BCAST.w) false).1) ∧
    (∃ (s : State) (src : Nat), s.Canon ∧ s.img.staging = true ∧ s.get IMG_STAGE.STATE = 2 ∧
      s.img.next < s.img.total ∧ s.stageSrc = some src) ∧
    (∃ (s : State) (src code : Nat), s.Canon ∧ s.img.staging = true ∧ s.get IMG_STAGE.STATE = 2 ∧
      s.img.next = s.img.total ∧ s.stageSrc = some src ∧ s.img.held = [] ∧
      code = (s.programAt (slotBase s.img.target) src).slotVerify (slotBase s.img.target)) ∧
    (∃ (s : State), s.Canon ∧ s.img.staging = true ∧ s.get IMG_STAGE.STATE = 2 ∧ s.slotRuns = true) ∧
    (∃ (s : State), s.Canon ∧ s.img.staging = true ∧ s.get IMG_STAGE.STATE = 3 ∧ s.slotRuns = false ∧
      s.tgtMv ≤ s.get VRES_MEAS.w) ∧
    (∃ (s : State), s.Canon ∧ s.img.journal = true ∧ s.img.staging = false ∧ s.mode.ready = true ∧
      s.boot.marten = true ∧ s.img.srcWin = false ∧ s.stageSrc.isSome = true) ∧
    (∃ (s : State) (f : Fn) (args : List Word) (start len : Nat), s.Canon ∧
      (s.eng f).op = some ⟨0xD, args, start, none⟩ ∧ s.hostLoading = true ∧ s.imgBusy = false ∧
      len = arg args 0 + 0x10000 * arg args 1 ∧ len ≠ 0 ∧ len % 4096 = 0 ∧ len ≤ 0x100000) ∧
    (∃ (s : State) (w : Word), s.Canon ∧ Serves s .f0 0x0 ∧ 0x400000 ≤ (s.eng .f0).memAddr ∧
      (s.eng .f0).memAddr < 0x500000 ∧ s.fget .f0 MEM_CTRL.WR = 1 ∧ s.img.winLen ≠ 0 ∧ s.get IMG_HL_STAT.STATE = 1 ∧
      s.bit IMG_HL_STAT.ACCEPT = true ∧ (s.eng .f0).memAddr = 0x400000 + s.img.winPos ∧
      (s.img.winPos + 2) % 0x1000 ≠ 0) ∧
    (∃ (s : State) (code : Nat), s.Canon ∧ s.img.winLen ≠ 0 ∧ s.get IMG_HL_STAT.STATE = 2 ∧
      s.bit IMG_HL_STAT.FORM = true ∧ s.img.held = [] ∧ code = s.slotVerify 0x400000) ∧
    (∃ (s : State) (code : Nat), s.Canon ∧ s.img.winLen ≠ 0 ∧ s.get IMG_HL_STAT.STATE = 2 ∧
      s.bit IMG_HL_STAT.FORM = false ∧ s.img.held = [] ∧ code = s.slotVerify 0x400000) ∧
    (∃ (s : State), s.Canon ∧ s.img.winLen ≠ 0 ∧ s.bit IMG_HL_STAT.FORM = true ∧ s.winWriting = false ∧
      s.img.held = []) :=
  ⟨⟨st up [(BOOT_STAT.TRUSTED, 1)], 0x5A01, by decide +kernel⟩,
    ⟨{ up with img := { Img.start with fuse := some 2 } }, 2, by decide +kernel⟩,
    ⟨up, 0x0101, by decide +kernel⟩,
    ⟨{ imgUp with fns := { imgUp.fns with f0 := { FnEng.start with op := some ⟨7, [0x101, 1, 7, 0], 0, none⟩ } } },
      .f0, [0x101, 1, 7, 0], 0, 0xA10020, _, 1, by decide +kernel, by decide +kernel, by decide +kernel,
      by decide +kernel, by decide +kernel, by decide +kernel, by decide +kernel, by decide +kernel, rfl⟩,
    ⟨st imgUp [(IMG_CFG.AUTO_STAGE, 1)], 1, 7, 0xA10020, _, by decide +kernel, by decide +kernel, by decide +kernel,
      by decide +kernel, by decide +kernel, rfl⟩,
    ⟨{ st up [(IMG_STAGE.STATE, 2)] with img := { Img.start with staging := true, total := 2, next := 1, target := 1, srcWin := true } },
      0x400000, by decide +kernel⟩,
    ⟨{ st up [(IMG_STAGE.STATE, 2)] with img := { Img.start with staging := true, total := 2, next := 2, target := 1, srcWin := true } },
      0x400000, _, by decide +kernel, by decide +kernel, by decide +kernel, by decide +kernel, by decide +kernel,
      by decide +kernel, rfl⟩,
    ⟨{ st up [(IMG_STAGE.STATE, 2)] with img := { Img.start with staging := true }, sched := { Sched.start with running := [run0] } },
      by decide +kernel⟩,
    ⟨{ st up [(IMG_STAGE.STATE, 3), (VRES_MEAS.w, 9000)] with img := { Img.start with staging := true } },
      by decide +kernel⟩,
    ⟨{ imgUp with img := { Img.start with journal := true, srcObj := (1, 7), target := 1 } }, by decide +kernel⟩,
    ⟨{ st up [(BOOT_STAT.STAGE, 4)] with fns := { up.fns with f0 := { FnEng.start with op := some ⟨0xD, [0x2000, 0, 0], 0, none⟩ } } },
      .f0, [0x2000, 0, 0], 0, 0x2000, by decide +kernel⟩,
    ⟨{ st up [(IMG_HL_STAT.STATE, 1), (IMG_HL_STAT.ACCEPT, 1), (MEM_CTRL.WR.on 0, 1)] with img := { Img.start with winLen := 0x1000 }, fns := { up.fns with f0 := { FnEng.start with memAddr := 0x400000 } } },
      0x1234, by decide +kernel⟩,
    ⟨{ st winUp [(IMG_HL_STAT.STATE, 2), (IMG_HL_STAT.FORM, 1)] with img := { Img.start with winLen := 0x2000 } }, _,
      by decide +kernel, by decide +kernel, by decide +kernel, by decide +kernel, by decide +kernel, rfl⟩,
    ⟨{ st winUp [(IMG_HL_STAT.STATE, 2)] with img := { Img.start with winLen := 0x2000 } }, _, by decide +kernel,
      by decide +kernel, by decide +kernel, by decide +kernel, by decide +kernel, rfl⟩,
    ⟨{ st up [(IMG_HL_STAT.STATE, 1), (IMG_HL_STAT.FORM, 1), (IMG_HL_STAT.ACCEPT, 1)] with img := { Img.start with winLen := 0x2000 } },
      by decide +kernel⟩⟩

theorem witness_RestAndWakeCommandsComplete :
    (∃ (s : State), s.Canon ∧ Serves s .f0 0x2 ∧ s.bit MODE.MAINTAIN_ACT = false ∧ s.bit WAKE_MON.LEVEL = true ∧
      s.pins.wakeDrive = false) ∧
    (∃ (s : State), s.Canon ∧ Serves s .f0 0x2) ∧
    (∃ (s : State), s.Canon ∧ s.restReady = true) ∧
    (∃ (s : State) (cause : Nat), s.Canon ∧ s.mode.resting = true ∧ s.mode.entering = true ∧ s.mode.waking = none ∧
      s.wakesFrom cause = true) ∧
    (∃ (s : State) (start : Nat), s.Canon ∧ s.mode.resting = true ∧ s.mode.waking = none ∧ s.mode.delayed = none ∧
      s.wakeMv ≤ s.get VRES_MEAS.w ∧ s.get MODE.CUR = 4 ∧ s.dormouse = true ∧ s.nextActivity = some start ∧
      start ≤ s.ktime + s.slotLead) ∧
    (∃ (s : State), s.Canon ∧ s.mode.resting = true ∧ s.get MODE.CUR ≠ 0 ∧ s.mode.waking = none ∧
      s.mode.delayed = none ∧ s.wakeMv ≤ s.get VRES_MEAS.w ∧ s.pins.vddio = true) ∧
    (∃ (s : State) (lowUs : Nat), s.Canon ∧ s.mode.resting = true ∧ s.get MODE.CUR ≠ 0 ∧ s.mode.waking = none ∧
      s.mode.delayed = none ∧ s.wakeMv ≤ s.get VRES_MEAS.w ∧ 50 ≤ lowUs ∧ s.pins.porAsserted = false ∧
      s.pins.test = false ∧ s.mode.lowTaken = false ∧ s.mode.driving = none) ∧
    (∃ (s : State), s.Canon ∧ s.mode.resting = true ∧ s.get MODE.CUR ≠ 0 ∧ s.mode.waking = none ∧
      s.mode.delayed = none ∧ s.wakeMv ≤ s.get VRES_MEAS.w) ∧
    (∃ (s : State) (readOk : Bool), s.Canon ∧ s.mode.resting = true ∧ s.mode.waking.isSome = true ∧
      s.mode.entering = false ∧ s.get MODE.RET ≠ 2 ∧ s.flint.tag = some s.tagNow) ∧
    (∃ (s : State) (supplyOk : Bool), s.Canon ∧ s.mode.resting = true ∧ s.mode.waking.isSome = true ∧
      s.mode.entering = false ∧ s.get MODE.RET = 2) ∧
    (∃ (s : State) (c : Nat), s.Canon ∧ s.mode.resting = true ∧ s.mode.delayed = some c ∧
      s.mode.delayedAt ≤ s.get VRES_MEAS.w ∧ c < 0x10) ∧
    (∃ (s : State), s.Canon ∧ s.get VRES_MEAS.w < s.vStopMv ∧ s.coreRuns = true ∧ s.boot.startWait = false ∧
      s.mode.resting = true ∧ s.get MODE.CUR ≠ 3) ∧
    (∃ (s : State), s.Canon ∧ s.get VRES_MEAS.w < s.vStopMv ∧ s.coreRuns = true ∧ s.boot.startWait = false ∧
      s.get MODE.CUR = 3) :=
  ⟨⟨st up [(WAKE_MON.LEVEL, 1)], by decide +kernel⟩,
    ⟨up, by decide +kernel⟩,
    ⟨up, by decide +kernel⟩,
    ⟨{ rest with mode := { rest.mode with entering := true } }, 2, by decide +kernel⟩,
    ⟨{ st { rest with plans := planned.plans, sched := planned.sched } [(VRES_MEAS.w, 9000), (MODE.CUR, 4)] with ktime := 0x3FFF800 },
      0x4000000, by decide +kernel⟩,
    ⟨st rest [(VRES_MEAS.w, 9000)], by decide +kernel⟩,
    ⟨st rest [(VRES_MEAS.w, 9000)], 50, by decide +kernel⟩,
    ⟨st rest [(VRES_MEAS.w, 9000)], by decide +kernel⟩,
    ⟨tagUp, true, by decide +kernel, by decide +kernel, by decide +kernel, by decide +kernel, by decide +kernel, rfl⟩,
    ⟨{ st rest [(MODE.RET, 2)] with mode := { rest.mode with waking := some 2 } }, true, by decide +kernel⟩,
    ⟨{ st rest [(VRES_MEAS.w, 9000)] with mode := { rest.mode with delayed := some 2, delayedAt := 2400 } }, 2,
      by decide +kernel⟩,
    ⟨{ st rest [(VRES_MEAS.w, 1990)] with mode := { rest.mode with waking := some 2 } }, by decide +kernel⟩,
    ⟨st up [(MODE.CUR, 3), (VRES_MEAS.w, 1990)], by decide +kernel⟩⟩

theorem witness_WakeLineCommandsComplete :
    (∃ (s : State) (reason : Nat), s.Canon ∧ s.mode.heldReason = some reason ∧ s.mayAttempt = true) ∧
    (∃ (s : State) (reason : Nat), s.Canon ∧ s.mode.heldReason = some reason ∧ reason < 8 ∧ s.mayAttempt = true) ∧
    (∃ (s : State) (r : Nat), s.Canon ∧ s.mode.driving = some r ∧ r < 8) ∧
    (∃ (s : State), s.Canon ∧ s.bit WAKE_HREASON.PEND = true ∧ 0 < s.mode.retries ∧ s.mode.hostAccess = false ∧
      s.mayDrive = true) ∧
    (∃ (s : State), s.Canon ∧ s.mode.lowTaken = true ∧ s.bit WAKE_MON.STUCK = false) ∧
    (∃ (s : State), s.Canon ∧ s.mode.heldReason = none) :=
  ⟨⟨{ st up [(WAKE_CFG.RETRIES, 3)] with mode := { up.mode with heldReason := some 2 } }, 2, by decide +kernel⟩,
    ⟨{ up with mode := { up.mode with heldReason := some 2 } }, 2, by decide +kernel⟩,
    ⟨{ up with mode := { up.mode with driving := some 3 } }, 3, by decide +kernel⟩,
    ⟨{ st up [(WAKE_HREASON.PEND, 1), (WAKE_HREASON.REASON, 2)] with mode := { up.mode with retries := 2 } },
      by decide +kernel⟩,
    ⟨{ up with mode := { up.mode with lowTaken := true } }, by decide +kernel⟩,
    ⟨up, by decide +kernel⟩⟩

theorem witness_FunctionCommandsComplete :
    (∃ (s : State) (f : Fn) (v : Word), s.Canon ∧ Serves s f 0) ∧
    (∃ (s : State) (f : Fn), s.Canon ∧ Serves s f 0) ∧
    (∃ (s : State) (f : Fn) (v : Word), s.Canon ∧ Serves s f 0 ∧ legalWord f FN_RESET.w.key v = true ∧
      v.getLsbD 0 = true) ∧
    (∃ (s : State) (v : Word), s.Canon ∧ Serves s .f0 0x9 ∧ legalWord .f0 PART_CMD.w.key v = true ∧
      v.getLsbD 1 = true ∧ s.fget .f1 FN_STATE.RESET_BUSY = 0) ∧
    (∃ (s : State) (v : Word), s.Canon ∧ Serves s .f0 0x9 ∧ legalWord .f0 PART_CMD.w.key v = true ∧
      v.getLsbD 0 = true) ∧
    (∃ (s : State) (v : Word), s.Canon ∧ Serves s .f0 0x9 ∧ s.bit PART_STAT.LOCKED = false ∧
      legalWord .f0 PART_DQ.w.key v = true ∧
      v.toNat % 16 + v.toNat / 16 % 16 + v.toNat / 256 % 16 + v.toNat / 4096 ≤ 16) ∧
    (∃ (s : State) (f : Fn), s.Canon ∧ s.fget f FN_STATE.RESET_BUSY = 1 ∧ s.longOp f = false) ∧
    (∃ (s : State) (f : Fn) (v : Word), s.Canon ∧ Serves s f 0 ∧ legalWord f CMD_GO.w.key v = true ∧
      v.getLsbD 0 = true ∧ s.fget f CMD_STAT.BUSY = 0 ∧ 1 ≤ s.fget f CMD_OP.w % 0x100 ∧
      s.fget f CMD_OP.w % 0x100 ≤ 0xE ∧ s.opAllowed f (s.fget f CMD_OP.w % 0x100) = true) ∧
    (∃ (s : State) (f : Fn) (code start err : Nat) (args res : List Word), s.Canon ∧
      (s.eng f).op = some ⟨code, args, start, some (err, res)⟩ ∧ s.fget f FN_STATE.RESET_BUSY = 0 ∧ err < 0x10) ∧
    (∃ (s : State) (f : Fn) (code start : Nat) (args : List Word), s.Canon ∧
      (s.eng f).op = some ⟨code, args, start, none⟩ ∧ s.fget f FN_STATE.RESET_BUSY = 0) ∧
    (∃ (s : State) (f : Fn) (code start : Nat) (args : List Word), s.Canon ∧
      (s.eng f).op = some ⟨code, args, start, none⟩ ∧ s.fget f FN_STATE.RESET_BUSY = 1) ∧
    (∃ (s : State) (f : Fn) (start : Nat) (args : List Word), s.Canon ∧ (s.eng f).op = some ⟨1, args, start, none⟩) ∧
    (∃ (s : State) (f : Fn) (w : Word) (l : List Word), s.Canon ∧ Serves s f 0 ∧ (s.eng f).queue = w :: l) ∧
    (∃ (s : State) (f : Fn), s.Canon ∧ Serves s f 0) ∧
    (∃ (s : State) (f : Fn) (v : Word), s.Canon ∧ Serves s f 0 ∧ legalWord f MEM_ADDR_L.w.key v = true) ∧
    (∃ (s : State) (f : Fn) (v : Word) (qspiTo : Bool), s.Canon ∧ Serves s f 0 ∧ s.fget f MEM_CTRL.WR = 1 ∧
      0x300000 + 0x1000 * f.toNat ≤ (s.eng f).memAddr ∧ (s.eng f).memAddr < 0x301000 + 0x1000 * f.toNat) ∧
    (∃ (s : State) (f : Fn) (qspiTo : Bool), s.Canon ∧ Serves s f 0 ∧ s.fget f MEM_CTRL.WR = 0 ∧
      0x300000 + 0x1000 * f.toNat ≤ (s.eng f).memAddr ∧ (s.eng f).memAddr + 1 < 0x301000 + 0x1000 * f.toNat) :=
  ⟨⟨up, .f2, 0x8001, by decide +kernel⟩,
    ⟨st up [(FN_ERR.CODE.on 1, 3)], .f1, by decide +kernel⟩,
    ⟨up, .f1, 0xC301, by decide +kernel⟩,
    ⟨up, 0x3C02, by decide +kernel⟩,
    ⟨up, 0x3C01, by decide +kernel⟩,
    ⟨up, 0x4444, by decide +kernel⟩,
    ⟨st up [(FN_STATE.RESET_BUSY.on 2, 1)], .f2, by decide +kernel⟩,
    ⟨st up [(CMD_OP.w.on 1, 1)], .f1, 1, by decide +kernel⟩,
    ⟨{ up with fns := { up.fns with f1 := { FnEng.start with op := some ⟨1, [], 0, some (0, [5])⟩ } } }, .f1, 1, 0, 0,
      [], [5], by decide +kernel⟩,
    ⟨{ up with fns := { up.fns with f1 := { FnEng.start with op := some ⟨1, [], 0, none⟩ } } }, .f1, 1, 0, [],
      by decide +kernel⟩,
    ⟨{ st up [(FN_STATE.RESET_BUSY.on 1, 1)] with fns := { up.fns with f1 := { FnEng.start with op := some ⟨1, [], 0, none⟩ } } },
      .f1, 1, 0, [], by decide +kernel⟩,
    ⟨{ up with fns := { up.fns with f1 := { FnEng.start with op := some ⟨1, [], 0, none⟩ } } }, .f1, 0, [],
      by decide +kernel⟩,
    ⟨{ up with fns := { up.fns with f1 := { FnEng.start with queue := [1, 2] } } }, .f1, 1, [2], by decide +kernel⟩,
    ⟨{ up with fns := { up.fns with f1 := { FnEng.start with queue := [1, 2] } } }, .f1, by decide +kernel⟩,
    ⟨up, .f1, 0x1000, by decide +kernel⟩,
    ⟨{ st up [(MEM_CTRL.WR.on 1, 1)] with fns := { up.fns with f1 := { FnEng.start with memAddr := 0x301010 } } },
      .f1, 0xABCD, false, by decide +kernel⟩,
    ⟨{ up with fns := { up.fns with f1 := { FnEng.start with memAddr := 0x301010 } } }, .f1, false,
      by decide +kernel⟩⟩

theorem witness_HealthCommandsComplete :
    (∃ (s : State), s.Canon ∧ s.hlt.due = true ∧ codeOf s.time.whole ≠ 31 ∧ s.get MODE.CUR ≠ 0 ∧ s.awake = true ∧
      s.active = false) ∧
    (∃ (s : State), s.Canon ∧ Serves s .f0 0x18 ∧ codeOf s.time.whole ≠ 31 ∧ s.get MODE.CUR ≠ 0 ∧ s.awake = true ∧
      s.active = false) ∧
    (∃ (s : State), s.Canon ∧ Serves s .f0 0x18 ∧ s.mode.collidedWait = false ∧ s.bit HLT_STAT.REPLACE = true ∧
      s.get HLT_CFG.REPL_MO < s.leastMonths.1) ∧
    (∃ (s : State), s.Canon ∧ Serves s .f0 0x18 ∧ codeOf s.time.whole ≠ 31 ∧ s.bit HLT_STAT.SVC_SET = false ∧
      s.sec < 0x100000000) ∧
    (∃ (s : State) (f : Fn) (mask ms start : Nat) (args : List Word) (lf : Bool), s.Canon ∧
      (s.eng f).op = some ⟨0xA, args, start, none⟩ ∧ arg args 0 % 0x100 ≠ 0 ∧
      lf = allFns.any (fun g => (s.plan g).plan.any (fun w => lfWatch w.words))) :=
  ⟨⟨{ timed with hlt := { Hlt.start with due := true } }, by decide +kernel⟩,
    ⟨timed, by decide +kernel⟩,
    ⟨st up [(HLT_STAT.REPLACE, 1)], by decide +kernel⟩,
    ⟨timed, by decide +kernel⟩,
    ⟨{ up with fns := { up.fns with f0 := { FnEng.start with op := some ⟨0xA, [0xFF], 0, none⟩ } } }, .f0, 0, 10, 0,
      [0xFF], _, by decide +kernel, by decide +kernel, by decide +kernel, rfl⟩⟩

theorem witness_TwinRoleCommandsComplete :
    (∃ (s : State) (v : Word), s.Canon ∧ Serves s .f0 0x17 ∧ s.bit PART_STAT.LOCKED = false ∧
      legalWord .f0 TWIN_CFG.w.key v = true ∧ s.bit TWIN_CFG.EN = false ∧ TWIN_CFG.EN.of v = 1) ∧
    (∃ (s : State), s.Canon ∧ s.twin.watching = true ∧ s.bit TWIN_STAT.EN = true ∧ s.twin.claimDue = none) ∧
    (∃ (s : State), s.Canon ∧ s.isActive = true ∧ s.dormouse = true ∧ s.pins.test = false ∧ s.hostLoading = false ∧
      s.sec % max 1 (s.get TWIN_CFG.PERIOD) = 0 ∧ s.twin.pulseSec ≠ s.sec) ∧
    (∃ (s : State) (lowUs : Nat), s.Canon ∧ s.bit TWIN_STAT.EN = true ∧ s.get MODE.CUR ≠ 0 ∧ s.twin.stuck = false ∧
      50 ≤ lowUs ∧ lowUs < 200 ∧ s.isActive = false ∧ s.isStandby = true) ∧
    (∃ (s : State), s.Canon ∧ s.bit TWIN_STAT.EN = true ∧ s.get MODE.CUR ≠ 0 ∧ s.twin.stuck = false) ∧
    (∃ (s : State), s.Canon ∧ s.isStandby = true ∧ s.get MODE.CUR ≠ 0 ∧ s.twin.claimDue = none) ∧
    (∃ (s : State) (c : Nat), s.Canon ∧ s.twin.claimDue = some c ∧ s.awake = true ∧ s.bit TWIN_STAT.EN = true ∧
      s.get MODE.CUR ≠ 3 ∧ s.bothClaim = false) ∧
    (∃ (s : State), s.Canon) ∧
    (∃ (s : State), s.Canon ∧ s.twin.swapAt.isSome = true) ∧
    (∃ (s : State) (mask : Nat), s.Canon ∧ s.twin.testing = false ∧ s.stestDue = true ∧ s.partnerLf = false ∧
      s.get MODE.CUR ≠ 0 ∧ s.mode.resting = false ∧ s.awake = true) ∧
    (∃ (s : State) (mask : Nat) (lf : Bool), s.Canon ∧ s.twin.testing = true ∧ s.awake = true ∧
      lf = (match s.twin.held with | some d => allFns.any (fun f => (ckptWatches d f).any lfWatch) | none => false))
      :=
  ⟨⟨up, 0x8001, by decide +kernel⟩,
    ⟨{ st up [(TWIN_STAT.EN, 1)] with twin := { Twin.start with watching := true } }, by decide +kernel⟩,
    ⟨{ st up [(TWIN_CFG.EN, 1), (TWIN_STAT.EN, 1), (TWIN_STAT.ACTIVE, 1)] with ktime := 600 * 2 ^ 24 },
      by decide +kernel⟩,
    ⟨st up [(TWIN_CFG.EN, 1), (TWIN_STAT.EN, 1), (TWIN_STAT.STANDBY, 1)], 100, by decide +kernel⟩,
    ⟨st up [(TWIN_CFG.EN, 1), (TWIN_STAT.EN, 1), (TWIN_STAT.STANDBY, 1)], by decide +kernel⟩,
    ⟨st up [(TWIN_CFG.EN, 1), (TWIN_STAT.EN, 1), (TWIN_STAT.STANDBY, 1)], by decide +kernel⟩,
    ⟨{ st up [(TWIN_CFG.EN, 1), (TWIN_STAT.EN, 1), (TWIN_STAT.STANDBY, 1)] with twin := { Twin.start with claimDue := some 1 } },
      1, by decide +kernel⟩,
    ⟨st up [(TWIN_STAT.CLAIMING, 1)], by decide +kernel⟩,
    ⟨{ up with twin := { Twin.start with swapAt := some 5 } }, by decide +kernel⟩,
    ⟨{ st timed [(TWIN_CFG.EN, 1), (TWIN_STAT.EN, 1), (TWIN_STAT.STANDBY, 1), (TWIN_CFG.STEST_EN, 1), (TWIN_STEST.DAYS, 1), (TWIN_STEST.HOUR, 0), (SCHED_DAY_OFS.w, 0)] with ktime := 86400 * 2 ^ 24 },
      0, by decide +kernel⟩,
    ⟨{ up with twin := { Twin.start with testing := true } }, 0, false, by decide +kernel⟩⟩

theorem witness_CheckpointCommandsComplete :
    (∃ (s : State) (wakeAck : Bool) (x : Xfer), s.Canon ∧ s.isActive = true ∧ s.awake = true ∧ s.pins.vddio = true ∧
      s.twin.xfer = some x ∧ x.stage = 0) ∧
    (∃ (s : State), s.Canon ∧ Serves s .f0 0x17 ∧ s.isActive = true ∧ s.bit TWIN_CFG.CKPT_EN = true ∧
      s.twin.xfer = none) ∧
    (∃ (s : State) (x : Xfer), s.Canon ∧ s.awake = true ∧ s.pins.vddio = true ∧ s.twin.xfer = some x ∧ 0 < x.stage ∧
      x.stage < 12) ∧
    (∃ (s : State) (bytes : List Byte) (pec : Byte), s.Canon ∧ s.bit TWIN_STAT.EN = true ∧ s.pins.vddio = true ∧
      s.mode.resting = false ∧ s.awake = true ∧ s.boot.marten = true ∧
      (crc8 (BitVec.ofNat 8 (2 * (s.get TWIN_XBASE.w + if s.pins.role then 1 else 0)) :: bytes) ≠ pec) ∧ bytes ≠ []) ∧
    (∃ (s : State) (m pec : Byte), s.Canon ∧ s.bit TWIN_STAT.EN = true ∧ s.pins.vddio = true ∧
      s.mode.resting = false ∧ s.awake = true ∧ s.boot.marten = true ∧
      (crc8 [BitVec.ofNat 8 (2 * (s.get TWIN_XBASE.w + if s.pins.role then 1 else 0)), 3, m, 0, 0] = pec)) ∧
    (∃ (s : State), s.Canon) ∧
    (∃ (s : State) (d : List Byte), s.Canon ∧ s.twin.held = some d) ∧
    (∃ (s : State) (f : Fn) (start : Nat) (args : List Word), s.Canon ∧ (s.eng f).op = some ⟨9, args, start, none⟩ ∧
      s.isActive = true ∧ s.active = false ∧ s.twin.xfer = none ∧ s.bit TWIN_EVT.PARTNER_SILENT = false) :=
  ⟨⟨{ st up [(TWIN_CFG.EN, 1), (TWIN_STAT.EN, 1), (TWIN_STAT.ACTIVE, 1)] with twin := { Twin.start with xfer := some ⟨[], 0, 0, 0, false⟩ } },
      true, ⟨[], 0, 0, 0, false⟩, by decide +kernel⟩,
    ⟨st (st up [(TWIN_CFG.EN, 1), (TWIN_STAT.EN, 1), (TWIN_STAT.ACTIVE, 1)]) [(TWIN_CFG.CKPT_EN, 1)],
      by decide +kernel⟩,
    ⟨{ up with twin := { Twin.start with xfer := some ⟨[], 4, 1, 0, false⟩ } }, ⟨[], 4, 1, 0, false⟩,
      by decide +kernel⟩,
    ⟨st up [(TWIN_STAT.EN, 1)], [9], 0, by decide +kernel⟩,
    ⟨st up [(TWIN_STAT.EN, 1)], 5, (crc8 [BitVec.ofNat 8 (2 * up.get TWIN_XBASE.w), 3, 5, 0, 0]), by decide +kernel⟩,
    ⟨{ up with twin := { Twin.start with part := some (1, [], 0) } }, by decide +kernel⟩,
    ⟨{ up with twin := { Twin.start with held := some [1] } }, [1], by decide +kernel⟩,
    ⟨{ st up [(TWIN_CFG.EN, 1), (TWIN_STAT.EN, 1), (TWIN_STAT.ACTIVE, 1)] with fns := { up.fns with f0 := { FnEng.start with op := some ⟨9, [], 0, none⟩ } } },
      .f0, 0, [], by decide +kernel⟩⟩

theorem witness_ReportCommandsComplete :
    (∃ (s : State) (f : Fn) (start : Nat) (args : List Word), s.Canon ∧ (s.eng f).op = some ⟨4, args, start, none⟩ ∧
      s.flintWaits f = false ∧ s.bit FLINT_STAT.LOCKED = false ∧ (f = .f0 → s.bit FLINT_STAT.IDENT_OK = true)) ∧
    (∃ (s : State) (f : Fn) (start : Nat) (args : List Word), s.Canon ∧ (s.eng f).op = some ⟨4, args, start, none⟩ ∧
      s.flintWaits f = false ∧ s.bit FLINT_STAT.LOCKED = true) ∧
    (∃ (s : State) (f : Fn) (sig : List Byte) (start : Nat) (args : List Word), s.Canon ∧
      (s.eng f).op = some ⟨0xE, args, start, none⟩ ∧ s.flintWaits f = false ∧ arg args 0 % 2 = 0) :=
  ⟨⟨{ up with fns := { up.fns with f1 := { FnEng.start with op := some ⟨4, [], 0, none⟩ } } }, .f1, 0, [],
      by decide +kernel⟩,
    ⟨{ st up [(FLINT_STAT.LOCKED, 1)] with fns := { up.fns with f1 := { FnEng.start with op := some ⟨4, [], 0, none⟩ } } },
      .f1, 0, [], by decide +kernel⟩,
    ⟨{ up with fns := { up.fns with f1 := { FnEng.start with op := some ⟨0xE, [0], 0, none⟩ } } }, .f1, [], 0, [0],
      by decide +kernel⟩⟩

theorem witness_SpiCommandsComplete :
    (∃ (s : State) (cmd : Byte) (w : Word), s.Canon ∧ s.spiSees = true ∧ s.mode.ready = true ∧
      s.mode.resting = false ∧ s.bit HP_CFG.CRC_REQ = false ∧ Serves s (cmdFn cmd) 0 ∧ cmd.getLsbD 7 = false ∧
      cmd.getLsbD 3 = false ∧ cmd.toNat % 8 = 0) ∧
    (∃ (s : State) (cmd : Byte) (w : Word), s.Canon ∧ s.spiSees = true ∧ s.mode.ready = true ∧
      s.mode.resting = false ∧ Serves s (cmdFn cmd) 0 ∧ cmd.getLsbD 7 = false ∧ cmd.getLsbD 3 = true ∧
      cmd.toNat % 8 = 0) ∧
    (∃ (s : State) (cmd : Byte), s.Canon ∧ s.spiSees = true ∧ s.mode.ready = true ∧ s.mode.resting = false ∧
      s.bit HP_CFG.CRC_REQ = false ∧ Serves s (cmdFn cmd) 0 ∧ cmd.getLsbD 7 = true ∧ cmd.getLsbD 3 = false ∧
      cmd.toNat % 8 = 0) ∧
    (∃ (s : State) (cmd : Byte), s.Canon ∧ s.spiSees = true ∧ s.mode.ready = true ∧ s.mode.resting = false ∧
      Serves s (cmdFn cmd) 0 ∧ cmd.getLsbD 7 = true ∧ cmd.getLsbD 3 = true ∧ cmd.toNat % 8 = 0) ∧
    (∃ (s : State), s.Canon ∧ s.mode.resting = true ∧ s.get MODE.CUR ≠ 0 ∧ s.mode.waking = none ∧
      s.mode.delayed = none ∧ s.wakeMv ≤ s.get VRES_MEAS.w ∧ s.spiSees = true) ∧
    (∃ (s : State) (f : Fn) (n : Nat) (r : Bool), s.Canon ∧ s.spi.frame = some ⟨some f, n, r, []⟩ ∧
      s.get MODE.CUR ≠ 0 ∧ n < 0x400) ∧
    (∃ (s : State), s.Canon ∧ Serves s .f0 0x7) ∧
    (∃ (s : State), s.Canon ∧ s.pins.vddio = true ∧ s.get MODE.CUR ≠ 0 ∧ s.pins.porAsserted = false) :=
  ⟨⟨up, 0x20, 0x8001, by decide +kernel⟩,
    ⟨up, 0x28, 0x8001, by decide +kernel⟩,
    ⟨st up [(INT_EN0.w.on 1, 77)], 0xA0, by decide +kernel⟩,
    ⟨st up [(INT_EN0.w.on 1, 77)], 0xA8, by decide +kernel⟩,
    ⟨st rest [(VRES_MEAS.w, 9000)], by decide +kernel⟩,
    ⟨{ up with spi := ⟨some ⟨some .f1, 3, true, []⟩, false⟩ }, .f1, 3, true, by decide +kernel⟩,
    ⟨st up [(HP_CNT_CRC.w, 3)], by decide +kernel⟩,
    ⟨up, by decide +kernel⟩⟩

theorem witness_TwoWireFrameCommandsComplete :
    (∃ (s : State) (a : Nat) (f : Fn) (hi lo : Byte), s.Canon ∧ s.mode.ready = true ∧ s.tw.frame = none ∧
      s.tw.wakeFrame = none ∧ Serves s f 0 ∧ s.twAnswers a = some f ∧ s.bit TW_CFG.PEC = false) ∧
    (∃ (s : State) (a : Nat) (f : Fn) (hi lo : Byte), s.Canon ∧ s.mode.ready = true ∧ s.tw.frame = none ∧
      s.tw.wakeFrame = none ∧ Serves s f 0 ∧ s.twAnswers a = some f ∧ s.bit TW_CFG.PEC = true) ∧
    (∃ (s : State) (a : Nat) (f : Fn) (reg : Byte), s.Canon ∧ s.mode.ready = true ∧ s.tw.frame = none ∧
      s.tw.wakeFrame = none ∧ Serves s f 0 ∧ s.twAnswers a = some f) ∧
    (∃ (s : State) (a : Nat) (f : Fn), s.Canon ∧ s.mode.ready = true ∧ s.tw.frame = none ∧ s.tw.wakeFrame = none ∧
      Serves s f 0 ∧ s.twAnswers a = some f ∧ s.bit TW_CFG.PEC = false) ∧
    (∃ (s : State) (fr : TwFrame), s.Canon ∧ s.tw.frame = some fr ∧ fr.held = true ∧ fr.code = 0 ∧
      s.coreRuns = true) ∧
    (∃ (s : State) (a : Nat) (f : Fn), s.Canon ∧ s.mode.resting = true ∧ s.get MODE.CUR ≠ 0 ∧ s.mode.waking = none ∧
      s.mode.delayed = none ∧ s.wakeMv ≤ s.get VRES_MEAS.w ∧ s.matching = true ∧ barred a = false ∧
      s.tw.wakeFrame = none ∧ s.tw.frame = none ∧ matchAddr s.addrForce a = some f) ∧
    (∃ (s : State), s.Canon ∧ s.tw.sclHeld = true ∧ s.mode.ready = true) ∧
    (∃ (s : State) (f : Fn), s.Canon ∧ s.tw.wakeFrame = some f ∧ s.tw.sclHeld = true) ∧
    (∃ (s : State) (v : Word), s.Canon ∧ Serves s .f0 0x8 ∧ s.bit PART_STAT.LOCKED = false ∧
      legalWord .f0 TW_HOSTADDR.w.key v = true ∧ s.tw.forceDue = false ∧
      TW_HOSTADDR.ADDR.of v ≠ s.get TW_HOSTADDR.ADDR ∧
      addrsOk (s.addrCfg.take 5 ++ [TW_HOSTADDR.ADDR.of v]) = true) :=
  ⟨⟨up, 0x58, .f0, 0x80, 0x01, by decide +kernel⟩,
    ⟨st up [(TW_CFG.PEC, 1)], 0x58, .f0, 0x80, 0x01, by decide +kernel⟩,
    ⟨up, 0x58, .f0, 0x44, by decide +kernel⟩,
    ⟨up, 0x58, .f0, by decide +kernel⟩,
    ⟨{ up with tw := { Tw.start with frame := some ⟨.f1, 3, 0, [], [], [], true⟩ } }, ⟨.f1, 3, 0, [], [], [], true⟩,
      by decide +kernel⟩,
    ⟨st rest [(VRES_MEAS.w, 9000), (MODE.MATCH_ON, 1)], 0x58, .f0, by decide +kernel⟩,
    ⟨{ up with tw := { Tw.start with sclHeld := true } }, by decide +kernel⟩,
    ⟨{ rest with tw := { Tw.start with sclHeld := true, wakeFrame := some .f2 } }, .f2, by decide +kernel⟩,
    ⟨up, 0x0B, by decide +kernel⟩⟩

theorem witness_AttentionCommandsComplete :
    (∃ (s : State) (f : Fn), s.Canon ∧ s.fget f ATTN_ACK.OUT = 0 ∧ (s.eng f).attn.due0 ≠ 0) ∧
    (∃ (s : State) (f : Fn), s.Canon ∧ s.attnMayStart f = true ∧ s.tw.cancel = false) ∧
    (∃ (s : State) (f : Fn), s.Canon ∧ s.fget f ATTN_ACK.OUT = 1 ∧ s.fget f ATTN_ACK.FALLBACK = 0 ∧
      s.fget f ATTN_ACK.TRIES < s.get TW_CTL_CFG.TRIES ∧ s.tw.onBus ≠ some f) ∧
    (∃ (s : State) (f : Fn), s.Canon ∧ s.fget f ATTN_ACK.OUT = 1 ∧ s.fget f ATTN_ACK.FALLBACK = 0 ∧
      s.get TW_CTL_CFG.TRIES ≤ s.fget f ATTN_ACK.TRIES ∧ s.tw.onBus ≠ some f ∧ s.coreRuns = true) ∧
    (∃ (s : State) (f : Fn) (v : Word), s.Canon ∧ Serves s f 0 ∧ s.fget f ATTN_ACK.OUT = 1 ∧
      v.toNat % 16 = s.fget f ATTN_ACK.SEQ ∧ legalWord f ATTN_ACK.w.key v = true ∧ s.tw.onBus ≠ some f) ∧
    (∃ (s : State) (f : Fn), s.Canon ∧ s.tw.onBus = some f ∧ s.tw.cancel = false ∧ (s.eng f).attn.losses < 7) ∧
    (∃ (s : State) (f : Fn), s.Canon ∧ s.tw.onBus = some f ∧ s.tw.cancel = true) ∧
    (∃ (s : State) (f : Fn), s.Canon ∧ s.tw.onBus = some f ∧ s.tw.cancel = false ∧ s.coreRuns = true) ∧
    (∃ (s : State) (f : Fn), s.Canon ∧ (s.eng f).attn.backoff = true) ∧
    (∃ (s : State) (lowUs : Nat), s.Canon ∧ s.twAlive = true ∧ s.coreRuns = true ∧ 100 ≤ lowUs) ∧
    (∃ (s : State) (sda : Bool), s.Canon ∧ s.bit TW_CFG.STUCK_RST_EN = true ∧ s.twAlive = true ∧ s.tw.dead = false ∧
      s.drivesLow sda = false ∧ s.coreRuns = true) ∧
    (∃ (s : State) (sda : Bool), s.Canon ∧ s.bit TW_CFG.STUCK_RST_EN = true ∧ s.twAlive = true ∧ s.tw.dead = false ∧
      s.drivesLow sda = false ∧ s.coreRuns = true ∧ s.tw.pulses = 2) ∧
    (∃ (s : State), s.Canon ∧ s.tw.dead = true) ∧
    (∃ (s : State), s.Canon ∧ Serves s .f0 0x8 ∧ s.coreRuns = true) ∧
    (∃ (s : State), s.Canon ∧ Serves s .f0 0x8) :=
  ⟨⟨{ up with fns := { up.fns with f1 := { FnEng.start with attn := { Attn.start with due0 := 2 } } } }, .f1,
      by decide +kernel⟩,
    ⟨{ st up [(ATTN_ACK.OUT.on 1, 1), (TW_CTL_CFG.TRIES, 3), (CLK_STAT.XO_OK, 1)] with fns := { up.fns with f1 := { FnEng.start with attn := { Attn.start with due := true } } } },
      .f1, by decide +kernel⟩,
    ⟨st up [(ATTN_ACK.OUT.on 1, 1), (TW_CTL_CFG.TRIES, 3)], .f1, by decide +kernel⟩,
    ⟨st up [(ATTN_ACK.OUT.on 1, 1), (TW_CTL_CFG.TRIES, 3), (ATTN_ACK.TRIES.on 1, 3)], .f1, by decide +kernel⟩,
    ⟨st up [(ATTN_ACK.OUT.on 1, 1), (ATTN_ACK.SEQ.on 1, 5)], .f1, 5, by decide +kernel⟩,
    ⟨{ st up [(ATTN_ACK.TRIES.on 1, 1)] with tw := { Tw.start with onBus := some .f1 } }, .f1, by decide +kernel⟩,
    ⟨{ up with tw := { Tw.start with onBus := some .f1, cancel := true } }, .f1, by decide +kernel⟩,
    ⟨{ up with tw := { Tw.start with onBus := some .f1 } }, .f1, by decide +kernel⟩,
    ⟨{ up with fns := { up.fns with f1 := { FnEng.start with attn := { Attn.start with backoff := true } } } }, .f1,
      by decide +kernel⟩,
    ⟨up, 100, by decide +kernel⟩,
    ⟨st up [(TW_CFG.STUCK_RST_EN, 1)], true, by decide +kernel⟩,
    ⟨{ st up [(TW_CFG.STUCK_RST_EN, 1)] with tw := { Tw.start with pulses := 2 } }, true, by decide +kernel⟩,
    ⟨{ up with tw := { Tw.start with dead := true } }, by decide +kernel⟩,
    ⟨up, by decide +kernel⟩,
    ⟨st up [(TW_CNT_ERR.w, 3)], by decide +kernel⟩⟩

theorem witness_PlanCommandsComplete :
    (∃ (s : State) (f : Fn), s.Canon ∧ Serves s f 0 ∧ s.runsPlans = true ∧ s.fget f PLAN_STAT.BUSY = 0) ∧
    (∃ (s : State) (f : Fn) (v : Word), s.Canon ∧ Serves s f 0 ∧ s.fget f PLAN_STAT.BUSY = 0 ∧
      s.fget f PLAN_STAT.DRAFT_OPEN = 1 ∧ s.fget f PLAN_STAT.FULL = 0 ∧ s.fget f PLAN_WIDX.INDEX < 15) ∧
    (∃ (s : State) (f : Fn) (v : Word), s.Canon ∧ Serves s f 0 ∧ s.fget f PLAN_STAT.BUSY = 0 ∧
      legalWord f PLAN_WIDX.w.key v = true) ∧
    (∃ (s : State) (f : Fn), s.Canon ∧ Serves s f 0 ∧ s.runsPlans = true ∧ s.fget f PLAN_STAT.BUSY = 0 ∧
      (s.plan f).draft ≠ []) ∧
    (∃ (s : State) (f : Fn), s.Canon ∧ Serves s f 0 ∧ s.runsPlans = true ∧ s.fget f PLAN_STAT.BUSY = 0) ∧
    (∃ (s : State) (f g : Fn) (rest : List Fn) (r x i : Nat), s.Canon ∧ s.sched.queue = f :: rest ∧
      s.judge f (s.plan f).draft = .refused r x g i ∧ r < 0x100) ∧
    (∃ (s : State) (f : Fn) (rest : List Fn) (l : List Placed) (cs : List (Placed × Nat × ℚ × ℚ)) (c : Nat), s.Canon ∧
      s.sched.queue = f :: rest ∧ s.judge f (s.plan f).draft = .passed l cs c) ∧
    (∃ (s : State), s.Canon ∧ s.sched.dirty = true ∧ s.flashFree = true) ∧
    (∃ (s : State) (u : State) (l : List Placed), s.Canon ∧ s.sched.readmit = true ∧
      u = { s with sched := { s.sched with readmit := false } } ∧
      u.placeAll (cycleOf u.liveWatches) u.ktime [] (byClass u.liveWatches) = .inl l ∧
      (u.reservoir u.ktime (cycleOf u.liveWatches) none l).2 = none) ∧
    (∃ (s : State), s.Canon ∧ (s.sec + 86400 - 60 * s.get SCHED_DAY_OFS.w % 86400) % 86400 = 0) :=
  ⟨⟨up, .f1, by decide +kernel⟩,
    ⟨st up [(PLAN_STAT.DRAFT_OPEN.on 1, 1)], .f1, 7, by decide +kernel⟩,
    ⟨up, .f1, 3, by decide +kernel⟩,
    ⟨{ up with plans := ⟨PlanEng.start, ⟨[timeRec], [], none⟩, PlanEng.start, PlanEng.start⟩ }, .f1,
      by decide +kernel⟩,
    ⟨planned, .f1, by decide +kernel⟩,
    ⟨{ up with plans := ⟨PlanEng.start, ⟨[List.replicate 16 0], [], none⟩, PlanEng.start, PlanEng.start⟩, sched := { Sched.start with queue := [.f1] } },
      .f1, .f1, [], 9, 0, 0, by decide +kernel⟩,
    ⟨passUp, .f0, [], (passOf (passUp.judge .f0 [timeRec])).1, (passOf (passUp.judge .f0 [timeRec])).2.1, (passOf
      (passUp.judge .f0 [timeRec])).2.2, by decide +kernel⟩,
    ⟨{ up with sched := { Sched.start with dirty := true } }, by decide +kernel⟩,
    ⟨{ up with sched := { Sched.start with readmit := true } }, { up with sched := Sched.start }, [],
      by decide +kernel⟩,
    ⟨{ up with ktime := 0 }, by decide +kernel⟩⟩

theorem witness_OccurrenceAndListenCommandsComplete :
    (∃ (s : State) (f : Fn) (idx : Nat) (w : Watch) (nominal start stop : Nat), s.Canon ∧
      s.slotDue f idx = some (w, nominal, start, stop) ∧ s.runsPlans = true ∧ s.awake = true ∧
      recKind w.words ≠ kCAPT ∧ s.bit FES_STAT.HOLD = false ∧ s.fe.rx = none) ∧
    (∃ (s : State) (f : Fn) (idx : Nat) (r : Run) (w : Watch), s.Canon ∧
      (s.runs.find? (fun rw => rw.1.fn == f && rw.1.idx == idx) = some (r, w)) ∧ s.ends r w = true) ∧
    (∃ (s : State) (f : Fn) (idx : Nat) (r : Run) (w : Watch), s.Canon ∧
      (s.runs.find? (fun rw => rw.1.fn == f && rw.1.idx == idx) = some (r, w)) ∧ s.ends r w = true ∧
      s.tunerRuns = [(r, w)] ∧ s.liveListens = []) ∧
    (∃ (s : State) (f : Fn) (a : List Word) (at_ : Nat) (u : State), s.Canon ∧
      (s.eng f).op = some ⟨0xB, a, at_, none⟩ ∧ u = s.account.demandXo ∧
      u.listenError f (arg a 0 + 0x10000 * arg a 1) (arg a 2) (arg a 3) (arg a 4) = 0 ∧
      u.carries ((u.bearerUa (bearer (arg a 0 + 0x10000 * arg a 1)) : ℚ) / 1000000 + u.captAmps) (max (arg a 2)
      u.captLeft) = true ∧ s.bit FES_STAT.HOLD = false ∧ s.fe.rx = none ∧ (∀ g, (s.plan g).listen = none)) ∧
    (∃ (s : State) (f : Fn) (a : List Word) (at_ : Nat), s.Canon ∧ (s.eng f).op = some ⟨0xC, a, at_, none⟩) ∧
    (∃ (s : State) (f : Fn), s.Canon ∧ (s.plan f).listen.isSome = true) ∧
    (∃ (s : State) (f : Fn) (l : Listen), s.Canon ∧ (s.plan f).listen = some l ∧ l.paused = true ∧
      s.bit FES_STAT.HOLD = false ∧ s.fe.rx = none) ∧
    (∃ (s : State) (f : Fn) (a : List Word) (at_ : Nat), s.Canon ∧ (s.eng f).op = some ⟨8, a, at_, none⟩ ∧
      s.runsPlans = true ∧ captParams (arg a 0 % 0x100) (arg a 0 / 0x100) (arg a 3 % 0x100) = none ∧ arg a 1 ≠ 0 ∧
      s.capt.job = none ∧ s.capt.due = [] ∧ arg a 0 / 0x100 % 2 = 0 ∧ s.captFits false (arg a 2) (arg a 1) = true) ∧
    (∃ (s : State) (p : Past), s.Canon ∧ s.capt.past = some p ∧ s.capt.spillDue = true ∧ s.img.staging = false) ∧
    (∃ (s : State) (f : Fn), s.Canon ∧ Serves s f (keyPage CAPT_CMD.w.key)) :=
  ⟨⟨{ planned with ktime := 0x5000000 }, .f1, 0, ⟨timeRec, 0x4000000, none⟩, 0x4000000, 0x4000000, 0x9000000,
      by decide +kernel⟩,
    ⟨{ runningUp with ktime := 0xA000000 }, .f1, 0, run0, ⟨timeRec, 0x4000000, none⟩, by decide +kernel⟩,
    ⟨{ runningUp with ktime := 0xA000000 }, .f1, 0, run0, ⟨timeRec, 0x4000000, none⟩, by decide +kernel⟩,
    ⟨lisUp, .f0, [0x7CDC, 0x2001, 60, 1, 0, 0], 0, lisUp.account.demandXo, by decide +kernel, by decide +kernel,
      by decide +kernel, by decide +kernel, by decide +kernel, by decide +kernel, by decide +kernel,
      by intro g; cases g <;> decide +kernel⟩,
    ⟨opUp .f1 0xC [], .f1, [], 0, by decide +kernel⟩,
    ⟨listenUp, .f1, by decide +kernel⟩,
    ⟨listenUp, .f1, ⟨0x20017CDC, 60, 1, 0x40, 0, true⟩, by decide +kernel⟩,
    ⟨opUp .f0 8 [0x0001, 10, 0, 0, 0, 0], .f0, [0x0001, 10, 0, 0, 0, 0], 0, by decide +kernel⟩,
    ⟨{ up with capt := { Capt.start with past := some past0, spillDue := true } }, past0, by decide +kernel⟩,
    ⟨{ up with capt := { Capt.start with stores := [(.f0, 0x210000, 4)] } }, .f0, by decide +kernel⟩⟩

theorem witness_TuneCommandsComplete :
    (∃ (s : State) (temp : Int) (r : Rx), s.Canon ∧ s.fe.rx = some r ∧ s.get FES_STAT.JOB = 0 ∧
      s.bit FES_STAT.HOLD = false ∧ s.bit CLK_STAT.XO_OK = true ∧ bearer r.kfc = 2 ∧ r.kfc < 0x100000000) ∧
    (∃ (s : State) (temp : Int) (r : Rx), s.Canon ∧ s.fe.rx = some r ∧ s.get FES_STAT.JOB = 0 ∧
      s.bit FES_STAT.HOLD = false ∧ s.bit CLK_STAT.XO_OK = true ∧ bearer r.kfc = 1) ∧
    (∃ (s : State) (temp : Int) (r : Rx), s.Canon ∧ s.fe.rx = some r ∧ s.get FES_STAT.JOB = 0 ∧
      s.bit FES_STAT.HOLD = false ∧ s.bit CLK_STAT.XO_OK = false ∧ s.mode.xoTry = false ∧ s.liveListens = []) ∧
    (∃ (s : State) (vtune : Nat), s.Canon ∧ s.locking = true ∧ vtune < 0x10000) ∧
    (∃ (s : State) (band : Nat) (r : Rx), s.Canon ∧ s.fe.rx = some r ∧ s.locking = true ∧ r.second = false) ∧
    (∃ (s : State) (band : Nat) (r : Rx), s.Canon ∧ s.fe.rx = some r ∧ s.locking = true ∧ r.second = true ∧
      s.surveyRun = none) ∧
    (∃ (s : State) (rssi : Int) (lna ifGain lfGain : Nat) (r : Rx), s.Canon ∧ s.fe.rx = some r ∧
      s.get FES_STAT.JOB = 4 ∧ s.surveyRun = none ∧ lna < 16 ∧ ifGain < 16) ∧
    (∃ (s : State) (r : Rx), s.Canon ∧ s.fe.rx = some r ∧ s.get FES_STAT.JOB = 5 ∧ bearer r.kfc ≠ 1) ∧
    (∃ (s : State), s.Canon ∧ s.get FES_STAT.JOB = 7 ∧ s.liveListens ≠ []) ∧
    (∃ (s : State) (f : Fn) (idx : Nat) (r : Run) (w : Watch), s.Canon ∧ s.surveyRun = some (r, w) ∧ r.fn = f ∧
      r.idx = idx ∧ s.fe.survey.length = recByte w.words 28) ∧
    (∃ (s : State) (f : Fn) (r : Rx) (kfc : Nat), s.Canon ∧ Serves s f (keyPage FES_AF_CTL.w.key) ∧ s.vhfRun = true ∧
      s.fe.rx = some r ∧ s.get32 FES_AF_KFC_L.w = kfc ∧ bearer kfc = bearer r.kfc ∧ kfcInRange kfc = true ∧
      s.fe.afHost = none) ∧
    (∃ (s : State) (rssi : Int) (us kfc : Nat), s.Canon ∧ s.fe.afHost = some kfc) ∧
    (∃ (s : State) (us kfc : Nat), s.Canon ∧ s.fe.afHost = some kfc) ∧
    (∃ (s : State) (f : Fn), s.Canon ∧ Serves s f (keyPage SYN_APPLY.w.key)) ∧
    (∃ (s : State) (f : Fn) (v : Word), s.Canon ∧ Serves s f (keyPage FES_RAW_LNA.w.key) ∧
      legalWord f FES_RAW_LNA.w.key v = true ∧ 2 ≤ s.get FES_STAT.PATH) ∧
    (∃ (s : State) (f : Fn) (v : Word), s.Canon ∧ Serves s f (keyPage FES_RAW_CTL.w.key) ∧
      legalWord f FES_RAW_CTL.w.key (v ||| 1) = true ∧ s.runsPlans = true ∧ s.awake = true ∧ s.fe.cal = none ∧
      s.bit FES_STAT.HOLD = false) ∧
    (∃ (s : State) (f : Fn), s.Canon ∧ Serves s f (keyPage FES_RAW_CTL.w.key) ∧ s.bit FES_STAT.HOLD = true) :=
  ⟨⟨st (rxUp 0x20017CDC) [(CLK_STAT.XO_OK, 1)], 200, (rxOf 0x20017CDC), by decide +kernel⟩,
    ⟨st (rxUp 0x10012EBC) [(CLK_STAT.XO_OK, 1)], 200, (rxOf 0x10012EBC), by decide +kernel⟩,
    ⟨rxUp 0x20017CDC, 200, (rxOf 0x20017CDC), by decide +kernel⟩,
    ⟨st (rxUp 0x20017CDC) [(FES_STAT.JOB, 2)], 500, by decide +kernel⟩,
    ⟨st (rxUp 0x20017CDC) [(FES_STAT.JOB, 2)], 3, (rxOf 0x20017CDC), by decide +kernel⟩,
    ⟨{ st up [(FES_STAT.JOB, 2)] with fe := { Fe.start with rx := some { rxOf 0x20017CDC with second := true } } }, 3,
      { rxOf 0x20017CDC with second := true }, by decide +kernel⟩,
    ⟨st (rxUp 0x20017CDC) [(FES_STAT.JOB, 4)], (-200), 3, 4, 0, (rxOf 0x20017CDC), by decide +kernel⟩,
    ⟨st (rxUp 0x20017CDC) [(FES_STAT.JOB, 5)], (rxOf 0x20017CDC), by decide +kernel⟩,
    ⟨{ st up [(FES_STAT.JOB, 7)] with plans := ⟨PlanEng.start, ⟨[], [], some ⟨0x20017CDC, 60, 1, 0x40, 0, false⟩⟩, PlanEng.start, PlanEng.start⟩ },
      by decide +kernel⟩,
    ⟨surveyUp, .f1, 0, run0, ⟨surveyRec, 0x4000000, none⟩, by decide +kernel⟩,
    ⟨st (rxUp 0x20017CDC) [(FES_STAT.JOB, 5), (FES_AF_KFC_L.w, 0x7CDC), (FES_AF_KFC_H.w, 0x2001)], .f0, (rxOf
      0x20017CDC), 0x20017CDC, by decide +kernel⟩,
    ⟨{ up with fe := { Fe.start with afHost := some 0x20017CDC } }, (-100), 900, 0x20017CDC, by decide +kernel⟩,
    ⟨{ up with fe := { Fe.start with afHost := some 0x20017CDC } }, 900, 0x20017CDC, by decide +kernel⟩,
    ⟨st up [(SYN_DIV.w, 2), (SYN_N.w, 70), (SYN_FRAC_L.w, 5)], .f0, by decide +kernel⟩,
    ⟨st up [(FES_STAT.PATH, 2)], .f0, 0x0105, by decide +kernel⟩,
    ⟨rxUp 0x20017CDC, .f0, 5, by decide +kernel⟩,
    ⟨st up [(FES_STAT.HOLD, 1), (FES_STAT.PATH, 2), (FES_RAW_CTL.HOLD, 1)], .f0, by decide +kernel⟩⟩

theorem witness_CalibrationAndFloodCommandsComplete :
    (∃ (s : State) (f : Fn) (a : List Word) (at_ : Nat), s.Canon ∧ (s.eng f).op = some ⟨3, a, at_, none⟩ ∧
      s.runsPlans = true ∧ s.calBlocked = false) ∧
    (∃ (s : State) (good margin ms : Nat) (temp : Int) (mask : Nat) (op : Bool) (bands : List Nat), s.Canon ∧
      s.fe.cal = some (mask, op) ∧ s.fe.holdWait = false ∧ mask < 0x80) ∧
    (∃ (s : State) (c : Int) (at0 : Nat), s.Canon ∧ s.fe.calRec = some (c, at0) ∧ s.bit CAL_CFG.AUTO_EN = true ∧
      at0 + 30 * 86400 ≤ s.sec) ∧
    (∃ (s : State), s.Canon ∧ s.bit CAL_STAT.AUTO_PEND = true ∧ s.calBlocked = false ∧ s.awake = true ∧
      s.runsPlans = true) ∧
    (∃ (s : State), s.Canon ∧ s.get FLOOD_STAT.STATE ≠ 0 ∧ s.fe.evalAt + 604800 ≤ s.sec) ∧
    (∃ (s : State) (f : Fn), s.Canon ∧ Serves s f (keyPage FLOOD_CMD.w.key)) ∧
    (∃ (s : State) (kfc : Nat) (b : Base), s.Canon ∧ s.baseOf kfc = some b ∧ b.seen + 60 * 86400 ≤ s.sec) :=
  ⟨⟨opUp .f0 3 [5], .f0, [5], 0, by decide +kernel⟩,
    ⟨{ st up [(CAL_STAT.RUNNING, 1)] with fe := { Fe.start with cal := some (7, false) } }, 5, 100, 40, 200, 7, false,
      [], by decide +kernel⟩,
    ⟨{ st up [(CAL_CFG.AUTO_EN, 1)] with fe := { Fe.start with calRec := some (200, 0) }, ktime := 2592000 * oneSec },
      200, 0, by decide +kernel⟩,
    ⟨st up [(CAL_STAT.AUTO_PEND, 1)], by decide +kernel⟩,
    ⟨{ st up [(FLOOD_STAT.STATE, 2)] with ktime := 604800 * oneSec }, by decide +kernel⟩,
    ⟨{ st up [(FLOOD_STAT.STATE, 2)] with fe := { Fe.start with bases := [⟨0x20017CDC, [], some 5, 0⟩] } }, .f0,
      by decide +kernel⟩,
    ⟨{ up with fe := { Fe.start with bases := [⟨0x20017CDC, [], some 5, 0⟩] }, ktime := 5184000 * oneSec },
      0x20017CDC, ⟨0x20017CDC, [], some 5, 0⟩, by decide +kernel⟩⟩

theorem witness_RdsCommandsComplete :
    (∃ (s : State) (pilot : Bool), s.Canon ∧ s.onBearer 2 = true ∧ s.bit FMR_STAT.SYNC = false) ∧
    (∃ (s : State), s.Canon ∧ s.bit FMR_STAT.SYNC = true ∧ s.fmLost = true) ∧
    (∃ (s : State) (pos bits : Nat) (data : Word), s.Canon ∧ s.bit FMR_STAT.SYNC = true) ∧
    (∃ (s : State) (bits : Nat) (data : Word), s.Canon ∧ s.bit FMR_STAT.SYNC = true ∧ s.blockStatus bits ≤ 1 ∧
      s.fm.pi = data.toNat ∧ s.cfg AF_CFG.PI_CONF_N ≤ s.fm.piN + 1) ∧
    (∃ (s : State) (at_ : Nat) (a b c d : Word), s.Canon ∧ s.fm.blocks = [(0, a), (0, b), (0, c), (0, d)] ∧
      s.get FMR_ODA_TYPE.w < 0x8000 ∧ b.toNat / 0x800 = 0 ∧ 224 ≤ c.toNat / 0x100 ∧ c.toNat / 0x100 ≤ 249) ∧
    (∃ (s : State) (b : AfBuild), s.Canon ∧ s.fm.building = some b ∧ b.count ≤ b.codes.length) ∧
    (∃ (s : State) (v : Int) (r : Rx) (e : AfEnt), s.Canon ∧ s.onBearer 2 = true ∧ s.fe.rx = some r ∧
      r.stopped = false ∧ s.followRuns ≠ [] ∧ s.fm.confirm = none ∧ s.fe.afHost = none ∧ s.bit FMR_STAT.SYNC = false ∧
      s.afCands = [e] ∧ s.follows 29 = true ∧ s.exceeds (clampRssi false v) AF_CFG.HYST = true) ∧
    (∃ (s : State) (us : Nat) (fo : Follow), s.Canon ∧ s.fm.confirm = some fo ∧ s.bit FMR_STAT.PI_VALID = true ∧
      s.get FMR_PI.w = s.followPi ∧ us ≤ 10000 * s.cfg AF_TIME.PI_DWELL) ∧
    (∃ (s : State) (fo : Follow), s.Canon ∧ s.fm.confirm = some fo) ∧
    (∃ (s : State) (v : Int) (e : AfEnt), s.Canon ∧ s.afCands = [e] ∧ s.onBearer 2 = true ∧
      s.checks s.fm.confirm.isNone (s.bit FMR_STAT.SYNC && !s.weak 28 AF_CFG.SW_DBM) = true) ∧
    (∃ (s : State) (kfc : Nat), s.Canon ∧ s.onBearer 2 = true ∧ s.cfg AF_CTL.RECALL = 1 ∧
      s.fe.rx.any (fun r => !r.stopped) = true ∧ s.follows 29 = true ∧ s.bit FMR_STAT.PI_VALID = false ∧
      s.rxKfc = s.rxHome ∧ s.fm.confirm = none ∧ s.fm.recallTried = false ∧ s.recallGet s.fm.recalled = some kfc) ∧
    (∃ (s : State) (code : Nat), s.Canon ∧ ∀ e ∈ s.fm.list, e.code = code → e.banEnd ≤ s.sec) :=
  ⟨⟨fmUp, true, by decide +kernel⟩,
    ⟨{ st fmUp [(FMR_STAT.SYNC, 1)] with fm := { Fm.start with window := List.replicate 16 true } },
      by decide +kernel⟩,
    ⟨{ st fmUp [(FMR_STAT.SYNC, 1)] with fm := { Fm.start with } }, 1, 0, 5, by decide +kernel⟩,
    ⟨{ st fmUp [(FMR_STAT.SYNC, 1)] with fm := { Fm.start with pi := 0xC201, piN := 9 } }, 0, 0xC201,
      by decide +kernel⟩,
    ⟨{ st fmUp [(FMR_STAT.SYNC, 1)] with fm := { Fm.start with blocks := [(0, 0xC201), (0, 0), (0, 0xE205), (0, 0)] } },
      0, 0xC201, 0, 0xE205, 0, by decide +kernel⟩,
    ⟨{ st fmUp [(FMR_STAT.SYNC, 1)] with fm := { Fm.start with building := some ⟨1, [5], [], 0, false⟩ } }, ⟨1, [5],
      [], 0, false⟩, by decide +kernel⟩,
    ⟨{ st followUp [(FES_RSSI.w, 0xFE70)] with fm := { Fm.start with list := [⟨20, false, false, false, 0, none⟩] } },
      0, (rxOf 0x20017CDC), ⟨20, false, false, false, 0, none⟩, by decide +kernel⟩,
    ⟨{ st fmUp [(FMR_STAT.PI_VALID, 1), (FMR_PI.w, 0xC201)] with fm := { Fm.start with confirm := some ⟨0x20017D40, 0x20017CDC, 2, 0xFF00, 0⟩, first := 0xC201 } },
      0, ⟨0x20017D40, 0x20017CDC, 2, 0xFF00, 0⟩, by decide +kernel⟩,
    ⟨{ st fmUp [(FMR_STAT.SYNC, 1)] with fm := { Fm.start with confirm := some ⟨0x20017D40, 0x20017CDC, 2, 0xFF00, 0⟩ } },
      ⟨0x20017D40, 0x20017CDC, 2, 0xFF00, 0⟩, by decide +kernel⟩,
    ⟨{ st followUp [(FES_RSSI.w, 0), (FMR_STAT.SYNC, 1)] with fm := { Fm.start with list := [⟨20, false, false, false, 0, none⟩] } },
      (-100), ⟨20, false, false, false, 0, none⟩, by decide +kernel⟩,
    ⟨{ st followUp [(AF_CTL.RECALL, 1)] with fm := { Fm.start with recalled := [(.f1, 0, 0x20017D40)] } }, 0x20017D40,
      by decide +kernel⟩,
    ⟨{ st fmUp [(FMR_STAT.SYNC, 1)] with fm := { Fm.start with list := [⟨20, false, false, true, 0, none⟩] } }, 20,
      by decide +kernel⟩⟩

theorem witness_DabCommandsComplete :
    (∃ (s : State), s.Canon ∧ s.onBearer 3 = true ∧ s.pikaServes = true ∧ s.bit DAB_STAT.SYNC = false) ∧
    (∃ (s : State), s.Canon ∧ s.bit DAB_STAT.SYNC = true) ∧
    (∃ (s : State) (at_ : Nat) (bytes : List Byte), s.Canon ∧ s.bit DAB_STAT.SYNC = true) ∧
    (∃ (s : State) (at_ : Nat) (bytes : List Byte) (g : Fig), s.Canon ∧ s.bit DAB_STAT.SYNC = true ∧
      figs 30 (bytes.take 30) = [g] ∧ g.type = 0 ∧ g.ext = 0) ∧
    (∃ (s : State) (c : Nat) (m : Mux) (r : Rx), s.Canon ∧ s.dab.next = some (c, m) ∧ s.fe.rx = some r ∧
      r.sub = 0x40) ∧
    (∃ (s : State) (bytes : List Byte) (r : Rx), s.Canon ∧ s.fe.rx = some r ∧ s.bit DAB_STAT.SUBCH_ON = true ∧
      beAt bytes 0 2 % 0x400 ≠ 0 ∧ r.addrs.contains (beAt bytes 0 2 % 0x400) = true) ∧
    (∃ (s : State) (bytes : List Byte) (r : Rx), s.Canon ∧ s.fe.rx = some r ∧ s.bit DAB_STAT.SUBCH_ON = true ∧
      beAt bytes 0 2 % 0x400 ≠ 0 ∧ r.addrs.contains (beAt bytes 0 2 % 0x400) = true ∧ bytes.length = 96 ∧
      beAt bytes 0 1 / 0x40 = 3 ∧ beAt bytes 0 1 / 4 % 4 = 3 ∧ beAt bytes 2 1 = 80) ∧
    (∃ (s : State) (v : Int) (r : Rx) (c : DabCand), s.Canon ∧ s.onBearer 3 = true ∧ s.fe.rx = some r ∧
      r.stopped = false ∧ s.followRuns ≠ [] ∧ s.dab.confirm = none ∧ s.fe.afHost = none ∧ s.fibsBad = true ∧
      s.dabCands = [c] ∧ s.follows 31 = true ∧ s.exceeds (clampRssi false v) DAB_AF_CFG.HYST = true) ∧
    (∃ (s : State) (ms : Nat) (fo : Follow), s.Canon ∧ ms ≤ 100 * s.cfg DAB_AF_TIME.CONF_DWELL ∧
      s.dab.confirm = some fo ∧ s.candOf fo.kfc = none ∧ s.bit DAB_STAT.SYNC = true ∧
      s.bit DAB_STAT.EID_VALID = true ∧ (s.dab.services.any (fun e => e.1 == s.followSid) = true)) ∧
    (∃ (s : State) (fo : Follow), s.Canon ∧ s.dab.confirm = some fo) ∧
    (∃ (s : State) (v : Int) (c : DabCand), s.Canon ∧ s.dabCands = [c] ∧ s.onBearer 3 = true ∧
      s.checks s.dab.confirm.isNone (!s.fibsBad && !s.weak 30 DAB_AF_CFG.SW_DBM) = true) ∧
    (∃ (s : State) (kfc : Nat), s.Canon ∧ s.onBearer 3 = true ∧ s.cfg DAB_AF_CTL.RECALL = 1 ∧
      s.fe.rx.any (fun r => !r.stopped) = true ∧ s.follows 31 = true ∧ s.bit DAB_STAT.SYNC = false ∧
      s.offHome = false ∧ s.dab.confirm = none ∧ s.dab.recallTried = false ∧ s.recallGet s.dab.recalled = some kfc) ∧
    (∃ (s : State) (freq : Nat), s.Canon ∧ ∀ c ∈ s.dab.cands, c.freq = freq → c.banEnd ≤ s.sec) ∧
    (∃ (s : State) (err : Int) (sd : Nat), s.Canon ∧ s.bit DAB_STAT.SYNC = true ∧ s.dab.syncAt + 32768 ≤ s.aon) ∧
    (∃ (s : State), s.Canon ∧ s.onBearer 3 = true) :=
  ⟨⟨st dabUp [(BOOT_STAT.PIKA, 2), (CLK_STAT.PLL_LOCK, 1), (CLK_STAT.PIKA_ON, 1)], by decide +kernel⟩,
    ⟨{ st dabUp [(DAB_STAT.SYNC, 1), (DAB_STAT.EID_VALID, 1)] with dab := { Dab.start with } }, by decide +kernel⟩,
    ⟨{ st dabUp [(DAB_STAT.SYNC, 1), (DAB_STAT.EID_VALID, 1)] with dab := { Dab.start with } }, 0, [],
      by decide +kernel⟩,
    ⟨{ st dabUp [(DAB_STAT.SYNC, 1), (DAB_STAT.EID_VALID, 1)] with dab := { Dab.start with } }, 0, [0x05, 0x00, 0x10,
      0x01, 0x00, 0x07, 0xFF], ⟨0, 0, false, false, false, [0x10, 0x01, 0x00, 0x07]⟩, by decide +kernel⟩,
    ⟨{ st dabUp [(DAB_STAT.SYNC, 1), (DAB_STAT.EID_VALID, 1)] with dab := { Dab.start with next := some (7, ⟨[], [(1, 2, 3)]⟩) } },
      7, ⟨[], [(1, 2, 3)]⟩, (rxOf 0x3003A300), by decide +kernel⟩,
    ⟨{ st up [(DAB_STAT.SUBCH_ON, 1)] with fe := { Fe.start with rx := some { rxOf 0x3003A300 with sub := 2, addrs := [5] } } },
      [0xC0, 0x05], { rxOf 0x3003A300 with sub := 2, addrs := [5] }, by decide +kernel⟩,
    ⟨{ st up [(DAB_STAT.SUBCH_ON, 1)] with fe := { Fe.start with rx := some { rxOf 0x3003A300 with sub := 2, addrs := [5] } } },
      ([0xCC, 0x05, 80] ++ List.replicate 93 0), { rxOf 0x3003A300 with sub := 2, addrs := [5] }, by decide +kernel⟩,
    ⟨{ st dabFollowUp [(FES_RSSI.w, 0xFE70)] with dab := { Dab.start with cands := [⟨12000, false, false, false, 0, 0x1001, none⟩] } },
      0, (rxOf 0x3003A300), ⟨12000, false, false, false, 0, 0x1001, none⟩, by decide +kernel⟩,
    ⟨{ st dabUp [(DAB_STAT.SYNC, 1), (DAB_STAT.EID_VALID, 1)] with dab := { Dab.start with confirm := some ⟨0x3002EE00, 0x3003A300, 2, 0xFF00, 0⟩, services := [(0, [])] } },
      0, ⟨0x3002EE00, 0x3003A300, 2, 0xFF00, 0⟩, by decide +kernel⟩,
    ⟨{ st dabUp [(DAB_STAT.SYNC, 1), (DAB_STAT.EID_VALID, 1)] with dab := { Dab.start with confirm := some ⟨0x3002EE00, 0x3003A300, 2, 0xFF00, 0⟩ } },
      ⟨0x3002EE00, 0x3003A300, 2, 0xFF00, 0⟩, by decide +kernel⟩,
    ⟨{ st dabFollowUp [(FES_RSSI.w, 0), (DAB_STAT.SYNC, 1)] with dab := { Dab.start with cands := [⟨12000, false, false, false, 0, 0x1001, none⟩], fibs := List.replicate 20 true } },
      (-100), ⟨12000, false, false, false, 0, 0x1001, none⟩, by decide +kernel⟩,
    ⟨{ st dabFollowUp [(DAB_AF_CTL.RECALL, 1)] with dab := { Dab.start with recalled := [(.f1, 0, 0x3002EE00)] } },
      0x3002EE00, by decide +kernel⟩,
    ⟨{ st dabUp [(DAB_STAT.SYNC, 1), (DAB_STAT.EID_VALID, 1)] with dab := { Dab.start with cands := [⟨12000, false, false, true, 0, 0x1001, none⟩] } },
      12000, by decide +kernel⟩,
    ⟨{ st dabUp [(DAB_STAT.SYNC, 1), (DAB_STAT.EID_VALID, 1)] with aon := 32768 }, (-40), 30, by decide +kernel⟩,
    ⟨dabUp, by decide +kernel⟩⟩

theorem witness_LfCommandsComplete :
    (∃ (s : State) (f : Fn) (v : Word), s.Canon ∧ Serves s f (keyPage LFT_TPL_SEL.w.key) ∧
      legalWord f LFT_TPL_SEL.w.key v = true) ∧
    (∃ (s : State) (f : Fn), s.Canon ∧ Serves s f (keyPage LFT_TPL_CTL.w.key) ∧ s.bit PART_STAT.LOCKED = false ∧
      (tplOk ((List.range 16).map (fun i => s.reg (LFT_TPL.w i).key)) = true)) ∧
    (∃ (s : State) (f : Fn), s.Canon ∧ Serves s f (keyPage LFT_TPL_CTL.w.key) ∧ s.bit PART_STAT.LOCKED = false) ∧
    (∃ (s : State) (edge durUs n e : Nat) (tpl : List Word), s.Canon ∧ s.lf.copy = some (n, tpl) ∧
      s.onBearer 1 = true ∧ s.lf.lastEdge = some e ∧ oneApart e edge = true ∧ s.bit LFT_STAT.FRAMESYNC = false) ∧
    (∃ (s : State) (e : Nat), s.Canon ∧ s.lf.lastEdge = some e ∧ s.bit LFT_STAT.SECSYNC = true ∧
      e + 5 * 2 ^ 24 ≤ s.ktime) ∧
    (∃ (s : State) (n e : Nat) (tpl : List Word) (x : LfSec), s.Canon ∧ s.lf.copy = some (n, tpl) ∧
      s.lf.lastEdge = some e ∧ s.onBearer 1 = true ∧ tplWord tpl 7 / 0x8000 = 0 ∧ s.lf.secs.getLast? = some x ∧
      x.cls = 3 ∧ s.bit LFT_STAT.SECSYNC = true ∧ s.bit LFT_STAT.FRAMESYNC = false) ∧
    (∃ (s : State) (n e : Nat) (tpl : List Word) (x : LfSec), s.Canon ∧ s.lf.copy = some (n, tpl) ∧
      s.lf.lastEdge = some e ∧ s.onBearer 1 = true ∧ tplWord tpl 7 / 0x8000 = 0 ∧ s.lf.secs.getLast? = some x ∧
      x.cls = 3 ∧ s.bit LFT_STAT.FRAMESYNC = true ∧ tplLen tpl ≤ s.lf.secs.length) ∧
    (∃ (s : State) (err : Int) (sd : Nat), s.Canon ∧ s.onBearer 1 = true ∧ s.bit LFT_STAT.CARRIER = true ∧
      s.lf.carAt + 4 * 32768 ≤ s.aon) ∧
    (∃ (s : State) (db : Int), s.Canon ∧ s.onBearer 1 = true ∧ (s.get LFT_CFG.CAR_DB : Int) < db) ∧
    (∃ (s : State) (db : Int), s.Canon ∧ s.onBearer 1 = true ∧ db < (s.get LFT_CFG.CAR_DB : Int) ∧
      s.bit LFT_STAT.CARRIER = true) :=
  ⟨⟨up, .f0, 2, by decide +kernel⟩,
    ⟨st up tplEdit, .f0, by decide +kernel⟩,
    ⟨up, .f0, by decide +kernel⟩,
    ⟨{ lfUp with lf := { Lf.start with copy := some (0, lfTpl), lastEdge := some 0x1000000 } }, 0x2000000, 100000, 0,
      0x1000000, lfTpl, by decide +kernel⟩,
    ⟨{ st lfUp [(LFT_STAT.SECSYNC, 1)] with lf := { Lf.start with lastEdge := some 0 }, ktime := 5 * oneSec }, 0,
      by decide +kernel⟩,
    ⟨{ st lfUp [(LFT_STAT.SECSYNC, 1)] with lf := { Lf.start with copy := some (0, lfTpl), lastEdge := some 0x1000000, secs := [⟨3, 0x1000000⟩] } },
      0, 0x1000000, lfTpl, ⟨3, 0x1000000⟩, by decide +kernel⟩,
    ⟨{ st lfUp [(LFT_STAT.SECSYNC, 1), (LFT_STAT.FRAMESYNC, 1)] with lf := { Lf.start with copy := some (0, lfTpl), lastEdge := some 0x1000000, secs := List.replicate 60 ⟨3, 0x1000000⟩ } },
      0, 0x1000000, lfTpl, ⟨3, 0x1000000⟩, by decide +kernel⟩,
    ⟨{ st lfUp [(LFT_STAT.CARRIER, 1)] with aon := 4 * 32768 }, (-40), 30, by decide +kernel⟩,
    ⟨lfUp, 100, by decide +kernel⟩,
    ⟨st lfUp [(LFT_STAT.CARRIER, 1)], (-10), by decide +kernel⟩⟩

theorem witness_TimeCommandsComplete :
    (∃ (s : State) (c : Cand), s.Canon ∧ s.time.cands = [c] ∧ s.candPasses c = true ∧ s.capt.job = none ∧
      s.get TIME_SLEW_LIM.w = 0) ∧
    (∃ (s : State) (c : Cand), s.Canon ∧ s.time.cands = [c] ∧ s.candPasses c = true ∧ s.capt.job = none ∧
      s.get TIME_SLEW_LIM.w ≠ 0 ∧ (c.named - c.held).natAbs * 1000000 ≤ s.get TIME_SLEW_LIM.w * 2 ^ 24) ∧
    (∃ (s : State) (c : Cand), s.Canon ∧ s.time.cands = [c] ∧ s.candPasses c = false) ∧
    (∃ (s : State), s.Canon ∧ s.time.slew = 0) ∧
    (∃ (s : State) (c : Cand), s.Canon ∧ s.time.deferred = some c ∧ s.capt.job = none) ∧
    (∃ (s : State) (f : Fn) (a : List Word) (at_ : Nat), s.Canon ∧ (s.eng f).op = some ⟨2, a, at_, none⟩ ∧
      s.time.cands.any (fun c => c.fn == some f) = false ∧ arg a 4 % 32 ≠ 31 ∧ arg a 4 / 0x100 % 2 = 0 ∧
      arg a 4 / 0x400 % 4 = 0) ∧
    (∃ (s : State) (temp : Int), s.Canon ∧ s.tempGrid = true) ∧
    (∃ (s : State) (relErr : Int) (moved sd t0 : Nat) (x : Int) (e : ℚ) (rest : List (Int × Nat × Nat)), s.Canon ∧
      s.xoBroadcast = some e ∧ s.time.xoMeas = (x, sd, t0) :: rest ∧ s.bit CLK_STAT.XO_OK = true ∧ s.onX32 = true ∧
      sd ≤ 50 ∧ moved < 4) ∧
    (∃ (s : State), s.Canon ∧ s.leapDue = true) ∧
    (∃ (s : State) (f : Fn), s.Canon ∧ Serves s f (keyPage TIME_CMD.w.key)) ∧
    (∃ (s : State) (f : Fn), s.Canon ∧ Serves s f (keyPage TIME_CMD.w.key)) ∧
    (∃ (s : State), s.Canon ∧ s.get MODE.CUR ≠ 0 ∧ s.pins.porAsserted = false ∧ s.pins.test = false ∧
      s.pins.vddio = true ∧ s.pulsePin = true ∧ s.pulseInstant = true ∧ s.time.pulseSkip = false ∧
      s.bit TIME_PPS.QUAL = false) ∧
    (∃ (s : State), s.Canon ∧ codeOf s.time.whole = 31 ∧ s.time.prevCode < 31 ∧ s.time.loss2 = false) ∧
    (∃ (s : State) (f : Fn) (v : Word), s.Canon ∧ Serves s f (keyPage TIME_LOSS_THR.w.key) ∧
      legalWord f TIME_LOSS_THR.w.key v = true) :=
  ⟨⟨{ st up [(TIME_SRC_EN.w, 0x1E), (TIME_SLEW_LIM.w, 0)] with time := { TimeEng.start with cands := [⟨3, 5, 0x3000000, 0x2000000, none, false, 0⟩] }, ktime := 0x2000000 },
      ⟨3, 5, 0x3000000, 0x2000000, none, false, 0⟩, by decide +kernel⟩,
    ⟨{ st up [(TIME_SRC_EN.w, 0x1E), (TIME_SLEW_LIM.w, 1000)] with time := { TimeEng.start with cands := [⟨3, 5, 0x2000010, 0x2000000, none, false, 0⟩] }, ktime := 0x2000000 },
      ⟨3, 5, 0x2000010, 0x2000000, none, false, 0⟩, by decide +kernel⟩,
    ⟨{ st up [(TIME_SRC_EN.w, 0)] with time := { TimeEng.start with cands := [⟨3, 5, 0x3000000, 0x2000000, none, false, 0⟩] } },
      ⟨3, 5, 0x3000000, 0x2000000, none, false, 0⟩, by decide +kernel⟩,
    ⟨up, by decide +kernel⟩,
    ⟨{ st up [(TIME_STAT.DEFERRED, 1)] with time := { TimeEng.start with deferred := some ⟨3, 5, 0x3000000, 0x2000000, none, false, 0⟩ } },
      ⟨3, 5, 0x3000000, 0x2000000, none, false, 0⟩, by decide +kernel⟩,
    ⟨opUp .f1 2 [1, 2, 3, 0, 5, 0], .f1, [1, 2, 3, 0, 5, 0], 0, by decide +kernel⟩,
    ⟨up, 180, by decide +kernel⟩,
    ⟨{ st up [(CLK_STAT.XO_OK, 1), (CLK_STAT.X32_OK, 1)] with time := { TimeEng.start with xoMeas := [(10, 20, 0)] } },
      (-3), 1, 20, 0, 10, 10, [], by decide +kernel⟩,
    ⟨st up [(TIME_LEAP_PEND.w, 1)], by decide +kernel⟩,
    ⟨st up [(TIME_LEAP_PEND.w, 1)], .f0, by decide +kernel⟩,
    ⟨st up [(TIME_STAT.X32_MODEL_OK, 1)], .f0, by decide +kernel⟩,
    ⟨st up [(GPIO0_CFG.FUNC, 2), (TIME_PPS.QUAL, 0)], by decide +kernel⟩,
    ⟨{ up with time := { TimeEng.start with prevCode := 20 } }, by decide +kernel⟩,
    ⟨up, .f0, 12, by decide +kernel⟩⟩

theorem witness_HoardCommandsComplete :
    (∃ (s : State) (n t0 : Nat) (l : List (Option Byte)), s.Canon ∧ s.edf.asm = some (n, l, t0) ∧ t0 + 30 ≤ s.sec) ∧
    (∃ (s : State) (st_ ob blk : Nat) (pikaOk : Bool) (o : Obj) (b : Blk), s.Canon ∧ s.obj st_ ob = some o ∧
      (o.blks.find? (fun x => x.no == blk) = some b) ∧ b.complete = false ∧ b.k ≤ b.segs.length ∧
      b.systematic = true ∧ (o.blks.find? (fun x => x.no == 0) = none)) ∧
    (∃ (s : State) (st_ ob blk : Nat) (o : Obj) (b : Blk), s.Canon ∧ s.obj st_ ob = some o ∧
      (o.blks.find? (fun x => x.no == blk) = some b) ∧ b.retryAt ≠ 0 ∧ b.retryAt ≤ s.edf.rxEnds ∧ b.complete = false ∧
      b.k ≤ b.segs.length ∧ s.pikaServes = true ∧ (o.blks.find? (fun x => x.no == 0) = none)) ∧
    (∃ (s : State) (st_ ob : Nat) (o : Obj), s.Canon ∧ s.obj st_ ob = some o ∧ o.state = 1 ∧ o.ready = true ∧
      s.check (s.objBytes o) o.type false = 0 ∧ (objHead (s.objBytes o)).type = 4) ∧
    (∃ (s : State) (st_ ob : Nat) (o : Obj), s.Canon ∧ s.obj st_ ob = some o ∧ o.state = 1 ∧ o.ready = true ∧
      s.check (s.objBytes o) o.type false = 5) ∧
    (∃ (s : State) (o : Obj) (b : Blk) (g : Seg) (n k : Nat), s.Canon ∧ s.edf.objs = [o] ∧ o.blks = [b] ∧
      b.segs = [g] ∧ g.sector = none ∧ s.edf.fill = some (n, k) ∧ k < 52 ∧ s.fe.rx = none ∧ s.flashBusy = false) ∧
    (∃ (s : State) (f : Fn) (o : Obj) (b : Blk) (g : Seg) (n k : Nat), s.Canon ∧ Serves s f (keyPage EDF_CMD.w.key) ∧
      s.edf.objs = [o] ∧ o.blks = [b] ∧ b.segs = [g] ∧ g.sector = none ∧ s.edf.fill = some (n, k) ∧ k < 52) ∧
    (∃ (s : State), s.Canon ∧ s.bit EDF_STAT.COMPACT = true ∧ (∀ o ∈ s.edf.objs, o.state ≠ 1)) ∧
    (∃ (s : State), s.Canon ∧
      2000 < ((List.range s.sectors).map s.wearOf).foldl max 0 - ((List.range s.sectors).map s.wearOf).foldl min
      (((List.range s.sectors).map s.wearOf).headD 0)) ∧
    (∃ (s : State) (st_ ob : Nat) (o : Obj), s.Canon ∧ s.obj st_ ob = some o ∧ o.state = 2 ∧ s.expired o = true ∧
      s.staged o = false) ∧
    (∃ (s : State) (st_ ob : Nat), s.Canon) :=
  ⟨⟨{ up with edf := { Edf.start with asm := some (1, [], 0) }, ktime := 30 * oneSec }, 1, 0, [], by decide +kernel⟩,
    ⟨{ st up [] with edf := { Edf.start with objs := [⟨1, 7, 4, 1, [⟨1, 1, 1, [⟨0, [], none⟩], false, 0⟩], 1, 0, [], false, [], .f0, none, 0, false⟩] } },
      1, 7, 1, true, ⟨1, 7, 4, 1, [⟨1, 1, 1, [⟨0, [], none⟩], false, 0⟩], 1, 0, [], false, [], .f0, none, 0, false⟩,
      ⟨1, 1, 1, [⟨0, [], none⟩], false, 0⟩, by decide +kernel⟩,
    ⟨{ st up [(BOOT_STAT.PIKA, 2), (CLK_STAT.PLL_LOCK, 1), (CLK_STAT.PIKA_ON, 1)] with edf := { Edf.start with objs := [⟨1, 7, 4, 1, [⟨1, 1, 1, [⟨0, [], none⟩], false, 1⟩], 1, 0, [], false, [], .f0, none, 0, false⟩], rxEnds := 1 } },
      1, 7, 1, ⟨1, 7, 4, 1, [⟨1, 1, 1, [⟨0, [], none⟩], false, 1⟩], 1, 0, [], false, [], .f0, none, 0, false⟩,
      ⟨1, 1, 1, [⟨0, [], none⟩], false, 1⟩, by decide +kernel⟩,
    ⟨signedObj objSig, 1, 7,
      ⟨1, 7, 4, 0, [⟨0, 3, 3, [], true, 0⟩], 1, 0, [], false, [], .f0, some (0x210000, 1), 0, false⟩,
      by decide +kernel⟩,
    ⟨signedObj (objSig + 1), 1, 7,
      ⟨1, 7, 4, 0, [⟨0, 3, 3, [], true, 0⟩], 1, 0, [], false, [], .f0, some (0x210000, 1), 0, false⟩,
      by decide +kernel⟩,
    ⟨{ st up [] with edf := { Edf.start with objs := [⟨1, 7, 4, 1, [⟨1, 1, 1, [⟨0, [], none⟩], false, 0⟩], 1, 0, [], false, [], .f0, none, 0, false⟩], fill := some (3, 5) } },
      ⟨1, 7, 4, 1, [⟨1, 1, 1, [⟨0, [], none⟩], false, 0⟩], 1, 0, [], false, [], .f0, none, 0, false⟩, ⟨1, 1, 1, [⟨0,
      [], none⟩], false, 0⟩, ⟨0, [], none⟩, 3, 5, by decide +kernel⟩,
    ⟨{ st up [] with edf := { Edf.start with objs := [⟨1, 7, 4, 1, [⟨1, 1, 1, [⟨0, [], none⟩], false, 0⟩], 1, 0, [], false, [], .f0, none, 0, false⟩], fill := some (3, 5) } },
      .f0, ⟨1, 7, 4, 1, [⟨1, 1, 1, [⟨0, [], none⟩], false, 0⟩], 1, 0, [], false, [], .f0, none, 0, false⟩, ⟨1, 1, 1,
      [⟨0, [], none⟩], false, 0⟩, ⟨0, [], none⟩, 3, 5, by decide +kernel⟩,
    ⟨{ st up [(EDF_STAT.COMPACT, 1)] with edf := { Edf.start with objs := [⟨1, 7, 4, 0, [⟨0, 3, 3, [], true, 0⟩], 2, 0, [.f0], true, [], .f0, some (0x210000, 1), 5, false⟩] } },
      by decide +kernel⟩,
    ⟨{ st up [] with edf := { Edf.start with wear := [(3, 2500)] } }, by decide +kernel⟩,
    ⟨{ up with edf := { Edf.start with objs := [⟨1, 7, 4, 0, [⟨0, 3, 3, [], true, 0⟩], 2, 0, [.f0], true, [], .f0, some (0x210000, 1), 5, false⟩] }, ktime := 100000 * oneSec },
      1, 7, ⟨1, 7, 4, 0, [⟨0, 3, 3, [], true, 0⟩], 2, 0, [.f0], true, [], .f0, some (0x210000, 1), 5, false⟩,
      by decide +kernel⟩,
    ⟨{ up with edf := { Edf.start with done := [(1, 7, 0)] }, ktime := 7776000 * oneSec }, 1, 7, by decide +kernel⟩⟩

theorem witness_DatacastCommandsComplete :
    (∃ (s : State) (v : Van), s.Canon ∧ s.edf.vans = [v] ∧ v.start = s.sec % 0x100000000 ∧ v.period = 0 ∧
      codeOf s.time.whole ≠ 31 ∧ s.get WAKE_CFG.w % 2 = 1 ∧ s.dormouse = true) ∧
    (∃ (s : State) (f : Fn), s.Canon ∧ Serves s f (keyPage EDF_CMD.w.key)) ∧
    (∃ (s : State), s.Canon ∧ Serves s .f0 (keyPage EDF_CMD.w.key) ∧ s.img.staging = false) ∧
    (∃ (s : State) (e : RxEnd), s.Canon ∧ s.edf.ended = [e]) ∧
    (∃ (s : State) (f : Fn) (a : List Word) (at_ : Nat), s.Canon ∧ (s.eng f).op = some ⟨6, a, at_, none⟩ ∧
      arg a 0 % 4 = 0 ∧ s.grant f 0x12 ≠ 0) ∧
    (∃ (s : State) (a : List Word) (at_ : Nat) (o : Obj), s.Canon ∧ (s.eng .f0).op = some ⟨6, a, at_, none⟩ ∧
      arg a 0 % 4 = 1 ∧ s.obj (arg a 1) (arg a 2) = some o ∧ o.state = 2 ∧ s.staged o = false) ∧
    (∃ (s : State) (f : Fn) (a : List Word) (at_ : Nat) (o : Obj), s.Canon ∧ (s.eng f).op = some ⟨6, a, at_, none⟩ ∧
      arg a 0 % 4 = 2 ∧ s.grant f 0x12 ≠ 0 ∧
      (leastBy Obj.id (s.edf.objs.filter (fun o => o.stream == arg a 1 && arg a 2 < o.id)) = some o)) ∧
    (∃ (s : State) (f : Fn) (a : List Word) (at_ : Nat), s.Canon ∧ (s.eng f).op = some ⟨6, a, at_, none⟩ ∧
      arg a 0 % 4 = 3 ∧ s.grant f 0x12 ≠ 0) ∧
    (∃ (s : State) (f : Fn) (a : List Word) (at_ res : Nat) (o : Obj), s.Canon ∧
      (s.eng f).op = some ⟨5, a, at_, none⟩ ∧ s.flintWaits f = false ∧ arg a 0 % 4 = 1 ∧ arg a 0 / 16 % 2 = 0 ∧
      s.obj (arg a 1) (arg a 2) = some o ∧ o.state ≠ 1 ∧ s.staged o = false ∧
      res = s.check (s.objBytes o) o.type false) :=
  ⟨⟨{ st up [(WAKE_CFG.w, 1)] with edf := { Edf.start with vans := [⟨5, 0, 0, 10⟩] }, ktime := 5 * oneSec, time := { TimeEng.start with bound := some 0, src := 3 } },
      ⟨5, 0, 0, 10⟩, by decide +kernel⟩,
    ⟨{ st up [] with edf := { Edf.start with vans := [⟨5, 0, 0, 10⟩] } }, .f0, by decide +kernel⟩,
    ⟨{ st up [] with edf := { Edf.start with objs := [⟨1, 7, 4, 0, [⟨0, 3, 3, [], true, 0⟩], 2, 0, [.f0], true, [], .f0, some (0x210000, 1), 5, false⟩] } },
      by decide +kernel⟩,
    ⟨{ st up [] with edf := { Edf.start with ended := [⟨0, [(.f0, 1)], []⟩] } }, ⟨0, [(.f0, 1)], []⟩,
      by decide +kernel⟩,
    ⟨{ opUp .f0 6 [0, 1, 7] with edf := { Edf.start with objs := [⟨1, 7, 4, 0, [⟨0, 3, 3, [], true, 0⟩], 2, 0, [.f0], true, [], .f0, some (0x210000, 1), 5, false⟩] } },
      .f0, [0, 1, 7], 0, by decide +kernel⟩,
    ⟨{ opUp .f0 6 [1, 1, 7] with edf := { Edf.start with objs := [⟨1, 7, 4, 0, [⟨0, 3, 3, [], true, 0⟩], 2, 0, [.f0], true, [], .f0, some (0x210000, 1), 5, false⟩] } },
      [1, 1, 7], 0, ⟨1, 7, 4, 0, [⟨0, 3, 3, [], true, 0⟩], 2, 0, [.f0], true, [], .f0, some (0x210000, 1), 5, false⟩,
      by decide +kernel⟩,
    ⟨{ opUp .f0 6 [2, 1, 3] with edf := { Edf.start with objs := [⟨1, 7, 4, 0, [⟨0, 3, 3, [], true, 0⟩], 2, 0, [.f0], true, [], .f0, some (0x210000, 1), 5, false⟩] } },
      .f0, [2, 1, 3], 0, ⟨1, 7, 4, 0, [⟨0, 3, 3, [], true, 0⟩], 2, 0, [.f0], true, [], .f0, some (0x210000, 1), 5,
      false⟩, by decide +kernel⟩,
    ⟨{ opUp .f0 6 [3] with edf := { Edf.start with objs := [⟨1, 7, 4, 0, [⟨0, 3, 3, [], true, 0⟩], 2, 0, [.f0], true, [], .f0, some (0x210000, 1), 5, false⟩] } },
      .f0, [3], 0, by decide +kernel⟩,
    ⟨{ imgObj 2 with fns := ⟨{ FnEng.start with op := some ⟨5, [1, 1, 7], 0, none⟩ }, FnEng.start, FnEng.start, FnEng.start⟩ },
      .f0, [1, 1, 7], 0, _,
      ⟨1, 7, 4, 0, [⟨0, 3, 3, [], true, 0⟩], 2, 0, [.f0], true, [], .f0, some (0x210000, 1), 0, false⟩,
      by decide +kernel, by decide +kernel, by decide +kernel, by decide +kernel, by decide +kernel,
      by decide +kernel, by decide +kernel, by decide +kernel, rfl⟩⟩

theorem witness_AudioPortCommandsComplete :
    (∃ (s : State) (f : Fn) (v : Word), s.Canon ∧ Serves s f (keyPage (AP.CTL.w 0).key) ∧
      legalWord f (AP.CTL.w 0).key v = true ∧ v.toNat % 2 = 1 ∧ s.armed .ap0 = false ∧ s.ap.p0.run = false ∧
      s.get (AP.CTL.RX 0) = v.toNat / 4 % 2 ∧ s.get (AP.CTL.TX 0) = v.toNat / 2 % 2 ∧ s.armError .ap0 = 0) ∧
    (∃ (s : State) (port : AudioPort), s.Canon ∧ s.mayStart port = true ∧ s.portClock port = true ∧ port ≠ .bph) ∧
    (∃ (s : State), s.Canon ∧ s.mayStart .bph = true ∧ s.portClock .bph = true) ∧
    (∃ (s : State) (port : AudioPort), s.Canon ∧ s.capt.job = none ∧ (s.port port).run = true) ∧
    (∃ (s : State) (port : AudioPort), s.Canon ∧ port ≠ .bph ∧ (s.port port).run = true ∧ s.txOn port = true ∧
      s.get (txstFld port) = 0 ∧ s.fadeLen port < s.ringLevel port) ∧
    (∃ (s : State) (port : AudioPort), s.Canon ∧ port ≠ .bph ∧ (s.port port).run = true ∧ s.txOn port = true ∧
      s.get (txstFld port) = 2 ∧ s.ringLevel port < s.get (lowat port)) ∧
    (∃ (s : State) (port : AudioPort) (slots : List Int), s.Canon ∧ port ≠ .bph ∧ (s.port port).run = true ∧
      s.rxOn port = true ∧ s.txOn port = false ∧ s.capt.job = none) ∧
    (∃ (s : State) (port : AudioPort) (samples : Nat), s.Canon ∧ (s.port port).run = true ∧ s.txOn port = true) ∧
    (∃ (s : State) (f : Fn) (v : Word), s.Canon ∧ Serves s f (keyPage (AP.WPTR.w 0).key) ∧
      legalWord f (AP.WPTR.w 0).key v = true ∧ v.toNat < 16384 ∧ s.txOn .ap0 = false ∧ s.txOn .ap1 = false) ∧
    (∃ (s : State) (f : Fn), s.Canon ∧ Serves s f (keyPage (AP.CMD.w 0).key) ∧ s.ap.p0.run = false ∧
      s.ap.p1.run = false) ∧
    (∃ (s : State) (f : Fn), s.Canon ∧ Serves s f (keyPage BPH_CMD.w.key) ∧ s.ap.bph.run = false) :=
  ⟨⟨st up [(AP.CTL.RX 0, 1)], .f0, 5, by decide +kernel⟩,
    ⟨{ st up [(AP.CTL.ARM 0, 1), (CLK_STAT.XO_OK, 1)] with capt := { Capt.start with job := some job0 } }, .ap0,
      by decide +kernel⟩,
    ⟨{ st up [(BPH_CTL.OUT_ARM, 1), (CLK_STAT.XO_OK, 1)] with capt := { Capt.start with job := some job0 } },
      by decide +kernel⟩,
    ⟨{ up with ap := { Ports.start with p0 := { Port.start with run := true } } }, .ap0, by decide +kernel⟩,
    ⟨{ st up [(AP.CTL.TX 0, 1), (AP.WPTR.w 0, 12000)] with ap := { Ports.start with p0 := { Port.start with run := true } } },
      .ap0, by decide +kernel⟩,
    ⟨{ st up [(AP.CTL.TX 0, 1), (AP.STAT.TXST 0, 2), (AP.LOWAT.w 0, 100)] with ap := { Ports.start with p0 := { Port.start with run := true } } },
      .ap0, by decide +kernel⟩,
    ⟨{ st up [(AP.CTL.RX 0, 1)] with ap := { Ports.start with p0 := { Port.start with run := true } } }, .ap0, [1, 2],
      by decide +kernel⟩,
    ⟨{ st up [(AP.CTL.TX 0, 1)] with ap := { Ports.start with p0 := { Port.start with run := true } } }, .ap0, 5,
      by decide +kernel⟩,
    ⟨up, .f0, 0x100, by decide +kernel⟩,
    ⟨st up [(AP.WPTR.w 0, 64)], .f0, by decide +kernel⟩,
    ⟨st up [(BPH_WPTR.w, 64)], .f0, by decide +kernel⟩⟩

theorem witness_BiphaseAndCaptureCommandsComplete :
    (∃ (s : State), s.Canon ∧ s.bphRuns = true ∧ s.bit BPH_STAT.LOCK = false) ∧
    (∃ (s : State) (missing violated : Nat), s.Canon ∧ s.bit BPH_STAT.LOCK = true ∧ 3 ≤ missing) ∧
    (∃ (s : State) (word : BitVec 24) (valid user status parityOk : Bool), s.Canon ∧ s.bit BPH_STAT.LOCK = true) ∧
    (∃ (s : State) (word : BitVec 24) (valid user status parityOk : Bool), s.Canon ∧ s.bit BPH_STAT.LOCK = true) ∧
    (∃ (s : State) (word : BitVec 24) (valid user status : Bool), s.Canon ∧ s.bit BPH_STAT.LOCK = true ∧
      s.capt.job = none) ∧
    (∃ (s : State), s.Canon ∧ s.bit BPH_STAT.LOCK = true ∧ s.bph.cs.length = 192) ∧
    (∃ (s : State) (mHz : Nat), s.Canon ∧ s.bit BPH_STAT.LOCK = true ∧ s.get TIME_XO_ERR.w = 0x8000) ∧
    (∃ (s : State), s.Canon ∧ s.ap.bph.run = true) ∧
    (∃ (s : State) (j : Job) (rest : List Job), s.Canon ∧ s.capt.due = j :: rest ∧ s.captDue = true ∧
      s.bit CLK_STAT.XO_OK = true) ∧
    (∃ (s : State) (j : Job) (b : BlkNew), s.Canon ∧ s.capt.job = some j ∧ s.capt.new = some b ∧
      s.get CAPT_BLK_FR.w ≤ b.frames ∧ s.bit CAPT_CFG.OVERWRITE = false ∧
      4 * s.get CAPT_WPTR.w + b.bytes.length ≤ 0x20000 ∧
      b.bytes.length ≤ 0x20000 - (s.capt.used.map BlkUse.len).sum) ∧
    (∃ (s : State) (j : Job), s.Canon ∧ s.capt.job = some j ∧ j.start + j.dur ≤ s.ktime) ∧
    (∃ (s : State) (f : Fn) (v : Word), s.Canon ∧ Serves s f (keyPage CAPT_REL.w.key) ∧
      legalWord f CAPT_REL.w.key v = true) ∧
    (∃ (s : State) (p : Past), s.Canon ∧ s.capt.past = some p ∧ s.capt.statsDue = true ∧ s.pikaServes = true) ∧
    (∃ (s : State) (p : Past), s.Canon ∧ s.capt.past = some p ∧ s.capt.statsDue = true) ∧
    (∃ (s : State) (p : Past) (n : Snip), s.Canon ∧ s.capt.past = some p ∧ p.snip = some n) :=
  ⟨⟨{ st up [(BPH_CTL.IN_ARM, 1)] with capt := { Capt.start with job := some job0 } }, by decide +kernel⟩,
    ⟨st up [(BPH_STAT.LOCK, 1)], 3, 0, by decide +kernel⟩,
    ⟨st up [(BPH_STAT.LOCK, 1)], 5, true, false, true, true, by decide +kernel⟩,
    ⟨st up [(BPH_STAT.LOCK, 1)], 5, true, false, true, true, by decide +kernel⟩,
    ⟨st up [(BPH_STAT.LOCK, 1)], 5, true, false, true, by decide +kernel⟩,
    ⟨{ st up [(BPH_STAT.LOCK, 1)] with bph := { Bph.start with cs := List.replicate 192 true } }, by decide +kernel⟩,
    ⟨st up [(BPH_STAT.LOCK, 1), (TIME_XO_ERR.w, 0x8000)], 48000000, by decide +kernel⟩,
    ⟨{ up with ap := { Ports.start with bph := { Port.start with run := true } } }, by decide +kernel⟩,
    ⟨{ st up [(CLK_STAT.XO_OK, 1)] with capt := { Capt.start with due := [job0] } }, job0, [], by decide +kernel⟩,
    ⟨{ st up [(CAPT_BLK_FR.w, 2), (CAPT_CFG.OVERWRITE, 0)] with capt := { Capt.start with job := some job0, new := some ⟨0, 0, 0, 2, 0, [1, 2, 3, 4]⟩ } },
      job0, ⟨0, 0, 0, 2, 0, [1, 2, 3, 4]⟩, by decide +kernel⟩,
    ⟨{ up with capt := { Capt.start with job := some job0 }, ktime := 20 * oneSec }, job0, by decide +kernel⟩,
    ⟨{ up with capt := { Capt.start with used := [⟨0, 64, 0⟩] } }, .f0, 4, by decide +kernel⟩,
    ⟨{ st up [(BOOT_STAT.PIKA, 2), (CLK_STAT.PLL_LOCK, 1), (CLK_STAT.PIKA_ON, 1)] with capt := { Capt.start with past := some past0, statsDue := true } },
      past0, by decide +kernel⟩,
    ⟨{ up with capt := { Capt.start with past := some past0, statsDue := true } }, past0, by decide +kernel⟩,
    ⟨{ up with capt := { Capt.start with past := some { past0 with snip := some ⟨0, [], false, true⟩ } } },
      { past0 with snip := some ⟨0, [], false, true⟩ }, ⟨0, [], false, true⟩, by decide +kernel⟩⟩

theorem witness_StepRunsTheFrontCommand :
    (∃ s : State, s.pending = [.nop .f0]) :=
  ⟨{ up with pending := [.nop .f0] }, rfl⟩

theorem witness_IdleStepIsOneAonCycle :
    (∃ s : State, s.pending = [] ∧ s.pins.porAsserted = false ∧ s.get MODE.CUR ≠ 0 ∧ s.time.slew = 0 ∧
      (s.onX32 = false ∨ s.trim = 0) ∧ s.time.acc < 100000000) ∧
    (∃ s : State, s.pending = [] ∧ (s.pins.porAsserted = true ∨ s.get MODE.CUR = 0)) :=
  ⟨⟨up, by decide +kernel⟩,
    ⟨State.reset, by decide +kernel⟩⟩

theorem witness_ResetLeavesTheStatedValues :
    (∃ s : State, s.pins.porAsserted = true) ∧
    (∃ (s : State) (p : Pin), s.pins.vddio = false ∧ p.info.2.1 = some .vddio) :=
  ⟨⟨State.reset, by decide +kernel⟩,
    ⟨{ up with pins := { up.pins with vddio := false } }, .sda, by decide +kernel⟩⟩

theorem witness_RegisterFieldsAreApart :
    (∃ (s : State) (x y : Fld), s.Canon ∧ x.lo ≤ x.hi ∧ x.hi < 16 ∧ y.key = x.key ∧ y.lo ≤ y.hi ∧ y.hi < 16 ∧
      (y.hi < x.lo ∨ x.hi < y.lo)) :=
  ⟨up, PWR_CMD.EST_RESET, PWR_CMD.DEPASS_GO, by decide +kernel⟩

theorem witness_EventsSetAndCount :
    (∃ (s : State) (b : Nat), s.Canon ∧ b < 16) :=
  ⟨up, 15, by decide +kernel⟩

theorem witness_RecordsEnterAQueueWhole :
    (∃ (s : State) (f : Fn) (r : Rec), s.Canon ∧ (∀ b ∈ r.bits, b < 16) ∧
      (s.eng f).queue.length + (Rec.words r).length ≤ s.dqSize f ∧ (s.eng f).fill = 0) ∧
    (∃ (s : State) (f : Fn) (r : Rec), s.Canon ∧ (∀ b ∈ r.bits, b < 16) ∧
      s.dqSize f < (s.eng f).queue.length + (Rec.words r).length) :=
  ⟨⟨up, .f1, ⟨0x30, 5, [1, 2], [1]⟩, by decide +kernel⟩,
    ⟨st up [(PART_DQ.w, 0)], .f1, ⟨0x30, 5, [1, 2], [1]⟩, by decide +kernel⟩⟩

theorem witness_ErrorCodeIsTheLeast :
    (∃ b : Nat, b ≤ 2 ^ 30 * usUnit) ∧
    (∃ b : Nat, 2 ^ 30 * usUnit < b) :=
  ⟨⟨2 ^ 30 * usUnit, by decide +kernel⟩,
    ⟨2 ^ 30 * usUnit + 1, by decide +kernel⟩⟩

theorem witness_TenantsHaveNoSecondBank :
    (∃ (f : Fn) (s : State), f ≠ .f0 ∧ s.Canon ∧ s.mode.ready = true ∧ s.fget f FN_STATE.RESET_BUSY = 0 ∧
      s.hostLoading = false) :=
  ⟨.f2, up, by decide +kernel⟩

theorem witness_StepKeepsCanonical :
    (∃ s : State, s.Canon ∧ s.pending = [.sysWdog]) :=
  ⟨{ up with pending := [.sysWdog] }, by decide +kernel⟩

theorem witness_OnlyF0WritesThePagesClkToHostport :
    (∃ (f : Fn) (off : Nat) (s : State), f ≠ .f0 ∧ s.Canon ∧ s.mode.ready = true ∧ s.fget f FN_STATE.RESET_BUSY = 0 ∧
      s.hostLoading = false ∧ 1 ≤ s.fget f PAGE.SEL ∧ s.fget f PAGE.SEL ≤ 7 ∧ 0x80 ≤ off ∧ off < 0x100 ∧
      s.grant f (s.fget f PAGE.SEL) ≠ 0 ∧ regDef? (s.fget f PAGE.SEL * 0x100 + off) ≠ none) :=
  ⟨.f1, 0x80, st up [(PAGE.SEL.on 1, 3), (PART_GRANT.w 0, 0x10)], by decide +kernel⟩

theorem witness_SlotDueBelowTargetStartsWithReservoirLow :
    (∃ (s : State) (f : Fn) (idx : Nat) (w : Watch) (nominal start stop : Nat), s.Canon ∧
      s.slotDue f idx = some (w, nominal, start, stop) ∧ s.runsPlans = true ∧ s.awake = true ∧
      s.get VRES_MEAS.w + 100 < 2000 + 10 * s.get VRES_TGT.TGT ∧ recKind w.words ≠ kCAPT ∧
      s.bit FES_STAT.HOLD = false ∧ s.fe.rx = none) :=
  ⟨{ planned with ktime := 0x5000000 }, .f1, 0, ⟨timeRec, 0x4000000, none⟩, 0x4000000, 0x4000000, 0x9000000,
    by decide +kernel⟩

theorem witness_StartConditionHasNoTimeout :
    (∃ s : State, s.get VRES_MEAS.w < 2300) ∧
    (∃ s : State, s.Canon ∧ s.pending = []) :=
  ⟨⟨State.reset, by decide +kernel⟩,
    ⟨up, by decide +kernel⟩⟩

theorem witness_ModeCommandTakesOnlyItsTwoWords :
    (∃ (v : Word) (s : State), s.Canon ∧ Serves s .f0 2 ∧ s.fget .f0 PAGE.SEL = 2 ∧ ¬ (v.toNat / 0x100 = 0xA5 ∧
      (v.toNat % 4 = 1 ∨ v.toNat % 4 = 2))) ∧
    (∃ (v : Word) (s : State), s.Canon ∧ Serves s .f0 2 ∧ s.fget .f0 PAGE.SEL = 2 ∧ v.toNat / 0x100 = 0xA5 ∧
      v.toNat % 4 = 1) ∧
    (∃ (v : Word) (s : State), s.Canon ∧ Serves s .f0 2 ∧ s.fget .f0 PAGE.SEL = 2 ∧ v.toNat / 0x100 = 0xA5 ∧
      v.toNat % 4 = 2) :=
  ⟨⟨0xA503, st up [(PAGE.SEL.on 0, 2)], by decide +kernel⟩,
    ⟨0xA501, st up [(PAGE.SEL.on 0, 2)], by decide +kernel⟩,
    ⟨0xA502, st up [(PAGE.SEL.on 0, 2)], by decide +kernel⟩⟩

theorem witness_VanWindowInShutdownIsLost :
    (∃ s : State, s.Canon ∧ s.get MODE.CUR = 0 ∧ s.edf.vans = [⟨5, 0, 0, 10⟩] ∧ s.sec = 5) ∧
    (∃ (s : State) (v : Van), s.Canon ∧ s.dormouse = true ∧ s.edf.vans = [v] ∧ v.period = 0 ∧
      v.start < s.sec % 0x100000000) :=
  ⟨⟨{ st up [(MODE.CUR, 0)] with edf := { Edf.start with vans := [⟨5, 0, 0, 10⟩] }, ktime := 5 * oneSec },
      by decide +kernel⟩,
    ⟨{ up with edf := { Edf.start with vans := [⟨5, 0, 0, 10⟩] }, ktime := 6 * oneSec }, ⟨5, 0, 0, 10⟩, by decide +kernel⟩⟩

theorem witness_MemoryPortRefusesOutsideItsMap :
    (∃ (s : State) (f : Fn), s.Canon ∧ Serves s f 0 ∧ s.fget f MEM_CTRL.WR = 0 ∧
      s.region (s.eng f).memAddr = .unmapped) ∧
    (∃ (s : State) (f : Fn), s.Canon ∧ Serves s f 0 ∧ s.fget f MEM_CTRL.WR = 0 ∧
      s.region (s.eng f).memAddr ≠ .unmapped ∧ s.mayRead f (s.region (s.eng f).memAddr) = false) ∧
    (∃ (s : State) (f : Fn), s.Canon ∧ Serves s f 0 ∧ s.fget f MEM_CTRL.WR = 1 ∧
      s.region (s.eng f).memAddr = .unmapped) ∧
    (∃ (s : State) (f : Fn), s.Canon ∧ Serves s f 0 ∧ s.fget f MEM_CTRL.WR = 1 ∧
      s.region (s.eng f).memAddr ≠ .unmapped ∧ s.mayWrite f (s.region (s.eng f).memAddr) = false) :=
  ⟨⟨{ st up [(MEM_CTRL.WR.on 1, 0)] with fns := { up.fns with f1 := { FnEng.start with memAddr := 0x120000 } } }, .f1,
      by decide +kernel⟩,
    ⟨{ st up [(MEM_CTRL.WR.on 1, 0)] with fns := { up.fns with f1 := { FnEng.start with memAddr := 0xFFFE } } }, .f1,
      by decide +kernel⟩,
    ⟨{ st up [(MEM_CTRL.WR.on 1, 1)] with fns := { up.fns with f1 := { FnEng.start with memAddr := 0xC00000 } } },
      .f1, by decide +kernel⟩,
    ⟨{ st up [(MEM_CTRL.WR.on 1, 1)] with fns := { up.fns with f1 := { FnEng.start with memAddr := 0x302000 } } },
      .f1, by decide +kernel⟩⟩

theorem witness_PartitionSizesStayWithinTheirSums :
    (∃ (v : Word) (s : State), s.Canon ∧ Serves s .f0 9 ∧ s.bit PART_STAT.LOCKED = false ∧
      legalWord .f0 PART_DQ.w.key v = true ∧
      16 < v.toNat % 16 + v.toNat / 16 % 16 + v.toNat / 256 % 16 + v.toNat / 4096) ∧
    (∃ (v : Word) (s : State), s.Canon ∧ Serves s .f0 9 ∧ s.bit PART_STAT.LOCKED = false ∧ s.fget .f0 PAGE.SEL = 9 ∧
      legalWord .f0 (PART_QH_F.w 3).key v = true ∧ (let t := s.put (PART_QH_F.w 3) v.toNat; 4 * (s.edf.flashSize /
      0x1000 - 0x210) < t.get (PART_QH_F.w 0) + t.get (PART_QH_F.w 1) + t.get (PART_QH_F.w 2) + t.get (PART_QH_F.w
      3))) :=
  ⟨⟨0x4445, up, by decide +kernel⟩,
    ⟨14272, st up [(PAGE.SEL.on 0, 9)], by decide +kernel⟩⟩

theorem witness_QueueThresholdAndFlush :
    (∃ (s : State) (f : Fn), s.Canon ∧ Serves s f 0) ∧
    (∃ (s : State) (f : Fn) (ws : List Word), s.Canon ∧ s.fget f DQ_THR.w ≤ (s.eng f).queue.length + ws.length) ∧
    (∃ (s : State) (f : Fn) (ws : List Word), s.Canon ∧ (s.eng f).queue.length + ws.length < s.fget f DQ_THR.w) :=
  ⟨⟨up, .f3, by decide +kernel⟩,
    ⟨up, .f1, [1], by decide +kernel⟩,
    ⟨st up [(DQ_THR.w.on 1, 2)], .f1, [1], by decide +kernel⟩⟩

theorem witness_PlanEventRecordsHaveTheirFourWords :
    (∃ (s : State) (f : Fn), s.Canon ∧ s.fget f FN_STATE.RESET_BUSY = 0 ∧ s.boot.marten = true ∧ (s.eng f).fill = 0 ∧
      (s.eng f).queue.length + 7 ≤ s.dqSize f) :=
  ⟨up, .f1, by decide +kernel⟩

theorem witness_ThirdHeartbeatExpiryResetsTheSystem :
    (∃ s : State, s.Canon ∧ s.hlt.hbArmed = true ∧ s.boot.marten = true ∧ s.mode.resting = false ∧
      2 ≤ (s.hlt.storms.filter (fun a => decide (s.aon < a + 3600 * 32768))).length) :=
  ⟨{ up with hlt := { Hlt.start with hbArmed := true, storms := [1, 2] } }, by decide +kernel⟩

theorem witness_FunctionsOwnAccessesLeaveOtherTenants :
    (∃ (f g : Fn) (s : State), s.Canon ∧ g ≠ f ∧ g ≠ .f0) :=
  ⟨.f1, .f2, up, by decide +kernel⟩

theorem witness_IgnoredWritesHaveNoSideEffect :
    (∃ (f : Fn) (off k : Nat) (v : Word) (s : State) (d : RegDef), s.Canon ∧ off < 0x100 ∧ s.keyAt f off = some k ∧
      Serves s f (keyPage k) ∧ (f ≠ .f0 → k % 0x10000 ≠ INT_STAT1.w.key ∧ k % 0x10000 ≠ INT_EN1.w.key) ∧
      regDef? k = some d ∧ d.rw = 0 ∧ d.w1c = 0 ∧ d.wo = 0 ∧ d.rwl = 0) ∧
    (∃ (f : Fn) (off k : Nat) (v : Word) (s : State) (d : RegDef), s.Canon ∧ off < 0x100 ∧ s.keyAt f off = some k ∧
      Serves s f (keyPage k) ∧ (f ≠ .f0 → k % 0x10000 ≠ INT_STAT1.w.key ∧ k % 0x10000 ≠ INT_EN1.w.key) ∧
      regDef? k = some d ∧ (d.rw ≠ 0 ∨ d.w1c ≠ 0 ∨ d.wo ≠ 0 ∨ (d.rwl ≠ 0 ∧ s.bit PART_STAT.LOCKED = false)) ∧
      legalWord f (baseKey k) (d.judged (s.regAccess.reg k) v (s.bit PART_STAT.LOCKED)) = false) ∧
    (∃ (f : Fn) (off k : Nat) (v : Word) (s : State) (d : RegDef), s.Canon ∧ off < 0x100 ∧ s.keyAt f off = some k ∧
      Serves s f (keyPage k) ∧ (f ≠ .f0 → k % 0x10000 ≠ INT_STAT1.w.key ∧ k % 0x10000 ≠ INT_EN1.w.key) ∧
      regDef? k = some d ∧ d.rw = 0 ∧ d.w1c = 0 ∧ d.wo = 0 ∧ d.rwl ≠ 0 ∧ s.bit PART_STAT.LOCKED = true ∧
      legalWord f (baseKey k) (d.judged (s.reg k) v true) = true) :=
  ⟨⟨.f1, 1, commonKey 1 1, 5, up, ⟨1, 0x4816, 0, 0, 0, 0⟩, by decide +kernel⟩,
    ⟨.f0, 0x83, 0x283, 5, st up [(PAGE.SEL.on 0, 2)], ⟨0x283, 0, 0, 0, 0xFF03, 0⟩, by decide +kernel⟩,
    ⟨.f0, 0x81, 0x381, 5, st up [(PAGE.SEL.on 0, 3),
      (PART_STAT.LOCKED, 1)], ⟨0x381, 0x1F, 0, 0, 0, 0x3F⟩, by decide +kernel⟩⟩

theorem witness_PageSelectsTheShownPage :
    (∃ (s : State) (f : Fn), s.Canon ∧ Serves s f 0) :=
  ⟨up, .f2, by decide +kernel⟩

theorem witness_StoringCommandsKeepOtherMemory :
    (∃ s : State, s.Canon ∧ s.get CAPT_WPTR.w < 0x8000) ∧
    (∃ s : State, s.Canon ∧ s.capt.used ≠ [] ∧ ∀ u ∈ s.capt.used, u.pos + 9 < 0x20000) ∧
    (∃ s : State, s.Canon ∧ s.edf.objs ≠ [] ∧ ∀ o ∈ s.edf.objs, ∀ e ∈ o.store, 0x210000 ≤ e.1) ∧
    (∃ s : State, s.Canon ∧ s.img.next < 0x100 ∧ s.img.winPos ≤ 0x100000) :=
  ⟨⟨up, by decide +kernel⟩,
    ⟨{ up with capt := { up.capt with used := [⟨0, 64, 0⟩] } }, by decide +kernel⟩,
    ⟨imgObj 2, by decide +kernel⟩,
    ⟨up, by decide +kernel⟩⟩

end Sys2Proof.Tests
end

section
/-! PROOFS. What an admitted register access of the host does before the register's own effect: the access itself (R101),
and the judgement of a served write (R515). -/

namespace Sys2Proof.Machine

open R

variable {s : State} {f : Fn}

/-! ### The host access -/

/-- A register access of the host changes only what `Area.access` lists. -/
theorem State.regAccess_keeps_access (s : State) : Keeps (areasMask Area.access) s s.regAccess :=
  s.regAccess_keeps .refl (by decide)

theorem State.canon_regAccess (h : s.Canon) : s.regAccess.Canon :=
  have ⟨hc, _⟩ := s.regAccess_keeps_access
  hc h

theorem State.reg_regAccess {k : Nat} (h : regIn (areasMask Area.access) k = false) : s.regAccess.reg k = s.reg k :=
  have ⟨_, _, _, hr, _⟩ := s.regAccess_keeps_access
  hr k h

theorem State.get_regAccess {x : Fld} (h : regIn (areasMask Area.access) x.key = false) : s.regAccess.get x = s.get x := by
  rw [State.get, State.reg_regAccess h, ← State.get]

theorem State.fget_regAccess {x : Fld} (h : comIn (areasMask Area.access) x.key = false) :
    s.regAccess.fget f x = s.fget f x :=
  State.get_regAccess (by rw [regIn_on, h])

@[simp] theorem State.ready_wantHost (s : State) (r : Nat) : (s.wantHost r).mode.ready = s.mode.ready := by
  unfold State.wantHost
  extract_lets on t
  have ht : t.mode = s.mode := by unfold t; split <;> rfl
  split
  · exact (congrArg ModeEng.ready ht : t.mode.ready = s.mode.ready)
  · rfl

@[simp] theorem State.ready_noteAttn (s : State) (f : Fn) (src : Nat) :
    (s.noteAttn f src).mode.ready = s.mode.ready := by
  unfold State.noteAttn
  extract_lets en t
  have ht : t.mode.ready = s.mode.ready := by
    unfold t
    split
    · exact s.ready_wantHost 4
    · rfl
  split
  · split <;> exact ht
  · exact ht

@[simp] theorem State.ready_raise1 (s : State) (b : Nat) : (s.raise1 b).mode.ready = s.mode.ready := by
  rw [State.raise1, State.ready_noteAttn]
  rfl

@[simp] theorem State.ready_regAccess (s : State) : s.regAccess.mode.ready = s.mode.ready := by
  simp only [State.regAccess]
  split <;> simp

@[simp] theorem State.hostLoading_regAccess (s : State) : s.regAccess.hostLoading = s.hostLoading := by
  rw [State.hostLoading, State.get_regAccess (by decide), ← State.hostLoading]

/-- The nine `PART_GRANT` words are outside what an access changes. -/
theorem grantWord_not_access {n : Nat} (h : n < 9) : regIn (areasMask Area.access) (PART_GRANT.w n).key = false := by
  decide +revert

@[simp] theorem State.grant_regAccess (s : State) (f : Fn) (page : Nat) : s.regAccess.grant f page = s.grant f page := by
  have hget (n : Nat) (h : n < 9) : s.regAccess.get (PART_GRANT.w n) = s.get (PART_GRANT.w n) :=
    State.get_regAccess (grantWord_not_access h)
  cases f
  case f0 => rfl
  all_goals
    simp only [State.grant, Fn.toNat]
    split
    · rw [hget _ (by omega)]
    · rfl

/-- The access itself does not take away what lets a write be served. -/
theorem Serves.regAccess {page : Nat} (h : Serves s f page) : Serves s.regAccess f page := by
  simpa [Serves, State.fget_regAccess (f := f) (x := FN_STATE.RESET_BUSY) (by decide)] using h

/-! ### The judgement of a served write (R515) -/

/-- A served write passes steps 1 and 2: whether a register stands there decides. -/
theorem State.gate_of_serves {k : Nat} (off : Nat) (h : Serves s f (keyPage k)) :
    s.gate f off (some k) true false = gate3 f k := by
  obtain ⟨hready, hbusy, hload, hgrant⟩ := h
  have h1 : s.gate1 f off (keyPage k) false = .serve := by simp [State.gate1, hready, hbusy, hload]
  have h2 : s.gate2 f (keyPage k) true = .serve := by
    rcases hgrant with hf | hp | ⟨hg, hp⟩
    · simp [State.gate2, hf]
    · simp [State.gate2, hp]
    · simp [State.gate2, hg, hp]
  simp only [State.gate, h1, h2]

/-- A legal write to a register that has RW bits and no lockable ones has its effect in full (R10, R516). -/
theorem State.writeReg_of_unlocked {k : Nat} {d : RegDef} (v : Word) (hd : regDef? k = some d) (hrw : d.rw ≠ 0)
    (hrwl : d.rwl = 0) (hlegal : legalWord f (baseKey k) (d.judged (s.reg k) v (s.bit PART_STAT.LOCKED)) = true) :
    s.writeReg f k v = (false, s.writeEffect f k v (d.merge (s.reg k) v (s.bit PART_STAT.LOCKED))) := by
  simp [State.writeReg, hd, hrw, hrwl, hlegal]

theorem exec_registerWrite (f : Fn) (off : Nat) (v : Word) (s : State) :
    exec (.registerWrite f off v) s = execRegisterWrite f off v s := rfl

/-- A served write to a register of the function's window does what `writeReg` says, after the access. -/
theorem exec_registerWrite_of_serves {off k : Nat} (v : Word) (hoff : off < 0x100) (hkey : s.regAccess.keyAt f off = some k)
    (h : Serves s f (keyPage k)) (hreg : gate3 f k = .serve) :
    exec (.registerWrite f off v) s = .next (s.regAccess.writeReg f k v).2 := by
  have hgate := State.gate_of_serves off h.regAccess
  obtain ⟨hready, -⟩ := h
  simp [exec_registerWrite, execRegisterWrite, hready, State.hostWrite, State.writeKey, Nat.mod_eq_of_lt hoff, hkey, hgate, hreg]

end Sys2Proof.Machine
end

section
/-! PROOFS. `PAGE` (R11): the page a window shows, and what a served write of `PAGE` does. -/

namespace Sys2Proof.Machine

open R

variable {s : State} {f : Fn}

/-! ### Reading `PAGE` -/

theorem State.fget_page (s : State) (f : Fn) : s.fget f PAGE.w = (s.reg (commonKey f.toNat 0x7F)).toNat := by
  simp [State.fget, State.get, PAGE.w, Fld.on, Fld.size, Nat.mod_eq_of_lt (BitVec.isLt _)]

theorem State.fget_pageSel (s : State) (f : Fn) : s.fget f PAGE.SEL = s.fget f PAGE.w % 0x100 := by
  rw [State.fget_page]
  simp [State.fget, State.get, PAGE.SEL, Fld.on, Fld.size]

/-- The upper half of a window shows the page that `PAGE`[7:0] names. -/
theorem State.keyAt_upper (s : State) (f : Fn) {off : Nat} (h : 0x80 ≤ off) : s.keyAt f off =
    if 1 ≤ s.fget f PAGE.w % 0x100 ∧ s.fget f PAGE.w % 0x100 ≤ 0x18 then some (s.fget f PAGE.w % 0x100 * 0x100 + off)
    else none := by
  simp only [State.keyAt, Nat.not_lt.mpr h, if_false, State.fget_pageSel]

theorem commonKey_injective {f g : Fn} {off : Nat} (h : commonKey f.toNat off = commonKey g.toNat off) : f = g := by
  cases f <;> cases g <;> simp_all [commonKey, Fn.toNat]

/-! ### Writing `PAGE` -/

/-- The row of `PAGE` in the table of the common part: its low byte is RW, its high byte reserved. -/
def pageDef : RegDef := ⟨0x7F, 0, 0xFF, 0, 0, 0⟩

theorem regDef_page (f : Fn) : regDef? (commonKey f.toNat 0x7F) = some pageDef := by cases f <;> decide

/-- A register without a ranged field judges a word by its relations alone. -/
theorem legalWord_of_unranged {k : Nat} (h : (rangesA ++ rangesB ++ rangesC).all (fun r => r.1.key != k) = true)
    (f : Fn) (w : Word) : legalWord f k w = extraLegal f k w := by
  have hall : (rangesA ++ rangesB ++ rangesC).all
      (fun r => r.1.key != k || (r.2.1 ≤ r.1.of w && r.1.of w ≤ r.2.2)) = true :=
    List.all_eq_true.mpr fun r hr => by rw [List.all_eq_true.mp h r hr, Bool.true_or]
  rw [legalWord, hall, Bool.true_and]

/-- Every word is a legal word of `PAGE`: no field of it has a reserved encoding. -/
theorem legalWord_page (f : Fn) (w : Word) : legalWord f 0x7F w = true := by
  rw [legalWord_of_unranged (by decide), extraLegal]
  simp (decide := true) only [if_false]

/-- `PAGE` has no effect of its own: the word is stored. -/
theorem State.writeEffect_page (s : State) (f : Fn) (v new : Word) :
    s.writeEffect f (commonKey f.toNat 0x7F) v new = s.setReg (commonKey f.toNat 0x7F) new := by
  simp (decide := true) only [State.writeEffect, keyPage_common, State.writeCommon, baseKey_common, if_true, if_false,
    false_and]

theorem State.writeReg_page (s : State) (f : Fn) (v : Word) : s.writeReg f (commonKey f.toNat 0x7F) v = (false,
    s.setReg (commonKey f.toNat 0x7F) (pageDef.merge (s.reg (commonKey f.toNat 0x7F)) v (s.bit PART_STAT.LOCKED))) := by
  rw [State.writeReg_of_unlocked v (regDef_page f) (by decide) rfl, State.writeEffect_page]
  rw [baseKey_common f (by decide), legalWord_page]

/-- The bits a write of `PAGE` takes: 7 to 0 the written ones, every other bit the stored one. -/
theorem merge_page_getLsbD (old v : Word) (locked : Bool) (i : Nat) :
    (pageDef.merge old v locked).getLsbD i = if i < 8 then v.getLsbD i else old.getLsbD i := by
  have hmask : (0xFF : Word).getLsbD i = decide (i < 8) := by
    rw [show (0xFF : Word) = (BitVec.allOnes 8).setWidth 16 from rfl, BitVec.getLsbD_setWidth, BitVec.getLsbD_allOnes]
    grind
  have hmerge : pageDef.merge old v locked = (v &&& 0xFF) ||| (old &&& ~~~0xFF) := by
    cases locked <;> simp [RegDef.merge, pageDef]
  rw [hmerge]
  simp only [BitVec.getLsbD_or, BitVec.getLsbD_and, BitVec.getLsbD_not, hmask]
  split
  · simp [*]
  · rcases Nat.lt_or_ge i 16 with hi | hi <;> simp [*]

theorem merge_page_low (old v : Word) (locked : Bool) :
    (pageDef.merge old v locked).toNat % 0x100 = v.toNat % 0x100 := by
  refine Nat.eq_of_testBit_eq fun i => ?_
  rw [show 0x100 = 2 ^ 8 from rfl, Nat.testBit_mod_two_pow, Nat.testBit_mod_two_pow, BitVec.testBit_toNat,
    BitVec.testBit_toNat, merge_page_getLsbD]
  split <;> simp [*]

theorem merge_page_high (old v : Word) (locked : Bool) :
    (pageDef.merge old v locked).toNat / 0x100 = old.toNat / 0x100 := by
  refine Nat.eq_of_testBit_eq fun i => ?_
  rw [show 0x100 = 2 ^ 8 from rfl, Nat.testBit_div_two_pow, Nat.testBit_div_two_pow, BitVec.testBit_toNat,
    BitVec.testBit_toNat, merge_page_getLsbD, if_neg (by omega)]

/-- A served write of `PAGE`: the access, then the merged word in the function's own register. -/
theorem exec_registerWrite_page (v : Word) (h : Serves s f 0) : exec (.registerWrite f 0x7F v) s =
    .next (s.regAccess.setReg (commonKey f.toNat 0x7F)
      (pageDef.merge (s.regAccess.reg (commonKey f.toNat 0x7F)) v (s.regAccess.bit PART_STAT.LOCKED))) := by
  have hserves : Serves s f (keyPage (commonKey f.toNat 0x7F)) := by rwa [keyPage_common]
  have hreg : gate3 f (commonKey f.toNat 0x7F) = .serve := by
    rw [gate3, regDef_page, baseKey_common f (by decide)]
    simp (decide := true) only [and_false, or_self, if_false]
  rw [exec_registerWrite_of_serves v (by decide) rfl hserves hreg, State.writeReg_page]

/-- A served write of `PAGE` sets bits 7 to 0, keeps the high byte and every other function's `PAGE`. -/
theorem registerWrite_page_completes (f : Fn) (v : Word) :
    Completes (.registerWrite f 0x7F v) (fun s => Serves s f 0) (fun s t =>
      t.fget f PAGE.w % 0x100 = v.toNat % 0x100 ∧ t.fget f PAGE.w / 0x100 = s.fget f PAGE.w / 0x100 ∧
        ∀ g, g ≠ f → t.fget g PAGE.w = s.fget g PAGE.w) := by
  intro s hc hs
  refine ⟨_, exec_registerWrite_page v hs, ?_⟩
  have hsame (g : Fn) : s.regAccess.fget g PAGE.w = s.fget g PAGE.w := State.fget_regAccess (by decide)
  simp only [← hsame, State.fget_page]
  obtain ⟨hregs, -⟩ := State.canon_regAccess hc
  rw [State.reg_setReg hregs]
  exact ⟨merge_page_low _ _ _, merge_page_high _ _ _,
    fun g hg => congrArg BitVec.toNat (State.reg_setReg_ne _ _ fun hk => hg (commonKey_injective hk))⟩

/-- Settles O53: the window's page by `keyAt_upper`, the write by `registerWrite_page_completes`. -/
theorem pageSelectsTheShownPage : Obligations.PageSelectsTheShownPage := by
  unfold Obligations.PageSelectsTheShownPage
  refine ⟨fun f => ?_, fun s f off h _ => s.keyAt_upper f h, registerWrite_page_completes⟩
  cases f <;> decide

end Sys2Proof.Machine
end

section
/-! PROOFS. Pages whose writes are F0's own: how the judgement of R515 ends for a tenant's write there, and for its read of a
page it has a grant for (R60, R81, R104, R136, R164, R182, R225). -/

namespace Sys2Proof.Machine

open R

variable {s : State} {f : Fn}

/-! ### The steps of the judgement -/

/-- Past READY, with no reset of the function and no HOST-LOAD wait, step 1 lets every access pass. -/
theorem State.gate1_serve (off page : Nat) (early : Bool) (hready : s.mode.ready = true)
    (hbusy : s.fget f FN_STATE.RESET_BUSY = 0) (hload : s.hostLoading = false) : s.gate1 f off page early = .serve := by
  simp [State.gate1, hready, hbusy, hload]

theorem f0Page_iff {page : Nat} : f0Page page = true ↔ 1 ≤ page ∧ page ≤ 9 := by
  simp [f0Page]

/-- A tenant's write to a page of F0's own is denied whatever its grant. -/
theorem State.gate2_tenant_write {page : Nat} (s : State) (hf : f ≠ .f0) (h : f0Page page = true) :
    s.gate2 f page true = .deny eGRANT := by
  have hne : page ≠ 0 := Nat.ne_of_gt (f0Page_iff.mp h).1
  simp [State.gate2, hf, h, hne]

/-- Any grant lets a read pass. -/
theorem State.gate2_read {page : Nat} (h : s.grant f page ≠ 0) : s.gate2 f page false = .serve := by
  simp [State.gate2, h]

/-- A register that stands on a page passes step 3 for every function: `INT_STAT1` and `INT_EN1` are of the common part. -/
theorem gate3_page {k : Nat} (f : Fn) (hlow : 0x80 ≤ k) (hhigh : k < 0x10000) (hreg : regDef? k ≠ none) :
    gate3 f k = .serve := by
  have hbase : 0x80 ≤ baseKey k := by rwa [baseKey, if_pos hhigh]
  have hne {x : Nat} (hx : x < 0x80) : baseKey k ≠ x := by omega
  simp [gate3, hreg, hne (x := INT_STAT1.w.key) (by decide), hne (x := INT_EN1.w.key) (by decide)]

/-! ### What the judgement makes of a write and of a read -/

/-- A write that the judgement refuses changes `FN_ERR` alone, after the access. -/
theorem exec_registerWrite_of_deny {off k code : Nat} (v : Word) (hready : s.mode.ready = true) (hoff : off < 0x100)
    (hkey : s.regAccess.keyAt f off = some k) (hgate : s.regAccess.gate f off (some k) true false = .deny code) :
    exec (.registerWrite f off v) s = .next (s.regAccess.setErr f code) := by
  simp [exec_registerWrite, execRegisterWrite, hready, State.hostWrite, State.writeKey, Nat.mod_eq_of_lt hoff, hkey, hgate]

/-- A read that the judgement lets pass gives what the register reads. -/
theorem State.fetch_of_serve {off k : Nat} {early : Bool} (p : HostPort) (hkey : s.keyAt f off = some k)
    (hgate : s.gate f off (some k) false early = .serve) : s.fetch p f off early = s.readKey p f k := by
  simp only [State.fetch, hkey, hgate]

/-! ### Pages of the upper half of a window -/

theorem keyPage_page {page off : Nat} (hpage : page ≤ 0x18) (hoff : off < 0x100) : keyPage (page * 0x100 + off) = page := by
  rw [keyPage, if_pos (by omega)]
  omega

/-- With `PAGE` on one of the pages, the upper half of the window shows that page's registers. -/
theorem State.keyAt_of_pageSel {page off : Nat} (hsel : s.fget f PAGE.SEL = page) (hpos : 1 ≤ page) (hpage : page ≤ 0x18)
    (hoff : 0x80 ≤ off) : s.keyAt f off = some (page * 0x100 + off) := by
  rw [s.keyAt_upper f hoff, ← State.fget_pageSel, hsel, if_pos ⟨hpos, hpage⟩]

/-- A tenant's write to any page of F0's own, CLK to PART: ignored with GRANT_DENIED. -/
theorem exec_registerWrite_f0Page {page off : Nat} (v : Word) (hf : f ≠ .f0) (hready : s.mode.ready = true)
    (hbusy : s.fget f FN_STATE.RESET_BUSY = 0) (hload : s.hostLoading = false) (hsel : s.fget f PAGE.SEL = page)
    (hpage : f0Page page = true) (hlow : 0x80 ≤ off) (hhigh : off < 0x100) :
    exec (.registerWrite f off v) s = .next (s.regAccess.setErr f eGRANT) := by
  obtain ⟨hpos, hle⟩ := f0Page_iff.mp hpage
  have hsel' : s.regAccess.fget f PAGE.SEL = page := by rwa [State.fget_regAccess (by decide)]
  have hbusy' : s.regAccess.fget f FN_STATE.RESET_BUSY = 0 := by rwa [State.fget_regAccess (by decide)]
  refine exec_registerWrite_of_deny v hready hhigh (State.keyAt_of_pageSel hsel' hpos (by omega) hlow) ?_
  simp only [State.gate, State.gate1_serve _ _ _ (s.ready_regAccess.trans hready) hbusy'
    (s.hostLoading_regAccess.trans hload), keyPage_page (show page ≤ 0x18 by omega) hhigh, State.gate2_tenant_write _ hf hpage]

/-- A granted read of a register that stands on the page shown gives what the register reads, through either port. -/
theorem State.fetch_granted_page {page off : Nat} (p : HostPort) (hready : s.mode.ready = true)
    (hbusy : s.fget f FN_STATE.RESET_BUSY = 0) (hload : s.hostLoading = false) (hsel : s.fget f PAGE.SEL = page)
    (hpos : 1 ≤ page) (hpage : page ≤ 0x18) (hlow : 0x80 ≤ off) (hhigh : off < 0x100) (hgrant : s.grant f page ≠ 0)
    (hreg : regDef? (page * 0x100 + off) ≠ none) : s.fetch p f off false = s.readKey p f (page * 0x100 + off) := by
  refine State.fetch_of_serve p (State.keyAt_of_pageSel hsel hpos hpage hlow) ?_
  simp only [State.gate, State.gate1_serve _ _ _ hready hbusy hload, keyPage_page hpage hhigh, State.gate2_read hgrant]
  exact gate3_page f (by omega) (by omega) hreg

/-- Settles O41: the write by `exec_registerWrite_f0Page`, the read by `State.fetch_granted_page`. -/
theorem onlyF0WritesThePagesClkToHostport : Obligations.OnlyF0WritesThePagesClkToHostport := by
  unfold Obligations.OnlyF0WritesThePagesClkToHostport
  intro f off v s hf _ hready hbusy hload hpos hle hlow hhigh
  have hpage : f0Page (s.fget f PAGE.SEL) = true := f0Page_iff.mpr ⟨hpos, by omega⟩
  exact ⟨exec_registerWrite_f0Page v hf hready hbusy hload rfl hpage hlow hhigh, fun hgrant hreg p =>
    State.fetch_granted_page p hready hbusy hload rfl hpos (by omega) hlow hhigh hgrant hreg⟩

end Sys2Proof.Machine
end

section
/-! PROOFS. `MODE_CMD` (R105): which words R10 lets pass, and what a served write of F0 does with them. -/

namespace Sys2Proof.Machine

open R

variable {s : State} {f : Fn}

/-! ### A write to a register without lockable bits (R7, R10) -/

theorem RegDef.judged_of_unlockable {d : RegDef} (h : d.rwl = 0) (old v : Word) (locked : Bool) :
    d.judged old v locked = v := by
  have hkept : (if locked then BitVec.ofNat 16 d.rwl else 0 : Word) = 0#16 := by rw [h]; exact ite_self _
  rw [RegDef.judged, hkept, BitVec.and_zero, BitVec.or_zero]
  exact BitVec.and_allOnes

/-- A word with a reserved encoding is ignored with BAD_ARG. -/
theorem State.writeReg_of_illegal {k : Nat} {d : RegDef} {v : Word} (hd : regDef? k = some d) (hrwl : d.rwl = 0)
    (hwrite : ¬ (d.rw = 0 ∧ d.w1c = 0 ∧ d.wo = 0)) (hlegal : legalWord f (baseKey k) v = false) :
    s.writeReg f k v = (true, s.setErr f eBADARG) := by
  have hnot : ¬ (d.rw = 0 ∧ d.w1c = 0 ∧ d.wo = 0 ∧ d.rwl = 0) := fun ⟨h1, h2, h3, _⟩ => hwrite ⟨h1, h2, h3⟩
  simp only [State.writeReg, hd, if_neg hnot, RegDef.judged_of_unlockable hrwl, hlegal, Bool.false_eq_true,
    not_false_eq_true, if_true]

/-- A legal word has its effect in full, whether the register's bits are RW, W1C or WO. -/
theorem State.writeReg_of_legal {k : Nat} {d : RegDef} {v : Word} (hd : regDef? k = some d) (hrwl : d.rwl = 0)
    (hwrite : ¬ (d.rw = 0 ∧ d.w1c = 0 ∧ d.wo = 0)) (hlegal : legalWord f (baseKey k) v = true) :
    s.writeReg f k v = (false, s.writeEffect f k v (d.merge (s.reg k) v (s.bit PART_STAT.LOCKED))) := by
  have hnot (p : Prop) : ¬ (d.rw = 0 ∧ d.w1c = 0 ∧ d.wo = 0 ∧ p) := fun ⟨h1, h2, h3, _⟩ => hwrite ⟨h1, h2, h3⟩
  simp only [State.writeReg, hd, if_neg (hnot _), RegDef.judged_of_unlockable hrwl, hlegal, not_true_eq_false, if_false,
    hrwl]
  simp

/-- A command's write of a page register, served, does what `writeReg` says, after the access, whatever `PAGE` holds. -/
theorem State.cmdWrite_of_serves {x : Fld} (v : Word) (hkey : 0x80 ≤ x.key) (h : Serves s f (keyPage x.key))
    (hreg : gate3 f x.key = .serve) : s.cmdWrite f x v = (s.regAccess.writeReg f x.key v).2 := by
  have hgate := State.gate_of_serves (offOf x.key) h.regAccess
  obtain ⟨hready, -⟩ := h
  simp [State.cmdWrite, Nat.not_lt.mpr hkey, hready, State.writeKey, hgate, hreg]

/-! ### The words of `MODE_CMD` -/

/-- A register's ranged fields are those that the tables list under its key. -/
theorem legalWord_eq_filter (f : Fn) (k : Nat) (w : Word) : legalWord f k w =
    (((rangesA ++ rangesB ++ rangesC).filter fun r => r.1.key == k).all
      (fun r => decide (r.2.1 ≤ r.1.of w) && decide (r.1.of w ≤ r.2.2)) && extraLegal f k w) := by
  rw [List.all_filter]
  rfl

theorem ranges_modeCmd : ((rangesA ++ rangesB ++ rangesC).filter fun r => r.1.key == MODE_CMD.w.key) =
    [(MODE_CMD.KEY, 0xA5, 0xA5), (MODE_CMD.REQ, 1, 2)] := by decide

/-- The legal words of `MODE_CMD` are those with KEY 0xA5 and REQ 1 or 2. -/
theorem legalWord_modeCmd (f : Fn) (v : Word) : legalWord f MODE_CMD.w.key v = true ↔
    v.toNat / 0x100 = 0xA5 ∧ (v.toNat % 4 = 1 ∨ v.toNat % 4 = 2) := by
  have hv := v.isLt
  have hkey : MODE_CMD.KEY.of v = v.toNat / 0x100 := by
    rw [show MODE_CMD.KEY.of v = v.toNat / 0x100 % 0x100 from rfl, Nat.mod_eq_of_lt (by omega)]
  have hreq : MODE_CMD.REQ.of v = v.toNat % 4 := by
    rw [show MODE_CMD.REQ.of v = v.toNat / 1 % 4 from rfl, Nat.div_one]
  have hextra : extraLegal f MODE_CMD.w.key v = true := by simp (decide := true) only [extraLegal, if_false]
  rw [legalWord_eq_filter, ranges_modeCmd, hextra]
  simp only [List.all_cons, List.all_nil, hkey, hreq, Bool.and_true, Bool.and_eq_true, decide_eq_true_eq]
  omega

/-! ### What a write of `MODE_CMD` does -/

/-- The row of `MODE_CMD` in the table of its page: KEY and REQ are WO. -/
def modeCmdDef : RegDef := ⟨0x283, 0, 0, 0, 0xFF03, 0⟩

theorem regDef_modeCmd : regDef? MODE_CMD.w.key = some modeCmdDef := by decide

theorem gate3_modeCmd (f : Fn) : gate3 f MODE_CMD.w.key = .serve :=
  gate3_page f (by decide) (by decide) (by rw [regDef_modeCmd]; exact Option.some_ne_none _)

theorem State.writeEffect_modeCmd (s : State) (f : Fn) (v new : Word) : s.writeEffect f MODE_CMD.w.key v new =
    if v.toNat % 4 = 1 then s.shutdown f else s.restNowCmd := rfl

theorem State.writeReg_modeCmd_illegal {v : Word}
    (h : ¬ (v.toNat / 0x100 = 0xA5 ∧ (v.toNat % 4 = 1 ∨ v.toNat % 4 = 2))) :
    s.writeReg f MODE_CMD.w.key v = (true, s.setErr f eBADARG) :=
  State.writeReg_of_illegal regDef_modeCmd rfl (by decide)
    (Bool.eq_false_iff.mpr fun hl => h ((legalWord_modeCmd f v).mp hl))

theorem State.writeReg_modeCmd_legal {v : Word} (hkey : v.toNat / 0x100 = 0xA5)
    (hreq : v.toNat % 4 = 1 ∨ v.toNat % 4 = 2) :
    s.writeReg f MODE_CMD.w.key v = (false, if v.toNat % 4 = 1 then s.shutdown f else s.restNowCmd) := by
  rw [State.writeReg_of_legal regDef_modeCmd rfl (by decide) ((legalWord_modeCmd f v).mpr ⟨hkey, hreq⟩),
    State.writeEffect_modeCmd]

/-- With `PAGE` on page MODE, offset 0x83 of a window is `MODE_CMD`. -/
theorem exec_registerWrite_modeCmd (v : Word) (h : Serves s f 2) (hsel : s.fget f PAGE.SEL = 2) :
    exec (.registerWrite f 0x83 v) s = .next (s.regAccess.writeReg f MODE_CMD.w.key v).2 := by
  have hsel' : s.regAccess.fget f PAGE.SEL = 2 := by rwa [State.fget_regAccess (by decide)]
  exact exec_registerWrite_of_serves v (by decide)
    (State.keyAt_of_pageSel hsel' (by decide) (by decide) (by decide)) h (gate3_modeCmd f)

/-- The command MODE_CMD_SHUTDOWN, served: the access, then the entry to SHUTDOWN of R106. -/
theorem exec_modeCmdShutdown (h : Serves s f 2) :
    exec (.modeCmdShutdown f) s = .next (s.regAccess.shutdown f) := by
  have hwrite : s.cmdWrite f MODE_CMD.w 0xA501 = s.regAccess.shutdown f := by
    rw [State.cmdWrite_of_serves _ (by decide) h (gate3_modeCmd f),
      State.writeReg_modeCmd_legal (by decide) (by decide), if_pos (by decide)]
  rw [← hwrite]
  rfl

/-- Settles O44: the three kinds of word by `State.writeReg_modeCmd_illegal` and `State.writeReg_modeCmd_legal`. -/
theorem modeCommandTakesOnlyItsTwoWords : Obligations.ModeCommandTakesOnlyItsTwoWords := by
  unfold Obligations.ModeCommandTakesOnlyItsTwoWords
  intro v s _ hserves hsel
  rw [exec_registerWrite_modeCmd v hserves hsel, exec_modeCmdShutdown hserves]
  refine ⟨fun hbad => ?_, fun hkey hreq => ?_, fun hkey hreq => ⟨_, rfl, ?_⟩⟩
  · rw [State.writeReg_modeCmd_illegal hbad]
  · rw [State.writeReg_modeCmd_legal hkey (.inl hreq), if_pos hreq]
  · rw [State.writeReg_modeCmd_legal hkey (.inr hreq), if_neg (by omega)]
    rfl

end Sys2Proof.Machine
end

section
/-! PROOFS. Van windows (R111, R390): what their start does while Dormouse is stopped, and once a window has passed. -/

namespace Sys2Proof.Machine

open R

variable {s : State}

theorem exec_vanWindowStart (s : State) : exec .vanWindowStart s = execVanWindowStart s := rfl

/-- In SHUTDOWN Dormouse is stopped. -/
theorem State.dormouse_of_shutdown (h : s.get MODE.CUR = 0) : s.dormouse = false := by
  simp [State.dormouse, h]

/-- While Dormouse is stopped nothing finds a window. -/
theorem exec_vanWindowStart_of_stopped (h : s.dormouse = false) : exec .vanWindowStart s = .next s := by
  simp [exec_vanWindowStart, execVanWindowStart, h]

/-- Of a one-shot window whose start has come nothing is left. -/
theorem Van.after_of_passed {v : Van} {t : Nat} (hshot : v.period = 0) (hpast : v.start ≤ t) : v.after t = none := by
  simp [Van.after, hshot, Nat.not_lt.mpr hpast]

/-- When every window is one-shot and has passed, looking for the next one drops them all, as VAN_CLR does, and asks for
no remote wake. -/
theorem exec_vanWindowStart_of_passed (hrun : s.dormouse = true)
    (hpast : ∀ v ∈ s.edf.vans, v.period = 0 ∧ v.start < s.sec % 0x100000000) :
    exec .vanWindowStart s = .next s.vanClr := by
  rw [exec_vanWindowStart, execVanWindowStart, if_neg (not_not.mpr hrun)]
  extract_lets now hit edf left shown
  have hleft : s.edf.vans.filterMap (fun v => v.after now) = [] := List.filterMap_eq_nil_iff.mpr fun v hv =>
    have ⟨hshot, hlt⟩ := hpast v hv
    Van.after_of_passed hshot (Nat.le_of_lt hlt)
  have hhit : hit = false := List.any_eq_false.mpr fun v hv => by
    obtain ⟨hshot, hlt⟩ := hpast v hv
    simp [now, hshot, Nat.ne_of_lt hlt]
  simp only [hhit, Bool.false_eq_true, false_and, if_false, shown, left, edf, hleft, State.vanClr]

/-- What the registers show of the Hoard and of the windows stands on page EDF. -/
theorem State.showEdf_only (s : State) : Only [.page 0x12] s s.showEdf :=
  Keeps.areas (s.showEdf_keeps (μ := areasMask [.page 0x12]) .refl (by decide)) (by decide) (by decide)

/-- Removing every window leaves none, and changes no register outside page EDF, no pin and no mode. -/
theorem State.vanClr_frame (s : State) : s.vanClr.edf.vans = [] ∧ s.vanClr.mode = s.mode ∧ s.vanClr.pins = s.pins ∧
    ∀ k, keyPage k ≠ 0x12 → s.vanClr.reg k = s.reg k := by
  obtain ⟨-, -, hreg, hsame⟩ := State.showEdf_only { s with edf := { s.edf with vans := [] } }
  have hedf := hsame .datacast (by decide)
  exact ⟨congrArg Edf.vans hedf, hsame .mode (by decide), hsame .pins (by decide),
    fun k hk => hreg k (by simpa [Area.has] using hk)⟩

/-- Settles O45: SHUTDOWN by `exec_vanWindowStart_of_stopped`, a passed window by `exec_vanWindowStart_of_passed`. -/
theorem vanWindowInShutdownIsLost : Obligations.VanWindowInShutdownIsLost := by
  unfold Obligations.VanWindowInShutdownIsLost
  constructor
  · intro s _ hshut
    exact ⟨s, exec_vanWindowStart_of_stopped (State.dormouse_of_shutdown hshut), rfl, rfl, fun _ _ => rfl⟩
  · rintro v s _ ⟨hrun, hvans, hshot, hpast⟩
    have hall : ∀ w ∈ s.edf.vans, w.period = 0 ∧ w.start < s.sec % 0x100000000 := by
      simp [hvans, hshot, hpast]
    exact ⟨_, exec_vanWindowStart_of_passed hrun hall, s.vanClr_frame⟩

end Sys2Proof.Machine
end

section
/-! PROOFS. A field after a write of it, and what a register access of the host leaves of the memory port's state. -/

namespace Sys2Proof.Machine

open R

variable {s : State} {f : Fn}

/-! ### A field after a write -/

/-- A field reads the value written, reduced to its width. -/
theorem State.get_put_same {x : Fld} (h : Sparse.wf resetWord s.regs = true) (hle : x.lo ≤ x.hi) (hlt : x.hi < 16)
    (v : Nat) : (s.put x v).get x = v % x.size := by
  simp only [State.get, State.put, State.reg_setReg h, Fld.size, BitVec.toNat_ofNat]
  generalize (s.reg x.key).toNat = old
  generalize hwidth : x.hi + 1 - x.lo = width
  have hnew : old - old / 2 ^ x.lo % 2 ^ width * 2 ^ x.lo + v % 2 ^ width * 2 ^ x.lo =
      old % 2 ^ x.lo + 2 ^ x.lo * (v % 2 ^ width + 2 ^ width * (old / 2 ^ x.lo / 2 ^ width)) := by
    have hlow := Nat.mod_add_div old (2 ^ x.lo)
    have hhigh := Nat.mod_add_div (old / 2 ^ x.lo) (2 ^ width)
    have hold : old = old % 2 ^ x.lo + 2 ^ x.lo * (old / 2 ^ x.lo % 2 ^ width) +
        2 ^ x.lo * (2 ^ width * (old / 2 ^ x.lo / 2 ^ width)) := by
      rw [Nat.add_assoc, ← Nat.mul_add, hhigh, hlow]
    rw [Nat.mul_add, Nat.mul_comm (v % 2 ^ width), Nat.mul_comm (old / 2 ^ x.lo % 2 ^ width)]
    omega
  rw [show (2 : Nat) ^ 16 = 2 ^ x.lo * 2 ^ (16 - x.lo) by rw [← Nat.pow_add]; congr 1; omega, Nat.mod_mul_right_div_self,
    Nat.mod_mod_of_dvd _ (Nat.pow_dvd_pow 2 (by omega : width ≤ 16 - x.lo)), hnew,
    Nat.add_mul_div_left _ _ (Nat.two_pow_pos x.lo), Nat.div_eq_of_lt (Nat.mod_lt _ (Nat.two_pow_pos x.lo)), Nat.zero_add,
    Nat.add_mul_mod_self_left, Nat.mod_mod]

theorem State.fget_fput_same {x : Fld} (h : Sparse.wf resetWord s.regs = true) (hle : x.lo ≤ x.hi) (hlt : x.hi < 16)
    (v : Nat) : (s.fput f x v).fget f x = v % x.size :=
  State.get_put_same (x := x.on f.toNat) h hle hlt v

/-- A field of another register of the function's common part reads as before. -/
theorem State.fget_fput_ne {x y : Fld} (v : Nat) (h : y.key ≠ x.key) : (s.fput f x v).fget f y = s.fget f y :=
  State.get_put_ne s v fun hk => h (Nat.add_left_cancel hk)

/-- A field written in full is its whole register. -/
theorem State.put_word (k : Nat) (v : Word) : s.put ⟨k, 15, 0⟩ v.toNat = s.setReg k v := by
  have hold := (s.reg k).isLt
  have hnew := v.isLt
  have hword : (s.reg k).toNat - (s.reg k).toNat / 2 ^ 0 % 2 ^ (15 + 1 - 0) * 2 ^ 0 +
      v.toNat % 2 ^ (15 + 1 - 0) * 2 ^ 0 = v.toNat := by omega
  rw [State.put, Fld.size, hword, BitVec.ofNat_toNat, BitVec.setWidth_eq]

/-! ### What an access leaves -/

theorem State.bit_regAccess {x : Fld} (h : regIn (areasMask Area.access) x.key = false) : s.regAccess.bit x = s.bit x := by
  rw [State.bit, State.get_regAccess h, ← State.bit]

@[simp] theorem State.mem_regAccess (s : State) : s.regAccess.mem = s.mem :=
  have ⟨_, _, _, _, hsame⟩ := s.regAccess_keeps_access
  hsame .memory (by decide)

@[simp] theorem State.edf_regAccess (s : State) : s.regAccess.edf = s.edf :=
  have ⟨_, _, _, _, hsame⟩ := s.regAccess_keeps_access
  hsame .datacast (by decide)

@[simp] theorem State.fns_wantHost (s : State) (r : Nat) : (s.wantHost r).fns = s.fns := by
  unfold State.wantHost
  extract_lets on t
  split
  · unfold t
    split <;> rfl
  · rfl

/-- Marking a set for an attention message leaves the address of every memory port. -/
@[simp] theorem State.memAddr_noteAttn (s : State) (f g : Fn) (src : Nat) :
    ((s.noteAttn f src).eng g).memAddr = (s.eng g).memAddr := by
  have hset (t : State) (e : FnEng) (he : e.memAddr = (t.eng f).memAddr) :
      ((t.setEng f e).eng g).memAddr = (t.eng g).memAddr := by
    by_cases hg : g = f
    · rw [hg, State.eng_setEng, he]
    · rw [State.eng_setEng_ne _ _ hg]
  unfold State.noteAttn
  extract_lets en t e
  have ht : t.eng g = s.eng g := by
    unfold t State.eng
    split <;> simp
  rw [← ht]
  split
  · split <;> exact hset _ _ rfl
  · rfl

@[simp] theorem State.memAddr_raise1 (s : State) (g : Fn) (b : Nat) :
    ((s.raise1 b).eng g).memAddr = (s.eng g).memAddr := by
  rw [State.raise1, State.memAddr_noteAttn]
  rfl

@[simp] theorem State.memAddr_regAccess (s : State) (g : Fn) : (s.regAccess.eng g).memAddr = (s.eng g).memAddr := by
  simp only [State.regAccess]
  split
  · rw [State.memAddr_raise1]
    rfl
  · rfl

@[simp] theorem State.region_regAccess (s : State) (a : Nat) : s.regAccess.region a = s.region a := by
  rw [State.region, State.edf_regAccess, ← State.region]

@[simp] theorem State.mayRead_regAccess (s : State) (f : Fn) (r : Region) : s.regAccess.mayRead f r = s.mayRead f r := by
  cases r <;> simp [State.mayRead]

@[simp] theorem State.mayWrite_regAccess (s : State) (f : Fn) (r : Region) :
    s.regAccess.mayWrite f r = s.mayWrite f r := by
  cases r <;> simp [State.mayWrite]

end Sys2Proof.Machine
end

section
/-! PROOFS. The memory port outside its map and where the function may not reach (R240). -/

namespace Sys2Proof.Machine

open R

variable {s : State} {f : Fn}

/-! ### A refused access -/

/-- What R240 leaves of an access it refuses: the status bit and the code are set, the address and the memory stay. -/
def PortRefused (f : Fn) (x : Fld) (code : Nat) (s t : State) : Prop :=
  t.fget f x = 1 ∧ t.fget f FN_ERR.CODE = code ∧ (t.eng f).memAddr = (s.eng f).memAddr ∧ t.mem = s.mem

/-- A one-bit flag outside `FN_ERR`, then the code. -/
theorem State.portRefused_setErr {x : Fld} {code : Nat} (hc : s.Canon) (hbit : x.hi = x.lo) (hlt : x.hi < 16)
    (hkey : x.key ≠ FN_ERR.CODE.key) (hcode : code < 0x100) :
    PortRefused f x code s ((s.fput f x 1).setErr f code) := by
  obtain ⟨hregs, -⟩ := hc
  have hregs' : Sparse.wf resetWord (s.fput f x 1).regs = true := Sparse.wf_put resetWord _ _ hregs
  have hsize : x.size = 2 := by rw [Fld.size, hbit, Nat.add_sub_cancel_left, Nat.pow_one]
  refine ⟨?_, ?_, rfl, rfl⟩
  · rw [State.setErr, State.fget_fput_ne _ hkey, State.fget_fput_same hregs (Nat.le_of_eq hbit.symm) hlt, hsize]
  · rw [State.setErr, State.fget_fput_same hregs' (by decide) (by decide)]
    exact Nat.mod_eq_of_lt hcode

/-- Outside the regions, or beyond the flash fitted. -/
theorem State.memFault_unmapped {r : Region} (hc : s.Canon) (hr : r = .unmapped) :
    PortRefused f MEM_STAT.UNMAPPED eBADARG s (s.memFault f r) := by
  rw [State.memFault, if_pos hr]
  exact State.portRefused_setErr hc rfl (by decide) (by decide) (by decide)

/-- In a region barred to the function. -/
theorem State.memFault_barred {r : Region} (hc : s.Canon) (hr : r ≠ .unmapped) :
    PortRefused f MEM_STAT.VIOL eGRANT s (s.memFault f r) := by
  rw [State.memFault, if_neg hr]
  exact State.portRefused_setErr hc rfl (by decide) (by decide) (by decide)

/-- A read in the direction set that reaches nothing gives 0x0000. -/
theorem State.memRead_of_refused (q : Bool) (hload : s.hostLoading = false) (hdir : s.fget f MEM_CTRL.WR = 0)
    (hreach : s.region (s.eng f).memAddr = .unmapped ∨ s.mayRead f (s.region (s.eng f).memAddr) = false) :
    s.memRead f q = (0, s.memFault f (s.region (s.eng f).memAddr)) := by
  simp only [State.memRead, hload, hdir, Bool.false_eq_true, if_false, Nat.zero_ne_one, Bool.not_eq_true, if_pos hreach]

/-- A write in the direction set that reaches nothing stores nothing. -/
theorem State.memWrite_of_refused (v : Word) (hload : s.hostLoading = false) (hdir : s.fget f MEM_CTRL.WR = 1)
    (hreach : s.region (s.eng f).memAddr = .unmapped ∨ s.mayWrite f (s.region (s.eng f).memAddr) = false) :
    s.memWrite f v = s.memFault f (s.region (s.eng f).memAddr) := by
  simp only [State.memWrite, hload, hdir, Bool.false_eq_true, false_and, if_false, Nat.one_ne_zero, Bool.not_eq_true,
    if_pos hreach]

/-! ### `MEM_DATA` as a register of the common part -/

theorem baseKey_memData (f : Fn) : baseKey (commonKey f.toNat MEM_DATA.w.key) = 0x63 := baseKey_common f (by decide)

/-- The row of `MEM_DATA` in the table of the common part: every bit is RW. -/
def memDataDef : RegDef := ⟨0x63, 0, 0xFFFF, 0, 0, 0⟩

theorem regDef_memData (f : Fn) : regDef? (commonKey f.toNat MEM_DATA.w.key) = some memDataDef := by cases f <;> decide

theorem gate3_memData (f : Fn) : gate3 f (commonKey f.toNat MEM_DATA.w.key) = .serve := by
  rw [gate3, regDef_memData, baseKey_memData]
  simp (decide := true) only [and_false, or_self, if_false]

theorem legalWord_memData (f : Fn) (w : Word) : legalWord f 0x63 w = true := by
  rw [legalWord_of_unranged (by decide), extraLegal]
  simp (decide := true) only [if_false]

theorem State.writeEffect_memData (s : State) (f : Fn) (v new : Word) :
    s.writeEffect f (commonKey f.toNat MEM_DATA.w.key) v new = s.memWrite f v := by
  simp (decide := true) only [State.writeEffect, keyPage_common, State.writeCommon, baseKey_memData, if_true, if_false,
    false_and]

/-- A served write of `MEM_DATA`: the access, then the port's write. -/
theorem exec_memDataAccess_write (v : Word) (q : Bool) (h : Serves s f 0) :
    exec (.memDataAccess f (some v) q) s = .next (s.regAccess.memWrite f v) := by
  have hgate := State.gate_of_serves (k := commonKey f.toNat MEM_DATA.w.key) (f := f)
    (offOf (commonKey f.toNat MEM_DATA.w.key)) (by rw [keyPage_common]; exact h.regAccess)
  obtain ⟨hready, -⟩ := h
  have hwrite : s.cmdWrite f MEM_DATA.w v = s.regAccess.memWrite f v := by
    rw [State.cmdWrite, if_pos (show MEM_DATA.w.key < 0x80 by decide), if_pos hready]
    simp only [State.writeKey, hgate, gate3_memData]
    rw [State.writeReg_of_legal (regDef_memData f) rfl (by decide)
      (by rw [baseKey_memData]; exact legalWord_memData f v), State.writeEffect_memData]
  rw [← hwrite]
  rfl

/-- A served read of `MEM_DATA`: the access, then the port's read, whose word goes out. -/
theorem exec_memDataAccess_read (q : Bool) (h : Serves s f 0) : exec (.memDataAccess f none q) s =
    .next { (s.regAccess.memRead f q).2 with hostOut := [(s.regAccess.memRead f q).1] } := by
  obtain ⟨hready, hbusy, hload, -⟩ := h
  have hgate : s.gate f 0x63 (some (commonKey f.toNat 0x63)) false false = .serve := by
    have hpage : s.gate2 f 0 false = .serve := by simp [State.gate2]
    simp only [State.gate, State.gate1_serve _ _ _ hready hbusy hload, keyPage_common, hpage]
    exact gate3_memData f
  have hread : s.cmdRead f 0x63 (fun s => s.memRead f q) =
      { (s.regAccess.memRead f q).2 with hostOut := [(s.regAccess.memRead f q).1] } := by
    simp only [State.cmdRead, hgate]
  rw [← hread]
  rfl

/-! ### A served access that the port refuses -/

/-- A served read that reaches nothing ends as `memFault` does, after the access, and 0x0000 goes out. -/
theorem exec_memDataAccess_read_of_refused (q : Bool) (h : Serves s f 0) (hdir : s.fget f MEM_CTRL.WR = 0)
    (hreach : s.region (s.eng f).memAddr = .unmapped ∨ s.mayRead f (s.region (s.eng f).memAddr) = false) :
    exec (.memDataAccess f none q) s =
      .next { s.regAccess.memFault f (s.region (s.eng f).memAddr) with hostOut := [0] } := by
  have ⟨_, _, hload, _⟩ := h
  have hread := State.memRead_of_refused (s := s.regAccess) (f := f) q (s.hostLoading_regAccess.trans hload)
    (by rwa [State.fget_regAccess (by decide)]) (by simpa using hreach)
  rw [exec_memDataAccess_read q h, hread, State.memAddr_regAccess, State.region_regAccess]

/-- A served write that reaches nothing ends as `memFault` does, after the access. -/
theorem exec_memDataAccess_write_of_refused (v : Word) (q : Bool) (h : Serves s f 0) (hdir : s.fget f MEM_CTRL.WR = 1)
    (hreach : s.region (s.eng f).memAddr = .unmapped ∨ s.mayWrite f (s.region (s.eng f).memAddr) = false) :
    exec (.memDataAccess f (some v) q) s = .next (s.regAccess.memFault f (s.region (s.eng f).memAddr)) := by
  have ⟨_, _, hload, _⟩ := h
  have hwrite := State.memWrite_of_refused (s := s.regAccess) (f := f) v (s.hostLoading_regAccess.trans hload)
    (by rwa [State.fget_regAccess (by decide)]) (by simpa using hreach)
  rw [exec_memDataAccess_write v q h, hwrite, State.memAddr_regAccess, State.region_regAccess]

/-- What is refused after the access is refused of the state before it. -/
theorem PortRefused.of_regAccess {x : Fld} {code : Nat} {t : State} (h : PortRefused f x code s.regAccess t) :
    PortRefused f x code s t := by
  simpa only [PortRefused, State.memAddr_regAccess, State.mem_regAccess] using h

/-- Settles O46: each access ends as `State.memFault` says, outside the map by `State.memFault_unmapped`, in a region barred
to the function by `State.memFault_barred`. -/
theorem memoryPortRefusesOutsideItsMap : Obligations.MemoryPortRefusesOutsideItsMap := by
  unfold Obligations.MemoryPortRefusesOutsideItsMap
  intro f q
  refine ⟨fun s hc ⟨hs, hdir, hr⟩ => ?_, fun s hc ⟨hs, hdir, hr, hbar⟩ => ?_, fun v =>
    ⟨fun s hc ⟨hs, hdir, hr⟩ => ?_, fun s hc ⟨hs, hdir, hr, hbar⟩ => ?_⟩⟩
  · exact ⟨_, exec_memDataAccess_read_of_refused q hs hdir (.inl hr), rfl,
      (State.memFault_unmapped (State.canon_regAccess hc) hr).of_regAccess⟩
  · exact ⟨_, exec_memDataAccess_read_of_refused q hs hdir (.inr hbar), rfl,
      (State.memFault_barred (State.canon_regAccess hc) hr).of_regAccess⟩
  · exact ⟨_, exec_memDataAccess_write_of_refused v q hs hdir (.inl hr),
      (State.memFault_unmapped (State.canon_regAccess hc) hr).of_regAccess⟩
  · exact ⟨_, exec_memDataAccess_write_of_refused v q hs hdir (.inr hbar),
      (State.memFault_barred (State.canon_regAccess hc) hr).of_regAccess⟩

end Sys2Proof.Machine
end

section
/-! PROOFS. The sums that the sizes of the partitions keep within (R243). -/

namespace Sys2Proof.Machine

open R

variable {s : State} {f : Fn}

/-! ### A write to a register whose every bit is lockable, with the lock off (R7, R10) -/

/-- The row of a register whose sixteen bits are RWL. -/
def RegDef.lockable (key reset : Nat) : RegDef := ⟨key, reset, 0, 0, 0, 0xFFFF⟩

theorem RegDef.judged_of_unlocked (d : RegDef) (old v : Word) : d.judged old v false = v := by
  simpa [RegDef.judged] using BitVec.and_allOnes (x := v)

/-- With the lock off such a register takes the word as written. -/
theorem RegDef.merge_lockable (key reset : Nat) (old v : Word) : (RegDef.lockable key reset).merge old v false = v := by
  simpa [RegDef.merge, RegDef.lockable] using BitVec.and_allOnes (x := v)

/-- A legal word has its effect in full. -/
theorem State.writeReg_of_lockable {k key reset : Nat} {v : Word} (hd : regDef? k = some (.lockable key reset))
    (hopen : s.bit PART_STAT.LOCKED = false) (hlegal : legalWord f (baseKey k) v = true) :
    s.writeReg f k v = (false, s.writeEffect f k v v) := by
  have hrow : ¬ ((RegDef.lockable key reset).rw = 0 ∧ (RegDef.lockable key reset).w1c = 0 ∧
      (RegDef.lockable key reset).wo = 0 ∧ (RegDef.lockable key reset).rwl = 0) := by simp [RegDef.lockable]
  simp only [State.writeReg, hd, if_neg hrow, hopen, RegDef.judged_of_unlocked, hlegal, RegDef.merge_lockable]
  simp

/-! ### `PART_DQ` -/

theorem regDef_partDq : regDef? PART_DQ.w.key = some (.lockable 0x98B 0x4444) := by decide

theorem State.writeEffect_partDq (s : State) (f : Fn) (v new : Word) : s.writeEffect f PART_DQ.w.key v new =
    if 16 < new.toNat % 16 + new.toNat / 16 % 16 + new.toNat / 256 % 16 + new.toNat / 4096 then s.setErr f eRES
    else s.partDq new.toNat := rfl

/-- The command PART_DQ_WRITE of a legal word above 16 KiB, served and unlocked. -/
theorem exec_partDqWrite_of_excess {v : Word} (h : Serves s f 9) (hopen : s.bit PART_STAT.LOCKED = false)
    (hlegal : legalWord f PART_DQ.w.key v = true)
    (hsum : 16 < v.toNat % 16 + v.toNat / 16 % 16 + v.toNat / 256 % 16 + v.toNat / 4096) :
    exec (.partDqWrite f v) s = .next (s.regAccess.setErr f eRES) := by
  have hgate : gate3 f PART_DQ.w.key = .serve := gate3_page f (by decide) (by decide) (by simp [regDef_partDq])
  have hwrite : s.cmdWrite f PART_DQ.w v = s.regAccess.setErr f eRES := by
    rw [State.cmdWrite_of_serves v (by decide) h hgate, State.writeReg_of_lockable regDef_partDq
      (by rwa [State.bit_regAccess (by decide)]) hlegal, State.writeEffect_partDq, if_pos hsum]
  rw [← hwrite]
  rfl

/-! ### `PART_QH_Fn` -/

theorem regDef_partQh {n : Nat} (h : n < 4) :
    regDef? (PART_QH_F.w n).key = some (.lockable (PART_QH_F.w n).key (if n = 0 then 0x200 else 0x100)) := by
  decide +revert

theorem partQh_not_access {n : Nat} (h : n < 4) : regIn (areasMask Area.access) (PART_QH_F.w n).key = false := by
  decide +revert

theorem State.writeEffect_partQh {n : Nat} (h : n < 4) (s : State) (f : Fn) (v new : Word) :
    s.writeEffect f (PART_QH_F.w n).key v new =
      if (s.setReg (PART_QH_F.w n).key new).qhFits then s.setReg (PART_QH_F.w n).key new else s.setErr f eRES := by
  interval_cases n <;> rfl

/-- Whether the Hoard quotas fit with one of them replaced does not depend on the access. -/
theorem State.qhFits_put_regAccess {n : Nat} (hc : s.Canon) (v : Word) :
    (s.regAccess.setReg (PART_QH_F.w n).key v).qhFits = (s.put (PART_QH_F.w n) v.toNat).qhFits := by
  have ⟨hregs, _⟩ := hc
  have ⟨hregs', _⟩ := State.canon_regAccess hc
  have hput : s.put (PART_QH_F.w n) v.toNat = s.setReg (PART_QH_F.w n).key v := State.put_word _ v
  have hget {i : Nat} (hi : i < 4) : (s.regAccess.setReg (PART_QH_F.w n).key v).get (PART_QH_F.w i) =
      (s.setReg (PART_QH_F.w n).key v).get (PART_QH_F.w i) := by
    unfold State.get
    by_cases hk : (PART_QH_F.w i).key = (PART_QH_F.w n).key
    · rw [hk, State.reg_setReg hregs, State.reg_setReg hregs']
    · rw [State.reg_setReg_ne _ _ hk, State.reg_setReg_ne _ _ hk, State.reg_regAccess (partQh_not_access hi)]
  have hflash : (s.regAccess.setReg (PART_QH_F.w n).key v).edf.flashSize = s.edf.flashSize :=
    congrArg Edf.flashSize s.edf_regAccess
  rw [hput, State.qhFits, hget (by decide), hget (by decide), hget (by decide), hget (by decide), hflash]
  rfl

/-- With `PAGE` on page PART, a served, unlocked write of a legal quota that would take the sum beyond the Hoard area. -/
theorem exec_registerWrite_partQh_of_excess {n : Nat} {v : Word} (hc : s.Canon) (hn : n < 4) (h : Serves s f 9)
    (hopen : s.bit PART_STAT.LOCKED = false) (hsel : s.fget f PAGE.SEL = 9)
    (hlegal : legalWord f (PART_QH_F.w n).key v = true) (hsum : (s.put (PART_QH_F.w n) v.toNat).qhFits = false) :
    exec (.registerWrite f ((PART_QH_F.w n).key % 0x100) v) s = .next (s.regAccess.setErr f eRES) := by
  have hkey : (PART_QH_F.w n).key = 9 * 0x100 + (0x94 + n) := by simp only [PART_QH_F.w]; omega
  have hoff : (PART_QH_F.w n).key % 0x100 = 0x94 + n := by omega
  have hsel' : s.regAccess.fget f PAGE.SEL = 9 := by rwa [State.fget_regAccess (by decide)]
  have hat : s.regAccess.keyAt f (0x94 + n) = some (PART_QH_F.w n).key :=
    hkey ▸ State.keyAt_of_pageSel hsel' (by decide) (by decide) (by omega)
  have hpage : keyPage (PART_QH_F.w n).key = 9 := hkey ▸ keyPage_page (by decide) (by omega)
  have hbase : baseKey (PART_QH_F.w n).key = (PART_QH_F.w n).key := by rw [baseKey, if_pos (by omega)]
  have hgate : gate3 f (PART_QH_F.w n).key = .serve :=
    gate3_page f (by omega) (by omega) (by simp [regDef_partQh hn])
  rw [hoff, exec_registerWrite_of_serves v (by omega) hat (hpage ▸ h) hgate, State.writeReg_of_lockable (regDef_partQh hn)
    (by rwa [State.bit_regAccess (by decide)]) (by rwa [hbase]), State.writeEffect_partQh hn,
    State.qhFits_put_regAccess hc, hsum, if_neg Bool.false_ne_true]

/-- Settles O47: the queues by `exec_partDqWrite_of_excess`, the quotas by `exec_registerWrite_partQh_of_excess`. -/
theorem partitionSizesStayWithinTheirSums : Obligations.PartitionSizesStayWithinTheirSums := by
  unfold Obligations.PartitionSizesStayWithinTheirSums
  intro v s hc hserves hopen
  refine ⟨exec_partDqWrite_of_excess hserves hopen, fun n hn hsel hlegal hsum => ?_⟩
  refine exec_registerWrite_partQh_of_excess hc hn hserves hopen hsel hlegal ?_
  exact decide_eq_false (Nat.not_le.mpr hsum)

end Sys2Proof.Machine
end

section
/-! PROOFS. Where a system reset ends (R33, R468), and the third heartbeat expiry, which causes one (R467). -/

namespace Sys2Proof.Machine

open R

variable {m : Nat} {s t : State}

/-! ### What an operation leaves, by its own mask -/

theorem within?_self (m : Nat) : within? m m = true := by simp [within?]

theorem Keeps.canon (h : Keeps m s t) (hc : s.Canon) : t.Canon :=
  have ⟨hcanon, _⟩ := h
  hcanon hc

theorem Keeps.get_eq {x : Fld} (h : Keeps m s t) (hx : regIn m x.key = false) : t.get x = s.get x := by
  have ⟨_, _, _, hreg, _⟩ := h
  rw [State.get, hreg _ hx, ← State.get]

theorem Keeps.same {a : Area} (h : Keeps m s t) (ha : m.testBit a.bit = false) : Same s t a :=
  have ⟨_, _, _, _, hsame⟩ := h
  hsame a ha

theorem State.canon_put (x : Fld) (v : Nat) (h : s.Canon) : (s.put x v).Canon :=
  have ⟨hregs, hrest⟩ := h
  ⟨Sparse.wf_put _ _ _ hregs, hrest⟩

theorem State.canon_resetRegs (p : Nat → Bool) (h : s.Canon) : (s.resetRegs p).Canon :=
  have ⟨hregs, hrest⟩ := h
  ⟨Sparse.wf_drop _ _ hregs, hrest⟩

/-! ### Entering BOOT -/

/-- BOOT stands entered with a cause of Table 21.2: neither Marten nor its reload runs, and READY is not reached. -/
structure State.InBoot (s : State) (cause : Nat) : Prop where
  cause_eq : s.boot.cause = cause
  cur : s.get MODE.CUR = 3
  ready : s.mode.ready = false
  marten : s.boot.marten = false
  reload : s.boot.reload = false

/-- What follows the write of `MODE.CUR`, the boot's count and the start of CORE, writes other registers. -/
theorem State.cur_bootEntry (cause : Nat) (wait : Bool) (hc : s.Canon) : (s.bootEntry cause wait).get MODE.CUR = 3 := by
  unfold State.bootEntry
  extract_lets acts mode _ _ booted
  have ⟨hregs, _⟩ : ((acts.put MODE.IDLE 0).put MODE.AWAKE 0).Canon := by
    iterate 6 apply State.canon_put
    exact hc
  calc booted.coreStart.get MODE.CUR
      = booted.get MODE.CUR := (booted.coreStart_keeps .refl (within?_self _)).get_eq (by decide)
    _ = (((acts.put MODE.IDLE 0).put MODE.AWAKE 0).put MODE.CUR 3).get MODE.CUR := State.get_put_ne _ _ (by decide)
    _ = 3 := State.get_put_same hregs (by decide) (by decide) 3

theorem State.inBoot_bootEntry (cause : Nat) (wait : Bool) (hc : s.Canon) : (s.bootEntry cause wait).InBoot cause :=
  ⟨rfl, State.cur_bootEntry cause wait hc, rfl, rfl, rfl⟩

@[simp] theorem State.hlt_bootEntry (s : State) (cause : Nat) (wait : Bool) : (s.bootEntry cause wait).hlt = s.hlt :=
  (s.bootEntry_keeps cause wait .refl (within?_self _)).same (a := .health) (by decide)

/-- The charger's state is no part of BOOT. -/
theorem State.InBoot.chgState {cause : Nat} (h : s.InBoot cause) (v : Nat) : (s.chgState v).InBoot cause := by
  have hk := s.chgState_keeps v .refl (within?_self _)
  have hboot : (s.chgState v).boot = s.boot := hk.same (a := .boot) (by decide)
  have hmode : (s.chgState v).mode = s.mode := hk.same (a := .mode) (by decide)
  exact ⟨hboot ▸ h.cause_eq, (hk.get_eq (by decide)).trans h.cur, hmode ▸ h.ready, hboot ▸ h.marten, hboot ▸ h.reload⟩

@[simp] theorem State.hlt_chgState (s : State) (v : Nat) : (s.chgState v).hlt = s.hlt :=
  (s.chgState_keeps v .refl (within?_self _)).same (a := .health) (by decide)

/-! ### A reset of every processor -/

@[simp] theorem State.hlt_twDefaults (s : State) : s.twDefaults.hlt = s.hlt :=
  (s.twDefaults_keeps .refl (within?_self _)).same (a := .health) (by decide)

@[simp] theorem State.hlt_setBases (s : State) (l : List Base) : (s.setBases l).hlt = s.hlt :=
  (s.setBases_keeps l .refl (within?_self _)).same (a := .health) (by decide)

@[simp] theorem State.hlt_showEdf (s : State) : s.showEdf.hlt = s.hlt :=
  (s.showEdf_keeps .refl (within?_self _)).same (a := .health) (by decide)

@[simp] theorem State.hlt_probeCut (s : State) : s.probeCut.hlt = s.hlt :=
  (s.probeCut_keeps .refl (within?_self _)).same (a := .health) (by decide)

@[simp] theorem State.hlt_attnEnd (s : State) (code : Nat) : (s.attnEnd code).hlt = s.hlt :=
  (s.attnEnd_keeps code .refl (within?_self _)).same (a := .health) (by decide)

@[simp] theorem State.hlt_endActivities (s : State) (cause : Nat) (listen : Option Nat) :
    (s.endActivities cause listen).hlt = s.hlt :=
  (s.endActivities_keeps cause listen .refl (within?_self _)).same (a := .health) (by decide)

/-- Losing CORE disarms the heartbeat check and drops a sample that is due; the rest of the health state stays. -/
@[simp] theorem State.hlt_coreLost (s : State) : s.coreLost.hlt = { s.hlt with hbArmed := false, due := false } := by
  simp only [State.coreLost, State.hlt_showEdf, State.hlt_setBases, State.hlt_twDefaults]
  rfl

/-- A reset of every processor ends with the entry to BOOT, and with the charger in START when the reservoir is low; of
the health state it changes what the loss of CORE does. -/
theorem State.coldReset_cases (s : State) (cause : Nat) (straps : Bool) : ∃ (u : State) (low : Bool),
    s.coldReset cause straps = (if low then (u.bootEntry cause low).chgState 3 else u.bootEntry cause low) ∧
      (s.Canon → u.Canon) ∧ u.hlt = { s.hlt with hbArmed := false, due := false } := by
  unfold State.coldReset
  extract_lets _ _ held calm idle lost bare _ _ u low booted
  have hcanon (hc : s.Canon) : lost.Canon := by
    have hheld : held.Canon := hc
    have hprobe := (held.probeCut_keeps .refl (within?_self _)).canon hheld
    have hcalm : calm.Canon := (held.probeCut.attnEnd_keeps 9 .refl (within?_self _)).canon hprobe
    have hidle : idle.Canon := (calm.endActivities_keeps 4 none .refl (within?_self _)).canon hcalm
    exact State.canon_resetRegs _ ((idle.coreLost_keeps .refl (within?_self _)).canon hidle)
  have hkept : idle.hlt = s.hlt := by
    rw [State.hlt_endActivities, State.hlt_attnEnd, State.hlt_probeCut]
  have hhlt : lost.hlt = { s.hlt with hbArmed := false, due := false } := by
    rw [State.resetRegs_hlt, State.hlt_coreLost, hkept]
  refine ⟨u, low, rfl, fun hc => ?_, ?_⟩ <;> clear_value lost
  · have ⟨hregs, hcnts, _, hmem⟩ := hcanon hc
    exact ⟨hregs, hcnts, rfl, hmem⟩
  · exact hhlt

theorem State.inBoot_coldReset (cause : Nat) (straps : Bool) (hc : s.Canon) : (s.coldReset cause straps).InBoot cause := by
  obtain ⟨u, low, heq, hcanon, -⟩ := s.coldReset_cases cause straps
  have hboot := State.inBoot_bootEntry cause low (hcanon hc)
  rw [heq]
  split
  · exact hboot.chgState 3
  · exact hboot

@[simp] theorem State.hlt_coldReset (s : State) (cause : Nat) (straps : Bool) :
    (s.coldReset cause straps).hlt = { s.hlt with hbArmed := false, due := false } := by
  obtain ⟨u, low, heq, -, hhlt⟩ := s.coldReset_cases cause straps
  rw [heq, ← hhlt]
  split <;> simp

/-! ### The heartbeat expiry -/

/-- The expiries of the last 60 min (R467). -/
def State.recentExpiries (s : State) : List Nat := s.hlt.storms.filter (fun a => decide (s.aon < a + 3600 * 32768))

/-- The state that a storm of expiries resets: the expiry counts as any other, and the list of them starts afresh. -/
def State.stormCounted (s : State) : State :=
  let s := (s.inc HLT_CNT_HB.w).noteFault
  { s with hlt := { s.hlt with storms := [] } }

theorem State.canon_stormCounted (hc : s.Canon) : s.stormCounted.Canon := State.canon_put _ _ hc

/-- The third expiry resets the system, whether or not the slot would reload. -/
theorem exec_martenHeartbeatTimeout_of_third (ok : Bool) (harmed : s.hlt.hbArmed = true) (hmarten : s.boot.marten = true)
    (hawake : s.mode.resting = false) (hthird : 2 ≤ s.recentExpiries.length) :
    exec (.martenHeartbeatTimeout ok) s = .next (s.stormCounted.systemReset 8) := by
  have hcheck : s.hlt.hbArmed ∧ s.boot.marten ∧ ¬ s.mode.resting := ⟨harmed, hmarten, by simp [hawake]⟩
  calc exec (.martenHeartbeatTimeout ok) s = execMartenHeartbeatTimeout ok s := rfl
    _ = .next (s.stormCounted.systemReset 8) := by
      rw [execMartenHeartbeatTimeout, if_pos hcheck]
      exact congrArg _ (if_pos hthird)

/-- An expiry leaves KTIME. -/
theorem ktime_martenHeartbeatTimeout {ok : Bool} (h : exec (.martenHeartbeatTimeout ok) s = .next t) : t.ktime = s.ktime :=
  ((execMartenHeartbeatTimeout_keeps ok s).of_next h).same (a := .ktime) (by decide)

/-- Settles O50: the expiry is `exec_martenHeartbeatTimeout_of_third`, its reset ends as `State.inBoot_coldReset` and
`State.hlt_coldReset` say. -/
theorem thirdHeartbeatExpiryResetsTheSystem : Obligations.ThirdHeartbeatExpiryResetsTheSystem := by
  unfold Obligations.ThirdHeartbeatExpiryResetsTheSystem
  rintro ok s hc ⟨harmed, hmarten, hawake, hthird⟩
  have hexec := exec_martenHeartbeatTimeout_of_third ok harmed hmarten hawake hthird
  have hboot : (s.stormCounted.systemReset 8).InBoot 8 := State.inBoot_coldReset 8 false (State.canon_stormCounted hc)
  have hstorms : (s.stormCounted.systemReset 8).hlt.storms = [] :=
    congrArg Hlt.storms (s.stormCounted.hlt_coldReset 8 false)
  exact ⟨_, hexec, hboot.cause_eq, hboot.cur, hboot.ready, hboot.marten, hboot.reload, hstorms,
    ktime_martenHeartbeatTimeout hexec⟩

end Sys2Proof.Machine
end

section
/-! PROOFS. What holds of every command and of every step: the command goes on, keeps the canonical form, the queue and the
ordering code, and leaves what its own law says. -/

namespace Sys2Proof.Machine

variable {s t : State}

/-- Every command answers a next state. -/
theorem exec_goesOn (c : Instr) (s : State) : ∃ t, exec c s = .next t := by
  cases c <;> exact ⟨_, rfl⟩

/-- Every command keeps the canonical form, the queue and the ordering code, and changes only what its own mask lists. -/
theorem exec_keeps (c : Instr) (s : State) : ∃ m, Ends (Keeps m s) (exec c s) := by
  cases c with
  | powerOnReset vbatMin => exact ⟨_, execPowerOnReset_keeps vbatMin s⟩
  | powerOnResetRelease => exact ⟨_, execPowerOnResetRelease_keeps s⟩
  | strapSample role test => exact ⟨_, execStrapSample_keeps role test s⟩
  | pinReset lowUs => exact ⟨_, execPinReset_keeps lowUs s⟩
  | vddioLoss => exact ⟨_, execVddioLoss_keeps s⟩
  | vddioReturn => exact ⟨_, execVddioReturn_keeps s⟩
  | vbatSample vbat vres chgUa sinkUa aonNa => exact ⟨_, execVbatSample_keeps vbat vres chgUa sinkUa aonNa s⟩
  | idleHoldStart => exact ⟨_, execIdleHoldStart_keeps s⟩
  | chargeTargetReached => exact ⟨_, execChargeTargetReached_keeps s⟩
  | startCondition => exact ⟨_, execStartCondition_keeps s⟩
  | preChargeStart => exact ⟨_, execPreChargeStart_keeps s⟩
  | preChargeRecompute => exact ⟨_, execPreChargeRecompute_keeps s⟩
  | depassGo f => exact ⟨_, execDepassGo_keeps f s⟩
  | depassAutoStart => exact ⟨_, execDepassAutoStart_keeps s⟩
  | depassDeferredStart => exact ⟨_, execDepassDeferredStart_keeps s⟩
  | depassPulseEnd vmin vend => exact ⟨_, execDepassPulseEnd_keeps vmin vend s⟩
  | depassEarlyEnd vmin vend ms => exact ⟨_, execDepassEarlyEnd_keeps vmin vend ms s⟩
  | passIdxMeasure rest now => exact ⟨_, execPassIdxMeasure_keeps rest now s⟩
  | ledgerCopy => exact ⟨_, execLedgerCopy_keeps s⟩
  | ledgerLoad f => exact ⟨_, execLedgerLoad_keeps f s⟩
  | estReset f => exact ⟨_, execEstReset_keeps f s⟩
  | capacitanceSample => exact ⟨_, execCapacitanceSample_keeps s⟩
  | leakageProbeStart => exact ⟨_, execLeakageProbeStart_keeps s⟩
  | leakageProbeEnd vres secs => exact ⟨_, execLeakageProbeEnd_keeps vres secs s⟩
  | burstOkLow => exact ⟨_, execBurstOkLow_keeps s⟩
  | burstOkHigh => exact ⟨_, execBurstOkHigh_keeps s⟩
  | reservoirBrownout => exact ⟨_, execReservoirBrownout_keeps s⟩
  | batSag => exact ⟨_, execBatSag_keeps s⟩
  | reservoirFault rise ms => exact ⟨_, execReservoirFault_keeps rise ms s⟩
  | x32Qualified => exact ⟨_, execX32Qualified_keeps s⟩
  | x32Fail => exact ⟨_, execX32Fail_keeps s⟩
  | x32MissingEdge => exact ⟨_, execX32MissingEdge_keeps s⟩
  | xoQualified us => exact ⟨_, execXoQualified_keeps us s⟩
  | xoFail => exact ⟨_, execXoFail_keeps s⟩
  | xoRetry => exact ⟨_, execXoRetry_keeps s⟩
  | pllLock hfrcErr => exact ⟨_, execPllLock_keeps hfrcErr s⟩
  | pllFail => exact ⟨_, execPllFail_keeps s⟩
  | registerWrite f off v => exact ⟨_, execRegisterWrite_keeps f off v s⟩
  | fnErrWrite f v => exact ⟨_, execFnErrWrite_keeps f v s⟩
  | modeCmdShutdown f => exact ⟨_, execModeCmdShutdown_keeps f s⟩
  | modeCmdRestNow f => exact ⟨_, execModeCmdRestNow_keeps f s⟩
  | restEntry => exact ⟨_, execRestEntry_keeps s⟩
  | restEntryReversed cause => exact ⟨_, execRestEntryReversed_keeps cause s⟩
  | slotWake => exact ⟨_, execSlotWake_keeps s⟩
  | spiWake => exact ⟨_, execSpiWake_keeps s⟩
  | hostResume lowUs => exact ⟨_, execHostResume_keeps lowUs s⟩
  | housekeepWake => exact ⟨_, execHousekeepWake_keeps s⟩
  | wakeReady supplyOk readOk => exact ⟨_, execWakeReady_keeps supplyOk readOk s⟩
  | delayedWakeStart => exact ⟨_, execDelayedWakeStart_keeps s⟩
  | remoteWakeAttempt reason lineHigh => exact ⟨_, execRemoteWakeAttempt_keeps reason lineHigh s⟩
  | remoteWakeSample lineHigh => exact ⟨_, execRemoteWakeSample_keeps lineHigh s⟩
  | remoteWakeRetry lineHigh => exact ⟨_, execRemoteWakeRetry_keeps lineHigh s⟩
  | wakeNStuck => exact ⟨_, execWakeNStuck_keeps s⟩
  | wakeNReleased => exact ⟨_, execWakeNReleased_keeps s⟩
  | coldBootStart burrowOk secretOk prefOk cfgOk calOk => exact ⟨_, execColdBootStart_keeps burrowOk secretOk prefOk cfgOk calOk s⟩
  | imageBlockArrives idx => exact ⟨_, execImageBlockArrives_keeps idx s⟩
  | signatureCheckDone => exact ⟨_, execSignatureCheckDone_keeps s⟩
  | martenRelease => exact ⟨_, execMartenRelease_keeps s⟩
  | hedgehogFault => exact ⟨_, execHedgehogFault_keeps s⟩
  | qspiTimeout => exact ⟨_, execQspiTimeout_keeps s⟩
  | pikaGo => exact ⟨_, execPikaGo_keeps s⟩
  | pikaRelease => exact ⟨_, execPikaRelease_keeps s⟩
  | pikaDeferredLoad readOk => exact ⟨_, execPikaDeferredLoad_keeps readOk s⟩
  | bundleApply readOk => exact ⟨_, execBundleApply_keeps readOk s⟩
  | identityKeyGenerate ok pub => exact ⟨_, execIdentityKeyGenerate_keeps ok pub s⟩
  | bootReady => exact ⟨_, execBootReady_keeps s⟩
  | hostLoadWait => exact ⟨_, execHostLoadWait_keeps s⟩
  | hostLoadRetry => exact ⟨_, execHostLoadRetry_keeps s⟩
  | martenHeartbeatTimeout reloadOk => exact ⟨_, execMartenHeartbeatTimeout_keeps reloadOk s⟩
  | sysWdog => exact ⟨_, execSysWdog_keeps s⟩
  | imgRevoke f v => exact ⟨_, execImgRevoke_keeps f v s⟩
  | fuseProgramDone ok => exact ⟨_, execFuseProgramDone_keeps ok s⟩
  | imgPrefWrite f v => exact ⟨_, execImgPrefWrite_keeps f v s⟩
  | imgStageCommit f => exact ⟨_, execImgStageCommit_keeps f s⟩
  | stagingSectorWritten ok => exact ⟨_, execStagingSectorWritten_keeps ok s⟩
  | stagingReadbackDone ok => exact ⟨_, execStagingReadbackDone_keeps ok s⟩
  | stagingPause => exact ⟨_, execStagingPause_keeps s⟩
  | stagingResume => exact ⟨_, execStagingResume_keeps s⟩
  | stagingJournalResume => exact ⟨_, execStagingJournalResume_keeps s⟩
  | autoStage stream obj => exact ⟨_, execAutoStage_keeps stream obj s⟩
  | hostLoadBegin f => exact ⟨_, execHostLoadBegin_keeps f s⟩
  | imageWindowWrite f w => exact ⟨_, execImageWindowWrite_keeps f w s⟩
  | imageWindowVerifyDone => exact ⟨_, execImageWindowVerifyDone_keeps s⟩
  | imageWindowIdle => exact ⟨_, execImageWindowIdle_keeps s⟩
  | spiWriteFrame cmd addr words bits fin => exact ⟨_, execSpiWriteFrame_keeps cmd addr words bits fin s⟩
  | spiWriteCrcFrame cmd addr words crc bits fin => exact ⟨_, execSpiWriteCrcFrame_keeps cmd addr words crc bits fin s⟩
  | spiReadFrame cmd addr late fell bits fin => exact ⟨_, execSpiReadFrame_keeps cmd addr late fell bits fin s⟩
  | spiReadCrcFrame cmd addr crc late fell bits fin => exact ⟨_, execSpiReadCrcFrame_keeps cmd addr crc late fell bits fin s⟩
  | spiNullFrame => exact ⟨_, execSpiNullFrame_keeps s⟩
  | spiIdleTimeout => exact ⟨_, execSpiIdleTimeout_keeps s⟩
  | hpCntClr f => exact ⟨_, execHpCntClr_keeps f s⟩
  | twWriteFrame a reg data fin => exact ⟨_, execTwWriteFrame_keeps a reg data fin s⟩
  | twWritePecFrame a reg data fin => exact ⟨_, execTwWritePecFrame_keeps a reg data fin s⟩
  | twPointerSet a reg fin => exact ⟨_, execTwPointerSet_keeps a reg fin s⟩
  | twReadFrame a reg bytes fin => exact ⟨_, execTwReadFrame_keeps a reg bytes fin s⟩
  | twStretchTimeout => exact ⟨_, execTwStretchTimeout_keeps s⟩
  | twWakeMatch a => exact ⟨_, execTwWakeMatch_keeps a s⟩
  | twWakeRelease => exact ⟨_, execTwWakeRelease_keeps s⟩
  | wakeStretch => exact ⟨_, execWakeStretch_keeps s⟩
  | twAddressConfigWrite f off v => exact ⟨_, execTwAddressConfigWrite_keeps f off v s⟩
  | attentionMessageForm f => exact ⟨_, execAttentionMessageForm_keeps f s⟩
  | attentionAttempt f e => exact ⟨_, execAttentionAttempt_keeps f e s⟩
  | attentionRepeat f => exact ⟨_, execAttentionRepeat_keeps f s⟩
  | attnFallback f => exact ⟨_, execAttnFallback_keeps f s⟩
  | attnAckWrite f v => exact ⟨_, execAttnAckWrite_keeps f v s⟩
  | arbLost f => exact ⟨_, execArbLost_keeps f s⟩
  | twArbSr f => exact ⟨_, execTwArbSr_keeps f s⟩
  | arbBackoffExpiry f => exact ⟨_, execArbBackoffExpiry_keeps f s⟩
  | twrstPulse lowUs => exact ⟨_, execTwrstPulse_keeps lowUs s⟩
  | stuckBus sda again => exact ⟨_, execStuckBus_keeps sda again s⟩
  | twBusReset f => exact ⟨_, execTwBusReset_keeps f s⟩
  | twCntClr f => exact ⟨_, execTwCntClr_keeps f s⟩
  | fnReset f v => exact ⟨_, execFnReset_keeps f v s⟩
  | freset f v => exact ⟨_, execFreset_keeps f v s⟩
  | fnResetDone f => exact ⟨_, execFnResetDone_keeps f s⟩
  | partLock f v => exact ⟨_, execPartLock_keeps f v s⟩
  | partDqWrite f v => exact ⟨_, execPartDqWrite_keeps f v s⟩
  | cmdGo f v => exact ⟨_, execCmdGo_keeps f v s⟩
  | cmdDone f => exact ⟨_, execCmdDone_keeps f s⟩
  | opTimeout f => exact ⟨_, execOpTimeout_keeps f s⟩
  | nop f => exact ⟨_, execNop_keeps f s⟩
  | dqDataRead f => exact ⟨_, execDqDataRead_keeps f s⟩
  | dqFlush f => exact ⟨_, execDqFlush_keeps f s⟩
  | memAddrWrite f v => exact ⟨_, execMemAddrWrite_keeps f v s⟩
  | memDataAccess f w qspiTo => exact ⟨_, execMemDataAccess_keeps f w qspiTo s⟩
  | planBegin f => exact ⟨_, execPlanBegin_keeps f s⟩
  | wrec15Write f v => exact ⟨_, execWrec15Write_keeps f v s⟩
  | planWidxWrite f v => exact ⟨_, execPlanWidxWrite_keeps f v s⟩
  | planSubmit f => exact ⟨_, execPlanSubmit_keeps f s⟩
  | planWithdraw f => exact ⟨_, execPlanWithdraw_keeps f s⟩
  | admissionDone => exact ⟨_, execAdmissionDone_keeps s⟩
  | planSnapshotWrite => exact ⟨_, execPlanSnapshotWrite_keeps s⟩
  | readmission => exact ⟨_, execReadmission_keeps s⟩
  | dayStart => exact ⟨_, execDayStart_keeps s⟩
  | slotStart f idx => exact ⟨_, execSlotStart_keeps f idx s⟩
  | slotEnd f idx => exact ⟨_, execSlotEnd_keeps f idx s⟩
  | listenStart f => exact ⟨_, execListenStart_keeps f s⟩
  | listenStop f => exact ⟨_, execListenStop_keeps f s⟩
  | listenMaxDuration f => exact ⟨_, execListenMaxDuration_keeps f s⟩
  | listenResumed f => exact ⟨_, execListenResumed_keeps f s⟩
  | tuneJobStart temp => exact ⟨_, execTuneJobStart_keeps temp s⟩
  | tuneLock vtune => exact ⟨_, execTuneLock_keeps vtune s⟩
  | tuneLockTimeout band => exact ⟨_, execTuneLockTimeout_keeps band s⟩
  | agcSettled rssi lna ifGain lfGain => exact ⟨_, execAgcSettled_keeps rssi lna ifGain lfGain s⟩
  | lossOfLock => exact ⟨_, execLossOfLock_keeps s⟩
  | listenJobRetry => exact ⟨_, execListenJobRetry_keeps s⟩
  | fesAfGo f => exact ⟨_, execFesAfGo_keeps f s⟩
  | afCheck rssi us => exact ⟨_, execAfCheck_keeps rssi us s⟩
  | synApply f => exact ⟨_, execSynApply_keeps f s⟩
  | rawFesWrite f off v => exact ⟨_, execRawFesWrite_keeps f off v s⟩
  | rawHold f v => exact ⟨_, execRawHold_keeps f v s⟩
  | rawHoldClear f => exact ⟨_, execRawHoldClear_keeps f s⟩
  | calRun f => exact ⟨_, execCalRun_keeps f s⟩
  | calDone good margin ms temp bands => exact ⟨_, execCalDone_keeps good margin ms temp bands s⟩
  | autoPend => exact ⟨_, execAutoPend_keeps s⟩
  | autoCalStart => exact ⟨_, execAutoCalStart_keeps s⟩
  | floodUnknownTimeout => exact ⟨_, execFloodUnknownTimeout_keeps s⟩
  | relearn f => exact ⟨_, execRelearn_keeps f s⟩
  | rfSurvey f idx => exact ⟨_, execRfSurvey_keeps f idx s⟩
  | rdsSyncAcquired pilot => exact ⟨_, execRdsSyncAcquired_keeps pilot s⟩
  | rdsSyncLost => exact ⟨_, execRdsSyncLost_keeps s⟩
  | rdsBlock pos bits data => exact ⟨_, execRdsBlock_keeps pos bits data s⟩
  | rdsGroup at_ => exact ⟨_, execRdsGroup_keeps at_ s⟩
  | afListComplete => exact ⟨_, execAfListComplete_keeps s⟩
  | afSearch cause rssis => exact ⟨_, execAfSearch_keeps cause rssis s⟩
  | afSwitch us => exact ⟨_, execAfSwitch_keeps us s⟩
  | afReturn => exact ⟨_, execAfReturn_keeps s⟩
  | afPeriodicCheck rssi => exact ⟨_, execAfPeriodicCheck_keeps rssi s⟩
  | afRecall => exact ⟨_, execAfRecall_keeps s⟩
  | dabSync => exact ⟨_, execDabSync_keeps s⟩
  | dabSyncLost => exact ⟨_, execDabSyncLost_keeps s⟩
  | dabFib at_ crcOk bytes => exact ⟨_, execDabFib_keeps at_ crcOk bytes s⟩
  | dabReconfiguration => exact ⟨_, execDabReconfiguration_keeps s⟩
  | dabPacket crcOk bytes => exact ⟨_, execDabPacket_keeps crcOk bytes s⟩
  | dabAfSearch cause rssis => exact ⟨_, execDabAfSearch_keeps cause rssis s⟩
  | dabAfSwitch ms => exact ⟨_, execDabAfSwitch_keeps ms s⟩
  | dabAfReturn => exact ⟨_, execDabAfReturn_keeps s⟩
  | dabFreqMeasure err sd => exact ⟨_, execDabFreqMeasure_keeps err sd s⟩
  | dabPikaTimeout => exact ⟨_, execDabPikaTimeout_keeps s⟩
  | lfMarker edge durUs => exact ⟨_, execLfMarker_keeps edge durUs s⟩
  | lfSecsyncLost => exact ⟨_, execLfSecsyncLost_keeps s⟩
  | lfFrame => exact ⟨_, execLfFrame_keeps s⟩
  | lfCarrierMeasure err sd => exact ⟨_, execLfCarrierMeasure_keeps err sd s⟩
  | lfCarrierChange db => exact ⟨_, execLfCarrierChange_keeps db s⟩
  | lftTplSelWrite f v => exact ⟨_, execLftTplSelWrite_keeps f v s⟩
  | lftTplCommit f => exact ⟨_, execLftTplCommit_keeps f s⟩
  | lftTplClear f => exact ⟨_, execLftTplClear_keeps f s⟩
  | timeCandidateApply => exact ⟨_, execTimeCandidateApply_keeps s⟩
  | slewEnd => exact ⟨_, execSlewEnd_keeps s⟩
  | timeDeferredApply => exact ⟨_, execTimeDeferredApply_keeps s⟩
  | timeSet f => exact ⟨_, execTimeSet_keeps f s⟩
  | aonTempSample temp => exact ⟨_, execAonTempSample_keeps temp s⟩
  | x32PairWindow relErr moved => exact ⟨_, execX32PairWindow_keeps relErr moved s⟩
  | leapApplied => exact ⟨_, execLeapApplied_keeps s⟩
  | leapClr f => exact ⟨_, execLeapClr_keeps f s⟩
  | modelReset f => exact ⟨_, execModelReset_keeps f s⟩
  | timePulse => exact ⟨_, execTimePulse_keeps s⟩
  | timeLoss => exact ⟨_, execTimeLoss_keeps s⟩
  | timeLossThrWrite f v => exact ⟨_, execTimeLossThrWrite_keeps f v s⟩
  | rdsSegmentTimeout => exact ⟨_, execRdsSegmentTimeout_keeps s⟩
  | blockComplete stream obj blk pikaOk => exact ⟨_, execBlockComplete_keeps stream obj blk pikaOk s⟩
  | decodeRetry stream obj blk pikaOk => exact ⟨_, execDecodeRetry_keeps stream obj blk pikaOk s⟩
  | objectAcceptance stream obj => exact ⟨_, execObjectAcceptance_keeps stream obj s⟩
  | vanWindowStart => exact ⟨_, execVanWindowStart_keeps s⟩
  | edfSegmentStat => exact ⟨_, execEdfSegmentStat_keeps s⟩
  | hoardFlush => exact ⟨_, execHoardFlush_keeps s⟩
  | hoardCompact => exact ⟨_, execHoardCompact_keeps s⟩
  | objectExpiry stream obj => exact ⟨_, execObjectExpiry_keeps stream obj s⟩
  | wearLevelMove => exact ⟨_, execWearLevelMove_keeps s⟩
  | hoardQueryStatus f => exact ⟨_, execHoardQueryStatus_keeps f s⟩
  | hoardQueryRelease f => exact ⟨_, execHoardQueryRelease_keeps f s⟩
  | hoardQueryList f => exact ⟨_, execHoardQueryList_keeps f s⟩
  | hoardQueryUsage f => exact ⟨_, execHoardQueryUsage_keeps f s⟩
  | verifyObject f => exact ⟨_, execVerifyObject_keeps f s⟩
  | edfErase f => exact ⟨_, execEdfErase_keeps f s⟩
  | vanClr f => exact ⟨_, execVanClr_keeps f s⟩
  | edfFlush f => exact ⟨_, execEdfFlush_keeps f s⟩
  | apArmWrite f port v => exact ⟨_, execApArmWrite_keeps f port v s⟩
  | apPortStart port => exact ⟨_, execApPortStart_keeps port s⟩
  | apTxFrameEdge port => exact ⟨_, execApTxFrameEdge_keeps port s⟩
  | apRxFrameEdge port slots => exact ⟨_, execApRxFrameEdge_keeps port slots s⟩
  | apHardLoss port receive samples => exact ⟨_, execApHardLoss_keeps port receive samples s⟩
  | ap0WptrWrite f v => exact ⟨_, execAp0WptrWrite_keeps f v s⟩
  | ringRst f port => exact ⟨_, execRingRst_keeps f port s⟩
  | apPortStop port => exact ⟨_, execApPortStop_keeps port s⟩
  | bphLock apart violation => exact ⟨_, execBphLock_keeps apart violation s⟩
  | bphLockLost missing violated => exact ⟨_, execBphLockLost_keeps missing violated s⟩
  | bphSubframe pre word valid user status parityOk => exact ⟨_, execBphSubframe_keeps pre word valid user status parityOk s⟩
  | bphBlockEnd => exact ⟨_, execBphBlockEnd_keeps s⟩
  | bphRateMeasure mHz => exact ⟨_, execBphRateMeasure_keeps mHz s⟩
  | bphOutFrame => exact ⟨_, execBphOutFrame_keeps s⟩
  | captureStart => exact ⟨_, execCaptureStart_keeps s⟩
  | captureBlockWrite => exact ⟨_, execCaptureBlockWrite_keeps s⟩
  | captRelWrite f v => exact ⟨_, execCaptRelWrite_keeps f v s⟩
  | captureEnd => exact ⟨_, execCaptureEnd_keeps s⟩
  | stats pikaOk => exact ⟨_, execStats_keeps pikaOk s⟩
  | snippet => exact ⟨_, execSnippet_keeps s⟩
  | spill => exact ⟨_, execSpill_keeps s⟩
  | spillDel f => exact ⟨_, execSpillDel_keeps f s⟩
  | captureNow f => exact ⟨_, execCaptureNow_keeps f s⟩
  | twinEnWrite f v => exact ⟨_, execTwinEnWrite_keeps f v s⟩
  | undecidedTimeout => exact ⟨_, execUndecidedTimeout_keeps s⟩
  | heartbeatEmit => exact ⟨_, execHeartbeatEmit_keeps s⟩
  | twinHbPulse lowUs => exact ⟨_, execTwinHbPulse_keeps lowUs s⟩
  | hbStuck => exact ⟨_, execHbStuck_keeps s⟩
  | takeoverDue => exact ⟨_, execTakeoverDue_keeps s⟩
  | claim lineLow => exact ⟨_, execClaim_keeps lineLow s⟩
  | claimingEnd => exact ⟨_, execClaimingEnd_keeps s⟩
  | checkpointBuild wakeAck => exact ⟨_, execCheckpointBuild_keeps wakeAck s⟩
  | ckptNow f => exact ⟨_, execCkptNow_keeps f s⟩
  | chunkSend ack => exact ⟨_, execChunkSend_keeps ack s⟩
  | twinFrameReceived bytes pec => exact ⟨_, execTwinFrameReceived_keeps bytes pec s⟩
  | partialSetTimeout => exact ⟨_, execPartialSetTimeout_keeps s⟩
  | checkpointConfigCopy => exact ⟨_, execCheckpointConfigCopy_keeps s⟩
  | twinSwap f => exact ⟨_, execTwinSwap_keeps f s⟩
  | swapFailed => exact ⟨_, execSwapFailed_keeps s⟩
  | standbySelftest mask => exact ⟨_, execStandbySelftest_keeps mask s⟩
  | healthSample => exact ⟨_, execHealthSample_keeps s⟩
  | sampleNow f => exact ⟨_, execSampleNow_keeps f s⟩
  | replaceClr f => exact ⟨_, execReplaceClr_keeps f s⟩
  | svcStart f => exact ⟨_, execSvcStart_keeps f s⟩
  | healthReport f sig => exact ⟨_, execHealthReport_keeps f sig s⟩
  | selftest f mask ms => exact ⟨_, execSelftest_keeps f mask ms s⟩
  | signRecord f => exact ⟨_, execSignRecord_keeps f s⟩
  | busDeadRelease => exact ⟨_, execBusDeadRelease_keeps s⟩
  | baselineEntryDrop kfc => exact ⟨_, execBaselineEntryDrop_keeps kfc s⟩
  | afBanEnd code => exact ⟨_, execAfBanEnd_keeps code s⟩
  | dabAfBanEnd freq => exact ⟨_, execDabAfBanEnd_keeps freq s⟩
  | dabAfPeriodicCheck rssi => exact ⟨_, execDabAfPeriodicCheck_keeps rssi s⟩
  | dabAfRecall => exact ⟨_, execDabAfRecall_keeps s⟩
  | doneListExpiry stream obj => exact ⟨_, execDoneListExpiry_keeps stream obj s⟩
/-- Settles O34: the command goes on by `exec_goesOn`, and keeps what `exec_keeps` says. -/
theorem everyCommandGoesOn : Obligations.EveryCommandGoesOn := by
  unfold Obligations.EveryCommandGoesOn
  intro c s
  obtain ⟨t, ht⟩ := exec_goesOn c s
  obtain ⟨m, hm⟩ := exec_keeps c s
  obtain ⟨_, hvariant, hpending, _⟩ := hm.of_next ht
  exact ⟨t, ht, hpending, hvariant⟩

/-- Settles O30: `step` is `exec` of the first waiting command. -/
theorem stepRunsTheFrontCommand : Obligations.StepRunsTheFrontCommand := by
  unfold Obligations.StepRunsTheFrontCommand
  intro c l s h
  rw [step, h]

/-- Settles O32: a map that lists nothing is canonical. -/
theorem resetIsCanonical : Obligations.ResetIsCanonical := by
  unfold Obligations.ResetIsCanonical
  exact ⟨rfl, rfl, rfl, rfl⟩

theorem step_of_idle (h : s.pending = []) : step s = .next s.idle := by
  rw [step, h]

/-- Settles O40: a command by `exec_keeps`, a step with none waiting by `State.idle_keeps`. -/
theorem stepKeepsCanonical : Obligations.StepKeepsCanonical := by
  unfold Obligations.StepKeepsCanonical
  intro s t hc hstep
  cases hp : s.pending with
  | nil =>
    rw [step_of_idle hp] at hstep
    obtain rfl : s.idle = t := Host.Outcome.next.inj hstep
    exact (s.idle_keeps .refl (within?_self _)).canon hc
  | cons c l =>
    rw [stepRunsTheFrontCommand c l s hp] at hstep
    obtain ⟨m, hm⟩ := exec_keeps c { s with pending := l }
    exact (hm.of_next hstep).canon hc

end Sys2Proof.Machine
end

section
/-! PROOFS. The frames of the commands: what each leaves, from the mask of its own law. -/

namespace Sys2Proof.Machine

open R

/-- A mask fits a frame: the lists name areas that exist, and have every bit of the mask. -/
def fits (m : Nat) (l : List (List Area)) : Bool := l.flatten.all Area.ok && within? m (areasMask l.flatten)

/-- A command whose law has a mask that fits a frame has the frame. -/
theorem within_of_mask {c : Instr} {l : List (List Area)} {m : Nat} (hk : ∀ s, Ends (Keeps m s) (exec c s))
    (hfits : fits m l = true) : Within c l := by
  obtain ⟨hok, hmask⟩ := Bool.and_eq_true_iff.mp hfits
  exact within_of hok hmask (exec_goesOn c) hk

/-- Settles O54: each frame is the command's own law, read as a list of areas by `within_of_mask`. -/
theorem powerClockAndModeCommandsLeaveTheRest : Obligations.PowerClockAndModeCommandsLeaveTheRest := by
  unfold Obligations.PowerClockAndModeCommandsLeaveTheRest
  refine ⟨within_of_mask execPowerOnResetRelease_keeps (by decide +kernel),
    fun _ _ => within_of_mask (execStrapSample_keeps _ _) (by decide +kernel),
    fun _ => within_of_mask (execPinReset_keeps _) (by decide +kernel),
    within_of_mask execVddioReturn_keeps (by decide +kernel),
    fun _ _ _ _ _ => within_of_mask (execVbatSample_keeps _ _ _ _ _) (by decide +kernel),
    within_of_mask execIdleHoldStart_keeps (by decide +kernel),
    within_of_mask execChargeTargetReached_keeps (by decide +kernel),
    within_of_mask execStartCondition_keeps (by decide +kernel),
    within_of_mask execPreChargeStart_keeps (by decide +kernel),
    within_of_mask execPreChargeRecompute_keeps (by decide +kernel),
    fun _ => within_of_mask (execDepassGo_within _) (by decide +kernel),
    within_of_mask execDepassAutoStart_keeps (by decide +kernel),
    within_of_mask execDepassDeferredStart_keeps (by decide +kernel),
    fun _ _ => within_of_mask (execDepassPulseEnd_keeps _ _) (by decide +kernel),
    fun _ _ _ => within_of_mask (execDepassEarlyEnd_keeps _ _ _) (by decide +kernel),
    fun _ _ => within_of_mask (execPassIdxMeasure_keeps _ _) (by decide +kernel),
    within_of_mask execLedgerCopy_keeps (by decide +kernel),
    fun _ => within_of_mask (execLedgerLoad_within _) (by decide +kernel),
    fun _ => within_of_mask (execEstReset_within _) (by decide +kernel),
    within_of_mask execCapacitanceSample_keeps (by decide +kernel),
    within_of_mask execLeakageProbeStart_keeps (by decide +kernel),
    fun _ _ => within_of_mask (execLeakageProbeEnd_keeps _ _) (by decide +kernel),
    within_of_mask execBurstOkLow_keeps (by decide +kernel),
    within_of_mask execBurstOkHigh_keeps (by decide +kernel),
    within_of_mask execReservoirBrownout_keeps (by decide +kernel),
    within_of_mask execBatSag_keeps (by decide +kernel),
    fun _ _ => within_of_mask (execReservoirFault_keeps _ _) (by decide +kernel),
    within_of_mask execX32Qualified_keeps (by decide +kernel),
    within_of_mask execX32Fail_keeps (by decide +kernel),
    within_of_mask execX32MissingEdge_keeps (by decide +kernel),
    fun _ => within_of_mask (execXoQualified_keeps _) (by decide +kernel),
    within_of_mask execXoFail_keeps (by decide +kernel),
    within_of_mask execXoRetry_keeps (by decide +kernel),
    fun _ => within_of_mask (execPllLock_keeps _) (by decide +kernel),
    within_of_mask execPllFail_keeps (by decide +kernel)⟩

/-- Settles O55: each frame is the command's own law, read as a list of areas by `within_of_mask`. -/
theorem startupImageAndHostPortCommandsLeaveTheRest : Obligations.StartupImageAndHostPortCommandsLeaveTheRest := by
  unfold Obligations.StartupImageAndHostPortCommandsLeaveTheRest
  refine ⟨fun _ => within_of_mask (execModeCmdRestNow_within _) (by decide +kernel),
    within_of_mask execRestEntry_keeps (by decide +kernel),
    fun _ => within_of_mask (execRestEntryReversed_keeps _) (by decide +kernel),
    within_of_mask execSlotWake_keeps (by decide +kernel),
    within_of_mask execSpiWake_keeps (by decide +kernel),
    fun _ => within_of_mask (execHostResume_keeps _) (by decide +kernel),
    within_of_mask execHousekeepWake_keeps (by decide +kernel),
    fun _ _ => within_of_mask (execWakeReady_keeps _ _) (by decide +kernel),
    within_of_mask execDelayedWakeStart_keeps (by decide +kernel),
    fun _ _ => within_of_mask (execRemoteWakeAttempt_keeps _ _) (by decide +kernel),
    fun _ => within_of_mask (execRemoteWakeSample_keeps _) (by decide +kernel),
    fun _ => within_of_mask (execRemoteWakeRetry_keeps _) (by decide +kernel),
    within_of_mask execWakeNStuck_keeps (by decide +kernel),
    within_of_mask execWakeNReleased_keeps (by decide +kernel),
    fun _ _ _ _ _ => within_of_mask (execColdBootStart_keeps _ _ _ _ _) (by decide +kernel),
    fun _ => within_of_mask (execImageBlockArrives_keeps _) (by decide +kernel),
    within_of_mask execSignatureCheckDone_keeps (by decide +kernel),
    within_of_mask execMartenRelease_keeps (by decide +kernel),
    within_of_mask execHedgehogFault_keeps (by decide +kernel),
    within_of_mask execQspiTimeout_keeps (by decide +kernel),
    within_of_mask execPikaGo_keeps (by decide +kernel),
    within_of_mask execPikaRelease_keeps (by decide +kernel),
    fun _ => within_of_mask (execPikaDeferredLoad_keeps _) (by decide +kernel),
    fun _ _ => within_of_mask (execIdentityKeyGenerate_keeps _ _) (by decide +kernel),
    within_of_mask execBootReady_keeps (by decide +kernel),
    within_of_mask execHostLoadWait_keeps (by decide +kernel),
    within_of_mask execHostLoadRetry_keeps (by decide +kernel),
    fun _ _ => within_of_mask (execImgRevoke_within _ _) (by decide +kernel),
    fun _ => within_of_mask (execFuseProgramDone_keeps _) (by decide +kernel),
    fun _ _ => within_of_mask (execImgPrefWrite_within _ _) (by decide +kernel),
    fun _ => within_of_mask (execImgStageCommit_keeps _) (by decide +kernel),
    fun _ => within_of_mask (execStagingSectorWritten_keeps _) (by decide +kernel),
    fun _ => within_of_mask (execStagingReadbackDone_keeps _) (by decide +kernel),
    within_of_mask execStagingPause_keeps (by decide +kernel),
    within_of_mask execStagingResume_keeps (by decide +kernel),
    within_of_mask execStagingJournalResume_keeps (by decide +kernel),
    fun _ _ => within_of_mask (execAutoStage_keeps _ _) (by decide +kernel),
    fun _ => within_of_mask (execHostLoadBegin_keeps _) (by decide +kernel),
    fun _ _ => within_of_mask (execImageWindowWrite_within _ _) (by decide +kernel),
    within_of_mask execImageWindowVerifyDone_keeps (by decide +kernel),
    within_of_mask execImageWindowIdle_keeps (by decide +kernel),
    fun _ _ _ _ _ _ => within_of_mask (execSpiReadFrame_keeps _ _ _ _ _ _) (by decide +kernel),
    fun _ _ _ _ _ _ _ => within_of_mask (execSpiReadCrcFrame_keeps _ _ _ _ _ _ _) (by decide +kernel),
    within_of_mask execSpiNullFrame_keeps (by decide +kernel),
    fun _ => within_of_mask (execHpCntClr_within _) (by decide +kernel),
    fun _ _ _ _ => within_of_mask (execTwReadFrame_keeps _ _ _ _) (by decide +kernel),
    within_of_mask execTwStretchTimeout_keeps (by decide +kernel),
    fun _ => within_of_mask (execTwWakeMatch_keeps _) (by decide +kernel),
    within_of_mask execTwWakeRelease_keeps (by decide +kernel),
    within_of_mask execWakeStretch_keeps (by decide +kernel),
    fun _ _ _ => within_of_mask (execTwAddressConfigWrite_within _ _ _) (by decide +kernel),
    fun _ => within_of_mask (execAttentionMessageForm_keeps _) (by decide +kernel),
    fun _ _ => within_of_mask (execAttentionAttempt_keeps _ _) (by decide +kernel),
    fun _ => within_of_mask (execAttentionRepeat_keeps _) (by decide +kernel),
    fun _ => within_of_mask (execAttnFallback_keeps _) (by decide +kernel),
    fun _ _ => within_of_mask (execAttnAckWrite_within _ _) (by decide +kernel),
    fun _ => within_of_mask (execArbLost_keeps _) (by decide +kernel),
    fun _ => within_of_mask (execTwArbSr_keeps _) (by decide +kernel),
    fun _ => within_of_mask (execArbBackoffExpiry_keeps _) (by decide +kernel),
    fun _ => within_of_mask (execTwrstPulse_keeps _) (by decide +kernel),
    fun _ _ => within_of_mask (execStuckBus_keeps _ _) (by decide +kernel),
    fun _ => within_of_mask (execTwBusReset_within _) (by decide +kernel),
    fun _ => within_of_mask (execTwCntClr_within _) (by decide +kernel),
    fun _ _ => within_of_mask (execSlotEnd_keeps _ _) (by decide +kernel),
    fun _ => within_of_mask (execSignRecord_keeps _) (by decide +kernel),
    within_of_mask execBusDeadRelease_keeps (by decide +kernel)⟩

/-- Settles O56: each frame is the command's own law, read as a list of areas by `within_of_mask`. -/
theorem mailboxPartitionAndPlanCommandsLeaveTheRest : Obligations.MailboxPartitionAndPlanCommandsLeaveTheRest := by
  unfold Obligations.MailboxPartitionAndPlanCommandsLeaveTheRest
  refine ⟨fun _ _ => within_of_mask (execFnErrWrite_within _ _) (by decide +kernel),
    fun _ _ => within_of_mask (execFnReset_within _ _) (by decide +kernel),
    fun _ _ => within_of_mask (execFreset_within _ _) (by decide +kernel),
    fun _ => within_of_mask (execFnResetDone_keeps _) (by decide +kernel),
    fun _ _ => within_of_mask (execPartLock_within _ _) (by decide +kernel),
    fun _ _ => within_of_mask (execPartDqWrite_within _ _) (by decide +kernel),
    fun _ _ => within_of_mask (execCmdGo_within _ _) (by decide +kernel),
    fun _ => within_of_mask (execCmdDone_keeps _) (by decide +kernel),
    fun _ => within_of_mask (execOpTimeout_keeps _) (by decide +kernel),
    fun _ => within_of_mask (execNop_keeps _) (by decide +kernel),
    fun _ => within_of_mask (execDqDataRead_keeps _) (by decide +kernel),
    fun _ => within_of_mask (execDqFlush_within _) (by decide +kernel),
    fun _ _ => within_of_mask (execMemAddrWrite_within _ _) (by decide +kernel),
    fun _ _ _ => within_of_mask (execMemDataAccess_within _ _ _) (by decide +kernel),
    fun _ => within_of_mask (execPlanBegin_within _) (by decide +kernel),
    fun _ _ => within_of_mask (execWrec15Write_within _ _) (by decide +kernel),
    fun _ _ => within_of_mask (execPlanWidxWrite_within _ _) (by decide +kernel),
    fun _ => within_of_mask (execPlanSubmit_within _) (by decide +kernel),
    fun _ => within_of_mask (execPlanWithdraw_within _) (by decide +kernel),
    within_of_mask execAdmissionDone_keeps (by decide +kernel),
    within_of_mask execPlanSnapshotWrite_keeps (by decide +kernel),
    within_of_mask execReadmission_keeps (by decide +kernel),
    within_of_mask execDayStart_keeps (by decide +kernel),
    fun _ _ => within_of_mask (execSlotStart_keeps _ _) (by decide +kernel),
    fun _ => within_of_mask (execListenStart_keeps _) (by decide +kernel),
    fun _ => within_of_mask (execListenStop_keeps _) (by decide +kernel),
    fun _ => within_of_mask (execListenMaxDuration_keeps _) (by decide +kernel),
    fun _ => within_of_mask (execListenResumed_keeps _) (by decide +kernel)⟩

/-- Settles O57: each frame is the command's own law, read as a list of areas by `within_of_mask`. -/
theorem radioCommandsLeaveTheRest : Obligations.RadioCommandsLeaveTheRest := by
  unfold Obligations.RadioCommandsLeaveTheRest
  refine ⟨fun _ => within_of_mask (execTuneJobStart_keeps _) (by decide +kernel),
    fun _ => within_of_mask (execTuneLock_keeps _) (by decide +kernel),
    fun _ => within_of_mask (execTuneLockTimeout_keeps _) (by decide +kernel),
    fun _ _ _ _ => within_of_mask (execAgcSettled_keeps _ _ _ _) (by decide +kernel),
    within_of_mask execLossOfLock_keeps (by decide +kernel),
    within_of_mask execListenJobRetry_keeps (by decide +kernel),
    fun _ => within_of_mask (execFesAfGo_within _) (by decide +kernel),
    fun _ _ => within_of_mask (execAfCheck_keeps _ _) (by decide +kernel),
    fun _ => within_of_mask (execSynApply_within _) (by decide +kernel),
    fun _ _ _ => within_of_mask (execRawFesWrite_within _ _ _) (by decide +kernel),
    fun _ _ => within_of_mask (execRawHold_within _ _) (by decide +kernel),
    fun _ => within_of_mask (execRawHoldClear_within _) (by decide +kernel),
    fun _ => within_of_mask (execCalRun_keeps _) (by decide +kernel),
    fun _ _ _ _ _ => within_of_mask (execCalDone_keeps _ _ _ _ _) (by decide +kernel),
    within_of_mask execAutoPend_keeps (by decide +kernel),
    within_of_mask execAutoCalStart_keeps (by decide +kernel),
    within_of_mask execFloodUnknownTimeout_keeps (by decide +kernel),
    fun _ => within_of_mask (execRelearn_within _) (by decide +kernel),
    fun _ _ => within_of_mask (execRfSurvey_keeps _ _) (by decide +kernel),
    fun _ => within_of_mask (execRdsSyncAcquired_keeps _) (by decide +kernel),
    within_of_mask execRdsSyncLost_keeps (by decide +kernel),
    fun _ _ _ => within_of_mask (execRdsBlock_keeps _ _ _) (by decide +kernel),
    fun _ => within_of_mask (execRdsGroup_keeps _) (by decide +kernel),
    within_of_mask execAfListComplete_keeps (by decide +kernel),
    fun _ _ => within_of_mask (execAfSearch_keeps _ _) (by decide +kernel),
    fun _ => within_of_mask (execAfSwitch_keeps _) (by decide +kernel),
    within_of_mask execAfReturn_keeps (by decide +kernel),
    fun _ => within_of_mask (execAfPeriodicCheck_keeps _) (by decide +kernel),
    within_of_mask execAfRecall_keeps (by decide +kernel),
    within_of_mask execDabSync_keeps (by decide +kernel),
    within_of_mask execDabSyncLost_keeps (by decide +kernel),
    fun _ _ _ => within_of_mask (execDabFib_keeps _ _ _) (by decide +kernel),
    within_of_mask execDabReconfiguration_keeps (by decide +kernel),
    fun _ _ => within_of_mask (execDabPacket_keeps _ _) (by decide +kernel),
    fun _ _ => within_of_mask (execDabAfSearch_keeps _ _) (by decide +kernel),
    fun _ => within_of_mask (execDabAfSwitch_keeps _) (by decide +kernel),
    within_of_mask execDabAfReturn_keeps (by decide +kernel),
    fun _ _ => within_of_mask (execDabFreqMeasure_keeps _ _) (by decide +kernel),
    within_of_mask execDabPikaTimeout_keeps (by decide +kernel),
    fun _ _ => within_of_mask (execLfMarker_keeps _ _) (by decide +kernel),
    within_of_mask execLfSecsyncLost_keeps (by decide +kernel),
    within_of_mask execLfFrame_keeps (by decide +kernel),
    fun _ _ => within_of_mask (execLfCarrierMeasure_keeps _ _) (by decide +kernel),
    fun _ => within_of_mask (execLfCarrierChange_keeps _) (by decide +kernel),
    fun _ _ => within_of_mask (execLftTplSelWrite_within _ _) (by decide +kernel),
    fun _ => within_of_mask (execLftTplCommit_within _) (by decide +kernel),
    fun _ => within_of_mask (execLftTplClear_within _) (by decide +kernel),
    fun _ => within_of_mask (execBaselineEntryDrop_keeps _) (by decide +kernel),
    fun _ => within_of_mask (execAfBanEnd_keeps _) (by decide +kernel),
    fun _ => within_of_mask (execDabAfBanEnd_keeps _) (by decide +kernel),
    fun _ => within_of_mask (execDabAfPeriodicCheck_keeps _) (by decide +kernel),
    within_of_mask execDabAfRecall_keeps (by decide +kernel)⟩

/-- Settles O58: each frame is the command's own law, read as a list of areas by `within_of_mask`. -/
theorem timebaseAndDatacastCommandsLeaveTheRest : Obligations.TimebaseAndDatacastCommandsLeaveTheRest := by
  unfold Obligations.TimebaseAndDatacastCommandsLeaveTheRest
  refine ⟨within_of_mask execTimeCandidateApply_keeps (by decide +kernel),
    within_of_mask execSlewEnd_keeps (by decide +kernel),
    within_of_mask execTimeDeferredApply_keeps (by decide +kernel),
    fun _ => within_of_mask (execTimeSet_keeps _) (by decide +kernel),
    fun _ => within_of_mask (execAonTempSample_keeps _) (by decide +kernel),
    fun _ _ => within_of_mask (execX32PairWindow_keeps _ _) (by decide +kernel),
    within_of_mask execLeapApplied_keeps (by decide +kernel),
    fun _ => within_of_mask (execLeapClr_within _) (by decide +kernel),
    fun _ => within_of_mask (execModelReset_within _) (by decide +kernel),
    within_of_mask execTimePulse_keeps (by decide +kernel),
    within_of_mask execTimeLoss_keeps (by decide +kernel),
    fun _ _ => within_of_mask (execTimeLossThrWrite_within _ _) (by decide +kernel),
    within_of_mask execRdsSegmentTimeout_keeps (by decide +kernel),
    fun _ _ _ _ => within_of_mask (execBlockComplete_keeps _ _ _ _) (by decide +kernel),
    fun _ _ _ _ => within_of_mask (execDecodeRetry_keeps _ _ _ _) (by decide +kernel),
    fun _ _ => within_of_mask (execObjectAcceptance_keeps _ _) (by decide +kernel),
    within_of_mask execVanWindowStart_keeps (by decide +kernel),
    within_of_mask execEdfSegmentStat_keeps (by decide +kernel),
    within_of_mask execHoardFlush_keeps (by decide +kernel),
    within_of_mask execHoardCompact_keeps (by decide +kernel),
    fun _ _ => within_of_mask (execObjectExpiry_keeps _ _) (by decide +kernel),
    within_of_mask execWearLevelMove_keeps (by decide +kernel),
    fun _ => within_of_mask (execHoardQueryStatus_keeps _) (by decide +kernel),
    fun _ => within_of_mask (execHoardQueryRelease_keeps _) (by decide +kernel),
    fun _ => within_of_mask (execHoardQueryList_keeps _) (by decide +kernel),
    fun _ => within_of_mask (execHoardQueryUsage_keeps _) (by decide +kernel),
    fun _ => within_of_mask (execVerifyObject_keeps _) (by decide +kernel),
    fun _ => within_of_mask (execEdfErase_within _) (by decide +kernel),
    fun _ => within_of_mask (execVanClr_within _) (by decide +kernel),
    fun _ => within_of_mask (execEdfFlush_within _) (by decide +kernel),
    fun _ _ => within_of_mask (execDoneListExpiry_keeps _ _) (by decide +kernel)⟩

/-- Settles O59: each frame is the command's own law, read as a list of areas by `within_of_mask`. -/
theorem audioCaptureTwinAndHealthCommandsLeaveTheRest : Obligations.AudioCaptureTwinAndHealthCommandsLeaveTheRest := by
  unfold Obligations.AudioCaptureTwinAndHealthCommandsLeaveTheRest
  refine ⟨fun _ => within_of_mask (execMartenHeartbeatTimeout_keeps _) (by decide +kernel),
    within_of_mask execSysWdog_keeps (by decide +kernel),
    fun _ _ _ => within_of_mask (execApArmWrite_within _ _ _) (by decide +kernel),
    fun _ => within_of_mask (execApPortStart_keeps _) (by decide +kernel),
    fun _ => within_of_mask (execApTxFrameEdge_keeps _) (by decide +kernel),
    fun _ _ => within_of_mask (execApRxFrameEdge_keeps _ _) (by decide +kernel),
    fun _ _ _ => within_of_mask (execApHardLoss_keeps _ _ _) (by decide +kernel),
    fun _ _ => within_of_mask (execAp0WptrWrite_within _ _) (by decide +kernel),
    fun _ _ => within_of_mask (execRingRst_within _ _) (by decide +kernel),
    fun _ => within_of_mask (execApPortStop_keeps _) (by decide +kernel),
    fun _ _ => within_of_mask (execBphLock_keeps _ _) (by decide +kernel),
    fun _ _ => within_of_mask (execBphLockLost_keeps _ _) (by decide +kernel),
    fun _ _ _ _ _ _ => within_of_mask (execBphSubframe_keeps _ _ _ _ _ _) (by decide +kernel),
    within_of_mask execBphBlockEnd_keeps (by decide +kernel),
    fun _ => within_of_mask (execBphRateMeasure_keeps _) (by decide +kernel),
    within_of_mask execBphOutFrame_keeps (by decide +kernel),
    within_of_mask execCaptureStart_keeps (by decide +kernel),
    within_of_mask execCaptureBlockWrite_keeps (by decide +kernel),
    fun _ _ => within_of_mask (execCaptRelWrite_within _ _) (by decide +kernel),
    within_of_mask execCaptureEnd_keeps (by decide +kernel),
    fun _ => within_of_mask (execStats_keeps _) (by decide +kernel),
    within_of_mask execSnippet_keeps (by decide +kernel),
    within_of_mask execSpill_keeps (by decide +kernel),
    fun _ => within_of_mask (execSpillDel_within _) (by decide +kernel),
    fun _ => within_of_mask (execCaptureNow_keeps _) (by decide +kernel),
    fun _ _ => within_of_mask (execTwinEnWrite_within _ _) (by decide +kernel),
    within_of_mask execUndecidedTimeout_keeps (by decide +kernel),
    within_of_mask execHeartbeatEmit_keeps (by decide +kernel),
    fun _ => within_of_mask (execTwinHbPulse_keeps _) (by decide +kernel),
    within_of_mask execHbStuck_keeps (by decide +kernel),
    within_of_mask execTakeoverDue_keeps (by decide +kernel),
    fun _ => within_of_mask (execClaim_keeps _) (by decide +kernel),
    within_of_mask execClaimingEnd_keeps (by decide +kernel),
    fun _ => within_of_mask (execCheckpointBuild_keeps _) (by decide +kernel),
    fun _ => within_of_mask (execCkptNow_within _) (by decide +kernel),
    fun _ => within_of_mask (execChunkSend_keeps _) (by decide +kernel),
    fun _ _ => within_of_mask (execTwinFrameReceived_keeps _ _) (by decide +kernel),
    within_of_mask execPartialSetTimeout_keeps (by decide +kernel),
    within_of_mask execCheckpointConfigCopy_keeps (by decide +kernel),
    fun _ => within_of_mask (execTwinSwap_keeps _) (by decide +kernel),
    within_of_mask execSwapFailed_keeps (by decide +kernel),
    fun _ => within_of_mask (execStandbySelftest_keeps _) (by decide +kernel),
    within_of_mask execHealthSample_keeps (by decide +kernel),
    fun _ => within_of_mask (execSampleNow_within _) (by decide +kernel),
    fun _ => within_of_mask (execReplaceClr_within _) (by decide +kernel),
    fun _ => within_of_mask (execSvcStart_within _) (by decide +kernel),
    fun _ _ => within_of_mask (execHealthReport_keeps _ _) (by decide +kernel),
    fun _ _ _ => within_of_mask (execSelftest_keeps _ _ _) (by decide +kernel)⟩

end Sys2Proof.Machine
end

section
/-! PROOFS. Fields of one register that share no bit (O35), and the error code of the time quality (O38). -/

namespace Sys2Proof.Machine

open R

variable {s : State} {f : Fn}

/-! ### Fields of one register -/

/-- Two fields share no bit: they lie in different registers, or one lies below the other. -/
def Fld.apart (x y : Fld) : Bool := y.key != x.key || decide (y.hi < x.lo) || decide (x.hi < y.lo)

/-- The bits below, inside and above a field, with those inside replaced. -/
theorem splice_eq (n lo w v : Nat) : n - n / 2 ^ lo % 2 ^ w * 2 ^ lo + v * 2 ^ lo =
    n % 2 ^ lo + 2 ^ lo * (v + 2 ^ w * (n / 2 ^ lo / 2 ^ w)) := by
  have hlow := Nat.mod_add_div n (2 ^ lo)
  have hhigh := Nat.mod_add_div (n / 2 ^ lo) (2 ^ w)
  have hn : n = n % 2 ^ lo + 2 ^ lo * (n / 2 ^ lo % 2 ^ w) + 2 ^ lo * (2 ^ w * (n / 2 ^ lo / 2 ^ w)) := by
    rw [Nat.add_assoc, ← Nat.mul_add, hhigh, hlow]
  rw [Nat.mul_add, Nat.mul_comm v, Nat.mul_comm (n / 2 ^ lo % 2 ^ w)]
  omega

/-- Bits below a field do not see it. -/
theorem splice_below {a b lo : Nat} (h : a + b ≤ lo) (l k : Nat) : (l + 2 ^ lo * k) / 2 ^ a % 2 ^ b = l / 2 ^ a % 2 ^ b := by
  rw [← Nat.mod_mul_right_div_self, ← Nat.mod_mul_right_div_self, ← Nat.pow_add, Nat.add_mod,
    Nat.mod_eq_zero_of_dvd ((Nat.pow_dvd_pow 2 h).trans (Nat.dvd_mul_right _ _)), Nat.add_zero, Nat.mod_mod]

/-- Bits above a field do not see it. -/
theorem splice_above {a lo w l v : Nat} (h : lo + w ≤ a) (hl : l < 2 ^ lo) (hv : v < 2 ^ w) (k : Nat) :
    (l + 2 ^ lo * (v + 2 ^ w * k)) / 2 ^ a = k / 2 ^ (a - (lo + w)) := by
  rw [show (2 : Nat) ^ a = 2 ^ lo * 2 ^ w * 2 ^ (a - (lo + w)) by rw [← Nat.pow_add, ← Nat.pow_add]; congr 1; omega,
    ← Nat.div_div_eq_div_mul, ← Nat.div_div_eq_div_mul, Nat.add_mul_div_left _ _ (Nat.two_pow_pos lo),
    Nat.div_eq_of_lt hl, Nat.zero_add, Nat.add_mul_div_left _ _ (Nat.two_pow_pos w), Nat.div_eq_of_lt hv, Nat.zero_add]

/-- A field that shares no bit with the one written reads as before. -/
theorem State.get_put_apart {x y : Fld} (h : Sparse.wf resetWord s.regs = true) (hle : x.lo ≤ x.hi) (hy : y.lo ≤ y.hi)
    (hlt : y.hi < 16) (ha : x.apart y = true) (v : Nat) : (s.put x v).get y = s.get y := by
  by_cases hk : y.key = x.key
  · simp only [Fld.apart, hk, bne_self_eq_false, Bool.false_or, Bool.or_eq_true, decide_eq_true_eq] at ha
    simp only [State.get, State.put, hk, State.reg_setReg h, Fld.size, BitVec.toNat_ofNat]
    generalize (s.reg x.key).toNat = old
    rw [splice_eq, ← Nat.mod_mul_right_div_self, ← Nat.pow_add, Nat.mod_mod_of_dvd _ (Nat.pow_dvd_pow 2 (by omega)), Nat.pow_add,
      Nat.mod_mul_right_div_self]
    rcases ha with hbelow | habove
    · rw [splice_below (by omega)]
      nth_rw 2 [← Nat.mod_add_div old (2 ^ x.lo)]
      rw [splice_below (by omega)]
    · rw [splice_above (by omega) (Nat.mod_lt _ (Nat.two_pow_pos _)) (Nat.mod_lt _ (Nat.two_pow_pos _)), Nat.div_div_eq_div_mul,
        Nat.div_div_eq_div_mul, ← Nat.pow_add, ← Nat.pow_add, show x.lo + (x.hi + 1 - x.lo + (y.lo - (x.lo +
        (x.hi + 1 - x.lo)))) = y.lo by omega]
  · exact State.get_put_ne s v hk

/-- Settles O35: the field itself by `State.get_put_same`, one beside it by `State.get_put_apart`. -/
theorem registerFieldsAreApart : Obligations.RegisterFieldsAreApart := by
  unfold Obligations.RegisterFieldsAreApart
  intro s x v hc hle hlt
  have ⟨hregs, _⟩ := hc
  refine ⟨State.get_put_same hregs hle hlt v, State.canon_put x v hc, fun k hk => s.reg_put_ne v hk, ?_⟩
  intro y _ hy hy16 ha
  refine State.get_put_apart hregs hle hy hy16 ?_ v
  simp only [Fld.apart, Bool.or_eq_true, decide_eq_true_eq]
  rcases ha with hbelow | habove
  · exact .inl (.inr hbelow)
  · exact .inr habove

/-! ### The error code (R355) -/

/-- The code of a bound is the first that covers it, 31 where none does. -/
theorem codeOf_some_cases (b : Nat) : (codeOf (some b) = 31 ∧ ∀ c < 31, 2 ^ c * usUnit < b) ∨
    (codeOf (some b) < 31 ∧ b ≤ 2 ^ codeOf (some b) * usUnit ∧ ∀ c < codeOf (some b), 2 ^ c * usUnit < b) := by
  rw [codeOf]
  cases hfind : (List.range 31).find? (fun c => decide (b ≤ 2 ^ c * usUnit)) with
  | none => exact .inl ⟨rfl, fun c hc => by simpa using List.find?_eq_none.mp hfind c (List.mem_range.mpr hc)⟩
  | some n =>
    obtain ⟨hcovers, hmem, hleast⟩ := List.find?_range_eq_some.mp hfind
    exact .inr ⟨List.mem_range.mp hmem, by simpa using hcovers, fun c hc => by simpa using hleast c hc⟩

/-- Settles O38: both sides of 2^30 us by `codeOf_some_cases`. -/
theorem errorCodeIsTheLeast : Obligations.ErrorCodeIsTheLeast := by
  unfold Obligations.ErrorCodeIsTheLeast
  refine ⟨rfl, fun b => ⟨fun hb => ?_, fun hb => ?_⟩⟩
  · rcases codeOf_some_cases b with ⟨hcode, _⟩ | ⟨hlt, hcovers, _⟩
    · exact hcode
    · have : 2 ^ codeOf (some b) ≤ 2 ^ 30 := Nat.pow_le_pow_right (by decide) (by omega)
      exact absurd hcovers (Nat.not_le.mpr (Nat.lt_of_le_of_lt (Nat.mul_le_mul_right _ this) hb))
  · rcases codeOf_some_cases b with ⟨_, hnone⟩ | ⟨hlt, hcovers, hleast⟩
    · exact absurd hb (Nat.not_le.mpr (hnone 30 (by decide)))
    · exact ⟨by omega, hcovers, hleast⟩

end Sys2Proof.Machine
end

section
/-! PROOFS. A cycle of the always-on domain (O31), and what power-on reset leaves (O33). -/

namespace Sys2Proof.Machine

open R

variable {s : State}

/-! ### The cycle -/

/-- What `showTq` writes of the timebase is no part of the accumulator or of the slew. -/
theorem State.time_noteRtime (s : State) : s.noteRtime.time = s.time := by
  unfold State.noteRtime
  split <;> rfl

theorem State.acc_showTq (s : State) : s.showTq.time.acc = s.time.acc := by
  rw [State.showTq, State.time_noteRtime]
  rfl

theorem State.slew_showTq (s : State) : s.showTq.time.slew = s.time.slew := by
  rw [State.showTq, State.time_noteRtime]
  rfl

/-- The cycle with no slew left and no trim: the clock's fraction stays, and KTIME gains 512 units. -/
def State.plainCycle (s : State) : State :=
  { s with
    aon := s.aon + 1, ktime := (s.ktime + 512) % 2 ^ 64
    time := { s.time with bound := s.time.bound.map (fun b => b + 1000 * s.time.rate) } }

theorem State.tick_of_untrimmed (hslew : s.time.slew = 0) (htrim : s.onX32 = false ∨ s.trim = 0)
    (hacc : s.time.acc < 100000000) : s.tick = s.plainCycle.showTq := by
  have htr : (if s.onX32 then s.trim else 0) = 0 := by rcases htrim with h | h <;> simp [h]
  have hadv : (s.time.acc + 51200000000) / 100000000 = 512 := by omega
  have hleft : (s.time.acc + 51200000000) % 100000000 = s.time.acc := by omega
  simp only [State.tick, State.plainCycle, hslew, htr]
  norm_num [hadv, hleft, show Int.toNat 51200000000 = 51200000000 from rfl]

/-- What a cycle changes beside KTIME and its own count: the timebase, the front end's own work, and what shows them. -/
def cycleShown : List Area :=
  [.time, .frontEnd, .health, .openValues, .reg KTIME_TQ.w, .reg TIME_STAT.w, .reg HLT_RTIME_L.w, .reg HLT_RTIME_H.w,
    .reg CLK_STAT.w, .reg FES_STAT.w, .reg FES_RSSI.w, .reg FES_AGC.w, .reg FES_RAW_LNA.w, .reg FES_RAW_MIX.w,
    .reg FES_RAW_LFPGA.w]

theorem State.idle_of_running (hpor : s.pins.porAsserted = false) (hcur : s.get MODE.CUR ≠ 0) : s.idle = s.tick.frontTick := by
  rw [State.idle, if_neg (by simp [hpor, hcur])]

/-- Settles O31: a stopped cycle leaves the state, a running one is `State.plainCycle` and what shows it. -/
theorem idleStepIsOneAonCycle : Obligations.IdleStepIsOneAonCycle := by
  unfold Obligations.IdleStepIsOneAonCycle
  refine fun s hp => ⟨fun hstop => ?_, fun hpor hcur hslew htrim hacc => ⟨_, step_of_idle hp, ?_⟩⟩
  · rw [step_of_idle hp, State.idle, if_pos hstop]
  · have hshow := s.plainCycle.showTq_keeps .refl (within?_self _)
    have hfront := s.plainCycle.showTq.frontTick_keeps .refl (within?_self _)
    have hcycle : Keeps (areasMask cycleShown) s.plainCycle s.plainCycle.showTq.frontTick :=
      State.frontTick_keeps _ (State.showTq_keeps _ .refl (by decide)) (by decide)
    have haon : s.plainCycle.showTq.frontTick.aon = s.plainCycle.aon := hcycle.same (a := .cycles) (by decide)
    have hktime : s.plainCycle.showTq.frontTick.ktime = s.plainCycle.ktime := hcycle.same (a := .ktime) (by decide)
    have htime : s.plainCycle.showTq.frontTick.time = s.plainCycle.showTq.time := hfront.same (a := .time) (by decide)
    have honly : Only (.ktime :: .cycles :: cycleShown) s s.idle :=
      (s.idle_keeps .refl (within?_self _)).areas (by decide) (by decide)
    rw [State.idle_of_running hpor hcur, State.tick_of_untrimmed hslew htrim hacc] at honly ⊢
    refine ⟨?_, ?_, ?_, ?_, honly⟩
    · rw [haon, State.plainCycle]
    · rw [hktime, State.plainCycle]
    · rw [htime, State.acc_showTq, State.plainCycle]
    · rw [htime, State.slew_showTq, State.plainCycle, hslew]

/-! ### Reset -/

/-- Without `VDDIO` nothing drives a GPIO pin. -/
theorem State.gpioDrive_of_unpowered (h : s.pins.vddio = false) (cfg : Nat) : s.gpioDrive cfg = none := by
  simp [State.gpioDrive, h]

/-- Without `VDDIO` no interrupt pin is driven low. -/
theorem State.pinLow_of_unpowered (h : s.pins.vddio = false) (v : Nat) : s.pinLow v = false := by
  simp [State.pinLow, h]

/-- The states that a pin of the `VDDIO` domain may not show without its supply. -/
def PinState.drives : PinState → Bool
  | .low | .driven | .level _ => true
  | _ => false

theorem PinState.not_drives_iff (p : PinState) : p.drives = false ↔ p ≠ .low ∧ p ≠ .driven ∧ ∀ b, p ≠ .level b := by
  cases p <;> simp [PinState.drives]

theorem Pin.drives_resetState (p : Pin) : p.resetState.drives = false := by cases p <;> rfl

theorem State.drives_gpioState (h : s.pins.vddio = false) (cfg : Nat) : (s.gpioState cfg).drives = false := by
  rw [State.gpioState, State.gpioDrive_of_unpowered h]
  split
  · rfl
  · dsimp only
    split <;> rfl

/-- The host's pins without their supply: none listens to a level, none is pulled low. -/
theorem State.drives_hostState (h : s.pins.vddio = false) (p : Pin) : (s.hostState p).drives = false := by
  unfold State.hostState
  simp only [State.pinLow_of_unpowered h, h, Bool.false_eq_true, and_false, if_false]
  repeat' split
  all_goals rfl

/-- Every pin of the domain is of class W, H, S or G. -/
theorem Pin.class_of_vddio {p : Pin} (h : p.info.2.1 = some .vddio) :
    p.info.2.2 = .w ∨ p.info.2.2 = .h ∨ p.info.2.2 = .s ∨ p.info.2.2 = .g := by
  cases p <;> revert h <;> decide

theorem State.drives_modeState {p : Pin} (h : s.pins.vddio = false) (hp : p.info.2.1 = some .vddio) :
    (s.modeState p).drives = false := by
  unfold State.modeState
  rcases Pin.class_of_vddio hp with hw | hw | hw | hw <;> rw [hw]
  · exact s.drives_hostState h p
  · exact s.drives_hostState h p
  · simp only [h, Bool.false_eq_true, if_false]
    split <;> rfl
  · exact s.drives_gpioState h _

/-- Settles O33: the registers, stores and engines as `State.reset` gives them, the pins by `State.drives_modeState`. -/
theorem resetLeavesTheStatedValues : Obligations.ResetLeavesTheStatedValues := by
  unfold Obligations.ResetLeavesTheStatedValues
  refine ⟨by decide, fun f => ?_, rfl, rfl, rfl, rfl, fun s p h => ?_, fun s p h hp => ?_⟩
  · refine ⟨?_, ?_, ?_, ?_, fun _ => rfl, fun _ _ => rfl⟩ <;> cases f <;> decide
  · rw [State.pinState, if_pos (.inl h)]
  · refine (PinState.not_drives_iff _).mp ?_
    rw [State.pinState]
    split
    · exact p.drives_resetState
    · exact State.drives_modeState h hp

end Sys2Proof.Machine
end

section
/-! PROOFS. Interrupt sources: the bit, the count, and what else a set may change (O36). -/

namespace Sys2Proof.Machine

open R

variable {s : State} {f : Fn}

/-! ### Counters -/

theorem State.cnt_count_same (h : Sparse.wf (fun _ => (0 : Word)) s.cnts = true) (f : Fn) (src : Nat) :
    (s.count f src).cnt f src = (s.cnt f src + 1) % 0x10000 := by
  rw [State.cnt, State.count, Sparse.get_put_same _ _ _ h, BitVec.toNat_ofNat]

theorem State.cnt_count_ne {g : Fn} {src n : Nat} (hsrc : src < 32) (hn : n < 32) (h : g ≠ f ∨ n ≠ src) :
    (s.count f src).cnt g n = s.cnt g n := by
  have hkey : g.toNat * 32 + n ≠ f.toNat * 32 + src := by
    intro hk
    have hfn : g.toNat = f.toNat := by omega
    have hgf : g = f := by revert hfn; cases g <;> cases f <;> simp [Fn.toNat]
    rcases h with h | h
    · exact h hgf
    · omega
  rw [State.cnt, State.count, Sparse.get_put_ne _ _ hkey, ← State.cnt]

/-! ### What marking a set for the host leaves -/

/-- A reason for a remote wake changes no register but `WAKE_HREASON`. -/
theorem State.reg_wantHost {k : Nat} (s : State) (r : Nat) (h : k ≠ WAKE_HREASON.w.key) : (s.wantHost r).reg k = s.reg k := by
  unfold State.wantHost
  extract_lets on t
  have ht : t.reg k = s.reg k := by
    unfold t
    split
    · exact s.reg_put_ne _ h
    · rfl
  split
  · exact ht
  · rfl

@[simp] theorem State.cnts_wantHost (s : State) (r : Nat) : (s.wantHost r).cnts = s.cnts :=
  (s.wantHost_keeps r .refl (within?_self _)).same (a := .counters) (by decide)

/-- `noteAttn` is the request to wake the host, where there is one, then the mark in the function's own engine. -/
theorem State.noteAttn_cases (s : State) (f : Fn) (src : Nat) : ∃ t : State, (t = s ∨ t = s.wantHost 4) ∧
    (s.noteAttn f src = t ∨ ∃ a : Attn, s.noteAttn f src = t.setEng f { t.eng f with attn := a }) := by
  unfold State.noteAttn
  extract_lets en t e
  refine ⟨t, ?_, ?_⟩
  · unfold t
    split
    · exact .inr rfl
    · exact .inl rfl
  · split
    · split
      · exact .inr ⟨_, rfl⟩
      · exact .inr ⟨_, rfl⟩
    · exact .inl rfl

theorem State.reg_noteAttn {k : Nat} (s : State) (f : Fn) (src : Nat) (h : k ≠ WAKE_HREASON.w.key) :
    (s.noteAttn f src).reg k = s.reg k := by
  obtain ⟨t, ht, heq⟩ := s.noteAttn_cases f src
  have hreg : t.reg k = s.reg k := by rcases ht with rfl | rfl; exacts [rfl, s.reg_wantHost 4 h]
  rcases heq with heq | ⟨_, heq⟩ <;> rw [heq]
  · exact hreg
  · exact hreg

@[simp] theorem State.cnts_noteAttn (s : State) (f : Fn) (src : Nat) : (s.noteAttn f src).cnts = s.cnts :=
  (s.noteAttn_keeps f src .refl (within?_self _)).same (a := .counters) (by decide)

/-- A mark for a message leaves all of a function's engine but its message. -/
theorem State.eng_noteAttn (s : State) (f g : Fn) (src : Nat) : ∃ a : Attn,
    (s.noteAttn f src).eng g = { s.eng g with attn := a } := by
  obtain ⟨t, ht, heq⟩ := s.noteAttn_cases f src
  have heng : t.eng g = s.eng g := by
    rcases ht with rfl | rfl
    · rfl
    · rw [State.eng, State.fns_wantHost, ← State.eng]
  rcases heq with heq | ⟨a, heq⟩ <;> rw [heq]
  · exact ⟨(s.eng g).attn, heng⟩
  · by_cases hg : g = f
    · subst hg
      exact ⟨a, by rw [State.eng_setEng, heng]⟩
    · exact ⟨(s.eng g).attn, by rw [State.eng_setEng_ne _ _ hg, heng]⟩

/-- In another function a mark changes nothing. -/
theorem State.eng_noteAttn_ne {g : Fn} (s : State) (src : Nat) (h : g ≠ f) : (s.noteAttn f src).eng g = s.eng g := by
  obtain ⟨t, ht, heq⟩ := s.noteAttn_cases f src
  have heng : t.eng g = s.eng g := by
    rcases ht with rfl | rfl
    · rfl
    · rw [State.eng, State.fns_wantHost, ← State.eng]
  rcases heq with heq | ⟨_, heq⟩ <;> rw [heq]
  · exact heng
  · rw [State.eng_setEng_ne _ _ h, heng]

/-! ### A set of a source -/

theorem wakeHreason_not_common (f : Fn) (off : Nat) : commonKey f.toNat off ≠ WAKE_HREASON.w.key := by
  have : WAKE_HREASON.w.key < 0x10000 := by decide
  rw [commonKey]
  omega

/-- A common-part field reads as before a mark. -/
@[simp] theorem State.fget_noteAttn (s : State) (f g : Fn) (src : Nat) (x : Fld) : (s.noteAttn f src).fget g x = s.fget g x := by
  have hreg := s.reg_noteAttn f src (wakeHreason_not_common g x.key)
  rw [State.fget, State.get, show (x.on g.toNat).key = commonKey g.toNat x.key from rfl, hreg]
  rfl

@[simp] theorem State.cnt_noteAttn (s : State) (f g : Fn) (src n : Nat) : (s.noteAttn f src).cnt g n = s.cnt g n := by
  rw [State.cnt, State.cnts_noteAttn, ← State.cnt]

/-- Setting bit `b` of a status register whose offset is `off`, counted as source `src`. -/
def State.setSource (s : State) (f : Fn) (off b src : Nat) : State := ((s.fput f ⟨off, b, b⟩ 1).count f src).noteAttn f src

theorem State.raise0_eq (s : State) (f : Fn) (b : Nat) : s.raise0 f b = s.setSource f 0x10 b b := rfl

theorem State.raise1_eq (s : State) (b : Nat) : s.raise1 b = s.setSource .f0 0x11 b (16 + b) := rfl

theorem State.fget_setSource_same {off b : Nat} (hc : s.Canon) (hb : b < 16) (src : Nat) :
    (s.setSource f off b src).fget f ⟨off, b, b⟩ = 1 := by
  have ⟨hregs, _⟩ := hc
  rw [State.setSource, State.fget_noteAttn]
  exact (State.fget_fput_same hregs (Nat.le_refl b) hb 1).trans (by simp [Fld.size])

theorem State.cnt_setSource_same {off b src : Nat} (hc : s.Canon) :
    (s.setSource f off b src).cnt f src = (s.cnt f src + 1) % 0x10000 := by
  have ⟨_, hcnts, _⟩ := hc
  rw [State.setSource, State.cnt_noteAttn, State.cnt_count_same (s := s.fput f _ 1) hcnts]
  rfl

theorem State.cnt_setSource_ne {off b src n : Nat} {g : Fn} (hsrc : src < 32) (hn : n < 32) (h : g ≠ f ∨ n ≠ src) :
    (s.setSource f off b src).cnt g n = s.cnt g n := by
  rw [State.setSource, State.cnt_noteAttn, State.cnt_count_ne hsrc hn h]
  rfl

theorem State.onlyRegs_setSource (s : State) (f : Fn) (off b src : Nat) :
    OnlyRegs [(⟨off, 15, 0⟩ : Fld).on f.toNat, WAKE_HREASON.w] s (s.setSource f off b src) := by
  intro k hk
  simp only [List.map_cons, List.map_nil, List.mem_cons, List.not_mem_nil, or_false, not_or] at hk
  obtain ⟨hstat, hwake⟩ := hk
  rw [State.setSource, State.reg_noteAttn _ _ _ hwake]
  exact s.reg_put_ne _ hstat

/-- A set of a source leaves all of a function's engine but its message. -/
theorem State.eng_setSource (s : State) (f g : Fn) (off b src : Nat) : ∃ a : Attn,
    (s.setSource f off b src).eng g = { s.eng g with attn := a } :=
  State.eng_noteAttn _ f g src

@[simp] theorem State.cnts_burrowLost (s : State) : s.burrowLost.cnts = s.cnts :=
  (s.burrowLost_keeps .refl (within?_self _)).same (a := .counters) (by decide)

@[simp] theorem State.cnts_setBases (s : State) (l : List Base) : (s.setBases l).cnts = s.cnts :=
  (s.setBases_keeps l .refl (within?_self _)).same (a := .counters) (by decide)

@[simp] theorem State.cnts_showEdf (s : State) : s.showEdf.cnts = s.cnts :=
  (s.showEdf_keeps .refl (within?_self _)).same (a := .counters) (by decide)

/-- A loss of power leaves no event counter. -/
theorem State.cnts_powerLost (s : State) (burrow : Bool) : (s.powerLost burrow).cnts = [] := by
  simp only [State.powerLost, State.cnts_showEdf, State.cnts_setBases, State.putBit, State.put_cnts]
  split
  · rfl
  · rw [State.cnts_burrowLost]
    rfl

/-- Burrow survives a power-on reset from 1.80 V up, unless an earlier loss took it (R65). -/
def State.burrowHolds (s : State) (vbatMin : Nat) : Bool :=
  decide (1800 ≤ vbatMin) && !decide (s.boot.cause = 1 ∧ (s.pins.porAsserted ∨ s.get MODE.CUR = 0))

theorem exec_powerOnReset (vbatMin : Nat) (s : State) : exec (.powerOnReset vbatMin) s =
    .next { s.powerLost (s.burrowHolds vbatMin) with
      boot := { (s.powerLost (s.burrowHolds vbatMin)).boot with cause := if s.burrowHolds vbatMin then 2 else 1 } } := by
  unfold State.burrowHolds
  rfl

/-- With no counter listed every event counter reads 0. -/
theorem State.cnt_of_none (h : s.cnts = []) (f : Fn) (n : Nat) : s.cnt f n = 0 := by
  rw [State.cnt, h]
  rfl

/-- Settles O36: either status register by the lemmas of `State.setSource`, the power-on reset by the state it starts from. -/
theorem eventsSetAndCount : Obligations.EventsSetAndCount := by
  unfold Obligations.EventsSetAndCount
  refine ⟨fun f b s hc hb => ?_, fun b s hc hb => ?_, fun v s => ?_⟩
  · rw [State.raise0_eq]
    refine ⟨State.fget_setSource_same hc hb b, State.cnt_setSource_same hc, fun g n hn h =>
      State.cnt_setSource_ne (by omega) hn h, s.onlyRegs_setSource f _ b b, fun g => ?_⟩
    obtain ⟨_, heng⟩ := s.eng_setSource f g 0x10 b b
    rw [heng]
  · rw [State.raise1_eq]
    refine ⟨State.fget_setSource_same hc hb _, State.cnt_setSource_same hc, fun g n hn h =>
      State.cnt_setSource_ne (by omega) hn h, s.onlyRegs_setSource .f0 _ b _, fun g => ?_⟩
    obtain ⟨_, heng⟩ := s.eng_setSource .f0 g 0x11 b (16 + b)
    rw [heng]
  · refine ⟨_, exec_powerOnReset v s, fun f n => State.cnt_of_none ?_ f n⟩
    dsimp only
    rw [State.cnts_powerLost]

end Sys2Proof.Machine
end

section
/-! PROOFS. Data queues: a record enters whole or is counted as dropped (O37), the threshold and FLUSH (O48), and the words of
a PLAN_EVENT record (O49). -/

namespace Sys2Proof.Machine

open R

variable {s : State} {f : Fn}

/-! ### What a set of a source leaves of the common part and of the engines -/

theorem Fn.toNat_le (f : Fn) : f.toNat ≤ 3 := by cases f <;> decide

theorem commonKey_inj {f g : Fn} {a b : Nat} (ha : a < 0x10000) (hb : b < 0x10000) :
    commonKey f.toNat a = commonKey g.toNat b ↔ f = g ∧ a = b := by
  refine ⟨fun h => ?_, fun ⟨hf, hab⟩ => by rw [hf, hab]⟩
  rw [commonKey, commonKey] at h
  have hfn : f.toNat = g.toNat := by omega
  exact ⟨by revert hfn; cases f <;> cases g <;> simp [Fn.toNat], by omega⟩

/-- A common-part field of another register, or of another function, reads as before a write. -/
theorem State.fget_fput_other {g : Fn} {x y : Fld} (v : Nat) (hx : x.key < 0x10000) (hy : y.key < 0x10000)
    (h : g ≠ f ∨ y.key ≠ x.key) : (s.fput f x v).fget g y = s.fget g y := by
  refine State.get_put_ne s v fun hk => ?_
  obtain ⟨hgf, hkey⟩ := (commonKey_inj hy hx).mp hk
  rcases h with h | h
  · exact h hgf
  · exact h hkey

theorem State.fget_raise0_other {g : Fn} {y : Fld} (s : State) (b : Nat) (hy : y.key < 0x10000)
    (h : g ≠ f ∨ y.key ≠ 0x10) : (s.raise0 f b).fget g y = s.fget g y := by
  rw [State.raise0, State.fget_noteAttn]
  exact State.fget_fput_other 1 (by decide : (0x10 : Nat) < 0x10000) hy h

theorem State.fget_raise1_other {g : Fn} {y : Fld} (s : State) (b : Nat) (hy : y.key < 0x10000)
    (h : g ≠ .f0 ∨ y.key ≠ 0x11) : (s.raise1 b).fget g y = s.fget g y := by
  rw [State.raise1, State.fget_noteAttn]
  exact State.fget_fput_other 1 (by decide : (0x11 : Nat) < 0x10000) hy h

theorem State.canon_raise0 (f : Fn) (b : Nat) (hc : s.Canon) : (s.raise0 f b).Canon :=
  (s.raise0_keeps f b .refl (within?_self _)).canon hc

theorem State.canon_raise1 (b : Nat) (hc : s.Canon) : (s.raise1 b).Canon :=
  (s.raise1_keeps b .refl (within?_self _)).canon hc

/-- A status bit reads 1 once set, and stays 1 when another one sets. -/
theorem State.fget_raise0_bit {b c : Nat} (hc : s.Canon) (hb : b < 16) (hc16 : c < 16) :
    (s.raise0 f b).fget f ⟨0x10, c, c⟩ = if c = b then 1 else s.fget f ⟨0x10, c, c⟩ := by
  split
  · rename_i h
    subst h
    exact State.fget_setSource_same hc hb c
  · rename_i h
    have ⟨hregs, _⟩ := hc
    rw [State.raise0, State.fget_noteAttn]
    refine State.get_put_apart (x := (⟨0x10, b, b⟩ : Fld).on f.toNat) (y := (⟨0x10, c, c⟩ : Fld).on f.toNat) hregs
      (Nat.le_refl b) (Nat.le_refl c) hc16 ?_ 1
    simp only [Fld.apart, Fld.on, bne_self_eq_false, Bool.false_or, Bool.or_eq_true]
    exact (Nat.lt_or_gt_of_ne h).imp decide_eq_true decide_eq_true

/-- A set of a source leaves all of a function's engine but its message. -/
theorem State.eng_raise0 (s : State) (f g : Fn) (b : Nat) : ∃ a : Attn, (s.raise0 f b).eng g = { s.eng g with attn := a } :=
  s.eng_setSource f g 0x10 b b

theorem State.eng_raise1 (s : State) (g : Fn) (b : Nat) : ∃ a : Attn, (s.raise1 b).eng g = { s.eng g with attn := a } :=
  s.eng_setSource .f0 g 0x11 b (16 + b)

/-! ### The bits that a record sets -/

theorem State.canon_raises (hc : s.Canon) (l : List Nat) : (l.foldl (fun s b => s.raise0 f b) s).Canon := by
  induction l generalizing s with
  | nil => exact hc
  | cons b l ih => exact ih (State.canon_raise0 f b hc)

theorem State.eng_raises (s : State) (f g : Fn) (l : List Nat) :
    ∃ a : Attn, (l.foldl (fun s b => s.raise0 f b) s).eng g = { s.eng g with attn := a } := by
  induction l generalizing s with
  | nil => exact ⟨_, rfl⟩
  | cons b l ih =>
    obtain ⟨a, ha⟩ := ih (s.raise0 f b)
    obtain ⟨_, hb⟩ := s.eng_raise0 f g b
    exact ⟨a, by rw [List.foldl_cons, ha, hb]⟩

theorem State.fget_raises_other {g : Fn} {y : Fld} (s : State) (l : List Nat) (hy : y.key < 0x10000)
    (h : g ≠ f ∨ y.key ≠ 0x10) : (l.foldl (fun s b => s.raise0 f b) s).fget g y = s.fget g y := by
  induction l generalizing s with
  | nil => rfl
  | cons b l ih => rw [List.foldl_cons, ih, State.fget_raise0_other _ _ hy h]

/-- A bit that is 1 stays 1. -/
theorem State.fget_raises_stays {c : Nat} (hc : s.Canon) {l : List Nat} (hl : ∀ b ∈ l, b < 16) (hc16 : c < 16)
    (h : s.fget f ⟨0x10, c, c⟩ = 1) : (l.foldl (fun s b => s.raise0 f b) s).fget f ⟨0x10, c, c⟩ = 1 := by
  induction l generalizing s with
  | nil => exact h
  | cons b l ih =>
    refine ih (State.canon_raise0 f b hc) (fun x hx => hl x (List.mem_cons_of_mem _ hx)) ?_
    rw [State.fget_raise0_bit hc (hl b List.mem_cons_self) hc16, h, ite_self]

/-- Each bit of the list reads 1 afterwards. -/
theorem State.fget_raises_set (hc : s.Canon) {l : List Nat} (hl : ∀ b ∈ l, b < 16) {b : Nat} (hb : b ∈ l) :
    (l.foldl (fun s b => s.raise0 f b) s).fget f ⟨0x10, b, b⟩ = 1 := by
  induction l generalizing s with
  | nil => cases hb
  | cons c l ih =>
    have hrest : ∀ x ∈ l, x < 16 := fun x hx => hl x (List.mem_cons_of_mem _ hx)
    have hcanon := State.canon_raise0 f c hc
    rcases List.mem_cons.mp hb with rfl | hmem
    · refine State.fget_raises_stays hcanon hrest (hl b hb) ?_
      rw [State.fget_raise0_bit hc (hl b hb) (hl b hb), if_pos rfl]
    · exact ih hcanon hrest hmem

/-! ### Appending a record's words -/

/-- The queue is extended by the words; DQ_DATA sets when the level is at the threshold afterwards. -/
theorem State.append_eq (s : State) (f : Fn) (ws : List Word) : s.append f ws =
    (let t := s.setEng f { s.eng f with queue := (s.eng f).queue ++ ws }
     if s.fget f DQ_THR.w ≤ (s.eng f).queue.length + ws.length then t.raise0 f iDQ_DATA else t) := by
  simp only [State.append, List.length_append]
  rfl

/-- An append changes of the function's engine the queue, and perhaps its message. -/
theorem State.eng_append (s : State) (f : Fn) (ws : List Word) : ∃ a : Attn,
    (s.append f ws).eng f = { s.eng f with queue := (s.eng f).queue ++ ws, attn := a } := by
  rw [State.append_eq]
  dsimp only
  split
  · obtain ⟨a, ha⟩ := State.eng_raise0 (s.setEng f { s.eng f with queue := (s.eng f).queue ++ ws }) f f iDQ_DATA
    exact ⟨a, by rw [ha, State.eng_setEng]⟩
  · exact ⟨(s.eng f).attn, by rw [State.eng_setEng]⟩

/-- Another function's engine stays, and so does its message. -/
theorem State.eng_append_ne {g : Fn} (s : State) (ws : List Word) (h : g ≠ f) : (s.append f ws).eng g = s.eng g := by
  rw [State.append_eq]
  dsimp only
  split
  · rw [State.raise0, State.eng_noteAttn_ne _ _ h]
    exact State.eng_setEng_ne s _ h
  · exact State.eng_setEng_ne s _ h

theorem State.canon_append (hc : s.Canon) (ws : List Word) : (s.append f ws).Canon :=
  (s.append_keeps f ws .refl (within?_self _)).canon hc

theorem State.fget_append_other {g : Fn} {y : Fld} (s : State) (ws : List Word) (hy : y.key < 0x10000)
    (h : g ≠ f ∨ y.key ≠ 0x10) : (s.append f ws).fget g y = s.fget g y := by
  rw [State.append_eq]
  dsimp only
  split
  · rw [State.fget_raise0_other _ _ hy h]
    rfl
  · rfl

theorem append_atThreshold (hc : s.Canon) {ws : List Word} (h : s.fget f DQ_THR.w ≤ (s.eng f).queue.length + ws.length) :
    (s.append f ws).fget f INT_STAT0.DQ_DATA = 1 ∧ (s.append f ws).cnt f 2 = (s.cnt f 2 + 1) % 0x10000 := by
  rw [State.append_eq, if_pos h]
  have hc' : (s.setEng f { s.eng f with queue := (s.eng f).queue ++ ws }).Canon := hc
  exact ⟨State.fget_setSource_same hc' (by decide) _, State.cnt_setSource_same hc'⟩

theorem append_belowThreshold {ws : List Word} (h : (s.eng f).queue.length + ws.length < s.fget f DQ_THR.w) :
    (s.append f ws).fget f INT_STAT0.w = s.fget f INT_STAT0.w ∧ (s.append f ws).cnt f 2 = s.cnt f 2 := by
  rw [State.append_eq, if_neg (Nat.not_le.mpr h)]
  exact ⟨rfl, rfl⟩

/-! ### A record, whole or dropped -/

/-- The words of the FILL record that is owed. -/
def State.owedWords (s : State) (f : Fn) : List Word :=
  if (s.eng f).fill = 0 then []
  else Rec.words ⟨0x3F, (s.eng f).fillStamp, [BitVec.ofNat 16 (min (s.eng f).fill 0xFFFF)], []⟩

/-- The state with the FILL record that is owed appended, and the count cleared. -/
def State.fillPaid (s : State) (f : Fn) : State :=
  if (s.eng f).fill = 0 then s else (s.setEng f { s.eng f with fill := 0, fillStamp := 0 }).append f (s.owedWords f)

/-- The state with one more record dropped, its stamp kept at the first one. -/
def State.dropCounted (s : State) (f : Fn) (r : Rec) : State :=
  let t := s.setEng f { s.eng f with
    fill := (s.eng f).fill + 1, fillStamp := if (s.eng f).fill = 0 then r.stamp else (s.eng f).fillStamp }
  (t.putSat (DQ_LOST.w.on f.toNat) (s.fget f DQ_LOST.w + 1)).raise0 f iDQ_OVERRUN

theorem State.writeRec_eq (s : State) (f : Fn) (r : Rec) : s.writeRec f r =
    if (s.eng f).queue.length + (s.owedWords f).length + (Rec.words r).length ≤ s.dqSize f then
      r.bits.foldl (fun s b => s.raise0 f b) ((s.fillPaid f).append f (Rec.words r))
    else r.bits.foldl (fun s b => s.raise0 f b) (s.dropCounted f r) := by
  unfold State.writeRec State.owedWords State.fillPaid State.dropCounted
  rfl

/-- With the FILL record paid, its words end the queue and nothing is owed; no register but `INT_STAT0` has changed. -/
theorem State.eng_fillPaid (s : State) (f : Fn) : ∃ a : Attn, (s.fillPaid f).eng f =
    { s.eng f with
      queue := (s.eng f).queue ++ s.owedWords f, fill := 0
      fillStamp := if (s.eng f).fill = 0 then (s.eng f).fillStamp else 0, attn := a } := by
  unfold State.fillPaid State.owedWords
  split
  · rename_i h
    exact ⟨(s.eng f).attn, by rw [List.append_nil, ← h]⟩
  · obtain ⟨a, ha⟩ := State.eng_append (s.setEng f { s.eng f with fill := 0, fillStamp := 0 }) f
      (Rec.words ⟨0x3F, (s.eng f).fillStamp, [BitVec.ofNat 16 (min (s.eng f).fill 0xFFFF)], []⟩)
    exact ⟨a, by rw [ha, State.eng_setEng]⟩

theorem State.canon_fillPaid (hc : s.Canon) : (s.fillPaid f).Canon := by
  unfold State.fillPaid
  split
  · exact hc
  · exact State.canon_append (s := s.setEng f _) hc _

theorem State.fget_fillPaid_other {g : Fn} {y : Fld} (s : State) (hy : y.key < 0x10000) (h : g ≠ f ∨ y.key ≠ 0x10) :
    (s.fillPaid f).fget g y = s.fget g y := by
  unfold State.fillPaid
  split
  · rfl
  · rw [State.fget_append_other _ _ hy h]
    rfl

theorem State.eng_fillPaid_ne {g : Fn} (s : State) (h : g ≠ f) : (s.fillPaid f).eng g = s.eng g := by
  unfold State.fillPaid
  split
  · rfl
  · rw [State.eng_append_ne _ _ h, State.eng_setEng_ne _ _ h]

/-- A record that fits, with the FILL record that is owed. -/
theorem State.writeRec_of_room (hc : s.Canon) {r : Rec} (hbits : ∀ b ∈ r.bits, b < 16)
    (h : (s.eng f).queue.length + (s.owedWords f).length + (Rec.words r).length ≤ s.dqSize f) :
    ((s.writeRec f r).eng f).queue = (s.eng f).queue ++ s.owedWords f ++ Rec.words r ∧ ((s.writeRec f r).eng f).fill = 0 ∧
      (∀ b ∈ r.bits, (s.writeRec f r).fget f ⟨0x10, b, b⟩ = 1) ∧
      (s.writeRec f r).fget f DQ_LOST.w = s.fget f DQ_LOST.w := by
  rw [State.writeRec_eq, if_pos h]
  obtain ⟨_, hraised⟩ := State.eng_raises ((s.fillPaid f).append f (Rec.words r)) f f r.bits
  obtain ⟨_, happended⟩ := State.eng_append (s.fillPaid f) f (Rec.words r)
  obtain ⟨_, hpaid⟩ := s.eng_fillPaid f
  have hcanon := State.canon_append (f := f) (State.canon_fillPaid (f := f) hc) (Rec.words r)
  refine ⟨?_, ?_, fun b hb => State.fget_raises_set hcanon hbits hb, ?_⟩
  · rw [hraised, happended, hpaid]
  · rw [hraised, happended, hpaid]
  · rw [State.fget_raises_other _ _ (by decide) (.inr (by decide)), State.fget_append_other _ _ (by decide) (.inr (by decide)),
      State.fget_fillPaid_other _ (by decide) (.inr (by decide))]

/-- A record that does not fit. -/
theorem State.writeRec_of_full (hc : s.Canon) {r : Rec} (hbits : ∀ b ∈ r.bits, b < 16)
    (h : s.dqSize f < (s.eng f).queue.length + (s.owedWords f).length + (Rec.words r).length) :
    ((s.writeRec f r).eng f).queue = (s.eng f).queue ∧ ((s.writeRec f r).eng f).fill = (s.eng f).fill + 1 ∧
      ((s.writeRec f r).eng f).fillStamp = (if (s.eng f).fill = 0 then r.stamp else (s.eng f).fillStamp) ∧
      (s.writeRec f r).fget f DQ_LOST.w = min 0xFFFF (s.fget f DQ_LOST.w + 1) ∧
      (s.writeRec f r).fget f INT_STAT0.DQ_OVERRUN = 1 := by
  rw [State.writeRec_eq, if_neg (Nat.not_le.mpr h)]
  have ⟨hregs, hrest⟩ := hc
  let t := s.setEng f { s.eng f with
    fill := (s.eng f).fill + 1, fillStamp := if (s.eng f).fill = 0 then r.stamp else (s.eng f).fillStamp }
  let lost := t.putSat (DQ_LOST.w.on f.toNat) (s.fget f DQ_LOST.w + 1)
  have hcanon : lost.Canon := State.canon_put _ _ hc
  obtain ⟨_, hraised⟩ := State.eng_raises (s.dropCounted f r) f f r.bits
  obtain ⟨_, hdropped⟩ := State.eng_raise0 lost f f iDQ_OVERRUN
  have heng : lost.eng f = t.eng f := rfl
  have hset : t.eng f = _ := State.eng_setEng s f _
  have hdrop : s.dropCounted f r = lost.raise0 f iDQ_OVERRUN := rfl
  refine ⟨?_, ?_, ?_, ?_, ?_⟩
  · rw [hraised, hdrop, hdropped, heng, hset]
  · rw [hraised, hdrop, hdropped, heng, hset]
  · rw [hraised, hdrop, hdropped, heng, hset]
  · rw [State.fget_raises_other _ _ (by decide) (.inr (by decide)), hdrop,
      State.fget_raise0_other _ _ (by decide) (.inr (by decide))]
    refine (State.get_put_same (x := DQ_LOST.w.on f.toNat) hregs (Nat.zero_le _) (Nat.lt_succ_self 15) _).trans ?_
    rw [show (DQ_LOST.w.on f.toNat).size = 0x10000 from rfl, Nat.mod_eq_of_lt (by omega), Nat.min_comm]
  · refine State.fget_raises_stays (hdrop ▸ State.canon_raise0 f _ hcanon) hbits (by decide) ?_
    rw [hdrop, State.fget_raise0_bit hcanon (by decide) (by decide)]
    rfl

/-- Settles O37: the two cases are `State.writeRec_of_room` and `State.writeRec_of_full`. -/
theorem recordsEnterAQueueWhole : Obligations.RecordsEnterAQueueWhole := by
  unfold Obligations.RecordsEnterAQueueWhole
  exact fun s f r hc hbits => ⟨State.writeRec_of_room hc hbits, State.writeRec_of_full hc hbits⟩

end Sys2Proof.Machine
end

section
/-! PROOFS. A command's write of a register of the common part, and of a register whose bits are commands (R515, R517); FLUSH
(O48) and the words of a PLAN_EVENT record (O49). -/

namespace Sys2Proof.Machine

open R

variable {s : State} {f : Fn}

/-! ### A write of the common part (R515) -/

/-- Every register of the common part but the second bank passes step 3 for every function. -/
theorem gate3_common {off : Nat} {d : RegDef} (hd : regDef? (commonKey f.toNat off) = some d) (hoff : off < 0x10000)
    (hbank : off ≠ INT_STAT1.w.key ∧ off ≠ INT_EN1.w.key) : gate3 f (commonKey f.toNat off) = .serve := by
  simp [gate3, hd, baseKey_common f hoff, hbank]

/-- A command's write of a register of the common part, served, does what `writeReg` says, after the access. -/
theorem State.cmdWrite_common_of_serves {x : Fld} (v : Word) (hkey : x.key < 0x80) (h : Serves s f 0)
    (hreg : gate3 f (commonKey f.toNat x.key) = .serve) :
    s.cmdWrite f x v = (s.regAccess.writeReg f (commonKey f.toNat x.key) v).2 := by
  have hgate := State.gate_of_serves (k := commonKey f.toNat x.key) (offOf (commonKey f.toNat x.key))
    (by rw [keyPage_common]; exact h.regAccess)
  obtain ⟨hready, -⟩ := h
  simp [State.cmdWrite, hkey, hready, State.writeKey, hgate, hreg]

theorem State.writeEffect_common (s : State) (f g : Fn) (off : Nat) (v new : Word) :
    s.writeEffect f (commonKey g.toNat off) v new = s.writeCommon f (commonKey g.toNat off) v new := by
  rw [State.writeEffect, keyPage_common]
  rfl

/-- A legal command word for a register of the common part without lockable bits: the access, then the register's effect. -/
theorem State.cmdWrite_common_legal {x : Fld} {d : RegDef} {v : Word} (hd : regDef? (commonKey f.toNat x.key) = some d)
    (hkey : x.key < 0x80) (hbank : x.key ≠ INT_STAT1.w.key ∧ x.key ≠ INT_EN1.w.key) (hrwl : d.rwl = 0)
    (hwrite : ¬ (d.rw = 0 ∧ d.w1c = 0 ∧ d.wo = 0)) (hlegal : legalWord f x.key v = true) (h : Serves s f 0) :
    s.cmdWrite f x v = s.regAccess.writeCommon f (commonKey f.toNat x.key) v
      (d.merge (s.regAccess.reg (commonKey f.toNat x.key)) v (s.regAccess.bit PART_STAT.LOCKED)) := by
  rw [State.cmdWrite_common_of_serves v hkey h (gate3_common hd (by omega) hbank),
    State.writeReg_of_legal hd hrwl hwrite (by rw [baseKey_common f (by omega)]; exact hlegal),
    State.writeEffect_common]

/-- The same for a register of a page. -/
theorem State.cmdWrite_page_legal {x : Fld} {d : RegDef} {v : Word} (hd : regDef? x.key = some d) (hlow : 0x80 ≤ x.key)
    (hhigh : x.key < 0x10000) (hrwl : d.rwl = 0) (hwrite : ¬ (d.rw = 0 ∧ d.w1c = 0 ∧ d.wo = 0))
    (hlegal : legalWord f x.key v = true) (h : Serves s f (keyPage x.key)) :
    s.cmdWrite f x v = s.regAccess.writeEffect f x.key v
      (d.merge (s.regAccess.reg x.key) v (s.regAccess.bit PART_STAT.LOCKED)) := by
  rw [State.cmdWrite_of_serves v hlow h (gate3_page f hlow hhigh (by rw [hd]; exact Option.some_ne_none _)),
    State.writeReg_of_legal hd hrwl hwrite (by rw [baseKey, if_pos hhigh]; exact hlegal)]

/-! ### FLUSH -/

/-- The row of `DQ_CTRL`: FLUSH is a command bit. -/
def dqCtrlDef : RegDef := ⟨0x50, 0, 0, 0, 1, 0⟩

theorem regDef_dqCtrl (f : Fn) : regDef? (commonKey f.toNat DQ_CTRL.w.key) = some dqCtrlDef := by cases f <;> decide

theorem legalWord_dqCtrl (f : Fn) (w : Word) : legalWord f 0x50 w = true := by
  rw [legalWord_of_unranged (by decide), extraLegal]
  simp (decide := true) only [if_false]

theorem exec_dqFlush (h : Serves s f 0) : exec (.dqFlush f) s = .next (s.regAccess.flushQueue f) := by
  have hwrite : s.cmdWrite f DQ_CTRL.w 1 = s.regAccess.flushQueue f := by
    rw [State.cmdWrite_common_legal (regDef_dqCtrl f) (by decide) (by decide) rfl (by decide) (legalWord_dqCtrl f _) h]
    simp (decide := true) only [State.writeCommon, baseKey_common, if_true, if_false, false_and]
  rw [← hwrite]
  rfl

/-- A host access changes of the engines at most a message of F0. -/
theorem State.eng_regAccess (s : State) (g : Fn) : ∃ a : Attn, s.regAccess.eng g = { s.eng g with attn := a } := by
  simp only [State.regAccess]
  split
  · exact State.eng_raise1 _ g jWAKE_COLLIDED
  · exact ⟨_, rfl⟩

theorem State.dqLost_regAccess (s : State) : s.regAccess.fget f DQ_LOST.w = s.fget f DQ_LOST.w :=
  State.fget_regAccess (by decide)

theorem State.flushQueue_completes (f : Fn) : Completes (.dqFlush f) (fun s => Serves s f 0)
    (fun s t => (t.eng f).queue = [] ∧ (t.eng f).fill = (s.eng f).fill ∧ t.fget f DQ_LOST.w = s.fget f DQ_LOST.w ∧
      ∀ g, g ≠ f → (t.eng g).queue = (s.eng g).queue) := by
  intro s _ hs
  refine ⟨_, exec_dqFlush hs, ?_, ?_, s.dqLost_regAccess, fun g hg => ?_⟩
  · rw [State.flushQueue, State.eng_setEng]
  · obtain ⟨_, ha⟩ := s.eng_regAccess f
    rw [State.flushQueue, State.eng_setEng, ha]
  · obtain ⟨_, ha⟩ := s.eng_regAccess g
    rw [State.flushQueue, State.eng_setEng_ne _ _ hg, ha]

/-- Settles O48: an append by `append_atThreshold` and `append_belowThreshold`, FLUSH by `State.flushQueue_completes`. -/
theorem queueThresholdAndFlush : Obligations.QueueThresholdAndFlush := by
  unfold Obligations.QueueThresholdAndFlush
  refine ⟨fun s f ws hc => ⟨?_, append_atThreshold hc, append_belowThreshold⟩, State.flushQueue_completes⟩
  obtain ⟨_, ha⟩ := s.eng_append f ws
  rw [ha]

/-! ### A PLAN_EVENT record -/

theorem State.eng_writeRec_ne {g : Fn} (s : State) (r : Rec) (h : g ≠ f) : (s.writeRec f r).eng g = s.eng g := by
  have hraises (l : List Nat) (t : State) : (l.foldl (fun s b => s.raise0 f b) t).eng g = t.eng g := by
    induction l generalizing t with
    | nil => rfl
    | cons b l ih => rw [List.foldl_cons, ih, State.raise0, State.eng_noteAttn_ne _ _ h]; rfl
  rw [State.writeRec_eq]
  split
  · rw [hraises, State.eng_append_ne _ _ h, State.eng_fillPaid_ne _ h]
  · rw [hraises, State.dropCounted]
    dsimp only
    rw [State.raise0, State.eng_noteAttn_ne _ _ h]
    exact State.eng_setEng_ne s _ h

/-- The record of a PLAN_EVENT, before it is counted. -/
def planRec (s : State) (event cause id sec : Nat) : Rec :=
  ⟨0x30, s.stamp, [BitVec.ofNat 16 (event * 0x100 + cause), BitVec.ofNat 16 id] ++ lowHigh sec, [iWATCH_EVENT]⟩

theorem State.planEvent_of_marten {event cause id sec : Nat} (hreset : s.fget f FN_STATE.RESET_BUSY = 0)
    (hmarten : s.boot.marten = true) : s.planEvent f event cause id sec =
      if event = 2 then (s.writeRec f (planRec s event cause id sec)).inc SCHED_CNT_MISSED.w
      else s.writeRec f (planRec s event cause id sec) := by
  simp [State.planEvent, State.deliver, hreset, hmarten, planRec]

/-- Settles O49: the record fits by `State.writeRec_of_room`; the count of a MISSED event is no part of an engine. -/
theorem planEventRecordsHaveTheirFourWords : Obligations.PlanEventRecordsHaveTheirFourWords := by
  unfold Obligations.PlanEventRecordsHaveTheirFourWords
  intro s f event cause id sec hc hreset hmarten hfill hroom
  have howed : s.owedWords f = [] := if_pos hfill
  obtain ⟨hqueue, -, hbits, -⟩ := State.writeRec_of_room (f := f) (r := planRec s event cause id sec) hc
    (by simp [planRec, iWATCH_EVENT]) (by rw [howed]; exact hroom)
  have hwords : Rec.words (planRec s event cause id sec) = [0xC004, BitVec.ofNat 16 (s.ktime % 2 ^ 32 / 0x10000),
      BitVec.ofNat 16 s.ktime, BitVec.ofNat 16 (event * 0x100 + cause), BitVec.ofNat 16 id, BitVec.ofNat 16 sec,
      BitVec.ofNat 16 (sec / 0x10000)] := by
    simp only [Rec.words, planRec, lowHigh, State.stamp, List.cons_append, List.nil_append, List.length_cons, List.length_nil]
    congr 3
    exact BitVec.eq_of_toNat_eq (by simp only [BitVec.toNat_ofNat]; omega)
  have hbit := hbits iWATCH_EVENT (by simp [planRec])
  rw [howed, hwords, List.append_nil] at hqueue
  dsimp only
  rw [State.planEvent_of_marten hreset hmarten]
  refine ⟨?_, ?_, fun g hg => ?_, rfl⟩
  · split <;> exact hqueue
  · split
    · exact (State.get_put_ne _ _ (by cases f <;> decide)).trans hbit
    · exact hbit
  · have hne := congrArg FnEng.queue (s.eng_writeRec_ne (planRec s event cause id sec) hg)
    split <;> exact hne

end Sys2Proof.Machine
end

section
/-! PROOFS. The start condition waits (O43); the second bank is F0's (O39); a write that is ignored changes `FN_ERR` at most
(O52). -/

namespace Sys2Proof.Machine

open R

variable {s : State} {f : Fn}

/-- Settles O43: the start event asks for 2300 mV, and a cycle is no part of the charger (`State.idle_keeps`). -/
theorem startConditionHasNoTimeout : Obligations.StartConditionHasNoTimeout := by
  unfold Obligations.StartConditionHasNoTimeout
  refine ⟨fun s hlow => ?_, fun s _ hp => ⟨_, step_of_idle hp, ?_⟩⟩
  · have hnot : ¬ (s.boot.startWait ∧ ¬ s.pins.porAsserted ∧ 2300 ≤ s.get VRES_MEAS.w) := by omega
    have hexec : execStartCondition s = .next s := by rw [execStartCondition, if_neg hnot]
    exact hexec
  · have hidle := s.idle_keeps .refl (within?_self _)
    have ⟨_, _, _, hreg, _⟩ := hidle
    exact ⟨hidle.same (a := .boot) (by decide), hidle.same (a := .power) (by decide), hreg _ (by decide)⟩

/-! ### The second bank -/

/-- The judgement of an access of a tenant to the second bank: no register stands there. -/
theorem State.gate_secondBank {off : Nat} {write : Bool} (hf : f ≠ .f0) (hready : s.mode.ready = true)
    (hbusy : s.fget f FN_STATE.RESET_BUSY = 0) (hload : s.hostLoading = false)
    (hoff : off = INT_STAT1.w.key ∨ off = INT_EN1.w.key) :
    s.gate f off (some (commonKey f.toNat off)) write false = .reserved := by
  have hlt : off < 0x10000 := by rcases hoff with h | h <;> rw [h] <;> decide
  have h2 : s.gate2 f 0 write = .serve := by simp [State.gate2]
  have h3 : gate3 f (commonKey f.toNat off) = .reserved := by
    rw [gate3, baseKey_common f hlt, if_pos (.inr ⟨hf, hoff⟩)]
  simp only [State.gate, State.gate1_serve _ _ _ hready hbusy hload, keyPage_common, h2, h3]

theorem State.keyAt_common (s : State) (f : Fn) {off : Nat} (h : off < 0x80) : s.keyAt f off = some (commonKey f.toNat off) :=
  if_pos h

/-- A write of reserved space changes nothing beyond the access. -/
theorem exec_registerWrite_of_reserved {off : Nat} {key : Option Nat} (v : Word) (hready : s.mode.ready = true)
    (hoff : off < 0x100) (hkey : s.regAccess.keyAt f off = key) (hgate : s.regAccess.gate f off key true false = .reserved) :
    exec (.registerWrite f off v) s = .next s.regAccess := by
  simp [exec_registerWrite, execRegisterWrite, hready, State.hostWrite, State.writeKey, Nat.mod_eq_of_lt hoff, hkey, hgate]

/-- The row of `INT_ROUTE`. -/
def intRouteDef : RegDef := ⟨0x14, 0, 0xFF, 0, 0, 0⟩

theorem regDef_intRoute (f : Fn) : regDef? (commonKey f.toNat INT_ROUTE.w.key) = some intRouteDef := by cases f <;> decide

theorem legalWord_intRoute (f : Fn) (w : Word) : legalWord f 0x14 w = true := by
  rw [legalWord_of_unranged (by decide), extraLegal]
  simp (decide := true) only [if_false]

/-- A tenant's write of `INT_ROUTE` stores bits 3 to 0 alone. -/
theorem State.writeCommon_intRoute (s : State) (hf : f ≠ .f0) (v new : Word) :
    s.writeCommon f (commonKey f.toNat INT_ROUTE.w.key) v new = s.setReg (commonKey f.toNat INT_ROUTE.w.key) (new &&& 0x000F) := by
  simp (decide := true) only [State.writeCommon, baseKey_common, if_true, if_false, hf, ne_eq, not_false_eq_true, and_true]

/-- A served write of `INT_ROUTE` by a tenant. -/
theorem exec_registerWrite_intRoute (v : Word) (hf : f ≠ .f0) (h : Serves s f 0) :
    ∃ new : Word, exec (.registerWrite f INT_ROUTE.w.key v) s =
      .next (s.regAccess.setReg (commonKey f.toNat INT_ROUTE.w.key) (new &&& 0x000F)) := by
  have hkey : s.regAccess.keyAt f INT_ROUTE.w.key = some (commonKey f.toNat INT_ROUTE.w.key) :=
    State.keyAt_common _ f (by decide)
  rw [exec_registerWrite_of_serves v (by decide) hkey (by rwa [keyPage_common])
      (gate3_common (regDef_intRoute f) (by decide) (by decide)),
    State.writeReg_of_legal (regDef_intRoute f) rfl (by decide)
      (by rw [baseKey_common f (by decide)]; exact legalWord_intRoute f v), State.writeEffect_common,
    State.writeCommon_intRoute _ hf]
  exact ⟨_, rfl⟩

/-- Settles O39: the second bank by `State.gate_secondBank`, the route by `exec_registerWrite_intRoute`. -/
theorem tenantsHaveNoSecondBank : Obligations.TenantsHaveNoSecondBank := by
  unfold Obligations.TenantsHaveNoSecondBank
  intro f s v hf hc hready hbusy hload
  have hserves : Serves s f 0 := ⟨hready, hbusy, hload, .inr (.inl rfl)⟩
  refine ⟨fun off hoff => ?_, ?_⟩
  · have hlt : off < 0x80 := by rcases hoff with h | h <;> rw [h] <;> decide
    obtain ⟨hready', hbusy', hload', -⟩ := hserves.regAccess
    refine ⟨exec_registerWrite_of_reserved v hready (by omega) (State.keyAt_common _ f hlt)
      (State.gate_secondBank hf hready' hbusy' hload' hoff), fun p => ?_⟩
    simp only [State.fetch, s.keyAt_common f hlt, State.gate_secondBank hf hready hbusy hload hoff]
  · obtain ⟨new, hexec⟩ := exec_registerWrite_intRoute v hf hserves
    refine ⟨_, hexec, ?_⟩
    have ⟨hregs, _⟩ := State.canon_regAccess hc
    have hreg := State.reg_setReg hregs (commonKey f.toNat INT_ROUTE.w.key) (new &&& 0x000F)
    have hget : (s.regAccess.setReg (commonKey f.toNat INT_ROUTE.w.key) (new &&& 0x000F)).fget f INT_ROUTE.w =
        (new &&& 0x000F).toNat := by
      rw [State.fget, State.get, show (INT_ROUTE.w.on f.toNat).key = commonKey f.toNat INT_ROUTE.w.key from rfl, hreg]
      rw [show (INT_ROUTE.w.on f.toNat).lo = 0 from rfl, show (INT_ROUTE.w.on f.toNat).size = 2 ^ 16 from rfl, Nat.pow_zero,
        Nat.div_one, Nat.mod_eq_of_lt (BitVec.isLt _)]
    rw [hget, BitVec.toNat_and]
    have hle : new.toNat &&& (0x000F : Word).toNat ≤ 15 := Nat.and_le_right
    omega

/-! ### Writes that are ignored -/

/-- Every register with an RWL bit is outside what a host access changes. -/
theorem lockable_not_access {k : Nat} {d : RegDef} (hd : regDef? k = some d) (h : d.rwl ≠ 0) :
    regIn (areasMask Area.access) k = false := by
  have hpages : (List.range 0x100).all (fun p => (RegTable.page p).all fun d =>
      d.rwl == 0 || !regIn (areasMask Area.access) d.key) = true := by decide +kernel
  have hcommon : RegTable.common.all (fun d => d.rwl == 0) = true := by decide +kernel
  unfold regDef? at hd
  split at hd
  · have hkey : d.key = k := by simpa using List.find?_some hd
    have hmem := List.mem_of_find?_eq_some hd
    have hrow := List.all_eq_true.mp (List.all_eq_true.mp hpages (k / 0x100) (List.mem_range.mpr (by omega))) d hmem
    simpa [h, hkey] using hrow
  · have hrow := List.all_eq_true.mp hcommon d (List.mem_of_find?_eq_some hd)
    exact absurd (by simpa using hrow) h

theorem State.keyAt_regAccess (s : State) (f : Fn) (off : Nat) : s.regAccess.keyAt f off = s.keyAt f off := by
  rw [State.keyAt, State.fget_regAccess (by decide), ← State.keyAt]

theorem State.locked_regAccess (s : State) : s.regAccess.bit PART_STAT.LOCKED = s.bit PART_STAT.LOCKED :=
  State.bit_regAccess (by decide)

/-- Outside the second bank of F0, step 3 asks for a register alone. -/
theorem gate3_of_bank {k : Nat} (h : f ≠ .f0 → k % 0x10000 ≠ INT_STAT1.w.key ∧ k % 0x10000 ≠ INT_EN1.w.key) :
    gate3 f k = if regDef? k = none then .reserved else .serve := by
  have hbase : baseKey k = k % 0x10000 := by unfold baseKey; split <;> omega
  have hbank : ¬ (f ≠ .f0 ∧ (baseKey k = INT_STAT1.w.key ∨ baseKey k = INT_EN1.w.key)) := by
    rw [hbase]
    rintro ⟨hf, h1 | h1⟩
    · exact (h hf).1 h1
    · exact (h hf).2 h1
  simp only [gate3, hbank, or_false, Option.isNone_iff_eq_none]

/-- Settles O52: `State.writeReg` branch by branch, behind the judgement of `State.gate_of_serves`. -/
theorem ignoredWritesHaveNoSideEffect : Obligations.IgnoredWritesHaveNoSideEffect := by
  unfold Obligations.IgnoredWritesHaveNoSideEffect
  intro f off k v s _ hoff hkey hserves hbank
  have hkey' := (s.keyAt_regAccess f off).trans hkey
  have hg3 := gate3_of_bank hbank
  refine ⟨fun hnone => ?_, fun d hd => ?_⟩
  · have ⟨hready, _⟩ := hserves
    exact exec_registerWrite_of_reserved v hready hoff hkey' ((State.gate_of_serves off hserves.regAccess).trans
      (hg3.trans (if_pos hnone)))
  · rw [exec_registerWrite_of_serves v hoff hkey' hserves (hg3.trans (if_neg (by simp [hd])))]
    simp only [State.writeReg, hd, s.locked_regAccess]
    refine ⟨fun hrw hw1c hwo hrwl => ?_, fun hsome hillegal => ?_, fun hrw hw1c hwo hrwl hlocked hlegal => ?_⟩
    · rw [if_pos ⟨hrw, hw1c, hwo, hrwl⟩]
    · rw [if_neg (by tauto), if_pos (by simp [hillegal])]
    · have hsame : s.regAccess.reg k = s.reg k := State.reg_regAccess (lockable_not_access hd hrwl)
      rw [if_neg (by tauto), if_neg (by simp [hsame, hlocked, hlegal])]
      simp only [hrw, hw1c, hwo, hlocked, hsame, and_self, if_true, Bool.true_and, bne_iff_ne, ne_eq, ite_not]

end Sys2Proof.Machine
end

section
/-! PROOFS. What a function does to its own common part leaves every other tenant (O51). -/

namespace Sys2Proof.Machine

open R

variable {s t u : State} {f g : Fn}

/-- From `s` to `t` function `g` keeps its engine, its plan engine and its common part but the two registers that show plans. -/
def Spares (g : Fn) (s t : State) : Prop :=
  t.eng g = s.eng g ∧ t.plan g = s.plan g ∧ ∀ off, off < 0x80 → off ≠ PLAN_STAT.w.key → off ≠ PLAN_COUNT.w.key →
    t.reg (commonKey g.toNat off) = s.reg (commonKey g.toNat off)

namespace Spares

theorem refl : Spares g s s := ⟨rfl, rfl, fun _ _ _ _ => rfl⟩

theorem trans (h : Spares g s t) (k : Spares g t u) : Spares g s u :=
  have ⟨heng, hplan, hreg⟩ := h
  have ⟨keng, kplan, kreg⟩ := k
  ⟨keng.trans heng, kplan.trans hplan, fun off h1 h2 h3 => (kreg off h1 h2 h3).trans (hreg off h1 h2 h3)⟩

theorem ite {c : Prop} [Decidable c] (h : Spares g s t) (k : Spares g s u) : Spares g s (if c then t else u) := by
  split
  · exact h
  · exact k

/-- An operation that touches no engine, no plan and of the common part only what shows plans. -/
theorem of_keeps {m : Nat} (h : Keeps m s t) (heng : m.testBit 13 = false) (hplan : m.testBit 14 = false)
    (hcom : (List.range 0x80).all (fun off => off == PLAN_STAT.w.key || off == PLAN_COUNT.w.key || !comIn m off) = true) :
    Spares g s t := by
  have ⟨_, _, _, hreg, _⟩ := h
  have hfns : t.fns = s.fns := h.same (a := .engines) heng
  have hplans : t.plans = s.plans := h.same (a := .plans) hplan
  refine ⟨congrArg (fun p => PerFn.get p g) hfns, congrArg (fun p => PerFn.get p g) hplans, fun off hoff hstat hcount =>
    hreg _ ?_⟩
  have hbit := List.all_eq_true.mp hcom off (List.mem_range.mpr hoff)
  have hout : comIn m off = false := by simpa [hstat, hcount] using hbit
  exact (regIn_on m g ⟨off, 15, 0⟩).trans hout

theorem setEng (h : g ≠ f) (e : FnEng) : Spares g s (s.setEng f e) :=
  ⟨s.eng_setEng_ne e h, rfl, fun _ _ _ _ => rfl⟩

theorem setPlan (h : g ≠ f) (e : PlanEng) : Spares g s (s.setPlan f e) :=
  ⟨rfl, s.plan_setPlan_ne e h, fun _ _ _ _ => rfl⟩

theorem fput (h : g ≠ f) {x : Fld} (hx : x.key < 0x10000) (v : Nat) : Spares g s (s.fput f x v) :=
  ⟨rfl, rfl, fun off hoff _ _ => State.reg_put_ne s v fun hk => h ((commonKey_inj (by omega) hx).mp hk).1⟩

theorem setReg (h : g ≠ f) {off : Nat} (hoff : off < 0x10000) (w : Word) : Spares g s (s.setReg (commonKey f.toNat off) w) :=
  ⟨rfl, rfl, fun _ hlt _ _ => s.reg_setReg_ne w fun hk => h ((commonKey_inj (by omega) hoff).mp hk).1⟩

theorem setErr (h : g ≠ f) (code : Nat) : Spares g s (s.setErr f code) := fput h (by decide) code

/-- A source set in another function. -/
theorem setSource (h : g ≠ f) {off : Nat} (hoff : off < 0x10000) (b src : Nat) : Spares g s (s.setSource f off b src) := by
  have hnote (u : State) : Spares g u (u.noteAttn f src) := by
    refine ⟨State.eng_noteAttn_ne u src h, ?_, fun off _ _ _ =>
      State.reg_noteAttn u f src (wakeHreason_not_common g off)⟩
    exact congrArg (fun p => PerFn.get p g) ((u.noteAttn_keeps f src .refl (within?_self _)).same (a := .plans) (by decide))
  have hcount (u : State) : Spares g u (u.count f src) := ⟨rfl, rfl, fun _ _ _ _ => rfl⟩
  exact ((fput h hoff 1).trans (hcount _)).trans (hnote _)

theorem raise0 (h : g ≠ f) (b : Nat) : Spares g s (s.raise0 f b) := setSource h (by decide : (0x10 : Nat) < 0x10000) b b

theorem of_frame (heng : t.fns = s.fns) (hplan : t.plans = s.plans) (hreg : t.regs = s.regs) : Spares g s t :=
  ⟨congrArg (fun p => PerFn.get p g) heng, congrArg (fun p => PerFn.get p g) hplan, fun _ _ _ _ =>
    congrArg (fun r => Sparse.get resetWord r _) hreg⟩

/-! ### The operations -/

theorem regAccess (h : g ≠ .f0) : Spares g s s.regAccess := by
  simp only [State.regAccess]
  split
  · exact (of_frame rfl rfl rfl).trans (setSource h (by decide : (0x11 : Nat) < 0x10000) _ _)
  · exact of_frame rfl rfl rfl

theorem showPlans : Spares g s s.showPlans :=
  of_keeps (s.showPlans_keeps .refl (within?_self _)) (by decide) (by decide) (by decide)

theorem serviceWake : Spares g s s.serviceWake :=
  of_keeps (s.serviceWake_keeps .refl (within?_self _)) (by decide) (by decide) (by decide)

theorem showStage (a b : Nat) : Spares g s (s.showStage a b) :=
  of_keeps (s.showStage_keeps a b .refl (within?_self _)) (by decide) (by decide) (by decide)

theorem showMaintain : Spares g s s.showMaintain :=
  of_keeps (s.showMaintain_keeps .refl (within?_self _)) (by decide) (by decide) (by decide)

theorem attnStat (a b : Nat) : Spares g s (s.attnStat f a b) :=
  of_keeps (s.attnStat_keeps f a b .refl (within?_self _)) (by decide) (by decide) (by decide)

theorem attnOver (h : g ≠ f) : Spares g s (s.attnOver f) :=
  ((setEng h _).trans (fput h (by decide) 0)).trans (fput h (by decide) 0)

theorem attnCancel (h : g ≠ f) : Spares g s (s.attnCancel f) := by
  unfold State.attnCancel State.attnWithdraw
  exact ite refl (ite (of_frame rfl rfl rfl) ((attnStat _ _).trans (attnOver h)))

theorem flushQueue (h : g ≠ f) : Spares g s (s.flushQueue f) := setEng h _

theorem setMemAddr (h : g ≠ f) (a : Nat) : Spares g s (s.setMemAddr f a) :=
  ((setEng h _).trans (fput h (by decide) _)).trans (fput h (by decide) _)

theorem memAddrWrite (h : g ≠ f) (v : Nat) : Spares g s (s.memAddrWrite f v) :=
  (fput h (by decide) _).trans (setMemAddr h _)

theorem dqRead (h : g ≠ f) : Spares g s (s.dqRead f).2 := by
  unfold State.dqRead
  dsimp only
  split
  · exact refl
  · exact setEng h _

theorem outcome (h : g ≠ f) (err : Nat) (res : List Word) : Spares g s (s.outcome f err res) := by
  unfold State.outcome
  split
  · exact setEng h _
  · exact refl

theorem finishOp (h : g ≠ f) (err : Nat) (res : List Word) : Spares g s (s.finishOp f err res) := by
  have hres (i : Nat) (hi : i < 4) (u : State) : Spares g u (u.fput f (CMD_RES.w i) (res.getD i 0).toNat) :=
    fput h (show 0x29 + i < 0x10000 by omega) _
  have hresults : Spares g s _ := ((((setEng h { s.eng f with op := none }).trans (hres 0 (by decide) _)).trans
    (hres 1 (by decide) _)).trans (hres 2 (by decide) _)).trans (hres 3 (by decide) _)
  unfold State.finishOp
  refine (((Spares.trans ?_ (ite refl (setErr h err))).trans (fput h (by decide) 0)).trans (fput h (by decide) 1)).trans
    (raise0 h _)
  exact hresults.trans (fput h (by decide) err)

theorem selftestBegin (h : g ≠ f) : Spares g s (s.selftestBegin f) := by
  unfold State.selftestBegin
  exact ite (outcome h _ _) (ite (outcome h _ _) ((of_frame rfl rfl rfl).trans showMaintain))

theorem flintJoin (code : Nat) : Spares g s (s.flintJoin f code) := by
  unfold State.flintJoin
  exact ite (of_frame rfl rfl rfl) refl

theorem cmdGo (h : g ≠ f) : Spares g s (s.cmdGo f) := by
  unfold State.cmdGo
  refine ite (setErr h _) ?_
  have hbusy : Spares g s (((s.fput f CMD_STAT.BUSY 1).fput f CMD_STAT.DONE 0).fput f CMD_STAT.ABORTED 0) :=
    ((fput h (by decide) 1).trans (fput h (by decide) 0)).trans (fput h (by decide) 0)
  refine hbusy.trans (ite (finishOp h _ _) (ite (finishOp h _ _) ?_))
  refine (((setEng h _).trans (ite (showStage _ _) refl)).trans (ite (selftestBegin h) (flintJoin _))).trans serviceWake

theorem planGuard (h : g ≠ f) {act : State} (hact : Spares g s act) : Spares g s (s.planGuard f act) :=
  ite (setErr h _) (ite (setErr h _) hact)

theorem planBegin (h : g ≠ f) : Spares g s (s.planBegin f) :=
  planGuard h (((((setPlan h _).trans (fput h (by decide) 0)).trans (fput h (by decide) 1)).trans
    (fput h (by decide) 0)).trans showPlans)

theorem wrec15 (h : g ≠ f) (v : Word) : Spares g s (s.wrec15 f v) := by
  unfold State.wrec15
  refine ite (setErr h _) ((fput h (by decide) v.toNat).trans (ite (setErr h _) (ite (setErr h _) ?_)))
  exact ((setPlan h _).trans (ite (fput h (by decide) _) (fput h (by decide) _))).trans showPlans

theorem loadWindow (h : g ≠ f) (r : List Word) : Spares g s (s.loadWindow f r) := by
  have hfold : ∀ (l : List Nat) (u : State), (∀ i ∈ l, i < 16) →
      Spares g u (l.foldl (fun s i => s.fput f (WREC.w i) (r.getD i 0).toNat) u) := by
    intro l
    induction l with
    | nil => exact fun _ _ => refl
    | cons i l ih =>
      intro u hl
      have hi : i < 16 := hl i List.mem_cons_self
      exact (fput h (show 0x40 + i < 0x10000 by omega) _).trans (ih _ fun j hj => hl j (List.mem_cons_of_mem _ hj))
  exact hfold _ s fun i hi => List.mem_range.mp hi

theorem planWidx (h : g ≠ f) (v : Word) : Spares g s (s.planWidx f v) :=
  ite (setErr h _) (((fput h (by decide) _).trans (fput h (by decide) 0)).trans (loadWindow h _))

/-! ### The commands -/

/-- A write of a register of the function's own common part spares another when the register's effect does. -/
theorem cmdWrite (h : g ≠ f) (h0 : g ≠ .f0) {x : Fld} (v : Word) (hx : x.key < 0x80)
    (heff : ∀ (u : State) (new : Word), Spares g u (u.writeCommon f (commonKey f.toNat x.key) v new)) :
    Spares g s (s.cmdWrite f x v) := by
  have hreg (u : State) : Spares g u (u.writeReg f (commonKey f.toNat x.key) v).2 := by
    unfold State.writeReg
    split
    · exact refl
    · dsimp only
      split
      · exact refl
      · split
        · exact setErr h _
        · rw [State.writeEffect_common]
          refine ite (Spares.trans (ite refl (heff u _)) (setErr h _)) (ite refl (heff u _))
  have hkey (u : State) (off : Nat) : Spares g u (u.writeKey f off (some (commonKey f.toNat x.key)) v false).2 := by
    unfold State.writeKey
    split
    · rename_i hs
      cases hs
      exact hreg u
    · exact setErr h _
    · exact refl
  unfold State.cmdWrite
  rw [if_pos hx]
  exact (ite (regAccess h0) refl).trans (hkey _ _)

theorem cmdRead (h : g ≠ f) (h0 : g ≠ .f0) {off : Nat} {get : State → Word × State}
    (hget : ∀ u, Spares g u (get u).2) : Spares g s (s.cmdRead f off get) := by
  unfold State.cmdRead
  split
  · exact ((regAccess h0).trans (hget _)).trans (of_frame rfl rfl rfl)
  · exact (setErr h _).trans (of_frame rfl rfl rfl)
  · exact of_frame rfl rfl rfl

end Spares

/-- What each register of the list does to the function's own part. -/
theorem writeCommon_spares (h : g ≠ f) (v new : Word) (s : State) {off : Nat}
    (hoff : off ∈ [FN_ERR.w.key, MEM_ADDR_L.w.key, DQ_CTRL.w.key, CMD_GO.w.key, PLAN_WIDX.w.key, (WREC.w 15).key,
      ATTN_ACK.w.key]) : Spares g s (s.writeCommon f (commonKey f.toNat off) v new) := by
  simp only [List.mem_cons, List.not_mem_nil, or_false] at hoff
  rcases hoff with rfl | rfl | rfl | rfl | rfl | rfl | rfl <;>
    simp (decide := true) only [State.writeCommon, baseKey_common, if_true, if_false, false_and]
  · exact .setErr h 0
  · exact .memAddrWrite h _
  · exact .ite (.flushQueue h) .refl
  · exact .ite .refl (.ite (.setErr h _) (.cmdGo h))
  · exact .planWidx h v
  · exact .wrec15 h v
  · exact .ite (.attnCancel h) .refl

/-- PLAN_CTRL with BEGIN alone. -/
theorem writeCommon_begin_spares (h : g ≠ f) (new : Word) (s : State) :
    Spares g s (s.writeCommon f (commonKey f.toNat PLAN_CTRL.w.key) 1 new) := by
  simp (decide := true) only [State.writeCommon, baseKey_common, if_true, if_false, false_and, State.woBits, List.foldl]
  exact ((Spares.setErr h 0).trans (.planBegin h)).trans (.setErr h _)

/-- Settles O51: each command is a write or a read of the function's own common part. -/
theorem functionsOwnAccessesLeaveOtherTenants : Obligations.FunctionsOwnAccessesLeaveOtherTenants := by
  unfold Obligations.FunctionsOwnAccessesLeaveOtherTenants
  intro f g v s _ h h0 c hc
  have hwrite {x : Fld} (hx : x.key < 0x80) (w : Word) (hmem : x.key ∈ [FN_ERR.w.key, MEM_ADDR_L.w.key, DQ_CTRL.w.key,
      CMD_GO.w.key, PLAN_WIDX.w.key, (WREC.w 15).key, ATTN_ACK.w.key]) : Spares g s (s.cmdWrite f x w) :=
    .cmdWrite h h0 w hx fun u new => writeCommon_spares h w new u hmem
  simp only [List.mem_cons, List.not_mem_nil, or_false] at hc
  rcases hc with rfl | rfl | rfl | rfl | rfl | rfl | rfl | rfl | rfl
  · exact ⟨_, rfl, hwrite (x := FN_ERR.w) (by decide) v (by decide)⟩
  · exact ⟨_, rfl, hwrite (x := MEM_ADDR_L.w) (by decide) v (by decide)⟩
  · exact ⟨_, rfl, hwrite (x := DQ_CTRL.w) (by decide) 1 (by decide)⟩
  · exact ⟨_, rfl, Spares.cmdRead h h0 fun _ => .dqRead h⟩
  · exact ⟨_, rfl, hwrite (x := CMD_GO.w) (by decide) v (by decide)⟩
  · exact ⟨_, rfl, Spares.cmdWrite h h0 1 (by decide) fun u new => writeCommon_begin_spares h new u⟩
  · exact ⟨_, rfl, hwrite (x := PLAN_WIDX.w) (by decide) v (by decide)⟩
  · exact ⟨_, rfl, hwrite (x := WREC.w 15) (by decide) v (by decide)⟩
  · exact ⟨_, rfl, hwrite (x := ATTN_ACK.w) (by decide) v (by decide)⟩

end Sys2Proof.Machine
end

section
/-! PROOFS. A slot that falls due below its target starts with RESERVOIR_LOW (O42, R63). -/

namespace Sys2Proof.Machine

open R

variable {s : State} {f : Fn}

/-- What the start of a reception changes after RESERVOIR_LOW has been set: no counter, and no status register. -/
def rxAreas : List Area :=
  [.mode, .engines, .sched, .openValues, .frontEnd, .fm, .dab, .lf, .time, .datacast, .reg MODE.w, .reg DAY_USE_E.w,
    .reg DAY_USE_T.w, .page 1, .page 0x0B, .page 0x0C, .page 0x0E, .page 0x0F, .page 0x10]

/-- An occurrence on a free tuner. -/
theorem State.startRx_of_free {r : Run} {w : Watch} (hhold : s.bit FES_STAT.HOLD = false) (hrx : s.fe.rx = none) :
    s.startRx r w = ((((s.rxStart (recKfc w.words) (recSub w.words) []).addRun r).carry r.fn w.words).rxFollow).showActs := by
  simp [State.startRx, State.joins, hhold, hrx]

theorem State.startRx_keeps_rx (s : State) (r : Run) (w : List Word) (kfc sub : Nat) : Keeps (areasMask rxAreas) s
    ((((s.rxStart kfc sub []).addRun r).carry r.fn w).rxFollow).showActs :=
  State.showActs_keeps _ (State.rxFollow_keeps _ (State.carry_keeps _ _ _ (State.addRun_keeps _ _
    (State.rxStart_keeps _ _ _ _ .refl (by decide)) (by decide)) (by decide)) (by decide)) (by decide)

/-- The occurrence added runs. -/
theorem State.mem_running_addRun (s : State) (r : Run) : r ∈ (s.addRun r).sched.running :=
  List.mem_append_right _ List.mem_cons_self

theorem State.running_started (s : State) (r : Run) (w : List Word) :
    r ∈ (((s.addRun r).carry r.fn w).rxFollow).showActs.sched.running := by
  have hkeeps : Keeps (areasMask [.datacast, .frontEnd, .page 0x0E, .reg MODE.w]) (s.addRun r)
      (((s.addRun r).carry r.fn w).rxFollow).showActs :=
    State.showActs_keeps _ (State.rxFollow_keeps _ (State.carry_keeps _ _ _ .refl (by decide)) (by decide)) (by decide)
  have hsched := hkeeps.same (a := .sched) (by decide)
  exact (congrArg Sched.running hsched).symm ▸ s.mem_running_addRun r

/-! ### What a set of a source leaves of the mode engine -/

/-- A request to wake the host changes of the mode engine the held reason alone. -/
theorem State.mode_wantHost (s : State) (r : Nat) : ∃ o, (s.wantHost r).mode = { s.mode with heldReason := o } := by
  simp only [State.wantHost]
  split
  · split <;> exact ⟨_, rfl⟩
  · exact ⟨_, rfl⟩

theorem State.mode_setSource (s : State) (f : Fn) (off b src : Nat) :
    ∃ o, (s.setSource f off b src).mode = { s.mode with heldReason := o } := by
  obtain ⟨t, ht, heq⟩ := ((s.fput f ⟨off, b, b⟩ 1).count f src).noteAttn_cases f src
  have hmode : ∃ o, t.mode = { s.mode with heldReason := o } := by
    rcases ht with rfl | rfl
    · exact ⟨s.mode.heldReason, rfl⟩
    · exact State.mode_wantHost _ 4
  obtain ⟨o, ho⟩ := hmode
  refine ⟨o, ?_⟩
  rcases heq with heq | ⟨_, heq⟩
  · rw [State.setSource, heq, ho]
  · rw [State.setSource, heq]
    exact ho

theorem State.awake_raise1 (s : State) (b : Nat) : (s.raise1 b).awake = s.awake := by
  obtain ⟨_, hmode⟩ := s.mode_setSource .f0 0x11 b (16 + b)
  have hboot : (s.raise1 b).boot = s.boot := (s.raise1_keeps b .refl (within?_self _)).same (a := .boot) (by decide)
  rw [State.awake, State.awake, hboot, State.raise1_eq, hmode]

/-! ### The start -/

/-- A slot that is due, with the tuner free, the unit awake and `VRES` more than 100 mV below its target: RESERVOIR_LOW sets,
then the reception starts. -/
theorem exec_slotStart_low {idx nominal start stop : Nat} {w : Watch}
    (hdue : s.slotDue f idx = some (w, nominal, start, stop)) (hruns : s.runsPlans = true) (hawake : s.awake = true)
    (hlow : s.get VRES_MEAS.w + 100 < s.tgtMv) (hkind : recKind w.words ≠ kCAPT) (hhold : s.bit FES_STAT.HOLD = false) :
    ∃ p : PlanEng, exec (.slotStart f idx) s = .next ((((s.setPlan f p).raise1 jRESERVOIR_LOW).demandXo).startRx
      ⟨f, idx, nominal, stop + (s.ktime - start), false⟩ w) := by
  have hheld : s.heldOff w nominal = false := by simp [State.heldOff, hhold]
  let p : PlanEng := { s.plan f with plan := (s.plan f).plan.set idx { w with last := some nominal } }
  have hruns' : (s.setPlan f p).runsPlans = true := hruns
  have hlow' : (s.setPlan f p).get VRES_MEAS.w + 100 < (s.setPlan f p).tgtMv := hlow
  have hawake' : ((s.setPlan f p).raise1 jRESERVOIR_LOW).awake = true := (State.awake_raise1 _ _).trans hawake
  have hktime : ((s.setPlan f p).raise1 jRESERVOIR_LOW).demandXo.ktime = s.ktime :=
    (State.demandXo_keeps _ (State.raise1_keeps _ _ .refl (by decide)) (by decide) :
      Keeps (areasMask Area.access) (s.setPlan f p) _).same (a := .ktime) (by decide)
  have hexec : execSlotStart f idx s = .next ((((s.setPlan f p).raise1 jRESERVOIR_LOW).demandXo).startRx
      ⟨f, idx, nominal, stop + (s.ktime - start), false⟩ w) := by
    unfold execSlotStart
    simp only [hdue, hheld, Bool.false_eq_true, if_false]
    rw [if_neg (by simpa using hruns'), if_pos hlow', if_neg (by simpa using hawake'), if_neg hkind, if_neg hkind, hktime]
  exact ⟨p, hexec⟩

/-- Settles O42: the start by `exec_slotStart_low`, and what the reception leaves by `State.startRx_keeps_rx`. -/
theorem slotDueBelowTargetStartsWithReservoirLow : Obligations.SlotDueBelowTargetStartsWithReservoirLow := by
  unfold Obligations.SlotDueBelowTargetStartsWithReservoirLow
  rintro f idx w nominal start stop s hc ⟨hdue, hruns, hawake, hlow, hkind, hhold, hrx⟩
  obtain ⟨p, hexec⟩ := exec_slotStart_low hdue hruns hawake hlow hkind hhold
  let u := (s.setPlan f p).raise1 jRESERVOIR_LOW
  have hcanon : (s.setPlan f p).Canon := hc
  have hpre : Keeps (areasMask Area.access) (s.setPlan f p) u.demandXo :=
    State.demandXo_keeps _ (State.raise1_keeps _ _ .refl (by decide)) (by decide)
  have hhold' : u.demandXo.bit FES_STAT.HOLD = false := by
    rw [State.bit, hpre.get_eq (by decide)]
    exact hhold
  have hrx' : u.demandXo.fe.rx = none := (congrArg Fe.rx (hpre.same (a := .frontEnd) (by decide))).trans hrx
  rw [State.startRx_of_free hhold' hrx'] at hexec
  let r : Run := ⟨f, idx, nominal, stop + (s.ktime - start), false⟩
  have hrest : Keeps (areasMask rxAreas) u _ := (State.demandXo_keeps u .refl (by decide)).trans
    (u.demandXo.startRx_keeps_rx r w.words (recKfc w.words) (recSub w.words))
  refine ⟨_, hexec, ?_, State.running_started _ r w.words, ?_⟩
  · exact (hrest.get_eq (by decide)).trans (State.fget_setSource_same hcanon (by decide) (16 + jRESERVOIR_LOW))
  · have hcnts := hrest.same (a := .counters) (by decide)
    exact (congrArg (fun l => (Sparse.get (fun _ => (0 : Word)) l (Fn.f0.toNat * 32 + 16)).toNat) hcnts).trans
      (State.cnt_setSource_same (s := s.setPlan f p) hcanon)

end Sys2Proof.Machine
end

section
/-! PROOFS. Reading a field of the next state: after a field has been written, after a change of an engine alone, and after an
interrupt source has been set. The statements about what a command leaves are read off its result with these rules. -/

namespace Sys2Proof.Machine

open R

variable {s t u : State} {f g : Fn} {x y : Fld} {v : Nat}

/-! ### The next state of a command -/

/-- A command that goes on to a known state, of which the rest is read. -/
theorem Completes.intro {c : Instr} {H : State → Prop} {E : State → State → Prop} (next : State → State)
    (hexec : ∀ s, H s → exec c s = .next (next s)) (hend : ∀ s, s.Canon → H s → E s (next s)) : Completes c H E :=
  fun s hc hs => ⟨next s, hexec s hs, hend s hc hs⟩

/-! ### The canonical form -/

/-- The canonical form, under a name that the simplifier does not take apart. -/
def State.Tidy (s : State) : Prop := s.Canon

theorem State.Canon.tidy (h : s.Canon) : s.Tidy := h

theorem State.Tidy.canon (h : s.Tidy) : s.Canon := h

@[simp] theorem State.Tidy.regs (h : s.Tidy) : Sparse.wf resetWord s.regs = true :=
  have ⟨hregs, _⟩ := h.canon
  hregs

@[simp] theorem State.Tidy.cnts (h : s.Tidy) : Sparse.wf (fun _ => 0#16) s.cnts = true :=
  have ⟨_, hcnts, _⟩ := h.canon
  hcnts

@[simp] theorem State.Tidy.latches (h : s.Tidy) : Sparse.wf (fun _ => 0#16) s.latches = true :=
  have ⟨_, _, hlatches, _⟩ := h.canon
  hlatches

@[simp] theorem State.Tidy.mem (h : s.Tidy) : Sparse.wf memDefault s.mem = true :=
  have ⟨_, _, _, hmem⟩ := h.canon
  hmem

@[simp] theorem State.tidy_put (h : s.Tidy) : (s.put x v).Tidy := State.canon_put x v h

@[simp] theorem State.tidy_fput (h : s.Tidy) : (s.fput f x v).Tidy := State.canon_put _ v h

/-- An operation keeps the canonical form. -/
theorem Keeps.tidy {m : Nat} (h : Keeps m s t) (hs : s.Tidy) : t.Tidy := h.canon hs

/-! ### Fields -/

/-- A field lies inside its register. -/
def Fld.sound (x : Fld) : Bool := decide (x.lo ≤ x.hi) && decide (x.hi < 16)

theorem Fld.sound_iff : x.sound = true ↔ x.lo ≤ x.hi ∧ x.hi < 16 := by
  rw [Fld.sound, Bool.and_eq_true, decide_eq_true_eq, decide_eq_true_eq]

/-- The field written reads what was written. -/
@[simp] theorem State.get_put_self (h : s.Tidy) (hx : x.sound = true) : (s.put x v).get x = v % x.size :=
  have ⟨hle, hlt⟩ := Fld.sound_iff.mp hx
  State.get_put_same h.regs hle hlt v

/-- Any field apart from it reads as before. -/
@[simp] theorem State.get_put_other (h : s.Tidy) (hx : x.sound = true) (hy : y.sound = true) (ha : x.apart y = true) :
    (s.put x v).get y = s.get y :=
  have ⟨hle, _⟩ := Fld.sound_iff.mp hx
  have ⟨hyle, hylt⟩ := Fld.sound_iff.mp hy
  State.get_put_apart h.regs hle hyle hylt ha v

theorem Fld.sound_on (x : Fld) (n : Nat) : (x.on n).sound = x.sound := rfl

@[simp] theorem State.fget_fput_self (h : s.Tidy) (hx : x.sound = true) : (s.fput f x v).fget f x = v % x.size :=
  State.get_put_self h hx

@[simp] theorem State.fget_fput_apart (h : s.Tidy) (hx : x.sound = true) (hy : y.sound = true) (ha : x.apart y = true) :
    (s.fput f x v).fget f y = s.fget f y := by
  refine State.get_put_other (x := x.on f.toNat) (y := y.on f.toNat) h hx hy ?_
  simp only [Fld.apart, Fld.on, commonKey, Bool.or_eq_true, bne_iff_ne, ne_eq, decide_eq_true_eq] at ha ⊢
  rcases ha with (hkey | hbelow) | habove
  · exact .inl (.inl (by omega))
  · exact .inl (.inr (decide_eq_true hbelow))
  · exact .inr (decide_eq_true habove)

/-- A field of the common part and one of a page never meet. -/
@[simp] theorem State.get_fput (hy : y.key < 0x10000) : (s.fput f x v).get y = s.get y :=
  State.get_put_ne s v fun h => by
    have hkey : y.key = commonKey f.toNat x.key := h
    rw [commonKey] at hkey
    omega

@[simp] theorem State.fget_put (hx : x.key < 0x10000) : (s.put x v).fget f y = s.fget f y :=
  State.get_put_ne s v fun h => by
    have hkey : commonKey f.toNat y.key = x.key := h
    rw [commonKey] at hkey
    omega

/-! ### A change of engines alone -/

section
variable {variantFL : Bool} {cnts latches : List (Nat × Word)} {mem : List Host.Cell} {ktime aon : Nat} {pins : Pins}
  {pwr : Pwr} {mode : ModeEng} {boot : Boot} {flint : Flint} {img : Img} {spi : Spi} {tw : Tw} {fns : PerFn FnEng}
  {plans : PerFn PlanEng} {sched : Sched} {fe : Fe} {fm : Fm} {dab : Dab} {lf : Lf} {time : TimeEng} {edf : Edf}
  {ap : Ports} {bph : Bph} {capt : Capt} {twin : Twin} {hlt : Hlt} {hostOut : List Word} {freeCtr : Nat}
  {pending : List Instr}

@[simp] theorem State.tidy_mk {regs : List (Nat × Word)} : State.Tidy ⟨variantFL, regs, cnts, latches, mem, ktime, aon, pins, pwr, mode, boot, flint, img, spi, tw,
    fns, plans, sched, fe, fm, dab, lf, time, edf, ap, bph, capt, twin, hlt, hostOut, freeCtr, pending⟩ ↔
    Sparse.wf resetWord regs = true ∧ Sparse.wf (fun _ => 0#16) cnts = true ∧
      Sparse.wf (fun _ => 0#16) latches = true ∧ Sparse.wf memDefault mem = true := Iff.rfl

/-- The field reads as before when the register file is carried over. -/
@[simp] theorem State.get_mk : State.get ⟨variantFL, s.regs, cnts, latches, mem, ktime, aon, pins, pwr, mode, boot, flint, img, spi, tw,
    fns, plans, sched, fe, fm, dab, lf, time, edf, ap, bph, capt, twin, hlt, hostOut, freeCtr, pending⟩ x = s.get x := rfl

@[simp] theorem State.fget_mk : State.fget ⟨variantFL, s.regs, cnts, latches, mem, ktime, aon, pins, pwr, mode, boot, flint, img, spi, tw,
    fns, plans, sched, fe, fm, dab, lf, time, edf, ap, bph, capt, twin, hlt, hostOut, freeCtr, pending⟩ f x = s.fget f x := rfl

end

theorem State.get_of_regs (h : t.regs = s.regs) : t.get x = s.get x := congrArg (fun r =>
  ((Sparse.get resetWord r x.key).toNat / 2 ^ x.lo) % x.size) h

/-! ### Interrupt sources -/

theorem State.get_setSource {off b src : Nat} (hy : y.key < 0x10000) (hne : y.key ≠ WAKE_HREASON.w.key) :
    (s.setSource f off b src).get y = s.get y := by
  have hreg := ((s.fput f ⟨off, b, b⟩ 1).count f src).reg_noteAttn f src hne
  rw [State.setSource, State.get, hreg]
  exact State.get_fput (x := ⟨off, b, b⟩) hy

@[simp] theorem State.get_raise0 {b : Nat} (hy : y.key < 0x10000) (hne : y.key ≠ WAKE_HREASON.w.key) :
    (s.raise0 f b).get y = s.get y := State.get_setSource hy hne

@[simp] theorem State.get_raise1 {b : Nat} (hy : y.key < 0x10000) (hne : y.key ≠ WAKE_HREASON.w.key) :
    (s.raise1 b).get y = s.get y := State.get_setSource hy hne

theorem State.fget_raise1_same {b : Nat} (hc : s.Canon) (hb : b < 16) : (s.raise1 b).fget .f0 ⟨0x11, b, b⟩ = 1 :=
  State.fget_setSource_same hc hb _

theorem State.fget_raise0_same {b : Nat} (hc : s.Canon) (hb : b < 16) : (s.raise0 f b).fget f ⟨0x10, b, b⟩ = 1 :=
  State.fget_setSource_same hc hb _

@[simp] theorem State.tidy_raise0 (h : s.Tidy) {b : Nat} : (s.raise0 f b).Tidy := State.canon_raise0 f b h

@[simp] theorem State.tidy_raise1 (h : s.Tidy) {b : Nat} : (s.raise1 b).Tidy := State.canon_raise1 b h

theorem State.mode_raise0 (s : State) (f : Fn) (b : Nat) : ∃ o, (s.raise0 f b).mode = { s.mode with heldReason := o } :=
  s.mode_setSource f 0x10 b b

theorem State.mode_raise1 (s : State) (b : Nat) : ∃ o, (s.raise1 b).mode = { s.mode with heldReason := o } :=
  s.mode_setSource .f0 0x11 b (16 + b)

/-! ### Registers that stay -/

namespace OnlyRegs

variable {l : List Fld}

theorem refl : OnlyRegs l s s := fun _ _ => rfl

theorem of_regs (h : t.regs = s.regs) : OnlyRegs l s t := fun k _ => congrArg (fun r => Sparse.get resetWord r k) h

theorem trans (h : OnlyRegs l s t) (k : OnlyRegs l t u) : OnlyRegs l s u := fun n hn => (k n hn).trans (h n hn)

theorem ite {c : Prop} [Decidable c] (h : OnlyRegs l s t) (k : OnlyRegs l s u) : OnlyRegs l s (if c then t else u) := by
  split
  · exact h
  · exact k

theorem put (h : x.key ∈ l.map Fld.key) (v : Nat) : OnlyRegs l s (s.put x v) :=
  fun _ hk => s.reg_put_ne v fun e => hk (e ▸ h)

end OnlyRegs

end Sys2Proof.Machine
end

section
/-! PROOFS. The charger and its samples (O2): what the charge switch and the charger's state leave, and each event's result. -/

namespace Sys2Proof.Machine

open R

variable {s t : State} {x : Fld} {v : Nat}

/-! ### The charge switch -/

theorem State.onlyRegs_chargeOn (s : State) : OnlyRegs [PWR_STAT.w] s s.chargeOn := OnlyRegs.put (x := PWR_STAT.CHG_ON) (by decide) 1

theorem State.onlyRegs_chargeOff (s : State) : OnlyRegs [PWR_STAT.w] s s.chargeOff :=
  (OnlyRegs.put (x := PWR_STAT.CHG_ON) (by decide) 0).trans (OnlyRegs.put (x := PWR_STAT.THROTTLED) (by decide) 0)

@[simp] theorem State.get_chargeOn (h : s.Tidy) (hx : x.sound = true) (ha : PWR_STAT.CHG_ON.apart x = true) :
    s.chargeOn.get x = s.get x := State.get_put_other h (by decide) hx ha

@[simp] theorem State.chgOn_chargeOn (h : s.Tidy) : s.chargeOn.get PWR_STAT.CHG_ON = 1 := State.get_put_self h (by decide)

@[simp] theorem State.get_chargeOff (h : s.Tidy) (hx : x.sound = true) (ha : PWR_STAT.CHG_ON.apart x = true)
    (hb : PWR_STAT.THROTTLED.apart x = true) : s.chargeOff.get x = s.get x :=
  (State.get_put_other (State.tidy_put h) (by decide) hx hb).trans (State.get_put_other h (by decide) hx ha)

@[simp] theorem State.chgOn_chargeOff (h : s.Tidy) : s.chargeOff.get PWR_STAT.CHG_ON = 0 :=
  (State.get_put_other (State.tidy_put h) (by decide) (by decide) (by decide)).trans (State.get_put_self h (by decide))

@[simp] theorem State.throttled_chargeOff (h : s.Tidy) : s.chargeOff.get PWR_STAT.THROTTLED = 0 :=
  State.get_put_self (State.tidy_put h) (by decide)

/-! ### The charger's state -/

/-- The charger takes the state; then the switch closes, opens, or stays. -/
theorem State.chgState_cases (s : State) (v : Nat) : s.chgState v = s.put PWR_STAT.CHG_STATE v ∨
    s.chgState v = (s.put PWR_STAT.CHG_STATE v).chargeOn ∨ s.chgState v = (s.put PWR_STAT.CHG_STATE v).chargeOff := by
  unfold State.chgState
  dsimp only
  generalize hlevel : (if v = 1 then 50 else 1) = level
  split
  · exact .inr (.inr rfl)
  · split
    · exact .inl rfl
    · split
      · exact .inr (.inl rfl)
      · exact .inl rfl

theorem State.onlyRegs_chgState (s : State) (v : Nat) : OnlyRegs [PWR_STAT.w] s (s.chgState v) := by
  have hput : OnlyRegs [PWR_STAT.w] s (s.put PWR_STAT.CHG_STATE v) := OnlyRegs.put (by decide) v
  rcases s.chgState_cases v with h | h | h <;> rw [h]
  · exact hput
  · exact hput.trans (State.onlyRegs_chargeOn _)
  · exact hput.trans (State.onlyRegs_chargeOff _)

/-- Another field of the power block that the charger's state and its switch do not touch. -/
@[simp] theorem State.get_chgState (h : s.Tidy) (hx : x.sound = true) (hst : PWR_STAT.CHG_STATE.apart x = true)
    (ha : PWR_STAT.CHG_ON.apart x = true) (hb : PWR_STAT.THROTTLED.apart x = true) : (s.chgState v).get x = s.get x := by
  have hput := State.get_put_other (v := v) h (by decide) hx hst
  rcases s.chgState_cases v with e | e | e <;> rw [e]
  · exact hput
  · exact (State.get_chargeOn (State.tidy_put h) hx ha).trans hput
  · exact (State.get_chargeOff (State.tidy_put h) hx ha hb).trans hput

@[simp] theorem State.state_chgState (h : s.Tidy) : (s.chgState v).get PWR_STAT.CHG_STATE = v % 4 := by
  have hput : (s.put PWR_STAT.CHG_STATE v).get PWR_STAT.CHG_STATE = v % 4 := State.get_put_self h (by decide)
  rcases s.chgState_cases v with e | e | e <;> rw [e]
  · exact hput
  · exact (State.get_chargeOn (State.tidy_put h) (by decide) (by decide)).trans hput
  · exact (State.get_chargeOff (State.tidy_put h) (by decide) (by decide) (by decide)).trans hput

@[simp] theorem State.chgOn_chgState_zero (h : s.Tidy) : (s.chgState 0).get PWR_STAT.CHG_ON = 0 :=
  State.chgOn_chargeOff (State.tidy_put h)

theorem State.chgState_frame (s : State) (v : Nat) :
    Keeps (areasMask [.power, .reg PWR_STAT.w]) s (s.chgState v) := s.chgState_keeps v .refl (by decide)

@[simp] theorem State.tidy_chgState (h : s.Tidy) : (s.chgState v).Tidy := (s.chgState_frame v).tidy h

/-! ### Whether charging is wanted -/

/-- Whether PRE-CHARGE is wanted does not turn on the charger's own state. -/
theorem State.wantsCharge_congr (h : OnlyRegs [PWR_STAT.w] s t) (hsched : t.sched = s.sched) (hplans : t.plans = s.plans)
    (hktime : t.ktime = s.ktime) : t.wantsCharge = s.wantsCharge := by
  have hget (x : Fld) (hx : (x.key == PWR_STAT.w.key) = false) : t.get x = s.get x := by
    rw [State.get, h x.key (by simpa using hx), ← State.get]
  have hcoming : t.nextStart = s.nextStart := by
    unfold State.nextStart State.coming State.runsPlans State.nextOf State.watchOf State.plan
    rw [hsched, hplans, hktime, hget TWIN_CFG.EN rfl, hget TWIN_STAT.ACTIVE rfl, hget TWIN_STAT.EN rfl]
  have htPre : t.tPre = s.tPre := by
    unfold State.tPre State.iEff State.iLeak State.cEst State.vStart
    rw [hget CHG_CFG.CHG_LIMIT rfl, hget THROT_AVG.FRAC rfl, hget RES_LEAK_EST.w rfl, hget RES_C_EST.w rfl,
      hget VRES_TGT.TGT rfl, hget VBAT_MEAS.w rfl, hget VRES_MEAS.w rfl]
  rw [State.wantsCharge, State.wantsCharge, hcoming, htPre, hsched, hktime]

theorem State.wantsCharge_chgState (s : State) (v : Nat) : (s.chgState v).wantsCharge = s.wantsCharge :=
  State.wantsCharge_congr (s.onlyRegs_chgState v) ((s.chgState_frame v).same (a := .sched) (by decide))
    ((s.chgState_frame v).same (a := .plans) (by decide)) ((s.chgState_frame v).same (a := .ktime) (by decide))

/-! ### A sample (R43) -/

/-- The measurements of a sample are taken. -/
def State.supplyMeasured (s : State) (vbat vres chgUa : Nat) : State :=
  (((s.putSat VBAT_MEAS.w vbat).putSat VRES_MEAS.w vres).putSat CHG_I_MEAS.w chgUa).putBit PWR_STAT.VRES_OK (2300 ≤ vres)

/-- A value that a 16-bit register holds is stored as it is. -/
theorem putSat_mod_word {n : Nat} (hn : n < 0x10000) : min n (0x10000 - 1) % 0x10000 = n := by omega

@[simp] theorem State.tidy_supplyMeasured (h : s.Tidy) (vbat vres chgUa : Nat) : (s.supplyMeasured vbat vres chgUa).Tidy := by
  simp (maxDischargeDepth := 9) [State.supplyMeasured, State.putSat, State.putBit, h]

theorem State.get_supplyMeasured (h : s.Tidy) {vbat vres chgUa : Nat} (hvbat : vbat < 0x10000) (hvres : vres < 0x10000)
    (hchg : chgUa < 0x10000) : (s.supplyMeasured vbat vres chgUa).get VBAT_MEAS.w = vbat ∧
      (s.supplyMeasured vbat vres chgUa).get VRES_MEAS.w = vres ∧ (s.supplyMeasured vbat vres chgUa).get CHG_I_MEAS.w = chgUa ∧
      (s.supplyMeasured vbat vres chgUa).bit PWR_STAT.VRES_OK = decide (2300 ≤ vres) := by
  simp (decide := true) (maxDischargeDepth := 9) only [State.supplyMeasured, State.putSat, State.putBit, State.bit, h,
    State.get_put_self, State.get_put_other, State.tidy_put]
  refine ⟨putSat_mod_word hvbat, putSat_mod_word hvres, putSat_mod_word hchg, ?_⟩
  by_cases hlow : 2300 ≤ vres <;> simp (decide := true) [hlow]

/-- The floor loop shows its work in THROTTLED and in the weekly average alone. -/
@[simp] theorem State.get_floorLoop (h : s.Tidy) {vbat : Nat} (hx : x.sound = true) (ht : PWR_STAT.THROTTLED.apart x = true)
    (hf : THROT_AVG.FRAC.apart x = true) : (s.floorLoop vbat).get x = s.get x := by
  unfold State.floorLoop
  extract_lets p floor sp down up sp' day old share throt s1 s2 n
  have h1 : s1.Tidy := h
  have hs2 : s2.Tidy ∧ s2.get x = s.get x := by
    unfold s2
    split
    · exact ⟨State.tidy_put h1, State.get_put_other h1 (by decide) hx ht⟩
    · split
      · exact ⟨State.tidy_put h1, State.get_put_other h1 (by decide) hx ht⟩
      · exact ⟨h1, rfl⟩
  exact (State.get_put_other hs2.1 (by decide) hx hf).trans hs2.2

/-- What a sample does with its measurements: the floor loop, the ledger, and the restart of a phase. -/
def State.sampleUsed (s : State) (on : Bool) (vbat vres chgUa nA n : Nat) : State :=
  let s := if on ∧ 1000 < chgUa then
      { s with hlt := { s.hlt with lowVbat := some (match s.hlt.lowVbat with | some v => min v vbat | none => vbat) } }
    else s
  let s := if on then (s.floorLoop vbat).partStep vres else s
  let s := s.integrate nA n
  let st := s.get PWR_STAT.CHG_STATE
  if 2 ≤ st ∧ ¬ on ∧ vres + 50 < s.stopMv then s.chargeOn else s

theorem exec_vbatSample (vbat vres chgUa sinkUa aonNa : Nat) (s : State) :
    exec (.vbatSample vbat vres chgUa sinkUa aonNa) s = .next ((s.supplyMeasured vbat vres chgUa).sampleUsed
      (s.bit PWR_STAT.CHG_ON) vbat vres chgUa ((chgUa + sinkUa) * 1000 + aonNa)
      (if s.bit PWR_STAT.CHG_ON || s.bit PWR_STAT.DEPASS_BUSY then 1 else 4000)) := rfl

/-- The measurements stand after their use. -/
theorem State.get_sampleUsed (h : s.Tidy) (on : Bool) (vbat vres chgUa nA n : Nat) (hx : x.sound = true)
    (ht : PWR_STAT.THROTTLED.apart x = true) (hf : THROT_AVG.FRAC.apart x = true) (ha : PWR_STAT.CHG_ON.apart x = true)
    (hl : regIn (areasMask [.power, .sched, .reg LEDGER_L.w, .reg LEDGER_H.w, .reg SCHED_DEV_USE.w]) x.key = false) :
    (s.sampleUsed on vbat vres chgUa nA n).get x = s.get x := by
  unfold State.sampleUsed
  extract_lets _ s1 s2 s3 st
  have h1 : s1.Tidy ∧ s1.get x = s.get x := by
    unfold s1
    split
    · exact ⟨h, rfl⟩
    · exact ⟨h, rfl⟩
  have h2 : s2.Tidy ∧ s2.get x = s.get x := by
    unfold s2
    split
    · have hloop := s1.floorLoop_keeps vbat .refl (within?_self _)
      exact ⟨hloop.tidy h1.1, (State.get_floorLoop h1.1 hx ht hf).trans h1.2⟩
    · exact h1
  have hint := s2.integrate_keeps nA n .refl (within?_self _)
  have h3 : s3.get x = s.get x :=
    ((s2.integrate_keeps nA n .refl (by decide) : Keeps (areasMask _) s2 _).get_eq hl).trans h2.2
  split
  · exact (State.get_chargeOn (hint.tidy h2.1) hx ha).trans h3
  · exact h3

theorem vbatSample_completes (vbat vres chgUa sinkUa aonNa : Nat) : Completes (.vbatSample vbat vres chgUa sinkUa aonNa)
    (fun _ => vbat < 0x10000 ∧ vres < 0x10000 ∧ chgUa < 0x10000) (fun _ t => t.get VBAT_MEAS.w = vbat ∧
      t.get VRES_MEAS.w = vres ∧ t.get CHG_I_MEAS.w = chgUa ∧ t.bit PWR_STAT.VRES_OK = decide (2300 ≤ vres)) := by
  rintro s hc ⟨hvbat, hvres, hchg⟩
  refine ⟨_, exec_vbatSample vbat vres chgUa sinkUa aonNa s, ?_⟩
  have ht := State.tidy_supplyMeasured hc.tidy vbat vres chgUa
  dsimp only [State.bit]
  rw [State.get_sampleUsed ht _ _ _ _ _ _ (by decide) (by decide) (by decide) (by decide) (by decide),
    State.get_sampleUsed ht _ _ _ _ _ _ (by decide) (by decide) (by decide) (by decide) (by decide),
    State.get_sampleUsed ht _ _ _ _ _ _ (by decide) (by decide) (by decide) (by decide) (by decide),
    State.get_sampleUsed ht _ _ _ _ _ _ (by decide) (by decide) (by decide) (by decide) (by decide)]
  exact State.get_supplyMeasured hc.tidy hvbat hvres hchg

/-! ### The charger's events -/

theorem exec_idleHoldStart (s : State) (h : s.get PWR_STAT.CHG_STATE = 1 ∧ s.bit PWR_STAT.CHG_ON = false ∧
    s.get VRES_MEAS.w + 50 ≤ s.idleMv) : exec .idleHoldStart s = .next s.chargeOn :=
  congrArg Host.Outcome.next (if_pos (by simpa using h))

theorem exec_chargeTargetReached (s : State) (h : s.bit PWR_STAT.CHG_ON = true ∧ s.stopMv ≤ s.get VRES_MEAS.w) :
    exec .chargeTargetReached s = .next s.chargeOff := congrArg Host.Outcome.next (if_pos h)

theorem exec_startCondition (s : State) (h : s.boot.startWait = true ∧ s.pins.porAsserted = false ∧ 2300 ≤ s.get VRES_MEAS.w) :
    exec .startCondition s = .next (({ s with
      boot := { s.boot with startWait := false, hedgehog := !s.pins.test && !s.pins.strapDue } } : State).chgState 1) :=
  congrArg Host.Outcome.next (if_pos (by simpa using h))

theorem exec_preChargeStart (s : State) (h : s.get PWR_STAT.CHG_STATE = 1 ∧ s.wantsCharge = true ∧ s.runsPlans = true ∧
    s.dormouse = true ∧ s.mode.delayed = none) : exec .preChargeStart s =
      .next (({ s with pwr := { s.pwr with preFor := s.nextStart } } : State).chgState 2) :=
  congrArg Host.Outcome.next (if_pos h)

/-- After the slot that PRE-CHARGE served the charger is in IDLE-HOLD, and PRE-CHARGE is not wanted again. -/
theorem State.preCharge_chgFollow (hheld : s.preHeld = false) (hst : s.get PWR_STAT.CHG_STATE = 2) :
    s.chgFollow.preCharge = s.chgFollow := by
  have hwants : s.wantsCharge = false := by
    rw [State.preHeld, Bool.or_eq_false_iff] at hheld
    exact hheld.1
  have hfollow : s.chgFollow.wantsCharge = false := by
    rw [State.chgFollow, if_pos (by simp [hheld, hst])]
    dsimp only
    split
    · have hoff := (s.chgState 1).chargeOff_keeps .refl (within?_self _)
      rw [State.wantsCharge_congr (State.onlyRegs_chargeOff _) rfl rfl rfl, State.wantsCharge_chgState, hwants]
    · rw [State.wantsCharge_chgState, hwants]
  rw [State.preCharge, if_neg (by simp [hfollow])]

theorem State.chgFollow_completes (hc : s.Tidy) (hst : s.get PWR_STAT.CHG_STATE = 2) (hheld : s.preHeld = false) :
    s.chgFollow.get PWR_STAT.CHG_STATE = 1 ∧ OnlyRegs [PWR_STAT.w] s s.chgFollow := by
  rw [State.chgFollow, if_pos (by simp [hheld, hst])]
  dsimp only
  split
  · exact ⟨by simp (decide := true) [hc], (s.onlyRegs_chgState 1).trans (State.onlyRegs_chargeOff _)⟩
  · exact ⟨by simp (decide := true) [hc], s.onlyRegs_chgState 1⟩

theorem exec_batSag (s : State) (h : 40 ≤ s.pwr.zeroHold ∧ s.pwr.sagSet = false) : exec .batSag s =
    .next (({ s with pwr := { s.pwr with sagSet := true } } : State).raiseSag) :=
  congrArg Host.Outcome.next (if_pos (by simpa using h))

theorem exec_reservoirFault (rise ms : Nat) (s : State) (h : s.bit PWR_STAT.CHG_ON = true ∧ rise < 100 ∧
    4 * s.cEst / 10 ≤ s.iEff * ((ms : ℚ) / 1000)) : exec (.reservoirFault rise ms) s =
      .next (({ s with hlt := { s.hlt with resFaults := bump s.dayNo s.hlt.resFaults } } : State).raise1 jRESERVOIR_LOW) :=
  congrArg Host.Outcome.next (if_pos h)

theorem exec_burstOkLow (s : State) (h : s.get VRES_MEAS.w + 50 < 2000 + 10 * s.get BURST_CFG.BURST_V) :
    exec .burstOkLow s = .next (s.put PWR_STAT.BURST_OK 0) := congrArg Host.Outcome.next (if_pos (.inl h))

theorem exec_burstOkHigh (s : State) (h : 2000 + 10 * s.get BURST_CFG.BURST_V ≤ s.get VRES_MEAS.w ∧ s.burstQuiet = true) :
    exec .burstOkHigh s = .next (s.put PWR_STAT.BURST_OK 1) := congrArg Host.Outcome.next (if_pos h)

theorem State.bit_raiseSag (hc : s.Tidy) : s.raiseSag.fget .f0 INT_STAT1.BAT_SAG = 1 :=
  State.fget_raise1_same (s := { s with hlt := { s.hlt with sags := bump s.dayNo s.hlt.sags } }) (b := jBAT_SAG) hc.canon
    (by decide)

theorem State.pwr_raise1 (s : State) (b : Nat) : (s.raise1 b).pwr = s.pwr :=
  (s.raise1_keeps b .refl (within?_self _)).same (a := .power) (by decide)

/-- Settles O2: each event by the lemma that gives its next state. -/
theorem chargerCommandsComplete : Obligations.ChargerCommandsComplete := by
  unfold Obligations.ChargerCommandsComplete
  refine ⟨vbatSample_completes, .intro _ exec_idleHoldStart fun s hc _ => ?_,
    .intro _ exec_chargeTargetReached fun s hc _ => ?_, .intro _ exec_startCondition fun s hc _ => ?_,
    .intro _ exec_preChargeStart fun s hc _ => ?_, fun s hc ⟨hst, hheld⟩ => ⟨s.chgFollow.preCharge, rfl, ?_⟩,
    .intro _ exec_batSag fun s hc _ => ?_, fun rise ms => .intro _ (exec_reservoirFault rise ms) fun s hc _ => ?_,
    .intro _ exec_burstOkLow fun s hc _ => ?_, .intro _ exec_burstOkHigh fun s hc _ => ?_⟩
  · exact ⟨by simp [State.bit, hc.tidy], rfl, s.onlyRegs_chargeOn⟩
  · exact ⟨by simp [State.bit, hc.tidy], by simp [State.bit, hc.tidy], rfl, s.onlyRegs_chargeOff⟩
  · let u : State := { s with
      boot := { s.boot with startWait := false, hedgehog := !s.pins.test && !s.pins.strapDue } }
    have hboot : (u.chgState 1).boot = u.boot := (u.chgState_frame 1).same (a := .boot) (by decide)
    exact ⟨congrArg Boot.startWait hboot, congrArg Boot.hedgehog hboot, State.state_chgState (s := u) hc.tidy⟩
  · let u : State := { s with pwr := { s.pwr with preFor := s.nextStart } }
    exact ⟨State.state_chgState (s := u) hc.tidy, u.onlyRegs_chgState 2⟩
  · rw [State.preCharge_chgFollow hheld hst]
    exact State.chgFollow_completes hc.tidy hst hheld
  · let u : State := { s with pwr := { s.pwr with sagSet := true } }
    exact ⟨congrArg Pwr.sagSet (State.pwr_raise1 _ _), State.bit_raiseSag (s := u) hc.tidy⟩
  · exact State.fget_raise1_same (b := jRESERVOIR_LOW) (by exact hc) (by decide)
  · exact ⟨by simp (decide := true) [State.bit, hc.tidy], OnlyRegs.put (by decide) 0⟩
  · exact ⟨by simp (decide := true) [State.bit, hc.tidy], OnlyRegs.put (by decide) 1⟩

end Sys2Proof.Machine
end

section
/-! PROOFS. A command word with one bit set (R517), and what a host access and a code in `FN_ERR` leave. -/

namespace Sys2Proof.Machine

open R

variable {s t : State} {f g : Fn} {x y : Fld}

/-! ### `FN_ERR` -/

@[simp] theorem State.tidy_setErr (h : s.Tidy) (code : Nat) : (s.setErr f code).Tidy := State.tidy_fput h

@[simp] theorem State.get_setErr (code : Nat) (hy : y.key < 0x10000) : (s.setErr f code).get y = s.get y := State.get_fput hy

@[simp] theorem State.fget_setErr_other (code : Nat) (hy : y.key < 0x10000) (h : y.key ≠ FN_ERR.w.key) :
    (s.setErr f code).fget g y = s.fget g y := State.fget_fput_other code (by decide) hy (.inr h)

@[simp] theorem State.fget_setErr (h : s.Tidy) (code : Nat) : (s.setErr f code).fget f FN_ERR.CODE = code % 0x100 :=
  State.fget_fput_self h (by decide)

/-! ### The host access -/

@[simp] theorem State.tidy_regAccess (h : s.Tidy) : s.regAccess.Tidy := State.canon_regAccess h

/-! ### A command word with one bit set -/

/-- `FN_ERR` after a command bit: the code of a refusal, or the one it held. -/
def State.errAfter (s t : State) (f : Fn) : State :=
  t.setErr f (if t.fget f FN_ERR.CODE = 0 then s.fget f FN_ERR.CODE else t.fget f FN_ERR.CODE)

theorem State.woBits_single {l : List (Nat × (State → State))} {v : Word} {b : Nat} {act : State → State}
    (h : l.filter (fun e => v.getLsbD e.1) = [(b, act)]) : s.woBits f v l = s.errAfter (act (s.setErr f 0)) f := by
  unfold State.woBits
  dsimp only
  rw [← List.foldl_filter (p := fun e : Nat × (State → State) => v.getLsbD e.1)
    (f := fun (r : State × Nat) b => (b.2 (r.1.setErr f 0), if r.2 = 0 then (b.2 (r.1.setErr f 0)).fget f FN_ERR.CODE else r.2)),
    h, List.foldl_cons, List.foldl_nil, if_pos rfl]
  rfl

@[simp] theorem State.tidy_errAfter (h : t.Tidy) : (s.errAfter t f).Tidy := State.tidy_setErr h _

@[simp] theorem State.get_errAfter (hy : y.key < 0x10000) : (s.errAfter t f).get y = t.get y := State.get_setErr _ hy

@[simp] theorem State.fget_errAfter_other (hy : y.key < 0x10000) (h : y.key ≠ FN_ERR.w.key) :
    (s.errAfter t f).fget g y = t.fget g y := State.fget_setErr_other _ hy h

/-- `FN_ERR` apart, the state is the one the bit leaves. -/
theorem State.errAfter_frame (s t : State) (f : Fn) : Keeps (areasMask [.reg FN_ERR.w]) t (s.errAfter t f) :=
  State.setErr_keeps _ _ _ .refl (by decide)

end Sys2Proof.Machine
end

section
/-! PROOFS. Depassivation, the ledger and the reservoir's estimates (O3). -/

namespace Sys2Proof.Machine

open R

variable {s t : State} {f : Fn}

/-! ### The command word -/

/-- The row of `PWR_CMD`: three command bits. -/
def pwrCmdDef : RegDef := ⟨0x39C, 0, 0, 0, 7, 0⟩

theorem regDef_pwrCmd : regDef? PWR_CMD.w.key = some pwrCmdDef := by decide

theorem legalWord_pwrCmd (f : Fn) (v : Word) : legalWord f PWR_CMD.w.key v = true := by
  rw [legalWord_of_unranged (by decide), extraLegal]
  simp (decide := true) only [if_false]

/-- A served write of `PWR_CMD`: the access, then the bits that are set. -/
theorem State.cmdWrite_pwrCmd (v : Word) (h : Serves s f 3) : s.cmdWrite f PWR_CMD.w v = s.regAccess.woBits f v
    [(0, fun s => s.depassGo f), (1, State.ledgerLoad), (2, fun s => s.estReset f)] := by
  rw [State.cmdWrite_page_legal regDef_pwrCmd (by decide) (by decide) rfl (by decide) (legalWord_pwrCmd f v) h]
  rfl

theorem exec_depassGo (h : Serves s f 3) :
    exec (.depassGo f) s = .next (s.regAccess.errAfter ((s.regAccess.setErr f 0).depassGo f) f) := by
  rw [show exec (.depassGo f) s = .next (s.cmdWrite f PWR_CMD.w 1) from rfl, State.cmdWrite_pwrCmd 1 h,
    State.woBits_single (b := 0) (act := fun s => s.depassGo f) (by simp)]

theorem exec_ledgerLoad (h : Serves s f 3) :
    exec (.ledgerLoad f) s = .next (s.regAccess.errAfter (s.regAccess.setErr f 0).ledgerLoad f) := by
  rw [show exec (.ledgerLoad f) s = .next (s.cmdWrite f PWR_CMD.w 2) from rfl, State.cmdWrite_pwrCmd 2 h,
    State.woBits_single (b := 1) (act := State.ledgerLoad) (by simp)]

theorem exec_estReset (h : Serves s f 3) :
    exec (.estReset f) s = .next (s.regAccess.errAfter ((s.regAccess.setErr f 0).estReset f) f) := by
  rw [show exec (.estReset f) s = .next (s.cmdWrite f PWR_CMD.w 4) from rfl, State.cmdWrite_pwrCmd 4 h,
    State.woBits_single (b := 2) (act := fun s => s.estReset f) (by simp)]

/-! ### Pulses -/

theorem State.depassStart_shows (h : s.Tidy) (auto : Bool) : (s.depassStart auto).bit PWR_STAT.DEPASS_BUSY = true ∧
    (s.depassStart auto).bit PWR_STAT.DEPASS_PEND = false := by
  unfold State.depassStart
  simp (decide := true) (maxDischargeDepth := 9) [State.bit, h]

/-- A pulse that nothing holds back, with no leakage probe to cut. -/
theorem State.depassGo_of_free (hbusy : s.bit PWR_STAT.DEPASS_BUSY = false) (hpend : s.bit PWR_STAT.DEPASS_PEND = false)
    (hblocked : s.depassBlocked = false) (hprobe : s.bit PWR_STAT.LEAK_PROBE = false) :
    s.depassGo f = s.depassStart false := by
  simp [State.depassGo, hbusy, hpend, hblocked, State.probeCut, hprobe]

/-- What holds a pulse back is no part of what a host access and `FN_ERR` change. -/
theorem State.depassBlocked_accessed (s : State) (f : Fn) (c : Nat) : (s.regAccess.setErr f c).depassBlocked = s.depassBlocked := by
  have hkeeps : Keeps (areasMask Area.access) s (s.regAccess.setErr f c) :=
    State.setErr_keeps _ _ _ s.regAccess_keeps_access (by decide)
  have hsched : (s.regAccess.setErr f c).sched = s.sched := hkeeps.same (a := .sched) (by decide)
  simp only [State.depassBlocked, State.bit, hkeeps.get_eq (x := MODE.SLOT_ACT) (by decide),
    hkeeps.get_eq (x := MODE.MAINTAIN_ACT) (by decide), hkeeps.get_eq (x := MODE.CUR) (by decide), hsched]

theorem State.bit_accessed {x : Fld} (f : Fn) (c : Nat) (h : regIn (areasMask Area.access) x.key = false) :
    (s.regAccess.setErr f c).bit x = s.bit x := by
  have hkeeps : Keeps (areasMask Area.access) s (s.regAccess.setErr f c) :=
    State.setErr_keeps _ _ _ s.regAccess_keeps_access (by decide)
  rw [State.bit, State.bit, hkeeps.get_eq h]

theorem exec_depassAutoStart (s : State) (h : s.bit DEPASS_CFG.DEPASS_AUTO = true ∧ s.pwr.autoDue = true ∧
    s.dormouse = true ∧ s.bit PWR_STAT.DEPASS_BUSY = false ∧ s.bit PWR_STAT.DEPASS_PEND = false ∧ s.depassBlocked = false ∧
    s.bit PWR_STAT.LEAK_PROBE = false ∧ s.depassFits = true) : exec .depassAutoStart s = .next (s.depassStart true) := by
  obtain ⟨hauto, hdue, hdormouse, hbusy, hpend, hblocked, hprobe, hfits⟩ := h
  exact congrArg Host.Outcome.next ((if_pos (by simp [hauto, hdue, hdormouse, hbusy, hpend])).trans
    (if_neg (by simp [hblocked, hprobe, hfits])))

theorem exec_depassDeferredStart (s : State) (h : s.bit PWR_STAT.DEPASS_PEND = true ∧ s.depassBlocked = false ∧
    s.bit PWR_STAT.LEAK_PROBE = false ∧ (s.pwr.pendAuto = false ∨ s.depassFits = true)) :
    exec .depassDeferredStart s = .next (s.depassStart s.pwr.pendAuto) :=
  congrArg Host.Outcome.next (if_pos (by simpa using h))

theorem exec_depassPulseEnd (vmin vend : Nat) (s : State) (h : s.bit PWR_STAT.DEPASS_BUSY = true ∧ vmin < 0x10000 ∧
    vend < 0x10000) : exec (.depassPulseEnd vmin vend) s = .next (s.depassEnd vmin vend (10 * s.get DEPASS_CFG.DEPASS_T)) :=
  congrArg Host.Outcome.next (if_pos h.1)

theorem exec_depassEarlyEnd (vmin vend ms : Nat) (s : State) (h : s.bit PWR_STAT.DEPASS_BUSY = true ∧
    vmin < max 2000 (1700 + 10 * s.get VBAT_FLOOR.FLOOR) ∧ vend < 0x10000) :
    exec (.depassEarlyEnd vmin vend ms) s = .next (s.depassEnd vmin vend ms).raiseSag :=
  congrArg Host.Outcome.next (if_pos ⟨h.1, h.2.1⟩)

/-- The charge of a pulse goes to the account of a day. -/
theorem State.get_charge {x : Fld} (f : Fn) (nAh ms : Nat)
    (hx : regIn (areasMask [.engines, .reg DAY_USE_E.w, .reg DAY_USE_T.w]) x.key = false) : (s.charge f nAh ms).get x = s.get x :=
  (State.charge_keeps s f nAh ms .refl (by decide) : Keeps (areasMask _) s _).get_eq hx

theorem State.depassEnd_shows (h : s.Tidy) {vmin vend : Nat} (ms : Nat) (hvmin : vmin < 0x10000) (hvend : vend < 0x10000) :
    (s.depassEnd vmin vend ms).bit PWR_STAT.DEPASS_BUSY = false ∧ (s.depassEnd vmin vend ms).get DEPASS_VMIN.w = vmin ∧
      (s.depassEnd vmin vend ms).get DEPASS_VEND.w = vend := by
  unfold State.depassEnd
  dsimp only [State.bit]
  rw [State.get_charge _ _ _ (by decide), State.get_charge _ _ _ (by decide), State.get_charge _ _ _ (by decide)]
  simp (decide := true) (maxDischargeDepth := 9) only [State.putSat, h, State.get_put_self, State.get_put_other, State.tidy_put]
  exact ⟨trivial, putSat_mod_word hvmin, putSat_mod_word hvend⟩

@[simp] theorem State.tidy_depassEnd (h : s.Tidy) (vmin vend ms : Nat) : (s.depassEnd vmin vend ms).Tidy :=
  (s.depassEnd_keeps vmin vend ms .refl (within?_self _)).tidy h

theorem State.get_raiseSag {x : Fld} (hx : x.key < 0x10000) (hne : x.key ≠ WAKE_HREASON.w.key) :
    s.raiseSag.get x = s.get x := State.get_raise1 hx hne

/-! ### The ledger -/

theorem State.get32_lt (s : State) (k : Nat) : s.get32 ⟨k, 15, 0⟩ < 0x100000000 := by
  have hlow : s.get ⟨k, 15, 0⟩ < 0x10000 := Nat.mod_lt _ (Nat.two_pow_pos 16)
  have hhigh : s.get ⟨k + 1, 15, 0⟩ < 0x10000 := Nat.mod_lt _ (Nat.two_pow_pos 16)
  simp only [State.get32]
  omega

theorem State.get32_put32 (h : s.Tidy) {k v : Nat} (hv : v < 0x100000000) :
    (s.put32 ⟨k, 15, 0⟩ v).get32 ⟨k, 15, 0⟩ = v := by
  have hne : (⟨k, 15, 0⟩ : Fld).key ≠ (⟨k + 1, 15, 0⟩ : Fld).key := by simp
  have hlow : (s.put32 ⟨k, 15, 0⟩ v).get ⟨k, 15, 0⟩ = v % 0x10000 % 0x10000 :=
    (State.get_put_ne _ _ hne).trans (State.get_put_self h (by rfl))
  have hhigh : (s.put32 ⟨k, 15, 0⟩ v).get ⟨k + 1, 15, 0⟩ = v / 0x10000 % 0x10000 % 0x10000 :=
    State.get_put_self (State.tidy_put h) (by rfl)
  rw [State.get32, hlow]
  dsimp only
  rw [hhigh]
  omega

theorem State.get32_put_ne {x low : Fld} {v : Nat} (hlow : low.key ≠ x.key) (hhigh : low.key + 1 ≠ x.key) :
    (s.put x v).get32 low = s.get32 low := by
  rw [State.get32, State.get_put_ne s v hlow, State.get_put_ne s v (y := { low with key := low.key + 1 }) hhigh, ← State.get32]

theorem State.ledgerLoad_shows (h : s.Tidy) : s.ledgerLoad.get32 LEDGER_L.w = s.get32 LEDGER_LD_L.w ∧
    s.ledgerLoad.bit PWR_STAT.LEDGER_GAP = false := by
  unfold State.ledgerLoad
  refine ⟨(State.get32_put_ne (by decide) (by decide)).trans (State.get32_put32 h (s.get32_lt _)), ?_⟩
  have hput : (s.put32 LEDGER_L.w (s.get32 LEDGER_LD_L.w)).Tidy := State.tidy_put (State.tidy_put h)
  rw [State.bit, State.get_put_self hput (by decide)]
  rfl

/-! ### The estimates -/

/-- A re-admission that falls due is no part of the registers or of the power engine. -/
@[simp] theorem State.get_followEstimates (s : State) (x : Fld) : s.followEstimates.get x = s.get x := by
  unfold State.followEstimates
  split <;> rfl

@[simp] theorem State.pwr_followEstimates (s : State) : s.followEstimates.pwr = s.pwr := by
  unfold State.followEstimates
  split <;> rfl

theorem State.estReset_shows (h : s.Tidy) (hopen : s.bit PART_STAT.LOCKED = false) :
    (s.estReset f).get RES_LEAK_EST.w = 1000 ∧ (s.estReset f).get RES_C_INIT.w = 0 ∧
      (s.estReset f).get RES_LEAK_INIT.w = 0 ∧ (s.estReset f).pwr.cSeen = false := by
  rw [State.estReset, if_neg (by simp [hopen])]
  simp (decide := true) (maxDischargeDepth := 9) [h]

/-- An estimate takes a sample: the sum is held at the field's largest value. -/
theorem State.get_moveEst (h : s.Tidy) (k : Nat) (q part : ℚ) : (s.moveEst ⟨k, 15, 0⟩ q part).get ⟨k, 15, 0⟩ =
    min (roundNat ((s.get ⟨k, 15, 0⟩ : ℚ) + (q - s.get ⟨k, 15, 0⟩) / part)) 0xFFFF := by
  have hsize : (⟨k, 15, 0⟩ : Fld).size = 0x10000 := rfl
  rw [State.moveEst, State.putSat, State.get_put_self h (by rfl), hsize]
  omega

theorem State.takeC_shows (h : s.Tidy) (q : ℚ) : (s.takeC q).pwr.cSeen = true ∧ (s.takeC q).pwr.partDone = s.pwr.partDone ∧
    (s.takeC q).get RES_C_EST.w = min (roundNat ((s.get RES_C_EST.w : ℚ) + (q - s.get RES_C_EST.w) / 16)) 0xFFFF := by
  have hmove := State.get_moveEst h RES_C_EST.w.key q 16
  unfold State.takeC
  rw [State.pwr_followEstimates, State.get_followEstimates]
  refine ⟨rfl, ?_, ?_⟩
  · dsimp only
    split <;> rfl
  · dsimp only [State.get_mk]
    split
    · exact hmove
    · exact (State.get_put_ne _ _ (by decide)).trans hmove

theorem State.takeLeak_shows (h : s.Tidy) (q : ℚ) : (s.takeLeak q).pwr.leakSeen = true ∧
    (s.takeLeak q).get RES_LEAK_EST.w = min (roundNat ((s.get RES_LEAK_EST.w : ℚ) + (q - s.get RES_LEAK_EST.w) / 8)) 0xFFFF := by
  have hmove := State.get_moveEst h RES_LEAK_EST.w.key q 8
  unfold State.takeLeak
  rw [State.pwr_followEstimates, State.get_followEstimates]
  refine ⟨rfl, ?_⟩
  dsimp only [State.get_mk]
  split
  · exact hmove
  · exact (State.get_put_ne _ _ (by decide)).trans hmove

/-- A leakage sample touches the power block's own status nowhere. -/
theorem State.get_takeLeak {x : Fld} (q : ℚ)
    (hx : regIn (areasMask [.power, .sched, .reg RES_LEAK_EST.w, .reg RES_LEAK_INIT.w]) x.key = false) :
    (s.takeLeak q).get x = s.get x :=
  (State.takeLeak_keeps s q .refl (by decide) : Keeps (areasMask _) s _).get_eq hx

theorem exec_passIdxMeasure (rest now : Nat) (s : State) (h : s.bit PWR_STAT.CHG_ON = true ∧ rest < 0x10000) :
    exec (.passIdxMeasure rest now) s = .next { s.putSat PASS_IDX.w (rest - now) with
      pwr := { s.pwr with autoDue := decide ((s.putSat PASS_IDX.w (rest - now)).get DEPASS_THR.THR ≤
        (s.putSat PASS_IDX.w (rest - now)).get PASS_IDX.w) } } :=
  congrArg Host.Outcome.next (if_pos h.1)

theorem exec_ledgerCopy (s : State) (h : s.flashFree = true) : exec .ledgerCopy s = .next s.ledgerCopy :=
  congrArg Host.Outcome.next (if_pos h)

theorem exec_capacitanceSample {p : ChgPart} (s : State) (h : s.pwr.partDone = some p) : exec .capacitanceSample s =
    .next (let q : ℚ := ((p.setPoint : ℚ) / 4000 - s.iLeak) * p.samples * 2500 / ((p.v1 - p.v0 : Nat) : ℚ)
      let u : State := { s with pwr := { s.pwr with partDone := none } }
      if 100 ≤ p.v1 - p.v0 ∧ (s.get RES_C_EST.w : ℚ) / 4 ≤ q ∧ q ≤ 4 * (s.get RES_C_EST.w : ℚ) then u.takeC q else u) := by
  change execCapacitanceSample s = _
  rw [execCapacitanceSample, h]
  rfl

/-! ### The leakage probe -/

theorem exec_leakageProbeStart (s : State) (h : s.mode.resting = true ∧ s.mode.waking = none ∧ s.dormouse = true ∧
    s.get PWR_STAT.CHG_STATE = 1 ∧ s.bit PWR_STAT.DEPASS_BUSY = false ∧ s.dueWithin (1000 * s.get LEAK_WIN.w) = false) :
    exec .leakageProbeStart s = .next { (s.put PWR_STAT.LEAK_PROBE 1).chgState 0 with
      pwr := { ((s.put PWR_STAT.LEAK_PROBE 1).chgState 0).pwr with
        probeV := ((s.put PWR_STAT.LEAK_PROBE 1).chgState 0).get VRES_MEAS.w
        probeAt := ((s.put PWR_STAT.LEAK_PROBE 1).chgState 0).aon } } :=
  congrArg Host.Outcome.next (if_pos (by simpa using h))

/-- The state in which a probe's sample is judged: the probe has ended, and the charger is in IDLE-HOLD. -/
def State.probeOver (s : State) : State := (s.put PWR_STAT.LEAK_PROBE 0).chgState 1

theorem State.tidy_probeOver (h : s.Tidy) : s.probeOver.Tidy := State.tidy_chgState (State.tidy_put h)

theorem State.probeOver_shows (h : s.Tidy) : s.probeOver.bit PWR_STAT.LEAK_PROBE = false ∧
    s.probeOver.get PWR_STAT.CHG_STATE = 1 ∧ s.probeOver.get RES_LEAK_EST.w = s.get RES_LEAK_EST.w ∧
    s.probeOver.cEst = s.cEst := by
  unfold State.probeOver
  simp (decide := true) [State.bit, State.cEst, h]

/-- A charger that goes to IDLE-HOLD keeps what a probe has noted. -/
theorem State.probeV_chgState (s : State) (v : Nat) : (s.chgState v).pwr.probeV = s.pwr.probeV := by
  rcases s.chgState_cases v with e | e | e <;> rw [e] <;> rfl

theorem State.probeEnd_of_awake {vres secs : Nat} (h : s.Tidy) (hcur : s.get MODE.CUR ≠ 0) : s.probeEnd vres secs =
    (let q : ℚ := if secs = 0 then -1 else (s.cEst * (((s.pwr.probeV : ℚ) - vres) / 1000) / secs) * 100000000
     if 600 ≤ secs ∧ 0 ≤ q ∧ q ≤ 4 * (s.get RES_LEAK_EST.w : ℚ) then s.probeOver.takeLeak q else s.probeOver) := by
  obtain ⟨-, -, hleak, hcest⟩ := State.probeOver_shows h
  have hprobe : s.probeOver.pwr.probeV = s.pwr.probeV := State.probeV_chgState _ 1
  have hmode : (s.put PWR_STAT.LEAK_PROBE 0).get MODE.CUR = s.get MODE.CUR := State.get_put_ne _ _ (by decide)
  have hover : (if (s.put PWR_STAT.LEAK_PROBE 0).get MODE.CUR = 0 then s.put PWR_STAT.LEAK_PROBE 0
      else (s.put PWR_STAT.LEAK_PROBE 0).chgState 1) = s.probeOver := if_neg (by rw [hmode]; exact hcur)
  unfold State.probeEnd
  dsimp only
  rw [hover, hleak, hcest, hprobe]

theorem exec_leakageProbeEnd (vres secs : Nat) (s : State) (h : s.bit PWR_STAT.LEAK_PROBE = true) :
    exec (.leakageProbeEnd vres secs) s = .next (s.probeEnd vres secs) := congrArg Host.Outcome.next (if_pos h)

/-- Settles O3: the command words by `State.woBits_single`, each event by the lemma that gives its next state. -/
theorem depassivationAndLedgerCommandsComplete : Obligations.DepassivationAndLedgerCommandsComplete := by
  unfold Obligations.DepassivationAndLedgerCommandsComplete
  refine ⟨?_, .intro _ exec_depassAutoStart fun s hc _ => ?_, .intro _ exec_depassDeferredStart fun s hc _ => ?_,
    fun vmin vend => .intro _ (exec_depassPulseEnd vmin vend) fun s hc ⟨_, hvmin, hvend⟩ => ?_,
    fun vmin vend ms => .intro _ (exec_depassEarlyEnd vmin vend ms) fun s hc ⟨_, hvmin, hvend⟩ => ?_,
    fun rest now => .intro _ (exec_passIdxMeasure rest now) fun s hc ⟨_, hrest⟩ => ?_,
    .intro _ exec_ledgerCopy fun s _ _ => ⟨rfl, OnlyRegs.of_regs rfl⟩, ?_, ?_, ?_,
    .intro _ exec_leakageProbeStart fun s hc _ => ?_, ?_, ?_⟩
  · intro s hc ⟨hserves, hbusy, hpend, hblocked, hprobe⟩
    refine ⟨_, exec_depassGo hserves, ?_⟩
    have ht := State.tidy_setErr (f := .f0) (State.tidy_regAccess hc.tidy) 0
    rw [State.depassGo_of_free (by rwa [State.bit_accessed _ _ (by decide)]) (by rwa [State.bit_accessed _ _ (by decide)])
      (by rwa [State.depassBlocked_accessed]) (by rwa [State.bit_accessed _ _ (by decide)])]
    simpa (decide := true) [State.bit] using State.depassStart_shows ht false
  · exact ⟨(State.depassStart_shows hc.tidy true).1, by simp [State.depassStart]⟩
  · exact State.depassStart_shows hc.tidy _
  · exact State.depassEnd_shows hc.tidy _ hvmin hvend
  · have hfloor : s.get VBAT_FLOOR.FLOOR < 0x100 := Nat.mod_lt _ (by decide)
    obtain ⟨hbusy, hmin, hend⟩ := State.depassEnd_shows (vmin := vmin) hc.tidy ms (by omega) hvend
    have hsag (x : Fld) (hx : x.key < 0x10000) (hne : x.key ≠ WAKE_HREASON.w.key) := State.get_raiseSag
      (s := s.depassEnd vmin vend ms) hx hne
    rw [State.bit, hsag _ (by decide) (by decide), hsag _ (by decide) (by decide), hsag _ (by decide) (by decide)]
    exact ⟨hbusy, hmin, hend, State.bit_raiseSag (State.tidy_depassEnd hc.tidy _ _ _)⟩
  · have hidx : (s.putSat PASS_IDX.w (rest - now)).get PASS_IDX.w = rest - now :=
      (State.get_put_self hc.tidy (by decide)).trans (putSat_mod_word (by omega))
    have hthr : (s.putSat PASS_IDX.w (rest - now)).get DEPASS_THR.THR = s.get DEPASS_THR.THR :=
      State.get_put_ne _ _ (by decide)
    exact ⟨hidx, by simp only [hidx, hthr], OnlyRegs.put (by decide) _⟩
  · intro s hc hserves
    refine ⟨_, exec_ledgerLoad hserves, ?_⟩
    have ht := State.tidy_setErr (f := .f0) (State.tidy_regAccess hc.tidy) 0
    obtain ⟨hledger, hgap⟩ := State.ledgerLoad_shows ht
    refine ⟨?_, ?_⟩
    · simp (decide := true) only [State.get32, State.get_errAfter] at hledger ⊢
      rw [hledger, State.get_setErr _ (by decide), State.get_setErr _ (by decide), State.get_regAccess (by decide),
        State.get_regAccess (by decide)]
    · simpa (decide := true) [State.bit] using hgap
  · intro s hc ⟨hserves, hopen⟩
    refine ⟨_, exec_estReset hserves, ?_⟩
    have ht := State.tidy_setErr (f := .f0) (State.tidy_regAccess hc.tidy) 0
    obtain ⟨hleak, hcinit, hlinit, hseen⟩ := State.estReset_shows (f := .f0) ht (by rwa [State.bit_accessed _ _ (by decide)])
    simp (decide := true) only [State.get_errAfter]
    exact ⟨hleak, hcinit, hlinit, hseen⟩
  · rintro p q s hc ⟨hdone, hrise, rfl, hlow, hhigh⟩
    refine ⟨_, exec_capacitanceSample s hdone, ?_⟩
    dsimp only
    rw [if_pos ⟨hrise, hlow, hhigh⟩]
    exact State.takeC_shows (s := { s with pwr := { s.pwr with partDone := none } }) hc.tidy _
  · have ht : (s.put PWR_STAT.LEAK_PROBE 1).Tidy := State.tidy_put hc.tidy
    have haon := ((s.put PWR_STAT.LEAK_PROBE 1).chgState_frame 0).same (a := .cycles) (by decide)
    dsimp only [State.bit, State.get_mk]
    refine ⟨?_, ?_, ?_, ?_, haon⟩
    · simp (decide := true) [hc.tidy]
    · exact State.state_chgState ht
    · simp (decide := true) [hc.tidy]
    · simp (decide := true) [hc.tidy]
  · rintro vres secs q s hc ⟨hprobe, hcur, hsecs, hq, hpos, hmax⟩
    refine ⟨_, exec_leakageProbeEnd vres secs s hprobe, ?_⟩
    rw [State.probeEnd_of_awake hc.tidy hcur]
    dsimp only
    rw [if_neg (show secs ≠ 0 by omega), ← hq, if_pos ⟨hsecs, hpos, hmax⟩]
    obtain ⟨hoff, hst, hleak, -⟩ := State.probeOver_shows hc.tidy
    obtain ⟨hseen, hest⟩ := State.takeLeak_shows (State.tidy_probeOver hc.tidy) q
    rw [State.bit, State.get_takeLeak _ (by decide), State.get_takeLeak _ (by decide), hest, hleak]
    exact ⟨hoff, hst, hseen, rfl⟩
  · rintro vres secs s hc ⟨hprobe, hcur, hsecs⟩
    refine ⟨_, exec_leakageProbeEnd vres secs s hprobe, ?_⟩
    rw [State.probeEnd_of_awake hc.tidy hcur]
    dsimp only
    rw [if_neg (by omega)]
    obtain ⟨hoff, hst, hleak, -⟩ := State.probeOver_shows hc.tidy
    exact ⟨hoff, hst, hleak⟩

end Sys2Proof.Machine
end

section
/-! PROOFS. Quiet steps: what records, the account of time and the end of a capture leave. They take no bit of `INT_STAT0` back,
and leave ops, plans, the timeline and the time as they are. -/

namespace Sys2Proof.Machine

open R

variable {s t u : State} {f : Fn}

/-- A quiet step: it is made of steps that set bits of `INT_STAT0`, write to a queue, or account for the time that has passed,
and of steps outside `INT_STAT0`, the engines, the plans, the schedule and the time. -/
inductive Calm : State → State → Prop
  | refl (s : State) : Calm s s
  | trans {s t u : State} : Calm s t → Calm t u → Calm s u
  | frame {s t : State} (htidy : s.Tidy → t.Tidy)
      (hbit : ∀ (f : Fn) (c : Nat), t.fget f ⟨0x10, c, c⟩ = s.fget f ⟨0x10, c, c⟩)
      (hfns : t.fns = s.fns) (hplans : t.plans = s.plans) (hsched : t.sched = s.sched) (hktime : t.ktime = s.ktime) : Calm s t
  | raise0 {s : State} (f : Fn) {b : Nat} (hb : b < 16) : Calm s (s.raise0 f b)
  | setEng {s : State} (f : Fn) (e : FnEng) (hop : e.op = (s.eng f).op) (hday : e.dayT = (s.eng f).dayT) : Calm s (s.setEng f e)
  | account (s : State) : Calm s s.account

/-- What a quiet step must not touch but by its own steps. -/
def quietMask (m : Nat) : Bool :=
  !comIn m 0x10 && !m.testBit (Area.bit .engines) && !m.testBit (Area.bit .plans) && !m.testBit (Area.bit .sched) &&
    !m.testBit (Area.bit .ktime)

/-! ### The account of time -/

theorem State.eng_charge (s : State) (f g : Fn) (nAh ms : Nat) : (s.charge f nAh ms).eng g =
    if g = f then { s.eng f with dayE := (s.eng f).dayE + nAh, dayT := (s.eng f).dayT + ms } else s.eng g := by
  rw [State.charge, State.showDay]
  dsimp only
  split
  · next h =>
    subst h
    exact State.eng_setEng _ _ _
  · next h => exact State.eng_setEng_ne _ _ h

theorem State.op_charge (s : State) (f g : Fn) (nAh ms : Nat) : ((s.charge f nAh ms).eng g).op = (s.eng g).op := by
  rw [State.eng_charge]
  split
  · next h => rw [h]
  · rfl

theorem State.op_split (s : State) (nAh ms : Nat) (l : List Fn) (g : Fn) : ((s.split nAh ms l).eng g).op = (s.eng g).op := by
  have hfold (n m : Nat) (u : State) (k : List Fn) : ((k.foldl (fun s f => s.charge f n m) u).eng g).op = (u.eng g).op := by
    induction k generalizing u with
    | nil => rfl
    | cons f k ih => rw [List.foldl_cons, ih, State.op_charge]
  exact hfold _ _ s l

/-- Charges change no part of the schedule. -/
theorem State.sched_split (s : State) (nAh ms : Nat) (l : List Fn) : (s.split nAh ms l).sched = s.sched :=
  (State.split_keeps s nAh ms l .refl (within?_self _)).same (a := .sched) (by decide)

/-- Time that has been accounted for is not accounted for again. -/
theorem State.account_of_now (h : s.sched.useAt = s.ktime) : s.account = s := by
  have hs : ({ s with sched := { s.sched with useAt := s.ktime } } : State) = s := by
    cases s
    simp only [State.mk.injEq, true_and, and_true] at h ⊢
    rw [← h]
  unfold State.account
  dsimp only
  rw [if_pos (by omega), hs]

theorem State.op_account (s : State) (g : Fn) : (s.account.eng g).op = (s.eng g).op := by
  unfold State.account
  extract_lets dt rx cap _ u v
  have hv : (v.eng g).op = (u.eng g).op := by
    unfold v
    split
    · rfl
    · exact State.op_split u.fresh.2 _ _ _ g
  split
  · rfl
  · split
    · exact hv
    · exact (State.op_split v.fresh.2 _ _ _ g).trans hv

theorem State.sched_account (s : State) : s.account.sched = { s.sched with useAt := s.ktime } := by
  unfold State.account
  extract_lets dt rx cap _ u v
  have hv : v.sched = u.sched := by
    unfold v
    split
    · rfl
    · exact State.sched_split u.fresh.2 _ _ _
  split
  · rfl
  · split
    · exact hv
    · exact (State.sched_split v.fresh.2 _ _ _).trans hv

theorem State.ktime_account (s : State) : s.account.ktime = s.ktime :=
  (s.account_keeps .refl (within?_self _)).same (a := .ktime) (by decide)

theorem State.plans_account (s : State) : s.account.plans = s.plans :=
  (s.account_keeps .refl (within?_self _)).same (a := .plans) (by decide)

/-! ### What a quiet step leaves -/

namespace Calm

theorem tidy (h : Calm s t) (hs : s.Tidy) : t.Tidy := by
  induction h with
  | refl => exact hs
  | trans _ _ ih ih' => exact ih' (ih hs)
  | frame htidy => exact htidy hs
  | raise0 => exact State.tidy_raise0 hs
  | setEng => exact hs
  | account s => exact (s.account_keeps .refl (within?_self _)).tidy hs

/-- A bit of `INT_STAT0` that is set stays set. -/
theorem stays (h : Calm s t) (hs : s.Tidy) {c : Nat} (hc : c < 16) (hone : s.fget f ⟨0x10, c, c⟩ = 1) :
    t.fget f ⟨0x10, c, c⟩ = 1 := by
  induction h with
  | refl => exact hone
  | trans h _ ih ih' => exact ih' (h.tidy hs) (ih hs hone)
  | frame _ hbit => rw [hbit, hone]
  | raise0 g hb =>
    by_cases hg : f = g
    · subst hg
      rw [State.fget_raise0_bit hs.canon hb hc, hone, ite_self]
    · rw [State.fget_raise0_other _ _ (by decide : (0x10 : Nat) < 0x10000) (.inl hg), hone]
  | setEng => exact hone
  | account s =>
    have hkeeps := s.account_keeps .refl (within?_self _)
    refine (hkeeps.get_eq (x := (⟨0x10, c, c⟩ : Fld).on f.toNat) ?_).trans hone
    rw [regIn_on]
    change comIn _ 0x10 = false
    decide

/-- The ops in progress. -/
theorem op (h : Calm s t) (g : Fn) : (t.eng g).op = (s.eng g).op := by
  induction h with
  | refl => rfl
  | trans _ _ ih ih' => rw [ih', ih]
  | frame _ _ hfns => rw [State.eng, hfns, ← State.eng]
  | raise0 f =>
    obtain ⟨_, ha⟩ := State.eng_raise0 _ f g _
    rw [ha]
  | setEng f e hop =>
    by_cases hg : g = f
    · rw [hg, State.eng_setEng, hop]
    · rw [State.eng_setEng_ne _ _ hg]
  | account s => exact s.op_account g

theorem plans (h : Calm s t) : t.plans = s.plans := by
  induction h with
  | refl => rfl
  | trans _ _ ih ih' => rw [ih', ih]
  | frame _ _ _ hplans => exact hplans
  | raise0 f => exact (State.raise0_keeps _ f _ .refl (within?_self _)).same (a := .plans) (by decide)
  | setEng => rfl
  | account s => exact s.plans_account

theorem ktime (h : Calm s t) : t.ktime = s.ktime := by
  induction h with
  | refl => rfl
  | trans _ _ ih ih' => rw [ih', ih]
  | frame _ _ _ _ _ hktime => exact hktime
  | raise0 f => exact (State.raise0_keeps _ f _ .refl (within?_self _)).same (a := .ktime) (by decide)
  | setEng => rfl
  | account s => exact s.ktime_account

/-- Of the schedule, the account's own instant moves at most to the present. -/
theorem sched (h : Calm s t) : ∃ n, t.sched = { s.sched with useAt := n } ∧ (n = s.sched.useAt ∨ n = s.ktime) := by
  induction h with
  | refl => exact ⟨_, rfl, .inl rfl⟩
  | trans h _ ih ih' =>
    obtain ⟨n, hn, hor⟩ := ih
    obtain ⟨m, hm, hor'⟩ := ih'
    rw [hn] at hm hor'
    refine ⟨m, hm, hor'.elim (fun e => e ▸ hor) fun e => .inr (e.trans h.ktime)⟩
  | frame _ _ _ _ hsched => exact ⟨_, hsched, .inl rfl⟩
  | raise0 f => exact ⟨_, (State.raise0_keeps _ f _ .refl (within?_self _)).same (a := .sched) (by decide), .inl rfl⟩
  | setEng => exact ⟨_, rfl, .inl rfl⟩
  | account s => exact ⟨_, s.sched_account, .inr rfl⟩

/-- Where the time has been accounted for, it stays so and no day's use moves. -/
theorem dayT (h : Calm s t) (hnow : s.sched.useAt = s.ktime) (g : Fn) : (t.eng g).dayT = (s.eng g).dayT := by
  induction h with
  | refl => rfl
  | trans h _ ih ih' =>
    obtain ⟨n, hn, hor⟩ := h.sched
    rw [ih' (by rw [hn, h.ktime]; exact hor.elim (fun e => e.trans hnow) id), ih hnow]
  | frame _ _ hfns => rw [State.eng, hfns, ← State.eng]
  | raise0 f =>
    obtain ⟨_, ha⟩ := State.eng_raise0 _ f g _
    rw [ha]
  | setEng f e _ hday =>
    by_cases hg : g = f
    · rw [hg, State.eng_setEng, hday]
    · rw [State.eng_setEng_ne _ _ hg]
  | account s => rw [State.account_of_now hnow]

theorem ite {p : Prop} [Decidable p] (ht : Calm s t) (hu : Calm s u) : Calm s (if p then t else u) := by
  split
  · exact ht
  · exact hu

/-- An operation outside the areas that a quiet step keeps. -/
theorem of_keeps {m : Nat} (h : Keeps m s t) (hm : quietMask m = true) : Calm s t := by
  simp only [quietMask, Bool.and_eq_true, Bool.not_eq_true'] at hm
  obtain ⟨⟨⟨⟨hbit, hfns⟩, hplans⟩, hsched⟩, hktime⟩ := hm
  exact .frame h.tidy (fun f c => h.get_eq (x := (⟨0x10, c, c⟩ : Fld).on f.toNat) ((regIn_on m f ⟨0x10, c, c⟩).trans hbit))
    (h.same (a := .engines) hfns) (h.same (a := .plans) hplans) (h.same (a := .sched) hsched) (h.same (a := .ktime) hktime)

/-- A step that carries the registers, the sparse stores, the engines, the plans, the schedule and the time over. -/
theorem of_regs (h : t.regs = s.regs) (ht : s.Tidy → t.Tidy) (hfns : t.fns = s.fns) (hplans : t.plans = s.plans)
    (hsched : t.sched = s.sched) (hktime : t.ktime = s.ktime) : Calm s t :=
  .frame ht (fun _ _ => State.get_of_regs h) hfns hplans hsched hktime

theorem put {x : Fld} {v : Nat} (hx : x.key < 0x10000) : Calm s (s.put x v) :=
  .frame State.tidy_put (fun _ _ => State.fget_put hx) rfl rfl rfl rfl

theorem putBit {x : Fld} {b : Bool} (hx : x.key < 0x10000) : Calm s (s.putBit x b) := put hx

theorem fput {x : Fld} {v : Nat} (hx : x.key < 0x10000) (hne : x.key ≠ 0x10) : Calm s (s.fput f x v) :=
  .frame State.tidy_fput (fun _ c => State.fget_fput_other (y := ⟨0x10, c, c⟩) v hx (by decide : 0x10 < 0x10000) (.inr hne.symm))
    rfl rfl rfl rfl

theorem raises {l : List Nat} (hl : ∀ b ∈ l, b < 16) : Calm s (l.foldl (fun s b => s.raise0 f b) s) := by
  induction l generalizing s with
  | nil => exact .refl s
  | cons b l ih =>
    exact (Calm.raise0 _ (hl b List.mem_cons_self)).trans (ih fun x hx => hl x (List.mem_cons_of_mem _ hx))

/-- The queue, the FILL record that is owed and the records held back. -/
theorem requeue (q : List Word) (n stamp : Nat) (held : List Rec) :
    Calm s (s.setEng f { s.eng f with queue := q, fill := n, fillStamp := stamp, held := held }) := .setEng f _ rfl rfl

theorem append (ws : List Word) : Calm s (s.append f ws) := by
  rw [State.append_eq]
  have hq := requeue (s := s) (f := f) ((s.eng f).queue ++ ws) (s.eng f).fill (s.eng f).fillStamp (s.eng f).held
  exact .ite (hq.trans (.raise0 _ (by decide))) hq

theorem writeRec {r : Rec} (hr : ∀ b ∈ r.bits, b < 16) : Calm s (s.writeRec f r) := by
  rw [State.writeRec_eq]
  refine .ite (.trans (.trans ?_ (append _)) (raises hr)) (.trans ?_ (raises hr))
  · exact .ite (.refl _) ((requeue (s.eng f).queue 0 0 (s.eng f).held).trans (append _))
  · unfold State.dropCounted
    extract_lets _ v
    exact (requeue (s.eng f).queue _ _ (s.eng f).held).trans (.trans (fput (x := DQ_LOST.w) (by decide) (by decide)) (.raise0 _ (by decide)))

theorem deliver {type : Nat} {payload : List Word} {bits : List Nat} {stamp : Nat} (hb : ∀ b ∈ bits, b < 16) :
    Calm s (s.deliver f type payload bits stamp) :=
  .ite (requeue (s.eng f).queue (s.eng f).fill (s.eng f).fillStamp _) (writeRec hb)

theorem deliverAll {type : Nat} {payload : List Word} {bits : List Nat} {stamp : Nat} (hb : ∀ b ∈ bits, b < 16)
    (l : List Fn) : Calm s (s.deliverAll type payload bits stamp l) := by
  induction l generalizing s with
  | nil => exact .refl s
  | cons f l ih => exact (deliver hb).trans ih

theorem planEvent (event cause id sec : Nat) : Calm s (s.planEvent f event cause id sec) := by
  have hrec : ∀ b ∈ [iWATCH_EVENT], b < 16 := by decide
  exact .ite ((deliver hrec).trans (put (by decide))) (deliver hrec)

theorem foldl {β : Type} {g : State → β → State} (hg : ∀ v b, Calm v (g v b)) (l : List β) : Calm s (l.foldl g s) := by
  induction l generalizing s with
  | nil => exact .refl s
  | cons b l ih => exact (hg s b).trans ih

/-! ### The end of a capture -/

theorem captRec {j : Job} {kind flags index w7 w89 tq stamp : Nat} {extra : List Word} {bits : List Nat}
    (hb : ∀ b ∈ bits, b < 16) : Calm s (s.captRec j kind flags index w7 w89 tq stamp extra bits) := deliverAll hb _

theorem writeBlock : Calm s s.writeBlock := by
  unfold State.writeBlock
  split
  · extract_lets bs at0 skip at1 used s1 _ s2 s3 s4
    have h1 : Calm s s1 := of_keeps (s.setBytes_keeps _ _ .refl (within?_self _)) (by decide)
    clear_value s1
    have h3 : Calm s s3 := h1.trans (.trans (t := s2) (of_regs rfl id rfl rfl rfl rfl) ((put (by decide)).trans
      (of_keeps (State.showRptr_keeps _ .refl (within?_self _)) (by decide))))
    clear_value s3
    have h4 : Calm s s4 := .ite (h3.trans (captRec (List.forall_mem_nil _))) h3
    clear_value s4
    exact .ite (h4.trans (of_keeps (State.showFree_keeps _ .refl (within?_self _)) (by decide))) (.refl s)
  · exact .refl s

theorem discont (stamp tq n : Nat) : Calm s (s.discont stamp tq n) := by
  unfold State.discont
  split
  · extract_lets s1 _ s2 s3
    have h1 : Calm s s1 := writeBlock.trans (of_keeps (State.cutSnippet_keeps _ .refl (within?_self _)) (by decide))
    clear_value s1
    have h2 : Calm s1 s2 := of_regs rfl id rfl rfl rfl rfl
    have h3 : Calm s2 s3 := (put (by decide)).trans (put (by decide))
    exact h1.trans (h2.trans (h3.trans (captRec (List.forall_mem_nil _))))
  · exact .refl s

theorem closeGap (j : Job) : Calm s (s.closeGap j) := by
  unfold State.closeGap
  split
  · extract_lets n s1
    have h1 : Calm s s1 := (discont _ _ _).trans (of_keeps (State.skipFrames_keeps _ _ .refl (within?_self _)) (by decide))
    clear_value s1
    exact h1.trans (of_regs rfl id rfl rfl rfl rfl)
  · exact .refl s

theorem setAct {x : Fld} {b : Bool} (hx : x.key < 0x10000) : Calm s (s.setAct x b) :=
  (put hx).trans (of_keeps (State.updMode_keeps _ .refl (within?_self _)) (by decide))

theorem captEnd (flags : Nat) : Calm s (s.captEnd flags) := by
  unfold State.captEnd
  split
  · rename_i j _
    extract_lets s1 _ s2 s3 past _ s4 s5 s6 s7
    have h1 : Calm s s1 := (Calm.account s).trans
      ((closeGap j).trans writeBlock)
    clear_value s1
    have h2 : Calm s s2 := by
      unfold s2
      split
      · exact h1.trans (of_regs rfl id rfl rfl rfl rfl)
      · exact h1
    clear_value s2
    have h3 : Calm s s3 := h2.trans (captRec (List.forall_mem_nil _))
    clear_value s3
    have h4 : Calm s s4 := h3.trans (of_regs rfl id rfl rfl rfl rfl)
    clear_value s4
    have h5 : Calm s s5 := h4.trans ((put (by decide)).trans ((put (by decide)).trans (put (by decide))))
    clear_value s5
    have h6 : Calm s s6 := h5.trans ((put (by decide)).trans
      (of_keeps (State.setRx_keeps _ _ _ _ _ .refl (within?_self _)) (by decide)))
    clear_value s6
    have h7 : Calm s s7 := .ite (h6.trans (setAct (by decide))) h6
    clear_value s7
    exact h7.trans ((of_keeps (State.setTrim_keeps _ .refl (within?_self _)) (by decide)).trans (setAct (by decide)))
  · exact .refl s

theorem captPut (c : Capt) {x : Fld} {b : Bool} (hx : x.key < 0x10000) :
    Calm s (({ s with capt := c } : State).putBit x b) :=
  .trans (t := { s with capt := c }) (of_regs rfl id rfl rfl rfl rfl) (putBit hx)

theorem captFollow : Calm s s.captFollow := by
  unfold State.captFollow
  extract_lets keep _ s1
  have h1 : Calm s s1 := of_regs rfl id rfl rfl rfl rfl
  clear_value s1
  split
  · refine .ite (h1.trans (captEnd 0)) (h1.trans ?_)
    exact captPut _ (by decide)
  · exact h1

theorem settle : Calm s s.settle := captFollow.trans (of_keeps (State.tunerFollow_keeps _ .refl (within?_self _)) (by decide) |>.trans
    (of_keeps (State.chgFollow_keeps _ (State.showActs_keeps _ (State.rxFollow_keeps _ .refl (by decide)) (by decide)) (by decide))
  (m := areasMask [.power, .mode, .frontEnd, .reg PWR_STAT.w, .reg MODE.w, .reg FMR_ODA_AID.w]) (by decide)))

end Calm

end Sys2Proof.Machine
end

section
/-! PROOFS. The oscillators and the core PLL (O4). -/

namespace Sys2Proof.Machine

open R

variable {s t : State} {f : Fn}

/-! ### X32 -/

/-- The rate of HOLD turns on the state of the timebase alone. -/
theorem State.holdRate_put {x : Fld} (v : Nat) (hx : x.key ≠ TIME_STAT.FALLBACK.key ∧ x.key ≠ TIME_SPAN.w.key ∧
    x.key ≠ TIME_X32_RESID.w.key) : (s.put x v).holdRate = s.holdRate := by
  obtain ⟨hstat, hspan, hresid⟩ := hx
  have hget (y : Fld) (hy : x.key ≠ y.key) : (s.put x v).get y = s.get y := State.get_put_ne s v hy.symm
  unfold State.holdRate State.bit
  rw [hget TIME_STAT.FALLBACK hstat, hget TIME_STAT.X32_MODEL_OK hstat, hget TIME_SPAN.w hspan, hget TIME_X32_RESID.w hresid]
  rfl

theorem exec_x32Qualified (s : State) (h : s.x32Starting = true) : exec .x32Qualified s = .next
    { (s.put CLK_STAT.X32_OK 1).put CLK_STAT.AON_SRC 0 with
      time := { ((s.put CLK_STAT.X32_OK 1).put CLK_STAT.AON_SRC 0).time with
        rate := ((s.put CLK_STAT.X32_OK 1).put CLK_STAT.AON_SRC 0).holdRate } } :=
  congrArg Host.Outcome.next (if_pos h)

theorem exec_x32Fail (s : State) (h : s.x32Starting = true) : exec .x32Fail s = .next s.x32Lost :=
  congrArg Host.Outcome.next (if_pos h)

theorem exec_x32MissingEdge (s : State) (h : s.bit CLK_STAT.X32_OK = true ∧ s.get MODE.CUR ≠ 0) :
    exec .x32MissingEdge s = .next s.x32Lost := congrArg Host.Outcome.next (if_pos h)

theorem State.tidy_clockEvent (h : s.Tidy) : s.clockEvent.Tidy := State.tidy_raise0 h

theorem State.x32Lost_shows (h : s.Tidy) : s.x32Lost.bit CLK_EVT.X32_FAIL = true ∧ s.x32Lost.bit CLK_STAT.X32_OK = false ∧
    s.x32Lost.bit CLK_STAT.AON_SRC = true ∧ s.x32Lost.bit TIME_STAT.FALLBACK = true ∧
    s.x32Lost.get MODE.CUR = s.get MODE.CUR ∧ s.x32Lost.fget .f0 INT_STAT0.HEALTH = 1 := by
  have hset : (s.put CLK_EVT.X32_FAIL 1).clockEvent.fget .f0 INT_STAT0.HEALTH = 1 :=
    State.fget_raise0_same (State.tidy_put h).canon (by decide)
  unfold State.x32Lost
  dsimp only
  refine ⟨?_, ?_, ?_, ?_, ?_, ?_⟩
  · simp (decide := true) (maxDischargeDepth := 9) [State.bit, State.clockEvent, h]
  · simp (decide := true) (maxDischargeDepth := 9) [State.bit, State.clockEvent, h]
  · simp (decide := true) (maxDischargeDepth := 9) [State.bit, State.clockEvent, h]
  · simp (decide := true) (maxDischargeDepth := 9) [State.bit, State.clockEvent, h]
  · simp (decide := true) (maxDischargeDepth := 9) [State.clockEvent, h]
  · rw [State.fget_mk, State.fget_put (by decide), State.fget_put (by decide), State.fget_put (by decide), hset]

/-! ### XO and the PLL -/

theorem exec_xoQualified (us : Nat) (s : State) (h : s.mode.xoTry = true ∧ s.coreRuns = true ∧ us < 0x10000) :
    exec (.xoQualified us) s = .next { (s.put CLK_STAT.XO_OK 1).putSat XO_START.w us with
      mode := { s.mode with xoTry := false }, time := { s.time with xoBad := false } } :=
  congrArg Host.Outcome.next (if_pos ⟨h.1, h.2.1⟩)

/-- XO has failed: the counters and registers show it, and the demand is dropped. -/
def State.xoGone (s : State) : State :=
  let s := ((s.put CLK_EVT.XO_FAIL 1).inc CLK_FAILCNT.XO).put XO_START.w 0xFFFF
  { s with
    mode := { s.mode with xoTry := false }, time := { s.time with xoBad := true },
    hlt := { s.hlt with xoFails := bump s.dayNo s.hlt.xoFails } }

theorem exec_xoFail (s : State) (h : s.mode.xoTry = true ∧ s.coreRuns = true) :
    exec .xoFail s = .next (s.xoGone.clockEvent.missRuns (fun _ => true) 6).settle := congrArg Host.Outcome.next (if_pos h)

theorem exec_xoRetry (s : State) (h : s.coreRuns = true ∧ s.bit CLK_STAT.XO_OK = false) :
    exec .xoRetry s = .next s.xoStart := congrArg Host.Outcome.next (if_pos (by simpa using h))

theorem exec_pllLock (hfrcErr : Int) (s : State) (h : s.bit CLK_STAT.XO_OK = true ∧ s.coreRuns = true) :
    exec (.pllLock hfrcErr) s = .next ((((s.put CLK_STAT.PLL_LOCK 1).put CLK_STAT.CORE_SRC 1).put HFRC_ERR.w
      (code16 hfrcErr)).put CLK_STAT.HFRC_TRIMMED 1) := congrArg Host.Outcome.next (if_pos h)

/-- Both attempts at a lock have failed. -/
def State.pllGone (s : State) : State := ((s.put CLK_EVT.PLL_FAIL 1).inc CLK_FAILCNT.PLL).clockEvent.noteFault

theorem State.pllGone_shows (h : s.Tidy) : s.pllGone.Tidy ∧ s.pllGone.bit CLK_EVT.PLL_FAIL = true ∧
    s.pllGone.fget .f0 INT_STAT0.HEALTH = 1 := by
  have ht : ((s.put CLK_EVT.PLL_FAIL 1).inc CLK_FAILCNT.PLL).Tidy := State.tidy_put (State.tidy_put h)
  unfold State.pllGone State.noteFault
  refine ⟨State.tidy_clockEvent ht, ?_, ?_⟩
  · simp (decide := true) (maxDischargeDepth := 9) [State.bit, State.clockEvent, State.inc, State.putSat, h]
  · rw [State.fget_mk]
    exact State.fget_raise0_same ht.canon (by decide)

/-- An open value leaves the registers. -/
theorem State.fresh_shows (h : s.Tidy) : s.fresh.2.Tidy ∧ (∀ x, s.fresh.2.get x = s.get x) ∧
    ∀ f x, s.fresh.2.fget f x = s.fget f x := ⟨h, fun _ => rfl, fun _ _ => rfl⟩

theorem exec_pllFail (s : State) (h : s.bit CLK_STAT.XO_OK = true ∧ s.bit CLK_STAT.PLL_LOCK = false ∧ s.coreRuns = true) :
    exec .pllFail s = .next (s.pllGone.fresh.2.missRuns (fun rw => needsPika rw.2.words && recKind rw.2.words != kCAPT)
      (s.pllGone.fresh.1.toNat % 0x100)).settle := congrArg Host.Outcome.next (if_pos (by simpa using h))

theorem code16_lt (v : Int) : code16 v < 0x10000 := (BitVec.ofInt 16 v).isLt

/-- The clock registers stand while occurrences end. -/
theorem State.get_missRuns_settle {x : Fld} (p : Run × Watch → Bool) (cause : Nat)
    (hx : x.key = CLK_EVT.w.key ∨ x.key = XO_START.w.key) : (s.missRuns p cause).settle.get x = s.get x := by
  have hmiss := s.missRuns_keeps p cause .refl (within?_self _)
  have hsettle := (s.missRuns p cause).settle_keeps .refl (within?_self _)
  rcases hx with hx | hx
  · exact (hsettle.get_eq (by rw [hx]; decide)).trans (hmiss.get_eq (by rw [hx]; decide))
  · exact (hsettle.get_eq (by rw [hx]; decide)).trans (hmiss.get_eq (by rw [hx]; decide))

/-- A bit of `INT_STAT0` that is set stays set while occurrences are missed and what served them ends. -/
theorem State.stays_missRuns_settle (p : Run × Watch → Bool) (cause : Nat) (h : s.Tidy) {c : Nat} (hc : c < 16)
    (hone : s.fget f ⟨0x10, c, c⟩ = 1) : (s.missRuns p cause).settle.fget f ⟨0x10, c, c⟩ = 1 := by
  unfold State.missRuns
  extract_lets hit u _ v
  have hu : u.fget f ⟨0x10, c, c⟩ = 1 := (Calm.account s).stays h hc hone
  have hv : v.Tidy ∧ v.fget f ⟨0x10, c, c⟩ = 1 := ⟨(Calm.account s).tidy h, hu⟩
  have hrest : Calm v (hit.foldl (fun s rw => s.missed rw.1.fn rw.2 rw.1.nominal cause) v).settle :=
    (Calm.foldl (fun _ _ => .planEvent _ _ _ _) hit).trans .settle
  exact hrest.stays hv.1 hc hv.2

/-- Settles O4: each event by the lemma that gives its next state; HEALTH stands while occurrences end by `Calm`. -/
theorem clockCommandsComplete : Obligations.ClockCommandsComplete := by
  unfold Obligations.ClockCommandsComplete
  refine ⟨.intro _ exec_x32Qualified fun s hc _ => ?_, .intro _ exec_x32Fail fun s hc hs => ?_,
    .intro _ exec_x32MissingEdge fun s hc _ => ?_, fun us => .intro _ (exec_xoQualified us) fun s hc ⟨_, _, hus⟩ => ?_,
    .intro _ exec_xoFail fun s hc _ => ?_, .intro _ exec_xoRetry fun s _ _ => ⟨rfl, OnlyRegs.of_regs rfl⟩,
    fun v => .intro _ (exec_pllLock v) fun s hc _ => ?_, .intro _ exec_pllFail fun s hc _ => ?_⟩
  · refine ⟨by simp (decide := true) [State.bit, hc.tidy], by simp (decide := true) [State.bit, hc.tidy], ?_⟩
    exact (State.holdRate_put _ (by decide)).trans (State.holdRate_put _ (by decide))
  · obtain ⟨hevt, -, haon, hfall, hcur, hhealth⟩ := State.x32Lost_shows hc.tidy
    have hon : s.get MODE.CUR ≠ 0 := by
      simp only [State.x32Starting, Bool.and_eq_true, bne_iff_ne] at hs
      exact hs.1.1.2
    exact ⟨hevt, haon, by simp [State.hfrcOn, hcur, hon, hfall], hfall, hhealth⟩
  · obtain ⟨hevt, hok, haon, hfall, -⟩ := State.x32Lost_shows hc.tidy
    exact ⟨hevt, hok, haon, hfall⟩
  · refine ⟨by simp (decide := true) [State.bit, State.putSat, hc.tidy], ?_, rfl,
      (OnlyRegs.put (by decide) 1).trans (OnlyRegs.put (by decide) _)⟩
    exact (State.get_put_self (State.tidy_put hc.tidy) (by decide)).trans (putSat_mod_word hus)
  · have ht : s.xoGone.Tidy := State.tidy_put (State.tidy_put (State.tidy_put hc.tidy))
    have hmiss := s.xoGone.clockEvent.missRuns_keeps (fun _ => true) 6 .refl (within?_self _)
    have htime : (s.xoGone.clockEvent.missRuns (fun _ => true) 6).settle.time = s.xoGone.clockEvent.time :=
      Eq.trans ((State.settle_keeps _ .refl (within?_self _)).same (a := .time) (by decide))
        (hmiss.same (a := .time) (by decide))
    rw [State.bit, State.get_missRuns_settle (x := CLK_EVT.XO_FAIL) _ _ (.inl rfl),
      State.get_missRuns_settle (x := XO_START.w) _ _ (.inr rfl), htime]
    refine ⟨?_, ?_, congrArg TimeEng.xoBad ((s.xoGone.raise0_keeps .f0 iHEALTH .refl (within?_self _)).same (a := .time)
      (by decide))⟩
    · simp (decide := true) (maxDischargeDepth := 9) [State.xoGone, State.clockEvent, State.inc, State.putSat, hc.tidy]
    · simp (decide := true) (maxDischargeDepth := 9) [State.xoGone, State.clockEvent, State.inc, State.putSat, hc.tidy]
  · refine ⟨?_, ?_, ?_, ?_, ?_⟩
    · simp (decide := true) (maxDischargeDepth := 9) [State.bit, hc.tidy]
    · simp (decide := true) (maxDischargeDepth := 9) [State.bit, hc.tidy]
    · simp (decide := true) (maxDischargeDepth := 9) [hc.tidy]
      exact Nat.mod_eq_of_lt (code16_lt v)
    · simp (decide := true) (maxDischargeDepth := 9) [State.bit, hc.tidy]
    · exact (OnlyRegs.put (by decide) _).trans ((OnlyRegs.put (by decide) _).trans ((OnlyRegs.put (by decide) _).trans
        (OnlyRegs.put (by decide) _)))
  · obtain ⟨ht, hevt, hhealth⟩ := State.pllGone_shows hc.tidy
    obtain ⟨htf, hget, hfget⟩ := State.fresh_shows ht
    rw [State.bit, State.get_missRuns_settle (x := CLK_EVT.PLL_FAIL) _ _ (.inl rfl), hget]
    exact ⟨hevt, State.stays_missRuns_settle _ _ htf (c := 10) (by decide) ((hfget .f0 _).trans hhealth)⟩

end Sys2Proof.Machine
end

section
/-! PROOFS. The `WAKE_N` protocol (O9). -/

namespace Sys2Proof.Machine

open R

variable {s t : State} {f : Fn}

/-! ### A wake keeps the protocol's state -/

/-- A wake that finds nothing to wake, is delayed, or starts. -/
theorem State.wake_cases (s : State) (c : Nat) : s.wake c = s ∨
    s.wake c = s.probeCut.delayWake (some c) s.probeCut.wakeMv ∨ s.wake c = s.probeCut.wakeStart c := by
  unfold State.wake
  split
  · dsimp only
    split
    · exact .inr (.inl rfl)
    · exact .inr (.inr rfl)
  · exact .inl rfl

theorem State.mode_probeCut (s : State) : s.probeCut.mode = s.mode :=
  (s.probeCut_keeps .refl (within?_self _)).same (a := .mode) (by decide)

theorem State.mode_chgState (s : State) (v : Nat) : (s.chgState v).mode = s.mode :=
  (s.chgState_frame v).same (a := .mode) (by decide)

theorem State.mode_wakeStart (s : State) (c : Nat) : ∃ load, (s.wakeStart c).mode =
    { s.mode with waking := some c, entering := false, delayed := none, xoTry := true, xoLoad := load } := by
  unfold State.wakeStart
  dsimp only
  split <;> exact ⟨_, rfl⟩

/-- What the protocol holds, and what the retries need, is no part of a wake. -/
theorem State.mode_wake (s : State) (c : Nat) : (s.wake c).mode.collidedWait = s.mode.collidedWait ∧
    (s.wake c).mode.driving = s.mode.driving := by
  have hwait := congrArg ModeEng.collidedWait s.mode_probeCut
  have hdriving := congrArg ModeEng.driving s.mode_probeCut
  rcases s.wake_cases c with h | h | h
  · rw [h]
    exact ⟨rfl, rfl⟩
  · rw [h, State.delayWake, State.mode_chgState]
    exact ⟨hwait, hdriving⟩
  · obtain ⟨_, hmode⟩ := s.probeCut.mode_wakeStart c
    rw [h, hmode]
    exact ⟨hwait, hdriving⟩

theorem State.mode_resumed (s : State) : s.resumed.mode.collidedWait = s.mode.collidedWait ∧
    s.resumed.mode.driving = s.mode.driving := by
  unfold State.resumed
  exact State.mode_wake _ 4

theorem State.get_resumed (s : State) (x : Fld) (hx : x.key = WAKE_HREASON.w.key) : s.resumed.get x = s.get x := by
  have hres := s.resumed_keeps .refl (within?_self _)
  exact hres.get_eq (by rw [hx]; decide)

/-- The marks of a collision. -/
def State.collided (s : State) (reason : Nat) : State :=
  let s := ((s.put WAKE_HREASON.PEND 1).put WAKE_HREASON.COLLIDED 1).put WAKE_HREASON.REASON reason
  let s := s.inc WAKE_MON.COLL_CNT
  { s with mode := { s.mode with collidedWait := true, retries := 0, driving := none } }

theorem State.collided_shows (h : s.Tidy) {reason : Nat} (hr : reason < 8) : (s.collided reason).get WAKE_HREASON.PEND = 1 ∧
    (s.collided reason).get WAKE_HREASON.COLLIDED = 1 ∧ (s.collided reason).get WAKE_HREASON.REASON = reason := by
  simp (decide := true) (maxDischargeDepth := 9) [State.collided, State.inc, State.putSat, h]
  exact Nat.mod_eq_of_lt (b := 16) (by omega)

theorem State.collide_eq (s : State) (reason : Nat) : s.collide reason = (s.collided reason).resumed := rfl

/-- The collision's marks stand after the resume it is. -/
theorem State.collide_shows (h : s.Tidy) {reason : Nat} (hr : reason < 8) : (s.collide reason).bit WAKE_HREASON.PEND = true ∧
    (s.collide reason).bit WAKE_HREASON.COLLIDED = true ∧ (s.collide reason).get WAKE_HREASON.REASON = reason ∧
    (s.collide reason).mode.collidedWait = true ∧ (s.collide reason).mode.driving = none := by
  obtain ⟨hpend, hcoll, hreason⟩ := State.collided_shows h hr
  obtain ⟨hwait, hdriving⟩ := (s.collided reason).mode_resumed
  rw [State.collide_eq, hwait, hdriving, State.get_resumed _ WAKE_HREASON.REASON rfl, hreason, State.bit, State.bit,
    State.get_resumed _ WAKE_HREASON.PEND rfl, hpend, State.get_resumed _ WAKE_HREASON.COLLIDED rfl, hcoll]
  exact ⟨rfl, rfl, rfl, rfl, rfl⟩

/-! ### The events -/

theorem exec_remoteWakeAttempt_high (reason : Nat) (s : State) (h : s.mode.heldReason = some reason ∧ s.mayAttempt = true) :
    exec (.remoteWakeAttempt reason true) s = .next (({ s with
      mode := { s.mode with heldReason := none, retries := s.get WAKE_CFG.RETRIES } } : State).driveWake reason) :=
  congrArg Host.Outcome.next (if_pos h)

theorem exec_remoteWakeAttempt_low (reason : Nat) (s : State) (h : s.mode.heldReason = some reason ∧ reason < 8 ∧
    s.mayAttempt = true) : exec (.remoteWakeAttempt reason false) s =
      .next (({ s with mode := { s.mode with heldReason := none } } : State).collide reason) :=
  congrArg Host.Outcome.next (if_pos ⟨h.1, h.2.2⟩)

theorem exec_remoteWakeSample_high {r : Nat} (s : State) (h : s.mode.driving = some r) :
    exec (.remoteWakeSample true) s = .next (((({ s.inc WAKE_HREASON.TRIES with
      mode := { s.mode with driving := none }, pins := { s.pins with wakeDrive := false } } : State).putBit WAKE_MON.LEVEL
        true).put WAKE_HREASON.PEND 1).put WAKE_HREASON.REASON r) := by
  change execRemoteWakeSample true s = _
  rw [execRemoteWakeSample, h]
  rfl

theorem exec_remoteWakeRetry_high (s : State) (h : s.bit WAKE_HREASON.PEND = true ∧ 0 < s.mode.retries ∧
    s.mode.hostAccess = false ∧ s.mayDrive = true) : exec (.remoteWakeRetry true) s =
      .next (({ s with mode := { s.mode with retries := s.mode.retries - 1 } } : State).driveWake
        (s.get WAKE_HREASON.REASON)) := congrArg Host.Outcome.next (if_pos (by simpa using h))

theorem exec_wakeNStuck (s : State) (h : s.mode.lowTaken = true ∧ s.bit WAKE_MON.STUCK = false) :
    exec .wakeNStuck s = .next ((s.put WAKE_MON.STUCK 1).raise1 jHOSTPORT_ERROR) :=
  congrArg Host.Outcome.next (if_pos (by simpa using h))

theorem exec_wakeNReleased (s : State) (h : s.mode.heldReason = none) : exec .wakeNReleased s =
    .next { (s.put WAKE_MON.STUCK 0).put WAKE_MON.LEVEL 1 with mode := { s.mode with lowTaken := false } } := by
  change execWakeNReleased s = _
  unfold execWakeNReleased
  dsimp only
  rw [show ((s.put WAKE_MON.STUCK 0).put WAKE_MON.LEVEL 1).mode = s.mode from rfl, h]

/-- Settles O9: each event by the lemma that gives its next state, a collision by `State.collide_shows`. -/
theorem wakeLineCommandsComplete : Obligations.WakeLineCommandsComplete := by
  unfold Obligations.WakeLineCommandsComplete
  refine ⟨fun r => .intro _ (exec_remoteWakeAttempt_high r) fun s hc _ => ?_,
    fun r => .intro _ (exec_remoteWakeAttempt_low r) fun s hc ⟨_, hr, _⟩ => ?_,
    fun r => .intro _ (fun s h => exec_remoteWakeSample_high (r := r) s h.1) fun s hc ⟨_, hr⟩ => ?_,
    .intro _ exec_remoteWakeRetry_high fun s hc _ => ⟨rfl, rfl, rfl, OnlyRegs.put (by decide) 0⟩,
    .intro _ exec_wakeNStuck fun s hc _ => ?_, .intro _ exec_wakeNReleased fun s hc _ => ?_⟩
  · refine ⟨rfl, rfl, rfl, rfl, ?_, OnlyRegs.put (by decide) 0⟩
    simp (decide := true) [State.bit, State.driveWake, hc.tidy]
  · exact State.collide_shows (s := { s with mode := { s.mode with heldReason := none } }) hc.tidy hr
  · refine ⟨rfl, rfl, ?_, ?_, ?_, ?_⟩
    · simp (decide := true) (maxDischargeDepth := 12) [State.bit, State.inc, State.putSat, State.putBit, hc.tidy]
    · simp (decide := true) (maxDischargeDepth := 12) [State.inc, State.putSat, State.putBit, hc.tidy]
      exact Nat.mod_eq_of_lt (b := 16) (by omega)
    · simp (decide := true) (maxDischargeDepth := 12) [State.bit, State.inc, State.putSat, State.putBit, hc.tidy]
    · exact (OnlyRegs.of_regs rfl).trans ((OnlyRegs.put (by decide) _).trans ((OnlyRegs.put (by decide) _).trans
        ((OnlyRegs.put (by decide) _).trans (OnlyRegs.put (by decide) _))))
  · refine ⟨?_, State.fget_raise1_same (State.tidy_put hc.tidy).canon (by decide)⟩
    simp (decide := true) [State.bit, hc.tidy]
  · refine ⟨?_, ?_, rfl, (OnlyRegs.put (by decide) 0).trans (OnlyRegs.put (by decide) 1)⟩
    · simp (decide := true) [State.bit, hc.tidy]
    · simp (decide := true) [State.bit, hc.tidy]

end Sys2Proof.Machine
end

section
/-! PROOFS. The twin roles (O12): the record of a failed swap is held back while Marten does not run, and with it TWIN_EVENT. -/

namespace Sys2Proof.Machine

open R

/-- A unit whose Marten does not run, with a swap that no claim has answered. -/
def swapUnanswered : State := { State.reset with twin := { State.reset.twin with swapAt := some 0 } }

theorem canon_swapUnanswered : swapUnanswered.Canon := resetIsCanonical

/-- F0's record is held back until Marten runs, so its TWIN_EVENT does not set. -/
theorem exec_swapFailed_held : ∃ t, exec .swapFailed swapUnanswered = .next t ∧ t.fget .f0 INT_STAT0.TWIN_EVENT = 0 :=
  ⟨_, rfl, by decide +kernel⟩

/-- Refutes O12: SWAP_FAILED without Marten leaves TWIN_EVENT of F0 at 0, because the record that sets it is held back. -/
theorem not_twinRoleCommandsComplete : ¬ Obligations.TwinRoleCommandsComplete := by
  unfold Obligations.TwinRoleCommandsComplete
  rintro ⟨-, -, -, -, -, -, -, -, hswap, -⟩
  obtain ⟨t, hexec, -, -, hall⟩ := hswap swapUnanswered canon_swapUnanswered rfl
  obtain ⟨u, hu, hbit⟩ := exec_swapFailed_held
  obtain rfl : t = u := Host.Outcome.next.inj (hexec.symm.trans hu)
  exact absurd (hall .f0) (by rw [hbit]; decide)

end Sys2Proof.Machine
end

section
/-! PROOFS. Checkpoints (O13): the record of the partner's self-test is held back while a function's reset runs. -/

namespace Sys2Proof.Machine

open R

/-- An awake unit with twinning enabled, while the reset of F0 runs. -/
def twinDuringReset : State :=
  let s : State := { State.reset with
    pins := { Pins.start with vddio := true }, mode := { ModeEng.start with ready := true },
    boot := { Boot.start with marten := true } }
  (s.put TWIN_STAT.EN 1).fput .f0 FN_STATE.RESET_BUSY 1

theorem canon_twinDuringReset : twinDuringReset.Canon :=
  (State.tidy_fput (State.tidy_put resetIsCanonical)).canon

/-- The packet error check of the partner's result that no check failed. -/
def partnerResultPec : Byte := crc8 [BitVec.ofNat 8 (2 * (twinDuringReset.get TWIN_XBASE.w)), 3, 0, 0, 0]

/-- F0's record waits for the end of its reset, so its TWIN_EVENT does not set. -/
theorem exec_twinFrameReceived_held : ∃ t, exec (.twinFrameReceived [3, 0, 0, 0] partnerResultPec) twinDuringReset = .next t ∧
    t.fget .f0 INT_STAT0.TWIN_EVENT = 0 := ⟨_, rfl, by decide +kernel⟩

/-- Refutes O13: the partner's self-test result leaves TWIN_EVENT of F0 at 0 while the reset of F0 runs. -/
theorem not_checkpointCommandsComplete : ¬ Obligations.CheckpointCommandsComplete := by
  unfold Obligations.CheckpointCommandsComplete
  rintro ⟨-, -, -, -, hresult, -⟩
  obtain ⟨t, hexec, -, -, hall⟩ := hresult 0 partnerResultPec twinDuringReset canon_twinDuringReset
    (by decide +kernel)
  obtain ⟨u, hu, hbit⟩ := exec_twinFrameReceived_held
  obtain rfl : t = u := Host.Outcome.next.inj (hexec.symm.trans hu)
  exact absurd (hall .f0) (by rw [hbit]; decide)

end Sys2Proof.Machine
end

section
/-! PROOFS. Ops: when one executes, and where one has ended. -/

namespace Sys2Proof.Machine

open R

variable {s t u : State} {f g : Fn}

/-- An op in progress without an outcome executes on its arguments. -/
theorem State.withOp_of {code start : Nat} {args : List Word} (h : (s.eng f).op = some ⟨code, args, start, none⟩)
    (act : List Word → State) : s.withOp f code act = act args := by
  rw [State.withOp, h]
  exact if_pos ⟨rfl, rfl⟩

/-- An op that Flint serves executes once no earlier one is before it. -/
theorem State.withFlint_of {code start : Nat} {args : List Word} (hturn : s.flintWaits f = false)
    (h : (s.eng f).op = some ⟨code, args, start, none⟩) (act : List Word → State) : s.withFlint f code act = act args := by
  rw [State.withFlint, if_neg (by simp [hturn]), State.withOp_of h]

/-- An op in progress takes its outcome. -/
theorem State.ended_outcome {o : Op} (h : (s.eng f).op = some o) (err : Nat) (res : List Word) :
    Ended (s.outcome f err res) f err res := by
  simp [Ended, State.outcome, h]

/-- The end of an op stands while the ops stay. -/
theorem Ended.of_op {err : Nat} {res : List Word} (h : Ended s f err res) (hop : (t.eng f).op = (s.eng f).op) :
    Ended t f err res := by
  rw [Ended, hop]
  exact h

/-- An operation outside the engines leaves the ops. -/
theorem Keeps.op_eq {m : Nat} (h : Keeps m s t) (hm : m.testBit (Area.bit .engines) = false) (g : Fn) :
    (t.eng g).op = (s.eng g).op := by
  have hfns : t.fns = s.fns := h.same (a := .engines) hm
  rw [State.eng, hfns, ← State.eng]

theorem State.op_chargeOpen (s : State) (f g : Fn) : ((s.chargeOpen f).eng g).op = (s.eng g).op :=
  State.op_charge s.fresh.2 f g _ 0

theorem State.op_regAccess (s : State) (g : Fn) : (s.regAccess.eng g).op = (s.eng g).op := by
  obtain ⟨_, ha⟩ := s.eng_regAccess g
  rw [ha]

/-! ### What stands beside `FN_ERR` -/

section
variable (s t : State) (f g : Fn)

@[simp] theorem State.pins_errAfter : (s.errAfter t f).pins = t.pins := rfl

@[simp] theorem State.mode_errAfter : (s.errAfter t f).mode = t.mode := rfl

@[simp] theorem State.boot_errAfter : (s.errAfter t f).boot = t.boot := rfl

@[simp] theorem State.img_errAfter : (s.errAfter t f).img = t.img := rfl

@[simp] theorem State.tw_errAfter : (s.errAfter t f).tw = t.tw := rfl

@[simp] theorem State.sched_errAfter : (s.errAfter t f).sched = t.sched := rfl

@[simp] theorem State.fe_errAfter : (s.errAfter t f).fe = t.fe := rfl

@[simp] theorem State.time_errAfter : (s.errAfter t f).time = t.time := rfl

@[simp] theorem State.edf_errAfter : (s.errAfter t f).edf = t.edf := rfl

@[simp] theorem State.ap_errAfter : (s.errAfter t f).ap = t.ap := rfl

@[simp] theorem State.capt_errAfter : (s.errAfter t f).capt = t.capt := rfl

@[simp] theorem State.twin_errAfter : (s.errAfter t f).twin = t.twin := rfl

@[simp] theorem State.hlt_errAfter : (s.errAfter t f).hlt = t.hlt := rfl

@[simp] theorem State.mem_errAfter : (s.errAfter t f).mem = t.mem := rfl

@[simp] theorem State.hostOut_errAfter : (s.errAfter t f).hostOut = t.hostOut := rfl

@[simp] theorem State.eng_errAfter : (s.errAfter t f).eng g = t.eng g := rfl

@[simp] theorem State.plan_errAfter : (s.errAfter t f).plan g = t.plan g := rfl

end

/-! ### Fields of the common part -/

/-- An operation leaves the fields of the common part that are outside its areas, in every function. -/
theorem Keeps.fget_eq {m : Nat} {x : Fld} (h : Keeps m s t) (hx : comIn m x.key = false) : t.fget f x = s.fget f x :=
  h.get_eq (x := x.on f.toNat) ((regIn_on m f x).trans hx)

@[simp] theorem State.tidy_putAll {x : Fld} {v : Nat} (h : s.Tidy) : (s.putAll x v).Tidy :=
  State.tidy_fput (State.tidy_fput (State.tidy_fput (State.tidy_fput h)))

@[simp] theorem State.get_putAll {x y : Fld} {v : Nat} (hy : y.key < 0x10000) : (s.putAll x v).get y = s.get y := by
  simp only [State.putAll, State.get_fput hy]

/-- A field set in every function. -/
@[simp] theorem State.fget_putAll {x : Fld} {v : Nat} (h : s.Tidy) (hx : x.sound = true) (hkey : x.key < 0x10000) :
    (s.putAll x v).fget f x = v % x.size := by
  have hne (g : Fn) (t : State) (hg : f ≠ g) : (t.fput g x v).fget f x = t.fget f x :=
    State.fget_fput_other v hkey hkey (.inl hg)
  have h1 := State.tidy_fput (f := .f0) (x := x) (v := v) h
  have h2 := State.tidy_fput (f := .f1) (x := x) (v := v) h1
  have h3 := State.tidy_fput (f := .f2) (x := x) (v := v) h2
  unfold State.putAll
  cases f
  · rw [hne _ _ (by decide), hne _ _ (by decide), hne _ _ (by decide), State.fget_fput_self h hx]
  · rw [hne _ _ (by decide), hne _ _ (by decide), State.fget_fput_self h1 hx]
  · rw [hne _ _ (by decide), State.fget_fput_self h2 hx]
  · exact State.fget_fput_self h3 hx

end Sys2Proof.Machine
end

section
/-! PROOFS. Health: the sample, the commands of `HLT_CMD`, and the self-test (O11). -/

namespace Sys2Proof.Machine

open R

variable {s t u : State} {f g : Fn}

/-! ### The monitors alone -/

/-- Of the health engine, the monitors alone have moved. -/
def MonsOnly (s t : State) : Prop := ∃ m, t.hlt = { s.hlt with mons := m }

namespace MonsOnly

theorem refl : MonsOnly s s := ⟨_, rfl⟩

theorem trans (h : MonsOnly s t) (k : MonsOnly t u) : MonsOnly s u := by
  obtain ⟨_, hm⟩ := h
  obtain ⟨n, hn⟩ := k
  exact ⟨n, by rw [hn, hm]⟩

theorem of_keeps {m : Nat} (h : Keeps m s t) (hm : m.testBit (Area.bit .health) = false) : MonsOnly s t :=
  ⟨_, h.same (a := .health) hm⟩

theorem ite {p : Prop} [Decidable p] (ht : MonsOnly s t) (hu : MonsOnly s u) : MonsOnly s (if p then t else u) := by
  split
  · exact ht
  · exact hu

theorem foldl {β : Type} {g : State → β → State} (hg : ∀ v b, MonsOnly v (g v b)) (l : List β) : MonsOnly s (l.foldl g s) := by
  induction l generalizing s with
  | nil => exact refl
  | cons b l ih => exact (hg s b).trans ih

theorem showMon (id : Nat) : MonsOnly s (s.showMon id) := by
  unfold State.showMon
  extract_lets m edge
  dsimp -zeta only
  extract_lets tell s1 s2 s3
  have h1 : MonsOnly s s1 := ⟨_, rfl⟩
  have h3 : MonsOnly s1 s3 := ⟨_, rfl⟩
  exact .ite (h1.trans (h3.trans (of_keeps (s3.healthRec_keeps _ _ _ _ .refl (within?_self _)) (by decide)))) (h1.trans h3)

theorem evaluate : MonsOnly s s.evaluate := by
  unfold State.evaluate
  obtain ⟨n, id⟩ := s.leastMonths
  dsimp -zeta only
  extract_lets s1 s2 worn s3
  have h1 : MonsOnly s s1 := ⟨_, rfl⟩
  have h2 : MonsOnly s1 s2 := foldl (fun _ _ => showMon _) _
  have h3 : MonsOnly s s3 := .ite ((h1.trans h2).trans ⟨_, rfl⟩) (h1.trans h2)
  exact .ite (h3.trans (of_keeps (s3.raiseReplace_keeps _ .refl (within?_self _)) (by decide))) h3

end MonsOnly

/-! ### The sample -/

theorem State.healthSample_shows (s : State) : s.healthSample.hlt.day = some s.dayNo ∧ s.healthSample.hlt.due = false := by
  unfold State.healthSample
  extract_lets s1 span s2 used _ s3
  rw [show s3.fresh = (s3.fresh.1, s3.fresh.2) from rfl]
  dsimp -zeta only
  have hfold (l : List Nat) (v : State) : Keeps (areasMask [.health]) v
      (l.foldl (fun s id => s.sampleMon (s.hlt.spanNo != span) id) v) := by
    induction l generalizing v with
    | nil => exact .refl
    | cons b l ih => exact (v.sampleMon_keeps _ _ .refl (by decide)).trans (ih _)
  have hkeeps : Keeps (areasMask [.health]) s s2 := (s.partnerBand_keeps .refl (by decide)).trans (hfold _ _)
  have hktime : s2.ktime = s.ktime := hkeeps.same (a := .ktime) (by decide)
  have hday : s2.dayNo = s.dayNo := by
    rw [State.dayNo, State.dayNo, State.sec, State.sec, hktime, hkeeps.get_eq (by decide)]
  have h4 : s3.fresh.2.hlt.day = some s.dayNo ∧ s3.fresh.2.hlt.due = false := ⟨congrArg some hday, rfl⟩
  generalize s3.fresh.1 = w at *
  generalize s3.fresh.2 = s4 at *
  obtain ⟨m, hm⟩ := MonsOnly.evaluate (s := s4.put CAL_TEMP.w w.toNat)
  have hcharge : ((s4.put CAL_TEMP.w w.toNat).evaluate.chargeOpen .f0).hlt = (s4.put CAL_TEMP.w w.toNat).evaluate.hlt :=
    (State.chargeOpen_keeps _ _ .refl (within?_self _)).same (a := .health) (by decide)
  rw [hcharge, hm]
  exact h4

theorem State.wantSample_of_awake (htq : codeOf s.time.whole ≠ 31) (hcur : s.get MODE.CUR ≠ 0) (hawake : s.awake = true)
    (hidle : s.active = false) : s.wantSample = s.healthSample := by
  simp [State.wantSample, htq, hcur, hawake, hidle]

theorem exec_healthSample (s : State) (h : s.hlt.due = true ∧ codeOf s.time.whole ≠ 31 ∧ s.get MODE.CUR ≠ 0 ∧
    s.awake = true ∧ s.active = false) : exec .healthSample s = .next s.healthSample := by
  obtain ⟨hdue, htq, hcur, hawake, hidle⟩ := h
  exact (congrArg Host.Outcome.next (if_pos (.inl hdue))).trans
    (congrArg Host.Outcome.next (State.wantSample_of_awake htq hcur hawake hidle))

/-! ### `HLT_CMD` -/

/-- The row of `HLT_CMD`: three command bits and a key. -/
def hltCmdDef : RegDef := ⟨0x1892, 0, 0, 0, 0xFF07, 0⟩

theorem regDef_hltCmd : regDef? HLT_CMD.w.key = some hltCmdDef := by decide

/-- A served write of `HLT_CMD` with its key: the access, then the bits that are set. -/
theorem State.cmdWrite_hltCmd {v : Word} (hv : legalWord f HLT_CMD.w.key v = true) (h : Serves s f 0x18) :
    s.cmdWrite f HLT_CMD.w v = s.regAccess.woBits f v
      [(0, State.wantSample), (1, fun s => s.replaceClr f), (2, fun s => s.svcStart f)] := by
  rw [State.cmdWrite_page_legal regDef_hltCmd (by decide) (by decide) rfl (by decide) hv h]
  rfl

theorem exec_sampleNow (h : Serves s .f0 0x18) :
    exec (.sampleNow .f0) s = .next (s.regAccess.errAfter (s.regAccess.setErr .f0 0).wantSample .f0) := by
  rw [show exec (.sampleNow .f0) s = .next (s.cmdWrite .f0 HLT_CMD.w 0x6901) from rfl, State.cmdWrite_hltCmd (by decide) h,
    State.woBits_single (b := 0) (act := State.wantSample) (by simp)]

theorem exec_replaceClr (h : Serves s .f0 0x18) :
    exec (.replaceClr .f0) s = .next (s.regAccess.errAfter ((s.regAccess.setErr .f0 0).replaceClr .f0) .f0) := by
  rw [show exec (.replaceClr .f0) s = .next (s.cmdWrite .f0 HLT_CMD.w 0x6902) from rfl, State.cmdWrite_hltCmd (by decide) h,
    State.woBits_single (b := 1) (act := fun s => s.replaceClr .f0) (by simp)]

theorem exec_svcStart (h : Serves s .f0 0x18) :
    exec (.svcStart .f0) s = .next (s.regAccess.errAfter ((s.regAccess.setErr .f0 0).svcStart .f0) .f0) := by
  rw [show exec (.svcStart .f0) s = .next (s.cmdWrite .f0 HLT_CMD.w 0x6904) from rfl, State.cmdWrite_hltCmd (by decide) h,
    State.woBits_single (b := 2) (act := fun s => s.svcStart .f0) (by simp)]

/-! ### What the access leaves -/

/-- The access and a code in `FN_ERR` leave the rest. -/
theorem State.accessed_frame (s : State) (f : Fn) (c : Nat) : Keeps (areasMask Area.access) s (s.regAccess.setErr f c) :=
  State.setErr_keeps _ _ _ s.regAccess_keeps_access (by decide)

/-- What an access leaves of the mode engine is whether the unit is awake. -/
theorem State.awake_regAccess (s : State) : s.regAccess.awake = s.awake := by
  unfold State.regAccess
  dsimp only
  split
  · rw [State.awake_raise1]
    rfl
  · rfl

theorem State.active_congr (hslot : t.get MODE.SLOT_ACT = s.get MODE.SLOT_ACT) (hlisten : t.get MODE.LISTEN_ACT = s.get MODE.LISTEN_ACT)
    (hcapt : t.get MODE.CAPTURE_ACT = s.get MODE.CAPTURE_ACT) (hmaint : t.get MODE.MAINTAIN_ACT = s.get MODE.MAINTAIN_ACT) :
    t.active = s.active := by
  simp only [State.active, State.bit, hslot, hlisten, hcapt, hmaint]

theorem State.active_accessed (s : State) (f : Fn) (c : Nat) : (s.regAccess.setErr f c).active = s.active :=
  have h := s.accessed_frame f c
  State.active_congr (h.get_eq (by decide)) (h.get_eq (by decide)) (h.get_eq (by decide)) (h.get_eq (by decide))

/-! ### REPLACE -/

theorem State.monthsOf_le (s : State) (id : Nat) : s.monthsOf id ≤ 0xFF := by
  have hclamp (q : ℚ) : clampMonths q ≤ 253 := by
    unfold clampMonths
    omega
  have hcell : s.cellMonths ≤ 0xFF := by
    unfold State.cellMonths
    dsimp only
    split
    · split
      · exact le_rfl
      · split
        · decide
        · exact (hclamp _).trans (by decide)
    · exact le_rfl
  have htrend (m : Mon) : s.trendMonths id m ≤ 0xFF := by
    unfold State.trendMonths
    dsimp only
    split
    · exact le_rfl
    · split
      · split
        · decide
        · split
          · decide
          · exact (hclamp _).trans (by decide)
      · split
        · decide
        · split
          · decide
          · exact (hclamp _).trans (by decide)
      · exact le_rfl
  unfold State.monthsOf
  split
  · decide
  · split
    · exact hcell
    · decide
    · decide
    · decide
    · decide
    · split
      · exact (Nat.min_le_left _ _).trans (by decide)
      · decide
    · exact htrend _

theorem State.leastMonths_le (s : State) : s.leastMonths.1 ≤ 0xFF := by
  unfold State.leastMonths
  split
  · exact s.monthsOf_le _
  · exact le_rfl

/-- The monitors' months turn on the registers of the pages, the time, the front end and the health engine alone. -/
theorem State.leastMonths_congr (hget : ∀ x : Fld, x.key < 0x10000 → t.get x = s.get x) (hhlt : t.hlt = s.hlt)
    (hktime : t.ktime = s.ktime) (hfe : t.fe = s.fe) : t.leastMonths = s.leastMonths := by
  have hget32 (x : Fld) (hx : x.key + 1 < 0x10000) : t.get32 x = s.get32 x := by
    rw [State.get32, hget x (by omega), hget _ hx, ← State.get32]
  have hsec : t.sec = s.sec := by rw [State.sec, hktime, ← State.sec]
  have hday : t.dayNo = s.dayNo := by rw [State.dayNo, hsec, hget _ (by decide), ← State.dayNo]
  have hused : t.qUsed = s.qUsed := by
    unfold State.qUsed State.bit
    rw [hget32 LEDGER_L.w (by decide), hget32 TWIN_PLEDGER_L.w (by decide), hget32 HLT_SVC_L.w (by decide), hsec,
      hget TWIN_CFG.EN (by decide), hget HLT_STAT.SVC_SET (by decide), hget SCHED_I_REST.w (by decide)]
  have havail : t.qAvail = s.qAvail := by
    unfold State.qAvail
    rw [hget HLT_CELL_MAH.w (by decide), hget HLT_CELL_PCT.PCT (by decide)]
  have hage : t.ageMonths = s.ageMonths := by rw [State.ageMonths, hsec, hget32 _ (by decide), ← State.ageMonths]
  have hieff : t.iEff = s.iEff := by
    unfold State.iEff
    rw [hget CHG_CFG.CHG_LIMIT (by decide), hget THROT_AVG.FRAC (by decide)]
  have hileak : t.iLeak = s.iLeak := by
    unfold State.iLeak
    rw [hget RES_LEAK_EST.w (by decide)]
  have hband (id : Nat) : t.bandOf id = s.bandOf id := by
    have hweek (l : List (Nat × Nat)) : t.week l = s.week l := by rw [State.week, hday, ← State.week]
    have hsum (l : List (Nat × Nat)) : t.sum30 l = s.sum30 l := by rw [State.sum30, hday, ← State.sum30]
    have hdays (l : List (Nat × Nat)) : t.days30 l = s.days30 l := by rw [State.days30, hday, ← State.days30]
    unfold State.bandOf State.bit
    simp only [hweek, hsum, hdays]
    rw [hhlt, hused, havail, hage, hieff, hileak, hfe, hget HLT_CELL_MAH.w (by decide), hget TIME_STAT.FALLBACK (by decide),
      hget CAL_VCO_MARGIN.w (by decide), hget HLT_FAULT_LIM.w (by decide), hget HLT_STAT.SVC_SET (by decide),
      hget HLT_DESIGN_MO.w (by decide)]
  have hcell : t.cellMonths = s.cellMonths := by
    unfold State.cellMonths
    rw [hhlt, hday, hused, havail, hget HLT_CELL_MAH.w (by decide)]
  have hlimit (id : Nat) (q : ℚ) : t.limitOf id q = s.limitOf id q := by
    unfold State.limitOf
    rw [hget VBAT_FLOOR.FLOOR (by decide)]
  have htrend (id : Nat) (m : Mon) : t.trendMonths id m = s.trendMonths id m := by
    unfold State.trendMonths State.fitPoints
    rw [hget HLT_CFG.FIT_MO (by decide)]
    simp only [hlimit]
  have hmon (id : Nat) : t.mon id = s.mon id := by rw [State.mon, hhlt, ← State.mon]
  have hmonths : t.monthsOf = s.monthsOf := by
    funext id
    unfold State.monthsOf State.bit
    rw [hband, hcell, htrend, hmon, hage, hget HLT_STAT.SVC_SET (by decide), hget HLT_DESIGN_MO.w (by decide)]
  unfold State.leastMonths
  rw [hmonths]

/-- With no collision to note, an access leaves the months as they are. -/
theorem State.leastMonths_accessed (hwait : s.mode.collidedWait = false) (f : Fn) (c : Nat) :
    (s.regAccess.setErr f c).leastMonths = s.leastMonths := by
  have hacc : s.regAccess = { s with mode := { s.mode with hostAccess := true, retries := 0, collidedWait := false } } := by
    simp [State.regAccess, hwait]
  rw [hacc]
  exact State.leastMonths_congr (fun x hx => State.get_setErr (s := { s with mode := _ }) c hx) rfl rfl rfl

/-- What the registers of the monitors and their records change. -/
def monAreas : List Area := [.health] ++ Area.event ++ [.reg DQ_LOST.w] ++ Area.regs (HLT_MON.w 0) 16

theorem State.showMons_frame (s : State) (l : List Nat) : Keeps (areasMask monAreas) s (l.foldl State.showMon s) := by
  induction l generalizing s with
  | nil => exact .refl
  | cons id l ih => exact (s.showMon_keeps id .refl (by decide)).trans (ih _)

/-- The months of the least monitor stand in `HLT_LIFE` after an evaluation. -/
theorem State.months_evaluate (h : s.Tidy) : s.evaluate.get HLT_LIFE.MONTHS = s.leastMonths.1 := by
  have hle := s.leastMonths_le
  unfold State.evaluate
  generalize s.leastMonths = p at hle ⊢
  obtain ⟨n, id⟩ := p
  dsimp -zeta only
  extract_lets s1 s2 worn s3
  have h1 : s1.get HLT_LIFE.MONTHS = n := by
    simp (decide := true) [s1, h]
    exact Nat.mod_eq_of_lt (b := 256) (by omega)
  have h2 : s2.get HLT_LIFE.MONTHS = n := ((s1.showMons_frame monIds).get_eq (by decide)).trans h1
  have h3 : s3.get HLT_LIFE.MONTHS = n := by
    unfold s3
    split
    · exact (State.get_put_ne _ _ (by decide)).trans h2
    · exact h2
  split
  · exact ((s3.raiseReplace_keeps id .refl (within?_self _)).get_eq (by decide)).trans h3
  · exact h3

/-- An evaluation that finds more months than the limit lets REPLACE be cleared. -/
theorem State.replaceClr_shows (h : s.Tidy) (hset : s.bit HLT_STAT.REPLACE = true)
    (hmonths : s.get HLT_CFG.REPL_MO < s.leastMonths.1) : (s.replaceClr .f0).bit HLT_STAT.REPLACE = false ∧
      (s.replaceClr .f0).get HLT_STAT.REASON = 0 ∧ ∀ f, (s.replaceClr .f0).fget f FN_STATE.REPLACE = 0 := by
  have hkeeps := s.evaluate_keeps .refl (within?_self _)
  have ht : s.evaluate.Tidy := hkeeps.tidy h
  have hlimit : s.evaluate.get HLT_CFG.REPL_MO = s.get HLT_CFG.REPL_MO := hkeeps.get_eq (by decide)
  have hnot : ¬ s.evaluate.get HLT_LIFE.MONTHS ≤ s.evaluate.get HLT_CFG.REPL_MO := by
    rw [State.months_evaluate h, hlimit]
    exact Nat.not_le.mpr hmonths
  have hclr : s.replaceClr .f0 = (((s.evaluate.put HLT_STAT.REPLACE 0).put HLT_STAT.REASON 0).putAll FN_STATE.REPLACE 0).healthRec
      4 0 0 [] := by
    rw [State.replaceClr, if_neg (by simp), if_pos hset]
    exact if_neg hnot
  rw [hclr]
  generalize s.evaluate = u at ht
  have hrec := (((u.put HLT_STAT.REPLACE 0).put HLT_STAT.REASON 0).putAll FN_STATE.REPLACE 0).healthRec_keeps 4 0 0 [] .refl
    (within?_self _)
  refine ⟨?_, ?_, fun f => ?_⟩
  · rw [State.bit, hrec.get_eq (by decide)]
    simp (decide := true) (maxDischargeDepth := 12) [ht]
  · rw [hrec.get_eq (by decide)]
    simp (decide := true) (maxDischargeDepth := 12) [ht]
  · rw [hrec.fget_eq (by decide)]
    simp (decide := true) (maxDischargeDepth := 12) [ht]

/-! ### SVC_START -/

/-- The service begins: its instant stands, and the counters of R521 restart. -/
def State.svcBegun (s : State) : State :=
  let u := (s.put32 HLT_SVC_L.w s.sec).put HLT_STAT.SVC_SET 1
  let u := ((u.put HLT_CNT_HB.w 0).put HLT_CNT_SYS.w 0).put HLT_CNT_ECC.w 0
  { u with hlt := { u.hlt with spanNo := 0, mons := u.hlt.mons.map (fun m => { m with span := [] }) } }

theorem State.svcStart_of_first (htq : codeOf s.time.whole ≠ 31) (hset : s.bit HLT_STAT.SVC_SET = false) :
    s.svcStart .f0 = s.svcBegun := by
  rw [State.svcStart, if_neg (by simp), if_neg htq, if_neg (by simp [hset])]
  rfl

theorem State.svcStart_shows (h : s.Tidy) (htq : codeOf s.time.whole ≠ 31) (hset : s.bit HLT_STAT.SVC_SET = false)
    (hsec : s.sec < 0x100000000) : (s.svcStart .f0).bit HLT_STAT.SVC_SET = true ∧ (s.svcStart .f0).get32 HLT_SVC_L.w = s.sec ∧
      (s.svcStart .f0).get HLT_CNT_HB.w = 0 ∧ (s.svcStart .f0).get HLT_CNT_SYS.w = 0 ∧
      (s.svcStart .f0).get HLT_CNT_ECC.w = 0 := by
  rw [State.svcStart_of_first htq hset]
  have h32 : (s.put32 HLT_SVC_L.w s.sec).Tidy := State.tidy_put (State.tidy_put h)
  have hval : (s.put32 HLT_SVC_L.w s.sec).get32 HLT_SVC_L.w = s.sec := State.get32_put32 h hsec
  unfold State.svcBegun
  dsimp only
  generalize s.put32 HLT_SVC_L.w s.sec = u at h32 hval
  refine ⟨?_, ?_, ?_, ?_, ?_⟩
  · simp (decide := true) (maxDischargeDepth := 12) [State.bit, h32]
  · rw [← hval, State.get32, State.get32]
    simp (decide := true) (maxDischargeDepth := 12) [h32]
  · simp (decide := true) (maxDischargeDepth := 12) [h32]
  · simp (decide := true) (maxDischargeDepth := 12) [h32]
  · simp (decide := true) (maxDischargeDepth := 12) [h32]

/-! ### The self-test -/

/-- A self-test that ends with the checks that failed. -/
def State.selfTested (s : State) (f : Fn) (failed ms : Nat) : State :=
  (((s.feedSelf failed).chargeOpen .f0).outcome f 0 [BitVec.ofNat 16 failed, BitVec.ofNat 16 ms]).showMaintain

theorem exec_selftest (f : Fn) (mask ms start : Nat) (args : List Word) (s : State)
    (h : (s.eng f).op = some ⟨0xA, args, start, none⟩) (hsel : arg args 0 % 0x100 ≠ 0) : exec (.selftest f mask ms) s =
      .next (s.selfTested f (s.checkMask mask (allFns.any (fun g => (s.plan g).plan.any (fun w => lfWatch w.words)))
        s.hlt.volts &&& (arg args 0 % 0x100)) ms) := by
  change execSelftest f mask ms s = _
  rw [execSelftest, State.withOp_of h]
  dsimp only
  rw [if_neg hsel, State.selfTested]

theorem selftest_completes (f : Fn) (mask ms start : Nat) (args : List Word) (lf : Bool) : Completes (.selftest f mask ms)
    (fun s => (s.eng f).op = some ⟨0xA, args, start, none⟩ ∧ arg args 0 % 0x100 ≠ 0 ∧
      lf = allFns.any (fun g => (s.plan g).plan.any (fun w => lfWatch w.words)))
    (fun s t => Ended t f 0 [BitVec.ofNat 16 (s.checkMask mask lf s.hlt.volts &&& (arg args 0 % 0x100)), BitVec.ofNat 16 ms]) := by
  rintro s - ⟨hop, hsel, rfl⟩
  refine ⟨_, exec_selftest f mask ms start args s hop hsel, ?_⟩
  dsimp only
  rw [State.selfTested]
  generalize s.checkMask _ _ _ &&& _ = failed
  have hcharged : (((s.feedSelf failed).chargeOpen .f0).eng f).op = some ⟨0xA, args, start, none⟩ :=
    (State.op_chargeOpen (s.feedSelf failed) .f0 f).trans hop
  exact (State.ended_outcome hcharged _ _).of_op ((State.showMaintain_keeps _ .refl (within?_self _)).op_eq (by decide) f)

/-- Settles O11: the sample by `State.healthSample_shows`, the command words by `State.woBits_single`, the op by
`State.ended_outcome`. -/
theorem healthCommandsComplete : Obligations.HealthCommandsComplete := by
  unfold Obligations.HealthCommandsComplete
  refine ⟨.intro _ exec_healthSample fun s _ _ => s.healthSample_shows, ?_, ?_, ?_, selftest_completes⟩
  · rintro s hc ⟨hserves, htq, hcur, hawake, hidle⟩
    refine ⟨_, exec_sampleNow hserves, ?_⟩
    have hacc := s.accessed_frame .f0 0
    have htime : (s.regAccess.setErr .f0 0).time = s.time := hacc.same (a := .time) (by decide)
    have hawake' : (s.regAccess.setErr .f0 0).awake = true := (s.awake_regAccess).trans hawake
    rw [State.wantSample_of_awake (by rwa [htime]) (by rwa [hacc.get_eq (by decide)]) hawake'
      (by rwa [State.active_accessed])]
    have hday : (s.regAccess.setErr .f0 0).dayNo = s.dayNo := by
      rw [State.dayNo, State.dayNo, State.sec, State.sec, hacc.get_eq (by decide),
        show (s.regAccess.setErr .f0 0).ktime = s.ktime from hacc.same (a := .ktime) (by decide)]
    dsimp only
    rw [← hday, State.hlt_errAfter]
    exact State.healthSample_shows _
  · rintro s hc ⟨hserves, hwait, hset, hmonths⟩
    refine ⟨_, exec_replaceClr hserves, ?_⟩
    have hacc := s.accessed_frame .f0 0
    obtain ⟨hclr, hreason, hfn⟩ := State.replaceClr_shows (hacc.tidy hc.tidy) (by rwa [State.bit_accessed _ _ (by decide)])
      (by rwa [State.leastMonths_accessed hwait, hacc.get_eq (by decide)])
    simp (decide := true) only [State.bit, State.get_errAfter, State.fget_errAfter_other]
    exact ⟨hclr, hreason, hfn⟩
  · rintro s hc ⟨hserves, htq, hset, hsec⟩
    refine ⟨_, exec_svcStart hserves, ?_⟩
    have hacc := s.accessed_frame .f0 0
    have htime : (s.regAccess.setErr .f0 0).time = s.time := hacc.same (a := .time) (by decide)
    have hsec' : (s.regAccess.setErr .f0 0).sec = s.sec := by
      rw [State.sec, show (s.regAccess.setErr .f0 0).ktime = s.ktime from hacc.same (a := .ktime) (by decide), ← State.sec]
    have hshow := State.svcStart_shows (hacc.tidy hc.tidy) (by rwa [htime]) (by rwa [State.bit_accessed _ _ (by decide)])
      (by rwa [hsec'])
    rw [hsec'] at hshow
    simp (decide := true) only [State.bit, State.get32, State.get_errAfter]
    exact hshow

end Sys2Proof.Machine
end

section
/-! PROOFS. GO (O10): a SELFTEST that is refused at its GO has its outcome at once. -/

namespace Sys2Proof.Machine

open R

/-- A unit past READY with a slot running, whose F0 holds the code of SELFTEST in `CMD_OP`. -/
def selftestInSlot : State :=
  let s : State := { State.reset with
    mode := { ModeEng.start with ready := true }, boot := { Boot.start with marten := true } }
  (s.put MODE.SLOT_ACT 1).fput .f0 CMD_OP.w 0xA

theorem canon_selftestInSlot : selftestInSlot.Canon :=
  (State.tidy_fput (State.tidy_put resetIsCanonical)).canon

/-- The op that GO latches has BUSY as its outcome already. -/
theorem exec_cmdGo_refused : ∃ t, exec (.cmdGo .f0 1) selftestInSlot = .next t ∧
    (t.eng .f0).op.bind Op.outcome = some (eBUSY, []) := ⟨_, rfl, by decide +kernel⟩

/-- Refutes O10: GO of a SELFTEST during a slot latches an op that is not without outcome, but ends with BUSY. -/
theorem not_functionCommandsComplete : ¬ Obligations.FunctionCommandsComplete := by
  unfold Obligations.FunctionCommandsComplete
  rintro ⟨-, -, -, -, -, -, -, hgo, -⟩
  obtain ⟨t, hexec, -, -, hop⟩ := hgo .f0 1 selftestInSlot canon_selftestInSlot (by decide +kernel)
  obtain ⟨u, hu, hout⟩ := exec_cmdGo_refused
  obtain rfl : t = u := Host.Outcome.next.inj (hexec.symm.trans hu)
  rw [hop] at hout
  cases hout

end Sys2Proof.Machine
end

section
/-! PROOFS. What Flint signs: `SIGN_RECORD` and `HEALTH_REPORT`. -/

namespace Sys2Proof.Machine

open R

variable {s : State} {f : Fn}

/-- A counter that saturates counts up to its end. -/
@[simp] theorem State.get_inc_self {x : Fld} (h : s.Tidy) (hx : x.sound = true) :
    (s.inc x).get x = min (s.get x + 1) (x.size - 1) := by
  have hpos : 0 < x.size := Nat.two_pow_pos _
  rw [State.inc, State.putSat, State.get_put_self h hx, Nat.mod_eq_of_lt (by omega)]

@[simp] theorem State.tidy_inc {x : Fld} (h : s.Tidy) : (s.inc x).Tidy := State.tidy_put h

/-- A counter that saturates leaves the other registers. -/
theorem State.get_inc_ne (s : State) {x y : Fld} (h : y.key ≠ x.key) : (s.inc x).get y = s.get y :=
  State.get_put_ne s _ h

/-- Bytes written read back as written. -/
theorem State.bytes_setBytes (l : List Byte) (a : Nat) (h : Memory.wf s) : (s.setBytes a l).bytes a l.length = l := by
  induction l generalizing s a with
  | nil => rfl
  | cons b l ih =>
    have hb : ((s.setByte a b).setBytes (a + 1) l).byte a = b :=
      (State.byte_setBytes_out l _ _ (.inl a.lt_succ_self)).trans (State.byte_setByte h a b)
    simp only [State.setBytes, State.bytes, List.length_cons]
    rw [hb, ih (a + 1) (Memory.wf_setByte h a b)]

/-- Memory that stays gives the same bytes. -/
theorem State.bytes_congr {t : State} (h : t.mem = s.mem) (a n : Nat) : t.bytes a n = s.bytes a n := by
  induction n generalizing a with
  | zero => rfl
  | succ n ih => rw [State.bytes, State.bytes, ih, State.byte, h, ← State.byte]

/-- The fixed part of a health report is 48 bytes. -/
theorem State.report_length (s : State) (signed : Bool) : (s.report signed).length = 48 := by
  simp [State.report, leBytes, monIds]

theorem State.signError_of_locked (h : s.bit FLINT_STAT.LOCKED = true) : s.signError f = eLOCKED := if_pos h

theorem State.signError_of_open (h : s.bit FLINT_STAT.LOCKED = false) (hid : f = .f0 → s.bit FLINT_STAT.IDENT_OK = true) :
    s.signError f = 0 := by
  rw [State.signError, if_neg (by simp [h]), if_neg fun ⟨h0, hno⟩ => hno (hid h0)]

/-- An outcome writes no register. -/
theorem State.get_outcome (s : State) (f : Fn) (err : Nat) (res : List Word) (x : Fld) :
    (s.outcome f err res).get x = s.get x := by
  unfold State.outcome
  split <;> rfl

/-- An outcome writes no memory. -/
theorem State.mem_outcome (s : State) (f : Fn) (err : Nat) (res : List Word) : (s.outcome f err res).mem = s.mem := by
  unfold State.outcome
  split <;> rfl

/-- A signature that Flint makes: success with results that are open. -/
theorem exec_signRecord {start : Nat} {args : List Word} (s : State) (hop : (s.eng f).op = some ⟨4, args, start, none⟩)
    (hturn : s.flintWaits f = false) (herr : s.signError f = 0) :
    exec (.signRecord f) s = .next ((s.freshWords 4).2.outcome f 0 (s.freshWords 4).1) := by
  refine congrArg Host.Outcome.next ((State.withFlint_of hturn hop _).trans ?_)
  exact if_pos herr

/-- A signature that Flint refuses while it is locked. -/
theorem exec_signRecord_locked {start : Nat} {args : List Word} (s : State)
    (hop : (s.eng f).op = some ⟨4, args, start, none⟩) (hturn : s.flintWaits f = false)
    (hlocked : s.bit FLINT_STAT.LOCKED = true) :
    exec (.signRecord f) s = .next ((s.inc FLINT_REFCNT.w).outcome f eLOCKED []) := by
  refine congrArg Host.Outcome.next ((State.withFlint_of hturn hop _).trans ?_)
  rw [State.signError_of_locked hlocked]
  rfl

/-- A report without a signature: its 48 bytes go to the caller's Burrow area. -/
theorem exec_healthReport_plain {start : Nat} {args : List Word} (sig : List Byte) (s : State)
    (hop : (s.eng f).op = some ⟨0xE, args, start, none⟩) (hturn : s.flintWaits f = false) (harg : arg args 0 % 2 = 0) :
    exec (.healthReport f sig) s = .next ((s.setBytes (0x300F00 + 0x1000 * f.toNat) (s.report false)).outcome f 0
      (48 :: lowHigh (0x300F00 + 0x1000 * f.toNat))) := by
  refine congrArg Host.Outcome.next ((State.withFlint_of hturn hop _).trans ?_)
  simp only [harg, State.noteRefusal]
  rfl

/-- Settles O14: a signature made leaves success and the count of refusals, one refused counts and ends with LOCKED, and an
unsigned report is stored in 48 bytes of the caller's area. -/
theorem reportCommandsComplete : Obligations.ReportCommandsComplete := by
  refine ⟨fun f start args s _ ⟨hop, hturn, hlocked, hid⟩ => ?_, fun f start args s hc ⟨hop, hturn, hlocked⟩ => ?_,
    fun f sig start args s hc ⟨hop, hturn, harg⟩ => ?_⟩
  · refine ⟨_, exec_signRecord s hop hturn (State.signError_of_open hlocked hid), ?_, ?_⟩
    · have hk := State.freshWords_snd s 4 .refl (within?_self _)
      have hend : Ended _ f _ _ :=
        State.ended_outcome ((hk.op_eq (by decide) f).trans hop) 0 (s.freshWords 4).1
      rw [Ended] at hend
      rw [hend]
      rfl
    · rw [State.get_outcome]
      exact (State.freshWords_snd s 4 .refl (within?_self _)).get_eq (by decide)
  · refine ⟨_, exec_signRecord_locked s hop hturn hlocked, ?_, ?_⟩
    · exact State.ended_outcome (s := s.inc FLINT_REFCNT.w) hop eLOCKED []
    · rw [State.get_outcome, State.get_inc_self hc.tidy rfl]
      exact Nat.min_comm _ _
  · refine ⟨_, exec_healthReport_plain sig s hop hturn harg, ?_, ?_, fun a ha => ?_⟩
    · have hk := State.setBytes_keeps s (0x300F00 + 0x1000 * f.toNat) (s.report false) .refl (within?_self _)
      exact State.ended_outcome ((hk.op_eq (by decide) f).trans hop) 0 _
    · rw [State.bytes_congr (State.mem_outcome _ _ _ _)]
      have hb := State.bytes_setBytes (s.report false) (0x300F00 + 0x1000 * f.toNat) hc.tidy.mem
      rwa [State.report_length] at hb
    · rw [State.byte, State.mem_outcome, ← State.byte]
      refine State.byte_setBytes_out _ _ _ ?_
      rw [State.report_length]
      simp only [Bool.not_eq_true', Bool.and_eq_false_imp, decide_eq_true_eq, decide_eq_false_iff_not] at ha
      omega

end Sys2Proof.Machine
end

section
/-! PROOFS. Plans: drafting, SUBMIT, WITHDRAW, admission, the snapshot and the start of a day (O18). -/

namespace Sys2Proof.Machine

open R

variable {s t u : State} {f g : Fn} {x y : Fld} {v : Nat}

/-! ### Fields of the common part -/

/-- A field apart from the one written reads as before, in every function. -/
theorem State.fget_fput_of_apart (h : s.Tidy) (hx : x.sound = true) (hy : y.sound = true) (ha : x.apart y = true)
    (hkx : x.key < 0x10000) (hky : y.key < 0x10000) : (s.fput f x v).fget g y = s.fget g y := by
  by_cases hg : g = f
  · rw [hg, State.fget_fput_apart h hx hy ha]
  · exact State.fget_fput_other v hkx hky (.inl hg)

/-! ### What the plan registers show -/

/-- The plan registers of one function follow its draft, its plan and the admission queue. -/
def State.showPlan (s : State) (f : Fn) : State :=
  let p := s.plan f
  let s := s.fput f PLAN_STAT.BUSY (if s.sched.queue.contains f then 1 else 0)
  let s := s.fput f PLAN_STAT.COMMITTED (if p.plan = [] then 0 else 1)
  (s.fput f PLAN_COUNT.COMMITTED p.plan.length).fput f PLAN_COUNT.DRAFT p.draft.length

/-- The registers that show all plans, once those of each function do. -/
def State.showSched (s : State) : State :=
  let s := s.put SCHED_STAT.WATCHES ((allFns.map (fun f => (s.plan f).plan.length)).sum)
  let s := s.putBit SCHED_STAT.BUSY (s.sched.queue ≠ [])
  (s.put SCHED_STAT.QUEUED (s.sched.queue.length - 1)).updMode

theorem State.showPlans_eq (s : State) : s.showPlans = (s.eachFn State.showPlan allFns).showSched := rfl

theorem State.showSched_frame (s : State) : Keeps (areasMask [.reg SCHED_STAT.w, .reg MODE.w]) s s.showSched := by
  unfold State.showSched
  exact State.updMode_keeps _ (State.put_keeps _ _ _ (State.putBit_keeps _ _ _ (State.put_keeps _ _ _ .refl (by decide))
    (by decide)) (by decide)) (by decide)

theorem State.tidy_showPlan (h : s.Tidy) : (s.showPlan f).Tidy :=
  State.tidy_fput (State.tidy_fput (State.tidy_fput (State.tidy_fput h)))

/-- A field that no function shows of its plan stays. -/
theorem State.fget_showPlan_apart (h : s.Tidy) (hy : y.sound = true) (hky : y.key < 0x10000)
    (ha : PLAN_STAT.BUSY.apart y = true ∧ PLAN_STAT.COMMITTED.apart y = true ∧ PLAN_COUNT.COMMITTED.apart y = true ∧
      PLAN_COUNT.DRAFT.apart y = true) : (s.showPlan f).fget g y = s.fget g y := by
  obtain ⟨hbusy, hcommitted, hcount, hdraft⟩ := ha
  have h1 := State.tidy_fput (f := f) (x := PLAN_STAT.BUSY) (v := if s.sched.queue.contains f then 1 else 0) h
  unfold State.showPlan
  dsimp only
  rw [State.fget_fput_of_apart (State.tidy_fput (State.tidy_fput h1)) (by decide) hy hdraft (by decide) hky,
    State.fget_fput_of_apart (State.tidy_fput h1) (by decide) hy hcount (by decide) hky,
    State.fget_fput_of_apart h1 (by decide) hy hcommitted (by decide) hky,
    State.fget_fput_of_apart h (by decide) hy hbusy (by decide) hky]

theorem State.busy_showPlan (h : s.Tidy) : (s.showPlan f).fget g PLAN_STAT.BUSY =
    if g = f then (if s.sched.queue.contains f then 1 else 0) else s.fget g PLAN_STAT.BUSY := by
  have h1 := State.tidy_fput (f := f) (x := PLAN_STAT.BUSY) (v := if s.sched.queue.contains f then 1 else 0) h
  unfold State.showPlan
  dsimp only
  rw [State.fget_fput_of_apart (State.tidy_fput (State.tidy_fput h1)) (by decide) (by decide) (by decide) (by decide)
    (by decide), State.fget_fput_of_apart (State.tidy_fput h1) (by decide) (by decide) (by decide) (by decide) (by decide),
    State.fget_fput_of_apart h1 (by decide) (by decide) (by decide) (by decide) (by decide)]
  by_cases hg : g = f
  · rw [if_pos hg, hg, State.fget_fput_self h (by decide)]
    split <;> rfl
  · rw [if_neg hg]
    exact State.fget_fput_other _ (by decide) (by decide) (.inl hg)

/-- The registers of all plans stand outside the common part. -/
theorem State.fget_showSched (s : State) (g : Fn) (y : Fld) : s.showSched.fget g y = s.fget g y := by
  have hmode (t : State) : t.updMode.fget g y = t.fget g y := by
    unfold State.updMode
    split_ifs <;> simp (decide := true) only [State.putBit, State.fget_put]
  rw [State.showSched, hmode]
  simp (decide := true) only [State.putBit, State.fget_put]

theorem State.fget_showPlans_apart (h : s.Tidy) (hy : y.sound = true) (hky : y.key < 0x10000)
    (ha : PLAN_STAT.BUSY.apart y = true ∧ PLAN_STAT.COMMITTED.apart y = true ∧ PLAN_COUNT.COMMITTED.apart y = true ∧
      PLAN_COUNT.DRAFT.apart y = true) : s.showPlans.fget g y = s.fget g y := by
  have heach (l : List Fn) : ∀ {s : State}, s.Tidy → (s.eachFn State.showPlan l).fget g y = s.fget g y := by
    induction l with
    | nil => exact fun _ => rfl
    | cons f l ih => exact fun h => (ih (State.tidy_showPlan h)).trans (State.fget_showPlan_apart h hy hky ha)
  rw [State.showPlans_eq, State.fget_showSched, heach allFns h]

theorem State.busy_eachPlan (l : List Fn) (h : s.Tidy) : (s.eachFn State.showPlan l).fget f PLAN_STAT.BUSY =
    if f ∈ l then (if s.sched.queue.contains f then 1 else 0) else s.fget f PLAN_STAT.BUSY := by
  induction l generalizing s with
  | nil => rfl
  | cons g l ih =>
    rw [State.eachFn, ih (State.tidy_showPlan h), State.busy_showPlan h]
    by_cases hl : f ∈ l
    · rw [if_pos hl, if_pos (List.mem_cons_of_mem _ hl)]
      rfl
    · rw [if_neg hl]
      by_cases hg : f = g
      · subst hg
        rw [if_pos rfl, if_pos List.mem_cons_self]
      · rw [if_neg hg, if_neg fun hmem => (List.mem_cons.mp hmem).elim hg hl]

/-- A function whose draft waits or is judged shows it. -/
theorem State.busy_showPlans (h : s.Tidy) (hq : f ∈ s.sched.queue) : s.showPlans.fget f PLAN_STAT.BUSY = 1 := by
  rw [State.showPlans_eq, State.fget_showSched, State.busy_eachPlan _ h, if_pos (by cases f <;> decide),
    if_pos (List.contains_iff_mem.mpr hq)]

@[simp] theorem State.tidy_showPlans (h : s.Tidy) : s.showPlans.Tidy :=
  (s.showPlans_keeps .refl (within?_self _)).tidy h

@[simp] theorem State.plans_showPlans (s : State) : s.showPlans.plans = s.plans :=
  (s.showPlans_keeps .refl (within?_self _)).same (a := .plans) (by decide)

@[simp] theorem State.sched_showPlans (s : State) : s.showPlans.sched = s.sched :=
  (s.showPlans_keeps .refl (within?_self _)).same (a := .sched) (by decide)

@[simp] theorem State.plan_showPlans (s : State) (f : Fn) : s.showPlans.plan f = s.plan f := by
  rw [State.plan, State.plans_showPlans, ← State.plan]

/-! ### The access before a plan command -/

/-- An access and a code in `FN_ERR` leave plans, schedule and the plan registers. -/
theorem State.plans_accessed (s : State) (f : Fn) (c : Nat) : (s.regAccess.setErr f c).plans = s.plans :=
  (s.accessed_frame f c).same (a := .plans) (by decide)

theorem State.plan_accessed (s : State) (f g : Fn) (c : Nat) : (s.regAccess.setErr f c).plan g = s.plan g := by
  rw [State.plan, State.plans_accessed, ← State.plan]

theorem State.sched_accessed (s : State) (f : Fn) (c : Nat) : (s.regAccess.setErr f c).sched = s.sched :=
  (s.accessed_frame f c).same (a := .sched) (by decide)

theorem State.runsPlans_congr (hcfg : t.get TWIN_CFG.EN = s.get TWIN_CFG.EN) (hact : t.get TWIN_STAT.ACTIVE = s.get TWIN_STAT.ACTIVE)
    (hen : t.get TWIN_STAT.EN = s.get TWIN_STAT.EN) : t.runsPlans = s.runsPlans := by
  rw [State.runsPlans, hcfg, hact, hen, ← State.runsPlans]

theorem State.runsPlans_accessed (s : State) (f : Fn) (c : Nat) : (s.regAccess.setErr f c).runsPlans = s.runsPlans :=
  State.runsPlans_congr ((s.accessed_frame f c).get_eq (by decide)) ((s.accessed_frame f c).get_eq (by decide))
    ((s.accessed_frame f c).get_eq (by decide))

/-- A plan command is served while the unit runs plans and the function has no admission. -/
theorem State.planGuard_of (hruns : s.runsPlans = true) (hidle : s.fget f PLAN_STAT.BUSY = 0) (act : State) :
    s.planGuard f act = act := by
  rw [State.planGuard, if_neg (by simp [hruns]), if_neg (by simp [hidle])]

/-! ### `PLAN_CTRL` -/

/-- The row of `PLAN_CTRL`: three command bits. -/
def planCtrlDef : RegDef := ⟨0x30, 0, 0, 0, 7, 0⟩

theorem regDef_planCtrl (f : Fn) : regDef? (commonKey f.toNat PLAN_CTRL.w.key) = some planCtrlDef := by cases f <;> decide

theorem legalWord_planCtrl (f : Fn) {w : Word} (hw : [1, 2, 4].contains w.toNat = true) :
    legalWord f PLAN_CTRL.w.key w = true := by
  have hmem : w.toNat = 1 ∨ w.toNat = 2 ∨ w.toNat = 4 := by simpa using hw
  rw [legalWord_of_unranged (by decide), extraLegal]
  rcases hmem with h | h | h <;> simp (decide := true) only [h, if_true, if_false]

/-- A served write of `PLAN_CTRL`: the access, then the bits that are set. -/
theorem State.cmdWrite_planCtrl {w : Word} (hw : [1, 2, 4].contains w.toNat = true) (h : Serves s f 0) : s.cmdWrite f PLAN_CTRL.w w = s.regAccess.woBits f w
    [(0, fun s => s.planBegin f), (1, fun s => s.planSubmit f), (2, fun s => s.planWithdraw f)] := by
  rw [State.cmdWrite_common_legal (regDef_planCtrl f) (by decide) (by decide) rfl (by decide) (legalWord_planCtrl f hw) h]
  simp (decide := true) only [State.writeCommon, baseKey_common, if_true, if_false, false_and]

theorem exec_planBegin (h : Serves s f 0) : exec (.planBegin f) s =
    .next (s.regAccess.errAfter ((s.regAccess.setErr f 0).planBegin f) f) := by
  rw [show exec (.planBegin f) s = .next (s.cmdWrite f PLAN_CTRL.w 1) from rfl, State.cmdWrite_planCtrl (by decide) h,
    State.woBits_single (b := 0) (act := fun s => s.planBegin f) (by simp)]

theorem exec_planSubmit (h : Serves s f 0) : exec (.planSubmit f) s =
    .next (s.regAccess.errAfter ((s.regAccess.setErr f 0).planSubmit f) f) := by
  rw [show exec (.planSubmit f) s = .next (s.cmdWrite f PLAN_CTRL.w 2) from rfl, State.cmdWrite_planCtrl (by decide) h,
    State.woBits_single (b := 1) (act := fun s => s.planSubmit f) (by simp)]

theorem exec_planWithdraw (h : Serves s f 0) : exec (.planWithdraw f) s =
    .next (s.regAccess.errAfter ((s.regAccess.setErr f 0).planWithdraw f) f) := by
  rw [show exec (.planWithdraw f) s = .next (s.cmdWrite f PLAN_CTRL.w 4) from rfl, State.cmdWrite_planCtrl (by decide) h,
    State.woBits_single (b := 2) (act := fun s => s.planWithdraw f) (by simp)]

/-! ### Drafting -/

theorem State.sched_fput (s : State) (f : Fn) (x : Fld) (v : Nat) : (s.fput f x v).sched = s.sched := rfl

theorem State.plan_fput (s : State) (f g : Fn) (x : Fld) (v : Nat) : (s.fput f x v).plan g = s.plan g := rfl

/-- The draft of a function opens, empty. -/
def State.begun (s : State) (f : Fn) : State :=
  (((s.setPlan f { s.plan f with draft := [] }).fput f PLAN_WIDX.INDEX 0).fput f PLAN_STAT.DRAFT_OPEN 1).fput f
    PLAN_STAT.FULL 0

theorem State.planBegin_of (hruns : s.runsPlans = true) (hidle : s.fget f PLAN_STAT.BUSY = 0) :
    s.planBegin f = (s.begun f).showPlans := State.planGuard_of hruns hidle _

theorem State.tidy_begun (h : s.Tidy) : (s.begun f).Tidy :=
  State.tidy_fput (State.tidy_fput (State.tidy_fput (s := s.setPlan f _) h))

theorem State.plan_begun (s : State) (f : Fn) : (s.begun f).plan f = { s.plan f with draft := [] } := s.plan_setPlan f _

theorem State.begun_shows (h : s.Tidy) : (s.begun f).fget f PLAN_WIDX.INDEX = 0 ∧
    (s.begun f).fget f PLAN_STAT.DRAFT_OPEN = 1 ∧ (s.begun f).fget f PLAN_STAT.FULL = 0 := by
  have h0 : (s.setPlan f { s.plan f with draft := [] }).Tidy := h
  unfold State.begun
  generalize s.setPlan f { s.plan f with draft := [] } = u at *
  simp (decide := true) (maxDischargeDepth := 9) [h0]

theorem planBegin_completes (f : Fn) : Completes (.planBegin f) (fun s => Serves s f 0 ∧ s.runsPlans = true ∧
    s.fget f PLAN_STAT.BUSY = 0) (fun s t => (t.plan f).draft = [] ∧ (t.plan f).plan = (s.plan f).plan ∧
    t.fget f PLAN_WIDX.INDEX = 0 ∧ t.fget f PLAN_STAT.DRAFT_OPEN = 1 ∧ t.fget f PLAN_STAT.FULL = 0) := by
  intro s hc ⟨hserves, hruns, hidle⟩
  refine ⟨_, exec_planBegin hserves, ?_⟩
  have hu : (s.regAccess.setErr f 0).Tidy := (s.accessed_frame f 0).tidy hc
  rw [State.planBegin_of ((s.runsPlans_accessed f 0).trans hruns) (((s.accessed_frame f 0).fget_eq (by decide)).trans hidle)]
  obtain ⟨hindex, hopen, hfull⟩ := State.begun_shows hu (f := f)
  have hplan : ((s.regAccess.setErr f 0).begun f).plan f = { s.plan f with draft := [] } := by
    rw [State.plan_begun, State.plan_accessed]
  have htidy := State.tidy_begun hu (f := f)
  generalize (s.regAccess.setErr f 0).begun f = u at *
  have hshow {x : Fld} (hx : x.sound = true) (hk : x.key < 0x10000) (hne : x.key ≠ FN_ERR.w.key)
      (ha : PLAN_STAT.BUSY.apart x = true ∧ PLAN_STAT.COMMITTED.apart x = true ∧ PLAN_COUNT.COMMITTED.apart x = true ∧
        PLAN_COUNT.DRAFT.apart x = true) : (s.regAccess.errAfter u.showPlans f).fget f x = u.fget f x :=
    (State.fget_errAfter_other hk hne).trans (State.fget_showPlans_apart htidy hx hk ha)
  refine ⟨?_, ?_, (hshow (by decide) (by decide) (by decide) (by decide)).trans hindex,
    (hshow (by decide) (by decide) (by decide) (by decide)).trans hopen,
    (hshow (by decide) (by decide) (by decide) (by decide)).trans hfull⟩
  all_goals rw [State.plan_errAfter, State.plan_showPlans, hplan]

/-! ### `WREC15` and `PLAN_WIDX` -/

/-- The rows of the last word of the record window and of the draft position. -/
def wrec15Def : RegDef := ⟨0x4F, 0, 0xFFFF, 0, 0, 0⟩

def planWidxDef : RegDef := ⟨0x34, 0, 0xF, 0, 0, 0⟩

theorem regDef_wrec15 (f : Fn) : regDef? (commonKey f.toNat (WREC.w 15).key) = some wrec15Def := by cases f <;> decide

theorem regDef_planWidx (f : Fn) : regDef? (commonKey f.toNat PLAN_WIDX.w.key) = some planWidxDef := by cases f <;> decide

theorem legalWord_wrec15 (f : Fn) (w : Word) : legalWord f (WREC.w 15).key w = true := by
  rw [legalWord_of_unranged (by decide), extraLegal]
  simp (decide := true) only [if_false]

theorem exec_wrec15Write (w : Word) (h : Serves s f 0) : exec (.wrec15Write f w) s = .next (s.regAccess.wrec15 f w) := by
  have hwrite : s.cmdWrite f (WREC.w 15) w = s.regAccess.wrec15 f w := by
    rw [State.cmdWrite_common_legal (regDef_wrec15 f) (by decide) (by decide) rfl (by decide) (legalWord_wrec15 f w) h]
    simp (decide := true) only [State.writeCommon, baseKey_common, if_true, if_false, false_and]
  rw [← hwrite]
  rfl

theorem exec_planWidxWrite {w : Word} (hw : legalWord f PLAN_WIDX.w.key w = true) (h : Serves s f 0) :
    exec (.planWidxWrite f w) s = .next (s.regAccess.planWidx f w) := by
  have hwrite : s.cmdWrite f PLAN_WIDX.w w = s.regAccess.planWidx f w := by
    rw [State.cmdWrite_common_legal (regDef_planWidx f) (by decide) (by decide) rfl (by decide) hw h]
    simp (decide := true) only [State.writeCommon, baseKey_common, if_true, if_false, false_and]
  rw [← hwrite]
  rfl

/-- The draft takes the record window at its position. -/
def State.drafted (s : State) (f : Fn) : State :=
  let i := s.fget f PLAN_WIDX.INDEX
  (s.setPlan f { s.plan f with draft := putDraft (s.plan f).draft i (s.window f) }).fput f PLAN_WIDX.INDEX (i + 1)

theorem State.tidy_drafted (h : s.Tidy) : (s.drafted f).Tidy := State.tidy_fput (s := s.setPlan f _) h

theorem State.plan_drafted (s : State) (f : Fn) : (s.drafted f).plan f =
    { s.plan f with draft := putDraft (s.plan f).draft (s.fget f PLAN_WIDX.INDEX) (s.window f) } := s.plan_setPlan f _

theorem State.fget_drafted (hy : y.key < 0x10000) (hne : y.key ≠ PLAN_WIDX.INDEX.key) :
    (s.drafted f).fget f y = s.fget f y := State.fget_fput_other (s := s.setPlan f _) _ (by decide) hy (.inr hne)

theorem State.index_drafted (h : s.Tidy) (hindex : s.fget f PLAN_WIDX.INDEX < 15) :
    (s.drafted f).fget f PLAN_WIDX.INDEX = s.fget f PLAN_WIDX.INDEX + 1 :=
  (State.fget_fput_self (s := s.setPlan f _) h (by decide)).trans (Nat.mod_eq_of_lt (b := 16) (by omega))

theorem State.wrec15_of (w : Word) (h : s.Tidy) (hidle : s.fget f PLAN_STAT.BUSY = 0) (hopen : s.fget f PLAN_STAT.DRAFT_OPEN = 1)
    (hfull : s.fget f PLAN_STAT.FULL = 0) (hindex : s.fget f PLAN_WIDX.INDEX < 15) :
    s.wrec15 f w = ((s.fput f (WREC.w 15) w.toNat).drafted f).showPlans := by
  have hindex' : (s.fput f (WREC.w 15) w.toNat).fget f PLAN_WIDX.INDEX = s.fget f PLAN_WIDX.INDEX :=
    State.fget_fput_apart h (by decide) (by decide) (by decide)
  have hopen' : (s.fput f (WREC.w 15) w.toNat).fget f PLAN_STAT.DRAFT_OPEN = 1 :=
    (State.fget_fput_apart h (by decide) (by decide) (by decide)).trans hopen
  have hfull' : (s.fput f (WREC.w 15) w.toNat).fget f PLAN_STAT.FULL = 0 :=
    (State.fget_fput_apart h (by decide) (by decide) (by decide)).trans hfull
  rw [State.wrec15, if_neg (by simp [hidle])]
  dsimp only
  rw [if_neg (by simp [hopen']), if_neg (by simp [hfull']), if_neg (by omega)]
  rfl

theorem Keeps.reg_eq {m k : Nat} (h : Keeps m s t) (hk : regIn m k = false) : t.reg k = s.reg k :=
  have ⟨_, _, _, hreg, _⟩ := h
  hreg k hk

/-- A whole register of the common part, as a number. -/
theorem State.fget_word (s : State) (f : Fn) (k : Nat) : s.fget f ⟨k, 15, 0⟩ = (s.reg (commonKey f.toNat k)).toNat := by
  have hlt := (s.reg (commonKey f.toNat k)).isLt
  rw [State.fget, State.get]
  change (s.reg (commonKey f.toNat k)).toNat / 2 ^ 0 % 2 ^ 16 = _
  omega

/-- The record window stays while its words do. -/
theorem State.window_congr (h : ∀ i < 16, t.fget f (WREC.w i) = s.fget f (WREC.w i)) : t.window f = s.window f :=
  List.map_congr_left fun i hi => BitVec.eq_of_toNat_eq (by
    have hi' := h i (List.mem_range.mp hi)
    rw [WREC.w, State.fget_word, State.fget_word] at hi'
    exact hi')

theorem State.window_showPlans (h : s.Tidy) : s.showPlans.window f = s.window f :=
  State.window_congr fun i hi => State.fget_showPlans_apart h rfl (by rw [WREC.w]; dsimp only; omega)
    (by interval_cases i <;> decide)

theorem wrec15Write_completes (f : Fn) (w : Word) : Completes (.wrec15Write f w) (fun s => Serves s f 0 ∧
    s.fget f PLAN_STAT.BUSY = 0 ∧ s.fget f PLAN_STAT.DRAFT_OPEN = 1 ∧ s.fget f PLAN_STAT.FULL = 0 ∧
    s.fget f PLAN_WIDX.INDEX < 15) (fun s t => t.fget f (WREC.w 15) = w.toNat ∧
    (t.plan f).draft = putDraft (s.plan f).draft (s.fget f PLAN_WIDX.INDEX) (t.window f) ∧
    t.fget f PLAN_WIDX.INDEX = s.fget f PLAN_WIDX.INDEX + 1) := by
  intro s hc ⟨hserves, hidle, hopen, hfull, hindex⟩
  refine ⟨_, exec_wrec15Write w hserves, ?_⟩
  have ha : Keeps (areasMask Area.access) s s.regAccess := s.regAccess_keeps_access
  have hplan : s.regAccess.plan f = s.plan f := by rw [State.plan, ha.same (a := .plans) (by decide), ← State.plan]
  have hu : s.regAccess.Tidy := ha.tidy hc
  rw [← ha.fget_eq (by decide)] at hidle hopen hfull hindex
  dsimp only
  rw [← ha.fget_eq (f := f) (x := PLAN_WIDX.INDEX) (by decide), ← hplan]
  generalize s.regAccess = u at *
  rw [State.wrec15_of w hu hidle hopen hfull hindex]
  have hbefore : (u.fput f (WREC.w 15) w.toNat).fget f PLAN_WIDX.INDEX = u.fget f PLAN_WIDX.INDEX :=
    State.fget_fput_apart hu (by decide) (by decide) (by decide)
  have hv : (u.fput f (WREC.w 15) w.toNat).Tidy := State.tidy_fput hu
  have hword : (u.fput f (WREC.w 15) w.toNat).fget f (WREC.w 15) = w.toNat :=
    (State.fget_fput_self hu (by decide)).trans (Nat.mod_eq_of_lt (b := 0x10000) w.isLt)
  have hplan' : (u.fput f (WREC.w 15) w.toNat).plan f = u.plan f := rfl
  rw [← hbefore] at hindex ⊢
  rw [← hplan']
  generalize u.fput f (WREC.w 15) w.toNat = v at *
  have hd : (v.drafted f).Tidy := State.tidy_drafted hv
  refine ⟨?_, ?_, ?_⟩
  · rw [State.fget_showPlans_apart hd (by decide) (by decide) (by decide), State.fget_drafted (by decide) (by decide), hword]
  · have hwin : (v.drafted f).window f = v.window f := State.window_congr fun i hi =>
      State.fget_drafted (by rw [WREC.w]; dsimp only; omega) (by rw [WREC.w, PLAN_WIDX.INDEX]; dsimp only; omega)
    rw [State.plan_showPlans, State.window_showPlans hd, hwin, State.plan_drafted]
  · rw [State.fget_showPlans_apart hd (by decide) (by decide) (by decide), State.index_drafted hv hindex]

/-- A record loaded into the window reads back. -/
theorem State.fget_loadWords (r : List Word) (l : List Nat) (hl : ∀ i ∈ l, i < 16) {i : Nat} (hi : i < 16) (h : s.Tidy) :
    (l.foldl (fun s i => s.fput f (WREC.w i) (r.getD i 0).toNat) s).fget f (WREC.w i) =
      if i ∈ l then (r.getD i 0).toNat else s.fget f (WREC.w i) := by
  induction l generalizing s with
  | nil => rfl
  | cons j l ih =>
    rw [List.foldl_cons, ih (fun k hk => hl k (List.mem_cons_of_mem _ hk)) (State.tidy_fput h)]
    by_cases hmem : i ∈ l
    · rw [if_pos hmem, if_pos (List.mem_cons_of_mem _ hmem)]
    · rw [if_neg hmem]
      by_cases hj : i = j
      · subst hj
        rw [if_pos List.mem_cons_self, State.fget_fput_self h rfl]
        exact Nat.mod_eq_of_lt (b := 0x10000) (BitVec.isLt _)
      · have hj16 := hl j List.mem_cons_self
        rw [if_neg fun hm => (List.mem_cons.mp hm).elim hj hmem]
        refine State.fget_fput_other _ ?_ ?_ (.inr ?_)
        all_goals
          dsimp only [WREC.w]
          omega

theorem State.window_loadWindow (r : List Word) (h : s.Tidy) :
    (s.loadWindow f r).window f = (List.range 16).map (fun i => r.getD i 0) := by
  refine List.map_congr_left fun i hi => BitVec.eq_of_toNat_eq ?_
  have hread := State.fget_loadWords (f := f) r (List.range 16) (fun _ => List.mem_range.mp) (List.mem_range.mp hi) h
  rw [if_pos hi] at hread
  rw [← hread]
  exact (State.fget_word _ f _).symm

theorem planWidxWrite_completes (f : Fn) (w : Word) : Completes (.planWidxWrite f w) (fun s => Serves s f 0 ∧
    s.fget f PLAN_STAT.BUSY = 0 ∧ legalWord f PLAN_WIDX.w.key w = true) (fun s t => t.fget f PLAN_WIDX.INDEX = w.toNat % 16 ∧
    t.fget f PLAN_STAT.FULL = 0 ∧ (t.window f = (List.range 16).map (fun i =>
    ((s.plan f).draft.getD (w.toNat % 16) []).getD i 0))) := by
  intro s hc ⟨hserves, hidle, hlegal⟩
  refine ⟨_, exec_planWidxWrite hlegal hserves, ?_⟩
  have ha : Keeps (areasMask Area.access) s s.regAccess := s.regAccess_keeps_access
  have hplan : s.regAccess.plan f = s.plan f := by rw [State.plan, ha.same (a := .plans) (by decide), ← State.plan]
  have hu : s.regAccess.Tidy := ha.tidy hc
  rw [← ha.fget_eq (by decide)] at hidle
  dsimp only
  rw [← hplan]
  generalize s.regAccess = u at *
  rw [State.planWidx, if_neg (by simp [hidle])]
  dsimp only
  have hv : ((u.fput f PLAN_WIDX.INDEX (w.toNat % 16)).fput f PLAN_STAT.FULL 0).Tidy := State.tidy_fput (State.tidy_fput hu)
  have hload (r : List Word) := State.loadWindow_keeps ((u.fput f PLAN_WIDX.INDEX (w.toNat % 16)).fput f PLAN_STAT.FULL 0) f r
    .refl (within?_self _)
  refine ⟨((hload _).fget_eq (by decide)).trans ?_, ((hload _).fget_eq (by decide)).trans ?_, State.window_loadWindow _ hv⟩
  · simp (decide := true) (maxDischargeDepth := 9) [hu]
    rfl
  · simp (decide := true) (maxDischargeDepth := 9) [hu]

/-! ### SUBMIT -/

/-- A wake leaves the plans that wait: it can only make a re-admission fall due. -/
theorem State.queue_wake (s : State) (c : Nat) : (s.wake c).sched.queue = s.sched.queue := by
  have hfollow (t : State) : t.followEstimates.sched.queue = t.sched.queue := by
    unfold State.followEstimates
    split <;> rfl
  have hput (t : State) (x : Fld) (q part : ℚ) : (t.moveEst x q part).sched = t.sched := rfl
  have htake (t : State) (q : ℚ) : (t.takeLeak q).sched.queue = t.sched.queue := by
    unfold State.takeLeak
    extract_lets t1 t2 _
    rw [hfollow]
    change t2.sched.queue = _
    rw [show t2.sched = t1.sched by unfold t2; split <;> rfl]
    rfl
  have hchg (t : State) (n : Nat) : (t.chgState n).sched = t.sched := (t.chgState_frame n).same (a := .sched) (by decide)
  have hprobe : s.probeCut.sched.queue = s.sched.queue := by
    unfold State.probeCut
    split
    · unfold State.probeEnd
      extract_lets s1 s2 q
      have h2 : s2.sched = s.sched := by
        unfold s2
        split
        · rfl
        · exact hchg _ _
      split
      · rw [htake, h2]
      · rw [h2]
    · rfl
  rcases s.wake_cases c with h | h | h
  · rw [h]
  · rw [h, State.delayWake, hchg]
    exact hprobe
  · rw [h, (s.probeCut.wakeStart_keeps c .refl (within?_self _)).same (a := .sched) (by decide)]
    exact hprobe

theorem planSubmit_completes (f : Fn) : Completes (.planSubmit f) (fun s => Serves s f 0 ∧ s.runsPlans = true ∧
    s.fget f PLAN_STAT.BUSY = 0 ∧ (s.plan f).draft ≠ []) (fun s t => t.sched.queue = s.sched.queue ++ [f] ∧
    t.fget f PLAN_STAT.BUSY = 1 ∧ (t.plan f).plan = (s.plan f).plan) := by
  intro s hc ⟨hserves, hruns, hidle, hdraft⟩
  refine ⟨_, exec_planSubmit hserves, ?_⟩
  have hu : (s.regAccess.setErr f 0).Tidy := (s.accessed_frame f 0).tidy hc
  rw [State.planSubmit, State.planGuard_of ((s.runsPlans_accessed f 0).trans hruns)
    (((s.accessed_frame f 0).fget_eq (by decide)).trans hidle)]
  have hplan := s.plan_accessed f f 0
  have hqueue := congrArg Sched.queue (s.sched_accessed f 0)
  generalize s.regAccess.setErr f 0 = u at *
  have hwake := u.serviceWake_keeps .refl (within?_self _)
  have hplan' : u.serviceWake.plan f = s.plan f := by
    rw [State.plan, hwake.same (a := .plans) (by decide), ← State.plan, hplan]
  have hqueue' : u.serviceWake.sched.queue = s.sched.queue := (u.queue_wake 6).trans hqueue
  have hv := hwake.tidy hu
  generalize u.serviceWake = v at *
  dsimp only
  rw [if_neg (by rw [hplan']; exact hdraft), ← hplan', ← hqueue']
  refine ⟨?_, ?_, ?_⟩
  · rw [State.sched_errAfter, State.sched_showPlans]
  · rw [State.fget_errAfter_other (by decide) (by decide)]
    exact State.busy_showPlans (by exact hv) (List.mem_append_right _ List.mem_cons_self)
  · rw [State.plan_errAfter, State.plan_showPlans]
    rfl

/-! ### Occurrences that end, and WITHDRAW -/

theorem Calm.timeline (h : Calm s t) : t.sched.timeline = s.sched.timeline := by
  obtain ⟨_, hsched, _⟩ := h.sched
  rw [hsched]

theorem Calm.queue (h : Calm s t) : t.sched.queue = s.sched.queue := by
  obtain ⟨_, hsched, _⟩ := h.sched
  rw [hsched]

theorem Calm.plan (h : Calm s t) (f : Fn) : t.plan f = s.plan f := by rw [State.plan, h.plans, ← State.plan]

theorem State.tidy_settle (h : s.Tidy) : s.settle.Tidy := Calm.settle.tidy h

@[simp] theorem State.sched_refigure (s : State) : s.refigure.sched = s.sched :=
  (s.refigure_keeps .refl (within?_self _)).same (a := .sched) (by decide)

@[simp] theorem State.plan_refigure (s : State) (f : Fn) : s.refigure.plan f = s.plan f := by
  rw [State.plan, (s.refigure_keeps .refl (within?_self _)).same (a := .plans) (by decide), ← State.plan]

/-- The plan of a function is gone, with its place on the timeline. -/
def State.unplanned (s : State) (f : Fn) : State :=
  let s := s.setPlan f { s.plan f with plan := [] }
  { s with sched := { s.sched with timeline := s.sched.timeline.filter (fun o => o.fn != f) } }

theorem State.tidy_unplanned (h : s.Tidy) : (s.unplanned f).Tidy := h

theorem State.unplanned_shows (s : State) (f : Fn) : ((s.unplanned f).plan f).plan = [] ∧
    ∀ o ∈ (s.unplanned f).sched.timeline, o.fn ≠ f :=
  ⟨congrArg PlanEng.plan (s.plan_setPlan f _), fun _ ho => bne_iff_ne.mp (List.mem_filter.mp ho).2⟩

@[simp] theorem State.tidy_plansChanged (h : s.Tidy) : s.plansChanged.Tidy := h

@[simp] theorem State.plan_plansChanged (s : State) (f : Fn) : s.plansChanged.plan f = s.plan f := rfl

theorem State.timeline_plansChanged (s : State) : s.plansChanged.sched.timeline = s.sched.timeline := rfl

theorem State.dropPlan_eq (s : State) (f : Fn) : s.dropPlan f =
    (((s.dropRuns (fun rw => rw.1.fn == f)).unplanned f).settle.refigure.plansChanged).showPlans := rfl

theorem State.tidy_dropRuns (p : Run × Watch → Bool) (h : s.Tidy) : (s.dropRuns p).Tidy :=
  (s.dropRuns_keeps p .refl (within?_self _)).tidy h

theorem State.dropPlan_shows (h : s.Tidy) : (s.dropPlan f).Tidy ∧ ((s.dropPlan f).plan f).plan = [] ∧
    ∀ o ∈ (s.dropPlan f).sched.timeline, o.fn ≠ f := by
  have hu : ((s.dropRuns (fun rw => rw.1.fn == f)).unplanned f).Tidy := State.tidy_unplanned (State.tidy_dropRuns _ h)
  obtain ⟨hplan, hline⟩ := (s.dropRuns (fun rw => rw.1.fn == f)).unplanned_shows f
  rw [State.dropPlan_eq]
  generalize (s.dropRuns (fun rw => rw.1.fn == f)).unplanned f = u at *
  have hsettle : Calm u u.settle := .settle
  have hw : u.settle.refigure.Tidy := (u.settle.refigure_keeps .refl (within?_self _)).tidy (hsettle.tidy hu)
  refine ⟨State.tidy_showPlans (State.tidy_plansChanged hw), ?_, ?_⟩
  · rw [State.plan_showPlans, State.plan_plansChanged, State.plan_refigure, hsettle.plan, hplan]
  · rw [State.sched_showPlans, State.timeline_plansChanged, State.sched_refigure, hsettle.timeline]
    exact hline

theorem State.planResult_frame (s : State) (f : Fn) (reason detail : Nat) (w : Option (Fn × Nat)) :
    Keeps (areasMask [.reg PLAN_RESULT.w, .reg PLAN_FAILW.w]) s (s.planResult f reason detail w) :=
  State.planResult_keeps _ _ _ _ _ .refl (by decide)

theorem State.reason_planResult (h : s.Tidy) {reason : Nat} (hr : reason < 0x100) (detail : Nat) (w : Option (Fn × Nat)) :
    (s.planResult f reason detail w).fget f PLAN_RESULT.REASON = reason := by
  have hput (k : Nat) : (((s.fput f PLAN_RESULT.REASON reason).fput f PLAN_RESULT.DETAIL detail).fput f PLAN_FAILW.w k).fget f
      PLAN_RESULT.REASON = reason := by
    simp (decide := true) (maxDischargeDepth := 9) [h]
    exact Nat.mod_eq_of_lt (b := 0x100) hr
  cases w with
  | none => exact hput 0
  | some p => exact hput _

theorem State.failw_planResult_none (h : s.Tidy) (reason detail : Nat) :
    (s.planResult f reason detail none).fget f PLAN_FAILW.w = 0 := by
  simp (decide := true) (maxDischargeDepth := 9) [State.planResult, h]

theorem State.hostWithdraw_shows (h : s.Tidy) : ((s.hostWithdraw f).plan f).plan = [] ∧
    (∀ o ∈ (s.hostWithdraw f).sched.timeline, o.fn ≠ f) ∧ (s.hostWithdraw f).fget f PLAN_RESULT.REASON = 0 ∧
    (s.hostWithdraw f).fget f PLAN_FAILW.w = 0 ∧ (s.hostWithdraw f).fget f INT_STAT0.PLAN_DONE = 1 := by
  have hcalm : Calm s ((s.plan f).plan.foldl (fun s w => s.withdrawn f 0 w) s) := Calm.foldl (fun _ _ => .planEvent _ _ _ _) _
  obtain ⟨ht, hplan, hline⟩ := State.dropPlan_shows (f := f) (hcalm.tidy h)
  unfold State.hostWithdraw State.withdrawAll
  generalize State.dropPlan ((s.plan f).plan.foldl (fun s w => s.withdrawn f 0 w) s) f = u at *
  have hresult := u.planResult_frame f 0 0 none
  have hreason := State.reason_planResult (f := f) ht (reason := 0) (by decide) 0 none
  have hfail := State.failw_planResult_none (f := f) ht 0 0
  have hplan' : (u.planResult f 0 0 none).plan f = u.plan f := by
    rw [State.plan, hresult.same (a := .plans) (by decide), ← State.plan]
  have hline' := congrArg Sched.timeline (hresult.same (a := .sched) (by decide))
  have hv := hresult.tidy ht
  generalize u.planResult f 0 0 none = v at *
  have hraise : Keeps (areasMask [.counters, .mode, .engines, .reg INT_STAT0.w, .reg WAKE_HREASON.w]) v (v.raise0 f iPLAN_DONE) :=
    State.raise0_keeps _ _ _ .refl (by decide)
  refine ⟨?_, ?_, (hraise.fget_eq (by decide)).trans hreason, (hraise.fget_eq (by decide)).trans hfail,
    State.fget_raise0_same hv.canon (by decide)⟩
  · rw [State.plan, hraise.same (a := .plans) (by decide), ← State.plan, hplan', hplan]
  · rw [hraise.same (a := .sched) (by decide), hline']
    exact hline

theorem planWithdraw_completes (f : Fn) : Completes (.planWithdraw f) (fun s => Serves s f 0 ∧ s.runsPlans = true ∧
    s.fget f PLAN_STAT.BUSY = 0) (fun _ t => (t.plan f).plan = [] ∧ (∀ o ∈ t.sched.timeline, o.fn ≠ f) ∧
    t.fget f PLAN_RESULT.REASON = 0 ∧ t.fget f PLAN_FAILW.w = 0 ∧ t.fget f INT_STAT0.PLAN_DONE = 1) := by
  intro s hc ⟨hserves, hruns, hidle⟩
  refine ⟨_, exec_planWithdraw hserves, ?_⟩
  rw [State.planWithdraw, State.planGuard_of ((s.runsPlans_accessed f 0).trans hruns)
    (((s.accessed_frame f 0).fget_eq (by decide)).trans hidle)]
  obtain ⟨hplan, hline, hreason, hfail, hdone⟩ := State.hostWithdraw_shows (f := f) ((s.accessed_frame f 0).tidy hc)
  generalize (s.regAccess.setErr f 0).hostWithdraw f = u at *
  exact ⟨hplan, hline, (State.fget_errAfter_other (by decide) (by decide)).trans hreason,
    (State.fget_errAfter_other (by decide) (by decide)).trans hfail,
    (State.fget_errAfter_other (by decide) (by decide)).trans hdone⟩

/-! ### Admission -/

/-- The admission of a draft ends: its place in the queue is free, and its time is shown. -/
def State.admitted (s : State) (rest : List Fn) : State :=
  let s : State := { s with sched := { s.sched with queue := rest, admitAt := s.ktime } }
  let (t, s) := s.fresh
  (s.put SCHED_ADMIT_US.w (t.toNat % 20001)).noteEstimates

theorem State.tidy_admitted (h : s.Tidy) (rest : List Fn) : (s.admitted rest).Tidy := State.tidy_put (s := State.mk ..) h

theorem State.plans_admitted (s : State) (rest : List Fn) : (s.admitted rest).plans = s.plans := rfl

theorem State.sched_admitted (s : State) (rest : List Fn) : ∃ n c l, (s.admitted rest).sched =
    { s.sched with queue := rest, admitAt := n, lastC := c, lastLeak := l } := ⟨_, _, _, rfl⟩

theorem State.fget_admitted (s : State) (rest : List Fn) (x : Fld) : (s.admitted rest).fget f x = s.fget f x :=
  State.fget_put (s := State.mk ..) (by decide)

/-- The end of the admission that refuses. -/
def State.refusedWith (s : State) (f : Fn) (r x : Nat) (g : Fn) (i : Nat) : State :=
  ((s.planResult f r x (some (g, i))).inc SCHED_CNT_REFUSED.w).showPlans.raise0 f iPLAN_DONE

/-- The accepted draft is committed, placed, and what it no longer uses ends. -/
def State.placedAs (s : State) (f : Fn) (d : List (List Word)) (l : List Placed) (cs : List (Placed × Nat × ℚ × ℚ)) (c : Nat) :
    State := (((s.commit f d).setTimeline l c).settle.showUse cs c).plansChanged

/-- The end of the admission that accepts. -/
def State.acceptedAs (s : State) (f : Fn) (d : List (List Word)) (l : List Placed) (cs : List (Placed × Nat × ℚ × ℚ)) (c : Nat) :
    State :=
  (((s.placedAs f d l cs c).planResult f 0 0 none).fput f PLAN_SEQ.w
    ((s.placedAs f d l cs c).fget f PLAN_SEQ.w + 1)).showPlans.raise0 f iPLAN_DONE

/-- The end of the admission by its verdict. -/
def State.verdictEnd (s : State) (f : Fn) (d : List (List Word)) (v : Verdict) : State :=
  let s := match v with
    | .refused r x g i => (s.planResult f r x (some (g, i))).inc SCHED_CNT_REFUSED.w
    | .passed l cs c =>
      let s := (((s.commit f d).setTimeline l c).settle.showUse cs c).plansChanged
      (s.planResult f 0 0 none).fput f PLAN_SEQ.w (s.fget f PLAN_SEQ.w + 1)
  s.showPlans.raise0 f iPLAN_DONE

theorem exec_admissionDone {rest : List Fn} (hq : s.sched.queue = f :: rest) :
    exec .admissionDone s = .next ((s.admitted rest).verdictEnd f (s.plan f).draft (s.judge f (s.plan f).draft)) := by
  change execAdmissionDone s = _
  rw [execAdmissionDone, hq]
  rfl

theorem State.verdictEnd_refused (s : State) (f : Fn) (d : List (List Word)) (r x : Nat) (g : Fn) (i : Nat) :
    s.verdictEnd f d (.refused r x g i) = s.refusedWith f r x g i := rfl

theorem State.verdictEnd_passed (s : State) (f : Fn) (d : List (List Word)) (l : List Placed)
    (cs : List (Placed × Nat × ℚ × ℚ)) (c : Nat) : s.verdictEnd f d (.passed l cs c) = s.acceptedAs f d l cs c := rfl

/-- What the end of an admission leaves of plans, schedule and result. -/
theorem State.admissionEnd_shows (h : s.Tidy) (f : Fn) :
    (s.showPlans.raise0 f iPLAN_DONE).plans = s.plans ∧ (s.showPlans.raise0 f iPLAN_DONE).sched = s.sched ∧
    (s.showPlans.raise0 f iPLAN_DONE).fget f PLAN_RESULT.REASON = s.fget f PLAN_RESULT.REASON ∧
    (s.showPlans.raise0 f iPLAN_DONE).fget f PLAN_SEQ.w = s.fget f PLAN_SEQ.w ∧
    (s.showPlans.raise0 f iPLAN_DONE).fget f INT_STAT0.PLAN_DONE = 1 := by
  have hv := State.tidy_showPlans h
  have hraise : Keeps (areasMask [.counters, .mode, .engines, .reg INT_STAT0.w, .reg WAKE_HREASON.w]) s.showPlans
    (s.showPlans.raise0 f iPLAN_DONE) := State.raise0_keeps _ _ _ .refl (by decide)
  refine ⟨Eq.trans (hraise.same (a := .plans) (by decide)) s.plans_showPlans,
    Eq.trans (hraise.same (a := .sched) (by decide)) s.sched_showPlans, (hraise.fget_eq (by decide)).trans ?_,
    (hraise.fget_eq (by decide)).trans ?_, State.fget_raise0_same hv.canon (by decide)⟩
  all_goals exact State.fget_showPlans_apart h (by decide) (by decide) (by decide)

theorem State.refusedWith_shows (h : s.Tidy) (f g : Fn) {r : Nat} (hr : r < 0x100) (x i : Nat) :
    (s.refusedWith f r x g i).plans = s.plans ∧ (s.refusedWith f r x g i).sched = s.sched ∧
    (s.refusedWith f r x g i).fget f PLAN_RESULT.REASON = r ∧ (s.refusedWith f r x g i).fget f INT_STAT0.PLAN_DONE = 1 := by
  have hresult := s.planResult_frame f r x (some (g, i))
  have hreason := State.reason_planResult (f := f) h hr x (some (g, i))
  have hv : ((s.planResult f r x (some (g, i))).inc SCHED_CNT_REFUSED.w).Tidy := State.tidy_inc (hresult.tidy h)
  have hinc : Keeps (areasMask [.openValues, .reg SCHED_CNT_REFUSED.w]) (s.planResult f r x (some (g, i)))
      ((s.planResult f r x (some (g, i))).inc SCHED_CNT_REFUSED.w) := State.put_keeps _ _ _ .refl (by decide)
  have hplans : ((s.planResult f r x (some (g, i))).inc SCHED_CNT_REFUSED.w).plans = s.plans :=
    Eq.trans (hinc.same (a := .plans) (by decide)) (hresult.same (a := .plans) (by decide))
  have hsched : ((s.planResult f r x (some (g, i))).inc SCHED_CNT_REFUSED.w).sched = s.sched :=
    Eq.trans (hinc.same (a := .sched) (by decide)) (hresult.same (a := .sched) (by decide))
  have hres := (hinc.fget_eq (f := f) (x := PLAN_RESULT.REASON) (by decide)).trans hreason
  unfold State.refusedWith
  generalize (s.planResult f r x (some (g, i))).inc SCHED_CNT_REFUSED.w = u at *
  obtain ⟨hplans', hsched', hres', _, hdone⟩ := State.admissionEnd_shows hv f
  exact ⟨hplans'.trans hplans, hsched'.trans hsched, hres'.trans hres, hdone⟩

/-- A change of list elements that a function does not see leaves its values. -/
theorem map_modify_of_eq {α β : Type} (p : α → β) {c : α → α} (h : ∀ x, p (c x) = p x) (l : List α) (k : Nat) :
    (l.modify k c).map p = l.map p := by
  induction l generalizing k with
  | nil => simp
  | cons a l ih => cases k <;> simp [h, ih]

/-- The plan that a draft becomes: its records, with the progress of the watches that stay. -/
theorem State.commit_shows (h : s.Tidy) (f : Fn) (d : List (List Word)) : (s.commit f d).Tidy ∧
    ((s.commit f d).plan f).plan.map Watch.words = d ∧ ((s.commit f d).plan f).draft = [] ∧
    (s.commit f d).sched.queue = s.sched.queue := by
  have hcommit := s.commit_keeps f d .refl (within?_self _)
  refine ⟨hcommit.tidy h, ?_⟩
  unfold State.commit
  extract_lets old at_ fresh new s1 _ s2 _ s3
  have hplan : s3.plan f = { s2.plan f with plan := new, draft := [] } := s2.plan_setPlan f _
  have hwords : new.map Watch.words = d := by
    have hfold (l : List (Watch × Nat)) (start : List Watch) : (l.foldl (fun (l : List Watch) (e : Watch × Nat) =>
        match at_ e.2 with
        | some k => l.modify k (fun w => if w.start = e.1.start then { w with last := e.1.last } else w)
        | none => l) start).map Watch.words = start.map Watch.words := by
      induction l generalizing start with
      | nil => rfl
      | cons e l ih =>
        rw [List.foldl_cons, ih]
        split
        · exact map_modify_of_eq _ (fun w => by split <;> rfl) _ _
        · rfl
    refine (hfold _ _).trans ?_
    unfold fresh
    rw [List.map_map]
    exact List.map_id d
  have hqueue : s3.sched.queue = s.sched.queue := by
    have haccount := congrArg Sched.queue s.sched_account
    exact haccount
  refine ⟨?_, ?_, hqueue⟩
  · rw [State.plan_fput, State.plan_fput, hplan]
    exact hwords
  · rw [State.plan_fput, State.plan_fput, hplan]

@[simp] theorem State.plan_showUse (s : State) (cs : List (Placed × Nat × ℚ × ℚ)) (c : Nat) (f : Fn) :
    (s.showUse cs c).plan f = s.plan f := by
  rw [State.plan, (s.showUse_keeps cs c .refl (within?_self _)).same (a := .plans) (by decide), ← State.plan]

@[simp] theorem State.sched_showUse (s : State) (cs : List (Placed × Nat × ℚ × ℚ)) (c : Nat) :
    (s.showUse cs c).sched = s.sched :=
  (s.showUse_keeps cs c .refl (within?_self _)).same (a := .sched) (by decide)

theorem State.tidy_setTimeline (h : s.Tidy) (l : List Placed) (c : Nat) : (s.setTimeline l c).Tidy := h

theorem State.placedAs_shows (h : s.Tidy) (f : Fn) (d : List (List Word)) (l : List Placed)
    (cs : List (Placed × Nat × ℚ × ℚ)) (c : Nat) : (s.placedAs f d l cs c).Tidy ∧
    ((s.placedAs f d l cs c).plan f).plan.map Watch.words = d ∧ ((s.placedAs f d l cs c).plan f).draft = [] ∧
    (s.placedAs f d l cs c).sched.queue = s.sched.queue ∧ (s.placedAs f d l cs c).sched.timeline = l.map Placed.occ ∧
    (s.placedAs f d l cs c).sched.dirty = true ∧ (s.placedAs f d l cs c).fget f PLAN_SEQ.w = s.fget f PLAN_SEQ.w := by
  obtain ⟨ht, hwords, hdraft, hqueue⟩ := State.commit_shows h f d
  have hseq : (s.commit f d).fget f PLAN_SEQ.w = s.fget f PLAN_SEQ.w :=
    (s.commit_keeps f d .refl (within?_self _)).fget_eq (by decide)
  unfold State.placedAs
  generalize s.commit f d = u at *
  have hv := State.tidy_setTimeline ht l c
  have hplan : (u.setTimeline l c).plan f = u.plan f := rfl
  have hline : (u.setTimeline l c).sched.timeline = l.map Placed.occ := rfl
  have hqueue' : (u.setTimeline l c).sched.queue = s.sched.queue := hqueue
  have hseq' : (u.setTimeline l c).fget f PLAN_SEQ.w = s.fget f PLAN_SEQ.w := hseq
  rw [← hplan] at hwords hdraft
  generalize u.setTimeline l c = v at *
  have hsettle : Calm v v.settle := .settle
  have huse := v.settle.showUse_keeps cs c .refl (within?_self _)
  refine ⟨State.tidy_plansChanged (huse.tidy (hsettle.tidy hv)), ?_, ?_, ?_, ?_, rfl, ?_⟩
  · rw [State.plan_plansChanged, State.plan_showUse, hsettle.plan, hwords]
  · rw [State.plan_plansChanged, State.plan_showUse, hsettle.plan, hdraft]
  · rw [← hqueue', ← hsettle.queue, ← State.sched_showUse v.settle cs c]
    rfl
  · rw [State.timeline_plansChanged, State.sched_showUse, hsettle.timeline, hline]
  · refine Eq.trans ?_ ((huse.fget_eq (by decide)).trans (((v.settle_keeps .refl (within?_self _)).fget_eq
      (by decide)).trans hseq'))
    rfl

theorem State.acceptedAs_shows (h : s.Tidy) (f : Fn) (d : List (List Word)) (l : List Placed)
    (cs : List (Placed × Nat × ℚ × ℚ)) (c : Nat) : ((s.acceptedAs f d l cs c).plan f).plan.map Watch.words = d ∧
    ((s.acceptedAs f d l cs c).plan f).draft = [] ∧ (s.acceptedAs f d l cs c).sched.queue = s.sched.queue ∧
    (s.acceptedAs f d l cs c).sched.timeline = l.map Placed.occ ∧ (s.acceptedAs f d l cs c).sched.dirty = true ∧
    (s.acceptedAs f d l cs c).fget f PLAN_RESULT.REASON = 0 ∧
    (s.acceptedAs f d l cs c).fget f PLAN_SEQ.w = (s.fget f PLAN_SEQ.w + 1) % 0x10000 ∧
    (s.acceptedAs f d l cs c).fget f INT_STAT0.PLAN_DONE = 1 := by
  obtain ⟨ht, hwords, hdraft, hqueue, hline, hdirty, hseq⟩ := State.placedAs_shows h f d l cs c
  rw [State.acceptedAs, hseq]
  generalize s.placedAs f d l cs c = u at *
  have hresult := u.planResult_frame f 0 0 none
  have hplan : (u.planResult f 0 0 none).plan f = u.plan f := by
    rw [State.plan, hresult.same (a := .plans) (by decide), ← State.plan]
  have hsched : (u.planResult f 0 0 none).sched = u.sched := hresult.same (a := .sched) (by decide)
  have hreason := State.reason_planResult (f := f) ht (reason := 0) (by decide) 0 none
  have hv := hresult.tidy ht
  generalize u.planResult f 0 0 none = v at *
  obtain ⟨hplans, hsched', hres, hseq', hdone⟩ := State.admissionEnd_shows
    (State.tidy_fput (f := f) (x := PLAN_SEQ.w) (v := s.fget f PLAN_SEQ.w + 1) hv) f
  have hend (e : State) (he : e.plans = (v.fput f PLAN_SEQ.w (s.fget f PLAN_SEQ.w + 1)).plans) : e.plan f = u.plan f := by
    rw [State.plan, he, ← State.plan, State.plan_fput, hplan]
  rw [State.sched_fput, hsched] at hsched'
  refine ⟨?_, ?_, ?_, ?_, ?_, ?_, ?_, hdone⟩
  · rw [hend _ hplans, hwords]
  · rw [hend _ hplans, hdraft]
  · rw [hsched', hqueue]
  · rw [hsched', hline]
  · rw [hsched', hdirty]
  · exact (hres.trans (State.fget_fput_other _ (by decide) (by decide) (.inr (by decide)))).trans hreason
  · have hself := State.fget_fput_self (f := f) (x := PLAN_SEQ.w) (v := s.fget f PLAN_SEQ.w + 1) hv (by decide)
    rw [show PLAN_SEQ.w.size = 0x10000 from rfl] at hself
    exact hseq'.trans hself

/-! ### The snapshot, re-admission and the start of a day -/

/-- The snapshot is up to date. -/
def State.snapshotted (s : State) : State :=
  { s with sched := { s.sched with
    dirty := false, snapshot := allFns.map (fun f => (s.plan f).plan.map Watch.words),
    snapRegs := s.regs.filter (fun e => !isAon e.1) } }

theorem exec_planSnapshotWrite (s : State) (h : s.sched.dirty = true ∧ s.flashFree = true) :
    exec .planSnapshotWrite s = .next (s.snapshotted.chargeOpen .f0) := congrArg Host.Outcome.next (if_pos h)

theorem State.sched_chargeOpen (s : State) (f : Fn) : (s.chargeOpen f).sched = s.sched :=
  (s.chargeOpen_keeps f .refl (within?_self _)).same (a := .sched) (by decide)

/-- The committed plans pass once more: the timeline takes their placement. -/
theorem State.readmit_of {l : List Placed} (n : Nat)
    (hplace : s.placeAll (cycleOf s.liveWatches) s.ktime [] (byClass s.liveWatches) = .inl l)
    (hres : (s.reservoir s.ktime (cycleOf s.liveWatches) none l).2 = none) :
    ∃ cs, s.readmit (n + 1) = (((s.setTimeline l (cycleOf s.liveWatches)).noteEstimates).showUse cs
      (cycleOf s.liveWatches)).showPlans := by
  rw [State.readmit, hplace]
  dsimp only
  generalize s.reservoir s.ktime (cycleOf s.liveWatches) none l = r at *
  obtain ⟨rs, o⟩ := r
  obtain rfl : o = none := hres
  exact ⟨_, rfl⟩

theorem State.readmit_shows (s : State) (l : List Placed) (c : Nat) (cs : List (Placed × Nat × ℚ × ℚ)) (k : Nat) :
    ((((s.setTimeline l c).noteEstimates).showUse cs k).showPlans).sched.readmit = s.sched.readmit ∧
    ((((s.setTimeline l c).noteEstimates).showUse cs k).showPlans).sched.timeline = l.map Placed.occ ∧
    ((((s.setTimeline l c).noteEstimates).showUse cs k).showPlans).sched.lastC = s.get RES_C_EST.w := by
  rw [State.sched_showPlans, State.sched_showUse]
  exact ⟨rfl, rfl, rfl⟩

/-- The use of the day starts anew. -/
def State.dayCleared (s : State) : State :=
  let s := s.eachFn (fun s f => (s.setEng f { s.eng f with dayE := 0, dayT := 0 }).showDay f) allFns
  { s with sched := { s.sched with devE := 0 } }

theorem exec_dayStart (s : State) (h : (s.sec + 86400 - 60 * s.get SCHED_DAY_OFS.w % 86400) % 86400 = 0) :
    exec .dayStart s = .next ((s.account.dayCleared.put SCHED_DEV_USE.w 0).agingRecord.wantReadmit) :=
  congrArg Host.Outcome.next (if_pos h)

theorem State.showDay_zero (h : s.Tidy) (he : (s.eng f).dayE = 0) (ht : (s.eng f).dayT = 0) :
    (s.showDay f).fget f DAY_USE_E.w = 0 ∧ (s.showDay f).fget f DAY_USE_T.w = 0 := by
  have hround : roundNat (((0 : Nat) : ℚ) / 1000) = 0 := by decide +kernel
  unfold State.showDay
  dsimp only
  rw [he, ht, hround]
  simp (decide := true) (maxDischargeDepth := 9) [h]

theorem State.showDay_other (s : State) (h : g ≠ f) : (s.showDay f).fget g DAY_USE_E.w = s.fget g DAY_USE_E.w ∧
    (s.showDay f).fget g DAY_USE_T.w = s.fget g DAY_USE_T.w := by
  unfold State.showDay
  dsimp only
  constructor
  all_goals
    rw [State.fget_fput_other _ (by decide) (by decide) (.inl h)]
    exact State.fget_fput_other _ (by decide) (by decide) (.inl h)

/-- The counters of one function are cleared. -/
def State.dayClear (s : State) (f : Fn) : State := (s.setEng f { s.eng f with dayE := 0, dayT := 0 }).showDay f

theorem State.dayClear_shows (h : s.Tidy) (f g : Fn) : (s.dayClear f).Tidy ∧
    (g = f ∨ s.fget g DAY_USE_E.w = 0 ∧ s.fget g DAY_USE_T.w = 0 ∧ (s.eng g).dayE = 0 → (s.dayClear f).fget g DAY_USE_E.w = 0 ∧
      (s.dayClear f).fget g DAY_USE_T.w = 0 ∧ ((s.dayClear f).eng g).dayE = 0) := by
  have heng := s.eng_setEng f { s.eng f with dayE := 0, dayT := 0 }
  have hother (hne : g ≠ f) := State.eng_setEng_ne (s := s) { s.eng f with dayE := 0, dayT := 0 } hne
  have hu : (s.setEng f { s.eng f with dayE := 0, dayT := 0 }).Tidy := h
  have hget (x : Fld) : (s.setEng f { s.eng f with dayE := 0, dayT := 0 }).fget g x = s.fget g x := rfl
  unfold State.dayClear
  generalize s.setEng f { s.eng f with dayE := 0, dayT := 0 } = u at *
  have hshow := u.showDay_keeps f .refl (within?_self _)
  refine ⟨hshow.tidy hu, fun hor => ?_⟩
  have hfns : ((u.showDay f).eng g) = u.eng g := by
    rw [State.eng, hshow.same (a := .engines) (by decide), ← State.eng]
  rw [hfns]
  by_cases hg : g = f
  · subst hg
    obtain ⟨hE, hT⟩ := State.showDay_zero hu (f := g) (by rw [heng]) (by rw [heng])
    exact ⟨hE, hT, by rw [heng]⟩
  · obtain ⟨hE, hT, hday⟩ := hor.resolve_left hg
    obtain ⟨hE', hT'⟩ := u.showDay_other hg
    exact ⟨by rw [hE', hget, hE], by rw [hT', hget, hT], by rw [hother hg, hday]⟩

theorem State.dayCleared_shows (h : s.Tidy) : s.dayCleared.Tidy ∧ s.dayCleared.sched.devE = 0 ∧
    ∀ g, s.dayCleared.fget g DAY_USE_E.w = 0 ∧ s.dayCleared.fget g DAY_USE_T.w = 0 ∧ (s.dayCleared.eng g).dayE = 0 := by
  have heach (l : List Fn) : ∀ {s : State}, s.Tidy → (s.eachFn State.dayClear l).Tidy ∧ ∀ g,
      (g ∈ l ∨ s.fget g DAY_USE_E.w = 0 ∧ s.fget g DAY_USE_T.w = 0 ∧ (s.eng g).dayE = 0) →
        (s.eachFn State.dayClear l).fget g DAY_USE_E.w = 0 ∧ (s.eachFn State.dayClear l).fget g DAY_USE_T.w = 0 ∧
          ((s.eachFn State.dayClear l).eng g).dayE = 0 := by
    induction l with
    | nil => exact fun h => ⟨h, fun g hg => hg.resolve_left List.not_mem_nil⟩
    | cons f l ih =>
      intro s h
      have hone (g : Fn) := State.dayClear_shows h f g
      obtain ⟨ht, hall⟩ := ih (hone f).1
      refine ⟨ht, fun g hg => hall g ?_⟩
      rcases hg with hmem | hdone
      · exact (List.mem_cons.mp hmem).elim (fun e => .inr ((hone g).2 (.inl e))) .inl
      · exact .inr ((hone g).2 (.inr hdone))
  obtain ⟨ht, hall⟩ := heach allFns h
  exact ⟨ht, rfl, fun g => hall g (.inl (by cases g <;> decide))⟩

/-- Settles O18: each command by the lemma that gives its next state; what ends with a plan leaves plans and timeline
(`Calm.settle`). -/
theorem planCommandsComplete : Obligations.PlanCommandsComplete := by
  unfold Obligations.PlanCommandsComplete
  refine ⟨planBegin_completes, wrec15Write_completes, planWidxWrite_completes, planSubmit_completes, planWithdraw_completes,
    fun f g rest r x i s hc ⟨hq, hv, hr⟩ => ?_, fun f rest l cs c s hc ⟨hq, hv⟩ => ?_,
    .intro _ exec_planSnapshotWrite fun s hc h => ?_, fun u l s hc ⟨hdue, hu, hplace, hres⟩ => ?_,
    .intro _ exec_dayStart fun s hc h => ?_⟩
  · refine ⟨_, exec_admissionDone hq, ?_⟩
    rw [hv, State.verdictEnd_refused]
    obtain ⟨hplans, hsched, hreason, hdone⟩ := State.refusedWith_shows (State.tidy_admitted hc rest) f g hr x i
    obtain ⟨_, _, _, hadmit⟩ := s.sched_admitted rest
    have hsched := hsched.trans hadmit
    refine ⟨by rw [hsched], ?_, by rw [hsched], hreason, hdone⟩
    change PerFn.get ((s.admitted rest).refusedWith f r x g i).plans f = _
    rw [hplans, State.plans_admitted, ← State.plan]
  · refine ⟨_, exec_admissionDone hq, ?_⟩
    rw [hv, State.verdictEnd_passed]
    obtain ⟨hwords, hdraft, hqueue, hline, hdirty, hreason, hseq, hdone⟩ :=
      State.acceptedAs_shows (State.tidy_admitted hc rest) f (s.plan f).draft l cs c
    obtain ⟨_, _, _, hadmit⟩ := s.sched_admitted rest
    rw [State.fget_admitted] at hseq
    exact ⟨hqueue.trans (congrArg Sched.queue hadmit), hwords, hdraft, hline, hdirty, hreason, hseq, hdone⟩
  · rw [State.sched_chargeOpen]
    exact ⟨rfl, rfl, rfl⟩
  · have hexec : exec .readmission s = .next (u.readmit 5) := by
      rw [hu]
      exact congrArg Host.Outcome.next (if_pos hdue)
    obtain ⟨cs, hend⟩ := State.readmit_of 4 hplace hres
    rw [hend] at hexec
    obtain ⟨hreadmit, hline, hlast⟩ := u.readmit_shows l (cycleOf u.liveWatches) cs (cycleOf u.liveWatches)
    refine ⟨_, hexec, hreadmit.trans ?_, hline, hlast.trans ?_⟩
    · rw [hu]
    · rw [hu, State.get_mk]
  · obtain ⟨ht, hdev, hday⟩ := State.dayCleared_shows ((Calm.account s).tidy hc)
    generalize s.account.dayCleared = u at *
    have haging := (u.put SCHED_DEV_USE.w 0).agingRecord_keeps .refl (within?_self _)
    have hput : (u.put SCHED_DEV_USE.w 0).Tidy := State.tidy_put ht
    have hzero : (u.put SCHED_DEV_USE.w 0).get SCHED_DEV_USE.w = 0 := State.get_put_self ht (by decide)
    have hday' (g : Fn) : (u.put SCHED_DEV_USE.w 0).fget g DAY_USE_E.w = 0 ∧ (u.put SCHED_DEV_USE.w 0).fget g DAY_USE_T.w = 0 ∧
        ((u.put SCHED_DEV_USE.w 0).eng g).dayE = 0 := by
      rw [State.fget_put (by decide), State.fget_put (by decide)]
      exact hday g
    have hdev' : (u.put SCHED_DEV_USE.w 0).sched.devE = 0 := hdev
    generalize u.put SCHED_DEV_USE.w 0 = v at *
    have hfns : v.agingRecord.fns = v.fns := haging.same (a := .engines) (by decide)
    have hsched : v.agingRecord.sched = v.sched := haging.same (a := .sched) (by decide)
    refine ⟨fun g => ?_, fun g => ?_, fun g => ?_, ?_, ?_, rfl⟩
    · exact (haging.fget_eq (f := g) (x := DAY_USE_E.w) (by decide)).trans (hday' g).1
    · exact (haging.fget_eq (f := g) (x := DAY_USE_T.w) (by decide)).trans (hday' g).2.1
    · change (PerFn.get v.agingRecord.fns g).dayE = 0
      rw [hfns]
      exact (hday' g).2.2
    · change v.agingRecord.sched.devE = 0
      rw [hsched, hdev']
    · exact (haging.get_eq (x := SCHED_DEV_USE.w) (by decide)).trans hzero

end Sys2Proof.Machine
end

section
/-! PROOFS. Occurrences, LISTEN, CAPTURE_NOW and the spill (O19). -/

namespace Sys2Proof.Machine

open R

variable {s t u : State} {f g : Fn} {x y : Fld} {v : Nat}

/-! ### Activity bits -/

/-- `MODE.CUR` and `MODE.IDLE` alone follow the activities. -/
theorem State.get_updMode (h : s.Tidy) (hy : y.sound = true) (hcur : MODE.CUR.apart y = true) (hidle : MODE.IDLE.apart y = true) :
    s.updMode.get y = s.get y := by
  unfold State.updMode
  split_ifs
  · rfl
  all_goals
    simp (decide := true) only [State.putBit, State.get_put_other (State.tidy_put h) (by decide : MODE.IDLE.sound = true) hy hidle,
      State.get_put_other h (by decide : MODE.CUR.sound = true) hy hcur]

theorem State.tidy_updMode (h : s.Tidy) : s.updMode.Tidy := (s.updMode_keeps .refl (within?_self _)).tidy h

theorem State.tidy_setAct {b : Bool} (h : s.Tidy) : (s.setAct x b).Tidy := State.tidy_updMode (State.tidy_put h)

theorem State.get_setAct {b : Bool} (h : s.Tidy) (hx : x.sound = true) (hy : y.sound = true) (ha : x.apart y = true)
    (hcur : MODE.CUR.apart y = true) (hidle : MODE.IDLE.apart y = true) : (s.setAct x b).get y = s.get y :=
  (State.get_updMode (State.tidy_put h) hy hcur hidle).trans (State.get_put_other h hx hy ha)

/-- An activity bit set reads as set. -/
theorem State.bit_setAct {b : Bool} (h : s.Tidy) (hx : x.sound = true) (hone : x.size = 2) (hcur : MODE.CUR.apart x = true)
    (hidle : MODE.IDLE.apart x = true) : (s.setAct x b).bit x = b := by
  rw [State.bit, State.setAct, State.putBit, State.get_updMode (State.tidy_put h) hx hcur hidle, State.get_put_self h hx, hone]
  cases b <;> rfl

theorem State.showActs_shows (h : s.Tidy) : s.showActs.bit MODE.SLOT_ACT = decide (s.tunerRuns ≠ []) ∧
    s.showActs.bit MODE.LISTEN_ACT = (decide (s.liveListens ≠ []) || s.bit FES_STAT.HOLD) := by
  have h1 : (s.setAct MODE.SLOT_ACT (s.tunerRuns ≠ [])).Tidy := State.tidy_setAct h
  have hslot : (s.setAct MODE.SLOT_ACT (s.tunerRuns ≠ [])).bit MODE.SLOT_ACT = decide (s.tunerRuns ≠ []) :=
    State.bit_setAct h (by decide) (by decide) (by decide) (by decide)
  have hkeep := State.updMode_keeps (s.putBit MODE.SLOT_ACT (s.tunerRuns ≠ [])) .refl (within?_self _)
  have hhold : (s.setAct MODE.SLOT_ACT (s.tunerRuns ≠ [])).bit FES_STAT.HOLD = s.bit FES_STAT.HOLD := by
    rw [State.bit, State.get_setAct h (by decide) (by decide) (by decide) (by decide) (by decide), ← State.bit]
  have hlisten : (s.setAct MODE.SLOT_ACT (s.tunerRuns ≠ [])).liveListens = s.liveListens := by
    have hplans : (s.setAct MODE.SLOT_ACT (s.tunerRuns ≠ [])).plans = s.plans := hkeep.same (a := .plans) (by decide)
    unfold State.liveListens State.plan
    rw [hplans]
  unfold State.showActs
  generalize s.setAct MODE.SLOT_ACT (s.tunerRuns ≠ []) = u at *
  rw [← hlisten, ← hhold, ← hslot]
  constructor
  · rw [State.bit, State.get_setAct h1 (by decide) (by decide) (by decide) (by decide) (by decide), ← State.bit]
  · exact State.bit_setAct h1 (by decide) (by decide) (by decide) (by decide)

/-! ### What runs -/

theorem State.runs_congr (hrun : t.sched.running = s.sched.running) (hplans : t.plans = s.plans) : t.runs = s.runs := by
  unfold State.runs State.watchOf State.plan
  rw [hrun, hplans]

theorem State.tunerRuns_congr (hrun : t.sched.running = s.sched.running) (hplans : t.plans = s.plans) :
    t.tunerRuns = s.tunerRuns := by
  rw [State.tunerRuns, State.runs_congr hrun hplans, ← State.tunerRuns]

theorem State.liveListens_congr (hplans : t.plans = s.plans) : t.liveListens = s.liveListens := by
  unfold State.liveListens State.plan
  rw [hplans]

/-- A running occurrence on the tuner shows as a slot. -/
theorem State.tunerRuns_ne_nil {r : Run} {w : Watch} (hrun : r ∈ s.sched.running) (hw : s.watchOf r.fn r.idx = some w)
    (hkind : recKind w.words ≠ kCAPT) : s.tunerRuns ≠ [] :=
  List.ne_nil_of_mem (List.mem_filter.mpr ⟨List.mem_filterMap.mpr ⟨r, hrun, by rw [hw]; rfl⟩, by simpa using hkind⟩ :
    (r, w) ∈ s.tunerRuns)

/-- What the tuner serves follows the runs, on the frequency it is on. -/
theorem State.kfc_rxFollow (s : State) : s.rxFollow.fe.rx.map Rx.kfc = s.fe.rx.map Rx.kfc := by
  unfold State.rxFollow
  split
  · next r hr =>
    have haid (t : State) : t.showAid.fe = t.fe := (t.showAid_keeps .refl (within?_self _)).same (a := .frontEnd) (by decide)
    dsimp only
    rw [haid, hr]
    rfl
  · rfl

theorem State.rx_rxStart (s : State) (kfc sub : Nat) (addrs : List Nat) :
    (s.rxStart kfc sub addrs).fe.rx = some ⟨kfc, kfc, sub, addrs, false, false⟩ := rfl

/-! ### SLOT_START -/

theorem mem_of_leastBy {α : Type} {p : α → Nat} {l : List α} {a : α} (h : leastBy p l = some a) : a ∈ l := by
  induction l generalizing a with
  | nil => simp [leastBy] at h
  | cons b l ih =>
    rw [leastBy] at h
    split at h
    · next c hc =>
      split at h
      · exact (Option.some.inj h) ▸ List.mem_cons_self
      · exact List.mem_cons_of_mem _ (ih (hc.trans h))
    · exact (Option.some.inj h) ▸ List.mem_cons_self

/-- The watch of an occurrence that is due stands in the committed plan. -/
theorem State.watchOf_of_slotDue {idx nominal start stop : Nat} {w : Watch}
    (h : s.slotDue f idx = some (w, nominal, start, stop)) : s.watchOf f idx = some w := by
  unfold State.slotDue at h
  split at h
  · unfold State.dueOcc at h
    split at h
    · next w' hw =>
      have hmem := mem_of_leastBy h
      obtain ⟨o, -, ho⟩ := List.mem_filterMap.mp hmem
      dsimp only at ho
      split_ifs at ho
      all_goals exact hw.trans (congrArg (Option.map Prod.fst) ho)
    · exact absurd h (Option.some_ne_none _).symm
  · exact absurd h (Option.some_ne_none _).symm

/-- The watch notes the occurrence that starts. -/
def State.noted (s : State) (f : Fn) (idx : Nat) (w : Watch) (nominal : Nat) : State :=
  s.setPlan f { s.plan f with plan := (s.plan f).plan.set idx { w with last := some nominal } }

theorem State.watchOf_noted {idx : Nat} {w : Watch} (h : s.watchOf f idx = some w) (nominal : Nat) :
    (s.noted f idx w nominal).watchOf f idx = some { w with last := some nominal } := by
  have hlt : idx < (s.plan f).plan.length := (List.getElem?_eq_some_iff.mp h).1
  rw [State.watchOf, State.noted, State.plan_setPlan]
  exact List.getElem?_set_self hlt

/-- A slot whose reservoir lies too low sets RESERVOIR_LOW (R63). -/
def State.lowWarned (s : State) : State := if s.get VRES_MEAS.w + 100 < s.tgtMv then s.raise1 jRESERVOIR_LOW else s

theorem State.lowWarned_frame (s : State) : Keeps (areasMask Area.access) s s.lowWarned :=
  .ite (State.raise1_keeps _ _ .refl (by decide)) .refl

theorem State.awake_lowWarned (s : State) : s.lowWarned.awake = s.awake := by
  unfold State.lowWarned
  split
  · exact State.awake_raise1 _ _
  · rfl

/-- A slot that is due, with the unit awake: its reception starts. -/
theorem exec_slotStart {idx nominal start stop : Nat} {w : Watch} (hdue : s.slotDue f idx = some (w, nominal, start, stop))
    (hruns : s.runsPlans = true) (hawake : s.awake = true) (hkind : recKind w.words ≠ kCAPT) (hhold : s.bit FES_STAT.HOLD = false) :
    exec (.slotStart f idx) s = .next (((s.noted f idx w nominal).lowWarned.demandXo).startRx
      ⟨f, idx, nominal, stop + (s.ktime - start), false⟩ w) := by
  have hheld : s.heldOff w nominal = false := by simp [State.heldOff, hhold]
  have hruns' : (s.noted f idx w nominal).runsPlans = true := hruns
  have hawake' : (s.noted f idx w nominal).lowWarned.awake = true := (State.awake_lowWarned _).trans hawake
  have hktime : (s.noted f idx w nominal).lowWarned.demandXo.ktime = s.ktime :=
    (State.demandXo_keeps _ (State.lowWarned_frame _) (by decide)).same (a := .ktime) (by decide)
  change execSlotStart f idx s = _
  unfold execSlotStart
  simp only [hdue, hheld, Bool.false_eq_true, if_false]
  change Host.Outcome.next (if ¬ (s.noted f idx w nominal).runsPlans = true then _ else
    if ¬ (s.noted f idx w nominal).lowWarned.awake = true then _ else _) = _
  rw [if_neg (by simpa using hruns'), if_neg (by simpa using hawake'), ← hktime]
  simp only [if_neg hkind]
  rfl

/-- The reception of an occurrence has started. -/
theorem State.startRx_shows {r : Run} {w : Watch} (h : s.Tidy) (hhold : s.bit FES_STAT.HOLD = false) (hrx : s.fe.rx = none)
    (hw : s.watchOf r.fn r.idx = some w) (hkind : recKind w.words ≠ kCAPT) (w' : Watch) (hwords : w'.words = w.words) :
    r ∈ (s.startRx r w').sched.running ∧ (s.startRx r w').fe.rx.map Rx.kfc = some (recKfc w.words) ∧
    (s.startRx r w').bit MODE.SLOT_ACT = true ∧ (s.startRx r w').watchOf r.fn r.idx = some w := by
  rw [State.startRx_of_free hhold hrx, hwords]
  have hstart := State.rx_rxStart s (recKfc w.words) (recSub w.words) []
  have h1 : Keeps (areasMask rxAreas) s (s.rxStart (recKfc w.words) (recSub w.words) []) :=
    State.rxStart_keeps _ _ _ _ .refl (by decide)
  generalize s.rxStart (recKfc w.words) (recSub w.words) [] = u at *
  have h2 : Keeps (areasMask rxAreas) s (((u.addRun r).carry r.fn w.words).rxFollow) :=
    State.rxFollow_keeps _ (State.carry_keeps _ _ _ (State.addRun_keeps _ _ h1 (by decide)) (by decide)) (by decide)
  have hadd : Keeps (areasMask [.engines, .sched, .openValues, .datacast, .reg DAY_USE_E.w, .reg DAY_USE_T.w]) u
      ((u.addRun r).carry r.fn w.words) := State.carry_keeps _ _ _ (State.addRun_keeps u r .refl (by decide)) (by decide)
  have hfe : ((u.addRun r).carry r.fn w.words).fe = u.fe := hadd.same (a := .frontEnd) (by decide)
  have hkfc : (((u.addRun r).carry r.fn w.words).rxFollow).fe.rx.map Rx.kfc = some (recKfc w.words) := by
    rw [State.kfc_rxFollow, hfe, hstart]
    rfl
  have hrun : r ∈ (((u.addRun r).carry r.fn w.words).rxFollow).sched.running := by
    have hk : Keeps (areasMask [.datacast, .frontEnd, .page 0x0E]) (u.addRun r) (((u.addRun r).carry r.fn w.words).rxFollow) :=
      State.rxFollow_keeps _ (State.carry_keeps _ _ _ .refl (by decide)) (by decide)
    have hsched := hk.same (a := .sched) (by decide)
    exact (congrArg Sched.running hsched).symm ▸ u.mem_running_addRun r
  generalize ((u.addRun r).carry r.fn w.words).rxFollow = v at *
  have hwatch : v.watchOf r.fn r.idx = some w := by
    rw [State.watchOf, State.plan, h2.same (a := .plans) (by decide), ← State.plan, ← State.watchOf, hw]
  have hshow : Keeps _ v v.showActs := v.showActs_keeps .refl (within?_self _)
  refine ⟨?_, ?_, ?_, ?_⟩
  · rw [hshow.same (a := .sched) (by decide)]
    exact hrun
  · rw [hshow.same (a := .frontEnd) (by decide)]
    exact hkfc
  · rw [(State.showActs_shows (h2.tidy h)).1]
    exact decide_eq_true (State.tunerRuns_ne_nil hrun hwatch hkind)
  · rw [State.watchOf, State.plan, hshow.same (a := .plans) (by decide), ← State.plan, ← State.watchOf, hwatch]

theorem slotStart_completes (f : Fn) (idx : Nat) (w : Watch) (nominal start stop : Nat) : Completes (.slotStart f idx) (fun s =>
    s.slotDue f idx = some (w, nominal, start, stop) ∧ s.runsPlans = true ∧ s.awake = true ∧ recKind w.words ≠ kCAPT ∧
    s.bit FES_STAT.HOLD = false ∧ s.fe.rx = none) (fun s t =>
    (⟨f, idx, nominal, stop + (s.ktime - start), false⟩ : Run) ∈ t.sched.running ∧ t.fe.rx.map Rx.kfc = some (recKfc w.words) ∧
    t.bit MODE.SLOT_ACT = true ∧ (t.watchOf f idx).map Watch.last = some (some nominal)) := by
  intro s hc ⟨hdue, hruns, hawake, hkind, hhold, hrx⟩
  refine ⟨_, exec_slotStart hdue hruns hawake hkind hhold, ?_⟩
  have hwatch := State.watchOf_noted (State.watchOf_of_slotDue hdue) nominal
  have hu : (s.noted f idx w nominal).Tidy := hc
  have hhold' : (s.noted f idx w nominal).bit FES_STAT.HOLD = false := hhold
  have hrx' : (s.noted f idx w nominal).fe.rx = none := hrx
  generalize s.noted f idx w nominal = u at *
  have hpre : Keeps (areasMask Area.access) u u.lowWarned.demandXo := State.demandXo_keeps _ u.lowWarned_frame (by decide)
  have hhold'' : u.lowWarned.demandXo.bit FES_STAT.HOLD = false := by rw [State.bit, hpre.get_eq (by decide), ← State.bit, hhold']
  have hrx'' : u.lowWarned.demandXo.fe.rx = none := by rw [hpre.same (a := .frontEnd) (by decide), hrx']
  have hwatch' : u.lowWarned.demandXo.watchOf f idx = some { w with last := some nominal } := by
    rw [State.watchOf, State.plan, hpre.same (a := .plans) (by decide), ← State.plan, ← State.watchOf, hwatch]
  obtain ⟨hrun, hkfc, hact, hlast⟩ := State.startRx_shows (r := ⟨f, idx, nominal, stop + (s.ktime - start), false⟩)
    (hpre.tidy hu) hhold'' hrx'' hwatch' hkind w rfl
  exact ⟨hrun, hkfc, hact, congrArg (Option.map Watch.last) hlast⟩

/-! ### SLOT_END -/

/-- What a planned end tells of a switch still to be confirmed. -/
theorem Calm.fmPlannedEnd : Calm s s.fmPlannedEnd := by
  unfold State.fmPlannedEnd
  split
  · extract_lets _ u
    have hu : Calm s u := .of_regs rfl id rfl rfl rfl rfl
    exact (hu.trans (.put (x := FMR_STAT.AF_CONFIRM) (by decide))).trans (.deliverAll (List.forall_mem_nil _) _)
  · exact .refl s

theorem Calm.dabPlannedEnd : Calm s s.dabPlannedEnd := by
  unfold State.dabPlannedEnd
  split
  · extract_lets _ u
    have hu : Calm s u := .of_regs rfl id rfl rfl rfl rfl
    exact (hu.trans (.put (x := DAB_STAT.AF_CONFIRM) (by decide))).trans (.deliverAll (List.forall_mem_nil _) _)
  · exact .refl s

/-- The one user of the tuner has the whole of the time since the last account. -/
theorem State.dayT_account_one {r : Run} {w : Watch} (hone : s.tunerRuns = [(r, w)]) (hlis : s.liveListens = []) :
    (s.account.eng r.fn).dayT = (s.eng r.fn).dayT + (s.ktime - s.sched.useAt) * 1000 / 2 ^ 24 := by
  have hcharge (u : State) (g : Fn) (n m : Nat) : ((u.charge g n m).eng r.fn).dayT = (u.eng r.fn).dayT + if r.fn = g then m else 0 := by
    rw [State.eng_charge]
    split
    · next h => rw [h]
    · rfl
  have hzero (n : Nat) (l : List Fn) (u : State) : ((u.split n 0 l).eng r.fn).dayT = (u.eng r.fn).dayT := by
    unfold State.split
    generalize n / l.length = k
    rw [Nat.zero_div]
    induction l generalizing u with
    | nil => rfl
    | cons g l ih =>
      rw [List.foldl_cons, ih, hcharge]
      split <;> rfl
  unfold State.account
  extract_lets dt rx cap _ u v
  have hrx : rx = [r.fn] := by simp [rx, hone, hlis]
  have hv : (v.eng r.fn).dayT = (s.eng r.fn).dayT + dt * 1000 / 2 ^ 24 := by
    unfold v
    rw [hrx, if_neg (List.cons_ne_nil _ _)]
    refine (hcharge u.fresh.2 r.fn _ _).trans ?_
    rw [if_pos rfl, List.length_singleton, Nat.div_one]
    rfl
  split
  · next hdt =>
    rw [show s.ktime - s.sched.useAt = 0 from hdt]
    rfl
  · split
    · exact hv
    · exact (hzero _ _ _).trans hv

/-- A quiet step that does not account for time moves no day's use. -/
theorem Calm.dayT_of_useAt (h : Calm s t) (hnow : t.sched.useAt = s.sched.useAt) (g : Fn) :
    (t.eng g).dayT = (s.eng g).dayT := by
  induction h with
  | refl => rfl
  | trans h k ih ih' =>
    obtain ⟨n, hn, hor⟩ := h.sched
    obtain ⟨m, hm, hor'⟩ := k.sched
    have hn' := congrArg Sched.useAt hn
    have hm' := congrArg Sched.useAt hm
    have hk := h.ktime
    dsimp only at hn' hm'
    rw [ih' (by omega), ih (by omega)]
  | frame _ _ hfns => rw [State.eng, hfns, ← State.eng]
  | raise0 f =>
    obtain ⟨_, ha⟩ := State.eng_raise0 _ f g _
    rw [ha]
  | setEng f e _ hday =>
    by_cases hg : g = f
    · rw [hg, State.eng_setEng, hday]
    · rw [State.eng_setEng_ne _ _ hg]
  | account s =>
    rw [s.sched_account] at hnow
    rw [State.account_of_now hnow.symm]

/-- What a planned end tells first, where the occurrence was alone on the tuner. -/
def State.endTold (s : State) (r : Run) (w : Watch) : State :=
  if (s.tunerRuns.all (fun rw => rw.1 == r) && s.liveListens == []) = true ∧ recKind w.words ≠ kCAPT then
    s.fmPlannedEnd.dabPlannedEnd
  else s

theorem State.endTold_frame (s : State) (r : Run) (w : Watch) : Keeps (areasMask [.counters, .mode, .engines, .fm, .dab,
    .reg INT_STAT0.w, .reg DQ_LOST.w, .reg WAKE_HREASON.w, .reg FMR_STAT.w, .reg DAB_STAT.w]) s (s.endTold r w) :=
  .ite (State.dabPlannedEnd_keeps _ (State.fmPlannedEnd_keeps _ .refl (by decide)) (by decide)) .refl

theorem Calm.endTold (r : Run) (w : Watch) : Calm s (s.endTold r w) := .ite (Calm.fmPlannedEnd.trans .dabPlannedEnd) (.refl s)

/-- The record of an end, where the watch asks for one. -/
def State.endRecord (s : State) (f : Fn) (r : Run) (w : Watch) : State :=
  if r.raw then s.missed f w r.nominal 5
  else if recFlag w.words 3 then s.planEvent f 1 0 (recId w.words) (r.nominal / oneSec)
  else s

theorem Calm.endRecord (f : Fn) (r : Run) (w : Watch) : Calm s (s.endRecord f r w) :=
  .ite (.planEvent _ _ _ _) (.ite (.planEvent _ _ _ _) (.refl s))

theorem exec_slotEnd {idx : Nat} {r : Run} {w : Watch}
    (hrun : s.runs.find? (fun rw => rw.1.fn == f && rw.1.idx == idx) = some (r, w)) (hend : s.ends r w = true) :
    exec (.slotEnd f idx) s = .next ((((s.endTold r w).dropRuns (fun rw => rw.1 == r)).settle).endRecord f r w) := by
  change execSlotEnd f idx s = _
  rw [execSlotEnd, hrun]
  dsimp only
  rw [if_pos hend]
  rfl

/-- The occurrence that ended runs no more, and the time up to now is accounted for. -/
theorem State.dropRuns_shows {r : Run} {w : Watch} (hmem : (r, w) ∈ s.runs) :
    r ∉ (s.dropRuns (fun rw => rw.1 == r)).sched.running ∧ (s.dropRuns (fun rw => rw.1 == r)).sched.useAt = s.ktime := by
  have hsched := s.sched_account
  unfold State.dropRuns
  dsimp only
  rw [hsched]
  refine ⟨fun h => ?_, rfl⟩
  obtain ⟨-, hno⟩ := List.mem_filter.mp h
  have hhit : ((s.runs.filter (fun rw => rw.1 == r)).any (fun rw => rw.1 == r)) = true :=
    List.any_eq_true.mpr ⟨_, List.mem_filter.mpr ⟨hmem, by simp⟩, by simp⟩
  rw [hhit] at hno
  exact Bool.noConfusion hno

/-- The next state of an occurrence's end. -/
theorem State.slotEnd_shows {r : Run} {w : Watch} (hmem : (r, w) ∈ s.runs) (f : Fn) :
    r ∉ ((((s.endTold r w).dropRuns (fun rw => rw.1 == r)).settle).endRecord f r w).sched.running ∧
    ((((s.endTold r w).dropRuns (fun rw => rw.1 == r)).settle).endRecord f r w).sched.useAt = s.ktime ∧
    (((((s.endTold r w).dropRuns (fun rw => rw.1 == r)).settle).endRecord f r w).eng r.fn).dayT =
      ((s.endTold r w).account.eng r.fn).dayT := by
  have htold := s.endTold_frame r w
  have hsched : (s.endTold r w).sched = s.sched := htold.same (a := .sched) (by decide)
  have hplans : (s.endTold r w).plans = s.plans := htold.same (a := .plans) (by decide)
  have hktime : (s.endTold r w).ktime = s.ktime := htold.same (a := .ktime) (by decide)
  have hmem' : (r, w) ∈ (s.endTold r w).runs := by
    rw [State.runs_congr (congrArg Sched.running hsched) hplans]
    exact hmem
  generalize s.endTold r w = u at *
  obtain ⟨hrun, huse⟩ := State.dropRuns_shows hmem'
  have hktime' : (u.dropRuns (fun rw => rw.1 == r)).ktime = s.ktime :=
    Eq.trans ((u.dropRuns_keeps _ .refl (within?_self _)).same (a := .ktime) (by decide)) hktime
  have hday : ((u.dropRuns (fun rw => rw.1 == r)).eng r.fn).dayT = (u.account.eng r.fn).dayT := rfl
  rw [hktime] at huse
  rw [← hday]
  generalize u.dropRuns (fun rw => rw.1 == r) = v at *
  have hcalm : Calm v (v.settle.endRecord f r w) := .trans .settle (.endRecord f r w)
  obtain ⟨n, hn, hor⟩ := hcalm.sched
  refine ⟨?_, ?_, hcalm.dayT (huse.trans hktime'.symm) r.fn⟩
  · rw [hn]
    exact hrun
  · rw [hn]
    exact hor.elim (fun e => e.trans huse) (fun e => e.trans hktime')

/-! ### LISTEN -/

theorem State.plan_showListen (s : State) (f g : Fn) : (s.showListen f).plan g = s.plan g := rfl

theorem State.showListen_frame (s : State) (f : Fn) : Keeps (areasMask [.reg PLAN_STAT.w]) s (s.showListen f) :=
  State.showListen_keeps _ _ .refl (by decide)

theorem State.showListen_none (h : s.Tidy) (hl : (s.plan f).listen = none) :
    (s.showListen f).fget f PLAN_STAT.LISTEN_ACT = 0 := by
  unfold State.showListen
  rw [hl]
  simp (decide := true) (maxDischargeDepth := 9) [h]

theorem State.showListen_paused (h : s.Tidy) {l : Listen} (hl : (s.plan f).listen = some l) (hp : l.paused = false) :
    (s.showListen f).fget f PLAN_STAT.LISTEN_PAUSED = 0 := by
  unfold State.showListen
  rw [hl]
  simp (decide := true) (maxDischargeDepth := 9) [h, hp]

/-- A function's LISTEN replaced. -/
theorem State.setListen_shows (h : s.Tidy) (f : Fn) (l : Option Listen) : (s.setListen f l).Tidy ∧
    (s.setListen f l).plan f = { s.plan f with listen := l } ∧ (∀ g, ((s.setListen f l).eng g).op = (s.eng g).op) ∧
    (l = none → (s.setListen f l).fget f PLAN_STAT.LISTEN_ACT = 0) ∧
    (∀ k, l = some k → k.paused = false → (s.setListen f l).fget f PLAN_STAT.LISTEN_PAUSED = 0) := by
  have hplans := s.plans_account
  have hop := s.op_account
  have ha : s.account.Tidy := (Calm.account s).tidy h
  unfold State.setListen
  generalize s.account = u at *
  have hset := u.plan_setPlan f { u.plan f with listen := l }
  have hu : (u.setPlan f { u.plan f with listen := l }).Tidy := ha
  have hplan : u.plan f = s.plan f := by rw [State.plan, hplans, ← State.plan]
  have hop' (g : Fn) : ((u.setPlan f { u.plan f with listen := l }).eng g).op = (s.eng g).op := hop g
  dsimp only
  rw [hplan] at hset hu hop' ⊢
  generalize u.setPlan f { s.plan f with listen := l } = v at *
  have hshow := v.showListen_frame f
  have hlisten : (v.plan f).listen = l := by rw [hset]
  refine ⟨hshow.tidy hu, (v.plan_showListen f f).trans hset, fun g => ?_, fun hl => ?_, fun k hl hp => ?_⟩
  · rw [State.eng, hshow.same (a := .engines) (by decide), ← State.eng, hop']
  · exact State.showListen_none hu (hlisten.trans hl)
  · exact State.showListen_paused hu (hlisten.trans hl) hp

/-- The LISTEN of LISTEN_START's arguments. -/
def listenOf (a : List Word) : Listen :=
  ⟨arg a 0 + 0x10000 * arg a 1, arg a 2, arg a 3 % 4,
    if (bearer (arg a 0 + 0x10000 * arg a 1) == 3) = true ∧ 64 ≤ arg a 4 then arg a 4 % 64 else 0x40, arg a 4 / 64, false⟩

theorem exec_listenStart {a : List Word} {start : Nat} (hop : (s.eng f).op = some ⟨0xB, a, start, none⟩)
    (herr : s.account.demandXo.listenError f (arg a 0 + 0x10000 * arg a 1) (arg a 2) (arg a 3) (arg a 4) = 0)
    (hcarry : s.account.demandXo.carries ((s.account.demandXo.bearerUa (bearer (arg a 0 + 0x10000 * arg a 1)) : ℚ) / 1000000 +
      s.account.demandXo.captAmps) (max (arg a 2) s.account.demandXo.captLeft) = true)
    (hhold : s.account.demandXo.bit FES_STAT.HOLD = false) (hrx : s.account.demandXo.fe.rx = none)
    (hnone : ∀ g, (s.account.demandXo.plan g).listen = none) :
    exec (.listenStart f) s = .next (s.account.demandXo.listenOn f (listenOf a) false) := by
  refine congrArg Host.Outcome.next ((State.withOp_of hop _).trans ?_)
  generalize s.account.demandXo = u at *
  have hjoins : u.joins (arg a 0 + 0x10000 * arg a 1)
      (if (bearer (arg a 0 + 0x10000 * arg a 1) == 3) = true ∧ 64 ≤ arg a 4 then arg a 4 % 64 else 0x40) false = false := by
    rw [State.joins, hrx]
  have hjoins' : ¬ u.joins (arg a 0 + 0x10000 * arg a 1)
      (if (bearer (arg a 0 + 0x10000 * arg a 1) == 3) = true ∧ 64 ≤ arg a 4 then arg a 4 % 64 else 0x40) false = true := by
    rw [hjoins]
    exact Bool.false_ne_true
  have hany (p : Listen → Bool) : ¬ (allFns.any (fun g => (u.plan g).listen.any p)) = true := by simp [hnone]
  have hfind : allFns.findSome? (fun g => (u.plan g).listen) = none := by simp [hnone]
  dsimp only
  rw [if_neg (by simp [herr]), if_neg (by simp [hcarry]), if_neg (by simp [hhold]), if_neg hjoins', if_neg (hany _),
    if_pos (by simp [hrx]), hfind]
  rfl

theorem State.listenOn_alone {l : Listen} (hl : l.paused = false) : s.listenOn f l false =
    (((s.setListen f (some l)).rxStart l.kfc l.sub []).rxFollow.showActs).outcome f 0 [0] := by
  simp [State.listenOn, hl]

/-- A LISTEN that starts alone: its reception runs, and its op ends. -/
theorem State.listenOn_shows (h : s.Tidy) {l : Listen} {o : Op} (hl : l.paused = false) (hop : (s.eng f).op = some o) :
    ((s.listenOn f l false).plan f).listen = some l ∧ (s.listenOn f l false).fe.rx.map Rx.kfc = some l.kfc ∧
    (s.listenOn f l false).bit MODE.LISTEN_ACT = true ∧ Ended (s.listenOn f l false) f 0 [0] := by
  obtain ⟨ht, hplan, hops, -, -⟩ := State.setListen_shows h f (some l)
  have hop1 := (hops f).trans hop
  rw [State.listenOn_alone hl]
  generalize s.setListen f (some l) = u at *
  have hstart := u.rx_rxStart l.kfc l.sub []
  have h1 := u.rxStart_keeps l.kfc l.sub [] .refl (within?_self _)
  have hplan1 : (u.rxStart l.kfc l.sub []).plan f = { s.plan f with listen := some l } := by
    rw [State.plan, h1.same (a := .plans) (by decide), ← State.plan, hplan]
  have hop2 := (h1.op_eq (by decide) f).trans hop1
  have ht1 := h1.tidy ht
  generalize u.rxStart l.kfc l.sub [] = v at *
  have hfollow := v.rxFollow_keeps .refl (within?_self _)
  have hkfc : v.rxFollow.fe.rx.map Rx.kfc = some l.kfc := by
    rw [State.kfc_rxFollow, hstart]
    rfl
  have hplan2 : v.rxFollow.plan f = { s.plan f with listen := some l } := by
    rw [State.plan, hfollow.same (a := .plans) (by decide), ← State.plan, hplan1]
  have hop3 := (hfollow.op_eq (by decide) f).trans hop2
  have ht2 := hfollow.tidy ht1
  generalize v.rxFollow = w at *
  have hacts := w.showActs_keeps .refl (within?_self _)
  have hlive : w.liveListens ≠ [] := by
    refine List.ne_nil_of_mem (List.mem_filterMap.mpr ⟨f, by cases f <;> decide, ?_⟩ : (f, l) ∈ w.liveListens)
    rw [hplan2]
    simp [hl]
  have hact : w.showActs.bit MODE.LISTEN_ACT = true := by
    rw [(State.showActs_shows ht2).2, decide_eq_true hlive, Bool.true_or]
  have hplan3 : w.showActs.plan f = { s.plan f with listen := some l } := by
    rw [State.plan, hacts.same (a := .plans) (by decide), ← State.plan, hplan2]
  have hkfc3 : w.showActs.fe.rx.map Rx.kfc = some l.kfc := by
    rw [hacts.same (a := .frontEnd) (by decide)]
    exact hkfc
  have hop4 := (hacts.op_eq (by decide) f).trans hop3
  generalize w.showActs = x at *
  have hout := x.outcome_keeps f 0 [0] .refl (within?_self _)
  refine ⟨?_, ?_, ?_, State.ended_outcome hop4 0 [0]⟩
  · rw [State.plan, hout.same (a := .plans) (by decide), ← State.plan, hplan3]
  · rw [hout.same (a := .frontEnd) (by decide)]
    exact hkfc3
  · rw [State.bit, State.get_outcome]
    exact hact

/-- The tuner loses a user that ends; a reception that nothing uses ends. -/
theorem Calm.tunerFollow : Calm s s.tunerFollow := .of_keeps (s.tunerFollow_keeps .refl (within?_self _)) (by decide)

theorem Calm.showActs : Calm s s.showActs := .of_keeps (s.showActs_keeps .refl (within?_self _)) (by decide)

/-- What the end of a LISTEN changes beside the LISTEN itself. -/
def listenEndAreas : List Area :=
  [.counters, .mode, .engines, .frontEnd, .fm, .dab, .lf, .datacast, .reg INT_STAT0.w, .reg DQ_LOST.w, .reg WAKE_HREASON.w,
    .reg SCHED_CNT_MISSED.w, .reg CLK_STAT.w, .reg MODE.w, .page 0x0B, .page 0x0C, .page 0x0E, .page 0x0F, .page 0x10, .page 0x12]

/-- A LISTEN that has ended. -/
theorem State.endListen_shows (h : s.Tidy) (f : Fn) (cause : Nat) : (s.endListen f cause).Tidy ∧
    ((s.endListen f cause).plan f).listen = none ∧ (∀ g, ((s.endListen f cause).eng g).op = (s.eng g).op) ∧
    ((s.plan f).listen.isSome = true → (s.endListen f cause).fget f PLAN_STAT.LISTEN_ACT = 0) := by
  unfold State.endListen
  split
  · obtain ⟨ht, hplan, hop, hact, -⟩ := State.setListen_shows h f none
    generalize s.setListen f none = u at *
    have hcalm : Calm u ((u.listenEvent f 7 cause).tunerFollow.showActs) :=
      ((Calm.planEvent _ _ _ _).trans .tunerFollow).trans .showActs
    have hkeep : Keeps (areasMask listenEndAreas) u ((u.listenEvent f 7 cause).tunerFollow.showActs) :=
      State.showActs_keeps _ (State.tunerFollow_keeps _ (u.listenEvent_keeps f 7 cause .refl (by decide)) (by decide))
        (by decide)
    refine ⟨hcalm.tidy ht, ?_, fun g => (hcalm.op g).trans (hop g), fun _ => (hkeep.fget_eq (by decide)).trans (hact rfl)⟩
    rw [hcalm.plan, hplan]
  · next hno =>
    have hl : (s.plan f).listen = none := by simpa using hno
    exact ⟨h, hl, fun _ => rfl, fun hs => absurd hs hno⟩

theorem exec_listenStop {a : List Word} {start : Nat} (hop : (s.eng f).op = some ⟨0xC, a, start, none⟩) :
    exec (.listenStop f) s = .next (((s.endListen f 0).settle).outcome f 0 []) :=
  congrArg Host.Outcome.next (State.withOp_of hop _)

theorem exec_listenMaxDuration (s : State) : exec (.listenMaxDuration f) s = .next (s.endListen f 1).settle := rfl

theorem exec_listenResumed {l : Listen} (hl : (s.plan f).listen = some l) (hp : l.paused = true)
    (hhold : s.bit FES_STAT.HOLD = false) (hrx : s.fe.rx = none) :
    exec (.listenResumed f) s = .next ((s.resumeListen f).rxFollow) := by
  change execListenResumed f s = _
  rw [execListenResumed, hl]
  dsimp only
  rw [if_pos ⟨hp, by simp [hhold], .inl (by simp [hrx])⟩]

theorem State.resumeListen_of {l : Listen} (hl : (s.plan f).listen = some l) (hp : l.paused = true) : s.resumeListen f =
    (if ((s.setListen f (some { l with paused := false })).listenEvent f 6 0).fe.rx.isNone = true then
      ((s.setListen f (some { l with paused := false })).listenEvent f 6 0).rxStart l.kfc l.sub [l.addr]
    else (s.setListen f (some { l with paused := false })).listenEvent f 6 0).showActs := by
  rw [State.resumeListen, hl]
  exact if_pos hp

theorem State.resumeListen_shows (h : s.Tidy) {l : Listen} (hl : (s.plan f).listen = some l) (hp : l.paused = true)
    (hrx : s.fe.rx = none) : ((s.resumeListen f).plan f).listen = some { l with paused := false } ∧
    (s.resumeListen f).fe.rx.map Rx.kfc = some l.kfc ∧ (s.resumeListen f).fget f PLAN_STAT.LISTEN_PAUSED = 0 := by
  obtain ⟨ht, hplan, -, -, hpaused⟩ := State.setListen_shows h f (some { l with paused := false })
  have hpaused := hpaused _ rfl rfl
  have hset := s.setListen_keeps f (some { l with paused := false }) .refl (within?_self _)
  rw [State.resumeListen_of hl hp]
  have hfe : (s.setListen f (some { l with paused := false })).fe.rx = none := by
    rw [hset.same (a := .frontEnd) (by decide)]
    exact hrx
  generalize s.setListen f (some { l with paused := false }) = u at *
  have hevent := u.listenEvent_keeps f 6 0 .refl (within?_self _)
  have hfe' : (u.listenEvent f 6 0).fe.rx = none := by
    rw [hevent.same (a := .frontEnd) (by decide)]
    exact hfe
  rw [if_pos (by simp [hfe'])]
  have hplan' : (u.listenEvent f 6 0).plan f = u.plan f := (Calm.planEvent _ _ _ _).plan f
  have hpaused' : (u.listenEvent f 6 0).fget f PLAN_STAT.LISTEN_PAUSED = 0 := (hevent.fget_eq (by decide)).trans hpaused
  generalize u.listenEvent f 6 0 = v at *
  have hstart := v.rxStart_keeps l.kfc l.sub [l.addr] .refl (within?_self _)
  have hrx' := v.rx_rxStart l.kfc l.sub [l.addr]
  have hplan'' : (v.rxStart l.kfc l.sub [l.addr]).plan f = u.plan f := by
    rw [State.plan, hstart.same (a := .plans) (by decide), ← State.plan, hplan']
  have hpaused'' : (v.rxStart l.kfc l.sub [l.addr]).fget f PLAN_STAT.LISTEN_PAUSED = 0 :=
    (hstart.fget_eq (by decide)).trans hpaused'
  generalize v.rxStart l.kfc l.sub [l.addr] = w at *
  have hacts := w.showActs_keeps .refl (within?_self _)
  refine ⟨?_, ?_, (hacts.fget_eq (by decide)).trans hpaused''⟩
  · rw [Calm.showActs.plan, hplan'', hplan]
  · rw [hacts.same (a := .frontEnd) (by decide)]
    exact congrArg (Option.map Rx.kfc) hrx'

/-! ### CAPTURE_NOW -/

/-- The capture of CAPTURE_NOW's arguments. -/
def State.nowJob (s : State) (f : Fn) (a : List Word) (start : Nat) : Job :=
  ⟨[f], true, arg a 0 % 0x100, arg a 0 / 0x100, arg a 3 % 0x100, arg a 3 / 0x100, arg a 2, start + s.captLead,
    (arg a 1 * oneSec + 9) / 10, 0⟩

theorem exec_captureNow {a : List Word} {start : Nat} (hop : (s.eng f).op = some ⟨8, a, start, none⟩)
    (hruns : s.runsPlans = true) (hparams : captParams (arg a 0 % 0x100) (arg a 0 / 0x100) (arg a 3 % 0x100) = none)
    (hdur : arg a 1 ≠ 0) (hjob : s.capt.job = none) (hdue : s.capt.due = []) (hplain : arg a 0 / 0x100 % 2 = 0)
    (hfits : s.captFits false (arg a 2) (arg a 1) = true) : ∃ res, exec (.captureNow f) s =
      .next ((s.demandXo.captBegin (s.nowJob f a start) []).outcome f 0 res) := by
  have hflag : (arg a 0 / 0x100 % 2 == 1) = false := by simp [hplain]
  have hno : ¬ (s.capt.job.isSome = true ∨ s.capt.due ≠ []) := by simp [hjob, hdue]
  refine ⟨(s.demandXo.captBegin (s.nowJob f a start) []).reg CAPT_ID.w.key :: lowHigh ((start + s.captLead) % 2 ^ 32), ?_⟩
  change execCaptureNow f s = _
  rw [execCaptureNow, hop]
  dsimp only
  rw [State.withOp_of hop, if_neg (by simp [hruns]), if_neg (by simp [hparams, hdur]), if_neg hno, if_neg (by omega), hflag, if_neg (by simp [hfits])]
  rfl

/-- The biphase receiver unlocked leaves the capture running. -/
theorem State.job_bphUnlock (s : State) (hnew : s.capt.new = none) : s.bphUnlock.capt.job = s.capt.job := by
  have hcut (t : State) : t.cutSnippet.capt.job = t.capt.job := by
    unfold State.cutSnippet
    split
    · split <;> rfl
    · rfl
  unfold State.bphUnlock
  extract_lets _ u
  have hblock : u.writeBlock = u := by
    have hnew' : u.capt.new = none := hnew
    unfold State.writeBlock
    rw [hnew']
    split
    · next h => exact absurd h.symm (Option.some_ne_none _)
    · rfl
  split
  · next j hj =>
    have hjob : u.capt.job = s.capt.job := rfl
    split
    · change u.writeBlock.cutSnippet.capt.job = _
      rw [hblock]
      exact (hcut u).trans hjob
    · exact hjob
  · rfl

/-- The capture is entered as the one that runs. -/
def State.captEntered (s : State) (j : Job) (rest : List Job) : State :=
  let s := s.account.incWrap CAPT_ID.w
  let j : Job := { j with id := s.get CAPT_ID.w }
  { s with capt := { s.capt with
      due := rest, job := some j, input := none, new := none, count := 0, disc := false, gap := none, acc := [],
      snip := if j.snippet then some ⟨0, [], false, false⟩ else none } }

/-- Its status is shown. -/
def State.captShown (s : State) (j : Job) : State :=
  (((s.put CAPT_STAT.RUN 1).putBit CAPT_STAT.ANALYSIS j.analysis).put CAPT_STAT.SOURCE (j.b26 % 4)).putBit CAPT_STAT.SHARED
    (1 < j.owners.length)

/-- The receivers start anew. -/
def State.captCleared (s : State) : State :=
  let s := if s.bit BPH_STAT.LOCK then s else s.bphUnlock
  let clear (p : AudioPort) (s : State) : State := s.setPort p { s.port p with late := false, barred := false }
  clear .bph (clear .ap1 (clear .ap0 s))

theorem State.captBegin_eq (s : State) (j : Job) (rest : List Job) : s.captBegin j rest =
    ((((((s.captEntered j rest).captShown j).captCleared).put32 CAPT_FIDX_L.w 0)).setAct MODE.CAPTURE_ACT true).showFree := rfl

theorem State.captEntered_shows (h : s.Tidy) (j : Job) (rest : List Job) : (s.captEntered j rest).Tidy ∧
    (s.captEntered j rest).capt.job = some { j with id := (s.captEntered j rest).get CAPT_ID.w } ∧
    (s.captEntered j rest).capt.new = none ∧ (s.captEntered j rest).get CAPT_ID.w = (s.get CAPT_ID.w + 1) % 0x10000 := by
  have ha : s.account.Tidy := (Calm.account s).tidy h
  have hid : s.account.get CAPT_ID.w = s.get CAPT_ID.w := (s.account_keeps .refl (within?_self _)).get_eq (by decide)
  unfold State.captEntered State.incWrap
  rw [hid]
  generalize s.account = u at *
  have hput : (u.put CAPT_ID.w (s.get CAPT_ID.w + 1)).get CAPT_ID.w = (s.get CAPT_ID.w + 1) % CAPT_ID.w.size :=
    State.get_put_self ha (by decide)
  have hsize : CAPT_ID.w.size = 0x10000 := rfl
  rw [hsize] at hput
  have hv : (u.put CAPT_ID.w (s.get CAPT_ID.w + 1)).Tidy := State.tidy_put ha
  generalize u.put CAPT_ID.w (s.get CAPT_ID.w + 1) = v at *
  exact ⟨hv, rfl, rfl, hput⟩

theorem State.captCleared_shows (hnew : s.capt.new = none) : s.captCleared.capt.job = s.capt.job := by
  unfold State.captCleared
  dsimp only
  have hport (t : State) (p : AudioPort) (e : Port) : (t.setPort p e).capt = t.capt := by cases p <;> rfl
  rw [hport, hport, hport]
  split
  · rfl
  · exact s.job_bphUnlock hnew

theorem State.captCleared_frame (s : State) : Keeps (areasMask [.counters, .memory, .mode, .engines, .biphase, .capture, .ports,
    .reg INT_STAT0.w, .reg DQ_LOST.w, .reg WAKE_HREASON.w, .page 0x13, .page 0x14, .reg CAPT_WPTR.w, .reg CAPT_RPTR.w,
    .reg CAPT_FREE.w]) s s.captCleared := by
  unfold State.captCleared
  dsimp only
  exact State.setPort_keeps _ _ _ (State.setPort_keeps _ _ _ (State.setPort_keeps _ _ _
    (.ite .refl (State.bphUnlock_keeps _ .refl (by decide))) (by decide)) (by decide)) (by decide)

/-- The capture runs, with its id. -/
theorem State.captBegin_shows (h : s.Tidy) (j : Job) (rest : List Job) :
    (s.captBegin j rest).capt.job = some { j with id := (s.captBegin j rest).get CAPT_ID.w } ∧
    (s.captBegin j rest).bit CAPT_STAT.RUN = true ∧ (s.captBegin j rest).bit MODE.CAPTURE_ACT = true ∧
    (s.captBegin j rest).get CAPT_ID.w = (s.get CAPT_ID.w + 1) % 0x10000 := by
  obtain ⟨ht, hjob, hnew, hid⟩ := State.captEntered_shows h j rest
  rw [State.captBegin_eq, ← hid]
  generalize s.captEntered j rest = u at *
  have hshown : Keeps (areasMask [.reg CAPT_STAT.w]) u (u.captShown j) := by
    unfold State.captShown
    exact State.putBit_keeps _ _ _ (State.put_keeps _ _ _ (State.putBit_keeps _ _ _ (State.put_keeps _ _ _ .refl (by decide))
      (by decide)) (by decide)) (by decide)
  have hrun : (u.captShown j).get CAPT_STAT.RUN = 1 := by
    simp (decide := true) (maxDischargeDepth := 9) [State.captShown, State.putBit, ht]
  have hcapt : (u.captShown j).capt = u.capt := hshown.same (a := .capture) (by decide)
  rw [← hcapt] at hjob hnew
  rw [← hshown.get_eq (x := CAPT_ID.w) (by decide)] at hjob ⊢
  have ht1 := hshown.tidy ht
  generalize u.captShown j = v at *
  have hclear := v.captCleared_frame
  have hjob' : v.captCleared.capt.job = some { j with id := v.captCleared.get CAPT_ID.w } := by
    rw [State.captCleared_shows hnew, hjob, hclear.get_eq (x := CAPT_ID.w) (by decide)]
  have hrun' : v.captCleared.get CAPT_STAT.RUN = 1 := (hclear.get_eq (by decide)).trans hrun
  rw [← hclear.get_eq (x := CAPT_ID.w) (by decide)]
  have ht2 := hclear.tidy ht1
  generalize v.captCleared = w at *
  have ht3 : (w.put32 CAPT_FIDX_L.w 0).Tidy := State.tidy_put (State.tidy_put ht2)
  have hact : ((w.put32 CAPT_FIDX_L.w 0).setAct MODE.CAPTURE_ACT true).bit MODE.CAPTURE_ACT = true :=
    State.bit_setAct ht3 (by decide) (by decide) (by decide) (by decide)
  have hset : Keeps (areasMask [.reg MODE.w, .reg CAPT_FIDX_L.w, .reg CAPT_FIDX_H.w]) w
      ((w.put32 CAPT_FIDX_L.w 0).setAct MODE.CAPTURE_ACT true) :=
    State.setAct_keeps _ _ _ (State.put32_keeps _ _ _ .refl (by decide) (by decide)) (by decide) (by decide)
  have hfree := State.showFree_keeps ((w.put32 CAPT_FIDX_L.w 0).setAct MODE.CAPTURE_ACT true) .refl (within?_self _)
  refine ⟨?_, ?_, ?_, ?_⟩
  · rw [hfree.same (a := .capture) (by decide), hset.same (a := .capture) (by decide), hfree.get_eq (x := CAPT_ID.w) (by decide),
      hset.get_eq (x := CAPT_ID.w) (by decide)]
    exact hjob'
  · rw [State.bit, hfree.get_eq (by decide), hset.get_eq (by decide), hrun']
    rfl
  · rw [State.bit, hfree.get_eq (by decide), ← State.bit, hact]
  · rw [hfree.get_eq (by decide), hset.get_eq (by decide)]

/-! ### The spill -/

/-- No spill is due any more. -/
def State.spillOver (s : State) : State :=
  ({ s with capt := { s.capt with spillDue := false } } : State).put CAPT_STAT.SPILLING 0

theorem State.spillOver_shows (h : s.Tidy) : s.spillOver.capt.spillDue = false ∧ s.spillOver.get CAPT_STAT.SPILLING = 0 := by
  have hu : ({ s with capt := { s.capt with spillDue := false } } : State).Tidy := h
  exact ⟨rfl, State.get_put_self hu (by decide)⟩

/-- The spill of a capture has been written. -/
def State.spilled (s : State) (p : Past) : State := (s.spillTo p.job (p.job.owners.headD .f0)).spillOver

theorem exec_spill {p : Past} (hpast : s.capt.past = some p) (hdue : s.capt.spillDue = true) (hidle : s.img.staging = false) :
    exec .spill s = .next (s.spilled p).showMaintain := by
  change execSpill s = _
  rw [execSpill, hpast]
  dsimp only
  rw [if_pos ⟨hdue, by simp [hidle]⟩]
  rfl

theorem State.spilled_shows (h : s.Tidy) (p : Past) : (s.spilled p).capt.spillDue = false ∧
    (s.spilled p).get CAPT_STAT.SPILLING = 0 :=
  State.spillOver_shows ((State.spillTo_keeps _ _ _ .refl (within?_self _)).tidy h)

/-- The row of `CAPT_CMD`: one command bit. -/
def captCmdDef : RegDef := ⟨0x1692, 0, 0, 0, 1, 0⟩

theorem regDef_captCmd : regDef? CAPT_CMD.w.key = some captCmdDef := by decide

theorem legalWord_captCmd (f : Fn) (w : Word) : legalWord f CAPT_CMD.w.key w = true := by
  rw [legalWord_of_unranged (by decide), extraLegal]
  simp (decide := true) only [if_false]

theorem exec_spillDel (h : Serves s f (keyPage CAPT_CMD.w.key)) : exec (.spillDel f) s = .next (s.regAccess.spillDel f) := by
  have hwrite : s.cmdWrite f CAPT_CMD.w 1 = s.regAccess.spillDel f := by
    rw [State.cmdWrite_page_legal regDef_captCmd (by decide) (by decide) rfl (by decide) (legalWord_captCmd f 1) h]
    rfl
  rw [← hwrite]
  rfl

/-- The capture store of a function is gone. -/
def State.unspill (s : State) (f : Fn) : State :=
  { s with capt := { s.capt with stores := s.capt.stores.filter (fun e => e.1 != f) } }

theorem State.spillDel_eq (s : State) (f : Fn) : s.spillDel f = (s.unspill f).showEdf := rfl

theorem State.stores_unspill (s : State) (f : Fn) : ∀ e ∈ (s.unspill f).capt.stores, e.1 ≠ f := fun _ he =>
  bne_iff_ne.mp (List.mem_filter.mp he).2

theorem State.spillDel_shows (s : State) (f : Fn) : ∀ e ∈ (s.spillDel f).capt.stores, e.1 ≠ f := by
  rw [State.spillDel_eq, (State.showEdf_keeps _ .refl (within?_self _)).same (a := .capture) (by decide)]
  exact s.stores_unspill f

/-- Settles O19: each command by the lemma that gives its next state; an occurrence's end by the quiet steps it is made of. -/
theorem occurrenceAndListenCommandsComplete : Obligations.OccurrenceAndListenCommandsComplete := by
  unfold Obligations.OccurrenceAndListenCommandsComplete
  refine ⟨slotStart_completes, fun f idx r w s hc ⟨hrun, hend⟩ => ?_, fun f idx r w s hc ⟨hrun, hend, hone, hlis⟩ => ?_,
    fun f a start u s hc ⟨hop, hu, herr, hcarry, hhold, hrx, hnone⟩ => ?_, fun f a start s hc hop => ?_, fun f s hc hl => ?_,
    fun f l s hc ⟨hl, hp, hhold, hrx⟩ => ?_, fun f a start s hc ⟨hop, hruns, hparams, hdur, hjob, hdue, hplain, hfits⟩ => ?_,
    fun p s hc ⟨hpast, hdue, hidle⟩ => ?_, fun f s hc hserves => ⟨_, exec_spillDel hserves, State.spillDel_shows _ f⟩⟩
  · obtain ⟨hno, huse, -⟩ := State.slotEnd_shows (List.mem_of_find?_eq_some hrun) f
    exact ⟨_, exec_slotEnd hrun hend, hno, huse⟩
  · refine ⟨_, exec_slotEnd hrun hend, ?_⟩
    have hfn : r.fn = f := by
      have hfound := List.find?_some hrun
      simp only [Bool.and_eq_true, beq_iff_eq] at hfound
      exact hfound.1
    obtain ⟨-, -, hday⟩ := State.slotEnd_shows (List.mem_of_find?_eq_some hrun) f
    have htold := s.endTold_frame r w
    have hsched : (s.endTold r w).sched = s.sched := htold.same (a := .sched) (by decide)
    have hplans : (s.endTold r w).plans = s.plans := htold.same (a := .plans) (by decide)
    have hktime : (s.endTold r w).ktime = s.ktime := htold.same (a := .ktime) (by decide)
    have hbefore : ((s.endTold r w).eng r.fn).dayT = (s.eng r.fn).dayT :=
      (Calm.endTold r w).dayT_of_useAt (by rw [hsched]) r.fn
    rw [State.dayT_account_one ((State.tunerRuns_congr (by rw [hsched]) hplans).trans hone)
      ((State.liveListens_congr hplans).trans hlis), hbefore, hsched, hktime, hfn] at hday
    exact hday
  · subst hu
    have hk : Keeps (areasMask [.mode, .engines, .sched, .openValues, .reg DAY_USE_E.w, .reg DAY_USE_T.w]) s s.account.demandXo :=
      State.demandXo_keeps _ (State.account_keeps _ .refl (by decide)) (by decide)
    have hhold' : s.account.demandXo.bit FES_STAT.HOLD = false := by rw [State.bit, hk.get_eq (by decide), ← State.bit, hhold]
    have hrx' : s.account.demandXo.fe.rx = none := by rw [hk.same (a := .frontEnd) (by decide), hrx]
    have hnone' (g : Fn) : (s.account.demandXo.plan g).listen = none := by
      rw [State.plan, hk.same (a := .plans) (by decide), ← State.plan, hnone]
    have hop' : (s.account.demandXo.eng f).op = some ⟨0xB, a, start, none⟩ := by
      rw [(s.account.demandXo_keeps .refl (within?_self _)).op_eq (by decide), s.op_account, hop]
    obtain ⟨hlis, hkfc, hact, hended⟩ := State.listenOn_shows (hk.tidy hc) (l := listenOf a) rfl hop'
    exact ⟨_, exec_listenStart hop herr hcarry hhold' hrx' hnone', congrArg (Option.map Listen.kfc) hlis, hkfc, hact, hended⟩
  · refine ⟨_, exec_listenStop hop, ?_⟩
    obtain ⟨ht, hl, hops, -⟩ := State.endListen_shows hc.tidy f 0
    have hop' := ((Calm.settle (s := s.endListen f 0)).op f).trans ((hops f).trans hop)
    have hl' : ((s.endListen f 0).settle.plan f).listen = none := by rw [Calm.settle.plan, hl]
    generalize (s.endListen f 0).settle = u at *
    refine ⟨?_, State.ended_outcome hop' 0 []⟩
    rw [State.plan, (u.outcome_keeps f 0 [] .refl (within?_self _)).same (a := .plans) (by decide), ← State.plan, hl']
  · refine ⟨_, exec_listenMaxDuration s, ?_⟩
    obtain ⟨ht, hnone, -, hact⟩ := State.endListen_shows hc.tidy f 1
    refine ⟨by rw [Calm.settle.plan, hnone], ?_⟩
    exact ((State.settle_keeps _ .refl (within?_self _)).fget_eq (by decide)).trans (hact hl)
  · refine ⟨_, exec_listenResumed hl hp hhold hrx, ?_⟩
    obtain ⟨hlis, hkfc, hpaused⟩ := State.resumeListen_shows hc.tidy hl hp hrx
    generalize s.resumeListen f = u at *
    have hk := u.rxFollow_keeps .refl (within?_self _)
    refine ⟨?_, (State.kfc_rxFollow u).trans hkfc, (hk.fget_eq (by decide)).trans hpaused⟩
    rw [State.plan, hk.same (a := .plans) (by decide), ← State.plan, hlis]
  · obtain ⟨res, hexec⟩ := exec_captureNow hop hruns hparams hdur hjob hdue hplain hfits
    refine ⟨_, hexec, ?_⟩
    have hxo := s.demandXo_keeps .refl (within?_self _)
    obtain ⟨hjob', hrun, hact, hid⟩ := State.captBegin_shows (hxo.tidy hc) (s.nowJob f a start) []
    rw [hxo.get_eq (x := CAPT_ID.w) (by decide)] at hid
    generalize s.demandXo.captBegin (s.nowJob f a start) [] = u at *
    have hcapt : (u.outcome f 0 res).capt = u.capt :=
      (u.outcome_keeps f 0 res .refl (within?_self _)).same (a := .capture) (by decide)
    have hbit (x : Fld) : (u.outcome f 0 res).bit x = u.bit x := by rw [State.bit, State.get_outcome, ← State.bit]
    dsimp only
    rw [hbit, hbit, State.get_outcome, hcapt]
    exact ⟨hjob', hrun, hact, hid⟩
  · refine ⟨_, exec_spill hpast hdue hidle, ?_⟩
    obtain ⟨hdone, hspilling⟩ := State.spilled_shows hc.tidy p
    generalize s.spilled p = u at *
    have hk := u.showMaintain_keeps .refl (within?_self _)
    have hcapt : u.showMaintain.capt = u.capt := hk.same (a := .capture) (by decide)
    rw [hcapt, State.bit, hk.get_eq (by decide), hspilling]
    exact ⟨hdone, rfl⟩

end Sys2Proof.Machine
end

section
/-! PROOFS. Calibrations and the submersion inference (O21). -/

namespace Sys2Proof.Machine

open R

variable {s t u : State} {f : Fn}

theorem bit_eq_of_get {x : Fld} {n : Nat} (h : s.get x = n) : s.bit x = (n == 1) := by rw [State.bit, h]

theorem State.bit_of_get_eq {x : Fld} (h : t.get x = s.get x) : t.bit x = s.bit x := by rw [State.bit, h, ← State.bit]

/-! ### The start of a run -/

/-- What a calibration's start changes. -/
theorem State.calStart_shows (h : s.Tidy) (mask : Nat) (op : Bool) : (s.calStart mask op).fe.cal = some (mask, op) ∧
    (s.calStart mask op).bit CAL_STAT.RUNNING = true ∧ (s.calStart mask op).bit MODE.MAINTAIN_ACT = true ∧
    (s.calStart mask op).get CAL_STAT.AUTO_PEND = s.get CAL_STAT.AUTO_PEND := by
  have hrun : (s.put CAL_STAT.RUNNING 1).get CAL_STAT.RUNNING = 1 := State.get_put_self h (by decide)
  have hpend : (s.put CAL_STAT.RUNNING 1).get CAL_STAT.AUTO_PEND = s.get CAL_STAT.AUTO_PEND :=
    State.get_put_other h (by decide) (by decide) (by decide)
  have h1 : (s.put CAL_STAT.RUNNING 1).Tidy := State.tidy_put h
  unfold State.calStart
  dsimp only
  generalize s.put CAL_STAT.RUNNING 1 = u at *
  have hcal : ({ u with fe := { u.fe with cal := some (mask, op) } } : State).fe.cal = some (mask, op) := rfl
  have h2 : ({ u with fe := { u.fe with cal := some (mask, op) } } : State).Tidy := h1
  have hrun2 : ({ u with fe := { u.fe with cal := some (mask, op) } } : State).get CAL_STAT.RUNNING = 1 := hrun
  have hpend2 : ({ u with fe := { u.fe with cal := some (mask, op) } } : State).get CAL_STAT.AUTO_PEND =
    s.get CAL_STAT.AUTO_PEND := hpend
  generalize ({ u with fe := { u.fe with cal := some (mask, op) } } : State) = v at *
  have hpath := v.calPath_keeps .refl (within?_self _)
  have hcal3 : v.calPath.fe.cal = some (mask, op) := by rw [hpath.same (a := .frontEnd) (by decide), hcal]
  have hrun3 : v.calPath.get CAL_STAT.RUNNING = 1 := (hpath.get_eq (by decide)).trans hrun2
  have hpend3 : v.calPath.get CAL_STAT.AUTO_PEND = s.get CAL_STAT.AUTO_PEND := (hpath.get_eq (by decide)).trans hpend2
  have h3 := hpath.tidy h2
  generalize v.calPath = w at *
  have hact : w.showMaintain.bit MODE.MAINTAIN_ACT = w.maintains :=
    State.bit_setAct h3 (by decide) (by decide) (by decide) (by decide)
  have hk := w.showMaintain_keeps .refl (within?_self _)
  refine ⟨?_, ?_, ?_, (hk.get_eq (by decide)).trans hpend3⟩
  · rw [hk.same (a := .frontEnd) (by decide), hcal3]
  · exact bit_eq_of_get ((hk.get_eq (by decide)).trans hrun3)
  · rw [hact, State.maintains, hcal3]
    rfl

theorem exec_calRun {a : List Word} {start : Nat} (hop : (s.eng f).op = some ⟨3, a, start, none⟩) (hruns : s.runsPlans = true)
    (hfree : s.calBlocked = false) :
    exec (.calRun f) s = .next (s.calStart (if arg a 0 % 0x80 = 0 then 0x7F else arg a 0 % 0x80) true) := by
  have hcal : s.fe.cal = none := by
    simp only [State.calBlocked, Bool.or_eq_false_iff] at hfree
    exact Option.isSome_eq_false_iff.mp hfree.1.2 |> Option.isNone_iff_eq_none.mp
  refine congrArg Host.Outcome.next ((State.withOp_of hop _).trans ?_)
  rw [if_neg (by simp [hcal]), if_neg (by simp [hruns]), if_neg (by simp [hfree])]

theorem exec_autoPend {c : Int} {at0 : Nat} (hrec : s.fe.calRec = some (c, at0)) (hen : s.bit CAL_CFG.AUTO_EN = true)
    (hold : at0 + 30 * 86400 ≤ s.sec) : exec .autoPend s = .next (s.put CAL_STAT.AUTO_PEND 1).showCalAge := by
  change execAutoPend s = _
  rw [execAutoPend, hrec]
  dsimp only
  rw [if_pos ⟨hen, .inl hold⟩]

theorem exec_autoCalStart (s : State) (h : s.bit CAL_STAT.AUTO_PEND = true ∧ s.calBlocked = false ∧ s.awake = true ∧
    s.runsPlans = true) : exec .autoCalStart s = .next ((s.put CAL_STAT.AUTO_PEND 0).calStart 0x7F false) :=
  congrArg Host.Outcome.next (if_pos (by simpa using h))

/-! ### The end of a run -/

/-- The masks, the time and the temperature of a run that ends. -/
def State.calMarked (s : State) (mask good ms : Nat) (temp : Int) : State :=
  let s := ((s.put CAL_STAT.RUNNING 0).put CAL_STAT.FAIL (mask - (mask &&& good))).put CAL_DONE_MASK.w (mask &&& good)
  ((s.putSat CAL_LAST_MS.w ms).inc CAL_CNT.w).put CAL_TEMP.w (code16 temp)

/-- The band table that a good calibration of the VCO leaves. -/
def State.calBanded (s : State) (passed margin : Nat) (bands : List Nat) : State :=
  let s := if passed % 2 = 1 then
      ({ s with fe := { s.fe with bands := (bands.take 5).map (· % 64) } } : State).put CAL_VCO_MARGIN.w margin else s
  { s with fe := { s.fe with cal := none, calGood := s.fe.calGood ||| passed } }

/-- The record that a full and good run leaves. -/
def State.calRecorded (s : State) (mask passed : Nat) (temp : Int) : State :=
  if mask = 0x7F ∧ mask - passed = 0 then
    let s : State := { s with fe := { s.fe with calRec := some (temp, s.sec) } }
    (((s.put CAL_STAT.REC_VALID 1).put CAL_REC_TEMP.w (code16 temp)).put CAL_STAT.AUTO_PEND 0).showCalAge
  else s

/-- The end is told, and the op that asked for the run ends. -/
def State.calTold (s : State) (op : Bool) (res : List Word) : State :=
  let s := ((s.raise1 jCAL_DONE).showMaintain).chargeOpen .f0
  if op then
    match allFns.find? (fun f => (s.eng f).op.any (fun o => o.code == 3)) with
    | some f => s.outcome f 0 res
    | none => s
  else s

theorem State.calEnd_eq (s : State) (mask : Nat) (op : Bool) (good margin ms : Nat) (temp : Int) (bands : List Nat) :
    s.calEnd mask op good margin ms temp bands =
      (((((s.calMarked mask good ms temp).calBanded (mask &&& good) margin bands).pathOff).calRecorded mask (mask &&& good) temp).calTold
        op [BitVec.ofNat 16 (mask &&& good), BitVec.ofNat 16 (mask - (mask &&& good)), BitVec.ofInt 16 temp,
          BitVec.ofNat 16 ms]).holdDue := rfl

theorem code16_mod (i : Int) : code16 i % 0x10000 = code16 i := Nat.mod_eq_of_lt (code16_lt i)

theorem State.calMarked_shows (h : s.Tidy) {mask : Nat} (hmask : mask < 0x80) (good ms : Nat) (temp : Int) :
    (s.calMarked mask good ms temp).Tidy ∧ (s.calMarked mask good ms temp).get CAL_STAT.RUNNING = 0 ∧
    (s.calMarked mask good ms temp).get CAL_DONE_MASK.w = mask &&& good ∧
    (s.calMarked mask good ms temp).get CAL_STAT.FAIL = mask - (mask &&& good) ∧
    (s.calMarked mask good ms temp).get CAL_TEMP.w = code16 temp := by
  have hpassed : mask &&& good ≤ mask := Nat.and_le_left
  have hdone : (mask &&& good) % 0x10000 = mask &&& good := Nat.mod_eq_of_lt (by omega)
  have hfail : (mask - (mask &&& good)) % 0x80 = mask - (mask &&& good) := Nat.mod_eq_of_lt (by omega)
  unfold State.calMarked
  generalize mask &&& good = passed at *
  refine ⟨?_, ?_, ?_, ?_, ?_⟩
  · simp (maxDischargeDepth := 12) [State.putSat, State.inc, h]
  · simp (decide := true) (maxDischargeDepth := 12) [State.putSat, State.inc, h]
  · simp (decide := true) (maxDischargeDepth := 12) [State.putSat, State.inc, h]
    exact hdone
  · simp (decide := true) (maxDischargeDepth := 12) [State.putSat, State.inc, h]
    exact hfail
  · simp (decide := true) (maxDischargeDepth := 12) [State.putSat, State.inc, h]
    exact code16_mod temp

theorem State.calBanded_shows (h : s.Tidy) (passed margin : Nat) (bands : List Nat) :
    (s.calBanded passed margin bands).Tidy ∧ (s.calBanded passed margin bands).fe.cal = none ∧
    (s.calBanded passed margin bands).fe.holdWait = s.fe.holdWait ∧
    (passed % 2 = 1 → (s.calBanded passed margin bands).fe.bands = (bands.take 5).map (· % 64)) ∧
    (∀ x : Fld, x.key ≠ CAL_VCO_MARGIN.w.key → (s.calBanded passed margin bands).get x = s.get x) := by
  unfold State.calBanded
  by_cases hgood : passed % 2 = 1
  · rw [if_pos hgood]
    have hu : ({ s with fe := { s.fe with bands := (bands.take 5).map (· % 64) } } : State).Tidy := h
    exact ⟨State.tidy_put hu, rfl, rfl, fun _ => rfl, fun x hx => State.get_put_ne _ margin hx⟩
  · rw [if_neg hgood]
    exact ⟨h, rfl, rfl, fun hg => absurd hg hgood, fun _ _ => rfl⟩

theorem State.calRecorded_shows (h : s.Tidy) (mask passed : Nat) (temp : Int) : (s.calRecorded mask passed temp).Tidy ∧
    (s.calRecorded mask passed temp).fe.cal = s.fe.cal ∧ (s.calRecorded mask passed temp).fe.holdWait = s.fe.holdWait ∧
    (s.calRecorded mask passed temp).fe.bands = s.fe.bands ∧
    (s.calRecorded mask passed temp).get CAL_STAT.RUNNING = s.get CAL_STAT.RUNNING ∧
    (s.calRecorded mask passed temp).get CAL_STAT.FAIL = s.get CAL_STAT.FAIL ∧
    (∀ x : Fld, x.key ≠ CAL_STAT.w.key → x.key ≠ CAL_REC_TEMP.w.key → x.key ≠ CAL_REC_AGE.w.key →
      (s.calRecorded mask passed temp).get x = s.get x) := by
  unfold State.calRecorded
  split
  · have hu : ({ s with fe := { s.fe with calRec := some (temp, s.sec) } } : State).Tidy := h
    have hget (x : Fld) : ({ s with fe := { s.fe with calRec := some (temp, s.sec) } } : State).get x = s.get x := rfl
    have hcal : ({ s with fe := { s.fe with calRec := some (temp, s.sec) } } : State).fe.cal = s.fe.cal := rfl
    have hwait : ({ s with fe := { s.fe with calRec := some (temp, s.sec) } } : State).fe.holdWait = s.fe.holdWait := rfl
    have hbands : ({ s with fe := { s.fe with calRec := some (temp, s.sec) } } : State).fe.bands = s.fe.bands := rfl
    dsimp only
    generalize ({ s with fe := { s.fe with calRec := some (temp, s.sec) } } : State) = u at *
    have hage := State.showCalAge_keeps (((u.put CAL_STAT.REC_VALID 1).put CAL_REC_TEMP.w (code16 temp)).put CAL_STAT.AUTO_PEND 0)
      .refl (within?_self _)
    have hv : (((u.put CAL_STAT.REC_VALID 1).put CAL_REC_TEMP.w (code16 temp)).put CAL_STAT.AUTO_PEND 0).Tidy :=
      State.tidy_put (State.tidy_put (State.tidy_put hu))
    have hfe : (((u.put CAL_STAT.REC_VALID 1).put CAL_REC_TEMP.w (code16 temp)).put CAL_STAT.AUTO_PEND 0).showCalAge.fe = u.fe :=
      hage.same (a := .frontEnd) (by decide)
    refine ⟨hage.tidy hv, by rw [hfe, hcal], by rw [hfe, hwait], by rw [hfe, hbands], ?_, ?_, fun x hx hy hz => ?_⟩
    · rw [hage.get_eq (by decide), ← hget]
      simp (decide := true) (maxDischargeDepth := 12) [hu]
    · rw [hage.get_eq (by decide), ← hget]
      simp (decide := true) (maxDischargeDepth := 12) [hu]
    · have hput (w : State) (y : Fld) (v : Nat) (hy : y.key = CAL_REC_AGE.w.key) : (w.put y v).get x = w.get x :=
        State.get_put_ne w v (hy ▸ hz)
      have hlast (w : State) : w.showCalAge.get x = w.get x := by
        unfold State.showCalAge
        split
        · exact hput w _ _ rfl
        · exact hput w _ _ rfl
      rw [hlast, State.get_put_ne _ _ (by exact hx), State.get_put_ne _ _ (by exact hy), State.get_put_ne _ _ (by exact hx), hget]
  · exact ⟨h, rfl, rfl, rfl, rfl, rfl, fun _ _ _ _ => rfl⟩

/-- What the end of a run changes once CAL_DONE is set. -/
def calToldAreas : List Area := [.engines, .openValues, .reg MODE.w, .reg DAY_USE_E.w, .reg DAY_USE_T.w]

theorem State.calTold_frame (s : State) (op : Bool) (res : List Word) :
    Keeps (areasMask calToldAreas) (s.raise1 jCAL_DONE) (s.calTold op res) := by
  have hcharge : Keeps (areasMask calToldAreas) (s.raise1 jCAL_DONE) (((s.raise1 jCAL_DONE).showMaintain).chargeOpen .f0) :=
    State.chargeOpen_keeps _ _ (State.showMaintain_keeps _ .refl (by decide)) (by decide)
  unfold State.calTold
  dsimp only
  generalize ((s.raise1 jCAL_DONE).showMaintain).chargeOpen .f0 = u at *
  refine .ite ?_ hcharge
  split
  · exact State.outcome_keeps _ _ _ _ hcharge (by decide)
  · exact hcharge

/-- What the end of a run leaves. -/
theorem State.calTold_shows (h : s.Tidy) (op : Bool) (res : List Word) : (s.calTold op res).fe = s.fe ∧
    (s.calTold op res).fget .f0 INT_STAT1.CAL_DONE = 1 ∧ (s.calTold op res).get CAL_STAT.RUNNING = s.get CAL_STAT.RUNNING ∧
    (s.calTold op res).get CAL_STAT.FAIL = s.get CAL_STAT.FAIL ∧
    (s.calTold op res).get CAL_DONE_MASK.w = s.get CAL_DONE_MASK.w ∧ (s.calTold op res).get CAL_TEMP.w = s.get CAL_TEMP.w := by
  have hset : (s.raise1 jCAL_DONE).fget .f0 INT_STAT1.CAL_DONE = 1 := State.fget_raise1_same h.canon (by decide)
  have hraise := s.raise1_keeps jCAL_DONE .refl (within?_self _)
  have htold := s.calTold_frame op res
  refine ⟨Eq.trans (htold.same (a := .frontEnd) (by decide)) (hraise.same (a := .frontEnd) (by decide)),
    (htold.fget_eq (by decide)).trans hset, ?_, ?_, ?_, ?_⟩
  all_goals exact (htold.get_eq (by decide)).trans (hraise.get_eq (by decide))

theorem State.holdDue_of (h : s.fe.holdWait = false) : s.holdDue = s := if_neg fun ⟨hwait, _⟩ => by simp [h] at hwait

theorem State.calEnd_shows (h : s.Tidy) {mask : Nat} {op : Bool} (hwait : s.fe.holdWait = false) (hmask : mask < 0x80)
    (good margin ms : Nat) (temp : Int) (bands : List Nat) :
    (s.calEnd mask op good margin ms temp bands).fe.cal = none ∧
    (s.calEnd mask op good margin ms temp bands).bit CAL_STAT.RUNNING = false ∧
    (s.calEnd mask op good margin ms temp bands).get CAL_DONE_MASK.w = mask &&& good ∧
    (s.calEnd mask op good margin ms temp bands).get CAL_STAT.FAIL = mask - (mask &&& good) ∧
    (s.calEnd mask op good margin ms temp bands).get CAL_TEMP.w = code16 temp ∧
    ((mask &&& good) % 2 = 1 → (s.calEnd mask op good margin ms temp bands).fe.bands = (bands.take 5).map (· % 64)) ∧
    (s.calEnd mask op good margin ms temp bands).fget .f0 INT_STAT1.CAL_DONE = 1 := by
  obtain ⟨h1, hrun1, hmask1, hfail1, htemp1⟩ := State.calMarked_shows h hmask good ms temp
  have hfe1 : (s.calMarked mask good ms temp).fe = s.fe := rfl
  rw [State.calEnd_eq]
  generalize s.calMarked mask good ms temp = u1 at *
  obtain ⟨h2, hcal2, hwait2, hbands2, hget2⟩ := State.calBanded_shows h1 (mask &&& good) margin bands
  rw [hfe1, hwait] at hwait2
  rw [← hget2 _ (by decide)] at hrun1 hmask1 hfail1 htemp1
  generalize u1.calBanded (mask &&& good) margin bands = u2 at *
  have hoff := u2.pathOff_keeps .refl (within?_self _)
  have hfe3 : u2.pathOff.fe = u2.fe := hoff.same (a := .frontEnd) (by decide)
  rw [← hfe3] at hcal2 hwait2 hbands2
  rw [← hoff.get_eq (by decide)] at hrun1 hmask1 hfail1 htemp1
  have h3 := hoff.tidy h2
  generalize u2.pathOff = u3 at *
  obtain ⟨h4, hcal4, hwait4, hbands4, hrun4, hfail4, hget4⟩ := State.calRecorded_shows h3 mask (mask &&& good) temp
  have hmask4 := (hget4 CAL_DONE_MASK.w (by decide) (by decide) (by decide)).trans hmask1
  have htemp4 := (hget4 CAL_TEMP.w (by decide) (by decide) (by decide)).trans htemp1
  generalize u3.calRecorded mask (mask &&& good) temp = u4 at *
  generalize [BitVec.ofNat 16 (mask &&& good), BitVec.ofNat 16 (mask - (mask &&& good)), BitVec.ofInt 16 temp,
    BitVec.ofNat 16 ms] = res at *
  obtain ⟨hfe5, hdone5, hrun5, hfail5, hmask5, htemp5⟩ := State.calTold_shows h4 op res
  rw [State.holdDue_of (by rw [hfe5, hwait4, hwait2])]
  refine ⟨by rw [hfe5, hcal4, hcal2], ?_, hmask5.trans hmask4, hfail5.trans (hfail4.trans hfail1), htemp5.trans htemp4,
    fun hgood => by rw [hfe5, hbands4, hbands2 hgood], hdone5⟩
  exact bit_eq_of_get (hrun5.trans (hrun4.trans hrun1))

theorem exec_calDone {mask : Nat} {op : Bool} (good margin ms : Nat) (temp : Int) (bands : List Nat)
    (hcal : s.fe.cal = some (mask, op)) :
    exec (.calDone good margin ms temp bands) s = .next (s.calEnd mask op good margin ms temp bands) := by
  change execCalDone good margin ms temp bands s = _
  rw [execCalDone, hcal]

/-! ### The submersion inference -/

theorem exec_floodUnknownTimeout (s : State) (h : s.get FLOOD_STAT.STATE ≠ 0 ∧ s.fe.evalAt + 604800 ≤ s.sec) :
    exec .floodUnknownTimeout s = .next (s.setFlood 0) := congrArg Host.Outcome.next (if_pos h)

theorem State.setFlood_zero (h : s.Tidy) : (s.setFlood 0).get FLOOD_STAT.STATE = 0 ∧
    (s.get FLOOD_STAT.STATE ≠ 0 → (s.setFlood 0).fget .f0 INT_STAT1.FLOOD_STATE = 1) := by
  unfold State.setFlood
  split
  · next hsame => exact ⟨hsame, fun hne => absurd hsame hne⟩
  · refine ⟨?_, fun _ => State.fget_raise1_same (State.canon_put _ _ h) (by decide)⟩
    rw [State.get_raise1 (by decide) (by decide)]
    exact State.get_put_self h (by decide)

/-- The row of `FLOOD_CMD`: one command bit. -/
def floodCmdDef : RegDef := ⟨0xB95, 0, 0, 0, 1, 0⟩

theorem regDef_floodCmd : regDef? FLOOD_CMD.w.key = some floodCmdDef := by decide

theorem legalWord_floodCmd (f : Fn) (w : Word) : legalWord f FLOOD_CMD.w.key w = true := by
  rw [legalWord_of_unranged (by decide), extraLegal]
  simp (decide := true) only [if_false]

theorem exec_relearn (h : Serves s f (keyPage FLOOD_CMD.w.key)) : exec (.relearn f) s = .next s.regAccess.relearn := by
  have hwrite : s.cmdWrite f FLOOD_CMD.w 1 = s.regAccess.relearn := by
    rw [State.cmdWrite_page_legal regDef_floodCmd (by decide) (by decide) rfl (by decide) (legalWord_floodCmd f 1) h]
    rfl
  rw [← hwrite]
  rfl

theorem State.relearn_shows (h : s.Tidy) : s.relearn.fe.bases = [] ∧ s.relearn.get FLOOD_STAT.STATE = 0 ∧
    s.relearn.bit FLOOD_STAT.BASE_OK = false := by
  have hbases : (s.setBases []).fe.bases = [] := rfl
  have hset := s.setBases_keeps [] .refl (within?_self _)
  have hok : (s.setBases []).get FLOOD_STAT.BASE_OK = 0 := State.get_put_self (s := State.mk ..) h (by decide)
  unfold State.relearn
  have ht := hset.tidy h
  generalize s.setBases [] = u at *
  obtain ⟨hstate, -⟩ := State.setFlood_zero ht
  have hk := u.setFlood_keeps 0 .refl (within?_self _)
  have hfe : (u.setFlood 0).fe = u.fe := hk.same (a := .frontEnd) (by decide)
  have hok' : (u.setFlood 0).get FLOOD_STAT.BASE_OK = 0 := by
    unfold State.setFlood
    split
    · exact hok
    · rw [State.get_raise1 (by decide) (by decide), State.get_put_other ht (by decide) (by decide) (by decide), hok]
  generalize u.setFlood 0 = v at *
  exact ⟨(congrArg Fe.bases hfe).trans hbases, hstate, bit_eq_of_get hok'⟩

theorem exec_baselineEntryDrop {kfc : Nat} {b : Base} (hb : s.baseOf kfc = some b) (hold : b.seen + 60 * 86400 ≤ s.sec) :
    exec (.baselineEntryDrop kfc) s = .next (s.setBases (s.fe.bases.filter (fun e => e.kfc != kfc))) := by
  change execBaselineEntryDrop kfc s = _
  rw [execBaselineEntryDrop, hb]
  dsimp only
  rw [if_pos hold]

/-- Settles O21: each command by the lemma that gives its next state; the end of a run stage by stage. -/
theorem calibrationAndFloodCommandsComplete : Obligations.CalibrationAndFloodCommandsComplete := by
  unfold Obligations.CalibrationAndFloodCommandsComplete
  refine ⟨fun f a start s hc ⟨hop, hruns, hfree⟩ => ?_, fun good margin ms temp mask op bands s hc ⟨hcal, hwait, hmask⟩ =>
      ⟨_, exec_calDone good margin ms temp bands hcal, State.calEnd_shows hc.tidy hwait hmask good margin ms temp bands⟩,
    fun c at0 s hc ⟨hrec, hen, hold⟩ => ⟨_, exec_autoPend hrec hen hold, ?_⟩, .intro _ exec_autoCalStart fun s hc _ => ?_,
    .intro _ exec_floodUnknownTimeout fun s hc ⟨hstate, _⟩ => ?_, fun f s hc hserves => ⟨_, exec_relearn hserves,
      State.relearn_shows (State.tidy_regAccess hc)⟩,
    fun kfc b s hc ⟨hb, hold⟩ => ⟨_, exec_baselineEntryDrop hb hold, rfl⟩⟩
  · obtain ⟨hcal, hrun, hact, -⟩ := State.calStart_shows hc.tidy (if arg a 0 % 0x80 = 0 then 0x7F else arg a 0 % 0x80) true
    exact ⟨_, exec_calRun hop hruns hfree, hcal, hrun, hact⟩
  · have hone : (s.put CAL_STAT.AUTO_PEND 1).showCalAge.get CAL_STAT.AUTO_PEND = 1 :=
      ((State.showCalAge_keeps _ .refl (within?_self _)).get_eq (by decide)).trans (State.get_put_self hc.tidy (by decide))
    exact bit_eq_of_get hone
  · obtain ⟨hcal, hrun, -, hpend⟩ := State.calStart_shows (State.tidy_put (x := CAL_STAT.AUTO_PEND) (v := 0) hc) 0x7F false
    rw [State.get_put_self hc.tidy (by decide)] at hpend
    exact ⟨bit_eq_of_get hpend, hcal, hrun⟩
  · obtain ⟨hzero, hset⟩ := State.setFlood_zero hc.tidy
    exact ⟨hzero, hset hstate⟩

end Sys2Proof.Machine
end

section
/-! PROOFS. The threshold of LOSS (O25): F0's lock keeps its write out. -/

namespace Sys2Proof.Machine

open R

/-- A unit past READY whose partition is locked. -/
def lockedUnit : State :=
  let s : State := { State.reset with
    mode := { ModeEng.start with ready := true }, boot := { Boot.start with marten := true } }
  s.put PART_STAT.LOCKED 1

theorem canon_lockedUnit : lockedUnit.Canon := (State.tidy_put resetIsCanonical).canon

/-- The write of another threshold is refused, and the threshold stays. -/
theorem exec_timeLossThrWrite_locked : ∃ t, exec (.timeLossThrWrite .f0 5) lockedUnit = .next t ∧
    t.get TIME_LOSS_THR.w = 20 := ⟨_, rfl, by decide +kernel⟩

/-- Refutes O25: `TIME_LOSS_THR` can be locked, and a served write of 5 under F0's lock leaves it at 20. -/
theorem not_timeCommandsComplete : ¬ Obligations.TimeCommandsComplete := by
  unfold Obligations.TimeCommandsComplete
  rintro ⟨-, -, -, -, -, -, -, -, -, -, -, -, -, hthr⟩
  obtain ⟨t, hexec, hread⟩ := hthr .f0 5 lockedUnit canon_lockedUnit (by decide +kernel)
  obtain ⟨u, hu, hkept⟩ := exec_timeLossThrWrite_locked
  obtain rfl : t = u := Host.Outcome.next.inj (hexec.symm.trans hu)
  rw [hkept] at hread
  exact absurd hread (by decide)

end Sys2Proof.Machine
end

section
/-! PROOFS. Commands that fall short of their clause: the shadow values, ERASE and arming (O20, O27, O28). -/

namespace Sys2Proof.Machine

open R

/-! ### SYN_APPLY during an AF check (O20) -/

/-- The divider register shows the code loaded. -/
theorem State.div_loadSyn {s : State} (h : s.Tidy) {code : Nat} (hcode : code < 0x10000) (total band : Nat) :
    (s.loadSyn code total band).get SYN_DIV.w = code := by
  simp (decide := true) (maxDischargeDepth := 20) [State.loadSyn, State.put32, h]
  exact Nat.mod_eq_of_lt (b := 0x10000) hcode

theorem divCode_lt (lo : Nat) : divCode lo < 5 := by
  unfold divCode
  split_ifs <;> decide

/-- An AF check that ends has the home divider code loaded. -/
theorem State.div_afBack {s : State} (h : s.Tidy) {r : Rx} (hrx : s.fe.rx = some r) (hjob : s.get FES_STAT.JOB = 6) :
    s.afBack.get SYN_DIV.w = divCode (loHz r.kfc) := by
  have hlt := divCode_lt (loHz r.kfc)
  rw [State.afBack, hrx]
  dsimp only
  rw [if_pos hjob, State.setJob]
  have hback : ((s.synTo r.kfc).put FES_STAT.JOB 5).get SYN_DIV.w = (s.synTo r.kfc).get SYN_DIV.w :=
    State.get_put_ne (x := FES_STAT.JOB) (y := SYN_DIV.w) _ _ (by decide)
  exact hback.trans (State.div_loadSyn h (by omega) _ _)

/-- What a raw write draws and marks before it ends a check. -/
def State.rawMarked (s : State) : State := ((s.put FES_STAT.RAW_TOUCHED 1).inc FES_CNT_RAW.w).chargeOpen .f0

theorem State.rawMarked_shows {s : State} (h : s.Tidy) : s.rawMarked.Tidy ∧
    s.rawMarked.get FES_STAT.JOB = s.get FES_STAT.JOB ∧ s.rawMarked.fe = s.fe := by
  have hk : Keeps (areasMask [.reg FES_CNT_RAW.w]) (s.put FES_STAT.RAW_TOUCHED 1)
      ((s.put FES_STAT.RAW_TOUCHED 1).inc FES_CNT_RAW.w) := State.inc_keeps _ _ .refl (by decide)
  have hput : (s.put FES_STAT.RAW_TOUCHED 1).get FES_STAT.JOB = s.get FES_STAT.JOB :=
    State.get_put_other h (by decide) (by decide) (by decide)
  have hcharge := ((s.put FES_STAT.RAW_TOUCHED 1).inc FES_CNT_RAW.w).chargeOpen_keeps .f0 .refl (within?_self _)
  refine ⟨hcharge.tidy (hk.tidy (State.tidy_put h)), (hcharge.get_eq (by decide)).trans ((hk.get_eq (by decide)).trans hput), ?_⟩
  exact Eq.trans (hcharge.same (a := .frontEnd) (by decide)) rfl

/-- A raw write in an AF check leaves the home divider code in the raw register. -/
theorem State.div_rawTouch {s : State} (h : s.Tidy) {r : Rx} {kfc : Nat} (hrx : s.fe.rx = some r)
    (hjob : s.get FES_STAT.JOB = 6) (hhost : s.fe.afHost = some kfc) :
    s.rawTouch.get SYN_DIV.w = divCode (loHz r.kfc) := by
  obtain ⟨h1, hjob1, hfe1⟩ := State.rawMarked_shows h
  have hshape : s.rawTouch.get SYN_DIV.w = ((((((s.rawMarked.put FES_AF_STAT.BUSY 0).put FES_STAT.AF_BUSY 0).put
      FES_AF_STAT.VALID 0).afBack).put FMR_STAT.AF_CONFIRM 0).put DAB_STAT.AF_CONFIRM 0).get SYN_DIV.w := by
    rw [State.rawTouch, if_pos ⟨by rw [hrx]; rfl, by omega, by omega⟩, ← State.rawMarked]
    dsimp only
    rw [if_pos (by rw [hfe1, hhost]; rfl)]
    rfl
  rw [hshape, State.get_put_ne _ _ (by decide), State.get_put_ne _ _ (by decide)]
  refine State.div_afBack (State.tidy_put (State.tidy_put (State.tidy_put h1))) ((congrArg Fe.rx hfe1).trans hrx) ?_
  rw [State.get_put_ne _ _ (by decide), State.get_put_other (State.tidy_put h1) (by decide) (by decide) (by decide),
    State.get_put_ne _ _ (by decide), hjob1, hjob]

/-- The row of `SYN_APPLY`: one command bit. -/
def synApplyDef : RegDef := ⟨0xC85, 0, 0, 0, 1, 0⟩

theorem exec_synApply {s : State} {f : Fn} (h : Serves s f (keyPage SYN_APPLY.w.key)) :
    exec (.synApply f) s = .next s.regAccess.synApply := by
  have hreg : regDef? SYN_APPLY.w.key = some synApplyDef := by decide
  have hlegal : legalWord f SYN_APPLY.w.key 1 = true := by
    rw [legalWord_of_unranged (by decide), extraLegal]
    simp (decide := true) only [if_false]
  have hwrite : s.cmdWrite f SYN_APPLY.w 1 = s.regAccess.synApply := by
    rw [State.cmdWrite_page_legal hreg (by decide) (by decide) rfl (by decide) hlegal h]
    rfl
  rw [← hwrite]
  rfl

/-- APPLY reads the divider register after it has ended the check. -/
theorem State.syn_synApply (s : State) : s.synApply.fe.syn.head? = some (s.rawTouch.get SYN_DIV.w % 8) := rfl

/-- A unit past READY. -/
def readyUnit : State :=
  { State.reset with mode := { ModeEng.start with ready := true }, boot := { Boot.start with marten := true } }

/-- An FM reception on 100 MHz. -/
def fmReception : Rx := ⟨0x200186A0, 0x200186A0, 0, [], false, false⟩

/-- An AF check of an FM reception, the raw divider register at 0. -/
def applyInCheck : State :=
  let s : State := { readyUnit with fe := { Fe.start with rx := some fmReception, afHost := some 0x200186A0 } }
  s.put FES_STAT.JOB 6

theorem canon_applyInCheck : applyInCheck.Canon := (State.tidy_put resetIsCanonical).canon

/-- The check ends first and loads the home values, which APPLY then takes. -/
theorem syn_applyInCheck : applyInCheck.regAccess.synApply.fe.syn.head? = some 2 := by
  rw [State.syn_synApply, State.div_rawTouch (r := fmReception) (kfc := 0x200186A0) (State.tidy_regAccess canon_applyInCheck)
    rfl (by decide +kernel) rfl]
  decide +kernel

/-- Refutes O20: an APPLY that ends an AF check loads the home divider code 2, not the 0 that `SYN_DIV` held. -/
theorem not_tuneCommandsComplete : ¬ Obligations.TuneCommandsComplete := by
  unfold Obligations.TuneCommandsComplete
  rintro ⟨-, -, -, -, -, -, -, -, -, -, -, -, -, happly, -⟩
  have hserves : Serves applyInCheck .f0 (keyPage SYN_APPLY.w.key) := by decide +kernel
  obtain ⟨t, hexec, hsyn, -⟩ := happly .f0 applyInCheck canon_applyInCheck hserves
  obtain rfl := Host.Outcome.next.inj ((exec_synApply hserves).symm.trans hexec)
  have hhead := syn_applyInCheck
  rw [hsyn, List.head?_cons] at hhead
  exact absurd hhead (by decide +kernel)

/-! ### ERASE and the segment under assembly (O27) -/

/-- A segment of an RDS reception is under assembly. -/
def eraseInSegment : State := { readyUnit with edf := { Edf.start with asm := some (1, [], 0) } }

theorem canon_eraseInSegment : eraseInSegment.Canon := resetIsCanonical

theorem exec_edfErase_inSegment : ∃ t, exec (.edfErase .f0) eraseInSegment = .next t ∧ t.edf.asm = some (1, [], 0) :=
  ⟨_, rfl, by decide +kernel⟩

/-- Refutes O27: ERASE leaves the segment under assembly. -/
theorem not_datacastCommandsComplete : ¬ Obligations.DatacastCommandsComplete := by
  unfold Obligations.DatacastCommandsComplete
  rintro ⟨-, -, herase, -⟩
  obtain ⟨t, hexec, -, hasm, -⟩ := herase eraseInSegment canon_eraseInSegment (by decide +kernel)
  obtain ⟨u, hu, hkept⟩ := exec_edfErase_inSegment
  obtain rfl : t = u := Host.Outcome.next.inj (hexec.symm.trans hu)
  rw [hasm] at hkept
  cases hkept

/-! ### Arming before a capture's start instant (O28) -/

/-- A capture has begun whose start instant lies ahead; AP0 is set to receive. -/
def armInLead : State :=
  let s : State := { readyUnit with capt := { Capt.start with job := some ⟨[.f0], true, 0, 0, 0, 0, 0, 100, 1, 0⟩ } }
  s.put (AP.CTL.RX 0) 1

theorem canon_armInLead : armInLead.Canon := (State.tidy_put resetIsCanonical).canon

/-- The port is armed, but not late. -/
theorem exec_apArmWrite_inLead : ∃ t, exec (.apArmWrite .f0 .ap0 5) armInLead = .next t ∧ t.ap.p0.late = false :=
  ⟨_, rfl, by decide +kernel⟩

/-- Refutes O28: a port armed in a capture before its start instant is not late. -/
theorem not_audioPortCommandsComplete : ¬ Obligations.AudioPortCommandsComplete := by
  unfold Obligations.AudioPortCommandsComplete
  rintro ⟨harm, -⟩
  obtain ⟨t, hexec, -, hlate⟩ := harm .f0 5 armInLead canon_armInLead (by decide +kernel)
  obtain ⟨u, hu, hnot⟩ := exec_apArmWrite_inLead
  obtain rfl : t = u := Host.Outcome.next.inj (hexec.symm.trans hu)
  rw [hlate] at hnot
  exact absurd hnot (by decide)

end Sys2Proof.Machine
end

section
/-! PROOFS. Attention messages, arbitration and the bus reset (O17). -/

namespace Sys2Proof.Machine

open R

variable {s t u : State} {f g : Fn}

/-! ### The parts of a message's state -/

theorem Keeps.eng_eq {m : Nat} (h : Keeps m s t) (hm : m.testBit (Area.bit .engines) = false) (g : Fn) :
    t.eng g = s.eng g := congrArg (fun e : PerFn FnEng => e.get g) (h.same (a := .engines) hm)

theorem Keeps.coreRuns_eq {m : Nat} (h : Keeps m s t) (hmode : m.testBit (Area.bit .mode) = false)
    (hboot : m.testBit (Area.bit .boot) = false) (hcur : regIn m MODE.CUR.key = false) : t.coreRuns = s.coreRuns := by
  have hm : t.mode = s.mode := h.same (a := .mode) hmode
  have hb : t.boot = s.boot := h.same (a := .boot) hboot
  rw [State.coreRuns, hm, hb, h.get_eq hcur, ← State.coreRuns]

/-- A mark for a message changes of a message's state only what is still to be told. -/
theorem State.backoff_noteAttn (s : State) (f g : Fn) (src : Nat) :
    ((s.noteAttn f src).eng g).attn.backoff = (s.eng g).attn.backoff := by
  unfold State.noteAttn
  extract_lets en t e
  have ht : t.fns = s.fns := by
    unfold t
    split
    · exact (s.wantHost_keeps 4 .refl (within?_self _)).same (a := .engines) (by decide)
    · rfl
  have heng : ∀ f, t.eng f = s.eng f := fun f => congrArg (fun p : PerFn FnEng => p.get f) ht
  by_cases hg : g = f
  · subst hg
    split
    · split <;> rw [State.eng_setEng] <;> change (t.eng g).attn.backoff = _ <;> rw [heng]
    · rw [heng]
  · split
    · split <;> rw [State.eng_setEng_ne _ _ hg, heng]
    · rw [heng]

theorem State.backoff_raise1 (s : State) (g : Fn) (b : Nat) :
    ((s.raise1 b).eng g).attn.backoff = (s.eng g).attn.backoff := State.backoff_noteAttn _ _ g _

/-- With CORE running an event of the port shows at once. -/
theorem State.twEvt_runs {x : Fld} (h : s.coreRuns = true) : s.twEvt x = s.put x 1 := if_pos h

/-! ### Forming and ending a message -/

theorem exec_attentionMessageForm (s : State) (f : Fn) (h : s.fget f ATTN_ACK.OUT = 0 ∧ (s.eng f).attn.due0 ≠ 0) :
    ∃ t, exec (.attentionMessageForm f) s = .next t ∧ (s.Tidy → t.fget f ATTN_ACK.OUT = 1 ∧
      t.fget f ATTN_ACK.SEQ = (s.fget f ATTN_ACK.SEQ + 1) % ATTN_ACK.SEQ.size ∧ t.fget f ATTN_ACK.TRIES = 0 ∧
      (t.eng f).attn.due = true ∧ (t.eng f).attn.due0 = 0 ∧ (t.eng f).attn.second = false) := by
  obtain ⟨hout, hdue⟩ := h
  refine ⟨_, congrArg Host.Outcome.next (if_neg (by simp [hout, hdue])), fun hs => ?_⟩
  dsimp only
  generalize ha : ({ (s.eng f).attn with
    carried := false, second := (s.eng f).attn.due0 == 0, payload := _, losses := 0, due := true,
    backoff := false, due0 := 0, due1 := _ } : Attn) = a
  have hnew : a.due = true ∧ a.due0 = 0 ∧ a.second = false := by
    subst ha
    exact ⟨rfl, rfl, beq_false_of_ne hdue⟩
  have h1 : (s.setAttn f a).Tidy := hs
  have heng1 : ((s.setAttn f a).eng f).attn = a := by rw [State.setAttn, State.eng_setEng]
  have hseq1 : (s.setAttn f a).fget f ATTN_ACK.SEQ = s.fget f ATTN_ACK.SEQ := rfl
  generalize s.setAttn f a = v at *
  set w := (((v.fput f ATTN_ACK.SEQ (v.fget f ATTN_ACK.SEQ + 1)).fput f ATTN_ACK.TRIES 0).fput f ATTN_ACK.FALLBACK 0).fput f
    ATTN_ACK.OUT 1 with hw
  have hk := w.serviceWake_keeps .refl (within?_self _)
  have hattn : (w.serviceWake.eng f).attn = a := (congrArg FnEng.attn (hk.eng_eq (by decide) f)).trans heng1
  obtain ⟨hd, hd0, hsec⟩ := hnew
  refine ⟨?_, ?_, ?_, by rw [hattn, hd], by rw [hattn, hd0], by rw [hattn, hsec]⟩
  · rw [hk.fget_eq (by decide), hw]
    simp (decide := true) (maxDischargeDepth := 8) [h1]
  · rw [hk.fget_eq (by decide), hw, ← hseq1]
    simp (decide := true) (maxDischargeDepth := 8) [h1]
  · rw [hk.fget_eq (by decide), hw]
    simp (decide := true) (maxDischargeDepth := 8) [h1]

theorem State.tidy_attnStat (h : s.Tidy) (f : Fn) (n code : Nat) : (s.attnStat f n code).Tidy := State.tidy_put h

/-- The end of a message clears its marks and leaves the settings. -/
theorem State.attnOver_shows (h : s.Tidy) (f : Fn) : (s.attnOver f).fget f ATTN_ACK.OUT = 0 ∧
    (s.attnOver f).fget f ATTN_ACK.FALLBACK = 0 ∧ ((s.attnOver f).eng f).attn.due = false ∧
    ((s.attnOver f).eng f).attn.backoff = false := by
  unfold State.attnOver
  dsimp only
  have hs : ∀ e, (s.setEng f e).Tidy := fun _ => h
  have he : ∀ e, ((s.setEng f e).eng f) = e := fun e => State.eng_setEng _ _ _
  generalize hu : s.setEng f _ = u
  have h1 : u.Tidy := hu ▸ hs _
  refine ⟨?_, ?_, ?_, ?_⟩
  · simp (decide := true) (maxDischargeDepth := 8) [h1]
  · simp (decide := true) (maxDischargeDepth := 8) [h1]
  · change (u.eng f).attn.due = false
    rw [← hu, he]
  · change (u.eng f).attn.backoff = false
    rw [← hu, he]

/-! ### Attempts -/

/-- A message that is withdrawn. -/
theorem State.attnWithdraw_shows (h : s.Tidy) (f : Fn) : (s.attnWithdraw f).tw = s.tw ∧
    (s.attnWithdraw f).fget f ATTN_ACK.OUT = 0 ∧ (s.attnWithdraw f).get TW_ATTN_STAT.w % 0x10 = 4 := by
  have hover := (s.attnStat f (s.fget f ATTN_ACK.TRIES) 4).attnOver_keeps f .refl (within?_self _)
  obtain ⟨hout, -, -, -⟩ := State.attnOver_shows (State.tidy_attnStat h f (s.fget f ATTN_ACK.TRIES) 4) f
  refine ⟨hover.same (a := .twoWire) (by decide), hout, ?_⟩
  rw [State.attnWithdraw, hover.get_eq (by decide), State.attnStat, State.get_put_self h (by decide)]
  change _ % 0x10000 % 0x10 = 4
  omega

/-- Where no cancel waits, an attempt that has left the bus settles nothing. -/
theorem State.attnSettle_quiet (h : s.tw.cancel = false) (f : Fn) : s.attnSettle f = s := if_neg (by simp [h])

/-- A cancel that waits ends the message. -/
theorem State.attnSettle_cancels (hs : s.Tidy) (h : s.tw.cancel = true) (f : Fn) :
    (s.attnSettle f).tw = { s.tw with cancel := false } ∧ (s.attnSettle f).fget f ATTN_ACK.OUT = 0 ∧
    (s.attnSettle f).get TW_ATTN_STAT.w % 0x10 = 4 := by
  rw [State.attnSettle, if_pos h]
  exact State.attnWithdraw_shows (s := { s with tw := { s.tw with cancel := false } }) hs f

/-- The START of an attempt. -/
theorem State.attnStart_shows (h : s.Tidy) (f : Fn) : (s.attnStart f).Tidy ∧ (s.attnStart f).tw = { s.tw with onBus := some f } ∧
    (s.attnStart f).fget f ATTN_ACK.TRIES = min 15 (s.fget f ATTN_ACK.TRIES + 1) ∧
    (s.attnStart f).fget f ATTN_ACK.OUT = s.fget f ATTN_ACK.OUT ∧
    (s.attnStart f).hostOut = (s.attnBytes f).map (fun b => b.zeroExtend 16) ∧
    (s.attnStart f).get TW_CNT_ATTN.w = min 0xFFFF (s.get TW_CNT_ATTN.w + 1) := by
  unfold State.attnStart
  dsimp only
  generalize hu : s.setAttn f _ = u
  have h1 : u.Tidy := hu ▸ h
  have hfget : ∀ x, u.fget f x = s.fget f x := fun x => hu ▸ rfl
  have hcnt : u.get TW_CNT_ATTN.w = s.get TW_CNT_ATTN.w := hu ▸ rfl
  have htw : u.tw = s.tw := hu ▸ rfl
  have hbytes : u.attnBytes f = s.attnBytes f := by
    subst hu
    simp only [State.attnBytes, State.setAttn, State.eng_setEng]
    rfl
  rw [hfget]
  generalize hv : u.fput f ATTN_ACK.TRIES (min 15 (s.fget f ATTN_ACK.TRIES + 1)) = v
  have h2 : v.Tidy := by rw [← hv]; exact State.tidy_fput h1
  have htries : v.fget f ATTN_ACK.TRIES = min 15 (s.fget f ATTN_ACK.TRIES + 1) := by
    rw [← hv, State.fget_fput_self h1 (by decide)]
    exact Nat.mod_eq_of_lt (b := 16) (by omega)
  have hout : v.fget f ATTN_ACK.OUT = s.fget f ATTN_ACK.OUT := by
    rw [← hv]
    simp (decide := true) [h1, hfget]
  have hcnt2 : v.get TW_CNT_ATTN.w = s.get TW_CNT_ATTN.w := by rw [← hcnt, ← hv]; exact State.get_fput (by decide)
  have htw2 : v.tw = s.tw := by rw [← hv]; exact htw
  have hseq : v.fget f ATTN_ACK.SEQ = u.fget f ATTN_ACK.SEQ := by
    rw [← hv]
    simp (decide := true) [h1]
  have hcfg : v.addrCfg = u.addrCfg := by
    rw [← hv]
    simp (decide := true) only [State.addrCfg, State.get_fput]
  have hbytes2 : v.attnBytes f = s.attnBytes f := by
    have heng : v.eng f = u.eng f := hv ▸ rfl
    rw [← hbytes, State.attnBytes, State.attnBytes, State.addrForce, State.addrForce, hseq, heng, hcfg, ← hv]
    rfl
  have hk : Keeps (areasMask [.reg TW_CNT_ATTN.w]) v (v.inc TW_CNT_ATTN.w) := State.inc_keeps _ _ .refl (by decide)
  have hcfg3 : (v.inc TW_CNT_ATTN.w).addrCfg = v.addrCfg := by
    simp only [State.addrCfg]
    rw [hk.get_eq (by decide), hk.get_eq (by decide), hk.get_eq (by decide), hk.get_eq (by decide), hk.get_eq (by decide),
      hk.get_eq (by decide)]
  refine ⟨hk.tidy h2, ?_, (hk.fget_eq (by decide)).trans htries, (hk.fget_eq (by decide)).trans hout, ?_, ?_⟩
  · change ({ v.tw with onBus := some f } : Tw) = _
    rw [htw2]
  · rw [← hbytes2, State.attnBytes, State.attnBytes, State.addrForce, State.addrForce, hcfg3, hk.fget_eq (by decide)]
    rfl
  · change (v.inc TW_CNT_ATTN.w).get TW_CNT_ATTN.w = _
    rw [State.get_inc_self h2 (by decide), hcnt2]
    exact Nat.min_comm _ _

/-- The bus is left, with a STOP or without one, and a cancel that waits is settled. -/
def State.leftBus (s : State) (stop : Bool) (f : Fn) : State :=
  ({ s with tw := { s.tw with onBus := none, forceDue := s.tw.forceDue && !stop } } : State).attnSettle f

/-- An attempt that ends as sent, with no cancel waiting. -/
theorem State.attnEnd_sent (hbus : s.tw.onBus = some f) (hcancel : s.tw.cancel = false) :
    (s.attnEnd 1).tw.onBus = none ∧ (∀ x, (s.attnEnd 1).fget f x = s.fget f x) ∧ (s.attnEnd 1).hostOut = s.hostOut ∧
    (s.attnEnd 1).get TW_CNT_ATTN.w = s.get TW_CNT_ATTN.w := by
  have hstat : (s.attnStat f (s.fget f ATTN_ACK.TRIES) 1).tw = s.tw := rfl
  have hfget : ∀ x, (s.attnStat f (s.fget f ATTN_ACK.TRIES) 1).fget f x = s.fget f x :=
    fun x => State.fget_put (by decide)
  have hcnt : (s.attnStat f (s.fget f ATTN_ACK.TRIES) 1).get TW_CNT_ATTN.w = s.get TW_CNT_ATTN.w :=
    State.get_put_ne _ _ (by decide)
  have hout : (s.attnStat f (s.fget f ATTN_ACK.TRIES) 1).hostOut = s.hostOut := rfl
  have heq : s.attnEnd 1 = ((s.attnStat f (s.fget f ATTN_ACK.TRIES) 1).setEng f
      { (s.attnStat f (s.fget f ATTN_ACK.TRIES) 1).eng f with
        attn := { ((s.attnStat f (s.fget f ATTN_ACK.TRIES) 1).eng f).attn with losses := 0 } }).leftBus true f := by
    rw [State.attnEnd, hbus]
    rfl
  rw [heq]
  generalize s.attnStat f (s.fget f ATTN_ACK.TRIES) 1 = v at *
  rw [State.leftBus, State.attnSettle_quiet (by exact (congrArg Tw.cancel hstat).trans hcancel)]
  exact ⟨rfl, hfget, hout, hcnt⟩

theorem exec_attentionAttempt_sent (h : s.attnMayStart f = true ∧ s.tw.cancel = false) :
    exec (.attentionAttempt f .sent) s = .next ((s.attnStart f).attnEnd 1) := by
  obtain ⟨hmay, hcancel⟩ := h
  have htw : (s.attnStart f).tw = { s.tw with onBus := some f } := rfl
  change execAttentionAttempt f .sent s = _
  rw [execAttentionAttempt, if_pos hmay]
  generalize s.attnStart f = u at *
  dsimp only
  rw [if_pos (by rw [htw]), if_neg (by simp [htw, hcancel])]

theorem exec_attentionRepeat (s : State) (f : Fn) (h : s.fget f ATTN_ACK.OUT = 1 ∧ s.fget f ATTN_ACK.FALLBACK = 0 ∧
    s.fget f ATTN_ACK.TRIES < s.get TW_CTL_CFG.TRIES ∧ s.tw.onBus ≠ some f) : exec (.attentionRepeat f) s =
      .next (s.setAttn f { (s.eng f).attn with due := true }).serviceWake := congrArg Host.Outcome.next (if_pos h)

theorem exec_attnFallback (s : State) (f : Fn) (h : s.fget f ATTN_ACK.OUT = 1 ∧ s.fget f ATTN_ACK.FALLBACK = 0 ∧
    s.get TW_CTL_CFG.TRIES ≤ s.fget f ATTN_ACK.TRIES ∧ s.tw.onBus ≠ some f) : exec (.attnFallback f) s =
      .next (((s.fput f ATTN_ACK.FALLBACK 1).twEvt TW_EVT.ATTN_FALLBACK).raise1 jTW_ERROR) :=
  congrArg Host.Outcome.next (if_pos h)

theorem exec_arbLost (s : State) (f : Fn) (h : s.tw.onBus = some f) : exec (.arbLost f) s = .next (s.attnLost f 6) :=
  congrArg Host.Outcome.next (if_pos h)

theorem exec_twArbSr (s : State) (f : Fn) (h : s.tw.onBus = some f) :
    exec (.twArbSr f) s = .next (((s.attnLost f 7).twEvt TW_EVT.ARB_SR).raise1 jARB_SR) :=
  congrArg Host.Outcome.next (if_pos h)

theorem exec_arbBackoffExpiry (s : State) (f : Fn) (h : (s.eng f).attn.backoff = true) : exec (.arbBackoffExpiry f) s =
    .next (s.setAttn f { (s.eng f).attn with backoff := false, due := true }).serviceWake :=
  congrArg Host.Outcome.next (if_pos h)

/-- The message's state after a wake for the service of attention. -/
theorem State.attn_setAttn_wake (s : State) (f : Fn) (a : Attn) : ((s.setAttn f a).serviceWake.eng f).attn = a := by
  have hk := (s.setAttn f a).serviceWake_keeps .refl (within?_self _)
  rw [hk.eng_eq (by decide), State.setAttn, State.eng_setEng]

/-! ### A lost arbitration -/

/-- The loss counted in the registers. -/
def State.lossMarked (s : State) (f : Fn) (code : Nat) : State := (s.attnStat f (s.fget f ATTN_ACK.TRIES) code).inc TW_CNT_ARB.w

/-- The function's own count of losses, its backoff, and the try taken back unless the loss is the eighth. -/
def State.lossCounted (s : State) (f : Fn) (a : Attn) (n : Nat) : State :=
  let eighth : Bool := decide (8 ≤ a.losses + 1)
  let s := s.setAttn f { a with losses := if eighth then 0 else a.losses + 1, backoff := true }
  if eighth then s else s.fput f ATTN_ACK.TRIES (n - 1)

theorem State.attnLost_eq (s : State) (f : Fn) (code : Nat) : s.attnLost f code =
    (({ (s.lossMarked f code).lossCounted f (s.eng f).attn (s.fget f ATTN_ACK.TRIES) with
      tw := { ((s.lossMarked f code).lossCounted f (s.eng f).attn (s.fget f ATTN_ACK.TRIES)).tw with onBus := none } } :
        State).attnSettle f) := rfl

theorem State.lossMarked_shows (h : s.Tidy) (f : Fn) (code : Nat) : (s.lossMarked f code).Tidy ∧
    (s.lossMarked f code).tw = s.tw ∧ (∀ g x, comIn (areasMask [.reg TW_ATTN_STAT.w, .reg TW_CNT_ARB.w]) x.key = false →
      (s.lossMarked f code).fget g x = s.fget g x) ∧ (s.lossMarked f code).coreRuns = s.coreRuns := by
  have hput : Keeps (areasMask [.reg TW_ATTN_STAT.w, .reg TW_CNT_ARB.w]) s (s.attnStat f (s.fget f ATTN_ACK.TRIES) code) :=
    State.attnStat_keeps _ _ _ _ .refl (by decide)
  have hk : Keeps (areasMask [.reg TW_ATTN_STAT.w, .reg TW_CNT_ARB.w]) s (s.lossMarked f code) :=
    State.inc_keeps _ _ hput (by decide)
  exact ⟨hk.tidy h, hk.same (a := .twoWire) (by decide), fun g x hx => hk.fget_eq hx,
    hk.coreRuns_eq (by decide) (by decide) (by decide)⟩

theorem State.lossCounted_shows (h : s.Tidy) (f : Fn) (a : Attn) (n : Nat) : (s.lossCounted f a n).Tidy ∧
    (s.lossCounted f a n).tw = s.tw ∧ ((s.lossCounted f a n).eng f).attn.backoff = true ∧
    (s.lossCounted f a n).coreRuns = s.coreRuns ∧
    (a.losses < 7 → n < 16 → ((s.lossCounted f a n).eng f).attn.losses = a.losses + 1 ∧
      (s.lossCounted f a n).fget f ATTN_ACK.TRIES = n - 1) := by
  unfold State.lossCounted
  by_cases he : 8 ≤ a.losses + 1
  · simp only [he, decide_true, if_true]
    exact ⟨h, rfl, by rw [State.setAttn, State.eng_setEng], rfl, fun hl => absurd hl (by omega)⟩
  · simp only [he, decide_false, Bool.false_eq_true, if_false]
    generalize hu : s.setAttn f _ = u
    have h1 : u.Tidy := hu ▸ h
    have hattn : (u.eng f).attn = { a with losses := a.losses + 1, backoff := true } := by
      rw [← hu, State.setAttn, State.eng_setEng]
    have hruns : u.coreRuns = s.coreRuns := hu ▸ rfl
    have hk : Keeps (areasMask [.reg ATTN_ACK.w]) u (u.fput f ATTN_ACK.TRIES (n - 1)) := State.fput_keeps _ _ _ _ .refl (by decide)
    refine ⟨hk.tidy h1, hu ▸ rfl, ?_, (hk.coreRuns_eq (by decide) (by decide) (by decide)).trans hruns, fun _ hn => ⟨?_, ?_⟩⟩
    · exact congrArg Attn.backoff hattn
    · exact congrArg Attn.losses hattn
    · rw [State.fget_fput_self h1 (by decide)]
      exact Nat.mod_eq_of_lt (b := 16) (by omega)

/-- What a lost attempt leaves when no cancel waits. -/
theorem State.attnLost_quiet (h : s.Tidy) (f : Fn) (code : Nat) (hcancel : s.tw.cancel = false) :
    (s.attnLost f code).Tidy ∧ (s.attnLost f code).tw.onBus = none ∧ ((s.attnLost f code).eng f).attn.backoff = true ∧
    (s.attnLost f code).coreRuns = s.coreRuns ∧ ((s.eng f).attn.losses < 7 →
      ((s.attnLost f code).eng f).attn.losses = (s.eng f).attn.losses + 1 ∧
      (s.attnLost f code).fget f ATTN_ACK.TRIES = s.fget f ATTN_ACK.TRIES - 1) := by
  have hn : s.fget f ATTN_ACK.TRIES < 16 := Nat.mod_lt (y := 16) _ (by decide)
  obtain ⟨h1, htw1, -, hruns1⟩ := State.lossMarked_shows h f code
  rw [State.attnLost_eq]
  generalize s.lossMarked f code = u at *
  obtain ⟨h2, htw2, hback, hruns2, hcount⟩ := State.lossCounted_shows h1 f (s.eng f).attn (s.fget f ATTN_ACK.TRIES)
  generalize u.lossCounted f (s.eng f).attn (s.fget f ATTN_ACK.TRIES) = v at *
  rw [State.attnSettle_quiet (by exact (congrArg Tw.cancel (htw2.trans htw1)).trans hcancel)]
  exact ⟨h2, rfl, hback, hruns2.trans hruns1, fun hl => hcount hl hn⟩

/-- What it leaves when a cancel waits. -/
theorem State.attnLost_cancelled (h : s.Tidy) (f : Fn) (code : Nat) (hcancel : s.tw.cancel = true) :
    (s.attnLost f code).tw.onBus = none ∧ (s.attnLost f code).tw.cancel = false ∧
    (s.attnLost f code).fget f ATTN_ACK.OUT = 0 ∧ (s.attnLost f code).get TW_ATTN_STAT.w % 0x10 = 4 := by
  obtain ⟨h1, htw1, -, -⟩ := State.lossMarked_shows h f code
  rw [State.attnLost_eq]
  generalize s.lossMarked f code = u at *
  obtain ⟨h2, htw2, -, -, -⟩ := State.lossCounted_shows h1 f (s.eng f).attn (s.fget f ATTN_ACK.TRIES)
  generalize u.lossCounted f (s.eng f).attn (s.fget f ATTN_ACK.TRIES) = v at *
  obtain ⟨htw3, hout, hstat⟩ := State.attnSettle_cancels (s := { v with tw := { v.tw with onBus := none } }) h2
    ((congrArg Tw.cancel (htw2.trans htw1)).trans hcancel) f
  exact ⟨by rw [htw3], by rw [htw3], hout, hstat⟩

/-! ### The reset of the block -/

theorem State.coreRuns_raise1 (s : State) (b : Nat) : (s.raise1 b).coreRuns = s.coreRuns := by
  obtain ⟨o, hmode⟩ := s.mode_raise1 b
  have hk := s.raise1_keeps b .refl (within?_self _)
  have hboot : (s.raise1 b).boot = s.boot := hk.same (a := .boot) (by decide)
  rw [State.coreRuns, hboot, hmode, hk.get_eq (by decide)]
  rfl

theorem State.tw_raise1 (s : State) (b : Nat) : (s.raise1 b).tw = s.tw :=
  (s.raise1_keeps b .refl (within?_self _)).same (a := .twoWire) (by decide)

/-- A step that may end a target frame: CORE runs on and the attempt on the bus stays. -/
structure FrameStep (s t : State) : Prop where
  tidy : s.Tidy → t.Tidy
  runs : t.coreRuns = s.coreRuns
  bus : t.tw.onBus = s.tw.onBus

namespace FrameStep

theorem refl : FrameStep s s := ⟨id, rfl, rfl⟩

theorem trans (h : FrameStep s t) (k : FrameStep t u) : FrameStep s u :=
  ⟨k.tidy ∘ h.tidy, k.runs.trans h.runs, k.bus.trans h.bus⟩

theorem ite {c : Prop} [Decidable c] (h : FrameStep s t) (k : FrameStep s u) : FrameStep s (if c then t else u) := by
  split
  · exact h
  · exact k

/-- A field outside `MODE`. -/
theorem put {x : Fld} (hx : x.key ≠ MODE.CUR.key) (v : Nat) : FrameStep s (s.put x v) := by
  refine ⟨State.tidy_put, ?_, rfl⟩
  rw [State.coreRuns, State.get_put_ne _ _ hx.symm]
  rfl

theorem twEvt {x : Fld} (hx : x.key ≠ MODE.CUR.key) : FrameStep s (s.twEvt x) :=
  .ite (.put hx 1) ⟨id, rfl, rfl⟩

theorem setErr (f : Fn) (code : Nat) : FrameStep s (s.setErr f code) := by
  have hk := s.setErr_keeps (μ := areasMask [.reg FN_ERR.w]) f code .refl (by decide)
  exact ⟨hk.tidy, hk.coreRuns_eq (by decide) (by decide) (by decide), rfl⟩

theorem raise1 (b : Nat) : FrameStep s (s.raise1 b) :=
  ⟨fun h => State.tidy_raise1 h, s.coreRuns_raise1 b, congrArg Tw.onBus (s.tw_raise1 b)⟩

end FrameStep

theorem twRow_key (code : Nat) : ∀ e ∈ (twRow code).1, e.key ≠ MODE.CUR.key := by
  unfold twRow
  split <;> simp <;> decide

/-- A target frame that ends is gone. -/
theorem State.twOutcome_shows (s : State) (f : Fn) (bytes code : Nat) : FrameStep s (s.twOutcome f bytes code) ∧
    (s.twOutcome f bytes code).tw.frame = none := by
  refine ⟨?_, rfl⟩
  have hkey := twRow_key code
  unfold State.twOutcome
  generalize twRow code = r at *
  obtain ⟨evt, err⟩ := r
  dsimp (zeta := false) only at *
  extract_lets a b c d
  have hlast : FrameStep s a := .put (by decide) _
  have hevt : FrameStep a b := by
    cases evt with
    | none => exact .refl
    | some e => exact .twEvt (hkey e rfl)
  have herr : FrameStep b c := .ite .refl (.setErr f err)
  have hcount : FrameStep c d := .ite .refl (FrameStep.trans (.put (by decide) _) (.raise1 _))
  exact (((hlast.trans hevt).trans herr).trans hcount).trans ⟨id, rfl, rfl⟩

theorem State.twAbandon_shows (s : State) (code : Nat) : FrameStep s (s.twAbandon code) ∧
    (s.twAbandon code).tw.frame = none := by
  unfold State.twAbandon
  split
  · exact State.twOutcome_shows _ _ _ _
  · exact State.twOutcome_shows _ _ _ _
  · next hframe _ => exact ⟨.refl, hframe⟩

theorem State.tw_attnSettle (s : State) (f : Fn) : (s.attnSettle f).tw.onBus = s.tw.onBus ∧
    (s.attnSettle f).tw.frame = s.tw.frame := by
  unfold State.attnSettle
  split
  · rw [State.attnWithdraw]
    have hover := ∀ v : State, True
    exact ⟨rfl, rfl⟩
  · exact ⟨rfl, rfl⟩

/-- An attempt that ends leaves the bus; no target frame comes or goes with it. -/
theorem State.attnEnd_shows (s : State) (code : Nat) (h : s.Tidy) : (s.attnEnd code).Tidy ∧
    (s.attnEnd code).coreRuns = s.coreRuns := by
  have hk := s.attnEnd_keeps code .refl (within?_self _)
  exact ⟨hk.tidy h, hk.coreRuns_eq (by decide) (by decide) (by decide)⟩

theorem State.tw_attnEnd (s : State) : (s.attnEnd 9).tw.onBus = none ∧ (s.attnEnd 9).tw.frame = s.tw.frame := by
  unfold State.attnEnd
  split
  · next f _ => exact State.tw_attnSettle _ f
  · next hbus => exact ⟨hbus, rfl⟩

/-- A reset of the block with CORE running shows the pulse and ends whatever was on the bus. -/
theorem State.twReset_shows (h : s.Tidy) (hruns : s.coreRuns = true) : s.twReset.Tidy ∧ s.twReset.coreRuns = true ∧
    s.twReset.bit TW_EVT.TWRST_SEEN = true ∧ s.twReset.tw.frame = none ∧ s.twReset.tw.onBus = none ∧
    s.twReset.pins = s.pins := by
  have hpins : s.twReset.pins = s.pins := (s.twReset_keeps .refl (within?_self _)).same (a := .pins) (by decide)
  have hbit : s.twReset.Tidy ∧ s.twReset.coreRuns = true ∧ s.twReset.bit TW_EVT.TWRST_SEEN = true ∧
      s.twReset.tw.frame = none ∧ s.twReset.tw.onBus = none := by
    obtain ⟨hstep, hframe⟩ := s.twAbandon_shows wTWRST
    unfold State.twReset
    have h1 := hstep.tidy h
    have hr1 := hstep.runs.trans hruns
    generalize s.twAbandon wTWRST = u at *
    obtain ⟨h2, hr2⟩ := u.attnEnd_shows 9 h1
    obtain ⟨hbus2, hframe2⟩ := u.tw_attnEnd
    generalize u.attnEnd 9 = v at *
    rw [State.twEvt_runs (hr2.trans hr1)]
    exact ⟨State.tidy_put h2, ((FrameStep.put (by decide) 1).runs.trans hr2).trans hr1,
      bit_eq_of_get (State.get_put_self h2 (by decide)), hframe2.trans hframe, hbus2⟩
  obtain ⟨h1, h2, h3, h4, h5⟩ := hbit
  exact ⟨h1, h2, h3, h4, h5, hpins⟩

/-- A pulse driven is counted, and resets the block too. -/
theorem State.twrstDrive_shows (h : s.Tidy) (hruns : s.coreRuns = true) : s.twrstDrive.Tidy ∧ s.twrstDrive.coreRuns = true ∧
    s.twrstDrive.bit TW_EVT.TWRST_SEEN = true ∧ s.twrstDrive.pins.twrstPulses = s.pins.twrstPulses + 1 := by
  obtain ⟨h1, hr, hseen, -, -, hpins⟩ := State.twReset_shows
    (s := { s with pins := { s.pins with twrstPulses := s.pins.twrstPulses + 1 } }) h hruns
  exact ⟨h1, hr, hseen, congrArg Pins.twrstPulses hpins⟩

theorem exec_twrstPulse {lowUs : Nat} (h : s.twAlive = true ∧ s.coreRuns = true ∧ 100 ≤ lowUs) :
    exec (.twrstPulse lowUs) s = .next s.twReset := by
  obtain ⟨halive, -, hlong⟩ := h
  change execTwrstPulse lowUs s = _
  rw [execTwrstPulse, if_neg (by simp [halive]; omega), if_pos hlong]

/-- A bus found stuck, after `n` pulses in a row. -/
def State.stuckDriven (s : State) (n : Nat) : State :=
  let s := s.twrstDrive.twEvt TW_EVT.STUCK_DRIVEN
  if 3 ≤ n then ({ s with tw := { s.tw with pulses := 0, dead := true } } : State).twEvt TW_EVT.BUS_DEAD
  else { s with tw := { s.tw with pulses := n } }

theorem exec_stuckBus {sda again : Bool} (h : s.bit TW_CFG.STUCK_RST_EN = true ∧ s.twAlive = true ∧ s.tw.dead = false ∧
    s.drivesLow sda = false) : exec (.stuckBus sda again) s =
      .next (s.stuckDriven (if again then s.tw.pulses + 1 else 1)) := by
  obtain ⟨hen, halive, hdead, hlow⟩ := h
  exact congrArg Host.Outcome.next (if_pos ⟨hen, halive, by simp [hdead], by simp [hlow]⟩)

/-- What a pulse in answer to a stuck bus shows. -/
theorem State.stuckDriven_shows (h : s.Tidy) (hruns : s.coreRuns = true) (n : Nat) :
    (s.stuckDriven n).pins.twrstPulses = s.pins.twrstPulses + 1 ∧ (s.stuckDriven n).bit TW_EVT.STUCK_DRIVEN = true ∧
    (3 ≤ n → (s.stuckDriven n).bit TW_EVT.BUS_DEAD = true ∧ (s.stuckDriven n).tw.dead = true) ∧
    (n < 3 → (s.stuckDriven n).tw.pulses = n) := by
  obtain ⟨h1, hr1, -, hpulses⟩ := State.twrstDrive_shows h hruns
  unfold State.stuckDriven
  generalize s.twrstDrive = u at *
  rw [State.twEvt_runs hr1]
  dsimp only
  have h2 : (u.put TW_EVT.STUCK_DRIVEN 1).Tidy := State.tidy_put h1
  have hr2 : (u.put TW_EVT.STUCK_DRIVEN 1).coreRuns = true := (FrameStep.put (by decide) 1).runs.trans hr1
  have hbit2 : (u.put TW_EVT.STUCK_DRIVEN 1).get TW_EVT.STUCK_DRIVEN = 1 := State.get_put_self h1 (by decide)
  have hpins2 : (u.put TW_EVT.STUCK_DRIVEN 1).pins = u.pins := rfl
  generalize u.put TW_EVT.STUCK_DRIVEN 1 = v at *
  by_cases hn : 3 ≤ n
  · rw [if_pos hn]
    have h3 : ({ v with tw := { v.tw with pulses := 0, dead := true } } : State).Tidy := h2
    rw [State.twEvt_runs (s := { v with tw := { v.tw with pulses := 0, dead := true } }) hr2]
    refine ⟨by rw [← hpulses, ← hpins2]; rfl, bit_eq_of_get (n := 1) ?_, fun _ => ⟨bit_eq_of_get (State.get_put_self h3 (by decide)), rfl⟩,
      fun hlt => absurd hlt (by omega)⟩
    exact (State.get_put_other h3 (by decide) (by decide) (by decide)).trans hbit2
  · rw [if_neg hn]
    exact ⟨by rw [← hpulses, ← hpins2], bit_eq_of_get hbit2, fun hge => absurd hge hn, fun _ => rfl⟩

/-! ### The command words -/

theorem State.coreRuns_regAccess (s : State) : s.regAccess.coreRuns = s.coreRuns := by
  unfold State.regAccess
  dsimp only
  split
  · rw [State.coreRuns_raise1]
    rfl
  · rfl

/-- The row of `TW_CMD`: CNT_CLR and BUS_RESET are command bits. -/
def twCmdDef : RegDef := ⟨0x88E, 0, 0, 0, 3, 0⟩

theorem regDef_twCmd : regDef? TW_CMD.w.key = some twCmdDef := by decide

theorem legalWord_twCmd (f : Fn) (w : Word) : legalWord f TW_CMD.w.key w = true := by
  rw [legalWord_of_unranged (by decide), extraLegal]
  simp (decide := true) only [if_false]

theorem State.cmdWrite_twCmd (w : Word) (h : Serves s f 0x8) : s.cmdWrite f TW_CMD.w w =
    s.regAccess.woBits f w [(0, fun s => s.zeroRegs TW_CNT_ERR.w.key 3), (1, State.twrstDrive)] := by
  rw [State.cmdWrite_page_legal regDef_twCmd (by decide) (by decide) rfl (by decide) (legalWord_twCmd f w) h]
  rfl

theorem exec_twBusReset (h : Serves s f 0x8) :
    exec (.twBusReset f) s = .next (s.regAccess.errAfter (s.regAccess.setErr f 0).twrstDrive f) := by
  rw [show exec (.twBusReset f) s = .next (s.cmdWrite f TW_CMD.w 2) from rfl, State.cmdWrite_twCmd 2 h,
    State.woBits_single (b := 1) (act := State.twrstDrive) (by simp)]

theorem exec_twCntClr (h : Serves s f 0x8) : exec (.twCntClr f) s =
    .next (s.regAccess.errAfter ((s.regAccess.setErr f 0).zeroRegs TW_CNT_ERR.w.key 3) f) := by
  rw [show exec (.twCntClr f) s = .next (s.cmdWrite f TW_CMD.w 1) from rfl, State.cmdWrite_twCmd 1 h,
    State.woBits_single (b := 0) (act := fun s => s.zeroRegs TW_CNT_ERR.w.key 3) (by simp)]

/-- The row of `ATTN_ACK`: the host writes the number it acknowledges. -/
def attnAckDef : RegDef := ⟨0x7, 0, 15, 0, 0, 0⟩

theorem regDef_attnAck (f : Fn) : regDef? (commonKey f.toNat ATTN_ACK.w.key) = some attnAckDef := by cases f <;> decide

/-- An acknowledgement with the message's own number withdraws it. -/
theorem exec_attnAckWrite {v : Word} (h : Serves s f 0) (hseq : v.toNat % 16 = s.fget f ATTN_ACK.SEQ)
    (hlegal : legalWord f ATTN_ACK.w.key v = true) : exec (.attnAckWrite f v) s = .next (s.regAccess.attnCancel f) := by
  have hnum : v.toNat % 16 = s.regAccess.fget f ATTN_ACK.SEQ := by
    rw [hseq]
    exact ((s.regAccess_keeps .refl (within?_self _)).fget_eq (by decide)).symm
  rw [show exec (.attnAckWrite f v) s = .next (s.cmdWrite f ATTN_ACK.w v) from rfl,
    State.cmdWrite_common_legal (regDef_attnAck f) (by decide) (by decide) rfl (by decide) hlegal h]
  simp (decide := true) only [State.writeCommon, baseKey_common, if_true, if_false, hnum]

theorem State.attnCancel_off (hout : s.fget f ATTN_ACK.OUT = 1) (hbus : s.tw.onBus ≠ some f) :
    s.attnCancel f = s.attnWithdraw f := by
  rw [State.attnCancel, if_neg (by omega), if_neg hbus]

/-- Registers that are cleared read 0. -/
theorem State.reg_zeroRegs {k n j : Nat} (h : s.Tidy) (hlo : k ≤ j) (hhi : j < k + n) : (s.zeroRegs k n).reg j = 0 := by
  induction n generalizing s with
  | zero => omega
  | succ n ih =>
    by_cases hj : j < k + n
    · exact ih (s := s.setReg (k + n) 0) ⟨Sparse.wf_put _ _ _ h.1, h.2⟩ hj
    · obtain rfl : j = k + n := by omega
      have hkeep : ∀ m : Nat, ∀ v : State, m ≤ n → (v.zeroRegs k m).reg (k + n) = v.reg (k + n) := by
        intro m
        induction m with
        | zero => exact fun _ _ => rfl
        | succ m ihm =>
          intro v hm
          exact (ihm _ (by omega)).trans (v.reg_setReg_ne 0 (by omega))
      exact (hkeep n _ (Nat.le_refl n)).trans (State.reg_setReg h.1 _ _)

theorem State.get_zeroRegs {k n : Nat} {x : Fld} (h : s.Tidy) (hlo : k ≤ x.key) (hhi : x.key < k + n) :
    (s.zeroRegs k n).get x = 0 := by
  rw [State.get, State.reg_zeroRegs h hlo hhi]
  simp

/-- Settles O17: the message by the lemmas on its parts, a lost attempt by `State.attnLost_quiet` and
`State.attnLost_cancelled`, the pulses by `State.twReset_shows` and `State.stuckDriven_shows`. -/
theorem attentionCommandsComplete : Obligations.AttentionCommandsComplete := by
  unfold Obligations.AttentionCommandsComplete
  refine ⟨fun f s hc h => ?_, fun f => .intro _ (fun s h => exec_attentionAttempt_sent h) fun s hc ⟨hmay, hcancel⟩ => ?_,
    fun f => .intro _ (fun s h => exec_attentionRepeat s f h) fun s _ _ => ?_,
    fun f => .intro _ (fun s ⟨h1, h2, h3, h4, _⟩ => exec_attnFallback s f ⟨h1, h2, h3, h4⟩) fun s hc ⟨_, _, _, _, hruns⟩ => ?_,
    fun f v => .intro _ (fun s ⟨hserves, _, hseq, hlegal, _⟩ => exec_attnAckWrite hserves hseq hlegal)
      fun s hc ⟨hserves, hout, _, _, hbus⟩ => ?_,
    fun f => .intro _ (fun s ⟨hbus, _, _⟩ => exec_arbLost s f hbus) fun s hc ⟨_, hcancel, hfew⟩ => ?_,
    fun f => .intro _ (fun s ⟨hbus, _⟩ => exec_arbLost s f hbus) fun s hc ⟨_, hcancel⟩ =>
      State.attnLost_cancelled hc.tidy f 6 hcancel,
    fun f => .intro _ (fun s ⟨hbus, _, _⟩ => exec_twArbSr s f hbus) fun s hc ⟨_, hcancel, hruns⟩ => ?_,
    fun f => .intro _ (fun s h => exec_arbBackoffExpiry s f h) fun s _ _ => ?_,
    fun lowUs => .intro _ (fun s h => exec_twrstPulse h) fun s hc ⟨_, hruns, _⟩ => ?_,
    fun sda => .intro _ (fun s ⟨h1, h2, h3, h4, _⟩ => exec_stuckBus ⟨h1, h2, h3, h4⟩) fun s hc ⟨_, _, _, _, hruns⟩ => ?_,
    fun sda => .intro _ (fun s ⟨h1, h2, h3, h4, _⟩ => exec_stuckBus ⟨h1, h2, h3, h4⟩)
      fun s hc ⟨_, _, _, _, hruns, hpulses⟩ => ?_,
    .intro _ (fun s h => congrArg Host.Outcome.next (if_pos h)) fun s _ _ => ⟨rfl, rfl, OnlyRegs.refl⟩,
    .intro _ (fun s ⟨h, _⟩ => exec_twBusReset h) fun s hc ⟨_, hruns⟩ => ?_,
    .intro _ (fun s h => exec_twCntClr h) fun s hc _ => ?_⟩
  case refine_1 =>
    obtain ⟨t, hexec, hshows⟩ := exec_attentionMessageForm s f h
    exact ⟨t, hexec, hshows hc.tidy⟩
  case refine_2 =>
    obtain ⟨-, htw, htries, hout, hhost, hcnt⟩ := State.attnStart_shows hc.tidy f
    have hset : s.fget f ATTN_ACK.OUT = 1 := by
      simp only [State.attnMayStart, Bool.and_eq_true, beq_iff_eq] at hmay
      omega
    generalize s.attnStart f = u at *
    obtain ⟨hbus, hfget, hhost2, hcnt2⟩ := State.attnEnd_sent (s := u) (f := f) (by rw [htw]) (by rw [htw]; exact hcancel)
    exact ⟨hbus, (hfget _).trans htries, ((hfget _).trans hout).trans hset, hhost2.trans hhost, hcnt2.trans hcnt⟩
  case refine_3 => rw [State.attn_setAttn_wake]
  case refine_4 =>
    have hk : Keeps (areasMask [.reg ATTN_ACK.w]) s (s.fput f ATTN_ACK.FALLBACK 1) := State.fput_keeps _ _ _ _ .refl (by decide)
    have h1 := hk.tidy hc.tidy
    have hset : (s.fput f ATTN_ACK.FALLBACK 1).fget f ATTN_ACK.FALLBACK = 1 := State.fget_fput_self hc.tidy (by decide)
    have hr1 := (hk.coreRuns_eq (by decide) (by decide) (by decide)).trans hruns
    generalize s.fput f ATTN_ACK.FALLBACK 1 = u at *
    rw [State.twEvt_runs hr1]
    have h2 : (u.put TW_EVT.ATTN_FALLBACK 1).Tidy := State.tidy_put h1
    refine ⟨?_, bit_eq_of_get (n := 1) ?_, State.fget_raise1_same h2.canon (by decide)⟩
    · rw [State.fget_raise1_other _ _ (by decide) (.inr (by decide)), State.fget_put (by decide), hset]
    · rw [State.get_raise1 (by decide) (by decide), State.get_put_self h1 (by decide)]
      rfl
  case refine_5 =>
    have hacc := s.regAccess_keeps .refl (within?_self _)
    have h1 := hacc.tidy hc.tidy
    rw [State.attnCancel_off ((hacc.fget_eq (by decide)).trans hout)
      (by rw [Eq.trans (hacc.same (a := .twoWire) (by decide)) rfl]; exact hbus)]
    exact State.attnOver_shows (State.tidy_attnStat h1 f _ _) f
  case refine_6 =>
    obtain ⟨-, hbus, hback, -, hcount⟩ := State.attnLost_quiet hc.tidy f 6 hcancel
    exact ⟨hbus, hback, hcount hfew⟩
  case refine_7 =>
    obtain ⟨h1, hbus, hback, hr, -⟩ := State.attnLost_quiet hc.tidy f 7 hcancel
    generalize s.attnLost f 7 = u at *
    rw [State.twEvt_runs (hr.trans hruns)]
    have h2 : (u.put TW_EVT.ARB_SR 1).Tidy := State.tidy_put h1
    refine ⟨?_, ?_, bit_eq_of_get (n := 1) ?_, State.fget_raise1_same h2.canon (by decide)⟩
    · rw [State.tw_raise1]
      exact hbus
    · rw [State.backoff_raise1]
      exact hback
    · rw [State.get_raise1 (by decide) (by decide), State.get_put_self h1 (by decide)]
      rfl
  case refine_8 => rw [State.attn_setAttn_wake]; exact ⟨rfl, rfl⟩
  case refine_9 =>
    obtain ⟨-, -, hseen, hframe, hbus, -⟩ := State.twReset_shows hc.tidy hruns
    exact ⟨hseen, hframe, hbus⟩
  case refine_10 =>
    obtain ⟨hpins, hbit, -, hpulses⟩ := State.stuckDriven_shows hc.tidy hruns 1
    exact ⟨hbit, hpins, hpulses (by decide)⟩
  case refine_11 =>
    obtain ⟨hpins, -, hdead, -⟩ := State.stuckDriven_shows hc.tidy hruns 3
    obtain ⟨hbit, hdead⟩ := hdead (Nat.le_refl 3)
    rw [if_pos rfl, hpulses]
    exact ⟨hbit, hpins, hdead⟩
  case refine_12 =>
    have hacc := s.regAccess_keeps .refl (within?_self _)
    have h1 := hacc.tidy hc.tidy
    have hr1 := s.coreRuns_regAccess.trans hruns
    have hpins : s.regAccess.pins = s.pins := hacc.same (a := .pins) (by decide)
    generalize s.regAccess = u at *
    have hstep := FrameStep.setErr (s := u) .f0 0
    have hpins2 : (u.setErr .f0 0).pins = u.pins := rfl
    obtain ⟨-, -, hseen, hpulses⟩ := State.twrstDrive_shows (hstep.tidy h1) (hstep.runs.trans hr1)
    refine ⟨?_, (State.bit_of_get_eq (State.get_errAfter (by decide))).trans hseen⟩
    rw [show (u.errAfter (u.setErr .f0 0).twrstDrive .f0).pins = (u.setErr .f0 0).twrstDrive.pins from rfl, hpulses, hpins2, hpins]
  case refine_13 =>
    have h1 : s.regAccess.Tidy := State.tidy_regAccess hc.tidy
    generalize s.regAccess = u at *
    have h2 : (u.setErr .f0 0).Tidy := State.tidy_setErr h1 _
    generalize u.setErr .f0 0 = v at *
    refine ⟨?_, ?_, ?_⟩ <;> rw [State.get_errAfter (by decide)] <;>
      exact State.get_zeroRegs h2 (by decide) (by decide)

end Sys2Proof.Machine
end

section
/-! PROOFS. The host serial port (O15), and what a frame on either port does with INT_EN0. -/

namespace Sys2Proof.Machine

open R

variable {s t u : State} {f g : Fn}

/-! ### A served word for INT_EN0 -/

/-- What lets an access to the common part be served. -/
theorem Serves.congr (h : Serves s f 0) (hready : t.mode.ready = s.mode.ready)
    (hbusy : t.fget f FN_STATE.RESET_BUSY = s.fget f FN_STATE.RESET_BUSY)
    (hstage : t.get BOOT_STAT.STAGE = s.get BOOT_STAT.STAGE) : Serves t f 0 := by
  obtain ⟨h1, h2, h3, -⟩ := h
  exact ⟨hready.trans h1, hbusy.trans h2, by rwa [State.hostLoading, hstage], .inr (.inl rfl)⟩

/-- The row of INT_EN0. -/
def intEn0Def : RegDef := ⟨0x12, 0, 0xFFFF, 0, 0, 0⟩

theorem regDef_intEn0 (f : Fn) : regDef? (commonKey f.toNat 0x12) = some intEn0Def := by cases f <;> decide

theorem legalWord_intEn0 (f : Fn) (w : Word) : legalWord f 0x12 w = true := by
  rw [legalWord_of_unranged (by decide), extraLegal]
  simp (decide := true) only [if_false]

theorem RegDef.merge_intEn0 (old v : Word) (locked : Bool) : intEn0Def.merge old v locked = v := by
  have hfull : (BitVec.ofNat 16 0xFFFF : Word) ||| (if locked then 0 else BitVec.ofNat 16 0) = BitVec.allOnes 16 := by
    cases locked <;> decide
  rw [RegDef.merge, show intEn0Def.rw = 0xFFFF from rfl, show intEn0Def.rwl = 0 from rfl, show intEn0Def.w1c = 0 from rfl, hfull]
  simpa using BitVec.and_allOnes (x := v)

/-- A served word for INT_EN0 is stored as it is. -/
theorem State.hostWrite_intEn0 (v : Word) (h : Serves s f 0) :
    s.hostWrite f 0x12 v false = s.setReg (commonKey f.toNat 0x12) v := by
  have hgate : s.gate f 0x12 (some (commonKey f.toNat 0x12)) true false = .serve :=
    (State.gate_of_serves 0x12 (by rw [keyPage_common]; exact h)).trans
      (gate3_common (regDef_intEn0 f) (by decide) (by decide))
  simp only [State.hostWrite, State.writeKey, s.keyAt_common f (show 0x12 < 0x80 by decide), hgate]
  rw [State.writeReg_of_legal (regDef_intEn0 f) rfl (by decide) (by rw [baseKey_common f (by decide)]; exact legalWord_intEn0 f v),
    RegDef.merge_intEn0, State.writeEffect_common]
  simp (decide := true) only [State.writeCommon, baseKey_common, if_false, false_and]

/-- The state after a frame has written INT_EN0: the frame counted in `FN_SEQ`, the access, and the word. -/
def State.intEnCommitted (s : State) (f : Fn) (w : Word) : State :=
  (s.fput f FN_SEQ.w (s.fget f FN_SEQ.w + 1)).regAccess.setReg (commonKey f.toNat 0x12) w

theorem State.commitWords_intEn0 (w : Word) (h : Serves s f 0) :
    s.commitWords f false true [(0x12, w)] = (true, s.intEnCommitted f w) := by
  have hready : s.mode.ready = true := h.1
  have hk : Keeps (areasMask [.reg FN_SEQ.w]) s (s.fput f FN_SEQ.w (s.fget f FN_SEQ.w + 1)) :=
    State.fput_keeps _ _ _ _ .refl (by decide)
  have hserves : Serves (s.fput f FN_SEQ.w (s.fget f FN_SEQ.w + 1)) f 0 :=
    h.congr rfl (hk.fget_eq (by decide)) (hk.get_eq (by decide))
  have hafter := hserves.regAccess
  rw [State.commitWords, if_pos (by simp [State.served, hready])]
  change ((s.fput f FN_SEQ.w (s.fget f FN_SEQ.w + 1)).regAccess).commitFrom f false [(0x12, w)] = _
  rw [State.intEnCommitted]
  generalize (s.fput f FN_SEQ.w (s.fget f FN_SEQ.w + 1)).regAccess = u at *
  rw [State.commitFrom, if_pos (by simp [State.served, hafter.1]), State.commitFrom, State.hostWrite_intEn0 w hafter]

/-- The areas that such a frame changes before its end. -/
def intEnMask : Nat := areasMask [.counters, .mode, .engines, .reg INT_STAT1.w, .reg WAKE_HREASON.w, .reg FN_SEQ.w, .reg INT_EN0.w]

theorem State.intEnCommitted_frame (s : State) (f : Fn) (w : Word) : Keeps intEnMask s (s.intEnCommitted f w) := by
  have hput : Keeps intEnMask s (s.fput f FN_SEQ.w (s.fget f FN_SEQ.w + 1)) := State.fput_keeps _ _ _ _ .refl (by decide)
  refine (State.regAccess_keeps _ hput (by decide)).setReg ?_
  cases f <;> decide

/-- What it leaves. -/
theorem State.intEnCommitted_shows (h : s.Tidy) (f : Fn) (w : Word) : (s.intEnCommitted f w).Tidy ∧
    (s.intEnCommitted f w).fget f INT_EN0.w = w.toNat ∧
    (s.intEnCommitted f w).fget f FN_SEQ.w = (s.fget f FN_SEQ.w + 1) % 0x10000 ∧
    ∃ a : Attn, (s.intEnCommitted f w).eng f = { s.eng f with attn := a } := by
  refine ⟨(s.intEnCommitted_frame f w).tidy h, ?_, ?_, ?_⟩
  all_goals
    rw [State.intEnCommitted]
  case refine_1 =>
    have h1 : (s.fput f FN_SEQ.w (s.fget f FN_SEQ.w + 1)).regAccess.Tidy := State.tidy_regAccess (State.tidy_fput h)
    generalize (s.fput f FN_SEQ.w (s.fget f FN_SEQ.w + 1)).regAccess = u at *
    have hreg : (u.setReg (commonKey f.toNat 0x12) w).reg (commonKey f.toNat 0x12) = w := State.reg_setReg h1.1 _ _
    change ((u.setReg (commonKey f.toNat 0x12) w).reg (commonKey f.toNat 0x12)).toNat / 2 ^ 0 % 0x10000 = _
    rw [hreg]
    have := w.isLt
    omega
  case refine_2 =>
    have hacc := (s.fput f FN_SEQ.w (s.fget f FN_SEQ.w + 1)).regAccess_keeps .refl (within?_self _)
    have hseq : (s.fput f FN_SEQ.w (s.fget f FN_SEQ.w + 1)).regAccess.fget f FN_SEQ.w = (s.fget f FN_SEQ.w + 1) % 0x10000 :=
      (hacc.fget_eq (by decide)).trans (State.fget_fput_self h (by decide))
    generalize (s.fput f FN_SEQ.w (s.fget f FN_SEQ.w + 1)).regAccess = u at *
    rw [← hseq]
    have hk : Keeps (areasMask [.reg INT_EN0.w]) u (u.setReg (commonKey f.toNat 0x12) w) :=
      Keeps.refl.setReg (by cases f <;> decide)
    exact hk.fget_eq (by decide)
  case refine_3 => exact State.eng_regAccess _ f

/-! ### The read of INT_EN0 -/

theorem State.gate_read_common {off : Nat} (h : Serves s f 0) :
    s.gate f off (some (commonKey f.toNat off)) false false = gate3 f (commonKey f.toNat off) := by
  obtain ⟨hready, hbusy, hload, -⟩ := h
  have h2 : s.gate2 f 0 false = .serve := by simp [State.gate2]
  simp only [State.gate, State.gate1_serve _ _ _ hready hbusy hload, keyPage_common, h2]

/-- INT_EN0 reads its stored word, and the read changes nothing. -/
theorem State.fetch_intEn0 (p : HostPort) (h : Serves s f 0) :
    s.fetch p f 0x12 false = (s.reg (commonKey f.toNat 0x12), s) := by
  have hgate := (State.gate_read_common (off := 0x12) h).trans (gate3_common (regDef_intEn0 f) (by decide) (by decide))
  rw [State.fetch_of_serve p (s.keyAt_common f (by decide)) hgate, State.readKey, baseKey_common f (by decide),
    if_neg (by decide), show groupOf 0x12 = none from by decide]
  cases f <;> rfl

/-- A fetch of INT_EN1, which a word of INT_EN0 is followed by, changes nothing. -/
theorem State.fetch_intEn1 (p : HostPort) (h : Serves s f 0) : (s.fetch p f 0x13 false).2 = s := by
  have hgate := State.gate_read_common (off := 0x13) h
  by_cases hf : f = .f0
  · subst hf
    rw [State.fetch_of_serve p (s.keyAt_common .f0 (by decide)) (hgate.trans (by decide)), State.readKey,
      baseKey_common .f0 (by decide), if_neg (by decide), show groupOf 0x13 = none from by decide]
    rfl
  · have hnone : gate3 f (commonKey f.toNat 0x13) = .reserved := by
      rw [gate3, baseKey_common f (by decide), if_pos (.inr ⟨hf, .inr rfl⟩)]
    rw [State.fetch, s.keyAt_common f (by decide), hgate, hnone]

theorem State.remove_intEn0 (f : Fn) : s.remove f 0x12 false = s := by
  rw [State.remove]
  split <;> simp

/-- A read of one word of INT_EN0, whatever the address of the word fetched ahead. -/
theorem State.readWords_intEn0 (p : HostPort) (off : Nat → Nat) (h : Serves s f 0) (h0 : off 0 = 0x12)
    (h1 : off 1 = 0x12 ∨ off 1 = 0x13) :
    s.readWords p f off none none false 1 1 = ([s.reg (commonKey f.toNat 0x12)], s) := by
  have hahead : (s.fetch p f (off 1) false).2 = s := by
    rcases h1 with e | e <;> rw [e]
    · rw [State.fetch_intEn0 p h]
    · exact State.fetch_intEn1 p h
  have hstays : removing (off 0) = false := by rw [h0]; rfl
  rw [State.readWords, if_neg (by simp), h0, State.fetch_intEn0 p h]
  dsimp only
  rw [State.readFrom, if_neg (by simp), if_neg (by simp)]
  simp only [Nat.zero_add, hstays, Bool.and_false, Bool.false_eq_true, false_or, false_and, if_false,
    show ((none : Option Nat) == some 1) = false from rfl, Nat.one_ne_zero]
  rw [hahead, h0, State.remove_intEn0, State.readFrom]

end Sys2Proof.Machine
end

section
/-! PROOFS. The frames of the host serial port and what ends them (O15). -/

namespace Sys2Proof.Machine

open R

variable {s t u : State} {f g : Fn} {cmd : Byte}

/-! ### The end of a frame -/

/-- A complete frame with READY = 1: counted, its last bytes shown, and nothing raised. -/
def State.spiGood (s : State) (f : Fn) (bytes : Nat) : State :=
  { (s.put HP_LAST.w (0 * 0x1000 + f.toNat * 0x400 + min bytes 0x3FF)).add32 HP_FRAMES_L.w 1 with spi := ⟨none, false⟩ }

theorem State.spiEnd_good {bits : Nat} (hcur : s.get MODE.CUR ≠ 0) (hbits : 3 ≤ bits) :
    s.spiEnd cmd bits 0 true [] .rise = s.spiGood (cmdFn cmd) (bits / 8) := by
  rw [State.spiEnd, if_neg hcur]
  rw [if_neg (by omega)]
  rfl

theorem State.spiGood_shows (h : s.Tidy) (f : Fn) {bytes : Nat} (hb : bytes < 0x400) :
    (s.spiGood f bytes).get HP_LAST.w = f.toNat * 0x400 + bytes ∧ (s.spiGood f bytes).spi = ⟨none, false⟩ ∧
    (s.spiGood f bytes).hostOut = s.hostOut ∧ (s.spiGood f bytes).mem = s.mem ∧
    (∀ x, (s.spiGood f bytes).fget f x = s.fget f x) := by
  have hf := Fn.toNat_le f
  have hput : Keeps (areasMask [.reg HP_LAST.w]) s (s.put HP_LAST.w (0 * 0x1000 + f.toNat * 0x400 + min bytes 0x3FF)) :=
    State.put_keeps _ _ _ .refl (by decide)
  have hlast : (s.put HP_LAST.w (0 * 0x1000 + f.toNat * 0x400 + min bytes 0x3FF)).get HP_LAST.w = f.toNat * 0x400 + bytes := by
    rw [State.get_put_self h (by decide), Nat.min_eq_left (by omega), Nat.zero_mul, Nat.zero_add]
    exact Nat.mod_eq_of_lt (b := 0x10000) (by omega)
  have hfget : ∀ x : Fld,
      (s.put HP_LAST.w (0 * 0x1000 + f.toNat * 0x400 + min bytes 0x3FF)).fget f x = s.fget f x :=
    fun _ => State.fget_put (by decide)
  have hmem : (s.put HP_LAST.w (0 * 0x1000 + f.toNat * 0x400 + min bytes 0x3FF)).mem = s.mem := rfl
  have hout : (s.put HP_LAST.w (0 * 0x1000 + f.toNat * 0x400 + min bytes 0x3FF)).hostOut = s.hostOut := rfl
  rw [State.spiGood]
  generalize s.put HP_LAST.w (0 * 0x1000 + f.toNat * 0x400 + min bytes 0x3FF) = u at *
  have hk : Keeps (areasMask [.reg HP_FRAMES_L.w, .reg HP_FRAMES_H.w]) u (u.add32 HP_FRAMES_L.w 1) :=
    State.add32_keeps _ _ _ .refl (by decide) (by decide)
  refine ⟨(hk.get_eq (by decide)).trans hlast, rfl, Eq.trans (hk.same (a := .hostOut) (by decide)) hout,
    Eq.trans (hk.same (a := .memory) (by decide)) hmem, fun x => ?_⟩
  rw [← hfget x]
  change (u.add32 HP_FRAMES_L.w 1).fget f x = _
  rw [State.add32, State.put32, State.fget_put (by decide), State.fget_put (by decide)]

/-! ### Frames that write and read INT_EN0 -/

/-- A unit that does not rest has nothing to wake. -/
theorem State.wake_awake (h : s.mode.resting = false) (c : Nat) : s.wake c = s := if_neg (by simp [h])

/-- What a frame begins with in a unit that does not rest. -/
theorem State.spiStart_awake (h : s.mode.resting = false) : s.spiStart cmd = { s with hostOut := [s.status16 (cmdFn cmd)] } :=
  State.wake_awake (s := { s with hostOut := [s.status16 (cmdFn cmd)] }) h 2

theorem cur_of_spiSees (h : s.spiSees = true) : s.get MODE.CUR ≠ 0 := by
  simp only [State.spiSees, Bool.and_eq_true, bne_iff_ne] at h
  exact h.1.2

theorem cmdAddr_zero (cmd : Byte) : cmdAddr cmd 0x12 0 = 0x12 := by simp [cmdAddr]

theorem cmdAddr_one (cmd : Byte) : cmdAddr cmd 0x12 1 = 0x12 ∨ cmdAddr cmd 0x12 1 = 0x13 := by
  unfold cmdAddr
  cases cmd.getLsbD 4 <;> simp

/-- The rows of the frame table find nothing to refuse. -/
theorem State.headRows_clean {bits : Nat} (hbits : 16 ≤ bits) (hcmd : cmd.toNat % 8 = 0)
    (hshape : cmd.getLsbD 3 = true ∨ (bits % 16 = 0 ∧ s.bit HP_CFG.CRC_REQ = false)) (l : List (Bool × Nat)) :
    firstOf (s.headRows cmd bits ++ l) = firstOf l := by
  have hlong : ¬ bits < 16 := by omega
  rcases hshape with h | ⟨h1, h2⟩
  · rw [State.headRows, h]
    simp [firstOf, hlong, hcmd]
  · simp [State.headRows, firstOf, hlong, hcmd, h1, h2]

/-- The state in which the words of a frame commit or are read. -/
def State.spiBegun (s : State) (f : Fn) : State := { s with hostOut := [s.status16 f] }

theorem exec_spiWriteFrame {w : Word} (h : s.spiSees = true ∧ s.mode.ready = true ∧ s.mode.resting = false ∧
    s.bit HP_CFG.CRC_REQ = false ∧ Serves s (cmdFn cmd) 0 ∧ cmd.getLsbD 7 = false ∧ cmd.getLsbD 3 = false ∧
    cmd.toNat % 8 = 0) : exec (.spiWriteFrame cmd 0x12 [w] 32 .rise) s =
      .next (((s.spiBegun (cmdFn cmd)).intEnCommitted (cmdFn cmd) w).spiGood (cmdFn cmd) 4) := by
  obtain ⟨hsees, hready, hrest, hreq, hserves, h7, h3, hcmd⟩ := h
  have hvalid : s.spiValid cmd = true := by simp [State.spiValid, hready, hcmd, hreq]
  have hlist : (([w].take ((32 - 16) / 16)).zipIdx.map fun e => (cmdAddr cmd 0x12 e.2, e.1)) = [(0x12, w)] :=
    congrArg (fun a => [(a, w)]) (cmdAddr_zero cmd)
  have hserves2 : Serves (s.spiBegun (cmdFn cmd)) (cmdFn cmd) 0 := hserves
  have hcur : ((s.spiBegun (cmdFn cmd)).intEnCommitted (cmdFn cmd) w).get MODE.CUR ≠ 0 := by
    rw [((s.spiBegun (cmdFn cmd)).intEnCommitted_frame (cmdFn cmd) w).get_eq (by decide)]
    exact cur_of_spiSees hsees
  change execSpiWriteFrame cmd 0x12 [w] 32 .rise s = _
  rw [execSpiWriteFrame, if_neg (by rw [hsees, h7, h3]; decide), if_neg (by decide)]
  dsimp only
  rw [hvalid, if_pos rfl, hlist, State.spiStart_awake hrest, ← State.spiBegun, State.commitWords_intEn0 w hserves2,
    State.headRows_clean (by decide) hcmd (.inr ⟨by decide, hreq⟩), hready]
  exact congrArg Host.Outcome.next (State.spiEnd_good hcur (by decide))

theorem exec_spiWriteCrcFrame {w : Word} (h : s.spiSees = true ∧ s.mode.ready = true ∧ s.mode.resting = false ∧
    Serves s (cmdFn cmd) 0 ∧ cmd.getLsbD 7 = false ∧ cmd.getLsbD 3 = true ∧ cmd.toNat % 8 = 0) :
    exec (.spiWriteCrcFrame cmd 0x12 [w] (crc8 (cmd :: 0x12 :: bytesOfWords [w])) 40 .rise) s =
      .next (((s.spiBegun (cmdFn cmd)).intEnCommitted (cmdFn cmd) w).spiGood (cmdFn cmd) 5) := by
  obtain ⟨hsees, hready, hrest, hserves, h7, h3, hcmd⟩ := h
  have hvalid : s.spiValid cmd = true := by simp [State.spiValid, hready, hcmd, h3]
  have hlist : ([w].zipIdx.map fun e => (cmdAddr cmd 0x12 e.2, e.1)) = [(0x12, w)] :=
    congrArg (fun a => [(a, w)]) (cmdAddr_zero cmd)
  have htake : [w].take ((40 / 8 - 3) / 2) = [w] := rfl
  have hserves2 : Serves (s.spiBegun (cmdFn cmd)) (cmdFn cmd) 0 := hserves
  have hcur : ((s.spiBegun (cmdFn cmd)).intEnCommitted (cmdFn cmd) w).get MODE.CUR ≠ 0 := by
    rw [((s.spiBegun (cmdFn cmd)).intEnCommitted_frame (cmdFn cmd) w).get_eq (by decide)]
    exact cur_of_spiSees hsees
  change execSpiWriteCrcFrame cmd 0x12 [w] _ 40 .rise s = _
  rw [execSpiWriteCrcFrame, if_neg (by rw [hsees, h7, h3]; decide), if_neg (by decide)]
  dsimp only
  rw [htake, List.append_assoc, State.headRows_clean (by decide) hcmd (.inl h3), State.headRows_clean (by decide) hcmd (.inl h3)]
  simp (decide := true) only [firstOf, beq_self_eq_true, Bool.not_true, hvalid, List.cons_append, List.nil_append,
    if_true, if_false, Bool.and_self, Bool.false_eq_true]
  rw [hlist, State.spiStart_awake hrest, ← State.spiBegun, State.commitWords_intEn0 w hserves2, hready]
  exact congrArg Host.Outcome.next (State.spiEnd_good hcur (by decide))

/-- A read frame that returned a word: the access, and the words put out. -/
def State.spiReturned (s : State) (f : Fn) (l : List Word) : State :=
  { (s.spiBegun f).regAccess with hostOut := (s.spiBegun f).regAccess.hostOut ++ l }

theorem State.hostOut_spiReturned (s : State) (f : Fn) (l : List Word) : (s.spiReturned f l).hostOut = s.status16 f :: l :=
  congrArg (· ++ l) ((s.spiBegun f).regAccess_keeps .refl (within?_self _) |>.same (a := .hostOut) (by decide))

theorem State.spiReturned_frame (s : State) (f : Fn) (l : List Word) :
    Keeps (areasMask ([.counters, .mode, .engines, .reg INT_STAT1.w, .reg WAKE_HREASON.w, .hostOut])) s (s.spiReturned f l) := by
  have hout : Keeps (areasMask ([.counters, .mode, .engines, .reg INT_STAT1.w, .reg WAKE_HREASON.w, .hostOut])) s (s.spiBegun f) :=
    by simp (decide := true) only [State.spiBegun, ↓Keeps.mk, ↓Keeps.refl, or_true, true_or, eq_self]
  have hacc : Keeps (areasMask ([.counters, .mode, .engines, .reg INT_STAT1.w, .reg WAKE_HREASON.w, .hostOut])) s
      (s.spiBegun f).regAccess := State.regAccess_keeps _ hout (by decide)
  rw [State.spiReturned]
  generalize (s.spiBegun f).regAccess = u at *
  simp (decide := true) only [↓Keeps.mk, or_true, true_or, eq_self, hacc]

theorem State.spiRead_intEn0 {bits head stride : Nat} (h : Serves s (cmdFn cmd) 0) (hhead : head ≤ bits)
    (hone : started bits head stride = 1 ∧ clocked bits head stride = 1) :
    s.spiRead cmd 0x12 none none bits head stride true = ([s.reg (commonKey (cmdFn cmd).toNat 0x12)], s.regAccess) := by
  obtain ⟨hm, hn⟩ := hone
  rw [State.spiRead]
  dsimp only
  rw [if_pos ⟨rfl, hhead⟩, hm, hn, State.readWords_intEn0 .spi _ h (cmdAddr_zero cmd) (cmdAddr_one cmd)]
  exact congrArg (Prod.mk _) (if_neg (by simp))

theorem exec_spiReadFrame (h : s.spiSees = true ∧ s.mode.ready = true ∧ s.mode.resting = false ∧
    s.bit HP_CFG.CRC_REQ = false ∧ Serves s (cmdFn cmd) 0 ∧ cmd.getLsbD 7 = true ∧ cmd.getLsbD 3 = false ∧
    cmd.toNat % 8 = 0) : exec (.spiReadFrame cmd 0x12 none none 32 .rise) s =
      .next ((s.spiReturned (cmdFn cmd) [s.reg (commonKey (cmdFn cmd).toNat 0x12)]).spiGood (cmdFn cmd) 4) := by
  obtain ⟨hsees, hready, hrest, hreq, hserves, h7, h3, hcmd⟩ := h
  have hvalid : s.spiValid cmd = true := by simp [State.spiValid, hready, hcmd, hreq]
  have hserves2 : Serves (s.spiBegun (cmdFn cmd)) (cmdFn cmd) 0 := hserves
  have hread := State.spiRead_intEn0 (bits := 32) (head := 16) (stride := 16) hserves2 (by decide) ⟨rfl, rfl⟩
  have hcur : (s.spiReturned (cmdFn cmd) [s.reg (commonKey (cmdFn cmd).toNat 0x12)]).get MODE.CUR ≠ 0 := by
    rw [(s.spiReturned_frame (cmdFn cmd) _).get_eq (by decide)]
    exact cur_of_spiSees hsees
  change execSpiReadFrame cmd 0x12 none none 32 .rise s = _
  rw [execSpiReadFrame, if_neg (by rw [hsees, h7, h3]; decide), if_neg (by decide)]
  dsimp only
  rw [hvalid, State.spiStart_awake hrest, ← State.spiBegun, hread,
    State.headRows_clean (by decide) hcmd (.inr ⟨by decide, hreq⟩), hready]
  exact congrArg Host.Outcome.next (State.spiEnd_good (cmd := cmd) hcur (by decide))

theorem exec_spiReadCrcFrame (h : s.spiSees = true ∧ s.mode.ready = true ∧ s.mode.resting = false ∧
    Serves s (cmdFn cmd) 0 ∧ cmd.getLsbD 7 = true ∧ cmd.getLsbD 3 = true ∧ cmd.toNat % 8 = 0) :
    exec (.spiReadCrcFrame cmd 0x12 (crc8 [cmd, 0x12]) none none 48 .rise) s =
      .next ((s.spiReturned (cmdFn cmd) [s.reg (commonKey (cmdFn cmd).toNat 0x12), (crc8 (cmd :: 0x12 ::
        bytesOfWords [s.reg (commonKey (cmdFn cmd).toNat 0x12)])).zeroExtend 16]).spiGood (cmdFn cmd) 6) := by
  obtain ⟨hsees, hready, hrest, hserves, h7, h3, hcmd⟩ := h
  have hvalid : s.spiValid cmd = true := by simp [State.spiValid, hready, hcmd, h3]
  have hserves2 : Serves (s.spiBegun (cmdFn cmd)) (cmdFn cmd) 0 := hserves
  have hread := State.spiRead_intEn0 (bits := 48) (head := 24) (stride := 24) hserves2 (by decide) ⟨rfl, rfl⟩
  have hcur : (s.spiReturned (cmdFn cmd) [s.reg (commonKey (cmdFn cmd).toNat 0x12), (crc8 (cmd :: 0x12 ::
        bytesOfWords [s.reg (commonKey (cmdFn cmd).toNat 0x12)])).zeroExtend 16]).get MODE.CUR ≠ 0 := by
    rw [(s.spiReturned_frame (cmdFn cmd) _).get_eq (by decide)]
    exact cur_of_spiSees hsees
  change execSpiReadCrcFrame cmd 0x12 _ none none 48 .rise s = _
  rw [execSpiReadCrcFrame, if_neg (by rw [hsees, h7, h3]; decide), if_neg (by decide)]
  simp only [bne_self_eq_false, hvalid, Bool.not_false, Bool.and_self, if_true]
  rw [State.spiStart_awake hrest, ← State.spiBegun, show lateBefore none none = none from rfl, hread, List.append_assoc,
    State.headRows_clean (by decide) hcmd (.inl h3), hready]
  exact congrArg Host.Outcome.next (State.spiEnd_good (cmd := cmd) hcur (by decide))

end Sys2Proof.Machine
end

section
/-! PROOFS. Wakes that start at once, and the rest of the host serial port (O15). -/

namespace Sys2Proof.Machine

open R

variable {s t u : State} {f g : Fn}

/-! ### Wakes -/

/-- A rest from which a wake of a cause starts at once. -/
abbrev State.wakeable (s : State) : Prop := s.mode.resting = true ∧ s.get MODE.CUR ≠ 0 ∧ s.mode.waking = none ∧
  s.mode.delayed = none ∧ s.wakeMv ≤ s.get VRES_MEAS.w

theorem State.wake_starts (h : s.wakeable) {c : Nat} (hfrom : s.wakesFrom c = true) : s.wake c = s.probeCut.wakeStart c := by
  obtain ⟨hrest, hcur, hwaking, hdelayed, hvres⟩ := h
  have hk := s.probeCut_keeps .refl (within?_self _)
  have hmeas : s.probeCut.get VRES_MEAS.w = s.get VRES_MEAS.w := hk.get_eq (by decide)
  have hmv : s.probeCut.wakeMv = s.wakeMv := by rw [State.wakeMv, hk.get_eq (by decide), ← State.wakeMv]
  rw [State.wake, if_pos ⟨hrest, hcur, hwaking, hdelayed, hfrom⟩]
  dsimp only
  rw [if_neg (by rw [hmeas, hmv]; omega)]

/-- A wake that has started, and the cause it shows. -/
theorem State.wakeStart_shows (h : s.Tidy) {c : Nat} (hc : c < 0x10) : (s.wakeStart c).mode.waking = some c ∧
    (s.wakeStart c).get WAKE_CAUSE.CAUSE = c ∧ (s.wakeStart c).mode.delayed = none ∧
    (s.wakeStart c).mode.lowTaken = s.mode.lowTaken := by
  obtain ⟨_, hmode⟩ := s.mode_wakeStart c
  have hcause : (s.latchCause c).get WAKE_CAUSE.CAUSE = c := by
    rw [State.latchCause, State.get_put_self (State.tidy_put h) (by decide)]
    exact Nat.mod_eq_of_lt (b := 0x10) hc
  refine ⟨by rw [hmode], ?_, by rw [hmode], by rw [hmode]⟩
  rw [State.wakeStart, State.xoStart]
  generalize s.latchCause c = u at *
  dsimp only
  split
  · have hk : Keeps (areasMask [.reg MODE.w, .reg BOOT_CNT.w]) u ((u.put MODE.CUR 3).inc BOOT_CNT.ALL) :=
      State.inc_keeps _ _ (State.put_keeps _ _ _ .refl (by decide)) (by decide)
    exact (hk.get_eq (by decide)).trans hcause
  · exact hcause

/-- A wake from such a rest is under way, and shows its cause. -/
theorem State.wake_shows (hs : s.Tidy) (h : s.wakeable) {c : Nat} (hfrom : s.wakesFrom c = true) (hc : c < 0x10) :
    (s.wake c).mode.waking = some c ∧ (s.wake c).get WAKE_CAUSE.CAUSE = c ∧ (s.wake c).mode.lowTaken = s.mode.lowTaken := by
  have hk := s.probeCut_keeps .refl (within?_self _)
  obtain ⟨h1, h2, -, h4⟩ := State.wakeStart_shows (hk.tidy hs) hc
  rw [State.wake_starts h hfrom]
  exact ⟨h1, h2, h4.trans (congrArg ModeEng.lowTaken s.mode_probeCut)⟩

/-! ### A frame that is abandoned -/

/-- The outcome of a frame that stopped on the bus. -/
theorem State.spiOutcome_idle (h : s.Tidy) (f : Fn) {n : Nat} (hn : n < 0x400) (r : Bool) :
    (s.spiOutcome (some f) n oIDLE r).spi.frame = none ∧ (s.spiOutcome (some f) n oIDLE r).bit HP_EVT.TIMEOUT = true ∧
    (s.spiOutcome (some f) n oIDLE r).fget f FN_ERR.CODE = eTIMEOUT ∧
    (s.spiOutcome (some f) n oIDLE r).get HP_LAST.w = oIDLE * 0x1000 + f.toNat * 0x400 + n ∧
    (s.spiOutcome (some f) n oIDLE r).fget .f0 INT_STAT1.HOSTPORT_ERROR = 1 := by
  have hf := Fn.toNat_le f
  have heq : s.spiOutcome (some f) n oIDLE r = { ((((s.put HP_LAST.w (oIDLE * 0x1000 + f.toNat * 0x400 + min n 0x3FF)).put
      HP_EVT.TIMEOUT 1).inc HP_CNT_TIMEOUT.w).setErr f eTIMEOUT).raise1 jHOSTPORT_ERROR with
        spi := ⟨none, if r then true else s.spi.err⟩ } := by
    rw [← show (((((s.put HP_LAST.w (oIDLE * 0x1000 + f.toNat * 0x400 + min n 0x3FF)).put
      HP_EVT.TIMEOUT 1).inc HP_CNT_TIMEOUT.w).setErr f eTIMEOUT).raise1 jHOSTPORT_ERROR).spi.err = s.spi.err from
        congrArg Spi.err ((State.raise1_keeps _ _ .refl (within?_self _)).same (a := .spi) (by decide))]
    rfl
  have hlast : (s.put HP_LAST.w (oIDLE * 0x1000 + f.toNat * 0x400 + min n 0x3FF)).get HP_LAST.w =
      oIDLE * 0x1000 + f.toNat * 0x400 + n := by
    rw [State.get_put_self h (by decide), Nat.min_eq_left (by omega), show oIDLE * 0x1000 = 0x9000 from rfl]
    exact Nat.mod_eq_of_lt (b := 0x10000) (by omega)
  have h1 : (s.put HP_LAST.w (oIDLE * 0x1000 + f.toNat * 0x400 + min n 0x3FF)).Tidy := State.tidy_put h
  rw [heq]
  generalize s.put HP_LAST.w (oIDLE * 0x1000 + f.toNat * 0x400 + min n 0x3FF) = a at *
  have hevt : (a.put HP_EVT.TIMEOUT 1).get HP_EVT.TIMEOUT = 1 := State.get_put_self h1 (by decide)
  have hlast2 : (a.put HP_EVT.TIMEOUT 1).get HP_LAST.w = a.get HP_LAST.w := State.get_put_ne _ _ (by decide)
  have h2 : (a.put HP_EVT.TIMEOUT 1).Tidy := State.tidy_put h1
  generalize a.put HP_EVT.TIMEOUT 1 = b at *
  have hinc : Keeps (areasMask [.reg HP_CNT_TIMEOUT.w]) b (b.inc HP_CNT_TIMEOUT.w) := State.inc_keeps _ _ .refl (by decide)
  have h3 := hinc.tidy h2
  have hevt3 := (hinc.get_eq (x := HP_EVT.TIMEOUT) (by decide)).trans hevt
  have hlast3 := (hinc.get_eq (x := HP_LAST.w) (by decide)).trans (hlast2.trans hlast)
  generalize b.inc HP_CNT_TIMEOUT.w = c at *
  have herr : (c.setErr f eTIMEOUT).fget f FN_ERR.CODE = eTIMEOUT := State.fget_fput_self h3 (by decide)
  have h4 : (c.setErr f eTIMEOUT).Tidy := State.tidy_setErr h3 _
  have hevt4 : (c.setErr f eTIMEOUT).get HP_EVT.TIMEOUT = 1 := (State.get_setErr _ (by decide)).trans hevt3
  have hlast4 : (c.setErr f eTIMEOUT).get HP_LAST.w = _ := (State.get_setErr _ (by decide)).trans hlast3
  generalize c.setErr f eTIMEOUT = d at *
  have hraise := d.raise1_keeps jHOSTPORT_ERROR .refl (within?_self _)
  have hset : (d.raise1 jHOSTPORT_ERROR).fget .f0 INT_STAT1.HOSTPORT_ERROR = 1 := State.fget_raise1_same h4.canon (by decide)
  have herr5 := (hraise.fget_eq (f := f) (x := FN_ERR.CODE) (by decide)).trans herr
  have hevt5 := (hraise.get_eq (x := HP_EVT.TIMEOUT) (by decide)).trans hevt4
  have hlast5 := (hraise.get_eq (x := HP_LAST.w) (by decide)).trans hlast4
  generalize d.raise1 jHOSTPORT_ERROR = e at *
  exact ⟨rfl, bit_eq_of_get hevt5, herr5, hlast5, hset⟩

/-- A frame that has buffered nothing flushes nothing. -/
theorem State.spiFlush_empty {f : Fn} {n : Nat} {r : Bool} (h : s.spi.frame = some ⟨some f, n, r, []⟩)
    (hcur : s.get MODE.CUR ≠ 0) : s.spiFlush = { s with spi := { s.spi with frame := some ⟨some f, n, r, []⟩ } } := by
  have hnone : (s.commitWords f false true []).2 = s := rfl
  unfold State.spiFlush
  rw [h]
  dsimp only
  rw [hnone, if_neg hcur]

theorem exec_spiIdleTimeout {n : Nat} {r : Bool} (h : s.spi.frame = some ⟨some f, n, r, []⟩) (hcur : s.get MODE.CUR ≠ 0) :
    exec .spiIdleTimeout s =
      .next (({ s with spi := { s.spi with frame := some ⟨some f, n, r, []⟩ } } : State).spiOutcome (some f) n oIDLE r) := by
  change Host.Outcome.next (s.spiAbandon oIDLE) = _
  rw [State.spiAbandon, State.spiFlush_empty h hcur]

/-! ### HP_CMD and the loss of VDDIO -/

/-- The row of HP_CMD: CNT_CLR is a command bit. -/
def hpCmdDef : RegDef := ⟨0x78A, 0, 0, 0, 1, 0⟩

theorem regDef_hpCmd : regDef? HP_CMD.w.key = some hpCmdDef := by decide

theorem legalWord_hpCmd (f : Fn) (w : Word) : legalWord f HP_CMD.w.key w = true := by
  rw [legalWord_of_unranged (by decide), extraLegal]
  simp (decide := true) only [if_false]

theorem exec_hpCntClr (h : Serves s f (keyPage HP_CMD.w.key)) :
    exec (.hpCntClr f) s = .next (s.regAccess.zeroRegs HP_CNT_SHORT.w.key 7) := by
  have hwrite : s.cmdWrite f HP_CMD.w 1 = s.regAccess.zeroRegs HP_CNT_SHORT.w.key 7 := by
    rw [State.cmdWrite_page_legal regDef_hpCmd (by decide) (by decide) rfl (by decide) (legalWord_hpCmd f 1) h]
    rfl
  rw [← hwrite]
  rfl

/-- What the ports lose when VDDIO has gone. -/
def State.vddioCut (s : State) : State :=
  ((((s.twAbandon wVDDIO).attnEnd 10).barPort .ap0).barPort .ap1).barPort .bph

theorem State.pins_vddioCut (s : State) : s.vddioCut.pins = s.pins := by
  have habandon : (s.twAbandon wVDDIO).pins = s.pins :=
    (s.twAbandon_keeps wVDDIO .refl (within?_self _)).same (a := .pins) (by decide)
  have hend : ((s.twAbandon wVDDIO).attnEnd 10).pins = (s.twAbandon wVDDIO).pins :=
    ((s.twAbandon wVDDIO).attnEnd_keeps 10 .refl (within?_self _)).same (a := .pins) (by decide)
  have hbar : ∀ (u : State) (p : AudioPort), (u.barPort p).pins = u.pins := fun u p =>
    (u.barPort_keeps p .refl (within?_self _)).same (a := .pins) (by decide)
  rw [State.vddioCut, hbar, hbar, hbar, hend, habandon]

theorem exec_vddioLoss (h : s.pins.vddio = true ∧ s.get MODE.CUR ≠ 0 ∧ s.pins.porAsserted = false) :
    exec .vddioLoss s = .next (
      let u : State := { s.spiAbandon oVDDIO with pins := { (s.spiAbandon oVDDIO).pins with vddio := false } }
      if (s.spiAbandon oVDDIO).get MODE.CUR = 0 then u else u.vddioCut) := by
  obtain ⟨hvddio, hcur, hpor⟩ := h
  exact congrArg Host.Outcome.next (if_pos ⟨hvddio, hcur, by simp [hpor]⟩)

theorem State.byte_of_mem (h : t.mem = s.mem) (a : Nat) : t.byte a = s.byte a := congrArg (fun m => Sparse.get memDefault m a) h

/-- A frame that wrote INT_EN0 whole. -/
theorem State.spiWritten_shows (h : s.Tidy) (f : Fn) (w : Word) {n : Nat} (hn : n < 0x400) :
    (((s.spiBegun f).intEnCommitted f w).spiGood f n).fget f INT_EN0.w = w.toNat ∧
    (((s.spiBegun f).intEnCommitted f w).spiGood f n).fget f FN_SEQ.w = (s.fget f FN_SEQ.w + 1) % 0x10000 ∧
    (((s.spiBegun f).intEnCommitted f w).spiGood f n).hostOut = [s.status16 f] ∧
    (((s.spiBegun f).intEnCommitted f w).spiGood f n).spi = ⟨none, false⟩ ∧
    (((s.spiBegun f).intEnCommitted f w).spiGood f n).get HP_LAST.w = f.toNat * 0x400 + n := by
  have hbegun : (s.spiBegun f).Tidy := h
  obtain ⟨h1, hen, hseq, -⟩ := State.intEnCommitted_shows hbegun f w
  have hout : ((s.spiBegun f).intEnCommitted f w).hostOut = [s.status16 f] :=
    ((s.spiBegun f).intEnCommitted_frame f w).same (a := .hostOut) (by decide)
  generalize (s.spiBegun f).intEnCommitted f w = u at *
  obtain ⟨hlast, hspi, hhost, -, hfget⟩ := State.spiGood_shows h1 f hn
  exact ⟨(hfget _).trans hen, (hfget _).trans hseq, hhost.trans hout, hspi, hlast⟩

/-- A frame that read words. -/
theorem State.spiRead_shows (h : s.Tidy) (f : Fn) (l : List Word) {n : Nat} (hn : n < 0x400) :
    ((s.spiReturned f l).spiGood f n).hostOut = s.status16 f :: l ∧ ((s.spiReturned f l).spiGood f n).spi = ⟨none, false⟩ ∧
    ((s.spiReturned f l).spiGood f n).get HP_LAST.w = f.toNat * 0x400 + n ∧
    ((s.spiReturned f l).spiGood f n).mem = s.mem := by
  have hframe := s.spiReturned_frame f l
  have hout := s.hostOut_spiReturned f l
  generalize s.spiReturned f l = u at *
  obtain ⟨hlast, hspi, hhost, hmem, -⟩ := State.spiGood_shows (hframe.tidy h) f hn
  exact ⟨hhost.trans hout, hspi, hlast, Eq.trans hmem (hframe.same (a := .memory) (by decide))⟩

/-- Settles O15: the frames by `State.intEnCommitted_shows` and `State.spiGood_shows`, the wake by `State.wake_shows`, the
abandoned frame by `State.spiOutcome_idle`. -/
theorem spiCommandsComplete : Obligations.SpiCommandsComplete := by
  unfold Obligations.SpiCommandsComplete
  refine ⟨fun cmd w => .intro _ (fun s h => exec_spiWriteFrame h) fun s hc _ => ?_,
    fun cmd w => .intro _ (fun s h => exec_spiWriteCrcFrame h) fun s hc _ => ?_,
    fun cmd => .intro _ (fun s h => exec_spiReadFrame h) fun s hc _ => ?_,
    fun cmd => .intro _ (fun s h => exec_spiReadCrcFrame h) fun s hc _ => ?_,
    .intro _ (fun s ⟨_, _, _, _, _, hsees⟩ => congrArg Host.Outcome.next (if_pos hsees))
      fun s hc ⟨hrest, hcur, hwaking, hdelayed, hvres, hsees⟩ => ?_,
    fun f n r => .intro _ (fun s ⟨hframe, hcur, _⟩ => exec_spiIdleTimeout hframe hcur) fun s hc ⟨_, _, hn⟩ =>
      State.spiOutcome_idle (s := { s with spi := { s.spi with frame := some ⟨some f, n, r, []⟩ } }) hc.tidy f hn r,
    .intro _ (fun s h => exec_hpCntClr h) fun s hc _ => ?_,
    .intro _ (fun s h => exec_vddioLoss h) fun s _ _ => ?_⟩
  case refine_1 => exact State.spiWritten_shows hc.tidy _ w (by decide)
  case refine_2 => exact State.spiWritten_shows hc.tidy _ w (by decide)
  case refine_3 =>
    obtain ⟨hout, hspi, hlast, hmem⟩ := State.spiRead_shows hc.tidy (cmdFn cmd) _ (show 4 < 0x400 by decide)
    exact ⟨hout, hspi, hlast, fun a _ => State.byte_of_mem hmem a⟩
  case refine_4 =>
    obtain ⟨hout, hspi, -⟩ := State.spiRead_shows hc.tidy (cmdFn cmd) _ (show 6 < 0x400 by decide)
    exact ⟨hout, hspi⟩
  case refine_5 =>
    obtain ⟨hwaking, hcause, -⟩ := State.wake_shows hc.tidy ⟨hrest, hcur, hwaking, hdelayed, hvres⟩ (c := 2)
      (by simp only [State.spiSees, Bool.and_eq_true] at hsees; exact hsees.1.1.1.1) (by decide)
    exact ⟨hwaking, hcause, (s.wake_keeps 2 .refl (within?_self _)).same (a := .spi) (by decide)⟩
  case refine_6 =>
    have h1 : s.regAccess.Tidy := State.tidy_regAccess hc.tidy
    exact ⟨State.get_zeroRegs h1 (by decide) (by decide), State.get_zeroRegs h1 (by decide) (by decide),
      State.get_zeroRegs h1 (by decide) (by decide), State.get_zeroRegs h1 (by decide) (by decide),
      State.get_zeroRegs h1 (by decide) (by decide)⟩
  case refine_7 =>
    dsimp only
    split
    · rfl
    · exact congrArg Pins.vddio (State.pins_vddioCut _)

end Sys2Proof.Machine
end

section
/-! PROOFS. Two-wire target frames and the matcher (O16). -/

namespace Sys2Proof.Machine

open R

variable {s t u : State} {f g : Fn} {a : Nat}

/-! ### The end of a frame -/

/-- A frame that ends well with a STOP. -/
def State.twGood (s : State) (f : Fn) (bytes : Nat) : State :=
  { s.put TW_LAST.w (0 * 0x1000 + f.toNat * 0x400 + min bytes 0x3FF) with
    tw := { s.tw with frame := none, wakeFrame := none, sclHeld := false, forceDue := false } }

theorem State.twEnd_good {fr : TwFrame} (hcur : s.get MODE.CUR ≠ 0) (hcode : fr.code = 0) :
    s.twEnd fr .stop = s.twGood fr.fn fr.bytes := by
  rw [State.twEnd, if_neg hcur, hcode]
  rfl

theorem State.twGood_shows (h : s.Tidy) (f : Fn) {n : Nat} (hn : n < 0x400) :
    (s.twGood f n).get TW_LAST.w = f.toNat * 0x400 + n ∧ (s.twGood f n).tw.frame = none ∧ (s.twGood f n).hostOut = s.hostOut ∧
    (s.twGood f n).mem = s.mem ∧ (∀ g, (s.twGood f n).eng g = s.eng g) ∧ ∀ x, (s.twGood f n).fget f x = s.fget f x := by
  have hf := Fn.toNat_le f
  refine ⟨?_, rfl, rfl, rfl, fun _ => rfl, fun x => ?_⟩
  · change (s.put TW_LAST.w (0 * 0x1000 + f.toNat * 0x400 + min n 0x3FF)).get TW_LAST.w = _
    rw [State.get_put_self h (by decide), Nat.min_eq_left (by omega), Nat.zero_mul, Nat.zero_add]
    exact Nat.mod_eq_of_lt (b := 0x10000) (by omega)
  · change (s.put TW_LAST.w (0 * 0x1000 + f.toNat * 0x400 + min n 0x3FF)).fget f x = _
    exact State.fget_put (by decide)

/-! ### Writes -/

/-- The access of a frame, and the register pointer it leaves. -/
def State.twPointed (s : State) (f : Fn) (p : Nat) : State := s.regAccess.setPtr f p

/-- A frame of the port with nothing before it, in a unit past READY. -/
abbrev State.twFresh (s : State) (a : Nat) (f : Fn) : Prop :=
  s.mode.ready = true ∧ s.tw.frame = none ∧ s.tw.wakeFrame = none ∧ Serves s f 0 ∧ s.twAnswers a = some f

theorem cur_of_twAnswers (h : s.twAnswers a = some f) : s.get MODE.CUR ≠ 0 := by
  intro hcur
  have halive : s.twAlive = false := by simp [State.twAlive, hcur]
  rw [State.twAnswers, if_pos (by simp [halive])] at h
  exact absurd h (by simp)

theorem State.twPointed_frame (s : State) (f : Fn) (p : Nat) :
    Keeps (areasMask [.counters, .mode, .engines, .reg INT_STAT1.w, .reg WAKE_HREASON.w]) s (s.twPointed f p) := by
  have hacc : Keeps (areasMask [.counters, .mode, .engines, .reg INT_STAT1.w, .reg WAKE_HREASON.w]) s s.regAccess :=
    State.regAccess_keeps _ .refl (by decide)
  exact State.setPtr_keeps _ _ _ hacc (by decide)

theorem State.twPointed_serves (h : Serves s f 0) (p : Nat) : Serves (s.twPointed f p) f 0 := h.regAccess

theorem State.ptr_twPointed (s : State) (f : Fn) (p : Nat) : ((s.twPointed f p).eng f).twPtr = p := by
  rw [State.twPointed, State.setPtr, State.eng_setEng]

theorem State.twSoFar_fresh (h : s.tw.frame = none) : s.twSoFar f = ⟨f, 0, 0, [], [], [], false⟩ := by
  rw [State.twSoFar, h]
  rfl

/-- A write segment that sets INT_EN0, and its STOP. -/
theorem State.twWrite_intEn0 (h : s.twFresh a f) (w : Word) (n : Nat) : s.twWrite f a 0x12 [w] n 0 .stop =
    ((s.twPointed f 0x13).intEnCommitted f w).twGood f (2 + n) := by
  obtain ⟨-, hframe, hwake, hserves, hans⟩ := h
  have hcur : ((s.twPointed f 0x13).intEnCommitted f w).get MODE.CUR ≠ 0 := by
    rw [((s.twPointed f 0x13).intEnCommitted_frame f w).get_eq (by decide), (s.twPointed_frame f 0x13).get_eq (by decide)]
    exact cur_of_twAnswers hans
  have hwords : (ptrWalk (0x12 : Byte).toNat [w].length).zip [w] = [(0x12, w)] := rfl
  have hptr : ptrAfter (0x12 : Byte).toNat [w].length = 0x13 := rfl
  rw [State.twWrite]
  dsimp only
  rw [hwords, hptr, hwake, State.twSoFar_fresh hframe, ← State.twPointed,
    show (none : Option Fn).isSome = false from rfl, show (!([] : List Fn).contains f) = true from rfl,
    State.commitWords_intEn0 w (State.twPointed_serves hserves 0x13)]
  exact (State.twEnd_good hcur rfl).trans (congrArg (State.twGood _ f) (by simp))

theorem exec_twWriteFrame {hi lo : Byte} (h : s.twFresh a f) (hpec : s.bit TW_CFG.PEC = false) :
    exec (.twWriteFrame a 0x12 [hi, lo] .stop) s = .next (((s.twPointed f 0x13).intEnCommitted f (hi ++ lo)).twGood f (2 + 2)) := by
  have hans := h.2.2.2.2
  change execTwWriteFrame a 0x12 [hi, lo] .stop s = _
  rw [execTwWriteFrame, hans]
  dsimp only
  rw [if_neg (by simp [hpec])]
  have hwrite := State.twWrite_intEn0 h (hi ++ lo) 2
  have hwhole : [hi, lo].take ([hi, lo].length / 2 * 2) = [hi, lo] := by simp
  rw [← hwrite, hwhole, if_neg (show ¬ ([hi, lo].length % 2 == 1 && TwEnd.stop != TwEnd.held) = true by simp)]
  rfl

theorem exec_twWritePecFrame {hi lo : Byte} (h : s.twFresh a f) (hpec : s.bit TW_CFG.PEC = true) :
    exec (.twWritePecFrame a 0x12 [hi, lo, crc8 [BitVec.ofNat 8 (2 * a), 0x12, hi, lo]] .stop) s =
      .next (((s.twPointed f 0x13).intEnCommitted f (hi ++ lo)).twGood f 5) := by
  have hans := h.2.2.2.2
  have hrow : pecRow a 0x12 [hi, lo, crc8 [BitVec.ofNat 8 (2 * a), 0x12, hi, lo]] = 0 := by
    rw [pecRow, if_neg (by simp), if_neg (by simp), if_neg (by simp), if_neg (by simp)]
  change execTwWritePecFrame a 0x12 [hi, lo, crc8 [BitVec.ofNat 8 (2 * a), 0x12, hi, lo]] .stop s = _
  rw [execTwWritePecFrame, hans]
  dsimp only
  rw [if_neg (by simp [hpec]), if_neg (show TwEnd.stop ≠ .held by decide), hrow, if_pos ⟨rfl, rfl⟩]
  exact congrArg Host.Outcome.next (Eq.trans rfl (State.twWrite_intEn0 h (hi ++ lo) 3))

/-- A word written over the port, whatever its check byte. -/
theorem State.twWritten_shows (h : s.Tidy) (f : Fn) (hi lo : Byte) {n : Nat} (hn : n < 0x400) :
    (((s.twPointed f 0x13).intEnCommitted f (hi ++ lo)).twGood f n).fget f INT_EN0.w = hi.toNat * 0x100 + lo.toNat ∧
    ((((s.twPointed f 0x13).intEnCommitted f (hi ++ lo)).twGood f n).eng f).twPtr = 0x13 ∧
    (((s.twPointed f 0x13).intEnCommitted f (hi ++ lo)).twGood f n).tw.frame = none ∧
    (((s.twPointed f 0x13).intEnCommitted f (hi ++ lo)).twGood f n).get TW_LAST.w = f.toNat * 0x400 + n := by
  have h1 : (s.twPointed f 0x13).Tidy := (s.twPointed_frame f 0x13).tidy h
  obtain ⟨h2, hen, -, attn, heng⟩ := State.intEnCommitted_shows h1 f (hi ++ lo)
  have hptr : (((s.twPointed f 0x13).intEnCommitted f (hi ++ lo)).eng f).twPtr = 0x13 := by
    rw [heng]
    exact s.ptr_twPointed f 0x13
  generalize (s.twPointed f 0x13).intEnCommitted f (hi ++ lo) = u at *
  obtain ⟨hlast, hframe, -, -, hsame, hfget⟩ := State.twGood_shows h2 f hn
  have hword : (hi ++ lo : Word).toNat = hi.toNat * 0x100 + lo.toNat := by
    have := lo.isLt
    rw [BitVec.toNat_append, Nat.shiftLeft_eq, Nat.mul_comm, ← Nat.two_pow_add_eq_or_of_lt this]
  exact ⟨((hfget _).trans hen).trans hword, by rw [hsame, hptr], hframe, hlast⟩

theorem exec_twPointerSet {reg : Byte} (h : s.twFresh a f) :
    exec (.twPointerSet a reg .stop) s = .next ((s.twPointed f reg.toNat).twGood f 2) := by
  obtain ⟨-, hframe, hwake, hserves, hans⟩ := h
  have hcur : (s.twPointed f reg.toNat).get MODE.CUR ≠ 0 := by
    rw [(s.twPointed_frame f _).get_eq (by decide)]
    exact cur_of_twAnswers hans
  change execTwPointerSet a reg .stop s = _
  rw [execTwPointerSet, hans]
  dsimp only
  rw [State.twWrite, State.twSoFar_fresh hframe]
  exact congrArg Host.Outcome.next ((State.twEnd_good hcur rfl).trans rfl)

/-! ### A read -/

/-- The state after the read: the word put out, and the pointer past it. -/
def State.twReturned (s : State) (f : Fn) : State :=
  { (s.setPtr f 0x12).regAccess.setPtr f 0x13 with hostOut := [s.reg (INT_EN0.w.on f.toNat).key] }

theorem State.twReturned_frame (s : State) (f : Fn) :
    Keeps (areasMask [.counters, .mode, .engines, .reg INT_STAT1.w, .reg WAKE_HREASON.w, .hostOut]) s (s.twReturned f) := by
  have h1 : Keeps (areasMask [.counters, .mode, .engines, .reg INT_STAT1.w, .reg WAKE_HREASON.w, .hostOut]) s
      ((s.setPtr f 0x12).regAccess.setPtr f 0x13) :=
    State.setPtr_keeps _ _ _ (State.regAccess_keeps _ (State.setPtr_keeps _ _ _ .refl (by decide)) (by decide)) (by decide)
  rw [State.twReturned]
  generalize (s.setPtr f 0x12).regAccess.setPtr f 0x13 = v at *
  simp (decide := true) only [↓Keeps.mk, or_true, true_or, eq_self, h1]

theorem exec_twReadFrame (h : s.twFresh a f) (hpec : s.bit TW_CFG.PEC = false) :
    exec (.twReadFrame a (some 0x12) 2 .stop) s = .next ((s.twReturned f).twGood f 5) := by
  obtain ⟨hready, hframe, hwake, hserves, hans⟩ := h
  have hptr0 : Serves (s.setPtr f 0x12) f 0 := hserves
  have hserves2 : Serves (s.setPtr f 0x12).regAccess f 0 := hptr0.regAccess
  have hptr : ((s.setPtr f 0x12).regAccess.eng f).twPtr = 0x12 := by
    obtain ⟨attn, heng⟩ := (s.setPtr f 0x12).eng_regAccess f
    rw [heng, State.setPtr, State.eng_setEng]
  have hreg : (s.setPtr f 0x12).regAccess.reg (commonKey f.toNat 0x12) = s.reg (commonKey f.toNat 0x12) :=
    (((s.setPtr f 0x12).regAccess_keeps .refl (within?_self _)).reg_eq (by cases f <;> decide)).trans rfl
  have hread := State.readWords_intEn0 .tw (fun k => ptrAfter 0x12 k) hserves2 rfl (.inr (by decide))
  have hcur : (s.twReturned f).get MODE.CUR ≠ 0 := by
    rw [(s.twReturned_frame f).get_eq (by decide)]
    exact cur_of_twAnswers hans
  have hserved : ∀ l : List Nat, l.any (fun o => !(s.setPtr f 0x12).regAccess.served o false) = false := by
    intro l
    simp [State.served, show (s.setPtr f 0x12).mode.ready = true from hready]
  change execTwReadFrame a (some 0x12) 2 .stop s = _
  rw [execTwReadFrame, hans]
  dsimp only
  rw [hpec, hwake, State.twSoFar_fresh hframe, show (0x12 : Byte).toNat = 0x12 from rfl,
    show (none : Option Fn).isSome = false from rfl, hserved, hptr, if_neg (by decide)]
  simp only [Bool.false_eq_true, if_false]
  rw [hread, hreg]
  exact congrArg Host.Outcome.next (State.twEnd_good (s := s.twReturned f) hcur rfl)

theorem State.twRead_shows (h : s.Tidy) (f : Fn) {n : Nat} (hn : n < 0x400) :
    ((s.twReturned f).twGood f n).hostOut = [s.reg (INT_EN0.w.on f.toNat).key] ∧
    (((s.twReturned f).twGood f n).eng f).twPtr = 0x13 ∧ ((s.twReturned f).twGood f n).tw.frame = none ∧
    ((s.twReturned f).twGood f n).get TW_LAST.w = f.toNat * 0x400 + n ∧ ((s.twReturned f).twGood f n).mem = s.mem := by
  have hk := s.twReturned_frame f
  have hout : (s.twReturned f).hostOut = [s.reg (INT_EN0.w.on f.toNat).key] := rfl
  have hptr : ((s.twReturned f).eng f).twPtr = 0x13 := by
    change (((s.setPtr f 0x12).regAccess.setPtr f 0x13).eng f).twPtr = 0x13
    rw [State.setPtr, State.eng_setEng]
  generalize s.twReturned f = u at *
  obtain ⟨hlast, hframe, hhost, hmem, hsame, -⟩ := State.twGood_shows (hk.tidy h) f hn
  exact ⟨hhost.trans hout, by rw [hsame, hptr], hframe, hlast, Eq.trans hmem (hk.same (a := .memory) (by decide))⟩

/-! ### Stretches and the matcher -/

/-- What a frame that ends with an outcome of its row raises and shows. -/
theorem State.twOutcome_raises (h : s.Tidy) (f : Fn) (n : Nat) {code : Nat} {x : Fld} (hrow : twRow code = (some x, eTIMEOUT))
    (hx : x.key = TW_EVT.w.key) (hsound : x.sound = true) (hsize : x.size = 2) (hcode : code ≠ 0 ∧ code ≠ wNRDY) :
    (s.twOutcome f n code).fget f FN_ERR.CODE = eTIMEOUT ∧ (s.twOutcome f n code).fget .f0 INT_STAT1.TW_ERROR = 1 ∧
    (s.coreRuns = true → (s.twOutcome f n code).bit x = true) ∧
    (s.coreRuns = false → (s.twOutcome f n code).tw.evtHeld = s.tw.evtHeld ||| 2 ^ x.lo) := by
  obtain ⟨h0, h1⟩ := hcode
  have heq : s.twOutcome f n code = { (((((s.put TW_LAST.w (code * 0x1000 + f.toNat * 0x400 + min n 0x3FF)).twEvt x).setErr f
      eTIMEOUT).inc TW_CNT_ERR.w).raise1 jTW_ERROR) with
        tw := { (((((s.put TW_LAST.w (code * 0x1000 + f.toNat * 0x400 + min n 0x3FF)).twEvt x).setErr f
          eTIMEOUT).inc TW_CNT_ERR.w).raise1 jTW_ERROR).tw with frame := none, wakeFrame := none, sclHeld := false } } := by
    unfold State.twOutcome
    rw [hrow]
    dsimp only
    rw [if_neg (show ¬ eTIMEOUT = 0 by decide), if_neg (by simp [h0, h1])]
  have hlast : FrameStep s (s.put TW_LAST.w (code * 0x1000 + f.toNat * 0x400 + min n 0x3FF)) := .put (by decide) _
  have ha := hlast.tidy h
  have htw : (s.put TW_LAST.w (code * 0x1000 + f.toNat * 0x400 + min n 0x3FF)).tw = s.tw := rfl
  have hruns := hlast.runs
  rw [heq]
  clear heq hlast
  generalize s.put TW_LAST.w (code * 0x1000 + f.toNat * 0x400 + min n 0x3FF) = a at *
  have hb : (a.twEvt x).Tidy := (FrameStep.twEvt (by rw [hx]; decide)).tidy ha
  have hset : a.coreRuns = true → (a.twEvt x).get x = 1 := fun hr => by
    rw [State.twEvt_runs hr, State.get_put_self ha hsound, hsize]
  have hheld : a.coreRuns = false → (a.twEvt x).tw.evtHeld = a.tw.evtHeld ||| 2 ^ x.lo := fun hr => by
    rw [State.twEvt, if_neg (by simp [hr])]
  generalize a.twEvt x = b at *
  have hk : Keeps (areasMask [.reg FN_ERR.w, .reg TW_CNT_ERR.w]) b ((b.setErr f eTIMEOUT).inc TW_CNT_ERR.w) :=
    State.inc_keeps _ _ (State.setErr_keeps _ _ _ .refl (by decide)) (by decide)
  have herr : ((b.setErr f eTIMEOUT).inc TW_CNT_ERR.w).fget f FN_ERR.CODE = eTIMEOUT := by
    rw [State.inc, State.putSat, State.fget_put (by decide)]
    exact State.fget_fput_self hb (by decide)
  have hc := hk.tidy hb
  have hxk : ((b.setErr f eTIMEOUT).inc TW_CNT_ERR.w).get x = b.get x := hk.get_eq (by rw [hx]; decide)
  have htwk : ((b.setErr f eTIMEOUT).inc TW_CNT_ERR.w).tw = b.tw := hk.same (a := .twoWire) (by decide)
  generalize (b.setErr f eTIMEOUT).inc TW_CNT_ERR.w = c at *
  have herr2 : (c.raise1 jTW_ERROR).fget f FN_ERR.CODE = eTIMEOUT :=
    (State.fget_raise1_other _ _ (by decide) (.inr (by decide))).trans herr
  have hraised : (c.raise1 jTW_ERROR).fget .f0 INT_STAT1.TW_ERROR = 1 := State.fget_raise1_same hc.canon (by decide)
  have hxr : (c.raise1 jTW_ERROR).get x = c.get x := State.get_raise1 (by rw [hx]; decide) (by rw [hx]; decide)
  have htwr := c.tw_raise1 jTW_ERROR
  generalize c.raise1 jTW_ERROR = d at *
  refine ⟨herr2, hraised, fun hr => bit_eq_of_get (n := 1) ?_, fun hr => ?_⟩
  · exact (hxr.trans hxk).trans (hset (hruns.trans hr))
  · change d.tw.evtHeld = _
    rw [htwr, htwk, hheld (hruns.trans hr), htw]

theorem exec_twStretchTimeout {fr : TwFrame} (h : s.tw.frame = some fr ∧ fr.held = true ∧ fr.code = 0) :
    exec .twStretchTimeout s = .next (s.twOutcome fr.fn fr.bytes wSTRETCH) := by
  obtain ⟨hframe, hheld, hcode⟩ := h
  change execTwStretchTimeout s = _
  rw [execTwStretchTimeout, hframe]
  dsimp only
  rw [if_pos hheld, State.twAbandon, hframe]
  dsimp only
  rw [hcode]
  rfl

theorem exec_twWakeMatch (h : s.matching = true ∧ barred a = false ∧ s.tw.wakeFrame = none ∧ s.tw.frame = none)
    (haddr : matchAddr s.addrForce a = some f) : exec (.twWakeMatch a) s =
      .next (({ s with tw := { s.tw with wakeFrame := some f, sclHeld := true, matched := true } } : State).wake 3) := by
  obtain ⟨hmatch, hbar, hwake, hframe⟩ := h
  change execTwWakeMatch a s = _
  rw [execTwWakeMatch, if_pos ⟨hmatch, by simp [hbar], hwake, hframe⟩, haddr]

theorem exec_wakeStretch (h : s.tw.wakeFrame = some f) (hheld : s.tw.sclHeld = true) :
    exec .wakeStretch s = .next (s.twOutcome f 1 wWAKE) := by
  change execWakeStretch s = _
  rw [execWakeStretch, h]
  dsimp only
  rw [if_pos hheld]

/-! ### Addresses -/

/-- The row of TW_HOSTADDR: the lock holds it. -/
def twHostAddrDef : RegDef := ⟨0x885, 0x10, 0, 0, 0, 0x7F⟩

theorem regDef_twHostAddr : regDef? TW_HOSTADDR.w.key = some twHostAddrDef := by decide

end Sys2Proof.Machine
end

section
/-! PROOFS. A write of a two-wire address, and the two-wire frames together (O16). -/

namespace Sys2Proof.Machine

open R

variable {s t u : State} {f g : Fn} {a : Nat}

/-- With the lock off a legal word for a register with lockable bits has its effect. -/
theorem State.writeReg_of_open {k : Nat} {d : RegDef} {v : Word} (hd : regDef? k = some d) (hrwl : d.rwl ≠ 0)
    (hopen : s.bit PART_STAT.LOCKED = false) (hlegal : legalWord f (baseKey k) v = true) :
    s.writeReg f k v = (false, s.writeEffect f k v (d.merge (s.reg k) v false)) := by
  simp only [State.writeReg, hd, hrwl, hopen, RegDef.judged_of_unlocked, hlegal]
  simp

/-- The register holds the address written. -/
theorem twHostAddr_merge (old v : Word) : (twHostAddrDef.merge old v false).toNat % 0x80 = v.toNat % 0x80 := by
  have hand : twHostAddrDef.merge old v false &&& BitVec.ofNat 16 0x7F = v &&& BitVec.ofNat 16 0x7F := by
    rw [RegDef.merge, show twHostAddrDef.rw = 0 from rfl, show twHostAddrDef.rwl = 0x7F from rfl,
      show twHostAddrDef.w1c = 0 from rfl]
    ext i hi
    simp only [BitVec.getElem_and, BitVec.getElem_or, BitVec.getElem_not, Bool.false_eq_true, if_false]
    cases (BitVec.ofNat 16 0x7F)[i] <;> simp
  have hnat := congrArg BitVec.toNat hand
  simp only [BitVec.toNat_and] at hnat
  rwa [show (BitVec.ofNat 16 0x7F).toNat = 2 ^ 7 - 1 from rfl, Nat.and_two_pow_sub_one_eq_mod,
    Nat.and_two_pow_sub_one_eq_mod] at hnat

/-- A new host address that passes the check waits for the next STOP; the settings in force stay. -/
theorem State.addrWrite_shows (h : s.Tidy) {v : Word} (hidle : s.tw.forceDue = false)
    (hnew : TW_HOSTADDR.ADDR.of v ≠ s.get TW_HOSTADDR.ADDR)
    (hok : addrsOk (s.addrCfg.take 5 ++ [TW_HOSTADDR.ADDR.of v]) = true) :
    let t := s.addrWrite f TW_HOSTADDR.w.key (twHostAddrDef.merge (s.reg TW_HOSTADDR.w.key) v false)
    t.get TW_HOSTADDR.ADDR = TW_HOSTADDR.ADDR.of v ∧ t.addrForce = s.addrForce ∧ t.tw.forceDue = true := by
  have hmerge := twHostAddr_merge (s.reg TW_HOSTADDR.w.key) v
  generalize twHostAddrDef.merge (s.reg TW_HOSTADDR.w.key) v false = w at *
  have hget : (s.setReg TW_HOSTADDR.w.key w).get TW_HOSTADDR.ADDR = TW_HOSTADDR.ADDR.of v := by
    have hreg : (s.setReg TW_HOSTADDR.w.key w).reg TW_HOSTADDR.w.key = w := State.reg_setReg h.1 _ _
    change ((s.setReg TW_HOSTADDR.w.key w).reg TW_HOSTADDR.w.key).toNat / 2 ^ 0 % 0x80 = v.toNat / 2 ^ 0 % 0x80
    rw [hreg, Nat.pow_zero, Nat.div_one, Nat.div_one, hmerge]
  have hk : Keeps (areasMask [.reg TW_HOSTADDR.w]) s (s.setReg TW_HOSTADDR.w.key w) := Keeps.refl.setReg (by decide)
  have hcfg : (s.setReg TW_HOSTADDR.w.key w).addrCfg = s.addrCfg.take 5 ++ [TW_HOSTADDR.ADDR.of v] := by
    rw [State.addrCfg, hget, hk.get_eq (by decide), hk.get_eq (by decide), hk.get_eq (by decide), hk.get_eq (by decide),
      hk.get_eq (by decide)]
    rfl
  have hne : ¬ (s.setReg TW_HOSTADDR.w.key w).addrCfg = s.addrCfg := by
    intro he
    rw [hcfg] at he
    exact hnew (congrArg (fun l : List Nat => l.getD 5 0) he)
  have htw : (s.setReg TW_HOSTADDR.w.key w).tw.forceDue = false := hidle
  have hforce : s.addrForce = s.addrCfg := by rw [State.addrForce, hidle]; rfl
  dsimp only
  rw [State.addrWrite]
  dsimp only
  rw [if_neg hne, if_neg (by rw [hcfg, hok]; simp), if_neg (by rw [htw]; simp), hforce]
  exact ⟨hget, rfl, rfl⟩

theorem exec_twAddressConfigWrite_host {v : Word} (h : Serves s .f0 0x8) (hopen : s.bit PART_STAT.LOCKED = false)
    (hlegal : legalWord .f0 TW_HOSTADDR.w.key v = true) : exec (.twAddressConfigWrite .f0 0x85 v) s =
      .next (s.regAccess.addrWrite .f0 TW_HOSTADDR.w.key
        (twHostAddrDef.merge (s.regAccess.reg TW_HOSTADDR.w.key) v false)) := by
  have hopen2 : s.regAccess.bit PART_STAT.LOCKED = false :=
    (State.bit_of_get_eq ((s.regAccess_keeps .refl (within?_self _)).get_eq (by decide))).trans hopen
  have hgate : gate3 .f0 TW_HOSTADDR.w.key = .serve :=
    gate3_page .f0 (by decide) (by decide) (by rw [regDef_twHostAddr]; exact Option.some_ne_none _)
  have hwrite : s.cmdWrite .f0 TW_HOSTADDR.w v = s.regAccess.addrWrite .f0 TW_HOSTADDR.w.key
      (twHostAddrDef.merge (s.regAccess.reg TW_HOSTADDR.w.key) v false) := by
    rw [State.cmdWrite_of_serves v (by decide) h hgate, State.writeReg_of_open regDef_twHostAddr (by decide) hopen2 hlegal]
    rfl
  rw [← hwrite]
  rfl

/-- Settles O16: the frames by `State.twWritten_shows` and `State.twRead_shows`, the stretches by
`State.twOutcome_raises`, the address by `State.addrWrite_shows`. -/
theorem twoWireFrameCommandsComplete : Obligations.TwoWireFrameCommandsComplete := by
  unfold Obligations.TwoWireFrameCommandsComplete
  refine ⟨fun a f hi lo => .intro _ (fun s ⟨h1, h2, h3, h4, h5, hpec⟩ => exec_twWriteFrame ⟨h1, h2, h3, h4, h5⟩ hpec)
      fun s hc _ => State.twWritten_shows hc.tidy f hi lo (by decide),
    fun a f hi lo => .intro _ (fun s ⟨h1, h2, h3, h4, h5, hpec⟩ => exec_twWritePecFrame ⟨h1, h2, h3, h4, h5⟩ hpec)
      fun s hc _ => State.twWritten_shows hc.tidy f hi lo (by decide),
    fun a f reg => .intro _ (fun s h => exec_twPointerSet h) fun s hc _ => ?_,
    fun a f => .intro _ (fun s ⟨h1, h2, h3, h4, h5, hpec⟩ => exec_twReadFrame ⟨h1, h2, h3, h4, h5⟩ hpec)
      fun s hc _ => ?_,
    fun fr => .intro _ (fun s ⟨h1, h2, h3, _⟩ => exec_twStretchTimeout ⟨h1, h2, h3⟩) fun s hc ⟨_, _, _, hruns⟩ => ?_,
    fun a f => .intro _ (fun s ⟨_, _, _, _, _, h1, h2, h3, h4, haddr⟩ => exec_twWakeMatch ⟨h1, h2, h3, h4⟩ haddr)
      fun s hc ⟨h1, h2, h3, h4, h5, hmatch, _⟩ => ?_,
    .intro _ (fun s ⟨hheld, hready⟩ => congrArg Host.Outcome.next (if_pos ⟨hheld, .inl hready⟩))
      fun s _ _ => ⟨rfl, rfl, OnlyRegs.refl⟩,
    fun f => .intro _ (fun s ⟨h, hheld⟩ => exec_wakeStretch h hheld) fun s hc _ => ?_,
    fun v => .intro _ (fun s ⟨h, hopen, hlegal, _⟩ => exec_twAddressConfigWrite_host h hopen hlegal)
      fun s hc ⟨_, _, _, hidle, hnew, hok⟩ => ?_⟩
  case refine_1 =>
    have hptr := s.ptr_twPointed f reg.toNat
    have h1 := (s.twPointed_frame f reg.toNat).tidy hc.tidy
    generalize s.twPointed f reg.toNat = u at *
    obtain ⟨hlast, hframe, -, -, hsame, -⟩ := State.twGood_shows h1 f (show 2 < 0x400 by decide)
    exact ⟨by rw [hsame, hptr], hframe, hlast⟩
  case refine_2 =>
    obtain ⟨hout, hptr, hframe, hlast, hmem⟩ := State.twRead_shows hc.tidy f (show 5 < 0x400 by decide)
    exact ⟨hout, hptr, hframe, hlast, fun a _ => State.byte_of_mem hmem a⟩
  case refine_3 =>
    obtain ⟨herr, hraised, hbit, -⟩ := State.twOutcome_raises hc.tidy fr.fn fr.bytes (code := wSTRETCH) (x := TW_EVT.STRETCH)
      rfl rfl rfl rfl (by decide)
    exact ⟨rfl, hbit hruns, herr, hraised⟩
  case refine_4 =>
    have hmark : s.bit MODE.MATCH_ON = true := by
      simp only [State.matching, Bool.and_eq_true] at hmatch
      exact hmatch.1.1.2
    obtain ⟨hwaking, hcause, -⟩ := State.wake_shows
      (s := { s with tw := { s.tw with wakeFrame := some f, sclHeld := true, matched := true } }) hc.tidy
      ⟨h1, h2, h3, h4, h5⟩ (c := 3) hmark (by decide)
    have htw := (({ s with tw := { s.tw with wakeFrame := some f, sclHeld := true, matched := true } } : State).wake_keeps 3
      .refl (within?_self _)).same (a := .twoWire) (by decide)
    exact ⟨(congrArg Tw.wakeFrame htw).trans rfl, (congrArg Tw.sclHeld htw).trans rfl, hwaking, hcause⟩
  case refine_5 =>
    obtain ⟨herr, -, hbit, hheld⟩ := State.twOutcome_raises hc.tidy f 1 (code := wWAKE) (x := TW_EVT.WAKE_STRETCH)
      rfl rfl rfl rfl (by decide)
    refine ⟨rfl, rfl, herr, ?_⟩
    cases hruns : s.coreRuns
    · exact hheld hruns
    · exact hbit hruns
  case refine_6 =>
    have hk := s.regAccess_keeps .refl (within?_self _)
    have hcfg : s.regAccess.addrCfg = s.addrCfg := by
      rw [State.addrCfg, hk.get_eq (by decide), hk.get_eq (by decide), hk.get_eq (by decide), hk.get_eq (by decide),
        hk.get_eq (by decide), hk.get_eq (by decide), ← State.addrCfg]
    have htw : s.regAccess.tw = s.tw := hk.same (a := .twoWire) (by decide)
    obtain ⟨hget, hforce, hdue⟩ := State.addrWrite_shows (s := s.regAccess) (f := .f0) (hk.tidy hc.tidy) (v := v)
      (by rw [htw]; exact hidle) (by rw [hk.get_eq (by decide)]; exact hnew) (by rw [hcfg]; exact hok)
    exact ⟨hget, by rw [hforce, State.addrForce, State.addrForce, htw, hcfg], hdue⟩

end Sys2Proof.Machine
end

section
/-! PROOFS. LF time signals (O24). -/

namespace Sys2Proof.Machine

open R

variable {s t u : State} {f g : Fn}

/-! ### Words written one behind the other -/

theorem State.reg_put_word (h : s.Tidy) (k v : Nat) : (s.put ⟨k, 15, 0⟩ v).reg k = BitVec.ofNat 16 v := by
  have hget : (s.put ⟨k, 15, 0⟩ v).get ⟨k, 15, 0⟩ = v % 0x10000 := State.get_put_self h rfl
  have hword : (s.put ⟨k, 15, 0⟩ v).get ⟨k, 15, 0⟩ = ((s.put ⟨k, 15, 0⟩ v).reg k).toNat := by
    have hlt := ((s.put ⟨k, 15, 0⟩ v).reg k).isLt
    change ((s.put ⟨k, 15, 0⟩ v).reg k).toNat / 2 ^ 0 % 2 ^ 16 = _
    omega
  exact BitVec.eq_of_toNat_eq (by rw [← hword, hget, BitVec.toNat_ofNat])

theorem State.reg_putWords_below (l : List Nat) {k j : Nat} (h : j < k) (s : State) : (s.putWords k l).reg j = s.reg j := by
  induction l generalizing k s with
  | nil => rfl
  | cons v l ih => exact (ih (by omega) _).trans (s.reg_put_ne v (by exact Nat.ne_of_lt h))

theorem State.reg_putWords (h : s.Tidy) (l : List Nat) (k : Nat) {i : Nat} (hi : i < l.length) :
    (s.putWords k l).reg (k + i) = BitVec.ofNat 16 (l.getD i 0) := by
  induction l generalizing k i s with
  | nil => exact absurd hi (by simp)
  | cons v l ih =>
    rw [State.putWords]
    cases i with
    | zero => exact (State.reg_putWords_below l (by omega) _).trans (State.reg_put_word h k v)
    | succ i =>
      have hrest := ih (State.tidy_put (x := ⟨k, 15, 0⟩) (v := v) h) (k + 1) (i := i) (by simpa using hi)
      rw [show k + 1 + i = k + (i + 1) by omega] at hrest
      exact hrest

/-! ### Templates -/

theorem State.slot_length (s : State) {j : Nat} (hj : j < 4) : (s.slotList.getD j []).length = 16 := by
  simp [State.slotList, List.getD_eq_getElem?_getD, hj]

theorem State.slotList_congr (h : t.lf = s.lf) : t.slotList = s.slotList := by rw [State.slotList, State.slotList, h]

theorem State.tplSel_shows (h : s.Tidy) (v : Nat) : (s.tplSel v).get LFT_TPL_SEL.SLOT = v % 4 ∧
    ∀ i ∈ List.range 16, (s.tplSel v).reg (LFT_TPL.w i).key = (s.slotList.getD (v % 4) []).getD i 0 := by
  have hj : v % 4 < 4 := Nat.mod_lt _ (by decide)
  have hlen := s.slot_length hj
  have hslots : (s.put LFT_TPL_SEL.w (v % 4)).slotList = s.slotList := State.slotList_congr rfl
  have h1 : (s.put LFT_TPL_SEL.w (v % 4)).Tidy := State.tidy_put h
  have hsel : (s.put LFT_TPL_SEL.w (v % 4)).get LFT_TPL_SEL.SLOT = v % 4 := by
    have hreg := State.reg_put_word h LFT_TPL_SEL.w.key (v % 4)
    change ((s.put LFT_TPL_SEL.w (v % 4)).reg LFT_TPL_SEL.w.key).toNat / 2 ^ 0 % 4 = _
    rw [show LFT_TPL_SEL.w = ⟨LFT_TPL_SEL.w.key, 15, 0⟩ from rfl, hreg, BitVec.toNat_ofNat]
    omega
  rw [State.tplSel, hslots]
  generalize s.put LFT_TPL_SEL.w (v % 4) = u at *
  generalize s.slotList.getD (v % 4) [] = l at *
  constructor
  · have hreg := State.reg_putWords_below (l.map BitVec.toNat) (k := (LFT_TPL.w 0).key) (j := LFT_TPL_SEL.w.key) (by decide) u
    rw [← hsel, State.get, State.get]
    exact congrArg (fun w : Word => w.toNat / 2 ^ LFT_TPL_SEL.SLOT.lo % LFT_TPL_SEL.SLOT.size) hreg
  · intro i hi
    have hi16 : i < 16 := List.mem_range.mp hi
    have hread := State.reg_putWords h1 (l.map BitVec.toNat) (LFT_TPL.w 0).key (i := i) (by simp; omega)
    rw [show (LFT_TPL.w i).key = (LFT_TPL.w 0).key + i from rfl, hread]
    simp [List.getD_eq_getElem?_getD, List.getElem?_eq_getElem (show i < l.length by omega)]

/-- The row of LFT_TPL_SEL. -/
def lftTplSelDef : RegDef := ⟨0x1082, 0, 3, 0, 0, 0⟩

theorem regDef_lftTplSel : regDef? LFT_TPL_SEL.w.key = some lftTplSelDef := by decide

theorem exec_lftTplSelWrite {v : Word} (h : Serves s f (keyPage LFT_TPL_SEL.w.key))
    (hlegal : legalWord f LFT_TPL_SEL.w.key v = true) : exec (.lftTplSelWrite f v) s = .next (s.regAccess.tplSel v.toNat) := by
  have hwrite : s.cmdWrite f LFT_TPL_SEL.w v = s.regAccess.tplSel v.toNat := by
    rw [State.cmdWrite_page_legal regDef_lftTplSel (by decide) (by decide) rfl (by decide) hlegal h]
    rfl
  rw [← hwrite]
  rfl

/-- The row of LFT_TPL_CTL: COMMIT and CLEAR are command bits. -/
def lftTplCtlDef : RegDef := ⟨0x1083, 0, 0, 0, 3, 0⟩

theorem regDef_lftTplCtl : regDef? LFT_TPL_CTL.w.key = some lftTplCtlDef := by decide

theorem legalWord_lftTplCtl (f : Fn) {w : Word} (hw : w = 1 ∨ w = 2) : legalWord f LFT_TPL_CTL.w.key w = true := by
  rw [legalWord_of_unranged (by decide), extraLegal]
  rcases hw with h | h <;> simp (decide := true) only [h, if_false]

theorem State.cmdWrite_lftTplCtl {w : Word} (hw : w = 1 ∨ w = 2) (h : Serves s f (keyPage LFT_TPL_CTL.w.key)) :
    s.cmdWrite f LFT_TPL_CTL.w w = s.regAccess.woBits f w [(0, fun s => s.tplCommit f), (1, fun s => s.tplClear f)] := by
  rw [State.cmdWrite_page_legal regDef_lftTplCtl (by decide) (by decide) rfl (by decide) (legalWord_lftTplCtl f hw) h]
  rfl

theorem exec_lftTplCommit (h : Serves s f (keyPage LFT_TPL_CTL.w.key)) :
    exec (.lftTplCommit f) s = .next (s.regAccess.errAfter ((s.regAccess.setErr f 0).tplCommit f) f) := by
  rw [show exec (.lftTplCommit f) s = .next (s.cmdWrite f LFT_TPL_CTL.w 1) from rfl, State.cmdWrite_lftTplCtl (.inl rfl) h,
    State.woBits_single (b := 0) (act := fun s => s.tplCommit f) (by simp)]

theorem exec_lftTplClear (h : Serves s f (keyPage LFT_TPL_CTL.w.key)) :
    exec (.lftTplClear f) s = .next (s.regAccess.errAfter ((s.regAccess.setErr f 0).tplClear f) f) := by
  rw [show exec (.lftTplClear f) s = .next (s.cmdWrite f LFT_TPL_CTL.w 2) from rfl, State.cmdWrite_lftTplCtl (.inr rfl) h,
    State.woBits_single (b := 1) (act := fun s => s.tplClear f) (by simp)]

/-- What an access and a cleared `FN_ERR` leave: the templates, the window and the lock. -/
theorem State.accessed_lf (s : State) (f : Fn) : (s.regAccess.setErr f 0).lf = s.lf ∧
    (s.regAccess.setErr f 0).get LFT_TPL_SEL.SLOT = s.get LFT_TPL_SEL.SLOT ∧
    (s.regAccess.setErr f 0).bit PART_STAT.LOCKED = s.bit PART_STAT.LOCKED ∧
    (∀ i ∈ List.range 16, (s.regAccess.setErr f 0).reg (LFT_TPL.w i).key = s.reg (LFT_TPL.w i).key) ∧
    (s.Tidy → (s.regAccess.setErr f 0).Tidy) := by
  have hk : Keeps (areasMask Area.access) s (s.regAccess.setErr f 0) :=
    State.setErr_keeps _ _ _ s.regAccess_keeps_access (by decide)
  refine ⟨hk.same (a := .lf) (by decide), hk.get_eq (by decide), State.bit_of_get_eq (hk.get_eq (by decide)), fun i hi => ?_,
    hk.tidy⟩
  have hi16 : i < 16 := List.mem_range.mp hi
  exact hk.reg_eq (by interval_cases i <;> decide)

theorem State.tplCommit_shows (h : s.Tidy) (hopen : s.bit PART_STAT.LOCKED = false)
    (hok : tplOk ((List.range 16).map fun i => s.reg (LFT_TPL.w i).key) = true) :
    (s.tplCommit f).bit LFT_TPL_STAT.REJ = false ∧ (s.tplCommit f).lf.slots =
      s.slotList.set (s.get LFT_TPL_SEL.SLOT) ((List.range 16).map fun i => s.reg (LFT_TPL.w i).key) := by
  unfold State.tplCommit
  dsimp only
  rw [if_neg (by simp [hopen]), if_pos hok]
  generalize s.slotList.set _ _ = l
  have hrej : (s.put LFT_TPL_STAT.REJ 0).get LFT_TPL_STAT.REJ = 0 := State.get_put_self h (by decide)
  have h1 : (s.put LFT_TPL_STAT.REJ 0).Tidy := State.tidy_put h
  generalize s.put LFT_TPL_STAT.REJ 0 = u at *
  have h2 : ({ u with lf := { u.lf with slots := l } } : State).Tidy := h1
  exact ⟨bit_eq_of_get (n := 0) ((State.get_put_other h2 (by decide) (by decide) (by decide)).trans hrej), rfl⟩

theorem State.tplClear_shows (hopen : s.bit PART_STAT.LOCKED = false) : (s.tplClear f).lf.slots =
    s.slotList.set (s.get LFT_TPL_SEL.SLOT) ((List.range 16).map fun _ => 0) := by
  rw [State.tplClear, if_neg (by simp [hopen])]
  rfl

/-! ### Markers, frames and the carrier -/

/-- What a marker one second after the last leaves before FRAMESYNC: the row, the edge and the second. -/
def State.markerTaken (s : State) (edge : Nat) (x : LfSec) : State :=
  { s with lf := { s.lf with row := s.lf.row + 1, lastEdge := some edge, secs := [x] } }

theorem exec_lfMarker {edge durUs n e : Nat} {tpl : List Word} (hcopy : s.lf.copy = some (n, tpl)) (hbearer : s.onBearer 1 = true)
    (hlast : s.lf.lastEdge = some e) (hone : oneApart e edge = true) (hsync : s.bit LFT_STAT.FRAMESYNC = false) :
    exec (.lfMarker edge durUs) s = .next (
      if 5 ≤ s.lf.row + 1 then (s.markerTaken edge ⟨markerClass tpl durUs, edge⟩).put LFT_STAT.SECSYNC 1
      else s.markerTaken edge ⟨markerClass tpl durUs, edge⟩) := by
  change execLfMarker edge durUs s = _
  rw [execLfMarker, hcopy]
  dsimp only
  rw [if_pos hbearer, hlast, hsync]
  simp only [hone, Bool.false_eq_true, if_false, if_true, List.length_nil, Nat.not_lt_zero]
  rfl

theorem State.marker_shows (h : s.Tidy) (edge : Nat) (x : LfSec) :
    let t := if 5 ≤ s.lf.row + 1 then (s.markerTaken edge x).put LFT_STAT.SECSYNC 1 else s.markerTaken edge x
    t.lf.row = s.lf.row + 1 ∧ t.lf.lastEdge = some edge ∧ t.lf.secs = [x] ∧
      t.bit LFT_STAT.SECSYNC = (s.bit LFT_STAT.SECSYNC || decide (5 ≤ s.lf.row + 1)) ∧ OnlyRegs [LFT_STAT.w] s t := by
  have h1 : (s.markerTaken edge x).Tidy := h
  by_cases hrow : 5 ≤ s.lf.row + 1
  · simp only [hrow, if_true, decide_true, Bool.or_true]
    exact ⟨rfl, rfl, rfl, bit_eq_of_get (n := 1) (State.get_put_self h1 (by decide)),
      (OnlyRegs.refl (l := [LFT_STAT.w]) (s := s)).trans (OnlyRegs.put (s := s.markerTaken edge x) (by decide) 1)⟩
  · simp only [hrow, if_false, decide_false, Bool.or_false]
    exact ⟨rfl, rfl, rfl, rfl, OnlyRegs.refl⟩

theorem exec_lfSecsyncLost {e : Nat} (hlast : s.lf.lastEdge = some e) (hsync : s.bit LFT_STAT.SECSYNC = true)
    (hold : e + 5 * 2 ^ 24 ≤ s.ktime) : exec .lfSecsyncLost s = .next
      { s.put LFT_STAT.SECSYNC 0 with lf := { s.lf with row := 0, spoiled := true } } := by
  change execLfSecsyncLost s = _
  rw [execLfSecsyncLost, hlast]
  dsimp only
  rw [if_pos ⟨hsync, hold⟩]
  rfl

/-- The start of a new frame at a minute mark. -/
def State.frameBegun (s : State) (e : Nat) : State :=
  { s.put LFT_STAT.FRAMESYNC 1 with lf := { s.lf with secs := [], spoiled := false, lastEdge := some e } }

/-- A minute mark given by a marker of class 3. -/
abbrev State.lfMarked (s : State) (n e : Nat) (tpl : List Word) (x : LfSec) : Prop :=
  s.lf.copy = some (n, tpl) ∧ s.lf.lastEdge = some e ∧ s.onBearer 1 = true ∧ tplWord tpl 7 / 0x8000 = 0 ∧
    s.lf.secs.getLast? = some x ∧ x.cls = 3

theorem exec_lfFrame {n e : Nat} {tpl : List Word} {x : LfSec} (h : s.lfMarked n e tpl x)
    (hlong : s.bit LFT_STAT.FRAMESYNC = true → tplLen tpl ≤ s.lf.secs.length) : exec .lfFrame s =
      .next ((if s.bit LFT_STAT.FRAMESYNC then s.lfJudge n tpl s.lf.secs else s).frameBegun e) := by
  obtain ⟨hcopy, hlast, hbearer, hmissing, hx, hcls⟩ := h
  have hmiss : (tplWord tpl 7 / 0x8000 == 1) = false := by rw [hmissing]; rfl
  change execLfFrame s = _
  rw [execLfFrame, hcopy, hlast]
  simp only [hmiss, Bool.false_eq_true, if_false, hx, hcls, beq_self_eq_true]
  rw [if_pos ⟨hbearer, trivial, hlong⟩]
  rfl

/-- What the judgement of a frame changes besides the count of frames. -/
def judgeMask : Nat := areasMask [.counters, .mode, .engines, .lf, .time, .reg INT_STAT0.w, .reg DQ_LOST.w, .reg WAKE_HREASON.w,
  .reg LFT_STAT.w, .reg LFT_EDGE_RMS.w, .reg LFT_CNT_FRAME_BAD.w, .reg LFT_CNT_TIME.w, .reg LFT_CNT_TIME_REJ.w]

theorem State.lfJudge_frame (s : State) (n : Nat) (tpl : List Word) (secs : List LfSec) :
    Keeps judgeMask (s.inc LFT_CNT_FRAME.w) (s.lfJudge n tpl secs) := by
  unfold State.lfJudge
  extract_lets good s1 s2 c acc s3 src s4 rms s5 bad w3 v tail fns
  have h2 : Keeps judgeMask s1 s2 := .ite .refl (State.inc_keeps _ _ .refl (by decide))
  have h3 : Keeps judgeMask s1 s3 :=
    .ite (State.candidate_keeps _ _ _ _ _ _ _ (State.put_keeps _ _ _ (State.inc_keeps _ _ h2 (by decide)) (by decide)) (by decide))
      (.ite (State.inc_keeps _ _ h2 (by decide)) h2)
  have h4 : Keeps judgeMask s1 s4 :=
    .ite (by simp (decide := true) only [↓Keeps.mk, or_true, true_or, eq_self, h3]) h3
  have h5 : Keeps judgeMask s1 s5 := State.put_keeps _ _ _ h4 (by decide)
  exact State.deliverAll_keeps _ _ _ _ _ _ h5 (by decide)

theorem State.lfJudge_frames (h : s.Tidy) (n : Nat) (tpl : List Word) (secs : List LfSec) :
    (s.lfJudge n tpl secs).get LFT_CNT_FRAME.w = min 0xFFFF (s.get LFT_CNT_FRAME.w + 1) := by
  rw [(s.lfJudge_frame n tpl secs).get_eq (by decide), State.get_inc_self h (by decide)]
  exact Nat.min_comm _ _

theorem exec_lfCarrierMeasure {err : Int} {sd : Nat} (h : s.onBearer 1 = true ∧ s.bit LFT_STAT.CARRIER = true ∧
    s.lf.carAt + 4 * 32768 ≤ s.aon) : exec (.lfCarrierMeasure err sd) s = .next
      (((({ s with lf := { s.lf with carAt := s.aon } } : State).put LFT_FERR.w (satCode err)).putSat LFT_FERR_SD.w sd).xoMeasure
        err sd) := congrArg Host.Outcome.next (if_pos h)

theorem State.xoMeas_xoMeasure (s : State) (err : Int) (sd : Nat) :
    (s.xoMeasure err sd).time.xoMeas = (err, sd, s.sec) :: s.time.xoMeas := by
  unfold State.xoMeasure
  dsimp only
  split
  · split <;> rfl
  · rfl

theorem satCode_lt (i : Int) : satCode i < 0x10000 := code16_lt _

theorem exec_lfCarrierChange_up {db : Int} (h : s.onBearer 1 = true ∧ (s.get LFT_CFG.CAR_DB : Int) < db) :
    exec (.lfCarrierChange db) s = .next (if s.bit LFT_STAT.CARRIER then s else
      ({ s with lf := { s.lf with carAt := s.aon } } : State).put LFT_STAT.CARRIER 1) := by
  obtain ⟨hbearer, hdb⟩ := h
  change execLfCarrierChange db s = _
  rw [execLfCarrierChange, if_pos hbearer, if_pos hdb]

theorem exec_lfCarrierChange_down {db : Int} (h : s.onBearer 1 = true ∧ db < (s.get LFT_CFG.CAR_DB : Int) ∧
    s.bit LFT_STAT.CARRIER = true) : exec (.lfCarrierChange db) s = .next
      (((s.put LFT_STAT.CARRIER 0).inc LFT_CNT_CARLOSS.w).put LFT_FERR.w 0x8000) := by
  obtain ⟨hbearer, hdb, hcar⟩ := h
  change execLfCarrierChange db s = _
  rw [execLfCarrierChange, if_pos hbearer, if_neg (by omega), if_pos ⟨hdb, hcar⟩]

/-- Settles O24: the templates by `State.tplSel_shows`, `State.tplCommit_shows` and `State.tplClear_shows`, a frame by
`State.lfJudge_frames`. -/
theorem lfCommandsComplete : Obligations.LfCommandsComplete := by
  unfold Obligations.LfCommandsComplete
  refine ⟨fun f v => .intro _ (fun s ⟨h, hlegal⟩ => exec_lftTplSelWrite h hlegal) fun s hc _ => ?_,
    fun f => .intro _ (fun s ⟨h, _⟩ => exec_lftTplCommit h) fun s hc ⟨_, hopen, hok⟩ => ?_,
    fun f => .intro _ (fun s ⟨h, _⟩ => exec_lftTplClear h) fun s hc ⟨_, hopen⟩ => ?_,
    fun edge durUs n e tpl => .intro _ (fun s ⟨h1, h2, h3, h4, h5⟩ => exec_lfMarker h1 h2 h3 h4 h5)
      fun s hc _ => State.marker_shows hc.tidy edge _,
    fun e => .intro _ (fun s ⟨h1, h2, h3⟩ => exec_lfSecsyncLost h1 h2 h3) fun s hc _ => ?_,
    fun n e tpl x => .intro _ (fun s ⟨h1, h2, h3, h4, h5, h6, _, hsync⟩ => exec_lfFrame ⟨h1, h2, h3, h4, h5, h6⟩
      fun hs => absurd hs (by simp [hsync])) fun s hc ⟨_, _, _, _, _, _, _, hsync⟩ => ?_,
    fun n e tpl x => .intro _ (fun s ⟨h1, h2, h3, h4, h5, h6, _, hlong⟩ => exec_lfFrame ⟨h1, h2, h3, h4, h5, h6⟩
      fun _ => hlong) fun s hc ⟨_, _, _, _, _, _, hsync, _⟩ => ?_,
    fun err sd => .intro _ (fun s h => exec_lfCarrierMeasure h) fun s hc _ => ?_,
    fun db => .intro _ (fun s h => exec_lfCarrierChange_up h) fun s hc _ => ?_,
    fun db => .intro _ (fun s h => exec_lfCarrierChange_down h) fun s hc _ => ?_⟩
  case refine_1 =>
    have hk := s.regAccess_keeps .refl (within?_self _)
    have hlf : s.regAccess.lf = s.lf := hk.same (a := .lf) (by decide)
    have hshows := State.tplSel_shows (hk.tidy hc.tidy) v.toNat
    rwa [State.slotList_congr hlf] at hshows
  case refine_2 =>
    obtain ⟨hlf, hsel, hlock, hregs, h1⟩ := s.accessed_lf f
    have hmap : (List.range 16).map (fun i => (s.regAccess.setErr f 0).reg (LFT_TPL.w i).key) =
      (List.range 16).map fun i => s.reg (LFT_TPL.w i).key := List.map_congr_left hregs
    have hslots := State.slotList_congr hlf
    generalize s.regAccess.setErr f 0 = u at *
    obtain ⟨hrej, hset⟩ := State.tplCommit_shows (f := f) (h1 hc.tidy) (hlock.trans hopen) (by rw [hmap]; exact hok)
    rw [hslots, hsel, hmap] at hset
    exact ⟨(State.bit_of_get_eq (State.get_errAfter (by decide))).trans hrej, hset⟩
  case refine_3 =>
    obtain ⟨hlf, hsel, hlock, -, -⟩ := s.accessed_lf f
    have hslots := State.slotList_congr hlf
    generalize s.regAccess.setErr f 0 = u at *
    have hset := State.tplClear_shows (f := f) (hlock.trans hopen)
    rwa [hslots, hsel] at hset
  case refine_4 => exact ⟨bit_eq_of_get (n := 0) (State.get_put_self hc.tidy (by decide)), rfl, rfl, OnlyRegs.put (by decide) 0⟩
  case refine_5 =>
    rw [hsync]
    exact ⟨bit_eq_of_get (n := 1) (State.get_put_self hc.tidy (by decide)), rfl, OnlyRegs.put (by decide) 1⟩
  case refine_6 =>
    rw [if_pos hsync]
    have hcnt := State.lfJudge_frames hc.tidy n tpl s.lf.secs
    generalize s.lfJudge n tpl s.lf.secs = u at *
    exact ⟨(State.get_put_ne _ 1 (by decide)).trans hcnt, rfl, rfl⟩
  case refine_7 =>
    have hs : s.Tidy := hc.tidy
    refine ⟨?_, ?_, State.xoMeas_xoMeasure _ err sd⟩
    · rw [(State.xoMeasure_keeps _ err sd .refl (within?_self _)).get_eq (by decide)]
      simp (decide := true) (maxDischargeDepth := 9) [State.putSat, hs]
      exact Nat.mod_eq_of_lt (b := 0x10000) (satCode_lt err)
    · rw [(State.xoMeasure_keeps _ err sd .refl (within?_self _)).get_eq (by decide)]
      simp (decide := true) (maxDischargeDepth := 9) [State.putSat, hs]
      exact Nat.mod_eq_of_lt (b := 0x10000) (Nat.lt_of_le_of_lt (Nat.min_le_right _ _) (by decide))
  case refine_8 =>
    dsimp only
    split
    · next hcar => exact ⟨hcar, OnlyRegs.refl⟩
    · exact ⟨bit_eq_of_get (n := 1) (State.get_put_self hc.tidy (by decide)), OnlyRegs.put (by decide) 1⟩
  case refine_9 =>
    have h1 : (s.put LFT_STAT.CARRIER 0).Tidy := State.tidy_put hc.tidy
    have hcar : (s.put LFT_STAT.CARRIER 0).get LFT_STAT.CARRIER = 0 := State.get_put_self hc.tidy (by decide)
    have hcnt : (s.put LFT_STAT.CARRIER 0).get LFT_CNT_CARLOSS.w = s.get LFT_CNT_CARLOSS.w := State.get_put_ne _ _ (by decide)
    generalize s.put LFT_STAT.CARRIER 0 = u at *
    refine ⟨bit_eq_of_get (n := 0) ?_, ?_, State.get_put_self (State.tidy_inc h1) (by decide)⟩
    · rw [State.get_put_ne _ _ (by decide), State.get_inc_ne _ (by decide), hcar]
    · rw [State.get_put_ne _ _ (by decide), State.get_inc_self h1 (by decide), hcnt]
      exact Nat.min_comm _ _

end Sys2Proof.Machine
end

section
/-! PROOFS. The biphase receiver and transmitter (O29). -/

namespace Sys2Proof.Machine

open R

variable {s t u : State} {f g : Fn}

/-! ### A block that enters the buffer -/

/-- The block's bytes, and its place among those in use. -/
def State.blockStored (s : State) (b : BlkNew) (at0 skip at1 : Nat) (used : List BlkUse) : State :=
  let s := s.setBytes (0x100000 + at1) b.bytes
  { s with capt := { s.capt with
      new := none, count := s.capt.count + 1, used := used ++ [(⟨at0, skip + b.bytes.length, at1⟩ : BlkUse)] } }

/-- The pointers, the record and the room shown. -/
def State.blockShown (s : State) (j : Job) (b : BlkNew) (at1 : Nat) : State :=
  let s := (s.put CAPT_WPTR.w ((at1 + b.bytes.length) / 4 % 32768)).showRptr
  let s := if s.bit CAPT_CFG.BLKREC then s.captRec j 1 b.flags b.index b.frames (0x100000 + at1) b.tq b.time [] [] else s
  s.showFree

/-- Where a block goes that ends at the buffer's end or starts anew at its beginning. -/
theorem State.writeBlock_eq {j : Job} {b : BlkNew} (hjob : s.capt.job = some j) (hnew : s.capt.new = some b) :
    s.writeBlock =
      let at0 := 4 * s.get CAPT_WPTR.w
      let skip := if 0x20000 < at0 + b.bytes.length then 0x20000 - at0 else 0
      let at1 := if skip = 0 then at0 else 0
      let used := if s.bit CAPT_CFG.OVERWRITE then dropOldest (skip + b.bytes.length) s.capt.used else s.capt.used
      if skip + b.bytes.length ≤ 0x20000 - (used.map BlkUse.len).sum then
        (s.blockStored b at0 skip at1 used).blockShown j b at1
      else s := by
  unfold State.writeBlock
  rw [hjob, hnew]
  rfl

/-- A block enters the buffer whole, or stays under assembly. -/
theorem State.writeBlock_cases (s : State) : s.writeBlock = s ∨ ∃ j b at0 skip at1 used,
    s.writeBlock = (s.blockStored b at0 skip at1 used).blockShown j b at1 := by
  cases hjob : s.capt.job with
  | none =>
    refine .inl ?_
    unfold State.writeBlock
    rw [hjob]
  | some j =>
    cases hnew : s.capt.new with
    | none =>
      refine .inl ?_
      unfold State.writeBlock
      rw [hjob, hnew]
    | some b =>
      have heq := State.writeBlock_eq hjob hnew
      extract_lets at0 skip at1 used at heq
      rw [heq]
      by_cases hroom : skip + b.bytes.length ≤ 0x20000 - (used.map BlkUse.len).sum
      · exact .inr ⟨j, b, at0, skip, at1, used, if_pos hroom⟩
      · exact .inl (if_neg hroom)

theorem State.capt_setBytes (s : State) (a : Nat) (l : List Byte) : (s.setBytes a l).capt = s.capt :=
  (s.setBytes_keeps a l .refl (within?_self _)).same (a := .capture) (by decide)

/-- What is shown beside the capture engine's own state. -/
theorem State.blockShown_frame (s : State) (j : Job) (b : BlkNew) (at1 : Nat) :
    Keeps (areasMask [.counters, .mode, .engines, .reg INT_STAT0.w, .reg DQ_LOST.w, .reg WAKE_HREASON.w, .page 0x13, .page 0x14,
      .reg CAPT_WPTR.w, .reg CAPT_RPTR.w, .reg CAPT_FREE.w]) s (s.blockShown j b at1) := by
  unfold State.blockShown
  extract_lets a c
  have ha : Keeps (areasMask [.counters, .mode, .engines, .reg INT_STAT0.w, .reg DQ_LOST.w, .reg WAKE_HREASON.w, .page 0x13,
      .page 0x14, .reg CAPT_WPTR.w, .reg CAPT_RPTR.w, .reg CAPT_FREE.w]) s a :=
    State.showRptr_keeps _ (State.put_keeps _ _ _ .refl (by decide)) (by decide)
  exact State.showFree_keeps _ (.ite (State.captRec_keeps _ _ _ _ _ _ _ _ _ _ _ ha (by decide)) ha) (by decide)

/-! ### What the blocks of a capture leave: the running capture and those that wait -/

/-- The running capture and the waiting ones stay. -/
structure CaptStep (s t : State) : Prop where
  job : t.capt.job = s.capt.job
  due : t.capt.due = s.capt.due

namespace CaptStep

theorem refl : CaptStep s s := ⟨rfl, rfl⟩

theorem of_capt (h : t.capt = s.capt) : CaptStep s t := ⟨congrArg _ h, congrArg _ h⟩

theorem trans (h : CaptStep s t) (k : CaptStep t u) : CaptStep s u := ⟨k.job.trans h.job, k.due.trans h.due⟩

theorem ite {c : Prop} [Decidable c] (h : CaptStep s t) (k : CaptStep s u) : CaptStep s (if c then t else u) := by
  split
  · exact h
  · exact k

theorem of_keeps {m : Nat} (h : Keeps m s t) (hm : m.testBit (Area.bit .capture) = false) : CaptStep s t :=
  of_capt (h.same (a := .capture) hm)

theorem captRec (j : Job) (kind flags index w7 w89 tq stamp : Nat) (extra : List Word) (bits : List Nat) :
    CaptStep s (s.captRec j kind flags index w7 w89 tq stamp extra bits) :=
  of_keeps (s.captRec_keeps j kind flags index w7 w89 tq stamp extra bits .refl (within?_self _)) (by decide)

theorem blockStored (b : BlkNew) (at0 skip at1 : Nat) (used : List BlkUse) : CaptStep s (s.blockStored b at0 skip at1 used) := by
  have hcapt := s.capt_setBytes (0x100000 + at1) b.bytes
  unfold State.blockStored
  generalize s.setBytes (0x100000 + at1) b.bytes = a at *
  constructor
  · change a.capt.job = _
    rw [hcapt]
  · change a.capt.due = _
    rw [hcapt]

theorem writeBlock : CaptStep s s.writeBlock := by
  rcases s.writeBlock_cases with h | ⟨j, b, at0, skip, at1, used, h⟩ <;> rw [h]
  · exact refl
  · exact (blockStored b at0 skip at1 used).trans (of_keeps (State.blockShown_frame _ j b at1) (by decide))

theorem cutSnippet : CaptStep s s.cutSnippet := by
  unfold State.cutSnippet
  split
  · exact ite refl ⟨rfl, rfl⟩
  · exact refl

theorem discont (stamp tq n : Nat) : CaptStep s (s.discont stamp tq n) := by
  unfold State.discont
  split
  · extract_lets a src b c
    have ha : CaptStep s a := writeBlock.trans cutSnippet
    have hb : CaptStep s b := ha.trans ⟨rfl, rfl⟩
    have hc : CaptStep s c := hb.trans (of_capt rfl)
    exact hc.trans (captRec _ _ _ _ _ _ _ _ _ _)
  · exact refl

theorem skipFrames (n : Nat) : CaptStep s (s.skipFrames n) := by
  unfold State.skipFrames
  split
  · exact ⟨rfl, rfl⟩
  · exact refl

theorem closeGap (j : Job) : CaptStep s (s.closeGap j) := by
  unfold State.closeGap
  split
  · exact ((discont _ _ _).trans (skipFrames _)).trans ⟨rfl, rfl⟩
  · exact refl

theorem bphUnlock : CaptStep s s.bphUnlock := by
  unfold State.bphUnlock
  extract_lets src a
  have ha : CaptStep s a := of_capt rfl
  split
  · split
    · exact (ha.trans (writeBlock.trans cutSnippet)).trans ⟨rfl, rfl⟩
    · exact ha
  · exact ha

end CaptStep

/-! ### The receiver's lock -/

/-- The receiver's state when it locks, before the bit. -/
def State.bphLocking (s : State) : State :=
  let s : State := { s with bph := { s.bph with half := none, cs := [], user := [], rateRef := none } }
  match s.capt.job with
  | some j =>
    if j.source = AudioPort.bph then
      if j.start < s.ktime then s.closeGap j
      else { s with capt := { s.capt with gap := none }, bph := { s.bph with lostAt := none } }
    else s
  | none => s

theorem exec_bphLock (h : s.bphRuns = true ∧ s.bit BPH_STAT.LOCK = false) :
    exec (.bphLock 192 false) s = .next (s.bphLocking.put BPH_STAT.LOCK 1) :=
  congrArg Host.Outcome.next (if_pos ⟨h.1, by simp [h.2], rfl, by simp⟩)

/-- A gap that closes leaves what the receiver holds of a frame. -/
theorem State.bph_closeGap (s : State) (j : Job) : (s.closeGap j).bph.rateRef = s.bph.rateRef ∧
    (s.closeGap j).bph.half = s.bph.half := by
  unfold State.closeGap
  split
  · next gs gt _ =>
    extract_lets n a src
    have hd : (s.discont gs gt n).bph = s.bph :=
      (s.discont_keeps gs gt n .refl (within?_self _)).same (a := .biphase) (by decide)
    have ha : a.bph = s.bph := Eq.trans ((State.skipFrames_keeps _ _ .refl (within?_self _)).same (a := .biphase) (by decide)) hd
    change a.bph.rateRef = _ ∧ a.bph.half = _
    rw [ha]
    exact ⟨rfl, rfl⟩
  · exact ⟨rfl, rfl⟩

theorem State.bphLocking_shows (h : s.Tidy) : s.bphLocking.Tidy ∧ s.bphLocking.bph.rateRef = none ∧
    s.bphLocking.bph.half = none := by
  unfold State.bphLocking
  extract_lets src a
  have ha : a.Tidy := h
  split
  · split
    · split
      · next j _ _ _ =>
        obtain ⟨hrate, hhalf⟩ := a.bph_closeGap j
        exact ⟨(a.closeGap_keeps j .refl (within?_self _)).tidy ha, hrate, hhalf⟩
      · exact ⟨ha, rfl, rfl⟩
    · exact ⟨ha, rfl, rfl⟩
  · exact ⟨ha, rfl, rfl⟩

/-- The loss as the registers show it. -/
def State.lockDropped (s : State) : State := ((s.put BPH_STAT.LOCK 0).inc BPH_CNT_LOCK.w).put BPH_EVT.LOCK_LOST 1

theorem exec_bphLockLost {missing violated : Nat} (h : s.bit BPH_STAT.LOCK = true ∧ 3 ≤ missing) :
    exec (.bphLockLost missing violated) s = .next (s.lockDropped.raiseIn iAUDIO_EVENT (s.lockDropped.granted 0x15)).bphUnlock :=
  congrArg Host.Outcome.next (if_pos ⟨h.1, .inl h.2⟩)

theorem State.lockDropped_shows (h : s.Tidy) : s.lockDropped.Tidy ∧ s.lockDropped.get BPH_STAT.LOCK = 0 ∧
    s.lockDropped.get BPH_CNT_LOCK.w = min 0xFFFF (s.get BPH_CNT_LOCK.w + 1) ∧ s.lockDropped.get BPH_EVT.LOCK_LOST = 1 := by
  have h1 : (s.put BPH_STAT.LOCK 0).Tidy := State.tidy_put h
  have hlock : (s.put BPH_STAT.LOCK 0).get BPH_STAT.LOCK = 0 := State.get_put_self h (by decide)
  have hcnt : (s.put BPH_STAT.LOCK 0).get BPH_CNT_LOCK.w = s.get BPH_CNT_LOCK.w := State.get_put_ne _ _ (by decide)
  unfold State.lockDropped
  generalize s.put BPH_STAT.LOCK 0 = u at *
  have h2 : (u.inc BPH_CNT_LOCK.w).Tidy := State.tidy_inc h1
  refine ⟨State.tidy_put h2, ?_, ?_, State.get_put_self h2 (by decide)⟩
  · rw [State.get_put_ne _ _ (by decide), State.get_inc_ne _ (by decide), hlock]
  · rw [State.get_put_ne _ _ (by decide), State.get_inc_self h1 (by decide), hcnt]
    exact Nat.min_comm _ _

/-! ### Subframes and blocks -/

/-- The counters of a subframe. -/
def State.subframeCounted (s : State) (valid parityOk : Bool) : State :=
  let s := if parityOk then s else s.inc BPH_CNT_PARITY.w
  if valid then s else s.inc BPH_CNT_INVALID.w

theorem State.subframeCounted_same (s : State) (valid parityOk : Bool) : (s.subframeCounted valid parityOk).bph = s.bph ∧
    (s.subframeCounted valid parityOk).capt = s.capt ∧ (s.subframeCounted valid parityOk).ktime = s.ktime := by
  unfold State.subframeCounted
  cases parityOk <;> cases valid <;> exact ⟨rfl, rfl, rfl⟩

theorem State.subframeCounted_parity (h : s.Tidy) (valid : Bool) : (s.subframeCounted valid false).get BPH_CNT_PARITY.w =
    min 0xFFFF (s.get BPH_CNT_PARITY.w + 1) := by
  have hinc : (s.inc BPH_CNT_PARITY.w).get BPH_CNT_PARITY.w = min 0xFFFF (s.get BPH_CNT_PARITY.w + 1) :=
    (State.get_inc_self h (by decide)).trans (Nat.min_comm _ _)
  unfold State.subframeCounted
  cases valid
  · exact (State.get_inc_ne _ (by decide)).trans hinc
  · exact hinc

theorem exec_bphSubframe_b {word : BitVec 24} {valid user status parityOk : Bool} (h : s.bit BPH_STAT.LOCK = true) :
    exec (.bphSubframe .b word valid user status parityOk) s = .next (
      let t := s.subframeCounted valid parityOk
      { t with bph := { t.bph with half := some (if parityOk then word.toInt else 0, !parityOk, !valid), halfAt := t.ktime,
                                   cs := [status], user := [user], blockAt := t.ktime } }) :=
  congrArg Host.Outcome.next (if_pos h)

theorem exec_bphSubframe_m {word : BitVec 24} {valid user status parityOk : Bool} (h : s.bit BPH_STAT.LOCK = true) :
    exec (.bphSubframe .m word valid user status parityOk) s = .next (
      let t := s.subframeCounted valid parityOk
      { t with bph := { t.bph with half := some (if parityOk then word.toInt else 0, !parityOk, !valid), halfAt := t.ktime,
                                   cs := t.bph.cs ++ [status], user := t.bph.user ++ [user] } }) :=
  congrArg Host.Outcome.next (if_pos h)

theorem State.half_none (h : t.bph.half = none) : ({ t with bph := { t.bph with half := none } } : State) = t := by
  cases t
  rename_i bph _ _ _ _ _ _
  cases bph
  cases h
  rfl

/-- With no capture running, the second half of a frame goes nowhere. -/
theorem exec_bphSubframe_w {word : BitVec 24} {valid user status : Bool} (h : s.bit BPH_STAT.LOCK = true)
    (hjob : s.capt.job = none) : exec (.bphSubframe .w word valid user status false) s = .next (
      let t := s.subframeCounted valid false
      { t with bph := { t.bph with half := none } }) := by
  obtain ⟨hbph, hcapt, -⟩ := s.subframeCounted_same valid false
  have hexec : exec (.bphSubframe .w word valid user status false) s = .next (
      match (s.subframeCounted valid false).bph.half with
      | some (a, par, inv) =>
        let t := s.subframeCounted valid false
        let chans := match t.capt.job with | some j => j.bphChans | none => []
        let flags := (if par || !false then 2 else 0) + (if inv || !valid then 4 else 0)
        let t := t.sourceFrame .bph (chans.map (fun c => if c = 0 then a else 0)) t.bph.halfAt flags
        { t with bph := { t.bph with half := none } }
      | none => s.subframeCounted valid false) := congrArg Host.Outcome.next (if_pos h)
  rw [hexec]
  generalize s.subframeCounted valid false = t at *
  have hnone : ∀ l at_ flags, t.sourceFrame .bph l at_ flags = t := fun l at_ flags => by
    unfold State.sourceFrame
    rw [hcapt, hjob]
  split
  · dsimp only
    rw [hnone]
  · next hhalf =>
    exact congrArg Host.Outcome.next (State.half_none hhalf).symm

end Sys2Proof.Machine
end

section
/-! PROOFS. The biphase blocks and the capture engine (O29). -/

namespace Sys2Proof.Machine

open R

variable {s t u : State} {f g : Fn}

/-! ### Channel status, rate and transmitter -/

/-- The channel status of a block as the registers show it. -/
def State.statusShown (s : State) : State :=
  let b (i : Nat) : Nat := byteLsb s.bph.cs i
  let s1 := s.putWords 0x1586 [b 0 * 0x100 + b 1, b 2 * 0x100 + b 3, b 4 * 0x100 + b 5]
  let s1 := (s1.put BPH_STAT.PRO (b 0)).put BPH_STAT.NONAUDIO (b 0 / 2)
  let coded := codeClass (b 3 % 16)
  s1.putBit BPH_STAT.CS_MISMATCH (coded != 0 && coded != s.get BPH_STAT.CLASS)

theorem exec_bphBlockEnd (h : s.bit BPH_STAT.LOCK = true ∧ s.bph.cs.length = 192) : exec .bphBlockEnd s = .next
    { s.statusShown.umsgCheck with bph := { s.statusShown.umsgCheck.bph with cs := [], user := [] } } :=
  congrArg Host.Outcome.next (if_pos h)

theorem State.statusShown_shows (h : s.Tidy) : s.statusShown.Tidy ∧
    s.statusShown.get BPH_STAT.PRO = byteLsb s.bph.cs 0 % 2 := by
  unfold State.statusShown
  extract_lets b u v coded
  have hu : u.Tidy := (State.putWords_keeps (μ := areasMask [.page 0x15]) s _ _ .refl (by
    intro i hi
    have : i < 3 := hi
    interval_cases i <;> decide)).tidy h
  have h1 : (u.put BPH_STAT.PRO (b 0)).Tidy := State.tidy_put hu
  have hpro : (u.put BPH_STAT.PRO (b 0)).get BPH_STAT.PRO = b 0 % 2 := State.get_put_self hu (by decide)
  have hv : v.Tidy := State.tidy_put h1
  have hpro2 : v.get BPH_STAT.PRO = b 0 % 2 :=
    (State.get_put_other h1 (by decide) (by decide) (by decide)).trans hpro
  exact ⟨State.tidy_put hv, (State.get_put_other hv (by decide) (by decide) (by decide)).trans hpro2⟩

/-- A stamp message latched leaves what the channel status shows. -/
theorem State.pro_umsgCheck (h : s.Tidy) : s.umsgCheck.get BPH_STAT.PRO = s.get BPH_STAT.PRO := by
  unfold State.umsgCheck
  extract_lets m bs u v
  split
  · have hu : Keeps (areasMask ((List.range 12).map fun i => Area.reg ⟨0x15A0 + i, 15, 0⟩)) s u :=
      State.putWords_keeps _ _ _ .refl (by
        intro i hi
        have : i < 12 := by simpa using hi
        interval_cases i <;> decide)
    have hlt : Keeps (areasMask [.reg BPH_UMSG_LT_L.w, .reg BPH_UMSG_LT_H.w]) u
        (u.put32 BPH_UMSG_LT_L.w (u.bph.blockAt % 2 ^ 32)) := State.put32_keeps _ _ _ .refl (by decide) (by decide)
    have hmark := v.markUmsg_keeps v.bph.blockAt .refl (within?_self _)
    rw [hmark.get_eq (by decide)]
    exact (State.get_put_other (hlt.tidy (hu.tidy h)) (by decide) (by decide) (by decide)).trans
      ((hlt.get_eq (by decide)).trans (hu.get_eq (by decide)))
  · rfl

/-- The measured rate, its class and its offset. -/
def State.rateShown (s : State) (rate cls : Nat) (ppm : Int) : State :=
  ((s.put32 BPH_RATE_L.w (rate % 2 ^ 32)).put BPH_STAT.CLASS cls).put BPH_RATE_PPM.w (code16 ppm)

theorem State.rateShown_shows (h : s.Tidy) (rate : Nat) {cls : Nat} (hcls : cls < 8) (ppm : Int) :
    (s.rateShown rate cls ppm).get32 BPH_RATE_L.w = rate % 0x100000000 ∧ (s.rateShown rate cls ppm).get BPH_STAT.CLASS = cls := by
  constructor
  · rw [State.rateShown, State.get32_put_ne (by decide) (by decide), State.get32_put_ne (by decide) (by decide)]
    exact State.get32_put32 h (Nat.mod_lt _ (by decide))
  · simp (decide := true) (maxDischargeDepth := 9) [State.rateShown, State.put32, h]
    exact Nat.mod_eq_of_lt (b := 8) hcls

theorem classOf_lt (mHz : Nat) : (classOf mHz).1 < 8 := by
  unfold classOf
  cases hfind : rateClasses.find? _ with
  | none => decide
  | some c =>
    have hmem := List.mem_of_find?_eq_some hfind
    have hall : ∀ c ∈ rateClasses, c.1 < 8 := by decide
    exact hall c hmem

/-- A change of rate is told to the functions that may know and to the capture. -/
def State.rateTold (s : State) (rate cls : Nat) (ppm : Int) : State :=
  let s : State := { s with bph := { s.bph with rateRef := some (ppm, cls) } }
  let s := (s.put BPH_EVT.RATE 1).raiseIn iRATE_CHANGE (s.granted 0x15)
  match s.capt.job with
  | some j => s.captRec j 7 0 (s.get32 CAPT_FIDX_L.w) cls rate s.tq s.stamp [] []
  | none => s

theorem State.rateTold_frame (s : State) (rate cls : Nat) (ppm : Int) :
    Keeps (areasMask [.counters, .mode, .engines, .biphase, .reg INT_STAT0.w, .reg DQ_LOST.w, .reg WAKE_HREASON.w, .reg BPH_EVT.w]) s
      (s.rateTold rate cls ppm) := by
  unfold State.rateTold
  extract_lets src a b
  have ha : Keeps (areasMask [.counters, .mode, .engines, .biphase, .reg INT_STAT0.w, .reg DQ_LOST.w, .reg WAKE_HREASON.w,
      .reg BPH_EVT.w]) s a := by simp (decide := true) only [a, ↓Keeps.mk, ↓Keeps.refl, or_true, true_or, eq_self]
  have hb : Keeps (areasMask [.counters, .mode, .engines, .biphase, .reg INT_STAT0.w, .reg DQ_LOST.w, .reg WAKE_HREASON.w,
      .reg BPH_EVT.w]) s b := State.raiseIn_keeps _ _ _ (State.put_keeps _ _ _ ha (by decide)) (by decide)
  split
  · exact State.captRec_keeps _ _ _ _ _ _ _ _ _ _ _ hb (by decide)
  · exact hb

theorem exec_bphRateMeasure {mHz : Nat} (hlock : s.bit BPH_STAT.LOCK = true) (hxo : s.get TIME_XO_ERR.w = 0x8000) :
    ∃ ppm, exec (.bphRateMeasure mHz) s = .next (s.rateShown mHz (classOf mHz).1 ppm) ∨
      exec (.bphRateMeasure mHz) s = .next ((s.rateShown mHz (classOf mHz).1 ppm).rateTold mHz (classOf mHz).1 ppm) := by
  have hexec : exec (.bphRateMeasure mHz) s = execBphRateMeasure mHz s := rfl
  rw [execBphRateMeasure, if_pos hlock, hxo] at hexec
  dsimp only at hexec
  rw [if_pos rfl] at hexec
  rw [hexec]
  generalize classOf mHz = c
  obtain ⟨cls, nom⟩ := c
  refine ⟨if cls = 0 then -0x8000 else max (-0x7FFF) (min 0x7FFF (Config.round (((mHz : ℚ) - nom) * 10 ^ 7 / nom))), ?_⟩
  dsimp only
  generalize (if cls = 0 then (-0x8000 : Int) else
    max (-0x7FFF) (min 0x7FFF (Config.round (((mHz : ℚ) - nom) * 10 ^ 7 / nom)))) = ppm
  rw [← State.rateShown]
  exact (ite_eq_or_eq _ _ _).symm.imp (congrArg Host.Outcome.next) (congrArg Host.Outcome.next)

theorem exec_bphOutFrame (h : s.ap.bph.run = true) : exec .bphOutFrame s = .next (
    let i := s.bph.frame
    let msg := if i = 0 then (if s.bit BPH_CTL.UMSG_TX then s.stampMsg else []) else s.bph.msg
    let t := (s.txEdge .bph).showLevels
    { t with bph := { t.bph with msg := msg, bits := (bitMsb msg i, t.outStatus i), frame := (i + 1) % 192,
                                 blocks := if i = 191 then t.bph.blocks + 1 else t.bph.blocks } }) :=
  congrArg Host.Outcome.next (if_pos h)

/-- The edge of the transmitter changes neither the frame it is at nor the channel status it sends. -/
theorem State.txEdge_bph (s : State) : (s.txEdge .bph).showLevels.bph = s.bph ∧
    ∀ i, (s.txEdge .bph).showLevels.outStatus i = s.outStatus i := by
  have hedge := s.txEdge_keeps .bph .refl (within?_self _)
  have hlevels := (s.txEdge .bph).showLevels_keeps .refl (within?_self _)
  refine ⟨Eq.trans (hlevels.same (a := .biphase) (by decide)) (hedge.same (a := .biphase) (by decide)), fun i => ?_⟩
  unfold State.outStatus
  split
  · rfl
  · next hi =>
    have hword : i / 16 < 3 := by omega
    have hget : (s.txEdge .bph).showLevels.get (BPH_OCS.w (i / 16)) = s.get (BPH_OCS.w (i / 16)) := by
      interval_cases i / 16 <;> exact (hlevels.get_eq (by decide)).trans (hedge.get_eq (by decide))
    rw [hget]

end Sys2Proof.Machine
end

section
/-! PROOFS. The capture engine, and the biphase link and captures together (O29). -/

namespace Sys2Proof.Machine

open R

variable {s t u : State} {f g : Fn}

/-! ### The start -/

theorem exec_captureStart {j : Job} {rest : List Job} (hdue : s.capt.due = j :: rest) (hcome : s.captDue = true)
    (hxo : s.bit CLK_STAT.XO_OK = true) : exec .captureStart s = .next (s.captBegin j rest) := by
  change execCaptureStart s = _
  rw [execCaptureStart, hdue]
  dsimp only
  rw [if_pos ⟨hcome, hxo⟩]

/-- A capture that begins leaves those that wait behind it, and counts its frames from 0. -/
theorem State.captBegin_rest (h : s.Tidy) (j : Job) (rest : List Job) : (s.captBegin j rest).capt.due = rest ∧
    (s.captBegin j rest).get32 CAPT_FIDX_L.w = 0 := by
  have hentered : (s.captEntered j rest).Tidy := (State.captEntered_shows h j rest).1
  have hdue : (s.captEntered j rest).capt.due = rest := rfl
  rw [State.captBegin_eq]
  generalize s.captEntered j rest = u at *
  have hshown : Keeps (areasMask [.reg CAPT_STAT.w]) u (u.captShown j) := by
    unfold State.captShown
    exact State.putBit_keeps _ _ _ (State.put_keeps _ _ _ (State.putBit_keeps _ _ _ (State.put_keeps _ _ _ .refl (by decide))
      (by decide)) (by decide)) (by decide)
  have hdue2 : (u.captShown j).capt.due = rest := (CaptStep.of_keeps hshown (by decide)).due.trans hdue
  have h2 := hshown.tidy hentered
  generalize u.captShown j = v at *
  have hclear : CaptStep v v.captCleared := by
    have hport (t : State) (p : AudioPort) (e : Port) : CaptStep t (t.setPort p e) := .of_capt (by cases p <;> rfl)
    unfold State.captCleared
    exact (((CaptStep.ite .refl .bphUnlock).trans (hport _ _ _)).trans (hport _ _ _)).trans (hport _ _ _)
  have hdue3 := hclear.due.trans hdue2
  have h3 := v.captCleared_frame.tidy h2
  generalize v.captCleared = w at *
  have hzero : (w.put32 CAPT_FIDX_L.w 0).get32 CAPT_FIDX_L.w = 0 := State.get32_put32 h3 (by decide)
  have hset : Keeps (areasMask [.reg MODE.w]) (w.put32 CAPT_FIDX_L.w 0) ((w.put32 CAPT_FIDX_L.w 0).setAct MODE.CAPTURE_ACT true) :=
    State.setAct_keeps _ _ _ .refl (by decide) (by decide)
  have hdue4 : (w.put32 CAPT_FIDX_L.w 0).capt.due = rest := hdue3
  generalize w.put32 CAPT_FIDX_L.w 0 = x at *
  have hfree := State.showFree_keeps (x.setAct MODE.CAPTURE_ACT true) .refl (within?_self _)
  refine ⟨((CaptStep.of_keeps hset (by decide)).trans (.of_keeps hfree (by decide))).due.trans hdue4, ?_⟩
  rw [State.get32, hfree.get_eq (by decide), hfree.get_eq (by decide), hset.get_eq (by decide), hset.get_eq (by decide),
    ← State.get32, hzero]

/-! ### A block -/

theorem exec_captureBlockWrite {b : BlkNew} (hnew : s.capt.new = some b) (hfull : s.get CAPT_BLK_FR.w ≤ b.frames) :
    exec .captureBlockWrite s = .next s.writeBlock := by
  change execCaptureBlockWrite s = _
  rw [execCaptureBlockWrite, hnew]
  dsimp only
  rw [if_pos hfull]

/-- A block that fits before the end of the buffer, in a buffer that keeps its blocks. -/
theorem State.writeBlock_fits {j : Job} {b : BlkNew} (hjob : s.capt.job = some j) (hnew : s.capt.new = some b)
    (hkeep : s.bit CAPT_CFG.OVERWRITE = false) (hend : 4 * s.get CAPT_WPTR.w + b.bytes.length ≤ 0x20000)
    (hroom : b.bytes.length ≤ 0x20000 - (s.capt.used.map BlkUse.len).sum) : s.writeBlock =
      (s.blockStored b (4 * s.get CAPT_WPTR.w) 0 (4 * s.get CAPT_WPTR.w) s.capt.used).blockShown j b (4 * s.get CAPT_WPTR.w) := by
  have heq := State.writeBlock_eq hjob hnew
  dsimp only at heq
  rw [if_neg (show ¬ 0x20000 < 4 * s.get CAPT_WPTR.w + b.bytes.length by omega), if_pos rfl, hkeep,
    if_neg (show ¬ false = true by decide), Nat.zero_add, if_pos hroom] at heq
  exact heq

/-- What a block in the buffer shows. -/
theorem State.blockStored_shows (h : s.Tidy) (j : Job) (b : BlkNew) (n : Nat) :
    let t := (s.blockStored b n 0 n s.capt.used).blockShown j b n
    t.capt.new = none ∧ t.capt.count = s.capt.count + 1 ∧
      t.capt.used = s.capt.used ++ [⟨n, b.bytes.length, n⟩] ∧ t.bytes (0x100000 + n) b.bytes.length = b.bytes ∧
      MemKept (fun a => decide (a < 0x100000 + n ∨ 0x100000 + n + b.bytes.length ≤ a)) s t := by
  have hcapt := s.capt_setBytes (0x100000 + n) b.bytes
  have hbytes := State.bytes_setBytes b.bytes (0x100000 + n) h.mem
  have hout : ∀ c, c < 0x100000 + n ∨ 0x100000 + n + b.bytes.length ≤ c → (s.setBytes (0x100000 + n) b.bytes).byte c = s.byte c :=
    fun c hc => State.byte_setBytes_out b.bytes s (0x100000 + n) hc
  have hstored : (s.blockStored b n 0 n s.capt.used).capt.new = none ∧
      (s.blockStored b n 0 n s.capt.used).capt.count = s.capt.count + 1 ∧
      (s.blockStored b n 0 n s.capt.used).capt.used = s.capt.used ++ [⟨n, b.bytes.length, n⟩] ∧
      (s.blockStored b n 0 n s.capt.used).mem = (s.setBytes (0x100000 + n) b.bytes).mem := by
    unfold State.blockStored
    generalize s.setBytes (0x100000 + n) b.bytes = a at *
    dsimp only
    rw [hcapt, Nat.zero_add]
    exact ⟨rfl, rfl, rfl, rfl⟩
  obtain ⟨hnew, hcount, hused, hmem⟩ := hstored
  generalize s.blockStored b n 0 n s.capt.used = u at *
  have hframe := u.blockShown_frame j b n
  have hcaptU : (u.blockShown j b n).capt = u.capt := hframe.same (a := .capture) (by decide)
  have hmemU : (u.blockShown j b n).mem = (s.setBytes (0x100000 + n) b.bytes).mem :=
    Eq.trans (hframe.same (a := .memory) (by decide)) hmem
  dsimp only
  rw [hcaptU, State.bytes_congr hmemU]
  exact ⟨hnew, hcount, hused, hbytes, fun c hc => (State.byte_of_mem hmemU c).trans (hout c (of_decide_eq_true hc))⟩

/-! ### The end -/

/-- The gap and the block under assembly are closed, and the snippet ends. -/
def State.captClosed (s : State) (j : Job) : State :=
  let s := (s.account.closeGap j).writeBlock
  match s.capt.snip with
  | some n => { s with capt := { s.capt with snip := some { n with trunc := n.trunc || !n.closed, closed := true } } }
  | none => s

/-- The record of the end. -/
def State.captEndRec (s : State) (j : Job) (flags : Nat) : State :=
  s.captRec j 6 (flags + if s.capt.input = none then 0x40 else 0) (s.get32 CAPT_FIDX_L.w) s.capt.count 0 s.tq s.stamp [] []

/-- The capture has passed, and what it asked for falls due. -/
def State.captPassed (s : State) (j : Job) : State :=
  let past : Past := ⟨j, s.capt.acc, s.capt.snip, s.ktime, s.tq, s.get32 CAPT_FIDX_L.w⟩
  { s with capt := { s.capt with job := none, past := some past, snip := none, statsDue := j.analysis, spillDue := j.spill } }

/-- The registers that show a capture at its end. -/
def State.captOff (s : State) (j : Job) : State :=
  let s := ((s.put CAPT_STAT.RUN 0).put CAPT_STAT.SHARED 0).putBit CAPT_STAT.SPILLING j.spill
  let s := (s.put BPH_STAT.LOCK 0).setRx .bph 0 0 0
  if j.spill then s.setAct MODE.MAINTAIN_ACT true else s

theorem State.captEnd_eq {j : Job} (hjob : s.capt.job = some j) (flags : Nat) : s.captEnd flags =
    (let u := (((s.captClosed j).captEndRec j flags).captPassed j).captOff j
     u.setTrim.setAct MODE.CAPTURE_ACT (u.capt.due ≠ [])) := by
  unfold State.captEnd
  rw [hjob]
  rfl

theorem exec_captureEnd {j : Job} (hjob : s.capt.job = some j) (hover : j.start + j.dur ≤ s.ktime) :
    exec .captureEnd s = .next (s.captEnd 0) := by
  change execCaptureEnd s = _
  rw [execCaptureEnd, hjob]
  dsimp only
  rw [if_pos hover]

theorem State.captClosed_step (s : State) (j : Job) : CaptStep s (s.captClosed j) := by
  have h1 : CaptStep s (s.account.closeGap j).writeBlock :=
    ((CaptStep.of_keeps (s.account_keeps .refl (within?_self _)) (by decide)).trans (.closeGap j)).trans .writeBlock
  unfold State.captClosed
  dsimp only
  split
  · exact h1.trans ⟨rfl, rfl⟩
  · exact h1

theorem State.captClosed_tidy (h : s.Tidy) (j : Job) : (s.captClosed j).Tidy := by
  have h1 : (s.account.closeGap j).writeBlock.Tidy := (State.writeBlock_keeps _ .refl (within?_self _)).tidy
    ((State.closeGap_keeps _ j .refl (within?_self _)).tidy ((Calm.account s).tidy h))
  unfold State.captClosed
  dsimp only
  split
  · exact h1
  · exact h1

theorem State.captOff_shows (h : s.Tidy) (j : Job) : (s.captOff j).Tidy ∧ (s.captOff j).capt = s.capt ∧
    (s.captOff j).get CAPT_STAT.RUN = 0 := by
  have hrun : (((s.put CAPT_STAT.RUN 0).put CAPT_STAT.SHARED 0).putBit CAPT_STAT.SPILLING j.spill).get CAPT_STAT.RUN = 0 := by
    simp (decide := true) (maxDischargeDepth := 9) [State.putBit, h]
  have h1 : (((s.put CAPT_STAT.RUN 0).put CAPT_STAT.SHARED 0).putBit CAPT_STAT.SPILLING j.spill).Tidy :=
    State.tidy_put (State.tidy_put (State.tidy_put h))
  have hcapt : (((s.put CAPT_STAT.RUN 0).put CAPT_STAT.SHARED 0).putBit CAPT_STAT.SPILLING j.spill).capt = s.capt := rfl
  unfold State.captOff
  generalize ((s.put CAPT_STAT.RUN 0).put CAPT_STAT.SHARED 0).putBit CAPT_STAT.SPILLING j.spill = u at *
  have hlock : Keeps (areasMask [.reg BPH_STAT.w]) u (u.put BPH_STAT.LOCK 0) := State.put_keeps _ _ _ .refl (by decide)
  have hrun2 := (hlock.get_eq (x := CAPT_STAT.RUN) (by decide)).trans hrun
  have hcapt2 : (u.put BPH_STAT.LOCK 0).capt = s.capt := hcapt
  have h2 := hlock.tidy h1
  dsimp only
  generalize u.put BPH_STAT.LOCK 0 = v at *
  have hrx := v.setRx_keeps .bph 0 0 0 .refl (within?_self _)
  have hcapt3 : (v.setRx .bph 0 0 0).capt = s.capt := Eq.trans (hrx.same (a := .capture) (by decide)) hcapt2
  have hrun3 : (v.setRx .bph 0 0 0).get CAPT_STAT.RUN = 0 := by
    unfold State.setRx
    dsimp only
    rw [if_pos rfl]
    change ((v.put (rxstFld .bph) 0).put CAPT_STAT.RXST 0).get CAPT_STAT.RUN = 0
    have hst : (v.put (rxstFld .bph) 0).Tidy := State.tidy_put h2
    rw [State.get_put_other hst (by decide) (by decide) (by decide), State.get_put_ne _ _ (by decide), hrun2]
  have h3 := hrx.tidy h2
  generalize v.setRx .bph 0 0 0 = w at *
  have hact : Keeps (areasMask [.reg MODE.w]) w (if j.spill then w.setAct MODE.MAINTAIN_ACT true else w) :=
    .ite (State.setAct_keeps _ _ _ .refl (by decide) (by decide)) .refl
  exact ⟨hact.tidy h3, Eq.trans (hact.same (a := .capture) (by decide)) hcapt3, (hact.get_eq (by decide)).trans hrun3⟩

theorem State.captEnd_shows (h : s.Tidy) {j : Job} (hjob : s.capt.job = some j) (flags : Nat) :
    (s.captEnd flags).capt.job = none ∧ (s.captEnd flags).capt.past.map Past.job = some j ∧
    (s.captEnd flags).bit CAPT_STAT.RUN = false ∧
    (s.captEnd flags).bit MODE.CAPTURE_ACT = decide (s.capt.due ≠ []) := by
  have hclosed := s.captClosed_step j
  have h1 := State.captClosed_tidy h j
  rw [State.captEnd_eq hjob]
  generalize s.captClosed j = a at *
  have hrec := a.captRec_keeps j 6 (flags + if a.capt.input = none then 0x40 else 0) (a.get32 CAPT_FIDX_L.w) a.capt.count 0 a.tq
    a.stamp [] [] .refl (within?_self _)
  have hdue2 : (a.captEndRec j flags).capt.due = s.capt.due := (CaptStep.of_keeps hrec (by decide)).due.trans hclosed.due
  have h2 : (a.captEndRec j flags).Tidy := hrec.tidy h1
  generalize a.captEndRec j flags = b at *
  have h3 : (b.captPassed j).Tidy := h2
  have hpast : (b.captPassed j).capt.past.map Past.job = some j := rfl
  have hnone : (b.captPassed j).capt.job = none := rfl
  have hdue3 : (b.captPassed j).capt.due = s.capt.due := hdue2
  generalize b.captPassed j = c at *
  obtain ⟨h4, hcapt, hrun⟩ := State.captOff_shows h3 j
  dsimp only
  generalize c.captOff j = d at *
  have htrim := d.setTrim_keeps .refl (within?_self _)
  have h5 := htrim.tidy h4
  have hcapt2 : d.setTrim.capt = c.capt := Eq.trans (htrim.same (a := .capture) (by decide)) hcapt
  have hrun2 := (htrim.get_eq (x := CAPT_STAT.RUN) (by decide)).trans hrun
  rw [hcapt, hdue3]
  generalize d.setTrim = e at *
  have hset : Keeps (areasMask [.reg MODE.w]) e (e.setAct MODE.CAPTURE_ACT (s.capt.due ≠ [])) :=
    State.setAct_keeps _ _ _ .refl (by decide) (by decide)
  have hcapt3 : (e.setAct MODE.CAPTURE_ACT (s.capt.due ≠ [])).capt = c.capt :=
    Eq.trans (hset.same (a := .capture) (by decide)) hcapt2
  exact ⟨by rw [hcapt3, hnone], by rw [hcapt3, hpast], bit_eq_of_get (n := 0) ((hset.get_eq (by decide)).trans hrun2),
    State.bit_setAct h5 (by decide) (by decide) (by decide) (by decide)⟩

/-! ### Release, statistics, snippet -/

/-- The row of CAPT_REL. -/
def captRelDef : RegDef := ⟨0x1688, 0, 0, 0, 0xFFFF, 0⟩

theorem regDef_captRel : regDef? CAPT_REL.w.key = some captRelDef := by decide

theorem exec_captRelWrite {v : Word} (h : Serves s f (keyPage CAPT_REL.w.key)) (hlegal : legalWord f CAPT_REL.w.key v = true) :
    exec (.captRelWrite f v) s = .next (s.regAccess.captRel v) := by
  have hwrite : s.cmdWrite f CAPT_REL.w v = s.regAccess.captRel v := by
    rw [State.cmdWrite_page_legal regDef_captRel (by decide) (by decide) rfl (by decide) hlegal h]
    rfl
  rw [← hwrite]
  rfl

theorem State.captRel_used (s : State) (v : Word) : (s.captRel v).capt.used = release (4 * v.toNat) s.capt.used := by
  unfold State.captRel
  generalize hu : ({ s with capt := { s.capt with used := release (4 * v.toNat) s.capt.used } } : State) = u
  have hused : u.capt.used = release (4 * v.toNat) s.capt.used := hu ▸ rfl
  have h1 : u.showRptr.capt = u.capt := (u.showRptr_keeps .refl (within?_self _)).same (a := .capture) (by decide)
  have h2 : u.showRptr.showFree.capt = u.showRptr.capt :=
    (u.showRptr.showFree_keeps .refl (within?_self _)).same (a := .capture) (by decide)
  rw [h2, h1, hused]

/-- The statistics of a capture, and the fault of a job that Pika did not take. -/
def State.statsMade (s : State) (p : Past) (ok : Bool) : State :=
  let chans := p.acc ++ List.replicate (s.chanCount p.job - p.acc.length) (⟨0, 0, 0, 0, 0, 0⟩ : Chan)
  let s := s.statsFrom p ok 0 chans
  if ok then s else (s.inc CAPT_CNT_DSP.w).noteFault

theorem exec_stats {p : Past} (hpast : s.capt.past = some p) (hdue : s.capt.statsDue = true) (ok : Bool) :
    exec (.stats ok) s = .next { s.statsMade p (ok && s.pikaServes) with
      capt := { (s.statsMade p (ok && s.pikaServes)).capt with statsDue := false } } := by
  change execStats ok s = _
  rw [execStats, hpast]
  dsimp only
  rw [if_pos hdue]
  rfl

theorem State.statsMade_shows (h : s.Tidy) (p : Past) (ok : Bool) : (s.statsMade p ok).get CAPT_CNT_DSP.w =
    if ok then s.get CAPT_CNT_DSP.w else min 0xFFFF (s.get CAPT_CNT_DSP.w + 1) := by
  unfold State.statsMade
  extract_lets chans u
  have hk : Keeps _ s u := s.statsFrom_keeps p ok 0 chans .refl (within?_self _)
  have hcnt : u.get CAPT_CNT_DSP.w = s.get CAPT_CNT_DSP.w := hk.get_eq (by decide)
  have hu := hk.tidy h
  cases ok
  · rw [if_neg (by decide), if_neg (by decide), ((u.inc CAPT_CNT_DSP.w).noteFault_keeps .refl (within?_self _)).get_eq (by decide),
      State.get_inc_self hu (by decide), hcnt]
    exact Nat.min_comm _ _
  · exact hcnt

theorem exec_snippet {p : Past} {n : Snip} (hpast : s.capt.past = some p) (hsnip : p.snip = some n) :
    ∃ t, exec .snippet s = .next t ∧ t.capt.past = some { p with snip := none } := by
  have hexec : exec .snippet s = execSnippet s := rfl
  rw [execSnippet, hpast] at hexec
  dsimp only at hexec
  rw [hsnip] at hexec
  exact ⟨_, hexec, rfl⟩

/-- Settles O29: the link by the lemmas on the receiver's parts, a block by `State.blockStored_shows`, the capture's start
and end by `State.captBegin_shows` and `State.captEnd_shows`. -/
theorem biphaseAndCaptureCommandsComplete : Obligations.BiphaseAndCaptureCommandsComplete := by
  unfold Obligations.BiphaseAndCaptureCommandsComplete
  refine ⟨.intro _ (fun s h => exec_bphLock h) fun s hc _ => ?_,
    fun missing violated => .intro _ (fun s h => exec_bphLockLost h) fun s hc _ => ?_,
    fun word valid user status parityOk => .intro _ (fun s h => exec_bphSubframe_b h) fun s _ _ => ?_,
    fun word valid user status parityOk => .intro _ (fun s h => exec_bphSubframe_m h) fun s _ _ => ?_,
    fun word valid user status => .intro _ (fun s ⟨h, hjob⟩ => exec_bphSubframe_w h hjob) fun s hc _ => ?_,
    .intro _ (fun s h => exec_bphBlockEnd h) fun s hc _ => ?_,
    fun mHz s hc ⟨hlock, hxo⟩ => ?_,
    .intro _ (fun s h => exec_bphOutFrame h) fun s _ _ => ?_,
    fun j rest => .intro _ (fun s ⟨hdue, hcome, hxo⟩ => exec_captureStart hdue hcome hxo) fun s hc _ => ?_,
    fun j b => .intro _ (fun s ⟨_, hnew, hfull, _⟩ => exec_captureBlockWrite hnew hfull)
      fun s hc ⟨hjob, hnew, _, hkeep, hend, hroom⟩ => ?_,
    fun j => .intro _ (fun s ⟨hjob, hover⟩ => exec_captureEnd hjob hover) fun s hc ⟨hjob, _⟩ =>
      State.captEnd_shows hc.tidy hjob 0,
    fun f v => .intro _ (fun s ⟨h, hlegal⟩ => exec_captRelWrite h hlegal) fun s _ _ => ?_,
    fun p => .intro _ (fun s ⟨hpast, hdue, _⟩ => exec_stats hpast hdue true) fun s hc ⟨_, _, hserves⟩ => ?_,
    fun p => .intro _ (fun s ⟨hpast, hdue⟩ => exec_stats hpast hdue false) fun s hc _ => ⟨rfl, ?_⟩,
    fun p n s _ ⟨hpast, hsnip⟩ => exec_snippet hpast hsnip⟩
  case refine_1 =>
    obtain ⟨h1, hrate, hhalf⟩ := State.bphLocking_shows hc.tidy
    exact ⟨bit_eq_of_get (n := 1) (State.get_put_self h1 (by decide)), hrate, hhalf⟩
  case refine_2 =>
    obtain ⟨-, hlock, hcnt, hevt⟩ := State.lockDropped_shows hc.tidy
    generalize s.lockDropped = u at *
    have hraise := u.raiseIn_keeps iAUDIO_EVENT (u.granted 0x15) .refl (within?_self _)
    have hun := (u.raiseIn iAUDIO_EVENT (u.granted 0x15)).bphUnlock_keeps .refl (within?_self _)
    exact ⟨bit_eq_of_get (n := 0) ((hun.get_eq (by decide)).trans ((hraise.get_eq (by decide)).trans hlock)),
      (hun.get_eq (by decide)).trans ((hraise.get_eq (by decide)).trans hcnt),
      bit_eq_of_get (n := 1) ((hun.get_eq (by decide)).trans ((hraise.get_eq (by decide)).trans hevt))⟩
  case refine_3 =>
    obtain ⟨-, -, hktime⟩ := s.subframeCounted_same valid parityOk
    exact ⟨rfl, rfl, rfl, hktime⟩
  case refine_4 =>
    obtain ⟨hbph, -, -⟩ := s.subframeCounted_same valid parityOk
    exact ⟨rfl, congrArg (fun b : Bph => b.cs ++ [status]) hbph, congrArg (fun b : Bph => b.user ++ [user]) hbph⟩
  case refine_5 =>
    obtain ⟨hbph, -, -⟩ := s.subframeCounted_same valid false
    refine ⟨State.subframeCounted_parity hc.tidy valid, rfl, ?_⟩
    change (s.subframeCounted valid false).bph.cs = _
    rw [hbph]
  case refine_6 =>
    obtain ⟨h1, hpro⟩ := State.statusShown_shows hc.tidy
    exact ⟨rfl, rfl, (State.pro_umsgCheck h1).trans hpro⟩
  case refine_7 =>
    obtain ⟨ppm, hexec⟩ := exec_bphRateMeasure (mHz := mHz) hlock hxo
    obtain ⟨hrate, hcls⟩ := State.rateShown_shows hc.tidy mHz (classOf_lt mHz) ppm
    have htold := (s.rateShown mHz (classOf mHz).1 ppm).rateTold_frame mHz (classOf mHz).1 ppm
    rcases hexec with hexec | hexec
    · exact ⟨_, hexec, hrate, hcls⟩
    · refine ⟨_, hexec, ?_, (htold.get_eq (by decide)).trans hcls⟩
      rw [State.get32, htold.get_eq (by decide), htold.get_eq (by decide), ← State.get32, hrate]
  case refine_8 =>
    obtain ⟨hbph, hstatus⟩ := s.txEdge_bph
    refine ⟨rfl, ?_, hstatus _⟩
    change (if s.bph.frame = 191 then (s.txEdge .bph).showLevels.bph.blocks + 1 else (s.txEdge .bph).showLevels.bph.blocks) = _
    rw [hbph]
  case refine_9 =>
    obtain ⟨hjob, hrun, hact, hid⟩ := State.captBegin_shows hc.tidy j rest
    obtain ⟨hdue, hzero⟩ := State.captBegin_rest hc.tidy j rest
    exact ⟨hjob, hdue, hrun, hid, hzero, hact⟩
  case refine_10 =>
    have hshows := State.blockStored_shows hc.tidy j b (4 * s.get CAPT_WPTR.w)
    rwa [← State.writeBlock_fits hjob hnew hkeep hend hroom] at hshows
  case refine_11 =>
    have hcapt : s.regAccess.capt = s.capt := (s.regAccess_keeps .refl (within?_self _)).same (a := .capture) (by decide)
    rw [State.captRel_used, hcapt]
  case refine_12 =>
    refine ⟨rfl, (State.statsMade_shows hc.tidy p _).trans ?_⟩
    rw [hserves]
    rfl
  case refine_13 => exact State.statsMade_shows hc.tidy p _

end Sys2Proof.Machine
end

section
/-! PROOFS. RDS synchronisation, blocks, groups and following (O22). -/

namespace Sys2Proof.Machine

open R

variable {s t u : State} {f g : Fn}

/-! ### Synchronisation and blocks -/

/-- A setting in use is what the reception took, or the register's. -/
theorem State.cfg_congr {x : Fld} (hfe : t.fe = s.fe) (hget : t.get x = s.get x) : t.cfg x = s.cfg x := by
  rw [State.cfg, State.cfg, hfe]
  split
  · rfl
  · exact hget

/-- Synchronisation found, as the status shows it. -/
def State.rdsSynced (s : State) (pilot : Bool) : State :=
  let s := (s.put FMR_STAT.SYNC 1).putBit FMR_STAT.PILOT pilot
  { s with fm := { s.fm with window := [], blocks := [] } }

theorem exec_rdsSyncAcquired {pilot : Bool} (h : s.onBearer 2 = true ∧ s.bit FMR_STAT.SYNC = false) :
    exec (.rdsSyncAcquired pilot) s = .next (s.rdsSynced pilot) :=
  congrArg Host.Outcome.next (if_pos ⟨h.1, by simpa using h.2⟩)

theorem State.rdsSynced_shows (h : s.Tidy) (pilot : Bool) : (s.rdsSynced pilot).bit FMR_STAT.SYNC = true ∧
    (s.rdsSynced pilot).bit FMR_STAT.PILOT = pilot ∧ OnlyRegs [FMR_STAT.w] s (s.rdsSynced pilot) := by
  have h1 : (s.put FMR_STAT.SYNC 1).Tidy := State.tidy_put h
  refine ⟨bit_eq_of_get (n := 1) ((State.get_put_other h1 (by decide) (by decide) (by decide)).trans
    (State.get_put_self h (by decide))), ?_, ?_⟩
  · refine (bit_eq_of_get (n := if pilot then 1 else 0) ?_).trans (by cases pilot <;> rfl)
    exact (State.get_put_self h1 (by decide)).trans (by cases pilot <;> rfl)
  · exact (OnlyRegs.put (by decide) _).trans ((OnlyRegs.put (by decide) _).trans (.of_regs rfl))

/-- Synchronisation lost, as status and counter show it. -/
def State.rdsUnsynced (s : State) : State :=
  let s := (s.put FMR_STAT.SYNC 0).inc FMR_SYNC_CNT.w
  { s with fm := { s.fm with window := [], blocks := [], piN := 0 } }

theorem exec_rdsSyncLost (h : s.bit FMR_STAT.SYNC = true ∧ s.fmLost = true) :
    exec .rdsSyncLost s = .next s.rdsUnsynced := congrArg Host.Outcome.next (if_pos h)

theorem State.rdsUnsynced_shows (h : s.Tidy) : s.rdsUnsynced.bit FMR_STAT.SYNC = false ∧
    s.rdsUnsynced.get FMR_SYNC_CNT.w = min 0xFFFF (s.get FMR_SYNC_CNT.w + 1) ∧
    OnlyRegs [FMR_STAT.w, FMR_SYNC_CNT.w] s s.rdsUnsynced := by
  have h1 : (s.put FMR_STAT.SYNC 0).Tidy := State.tidy_put h
  refine ⟨bit_eq_of_get (n := 0) ((State.get_inc_ne _ (by decide)).trans (State.get_put_self h (by decide))), ?_, ?_⟩
  · refine (State.get_inc_self h1 (by decide)).trans ?_
    rw [State.get_put_ne s _ (by decide)]
    exact Nat.min_comm _ _
  · exact (OnlyRegs.put (by decide) _).trans ((OnlyRegs.put (by decide) _).trans (.of_regs rfl))

/-- The counts of a block of a status. -/
def State.blockCounted (s : State) (status : Nat) : State :=
  let s := s.add32 FMR_BLK_L.w 1
  if decide (3 ≤ status) then s.add32 FMR_BLK_BAD_L.w 1 else s

/-- The block in the window and in the group in progress. -/
def State.blockEntered (s : State) (pos status : Nat) (data : Word) : State :=
  let s := s.blockCounted status
  { s with fm := { s.fm with
    window := (decide (3 ≤ status) :: s.fm.window).take 16
    blocks := addBlock s.fm.blocks pos (status, data), cprime := pos == 4 || (pos == 3 && s.fm.cprime) } }

theorem exec_rdsBlock {pos bits : Nat} {data : Word} (h : s.bit FMR_STAT.SYNC = true) :
    exec (.rdsBlock pos bits data) s = .next (
      if pos = 0 ∨ (pos = 4 ∧ s.fm.blocks.any (fun e => decide (3 ≤ e.1))) then
        (s.blockEntered pos (s.blockStatus bits) data).piBlock (s.blockStatus bits) data.toNat
      else s.blockEntered pos (s.blockStatus bits) data) := by
  change execRdsBlock pos bits data s = _
  rw [execRdsBlock, if_pos h]
  rfl

theorem State.blockCounted_frame (s : State) (status : Nat) :
    Keeps (areasMask [.reg FMR_BLK_L.w, .reg FMR_BLK_H.w, .reg FMR_BLK_BAD_L.w, .reg FMR_BLK_BAD_H.w]) s
      (s.blockCounted status) := by
  unfold State.blockCounted
  exact .ite (State.add32_keeps _ _ _ (State.add32_keeps _ _ _ .refl (by decide) (by decide)) (by decide) (by decide))
    (State.add32_keeps _ _ _ .refl (by decide) (by decide))

theorem State.blockEntered_shows (h : s.Tidy) (pos status : Nat) (data : Word) : (s.blockEntered pos status data).Tidy ∧
    (s.blockEntered pos status data).get32 FMR_BLK_L.w = (s.get32 FMR_BLK_L.w + 1) % 0x100000000 ∧
    (s.blockEntered pos status data).fm.window = (decide (3 ≤ status) :: s.fm.window).take 16 ∧
    (s.blockEntered pos status data).fm.pi = s.fm.pi ∧ (s.blockEntered pos status data).fm.piN = s.fm.piN ∧
    (s.blockEntered pos status data).cfg AF_CFG.PI_CONF_N = s.cfg AF_CFG.PI_CONF_N := by
  have hk := s.blockCounted_frame status
  have hfm : (s.blockCounted status).fm = s.fm := hk.same (a := .fm) (by decide)
  have hblk : (s.blockCounted status).get32 FMR_BLK_L.w = (s.get32 FMR_BLK_L.w + 1) % 0x100000000 := by
    have hone : (s.add32 FMR_BLK_L.w 1).get32 FMR_BLK_L.w = (s.get32 FMR_BLK_L.w + 1) % 0x100000000 :=
      State.get32_put32 h (Nat.mod_lt _ (by decide))
    unfold State.blockCounted
    dsimp only
    split
    · have hbad : Keeps (areasMask [.reg FMR_BLK_BAD_L.w, .reg FMR_BLK_BAD_H.w]) (s.add32 FMR_BLK_L.w 1)
          ((s.add32 FMR_BLK_L.w 1).add32 FMR_BLK_BAD_L.w 1) := State.add32_keeps _ _ _ .refl (by decide) (by decide)
      rw [State.get32, hbad.get_eq (by decide), hbad.get_eq (by decide), ← State.get32, hone]
    · exact hone
  have htidy : (s.blockCounted status).Tidy := hk.tidy h
  have hcfg : (s.blockCounted status).cfg AF_CFG.PI_CONF_N = s.cfg AF_CFG.PI_CONF_N :=
    State.cfg_congr (hk.same (a := .frontEnd) (by decide)) (hk.get_eq (by decide))
  unfold State.blockEntered
  generalize s.blockCounted status = a at *
  refine ⟨htidy, hblk, ?_, ?_, ?_, hcfg⟩
  · change (_ :: a.fm.window).take 16 = _
    rw [hfm]
  · change a.fm.pi = _
    rw [hfm]
  · change a.fm.piN = _
    rw [hfm]

/-- A PI block leaves the counts and the window. -/
theorem State.window_piBlock (s : State) (status v : Nat) : (s.piBlock status v).fm.window = s.fm.window := by
  unfold State.piBlock
  extract_lets n src a
  split
  · rfl
  · rfl

theorem State.piBlock_confirmed (h : s.Tidy) {status : Nat} {data : Word} (hstatus : status ≤ 1) (hpi : s.fm.pi = data.toNat)
    (hn : s.cfg AF_CFG.PI_CONF_N ≤ s.fm.piN + 1) : (s.piBlock status data.toNat).get FMR_PI.w = data.toNat ∧
    (s.piBlock status data.toNat).bit FMR_STAT.PI_VALID = true ∧
    (s.piBlock status data.toNat).fm.piN = s.fm.piN + 1 := by
  have hcount : (if 2 ≤ status then 0 else if data.toNat = s.fm.pi then s.fm.piN + 1 else 1) = s.fm.piN + 1 := by
    rw [if_neg (by omega), if_pos hpi.symm]
  unfold State.piBlock
  dsimp only
  rw [hcount, if_pos ⟨hstatus, hn⟩]
  have hu (b : Fm) : ({ s with fm := b } : State).Tidy := h
  refine ⟨?_, ?_, rfl⟩
  · exact (State.get_put_ne _ _ (by decide)).trans ((State.get_put_self (hu _) (by decide)).trans
      (Nat.mod_eq_of_lt data.isLt))
  · exact bit_eq_of_get (n := 1) (State.get_put_self (State.tidy_put (hu _)) (by decide))

/-! ### A group that opens an AF list -/

/-- A group received whole is delivered to those who want it. -/
def State.groupTold (s : State) (at_ : Nat) (a b c d : Word) : State :=
  let at_ := min at_ s.ktime
  let s1 : State := { s with fm := { s.fm with blocks := [] } }
  let wants (w : List Word) : Bool := recKind w == kRDS && recWord w 13 / 2 ^ (b.toNat / 0x1000) % 2 == 1 &&
    (recWord w 14 == 0 || some a.toNat == some (recWord w 14))
  s1.deliverAll 1 [BitVec.ofNat 16 ((if s1.fm.gap then 0x200 else 0) + if s.fm.cprime then 0x100 else 0), a, b, c, d] []
    (at_ % 2 ^ 32) (allFns.filter (fun f => (s1.fnsWith wants).contains f || s1.listeners.contains f))

theorem State.groupTold_shows (s : State) (at_ : Nat) (a b c d : Word) : (s.groupTold at_ a b c d).fm = { s.fm with blocks := [] } ∧
    (s.groupTold at_ a b c d).sec = s.sec ∧ (s.groupTold at_ a b c d).get FMR_ODA_TYPE.w = s.get FMR_ODA_TYPE.w := by
  unfold State.groupTold
  extract_lets at_ src u wants
  have hk (payload : List Word) (fns : List Fn) := u.deliverAll_keeps 1 payload [] (at_ % 2 ^ 32) fns .refl (within?_self _)
  exact ⟨((hk _ _).same (a := .fm) (by decide)).trans rfl,
    (congrArg (· / 2 ^ 24) (Eq.trans ((hk _ _).same (a := .ktime) (by decide)) rfl) : _),
    ((hk _ _).get_eq (by decide)).trans rfl⟩

/-- The count code of a 0A group opens a list. -/
theorem State.afPair_count (s : State) {c1 c2 : Nat} (h : 224 ≤ c1 ∧ c1 ≤ 249) : s.afPair c1 c2 = { s with fm := { s.fm with
    building := some ⟨c1 - 224, if 1 ≤ c2 ∧ c2 ≤ 204 then [c2] else [], [], s.sec, c2 == 250⟩ } } := if_pos h

theorem exec_rdsGroup_count {at_ : Nat} {a b c d : Word} (hblocks : s.fm.blocks = [(0, a), (0, b), (0, c), (0, d)])
    (hoda : s.get FMR_ODA_TYPE.w < 0x8000) (htype : b.toNat / 0x800 = 0) :
    exec (.rdsGroup at_) s = .next { (s.groupTold at_ a b c d).afPair (c.toNat / 0x100) (c.toNat % 0x100) with
      fm := { ((s.groupTold at_ a b c d).afPair (c.toNat / 0x100) (c.toNat % 0x100)).fm with gap := false } } := by
  have hno : ¬ (0x8000 ≤ (s.groupTold at_ a b c d).get FMR_ODA_TYPE.w ∧
      b.toNat / 0x800 = (s.groupTold at_ a b c d).get FMR_ODA_TYPE.w % 32) := by
    rw [(s.groupTold_shows at_ a b c d).2.2]
    omega
  change execRdsGroup at_ s = _
  rw [execRdsGroup, hblocks]
  change (let u := s.groupTold at_ a b c d
    let v := (if 0x8000 ≤ u.get FMR_ODA_TYPE.w ∧ b.toNat / 0x800 = u.get FMR_ODA_TYPE.w % 32 then
      u.rdsPart (b.toNat % 32) ([some (c.extractLsb' 8 8), some (c.extractLsb' 0 8)] ++
        [some (d.extractLsb' 8 8), some (d.extractLsb' 0 8)]) u.listeners else u).interpret (min at_ s.ktime) a.toNat b.toNat
          c.toNat d.toNat 0 0 0
    Host.Outcome.next { v with fm := { v.fm with gap := false } }) = _
  dsimp only
  rw [if_neg hno, State.interpret, htype]
  rfl

end Sys2Proof.Machine
end

section
/-! PROOFS. RDS following (O22). -/

namespace Sys2Proof.Machine

open R

variable {s t u : State} {f g : Fn}

/-! ### Engines that a frame does not list -/

theorem Keeps.fe_eq {m : Nat} (h : Keeps m s t) (hm : m.testBit (Area.bit .frontEnd) = false) : t.fe = s.fe :=
  h.same (a := .frontEnd) hm

theorem Keeps.fm_eq {m : Nat} (h : Keeps m s t) (hm : m.testBit (Area.bit .fm) = false) : t.fm = s.fm :=
  h.same (a := .fm) hm

theorem Keeps.dab_eq {m : Nat} (h : Keeps m s t) (hm : m.testBit (Area.bit .dab) = false) : t.dab = s.dab :=
  h.same (a := .dab) hm

theorem State.fe_inc (s : State) (x : Fld) : (s.inc x).fe = s.fe := rfl

theorem State.fm_inc (s : State) (x : Fld) : (s.inc x).fm = s.fm := rfl

theorem State.dab_inc (s : State) (x : Fld) : (s.inc x).dab = s.dab := rfl

/-! ### A measurement leaves the reception -/

/-- The reception, the settings it took and a pending AF check stay. -/
structure RxStays (s t : State) : Prop where
  rx : t.fe.rx = s.fe.rx
  cfg : t.fe.cfg = s.fe.cfg
  afHost : t.fe.afHost = s.fe.afHost

namespace RxStays

theorem refl : RxStays s s := ⟨rfl, rfl, rfl⟩

theorem of_fe (h : t.fe = s.fe) : RxStays s t := ⟨congrArg _ h, congrArg _ h, congrArg _ h⟩

theorem trans (h : RxStays s t) (k : RxStays t u) : RxStays s u :=
  ⟨k.rx.trans h.rx, k.cfg.trans h.cfg, k.afHost.trans h.afHost⟩

theorem ite {c : Prop} [Decidable c] (h : RxStays s t) (k : RxStays s u) : RxStays s (if c then t else u) := by
  split
  · exact h
  · exact k

theorem of_keeps {m : Nat} (h : Keeps m s t) (hm : m.testBit (Area.bit .frontEnd) = false) : RxStays s t :=
  of_fe (h.same (a := .frontEnd) hm)

theorem setBases (l : List Base) : RxStays s (s.setBases l) := ⟨rfl, rfl, rfl⟩

theorem learn (kfc : Nat) (v : Int) (counts moves : Bool) : RxStays s (s.learn kfc v counts moves) := by
  unfold State.learn
  extract_lets n lf
  split
  · exact setBases _
  · exact ite (setBases _) refl

theorem floodEval (base v : Int) : RxStays s (s.floodEval base v) := by
  unfold State.floodEval
  extract_lets loss a c n src b
  have ha : RxStays s a := (of_fe rfl : RxStays s (s.put FLOOD_STAT.LOSS (roundNat ((loss : ℚ) / 256)))).trans
    (of_keeps (State.showLfDev_keeps _ .refl (within?_self _)) (by decide))
  have hb : RxStays s b := ha.trans ⟨rfl, rfl, rfl⟩
  exact ite (hb.trans (of_keeps (State.setFlood_keeps _ _ .refl (within?_self _)) (by decide))) hb

theorem floodMeasure (kfc : Nat) (v : Int) : RxStays s (s.floodMeasure kfc v) := by
  unfold State.floodMeasure
  extract_lets src a moves counts b
  have ha : RxStays s a := ⟨rfl, rfl, rfl⟩
  have hb : RxStays s b := by
    unfold b
    split
    · exact floodEval _ _
    · exact refl
  exact ite (ha.trans (learn _ _ _ _)) (hb.trans (learn _ _ _ _))

theorem afResult (kfc : Nat) (rssi : Option Int) (us : Nat) : RxStays s (s.afResult kfc rssi us) := by
  unfold State.afResult
  extract_lets src a
  have ha : RxStays s a := ⟨rfl, rfl, rfl⟩
  split
  · rename_i x
    have hput : RxStays a (((a.put FES_AF_STAT.VALID 1).put FES_AF_STAT.LOCKFAIL 0).put FES_AF_RSSI.w
        (code16 (clampRssi false x))) := ⟨rfl, rfl, rfl⟩
    exact (ha.trans hput).trans (floodMeasure _ _)
  · exact ha.trans ⟨rfl, rfl, rfl⟩

end RxStays

/-- The demodulator saw a gap, and nothing else of it changed. -/
theorem State.fm_afResult (s : State) (kfc : Nat) (rssi : Option Int) (us : Nat) :
    (s.afResult kfc rssi us).fm = { s.fm with gap := true } := by
  unfold State.afResult
  extract_lets src a
  split
  · extract_lets v
    exact ((State.floodMeasure_keeps _ _ _ .refl (within?_self _)).same (a := .fm) (by decide)).trans rfl
  · rfl

/-- A measured AF check shows its RSSI. -/
theorem State.afResult_shows (h : s.Tidy) (kfc us : Nat) (v : Int) : (s.afResult kfc (some v) us).Tidy ∧
    (s.afResult kfc (some v) us).bit FES_AF_STAT.VALID = true ∧
    (s.afResult kfc (some v) us).get FES_AF_RSSI.w = code16 (clampRssi false v) := by
  unfold State.afResult
  extract_lets src a
  have ha : a.Tidy := State.tidy_put (show State.Tidy _ from h)
  have h1 : (a.put FES_AF_STAT.VALID 1).Tidy := State.tidy_put ha
  have h2 : ((a.put FES_AF_STAT.VALID 1).put FES_AF_STAT.LOCKFAIL 0).Tidy := State.tidy_put h1
  have h3 := State.tidy_put h2 (x := FES_AF_RSSI.w) (v := code16 (clampRssi false v))
  have hk := State.floodMeasure_keeps (((a.put FES_AF_STAT.VALID 1).put FES_AF_STAT.LOCKFAIL 0).put FES_AF_RSSI.w
    (code16 (clampRssi false v))) kfc (clampRssi false v) .refl (within?_self _)
  refine ⟨hk.tidy h3, bit_eq_of_get (n := 1) ((hk.get_eq (by decide)).trans ?_), (hk.get_eq (by decide)).trans ?_⟩
  · rw [State.get_put_ne _ _ (by decide), State.get_put_other h1 (by decide) (by decide) (by decide),
      State.get_put_self ha (by decide)]
    rfl
  · exact (State.get_put_self h2 (by decide)).trans (Nat.mod_eq_of_lt (code16_lt _))

/-- One check that following makes. -/
theorem State.measured_one (s : State) (kfc : Nat) (v : Option Int) :
    s.measured [(kfc, v)] = s.fresh.2.afResult kfc v (s.fresh.1.toNat % 0x1000) := rfl

/-! ### The list and the tuner's move -/

theorem State.setAf_shows (s : State) (l : List AfEnt) : (s.setAf l).fm = { s.fm with list := l.take 25 } := by
  unfold State.setAf
  extract_lets l' src
  exact ((State.showAf_keeps _ l' 0 (List.range 25) (μ := areasMask ((List.range 32).map fun i => Area.reg ⟨0xEA0 + i, 15, 0⟩)) .refl
    (by decide) (by decide)).same (a := .fm) (by decide)).trans rfl

theorem State.retune_shows (h : s.Tidy) (kfc : Nat) : (s.retune kfc).get FES_STAT.JOB = 0 ∧
    (s.retune kfc).fe.rx = s.fe.rx.map (fun r => { r with kfc := kfc, second := false }) := by
  have hk := s.pathOff_keeps .refl (within?_self _)
  have hfe : s.pathOff.fe = s.fe := hk.same (a := .frontEnd) (by decide)
  have ht : s.pathOff.Tidy := hk.tidy h
  unfold State.retune
  generalize s.pathOff = a at *
  refine ⟨State.get_put_self ht (by decide), ?_⟩
  change a.fe.rx.map _ = _
  rw [hfe]

/-- The signs of a candidate under confirmation. -/
def State.afConfirming (s : State) (kfc cause : Nat) : State :=
  let f : Follow := ⟨kfc, s.rxKfc, cause, s.get FES_RSSI.w, 0⟩
  let s := (s.put FMR_STAT.AF_CONFIRM 1).put FMR_STAT.SYNC 0
  let s := s.put FMR_STAT.PI_VALID 0
  { s with fm := { s.fm with confirm := some f, window := [], blocks := [], piN := 0, building := none } }

theorem State.afTry_shows (h : s.Tidy) (kfc cause : Nat) : (s.afTry kfc cause).fm.confirm.map Follow.kfc = some kfc ∧
    (s.afTry kfc cause).bit FMR_STAT.AF_CONFIRM = true ∧ (s.afTry kfc cause).fe.rx.map Rx.kfc = s.fe.rx.map (fun _ => kfc) ∧
    (s.afTry kfc cause).get FES_STAT.JOB = 0 ∧ (s.afTry kfc cause).fm.recallTried = s.fm.recallTried := by
  have h1 : (s.put FMR_STAT.AF_CONFIRM 1).Tidy := State.tidy_put h
  have h2 : ((s.put FMR_STAT.AF_CONFIRM 1).put FMR_STAT.SYNC 0).Tidy := State.tidy_put h1
  have ht : (s.afConfirming kfc cause).Tidy := State.tidy_put h2
  have hbit : (s.afConfirming kfc cause).get FMR_STAT.AF_CONFIRM = 1 := by
    refine (State.get_put_other h2 (by decide) (by decide) (by decide)).trans
      ((State.get_put_other h1 (by decide) (by decide) (by decide)).trans (State.get_put_self h (by decide)))
  have hconf : (s.afConfirming kfc cause).fm.confirm.map Follow.kfc = some kfc := rfl
  have hfe : (s.afConfirming kfc cause).fe = s.fe := rfl
  have hrec : (s.afConfirming kfc cause).fm.recallTried = s.fm.recallTried := rfl
  change (((s.afConfirming kfc cause).retune kfc).fm.confirm.map Follow.kfc = _) ∧ ((s.afConfirming kfc cause).retune kfc).bit _ = _ ∧
    ((s.afConfirming kfc cause).retune kfc).fe.rx.map Rx.kfc = _ ∧ ((s.afConfirming kfc cause).retune kfc).get _ = _ ∧
    ((s.afConfirming kfc cause).retune kfc).fm.recallTried = _
  generalize s.afConfirming kfc cause = a at *
  obtain ⟨hjob, hrx⟩ := State.retune_shows ht kfc
  have hk := a.retune_keeps kfc .refl (within?_self _)
  have hfm : (a.retune kfc).fm = a.fm := hk.same (a := .fm) (by decide)
  refine ⟨by rw [hfm, hconf], bit_eq_of_get (n := 1) ((hk.get_eq (by decide)).trans hbit), ?_, hjob, by rw [hfm, hrec]⟩
  rw [hrx, hfe, Option.map_map]
  rfl

end Sys2Proof.Machine
end

section
/-! PROOFS. What RDS synchronisation, groups and following show (O22). -/

namespace Sys2Proof.Machine

open R

variable {s t u : State} {f g : Fn}

/-! ### The AF list -/

theorem State.tidy_setAf (h : s.Tidy) (l : List AfEnt) : (s.setAf l).Tidy := (s.setAf_keeps l .refl (within?_self _)).tidy h

theorem State.method_setAf (h : s.Tidy) (l : List AfEnt) : (s.setAf l).get FMR_AF_N.METHOD = s.get FMR_AF_N.METHOD := by
  unfold State.setAf
  extract_lets l' src
  have h1 : ({ s with fm := { s.fm with list := l' } } : State).Tidy := h
  exact ((State.showAf_keeps _ l' 0 (List.range 25) (μ := areasMask ((List.range 32).map fun i => Area.reg ⟨0xEA0 + i, 15, 0⟩))
    .refl (by decide) (by decide)).get_eq (by decide)).trans (State.get_put_other h1 (by decide) (by decide) (by decide))

/-- A list complete by method `m`, as the registers show it. -/
def State.listDone (s : State) (m : Nat) (l : List AfEnt) : State :=
  (({ s with fm := { s.fm with building := none } } : State).put FMR_AF_N.METHOD m).setAf l

theorem State.listDone_shows (h : s.Tidy) {m : Nat} (hm : m < 4) (l : List AfEnt) : (s.listDone m l).fm.building = none ∧
    (s.listDone m l).get FMR_AF_N.METHOD = m := by
  have h1 : ({ s with fm := { s.fm with building := none } } : State).Tidy := h
  refine ⟨?_, (State.method_setAf (State.tidy_put h1) l).trans ((State.get_put_self h1 (by decide)).trans (Nat.mod_eq_of_lt hm))⟩
  unfold State.listDone
  rw [State.setAf_shows]
  rfl

theorem exec_afListComplete {b : AfBuild} (h : s.fm.building = some b) (hcount : b.count ≤ b.codes.length) :
    ∃ l n, exec .afListComplete s = .next ((s.listDone (if b.methodB (afCode s.rxKfc) then 2 else 1) l).afEvent 4
        (if b.methodB (afCode s.rxKfc) then 2 else 1)
        (s.listDone (if b.methodB (afCode s.rxKfc) then 2 else 1) l).rxKfc 0 n) ∨
      exec .afListComplete s = .next (s.listDone (if b.methodB (afCode s.rxKfc) then 2 else 1) l) := by
  have hexec : exec .afListComplete s = execAfListComplete s := rfl
  rw [execAfListComplete, h] at hexec
  dsimp only at hexec
  rw [if_pos (.inl hcount)] at hexec
  rw [hexec]
  exact ⟨_, _, (ite_eq_or_eq _ _ _).imp (congrArg Host.Outcome.next) (congrArg Host.Outcome.next)⟩

/-! ### The search -/

/-- The one candidate measured, and its RSSI in the list. -/
def State.searched (s : State) (e : AfEnt) (v : Int) : State := (s.measured [(afKfc e.code, some v)]).afRssi [(e, v)]

theorem State.searched_frame (s : State) (e : AfEnt) (v : Int) : Keeps (areasMask ([.counters, .mode, .engines, .frontEnd, .fm,
    .openValues, .reg INT_STAT1.w, .reg WAKE_HREASON.w, .reg FES_AF_STAT.w, .reg FES_AF_RSSI.w, .reg FLOOD_STAT.w,
    .reg FLOOD_LFDEV.w, .reg FMR_AF_N.w] ++ (List.range 32).map fun i => Area.reg ⟨0xEA0 + i, 15, 0⟩)) s (s.searched e v) :=
  State.afRssi_keeps _ _ (State.measured_keeps _ _ .refl (by decide)) (by decide)

/-- A search leaves the reception, and what it takes to judge the candidate. -/
theorem State.searched_stays (s : State) (e : AfEnt) (v : Int) : RxStays s (s.searched e v) := by
  have h : RxStays s (s.measured [(afKfc e.code, some v)]) := by
    rw [State.measured_one]
    have hfresh : RxStays s s.fresh.2 := ⟨rfl, rfl, rfl⟩
    exact hfresh.trans (.afResult _ _ _)
  exact h.trans (.of_keeps (State.afRssi_keeps _ _ .refl (within?_self _)) (by decide))

theorem State.follows_searched (s : State) (e : AfEnt) (v : Int) (byte : Nat) :
    (s.searched e v).follows byte = s.follows byte := by
  have hk := s.searched_frame e v
  have hruns : (s.searched e v).tunerRuns = s.tunerRuns := State.tunerRuns_congr
    (congrArg Sched.running (hk.same (a := .sched) (by decide))) (hk.same (a := .plans) (by decide))
  rw [State.follows, State.follows, hruns]

theorem State.exceeds_searched (s : State) (e : AfEnt) (v w : Int) :
    (s.searched e v).exceeds w AF_CFG.HYST = s.exceeds w AF_CFG.HYST := by
  have hk := s.searched_frame e v
  have hcfg : (s.searched e v).cfg AF_CFG.HYST = s.cfg AF_CFG.HYST := by
    rw [State.cfg, State.cfg, (s.searched_stays e v).cfg]
    split
    · rfl
    · exact hk.get_eq (by decide)
  rw [State.exceeds, State.exceeds, hcfg, hk.get_eq (by decide)]

theorem exec_afSearch {v : Int} {r : Rx} {e : AfEnt} (hon : s.onBearer 2 = true) (hrx : s.fe.rx = some r)
    (hrun : r.stopped = false) (hruns : s.followRuns ≠ []) (hconf : s.fm.confirm = none) (haf : s.fe.afHost = none)
    (hsync : s.bit FMR_STAT.SYNC = false) (hcands : s.afCands = [e]) (hfollows : s.follows 29 = true)
    (hover : s.exceeds (clampRssi false v) AF_CFG.HYST = true) :
    exec (.afSearch 2 [some v]) s = .next ((s.searched e v).afTry (afKfc e.code) 2) := by
  change execAfSearch 2 [some v] s = _
  rw [execAfSearch, hrx]
  dsimp only
  rw [if_pos ⟨hon, by simp [hrun], hruns, by simp [hconf], by simp [haf], .inr ⟨rfl, by simp [hsync]⟩⟩, hcands]
  change Host.Outcome.next (if (s.searched e v).follows 29 = true then
    if (s.searched e v).exceeds (clampRssi false v) AF_CFG.HYST = true then (s.searched e v).afTry (afKfc e.code) 2
    else s.searched e v else _) = _
  rw [if_pos ((s.follows_searched e v 29).trans hfollows), if_pos ((s.exceeds_searched e v _).trans hover)]

/-! ### Confirmation, return and recall -/

/-- A switch confirmed: the list, the remembered frequency and the signs. -/
def State.switched (s : State) (fo : Follow) (l : List AfEnt) : State :=
  let again := s.recallPut s.fm.recalled fo.kfc
  let s : State := { s with fm := { s.fm with confirm := none, building := none, recalled := again } }
  ((s.setAf l).put FMR_STAT.AF_CONFIRM 0).putBit FMR_STAT.FOLLOWING (fo.kfc != s.rxHome)

theorem exec_afSwitch {us : Nat} {fo : Follow} (h : s.fm.confirm = some fo) (hpi : s.bit FMR_STAT.PI_VALID = true ∧
    s.get FMR_PI.w = s.followPi ∧ us ≤ 10000 * s.cfg AF_TIME.PI_DWELL) : ∃ l, exec (.afSwitch us) s = .next
      ((((s.switched fo l).raise1 jAF_SWITCH).inc FMR_AF_CNT_SW.w).afEvent 1 fo.cause fo.home fo.kfc
        ((s.switched fo l).get FES_RSSI.w)) := by
  have hexec : exec (.afSwitch us) s = execAfSwitch us s := rfl
  rw [execAfSwitch, h] at hexec
  dsimp only at hexec
  rw [if_pos hpi] at hexec
  exact ⟨_, hexec⟩

theorem State.switched_shows (h : s.Tidy) (fo : Follow) (l : List AfEnt) : (s.switched fo l).Tidy ∧
    (s.switched fo l).fm.confirm = none ∧ (s.switched fo l).get FMR_STAT.AF_CONFIRM = 0 ∧
    (s.switched fo l).bit FMR_STAT.FOLLOWING = (fo.kfc != s.rxHome) ∧
    (s.switched fo l).get FMR_AF_CNT_SW.w = s.get FMR_AF_CNT_SW.w := by
  unfold State.switched
  extract_lets again src u
  have hset := u.setAf_keeps l .refl (within?_self _)
  have hu : (u.setAf l).Tidy := hset.tidy (show u.Tidy from h)
  have hfm : (u.setAf l).fm = { u.fm with list := l.take 25 } := u.setAf_shows l
  have hcnt : (u.setAf l).get FMR_AF_CNT_SW.w = s.get FMR_AF_CNT_SW.w := (hset.get_eq (by decide)).trans rfl
  have hconf : (u.setAf l).fm.confirm = none := by rw [hfm]
  have hhome : u.rxHome = s.rxHome := rfl
  rw [hhome]
  clear hset hfm
  generalize u.setAf l = a at *
  have h1 : (a.put FMR_STAT.AF_CONFIRM 0).Tidy := State.tidy_put hu
  refine ⟨State.tidy_put h1, hconf, ?_, ?_, ?_⟩
  · exact (State.get_put_other h1 (by decide) (by decide) (by decide)).trans (State.get_put_self hu (by decide))
  · have hget : ((a.put FMR_STAT.AF_CONFIRM 0).putBit FMR_STAT.FOLLOWING (fo.kfc != s.rxHome)).get FMR_STAT.FOLLOWING =
        if fo.kfc != s.rxHome then 1 else 0 :=
      (State.get_put_self h1 (by decide)).trans (by cases fo.kfc != s.rxHome <;> rfl)
    rw [State.bit, hget]
    cases fo.kfc != s.rxHome <;> rfl
  · exact (State.get_put_ne _ _ (by decide)).trans ((State.get_put_ne _ _ (by decide)).trans hcnt)

/-- The candidate given up, and the tuner on its way home. -/
def State.goneHome (s : State) (fo : Follow) : State :=
  let s : State := { s with fm := { s.fm with confirm := none, window := [], blocks := [], piN := 0 } }
  (((s.put FMR_STAT.AF_CONFIRM 0).put FMR_STAT.SYNC 0).put FMR_STAT.PI_VALID 0).retune fo.home

theorem exec_afReturn {fo : Follow} (h : s.fm.confirm = some fo) : ∃ l cause, exec .afReturn s = .next
    ((((s.goneHome fo).setAf l).inc FMR_AF_CNT_RET.w).afEvent 2 cause fo.kfc fo.home fo.rssi) := by
  have hexec : exec .afReturn s = execAfReturn s := rfl
  rw [execAfReturn, h] at hexec
  exact ⟨_, _, hexec⟩

theorem State.goneHome_shows (h : s.Tidy) (fo : Follow) : (s.goneHome fo).Tidy ∧ (s.goneHome fo).fm.confirm = none ∧
    (s.goneHome fo).get FMR_STAT.AF_CONFIRM = 0 ∧ (s.goneHome fo).get FMR_STAT.SYNC = 0 ∧
    (s.goneHome fo).fe.rx.map Rx.kfc = s.fe.rx.map (fun _ => fo.home) ∧ (s.goneHome fo).get FES_STAT.JOB = 0 ∧
    (s.goneHome fo).get FMR_AF_CNT_RET.w = s.get FMR_AF_CNT_RET.w := by
  unfold State.goneHome
  extract_lets src u
  have hu : u.Tidy := h
  have h1 : (u.put FMR_STAT.AF_CONFIRM 0).Tidy := State.tidy_put hu
  have h2 : ((u.put FMR_STAT.AF_CONFIRM 0).put FMR_STAT.SYNC 0).Tidy := State.tidy_put h1
  have h3 : (((u.put FMR_STAT.AF_CONFIRM 0).put FMR_STAT.SYNC 0).put FMR_STAT.PI_VALID 0).Tidy := State.tidy_put h2
  have hconf : (((u.put FMR_STAT.AF_CONFIRM 0).put FMR_STAT.SYNC 0).put FMR_STAT.PI_VALID 0).get FMR_STAT.AF_CONFIRM = 0 :=
    (State.get_put_other h2 (by decide) (by decide) (by decide)).trans
      ((State.get_put_other h1 (by decide) (by decide) (by decide)).trans (State.get_put_self hu (by decide)))
  have hsync : (((u.put FMR_STAT.AF_CONFIRM 0).put FMR_STAT.SYNC 0).put FMR_STAT.PI_VALID 0).get FMR_STAT.SYNC = 0 :=
    (State.get_put_other h2 (by decide) (by decide) (by decide)).trans (State.get_put_self h1 (by decide))
  have hcnt : (((u.put FMR_STAT.AF_CONFIRM 0).put FMR_STAT.SYNC 0).put FMR_STAT.PI_VALID 0).get FMR_AF_CNT_RET.w =
      s.get FMR_AF_CNT_RET.w := by
    rw [State.get_put_ne _ _ (by decide), State.get_put_ne _ _ (by decide), State.get_put_ne _ _ (by decide)]
    rfl
  have hfe : (((u.put FMR_STAT.AF_CONFIRM 0).put FMR_STAT.SYNC 0).put FMR_STAT.PI_VALID 0).fe = s.fe := rfl
  have hfm : (((u.put FMR_STAT.AF_CONFIRM 0).put FMR_STAT.SYNC 0).put FMR_STAT.PI_VALID 0).fm.confirm = none := rfl
  generalize ((u.put FMR_STAT.AF_CONFIRM 0).put FMR_STAT.SYNC 0).put FMR_STAT.PI_VALID 0 = a at *
  obtain ⟨hjob, hrx⟩ := State.retune_shows h3 fo.home
  have hk := a.retune_keeps fo.home .refl (within?_self _)
  refine ⟨hk.tidy h3, by rw [hk.fm_eq (by decide), hfm], (hk.get_eq (by decide)).trans hconf,
    (hk.get_eq (by decide)).trans hsync, ?_, hjob, (hk.get_eq (by decide)).trans hcnt⟩
  rw [hrx, hfe, Option.map_map]
  rfl

theorem exec_afRecall {kfc : Nat} (hon : s.onBearer 2 = true) (hrecall : s.cfg AF_CTL.RECALL = 1)
    (hrx : s.fe.rx.any (fun r => !r.stopped) = true) (hfollows : s.follows 29 = true) (hpi : s.bit FMR_STAT.PI_VALID = false)
    (hhome : s.rxKfc = s.rxHome) (hconf : s.fm.confirm = none) (htried : s.fm.recallTried = false)
    (hget : s.recallGet s.fm.recalled = some kfc) : exec .afRecall s = .next
      (({ s with fm := { s.fm with recallTried := true } } : State).afTry kfc 3) := by
  change execAfRecall s = _
  rw [execAfRecall, if_pos ⟨hon, hrecall, hrx, hfollows, by simp [hpi], hhome, by simp [hconf], by simp [htried]⟩, hget]

/-- The next candidate in turn. -/
def State.turnCounted (s : State) : State := { s with fm := { s.fm with turn := s.fm.turn + 1 } }

theorem exec_afPeriodicCheck {v : Int} {e : AfEnt} (hcands : s.afCands = [e]) (hon : s.onBearer 2 = true)
    (hchecks : s.checks s.fm.confirm.isNone (s.bit FMR_STAT.SYNC && !s.weak 28 AF_CFG.SW_DBM) = true) :
    exec (.afPeriodicCheck (some v)) s = .next (s.turnCounted.searched e v) := by
  change execAfPeriodicCheck (some v) s = _
  rw [execAfPeriodicCheck, hcands]
  dsimp only
  have hturn : [e][s.fm.turn % [e].length]? = some e := by
    rw [List.length_singleton, Nat.mod_one]
    rfl
  rw [hturn]
  dsimp only
  rw [if_pos ⟨hon, hchecks⟩]
  rfl

theorem State.afRssi_shows (s : State) (l : List (AfEnt × Int)) : (s.afRssi l).fm.turn = s.fm.turn ∧
    (s.afRssi l).fm.gap = s.fm.gap := by
  unfold State.afRssi
  rw [State.setAf_shows]
  exact ⟨rfl, rfl⟩

theorem State.searched_shows (h : s.Tidy) (e : AfEnt) (v : Int) : (s.searched e v).fm.turn = s.fm.turn ∧
    (s.searched e v).fm.gap = true ∧ (s.searched e v).bit FES_AF_STAT.VALID = true ∧
    (s.searched e v).get FES_AF_RSSI.w = code16 (clampRssi false v) := by
  obtain ⟨-, hvalid, hrssi⟩ := State.afResult_shows (s := s.fresh.2) h (afKfc e.code) (s.fresh.1.toNat % 0x1000) v
  have hfm : _ = ({ s.fm with gap := true } : Fm) :=
    s.fresh.2.fm_afResult (afKfc e.code) (some v) (s.fresh.1.toNat % 0x1000)
  unfold State.searched
  rw [State.measured_one]
  generalize s.fresh.2.afResult (afKfc e.code) (some v) (s.fresh.1.toNat % 0x1000) = a at *
  have hk := a.afRssi_keeps [(e, v)] .refl (within?_self _)
  obtain ⟨hturn, hgap⟩ := a.afRssi_shows [(e, v)]
  refine ⟨by rw [hturn, hfm], by rw [hgap, hfm], ?_, (hk.get_eq (by decide)).trans hrssi⟩
  rw [State.bit, hk.get_eq (by decide), ← State.bit, hvalid]

/-! ### The obligation -/

/-- Settles O22: RDS synchronisation, blocks, groups, the AF list and AF following. -/
theorem rdsCommandsComplete : Obligations.RdsCommandsComplete := by
  refine ⟨fun pilot => .intro _ (fun s h => exec_rdsSyncAcquired h) fun s hc _ => ?_,
    .intro _ (fun s h => exec_rdsSyncLost h) fun s hc _ => ?_,
    fun pos bits data => .intro _ (fun s h => exec_rdsBlock h) fun s hc _ => ?_,
    fun bits data => .intro _ (fun s ⟨h, _⟩ => (exec_rdsBlock h).trans (congrArg Host.Outcome.next (if_pos (.inl rfl))))
      fun s hc ⟨_, hstatus, hpi, hn⟩ => ?_,
    fun at_ a b c d => .intro _ (fun s ⟨hblocks, hoda, htype, _⟩ => exec_rdsGroup_count hblocks hoda htype)
      fun s hc ⟨_, _, _, hlow, hhigh⟩ => ?_,
    fun b s hc ⟨h, hcount⟩ => ?_,
    fun v r e => .intro _ (fun s ⟨hon, hrx, hrun, hruns, hconf, haf, hsync, hcands, hfollows, hover⟩ =>
      exec_afSearch hon hrx hrun hruns hconf haf hsync hcands hfollows hover) fun s hc ⟨_, hrx, _⟩ => ?_,
    fun us fo s hc ⟨h, hpi⟩ => ?_,
    fun fo s hc h => ?_,
    fun v e => .intro _ (fun s ⟨hcands, hon, hchecks⟩ => exec_afPeriodicCheck hcands hon hchecks) fun s hc _ => ?_,
    fun kfc => .intro _ (fun s ⟨hon, hrecall, hrx, hfollows, hpi, hhome, hconf, htried, hget⟩ =>
      exec_afRecall hon hrecall hrx hfollows hpi hhome hconf htried hget) fun s hc _ => ?_,
    fun code => .intro _ (fun s _ => rfl) fun s _ hban => ?_⟩
  case refine_1 =>
    obtain ⟨hsync, hpilot, hregs⟩ := State.rdsSynced_shows hc.tidy pilot
    exact ⟨hsync, hpilot, rfl, hregs⟩
  case refine_2 =>
    obtain ⟨hsync, hcnt, hregs⟩ := State.rdsUnsynced_shows hc.tidy
    exact ⟨hsync, hcnt, rfl, hregs⟩
  case refine_3 =>
    obtain ⟨-, hblk, hwindow, -⟩ := State.blockEntered_shows hc.tidy pos (s.blockStatus bits) data
    split
    · have hk := (s.blockEntered pos (s.blockStatus bits) data).piBlock_keeps (s.blockStatus bits) data.toNat .refl (within?_self _)
      refine ⟨?_, (State.window_piBlock _ _ _).trans hwindow⟩
      rw [State.get32, hk.get_eq (by decide), hk.get_eq (by decide), ← State.get32, hblk]
    · exact ⟨hblk, hwindow⟩
  case refine_4 =>
    obtain ⟨h1, -, -, hpi', hn', hcfg⟩ := State.blockEntered_shows hc.tidy 0 (s.blockStatus bits) data
    obtain ⟨hget, hvalid, hcnt⟩ := State.piBlock_confirmed h1 hstatus (hpi'.trans hpi) (by rw [hcfg, hn']; exact hn)
    exact ⟨hget, hvalid, by rw [hcnt, hn']⟩
  case refine_5 =>
    obtain ⟨hfm, hsec, -⟩ := s.groupTold_shows at_ a b c d
    rw [State.afPair_count _ ⟨hlow, hhigh⟩]
    generalize s.groupTold at_ a b c d = u at *
    refine ⟨?_, rfl, ?_⟩
    · rw [← hsec]
    · change u.fm.blocks = []
      rw [hfm]
  case refine_6 =>
    have hm : (if b.methodB (afCode s.rxKfc) then 2 else 1) < 4 := by split <;> decide
    obtain ⟨l, n, hexec⟩ := exec_afListComplete h hcount
    obtain ⟨hbuild, hmethod⟩ := State.listDone_shows hc.tidy hm l
    generalize s.listDone (if b.methodB (afCode s.rxKfc) then 2 else 1) l = u at *
    rcases hexec with hexec | hexec
    · have hk := u.afEvent_keeps 4 (if b.methodB (afCode s.rxKfc) then 2 else 1) u.rxKfc 0 n .refl (within?_self _)
      exact ⟨_, hexec, by rw [hk.fm_eq (by decide), hbuild], (hk.get_eq (by decide)).trans hmethod⟩
    · exact ⟨_, hexec, hbuild, hmethod⟩
  case refine_7 =>
    have ht : (s.searched e v).Tidy := (s.searched_frame e v).tidy hc.tidy
    obtain ⟨hconf, hbit, hkfc, hjob, -⟩ := State.afTry_shows ht (afKfc e.code) 2
    exact ⟨hconf, hbit, by rw [hkfc, (s.searched_stays e v).rx, hrx]; rfl, hjob⟩
  case refine_8 =>
    obtain ⟨l, hexec⟩ := exec_afSwitch h hpi
    obtain ⟨h1, hnone, hconf, hfol, hcnt⟩ := State.switched_shows hc.tidy fo l
    generalize s.switched fo l = u at *
    have hraise := u.raise1_keeps jAF_SWITCH .refl (within?_self _)
    have hset : (u.raise1 jAF_SWITCH).fget .f0 INT_STAT1.AF_SWITCH = 1 := State.fget_raise1_same h1.canon (by decide)
    have h2 : (u.raise1 jAF_SWITCH).Tidy := hraise.tidy h1
    have hev := ((u.raise1 jAF_SWITCH).inc FMR_AF_CNT_SW.w).afEvent_keeps 1 fo.cause fo.home fo.kfc (u.get FES_RSSI.w) .refl
      (within?_self _)
    refine ⟨_, hexec, ?_, ?_, ?_, ?_, ?_⟩
    · rw [hev.fm_eq (by decide), State.fm_inc, hraise.fm_eq (by decide), hnone]
    · exact bit_eq_of_get (n := 0) ((hev.get_eq (by decide)).trans ((State.get_inc_ne _ (by decide)).trans
        ((hraise.get_eq (by decide)).trans hconf)))
    · rw [← hfol, State.bit, State.bit, hev.get_eq (by decide), State.get_inc_ne _ (by decide), hraise.get_eq (by decide)]
    · exact (hev.fget_eq (by decide)).trans ((State.get_inc_ne _ (by decide)).trans hset)
    · refine (hev.get_eq (by decide)).trans ((State.get_inc_self h2 (by decide)).trans ?_)
      rw [hraise.get_eq (by decide), hcnt]
      exact Nat.min_comm _ _
  case refine_9 =>
    obtain ⟨l, cause, hexec⟩ := exec_afReturn h
    obtain ⟨h1, hnone, hconf, hsync, hrx, hjob, hcnt⟩ := State.goneHome_shows hc.tidy fo
    generalize s.goneHome fo = u at *
    have hset := u.setAf_keeps l .refl (within?_self _)
    have hev := ((u.setAf l).inc FMR_AF_CNT_RET.w).afEvent_keeps 2 cause fo.kfc fo.home fo.rssi .refl (within?_self _)
    have hget {x : Fld} (hne : x.key ≠ FMR_AF_CNT_RET.w.key) (hx : (u.setAf l).get x = u.get x) :
        ((u.setAf l).inc FMR_AF_CNT_RET.w).get x = u.get x := (State.get_inc_ne _ hne).trans hx
    refine ⟨_, hexec, ?_, ?_, ?_, ?_, ?_, ?_⟩
    · rw [hev.fm_eq (by decide), State.fm_inc, State.setAf_shows]
      exact hnone
    · exact bit_eq_of_get (n := 0) ((hev.get_eq (by decide)).trans ((hget (by decide) (hset.get_eq (by decide))).trans hconf))
    · exact bit_eq_of_get (n := 0) ((hev.get_eq (by decide)).trans ((hget (by decide) (hset.get_eq (by decide))).trans hsync))
    · rw [hev.fe_eq (by decide), State.fe_inc, hset.fe_eq (by decide), hrx]
    · exact (hev.get_eq (by decide)).trans ((hget (by decide) (hset.get_eq (by decide))).trans hjob)
    · refine (hev.get_eq (by decide)).trans ((State.get_inc_self (hset.tidy h1) (by decide)).trans ?_)
      rw [hset.get_eq (by decide), hcnt]
      exact Nat.min_comm _ _
  case refine_10 =>
    exact State.searched_shows (s := s.turnCounted) hc.tidy e v
  case refine_11 =>
    obtain ⟨hconf, hbit, -, -, htried⟩ := State.afTry_shows
      (s := { s with fm := { s.fm with recallTried := true } }) hc.tidy kfc 3
    exact ⟨htried, hconf, hbit⟩
  case refine_12 =>
    intro e he hcode
    rw [State.setAf_shows] at he
    obtain ⟨e0, he0, rfl⟩ := List.mem_map.mp (List.mem_of_mem_take he)
    by_cases hban0 : e0.code = code ∧ e0.banEnd ≤ s.sec
    · rw [if_pos hban0]
    · rw [if_neg hban0] at hcode ⊢
      exact absurd ⟨hcode, hban e0 he0 hcode⟩ hban0

end Sys2Proof.Machine
end

section
/-! PROOFS. DAB synchronisation, the sub-channel and the FIC (O23). -/

namespace Sys2Proof.Machine

open R

variable {s t u : State} {f g : Fn}

/-! ### Numbers of bytes -/

theorem beNat_lt (l : List Byte) : beNat l < 0x100 ^ l.length := by
  have hfold (l : List Byte) (a : Nat) : l.foldl (fun a b => a * 0x100 + b.toNat) a < (a + 1) * 0x100 ^ l.length := by
    induction l generalizing a with
    | nil => simp
    | cons b l ih =>
      have hb : b.toNat < 0x100 := b.isLt
      calc (b :: l).foldl (fun a b => a * 0x100 + b.toNat) a < (a * 0x100 + b.toNat + 1) * 0x100 ^ l.length := ih _
        _ ≤ ((a + 1) * 0x100) * 0x100 ^ l.length := Nat.mul_le_mul_right _ (by omega)
        _ = (a + 1) * 0x100 ^ (b :: l).length := by rw [List.length_cons, pow_succ']; ring
  simpa [beNat] using hfold l 0

theorem beAt_lt (l : List Byte) (off n : Nat) : beAt l off n < 0x100 ^ n :=
  Nat.lt_of_lt_of_le (beNat_lt _) (Nat.pow_le_pow_right (by decide) (List.length_take_le n _))

/-! ### Synchronisation -/

/-- Acquisition starts over. -/
theorem State.dabRestart_shows (h : s.Tidy) : s.dabRestart.Tidy ∧ s.dabRestart.get DAB_STAT.SYNC = 0 ∧
    s.dabRestart.get DAB_STAT.EID_VALID = 0 ∧ s.dabRestart.dab.recallTried = s.dab.recallTried ∧
    s.dabRestart.dab.confirm = s.dab.confirm := by
  refine ⟨(s.dabRestart_keeps .refl (within?_self _)).tidy h, ?_, ?_, rfl, rfl⟩
  · change (((((s.put DAB_STAT.SYNC 0).put DAB_STAT.FIC_OK 0).put DAB_STAT.EID_VALID 0).put DAB_STAT.SUBCH_ON 0).put DAB_FERR.w
      0x8000).get _ = 0
    simp (decide := true) (maxDischargeDepth := 9) [h]
  · change (((((s.put DAB_STAT.SYNC 0).put DAB_STAT.FIC_OK 0).put DAB_STAT.EID_VALID 0).put DAB_STAT.SUBCH_ON 0).put DAB_FERR.w
      0x8000).get _ = 0
    simp (decide := true) (maxDischargeDepth := 9) [h]

theorem exec_dabSync (h : s.onBearer 3 = true ∧ s.pikaServes = true ∧ s.bit DAB_STAT.SYNC = false) :
    exec .dabSync s = .next (({ s with dab := { s.dab with syncAt := s.aon } } : State).put DAB_STAT.SYNC 1) :=
  congrArg Host.Outcome.next (if_pos ⟨h.1, h.2.1, by simpa using h.2.2⟩)

theorem exec_dabSyncLost (h : s.bit DAB_STAT.SYNC = true) : exec .dabSyncLost s = .next (s.dabRestart.inc DAB_CNT_SYNC.w) :=
  congrArg Host.Outcome.next (if_pos h)

/-! ### The sub-channel -/

/-- SUBCH_LOST changes one bit of the status. -/
theorem State.subLost_shows (h : s.Tidy) (cause : Nat) : (s.subLost cause).dab.confirm = s.dab.confirm ∧
    ∀ x : Fld, x.sound = true → x.key = DAB_STAT.w.key → DAB_STAT.SUBCH_ON.apart x = true →
      (s.subLost cause).get x = s.get x := by
  unfold State.subLost
  split
  · exact ⟨rfl, fun _ _ _ _ => rfl⟩
  · have ha : ({ s with dab := { s.dab with lost := true } } : State).Tidy := h
    have hdab : (({ s with dab := { s.dab with lost := true } } : State).put DAB_STAT.SUBCH_ON 0).dab.confirm = s.dab.confirm := rfl
    have hget (x : Fld) (hx : x.sound = true) (hapart : DAB_STAT.SUBCH_ON.apart x = true) :
        (({ s with dab := { s.dab with lost := true } } : State).put DAB_STAT.SUBCH_ON 0).get x = s.get x :=
      State.get_put_other ha (by decide) hx hapart
    dsimp only
    generalize ({ s with dab := { s.dab with lost := true } } : State).put DAB_STAT.SUBCH_ON 0 = a at *
    have hk := a.subEvent_keeps 4 cause .refl (within?_self _)
    exact ⟨by rw [hk.dab_eq (by decide), hdab], fun x hx hkey hapart =>
      (hk.get_eq (by rw [hkey]; decide)).trans (hget x hx hapart)⟩

/-- The start of a sub-channel, or its loss, changes one bit of the status. -/
theorem State.startSub_shows (h : s.Tidy) : s.startSub.dab.confirm = s.dab.confirm ∧
    ∀ x : Fld, x.sound = true → x.key = DAB_STAT.w.key → DAB_STAT.SUBCH_ON.apart x = true →
      s.startSub.get x = s.get x := by
  unfold State.startSub
  split
  · split
    · exact ⟨rfl, fun _ _ _ _ => rfl⟩
    · split
      · rename_i r hrx hno c hfind
        split
        · exact State.subLost_shows h 2
        · split
          · exact State.subLost_shows h 3
          · split
            · extract_lets fec a b l
              have hdab : b.dab = s.dab := rfl
              have hget (x : Fld) (hx : x.sound = true) (hkey : x.key = DAB_STAT.w.key)
                  (hapart : DAB_STAT.SUBCH_ON.apart x = true) : b.get x = s.get x := by
                rw [State.get_put_ne _ _ (by rw [hkey]; decide), State.get_put_ne _ _ (by rw [hkey]; decide),
                  State.get_put_ne _ _ (by rw [hkey]; decide), State.get_put_other h (by decide) hx hapart]
              clear_value b
              split
              · exact ⟨congrArg Dab.confirm hdab, hget⟩
              · exact ⟨congrArg Dab.confirm hdab, hget⟩
            · exact ⟨rfl, fun _ _ _ _ => rfl⟩
      · exact ⟨rfl, fun _ _ _ _ => rfl⟩
  · exact ⟨rfl, fun _ _ _ _ => rfl⟩

/-- The service resolved, with what it says of the reception. -/
theorem State.confirm_resolve (s : State) : s.resolve.dab.confirm = s.dab.confirm := by
  have hev (a : State) (event cause : Nat) : (a.subEvent event cause).dab = a.dab :=
    (a.subEvent_keeps event cause .refl (within?_self _)).dab_eq (by decide)
  unfold State.resolve
  split
  · split
    · rfl
    · split
      · split
        · split
          · dsimp only
            rw [hev]
          · rfl
        · rfl
      · split
        · split
          · dsimp only
            rw [hev]
            rfl
          · rfl
        · rfl
  · rfl

/-! ### The FIC -/

/-- A FIB counted. -/
def State.fibCounted (s : State) (crcOk : Bool) : State :=
  let s := s.inc DAB_CNT_FIB.w
  let s : State := { s with dab := { s.dab with fibs := (crcOk :: s.dab.fibs).take 60 } }
  s.putBit DAB_STAT.FIC_OK (s.dab.fibs.any id)

theorem exec_dabFib_bad {at_ : Nat} {bytes : List Byte} (h : s.bit DAB_STAT.SYNC = true) :
    exec (.dabFib at_ false bytes) s = .next ((s.fibCounted false).inc DAB_CNT_FIB_BAD.w) :=
  congrArg Host.Outcome.next (if_pos h)

theorem exec_dabFib_one {at_ : Nat} {bytes : List Byte} {g : Fig} (h : s.bit DAB_STAT.SYNC = true)
    (hfigs : figs 30 (bytes.take 30) = [g]) (htype : g.type = 0) : exec (.dabFib at_ true bytes) s = .next
      (((((s.fibCounted true).figMeaning (min at_ s.ktime) g).figRecord (min at_ s.ktime) g).resolve.startSub.showFec).findCands) := by
  change execDabFib at_ true bytes s = _
  rw [execDabFib, if_pos h, hfigs]
  dsimp only
  rw [if_pos rfl, State.takeFigs, if_pos htype]
  rfl

theorem State.fibCounted_shows (h : s.Tidy) (crcOk : Bool) : (s.fibCounted crcOk).Tidy ∧
    (s.fibCounted crcOk).get DAB_CNT_FIB.w = min 0xFFFF (s.get DAB_CNT_FIB.w + 1) ∧
    (s.fibCounted crcOk).get DAB_CNT_FIB_BAD.w = s.get DAB_CNT_FIB_BAD.w ∧
    (s.fibCounted crcOk).dab.fibs = (crcOk :: s.dab.fibs).take 60 := by
  have h1 : (s.inc DAB_CNT_FIB.w).Tidy := State.tidy_inc h
  have h2 (d : Dab) : ({ s.inc DAB_CNT_FIB.w with dab := d } : State).Tidy := h1
  refine ⟨State.tidy_put (h2 _), ?_, ?_, rfl⟩
  · refine (State.get_put_ne _ _ (by decide)).trans ((State.get_inc_self h (by decide)).trans ?_)
    exact Nat.min_comm _ _
  · exact (State.get_put_ne _ _ (by decide)).trans (State.get_inc_ne _ (by decide))

theorem State.ficOk_fibCounted (h : s.Tidy) : (s.fibCounted true).get DAB_STAT.FIC_OK = 1 := by
  have h1 : (s.inc DAB_CNT_FIB.w).Tidy := State.tidy_inc h
  have h2 (d : Dab) : ({ s.inc DAB_CNT_FIB.w with dab := d } : State).Tidy := h1
  refine (State.get_put_self (h2 _) (by decide)).trans ?_
  rfl

/-- The ensemble and its frame count, as FIG 0/0 gives them. -/
def State.ensembleShown (s : State) (g : Fig) : State :=
  ((s.put DAB_EID.w (beAt g.body 0 2)).put DAB_STAT.EID_VALID 1).put DAB_CIF.w
    (beAt g.body 2 1 % 32 * 250 + beAt g.body 3 1)

theorem State.figMeaning_eq_ensembleShown {at_ : Nat} {g : Fig} (hext : g.ext = 0) :
    ∃ d, s.figMeaning at_ g = { s.ensembleShown g with dab := d } := by
  have heq : s.figMeaning at_ g = if beAt g.body 2 1 / 0x40 ≠ 0 ∧ (s.ensembleShown g).dab.next.isNone then
      { s.ensembleShown g with dab := { (s.ensembleShown g).dab with next := some (beAt g.body 4 1, ⟨[], []⟩) } }
      else s.ensembleShown g := by
    unfold State.figMeaning
    rw [hext]
    rfl
  rw [heq]
  split
  · exact ⟨_, rfl⟩
  · exact ⟨(s.ensembleShown g).dab, rfl⟩

/-- FIG 0/0 names the ensemble. -/
theorem State.figMeaning_ensemble (h : s.Tidy) {at_ : Nat} {g : Fig} (hext : g.ext = 0) : (s.figMeaning at_ g).Tidy ∧
    (s.figMeaning at_ g).get DAB_EID.w = beAt g.body 0 2 ∧ (s.figMeaning at_ g).get DAB_STAT.EID_VALID = 1 ∧
    (s.figMeaning at_ g).get DAB_STAT.FIC_OK = s.get DAB_STAT.FIC_OK := by
  have h1 : (s.put DAB_EID.w (beAt g.body 0 2)).Tidy := State.tidy_put h
  have h2 : ((s.put DAB_EID.w (beAt g.body 0 2)).put DAB_STAT.EID_VALID 1).Tidy := State.tidy_put h1
  have hid : (s.ensembleShown g).get DAB_EID.w = beAt g.body 0 2 := by
    rw [State.ensembleShown, State.get_put_ne _ _ (by decide), State.get_put_ne _ _ (by decide), State.get_put_self h (by decide)]
    exact Nat.mod_eq_of_lt (beAt_lt _ _ _)
  have hvalid : (s.ensembleShown g).get DAB_STAT.EID_VALID = 1 :=
    (State.get_put_ne _ _ (by decide)).trans (State.get_put_self h1 (by decide))
  have hfic : (s.ensembleShown g).get DAB_STAT.FIC_OK = s.get DAB_STAT.FIC_OK := by
    rw [State.ensembleShown, State.get_put_ne _ _ (by decide), State.get_put_other h1 (by decide) (by decide) (by decide),
      State.get_put_ne _ _ (by decide)]
  obtain ⟨d, heq⟩ := State.figMeaning_eq_ensembleShown (s := s) (at_ := at_) hext
  refine ⟨(State.figMeaning_keeps _ _ _ .refl (within?_self _)).tidy h, ?_⟩
  rw [heq]
  exact ⟨hid, hvalid, hfic⟩

/-- What follows a FIG leaves the signs of the ensemble. -/
theorem State.figRecord_rest_shows (h : s.Tidy) (at_ : Nat) (g : Fig) {x : Fld} (hx : x.sound = true)
    (hkey : x.key = DAB_STAT.w.key ∨ x.key = DAB_EID.w.key ∨ x.key = DAB_CNT_FIB.w.key ∨ x.key = DAB_CNT_FIB_BAD.w.key)
    (hapart : DAB_STAT.SUBCH_ON.apart x = true) :
    (((s.figRecord at_ g).resolve.startSub.showFec).findCands).get x = s.get x := by
  have hrec := (s.figRecord at_ g).resolve_keeps (s.figRecord_keeps at_ g .refl
    (μ := areasMask [.counters, .mode, .engines, .frontEnd, .dab, .reg INT_STAT0.w, .reg DQ_LOST.w, .reg WAKE_HREASON.w,
      .reg DAB_SID_L.w, .reg DAB_SID_H.w]) (by decide)) (by decide)
  have hcands := (s.figRecord at_ g).resolve.startSub.showFec.findCands_keeps (State.showFec_keeps _ .refl
    (μ := areasMask ([.dab, .reg DAB_SUBCH_PROT.w, .reg DAB_AF_N.w] ++ (List.range 32).map fun i => Area.reg ⟨0xFA0 + i, 15, 0⟩))
      (by decide)) (by decide)
  have hstart : (s.figRecord at_ g).resolve.startSub.get x = (s.figRecord at_ g).resolve.get x := by
    rcases hkey with hkey | hkey
    · exact (State.startSub_shows (hrec.tidy h)).2 x hx hkey hapart
    · refine (State.startSub_keeps _ .refl (within?_self _)).get_eq ?_
      rcases hkey with hkey | hkey | hkey <;> rw [hkey] <;> decide
  rw [hcands.get_eq (by rcases hkey with hkey | hkey | hkey | hkey <;> rw [hkey] <;> decide), hstart,
    hrec.get_eq (by rcases hkey with hkey | hkey | hkey | hkey <;> rw [hkey] <;> decide)]

end Sys2Proof.Machine
end

section
/-! PROOFS. DAB packets, following and measurements (O23). -/

namespace Sys2Proof.Machine

open R

variable {s t u : State} {f g : Fn}

/-! ### Packets and reconfiguration -/

theorem exec_dabReconfiguration {c : Nat} {m : Mux} {r : Rx} (hnext : s.dab.next = some (c, m)) (hrx : s.fe.rx = some r)
    (hsub : r.sub = 0x40) : exec .dabReconfiguration s = .next
      { s with dab := { s.dab with mux := m, next := none, resolved := false, lost := false } } := by
  change execDabReconfiguration s = _
  rw [execDabReconfiguration, hnext, hrx]
  exact congrArg Host.Outcome.next (if_pos hsub)

theorem exec_dabPacket_bad {bytes : List Byte} {r : Rx} (hrx : s.fe.rx = some r) (h : s.bit DAB_STAT.SUBCH_ON = true ∧
    beAt bytes 0 2 % 0x400 ≠ 0 ∧ r.addrs.contains (beAt bytes 0 2 % 0x400) = true) :
    exec (.dabPacket false bytes) s = .next ((s.inc DAB_CNT_PKT.w).inc DAB_CNT_PKT_BAD.w) := by
  change execDabPacket false bytes s = _
  rw [execDabPacket, hrx]
  dsimp only
  rw [if_pos h, if_neg (by simp)]

theorem exec_dabPacket_segment {bytes : List Byte} {r : Rx} (hrx : s.fe.rx = some r) (h : s.bit DAB_STAT.SUBCH_ON = true ∧
    beAt bytes 0 2 % 0x400 ≠ 0 ∧ r.addrs.contains (beAt bytes 0 2 % 0x400) = true) (hlen : bytes.length = 96)
    (htype : beAt bytes 0 1 / 0x40 = 3) (hfl : beAt bytes 0 1 / 4 % 4 = 3) (hused : beAt bytes 2 1 = 80) :
    ∃ heard, exec (.dabPacket true bytes) s = .next
      ((s.inc DAB_CNT_PKT.w).segment (((bytes.drop 3).take 80).map some) heard) := by
  have hexec : exec (.dabPacket true bytes) s = execDabPacket true bytes s := rfl
  rw [execDabPacket, hrx] at hexec
  dsimp only at hexec
  rw [if_pos h, if_pos ⟨rfl, hlen, htype⟩, if_pos ⟨hfl, hused⟩] at hexec
  exact ⟨_, hexec⟩

theorem State.get_segment (h : s.Tidy) (l : List (Option Byte)) (heard : List Fn) :
    (s.segment l heard).get EDF_CNT_SEG.w = min 0xFFFF (s.get EDF_CNT_SEG.w + 1) := by
  have hcnt : (s.inc EDF_CNT_SEG.w).get EDF_CNT_SEG.w = min 0xFFFF (s.get EDF_CNT_SEG.w + 1) :=
    (State.get_inc_self h (by decide)).trans (Nat.min_comm _ _)
  unfold State.segment
  rw [← hcnt]
  generalize s.inc EDF_CNT_SEG.w = a
  dsimp only
  split
  · exact (State.badSegment_keeps _ _ .refl (within?_self _)).get_eq (by decide)
  · rename_i hd _
    have hstat := a.stat_keeps hd.stream (fun x => { x with good := x.good + 1 }) .refl (within?_self _)
    split
    · exact ((State.collect_keeps _ _ _ _ .refl (within?_self _)).get_eq (by decide)).trans (hstat.get_eq (by decide))
    · exact hstat.get_eq (by decide)

/-! ### The candidates -/

theorem State.setDabAf_shows (s : State) (l : List DabCand) : (s.setDabAf l).dab = { s.dab with cands := l } := by
  unfold State.setDabAf
  extract_lets src
  exact ((State.showDabAf_keeps _ l 0 (List.range 16) (μ := areasMask ((List.range 32).map fun i => Area.reg ⟨0xFA0 + i, 15, 0⟩)) .refl
    (by decide) (by decide)).dab_eq (by decide)).trans rfl

theorem State.dabRssi_shows (s : State) (l : List (DabCand × Int)) : (s.dabRssi l).dab.turn = s.dab.turn ∧
    (s.dabRssi l).dab.recallTried = s.dab.recallTried := by
  unfold State.dabRssi
  rw [State.setDabAf_shows]
  exact ⟨rfl, rfl⟩

/-- The signs of a frequency under confirmation. -/
def State.dabConfirming (s : State) (kfc cause : Nat) : State :=
  let f : Follow := ⟨kfc, s.rxKfc, cause, s.get FES_RSSI.w, s.get DAB_EID.w⟩
  let s := s.dabRestart.put DAB_STAT.AF_CONFIRM 1
  { s with dab := { s.dab with confirm := some f } }

theorem State.dabConfirming_shows (h : s.Tidy) (kfc cause : Nat) : (s.dabConfirming kfc cause).Tidy ∧
    (s.dabConfirming kfc cause).dab.confirm.map Follow.kfc = some kfc ∧
    (s.dabConfirming kfc cause).get DAB_STAT.AF_CONFIRM = 1 ∧ (s.dabConfirming kfc cause).get DAB_STAT.SYNC = 0 ∧
    (s.dabConfirming kfc cause).fe = s.fe ∧ (s.dabConfirming kfc cause).dab.recallTried = s.dab.recallTried := by
  obtain ⟨h1, hsync, -, hrec, -⟩ := State.dabRestart_shows h
  have hfe : s.dabRestart.fe = s.fe := (s.dabRestart_keeps .refl (within?_self _)).fe_eq (by decide)
  unfold State.dabConfirming
  generalize s.dabRestart = a at *
  exact ⟨State.tidy_put h1, rfl, State.get_put_self h1 (by decide),
    (State.get_put_other h1 (by decide) (by decide) (by decide)).trans hsync, hfe, hrec⟩

theorem State.dabTry_shows (h : s.Tidy) (kfc cause : Nat) : (s.dabTry kfc cause).dab.confirm.map Follow.kfc = some kfc ∧
    (s.dabTry kfc cause).bit DAB_STAT.AF_CONFIRM = true ∧ (s.dabTry kfc cause).bit DAB_STAT.SYNC = false ∧
    (s.dabTry kfc cause).fe.rx.map Rx.kfc = s.fe.rx.map (fun _ => kfc) ∧ (s.dabTry kfc cause).get FES_STAT.JOB = 0 ∧
    (s.dabTry kfc cause).dab.recallTried = s.dab.recallTried := by
  have heq : s.dabTry kfc cause = (s.dabConfirming kfc cause).retune kfc := rfl
  obtain ⟨h1, hconf, hbit, hsync, hfe, hrec⟩ := State.dabConfirming_shows h kfc cause
  rw [heq]
  generalize s.dabConfirming kfc cause = a at *
  obtain ⟨hjob, hrx⟩ := State.retune_shows h1 kfc
  have hk := a.retune_keeps kfc .refl (within?_self _)
  have hdab : (a.retune kfc).dab = a.dab := hk.dab_eq (by decide)
  refine ⟨by rw [hdab, hconf], bit_eq_of_get (n := 1) ((hk.get_eq (by decide)).trans hbit),
    bit_eq_of_get (n := 0) ((hk.get_eq (by decide)).trans hsync), ?_, hjob, by rw [hdab, hrec]⟩
  rw [hrx, hfe, Option.map_map]
  rfl

/-! ### The search -/

/-- The one candidate measured, and its RSSI in the list. -/
def State.dabSearched (s : State) (c : DabCand) (v : Int) : State := (s.measured [(dabKfc c.freq, some v)]).dabRssi [(c, v)]

theorem State.dabSearched_frame (s : State) (c : DabCand) (v : Int) : Keeps (areasMask ([.counters, .mode, .engines, .frontEnd,
    .fm, .dab, .openValues, .reg INT_STAT1.w, .reg WAKE_HREASON.w, .reg FES_AF_STAT.w, .reg FES_AF_RSSI.w, .reg FLOOD_STAT.w,
    .reg FLOOD_LFDEV.w, .reg DAB_AF_N.w] ++ (List.range 32).map fun i => Area.reg ⟨0xFA0 + i, 15, 0⟩)) s (s.dabSearched c v) :=
  State.dabRssi_keeps _ _ (State.measured_keeps _ _ .refl (by decide)) (by decide)

theorem State.dabSearched_stays (s : State) (c : DabCand) (v : Int) : RxStays s (s.dabSearched c v) := by
  have h : RxStays s (s.measured [(dabKfc c.freq, some v)]) := by
    rw [State.measured_one]
    have hfresh : RxStays s s.fresh.2 := ⟨rfl, rfl, rfl⟩
    exact hfresh.trans (.afResult _ _ _)
  exact h.trans (.of_keeps (State.dabRssi_keeps _ _ .refl (within?_self _)) (by decide))

theorem State.follows_dabSearched (s : State) (c : DabCand) (v : Int) (byte : Nat) :
    (s.dabSearched c v).follows byte = s.follows byte := by
  have hk := s.dabSearched_frame c v
  have hruns : (s.dabSearched c v).tunerRuns = s.tunerRuns := State.tunerRuns_congr
    (congrArg Sched.running (hk.same (a := .sched) (by decide))) (hk.same (a := .plans) (by decide))
  rw [State.follows, State.follows, hruns]

theorem State.exceeds_dabSearched (s : State) (c : DabCand) (v w : Int) :
    (s.dabSearched c v).exceeds w DAB_AF_CFG.HYST = s.exceeds w DAB_AF_CFG.HYST := by
  have hk := s.dabSearched_frame c v
  have hcfg : (s.dabSearched c v).cfg DAB_AF_CFG.HYST = s.cfg DAB_AF_CFG.HYST := by
    rw [State.cfg, State.cfg, (s.dabSearched_stays c v).cfg]
    split
    · rfl
    · exact hk.get_eq (by decide)
  rw [State.exceeds, State.exceeds, hcfg, hk.get_eq (by decide)]

theorem State.dabSearched_shows (h : s.Tidy) (c : DabCand) (v : Int) : (s.dabSearched c v).dab.turn = s.dab.turn ∧
    (s.dabSearched c v).fm.gap = true ∧ (s.dabSearched c v).bit FES_AF_STAT.VALID = true ∧
    (s.dabSearched c v).get FES_AF_RSSI.w = code16 (clampRssi false v) := by
  obtain ⟨-, hvalid, hrssi⟩ := State.afResult_shows (s := s.fresh.2) h (dabKfc c.freq) (s.fresh.1.toNat % 0x1000) v
  have hfm : _ = ({ s.fm with gap := true } : Fm) :=
    s.fresh.2.fm_afResult (dabKfc c.freq) (some v) (s.fresh.1.toNat % 0x1000)
  have hdab : (s.fresh.2.afResult (dabKfc c.freq) (some v) (s.fresh.1.toNat % 0x1000)).dab = s.dab :=
    ((State.afResult_keeps _ _ _ _ .refl (within?_self _)).dab_eq (by decide)).trans rfl
  unfold State.dabSearched
  rw [State.measured_one]
  generalize s.fresh.2.afResult (dabKfc c.freq) (some v) (s.fresh.1.toNat % 0x1000) = a at *
  have hk := a.dabRssi_keeps [(c, v)] .refl (within?_self _)
  refine ⟨by rw [(a.dabRssi_shows [(c, v)]).1, hdab], by rw [hk.fm_eq (by decide), hfm], ?_, (hk.get_eq (by decide)).trans hrssi⟩
  rw [State.bit, hk.get_eq (by decide), ← State.bit, hvalid]

theorem exec_dabAfSearch {v : Int} {r : Rx} {c : DabCand} (hon : s.onBearer 3 = true) (hrx : s.fe.rx = some r)
    (hrun : r.stopped = false) (hruns : s.followRuns ≠ []) (hconf : s.dab.confirm = none) (haf : s.fe.afHost = none)
    (hbad : s.fibsBad = true) (hcands : s.dabCands = [c]) (hfollows : s.follows 31 = true)
    (hover : s.exceeds (clampRssi false v) DAB_AF_CFG.HYST = true) :
    exec (.dabAfSearch 2 [some v]) s = .next ((s.dabSearched c v).dabTry (dabKfc c.freq) 2) := by
  change execDabAfSearch 2 [some v] s = _
  rw [execDabAfSearch, hrx]
  dsimp only
  rw [if_pos ⟨hon, by simp [hrun], hruns, by simp [hconf], by simp [haf], .inr ⟨rfl, hbad⟩⟩, hcands]
  change Host.Outcome.next (if ¬ (s.dabSearched c v).exceeds (clampRssi false v) DAB_AF_CFG.HYST = true then s.dabSearched c v
    else if (s.dabSearched c v).follows 31 = true then (s.dabSearched c v).dabTry (dabKfc c.freq) 2 else _) = _
  rw [if_neg (not_not_intro ((s.exceeds_dabSearched c v _).trans hover)), if_pos ((s.follows_dabSearched c v 31).trans hfollows)]

/-- The next candidate in turn. -/
def State.dabTurnCounted (s : State) : State := { s with dab := { s.dab with turn := s.dab.turn + 1 } }

theorem exec_dabAfPeriodicCheck {v : Int} {c : DabCand} (hcands : s.dabCands = [c]) (hon : s.onBearer 3 = true)
    (hchecks : s.checks s.dab.confirm.isNone (!s.fibsBad && !s.weak 30 DAB_AF_CFG.SW_DBM) = true) :
    exec (.dabAfPeriodicCheck (some v)) s = .next (s.dabTurnCounted.dabSearched c v) := by
  change execDabAfPeriodicCheck (some v) s = _
  rw [execDabAfPeriodicCheck, hcands]
  dsimp only
  have hturn : [c][s.dab.turn % [c].length]? = some c := by
    rw [List.length_singleton, Nat.mod_one]
    rfl
  rw [hturn]
  dsimp only
  rw [if_pos ⟨hon, hchecks⟩]
  rfl

/-! ### Confirmation, return and recall -/

/-- The confirmation ends, and the status shows whether the reception is off its frequency. -/
def State.dabConfirmed (s : State) (fo : Follow) : State :=
  let again := s.recallPut s.dab.recalled fo.kfc
  let s : State := { s with dab := { s.dab with confirm := none, recalled := again } }
  (s.put DAB_STAT.AF_CONFIRM 0).putBit DAB_STAT.FOLLOWING s.offHome

/-- The candidates shown and the service resolved after a switch. -/
def State.dabSwitched (s : State) (fo : Follow) : State :=
  ((s.dabConfirmed fo).setDabAf (s.dabConfirmed fo).dab.cands).resolve

/-- A switch is told to those who follow. -/
def State.dabSwitchTold (s : State) (fo : Follow) : State :=
  let s := (s.raise1 jAF_SWITCH).inc DAB_AF_CNT_SW.w
  s.followEvent 1 fo.cause fo.home fo.kfc (s.get DAB_EID.w) (s.get FES_RSSI.w)

theorem exec_dabAfSwitch {ms : Nat} {fo : Follow} (hms : ms ≤ 100 * s.cfg DAB_AF_TIME.CONF_DWELL) (h : s.dab.confirm = some fo)
    (hcand : s.candOf fo.kfc = none) (hsync : s.bit DAB_STAT.SYNC = true) (hid : s.bit DAB_STAT.EID_VALID = true)
    (hsid : s.dab.services.any (fun e => e.1 == s.followSid) = true) :
    exec (.dabAfSwitch ms) s = .next (((s.dabSwitched fo).dabSwitchTold fo).startSub) := by
  change execDabAfSwitch ms s = _
  rw [execDabAfSwitch, h]
  dsimp only
  rw [hcand]
  dsimp only
  rw [if_neg Bool.false_ne_true, if_pos hsid, if_pos ⟨hsync, hid, rfl, rfl, hms⟩, if_neg Bool.false_ne_true]
  rfl

theorem State.dabConfirmed_shows (h : s.Tidy) (fo : Follow) : (s.dabConfirmed fo).Tidy ∧
    (s.dabConfirmed fo).dab.confirm = none ∧ (s.dabConfirmed fo).get DAB_STAT.AF_CONFIRM = 0 ∧
    (s.dabConfirmed fo).bit DAB_STAT.FOLLOWING = s.offHome ∧
    (s.dabConfirmed fo).get DAB_AF_CNT_SW.w = s.get DAB_AF_CNT_SW.w := by
  unfold State.dabConfirmed
  extract_lets again src u
  have hu : u.Tidy := h
  have hhome : u.offHome = s.offHome := rfl
  have hcnt : u.get DAB_AF_CNT_SW.w = s.get DAB_AF_CNT_SW.w := rfl
  have hconf : u.dab.confirm = none := rfl
  rw [hhome]
  clear_value u
  have h1 : (u.put DAB_STAT.AF_CONFIRM 0).Tidy := State.tidy_put hu
  refine ⟨State.tidy_put h1, hconf, ?_, ?_, ?_⟩
  · exact (State.get_put_other h1 (by decide) (by decide) (by decide)).trans (State.get_put_self hu (by decide))
  · have hget : ((u.put DAB_STAT.AF_CONFIRM 0).putBit DAB_STAT.FOLLOWING s.offHome).get DAB_STAT.FOLLOWING =
        if s.offHome then 1 else 0 :=
      (State.get_put_self h1 (by decide)).trans (by cases s.offHome <;> rfl)
    rw [State.bit, hget]
    cases s.offHome <;> rfl
  · exact (State.get_put_ne _ _ (by decide)).trans ((State.get_put_ne _ _ (by decide)).trans hcnt)

theorem State.dabSwitched_shows (h : s.Tidy) (fo : Follow) : (s.dabSwitched fo).Tidy ∧
    (s.dabSwitched fo).dab.confirm = none ∧ (s.dabSwitched fo).get DAB_STAT.AF_CONFIRM = 0 ∧
    (s.dabSwitched fo).bit DAB_STAT.FOLLOWING = s.offHome ∧
    (s.dabSwitched fo).get DAB_AF_CNT_SW.w = s.get DAB_AF_CNT_SW.w := by
  obtain ⟨h1, hconf, hbit, hfol, hcnt⟩ := State.dabConfirmed_shows h fo
  unfold State.dabSwitched
  generalize s.dabConfirmed fo = a at *
  have hset := a.setDabAf_keeps a.dab.cands .refl (within?_self _)
  have hres := (a.setDabAf a.dab.cands).resolve_keeps .refl (within?_self _)
  refine ⟨hres.tidy (hset.tidy h1), ?_, ?_, ?_, ?_⟩
  · rw [State.confirm_resolve, State.setDabAf_shows]
    exact hconf
  · exact (hres.get_eq (by decide)).trans ((hset.get_eq (by decide)).trans hbit)
  · rw [State.bit, hres.get_eq (by decide), hset.get_eq (by decide), ← State.bit, hfol]
  · exact (hres.get_eq (by decide)).trans ((hset.get_eq (by decide)).trans hcnt)

theorem State.dabSwitchTold_shows (h : s.Tidy) (fo : Follow) : (s.dabSwitchTold fo).Tidy ∧
    (s.dabSwitchTold fo).fget .f0 INT_STAT1.AF_SWITCH = 1 ∧
    (s.dabSwitchTold fo).get DAB_AF_CNT_SW.w = min 0xFFFF (s.get DAB_AF_CNT_SW.w + 1) ∧
    (s.dabSwitchTold fo).dab = s.dab ∧
    ∀ x : Fld, x.key = DAB_STAT.w.key → (s.dabSwitchTold fo).get x = s.get x := by
  have hraise := s.raise1_keeps jAF_SWITCH .refl (within?_self _)
  have hset : (s.raise1 jAF_SWITCH).fget .f0 INT_STAT1.AF_SWITCH = 1 := State.fget_raise1_same h.canon (by decide)
  have h1 : (s.raise1 jAF_SWITCH).Tidy := hraise.tidy h
  unfold State.dabSwitchTold
  extract_lets a
  have hev := a.followEvent_keeps 1 fo.cause fo.home fo.kfc (a.get DAB_EID.w) (a.get FES_RSSI.w) .refl (within?_self _)
  refine ⟨hev.tidy (State.tidy_inc h1), ?_, ?_, ?_, fun x hkey => ?_⟩
  · exact (hev.fget_eq (by decide)).trans ((State.get_inc_ne _ (by decide)).trans hset)
  · refine (hev.get_eq (by decide)).trans ((State.get_inc_self h1 (by decide)).trans ?_)
    rw [hraise.get_eq (by decide)]
    exact Nat.min_comm _ _
  · exact (hev.dab_eq (by decide)).trans (hraise.dab_eq (by decide))
  · exact (hev.get_eq (by rw [hkey]; decide)).trans ((State.get_inc_ne _ (by rw [hkey]; decide)).trans
      (hraise.get_eq (by rw [hkey]; decide)))

/-- The candidate given up, and the tuner on its way home. -/
def State.dabGoneHome (s : State) (fo : Follow) : State :=
  let s : State := { s with dab := { s.dab with confirm := none } }
  (s.dabRestart.put DAB_STAT.AF_CONFIRM 0).retune fo.home

theorem exec_dabAfReturn {fo : Follow} (h : s.dab.confirm = some fo) : ∃ l cause, exec .dabAfReturn s = .next
    ((((s.dabGoneHome fo).setDabAf l).inc DAB_AF_CNT_RET.w).followEvent 2 cause fo.kfc fo.home fo.eid fo.rssi) := by
  have hexec : exec .dabAfReturn s = execDabAfReturn s := rfl
  rw [execDabAfReturn, h] at hexec
  exact ⟨_, _, hexec⟩

theorem State.dabGoneHome_shows (h : s.Tidy) (fo : Follow) : (s.dabGoneHome fo).Tidy ∧ (s.dabGoneHome fo).dab.confirm = none ∧
    (s.dabGoneHome fo).get DAB_STAT.AF_CONFIRM = 0 ∧ (s.dabGoneHome fo).get DAB_STAT.SYNC = 0 ∧
    (s.dabGoneHome fo).fe.rx.map Rx.kfc = s.fe.rx.map (fun _ => fo.home) ∧
    (s.dabGoneHome fo).get DAB_AF_CNT_RET.w = s.get DAB_AF_CNT_RET.w := by
  unfold State.dabGoneHome
  extract_lets src u
  have hu : u.Tidy := h
  obtain ⟨h1, hsync, -, -, hconf⟩ := State.dabRestart_shows hu
  have hk := u.dabRestart_keeps .refl (within?_self _)
  have hnone : u.dabRestart.dab.confirm = none := hconf.trans rfl
  have hfe : u.dabRestart.fe = s.fe := (hk.fe_eq (by decide)).trans rfl
  have hcnt : u.dabRestart.get DAB_AF_CNT_RET.w = s.get DAB_AF_CNT_RET.w := (hk.get_eq (by decide)).trans rfl
  clear hk hconf
  generalize u.dabRestart = a at *
  have h2 : (a.put DAB_STAT.AF_CONFIRM 0).Tidy := State.tidy_put h1
  have hbit : (a.put DAB_STAT.AF_CONFIRM 0).get DAB_STAT.AF_CONFIRM = 0 := State.get_put_self h1 (by decide)
  have hsync' : (a.put DAB_STAT.AF_CONFIRM 0).get DAB_STAT.SYNC = 0 :=
    (State.get_put_other h1 (by decide) (by decide) (by decide)).trans hsync
  have hcnt' : (a.put DAB_STAT.AF_CONFIRM 0).get DAB_AF_CNT_RET.w = s.get DAB_AF_CNT_RET.w :=
    (State.get_put_ne _ _ (by decide)).trans hcnt
  have hfe' : (a.put DAB_STAT.AF_CONFIRM 0).fe = s.fe := hfe
  have hnone' : (a.put DAB_STAT.AF_CONFIRM 0).dab.confirm = none := hnone
  generalize a.put DAB_STAT.AF_CONFIRM 0 = b at *
  obtain ⟨-, hrx⟩ := State.retune_shows h2 fo.home
  have hk := b.retune_keeps fo.home .refl (within?_self _)
  refine ⟨hk.tidy h2, by rw [hk.dab_eq (by decide), hnone'], (hk.get_eq (by decide)).trans hbit,
    (hk.get_eq (by decide)).trans hsync', ?_, (hk.get_eq (by decide)).trans hcnt'⟩
  rw [hrx, hfe', Option.map_map]
  rfl

theorem exec_dabAfRecall {kfc : Nat} (hon : s.onBearer 3 = true) (hrecall : s.cfg DAB_AF_CTL.RECALL = 1)
    (hrx : s.fe.rx.any (fun r => !r.stopped) = true) (hfollows : s.follows 31 = true) (hsync : s.bit DAB_STAT.SYNC = false)
    (hhome : s.offHome = false) (hconf : s.dab.confirm = none) (htried : s.dab.recallTried = false)
    (hget : s.recallGet s.dab.recalled = some kfc) : exec .dabAfRecall s = .next
      (({ s with dab := { s.dab with recallTried := true } } : State).dabTry kfc 3) := by
  change execDabAfRecall s = _
  rw [execDabAfRecall, if_pos ⟨hon, hrecall, hrx, hfollows, by simp [hsync], by simp [hhome], by simp [hconf], by simp [htried]⟩,
    hget]

/-! ### Measurements -/

/-- The offset of the carrier as the registers show it. -/
def State.freqShown (s : State) (err : Int) (sd : Nat) : State :=
  (({ s with dab := { s.dab with syncAt := s.aon } } : State).put DAB_FERR.w (satCode err)).putSat DAB_FERR_SD.w sd

theorem exec_dabFreqMeasure {err : Int} {sd : Nat} (h : s.bit DAB_STAT.SYNC = true ∧ s.dab.syncAt + 32768 ≤ s.aon) :
    exec (.dabFreqMeasure err sd) s = .next ((s.freqShown err sd).xoMeasure err sd) := congrArg Host.Outcome.next (if_pos h)

theorem State.freqShown_shows (h : s.Tidy) (err : Int) (sd : Nat) : (s.freqShown err sd).get DAB_FERR.w = satCode err ∧
    (s.freqShown err sd).get DAB_FERR_SD.w = min sd 0xFFFF := by
  have h0 (d : Dab) : ({ s with dab := d } : State).Tidy := h
  have h1 := State.tidy_put (h0 { s.dab with syncAt := s.aon }) (x := DAB_FERR.w) (v := satCode err)
  refine ⟨(State.get_put_ne _ _ (by decide)).trans ((State.get_put_self (h0 _) (by decide)).trans
    (Nat.mod_eq_of_lt (satCode_lt err))), (State.get_put_self h1 (by decide)).trans ?_⟩
  exact Nat.mod_eq_of_lt (Nat.lt_of_le_of_lt (Nat.min_le_right _ _) (by decide))

theorem exec_dabPikaTimeout (h : s.onBearer 3 = true) : exec .dabPikaTimeout s = .next ((s.inc DAB_CNT_DSP.w).noteFault) :=
  congrArg Host.Outcome.next (if_pos h)

/-! ### The obligation -/

/-- Settles O23: DAB synchronisation, the FIC, packets, following and measurements. -/
theorem dabCommandsComplete : Obligations.DabCommandsComplete := by
  refine ⟨.intro _ (fun s h => exec_dabSync h) fun s hc _ => ?_,
    .intro _ (fun s h => exec_dabSyncLost h) fun s hc _ => ?_,
    fun at_ bytes => .intro _ (fun s h => exec_dabFib_bad h) fun s hc _ => ?_,
    fun at_ bytes g => .intro _ (fun s ⟨h, hfigs, htype, _⟩ => exec_dabFib_one h hfigs htype) fun s hc ⟨_, _, _, hext⟩ => ?_,
    fun c m r => .intro _ (fun s ⟨hnext, hrx, hsub⟩ => exec_dabReconfiguration hnext hrx hsub)
      fun s _ _ => ⟨rfl, rfl, .of_regs rfl⟩,
    fun bytes r => .intro _ (fun s ⟨hrx, h⟩ => exec_dabPacket_bad hrx h) fun s hc _ => ?_,
    fun bytes r s hc ⟨hrx, hon, haddr, haddrs, hlen, htype, hfl, hused⟩ => ?_,
    fun v r c => .intro _ (fun s ⟨hon, hrx, hrun, hruns, hconf, haf, hbad, hcands, hfollows, hover⟩ =>
      exec_dabAfSearch hon hrx hrun hruns hconf haf hbad hcands hfollows hover) fun s hc ⟨_, hrx, _⟩ => ?_,
    fun ms fo => .intro _ (fun s ⟨hms, h, hcand, hsync, hid, hsid⟩ => exec_dabAfSwitch hms h hcand hsync hid hsid)
      fun s hc _ => ?_,
    fun fo s hc h => ?_,
    fun v c => .intro _ (fun s ⟨hcands, hon, hchecks⟩ => exec_dabAfPeriodicCheck hcands hon hchecks)
      fun s hc _ => State.dabSearched_shows (s := s.dabTurnCounted) hc.tidy c v,
    fun kfc => .intro _ (fun s ⟨hon, hrecall, hrx, hfollows, hsync, hhome, hconf, htried, hget⟩ =>
      exec_dabAfRecall hon hrecall hrx hfollows hsync hhome hconf htried hget) fun s hc _ => ?_,
    fun freq => .intro _ (fun s _ => rfl) fun s _ hban => ?_,
    fun err sd => .intro _ (fun s h => exec_dabFreqMeasure h) fun s hc _ => ?_,
    .intro _ (fun s h => exec_dabPikaTimeout h) fun s hc _ => ?_⟩
  case refine_1 =>
    have h0 (d : Dab) : ({ s with dab := d } : State).Tidy := hc.tidy
    exact ⟨bit_eq_of_get (n := 1) (State.get_put_self (h0 _) (by decide)), .trans (.of_regs rfl) (OnlyRegs.put (by decide) 1)⟩
  case refine_2 =>
    obtain ⟨h1, hsync, hid, -⟩ := State.dabRestart_shows hc.tidy
    have hk := s.dabRestart_keeps .refl (within?_self _)
    refine ⟨bit_eq_of_get (n := 0) ((State.get_inc_ne _ (by decide)).trans hsync),
      bit_eq_of_get (n := 0) ((State.get_inc_ne _ (by decide)).trans hid), (State.get_inc_self h1 (by decide)).trans ?_⟩
    rw [hk.get_eq (by decide)]
    exact Nat.min_comm _ _
  case refine_3 =>
    obtain ⟨h1, hcnt, hbad, hfibs⟩ := State.fibCounted_shows hc.tidy false
    refine ⟨(State.get_inc_ne _ (by decide)).trans hcnt, (State.get_inc_self h1 (by decide)).trans ?_, hfibs⟩
    rw [hbad]
    exact Nat.min_comm _ _
  case refine_4 =>
    obtain ⟨h1, hcnt, hbad, -⟩ := State.fibCounted_shows hc.tidy true
    have hfic := State.ficOk_fibCounted hc.tidy
    generalize s.fibCounted true = u at *
    have hk := u.figMeaning_keeps (min at_ s.ktime) g .refl (within?_self _)
    obtain ⟨h2, hid, hvalid, hfic'⟩ := State.figMeaning_ensemble h1 (at_ := min at_ s.ktime) hext
    have hrest {x : Fld} (hx : x.sound = true) (hkey : x.key = DAB_STAT.w.key ∨ x.key = DAB_EID.w.key ∨
        x.key = DAB_CNT_FIB.w.key ∨ x.key = DAB_CNT_FIB_BAD.w.key) (hapart : DAB_STAT.SUBCH_ON.apart x = true) :=
      State.figRecord_rest_shows h2 (min at_ s.ktime) g hx hkey hapart
    exact ⟨(hrest (by decide) (by decide) (by decide)).trans ((hk.get_eq (by decide)).trans hcnt),
      (hrest (by decide) (by decide) (by decide)).trans ((hk.get_eq (by decide)).trans hbad),
      (hrest (by decide) (by decide) (by decide)).trans hid,
      bit_eq_of_get (n := 1) ((hrest (by decide) (by decide) (by decide)).trans hvalid),
      bit_eq_of_get (n := 1) ((hrest (by decide) (by decide) (by decide)).trans (hfic'.trans hfic))⟩
  case refine_5 =>
    have h1 : (s.inc DAB_CNT_PKT.w).Tidy := State.tidy_inc hc.tidy
    refine ⟨(State.get_inc_ne _ (by decide)).trans ((State.get_inc_self hc.tidy (by decide)).trans (Nat.min_comm _ _)),
      (State.get_inc_self h1 (by decide)).trans ?_⟩
    rw [State.get_inc_ne _ (by decide)]
    exact Nat.min_comm _ _
  case refine_6 =>
    obtain ⟨heard, hexec⟩ := exec_dabPacket_segment hrx ⟨hon, haddr, haddrs⟩ hlen htype hfl hused
    have h1 : (s.inc DAB_CNT_PKT.w).Tidy := State.tidy_inc hc.tidy
    have hk := (s.inc DAB_CNT_PKT.w).segment_keeps (((bytes.drop 3).take 80).map some) heard .refl (within?_self _)
    refine ⟨_, hexec, ?_, ?_, (hk.get_eq (by decide)).trans (State.get_inc_ne _ (by decide))⟩
    · exact (hk.get_eq (by decide)).trans ((State.get_inc_self hc.tidy (by decide)).trans (Nat.min_comm _ _))
    · rw [State.get_segment h1, State.get_inc_ne _ (by decide)]
  case refine_7 =>
    have ht : (s.dabSearched c v).Tidy := (s.dabSearched_frame c v).tidy hc.tidy
    obtain ⟨hconf, hbit, hsync, hkfc, hjob, -⟩ := State.dabTry_shows ht (dabKfc c.freq) 2
    exact ⟨hconf, hbit, hsync, by rw [hkfc, (s.dabSearched_stays c v).rx, hrx]; rfl, hjob⟩
  case refine_8 =>
    obtain ⟨h1, hconf, hbit, hfol, hcnt⟩ := State.dabSwitched_shows hc.tidy fo
    generalize s.dabSwitched fo = u at *
    obtain ⟨h2, hset, hcnt', hdab, hstat⟩ := State.dabSwitchTold_shows h1 fo
    generalize u.dabSwitchTold fo = v at *
    obtain ⟨hconf', hstat'⟩ := State.startSub_shows h2
    have hk := v.startSub_keeps .refl (within?_self _)
    refine ⟨by rw [hconf', hdab, hconf], ?_, ?_, (hk.fget_eq (by decide)).trans hset, ?_⟩
    · exact bit_eq_of_get (n := 0) ((hstat' DAB_STAT.AF_CONFIRM (by decide) rfl (by decide)).trans
        ((hstat DAB_STAT.AF_CONFIRM rfl).trans hbit))
    · rw [← hfol, State.bit, State.bit, hstat' DAB_STAT.FOLLOWING (by decide) rfl (by decide), hstat DAB_STAT.FOLLOWING rfl]
    · rw [hk.get_eq (by decide), hcnt', hcnt]
  case refine_9 =>
    obtain ⟨l, cause, hexec⟩ := exec_dabAfReturn h
    obtain ⟨h1, hnone, hconf, hsync, hrx, hcnt⟩ := State.dabGoneHome_shows hc.tidy fo
    generalize s.dabGoneHome fo = u at *
    have hset := u.setDabAf_keeps l .refl (within?_self _)
    have hev := ((u.setDabAf l).inc DAB_AF_CNT_RET.w).followEvent_keeps 2 cause fo.kfc fo.home fo.eid fo.rssi .refl
      (within?_self _)
    have hget {x : Fld} (hne : x.key ≠ DAB_AF_CNT_RET.w.key) (hx : (u.setDabAf l).get x = u.get x) :
        ((u.setDabAf l).inc DAB_AF_CNT_RET.w).get x = u.get x := (State.get_inc_ne _ hne).trans hx
    refine ⟨_, hexec, ?_, ?_, ?_, ?_, ?_⟩
    · rw [hev.dab_eq (by decide), State.dab_inc, State.setDabAf_shows]
      exact hnone
    · exact bit_eq_of_get (n := 0) ((hev.get_eq (by decide)).trans ((hget (by decide) (hset.get_eq (by decide))).trans hconf))
    · exact bit_eq_of_get (n := 0) ((hev.get_eq (by decide)).trans ((hget (by decide) (hset.get_eq (by decide))).trans hsync))
    · rw [hev.fe_eq (by decide), State.fe_inc, hset.fe_eq (by decide), hrx]
    · refine (hev.get_eq (by decide)).trans ((State.get_inc_self (hset.tidy h1) (by decide)).trans ?_)
      rw [hset.get_eq (by decide), hcnt]
      exact Nat.min_comm _ _
  case refine_10 =>
    obtain ⟨hconf, hbit, -, -, -, htried⟩ := State.dabTry_shows
      (s := { s with dab := { s.dab with recallTried := true } }) hc.tidy kfc 3
    exact ⟨htried, hconf, hbit⟩
  case refine_11 =>
    intro c hmem hfreq
    rw [State.setDabAf_shows] at hmem
    obtain ⟨c0, hc0, rfl⟩ := List.mem_map.mp hmem
    by_cases hban0 : c0.freq = freq ∧ c0.banEnd ≤ s.sec
    · rw [if_pos hban0]
    · rw [if_neg hban0] at hfreq ⊢
      exact absurd ⟨hfreq, hban c0 hc0 hfreq⟩ hban0
  case refine_12 =>
    obtain ⟨herr, hsd⟩ := State.freqShown_shows hc.tidy err sd
    have hk := (s.freqShown err sd).xoMeasure_keeps err sd .refl (within?_self _)
    exact ⟨(hk.get_eq (by decide)).trans herr, (hk.get_eq (by decide)).trans hsd, State.xoMeas_xoMeasure _ err sd⟩
  case refine_13 =>
    exact (State.get_of_regs rfl).trans ((State.get_inc_self hc.tidy (by decide)).trans (Nat.min_comm _ _))

end Sys2Proof.Machine
end

section
/-! PROOFS. The objects of the Hoard (O26). -/

namespace Sys2Proof.Machine

open R

variable {s t u : State} {f g : Fn} {o o' : Obj}

/-! ### What the Hoard's operations leave of it -/

theorem Keeps.edf_eq {m : Nat} (h : Keeps m s t) (hm : m.testBit (Area.bit .datacast) = false) : t.edf = s.edf :=
  h.same (a := .datacast) hm

theorem State.edf_showEdf (s : State) : s.showEdf.edf = s.edf := (s.showEdf_keeps .refl (within?_self _)).edf_eq (by decide)

/-- The object of the same stream and id is replaced. -/
def Obj.replacing (o x : Obj) : Obj := if x.stream = o.stream ∧ x.id = o.id then o else x

theorem State.edf_setObj (s : State) (o : Obj) : (s.setObj o).edf = { s.edf with objs := s.edf.objs.map o.replacing } := by
  rw [State.setObj, State.edf_showEdf]
  rfl

theorem State.objs_setObj (s : State) (o : Obj) : (s.setObj o).edf.objs = s.edf.objs.map o.replacing := by
  rw [State.edf_setObj]

theorem Obj.replacing_self (o : Obj) (h : o'.stream = o.stream ∧ o'.id = o.id) : o'.replacing o = o' := if_pos ⟨h.1.symm, h.2.symm⟩

theorem State.find_obj {st ob : Nat} (h : s.obj st ob = some o) : o.stream = st ∧ o.id = ob := by
  have hfind := List.find?_some h
  simpa using hfind

/-- The replaced object is found in the other's place. -/
theorem State.obj_setObj {st ob : Nat} (h : s.obj st ob = some o) (hsame : o'.stream = o.stream ∧ o'.id = o.id) :
    (s.setObj o').obj st ob = some o' := by
  obtain ⟨hst, hob⟩ := State.find_obj h
  have hst' : o'.stream = st := hsame.1.trans hst
  have hob' : o'.id = ob := hsame.2.trans hob
  rw [State.obj, State.objs_setObj]
  unfold State.obj at h
  generalize s.edf.objs = l at h
  induction l with
  | nil => cases h
  | cons x l ih =>
    rw [List.map_cons]
    by_cases hx : x.stream = st ∧ x.id = ob
    · have hrep : o'.replacing x = o' := o'.replacing_self (o := x) ⟨hst'.trans hx.1.symm, hob'.trans hx.2.symm⟩
      rw [hrep, List.find?_cons_of_pos (by simp [hst', hob'])]
    · have hrep : o'.replacing x = x := if_neg (by rw [hst', hob']; exact hx)
      rw [List.find?_cons_of_neg (by simpa using hx)] at h
      rw [hrep, List.find?_cons_of_neg (by simpa using hx)]
      exact ih h

theorem State.edf_removeObj (s : State) (o : Obj) (toDone : Bool) : (s.removeObj o toDone).edf.objs =
    s.edf.objs.filter (fun x => !(x.stream == o.stream && x.id == o.id)) := by
  rw [State.removeObj]
  dsimp only
  rw [State.edf_showEdf]
  cases toDone <;> rfl

theorem State.obj_removeObj {st ob : Nat} (h : s.obj st ob = some o) (toDone : Bool) : (s.removeObj o toDone).obj st ob = none := by
  obtain ⟨hst, hob⟩ := State.find_obj h
  rw [State.obj, State.edf_removeObj, List.find?_eq_none]
  intro x hx
  have hx' := (List.mem_filter.mp hx).2
  rw [hst, hob] at hx'
  exact fun hsame => by simp [hsame] at hx'

theorem State.mem_done_removeObj (s : State) (o : Obj) : (o.stream, o.id, s.sec) ∈ (s.removeObj o true).edf.done := by
  rw [State.removeObj]
  dsimp only
  rw [State.edf_showEdf, if_pos rfl, State.addDone]
  dsimp only
  split
  · next hlen =>
    cases hdone : s.edf.done with
    | nil => simp [hdone] at hlen
    | cons e l => exact List.mem_append_right l (List.mem_singleton.mpr rfl)
  · exact List.mem_append_right s.edf.done (List.mem_singleton.mpr rfl)

theorem State.objs_stat (s : State) (stream : Nat) (g : SegStat → SegStat) : (s.stat stream g).edf.objs = s.edf.objs := rfl

theorem State.objs_chargeF0 (s : State) : s.chargeF0.edf = s.edf :=
  (s.chargeF0_keeps .refl (within?_self _)).edf_eq (by decide)

/-! ### Objects without a first block have no store to write -/

/-- A block replaced by one of the same number leaves the numbers. -/
theorem find_replaced_block {l : List Blk} {b b' : Blk} (hno : b'.no = b.no) (n : Nat) (h : l.find? (fun x => x.no == n) = none) :
    (l.map (fun x => if x.no = b.no then b' else x)).find? (fun x => x.no == n) = none := by
  rw [List.find?_eq_none] at h ⊢
  intro x hx
  obtain ⟨y, hy, rfl⟩ := List.mem_map.mp hx
  have hyn := h y hy
  split
  · next hyb => rw [hno, ← hyb]; exact hyn
  · exact hyn

theorem State.place_waiting (h : o.blks.find? (fun b => b.no == 0) = none) : s.place o = s.setObj o := by
  rw [State.place, h]

/-- The block as a decode leaves it. -/
def Obj.decoded (o : Obj) (b : Blk) : Obj :=
  { o with blks := o.blks.map (fun x => if x.no = b.no then { b with complete := true, retryAt := 0 } else x) }

theorem State.blockDone_shows {st ob blk : Nat} {b : Blk} {pikaOk : Bool} (h : s.obj st ob = some o)
    (hb : o.blks.find? (fun x => x.no == blk) = some b) (hopen : b.complete = false) (hk : b.k ≤ b.segs.length)
    (hhow : b.systematic = true ∨ (pikaOk = true ∧ s.pikaServes = true)) (hfirst : o.blks.find? (fun x => x.no == 0) = none) :
    (s.blockDone st ob blk pikaOk).obj st ob = some { o with blks := o.blks.map (fun x =>
      if x.no = blk then { b with complete := true, retryAt := 0 } else x) } := by
  have hno : b.no = blk := by simpa using List.find?_some hb
  rw [State.blockDone, h]
  dsimp only
  rw [hb]
  dsimp only
  rw [if_neg (by simp [hopen, hk]), if_pos hhow, State.place_waiting]
  · exact State.obj_setObj (s := s.stat st _) (o := o) h ⟨rfl, rfl⟩
  · rw [← hno]
    exact find_replaced_block (b' := { b with complete := true, retryAt := 0 }) rfl 0 hfirst

/-! ### Waiting segments go to flash -/

/-- A waiting segment takes the next place of the sector being filled. -/
theorem State.nextSector_filling {n k : Nat} (h : s.edf.fill = some (n, k)) (hk : k < 52) :
    s.nextSector = (some n, { s with edf := { s.edf with fill := some (n, k + 1) } }) := by
  rw [State.nextSector, h]
  exact if_pos hk

theorem State.flushBlks_one {b : Blk} {g : Seg} {n k : Nat} (hb : b.segs = [g]) (hg : g.sector = none)
    (h : s.edf.fill = some (n, k)) (hk : k < 52) : s.flushBlks [b] =
      ([{ b with segs := [{ g with sector := some n }] }], { s with edf := { s.edf with fill := some (n, k + 1) } }) := by
  rw [State.flushBlks, hb, State.flushSegs, hg]
  dsimp only [Option.isNone]
  rw [if_pos rfl, State.nextSector_filling h hk]
  rfl

/-- One object's waiting segments go to flash. -/
def State.flushObj (s : State) (o : Obj) : State := (s.flushBlks o.blks).2.setObj { o with blks := (s.flushBlks o.blks).1 }

theorem State.hoardFlush_eq (s : State) : s.hoardFlush = (s.edf.objs.foldl State.flushObj s).showEdf := rfl

theorem State.hoardFlush_one {b : Blk} {g : Seg} {n k : Nat} (ho : s.edf.objs = [o]) (hblks : o.blks = [b]) (hb : b.segs = [g])
    (hg : g.sector = none) (h : s.edf.fill = some (n, k)) (hk : k < 52) :
    s.hoardFlush.edf.objs = [{ o with blks := [{ b with segs := [{ g with sector := some n }] }] }] ∧
    s.hoardFlush.edf.fill = some (n, k + 1) := by
  rw [State.hoardFlush_eq, ho, State.edf_showEdf]
  change (s.flushObj o).edf.objs = _ ∧ (s.flushObj o).edf.fill = _
  rw [State.flushObj, hblks, State.flushBlks_one hb hg h hk, State.edf_setObj]
  refine ⟨?_, rfl⟩
  change s.edf.objs.map _ = _
  rw [ho]
  exact congrArg (fun x => [x]) (Obj.replacing_self o ⟨rfl, rfl⟩)

/-- What the datacast page shows beside EDF_STAT. -/
def edfShown : List Area := [.reg EDF_AREA_KIB.w, .reg EDF_USED_KIB.w, .reg EDF_OBJ_COLL.w, .reg EDF_OBJ_HELD.w,
  .reg EDF_WEAR_MAX.w, .reg EDF_WEAR_MIN.w, .reg EDF_VAN_N.w, .reg EDF_VAN_NEXT_L.w, .reg EDF_VAN_NEXT_H.w,
  .reg EDF_VAN_DUR.w, .reg (EDF_USE_F.w 0), .reg (EDF_USE_F.w 1), .reg (EDF_USE_F.w 2), .reg (EDF_USE_F.w 3)]

theorem State.showEdf_after_pend (s : State) :
    Keeps (areasMask edfShown) (s.putBit EDF_STAT.FLUSH_PEND (decide (0 < s.waitingSegs))) s.showEdf := by
  unfold State.showEdf
  extract_lets o n a b c use d e f g h v k
  have hb : Keeps (areasMask edfShown) a c :=
    State.putSat_keeps _ _ _ (State.putSat_keeps _ _ _ .refl (by decide)) (by decide)
  have huse (x : Fn) {a' : State} (ha' : Keeps (areasMask edfShown) a a') : Keeps (areasMask edfShown) a (use x a') :=
    State.putSat_keeps _ _ _ ha' (by cases x <;> decide)
  have hd := huse .f3 (huse .f2 (huse .f1 (huse .f0 hb)))
  exact State.put_keeps _ _ _ (State.put32_keeps _ _ _ (State.put_keeps _ _ _ (State.putSat_keeps _ _ _
    (State.putSat_keeps _ _ _ (State.putSat_keeps _ _ _ (State.putSat_keeps _ _ _ hd (by decide)) (by decide)) (by decide))
    (by decide)) (by decide)) (by decide) (by decide)) (by decide)

/-- Whether segments wait for flash, as the register shows it. -/
theorem State.flushPend_showEdf (h : s.Tidy) : s.showEdf.bit EDF_STAT.FLUSH_PEND = decide (0 < s.waitingSegs) := by
  rw [State.bit, s.showEdf_after_pend.get_eq (by decide), State.putBit, State.get_put_self h (by decide)]
  by_cases hw : 0 < s.waitingSegs
  · rw [decide_eq_true hw]
    rfl
  · rw [decide_eq_false hw]
    rfl

end Sys2Proof.Machine
end

section
/-! PROOFS. Compaction, acceptance and expiry in the Hoard (O26). -/

namespace Sys2Proof.Machine

open R

variable {s t u : State} {f g : Fn} {o o' : Obj}

/-! ### Flushing leaves which objects are held, and their states -/

theorem State.objs_nextSector (s : State) : s.nextSector.2.edf.objs = s.edf.objs := by
  have hfree (a : State) : (State.nextSector.fromFree a).2.edf.objs = a.edf.objs := by
    unfold State.nextSector.fromFree
    dsimp only
    split
    · next n u heq =>
      obtain ⟨-, rfl⟩ := Prod.mk.inj heq
      rfl
    · next u heq =>
      obtain ⟨-, rfl⟩ := Prod.mk.inj heq
      rfl
  unfold State.nextSector
  split
  · split
    · rfl
    · exact hfree s
  · exact hfree s

theorem State.objs_flushSegs (s : State) (l : List Seg) : (s.flushSegs l).2.edf.objs = s.edf.objs := by
  induction l generalizing s with
  | nil => rfl
  | cons t l ih =>
    rw [State.flushSegs]
    by_cases h : t.sector.isNone = true
    · rw [if_pos h]
      exact (ih _).trans (State.objs_nextSector s)
    · rw [if_neg h]
      exact ih _

theorem State.objs_flushBlks (s : State) (l : List Blk) : (s.flushBlks l).2.edf.objs = s.edf.objs := by
  induction l generalizing s with
  | nil => rfl
  | cons b l ih => exact (ih _).trans (State.objs_flushSegs s b.segs)

theorem State.flushObj_frame (s : State) (o : Obj) :
    Keeps (areasMask ([.datacast, .openValues, .reg EDF_STAT.w] ++ edfShown)) s (s.flushObj o) :=
  State.setObj_keeps _ _ (State.flushBlks_snd s o.blks .refl (by decide)) (by decide)

theorem State.tidy_flushObjs (h : s.Tidy) (l : List Obj) : (l.foldl State.flushObj s).Tidy :=
  (Keeps.foldl State.flushObj_frame (l := l) (.refl (s := s))).tidy h

/-- The objects have these ids, in this order, and none is being collected. -/
structure Stored (ids : List Nat) (s : State) : Prop where
  ids : s.edf.objs.map Obj.id = ids
  held : ∀ o ∈ s.edf.objs, o.state ≠ 1

namespace Stored

variable {ids : List Nat}

theorem of_objs (h : Stored ids s) (heq : t.edf.objs = s.edf.objs) : Stored ids t :=
  ⟨by rw [heq, h.ids], by rw [heq]; exact h.held⟩

theorem setObj (h : Stored ids s) (ho : o.state ≠ 1) : Stored ids (s.setObj o) := by
  constructor
  · rw [State.objs_setObj, List.map_map, ← h.ids]
    refine List.map_congr_left fun x _ => ?_
    by_cases hx : x.stream = o.stream ∧ x.id = o.id
    · rw [Function.comp_apply, Obj.replacing, if_pos hx, hx.2]
    · rw [Function.comp_apply, Obj.replacing, if_neg hx]
  · intro x hx
    rw [State.objs_setObj] at hx
    obtain ⟨y, hy, rfl⟩ := List.mem_map.mp hx
    rw [Obj.replacing]
    split
    · exact ho
    · exact h.held y hy

theorem flushObj (h : Stored ids s) (ho : o.state ≠ 1) : Stored ids (s.flushObj o) :=
  (h.of_objs (s.objs_flushBlks o.blks)).setObj ho

theorem hoardFlush (h : Stored ids s) : Stored ids s.hoardFlush := by
  have hfold (l : List Obj) (hl : ∀ o ∈ l, o.state ≠ 1) (a : State) (ha : Stored ids a) : Stored ids (l.foldl State.flushObj a) := by
    induction l generalizing a with
    | nil => exact ha
    | cons o l ih =>
      exact ih (fun x hx => hl x (List.mem_cons_of_mem o hx)) _ (ha.flushObj (hl o List.mem_cons_self))
  rw [State.hoardFlush_eq]
  exact (hfold s.edf.objs h.held s h).of_objs (by rw [State.edf_showEdf])

/-- A change of the objects that leaves id and state. -/
theorem map (h : Stored ids s) (p : Obj → Obj) (hp : ∀ o, (p o).id = o.id ∧ (p o).state = o.state)
    (heq : t.edf.objs = s.edf.objs.map p) : Stored ids t := by
  constructor
  · rw [heq, List.map_map, ← h.ids]
    exact List.map_congr_left fun o _ => (hp o).1
  · intro x hx
    rw [heq] at hx
    obtain ⟨y, hy, rfl⟩ := List.mem_map.mp hx
    rw [(hp y).2]
    exact h.held y hy

theorem moveRecords (h : Stored ids s) (p : Nat → Bool) : Stored ids (s.moveRecords p) := by
  unfold State.moveRecords
  extract_lets lift stay s0 src u moved back src2
  have hu : Stored ids u := h.map (fun o => { o with blks := o.blks.map (fun b => { b with segs := b.segs.map lift }) })
    (fun _ => ⟨rfl, rfl⟩) rfl
  refine hu.hoardFlush.map back (fun o => ?_) (by rw [State.edf_showEdf])
  unfold back
  split
  · exact ⟨rfl, rfl⟩
  · exact ⟨rfl, rfl⟩

end Stored

/-! ### Compaction -/

/-- The records moved and the call for it answered. -/
def State.compacted (s : State) : State := (s.moveRecords (fun _ => true)).chargeF0.putBit EDF_STAT.COMPACT false

theorem exec_hoardCompact (h : s.bit EDF_STAT.COMPACT = true) (hheld : ∀ o ∈ s.edf.objs, o.state ≠ 1) :
    exec .hoardCompact s = .next s.compacted.showMaintain := by
  have hst : Stored (s.edf.objs.map Obj.id) (s.moveRecords (fun _ => true)) :=
    Stored.moveRecords ⟨rfl, hheld⟩ _
  have hst' : Stored (s.edf.objs.map Obj.id) (s.moveRecords (fun _ => true)).chargeF0 :=
    hst.of_objs (congrArg Edf.objs (State.objs_chargeF0 _))
  have hfold (l : List Obj) (hl : ∀ o ∈ l, o.state ≠ 1) (a : State) : l.foldl (fun s o =>
      if o.state = 1 ∧ o.blks.any (fun b => b.complete && b.segs ≠ []) then s.place o else s) a = a := by
    induction l with
    | nil => rfl
    | cons o l ih =>
      rw [List.foldl_cons, if_neg fun hc => hl o List.mem_cons_self hc.1]
      exact ih (fun x hx => hl x (List.mem_cons_of_mem o hx))
  change execHoardCompact s = _
  rw [execHoardCompact, if_pos h]
  dsimp only
  rw [hfold _ hst'.held]
  rfl

theorem State.compacted_shows (h : s.Tidy) (hheld : ∀ o ∈ s.edf.objs, o.state ≠ 1) :
    s.compacted.get EDF_STAT.COMPACT = 0 ∧ s.compacted.edf.objs.map Obj.id = s.edf.objs.map Obj.id := by
  have hst : Stored (s.edf.objs.map Obj.id) (s.moveRecords (fun _ => true)) := Stored.moveRecords ⟨rfl, hheld⟩ _
  have ht : (s.moveRecords (fun _ => true)).chargeF0.Tidy :=
    (State.chargeF0_keeps _ .refl (within?_self _)).tidy ((State.moveRecords_keeps _ _ .refl (within?_self _)).tidy h)
  have hedf := (s.moveRecords (fun _ => true)).objs_chargeF0
  unfold State.compacted
  generalize (s.moveRecords (fun _ => true)).chargeF0 = a at *
  refine ⟨State.get_put_self ht (by decide), ?_⟩
  change a.edf.objs.map Obj.id = _
  rw [hedf, hst.ids]

/-! ### The charge of a wear-levelling move -/

theorem State.dayE_chargeF0 (s : State) : (s.chargeF0.eng .f0).dayE = (s.eng .f0).dayE + (Config.freeWord s.freeCtr).toNat := by
  have h := s.fresh.2.eng_charge .f0 .f0 s.fresh.1.toNat 0
  rw [if_pos rfl] at h
  rw [State.chargeF0, State.chargeOpen]
  change ((s.fresh.2.charge .f0 s.fresh.1.toNat 0).eng .f0).dayE = _
  rw [h]
  rfl

/-! ### Acceptance -/

/-- The result of an acceptance in the registers and the counts of its stream. -/
def State.resultNoted (s : State) (o : Obj) (res : Nat) : State :=
  let s := ((s.put EDF_LAST_RES.w res).put EDF_LAST_STREAM.w o.stream).put EDF_LAST_OBJ.w o.id
  s.stat o.stream (fun x => if res = 0 then { x with accepted := x.accepted + 1 } else { x with rejected := x.rejected + 1 })

theorem State.resultNoted_shows (h : s.Tidy) (o : Obj) {res : Nat} (hres : res < 0x10000) : (s.resultNoted o res).Tidy ∧
    (s.resultNoted o res).get EDF_LAST_RES.w = res ∧ (s.resultNoted o res).get EDF_LAST_OBJ.w = o.id % 0x10000 ∧
    (s.resultNoted o res).get EDF_CNT_REJ.w = s.get EDF_CNT_REJ.w ∧ (s.resultNoted o res).edf.objs = s.edf.objs := by
  have h1 : (s.put EDF_LAST_RES.w res).Tidy := State.tidy_put h
  have h2 : ((s.put EDF_LAST_RES.w res).put EDF_LAST_STREAM.w o.stream).Tidy := State.tidy_put h1
  have hk := (((s.put EDF_LAST_RES.w res).put EDF_LAST_STREAM.w o.stream).put EDF_LAST_OBJ.w o.id).stat_keeps o.stream
    (fun x => if res = 0 then { x with accepted := x.accepted + 1 } else { x with rejected := x.rejected + 1 }) .refl (within?_self _)
  refine ⟨hk.tidy (State.tidy_put h2), ?_, ?_, ?_, rfl⟩
  · refine (hk.get_eq (by decide)).trans ?_
    rw [State.get_put_ne _ _ (by decide), State.get_put_ne _ _ (by decide), State.get_put_self h (by decide)]
    exact Nat.mod_eq_of_lt hres
  · exact (hk.get_eq (by decide)).trans (State.get_put_self h2 (by decide))
  · refine (hk.get_eq (by decide)).trans ?_
    rw [State.get_put_ne _ _ (by decide), State.get_put_ne _ _ (by decide), State.get_put_ne _ _ (by decide)]


/-- An image accepted is held for F0 alone. -/
def State.imageHeld (s : State) (o : Obj) (d : List Byte) : Obj :=
  { o with
    state := 2, grown := s.sec, claims := [.f0], delivered := true, expiry := (objHead d).expiry
    store := o.store.map (fun e => (e.1, min e.2 ((160 + (objHead d).len + (objHead d).mac + 4095) / 4096))) }

theorem exec_objectAcceptance {st ob : Nat} (h : s.obj st ob = some o) (hready : o.state = 1 ∧ o.ready = true) :
    exec (.objectAcceptance st ob) s = .next (s.applyResult o (s.objBytes o) (s.check (s.objBytes o) o.type false)) := by
  change execObjectAcceptance st ob s = _
  rw [execObjectAcceptance, h]
  exact congrArg Host.Outcome.next (if_pos hready)

theorem State.applyResult_image {d : List Byte} (htype : (objHead d).type = 4) : ∃ stream id addr, s.applyResult o d 0 =
    ((s.resultNoted o 0).setObj (s.imageHeld o d)).deliverObj (objHead d) stream id addr false [.f0] := by
  have hconsume : (s.resultNoted o 0).consume (objHead d) = s.resultNoted o 0 := by
    rw [State.consume, htype]
    rfl
  have heligible : (s.resultNoted o 0).eligible o (objHead d) = [.f0] := if_pos (by rw [htype])
  have heq : s.applyResult o d 0 = (let s := (s.resultNoted o 0).consume (objHead d)
      let fns := s.eligible o (objHead d)
      let keep := (160 + (objHead d).len + (objHead d).mac + 4095) / 4096
      let store := o.store.map (fun e => (e.1, min e.2 keep))
      let o := { o with state := 2, grown := s.sec, claims := fns, delivered := fns ≠ [], expiry := (objHead d).expiry, store := store }
      (s.setObj o).deliverObj (objHead d) (BitVec.ofNat 16 o.stream) (BitVec.ofNat 16 o.id)
        (flashAddr ((store.map Prod.fst).getD 0) + 32) false fns) := rfl
  rw [heq, hconsume]
  dsimp only
  rw [heligible]
  exact ⟨_, _, _, rfl⟩

/-- A bad signature rejects the object, which leaves. -/
theorem State.applyResult_unsigned (d : List Byte) : s.applyResult o d 5 =
    ((s.resultNoted o 5).inc EDF_CNT_REJ.w).removeObj o false := rfl

/-! ### What each command does -/

theorem exec_rdsSegmentTimeout {n t0 : Nat} {l : List (Option Byte)} (h : s.edf.asm = some (n, l, t0)) (hlate : t0 + 30 ≤ s.sec) :
    exec .rdsSegmentTimeout s = .next { (s.inc EDF_CNT_SEG.w).badSegment l with
      edf := { ((s.inc EDF_CNT_SEG.w).badSegment l).edf with asm := none } } := by
  change execRdsSegmentTimeout s = _
  rw [execRdsSegmentTimeout, h]
  dsimp only
  rw [if_pos hlate, State.abandonSegment, h]

theorem State.badSegment_shows (h : s.Tidy) (l : List (Option Byte)) :
    (s.badSegment l).get EDF_CNT_BAD.w = min 0xFFFF (s.get EDF_CNT_BAD.w + 1) ∧ OnlyRegs [EDF_CNT_BAD.w] s (s.badSegment l) := by
  have hcnt : (s.inc EDF_CNT_BAD.w).get EDF_CNT_BAD.w = min 0xFFFF (s.get EDF_CNT_BAD.w + 1) :=
    (State.get_inc_self h (by decide)).trans (Nat.min_comm _ _)
  unfold State.badSegment
  extract_lets a
  split
  · exact ⟨hcnt, (OnlyRegs.put (by decide) _).trans (.of_regs rfl)⟩
  · exact ⟨hcnt, OnlyRegs.put (by decide) _⟩

theorem exec_decodeRetry {st ob blk : Nat} {b : Blk} (h : s.obj st ob = some o) (hb : o.blks.find? (fun x => x.no == blk) = some b)
    (hdue : b.retryAt ≠ 0 ∧ b.retryAt ≤ s.edf.rxEnds) : exec (.decodeRetry st ob blk true) s =
      .next (s.blockDone st ob blk true) := by
  change execDecodeRetry st ob blk true s = _
  rw [execDecodeRetry, h, Option.bind_some, hb]
  exact congrArg Host.Outcome.next (if_pos hdue)

theorem exec_hoardFlush (h : s.fe.rx = none ∧ s.flashBusy = false) : exec .hoardFlush s = .next s.hoardFlush :=
  congrArg Host.Outcome.next (if_pos ⟨.inr h.1, by simp [h.2]⟩)

def edfCmdDef : RegDef := ⟨4761, 0, 0, 0, 65287, 0⟩

theorem regDef_edfCmd : regDef? EDF_CMD.w.key = some edfCmdDef := by decide

theorem legalWord_edfCmd (f : Fn) (w : Word) : legalWord f EDF_CMD.w.key w = true := by
  rw [legalWord_of_unranged (by decide), extraLegal]
  simp (decide := true) only [if_false]

theorem exec_edfFlush (h : Serves s f (keyPage EDF_CMD.w.key)) : exec (.edfFlush f) s = .next
    (s.regAccess.errAfter ((s.regAccess.setErr f 0).hoardFlush) f) := by
  have hwrite : s.cmdWrite f EDF_CMD.w 1 = s.regAccess.woBits f 1 [(0, State.hoardFlush), (1, State.vanClr), (2, fun s =>
      if f ≠ .f0 then s.setErr f eGRANT else if (1 : Word).toNat / 0x100 = 0x96 then s.edfErase f else s.setErr f eBADARG)] := by
    rw [State.cmdWrite_page_legal regDef_edfCmd (by decide) (by decide) rfl (by decide) (legalWord_edfCmd f 1) h]
    rfl
  rw [show exec (.edfFlush f) s = .next (s.cmdWrite f EDF_CMD.w 1) from rfl, hwrite,
    State.woBits_single (b := 0) (act := State.hoardFlush) (by simp)]

theorem exec_objectExpiry {st ob : Nat} (h : s.obj st ob = some o) (hstate : o.state = 2) (hexp : s.expired o = true)
    (hfree : s.staged o = false) : exec (.objectExpiry st ob) s = .next (s.removeObj o true) := by
  change execObjectExpiry st ob s = _
  rw [execObjectExpiry, h]
  dsimp only
  rw [if_pos (.inl ⟨hstate, .inl hexp⟩), State.leaveHoard, hfree, if_neg Bool.false_ne_true, hstate]
  rfl

/-- The move of a wear-levelling charges F0, and nothing after counts again. -/
theorem exec_wearLevelMove (h : 2000 < ((List.range s.sectors).map s.wearOf).foldl max 0 -
    ((List.range s.sectors).map s.wearOf).foldl min (((List.range s.sectors).map s.wearOf).headD 0)) :
    ∃ t, exec .wearLevelMove s = .next t ∧ Keeps (areasMask ([.memory, .datacast, .openValues, .reg EDF_STAT.w] ++ edfShown))
      s.chargeF0 t := by
  refine ⟨_, congrArg Host.Outcome.next (if_pos h), ?_⟩
  generalize s.chargeF0 = a
  dsimp only
  split
  · next n u hpick =>
    have hu : Keeps (areasMask ([.memory, .datacast, .openValues, .reg EDF_STAT.w] ++ edfShown)) a u :=
      State.pick_out hpick .refl (by decide)
    split
    · next o _ =>
      split
      · next off k _ =>
        split
        · next n' v hpick' =>
          have hv := State.pick_out hpick' hu (by decide)
          exact State.setObj_keeps _ _ (State.setBytes_keeps _ _ _ (Keeps.foldl
            (fun b i => b.eraseSector_keeps (n' + i) .refl (by decide)) hv) (by decide)) (by decide)
        · next v hpick' => exact State.pick_out hpick' hu (by decide)
      · exact hu
    · exact State.moveRecords_keeps _ _ hu (by decide)
  · next u hpick => exact State.pick_out hpick .refl (by decide)

/-! ### The obligation -/

/-- Settles O26: blocks, flushing, compaction, acceptance and expiry in the Hoard. -/
theorem hoardCommandsComplete : Obligations.HoardCommandsComplete := by
  refine ⟨fun n t0 l => .intro _ (fun s ⟨h, hlate⟩ => exec_rdsSegmentTimeout h hlate) fun s hc _ => ?_,
    fun st_ ob blk pikaOk o b => .intro _ (fun s _ => rfl) fun s _ ⟨h, hb, hopen, hk, hsys, hfirst⟩ =>
      State.blockDone_shows h hb hopen hk (.inl hsys) hfirst,
    fun st_ ob blk o b => .intro _ (fun s ⟨h, hb, hret, hdue, _⟩ => exec_decodeRetry h hb ⟨hret, hdue⟩)
      fun s _ ⟨h, hb, _, _, hopen, hk, hpika, hfirst⟩ => State.blockDone_shows h hb hopen hk (.inr ⟨rfl, hpika⟩) hfirst,
    fun st_ ob o s hc ⟨h, hstate, hready, hcheck, htype⟩ => ?_,
    fun st_ ob o s hc ⟨h, hstate, hready, hcheck⟩ => ?_,
    fun o b g n k => .intro _ (fun s ⟨_, _, _, _, _, _, hrx, hfree⟩ => exec_hoardFlush ⟨hrx, hfree⟩)
      fun s hc ⟨ho, hblks, hb, hg, hfill, hk, _⟩ => ?_,
    fun f o b g n k => .intro _ (fun s ⟨h, _⟩ => exec_edfFlush h) fun s hc ⟨_, ho, hblks, hb, hg, hfill, hk⟩ => ?_,
    .intro _ (fun s ⟨h, hheld⟩ => exec_hoardCompact h hheld) fun s hc ⟨_, hheld⟩ => ?_,
    fun s _ h => ?_,
    fun st_ ob o => .intro _ (fun s ⟨h, hstate, hexp, hfree⟩ => exec_objectExpiry h hstate hexp hfree)
      fun s _ ⟨h, _⟩ => ⟨State.obj_removeObj h true, s.mem_done_removeObj o⟩,
    fun st_ ob => .intro _ (fun s _ => rfl) fun s _ _ => ⟨?_, .of_regs rfl⟩⟩
  case refine_1 =>
    have h1 : (s.inc EDF_CNT_SEG.w).Tidy := State.tidy_inc hc.tidy
    obtain ⟨hbad, hregs⟩ := State.badSegment_shows h1 l
    have hk := (s.inc EDF_CNT_SEG.w).badSegment_keeps l .refl (within?_self _)
    refine ⟨rfl, ?_, ?_, ?_⟩
    · exact (hk.get_eq (by decide)).trans ((State.get_inc_self hc.tidy (by decide)).trans (Nat.min_comm _ _))
    · refine hbad.trans ?_
      rw [State.get_inc_ne _ (by decide)]
    · refine (OnlyRegs.put (by decide) _ : OnlyRegs _ s (s.inc EDF_CNT_SEG.w)).trans (fun k hk' => ?_)
      exact hregs k fun hmem => hk' (List.mem_cons_of_mem _ hmem)
  case refine_2 =>
    obtain ⟨h1, hres, hobj, -, hobjs⟩ := State.resultNoted_shows hc.tidy o (res := 0) (by decide)
    obtain ⟨stream, id, addr, happly⟩ := State.applyResult_image (s := s) (o := o) htype
    refine ⟨_, (exec_objectAcceptance h ⟨hstate, hready⟩).trans (congrArg Host.Outcome.next (by rw [hcheck, happly])), ?_⟩
    have h2 : (s.resultNoted o 0).obj st_ ob = some o := by rw [State.obj, hobjs]; exact h
    have hset : ((s.resultNoted o 0).setObj (s.imageHeld o (s.objBytes o))).obj st_ ob = some (s.imageHeld o (s.objBytes o)) :=
      State.obj_setObj h2 ⟨rfl, rfl⟩
    have hsetk := (s.resultNoted o 0).setObj_keeps (s.imageHeld o (s.objBytes o)) .refl (within?_self _)
    have hget {x : Fld} (hx : ((s.resultNoted o 0).setObj (s.imageHeld o (s.objBytes o))).get x = (s.resultNoted o 0).get x) :=
      hx
    generalize (s.resultNoted o 0).setObj (s.imageHeld o (s.objBytes o)) = a at *
    have hdel := a.deliverObj_keeps (objHead (s.objBytes o)) stream id addr false [.f0] .refl (within?_self _)
    have hfind : (a.deliverObj (objHead (s.objBytes o)) stream id addr false [.f0]).obj st_ ob =
        some (s.imageHeld o (s.objBytes o)) := by rw [State.obj, hdel.edf_eq (by decide)]; exact hset
    exact ⟨by rw [hfind]; rfl, by rw [hfind]; rfl, (hdel.get_eq (by decide)).trans ((hsetk.get_eq (by decide)).trans hres),
      (hdel.get_eq (by decide)).trans ((hsetk.get_eq (by decide)).trans hobj)⟩
  case refine_3 =>
    obtain ⟨h1, hres, -, hrej, hobjs⟩ := State.resultNoted_shows hc.tidy o (res := 5) (by decide)
    refine ⟨_, (exec_objectAcceptance h ⟨hstate, hready⟩).trans (congrArg Host.Outcome.next
      (by rw [hcheck, State.applyResult_unsigned])), ?_⟩
    have h2 : ((s.resultNoted o 5).inc EDF_CNT_REJ.w).obj st_ ob = some o := by
      change (s.resultNoted o 5).edf.objs.find? _ = _
      rw [hobjs]
      exact h
    have hk := ((s.resultNoted o 5).inc EDF_CNT_REJ.w).removeObj_keeps o false .refl (within?_self _)
    refine ⟨State.obj_removeObj h2 false, (hk.get_eq (by decide)).trans ((State.get_inc_ne _ (by decide)).trans hres), ?_⟩
    refine (hk.get_eq (by decide)).trans ((State.get_inc_self h1 (by decide)).trans ?_)
    rw [hrej]
    exact Nat.min_comm _ _
  case refine_4 =>
    obtain ⟨hobjs, hfill'⟩ := State.hoardFlush_one ho hblks hb hg hfill hk
    refine ⟨hobjs, hfill', ?_⟩
    have ht : (s.edf.objs.foldl State.flushObj s).Tidy :=
      State.tidy_flushObjs hc.tidy _
    rw [State.hoardFlush_eq, State.edf_showEdf] at hobjs
    rw [State.hoardFlush_eq, State.flushPend_showEdf ht, State.waitingSegs, hobjs]
    rfl
  case refine_5 =>
    have hedf : (s.regAccess.setErr f 0).edf = s.edf := (State.setErr_keeps _ f 0 (s.regAccess_keeps .refl
      (μ := areasMask (Area.reg FN_ERR.w :: Area.access)) (by decide)) (by decide)).edf_eq (by decide)
    have herr := s.regAccess.errAfter_frame (s.regAccess.setErr f 0).hoardFlush f
    rw [herr.edf_eq (by decide)]
    exact State.hoardFlush_one (by rw [hedf, ho]) hblks hb hg (by rw [hedf, hfill]) hk
  case refine_6 =>
    obtain ⟨hbit, hids⟩ := State.compacted_shows hc.tidy hheld
    generalize s.compacted = a at *
    have hk := a.showMaintain_keeps .refl (within?_self _)
    exact ⟨bit_eq_of_get (n := 0) ((hk.get_eq (by decide)).trans hbit), by rw [hk.edf_eq (by decide), hids]⟩
  case refine_7 =>
    obtain ⟨t, hexec, hk⟩ := exec_wearLevelMove h
    exact ⟨t, hexec, (congrArg (·.dayE) (hk.eng_eq (by decide) .f0)).trans s.dayE_chargeF0⟩
  case refine_8 =>
    intro e he hst hob
    have hkeep := (List.mem_filter.mp he).2
    simpa [hst, hob] using hkeep

end Sys2Proof.Machine
end

section
/-! PROOFS. Losses of power (O1). -/

namespace Sys2Proof.Machine

open R

variable {s t u : State} {f g : Fn}

/-! ### What is left when the always-on domain has lost its supply -/

/-- The state that a loss of power starts from: what the stores that need no supply keep. -/
def State.unpowered (s : State) : State := { State.reset with
  variantFL := s.variantFL,
  regs := Sparse.drop (fun k => !ownStore k && !modelStore k && !within LEDGER_L.w LEDGER_H.w k) s.regs,
  mem := Sparse.drop (fun a => !isFlash a && !isBurrow a) s.mem,
  pins := { Pins.start with vddio := s.pins.vddio, hbPulses := s.pins.hbPulses, twrstPulses := s.pins.twrstPulses,
                            timePulses := s.pins.timePulses },
  pwr := { Pwr.start with ledgerAcc := s.pwr.ledgerAcc, ledgerFlash := s.pwr.ledgerFlash, initFlash := s.pwr.initFlash },
  boot := { Boot.start with cfgSaved := s.boot.cfgSaved },
  flint := s.flint, img := s.img.cut,
  sched := { Sched.start with snapshot := s.sched.snapshot, snapRegs := s.sched.snapRegs },
  fe := { Fe.start with bases := s.fe.bases, calRec := s.fe.calRec, calGood := s.fe.calGood, bands := s.fe.bands },
  time := { TimeEng.start with x32Fed := s.time.x32Fed, xoFed := s.time.xoFed, lastPair := s.time.lastPair,
                               a0s := s.time.a0s },
  edf := s.edf.rebuilt, capt := { Capt.start with stores := s.capt.stores },
  twin := { Twin.start with held := s.twin.held, copy := s.twin.copy },
  hlt := s.hlt.kept true (s.bit HLT_STAT.REPLACE), hostOut := s.hostOut, freeCtr := s.freeCtr, pending := s.pending }

/-- The models' signs and the estimates' first values, from what the flash keeps. -/
def State.modelsShown (s : State) : State :=
  let r := (s.unpowered.putBit TIME_STAT.X32_MODEL_OK (s.bit TIME_STAT.X32_MODEL_OK)).putBit TIME_STAT.XO_MODEL_OK
    (s.bit TIME_STAT.XO_MODEL_OK)
  (r.put RES_C_INIT.w (s.pwr.initFlash.1.getD 0)).put RES_LEAK_INIT.w (s.pwr.initFlash.2.getD 0)

/-- The pages that show what engines hold. -/
def State.storesShown (r : State) : State :=
  ((r.put HLT_STAT.SAMPLING 0).putBit TWIN_STAT.CKPT_VALID r.twin.held.isSome).setBases r.fe.bases |>.showEdf

theorem State.powerLost_eq (s : State) (burrow : Bool) :
    s.powerLost burrow = (if burrow then s.modelsShown else s.modelsShown.burrowLost).storesShown := rfl

theorem State.modelsShown_frame (s : State) : Keeps (areasMask [.reg TIME_STAT.w, .reg RES_C_INIT.w, .reg RES_LEAK_INIT.w])
    s.unpowered s.modelsShown :=
  State.put_keeps _ _ _ (State.put_keeps _ _ _ (State.putBit_keeps _ _ _ (State.putBit_keeps _ _ _ .refl (by decide)) (by decide))
    (by decide)) (by decide)

theorem State.storesShown_frame (s : State) : Keeps (areasMask ([.frontEnd, .reg HLT_STAT.w, .reg TWIN_STAT.w, .reg FLOOD_STAT.w,
    .reg EDF_STAT.w] ++ edfShown)) s s.storesShown :=
  State.showEdf_keeps _ (State.setBases_keeps _ _ (State.putBit_keeps _ _ _ (State.put_keeps _ _ _ .refl (by decide)) (by decide))
    (by decide)) (by decide)

/-- A loss of Burrow beyond its memory. -/
theorem State.burrowLost_frame (s : State) : Keeps (areasMask [.power, .twin, .health, .reg LEDGER_L.w, .reg LEDGER_H.w,
    .reg HLT_RCAUSE.w, .reg HLT_CNT_HB.w, .reg HLT_CNT_SYS.w, .reg HLT_CNT_ECC.w]) (s.dropMem isBurrow) s.burrowLost := by
  unfold State.burrowLost
  extract_lets a b
  have hb : Keeps (areasMask [.power, .twin, .health, .reg LEDGER_L.w, .reg LEDGER_H.w,
    .reg HLT_RCAUSE.w, .reg HLT_CNT_HB.w, .reg HLT_CNT_SYS.w, .reg HLT_CNT_ECC.w]) (s.dropMem isBurrow) b :=
    State.put32_keeps _ _ _ .refl (by decide) (by decide)
  clear_value b
  split
  simp (decide := true) (maxDischargeDepth := 9) only [↓Keeps.mk, ↓State.put_keeps, hb, or_true, true_or, eq_self]

theorem State.powerLost_pins (s : State) (burrow : Bool) : (s.powerLost burrow).pins = s.unpowered.pins := by
  have hm : s.modelsShown.pins = s.unpowered.pins := s.modelsShown_frame.same (a := .pins) (by decide)
  have hst (r : State) : r.storesShown.pins = r.pins := r.storesShown_frame.same (a := .pins) (by decide)
  have hbu (r : State) : r.burrowLost.pins = r.pins := r.burrowLost_frame.same (a := .pins) (by decide)
  rw [State.powerLost_eq, hst]
  cases burrow
  · exact (hbu _).trans hm
  · exact hm

theorem State.powerLost_ktime (s : State) (burrow : Bool) : (s.powerLost burrow).ktime = 0 := by
  have hm : s.modelsShown.ktime = 0 := (s.modelsShown_frame.same (a := .ktime) (by decide)).trans rfl
  have hst (r : State) : r.storesShown.ktime = r.ktime := r.storesShown_frame.same (a := .ktime) (by decide)
  have hbu (r : State) : r.burrowLost.ktime = r.ktime := r.burrowLost_frame.same (a := .ktime) (by decide)
  rw [State.powerLost_eq, hst]
  cases burrow
  · exact (hbu _).trans hm
  · exact hm

theorem State.byte_unpowered (s : State) (a : Nat) : s.unpowered.byte a =
    if !isFlash a && !isBurrow a then memDefault a else s.byte a := 
  Sparse.get_drop memDefault (fun a => !isFlash a && !isBurrow a) a s.mem

theorem State.mem_storesShown (s : State) : s.storesShown.mem = s.mem := s.storesShown_frame.same (a := .memory) (by decide)

theorem State.mem_modelsShown (s : State) : s.modelsShown.mem = s.unpowered.mem :=
  s.modelsShown_frame.same (a := .memory) (by decide)

/-- Memory after a loss of power: flash stays, and Burrow where its supply held. -/
theorem State.byte_powerLost (s : State) (burrow : Bool) (a : Nat) : (s.powerLost burrow).byte a =
    if isFlash a || (burrow && isBurrow a) then s.byte a else memDefault a := by
  rw [State.powerLost_eq, State.byte, State.mem_storesShown]
  cases burrow
  · have hmem : s.modelsShown.burrowLost.mem = (s.modelsShown.dropMem isBurrow).mem :=
      s.modelsShown.burrowLost_frame.same (a := .memory) (by decide)
    change Sparse.get memDefault s.modelsShown.burrowLost.mem a = _
    rw [hmem, ← State.byte, State.byte_dropMem, State.byte, State.mem_modelsShown, ← State.byte, State.byte_unpowered]
    cases hf : isFlash a <;> cases hb : isBurrow a <;> simp
    revert hf hb
    simp only [isFlash, isBurrow, decide_eq_true_eq, Bool.and_eq_true]
    omega
  · change Sparse.get memDefault s.modelsShown.mem a = _
    rw [State.mem_modelsShown, ← State.byte, State.byte_unpowered]
    cases isFlash a <;> cases isBurrow a <;> rfl

/-- The ledger stays with Burrow. -/
theorem State.ledger_powerLost (s : State) : (s.powerLost true).get32 LEDGER_L.w = s.get32 LEDGER_L.w := by
  have hkept (x : Fld) (hx : x.key = LEDGER_L.w.key ∨ x.key = LEDGER_L.w.key + 1) : (s.powerLost true).get x = s.get x := by
    have hun : s.unpowered.get x = s.get x := by
      refine congrArg (fun w : Word => (w.toNat / 2 ^ x.lo) % x.size) ?_
      refine (Sparse.get_drop resetWord (fun k => !ownStore k && !modelStore k && !within LEDGER_L.w LEDGER_H.w k) x.key
        s.regs).trans (if_neg ?_)
      rcases hx with hx | hx <;> rw [hx] <;> decide
    rw [State.powerLost_eq, if_pos rfl, s.modelsShown.storesShown_frame.get_eq (by rcases hx with hx | hx <;> rw [hx] <;> decide),
      s.modelsShown_frame.get_eq (by rcases hx with hx | hx <;> rw [hx] <;> decide), hun]
  rw [State.get32, State.get32, hkept _ (.inl rfl), hkept _ (.inr rfl)]

/-! ### BOOT is entered -/

/-- The signs of BOOT in MODE. -/
def State.bootShown (s : State) : State :=
  let s := (((s.put MODE.MAINTAIN_ACT 0).put MODE.CAPTURE_ACT 0).put MODE.LISTEN_ACT 0).put MODE.SLOT_ACT 0
  ((s.put MODE.IDLE 0).put MODE.AWAKE 0).put MODE.CUR 3

/-- The mode and boot engines at the start of a boot. -/
def State.bootReset (s : State) (cause : Nat) (wait : Bool) : State :=
  let s := s.bootShown.inc BOOT_CNT.ALL
  { s with
    mode := { s.mode with
      ready := false, resting := false, entering := false, waking := none, delayed := none, restNow := false },
    boot := { Boot.start with
      hedgehog := !wait && !s.pins.strapDue && !s.pins.test, startWait := wait, cause := cause,
      cfgSaved := s.boot.cfgSaved, lastSlot := s.boot.lastSlot } }

theorem State.bootEntry_eq (s : State) (cause : Nat) (wait : Bool) : s.bootEntry cause wait = (s.bootReset cause wait).coreStart := rfl

theorem State.bootShown_shows (h : s.Tidy) : s.bootShown.Tidy ∧ s.bootShown.get MODE.CUR = 3 := by
  have h1 := State.tidy_put (State.tidy_put (State.tidy_put (State.tidy_put (State.tidy_put (State.tidy_put h (x := MODE.MAINTAIN_ACT)
    (v := 0)) (x := MODE.CAPTURE_ACT) (v := 0)) (x := MODE.LISTEN_ACT) (v := 0)) (x := MODE.SLOT_ACT) (v := 0)) (x := MODE.IDLE)
    (v := 0)) (x := MODE.AWAKE) (v := 0)
  exact ⟨State.tidy_put h1, State.get_put_self h1 (by decide)⟩

theorem State.bootEntry_shows (h : s.Tidy) (cause : Nat) (wait : Bool) : (s.bootEntry cause wait).Tidy ∧
    (s.bootEntry cause wait).get MODE.CUR = 3 ∧ (s.bootEntry cause wait).boot.cause = cause ∧
    (s.bootEntry cause wait).boot.startWait = wait ∧ (s.bootEntry cause wait).mode.ready = false ∧
    (s.bootEntry cause wait).pins = s.pins := by
  obtain ⟨h1, hcur⟩ := State.bootShown_shows h
  have h2 : (s.bootReset cause wait).Tidy := State.tidy_inc h1
  have hcur2 : (s.bootReset cause wait).get MODE.CUR = 3 := (State.get_inc_ne _ (by decide)).trans hcur
  have hboot : (s.bootReset cause wait).boot.cause = cause ∧ (s.bootReset cause wait).boot.startWait = wait ∧
    (s.bootReset cause wait).mode.ready = false ∧ (s.bootReset cause wait).pins = s.pins := ⟨rfl, rfl, rfl, rfl⟩
  rw [State.bootEntry_eq]
  generalize s.bootReset cause wait = a at *
  obtain ⟨hcause, hwait, hready, hpins⟩ := hboot
  have hk := a.coreStart_keeps .refl (within?_self _)
  have hb : a.coreStart.boot = a.boot := hk.same (a := .boot) (by decide)
  exact ⟨hk.tidy h2, (hk.get_eq (by decide)).trans hcur2, by rw [hb, hcause], by rw [hb, hwait], hready,
    Eq.trans (hk.same (a := .pins) (by decide)) hpins⟩

/-- The charger's start leaves what BOOT shows. -/
theorem State.chgState_boot (s : State) (v : Nat) : (s.chgState v).boot = s.boot ∧ (s.chgState v).pins = s.pins ∧
    (s.chgState v).mode = s.mode ∧ (s.chgState v).get MODE.CUR = s.get MODE.CUR := by
  have hk := s.chgState_frame v
  exact ⟨hk.same (a := .boot) (by decide), hk.same (a := .pins) (by decide), hk.same (a := .mode) (by decide),
    hk.get_eq (by decide)⟩

end Sys2Proof.Machine
end

section
/-! PROOFS. Resets of the processors, the straps and VDDIO (O1). -/

namespace Sys2Proof.Machine

open R

variable {s t u : State} {f g : Fn}

/-! ### A reset of every processor -/

theorem State.tidy_resetRegs (h : s.Tidy) (p : Nat → Bool) : (s.resetRegs p).Tidy := by
  obtain ⟨hregs, hrest⟩ := h
  exact ⟨Sparse.wf_drop resetWord p hregs, hrest⟩

/-- The processors stop and what they alone hold is lost. -/
def State.coreStopped (s : State) : State :=
  let s : State := { s with boot := { s.boot with marten := false }, mode := { s.mode with ready := false } }
  ((s.probeCut.attnEnd 9).endActivities 4 none).coreLost

/-- The pins and the two-wire port after the stop; `straps` asks for the straps again. -/
def State.pinsReset (s : State) (straps : Bool) : State :=
  let s := s.resetRegs (fun k => within GPIO0_CFG.w GPIO1_CFG.w k)
  let s : State := { s with latches := [] }
  { s with tw := { s.tw with evtHeld := 0 }, pins := { s.pins with
      strapDue := s.pins.strapDue || straps, pulldown := s.pins.pulldown || straps,
      wakeDrive := s.pins.wakeDrive && !straps } }

theorem State.coldReset_eq (s : State) (cause : Nat) (straps : Bool) : s.coldReset cause straps =
    (let s := s.coreStopped.pinsReset straps
     let low : Bool := s.get VRES_MEAS.w < 2300
     if low then (s.bootEntry cause low).chgState 3 else s.bootEntry cause low) := rfl

theorem State.coreStopped_shows (h : s.Tidy) : s.coreStopped.Tidy ∧ s.coreStopped.pins = s.pins := by
  have h0 (b : Boot) (m : ModeEng) : ({ s with boot := b, mode := m } : State).Tidy := h
  unfold State.coreStopped
  extract_lets src src2 a
  have ha : a.Tidy := h0 _ _
  have hprobe := a.probeCut_keeps .refl (within?_self _)
  have hattn := a.probeCut.attnEnd_keeps 9 .refl (within?_self _)
  have hend := (a.probeCut.attnEnd 9).endActivities_keeps 4 none .refl (within?_self _)
  have hcore := ((a.probeCut.attnEnd 9).endActivities 4 none).coreLost_keeps .refl (within?_self _)
  refine ⟨hcore.tidy (hend.tidy (hattn.tidy (hprobe.tidy ha))), ?_⟩
  have hpins : a.pins = s.pins := rfl
  exact Eq.trans (hcore.same (a := .pins) (by decide)) (Eq.trans (hend.same (a := .pins) (by decide))
    (Eq.trans (hattn.same (a := .pins) (by decide)) (Eq.trans (hprobe.same (a := .pins) (by decide)) hpins)))

theorem State.pinsReset_shows (h : s.Tidy) (straps : Bool) : (s.pinsReset straps).Tidy ∧
    (s.pinsReset straps).pins.strapDue = (s.pins.strapDue || straps) := by
  obtain ⟨hregs, hcnts, -, hmem⟩ := State.tidy_resetRegs h (fun k => within GPIO0_CFG.w GPIO1_CFG.w k)
  exact ⟨⟨hregs, hcnts, rfl, hmem⟩, rfl⟩

/-- A reset of the processors enters BOOT for its cause. -/
theorem State.coldReset_shows (h : s.Tidy) (cause : Nat) (straps : Bool) : (s.coldReset cause straps).get MODE.CUR = 3 ∧
    (s.coldReset cause straps).boot.cause = cause ∧ (s.coldReset cause straps).pins.strapDue = (s.pins.strapDue || straps) ∧
    (s.coldReset cause straps).mode.ready = false ∧ (s.coldReset cause straps).ktime = s.ktime ∧
    (s.coldReset cause straps).aon = s.aon := by
  have hk := s.coldReset_keeps cause straps .refl (within?_self _)
  have htime : (s.coldReset cause straps).ktime = s.ktime := hk.same (a := .ktime) (by decide)
  have haon : (s.coldReset cause straps).aon = s.aon := hk.same (a := .cycles) (by decide)
  refine (?_ : _ ∧ _ ∧ _ ∧ _).imp id fun ⟨h1, h2, h3⟩ => ⟨h1, h2, h3, htime, haon⟩
  obtain ⟨h1, hpins⟩ := State.coreStopped_shows h
  obtain ⟨h2, hstrap⟩ := State.pinsReset_shows h1 straps
  rw [State.coldReset_eq, ← hpins]
  generalize s.coreStopped.pinsReset straps = a at *
  dsimp only
  obtain ⟨-, hcur, hcause, -, hready, hpins'⟩ := State.bootEntry_shows h2 cause (decide (a.get VRES_MEAS.w < 2300))
  generalize a.bootEntry cause (decide (a.get VRES_MEAS.w < 2300)) = b at *
  obtain ⟨hboot, hp, hm, hc⟩ := b.chgState_boot 3
  split
  · exact ⟨hc.trans hcur, by rw [hboot, hcause], by rw [hp, hpins', hstrap], by rw [hm, hready]⟩
  · exact ⟨hcur, hcause, by rw [hpins', hstrap], hready⟩

/-! ### The always-on domain starts -/

/-- The supply is up: the straps are due. -/
def State.supplied (s : State) : State := { s with pins := { s.pins with porAsserted := false, pulldown := true, strapDue := true } }

theorem State.powerUp_eq (s : State) : s.powerUp =
    (s.supplied.bootEntry (if s.boot.cause = 0 then 1 else s.boot.cause) true).chgState 3 := rfl

theorem State.powerUp_shows (h : s.Tidy) : s.powerUp.pins.porAsserted = false ∧ s.powerUp.pins.pulldown = true ∧
    s.powerUp.pins.strapDue = true ∧ s.powerUp.boot.startWait = true ∧ s.powerUp.get MODE.CUR = 3 ∧
    s.powerUp.get PWR_STAT.CHG_STATE = 3 ∧ s.powerUp.boot.cause = (if s.boot.cause = 0 then 1 else s.boot.cause) ∧
    s.powerUp.mode.ready = false ∧ s.powerUp.ktime = s.ktime := by
  have hs : s.supplied.Tidy := h
  obtain ⟨h1, hcur, hcause, hwait, hready, hpins⟩ :=
    State.bootEntry_shows hs (if s.boot.cause = 0 then 1 else s.boot.cause) true
  have hk := s.supplied.bootEntry_keeps (if s.boot.cause = 0 then 1 else s.boot.cause) true .refl (within?_self _)
  have htime : (s.supplied.bootEntry (if s.boot.cause = 0 then 1 else s.boot.cause) true).ktime = s.ktime :=
    Eq.trans (hk.same (a := .ktime) (by decide)) rfl
  rw [State.powerUp_eq]
  clear hk
  generalize s.supplied.bootEntry (if s.boot.cause = 0 then 1 else s.boot.cause) true = b at *
  obtain ⟨hboot, hp, hm, hc⟩ := b.chgState_boot 3
  rw [hboot, hp, hm, hc, hpins]
  exact ⟨rfl, rfl, rfl, hwait, hcur, State.state_chgState h1, hcause, hready,
    Eq.trans ((b.chgState_frame 3).same (a := .ktime) (by decide)) htime⟩

theorem exec_powerOnResetRelease (h : s.pins.porAsserted = true) : exec .powerOnResetRelease s = .next s.powerUp :=
  congrArg Host.Outcome.next (if_pos h)

theorem exec_pinReset {lowUs : Nat} (hlong : 10 ≤ lowUs) (h : s.pins.porAsserted = false) :
    exec (.pinReset lowUs) s = .next s.pinReset := by
  change execPinReset lowUs s = _
  rw [execPinReset, if_neg (by simp [h]; omega), if_pos hlong]

theorem exec_sysWdog (h : s.coreRuns = true ∧ s.boot.startWait = false) :
    exec .sysWdog s = .next ((s.inc HLT_CNT_SYS.w).coldReset 9 false) :=
  congrArg Host.Outcome.next (if_pos ⟨h.1, by simp [h.2]⟩)

/-! ### The straps and VDDIO -/

/-- The straps latched. -/
def State.strapped (s : State) (role test : Bool) : State := { s with
  pins := { s.pins with
    role := role, test := test, pulldown := false, strapDue := false, wakeDrive := s.pins.wakeDrive && !test },
  boot := { s.boot with hedgehog := !test && !s.boot.startWait } }

theorem exec_strapSample {role test : Bool} (h : s.pins.strapDue = true ∧ s.pins.porAsserted = false ∧ s.get MODE.CUR ≠ 0) :
    exec (.strapSample role test) s = .next ((s.strapped role test).putAll FN_ID.UNIT (if role then 1 else 0)).twDefaults :=
  congrArg Host.Outcome.next (if_pos ⟨h.1, by simp [h.2.1], h.2.2⟩)

theorem State.pins_putAll (s : State) (x : Fld) (v : Nat) : (s.putAll x v).pins = s.pins := rfl

/-- `VDDIO` is back. -/
def State.hostSupplied (s : State) : State := { s with pins := { s.pins with vddio := true } }

theorem exec_vddioReturn (h : s.pins.vddio = false) :
    exec .vddioReturn s = .next ((s.hostSupplied.raise1 jHOSTPORT_ERROR).raise1 jTW_ERROR) :=
  congrArg Host.Outcome.next (if_pos (by simp [h]))

/-- Setting one host source leaves the others. -/
theorem State.fget_raise1_apart {b c : Nat} (hc : s.Canon) (hc16 : c < 16) (hne : c ≠ b) :
    (s.raise1 b).fget .f0 ⟨0x11, c, c⟩ = s.fget .f0 ⟨0x11, c, c⟩ := by
  obtain ⟨hregs, -⟩ := hc
  rw [State.raise1, State.fget_noteAttn]
  refine State.get_put_apart (x := (⟨0x11, b, b⟩ : Fld).on 0) (y := (⟨0x11, c, c⟩ : Fld).on 0) hregs
    (Nat.le_refl b) (Nat.le_refl c) hc16 ?_ 1
  simp only [Fld.apart, Fld.on, bne_self_eq_false, Bool.false_or, Bool.or_eq_true]
  exact (Nat.lt_or_gt_of_ne hne).imp decide_eq_true decide_eq_true

/-! ### The obligation -/

/-- Settles O1: losses of power by `State.powerLost_eq`, resets by `State.bootEntry_shows`. -/
theorem resetCommandsComplete : Obligations.ResetCommandsComplete := by
  refine ⟨fun vbatMin => .intro _ (fun s _ => exec_powerOnReset vbatMin s) fun s _ ⟨hv, hcause⟩ => ?_,
    fun vbatMin => .intro _ (fun s _ => exec_powerOnReset vbatMin s) fun s _ hv => ?_,
    .intro _ (fun s h => exec_powerOnResetRelease h) fun s hc _ => ?_,
    fun role test => .intro _ (fun s h => exec_strapSample h) fun s hc _ => ?_,
    fun lowUs => .intro _ (fun s ⟨hlong, h, _⟩ => exec_pinReset hlong h) fun s hc ⟨_, _, hcur⟩ => ?_,
    fun lowUs => .intro _ (fun s ⟨hlong, h, _⟩ => exec_pinReset hlong h) fun s hc ⟨_, _, hcur⟩ => ?_,
    .intro _ (fun s h => exec_sysWdog h) fun s hc _ => ?_,
    .intro _ (fun s h => exec_vddioReturn h) fun s hc _ => ?_⟩
  case refine_1 =>
    have hholds : s.burrowHolds vbatMin = true := by simp [State.burrowHolds, hv, hcause]
    rw [hholds]
    have hpins := s.powerLost_pins true
    have htime := s.powerLost_ktime true
    have hled := s.ledger_powerLost
    have hbyte := s.byte_powerLost true
    generalize s.powerLost true = u at *
    have hpor : u.pins.porAsserted = true := by rw [hpins]; rfl
    refine ⟨hpor, fun p => if_pos (.inl hpor), rfl, htime, fun a ha => ?_, fun a ha => ?_, fun a ha => ?_, hled⟩
    · exact (hbyte a).trans (if_pos (by rw [ha]; rfl))
    · exact (hbyte a).trans (if_pos (by rw [ha]; cases isFlash a <;> rfl))
    · refine (hbyte a).trans (if_neg ?_)
      have ha' : (!isFlash a && !isBurrow a) = true := ha
      revert ha'
      generalize isFlash a = x
      generalize isBurrow a = y
      cases x <;> cases y <;> decide
  case refine_2 =>
    have hholds : s.burrowHolds vbatMin = false := by
      have hlow : ¬ 1800 ≤ vbatMin := by omega
      simp [State.burrowHolds, hlow]
    rw [hholds]
    have hpins := s.powerLost_pins false
    have hbyte := s.byte_powerLost false
    generalize s.powerLost false = u at *
    have hpor : u.pins.porAsserted = true := by rw [hpins]; rfl
    refine ⟨hpor, rfl, fun a ha => ?_, fun a ha => ?_⟩
    · exact (hbyte a).trans (if_pos (by rw [ha]; rfl))
    · refine (hbyte a).trans (if_neg ?_)
      have ha' : (!isFlash a) = true := ha
      revert ha'
      generalize isFlash a = x
      cases x <;> simp
  case refine_3 =>
    obtain ⟨hpor, hdown, hstrap, hwait, hcur, hchg, -⟩ := State.powerUp_shows hc.tidy
    exact ⟨hpor, hdown, hstrap, hwait, hcur, hchg⟩
  case refine_4 =>
    have hs : (s.strapped role test).Tidy := hc.tidy
    have hk := ((s.strapped role test).putAll FN_ID.UNIT (if role then 1 else 0)).twDefaults_keeps .refl (within?_self _)
    have hpins : _ = (s.strapped role test).pins := hk.same (a := .pins) (by decide)
    rw [hpins]
    refine ⟨rfl, rfl, rfl, rfl, fun f => (hk.fget_eq (by decide)).trans ((State.fget_putAll hs (by decide) (by decide)).trans ?_)⟩
    cases role <;> rfl
  case refine_5 =>
    rw [State.pinReset, if_neg hcur]
    obtain ⟨hcur, hcause, hstrap, hready, htime, haon⟩ := State.coldReset_shows hc.tidy 3 true
    exact ⟨hcur, hcause, by rw [hstrap, Bool.or_true], hready, htime, haon⟩
  case refine_6 =>
    rw [State.pinReset, if_pos hcur]
    have hs : ({ s with boot := { s.boot with cause := 3 } } : State).Tidy := hc.tidy
    obtain ⟨-, -, hstrap, hwait, hcur, -, hcause, hready, htime⟩ := State.powerUp_shows hs
    exact ⟨hcur, hcause, hstrap, hwait, hready, htime⟩
  case refine_7 =>
    obtain ⟨hcur, hcause, hstrap, hready, htime, haon⟩ := State.coldReset_shows (State.tidy_inc hc.tidy (x := HLT_CNT_SYS.w)) 9 false
    exact ⟨hcur, hcause, by rw [hstrap, Bool.or_false]; rfl, hready, htime, haon⟩
  case refine_8 =>
    have hs : s.hostSupplied.Canon := hc
    have hset : (s.hostSupplied.raise1 jHOSTPORT_ERROR).fget .f0 INT_STAT1.HOSTPORT_ERROR = 1 :=
      State.fget_raise1_same hs (by decide)
    have hk := s.hostSupplied.raise1_keeps jHOSTPORT_ERROR .refl (within?_self _)
    have hpins : (s.hostSupplied.raise1 jHOSTPORT_ERROR).pins.vddio = true :=
      (congrArg Pins.vddio (hk.same (a := .pins) (by decide)) : _)
    have h1 : (s.hostSupplied.raise1 jHOSTPORT_ERROR).Canon := hk.tidy hs
    generalize s.hostSupplied.raise1 jHOSTPORT_ERROR = a at *
    have hk' := a.raise1_keeps jTW_ERROR .refl (within?_self _)
    refine ⟨(congrArg Pins.vddio (hk'.same (a := .pins) (by decide)) : _).trans hpins, ?_, State.fget_raise1_same h1 (by decide)⟩
    exact (State.fget_raise1_apart h1 (by decide) (by decide)).trans hset

end Sys2Proof.Machine
end

section
/-! PROOFS. Marten serves again: what the records and the hold that waited leave of the modes. -/

namespace Sys2Proof.Machine

open R

variable {s t u : State} {f g : Fn}

/-! ### What a record may do to the mode engine -/

/-- The mode engine but for the reason to call the host. -/
def Heard (s t : State) : Prop := ∃ r, t.mode = { s.mode with heldReason := r }

namespace Heard

theorem of_mode (h : t.mode = s.mode) : Heard s t := ⟨s.mode.heldReason, h⟩

theorem refl (s : State) : Heard s s := of_mode rfl

theorem trans (h : Heard s t) (h' : Heard t u) : Heard s u := by
  obtain ⟨_, h⟩ := h
  obtain ⟨r, h'⟩ := h'
  exact ⟨r, by rw [h', h]⟩

theorem ite {p : Prop} [Decidable p] (ht : Heard s t) (hu : Heard s u) : Heard s (if p then t else u) := by
  split
  · exact ht
  · exact hu

theorem of_keeps {m : Nat} (h : Keeps m s t) (hm : m.testBit (Area.bit .mode) = false) : Heard s t :=
  of_mode (h.same (a := .mode) hm)

theorem wantHost (s : State) (r : Nat) : Heard s (s.wantHost r) := by
  unfold State.wantHost
  extract_lets on t
  have ht : t.mode = s.mode := by unfold t; split <;> rfl
  exact .ite ⟨some r, congrArg (fun m : ModeEng => { m with heldReason := some r }) ht⟩ (.refl s)

theorem noteAttn (s : State) (f : Fn) (src : Nat) : Heard s (s.noteAttn f src) := by
  unfold State.noteAttn
  extract_lets en t e
  have ht : Heard s t := .ite (wantHost s 4) (.refl s)
  split
  · split
    · exact ht.trans (of_mode rfl)
    · exact ht.trans (of_mode rfl)
  · exact ht

theorem raise0 (s : State) (f : Fn) (b : Nat) : Heard s (s.raise0 f b) := 
  (of_mode (t := (s.fput f ⟨0x10, b, b⟩ 1).count f b) rfl).trans (noteAttn _ f b)

theorem raises (s : State) (f : Fn) (l : List Nat) : Heard s (l.foldl (fun s b => s.raise0 f b) s) := by
  induction l generalizing s with
  | nil => exact .refl s
  | cons b l ih => exact (raise0 s f b).trans (ih _)

theorem append (s : State) (f : Fn) (ws : List Word) : Heard s (s.append f ws) := by
  rw [State.append_eq]
  exact .ite ((of_mode rfl).trans (raise0 _ f _)) (of_mode rfl)

theorem writeRec (s : State) (f : Fn) (r : Rec) : Heard s (s.writeRec f r) := by
  rw [State.writeRec_eq]
  refine .ite (.trans (.trans ?_ (append _ f _)) (raises _ f _)) (.trans ?_ (raises _ f _))
  · exact .ite (.refl _) ((of_mode rfl).trans (append _ f _))
  · exact (of_mode rfl).trans (raise0 _ f _)

theorem writeRecs (s : State) (f : Fn) (l : List Rec) : Heard s (l.foldl (fun s r => s.writeRec f r) s) := by
  induction l generalizing s with
  | nil => exact .refl s
  | cons r l ih => exact (writeRec s f r).trans (ih _)

theorem planEvent (s : State) (f : Fn) (event cause id sec : Nat) : Heard s (s.planEvent f event cause id sec) := by
  unfold State.planEvent State.deliver
  extract_lets r e a
  have ha : Heard s a := .ite (of_mode rfl) (writeRec s f _)
  exact .ite (ha.trans (of_mode rfl)) ha

theorem eachFn {op : State → Fn → State} (hop : ∀ v f, Heard v (op v f)) (s : State) (l : List Fn) : Heard s (s.eachFn op l) := by
  induction l generalizing s with
  | nil => exact .refl s
  | cons f l ih => exact (hop s f).trans (ih _)

theorem releaseHeld (s : State) (f : Fn) : Heard s (s.releaseHeld f) :=
  .ite (.refl s) ((of_mode rfl).trans (writeRecs _ f _))

theorem pauseListen (s : State) (f : Fn) : Heard s (s.pauseListen f) := by
  unfold State.pauseListen
  split
  · next l _ =>
    have hset := (s.setListen_keeps f (some { l with paused := true }) .refl (within?_self _))
    exact .ite (.refl s) ((of_keeps hset (by decide)).trans (planEvent _ f 5 0 0xFFFF 0))
  · exact .refl s

end Heard

/-! ### A hold that waited -/

/-- The front end is taken for the hold, before the activities show it. -/
def State.holdTaken (s : State) : State :=
  let s := (s.rawTouch.eachFn State.pauseListen allFns).rxStop.setJob 0
  (s.put FES_STAT.HOLD 1).setPath (s.get FES_RAW_CTL.PATH)

theorem State.holdStart_eq (s : State) : s.holdStart = s.holdTaken.showActs := rfl

theorem State.holdTaken_heard (s : State) : Heard s s.holdTaken ∧ s.holdTaken.get MODE.AWAKE = s.get MODE.AWAKE ∧
    (s.Tidy → s.holdTaken.Tidy) := by
  have htouch := s.rawTouch_keeps .refl (within?_self _)
  have hpause : Keeps (areasMask [.counters, .mode, .engines, .plans, .sched, .openValues, .reg INT_STAT0.w, .reg PLAN_STAT.w,
      .reg DAY_USE_E.w, .reg DAY_USE_T.w, .reg DQ_LOST.w, .reg WAKE_HREASON.w, .reg SCHED_CNT_MISSED.w]) s.rawTouch
      (s.rawTouch.eachFn State.pauseListen allFns) :=
    State.eachFn_keeps _ _ _ .refl fun v f => v.pauseListen_keeps f .refl (by decide)
  have hheard := Heard.eachFn Heard.pauseListen s.rawTouch allFns
  unfold State.holdTaken
  generalize s.rawTouch.eachFn State.pauseListen allFns = a at *
  have hstop := a.rxStop_keeps .refl (within?_self _)
  dsimp only
  generalize a.rxStop = b at *
  have hset : Keeps (areasMask [.frontEnd, .reg FES_STAT.w, .reg CLK_STAT.w]) b
      (((b.setJob 0).put FES_STAT.HOLD 1).setPath ((b.setJob 0).get FES_RAW_CTL.PATH)) :=
    State.setPath_keeps _ _ (State.put_keeps _ _ _ (State.setJob_keeps _ _ .refl (by decide)) (by decide)) (by decide)
  generalize ((b.setJob 0).put FES_STAT.HOLD 1).setPath ((b.setJob 0).get FES_RAW_CTL.PATH) = c at *
  refine ⟨(Heard.of_keeps htouch (by decide)).trans (hheard.trans ((Heard.of_keeps hstop (by decide)).trans
    (Heard.of_keeps hset (by decide)))), ?_, fun h => hset.tidy (hstop.tidy (hpause.tidy (htouch.tidy h)))⟩
  rw [hset.get_eq (by decide), hstop.get_eq (by decide), hpause.get_eq (by decide), htouch.get_eq (by decide)]

theorem State.get_showActs_awake (h : s.Tidy) : s.showActs.get MODE.AWAKE = s.get MODE.AWAKE := by
  unfold State.showActs
  rw [State.get_setAct (State.tidy_setAct h) (by decide) (by decide) (by decide) (by decide) (by decide),
    State.get_setAct h (by decide) (by decide) (by decide) (by decide) (by decide)]

theorem State.holdDue_heard (h : s.Tidy) : Heard s s.holdDue ∧ s.holdDue.get MODE.AWAKE = s.get MODE.AWAKE := by
  unfold State.holdDue
  split
  · have h' : ({ s with fe := { s.fe with holdWait := false } } : State).Tidy := h
    rw [State.holdStart_eq]
    obtain ⟨hheard, haw, ht⟩ := State.holdTaken_heard { s with fe := { s.fe with holdWait := false } }
    generalize ({ s with fe := { s.fe with holdWait := false } } : State).holdTaken = a at *
    have hacts := a.showActs_keeps .refl (within?_self _)
    exact ⟨hheard.trans (Heard.of_keeps hacts (by decide)), (State.get_showActs_awake (ht h')).trans haw⟩
  · exact ⟨.refl s, rfl⟩

/-! ### Marten serves -/

/-- The mode engine and the shown mode at READY. -/
def State.risen (s : State) : State :=
  let s := (s.put MODE.AWAKE 1).put MODE.MATCH_ON 0
  let s : State := { s with
    mode := { s.mode with ready := true, resting := false, entering := false, waking := none, delayed := none },
    hlt := { s.hlt with hbArmed := true }, boot := { s.boot with marten := true } }
  if s.get MODE.CUR = 3 then s.put MODE.CUR s.restMode else s

/-- The undecided unit's watch and the two-wire events that waited. -/
def State.retold (s : State) : State :=
  let s := if s.get TWIN_STAT.w / 0x2000 = 4 ∧ ¬ s.twin.watching then s.twinWatch else s
  let s := s.put TW_EVT.w (s.get TW_EVT.w ||| s.tw.evtHeld)
  { s with tw := { s.tw with evtHeld := 0 } }

theorem State.becomeReady_eq (s : State) :
    s.becomeReady = ((s.risen.retold.eachFn (fun s f => s.releaseHeld f) allFns).holdDue).updMode := rfl

theorem State.risen_shows (h : s.Tidy) : s.risen.Tidy ∧ s.risen.get MODE.AWAKE = 1 ∧
    s.risen.mode = { s.mode with ready := true, resting := false, entering := false, waking := none, delayed := none } := by
  have h1 : ((s.put MODE.AWAKE 1).put MODE.MATCH_ON 0).Tidy := State.tidy_put (State.tidy_put h)
  have haw : ((s.put MODE.AWAKE 1).put MODE.MATCH_ON 0).get MODE.AWAKE = 1 :=
    (State.get_put_other (State.tidy_put h) (by decide) (by decide) (by decide)).trans (State.get_put_self h (by decide))
  unfold State.risen
  extract_lets a _ _ _ b
  have hb : b.Tidy := h1
  have hbaw : b.get MODE.AWAKE = 1 := haw
  split
  · exact ⟨State.tidy_put hb, (State.get_put_other hb (by decide) (by decide) (by decide)).trans hbaw, rfl⟩
  · exact ⟨hb, hbaw, rfl⟩

theorem State.retold_frame (s : State) : Keeps (areasMask [.twin, .twoWire, .reg TW_EVT.w]) s s.retold := by
  unfold State.retold
  extract_lets a b
  have ha : Keeps (areasMask [.twin, .twoWire, .reg TW_EVT.w]) s a := .ite (State.twinWatch_keeps _ .refl (by decide)) .refl
  have hb : Keeps (areasMask [.twin, .twoWire, .reg TW_EVT.w]) s b := State.put_keeps _ _ _ ha (by decide)
  clear_value a b
  simp (decide := true) (maxDischargeDepth := 9) only [↓Keeps.mk, hb, or_true, true_or, eq_self]

/-- What every READY shows. -/
theorem State.becomeReady_shows (h : s.Tidy) : s.becomeReady.Tidy ∧ s.becomeReady.mode.ready = true ∧
    s.becomeReady.mode.resting = false ∧ s.becomeReady.bit MODE.AWAKE = true ∧
    s.becomeReady.boot = { s.boot with marten := true } := by
  have hk := s.becomeReady_keeps .refl (within?_self _)
  refine ⟨hk.tidy h, ?_⟩
  have hboot : s.risen.boot = { s.boot with marten := true } := by
    unfold State.risen
    dsimp only
    split <;> rfl
  obtain ⟨h1, haw, hmode⟩ := State.risen_shows h
  rw [State.becomeReady_eq]
  generalize s.risen = a at *
  have hretold := a.retold_frame
  have h2 : a.retold.Tidy := hretold.tidy h1
  have hheard2 : Heard a a.retold := .of_keeps hretold (by decide)
  have hrel : Keeps (areasMask [.counters, .mode, .engines, .reg INT_STAT0.w, .reg DQ_LOST.w, .reg WAKE_HREASON.w]) a.retold
      (a.retold.eachFn (fun s f => s.releaseHeld f) allFns) :=
    State.eachFn_keeps _ _ _ .refl fun v f => v.releaseHeld_keeps f .refl (by decide)
  have hheard3 := Heard.eachFn Heard.releaseHeld a.retold allFns
  change Heard a.retold (a.retold.eachFn (fun s f => s.releaseHeld f) allFns) at hheard3
  generalize a.retold.eachFn (fun s f => s.releaseHeld f) allFns = b at *
  have h3 := hrel.tidy h2
  obtain ⟨hheard4, haw4⟩ := State.holdDue_heard h3
  have hdue := b.holdDue_keeps .refl (within?_self _)
  generalize b.holdDue = c at *
  have hupd := c.updMode_keeps .refl (within?_self _)
  have hheard : Heard a c.updMode := hheard2.trans (hheard3.trans (hheard4.trans (.of_keeps hupd (by decide))))
  obtain ⟨r, hmode'⟩ := hheard
  refine ⟨by rw [hmode', hmode], by rw [hmode', hmode], bit_eq_of_get (n := 1) ?_, ?_⟩
  · rw [State.get_updMode (hdue.tidy h3) (by decide) (by decide) (by decide), haw4, hrel.get_eq (by decide),
      hretold.get_eq (by decide), haw]
  · exact Eq.trans (hupd.same (a := .boot) (by decide)) (Eq.trans (hdue.same (a := .boot) (by decide))
      (Eq.trans (hrel.same (a := .boot) (by decide)) (Eq.trans (hretold.same (a := .boot) (by decide)) hboot)))

end Sys2Proof.Machine
end

section
/-! PROOFS. SHUTDOWN (O8). -/

namespace Sys2Proof.Machine

open R

variable {s t u : State} {f g : Fn}

theorem State.powerLost_shutMark (s : State) (burrow : Bool) : (s.powerLost burrow).hlt.shutMark = s.hlt.shutMark := by
  have hm : s.modelsShown.hlt = s.unpowered.hlt := s.modelsShown_frame.same (a := .health) (by decide)
  have hun : s.unpowered.hlt.shutMark = s.hlt.shutMark := rfl
  have hst (r : State) : r.storesShown.hlt = r.hlt := r.storesShown_frame.same (a := .health) (by decide)
  have hbu (r : State) : r.burrowLost.hlt.shutMark = r.hlt.shutMark := rfl
  rw [State.powerLost_eq, hst]
  cases burrow
  · exact (hbu _).trans ((congrArg Hlt.shutMark hm).trans hun)
  · exact (congrArg Hlt.shutMark hm).trans hun

/-- What SHUTDOWN saves before the power goes. -/
def State.shutSaved (s : State) : State :=
  let s := (s.probeCut.ledgerCopy.hoardFlush).endActivities 2 none
  let s : State := if s.boot.cfgDirty then
      { s with boot := { s.boot with cfgSaved := some (s.get BOOT_CFG.w), cfgDirty := false } } else s
  { s with hlt := { s.hlt with shutMark := true } }

/-- The device stands in SHUTDOWN. -/
def State.offShown (s : State) : State :=
  let s : State := { s with pins := { s.pins with porAsserted := false }, boot := { s.boot with cause := 1 } }
  (s.put MODE.CUR 0).put PWR_STAT.CHG_STATE 0

theorem State.shutdown_eq (hact : s.bit MODE.MAINTAIN_ACT = false) (hlevel : s.bit WAKE_MON.LEVEL = true)
    (hdrive : s.pins.wakeDrive = false) : s.shutdown f = (s.shutSaved.powerLost false).offShown :=
  if_neg (by simp [hact, hlevel, hdrive])

theorem State.tidy_shutSaved (h : s.Tidy) : s.shutSaved.Tidy := by
  have hprobe := (s.probeCut_keeps .refl (within?_self _)).tidy h
  have hcopy := (s.probeCut.ledgerCopy_keeps .refl (within?_self _)).tidy hprobe
  have hflush := (s.probeCut.ledgerCopy.hoardFlush_keeps .refl (within?_self _)).tidy hcopy
  have hend := (s.probeCut.ledgerCopy.hoardFlush.endActivities_keeps 2 none .refl (within?_self _)).tidy hflush
  unfold State.shutSaved
  extract_lets a _ b
  have hb : b.Tidy := by
    unfold b
    split
    · exact hend
    · exact hend
  exact hb

/-- The pins in SHUTDOWN (Table 2.2). -/
theorem State.pinState_off (hpor : s.pins.porAsserted = false) (htest : s.pins.test = false) (hcur : s.get MODE.CUR = 0) :
    s.pinState .sda = .highZ ∧ s.pinState .gpio0 = .highZDown ∧ s.pinState .x32P = .off ∧ s.pinState .fCsN = .unpowered ∧
    s.pinState .vres = .chargeOpen := by
  have hpin (p : Pin) : s.pinState p = s.modeState p := if_neg (by simp [hpor, htest])
  have hcore : s.coreRuns = false := by simp [State.coreRuns, hcur]
  refine ⟨(hpin _).trans (if_pos (.inl hcur)), (hpin _).trans (if_pos hcur), (hpin _).trans (if_pos hcur), ?_,
    (hpin _).trans (if_pos (.inl hcur))⟩
  exact (hpin _).trans (if_neg (by rw [hcore]; decide))

theorem State.offShown_shows (h : s.Tidy) (htest : s.pins.test = false) : s.offShown.get MODE.CUR = 0 ∧
    s.offShown.get PWR_STAT.CHG_STATE = 0 ∧ s.offShown.pins.porAsserted = false ∧ s.offShown.hlt = s.hlt ∧
    s.offShown.pinState .sda = .highZ ∧ s.offShown.pinState .gpio0 = .highZDown ∧ s.offShown.pinState .x32P = .off ∧
    s.offShown.pinState .fCsN = .unpowered ∧ s.offShown.pinState .vres = .chargeOpen := by
  have h1 : ({ s with pins := { s.pins with porAsserted := false }, boot := { s.boot with cause := 1 } } : State).Tidy := h
  have hcur : s.offShown.get MODE.CUR = 0 :=
    (State.get_put_other (State.tidy_put h1) (by decide) (by decide) (by decide)).trans (State.get_put_self h1 (by decide))
  exact ⟨hcur, State.get_put_self (State.tidy_put h1) (by decide), rfl, rfl, State.pinState_off rfl htest hcur⟩

theorem State.shutdown_shows (h : s.Tidy) (hact : s.bit MODE.MAINTAIN_ACT = false) (hlevel : s.bit WAKE_MON.LEVEL = true)
    (hdrive : s.pins.wakeDrive = false) : (s.shutdown f).get MODE.CUR = 0 ∧ (s.shutdown f).get PWR_STAT.CHG_STATE = 0 ∧
    (s.shutdown f).pins.porAsserted = false ∧ (s.shutdown f).hlt.shutMark = true ∧ (s.shutdown f).pinState .sda = .highZ ∧
    (s.shutdown f).pinState .gpio0 = .highZDown ∧ (s.shutdown f).pinState .x32P = .off ∧
    (s.shutdown f).pinState .fCsN = .unpowered ∧ (s.shutdown f).pinState .vres = .chargeOpen := by
  have hmark : s.shutSaved.hlt.shutMark = true := rfl
  rw [State.shutdown_eq hact hlevel hdrive]
  have h1 := State.tidy_shutSaved h
  generalize s.shutSaved = a at *
  have h2 := (a.powerLost_keeps false .refl (within?_self _)).tidy h1
  have hmark2 := a.powerLost_shutMark false
  have htest : (a.powerLost false).pins.test = false := (congrArg Pins.test (a.powerLost_pins false)).trans rfl
  generalize a.powerLost false = b at *
  obtain ⟨hcur, hchg, hpor, hhlt, hpins⟩ := State.offShown_shows h2 htest
  exact ⟨hcur, hchg, hpor, by rw [hhlt, hmark2, hmark], hpins⟩

/-- The request to rest. -/
theorem exec_modeCmdRestNow (h : Serves s f 2) : exec (.modeCmdRestNow f) s = .next s.regAccess.restNowCmd := by
  have hwrite : s.cmdWrite f MODE_CMD.w 0xA502 = s.regAccess.restNowCmd := by
    rw [State.cmdWrite_of_serves _ (by decide) h (gate3_modeCmd f),
      State.writeReg_modeCmd_legal (by decide) (by decide), if_neg (by decide)]
  rw [← hwrite]
  rfl

end Sys2Proof.Machine
end

section
/-! PROOFS. Rests and wakes (O8). -/

namespace Sys2Proof.Machine

open R

variable {s t u : State} {f g : Fn}

/-! ### A rest is entered -/

/-- What a rest saves first. -/
def State.restSaved (s : State) (level : Nat) : State :=
  let s := if level = 2 then s.hoardFlush else s
  if s.boot.cfgDirty then { s with boot := { s.boot with cfgSaved := some (s.get BOOT_CFG.w), cfgDirty := false } } else s

/-- The mode that a rest shows. -/
def State.restShown (s : State) (level : Nat) : State :=
  let s := ((s.put MODE.RET level).put MODE.AWAKE 0).updMode
  s.putBit MODE.MATCH_ON (s.get MODE.CUR == 2 || (s.get MODE.CUR == 4 && s.bit MODE_CFG.MATCH_EN))

/-- The mode engine in rest. -/
def State.rested (s : State) : State := { s with
  mode := { s.mode with ready := false, resting := true, entering := true, waking := none, restNow := false },
  tw := { s.tw with matched := false } }

theorem State.enterRest_eq (s : State) (level : Nat) : s.enterRest level =
    (let s := (((s.restSaved level).coreStop.loseBuffers level).retain level).restShown level |>.rested
     if s.get PWR_STAT.CHG_STATE = 2 ∧ s.preHeld then s else s.chgState 1) := rfl

theorem State.tidy_restSaved (h : s.Tidy) (level : Nat) : (s.restSaved level).Tidy := by
  have hflush := (s.hoardFlush_keeps .refl (within?_self _)).tidy h
  unfold State.restSaved
  extract_lets a
  have ha : a.Tidy := by unfold a; split <;> assumption
  split <;> exact ha

theorem State.restShown_shows (h : s.Tidy) {level : Nat} (hl : level < 4) : (s.restShown level).Tidy ∧
    (s.restShown level).get MODE.RET = level ∧ (s.restShown level).get MODE.AWAKE = 0 := by
  have h1 : (s.put MODE.RET level).Tidy := State.tidy_put h
  have h2 : ((s.put MODE.RET level).put MODE.AWAKE 0).Tidy := State.tidy_put h1
  have hret : (s.put MODE.RET level).get MODE.RET = level := (State.get_put_self h (by decide)).trans (Nat.mod_eq_of_lt hl)
  have h3 : ((s.put MODE.RET level).put MODE.AWAKE 0).updMode.Tidy := State.tidy_updMode h2
  have hret3 : ((s.put MODE.RET level).put MODE.AWAKE 0).updMode.get MODE.RET = level := by
    rw [State.get_updMode h2 (by decide) (by decide) (by decide), State.get_put_other h1 (by decide) (by decide) (by decide), hret]
  have haw3 : ((s.put MODE.RET level).put MODE.AWAKE 0).updMode.get MODE.AWAKE = 0 := by
    rw [State.get_updMode h2 (by decide) (by decide) (by decide), State.get_put_self h1 (by decide)]
    rfl
  unfold State.restShown
  generalize ((s.put MODE.RET level).put MODE.AWAKE 0).updMode = a at *
  exact ⟨State.tidy_put h3, (State.get_put_other h3 (by decide) (by decide) (by decide)).trans hret3,
    (State.get_put_other h3 (by decide) (by decide) (by decide)).trans haw3⟩

theorem State.restLevel_lt (s : State) : s.restLevel < 4 := by
  have hone (p : Bool) : (if p then 2 else 1) < 4 := by cases p <;> decide
  exact hone _

/-- In rest with no wake under way the flash is not supplied. -/
theorem State.pinState_flash_rest (hrest : s.mode.resting = true) (hwaking : s.mode.waking = none) :
    s.pinState .fCsN = .unpowered := by
  have hcore : s.coreRuns = false := by simp [State.coreRuns, hrest, hwaking]
  have hmode : s.modeState .fCsN = .unpowered := if_neg (by rw [hcore]; decide)
  rw [State.pinState, hmode]
  split <;> rfl

theorem State.xoOk_coreStop (h : s.Tidy) : s.coreStop.Tidy ∧ s.coreStop.get CLK_STAT.XO_OK = 0 := by
  have h1 : (s.put CLK_STAT.XO_OK 0).Tidy := State.tidy_put h
  have h2 : ((s.put CLK_STAT.XO_OK 0).put CLK_STAT.PLL_LOCK 0).Tidy := State.tidy_put h1
  refine ⟨(s.coreStop_keeps .refl (within?_self _)).tidy h, ?_⟩
  exact (State.get_put_other h2 (by decide) (by decide) (by decide)).trans
    ((State.get_put_other h1 (by decide) (by decide) (by decide)).trans (State.get_put_self h (by decide)))

/-- The device rests. -/
theorem State.enterRest_shows (h : s.Tidy) {level : Nat} (hl : level < 4) : (s.enterRest level).mode.resting = true ∧
    (s.enterRest level).mode.ready = false ∧ (s.enterRest level).bit MODE.AWAKE = false ∧
    (s.enterRest level).get MODE.RET = level ∧ (s.enterRest level).bit CLK_STAT.XO_OK = false ∧
    (s.enterRest level).pinState .fCsN = .unpowered := by
  rw [State.enterRest_eq]
  have h1 := State.tidy_restSaved h level
  generalize s.restSaved level = a at *
  obtain ⟨h2, hxo⟩ := State.xoOk_coreStop h1
  generalize a.coreStop = b at *
  have hlose := b.loseBuffers_keeps level .refl (within?_self _)
  have hretain := (b.loseBuffers level).retain_keeps level .refl (within?_self _)
  have h3 := hretain.tidy (hlose.tidy h2)
  have hxo3 : ((b.loseBuffers level).retain level).get CLK_STAT.XO_OK = 0 := by
    rw [hretain.get_eq (by decide), hlose.get_eq (by decide), hxo]
  generalize (b.loseBuffers level).retain level = c at *
  obtain ⟨h4, hret, haw⟩ := State.restShown_shows h3 hl
  have hshown : Keeps (areasMask [.reg MODE.w]) c (c.restShown level) := 
    State.putBit_keeps _ _ _ (State.updMode_keeps _ (State.put_keeps _ _ _ (State.put_keeps _ _ _ .refl (by decide))
      (by decide)) (by decide)) (by decide)
  have hxo4 : (c.restShown level).get CLK_STAT.XO_OK = 0 := (hshown.get_eq (by decide)).trans hxo3
  generalize c.restShown level = d at *
  dsimp only
  have hend : ∀ v : State, Keeps (areasMask [.power, .reg PWR_STAT.w]) d.rested v → v.mode.resting = true ∧ v.mode.ready = false ∧
      v.bit MODE.AWAKE = false ∧ v.get MODE.RET = level ∧ v.bit CLK_STAT.XO_OK = false ∧ v.pinState .fCsN = .unpowered := by
    intro v hv
    have hmode : v.mode = d.rested.mode := hv.same (a := .mode) (by decide)
    have hrest : v.mode.resting = true := by rw [hmode]; rfl
    exact ⟨hrest, by rw [hmode]; rfl, bit_eq_of_get (n := 0) ((hv.get_eq (by decide)).trans haw), (hv.get_eq (by decide)).trans hret,
      bit_eq_of_get (n := 0) ((hv.get_eq (by decide)).trans hxo4), State.pinState_flash_rest hrest (by rw [hmode]; rfl)⟩
  split
  · exact hend _ .refl
  · exact hend _ (State.chgState_frame _ 1)

theorem exec_restEntry (h : s.restReady = true) : exec .restEntry s = .next (s.enterRest s.restLevel) :=
  congrArg Host.Outcome.next (if_pos h)

theorem exec_restEntryReversed {cause : Nat} (h : s.mode.resting = true ∧ s.mode.entering = true ∧ s.mode.waking = none ∧
    s.wakesFrom cause = true) : exec (.restEntryReversed cause) s = .next
      (({ s.latchCause cause with
          mode := { s.mode with waking := some cause }, pwr := (s.latchCause cause).pwr.cutPart } : State).xoStart) :=
  congrArg Host.Outcome.next (if_pos h)

/-- The causes that a rest wakes from are those of Table 5.7. -/
theorem State.cause_of_wakesFrom {c : Nat} (h : s.wakesFrom c = true) : c < 0x10 := by
  refine Nat.lt_of_not_le fun hle => ?_
  obtain ⟨n, rfl⟩ := Nat.exists_eq_add_of_le' hle
  exact Bool.false_ne_true h

theorem State.latchCause_shows (h : s.Tidy) {c : Nat} (hc : c < 0x10) : (s.latchCause c).get WAKE_CAUSE.CAUSE = c ∧
    (s.latchCause c).get WAKE_CAUSE.PREV = s.get WAKE_CAUSE.CAUSE := by
  have hlt : s.get WAKE_CAUSE.CAUSE < 0x10 := Nat.mod_lt _ (by decide)
  refine ⟨(State.get_put_self (State.tidy_put h) (by decide)).trans (Nat.mod_eq_of_lt hc), ?_⟩
  exact (State.get_put_other (State.tidy_put h) (by decide) (by decide) (by decide)).trans
    ((State.get_put_self h (by decide)).trans (Nat.mod_eq_of_lt hlt))

end Sys2Proof.Machine
end

section
/-! PROOFS. Wakes that end, and brown-outs (O8). -/

namespace Sys2Proof.Machine

open R

variable {s t u : State} {f g : Fn}

/-! ### The attempts of a boot -/

theorem State.boot_setFault (s : State) (slot code : Nat) : (s.setFault slot code).boot = s.boot :=
  (s.setFault_keeps slot code .refl (within?_self _)).same (a := .boot) (by decide)

/-- The next attempt leaves the rest of the boot engine. -/
theorem State.boot_tryOrder (s : State) (l : List (Nat × Bool)) : ∃ a o, (s.tryOrder l).boot =
    { s.boot with attempt := a, order := o, blocks := [], sig := none, loaded := false } := by
  induction l generalizing s with
  | nil => exact ⟨none, [], rfl⟩
  | cons p l ih =>
    obtain ⟨slot, trusted⟩ := p
    rw [State.tryOrder]
    dsimp only
    split
    · exact ih s
    · split
      · obtain ⟨a, o, h⟩ := ih (s.setFault slot (s.headFault (slotBase slot) 1))
        exact ⟨a, o, by rw [h, State.boot_setFault]⟩
      · exact ⟨_, _, rfl⟩

theorem State.boot_flashChannel (s : State) (pref : Nat) : ∃ a o, (s.flashChannel pref).boot =
    { s.boot with pref := pref, attempt := a, order := o, blocks := [], sig := none, loaded := false } :=
  State.boot_tryOrder ({ (s.put BOOT_FAULT.w 0).put BOOT_FBLK.w 0xFFFF with boot := { s.boot with pref := pref } } : State) _

/-- A word of a register, and a field of it. -/
theorem State.get_put_word (h : s.Tidy) (k v hi lo : Nat) : (s.put ⟨k, 15, 0⟩ v).get ⟨k, hi, lo⟩ =
    v % 0x10000 / 2 ^ lo % (⟨k, hi, lo⟩ : Fld).size := by
  change ((s.put ⟨k, 15, 0⟩ v).reg k).toNat / 2 ^ lo % _ = _
  rw [State.reg_put_word h, BitVec.toNat_ofNat]

/-- BOOT_STAT where the attempts of a boot begin. -/
theorem State.bootStatBegun_shows (h : s.Tidy) : ((s.put BOOT_STAT.w 1).put BOOT_STAT.SRC 3).Tidy ∧
    ((s.put BOOT_STAT.w 1).put BOOT_STAT.SRC 3).get BOOT_STAT.STAGE = 1 ∧
    ((s.put BOOT_STAT.w 1).put BOOT_STAT.SRC 3).get BOOT_STAT.SRC = 3 ∧
    ((s.put BOOT_STAT.w 1).put BOOT_STAT.SRC 3).bit BOOT_STAT.WARM_RESUME = false := by
  have h1 : (s.put BOOT_STAT.w 1).Tidy := State.tidy_put h
  refine ⟨State.tidy_put h1, ?_, State.get_put_self h1 (by decide), bit_eq_of_get (n := 0) ?_⟩
  · exact (State.get_put_other h1 (by decide) (by decide) (by decide)).trans (State.get_put_word h _ 1 2 0)
  · exact (State.get_put_other h1 (by decide) (by decide) (by decide)).trans (State.get_put_word h _ 1 13 13)

/-! ### The end of a wake -/

theorem exec_wakeReady_warm (readOk : Bool) (h : s.mode.resting = true ∧ s.mode.waking.isSome = true ∧ s.mode.entering = false ∧
    s.get MODE.RET ≠ 2 ∧ s.flint.tag = some s.tagNow) :
    exec (.wakeReady true readOk) s = .next (s.put BOOT_STAT.WARM_RESUME 1).becomeReady := by
  obtain ⟨hrest, hwaking, hentering, hret, htag⟩ := h
  change execWakeReady true readOk s = _
  rw [execWakeReady, if_pos ⟨hrest, hwaking⟩, if_neg (by simp [hentering]), if_pos hret, if_pos ⟨rfl, htag⟩]

/-- The slot of the last cold boot does not serve, and the wake goes on as a boot. -/
def State.deepLost (s : State) : State :=
  let s := s.put BOOT_STAT.WARM_RESUME 0
  let s : State := { s with
    mode := { s.mode with resting := false, entering := false, waking := none },
    boot := { s.boot with
      pikaGo := false, earlyOff := false, marten := false, attempt := none, deep := true, cfg := s.boot.cfgSaved.getD 1,
      identDone := false } }
  (s.put MODE.CUR 3).put BOOT_CFG.w s.boot.cfg

theorem State.deepReady_unread (s : State) : s.deepReady false =
    ((s.deepLost.put BOOT_STAT.w 1).put BOOT_STAT.SRC 3).flashChannel s.img.prefSlot := by
  unfold State.deepReady
  dsimp only
  rw [if_neg fun ⟨hread, _⟩ => Bool.false_ne_true hread]
  rfl

theorem State.deepReady_shows (h : s.Tidy) : (s.deepReady false).get MODE.CUR = 3 ∧ (s.deepReady false).mode.resting = false ∧
    (s.deepReady false).boot.marten = false ∧ (s.deepReady false).boot.deep = true ∧
    (s.deepReady false).get BOOT_STAT.STAGE = 1 ∧ (s.deepReady false).get BOOT_STAT.SRC = 3 ∧
    (s.deepReady false).bit BOOT_STAT.WARM_RESUME = false := by
  have h1 : (s.put BOOT_STAT.WARM_RESUME 0).Tidy := State.tidy_put h
  have hbase (b : Boot) (m : ModeEng) : ({ s.put BOOT_STAT.WARM_RESUME 0 with boot := b, mode := m } : State).Tidy := h1
  have h2 : s.deepLost.Tidy := State.tidy_put (State.tidy_put (hbase _ _))
  have hcur : s.deepLost.get MODE.CUR = 3 :=
    (State.get_put_ne _ _ (by decide)).trans (State.get_put_self (hbase _ _) (by decide))
  have hmode : s.deepLost.mode.resting = false ∧ s.deepLost.boot.marten = false ∧ s.deepLost.boot.deep = true := ⟨rfl, rfl, rfl⟩
  rw [State.deepReady_unread]
  generalize s.deepLost = a at *
  obtain ⟨hrest, hmarten, hdeep⟩ := hmode
  obtain ⟨-, hstage, hsrc, hwarm⟩ := State.bootStatBegun_shows h2
  have hcur2 : ((a.put BOOT_STAT.w 1).put BOOT_STAT.SRC 3).get MODE.CUR = 3 :=
    (State.get_put_ne _ _ (by decide)).trans ((State.get_put_ne _ _ (by decide)).trans hcur)
  have hkept : ((a.put BOOT_STAT.w 1).put BOOT_STAT.SRC 3).mode = a.mode ∧
    ((a.put BOOT_STAT.w 1).put BOOT_STAT.SRC 3).boot = a.boot := ⟨rfl, rfl⟩
  obtain ⟨hmode2, hboot2⟩ := hkept
  generalize (a.put BOOT_STAT.w 1).put BOOT_STAT.SRC 3 = b at *
  have hk := b.flashChannel_keeps s.img.prefSlot .refl (within?_self _)
  obtain ⟨_, _, hboot3⟩ := b.boot_flashChannel s.img.prefSlot
  have hmode3 : (b.flashChannel s.img.prefSlot).mode = b.mode := hk.same (a := .mode) (by decide)
  exact ⟨(hk.get_eq (by decide)).trans hcur2, by rw [hmode3, hmode2, hrest], by rw [hboot3, hboot2]; exact hmarten,
    by rw [hboot3, hboot2]; exact hdeep, (hk.get_eq (by decide)).trans hstage, (hk.get_eq (by decide)).trans hsrc,
    (State.bit_of_get_eq (hk.get_eq (by decide))).trans hwarm⟩

theorem exec_wakeReady_deep (supplyOk : Bool) (h : s.mode.resting = true ∧ s.mode.waking.isSome = true ∧
    s.mode.entering = false ∧ s.get MODE.RET = 2) : exec (.wakeReady supplyOk false) s = .next (s.deepReady false) := by
  obtain ⟨hrest, hwaking, hentering, hret⟩ := h
  change execWakeReady supplyOk false s = _
  rw [execWakeReady, if_pos ⟨hrest, hwaking⟩, if_neg (by simp [hentering]), if_neg (by simp [hret])]

/-! ### The host and the delayed wake -/

/-- The host's low is taken as its one resume. -/
def State.lowHeld (s : State) : State :=
  let s := s.put WAKE_MON.LEVEL 0
  { s with mode := { s.mode with lowTaken := true } }

theorem exec_hostResume {lowUs : Nat} (hcur : s.get MODE.CUR ≠ 0) (h : 50 ≤ lowUs ∧
    s.pins.porAsserted = false ∧ s.pins.test = false ∧ s.mode.lowTaken = false ∧ s.mode.driving = none) :
    exec (.hostResume lowUs) s = .next (s.lowHeld.wake 4) := by
  obtain ⟨hlow, hpor, htest, htaken, hdriving⟩ := h
  change execHostResume lowUs s = _
  rw [execHostResume, if_neg (by simp [hpor, htest]), if_neg hcur, if_neg (by simp [htaken, hdriving]; omega), if_pos hlow]
  rfl

theorem exec_slotWake {start : Nat} (h : s.dormouse = true ∧ s.nextActivity = some start ∧ start ≤ s.ktime + s.slotLead) :
    exec .slotWake s = .next (s.wake 1) := by
  obtain ⟨hdormouse, hnext, hdue⟩ := h
  change execSlotWake s = _
  rw [execSlotWake, hnext]
  exact congrArg Host.Outcome.next (if_pos ⟨hdormouse, hdue⟩)

theorem exec_delayedWakeStart {c : Nat} (h : s.mode.resting = true ∧ s.mode.delayed = some c ∧
    s.mode.delayedAt ≤ s.get VRES_MEAS.w) : exec .delayedWakeStart s = .next (s.wakeStart c) := by
  obtain ⟨hrest, hdelayed, hlevel⟩ := h
  change execDelayedWakeStart s = _
  rw [execDelayedWakeStart, hdelayed]
  exact congrArg Host.Outcome.next (if_pos ⟨hrest, hlevel⟩)

/-! ### Brown-outs -/

theorem exec_reservoirBrownout_rest (h : s.get VRES_MEAS.w < s.vStopMv ∧ s.coreRuns = true ∧ s.boot.startWait = false)
    (hrest : s.mode.resting = true) (hcur : s.get MODE.CUR ≠ 3) : exec .reservoirBrownout s =
      .next ((s.coreStop.raise1 jRESERVOIR_LOW).delayWake s.mode.waking s.vStopMv) := by
  obtain ⟨hlow, hcore, hwait⟩ := h
  change execReservoirBrownout s = _
  rw [execReservoirBrownout, if_pos ⟨hlow, hcore, by simp [hwait]⟩, if_neg hcur, if_pos hrest]

/-- A boot is lost. -/
def State.bootBrowned (s : State) : State :=
  let s : State := { s with boot := { s.boot with marten := false } }
  ((s.raise1 jRESERVOIR_LOW).endActivities 2 (some 2)).coreLost

theorem exec_reservoirBrownout_boot (h : s.get VRES_MEAS.w < s.vStopMv ∧ s.coreRuns = true ∧ s.boot.startWait = false ∧
    s.get MODE.CUR = 3) : exec .reservoirBrownout s = .next ((s.bootBrowned.bootEntry 5 true).chgState 3) := by
  obtain ⟨hlow, hcore, hwait, hcur⟩ := h
  change execReservoirBrownout s = _
  rw [execReservoirBrownout, if_pos ⟨hlow, hcore, by simp [hwait]⟩, if_pos hcur]
  rfl

theorem State.tidy_bootBrowned (h : s.Tidy) : s.bootBrowned.Tidy := by
  have h0 : ({ s with boot := { s.boot with marten := false } } : State).Tidy := h
  have hraise := (State.raise1_keeps _ jRESERVOIR_LOW .refl (within?_self _)).tidy h0
  have hend := (State.endActivities_keeps _ 2 (some 2) .refl (within?_self _)).tidy hraise
  exact (State.coreLost_keeps _ .refl (within?_self _)).tidy hend

theorem State.bootEntry_marten (s : State) (cause : Nat) (wait : Bool) : (s.bootEntry cause wait).boot.marten = false := by
  have hreset : (s.bootReset cause wait).boot.marten = false := rfl
  rw [State.bootEntry_eq]
  generalize s.bootReset cause wait = a at *
  exact (congrArg Boot.marten ((a.coreStart_keeps .refl (within?_self _)).same (a := .boot) (by decide)) : _).trans hreset

/-- A wake that must wait for the reservoir. -/
theorem State.delayWake_shows (h : s.Tidy) (c : Option Nat) (level : Nat) : (s.delayWake c level).mode.waking = none ∧
    (s.delayWake c level).mode.delayed = c ∧ (s.delayWake c level).mode.delayedAt = level + 100 ∧
    (s.delayWake c level).get PWR_STAT.CHG_STATE = 1 := by
  unfold State.delayWake
  have h1 : ({ s with mode := { s.mode with waking := none, delayed := c, delayedAt := level + 100 } } : State).Tidy := h
  rw [State.mode_chgState]
  exact ⟨rfl, rfl, rfl, State.state_chgState h1⟩

/-- Settles O8: SHUTDOWN by `State.shutdown_shows`, rests by `State.enterRest_shows`, wakes by `State.wake_shows` and
`State.becomeReady_shows`, a boot after a brown-out by `State.bootEntry_shows`. -/
theorem restAndWakeCommandsComplete : Obligations.RestAndWakeCommandsComplete := by
  refine ⟨.intro _ (fun s ⟨h, _⟩ => exec_modeCmdShutdown h) fun s hc ⟨_, hact, hlevel, hdrive⟩ => ?_,
    .intro _ (fun s h => exec_modeCmdRestNow h) fun s _ _ => rfl,
    .intro _ (fun s h => exec_restEntry h) fun s hc _ => State.enterRest_shows hc.tidy s.restLevel_lt,
    fun cause => .intro _ (fun s h => exec_restEntryReversed h) fun s hc ⟨_, _, _, hfrom⟩ => ?_,
    fun start => .intro _ (fun s ⟨_, _, _, _, _, h⟩ => exec_slotWake h)
      fun s hc ⟨hrest, hwaking, hdelayed, hvres, hcur, _, hnext, _⟩ => ?_,
    .intro _ (fun s ⟨_, _, _, _, _, h⟩ => congrArg Host.Outcome.next (if_pos h))
      fun s hc ⟨hrest, hcur, hwaking, hdelayed, hvres, hvddio⟩ => ?_,
    fun lowUs => .intro _ (fun s ⟨_, hcur, _, _, _, h⟩ => exec_hostResume hcur h)
      fun s hc ⟨hrest, hcur, hwaking, hdelayed, hvres, _⟩ => ?_,
    .intro _ (fun s _ => rfl) fun s hc h => ?_,
    fun readOk => .intro _ (fun s h => exec_wakeReady_warm readOk h) fun s hc _ => ?_,
    fun supplyOk => .intro _ (fun s h => exec_wakeReady_deep supplyOk h) fun s hc _ => State.deepReady_shows hc.tidy,
    fun c => .intro _ (fun s ⟨hrest, hdelayed, hlevel, _⟩ => exec_delayedWakeStart ⟨hrest, hdelayed, hlevel⟩)
      fun s hc ⟨_, _, _, hlt⟩ => ?_,
    .intro _ (fun s ⟨hlow, hcore, hwait, hrest, hcur⟩ => exec_reservoirBrownout_rest ⟨hlow, hcore, hwait⟩ hrest hcur)
      fun s hc _ => ?_,
    .intro _ (fun s h => exec_reservoirBrownout_boot h) fun s hc _ => ?_⟩
  case refine_1 =>
    have hbit (x : Fld) (hx : regIn (areasMask Area.access) x.key = false) : s.regAccess.bit x = s.bit x :=
      State.bit_of_get_eq (State.get_regAccess hx)
    have hpins : s.regAccess.pins = s.pins := (s.regAccess_keeps .refl (within?_self _)).same (a := .pins) (by decide)
    obtain ⟨hcur, hchg, hrest⟩ := State.shutdown_shows (f := .f0) (State.tidy_regAccess hc.tidy)
      ((hbit _ (by decide)).trans hact) ((hbit _ (by decide)).trans hlevel) (by rw [hpins, hdrive])
    exact ⟨hcur, hchg, hrest⟩
  case refine_2 =>
    obtain ⟨hcause, hprev⟩ := State.latchCause_shows hc.tidy (State.cause_of_wakesFrom hfrom)
    exact ⟨rfl, hcause, hprev, (OnlyRegs.put (by decide) _).trans ((OnlyRegs.put (by decide) _).trans (.of_regs rfl))⟩
  case refine_3 =>
    obtain ⟨hw, hcause, -⟩ := State.wake_shows hc.tidy ⟨hrest, by omega, hwaking, hdelayed, hvres⟩ (c := 1)
      (by simp [State.wakesFrom, hcur, hnext]) (by decide)
    exact ⟨hw, hcause⟩
  case refine_4 =>
    obtain ⟨hw, hcause, -⟩ := State.wake_shows hc.tidy ⟨hrest, hcur, hwaking, hdelayed, hvres⟩ (c := 2) hvddio (by decide)
    exact ⟨hw, hcause⟩
  case refine_5 =>
    have h1 : (s.put WAKE_MON.LEVEL 0).Tidy := State.tidy_put hc.tidy
    have hlevel : s.lowHeld.get WAKE_MON.LEVEL = 0 := State.get_put_self hc.tidy (by decide)
    have hmv : s.lowHeld.wakeMv = s.wakeMv :=
      congrArg (fun n => 2000 + 10 * n) (State.get_put_ne s (x := WAKE_MON.LEVEL) 0 (by decide))
    have hmeas : s.lowHeld.get VRES_MEAS.w = s.get VRES_MEAS.w := State.get_put_ne _ _ (by decide)
    have hcur' : s.lowHeld.get MODE.CUR = s.get MODE.CUR := State.get_put_ne _ _ (by decide)
    obtain ⟨hw, hcause, htaken⟩ := State.wake_shows (s := s.lowHeld) h1
      ⟨hrest, by rw [hcur']; exact hcur, hwaking, hdelayed, by rw [hmv, hmeas]; exact hvres⟩ (c := 4) rfl (by decide)
    have hk := s.lowHeld.wake_keeps 4 .refl (within?_self _)
    exact ⟨hw, hcause, bit_eq_of_get (n := 0) ((hk.get_eq (by decide)).trans hlevel), htaken.trans rfl⟩
  case refine_6 =>
    obtain ⟨hw, hcause, -⟩ := State.wake_shows hc.tidy h (c := 6) rfl (by decide)
    exact ⟨hw, hcause⟩
  case refine_7 =>
    have h1 : (s.put BOOT_STAT.WARM_RESUME 1).Tidy := State.tidy_put hc.tidy
    have hwarm : (s.put BOOT_STAT.WARM_RESUME 1).get BOOT_STAT.WARM_RESUME = 1 := State.get_put_self hc.tidy (by decide)
    generalize s.put BOOT_STAT.WARM_RESUME 1 = a at *
    obtain ⟨-, hready, hrest, haw, -⟩ := State.becomeReady_shows h1
    have hk := a.becomeReady_keeps .refl (within?_self _)
    exact ⟨hready, hrest, haw, bit_eq_of_get (n := 1) ((hk.get_eq (by decide)).trans hwarm)⟩
  case refine_8 =>
    obtain ⟨hw, hcause, hdelayed, -⟩ := State.wakeStart_shows hc.tidy hlt
    exact ⟨hw, hdelayed, hcause⟩
  case refine_9 =>
    obtain ⟨h1, -⟩ := State.xoOk_coreStop hc.tidy
    generalize s.coreStop = a at *
    have hset := State.fget_raise1_same (b := jRESERVOIR_LOW) h1.canon (by decide)
    have h2 : (a.raise1 jRESERVOIR_LOW).Tidy := State.tidy_raise1 h1
    generalize a.raise1 jRESERVOIR_LOW = b at *
    obtain ⟨hw, hdelayed, hat, hchg⟩ := State.delayWake_shows h2 s.mode.waking s.vStopMv
    have hk := b.delayWake_keeps s.mode.waking s.vStopMv .refl (within?_self _)
    exact ⟨hw, hdelayed, hat, hchg, (hk.fget_eq (x := INT_STAT1.RESERVOIR_LOW) (by decide)).trans hset⟩
  case refine_10 =>
    have h1 := State.tidy_bootBrowned hc.tidy
    generalize s.bootBrowned = a at *
    obtain ⟨h2, hcur, hcause, hwait, hready, -⟩ := State.bootEntry_shows h1 5 true
    have hmarten := a.bootEntry_marten 5 true
    generalize a.bootEntry 5 true = b at *
    obtain ⟨hboot, -, hmode, hcur'⟩ := b.chgState_boot 3
    rw [hboot, hmode, hcur']
    exact ⟨hcur, hcause, hwait, hmarten, hready, State.state_chgState h2⟩

end Sys2Proof.Machine
end

section
/-! PROOFS. The events of a cold boot (O5). -/

namespace Sys2Proof.Machine

open R

variable {s t u : State} {f g : Fn}

/-! ### The start -/

theorem State.get_recordCause (h : s.Tidy) {code : Nat} (hcode : code < 0x100) :
    (s.recordCause code).get HLT_RCAUSE.w = s.get HLT_RCAUSE.w % 0x100 * 0x100 + code := by
  have hput : (s.put HLT_RCAUSE.w (s.get HLT_RCAUSE.w % 0x100 * 0x100 + code)).get HLT_RCAUSE.w =
      s.get HLT_RCAUSE.w % 0x100 * 0x100 + code :=
    (State.get_put_self h (by decide)).trans (Nat.mod_eq_of_lt (b := 0x10000) (by omega))
  unfold State.recordCause
  generalize s.put HLT_RCAUSE.w (s.get HLT_RCAUSE.w % 0x100 * 0x100 + code) = a at *
  dsimp only
  have hk : Keeps (areasMask [.reg HLT_RTIME_L.w, .reg HLT_RTIME_H.w]) a (a.put32 HLT_RTIME_L.w 0) :=
    State.put32_keeps _ _ _ .refl (by decide) (by decide)
  refine Eq.trans ((State.noteRtime_keeps _ .refl (within?_self _)).get_eq (by decide)) ?_
  exact Eq.trans (hk.get_eq (by decide)) hput

/-- The cause is recorded, and a new tag key drawn. -/
def State.coldBegun (s : State) (secretOk : Bool) : State :=
  let (w, s) := (s.recordCause s.boot.cause).fresh
  { s with
    hlt := { s.hlt with shutMark := false }, flint := { s.flint with secretOk := secretOk, tagKey := w.toNat },
    boot := { s.boot with marten := false, pikaGo := false, pikaVerified := false } }

/-- Configuration is read, and the attempts may begin. -/
def State.coldRead (s : State) (prefOk cfgOk calOk : Bool) : State :=
  ((((s.put BOOT_TIME_M.w 0xFFFF).put BOOT_TIME_R.w 0xFFFF).readConfig prefOk cfgOk calOk).put BOOT_STAT.w 1).put BOOT_STAT.SRC 3

theorem exec_coldBootStart {burrowOk secretOk prefOk cfgOk calOk : Bool} (h : s.boot.hedgehog = true ∧
    s.get MODE.CUR = 3 ∧ s.get BOOT_STAT.STAGE = 0 ∧ s.boot.startWait = false ∧ s.boot.attempt = none ∧ 2 < s.boot.cause) :
    exec (.coldBootStart burrowOk secretOk prefOk cfgOk calOk) s = .next
      (((s.coldBegun secretOk).coldRead prefOk cfgOk calOk).prefReturn.showIdent.flashChannel
        ((s.coldBegun secretOk).coldRead prefOk cfgOk calOk).img.prefSlot) := by
  obtain ⟨hhog, hcur, hstage, hwait, hattempt, hcause⟩ := h
  have hfound : s.foundCause burrowOk = s.boot.cause := if_neg (by omega)
  change execColdBootStart burrowOk secretOk prefOk cfgOk calOk s = _
  rw [execColdBootStart, if_pos ⟨hhog, hcur, hstage, by simp [hwait], hattempt⟩, hfound]
  dsimp only
  rw [if_neg (by omega)]
  rfl

theorem State.coldBegun_shows (h : s.Tidy) (secretOk : Bool) (hcause : s.boot.cause < 0x100) :
    (s.coldBegun secretOk).Tidy ∧
    (s.coldBegun secretOk).get HLT_RCAUSE.w = s.get HLT_RCAUSE.w % 0x100 * 0x100 + s.boot.cause ∧
    (s.coldBegun secretOk).flint.secretOk = secretOk ∧ (s.coldBegun secretOk).img = s.img ∧
    (s.coldBegun secretOk).boot.cfgSaved = s.boot.cfgSaved := by
  have hrec := s.recordCause_keeps s.boot.cause .refl (within?_self _)
  have h1 := hrec.tidy h
  have hget := State.get_recordCause h hcause
  have himg : (s.recordCause s.boot.cause).img = s.img := hrec.same (a := .image) (by decide)
  have hboot : (s.recordCause s.boot.cause).boot = s.boot := hrec.same (a := .boot) (by decide)
  unfold State.coldBegun
  generalize s.recordCause s.boot.cause = a at *
  have hsaved : a.boot.cfgSaved = s.boot.cfgSaved := by rw [hboot]
  exact ⟨h1, hget, rfl, himg, hsaved⟩

theorem State.coldRead_frame (s : State) (prefOk cfgOk calOk : Bool) : Keeps (areasMask [.boot, .image, .frontEnd,
    .reg BOOT_TIME_M.w, .reg BOOT_TIME_R.w, .reg BOOT_CFG.w, .reg BOOT_STAT.w]) s (s.coldRead prefOk cfgOk calOk) :=
  State.put_keeps _ _ _ (State.put_keeps _ _ _ (State.readConfig_keeps _ _ _ _ (State.put_keeps _ _ _
    (State.put_keeps _ _ _ .refl (by decide)) (by decide)) (by decide)) (by decide)) (by decide)

/-- What the configuration gives the attempts. -/
theorem State.coldRead_shows (s : State) (prefOk cfgOk calOk : Bool) :
    (s.coldRead prefOk cfgOk calOk).img.prefSlot = (if prefOk then s.img.prefSlot else 0) ∧
    (s.coldRead prefOk cfgOk calOk).boot.cfgSaved = (if cfgOk then s.boot.cfgSaved else none) := by
  have himg : (s.coldRead prefOk cfgOk calOk).img = if prefOk then s.img else { s.img with prefSlot := 0, prefOnce := false } := rfl
  rw [himg]
  exact ⟨by cases prefOk <;> rfl, rfl⟩

/-- The attempts begin. -/
theorem State.coldTried_shows (s : State) (pref : Nat) :
    (s.prefReturn.showIdent.flashChannel pref).get HLT_RCAUSE.w = s.get HLT_RCAUSE.w ∧
    (s.prefReturn.showIdent.flashChannel pref).flint = s.flint ∧ (s.prefReturn.showIdent.flashChannel pref).boot.pref = pref ∧
    (s.prefReturn.showIdent.flashChannel pref).boot.cfgSaved = s.boot.cfgSaved := by
  have hret := s.prefReturn_keeps .refl (within?_self _)
  have hid := s.prefReturn.showIdent_keeps .refl (within?_self _)
  have hboot : s.prefReturn.showIdent.boot = s.boot :=
    Eq.trans (hid.same (a := .boot) (by decide)) (hret.same (a := .boot) (by decide))
  have hget : s.prefReturn.showIdent.get HLT_RCAUSE.w = s.get HLT_RCAUSE.w :=
    (hid.get_eq (by decide)).trans (hret.get_eq (by decide))
  have hflint : s.prefReturn.showIdent.flint = s.flint :=
    Eq.trans (hid.same (a := .flint) (by decide)) (hret.same (a := .flint) (by decide))
  generalize s.prefReturn.showIdent = a at *
  have hk := a.flashChannel_keeps pref .refl (within?_self _)
  obtain ⟨_, _, hb⟩ := a.boot_flashChannel pref
  exact ⟨(hk.get_eq (by decide)).trans hget, Eq.trans (hk.same (a := .flint) (by decide)) hflint, by rw [hb],
    by rw [hb, hboot]⟩

/-! ### Blocks, signatures and Pika -/

/-- A block has been hashed. -/
def State.hashed (s : State) (slot idx : Nat) : State :=
  { s with boot := { s.boot with blocks := s.boot.blocks ++ [(idx, s.blockGood (s.streamBase slot) idx)] } }

/-- Before the signature has passed nothing is compared. -/
theorem State.compare_unsigned {slot : Nat} (h : s.boot.attempt = some (slot, true)) (hsig : s.boot.sig ≠ some true) :
    s.compare = s := by
  unfold State.compare
  rw [h]
  dsimp only
  rw [if_pos hsig, if_pos hsig]
  split <;> rfl

theorem exec_imageBlockArrives {idx slot : Nat} (h : s.streaming = true ∧ idx = s.boot.blocks.length ∧
    s.boot.attempt = some (slot, true) ∧ s.boot.sig = none) : exec (.imageBlockArrives idx) s = .next (s.hashed slot idx) := by
  obtain ⟨hstream, hidx, hattempt, hsig⟩ := h
  have hcompare : (s.hashed slot idx).compare = s.hashed slot idx :=
    State.compare_unsigned (s := s.hashed slot idx) hattempt (by rw [show (s.hashed slot idx).boot.sig = none from hsig]; simp)
  change execImageBlockArrives idx s = _
  rw [execImageBlockArrives, hattempt]
  exact congrArg Host.Outcome.next ((if_pos ⟨hstream, hidx⟩).trans hcompare)

/-- The signature has passed. -/
def State.sigPassed (s : State) : State := { s with boot := { s.boot with sig := some true } }

theorem exec_signatureCheckDone_good {slot : Nat} (h : s.boot.attempt = some (slot, true) ∧ s.boot.loaded = false ∧
    s.boot.sig = none ∧ s.boot.blocks = [] ∧ s.manBlocks (slotBase slot) ≠ 0 ∧ s.signFault (slotBase slot) = 0) :
    exec .signatureCheckDone s = .next s.sigPassed := by
  obtain ⟨hattempt, hloaded, hsig, hblocks, hmany, hgood⟩ := h
  have hstream : s.streaming = true := by simp [State.streaming, hattempt, hloaded]
  have hbase : s.streamBase slot = slotBase slot := if_neg (by simp [hloaded])
  have hmany' : s.sigPassed.manBlocks (slotBase slot) ≠ 0 := hmany
  have hcompare : s.sigPassed.compare = s.sigPassed := by
    unfold State.compare
    rw [show s.sigPassed.boot.attempt = some (slot, true) from hattempt]
    dsimp only
    rw [if_neg (by rw [show s.sigPassed.boot.loaded = false from hloaded]; simp), if_pos rfl, if_neg (by simp [State.sigPassed]),
      show s.sigPassed.boot.blocks = [] from hblocks]
    exact if_neg (by simpa using hmany'.symm)
  change execSignatureCheckDone s = _
  rw [execSignatureCheckDone, hattempt]
  dsimp only
  rw [if_pos ⟨hstream, hsig⟩, hbase, if_pos hgood]
  exact congrArg Host.Outcome.next hcompare

theorem exec_signatureCheckDone_bad {slot : Nat} (h : s.boot.attempt = some (slot, true) ∧ s.boot.loaded = false ∧
    s.boot.sig = none ∧ s.signFault (slotBase slot) ≠ 0) :
    exec .signatureCheckDone s = .next (s.failAttempt slot (s.signFault (slotBase slot))) := by
  obtain ⟨hattempt, hloaded, hsig, hbad⟩ := h
  have hstream : s.streaming = true := by simp [State.streaming, hattempt, hloaded]
  have hbase : s.streamBase slot = slotBase slot := if_neg (by simp [hloaded])
  change execSignatureCheckDone s = _
  rw [execSignatureCheckDone, hattempt]
  dsimp only
  rw [if_pos ⟨hstream, hsig⟩, hbase, if_neg hbad, if_neg (by simp [hloaded])]

/-- The start-up calibration of a Marten that is held ends. -/
def State.martenCut (s : State) : State := (s.put BOOT_STAT.STAGE 1).dropCal.showMaintain

/-- Marten is held in reset. -/
def State.martenHeld (s : State) : State :=
  { s.martenCut with boot := { s.martenCut.boot with marten := false }, hlt := { s.martenCut.hlt with hbArmed := false } }

theorem State.holdMarten_of (h : s.boot.marten = true) : s.holdMarten = s.martenHeld := if_pos h

theorem State.martenCut_frame (s : State) : Keeps (areasMask [.frontEnd, .reg BOOT_STAT.w, .reg CLK_STAT.w, .reg FES_STAT.w,
    .reg FES_RSSI.w, .reg SYN_STAT.w, .reg CAL_STAT.w, .reg MODE.w]) s s.martenCut :=
  State.showMaintain_keeps _ (State.dropCal_keeps _ (State.put_keeps _ _ _ .refl (by decide)) (by decide)) (by decide)

theorem State.boot_martenCut (s : State) : s.martenCut.boot = s.boot := s.martenCut_frame.same (a := .boot) (by decide)

theorem State.holdMarten_marten (s : State) : s.holdMarten.boot.marten = false ∧ s.holdMarten.boot.order = s.boot.order := by
  by_cases h : s.boot.marten = true
  · rw [State.holdMarten_of h]
    exact ⟨rfl, (congrArg Boot.order s.boot_martenCut : s.martenCut.boot.order = _)⟩
  · rw [State.holdMarten, if_neg h]
    exact ⟨by simpa using h, rfl⟩

theorem State.slotFault_setFault (h : s.Tidy) {slot code : Nat} (hslot : slot < 2) (hcode : code < 0x100) :
    (s.setFault slot code).slotFault slot = code := by
  have hself (x : Fld) (hx : x.sound = true) (hw : x.size = 0x100) : (s.put x code).get x = code := by
    rw [State.get_put_self h hx, hw, Nat.mod_eq_of_lt hcode]
  unfold State.setFault State.slotFault
  rw [if_neg (by omega)]
  split
  · exact hself _ (by decide) (by decide)
  · exact hself _ (by decide) (by decide)

/-- The last attempt fails. -/
theorem State.failAttempt_last (h : s.Tidy) {slot code : Nat} (hslot : slot < 2) (hcode : code < 0x100) (horder : s.boot.order = []) :
    (s.failAttempt slot code).boot.attempt = none ∧ (s.failAttempt slot code).boot.marten = false ∧
    (s.failAttempt slot code).slotFault slot = code := by
  have h1 := State.slotFault_setFault h hslot hcode
  have horder1 : (s.setFault slot code).boot.order = [] := by rw [State.boot_setFault, horder]
  unfold State.failAttempt
  generalize s.setFault slot code = a at *
  obtain ⟨hmarten, horder2⟩ := a.holdMarten_marten
  have hk := a.holdMarten_keeps .refl (within?_self _)
  have hfault : a.holdMarten.slotFault slot = a.slotFault slot := by
    unfold State.slotFault
    split
    · exact hk.get_eq (by decide)
    · exact hk.get_eq (by decide)
  dsimp only
  rw [horder2, horder1]
  generalize a.holdMarten = b at *
  exact ⟨rfl, hmarten, hfault.trans h1⟩

theorem State.signFault_lt (s : State) (base : Nat) : s.signFault base < 0x100 := by
  unfold State.signFault
  dsimp only
  split_ifs <;> decide

theorem exec_qspiTimeout {slot : Nat} {tr : Bool} (h : s.boot.attempt = some (slot, tr) ∧ s.boot.loaded = true ∧
    s.streaming = true) : exec .qspiTimeout s = .next s.noteFlash.pikaGone := by
  obtain ⟨hattempt, hloaded, hstream⟩ := h
  change execQspiTimeout s = _
  rw [execQspiTimeout, if_pos hstream, hattempt]
  exact congrArg Host.Outcome.next (if_pos hloaded)

end Sys2Proof.Machine
end

section
/-! PROOFS. Marten's release, and the bundle (O5). -/

namespace Sys2Proof.Machine

open R

variable {s t u : State} {f g : Fn}

/-! ### What the checks of an image read -/

theorem State.le_congr (h : t.mem = s.mem) (a n : Nat) : t.le a n = s.le a n := by
  induction n generalizing a with
  | zero => rfl
  | succ n ih => rw [State.le, State.le, ih, State.byte_of_mem h]

theorem State.headFault_congr (h : t.mem = s.mem) (base kind : Nat) : t.headFault base kind = s.headFault base kind := by
  simp only [State.headFault, State.manBlocks, State.manSigner, State.le_congr h, State.bytes_congr h]
  congr

theorem State.signFault_congr (h : t.mem = s.mem) (hregs : t.reg FLINT_OTP.w.key = s.reg FLINT_OTP.w.key)
    (hflint : t.flint.hashes = s.flint.hashes) (base : Nat) : t.signFault base = s.signFault base := by
  have hset (x : Fld) (hx : x.key = FLINT_OTP.w.key) : t.get x = s.get x := by rw [State.get, State.get, hx, hregs]
  simp only [State.signFault, State.manBlocks, State.manSigner, State.le_congr h, State.bytes_congr h, State.bitOf,
    hset FLINT_OTP.HASH_SET rfl, hset FLINT_OTP.REVOKED rfl, hflint]
  congr

theorem State.blockGood_congr (h : t.mem = s.mem) (base i : Nat) : t.blockGood base i = s.blockGood base i := by
  simp only [State.blockGood, State.bytes_congr h]

/-- The check of an image reads memory and the vault. -/
theorem State.imageFault_congr (h : t.mem = s.mem) (hregs : t.reg FLINT_OTP.w.key = s.reg FLINT_OTP.w.key)
    (hflint : t.flint.hashes = s.flint.hashes) (base kind : Nat) : t.imageFault base kind = s.imageFault base kind := by
  have hgood : t.blockGood base = s.blockGood base := funext fun i => State.blockGood_congr h base i
  simp only [State.imageFault, State.headFault_congr h, State.signFault_congr h hregs hflint, State.manBlocks, State.le_congr h,
    hgood]
  congr

/-! ### Marten -/

/-- The stage and the source at the release. -/
def State.releaseShown (s : State) (slot : Nat) : State :=
  let (w, s) := s.fresh
  let s := ((s.put BOOT_TIME_M.w w.toNat).put BOOT_STAT.STAGE 2).put BOOT_STAT.SRC slot
  s.put MODE.CUR 3

/-- The image runs. -/
def State.releaseRun (s : State) (slot : Nat) : State :=
  let s := (s.showVersion IMG_RUN_VER.w.key (slotBase slot)).put IMG_EPOCH.MARTEN (s.manEpoch (slotBase slot))
  let s := (s.loadTable (slotBase slot)).closeBootWindow
  { s with
    boot := { s.boot with marten := true }, hlt := { s.hlt with hbArmed := true }, mode := { s.mode with ready := false } }

/-- The start-up calibration is decided. -/
def State.releaseCal (s : State) : State :=
  let why := s.calWhy
  let s := (s.put BOOT_STAT.CAL_WHY why).showCalRec
  if why = 0 then s else s.calStart 0x7F false

theorem exec_martenRelease {slot : Nat} {tr : Bool} (h : s.boot.attempt = some (slot, tr) ∧ s.boot.marten = false ∧
    s.mayRelease slot tr = true) :
    exec .martenRelease s = .next ((s.releaseShown slot).releaseRun slot).releaseCal := by
  obtain ⟨hattempt, hmarten, hmay⟩ := h
  change execMartenRelease s = _
  rw [execMartenRelease, hattempt]
  exact congrArg Host.Outcome.next (if_pos ⟨by simp [hmarten], hmay⟩)

theorem State.releaseShown_shows (h : s.Tidy) {slot : Nat} (hslot : slot < 3) : (s.releaseShown slot).Tidy ∧
    (s.releaseShown slot).get BOOT_STAT.STAGE = 2 ∧ (s.releaseShown slot).get BOOT_STAT.SRC = slot := by
  have h0 : ({ s with freeCtr := s.freeCtr + 1 } : State).Tidy := h
  have h1 (w : Nat) := State.tidy_put h0 (x := BOOT_TIME_M.w) (v := w)
  have h2 (w : Nat) := State.tidy_put (h1 w) (x := BOOT_STAT.STAGE) (v := 2)
  have h3 (w : Nat) := State.tidy_put (h2 w) (x := BOOT_STAT.SRC) (v := slot)
  refine ⟨State.tidy_put (h3 _), ?_, ?_⟩
  · exact (State.get_put_ne _ _ (by decide)).trans ((State.get_put_other (h2 _) (by decide) (by decide) (by decide)).trans
      (State.get_put_self (h1 _) (by decide)))
  · exact (State.get_put_ne _ _ (by decide)).trans ((State.get_put_self (h2 _) (by decide)).trans
      (Nat.mod_eq_of_lt (b := 4) (by omega)))

theorem State.releaseRun_shows (h : s.Tidy) (slot : Nat) : (s.releaseRun slot).Tidy ∧ (s.releaseRun slot).boot.marten = true ∧
    (s.releaseRun slot).hlt.hbArmed = true ∧ (s.releaseRun slot).mode.ready = false ∧
    (s.releaseRun slot).get BOOT_STAT.STAGE = s.get BOOT_STAT.STAGE ∧
    (s.releaseRun slot).get BOOT_STAT.SRC = s.get BOOT_STAT.SRC := by
  unfold State.releaseRun
  extract_lets a b
  have ha : Keeps (areasMask [.reg IMG_RUN_VER.w, .reg IMG_RUN_PATCH.w, .reg IMG_RUN_BUILD_L.w, .reg IMG_RUN_BUILD_H.w,
      .reg IMG_EPOCH.w]) s a :=
    State.put_keeps _ _ _ (State.showVersion_keeps _ _ _ .refl (by decide) (by decide) (by decide) (by decide)) (by decide)
  have hload : Keeps (areasMask [.boot]) a (a.loadTable (slotBase slot)) := State.loadTable_keeps _ _ .refl (by decide)
  have hb := (a.loadTable (slotBase slot)).closeBootWindow_keeps .refl (within?_self _)
  have htb : b.Tidy := hb.tidy (hload.tidy (ha.tidy h))
  have hget (x : Fld) (hx : x.key = BOOT_STAT.w.key) : b.get x = s.get x :=
    (hb.get_eq (by rw [hx]; decide)).trans ((hload.get_eq (by rw [hx]; decide)).trans (ha.get_eq (by rw [hx]; decide)))
  clear_value b
  exact ⟨htb, rfl, rfl, rfl, hget _ rfl, hget _ rfl⟩

theorem State.releaseCal_shows (h : s.Tidy) : s.releaseCal.boot = s.boot ∧ s.releaseCal.hlt = s.hlt ∧
    s.releaseCal.mode = s.mode ∧ s.releaseCal.get BOOT_STAT.STAGE = s.get BOOT_STAT.STAGE ∧
    s.releaseCal.get BOOT_STAT.SRC = s.get BOOT_STAT.SRC := by
  have hstage : (s.put BOOT_STAT.CAL_WHY s.calWhy).get BOOT_STAT.STAGE = s.get BOOT_STAT.STAGE :=
    State.get_put_other h (by decide) (by decide) (by decide)
  have hsrc : (s.put BOOT_STAT.CAL_WHY s.calWhy).get BOOT_STAT.SRC = s.get BOOT_STAT.SRC :=
    State.get_put_other h (by decide) (by decide) (by decide)
  have hput : Keeps (areasMask [.reg BOOT_STAT.w]) s (s.put BOOT_STAT.CAL_WHY s.calWhy) := State.put_keeps _ _ _ .refl (by decide)
  unfold State.releaseCal
  dsimp only
  generalize s.put BOOT_STAT.CAL_WHY s.calWhy = a at *
  have hrec := a.showCalRec_keeps .refl (within?_self _)
  have hend : ∀ v : State, Keeps (areasMask [.frontEnd, .openValues, .reg CLK_STAT.w, .reg MODE.w, .reg FES_STAT.w, .reg CAL_STAT.w])
      a.showCalRec v → v.boot = s.boot ∧ v.hlt = s.hlt ∧ v.mode = s.mode ∧
      v.get BOOT_STAT.STAGE = s.get BOOT_STAT.STAGE ∧ v.get BOOT_STAT.SRC = s.get BOOT_STAT.SRC := by
    intro v hv
    refine ⟨?_, ?_, ?_, ?_, ?_⟩
    · exact Eq.trans (hv.same (a := .boot) (by decide)) (Eq.trans (hrec.same (a := .boot) (by decide)) (hput.same (a := .boot) (by decide)))
    · exact Eq.trans (hv.same (a := .health) (by decide)) (Eq.trans (hrec.same (a := .health) (by decide))
        (hput.same (a := .health) (by decide)))
    · exact Eq.trans (hv.same (a := .mode) (by decide)) (Eq.trans (hrec.same (a := .mode) (by decide)) (hput.same (a := .mode) (by decide)))
    · exact (hv.get_eq (by decide)).trans ((hrec.get_eq (by decide)).trans hstage)
    · exact (hv.get_eq (by decide)).trans ((hrec.get_eq (by decide)).trans hsrc)
  split
  · exact hend _ .refl
  · exact hend _ (State.calStart_keeps _ 0x7F false .refl (by decide))

theorem exec_hedgehogFault {slot : Nat} (h : s.boot.attempt = some (slot, true) ∧ s.boot.marten = true ∧
    s.boot.loaded = false) : exec .hedgehogFault s = .next
      { (s.put BOOT_STAT.EARLY_REDO 1).martenHeld with
        boot := { (s.put BOOT_STAT.EARLY_REDO 1).martenHeld.boot with earlyOff := true } } := by
  obtain ⟨hattempt, hmarten, hloaded⟩ := h
  change execHedgehogFault s = _
  rw [execHedgehogFault, hattempt]
  dsimp only
  rw [if_pos ⟨hmarten, by simp [hloaded]⟩, State.holdMarten_of (s := s.put BOOT_STAT.EARLY_REDO 1) hmarten]

/-! ### The identity key -/

/-- The identity slot is programmed. -/
def State.identMade (s : State) (pub : List Word) : State := { s with
  boot := { s.boot with identDone := true }, flint := { s.flint with identBlank := false, identPub := pub.take 32 } }

theorem exec_identityKeyGenerate {pub : List Word} {slot : Nat} (h : s.boot.attempt = some (slot, true) ∧
    s.boot.marten = true ∧ s.boot.loaded = true ∧ s.get BOOT_STAT.STAGE = 2 ∧ s.flint.identBlank = true ∧
    s.flint.secretOk = true ∧ s.boot.identDone = false) :
    exec (.identityKeyGenerate true pub) s = .next (s.identMade pub).showIdent := by
  obtain ⟨hattempt, hmarten, hloaded, hstage, hblank, hsecret, hdone⟩ := h
  change execIdentityKeyGenerate true pub s = _
  rw [execIdentityKeyGenerate, hattempt]
  exact congrArg Host.Outcome.next (if_pos ⟨hmarten, hloaded, hstage, hblank, hsecret, by simp [hdone]⟩)

/-- Words set in registers leave the others. -/
theorem State.reg_setRegs_ne {ι : Type} (key : ι → Nat) (w : ι → Word) {k : Nat} (l : List ι) (h : ∀ i ∈ l, k ≠ key i)
    (s : State) : (l.foldl (fun s i => s.setReg (key i) (w i)) s).reg k = s.reg k := by
  induction l generalizing s with
  | nil => rfl
  | cons i l ih =>
    exact (ih (fun j hj => h j (List.mem_cons_of_mem _ hj)) _).trans (State.reg_setReg_ne _ _ (h i List.mem_cons_self))

/-- Whether the identity key shows. -/
def State.identShown (s : State) : Bool := s.flint.secretOk && s.flint.identPub != []

/-- The words of the identity key. -/
def State.identWord (s : State) (i : Nat) : Word := if s.identShown then s.flint.identPub.getD i 0 else 0

theorem State.showIdent_eq (s : State) : s.showIdent = (List.range 32).foldl
    (fun t i => t.setReg (FLINT_IDPUB.w i).key (s.identWord i)) (s.putBit FLINT_STAT.IDENT_OK s.identShown) := rfl

theorem State.showIdent_shows (h : s.Tidy) : s.showIdent.flint = s.flint ∧
    s.showIdent.bit FLINT_STAT.IDENT_OK = s.identShown := by
  have hk := s.showIdent_keeps .refl (within?_self _)
  refine ⟨hk.same (a := .flint) (by decide), ?_⟩
  have ha : (s.putBit FLINT_STAT.IDENT_OK s.identShown).bit FLINT_STAT.IDENT_OK = s.identShown := by
    have hget : (s.putBit FLINT_STAT.IDENT_OK s.identShown).get FLINT_STAT.IDENT_OK = _ := State.get_put_self h (by decide)
    refine (bit_eq_of_get hget).trans ?_
    cases s.identShown <;> rfl
  rw [State.showIdent_eq]
  refine (State.bit_of_get_eq ?_).trans ha
  refine congrArg (fun w : Word => w.toNat / 2 ^ FLINT_STAT.IDENT_OK.lo % FLINT_STAT.IDENT_OK.size) ?_
  refine State.reg_setRegs_ne (fun i => (FLINT_IDPUB.w i).key) _ _ (fun i _ => ?_) _
  change 0x580 ≠ 0x5A0 + i
  omega

/-! ### The bundle -/

/-- The bundle's turn is over. -/
def State.bundleTaken (s : State) : State := { s with boot := { s.boot with bundleDone := true } }

/-- A boot in which a bundle stands that has not been looked at. -/
abbrev State.bundleDue (s : State) (slot : Nat) : Prop := s.boot.attempt = some (slot, true) ∧ s.boot.marten = true ∧
  s.boot.loaded = true ∧ s.get BOOT_STAT.STAGE = 2 ∧ s.boot.bundleDone = false ∧ s.boot.reload = false ∧
  s.boot.deep = false ∧ s.mode.resting = false ∧ s.hasBundle (slotBase slot) = true

theorem exec_bundleApply {slot : Nat} {readOk : Bool} (h : s.bundleDue slot) : exec (.bundleApply readOk) s = .next
      (if readOk = true ∧ s.bundleTaken.imageFault (s.bundleBase (slotBase slot)) 4 = 1 then s.bundleTaken.bundleRun
          (s.bundleBase (slotBase slot) + 0x1000) (s.bundleTaken.manBlocks (s.bundleBase (slotBase slot)) * 0x200)
       else { s.bundleTaken with boot := { s.bundleTaken.boot with eventDue := true } }) := by
  obtain ⟨hattempt, hmarten, hloaded, hstage, hdone, hreload, hdeep, hrest, hhas⟩ := h
  change execBundleApply readOk s = _
  rw [execBundleApply, hattempt]
  dsimp only
  rw [if_pos ⟨hmarten, hloaded, hstage, by simp [hdone], by simp [hreload], by simp [hdeep], by simp [hrest], hhas⟩]
  rfl

/-- The row of VRES_IDLE in the table of its page. -/
def vresIdleDef : RegDef := ⟨0x384, 80, 255, 0, 0, 0⟩

theorem regDef_vresIdle : regDef? VRES_IDLE.w.key = some vresIdleDef := by decide

theorem ranges_vresIdle : ((rangesA ++ rangesB ++ rangesC).filter fun r => r.1.key == VRES_IDLE.w.key) =
    [(VRES_IDLE.IDLE, 0, 160)] := by decide

theorem legalWord_vresIdle {v : Nat} (hv : v ≤ 160) : legalWord .f0 VRES_IDLE.w.key (BitVec.ofNat 16 v) = true := by
  have hof : VRES_IDLE.IDLE.of (BitVec.ofNat 16 v) = v := by
    change (BitVec.ofNat 16 v).toNat / 2 ^ 0 % 2 ^ 8 = v
    rw [BitVec.toNat_ofNat]
    omega
  have hextra : extraLegal .f0 VRES_IDLE.w.key (BitVec.ofNat 16 v) = true := by
    simp (decide := true) only [extraLegal, if_false]
  rw [legalWord_eq_filter, ranges_vresIdle, hextra]
  simp only [List.all_cons, List.all_nil, hof, Bool.and_true, Bool.and_eq_true, decide_eq_true_eq]
  omega

/-- The field holds what is written. -/
theorem vresIdle_merge (old v : Word) (locked : Bool) : (vresIdleDef.merge old v locked).toNat % 0x100 = v.toNat % 0x100 := by
  have hand : vresIdleDef.merge old v locked &&& BitVec.ofNat 16 0xFF = v &&& BitVec.ofNat 16 0xFF := by
    rw [RegDef.merge, show vresIdleDef.rw = 0xFF from rfl, show vresIdleDef.rwl = 0 from rfl, show vresIdleDef.w1c = 0 from rfl]
    cases locked
    all_goals
      ext i hi
      simp only [BitVec.getElem_and, BitVec.getElem_or, BitVec.getElem_not, Bool.false_eq_true, if_false, if_true]
      cases (BitVec.ofNat 16 0xFF)[i] <;> simp
  have hnat := congrArg BitVec.toNat hand
  simp only [BitVec.toNat_and] at hnat
  rwa [show (BitVec.ofNat 16 0xFF).toNat = 2 ^ 8 - 1 from rfl, Nat.and_two_pow_sub_one_eq_mod,
    Nat.and_two_pow_sub_one_eq_mod] at hnat

/-- VRES_IDLE set by an entry, with the error code as it was. -/
def State.idleSet (s : State) (v : Word) : State :=
  ((s.setErr .f0 0).setReg VRES_IDLE.w.key (vresIdleDef.merge ((s.setErr .f0 0).reg VRES_IDLE.w.key) v
    ((s.setErr .f0 0).bit PART_STAT.LOCKED))).setErr .f0 (s.fget .f0 FN_ERR.CODE)

theorem State.bundleEntry_vresIdle (h : s.Tidy) {v : Nat} (hv : v ≤ 160) :
    s.bundleEntry .f0 3 0x84 (BitVec.ofNat 16 v) = s.idleSet (BitVec.ofNat 16 v) := by
  have hserve : gate3 .f0 VRES_IDLE.w.key = .serve :=
    gate3_page .f0 (by decide) (by decide) (by rw [regDef_vresIdle]; exact Option.some_ne_none _)
  have hwrite := State.writeReg_of_legal (s := s.setErr .f0 0) regDef_vresIdle rfl (by decide) (legalWord_vresIdle hv)
  have hcode : ((s.setErr .f0 0).setReg VRES_IDLE.w.key (vresIdleDef.merge ((s.setErr .f0 0).reg VRES_IDLE.w.key)
      (BitVec.ofNat 16 v) ((s.setErr .f0 0).bit PART_STAT.LOCKED))).fget .f0 FN_ERR.CODE = 0 := by
    have hset : (s.setErr .f0 0).fget .f0 FN_ERR.CODE = 0 := State.fget_setErr h 0
    refine Eq.trans (congrArg (fun w : Word => w.toNat / 2 ^ 0 % 2 ^ 8) ?_) hset
    exact State.reg_setReg_ne _ _ (by decide)
  unfold State.bundleEntry
  rw [show bundleKey .f0 3 0x84 = some VRES_IDLE.w.key from rfl]
  dsimp only
  rw [show s.gate2 .f0 3 true = .serve from if_pos (.inl rfl), hserve]
  dsimp only
  rw [hwrite]
  exact if_neg fun hbad => hbad.elim Bool.false_ne_true fun hne => hne hcode

end Sys2Proof.Machine
end

section
/-! PROOFS. The bundle's entries, and the events of a cold boot together (O5). -/

namespace Sys2Proof.Machine

open R

variable {s t u : State} {f g : Fn}

/-- The register that holds F0's error code, with a code written. -/
theorem State.reg_setErr (h : s.Tidy) (code : Nat) : ((s.setErr .f0 code).reg (FN_ERR.w.on 0).key).toNat =
    (s.reg (FN_ERR.w.on 0).key).toNat / 0x100 * 0x100 + code % 0x100 := by
  obtain ⟨hregs, -⟩ := h
  have hreg := State.reg_setReg hregs (FN_ERR.w.on 0).key (BitVec.ofNat 16 ((s.reg (FN_ERR.w.on 0).key).toNat -
    ((s.reg (FN_ERR.w.on 0).key).toNat / 2 ^ 0 % 0x100) * 2 ^ 0 + code % 0x100 * 2 ^ 0))
  have hlt := (s.reg (FN_ERR.w.on 0).key).isLt
  refine (congrArg BitVec.toNat hreg).trans ?_
  rw [BitVec.toNat_ofNat]
  omega

theorem State.fget_code (s : State) : s.fget .f0 FN_ERR.CODE = (s.reg (FN_ERR.w.on 0).key).toNat % 0x100 := by
  change (s.reg (FN_ERR.w.on 0).key).toNat / 2 ^ 0 % 0x100 = _
  rw [Nat.pow_zero, Nat.div_one]

/-- The entry writes VRES_IDLE alone; the error code stands again as it stood. -/
theorem State.idleSet_shows (h : s.Tidy) (v : Word) : (s.idleSet v).get VRES_IDLE.IDLE = v.toNat % 0x100 ∧
    OnlyRegs [VRES_IDLE.w] s (s.idleSet v) ∧ (s.idleSet v).boot = s.boot ∧ (s.idleSet v).mem = s.mem := by
  have h1 : (s.setErr .f0 0).Tidy := State.tidy_setErr h 0
  have herr1 := State.reg_setErr h 0
  have hcode := s.fget_code
  have hother (k : Nat) (hk : k ≠ (FN_ERR.w.on 0).key) (u : State) (c : Nat) : (u.setErr .f0 c).reg k = u.reg k := State.reg_put_ne _ _ hk
  unfold State.idleSet
  have hmerge := vresIdle_merge ((s.setErr .f0 0).reg VRES_IDLE.w.key) v ((s.setErr .f0 0).bit PART_STAT.LOCKED)
  generalize vresIdleDef.merge ((s.setErr .f0 0).reg VRES_IDLE.w.key) v ((s.setErr .f0 0).bit PART_STAT.LOCKED) = new at *
  have hframe : (s.setErr .f0 0).boot = s.boot ∧ (s.setErr .f0 0).mem = s.mem := ⟨rfl, rfl⟩
  have hfirst (k : Nat) (hk : k ≠ (FN_ERR.w.on 0).key) : (s.setErr .f0 0).reg k = s.reg k := hother k hk s 0
  generalize s.setErr .f0 0 = a at *
  obtain ⟨hregs, -⟩ := id h1
  have h2 : (a.setReg VRES_IDLE.w.key new).Tidy := ⟨Sparse.wf_put _ _ _ hregs, h1.2⟩
  have hidle : (a.setReg VRES_IDLE.w.key new).reg VRES_IDLE.w.key = new := State.reg_setReg hregs _ _
  have herr2 : (a.setReg VRES_IDLE.w.key new).reg (FN_ERR.w.on 0).key = a.reg (FN_ERR.w.on 0).key := State.reg_setReg_ne _ _ (by decide)
  have hrest (k : Nat) (hk : k ≠ VRES_IDLE.w.key) : (a.setReg VRES_IDLE.w.key new).reg k = a.reg k := State.reg_setReg_ne _ _ hk
  have hkept : (a.setReg VRES_IDLE.w.key new).boot = a.boot ∧ (a.setReg VRES_IDLE.w.key new).mem = a.mem := ⟨rfl, rfl⟩
  generalize a.setReg VRES_IDLE.w.key new = b at *
  obtain ⟨hboot1, hmem1⟩ := hframe
  obtain ⟨hboot2, hmem2⟩ := hkept
  refine ⟨?_, fun k hk => ?_, hboot2.trans hboot1, hmem2.trans hmem1⟩
  · change ((b.setErr .f0 _).reg VRES_IDLE.w.key).toNat / 2 ^ 0 % 0x100 = _
    rw [hother _ (by decide), hidle, Nat.pow_zero, Nat.div_one, hmerge]
  · have hk' : k ≠ VRES_IDLE.w.key := fun he => hk (by rw [he]; exact List.mem_singleton.mpr rfl)
    by_cases herr : k = (FN_ERR.w.on 0).key
    · have herr3 := State.reg_setErr h2 (s.fget .f0 FN_ERR.CODE)
      rw [herr2, herr1, hcode] at herr3
      rw [herr]
      refine BitVec.eq_of_toNat_eq ?_
      rw [hcode, herr3]
      omega
    · rw [hother k herr, hrest k hk', hfirst k herr]

/-- One entry, then the end. -/
theorem State.bundleRun_vresIdle (h : s.Tidy) {a v n : Nat} (hn : 2 ≤ n) (hentry : s.bytes a 3 = [0x00, 0x03, 0x84])
    (hval : s.le (a + 4) 2 = v) (hv : v ≤ 160) (hend : s.byte (a + 8) = 0xFF) :
    s.bundleRun a n = s.idleSet (BitVec.ofNat 16 v) := by
  have hbytes : s.byte a = 0x00 ∧ s.byte (a + 1) = 0x03 ∧ s.byte (a + 2) = 0x84 := by
    simpa [State.bytes] using hentry
  obtain ⟨hf, hpage, hoff⟩ := hbytes
  have hone (u : State) (x : Nat) : u.le x 1 = (u.byte x).toNat := rfl
  have hmem : (s.idleSet (BitVec.ofNat 16 v)).mem = s.mem := (State.idleSet_shows h _).2.2.2
  obtain ⟨m, rfl⟩ := Nat.exists_eq_add_of_le' hn
  have hle0 : s.le a 1 = 0 := by rw [hone, hf]; rfl
  rw [State.bundleRun]
  dsimp only
  rw [hle0, if_neg (by decide), if_neg (by decide), hone, hone, hpage, hoff, hval]
  change (s.bundleEntry .f0 3 0x84 (BitVec.ofNat 16 v)).bundleRun (a + 8) (m + 1) = _
  rw [State.bundleEntry_vresIdle h hv, State.bundleRun]
  exact if_pos (by rw [hone, State.byte_of_mem hmem, hend]; rfl)

theorem State.headFault_ne_one (s : State) (base kind : Nat) : s.headFault base kind ≠ 1 := by
  unfold State.headFault
  dsimp only
  split_ifs <;> decide

/-- A header area that passes names at least one block. -/
theorem State.blocks_of_head {base kind : Nat} (h : s.headFault base kind = 0) : s.manBlocks base ≠ 0 := by
  intro hzero
  unfold State.headFault at h
  dsimp only at h
  split_ifs at h with hmagic hkind hshape hloads hversion
  exact hshape (.inr (.inr (.inl hzero)))

theorem State.head_of_good {base kind : Nat} (h : s.imageFault base kind = 1) : s.headFault base kind = 0 := by
  by_contra hbad
  unfold State.imageFault at h
  dsimp only at h
  rw [if_pos hbad] at h
  exact s.headFault_ne_one base kind h

/-! ### The obligation -/

/-- Settles O5: the start by `State.coldBegun_shows` and `State.coldTried_shows`, the last attempt by `State.failAttempt_last`,
the release by `State.releaseRun_shows` and `State.releaseCal_shows`, the bundle by `State.bundleRun_vresIdle`. -/
theorem bootCommandsComplete : Obligations.BootCommandsComplete := by
  refine ⟨fun burrowOk secretOk prefOk cfgOk calOk => .intro _ (fun s ⟨hhog, hcur, hstage, hwait, hattempt, hcause, _⟩ =>
      exec_coldBootStart ⟨hhog, hcur, hstage, hwait, hattempt, hcause⟩) fun s hc ⟨_, _, _, _, _, _, hcause⟩ => ?_,
    fun idx slot => .intro _ (fun s h => exec_imageBlockArrives h) fun s _ _ => ⟨rfl, .of_regs rfl⟩,
    fun slot => .intro _ (fun s h => exec_signatureCheckDone_good h) fun s _ _ => ⟨rfl, .of_regs rfl⟩,
    fun slot => .intro _ (fun s ⟨hattempt, _, hloaded, hsig, _, hbad⟩ => exec_signatureCheckDone_bad ⟨hattempt, hloaded, hsig, hbad⟩)
      fun s hc ⟨_, hslot, _, _, horder, _⟩ => State.failAttempt_last hc.tidy hslot (s.signFault_lt _) horder,
    fun slot tr => .intro _ (fun s h => exec_qspiTimeout h) fun s hc _ => ?_,
    fun slot tr => .intro _ (fun s ⟨hattempt, _, hmarten, hmay⟩ => exec_martenRelease ⟨hattempt, hmarten, hmay⟩)
      fun s hc ⟨_, hslot, _⟩ => ?_,
    fun slot => .intro _ (fun s h => exec_hedgehogFault h) fun s hc _ => ?_,
    fun pub slot => .intro _ (fun s ⟨_, h⟩ => exec_identityKeyGenerate h) fun s hc ⟨hlen, _, _, _, _, _, hsecret, _⟩ => ?_,
    fun slot v s hc ⟨hattempt, hmarten, hloaded, hstage, hdone, hreload, hdeep, hrest, hhas, hgood, hentry, hval, hv, hend⟩ => ?_,
    fun slot readOk s hc ⟨hattempt, hmarten, hloaded, hstage, hdone, hreload, hdeep, hrest, hhas, hbad⟩ => ?_⟩
  case refine_1 =>
    obtain ⟨h1, hcode, hsecret, himg, hsaved⟩ := State.coldBegun_shows hc.tidy secretOk hcause
    generalize s.coldBegun secretOk = a at *
    have hread := a.coldRead_frame prefOk cfgOk calOk
    obtain ⟨hpref, hcfg⟩ := a.coldRead_shows prefOk cfgOk calOk
    generalize a.coldRead prefOk cfgOk calOk = b at *
    obtain ⟨hcode2, hflint, hpref2, hcfg2⟩ := b.coldTried_shows b.img.prefSlot
    refine ⟨hcode2.trans ((hread.get_eq (by decide)).trans hcode), ?_, hpref2.trans (by rw [hpref, himg]),
      hcfg2.trans (by rw [hcfg, hsaved])⟩
    rw [hflint, hread.same (a := .flint) (by decide), hsecret]
  case refine_2 =>
    have h1 : s.noteFlash.Tidy := (s.noteFlash_keeps .refl (within?_self _)).tidy hc.tidy
    have hregs : OnlyRegs [BOOT_STAT.w] s s.noteFlash := .of_regs rfl
    generalize s.noteFlash = a at *
    exact ⟨State.get_put_self h1 (by decide), rfl, hregs.trans ((OnlyRegs.put (by decide) 3).trans (.of_regs rfl))⟩
  case refine_3 =>
    obtain ⟨h1, hstage, hsrc⟩ := State.releaseShown_shows hc.tidy hslot
    generalize s.releaseShown slot = a at *
    obtain ⟨h2, hmarten, harmed, hready, hstage2, hsrc2⟩ := State.releaseRun_shows h1 slot
    generalize a.releaseRun slot = b at *
    obtain ⟨hboot, hhlt, hmode, hstage3, hsrc3⟩ := State.releaseCal_shows h2
    exact ⟨by rw [hboot, hmarten], hstage3.trans (hstage2.trans hstage), hsrc3.trans (hsrc2.trans hsrc), by rw [hhlt, harmed],
      by rw [hmode, hready]⟩
  case refine_4 =>
    have h1 : (s.put BOOT_STAT.EARLY_REDO 1).Tidy := State.tidy_put hc.tidy
    have hredo : (s.put BOOT_STAT.EARLY_REDO 1).get BOOT_STAT.EARLY_REDO = 1 := State.get_put_self hc.tidy (by decide)
    generalize s.put BOOT_STAT.EARLY_REDO 1 = a at *
    have h2 : (a.put BOOT_STAT.STAGE 1).Tidy := State.tidy_put h1
    have hstage : (a.put BOOT_STAT.STAGE 1).get BOOT_STAT.STAGE = 1 := State.get_put_self h1 (by decide)
    have hredo2 : (a.put BOOT_STAT.STAGE 1).get BOOT_STAT.EARLY_REDO = 1 :=
      (State.get_put_other h1 (by decide) (by decide) (by decide)).trans hredo
    have hcut : Keeps (areasMask [.frontEnd, .reg CLK_STAT.w, .reg FES_STAT.w, .reg FES_RSSI.w, .reg SYN_STAT.w, .reg CAL_STAT.w,
        .reg MODE.w]) (a.put BOOT_STAT.STAGE 1) a.martenCut :=
      State.showMaintain_keeps _ (State.dropCal_keeps _ .refl (by decide)) (by decide)
    refine ⟨rfl, rfl, ?_, ?_, rfl⟩
    · exact Eq.trans (hcut.get_eq (x := BOOT_STAT.STAGE) (by decide)) hstage
    · exact bit_eq_of_get (n := 1) (Eq.trans (hcut.get_eq (x := BOOT_STAT.EARLY_REDO) (by decide)) hredo2)
  case refine_5 =>
    have h1 : (s.identMade pub).Tidy := hc.tidy
    have htake : pub.take 32 = pub := List.take_of_length_le (by omega)
    obtain ⟨hflint, hok⟩ := State.showIdent_shows h1
    refine ⟨by rw [hflint]; exact htake, by rw [hflint]; rfl, hok.trans ?_⟩
    change (s.flint.secretOk && pub.take 32 != []) = true
    rw [htake, hsecret]
    cases pub with
    | nil => cases hlen
    | cons => rfl
  case refine_6 =>
    have hexec := exec_bundleApply (readOk := true) (s := s)
      ⟨hattempt, hmarten, hloaded, hstage, hdone, hreload, hdeep, hrest, hhas⟩
    have h1 : s.bundleTaken.Tidy := hc.tidy
    have hblocks := State.blocks_of_head (State.head_of_good hgood)
    have hkept : s.bundleTaken.mem = s.mem ∧ s.bundleTaken.boot.bundleDone = true ∧
      s.bundleTaken.boot.eventDue = s.boot.eventDue ∧ s.bundleTaken.regs = s.regs ∧
      s.bundleTaken.flint = s.flint := ⟨rfl, rfl, rfl, rfl, rfl⟩
    generalize s.bundleTaken = a at *
    obtain ⟨hmem, hdone', hevent, hregs, hflint⟩ := hkept
    have hmany : a.manBlocks (s.bundleBase (slotBase slot)) ≠ 0 := by
      rw [State.manBlocks, State.le_congr hmem]
      exact hblocks
    rw [if_pos ⟨rfl, (State.imageFault_congr hmem (by rw [State.reg, hregs, ← State.reg]) (by rw [hflint]) _ 4).trans hgood⟩,
      State.bundleRun_vresIdle h1 (v := v) (by omega) ((State.bytes_congr hmem _ 3).trans hentry)
        ((State.le_congr hmem _ 2).trans hval) hv ((State.byte_of_mem hmem _).trans hend)] at hexec
    obtain ⟨hidle, honly, hboot, -⟩ := State.idleSet_shows h1 (BitVec.ofNat 16 v)
    refine ⟨_, hexec, by rw [hboot, hdone'], by rw [hboot, hevent], hidle.trans ?_, (OnlyRegs.of_regs hregs).trans honly⟩
    rw [BitVec.toNat_ofNat]
    omega
  case refine_7 =>
    have hexec := exec_bundleApply (readOk := readOk) (s := s)
      ⟨hattempt, hmarten, hloaded, hstage, hdone, hreload, hdeep, hrest, hhas⟩
    have hmem : s.bundleTaken.mem = s.mem := rfl
    have hregs : s.bundleTaken.reg FLINT_OTP.w.key = s.reg FLINT_OTP.w.key := rfl
    have hflint : s.bundleTaken.flint.hashes = s.flint.hashes := rfl
    have himage : s.bundleTaken.imageFault (s.bundleBase (slotBase slot)) 4 = s.imageFault (s.bundleBase (slotBase slot)) 4 :=
      State.imageFault_congr hmem hregs hflint _ 4
    rw [himage, if_neg fun ⟨hread, hgood⟩ => hbad.elim (fun hno => by simp [hno] at hread) fun hne => hne hgood] at hexec
    exact ⟨_, hexec, rfl, rfl, .of_regs rfl⟩

end Sys2Proof.Machine
end

section
/-! PROOFS. What a wake from DEEP restores of the boot's own registers (O6). -/

namespace Sys2Proof.Machine

open R

variable {s t u : State} {f g : Fn}

theorem State.tidy_setRegs (l : List (Nat × Word)) (h : s.Tidy) : (l.foldl (fun s e => s.setReg e.1 e.2) s).Tidy := by
  induction l generalizing s with
  | nil => exact h
  | cons e l ih =>
    obtain ⟨hregs, hrest⟩ := h
    exact ih ⟨Sparse.wf_put _ _ _ hregs, hrest⟩

theorem Sparse.ne_of_above {n : Nat} {l : List (Nat × Word)} (h : Sparse.above n l = true) : ∀ e ∈ l, n ≠ e.1 := by
  induction l with
  | nil => exact fun e he => absurd he List.not_mem_nil
  | cons e l ih =>
    obtain ⟨j, w⟩ := e
    simp only [Sparse.above, Bool.and_eq_true, decide_eq_true_eq] at h
    obtain ⟨hj, hl⟩ := h
    intro e he
    rcases List.mem_cons.mp he with rfl | he
    · exact Nat.ne_of_lt hj
    · exact ih hl e he

/-- A canonical list of words set over a register at its reset word gives the word the list holds. -/
theorem State.reg_setRegs {l : List (Nat × Word)} (hl : Sparse.wf resetWord l = true) (h : s.Tidy) {k : Nat}
    (hk : s.reg k = resetWord k) : (l.foldl (fun s e => s.setReg e.1 e.2) s).reg k = Sparse.get resetWord l k := by
  induction l generalizing s with
  | nil => exact hk
  | cons e l ih =>
    obtain ⟨j, w⟩ := e
    simp only [Sparse.wf, Bool.and_eq_true, decide_eq_true_eq] at hl
    obtain ⟨⟨habove, -⟩, hl⟩ := hl
    have htidy : (s.setReg j w).Tidy := State.tidy_setRegs [(j, w)] h
    obtain ⟨hregs, -⟩ := h
    rw [List.foldl_cons, Sparse.get]
    split
    · next hj =>
      subst hj
      exact (State.reg_setRegs_ne Prod.fst Prod.snd l (Sparse.ne_of_above habove) _).trans (State.reg_setReg hregs k w)
    · next hj => exact ih hl htidy ((State.reg_setReg_ne _ _ hj).trans hk)

/-- Registers of CORE that a list gives take its words. -/
theorem State.reg_coreFrom {p : Nat → Bool} {l : List (Nat × Word)} (hl : Sparse.wf resetWord l = true) (h : s.Tidy) {k : Nat}
    (hk : (!isAon k && p k) = true) : (s.coreFrom p l).reg k = Sparse.get resetWord l k := by
  have hbase : (s.resetRegs (fun k => !isAon k && p k)).reg k = resetWord k :=
    (Sparse.get_drop resetWord (fun k => !isAon k && p k) k s.regs).trans (if_pos hk)
  have hdrop : l.filter (fun e => !isAon e.1 && p e.1) = Sparse.drop (fun k => !(!isAon k && p k)) l := by
    simp only [Sparse.drop, Bool.not_not]
  have hget : Sparse.get resetWord (Sparse.drop (fun k => !(!isAon k && p k)) l) k = Sparse.get resetWord l k :=
    (Sparse.get_drop resetWord _ k l).trans (if_neg (by rw [hk]; decide))
  unfold State.coreFrom
  dsimp only
  rw [hdrop, State.reg_setRegs (Sparse.wf_drop resetWord _ hl) (State.tidy_resetRegs h _) hbase, hget]

theorem State.tidy_coreFrom (h : s.Tidy) (p : Nat → Bool) (l : List (Nat × Word)) : (s.coreFrom p l).Tidy :=
  State.tidy_setRegs _ (State.tidy_resetRegs h _)

/-- The registers after a boot whose saved ones do not serve. -/
def State.deepFrom (s : State) (snap : List (Nat × Word)) : State :=
  (s.coreLost.coreFrom (fun k => !sincePor k && !ownStore k && !ofBoot k) snap).coreFrom ofBoot
    (s.regs.filter (fun e => ofBoot e.1))

theorem State.deepFrom_shows (h : s.Tidy) (snap : List (Nat × Word)) : (s.deepFrom snap).Tidy ∧
    (s.deepFrom snap).reg BOOT_STAT.w.key = s.reg BOOT_STAT.w.key := by
  have h1 := (s.coreLost_keeps .refl (within?_self _)).tidy h
  have h2 := State.tidy_coreFrom h1 (fun k => !sincePor k && !ownStore k && !ofBoot k) snap
  have hshown : s.regs.filter (fun e => ofBoot e.1) = Sparse.drop (fun k => !ofBoot k) s.regs := by
    simp only [Sparse.drop, Bool.not_not]
  obtain ⟨hregs, -⟩ := h
  unfold State.deepFrom
  rw [hshown]
  refine ⟨State.tidy_coreFrom h2 _ _, (State.reg_coreFrom (Sparse.wf_drop resetWord _ hregs) h2 (by decide)).trans ?_⟩
  exact (Sparse.get_drop resetWord _ _ s.regs).trans (if_neg (by decide))

/-- What follows in the boot's own registers, the locks and the plans. -/
def State.deepShown (s : State) (lock : Nat) : State :=
  let s := (s.put PART_STAT.LOCKED lock).putAll FN_STATE.PLOCK lock
  let s := s.put IMG_PREF.w (s.img.prefSlot + (if s.img.prefOnce then 0x100 else 0))
  s.showIdent.showCalRec.loadTemplates.plansFromFlash

theorem State.deepRestore_eq (s : State) : s.deepRestore = (if s.boot.savedBy ≠ [] ∧ s.boot.savedBy = s.runVersion then s
    else (s.deepFrom (if s.boot.savedBy = [] then s.sched.snapRegs else [])).deepShown (s.get PART_STAT.LOCKED)) := rfl

theorem State.deepShown_bootStat (s : State) (lock : Nat) : (s.deepShown lock).reg BOOT_STAT.w.key = s.reg BOOT_STAT.w.key := by
  have h1 : Keeps (areasMask [.reg PART_STAT.w, .reg FN_STATE.w]) s ((s.put PART_STAT.LOCKED lock).putAll FN_STATE.PLOCK lock) :=
    State.putAll_keeps _ _ _ (State.put_keeps _ _ _ .refl (by decide)) (by decide)
  unfold State.deepShown
  generalize (s.put PART_STAT.LOCKED lock).putAll FN_STATE.PLOCK lock = a at *
  dsimp only
  have h2 : Keeps (areasMask [.reg IMG_PREF.w]) a (a.put IMG_PREF.w (a.img.prefSlot + (if a.img.prefOnce then 0x100 else 0))) :=
    State.put_keeps _ _ _ .refl (by decide)
  generalize a.put IMG_PREF.w (a.img.prefSlot + (if a.img.prefOnce then 0x100 else 0)) = b at *
  have h3 := b.showIdent_keeps .refl (within?_self _)
  have h4 := b.showIdent.showCalRec_keeps .refl (within?_self _)
  have h5 := b.showIdent.showCalRec.loadTemplates_keeps .refl (within?_self _)
  have h6 := b.showIdent.showCalRec.loadTemplates.plansFromFlash_keeps .refl (within?_self _)
  rw [h6.reg_eq (by decide), h5.reg_eq (by decide), h4.reg_eq (by decide), h3.reg_eq (by decide), h2.reg_eq (by decide),
    h1.reg_eq (by decide)]

/-- The boot just made still shows. -/
theorem State.deepRestore_bootStat (h : s.Tidy) : s.deepRestore.reg BOOT_STAT.w.key = s.reg BOOT_STAT.w.key := by
  rw [State.deepRestore_eq]
  split
  · rfl
  · exact (State.deepShown_bootStat _ _).trans (State.deepFrom_shows h _).2

end Sys2Proof.Machine
end

section
/-! PROOFS. A boot in which the activities end stays a boot (O6). -/

namespace Sys2Proof.Machine

open R

variable {s t u : State} {f g : Fn}

/-- A canonical state whose MODE shows BOOT. -/
abbrev State.booting (s : State) : Prop := s.Tidy ∧ s.get MODE.CUR = 3

namespace State.booting

theorem of_keeps {m : Nat} (h : s.booting) (hk : Keeps m s t) (hm : regIn m MODE.w.key = false) : t.booting :=
  ⟨hk.tidy h.1, (hk.get_eq (x := MODE.CUR) hm).trans h.2⟩

/-- Activities do not end a boot (R88). -/
theorem setAct (h : s.booting) {x : Fld} (hx : x.sound = true) (ha : x.apart MODE.CUR = true) (b : Bool) : (s.setAct x b).booting := by
  obtain ⟨htidy, hcur⟩ := h
  have hput : (s.putBit x b).get MODE.CUR = 3 := (State.get_put_other htidy hx (by decide) ha).trans hcur
  have hupd : (s.putBit x b).updMode = s.putBit x b := if_pos (.inr hput)
  rw [State.setAct, hupd]
  exact ⟨State.tidy_put htidy, hput⟩

theorem showMaintain (h : s.booting) : s.showMaintain.booting := setAct h (by decide) (by decide) _

theorem showActs (h : s.booting) : s.showActs.booting := setAct (setAct h (by decide) (by decide) _) (by decide) (by decide) _

end State.booting

/-! ### A capture that ends -/

def captClosedAreas : List Area := [.counters, .memory, .mode, .engines, .sched, .biphase, .capture, .openValues, .reg INT_STAT0.w,
  .reg DQ_LOST.w, .reg DAY_USE_E.w, .reg DAY_USE_T.w, .reg WAKE_HREASON.w, .page 0x13, .page 0x14, .reg CAPT_WPTR.w,
  .reg CAPT_RPTR.w, .reg CAPT_FREE.w, .reg CAPT_CNT_DISC.w, .reg CAPT_CNT_LOST.w]

theorem State.captClosed_frame (s : State) (j : Job) : Keeps (areasMask captClosedAreas) s (s.captClosed j) := by
  have haccount : Keeps (areasMask captClosedAreas) s s.account := State.account_keeps _ .refl (by decide)
  have hclose : Keeps (areasMask captClosedAreas) s (s.account.closeGap j) := State.closeGap_keeps _ _ haccount (by decide)
  have hwrite : Keeps (areasMask captClosedAreas) s (s.account.closeGap j).writeBlock := State.writeBlock_keeps _ hclose (by decide)
  unfold State.captClosed
  dsimp only
  generalize (s.account.closeGap j).writeBlock = a at *
  split
  · simp (decide := true) only [↓Keeps.mk, hwrite, or_true, true_or, eq_self]
  · exact hwrite

namespace State.booting

theorem captOff (h : s.booting) (j : Job) : (s.captOff j).booting := by
  have hk : Keeps (areasMask [.ports, .page 0x13, .page 0x14, .reg BPH_STAT.w, .reg CAPT_STAT.w]) s
      (((((s.put CAPT_STAT.RUN 0).put CAPT_STAT.SHARED 0).putBit CAPT_STAT.SPILLING j.spill).put BPH_STAT.LOCK 0).setRx .bph 0 0 0) :=
    State.setRx_keeps _ _ _ _ _ (State.put_keeps _ _ _ (State.putBit_keeps _ _ _ (State.put_keeps _ _ _ (State.put_keeps _ _ _ .refl
      (by decide)) (by decide)) (by decide)) (by decide)) (by decide)
  have h1 := h.of_keeps hk (by decide)
  unfold State.captOff
  dsimp only
  split
  · exact h1.setAct (by decide) (by decide) true
  · exact h1

theorem captEnd (h : s.booting) : (s.captEnd 0).booting := by
  cases hjob : s.capt.job with
  | none =>
    unfold State.captEnd
    rw [hjob]
    exact h
  | some j =>
    have h1 := h.of_keeps (s.captClosed_frame j) (by decide)
    rw [State.captEnd_eq hjob]
    generalize s.captClosed j = a at *
    have h2 : (a.captEndRec j 0).booting := h1.of_keeps (a.captRec_keeps j 6 _ _ _ 0 _ _ [] [] .refl (within?_self _)) (by decide)
    have h3 : ((a.captEndRec j 0).captPassed j).booting := h2
    have h4 := h3.captOff j
    generalize ((a.captEndRec j 0).captPassed j).captOff j = b at *
    exact (h4.of_keeps (b.setTrim_keeps .refl (within?_self _)) (by decide)).setAct (by decide) (by decide) _

end State.booting

/-! ### Every activity ends -/

/-- The listens end, each told why. -/
def State.listensEnded (s : State) (listen : Option Nat) : State :=
  s.eachFn (fun s f => match listen with
    | some c => if (s.plan f).listen.isSome then (s.setListen f none).listenEvent f 7 c else s
    | none => s.setListen f none) allFns

/-- No capture waits. -/
def State.captsDropped (s : State) : State := { s with capt := { s.capt with due := [] } }

theorem State.endActivities_eq (s : State) (cause : Nat) (listen : Option Nat) : s.endActivities cause listen =
    ((((((s.missRuns (fun _ => true) cause).holdSuspend.stestCut.captEnd 0).captsDropped.listensEnded listen).dropCal.rxStop).showActs).setAct
      MODE.CAPTURE_ACT false).showMaintain := rfl

theorem State.listensEnded_frame (s : State) (listen : Option Nat) : Keeps (areasMask [.counters, .mode, .engines, .plans, .sched,
    .openValues, .reg INT_STAT0.w, .reg PLAN_STAT.w, .reg DAY_USE_E.w, .reg DAY_USE_T.w, .reg DQ_LOST.w, .reg WAKE_HREASON.w,
    .reg SCHED_CNT_MISSED.w]) s (s.listensEnded listen) := by
  refine State.eachFn_keeps _ _ _ .refl fun v f => ?_
  cases listen with
  | none => exact State.setListen_keeps _ _ _ .refl (by decide)
  | some c => exact .ite (State.listenEvent_keeps _ _ _ _ (State.setListen_keeps _ _ _ .refl (by decide)) (by decide)) .refl

theorem State.booting.endActivities (h : s.booting) (cause : Nat) (listen : Option Nat) : (s.endActivities cause listen).booting := by
  rw [State.endActivities_eq]
  have h1 := h.of_keeps (s.missRuns_keeps (fun _ => true) cause .refl (within?_self _)) (by decide)
  generalize s.missRuns (fun _ => true) cause = a at *
  have h2 := h1.of_keeps (a.holdSuspend_keeps .refl (within?_self _)) (by decide)
  have h3 := State.booting.captEnd (h2.of_keeps (a.holdSuspend.stestCut_keeps .refl (within?_self _)) (by decide))
  generalize a.holdSuspend.stestCut.captEnd 0 = b at *
  have h4 : b.captsDropped.booting := h3
  have h5 := h4.of_keeps (b.captsDropped.listensEnded_frame listen) (by decide)
  generalize b.captsDropped.listensEnded listen = c at *
  have h6 := h5.of_keeps (c.dropCal_keeps .refl (within?_self _)) (by decide)
  have h7 := h6.of_keeps (c.dropCal.rxStop_keeps .refl (within?_self _)) (by decide)
  exact ((h7.showActs).setAct (by decide) (by decide) false).showMaintain

end Sys2Proof.Machine
end

section
/-! PROOFS. Pika, READY, HOST-LOAD wait and the heartbeat (O6). -/

namespace Sys2Proof.Machine

open R

variable {s t u : State} {f g : Fn}

namespace Heard

theorem raise1 (s : State) (b : Nat) : Heard s (s.raise1 b) :=
  (of_mode (t := (s.fput .f0 ⟨0x11, b, b⟩ 1).count .f0 (16 + b)) rfl).trans (noteAttn _ .f0 (16 + b))

theorem raiseIn (s : State) (b : Nat) (l : List Fn) : Heard s (s.raiseIn b l) := by
  induction l generalizing s with
  | nil => exact .refl s
  | cons f l ih => exact (raise0 s f b).trans (ih _)

theorem deliver (s : State) (f : Fn) (type : Nat) (payload : List Word) (bits : List Nat) (stamp : Nat) :
    Heard s (s.deliver f type payload bits stamp) := .ite (of_mode rfl) (writeRec s f _)

theorem deliverAll (s : State) (type : Nat) (payload : List Word) (bits : List Nat) (stamp : Nat) (l : List Fn) :
    Heard s (s.deliverAll type payload bits stamp l) := by
  induction l generalizing s with
  | nil => exact .refl s
  | cons f l ih => exact (deliver s f type payload bits stamp).trans (ih _)

theorem healthRec (s : State) (event cause mon : Nat) (bits : List Nat) : Heard s (s.healthRec event cause mon bits) :=
  deliverAll s _ _ bits _ _

theorem raiseReplace (s : State) (mon : Nat) : Heard s (s.raiseReplace mon) := by
  unfold State.raiseReplace
  extract_lets a
  have ha : Heard s a := of_mode rfl
  exact ha.trans ((raiseIn a iREPLACE _).trans ((healthRec _ 3 mon mon [iREPLACE]).trans (wantHost _ 2)))

theorem resetRecord (s : State) : Heard s s.resetRecord := by
  have hfold (l : List Nat) (v : State) : Heard v (l.foldl (fun s code =>
      let s := s.healthRec 1 code 0 []
      if 6 ≤ code ∧ code ≤ 9 then s.raise1 jWDOG else s) v) := by
    induction l generalizing v with
    | nil => exact .refl v
    | cons code l ih => exact ((healthRec v 1 code 0 []).trans (.ite (raise1 _ jWDOG) (.refl _))).trans (ih _)
  exact (of_mode (t := { s with hlt := { s.hlt with resetDue := [] } }) rfl).trans (hfold _ _)

theorem lockFlint (s : State) (cause : Nat) : Heard s (s.lockFlint cause) := by
  unfold State.lockFlint
  extract_lets a b
  have hk : Keeps (areasMask [.reg FLINT_STAT.w, .reg FN_STATE.w]) s b :=
    State.putAll_keeps _ _ _ (State.putBit_keeps _ _ _ (State.put_keeps _ _ _ .refl (by decide)) (by decide)) (by decide)
  have hb : Heard s b := of_keeps hk (by decide)
  exact .ite hb (hb.trans (raiseIn b iSECURITY allFns))

theorem flintLock (s : State) : Heard s s.flintLock := by
  unfold State.flintLock
  extract_lets trusted a
  have hk : Keeps (areasMask [.reg FN_STATE.w]) s a := State.putAll_keeps _ _ _ .refl (by decide)
  have ha : Heard s a := of_keeps hk (by decide)
  exact ha.trans (lockFlint a _)

theorem bootEvent (s : State) : Heard s s.bootEvent := by
  have ha : Heard s { s with boot := { s.boot with eventDue := false } } := of_mode rfl
  exact .ite (ha.trans (raise1 _ jBOOT_EVENT)) (.refl s)

theorem ready (h : Heard s t) : t.mode.ready = s.mode.ready := by
  obtain ⟨r, h⟩ := h
  rw [h]

end Heard

/-! ### Pika -/

/-- A source of every function is set. -/
theorem State.fget_security (h : s.Tidy) (f : Fn) : s.security.fget f INT_STAT0.SECURITY = 1 := by
  have hone (v : State) (hv : v.Tidy) (g : Fn) : (v.raise0 g iSECURITY).fget g INT_STAT0.SECURITY = 1 :=
    State.fget_raise0_same hv.canon (by decide)
  have hstays (v : State) (hv : v.Tidy) (g : Fn) (hset : v.fget f INT_STAT0.SECURITY = 1) :
      (v.raise0 g iSECURITY).fget f INT_STAT0.SECURITY = 1 := (Calm.raise0 g (by decide)).stays hv (by decide) hset
  have h0 : (s.raise0 .f0 iSECURITY).Tidy := State.tidy_raise0 h
  have h1 : ((s.raise0 .f0 iSECURITY).raise0 .f1 iSECURITY).Tidy := State.tidy_raise0 h0
  have h2 : (((s.raise0 .f0 iSECURITY).raise0 .f1 iSECURITY).raise0 .f2 iSECURITY).Tidy := State.tidy_raise0 h1
  change ((((s.raise0 .f0 iSECURITY).raise0 .f1 iSECURITY).raise0 .f2 iSECURITY).raise0 .f3 iSECURITY).fget f INT_STAT0.SECURITY = 1
  cases f with
  | f0 => exact hstays _ h2 _ (hstays _ h1 _ (hstays _ h0 _ (hone s h .f0)))
  | f1 => exact hstays _ h2 _ (hstays _ h1 _ (hone _ h0 .f1))
  | f2 => exact hstays _ h2 _ (hone _ h1 .f2)
  | f3 => exact hone _ h2 .f3

theorem exec_pikaGo (h : s.boot.marten = true ∧ s.get BOOT_STAT.PIKA = 1 ∧ s.boot.pikaGo = false) : exec .pikaGo s = .next
    (if s.get IMG_EPOCH.MARTEN = s.get IMG_EPOCH.PIKA ∧ s.get IMG_EPOCH.MARTEN ≠ 0 then
      ({ s with boot := { s.boot with pikaGo := true } } : State).putAll FN_STATE.COMPAT 0
    else (s.pikaGone.putAll FN_STATE.COMPAT 1).security) := by
  obtain ⟨hmarten, hpika, hgo⟩ := h
  exact congrArg Host.Outcome.next (if_pos ⟨hmarten, hpika, by simp [hgo]⟩)

/-- The load that a demand starts. -/
def State.pikaLoaded (s : State) : State := { s with boot := { s.boot with pikaVerified := true, pikaGo := false } }

theorem exec_pikaDeferredLoad (h : s.awake = true ∧ s.get BOOT_STAT.PIKA = 0 ∧ s.sourceStands = true ∧
    s.pikaAllowed = true) : exec (.pikaDeferredLoad true) s = .next
      (let p := s.pikaBase s.runBase
       let s := s.pikaStart s.runBase
       if s.get BOOT_STAT.PIKA = 3 then s
       else if ¬ s.bit BOOT_STAT.TRUSTED ∨ s.imageFault p 2 = 1 then s.pikaLoaded else s.pikaGone) := by
  obtain ⟨hawake, hpika, hsource, hallowed⟩ := h
  change execPikaDeferredLoad true s = _
  rw [execPikaDeferredLoad, if_pos ⟨hawake, hpika, hsource, hallowed⟩]
  dsimp only
  rw [if_neg (by decide : ¬ ¬ (true = true))]
  rfl

/-- A Pika image whose header area passes streams. -/
def State.pikaStreams (s : State) (p : Nat) : State :=
  let s := (s.put IMG_EPOCH.PIKA (s.manEpoch p)).put BOOT_STAT.PIKA 1
  { s with boot := { s.boot with blocks := [], sig := none, pikaVerified := false } }

theorem State.pikaStart_eq (s : State) (base : Nat) : s.pikaStart base =
    if s.headFault (s.pikaBase base) 2 ≠ 0 then s.pikaGone else s.pikaStreams (s.pikaBase base) := rfl

theorem State.pikaStreams_shows (h : s.Tidy) (p : Nat) : (s.pikaStreams p).Tidy ∧ (s.pikaStreams p).get BOOT_STAT.PIKA = 1 ∧
    (s.pikaStreams p).bit BOOT_STAT.TRUSTED = s.bit BOOT_STAT.TRUSTED ∧
    (s.pikaStreams p).imageFault p 2 = s.imageFault p 2 := by
  have h1 : (s.put IMG_EPOCH.PIKA (s.manEpoch p)).Tidy := State.tidy_put h
  have hk : Keeps (areasMask [.boot, .reg IMG_EPOCH.w, .reg BOOT_STAT.w]) s (s.pikaStreams p) := by
    unfold State.pikaStreams
    simp (decide := true) (maxDischargeDepth := 9) only [↓Keeps.mk, ↓Keeps.refl, ↓State.put_keeps, or_true, true_or, eq_self]
  refine ⟨State.tidy_put h1, State.get_put_self h1 (by decide), State.bit_of_get_eq ?_,
    State.imageFault_congr (hk.same (a := .memory) (by decide)) (hk.reg_eq (by decide))
      (congrArg Flint.hashes (hk.same (a := .flint) (by decide))) p 2⟩
  exact (State.get_put_other h1 (by decide) (by decide) (by decide)).trans (State.get_put_ne _ _ (by decide))

theorem State.pikaGone_shows (h : s.Tidy) : s.pikaGone.Tidy ∧ s.pikaGone.get BOOT_STAT.PIKA = 3 ∧
    s.pikaGone.boot = { s.boot with pikaVerified := false } := ⟨State.tidy_put h, State.get_put_self h (by decide), rfl⟩

/-- What a deferred load comes to. -/
theorem State.pikaDeferred_shows (h : s.Tidy) (base : Nat) (htrusted : s.bit BOOT_STAT.TRUSTED = true) :
    let p := s.pikaBase base
    let u := s.pikaStart base
    let t := if u.get BOOT_STAT.PIKA = 3 then u
       else if ¬ u.bit BOOT_STAT.TRUSTED ∨ u.imageFault p 2 = 1 then u.pikaLoaded else u.pikaGone
    t.boot.pikaVerified = decide (s.imageFault p 2 = 1) ∧
    (t.get BOOT_STAT.PIKA = if s.imageFault p 2 = 1 then 1 else 3) := by
  intro p u t
  by_cases hhead : s.headFault p 2 ≠ 0
  · have hu : u = s.pikaGone := (s.pikaStart_eq base).trans (if_pos hhead)
    obtain ⟨-, hpika, hboot⟩ := State.pikaGone_shows h
    have hbad : s.imageFault p 2 ≠ 1 := fun hgood => hhead (State.head_of_good hgood)
    have ht : t = s.pikaGone := by
      unfold t
      rw [hu, if_pos hpika]
    rw [ht, if_neg hbad, decide_eq_false hbad]
    exact ⟨by rw [hboot], hpika⟩
  · have hu : u = s.pikaStreams p := (s.pikaStart_eq base).trans (if_neg hhead)
    obtain ⟨h1, hpika, htrust, hfault⟩ := State.pikaStreams_shows h p
    have ht : t = if s.imageFault p 2 = 1 then (s.pikaStreams p).pikaLoaded else (s.pikaStreams p).pikaGone := by
      unfold t
      rw [hu, if_neg (by rw [hpika]; decide), htrust, htrusted, hfault]
      simp only [not_true_eq_false, false_or]
    rw [ht]
    generalize s.pikaStreams p = a at *
    split
    · next hgood => exact ⟨by rw [decide_eq_true hgood]; rfl, hpika⟩
    · next hbad =>
      obtain ⟨-, hgone, hboot⟩ := State.pikaGone_shows h1
      exact ⟨by rw [hboot, decide_eq_false hbad], hgone⟩

end Sys2Proof.Machine
end

section
/-! PROOFS. The ends of a boot together (O6). -/

namespace Sys2Proof.Machine

open R

variable {s t u : State} {f g : Fn}

theorem State.get_of_reg {x : Fld} (h : t.reg x.key = s.reg x.key) : t.get x = s.get x := by rw [State.get, h, ← State.get]

/-! ### READY -/

/-- The end of the boot, as BOOT_STAT shows it. -/
def State.bootTold (s : State) (trusted : Bool) : State :=
  let (w, s) := s.fresh
  ((s.put BOOT_TIME_R.w w.toNat).put BOOT_STAT.STAGE 3).putBit BOOT_STAT.TRUSTED trusted

/-- The counts and the epoch of the image that runs. -/
def State.bootNoted (s : State) (trusted : Bool) : State :=
  let s := if trusted then s else s.inc BOOT_CNT.UNTRUSTED
  let s : State := { s with boot := { s.boot with lastSlot := s.get BOOT_STAT.SRC } }
  s.putAll DEV_STEP.HIF_EPOCH (s.boot.table.getD 0x15 0).toNat

/-- The plans come back. -/
def State.bootPlanned (s : State) : State :=
  let s := if s.boot.deep then s.deepRestore else s.loadTemplates.plansFromFlash
  { s with boot := { s.boot with deep := false } }

/-- A REPLACE that waited is raised. -/
def State.bootRaised (s : State) : State :=
  if s.hlt.raiseDue then
    ({ s with hlt := { s.hlt with raiseDue := false } } : State).raiseReplace (s.get HLT_STAT.REASON)
  else s

theorem exec_bootReady {slot : Nat} {tr : Bool} (h : s.get MODE.CUR = 3 ∧ s.get BOOT_STAT.STAGE = 2 ∧
    s.mode.resting = false ∧ s.boot.reload = false ∧ s.boot.attempt = some (slot, tr) ∧ s.bootDone = true) :
    exec .bootReady s = .next
      ((((((s.bootTold tr).bootNoted tr).bootPlanned).becomeReady.flintLock.resetRecord).bootRaised.bootEvent.readOther 0).readOther 1) := by
  obtain ⟨hcur, hstage, hrest, hreload, hattempt, hdone⟩ := h
  change execBootReady s = _
  rw [execBootReady, if_pos ⟨hcur, hstage, by simp [hrest]⟩, if_neg (by simp [hreload]), if_pos hdone, hattempt]
  rfl

/-- What the reload's end hands to READY. -/
def State.reloadOver (s : State) : State :=
  let s := s.put BOOT_STAT.STAGE 3
  { s with boot := { s.boot with reload := false } }

theorem exec_bootReady_reload (h : s.get MODE.CUR = 3 ∧ s.get BOOT_STAT.STAGE = 2 ∧ s.mode.resting = false ∧
    s.boot.reload = true) : exec .bootReady s = .next s.reloadOver.becomeReady.resetRecord := by
  obtain ⟨hcur, hstage, hrest, hreload⟩ := h
  change execBootReady s = _
  rw [execBootReady, if_pos ⟨hcur, hstage, by simp [hrest]⟩, if_pos hreload]
  rfl

theorem State.bootTold_shows (h : s.Tidy) (tr : Bool) : (s.bootTold tr).Tidy ∧ (s.bootTold tr).get BOOT_STAT.STAGE = 3 ∧
    (s.bootTold tr).bit BOOT_STAT.TRUSTED = tr := by
  have h0 : ({ s with freeCtr := s.freeCtr + 1 } : State).Tidy := h
  have h1 (w : Nat) := State.tidy_put h0 (x := BOOT_TIME_R.w) (v := w)
  have h2 (w : Nat) := State.tidy_put (h1 w) (x := BOOT_STAT.STAGE) (v := 3)
  refine ⟨State.tidy_put (h2 _), ?_, (bit_eq_of_get (State.get_put_self (h2 _) (by decide))).trans ?_⟩
  · exact (State.get_put_other (h2 _) (by decide) (by decide) (by decide)).trans (State.get_put_self (h1 _) (by decide))
  · cases tr <;> rfl

theorem State.bootNoted_frame (s : State) (tr : Bool) : Keeps (areasMask [.boot, .reg BOOT_CNT.w, .reg DEV_STEP.w]) s (s.bootNoted tr) := by
  unfold State.bootNoted
  extract_lets a _ b
  have ha : Keeps (areasMask [.boot, .reg BOOT_CNT.w, .reg DEV_STEP.w]) s a := .ite .refl (State.inc_keeps _ _ .refl (by decide))
  clear_value a
  have hb : Keeps (areasMask [.boot, .reg BOOT_CNT.w, .reg DEV_STEP.w]) s b := by
    unfold b
    simp (decide := true) only [↓Keeps.mk, ha, or_true, true_or, eq_self]
  exact State.putAll_keeps _ _ _ hb (by decide)

theorem State.bootPlanned_shows (h : s.Tidy) : s.bootPlanned.Tidy ∧ s.bootPlanned.reg BOOT_STAT.w.key = s.reg BOOT_STAT.w.key := by
  have hdeep := (s.deepRestore_keeps .refl (within?_self _)).tidy h
  have hload := s.loadTemplates_keeps .refl (within?_self _)
  have hplans := s.loadTemplates.plansFromFlash_keeps .refl (within?_self _)
  have hcold := hplans.tidy (hload.tidy h)
  unfold State.bootPlanned
  extract_lets a b
  have hb : a.Tidy ∧ a.reg BOOT_STAT.w.key = s.reg BOOT_STAT.w.key := by
    unfold a
    split
    · exact ⟨hdeep, State.deepRestore_bootStat h⟩
    · exact ⟨hcold, (hplans.reg_eq (by decide)).trans (hload.reg_eq (by decide))⟩
  exact hb

theorem State.bootRaised_heard (s : State) : Heard s s.bootRaised ∧ s.bootRaised.reg BOOT_STAT.w.key = s.reg BOOT_STAT.w.key := by
  have ha : Heard s { s with hlt := { s.hlt with raiseDue := false } } := .of_mode rfl
  have hreg : ({ s with hlt := { s.hlt with raiseDue := false } } : State).reg BOOT_STAT.w.key = s.reg BOOT_STAT.w.key := rfl
  unfold State.bootRaised
  split
  · generalize ({ s with hlt := { s.hlt with raiseDue := false } } : State) = a at *
    exact ⟨ha.trans (.raiseReplace a _), ((a.raiseReplace_keeps _ .refl (within?_self _)).reg_eq (by decide)).trans hreg⟩
  · exact ⟨.refl s, rfl⟩

/-- READY, and what it tells. -/
theorem State.bootServed_shows (h : s.Tidy) :
    (((s.becomeReady.flintLock.resetRecord).bootRaised.bootEvent.readOther 0).readOther 1).mode.ready = true ∧
    (((s.becomeReady.flintLock.resetRecord).bootRaised.bootEvent.readOther 0).readOther 1).reg BOOT_STAT.w.key =
      s.reg BOOT_STAT.w.key := by
  obtain ⟨-, hready, -⟩ := State.becomeReady_shows h
  have hreg1 := (s.becomeReady_keeps .refl (within?_self _)).reg_eq (k := BOOT_STAT.w.key) (by decide)
  generalize s.becomeReady = a at *
  have hreg2 := (a.flintLock_keeps .refl (within?_self _)).reg_eq (k := BOOT_STAT.w.key) (by decide)
  have hheard2 := Heard.flintLock a
  generalize a.flintLock = b at *
  have hreg3 := (b.resetRecord_keeps .refl (within?_self _)).reg_eq (k := BOOT_STAT.w.key) (by decide)
  have hheard3 := Heard.resetRecord b
  generalize b.resetRecord = c at *
  obtain ⟨hheard4, hreg4⟩ := c.bootRaised_heard
  generalize c.bootRaised = d at *
  have hreg5 := (d.bootEvent_keeps .refl (within?_self _)).reg_eq (k := BOOT_STAT.w.key) (by decide)
  have hheard5 := Heard.bootEvent d
  generalize d.bootEvent = e at *
  have h0 := e.readOther_keeps 0 .refl (within?_self _)
  have h1 := (e.readOther 0).readOther_keeps 1 .refl (within?_self _)
  have hheard : Heard a ((e.readOther 0).readOther 1) :=
    hheard2.trans (hheard3.trans (hheard4.trans (hheard5.trans ((Heard.of_keeps h0 (by decide)).trans (.of_keeps h1 (by decide))))))
  refine ⟨hheard.ready.trans hready, ?_⟩
  rw [h1.reg_eq (by decide), h0.reg_eq (by decide), hreg5, hreg4, hreg3, hreg2, hreg1]

/-! ### HOST-LOAD wait -/

/-- HOST-LOAD wait as the registers show it. -/
def State.waitShown (s : State) : State :=
  let s := ((s.put BOOT_STAT.STAGE 4).put BOOT_STAT.SRC 3).putAll DEV_STEP.HIF_EPOCH 1
  let s := ((s.readOther 0).readOther 1).lockFlint (if s.flint.secretOk then 0 else 2)
  { s with mode := { s.mode with ready := true } }

theorem exec_hostLoadWait (h : s.boot.hedgehog = true ∧ s.get MODE.CUR = 3 ∧ s.get BOOT_STAT.STAGE = 1 ∧ s.boot.attempt = none) :
    exec .hostLoadWait s = .next s.waitShown.bootEvent := congrArg Host.Outcome.next (if_pos h)

theorem State.waitShown_shows (h : s.Tidy) : s.waitShown.get BOOT_STAT.STAGE = 4 ∧ s.waitShown.get BOOT_STAT.SRC = 3 ∧
    s.waitShown.mode.ready = true := by
  have h1 : (s.put BOOT_STAT.STAGE 4).Tidy := State.tidy_put h
  have hstage : ((s.put BOOT_STAT.STAGE 4).put BOOT_STAT.SRC 3).get BOOT_STAT.STAGE = 4 :=
    (State.get_put_other h1 (by decide) (by decide) (by decide)).trans (State.get_put_self h (by decide))
  have hsrc : ((s.put BOOT_STAT.STAGE 4).put BOOT_STAT.SRC 3).get BOOT_STAT.SRC = 3 := State.get_put_self h1 (by decide)
  unfold State.waitShown
  generalize (s.put BOOT_STAT.STAGE 4).put BOOT_STAT.SRC 3 = a at *
  have ha : Keeps (areasMask [.reg DEV_STEP.w]) a (a.putAll DEV_STEP.HIF_EPOCH 1) := State.putAll_keeps _ _ _ .refl (by decide)
  dsimp only
  generalize a.putAll DEV_STEP.HIF_EPOCH 1 = b at *
  have h0 := b.readOther_keeps 0 .refl (within?_self _)
  have h1 := (b.readOther 0).readOther_keeps 1 .refl (within?_self _)
  have h2 := ((b.readOther 0).readOther 1).lockFlint_keeps (if b.flint.secretOk then 0 else 2) .refl (within?_self _)
  have hget (x : Fld) (hx : x.key = BOOT_STAT.w.key) :
      (((b.readOther 0).readOther 1).lockFlint (if b.flint.secretOk then 0 else 2)).get x = a.get x := by
    rw [h2.get_eq (by rw [hx]; decide), h1.get_eq (by rw [hx]; decide), h0.get_eq (by rw [hx]; decide),
      ha.get_eq (by rw [hx]; decide)]
  generalize ((b.readOther 0).readOther 1).lockFlint (if b.flint.secretOk then 0 else 2) = c at *
  exact ⟨(hget BOOT_STAT.STAGE rfl).trans hstage, (hget BOOT_STAT.SRC rfl).trans hsrc, rfl⟩

/-- The first attempt of a flash channel whose preferred slot passes. -/
theorem State.flashChannel_first (h : s.Tidy) {pref : Nat} (hhead : s.headFault (slotBase pref) 1 = 0) :
    (s.flashChannel pref).boot.attempt = some (pref, true) ∧ (s.flashChannel pref).get BOOT_FAULT.w = 0 := by
  have h1 : (s.put BOOT_FAULT.w 0).Tidy := State.tidy_put h
  have hfault : ((s.put BOOT_FAULT.w 0).put BOOT_FBLK.w 0xFFFF).get BOOT_FAULT.w = 0 :=
    (State.get_put_ne _ _ (by decide)).trans (State.get_put_self h (by decide))
  have hmem : ((s.put BOOT_FAULT.w 0).put BOOT_FBLK.w 0xFFFF).mem = s.mem := rfl
  unfold State.flashChannel
  generalize (s.put BOOT_FAULT.w 0).put BOOT_FBLK.w 0xFFFF = a at *
  dsimp only
  have hhead' : ({ a with boot := { a.boot with pref := pref } } : State).headFault (slotBase pref) 1 = 0 :=
    (State.headFault_congr (t := { a with boot := { a.boot with pref := pref } }) hmem (slotBase pref) 1).trans hhead
  rw [State.tryOrder]
  dsimp only
  rw [if_neg (fun ⟨hno, _⟩ => hno rfl), if_neg (fun hne => hne hhead')]
  exact ⟨rfl, hfault⟩

theorem State.flashChannel_block (h : s.Tidy) (pref : Nat) : (s.flashChannel pref).get BOOT_FBLK.w = 0xFFFF := by
  have h1 : (s.put BOOT_FAULT.w 0).Tidy := State.tidy_put h
  have hblk : ({ (s.put BOOT_FAULT.w 0).put BOOT_FBLK.w 0xFFFF with boot := { s.boot with pref := pref } } : State).get BOOT_FBLK.w =
    0xFFFF := State.get_put_self h1 (by decide)
  have hk := State.tryOrder_keeps ({ (s.put BOOT_FAULT.w 0).put BOOT_FBLK.w 0xFFFF with boot := { s.boot with pref := pref } } : State)
    [(pref, true), (1 - pref, true), (pref, false), (1 - pref, false)] .refl (within?_self _)
  exact (hk.get_eq (by decide)).trans hblk

end Sys2Proof.Machine
end

section
/-! PROOFS. The heartbeat, and the ends of a boot together (O6). -/

namespace Sys2Proof.Machine

open R

variable {s t u : State} {f g : Fn}

/-! ### A heartbeat that stays out -/

/-- An expiry is counted. -/
def State.hbNoted (s : State) : State :=
  let s := (s.inc HLT_CNT_HB.w).noteFault
  { s with hlt := { s.hlt with storms := [s.aon] } }

theorem exec_martenHeartbeatTimeout (h : s.hlt.hbArmed = true ∧ s.boot.marten = true ∧ s.mode.resting = false ∧
    s.hlt.storms = []) : exec (.martenHeartbeatTimeout true) s = .next
      (if s.hbNoted.get MODE.CUR = 3 then s.hbNoted.restartMarten else s.hbNoted.reloadMarten) := by
  obtain ⟨harmed, hmarten, hrest, hstorms⟩ := h
  have hkept : ((s.inc HLT_CNT_HB.w).noteFault).hlt.storms = [] := hstorms
  change execMartenHeartbeatTimeout true s = _
  rw [execMartenHeartbeatTimeout, if_pos ⟨harmed, hmarten, by simp [hrest]⟩]
  dsimp only
  rw [hkept, if_neg (by simp), if_neg (by simp)]
  rfl

/-- What an expiry ends. -/
def State.expiryEnded (s : State) : State :=
  let s : State := { s with boot := { s.boot with marten := false } }
  ((s.endActivities 4 none).timeOutOps).dropCal

/-- Marten is out, and its staging left to the journal. -/
def State.expiryShut (s : State) : State :=
  let i := s.img
  { s with
    img := { i with staging := false, journal := i.journal || i.staging }, hlt := { s.hlt with hbArmed := false },
    mode := { s.mode with ready := false, restNow := false } }

theorem State.expiry_eq (s : State) : s.expiry = (s.expiryEnded.recordCause 6).expiryShut.showMaintain := by
  unfold State.expiry
  rfl

theorem State.cal_dropCal (s : State) : s.dropCal.fe.cal = none := by
  unfold State.dropCal
  split
  · rfl
  · next h => simpa using h

/-- What every expiry leaves. -/
theorem State.expiry_shows (h : s.Tidy) : s.expiry.Tidy ∧ s.expiry.boot.marten = false ∧ s.expiry.hlt.hbArmed = false ∧
    s.expiry.mode.ready = false ∧ s.expiry.fe.cal = none ∧ (s.get MODE.CUR = 3 → s.expiry.get MODE.CUR = 3) := by
  have h0 : ({ s with boot := { s.boot with marten := false } } : State).Tidy := h
  have hmarten0 : ({ s with boot := { s.boot with marten := false } } : State).boot.marten = false := rfl
  have hcur0 : ({ s with boot := { s.boot with marten := false } } : State).get MODE.CUR = s.get MODE.CUR := rfl
  rw [State.expiry_eq]
  unfold State.expiryEnded
  dsimp only
  generalize ({ s with boot := { s.boot with marten := false } } : State) = a at *
  have hend := a.endActivities_keeps 4 none .refl (within?_self _)
  have htime := (a.endActivities 4 none).timeOutOps_keeps .refl (within?_self _)
  have hdrop := (a.endActivities 4 none).timeOutOps.dropCal_keeps .refl (within?_self _)
  have hcal := (a.endActivities 4 none).timeOutOps.cal_dropCal
  have hboot : (a.endActivities 4 none).timeOutOps.dropCal.boot = a.boot :=
    Eq.trans (hdrop.same (a := .boot) (by decide)) (Eq.trans (htime.same (a := .boot) (by decide)) (hend.same (a := .boot) (by decide)))
  have h1 := hdrop.tidy (htime.tidy (hend.tidy h0))
  have hcur : a.get MODE.CUR = 3 → ((a.endActivities 4 none).timeOutOps.dropCal).get MODE.CUR = 3 := fun hboots =>
    (((State.booting.endActivities ⟨h0, hboots⟩ 4 none).of_keeps htime (by decide)).of_keeps hdrop (by decide)).2
  generalize (a.endActivities 4 none).timeOutOps.dropCal = b at *
  have hrec := b.recordCause_keeps 6 .refl (within?_self _)
  have h2 : (b.recordCause 6).Tidy := hrec.tidy h1
  have hboot2 : (b.recordCause 6).boot = b.boot := hrec.same (a := .boot) (by decide)
  have hfe2 : (b.recordCause 6).fe = b.fe := hrec.same (a := .frontEnd) (by decide)
  have hcur2 : (b.recordCause 6).get MODE.CUR = b.get MODE.CUR := hrec.get_eq (by decide)
  generalize b.recordCause 6 = c at *
  have h3 : c.expiryShut.Tidy := h2
  have hkept : c.expiryShut.boot = c.boot ∧ c.expiryShut.fe = c.fe ∧ c.expiryShut.get MODE.CUR = c.get MODE.CUR ∧
    c.expiryShut.hlt.hbArmed = false ∧ c.expiryShut.mode.ready = false := ⟨rfl, rfl, rfl, rfl, rfl⟩
  generalize c.expiryShut = d at *
  obtain ⟨hboot3, hfe3, hcur3, harmed, hready⟩ := hkept
  have hshow := d.showMaintain_keeps .refl (within?_self _)
  have hboot4 : d.showMaintain.boot = a.boot :=
    Eq.trans (hshow.same (a := .boot) (by decide)) (hboot3.trans (hboot2.trans hboot))
  have hfe4 : d.showMaintain.fe = b.fe := Eq.trans (hshow.same (a := .frontEnd) (by decide)) (hfe3.trans hfe2)
  have hhlt4 : d.showMaintain.hlt = d.hlt := hshow.same (a := .health) (by decide)
  have hmode4 : d.showMaintain.mode = d.mode := hshow.same (a := .mode) (by decide)
  refine ⟨hshow.tidy h3, by rw [hboot4, hmarten0], by rw [hhlt4, harmed], by rw [hmode4, hready], by rw [hfe4, hcal], fun hboots => ?_⟩
  have hbooting : d.booting := ⟨h3, hcur3.trans (hcur2.trans (hcur (hcur0.trans hboots)))⟩
  exact hbooting.showMaintain.2

theorem State.restartMarten_shows (h : s.Tidy) (hcur : s.get MODE.CUR = 3) : s.restartMarten.get MODE.CUR = 3 ∧
    s.restartMarten.get BOOT_STAT.STAGE = 1 ∧ s.restartMarten.boot.marten = false ∧ s.restartMarten.hlt.hbArmed = false ∧
    s.restartMarten.fe.cal = none := by
  obtain ⟨h1, hmarten, harmed, -, hcal, hboots⟩ := State.expiry_shows h
  unfold State.restartMarten
  generalize s.expiry = a at *
  exact ⟨(State.get_put_ne _ _ (by decide)).trans (hboots hcur), State.get_put_self h1 (by decide), hmarten, harmed, hcal⟩

/-- Marten is to be loaded again. -/
def State.reloadDue (s : State) : State := { s.wantReadmit with boot := { s.wantReadmit.boot with reload := true } }

theorem State.reloadMarten_eq (s : State) :
    s.reloadMarten = ((s.expiry.reloadDue.put MODE.CUR 3).put BOOT_STAT.STAGE 2).inc BOOT_CNT.ALL := rfl

theorem State.reloadMarten_shows (h : s.Tidy) : s.reloadMarten.get MODE.CUR = 3 ∧ s.reloadMarten.boot.reload = true ∧
    s.reloadMarten.mode.ready = false := by
  obtain ⟨h1, -, -, hready, -⟩ := State.expiry_shows h
  rw [State.reloadMarten_eq]
  generalize s.expiry = a at *
  have h2 : a.reloadDue.Tidy := h1
  have hkept : a.reloadDue.boot.reload = true ∧ a.reloadDue.mode.ready = false := ⟨rfl, hready⟩
  generalize a.reloadDue = b at *
  obtain ⟨hreload, hready2⟩ := hkept
  exact ⟨(State.get_inc_ne _ (by decide)).trans ((State.get_put_ne _ _ (by decide)).trans (State.get_put_self h2 (by decide))),
    hreload, hready2⟩

/-! ### The obligation -/

/-- Settles O6: Pika by `State.pikaDeferred_shows`, READY by `State.becomeReady_shows` and `State.bootServed_shows`, HOST-LOAD wait
by `State.waitShown_shows`, the heartbeat by `State.expiry_shows`. -/
theorem bootEndsComplete : Obligations.BootEndsComplete := by
  refine ⟨fun s hc ⟨hmarten, hpika, hgo, hsame, hne⟩ => ?_, fun s hc ⟨hmarten, hpika, hgo, hdiff⟩ => ?_,
    .intro _ (fun s h => congrArg Host.Outcome.next (if_pos h)) fun s hc _ => ⟨State.get_put_self hc.tidy (by decide), .put (by decide) 2⟩,
    .intro _ (fun s ⟨hawake, hpika, hsource, hallowed, _⟩ => exec_pikaDeferredLoad ⟨hawake, hpika, hsource, hallowed⟩)
      fun s hc ⟨_, _, _, _, htrusted⟩ => State.pikaDeferred_shows hc.tidy _ htrusted,
    .intro _ (fun s h => exec_bootReady_reload h) fun s hc _ => ?_,
    fun slot tr => .intro _ (fun s h => exec_bootReady h) fun s hc _ => ?_,
    .intro _ (fun s h => exec_hostLoadWait h) fun s hc _ => ?_,
    .intro _ (fun s h => congrArg Host.Outcome.next (if_pos h)) fun s hc _ => ?_,
    fun s hc ⟨harmed, hmarten, hrest, hstorms, hcur⟩ => ?_, fun s hc ⟨harmed, hmarten, hrest, hstorms, hcur⟩ => ?_⟩
  case refine_1 =>
    have hexec := exec_pikaGo ⟨hmarten, hpika, hgo⟩
    rw [if_pos ⟨hsame, hne⟩] at hexec
    have h1 : ({ s with boot := { s.boot with pikaGo := true } } : State).Tidy := hc.tidy
    exact ⟨_, hexec, rfl, fun f => State.fget_putAll h1 (by decide) (by decide)⟩
  case refine_2 =>
    have hexec := exec_pikaGo ⟨hmarten, hpika, hgo⟩
    rw [if_neg fun ⟨hsame, _⟩ => hdiff hsame] at hexec
    obtain ⟨h1, -, hboot⟩ := State.pikaGone_shows hc.tidy
    generalize s.pikaGone = a at *
    have h2 : (a.putAll FN_STATE.COMPAT 1).Tidy := State.tidy_putAll h1
    have hcompat (f : Fn) : (a.putAll FN_STATE.COMPAT 1).fget f FN_STATE.COMPAT = 1 := State.fget_putAll h1 (by decide) (by decide)
    have hboot2 : (a.putAll FN_STATE.COMPAT 1).boot = a.boot := rfl
    generalize a.putAll FN_STATE.COMPAT 1 = b at *
    have hk := b.security_keeps .refl (within?_self _)
    have hboot3 : b.security.boot = b.boot := hk.same (a := .boot) (by decide)
    exact ⟨_, hexec, by rw [hboot3, hboot2, hboot]; exact hgo, fun f => (hk.fget_eq (by decide)).trans (hcompat f),
      State.fget_security h2⟩
  case refine_3 =>
    have h1 : s.reloadOver.Tidy := State.tidy_put hc.tidy
    have hstage : s.reloadOver.get BOOT_STAT.STAGE = 3 := State.get_put_self hc.tidy (by decide)
    have hreload : s.reloadOver.boot.reload = false := rfl
    generalize s.reloadOver = a at *
    obtain ⟨-, hready, -, -, hboot⟩ := State.becomeReady_shows h1
    have hk := a.becomeReady_keeps .refl (within?_self _)
    have hstage2 : a.becomeReady.get BOOT_STAT.STAGE = 3 := (hk.get_eq (by decide)).trans hstage
    generalize a.becomeReady = b at *
    have hrec := b.resetRecord_keeps .refl (within?_self _)
    have hboot2 : b.resetRecord.boot = b.boot := hrec.same (a := .boot) (by decide)
    exact ⟨(Heard.resetRecord b).ready.trans hready, (hrec.get_eq (by decide)).trans hstage2, by rw [hboot2, hboot]; exact hreload⟩
  case refine_4 =>
    obtain ⟨h1, hstage, htrusted⟩ := State.bootTold_shows hc.tidy tr
    generalize s.bootTold tr = a at *
    have hnoted := a.bootNoted_frame tr
    obtain ⟨h2, hreg⟩ := State.bootPlanned_shows (hnoted.tidy h1)
    have hreg1 := hnoted.reg_eq (k := BOOT_STAT.w.key) (by decide)
    generalize (a.bootNoted tr).bootPlanned = b at *
    obtain ⟨hready, hreg2⟩ := State.bootServed_shows h2
    have hall := hreg2.trans (hreg.trans hreg1)
    exact ⟨hready, (State.get_of_reg (x := BOOT_STAT.STAGE) hall).trans hstage,
      (State.bit_of_get_eq (State.get_of_reg (x := BOOT_STAT.TRUSTED) hall)).trans htrusted⟩
  case refine_5 =>
    obtain ⟨hstage, hsrc, hready⟩ := State.waitShown_shows hc.tidy
    generalize s.waitShown = a at *
    have hk := a.bootEvent_keeps .refl (within?_self _)
    exact ⟨(hk.get_eq (by decide)).trans hstage, (hk.get_eq (by decide)).trans hsrc, (Heard.bootEvent a).ready.trans hready⟩
  case refine_6 =>
    obtain ⟨_, _, hboot⟩ := s.boot_flashChannel s.img.prefSlot
    exact ⟨State.flashChannel_block hc.tidy _, by rw [hboot], State.flashChannel_first hc.tidy⟩
  case refine_7 =>
    have hexec := exec_martenHeartbeatTimeout ⟨harmed, hmarten, hrest, hstorms⟩
    have h1 : s.hbNoted.Tidy := State.tidy_inc (x := HLT_CNT_HB.w) hc.tidy
    have hcur1 : s.hbNoted.get MODE.CUR = s.get MODE.CUR := State.get_inc_ne _ (by decide)
    rw [if_neg (by rw [hcur1]; exact hcur)] at hexec
    exact ⟨_, hexec, State.reloadMarten_shows h1⟩
  case refine_8 =>
    have hexec := exec_martenHeartbeatTimeout ⟨harmed, hmarten, hrest, hstorms⟩
    have h1 : s.hbNoted.Tidy := State.tidy_inc (x := HLT_CNT_HB.w) hc.tidy
    have hcur1 : s.hbNoted.get MODE.CUR = 3 := (State.get_inc_ne _ (by decide)).trans hcur
    rw [if_pos hcur1] at hexec
    exact ⟨_, hexec, State.restartMarten_shows h1 hcur1⟩

end Sys2Proof.Machine
end

section
/-! PROOFS. A staging journal whose target is no slot (O7). -/

namespace Sys2Proof.Machine

open R

/-- An IMAGE object that is held in flash. -/
def heldImage : Obj := ⟨0, 0, 4, 0, [], 2, 0, [], false, [], .f0, some (0, 1), 0, false⟩

/-- A journal from that object, whose target is 2. -/
def journalOfTwo : State := { readyUnit with
  edf := { Edf.start with objs := [heldImage] }, img := { Img.start with journal := true, target := 2 } }

theorem canon_journalOfTwo : journalOfTwo.Canon := resetIsCanonical

/-- TARGET is one bit wide, and shows 0. -/
theorem exec_stagingJournalResume_two : ∃ t, exec .stagingJournalResume journalOfTwo = .next t ∧ t.get IMG_STAGE.TARGET = 0 :=
  ⟨_, rfl, by decide +kernel⟩

/-- Refutes O7: a resumed journal shows its target modulo 2, the width of `IMG_STAGE.TARGET`, and not modulo 4. -/
theorem not_imageCommandsComplete : ¬ Obligations.ImageCommandsComplete := by
  unfold Obligations.ImageCommandsComplete
  rintro ⟨-, -, -, -, -, -, -, -, -, hresume, -⟩
  obtain ⟨t, hexec, -, -, htarget⟩ := hresume journalOfTwo canon_journalOfTwo (by decide +kernel)
  obtain ⟨u, hu, hzero⟩ := exec_stagingJournalResume_two
  obtain rfl : t = u := Host.Outcome.next.inj (hexec.symm.trans hu)
  rw [hzero] at htarget
  exact absurd htarget (by decide)

end Sys2Proof.Machine
end

section
/-! PROOFS. A staging whose target is no slot (O60). -/

namespace Sys2Proof.Machine

open R

/-- A staging to target 2, the image window, whose source is gone; a byte stands in the window. -/
def stagingOfTwo : State :=
  let s : State := { readyUnit with img := { Img.start with staging := true, journal := true, target := 2, total := 1 } }
  (s.put IMG_STAGE.STATE 2).setByte 0x400000 1

/-- What a staging shows at its end. -/
def State.stageOver (s : State) (result : Nat) : State :=
  let s : State := { s with img := { s.img with staging := false, journal := false } }
  let s := if result = gFLASH then s.noteFlash else s
  s.showStage (if result = 0 then 4 else 5) result

theorem State.stageOver_kept (s : State) (result : Nat) : (s.stageOver result).mem = s.mem ∧
    (s.stageOver result).img.held = s.img.held := by
  unfold State.stageOver
  dsimp only
  split
  · exact ⟨rfl, rfl⟩
  · exact ⟨rfl, rfl⟩

/-- With no object held back the end of a staging stores nothing. -/
theorem State.mem_stageEnd {s : State} (hheld : s.img.held = []) (result : Nat) : (s.stageEnd result).mem = s.mem := by
  obtain ⟨hmem, hkept⟩ := s.stageOver_kept result
  have hnone : (s.stageOver result).img.held = [] := hkept.trans hheld
  have hshape : s.stageEnd result =
      (((s.stageOver result).raise1 jBOOT_EVENT).chargeOpen .f0).reapStaged.showMaintain.startHeld := rfl
  rw [hshape]
  generalize s.stageOver result = a at *
  have hraise := a.raise1_keeps jBOOT_EVENT .refl (within?_self _)
  have hcharge := (a.raise1 jBOOT_EVENT).chargeOpen_keeps .f0 .refl (within?_self _)
  have hreap := ((a.raise1 jBOOT_EVENT).chargeOpen .f0).reapStaged_keeps .refl (within?_self _)
  have hshow := ((a.raise1 jBOOT_EVENT).chargeOpen .f0).reapStaged.showMaintain_keeps .refl (within?_self _)
  have hmem2 : (((a.raise1 jBOOT_EVENT).chargeOpen .f0).reapStaged.showMaintain).mem = a.mem :=
    Eq.trans (hshow.same (a := .memory) (by decide)) (Eq.trans (hreap.same (a := .memory) (by decide))
      (Eq.trans (hcharge.same (a := .memory) (by decide)) (hraise.same (a := .memory) (by decide))))
  have himg2 : (((a.raise1 jBOOT_EVENT).chargeOpen .f0).reapStaged.showMaintain).img = a.img :=
    Eq.trans (hshow.same (a := .image) (by decide)) (Eq.trans (hreap.same (a := .image) (by decide))
      (Eq.trans (hcharge.same (a := .image) (by decide)) (hraise.same (a := .image) (by decide))))
  generalize ((a.raise1 jBOOT_EVENT).chargeOpen .f0).reapStaged.showMaintain = b at *
  have hstart : b.startHeld = b := by
    unfold State.startHeld
    rw [himg2, hnone]
  rw [hstart, hmem2, hmem]

/-- A failed staging erases the header sector of its target, whatever the target is. -/
theorem State.byte_stageFail {s : State} (hheld : s.img.held = []) (result : Nat) {a : Nat} (hlow : slotBase s.img.target ≤ a)
    (hhigh : a < slotBase s.img.target + 0x1000) : (s.stageFail result).byte a = memDefault a := by
  have hslot := (s.eraseAt (slotBase s.img.target)).showSlot_keeps s.img.target 0 0x11 .refl (within?_self _)
  have hheld2 : ((s.eraseAt (slotBase s.img.target)).showSlot s.img.target 0 0x11).img.held = [] :=
    (congrArg Img.held (hslot.same (a := .image) (by decide)) : _).trans hheld
  have hmem : (s.stageFail result).mem = (s.eraseAt (slotBase s.img.target)).mem :=
    (State.mem_stageEnd hheld2 result).trans (hslot.same (a := .memory) (by decide))
  rw [State.byte_of_mem hmem, State.eraseAt, State.byte_dropMem, if_pos (by simp only [hlow, hhigh, decide_true, Bool.and_self])]

/-- The staging fails, and erases the start of the window. -/
theorem exec_stagingSectorWritten_two :
    ∃ t, exec (.stagingSectorWritten true) stagingOfTwo = .next t ∧ t.byte 0x400000 = 0 := by
  have hgone : stagingOfTwo.stageSrc = none := by decide +kernel
  have hstate : ¬ (stagingOfTwo.get IMG_STAGE.STATE ≠ 2 ∨ stagingOfTwo.img.total ≤ stagingOfTwo.img.next) := by decide +kernel
  have hexec : exec (.stagingSectorWritten true) stagingOfTwo = .next (stagingOfTwo.stageFail gGONE) := by
    change execStagingSectorWritten true stagingOfTwo = _
    rw [execStagingSectorWritten]
    dsimp only
    rw [if_pos (show stagingOfTwo.img.staging = true from rfl), if_neg hstate, hgone]
  exact ⟨_, hexec, State.byte_stageFail rfl gGONE (by decide) (by decide)⟩

theorem byte_stagingOfTwo : stagingOfTwo.byte 0x400000 = 1 := by decide +kernel

/-- Refutes O60: a staging whose target is 2 erases a sector at the image window, outside the two slots. -/
theorem not_storingCommandsKeepOtherMemory : ¬ Obligations.StoringCommandsKeepOtherMemory := by
  unfold Obligations.StoringCommandsKeepOtherMemory
  rintro ⟨-, -, -, -, -, -, -, -, -, -, -, -, -, -, -, -, -, -, -, -, -, -, -, -, -, -, -, -, -, -, -, -, -, -, -, hsector, -⟩
  obtain ⟨t, hexec, hkept⟩ := hsector true stagingOfTwo (by decide +kernel)
  obtain ⟨u, hu, herased⟩ := exec_stagingSectorWritten_two
  obtain rfl : t = u := Host.Outcome.next.inj (hexec.symm.trans hu)
  have hbyte := hkept 0x400000 (by decide)
  rw [herased, byte_stagingOfTwo] at hbyte
  exact absurd hbyte (by decide)

end Sys2Proof.Machine
end
